-- ==== Sys2Proof/Word.lean ====
section
/-!
DEFINITION. The word types of the part and their plainest arithmetic: registers are 64 bits wide (R7), memory is
addressed by bytes, a command or a descriptor is 64 bytes (R199, R68). Fields of a word are read and written by
position and width, counted from bit 0, the least significant bit (R1, R2).
-/
namespace Sys2Proof

/-- A register (R7). -/
abbrev Word := BitVec 64

/-- A byte of memory. -/
abbrev Byte := BitVec 8

/-- The field of width `w` at bit `lo` of a natural number read as a row of bits (R2). -/
def bitsAt (x lo w : Nat) : Nat := (x >>> lo) % 2 ^ w

/-- The bit `lo` of a natural number read as a row of bits. -/
def bitAt (x lo : Nat) : Bool := x.testBit lo

/-- `x` with the field of width `w` at bit `lo` replaced by the low `w` bits of `v`. -/
def putBits (x lo w v : Nat) : Nat :=
  x - (bitsAt x lo w) * 2 ^ lo + (v % 2 ^ w) * 2 ^ lo

/-- The field of width `w` at bit `lo` of a register. -/
def Word.field (x : Word) (lo w : Nat) : Nat := bitsAt x.toNat lo w

/-- A register with one field replaced. -/
def Word.setField (x : Word) (lo w v : Nat) : Word :=
  BitVec.ofNat 64 (putBits x.toNat lo w v)

/-- The number that a row of bytes spells, the first byte the least significant (R1). -/
def natOfBytes : List Byte → Nat
  | [] => 0
  | b :: t => b.toNat + 256 * natOfBytes t

/-- The `n` bytes of a number, the least significant first (R1). -/
def bytesOfNat : Nat → Nat → List Byte
  | 0, _ => []
  | n + 1, x => BitVec.ofNat 8 x :: bytesOfNat n (x / 256)

/-- The least multiple count: `a / b` rounded up. -/
def ceilDiv (a b : Nat) : Nat := (a + b - 1) / b

/-- The two's complement reading of a field of width `w`. -/
def signed (w x : Nat) : Int :=
  if x % 2 ^ w < 2 ^ (w - 1) then (x % 2 ^ w : Nat) else ((x % 2 ^ w : Nat) : Int) - (2 ^ w : Nat)

/-- The two's complement code of width `w` of an integer. -/
def codeOfInt (w : Nat) (x : Int) : Nat := (x % (2 ^ w : Nat)).toNat

end Sys2Proof
end

