-- ==== Sys2Proof/Syntax.lean ====
section
/-!
DEFINITION. The commands of the block: one constructor for every row of the spec's table of operations and events,
with the row's operands. What the physical world decides (a fault, a reading, a received frame) is an operand of the
command that brings it.
-/
namespace Sys2Proof

/-- What the hardware does to a command of an engine while it executes (R121, R128, R137): physical faults are no
function of the state, so the command's row brings them. -/
inductive Hw where
  /-- A parity error on an operand path, mended by a resend. -/
  | path
  /-- A fourth consecutive parity error on a transfer of the command. -/
  | pathFail
  /-- The bank, the bullpen or a checksum row holds bad parity. -/
  | bank
  /-- The byte of memory at a CPA has turned bad; it stays so until it is written. -/
  | cell (a : Nat)
  /-- The byte of memory at a CPA was read with bad parity once and well the second time. -/
  | cellOnce (a : Nat)
  /-- Entry `k` of the correction buffer, or the outlier binding of a slot, has turned bad; it stays so until it is written. -/
  | corr (k : Nat)
  | binding (slot : Nat)
  /-- The line of tier 1 or tier 2 at a CPA is read with an error pattern: (symbol, error value) pairs. -/
  | line (a : Nat) (errs : List (Nat × Nat))
  /-- A tensor block was read with a bad check value, or with another block's identifier, once, and well when it was re-read: the
  block at a CPA of tier 1 or tier 2, or at a byte offset of the transfer's object of tier 3, or block `a` / 4096 of a Z-pack source. -/
  | reread (a : Nat)
  | rereadId (a : Nat)
  /-- A unit of an object of tier 3 has decayed so far that it needs a read mode of R259: 1 RETRY, 2 RECONSTRUCT, 3 none. -/
  | unit (object unit mode : Nat)
  /-- The cache line of tier 2 at a CPA holds bad parity (R255). -/
  | cacheLine (a : Nat)
  /-- The check of a unit of work (row, tile or batch) fails, in a mask of column blocks. -/
  | mismatch (unit mask : Nat)
  /-- The two runs of a unit of work of a replay-verified core differ (R133). -/
  | differ (unit : Nat)
  deriving DecidableEq, Repr

/-- How an arbitration's replays compare (R130): the same-core replay agrees with the stored checker; it equals the
original; the other core's replay equals the original, and the same-core replay; it agrees with the recomputed
checker. -/
structure Replays where
  sAgrees : Bool
  sEqO : Bool
  xEqO : Bool
  xEqS : Bool
  xAgrees : Bool
  deriving DecidableEq, Repr

/-- Who makes an access to register space (R301, R371, R428): the physical function, the virtual function of a partition, the
referee, a service-core hart, a DMA agent that carries a partition. -/
inductive Master where
  | pf
  | vf (p : Nat)
  | referee
  | hart (h : Nat)
  | agent (p : Nat)
  deriving DecidableEq, Repr

/-- What the monitors, the memory tests and the flash passes have measured when a margin plan is made (R395, Table 15-5): the
worst monitor slack in ps for each (island, point) used since the last plan; the shortest retention in ns of a tier-1 stack
and of a tier-2 channel; for a flash channel its seven threshold offsets as 7 bytes, its mean program/erase cycles and its
corrected bits; the corrected errors in 24 h of a pseudo-channel (die, map bit) and of a channel, and whether a line was
uncorrectable without a write race; the physical cores (die, slot) whose monitors alone hold their island's FMAX above
point 5; the ring-oscillator drift of an island in ppm. -/
structure PlanInput where
  slacks : List (Nat × Nat × Int)
  t1Ret : List (Nat × Nat)
  t2Ret : List (Nat × Nat)
  flash : List (Nat × Nat × Nat × Nat)
  t1Errs : List (Nat × Nat × Nat × Bool)
  t2Errs : List (Nat × Nat × Bool)
  cores : List (Nat × Nat)
  drift : List (Nat × Int)
  deriving DecidableEq, Repr

/-- How a request of Table 14-9 reaches the referee (R378): on mailbox channel 0, or in an MCTP message with its SEQ, its ARG and
its 120 bytes of data as a number. -/
inductive ReqPath where
  | channel0
  | mctp (seq arg data : Nat)
  deriving DecidableEq, Repr

/-- What the self-test of a boot phase finds (Table 14-2): a failing physical core, tier-1 pseudo-channel (its map bit), tier-2
channel, flash channel, Ergal lane, or other unit; the referee area, the boot area or the firmware image unreadable; a slot's
revocation fuse whose burn does not verify; a record of the learned pattern set, by its place, whose CHECK fails (R136). -/
inductive BootFinding where
  | core (die slot : Nat)
  | t1 (die bit : Nat)
  | t2 (channel : Nat)
  | flash (channel : Nat)
  | lane (port lane : Nat)
  | block (unit : Nat)
  | refArea
  | bootArea
  | image
  | fuse (slot : Nat)
  | record (index : Nat)
  deriving DecidableEq, Repr

/-- The privilege with which a service-core hart makes an access (R23): machine mode, whose addresses are CPAs; supervisor or user
mode, whose addresses satp translates; a guest's supervisor or user mode, by vsatp and hgatp. `user` is user mode; `sum` and `mxr` are the
status bits of those names. -/
inductive HartMode where
  | machine
  | host (user sum mxr : Bool)
  | guest (user sum mxr : Bool)
  deriving DecidableEq, Repr

/-- What a service-core hart does at an address, with a number of bytes (R23, R24, R32): a load or a store; the eviction of the
line of a CPA; CBO.CLEAN, CBO.FLUSH and CBO.INVAL of an address; a load, or a store, that meets a parity error in the cached line
of a CPA (R121); a read of the time CSR; a write of satp, vsatp or hgatp, whose number stands for the address. -/
inductive HartAccess where
  | load (mode : HartMode)
  | store (mode : HartMode) (value : Nat)
  | evict
  | clean (mode : HartMode)
  | flush (mode : HartMode)
  | inval (mode : HartMode)
  | parity (store : Bool)
  | readTime
  | writeCsr (value : Nat)
  deriving DecidableEq, Repr

/-- Where a write of a doorbell page goes (R302, R303): the function (0 the PF, p + 1 the VF of partition p), the page within its
kind, the offset in the page, and the size in bytes. -/
structure DoorAddr where
  fn : Nat
  page : Nat
  offset : Nat
  size : Nat
  deriving DecidableEq, Repr

/-- What stands at the completion of a caddie's piece: the hardware's findings, and the number of read-backs in a row that give other
bytes (R278). -/
structure PieceRun where
  hw : List Hw
  mism : Nat
  deriving DecidableEq, Repr

/-- A fingerprint round of a partition (R138): on a chip whose copy is not the owner's, or on the owner, to which the other copies have
sent their fingerprints. -/
inductive FpRound where
  | copy (p : Nat)
  | owner (p : Nat) (received : List Nat)
  deriving DecidableEq, Repr

/-- What is read (R7, R302): the register space, by a master of the bus; BAR4 of a function (0 the PF, p + 1 the VF of p). -/
inductive ReadPath where
  | space (who : Master)
  | bar4 (fn : Nat)
  deriving DecidableEq, Repr

/-- A write of the host in configuration space or in a function's MSI-X structures (R298, R308, R313): the power state, ATS
enable, the MSI-X enable and function mask, one entry of the MSI-X table. -/
inductive ConfigWrite where
  | power (hot : Bool)
  | ats (on : Bool)
  | msix (on mask : Bool)
  | msixEntry (vector addr data : Nat) (masked : Bool)
  deriving DecidableEq, Repr


/-- A command of the block. Each constructor is one row of spec/opcode_table.json; its rule is named. -/
inductive Instr where
  /-- REGISTER_WRITE (R11): A write to a register that has no row of its own, applied by its access code, with misaligned or wrongly sized accesses discarded and counted. -/
  | registerWrite (who : Master) (off : Nat) (size : Nat) (value : Nat)
  /-- PRIVILEGED_READ (R416): A read of a privileged register by an identity not allowed it returns zero, is counted in TRC_CNT_3 and raises DBG_PRIV at most once per millisecond. -/
  | privilegedRead (who : Master) (off : Nat) (size : Nat)
  /-- SYN_WAITERS_READ (R11): A read of SYN_WAITERS returns PEAK and then clears it in the same access. -/
  | synWaitersRead (who : Master) (byte : Nat) (size : Nat)
  /-- ARR_LOAD (R80): The shifted load checks its operands and shifts a block into the stationary bank over 128 cycles once the array is free. -/
  | arrLoad (core : Nat) (hw : List Hw)
  /-- ARR_LOAD_DONE (R80): The last row of a shifted load enters, the bank becomes LOADED and the load retires. -/
  | arrLoadDone (core : Nat)
  /-- ARR_FILL (R80): The fill checks its operands and writes a block into the bullpen in the background, or waits for a running fill to finish. -/
  | arrFill (core : Nat) (hw : List Hw)
  /-- ARR_FILL_DONE (R80): A bullpen fill finishes, the bullpen becomes READY with its tables and zero flags, and the fill retires. -/
  | arrFillDone (core : Nat)
  /-- ARR_SWAP (R80): The swap exchanges bank and bullpen in one cycle once the array is free and the fill is done, or is refused at an EMPTY bullpen. -/
  | arrSwap (core : Nat) (hw : List Hw)
  /-- MATSTREAM (R83): The command streams rows through the loaded block and accumulates each row into scorebook entries, checking epoch tags and umpire residues row by row. -/
  | matstream (core : Nat) (hw : List Hw)
  /-- ARBITRATION_DECIDED (R130): The replays of an arbitrated unit finish and the outcome is applied: the result is written, the core is marked suspect or for benching, the pattern is recorded, or the command fails. -/
  | arbitrationDecided (core : Nat) (engine : Nat) (replays : Replays) (badRes : Nat) (pairs : List (Nat × Nat)) (hw : List Hw)
  /-- SBK_CLEAR (R91): The command sets a range of scorebook entries to +0, untagged, at 128 entries per cycle. -/
  | sbkClear (core : Nat) (hw : List Hw)
  /-- SBK_DRAIN (R95): The command reads scorebook entries and stores them through the store path into a tensor, clearing them if asked. -/
  | sbkDrain (core : Nat) (hw : List Hw)
  /-- SBK_SPILL (R96): The command writes scorebook values and tags to an image in the core store. -/
  | sbkSpill (core : Nat) (hw : List Hw)
  /-- SBK_RESTORE (R96): The command checks an image's tags and then writes its values and tags back into the scorebook. -/
  | sbkRestore (core : Nat) (hw : List Hw)
  /-- CNV_MATMUL (R104): The conventional unit computes exact ZF32 products tile by tile into the scorebook or a core-store tensor. -/
  | cnvMatmul (core : Nat) (hw : List Hw)
  /-- CNV_PROJ (R107): The conventional unit computes the low-rank projection into its correction buffer. -/
  | cnvProj (core : Nat) (hw : List Hw)
  /-- CNV_CORR (R108): The conventional unit computes U times the projection and merges the result into scorebook entries. -/
  | cnvCorr (core : Nat) (hw : List Hw)
  /-- OUT_BIND (R113): The playmaker sets or clears one outlier binding of the core. -/
  | outBind (core : Nat)
  /-- OUT_MATSTREAM (R117): The outlier unit adds weight and activation outlier terms of a tile into the scorebook. -/
  | outMatstream (core : Nat) (hw : List Hw)
  /-- STA_BIND (R142): The playmaker sets or clears one statistics binding, or refuses to do so. -/
  | staBind (core : Nat)
  /-- PFENCE (R162): The precision fence waits for the step's publication, takes the new epoch and optionally branches to the variant that the plan selects. -/
  | pfence (core : Nat)
  /-- STEP_END (R213): The step-end marker issues and holds every later command until all earlier commands retire. -/
  | stepEnd (core : Nat)
  /-- STEP_END_RETIRE (R213): Every earlier command has retired, so the marker retires and PMK_STEP increases by one. -/
  | stepEndRetire (core : Nat)
  /-- PMK_NOP (R220): A command with no operation carries only waits and signals and retires the cycle after issue. -/
  | pmkNop (core : Nat)
  /-- PMK_JUMP (R215): The jump continues fetch at a signed command offset, discarding and refilling the fetch buffer unless the offset is 1. -/
  | pmkJump (core : Nat)
  /-- PMK_END (R215): The end command ends the segment, and fetch moves on to the next queued segment. -/
  | pmkEnd (core : Nat)
  /-- LFENCE (R290): The layer fence checks its feed and layer, waits until the layer is resident for the core, and issues. -/
  | lfence (core : Nat)
  /-- VEC_EW (R221): The vector engine applies one ZF32 elementwise operation and stores the result tensor. -/
  | vecEw (core : Nat) (hw : List Hw)
  /-- VEC_REDUCE (R222): The vector engine reduces a tensor along DIM0 by SUM, MAX, MAXABS or SUMSQ. -/
  | vecReduce (core : Nat) (hw : List Hw)
  /-- OPT_NORM (R171): The vector engine counts non-finite gradients and sums their squares into the core's partial for one parameter group. -/
  | optNorm (core : Nat) (hw : List Hw)
  /-- OPT_UPDATE (R174): The vector engine waits for the step constants and applies the group's optimiser rule to every element of its operands. -/
  | optUpdate (core : Nat) (hw : List Hw)
  /-- DMA_XFER (R273): A core channel checks a transfer descriptor and moves bytes or verified blocks. -/
  | dmaXfer (core : Nat) (channel : Nat) (hw : List Hw) (n : Nat)
  /-- DMA_GATHER (R266): A core channel runs a gather list of gather, scatter or scatter-add accesses through the gather slices. -/
  | dmaGather (core : Nat) (channel : Nat) (hw : List Hw)
  /-- INVALID_COMMAND (R199): A head command with a reserved opcode, a wrong engine or reserved header bits is refused with HQ_CMD_INVALID and faults the core. -/
  | invalidCommand (core : Nat)
  /-- COMMAND_RETIRE (R206): An engine retires a command, frees its token and regions, and performs its signals or records its failure. -/
  | commandRetire (core : Nat) (engine : Nat)
  /-- SEGMENT_ARRIVE (R196): A segment record enters a core's segment queue at the dispatcher, or waits while the queue is full. -/
  | segmentArrive (core : Nat)
  /-- FETCH_RESPONSE (R202): A 1 KiB fetch request returns commands into the fetch buffer, or faults the core on parity or an unmapped read. -/
  | fetchResponse (core : Nat) (bad : Option Nat)
  /-- SEGMENT_COMPLETE (R198): A segment's PMK_END and every command it issued have retired, so the segment completes in queue order and posts its completion. -/
  | segmentComplete (core : Nat)
  /-- PMK_HALT (R217): Writing HALT 1 stops issue at the next command boundary, and the core drains. -/
  | pmkHalt (core : Nat)
  /-- PMK_RESUME (R217): Writing HALT 0 resumes issue at the head, keeping its completed sync waits. -/
  | pmkResume (core : Nat)
  /-- DRAIN_COMPLETE (R216): The last command in flight retires, and the playmaker enters HALTED or FAULTED. -/
  | drainComplete (core : Nat)
  /-- SYNC_WAIT (R226): A wait reaches an object's home and either takes a count or queues a waiter. -/
  | syncWait (core : Nat)
  /-- SYNC_SIGNAL (R227): A signal reaches an object's home and releases the oldest waiter or raises COUNT, or is refused. -/
  | syncSignal (ix : Nat)
  /-- SYNC_BROADCAST (R228): A broadcast reaches an object's home and releases every queued waiter without changing COUNT. -/
  | syncBroadcast (ix : Nat)
  /-- SYNC_WAIT_TIMEOUT (R230): A waiter's timeout expires, so the waiter is abandoned and its command or hart wait fails with SYN_TIMEOUT. -/
  | syncWaitTimeout (object : Nat) (place : Nat)
  /-- SYN_INIT (R237): The manual INIT operation sets an object's partition, owner, scope and counts and makes it ACTIVE. -/
  | synInit (pf : Bool) (object : Nat)
  /-- SYN_SET_COUNT (R237): The manual SET_COUNT operation writes COUNT and releases waiters while count remains. -/
  | synSetCount (pf : Bool) (object : Nat)
  /-- SYN_SET_STATE (R237): The manual SET_STATE operation moves an object between ACTIVE, FROZEN and ORPHANED. -/
  | synSetState (pf : Bool) (object : Nat)
  /-- SYN_CHECK (R236): The manual CHECK operation runs the balance check on a partition's range and reports only. -/
  | synCheck (pf : Bool)
  /-- SYN_RELEASE (R237): The manual RELEASE operation balance-checks one object and frees it. -/
  | synRelease (pf : Bool) (object : Nat)
  /-- HART_WAIT (R238): A hart's WAIT store on its wait port performs a wait, or is rejected when its records are full. -/
  | hartWait (hart : Nat) (object : Nat) (timeout : Nat) (cookie : Nat)
  /-- HART_SIGNAL (R238): A hart's SIGNAL store is applied locally or sent to another chip. -/
  | hartSignal (hart : Nat) (chip : Nat) (object : Nat)
  /-- HART_BROADCAST (R238): A hart's BROADCAST store is applied locally or sent to another chip. -/
  | hartBroadcast (hart : Nat) (chip : Nat) (object : Nat)
  /-- HART_CANCEL (R238): A hart's CANCEL store removes its oldest outstanding wait with the given cookie. -/
  | hartCancel (hart : Nat) (cookie : Nat)
  /-- PATROL_SCRUB (R249): The daily background pass of a memory controller reads lines and writes back those it corrected. -/
  | patrolScrub (lines : List (Nat × List (Nat × Nat)))
  /-- MAP_OUT_TAKE_EFFECT (R250): A PENDING unit's map-out takes effect once no region exists in its range, and MEM_MAPPED_OUT is raised. -/
  | mapOutTakeEffect (tier : Nat) (die : Nat)
  /-- REGION_CREATE (R253): The CREATE operation makes a region valid after checking type, range, overlap and quota. -/
  | regionCreate (pf : Bool) (region : Nat)
  /-- REGION_SEAL (R253): The SEAL operation makes a WEIGHT region read-only once its accepted writes have completed. -/
  | regionSeal (pf : Bool) (region : Nat)
  /-- REGION_FREE (R253): The FREE operation removes a region and invalidates its memory-side cache lines. -/
  | regionFree (pf : Bool) (region : Nat)
  /-- QUOTA_LOCK (R254): Writing LOCK of MEM_QUOTA_p validates the quotas against capacity and fixes them, or stays 0. -/
  | quotaLock (p : Nat)
  /-- T3_PATROL (R260): The weekly background read of tier 3 relocates pages with too many corrected bits. -/
  | t3Patrol (units : List (Nat × Nat × Nat))
  /-- T3_RELOCATE (R259): The referee rewrites a unit that needed RETRY or RECONSTRUCT to a fresh location. -/
  | t3Relocate (object : Nat) (unit : Nat)
  /-- FLASH_CHANNEL_FAIL (R260): A whole flash channel fails, so MEM_T3_DEGRADED is raised and RECONSTRUCT serves its units. -/
  | flashChannelFail (channel : Nat)
  /-- DMA_PAUSE (R279): Writing PAUSE 1 stops a channel's new reads and the channel drains toward PAUSED. -/
  | dmaPause (channel : Nat)
  /-- DMA_PAUSE_DRAINED (R279): A pausing channel finishes its in-flight data, its position becomes exact and it enters PAUSED. -/
  | dmaPauseDrained (channel : Nat)
  /-- DMA_RESUME (R279): Writing PAUSE 0 returns a paused channel to the state it paused from. -/
  | dmaResume (channel : Nat)
  /-- DMA_ABORT (R280): Writing ABORT 1 in PAUSED fails the transfer with XFR_ABORTED, and is discarded in any other state. -/
  | dmaAbort (channel : Nat)
  /-- DMA_RESTART (R286): Writing RESTART 1 moves a stopped chip channel to IDLE. -/
  | dmaRestart (channel : Nat)
  /-- TRANSFER_COMPLETE (R277): A transfer's reads, writes, verifications and any acknowledgements or read-back finish, and the transfer completes. -/
  | transferComplete (channel : Nat) (hw : List Hw) (mism : Nat)
  /-- CHIP_CHANNEL_DOORBELL (R285): A TAIL write posts descriptor entries to a chip channel's ring, or is discarded as an overrun. -/
  | chipChannelDoorbell (door : DoorAddr) (value : Nat)
  /-- CHIP_CHANNEL_ENTRY (R286): A chip channel takes the next ring entry, performs its wait and starts its transfer. -/
  | chipChannelEntry (channel : Nat) (hw : List Hw) (n : Nat)
  /-- CHIP_CHANNEL_ENTRY_DONE (R285): A chip-channel entry completes or fails, writes its status word and signals, or stops the channel. -/
  | chipChannelEntryDone (channel : Nat)
  /-- CAD_FEED_ENABLE (R287): Writing ENABLE validates and starts a caddie feed. -/
  | cadFeedEnable (feed : Nat)
  /-- CADDIE_LAYER_START (R289): The caddie starts fetching the next layer once every consumer has released the layer that leaves the window. -/
  | caddieLayerStart (feed : Nat)
  /-- CADDIE_PIECE_DONE (R289): A caddie piece completes, and the layer becomes resident for the cores whose pieces are all done. -/
  | caddiePieceDone (feed : Nat) (layer : Nat) (piece : Nat) (run : PieceRun)
  /-- LAYER_RELEASE (R291): The commands recorded at an LFENCE have retired, so the core releases the layers below it. -/
  | layerRelease (core : Nat)
  /-- RECOVERY_STEP_DONE (R293): A weight-recovery step ends, and its units are accepted or the next step runs. -/
  | recoveryStepDone (object : Nat)
  /-- RECOVERY_DEADLINE (R295): The recovery deadline passes, so running steps are abandoned and the recovery fails. -/
  | recoveryDeadline (object : Nat)
  /-- CAD_SUPPLY_GO (R293): Writing GO makes the caddie verify the units the driver supplied. -/
  | cadSupplyGo (p : Nat)
  /-- CAD_SUPPLY_DECLINE (R295): Writing DECLINE ends the driver step of a recovery without units. -/
  | cadSupplyDecline (p : Nat)
  /-- PCIE_UNSUPPORTED_REQUEST (R299): A PCIe request of an unsupported kind is answered with Unsupported Request and counted. -/
  | pcieUnsupportedRequest
  /-- WINDOW_READ (R304): A host read through a BAR2 window entry is checked and served, or refused with all ones and HQ_WINDOW. -/
  | windowRead (fn : Nat) (addr : Nat) (n : Nat)
  /-- WINDOW_WRITE (R306): A host write through a BAR2 window entry is checked against region and ownership flag, and applied or discarded. -/
  | windowWrite (fn : Nat) (addr : Nat) (n : Nat) (value : Nat)
  /-- WINDOW_ENTRY_WRITE (R305): A write of HIF_WIN_e sets the mapping, and writing VALID 1 resets the entry's ownership flags. -/
  | windowEntryWrite (pf : Bool) (e : Nat) (value : Nat)
  /-- HOST_FLAG_WRITE (R305): A host write of an ownership flag word is accepted only with the next SEQ and a permitted owner. -/
  | hostFlagWrite (fn : Nat) (granule : Nat) (value : Nat)
  /-- QUEUE_DOORBELL (R303): A doorbell write advances a queue's TAIL, or is discarded and counted. -/
  | queueDoorbell (fn : Nat) (page : Nat) (offset : Nat) (size : Nat) (value : Nat)
  /-- STREAM_HEAD_WRITE (R303): A consumer write advances a stream's HEAD and frees room for completions. -/
  | streamHeadWrite (fn : Nat) (page : Nat) (offset : Nat) (size : Nat) (value : Nat)
  /-- QUEUE_ENABLE (R308): The HIF_Q_OP ENABLE operation checks a queue or stream context and enables it. -/
  | queueEnable (pf : Bool) (index : Nat) (stream : Bool)
  /-- QUEUE_DISABLE (R308): The HIF_Q_OP DISABLE operation disables a queue or stream. -/
  | queueDisable (pf : Bool) (index : Nat) (stream : Bool)
  /-- QUEUE_RESTART (R310): The HIF_Q_OP RESTART operation returns a STOPPED queue to RUNNING at its next entry. -/
  | queueRestart (pf : Bool) (index : Nat) (stream : Bool)
  /-- ENTRY_SEGMENT (R310): The queue engine passes a SEGMENT entry's record to the core's dispatcher. -/
  | entrySegment (queue : Nat)
  /-- ENTRY_GRANT (R307): A GRANT entry gives a granule range to the host and updates the HOST bits at every home. -/
  | entryGrant (queue : Nat)
  /-- ENTRY_CLAIM (R305): A CLAIM entry gives a granule range of owner NONE to the device. -/
  | entryClaim (queue : Nat)
  /-- ENTRY_SIGNAL (R309): A SIGNAL entry performs its signal entry. -/
  | entrySignal (queue : Nat)
  /-- ENTRY_SEQ_CANCEL (R314): A SEQ_CANCEL entry completes every held segment of a slot with HQ_SEQ_CANCELLED. -/
  | entrySeqCancel (queue : Nat)
  /-- ENTRY_NOP (R309): A NOP entry does nothing but post a completion if asked. -/
  | entryNop (queue : Nat)
  /-- ENTRY_INVALID (R310): An invalid submission entry fails with HQ_ENTRY_INVALID, posts a completion and is skipped. -/
  | entryInvalid (queue : Nat)
  /-- COMPLETION_POST_RESUME (R312): A completion waiting on a full stream is written once room appears. -/
  | completionPostResume (stream : Nat)
  /-- MSIX_HOLDOFF_EXPIRY (R312): A stream's holdoff ends, and one message covers the entries written during it. -/
  | msixHoldoffExpiry (ring : Bool) (n : Nat)
  /-- EVENT_RING_WRITE (R315): A write of HIF_PART_EVRING sets the event ring, restarting TAIL, HEAD and SEQUENCE on enable, or is discarded. -/
  | eventRingWrite (pf : Bool) (p : Nat) (value : Nat)
  /-- PARTITION_CREATE (R317): The CREATE operation checks ranges and locked quotas and assigns resources to a partition. -/
  | partitionCreate (pf : Bool) (p : Nat)
  /-- PARTITION_LOAD (R319): The LOAD operation runs the load phases of a job image, restoring a checkpoint if asked, or refuses and undoes the load. -/
  | partitionLoad (pf : Bool) (p : Nat) (others : Option (List Nat)) (images : List (List (BitVec 8))) (fails : List (Nat × Nat))
  /-- PARTITION_RUN (R321): The RUN operation clears HALT on every core of the job. -/
  | partitionRun (pf : Bool) (p : Nat)
  /-- PARTITION_SUSPEND (R321): The SUSPEND operation halts each core after the STEP_END of the named step. -/
  | partitionSuspend (pf : Bool) (p : Nat)
  /-- PARTITION_SUSPENDED (R321): The cores have halted and the step is published, so the governor pauses, feeds and channels pause, objects freeze and the partition becomes SUSPENDED. -/
  | partitionSuspended (p : Nat)
  /-- PARTITION_RESUME (R321): The RESUME operation unpauses contexts, feeds and channels, activates objects and clears HALT. -/
  | partitionResume (pf : Bool) (p : Nat)
  /-- PARTITION_END (R323): The END operation drains the job, completes queued segments, disables queues, balance-checks objects, resets blocks and releases claims. -/
  | partitionEnd (pf : Bool) (p : Nat) (fails : List (Nat × Nat))
  /-- PARTITION_RESTART (R322): The RESTART operation undoes the load and loads again with RESTORE set. -/
  | partitionRestart (pf : Bool) (p : Nat) (others : Option (List Nat)) (images : List (List (BitVec 8))) (fails : List (Nat × Nat))
  /-- PARTITION_DESTROY (R317): The DESTROY operation frees a partition's regions, queues and streams, clears quota locks and resets its chip channels. -/
  | partitionDestroy (pf : Bool) (p : Nat)
  /-- AUTO_RESTART (R321): The referee restarts a stopped job and runs it once the group membership is complete. -/
  | autoRestart (p : Nat) (others : Option (List Nat)) (images : List (List (BitVec 8))) (fails : List (Nat × Nat))
  /-- VF_FLR (R324): A function-level reset of a VF is an owner reset of its partition and performs END. -/
  | vfFlr (p : Nat) (fails : List (Nat × Nat))
  /-- PF_FLR (R324): A function-level reset of the PF ends and destroys every partition and disables PF queues and streams. -/
  | pfFlr (fails : List (Nat × Nat))
  /-- FLR_DRAIN_TIMEOUT (R362): A reset's drain is unfinished after 50 ms, so the partition's agents are reset in place and MGT_FORCED_RESET is raised. -/
  | flrDrainTimeout (p : Nat)
  /-- PGV_ENABLE (R150): Writing ENABLE validates the governor context and tables and publishes the initial plan. -/
  | pgvEnable (p : Nat)
  /-- GOVERNOR_PASS_START (R151): Every core of the job on the chip has ended the step, so the decision pass collects records, builds the statistics vector and starts its reduction. -/
  | governorPassStart (p : Nat)
  /-- GOVERNOR_PASS_DECIDE (R152): The reduced vector arrives, and the pass decides rungs, rewrites T, writes the log and publishes the plan. -/
  | governorPassDecide (p : Nat)
  /-- OPT_ENABLE (R150): Writing OPT_CTX_CTRL.ENABLE validates the optimiser context, group table and map. -/
  | optEnable (p : Nat)
  /-- OPT_NORM_REDUCE_START (R172): Every core has retired its LAST OPT_NORM, so the chip sums the partials and starts the norm reduction. -/
  | optNormReduceStart (p : Nat)
  /-- OPT_CONSTANTS (R173): The reduced norm words arrive, and the chip decides the skip, computes clip and group constants, updates GEXP and publishes. -/
  | optConstants (p : Nat)
  /-- CKPT_REQUEST (R187): A write of REQ_STEP requests a checkpoint, or is discarded with NUM_CKPT_LATE. -/
  | ckptRequest (p : Nat) (step : Nat)
  /-- CHECKPOINT_CAPTURE_START (R188): The governor has published a checkpoint step, so capture reads the sections and sends the units to buddies. -/
  | checkpointCaptureStart (p : Nat)
  /-- CHECKPOINT_CAPTURE_END (R190): Every capture unit is written and verified, or capture fails, and the chip's DONE vote is fixed. -/
  | checkpointCaptureEnd (p : Nat)
  /-- CHECKPOINT_DRAIN_DONE (R192): The drain writes and verifies the image object, deletes the previous one and sets LAST_DRAINED, or fails. -/
  | checkpointDrainDone (p : Nat)
  /-- FINGERPRINT_ROUND (R138): After weight distribution, copies compute trailer fingerprints and send them to their owners. -/
  | fingerprintRound (round : FpRound)
  /-- FINGERPRINT_RESULT (R139): The reduced divergence count arrives and causes re-fetch or a stop of the job. -/
  | fingerprintResult (p : Nat) (reads : List Nat) (again : List (List Nat))
  /-- UMP_INJECT_ARRAY (R140): Writing INJECT 1 arms a corruption of the next checked row's array residue. -/
  | umpInjectArray (core : Nat)
  /-- UMP_INJECT_CHECKSUM (R140): Writing INJECT 2 arms a corruption of the stored checksum row. -/
  | umpInjectChecksum (core : Nat)
  /-- LNK_IDENT_LOCK (R328): Writing LOCK fixes the chip identity and allows enabled ports to begin bring-up. -/
  | lnkIdentLock (pf : Bool)
  /-- PORT_ENABLE (R328): Writing ENABLE of a port starts its bring-up sequence, or its Ethernet mode. -/
  | portEnable (pf : Bool) (port : Nat) (value : Nat)
  /-- PORT_BRINGUP_DONE (R328): Bring-up ends with the port UP, possibly on a lane pair, or fails. -/
  | portBringupDone (port : Nat) (failed : Option Nat) (lanes : Nat)
  /-- PORT_RETRY_TIMER (R328): 100 ms after a failed bring-up step, the sequence restarts from step 1. -/
  | portRetryTimer (port : Nat)
  /-- PORT_DOWN (R328): An UP port goes down, LNK_PORT_DOWN is raised, and its messages move to another port or are dropped. -/
  | portDown (port : Nat) (step : Nat)
  /-- RETRAIN_TIMEOUT (R331): A retraining port is not UP within 250 ms, so it goes down. -/
  | retrainTimeout (port : Nat)
  /-- FLIT_RECEIVE (R331): A received flit is corrected and checked, then accepted, discarded with a NAK, or used to replay or retrain. -/
  | flitReceive (port : Nat) (flit : Nat) (errs : List (Nat × Nat))
  /-- ACK_TIMER (R331): 0.5 µs after its last acknowledgement, the receiver sends an ACK. -/
  | ackTimer (port : Nat)
  /-- MSG_CREDIT (R333): A CREDIT message returns receive slots of the virtual channels. -/
  | msgCredit (ix : Nat)
  /-- MSG_RD_REQ (R337): A remote read request is checked by R252 and answered with RD_RSP or ERR_RSP, or forwarded. -/
  | msgRdReq (ix : Nat)
  /-- MSG_WR (R337): A remote write is checked and applied, then acknowledged or refused. -/
  | msgWr (ix : Nat)
  /-- MSG_WR_MASKED (R337): A remote masked write of one granule is checked and applied as an atomic merge. -/
  | msgWrMasked (ix : Nat)
  /-- MSG_OBJ_RD_REQ (R337): A remote tier-3 object read from a referee channel is answered with eight RD_RSP or refused. -/
  | msgObjRdReq (ix : Nat)
  /-- MSG_RD_RSP (R332): A read response delivers data to the requesting agent. -/
  | msgRdRsp (ix : Nat)
  /-- MSG_WR_ACK (R332): A write acknowledgement completes the requester's outstanding writes. -/
  | msgWrAck (ix : Nat)
  /-- MSG_ERR_RSP (R337): An error response fails the requester's transfer with the carried code. -/
  | msgErrRsp (ix : Nat)
  /-- MSG_SIGNAL (R338): A SIGNAL message is applied to a local object as a remote signal. -/
  | msgSignal (ix : Nat)
  /-- MSG_RED_PART (R345): A partial reduction result is combined in the fixed tree order. -/
  | msgRedPart (ix : Nat) (disagree : Bool)
  /-- MSG_RED_RESULT (R345): A reduction result reaches a member and is delivered to its consumer. -/
  | msgRedResult (ix : Nat) (disagree : Bool)
  /-- MSG_HELLO (R329): A HELLO is checked for identity and cabling and sets the AUTO route of the peer. -/
  | msgHello (port : Nat) (chip : Nat) (pod : Nat) (octet : Nat) (position : Nat) (peer : Nat)
  /-- MSG_HEARTBEAT (R342): A heartbeat refreshes a peer's liveness and may make a duplicate manager step down. -/
  | msgHeartbeat (ix : Nat)
  /-- MSG_JOIN (R342): A JOIN or leave at a manager adds, refuses or removes a worker and changes the view. -/
  | msgJoin (ix : Nat)
  /-- MSG_VIEW (R342): A VIEW with a higher identifier is adopted as the pod or group view. -/
  | msgView (ix : Nat) (group : Nat) (complete : Bool)
  /-- MSG_TIME (R344): A TIME request is stamped and answered, or a TIME response corrects DTIME by R33. -/
  | msgTime (ix : Nat) (residence : Nat)
  /-- LNK_REQUEST_TIMEOUT (R335): A request has no response after REQ_TIMEOUT_MS, so it fails with LNK_TIMEOUT. -/
  | lnkRequestTimeout (tag : Nat)
  /-- HEARTBEAT_TIMER (R342): Every 1 ms of DTIME, a chip sends HEARTBEAT to its parent and children. -/
  | heartbeatTimer
  /-- PEER_LOST_TIMEOUT (R342): No heartbeat has arrived for 5.5 ms, so the peer is lost and the view or manager changes. -/
  | peerLostTimeout (chip : Nat)
  /-- TIME_SYNC_TIMER (R344): Every 1 ms, a child sends TIME to its time parent. -/
  | timeSyncTimer
  /-- TIME_ADJ_WRITE (R344): A write of LNK_TIME_ADJ corrects DTIME by an IEEE 1588 offset when TIME_SRC is 1. -/
  | timeAdjWrite (may : Bool) (offset : Nat)
  /-- ETH_FRAME_RECEIVE (R339): An Ethernet frame is received, checked and written to a receive ring by hash. -/
  | ethFrameReceive (port : Nat) (frame : List (BitVec 8)) (fcsOk : Bool)
  /-- ETH_RING_TAIL (R340): A TAIL write posts descriptors to an Ethernet transmit or receive ring. -/
  | ethRingTail (pf : Bool) (port : Nat) (ring : Nat) (tail : Nat)
  /-- ETH_TRANSMIT_DONE (R340): A transmitted frame's descriptor is written back, with an interrupt if enabled. -/
  | ethTransmitDone (port : Nat) (ring : Nat)
  /-- RED_GROUP_WRITE (R343): A write of RED_P_GROUP_p joins the partition to a group and restarts every RSEQ. -/
  | redGroupWrite (pf : Bool) (p : Nat) (value : Nat)
  /-- RED_RESTART (R348): Writing RESTART takes a partition's reduction ring out of STOPPED. -/
  | redRestart (pf : Bool) (p : Nat)
  /-- RED_DOORBELL (R348): A TAIL write posts entries to a partition's reduction ring. -/
  | redDoorbell (pf : Bool) (p : Nat) (tail : Nat)
  /-- RED_ENTRY (R348): The engine takes a reduction entry, waits, and starts the reduction. -/
  | redEntry (p : Nat)
  /-- RED_ENTRY_DONE (R348): A program reduction delivers its result, writes status and signals, or fails and stops the ring. -/
  | redEntryDone (p : Nat)
  /-- REDUCTION_TIMEOUT (R347): No result arrives within TIMEOUT_MS, so the reduction fails with LNK_RED_FAIL. -/
  | reductionTimeout (p : Nat) (cls : Nat)
  /-- REFEREE_POWER_GOOD (R352): The referee rail reaches power good, so DTIME starts at zero and boot begins. -/
  | refereePowerGood (slot : Nat) (low : Bool)
  /-- BOOT_PHASE_DONE (R352): A boot phase ends and the next begins, or phase 7 sets READY. -/
  | bootPhaseDone (findings : List BootFinding) (plan : PlanInput)
  /-- BOOT_PHASE_TIMEOUT (R354): A boot phase runs past its longest time, which sends the device to the dugout. -/
  | bootPhaseTimeout
  /-- WATCHDOG_EXPIRY (R351): The referee watchdog expires after 1 s without a restart, and the device enters the dugout. -/
  | watchdogExpiry
  /-- RAIL_FAULT (R382): A rail fails regulation or reports a fault, and the device enters the dugout with cause 5. -/
  | railFault (unit : Nat)
  /-- REF_FULL_RESET (R361): Writing FULL_RESET with its key starts a full reset, deferred while the boot area is written. -/
  | refFullReset (key : Nat)
  /-- REF_RAILS_OFF (R357): Writing RAILS_OFF with its key enters the dugout with cause 6. -/
  | refRailsOff (key : Nat)
  /-- PERST_ASSERT (R365): An assertion of PERST_N causes a full reset or a PCIe controller reset with a PF function-level reset. -/
  | perstAssert (fails : List (Nat × Nat))
  /-- PERST_RELEASE (R421): The release of PERST_N starts PCIe link training. -/
  | perstRelease
  /-- BAR0_BLOCK_TIMEOUT (R363): A BAR0 access unanswered for 1 ms completes with all ones, raises MGT_BUS_TIMEOUT and marks the block wedged. -/
  | bar0BlockTimeout (who : Master) (off : Nat) (size : Nat) (write : Bool)
  /-- BOOT_AREA_WRITE_DONE (R365): The firmware write to the boot area ends, and a deferred full reset begins. -/
  | bootAreaWriteDone (ok : Bool)
  /-- MBX_MSG_WRITE (R374): A write of a mailbox message register is applied by the sender in IDLE or the receiver in POSTED, or denied. -/
  | mbxMsgWrite (id : Nat) (c : Nat) (ix : Nat) (value : Nat)
  /-- MBX_GO (R375): The sender's GO write posts a message and sets the receiver's PENDING bit, or is refused as busy. -/
  | mbxGo (id : Nat) (c : Nat)
  /-- MBX_ACK (R375): The receiver's acknowledge write returns the channel to IDLE and sets the sender's DONE bit. -/
  | mbxAck (id : Nat) (c : Nat) (code : Nat)
  /-- STATUS (R378): The STATUS request returns REF_READY, REF_DUGOUT, DTIME and REF_FW. -/
  | status (path : ReqPath)
  /-- READ (R378): The READ request returns 120 bytes of the fault log, self-test report or attestation report. -/
  | read (path : ReqPath)
  /-- ATTEST (R373): The ATTEST request builds and signs an attestation report into buffer 3. -/
  | attest (path : ReqPath)
  /-- IMAGE_BEGIN (R369): The IMAGE_BEGIN request opens a firmware push session. -/
  | imageBegin (path : ReqPath)
  /-- IMAGE_DATA (R369): The IMAGE_DATA request stages 120 image bytes in SRAM. -/
  | imageData (path : ReqPath)
  /-- IMAGE_END (R369): The IMAGE_END request verifies the staged image in full and writes it to the boot area. -/
  | imageEnd (path : ReqPath)
  /-- RESET (R378): The RESET request replies and then starts a full reset. -/
  | reset (path : ReqPath)
  /-- RAILS_OFF (R357): The RAILS_OFF request enters the dugout with cause 6. -/
  | railsOff (path : ReqPath)
  /-- SVN_COMMIT (R368): The SVN_COMMIT request burns SVN fuses until the count equals the running image's SVN. -/
  | svnCommit (path : ReqPath) (ok : Bool)
  /-- PROVISION (R370): The PROVISION request over MCTP burns a blank customer fuse field. -/
  | provision (path : ReqPath) (ok : Bool)
  /-- SPDM_REQUEST (R373): An SPDM request over DOE or MCTP is answered by the responder, including attestation and IDE key management. -/
  | spdmRequest (doe : Bool) (request : List (BitVec 8)) (pair : Bool)
  /-- GET_TID (R379): The PLDM GetTID command returns the terminus identifier. -/
  | getTid (inst : Nat)
  /-- SET_TID (R379): The PLDM SetTID command sets the terminus identifier. -/
  | setTid (inst : Nat) (tid : Nat)
  /-- GET_PLDM_VERSION (R379): The PLDM GetPLDMVersion command returns a supported type's version. -/
  | getPldmVersion (inst : Nat) (type : Nat)
  /-- GET_PLDM_TYPES (R379): The PLDM GetPLDMTypes command returns types 0 and 2. -/
  | getPldmTypes (inst : Nat)
  /-- GET_PLDM_COMMANDS (R379): The PLDM GetPLDMCommands command returns the commands served. -/
  | getPldmCommands (inst : Nat) (type : Nat)
  /-- SET_EVENT_RECEIVER (R379): The PLDM SetEventReceiver command names the receiver of platform events. -/
  | setEventReceiver (inst : Nat) (method : Nat) (addr : Nat)
  /-- GET_SENSOR_READING (R379): The PLDM GetSensorReading command returns a numeric sensor. -/
  | getSensorReading (inst : Nat) (sensor : Nat)
  /-- GET_STATE_SENSOR_READINGS (R379): The PLDM GetStateSensorReadings command returns the device state sensor. -/
  | getStateSensorReadings (inst : Nat) (sensor : Nat)
  /-- SET_NUMERIC_EFFECTER_VALUE (R379): The PLDM SetNumericEffecterValue command sets the module power cap, or is refused. -/
  | setNumericEffecterValue (inst : Nat) (effecter : Nat) (value : Nat)
  /-- GET_NUMERIC_EFFECTER_VALUE (R379): The PLDM GetNumericEffecterValue command returns the module power cap. -/
  | getNumericEffecterValue (inst : Nat) (effecter : Nat)
  /-- GET_PDR_REPOSITORY_INFO (R379): The PLDM GetPDRRepositoryInfo command describes the fixed PDR repository. -/
  | getPdrRepositoryInfo (inst : Nat)
  /-- GET_PDR (R379): The PLDM GetPDR command returns a record of the repository. -/
  | getPdr (inst : Nat) (handle : Nat)
  /-- PLDM_UNSUPPORTED (R379): An unsupported PLDM command or type is answered with the matching error completion code. -/
  | pldmUnsupported (inst : Nat) (type : Nat) (cmd : Nat)
  /-- PLDM_EVENT_RETRY (R379): An unacknowledged PlatformEventMessage is sent again after 1 s, at most three times. -/
  | pldmEventRetry (id : Nat) (acked : Bool)
  /-- POWER_SAMPLE (R387): Every 10 µs, input power is sampled, the peak timer runs, and a peak is ended by halving ACLK. -/
  | powerSample (input : Nat) (package : Nat) (vin : Nat) (iin : Nat)
  /-- POWER_CONTROL_TICK (R386): Every 100 µs, the mean power is compared with the cap and the power ceiling steps down or up. -/
  | powerControlTick
  /-- PWRCAP_INPUT (R385): A change of the power-cap input puts BOARD_CAP in or out of force within 10 µs. -/
  | pwrcapInput (asserted : Bool)
  /-- CLOCK_POINT_STEP_DONE (R384): A frequency or voltage step of a clock-point change completes, and the next step begins. -/
  | clockPointStepDone (island : Nat)
  /-- THERMAL_TICK (R390): Every 1 ms, sensors are read, thermal ceilings adjusted, refresh derated and coolant conditions tested. -/
  | thermalTick (readings : List (Nat × Option Int))
  /-- THERMAL_TRIP (R392): A reading at a trip point asserts THERMTRIP_N and powers off the compute rails. -/
  | thermalTrip (sensor : Nat) (reading : Int)
  /-- MGN_REPLAN (R395): Writing REPLAN requests a margin re-plan. -/
  | mgnReplan
  /-- REPLAN_INTERVAL (R395): INTERVAL_H hours after the last re-plan, a re-plan starts. -/
  | replanInterval
  /-- REPLAN_DONE (R395): A re-plan finishes, applies voltages, refresh, read levels and retirements, and raises MARGIN_PLAN. -/
  | replanDone (plan : PlanInput)
  /-- MARGIN_MONITOR_TICK (R397): Every 1 ms, monitor slack is checked, and an emergency lowers FMAX and requests a re-plan. -/
  | marginMonitorTick (slacks : List (Nat × Int))
  /-- INPUT_POWER_UP (R422): Input rises through 38.5 V, and the hot-swap controller charges the capacitance and brings up the always-on rails. -/
  | inputPowerUp
  /-- INPUT_POWER_LOSS (R422): Input falls below 36 V, exceeds 65 V or reverses, so the controller opens and everything but tier 3 is lost. -/
  | inputPowerLoss
  /-- CABLE_POWER_FAULT (R425): An active cable draws more than 3.0 W, so its supply is cut and its port stays down. -/
  | cablePowerFault (port : Nat)
  /-- DMI_OPERATION (R404): Writing GO of TRC_DMI performs one Debug Module Interface read or write, or fails when debug is fused off. -/
  | dmiOperation (pf : Bool) (value : Nat) (op : Nat) (data : Nat)
  /-- TRACE_POOL_WRITE (R405): A write of TRC_POOL_d sets or enables a CD's trace pool, or is refused. -/
  | tracePoolWrite (d : Nat) (value : Nat)
  /-- TRACE_ENABLE (R408): Writing ENABLE 1 resets the job's trace buffers and starts tracing, or is refused. -/
  | traceEnable (p : Nat) (value : Nat)
  /-- TRACE_DISABLE (R408): Writing ENABLE 0 drains the trace queues and turns the buffers OFF. -/
  | traceDisable (p : Nat) (value : Nat)
  /-- TRACE_FORCE (R409): Writing FORCE 1 fires the trace trigger and writes TRIGGER entries. -/
  | traceForce (p : Nat)
  /-- TRACE_BUFFER_FULL (R408): A STOP or CENTRE buffer reaches its last entry, so it stops or freezes and raises DBG_TRACE_STOPPED. -/
  | traceBufferFull (p : Nat) (d : Nat)
  /-- WATCH_ARM (R411): Writing ENABLE arms a tensor watch slot, or is refused. -/
  | watchArm (p : Nat) (n : Nat) (value : Nat)
  /-- SERVICE_CORE_MEMORY_ACCESS (R252): A service-core hart's load or store reaches tier 1, tier 2 or a core window, is checked by R252, and may write back a dirty line, take an access fault or raise MEM_ACCESS_DENIED. -/
  | serviceCoreMemoryAccess (hart : Nat) (access : HartAccess) (addr : Nat) (n : Nat)
  /-- ACCESS_ERROR_READ (R7): A register read of another size or alignment, to a wedged block, or during boot returns all ones and is counted. -/
  | accessErrorRead (path : ReadPath) (off : Nat) (size : Nat)
  /-- MBX_DENIED_READ (R374): A read of a mailbox channel's registers by an identity that is neither sender nor receiver returns zero and raises MGT_MBX_DENIED. -/
  | mbxDeniedRead (id : Nat) (c : Nat)
  /-- UNCORRECTABLE_CONTROL_STATE (R357): An uncorrectable error in the control state of a router, dispatcher, memory controller, cache tag array or the HIF sends the device to the dugout with cause 7. -/
  | uncorrectableControlState (unit : Nat)
  /-- REFEREE_SRAM_ERROR (R351): An ECC error in referee SRAM is corrected and counted when single-bit, or sends the device to the dugout with cause 3 when double-bit. -/
  | refereeSramError (double : Bool) (addr : Nat)
  /-- MCTP_CONTROL_MESSAGE (R360): An MCTP control message on the management bus is answered by the referee, or by the boot ROM in ROM recovery. -/
  | mctpControlMessage (inst : Nat) (cmd : Nat) (op : Nat) (eid : Nat)
  /-- DYNAMIC_ADDRESS_ASSIGNMENT (R424): A SETDASA or ENTDAA on the I3C bus assigns the module's dynamic address. -/
  | dynamicAddressAssignment (setdasa : Bool) (static : Nat) (addr : Nat)
  /-- ATS_INVALIDATION (R298): A PCIe ATS invalidation request removes entries from the device's address translation cache and is completed. -/
  | atsInvalidation (tag : Nat) (pasid : Nat) (page : Nat) (n : Nat)
  /-- DOE_DISCOVERY (R298): A DOE discovery request on the DOE mailbox is answered with the supported protocols. -/
  | doeDiscovery (index : Nat)
  /-- DEVICE_POWER_STATE_WRITE (R298): A configuration write moves a function between D0 and D3hot, disabling or enabling BAR decoding without affecting running jobs. -/
  | devicePowerStateWrite (fn : Nat) (w : ConfigWrite)
  deriving DecidableEq, Repr

end Sys2Proof
end

