-- ==== Sys2Proof/Decode.lean ====
section
/-!
DEFINITION. The decoder of table words: no row of the spec's table gives bits (its commands come as register accesses, descriptors,
queue entries, messages and pin events), so no word spells a command.
-/
namespace Sys2Proof

/-- The command that a word of `nbits` bits spells by the table's bits: none. -/
def decodeTableWord (nbits w : Nat) : Option Instr :=
  match nbits, w with
  | _, _ => none

end Sys2Proof
end

