-- ==== Sys2Proof/Machine/Ecc.lean ====
section
/-!
DEFINITION. The symbol codes of tier 1 and tier 2 (R243, R247): Reed-Solomon codes with roots alpha^0 to alpha^3 over
GF(2^16) and GF(2^8). A read that the hardware disturbs is decoded by its error pattern alone: a codeword contributes
nothing to the syndromes.
-/
namespace Sys2Proof.Machine

/-- A code: symbol width in bits, the primitive polynomial without its leading term, symbols, data symbols. -/
structure EccCode where
  bits : Nat
  poly : Nat
  n : Nat
  k : Nat
  deriving DecidableEq, Repr

/-- The code of a tier-1 line: 36 symbols of 16 bits, x^16 + x^12 + x^3 + x + 1 (R243). -/
def eccTier1 : EccCode := ⟨16, 0x100B, 36, 32⟩

/-- The code of a tier-2 line: 132 symbols of 8 bits, x^8 + x^4 + x^3 + x^2 + 1 (R247). -/
def eccTier2 : EccCode := ⟨8, 0x1D, 132, 128⟩

/-- Exclusive-or of field elements is addition; times alpha. -/
def EccCode.timesAlpha (c : EccCode) (x : Nat) : Nat :=
  let y := 2 * x
  if y ≥ 2 ^ c.bits then (y - 2 ^ c.bits) ^^^ c.poly else y

/-- x * alpha^n. -/
def EccCode.timesPow (c : EccCode) (x : Nat) : Nat → Nat
  | 0 => x
  | n + 1 => c.timesAlpha (c.timesPow x n)

/-- The locator exponent of symbol `i`: data symbol i is the coefficient of x^(n - 1 - i). -/
def EccCode.loc (c : EccCode) (i : Nat) : Nat := c.n - 1 - i

/-- Syndrome `j` of an error pattern: (symbol, error value) pairs (R243: roots alpha^0 to alpha^3). -/
def EccCode.syndrome (c : EccCode) (errs : List (Nat × Nat)) (j : Nat) : Nat :=
  errs.foldl (fun acc x => acc ^^^ c.timesPow (x.2 % 2 ^ c.bits) (c.loc x.1 * j)) 0

/-- What the decoder does with a line (R243, R247). -/
inductive EccResult where
  /-- No error is seen. -/
  | clean
  /-- The symbol is corrected by exclusive-or with a value. -/
  | corrected (symbol value : Nat)
  /-- An error is seen that is not confined to one symbol. -/
  | uncorrectable
  deriving DecidableEq, Repr

/-- The decoding of an error pattern: an error confined to one symbol is corrected; two are not attempted. -/
def EccCode.decode (c : EccCode) (errs : List (Nat × Nat)) : EccResult :=
  let s (j : Nat) : Nat := c.syndrome errs j
  if s 0 = 0 ∧ s 1 = 0 ∧ s 2 = 0 ∧ s 3 = 0 then .clean
  else
    match (List.range c.n).find? (fun i =>
        decide (s 0 ≠ 0 ∧ s 1 = c.timesPow (s 0) (c.loc i) ∧ s 2 = c.timesPow (s 0) (2 * c.loc i) ∧
          s 3 = c.timesPow (s 0) (3 * c.loc i))) with
    | some i => .corrected i (s 0)
    | none => .uncorrectable

/-- The pattern that stays in the delivered data: the errors and the correction, on data symbols. -/
def EccCode.residual (c : EccCode) (errs : List (Nat × Nat)) : List (Nat × Nat) :=
  let fix := match c.decode errs with
    | .corrected i v => [(i, v)]
    | _ => []
  (errs ++ fix).filter (fun x => decide (x.1 < c.k))

/-! ## The flit code (R330) -/

/-- The code of half a flit: 136 symbols of 8 bits, with the field polynomial and generator of R247; it corrects two. -/
def eccFlit : EccCode := ⟨8, 0x1D, 136, 132⟩

/-- The product of two elements of GF(2^8), over `n` bits of the second. -/
def EccCode.mulBits (c : EccCode) (x y : Nat) : Nat → Nat
  | 0 => 0
  | n + 1 => c.mulBits x y n ^^^ (if y.testBit n then c.timesPow x n else 0)
def EccCode.mul (c : EccCode) (x y : Nat) : Nat := c.mulBits x y c.bits

/-- x^n, and the inverse x^(2^bits - 2). -/
def EccCode.pow (c : EccCode) (x : Nat) : Nat → Nat
  | 0 => 1
  | n + 1 => c.mul x (c.pow x n)
def EccCode.inv (c : EccCode) (x : Nat) : Nat := c.pow x (2 ^ c.bits - 2)

/-- The generator of R247, coefficients from x^4 down: the product of x + alpha^j over j = 0 to 3. -/
def EccCode.generator (c : EccCode) : List Nat :=
  (List.range 4).foldl (fun g j => ((g ++ [0]).zip (0 :: g.map (fun x => c.timesPow x j))).map (fun (x : Nat × Nat) => x.1 ^^^ x.2)) [1]

/-- The four parity symbols after the data symbols: the remainder of data * x^4 by the generator. -/
def EccCode.parity (c : EccCode) (data : List Nat) : List Nat :=
  data.foldl (fun p d =>
    let f := d ^^^ p.headD 0
    ((p.tail ++ [0]).zip (c.generator.tail.map (fun g => c.mul f g))).map (fun (x : Nat × Nat) => x.1 ^^^ x.2)) [0, 0, 0, 0]

/-- The corrections of the decoder that corrects up to two symbols: (symbol, value) pairs, none where it fails. -/
def EccCode.decodeTwo (c : EccCode) (errs : List (Nat × Nat)) : Option (List (Nat × Nat)) :=
  let s0 := c.syndrome errs 0
  let s1 := c.syndrome errs 1
  let s2 := c.syndrome errs 2
  let s3 := c.syndrome errs 3
  if s0 = 0 ∧ s1 = 0 ∧ s2 = 0 ∧ s3 = 0 then some []
  else
    match (List.range c.n).find? (fun i =>
        let x := c.timesPow 1 (c.loc i)
        decide (s0 ≠ 0 ∧ s1 = c.mul s0 x ∧ s2 = c.mul s1 x ∧ s3 = c.mul s2 x)) with
    | some i => some [(i, s0)]
    | none =>
      let det := c.mul s1 s1 ^^^ c.mul s0 s2
      if det = 0 then none
      else
        let d := c.inv det
        let g1 := c.mul d (c.mul s0 s3 ^^^ c.mul s1 s2)
        let g2 := c.mul d (c.mul s1 s3 ^^^ c.mul s2 s2)
        match (List.range c.n).filter (fun i =>
            let x := c.timesPow 1 (c.loc i)
            decide ((c.mul x x ^^^ c.mul g1 x) ^^^ g2 = 0)) with
        | [i, j] =>
          let xi := c.timesPow 1 (c.loc i)
          let xj := c.timesPow 1 (c.loc j)
          let vi := c.mul (s1 ^^^ c.mul s0 xj) (c.inv (xi ^^^ xj))
          some [(i, vi), (j, s0 ^^^ vi)]
        | _ => none

end Sys2Proof.Machine
end

