-- ==== Sys2Proof/Machine/Num.lean ====
section
/-!
DEFINITION. Exact numbers and the one rounding. A value of any format is a NaN, an infinity or a signed dyadic
number; every operation is computed exactly and rounded once into its destination (R55), by round-to-nearest-even (R57)
or stochastically (R58, R59). All of it is natural-number arithmetic.
-/
namespace Sys2Proof.Machine

/-- The value of an element: a NaN, an infinity, or (-1)^s * m * 2^e. A zero keeps its sign (R42). -/
inductive Val where
  | nan
  | inf (s : Bool)
  | fin (s : Bool) (m : Nat) (e : Int)
  deriving DecidableEq, Repr

/-- A nonnegative exact quotient p / q * 2^e, with q at least 1. -/
structure Mag where
  p : Nat
  q : Nat
  e : Int
  deriving DecidableEq, Repr

/-- 2 to the power `n`, for a natural exponent. -/
def pow2 (n : Nat) : Nat := 2 ^ n

/-- The quotient as numerator and denominator in units of 2^k. -/
def Mag.units (x : Mag) (k : Int) : Nat × Nat :=
  if k ≤ x.e then (x.p * pow2 (x.e - k).toNat, x.q) else (x.p, x.q * pow2 (k - x.e).toNat)

/-- The whole multiples of 2^k in a quotient. -/
def Mag.count (x : Mag) (k : Int) : Nat := (x.units k).1 / (x.units k).2

/-- Is `x` less than `y`? -/
def Mag.lt (x y : Mag) : Bool :=
  let k := min x.e y.e
  decide (x.p * pow2 (x.e - k).toNat * y.q < y.p * pow2 (y.e - k).toNat * x.q)

/-- Is `x` at most `y`? -/
def Mag.le (x y : Mag) : Bool := !(Mag.lt y x)

/-- The floor of the base-2 logarithm of a quotient that is not zero. -/
def Mag.floorLog2 (x : Mag) : Int :=
  let d : Int := (Nat.log2 x.p : Int) - (Nat.log2 x.q : Int)
  let y := Mag.units ⟨x.p, x.q, 0⟩ d
  (if y.1 < y.2 then d - 1 else d) + x.e

/-- A quotient times a power of 2. -/
def Mag.scale (x : Mag) (k : Int) : Mag := ⟨x.p, x.q, x.e + k⟩

/-- A quotient divided by m * 2^e, with m not zero. -/
def Mag.divBy (x : Mag) (m : Nat) (e : Int) : Mag := ⟨x.p, x.q * m, x.e - e⟩

/-- The larger of two quotients. -/
def Mag.max (x y : Mag) : Mag := if Mag.lt x y then y else x

/-- The rounding attribute of a conversion (R39): to nearest, ties to even (R57), or stochastic with its 16 random
bits (R58). -/
inductive Rounding where
  | nearest
  | stochastic (bits : Nat)
  deriving DecidableEq, Repr

/-- The integer that a / b rounds to (R57, R58). A value on the grid is exact and is not rounded. -/
def roundQuot (mode : Rounding) (a b : Nat) : Nat :=
  let n := a / b
  let r := a % b
  if r = 0 then n
  else match mode with
    | .nearest => if 2 * r > b ∨ (2 * r = b ∧ n % 2 = 1) then n + 1 else n
    | .stochastic bits => if bits < (131072 * r + b) / (2 * b) then n + 1 else n

/-- Round-to-nearest-even of a magnitude that may carry a sticky remainder below its last bit: the quotient as `Mag`,
rounded to a multiple of 2^k. -/
def Mag.round (mode : Rounding) (x : Mag) (k : Int) : Nat :=
  let y := x.units k
  roundQuot mode y.1 y.2

/-- A binary floating layout: exponent bits, fraction bits, bias. -/
structure FloatFmt where
  ebits : Nat
  mbits : Nat
  bias : Int
  deriving DecidableEq, Repr

/-- The magnitude `x` rounded onto the grid of a floating layout whose exponents go on past the largest, as the number
m * 2^e (section 2.9). -/
def FloatFmt.roundGrid (f : FloatFmt) (mode : Rounding) (x : Mag) : Nat × Int :=
  if x.p = 0 then (0, 0)
  else
    let e := max x.floorLog2 (1 - f.bias)
    let k := e - f.mbits
    (x.round mode k, k)

/-- The code of the exact grid magnitude m * 2^e with a sign (section 2.1); m * 2^e lies on the grid. -/
def FloatFmt.codeOf (f : FloatFmt) (s : Bool) (m : Nat) (e : Int) : Nat :=
  let sign := (if s then 1 else 0) * pow2 (f.ebits + f.mbits)
  if m = 0 then sign
  else
    let ee : Int := (Nat.log2 m : Int) + e
    let emin : Int := 1 - f.bias
    if ee < emin then sign + (Mag.mk m 1 e).count (emin - f.mbits)
    else
      let frac := (Mag.mk m 1 e).count (ee - f.mbits)
      sign + (ee + f.bias).toNat * pow2 f.mbits + (frac - pow2 f.mbits)

/-- The finite value of a code of a floating layout, for an exponent field that encodes finite values. -/
def FloatFmt.finite (f : FloatFmt) (code : Nat) : Val :=
  let s := bitAt code (f.ebits + f.mbits)
  let ex := bitsAt code f.mbits f.ebits
  let fr := bitsAt code 0 f.mbits
  if ex = 0 then .fin s fr (1 - f.bias - f.mbits)
  else .fin s (pow2 f.mbits + fr) ((ex : Int) - f.bias - f.mbits)

/-- ZF32 (R39), ZF16 (R39), ZB16 (R40). -/
def fmtZF32 : FloatFmt := ⟨8, 23, 127⟩
def fmtZF16 : FloatFmt := ⟨5, 10, 15⟩
def fmtZB16 : FloatFmt := ⟨8, 7, 127⟩

/-- The value of a code in an IEEE-like layout: the all-ones exponent encodes infinities and NaNs (R39, R40). -/
def FloatFmt.decodeIeee (f : FloatFmt) (code : Nat) : Val :=
  if bitsAt code f.mbits f.ebits = pow2 f.ebits - 1 then
    if bitsAt code 0 f.mbits = 0 then .inf (bitAt code (f.ebits + f.mbits)) else .nan
  else f.finite code

/-- The infinity code with sign `s` of an IEEE-like layout. -/
def FloatFmt.infCode (f : FloatFmt) (s : Bool) : Nat :=
  (if s then 1 else 0) * pow2 (f.ebits + f.mbits) + (pow2 f.ebits - 1) * pow2 f.mbits

/-- The canonical NaN of an IEEE-like layout (R41). -/
def FloatFmt.nanCode (f : FloatFmt) : Nat :=
  (pow2 f.ebits - 1) * pow2 f.mbits + pow2 (f.mbits - 1)

/-- Has the grid number m * 2^e passed the largest finite number of an IEEE-like layout? -/
def FloatFmt.past (f : FloatFmt) (m : Nat) (e : Int) : Bool :=
  decide (m ≠ 0 ∧ (Nat.log2 m : Int) + e > (pow2 f.ebits : Int) - 2 - f.bias)

/-- A signed exact magnitude rounded into an IEEE-like layout; out of range it becomes an infinity (R55). -/
def FloatFmt.roundMag (f : FloatFmt) (mode : Rounding) (s : Bool) (x : Mag) : Nat :=
  let g := f.roundGrid mode x
  if f.past g.1 g.2 then f.infCode s else f.codeOf s g.1 g.2

/-- A value rounded into an IEEE-like layout (R39, R41). -/
def FloatFmt.round (f : FloatFmt) (mode : Rounding) : Val → Nat
  | .nan => f.nanCode
  | .inf s => f.infCode s
  | .fin s m e => f.roundMag mode s ⟨m, 1, e⟩

/-- Is the value a NaN? -/
def Val.isNan : Val → Bool
  | .nan => true
  | _ => false

/-- Is the value finite? -/
def Val.isFinite : Val → Bool
  | .fin _ _ _ => true
  | _ => false

/-- Is the value a zero of either sign? -/
def Val.isZero : Val → Bool
  | .fin _ m _ => decide (m = 0)
  | _ => false

/-- The sign of a value; a NaN's is positive (R41). -/
def Val.sign : Val → Bool
  | .nan => false
  | .inf s => s
  | .fin s _ _ => s

/-- The magnitude of a finite value (0 for the others). -/
def Val.mag : Val → Mag
  | .fin _ m e => ⟨m, 1, e⟩
  | _ => ⟨0, 1, 0⟩

/-- The negation. -/
def Val.neg : Val → Val
  | .nan => .nan
  | .inf s => .inf (!s)
  | .fin s m e => .fin (!s) m e

/-- The absolute value. -/
def Val.abs : Val → Val
  | .nan => .nan
  | .inf _ => .inf false
  | .fin _ m e => .fin false m e

/-- The signed integer of a finite value in units of 2^k, for k at most its exponent. -/
def Val.intAt (s : Bool) (m : Nat) (e k : Int) : Int :=
  let u : Int := (m * pow2 (e - k).toNat : Nat)
  if s then -u else u

/-- The exact sum, with IEEE 754 signs of zero under roundTiesToEven (R42). -/
def Val.add : Val → Val → Val
  | .nan, _ => .nan
  | _, .nan => .nan
  | .inf s, .inf t => if s = t then .inf s else .nan
  | .inf s, _ => .inf s
  | _, .inf t => .inf t
  | .fin s m e, .fin t n f =>
    let k := min e f
    let x := Val.intAt s m e k + Val.intAt t n f k
    if x = 0 then .fin (s && t) 0 0 else .fin (decide (x < 0)) x.natAbs k

/-- The exact difference. -/
def Val.sub (x y : Val) : Val := x.add y.neg

/-- The exact product (R42). -/
def Val.mul : Val → Val → Val
  | .nan, _ => .nan
  | _, .nan => .nan
  | .inf s, .inf t => .inf (s ^^ t)
  | .inf s, .fin t n _ => if n = 0 then .nan else .inf (s ^^ t)
  | .fin s m _, .inf t => if m = 0 then .nan else .inf (s ^^ t)
  | .fin s m e, .fin t n f => .fin (s ^^ t) (m * n) (e + f)

/-- The value 2^k. -/
def Val.ofPow2 (k : Int) : Val := .fin false 1 k

/-- An integer as a value. -/
def Val.ofInt (x : Int) : Val := .fin (decide (x < 0)) x.natAbs 0

/-- A natural number as a value. -/
def Val.ofNat (x : Nat) : Val := .fin false x 0

/-- IEEE 754 comparison: less than; a NaN is unordered (R42). -/
def Val.lt : Val → Val → Bool
  | .nan, _ => false
  | _, .nan => false
  | .inf s, .inf t => s && !t
  | .inf s, .fin _ _ _ => s
  | .fin _ _ _, .inf t => !t
  | .fin s m e, .fin t n f =>
    let k := min e f
    decide (Val.intAt s m e k < Val.intAt t n f k)

/-- IEEE 754 equality: the zeros compare equal, a NaN equals nothing (R42). -/
def Val.eq : Val → Val → Bool
  | .nan, _ => false
  | _, .nan => false
  | x, y => !(x.lt y) && !(y.lt x)

/-- At most, in the IEEE order. -/
def Val.le (x y : Val) : Bool := x.lt y || x.eq y

/-! ZF32 arithmetic: the exact result rounded once (R39). A ZF32 number is held as its code. -/

/-- The value of a ZF32 code. -/
def zf32 (x : Nat) : Val := fmtZF32.decodeIeee x

/-- A value rounded to ZF32, to nearest. -/
def toZF32 (v : Val) : Nat := fmtZF32.round .nearest v

/-- ZF32 sum, difference, product, fused multiply-add. -/
def f32Add (x y : Nat) : Nat := toZF32 ((zf32 x).add (zf32 y))
def f32Sub (x y : Nat) : Nat := toZF32 ((zf32 x).sub (zf32 y))
def f32Mul (x y : Nat) : Nat := toZF32 ((zf32 x).mul (zf32 y))
def f32Fma (x y z : Nat) : Nat := toZF32 (((zf32 x).mul (zf32 y)).add (zf32 z))

/-- The correctly rounded ZF32 quotient with the special cases of IEEE 754. -/
def valDiv (f : FloatFmt) (x y : Val) : Nat :=
  match x, y with
  | .nan, _ => f.nanCode
  | _, .nan => f.nanCode
  | .inf _, .inf _ => f.nanCode
  | .inf s, .fin t _ _ => f.infCode (s ^^ t)
  | .fin s _ _, .inf t => f.codeOf (s ^^ t) 0 0
  | .fin s m e, .fin t n g =>
    if n = 0 then if m = 0 then f.nanCode else f.infCode (s ^^ t)
    else f.roundMag .nearest (s ^^ t) ⟨m, n, e - g⟩

/-- The ZF32 quotient. -/
def f32Div (x y : Nat) : Nat := valDiv fmtZF32 (zf32 x) (zf32 y)

/-- The integer square root, bit by bit from bit `n` down: `r` is the root found so far. -/
def isqrtFrom (x : Nat) : Nat → Nat → Nat
  | 0, r => if (r + 1) * (r + 1) ≤ x then r + 1 else r
  | n + 1, r =>
    let c := r + pow2 (n + 1)
    isqrtFrom x n (if c * c ≤ x then c else r)

/-- The integer square root: the largest r with r * r at most x. -/
def isqrt (x : Nat) : Nat := isqrtFrom x (Nat.log2 x / 2 + 1) 0

/-- The square root of the magnitude m * 2^e to at least `g` significant bits, with a last bit that is 1 exactly when
the root is not exact: enough to round it correctly at any shorter length. -/
def sqrtMag (m : Nat) (e : Int) (g : Nat) : Mag :=
  let sh : Nat := 2 * g + (if (e - 2 * g) % 2 = 0 then 0 else 1)
  let x := m * pow2 sh
  let r := isqrt x
  let ex := (e - sh) / 2
  if r * r = x then ⟨r, 1, ex⟩ else ⟨2 * r + 1, 1, ex - 1⟩

/-- The correctly rounded ZF32 square root; of a negative number, a NaN. -/
def f32Sqrt (x : Nat) : Nat :=
  match zf32 x with
  | .nan => fmtZF32.nanCode
  | .inf s => if s then fmtZF32.nanCode else fmtZF32.infCode false
  | .fin s m e =>
    if m = 0 then fmtZF32.codeOf s 0 0
    else if s then fmtZF32.nanCode
    else fmtZF32.roundMag .nearest false (sqrtMag m e 40)

end Sys2Proof.Machine
end

