-- ==== Sys2Proof/Machine/Format.lean ====
section
/-!
DEFINITION. The formats of Table 2-1, their codes and values (R37 to R48), shared scales (R49 to R54), expansion (R56)
and the random bits of stochastic rounding (R59).
-/
namespace Sys2Proof.Machine

/-- The formats of Table 2-1. -/
inductive Fmt where
  | zf32 | zf16 | zb16 | ze4 | ze5 | ze3m2 | ze2m1 | zi8 | zi4 | zt2 | zs8 | z32a | affine | lut
  deriving DecidableEq, Repr

/-- The format of a format code; other codes are reserved (R37). -/
def Fmt.ofCode : Nat → Option Fmt
  | 0x01 => some .zf32 | 0x02 => some .zf16 | 0x03 => some .zb16 | 0x04 => some .ze4 | 0x05 => some .ze5
  | 0x06 => some .ze3m2 | 0x07 => some .ze2m1 | 0x08 => some .zi8 | 0x09 => some .zi4 | 0x0A => some .zt2
  | 0x0B => some .zs8 | 0x0C => some .z32a | 0x0D => some .affine | 0x0E => some .lut
  | _ => none

/-- The format code (Table 2-1). -/
def Fmt.code : Fmt → Nat
  | .zf32 => 0x01 | .zf16 => 0x02 | .zb16 => 0x03 | .ze4 => 0x04 | .ze5 => 0x05 | .ze3m2 => 0x06 | .ze2m1 => 0x07
  | .zi8 => 0x08 | .zi4 => 0x09 | .zt2 => 0x0A | .zs8 => 0x0B | .z32a => 0x0C | .affine => 0x0D | .lut => 0x0E

/-- The element width in bits (Table 2-1). -/
def Fmt.bits : Fmt → Nat
  | .zf32 => 32 | .zf16 => 16 | .zb16 => 16 | .ze4 => 8 | .ze5 => 8 | .ze3m2 => 6 | .ze2m1 => 4
  | .zi8 => 8 | .zi4 => 4 | .zt2 => 2 | .zs8 => 8 | .z32a => 32 | .affine => 32 | .lut => 256

/-- The layout of a narrow floating format (Table 2-1). -/
def fmtZE4 : FloatFmt := ⟨4, 3, 7⟩
def fmtZE5 : FloatFmt := ⟨5, 2, 15⟩
def fmtZE3M2 : FloatFmt := ⟨3, 2, 3⟩
def fmtZE2M1 : FloatFmt := ⟨2, 1, 1⟩

/-- The ZF32, ZF16 and ZB16 layouts: the destinations that never saturate (R53, R55). -/
def Fmt.ieee : Fmt → Option FloatFmt
  | .zf32 => some fmtZF32
  | .zf16 => some fmtZF16
  | .zb16 => some fmtZB16
  | _ => none

/-- The largest finite magnitude of a format that saturates, as m * 2^e (Table 2-1, R46, R47). -/
def Fmt.maxFinite : Fmt → Nat × Int
  | .ze4 => (7, 6)
  | .ze5 => (7, 13)
  | .ze3m2 => (7, 2)
  | .ze2m1 => (3, 1)
  | .zi8 => (127, 0)
  | .zi4 => (7, 0)
  | _ => (1, 0)

/-- emax_f of Table 2-2. -/
def Fmt.emax : Fmt → Int
  | .ze4 => 8
  | .ze5 => 15
  | .ze3m2 => 4
  | .ze2m1 => 2
  | .zi8 => 6
  | .zi4 => 2
  | _ => 0

/-- The formats whose groups become NaN blocks when they hold a non-finite element (R52). -/
def Fmt.nanBlocks : Fmt → Bool
  | .ze3m2 | .ze2m1 | .zi8 | .zi4 | .zt2 => true
  | _ => false

/-- The value of an element code, without its scales (R39 to R48). A ZT2 element 0b10 decodes as 0 (R47). DESIGN CHOICE (log
entry 46): of the formats without element conversion (R430), ZS8 decodes as the power of two that it stands for, 0x0D and 0x0E
as zero. -/
def Fmt.decode (f : Fmt) (code : Nat) : Val :=
  match f with
  | .zf32 => fmtZF32.decodeIeee code
  | .zf16 => fmtZF16.decodeIeee code
  | .zb16 => fmtZB16.decodeIeee code
  | .ze4 => if bitsAt code 0 7 = 0x7F then .nan else fmtZE4.finite code
  | .ze5 => fmtZE5.decodeIeee code
  | .ze3m2 => fmtZE3M2.finite code
  | .ze2m1 => fmtZE2M1.finite code
  | .zi8 => Val.ofInt (signed 8 code)
  | .zi4 => Val.ofInt (signed 4 code)
  | .zt2 => if code % 4 = 1 then .fin false 1 0 else if code % 4 = 3 then .fin true 1 0 else .fin false 0 0
  | .zs8 => if code % 256 = 0xFF then .nan else .fin false 1 ((code % 256 : Nat) - 127)
  | .z32a => if bitsAt code 23 8 = 0 then .fin (bitAt code 31) 0 0 else fmtZF32.decodeIeee code
  | .affine | .lut => .fin false 0 0

/-- Is the code one that decodes as 0 by being reserved (R47)? -/
def Fmt.reservedCode (f : Fmt) (code : Nat) : Bool := decide (f = .zt2 ∧ code % 4 = 2)

/-- The code of an exact grid magnitude m * 2^e with a sign; integer formats have no negative zero (R42). -/
def Fmt.codeOf (f : Fmt) (s : Bool) (m : Nat) (e : Int) : Nat :=
  match f with
  | .zf32 => fmtZF32.codeOf s m e
  | .zf16 => fmtZF16.codeOf s m e
  | .zb16 => fmtZB16.codeOf s m e
  | .ze4 => fmtZE4.codeOf s m e
  | .ze5 => fmtZE5.codeOf s m e
  | .ze3m2 => fmtZE3M2.codeOf s m e
  | .ze2m1 => fmtZE2M1.codeOf s m e
  | f =>
    let u := (Mag.mk m 1 e).count 0
    codeOfInt f.bits (if s then -(u : Int) else u)

/-- A magnitude at most the largest finite one, rounded onto the grid of a format (section 2.9). -/
def Fmt.roundGrid (f : Fmt) (mode : Rounding) (y : Mag) : Nat × Int :=
  match f with
  | .zf32 => fmtZF32.roundGrid mode y
  | .zf16 => fmtZF16.roundGrid mode y
  | .zb16 => fmtZB16.roundGrid mode y
  | .ze4 => fmtZE4.roundGrid mode y
  | .ze5 => fmtZE5.roundGrid mode y
  | .ze3m2 => fmtZE3M2.roundGrid mode y
  | .ze2m1 => fmtZE2M1.roundGrid mode y
  | _ => (y.round mode 0, 0)

/-- The code that a NaN or an infinity takes in a format that has one (R41, R44); the NaN-block formats store 0. -/
def Fmt.nonFiniteCode (f : Fmt) (x : Val) : Nat :=
  match f, x with
  | .ze4, _ => 0x7F
  | .ze5, .inf s => if s then 0xFC else 0x7C
  | .ze5, _ => 0x7E
  | f, .inf s => match f.ieee with
    | some l => l.infCode s
    | none => 0
  | f, _ => match f.ieee with
    | some l => l.nanCode
    | none => 0

/-- What the conversion of one element gives: its code, and which count of R53 it adds to. -/
structure Conv where
  code : Nat
  nonfinite : Bool := false
  saturated : Bool := false
  underflow : Bool := false
  deriving DecidableEq, Repr

/-- encode_element (R53): the element `x` in a group of scale code `s`, under the tensor scale t = tm * 2^te. -/
def encodeElement (f : Fmt) (mode : Rounding) (x : Val) (s : Nat) (tm : Nat) (te : Int) : Conv :=
  if s = 0xFF then { code := 0, nonfinite := !x.isFinite }
  else match x with
    | .nan => { code := f.nonFiniteCode .nan, nonfinite := true }
    | .inf g => { code := f.nonFiniteCode (.inf g), nonfinite := true }
    | .fin g m e =>
      let y := (Mag.mk m 1 e).divBy tm (te + ((s : Int) - 127))
      match f.ieee with
      | some l =>
        let q := l.roundGrid mode y
        if l.past q.1 q.2 then { code := l.infCode g, nonfinite := true }
        else { code := l.codeOf g q.1 q.2, underflow := decide (q.1 = 0 ∧ m ≠ 0) }
      | none =>
        let mx := f.maxFinite
        if (Mag.mk mx.1 1 mx.2).lt y then { code := f.codeOf g mx.1 mx.2, saturated := true }
        else
          let q := f.roundGrid mode y
          { code := f.codeOf g q.1 q.2, underflow := decide (q.1 = 0 ∧ m ≠ 0) }

/-- The largest magnitude of the finite elements of a group. -/
def groupMax : List Val → Mag
  | [] => ⟨0, 1, 0⟩
  | v :: t => Mag.max v.mag (groupMax t)

/-- group_scale (R51), for a tensor scale t = tm * 2^te. -/
def groupScale (f : Fmt) (group : List Val) (tm : Nat) (te : Int) (cap : Int) : Nat :=
  let m := (groupMax group).divBy tm te
  if m.p = 0 then 127
  else
    let k := m.floorLog2 - f.emax
    let mx := f.maxFinite
    let k := if (Mag.mk mx.1 1 (mx.2 + k)).lt m then k + 1 else k
    (min (max (k + 127) 0) cap).toNat

/-- The scale modes of SCALE_CTRL (Table 2-4). -/
inductive ScaleMode where
  | none | live | hist | expand
  deriving DecidableEq, Repr

/-- Table 2-2: does the format permit the scale mode and expansion form (`table` for the lookup form)? -/
def Fmt.permits (f : Fmt) (m : ScaleMode) (table : Bool) : Bool :=
  match f, m with
  | .zf32, m | .zf16, m | .zb16, m | .zs8, m | .z32a, m | .affine, m | .lut, m => decide (m = .none)
  | .ze4, m | .ze5, m => decide (m ≠ .expand)
  | .ze3m2, m | .ze2m1, m | .zt2, m => decide (m = .live ∨ m = .hist)
  | .zi8, m => match m with
    | .none => false
    | .live | .hist => true
    | .expand => !table
  | .zi4, m => decide (m ≠ .none)

/-- mix of R59. -/
def srMix (z : BitVec 64) : BitVec 64 :=
  let z := (z ^^^ (z >>> 31)) * 0xD6E8FEB86659FD93
  let z := (z ^^^ (z >>> 29)) * 0xA0B428DB2D6373B1
  z ^^^ (z >>> 32)

/-- rounding_bits of R59. -/
def roundingBits (k0 k1 : BitVec 64) (step tid i : Nat) : Nat :=
  let a := srMix ((BitVec.ofNat 64 ((step % 2 ^ 32) * 2 ^ 32 + tid % 2 ^ 32)) ^^^ k0)
  let w := srMix ((BitVec.ofNat 64 (i / 4) + a) ^^^ k1)
  let w := srMix (w ^^^ a)
  bitsAt w.toNat (16 * (i % 4)) 16

end Sys2Proof.Machine
end

