-- ==== Sys2Proof/Config.lean ====
section
/-!
DEFINITION. What the spec leaves open: free values (constants with no body, so that no proof can see what they are) and
the functions of published standards that the part computes but the spec does not give.
-/
namespace Sys2Proof.Config

/-- A value that the spec does not state, one for each use: the step reads and advances State.freeCount. -/
opaque freeWord : Nat → BitVec 64

/-- The ML-DSA-65 signature check (Table 0-1): public key bytes, message bytes, signature bytes. -/
opaque mlDsaVerify : List (BitVec 8) → List (BitVec 8) → List (BitVec 8) → Bool

/-- The ML-DSA-65 signature of a message by the key that the module holds. -/
opaque mlDsaSign : List (BitVec 8) → List (BitVec 8)

/-- The public key that ML-DSA-65 key generation gives for a seed of 32 bytes (R372). -/
opaque mlDsaKeygen : List (BitVec 8) → List (BitVec 8)

/-- The answer of the SPDM responder (DSP0274, R373) to a request; the number tells one request from another. -/
opaque spdmResponse : Nat → List (BitVec 8) → List (BitVec 8)

/-- The platform descriptor record of a handle of 1 to 12 (R379): the spec gives what the records describe and not their bytes. -/
opaque pdrRecord : Nat → List (BitVec 8)

/-- The set of a memory-side cache that a line of a channel's data space falls into (R255 gives the number of sets and
not the index). -/
opaque cacheSet : Nat → Nat → Nat

/-- The place among all data units of tier 3 of a unit of an object that has been rewritten so many times: where the referee
places units is not stated (R257 to R259). -/
opaque flashPlace : Nat → Nat → Nat → Nat

/-- The length of the referee's own area of tier 3 (catalogue type 4), which R258 does not give. -/
opaque refereeAreaLength : Nat

/-- The address (48 bits) that a port's own Ethernet frames carry as their source, which no rule gives. -/
opaque macAddress : Nat → Nat

/-- The choice of a port among those of a route: a hash of the source chip, the source unit and the destination's page,
object or reduction, which R334 does not give. -/
opaque routeHash : Nat → Nat → Nat → Nat

end Sys2Proof.Config
end

