-- ==== Sys2Proof/Machine/Codes.lean ====
section
/-!
DEFINITION. The status codes of the spec (R12), each with its value and the severity of its event (Table 1-10).
The codes of class 0x01 are load refusals: they are completion codes and carry the severity FAILED.
-/
namespace Sys2Proof.Machine

/-- A status code (R12) and the severity of the event that reports it (Table 1-10). -/
structure Code where
  val : Nat
  sev : Nat
  deriving DecidableEq, Repr

/-! Codes of `spec/02_number_formats.md`. -/
def Code.numZeroGroup : Code := ⟨0x0201, 1⟩
def Code.numSatGroup : Code := ⟨0x0202, 1⟩
def Code.numNanBlock : Code := ⟨0x0203, 1⟩
def Code.numReservedCode : Code := ⟨0x0204, 1⟩
def Code.numDescInvalid : Code := ⟨0x0205, 3⟩
def Code.numFormatMismatch : Code := ⟨0x0206, 3⟩
/-! Codes of `spec/03_fusible_array.md`. -/
def Code.numEpochMix : Code := ⟨0x0210, 3⟩
def Code.numArrInvalid : Code := ⟨0x0211, 3⟩
def Code.numAccOverflow : Code := ⟨0x0212, 1⟩
/-! Codes of `spec/04_correction_path.md`. -/
def Code.numCnvInvalid : Code := ⟨0x0220, 3⟩
def Code.numCnvOverflow : Code := ⟨0x0221, 1⟩
def Code.numOutlierOvf : Code := ⟨0x0222, 1⟩
def Code.numOutInvalid : Code := ⟨0x0223, 3⟩
def Code.numExtractInvalid : Code := ⟨0x0224, 3⟩
/-! Codes of `spec/05_umpire_and_integrity.md`. -/
def Code.intTransient : Code := ⟨0x0301, 2⟩
def Code.intCheckerFault : Code := ⟨0x0302, 2⟩
def Code.intPatternFault : Code := ⟨0x0303, 2⟩
def Code.intCoreFault : Code := ⟨0x0304, 2⟩
def Code.intUnresolved : Code := ⟨0x0305, 3⟩
def Code.intCheckFail : Code := ⟨0x0306, 2⟩
def Code.intBlockId : Code := ⟨0x0307, 2⟩
def Code.intPoisoned : Code := ⟨0x0308, 3⟩
def Code.intParity : Code := ⟨0x0309, 2⟩
def Code.intReplicaDiverge : Code := ⟨0x030A, 2⟩
def Code.intBenched : Code := ⟨0x030B, 0⟩
def Code.intReplaceChip : Code := ⟨0x030C, 1⟩
/-! Codes of `spec/06_precision_governor.md`. -/
def Code.numGovInvalid : Code := ⟨0x0230, 3⟩
def Code.numPrecisionChange : Code := ⟨0x0231, 0⟩
def Code.numJump : Code := ⟨0x0232, 1⟩
def Code.numHeldCeil : Code := ⟨0x0233, 1⟩
def Code.numHistTFail : Code := ⟨0x0234, 1⟩
def Code.numGovReduceFail : Code := ⟨0x0235, 3⟩
def Code.numFenceInvalid : Code := ⟨0x0236, 3⟩
def Code.numStaInvalid : Code := ⟨0x0237, 3⟩
/-! Codes of `spec/07_training_support.md`. -/
def Code.numOptInvalid : Code := ⟨0x0240, 3⟩
def Code.numOptCtxInvalid : Code := ⟨0x0241, 3⟩
def Code.numStepSkipped : Code := ⟨0x0242, 1⟩
def Code.numGradSat : Code := ⟨0x0243, 1⟩
def Code.numPrecondFallback : Code := ⟨0x0244, 1⟩
def Code.numStateNonfinite : Code := ⟨0x0245, 1⟩
def Code.numOptReduceFail : Code := ⟨0x0246, 3⟩
def Code.numGscaleFloor : Code := ⟨0x0247, 1⟩
def Code.numCkptComplete : Code := ⟨0x0248, 0⟩
def Code.numCkptDrained : Code := ⟨0x0249, 0⟩
def Code.numCkptFail : Code := ⟨0x024A, 3⟩
def Code.numCkptLate : Code := ⟨0x024B, 1⟩
def Code.numCkptRestoreFail : Code := ⟨0x024C, 3⟩
/-! Codes of `spec/09_sync_objects.md`. -/
def Code.synTimeout : Code := ⟨0x0701, 3⟩
def Code.synOrphaned : Code := ⟨0x0702, 3⟩
def Code.synUnallocated : Code := ⟨0x0703, 3⟩
def Code.synNotOwner : Code := ⟨0x0704, 3⟩
def Code.synScope : Code := ⟨0x0705, 1⟩
def Code.synCountSat : Code := ⟨0x0706, 1⟩
def Code.synImbalance : Code := ⟨0x0707, 1⟩
def Code.synCancelled : Code := ⟨0x0708, 0⟩
def Code.synManual : Code := ⟨0x0709, 0⟩
def Code.synManInvalid : Code := ⟨0x070A, 3⟩
/-! Codes of `spec/10_memory_tiers.md`. -/
def Code.memUnmapped : Code := ⟨0x0401, 1⟩
def Code.memAccessDenied : Code := ⟨0x0402, 1⟩
def Code.memReadOnly : Code := ⟨0x0403, 1⟩
def Code.memCorrected : Code := ⟨0x0404, 2⟩
def Code.memUncorrectable : Code := ⟨0x0405, 1⟩
def Code.memT3Uncorrectable : Code := ⟨0x0406, 3⟩
def Code.memObjectLost : Code := ⟨0x0407, 3⟩
def Code.memObjectBad : Code := ⟨0x0408, 3⟩
def Code.memObjectUnknown : Code := ⟨0x0409, 3⟩
def Code.memObjectBusy : Code := ⟨0x040A, 3⟩
def Code.memZpackCorrupt : Code := ⟨0x040B, 3⟩
def Code.memRegionInvalid : Code := ⟨0x040C, 3⟩
def Code.memQuota : Code := ⟨0x040D, 3⟩
def Code.memMapPending : Code := ⟨0x040E, 1⟩
def Code.memMappedOut : Code := ⟨0x040F, 0⟩
def Code.memGthIndex : Code := ⟨0x0410, 1⟩
def Code.memGthInvalid : Code := ⟨0x0411, 3⟩
def Code.memT3Degraded : Code := ⟨0x0412, 1⟩
/-! Codes of `spec/11_caddie_and_dma.md`. -/
def Code.xfrDescInvalid : Code := ⟨0x0501, 3⟩
def Code.xfrReadback : Code := ⟨0x0502, 3⟩
def Code.xfrAborted : Code := ⟨0x0503, 3⟩
def Code.xfrT3Recovered : Code := ⟨0x0504, 2⟩
def Code.xfrRingOverrun : Code := ⟨0x0505, 1⟩
def Code.xfrWeightHold : Code := ⟨0x0506, 1⟩
def Code.xfrWeightRequest : Code := ⟨0x0507, 1⟩
def Code.xfrWeightRecovered : Code := ⟨0x0508, 2⟩
def Code.xfrLfenceInvalid : Code := ⟨0x0509, 3⟩
def Code.xfrFeedInvalid : Code := ⟨0x050A, 3⟩
/-! Codes of `spec/12_host_interface_and_jobs.md`. -/
def Code.hqCmdInvalid : Code := ⟨0x0601, 3⟩
def Code.hqEntryInvalid : Code := ⟨0x0602, 3⟩
def Code.hqRingOverrun : Code := ⟨0x0603, 1⟩
def Code.hqOwnership : Code := ⟨0x0604, 1⟩
def Code.hqStreamFull : Code := ⟨0x0605, 1⟩
def Code.hqSeqCancelled : Code := ⟨0x0606, 0⟩
def Code.hqWindow : Code := ⟨0x0607, 1⟩
def Code.hqJobStopped : Code := ⟨0x0608, 1⟩
def Code.hqJobRestarted : Code := ⟨0x0609, 0⟩
def Code.hqJobEnded : Code := ⟨0x060A, 0⟩
def Code.hqPartInvalid : Code := ⟨0x060B, 3⟩
def Code.hqQueueInvalid : Code := ⟨0x060C, 3⟩
def Code.hqStreamOff : Code := ⟨0x060D, 1⟩
def Code.ldImage : Code := ⟨0x0101, 3⟩
def Code.ldChipFlagged : Code := ⟨0x0102, 3⟩
def Code.ldCoreBusy : Code := ⟨0x0103, 3⟩
def Code.ldCoreStore : Code := ⟨0x0104, 3⟩
def Code.ldScorebook : Code := ⟨0x0105, 3⟩
def Code.ldSync : Code := ⟨0x0106, 3⟩
def Code.ldQueues : Code := ⟨0x0107, 3⟩
def Code.ldStreams : Code := ⟨0x0108, 3⟩
def Code.ldSeqSlots : Code := ⟨0x0109, 3⟩
def Code.ldTier1Quota : Code := ⟨0x010A, 3⟩
def Code.ldTier2Quota : Code := ⟨0x010B, 3⟩
def Code.ldTier3Quota : Code := ⟨0x010C, 3⟩
def Code.ldRegion : Code := ⟨0x010D, 3⟩
def Code.ldLinkPorts : Code := ⟨0x010E, 3⟩
def Code.ldTrace : Code := ⟨0x010F, 3⟩
def Code.ldFeeds : Code := ⟨0x0110, 3⟩
def Code.ldContext : Code := ⟨0x0111, 3⟩
def Code.ldSensitive : Code := ⟨0x0112, 3⟩
/-! Codes of `spec/13_ergal_links.md`. -/
def Code.lnkAddrInvalid : Code := ⟨0x0801, 3⟩
def Code.lnkUnreachable : Code := ⟨0x0802, 1⟩
def Code.lnkTimeout : Code := ⟨0x0803, 3⟩
def Code.lnkPortDown : Code := ⟨0x0804, 1⟩
def Code.lnkPortUp : Code := ⟨0x0805, 0⟩
def Code.lnkLaneDegraded : Code := ⟨0x0806, 1⟩
def Code.lnkCabling : Code := ⟨0x0807, 1⟩
def Code.lnkIdConflict : Code := ⟨0x0808, 1⟩
def Code.lnkReplayHigh : Code := ⟨0x0809, 1⟩
def Code.lnkPeerJoined : Code := ⟨0x080A, 0⟩
def Code.lnkPeerLost : Code := ⟨0x080B, 1⟩
def Code.lnkJoinRefused : Code := ⟨0x080C, 1⟩
def Code.lnkManagerChange : Code := ⟨0x080D, 1⟩
def Code.lnkTimeAhead : Code := ⟨0x080E, 1⟩
def Code.lnkRedFail : Code := ⟨0x080F, 3⟩
def Code.lnkRedInvalid : Code := ⟨0x0810, 3⟩
/-! Codes of `spec/14_referee.md`. -/
def Code.mgtBusTimeout : Code := ⟨0x0901, 1⟩
def Code.mgtMbxAborted : Code := ⟨0x0902, 1⟩
def Code.mgtMbxDenied : Code := ⟨0x0903, 1⟩
def Code.mgtMbxBusy : Code := ⟨0x0904, 1⟩
def Code.mgtSelftest : Code := ⟨0x0905, 4⟩
def Code.mgtDugout : Code := ⟨0x0906, 4⟩
def Code.mgtImageInvalid : Code := ⟨0x0907, 3⟩
def Code.mgtReqInvalid : Code := ⟨0x0908, 3⟩
def Code.mgtReqState : Code := ⟨0x0909, 3⟩
def Code.mgtRefCorrected : Code := ⟨0x090A, 2⟩
def Code.mgtForcedReset : Code := ⟨0x090B, 1⟩
def Code.mgtReady : Code := ⟨0x090C, 0⟩
def Code.mgtFuseFail : Code := ⟨0x090D, 3⟩
def Code.mgtReset : Code := ⟨0x090E, 0⟩
def Code.mgtRecovery : Code := ⟨0x090F, 4⟩
/-! Codes of `spec/15_power_thermal_ageing.md`. -/
def Code.powerLimited : Code := ⟨0x0050, 1⟩
def Code.powerPeak : Code := ⟨0x0051, 1⟩
def Code.thermalLimited : Code := ⟨0x0052, 1⟩
def Code.sensorFailed : Code := ⟨0x0053, 1⟩
def Code.coolantHigh : Code := ⟨0x0054, 1⟩
def Code.marginPlan : Code := ⟨0x0055, 0⟩
def Code.marginEmergency : Code := ⟨0x0056, 1⟩
def Code.marginFloor : Code := ⟨0x0057, 1⟩
def Code.refreshDerated : Code := ⟨0x0058, 0⟩
/-! Codes of `spec/16_debug_trace_counters.md`. -/
def Code.dbgBreak : Code := ⟨0x0A01, 0⟩
def Code.dbgTraceTrigger : Code := ⟨0x0A02, 0⟩
def Code.dbgTraceStopped : Code := ⟨0x0A03, 0⟩
def Code.dbgWatchDone : Code := ⟨0x0A04, 0⟩
def Code.dbgWatchFail : Code := ⟨0x0A05, 1⟩
def Code.dbgCounterSat : Code := ⟨0x0A06, 1⟩
def Code.dbgPriv : Code := ⟨0x0A07, 1⟩
def Code.dbgInvalid : Code := ⟨0x0A08, 3⟩

end Sys2Proof.Machine
end

