-- ==== Sys2Proof/Machine/Crc.lean ====
section
/-!
DEFINITION. The check codes of the part: the CRC-64 of tensor blocks (R66) and the CRC-32C of link frames and records.
-/
namespace Sys2Proof.Machine

/-- One bit step of the CRC-64 of R66, most significant bit first. -/
def crc64Bit (c : BitVec 64) : BitVec 64 :=
  if c.msb then (c <<< 1) ^^^ 0x42F0E1EBA9EA3693 else c <<< 1

/-- `n` bit steps. -/
def crc64Bits : Nat → BitVec 64 → BitVec 64
  | 0, c => c
  | n + 1, c => crc64Bits n (crc64Bit c)

/-- The CRC-64 register after one more byte (R66). -/
def crc64Byte (c : BitVec 64) (b : BitVec 8) : BitVec 64 :=
  crc64Bits 8 (c ^^^ ((b.zeroExtend 64) <<< 56))

/-- The CRC-64 of a row of bytes: register 0 at the start, no reflection, no final exclusive-or (R66). -/
def crc64 (bs : List (BitVec 8)) : BitVec 64 := bs.foldl crc64Byte 0

/-- One bit step of the reflected CRC-32C (polynomial 0x1EDC6F41). -/
def crc32cBit (c : BitVec 32) : BitVec 32 :=
  if c.getLsbD 0 then (c >>> 1) ^^^ 0x82F63B78 else c >>> 1

/-- `n` bit steps. -/
def crc32cBits : Nat → BitVec 32 → BitVec 32
  | 0, c => c
  | n + 1, c => crc32cBits n (crc32cBit c)

/-- The CRC-32C of a row of bytes: register all ones at the start, reflected, final complement. -/
def crc32c (bs : List (BitVec 8)) : BitVec 32 :=
  ~~~ (bs.foldl (fun c b => crc32cBits 8 (c ^^^ b.zeroExtend 32)) 0xFFFFFFFF)

/-- The CRC-32 of DSP0240 (the IEEE 802.3 polynomial, reflected; PRESUMED). -/
def crc32Bits : Nat → BitVec 32 → BitVec 32
  | 0, c => c
  | n + 1, c => crc32Bits n (if c.getLsbD 0 then (c >>> 1) ^^^ 0xEDB88320 else c >>> 1)
def crc32 (bs : List (BitVec 8)) : BitVec 32 :=
  ~~~ (bs.foldl (fun c b => crc32Bits 8 (c ^^^ b.zeroExtend 32)) 0xFFFFFFFF)

end Sys2Proof.Machine
end

