-- ==== Sys2Proof/Machine/Regs.lean ====
section
/-!
DEFINITION. The register space: the address (BAR0 offset, R8) of every register of the spec, the place of every named
field, and the access code of every field (R7 to R11, Table 0-3a). A register array takes its indices as arguments;
`c` is an architectural core (R9), `b` the first register of a DMA channel. A register that the spec gives no field
table of its own has the layout of a counter (R413).
-/
namespace Sys2Proof.Machine

/-- A field of a register: the register's BAR0 offset, the field's lowest bit and its width. -/
structure RF where
  reg : Nat
  lo : Nat
  w : Nat
  deriving DecidableEq, Repr

/-- The access codes of Table 0-3a. -/
inductive Access where
  | rw | ro | wo | w1c | w1s | rwl | rc | fuse
  deriving DecidableEq, Repr

/-- A field of a register row: lowest bit, width, access code. -/
structure FieldRow where
  lo : Nat
  w : Nat
  acc : Access
  deriving DecidableEq, Repr

/-- A register or register array: the first BAR0 offset, the (count, stride) of each index, where the LOCK bit of its
RWL fields stands (alignment, offset, bit: the register at the aligned base plus the offset), and its fields. Bits of
no field are reserved: they read 0 and ignore writes (R10). -/
structure RegRow where
  base : Nat
  dims : List (Nat × Nat)
  lock : Option (Nat × Nat × Nat)
  fields : List FieldRow
  deriving DecidableEq, Repr

/-- PMK_CORE_IDENT, `spec/01_architecture.md`. -/
def Reg.pmkCoreIdent (c : Nat) : Nat := 0x200E000 + 0x20000 * c
def RF.pmkCoreIdentArchCore (c : Nat) : RF := ⟨(Reg.pmkCoreIdent c), 0, 8⟩
def RF.pmkCoreIdentDie (c : Nat) : RF := ⟨(Reg.pmkCoreIdent c), 8, 3⟩
def RF.pmkCoreIdentPhysSlot (c : Nat) : RF := ⟨(Reg.pmkCoreIdent c), 16, 6⟩
def RF.pmkCoreIdentLibero (c : Nat) : RF := ⟨(Reg.pmkCoreIdent c), 24, 1⟩
def RF.pmkCoreIdentReplayVerified (c : Nat) : RF := ⟨(Reg.pmkCoreIdent c), 25, 1⟩
/-- CNT_DTIME, `spec/01_architecture.md`. -/
def Reg.cntDtime : Nat := 0xF00000
def RF.cntDtimeTime : RF := ⟨Reg.cntDtime, 0, 64⟩
/-- XFM_CTRL, `spec/02_number_formats.md`. -/
def Reg.xfmCtrl (c : Nat) : Nat := 0x2008000 + 0x20000 * c
def RF.xfmCtrlLock (c : Nat) : RF := ⟨(Reg.xfmCtrl c), 0, 1⟩
/-- XFM_RNG_KEY0, `spec/02_number_formats.md`. -/
def Reg.xfmRngKey0 (c : Nat) : Nat := 0x2008008 + 0x20000 * c
def RF.xfmRngKey0K0 (c : Nat) : RF := ⟨(Reg.xfmRngKey0 c), 0, 64⟩
/-- XFM_RNG_KEY1, `spec/02_number_formats.md`. -/
def Reg.xfmRngKey1 (c : Nat) : Nat := 0x2008010 + 0x20000 * c
def RF.xfmRngKey1K1 (c : Nat) : RF := ⟨(Reg.xfmRngKey1 c), 0, 64⟩
/-- XFM_CNT_n, `spec/02_number_formats.md`. -/
def Reg.xfmCnt (c n : Nat) : Nat := 0x2008018 + 0x20000 * c + 0x8 * n
def RF.xfmCntCount (c n : Nat) : RF := ⟨(Reg.xfmCnt c n), 0, 48⟩
def RF.xfmCntSat (c n : Nat) : RF := ⟨(Reg.xfmCnt c n), 63, 1⟩
/-- ARR_STATUS, `spec/03_fusible_array.md`. -/
def Reg.arrStatus (c : Nat) : Nat := 0x2000000 + 0x20000 * c
def RF.arrStatusBank (c : Nat) : RF := ⟨(Reg.arrStatus c), 0, 2⟩
def RF.arrStatusBullpen (c : Nat) : RF := ⟨(Reg.arrStatus c), 2, 2⟩
def RF.arrStatusBankR (c : Nat) : RF := ⟨(Reg.arrStatus c), 4, 3⟩
def RF.arrStatusBankC (c : Nat) : RF := ⟨(Reg.arrStatus c), 7, 3⟩
def RF.arrStatusBankTemporal (c : Nat) : RF := ⟨(Reg.arrStatus c), 10, 1⟩
def RF.arrStatusBankPlane (c : Nat) : RF := ⟨(Reg.arrStatus c), 11, 2⟩
def RF.arrStatusBankZero (c : Nat) : RF := ⟨(Reg.arrStatus c), 16, 16⟩
/-- ARR_CNT_n, `spec/03_fusible_array.md`. -/
def Reg.arrCnt (c n : Nat) : Nat := 0x2000008 + 0x20000 * c + 0x8 * n
def RF.arrCntCount (c n : Nat) : RF := ⟨(Reg.arrCnt c n), 0, 48⟩
def RF.arrCntSat (c n : Nat) : RF := ⟨(Reg.arrCnt c n), 63, 1⟩
/-- CNV_STATUS, `spec/04_correction_path.md`. -/
def Reg.cnvStatus (c : Nat) : Nat := 0x2002000 + 0x20000 * c
def RF.cnvStatusBusy (c : Nat) : RF := ⟨(Reg.cnvStatus c), 0, 1⟩
def RF.cnvStatusQueued (c : Nat) : RF := ⟨(Reg.cnvStatus c), 1, 4⟩
def RF.cnvStatusShape (c : Nat) : RF := ⟨(Reg.cnvStatus c), 5, 2⟩
/-- CNV_CNT_n, `spec/04_correction_path.md`. -/
def Reg.cnvCnt (c n : Nat) : Nat := 0x2002008 + 0x20000 * c + 0x8 * n
def RF.cnvCntCount (c n : Nat) : RF := ⟨(Reg.cnvCnt c n), 0, 48⟩
def RF.cnvCntSat (c n : Nat) : RF := ⟨(Reg.cnvCnt c n), 63, 1⟩
/-- OUT_BIND_n, `spec/04_correction_path.md`. -/
def Reg.outBind (c n : Nat) : Nat := 0x2006000 + 0x20000 * c + 0x8 * n
def RF.outBindTensorId (c n : Nat) : RF := ⟨(Reg.outBind c n), 0, 32⟩
def RF.outBindOffset (c n : Nat) : RF := ⟨(Reg.outBind c n), 32, 24⟩
def RF.outBindValid (c n : Nat) : RF := ⟨(Reg.outBind c n), 63, 1⟩
/-- OUT_CNT_n, `spec/04_correction_path.md`. -/
def Reg.outCnt (c n : Nat) : Nat := 0x2006040 + 0x20000 * c + 0x8 * n
def RF.outCntCount (c n : Nat) : RF := ⟨(Reg.outCnt c n), 0, 48⟩
def RF.outCntSat (c n : Nat) : RF := ⟨(Reg.outCnt c n), 63, 1⟩
/-- UMP_CTRL, `spec/05_umpire_and_integrity.md`. -/
def Reg.umpCtrl (c : Nat) : Nat := 0x200C000 + 0x20000 * c
def RF.umpCtrlInject (c : Nat) : RF := ⟨(Reg.umpCtrl c), 0, 2⟩
/-- UMP_STATUS, `spec/05_umpire_and_integrity.md`. -/
def Reg.umpStatus (c : Nat) : Nat := 0x200C008 + 0x20000 * c
def RF.umpStatusSuspect (c : Nat) : RF := ⟨(Reg.umpStatus c), 0, 1⟩
def RF.umpStatusArbitrating (c : Nat) : RF := ⟨(Reg.umpStatus c), 1, 1⟩
def RF.umpStatusArbiter (c : Nat) : RF := ⟨(Reg.umpStatus c), 2, 1⟩
def RF.umpStatusBenchPending (c : Nat) : RF := ⟨(Reg.umpStatus c), 3, 1⟩
def RF.umpStatusLastClass (c : Nat) : RF := ⟨(Reg.umpStatus c), 4, 8⟩
/-- UMP_CNT_n, `spec/05_umpire_and_integrity.md`. -/
def Reg.umpCnt (c n : Nat) : Nat := 0x200C010 + 0x20000 * c + 0x8 * n
def RF.umpCntCount (c n : Nat) : RF := ⟨(Reg.umpCnt c n), 0, 48⟩
def RF.umpCntSat (c n : Nat) : RF := ⟨(Reg.umpCnt c n), 63, 1⟩
/-- PGV_CTX_CTRL, `spec/06_precision_governor.md`. -/
def Reg.pgvCtxCtrl (p : Nat) : Nat := 0x10000 + 0x1000 * p
def RF.pgvCtxCtrlEnable (p : Nat) : RF := ⟨(Reg.pgvCtxCtrl p), 0, 1⟩
def RF.pgvCtxCtrlPause (p : Nat) : RF := ⟨(Reg.pgvCtxCtrl p), 1, 1⟩
def RF.pgvCtxCtrlLock (p : Nat) : RF := ⟨(Reg.pgvCtxCtrl p), 2, 1⟩
/-- PGV_GROUP_TABLE, `spec/06_precision_governor.md`. -/
def Reg.pgvGroupTable (p : Nat) : Nat := 0x10008 + 0x1000 * p
def RF.pgvGroupTableBase (p : Nat) : RF := ⟨(Reg.pgvGroupTable p), 0, 48⟩
def RF.pgvGroupTableNgroups (p : Nat) : RF := ⟨(Reg.pgvGroupTable p), 48, 13⟩
/-- PGV_TENSOR_TABLE, `spec/06_precision_governor.md`. -/
def Reg.pgvTensorTable (p : Nat) : Nat := 0x10010 + 0x1000 * p
def RF.pgvTensorTableBase (p : Nat) : RF := ⟨(Reg.pgvTensorTable p), 0, 48⟩
def RF.pgvTensorTableNtensors (p : Nat) : RF := ⟨(Reg.pgvTensorTable p), 48, 15⟩
/-- PGV_AREAS_n, `spec/06_precision_governor.md`. -/
def Reg.pgvAreas (p n : Nat) : Nat := 0x10018 + 0x1000 * p + 0x8 * n
def RF.pgvAreasBase (p n : Nat) : RF := ⟨(Reg.pgvAreas p n), 0, 48⟩
def RF.pgvAreasLog2Entries (p n : Nat) : RF := ⟨(Reg.pgvAreas p n), 48, 5⟩
/-- PGV_PLAN, `spec/06_precision_governor.md`. -/
def Reg.pgvPlan (p : Nat) : Nat := 0x10030 + 0x1000 * p
def RF.pgvPlanPlanOffset (p : Nat) : RF := ⟨(Reg.pgvPlan p), 0, 24⟩
/-- PGV_THRESH_SAT, `spec/06_precision_governor.md`. -/
def Reg.pgvThreshSat (p : Nat) : Nat := 0x10038 + 0x1000 * p
def RF.pgvThreshSatSatHi (p : Nat) : RF := ⟨(Reg.pgvThreshSat p), 0, 32⟩
def RF.pgvThreshSatSatLo (p : Nat) : RF := ⟨(Reg.pgvThreshSat p), 32, 32⟩
/-- PGV_THRESH_OVF, `spec/06_precision_governor.md`. -/
def Reg.pgvThreshOvf (p : Nat) : Nat := 0x10040 + 0x1000 * p
def RF.pgvThreshOvfOvfHi (p : Nat) : RF := ⟨(Reg.pgvThreshOvf p), 0, 32⟩
def RF.pgvThreshOvfOvfLo (p : Nat) : RF := ⟨(Reg.pgvThreshOvf p), 32, 32⟩
/-- PGV_JUMP, `spec/06_precision_governor.md`. -/
def Reg.pgvJump (p : Nat) : Nat := 0x10048 + 0x1000 * p
def RF.pgvJumpK (p : Nat) : RF := ⟨(Reg.pgvJump p), 0, 8⟩
def RF.pgvJumpA (p : Nat) : RF := ⟨(Reg.pgvJump p), 8, 4⟩
def RF.pgvJumpWarmup (p : Nat) : RF := ⟨(Reg.pgvJump p), 16, 8⟩
def RF.pgvJumpLj (p : Nat) : RF := ⟨(Reg.pgvJump p), 32, 32⟩
/-- PGV_JUMP_DMIN, `spec/06_precision_governor.md`. -/
def Reg.pgvJumpDmin (p : Nat) : Nat := 0x10050 + 0x1000 * p
def RF.pgvJumpDminDmin (p : Nat) : RF := ⟨(Reg.pgvJumpDmin p), 0, 32⟩
/-- PGV_STATUS, `spec/06_precision_governor.md`. -/
def Reg.pgvStatus (p : Nat) : Nat := 0x10058 + 0x1000 * p
def RF.pgvStatusPublishedStep (p : Nat) : RF := ⟨(Reg.pgvStatus p), 0, 32⟩
def RF.pgvStatusBusy (p : Nat) : RF := ⟨(Reg.pgvStatus p), 32, 1⟩
def RF.pgvStatusPhase (p : Nat) : RF := ⟨(Reg.pgvStatus p), 33, 3⟩
/-- PGV_EPOCH, `spec/06_precision_governor.md`. -/
def Reg.pgvEpoch (p : Nat) : Nat := 0x10060 + 0x1000 * p
def RF.pgvEpochEpoch (p : Nat) : RF := ⟨(Reg.pgvEpoch p), 0, 32⟩
/-- PGV_LOG_HEAD, `spec/06_precision_governor.md`. -/
def Reg.pgvLogHead (p : Nat) : Nat := 0x10068 + 0x1000 * p
def RF.pgvLogHeadWritten (p : Nat) : RF := ⟨(Reg.pgvLogHead p), 0, 64⟩
/-- PGV_CNT_n, `spec/06_precision_governor.md`. -/
def Reg.pgvCnt (p n : Nat) : Nat := 0x10070 + 0x1000 * p + 0x8 * n
def RF.pgvCntCount (p n : Nat) : RF := ⟨(Reg.pgvCnt p n), 0, 48⟩
def RF.pgvCntSat (p n : Nat) : RF := ⟨(Reg.pgvCnt p n), 63, 1⟩
/-- STA_BIND_n, `spec/06_precision_governor.md`. -/
def Reg.staBind (c n : Nat) : Nat := 0x200A000 + 0x20000 * c + 0x8 * n
def RF.staBindTensorId (c n : Nat) : RF := ⟨(Reg.staBind c n), 0, 32⟩
def RF.staBindTindex (c n : Nat) : RF := ⟨(Reg.staBind c n), 32, 14⟩
def RF.staBindPending (c n : Nat) : RF := ⟨(Reg.staBind c n), 46, 1⟩
def RF.staBindValid (c n : Nat) : RF := ⟨(Reg.staBind c n), 63, 1⟩
/-- OPT_CTX_CTRL, `spec/07_training_support.md`. -/
def Reg.optCtxCtrl (p : Nat) : Nat := 0x110000 + 0x1000 * p
def RF.optCtxCtrlEnable (p : Nat) : RF := ⟨(Reg.optCtxCtrl p), 0, 1⟩
def RF.optCtxCtrlLock (p : Nat) : RF := ⟨(Reg.optCtxCtrl p), 1, 1⟩
def RF.optCtxCtrlOvfMode (p : Nat) : RF := ⟨(Reg.optCtxCtrl p), 2, 2⟩
/-- OPT_GROUP_TABLE, `spec/07_training_support.md`. -/
def Reg.optGroupTable (p : Nat) : Nat := 0x110008 + 0x1000 * p
def RF.optGroupTableBase (p : Nat) : RF := ⟨(Reg.optGroupTable p), 0, 48⟩
def RF.optGroupTableNgroups (p : Nat) : RF := ⟨(Reg.optGroupTable p), 48, 11⟩
/-- OPT_CONST, `spec/07_training_support.md`. -/
def Reg.optConst (p : Nat) : Nat := 0x110010 + 0x1000 * p
def RF.optConstBase (p : Nat) : RF := ⟨(Reg.optConst p), 0, 48⟩
/-- OPT_GSCALE, `spec/07_training_support.md`. -/
def Reg.optGscale (p : Nat) : Nat := 0x110018 + 0x1000 * p
def RF.optGscaleGexpInit (p : Nat) : RF := ⟨(Reg.optGscale p), 0, 8⟩
def RF.optGscaleGexpMin (p : Nat) : RF := ⟨(Reg.optGscale p), 8, 8⟩
def RF.optGscaleGexpMax (p : Nat) : RF := ⟨(Reg.optGscale p), 16, 8⟩
def RF.optGscaleNclean (p : Nat) : RF := ⟨(Reg.optGscale p), 24, 16⟩
/-- OPT_CLIP, `spec/07_training_support.md`. -/
def Reg.optClip (p : Nat) : Nat := 0x110020 + 0x1000 * p
def RF.optClipClipMax (p : Nat) : RF := ⟨(Reg.optClip p), 0, 32⟩
/-- OPT_CKPT_CTRL, `spec/07_training_support.md`. -/
def Reg.optCkptCtrl (p : Nat) : Nat := 0x110028 + 0x1000 * p
def RF.optCkptCtrlInterval (p : Nat) : RF := ⟨(Reg.optCkptCtrl p), 0, 32⟩
def RF.optCkptCtrlReqStep (p : Nat) : RF := ⟨(Reg.optCkptCtrl p), 32, 32⟩
/-- OPT_CKPT_MAP, `spec/07_training_support.md`. -/
def Reg.optCkptMap (p : Nat) : Nat := 0x110030 + 0x1000 * p
def RF.optCkptMapBase (p : Nat) : RF := ⟨(Reg.optCkptMap p), 0, 48⟩
def RF.optCkptMapNentries (p : Nat) : RF := ⟨(Reg.optCkptMap p), 48, 12⟩
/-- OPT_BUDDY, `spec/07_training_support.md`. -/
def Reg.optBuddy (p : Nat) : Nat := 0x110038 + 0x1000 * p
def RF.optBuddyBuddyBase (p : Nat) : RF := ⟨(Reg.optBuddy p), 0, 48⟩
def RF.optBuddyWays (p : Nat) : RF := ⟨(Reg.optBuddy p), 48, 3⟩
/-- OPT_BUDDY_STRIPE, `spec/07_training_support.md`. -/
def Reg.optBuddyStripe (p : Nat) : Nat := 0x110040 + 0x1000 * p
def RF.optBuddyStripeStripe (p : Nat) : RF := ⟨(Reg.optBuddyStripe p), 0, 48⟩
/-- OPT_STATUS, `spec/07_training_support.md`. -/
def Reg.optStatus (p : Nat) : Nat := 0x110048 + 0x1000 * p
def RF.optStatusConstStep (p : Nat) : RF := ⟨(Reg.optStatus p), 0, 32⟩
def RF.optStatusGexp (p : Nat) : RF := ⟨(Reg.optStatus p), 32, 8⟩
def RF.optStatusBusy (p : Nat) : RF := ⟨(Reg.optStatus p), 40, 1⟩
def RF.optStatusSkipped (p : Nat) : RF := ⟨(Reg.optStatus p), 41, 1⟩
def RF.optStatusClean (p : Nat) : RF := ⟨(Reg.optStatus p), 48, 16⟩
/-- OPT_NORM_RESULT, `spec/07_training_support.md`. -/
def Reg.optNormResult (p : Nat) : Nat := 0x110050 + 0x1000 * p
def RF.optNormResultSumsq (p : Nat) : RF := ⟨(Reg.optNormResult p), 0, 32⟩
def RF.optNormResultClip (p : Nat) : RF := ⟨(Reg.optNormResult p), 32, 32⟩
/-- OPT_CKPT_STATUS, `spec/07_training_support.md`. -/
def Reg.optCkptStatus (p : Nat) : Nat := 0x110058 + 0x1000 * p
def RF.optCkptStatusLastComplete (p : Nat) : RF := ⟨(Reg.optCkptStatus p), 0, 32⟩
def RF.optCkptStatusLastDrained (p : Nat) : RF := ⟨(Reg.optCkptStatus p), 32, 32⟩
/-- OPT_CKPT_STATE, `spec/07_training_support.md`. -/
def Reg.optCkptState (p : Nat) : Nat := 0x110060 + 0x1000 * p
def RF.optCkptStateCapture (p : Nat) : RF := ⟨(Reg.optCkptState p), 0, 1⟩
def RF.optCkptStateDrain (p : Nat) : RF := ⟨(Reg.optCkptState p), 1, 1⟩
def RF.optCkptStateSwDone (p : Nat) : RF := ⟨(Reg.optCkptState p), 2, 1⟩
/-- OPT_CNT_n, `spec/07_training_support.md`. -/
def Reg.optCnt (p n : Nat) : Nat := 0x110068 + 0x1000 * p + 0x8 * n
def RF.optCntCount (p n : Nat) : RF := ⟨(Reg.optCnt p n), 0, 48⟩
def RF.optCntSat (p n : Nat) : RF := ⟨(Reg.optCnt p n), 63, 1⟩
/-- VEC_STATUS, `spec/07_training_support.md`. -/
def Reg.vecStatus (c : Nat) : Nat := 0x2004000 + 0x20000 * c
def RF.vecStatusBusy (c : Nat) : RF := ⟨(Reg.vecStatus c), 0, 1⟩
def RF.vecStatusQueued (c : Nat) : RF := ⟨(Reg.vecStatus c), 1, 4⟩
def RF.vecStatusConstWait (c : Nat) : RF := ⟨(Reg.vecStatus c), 5, 1⟩
/-- VEC_CNT_n, `spec/07_training_support.md`. -/
def Reg.vecCnt (c n : Nat) : Nat := 0x2004008 + 0x20000 * c + 0x8 * n
def RF.vecCntCount (c n : Nat) : RF := ⟨(Reg.vecCnt c n), 0, 48⟩
def RF.vecCntSat (c n : Nat) : RF := ⟨(Reg.vecCnt c n), 63, 1⟩
/-- PMK_CTRL, `spec/08_playmakers_and_commands.md`. -/
def Reg.pmkCtrl (c : Nat) : Nat := 0x200E008 + 0x20000 * c
def RF.pmkCtrlHalt (c : Nat) : RF := ⟨(Reg.pmkCtrl c), 0, 1⟩
def RF.pmkCtrlBrkEn (c : Nat) : RF := ⟨(Reg.pmkCtrl c), 1, 1⟩
def RF.pmkCtrlLock (c : Nat) : RF := ⟨(Reg.pmkCtrl c), 2, 1⟩
/-- PMK_STATUS, `spec/08_playmakers_and_commands.md`. -/
def Reg.pmkStatus (c : Nat) : Nat := 0x200E010 + 0x20000 * c
def RF.pmkStatusState (c : Nat) : RF := ⟨(Reg.pmkStatus c), 0, 2⟩
def RF.pmkStatusDraining (c : Nat) : RF := ⟨(Reg.pmkStatus c), 2, 1⟩
def RF.pmkStatusHeadCause (c : Nat) : RF := ⟨(Reg.pmkStatus c), 3, 4⟩
def RF.pmkStatusHaltCause (c : Nat) : RF := ⟨(Reg.pmkStatus c), 7, 3⟩
def RF.pmkStatusInflight (c : Nat) : RF := ⟨(Reg.pmkStatus c), 10, 7⟩
def RF.pmkStatusRegions (c : Nat) : RF := ⟨(Reg.pmkStatus c), 17, 6⟩
def RF.pmkStatusSegq (c : Nat) : RF := ⟨(Reg.pmkStatus c), 23, 5⟩
def RF.pmkStatusWaitsDone (c : Nat) : RF := ⟨(Reg.pmkStatus c), 28, 3⟩
/-- PMK_STEP, `spec/08_playmakers_and_commands.md`. -/
def Reg.pmkStep (c : Nat) : Nat := 0x200E018 + 0x20000 * c
def RF.pmkStepStep (c : Nat) : RF := ⟨(Reg.pmkStep c), 0, 64⟩
/-- PMK_HEAD, `spec/08_playmakers_and_commands.md`. -/
def Reg.pmkHead (c : Nat) : Nat := 0x200E020 + 0x20000 * c
def RF.pmkHeadIndex (c : Nat) : RF := ⟨(Reg.pmkHead c), 0, 24⟩
def RF.pmkHeadOpcode (c : Nat) : RF := ⟨(Reg.pmkHead c), 24, 8⟩
def RF.pmkHeadStream (c : Nat) : RF := ⟨(Reg.pmkHead c), 32, 13⟩
def RF.pmkHeadSeqSlot (c : Nat) : RF := ⟨(Reg.pmkHead c), 45, 8⟩
/-- PMK_HEAD_ADDR, `spec/08_playmakers_and_commands.md`. -/
def Reg.pmkHeadAddr (c : Nat) : Nat := 0x200E028 + 0x20000 * c
def RF.pmkHeadAddrAddr (c : Nat) : RF := ⟨(Reg.pmkHeadAddr c), 0, 48⟩
/-- PMK_TOKENS, `spec/08_playmakers_and_commands.md`. -/
def Reg.pmkTokens (c : Nat) : Nat := 0x200E030 + 0x20000 * c
def RF.pmkTokensHeld (c : Nat) : RF := ⟨(Reg.pmkTokens c), 0, 64⟩
/-- PMK_FAULT, `spec/08_playmakers_and_commands.md`. -/
def Reg.pmkFault (c : Nat) : Nat := 0x200E038 + 0x20000 * c
def RF.pmkFaultCode (c : Nat) : RF := ⟨(Reg.pmkFault c), 0, 16⟩
def RF.pmkFaultIndex (c : Nat) : RF := ⟨(Reg.pmkFault c), 16, 24⟩
def RF.pmkFaultOpcode (c : Nat) : RF := ⟨(Reg.pmkFault c), 40, 8⟩
def RF.pmkFaultStream (c : Nat) : RF := ⟨(Reg.pmkFault c), 48, 13⟩
/-- PMK_CNT_n, `spec/08_playmakers_and_commands.md`. -/
def Reg.pmkCnt (c n : Nat) : Nat := 0x200E040 + 0x20000 * c + 0x8 * n
def RF.pmkCntCount (c n : Nat) : RF := ⟨(Reg.pmkCnt c n), 0, 48⟩
def RF.pmkCntSat (c n : Nat) : RF := ⟨(Reg.pmkCnt c n), 63, 1⟩
/-- PMK_BRK_n, `spec/16_debug_trace_counters.md`. -/
def Reg.pmkBrk (c n : Nat) : Nat := 0x200E100 + 0x20000 * c + 0x8 * n
def RF.pmkBrkIndex (c n : Nat) : RF := ⟨(Reg.pmkBrk c n), 0, 24⟩
def RF.pmkBrkOpcode (c n : Nat) : RF := ⟨(Reg.pmkBrk c n), 24, 8⟩
def RF.pmkBrkStream (c n : Nat) : RF := ⟨(Reg.pmkBrk c n), 32, 13⟩
def RF.pmkBrkMatchIndex (c n : Nat) : RF := ⟨(Reg.pmkBrk c n), 45, 1⟩
def RF.pmkBrkMatchOpcode (c n : Nat) : RF := ⟨(Reg.pmkBrk c n), 46, 1⟩
def RF.pmkBrkMatchStream (c n : Nat) : RF := ⟨(Reg.pmkBrk c n), 47, 1⟩
def RF.pmkBrkEnable (c n : Nat) : RF := ⟨(Reg.pmkBrk c n), 48, 1⟩
def RF.pmkBrkOnce (c n : Nat) : RF := ⟨(Reg.pmkBrk c n), 49, 1⟩
/-- SYN_OBJ_n, `spec/09_sync_objects.md`. -/
def Reg.synObj (n : Nat) : Nat := 0x200000 + 0x8 * n
def RF.synObjCount (n : Nat) : RF := ⟨(Reg.synObj n), 0, 32⟩
def RF.synObjState (n : Nat) : RF := ⟨(Reg.synObj n), 32, 2⟩
def RF.synObjScope (n : Nat) : RF := ⟨(Reg.synObj n), 34, 2⟩
def RF.synObjPartition (n : Nat) : RF := ⟨(Reg.synObj n), 36, 4⟩
def RF.synObjOwner (n : Nat) : RF := ⟨(Reg.synObj n), 40, 9⟩
def RF.synObjWaiters (n : Nat) : RF := ⟨(Reg.synObj n), 49, 15⟩
/-- SYN_INIT_m, `spec/09_sync_objects.md`. -/
def Reg.synInit (m : Nat) : Nat := 0x280000 + 0x8 * m
def RF.synInitInitLo (m : Nat) : RF := ⟨(Reg.synInit m), 0, 32⟩
def RF.synInitInitHi (m : Nat) : RF := ⟨(Reg.synInit m), 32, 32⟩
/-- SYN_MAN_ARG, `spec/09_sync_objects.md`. -/
def Reg.synManArg : Nat := 0x2C0000
def RF.synManArgCount : RF := ⟨Reg.synManArg, 0, 32⟩
def RF.synManArgState : RF := ⟨Reg.synManArg, 32, 2⟩
def RF.synManArgScope : RF := ⟨Reg.synManArg, 34, 2⟩
def RF.synManArgPartition : RF := ⟨Reg.synManArg, 36, 4⟩
def RF.synManArgOwner : RF := ⟨Reg.synManArg, 40, 9⟩
/-- SYN_MAN_OP, `spec/09_sync_objects.md`. -/
def Reg.synManOp : Nat := 0x2C0008
def RF.synManOpObject : RF := ⟨Reg.synManOp, 0, 16⟩
def RF.synManOpOp : RF := ⟨Reg.synManOp, 16, 3⟩
/-- SYN_MAN_STATUS, `spec/09_sync_objects.md`. -/
def Reg.synManStatus : Nat := 0x2C0010
def RF.synManStatusBusy : RF := ⟨Reg.synManStatus, 0, 1⟩
def RF.synManStatusCode : RF := ⟨Reg.synManStatus, 16, 16⟩
/-- SYN_WAITERS, `spec/09_sync_objects.md`. -/
def Reg.synWaiters : Nat := 0x2C0018
def RF.synWaitersUsed : RF := ⟨Reg.synWaiters, 0, 15⟩
def RF.synWaitersPeak : RF := ⟨Reg.synWaiters, 16, 15⟩
/-- SYN_CNT_n, `spec/09_sync_objects.md`. -/
def Reg.synCnt (n : Nat) : Nat := 0x2C0040 + 0x8 * n
def RF.synCntCount (n : Nat) : RF := ⟨(Reg.synCnt n), 0, 48⟩
def RF.synCntSat (n : Nat) : RF := ⟨(Reg.synCnt n), 63, 1⟩
/-- SYN_PART_RANGE_p, `spec/09_sync_objects.md`. -/
def Reg.synPartRange (p : Nat) : Nat := 0x2C0100 + 0x8 * p
def RF.synPartRangeFirst (p : Nat) : RF := ⟨(Reg.synPartRange p), 0, 16⟩
def RF.synPartRangeNumber (p : Nat) : RF := ⟨(Reg.synPartRange p), 16, 17⟩
/-- SYN_BAL_STATUS_p, `spec/09_sync_objects.md`. -/
def Reg.synBalStatus (p : Nat) : Nat := 0x2C0200 + 0x8 * p
def RF.synBalStatusViolations (p : Nat) : RF := ⟨(Reg.synBalStatus p), 0, 17⟩
def RF.synBalStatusDone (p : Nat) : RF := ⟨(Reg.synBalStatus p), 17, 1⟩
/-- SYN_HART_RING_h, `spec/09_sync_objects.md`. -/
def Reg.synHartRing (h : Nat) : Nat := 0x2D0000 + 0x100 * h
def RF.synHartRingRingBase (h : Nat) : RF := ⟨(Reg.synHartRing h), 0, 48⟩
def RF.synHartRingHead (h : Nat) : RF := ⟨(Reg.synHartRing h), 48, 8⟩
/-- SYN_HART_IRQ_h, `spec/09_sync_objects.md`. -/
def Reg.synHartIrq (h : Nat) : Nat := 0x2D0008 + 0x100 * h
def RF.synHartIrqEiid (h : Nat) : RF := ⟨(Reg.synHartIrq h), 0, 11⟩
def RF.synHartIrqIrqEn (h : Nat) : RF := ⟨(Reg.synHartIrq h), 11, 1⟩
def RF.synHartIrqPartition (h : Nat) : RF := ⟨(Reg.synHartIrq h), 12, 4⟩
def RF.synHartIrqLock (h : Nat) : RF := ⟨(Reg.synHartIrq h), 16, 1⟩
/-- SYN_HART_OP_h, `spec/09_sync_objects.md`. -/
def Reg.synHartOp (h : Nat) : Nat := 0x2D0010 + 0x100 * h
def RF.synHartOpObject (h : Nat) : RF := ⟨(Reg.synHartOp h), 0, 16⟩
def RF.synHartOpChip (h : Nat) : RF := ⟨(Reg.synHartOp h), 16, 16⟩
def RF.synHartOpOp (h : Nat) : RF := ⟨(Reg.synHartOp h), 32, 3⟩
def RF.synHartOpTimeout (h : Nat) : RF := ⟨(Reg.synHartOp h), 35, 4⟩
def RF.synHartOpCookie (h : Nat) : RF := ⟨(Reg.synHartOp h), 48, 16⟩
/-- SYN_HART_STATUS_h, `spec/09_sync_objects.md`. -/
def Reg.synHartStatus (h : Nat) : Nat := 0x2D0018 + 0x100 * h
def RF.synHartStatusOutstanding (h : Nat) : RF := ⟨(Reg.synHartStatus h), 0, 9⟩
def RF.synHartStatusTail (h : Nat) : RF := ⟨(Reg.synHartStatus h), 9, 8⟩
def RF.synHartStatusPhase (h : Nat) : RF := ⟨(Reg.synHartStatus h), 17, 1⟩
def RF.synHartStatusRejects (h : Nat) : RF := ⟨(Reg.synHartStatus h), 32, 32⟩
/-- MEM_T1_MAP_d, `spec/10_memory_tiers.md`. -/
def Reg.memT1Map (d : Nat) : Nat := 0x500000 + 0x8 * d
def RF.memT1MapInService (d : Nat) : RF := ⟨(Reg.memT1Map d), 0, 64⟩
/-- MEM_T1_PEND_d, `spec/10_memory_tiers.md`. -/
def Reg.memT1Pend (d : Nat) : Nat := 0x500040 + 0x8 * d
def RF.memT1PendPending (d : Nat) : RF := ⟨(Reg.memT1Pend d), 0, 64⟩
/-- MEM_T2_MAP_n, `spec/10_memory_tiers.md`. -/
def Reg.memT2Map (n : Nat) : Nat := 0x500080 + 0x8 * n
def RF.memT2MapInService (n : Nat) : RF := ⟨(Reg.memT2Map n), 0, 64⟩
/-- MEM_T2_PEND_n, `spec/10_memory_tiers.md`. -/
def Reg.memT2Pend (n : Nat) : Nat := 0x500090 + 0x8 * n
def RF.memT2PendPending (n : Nat) : RF := ⟨(Reg.memT2Pend n), 0, 64⟩
/-- MEM_T2_LIMIT, `spec/10_memory_tiers.md`. -/
def Reg.memT2Limit : Nat := 0x5000A0
def RF.memT2LimitLimit : RF := ⟨Reg.memT2Limit, 0, 48⟩
def RF.memT2LimitChannels : RF := ⟨Reg.memT2Limit, 48, 8⟩
/-- MEM_CAPACITY, `spec/10_memory_tiers.md`. -/
def Reg.memCapacity : Nat := 0x5000A8
def RF.memCapacityT1Gib : RF := ⟨Reg.memCapacity, 0, 11⟩
def RF.memCapacityT2Gib : RF := ⟨Reg.memCapacity, 11, 11⟩
def RF.memCapacityT3Units : RF := ⟨Reg.memCapacity, 22, 11⟩
def RF.memCapacityT3Free : RF := ⟨Reg.memCapacity, 33, 11⟩
def RF.memCapacityT3Degraded : RF := ⟨Reg.memCapacity, 44, 1⟩
/-- MEM_REGION_ARG, `spec/10_memory_tiers.md`. -/
def Reg.memRegionArg : Nat := 0x500100
def RF.memRegionArgTier : RF := ⟨Reg.memRegionArg, 0, 1⟩
def RF.memRegionArgBase : RF := ⟨Reg.memRegionArg, 1, 11⟩
def RF.memRegionArgCount : RF := ⟨Reg.memRegionArg, 12, 11⟩
def RF.memRegionArgPartition : RF := ⟨Reg.memRegionArg, 23, 4⟩
def RF.memRegionArgType : RF := ⟨Reg.memRegionArg, 27, 3⟩
def RF.memRegionArgRemote : RF := ⟨Reg.memRegionArg, 30, 1⟩
/-- MEM_REGION_OP, `spec/10_memory_tiers.md`. -/
def Reg.memRegionOp : Nat := 0x500108
def RF.memRegionOpRegion : RF := ⟨Reg.memRegionOp, 0, 8⟩
def RF.memRegionOpOp : RF := ⟨Reg.memRegionOp, 8, 3⟩
/-- MEM_REGION_STATUS, `spec/10_memory_tiers.md`. -/
def Reg.memRegionStatus : Nat := 0x500110
def RF.memRegionStatusBusy : RF := ⟨Reg.memRegionStatus, 0, 1⟩
def RF.memRegionStatusCode : RF := ⟨Reg.memRegionStatus, 16, 16⟩
/-- MEM_REGION_n, `spec/10_memory_tiers.md`. -/
def Reg.memRegion (n : Nat) : Nat := 0x501000 + 0x8 * n
def RF.memRegionTier (n : Nat) : RF := ⟨(Reg.memRegion n), 0, 1⟩
def RF.memRegionBase (n : Nat) : RF := ⟨(Reg.memRegion n), 1, 11⟩
def RF.memRegionCount (n : Nat) : RF := ⟨(Reg.memRegion n), 12, 11⟩
def RF.memRegionPartition (n : Nat) : RF := ⟨(Reg.memRegion n), 23, 4⟩
def RF.memRegionType (n : Nat) : RF := ⟨(Reg.memRegion n), 27, 3⟩
def RF.memRegionRemote (n : Nat) : RF := ⟨(Reg.memRegion n), 30, 1⟩
def RF.memRegionValid (n : Nat) : RF := ⟨(Reg.memRegion n), 31, 1⟩
def RF.memRegionSealed (n : Nat) : RF := ⟨(Reg.memRegion n), 32, 1⟩
/-- MEM_QUOTA_p, `spec/10_memory_tiers.md`. -/
def Reg.memQuota (p : Nat) : Nat := 0x500200 + 0x8 * p
def RF.memQuotaT1 (p : Nat) : RF := ⟨(Reg.memQuota p), 0, 11⟩
def RF.memQuotaT2 (p : Nat) : RF := ⟨(Reg.memQuota p), 11, 11⟩
def RF.memQuotaT3 (p : Nat) : RF := ⟨(Reg.memQuota p), 22, 11⟩
def RF.memQuotaLock (p : Nat) : RF := ⟨(Reg.memQuota p), 63, 1⟩
/-- MEM_USE_p, `spec/10_memory_tiers.md`. -/
def Reg.memUse (p : Nat) : Nat := 0x500280 + 0x8 * p
def RF.memUseT1 (p : Nat) : RF := ⟨(Reg.memUse p), 0, 11⟩
def RF.memUseT2 (p : Nat) : RF := ⟨(Reg.memUse p), 11, 11⟩
def RF.memUseT3 (p : Nat) : RF := ⟨(Reg.memUse p), 22, 11⟩
/-- MEM_CNT_n, `spec/10_memory_tiers.md`. -/
def Reg.memCnt (n : Nat) : Nat := 0x500300 + 0x8 * n
def RF.memCntCount (n : Nat) : RF := ⟨(Reg.memCnt n), 0, 48⟩
def RF.memCntSat (n : Nat) : RF := ⟨(Reg.memCnt n), 63, 1⟩
/-- GTH_CNT_n, `spec/10_memory_tiers.md`. -/
def Reg.gthCnt (n : Nat) : Nat := 0x600000 + 0x8 * n
def RF.gthCntCount (n : Nat) : RF := ⟨(Reg.gthCnt n), 0, 48⟩
def RF.gthCntSat (n : Nat) : RF := ⟨(Reg.gthCnt n), 63, 1⟩
/-- DMA_MODE, `spec/11_caddie_and_dma.md`. -/
def Reg.dmaMode : Nat := 0x300000
def RF.dmaModeReadback : RF := ⟨Reg.dmaMode, 0, 1⟩
/-- CAD_CNT_n, `spec/11_caddie_and_dma.md`. -/
def Reg.cadCnt (n : Nat) : Nat := 0x400000 + 0x8 * n
def RF.cadCntCount (n : Nat) : RF := ⟨(Reg.cadCnt n), 0, 48⟩
def RF.cadCntSat (n : Nat) : RF := ⟨(Reg.cadCnt n), 63, 1⟩
/-- CAD_FEED_CTRL, `spec/11_caddie_and_dma.md`. -/
def Reg.cadFeedCtrl (n : Nat) : Nat := 0x401000 + 0x40 * n
def RF.cadFeedCtrlEnable (n : Nat) : RF := ⟨(Reg.cadFeedCtrl n), 0, 1⟩
def RF.cadFeedCtrlLock (n : Nat) : RF := ⟨(Reg.cadFeedCtrl n), 1, 1⟩
def RF.cadFeedCtrlPause (n : Nat) : RF := ⟨(Reg.cadFeedCtrl n), 2, 1⟩
def RF.cadFeedCtrlPartition (n : Nat) : RF := ⟨(Reg.cadFeedCtrl n), 3, 4⟩
def RF.cadFeedCtrlState (n : Nat) : RF := ⟨(Reg.cadFeedCtrl n), 7, 2⟩
/-- CAD_FEED_TABLE, `spec/11_caddie_and_dma.md`. -/
def Reg.cadFeedTable (n : Nat) : Nat := 0x401008 + 0x40 * n
def RF.cadFeedTableBase (n : Nat) : RF := ⟨(Reg.cadFeedTable n), 0, 48⟩
def RF.cadFeedTableNlayers (n : Nat) : RF := ⟨(Reg.cadFeedTable n), 48, 16⟩
/-- CAD_FEED_SHAPE, `spec/11_caddie_and_dma.md`. -/
def Reg.cadFeedShape (n : Nat) : Nat := 0x401010 + 0x40 * n
def RF.cadFeedShapeW (n : Nat) : RF := ⟨(Reg.cadFeedShape n), 0, 5⟩
def RF.cadFeedShapeSlotStride (n : Nat) : RF := ⟨(Reg.cadFeedShape n), 8, 24⟩
def RF.cadFeedShapeNextFetch (n : Nat) : RF := ⟨(Reg.cadFeedShape n), 32, 32⟩
/-- CAD_FEED_POS, `spec/11_caddie_and_dma.md`. -/
def Reg.cadFeedPos (n : Nat) : Nat := 0x401018 + 0x40 * n
def RF.cadFeedPosFirst (n : Nat) : RF := ⟨(Reg.cadFeedPos n), 0, 32⟩
def RF.cadFeedPosMinReleased (n : Nat) : RF := ⟨(Reg.cadFeedPos n), 32, 32⟩
/-- CAD_FEED_CORES_k, `spec/11_caddie_and_dma.md`. -/
def Reg.cadFeedCores (n k : Nat) : Nat := 0x401020 + 0x40 * n + 0x8 * k
def RF.cadFeedCoresConsumer (n k : Nat) : RF := ⟨(Reg.cadFeedCores n k), 0, 64⟩
/-- CAD_P_CTRL, `spec/11_caddie_and_dma.md`. -/
def Reg.cadPCtrl (p : Nat) : Nat := 0x402000 + 0x20 * p
def RF.cadPCtrlDeadlineMs (p : Nat) : RF := ⟨(Reg.cadPCtrl p), 0, 16⟩
def RF.cadPCtrlAltCount (p : Nat) : RF := ⟨(Reg.cadPCtrl p), 16, 8⟩
def RF.cadPCtrlLock (p : Nat) : RF := ⟨(Reg.cadPCtrl p), 24, 1⟩
/-- CAD_P_ALT, `spec/11_caddie_and_dma.md`. -/
def Reg.cadPAlt (p : Nat) : Nat := 0x402008 + 0x20 * p
def RF.cadPAltBase (p : Nat) : RF := ⟨(Reg.cadPAlt p), 0, 48⟩
/-- CAD_P_SUPPLY, `spec/11_caddie_and_dma.md`. -/
def Reg.cadPSupply (p : Nat) : Nat := 0x402010 + 0x20 * p
def RF.cadPSupplyBase (p : Nat) : RF := ⟨(Reg.cadPSupply p), 0, 48⟩
def RF.cadPSupplyGo (p : Nat) : RF := ⟨(Reg.cadPSupply p), 48, 1⟩
def RF.cadPSupplyDecline (p : Nat) : RF := ⟨(Reg.cadPSupply p), 49, 1⟩
def RF.cadPSupplyRequest (p : Nat) : RF := ⟨(Reg.cadPSupply p), 50, 1⟩
/-- HIF_QTABLE, `spec/12_host_interface_and_jobs.md`. -/
def Reg.hifQtable : Nat := 0x700000
def RF.hifQtableBase : RF := ⟨Reg.hifQtable, 0, 48⟩
/-- HIF_STABLE, `spec/12_host_interface_and_jobs.md`. -/
def Reg.hifStable : Nat := 0x700008
def RF.hifStableBase : RF := ⟨Reg.hifStable, 0, 48⟩
/-- HIF_Q_OP, `spec/12_host_interface_and_jobs.md`. -/
def Reg.hifQOp : Nat := 0x700010
def RF.hifQOpIndex : RF := ⟨Reg.hifQOp, 0, 15⟩
def RF.hifQOpStream : RF := ⟨Reg.hifQOp, 15, 1⟩
def RF.hifQOpOp : RF := ⟨Reg.hifQOp, 16, 3⟩
/-- HIF_Q_STATUS, `spec/12_host_interface_and_jobs.md`. -/
def Reg.hifQStatus : Nat := 0x700018
def RF.hifQStatusBusy : RF := ⟨Reg.hifQStatus, 0, 1⟩
def RF.hifQStatusCode : RF := ⟨Reg.hifQStatus, 16, 16⟩
/-- HIF_HART_PART_n, `spec/12_host_interface_and_jobs.md`. -/
def Reg.hifHartPart (n : Nat) : Nat := 0x700100 + 0x8 * n
def RF.hifHartPartPartition0 (n : Nat) : RF := ⟨(Reg.hifHartPart n), 0, 4⟩
def RF.hifHartPartValid0 (n : Nat) : RF := ⟨(Reg.hifHartPart n), 7, 1⟩
def RF.hifHartPartPartition1 (n : Nat) : RF := ⟨(Reg.hifHartPart n), 8, 4⟩
def RF.hifHartPartValid1 (n : Nat) : RF := ⟨(Reg.hifHartPart n), 15, 1⟩
def RF.hifHartPartPartition2 (n : Nat) : RF := ⟨(Reg.hifHartPart n), 16, 4⟩
def RF.hifHartPartValid2 (n : Nat) : RF := ⟨(Reg.hifHartPart n), 23, 1⟩
def RF.hifHartPartPartition3 (n : Nat) : RF := ⟨(Reg.hifHartPart n), 24, 4⟩
def RF.hifHartPartValid3 (n : Nat) : RF := ⟨(Reg.hifHartPart n), 31, 1⟩
def RF.hifHartPartPartition4 (n : Nat) : RF := ⟨(Reg.hifHartPart n), 32, 4⟩
def RF.hifHartPartValid4 (n : Nat) : RF := ⟨(Reg.hifHartPart n), 39, 1⟩
def RF.hifHartPartPartition5 (n : Nat) : RF := ⟨(Reg.hifHartPart n), 40, 4⟩
def RF.hifHartPartValid5 (n : Nat) : RF := ⟨(Reg.hifHartPart n), 47, 1⟩
def RF.hifHartPartPartition6 (n : Nat) : RF := ⟨(Reg.hifHartPart n), 48, 4⟩
def RF.hifHartPartValid6 (n : Nat) : RF := ⟨(Reg.hifHartPart n), 55, 1⟩
def RF.hifHartPartPartition7 (n : Nat) : RF := ⟨(Reg.hifHartPart n), 56, 4⟩
def RF.hifHartPartValid7 (n : Nat) : RF := ⟨(Reg.hifHartPart n), 63, 1⟩
/-- HIF_CNT_n, `spec/12_host_interface_and_jobs.md`. -/
def Reg.hifCnt (n : Nat) : Nat := 0x700200 + 0x8 * n
def RF.hifCntCount (n : Nat) : RF := ⟨(Reg.hifCnt n), 0, 48⟩
def RF.hifCntSat (n : Nat) : RF := ⟨(Reg.hifCnt n), 63, 1⟩
/-- HIF_WIN_e, `spec/12_host_interface_and_jobs.md`. -/
def Reg.hifWin (e : Nat) : Nat := 0x701000 + 0x8 * e
def RF.hifWinTarget (e : Nat) : RF := ⟨(Reg.hifWin e), 0, 18⟩
def RF.hifWinPartition (e : Nat) : RF := ⟨(Reg.hifWin e), 18, 4⟩
def RF.hifWinHint (e : Nat) : RF := ⟨(Reg.hifWin e), 22, 2⟩
def RF.hifWinValid (e : Nat) : RF := ⟨(Reg.hifWin e), 24, 1⟩
/-- HIF_PART_OP, `spec/12_host_interface_and_jobs.md`. -/
def Reg.hifPartOp (p : Nat) : Nat := 0x702000 + 0x100 * p
def RF.hifPartOpOp (p : Nat) : RF := ⟨(Reg.hifPartOp p), 0, 4⟩
/-- HIF_PART_STATUS, `spec/12_host_interface_and_jobs.md`. -/
def Reg.hifPartStatus (p : Nat) : Nat := 0x702008 + 0x100 * p
def RF.hifPartStatusState (p : Nat) : RF := ⟨(Reg.hifPartStatus p), 0, 3⟩
def RF.hifPartStatusBusy (p : Nat) : RF := ⟨(Reg.hifPartStatus p), 3, 1⟩
def RF.hifPartStatusCode (p : Nat) : RF := ⟨(Reg.hifPartStatus p), 4, 16⟩
def RF.hifPartStatusStopCause (p : Nat) : RF := ⟨(Reg.hifPartStatus p), 20, 16⟩
def RF.hifPartStatusRestarts (p : Nat) : RF := ⟨(Reg.hifPartStatus p), 36, 8⟩
/-- HIF_PART_RANGE, `spec/12_host_interface_and_jobs.md`. -/
def Reg.hifPartRange (p : Nat) : Nat := 0x702010 + 0x100 * p
def RF.hifPartRangeQfirst (p : Nat) : RF := ⟨(Reg.hifPartRange p), 0, 15⟩
def RF.hifPartRangeQcount (p : Nat) : RF := ⟨(Reg.hifPartRange p), 15, 16⟩
def RF.hifPartRangeSfirst (p : Nat) : RF := ⟨(Reg.hifPartRange p), 31, 13⟩
def RF.hifPartRangeScount (p : Nat) : RF := ⟨(Reg.hifPartRange p), 44, 14⟩
/-- HIF_PART_MISC, `spec/12_host_interface_and_jobs.md`. -/
def Reg.hifPartMisc (p : Nat) : Nat := 0x702018 + 0x100 * p
def RF.hifPartMiscSeqfirst (p : Nat) : RF := ⟨(Reg.hifPartMisc p), 0, 8⟩
def RF.hifPartMiscSeqcount (p : Nat) : RF := ⟨(Reg.hifPartMisc p), 8, 9⟩
def RF.hifPartMiscWbase (p : Nat) : RF := ⟨(Reg.hifPartMisc p), 17, 7⟩
def RF.hifPartMiscAutoRestart (p : Nat) : RF := ⟨(Reg.hifPartMisc p), 24, 1⟩
def RF.hifPartMiscRestartLimit (p : Nat) : RF := ⟨(Reg.hifPartMisc p), 25, 8⟩
def RF.hifPartMiscRemoteCore (p : Nat) : RF := ⟨(Reg.hifPartMisc p), 33, 1⟩
def RF.hifPartMiscLock (p : Nat) : RF := ⟨(Reg.hifPartMisc p), 63, 1⟩
/-- HIF_PART_EVRING, `spec/12_host_interface_and_jobs.md`. -/
def Reg.hifPartEvring (p : Nat) : Nat := 0x702020 + 0x100 * p
def RF.hifPartEvringBase (p : Nat) : RF := ⟨(Reg.hifPartEvring p), 0, 48⟩
def RF.hifPartEvringHost (p : Nat) : RF := ⟨(Reg.hifPartEvring p), 48, 1⟩
def RF.hifPartEvringL (p : Nat) : RF := ⟨(Reg.hifPartEvring p), 49, 5⟩
def RF.hifPartEvringEnable (p : Nat) : RF := ⟨(Reg.hifPartEvring p), 54, 1⟩
/-- HIF_PART_EVCTRL, `spec/12_host_interface_and_jobs.md`. -/
def Reg.hifPartEvctrl (p : Nat) : Nat := 0x702028 + 0x100 * p
def RF.hifPartEvctrlVector (p : Nat) : RF := ⟨(Reg.hifPartEvctrl p), 0, 11⟩
def RF.hifPartEvctrlIrqEn (p : Nat) : RF := ⟨(Reg.hifPartEvctrl p), 11, 1⟩
def RF.hifPartEvctrlMinSev (p : Nat) : RF := ⟨(Reg.hifPartEvctrl p), 12, 3⟩
def RF.hifPartEvctrlHoldoff (p : Nat) : RF := ⟨(Reg.hifPartEvctrl p), 15, 8⟩
def RF.hifPartEvctrlPasid (p : Nat) : RF := ⟨(Reg.hifPartEvctrl p), 23, 20⟩
def RF.hifPartEvctrlPasidEn (p : Nat) : RF := ⟨(Reg.hifPartEvctrl p), 43, 1⟩
/-- HIF_PART_EVPOS, `spec/12_host_interface_and_jobs.md`. -/
def Reg.hifPartEvpos (p : Nat) : Nat := 0x702030 + 0x100 * p
def RF.hifPartEvposTail (p : Nat) : RF := ⟨(Reg.hifPartEvpos p), 0, 32⟩
def RF.hifPartEvposHead (p : Nat) : RF := ⟨(Reg.hifPartEvpos p), 32, 32⟩
/-- HIF_PART_JOB, `spec/12_host_interface_and_jobs.md`. -/
def Reg.hifPartJob (p : Nat) : Nat := 0x702038 + 0x100 * p
def RF.hifPartJobObjectId (p : Nat) : RF := ⟨(Reg.hifPartJob p), 0, 32⟩
def RF.hifPartJobRestore (p : Nat) : RF := ⟨(Reg.hifPartJob p), 32, 1⟩
/-- HIF_PART_JOB_CPA, `spec/12_host_interface_and_jobs.md`. -/
def Reg.hifPartJobCpa (p : Nat) : Nat := 0x702040 + 0x100 * p
def RF.hifPartJobCpaJobCpa (p : Nat) : RF := ⟨(Reg.hifPartJobCpa p), 0, 48⟩
/-- HIF_PART_SUSPEND, `spec/12_host_interface_and_jobs.md`. -/
def Reg.hifPartSuspend (p : Nat) : Nat := 0x702048 + 0x100 * p
def RF.hifPartSuspendStep (p : Nat) : RF := ⟨(Reg.hifPartSuspend p), 0, 32⟩
/-- HIF_SEQ_s, `spec/12_host_interface_and_jobs.md`. -/
def Reg.hifSeq (s : Nat) : Nat := 0x704000 + 0x8 * s
def RF.hifSeqCount (s : Nat) : RF := ⟨(Reg.hifSeq s), 0, 16⟩
def RF.hifSeqRunning (s : Nat) : RF := ⟨(Reg.hifSeq s), 16, 1⟩
def RF.hifSeqHeld (s : Nat) : RF := ⟨(Reg.hifSeq s), 17, 12⟩
/-- HIF_DOOR_q, `spec/12_host_interface_and_jobs.md`. -/
def Reg.hifDoor (q : Nat) : Nat := 0x780000 + 0x8 * q
def RF.hifDoorValue (q : Nat) : RF := ⟨(Reg.hifDoor q), 0, 32⟩
/-- HIF_SHEAD_s, `spec/12_host_interface_and_jobs.md`. -/
def Reg.hifShead (s : Nat) : Nat := 0x7C0000 + 0x8 * s
def RF.hifSheadValue (s : Nat) : RF := ⟨(Reg.hifShead s), 0, 32⟩
/-- LNK_IDENT, `spec/13_ergal_links.md`. -/
def Reg.lnkIdent : Nat := 0x800000
def RF.lnkIdentChipId : RF := ⟨Reg.lnkIdent, 0, 16⟩
def RF.lnkIdentPodId : RF := ⟨Reg.lnkIdent, 16, 16⟩
def RF.lnkIdentOctet : RF := ⟨Reg.lnkIdent, 32, 3⟩
def RF.lnkIdentPosition : RF := ⟨Reg.lnkIdent, 35, 3⟩
def RF.lnkIdentLock : RF := ⟨Reg.lnkIdent, 63, 1⟩
/-- LNK_ROLE, `spec/13_ergal_links.md`. -/
def Reg.lnkRole : Nat := 0x800008
def RF.lnkRoleRole : RF := ⟨Reg.lnkRole, 0, 2⟩
def RF.lnkRoleEnable : RF := ⟨Reg.lnkRole, 2, 1⟩
def RF.lnkRoleTimeSrc : RF := ⟨Reg.lnkRole, 3, 2⟩
def RF.lnkRoleParent : RF := ⟨Reg.lnkRole, 16, 16⟩
def RF.lnkRoleStandby : RF := ⟨Reg.lnkRole, 32, 16⟩
/-- LNK_VIEW, `spec/13_ergal_links.md`. -/
def Reg.lnkView : Nat := 0x800010
def RF.lnkViewViewId : RF := ⟨Reg.lnkView, 0, 32⟩
def RF.lnkViewMembers : RF := ⟨Reg.lnkView, 32, 7⟩
def RF.lnkViewManagerPresent : RF := ⟨Reg.lnkView, 39, 1⟩
def RF.lnkViewTimeAligned : RF := ⟨Reg.lnkView, 40, 1⟩
def RF.lnkViewManager : RF := ⟨Reg.lnkView, 48, 16⟩
/-- LNK_VIEW_BASE, `spec/13_ergal_links.md`. -/
def Reg.lnkViewBase : Nat := 0x800018
def RF.lnkViewBaseBase : RF := ⟨Reg.lnkViewBase, 0, 48⟩
/-- LNK_GROUPS, `spec/13_ergal_links.md`. -/
def Reg.lnkGroups : Nat := 0x800020
def RF.lnkGroupsBase : RF := ⟨Reg.lnkGroups, 0, 48⟩
def RF.lnkGroupsNgroups : RF := ⟨Reg.lnkGroups, 48, 9⟩
/-- LNK_CFG, `spec/13_ergal_links.md`. -/
def Reg.lnkCfg : Nat := 0x800028
def RF.lnkCfgReqTimeoutMs : RF := ⟨Reg.lnkCfg, 0, 16⟩
/-- LNK_TIME_ADJ, `spec/13_ergal_links.md`. -/
def Reg.lnkTimeAdj : Nat := 0x800030
def RF.lnkTimeAdjOffset : RF := ⟨Reg.lnkTimeAdj, 0, 64⟩
/-- LNK_CNT_n, `spec/13_ergal_links.md`. -/
def Reg.lnkCnt (n : Nat) : Nat := 0x800040 + 0x8 * n
def RF.lnkCntCount (n : Nat) : RF := ⟨(Reg.lnkCnt n), 0, 48⟩
def RF.lnkCntSat (n : Nat) : RF := ⟨(Reg.lnkCnt n), 63, 1⟩
/-- LNK_PORT_CTRL_n, `spec/13_ergal_links.md`. -/
def Reg.lnkPortCtrl (n : Nat) : Nat := 0x800100 + 0x40 * n
def RF.lnkPortCtrlEnable (n : Nat) : RF := ⟨(Reg.lnkPortCtrl n), 0, 1⟩
def RF.lnkPortCtrlMode (n : Nat) : RF := ⟨(Reg.lnkPortCtrl n), 1, 1⟩
def RF.lnkPortCtrlPartition (n : Nat) : RF := ⟨(Reg.lnkPortCtrl n), 2, 4⟩
def RF.lnkPortCtrlReplayWarn (n : Nat) : RF := ⟨(Reg.lnkPortCtrl n), 16, 16⟩
/-- LNK_PORT_STATUS_n, `spec/13_ergal_links.md`. -/
def Reg.lnkPortStatus (n : Nat) : Nat := 0x800108 + 0x40 * n
def RF.lnkPortStatusState (n : Nat) : RF := ⟨(Reg.lnkPortStatus n), 0, 3⟩
def RF.lnkPortStatusLanes (n : Nat) : RF := ⟨(Reg.lnkPortStatus n), 3, 4⟩
def RF.lnkPortStatusClaimed (n : Nat) : RF := ⟨(Reg.lnkPortStatus n), 7, 1⟩
def RF.lnkPortStatusPeerChip (n : Nat) : RF := ⟨(Reg.lnkPortStatus n), 16, 16⟩
def RF.lnkPortStatusPeerPort (n : Nat) : RF := ⟨(Reg.lnkPortStatus n), 32, 5⟩
def RF.lnkPortStatusPeerPosition (n : Nat) : RF := ⟨(Reg.lnkPortStatus n), 37, 3⟩
/-- LNK_PORT_CNT_n_m, `spec/13_ergal_links.md`. -/
def Reg.lnkPortCnt (n m : Nat) : Nat := 0x800110 + 0x40 * n + 0x8 * m
def RF.lnkPortCntCount (n m : Nat) : RF := ⟨(Reg.lnkPortCnt n m), 0, 48⟩
def RF.lnkPortCntSat (n m : Nat) : RF := ⟨(Reg.lnkPortCnt n m), 63, 1⟩
/-- LNK_ETH_RING_A, `spec/13_ergal_links.md`. -/
def Reg.lnkEthRingA (n r : Nat) : Nat := 0x820000 + 0x400 * n + 0x20 * r
def RF.lnkEthRingABase (n r : Nat) : RF := ⟨(Reg.lnkEthRingA n r), 0, 48⟩
def RF.lnkEthRingAL (n r : Nat) : RF := ⟨(Reg.lnkEthRingA n r), 48, 4⟩
/-- LNK_ETH_RING_B, `spec/13_ergal_links.md`. -/
def Reg.lnkEthRingB (n r : Nat) : Nat := 0x820008 + 0x400 * n + 0x20 * r
def RF.lnkEthRingBTail (n r : Nat) : RF := ⟨(Reg.lnkEthRingB n r), 0, 32⟩
def RF.lnkEthRingBHead (n r : Nat) : RF := ⟨(Reg.lnkEthRingB n r), 32, 32⟩
/-- LNK_ETH_RING_C, `spec/13_ergal_links.md`. -/
def Reg.lnkEthRingC (n r : Nat) : Nat := 0x820010 + 0x400 * n + 0x20 * r
def RF.lnkEthRingCEiid (n r : Nat) : RF := ⟨(Reg.lnkEthRingC n r), 0, 11⟩
def RF.lnkEthRingCHart (n r : Nat) : RF := ⟨(Reg.lnkEthRingC n r), 11, 5⟩
def RF.lnkEthRingCIrqEn (n r : Nat) : RF := ⟨(Reg.lnkEthRingC n r), 16, 1⟩
/-- LNK_ETH_RSSKEY_n_k, `spec/13_ergal_links.md`. -/
def Reg.lnkEthRsskey (n k : Nat) : Nat := 0x820300 + 0x400 * n + 0x8 * k
def RF.lnkEthRsskeyKey (n k : Nat) : RF := ⟨(Reg.lnkEthRsskey n k), 0, 64⟩
/-- LNK_ETH_INDIR_n_k, `spec/13_ergal_links.md`. -/
def Reg.lnkEthIndir (n k : Nat) : Nat := 0x820328 + 0x400 * n + 0x8 * k
def RF.lnkEthIndirRing0 (n k : Nat) : RF := ⟨(Reg.lnkEthIndir n k), 0, 3⟩
def RF.lnkEthIndirRing1 (n k : Nat) : RF := ⟨(Reg.lnkEthIndir n k), 4, 3⟩
def RF.lnkEthIndirRing2 (n k : Nat) : RF := ⟨(Reg.lnkEthIndir n k), 8, 3⟩
def RF.lnkEthIndirRing3 (n k : Nat) : RF := ⟨(Reg.lnkEthIndir n k), 12, 3⟩
def RF.lnkEthIndirRing4 (n k : Nat) : RF := ⟨(Reg.lnkEthIndir n k), 16, 3⟩
def RF.lnkEthIndirRing5 (n k : Nat) : RF := ⟨(Reg.lnkEthIndir n k), 20, 3⟩
def RF.lnkEthIndirRing6 (n k : Nat) : RF := ⟨(Reg.lnkEthIndir n k), 24, 3⟩
def RF.lnkEthIndirRing7 (n k : Nat) : RF := ⟨(Reg.lnkEthIndir n k), 28, 3⟩
def RF.lnkEthIndirRing8 (n k : Nat) : RF := ⟨(Reg.lnkEthIndir n k), 32, 3⟩
def RF.lnkEthIndirRing9 (n k : Nat) : RF := ⟨(Reg.lnkEthIndir n k), 36, 3⟩
def RF.lnkEthIndirRing10 (n k : Nat) : RF := ⟨(Reg.lnkEthIndir n k), 40, 3⟩
def RF.lnkEthIndirRing11 (n k : Nat) : RF := ⟨(Reg.lnkEthIndir n k), 44, 3⟩
def RF.lnkEthIndirRing12 (n k : Nat) : RF := ⟨(Reg.lnkEthIndir n k), 48, 3⟩
def RF.lnkEthIndirRing13 (n k : Nat) : RF := ⟨(Reg.lnkEthIndir n k), 52, 3⟩
def RF.lnkEthIndirRing14 (n k : Nat) : RF := ⟨(Reg.lnkEthIndir n k), 56, 3⟩
def RF.lnkEthIndirRing15 (n k : Nat) : RF := ⟨(Reg.lnkEthIndir n k), 60, 3⟩
/-- LNK_ROUTE_n, `spec/13_ergal_links.md`. -/
def Reg.lnkRoute (n : Nat) : Nat := 0x880000 + 0x8 * n
def RF.lnkRoutePorts (n : Nat) : RF := ⟨(Reg.lnkRoute n), 0, 18⟩
def RF.lnkRouteAuto (n : Nat) : RF := ⟨(Reg.lnkRoute n), 62, 1⟩
def RF.lnkRouteValid (n : Nat) : RF := ⟨(Reg.lnkRoute n), 63, 1⟩
/-- RED_CFG, `spec/13_ergal_links.md`. -/
def Reg.redCfg : Nat := 0x900000
def RF.redCfgTimeoutMs : RF := ⟨Reg.redCfg, 0, 32⟩
/-- RED_CNT_n, `spec/13_ergal_links.md`. -/
def Reg.redCnt (n : Nat) : Nat := 0x900008 + 0x8 * n
def RF.redCntCount (n : Nat) : RF := ⟨(Reg.redCnt n), 0, 48⟩
def RF.redCntSat (n : Nat) : RF := ⟨(Reg.redCnt n), 63, 1⟩
/-- RED_P_GROUP_p, `spec/13_ergal_links.md`. -/
def Reg.redPGroup (p : Nat) : Nat := 0x901000 + 0x40 * p
def RF.redPGroupGroupId (p : Nat) : RF := ⟨(Reg.redPGroup p), 0, 32⟩
def RF.redPGroupBound (p : Nat) : RF := ⟨(Reg.redPGroup p), 32, 1⟩
def RF.redPGroupComplete (p : Nat) : RF := ⟨(Reg.redPGroup p), 33, 1⟩
def RF.redPGroupStopped (p : Nat) : RF := ⟨(Reg.redPGroup p), 34, 1⟩
def RF.redPGroupRestart (p : Nat) : RF := ⟨(Reg.redPGroup p), 35, 1⟩
def RF.redPGroupMembers (p : Nat) : RF := ⟨(Reg.redPGroup p), 36, 12⟩
def RF.redPGroupGview (p : Nat) : RF := ⟨(Reg.redPGroup p), 48, 16⟩
/-- REF_SERIAL, `spec/14_referee.md`. -/
def Reg.refSerial : Nat := 0xA00000
def RF.refSerialSerial : RF := ⟨Reg.refSerial, 0, 64⟩
/-- REF_READY, `spec/14_referee.md`. -/
def Reg.refReady : Nat := 0xA00008
def RF.refReadyReady : RF := ⟨Reg.refReady, 0, 1⟩
def RF.refReadyDugout : RF := ⟨Reg.refReady, 1, 1⟩
def RF.refReadyRecovery : RF := ⟨Reg.refReady, 2, 1⟩
def RF.refReadyBooting : RF := ⟨Reg.refReady, 3, 1⟩
def RF.refReadyPhase : RF := ⟨Reg.refReady, 4, 3⟩
def RF.refReadyDegraded : RF := ⟨Reg.refReady, 7, 1⟩
def RF.refReadyFlagged : RF := ⟨Reg.refReady, 8, 1⟩
def RF.refReadyElapsedMs : RF := ⟨Reg.refReady, 32, 32⟩
/-- REF_DUGOUT, `spec/14_referee.md`. -/
def Reg.refDugout : Nat := 0xA00010
def RF.refDugoutCode : RF := ⟨Reg.refDugout, 0, 16⟩
def RF.refDugoutCause : RF := ⟨Reg.refDugout, 16, 8⟩
def RF.refDugoutDetail : RF := ⟨Reg.refDugout, 24, 8⟩
def RF.refDugoutUnit : RF := ⟨Reg.refDugout, 32, 16⟩
/-- REF_FW, `spec/14_referee.md`. -/
def Reg.refFw : Nat := 0xA00018
def RF.refFwSvn : RF := ⟨Reg.refFw, 0, 8⟩
def RF.refFwFusedSvn : RF := ⟨Reg.refFw, 8, 7⟩
def RF.refFwSlot : RF := ⟨Reg.refFw, 16, 8⟩
def RF.refFwRevoked : RF := ⟨Reg.refFw, 24, 4⟩
def RF.refFwProvisioned : RF := ⟨Reg.refFw, 28, 4⟩
def RF.refFwDbgOff : RF := ⟨Reg.refFw, 32, 8⟩
/-- REF_CTRL, `spec/14_referee.md`. -/
def Reg.refCtrl : Nat := 0xA00020
def RF.refCtrlPerstFull : RF := ⟨Reg.refCtrl, 0, 1⟩
def RF.refCtrlFullReset : RF := ⟨Reg.refCtrl, 1, 1⟩
def RF.refCtrlRailsOff : RF := ⟨Reg.refCtrl, 2, 1⟩
def RF.refCtrlKey : RF := ⟨Reg.refCtrl, 8, 8⟩
/-- REF_WEDGED, `spec/14_referee.md`. -/
def Reg.refWedged : Nat := 0xA00028
def RF.refWedgedBlocks : RF := ⟨Reg.refWedged, 0, 16⟩
def RF.refWedgedCoreSlots : RF := ⟨Reg.refWedged, 16, 1⟩
/-- REF_CNT_n, `spec/14_referee.md`. -/
def Reg.refCnt (n : Nat) : Nat := 0xA00040 + 0x8 * n
def RF.refCntCount (n : Nat) : RF := ⟨(Reg.refCnt n), 0, 48⟩
def RF.refCntSat (n : Nat) : RF := ⟨(Reg.refCnt n), 63, 1⟩
/-- REF_FUSE_MAP_n, `spec/14_referee.md`. -/
def Reg.refFuseMap (n : Nat) : Nat := 0xA01000 + 0x8 * n
def RF.refFuseMapBits (n : Nat) : RF := ⟨(Reg.refFuseMap n), 0, 64⟩
/-- REF_FUSE_BIND_n, `spec/14_referee.md`. -/
def Reg.refFuseBind (n : Nat) : Nat := 0xA01020 + 0x8 * n
def RF.refFuseBindBits (n : Nat) : RF := ⟨(Reg.refFuseBind n), 0, 64⟩
/-- REF_FUSE_HASH_k_w, `spec/14_referee.md`. -/
def Reg.refFuseHash (k w : Nat) : Nat := 0xA01100 + 0x20 * k + 0x8 * w
def RF.refFuseHashHash (k w : Nat) : RF := ⟨(Reg.refFuseHash k w), 0, 64⟩
/-- REF_FUSE_VMIN_n, `spec/14_referee.md`. -/
def Reg.refFuseVmin (n : Nat) : Nat := 0xA01200 + 0x8 * n
def RF.refFuseVminBits (n : Nat) : RF := ⟨(Reg.refFuseVmin n), 0, 64⟩
/-- MBX_RX_PEND_r, `spec/14_referee.md`. -/
def Reg.mbxRxPend (r : Nat) : Nat := 0xB00000 + 0x20 * r
def RF.mbxRxPendPending (r : Nat) : RF := ⟨(Reg.mbxRxPend r), 0, 32⟩
def RF.mbxRxPendDone (r : Nat) : RF := ⟨(Reg.mbxRxPend r), 32, 32⟩
/-- MBX_RX_MASK_r, `spec/14_referee.md`. -/
def Reg.mbxRxMask (r : Nat) : Nat := 0xB00008 + 0x20 * r
def RF.mbxRxMaskPendMask (r : Nat) : RF := ⟨(Reg.mbxRxMask r), 0, 32⟩
def RF.mbxRxMaskDoneMask (r : Nat) : RF := ⟨(Reg.mbxRxMask r), 32, 32⟩
/-- MBX_RX_IRQ_r, `spec/14_referee.md`. -/
def Reg.mbxRxIrq (r : Nat) : Nat := 0xB00010 + 0x20 * r
def RF.mbxRxIrqTarget (r : Nat) : RF := ⟨(Reg.mbxRxIrq r), 0, 11⟩
def RF.mbxRxIrqHart (r : Nat) : RF := ⟨(Reg.mbxRxIrq r), 11, 5⟩
def RF.mbxRxIrqIrqEn (r : Nat) : RF := ⟨(Reg.mbxRxIrq r), 16, 1⟩
/-- MBX_CH_MSG_c_i, `spec/14_referee.md`. -/
def Reg.mbxChMsg (ch i : Nat) : Nat := 0xB01000 + 0x100 * ch + 0x8 * i
def RF.mbxChMsgData (ch i : Nat) : RF := ⟨(Reg.mbxChMsg ch i), 0, 64⟩
/-- MBX_CH_CTRL_c, `spec/14_referee.md`. -/
def Reg.mbxChCtrl (ch : Nat) : Nat := 0xB01080 + 0x100 * ch
def RF.mbxChCtrlGo (ch : Nat) : RF := ⟨(Reg.mbxChCtrl ch), 0, 1⟩
def RF.mbxChCtrlSender (ch : Nat) : RF := ⟨(Reg.mbxChCtrl ch), 1, 5⟩
def RF.mbxChCtrlReceiver (ch : Nat) : RF := ⟨(Reg.mbxChCtrl ch), 6, 5⟩
/-- MBX_CH_ACK_c, `spec/14_referee.md`. -/
def Reg.mbxChAck (ch : Nat) : Nat := 0xB01088 + 0x100 * ch
def RF.mbxChAckCode (ch : Nat) : RF := ⟨(Reg.mbxChAck ch), 0, 16⟩
def RF.mbxChAckValid (ch : Nat) : RF := ⟨(Reg.mbxChAck ch), 16, 1⟩
/-- PWR_CAP, `spec/15_power_thermal_ageing.md`. -/
def Reg.pwrCap : Nat := 0xD00000
def RF.pwrCapModuleCap : RF := ⟨Reg.pwrCap, 0, 16⟩
def RF.pwrCapBoardCap : RF := ⟨Reg.pwrCap, 16, 16⟩
def RF.pwrCapPackageCap : RF := ⟨Reg.pwrCap, 32, 16⟩
/-- PWR_STATUS, `spec/15_power_thermal_ageing.md`. -/
def Reg.pwrStatus : Nat := 0xD00008
def RF.pwrStatusInputW : RF := ⟨Reg.pwrStatus, 0, 16⟩
def RF.pwrStatusPackageW : RF := ⟨Reg.pwrStatus, 16, 16⟩
def RF.pwrStatusVin : RF := ⟨Reg.pwrStatus, 32, 16⟩
def RF.pwrStatusIin : RF := ⟨Reg.pwrStatus, 48, 9⟩
def RF.pwrStatusCeiling : RF := ⟨Reg.pwrStatus, 57, 4⟩
def RF.pwrStatusBoardCapActive : RF := ⟨Reg.pwrStatus, 61, 1⟩
def RF.pwrStatusDivided : RF := ⟨Reg.pwrStatus, 62, 1⟩
def RF.pwrStatusAlert : RF := ⟨Reg.pwrStatus, 63, 1⟩
/-- PWR_TEMP_MAX, `spec/15_power_thermal_ageing.md`. -/
def Reg.pwrTempMax : Nat := 0xD00010
def RF.pwrTempMaxCd : RF := ⟨Reg.pwrTempMax, 0, 8⟩
def RF.pwrTempMaxXd : RF := ⟨Reg.pwrTempMax, 8, 8⟩
def RF.pwrTempMaxMd : RF := ⟨Reg.pwrTempMax, 16, 8⟩
def RF.pwrTempMaxStack : RF := ⟨Reg.pwrTempMax, 24, 8⟩
def RF.pwrTempMaxLpddr : RF := ⟨Reg.pwrTempMax, 32, 8⟩
def RF.pwrTempMaxNand : RF := ⟨Reg.pwrTempMax, 40, 8⟩
def RF.pwrTempMaxInlet : RF := ⟨Reg.pwrTempMax, 48, 8⟩
def RF.pwrTempMaxOutlet : RF := ⟨Reg.pwrTempMax, 56, 8⟩
/-- PWR_CNT_n, `spec/15_power_thermal_ageing.md`. -/
def Reg.pwrCnt (n : Nat) : Nat := 0xD00040 + 0x8 * n
def RF.pwrCntCount (n : Nat) : RF := ⟨(Reg.pwrCnt n), 0, 48⟩
def RF.pwrCntSat (n : Nat) : RF := ⟨(Reg.pwrCnt n), 63, 1⟩
/-- PWR_ISLAND_k, `spec/15_power_thermal_ageing.md`. -/
def Reg.pwrIsland (k : Nat) : Nat := 0xD00100 + 0x8 * k
def RF.pwrIslandPoint (k : Nat) : RF := ⟨(Reg.pwrIsland k), 0, 4⟩
def RF.pwrIslandFmax (k : Nat) : RF := ⟨(Reg.pwrIsland k), 4, 4⟩
def RF.pwrIslandThermal (k : Nat) : RF := ⟨(Reg.pwrIsland k), 8, 4⟩
def RF.pwrIslandPower (k : Nat) : RF := ⟨(Reg.pwrIsland k), 12, 4⟩
def RF.pwrIslandVoltage (k : Nat) : RF := ⟨(Reg.pwrIsland k), 16, 16⟩
def RF.pwrIslandHottest (k : Nat) : RF := ⟨(Reg.pwrIsland k), 32, 8⟩
/-- PWR_SENSOR_n, `spec/15_power_thermal_ageing.md`. -/
def Reg.pwrSensor (n : Nat) : Nat := 0xD01000 + 0x8 * n
def RF.pwrSensorTemp (n : Nat) : RF := ⟨(Reg.pwrSensor n), 0, 16⟩
def RF.pwrSensorUnit (n : Nat) : RF := ⟨(Reg.pwrSensor n), 16, 16⟩
def RF.pwrSensorFailed (n : Nat) : RF := ⟨(Reg.pwrSensor n), 32, 1⟩
/-- MGN_CTRL, `spec/15_power_thermal_ageing.md`. -/
def Reg.mgnCtrl : Nat := 0xC00000
def RF.mgnCtrlReplan : RF := ⟨Reg.mgnCtrl, 0, 1⟩
def RF.mgnCtrlIntervalH : RF := ⟨Reg.mgnCtrl, 16, 8⟩
/-- MGN_STATUS, `spec/15_power_thermal_ageing.md`. -/
def Reg.mgnStatus : Nat := 0xC00008
def RF.mgnStatusPlanSeq : RF := ⟨Reg.mgnStatus, 0, 32⟩
def RF.mgnStatusBusy : RF := ⟨Reg.mgnStatus, 32, 1⟩
def RF.mgnStatusReason : RF := ⟨Reg.mgnStatus, 33, 3⟩
/-- MGN_THRESH, `spec/15_power_thermal_ageing.md`. -/
def Reg.mgnThresh : Nat := 0xC00010
def RF.mgnThreshT1Ce : RF := ⟨Reg.mgnThresh, 0, 16⟩
def RF.mgnThreshT2Ce : RF := ⟨Reg.mgnThresh, 16, 16⟩
def RF.mgnThreshGuardPs : RF := ⟨Reg.mgnThresh, 32, 8⟩
/-- MGN_CNT_n, `spec/15_power_thermal_ageing.md`. -/
def Reg.mgnCnt (n : Nat) : Nat := 0xC00040 + 0x8 * n
def RF.mgnCntCount (n : Nat) : RF := ⟨(Reg.mgnCnt n), 0, 48⟩
def RF.mgnCntSat (n : Nat) : RF := ⟨(Reg.mgnCnt n), 63, 1⟩
/-- MGN_PLAN_n, `spec/15_power_thermal_ageing.md`. -/
def Reg.mgnPlan (n : Nat) : Nat := 0xC01000 + 0x8 * n
def RF.mgnPlanData (n : Nat) : RF := ⟨(Reg.mgnPlan n), 0, 64⟩
/-- TRC_POOL_d, `spec/16_debug_trace_counters.md`. -/
def Reg.trcPool (d : Nat) : Nat := 0xE00000 + 0x8 * d
def RF.trcPoolBase (d : Nat) : RF := ⟨(Reg.trcPool d), 0, 48⟩
def RF.trcPoolSize (d : Nat) : RF := ⟨(Reg.trcPool d), 48, 11⟩
def RF.trcPoolEnable (d : Nat) : RF := ⟨(Reg.trcPool d), 59, 1⟩
/-- TRC_DMI, `spec/16_debug_trace_counters.md`. -/
def Reg.trcDmi : Nat := 0xE00100
def RF.trcDmiAddr : RF := ⟨Reg.trcDmi, 0, 7⟩
def RF.trcDmiWrite : RF := ⟨Reg.trcDmi, 7, 1⟩
def RF.trcDmiGo : RF := ⟨Reg.trcDmi, 8, 1⟩
def RF.trcDmiOp : RF := ⟨Reg.trcDmi, 9, 2⟩
def RF.trcDmiSbaPartition : RF := ⟨Reg.trcDmi, 11, 4⟩
def RF.trcDmiData : RF := ⟨Reg.trcDmi, 32, 32⟩
/-- TRC_CNT_n, `spec/16_debug_trace_counters.md`. -/
def Reg.trcCnt (n : Nat) : Nat := 0xE00200 + 0x8 * n
def RF.trcCntCount (n : Nat) : RF := ⟨(Reg.trcCnt n), 0, 48⟩
def RF.trcCntSat (n : Nat) : RF := ⟨(Reg.trcCnt n), 63, 1⟩
/-- TRC_P_CTRL, `spec/16_debug_trace_counters.md`. -/
def Reg.trcPCtrl (p : Nat) : Nat := 0xE01000 + 0x200 * p
def RF.trcPCtrlEnable (p : Nat) : RF := ⟨(Reg.trcPCtrl p), 0, 1⟩
def RF.trcPCtrlPolicy (p : Nat) : RF := ⟨(Reg.trcPCtrl p), 1, 2⟩
def RF.trcPCtrlEvents (p : Nat) : RF := ⟨(Reg.trcPCtrl p), 3, 1⟩
def RF.trcPCtrlEngines (p : Nat) : RF := ⟨(Reg.trcPCtrl p), 4, 13⟩
def RF.trcPCtrlPost (p : Nat) : RF := ⟨(Reg.trcPCtrl p), 17, 23⟩
/-- TRC_P_TRIG, `spec/16_debug_trace_counters.md`. -/
def Reg.trcPTrig (p : Nat) : Nat := 0xE01008 + 0x200 * p
def RF.trcPTrigOnBreak (p : Nat) : RF := ⟨(Reg.trcPTrig p), 0, 1⟩
def RF.trcPTrigOnCode (p : Nat) : RF := ⟨(Reg.trcPTrig p), 1, 1⟩
def RF.trcPTrigMinSev (p : Nat) : RF := ⟨(Reg.trcPTrig p), 2, 3⟩
def RF.trcPTrigForce (p : Nat) : RF := ⟨(Reg.trcPTrig p), 5, 1⟩
def RF.trcPTrigFired (p : Nat) : RF := ⟨(Reg.trcPTrig p), 6, 1⟩
def RF.trcPTrigTrigCode (p : Nat) : RF := ⟨(Reg.trcPTrig p), 16, 16⟩
/-- TRC_P_BUF_d, `spec/16_debug_trace_counters.md`. -/
def Reg.trcPBuf (p d : Nat) : Nat := 0xE01040 + 0x200 * p + 0x8 * d
def RF.trcPBufBase (p d : Nat) : RF := ⟨(Reg.trcPBuf p d), 0, 48⟩
def RF.trcPBufMib (p d : Nat) : RF := ⟨(Reg.trcPBuf p d), 48, 9⟩
/-- TRC_P_POS_d, `spec/16_debug_trace_counters.md`. -/
def Reg.trcPPos (p d : Nat) : Nat := 0xE01080 + 0x200 * p + 0x8 * d
def RF.trcPPosWritten (p d : Nat) : RF := ⟨(Reg.trcPPos p d), 0, 60⟩
def RF.trcPPosState (p d : Nat) : RF := ⟨(Reg.trcPPos p d), 60, 3⟩
/-- TRC_P_LOST_d, `spec/16_debug_trace_counters.md`. -/
def Reg.trcPLost (p d : Nat) : Nat := 0xE010C0 + 0x200 * p + 0x8 * d
def RF.trcPLostLost (p d : Nat) : RF := ⟨(Reg.trcPLost p d), 0, 32⟩
/-- TRC_P_WATCH_A, `spec/16_debug_trace_counters.md`. -/
def Reg.trcPWatchA (p n : Nat) : Nat := 0xE01100 + 0x200 * p + 0x20 * n
def RF.trcPWatchATensorId (p n : Nat) : RF := ⟨(Reg.trcPWatchA p n), 0, 32⟩
def RF.trcPWatchAEnable (p n : Nat) : RF := ⟨(Reg.trcPWatchA p n), 32, 1⟩
def RF.trcPWatchAState (p n : Nat) : RF := ⟨(Reg.trcPWatchA p n), 33, 2⟩
def RF.trcPWatchALimit (p n : Nat) : RF := ⟨(Reg.trcPWatchA p n), 40, 24⟩
/-- TRC_P_WATCH_B, `spec/16_debug_trace_counters.md`. -/
def Reg.trcPWatchB (p n : Nat) : Nat := 0xE01108 + 0x200 * p + 0x20 * n
def RF.trcPWatchBStep (p n : Nat) : RF := ⟨(Reg.trcPWatchB p n), 0, 64⟩
/-- TRC_P_WATCH_C, `spec/16_debug_trace_counters.md`. -/
def Reg.trcPWatchC (p n : Nat) : Nat := 0xE01110 + 0x200 * p + 0x20 * n
def RF.trcPWatchCDest (p n : Nat) : RF := ⟨(Reg.trcPWatchC p n), 0, 48⟩
/-- TRC_P_WATCH_D, `spec/16_debug_trace_counters.md`. -/
def Reg.trcPWatchD (p n : Nat) : Nat := 0xE01118 + 0x200 * p + 0x20 * n
def RF.trcPWatchDDestTrailer (p n : Nat) : RF := ⟨(Reg.trcPWatchD p n), 0, 48⟩
/-- CNT_PRIV, `spec/16_debug_trace_counters.md`. -/
def Reg.cntPriv : Nat := 0xF00008
def RF.cntPrivMask : RF := ⟨Reg.cntPriv, 0, 32⟩
/-- DMA_CH_CTRL of the channel whose registers start at `b`, `spec/11_caddie_and_dma.md`. -/
def Reg.dmaChCtrl (b : Nat) : Nat := b + 0x0
def RF.dmaChCtrlPause (b : Nat) : RF := ⟨(Reg.dmaChCtrl b), 0, 1⟩
def RF.dmaChCtrlAbort (b : Nat) : RF := ⟨(Reg.dmaChCtrl b), 1, 1⟩
def RF.dmaChCtrlRestart (b : Nat) : RF := ⟨(Reg.dmaChCtrl b), 2, 1⟩
def RF.dmaChCtrlRate (b : Nat) : RF := ⟨(Reg.dmaChCtrl b), 3, 8⟩
def RF.dmaChCtrlPartition (b : Nat) : RF := ⟨(Reg.dmaChCtrl b), 11, 4⟩
def RF.dmaChCtrlLock (b : Nat) : RF := ⟨(Reg.dmaChCtrl b), 15, 1⟩
def RF.dmaChCtrlReferee (b : Nat) : RF := ⟨(Reg.dmaChCtrl b), 16, 1⟩
/-- DMA_CH_STATUS of the channel whose registers start at `b`, `spec/11_caddie_and_dma.md`. -/
def Reg.dmaChStatus (b : Nat) : Nat := b + 0x8
def RF.dmaChStatusState (b : Nat) : RF := ⟨(Reg.dmaChStatus b), 0, 3⟩
def RF.dmaChStatusQueued (b : Nat) : RF := ⟨(Reg.dmaChStatus b), 3, 4⟩
def RF.dmaChStatusWaiting (b : Nat) : RF := ⟨(Reg.dmaChStatus b), 7, 1⟩
def RF.dmaChStatusLastCode (b : Nat) : RF := ⟨(Reg.dmaChStatus b), 32, 16⟩
/-- DMA_CH_POS_n of the channel whose registers start at `b`, `spec/11_caddie_and_dma.md`. -/
def Reg.dmaChPos (b n : Nat) : Nat := b + 0x10 + 8 * n
def RF.dmaChPosPos (b n : Nat) : RF := ⟨(Reg.dmaChPos b n), 0, 64⟩
/-- DMA_CH_RING of the channel whose registers start at `b`, `spec/11_caddie_and_dma.md`. -/
def Reg.dmaChRing (b : Nat) : Nat := b + 0x30
def RF.dmaChRingRingBase (b : Nat) : RF := ⟨(Reg.dmaChRing b), 0, 48⟩
def RF.dmaChRingL (b : Nat) : RF := ⟨(Reg.dmaChRing b), 48, 5⟩
/-- DMA_CH_STATBASE of the channel whose registers start at `b`, `spec/11_caddie_and_dma.md`. -/
def Reg.dmaChStatbase (b : Nat) : Nat := b + 0x38
def RF.dmaChStatbaseStatusBase (b : Nat) : RF := ⟨(Reg.dmaChStatbase b), 0, 48⟩
/-- DMA_CH_DOOR of the channel whose registers start at `b`, `spec/11_caddie_and_dma.md`. -/
def Reg.dmaChDoor (b : Nat) : Nat := b + 0x40
def RF.dmaChDoorTail (b : Nat) : RF := ⟨(Reg.dmaChDoor b), 0, 32⟩
def RF.dmaChDoorHead (b : Nat) : RF := ⟨(Reg.dmaChDoor b), 32, 32⟩
/-- DMA_CH_CNT_n of the channel whose registers start at `b`, `spec/11_caddie_and_dma.md`. -/
def Reg.dmaChCnt (b n : Nat) : Nat := b + 0x80 + 8 * n
def RF.dmaChCntCount (b n : Nat) : RF := ⟨(Reg.dmaChCnt b n), 0, 48⟩
def RF.dmaChCntSat (b n : Nat) : RF := ⟨(Reg.dmaChCnt b n), 63, 1⟩
/-- The registers of a reduction ring, which follow the ring registers of a DMA channel bit for bit (R348): the base at
which those names find them. -/
def redRingBase (p : Nat) : Nat := 0x900FD8 + 0x40 * p
/-- The registers of a core channel and of a chip channel (R269): their base. -/
def dmaCore (c k : Nat) : Nat := 0x2010000 + 0x100 * k + 0x20000 * c
def dmaChip (n : Nat) : Nat := 0x301000 + 0x100 * n


/-- The registers of the PMK block. -/
def regRowsPmk : List RegRow := [
  ⟨0x200E000, [(256, 0x20000)], none, [⟨0, 8, .ro⟩, ⟨8, 3, .ro⟩, ⟨16, 6, .ro⟩, ⟨24, 1, .ro⟩, ⟨25, 1, .ro⟩]⟩,
  ⟨0x200E008, [(256, 0x20000)], none, [⟨0, 1, .rw⟩, ⟨1, 1, .rw⟩, ⟨2, 1, .w1s⟩]⟩,
  ⟨0x200E010, [(256, 0x20000)], none, [⟨0, 2, .ro⟩, ⟨2, 1, .ro⟩, ⟨3, 4, .ro⟩, ⟨7, 3, .ro⟩, ⟨10, 7, .ro⟩, ⟨17, 6, .ro⟩, ⟨23, 5, .ro⟩, ⟨28, 3, .ro⟩]⟩,
  ⟨0x200E018, [(256, 0x20000)], some (0x2000, 0x8, 2), [⟨0, 64, .rwl⟩]⟩,
  ⟨0x200E020, [(256, 0x20000)], none, [⟨0, 24, .ro⟩, ⟨24, 8, .ro⟩, ⟨32, 13, .ro⟩, ⟨45, 8, .ro⟩]⟩,
  ⟨0x200E028, [(256, 0x20000)], none, [⟨0, 48, .ro⟩]⟩,
  ⟨0x200E030, [(256, 0x20000)], none, [⟨0, 64, .ro⟩]⟩,
  ⟨0x200E038, [(256, 0x20000)], none, [⟨0, 16, .ro⟩, ⟨16, 24, .ro⟩, ⟨40, 8, .ro⟩, ⟨48, 13, .ro⟩]⟩,
  ⟨0x200E040, [(256, 0x20000), (12, 0x8)], none, [⟨0, 48, .ro⟩, ⟨63, 1, .ro⟩]⟩,
  ⟨0x200E100, [(256, 0x20000), (4, 0x8)], none, [⟨0, 24, .rw⟩, ⟨24, 8, .rw⟩, ⟨32, 13, .rw⟩, ⟨45, 1, .rw⟩, ⟨46, 1, .rw⟩, ⟨47, 1, .rw⟩, ⟨48, 1, .rw⟩, ⟨49, 1, .rw⟩]⟩]
/-- The registers of the CNT block. -/
def regRowsCnt : List RegRow := [
  ⟨0xF00000, [], none, [⟨0, 64, .ro⟩]⟩,
  ⟨0xF00008, [], none, [⟨0, 32, .rw⟩]⟩]
/-- The registers of the XFM block. -/
def regRowsXfm : List RegRow := [
  ⟨0x2008000, [(256, 0x20000)], none, [⟨0, 1, .w1s⟩]⟩,
  ⟨0x2008008, [(256, 0x20000)], some (0x2000, 0x0, 0), [⟨0, 64, .rwl⟩]⟩,
  ⟨0x2008010, [(256, 0x20000)], some (0x2000, 0x0, 0), [⟨0, 64, .rwl⟩]⟩,
  ⟨0x2008018, [(256, 0x20000), (5, 0x8)], none, [⟨0, 48, .ro⟩, ⟨63, 1, .ro⟩]⟩]
/-- The registers of the ARR block. -/
def regRowsArr : List RegRow := [
  ⟨0x2000000, [(256, 0x20000)], none, [⟨0, 2, .ro⟩, ⟨2, 2, .ro⟩, ⟨4, 3, .ro⟩, ⟨7, 3, .ro⟩, ⟨10, 1, .ro⟩, ⟨11, 2, .ro⟩, ⟨16, 16, .ro⟩]⟩,
  ⟨0x2000008, [(256, 0x20000), (6, 0x8)], none, [⟨0, 48, .ro⟩, ⟨63, 1, .ro⟩]⟩]
/-- The registers of the CNV block. -/
def regRowsCnv : List RegRow := [
  ⟨0x2002000, [(256, 0x20000)], none, [⟨0, 1, .ro⟩, ⟨1, 4, .ro⟩, ⟨5, 2, .ro⟩]⟩,
  ⟨0x2002008, [(256, 0x20000), (4, 0x8)], none, [⟨0, 48, .ro⟩, ⟨63, 1, .ro⟩]⟩]
/-- The registers of the OUT block. -/
def regRowsOut : List RegRow := [
  ⟨0x2006000, [(256, 0x20000), (8, 0x8)], none, [⟨0, 32, .ro⟩, ⟨32, 24, .ro⟩, ⟨63, 1, .ro⟩]⟩,
  ⟨0x2006040, [(256, 0x20000), (6, 0x8)], none, [⟨0, 48, .ro⟩, ⟨63, 1, .ro⟩]⟩]
/-- The registers of the UMP block. -/
def regRowsUmp : List RegRow := [
  ⟨0x200C000, [(256, 0x20000)], none, [⟨0, 2, .wo⟩]⟩,
  ⟨0x200C008, [(256, 0x20000)], none, [⟨0, 1, .ro⟩, ⟨1, 1, .ro⟩, ⟨2, 1, .ro⟩, ⟨3, 1, .ro⟩, ⟨4, 8, .ro⟩]⟩,
  ⟨0x200C010, [(256, 0x20000), (10, 0x8)], none, [⟨0, 48, .ro⟩, ⟨63, 1, .ro⟩]⟩]
/-- The registers of the PGV block. -/
def regRowsPgv : List RegRow := [
  ⟨0x10000, [(16, 0x1000)], none, [⟨0, 1, .w1s⟩, ⟨1, 1, .rw⟩, ⟨2, 1, .w1s⟩]⟩,
  ⟨0x10008, [(16, 0x1000)], some (0x1000, 0x0, 2), [⟨0, 48, .rwl⟩, ⟨48, 13, .rwl⟩]⟩,
  ⟨0x10010, [(16, 0x1000)], some (0x1000, 0x0, 2), [⟨0, 48, .rwl⟩, ⟨48, 15, .rwl⟩]⟩,
  ⟨0x10018, [(16, 0x1000), (3, 0x8)], some (0x1000, 0x0, 2), [⟨0, 48, .rwl⟩, ⟨48, 5, .rwl⟩]⟩,
  ⟨0x10030, [(16, 0x1000)], some (0x1000, 0x0, 2), [⟨0, 24, .rwl⟩]⟩,
  ⟨0x10038, [(16, 0x1000)], some (0x1000, 0x0, 2), [⟨0, 32, .rwl⟩, ⟨32, 32, .rwl⟩]⟩,
  ⟨0x10040, [(16, 0x1000)], some (0x1000, 0x0, 2), [⟨0, 32, .rwl⟩, ⟨32, 32, .rwl⟩]⟩,
  ⟨0x10048, [(16, 0x1000)], some (0x1000, 0x0, 2), [⟨0, 8, .rwl⟩, ⟨8, 4, .rwl⟩, ⟨16, 8, .rwl⟩, ⟨32, 32, .rwl⟩]⟩,
  ⟨0x10050, [(16, 0x1000)], some (0x1000, 0x0, 2), [⟨0, 32, .rwl⟩]⟩,
  ⟨0x10058, [(16, 0x1000)], none, [⟨0, 32, .ro⟩, ⟨32, 1, .ro⟩, ⟨33, 3, .ro⟩]⟩,
  ⟨0x10060, [(16, 0x1000)], none, [⟨0, 32, .ro⟩]⟩,
  ⟨0x10068, [(16, 0x1000)], none, [⟨0, 64, .ro⟩]⟩,
  ⟨0x10070, [(16, 0x1000), (8, 0x8)], none, [⟨0, 48, .ro⟩, ⟨63, 1, .ro⟩]⟩]
/-- The registers of the STA block. -/
def regRowsSta : List RegRow := [
  ⟨0x200A000, [(256, 0x20000), (16, 0x8)], none, [⟨0, 32, .ro⟩, ⟨32, 14, .ro⟩, ⟨46, 1, .ro⟩, ⟨63, 1, .ro⟩]⟩]
/-- The registers of the OPT block. -/
def regRowsOpt : List RegRow := [
  ⟨0x110000, [(16, 0x1000)], some (0x1000, 0x0, 1), [⟨0, 1, .w1s⟩, ⟨1, 1, .w1s⟩, ⟨2, 2, .rwl⟩]⟩,
  ⟨0x110008, [(16, 0x1000)], some (0x1000, 0x0, 1), [⟨0, 48, .rwl⟩, ⟨48, 11, .rwl⟩]⟩,
  ⟨0x110010, [(16, 0x1000)], some (0x1000, 0x0, 1), [⟨0, 48, .rwl⟩]⟩,
  ⟨0x110018, [(16, 0x1000)], some (0x1000, 0x0, 1), [⟨0, 8, .rwl⟩, ⟨8, 8, .rwl⟩, ⟨16, 8, .rwl⟩, ⟨24, 16, .rwl⟩]⟩,
  ⟨0x110020, [(16, 0x1000)], some (0x1000, 0x0, 1), [⟨0, 32, .rwl⟩]⟩,
  ⟨0x110028, [(16, 0x1000)], some (0x1000, 0x0, 1), [⟨0, 32, .rwl⟩, ⟨32, 32, .rw⟩]⟩,
  ⟨0x110030, [(16, 0x1000)], some (0x1000, 0x0, 1), [⟨0, 48, .rwl⟩, ⟨48, 12, .rwl⟩]⟩,
  ⟨0x110038, [(16, 0x1000)], some (0x1000, 0x0, 1), [⟨0, 48, .rwl⟩, ⟨48, 3, .rwl⟩]⟩,
  ⟨0x110040, [(16, 0x1000)], some (0x1000, 0x0, 1), [⟨0, 48, .rwl⟩]⟩,
  ⟨0x110048, [(16, 0x1000)], none, [⟨0, 32, .ro⟩, ⟨32, 8, .ro⟩, ⟨40, 1, .ro⟩, ⟨41, 1, .ro⟩, ⟨48, 16, .ro⟩]⟩,
  ⟨0x110050, [(16, 0x1000)], none, [⟨0, 32, .ro⟩, ⟨32, 32, .ro⟩]⟩,
  ⟨0x110058, [(16, 0x1000)], none, [⟨0, 32, .ro⟩, ⟨32, 32, .ro⟩]⟩,
  ⟨0x110060, [(16, 0x1000)], none, [⟨0, 1, .ro⟩, ⟨1, 1, .ro⟩, ⟨2, 1, .ro⟩]⟩,
  ⟨0x110068, [(16, 0x1000), (8, 0x8)], none, [⟨0, 48, .ro⟩, ⟨63, 1, .ro⟩]⟩]
/-- The registers of the VEC block. -/
def regRowsVec : List RegRow := [
  ⟨0x2004000, [(256, 0x20000)], none, [⟨0, 1, .ro⟩, ⟨1, 4, .ro⟩, ⟨5, 1, .ro⟩]⟩,
  ⟨0x2004008, [(256, 0x20000), (6, 0x8)], none, [⟨0, 48, .ro⟩, ⟨63, 1, .ro⟩]⟩]
/-- The registers of the SYN block. -/
def regRowsSyn : List RegRow := [
  ⟨0x200000, [(65536, 0x8)], none, [⟨0, 32, .ro⟩, ⟨32, 2, .ro⟩, ⟨34, 2, .ro⟩, ⟨36, 4, .ro⟩, ⟨40, 9, .ro⟩, ⟨49, 15, .ro⟩]⟩,
  ⟨0x280000, [(32768, 0x8)], none, [⟨0, 32, .ro⟩, ⟨32, 32, .ro⟩]⟩,
  ⟨0x2C0000, [], none, [⟨0, 32, .rw⟩, ⟨32, 2, .rw⟩, ⟨34, 2, .rw⟩, ⟨36, 4, .rw⟩, ⟨40, 9, .rw⟩]⟩,
  ⟨0x2C0008, [], none, [⟨0, 16, .wo⟩, ⟨16, 3, .wo⟩]⟩,
  ⟨0x2C0010, [], none, [⟨0, 1, .ro⟩, ⟨16, 16, .ro⟩]⟩,
  ⟨0x2C0018, [], none, [⟨0, 15, .ro⟩, ⟨16, 15, .rc⟩]⟩,
  ⟨0x2C0040, [(8, 0x8)], none, [⟨0, 48, .ro⟩, ⟨63, 1, .ro⟩]⟩,
  ⟨0x2C0100, [(16, 0x8)], none, [⟨0, 16, .rw⟩, ⟨16, 17, .rw⟩]⟩,
  ⟨0x2C0200, [(16, 0x8)], none, [⟨0, 17, .ro⟩, ⟨17, 1, .ro⟩]⟩,
  ⟨0x2D0000, [(32, 0x100)], none, [⟨0, 48, .rw⟩, ⟨48, 8, .rw⟩]⟩,
  ⟨0x2D0008, [(32, 0x100)], some (0x8, 0x0, 16), [⟨0, 11, .rw⟩, ⟨11, 1, .rw⟩, ⟨12, 4, .rwl⟩, ⟨16, 1, .w1s⟩]⟩,
  ⟨0x2D0010, [(32, 0x100)], none, [⟨0, 16, .wo⟩, ⟨16, 16, .wo⟩, ⟨32, 3, .wo⟩, ⟨35, 4, .wo⟩, ⟨48, 16, .wo⟩]⟩,
  ⟨0x2D0018, [(32, 0x100)], none, [⟨0, 9, .ro⟩, ⟨9, 8, .ro⟩, ⟨17, 1, .ro⟩, ⟨32, 32, .ro⟩]⟩]
/-- The registers of the MEM block. -/
def regRowsMem : List RegRow := [
  ⟨0x500000, [(8, 0x8)], none, [⟨0, 64, .ro⟩]⟩,
  ⟨0x500040, [(8, 0x8)], none, [⟨0, 64, .ro⟩]⟩,
  ⟨0x500080, [(2, 0x8)], none, [⟨0, 64, .ro⟩]⟩,
  ⟨0x500090, [(2, 0x8)], none, [⟨0, 64, .ro⟩]⟩,
  ⟨0x5000A0, [], none, [⟨0, 48, .ro⟩, ⟨48, 8, .ro⟩]⟩,
  ⟨0x5000A8, [], none, [⟨0, 11, .ro⟩, ⟨11, 11, .ro⟩, ⟨22, 11, .ro⟩, ⟨33, 11, .ro⟩, ⟨44, 1, .ro⟩]⟩,
  ⟨0x500100, [], none, [⟨0, 1, .rw⟩, ⟨1, 11, .rw⟩, ⟨12, 11, .rw⟩, ⟨23, 4, .rw⟩, ⟨27, 3, .rw⟩, ⟨30, 1, .rw⟩]⟩,
  ⟨0x500108, [], none, [⟨0, 8, .wo⟩, ⟨8, 3, .wo⟩]⟩,
  ⟨0x500110, [], none, [⟨0, 1, .ro⟩, ⟨16, 16, .ro⟩]⟩,
  ⟨0x501000, [(256, 0x8)], none, [⟨0, 1, .ro⟩, ⟨1, 11, .ro⟩, ⟨12, 11, .ro⟩, ⟨23, 4, .ro⟩, ⟨27, 3, .ro⟩, ⟨30, 1, .ro⟩, ⟨31, 1, .ro⟩, ⟨32, 1, .ro⟩]⟩,
  ⟨0x500200, [(16, 0x8)], some (0x8, 0x0, 63), [⟨0, 11, .rwl⟩, ⟨11, 11, .rwl⟩, ⟨22, 11, .rwl⟩, ⟨63, 1, .w1s⟩]⟩,
  ⟨0x500280, [(16, 0x8)], none, [⟨0, 11, .ro⟩, ⟨11, 11, .ro⟩, ⟨22, 11, .ro⟩]⟩,
  ⟨0x500300, [(12, 0x8)], none, [⟨0, 48, .ro⟩, ⟨63, 1, .ro⟩]⟩]
/-- The registers of the GTH block. -/
def regRowsGth : List RegRow := [
  ⟨0x600000, [(5, 0x8)], none, [⟨0, 48, .ro⟩, ⟨63, 1, .ro⟩]⟩]
/-- The registers of the DMA block. -/
def regRowsDma : List RegRow := [
  ⟨0x300000, [], none, [⟨0, 1, .ro⟩]⟩,
  ⟨0x2010000, [(256, 0x20000), (4, 0x100)], some (0x100, 0x0, 15), [⟨0, 1, .rw⟩, ⟨1, 1, .wo⟩, ⟨2, 1, .wo⟩, ⟨3, 8, .rw⟩, ⟨11, 4, .rwl⟩, ⟨15, 1, .w1s⟩, ⟨16, 1, .ro⟩]⟩,
  ⟨0x301000, [(64, 0x100)], some (0x100, 0x0, 15), [⟨0, 1, .rw⟩, ⟨1, 1, .wo⟩, ⟨2, 1, .wo⟩, ⟨3, 8, .rw⟩, ⟨11, 4, .rwl⟩, ⟨15, 1, .w1s⟩, ⟨16, 1, .ro⟩]⟩,
  ⟨0x2010008, [(256, 0x20000), (4, 0x100)], none, [⟨0, 3, .ro⟩, ⟨3, 4, .ro⟩, ⟨7, 1, .ro⟩, ⟨32, 16, .ro⟩]⟩,
  ⟨0x301008, [(64, 0x100)], none, [⟨0, 3, .ro⟩, ⟨3, 4, .ro⟩, ⟨7, 1, .ro⟩, ⟨32, 16, .ro⟩]⟩,
  ⟨0x2010010, [(256, 0x20000), (4, 0x100), (4, 0x8)], none, [⟨0, 64, .ro⟩]⟩,
  ⟨0x301010, [(64, 0x100), (4, 0x8)], none, [⟨0, 64, .ro⟩]⟩,
  ⟨0x2010030, [(256, 0x20000), (4, 0x100)], some (0x100, 0x0, 15), [⟨0, 48, .rwl⟩, ⟨48, 5, .rwl⟩]⟩,
  ⟨0x301030, [(64, 0x100)], some (0x100, 0x0, 15), [⟨0, 48, .rwl⟩, ⟨48, 5, .rwl⟩]⟩,
  ⟨0x2010038, [(256, 0x20000), (4, 0x100)], some (0x100, 0x0, 15), [⟨0, 48, .rwl⟩]⟩,
  ⟨0x301038, [(64, 0x100)], some (0x100, 0x0, 15), [⟨0, 48, .rwl⟩]⟩,
  ⟨0x2010040, [(256, 0x20000), (4, 0x100)], none, [⟨0, 32, .rw⟩, ⟨32, 32, .ro⟩]⟩,
  ⟨0x301040, [(64, 0x100)], none, [⟨0, 32, .rw⟩, ⟨32, 32, .ro⟩]⟩,
  ⟨0x2010080, [(256, 0x20000), (4, 0x100), (6, 0x8)], none, [⟨0, 48, .ro⟩, ⟨63, 1, .ro⟩]⟩,
  ⟨0x301080, [(64, 0x100), (6, 0x8)], none, [⟨0, 48, .ro⟩, ⟨63, 1, .ro⟩]⟩]
/-- The registers of the CAD block. -/
def regRowsCad : List RegRow := [
  ⟨0x400000, [(7, 0x8)], none, [⟨0, 48, .ro⟩, ⟨63, 1, .ro⟩]⟩,
  ⟨0x401000, [(64, 0x40)], some (0x40, 0x0, 1), [⟨0, 1, .w1s⟩, ⟨1, 1, .w1s⟩, ⟨2, 1, .rw⟩, ⟨3, 4, .rwl⟩, ⟨7, 2, .ro⟩]⟩,
  ⟨0x401008, [(64, 0x40)], some (0x40, 0x0, 1), [⟨0, 48, .rwl⟩, ⟨48, 16, .rwl⟩]⟩,
  ⟨0x401010, [(64, 0x40)], some (0x40, 0x0, 1), [⟨0, 5, .rwl⟩, ⟨8, 24, .rwl⟩, ⟨32, 32, .ro⟩]⟩,
  ⟨0x401018, [(64, 0x40)], some (0x40, 0x0, 1), [⟨0, 32, .rwl⟩, ⟨32, 32, .ro⟩]⟩,
  ⟨0x401020, [(64, 0x40), (4, 0x8)], some (0x40, 0x0, 1), [⟨0, 64, .rwl⟩]⟩,
  ⟨0x402000, [(16, 0x20)], some (0x20, 0x0, 24), [⟨0, 16, .rwl⟩, ⟨16, 8, .rwl⟩, ⟨24, 1, .w1s⟩]⟩,
  ⟨0x402008, [(16, 0x20)], some (0x20, 0x0, 24), [⟨0, 48, .rwl⟩]⟩,
  ⟨0x402010, [(16, 0x20)], none, [⟨0, 48, .rw⟩, ⟨48, 1, .wo⟩, ⟨49, 1, .wo⟩, ⟨50, 1, .ro⟩]⟩]
/-- The registers of the HIF block. -/
def regRowsHif : List RegRow := [
  ⟨0x700000, [], none, [⟨0, 48, .rw⟩]⟩,
  ⟨0x700008, [], none, [⟨0, 48, .rw⟩]⟩,
  ⟨0x700010, [], none, [⟨0, 15, .wo⟩, ⟨15, 1, .wo⟩, ⟨16, 3, .wo⟩]⟩,
  ⟨0x700018, [], none, [⟨0, 1, .ro⟩, ⟨16, 16, .ro⟩]⟩,
  ⟨0x700100, [(4, 0x8)], none, [⟨0, 4, .rw⟩, ⟨7, 1, .rw⟩, ⟨8, 4, .rw⟩, ⟨15, 1, .rw⟩, ⟨16, 4, .rw⟩, ⟨23, 1, .rw⟩, ⟨24, 4, .rw⟩, ⟨31, 1, .rw⟩, ⟨32, 4, .rw⟩, ⟨39, 1, .rw⟩, ⟨40, 4, .rw⟩, ⟨47, 1, .rw⟩, ⟨48, 4, .rw⟩, ⟨55, 1, .rw⟩, ⟨56, 4, .rw⟩, ⟨63, 1, .rw⟩]⟩,
  ⟨0x700200, [(9, 0x8)], none, [⟨0, 48, .ro⟩, ⟨63, 1, .ro⟩]⟩,
  ⟨0x701000, [(128, 0x8)], none, [⟨0, 18, .rw⟩, ⟨18, 4, .rw⟩, ⟨22, 2, .rw⟩, ⟨24, 1, .rw⟩]⟩,
  ⟨0x702000, [(16, 0x100)], none, [⟨0, 4, .wo⟩]⟩,
  ⟨0x702008, [(16, 0x100)], none, [⟨0, 3, .ro⟩, ⟨3, 1, .ro⟩, ⟨4, 16, .ro⟩, ⟨20, 16, .ro⟩, ⟨36, 8, .ro⟩]⟩,
  ⟨0x702010, [(16, 0x100)], some (0x100, 0x18, 63), [⟨0, 15, .rwl⟩, ⟨15, 16, .rwl⟩, ⟨31, 13, .rwl⟩, ⟨44, 14, .rwl⟩]⟩,
  ⟨0x702018, [(16, 0x100)], some (0x100, 0x18, 63), [⟨0, 8, .rwl⟩, ⟨8, 9, .rwl⟩, ⟨17, 7, .rwl⟩, ⟨24, 1, .rw⟩, ⟨25, 8, .rw⟩, ⟨33, 1, .rw⟩, ⟨63, 1, .ro⟩]⟩,
  ⟨0x702020, [(17, 0x100)], none, [⟨0, 48, .rw⟩, ⟨48, 1, .rw⟩, ⟨49, 5, .rw⟩, ⟨54, 1, .rw⟩]⟩,
  ⟨0x702028, [(17, 0x100)], none, [⟨0, 11, .rw⟩, ⟨11, 1, .rw⟩, ⟨12, 3, .rw⟩, ⟨15, 8, .rw⟩, ⟨23, 20, .rw⟩, ⟨43, 1, .rw⟩]⟩,
  ⟨0x702030, [(17, 0x100)], none, [⟨0, 32, .ro⟩, ⟨32, 32, .rw⟩]⟩,
  ⟨0x702038, [(16, 0x100)], none, [⟨0, 32, .rw⟩, ⟨32, 1, .rw⟩]⟩,
  ⟨0x702040, [(16, 0x100)], none, [⟨0, 48, .rw⟩]⟩,
  ⟨0x702048, [(16, 0x100)], none, [⟨0, 32, .rw⟩]⟩,
  ⟨0x704000, [(256, 0x8)], none, [⟨0, 16, .ro⟩, ⟨16, 1, .ro⟩, ⟨17, 12, .ro⟩]⟩,
  ⟨0x780000, [(32768, 0x8)], none, [⟨0, 32, .wo⟩]⟩,
  ⟨0x7C0000, [(8192, 0x8)], none, [⟨0, 32, .wo⟩]⟩]
/-- The registers of the LNK block. -/
def regRowsLnk : List RegRow := [
  ⟨0x800000, [], some (0x8, 0x0, 63), [⟨0, 16, .rwl⟩, ⟨16, 16, .rwl⟩, ⟨32, 3, .rwl⟩, ⟨35, 3, .rwl⟩, ⟨63, 1, .w1s⟩]⟩,
  ⟨0x800008, [], none, [⟨0, 2, .rw⟩, ⟨2, 1, .rw⟩, ⟨3, 2, .rw⟩, ⟨16, 16, .rw⟩, ⟨32, 16, .rw⟩]⟩,
  ⟨0x800010, [], none, [⟨0, 32, .ro⟩, ⟨32, 7, .ro⟩, ⟨39, 1, .ro⟩, ⟨40, 1, .ro⟩, ⟨48, 16, .ro⟩]⟩,
  ⟨0x800018, [], none, [⟨0, 48, .rw⟩]⟩,
  ⟨0x800020, [], none, [⟨0, 48, .rw⟩, ⟨48, 9, .rw⟩]⟩,
  ⟨0x800028, [], none, [⟨0, 16, .rw⟩]⟩,
  ⟨0x800030, [], none, [⟨0, 64, .wo⟩]⟩,
  ⟨0x800040, [(2, 0x8)], none, [⟨0, 48, .ro⟩, ⟨63, 1, .ro⟩]⟩,
  ⟨0x800100, [(18, 0x40)], none, [⟨0, 1, .rw⟩, ⟨1, 1, .rw⟩, ⟨2, 4, .rw⟩, ⟨16, 16, .rw⟩]⟩,
  ⟨0x800108, [(18, 0x40)], none, [⟨0, 3, .ro⟩, ⟨3, 4, .ro⟩, ⟨7, 1, .ro⟩, ⟨16, 16, .ro⟩, ⟨32, 5, .ro⟩, ⟨37, 3, .ro⟩]⟩,
  ⟨0x800110, [(18, 0x40), (6, 0x8)], none, [⟨0, 48, .ro⟩, ⟨63, 1, .ro⟩]⟩,
  ⟨0x820000, [(18, 0x400), (16, 0x20)], none, [⟨0, 48, .rw⟩, ⟨48, 4, .rw⟩]⟩,
  ⟨0x820008, [(18, 0x400), (16, 0x20)], none, [⟨0, 32, .rw⟩, ⟨32, 32, .ro⟩]⟩,
  ⟨0x820010, [(18, 0x400), (16, 0x20)], none, [⟨0, 11, .rw⟩, ⟨11, 5, .rw⟩, ⟨16, 1, .rw⟩]⟩,
  ⟨0x820300, [(18, 0x400), (5, 0x8)], none, [⟨0, 64, .rw⟩]⟩,
  ⟨0x820328, [(18, 0x400), (8, 0x8)], none, [⟨0, 3, .rw⟩, ⟨4, 3, .rw⟩, ⟨8, 3, .rw⟩, ⟨12, 3, .rw⟩, ⟨16, 3, .rw⟩, ⟨20, 3, .rw⟩, ⟨24, 3, .rw⟩, ⟨28, 3, .rw⟩, ⟨32, 3, .rw⟩, ⟨36, 3, .rw⟩, ⟨40, 3, .rw⟩, ⟨44, 3, .rw⟩, ⟨48, 3, .rw⟩, ⟨52, 3, .rw⟩, ⟨56, 3, .rw⟩, ⟨60, 3, .rw⟩]⟩,
  ⟨0x880000, [(65536, 0x8)], none, [⟨0, 18, .rw⟩, ⟨62, 1, .ro⟩, ⟨63, 1, .rw⟩]⟩]
/-- The registers of the RED block. -/
def regRowsRed : List RegRow := [
  ⟨0x901008, [(16, 0x40)], none, [⟨0, 48, .rw⟩, ⟨48, 5, .rw⟩]⟩,
  ⟨0x901010, [(16, 0x40)], none, [⟨0, 48, .rw⟩]⟩,
  ⟨0x901018, [(16, 0x40)], none, [⟨0, 32, .rw⟩, ⟨32, 32, .ro⟩]⟩,
  ⟨0x900000, [], none, [⟨0, 32, .rw⟩]⟩,
  ⟨0x900008, [(4, 0x8)], none, [⟨0, 48, .ro⟩, ⟨63, 1, .ro⟩]⟩,
  ⟨0x901000, [(16, 0x40)], none, [⟨0, 32, .rw⟩, ⟨32, 1, .ro⟩, ⟨33, 1, .ro⟩, ⟨34, 1, .ro⟩, ⟨35, 1, .wo⟩, ⟨36, 12, .ro⟩, ⟨48, 16, .ro⟩]⟩]
/-- The registers of the REF block. -/
def regRowsRef : List RegRow := [
  ⟨0xA00000, [], none, [⟨0, 64, .fuse⟩]⟩,
  ⟨0xA00008, [], none, [⟨0, 1, .ro⟩, ⟨1, 1, .ro⟩, ⟨2, 1, .ro⟩, ⟨3, 1, .ro⟩, ⟨4, 3, .ro⟩, ⟨7, 1, .ro⟩, ⟨8, 1, .ro⟩, ⟨32, 32, .ro⟩]⟩,
  ⟨0xA00010, [], none, [⟨0, 16, .ro⟩, ⟨16, 8, .ro⟩, ⟨24, 8, .ro⟩, ⟨32, 16, .ro⟩]⟩,
  ⟨0xA00018, [], none, [⟨0, 8, .ro⟩, ⟨8, 7, .ro⟩, ⟨16, 8, .ro⟩, ⟨24, 4, .ro⟩, ⟨28, 4, .ro⟩, ⟨32, 8, .ro⟩]⟩,
  ⟨0xA00020, [], none, [⟨0, 1, .rw⟩, ⟨1, 1, .wo⟩, ⟨2, 1, .wo⟩, ⟨8, 8, .wo⟩]⟩,
  ⟨0xA00028, [], none, [⟨0, 16, .ro⟩, ⟨16, 1, .ro⟩]⟩,
  ⟨0xA00040, [(4, 0x8)], none, [⟨0, 48, .ro⟩, ⟨63, 1, .ro⟩]⟩,
  ⟨0xA01000, [(3, 0x8)], none, [⟨0, 64, .fuse⟩]⟩,
  ⟨0xA01020, [(5, 0x8)], none, [⟨0, 64, .fuse⟩]⟩,
  ⟨0xA01100, [(6, 0x20), (4, 0x8)], none, [⟨0, 64, .fuse⟩]⟩,
  ⟨0xA01200, [(4, 0x8)], none, [⟨0, 64, .fuse⟩]⟩]
/-- The registers of the MBX block. -/
def regRowsMbx : List RegRow := [
  ⟨0xB00020, [(31, 0x20)], none, [⟨0, 32, .ro⟩, ⟨32, 32, .w1c⟩]⟩,
  ⟨0xB00028, [(31, 0x20)], none, [⟨0, 32, .rw⟩, ⟨32, 32, .rw⟩]⟩,
  ⟨0xB00030, [(31, 0x20)], none, [⟨0, 11, .rw⟩, ⟨11, 5, .rw⟩, ⟨16, 1, .rw⟩]⟩,
  ⟨0xB01000, [(32, 0x100), (16, 0x8)], none, [⟨0, 64, .rw⟩]⟩,
  ⟨0xB01080, [(32, 0x100)], none, [⟨0, 1, .w1s⟩, ⟨1, 5, .ro⟩, ⟨6, 5, .ro⟩]⟩,
  ⟨0xB01088, [(32, 0x100)], none, [⟨0, 16, .rw⟩, ⟨16, 1, .ro⟩]⟩]
/-- The registers of the PWR block. -/
def regRowsPwr : List RegRow := [
  ⟨0xD00000, [], none, [⟨0, 16, .rw⟩, ⟨16, 16, .rw⟩, ⟨32, 16, .rw⟩]⟩,
  ⟨0xD00008, [], none, [⟨0, 16, .ro⟩, ⟨16, 16, .ro⟩, ⟨32, 16, .ro⟩, ⟨48, 9, .ro⟩, ⟨57, 4, .ro⟩, ⟨61, 1, .ro⟩, ⟨62, 1, .ro⟩, ⟨63, 1, .ro⟩]⟩,
  ⟨0xD00010, [], none, [⟨0, 8, .ro⟩, ⟨8, 8, .ro⟩, ⟨16, 8, .ro⟩, ⟨24, 8, .ro⟩, ⟨32, 8, .ro⟩, ⟨40, 8, .ro⟩, ⟨48, 8, .ro⟩, ⟨56, 8, .ro⟩]⟩,
  ⟨0xD00040, [(6, 0x8)], none, [⟨0, 48, .ro⟩, ⟨63, 1, .ro⟩]⟩,
  ⟨0xD00100, [(32, 0x8)], none, [⟨0, 4, .ro⟩, ⟨4, 4, .ro⟩, ⟨8, 4, .ro⟩, ⟨12, 4, .ro⟩, ⟨16, 16, .ro⟩, ⟨32, 8, .ro⟩]⟩,
  ⟨0xD01000, [(626, 0x8)], none, [⟨0, 16, .ro⟩, ⟨16, 16, .ro⟩, ⟨32, 1, .ro⟩]⟩]
/-- The registers of the MGN block. -/
def regRowsMgn : List RegRow := [
  ⟨0xC00000, [], none, [⟨0, 1, .wo⟩, ⟨16, 8, .rw⟩]⟩,
  ⟨0xC00008, [], none, [⟨0, 32, .ro⟩, ⟨32, 1, .ro⟩, ⟨33, 3, .ro⟩]⟩,
  ⟨0xC00010, [], none, [⟨0, 16, .rw⟩, ⟨16, 16, .rw⟩, ⟨32, 8, .rw⟩]⟩,
  ⟨0xC00040, [(7, 0x8)], none, [⟨0, 48, .ro⟩, ⟨63, 1, .ro⟩]⟩,
  ⟨0xC01000, [(512, 0x8)], none, [⟨0, 64, .ro⟩]⟩]
/-- The registers of the TRC block. -/
def regRowsTrc : List RegRow := [
  ⟨0xE00000, [(8, 0x8)], none, [⟨0, 48, .rw⟩, ⟨48, 11, .rw⟩, ⟨59, 1, .rw⟩]⟩,
  ⟨0xE00100, [], none, [⟨0, 7, .rw⟩, ⟨7, 1, .rw⟩, ⟨8, 1, .w1s⟩, ⟨9, 2, .ro⟩, ⟨11, 4, .rw⟩, ⟨32, 32, .rw⟩]⟩,
  ⟨0xE00200, [(4, 0x8)], none, [⟨0, 48, .ro⟩, ⟨63, 1, .ro⟩]⟩,
  ⟨0xE01000, [(16, 0x200)], none, [⟨0, 1, .rw⟩, ⟨1, 2, .rw⟩, ⟨3, 1, .rw⟩, ⟨4, 13, .rw⟩, ⟨17, 23, .rw⟩]⟩,
  ⟨0xE01008, [(16, 0x200)], none, [⟨0, 1, .rw⟩, ⟨1, 1, .rw⟩, ⟨2, 3, .rw⟩, ⟨5, 1, .wo⟩, ⟨6, 1, .ro⟩, ⟨16, 16, .rw⟩]⟩,
  ⟨0xE01040, [(16, 0x200), (8, 0x8)], none, [⟨0, 48, .ro⟩, ⟨48, 9, .ro⟩]⟩,
  ⟨0xE01080, [(16, 0x200), (8, 0x8)], none, [⟨0, 60, .ro⟩, ⟨60, 3, .ro⟩]⟩,
  ⟨0xE010C0, [(16, 0x200), (8, 0x8)], none, [⟨0, 32, .ro⟩]⟩,
  ⟨0xE01100, [(16, 0x200), (8, 0x20)], none, [⟨0, 32, .rw⟩, ⟨32, 1, .w1s⟩, ⟨33, 2, .ro⟩, ⟨40, 24, .rw⟩]⟩,
  ⟨0xE01108, [(16, 0x200), (8, 0x20)], none, [⟨0, 64, .rw⟩]⟩,
  ⟨0xE01110, [(16, 0x200), (8, 0x20)], none, [⟨0, 48, .rw⟩]⟩,
  ⟨0xE01118, [(16, 0x200), (8, 0x20)], none, [⟨0, 48, .rw⟩]⟩]
/-- Every register of the spec, block by block (R7 to R11). -/
def regRows : List RegRow :=
  regRowsPmk ++ regRowsCnt ++ regRowsXfm ++ regRowsArr ++ regRowsCnv ++ regRowsOut ++ regRowsUmp ++ regRowsPgv ++ regRowsSta ++ regRowsOpt ++ regRowsVec ++ regRowsSyn ++ regRowsMem ++ regRowsGth ++ regRowsDma ++ regRowsCad ++ regRowsHif ++ regRowsLnk ++ regRowsRed ++ regRowsRef ++ regRowsMbx ++ regRowsPwr ++ regRowsMgn ++ regRowsTrc

/-! ## Reset values -/

/-- Is `off` the offset of a register in an array with the given (count, stride) of each index, the outer index first?
A stride of an outer index is larger than all that its inner indices span. -/
def inDims : List (Nat × Nat) → Nat → Bool
  | [], off => decide (off = 0)
  | (n, st) :: t, off => decide (off / st < n) && inDims t (off % st)

/-- A register array and the reset value of each of its registers. -/
structure ResetRow where
  base : Nat
  dims : List (Nat × Nat)
  val : Nat
  deriving DecidableEq, Repr

/-- The registers whose reset value is not 0, with that value (the Reset column of each register's table). -/
def resetRows : List ResetRow := [
  ⟨Reg.dmaMode, [], 1⟩,
  ⟨0x02010000, [(256, 0x20000), (4, 0x100)], 0xFF * 2 ^ 3⟩,
  ⟨0x00304E00, [(2, 0x100)], 0xFF * 2 ^ 3 + 2 ^ 16⟩,
  ⟨0x00301000, [(64, 0x100)], 0xFF * 2 ^ 3⟩,
  ⟨0x00110018, [(16, 0x1000)], 2000 * 2 ^ 24⟩,
  ⟨0x00110020, [(16, 0x1000)], 0x7F800000⟩,
  ⟨0x00110038, [(16, 0x1000)], 2 * 2 ^ 48⟩,
  ⟨0x00402000, [(16, 0x20)], 30000⟩,
  ⟨0x00702018, [(16, 0x100)], 3 * 2 ^ 25⟩,
  ⟨0x002D0018, [(32, 0x100)], 2 ^ 17⟩,
  ⟨Reg.lnkIdent, [], 0xFFFF⟩,
  ⟨Reg.lnkRole, [], 0xFFFFFFFF * 2 ^ 16⟩,
  ⟨Reg.lnkView, [], 0xFFFF * 2 ^ 48⟩,
  ⟨Reg.lnkCfg, [], 10⟩,
  ⟨0x00800100, [(18, 0x40)], 1000 * 2 ^ 16⟩,
  ⟨0x00800108, [(18, 0x40)], 0xFFFF * 2 ^ 16⟩,
  ⟨Reg.redCfg, [], 10000⟩,
  ⟨Reg.refReady, [], 2 ^ 3⟩,
  ⟨Reg.refFw, [], 0xFF * 2 ^ 16⟩,
  ⟨Reg.refCtrl, [], 1⟩,
  ⟨Reg.pwrCap, [], 3500 + 2000 * 2 ^ 16 + 3000 * 2 ^ 32⟩,
  ⟨0x00D00100, [(32, 8)], 0xFF⟩,
  ⟨Reg.mgnCtrl, [], 24 * 2 ^ 16⟩,
  ⟨Reg.mgnThresh, [], 1000 + 1000 * 2 ^ 16 + 20 * 2 ^ 32⟩]

/-- The reset value of PMK_CORE_IDENT of core `c` (section 1.4). -/
def coreIdentReset (c : Nat) : Nat := c + (c / 32) * 2 ^ 8 + (c % 32) * 2 ^ 16

/-- What the register at BAR0 offset `a` holds after reset. -/
def regReset (a : Nat) : Word :=
  if a ≥ 0x200E000 ∧ (a - 0x200E000) % 0x20000 = 0 ∧ (a - 0x200E000) / 0x20000 < 256 then
    BitVec.ofNat 64 (coreIdentReset ((a - 0x200E000) / 0x20000))
  else
    match resetRows.find? (fun r => decide (r.base ≤ a) && inDims r.dims (a - r.base)) with
    | some r => BitVec.ofNat 64 r.val
    | none => 0

end Sys2Proof.Machine
end

