-- ==== Sys2Proof/Machine/Store.lean ====
section
/-!
DEFINITION. Sparse stores: a list of (key, value) pairs in one canonical form (keys strictly rising, no entry equal to
what an unlisted key reads as), with its read and its write. Memory, the register space, the cores, the scorebooks and
the sync objects are all held so.
-/
namespace Sys2Proof.Machine

/-- What key `k` holds; a key that is not listed holds `d`. -/
def Sparse.get {α : Type} (d : α) : List (Nat × α) → Nat → α
  | [], _ => d
  | (k, v) :: t, a => if k = a then v else Sparse.get d t a

/-- The list with `k` bound to `v`, in the order of the keys. -/
def Sparse.insert {α : Type} (k : Nat) (v : α) : List (Nat × α) → List (Nat × α)
  | [] => [(k, v)]
  | (k', v') :: t =>
    if k < k' then (k, v) :: (k', v') :: t
    else if k = k' then (k, v) :: t
    else (k', v') :: Sparse.insert k v t

/-- The list without key `k`. -/
def Sparse.erase {α : Type} (k : Nat) : List (Nat × α) → List (Nat × α)
  | [] => []
  | (k', v') :: t => if k' = k then Sparse.erase k t else (k', v') :: Sparse.erase k t

/-- The store with key `k` holding `v`, where an unlisted `k` reads as `d`. -/
def Sparse.put {α : Type} [DecidableEq α] (d : α) (k : Nat) (v : α) (m : List (Nat × α)) : List (Nat × α) :=
  if v = d then Sparse.erase k m else Sparse.insert k v m

/-- The canonical form: keys strictly rising, and no entry equal to what its key reads as when unlisted. -/
def Sparse.wf {α : Type} [DecidableEq α] (d : Nat → α) : List (Nat × α) → Bool
  | [] => true
  | (k, v) :: t => decide (v ≠ d k) && t.all (fun p => decide (k < p.1)) && Sparse.wf d t

/-- What a byte of memory that nothing has written reads as. DESIGN CHOICE 3, unsafe. -/
def memUnlisted : BitVec 8 := 0

/-- One byte of a memory. -/
def Mem.read (m : List (Nat × BitVec 8)) (a : Nat) : BitVec 8 := Sparse.get memUnlisted m a

/-- A memory with one byte written. -/
def Mem.write (m : List (Nat × BitVec 8)) (a : Nat) (b : BitVec 8) : List (Nat × BitVec 8) :=
  Sparse.put memUnlisted a b m

/-- The `n` bytes of a memory from `a` up. -/
def Mem.readBytes (m : List (Nat × BitVec 8)) (a : Nat) : Nat → List (BitVec 8)
  | 0 => []
  | n + 1 => Mem.read m a :: Mem.readBytes m (a + 1) n

/-- A memory with a row of bytes written from `a` up. -/
def Mem.writeBytes (m : List (Nat × BitVec 8)) (a : Nat) : List (BitVec 8) → List (Nat × BitVec 8)
  | [] => m
  | b :: t => Mem.writeBytes (Mem.write m a b) (a + 1) t

/-- A memory's canonical form. -/
def Memory.wf (m : List (Nat × BitVec 8)) : Bool := Sparse.wf (fun _ => memUnlisted) m

end Sys2Proof.Machine
end

