-- ==== Sys2Proof/Machine/State.lean ====
section
/-!
DEFINITION. The state of the block as plain data, and the state after reset. Registers, memory, the cores and the sync
objects are sparse stores: what is not listed holds its reset value. The queue of waiting commands stands in `pending`.
-/
namespace Sys2Proof.Machine

/-! ## Events and outputs -/

/-- An event that the device has raised and not yet offered to its ring (Table 1-8). The sequence number is given when
the record is offered (R315). -/
structure Event where
  dtime : Nat
  code : Nat
  unit : Nat
  part : Nat
  sev : Nat
  payload : Nat
  deriving DecidableEq, Repr

/-- A message of an Ergal link (Table 13-4); `data` holds its LEN units of 32 bytes. Not of the message itself: the unit that
sends it, which the choice of a port takes (R334), and the port whose receive buffer still holds it while it waits to be sent
on (R336). -/
structure Msg where
  type : Nat
  len : Nat
  hops : Nat
  dst : Nat
  src : Nat
  tag : Nat
  arg : Nat
  data : Nat
  unit : Nat := 0
  via : Option Nat := none
  deriving DecidableEq, Repr

/-- What the block sends out of itself. -/
inductive Output where
  /-- A flit of a port: the 68 transmitted bytes of each of its four lanes, as numbers (R330). -/
  | flit (port : Nat) (lanes : List Nat)
  /-- The answer to a read of the host or of a service-core hart: the bytes as a number; none for a completion marked poisoned
  (R304) or a load access fault (R248). -/
  | readReply (v : Option Nat)
  /-- Unsupported Request completion status (R299). -/
  | unsupported
  /-- A HELLO of the bring-up, which takes no credit (Table 13-2, R329). -/
  | hello (port : Nat) (m : Msg)
  /-- An interrupt identity written to a hart's IMSIC (R239). -/
  | imsic (hart eiid : Nat)
  /-- An Ethernet frame that a port sends: its bytes as a number, and how many. -/
  | frame (port bytes len : Nat)
  /-- A packet that the referee sends on the management bus: MCTP message type, its bytes as a number, and how many. -/
  | mctp (type bytes len : Nat)
  /-- A response on the DOE mailbox: its bytes as a number, and how many (R298). -/
  | doe (bytes len : Nat)
  /-- A fingerprint that a partition's chip sends to the chip that owns its shard (R138). -/
  | fingerprint (part fp : Nat)
  /-- The completion of an ATS invalidation request (R298). -/
  | atsDone (tag : Nat)
  /-- An MSI-X message: function 0 is the PF, function p + 1 the VF of partition p; the address and the data of its table entry
  (R313). -/
  | msix (fn vector addr data : Nat)
  /-- A fault that an access of a service-core hart takes: its RISC-V cause (R121, R248). -/
  | hartFault (hart cause : Nat)
  deriving DecidableEq, Repr

/-! ## Cores -/

/-- The in-order queues of a core (Table 8-7). -/
inductive Queue where
  | arr | sbk | cnv | vec | out | pmk
  | dma (k : Nat)
  deriving DecidableEq, Repr

/-- A region of the core store (bytes) or of the scorebook (entries): a closed interval, read, written or both (R209). -/
structure Region where
  book : Bool
  lo : Nat
  hi : Nat
  rd : Bool
  wr : Bool
  deriving DecidableEq, Repr

/-- How far an issued command has come: not begun, begun, or executed with its status code (0 for success). -/
inductive Progress where
  | waiting
  | running
  | executed (code : Nat)
  deriving DecidableEq, Repr

/-- A command issued and not yet retired (R205, R206). `cmd` is its 64 bytes with the EPOCH that issue wrote; `next` is
the first unit of work that it has still to do; `ovfFirst` and `ovfCount` are the first scorebook entry that it overflowed
and their number (R89), `infFirst` and `infCount` the same of its outputs (R103); `outBinds` and `staBinds` are the bindings that it found at issue (R113, R142);
`tx` is the tensor scale m * 2^e of a MATSTREAM's streamed operand, read once before row 0 (R83). -/
structure Issued where
  token : Nat
  queue : Queue
  opcode : Nat
  index : Nat
  seg : Nat
  stream : Nat
  cmd : Nat
  step : Nat
  regions : List Region
  progress : Progress
  next : Nat
  ovfFirst : Nat
  ovfCount : Nat
  infFirst : Nat
  infCount : Nat
  outBinds : List Nat
  staBinds : List Nat
  tx : Nat × Int
  deriving DecidableEq, Repr

/-- A segment record (Table 8-1), with the core, the queue and the partition that it came by, and its place in the order
in which the queue engine took segments (R314). -/
structure SegRec where
  base : Nat
  count : Nat
  stream : Nat
  seqSlot : Nat
  flags : Nat
  tag : Nat
  rsv : Nat
  queue : Nat
  part : Nat
  core : Nat
  order : Nat
  deriving DecidableEq, Repr

/-- A segment that a core has started and not yet reported complete (R198), with the status code of the first of its commands that
failed, 0 while none has (Table 12-7). -/
structure SegRun where
  no : Nat
  record : SegRec
  endRetired : Bool
  status : Nat
  deriving DecidableEq, Repr

/-- The class of an array operand element: finite, an infinity, or a NaN (the special flag of R73). -/
inductive ElemClass where
  | fin | inf | nan
  deriving DecidableEq, Repr

/-- An array operand element (R73): (-1)^neg * m * 2^e, group scale included, tensor scale not; with the element's code
and its group scale's code as they were read. -/
structure Elem where
  cls : ElemClass
  neg : Bool
  m : Nat
  e : Int
  code : Nat
  scale : Nat
  deriving DecidableEq, Repr

/-- A stationary block, in the bank or in the bullpen (R76 to R80): its geometry, its columns of elements (each column
a list over the stationary index k), the stationary tensor scale tm * 2^te, the zero flags of the 16 lane groups and
the umpire's checksum row of 16 residues for each k (R127). -/
structure Block where
  r : Nat
  c : Nat
  twoBit : Bool
  temporal : Bool
  plane : Nat
  statFmt : Nat
  streamFmt : Nat
  cols : List (List Elem)
  tm : Nat
  te : Int
  zero : Nat
  check : List (List Nat)
  deriving DecidableEq, Repr

/-- The partial record of a statistics binding (R143, Table 6-1). ZF32 words are held as codes. -/
structure StatPart where
  format : Nat
  flags : Nat
  elements : Nat
  zeros : Nat
  saturated : Nat
  underflow : Nat
  nonfinite : Nat
  groups : Nat
  zeroGroup : Nat
  satGroup : Nat
  outGroups : Nat
  outOvf : Nat
  outKept : Nat
  outExcess : Nat
  maxabs : Nat
  sumsq : Nat
  hist : List Nat
  deriving DecidableEq, Repr

/-- A partial record that holds nothing. -/
def StatPart.empty : StatPart := ⟨0, 0, 0, 0, 0, 0, 0, 0, 0, 0, 0, 0, 0, 0, 0, 0, []⟩

/-- An arbitration in progress (R128 to R133): the token of the command it holds, its engine, the unit of work that
failed, the failing column blocks, the cause: 0 a fault of the hardware, 1 an array residue changed by injection, 2 a
stored checksum row that differs from the recomputed one, 3 two runs of a replay-verified core that differ (R133); and its place
in the order in which arbitrations began. -/
structure Arb where
  token : Nat
  engine : Nat
  unit : Nat
  mask : Nat
  cause : Nat
  order : Nat
  deriving DecidableEq, Repr

/-- Why a playmaker has decided to stop issuing, before its drain ends (R216). -/
inductive Stopping where
  | no
  | halt (cause : Nat)
  | failed
  deriving DecidableEq, Repr

/-- An entry of a trace queue (Table 16-1), without the sequence number that its buffer gives it. -/
structure TraceEntry where
  dtime : Nat
  status : Nat
  unit : Nat
  part : Nat
  kind : Nat
  index : Nat
  opcode : Nat
  stream : Nat
  token : Nat
  step : Nat
  arg : Nat
  deriving DecidableEq, Repr

/-- The partial of a core for the norm of one step (R171, R172): the step, the sum of squares (ZF32), NONFINITE, and whether an OPT_NORM
with LAST has retired in it. -/
structure NormPart where
  step : Nat
  sum : Nat
  bad : Nat
  last : Bool
  deriving DecidableEq, Repr

/-- A core: its playmaker, its engines' state and its job (chapters 3 to 8). `norms` are the partials of R171 of the steps whose
reduction has not begun; `corrBad` and
`bindBad` are the entries of the correction buffer and the outlier bindings of bad parity (R121). -/
structure Core where
  part : Option Nat
  pstate : Nat
  stopping : Stopping
  haltCause : Nat
  segq : List SegRec
  seg : Option SegRun
  segNo : Nat
  segOpen : List SegRun
  headIndex : Nat
  buf : List Nat
  waitsDone : Nat
  waiting : Bool
  waitDeadline : Option Nat
  haltReq : Nat
  brkSkip : Bool
  inflight : List Issued
  needFence : Bool
  endedStep : Nat
  epoch : Nat
  bank : Option Block
  bullpen : Option Block
  filling : Option Block
  loading : Option Block
  corr : List (Nat × Nat)
  stats : List (Nat × StatPart)
  inject1 : Bool
  inject2 : Bool
  arbs : List Arb
  norms : List NormPart
  traceQ : List TraceEntry
  traceLost : Nat
  corrBad : List Nat
  bindBad : List Nat
  deriving DecidableEq, Repr

/-- A core after reset. -/
def Core.reset : Core :=
  { part := none, pstate := 0, stopping := .no, haltCause := 0, segq := [], seg := none, segNo := 0, segOpen := [],
    headIndex := 0, buf := [], waitsDone := 0, waiting := false, waitDeadline := none, haltReq := 0,
    brkSkip := false,
    inflight := [], needFence := false, endedStep := 0, epoch := 0, bank := none, bullpen := none, filling := none,
    loading := none, corr := [], stats := [], inject1 := false, inject2 := false, arbs := [], norms := [],
    traceQ := [], traceLost := 0, corrBad := [], bindBad := [] }

/-- A record of the learned pattern set (Table 5-5). `stream` and `stat` hold (code, scale code) pairs, `stat` one list
for each k; `pairs` holds the failing operand pairs of CNV and VEC as ZF32 codes. -/
structure Learned where
  dtime : Nat
  unit : Nat
  code : Nat
  geom : Nat
  plane : Nat
  streamFmt : Nat
  statFmt : Nat
  block : Nat
  keff : Nat
  good : Nat
  bad : Nat
  stream : List (Nat × Nat)
  stat : List (List (Nat × Nat))
  pairs : List (Nat × Nat)
  die : Nat
  slot : Nat
  deriving DecidableEq, Repr

/-- A scorebook entry: its Z32a code and its tag, bit 8 TAGGED and bits 7 to 0 EPOCH (R91). -/
structure Entry where
  val : Nat
  tag : Nat
  deriving DecidableEq, Repr

/-! ## Sync objects -/

/-- The agents that can wait on a sync object (Table 9-3). -/
inductive WaitAgent where
  | core (c : Nat)
  | hart (h cookie : Nat)
  | chipChannel (n : Nat)
  | queueEntry (q : Nat)
  | redRing (p : Nat)
  deriving DecidableEq, Repr

/-- An entry of a sync object's queue of waiters (R226), with the DTIME at which it is abandoned, if ever (R230), and its
place in the order in which waits were queued. -/
structure Waiter where
  agent : WaitAgent
  part : Nat
  deadline : Option Nat
  order : Nat
  deriving DecidableEq, Repr

/-- A sync object (Table 9-1), its waiters in order, the oldest first. INIT_COUNT stands in SYN_INIT_m. -/
structure SyncObj where
  count : Nat
  state : Nat
  scope : Nat
  part : Nat
  owner : Nat
  waiters : List Waiter
  deriving DecidableEq, Repr

/-- A sync object after reset: FREE. -/
def SyncObj.reset : SyncObj := ⟨0, 0, 0, 0, 0, []⟩

/-- A signal or broadcast on its way to an object's home on this chip (R201, R207, R227 to R229): the signaller's unit
and partition (none for a remote agent), its chip (0xFFFF for this one), and the command index it came from. -/
structure Signal where
  src : Nat
  part : Option Nat
  chip : Nat
  object : Nat
  broadcast : Bool
  index : Nat
  deriving DecidableEq, Repr

/-! ## Host interface -/

/-- A completion entry (Table 12-7) on its way to its stream, with the core whose segment it reports, if any, and whether it is the
completion of a submission entry itself, behind which its queue waits (R312). -/
structure Completion where
  stream : Nat
  tag : Nat
  status : Nat
  queue : Nat
  slot : Nat
  flags : Nat
  seq : Nat
  core : Option Nat
  ofEntry : Bool
  deriving DecidableEq, Repr

/-- What the device holds of a stream beside its context in memory (R311, R312): whether it is enabled, whether a
completion has been dropped since it left that state, when its holdoff ends and whether a message is owed then, and the
completions that wait for room. -/
structure Stream where
  on : Bool
  dropped : Bool
  holdoff : Nat
  owed : Bool
  waiting : List Completion
  deriving DecidableEq, Repr

/-- A stream after reset. -/
def Stream.reset : Stream := ⟨false, false, 0, false, []⟩

/-- What the device holds of an event ring beside its registers (R315): the next SEQUENCE and the holdoff. -/
structure EventRing where
  seq : Nat
  holdoff : Nat
  owed : Bool
  deriving DecidableEq, Repr

/-- An event ring after reset. -/
def EventRing.reset : EventRing := ⟨0, 0, false⟩

/-- The wait of the entry at the head of a queue (R310): not begun, in progress, over, or failed with a code. -/
inductive HeadWait where
  | none
  | waiting
  | done
  | failed (code : Nat)
  deriving DecidableEq, Repr

/-- An entry of a function's MSI-X table: its message address and data, its mask bit and its pending bit (R313). -/
structure MsixEntry where
  addr : Nat
  data : Nat
  masked : Bool
  pending : Bool
  deriving DecidableEq, Repr

/-- An MSI-X table entry after reset: masked (log entry 41). -/
def MsixEntry.reset : MsixEntry := ⟨0, 0, true, false⟩

/-! ## Memory -/

/-- A line of the service cores' coherent caches: whether it is dirty, and its 64 bytes; none where the line is not cached (R24). -/
structure HartLine where
  dirty : Bool
  data : List (BitVec 8)
  deriving DecidableEq, Repr

/-- A line that no service core caches. -/
def HartLine.none : HartLine := ⟨false, []⟩

/-- A line of a memory-side cache (R255): its address in units of 128 bytes of the channel's data space with the
channel, and whether it is a KEEP line. The lines of a set stand with the most recent first. -/
structure CacheLine where
  channel : Nat
  line : Nat
  keep : Bool
  deriving DecidableEq, Repr

/-- An object of tier 3 (R258, Table 10-5): its catalogue entry, its bytes, and its weak units: the least read mode of
R259 that reads a unit (1 RETRY, 2 RECONSTRUCT, 3 none), the units in which transfers have placed trailers (R273), and how often
each unit has been rewritten to a fresh location (R259). -/
structure FlashObj where
  part : Nat
  type : Nat
  state : Nat
  length : Nat
  dtime : Nat
  units : Nat
  bytes : List Host.Cell
  weak : List (Nat × Nat)
  trailed : List Nat
  moves : List (Nat × Nat)
  deriving DecidableEq, Repr

/-- An object that is not in the catalogue. -/
def FlashObj.empty : FlashObj := ⟨0, 0, 0, 0, 0, 0, [], [], [], []⟩

/-! ## Links -/

/-- A port of Ergal (R330 to R333). Sending: the messages that wait, the one that is partly in flits with the slots it has
still to put, those wholly in flits with the SEQ of their last, the next SEQ, the unacknowledged flits (SEQ, body), those to
be sent again, the credits of VCs 0 to 4, the SEQ of the last NAK and the NAKs in a row for it, the DTIMEs of the replays of
the last second and of the last warning of them (R331). Receiving: the SEQ
last received in order, whether flits are discarded until it follows, whether a NAK is owed, the slots of a message that is
not whole yet, the slots to return, the flits since the last acknowledgement and its DTIME. `retrain` is the DTIME at which
a retraining began; `helloed` that the HELLO exchange of the bring-up has succeeded; `step` the step of Table 13-2 last
reached; `paused` the receive rings for which the port has paused a class of its peer (R339). -/
structure Port where
  txq : List Msg
  partly : Option (Nat × Msg)
  sent : List (Nat × Msg)
  seq : Nat
  replay : List (Nat × Nat)
  resend : List (Nat × Nat)
  credits : List Nat
  nakSeq : Nat
  nakRun : Nat
  replays : List Nat
  warnAt : Option Nat
  ack : Nat
  discarding : Bool
  owesNak : Bool
  rx : List Nat
  freed : List Nat
  sinceAck : Nat
  lastAck : Nat
  retrain : Option Nat
  helloed : Bool
  step : Nat
  paused : List Nat
  deriving DecidableEq, Repr

/-- A port after reset. The first data flit has SEQ 0. -/
def Port.reset : Port :=
  { txq := [], partly := none, sent := [], seq := 0, replay := [], resend := [], credits := [0, 0, 0, 0, 0], nakSeq := 0,
    nakRun := 0, replays := [], warnAt := none, ack := 4095, discarding := false,
    owesNak := false, rx := [], freed := [0, 0, 0, 0, 0], sinceAck := 0, lastAck := 0, retrain := none, helloed := false,
    step := 0, paused := [] }

/-- A view of which not every VIEW message has come (Table 13-5): its sender, kind, identifier, group and members so far. -/
structure ViewRx where
  src : Nat
  kind : Nat
  id : Nat
  group : Nat
  members : List Nat
  deriving DecidableEq, Repr

/-- What a chip holds of the membership protocol and of time beside its registers (R342 to R344): the pod view's members, a
head's pod views by manager, the DTIME of each peer's last heartbeat, the children, the views being received; the
correction of DTIME that is still to be slewed and the nanoseconds counted towards its next step, the last 16 offsets,
whether LNK_TIME_AHEAD has been raised. -/
structure Fellows where
  members : List Nat
  podViews : List (Nat × List Nat)
  heard : List (Nat × Nat)
  children : List Nat
  viewRx : List ViewRx
  slew : Int
  slewTicks : Nat
  offsets : List Int
  ahead : Bool
  deriving DecidableEq, Repr

/-- The membership state after reset. -/
def Fellows.reset : Fellows := ⟨[], [], [], [], [], 0, 0, [], false⟩

/-! ## Transfers -/

/-- The agents that make transfers (R269): a core channel, a chip channel, a piece of a layer of a feed, the recovery of
an object reading an alternate copy (R293), a partition's checkpoint capture (R188). -/
inductive Agent where
  | core (c k : Nat)
  | chip (n : Nat)
  | piece (f q j : Nat)
  | alternate (object : Nat)
  | capture (p : Nat)
  deriving DecidableEq, Repr

/-- A request to another chip that has no response yet (R335): its tag, the transfer it belongs to (agent and serial
number), the destination, its TYPE, its address or object offset, the bytes asked for or written, the place of a read's
data in the transfer's buffer, how many of its bytes have come, and its DTIME; its message while it still waits for receive
space for its response (R333). -/
structure Req where
  tag : Nat
  agent : Agent
  serial : Nat
  dst : Nat
  type : Nat
  addr : Nat
  bytes : Nat
  place : Nat
  got : Nat
  sent : Nat
  hold : Option Msg := none
  deriving DecidableEq, Repr

/-- A transfer (section 11.2): its agent, serial number, the token of its command or the number of its ring entry, the
address and the 64 bytes of its descriptor, the bytes or blocks moved, the bytes of the unit being read from another chip
with whether that read was asked for and the times it has failed its check, the last granule written as (address, bytes)
(R278), the object whose recovery holds it (R294), and the failure that a response brought. -/
structure Xfer where
  agent : Agent
  serial : Nat
  token : Nat
  da : Nat
  desc : Nat
  moved : Nat
  buf : List Host.Cell
  asked : Bool
  tries : Nat
  last : Option (Nat × List (BitVec 8))
  held : Option Nat
  failed : Option Nat
  deriving DecidableEq, Repr

/-- A channel beside its registers: the transfer it holds, the state that it paused from, whether PAUSE has been
written 0 while it was PAUSING (R279), and the status code of a transfer that has ended and whose ring entry or piece has
not been closed yet, with the entry. -/
structure Chan where
  xfer : Option Xfer
  prior : Nat
  unpause : Bool
  ended : Option (Nat × Xfer)
  deriving DecidableEq, Repr

/-- A channel after reset. -/
def Chan.reset : Chan := ⟨none, 0, false, none⟩

/-- A layer that a feed has started (R289): its sequence number, the pieces not completed, and the code of its failure. -/
structure Layer where
  q : Nat
  waiting : List Nat
  failed : Option Nat
  deriving DecidableEq, Repr

/-- A feed beside its registers (R287 to R292): the layers started, for each core the layer below which it has released
everything, and its last LFENCE layer; the starvation cycles of cores at layers not yet resident, as (core, layer, cycles) (R292). -/
structure Feed where
  layers : List Layer
  released : List (Nat × Nat)
  last : List (Nat × Nat)
  starve : List (Nat × Nat × Nat)
  deriving DecidableEq, Repr

/-- A feed after reset. -/
def Feed.reset : Feed := ⟨[], [], [], []⟩

/-- A release that an LFENCE owes (R291): core, feed, layer, and the tokens held at its issue whose commands
have not retired. -/
structure Fence where
  core : Nat
  feed : Nat
  q : Nat
  tokens : List Nat
  deriving DecidableEq, Repr

/-- A recovery of an object (R293 to R296): the partition, the units of the object that cannot be read, the DTIME at which
the hold began, the step of Table 11-9 in progress, the alternate copy in use, the bytes that have come from it with
whether a read of it failed, whether the driver has been asked and whether its units are there. -/
structure Recovery where
  object : Nat
  part : Nat
  units : List Nat
  start : Nat
  step : Nat
  alt : Nat
  buf : List Host.Cell
  altFailed : Bool
  asked : Bool
  supplied : Bool
  deriving DecidableEq, Repr

/-! ## Reductions and jobs -/

/-- A group view (R343): its GVIEW_ID, its members, in ascending identifier, and whether the group is complete. -/
structure GView where
  id : Nat
  members : List Nat
  complete : Bool
  deriving DecidableEq, Repr

/-- A reduction that this chip takes part in (R345 to R347): its partition, class (0 PROGRAM, 1 OPT, 2 PGV), RSEQ, group and
members; how many of its elements combine by addition, the others by maximum; the level reached and this chip's partial;
the words that have come from others, keyed by level and element (level 32 for the result); the DTIME of its start; and its
outcome: none while it runs, 0 for a result (then in `value`), or the reason for which it failed. -/
structure Red where
  part : Nat
  cls : Nat
  rseq : Nat
  group : Nat
  members : List Nat
  sums : Nat
  level : Nat
  value : List Nat
  got : List (Nat × Nat)
  start : Nat
  outcome : Option Nat
  deriving DecidableEq, Repr

/-- A partition's reduction ring beside its registers (R348): the entry it has taken, its number, whether its reduction has
started, and the code with which it failed before it did. -/
structure RedRing where
  entry : Option Nat
  index : Nat
  started : Bool
  failed : Option Nat
  deriving DecidableEq, Repr

/-- A reduction ring after reset. -/
def RedRing.reset : RedRing := ⟨none, 0, false, none⟩

/-- A checkpoint being captured or drained (R187 to R193): its step, its image as bytes with its length, the capture's DONE
vote once it has ended, whether a write to a buddy has failed, and its object in tier 3 once it has one, 0 before (R258). -/
structure Ckpt where
  step : Nat
  image : List Host.Cell
  length : Nat
  vote : Option Bool
  bad : Bool
  object : Nat
  deriving DecidableEq, Repr

/-- An END that drains its job (R323): the physical cores (die, slot) whose test at the job boundary fails, and whether a
function-level reset of a VF (1) or of the PF (2) asked for it. -/
structure Ending where
  fails : List (Nat × Nat)
  flr : Nat
  deriving DecidableEq, Repr

/-- The job of a partition beside its registers (chapters 6, 7 and 12), from its manifest: its source, shard, FP_INTERVAL,
claimed ports, feeds and trace space; the regions its load created; the step of a suspension in progress; the decision
pass in progress (step, and whether it is skipped); the plan last published; the step of the norm reduction in progress;
the checkpoint being captured or waiting for its vote, and the one being drained with the bytes read back; the objects of
drained images as (step, object); the fingerprint of the last round and the rounds with divergence in this interval; the
last complete checkpoint, if there is one; the step the job started at, the last whose decision pass has started, and the last
whose capture has; whether a checkpoint has completed since the chip was flagged; the step of the last
fingerprint round that has its result; an END in progress; whether the referee has restarted the job and will run it (R321); its manifest as a number; whether the chip's replacement stops the
job at the end of the step that runs (R135). -/
structure Job where
  loaded : Bool
  object : Nat
  source : Nat
  shard : Nat
  fpInterval : Nat
  ports : Nat
  feeds : Nat
  trace : Nat
  regions : List Nat
  keep : List Nat
  suspend : Option Nat
  pass : Option (Nat × Bool)
  plan : List Nat
  norm : Option Nat
  capture : Option Ckpt
  drain : Option Ckpt
  images : List (Nat × Nat)
  fingerprint : Option (Nat × Nat)
  diverged : Nat
  complete : Option Nat
  first : Nat
  passed : Option Nat
  captured : Option Nat
  flagDone : Bool
  fpDone : Option Nat
  ending : Option Ending
  autoRun : Bool
  manifest : Nat
  stopDue : Bool
  deriving DecidableEq, Repr

/-- A partition without a job. -/
def Job.empty : Job :=
  { loaded := false, object := 0, source := 0, shard := 0, fpInterval := 0, ports := 0, feeds := 0, trace := 0, regions := [],
    keep := [], suspend := none, pass := none, plan := [], norm := none, capture := none, drain := none, images := [],
    fingerprint := none, diverged := 0, complete := none, first := 0, passed := none, captured := none, flagDone := false, fpDone := none,
    ending := none, autoRun := false, manifest := 0, stopDue := false }

/-! ## Trace and debug -/

/-- A trace buffer beside its registers (R406, R408): the SEQUENCE of the next entry offered, and the entries still to be
written after its TRIGGER entry under CENTRE. -/
structure TraceBuf where
  seq : Nat
  post : Option Nat
  deriving DecidableEq, Repr

/-- A trace buffer after reset. -/
def TraceBuf.reset : TraceBuf := ⟨0, none⟩

/-- What the Debug Module of the harts holds of its system-bus access and its hart selection (R403): dmactive, the read and write
modes of sbcs with its access size and error, the address and the data; the hart array mask; dmcontrol's selection, data0 and
data1, cmderr, the program buffer; the harts that are halted, that halt after a reset, that have resumed, that have been reset,
and the halt group of each hart. -/
structure DebugModule where
  active : Bool
  readOnAddr : Bool
  access : Nat
  autoInc : Bool
  readOnData : Bool
  error : Nat
  addr : Nat
  data : Nat
  mask : Nat
  ctl : Nat
  args : Nat
  cmderr : Nat
  progbuf : List (Nat × Nat)
  halted : List Nat
  resetHalt : List Nat
  resumed : List Nat
  wasReset : List Nat
  groups : List (Nat × Nat)
  deriving DecidableEq, Repr

/-- The Debug Module after reset. -/
def DebugModule.reset : DebugModule := ⟨false, false, 2, false, false, 0, 0, 0, 0, 0, 0, 0, [], [], [], [], [], []⟩

/-- A write of a device agent to register space that is on its way to its register (R428): the partition it carries, the
BAR0 offset, how many bytes and their value. -/
structure Posted where
  part : Nat
  off : Nat
  size : Nat
  value : Nat
  deriving DecidableEq, Repr

/-! ## The referee (chapter 14) -/

/-- A platform event that the receiver has not acknowledged (R379): its identifier, its bytes as a number and how many, and
the times it has been sent again. -/
structure PldmEvent where
  id : Nat
  bytes : Nat
  len : Nat
  tries : Nat
  deriving DecidableEq, Repr

/-- The referee and the always-on island beside their registers. Power entry: whether the hot-swap controller is closed and
waits for power good, whether the referee rail is up. Boot: the DTIME at which it and its phase began, the phases' durations
in ms, the repairs (unit, action, detail), the self-test report and the attestation report as bytes. Firmware: the image in
the boot area, the running image, the push session's declared length, its staged bytes and the offsets (in units of 8 bytes)
staged, whether the boot area is being written with the path by which IMAGE_END came, and the source of a full reset that waits for that write. Fuses that no
register shows: ID_SEED, whether PROVISION is closed; VENDOR and the other fuses stand in their registers. The fault log's
last 256 records with the number ever written. Wedged blocks (chip block n, or 16 + 16 c + slot), the PERST_N input, whether it
has been released since input power, whether the PCIe link has trained, the function-level resets in progress, whether MD0 and
the NAND rails are down, THERMTRIP_N, the DTIME of the last DBG_PRIV of each identity, the mailbox interrupts owed (identity,
bit). MCTP: the terminus identifier, the event receiver, the events not acknowledged, the next event identifier; the slot
identifier, the dynamic address and the endpoint identifier. `plan` is the margin-plan record in the referee area of tier 3
(R398); `dugoutAt` the DTIME of the last entry into the dugout; `cut` the ports whose cable supply is cut (R425). -/
structure Referee where
  entry : Bool
  power : Bool
  bootAt : Nat
  phaseAt : Nat
  durations : List Nat
  repairs : List (Nat × Nat × Nat)
  report : List Host.Cell
  attest : List Host.Cell
  image : List Host.Cell
  running : List Host.Cell
  session : Option Nat
  staged : List Host.Cell
  stagedAt : List Nat
  writing : Bool
  endPath : Option ReqPath
  resetDue : Option Nat
  idSeed : Nat
  closed : Bool
  logCount : Nat
  log : List Event
  wedged : List Nat
  perst : Bool
  released : Bool
  linkUp : Bool
  flr : List Nat
  md0Off : Bool
  trip : Bool
  privAt : List (Nat × Nat)
  owed : List (Nat × Nat)
  tid : Nat
  receiver : Option Nat
  platform : List PldmEvent
  eventId : Nat
  slotId : Nat
  dynAddr : Option Nat
  eid : Nat
  plan : List Host.Cell
  dugoutAt : Nat
  cut : List Nat
  clkreq : Bool
  deriving DecidableEq, Repr

/-- The referee after reset: boot has begun (R352). -/
def Referee.reset : Referee :=
  { entry := true, power := true, bootAt := 0, phaseAt := 0, durations := [], repairs := [], report := [], attest := [],
    image := [], running := [], session := none, staged := [], stagedAt := [], writing := false, endPath := none, resetDue := none, idSeed := 0,
    closed := false, logCount := 0, log := [], wedged := [], perst := false, released := true, linkUp := false, flr := [],
    md0Off := false, trip := false, privAt := [], owed := [], tid := 0, receiver := none, platform := [], eventId := 0,
    slotId := 0x1F, dynAddr := none, eid := 0, plan := [], dugoutAt := 0, cut := [], clkreq := false }

/-! ## Power (chapter 15) -/

/-- A change of an island's point in progress (R384): the frequency point and the voltage point in force. They differ
between the two halves of a step. -/
structure Clock where
  freq : Nat
  volt : Nat
  deriving DecidableEq, Repr

/-- An island's clock after reset: point 15. -/
def Clock.reset : Clock := ⟨15, 15⟩

/-- The power, thermal and margin controllers beside their registers (R383 to R397): the samples of the current 100 µs as
(input W, package W), the comparisons in a row below 95% of the cap, the peak timer in samples, the samples in a row at or
below the cap, the binding cause last raised, the samples in a row with the input outside 38 to 62 V; for each island the
milliseconds in a row 3 °C below throttle, the thermal ceiling that XD, MD, LPDDR5X and NAND share with its milliseconds; the
milliseconds without a coolant condition and whether COOLANT_HIGH is active, the stacks with doubled refresh, the sensors above
their warning and their critical thresholds; the islands' clocks; the DTIME of the last re-plan, the reason of a request that
waits and of the re-plan that runs. -/
structure Power where
  samples : List (Nat × Nat)
  low : Nat
  peak : Nat
  calm : Nat
  cause : Option Nat
  outside : Nat
  cool : List (Nat × Nat)
  own : List (Nat × Nat)
  shared : Nat
  sharedCool : Nat
  coolant : Bool
  coolantOk : Nat
  doubled : List Nat
  warm : List Nat
  hot : List Nat
  clocks : List (Nat × Clock)
  planAt : Nat
  planAsk : Option Nat
  planRun : Option Nat
  deriving DecidableEq, Repr

/-- The controllers after reset. -/
def Power.reset : Power :=
  { samples := [], low := 0, peak := 0, calm := 0, cause := none, outside := 0, cool := [], own := [], shared := 0,
    sharedCool := 0, coolant := false, coolantOk := 0, doubled := [], warm := [], hot := [], clocks := [], planAt := 0,
    planAsk := none, planRun := none }

/-! ## Outcomes -/

/-- Why the block stops with a fault. The spec gives the block no undefined behaviour visible to software (R5), so no
command's meaning ends in one: the type is empty of reasons but for the one that names this. -/
inductive Fault where
  /-- Raised by no command. Safe: it is never answered. -/
  | none
  deriving DecidableEq, Repr

/-- Why the block refuses a command. -/
inductive Refusal where
  /-- The command has no meaning in this model; raised by an arm of the dispatch, with the row's mnemonic. Safe. -/
  | notModelled (mnemonic : String)
  deriving DecidableEq, Repr

/-! ## The state -/

/-- The state of the block. `freeCount` is the model's own: how many free values have been taken. `lines` is the service cores'
cache by line number (address / 64); `hartCsr` holds satp, vsatp and hgatp of the harts under 4096 * hart + number; `msix` the
MSI-X tables under 2048 * function + vector, `msixCtl` each function's MSI-X control (bit 0 enabled, bit 1 masked); `atsOn` the
functions whose ATS is enabled; `hartFull` the harts whose record ring holds 256 records not consumed, for which TAIL - HEAD is 0 (R238). -/
structure State where
  pending : List Instr
  dtime : Nat
  regs : List (Nat × Word)
  mem : List Host.Cell
  hostMem : List Host.Cell
  book : List (Nat × Entry)
  learned : List Learned
  benched : List (Nat × Nat)
  cores : List (Nat × Core)
  sync : List (Nat × SyncObj)
  waitOrder : Nat
  signals : List Signal
  dispatch : List SegRec
  segOrder : Nat
  streams : List (Nat × Stream)
  rings : List (Nat × EventRing)
  heads : List (Nat × HeadWait)
  haltAt : List (Nat × Nat)
  heldHeads : List Nat
  queues : List (Nat × Nat)
  atsOn : List Nat
  atc : List (Nat × Nat)
  lowPower : List Nat
  flags : List (Nat × Nat)
  out : List Output
  events : List Event
  bad : List (Nat × Bool)
  poison : List (Nat × Bool)
  cache : List (Nat × List CacheLine)
  watch : List (Nat × (Nat × Nat))
  flash : List (Nat × FlashObj)
  flashDown : List Nat
  ports : List (Nat × Port)
  inbox : List (Nat × Msg)
  fellows : Fellows
  pfc : List (Nat × Nat)
  reqs : List Req
  serial : Nat
  tag : Nat
  chans : List (Nat × Chan)
  feeds : List (Nat × Feed)
  fences : List Fence
  recoveries : List Recovery
  gviews : List (Nat × GView)
  reds : List Red
  redSeq : List (Nat × Nat)
  redRings : List (Nat × RedRing)
  jobs : List (Nat × Job)
  traceBufs : List (Nat × TraceBuf)
  traceTurn : List (Nat × Nat)
  dm : DebugModule
  posted : List Posted
  referee : Referee
  power : Power
  freeCount : Nat
  lines : List (Nat × HartLine)
  hartCsr : List (Nat × Nat)
  msix : List (Nat × MsixEntry)
  msixCtl : List (Nat × Nat)
  hartFull : List Nat
  deriving DecidableEq, Repr

/-- The state right after reset: every register at its reset value (no register is listed), memory with nothing
listed, every core reset, no command waiting. -/
def State.reset : State :=
  { pending := [], dtime := 0, regs := [], mem := [], hostMem := [], book := [], learned := [], benched := [], cores := [], sync := [], waitOrder := 0, signals := [],
    dispatch := [], segOrder := 0, streams := [], rings := [], heads := [], haltAt := [], heldHeads := [], queues := [], atsOn := [], atc := [], lowPower := [], flags := [], out := [],
    events := [],
    bad := [], poison := [], cache := [], watch := [], flash := [], flashDown := [], ports := [], inbox := [], fellows := Fellows.reset, pfc := [], reqs := [], serial := 0,
    tag := 0, chans := [], feeds := [], fences := [], recoveries := [], gviews := [], reds := [], redSeq := [], redRings := [], jobs := [],
    traceBufs := [], traceTurn := [], dm := DebugModule.reset, posted := [], referee := Referee.reset, power := Power.reset, freeCount := 0, lines := [], hartCsr := [], msix := [], msixCtl := [], hartFull := [] }

end Sys2Proof.Machine
end

