-- ==== Sys2Proof/Machine/Ops.lean ====
section
/-!
DEFINITION. The named operations that every meaning is built of: reading and writing register fields, counting, raising
events, reaching a core, reading and writing memory by chip-physical address (CPA).
-/
namespace Sys2Proof.Machine

/-- What `f` makes of a value, if there is one, else `go`: a command's refusal and what it does where nothing refuses it. -/
@[inline] def ifSome {α β : Type} (o : Option α) (f : α → β) (go : β) : β :=
  match o with
  | some x => f x
  | none => go

/-! ## Updates of one field -/

def State.setDtime (s : State) (x : Nat) : State := { s with dtime := x }
def State.setRegs (s : State) (x : List (Nat × Word)) : State := { s with regs := x }
def State.setMem (s : State) (x : List Host.Cell) : State := { s with mem := x }
def State.setBook (s : State) (x : List (Nat × Entry)) : State := { s with book := x }
def State.setLearned (s : State) (x : List Learned) : State := { s with learned := x }
def State.setBenched (s : State) (x : List (Nat × Nat)) : State := { s with benched := x }
def State.setSync (s : State) (x : List (Nat × SyncObj)) : State := { s with sync := x }
def State.setWaitOrder (s : State) (x : Nat) : State := { s with waitOrder := x }
def State.setSignals (s : State) (x : List Signal) : State := { s with signals := x }
def State.setDispatch (s : State) (x : List SegRec) : State := { s with dispatch := x }
def State.setSegOrder (s : State) (x : Nat) : State := { s with segOrder := x }
def State.setStreams (s : State) (x : List (Nat × Stream)) : State := { s with streams := x }
def State.setRings (s : State) (x : List (Nat × EventRing)) : State := { s with rings := x }
def State.setHeads (s : State) (x : List (Nat × HeadWait)) : State := { s with heads := x }
def State.setHaltAt (s : State) (x : List (Nat × Nat)) : State := { s with haltAt := x }
def State.setHeldHeads (s : State) (x : List Nat) : State := { s with heldHeads := x }
def State.setQueues (s : State) (x : List (Nat × Nat)) : State := { s with queues := x }
def State.setAtc (s : State) (x : List (Nat × Nat)) : State := { s with atc := x }
def State.setLowPower (s : State) (x : List Nat) : State := { s with lowPower := x }
def State.setFlags (s : State) (x : List (Nat × Nat)) : State := { s with flags := x }
def State.setOut (s : State) (x : List Output) : State := { s with out := x }
def State.setEvents (s : State) (x : List Event) : State := { s with events := x }
def State.setBad (s : State) (x : List (Nat × Bool)) : State := { s with bad := x }
def State.setPoison (s : State) (x : List (Nat × Bool)) : State := { s with poison := x }
def State.setCache (s : State) (x : List (Nat × List CacheLine)) : State := { s with cache := x }
def State.setWatch (s : State) (x : List (Nat × (Nat × Nat))) : State := { s with watch := x }
def State.setFlash (s : State) (x : List (Nat × FlashObj)) : State := { s with flash := x }
def State.setFlashDown (s : State) (x : List Nat) : State := { s with flashDown := x }
def State.setPorts (s : State) (x : List (Nat × Port)) : State := { s with ports := x }
def State.setInbox (s : State) (x : List (Nat × Msg)) : State := { s with inbox := x }
def State.setFellows (s : State) (x : Fellows) : State := { s with fellows := x }
def State.setPfc (s : State) (x : List (Nat × Nat)) : State := { s with pfc := x }
def State.setReqs (s : State) (x : List Req) : State := { s with reqs := x }
def State.setSerial (s : State) (x : Nat) : State := { s with serial := x }
def State.setTag (s : State) (x : Nat) : State := { s with tag := x }
def State.setChans (s : State) (x : List (Nat × Chan)) : State := { s with chans := x }
def State.setFeeds (s : State) (x : List (Nat × Feed)) : State := { s with feeds := x }
def State.setFences (s : State) (x : List Fence) : State := { s with fences := x }
def State.setRecoveries (s : State) (x : List Recovery) : State := { s with recoveries := x }
def State.setGviews (s : State) (x : List (Nat × GView)) : State := { s with gviews := x }
def State.setReds (s : State) (x : List Red) : State := { s with reds := x }
def State.setRedSeq (s : State) (x : List (Nat × Nat)) : State := { s with redSeq := x }
def State.setRedRings (s : State) (x : List (Nat × RedRing)) : State := { s with redRings := x }
def State.setJobs (s : State) (x : List (Nat × Job)) : State := { s with jobs := x }
def State.setTraceBufs (s : State) (x : List (Nat × TraceBuf)) : State := { s with traceBufs := x }
def State.setTraceTurn (s : State) (x : List (Nat × Nat)) : State := { s with traceTurn := x }
def State.setDm (s : State) (x : DebugModule) : State := { s with dm := x }
def State.setPosted (s : State) (x : List Posted) : State := { s with posted := x }
def State.setReferee (s : State) (x : Referee) : State := { s with referee := x }
def State.setPower (s : State) (x : Power) : State := { s with power := x }
def State.setFreeCount (s : State) (x : Nat) : State := { s with freeCount := x }
def State.setLines (s : State) (x : List (Nat × HartLine)) : State := { s with lines := x }
def State.setHartCsr (s : State) (x : List (Nat × Nat)) : State := { s with hartCsr := x }
def State.setMsix (s : State) (x : List (Nat × MsixEntry)) : State := { s with msix := x }
def State.setMsixCtl (s : State) (x : List (Nat × Nat)) : State := { s with msixCtl := x }
def State.setAtsOn (s : State) (x : List Nat) : State := { s with atsOn := x }
def State.setHartFull (s : State) (x : List Nat) : State := { s with hartFull := x }

/-! ## Registers -/

/-- The register at BAR0 offset `a`, as held. -/
def State.reg (s : State) (a : Nat) : Word := Sparse.get (regReset a) s.regs a

/-- The state with the register at BAR0 offset `a` holding `v`. -/
def State.setReg (s : State) (a : Nat) (v : Word) : State :=
  { s with regs := Sparse.put (regReset a) a v s.regs }

/-- A field of a register. -/
def State.rd (s : State) (f : RF) : Nat := (s.reg f.reg).field f.lo f.w

/-- A one-bit field of a register. -/
def State.rdBit (s : State) (f : RF) : Bool := decide (s.rd f = 1)

/-- The state with one field of a register replaced. -/
def State.wr (s : State) (f : RF) (v : Nat) : State :=
  s.setReg f.reg ((s.reg f.reg).setField f.lo f.w v)

/-- 1 for true, 0 for false. -/
def flag (b : Bool) : Nat := if b then 1 else 0

/-! ## Events -/

/-- A payload of 16 bytes from its named fields (byte offset in the record, bytes, value); bytes that no field names
are 0 (R34). -/
def payload : List (Nat × Nat × Nat) → Nat
  | [] => 0
  | (off, n, v) :: t => (v % 256 ^ n) * 256 ^ (off - 16) + payload t

/-- The state after an event with the given severity. -/
def State.raiseAs (s : State) (code : Code) (sev unit part : Nat) (pay : Nat) : State :=
  { s with events := s.events ++ [⟨s.dtime, code.val, unit, part, sev, pay⟩] }

/-- The state after an event with its code's own severity. -/
def State.raise (s : State) (code : Code) (unit part : Nat) (pay : Nat) : State :=
  s.raiseAs code code.sev unit part pay

/-- The partition field of an event that no partition caused (Table 1-8). -/
def noPart : Nat := 0xFF

/-- Unit identifiers (R35, Table 1-9). -/
def unitId (die unit engine : Nat) : Nat := die * 4096 + unit * 64 + engine

def unitPcie : Nat := unitId 8 0 0
def unitReferee : Nat := unitId 8 1 0
def unitMailbox (ch : Nat) : Nat := unitId 8 2 ch
def unitGovernor : Nat := unitId 8 25 0
def unitDie (die sub : Nat) : Nat := unitId die 63 sub

/-- The unit identifier of the location of sensor `n` (Table 15-3, Table 1-9). -/
def sensorUnit (n : Nat) : Nat :=
  if n < 320 then unitDie (n / 40) (n % 40)
  else if n < 448 then
    let st := (n - 320) / 8
    unitId (st / 2) (48 + st % 2) 0
  else if n < 480 then unitDie (8 + (n - 448) / 16) (n % 16)
  else if n < 544 then unitDie (12 + (n - 480) / 16) (n % 16)
  else if n < 576 then unitId (12 + (n - 544) / 8) (n % 8) 0
  else if n < 592 then unitId (12 + (n - 576) / 4) (8 + n % 4) 0
  else if n < 624 then unitDie ((n - 592) / 4) (40 + n % 4)
  else unitDie 8 (n - 608)

def unitPort (port lane : Nat) : Nat := unitId (8 + port / 9) (8 + port % 9) lane
def unitChipChannel (n : Nat) : Nat := unitId (n / 8) 52 (n % 8)

/-- The severities of Table 1-10. -/
def sevInfo : Nat := 0
def sevNotice : Nat := 1
def sevRecovered : Nat := 2
def sevFailed : Nat := 3
def sevFatal : Nat := 4

/-! ## Free values -/

/-- A value that the spec does not state: nothing constrains it. -/
def State.fresh (s : State) : BitVec 64 × State :=
  (Config.freeWord s.freeCount, { s with freeCount := s.freeCount + 1 })

/-! ## Cores -/

/-- The core with architectural number `c`. -/
def State.core (s : State) (c : Nat) : Core := Sparse.get Core.reset s.cores c

/-- The state with core `c` replaced. -/
def State.setCore (s : State) (c : Nat) (k : Core) : State :=
  { s with cores := Sparse.put Core.reset c k s.cores }

/-- The state with core `c` changed by `f`. -/
def State.modCore (s : State) (c : Nat) (f : Core → Core) : State := s.setCore c (f (s.core c))

/-- The die of the physical core that serves architectural number `c`. -/
def State.coreDie (s : State) (c : Nat) : Nat := s.rd (.pmkCoreIdentDie c)

/-- The unit identifier of an engine of core `c`: it carries the physical slot (R35). -/
def State.unitCore (s : State) (c engine : Nat) : Nat :=
  unitId (s.coreDie c) (s.rd (.pmkCoreIdentPhysSlot c)) engine

/-- The partition that an event of core `c` carries (R301). -/
def State.corePart (s : State) (c : Nat) : Nat :=
  match (s.core c).part with
  | some p => p
  | none => noPart

/-- Engine numbers (Table 1-5). -/
def engPmk : Nat := 0
def engArr : Nat := 1
def engBook : Nat := 2
def engCnv : Nat := 3
def engVec : Nat := 4
def engOut : Nat := 5
def engXfm : Nat := 6
def engSta : Nat := 7
def engUmp : Nat := 8
def engDma (k : Nat) : Nat := 9 + k
def engStore : Nat := 13

/-- The state after an event of an engine of core `c`. -/
def State.raiseCore (s : State) (code : Code) (c engine : Nat) (pay : Nat) : State :=
  s.raise code (s.unitCore c engine) (s.corePart c) pay

/-! ## Counters -/

/-- The largest count of a 48-bit counter (R413). -/
def countMax : Nat := 0xFFFFFFFFFFFF

/-- The engine whose counters stand in slot `k` of a core's register block (R8, Table 1-5). -/
def slotEngine (k : Nat) : Nat := [1, 3, 4, 5, 6, 7, 8, 0].getD k (engDma 0)

/-- The unit and the partition that DBG_COUNTER_SAT carries for the counter at BAR0 offset `a` (R417): the engine of the
core whose block holds it, or die 8, unit 1 for a chip block. -/
def State.counterUnit (s : State) (a : Nat) : Nat × Nat :=
  if a < 0x2000000 then (unitReferee, noPart)
  else
    let c := (a - 0x2000000) / 0x20000
    let o := (a - 0x2000000) % 0x20000
    (s.unitCore c (if o < 0x10000 then slotEngine (o / 0x2000) else engDma ((o - 0x10000) / 0x100)), s.corePart c)

/-- `n` added to the counter register at `a`: a result above the limit stays there, sets SAT, and the first time raises
DBG_COUNTER_SAT (R413). -/
def State.count (s : State) (a n : Nat) : State :=
  let c := (s.reg a).field 0 48
  let sat := (s.reg a).field 63 1
  if sat = 1 then s
  else if c + n < countMax then s.wr ⟨a, 0, 48⟩ (c + n)
  else
    let u := s.counterUnit a
    ((s.wr ⟨a, 0, 48⟩ countMax).wr ⟨a, 63, 1⟩ 1).raise .dbgCounterSat u.1 u.2 (payload [(16, 8, a)])

/-! ## Message-signalled interrupts (R313) -/

/-- Entry `v` of the MSI-X table of function `fn`. -/
def State.msixEntry (s : State) (fn v : Nat) : MsixEntry := Sparse.get MsixEntry.reset s.msix (2048 * fn + v)

/-- The state with entry `v` of the MSI-X table of function `fn` replaced. -/
def State.putMsix (s : State) (fn v : Nat) (e : MsixEntry) : State :=
  s.setMsix (Sparse.put MsixEntry.reset (2048 * fn + v) e s.msix)

/-- The state after vector `v` of function `fn` has been asked for, by the rules of the PCI Express specification: the message of
its entry goes out; it is pending where the entry or the function is masked; nothing happens while MSI-X is not enabled. -/
def State.sendMsix (s : State) (fn v : Nat) : State :=
  let c := Sparse.get 0 s.msixCtl fn
  let e := s.msixEntry fn v
  if c % 2 = 0 then s
  else if decide (c / 2 % 2 = 1) || e.masked then s.putMsix fn v { e with pending := true }
  else s.setOut (s.out ++ [Output.msix fn v e.addr e.data])

/-- The state after the pending messages of function `fn` that are masked no longer have gone out. -/
def State.sendPending (s : State) (fn : Nat) : State :=
  let c := Sparse.get 0 s.msixCtl fn
  if c ≠ 1 then s
  else
    let due := s.msix.filter (fun p => decide (p.1 / 2048 = fn) && p.2.pending && !p.2.masked)
    due.foldl (fun s p => (s.putMsix fn (p.1 % 2048) { p.2 with pending := false }).sendMsix fn (p.1 % 2048)) s

/-! ## Accesses through a BAR (R298, R353, R358) -/

/-- The state after a request that the device answers with Unsupported Request (R299). -/
def State.unsupportedRequest (s : State) : State := ((s.count (Reg.hifCnt 0) 1).setOut (s.out ++ [Output.unsupported]))

/-- The state after an access that boot or the dugout answers with nothing: counted before READY, not in the dugout. -/
def State.gateCount (s : State) : State := if s.rdBit .refReadyDugout then s else s.count (Reg.hifCnt 0) 1

/-- Does an access of BAR0 reach no register: one of the physical function in D3hot, or one before READY or in the dugout? -/
def State.barShut (s : State) (pf : Bool) : Bool := (pf && s.lowPower.contains 0) || !(s.rdBit .refReadyReady)

/-- The state after such an access. -/
def State.barAnswer (s : State) (pf : Bool) : State := if pf && s.lowPower.contains 0 then s.unsupportedRequest else s.gateCount

/-! ## Chip-physical addresses (R25 to R28) -/

/-- The size of a core store (Table 0-1). -/
def storeSize : Nat := 0xC00000

/-- The number of scorebook entries of a core. -/
def bookSize : Nat := 524288

/-- The CPA at which the window of core `c` starts (R26). -/
def coreWindow (c : Nat) : Nat := 0x0E0000000000 + c * 0x1000000

/-- The CPA of register space (R8). -/
def regSpace : Nat := 0x0F0000000000

/-- The areas of the address map (Table 1-6, R26). -/
inductive Area where
  | tier1
  | tier2
  | store (c : Nat)
  | book (c : Nat)
  | register (off : Nat)
  | reserved
  deriving DecidableEq, Repr

/-- The area that a CPA lies in (Table 1-6, R26); the reserved part of a core window is reserved. -/
def areaOf (a : Nat) : Area :=
  if a < 0x010000000000 then .tier1
  else if a < 0x030000000000 then .tier2
  else if a < 0x0E0000000000 then .reserved
  else if a < 0x0E0100000000 then
    let c := (a - 0x0E0000000000) / 0x1000000
    let o := a % 0x1000000
    if o < storeSize then .store c else if o < 0xE00000 then .book c else .reserved
  else if a < regSpace then .reserved
  else if a < regSpace + 0x4000000 then .register (a - regSpace)
  else .reserved

/-- The key of entry `k` of core `c` in the store of scorebook entries. -/
def bookKey (c k : Nat) : Nat := c * bookSize + k

/-- A scorebook entry after core reset: +0, not tagged (R91). -/
def Entry.reset : Entry := ⟨0, 0⟩

/-- Entry `k` of core `c`. -/
def State.entry (s : State) (c k : Nat) : Entry := Sparse.get Entry.reset s.book (bookKey c k)

/-- The state with entry `k` of core `c` replaced. -/
def State.setEntry (s : State) (c k : Nat) (e : Entry) : State :=
  { s with book := Sparse.put Entry.reset (bookKey c k) e s.book }

/-! ## Memory -/

/-- One byte of the chip's memory; a scorebook byte is a byte of its entry's value (R26). -/
def State.byte (s : State) (a : Nat) : BitVec 8 :=
  match areaOf a with
  | .book c => BitVec.ofNat 8 ((s.entry c ((a % 0x1000000 - storeSize) / 4)).val >>> (8 * (a % 4)))
  | _ => Mem.read s.mem a

/-- The state with one byte of memory written. A write into the scorebook sets TAGGED to 0 (R94). -/
def State.setByte (s : State) (a : Nat) (b : BitVec 8) : State :=
  match areaOf a with
  | .book c =>
    let k := (a % 0x1000000 - storeSize) / 4
    let e := s.entry c k
    s.setEntry c k ⟨putBits e.val (8 * (a % 4)) 8 b.toNat, e.tag % 256⟩
  | _ => { s with mem := Mem.write s.mem a b }

/-- The number in the `n` bytes from `a` up (R1). -/
def State.memNat (s : State) (a : Nat) : Nat → Nat
  | 0 => 0
  | n + 1 => (s.byte a).toNat + 256 * State.memNat s (a + 1) n

/-- The `n` bytes from `a` up. -/
def State.bytes (s : State) (a : Nat) : Nat → List (BitVec 8)
  | 0 => []
  | n + 1 => s.byte a :: State.bytes s (a + 1) n

/-- The state with a row of bytes written from `a` up. -/
def State.setBytes (s : State) (a : Nat) : List (BitVec 8) → State
  | [] => s
  | b :: t => State.setBytes (s.setByte a b) (a + 1) t

/-- The state with the number `v` in the `n` bytes from `a` up. -/
def State.setNat (s : State) (a n v : Nat) : State := s.setBytes a (bytesOfNat n v)

/-- The key of byte `a` of the host memory that a request names: without a PASID (`space` 0), or with PASID `space` - 1, each of which
has an address space of its own (R298, R308; log entry 55). -/
def hostKey (space a : Nat) : Nat := space * 2 ^ 64 + a

/-- The number in the `n` bytes of host memory from `a` up. -/
def State.hostNat (s : State) (a n : Nat) : Nat := natOfBytes (Mem.readBytes s.hostMem a n)

/-- The state with a row of bytes of host memory written. -/
def State.setHostBytes (s : State) (a : Nat) (bs : List (BitVec 8)) : State :=
  { s with hostMem := Mem.writeBytes s.hostMem a bs }

/-- Is a byte from `a` up, of `n`, marked in the store of marks `m`? -/
def anyMarked (m : List (Nat × Bool)) (a n : Nat) : Bool :=
  m.any (fun p => p.2 && decide (a ≤ p.1 ∧ p.1 < a + n))

/-- The state with the parity marks of `n` bytes from `a` up gone: they were replaced by bytes of good parity (R121). -/
def State.clearBad (s : State) (a n : Nat) : State :=
  { s with bad := s.bad.filter (fun p => decide (p.1 < a ∨ a + n ≤ p.1)) }

/-- The state whose memory keeps the bytes of some addresses; the others read as unlisted ones. -/
def State.keepMem (s : State) (keep : Nat → Bool) : State := s.setMem (s.mem.filter (fun c => keep c.1))

end Sys2Proof.Machine
end

