-- ==== Sys2Proof/Machine/Route.lean ====
section
/-!
DEFINITION. The sending of messages over Ergal links: virtual channels, routes, and the requests that wait for a response
(R332 to R335).
-/
namespace Sys2Proof.Machine

/-- The unit of membership, time and reduction events (R349). -/
def unitLink : Nat := unitId 8 24 0

/-- The chip's own identifier (R29). -/
def State.chipId (s : State) : Nat := s.rd .lnkIdentChipId

/-- Does a chip identifier of a global address name this chip (R29, R271)? -/
def State.isLocal (s : State) (chip : Nat) : Bool := decide (chip = 0xFFFF ∨ chip = s.chipId)

/-- Port `n`. -/
def State.port (s : State) (n : Nat) : Port := Sparse.get Port.reset s.ports n
def State.modPort (s : State) (n : Nat) (f : Port → Port) : State :=
  (s.setPorts (Sparse.put Port.reset n (f (s.port n)) s.ports))

/-- The virtual channel of a message type (Table 13-5). -/
def msgVc (t : Nat) : Nat :=
  if t < 0x20 then 0 else if t < 0x30 then 1 else if t = 0x30 then 2 else if t < 0x50 then 3 else 4

/-- The types of Table 13-5 but CREDIT. -/
def msgKnown (t : Nat) : Bool :=
  [0x10, 0x11, 0x12, 0x13, 0x20, 0x21, 0x22, 0x30, 0x40, 0x41, 0x50, 0x51, 0x52, 0x53, 0x54].contains t

/-- The slots of a message (R332). -/
def Msg.slotCount (m : Msg) : Nat := 1 + 2 * m.len

/-- The header of a message as a number of 16 bytes (Table 13-4), and its slots. -/
def Msg.header (m : Msg) : Nat :=
  m.type % 256 + (m.len % 32 + m.hops % 8 * 32) * 2 ^ 8 + (m.dst % 65536) * 2 ^ 16 + (m.src % 65536) * 2 ^ 32 +
    (m.tag % 65536) * 2 ^ 48 + (m.arg % 2 ^ 64) * 2 ^ 64
def Msg.toSlots (m : Msg) : List Nat := m.header :: (List.range (2 * m.len)).map (fun i => bitsAt m.data (128 * i) 128)

/-- What the hash of R334 takes of a message's destination: the 4 KiB page, the object or the reduction. -/
def Msg.routeKey (m : Msg) : Nat :=
  if m.type < 0x13 then bitsAt m.arg 0 48 / 4096 else if m.type = 0x30 then bitsAt m.arg 0 16 else m.arg

/-- Is port `n` UP as an Ergal port? -/
def State.portUp (s : State) (n : Nat) : Bool :=
  decide (s.rd (.lnkPortStatusState n) = 6 ∧ s.rd (.lnkPortCtrlMode n) = 0)

/-- Does port `n` take messages: is it UP, or does it retrain, keeping what it has to send (R331)? -/
def State.portTakes (s : State) (n : Nat) : Bool := s.portUp n || (s.port n).retrain.isSome

/-- The ports that a message to chip `d` may leave by: those of a valid route that take messages. -/
def State.routePorts (s : State) (d : Nat) : List Nat :=
  if s.rdBit (.lnkRouteValid d) then
    (List.range 18).filter (fun n => bitAt (s.rd (.lnkRoutePorts d)) n && s.portTakes n)
  else []

/-- The state after LNK_UNREACHABLE for a message that is dropped where it stands (R335). -/
def State.unreachable (s : State) (sev part : Nat) (m : Msg) : State :=
  s.raiseAs .lnkUnreachable sev unitLink part (payload [(16, 2, m.dst), (18, 1, m.type), (19, 1, m.hops)])

/-- Can a message leave this chip (R334, R335)? -/
def State.canRoute (s : State) (m : Msg) : Bool := decide (m.hops < 5) && decide (s.routePorts m.dst ≠ [])

/-- The state with a message in the queue of the port that the hash of R334 chooses; `unit` is its source unit. -/
def State.enqueueMsg (s : State) (unit : Nat) (m : Msg) : State :=
  let l := s.routePorts m.dst
  let n := l.getD (Config.routeHash m.src unit m.routeKey % l.length) 0
  s.modPort n (fun p => { p with txq := p.txq ++ [{ m with unit := unit }] })

/-- The state after a message of this chip has been sent, or dropped with LNK_UNREACHABLE. -/
def State.sendMsg (s : State) (unit sev part : Nat) (m : Msg) : State :=
  if s.canRoute m then s.enqueueMsg unit m else s.unreachable sev part m

/-- A message of this chip. -/
def State.message (s : State) (type len dst tag arg data : Nat) : Msg :=
  { type := type, len := len, hops := 0, dst := dst, src := s.chipId, tag := tag, arg := arg, data := data }

/-! ## Requests -/

/-- The receive slots that the response to a request needs: RD_RSP with its data in units of 32 bytes, at most 16 a message; the
8 RD_RSP of 16 units of OBJ_RD_REQ; WR_ACK. ERR_RSP needs no more. -/
def Req.slots (r : Req) : Nat :=
  if r.type = 0x10 then 1 + 2 * max 1 (ceilDiv r.bytes 32) else if r.type = 0x13 then 264 else 1

/-- The receive slots reserved for responses (R333): no more than a port's 4,096 slots of RSP, whichever port they come in at. -/
def State.reservedSlots (s : State) : Nat := ((s.reqs.filter (fun r => r.hold.isNone)).map Req.slots).foldl (· + ·) 0
def State.rspRoom (s : State) (r : Req) : Bool := decide (s.reservedSlots + r.slots ≤ 4096)

/-- The state after a request has been made: it is sent, once receive space for its response is reserved (R333), and waits for
that under a tag of its own. -/
def State.request (s : State) (unit : Nat) (r : Req) (len arg data : Nat) : State :=
  let t := s.tag % 65536
  let r := { r with tag := t, sent := s.dtime }
  let m := s.message r.type len r.dst t arg data
  let s := s.setTag (s.tag + 1)
  if s.rspRoom r && s.reqs.all (fun q => q.hold.isNone) then (s.setReqs (s.reqs ++ [r])).enqueueMsg unit m
  else s.setReqs (s.reqs ++ [{ r with hold := some { m with unit := unit } }])

end Sys2Proof.Machine
end

