-- ==== Sys2Proof/Machine/Operands.lean ====
section
/-!
DEFINITION. The operand forms: the command header (Tables 8-2 to 8-4), the tensor descriptor (Table 2-4) and its
validity (Table 2-5), the footprint of a tensor and the place of its elements, scales and trailers (R63 to R65, R69).
-/
namespace Sys2Proof.Machine

/-! ## The 64-byte command -/

/-- The field of `n` bytes at byte `b` of a command, descriptor or record held as a number. -/
def bytesAt (w b n : Nat) : Nat := bitsAt w (8 * b) (8 * n)

/-- Are the bits [hi:lo] at byte `b` of a command zero? -/
def zeroAt (w b lo n : Nat) : Bool := decide (bitsAt w (8 * b + lo) n = 0)

/-- The header of a command (Table 8-2). -/
def cmdOpcode (w : Nat) : Nat := bytesAt w 0 1
def cmdEngine (w : Nat) : Nat := bitsAt w 8 6
def cmdToken (w : Nat) : Nat := bitsAt w 16 6
def cmdBrk (w : Nat) : Bool := bitAt w 24
def cmdTimeout (w : Nat) : Nat := bitsAt w 25 4
def cmdEpoch (w : Nat) : Nat := bytesAt w 4 4

/-- The command with its EPOCH field written (R205). -/
def cmdSetEpoch (w e : Nat) : Nat := putBits w 32 32 e

/-- Wait entry `n` of a command: (INDEX, KIND, reserved bits) (Table 8-3). -/
def cmdWait (w n : Nat) : Nat × Nat × Nat :=
  let x := bytesAt w (8 + 3 * n) 3
  (bitsAt x 0 16, bitsAt x 16 2, bitsAt x 18 6)

/-- A signal entry: object, chip, kind, reserved bits (Table 8-4). -/
structure SignalEntry where
  object : Nat
  chip : Nat
  kind : Nat
  rsv : Nat
  deriving DecidableEq, Repr

/-- The signal entry in a 6-byte field. -/
def signalEntry (x : Nat) : SignalEntry := ⟨bitsAt x 0 16, bitsAt x 16 16, bitsAt x 32 2, bitsAt x 34 14⟩

/-- Signal entry `n` of a command. -/
def cmdSignal (w n : Nat) : SignalEntry := signalEntry (bytesAt w (20 + 6 * n) 6)

/-! ## The tensor descriptor -/

/-- A tensor descriptor (Table 2-4). -/
structure Desc where
  base : Nat
  scaleBase : Nat
  trailerBase : Nat
  tensorId : Nat
  blockIdBase : Nat
  stride : List Nat
  dim : List Nat
  format : Nat
  scaleCtrl : Nat
  convCtrl : Nat
  rsv : Nat
  deriving DecidableEq, Repr

/-- The descriptor in 64 bytes held as a number (Table 2-4). -/
def Desc.ofNat (w : Nat) : Desc :=
  { base := bytesAt w 0 8, scaleBase := bytesAt w 8 6, trailerBase := bytesAt w 14 6, tensorId := bytesAt w 20 4,
    blockIdBase := bytesAt w 24 4, stride := (List.range 4).map (fun i => bytesAt w (28 + 4 * i) 4),
    dim := (List.range 5).map (fun i => bytesAt w (44 + 3 * i) 3), format := bytesAt w 59 1,
    scaleCtrl := bytesAt w 60 1, convCtrl := bytesAt w 61 1, rsv := bytesAt w 62 2 }

def Desc.dimAt (d : Desc) (i : Nat) : Nat := d.dim.getD i 1
/-- The stride of dimension `i`, from 1 to 4, in units of 16 bytes. -/
def Desc.strideAt (d : Desc) (i : Nat) : Nat := d.stride.getD (i - 1) 0

/-- The format that the descriptor names; a reserved code reads as ZF32 and is refused by reason 0x01. -/
def Desc.fmt (d : Desc) : Fmt := (Fmt.ofCode d.format).getD .zf32

/-- The fields of SCALE_CTRL (Table 2-4). -/
def Desc.mode (d : Desc) : ScaleMode :=
  match d.scaleCtrl % 4 with
  | 0 => .none
  | 1 => .live
  | 2 => .hist
  | _ => .expand
def Desc.group (d : Desc) : Nat := 16 * pow2 (bitsAt d.scaleCtrl 2 2)
def Desc.axis (d : Desc) : Nat := bitsAt d.scaleCtrl 4 3
def Desc.tableForm (d : Desc) : Bool := bitAt d.scaleCtrl 7

/-- CONV_CTRL [0]: stochastic rounding. -/
def Desc.stochastic (d : Desc) : Bool := bitAt d.convCtrl 0

/-- The number of elements, and of rows (all indices but i0). -/
def Desc.elements (d : Desc) : Nat := d.dim.foldl (· * ·) 1
def Desc.rows (d : Desc) : Nat := d.elements / d.dimAt 0

/-- The footprint in bytes and in 4 KiB blocks (R64). -/
def Desc.footprint (d : Desc) : Nat := d.strideAt 4 * 16 * d.dimAt 4
def Desc.nblk (d : Desc) : Nat := ceilDiv d.footprint 4096

/-- The number of entries of the scale array, one for each group (R50). -/
def Desc.scaleEntries (d : Desc) : Nat :=
  if d.mode = .none then 0 else d.elements / d.group

/-- The bytes of one entry of the scale array: a ZS8 code, an affine record, or a table (R50, R56). -/
def Desc.scaleEntryBytes (d : Desc) : Nat :=
  if d.mode = .expand then (if d.tableForm then 32 else 4) else 1

/-- The bytes of the scale array before its first entry (R69). -/
def Desc.scaleHead (d : Desc) : Nat := if d.mode = .hist then 16 else 0

/-- The bytes of the scale array, and its blocks NSB (R64). -/
def Desc.scaleBytes (d : Desc) : Nat :=
  if d.mode = .none then 0 else d.scaleHead + d.scaleEntries * d.scaleEntryBytes
def Desc.nsb (d : Desc) : Nat := ceilDiv d.scaleBytes 4096

/-- The format code that a trailer carries: the descriptor's for payload blocks, the scale format for scale blocks
(Table 2-3). -/
def Desc.trailerFormat (d : Desc) (t : Nat) : Nat :=
  if t < d.nblk then d.format
  else if d.mode = .expand then (if d.tableForm then 0x0E else 0x0D) else 0x0B

/-- The CPA of BASE, and of the block with trailer index `t`, and of its trailer (R64, R65). -/
def Desc.cpa (d : Desc) : Nat := d.base % 2 ^ 48
def Desc.blockAddr (d : Desc) (t : Nat) : Nat :=
  if t < d.nblk then d.cpa + 4096 * t else d.scaleBase + 4096 * (t - d.nblk)
def Desc.trailerAddr (d : Desc) (t : Nat) : Nat := d.trailerBase + 16 * t

/-- The indices of linear row `r`, i1 fastest, as (i1, i2, i3, i4). -/
def Desc.rowIndices (d : Desc) (r : Nat) : List Nat :=
  let r2 := r / d.dimAt 1
  let r3 := r2 / d.dimAt 2
  let r4 := r3 / d.dimAt 3
  [r % d.dimAt 1, r2 % d.dimAt 2, r3 % d.dimAt 3, r4]

/-- The byte offset of linear row `r` from BASE (R64). -/
def Desc.rowOffset (d : Desc) (r : Nat) : Nat :=
  16 * ((d.rowIndices r).zipWith (· * ·) d.stride).foldl (· + ·) 0

/-- The linear index of element `i0` of linear row `r` (R63). -/
def Desc.linear (d : Desc) (r i0 : Nat) : Nat := i0 + d.dimAt 0 * r

/-- The index in the scale array of the group of element `i0` of linear row `r` (R50): the linear index in the shape
with DIM_a replaced by DIM_a / G. -/
def Desc.scaleIndex (d : Desc) (r i0 : Nat) : Nat :=
  let idx := i0 :: d.rowIndices r
  let a := d.axis
  let dims := d.dim.mapIdx (fun j x => if j = a then x / d.group else x)
  let idx := idx.mapIdx (fun j x => if j = a then x / d.group else x)
  (idx.zip dims).foldr (fun p acc => p.1 + p.2 * acc) 0

/-- The address of entry `j` of the scale array (R50, R69). -/
def Desc.scaleAddr (d : Desc) (j : Nat) : Nat := d.scaleBase + d.scaleHead + j * d.scaleEntryBytes

/-- Does the format or its use permit what the descriptor asks (reason 0x04 of Table 2-5)? -/
def Desc.strideBad (d : Desc) : Bool :=
  decide (d.strideAt 1 * 16 < ceilDiv (d.fmt.bits * d.dimAt 0) 8) ||
  (List.range 3).any (fun k => decide (d.strideAt (k + 2) < d.strideAt (k + 1) * d.dimAt (k + 1)))

/-- Is a ZF32 code a finite positive normal number? -/
def posNormal (x : Nat) : Bool := decide (x < 2 ^ 31 ∧ 0 < bitsAt x 23 8 ∧ bitsAt x 23 8 < 255)

/-- Is a ZF32 code finite and positive, or +infinity (the thresholds of outlier lists, Table 4-5)? -/
def posOrInf (x : Nat) : Bool := decide (0 < x ∧ x ≤ 0x7F800000)

/-- The first failing cause of Table 2-5, in the order of its reason codes; `store` when the command stores to the
tensor, `t` the ZF32 word at SCALE_BASE (R431). -/
def Desc.invalid (d : Desc) (store : Bool) (t : Nat) : Option Nat :=
  let m := d.mode
  let scaled := decide (m ≠ .none)
  if (Fmt.ofCode d.format).isNone then some 0x01
  else if decide (d.base % 4096 ≠ 0) || decide (d.scaleBase % 4096 ≠ 0) || decide (d.trailerBase % 16 ≠ 0) then
    some 0x02
  else if d.dim.any (fun x => decide (x = 0)) then some 0x03
  else if d.strideBad then some 0x04
  else if scaled && (decide (d.axis > 4) || decide (d.dimAt d.axis % d.group ≠ 0)) then some 0x05
  else if !(d.fmt.permits m (decide (m = .expand) && d.tableForm)) then some 0x06
  else if store && (decide (d.fmt = .z32a ∨ d.fmt = .zs8 ∨ d.fmt = .affine ∨ d.fmt = .lut) || decide (m = .expand))
    then some 0x07
  else if decide (d.rsv ≠ 0) || decide (bitsAt d.convCtrl 3 5 ≠ 0) ||
      (decide (m = .none) && (decide (d.scaleCtrl / 4 ≠ 0) || decide (d.scaleBase ≠ 0))) ||
      (decide (m = .live ∨ m = .hist) && d.tableForm) then some 0x08
  else if decide (m = .hist) && !posNormal t then some 0x09
  else none

/-- The descriptor at CPA `a`. -/
def State.desc (s : State) (a : Nat) : Desc := Desc.ofNat (s.memNat a 64)

/-- The ZF32 word at SCALE_BASE of a HIST tensor (R69). -/
def State.histT (s : State) (d : Desc) : Nat := s.memNat d.scaleBase 4

/-- The validity of the descriptor at CPA `a` (R68, R431). -/
def State.descInvalid (s : State) (a : Nat) (store : Bool) : Option Nat :=
  (s.desc a).invalid store (s.histT (s.desc a))

/-- The tensor scale T as m * 2^e: 1 unless the mode is HIST (R50, R69). -/
def State.tensorScale (s : State) (d : Desc) : Nat × Int :=
  if d.mode = .hist then
    match zf32 (s.histT d) with
    | .fin _ m e => (m, e)
    | _ => (1, 0)
  else (1, 0)

/-- Does the byte range lie wholly within the core store of core `c`? -/
def inStore (c a n : Nat) : Bool := decide (coreWindow c ≤ a ∧ a + n ≤ coreWindow c + storeSize)

/-- Does BASE lie in the core store of core `c`: as a global address of this chip (R29)? -/
def State.baseInStore (s : State) (c : Nat) (d : Desc) : Bool :=
  decide (d.base / 2 ^ 48 = s.rd .lnkIdentChipId) && inStore c d.cpa 1

/-- The region of a tensor operand in the core store: the smallest interval holding its payload footprint, its scale
array and its trailers (R209); none for a tensor that lies elsewhere. -/
def Desc.region (d : Desc) (c : Nat) (rd wr : Bool) : List Region :=
  if inStore c d.cpa 1 then
    let w := coreWindow c
    let sb := d.scaleBytes
    let lo := min d.cpa (min d.trailerBase (if sb = 0 then d.cpa else d.scaleBase))
    let hi := max (d.cpa + d.footprint)
      (max (d.trailerBase + 16 * (d.nblk + d.nsb)) (if sb = 0 then 0 else d.scaleBase + sb))
    [⟨false, lo - w, hi - 1 - w, rd, wr⟩]
  else []

end Sys2Proof.Machine
end

