-- ==== Sys2Proof/Machine/Access.lean ====
section
/-!
DEFINITION. Who may reach which address (R28, R252), the regions (R251), the decoding of tier-1 and tier-2 addresses
(R242, R245, R246) and the memory-side cache (R255, R256).
-/
namespace Sys2Proof.Machine

/-- The agents of an access, as R252 tells them apart: an agent that carries a partition, a hart without one, an Ergal
link, an agent of the referee (and the host interface acting for the physical function, R315), and the core that
arbitrates for core `c`. -/
inductive Accessor where
  | part (p : Nat)
  | nobody
  | link
  | referee
  | arbiter (c : Nat)
  deriving DecidableEq, Repr

/-- The answer of the checks of R252. -/
inductive AccessResult where
  | ok
  | unmapped
  | denied
  | readOnly
  | ownership
  deriving DecidableEq, Repr

/-- The number of ones among the low `n` bits. -/
def popCount : Nat → Nat → Nat
  | 0, _ => 0
  | n + 1, x => x % 2 + popCount n (x / 2)

/-- 2 GiB, 16 GiB and 1 GiB. -/
def gib2 : Nat := 0x80000000
def gib16 : Nat := 0x400000000
def gib1 : Nat := 0x40000000

/-- The number of in-service pseudo-channels of die `d` (R241). -/
def State.t1Channels (s : State) (d : Nat) : Nat := popCount 64 (s.rd (.memT1MapInService d))

/-- Is the CPA one that R28 leaves usable (R242, R246)? -/
def State.usable (s : State) (a : Nat) : Bool :=
  match areaOf a with
  | .tier1 => decide (a % 0x2000000000 < s.t1Channels (a / 0x2000000000) * gib2)
  | .tier2 => decide (a < s.rd .memT2LimitLimit)
  | .store _ => true
  | .book _ => true
  | .register _ => true
  | .reserved => false

/-- The place of a memory byte among the granules of its tier (section 10.4): (tier, granule). -/
def granuleOf (a : Nat) : Nat × Nat :=
  if a < 0x010000000000 then (0, a / gib1) else (1, (a - 0x010000000000) / gib1)

/-- Does a region's register value hold a granule of a tier? -/
def regionHolds (v : Word) (tier g : Nat) : Bool :=
  decide (v.field 31 1 = 1 ∧ v.field 0 1 = tier ∧ v.field 1 11 ≤ g ∧ g < v.field 1 11 + v.field 12 11)

/-- The valid region that holds a granule: (entry, register value). Regions do not overlap (R251). -/
def State.regionOf (s : State) (tier g : Nat) : Option (Nat × Word) :=
  (s.regs.find? (fun p => decide (Reg.memRegion 0 ≤ p.1 ∧ p.1 < Reg.memRegion 256) && regionHolds p.2 tier g)).map
    (fun p => ((p.1 - Reg.memRegion 0) / 8, p.2))

/-- The partition whose trace buffer of some CD holds the address: the buffer counts as its T1 region (R405). -/
def State.traceBufferOf (s : State) (a : Nat) : Option Nat :=
  (List.range 16).find? (fun p => (List.range 8).any (fun d =>
    let b := s.rd (.trcPBufBase p d)
    decide (s.rd (.trcPBufMib p d) ≠ 0 ∧ b ≤ a ∧ a < b + s.rd (.trcPBufMib p d) * 0x100000)))

/-- The checks of R252 for one byte, in their order. Register space is answered like a reserved address: the agents that
reach it do so by `State.busRead` and by posted writes (R428). -/
def State.check (s : State) (w : Accessor) (a : Nat) (write : Bool) : AccessResult :=
  if !(s.usable a) then .unmapped
  else
    match areaOf a with
    | .tier1 | .tier2 =>
      let g := granuleOf a
      match s.regionOf g.1 g.2 with
      | some (_, v) =>
        let owner := v.field 23 4
        let type := v.field 27 3
        let remote := decide (v.field 30 1 = 1)
        let sealedW := decide (type = 2 ∧ v.field 32 1 = 1)
        match w with
        | .nobody => .denied
        | .link =>
          if !remote then .denied
          else if write && decide (type = 2 ∨ type = 3) then .readOnly
          else if write && sealedW then .readOnly else .ok
        | .part p => if owner ≠ p then .denied else if write && sealedW then .readOnly else .ok
        | .arbiter c => if some owner ≠ (s.core c).part then .denied else if write && sealedW then .readOnly else .ok
        | .referee => if write && sealedW then .readOnly else .ok
      | none =>
        match w with
        | .referee => .ok
        | .part p => if s.traceBufferOf a = some p ∧ write = false then .ok else .denied
        | _ => .denied
    | .store c | .book c =>
      match w, (s.core c).part with
      | .referee, _ => .ok
      | .arbiter c', some _ => if c' = c then .ok else .denied
      | .part p, some q => if p = q then .ok else .denied
      | .link, some q => if s.rdBit (.hifPartMiscRemoteCore q) then .ok else .denied
      | _, _ => .denied
    | _ => .unmapped

/-- The addresses at which a range of `n` bytes can change its answer: its first byte, its last byte, and the starts of
the 1 GiB granules in between. DESIGN CHOICE (log entry 42): the event of a refused range names the first of these, in this
order, that is refused; the spec says only "CPA". -/
def checkPoints (a n : Nat) : List Nat :=
  a :: (a + n - 1) :: (List.range (n / gib1 + 1)).filterMap (fun i =>
    let g := (a / gib1 + 1 + i) * gib1
    if g < a + n then some g else none)

/-- The CPA of window granule `g` (R304): 64 KiB of the window entry's 1 GiB. -/
def State.granuleAddr (s : State) (g : Nat) : Nat := s.rd (.hifWinTarget (g / 16384)) * gib1 + (g % 16384) * 0x10000

/-- The first windowed granule of owner HOST that a range of `n` bytes meets (R306). -/
def State.hostGranule (s : State) (a n : Nat) : Option Nat :=
  (s.flags.find? (fun p => decide (p.2 % 4 = 1) && s.rdBit (.hifWinValid (p.1 / 16384)) &&
    decide (s.granuleAddr p.1 < a + n ∧ a < s.granuleAddr p.1 + 0x10000))).map (fun p => p.1)

/-- The first refusal of R252 in a range of `n` bytes, with its address; a range of no bytes is accepted. -/
def State.checkWindow (s : State) (w : Accessor) (a n : Nat) (write : Bool) : AccessResult × Nat :=
  if n = 0 then (.ok, a)
  else
    match (checkPoints a n).find? (fun x => decide (s.check w x write ≠ .ok)) with
    | some x => (s.check w x write, x)
    | none => (.ok, a)

/-- The first refusal of a device access to a range of `n` bytes: R252, then for a write the HOST granules of R306. -/
def State.checkRange (s : State) (w : Accessor) (a n : Nat) (write : Bool) : AccessResult × Nat :=
  let r := s.checkWindow w a n write
  if r.1 ≠ .ok ∨ write = false ∨ n = 0 then r
  else
    match s.hostGranule a n with
    | some g => (.ownership, s.granuleAddr g)
    | none => r

/-- The status code of a refusal (Table 10-9). -/
def AccessResult.code : AccessResult → Option Code
  | .ok => none
  | .unmapped => some .memUnmapped
  | .denied => some .memAccessDenied
  | .readOnly => some .memReadOnly
  | .ownership => some .hqOwnership

/-- The partition that the event of a refused access carries (R252). -/
def Accessor.partField : Accessor → Nat
  | .part p => p
  | _ => noPart

/-- The payload of a refused access (Table 10-9); byte 25 is named for the codes that carry the partition. -/
def refusalPayload (c : Code) (w : Accessor) (a : Nat) (write : Bool) : Nat :=
  payload ([(16, 8, a), (24, 1, flag write)] ++ (if c = .memUnmapped then [] else [(25, 1, w.partField)]))

/-- The state after the refusal of an access: its event, and MEM_CNT_9 for accesses refused (R268), or HQ_OWNERSHIP and
HIF_CNT_4 for a device write into a HOST granule (R306). -/
def State.refuseAccess (s : State) (c : Code) (sev unit : Nat) (w : Accessor) (a : Nat) (write : Bool) : State :=
  if c = .hqOwnership then
    let g := (s.hostGranule a 1).getD 0
    (s.raiseAs c sev unitPcie w.partField (payload [(16, 4, g), (20, 1, 2), (21, 1, w.partField),
      (22, 2, Sparse.get 0 s.flags g / 65536)])).count (Reg.hifCnt 4) 1
  else
  (s.raiseAs c sev unit w.partField (refusalPayload c w a write)).count (Reg.memCnt 9) 1

/-- The `n` bytes of all ones that a refused read answers (R28), as a number. -/
def onesOf (n : Nat) : Nat := 256 ^ n - 1

/-- What a read of `n` bytes at `a` by `w` answers, and the state after it: all ones and the refusal's event where the checks of
R252 refuse it (R28). -/
def State.readVia (s : State) (w : Accessor) (unit a n : Nat) : Nat × State :=
  let r := s.checkRange w a n false
  match r.1.code with
  | some c => (onesOf n, s.refuseAccess c sevNotice unit w r.2 false)
  | none => (s.memNat a n, s)

/-- The `n` bytes at `a` as `w` reads them: all ones where the checks of R252 refuse the read (R28). -/
def State.bytesVia (s : State) (w : Accessor) (a n : Nat) : List (BitVec 8) :=
  if (s.checkRange w a n false).1 = .ok then s.bytes a n else List.replicate n 0xFF

/-- The state after the events of the reads of ranges (CPA, bytes) by `w` that are refused. -/
def State.seeReads (s : State) (w : Accessor) (unit : Nat) (l : List (Nat × Nat)) : State :=
  l.foldl (fun (s : State) r => (s.readVia w unit r.1 r.2).2) s

/-- Does the range of `n` bytes meet a poisoned line (R248)? -/
def State.poisoned (s : State) (a n : Nat) : Bool := s.poison.any (fun p =>
  let size := if p.1 < 0x010000000000 then 64 else 128
  p.2 && decide (p.1 < a + n ∧ a < p.1 + size))

/-- The state with the poison of every line that lies in the `n` bytes from `a` up gone (R248). -/
def State.clearPoison (s : State) (a n : Nat) : State :=
  s.setPoison (s.poison.filter (fun p =>
    let size := if p.1 < 0x010000000000 then 64 else 128
    !(decide (a ≤ p.1 ∧ p.1 + size ≤ a + n))))

/-- The state after bytes have been written from `a` up: parity marks of those bytes and the poison of every line wholly
written are gone (R121, R248). -/
def State.store (s : State) (a : Nat) (bs : List (BitVec 8)) : State :=
  let n := bs.length
  let s := s.setBytes a bs
  (s.setBad (s.bad.filter (fun p => decide (p.1 < a ∨ a + n ≤ p.1)))).clearPoison a n

/-- The state with a number stored in `n` bytes. -/
def State.storeNat (s : State) (a n v : Nat) : State := s.store a (bytesOfNat n v)

/-- The state after a write of a number in `n` bytes at `a` by `w`: discarded, with the refusal's event, where the checks of R252
refuse it (R28). -/
def State.writeVia (s : State) (w : Accessor) (unit a n v : Nat) : State :=
  let r := s.checkRange w a n true
  match r.1.code with
  | some c => s.refuseAccess c sevNotice unit w r.2 true
  | none => s.storeNat a n v

/-! ## Address decoding -/

/-- The in-service pseudo-channels of die `d` as map bits 32 * stack + j, in ascending 2j + stack order (R241). -/
def t1List (map : Nat) : List Nat :=
  (List.range 64).filterMap (fun o => let b := 32 * (o % 2) + o / 2; if map.testBit b then some b else none)

/-- The in-service channels of tier 2 in ascending order of 4 * (k mod 32) + (k >> 5) (R245). -/
def t2List (map : Nat) : List Nat :=
  (List.range 128).filterMap (fun o => let k := 32 * (o % 4) + o / 4; if map.testBit k then some k else none)

/-- The pseudo-channel (map bit) and byte of a tier-1 address, by the list of its die (R242). -/
def t1Decode (l : List Nat) (a : Nat) : Nat × Nat :=
  let u := a % 0x2000000000 / 256
  (l.getD (u % l.length) 0, u / l.length * 256 + a % 256)

/-- The channel and data-space byte of a tier-2 address (R246). -/
def t2Decode (l : List Nat) (a : Nat) : Nat × Nat :=
  let o := a - 0x010000000000
  let u := o / 512
  (l.getD (u % l.length) 0, u / l.length * 512 + o % 512)

/-- The map of tier 2 as 128 bits. -/
def State.t2Map (s : State) : Nat := s.rd (.memT2MapInService 0) + s.rd (.memT2MapInService 1) * 2 ^ 64

/-- The exclusive end of tier 2 with `n` channels in the map (R246). -/
def t2Limit (n : Nat) : Nat := 0x010000000000 + gib16 * (n - 4)

/-! ## Line errors (R248) -/

/-- The number of the tier that a CPA lies in. -/
def tierNo (a : Nat) : Nat := if a < 0x010000000000 then 1 else 2

/-- The unit identifier of the controller of the line at `a` (R241, R245, Table 1-9). -/
def State.unitMemory (s : State) (a : Nat) : Nat :=
  if a < 0x010000000000 then
    let d := a / 0x2000000000
    let b := (t1Decode (t1List (s.rd (.memT1MapInService d))) a).1
    unitId d (48 + b / 32) (b % 32)
  else
    let k := (t2Decode (t2List s.t2Map) a).1
    unitId (12 + k / 32) (k / 4 % 8) (k % 4)

/-- The state with an error pattern exclusive-ored into the data of the line at `a`. -/
def State.flipLine (s : State) (a bytes : Nat) (errs : List (Nat × Nat)) : State :=
  errs.foldl (fun s x => s.setNat (a + bytes * x.1) bytes ((s.memNat (a + bytes * x.1) bytes) ^^^ x.2)) s

/-- The state after the line of tier 1 or tier 2 that holds CPA `x` has been read with an error pattern (R243, R247,
R248): a corrected line is written back; an uncorrectable one is marked poisoned. -/
def State.lineError (s : State) (x : Nat) (errs : List (Nat × Nat)) : State :=
  let one := decide (x < 0x010000000000)
  let size := if one then 64 else 128
  let c := if one then eccTier1 else eccTier2
  let a := x / size * size
  let u := s.unitMemory a
  let errs := errs.filter (fun e => decide (e.1 < c.n))
  let s' := s.flipLine a (c.bits / 8) (c.residual errs)
  match c.decode errs with
  | .clean => s'
  | .corrected i _ =>
    (s'.raise .memCorrected u noPart (payload [(16, 8, a), (24, 1, tierNo a), (25, 1, i)])).count
      (Reg.memCnt (if one then 0 else 2)) 1
  | .uncorrectable =>
    ((s'.setPoison (Sparse.insert a true s'.poison)).raiseAs .memUncorrectable sevNotice u noPart
      (payload [(16, 8, a), (24, 1, tierNo a)])).count (Reg.memCnt (if one then 1 else 3)) 1

/-! ## The memory-side cache -/

/-- The set of a line: 131,072 sets on each of the four MDs (R255). -/
def cacheKey (ch line : Nat) : Nat := (ch / 32) * 131072 + Config.cacheSet ch line % 131072

/-- The cache set after a fill that misses: the new line is the most recent; an ordinary fill of a full set replaces the
least recent ordinary line; a KEEP fill replaces the least recent KEEP line where the set already holds 12, else the
least recent ordinary line (R256). -/
def cacheFill (set : List CacheLine) (x : CacheLine) : List CacheLine :=
  let dropLast (k : Bool) : List CacheLine :=
    match (set.reverse.find? (fun y => decide (y.keep = k))) with
    | some y => set.erase y
    | none => set
  let keeps := (set.filter (fun y => y.keep)).length
  if x.keep && decide (keeps ≥ 12) then (x :: dropLast true).take 16
  else if set.length < 16 then x :: set
  else (x :: dropLast false).take 16

/-- The cache set after a KEEP read that hits line `y`: it becomes the most recent KEEP line. DESIGN CHOICE (log entry 43): where
the set already holds 12 KEEP lines and `y` is none of them, the least recent KEEP line leaves the set, as at a KEEP fill. -/
def cacheKeepHit (set : List CacheLine) (y : CacheLine) : List CacheLine :=
  let rest := set.erase y
  let x : CacheLine := { y with keep := true }
  if !y.keep && decide ((set.filter (fun z => z.keep)).length ≥ 12) then
    match rest.reverse.find? (fun z => z.keep) with
    | some z => x :: rest.erase z
    | none => x :: rest
  else x :: rest

/-- The state after a tier-2 read of the line that holds address `a`, with a cache hint (Table 10-4). -/
def State.cacheRead (s : State) (a hint : Nat) : State :=
  let ch := t2Decode (t2List s.t2Map) a
  let ln := ch.2 / 128
  let key := cacheKey ch.1 ln
  let set := Sparse.get [] s.cache key
  match set.find? (fun y => decide (y.channel = ch.1 ∧ y.line = ln)) with
  | some y =>
    let rest := set.erase y
    let hit := if hint = 0 then y :: rest
      else if hint = 1 then set
      else if hint = 2 then cacheKeepHit set y
      else rest
    let s := s.count (Reg.memCnt 7) 1
    (s.setCache (Sparse.put [] key hit s.cache))
  | none =>
    let miss := if hint = 0 then cacheFill set ⟨ch.1, ln, false⟩
      else if hint = 2 then cacheFill set ⟨ch.1, ln, true⟩
      else set
    let s := s.count (Reg.memCnt 8) 1
    (s.setCache (Sparse.put [] key miss s.cache))

/-- The state after a parity error in the cache line that holds tier-2 address `a`: the line is dropped and read again from its
channel (R121, R255). The unit is the channel's controller (DESIGN CHOICE, log entry 43). -/
def State.cacheParity (s : State) (a : Nat) : State :=
  let ch := t2Decode (t2List s.t2Map) a
  let ln := ch.2 / 128
  let key := cacheKey ch.1 ln
  let set := Sparse.get [] s.cache key
  match set.find? (fun y => decide (y.channel = ch.1 ∧ y.line = ln)) with
  | none => s
  | some y =>
    let s := s.setCache (Sparse.put [] key (set.erase y) s.cache)
    s.raiseAs .intParity sevRecovered (s.unitMemory a) noPart (payload [(16, 8, a), (24, 1, 1)])

/-- The state after a tier-2 write: it never allocates; a DISCARD write that hits invalidates the line (R256). -/
def State.cacheWrite (s : State) (a hint : Nat) : State :=
  if hint = 3 then
    let ch := t2Decode (t2List s.t2Map) a
    let ln := ch.2 / 128
    let key := cacheKey ch.1 ln
    let kept := (Sparse.get [] s.cache key).filter (fun y => !(decide (y.channel = ch.1 ∧ y.line = ln)))
    (s.setCache (Sparse.put [] key kept s.cache))
  else s

/-- The state after a read of `n` bytes from `a` up by a path that goes through the cache: one look-up for each 128-byte
line of tier 2. -/
def State.cacheReads (s : State) (a n hint : Nat) : State :=
  if areaOf a = .tier2 then
    (List.range ((a + n + 127) / 128 - a / 128)).foldl (fun s i => s.cacheRead ((a / 128 + i) * 128) hint) s
  else s

/-- The same for a write. -/
def State.cacheWrites (s : State) (a n hint : Nat) : State :=
  if areaOf a = .tier2 then
    (List.range ((a + n + 127) / 128 - a / 128)).foldl (fun s i => s.cacheWrite ((a / 128 + i) * 128) hint) s
  else s

end Sys2Proof.Machine
end

