-- ==== Sys2Proof/Machine/Flags.lean ====
section
/-!
DEFINITION. The counts and flags that a store computes: the counts of R53, R54 and R116, and the partial stat record of
a statistics binding (R143 to R145, Table 6-1).
-/
namespace Sys2Proof.Machine

/-- The counts of one store command. -/
structure StoreCounts where
  saturated : Nat := 0
  underflow : Nat := 0
  nonfinite : Nat := 0
  groups : Nat := 0
  zeroGroup : Nat := 0
  satGroup : Nat := 0
  nanGroup : Nat := 0
  outGroups : Nat := 0
  outOvf : Nat := 0
  outKept : Nat := 0
  outExcess : Nat := 0
  deriving DecidableEq, Repr

/-- The counts with one converted element added. -/
def StoreCounts.addConv (n : StoreCounts) (v : Conv) : StoreCounts :=
  { n with saturated := n.saturated + flag v.saturated, underflow := n.underflow + flag v.underflow,
           nonfinite := n.nonfinite + flag v.nonfinite }

/-- The largest unsigned 32-bit count. -/
def u32Max : Nat := 2 ^ 32 - 1

/-- The histogram bin of a nonzero finite source element (R145). -/
def histBin (v : Val) (hbase : Int) : Nat := (min (max (v.mag.floorLog2 - hbase) 0) 31).toNat

/-- A histogram with one more element in bin `b`; `true` when the bin was already full (R145). -/
def histAdd (h : List Nat) (b : Nat) : List Nat × Bool :=
  let h := if h.isEmpty then List.replicate 32 0 else h
  if h.getD b 0 = u32Max then (h, true) else (h.set b (h.getD b 0 + 1), false)

/-- The exact square of a finite value; other values give 0. -/
def squareOf (v : Val) : Val :=
  match v with
  | .fin s m e => Val.mul (.fin s m e) (.fin s m e)
  | _ => .fin false 0 0

/-- The exact sum of a list of values, from +0. -/
def exactSum (l : List Val) : Val := l.foldl Val.add (.fin false 0 0)

/-- The sums of squares of the chunks of 64 consecutive linear indices, in ascending order, each rounded once to ZF32
(R144): the elements come as (linear index, value) in ascending order; `cur` is the open chunk and `acc` its squares. -/
def chunkSquares : List (Nat × Val) → Option Nat → Val → List Nat
  | [], none, _ => []
  | [], some _, acc => [toZF32 acc]
  | (i, v) :: t, none, _ => chunkSquares t (some (i / 64)) (squareOf v)
  | (i, v) :: t, some k, acc =>
    if i / 64 = k then chunkSquares t (some k) (acc.add (squareOf v))
    else toZF32 acc :: chunkSquares t (some (i / 64)) (squareOf v)

/-- The larger of two magnitudes held as ZF32 codes, where the second is a value: MAXABS (Table 6-1). -/
def maxAbsOf (code : Nat) (v : Val) : Nat :=
  match v with
  | .fin _ _ _ => if (zf32 code).lt v.abs then toZF32 v.abs else code
  | _ => code

/-- What one store adds to a partial record: the source elements as (linear index, value, kept as outlier). FLAGS of
the record: bit 0 VALID, 1 HIST_SAT, 2 SUMSQ_INF, 3 MIXED_FORMAT. -/
def StatPart.add (p : StatPart) (fmt : Nat) (hbase : Int) (n : StoreCounts) (els : List (Nat × Val × Bool)) :
    StatPart :=
  let bins := els.foldl (fun (a : List Nat × Bool) x =>
    if x.2.1.isFinite && !x.2.1.isZero then
      let r := histAdd a.1 (histBin x.2.1 hbase)
      (r.1, a.2 || r.2)
    else a) (if p.hist.isEmpty then List.replicate 32 0 else p.hist, false)
  let sums := chunkSquares (els.map (fun x => (x.1, x.2.1))) none (.fin false 0 0)
  let ss := sums.foldl f32Add p.sumsq
  let mixed := decide (p.flags % 2 = 1 ∧ p.format ≠ fmt)
  { format := fmt
    flags := 1 + 2 * flag (bitAt p.flags 1 || bins.2) +
      4 * flag (bitAt p.flags 2 || decide (ss = 0x7F800000)) + 8 * flag (bitAt p.flags 3 || mixed)
    elements := p.elements + els.length
    zeros := p.zeros + (els.filter (fun x => x.2.1.isZero)).length
    saturated := p.saturated + n.saturated
    underflow := p.underflow + n.underflow
    nonfinite := p.nonfinite + n.nonfinite
    groups := p.groups + n.groups
    zeroGroup := p.zeroGroup + n.zeroGroup
    satGroup := p.satGroup + n.satGroup
    outGroups := p.outGroups + n.outGroups
    outOvf := p.outOvf + n.outOvf
    outKept := p.outKept + n.outKept
    outExcess := p.outExcess + n.outExcess
    maxabs := els.foldl (fun a x => if x.2.2 then a else maxAbsOf a x.2.1) p.maxabs
    sumsq := ss
    hist := bins.1 }

end Sys2Proof.Machine
end

