-- ==== Sys2Proof/Machine/Tensor.lean ====
section
/-!
DEFINITION. The conversion path of a core: loading elements of a tensor (R49, R50, R56, R124) and storing them (R51 to
R55, R114 to R116, R122, R143), with the trailers, the statistics, the counters and the watch copies of a store.
-/
namespace Sys2Proof.Machine

/-! ## The load path -/

/-- The job key of a core (R60). -/
def State.key0 (s : State) (c : Nat) : Word := s.reg (Reg.xfmRngKey0 c)
def State.key1 (s : State) (c : Nat) : Word := s.reg (Reg.xfmRngKey1 c)

/-- The rounding of element `i` of a tensor by its descriptor's mode (R57 to R59). -/
def State.roundingOf (s : State) (c : Nat) (d : Desc) (step i : Nat) : Rounding :=
  if d.stochastic then .stochastic (roundingBits (s.key0 c) (s.key1 c) step d.tensorId i) else .nearest

/-- The code of element `i0` of linear row `r` (R38). -/
def State.elemCode (s : State) (d : Desc) (r i0 : Nat) : Nat :=
  let bit := d.fmt.bits * i0
  let a := d.cpa + d.rowOffset r + bit / 8
  bitsAt (s.memNat a ((bit % 8 + d.fmt.bits + 7) / 8)) (bit % 8) d.fmt.bits

/-- A loaded element: its value with the group scale and without the tensor scale, and what its expansion counts. -/
structure Loaded where
  val : Val
  reserved : Bool := false
  underflow : Bool := false
  nonfinite : Bool := false
  deriving DecidableEq, Repr

/-- The value of a group scale code times an element's value (R49, R50). -/
def scaleVal (sc : Nat) (v : Val) : Val :=
  if sc % 256 = 0xFF then .nan
  else match v with
    | .fin s m e => .fin s m (e + ((sc % 256 : Nat) - 127))
    | v => v

/-- The affine expansion of R56: (q - z) * sigma, rounded into ZB16. -/
def affineExpand (mode : Rounding) (q : Val) (record : Nat) : Loaded :=
  let sigma := fmtZB16.decodeIeee (bitsAt record 0 16)
  let z := Val.ofInt (signed 8 (bitsAt record 16 8))
  let x := (q.sub z).mul sigma
  let code := fmtZB16.round mode x
  let v := fmtZB16.decodeIeee code
  { val := v, underflow := v.isZero && !x.isZero, nonfinite := !v.isFinite }

/-- Element `i0` of linear row `r` of a tensor, through the load path of core `c` (R50, R56). -/
def State.loadElem (s : State) (c : Nat) (d : Desc) (step r i0 : Nat) : Loaded :=
  let code := s.elemCode d r i0
  match d.mode with
  | .none => { val := d.fmt.decode code, reserved := d.fmt.reservedCode code }
  | .live | .hist =>
    let sc := s.memNat (d.scaleAddr (d.scaleIndex r i0)) 1
    { val := scaleVal sc (d.fmt.decode code), reserved := d.fmt.reservedCode code }
  | .expand =>
    let a := d.scaleAddr (d.scaleIndex r i0)
    if d.tableForm then
      let v := fmtZB16.decodeIeee (s.memNat (a + 2 * (code % 16)) 2)
      { val := v, nonfinite := !v.isFinite }
    else affineExpand (s.roundingOf c d step (d.linear r i0)) (d.fmt.decode code) (s.memNat a 4)

/-- A value times a tensor scale. -/
def Val.timesT (v : Val) (t : Nat × Int) : Val := v.mul (.fin false t.1 t.2)

/-- The exact value of an element, tensor scale included (R50, R55). -/
def State.elemVal (s : State) (c : Nat) (d : Desc) (step r i0 : Nat) : Val :=
  ((s.loadElem c d step r i0).val).timesT (s.tensorScale d)

/-- The blocks (trailer indices) that hold elements k0 to k0 + len - 1 of row `r`, scale entries included (R64). -/
def Desc.rowBlocks (d : Desc) (r k0 len : Nat) : List Nat :=
  if len = 0 then []
  else
    let lo := (d.rowOffset r + d.fmt.bits * k0 / 8) / 4096
    let hi := (d.rowOffset r + (d.fmt.bits * (k0 + len) + 7) / 8 - 1) / 4096
    let pay := (List.range (hi + 1 - lo)).map (fun i => lo + i)
    if d.mode = .none then pay
    else
      let sc := (List.range len).flatMap (fun i =>
        let a := d.scaleAddr (d.scaleIndex r (k0 + i)) - d.scaleBase
        [d.nblk + a / 4096, d.nblk + (a + d.scaleEntryBytes - 1) / 4096])
      let sc := if d.mode = .hist then d.nblk :: sc else sc
      pay ++ sc.eraseDups

/-- What can stop a load: a trailer whose FORMAT or SCALE_CTRL differs from the descriptor (R67 step 3, R124), a location of bad
parity (R121), or a poisoned line (R248). -/
inductive LoadFault where
  | format (block : Nat)
  | parity (a : Nat)
  | poison (a : Nat)
  deriving DecidableEq, Repr

/-- The first fault of a read of `n` bytes at `a`: parity, then poison. -/
def State.readFault (s : State) (a n : Nat) : Option LoadFault :=
  match s.bad.find? (fun p => p.2 && decide (a ≤ p.1 ∧ p.1 < a + n)) with
  | some p => some (.parity p.1)
  | none => if n ≠ 0 ∧ s.poisoned a n = true then some (.poison a) else none

/-- The ranges (CPA, bytes) of the scale array that elements k0 to k0 + len - 1 of row `r` are read with: T under HIST, and their
entries (R50, R69). -/
def Desc.scaleRanges (d : Desc) (r k0 len : Nat) : List (Nat × Nat) :=
  if d.mode = .none ∨ len = 0 then []
  else
    (if d.mode = .hist then [(d.scaleBase, 16)] else []) ++
      ((List.range len).map (fun i => (d.scaleAddr (d.scaleIndex r (k0 + i)), d.scaleEntryBytes))).eraseDups

/-- Does the trailer of block `t` carry the descriptor's FORMAT and SCALE_CTRL (R67 step 3)? -/
def State.trailerOk (s : State) (d : Desc) (t : Nat) : Bool :=
  decide (s.memNat (d.trailerAddr t + 12) 1 = d.trailerFormat t ∧ s.memNat (d.trailerAddr t + 13) 1 = d.scaleCtrl)

/-- The check of one row of a load: the trailers of its blocks are read, and the first block, by trailer index, that fails R124
stops it; then the elements and the scale entries. -/
def State.rowFault (s : State) (d : Desc) (r k0 len : Nat) : Option LoadFault :=
  let blocks := d.rowBlocks r k0 len
  match blocks.findSome? (fun t => s.readFault (d.trailerAddr t) 16) with
  | some f => some f
  | none =>
    match blocks.find? (fun t => !(s.trailerOk d t)) with
    | some t => some (.format t)
    | none =>
      let a := d.cpa + d.rowOffset r + d.fmt.bits * k0 / 8
      let n := (d.fmt.bits * (k0 + len) + 7) / 8 - d.fmt.bits * k0 / 8
      ((a, n) :: d.scaleRanges r k0 len).findSome? (fun x => s.readFault x.1 x.2)

/-- The first fault of rows r0 to r0 + n - 1 of a load, in row order. -/
def State.rowsFault (s : State) (d : Desc) (r0 n k0 len : Nat) : Option LoadFault :=
  (List.range n).findSome? (fun i => s.rowFault d (r0 + i) k0 len)

/-- The state after the event of a load fault, and the status code (R67, R121): `da` is the descriptor's address. -/
def State.raiseLoad (s : State) (c da : Nat) : LoadFault → State × Nat
  | .format t => (s.raiseCore .numFormatMismatch c engXfm (payload [(16, 8, da), (24, 8, t)]), Code.numFormatMismatch.val)
  | .parity a =>
    (s.raiseAs .intParity sevFailed (s.unitCore c engStore) (s.corePart c) (payload [(16, 8, a), (24, 1, 1)]),
      Code.intParity.val)
  | .poison a =>
    (s.raiseAs .memUncorrectable sevFailed (s.unitCore c engXfm) (s.corePart c) (payload [(16, 8, a), (24, 1, tierNo a)]),
      Code.memUncorrectable.val)

/-- How many elements of a command's operands, given as (TENSOR_ID, elements), have a property. -/
def loadTotal (f : Loaded → Bool) (l : List (Nat × List Loaded)) : Nat :=
  l.foldl (fun n x => n + (x.2.filter f).length) 0

/-- The state after the counts of the elements that a command loaded, by operand as (TENSOR_ID, elements): reserved ZT2 codes
raise one NUM_RESERVED_CODE for the command (R47); expansions count in the XFM counters (R56). DESIGN CHOICE (log entry 45): the
event carries the core's XFM (engine 6) and the TENSOR_ID of the first operand that holds such a code. -/
def State.countLoads (s : State) (c : Nat) (l : List (Nat × List Loaded)) : State :=
  let s := match l.find? (fun x => x.2.any (fun y => y.reserved)) with
    | none => s
    | some x => s.raiseCore .numReservedCode c engXfm (payload [(16, 4, x.1), (20, 8, loadTotal (fun y => y.reserved) l)])
  let s := s.count (Reg.xfmCnt c 0) (loadTotal (fun y => y.underflow) l)
  s.count (Reg.xfmCnt c 2) (loadTotal (fun y => y.nonfinite) l)

/-! ## Bindings -/

/-- The lowest slot of a list of binding registers that is VALID and names the tensor (R113, R142). -/
def boundSlot (binds : List Nat) (tid : Nat) : Option Nat :=
  (List.range binds.length).find? (fun i =>
    decide (bitsAt (binds.getD i 0) 63 1 = 1 ∧ bitsAt (binds.getD i 0) 0 32 = tid))

/-- The bindings of a core as they stand: the outlier bindings and the statistics bindings. -/
def State.outBinds (s : State) (c : Nat) : List Nat := (List.range 8).map (fun i => (s.reg (Reg.outBind c i)).toNat)
def State.staBinds (s : State) (c : Nat) : List Nat := (List.range 16).map (fun i => (s.reg (Reg.staBind c i)).toNat)

/-! ## The store path -/

/-- An element to store: its row, its index along DIM0, its value, whether it was kept as an outlier, and whether it
qualified as one and was not kept (R115). -/
structure StoreEl where
  r : Nat
  i0 : Nat
  v : Val
  out : Bool := false
  big : Bool := false
  deriving DecidableEq, Repr

/-- The list as groups of equal key, in the order in which the keys first come. -/
def groupBy {α : Type} (key : α → Nat) (l : List α) : List (Nat × List α) :=
  l.foldl (fun acc x =>
    if acc.any (fun p => decide (p.1 = key x)) then
      acc.map (fun p => if p.1 = key x then (p.1, p.2 ++ [x]) else p)
    else acc ++ [(key x, [x])]) []

/-- The formats that outliers are extracted from (R114). -/
def Fmt.extracts (f : Fmt) : Bool :=
  match f with
  | .ze4 | .ze5 | .ze3m2 | .ze2m1 | .zi8 | .zi4 | .zt2 => true
  | _ => false

/-- The address of the outlier list that a store to the tensor extracts into, if it does (R114). -/
def extractList (c : Nat) (d : Desc) (outBinds : List Nat) : Option Nat :=
  if d.fmt.extracts then
    (boundSlot outBinds d.tensorId).map (fun i => coreWindow c + bitsAt (outBinds.getD i 0) 32 24)
  else none

/-- Groups per row of an outlier list (Table 4-5). -/
def Desc.gpr (d : Desc) : Nat := ceilDiv (d.dimAt 0) 128

/-- The refusal of a store by outlier extraction: (reason, payload bytes 24 to 27), for a store of columns col0 to
col0 + ncol - 1 of rows from r0 (R114): part of an outlier group, then a header that does not match. -/
def State.extractRefusal (s : State) (c : Nat) (d : Desc) (outBinds : List Nat) (r0 col0 ncol : Nat) :
    Option (Nat × Nat) :=
  match extractList c d outBinds with
  | none => none
  | some a =>
    let endBad := decide ((col0 + ncol) % 128 ≠ 0 ∧ col0 + ncol ≠ d.dimAt 0)
    if col0 % 128 ≠ 0 then some (0x08, r0 * d.gpr + col0 / 128)
    else if endBad then some (0x08, r0 * d.gpr + (col0 + ncol) / 128)
    else if !(posOrInf (s.memNat a 4)) || decide (s.memNat (a + 4) 4 ≠ d.gpr) || decide (s.memNat (a + 8) 4 ≠ d.rows)
    then some (0x06, 0)
    else none

/-- The state after NUM_EXTRACT_INVALID (Table 4-7). -/
def State.raiseExtract (s : State) (c : Nat) (d : Desc) (x : Nat × Nat) : State :=
  s.raiseCore .numExtractInvalid c engXfm (payload [(16, 1, x.1), (20, 4, d.tensorId), (24, 4, x.2)])

/-- The element of largest magnitude, the first one on ties. -/
def largest : List StoreEl → Option StoreEl
  | [] => none
  | x :: t =>
    match largest t with
    | none => some x
    | some y => if x.v.abs.lt y.v.abs then some y else some x

/-- The `n` largest elements (R115). -/
def topOf : Nat → List StoreEl → List StoreEl
  | 0, _ => []
  | n + 1, l =>
    match largest l with
    | none => []
    | some x => x :: topOf n (l.filter (fun y => !(decide (y.i0 = x.i0))))

/-- extract_outliers (R115) on one outlier group: the elements after it, and the kept ones in ascending index. -/
def extractGroup (tau : Val) (l : List StoreEl) : List StoreEl × List StoreEl :=
  let q := l.filter (fun x => x.v.isFinite && tau.lt x.v.abs)
  let keep := topOf 4 q
  let isKept (x : StoreEl) : Bool := keep.any (fun y => decide (y.i0 = x.i0))
  let isBig (x : StoreEl) : Bool := x.v.isFinite && tau.lt x.v.abs
  (l.map (fun x =>
      if isKept x then { x with v := .fin false 0 0, out := true } else { x with big := isBig x }),
    l.filter isKept)

/-- A kept element rounded into ZB16 (R115, R55). -/
def State.keptCode (s : State) (c : Nat) (d : Desc) (step : Nat) (x : StoreEl) : Nat :=
  fmtZB16.round (s.roundingOf c d step (d.linear x.r x.i0)) x.v

/-- The 16 bytes of a group record (Table 4-5): the kept elements, each rounded into ZB16. -/
def State.groupRecord (s : State) (c : Nat) (d : Desc) (step : Nat) (keep : List StoreEl) : Nat :=
  (keep.mapIdx (fun e x => (s.keptCode c d step x + (x.i0 % 128) * 2 ^ 16 + 2 ^ 23) * 2 ^ (32 * e))).foldl (· + ·) 0

/-- The result of converting the elements of one store: the codes by (row, index), the scale codes by index of the
scale array, the group records by list offset, and the counts. -/
structure Converted where
  codes : List (Nat × Nat × Nat)
  scales : List (Nat × Nat)
  records : List (Nat × Nat)
  counts : StoreCounts
  deriving DecidableEq, Repr

/-- The conversion of one scale group (R51 to R54): the codes, the scale code and the counts. -/
def State.convertGroup (s : State) (c : Nat) (d : Desc) (step : Nat) (t : Nat × Int) (l : List StoreEl) :
    List (Nat × Nat × Nat) × Nat × StoreCounts :=
  let nanBlock := d.fmt.nanBlocks && l.any (fun x => !x.v.isFinite)
  let sc := if nanBlock then 0xFF
    else groupScale d.fmt ((l.filter (fun x => x.v.isFinite && !x.big)).map (fun x => x.v)) t.1 t.2
      (if d.mode = .hist then 127 else 254)
  let conv := l.map (fun x =>
    (x, encodeElement d.fmt (s.roundingOf c d step (d.linear x.r x.i0)) x.v sc t.1 t.2))
  let n := conv.foldl (fun (n : StoreCounts) p => n.addConv p.2) {}
  let zero := !nanBlock && l.any (fun x => !x.v.isZero) && conv.all (fun p => p.1.v.isZero || p.2.underflow)
  let sat := conv.all (fun p => p.2.saturated)
  (conv.map (fun p => (p.1.r, p.1.i0, p.2.code)), sc,
    { n with groups := 1, zeroGroup := flag zero, satGroup := flag sat, nanGroup := flag nanBlock })

/-- The sums of two sets of counts. -/
def StoreCounts.plus (a b : StoreCounts) : StoreCounts :=
  { saturated := a.saturated + b.saturated, underflow := a.underflow + b.underflow,
    nonfinite := a.nonfinite + b.nonfinite, groups := a.groups + b.groups, zeroGroup := a.zeroGroup + b.zeroGroup,
    satGroup := a.satGroup + b.satGroup, nanGroup := a.nanGroup + b.nanGroup, outGroups := a.outGroups + b.outGroups,
    outOvf := a.outOvf + b.outOvf, outKept := a.outKept + b.outKept, outExcess := a.outExcess + b.outExcess }

/-- What outlier extraction has done so far: the elements, the group records by address, the counts. -/
structure Extracted where
  els : List StoreEl
  records : List (Nat × Nat)
  counts : StoreCounts
  deriving DecidableEq, Repr

/-- The extraction of one outlier group of the list at `a` with threshold tau (R115, R116). A kept element that ZB16 takes to
infinity counts as non-finite, as in every conversion of the core (R70). -/
def State.extractInto (s : State) (c : Nat) (d : Desc) (step a : Nat) (tau : Val) (x : Extracted)
    (g : Nat × List StoreEl) : Extracted :=
  let e := extractGroup tau g.2
  let q := (g.2.filter (fun y => y.v.isFinite && tau.lt y.v.abs)).length
  { els := x.els ++ e.1
    records := x.records ++ [(a + 64 + 16 * g.1, s.groupRecord c d step e.2)]
    counts := x.counts.plus
      { outGroups := 1, outKept := e.2.length, outOvf := flag (decide (q > 4)), outExcess := q - 4,
        nonfinite := (e.2.filter (fun y => !(fmtZB16.decodeIeee (s.keptCode c d step y)).isFinite)).length } }

/-- The extraction of every outlier group of a store, if it extracts (R114, R115). -/
def State.extractAll (s : State) (c : Nat) (d : Desc) (step : Nat) (outBinds : List Nat) (els : List StoreEl) :
    Extracted :=
  match extractList c d outBinds with
  | none => ⟨els, [], {}⟩
  | some a =>
    (groupBy (fun (x : StoreEl) => x.r * d.gpr + x.i0 / 128) els).foldl
      (s.extractInto c d step a (zf32 (s.memNat a 4))) ⟨[], [], {}⟩

/-- The conversion of the elements of a store without scales: each by itself under t = 1 and s = 127 (R53). -/
def State.convertPlain (s : State) (c : Nat) (d : Desc) (step : Nat) (x : Extracted) : Converted :=
  let conv := x.els.map (fun (y : StoreEl) =>
    (y, encodeElement d.fmt (s.roundingOf c d step (d.linear y.r y.i0)) y.v 127 1 0))
  { codes := conv.map (fun p => (p.1.r, p.1.i0, p.2.code)), scales := [], records := x.records,
    counts := x.counts.plus (conv.foldl (fun (n : StoreCounts) p => n.addConv p.2) {}) }

/-- The conversion of all elements of one store: outlier extraction, then the scale groups (R115, R51 to R54). -/
def State.convert (s : State) (c : Nat) (d : Desc) (step : Nat) (outBinds : List Nat) (els : List StoreEl) : Converted :=
  let x := s.extractAll c d step outBinds els
  if d.mode = .none then s.convertPlain c d step x
  else
    let t := s.tensorScale d
    (groupBy (fun (y : StoreEl) => d.scaleIndex y.r y.i0) x.els).foldl
      (fun (acc : Converted) g =>
        let k := s.convertGroup c d step t g.2
        { acc with codes := acc.codes ++ k.1, scales := acc.scales ++ [(g.1, k.2.1)], counts := acc.counts.plus k.2.2 })
      { codes := [], scales := [], records := x.records, counts := x.counts }

/-- The state with one element code written at its place (R38). -/
def State.putElem (s : State) (d : Desc) (x : Nat × Nat × Nat) : State :=
  let bit := d.fmt.bits * x.2.1
  let a := d.cpa + d.rowOffset x.1 + bit / 8
  let n := (bit % 8 + d.fmt.bits + 7) / 8
  s.setNat a n (putBits (s.memNat a n) (bit % 8) d.fmt.bits x.2.2)

/-- The trailer of block `t` over the block's bytes as they stand (Table 2-3, R66). -/
def State.makeTrailer (s : State) (d : Desc) (t : Nat) : Nat :=
  (crc64 (s.bytes (d.blockAddr t) 4096)).toNat + ((d.blockIdBase + t) % 2 ^ 32) * 2 ^ 64 +
    d.trailerFormat t * 2 ^ 96 + d.scaleCtrl * 2 ^ 104

/-- The state with the trailer of block `t` written (R122). -/
def State.writeTrailer (s : State) (d : Desc) (t : Nat) : State :=
  s.setNat (d.trailerAddr t) 16 (s.makeTrailer d t)

/-- The blocks that a store of these codes and scale codes touches, in ascending trailer index (R64). -/
def Converted.blocks (v : Converted) (d : Desc) : List Nat :=
  let pay := v.codes.flatMap (fun x =>
    let bit := d.fmt.bits * x.2.1
    let a := d.rowOffset x.1 + bit / 8
    let n := (bit % 8 + d.fmt.bits + 7) / 8
    [a / 4096, (a + n - 1) / 4096])
  let sc := v.scales.map (fun p => d.nblk + (d.scaleHead + p.1) / 4096)
  (List.range (d.nblk + d.nsb)).filter (fun t => pay.contains t || sc.contains t)

/-- The state with the converted elements, scale codes, group records and trailers in memory. -/
def State.writeConverted (s : State) (d : Desc) (v : Converted) : State :=
  let s := v.codes.foldl (fun s x => s.putElem d x) s
  let s := v.scales.foldl (fun s p => s.setNat (d.scaleBase + d.scaleHead + p.1) 1 p.2) s
  let s := v.records.foldl (fun s p => s.setNat p.1 16 p.2) s
  (v.blocks d).foldl (fun s t => s.writeTrailer d t) s

/-- The state with the counts of one store in the XFM and OUT counters, and its events (R47, R52, R54, R116). DESIGN CHOICE (log
entry 45): NUM_ZERO_GROUP, NUM_SAT_GROUP and NUM_NAN_BLOCK carry the core's XFM (engine 6). -/
def State.countStore (s : State) (c : Nat) (d : Desc) (n : StoreCounts) : State :=
  let s := s.count (Reg.xfmCnt c 0) n.underflow
  let s := s.count (Reg.xfmCnt c 1) n.saturated
  let s := s.count (Reg.xfmCnt c 2) n.nonfinite
  let s := s.count (Reg.xfmCnt c 3) n.zeroGroup
  let s := s.count (Reg.xfmCnt c 4) n.satGroup
  let s := s.count (Reg.outCnt c 1) n.outKept
  let s := s.count (Reg.outCnt c 2) n.outOvf
  let s := s.count (Reg.outCnt c 3) n.outExcess
  let ev (s : State) (code : Code) (k : Nat) : State :=
    if k = 0 then s else s.raiseCore code c engXfm (payload [(16, 4, d.tensorId), (20, 8, k)])
  let s := ev s .numZeroGroup n.zeroGroup
  let s := ev s .numSatGroup n.satGroup
  let s := ev s .numNanBlock n.nanGroup
  if n.outOvf = 0 then s
  else s.raiseCore .numOutlierOvf c engOut (payload [(16, 4, d.tensorId), (20, 8, n.outOvf), (28, 4, n.outExcess)])

/-- HBASE of a tensor table entry of the context of partition `p` (Table 6-4). -/
def State.hbase (s : State) (p t : Nat) : Int :=
  signed 8 (s.memNat (s.rd (.pgvTensorTableBase p) + 128 * t + 6) 1)

/-- The state with the statistics of one store in the partial record of the binding, if the tensor is bound (R143). -/
def State.statStore (s : State) (c : Nat) (d : Desc) (staBinds : List Nat) (els : List (Nat × Val × Bool))
    (n : StoreCounts) : State :=
  match boundSlot staBinds d.tensorId with
  | none => s
  | some i =>
    let tindex := bitsAt (staBinds.getD i 0) 32 14
    let s := s.wr (.staBindPending c i) 1
    s.modCore c (fun k => { k with
      stats := Sparse.put StatPart.empty i
        ((Sparse.get StatPart.empty k.stats i).add d.format (s.hbase (s.corePart c) tindex) n els) k.stats })

/-! ## The tensor watch -/

/-- The state after the watch slot `n` of partition `p` has taken its copies of the blocks `ts` that a store wrote
(R411, R412). -/
def State.watchSlot (s : State) (p n step : Nat) (d : Desc) (ts : List Nat) : State :=
  if s.rd (.trcPWatchAState p n) = 1 ∧ s.rd (.trcPWatchATensorId p n) = d.tensorId ∧
      s.rd (.trcPWatchBStep p n) = step then
    ts.foldl (fun s t =>
      if s.rd (.trcPWatchAState p n) ≠ 1 then s
      else
        let cnt := Sparse.get (0, 0) s.watch (8 * p + n)
        if t ≥ s.rd (.trcPWatchALimit p n) then
          (s.setWatch (Sparse.put (0, 0) (8 * p + n) (cnt.1, cnt.2 + 1) s.watch))
        else
          let da := s.rd (.trcPWatchCDest p n) + 4096 * t
          let ta := s.rd (.trcPWatchDDestTrailer p n) + 16 * t
          let r1 := s.checkRange (.part p) da 4096 true
          let r2 := s.checkRange (.part p) ta 16 true
          match (r1.1.code.orElse (fun _ => r2.1.code)) with
          | some code =>
            (s.wr (.trcPWatchAState p n) 3).raise .dbgWatchFail unitReferee p
              (payload [(16, 1, p), (17, 1, n), (18, 2, code.val)])
          | none =>
            let s := s.store da (s.bytes (d.blockAddr t) 4096)
            let s := s.store ta (s.bytes (d.trailerAddr t) 16)
            (s.setWatch (Sparse.put (0, 0) (8 * p + n) (cnt.1 + 1, cnt.2) s.watch))) s
  else s

/-- The state after every watch slot of the core's partition has taken its copies. -/
def State.watchStore (s : State) (c step : Nat) (d : Desc) (ts : List Nat) : State :=
  match (s.core c).part with
  | none => s
  | some p => (List.range 8).foldl (fun s n => s.watchSlot p n step d ts) s

/-- Does a conversion write every bit of the byte at `a`: by its element codes, or by a scale code? -/
def Converted.writes (v : Converted) (d : Desc) (a : Nat) : Bool :=
  v.scales.any (fun p => decide (d.scaleBase + d.scaleHead + p.1 = a)) ||
    (List.range 8).all (fun b => v.codes.any (fun x =>
      let lo := (d.cpa + d.rowOffset x.1) * 8 + d.fmt.bits * x.2.1
      decide (lo ≤ 8 * a + b ∧ 8 * a + b < lo + d.fmt.bits)))

/-- Does a store keep the byte at `a`: a byte of a block that it touches and does not write? -/
def Converted.keeps (v : Converted) (d : Desc) (a : Nat) : Bool :=
  (v.blocks d).any (fun t => decide (d.blockAddr t ≤ a ∧ a < d.blockAddr t + 4096)) && !(v.writes d a)

/-- The fault of a store's kept bytes: one of bad parity, or one in a poisoned line of tier 1 or tier 2 (R122). -/
def State.keptBad (s : State) (d : Desc) (v : Converted) : Option LoadFault :=
  match s.bad.find? (fun p => p.2 && v.keeps d p.1) with
  | some p => some (.parity p.1)
  | none =>
    (s.poison.find? (fun p => p.2 &&
      (List.range (if p.1 < 0x010000000000 then 64 else 128)).any (fun i => v.keeps d (p.1 + i)))).map (fun p => .poison p.1)

/-- The (outlier group, index) pairs that a conversion kept as outliers. -/
def Converted.kept (v : Converted) (listAddr : Nat) : List (Nat × Nat) :=
  v.records.flatMap (fun p => (List.range 4).filterMap (fun e =>
    if bitAt p.2 (32 * e + 23) then some ((p.1 - (listAddr + 64)) / 16, bitsAt p.2 (32 * e + 16) 7) else none))

/-- The fault of reading the outlier binding of a tensor and the header of its list, where a store extracts (R114, R121). -/
def State.extractFault (s : State) (c : Nat) (d : Desc) (outBinds : List Nat) : Option LoadFault :=
  if d.fmt.extracts then
    match boundSlot outBinds d.tensorId with
    | none => none
    | some i =>
      if (s.core c).bindBad.contains i then some (.parity 0)
      else s.readFault (coreWindow c + bitsAt (outBinds.getD i 0) 32 24) 12
  else none

/-- The store path of core `c`: the elements, in ascending linear index, converted and stored into the tensor (R53,
R55, R59, R114 to R116, R122, R143, R411), under the step and the bindings that the command found at issue; with the
status code, 0 for success. -/
def State.storePath (s : State) (c : Nat) (d : Desc) (step : Nat) (outBinds staBinds : List Nat)
    (els : List (Nat × Nat × Val)) : State × Nat :=
  let v := s.convert c d step outBinds (els.map (fun x => { r := x.1, i0 := x.2.1, v := x.2.2 }))
  match (s.extractFault c d outBinds).orElse (fun _ => s.keptBad d v) with
  | some f => s.raiseLoad c 0 f
  | none =>
    let kept := v.kept ((extractList c d outBinds).getD 0)
    let src := els.map (fun x =>
      (d.linear x.1 x.2.1, x.2.2, kept.contains (x.1 * d.gpr + x.2.1 / 128, x.2.1 % 128)))
    let s := s.writeConverted d v
    let s := (v.blocks d).foldl (fun s t => ((s.clearBad (d.blockAddr t) 4096).clearBad (d.trailerAddr t) 16).clearPoison
      (d.blockAddr t) 4096) s
    let s := v.records.foldl (fun s p => s.clearBad p.1 16) s
    let s := s.countStore c d v.counts
    let s := s.statStore c d staBinds src v.counts
    (s.watchStore c step d (v.blocks d), 0)

/-- The elements of a whole tensor, in ascending linear index, with the value that `f` gives each (row, index). -/
def Desc.allElems (d : Desc) (f : Nat → Nat → Val) : List (Nat × Nat × Val) :=
  (List.range d.rows).flatMap (fun r => (List.range (d.dimAt 0)).map (fun i => (r, i, f r i)))

end Sys2Proof.Machine
end

