-- ==== Sys2Proof/Machine/Arbiter.lean ====
section
/-!
DEFINITION. The choice of the core that arbitrates for another (R132), and who is busy with it.
-/
namespace Sys2Proof.Machine

/-- The cores of partition `p` on this chip, in ascending number. -/
def State.coresOf (s : State) (p : Nat) : List Nat :=
  (s.cores.filter (fun x => decide (x.2.part = some p))).map (fun x => x.1)

/-! ## Liberos -/

/-- Does physical slot `k` of die `d` serve an architectural core (R22)? -/
def State.slotServes (s : State) (d k : Nat) : Bool :=
  (List.range 32).any (fun j => decide (s.rd (.pmkCoreIdentPhysSlot (32 * d + j)) = k))

/-- The free liberos of die `d`, in ascending slot: not benched and serving no core (R132). -/
def State.freeLiberos (s : State) (d : Nat) : List Nat :=
  [32, 33].filter (fun k => !(s.benched.contains (d, k)) && !(s.slotServes d k))

/-- The hop count between two compute dies (R20). -/
def hops (a b : Nat) : Nat :=
  let d (x y : Nat) : Nat := (x - y) + (y - x)
  d (a / 4) (b / 4) + d (a % 4) (b % 4)

/-- The dies in the order of R132 steps 1 and 2: by hop count from `d`, lower number first. -/
def diesFrom (d : Nat) : List Nat := (List.range 5).flatMap (fun h => (List.range 8).filter (fun x => decide (hops d x = h)))

/-- The physical place (die, slot) of the arbitrating core (R132), if there is a candidate. -/
def State.arbiterOf (s : State) (c : Nat) : Option (Nat × Nat) :=
  let d := s.coreDie c
  match (diesFrom d).findSome? (fun x => ((s.freeLiberos x).head?).map (fun k => (x, k))) with
  | some x => some x
  | none =>
    match (s.core c).part with
    | none => none
    | some p =>
      let others := (s.coresOf p).filter (fun x => !(decide (x = c)))
      (((others.filter (fun x => decide (s.coreDie x = d))) ++ others).head?).map (fun x =>
        (s.coreDie x, s.rd (.pmkCoreIdentPhysSlot x)))

/-- The arbitrations, as (core, arbitration), that may need a second core: all but those of an injected array residue, whose
same-core replay agrees. -/
def State.arbRequests (s : State) : List (Nat × Arb) :=
  s.cores.flatMap (fun x => (x.2.arbs.filter (fun a => decide (a.cause ≠ 1))).map (fun a => (x.1, a)))

/-- Is the physical core (die, slot) that serves core `c` the arbitrating core of another core's arbitration? Then it pauses issue
for the duration, where it is a core of the job (R132). -/
def State.arbitrates (s : State) (c : Nat) : Bool :=
  let me := (s.coreDie c, s.rd (.pmkCoreIdentPhysSlot c))
  s.arbRequests.any (fun x => decide (x.1 ≠ c) && decide (s.arbiterOf x.1 = some me))

/-- Does an earlier arbitration of another core stand before this one at its arbitrating core (R132: one core at a time, first in,
first out)? -/
def State.arbQueued (s : State) (c : Nat) (a : Arb) : Bool :=
  s.arbRequests.any (fun x => decide (x.1 ≠ c ∧ x.2.order < a.order) && decide (s.arbiterOf x.1 = s.arbiterOf c))

end Sys2Proof.Machine
end

