-- ==== Sys2Proof/Machine/Issue.lean ====
section
/-!
DEFINITION. The playmaker's shared operations: the header's validity (R199, R220, Table 8-8), the issue checks (R203,
Table 8-6), issue (R205), retirement (R206, R207), failure and halting (R208, R216 to R219), breakpoints (R218, R400),
the trace queue (R407) and the performing of signals (R201).
-/
namespace Sys2Proof.Machine

/-! ## Signals -/

/-- The state after an agent of this chip has performed a signal entry: on an object of this chip it goes to the
object's home; on another chip's it leaves as a message, or is lost with LNK_UNREACHABLE (R201, R234, R338). -/
def State.performSignal (s : State) (unit part index : Nat) (g : SignalEntry) : State :=
  if g.kind = 0 then s
  else if s.isLocal g.chip then
    (s.setSignals (s.signals ++ [⟨unit, some part, 0xFFFF, g.object, decide (g.kind = 2), index⟩]))
  else s.sendMsg unit sevNotice part (s.message 0x30 0 g.chip 0 (g.object + g.kind * 2 ^ 16) 0)

/-! ## Tracing -/

/-- Is engine `e` of a core of partition `p` traced (R407)? -/
def State.traced (s : State) (p e : Nat) : Bool :=
  decide (p < 16) && s.rdBit (.trcPCtrlEnable p) && bitAt (s.rd (.trcPCtrlEngines p)) e

/-- The core's trace queue after one entry is offered: a full queue loses it; the entry that follows a loss is
preceded by a LOST entry in the reserved place (R407). -/
def Core.offerTrace (k : Core) (x : TraceEntry) : Core :=
  if (k.traceQ.filter (fun y => !(decide (y.kind = 0x82)))).length ≥ 64 then
    { k with traceLost := min (k.traceLost + 1) u32Max }
  else if k.traceLost = 0 then { k with traceQ := k.traceQ ++ [x] }
  else
    let lost : TraceEntry := { x with status := 0, kind := 0x82, index := 0, opcode := 0, stream := 0, token := 0,
                                      step := 0, arg := k.traceLost }
    { k with traceQ := k.traceQ ++ [lost, x], traceLost := 0 }

/-- The state after an entry has been offered to the trace queue of core `c`; an entry lost at a full queue is counted. -/
def State.offer (s : State) (c : Nat) (x : TraceEntry) : State :=
  let lost := decide (((s.core c).offerTrace x).traceLost > (s.core c).traceLost)
  let s := s.modCore c (fun k => k.offerTrace x)
  if lost then s.count (Reg.trcCnt 1) 1 else s

/-- The state after engine `e` of core `c` has offered a BEGIN (0x80) or END (0x81) entry for a command (Table 16-1). -/
def State.trace (s : State) (c e kind status : Nat) (i : Issued) : State :=
  if s.traced (s.corePart c) e then
    s.offer c
      { dtime := s.dtime, status := status, unit := s.unitCore c e, part := s.corePart c, kind := kind,
        index := i.index, opcode := i.opcode, stream := i.stream, token := i.token, step := i.step % 2 ^ 32,
        arg := cmdEpoch i.cmd }
  else s

/-- The state after the one END entry of a command that fails before issue (R406); `w` is the command where it is known. -/
def State.traceFailed (s : State) (c status index op w : Nat) : State :=
  if s.traced (s.corePart c) engPmk then
    s.offer c
      { dtime := s.dtime, status := status, unit := s.unitCore c engPmk, part := s.corePart c, kind := 0x81,
        index := index, opcode := op,
        stream := (match (s.core c).seg with
          | some r => r.record.stream
          | none => 0),
        token := cmdToken w, step := (s.reg (Reg.pmkStep c)).toNat % 2 ^ 32, arg := cmdEpoch w }
  else s

/-! ## The header -/

/-- The queue and the required ENGINE of an opcode; for DMA commands the ENGINE names the channel (Table 8-7). -/
def opcodeRow (op engine : Nat) : Option (Queue × Nat) :=
  match op with
  | 0x01 | 0x02 | 0x03 | 0x04 | 0x05 | 0x06 => some (.pmk, 0)
  | 0x10 | 0x11 | 0x12 | 0x13 => some (.arr, 1)
  | 0x18 | 0x19 | 0x1A | 0x1B => some (.sbk, 2)
  | 0x20 | 0x21 | 0x22 => some (.cnv, 3)
  | 0x28 | 0x29 | 0x2A | 0x2B => some (.vec, 4)
  | 0x30 => some (.pmk, 5)
  | 0x31 => some (.out, 5)
  | 0x38 => some (.pmk, 7)
  | 0x40 | 0x41 => some (.dma (engine - 9), if engine < 9 then 9 else min engine 12)
  | _ => none

/-- The queue depths of R203; the playmaker's own commands have none. -/
def Queue.depth : Queue → Nat
  | .arr => 4
  | .sbk => 4
  | .pmk => 64
  | _ => 8

/-- The engine whose entries trace a queue (R406, Table 1-5). -/
def Queue.engine : Queue → Nat
  | .arr => engArr
  | .sbk => engBook
  | .cnv => engCnv
  | .vec => engVec
  | .out => engOut
  | .pmk => engPmk
  | .dma k => engDma k

/-- Is a reserved bit of the header nonzero (R199)? -/
def headerReserved (w : Nat) : Bool :=
  decide (bitsAt w 14 2 ≠ 0 ∨ bitsAt w 22 2 ≠ 0 ∨ bitsAt w 29 3 ≠ 0) ||
  (List.range 4).any (fun n => decide ((cmdWait w n).2.2 ≠ 0)) ||
  (List.range 2).any (fun n => decide ((cmdSignal w n).rsv ≠ 0))

/-- Is a wait or signal KIND 3, or a TOKEN wait's INDEX above 63 (reason 0x04)? -/
def headerKinds (w : Nat) : Bool :=
  (List.range 4).any (fun n =>
    let x := cmdWait w n
    decide (x.2.1 = 3 ∨ (x.2.1 = 1 ∧ x.1 > 63))) ||
  (List.range 2).any (fun n => decide ((cmdSignal w n).kind = 3))

/-- The reason of Table 8-8 for which a header is refused, the lowest-numbered where several apply (R223). -/
def headerReason (w : Nat) : Option Nat :=
  match opcodeRow (cmdOpcode w) (cmdEngine w) with
  | none => some 0x01
  | some (_, e) =>
    if cmdEngine w ≠ e then some 0x02
    else if headerReserved w then some 0x03
    else if headerKinds w then some 0x04
    else none

/-! ## The head -/

/-- The command at the head, if it is fetched. -/
def Core.head (k : Core) : Option Nat := k.buf.head?

/-- Has the head's first sync wait begun (R204)? -/
def Core.waitsBegun (k : Core) : Bool := decide (k.waitsDone ≠ 0) || k.waiting

/-- The stream of the current segment. -/
def Core.stream (k : Core) : Nat := match k.seg with
  | some r => r.record.stream
  | none => 0

/-- The wait slots of a command that are SYNC waits, in order (R203, check 9). -/
def syncWaits (w : Nat) : List (Nat × Nat) :=
  (List.range 4).filterMap (fun n =>
    let x := cmdWait w n
    if x.2.1 = 2 then some (n, x.1) else none)

/-- The TOKEN waits are satisfied: no issued, unretired command holds one of those tokens (R200). -/
def Core.tokensClear (k : Core) (w : Nat) : Bool :=
  (List.range 4).all (fun n =>
    let x := cmdWait w n
    !(decide (x.2.1 = 1) && k.inflight.any (fun i => decide (i.token = x.1))))

/-- The live regions of a core. -/
def Core.regions (k : Core) : List Region := k.inflight.flatMap (fun i => i.regions)

/-- Do two regions conflict (R210)? -/
def Region.conflicts (a b : Region) : Bool :=
  decide (a.book = b.book ∧ a.lo ≤ b.hi ∧ b.lo ≤ a.hi) && ((a.rd && b.wr) || (a.wr && b.rd) || (a.wr && b.wr))

/-- Do the regions of a command for queue `q` conflict with no live region of another queue (R210)? -/
def Core.regionsClear (k : Core) (q : Queue) (rs : List Region) : Bool :=
  k.inflight.all (fun i => decide (i.queue = q) || i.regions.all (fun b => rs.all (fun a => !(a.conflicts b))))

/-- Is the governor's context of partition `p` enabled (R150)? -/
def State.pgvEnabled (s : State) (p : Nat) : Bool := decide (p < 16) && s.rdBit (.pgvCtxCtrlEnable p)

/-- Must a fingerprint round at the end of step `n` still give its result (R138, R139)? -/
def State.fingerprintDue (s : State) (p n : Nat) : Bool :=
  let j := Sparse.get Job.empty s.jobs p
  decide (j.fpInterval ≠ 0 ∧ n % j.fpInterval = 0 ∧ j.fpDone ≠ some n)

/-- Is the wait of the core's first fence after its step's end met (R162 step 1, R163)? The next step does not start while a
fingerprint round of the step that ended is open (R139). -/
def State.fenceMet (s : State) (c : Nat) : Bool :=
  let k := s.core c
  !k.needFence || (!(s.fingerprintDue (s.corePart c) ((s.reg (Reg.pmkStep c)).toNat - 1)) && (!(s.pgvEnabled (s.corePart c)) ||
    decide (s.rd (.pgvStatusPublishedStep (s.corePart c)) = k.endedStep % 2 ^ 32)))

/-- Checks 3 to 8 of Table 8-6 for a head command of queue `q` with regions `rs`. -/
def State.checks3to8 (s : State) (c w : Nat) (q : Queue) (rs : List Region) : Bool :=
  let k := s.core c
  !(k.inflight.any (fun i => decide (i.opcode = 0x03))) && s.fenceMet c &&
  k.tokensClear w &&
  !(k.inflight.any (fun i => decide (i.token = cmdToken w))) &&
  decide ((k.inflight.filter (fun i => decide (i.queue = q))).length < q.depth) &&
  k.regionsClear q rs &&
  decide (k.regions.length + rs.length ≤ 32)

/-- Is the command at the head one whose header is not valid (check 1)? -/
def Core.headInvalid (k : Core) : Bool := k.head.any (fun w => (headerReason w).isSome)

/-- Is the core issuing: RUNNING, not stopping, and not held at the boundary by a halt request (check 2, R204)? -/
def Core.issuing (k : Core) : Bool :=
  decide (k.pstate = 1 ∧ k.stopping = .no) && (decide (k.haltReq = 0) || k.waitsBegun)

/-! ## Breakpoints (R218, R400) -/

/-- Does match register `n` match the command with this index, opcode and stream (R400)? -/
def State.brkMatch (s : State) (c n index op stream : Nat) : Bool :=
  s.rdBit (.pmkBrkEnable c n) &&
  (!(s.rdBit (.pmkBrkMatchIndex c n)) || decide (s.rd (.pmkBrkIndex c n) = index)) &&
  (!(s.rdBit (.pmkBrkMatchOpcode c n)) || decide (s.rd (.pmkBrkOpcode c n) = op)) &&
  (!(s.rdBit (.pmkBrkMatchStream c n)) || decide (s.rd (.pmkBrkStream c n) = stream))

/-- The match registers that match the head of core `c`. -/
def State.brkHits (s : State) (c : Nat) : List Nat :=
  let k := s.core c
  match k.head with
  | none => []
  | some w => (List.range 4).filter (fun n => s.brkMatch c n k.headIndex (cmdOpcode w) k.stream)

/-- Does a breakpoint match the head of core `c` at check 2: BRK_EN set, the head not resumed from its own breakpoint and none of
its sync waits begun (R204, R218)? -/
def State.breaks (s : State) (c : Nat) : Bool :=
  let k := s.core c
  match k.head with
  | none => false
  | some w =>
    s.rdBit (.pmkCtrlBrkEn c) && !k.brkSkip && !k.waitsBegun && (headerReason w).isNone &&
      (cmdBrk w || !((s.brkHits c).isEmpty))

/-- All checks of Table 8-6 for the head of core `c`, for an opcode, its queue and its regions. A core of the job that arbitrates
for another pauses issue (R132). -/
def State.mayIssue (s : State) (c op : Nat) (q : Queue) (rs : List Region) : Bool :=
  let k := s.core c
  match k.head with
  | none => false
  | some w =>
    decide (cmdOpcode w = op) && (headerReason w).isNone && k.issuing && !(s.breaks c) && !(s.arbitrates c) &&
      s.checks3to8 c w q rs &&
      !k.waiting && decide (k.waitsDone = (syncWaits w).length)

/-! ## Stopping -/

/-- The state with a core that has decided to stop and has nothing in flight in HALTED (R216). -/
def State.enterHalted (s : State) (c cause : Nat) : State :=
  s.modCore c (fun k => { k with pstate := 2, stopping := .no, haltCause := cause, haltReq := 0 })

/-- The state after core `c` is asked to halt: at the next command boundary (R204, R217), behind the header check of the command
that stands there (R203); a failure wins (R216). -/
def State.haltCore (s : State) (c cause : Nat) : State :=
  let k := s.core c
  if k.pstate = 2 ∨ k.pstate = 3 ∨ k.stopping = .failed then s
  else if k.pstate = 0 ∨ k.waitsBegun ∨ k.headInvalid then s.modCore c (fun k => { k with haltReq := cause })
  else if k.inflight.isEmpty then s.enterHalted c cause
  else s.modCore c (fun k => { k with stopping := .halt cause, haltCause := cause, haltReq := 0 })

/-- The state after core `c` enters FAULTED: its dispatcher halts every other core of the job with cause 3, and the job is
faulted (R219, Table 12-8). -/
def State.enterFaulted (s : State) (c : Nat) : State :=
  let s := s.modCore c (fun k => { k with pstate := 3, stopping := .no, haltCause := 4, haltReq := 0 })
  match (s.core c).part with
  | none => s
  | some p =>
    let s := if s.rd (.hifPartStatusState p) = 3 then s.wr (.hifPartStatusState p) 5 else s
    ((s.coresOf p).filter (fun x => !(decide (x = c)))).foldl (fun s x => s.haltCore x 3) s

/-- The state after a stop whose drain is done takes effect (R216). -/
def State.settle (s : State) (c : Nat) : State :=
  let k := s.core c
  if k.inflight.isEmpty then
    match k.stopping with
    | .no => s
    | .halt cause => s.enterHalted c cause
    | .failed => s.enterFaulted c
  else s

/-- The state after a failure of core `c` (R208): issue stops, the first failure stands in PMK_FAULT, and the core
enters FAULTED once nothing is in flight. -/
def State.failCore (s : State) (c code index op stream : Nat) : State :=
  if (s.core c).pstate = 3 ∨ (s.core c).stopping = .failed then s
  else
    let s := s.setReg (Reg.pmkFault c) (BitVec.ofNat 64 (code + index * 2 ^ 16 + op * 2 ^ 40 + stream * 2 ^ 48))
    (s.modCore c (fun k => { k with stopping := .failed, haltCause := 4, haltReq := 0 })).settle c

/-- The state after a refusal by the playmaker: HQ_CMD_INVALID with a reason of Table 8-8, and the failure (R223). -/
def State.refuseCommand (s : State) (c reason index op : Nat) : State :=
  let st := (s.core c).stream
  (s.raiseCore .hqCmdInvalid c engPmk
    (payload [(16, 1, reason), (20, 4, index), (24, 2, st), (26, 1, op)])).failCore c Code.hqCmdInvalid.val index op st

/-! ## Check 2 -/

/-- The state after the breakpoints have been tested on the head, when it is at check 2 (R218, R400): a match halts the core before
the command issues and raises DBG_BREAK, which names the lowest-numbered source; on resume the head is not tested again. -/
def State.testBreak (s : State) (c : Nat) : State :=
  let k := s.core c
  match k.head with
  | none => s
  | some w =>
    if k.pstate = 1 ∧ k.stopping = .no ∧ k.haltReq = 0 ∧ s.breaks c = true then
      let hits := s.brkHits c
      let src := if cmdBrk w then 0 else 1 + hits.headD 0
      let s := hits.foldl (fun s n =>
        if s.rdBit (.pmkBrkOnce c n) then s.wr (.pmkBrkEnable c n) 0 else s) s
      let s := (s.modCore c (fun k => { k with brkSkip := true })).haltCore c 2
      s.raiseCore .dbgBreak c engPmk
        (payload [(16, 3, k.headIndex), (19, 1, cmdOpcode w), (20, 2, k.stream), (22, 1, src)])
    else s

/-- The state after a halt request that waited for the command boundary takes effect (R204, R217). -/
def State.testHalt (s : State) (c : Nat) : State :=
  let k := s.core c
  if k.haltReq ≠ 0 ∧ k.pstate = 1 ∧ k.stopping = .no ∧ k.waitsBegun = false then s.haltCore c k.haltReq else s

/-- What follows when a new command stands at the head: pending halts, then breakpoints (check 2). -/
def State.atHead (s : State) (c : Nat) : State := (s.testHalt c).testBreak c

/-! ## Segments -/

/-- Is a segment record for core `c` one that R197 admits? -/
def segRecOk (c : Nat) (r : SegRec) : Bool :=
  decide (r.count ≠ 0 ∧ r.base % 64 = 0) &&
  (decide (r.base + 64 * r.count ≤ 0x010000000000) || inStore c r.base (64 * r.count))

/-- The state after the core has taken the next record of its segment queue, if there is one; with none it is IDLE
(R198, R216). A record that R197 refuses faults the core with reason 0x08. -/
def State.nextSegment (s : State) (c : Nat) : State :=
  let k := s.core c
  match k.segq with
  | [] => s.modCore c (fun k => { k with seg := none, buf := [], headIndex := 0, pstate := 0 })
  | r :: t =>
    let run : SegRun := ⟨k.segNo, r, false, 0⟩
    let s := s.modCore c (fun k => { k with
      segq := t, seg := some run, segNo := k.segNo + 1, segOpen := k.segOpen ++ [run], buf := [], headIndex := 0,
      pstate := 1 })
    if segRecOk c r then s.testHalt c else s.refuseCommand c 0x08 0 0

/-! ## Issue -/

/-- The step number that a core's commands use (R214). -/
def State.pmkStep (s : State) (c : Nat) : Nat := (s.reg (Reg.pmkStep c)).toNat

/-- The epoch of the core's commands from its next issue on: the first fence of a step takes EPOCH where the context is
enabled (R162 step 1, R163). -/
def State.issueEpoch (s : State) (c : Nat) : Nat :=
  let k := s.core c
  if k.needFence && s.pgvEnabled (s.corePart c) then s.rd (.pgvEpochEpoch (s.corePart c)) else k.epoch

/-- The record of the head command as issue makes it (R205). -/
def State.issued (s : State) (c w : Nat) (q : Queue) (rs : List Region) : Issued :=
  let k := s.core c
  { token := cmdToken w, queue := q, opcode := cmdOpcode w, index := k.headIndex,
    seg := (match k.seg with
      | some r => r.no
      | none => 0),
    stream := k.stream, cmd := cmdSetEpoch w (s.issueEpoch c), step := s.pmkStep c, regions := rs,
    progress := .waiting, next := 0, ovfFirst := 0, ovfCount := 0, infFirst := 0, infCount := 0,
    outBinds := s.outBinds c, staBinds := s.staBinds c, tx := (1, 0) }

/-- The state with the head command issued into its queue (R205): its token, regions and place are held; the next
command stands at the head. -/
def State.issueHead (s : State) (c w : Nat) (q : Queue) (rs : List Region) : State :=
  let i := s.issued c w q rs
  let e := s.issueEpoch c
  (s.modCore c (fun k => { k with
    inflight := k.inflight ++ [i], buf := k.buf.tail, headIndex := k.headIndex + 1, waitsDone := 0, waiting := false,
    waitDeadline := none, brkSkip := false, needFence := false, epoch := e })).count (Reg.pmkCnt c 0) 1

/-- The number of commands of the current segment. -/
def Core.segCount (k : Core) : Nat := match k.seg with
  | some r => r.record.count
  | none => 0

/-- What follows an issue that leaves fetch where it was: reaching index COUNT faults the core with reason 0x07 (R202),
and the new head meets check 2. -/
def State.afterIssue (s : State) (c : Nat) : State :=
  let k := s.core c
  if k.seg.isSome ∧ k.headIndex = k.segCount ∧ k.stopping = .no ∧ k.pstate = 1 then s.refuseCommand c 0x07 k.headIndex 0
  else s.atHead c

/-- The state with the head of core `c` issued, if it is the opcode and passes every check. -/
def State.tryIssue (s : State) (c op : Nat) (q : Queue) (regions : Nat → List Region) : State :=
  match (s.core c).head with
  | none => s
  | some w => if s.mayIssue c op q (regions w) then (s.issueHead c w q (regions w)).afterIssue c else s

/-! ## Operands of engine commands -/

/-- The field of width `n` at bit `lo` of byte `b` of a command. -/
def opBits (w b lo n : Nat) : Nat := bitsAt w (8 * b + lo) n

/-- Are all bits of bytes 32 to 63 outside the listed fields (byte, bit, width) zero? -/
def opsClean (w : Nat) (fields : List (Nat × Nat × Nat)) : Bool :=
  decide (bitsAt (fields.foldl (fun x f => putBits x (8 * f.1 + f.2.1) f.2.2 0) w) 256 256 = 0)

/-- The CPA of the descriptor at core-store offset `off` of core `c`. -/
def descAt (c off : Nat) : Nat := coreWindow c + off

/-- The region of the tensor whose descriptor lies at core-store offset `off` (R209); none for a descriptor that is
not a valid one of a tensor in the core store. -/
def State.opRegion (s : State) (c off : Nat) (rd wr : Bool) : List Region :=
  if off % 64 ≠ 0 ∨ off + 64 > storeSize then []
  else if (s.descInvalid (descAt c off) wr).isSome then []
  else (s.desc (descAt c off)).region c rd wr

/-- A region of scorebook entries (R85). -/
def bookRegion (lo hi : Nat) (rd wr : Bool) : Region := ⟨true, lo, min hi (bookSize - 1), rd, wr⟩

/-- The state after NUM_DESC_INVALID for the descriptor at CPA `da` (Table 2-6). -/
def State.raiseDesc (s : State) (c engine da reason : Nat) : State :=
  s.raiseCore .numDescInvalid c engine (payload [(16, 8, da), (24, 1, reason)])

/-! ## Parity (R121) -/

/-- The state after INT_PARITY. -/
def State.raiseParity (s : State) (c engine sev a kind : Nat) : State :=
  s.raiseAs .intParity sev (s.unitCore c engine) (s.corePart c) (payload [(16, 8, a), (24, 1, kind)])

/-- The state after the parity errors that the hardware brings to a command of an engine, and the status code of the
one that fails the command, 0 for none (Table 5-2). -/
def State.applyHw (s : State) (c engine : Nat) : List Hw → State × Nat
  | [] => (s, 0)
  | .path :: t => (s.raiseParity c engine sevRecovered 0 0).applyHw c engine t
  | .pathFail :: _ => (s.raiseParity c engine sevFailed 0 0, Code.intParity.val)
  | .bank :: _ => (s.raiseParity c engine sevFailed 0 1, Code.intParity.val)
  | .cellOnce a :: t => (s.raiseParity c engStore sevRecovered a 1).applyHw c engine t
  | .cell a :: t => State.applyHw (s.setBad (Sparse.insert a true s.bad)) c engine t
  | .corr k :: t => State.applyHw (s.modCore c (fun q => { q with corrBad := k :: q.corrBad })) c engine t
  | .binding n :: t => State.applyHw (s.modCore c (fun q => { q with bindBad := n :: q.bindBad })) c engine t
  | .reread _ :: t => s.applyHw c engine t
  | .rereadId _ :: t => s.applyHw c engine t
  | .line a e :: t => (s.lineError a e).applyHw c engine t
  | .unit _ _ _ :: t => s.applyHw c engine t
  | .cacheLine a :: t => (s.cacheParity a).applyHw c engine t
  | .mismatch _ _ :: t => s.applyHw c engine t
  | .differ _ :: t => s.applyHw c engine t

/-- The column blocks (or 1 for CNV and VEC) in which the hardware makes the check of a unit of work fail. -/
def hwMask (l : List Hw) (unit : Nat) : Nat :=
  l.foldl (fun m h => match h with
    | .mismatch u k => if u = unit then m ||| k else m
    | _ => m) 0

/-- Do the two runs of a unit of a replay-verified core differ (R133)? -/
def hwDiffers (l : List Hw) (unit : Nat) : Bool := l.contains (.differ unit)

/-! ## Execution and retirement -/

/-- The commands of a queue in issue order. -/
def Core.queue (k : Core) (q : Queue) : List Issued := k.inflight.filter (fun i => decide (i.queue = q))

/-- Has the command been executed? -/
def Issued.done (i : Issued) : Bool :=
  match i.progress with
  | .executed _ => true
  | _ => false

/-- The core with the progress of the command that holds a token replaced. -/
def Core.setProgress (k : Core) (token : Nat) (p : Progress) : Core :=
  { k with inflight := k.inflight.map (fun i => if i.token = token then { i with progress := p } else i) }

/-- The state with a command marked executed with a status code (0 for success). -/
def State.executed (s : State) (c token code : Nat) : State :=
  s.modCore c (fun k => k.setProgress token (.executed code))

/-- The state with a command marked begun, and its BEGIN entry traced. -/
def State.began (s : State) (c : Nat) (i : Issued) : State :=
  if i.progress = .waiting then (s.modCore c (fun k => k.setProgress i.token .running)).trace c i.queue.engine 0x80 0 i
  else s

/-- The state with a field of an issued command changed. -/
def State.modIssued (s : State) (c token : Nat) (f : Issued → Issued) : State :=
  s.modCore c (fun k => { k with inflight := k.inflight.map (fun i => if i.token = token then f i else i) })

/-- The first command of a queue that is not executed. -/
def Core.nextOf (k : Core) (q : Queue) : Option Issued := (k.queue q).find? (fun i => !i.done)

/-- The state with a retired command gone: its token, its queue place and its regions are free (R206), and the layer
fences that recorded its token wait for it no longer (R291). -/
def State.dropCommand (s : State) (c token : Nat) : State :=
  let s := s.modCore c (fun k => { k with inflight := k.inflight.filter (fun i => !(decide (i.token = token))) })
  (s.setFences (s.fences.map (fun f =>
      if f.core = c then { f with tokens := f.tokens.filter (fun t => !(decide (t = token))) } else f)))

/-- The core after a command of its open segment number `seg` has failed with a code: the segment keeps the first one. -/
def Core.segFailed (k : Core) (seg code : Nat) : Core :=
  { k with segOpen := k.segOpen.map (fun r => if r.no = seg ∧ r.status = 0 then { r with status := code } else r) }

/-- The core with its partial of a step changed. -/
def Core.modNorm (k : Core) (step : Nat) (f : NormPart → NormPart) : Core :=
  let x := (k.norms.find? (fun x => decide (x.step = step))).getD ⟨step, 0, 0, false⟩
  { k with norms := k.norms.filter (fun x => !(decide (x.step = step))) ++ [f x] }

/-- The state after a command has retired with a status code: its END entry, its token freed, its signals performed if
it succeeded (R207) and the LAST of an OPT_NORM noted (R172), the core's failure if it did not (R208). -/
def State.retire (s : State) (c : Nat) (i : Issued) (code : Nat) : State :=
  let s := (s.dropCommand c i.token).trace c i.queue.engine 0x81 code i
  if code = 0 then
    let u := s.unitCore c engPmk
    let p := s.corePart c
    let s := if i.opcode = 0x28 ∧ bitAt i.cmd (8 * 38) = true then
        s.modCore c (fun k => k.modNorm (i.step % 2 ^ 32) (fun x => { x with last := true }))
      else s
    (s.performSignal u p i.index (cmdSignal i.cmd 0)).performSignal u p i.index (cmdSignal i.cmd 1)
  else (s.modCore c (fun k => k.segFailed i.seg code)).failCore c code i.index i.opcode i.stream

/-- The state after the oldest command of a queue has retired, if it is executed (R206). -/
def State.retireOldest (s : State) (c : Nat) (q : Queue) : State :=
  match (s.core c).queue q with
  | [] => s
  | i :: _ =>
    match i.progress with
    | .executed code => s.retire c i code
    | _ => s

/-- May an engine begin the command? -/
def Issued.mayRun (i : Issued) : Bool := decide (i.progress = .waiting)

/-- The state after an engine row of core `c`: the head is issued if it is the opcode and passes every check; then the
first command of the queue not yet executed is executed by `run`, if it is the opcode and has not begun. -/
def State.engineRow (s : State) (c op : Nat) (q : Queue) (regions : Nat → List Region)
    (run : State → Issued → State) : State :=
  let s := s.tryIssue c op q regions
  match (s.core c).nextOf q with
  | none => s
  | some i => if i.opcode = op ∧ i.mayRun = true then run s i else s

/-- The state after a playmaker row: the head, if it is the opcode and passes every check, is issued, executed by `run`
and retired (the playmaker executes the command at issue, R220). -/
def State.pmkRow (s : State) (c op : Nat) (run : State → Issued → State × Nat) : State :=
  match (s.core c).head with
  | none => s
  | some w =>
    if s.mayIssue c op .pmk [] then
      let i := s.issued c w .pmk []
      let s := (s.issueHead c w .pmk []).began c i
      let r := run s i
      (r.1.retire c i r.2).afterIssue c
    else s

end Sys2Proof.Machine
end

