-- ==== Sys2Proof/Machine/Job.lean ====
section
/-!
DEFINITION. What the governor, the optimiser and the partitions share of a job: its hidden state, its step, its stop (R321).
-/
namespace Sys2Proof.Machine

/-- The job of partition `p`. -/
def State.job (s : State) (p : Nat) : Job := Sparse.get Job.empty s.jobs p
def State.setJob (s : State) (p : Nat) (j : Job) : State := (s.setJobs (Sparse.put Job.empty p j s.jobs))
def State.modJob (s : State) (p : Nat) (f : Job → Job) : State := s.setJob p (f (s.job p))

/-- Has every core of the job on this chip ended the same step, with no later one begun: that step, as PMK_STEP counts. -/
def State.endedStep (s : State) (p : Nat) : Option Nat :=
  match s.coresOf p with
  | [] => none
  | c :: cs =>
    let n := s.pmkStep c
    if n > (s.job p).first ∧ cs.all (fun x => decide (s.pmkStep x = n)) = true then some (n - 1) else none

/-- The lowest-numbered core of the job on this chip. -/
def State.firstCore (s : State) (p : Nat) : Nat := (s.coresOf p).headD 0

/-- The unit of chip-level optimiser events (R195). -/
def State.unitOpt (s : State) (p : Nat) : Nat := s.unitCore (s.firstCore p) engVec

/-- The state after the job of partition `p` has been stopped at a step boundary by R135, R139, R154 or R172 (R321); a suspended job stands at one. -/
def State.stopJob (s : State) (p step : Nat) (cause : Code) : State :=
  if s.rd (.hifPartStatusState p) ≠ 3 ∧ s.rd (.hifPartStatusState p) ≠ 4 then s
  else
    let s := (s.coresOf p).foldl (fun s c => s.haltCore c 1) s
    let s := (s.wr (.hifPartStatusState p) 6).wr (.hifPartStatusStopCause p) cause.val
    s.raise .hqJobStopped unitPcie p (payload [(16, 4, step), (20, 2, cause.val)])

/-- The step whose checkpoint capture is due on this chip and has not begun (R187): the last published by a decision pass. -/
def State.captureDue (s : State) (p : Nat) : Option Nat :=
  match (s.job p).passed with
  | none => none
  | some n =>
    let k := s.rd (.optCkptCtrlInterval p)
    let req := s.rd (.optCkptCtrlReqStep p)
    if s.rdBit (.optCtxCtrlEnable p) = true ∧ (s.job p).pass = none ∧ (s.job p).captured ≠ some n ∧
        s.rd (.pgvStatusPublishedStep p) = n % 2 ^ 32 ∧
        ((k ≠ 0 ∧ n % k = 0) ∨ (req ≠ 0 ∧ req = n % 2 ^ 32)) then some n
    else none

end Sys2Proof.Machine
end

