-- ==== Sys2Proof/Machine/Mailbox.lean ====
section
/-!
DEFINITION. The mailboxes (R374 to R377) and the master identities (R371).
-/
namespace Sys2Proof.Machine

/-! ## Identities and bindings -/

/-- The identities of the referee and of the physical function (R371). -/
def idReferee : Nat := 1
def idPf : Nat := 2

/-- Bits [lo+4:lo] of a fuse field that stands in registers of 64 bits from `a` up. -/
def State.fuse5 (s : State) (a lo : Nat) : Nat :=
  let w := fun n => (s.reg (a + 8 * n)).toNat
  let n := lo / 64
  ((w n + w (n + 1) * 2 ^ 64) >>> (lo % 64)) % 32

/-- The master identity of hart `h`: MASTER_MAP (Table 14-7). -/
def State.hartIdentity (s : State) (h : Nat) : Nat := s.fuse5 (Reg.refFuseMap 0) (5 * h)

/-- The identities bound to channel `c` (Table 14-7); channel 0 is fixed (R374). -/
def State.mbxSender (s : State) (c : Nat) : Nat := if c = 0 then idPf else s.fuse5 (Reg.refFuseBind 0) (10 * c)
def State.mbxReceiver (s : State) (c : Nat) : Nat := if c = 0 then idReferee else s.fuse5 (Reg.refFuseBind 0) (10 * c + 5)

/-- Can the channel be used (R374)? -/
def State.mbxUsable (s : State) (c : Nat) : Bool := decide (c < 32 ∧ s.mbxSender c ≠ 0 ∧ s.mbxReceiver c ≠ 0)

/-- Is the channel POSTED (R375)? -/
def State.isPosted (s : State) (c : Nat) : Bool := s.rdBit (.mbxChCtrlGo c)

/-! ## Interrupts (R376) -/

/-- The state after the interrupt of identity `r`, if it has one enabled. -/
def State.mbxInterrupt (s : State) (r : Nat) : State :=
  if s.rdBit (.mbxRxIrqIrqEn r) = false then s
  else if r = idPf then s.sendMsix 0 (s.rd (.mbxRxIrqTarget r))
  else (s.setOut (s.out ++ [Output.imsic (s.rd (.mbxRxIrqHart r)) (s.rd (.mbxRxIrqTarget r))]))

/-- The state after bit `b` of MBX_RX_PEND of identity `r` has risen: an interrupt now, or owed until it is unmasked. The
referee's registers read 0. -/
def State.mbxRise (s : State) (r b : Nat) : State :=
  if r ≤ 1 ∨ r ≥ 32 ∨ (s.reg (Reg.mbxRxPend r)).field b 1 = 1 then s
  else
    let s := s.setReg (Reg.mbxRxPend r) ((s.reg (Reg.mbxRxPend r)).setField b 1 1)
    if (s.reg (Reg.mbxRxMask r)).field b 1 = 0 then s.mbxInterrupt r
    else (s.setReferee ({ s.referee with owed := s.referee.owed ++ [(r, b)] }))

/-- The state after bit `b` of identity `r` has fallen. -/
def State.mbxFall (s : State) (r b : Nat) : State :=
  if r ≤ 1 ∨ r ≥ 32 then s
  else
    let s := s.setReg (Reg.mbxRxPend r) ((s.reg (Reg.mbxRxPend r)).setField b 1 0)
    (s.setReferee ({ s.referee with owed := s.referee.owed.filter (fun x => !(decide (x = (r, b)))) }))

/-- The state after the interrupts owed to identity `r` whose bits are no longer masked have been sent. -/
def State.mbxUnmask (s : State) (r : Nat) : State :=
  let due := s.referee.owed.filter (fun x => decide (x.1 = r ∧ (s.reg (Reg.mbxRxMask r)).field x.2 1 = 0))
  let s := (s.setReferee ({ s.referee with owed := s.referee.owed.filter (fun x => !(due.contains x)) }))
  due.foldl (fun s _ => s.mbxInterrupt r) s

/-! ## Messages (R374, R375) -/

/-- The state after a refused access of an identity: `write` for a write. -/
def State.mbxDenied (s : State) (c id : Nat) (write : Bool) : State :=
  s.raise .mgtMbxDenied (unitMailbox c) noPart (payload [(16, 1, c), (17, 1, id), (18, 1, flag write)])

/-- MBX_MSG_WRITE: message register `i` of channel `c` is written by an identity: the sender in IDLE, the receiver in
POSTED. -/
def execMbxMsgWrite (id c i value : Nat) (s : State) : Host.Outcome State Fault Refusal :=
  if c ≠ 0 ∧ s.barShut false = true then .next (s.barAnswer false) else
  if c ≥ 32 ∨ i ≥ 16 then .next s
  else if s.mbxUsable c ∧ ((id = s.mbxSender c ∧ s.isPosted c = false) ∨ (id = s.mbxReceiver c ∧ s.isPosted c = true)) then
    .next (s.setReg (Reg.mbxChMsg c i) (BitVec.ofNat 64 value))
  else .next (s.mbxDenied c id true)

/-- The state after channel `c` has been acknowledged with a code. -/
def State.mbxAcknowledge (s : State) (c code : Nat) : State :=
  let s := (s.wr (.mbxChCtrlGo c) 0).setReg (Reg.mbxChAck c) (BitVec.ofNat 64 (code % 65536 + 65536))
  (s.mbxFall (s.mbxReceiver c) c).mbxRise (s.mbxSender c) (32 + c)

/-- The requests of Table 14-9 on channel 0. -/
def reqKnown (req : Nat) : Bool := decide (1 ≤ req ∧ req ≤ 0x0A)

/-- The state after MGT_REQ_INVALID: kind 1 unknown, 2 argument, 3 path. -/
def State.reqInvalid (s : State) (req kind : Nat) : State :=
  s.raise .mgtReqInvalid unitReferee noPart (payload [(16, 1, req), (17, 1, kind)])

/-- MBX_GO: GO of channel `c` is written 1 by an identity. The referee answers an unknown request on channel 0 at once
(R378). -/
def execMbxGo (id c : Nat) (s : State) : Host.Outcome State Fault Refusal :=
  if c ≠ 0 ∧ s.barShut false = true then .next (s.barAnswer false) else
  if c ≥ 32 then .next s
  else if s.mbxUsable c = false ∨ id ≠ s.mbxSender c then .next (s.mbxDenied c id true)
  else if s.isPosted c then .next (s.raise .mgtMbxBusy (unitMailbox c) noPart (payload [(16, 1, c)]))
  else
    let s := ((s.wr (.mbxChCtrlGo c) 1).wr (.mbxChAckValid c) 0).mbxRise (s.mbxReceiver c) c
    let req := (s.reg (Reg.mbxChMsg 0 0)).field 0 8
    if c = 0 ∧ reqKnown req = false then
      .next (((s.reqInvalid req 1).mbxAcknowledge 0 Code.mgtReqInvalid.val).count (Reg.refCnt 2) 1)
    else .next s

/-- MBX_ACK: the acknowledge CODE of channel `c` is written by an identity. -/
def execMbxAck (id c code : Nat) (s : State) : Host.Outcome State Fault Refusal :=
  if c ≠ 0 ∧ s.barShut false = true then .next (s.barAnswer false) else
  if c ≥ 32 then .next s
  else if s.mbxUsable c ∧ id = s.mbxReceiver c ∧ s.isPosted c = true then .next (s.mbxAcknowledge c code)
  else .next (s.mbxDenied c id true)

/-- MBX_DENIED_READ: a read of a register of channel `c` by an identity that is neither its sender nor its receiver returns
zero. -/
def execMbxDeniedRead (id c : Nat) (s : State) : Host.Outcome State Fault Refusal :=
  if c ≠ 0 ∧ s.barShut false = true then .next ((s.barAnswer false).setOut (s.out ++ [Output.readReply (some (2 ^ 64 - 1))])) else
  if c ≥ 32 ∨ (s.mbxUsable c = true ∧ (id = s.mbxSender c ∨ id = s.mbxReceiver c)) then .next s
  else .next ((s.mbxDenied c id false).setOut (s.out ++ [Output.readReply (some 0)]))

/-! ## Resets (R377) -/

/-- The state with the message registers of channel `c` zero. -/
def State.mbxClear (s : State) (c : Nat) : State := (List.range 16).foldl (fun s i => s.setReg (Reg.mbxChMsg c i) 0) s

/-- The state after MGT_MBX_ABORTED: kind 0 receiver reset, 1 sender reset. -/
def State.mbxAborted (s : State) (c kind : Nat) : State :=
  s.raise .mgtMbxAborted (unitMailbox c) noPart (payload [(16, 1, c), (17, 1, kind)])

/-- The state after a reset of channel `c` for its receiver, and for its sender. -/
def State.mbxReceiverReset (s : State) (c : Nat) : State :=
  let s := if s.isPosted c then (s.mbxAborted c 0).mbxAcknowledge c Code.mgtMbxAborted.val else s
  s.mbxClear c
def State.mbxSenderReset (s : State) (c : Nat) : State :=
  let s := if s.isPosted c then ((s.mbxAborted c 1).wr (.mbxChCtrlGo c) 0).mbxFall (s.mbxReceiver c) c else s
  s.mbxClear c

/-- The state after a reset of identity `r`: the channels that it receives, then those that it sends. -/
def State.mbxReset (s : State) (r : Nat) : State :=
  let cs := (List.range 32).filter s.mbxUsable
  let s := (cs.filter (fun c => decide (s.mbxReceiver c = r))).foldl (fun s c => s.mbxReceiverReset c) s
  (cs.filter (fun c => decide (s.mbxSender c = r))).foldl (fun s c => s.mbxSenderReset c) s

/-- The harts that carry partition `p` (R301): HIF_HART_PART. -/
def State.hartsOf (s : State) (p : Nat) : List Nat :=
  (List.range 32).filter (fun h =>
    let v := s.reg (Reg.hifHartPart (h / 8))
    decide (v.field (8 * (h % 8) + 7) 1 = 1 ∧ v.field (8 * (h % 8)) 4 = p))

/-- The state after the reset of partition `p`'s harts has met the mailboxes. -/
def State.mbxPartitionReset (s : State) (p : Nat) : State :=
  ((List.range 32).filter (fun r => decide (r ≠ 0) && (s.hartsOf p).any (fun h => decide (s.hartIdentity h = r)))).foldl (fun s r => s.mbxReset r) s

end Sys2Proof.Machine
end

