-- ==== Sys2Proof/Machine/MemTier.lean ====
section
/-!
DEFINITION. The memory tiers (chapter 10): scrubbing and mapping out (R249, R250), regions and quotas (R251 to R254),
and the objects of tier 3 (R257 to R260).
-/
namespace Sys2Proof.Machine

/-! ## Scrubbing (R249) -/

/-- PATROL_SCRUB (R249): a background pass meets the given lines with error patterns. -/
def execPatrolScrub (lines : List (Nat × List (Nat × Nat))) (s : State) : Host.Outcome State Fault Refusal :=
  .next (lines.foldl (fun s x => s.lineError x.1 x.2) s)

/-! ## Mapping out (R250) -/

/-- The CPA of byte `b` of channel `k` under an interleave list, or none where the channel is not in it: granules of
`g` bytes, from CPA `base`. -/
def encodeAddr (l : List Nat) (g base k b : Nat) : Option Nat :=
  (l.findIdx? (fun x => decide (x = k))).map (fun i => base + (b / g * l.length + i) * g + b % g)

/-- The entries of a store keyed by CPA after the lists of a range [lo, hi) have changed: the data stays in its channels,
so it moves to other addresses; what is no longer mapped, or lies beyond the new end, is gone. -/
def remap {α : Type} (dec : Nat → Nat × Nat) (l : List Nat) (g lo hi hi' : Nat) (m : List (Nat × α)) : List (Nat × α) :=
  m.foldl (fun acc p =>
    if p.1 < lo ∨ hi ≤ p.1 then Sparse.insert p.1 p.2 acc
    else
      let x := dec p.1
      match encodeAddr l g lo x.1 x.2 with
      | some a => if a < hi' then Sparse.insert a p.2 acc else acc
      | none => acc) []

/-- The state after the events of a list of mapped-out units. -/
def State.mappedOut (s : State) (tier die : Nat) (units : List Nat) : State :=
  units.foldl (fun s u => s.raise .memMappedOut unitReferee noPart (payload [(16, 1, tier), (17, 1, die), (18, 1, u)])) s

/-- The bits set in a mask of `n` bits. -/
def bitsOf (n m : Nat) : List Nat := (List.range n).filter (fun b => m.testBit b)

/-- The state with the new map of die `d`'s tier 1 (R241, R242). -/
def State.setT1Map (s : State) (d m : Nat) : State :=
  let lo := d * 0x2000000000
  let old := t1List (s.rd (.memT1MapInService d))
  let new := t1List m
  let f {α : Type} (x : List (Nat × α)) : List (Nat × α) :=
    remap (t1Decode old) new 256 lo (lo + 0x2000000000) (lo + new.length * gib2) x
  ((s.wr (.memT1MapInService d) m).setMem (f s.mem)).setPoison (f s.poison)

/-- The state with the new map of tier 2 (R245, R246): LIMIT and CHANNELS follow. -/
def State.setT2Map (s : State) (m : Nat) : State :=
  let lo := 0x010000000000
  let old := t2List s.t2Map
  let new := t2List m
  let f {α : Type} (x : List (Nat × α)) : List (Nat × α) :=
    remap (t2Decode old) new 512 lo 0x030000000000 (t2Limit new.length) x
  let s := ((s.setMem (f s.mem)).setPoison (f s.poison))
  let s := (s.wr (.memT2MapInService 0) (m % 2 ^ 64)).wr (.memT2MapInService 1) (m / 2 ^ 64)
  (s.wr .memT2LimitLimit (t2Limit new.length)).wr .memT2LimitChannels new.length

/-- The PENDING units of tier 2 as 128 bits. -/
def State.t2Pending (s : State) : Nat := s.rd (.memT2PendPending 0) + s.rd (.memT2PendPending 1) * 2 ^ 64

/-- The entries of the region table that are valid (R251). -/
def State.validRegions (s : State) : List (Nat × Word) :=
  (List.range 256).filterMap (fun n =>
    let v := s.reg (Reg.memRegion n)
    if v.field 31 1 = 1 then some (n, v) else none)

/-- Does a valid region lie in the tier, or on the die of tier 1? -/
def State.rangeHasRegion (s : State) (tier die : Nat) : Bool :=
  s.validRegions.any (fun x =>
    if tier = 1 then decide (x.2.field 0 1 = 0 ∧ x.2.field 1 11 / 128 = die) else decide (x.2.field 0 1 = 1))

/-- MAP_OUT_TAKE_EFFECT (R250): the PENDING units of die `die`'s tier 1, or of tier 2, leave the map, once no region
exists in the range. -/
def execMapOutTakeEffect (tier die : Nat) (s : State) : Host.Outcome State Fault Refusal :=
  if s.rangeHasRegion tier die then .next s
  else if tier = 1 ∧ die < 8 then
    let p := s.rd (.memT1PendPending die)
    if p = 0 then .next s
    else
      let m := s.rd (.memT1MapInService die)
      let s := (s.setT1Map die (m - (m &&& p))).wr (.memT1PendPending die) 0
      .next (s.mappedOut 1 die (bitsOf 64 p))
  else if tier = 2 then
    let p := s.t2Pending
    if p = 0 then .next s
    else
      let m := s.t2Map
      let s := ((s.setT2Map (m - (m &&& p))).wr (.memT2PendPending 0) 0).wr (.memT2PendPending 1) 0
      .next (s.mappedOut 2 0xFF (bitsOf 128 p))
  else .next s

/-! ## Regions (R251, R253) -/

/-- The granules of a die of tier 1, and of tier 2, that stay usable after every PENDING map-out (R251). -/
def State.t1Granules (s : State) (d : Nat) : Nat :=
  2 * popCount 64 (s.rd (.memT1MapInService d) - (s.rd (.memT1MapInService d) &&& s.rd (.memT1PendPending d)))
def State.t2Granules (s : State) : Nat := 16 * (popCount 128 (s.t2Map - (s.t2Map &&& s.t2Pending)) - 4)

/-- Does the range of MEM_REGION_ARG hold usable granules only, of one die in tier 1? -/
def State.argUsable (s : State) : Bool :=
  let b := s.rd .memRegionArgBase
  let n := s.rd .memRegionArgCount
  if s.rd .memRegionArgTier = 0 then decide (b < 1024 ∧ b % 128 + n ≤ s.t1Granules (b / 128))
  else decide (b + n ≤ s.t2Granules)

/-- Does the range overlap a valid region? -/
def State.argOverlaps (s : State) : Bool :=
  let b := s.rd .memRegionArgBase
  let n := s.rd .memRegionArgCount
  s.validRegions.any (fun x => decide (x.2.field 0 1 = s.rd .memRegionArgTier ∧ b < x.2.field 1 11 + x.2.field 12 11 ∧
    x.2.field 1 11 < b + n))

/-- Does the range of tier 1 hold the granule of an enabled trace pool (R405)? -/
def State.argPool (s : State) : Bool :=
  let b := s.rd .memRegionArgBase
  decide (s.rd .memRegionArgTier = 0) && (List.range 8).any (fun d =>
    let g := s.rd (.trcPoolBase d) / gib1
    s.rdBit (.trcPoolEnable d) && decide (b ≤ g ∧ g < b + s.rd .memRegionArgCount))

/-- The reason for which CREATE is refused, quota apart (Table 10-9). -/
def State.createRefusal (s : State) (n : Nat) : Option Nat :=
  let t := s.rd .memRegionArgType
  let tier := s.rd .memRegionArgTier
  let cnt := s.rd .memRegionArgCount
  if s.rdBit (.memRegionValid n) then some 3
  else if t = 0 ∨ t > 5 ∨ (tier = 0 ∧ t ≠ 1) ∨ (tier = 1 ∧ t = 1) then some 1
  else if cnt = 0 ∨ cnt > 1984 ∨ s.argUsable = false ∨ s.argOverlaps = true ∨ s.argPool = true then some 2
  else none

/-- The state after a refused region operation of partition `p`. -/
def State.regionRefused (s : State) (p n reason : Nat) : State :=
  (s.raise .memRegionInvalid unitReferee p (payload [(16, 1, n), (17, 1, reason)])).wr
    .memRegionStatusCode Code.memRegionInvalid.val

/-- The state after a refusal for quota: tier, requested, limit. -/
def State.quotaRefused (s : State) (p tier requested limit : Nat) : State :=
  s.raise .memQuota unitReferee p (payload [(16, 1, p), (17, 1, tier), (20, 4, requested), (24, 4, limit)])

/-- The quota and the use of a partition in tier 1 (0) or tier 2 (1). -/
def quotaField (p tier : Nat) : RF := if tier = 0 then .memQuotaT1 p else .memQuotaT2 p
def useField (p tier : Nat) : RF := if tier = 0 then .memUseT1 p else .memUseT2 p

/-- CREATE (R253, R254). -/
def State.regionCreate (s : State) (n : Nat) : State :=
  match s.createRefusal n with
  | some r => s.regionRefused (s.rd .memRegionArgPartition) n r
  | none =>
    let p := s.rd .memRegionArgPartition
    let tier := s.rd .memRegionArgTier
    let used := s.rd (useField p tier) + s.rd .memRegionArgCount
    let limit := s.rd (quotaField p tier)
    if used > limit then (s.quotaRefused p (tier + 1) used limit).wr .memRegionStatusCode Code.memQuota.val
    else
      let v := (s.reg Reg.memRegionArg).field 0 31
      ((s.setReg (Reg.memRegion n) (BitVec.ofNat 64 (v + 2 ^ 31))).wr (useField p tier) used).wr .memRegionStatusCode 0

/-- The CPA of a line of the memory-side cache. -/
def State.lineAddr (s : State) (x : CacheLine) : Nat :=
  (encodeAddr (t2List s.t2Map) 512 0x010000000000 x.channel (x.line * 128)).getD 0

/-- The state with the cache lines of tier-2 granules b to b + n - 1 invalidated (R253). -/
def State.dropLines (s : State) (b n : Nat) : State :=
  let lo := 0x010000000000 + b * gib1
  (s.setCache (s.cache.filterMap (fun p =>
      let l := p.2.filter (fun x => !(decide (lo ≤ s.lineAddr x ∧ s.lineAddr x < lo + n * gib1)))
      if l.isEmpty then none else some (p.1, l))))

/-- The state with region `n` gone (R253, FREE). -/
def State.freeRegion (s : State) (n : Nat) : State :=
  let v := s.reg (Reg.memRegion n)
  let tier := v.field 0 1
  let p := v.field 23 4
  let s := if tier = 1 then s.dropLines (v.field 1 11) (v.field 12 11) else s
  (s.wr (useField p tier) (s.rd (useField p tier) - v.field 12 11)).wr (.memRegionValid n) 0

/-- SEAL (R253). -/
def State.regionSeal (s : State) (n : Nat) : State :=
  if s.rdBit (.memRegionValid n) = false then s.regionRefused noPart n 3
  else if s.rd (.memRegionType n) ≠ 2 then s.regionRefused (s.rd (.memRegionPartition n)) n 1
  else (s.wr (.memRegionSealed n) 1).wr .memRegionStatusCode 0

/-- FREE (R253). -/
def State.regionFree (s : State) (n : Nat) : State :=
  if s.rdBit (.memRegionValid n) = false then s.regionRefused noPart n 3
  else (s.freeRegion n).wr .memRegionStatusCode 0

/-- A region operation through the physical function; a write through another function is discarded and counted. -/
def State.regionOp (s : State) (pf : Bool) (op n : Nat) : State :=
  if !pf then s.count (Reg.memCnt 9) 1
  else if op = 1 then s.regionCreate n
  else if op = 2 then s.regionSeal n
  else if op = 3 then s.regionFree n
  else s.regionRefused noPart n 4

def execRegionCreate (pf : Bool) (region : Nat) (s : State) : Host.Outcome State Fault Refusal :=
  if s.barShut pf then .next (s.barAnswer pf) else
  .next (s.regionOp pf 1 region)
def execRegionSeal (pf : Bool) (region : Nat) (s : State) : Host.Outcome State Fault Refusal :=
  if s.barShut pf then .next (s.barAnswer pf) else
  .next (s.regionOp pf 2 region)
def execRegionFree (pf : Bool) (region : Nat) (s : State) : Host.Outcome State Fault Refusal :=
  if s.barShut pf then .next (s.barAnswer pf) else
  .next (s.regionOp pf 3 region)

/-! ## Quotas (R254) -/

/-- The quota fields and the capacities of the three tiers. -/
def quotaOf (p tier : Nat) : RF := if tier = 1 then .memQuotaT1 p else if tier = 2 then .memQuotaT2 p else .memQuotaT3 p
def capacityOf (tier : Nat) : RF :=
  if tier = 1 then .memCapacityT1Gib else if tier = 2 then .memCapacityT2Gib else .memCapacityT3Units

/-- The sum of the locked quotas of a tier with partition `p`'s. -/
def State.lockedSum (s : State) (p tier : Nat) : Nat :=
  ((List.range 16).map (fun q => if q = p ∨ s.rdBit (.memQuotaLock q) = true then s.rd (quotaOf q tier) else 0)).foldl (· + ·) 0

/-- QUOTA_LOCK (R254): LOCK of MEM_QUOTA_p is written 1. -/
def execQuotaLock (p : Nat) (s : State) : Host.Outcome State Fault Refusal :=
  if s.barShut false then .next (s.barAnswer false) else
  if s.rdBit (.memQuotaLock p) then .next s
  else
    match [1, 2, 3].find? (fun t => decide (s.lockedSum p t > s.rd (capacityOf t))) with
    | some t => .next (s.quotaRefused p t (s.lockedSum p t) (s.rd (capacityOf t)))
    | none => .next (s.wr (.memQuotaLock p) 1)

/-! ## Tier 3 (R257 to R260) -/

/-- Object `id` of tier 3, if the catalogue has it. -/
def State.object (s : State) (id : Nat) : Option FlashObj :=
  (s.flash.find? (fun p => decide (p.1 = id))).map (fun p => p.2)

/-- The state with an object of tier 3 replaced, or gone. -/
def State.setObject (s : State) (id : Nat) (x : FlashObj) : State := (s.setFlash (Sparse.insert id x s.flash))
def State.dropObject (s : State) (id : Nat) : State := (s.setFlash (Sparse.erase id s.flash))

/-- The data units of a stripe, and its units, one on each flash channel (R257). -/
def stripeData : Nat := 15

/-- The place of a unit of an object among the data units of tier 3. -/
def FlashObj.place (x : FlashObj) (id unit : Nat) : Nat := Config.flashPlace id unit (Sparse.get 0 x.moves unit)

/-- The stripe of a unit, and its channel: stripe s has its XOR unit on channel s mod 16 and its 15 data units on the other
channels, here in ascending order from it (R257; the order is a DESIGN CHOICE, log entry 44). -/
def FlashObj.stripe (x : FlashObj) (id unit : Nat) : Nat := x.place id unit / stripeData
def FlashObj.channel (x : FlashObj) (id unit : Nat) : Nat := (x.stripe id unit + 1 + x.place id unit % stripeData) % 16

/-- Is there a second unit of the stripe `t`, beside unit `unit` of object `id` on channel `ch`, that neither NORMAL nor RETRY
reads: one on a failed channel, its XOR unit included, or one that has decayed so far? -/
def State.stripeBroken (s : State) (t ch id unit : Nat) : Bool :=
  s.flashDown.any (fun f => decide (f ≠ ch)) ||
    s.flash.any (fun o => o.2.weak.any (fun w =>
      decide (2 ≤ w.2 ∧ o.2.stripe o.1 w.1 = t ∧ ¬(o.1 = id ∧ w.1 = unit))))

/-- The least mode of R259 that reads a unit: 0 NORMAL, 1 RETRY, 2 RECONSTRUCT, 3 none. A unit on a failed channel needs
RECONSTRUCT, and none reads it when a second unit of its stripe is unreadable too. -/
def State.unitMode (s : State) (id unit : Nat) (x : FlashObj) : Nat :=
  let m := Sparse.get 0 x.weak unit
  let m := if s.flashDown.contains (x.channel id unit) then max m 2 else m
  if m = 2 ∧ s.stripeBroken (x.stripe id unit) (x.channel id unit) id unit = true then 3 else m

/-- The refusal of a read of `n` bytes at offset `o` of an object by an agent of partition `p` (Table 10-6), with the reason
byte of MEM_OBJECT_UNKNOWN. The referee's agents read every object. -/
def State.objectRefusal (s : State) (id o n : Nat) (p : Option Nat) : Option (Code × Nat) :=
  match s.object id with
  | none => some (.memObjectUnknown, 0)
  | some x =>
    if x.state = 0 then some (.memObjectBusy, 0)
    else if x.state = 2 then some (.memObjectBad, 0)
    else if p.isSome ∧ p ≠ some x.part then some (.memAccessDenied, 0)
    else if o % 4096 ≠ 0 ∨ o + n > x.length then some (.memObjectUnknown, 1)
    else none

/-- The state with a unit rewritten to a fresh location (R259), unless nothing reads it. -/
def State.relocate (s : State) (id unit : Nat) : State :=
  match s.object id with
  | none => s
  | some x =>
    if s.unitMode id unit x = 3 ∨ unit * 4096 ≥ x.length then s
    else s.setObject id { x with
      weak := Sparse.put 0 unit 0 x.weak
      moves := Sparse.put 0 unit (Sparse.get 0 x.moves unit + 1) x.moves }

/-- The state in which a unit of an object has decayed so far that it needs a read mode of R259 (1 RETRY, 2 RECONSTRUCT, 3 none). -/
def State.weaken (s : State) (id unit mode : Nat) : State :=
  match s.object id with
  | none => s
  | some x => s.setObject id { x with weak := Sparse.put 0 unit (max (Sparse.get 0 x.weak unit) (min mode 3)) x.weak }

/-- T3_RELOCATE (R259): a unit that needed RETRY or RECONSTRUCT is rewritten. -/
def execT3Relocate (object unit : Nat) (s : State) : Host.Outcome State Fault Refusal :=
  match s.object object with
  | none => .next s
  | some x => if s.unitMode object unit x = 0 then .next s else .next (s.relocate object unit)

/-- T3_PATROL (R260): the background pass reads units as (object, unit, mode). A unit found above the read-level plan (mode 0) is
relocated; one that needs a higher mode is found so. -/
def execT3Patrol (units : List (Nat × Nat × Nat)) (s : State) : Host.Outcome State Fault Refusal :=
  .next (units.foldl (fun s x => if x.2.2 = 0 then s.relocate x.1 x.2.1 else s.weaken x.1 x.2.1 x.2.2) s)

/-- FLASH_CHANNEL_FAIL (R260). The unit of the event is the channel's (R257). -/
def execFlashChannelFail (channel : Nat) (s : State) : Host.Outcome State Fault Refusal :=
  if channel ≥ 16 ∨ s.flashDown.contains channel = true then .next s
  else
    let s := (s.setFlashDown (s.flashDown ++ [channel]))
    .next ((s.wr .memCapacityT3Degraded 1).raise .memT3Degraded (unitId (12 + channel / 4) (8 + channel % 4) 0) noPart
      (payload [(16, 1, channel)]))

end Sys2Proof.Machine
end

