-- ==== Sys2Proof/Machine/Dugout.lean ====
section
/-!
DEFINITION. Platform events (R379), the self-test report (R356), the dugout (R357, R358) and the full reset (R359, R364,
R365): what each keeps and what is lost.
-/
namespace Sys2Proof.Machine

/-- A record from its fields: (byte, bytes, value); bytes that no field names are 0. -/
def recordNat : List (Nat × Nat × Nat) → Nat
  | [] => 0
  | (off, n, v) :: t => (v % 256 ^ n) * 256 ^ off + recordNat t

/-- The bytes of a record as a memory of their own. -/
def recordMem (n v : Nat) : List Host.Cell := Mem.writeBytes [] 0 (bytesOfNat n v)

/-! ## Platform events (R379) -/

/-- Sensor 11: 1 booting, 2 ready, 3 ready and degraded, 4 ready and flagged, 5 dugout (Table 14-9b). -/
def State.stateSensor (s : State) : Nat :=
  if s.rdBit .refReadyDugout then 5
  else if s.rdBit .refReadyReady then
    (if s.rdBit .refReadyFlagged then 4 else if s.rdBit .refReadyDegraded then 3 else 2)
  else 1

/-- The state after a PlatformEventMessage of class sensorEvent (R379; the layout of DSP0248, PRESUMED) has been sent, if a
receiver is set and PLDM is carried. -/
def State.platformEvent (s : State) (sensor kind : Nat) (data : List Nat) : State :=
  let r := s.referee
  if r.receiver.isNone ∨ s.rdBit .refReadyRecovery = true then s
  else
    let bs := [0x80 + r.eventId % 32, 0x02, 0x0A, 0x01, r.tid, 0x00, sensor % 256, sensor / 256, kind] ++ data
    let n := natOfBytes (bs.map (BitVec.ofNat 8))
    ((s.setOut (s.out ++ [Output.mctp 1 n bs.length])).setReferee ({ r with platform := r.platform ++ [⟨r.eventId, n, bs.length, 0⟩], eventId := r.eventId + 1 }))

/-- The state after the state sensor has been compared with its value before. -/
def State.stateEvent (s : State) (old : Nat) : State :=
  if s.stateSensor = old then s else s.platformEvent 11 1 [0, s.stateSensor, old]

/-! ## The outcome of a boot (R356) -/

/-- The self-test report (Table 14-3) of an outcome: 0 READY, 1 dugout, 2 ROM recovery, with its code and unit. -/
def State.report (s : State) (outcome code unit : Nat) : Nat :=
  let r := s.referee
  let fixed := [(0, 4, 0x54535A56), (4, 4, (s.reg (Reg.refCnt 3)).field 0 48), (8, 8, r.bootAt), (16, 8, s.dtime),
    (24, 1, s.rd .refReadyPhase), (25, 1, outcome), (26, 2, code), (28, 2, unit), (30, 2, min r.repairs.length 504)]
  let times := r.durations.zipIdx.map (fun x => (32 + 4 * x.2, 4, x.1))
  let reps := (r.repairs.take 504).zipIdx.map (fun x => (64 + 8 * x.2, 4, x.1.1 + x.1.2.1 * 2 ^ 16 + x.1.2.2 * 2 ^ 24))
  recordNat (fixed ++ times ++ reps)

/-- The state after boot has come to its outcome: the report is written, ELAPSED_MS stands, BOOTING is 0, DEGRADED tells of
repairs. A boot that ends in phase 0 is counted here. -/
def State.bootEnds (s : State) (outcome code unit : Nat) : State :=
  let s := if s.referee.durations.isEmpty then s.count (Reg.refCnt 3) 1 else s
  let s := (s.setReferee ({ s.referee with report := recordMem 4096 (s.report outcome code unit) }))
  let s := (s.wr .refReadyBooting 0).wr .refReadyElapsedMs ((s.dtime - s.referee.bootAt) / 1000000)
  s.wr .refReadyDegraded (flag (!s.referee.repairs.isEmpty))

/-! ## What survives -/

/-- Is the register one of the fuse array, or of the libero map? -/
def fuseReg (a : Nat) : Bool :=
  decide (a = Reg.refSerial ∨ a = Reg.refFw ∨ (0xA01000 ≤ a ∧ a < 0xA02000) ∨ (a ≥ 0x2000000 ∧ a % 0x20000 = 0xE000))

/-- The state without the power of the dies: what is left is tier 3, the referee's area of it, the boot area, the fuses, and
what lies outside the device; of the registers those that `keep` names. REPLAY_VERIFIED is the job boundary's, not the map's. -/
def State.bare (s : State) (keep : Nat → Bool) : State :=
  let regs := (s.regs.filter (fun p => keep p.1)).map (fun p =>
    if p.1 ≥ 0x2000000 then (p.1, p.2.setField 25 1 0) else p)
  { State.reset with
    pending := s.pending
    dtime := s.dtime
    regs := regs.filter (fun p => !(decide (p.2 = regReset p.1)))
    hostMem := s.hostMem
    learned := s.learned
    benched := s.benched
    flash := s.flash
    flashDown := s.flashDown
    out := s.out
    events := s.events
    freeCount := s.freeCount
    serial := s.serial
    referee := { Referee.reset with
      bootAt := s.dtime
      phaseAt := s.dtime
      report := s.referee.report
      image := s.referee.image
      plan := s.referee.plan
      idSeed := s.referee.idSeed
      closed := s.referee.closed
      logCount := s.referee.logCount
      log := s.referee.log
      perst := s.referee.perst
      released := s.referee.released
      slotId := s.referee.slotId
      eid := s.referee.eid
      clkreq := s.referee.clkreq } }

/-! ## The dugout -/

/-- The registers that the dugout leaves: the referee, the mailboxes, the power and margin blocks and event context 16. -/
def dugoutReg (a : Nat) : Bool :=
  fuseReg a || decide ((0xA00000 ≤ a ∧ a < 0xC00000) ∨ (0xD00000 ≤ a ∧ a < 0xE00000) ∨
    (Reg.hifPartEvring 16 ≤ a ∧ a ≤ Reg.hifPartEvpos 16))

/-- Does the cause take down MD0's rail or the NAND rails: a trip or rail fault of MD0 or of a NAND package (R358)? -/
def unitTakesBoot (cause unit : Nat) : Bool :=
  decide ((cause = 4 ∨ cause = 5) ∧ (unit / 4096 = 12 ∨ (unit / 4096 ≥ 12 ∧ 8 ≤ unit / 64 % 64 ∧ unit / 64 % 64 < 12)))

/-- The state after the dugout has been entered for a cause of Table 14-4 (R357, R358); `phase` and `detail` are those of a
self-test failure. In the dugout already, only the rails and THERMTRIP_N change. -/
def State.enterDugout (s : State) (cause unit phase detail : Nat) : State :=
  let off := s.referee.md0Off || unitTakesBoot cause unit
  let trip := s.referee.trip || decide (cause = 4)
  if s.rdBit .refReadyDugout then (s.setReferee ({ s.referee with md0Off := off, trip := trip }))
  else
    let code := if cause = 1 then Code.mgtSelftest else Code.mgtDugout
    let old := s.stateSensor
    let s := if cause = 1 then s.raise code unitReferee noPart (payload [(16, 1, phase), (17, 1, detail), (18, 2, unit)])
      else s.raise code unitReferee noPart (payload [(16, 1, cause), (18, 2, unit)])
    let s := if s.rdBit .refReadyBooting then s.bootEnds 1 code.val unit else s
    let s := (((s.wr .refReadyReady 0).wr .refReadyRecovery 0).wr .refReadyBooting 0).wr .refReadyDugout 1
    let s := (((s.wr .refDugoutCode code.val).wr .refDugoutCause cause).wr .refDugoutDetail (if cause = 1 then detail else 0)).wr
      .refDugoutUnit unit
    let b := s.bare dugoutReg
    let b := (((b.setLowPower s.lowPower).setAtsOn s.atsOn).setMsix s.msix).setMsixCtl s.msixCtl
    let b := (((b.setRings (s.rings.filter (fun p => decide (p.1 = 16)))).setPower s.power).setReferee ({ s.referee with
          attest := [],
          session := none,
          staged := [],
          stagedAt := [],
          md0Off := off,
          trip := trip,
          flr := [],
          dugoutAt := s.dtime }))
    b.stateEvent old

/-- The state after a trip of a sensor (R392): a rail fault of the same millisecond gives way to it. -/
def State.tripped (s : State) (sensor : Nat) : State :=
  let u := sensorUnit sensor
  if s.rdBit .refReadyDugout = true ∧ s.rd .refDugoutCause = 5 ∧ s.dtime / 1000000 = s.referee.dugoutAt / 1000000 then
    let s := s.raise .mgtDugout unitReferee noPart (payload [(16, 1, 4), (18, 2, u)])
    ((s.wr .refDugoutCause 4).wr .refDugoutUnit u).enterDugout 4 u 0 0
  else s.enterDugout 4 u 0 0

/-! ## The full reset -/

/-- The registers that a full reset leaves: the fuses, the libero map, the counters since input power and PERST_FULL. -/
def resetReg (a : Nat) : Bool :=
  fuseReg a || decide (Reg.refCnt 0 ≤ a ∧ a < Reg.refCnt 4) || decide (a = Reg.refCtrl) ||
  decide ((Reg.mbxChMsg 0 0 ≤ a ∧ a < Reg.mbxChMsg 32 0))

/-- The state after a full reset with its source (R365): the PENDING map-outs take effect (R250), MGT_RESET, the mailboxes as R377 says, boot begins again. While the
boot area is written the reset waits for the write's end. -/
def State.fullReset (s : State) (source : Nat) : State :=
  if s.referee.writing then (s.setReferee ({ s.referee with resetDue := some (s.referee.resetDue.getD source) }))
  else
    let old := s.stateSensor
    let s := ((List.range 32).filter s.mbxUsable).foldl (fun (s : State) c => s.mbxReceiverReset c) s
    let r := s.referee
    let s := (List.range 8).foldl (fun (s : State) d => s.mappedOut 1 d (bitsOf 64 (s.rd (.memT1PendPending d)))) s
    let s := s.mappedOut 2 0xFF (bitsOf 128 s.t2Pending)
    let s := s.raise .mgtReset unitReferee noPart (payload [(16, 1, source)])
    let b := (((s.bare resetReg).wr .refFwSvn 0).wr .refFwSlot 0xFF).wr .refReadyFlagged (s.rd .refReadyFlagged)
    (b.setReferee ({ b.referee with
          tid := r.tid,
          receiver := r.receiver,
          platform := r.platform,
          eventId := r.eventId,
          dynAddr := r.dynAddr })).stateEvent old

end Sys2Proof.Machine
end

