-- ==== Sys2Proof/Machine/Power.lean ====
section
/-!
DEFINITION. The power controller (section 15.3), the clock points (R384), the thermal controller (section 15.4), the coolant
(R394) and the margin planner (section 15.6).
-/
namespace Sys2Proof.Machine

/-! ## Alert and points -/

/-- The islands. -/
def islands : List Nat := List.range 32

/-- The state with ALERT as its conditions give it (R388). -/
def State.alert (s : State) : State :=
  s.wr .pwrStatusAlert (flag (decide (s.rd .pwrStatusCeiling ≠ 0) || s.rdBit .pwrStatusDivided || s.power.coolant ||
    islands.any (fun k => decide (s.rd (.pwrIslandThermal k) ≠ 0))))

/-- The point that an island is to run at (R384): the largest of its three indices. -/
def State.target (s : State) (k : Nat) : Nat :=
  max (s.rd (.pwrIslandFmax k)) (max (s.rd (.pwrIslandThermal k)) (s.rd (.pwrIslandPower k)))

/-- The number in `n` bytes at byte `b` of the margin-plan record in force (R398). -/
def State.planAt (s : State) (b n : Nat) : Nat := bitsAt (s.reg (Reg.mgnPlan (b / 8))).toNat (8 * (b % 8)) (8 * n)

/-- The clock of an island. -/
def State.clock (s : State) (k : Nat) : Clock := Sparse.get Clock.reset s.power.clocks k

/-- The state with POINT and VOLTAGE of an island as its clock gives them. -/
def State.showIsland (s : State) (k : Nat) : State :=
  let c := s.clock k
  (s.wr (.pwrIslandPoint k) c.freq).wr (.pwrIslandVoltage k) (s.planAt (64 + 32 * k + 2 * c.volt) 2)

/-- The clock after the half of a step towards a target that is in progress, or that begins: down, the frequency first and then
the voltage; up, the voltage first and then the frequency (R384). -/
def Clock.next (c : Clock) (target : Nat) : Clock :=
  if c.freq = c.volt then
    (if target > c.freq then { c with freq := c.freq + 1 } else if target < c.freq then { c with volt := c.volt - 1 } else c)
  else if target ≥ c.freq then { c with volt := c.freq }
  else { c with freq := c.volt }

/-- CLOCK_POINT_STEP_DONE: a frequency or voltage step of an island completes. -/
def execClockPointStepDone (island : Nat) (s : State) : Host.Outcome State Fault Refusal :=
  if s.referee.power = false then .next s else
  if island ≥ 32 then .next s
  else
    let c := (s.clock island).next (s.target island)
    .next ((s.setPower ({ s.power with clocks := Sparse.put Clock.reset island c s.power.clocks })).showIsland island)

/-! ## Power (R383 to R388) -/

/-- The cap in force on the input and its cause (R385, Table 15-7): 0 module, 1 board, 2 current limit. -/
def State.inputCap (s : State) : Nat × Nat :=
  let m := s.rd .pwrCapModuleCap
  let i := 73 * s.rd .pwrStatusVin / 100
  let a := if s.rdBit .pwrStatusBoardCapActive ∧ s.rd .pwrCapBoardCap < m then (s.rd .pwrCapBoardCap, 1) else (m, 0)
  if i < a.1 then (i, 2) else a

/-- The mean of the last ten samples: of the input and of the package. -/
def State.powerMean (s : State) : Nat × Nat :=
  let l := s.power.samples
  let n := max 1 l.length
  ((l.map (fun x => x.1)).foldl (· + ·) 0 / n, (l.map (fun x => x.2)).foldl (· + ·) 0 / n)

/-- The state after a peak has been ended by halving ACLK (R387). -/
def State.divide (s : State) (watts kind : Nat) : State :=
  if s.rdBit .pwrStatusDivided then s
  else
    ((s.wr .pwrStatusDivided 1).count (Reg.pwrCnt 2) 1).raise .powerPeak unitReferee noPart (payload [(16, 2, watts), (18, 1, kind)])

/-- POWER_SAMPLE: every 10 µs: input and package power in W, the input voltage in units of 10 mV and current in units of
0.25 A. Input outside 38 to 62 V for more than 1 ms is a rail fault (R383). -/
def execPowerSample (input package vin iin : Nat) (s : State) : Host.Outcome State Fault Refusal :=
  if s.referee.power = false then .next s else
  let p := s.power
  let samples := (p.samples ++ [(input, package)]).drop (p.samples.length - 9)
  let outside := if vin < 3800 ∨ vin > 6200 then p.outside + 1 else 0
  let s := (s.wr .pwrStatusVin vin).wr .pwrStatusIin iin
  let s := (s.setPower ({ p with samples := samples, outside := outside }))
  let s := (s.wr .pwrStatusInputW s.powerMean.1).wr .pwrStatusPackageW s.powerMean.2
  let above := decide (input > s.inputCap.1)
  let calm := if above then 0 else p.calm + 1
  let peak := if above then p.peak + 1 else if calm ≥ 9000 then 0 else p.peak
  let s := (s.setPower ({ s.power with peak := peak, calm := calm }))
  let s := if input > 3900 ∨ iin > 325 then s.divide input 0 else if above = true ∧ peak ≥ 1000 then s.divide input 1 else s
  .next (if outside > 100 then s.alert.enterDugout 5 (unitDie 8 0) 0 0 else s.alert)

/-- The state with the power ceiling at a point, in every island. -/
def State.setCeiling (s : State) (v : Nat) : State :=
  islands.foldl (fun s k => s.wr (.pwrIslandPower k) v) (s.wr .pwrStatusCeiling v)

/-- The state after POWER_LIMITED, when the ceiling stands above point 0 under a cause not yet told of (R386). -/
def State.limited (s : State) (cause : Nat) : State :=
  let v := s.rd .pwrStatusCeiling
  if v = 0 then (s.setPower ({ s.power with cause := none }))
  else if s.power.cause = some cause then s
  else
    (s.setPower ({ s.power with cause := some cause })).raise .powerLimited unitReferee noPart
      (payload [(16, 2, if cause = 3 then s.rd .pwrCapPackageCap else s.inputCap.1), (18, 1, v), (19, 1, cause)])

/-- POWER_CONTROL_TICK: every 100 µs the ceiling steps by the mean (R386); a division ends at a mean at or below the cap. -/
def execPowerControlTick (s : State) : Host.Outcome State Fault Refusal :=
  if s.referee.power = false then .next s else
  let m := s.powerMean
  let cap := s.inputCap
  let pcap := s.rd .pwrCapPackageCap
  let v := s.rd .pwrStatusCeiling
  let s := if m.1 ≤ cap.1 then s.wr .pwrStatusDivided 0 else s
  if m.1 > cap.1 ∨ m.2 > pcap then
    let s := (s.setPower ({ s.power with low := 0 }))
    let s := if v < 15 then (s.setCeiling (v + 1)).count (Reg.pwrCnt 0) 1 else s
    .next (s.limited (if m.1 > cap.1 then cap.2 else 3)).alert
  else
    let low := if 100 * m.1 < 95 * cap.1 ∧ 100 * m.2 < 95 * pcap then s.power.low + 1 else 0
    let up := decide (low ≥ 10)
    let s := (s.setPower ({ s.power with low := if up then 0 else low }))
    let s := if up = true ∧ v > 0 then (s.setCeiling (v - 1)).count (Reg.pwrCnt 1) 1 else s
    .next (s.limited (if s.power.cause = some 3 then 3 else cap.2)).alert

/-- PWRCAP_INPUT: the board asserts or releases the power-cap input. -/
def execPwrcapInput (asserted : Bool) (s : State) : Host.Outcome State Fault Refusal :=
  if s.referee.power = false then .next s else
  .next (s.wr .pwrStatusBoardCapActive (flag asserted))

/-! ## Temperatures (Table 15-3, Table 15-4) -/

/-- The reading of a sensor in 1/16 °C, none for one that is FAILED. -/
def State.temp (s : State) (n : Nat) : Option Int :=
  if s.rdBit (.pwrSensorFailed n) then none else some (signed 16 (s.rd (.pwrSensorTemp n)))

/-- The throttle and trip points of a sensor's class in °C; a coolant sensor has none. -/
def throttleOf (n : Nat) : Option (Int × Int) :=
  if n < 320 then some (100, 110) else if n < 448 then some (90, 100) else if n < 544 then some (100, 110)
  else if n < 576 then some (90, 100) else if n < 592 then some (65, 85) else if n < 624 then some (110, 125) else none

/-- The sensors from `lo`, `n` of them. -/
def sensors (lo n : Nat) : List Nat := (List.range n).map (fun i => lo + i)

/-- The hottest of a list of sensors that report: (sensor, 1/16 °C). -/
def State.hottest (s : State) (l : List Nat) : Option (Nat × Int) :=
  l.foldl (fun acc n => match s.temp n, acc with
    | none, _ => acc
    | some t, none => some (n, t)
    | some t, some (_, u) => if t > u then some (n, t) else acc) none

/-- Is a sensor at or above its throttle point; is every one that reports at least 3 °C below it? -/
def State.anyHot (s : State) (l : List Nat) : Option Nat :=
  l.find? (fun n => match s.temp n, throttleOf n with
    | some t, some x => decide (t ≥ 16 * x.1)
    | _, _ => false)
def State.allCool (s : State) (l : List Nat) : Bool :=
  l.all (fun n => match s.temp n, throttleOf n with
    | some t, some x => decide (t ≤ 16 * (x.1 - 3))
    | _, _ => true)

/-- The state after the readings of a millisecond: a reading in 1/16 °C, or none from a sensor that has stopped (R391). -/
def State.takeReading (s : State) (x : Nat × Option Int) : State :=
  let bad := match x.2 with
    | none => true
    | some t => decide (t < -640 ∨ t > 2400)
  if x.1 ≥ 626 then s
  else if bad then
    (if s.rdBit (.pwrSensorFailed x.1) then s
      else (s.wr (.pwrSensorFailed x.1) 1).raise .sensorFailed (unitId (sensorDie x.1) 63 0) noPart (payload [(16, 2, x.1)]))
  else s.wr (.pwrSensorTemp x.1) (codeOfInt 16 (x.2.getD 0))
where
  /-- The die of a sensor's location (R399). -/
  sensorDie (n : Nat) : Nat :=
    if n < 320 then n / 40 else if n < 448 then (n - 320) / 16 else if n < 480 then 8 + (n - 448) / 16
    else if n < 544 then 12 + (n - 480) / 16 else if n < 576 then 12 + (n - 544) / 8 else if n < 592 then 12 + (n - 576) / 4
    else if n < 624 then (n - 592) / 4 else 8

/-- The whole degrees of a reading, as a byte. -/
def degrees (t : Int) : Nat := codeOfInt 8 (t / 16)

/-- The sensors of an island, of the stack above it, and its power-stage group (R390). -/
def islandSensors (k : Nat) : List Nat := sensors (40 * (k / 4) + 10 * (k % 4)) 10
def stackSensors (st : Nat) : List Nat := sensors (320 + 8 * st) 8
def islandAll (k : Nat) : List Nat := islandSensors k ++ stackSensors (2 * (k / 4) + k % 4 / 2) ++ [592 + k]

/-- The state after THERMAL_LIMITED: an island, or 0xFF for all. -/
def State.thermalEvent (s : State) (island ceiling : Nat) (l : List Nat) : State :=
  let h := (s.hottest l).getD (0, 0)
  s.raise .thermalLimited (unitId (if island < 32 then island / 4 else 8) (if island < 32 then 63 else 1) 0) noPart
    (payload [(16, 1, island), (17, 1, ceiling), (18, 2, h.1), (20, 1, degrees h.2)])

/-- A thermal ceiling after one millisecond: (ceiling, milliseconds at the margin). -/
def stepThermal (hot cool : Bool) (v n : Nat) : Nat × Nat :=
  if hot then (min 15 (v + 1), 0)
  else if cool then (if n + 1 ≥ 10 then (v - 1, 0) else (v, n + 1))
  else (v, 0)

/-- The state after an island's own ceiling has been adjusted (R390, R391). -/
def State.thermalIsland (s : State) (k : Nat) : State :=
  let l := islandAll k
  let v := Sparse.get 0 s.power.own k
  let r := stepThermal (s.anyHot l).isSome (s.allCool l) v (Sparse.get 0 s.power.cool k)
  let blind := (islandSensors k).all (fun n => (s.temp n).isNone) || (stackSensors (2 * (k / 4) + k % 4 / 2)).all (fun n => (s.temp n).isNone)
  let w := if blind then max r.1 10 else r.1
  let s : State := if w > v then s.count (Reg.pwrCnt 3) (w - v) else s
  let s : State := (s.setPower ({ s.power with own := Sparse.put 0 k w s.power.own, cool := Sparse.put 0 k r.2 s.power.cool }))
  let h : Nat × Int := (s.hottest l).getD (0, 0)
  let s : State := s.wr (.pwrIslandHottest k) (degrees h.2)
  if w > 0 ∧ s.rd (.pwrIslandThermal k) = 0 then s.thermalEvent k w l else s

/-- The sensors that lower all islands together: XD, MD, LPDDR5X and NAND. -/
def sharedSensors : List Nat := sensors 448 144

/-- The state after the shared ceiling has been adjusted, and THERMAL of every island (R390). -/
def State.thermalShared (s : State) : State :=
  let v := s.power.shared
  let r := stepThermal (s.anyHot sharedSensors).isSome (s.allCool sharedSensors) v s.power.sharedCool
  let s := (s.setPower ({ s.power with shared := r.1, sharedCool := r.2 }))
  let s := if r.1 > v then s.count (Reg.pwrCnt 3) 1 else s
  let s := if v = 0 ∧ r.1 > 0 then s.thermalEvent 0xFF r.1 sharedSensors else s
  islands.foldl (fun (s : State) k => s.wr (.pwrIslandThermal k) (max r.1 (Sparse.get 0 s.power.own k))) s

/-- The state after the refresh of a tier-1 stack has been derated or restored (R393). -/
def State.refreshStack (s : State) (st : Nat) : State :=
  let on := s.power.doubled.contains st
  let ev (s : State) (b : Nat) : State :=
    s.raise .refreshDerated (unitId (st / 2) 63 0) noPart (payload [(16, 1, st), (17, 1, b)])
  match s.hottest (stackSensors st) with
  | none => s
  | some (_, t) =>
    if on = false ∧ t > 16 * 85 then
      (ev (s.setPower ({ s.power with doubled := s.power.doubled ++ [st] })) 1).count (Reg.pwrCnt 4) 1
    else if on = true ∧ t ≤ 16 * 82 then
      ev (s.setPower ({ s.power with doubled := s.power.doubled.filter (fun x => !(decide (x = st))) })) 0
    else s

/-- The state after the coolant conditions have been tested (R394). -/
def State.coolantTest (s : State) : State :=
  let i := s.temp 624
  let o := s.temp 625
  let bad := (match i with
    | some t => decide (t > 16 * 40)
    | none => false) || (match i, o with
    | some t, some u => decide (u - t > 16 * 18)
    | _, _ => false)
  if bad then
    let s' := (s.setPower ({ s.power with coolant := true, coolantOk := 0 }))
    if s.power.coolant then s'
    else s'.raise .coolantHigh unitReferee noPart (payload [(16, 1, degrees (i.getD 0)), (17, 1, degrees (o.getD 0))])
  else if s.power.coolant then
    (s.setPower ({ s.power with
          coolant := decide (s.power.coolantOk + 1 < 1000),
          coolantOk := if s.power.coolantOk + 1 < 1000 then s.power.coolantOk + 1 else 0 }))
  else s

/-- The classes of PWR_TEMP_MAX: the field's lowest bit and the sensors. -/
def tempClasses : List (Nat × List Nat) := [
  (0, sensors 0 320), (8, sensors 448 32), (16, sensors 480 64), (24, sensors 320 128), (32, sensors 544 32),
  (40, sensors 576 16), (48, [624]), (56, [625])]

/-- The state with PWR_TEMP_MAX as the sensors give it. -/
def State.showTemps (s : State) : State :=
  s.setReg Reg.pwrTempMax (tempClasses.foldl (fun (w : Word) x =>
    w.setField x.1 8 (degrees (((s.hottest x.2).map (fun y => y.2)).getD 0))) 0)

/-- The state of a platform temperature sensor 3 to 8: 1 normal, 8 above warning, 9 above critical (DSP0248, PRESUMED). -/
def State.platformTemp (s : State) (i : Nat) : Nat :=
  let l := (tempClasses.getD (i - 3) (0, [])).2
  match s.hottest l, throttleOf (l.headD 0) with
  | some (_, t), some x => if t ≥ 16 * x.2 then 9 else if t ≥ 16 * x.1 then 8 else 1
  | _, _ => 1

/-- The state of platform sensor `i` as last told. -/
def State.platformWas (s : State) (i : Nat) : Nat :=
  if s.power.hot.contains i then 9 else if s.power.warm.contains i then 8 else 1

/-- The state after the platform events of the temperature sensors (R379). -/
def State.platformTemps (s : State) : State :=
  let now := (sensors 3 6).map (fun i => (i, s.platformTemp i))
  let s' := now.foldl (fun (s : State) x =>
    let was := s.platformWas x.1
    if was = x.2 then s
    else s.platformEvent x.1 2 [x.2, was, 1, (s.reg Reg.pwrTempMax).field (8 * (x.1 - 3)) 8]) s
  (s'.setPower ({ s'.power with
        warm := (now.filter (fun x => decide (x.2 = 8))).map (fun x => x.1),
        hot := (now.filter (fun x => decide (x.2 = 9))).map (fun x => x.1) }))

/-- The first sensor of the readings that is at or above its trip point (R392). -/
def tripOf (readings : List (Nat × Option Int)) : Option Nat :=
  (readings.find? (fun x => match x.2, throttleOf x.1 with
    | some t, some y => decide (16 * y.2 ≤ t ∧ t ≤ 2400)
    | _, _ => false)).map (fun x => x.1)

/-- THERMAL_TICK: every 1 ms. A reading at its trip point trips. -/
def execThermalTick (readings : List (Nat × Option Int)) (s : State) : Host.Outcome State Fault Refusal :=
  if s.referee.power = false then .next s else
  let s := readings.foldl (fun (s : State) x => s.takeReading x) s
  let s := (islands.foldl (fun (s : State) k => s.thermalIsland k) s).thermalShared
  let s := ((List.range 16).foldl (fun (s : State) st => s.refreshStack st) s).coolantTest
  let s := s.showTemps.platformTemps.alert
  .next (match tripOf readings with
    | some n => s.tripped n
    | none => s)

/-! ## The margin planner (R395 to R398) -/

/-- The state after a re-plan has been asked for, with a reason of Table 15-6: it starts, or waits for the one that runs. -/
def State.requestPlan (s : State) (reason : Nat) : State :=
  if s.rdBit .mgnStatusBusy then
    (s.setPower ({ s.power with planAsk := some (s.power.planAsk.getD reason) }))
  else ((s.wr .mgnStatusBusy 1).setPower ({ s.power with planRun := some reason }))

/-- The voltage floor of an island in mV: its fuse, and 0.60 V. -/
def State.floorOf (s : State) (k : Nat) : Nat := max 600 (500 + 5 * (s.reg (Reg.refFuseVmin (k / 8))).field (8 * (k % 8)) 8)

/-- The change of a used point by its worst slack: up, down or none. -/
def slackChange (guard : Nat) (slack : Int) : Int := if slack < guard then 5 else if slack > guard + 20 then -5 else 0

/-- The change of point `j`: its own, or that of the nearest used point, the lower one first. -/
def pointChange (used : List (Nat × Int)) (j : Nat) : Int :=
  let near := (List.range 16).findSome? (fun d =>
    (used.find? (fun x => decide (x.1 + d = j))).orElse (fun _ => used.find? (fun x => decide (x.1 = j + d))))
  (near.map (fun x => x.2)).getD 0

/-- The voltage of a point after a change, from the one in force: an unusable point counts as one step above 0.90 V; with no
plan in force every point stands at the floor. 0 for an unusable point. -/
def newVoltage (floor old : Nat) (any : Bool) (d : Int) : Nat :=
  let v : Int := if any then (if old = 0 then 905 else (old : Int)) + d else (floor : Int) + d
  let v := max v (floor : Int)
  if v > 900 then 0 else v.toNat

/-- The voltages of island `k` by a plan's measurements. -/
def State.planVoltages (s : State) (x : PlanInput) (k : Nat) : List Nat :=
  let g := s.rd .mgnThreshGuardPs
  let mine := x.slacks.filter (fun y => decide (y.1 = k ∧ y.2.1 < 16))
  let used := (List.range 16).filterMap (fun j =>
    let l := (mine.filter (fun y => decide (y.2.1 = j))).map (fun y => y.2.2)
    match l with
    | [] => none
    | a :: t => some (j, slackChange g (t.foldl min a)))
  let any := decide (s.planAt 0 4 = 0x504D5A56)
  (List.range 16).map (fun j => newVoltage (s.floorOf k) (s.planAt (64 + 32 * k + 2 * j) 2) any (pointChange used j))

/-- FMAX by the voltages: the lowest usable point. -/
def fmaxOf (vs : List Nat) : Nat := (vs.findIdx? (fun v => decide (v ≠ 0))).getD 15

/-- A refresh interval in ns from the shortest retention measured, and the one in force where none was. -/
def refreshOf (ret : Option Nat) (old : Nat) : Nat :=
  match ret with
  | some r => min 3900 (r / 16384)
  | none => if old = 0 then 3900 else old

/-- The state with MEM_CAPACITY net of every PENDING unit. -/
def State.setCapacity (s : State) : State :=
  (s.wr .memCapacityT1Gib (((List.range 8).map s.t1Granules).foldl (· + ·) 0)).wr .memCapacityT2Gib s.t2Granules

/-- The state after a retirement has been withheld (R396). -/
def State.withheld (s : State) (tier die unit : Nat) : State :=
  (s.raise .marginFloor unitReferee noPart (payload [(16, 1, tier), (17, 1, die), (18, 1, unit)])).count (Reg.mgnCnt 5) 1

/-- The state after MEM_MAP_PENDING of a unit. -/
def State.mapPending (s : State) (tier die unit : Nat) : State :=
  s.raise .memMapPending unitReferee noPart (payload [(16, 1, tier), (17, 1, die), (18, 1, unit)])

/-- The state after a pseudo-channel has been retired: PENDING, or withheld; and whether it was marked. -/
def State.retireT1 (s : State) (d b : Nat) : State × Nat :=
  let live := s.rd (.memT1MapInService d) - (s.rd (.memT1MapInService d) &&& s.rd (.memT1PendPending d))
  if d ≥ 8 ∨ bitAt live b = false then (s, 0)
  else if popCount 64 live ≤ 48 then (s.withheld 1 d b, 0)
  else ((s.wr (.memT1PendPending d) (s.rd (.memT1PendPending d) + pow2 b)).mapPending 1 d b, 1)

/-- The same for a channel of tier 2. -/
def State.retireT2 (s : State) (c : Nat) : State × Nat :=
  let live := s.t2Map - (s.t2Map &&& s.t2Pending)
  if c ≥ 128 ∨ bitAt live c = false then (s, 0)
  else if popCount 128 live ≤ 120 then (s.withheld 2 0xFF c, 0)
  else ((s.wr (.memT2PendPending (c / 64)) (s.rd (.memT2PendPending (c / 64)) + pow2 (c % 64))).mapPending 2 0xFF c, 1)

/-- The architectural core that a physical slot serves. -/
def State.coreAt (s : State) (d k : Nat) : Option Nat :=
  ((List.range 32).map (fun i => 32 * d + i)).find? (fun c => decide (s.rd (.pmkCoreIdentPhysSlot c) = k))

/-- The state after a core has been marked for benching by the planner. -/
def State.retireCore (s : State) (d k : Nat) : State × Nat :=
  if d ≥ 8 then (s, 0)
  else
    match s.coreAt d k with
    | none => (s, 0)
    | some c => if s.rdBit (.umpStatusBenchPending c) then (s, 0) else (s.wr (.umpStatusBenchPending c) 1, 1)

/-- The state after every retirement of a plan, and how many were marked (Table 15-5). -/
def State.retirements (s : State) (x : PlanInput) : State × Nat :=
  let add (acc : State × Nat) (f : State → State × Nat) : State × Nat :=
    let r := f acc.1
    (r.1, acc.2 + r.2)
  let a := (x.t1Errs.filter (fun y => y.2.2.2 || decide (y.2.2.1 > s.rd .mgnThreshT1Ce))).foldl
    (fun acc y => add acc (fun s => s.retireT1 y.1 y.2.1)) (s, 0)
  let b := (x.t2Errs.filter (fun y => y.2.2 || decide (y.2.1 > s.rd .mgnThreshT2Ce))).foldl
    (fun acc y => add acc (fun s => s.retireT2 y.1)) a
  x.cores.foldl (fun acc y => add acc (fun s => s.retireCore y.1 y.2)) b

/-- The worst slack that a plan's measurements give an island. -/
def worstSlack (x : PlanInput) (k : Nat) : Int :=
  match (x.slacks.filter (fun y => decide (y.1 = k))).map (fun y => y.2.2) with
  | [] => 0
  | a :: t => t.foldl min a

/-- The slots of die `d` that are marked for benching. -/
def State.markedSlots (s : State) (d : Nat) : Nat :=
  ((List.range 32).filter (fun i => s.rdBit (.umpStatusBenchPending (32 * d + i)))).foldl
    (fun m i => m + pow2 (s.rd (.pmkCoreIdentPhysSlot (32 * d + i)))) 0

/-- The body of a plan record without CHECK (Table 15-6); `s` is the state after the retirements. -/
def State.planBody (s : State) (x : PlanInput) (reason seq : Nat) (vs : List (List Nat)) : Nat :=
  let retired1 (d : Nat) : Nat := s.planAt (1664 + 8 * d) 8 ||| s.rd (.memT1PendPending d)
  let retired2 : Nat := s.planAt 1728 16 ||| s.t2Pending
  recordNat (
    [(0, 4, 0x504D5A56), (4, 2, 1), (6, 1, reason), (8, 4, seq), (12, 8, s.dtime)] ++
    vs.zipIdx.flatMap (fun y => y.1.zipIdx.map (fun z => (64 + 32 * y.2 + 2 * z.2, 2, z.1))) ++
    vs.zipIdx.map (fun y => (1088 + y.2, 1, fmaxOf y.1)) ++
    (List.range 16).map (fun i => (1120 + 2 * i, 2, refreshOf ((x.t1Ret.find? (fun y => decide (y.1 = i))).map (fun y => y.2)) (s.planAt (1120 + 2 * i) 2))) ++
    (List.range 128).map (fun i => (1152 + 2 * i, 2, refreshOf ((x.t2Ret.find? (fun y => decide (y.1 = i))).map (fun y => y.2)) (s.planAt (1152 + 2 * i) 2))) ++
    (List.range 16).flatMap (fun f => match x.flash.find? (fun y => decide (y.1 = f)) with
      | some y => [(1408 + 16 * f, 7, y.2.1), (1416 + 16 * f, 4, y.2.2.1), (1420 + 16 * f, 4, y.2.2.2)]
      | none => [(1408 + 16 * f, 8, s.planAt (1408 + 16 * f) 8), (1416 + 16 * f, 8, s.planAt (1416 + 16 * f) 8)]) ++
    (List.range 8).map (fun d => (1664 + 8 * d, 8, retired1 d)) ++ [(1728, 16, retired2)] ++
    (List.range 8).map (fun d => (1744 + 8 * d, 8, s.markedSlots d)) ++
    islands.flatMap (fun k => [(1808 + 8 * k, 2, codeOfInt 16 (worstSlack x k)),
      (1810 + 8 * k, 2, codeOfInt 16 (((x.drift.find? (fun y => decide (y.1 = k))).map (fun y => y.2)).getD 0))]))

/-- The state with a plan record in force and in the referee's area (R398). -/
def State.putPlan (s : State) (body : Nat) : State :=
  let check := (crc64 (bytesOfNat 4088 body)).toNat
  let rec_ := body + check * 256 ^ 4088
  let s := (List.range 512).foldl (fun (s : State) n => s.setReg (Reg.mgnPlan n) (BitVec.ofNat 64 (rec_ / 2 ^ (64 * n)))) s
  (s.setReferee ({ s.referee with plan := recordMem 4096 rec_ }))

/-- The state after a change of an island's voltages and FMAX has been counted (MGN_CNT_1 to MGN_CNT_3). -/
def State.countPlan (s : State) (k : Nat) (vs : List Nat) : State :=
  let up := ((List.range 16).filter (fun j => decide (s.planAt (64 + 32 * k + 2 * j) 2 < vs.getD j 0))).length
  let down := ((List.range 16).filter (fun j => decide (s.planAt (64 + 32 * k + 2 * j) 2 > vs.getD j 0))).length
  let s := if up = 0 then s else s.count (Reg.mgnCnt 1) up
  let s := if down = 0 then s else s.count (Reg.mgnCnt 2) down
  if fmaxOf vs > s.rd (.pwrIslandFmax k) then s.count (Reg.mgnCnt 3) 1 else s

/-- The state after a margin plan has taken effect (R395, Table 15-5), with its reason. -/
def State.applyPlan (s : State) (x : PlanInput) (reason : Nat) : State :=
  let vs := islands.map (fun k => s.planVoltages x k)
  let changed := (islands.filter (fun k =>
    decide ((List.range 16).map (fun j => s.planAt (64 + 32 * k + 2 * j) 2) ≠ vs.getD k [] ∨
      fmaxOf (vs.getD k []) ≠ s.rd (.pwrIslandFmax k)))).length
  let s := islands.foldl (fun (s : State) k => s.countPlan k (vs.getD k [])) s
  let r := s.retirements x
  let s := r.1.setCapacity
  let seq := natOfBytes (Mem.readBytes s.referee.plan 8 4) + 1
  let s := s.putPlan (s.planBody x reason seq vs)
  let s := islands.foldl (fun (s : State) k => (s.wr (.pwrIslandFmax k) (fmaxOf (vs.getD k []))).showIsland k) s
  let s := (s.wr .mgnStatusPlanSeq seq).wr .mgnStatusReason reason
  let s := ((s.count (Reg.mgnCnt 0) 1).setPower ({ s.power with planAt := s.dtime }))
  s.raise .marginPlan unitReferee noPart (payload [(16, 4, seq), (20, 1, reason), (21, 1, changed), (22, 1, r.2)])

/-- MGN_REPLAN: REPLAN is written 1. -/
def execMgnReplan (s : State) : Host.Outcome State Fault Refusal :=
  if s.barShut false then .next (s.barAnswer false) else
  .next (s.requestPlan 3)

/-- REPLAN_INTERVAL: INTERVAL_H hours have passed since the last re-plan. -/
def execReplanInterval (s : State) : Host.Outcome State Fault Refusal :=
  if s.rdBit .refReadyReady = false then .next s else
  let due := s.power.planAt + s.rd .mgnCtrlIntervalH * 3600000000000
  .next ((s.setDtime (max s.dtime due)).requestPlan 2)

/-- REPLAN_DONE: the re-plan that runs ends with its measurements; a request that came meanwhile starts another. -/
def execReplanDone (plan : PlanInput) (s : State) : Host.Outcome State Fault Refusal :=
  if s.rdBit .refReadyReady = false then .next s else
  match s.power.planRun with
  | none => .next s
  | some reason =>
    let s := (s.applyPlan plan reason).wr .mgnStatusBusy 0
    let ask := s.power.planAsk
    let s := (s.setPower ({ s.power with planRun := none, planAsk := none }))
    match ask with
    | none => .next s
    | some r => .next (s.requestPlan r)

/-- The state after the emergency of an island, if its worst slack is below GUARD_PS / 2 (R397). -/
def State.emergency (s : State) (x : Nat × Int) : State :=
  let f := s.rd (.pwrIslandFmax x.1)
  if x.1 ≥ 32 ∨ 2 * x.2 ≥ s.rd .mgnThreshGuardPs then s
  else
    let n := min 15 (f + 1)
    let s := (s.wr (.pwrIslandFmax x.1) n).count (Reg.mgnCnt 4) 1
    let s := if n > f then s.count (Reg.mgnCnt 3) 1 else s
    (s.raise .marginEmergency (unitId (x.1 / 4) 63 0) noPart
      (payload [(16, 1, x.1), (17, 1, n), (18, 2, codeOfInt 16 x.2)])).requestPlan 4

/-- MARGIN_MONITOR_TICK: every 1 ms, with the worst slack of each island in ps. -/
def execMarginMonitorTick (slacks : List (Nat × Int)) (s : State) : Host.Outcome State Fault Refusal :=
  if s.rdBit .refReadyReady = false then .next s else
  .next (slacks.foldl (fun (s : State) x => s.emergency x) s)

end Sys2Proof.Machine
end

