-- ==== Sys2Proof/Machine/Blocks.lean ====
section
/-!
DEFINITION. The verification of tensor blocks against their trailers (R67, R123 to R125) outside a core store.
-/
namespace Sys2Proof.Machine

/-- What the verification of a block finds (R67, R125). -/
inductive BlockCheck where
  | ok
  | check
  | id
  | format
  | poisoned
  deriving DecidableEq, Repr

/-- The verification of a block of 4 KiB held at `a` with its trailer at `ta` (R67): the expected identifier, format and
SCALE_CTRL. A CHECK failure with FORMAT 0x00 is a poisoned block (R125). -/
def State.blockAt (s : State) (a ta id format scaleCtrl : Nat) : BlockCheck :=
  if s.memNat ta 8 ≠ (crc64 (s.bytes a 4096)).toNat then
    (if s.memNat (ta + 12) 1 = 0 then .poisoned else .check)
  else if s.memNat (ta + 8) 4 ≠ id then .id
  else if s.memNat (ta + 12) 1 ≠ format ∨ s.memNat (ta + 13) 1 ≠ scaleCtrl then .format
  else .ok

/-- The identifier that block `t` of a tensor carries (Table 2-3). -/
def Desc.blockId (d : Desc) (t : Nat) : Nat := (d.blockIdBase + t) % 2 ^ 32

/-- The verification of block `t` of a tensor. -/
def State.blockCheck (s : State) (d : Desc) (t : Nat) : BlockCheck :=
  s.blockAt (d.blockAddr t) (d.trailerAddr t) (d.blockId t) (d.trailerFormat t) d.scaleCtrl

/-- The global address of a CPA of this chip (R29). -/
def State.global (s : State) (a : Nat) : Nat := s.chipId * 2 ^ 48 + a

/-- The payload of a block event (Table 5-6): the block's address, the expected and the found identifier. -/
def blockPayload (a expected found : Nat) : Nat := payload [(16, 8, a), (24, 4, expected), (28, 4, found)]

end Sys2Proof.Machine
end

