-- ==== Sys2Proof/Machine/Array.lean ====
section
/-!
DEFINITION. The fusible array (chapter 3) and its umpire (section 5.3): operand digits and geometries (R73 to R78), the
stationary bank and the bullpen (R80), what MATSTREAM computes (R83 to R89), the residue check (R126 to R128), and the
commands ARR_LOAD, ARR_FILL, ARR_SWAP and MATSTREAM.
-/
namespace Sys2Proof.Machine

/-! ## Digits and geometries -/

/-- The digits of an array operand's format (Table 3-1); 0 for the 2-bit formats, none for a format not in the table.
A pair is two ZI8 tensors. -/
def arrDigits (f : Fmt) (pair : Bool) : Option Nat :=
  if pair then (if f = .zi8 then some 4 else none)
  else match f with
    | .ze2m1 | .zt2 => some 0
    | .ze4 | .ze5 | .ze3m2 | .zi4 => some 1
    | .zi8 | .zb16 => some 2
    | .zf16 => some 3
    | _ => none

/-- The format in which a tensor reaches the array: ZB16 in EXPAND mode (R56, R73). -/
def Desc.arrFmt (d : Desc) : Fmt := if d.mode = .expand then .zb16 else d.fmt

/-- K_eff and N_eff of a block's geometry (R75, R76). -/
def Block.kEff (b : Block) : Nat := if b.twoBit then 256 else 128 / b.r
def Block.nEff (b : Block) : Nat := if b.twoBit then 256 else 256 / b.c

/-- The lane group of stationary element `n` (R127, section 3.9). -/
def Block.group (b : Block) (n : Nat) : Nat := if b.twoBit then n / 16 else b.c * n / 16

/-! ## Operand elements -/

/-- The zero that stands beyond a tensor's rows and beyond DIM0 (R81, R83). -/
def Elem.zero : Elem := ⟨.fin, false, 0, 0, 0, 0x7F⟩

/-- The code of the group scale of element `i0` of linear row `r`: 0x7F for a tensor without scale codes. -/
def State.groupCode (s : State) (d : Desc) (r i0 : Nat) : Nat :=
  match d.mode with
  | .live | .hist => s.memNat (d.scaleAddr (d.scaleIndex r i0)) 1
  | _ => 0x7F

/-- The array element of a loaded value (R73): non-finite values carry the special flag, with M = 0. -/
def Elem.ofVal (v : Val) (code scale : Nat) : Elem :=
  match v with
  | .fin g m e => ⟨.fin, g, m, e, code, scale⟩
  | .inf g => ⟨.inf, g, 0, 0, code, scale⟩
  | .nan => ⟨.nan, false, 0, 0, code, scale⟩

/-- The element of a ZI8 pair: 256 times the signed HI byte plus the unsigned LO byte, under HI's group scale; special
when its group is a NaN block in either scale array (R73). -/
def Elem.ofPair (hi lo scHi scLo : Nat) : Elem :=
  if scHi = 0xFF ∨ scLo = 0xFF then ⟨.nan, false, 0, 0, hi * 256 + lo, 0xFF⟩
  else
    let q : Int := 256 * signed 8 hi + (lo % 256 : Nat)
    ⟨.fin, decide (q < 0), q.natAbs, (scHi : Int) - 127, hi * 256 + lo, scHi⟩

/-- The operand element at (row, index) of one tensor or of a ZI8 pair; zero beyond the rows or DIM0 (R73, R81, R83). -/
def State.arrElem (s : State) (c : Nat) (ds : List Desc) (step r k : Nat) : Elem :=
  match ds with
  | [d] =>
    if r < d.rows ∧ k < d.dimAt 0 then
      Elem.ofVal (s.loadElem c d step r k).val (s.elemCode d r k) (s.groupCode d r k)
    else Elem.zero
  | d :: d' :: _ =>
    if r < d.rows ∧ k < d.dimAt 0 then
      Elem.ofPair (s.elemCode d r k) (s.elemCode d' r k) (s.groupCode d r k) (s.groupCode d' r k)
    else Elem.zero
  | [] => Elem.zero

/-- The elements of one row that meet stationary indices 0 to K_eff - 1. -/
def State.arrRow (s : State) (c : Nat) (ds : List Desc) (step r k0 kEff : Nat) : List Elem :=
  (List.range kEff).map (fun k => s.arrElem c ds step r (k0 + k))

/-- The plane digit of an element with its sign, its special flag and its exponent (R78). -/
def Elem.plane (x : Elem) (j : Nat) : Elem := { x with m := bitsAt x.m (4 * j) 4, e := x.e + 4 * (j : Int) }

/-- The elements of the tensors that a load of one row of a block reads, for the counts of the load path. -/
def State.rowLoads (s : State) (c : Nat) (d : Desc) (step r k0 kEff : Nat) : List Loaded :=
  if r < d.rows then (List.range (min kEff (d.dimAt 0 - k0))).map (fun k => s.loadElem c d step r (k0 + k)) else []

/-- The first fault of one row of a load, with its place in the order of the operand's tensors (R124). -/
def State.arrRowFault (s : State) (ds : List Desc) (r k0 kEff : Nat) : Option (Nat × LoadFault) :=
  (List.range ds.length).findSome? (fun j =>
    match ds[j]? with
    | none => none
    | some d =>
      if r < d.rows then (s.rowFault d r k0 (min kEff (d.dimAt 0 - k0))).map (fun f => (j, f)) else none)

/-! ## The umpire (section 5.3) -/

/-- The modulus p = 2^31 - 1 of the residue check. -/
def umpP : Nat := 2147483647

/-- The residue of (-1)^neg * m * 2^e modulo p, with 2^e reduced as 2^(e mod 31) (R126). -/
def umpRes (neg : Bool) (m : Nat) (e : Int) : Nat :=
  let x := m % umpP * pow2 (e % 31).toNat % umpP
  if neg then (umpP - x) % umpP else x

/-- The residue of an operand element; a special element has residue 0 (R126). -/
def Elem.residue (x : Elem) : Nat := if x.cls = .fin then umpRes x.neg x.m x.e else 0

/-- The weight of stationary element `n` within its column block (R127). -/
def Block.weight (b : Block) (n : Nat) : Nat := (if b.twoBit then n else b.c * n) % 16 + 1

/-- The checksum row entries c_{k,b} of a block, from its columns (R127): for each k, 16 residues. -/
def Block.checksums (b : Block) : List (List Nat) :=
  (List.range b.kEff).map (fun k => (List.range 16).map (fun g =>
    (List.range b.nEff).foldl (fun acc n =>
      if b.group n = g then (acc + b.weight n * ((b.cols.getD n []).getD k Elem.zero).residue) % umpP else acc) 0))

/-- U_b of a streamed row, for the 16 column blocks: the checker's side (R127). -/
def Block.checkerSide (b : Block) (x : List Elem) : List Nat :=
  (List.range 16).map (fun g =>
    ((x.zip b.check).foldl (fun acc p => (acc + p.1.residue * p.2.getD g 0) % umpP) 0))

/-- A_b of a streamed row, for the 16 column blocks: the array's side, from the products (R127). -/
def Block.arraySide (b : Block) (products : List (List Elem)) : List Nat :=
  (List.range 16).map (fun g =>
    (List.range b.nEff).foldl (fun acc n =>
      if b.group n = g then
        (products.getD n []).foldl (fun acc p => (acc + b.weight n * p.residue) % umpP) acc
      else acc) 0)

/-! ## Products and accumulation -/

/-- The product of a streamed element and a stationary one (R76, R87): a zero plane digit without the special flag forms
a zero term whatever it meets (R78). -/
def Elem.product (temporal : Bool) (x w : Elem) : Elem :=
  let neg := x.neg ^^ w.neg
  if temporal && decide (w.cls = .fin ∧ w.m = 0) then Elem.zero
  else if x.cls = .nan ∨ w.cls = .nan then ⟨.nan, false, 0, 0, 0, 0⟩
  else if x.cls = .inf ∨ w.cls = .inf then
    if (x.cls = .fin ∧ x.m = 0) ∨ (w.cls = .fin ∧ w.m = 0) then ⟨.nan, false, 0, 0, 0, 0⟩ else ⟨.inf, neg, 0, 0, 0, 0⟩
  else ⟨.fin, neg, x.m * w.m, x.e + w.e, 0, 0⟩

/-- The products of a streamed row with every column of the block, in ascending k. -/
def Block.products (b : Block) (x : List Elem) : List (List Elem) :=
  b.cols.map (fun col => (x.zip col).map (fun p => p.1.product b.temporal p.2))

/-- The exponent of a nonzero finite product: floor(log2 |p|). -/
def Elem.log2 (p : Elem) : Int := (Nat.log2 p.m : Int) + p.e

/-- The sum of one slice (R87): each nonzero product truncated toward zero to a multiple of u = 2^(E - 25), summed
exactly in units of u; none where the slice has no nonzero finite product. -/
def sliceSum (slice : List Elem) : Option Val :=
  match slice.filter (fun p => decide (p.cls = .fin ∧ p.m ≠ 0)) with
  | [] => none
  | p :: t =>
    let u := (t.foldl (fun e q => max e q.log2) p.log2) - 25
    let x := (p :: t).foldl (fun (acc : Int) q =>
      let n := if u ≤ q.e then q.m * pow2 (q.e - u).toNat else q.m / pow2 (u - q.e).toNat
      if q.neg then acc - n else acc + n) 0
    some (.fin (decide (x < 0)) x.natAbs u)

/-- The slices of a column: 16 consecutive streamed positions each, the last what remains (R86). -/
def slices : Nat → List Elem → List (List Elem)
  | 0, _ => []
  | _ + 1, [] => []
  | n + 1, l => l.take 16 :: slices n (l.drop 16)

/-- The Z32a code that an exact nonzero value rounds to, to 24 significant bits, and whether it overflowed to infinity;
below 2^(-126) it becomes the zero of its sign (R48, R87). -/
def roundZ32a (neg : Bool) (m : Nat) (e : Int) : Nat × Bool :=
  let k := (Nat.log2 m : Int) + e - 23
  let q := (Mag.mk m 1 e).round .nearest k
  let ee := (Nat.log2 q : Int) + k
  if ee ≥ 128 then (fmtZF32.infCode neg, true)
  else if ee < -126 then (fmtZF32.codeOf neg 0 0, false)
  else (fmtZF32.codeOf neg q k, false)

/-- accumulate_column (R87) on the code of the starting value, the products and F = fm * 2^fe: the entry's new code, and
whether it overflowed. -/
def accumulateColumn (init : Nat) (products : List Elem) (fm : Nat) (fe : Int) : Nat × Bool :=
  let v0 := Fmt.z32a.decode init
  let plus := decide (v0 = .inf false) || products.any (fun p => decide (p.cls = .inf ∧ p.neg = false))
  let minus := decide (v0 = .inf true) || products.any (fun p => decide (p.cls = .inf ∧ p.neg = true))
  if v0.isNan || products.any (fun p => decide (p.cls = .nan)) then (fmtZF32.nanCode, false)
  else if plus && minus then (fmtZF32.nanCode, false)
  else if plus then (fmtZF32.infCode false, false)
  else if minus then (fmtZF32.infCode true, false)
  else
    let sums := (slices (products.length / 16 + 1) products).filterMap sliceSum
    let total := sums.foldl Val.add (.fin false 0 0)
    match v0.add (total.mul (.fin false fm fe)) with
    | .fin g m e =>
      if m = 0 then
        if v0.isZero && sums.isEmpty then (fmtZF32.codeOf v0.sign 0 0, false) else (0, false)
      else roundZ32a g m e
    | _ => (fmtZF32.nanCode, false)

/-! ## Scorebook writes -/

/-- The CPA of scorebook entry `k` of core `c` (R26). -/
def entryAddr (c k : Nat) : Nat := coreWindow c + storeSize + 4 * k

/-- The state with an entry written by an engine: the parity marks of its bytes are gone (R121). -/
def State.putEntry (s : State) (c k : Nat) (e : Entry) : State :=
  let s := if s.bad.isEmpty then s else s.clearBad (entryAddr c k) 4
  s.setEntry c k e

/-- The tag that a command of epoch `ep` sets (R92). -/
def tagOf (ep : Nat) : Nat := 256 + ep % 256

/-- The first of the entries whose tag forbids accumulation under epoch `ep` (R92). -/
def State.tagClash (s : State) (c ep : Nat) (ks : List Nat) : Option Nat :=
  ks.find? (fun k => let t := (s.entry c k).tag; decide (256 ≤ t ∧ t % 256 ≠ ep % 256))

/-- The state after NUM_EPOCH_MIX on entry `k` (Table 3-10), and the status code. DESIGN CHOICE (log entry 47): of the two engines
of R100 the event carries the scorebook (2), whose tag it is. -/
def State.raiseEpochMix (s : State) (c ep k : Nat) : State × Nat :=
  (s.raiseCore .numEpochMix c engBook (payload [(16, 4, k), (20, 1, (s.entry c k).tag % 256), (21, 1, ep % 256)]),
    Code.numEpochMix.val)

/-- An entry among `ks` whose parity is bad (R121). -/
def State.badEntry (s : State) (c : Nat) (ks : List Nat) : Option Nat :=
  if s.bad.isEmpty then none else ks.find? (fun k => anyMarked s.bad (entryAddr c k) 4)

/-- What a tag makes of reading entries to accumulate into them (R92): the state after the event, and the status code. -/
def State.tagFault (s : State) (c ep : Nat) (ks : List Nat) : Option (State × Nat) :=
  (s.tagClash c ep ks).map (fun k => s.raiseEpochMix c ep k)

/-- What stands in the way of reading entries to accumulate into them: bad parity, then a tag (R92, R121): the state
after the event, and the status code. -/
def State.entryFault (s : State) (c ep : Nat) (ks : List Nat) : Option (State × Nat) :=
  match s.badEntry c ks with
  | some k => some (s.raiseParity c engBook sevFailed (entryAddr c k) 1, Code.intParity.val)
  | none => s.tagFault c ep ks

/-- The column blocks of a streamed row whose starting entries hold bad parity, as a mask: one of the four further checks of the
array's path, a failure of which is an umpire mismatch (R129). -/
def State.entryMask (s : State) (c : Nat) (b : Block) (ks : List Nat) : Nat :=
  if s.bad.isEmpty then 0
  else (List.range ks.length).foldl (fun m j =>
    if anyMarked s.bad (entryAddr c (ks.getD j 0)) 4 then m ||| pow2 (b.group j) else m) 0

/-- The state with the entries `(entry, (code, overflowed))` written under epoch `ep`, and the overflows added to the
counts of the command that holds `token` (R89, R92). -/
def State.putRow (s : State) (c token ep : Nat) (row : List (Nat × Nat × Bool)) : State :=
  let s := row.foldl (fun s p => s.putEntry c p.1 ⟨p.2.1, tagOf ep⟩) s
  let ovf := row.filter (fun p => p.2.2)
  match ovf with
  | [] => s
  | p :: _ =>
    (s.count (Reg.arrCnt c 5) ovf.length).modIssued c token (fun i => { i with
      ovfFirst := if i.ovfCount = 0 then p.1 else i.ovfFirst, ovfCount := i.ovfCount + ovf.length })

/-- The state after NUM_ACC_OVERFLOW of an engine, if the command overflowed an entry (R89). -/
def State.raiseOverflow (s : State) (c engine token : Nat) : State :=
  match (s.core c).inflight.find? (fun i => decide (i.token = token)) with
  | none => s
  | some i =>
    if i.ovfCount = 0 then s
    else s.raiseCore .numAccOverflow c engine (payload [(16, 4, i.ovfFirst), (20, 8, i.ovfCount)])

/-! ## Refusals (R84) -/

/-- Why an array or scorebook command is refused: a reason of Table 3-7, an invalid descriptor, a descriptor whose bytes fail their
read (R121), or outlier extraction. -/
inductive ArrRefusal where
  | reason (r : Nat)
  | desc (da r : Nat)
  | fault (f : LoadFault)
  | extract (d : Desc) (x : Nat × Nat)
  deriving DecidableEq, Repr

/-- The state after a refusal by engine `engine`, and the status code. -/
def State.raiseArr (s : State) (c engine : Nat) : ArrRefusal → State × Nat
  | .reason r => (s.raiseCore .numArrInvalid c engine (payload [(16, 1, r)]), Code.numArrInvalid.val)
  | .desc da r => (s.raiseDesc c engine da r, Code.numDescInvalid.val)
  | .fault f => s.raiseLoad c 0 f
  | .extract d x => (s.raiseExtract c d x, Code.numExtractInvalid.val)

/-- The first failing check of a list of them, in order. -/
def firstFail {α : Type} : List (Bool × α) → Option α
  | [] => none
  | (b, x) :: t => if b then some x else firstFail t

/-- The descriptors of an operand: one, or with PAIR the LO descriptor 64 bytes on (Table 3-6). -/
def descOffs (off : Nat) (pair : Bool) : List Nat := if pair then [off, off + 64] else [off]

/-- The fault of reading the descriptors at core-store offsets `offs` (R121). -/
def State.descFault (s : State) (c : Nat) (offs : List Nat) : Option ArrRefusal :=
  (offs.findSome? (fun o => s.readFault (descAt c o) 64)).map (fun f => .fault f)

/-- Checks 1 to 3 of R84 on the descriptors at core-store offsets `offs`: alignment, validity, BASE in this store. DESIGN CHOICE
(log entry 49): a descriptor whose own 64 bytes run past the core store is answered with 0x07 before its validity. -/
def State.descChecks (s : State) (c : Nat) (offs : List Nat) (store : Bool) : Option ArrRefusal :=
  if offs.any (fun o => decide (o % 64 ≠ 0)) then some (.reason 0x08)
  else if offs.any (fun o => decide (o + 64 > storeSize)) then some (.reason 0x07)
  else ifSome (s.descFault c offs) (fun r => some r) <|
    match offs.findSome? (fun o => (s.descInvalid (descAt c o) store).map (fun r => ArrRefusal.desc (descAt c o) r)) with
    | some r => some r
    | none => if offs.all (fun o => s.baseInStore c (s.desc (descAt c o))) then none else some (.reason 0x07)

/-- A ZI8 pair whose descriptors are not both ZI8 outside EXPAND mode (R73). DESIGN CHOICE (log entry 51): that HI and LO have the
same shape is not checked; HI's rows and DIM0 bound the elements. -/
def pairBad (ds : List Desc) : Bool :=
  decide (ds.length = 2) && ds.any (fun d => decide (d.fmt ≠ Fmt.zi8 ∨ d.mode = ScaleMode.expand))

/-! ## Loads -/

/-- The operand fields of ARR_LOAD and ARR_FILL (Table 3-9), and of MATSTREAM (Table 3-6). -/
def arrSrc (w : Nat) : Nat := opBits w 32 0 24
def arrRow0 (w : Nat) : Nat := opBits w 36 0 32
def arrK0 (w : Nat) : Nat := opBits w 40 0 24
def arrPair (w : Nat) : Bool := bitAt w (8 * 43 + 1)
def arrTemporal (w : Nat) : Bool := bitAt w (8 * 43 + 2)
def arrPlane (w : Nat) : Nat := opBits w 43 3 2
def arrStreamFmt (w : Nat) : Nat := opBits w 44 0 4
def arrStreamPair (w : Nat) : Bool := bitAt w (8 * 44 + 4)

/-- The fields of bytes 32 to 63 that ARR_LOAD and ARR_FILL use. -/
def loadFields : List (Nat × Nat × Nat) := [(32, 0, 24), (36, 0, 32), (40, 0, 24), (43, 1, 4), (44, 0, 5)]

/-- The digit counts (streamed, stationary) of a load; none where a format or the pairing is not permitted (R77). -/
def State.loadDigits (s : State) (c w : Nat) : Option (Nat × Nat) :=
  let d := s.desc (descAt c (arrSrc w))
  match Fmt.ofCode (arrStreamFmt w) with
  | none => none
  | some f =>
    match arrDigits f (arrStreamPair w), arrDigits d.arrFmt (arrPair w) with
    | some r, some k => if arrPair w = arrStreamPair w then some (r, k) else none
    | _, _ => none

/-- The refusals of a load, in the order of R84. K0 is a multiple of 16, as Table 3-6 says of that field (log entry 53). -/
def State.loadRefusal (s : State) (c w : Nat) : Option ArrRefusal :=
  if !(opsClean w loadFields) || decide (arrK0 w % 16 ≠ 0) then some (.reason 0x08)
  else
    match s.descChecks c (descOffs (arrSrc w) (arrPair w)) false with
    | some r => some r
    | none =>
      let ds := (descOffs (arrSrc w) (arrPair w)).map (fun o => s.desc (descAt c o))
      match s.loadDigits c w with
      | none => some (.reason 0x04)
      | some (r, k) =>
        if pairBad ds then some (.reason 0x04)
        else if (arrTemporal w && decide ((r = 0 ∧ k = 0) ∨ max k 1 = 1)) || decide (max k 1 ≤ arrPlane w) then
          some (.reason 0x09)
        else none

/-- The lane groups whose loaded plane is zero, as a mask (section 3.9); only a TEMPORAL block has any. -/
def Block.zeroMask (b : Block) : Nat :=
  if !b.temporal then 0
  else (List.range 16).foldl (fun m g =>
    if ((b.cols.drop (16 * g)).take 16).all (fun col => col.all (fun x => decide (x.cls = .fin ∧ x.m = 0))) then
      m + pow2 g else m) 0

/-- The block that a load builds, with its zero flags and its checksum row (R76 to R78, R80, R127). DESIGN CHOICE (log entry 48): its
`c` is 1 in 2-bit mode, as ARR_STATUS.BANK_C then shows. -/
def State.loadBlock (s : State) (c w step : Nat) : Block :=
  let ds := (descOffs (arrSrc w) (arrPair w)).map (fun o => s.desc (descAt c o))
  let d := ds.headD (Desc.ofNat 0)
  let g := (s.loadDigits c w).getD (1, 1)
  let two := decide (g.1 = 0 ∧ g.2 = 0)
  let t := s.tensorScale d
  let b : Block :=
    { r := (if two then 0 else max g.1 1)
      c := (if two || arrTemporal w then 1 else max g.2 1)
      twoBit := two
      temporal := arrTemporal w
      plane := (if arrTemporal w then arrPlane w else 0)
      statFmt := d.arrFmt.code + 16 * flag (arrPair w)
      streamFmt := opBits w 44 0 5
      cols := [], tm := t.1, te := t.2, zero := 0, check := [] }
  let b := { b with cols := (List.range b.nEff).map (fun n =>
    (s.arrRow c ds step (arrRow0 w + n) (arrK0 w) b.kEff).map (fun (x : Elem) =>
      if b.temporal then x.plane b.plane else x)) }
  let b := { b with zero := b.zeroMask }
  { b with check := b.checksums }

/-- The first fault that a load meets, row by row, and whether it lies in the first block that the load reads (R80). -/
def State.loadFault (s : State) (c w nEff kEff : Nat) : Option (Nat × LoadFault × Bool) :=
  let ds := (descOffs (arrSrc w) (arrPair w)).map (fun o => s.desc (descAt c o))
  let d := ds.headD (Desc.ofNat 0)
  let k0 := arrK0 w
  let first := (d.rowBlocks (arrRow0 w) k0 (min kEff (d.dimAt 0 - k0))).head?
  (List.range nEff).findSome? (fun n =>
    (s.arrRowFault ds (arrRow0 w + n) k0 kEff).map (fun f =>
      (descAt c (arrSrc w + 64 * f.1), f.2,
        match f.2 with
        | .format t => decide (n = 0 ∧ f.1 = 0) && decide (some t = first)
        | _ => false)))

/-- What a load comes to: a block, or a failure that left the holder unchanged or (`spoilt`) EMPTY (R80); the state
carries the counts and the events of the load path. -/
structure LoadResult where
  state : State
  block : Option Block
  spoilt : Bool
  code : Nat

/-- The load of a block by an ARR_LOAD or an ARR_FILL (R76 to R81, R84, R124). -/
def State.arrLoad (s : State) (c : Nat) (i : Issued) (hw : List Hw) : LoadResult :=
  let w := i.cmd
  ifSome (s.loadRefusal c w) (fun r => let x := s.raiseArr c engArr r; ⟨x.1, none, false, x.2⟩) <|
    let h := s.applyHw c engArr hw
    if h.2 ≠ 0 then ⟨h.1, none, true, h.2⟩
    else
      let s := h.1
      let b := s.loadBlock c w i.step
      match s.loadFault c w b.nEff b.kEff with
      | some (da, f, first) =>
        let x := s.raiseLoad c da f
        ⟨x.1, none, !first, x.2⟩
      | none =>
        let ds := (descOffs (arrSrc w) (arrPair w)).map (fun o => s.desc (descAt c o))
        let s' := s.countLoads c (ds.map (fun d => (d.tensorId, (List.range b.nEff).flatMap (fun n =>
          s.rowLoads c d i.step (arrRow0 w + n) (arrK0 w) b.kEff))))
        ⟨s', some b, false, 0⟩

/-- The array command that may begin (R80, R212): a MATSTREAM after every earlier load and swap; a swap or a load after
everything earlier; a fill after every earlier load, swap and fill. -/
def Core.arrNext (k : Core) (op : Nat) : Option Issued :=
  let q := k.queue .arr
  match q.find? (fun i => decide (i.opcode = op) && !i.done) with
  | none => none
  | some i =>
    let earlier := q.takeWhile (fun j => !(decide (j.token = i.token)))
    let free := earlier.all (fun j => j.done ||
      (if op = 0x13 then decide (j.opcode = 0x11)
       else if op = 0x11 then decide (j.opcode = 0x13)
       else false))
    if free then some i else none

/-- The state after an array row of core `c`: issue of the head if it is the opcode and passes every check, then the
execution of the array command that may begin, if it is the opcode. -/
def State.arrRowOp (s : State) (c op : Nat) (regions : Nat → List Region) (run : State → Issued → State) : State :=
  let s := s.tryIssue c op .arr regions
  match (s.core c).arrNext op with
  | none => s
  | some i => if i.mayRun = true then run s i else s

/-- The regions of a load: its stationary tensor is read (Table 8-7). -/
def State.loadRegions (s : State) (c w : Nat) : List Region :=
  (descOffs (arrSrc w) (arrPair w)).flatMap (fun o => s.opRegion c o true false)

/-- ARR_LOAD (R80): the block shifts into the stationary bank; it is complete at ARR_LOAD_DONE. -/
def State.arrLoadRun (hw : List Hw) (s : State) (c : Nat) (i : Issued) : State :=
  let s := s.began c i
  let r := s.arrLoad c i hw
  ifSome (r.block) (fun b => r.state.modCore c (fun k => { k with loading := some b })) <|
    let s := if r.spoilt then r.state.modCore c (fun k => { k with bank := none }) else r.state
    s.executed c i.token r.code

def execArrLoad (core : Nat) (hw : List Hw) (s : State) : Host.Outcome State Fault Refusal :=
  .next (s.arrRowOp core 0x10 (s.loadRegions core) (fun s i => State.arrLoadRun hw s core i))

/-- The state after the running command of opcode `op` of the array queue has ended with success; it retires if it is
the oldest of its queue (R206). -/
def State.arrDone (s : State) (c op : Nat) (f : Core → Core) : State :=
  match ((s.core c).queue .arr).find? (fun i => decide (i.opcode = op ∧ i.progress = .running)) with
  | none => s
  | some i => (((s.modCore c f).executed c i.token 0).retireOldest c .arr)

/-- ARR_LOAD_DONE: the bank is LOADED, 128 rows after it began (R80, Table 3-4); ARR_CNT_1 counts the 128 cycles. -/
def execArrLoadDone (core : Nat) (s : State) : Host.Outcome State Fault Refusal :=
  match (s.core core).loading with
  | none => .next s
  | some b =>
    .next ((s.count (Reg.arrCnt core 1) 128).arrDone core 0x10
      (fun k => { k with bank := some b, loading := none }))

/-- ARR_FILL (R80): the bullpen is FILLING; its contents are replaced. -/
def State.arrFillRun (hw : List Hw) (s : State) (c : Nat) (i : Issued) : State :=
  let s := s.began c i
  let r := s.arrLoad c i hw
  ifSome (r.block) (fun b => r.state.modCore c (fun k => { k with filling := some b, bullpen := none })) <|
    let s := if r.spoilt then r.state.modCore c (fun k => { k with bullpen := none }) else r.state
    s.executed c i.token r.code

def execArrFill (core : Nat) (hw : List Hw) (s : State) : Host.Outcome State Fault Refusal :=
  .next (s.arrRowOp core 0x11 (s.loadRegions core) (fun s i => State.arrFillRun hw s core i))

/-- ARR_FILL_DONE: the bullpen is READY (R80, Table 3-5). -/
def execArrFillDone (core : Nat) (s : State) : Host.Outcome State Fault Refusal :=
  match (s.core core).filling with
  | none => .next s
  | some b => .next (s.arrDone core 0x11 (fun k => { k with bullpen := some b, filling := none }))

/-- ARR_SWAP (R80): the bank and the bullpen are exchanged with all they hold; an EMPTY bullpen refuses it. -/
def State.arrSwapRun (hw : List Hw) (s : State) (c : Nat) (i : Issued) : State :=
  let s := s.began c i
  if !(opsClean i.cmd []) then
    let x := s.raiseArr c engArr (.reason 0x08)
    x.1.executed c i.token x.2
  else if hw.contains .bank then
    let x := s.applyHw c engArr hw
    (x.1.modCore c (fun k => { k with bullpen := none })).executed c i.token x.2
  else
    let h := s.applyHw c engArr hw
    if h.2 ≠ 0 then h.1.executed c i.token h.2
    else if (h.1.core c).bullpen.isNone then
      let x := h.1.raiseArr c engArr (.reason 0x06)
      x.1.executed c i.token x.2
    else (h.1.modCore c (fun k => { k with bank := k.bullpen, bullpen := k.bank })).executed c i.token 0

def execArrSwap (core : Nat) (hw : List Hw) (s : State) : Host.Outcome State Fault Refusal :=
  .next (s.arrRowOp core 0x12 (fun _ => []) (fun s i => State.arrSwapRun hw s core i))

/-! ## MATSTREAM -/

/-- The operand fields of MATSTREAM (Table 3-6). -/
def streamAcc (w : Nat) : Bool := bitAt w (8 * 43)
def streamRows (w : Nat) : Nat := opBits w 44 0 16
def streamDst (w : Nat) : Nat := opBits w 46 0 19
def streamStride (w : Nat) : Nat := opBits w 49 0 19

/-- The fields of bytes 32 to 63 that MATSTREAM uses. -/
def streamFields : List (Nat × Nat × Nat) :=
  [(32, 0, 24), (36, 0, 32), (40, 0, 24), (43, 0, 2), (44, 0, 16), (46, 0, 19), (49, 0, 19)]

/-- The descriptors of the streamed operand. -/
def State.streamDescs (s : State) (c w : Nat) : List Desc :=
  (descOffs (arrSrc w) (arrPair w)).map (fun o => s.desc (descAt c o))

/-- Is the streamed digit count `r` that of the bank's geometry? A 2-bit operand beside a wider one has 1 digit (R75).
DESIGN CHOICE (log entry 50): so has a 2-bit stream against 2-bit weights that were loaded for a wider 1-digit STREAM_FMT. -/
def Block.streams (b : Block) (r : Nat) : Bool := if b.twoBit then decide (r = 0) else decide (max r 1 = b.r)

/-- The refusals of MATSTREAM, in the order of R84. -/
def State.streamRefusal (s : State) (c w : Nat) : Option ArrRefusal :=
  if !(opsClean w streamFields) || decide (arrK0 w % 16 ≠ 0) then some (.reason 0x08)
  else
    match s.descChecks c (descOffs (arrSrc w) (arrPair w)) false with
    | some r => some r
    | none =>
      let ds := s.streamDescs c w
      let d := ds.headD (Desc.ofNat 0)
      let rows := streamRows w
      if rows = 0 ∨ d.rows < arrRow0 w + rows then some (.reason 0x01)
      else
        match arrDigits d.arrFmt (arrPair w) with
        | none => some (.reason 0x04)
        | some r =>
          if pairBad ds then some (.reason 0x04)
          else
            match (s.core c).bank with
            | none => some (.reason 0x06)
            | some b =>
              firstFail [(decide (arrPair w ≠ bitAt b.streamFmt 4), .reason 0x04), (!(b.streams r), .reason 0x05),
                (decide (streamDst w + (rows - 1) * streamStride w + b.nEff > bookSize), .reason 0x02),
                (decide (rows > 1 ∧ streamStride w < b.nEff), .reason 0x03)]

/-- The lane groups that skip: those of zero planes, in ACC mode against a TEMPORAL bank (R97). -/
def Block.skips (b : Block) (acc : Bool) : Nat := if acc && b.temporal then b.zero else 0

/-- The scale product F = T_x * T_w, with T_x as it was read before row 0 (R83, R87). -/
def Issued.streamScale (i : Issued) (b : Block) : Nat × Int := (i.tx.1 * b.tm, i.tx.2 + b.te)

/-- The entries of output row `m`, in ascending column. -/
def rowEntries (dst stride m n : Nat) : List Nat := (List.range n).map (fun j => dst + m * stride + j)

/-- The new codes of output row `m`, and which overflowed; the entries of a lane group that skips keep their values
(R83, R87, R97). -/
def State.streamCodes (s : State) (c : Nat) (i : Issued) (b : Block) (x : List Elem) (m : Nat) : List (Nat × Nat × Bool) :=
  let w := i.cmd
  let f := i.streamScale b
  let skip := b.skips (streamAcc w)
  (b.products x).mapIdx (fun n ps =>
    let k := streamDst w + m * streamStride w + n
    let init := if streamAcc w then (s.entry c k).val else 0
    if bitAt skip (b.group n) then (k, init, false)
    else (k, accumulateColumn init ps f.1 f.2))

/-- The state after the counts and the events that end a MATSTREAM: the loads of its first `m` rows, its overflows; it
is executed with a status code. DESIGN CHOICE (log entry 47): its NUM_ACC_OVERFLOW carries the array (engine 1). -/
def State.streamEnd (s : State) (c : Nat) (i : Issued) (kEff m code : Nat) : State :=
  let w := i.cmd
  let s' := s.countLoads c ((s.streamDescs c w).map (fun d => (d.tensorId, (List.range m).flatMap (fun r =>
    s.rowLoads c d i.step (arrRow0 w + r) (arrK0 w) kEff))))
  (s'.raiseOverflow c engArr i.token).executed c i.token code

/-- The cause of a mismatch of an armed injection or of a changed checksum row (UMP_CTRL, R127): the bank with INJECT 2
applied to the first streamed position of nonzero residue, and the flags that stay armed. -/
def State.injectChecksum (s : State) (c : Nat) (b : Block) (x : List Elem) (skip : Nat) : State × Block :=
  if (s.core c).inject2 && !(bitAt skip 0) then
    match x.findIdx? (fun e => decide (e.residue ≠ 0)) with
    | none => (s, b)
    | some k =>
      let row := b.check.getD k []
      let b := { b with check := b.check.set k (row.set 0 ((row.getD 0 0 + 1) % umpP)) }
      (s.modCore c (fun q => { q with inject2 := false, bank := some b }), b)
  else (s, b)

/-- The verdict on a streamed row (R127, R128): the state with the injections used up, the mask of failing column blocks
and the cause, 0 where only the hardware failed. -/
def State.verdict (s : State) (c : Nat) (b : Block) (x : List Elem) (skip hw : Nat) : State × Nat × Nat :=
  let r := s.injectChecksum c b x skip
  let s := r.1
  let b := r.2
  let inj := (s.core c).inject1 && !(bitAt skip 0)
  let s := if inj then s.modCore c (fun k => { k with inject1 := false }) else s
  let a := b.arraySide (b.products x)
  let a := if inj then a.set 0 ((a.getD 0 0 + 1) % umpP) else a
  let u := b.checkerSide x
  let m := (List.range 16).foldl (fun m g => if a.getD g 0 ≠ u.getD g 0 then m + pow2 g else m) 0
  (s, m ||| hw, if hw ≠ 0 then 0 else if inj then 1 else 2)

/-- The state with output row `m` written, computed from streamed row ROW0 + m (R83, R92, R97). -/
def State.streamPut (s : State) (c : Nat) (i : Issued) (b : Block) (m : Nat) : State :=
  let w := i.cmd
  let x := s.arrRow c (s.streamDescs c w) i.step (arrRow0 w + m) (arrK0 w) b.kEff
  s.putRow c i.token (cmdEpoch w) (s.streamCodes c i b x m)

/-- The state with a unit of work of an engine's command held for arbitration (R128, R137). -/
def State.holdUnit (s : State) (c : Nat) (i : Issued) (engine unit mask cause : Nat) : State :=
  (((s.setSerial (s.serial + 1)).wr (.umpStatusArbitrating c) 1).modCore c (fun k =>
    { k with arbs := k.arbs ++ [⟨i.token, engine, unit, mask, cause, s.serial⟩] })).modIssued c i.token
      (fun j => { j with next := unit })

/-- The state after a row has entered the array, `skip` marking the lane groups that skip: it is counted in ARR_CNT_0, for each of them
in ARR_CNT_3 (R97), and in UMP_CNT_0. -/
def State.rowEnters (s : State) (c skip : Nat) : State :=
  ((s.count (Reg.arrCnt c 0) 1).count (Reg.arrCnt c 3) (popCount 16 skip)).count (Reg.umpCnt c 0) 1

/-- The rows of a MATSTREAM from row `m` on, `n` of them: each is read, its tags are checked, the umpire gives its
verdict, and it is written (R83, R93, R124, R127, R128). A failing row waits for arbitration; of a replay-verified core the verdict
is recorded, and a row whose two runs differ waits (R133). ARR_CNT_3 counts each row that enters for each lane group that skips
(R97). DESIGN CHOICE (log entry 52): the rows behind a row that ends the command are not counted in ARR_CNT_0. -/
def State.streamRowsFrom (hw : List Hw) (c : Nat) (i : Issued) (b : Block) : Nat → Nat → State → State
  | 0, m, s => s.streamEnd c i b.kEff m 0
  | n + 1, m, s =>
    let w := i.cmd
    let b := (s.core c).bank.getD b
    let ds := s.streamDescs c w
    let r := arrRow0 w + m
    match s.arrRowFault ds r (arrK0 w) b.kEff with
    | some f =>
      let x := s.raiseLoad c (descAt c (arrSrc w + 64 * f.1)) f.2
      x.1.streamEnd c i b.kEff m x.2
    | none =>
      let ks := rowEntries (streamDst w) (streamStride w) m b.nEff
      let skip := b.skips (streamAcc w)
      let s := s.rowEnters c skip
      match (if streamAcc w then s.tagFault c (cmdEpoch w) ks else none) with
      | some x => x.1.streamEnd c i b.kEff (m + 1) x.2
      | none =>
        let x := s.arrRow c ds i.step r (arrK0 w) b.kEff
        let v := s.verdict c b x skip (hwMask hw m ||| (if streamAcc w then s.entryMask c b ks else 0))
        let s := if v.2.1 = 0 then v.1 else v.1.count (Reg.umpCnt c 1) 1
        if s.rdBit (.umpStatusSuspect c) = true then
          if hwDiffers hw m then s.holdUnit c i engArr m v.2.1 3
          else State.streamRowsFrom hw c i b n (m + 1) (s.streamPut c i b m)
        else if v.2.1 ≠ 0 then s.holdUnit c i engArr m v.2.1 v.2.2
        else State.streamRowsFrom hw c i b n (m + 1) (s.streamPut c i b m)

/-- The tag pass of a MATSTREAM that every lane group skips, rows from `m` on (R97, R98): no row is read, tags are checked
and set. DESIGN CHOICE (log entry 52): a pass that a tag ends early has counted whole in ARR_CNT_3 and ARR_CNT_4. -/
def State.tagPassFrom (c : Nat) (i : Issued) (b : Block) : Nat → Nat → State → State
  | 0, _, s => s.executed c i.token 0
  | n + 1, m, s =>
    let w := i.cmd
    let ks := rowEntries (streamDst w) (streamStride w) m b.nEff
    match s.entryFault c (cmdEpoch w) ks with
    | some x => x.1.executed c i.token x.2
    | none => State.tagPassFrom c i b n (m + 1)
        (ks.foldl (fun s k => s.putEntry c k ⟨(s.entry c k).val, tagOf (cmdEpoch w)⟩) s)

/-- MATSTREAM (R83 to R89, R97 to R99). -/
def State.streamRun (hw : List Hw) (s : State) (c : Nat) (i : Issued) : State :=
  let w := i.cmd
  let s := s.began c i
  ifSome (s.streamRefusal c w) (fun r =>
    let x := s.raiseArr c engArr r
    x.1.executed c i.token x.2) <|
  match (s.core c).bank with
  | none => s.executed c i.token Code.numArrInvalid.val
  | some b =>
    if hw.contains .bank then
      let x := s.applyHw c engArr hw
      (x.1.modCore c (fun k => { k with bank := none })).executed c i.token x.2
    else
      let h := s.applyHw c engArr hw
      if h.2 ≠ 0 then h.1.executed c i.token h.2
      else if b.skips (streamAcc w) = 0xFFFF then
        let t := ceilDiv (streamRows w * b.nEff) 1024
        let s := (h.1.count (Reg.arrCnt c 3) (16 * t)).count (Reg.arrCnt c 4) 1
        State.tagPassFrom c i b (streamRows w) 0 s
      else
        let i := { i with tx := s.tensorScale ((s.streamDescs c w).headD (Desc.ofNat 0)) }
        State.streamRowsFrom hw c i b (streamRows w) 0 (h.1.modIssued c i.token (fun j => { j with tx := i.tx }))

/-- The regions of a MATSTREAM (R85): the streamed tensor, and the entries for the widest N_eff. -/
def State.streamRegions (s : State) (c w : Nat) : List Region :=
  (descOffs (arrSrc w) (arrPair w)).flatMap (fun o => s.opRegion c o true false) ++
    [bookRegion (streamDst w) (streamDst w + (streamRows w - 1) * streamStride w + 255) false true]

def execMatstream (core : Nat) (hw : List Hw) (s : State) : Host.Outcome State Fault Refusal :=
  .next (s.arrRowOp core 0x13 (s.streamRegions core) (fun s i => State.streamRun hw s core i))

end Sys2Proof.Machine
end

