-- ==== Sys2Proof/Machine/Scorebook.lean ====
section
/-!
DEFINITION. The scorebook's own commands (section 3.8): SBK_CLEAR, SBK_DRAIN, SBK_SPILL and SBK_RESTORE.
-/
namespace Sys2Proof.Machine

/-! ## SBK_CLEAR -/

/-- The operand fields of SBK_CLEAR, SBK_SPILL and SBK_RESTORE (Table 3-9). -/
def sbkEntry (w : Nat) : Nat := opBits w 46 0 19
def sbkCount (w : Nat) : Nat := opBits w 53 0 24
def sbkImage (w : Nat) : Nat := opBits w 32 0 24

/-- Is COUNT 0 or above 524,288? -/
def countBad (n : Nat) : Bool := decide (n = 0 ∨ n > bookSize)

/-- The state with `n` entries from `k` up set to +0, untagged (R91). -/
def State.clearEntries (s : State) (c k n : Nat) : State :=
  (List.range n).foldl (fun s j => s.putEntry c (k + j) Entry.reset) s

/-- SBK_CLEAR (R91): the refusals of R84, then the entries. -/
def State.sbkClearRun (hw : List Hw) (s : State) (c : Nat) (i : Issued) : State :=
  let w := i.cmd
  let s := s.began c i
  ifSome (firstFail [(!(opsClean w [(46, 0, 19), (53, 0, 24)]), ArrRefusal.reason 0x08),
      (countBad (sbkCount w), .reason 0x01), (decide (sbkEntry w + sbkCount w > bookSize), .reason 0x02)]) (fun r =>
      let x := s.raiseArr c engBook r
      x.1.executed c i.token x.2) <|
    let h := s.applyHw c engBook hw
    if h.2 ≠ 0 then h.1.executed c i.token h.2
    else (h.1.clearEntries c (sbkEntry w) (sbkCount w)).executed c i.token 0

/-- The regions of SBK_CLEAR: its entries, written (Table 8-7). -/
def clearRegions (w : Nat) : List Region := [bookRegion (sbkEntry w) (sbkEntry w + sbkCount w - 1) false true]

def execSbkClear (core : Nat) (hw : List Hw) (s : State) : Host.Outcome State Fault Refusal :=
  .next (s.engineRow core 0x18 .sbk clearRegions (fun s i => State.sbkClearRun hw s core i))

/-! ## SBK_DRAIN -/

/-- The operand fields of SBK_DRAIN (Table 3-9). -/
def drainDesc (w : Nat) : Nat := opBits w 32 0 24
def drainRow0 (w : Nat) : Nat := opBits w 36 0 32
def drainCol0 (w : Nat) : Nat := opBits w 40 0 24
def drainClear (w : Nat) : Bool := bitAt w (8 * 43)
def drainRows (w : Nat) : Nat := opBits w 44 0 16
def drainSrc (w : Nat) : Nat := opBits w 46 0 19
def drainStride (w : Nat) : Nat := opBits w 49 0 19
def drainCols (w : Nat) : Nat := opBits w 52 0 16

/-- The fields of bytes 32 to 63 that SBK_DRAIN uses. -/
def drainFields : List (Nat × Nat × Nat) :=
  [(32, 0, 24), (36, 0, 32), (40, 0, 24), (43, 0, 1), (44, 0, 16), (46, 0, 19), (49, 0, 19), (52, 0, 16)]

/-- The number of rows between neighbours along dimension `a`, from 1 to 4. -/
def Desc.rowStep (d : Desc) (a : Nat) : Nat := ((d.dim.drop 1).take (a - 1)).foldl (· * ·) 1

/-- Does every scale group that meets rows r0 to r0 + n - 1 and columns col0 to col0 + ncol - 1 lie wholly within
them (R95)? -/
def Desc.groupsWithin (d : Desc) (r0 n col0 ncol : Nat) : Bool :=
  if d.mode = .none then true
  else if d.axis = 0 then decide (col0 % d.group = 0 ∧ (col0 + ncol) % d.group = 0)
  else (List.range n).all (fun j =>
    let r := r0 + j
    let p := d.rowStep d.axis
    let x := (d.rowIndices r).getD (d.axis - 1) 0 % d.group
    decide (r0 + x * p ≤ r ∧ r + (d.group - 1 - x) * p < r0 + n))

/-- The refusals of SBK_DRAIN, in the order of R84. DESIGN CHOICE (log entry 53): the spec states no alignment of COL0 and NCOL but
that of the scale groups (R95) and of the outlier groups (R114), so check 1 finds none of them misaligned. -/
def State.drainRefusal (s : State) (c : Nat) (i : Issued) : Option ArrRefusal :=
  let w := i.cmd
  if !(opsClean w drainFields) then some (.reason 0x08)
  else
    match s.descChecks c [drainDesc w] true with
    | some r => some r
    | none =>
      let d := s.desc (descAt c (drainDesc w))
      let rows := drainRows w
      let cols := drainCols w
      match firstFail [
          (decide (rows = 0 ∨ cols = 0 ∨ cols > 256 ∨ d.rows < drainRow0 w + rows ∨ d.dimAt 0 < drainCol0 w + cols),
            ArrRefusal.reason 0x01),
          (decide (drainSrc w + (rows - 1) * drainStride w + cols > bookSize), .reason 0x02),
          (decide (rows > 1 ∧ drainStride w < cols), .reason 0x03),
          (!(d.groupsWithin (drainRow0 w) rows (drainCol0 w) cols), .reason 0x08)] with
      | some r => some r
      | none => (s.extractRefusal c d i.outBinds (drainRow0 w) (drainCol0 w) cols).map (fun x => .extract d x)

/-- The entries that SBK_DRAIN reads, row by row. -/
def drainEntries (w : Nat) : List Nat :=
  (List.range (drainRows w)).flatMap (fun m => rowEntries (drainSrc w) (drainStride w) m (drainCols w))

/-- SBK_DRAIN (R95): the entries go through the store path, whatever their tags; with CLEAR_AFTER each is cleared as it
is read. -/
def State.sbkDrainRun (hw : List Hw) (s : State) (c : Nat) (i : Issued) : State :=
  let w := i.cmd
  let s := s.began c i
  ifSome (s.drainRefusal c i) (fun r =>
      let x := s.raiseArr c engBook r
      x.1.executed c i.token x.2) <|
    let h := s.applyHw c engBook hw
    if h.2 ≠ 0 then h.1.executed c i.token h.2
    else
      let s := h.1
      let ks := drainEntries w
      match s.badEntry c ks with
      | some k => (s.raiseParity c engBook sevFailed (entryAddr c k) 1).executed c i.token Code.intParity.val
      | none =>
        let d := s.desc (descAt c (drainDesc w))
        let els := ks.mapIdx (fun j k =>
          (drainRow0 w + j / drainCols w, drainCol0 w + j % drainCols w, Fmt.z32a.decode (s.entry c k).val))
        let s := if drainClear w then ks.foldl (fun s k => s.putEntry c k Entry.reset) s else s
        let x := s.storePath c d i.step i.outBinds i.staBinds els
        x.1.executed c i.token x.2

/-- The regions of SBK_DRAIN: its entries, written too with CLEAR_AFTER, and its tensor (Table 8-7). -/
def State.drainRegions (s : State) (c w : Nat) : List Region :=
  bookRegion (drainSrc w) (drainSrc w + (drainRows w - 1) * drainStride w + (drainCols w - 1)) true (drainClear w) ::
    s.opRegion c (drainDesc w) false true

def execSbkDrain (core : Nat) (hw : List Hw) (s : State) : Host.Outcome State Fault Refusal :=
  .next (s.engineRow core 0x19 .sbk (s.drainRegions core) (fun s i => State.sbkDrainRun hw s core i))

/-! ## SBK_SPILL and SBK_RESTORE -/

/-- The bytes of a spill image of `n` entries: values, tags, zeros up to a multiple of 64 (R96). -/
def imageSize (n : Nat) : Nat := ceilDiv (6 * n) 64 * 64

/-- The refusals of SBK_SPILL and SBK_RESTORE, in the order of R84. -/
def imageRefusal (w : Nat) : Option ArrRefusal :=
  firstFail [(!(opsClean w [(32, 0, 24), (46, 0, 19), (53, 0, 24)]) || decide (sbkImage w % 64 ≠ 0), .reason 0x08),
    (decide (sbkImage w + imageSize (sbkCount w) > storeSize), .reason 0x07), (countBad (sbkCount w), .reason 0x01),
    (decide (sbkEntry w + sbkCount w > bookSize), .reason 0x02)]

/-- SBK_SPILL (R96). -/
def State.sbkSpillRun (hw : List Hw) (s : State) (c : Nat) (i : Issued) : State :=
  let w := i.cmd
  let s := s.began c i
  ifSome (imageRefusal w) (fun r =>
      let x := s.raiseArr c engBook r
      x.1.executed c i.token x.2) <|
    let h := s.applyHw c engBook hw
    if h.2 ≠ 0 then h.1.executed c i.token h.2
    else
      let s := h.1
      let n := sbkCount w
      let ks := (List.range n).map (fun j => sbkEntry w + j)
      match s.badEntry c ks with
      | some k => (s.raiseParity c engBook sevFailed (entryAddr c k) 1).executed c i.token Code.intParity.val
      | none =>
        let vals := ks.flatMap (fun k => bytesOfNat 4 (s.entry c k).val)
        let tags := ks.flatMap (fun k => bytesOfNat 2 (s.entry c k).tag)
        (s.store (coreWindow c + sbkImage w) (vals ++ tags ++ List.replicate (imageSize n - 6 * n) 0)).executed c i.token 0

/-- The regions of SBK_SPILL: its entries, read, and its image, written. -/
def spillRegions (w : Nat) : List Region :=
  [bookRegion (sbkEntry w) (sbkEntry w + sbkCount w - 1) true false,
    ⟨false, sbkImage w, min (sbkImage w + imageSize (sbkCount w) - 1) (storeSize - 1), false, true⟩]

def execSbkSpill (core : Nat) (hw : List Hw) (s : State) : Host.Outcome State Fault Refusal :=
  .next (s.engineRow core 0x1A .sbk spillRegions (fun s i => State.sbkSpillRun hw s core i))

/-- SBK_RESTORE (R96): the tags are checked first, and a restore with a bad one writes nothing. -/
def State.sbkRestoreRun (hw : List Hw) (s : State) (c : Nat) (i : Issued) : State :=
  let w := i.cmd
  let s := s.began c i
  ifSome (imageRefusal w) (fun r =>
      let x := s.raiseArr c engBook r
      x.1.executed c i.token x.2) <|
    let h := s.applyHw c engBook hw
    if h.2 ≠ 0 then h.1.executed c i.token h.2
    else
      let s := h.1
      let n := sbkCount w
      let a := coreWindow c + sbkImage w
      if anyMarked s.bad a (6 * n) then
        let x := s.raiseLoad c 0 (.parity (((s.bad.find? (fun p => p.2 && decide (a ≤ p.1 ∧ p.1 < a + 6 * n))).map
          (fun p => p.1)).getD a))
        x.1.executed c i.token x.2
      else if (List.range n).any (fun j => decide (s.memNat (a + 4 * n + 2 * j) 2 ≥ 512)) then
        let x := s.raiseArr c engBook (.reason 0x0A)
        x.1.executed c i.token x.2
      else
        ((List.range n).foldl (fun s j =>
          s.putEntry c (sbkEntry w + j) ⟨s.memNat (a + 4 * j) 4, s.memNat (a + 4 * n + 2 * j) 2⟩) s).executed
            c i.token 0

/-- The regions of SBK_RESTORE: its image, read, and its entries, written. -/
def restoreRegions (w : Nat) : List Region :=
  [⟨false, sbkImage w, min (sbkImage w + imageSize (sbkCount w) - 1) (storeSize - 1), true, false⟩,
    bookRegion (sbkEntry w) (sbkEntry w + sbkCount w - 1) false true]

def execSbkRestore (core : Nat) (hw : List Hw) (s : State) : Host.Outcome State Fault Refusal :=
  .next (s.engineRow core 0x1B .sbk restoreRegions (fun s i => State.sbkRestoreRun hw s core i))

end Sys2Proof.Machine
end

