-- ==== Sys2Proof/Machine/Cnv.lean ====
section
/-!
DEFINITION. The conventional unit (sections 4.1 and 4.2: CNV_MATMUL, CNV_PROJ, CNV_CORR) and the outlier unit
(section 4.5: OUT_MATSTREAM), with OUT_BIND (R113).
-/
namespace Sys2Proof.Machine

/-! ## Sums -/

/-- A sum in progress: its ZF32 code, and whether every element value so far was finite. -/
structure CnvAcc where
  code : Nat
  finite : Bool
  deriving DecidableEq, Repr

/-- One step of cnv_sum (R103): the product is rounded once, and then the sum. -/
def CnvAcc.step (s : CnvAcc) (x w : Val) : CnvAcc :=
  ⟨f32Add s.code (toZF32 (x.mul w)), s.finite && x.isFinite && w.isFinite⟩

/-- The start of a sum: -0 (R103), or an entry of the correction buffer (R107). -/
def CnvAcc.start : CnvAcc := ⟨0x80000000, true⟩
def CnvAcc.ofEntry (code : Nat) : CnvAcc := ⟨code, (zf32 code).isFinite⟩

/-- Did the output become infinite from finite products (R103)? DESIGN CHOICE (log entry 54): a product of finite elements counts as
finite, though it may itself round to infinity. -/
def CnvAcc.overflowed (s : CnvAcc) : Bool := s.finite && decide (s.code % 2 ^ 31 = 0x7F800000)

/-- cnv_sum of row `ra` of one tensor and row `rw` of another over `n` indices from `k0`, going on from `acc` (R103). -/
def State.cnvSum (s : State) (c : Nat) (a w : Desc) (step ra rw k0 n : Nat) (acc : CnvAcc) : CnvAcc :=
  (List.range n).foldl (fun (t : CnvAcc) k => t.step (s.elemVal c a step ra (k0 + k)) (s.elemVal c w step rw (k0 + k))) acc

/-! ## Plans -/

/-- Where the outputs of a CNV command go: scorebook entries, written or accumulated, a tensor, or the correction
buffer. -/
inductive CnvDest where
  | entries (dst stride : Nat) (acc : Bool)
  | tensor (da : Nat)
  | buffer (buf0 : Nat) (acc : Bool)
  deriving DecidableEq, Repr

/-- What a CNV command computes: outputs (m, n) for m below `rows` and n below `cols`, in tiles of R x C, each over
`len` reduction indices. -/
structure CnvPlan where
  rows : Nat
  cols : Nat
  tr : Nat
  tc : Nat
  len : Nat
  dest : CnvDest
  deriving DecidableEq, Repr

/-- The rank of a code of RANK (Table 4-4). -/
def cnvRank (x : Nat) : Nat := 8 * pow2 x

/-- The tile shape (R, C) of a SHAPE (Table 4-1). -/
def cnvShape (x : Nat) : Nat × Nat := if x = 0 then (32, 32) else if x = 1 then (64, 16) else (128, 8)

/-- The tile shape that a rank gives CNV_PROJ (R107). -/
def rankShape (r : Nat) : Nat × Nat := if r = 8 then (128, 8) else if r = 16 then (64, 16) else (32, 32)

/-- The SHAPE that CNV_STATUS shows for a command (Table 4-1): its own, for CNV_PROJ that of its rank (R107). -/
def cnvShapeNo (w : Nat) : Nat :=
  if cmdOpcode w = 0x20 then opBits w 63 2 2
  else if cmdOpcode w = 0x21 then (if cnvRank (opBits w 48 0 2) = 8 then 2 else if cnvRank (opBits w 48 0 2) = 16 then 1 else 0)
  else 0

/-- The plan of a CNV command. -/
def cnvPlan (w : Nat) : CnvPlan :=
  if cmdOpcode w = 0x20 then
    let sh := cnvShape (opBits w 63 2 2)
    let dest := opBits w 63 0 2
    { rows := opBits w 44 0 16, cols := opBits w 55 0 16, tr := sh.1, tc := sh.2, len := opBits w 60 0 24
      dest := (if dest = 2 then .tensor (opBits w 46 0 24)
               else .entries (opBits w 46 0 19) (opBits w 49 0 19) (decide (dest = 1))) }
  else if cmdOpcode w = 0x21 then
    let r := cnvRank (opBits w 48 0 2)
    let sh := rankShape r
    { rows := opBits w 44 0 16, cols := r, tr := sh.1, tc := sh.2, len := opBits w 52 0 24
      dest := .buffer (opBits w 46 0 16) (bitAt w (8 * 48 + 2)) }
  else
    { rows := opBits w 44 0 16, cols := opBits w 52 0 16, tr := 32, tc := 32, len := cnvRank (opBits w 52 16 2)
      dest := .entries (opBits w 46 0 19) (opBits w 49 0 19) true }

/-- The number of column tiles, and of all tiles (R105). -/
def CnvPlan.colTiles (p : CnvPlan) : Nat := ceilDiv p.cols p.tc
def CnvPlan.tiles (p : CnvPlan) : Nat := ceilDiv p.rows p.tr * p.colTiles

/-- The outputs (m, n) of tile `j`, column-tile-fastest (R105), in ascending order. -/
def CnvPlan.tile (p : CnvPlan) (j : Nat) : List (Nat × Nat) :=
  let m0 := j / p.colTiles * p.tr
  let n0 := j % p.colTiles * p.tc
  (List.range (min p.tr (p.rows - m0))).flatMap (fun a =>
    (List.range (min p.tc (p.cols - n0))).map (fun b => (m0 + a, n0 + b)))

/-- The state's correction buffer entry `k` of core `c` (R107). -/
def State.corrAt (s : State) (c k : Nat) : Nat := Sparse.get 0 (s.core c).corr k

/-- Output (m, n) of a CNV command (R104, R107, R108). -/
def State.cnvOutput (s : State) (c : Nat) (i : Issued) (m n : Nat) : CnvAcc :=
  let w := i.cmd
  let a := s.desc (descAt c (opBits w 32 0 24))
  if i.opcode = 0x22 then
    let p := cnvPlan w
    let buf0 := opBits w 36 0 16
    (List.range p.len).foldl (fun (t : CnvAcc) j =>
      t.step (zf32 (s.corrAt c (buf0 + m * p.len + j))) (s.elemVal c a i.step (opBits w 40 0 32 + n) j)) .start
  else
    let b := s.desc (descAt c (opBits w 36 0 24))
    let row := opBits w 40 0 32 + m
    if i.opcode = 0x21 then
      let r := cnvRank (opBits w 48 0 2)
      let start := if bitAt w (8 * 48 + 2) then .ofEntry (s.corrAt c (opBits w 46 0 16 + m * r + n)) else .start
      s.cnvSum c a b i.step row n (opBits w 49 0 24) (opBits w 52 0 24) start
    else s.cnvSum c a b i.step row (opBits w 52 0 24 + n) (opBits w 57 0 24) (opBits w 60 0 24) .start

/-! ## Refusals (Table 4-8) -/

/-- The fields of bytes 32 to 63 that each CNV command uses (Tables 4-2, 4-4). -/
def cnvFields (w : Nat) : List (Nat × Nat × Nat) :=
  if cmdOpcode w = 0x20 then
    [(32, 0, 24), (36, 0, 24), (40, 0, 32), (44, 0, 16), (46, 0, if opBits w 63 0 2 = 2 then 24 else 19), (49, 0, 19),
      (52, 0, 24), (55, 0, 16), (57, 0, 24), (60, 0, 24), (63, 0, 4)]
  else if cmdOpcode w = 0x21 then
    [(32, 0, 24), (36, 0, 24), (40, 0, 32), (44, 0, 16), (46, 0, 16), (48, 0, 3), (49, 0, 24), (52, 0, 24)]
  else [(32, 0, 24), (36, 0, 16), (40, 0, 32), (44, 0, 16), (46, 0, 19), (49, 0, 19), (52, 0, 18)]

/-- The core-store offsets of the source descriptors of a CNV command, in operand order. -/
def cnvSources (w : Nat) : List Nat :=
  if cmdOpcode w = 0x22 then [opBits w 32 0 24] else [opBits w 32 0 24, opBits w 36 0 24]

/-- Checks of the descriptors at `offs` for CNV and OUT: alignment (0x07), validity, BASE in this store (0x05). -/
def State.cnvDescChecks (s : State) (c : Nat) (offs : List Nat) (store : Bool) : Option ArrRefusal :=
  if offs.any (fun o => decide (o % 64 ≠ 0)) then some (.reason 0x07)
  else if offs.any (fun o => decide (o + 64 > storeSize)) then some (.reason 0x05)
  else ifSome (s.descFault c offs) (fun r => some r) <|
    match offs.findSome? (fun o => (s.descInvalid (descAt c o) store).map (fun r => ArrRefusal.desc (descAt c o) r)) with
    | some r => some r
    | none => if offs.all (fun o => s.baseInStore c (s.desc (descAt c o))) then none else some (.reason 0x05)

/-- May the tensor be CNV's weight operand, and its streamed operand (R102)? -/
def Desc.cnvWeight (d : Desc) : Bool := decide (d.arrFmt = .zb16 ∨ d.arrFmt = .zf16)
def Desc.cnvStream (d : Desc) : Bool := (arrDigits d.arrFmt false).isSome

/-- The index ranges of a CNV command that exceed an operand, and its formats and buffer range: reasons 0x01, 0x04 and
0x06. -/
def State.cnvOperandBad (s : State) (c w : Nat) : Option Nat :=
  let p := cnvPlan w
  let a := s.desc (descAt c (opBits w 32 0 24))
  let b := s.desc (descAt c (opBits w 36 0 24))
  let row0 := opBits w 40 0 32
  if cmdOpcode w = 0x20 then
    firstFail [
      (decide (p.rows = 0 ∨ p.cols = 0 ∨ p.len = 0 ∨ a.rows < row0 + p.rows ∨ b.rows < opBits w 52 0 24 + p.cols ∨
        a.dimAt 0 < opBits w 57 0 24 + p.len ∨ b.dimAt 0 < opBits w 57 0 24 + p.len), 0x01),
      (!a.cnvStream || !b.cnvWeight, 0x04)]
  else if cmdOpcode w = 0x21 then
    firstFail [
      (decide (p.rows = 0 ∨ p.len = 0 ∨ a.rows < row0 + p.rows ∨ a.dimAt 0 < opBits w 49 0 24 + p.len ∨
        b.dimAt 0 < opBits w 49 0 24 + p.len), 0x01),
      (!a.cnvStream || !b.cnvWeight, 0x04),
      (decide (b.rows < p.cols ∨ opBits w 46 0 16 + p.rows * p.cols > 65536), 0x06)]
  else
    firstFail [(decide (p.rows = 0 ∨ p.cols = 0 ∨ a.rows < row0 + p.cols), 0x01), (!a.cnvWeight, 0x04),
      (decide (a.dimAt 0 < p.len ∨ opBits w 36 0 16 + p.rows * p.len > 65536), 0x06)]

/-- The refusals that come from a command's destination: a tensor to store to, or a scorebook range. -/
def State.cnvDestBad (s : State) (c : Nat) (i : Issued) : Option ArrRefusal :=
  let w := i.cmd
  let p := cnvPlan w
  match p.dest with
  | .buffer _ _ => none
  | .entries dst stride _ =>
    firstFail [(decide (dst + (p.rows - 1) * stride + p.cols > bookSize), .reason 0x02),
      (decide (p.rows > 1 ∧ stride < p.cols), .reason 0x03)]
  | .tensor off =>
    let d := s.desc (descAt c off)
    if d.rows < opBits w 40 0 32 + p.rows ∨ d.dimAt 0 < opBits w 52 0 24 + p.cols then some (.reason 0x01)
    else (s.extractRefusal c d i.outBinds (opBits w 40 0 32) (opBits w 52 0 24) p.cols).map (fun x => .extract d x)

/-- The refusals of a CNV command (Table 4-8). -/
def State.cnvRefusal (s : State) (c : Nat) (i : Issued) : Option ArrRefusal :=
  let w := i.cmd
  let mm := decide (i.opcode = 0x20)
  let dest := opBits w 63 0 2
  if !(opsClean w (cnvFields w)) ||
      (mm && decide (opBits w 63 2 2 = 3 ∨ dest = 3 ∨ (dest = 2 ∧ opBits w 49 0 24 ≠ 0))) then some (.reason 0x07)
  else
    match s.cnvDescChecks c (cnvSources w) false with
    | some r => some r
    | none =>
      match (if mm && decide (dest = 2) then s.cnvDescChecks c [opBits w 46 0 24] true else none) with
      | some r => some r
      | none =>
        match s.cnvOperandBad c w with
        | some r => some (.reason r)
        | none => s.cnvDestBad c i

/-- The state after a refusal of a CNV or OUT command by reason, and the status code. -/
def State.raiseCnv (s : State) (c : Nat) (code : Code) (engine : Nat) : ArrRefusal → State × Nat
  | .reason r => (s.raiseCore code c engine (payload [(16, 1, r)]), code.val)
  | .desc da r => (s.raiseDesc c engine da r, Code.numDescInvalid.val)
  | .fault f => s.raiseLoad c 0 f
  | .extract d x => (s.raiseExtract c d x, Code.numExtractInvalid.val)

/-! ## Execution -/

/-- The rows and the index ranges that a CNV command loads: (descriptor offset, first row, rows, first index, length). -/
def cnvLoads (w : Nat) : List (Nat × Nat × Nat × Nat × Nat) :=
  let p := cnvPlan w
  if cmdOpcode w = 0x20 then
    [(opBits w 32 0 24, opBits w 40 0 32, p.rows, opBits w 57 0 24, p.len),
      (opBits w 36 0 24, opBits w 52 0 24, p.cols, opBits w 57 0 24, p.len)]
  else if cmdOpcode w = 0x21 then
    [(opBits w 32 0 24, opBits w 40 0 32, p.rows, opBits w 49 0 24, p.len),
      (opBits w 36 0 24, 0, p.cols, opBits w 49 0 24, p.len)]
  else [(opBits w 32 0 24, opBits w 40 0 32, p.cols, 0, p.len)]

/-- The first fault among loads, with the address of its descriptor (R124). -/
def State.loadsFault (s : State) (c : Nat) (l : List (Nat × Nat × Nat × Nat × Nat)) : Option (Nat × LoadFault) :=
  l.findSome? (fun x =>
    (s.rowsFault (s.desc (descAt c x.1)) x.2.1 x.2.2.1 x.2.2.2.1 x.2.2.2.2).map (fun f => (descAt c x.1, f)))

/-- The state after the counts of loads, each element once. -/
def State.countAllLoads (s : State) (c step : Nat) (l : List (Nat × Nat × Nat × Nat × Nat)) : State :=
  s.countLoads c (l.map (fun x =>
    let d := s.desc (descAt c x.1)
    (d.tensorId, (List.range x.2.2.1).flatMap (fun r => s.rowLoads c d step (x.2.1 + r) x.2.2.2.1 x.2.2.2.2))))

/-- The value `code` as the one product that R104 accumulates. -/
def Elem.ofZf32 (code : Nat) : Elem := Elem.ofVal (zf32 code) 0 0

/-- The state with the outputs of a tile that overflowed added to the counts of the command (R103). -/
def State.countInf (s : State) (c token : Nat) (outs : List (Nat × CnvAcc)) : State :=
  match outs.filter (fun x => x.2.overflowed) with
  | [] => s
  | x :: t => (s.count (Reg.cnvCnt c 2) (t.length + 1)).modIssued c token (fun i => { i with
      infFirst := if i.infCount = 0 then x.1 else min i.infFirst x.1, infCount := i.infCount + t.length + 1 })

/-- The state with tile `j` of a CNV command written (R104, R107); the outputs of a store wait for the last tile. -/
def State.cnvPut (s : State) (c : Nat) (i : Issued) (p : CnvPlan) (j : Nat) : State :=
  let outs := (p.tile j).map (fun x => (x, s.cnvOutput c i x.1 x.2))
  let s' := (s.count (Reg.cnvCnt c 0) p.len).countInf c i.token (outs.map (fun x => (x.1.1 * p.cols + x.1.2, x.2)))
  match p.dest with
  | .tensor _ => s'
  | .buffer b _ => s'.modCore c (fun k => { k with
      corr := outs.foldl (fun m x => Sparse.put 0 (b + x.1.1 * p.cols + x.1.2) x.2.code m) k.corr
      corrBad := k.corrBad.filter (fun e => !(outs.any (fun x => decide (b + x.1.1 * p.cols + x.1.2 = e)))) })
  | .entries dst stride acc => s'.putRow c i.token (cmdEpoch i.cmd) (outs.map (fun x =>
      let k := dst + x.1.1 * stride + x.1.2
      (k, accumulateColumn (if acc then (s.entry c k).val else 0) [Elem.ofZf32 x.2.code] 1 0)))

/-- The outputs of the first `n` tiles in ascending m, then n. -/
def State.cnvOutputs (s : State) (c : Nat) (i : Issued) (p : CnvPlan) (n : Nat) : List (Nat × Nat × CnvAcc) :=
  let done := (List.range n).flatMap p.tile
  (List.range p.rows).flatMap (fun m => (List.range p.cols).filterMap (fun k =>
    if done.contains (m, k) then some (m, k, s.cnvOutput c i m k) else none))

/-- The state after NUM_CNV_OVERFLOW, if an output of the command overflowed (R103). -/
def State.raiseInf (s : State) (c token : Nat) : State :=
  match (s.core c).inflight.find? (fun i => decide (i.token = token)) with
  | none => s
  | some i =>
    if i.infCount = 0 then s
    else s.raiseCore .numCnvOverflow c engCnv (payload [(16, 4, i.infFirst), (20, 8, i.infCount)])

/-- The end of a CNV command after `n` tiles: its events, its store (R104, DEST 2); it is executed with a status code. -/
def State.cnvEnd (s : State) (c : Nat) (i : Issued) (p : CnvPlan) (n code : Nat) : State :=
  let s := (s.raiseInf c i.token).raiseOverflow c engBook i.token
  match p.dest with
  | .tensor off =>
    let w := i.cmd
    let x := s.storePath c (s.desc (descAt c off)) i.step i.outBinds i.staBinds
      ((s.cnvOutputs c i p n).map (fun y => (opBits w 40 0 32 + y.1, opBits w 52 0 24 + y.2.1, zf32 y.2.2.code)))
    x.1.executed c i.token (if code = 0 then x.2 else code)
  | _ => s.executed c i.token code

/-- The entries of tile `j` of a command that accumulates. -/
def CnvPlan.accEntries (p : CnvPlan) (j : Nat) : List Nat :=
  match p.dest with
  | .entries dst stride true => (p.tile j).map (fun x => dst + x.1 * stride + x.2)
  | _ => []

/-- The tiles of a CNV command from tile `j` on, `n` of them, computed in order (R105, R120, R137). A tile whose modulo-3
check fails waits for arbitration; of a replay-verified core the check is recorded, and a tile whose two runs differ waits (R133). -/
def State.cnvTilesFrom (hw : List Hw) (c : Nat) (i : Issued) (p : CnvPlan) : Nat → Nat → State → State
  | 0, j, s => s.cnvEnd c i p j 0
  | n + 1, j, s =>
    match s.entryFault c (cmdEpoch i.cmd) (p.accEntries j) with
    | some x => x.1.cnvEnd c i p j x.2
    | none =>
      let s := if hwMask hw j ≠ 0 then s.count (Reg.umpCnt c 2) 1 else s
      if s.rdBit (.umpStatusSuspect c) = true ∧ hwDiffers hw j = true then s.holdUnit c i engCnv j 0 3
      else if s.rdBit (.umpStatusSuspect c) = false ∧ hwMask hw j ≠ 0 then s.holdUnit c i engCnv j 0 0
      else State.cnvTilesFrom hw c i p n (j + 1) (s.cnvPut c i p j)

/-- The fault of the correction-buffer entries that a CNV command reads (R107, R108, R121): CNV_CORR's, and CNV_PROJ's where it adds
to them. -/
def State.corrFault (s : State) (c w : Nat) : Bool :=
  let p := cnvPlan w
  let lo := if cmdOpcode w = 0x22 then opBits w 36 0 16 else opBits w 46 0 16
  let n := if cmdOpcode w = 0x22 then p.rows * p.len else p.rows * p.cols
  (decide (cmdOpcode w = 0x22) || (decide (cmdOpcode w = 0x21) && bitAt w (8 * 48 + 2))) &&
    (s.core c).corrBad.any (fun e => decide (lo ≤ e ∧ e < lo + n))

/-- A CNV command (R101 to R109). -/
def State.cnvRun (hw : List Hw) (s : State) (c : Nat) (i : Issued) : State :=
  let s := s.began c i
  match s.cnvRefusal c i with
  | some r =>
    let x := s.raiseCnv c .numCnvInvalid engCnv r
    x.1.executed c i.token x.2
  | none =>
    let h := s.applyHw c engCnv hw
    if h.2 ≠ 0 then h.1.executed c i.token h.2
    else
      match h.1.loadsFault c (cnvLoads i.cmd) with
      | some f =>
        let x := h.1.raiseLoad c f.1 f.2
        x.1.executed c i.token x.2
      | none =>
        if h.1.corrFault c i.cmd then (h.1.raiseParity c engCnv sevFailed 0 1).executed c i.token Code.intParity.val else
        let s := h.1.countAllLoads c i.step (cnvLoads i.cmd)
        let p := cnvPlan i.cmd
        State.cnvTilesFrom hw c i p p.tiles 0 s

/-- The regions of a CNV command (R106, Table 8-7). -/
def State.cnvRegions (s : State) (c w : Nat) : List Region :=
  let p := cnvPlan w
  let src := (cnvSources w).flatMap (fun o => s.opRegion c o true false)
  match p.dest with
  | .buffer _ _ => src
  | .tensor off => src ++ s.opRegion c off false true
  | .entries dst stride _ => src ++ [bookRegion dst (dst + (p.rows - 1) * stride + (p.cols - 1)) false true]

/-- CNV_MATMUL (R104), CNV_PROJ (R107) and CNV_CORR (R108). -/
def execCnvMatmul (core : Nat) (hw : List Hw) (s : State) : Host.Outcome State Fault Refusal :=
  .next (s.engineRow core 0x20 .cnv (s.cnvRegions core) (fun s i => State.cnvRun hw s core i))

def execCnvProj (core : Nat) (hw : List Hw) (s : State) : Host.Outcome State Fault Refusal :=
  .next (s.engineRow core 0x21 .cnv (s.cnvRegions core) (fun s i => State.cnvRun hw s core i))

def execCnvCorr (core : Nat) (hw : List Hw) (s : State) : Host.Outcome State Fault Refusal :=
  .next (s.engineRow core 0x22 .cnv (s.cnvRegions core) (fun s i => State.cnvRun hw s core i))

/-! ## OUT_MATSTREAM -/

/-- The operand fields of OUT_MATSTREAM (Table 4-6). -/
def outX (w : Nat) : Nat := opBits w 32 0 24
def outW (w : Nat) : Nat := opBits w 36 0 24
def outRow0 (w : Nat) : Nat := opBits w 40 0 32
def outRows (w : Nat) : Nat := opBits w 44 0 16
def outDst (w : Nat) : Nat := opBits w 46 0 19
def outStride (w : Nat) : Nat := opBits w 49 0 19
def outK0 (w : Nat) : Nat := opBits w 52 0 24
def outLen (w : Nat) : Nat := opBits w 55 0 24
def outN0 (w : Nat) : Nat := opBits w 58 0 24
def outCols (w : Nat) : Nat := opBits w 61 0 8 + 1
def outUseW (w : Nat) : Bool := bitAt w (8 * 62)
def outUseX (w : Nat) : Bool := bitAt w (8 * 62 + 1)

/-- The fields of bytes 32 to 63 that OUT_MATSTREAM uses. -/
def outFields : List (Nat × Nat × Nat) :=
  [(32, 0, 24), (36, 0, 24), (40, 0, 32), (44, 0, 16), (46, 0, 19), (49, 0, 19), (52, 0, 24), (55, 0, 24), (58, 0, 24),
    (61, 0, 8), (62, 0, 2)]

/-- The CPA of the outlier list bound to a tensor by the bindings that a command found, if any (R113). -/
def listOf (c : Nat) (binds : List Nat) (tid : Nat) : Option Nat :=
  (boundSlot binds tid).map (fun i => coreWindow c + bitsAt (binds.getD i 0) 32 24)

/-- The refusals of OUT_MATSTREAM that come before any row (Table 4-8, R117). -/
def State.outRefusal (s : State) (c : Nat) (i : Issued) : Option ArrRefusal :=
  let w := i.cmd
  if !(opsClean w outFields) then some (.reason 0x07)
  else if outK0 w % 16 ≠ 0 ∨ outLen w % 16 ≠ 0 then some (.reason 0x08)
  else
    match s.cnvDescChecks c [outX w, outW w] false with
    | some r => some r
    | none =>
      let x := s.desc (descAt c (outX w))
      let d := s.desc (descAt c (outW w))
      firstFail [
        ((outUseW w && (boundSlot i.outBinds d.tensorId).isNone) ||
          (outUseX w && (boundSlot i.outBinds x.tensorId).isNone), .reason 0x05),
        (decide (outRows w = 0 ∨ outLen w = 0 ∨ x.rows < outRow0 w + outRows w ∨ d.rows < outN0 w + outCols w ∨
          x.dimAt 0 < outK0 w + outLen w ∨ d.dimAt 0 < outK0 w + outLen w), .reason 0x01),
        ((outUseW w && !d.fmt.extracts) || (outUseX w && !x.fmt.extracts), .reason 0x04),
        (decide (outDst w + (outRows w - 1) * outStride w + outCols w > bookSize), .reason 0x02),
        (decide (outRows w > 1 ∧ outStride w < outCols w), .reason 0x03)]

/-- The record of group `g` of row `r` of the list at `a` (R111). -/
def State.outRecord (s : State) (a gpr r g : Nat) : Nat := s.memNat (a + 64 + 16 * (r * gpr + g)) 16

/-- Entry `e` of a group record: its index and its ZB16 code, if VALID. -/
def recordEntry (x e : Nat) : Option (Nat × Nat) :=
  if bitAt x (32 * e + 23) then some (bitsAt x (32 * e + 16) 7, bitsAt x (32 * e) 16) else none

/-- Is the group record one that R112 allows, in a group of `len` elements? -/
def recordOk (x len : Nat) : Bool :=
  let n := ((List.range 4).takeWhile (fun e => bitAt x (32 * e + 23))).length
  (List.range 4).all (fun e =>
    if e < n then decide (bitsAt x (32 * e + 24) 8 = 0 ∧ bitsAt x (32 * e + 16) 7 < len) &&
      decide (e = 0 ∨ bitsAt x (32 * (e - 1) + 16) 7 < bitsAt x (32 * e + 16) 7)
    else decide (bitsAt x (32 * e) 32 = 0))

/-- The groups of a row that hold indices k0 to k0 + n - 1. -/
def groupsOf (k0 n : Nat) : List Nat := (List.range ((k0 + n + 127) / 128 - k0 / 128)).map (fun j => k0 / 128 + j)

/-- The first group record of rows r0 to r0 + n - 1 that breaks R112, as (row, group). -/
def State.badRecord (s : State) (d : Desc) (a r0 n k0 len : Nat) : Option (Nat × Nat) :=
  (List.range n).findSome? (fun j => (groupsOf k0 len).findSome? (fun g =>
    if recordOk (s.outRecord a d.gpr (r0 + j) g) (min 128 (d.dimAt 0 - 128 * g)) then none else some (r0 + j, g)))

/-- The outlier at index `k` of row `r`, if there is one. -/
def State.outlierAt (s : State) (d : Desc) (list : Option Nat) (r k : Nat) : Option Val :=
  match list with
  | none => none
  | some a =>
    let x := s.outRecord a d.gpr r (k / 128)
    ((List.range 4).findSome? (fun e => match recordEntry x e with
      | some (j, v) => if j = k % 128 then some v else none
      | none => none)).map (fun v => fmtZB16.decodeIeee v)

/-- The fault of the group records of rows r0 to r0 + n - 1 that hold indices k0 to k0 + len - 1, and of the list's header (R121). -/
def State.recordFault (s : State) (d : Desc) (a r0 n k0 len : Nat) : Option LoadFault :=
  (s.readFault a 64).orElse (fun _ => (List.range n).findSome? (fun j => (groupsOf k0 len).findSome? (fun g =>
    s.readFault (a + 64 + 16 * ((r0 + j) * d.gpr + g)) 16)))

/-- The terms of one output (R117), in ascending k, the weight term before the activation term: ZF32 codes. -/
def State.outTerms (s : State) (c : Nat) (i : Issued) (xl wl : Option Nat) (m n : Nat) : List Nat :=
  let w := i.cmd
  let x := s.desc (descAt c (outX w))
  let d := s.desc (descAt c (outW w))
  (List.range (outLen w)).flatMap (fun j =>
    let k := outK0 w + j
    let wo := s.outlierAt d wl (outN0 w + n) k
    let xo := s.outlierAt x xl (outRow0 w + m) k
    let t1 := match wo with
      | some v => [toZF32 ((s.elemVal c x i.step (outRow0 w + m) k).mul v)]
      | none => []
    let t2 := match xo with
      | some u =>
        let full := match wo with
          | some v => v
          | none => s.elemVal c d i.step (outN0 w + n) k
        [toZF32 (u.mul full)]
      | none => []
    t1 ++ t2)

/-- The end of an OUT_MATSTREAM after `m` rows. -/
def State.outEnd (s : State) (c : Nat) (i : Issued) (m code : Nat) : State :=
  let w := i.cmd
  let s := s.countAllLoads c i.step [(outX w, outRow0 w, m, outK0 w, outLen w), (outW w, outN0 w, outCols w, outK0 w, outLen w)]
  (s.raiseOverflow c engBook i.token).executed c i.token code

/-- The outlier lists of an OUT_MATSTREAM's operands, X first, where it uses them. -/
def State.outLists (s : State) (c : Nat) (i : Issued) : Option Nat × Option Nat :=
  (if outUseX i.cmd then listOf c i.outBinds (s.desc (descAt c (outX i.cmd))).tensorId else none,
    if outUseW i.cmd then listOf c i.outBinds (s.desc (descAt c (outW i.cmd))).tensorId else none)

/-- The terms of row `m` of an OUT_MATSTREAM (R117), with the entry of each column that has at least one. -/
def State.outRowTerms (s : State) (c : Nat) (i : Issued) (m : Nat) : List (Nat × List Nat) :=
  let w := i.cmd
  (List.range (outCols w)).filterMap (fun n =>
    match s.outTerms c i (s.outLists c i).1 (s.outLists c i).2 m n with
    | [] => none
    | ts => some (outDst w + m * outStride w + n, ts))

/-- The rows of an OUT_MATSTREAM from row `m` on, `n` of them (R117): only entries with a term are written. -/
def State.outRowsFrom (c : Nat) (i : Issued) : Nat → Nat → State → State
  | 0, m, s => s.outEnd c i m 0
  | n + 1, m, s =>
    let w := i.cmd
    let x := s.desc (descAt c (outX w))
    let d := s.desc (descAt c (outW w))
    let xl := (s.outLists c i).1
    let wl := (s.outLists c i).2
    match s.loadsFault c [(outX w, outRow0 w + m, 1, outK0 w, outLen w), (outW w, outN0 w, outCols w, outK0 w, outLen w)] with
    | some f =>
      let y := s.raiseLoad c f.1 f.2
      y.1.outEnd c i m y.2
    | none =>
      ifSome ((wl.bind (fun a => s.recordFault d a (outN0 w) (outCols w) (outK0 w) (outLen w))).orElse
          (fun _ => xl.bind (fun a => s.recordFault x a (outRow0 w + m) 1 (outK0 w) (outLen w)))) (fun f =>
        let y := s.raiseLoad c 0 f
        y.1.outEnd c i m y.2) <|
      match ((wl.bind (fun a => s.badRecord d a (outN0 w) (outCols w) (outK0 w) (outLen w))).orElse
          (fun _ => xl.bind (fun a => s.badRecord x a (outRow0 w + m) 1 (outK0 w) (outLen w)))) with
      | some g =>
        (s.raiseCore .numOutInvalid c engOut (payload [(16, 1, 0x07), (20, 4, g.1), (24, 4, g.2)])).outEnd c i m
          Code.numOutInvalid.val
      | none =>
        let row := s.outRowTerms c i m
        match s.entryFault c (cmdEpoch w) (row.map (fun p => p.1)) with
        | some y => y.1.outEnd c i m y.2
        | none =>
          let codes := row.map (fun p => (p.1,
            accumulateColumn (s.entry c p.1).val [Elem.ofZf32 (p.2.foldl f32Add 0x80000000)] 1 0))
          let s := s.count (Reg.outCnt c 0) ((row.map (fun p => p.2.length)).foldl (· + ·) 0)
          State.outRowsFrom c i n (m + 1) (s.putRow c i.token (cmdEpoch w) codes)

/-- Does an OUT_MATSTREAM read an outlier binding of bad parity (R121)? -/
def State.bindFault (s : State) (c : Nat) (i : Issued) : Bool :=
  let bad (use : Bool) (off : Nat) : Bool := use &&
    (boundSlot i.outBinds (s.desc (descAt c off)).tensorId).any (fun n => (s.core c).bindBad.contains n)
  bad (outUseX i.cmd) (outX i.cmd) || bad (outUseW i.cmd) (outW i.cmd)

/-- OUT_MATSTREAM (R117). -/
def State.outRun (hw : List Hw) (s : State) (c : Nat) (i : Issued) : State :=
  let s := s.began c i
  ifSome (s.outRefusal c i) (fun r =>
      let x := s.raiseCnv c .numOutInvalid engOut r
      x.1.executed c i.token x.2) <|
    let h := s.applyHw c engOut hw
    if h.2 ≠ 0 then h.1.executed c i.token h.2
    else if h.1.bindFault c i then (h.1.raiseParity c engOut sevFailed 0 1).executed c i.token Code.intParity.val
    else State.outRowsFrom c i (outRows i.cmd) 0 h.1

/-- The region of the list records of a tensor that OUT_MATSTREAM reads (R118); the list's header of 64 bytes is read without
checks (R209). -/
def State.listRegion (s : State) (c off : Nat) (use : Bool) : List Region :=
  let d := s.desc (descAt c off)
  match (if use then listOf c (s.outBinds c) d.tensorId else none) with
  | none => []
  | some a =>
    let lo := a - coreWindow c
    if d.rows * d.gpr = 0 ∨ lo + 64 ≥ storeSize then []
    else [⟨false, lo + 64, min (lo + 64 + 16 * d.rows * d.gpr - 1) (storeSize - 1), true, false⟩]

/-- The regions of OUT_MATSTREAM (R118). -/
def State.outRegions (s : State) (c w : Nat) : List Region :=
  s.opRegion c (outX w) true false ++ s.opRegion c (outW w) true false ++
    [bookRegion (outDst w) (outDst w + (outRows w - 1) * outStride w + (outCols w - 1)) false true] ++
    s.listRegion c (outX w) (outUseX w) ++ s.listRegion c (outW w) (outUseW w)

def execOutMatstream (core : Nat) (hw : List Hw) (s : State) : Host.Outcome State Fault Refusal :=
  .next (s.engineRow core 0x31 .out (s.outRegions core) (fun s i => State.outRun hw s core i))

end Sys2Proof.Machine
end

