-- ==== Sys2Proof/Machine/Elementary.lean ====
section
/-!
DEFINITION. The correctly rounded functions of VEC (R221, Table 8-10) and of Rule P (R184). A result that is not a
dyadic number is computed to far more bits than ZF32 keeps, with a last bit that stands for the rest; assumption 30 says
what that rests on.
-/
namespace Sys2Proof.Machine

/-- The number of fraction bits of the fixed-point computations. -/
def fixBits : Nat := 256

/-- The partial sum of 2 * sum over k of 1 / ((2k + 1) 3^(2k + 1)), which is ln 2, in units of 2^-fixBits: `n` terms
from term `k` on, `p` being 3^(2k + 1). -/
def ln2From : Nat → Nat → Nat → Nat
  | 0, _, _ => 0
  | n + 1, k, p => 2 * pow2 fixBits / ((2 * k + 1) * p) + ln2From n (k + 1) (9 * p)

/-- ln 2 in units of 2^-fixBits. -/
def ln2Fixed : Nat := ln2From 84 0 3

/-- The partial sum of the exponential series of y * 2^-fixBits: `n` terms from term `k` on, the last term being
`t` * 2^-fixBits. -/
def expFrom (y : Nat) : Nat → Nat → Nat → Nat
  | 0, _, t => t
  | n + 1, k, t => t + expFrom y n (k + 1) (t * y / (pow2 fixBits * (k + 1)))

/-- 2^f for f = x * 2^-fixBits in [0, 1), in units of 2^-fixBits. -/
def exp2Fixed (x : Nat) : Nat := expFrom (x * ln2Fixed / pow2 fixBits) 60 0 (pow2 fixBits)

/-- 2^a as a ZF32 code (R221). A dyadic exponent that is not an integer has an irrational power. -/
def valExp2 : Val → Nat
  | .nan => fmtZF32.nanCode
  | .inf s => if s then 0 else fmtZF32.infCode false
  | .fin s m e =>
    if m = 0 then fmtZF32.codeOf false 1 0
    else
      let l : Int := (Nat.log2 m : Int) + e
      if l < -40 then fmtZF32.codeOf false 1 0
      else if l > 8 then (if s then 0 else fmtZF32.infCode false)
      else
        let u := ((Mag.mk m 1 e).units (-(fixBits : Int)))
        let u := u.1 / u.2
        let x : Int := if s then -(u : Int) else u
        let n := x / (pow2 fixBits : Nat)
        let f := (x % (pow2 fixBits : Nat)).toNat
        if f = 0 then fmtZF32.roundMag .nearest false ⟨1, 1, n⟩
        else fmtZF32.roundMag .nearest false ⟨2 * exp2Fixed f + 1, 1, n - fixBits - 1⟩

/-- The bits of the base-2 logarithm of x * 2^-fixBits in [1, 2), `n` of them, by repeated squaring. -/
def log2From : Nat → Nat → Nat → Nat
  | 0, _, acc => acc
  | n + 1, x, acc =>
    let y := x * x / pow2 fixBits
    if y ≥ 2 * pow2 fixBits then log2From n (y / 2) (2 * acc + 1) else log2From n y (2 * acc)

/-- log2 a as a ZF32 code (R221, Table 8-10). -/
def valLog2 : Val → Nat
  | .nan => fmtZF32.nanCode
  | .inf s => if s then fmtZF32.nanCode else fmtZF32.infCode false
  | .fin s m e =>
    if m = 0 then fmtZF32.infCode true
    else if s then fmtZF32.nanCode
    else
      let l := Nat.log2 m
      let n : Int := (l : Int) + e
      if m = pow2 l then toZF32 (Val.ofInt n)
      else
        let f := log2From 200 (m * pow2 fixBits / pow2 l) 0
        let x : Int := (n * (pow2 200 : Nat) + f) * 2 + 1
        fmtZF32.roundMag .nearest (decide (x < 0)) ⟨x.natAbs, 1, -201⟩

/-- 1 / sqrt(m * 2^e) for m not zero, with a last bit that is 1 exactly when the value is not exact. -/
def rsqrtMag (m : Nat) (e : Int) : Mag :=
  let odd := decide (e % 2 ≠ 0)
  let m := if odd then 2 * m else m
  let e := if odd then e - 1 else e
  let g := Nat.log2 m + 40
  let r := isqrt (pow2 (2 * g) / m)
  let ex := -(e / 2) - g
  if r * r * m = pow2 (2 * g) then ⟨r, 1, ex⟩ else ⟨2 * r + 1, 1, ex - 1⟩

/-- 1 / sqrt(a) as a ZF32 code (R221, Table 8-10). -/
def valRsqrt : Val → Nat
  | .nan => fmtZF32.nanCode
  | .inf s => if s then fmtZF32.nanCode else 0
  | .fin s m e =>
    if m = 0 then fmtZF32.infCode s
    else if s then fmtZF32.nanCode
    else fmtZF32.roundMag .nearest false (rsqrtMag m e)

/-- The square root of a value as a ZF32 code. -/
def valSqrt : Val → Nat
  | .nan => fmtZF32.nanCode
  | .inf s => if s then fmtZF32.nanCode else fmtZF32.infCode false
  | .fin s m e =>
    if m = 0 then fmtZF32.codeOf s 0 0
    else if s then fmtZF32.nanCode
    else fmtZF32.roundMag .nearest false (sqrtMag m e 40)

/-- (m * 2^e)^(-1/4) for m not zero, with a last bit that is 1 exactly when the value is not exact. -/
def root4Mag (m : Nat) (e : Int) : Mag :=
  let k := (e % 4).toNat
  let m := m * pow2 k
  let e := e - k
  let g := Nat.log2 m + 40
  let r := isqrt (isqrt (pow2 (4 * g) / m))
  let ex := -(e / 4) - g
  if r * r * (r * r) * m = pow2 (4 * g) then ⟨r, 1, ex⟩ else ⟨2 * r + 1, 1, ex - 1⟩

/-- round_ne_zf32(f^(-1/4)) of R184, for a finite positive ZF32 number. -/
def f32Root4Inv (x : Nat) : Nat :=
  match zf32 x with
  | .fin _ m e => if m = 0 then fmtZF32.infCode false else fmtZF32.roundMag .nearest false (root4Mag m e)
  | _ => fmtZF32.nanCode

/-- The IEEE maximum of R222: a NaN gives the canonical NaN, and +0 is greater than -0. -/
def valMax (a b : Val) : Val :=
  if a.isNan || b.isNan then .nan
  else if a.lt b then b
  else if b.lt a then a
  else if a.sign then b else a

/-- The IEEE minimum (Table 8-10): -0 is less than +0. -/
def valMin (a b : Val) : Val :=
  if a.isNan || b.isNan then .nan
  else if a.lt b then a
  else if b.lt a then b
  else if a.sign then a else b

end Sys2Proof.Machine
end

