-- ==== Sys2Proof/Machine/Vector.lean ====
section
/-!
DEFINITION. The vector engine's element-wise and reducing commands (R221, R222, Tables 8-9 and 8-10). A unit of
arbitration is a batch of 64 lanes (R130).
-/
namespace Sys2Proof.Machine

/-- The pairwise tree of R171 over 2^n values; values beyond the list enter as +0. Each addition is rounded once into
ZF32. -/
def pairTree : Nat → List Val → Val
  | 0, l => l.headD (.fin false 0 0)
  | n + 1, l => zf32 (toZF32 ((pairTree n (l.take (pow2 n))).add (pairTree n (l.drop (pow2 n)))))

/-- The chunk sum of at most 64 values, as a ZF32 code (R171). -/
def chunkSum (l : List Val) : Nat := toZF32 (pairTree 6 l)

/-- Element `i` by linear index of a tensor (R63). -/
def State.elemAt (s : State) (c : Nat) (d : Desc) (step i : Nat) : Val :=
  s.elemVal c d step (i / d.dimAt 0) (i % d.dimAt 0)

/-! ## Operations (Table 8-10) -/

/-- The number of tensor operands that an operation uses. -/
def vecArity (op : Nat) : Nat := if op = 3 then 3 else if op = 1 ∨ op = 2 ∨ op = 4 ∨ op = 5 then 2 else 1

/-- The result of an operation as a ZF32 code. -/
def vecOp (op : Nat) (a b x : Val) : Nat :=
  match op with
  | 0x00 => toZF32 a
  | 0x01 => toZF32 (a.add b)
  | 0x02 => toZF32 (a.mul b)
  | 0x03 => toZF32 ((a.mul b).add x)
  | 0x04 => toZF32 (valMax a b)
  | 0x05 => toZF32 (valMin a b)
  | 0x06 => toZF32 a.abs
  | 0x07 => valExp2 a
  | 0x08 => valLog2 a
  | 0x09 => valDiv fmtZF32 (.fin false 1 0) a
  | 0x0A => valRsqrt a
  | _ => valSqrt a

/-! ## Operands (Table 8-9) -/

def vecA (w : Nat) : Nat := opBits w 32 0 24
def vecB (w : Nat) : Nat := opBits w 36 0 24
def vecC (w : Nat) : Nat := opBits w 40 0 24
def vecD (w : Nat) : Nat := opBits w 44 0 24
def vecOpcode (w : Nat) : Nat := opBits w 48 0 8
def vecBScalar (w : Nat) : Bool := bitAt w (8 * 49)
def vecCScalar (w : Nat) : Bool := bitAt w (8 * 49 + 1)

/-- The descriptor offsets that a VEC_EW or VEC_REDUCE reads. -/
def vecSources (w : Nat) : List Nat :=
  if cmdOpcode w = 0x2B then [vecA w]
  else
    [vecA w] ++ (if vecArity (vecOpcode w) ≥ 2 ∧ vecBScalar w = false then [vecB w] else []) ++
      (if vecArity (vecOpcode w) = 3 ∧ vecCScalar w = false then [vecC w] else [])

/-- Is an operand of a VEC_EW missing or surplus: offset 0 stands for none (Table 8-9)? -/
def vecOperandBad (used scalar : Bool) (off : Nat) : Bool :=
  if used then (if scalar then decide (off ≠ 0) else decide (off = 0)) else scalar || decide (off ≠ 0)

/-- The refusals of the operand words alone: reserved bits, OP, missing and surplus operands, alignment, place. -/
def vecWordsBad (w : Nat) : Bool :=
  let offs := vecD w :: vecSources w
  (if cmdOpcode w = 0x2B then
    !(opsClean w [(32, 0, 24), (44, 0, 24), (48, 0, 8)]) || decide (vecOpcode w > 3)
  else
    !(opsClean w [(32, 0, 24), (36, 0, 24), (40, 0, 24), (44, 0, 24), (48, 0, 8), (49, 0, 2), (52, 0, 32), (56, 0, 32)]) ||
    decide (vecOpcode w > 0x0B) ||
    vecOperandBad (decide (vecArity (vecOpcode w) ≥ 2)) (vecBScalar w) (vecB w) ||
    vecOperandBad (decide (vecArity (vecOpcode w) = 3)) (vecCScalar w) (vecC w)) ||
  offs.any (fun o => decide (o % 64 ≠ 0 ∨ o + 64 > storeSize))

/-- The first operand whose descriptor is not valid, with the reason of Table 2-5. -/
def State.vecDescBad (s : State) (c w : Nat) : Option (Nat × Nat) :=
  ((vecSources w).map (fun o => (o, false)) ++ [(vecD w, true)]).findSome? (fun x =>
    (s.descInvalid (descAt c x.1) x.2).map (fun r => (descAt c x.1, r)))

/-- The refusals that rest on the descriptors: an operand outside the core store, counts or shapes that differ. -/
def State.vecShapesBad (s : State) (c w : Nat) : Bool :=
  let d := s.desc (descAt c (vecD w))
  let a := s.desc (descAt c (vecA w))
  (vecD w :: vecSources w).any (fun o => !(s.baseInStore c (s.desc (descAt c o)))) ||
  (if cmdOpcode w = 0x2B then decide (d.dim ≠ 1 :: a.dim.tail)
   else (vecSources w).any (fun o => decide ((s.desc (descAt c o)).elements ≠ d.elements)))

/-- The regions of a VEC_EW or VEC_REDUCE (Table 8-7). -/
def State.vecRegions (s : State) (c w : Nat) : List Region :=
  if vecWordsBad w then []
  else (vecSources w).flatMap (fun o => s.opRegion c o true false) ++ s.opRegion c (vecD w) false true

/-- The state after a refusal with reason 0x0A (Table 8-8), and the status code. -/
def State.refuseVec (s : State) (c : Nat) (i : Issued) : State × Nat :=
  (s.raiseCore .hqCmdInvalid c engPmk
    (payload [(16, 1, 0x0A), (20, 4, i.index), (24, 2, i.stream), (26, 1, i.opcode)]), Code.hqCmdInvalid.val)

/-! ## Results -/

/-- Element `i` of VEC_EW (R221). -/
def State.vecElem (s : State) (c : Nat) (i : Issued) (j : Nat) : Nat :=
  let w := i.cmd
  let rd (off : Nat) : Val := s.elemAt c (s.desc (descAt c off)) i.step j
  let b := if vecBScalar w then zf32 (opBits w 52 0 32) else if vecArity (vecOpcode w) ≥ 2 then rd (vecB w) else .nan
  let x := if vecCScalar w then zf32 (opBits w 56 0 32) else if vecArity (vecOpcode w) = 3 then rd (vecC w) else .nan
  vecOp (vecOpcode w) (rd (vecA w)) b x

/-- A list in runs of `n`, at most `fuel` runs. -/
def chunksOf {α : Type} (n : Nat) : Nat → List α → List (List α)
  | 0, _ => []
  | fuel + 1, l => if l.isEmpty then [] else l.take n :: chunksOf n fuel (l.drop n)

/-- SUM (R222): chunk sums added in ascending index, from the first. -/
def vecSum (l : List Val) : Nat :=
  match (chunksOf 64 l.length l).map chunkSum with
  | [] => 0
  | x :: t => t.foldl f32Add x

/-- The maximum magnitude of R42: NaNs are ignored unless every element is one. -/
def vecMaxAbs (l : List Val) : Val :=
  match l.filter (fun v => !v.isNan) with
  | [] => .nan
  | x :: t => t.foldl (fun a v => valMax a v.abs) x.abs

/-- The reduction of a row of elements to a ZF32 code (R222). -/
def vecReduce (op : Nat) (l : List Val) : Nat :=
  match op with
  | 0 => vecSum l
  | 1 => match l with
    | [] => 0
    | x :: t => toZF32 (t.foldl valMax x)
  | 2 => toZF32 (vecMaxAbs l)
  | _ => vecSum (l.map (fun v => zf32 (toZF32 (v.mul v))))

/-- Row `r` of VEC_REDUCE. -/
def State.vecRow (s : State) (c : Nat) (i : Issued) (r : Nat) : Nat :=
  let d := s.desc (descAt c (vecA i.cmd))
  vecReduce (vecOpcode i.cmd) ((List.range (d.dimAt 0)).map (fun k => s.elemVal c d i.step r k))

/-! ## Execution -/

/-- The batches of one row of VEC_REDUCE, and of a command: 64 elements of D for VEC_EW, 64 elements of a row of A for
VEC_REDUCE. -/
def State.vecRowBatches (s : State) (c w : Nat) : Nat := ceilDiv ((s.desc (descAt c (vecA w))).dimAt 0) 64
def State.vecBatches (s : State) (c w : Nat) : Nat :=
  let d := s.desc (descAt c (vecD w))
  if cmdOpcode w = 0x2B then d.elements * s.vecRowBatches c w else ceilDiv d.elements 64

/-- The number of elements of D that the first `n` batches determine. -/
def State.vecDone (s : State) (c w n : Nat) : Nat :=
  let d := s.desc (descAt c (vecD w))
  if cmdOpcode w = 0x2B then min d.elements (n / s.vecRowBatches c w) else min d.elements (64 * n)

/-- The end of a VEC_EW or VEC_REDUCE after `n` batches: its results are stored, and it is executed with a status code. -/
def State.vecEnd (s : State) (c : Nat) (i : Issued) (n code : Nat) : State :=
  let d := s.desc (descAt c (vecD i.cmd))
  let els := (List.range (s.vecDone c i.cmd n)).map (fun j =>
    (j / d.dimAt 0, j % d.dimAt 0, zf32 (if i.opcode = 0x2B then s.vecRow c i j else s.vecElem c i j)))
  if els.isEmpty then s.executed c i.token code
  else
    let x := s.storePath c d i.step i.outBinds i.staBinds els
    x.1.executed c i.token (if code = 0 then x.2 else code)

/-- The batches of a VEC command from batch `j` on, `n` of them (R130, R137): a batch whose check fails waits for
arbitration, of a replay-verified core one whose two runs differ (R133); the end of the command is `fin`. -/
def State.vecFrom (hw : List Hw) (c : Nat) (i : Issued) (fin : State → Nat → Nat → State) : Nat → Nat → State → State
  | 0, j, s => fin s j 0
  | n + 1, j, s =>
    let s := if hwMask hw j ≠ 0 then s.count (Reg.umpCnt c 3) 1 else s
    if s.rdBit (.umpStatusSuspect c) = true ∧ hwDiffers hw j = true then s.holdUnit c i engVec j 0 3
    else if s.rdBit (.umpStatusSuspect c) = false ∧ hwMask hw j ≠ 0 then s.holdUnit c i engVec j 0 0
    else State.vecFrom hw c i fin n (j + 1) s

/-- The loads of a command's tensors as whole tensors. -/
def State.wholeLoads (s : State) (c : Nat) (offs : List Nat) : List (Nat × Nat × Nat × Nat × Nat) :=
  offs.map (fun o =>
    let d := s.desc (descAt c o)
    (o, 0, d.rows, 0, d.dimAt 0))

/-- The refusal of a VEC_EW or VEC_REDUCE before any data is read, if there is one: the state and the status code. -/
def State.vecRefusal (s : State) (c : Nat) (i : Issued) : Option (State × Nat) :=
  let w := i.cmd
  if vecWordsBad w then some (s.refuseVec c i)
  else
    match s.vecDescBad c w with
    | some x => some (s.raiseDesc c engVec x.1 x.2, Code.numDescInvalid.val)
    | none =>
      ifSome (s.descFault c (vecSources w ++ [vecD w])) (fun f => some (s.raiseCnv c .numCnvInvalid engVec f)) <|
      if s.vecShapesBad c w then some (s.refuseVec c i)
      else
        let d := s.desc (descAt c (vecD w))
        (s.extractRefusal c d i.outBinds 0 0 (d.dimAt 0)).map (fun x => (s.raiseExtract c d x, Code.numExtractInvalid.val))

/-- VEC_EW and VEC_REDUCE (R221, R222). -/
def State.vecRun (hw : List Hw) (s : State) (c : Nat) (i : Issued) : State :=
  let s := s.began c i
  match s.vecRefusal c i with
  | some x => x.1.executed c i.token x.2
  | none =>
    let h := s.applyHw c engVec hw
    if h.2 ≠ 0 then h.1.executed c i.token h.2
    else
      let loads := s.wholeLoads c (vecSources i.cmd)
      match h.1.loadsFault c loads with
      | some f =>
        let x := h.1.raiseLoad c f.1 f.2
        x.1.executed c i.token x.2
      | none =>
        let s := h.1.countAllLoads c i.step loads
        State.vecFrom hw c i (fun s n code => s.vecEnd c i n code) (s.vecBatches c i.cmd) 0 s

def execVecEw (core : Nat) (hw : List Hw) (s : State) : Host.Outcome State Fault Refusal :=
  .next (s.engineRow core 0x2A .vec (s.vecRegions core) (fun s i => State.vecRun hw s core i))

def execVecReduce (core : Nat) (hw : List Hw) (s : State) : Host.Outcome State Fault Refusal :=
  .next (s.engineRow core 0x2B .vec (s.vecRegions core) (fun s i => State.vecRun hw s core i))

end Sys2Proof.Machine
end

