-- ==== Sys2Proof/Machine/OptCmd.lean ====
section
/-!
DEFINITION. The optimiser commands of a core (sections 7.1 to 7.7): OPT_NORM (R171) and OPT_UPDATE (R174 to R185), with
the parameter groups (Table 7-5), the constants records (Table 7-6) and touched masks (R185).
-/
namespace Sys2Proof.Machine

/-! ## Tables -/

/-- A parameter group (Table 7-5); ZF32 fields are codes. -/
structure OptGroup where
  rule : Nat
  nesterov : Bool
  biasCorr : Bool
  clipEn : Bool
  valid : Bool
  npts : Nat
  piter : Nat
  beta1 : Nat
  beta2 : Nat
  eps : Nat
  wd : Nat
  gmax : Nat
  betap : Nat
  epsp : Nat
  tolp : Nat
  pint : Nat
  t : Nat
  b1pow : Nat
  b2pow : Nat
  deriving DecidableEq, Repr

/-- The CPA of entry `q` of the group table, and of constants record `q`, of partition `p`. -/
def State.groupAt (s : State) (p q : Nat) : Nat := s.rd (.optGroupTableBase p) + 1024 * q
def State.constAt (s : State) (p q : Nat) : Nat := s.rd (.optConstBase p) + 64 * q

/-- Entry `q` of the group table. -/
def State.optGroup (s : State) (p q : Nat) : OptGroup :=
  let a := s.groupAt p q
  let b := s.memNat a 1
  let f (o : Nat) : Nat := s.memNat (a + o) 4
  { rule := b % 4, nesterov := bitAt b 2, biasCorr := bitAt b 3, clipEn := bitAt b 4, valid := bitAt b 7,
    npts := s.memNat (a + 1) 1, piter := s.memNat (a + 2) 1, beta1 := f 4, beta2 := f 8, eps := f 12, wd := f 16,
    gmax := f 20, betap := f 24, epsp := f 28, tolp := f 32, pint := f 36, t := f 48, b1pow := f 52, b2pow := f 56 }

/-- A constants record (Table 7-6); ZF32 fields are codes. -/
structure OptConst where
  lr : Nat
  omb1 : Nat
  omb2 : Nat
  ibc1 : Nat
  isbc2 : Nat
  ginv : Nat
  clip : Nat
  gmax : Nat
  ombp : Nat
  recompute : Bool
  sat : Bool
  deriving DecidableEq, Repr

/-- Constants record `q`. -/
def State.optConst (s : State) (p q : Nat) : OptConst :=
  let a := s.constAt p q
  let f (o : Nat) : Nat := s.memNat (a + o) 4
  let b := s.memNat (a + 48) 1
  { lr := f 8, omb1 := f 12, omb2 := f 16, ibc1 := f 20, isbc2 := f 24, ginv := f 28, clip := f 32, gmax := f 36,
    ombp := f 40, recompute := bitAt b 1, sat := bitAt b 2 }

/-- The ZF32 code of 2^k, for k from -126 to 127. -/
def f32Pow2 (k : Int) : Nat := toZF32 (Val.ofPow2 k)

/-! ## Operands (Tables 7-3 and 7-4) -/

/-- The operand word of OPT_NORM or OPT_UPDATE: is it OPT_NORM, its group, its mask. -/
def optIsNorm (w : Nat) : Bool := decide (cmdOpcode w = 0x28)
def optGroupNo (w : Nat) : Nat := if optIsNorm w then opBits w 36 0 10 else opBits w 48 0 10
def optLast (w : Nat) : Bool := bitAt w (8 * 38)
def optMask (w : Nat) : Bool := if optIsNorm w then bitAt w (8 * 38 + 1) else bitAt w (8 * 50)
def optEmpty (w : Nat) : Bool := optIsNorm w && bitAt w (8 * 38 + 2)
def optClear (w : Nat) : Bool := !(optIsNorm w) && bitAt w (8 * 50 + 1)
def optMaskBase (w : Nat) : Nat := if optIsNorm w then opBits w 40 0 48 else opBits w 52 0 48
def optW (w : Nat) : Nat := opBits w 32 0 24
def optM (w : Nat) : Nat := opBits w 36 0 24
def optR (w : Nat) : Nat := opBits w 40 0 24
def optG (w : Nat) : Nat := if optIsNorm w then opBits w 32 0 24 else opBits w 44 0 24
def optAux (w : Nat) : Nat := opBits w 58 0 24

/-- Are the reserved bits of an optimiser command zero? -/
def optClean (w : Nat) : Bool :=
  if optIsNorm w then opsClean w [(32, 0, 24), (36, 0, 10), (38, 0, 3), (40, 0, 48)]
  else opsClean w [(32, 0, 24), (36, 0, 24), (40, 0, 24), (44, 0, 24), (48, 0, 10), (50, 0, 2), (52, 0, 48), (58, 0, 24)]

/-- The Rule P auxiliary area (R182): the offsets of the descriptors of LF, RF, LI and RI, STATUS_BASE, SCRATCH. -/
def auxDescs (w : Nat) : List Nat := (List.range 4).map (fun j => optAux w + 64 * j)
def State.auxStatus (s : State) (c w : Nat) : Nat := s.memNat (coreWindow c + optAux w + 256) 6
def State.auxScratch (s : State) (c w : Nat) : Nat := s.memNat (coreWindow c + optAux w + 264) 4 % 2 ^ 24

/-- Does the rule keep a second moment (Rules A and P)? -/
def ruleHasR (rule : Nat) : Bool := decide (rule = 1 ∨ rule = 3)

/-- The tensor operands of the command under a rule: (descriptor offset, written). -/
def optOperands (w rule : Nat) : List (Nat × Bool) :=
  if optEmpty w then []
  else if optIsNorm w then [(optG w, false)]
  else [(optW w, true), (optM w, true)] ++ (if ruleHasR rule then [(optR w, true)] else []) ++ [(optG w, false)] ++
    (if rule = 3 then (auxDescs w).map (fun o => (o, true)) else [])

/-! ## Refusals (Table 7-11) -/

/-- Is a descriptor's BASE in this chip's tier 1 or in the core's store (R170)? -/
def State.optPlaceOk (s : State) (c : Nat) (d : Desc) : Bool :=
  s.baseInStore c d || decide (d.base / 2 ^ 48 = s.chipId ∧ areaOf d.cpa = .tier1)

/-- Operand formats and scale modes against Table 7-1. -/
def State.optFormatsOk (s : State) (c w rule : Nat) : Bool :=
  (optOperands w rule).all (fun x =>
    let d := s.desc (descAt c x.1)
    decide (d.mode = .none) &&
      (if x.2 then decide (d.fmt = .zb16) else decide (d.fmt = .zb16 ∨ d.fmt = .zf32)))

/-- The number of 128 x 128 blocks of a weight (section 7.6). -/
def optBlockCount (d : Desc) : Nat := ceilDiv (d.dimAt 1) 128 * ceilDiv (d.dimAt 0) 128

/-- Do the operand shapes agree (Table 7-1)? -/
def State.optCountsOk (s : State) (c w rule : Nat) : Bool :=
  if optIsNorm w then true
  else
    let n := (s.desc (descAt c (optW w))).elements
    ((optOperands w rule).take (if ruleHasR rule then 4 else 3)).all (fun x =>
      decide ((s.desc (descAt c x.1)).elements = n)) &&
    (decide (rule ≠ 3) || (auxDescs w).all (fun o =>
      let d := s.desc (descAt c o)
      decide (d.dimAt 0 = 128 ∧ d.dimAt 1 = 128 ∧ d.dimAt 2 = optBlockCount (s.desc (descAt c (optW w))) ∧
        d.dimAt 3 = 1 ∧ d.dimAt 4 = 1)))

/-- The refusal of an optimiser command before any data is read: reserved bits, the context, the group, the descriptors,
then the other causes of Table 7-11 in the order of their reasons. -/
def State.optRefusal (s : State) (c : Nat) (i : Issued) : Option ArrRefusal :=
  let w := i.cmd
  let p := s.corePart c
  let q := optGroupNo w
  let on := decide (p < 16) && s.rdBit (.optCtxCtrlEnable p)
  let gr := s.optGroup p q
  let rule := gr.rule
  let upd := !(optIsNorm w)
  let offs := (optOperands w rule).map (fun x => x.1)
  let auxBad := upd && decide (rule = 3) && decide (optAux w % 64 ≠ 0 ∨ optAux w + 320 > storeSize)
  match firstFail [
      (!(optClean w), 0x07), (!on, 0x08),
      (decide (q ≥ s.rd (.optGroupTableNgroups p)) || !gr.valid, 0x03),
      (upd && decide ((optR w ≠ 0) ≠ (ruleHasR rule = true)), 0x03),
      (upd && decide (rule ≠ 3 ∧ optAux w ≠ 0), 0x06), (auxBad, 0x06),
      (offs.any (fun o => decide (o % 64 ≠ 0)), 0x07), (offs.any (fun o => decide (o + 64 > storeSize)), 0x05)] with
  | some r => some (.reason r)
  | none =>
    ifSome (s.descFault c offs) (fun r => some r) <|
    match (optOperands w rule).findSome? (fun x =>
        (s.descInvalid (descAt c x.1) x.2).map (fun r => ArrRefusal.desc (descAt c x.1) r)) with
    | some r => some r
    | none =>
      let wd := s.desc (descAt c (optW w))
      firstFail [
        (!(s.optFormatsOk c w rule), .reason 0x01),
        (!(s.optCountsOk c w rule), .reason 0x02),
        (upd && decide (rule = 3) && (optMask w || decide (wd.dimAt 2 ≠ 1 ∨ wd.dimAt 3 ≠ 1 ∨ wd.dimAt 4 ≠ 1)), .reason 0x04),
        (offs.any (fun o => !(s.optPlaceOk c (s.desc (descAt c o)))), .reason 0x05),
        (optMask w && decide (areaOf (optMaskBase w) ≠ .tier1), .reason 0x05),
        (upd && decide (rule = 3) && decide (areaOf (s.auxStatus c w) ≠ .tier1), .reason 0x05),
        (upd && decide (rule = 3) && decide (s.auxScratch c w % 4096 ≠ 0 ∨ s.auxScratch c w + 0x60000 > storeSize),
          .reason 0x06),
        (upd && decide (rule = 3) && decide (s.memNat (coreWindow c + optAux w + 262) 2 ≠ 0 ∨
          s.memNat (coreWindow c + optAux w + 267) 1 ≠ 0 ∨ s.memNat (coreWindow c + optAux w + 268) 52 ≠ 0), .reason 0x07)]

/-! ## Masks (R185) -/

/-- The byte and the bit of the touched mask for element `j`; every element is present where there is no mask. -/
def State.maskByte (s : State) (w j : Nat) : Nat := if optMask w then s.memNat (optMaskBase w + j / 2048) 1 else 0xFF
def State.present (s : State) (w j : Nat) : Bool := bitAt (s.maskByte w j) (j / 256 % 8)

/-- The blocks of an operand that are read: those that hold an element whose mask byte is not zero. -/
def State.optBlocks (s : State) (w : Nat) (d : Desc) : List Nat :=
  if optMask w then
    (List.range d.nblk).filter (fun t => (List.range d.elements).any (fun j =>
      decide (s.maskByte w j ≠ 0 ∧ (d.rowOffset (j / d.dimAt 0) + d.fmt.bits * (j % d.dimAt 0) / 8) / 4096 = t)))
  else List.range d.nblk

/-- The state after the counts of clear 256-blocks and of tensor blocks not read. -/
def State.countMask (s : State) (c w n : Nat) : State :=
  let clear := ((List.range (ceilDiv n 256)).filter (fun b => !(s.present w (256 * b)))).length
  let unread := ((List.range (ceilDiv n 2048)).filter (fun b => decide (s.maskByte w (2048 * b) = 0))).length
  (s.count (Reg.vecCnt c 1) clear).count (Reg.vecCnt c 2) unread

/-! ## Reading (R170) -/

/-- The outcome of reading the block `t` of a tier-1 operand: access, poison, then R67. -/
def State.optBlockFault (s : State) (c da : Nat) (d : Desc) (write : Bool) (t : Nat) : Option (State × Nat) :=
  let u := s.unitCore c engVec
  let p := s.corePart c
  let a := d.blockAddr t
  let x := s.checkRange (.part p) a 4096 write
  let y := s.checkRange (.part p) (d.trailerAddr t) 16 write
  ifSome ((x.1.code.map (fun k => (k, x.2))).orElse (fun _ => y.1.code.map (fun k => (k, y.2))))
    (fun k => some (s.refuseAccess k.1 sevFailed u (.part p) k.2 write, k.1.val)) <|
    if s.poisoned a 4096 then
      some (s.raiseAs .memUncorrectable sevFailed u p (payload [(16, 8, a), (24, 1, 1)]), Code.memUncorrectable.val)
    else
      let found := s.memNat (d.trailerAddr t + 8) 4
      let pay := blockPayload (s.global a) (d.blockId t) found
      match s.blockCheck d t with
      | .ok => none
      | .check => some (s.raiseAs .intCheckFail sevFailed u p pay, Code.intCheckFail.val)
      | .id => some (s.raiseAs .intBlockId sevFailed u p pay, Code.intBlockId.val)
      | .poisoned => some (s.raiseAs .intPoisoned sevFailed u p pay, Code.intPoisoned.val)
      | .format => some (s.raiseCore .numFormatMismatch c engVec (payload [(16, 8, da), (24, 8, t)]),
          Code.numFormatMismatch.val)

/-- The outcome of reading one operand: `da` is its descriptor's address. -/
def State.optOperandFault (s : State) (c w da : Nat) (write : Bool) : Option (State × Nat) :=
  let d := s.desc da
  let ts := s.optBlocks w d
  if s.baseInStore c d then
    match ts.findSome? (fun t => s.readFault (d.trailerAddr t) 16) with
    | some f => some (s.raiseLoad c da f)
    | none =>
      match ts.find? (fun t => !(s.trailerOk d t)) with
      | some t => some (s.raiseLoad c da (.format t))
      | none => (ts.findSome? (fun t => s.readFault (d.blockAddr t) 4096)).map (fun f => s.raiseLoad c da f)
  else ts.findSome? (fun t => s.optBlockFault c da d write t)

/-- The outcome of reading the touched mask. -/
def State.optMaskFault (s : State) (c w n : Nat) : Option (State × Nat) :=
  if optMask w || optClear w then
    let p := s.corePart c
    let x := s.checkRange (.part p) (optMaskBase w) (ceilDiv n 2048) (optClear w)
    x.1.code.map (fun k => (s.refuseAccess k sevFailed (s.unitCore c engVec) (.part p) x.2 (optClear w), k.val))
  else none

/-- The state after the block at `a` of one of a command's tensors was read badly once and well the second time (R125). -/
def State.optReread (s : State) (c : Nat) (das : List Nat) (code : Code) (a : Nat) : State :=
  match das.find? (fun da => (List.range (s.desc da).nblk).any (fun b => decide ((s.desc da).blockAddr b = a))) with
  | none => s
  | some da =>
    let id := (s.desc da).blockId ((a - (s.desc da).cpa) / 4096)
    s.raiseAs code sevRecovered (s.unitCore c engVec) (s.corePart c) (blockPayload (s.global a) id id)

/-- The state after the re-reads that the hardware forces on a command's blocks (R125). -/
def State.optRereads (s : State) (c : Nat) (das : List Nat) : List Hw → State
  | [] => s
  | .reread a :: t => (s.optReread c das .intCheckFail a).optRereads c das t
  | .rereadId a :: t => (s.optReread c das .intBlockId a).optRereads c das t
  | _ :: t => s.optRereads c das t

/-! ## Gradients (R175) -/

/-- What grad gives: the ZF32 code, and whether it clamped or zeroed the element. -/
structure Grad where
  g : Nat
  clamped : Bool
  zeroed : Bool
  deriving DecidableEq, Repr

/-- grad (R175). -/
def grad (gq : Val) (ginv gmax : Nat) (sat : Bool) : Grad :=
  let g := toZF32 (gq.mul (zf32 ginv))
  if sat then
    if (zf32 g).isNan then ⟨0, false, true⟩
    else if (zf32 gmax).lt (zf32 g).abs then ⟨gmax % 2 ^ 31 + (if (zf32 g).sign then 2 ^ 31 else 0), true, false⟩
    else ⟨g, false, false⟩
  else ⟨g, false, false⟩

/-- clipped (R175). -/
def clipped (g clip : Nat) (clipEn : Bool) : Nat := if clipEn then f32Mul g clip else g

/-- The state after the counts and the event of the gradients of a command (R175). -/
def State.countGrads (s : State) (c q : Nat) (gs : List Grad) : State :=
  let p := s.corePart c
  let a := (gs.filter (fun g => g.clamped)).length
  let b := (gs.filter (fun g => g.zeroed)).length
  let s := (s.count (Reg.optCnt p 2) a).count (Reg.optCnt p 3) b
  if a + b = 0 then s else s.raiseCore .numGradSat c engVec (payload [(16, 2, q), (20, 8, a), (28, 4, b)])

/-! ## OPT_NORM -/

/-- The present elements of the gradient, as (index, value). -/
def State.gradValues (s : State) (c : Nat) (i : Issued) : List (Nat × Val) :=
  let d := s.desc (descAt c (optG i.cmd))
  (List.range d.elements).filterMap (fun j =>
    if s.present i.cmd j then some (j, s.elemAt c d i.step j) else none)

/-- The partial of a command (R171): the squares of each chunk of 64 linear indices, an absent element entering as +0,
summed in ascending chunk. -/
def normPartial (n : Nat) (els : List (Nat × Nat)) : Nat :=
  (List.range (ceilDiv n 64)).foldl (fun acc k =>
    f32Add acc (chunkSum ((List.range 64).map (fun j =>
      match els.find? (fun x => decide (x.1 = 64 * k + j)) with
      | some x => zf32 (f32Mul x.2 x.2)
      | none => .fin false 0 0)))) 0

/-- The end of an OPT_NORM. -/
def State.normEnd (s : State) (c : Nat) (i : Issued) : State :=
  let w := i.cmd
  let p := s.corePart c
  let q := optGroupNo w
  let gr := s.optGroup p q
  let d := s.desc (descAt c (optG w))
  let vs := s.gradValues c i
  let ginv := f32Pow2 (-(signed 8 (s.rd (.optStatusGexp p))))
  let gs := vs.map (fun x => (x.1, grad x.2 ginv gr.gmax (decide (s.rd (.optCtxCtrlOvfMode p) = 0))))
  let bad := (vs.filter (fun x => !x.2.isFinite)).length
  let sum := if gr.clipEn then normPartial d.elements (gs.map (fun x => (x.1, x.2.g))) else 0
  let s := (s.countMask c w d.elements).countGrads c q (gs.map (fun x => x.2))
  s.modCore c (fun k => k.modNorm (i.step % 2 ^ 32) (fun x =>
    { x with sum := (if gr.clipEn then f32Add x.sum sum else x.sum), bad := x.bad + bad }))

/-! ## The rules (R180) -/

/-- What a rule gives for one element: the ZF32 codes of w1, m1 and r1. -/
structure Updated where
  w : Nat
  m : Nat
  r : Nat
  deriving DecidableEq, Repr

/-- Negation of a ZF32 code. -/
def f32Neg (x : Nat) : Nat := if x < 2 ^ 31 then x + 2 ^ 31 else x - 2 ^ 31

/-- rule_s. -/
def ruleS (gr : OptGroup) (k : OptConst) (w m g : Nat) : Updated :=
  let m1 := f32Fma gr.beta1 m g
  let d := if gr.nesterov then f32Fma gr.beta1 m1 g else m1
  ⟨f32Sub w (f32Mul k.lr (f32Fma gr.wd w d)), m1, 0⟩

/-- The moments of rule_a: (m1, r1). -/
def ruleAMoments (gr : OptGroup) (k : OptConst) (m r g : Nat) : Nat × Nat :=
  let m1 := f32Fma gr.beta1 m (f32Mul k.omb1 g)
  let v := f32Mul r r
  let v1 := f32Fma gr.beta2 v (f32Mul k.omb2 (f32Mul g g))
  (m1, f32Sqrt v1)

/-- w1 of rule_a from its moments. -/
def ruleAWeight (gr : OptGroup) (k : OptConst) (w m1 r1 : Nat) : Nat :=
  let mh := f32Mul m1 k.ibc1
  let d := f32Fma r1 k.isbc2 gr.eps
  f32Sub w (f32Mul k.lr (f32Fma gr.wd w (f32Div mh d)))

/-- rule_a. -/
def ruleA (gr : OptGroup) (k : OptConst) (w m r g : Nat) : Updated :=
  let x := ruleAMoments gr k m r g
  ⟨ruleAWeight gr k w x.1 x.2, x.1, x.2⟩

/-- rule_l. -/
def ruleL (gr : OptGroup) (k : OptConst) (w m g : Nat) : Updated :=
  let c := f32Fma gr.beta1 m (f32Mul k.omb1 g)
  let v := zf32 c
  let t := if v.isNan || v.isZero then 0 else if v.sign then 0xBF800000 else 0x3F800000
  let m1 := f32Fma gr.beta2 m (f32Mul k.omb2 g)
  ⟨f32Sub w (f32Mul k.lr (f32Fma gr.wd w t)), m1, 0⟩

/-! ## Rule P (R182 to R184) -/

/-- Element (i, j) of a matrix of ZF32 codes held by rows. -/
def matAt (a : List (List Nat)) (i j : Nat) : Nat := (a.getD i []).getD j 0

/-- The transpose of a matrix with `n` columns. -/
def matT (n : Nat) (a : List (List Nat)) : List (List Nat) :=
  (List.range n).map (fun j => a.map (fun r => r.getD j 0))

/-- matmul of R183 with the second factor given by its columns: from +0, fma in ascending k. -/
def matMul (a bt : List (List Nat)) : List (List Nat) :=
  a.map (fun r => bt.map (fun c => (r.zip c).foldl (fun acc x => f32Fma x.1 x.2 acc) 0))

/-- The square matrix of size `n` with entries `f i j`. -/
def matOf (n m : Nat) (f : Nat → Nat → Nat) : List (List Nat) :=
  (List.range n).map (fun i => (List.range m).map (fun j => f i j))

/-- The iterations of newton_root: x and mm after `n` of them (R184). -/
def newtonFrom (size : Nat) : Nat → List (List Nat) → List (List Nat) → List (List Nat) × List (List Nat)
  | 0, x, mm => (x, mm)
  | n + 1, x, mm =>
    let t := matOf size size (fun i j =>
      f32Mul (f32Sub (f32Mul 0x40A00000 (if i = j then 0x3F800000 else 0)) (matAt mm i j)) 0x3E800000)
    let x := matMul x (matT size t)
    let t2 := matMul t (matT size t)
    let mm := matMul (matMul t2 (matT size t2)) (matT size mm)
    newtonFrom size n x mm

/-- newton_root (R184): the root, if it converged, and the iterations run. -/
def newtonRoot (a : List (List Nat)) (n eps niter tol : Nat) : Option (List (List Nat)) × Nat :=
  let b := matOf n n (fun i j => if i = j then f32Add (matAt a i j) eps else matAt a i j)
  let acc := b.flatten.foldl (fun acc x => f32Fma x x acc) 0
  let f := f32Sqrt acc
  if !(zf32 f).isFinite || (zf32 f).isZero then (none, 0)
  else
    let q := f32Root4Inv f
    let inv := f32Div 0x3F800000 f
    let r := newtonFrom n niter (matOf n n (fun i j => if i = j then q else 0)) (matOf n n (fun i j => f32Mul (matAt b i j) inv))
    let finite := (r.1.flatten ++ r.2.flatten).all (fun x => (zf32 x).isFinite)
    let far := (List.range n).any (fun i => (List.range n).any (fun j =>
      (zf32 tol).lt (zf32 (f32Sub (matAt r.2 i j) (if i = j then 0x3F800000 else 0))).abs))
    (if finite && !far then some r.1 else none, niter)

/-- damped_root (R184): `tries` attempts, the damping ten times larger each time. -/
def dampedRoot (a : List (List Nat)) (n niter tol : Nat) : Nat → Nat → Option (List (List Nat)) × Nat
  | 0, _ => (none, 0)
  | tries + 1, eps =>
    let r := newtonRoot a n eps niter tol
    match r.1 with
    | some x => (some x, r.2)
    | none =>
      let t := dampedRoot a n niter tol tries (f32Mul eps 0x41200000)
      (t.1, r.2 + t.2)

/-- What Rule P gives for one block: its weights, moments and factors by rows, its roots if they were recomputed, its
status byte, and its counts. -/
structure BlockP where
  w : List (List Nat)
  m : List (List Nat)
  r : List (List Nat)
  lf : List (List Nat)
  rf : List (List Nat)
  roots : Option (List (List Nat) × List (List Nat))
  status : Nat
  recomputed : Bool
  iters : Nat
  deriving DecidableEq, Repr

/-- The ZF32 code of a ZB16 code. -/
def f32OfZb16 (x : Nat) : Nat := x % 65536 * 65536

/-- The ZB16 numbers, as ZF32 codes, that a slot of a factor tensor stores of an n x n matrix. -/
def State.storedMat (s : State) (c : Nat) (d : Desc) (step b : Nat) (a : List (List Nat)) : List (List Nat) :=
  a.mapIdx (fun i r => r.mapIdx (fun j x =>
    f32OfZb16 (fmtZB16.round (s.roundingOf c d step (d.linear (128 * b + i) j)) (zf32 x))))

/-- The top-left n x n matrix of slot `b` of a factor tensor. -/
def State.slotMat (s : State) (c : Nat) (d : Desc) (step b n : Nat) : List (List Nat) :=
  matOf n n (fun i j => toZF32 (s.elemVal c d step (128 * b + i) j))

/-- rule_p_block (R183), from the block's matrices: weights, moments, roots R and gradients. -/
def State.ruleP (s : State) (c : Nat) (i : Issued) (gr : OptGroup) (k : OptConst) (b nr nc : Nat)
    (w m r g : List (List Nat)) : BlockP :=
  let d (j : Nat) : Desc := s.desc (descAt c ((auxDescs i.cmd).getD j 0))
  let mo := matOf nr nc (fun x y => (ruleAMoments gr k (matAt m x y) (matAt r x y) (matAt g x y)).1)
  let ro := matOf nr nc (fun x y => (ruleAMoments gr k (matAt m x y) (matAt r x y) (matAt g x y)).2)
  let gt := matT nc g
  let gg := matMul g g
  let hh := matMul gt gt
  let lf0 := s.slotMat c (d 0) i.step b nr
  let rf0 := s.slotMat c (d 1) i.step b nc
  let lf := matOf nr nr (fun x y => f32Fma gr.betap (matAt lf0 x y) (f32Mul k.ombp (matAt gg x y)))
  let rf := matOf nc nc (fun x y => f32Fma gr.betap (matAt rf0 x y) (f32Mul k.ombp (matAt hh x y)))
  let st := s.memNat (s.auxStatus c i.cmd + b) 1
  let re := k.recompute || !(bitAt st 0)
  let li := if re then dampedRoot (s.storedMat c (d 0) i.step b lf) nr gr.piter gr.tolp 3 gr.epsp else (none, 0)
  let ri := if re then dampedRoot (s.storedMat c (d 1) i.step b rf) nc gr.piter gr.tolp 3 gr.epsp else (none, 0)
  let roots := match li.1, ri.1 with
    | some x, some y => some (x, y)
    | _, _ => none
  let valid := if re then roots.isSome else true
  let lv := match roots with
    | some x => s.storedMat c (d 2) i.step b x.1
    | none => s.slotMat c (d 2) i.step b nr
  let rv := match roots with
    | some x => s.storedMat c (d 3) i.step b x.2
    | none => s.slotMat c (d 3) i.step b nc
  let mh := matOf nr nc (fun x y => f32Mul (matAt mo x y) k.ibc1)
  let dm := if valid then matMul (matMul lv (matT nc mh)) (matT nc rv) else []
  let w1 := matOf nr nc (fun x y =>
    if valid then f32Sub (matAt w x y) (f32Mul k.lr (f32Fma gr.wd (matAt w x y) (matAt dm x y)))
    else ruleAWeight gr k (matAt w x y) (matAt mo x y) (matAt ro x y))
  { w := w1, m := mo, r := ro, lf := lf, rf := rf, roots := roots,
    status := if valid then 1 else 2, recomputed := re, iters := li.2 + ri.2 }

/-! ## OPT_UPDATE -/

/-- An element of an operand at linear index `j`, as a ZF32 code. -/
def State.optElem (s : State) (c : Nat) (i : Issued) (off j : Nat) : Nat :=
  toZF32 (s.elemAt c (s.desc (descAt c off)) i.step j)

/-- The gradient of element `j` (R175). -/
def State.optGrad (s : State) (c : Nat) (i : Issued) (k : OptConst) (j : Nat) : Grad :=
  grad (s.elemAt c (s.desc (descAt c (optG i.cmd))) i.step j) k.ginv k.gmax k.sat

/-- The update of element `j` by Rules S, A and L (R180). -/
def State.optElement (s : State) (c : Nat) (i : Issued) (gr : OptGroup) (k : OptConst) (j : Nat) : Updated :=
  let g := clipped (s.optGrad c i k j).g k.clip gr.clipEn
  let w := s.optElem c i (optW i.cmd) j
  let m := s.optElem c i (optM i.cmd) j
  if gr.rule = 0 then ruleS gr k w m g
  else if gr.rule = 2 then ruleL gr k w m g
  else ruleA gr k w m (s.optElem c i (optR i.cmd) j) g

/-- Where block `b` of a weight starts, and its size: (row, column, n_r, n_c). -/
def optBlock (d : Desc) (b : Nat) : Nat × Nat × Nat × Nat :=
  let n := ceilDiv (d.dimAt 0) 128
  let r := 128 * (b / n)
  let k := 128 * (b % n)
  (r, k, min 128 (d.dimAt 1 - r), min 128 (d.dimAt 0 - k))

/-- Block `b` under Rule P. -/
def State.optBlockP (s : State) (c : Nat) (i : Issued) (gr : OptGroup) (k : OptConst) (b : Nat) : BlockP :=
  let d := s.desc (descAt c (optW i.cmd))
  let x := optBlock d b
  let at_ (f : Nat → Nat) : List (List Nat) := matOf x.2.2.1 x.2.2.2 (fun r q => f (d.linear (x.1 + r) (x.2.1 + q)))
  s.ruleP c i gr k b x.2.2.1 x.2.2.2 (at_ (s.optElem c i (optW i.cmd))) (at_ (s.optElem c i (optM i.cmd)))
    (at_ (s.optElem c i (optR i.cmd))) (at_ (fun j => clipped (s.optGrad c i k j).g k.clip gr.clipEn))

/-- The units of an OPT_UPDATE: batches of 64 elements, or the blocks of Rule P. -/
def State.optUnits (s : State) (c w rule : Nat) : Nat :=
  if optIsNorm w then ceilDiv (s.desc (descAt c (optG w))).elements 64
  else
    let d := s.desc (descAt c (optW w))
    if rule = 3 then optBlockCount d else ceilDiv d.elements 64

/-- The store of one operand: the values by linear index, if there are any. -/
def State.optStore (s : State) (c : Nat) (i : Issued) (off : Nat) (vs : List (Nat × Nat)) : State × Nat :=
  if vs.isEmpty then (s, 0)
  else
    let d := s.desc (descAt c off)
    s.storePath c d i.step i.outBinds i.staBinds (vs.map (fun x => (x.1 / d.dimAt 0, x.1 % d.dimAt 0, zf32 x.2)))

/-- The stores of several operands, in order, up to the first that fails. -/
def State.optStores (c : Nat) (i : Issued) : List (Nat × List (Nat × Nat)) → State → State × Nat
  | [], s => (s, 0)
  | x :: t, s =>
    let r := s.optStore c i x.1 x.2
    if r.2 ≠ 0 then r else State.optStores c i t r.1

/-- The values of n x n matrices at the top left of the slots of a factor tensor, the rest of each slot zero, by linear index
(R182). -/
def slotValues (bs : List (Nat × List (List Nat))) : List (Nat × Nat) :=
  bs.flatMap (fun x => (List.range 128).flatMap (fun i => (List.range 128).map (fun j =>
    ((128 * x.1 + i) * 128 + j, (x.2.getD i []).getD j 0))))

/-- The state after a command's state results, by operand as (descriptor offset, values by linear index), have been counted: those
that their store into ZB16 leaves not finite (R180, R195). -/
def State.countState (s : State) (c q n step : Nat) (ops : List (Nat × List (Nat × Nat))) : State :=
  let bad := (ops.map (fun x =>
    let d := s.desc (descAt c x.1)
    (x.2.filter (fun v => !(fmtZB16.decodeIeee (fmtZB16.round (s.roundingOf c d step v.1) (zf32 v.2))).isFinite)).length)).foldl
      (· + ·) 0
  let s := (s.count (Reg.vecCnt c 0) n).count (Reg.vecCnt c 4) bad
  if bad = 0 then s else s.raiseCore .numStateNonfinite c engVec (payload [(16, 2, q), (20, 8, bad)])

/-- The results of Rules S, A and L for the present elements of the first `n` batches, stored. -/
def State.optElementsEnd (s : State) (c : Nat) (i : Issued) (gr : OptGroup) (k : OptConst) (n : Nat) : State × Nat :=
  let w := i.cmd
  let total := (s.desc (descAt c (optW w))).elements
  let js := (List.range (min total (64 * n))).filter (fun j => s.present w j)
  let us := js.map (fun j => (j, s.optElement c i gr k j))
  let s1 := (s.countMask c w total).countGrads c (optGroupNo w) (js.map (fun j => s.optGrad c i k j))
  let ops := [(optW w, us.map (fun u => (u.1, u.2.w))), (optM w, us.map (fun u => (u.1, u.2.m)))] ++
    (if gr.rule = 1 then [(optR w, us.map (fun u => (u.1, u.2.r)))] else [])
  State.optStores c i ops (s1.countState c (optGroupNo w) js.length i.step ops)

/-- The state with `n` bytes from `a` up holding free values. -/
def State.freeBytes (s : State) (a : Nat) : Nat → State
  | 0 => s
  | n + 1 => (s.fresh.2.setByte a (s.fresh.1.setWidth 8)).freeBytes (a + 1) n

/-- The results of Rule P for the first `n` blocks, stored; SCRATCH is left with values that the spec does not give. -/
def State.optBlocksEnd (s : State) (c : Nat) (i : Issued) (gr : OptGroup) (k : OptConst) (n : Nat) : State × Nat :=
  let w := i.cmd
  let q := optGroupNo w
  let p := s.corePart c
  let d := s.desc (descAt c (optW w))
  let bs := (List.range n).map (fun b => (b, s.optBlockP c i gr k b))
  let nb := ceilDiv (d.dimAt 0) 128
  let cover := (List.range d.elements).filterMap (fun j =>
    let r := j / d.dimAt 0
    let x := j % d.dimAt 0
    let b := r / 128 * nb + x / 128
    if b < n then some (j, b, r % 128, x % 128) else none)
  let vals (f : BlockP → List (List Nat)) : List (Nat × Nat) := cover.filterMap (fun x =>
    (bs[x.2.1]?).map (fun y => (x.1, matAt (f y.2) x.2.2.1 x.2.2.2)))
  let fell := bs.filter (fun x => decide (x.2.status = 2))
  let aux (j : Nat) : Nat := (auxDescs w).getD j 0
  let st := s.auxStatus c w
  let scr := coreWindow c + s.auxScratch c w
  let s1 := s.countGrads c q (cover.map (fun x => s.optGrad c i k x.1))
  let ops := [(optW w, vals (fun b => b.w)), (optM w, vals (fun b => b.m)), (optR w, vals (fun b => b.r)),
    (aux 0, slotValues (bs.map (fun x => (x.1, x.2.lf)))), (aux 1, slotValues (bs.map (fun x => (x.1, x.2.rf)))),
    (aux 2, slotValues (bs.filterMap (fun x => x.2.roots.map (fun y => (x.1, y.1))))),
    (aux 3, slotValues (bs.filterMap (fun x => x.2.roots.map (fun y => (x.1, y.2)))))]
  let s1 := s1.countState c q cover.length i.step ops
  let s1 := s1.count (Reg.vecCnt c 5) ((bs.map (fun x => x.2.iters)).foldl (· + ·) 0)
  let s1 := (s1.count (Reg.optCnt p 4) fell.length).count (Reg.optCnt p 5) ((bs.filter (fun x => x.2.recomputed)).length)
  let s1 := match fell with
    | [] => s1
    | x :: _ => s1.raiseCore .numPrecondFallback c engVec (payload [(16, 2, q), (20, 4, x.1), (24, 4, fell.length)])
  let s1 := bs.foldl (fun s x => s.storeNat (st + x.1) 1 x.2.status) s1
  let s1 := s1.freeBytes scr 0x60000
  State.optStores c i ops s1

/-- The state with the mask bytes cleared of the tensor blocks that lie among the first `n` of `total` elements (R185). -/
def State.clearMask (s : State) (w n total : Nat) : State :=
  if optClear w then
    (List.range (if total ≤ n then ceilDiv total 2048 else n / 2048)).foldl (fun s b => s.storeNat (optMaskBase w + b) 1 0) s
  else s

/-- The end of an optimiser command after `n` units: what it has computed is stored, and the mask bytes of the tensor blocks written
are cleared (R185); it is executed with a status code. -/
def State.optEnd (c : Nat) (i : Issued) (s : State) (n code : Nat) : State :=
  if optIsNorm i.cmd then (if code = 0 then s.normEnd c i else s).executed c i.token code
  else
    let p := s.corePart c
    let q := optGroupNo i.cmd
    let gr := s.optGroup p q
    let k := s.optConst p q
    let r := if gr.rule = 3 then s.optBlocksEnd c i gr k n else s.optElementsEnd c i gr k n
    let code := if code = 0 then r.2 else code
    let s := if r.2 = 0 then r.1.clearMask i.cmd (64 * n) (s.desc (descAt c (optW i.cmd))).elements else r.1
    s.executed c i.token code

/-- Do the constants of the core's step carry SKIP (R174)? -/
def State.optSkips (s : State) (c : Nat) : Bool := decide (s.corePart c < 16) && s.rdBit (.optStatusSkipped (s.corePart c))

/-- OPT_NORM and OPT_UPDATE (R171, R174). -/
def State.optRun (hw : List Hw) (s : State) (c : Nat) (i : Issued) : State :=
  let s := s.began c i
  let w := i.cmd
  if !(optIsNorm w) && s.optSkips c then s.executed c i.token 0
  else
    match s.optRefusal c i with
    | some r =>
      let x := s.raiseCnv c .numOptInvalid engVec r
      x.1.executed c i.token x.2
    | none =>
      if optEmpty w then s.executed c i.token 0
      else
        let h := s.applyHw c engVec hw
        if h.2 ≠ 0 then h.1.executed c i.token h.2
        else
          let s := h.1
          let rule := (s.optGroup (s.corePart c) (optGroupNo w)).rule
          let ops := optOperands w rule
          let n := (s.desc (descAt c ((ops.headD (0, false)).1))).elements
          match (s.optMaskFault c w n).orElse (fun _ =>
              ops.findSome? (fun x => s.optOperandFault c w (descAt c x.1) x.2)) with
          | some x => x.1.executed c i.token x.2
          | none =>
            State.vecFrom hw c i (State.optEnd c i) (s.optUnits c w rule) 0
              (s.optRereads c (ops.map (fun x => descAt c x.1)) hw)

/-- The regions of an optimiser command: core-store operands only (R170, Table 8-7). -/
def State.optRegions (s : State) (c w : Nat) : List Region :=
  let p := s.corePart c
  let rule := (s.optGroup p (optGroupNo w)).rule
  let ops := (optOperands w rule).flatMap (fun x => s.opRegion c x.1 true x.2)
  if !(optIsNorm w) && decide (rule = 3) && decide (optAux w + 320 ≤ storeSize) then
    let scr := s.auxScratch c w
    ops ++ (if scr + 0x60000 ≤ storeSize then [⟨false, scr, scr + 0x5FFFF, true, true⟩] else [])
  else ops

def execOptNorm (core : Nat) (hw : List Hw) (s : State) : Host.Outcome State Fault Refusal :=
  .next (s.engineRow core 0x28 .vec (s.optRegions core) (fun s i => State.optRun hw s core i))

/-- Are the constants of the core's step published (R174)? -/
def State.constReady (s : State) (c : Nat) : Bool :=
  decide (s.corePart c < 16 → s.rdBit (.optCtxCtrlEnable (s.corePart c)) = true →
    s.rd (.optStatusConstStep (s.corePart c)) = s.pmkStep c % 2 ^ 32)

/-- OPT_UPDATE waits at issue for the constants of its step (R174); in a context that is not enabled it does not wait,
and is refused. -/
def execOptUpdate (core : Nat) (hw : List Hw) (s : State) : Host.Outcome State Fault Refusal :=
  let run (s : State) (i : Issued) : State := State.optRun hw s core i
  if s.constReady core then .next (s.engineRow core 0x29 .vec (s.optRegions core) run)
  else
    match (s.core core).nextOf .vec with
    | none => .next s
    | some i => if i.opcode = 0x29 ∧ i.mayRun = true then .next (run s i) else .next s

end Sys2Proof.Machine
end

