-- ==== Sys2Proof/Machine/Umpire.lean ====
section
/-!
DEFINITION. Arbitration (section 5.4, R130 to R133), the learned pattern set (R136) and the injections of UMP_CTRL.
-/
namespace Sys2Proof.Machine

/-! ## The learned pattern set -/

/-- The set with one record more (R136): when it is full, the oldest record whose source core has since been benched is
discarded, or the oldest. -/
def learn (benched : List (Nat × Nat)) (l : List Learned) (x : Learned) : List Learned :=
  if l.length < 16384 then l ++ [x]
  else
    match l.find? (fun y => benched.contains (y.die, y.slot)) with
    | some y => l.erase y ++ [x]
    | none => l.tail ++ [x]

/-- The lowest set bit of a mask. -/
def lowBit (m : Nat) : Nat := ((List.range 16).find? (fun g => bitAt m g)).getD 0

/-- The record of a fault of a core (Table 5-5): for an array row, its elements and its block; for CNV and VEC, the
failing operand pairs, which the hardware reports. -/
def State.learnedOf (s : State) (c : Nat) (i : Issued) (a : Arb) (code badRes : Nat) (pairs : List (Nat × Nat)) :
    Learned :=
  let d := s.coreDie c
  let k := s.rd (.pmkCoreIdentPhysSlot c)
  let base : Learned :=
    { dtime := s.dtime, unit := unitId d k a.engine, code := code, geom := 0, plane := 0, streamFmt := 0, statFmt := 0,
      block := 0, keff := 0, good := 0, bad := badRes, stream := [], stat := [], pairs := pairs.take 64, die := d,
      slot := k }
  match a.engine, (s.core c).bank with
  | 1, some b =>
    let w := i.cmd
    let ds := s.streamDescs c w
    let g := lowBit a.mask
    let x := s.arrRow c ds i.step (arrRow0 w + a.unit) (arrK0 w) b.kEff
    { base with
      geom := b.r % 8 + 8 * (b.c % 8) + 64 * flag b.temporal + 128 * flag b.twoBit
      plane := b.plane
      streamFmt := (ds.headD (Desc.ofNat 0)).arrFmt.code + 16 * flag (arrPair w)
      statFmt := b.statFmt
      block := g
      keff := b.kEff
      good := (b.arraySide (b.products x)).getD g 0
      stream := x.map (fun e => (e.code, e.scale))
      stat := (List.range b.kEff).map (fun j => (List.range b.nEff).filterMap (fun n =>
        if b.group n = g then
          let e := (b.cols.getD n []).getD j Elem.zero
          some (e.code, e.scale)
        else none))
      pairs := [] }
  | _, _ => base

/-! ## The decision (R130) -/

/-- The outcome of an arbitration of core `c`, and whether another core replayed the unit. -/
def State.arbOutcome (s : State) (c : Nat) (a : Arb) (r : Replays) : Code × Bool :=
  let cand := (s.arbiterOf c).isSome
  if s.rdBit (.umpStatusSuspect c) && decide (a.cause = 3) then
    (if !cand then (.intUnresolved, false)
     else if r.xEqO || r.xEqS then (.intTransient, true) else (.intUnresolved, true))
  else if a.cause = 1 then (.intTransient, false)
  else if a.cause = 2 then (if cand then (.intCheckerFault, true) else (.intUnresolved, false))
  else if r.sAgrees then (.intTransient, false)
  else if !cand then (.intUnresolved, false)
  else if r.sEqO && r.xEqO then (.intCheckerFault, true)
  else if r.sEqO && !r.xEqO && r.xAgrees then (.intPatternFault, true)
  else if !r.sEqO && !r.xEqO && !r.xEqS && r.xAgrees then (.intCoreFault, true)
  else (.intUnresolved, true)

/-- The counter of an outcome (UMP_CNT_4 to UMP_CNT_8). -/
def outcomeCounter (code : Code) : Nat := 4 + (code.val - 0x0301)

/-- The state after the event, the count and the class of an outcome (R140): for a row of the array the index is
ROW0 + m. -/
def State.arbReported (s : State) (c : Nat) (i : Issued) (a : Arb) (code : Code) (other : Bool) : State :=
  let index := if a.engine = 1 then arrRow0 i.cmd + a.unit else a.unit
  let by_ := match other, s.arbiterOf c with
    | true, some x => unitId x.1 x.2 a.engine
    | _, _ => 0
  let s := s.raiseCore code c a.engine (payload [(16, 4, index), (20, 2, if a.engine = 1 then a.mask else 0),
    (22, 2, by_), (24, 4, i.index)])
  (s.count (Reg.umpCnt c (outcomeCounter code)) 1).wr (.umpStatusLastClass c) (code.val % 256)

/-- The state after the consequences of Table 5-3 for the core. -/
def State.arbMarked (s : State) (c : Nat) (i : Issued) (a : Arb) (code : Code) (badRes : Nat) (pairs : List (Nat × Nat)) :
    State :=
  if code = .intCheckerFault then
    let s := s.modCore c (fun k => { k with bank := k.bank.map (fun b => { b with check := b.checksums }) })
    (s.wr (.umpStatusSuspect c) 1).wr (.pmkCoreIdentReplayVerified c) 1
  else if code = .intPatternFault ∨ code = .intCoreFault then
    let s := (s.setLearned (learn s.benched s.learned (s.learnedOf c i a code.val badRes pairs)))
    s.wr (.umpStatusBenchPending c) 1
  else s

/-- The state after a held command has ended at its failing unit (Table 5-3, INT_UNRESOLVED). -/
def State.arbFailed (s : State) (c : Nat) (i : Issued) (a : Arb) : State :=
  let code := Code.intUnresolved.val
  match a.engine with
  | 1 => match (s.core c).bank with
    | some b => s.streamEnd c i b.kEff a.unit code
    | none => s.executed c i.token code
  | 3 => s.cnvEnd c i (cnvPlan i.cmd) a.unit code
  | _ => if i.opcode = 0x28 ∨ i.opcode = 0x29 then State.optEnd c i s a.unit code else s.vecEnd c i a.unit code

/-- The state after the decided result of the failing unit has been written and the command has gone on with the units
behind it (R131). -/
def State.arbGoesOn (s : State) (c : Nat) (i : Issued) (a : Arb) (hw : List Hw) : State :=
  match a.engine with
  | 1 => match (s.core c).bank with
    | some b => State.streamRowsFrom hw c i b (streamRows i.cmd - a.unit - 1) (a.unit + 1) (s.streamPut c i b a.unit)
    | none => s.executed c i.token Code.numArrInvalid.val
  | 3 =>
    let p := cnvPlan i.cmd
    State.cnvTilesFrom hw c i p (p.tiles - a.unit - 1) (a.unit + 1) (s.cnvPut c i p a.unit)
  | _ =>
    if i.opcode = 0x28 ∨ i.opcode = 0x29 then
      let n := s.optUnits c i.cmd (s.optGroup (s.corePart c) (optGroupNo i.cmd)).rule
      State.vecFrom hw c i (State.optEnd c i) (n - a.unit - 1) (a.unit + 1) s
    else
      State.vecFrom hw c i (fun s n code => s.vecEnd c i n code) (s.vecBatches c i.cmd - a.unit - 1) (a.unit + 1) s

/-- ARBITRATION_DECIDED (R130 to R133): the arbitration of an engine's unit ends. `replays` says how the replays compare,
`badRes` and `pairs` what the faulty result was, for the learned pattern set; `hw` is what the hardware does to the units
that follow. -/
def execArbitrationDecided (core engine : Nat) (replays : Replays) (badRes : Nat) (pairs : List (Nat × Nat))
    (hw : List Hw) (s : State) : Host.Outcome State Fault Refusal :=
  match (s.core core).arbs.find? (fun a => decide (a.engine = engine)) with
  | none => .next s
  | some a =>
    match (s.core core).inflight.find? (fun i => decide (i.token = a.token)) with
    | none => .next s
    | some i =>
      let o := s.arbOutcome core a replays
      if o.2 && s.arbQueued core a then .next s else
      let s := s.modCore core (fun k => { k with arbs := k.arbs.erase a })
      let s := s.wr (.umpStatusArbitrating core) (flag (!(s.core core).arbs.isEmpty))
      let s := (s.arbReported core i a o.1 o.2).arbMarked core i a o.1 badRes pairs
      if o.1 = .intUnresolved then .next (s.arbFailed core i a) else .next (s.arbGoesOn core i a hw)

/-! ## Injection (UMP_CTRL) -/

/-- Is debug enabled by fuse: is DBG_OFF[0] not blown (Table 14-7)? -/
def State.debugFuse (s : State) : Bool := !(bitAt (s.rd .refFwDbgOff) 0)

/-- UMP_INJECT_ARRAY: INJECT 1 is armed for the next row that it can affect, if debug is enabled by fuse. -/
def execUmpInjectArray (core : Nat) (s : State) : Host.Outcome State Fault Refusal :=
  if s.barShut false then .next (s.barAnswer false) else
  .next (if s.debugFuse then s.modCore core (fun k => { k with inject1 := true }) else s)

/-- UMP_INJECT_CHECKSUM: INJECT 2 is armed. -/
def execUmpInjectChecksum (core : Nat) (s : State) : Host.Outcome State Fault Refusal :=
  if s.barShut false then .next (s.barAnswer false) else
  .next (if s.debugFuse then s.modCore core (fun k => { k with inject2 := true }) else s)

end Sys2Proof.Machine
end

