-- ==== Sys2Proof/Machine/Bench.lean ====
section
/-!
DEFINITION. Benching (R134, R135): a core's architectural number moves to a free libero of its die, at a job boundary (R133) or
at boot (R354).
-/
namespace Sys2Proof.Machine

/-- The unit identifier of a whole physical core (the example of R356). -/
def unitSlot (d k : Nat) : Nat := unitId d k 63

/-- The state after the chip has been flagged for replacement (R135): `cause` 0 pattern or core fault, 1 a suspect core that
failed its test, 2 a libero that failed before service. -/
def State.flagChip (s : State) (d k cause : Nat) : State :=
  let old := s.stateSensor
  ((s.wr .refReadyFlagged 1).raise .intReplaceChip (unitSlot d k) noPart (payload [(16, 1, d), (17, 1, cause)])).stateEvent old

/-- The state after architectural core `c` has moved from slot `old` of its die to libero `k`. -/
def State.moveCore (s : State) (c old k : Nat) : State :=
  let d := s.coreDie c
  let s := (s.wr (.pmkCoreIdentPhysSlot c) k).wr (.pmkCoreIdentLibero c) 1
  let s := ((s.wr (.umpStatusSuspect c) 0).wr (.umpStatusBenchPending c) 0).wr (.pmkCoreIdentReplayVerified c) 0
  let s := (s.setBenched (s.benched ++ [(d, old)]))
  s.raise .intBenched (unitSlot d old) noPart (payload [(16, 1, old), (17, 1, k), (18, 1, (s.freeLiberos d).length)])

/-- The state after the liberos of a list have been tried in turn for core `c`: one that fails the learned pattern set, as the
pairs in `fails` do, is benched; with none left, the chip is flagged and the core stays. The second component is the libero that
serves. -/
def State.takeLibero (s : State) (fails : List (Nat × Nat)) (c old cause : Nat) : List Nat → State × Option Nat
  | [] => (s.flagChip (s.coreDie c) old cause, none)
  | k :: t =>
    let d := s.coreDie c
    if fails.contains (d, k) then State.takeLibero (s.setBenched (s.benched ++ [(d, k)])) fails c old 2 t
    else (s.moveCore c old k, some k)

/-- The state after core `c` has been benched, if its die has a libero for it; and that libero. -/
def State.benchCore (s : State) (fails : List (Nat × Nat)) (cause c : Nat) : State × Option Nat :=
  s.takeLibero fails c (s.rd (.pmkCoreIdentPhysSlot c)) cause (s.freeLiberos (s.coreDie c))

/-- The state after core `c` has met a job boundary (R133, R134): a marked core is benched; a suspect core whose test passes is
none any more. -/
def State.boundaryCore (s : State) (fails : List (Nat × Nat)) (c : Nat) : State :=
  if s.rdBit (.umpStatusBenchPending c) then (s.benchCore fails 0 c).1
  else if s.rdBit (.umpStatusSuspect c) then
    (if fails.contains (s.coreDie c, s.rd (.pmkCoreIdentPhysSlot c)) then (s.benchCore fails 1 c).1
      else (s.wr (.umpStatusSuspect c) 0).wr (.pmkCoreIdentReplayVerified c) 0)
  else s

/-- The state after a job boundary: the cores that are in no job meet it. `fails` names the physical cores (die, slot) that fail
the built-in test or the learned pattern set. -/
def State.jobBoundary (s : State) (fails : List (Nat × Nat)) : State :=
  ((List.range 256).filter (fun c => decide ((s.core c).part = none))).foldl (fun (s : State) c => s.boundaryCore fails c) s

end Sys2Proof.Machine
end

