-- ==== Sys2Proof/Machine/Sync.lean ====
section
/-!
DEFINITION. Sync objects (chapter 9): waits, signals and broadcasts (R226 to R229), timeouts (R230), owner states (R232,
R233), the balance check (R235, R236), the manual operations (R237) and the harts' wait ports (R238, R239).
-/
namespace Sys2Proof.Machine

/-! ## Objects -/

/-- Sync object `o`. -/
def State.obj (s : State) (o : Nat) : SyncObj := Sparse.get SyncObj.reset s.sync o
def State.setObj (s : State) (o : Nat) (x : SyncObj) : State := (s.setSync (Sparse.put SyncObj.reset o x s.sync))

/-- The field of SYN_INIT_m that holds the INIT_COUNT of object `o`. -/
def initField (o : Nat) : RF := if o % 2 = 0 then .synInitInitLo (o / 2) else .synInitInitHi (o / 2)
def State.initCount (s : State) (o : Nat) : Nat := s.rd (initField o)

/-- The states of Table 9-1. -/
def objFree : Nat := 0
def objActive : Nat := 1
def objFrozen : Nat := 2
def objOrphaned : Nat := 3

/-- The waiter entries in use (R231). -/
def State.waitersUsed (s : State) : Nat := (s.sync.map (fun p => p.2.waiters.length)).foldl (· + ·) 0

/-- The state with the peak of the waiter entries raised to their number. -/
def State.notePeak (s : State) : State := s.wr .synWaitersPeak (max (s.rd .synWaitersPeak) s.waitersUsed)

/-! ## Harts -/

/-- The unit identifier of hart `h` (Table 1-9). -/
def unitHart (h : Nat) : Nat := unitId (h / 4) (40 + h % 4) 0

/-- The partition of hart `h`'s wait-port operations (R238). -/
def State.hartPart (s : State) (h : Nat) : Nat := s.rd (.synHartIrqPartition h)

/-- The state after a completion record of hart `h` (R239, Table 9-7): the record, TAIL and PHASE, the interrupt. -/
def State.hartRecord (s : State) (h cookie object status : Nat) : State :=
  let t := s.rd (.synHartStatusTail h)
  let ph := s.rd (.synHartStatusPhase h)
  let w := Accessor.part (s.hartPart h)
  let a := s.rd (.synHartRingRingBase h) + 16 * t
  let r := s.checkRange w a 16 true
  let v := cookie + object * 2 ^ 16 + status * 2 ^ 32 + ph * 2 ^ 48 + s.dtime % 2 ^ 64 * 2 ^ 64
  let s := match r.1.code with
    | some k => s.refuseAccess k sevNotice (unitHart h) w r.2 true
    | none => s.storeNat a 16 v
  let s := s.wr (.synHartStatusTail h) ((t + 1) % 256)
  let s := if (t + 1) % 256 = s.rd (.synHartRingHead h) ∧ s.hartFull.contains h = false then s.setHartFull (s.hartFull ++ [h]) else s
  let s := if t = 255 then s.wr (.synHartStatusPhase h) (1 - ph) else s
  let s := s.wr (.synHartStatusOutstanding h) (s.rd (.synHartStatusOutstanding h) - 1)
  if s.rdBit (.synHartIrqIrqEn h) then (s.setOut (s.out ++ [Output.imsic h (s.rd (.synHartIrqEiid h))])) else s

/-! ## Releases -/

/-- The keys of the waits of chip channels and of reduction rings in the store of waits. -/
def chanKey (n : Nat) : Nat := 0x10000 + n
def ringKey (p : Nat) : Nat := 0x20000 + p

/-- What the wait of the entry at the head of a queue, a channel or a ring has come to. -/
def State.headWait (s : State) (k : Nat) : HeadWait := Sparse.get HeadWait.none s.heads k
def State.setHeadWait (s : State) (k : Nat) (w : HeadWait) : State := (s.setHeads (Sparse.put HeadWait.none k w s.heads))

/-- The severity of a wait's failure (Table 9-8). -/
def waitSev : Nat := sevFailed

/-- The state after a command's wait on an object has failed with a code (R208, R230, Table 9-8). -/
def State.coreWaitFailed (s : State) (c object : Nat) (code : Code) : State :=
  let k := s.core c
  let slot := ((syncWaits (k.head.getD 0)).getD k.waitsDone (0, 0)).1
  let op := cmdOpcode (k.head.getD 0)
  let pay := payload ([(16, 2, object), (20, 4, k.headIndex), (24, 1, slot), (25, 1, s.corePart c)] ++
    (if code = .synOrphaned ∨ code = .synUnallocated then [(18, 2, 0xFFFF)] else []))
  let s := s.raiseAs code waitSev (s.unitCore c engPmk) (s.corePart c) pay
  let s := s.traceFailed c code.val k.headIndex op (k.head.getD 0)
  let s := s.modCore c (fun k => { k with waiting := false, waitDeadline := none })
  s.failCore c code.val k.headIndex op k.stream

/-- The state after the event of a failed wait of a ring entry: a chip channel's, a queue's or a reduction ring's. -/
def State.entryWaitFailed (s : State) (unit part object index : Nat) (code : Code) : State :=
  s.raiseAs code waitSev unit part (payload ([(16, 2, object), (20, 4, index), (25, 1, part)] ++
    (if code = .synOrphaned ∨ code = .synUnallocated then [(18, 2, 0xFFFF)] else [])))

/-- The outcome of the wait of a ring entry: the wait is over, or failed with its event. -/
def State.entryLetGo (s : State) (key unit part object index : Nat) : Option Code → State
  | none => s.setHeadWait key .done
  | some code => (s.entryWaitFailed unit part object index code).setHeadWait key (.failed code.val)

/-- The state after a waiter has been let go: with success, or with the code of a failure. -/
def State.letGo (s : State) (object : Nat) (a : WaitAgent) (r : Option Code) : State :=
  match a with
  | .core c =>
    match r with
    | none => s.modCore c (fun k => { k with waitsDone := k.waitsDone + 1, waiting := false })
    | some code => s.coreWaitFailed c object code
  | .hart h cookie => s.hartRecord h cookie object ((r.map (fun c => c.val)).getD 0)
  | .chipChannel n => s.entryLetGo (chanKey n) (unitChipChannel n) (s.rd (.dmaChCtrlPartition (dmaChip n))) object
      ((s.rd (.dmaChDoorHead (dmaChip n)) + 0xFFFFFFFF) % 2 ^ 32) r
  | .queueEntry q =>
    let a := s.rd .hifQtableBase + 64 * q
    s.entryLetGo q unitPcie (s.memNat (a + 16) 1) object (s.memNat (a + 20) 4) r
  | .redRing p => s.entryLetGo (ringKey p) unitLink p object ((s.rd (.dmaChDoorHead (redRingBase p)) + 0xFFFFFFFF) % 2 ^ 32) r

/-- The state after every waiter of a list has been let go, in order. -/
def State.letAllGo (s : State) (object : Nat) (r : Option Code) : List Waiter → State
  | [] => s
  | w :: t => (s.letGo object w.agent r).letAllGo object r t

/-! ## Waits (R226) -/

/-- The state after a wait of an agent of partition `q` on object `o` (R226): it completes, fails, or queues. -/
def State.waitOn (s : State) (a : WaitAgent) (q o : Nat) (deadline : Option Nat) : State :=
  let x := s.obj o
  if x.state = objFree then s.letGo o a (some .synUnallocated)
  else if x.state = objOrphaned then s.letGo o a (some .synOrphaned)
  else if q ≠ x.part then s.letGo o a (some .synNotOwner)
  else if x.count > 0 then ((s.setObj o { x with count := x.count - 1 }).count (Reg.synCnt 0) 1).letGo o a none
  else
    let s := (s.setWaitOrder (s.waitOrder + 1))
    ((s.setObj o { x with waiters := x.waiters ++ [⟨a, q, deadline, s.waitOrder⟩] }).count (Reg.synCnt 1) 1).notePeak

/-! ## Signals (R227 to R229) -/

/-- Is a signal refused, and with which code (R229)? -/
def SyncObj.refusal (x : SyncObj) (g : Signal) : Option Code :=
  let remote := decide (g.chip ≠ 0xFFFF)
  if x.state = objFree then some .synUnallocated
  else if x.state = objOrphaned then some .synOrphaned
  else if x.scope = 1 ∧ remote = false ∧ g.part ≠ some x.part then some .synScope
  else if x.scope = 2 ∧ (remote = true ∨ g.part ≠ some x.part) then some .synScope
  else none

/-- The state after the event of a refused or discarded signal, with severity NOTICE (R229), and SYN_CNT_6. -/
def State.signalRefused (s : State) (g : Signal) (code : Code) : State :=
  let p := g.part.getD noPart
  (s.raiseAs code sevNotice g.src p (payload [(16, 2, g.object), (18, 2, g.chip), (20, 4, g.index), (24, 1, 0xFF), (25, 1, p)])).count
    (Reg.synCnt 6) 1

/-- The state after a signal or broadcast has been applied at the object's home (R227, R228). -/
def State.applySignal (s : State) (g : Signal) : State :=
  let o := g.object
  let x := s.obj o
  match x.refusal g with
  | some code => s.signalRefused g code
  | none =>
    if g.broadcast then
      if x.waiters.isEmpty then s.count (Reg.synCnt 4) 1
      else ((s.setObj o { x with waiters := [] }).count (Reg.synCnt 3) 1).letAllGo o none x.waiters
    else
      match x.waiters with
      | w :: t => ((s.setObj o { x with waiters := t }).count (Reg.synCnt 2) 1).letGo o w.agent none
      | [] =>
        if x.count ≥ u32Max then s.signalRefused g .synCountSat
        else (s.setObj o { x with count := x.count + 1 }).count (Reg.synCnt 2) 1

/-- The state after the signals of a source that are on their way to object `o` have arrived, in order. An operation that the source
sends to the object after them arrives after them (R17, R224). -/
def State.settleSource (s : State) (src o : Nat) : State :=
  let mine := s.signals.filter (fun g => decide (g.src = src ∧ g.object = o))
  mine.foldl State.applySignal (s.setSignals (s.signals.filter (fun g => !(decide (g.src = src ∧ g.object = o)))))

/-- The unit that an agent's sync operations come from. -/
def State.waitSource (s : State) : WaitAgent → Nat
  | .core c => s.unitCore c engPmk
  | .hart h _ => unitHart h
  | .chipChannel n => unitChipChannel n
  | .queueEntry _ => unitPcie
  | .redRing _ => unitLink

/-- The state after a wait of an agent has reached object `o`, behind the agent's own signals to it (R224, R226). -/
def State.waitFrom (s : State) (a : WaitAgent) (q o : Nat) (deadline : Option Nat) : State :=
  (s.settleSource (s.waitSource a) o).waitOn a q o deadline

/-- The state after the signal at place `i` of those on their way has arrived, if it is of the kind and no earlier one
of its source is for the same object (R224). -/
def State.signalArrives (s : State) (i : Nat) (broadcast : Bool) : State :=
  match s.signals[i]? with
  | none => s
  | some g =>
    if g.broadcast ≠ broadcast ∨ (s.signals.take i).any (fun x => decide (x.src = g.src ∧ x.object = g.object)) = true then s
    else (s.setSignals (s.signals.eraseIdx i)).applySignal g

/-- SYNC_SIGNAL (R227) and SYNC_BROADCAST (R228): the signal at place `i` of those on their way reaches its object. -/
def execSyncSignal (i : Nat) (s : State) : Host.Outcome State Fault Refusal := .next (s.signalArrives i false)
def execSyncBroadcast (i : Nat) (s : State) : Host.Outcome State Fault Refusal := .next (s.signalArrives i true)

/-! ## Timeouts (R230) -/

/-- The state after the waiter at a place of an object's queue has been abandoned: its entry is freed and those behind it
keep their order. -/
def State.abandon (s : State) (object place : Nat) : State :=
  let x := s.obj object
  match x.waiters[place]? with
  | none => s
  | some w =>
    match w.deadline with
    | none => s
    | some d =>
      let s := (s.setDtime (max s.dtime d))
      ((s.setObj object { x with waiters := x.waiters.eraseIdx place }).count (Reg.synCnt 5) 1).letGo object w.agent
        (some .synTimeout)

/-- SYNC_WAIT_TIMEOUT (R230): DTIME reaches the deadline of the waiter at a place of an object's queue. -/
def execSyncWaitTimeout (object place : Nat) (s : State) : Host.Outcome State Fault Refusal := .next (s.abandon object place)

/-! ## Owner states (R232, R233) -/

/-- The state with an object ORPHANED: every waiter is released with SYN_ORPHANED (R233). -/
def State.orphan (s : State) (o : Nat) : State :=
  let x := s.obj o
  (s.setObj o { x with state := objOrphaned, waiters := [] }).letAllGo o (some .synOrphaned) x.waiters

/-- The state after a reset of the core or hart that an OWNER value names: the objects that it owns become ORPHANED (R232). -/
def State.orphanOwned (s : State) (owner : Nat) : State :=
  (s.sync.map (fun x => x.1)).foldl (fun s o =>
    let x := s.obj o
    if (x.state = objActive ∨ x.state = objFrozen) ∧ x.owner = owner then s.orphan o else s) s

/-- The objects of the range of partition `p` that are not at their reset value, in ascending number. -/
def State.objectsOf (s : State) (p : Nat) : List Nat :=
  let first := s.rd (.synPartRangeFirst p)
  let n := s.rd (.synPartRangeNumber p)
  (s.sync.map (fun x => x.1)).filter (fun o => decide (first ≤ o ∧ o < first + n))

/-- The state after an owner reset that the predicate names (R232): ACTIVE and FROZEN objects become ORPHANED. -/
def State.ownerReset (s : State) (p : Nat) (owns : Nat → Bool) : State :=
  (s.objectsOf p).foldl (fun s o =>
    let x := s.obj o
    if (x.state = objActive ∨ x.state = objFrozen) ∧ x.part = p ∧ owns x.owner = true then s.orphan o else s) s

/-- The state with the objects of a partition moved from one state to another (Table 9-5: suspension and resumption). -/
def State.moveObjects (s : State) (p src dst : Nat) : State :=
  (s.objectsOf p).foldl (fun s o =>
    let x := s.obj o
    if x.state = src then s.setObj o { x with state := dst } else s) s

/-! ## Balance (R235, R236) -/

/-- Does an object fail the check? -/
def State.unbalanced (s : State) (o : Nat) : Bool :=
  let x := s.obj o
  decide (x.count ≠ s.initCount o) || !x.waiters.isEmpty

/-- The state after SYN_IMBALANCE of an object: `waiters` is the number removed, or queued for CHECK. -/
def State.imbalance (s : State) (p o waiters : Nat) : State :=
  let x := s.obj o
  s.raise .synImbalance unitReferee p (payload [(16, 2, o), (20, 4, x.count), (24, 4, s.initCount o), (28, 2, waiters)])

/-- The state after the check of a partition's range has reported (R236): the first 64 failing objects raise, and
SYN_BAL_STATUS_p holds their number. -/
def State.balanceReport (s : State) (p : Nat) : State :=
  let bad := (s.objectsOf p).filter s.unbalanced
  let s := (bad.take 64).foldl (fun s o => s.imbalance p o (s.obj o).waiters.length) s
  (s.wr (.synBalStatusViolations p) bad.length).wr (.synBalStatusDone p) 1

/-- The state after the queued waiters of an object have been removed: hart waits complete with SYN_CANCELLED. -/
def State.removeWaiters (s : State) (o : Nat) : State :=
  let x := s.obj o
  let harts := x.waiters.filter (fun w => match w.agent with
    | .hart _ _ => true
    | _ => false)
  (s.setObj o { x with waiters := [] }).letAllGo o (some .synCancelled) harts

/-- The state with an object FREE and its fields at their reset values. -/
def State.freeObj (s : State) (o : Nat) : State := ((s.removeWaiters o).setObj o SyncObj.reset).wr (initField o) 0

/-- The state after the job-end check of a partition's range (R236). -/
def State.jobEndObjects (s : State) (p : Nat) : State :=
  (s.objectsOf p).foldl (fun s o => s.freeObj o) (s.balanceReport p)

/-! ## Manual operations (R237, Table 9-6) -/

/-- The fields of SYN_MAN_ARG as an object. -/
def State.manArg (s : State) : SyncObj :=
  ⟨s.rd .synManArgCount, s.rd .synManArgState, s.rd .synManArgScope, s.rd .synManArgPartition, s.rd .synManArgOwner, []⟩

/-- Is the value one that OWNER may hold (Table 9-1)? -/
def ownerOk (x : Nat) : Bool := decide (x < 288 ∨ x = 511)

/-- Does object `o` lie in the range of partition `p`? -/
def State.inRange (s : State) (p o : Nat) : Bool :=
  decide (s.rd (.synPartRangeFirst p) ≤ o ∧ o < s.rd (.synPartRangeFirst p) + s.rd (.synPartRangeNumber p))

/-- The reason for which a manual operation is refused (Table 9-8). -/
def State.manRefusal (s : State) (op o : Nat) : Option Nat :=
  let x := s.obj o
  let a := s.manArg
  let held := decide (x.state = objActive ∨ x.state = objFrozen ∨ x.state = objOrphaned)
  let cond : Option Nat := if a.state = 0 then some 3 else none
  match op with
  | 1 =>
    if x.state = objActive ∨ x.state = objFrozen then some 1
    else if s.inRange a.part o = false then some 2
    else if a.scope = 3 ∨ ownerOk a.owner = false then some 3 else none
  | 2 => if held then none else some 1
  | 3 => if x.state = objActive ∨ x.state = objFrozen then cond else some 1
  | 4 => none
  | 5 => if held then none else some 1
  | _ => some 3

/-- The state after waiters have taken the counts that SET_COUNT gave, `n` waiters at most. -/
def State.drainCount (s : State) (o : Nat) : Nat → State
  | 0 => s
  | n + 1 =>
    let x := s.obj o
    match x.waiters with
    | [] => s
    | w :: t =>
      if x.count = 0 then s
      else ((s.setObj o { x with count := x.count - 1, waiters := t }).letGo o w.agent none).drainCount o n

/-- The effect of a manual operation that is not refused (Table 9-6). -/
def State.manEffect (s : State) (op o : Nat) : State :=
  let x := s.obj o
  let a := s.manArg
  match op with
  | 1 => ((s.setObj o { x with count := a.count, state := objActive, scope := a.scope, part := a.part, owner := a.owner }).drainCount
      o x.waiters.length).wr (initField o) a.count
  | 2 => (s.setObj o { x with count := a.count }).drainCount o x.waiters.length
  | 3 => if a.state = objOrphaned then s.orphan o else s.setObj o { x with state := a.state }
  | 4 => s.balanceReport a.part
  | _ => (if s.unbalanced o then s.imbalance x.part o x.waiters.length else s).freeObj o

/-- The state after a manual operation through the physical function, or its refusal (R237). -/
def State.manual (s : State) (pf : Bool) (op object : Nat) : State :=
  if !pf then s.count (Reg.synCnt 7) 1
  else
    let o := if op = 4 then 0 else object
    let p := if op = 1 ∨ op = 4 then s.manArg.part else if (s.obj o).state = objFree then noPart else (s.obj o).part
    match s.manRefusal op o with
    | some r =>
      (s.raise .synManInvalid unitReferee p (payload [(16, 2, o), (18, 1, op), (19, 1, r)])).wr .synManStatusCode
        Code.synManInvalid.val
    | none =>
      let s := s.manEffect op o
      let y := s.obj o
      (s.raise .synManual unitReferee p (payload [(16, 2, o), (18, 1, op), (20, 4, y.count), (24, 1, y.state)])).wr
        .synManStatusCode 0

/-- The manual operations: a write of SYN_MAN_OP by the physical function (`pf`) or through another function. -/
def execSynInit (pf : Bool) (object : Nat) (s : State) : Host.Outcome State Fault Refusal :=
  if s.barShut pf then .next (s.barAnswer pf) else
  .next (s.manual pf 1 object)
def execSynSetCount (pf : Bool) (object : Nat) (s : State) : Host.Outcome State Fault Refusal :=
  if s.barShut pf then .next (s.barAnswer pf) else
  .next (s.manual pf 2 object)
def execSynSetState (pf : Bool) (object : Nat) (s : State) : Host.Outcome State Fault Refusal :=
  if s.barShut pf then .next (s.barAnswer pf) else
  .next (s.manual pf 3 object)
def execSynCheck (pf : Bool) (s : State) : Host.Outcome State Fault Refusal :=
  if s.barShut pf then .next (s.barAnswer pf) else
  .next (s.manual pf 4 0)
def execSynRelease (pf : Bool) (object : Nat) (s : State) : Host.Outcome State Fault Refusal :=
  if s.barShut pf then .next (s.barAnswer pf) else
  .next (s.manual pf 5 object)

/-! ## The service-core port (R238) -/

/-- The deadline of a wait that begins now with a TIMEOUT field (R200). -/
def State.deadline (s : State) (t : Nat) : Option Nat := if t = 0 then none else some (s.dtime + pow2 (t + 6) * 1000)

/-- The state with one store of a hart discarded. -/
def State.hartReject (s : State) (h : Nat) : State :=
  s.wr (.synHartStatusRejects h) (min (s.rd (.synHartStatusRejects h) + 1) u32Max)

/-- The records of hart `h` that it has not consumed. -/
def State.hartRecords (s : State) (h : Nat) : Nat :=
  if s.hartFull.contains h then 256 else (s.rd (.synHartStatusTail h) + 256 - s.rd (.synHartRingHead h)) % 256

/-- Does the port accept a WAIT? -/
def State.hartRoom (s : State) (h : Nat) : Bool := decide (s.rd (.synHartStatusOutstanding h) + s.hartRecords h ≤ 255)

/-- The state after a WAIT store. -/
def State.hartWait (s : State) (h object timeout cookie : Nat) : State :=
  if s.hartRoom h then
    (s.wr (.synHartStatusOutstanding h) (s.rd (.synHartStatusOutstanding h) + 1)).waitFrom (.hart h cookie) (s.hartPart h)
      object (s.deadline timeout)
  else s.hartReject h

/-- The state after a SIGNAL or BROADCAST store: `kind` 1 or 2 as in Table 8-4. -/
def State.hartSignal (s : State) (h chip object kind : Nat) : State :=
  s.performSignal (unitHart h) (s.hartPart h) 0 ⟨object, chip, kind, 0⟩

/-- The (object, waiter) of the oldest outstanding wait of a hart with a cookie. -/
def State.hartWaitWith (s : State) (h cookie : Nat) : Option (Nat × Waiter) :=
  (s.sync.flatMap (fun p => (p.2.waiters.filter (fun w => decide (w.agent = .hart h cookie))).map (fun w => (p.1, w)))).foldl
    (fun (acc : Option (Nat × Waiter)) x => match acc with
      | some y => if y.2.order ≤ x.2.order then some y else some x
      | none => some x) none

/-- The state after every signal of a source has arrived. -/
def State.settleAll (s : State) (src : Nat) : State :=
  ((s.signals.filter (fun g => decide (g.src = src))).map (fun g => g.object)).foldl (fun s o => s.settleSource src o) s

/-- The state after a CANCEL store, behind the hart's own signals (R224). -/
def State.hartCancel (s : State) (h cookie : Nat) : State :=
  let s := s.settleAll (unitHart h)
  match s.hartWaitWith h cookie with
  | none => s
  | some x =>
    let y := s.obj x.1
    (s.setObj x.1 { y with waiters := y.waiters.erase x.2 }).letGo x.1 (.hart h cookie) (some .synCancelled)

def execHartWait (hart object timeout cookie : Nat) (s : State) : Host.Outcome State Fault Refusal :=
  if s.barShut false then .next (s.barAnswer false) else
  .next (s.hartWait hart object timeout cookie)
def execHartSignal (hart chip object : Nat) (s : State) : Host.Outcome State Fault Refusal :=
  if s.barShut false then .next (s.barAnswer false) else
  .next (s.hartSignal hart chip object 1)
def execHartBroadcast (hart chip object : Nat) (s : State) : Host.Outcome State Fault Refusal :=
  if s.barShut false then .next (s.barAnswer false) else
  .next (s.hartSignal hart chip object 2)
def execHartCancel (hart cookie : Nat) (s : State) : Host.Outcome State Fault Refusal :=
  if s.barShut false then .next (s.barAnswer false) else
  .next (s.hartCancel hart cookie)

end Sys2Proof.Machine
end

