-- ==== Sys2Proof/Machine/Zpack.lean ====
section
/-!
DEFINITION. Z-pack (section 10.7, R261 to R264): the header, the canonical codes and the expansion of one record. A
Z-pack object is read through `rd`, its bytes by offset.
-/
namespace Sys2Proof.Machine

/-- The number in `n` bytes at offset `o` of an object. -/
def zNat (rd : Nat → Nat) (o : Nat) : Nat → Nat
  | 0 => 0
  | n + 1 => rd o + 256 * zNat rd (o + 1) n

/-- The header of a Z-pack object (Table 10-7). -/
structure ZHeader where
  format : Nat
  ntables : Nat
  nblocks : Nat
  index : Nat
  trailer : Nat
  data : Nat
  deriving DecidableEq, Repr

/-- The code lengths of table `t`, by exponent symbol. -/
def zLengths (rd : Nat → Nat) (t : Nat) : List Nat := (List.range 256).map (fun e => rd (64 + 256 * t + e))

/-- Do the lengths satisfy R263: none above 15, and the sum of 2^(-length) at most 1? -/
def zTableOk (l : List Nat) : Bool :=
  l.all (fun x => decide (x ≤ 15)) &&
    decide ((l.map (fun x => if x = 0 then 0 else 2 ^ (15 - x))).foldl (· + ·) 0 ≤ 2 ^ 15)

/-- Is the header one that R261 and R263 allow? -/
def zHeaderOk (rd : Nat → Nat) : Bool :=
  let bytes (o n : Nat) : List (BitVec 8) := (List.range n).map (fun i => BitVec.ofNat 8 (rd (o + i)))
  decide (zNat rd 0 4 = 0x4B505A56 ∧ zNat rd 4 2 = 1 ∧ rd 7 ≤ 4 ∧ zNat rd 16 8 % 16 = 0 ∧ zNat rd 24 8 % 16 = 0 ∧
    zNat rd 32 8 % 16 = 0) &&
  decide (zNat rd 56 8 = (crc64 (bytes 0 56 ++ bytes 64 1024)).toNat) &&
  (List.range (rd 7)).all (fun t => zTableOk (zLengths rd t))

/-- The header's fields. -/
def zHeader (rd : Nat → Nat) : ZHeader :=
  ⟨rd 6, rd 7, zNat rd 8 8, zNat rd 16 8, zNat rd 24 8, zNat rd 32 8⟩

/-- The symbols of a table with nonzero length, by length and then by value (R263). -/
def zSymbols (l : List Nat) : List (Nat × Nat) :=
  (List.range 15).flatMap (fun n => (List.range 256).filterMap (fun e =>
    if l.getD e 0 = n + 1 then some (e, n + 1) else none))

/-- The canonical codes (symbol, length, code): the first is 0, the next (previous + 1) shifted by the growth in length
(R263). -/
def zCodes : List (Nat × Nat) → Nat → Nat → List (Nat × Nat × Nat)
  | [], _, _ => []
  | (e, n) :: t, len, code =>
    let c := code * 2 ^ (n - len)
    (e, n, c) :: zCodes t n (c + 1)

/-- The next symbol of a bit stream from bit `i`, most significant bit of the code first: (symbol, bits used); `n` more
bits may be tried, `len` and `code` being what has been read. -/
def zSymbolAt (codes : List (Nat × Nat × Nat)) (bit : Nat → Nat) (i : Nat) : Nat → Nat → Nat → Option (Nat × Nat)
  | 0, _, _ => none
  | n + 1, len, code =>
    let code := 2 * code + bit (i + len)
    match codes.find? (fun x => decide (x.2.1 = len + 1 ∧ x.2.2 = code)) with
    | some x => some (x.1, len + 1)
    | none => zSymbolAt codes bit i n (len + 1) code

/-- The place and the length in bytes of record `b`, its header at least (R261, R262). -/
def zRecord (rd : Nat → Nat) (h : ZHeader) (b : Nat) : Nat × Nat :=
  let o := h.data + 16 * zNat rd (h.index + 4 * b) 4
  (o, max 4 (zNat rd o 2))

/-- `n` symbols from bit `i` of a plane of `bits` bits: the symbols and the bits used, or the reason of R264. -/
def zPlane (codes : List (Nat × Nat × Nat)) (bit : Nat → Nat) (bits : Nat) : Nat → Nat → List Nat → Except Nat (List Nat × Nat)
  | 0, i, acc => .ok (acc.reverse, i)
  | n + 1, i, acc =>
    match zSymbolAt codes bit i 15 0 0 with
    | none => if i + 15 > bits then .error 3 else .error 2
    | some (e, len) => if i + len > bits then .error 3 else zPlane codes bit bits n (i + len) (e :: acc)

/-- The layout of a format that Z-pack splits into planes (R262). -/
def zLayout (f : Nat) : Option FloatFmt :=
  match f with
  | 0x02 => some fmtZF16
  | 0x03 => some fmtZB16
  | 0x04 => some fmtZE4
  | 0x05 => some fmtZE5
  | 0x06 => some fmtZE3M2
  | 0x07 => some fmtZE2M1
  | _ => none

/-- The 4,096 bytes of packed elements of width `w` (R38). -/
def packElems (w : Nat) (l : List Nat) : List (BitVec 8) :=
  bytesOfNat 4096 ((l.foldr (fun x acc => x % 2 ^ w + 2 ^ w * acc) 0))

/-- The expansion of record `b`, whose payload is of format `f` (a scale block for `scale`): its 4,096 bytes, or the
reason of R264 for which it is rejected. -/
def zExpand (rd : Nat → Nat) (h : ZHeader) (b : Nat) (scale : Bool) : Except Nat (List (BitVec 8)) :=
  let o := h.data + 16 * zNat rd (h.index + 4 * b) 4
  let len := zNat rd o 2
  let method := rd (o + 2)
  let table := rd (o + 3)
  if method = 0 then
    if len = 4100 then .ok ((List.range 4096).map (fun i => BitVec.ofNat 8 (rd (o + 4 + i)))) else .error 1
  else
    match (if method = 1 ∧ scale = false ∧ table < h.ntables then zLayout h.format else none) with
    | none => .error 4
    | some f =>
      let w := 1 + f.ebits + f.mbits
      let n := 32768 / w
      let signBytes := ceilDiv n 8
      let fracBytes := ceilDiv (n * f.mbits) 8
      let bitsFrom (base i : Nat) : Nat := rd (base + i / 8) / 2 ^ (i % 8) % 2
      let fracBase := o + 4 + signBytes
      let expBase := fracBase + fracBytes
      if len < 4 + signBytes + fracBytes then .error 1
      else
        let bits := 8 * (len - 4 - signBytes - fracBytes)
        match zPlane (zCodes (zSymbols (zLengths rd table)) 1 0) (bitsFrom expBase) bits n 0 [] with
        | .error r => .error r
        | .ok (es, used) =>
          if bits > used + 7 then .error 3
          else
            let frac (i : Nat) : Nat := (List.range f.mbits).foldr (fun j acc => bitsFrom fracBase (i * f.mbits + j) + 2 * acc) 0
            .ok (packElems w (es.mapIdx (fun i e =>
              frac i + (e % 2 ^ f.ebits) * 2 ^ f.mbits + bitsFrom (o + 4) i * 2 ^ (w - 1))))

end Sys2Proof.Machine
end

