-- ==== Sys2Proof/Machine/XferDesc.lean ====
section
/-!
DEFINITION. What the agents of chapter 11 are asked to do: the transfer descriptor and its check (R271, R272), the places of
channels, feeds and layers (R287, R288), the gather list (R265), and the regions of the two commands (R283).
-/
namespace Sys2Proof.Machine


/-! ## The transfer descriptor (Table 11-2) -/

def xfBlocks (w : Nat) : Bool := bitAt w 0
def xfSpace (w : Nat) : Nat := bitsAt w 1 3
def xfToObject (w : Nat) : Bool := bitAt w 4
def xfBarrier (w : Nat) : Bool := bitAt w 8
def xfHint (w : Nat) : Nat := bitsAt w 9 2
def xfObject (w : Nat) : Nat := bytesAt w 4 4
def xfSrc (w : Nat) : Nat := bytesAt w 8 8
def xfDst (w : Nat) : Nat := bytesAt w 16 8
def xfFirst (w : Nat) : Nat := bytesAt w 28 4
def xfSrcTrailer (w : Nat) : Nat := bytesAt w 32 8
def xfDstTrailer (w : Nat) : Nat := bytesAt w 40 8
def xfBlockId (w : Nat) : Nat := bytesAt w 48 4
def xfFormat (w : Nat) : Nat := bytesAt w 52 1
def xfScale (w : Nat) : Nat := bytesAt w 53 1
def xfWaitEn (w : Nat) : Bool := bitAt w (8 * 54)
def xfTimeout (w : Nat) : Nat := bitsAt w (8 * 55) 4
def xfWaitObject (w : Nat) : Nat := bytesAt w 56 2
def xfSignal (w : Nat) : SignalEntry := signalEntry (bytesAt w 58 6)

/-- COUNT of blocks, or LENGTH in bytes. -/
def xfCount (w : Nat) : Nat := if xfBlocks w then bytesAt w 24 4 else bytesAt w 24 5
/-- The bytes of the data that the transfer moves. -/
def xfBytes (w : Nat) : Nat := if xfBlocks w then 4096 * bytesAt w 24 4 else bytesAt w 24 5

def xfZpack (w : Nat) : Bool := decide (xfSpace w = 1 ∨ xfSpace w = 2)
/-- Does the transfer read an object of tier 3 (R294)? -/
def xfReads (w o : Nat) : Bool := decide ((xfSpace w = 2 ∨ xfSpace w = 3) ∧ xfObject w = o)

/-! ## Agents -/

/-- The place of a channel in the store of channels: core channel k of core c at 4c + k, chip channel n at 1024 + n. -/
def chipKey (n : Nat) : Nat := 1024 + n
def coreKey (c k : Nat) : Nat := 4 * c + k

/-- The state without any waiter of an agent. -/
def State.dropWaiter (s : State) (a : WaitAgent) : State :=
  (s.setSync (s.sync.map (fun p => (p.1, { p.2 with waiters := p.2.waiters.filter (fun w => !(decide (w.agent = a))) }))))

/-- The agent and the registers of a channel. -/
def chanAgent (key : Nat) : Agent := if key < 1024 then .core (key / 4) (key % 4) else .chip (key - 1024)
def chanBase (key : Nat) : Nat := if key < 1024 then dmaCore (key / 4) (key % 4) else dmaChip (key - 1024)

/-- The place of an agent's transfer. -/
def Agent.key : Agent → Nat
  | .core c k => coreKey c k
  | .chip n => chipKey n
  | .piece f q j => 2048 + (f * 2 ^ 32 + q) * 2 ^ 32 + j
  | .alternate _ => 2047
  | .capture _ => 2046

/-- Channel by place. -/
def State.chan (s : State) (key : Nat) : Chan := Sparse.get Chan.reset s.chans key
def State.modChan (s : State) (key : Nat) (f : Chan → Chan) : State :=
  (s.setChans (Sparse.put Chan.reset key (f (s.chan key)) s.chans))

/-- The state of a channel (Table 11-4). -/
def State.chanState (s : State) (key : Nat) : Nat := s.rd (.dmaChStatusState (chanBase key))
def State.setChanState (s : State) (key v : Nat) : State := s.wr (.dmaChStatusState (chanBase key)) v

/-- What an agent is for R252, its unit and the partition of its events. -/
def State.agentWho (s : State) : Agent → Accessor
  | .core c _ => .part (s.corePart c)
  | .chip n => if n ≥ 62 then .referee else .part (s.rd (.dmaChCtrlPartition (dmaChip n)))
  | .piece f _ _ => .part (s.rd (.cadFeedCtrlPartition f))
  | .alternate o => match s.recoveries.find? (fun r => decide (r.object = o)) with
    | some r => .part r.part
    | none => .nobody
  | .capture p => .part p
def State.agentUnit (s : State) : Agent → Nat
  | .core c k => s.unitCore c (engDma k)
  | .chip n => unitChipChannel n
  | _ => unitReferee
def State.agentPart (s : State) (a : Agent) : Nat := (s.agentWho a).partField

/-- The partition for the reads of objects (Table 10-6): the referee's agents read every object. -/
def State.agentObjectPart (s : State) (a : Agent) : Option Nat := match s.agentWho a with
  | .part p => some p
  | _ => none

/-- The state with `n` added to a counter of the agent's channel. -/
def State.countChan (s : State) (a : Agent) (n k : Nat) : State :=
  match a with
  | .core _ _ | .chip _ => s.count (Reg.dmaChCnt (chanBase a.key) n) k
  | .piece _ _ _ => if n = 0 then s.count (Reg.cadCnt 1) k else s
  | _ => s

/-! ## Destinations -/

/-- Is core `c` a consumer of feed `f` (R287)? -/
def State.consumer (s : State) (f c : Nat) : Bool := decide (c < 256) && bitAt (s.rd (.cadFeedCoresConsumer f (c / 64))) (c % 64)

/-- The cores that a piece delivers to (Table 11-8). -/
def pieceCores (w : Nat) : List Nat := (List.range (bytesAt w 55 1 + 1)).map (fun i => bytesAt w 54 1 + i)

/-- The offset of a layer's slot in the core stores (R288). -/
def State.slotOffset (s : State) (f q : Nat) : Nat :=
  (q % max 1 (s.rd (.cadFeedShapeW f))) * (s.rd (.cadFeedShapeSlotStride f))

/-- The destinations of a transfer as (data, trailers) in global addresses, or object offsets. -/
def State.xferDests (s : State) (a : Agent) (w : Nat) : List (Nat × Nat) :=
  match a with
  | .piece f q _ => (pieceCores w).map (fun c =>
      let o := s.chipId * 2 ^ 48 + coreWindow c + s.slotOffset f q
      (o + xfDst w % 2 ^ 24, o + xfDstTrailer w % 2 ^ 24))
  | _ => [(xfDst w, xfDstTrailer w)]

/-! ## The check of a descriptor (R272, Table 11-3) -/

/-- The reader of a Z-pack object. -/
def State.zRead (s : State) (w : Nat) : Nat → Nat :=
  if xfSpace w = 2 then
    (match s.object (xfObject w) with
    | some x => fun o => (Mem.read x.bytes o).toNat
    | none => fun _ => 0)
  else fun o => (s.byte (xfSrc w % 2 ^ 48 + o)).toNat

/-- Is a reserved value, bit or field of the descriptor nonzero? -/
def xfReserved (w : Nat) : Bool :=
  let sp := xfSpace w
  decide (sp ≥ 4 ∨ bitsAt w 5 3 ≠ 0 ∨ bitsAt w 11 5 ≠ 0 ∨ bytesAt w 2 2 ≠ 0) ||
  (decide (xfObject w ≠ 0) && decide (sp ≠ 2 ∧ sp ≠ 3) && !(xfToObject w)) ||
  (if xfBlocks w then !(xfZpack w) && decide (xfFirst w ≠ 0)
    else decide (bytesAt w 29 3 ≠ 0 ∨ xfDstTrailer w ≠ 0)) ||
  (!(xfBlocks w && decide (sp = 0 ∨ sp = 3)) && decide (xfSrcTrailer w ≠ 0))

/-- Does the descriptor break an alignment of reason 0x02? -/
def xfMisaligned (w : Nat) : Bool :=
  (xfBlocks w && decide (xfSrc w % 4096 ≠ 0 ∨ xfDst w % 4096 ≠ 0 ∨ xfSrcTrailer w % 16 ≠ 0 ∨ xfDstTrailer w % 16 ≠ 0)) ||
  (xfToObject w && decide (xfDst w % 4096 ≠ 0 ∨ xfDstTrailer w % 4096 ≠ 0)) ||
  decide (xfSpace w = 2 ∧ xfSrc w ≠ 0)

/-- Do [a, a + n) and [b, b + m) overlap? -/
def overlaps (a n b m : Nat) : Bool := decide (a < b + m ∧ b < a + n)

/-- Does the transfer run past an object's LENGTH or a Z-pack object's NBLOCKS, or place trailers in a unit in which an
earlier transfer has placed some (R273)? -/
def State.xfPast (s : State) (a : Agent) (w : Nat) : Bool :=
  let n := xfCount w
  let objLen (f : FlashObj → Bool) : Bool := match s.object (xfObject w) with
    | some x => f x
    | none => false
  (decide (xfSpace w = 3) && objLen (fun x =>
    decide (xfSrc w + xfBytes w > x.length ∨ (xfBlocks w = true ∧ xfSrcTrailer w + 16 * n > x.length)))) ||
  (xfToObject w && objLen (fun x =>
    decide (xfDst w + xfBytes w > x.length ∨ (xfBlocks w = true ∧ xfDstTrailer w + 16 * n > x.length)) ||
    (xfBlocks w && (x.trailed.any (fun u =>
      decide (xfDstTrailer w / 4096 ≤ u ∧ u ≤ (xfDstTrailer w + 16 * n - 1) / 4096)))))) ||
  (xfZpack w && zHeaderOk (s.zRead w) && decide (xfFirst w + n > (zHeader (s.zRead w)).nblocks)) ||
  (match a with
    | .piece f q _ =>
      let o := s.slotOffset f q
      decide (o + xfDst w % 2 ^ 24 + xfBytes w > storeSize ∨ o + xfDstTrailer w % 2 ^ 24 + 16 * n > storeSize)
    | _ => false)

/-- Are the AGENT bytes invalid for the agent (reason 0x05)? -/
def State.xfAgentBad (s : State) (a : Agent) (w : Nat) : Bool :=
  match a with
  | .core _ _ => decide (bytesAt w 54 10 ≠ 0)
  | .chip _ => decide (bitsAt w (8 * 54 + 1) 7 ≠ 0 ∨ bitsAt w (8 * 55 + 4) 4 ≠ 0 ∨ (xfSignal w).kind = 3 ∨ (xfSignal w).rsv ≠ 0)
  | .piece f _ _ => decide (bytesAt w 56 8 ≠ 0) || (pieceCores w).any (fun c => !(s.consumer f c))
  | _ => false

/-- The ranges of a transfer's source as (space, address, bytes): space 0 the chip's addresses, 1 another chip's, 2 an
object. -/
def State.xfSrcRanges (s : State) (w : Nat) : List (Nat × Nat × Nat) :=
  let addr (a n : Nat) : Nat × Nat × Nat := (if s.isLocal (a / 2 ^ 48) then 0 else a / 2 ^ 48 + 1, a % 2 ^ 48, n)
  let n := xfCount w
  match xfSpace w with
  | 0 => addr (xfSrc w) (xfBytes w) :: (if xfBlocks w then [addr (xfSrcTrailer w) (16 * n)] else [])
  | 1 =>
    let h := zHeader (s.zRead w)
    let base := xfSrc w % 2 ^ 48
    [(0, base, 4096), (0, base + h.index + 4 * xfFirst w, 4 * n), (0, base + h.trailer + 16 * xfFirst w, 16 * n)] ++
      (if zHeaderOk (s.zRead w) then (List.range n).map (fun j =>
          let r := zRecord (s.zRead w) h (xfFirst w + j)
          (0, base + r.1, r.2)) else [])
  | _ => (0x20000 + xfObject w, xfSrc w, xfBytes w) ::
      (if xfBlocks w ∧ xfSpace w = 3 then [(0x20000 + xfObject w, xfSrcTrailer w, 16 * n)] else [])

/-- The ranges of its destination. -/
def State.xfDstRanges (s : State) (a : Agent) (w : Nat) : List (Nat × Nat × Nat) :=
  (s.xferDests a w).flatMap (fun d =>
    let sp := if xfToObject w then 0x20000 + xfObject w else if s.isLocal (d.1 / 2 ^ 48) then 0 else d.1 / 2 ^ 48 + 1
    let m := if xfToObject w then 2 ^ 64 else 2 ^ 48
    (sp, d.1 % m, xfBytes w) :: (if xfBlocks w then [(sp, d.2 % m, 16 * xfCount w)] else []))

/-- Do source and destination ranges on the same chip overlap (reason 0x06)? -/
def State.xfOverlap (s : State) (a : Agent) (w : Nat) : Bool :=
  (s.xfSrcRanges w).any (fun x => (s.xfDstRanges a w).any (fun y =>
    decide (x.1 = y.1) && overlaps x.2.1 x.2.2 y.2.1 y.2.2))

/-- May the agent write objects (R284)? -/
def Agent.writesObjects : Agent → Bool
  | .chip n => decide (n ≥ 62)
  | _ => false

/-- The check of R272: the lowest reason of Table 11-3 that applies; 0x14 for the object destination of reason 0x04, whose
code is MEM_READ_ONLY. -/
def State.xfReason (s : State) (a : Agent) (w : Nat) : Option Nat :=
  if xfReserved w then some 0x01
  else if xfMisaligned w then some 0x02
  else if xfCount w = 0 ∨ s.xfPast a w = true then some 0x03
  else if xfToObject w ∧ a.writesObjects = false then some 0x14
  else if xfZpack w ∧ (xfBlocks w = false ∨ xfToObject w = true) then some 0x04
  else if s.xfAgentBad a w then some 0x05
  else if s.xfOverlap a w then some 0x06
  else none

/-- The state after the event of a descriptor that fails its check, and the status code. -/
def State.raiseXferDesc (s : State) (a : Agent) (da w reason : Nat) : State × Nat :=
  if reason = 0x14 then
    (s.raiseAs .memReadOnly sevFailed (s.agentUnit a) (s.agentPart a)
      (payload [(16, 8, xfObject w), (24, 1, 1), (25, 1, s.agentPart a)]), Code.memReadOnly.val)
  else (s.raise .xfrDescInvalid (s.agentUnit a) (s.agentPart a) (payload [(16, 1, reason), (20, 8, da)]),
    Code.xfrDescInvalid.val)

/-! ## Feeds and layers -/

/-- The descriptor of piece `j` of layer `q` of a feed, and its address (R288). -/
def State.layerEntry (s : State) (f q : Nat) : Nat :=
  s.rd (.cadFeedTableBase f) + 64 * (q % max 1 (s.rd (.cadFeedTableNlayers f)))
def State.pieceAddr (s : State) (f q j : Nat) : Nat := s.memNat (s.layerEntry f q) 6 + 64 * j
def State.pieceDesc (s : State) (f q j : Nat) : Nat := s.memNat (s.pieceAddr f q j) 64
def State.pieceCount (s : State) (f q : Nat) : Nat := s.memNat (s.layerEntry f q + 8) 4

/-- Feed `f`. -/
def State.feed (s : State) (f : Nat) : Feed := Sparse.get Feed.reset s.feeds f
def State.modFeed (s : State) (f : Nat) (g : Feed → Feed) : State :=
  (s.setFeeds (Sparse.put Feed.reset f (g (s.feed f)) s.feeds))

/-- Is layer `q` resident for core `c` (R289)? -/
def State.resident (s : State) (f q c : Nat) : Bool :=
  (s.feed f).layers.any (fun l => decide (l.q = q ∧ l.failed = none) &&
    l.waiting.all (fun j => !((pieceCores (s.pieceDesc f q j)).contains c)))

/-! ## Commands (R282, R283, R265, R290) -/

/-- The descriptor offset of a DMA_XFER, and whether its other operand bits are zero. -/
def dmaOffset (w : Nat) : Nat := opBits w 32 0 24
def dmaClean (w : Nat) : Bool := opsClean w [(32, 0, 24)]

/-- Does a global address lie in the store of core `c` of this chip? -/
def State.inOwnStore (s : State) (c a : Nat) : Bool := s.isLocal (a / 2 ^ 48) && inStore c (a % 2 ^ 48) 1

/-- The core-store side of a transfer: the smallest interval of the core's store that holds its data and its trailers, as far as they
lie in that store (R283). -/
def State.sideRegion (s : State) (c a n ta tn : Nat) (rd wr : Bool) : List Region :=
  let lo := a % 2 ^ 48 - coreWindow c
  let t := ta % 2 ^ 48 - coreWindow c
  let trailers := decide (tn ≠ 0) && s.inOwnStore c ta
  if s.inOwnStore c a then
    (if trailers then [⟨false, min lo t, max (lo + n) (t + tn) - 1, rd, wr⟩] else [⟨false, lo, lo + n - 1, rd, wr⟩])
  else if trailers then [⟨false, t, t + tn - 1, rd, wr⟩]
  else []

/-- The regions of a DMA_XFER (R283). -/
def State.dmaRegions (s : State) (c w : Nat) : List Region :=
  let off := dmaOffset w
  if off % 64 ≠ 0 ∨ off + 64 > storeSize then []
  else
    let x := s.memNat (coreWindow c + off) 64
    let tn := if xfBlocks x then 16 * xfCount x else 0
    (if xfSpace x = 0 then s.sideRegion c (xfSrc x) (xfBytes x) (xfSrcTrailer x) tn true false else []) ++
    (if xfToObject x then [] else s.sideRegion c (xfDst x) (xfBytes x) (xfDstTrailer x) tn false true)

/-- The header of a gather list (Table 10-8). -/
structure GList where
  op : Nat
  elem : Nat
  rowBytes : Nat
  setMask : Bool
  hint : Nat
  count : Nat
  table : Nat
  rows : Nat
  index : Nat
  desc : Nat
  mask : Nat
  deriving DecidableEq, Repr

/-- The header in 64 bytes. -/
def GList.ofNat (w : Nat) : GList :=
  { op := bytesAt w 0 1, elem := bytesAt w 1 1, rowBytes := 32 * bytesAt w 2 1, setMask := bitAt w 24, hint := bitsAt w 25 2,
    count := bytesAt w 4 3, table := bytesAt w 8 6, rows := bytesAt w 16 4, index := bytesAt w 20 3, desc := bytesAt w 24 3,
    mask := bytesAt w 28 6 }

/-- The regions of a DMA_GATHER (Table 11-5). -/
def State.gatherRegions (s : State) (c cmd : Nat) : List Region :=
  let off := dmaOffset cmd
  if off % 64 ≠ 0 ∨ off + 64 > storeSize then []
  else
    let g := GList.ofNat (s.memNat (coreWindow c + off) 64)
    s.opRegion c g.desc (decide (g.op ≠ 0)) (decide (g.op = 0)) ++
      (if g.count = 0 ∨ g.index ≥ storeSize then [] else [⟨false, g.index, min (g.index + 4 * g.count) storeSize - 1, true, false⟩])

/-- The operands of an LFENCE. -/
def lfFeed (w : Nat) : Nat := opBits w 32 0 6
def lfLayer (w : Nat) : Nat := opBits w 36 0 32

end Sys2Proof.Machine
end

