-- ==== Sys2Proof/Machine/Head.lean ====
section
/-!
DEFINITION. The head of a playmaker as its status shows it: the regions of its command and the first issue check that it
fails (Table 8-6).
-/
namespace Sys2Proof.Machine

/-- The regions of a command, by its opcode (R209, Table 8-7). -/
def State.regionsOf (s : State) (c w : Nat) : List Region :=
  match cmdOpcode w with
  | 0x10 | 0x11 => s.loadRegions c w
  | 0x13 => s.streamRegions c w
  | 0x18 => clearRegions w
  | 0x19 => s.drainRegions c w
  | 0x1A => spillRegions w
  | 0x1B => restoreRegions w
  | 0x20 | 0x21 | 0x22 => s.cnvRegions c w
  | 0x28 | 0x29 => s.optRegions c w
  | 0x2A | 0x2B => s.vecRegions c w
  | 0x31 => s.outRegions c w
  | 0x40 => s.dmaRegions c w
  | 0x41 => s.gatherRegions c w
  | _ => []

/-- Does check 3 hold for the head's own fence: a layer fence's layer is resident, an OPT_UPDATE's constants are published? -/
def State.ownFence (s : State) (c w : Nat) : Bool :=
  if cmdOpcode w = 0x04 then s.resident (lfFeed w) (lfLayer w) c
  else if cmdOpcode w = 0x29 then s.constReady c else true

/-- HEAD_CAUSE (Table 8-6): the first check that the head fails; 0 when it issues, or there is no head. -/
def State.headCause (s : State) (c : Nat) : Nat :=
  let k := s.core c
  if k.pstate ≠ 1 ∨ k.seg.isNone then 0
  else
    match k.head with
    | none => 1
    | some w =>
      match opcodeRow (cmdOpcode w) (cmdEngine w) with
      | none => 1
      | some (q, _) =>
        let rs := s.regionsOf c w
        (firstFail [
          ((headerReason w).isSome, 1),
          (decide (k.stopping ≠ .no) || (decide (k.haltReq ≠ 0) && !k.waitsBegun), 0),
          (k.inflight.any (fun i => decide (i.opcode = 0x03)) || !(s.fenceMet c) || !(s.ownFence c w), 2),
          (!(k.tokensClear w), 3),
          (k.inflight.any (fun i => decide (i.token = cmdToken w)), 4),
          (decide ((k.inflight.filter (fun i => decide (i.queue = q))).length ≥ q.depth), 5),
          (!(k.regionsClear q rs), 6),
          (decide (k.regions.length + rs.length > 32), 7),
          (decide (k.waitsDone ≠ (syncWaits w).length), 8)]).getD 0

end Sys2Proof.Machine
end

