-- ==== Sys2Proof/Machine/Streams.lean ====
section
/-!
DEFINITION. Completion streams and message interrupts (R311 to R314): the context of a stream in memory, the writing of a
completion, full and disabled streams, the holdoff, and the completion of segments in order (R198).
-/
namespace Sys2Proof.Machine

/-! ## Contexts -/

/-- The context of queue `q` (Table 12-5) and of stream `n` (R311): where it lies. -/
def State.queueCtx (s : State) (q : Nat) : Nat := s.rd .hifQtableBase + 64 * q
def State.streamCtx (s : State) (n : Nat) : Nat := s.rd .hifStableBase + 32 * n

/-- What the device reads in a context table: all ones where the table's base lies at no usable address (R28). Each command that
looks at a context raises the event of such a read once (`State.ctxSeen`). -/
def State.ctxNat (s : State) (a n : Nat) : Nat := (s.readVia .referee unitPcie a n).1

/-- The state after the `n` bytes of a context have been read. -/
def State.ctxSeen (s : State) (a n : Nat) : State := (s.readVia .referee unitPcie a n).2

/-- The state after the device has written a field of a context. -/
def State.ctxWrite (s : State) (a n v : Nat) : State := s.writeVia .referee unitPcie a n v

/-- The fields of a stream's context (R311). -/
def State.streamRing (s : State) (n : Nat) : Nat := s.ctxNat (s.streamCtx n) 8
def State.streamL (s : State) (n : Nat) : Nat := s.ctxNat (s.streamCtx n + 8) 1
def State.streamFlags (s : State) (n : Nat) : Nat := s.ctxNat (s.streamCtx n + 9) 1
def State.streamVector (s : State) (n : Nat) : Nat := s.ctxNat (s.streamCtx n + 10) 2 % 2048
def State.streamPasid (s : State) (n : Nat) : Nat :=
  if bitAt (s.streamFlags n) 1 then s.ctxNat (s.streamCtx n + 12) 4 + 1 else 0
def State.streamPart (s : State) (n : Nat) : Nat := s.ctxNat (s.streamCtx n + 16) 1
def State.streamHoldoff (s : State) (n : Nat) : Nat := s.ctxNat (s.streamCtx n + 17) 1
def State.streamTail (s : State) (n : Nat) : Nat := s.ctxNat (s.streamCtx n + 20) 4
def State.streamHead (s : State) (n : Nat) : Nat := s.ctxNat (s.streamCtx n + 24) 4

/-- What the device holds of stream `n`. -/
def State.stream (s : State) (n : Nat) : Stream := Sparse.get Stream.reset s.streams n
def State.modStream (s : State) (n : Nat) (f : Stream → Stream) : State :=
  (s.setStreams (Sparse.put Stream.reset n (f (s.stream n)) s.streams))

/-- Is the ring of stream `n` full: TAIL - HEAD = 2^L (R312)? The counts run free modulo 2^32. -/
def State.streamFull (s : State) (n : Nat) : Bool :=
  decide ((s.streamTail n + 2 ^ 32 - s.streamHead n) % 2 ^ 32 ≥ pow2 (s.streamL n))

/-- The accessor that the host interface acts as for the partition byte of a queue or stream: the partition, or the
physical function for 0xF0 (R313, R315). -/
def hifAccessor (p : Nat) : Accessor := if p = 0xF0 then .referee else .part p

/-- The MSI-X function of a partition byte (R313). -/
def msixFn (p : Nat) : Nat := if p < 16 then p + 1 else 0

/-- What a request of function `fn` to host memory leaves in the address translation cache, where the host has enabled ATS for that
function (R298, R308). -/
def State.translate (s : State) (fn space a : Nat) : State :=
  if s.atsOn.contains fn = false ∨ s.atc.contains (space, a / 4096) = true then s
  else s.setAtc ((s.atc ++ [(space, a / 4096)]).drop (s.atc.length + 1 - 4096))

/-! ## Messages -/

/-- The state after a message is asked for on stream `n`: it is sent now, or at the end of the holdoff (R312). -/
def State.streamMessage (s : State) (n : Nat) : State :=
  if bitAt (s.streamFlags n) 2 = false then s
  else if s.dtime < (s.stream n).holdoff then s.modStream n (fun x => { x with owed := true })
  else
    let s' := s.sendMsix (msixFn (s.streamPart n)) (s.streamVector n)
    s'.modStream n (fun x => { x with holdoff := s.dtime + 1000 * s.streamHoldoff n, owed := false })

/-! ## Completions -/

/-- The number of a sequence slot's COUNT register, with the count of slot `n` one up (R314). -/
def State.seqUp (s : State) (n : Nat) : State := s.wr (.hifSeqCount n) ((s.rd (.hifSeqCount n) + 1) % 65536)

/-- The 16 bytes of a completion entry (Table 12-7) with its PHASE. -/
def Completion.entry (x : Completion) (phase : Nat) : Nat :=
  x.tag + x.status * 2 ^ 64 + (x.queue % 2 ^ 15) * 2 ^ 80 + phase * 2 ^ 95 + x.slot * 2 ^ 96 + x.flags * 2 ^ 104 +
    x.seq * 2 ^ 112

/-- The state after the segment that a completion reports is reported (R198): it leaves the core's list. -/
def State.segmentReported (s : State) (x : Completion) : State :=
  match x.core with
  | none => s
  | some c => (s.modCore c (fun k => { k with segOpen := k.segOpen.tail })).count (Reg.pmkCnt c 10) 1

/-- The partition that an event about stream `n` carries. -/
def State.streamPartField (s : State) (n : Nat) : Nat := if s.streamPart n < 16 then s.streamPart n else noPart

/-- The state after an entry has been written at the TAIL of stream `n` (R312): TAIL, HIF_CNT_2, a stream that became
full, the message. -/
def State.streamWritten (s : State) (n t : Nat) : State :=
  let s := (s.ctxWrite (s.streamCtx n + 20) 4 (t + 1)).count (Reg.hifCnt 2) 1
  let s := if s.streamFull n then s.raise .hqStreamFull unitPcie (s.streamPartField n) (payload [(16, 2, n)]) else s
  s.streamMessage n

/-- The state after a completion has been written into its stream, which has room (R311, R312, R315). -/
def State.writeCompletion (s : State) (x : Completion) : State :=
  let n := x.stream
  let l := s.streamL n
  let t := s.streamTail n
  let e := x.entry (if t / pow2 l % 2 = 0 then 1 else 0)
  let a := s.streamRing n + 16 * (t % pow2 l)
  let w := hifAccessor (s.streamPart n)
  let s := s.segmentReported x
  if bitAt (s.streamFlags n) 0 then ((s.translate (msixFn (s.streamPart n)) (s.streamPasid n) a).setHostBytes (hostKey (s.streamPasid n) a) (bytesOfNat 16 e)).streamWritten n t
  else
    let r := s.checkRange w a 16 true
    match r.1.code with
    | some code => (s.refuseAccess code sevNotice unitPcie w r.2 true).count (Reg.hifCnt 8) 1
    | none => (s.storeNat a 16 e).streamWritten n t

/-- The state after a completion has been dropped at a stream that is not enabled (R312): `kind` 0, or 1 for one that
was waiting when the stream was disabled. -/
def State.dropCompletion (s : State) (x : Completion) (kind : Nat) : State :=
  let s := (s.segmentReported x).count (Reg.hifCnt 8) 1
  if (s.stream x.stream).dropped then s
  else (s.modStream x.stream (fun y => { y with dropped := true })).raise .hqStreamOff unitPcie (s.streamPartField x.stream)
    (payload [(16, 2, x.stream), (18, 1, kind)])

/-- The state after a completion is posted: written, waiting behind others or for room, or dropped (R312). -/
def State.postCompletion (s : State) (x : Completion) : State :=
  let y := s.stream x.stream
  if y.on = false then s.dropCompletion x 0
  else
    let s := s.ctxSeen (s.streamCtx x.stream) 32
    if y.waiting ≠ [] ∨ s.streamFull x.stream = true then
    s.modStream x.stream (fun y => { y with waiting := y.waiting ++ [x] })
  else s.writeCompletion x

/-- The state after the first waiting completion of stream `n` has been written, if there is room (R312). -/
def State.resumeStream (s : State) (n : Nat) : State :=
  match (s.stream n).waiting with
  | [] => s
  | x :: t =>
    if s.streamFull n = true then s
    else (s.modStream n (fun y => { y with waiting := t })).writeCompletion x

/-! ## Segments -/

/-- Is the completion of a core's segment still waiting for room? -/
def State.reportWaits (s : State) (c : Nat) : Bool :=
  s.streams.any (fun p => p.2.waiting.any (fun x => decide (x.core = some c)))

/-- The FLAGS bits of a segment record (Table 8-1). -/
def SegRec.notify (r : SegRec) : Bool := bitAt r.flags 0
def SegRec.seqValid (r : SegRec) : Bool := bitAt r.flags 1

/-- The completion of a segment with a status (Table 12-7); `n` is its slot's COUNT after it (R314). -/
def SegRec.completion (r : SegRec) (status n : Nat) (core : Option Nat) : Completion :=
  { stream := r.stream, tag := r.tag, status := status, queue := r.queue,
    slot := (if r.seqValid then r.seqSlot else 0), flags := flag r.seqValid + 2,
    seq := (if r.seqValid then n else 0), core := core, ofEntry := false }

/-- The segment records that have not completed: at the dispatchers, queued at a core, or started. -/
def State.segments (s : State) : List SegRec :=
  s.dispatch ++ s.cores.flatMap (fun p => p.2.segq ++ p.2.segOpen.map (fun r => r.record))

/-- Is a record at the dispatcher held by its sequence slot: a SEQ_VALID segment of the slot taken earlier has not
completed (R314)? -/
def State.seqHeld (s : State) (r : SegRec) : Bool :=
  r.seqValid && s.segments.any (fun x => x.seqValid && decide (x.seqSlot = r.seqSlot ∧ x.order < r.order))

end Sys2Proof.Machine
end

