-- ==== Sys2Proof/Machine/RegView.lean ====
section
/-!
DEFINITION. Reading register space: what a register shows (the read-only fields that mirror other state), who may read it
(R416), and the answers of R7, R8, R353, R358, R363, R374 and R428.
-/
namespace Sys2Proof.Machine

/-! ## Fields that mirror other state -/

/-- A word from its fields (lowest bit, width, value). -/
def wordOf (fs : List (Nat × Nat × Nat)) : Word := fs.foldl (fun w f => w.setField f.1 f.2.1 f.2.2) 0

/-- ARR_STATUS of a core. -/
def Core.arrStatus (k : Core) : Word :=
  wordOf ((match k.bank with
    | none => []
    | some b => [(0, 2, 1), (4, 3, if b.twoBit then 0 else b.r), (7, 3, if b.temporal then 1 else b.c), (10, 1, flag b.temporal),
        (11, 2, if b.temporal then b.plane else 0), (16, 16, b.zero)]) ++
    [(2, 2, if k.filling.isSome then 1 else if k.bullpen.isSome then 2 else 0)])

/-- The command of a queue that executes, and the number issued and not retired. -/
def Core.executing (k : Core) (q : Queue) : Option Issued := (k.queue q).find? (fun i => decide (i.progress = .running))
def Core.queued (k : Core) (q : Queue) : Nat := (k.queue q).length

/-- CNV_STATUS and VEC_STATUS of core `c`. -/
def State.cnvStatus (s : State) (c : Nat) : Word :=
  let k := s.core c
  let x := k.executing .cnv
  wordOf [(0, 1, flag x.isSome), (1, 4, k.queued .cnv), (5, 2, ((x.map (fun i => cnvShapeNo i.cmd)).getD 0))]
def State.vecStatus (s : State) (c : Nat) : Word :=
  let k := s.core c
  let waits := match k.head with
    | some w => decide (cmdOpcode w = 0x29) && k.issuing && !(s.constReady c)
    | none => false
  wordOf [(0, 1, flag (k.executing .vec).isSome), (1, 4, k.queued .vec), (5, 1, flag waits)]

/-- UMP_STATUS of core `c`: ARBITER is 1 while another core's arbitration is this core's to replay (R132). -/
def State.umpStatus (s : State) (c : Nat) : Word :=
  (s.reg (Reg.umpStatus c)).setField 2 1 (flag (s.arbitrates c))

/-- PMK_STATUS, PMK_HEAD, PMK_HEAD_ADDR and PMK_TOKENS of core `c`. -/
def State.pmkStatus (s : State) (c : Nat) : Word :=
  let k := s.core c
  wordOf [(0, 2, k.pstate), (2, 1, flag (decide (k.stopping ≠ .no) && !k.inflight.isEmpty)), (3, 4, s.headCause c), (7, 3, k.haltCause),
    (10, 7, k.inflight.length), (17, 6, k.regions.length), (23, 5, k.segq.length), (28, 3, k.waitsDone)]
def State.pmkHead (s : State) (c : Nat) : Word :=
  let k := s.core c
  match k.seg with
  | none => 0
  | some r => wordOf [(0, 24, k.headIndex), (24, 8, (k.head.map cmdOpcode).getD 0), (32, 13, r.record.stream),
      (45, 8, r.record.seqSlot)]
def State.pmkHeadAddr (s : State) (c : Nat) : Word :=
  let k := s.core c
  match k.seg with
  | none => 0
  | some r => BitVec.ofNat 64 ((r.record.base + 64 * k.headIndex) % 2 ^ 48)
def State.pmkTokens (s : State) (c : Nat) : Word := (s.core c).inflight.foldl (fun w i => w.setField i.token 1 1) 0

/-- A register of the window of core `c` at offset `o`. -/
def State.viewCore (s : State) (c o a : Nat) : Word :=
  if o = 0 then (s.core c).arrStatus
  else if o = 0x2000 then s.cnvStatus c
  else if o = 0x4000 then s.vecStatus c
  else if o = 0xC008 then s.umpStatus c
  else if o = 0xE010 then s.pmkStatus c
  else if o = 0xE020 then s.pmkHead c
  else if o = 0xE028 then s.pmkHeadAddr c
  else if o = 0xE030 then s.pmkTokens c
  else if 0x10000 ≤ o ∧ o < 0x10400 ∧ o % 0x100 = 8 then (s.reg a).setField 3 4 ((s.core c).queued (.dma ((o - 0x10000) / 0x100)))
  else s.reg a

/-- SYN_OBJ of object `n`. -/
def State.viewObj (s : State) (n : Nat) : Word :=
  let x := s.obj n
  wordOf [(0, 32, x.count), (32, 2, x.state), (34, 2, x.scope), (36, 4, x.part), (40, 9, x.owner), (49, 15, x.waiters.length)]

/-- HIF_SEQ of slot `n` (R314). -/
def State.viewSeq (s : State) (n : Nat) : Word :=
  let mine (r : SegRec) : Bool := r.seqValid && decide (r.seqSlot = n)
  let runs := s.cores.any (fun p => p.2.segOpen.any (fun r => mine r.record))
  let held := (s.dispatch.filter (fun r => mine r && s.seqHeld r)).length
  ((s.reg (Reg.hifSeq n)).setField 16 1 (flag runs)).setField 17 12 (min held 4095)

/-- REF_READY with ELAPSED_MS, which runs while boot runs and then stands (R352). -/
def State.viewReady (s : State) : Word :=
  let w := s.reg Reg.refReady
  if s.rdBit .refReadyBooting then w.setField 32 32 ((s.dtime - s.referee.bootAt) / 1000000) else w

/-- The units of tier 3 that objects are charged for (R258). -/
def State.t3Used (s : State) : Nat := (s.flash.map (fun p => p.2.units)).foldl (· + ·) 0

/-- A register of a chip block at offset `a`. -/
def State.viewChip (s : State) (a : Nat) : Word :=
  if Reg.synObj 0 ≤ a ∧ a < Reg.synObj 65536 then s.viewObj ((a - Reg.synObj 0) / 8)
  else if a = Reg.synWaiters then (s.reg a).setField 0 15 s.waitersUsed
  else if a = Reg.memCapacity then (s.reg a).setField 33 11 (s.rd .memCapacityT3Units - s.t3Used)
  else if Reg.hifSeq 0 ≤ a ∧ a < Reg.hifSeq 256 then s.viewSeq ((a - Reg.hifSeq 0) / 8)
  else if a = Reg.cntDtime then BitVec.ofNat 64 s.dtime
  else if a = Reg.refReady then s.viewReady
  else if ((Reg.refFuseMap 0 ≤ a ∧ a < Reg.refFuseBind 5) ∨ (Reg.refFuseVmin 0 ≤ a ∧ a < Reg.refFuseVmin 4)) then
    (if s.rdBit .refReadyReady then s.reg a else 0)
  else if Reg.mbxChMsg 0 0 ≤ a ∧ a < Reg.mbxChMsg 32 0 ∧ a % 0x100 = 0x80 then
    let c := (a - Reg.mbxChMsg 0 0) / 0x100
    ((s.reg a).setField 1 5 (s.mbxSender c)).setField 6 5 (s.mbxReceiver c)
  else if Reg.pwrSensor 0 ≤ a ∧ a < Reg.pwrSensor 626 then (s.reg a).setField 16 16 (sensorUnit ((a - Reg.pwrSensor 0) / 8))
  else if 0x301000 ≤ a ∧ a < 0x305000 ∧ a % 0x100 = 8 then
    (s.reg a).setField 7 1 (flag (decide (s.headWait (chanKey ((a - 0x301000) / 0x100)) = .waiting)))
  else s.reg a

/-- What the register at BAR0 offset `a` shows; space that holds no register reads zero (R8). -/
def State.view (s : State) (a : Nat) : Word :=
  if a < 0x2000000 then s.viewChip a else s.viewCore ((a - 0x2000000) / 0x20000) (a % 0x20000) a

/-! ## Rights (R416) -/

/-- Why a register is privileged: a counter of a chip block or SYN_WAITERS; a per-core register; a register of a partition's
context. -/
inductive Privileged where
  | no
  | chip
  | core (c : Nat)
  | context (p : Nat)
  deriving DecidableEq, Repr

/-- The partition contexts: base, stride and size of each block's, with the partitions that have one. -/
def contexts : List (Nat × Nat × Nat) := [
  (0x10000, 0x1000, 0x1000), (0x110000, 0x1000, 0x1000), (0x402000, 0x20, 0x20), (0x702000, 0x100, 0x100),
  (0x901000, 0x40, 0x40), (0xE01000, 0x200, 0x200)]

/-- The counter registers of the chip blocks that stand in no context (REF_CNT stands in the diagnostic page, which is never privileged): first, stride between groups, groups, and counters in
a group. -/
def chipCounters : List (Nat × Nat × Nat × Nat) := [
  (Reg.synCnt 0, 0x1000, 1, 8), (Reg.memCnt 0, 0x1000, 1, 12), (Reg.gthCnt 0, 0x1000, 1, 5), (0x301080, 0x100, 64, 6), (Reg.cadCnt 0, 0x1000, 1, 7),
  (Reg.hifCnt 0, 0x1000, 1, 9), (Reg.lnkCnt 0, 0x1000, 1, 2), (Reg.lnkPortCnt 0 0, 0x40, 18, 6), (Reg.redCnt 0, 0x1000, 1, 4),
  (Reg.pwrCnt 0, 0x1000, 1, 6), (Reg.mgnCnt 0, 0x1000, 1, 7), (Reg.trcCnt 0, 0x1000, 1, 4)]

/-- Does the offset name one of these counters? -/
def isChipCounter (a : Nat) : Bool :=
  chipCounters.any (fun x =>
    let o := a - x.1
    decide (x.1 ≤ a ∧ o / x.2.1 < x.2.2.1 ∧ o % x.2.1 < 8 * x.2.2.2))

/-- How the register at an offset is privileged. -/
def privileged (a : Nat) : Privileged :=
  if a ≥ 0x2000000 then .core ((a - 0x2000000) / 0x20000)
  else if a = Reg.synWaiters ∨ isChipCounter a = true then .chip
  else
    match contexts.find? (fun x => decide (x.1 ≤ a ∧ a < x.1 + 16 * x.2.1 ∧ (a - x.1) % x.2.1 < x.2.2)) with
    | some x => .context ((a - x.1) / x.2.1)
    | none => .no

/-- The master identity and the partition of an access (R301, R371). -/
def State.masterId (s : State) : Master → Nat
  | .pf => idPf
  | .referee => idReferee
  | .hart h => s.hartIdentity h
  | _ => 0
def State.masterPart (s : State) : Master → Option Nat
  | .vf p => some p
  | .agent p => some p
  | .hart h => (List.range 16).find? (fun p => (s.hartsOf p).contains h)
  | _ => none

/-- May the master read a privileged register? -/
def State.mayRead (s : State) (m : Master) (a : Nat) : Bool :=
  match m, privileged a with
  | .pf, _ => true
  | .referee, _ => true
  | _, .no => true
  | _, v =>
    let id := s.masterId m
    let mine := match v with
      | .core c => (s.core c).part.isSome && decide ((s.core c).part = s.masterPart m)
      | .context p => decide (s.masterPart m = some p)
      | _ => false
    decide (id = idReferee ∨ id = idPf) || mine || (decide (3 ≤ id) && bitAt (s.rd .cntPrivMask) id)

/-- The state after DBG_PRIV has been raised for a read or write by identity `id` of partition `part`: once in a millisecond
for each identity (R416). -/
def State.privEvent (s : State) (id : Nat) (part : Option Nat) (a : Nat) : State :=
  match s.referee.privAt.find? (fun x => decide (x.1 = id ∧ s.dtime < x.2 + 1000000)) with
  | some _ => s
  | none =>
    (s.setReferee ({ s.referee with privAt := (id, s.dtime) :: s.referee.privAt.filter (fun x => !(decide (x.1 = id))) })).raise
      .dbgPriv unitReferee (part.getD noPart) (payload [(16, 8, a), (24, 1, id)])

/-- The state after a read that R416 denies: TRC_CNT_3 counts it, as it counts no write. -/
def State.privDenied (s : State) (id : Nat) (part : Option Nat) (a : Nat) : State :=
  (s.count (Reg.trcCnt 3) 1).privEvent id part a

/-! ## Accesses -/

/-- Is an access of `n` bytes at `a` a whole register or an aligned half (R7)? -/
def accessOk (a n : Nat) : Bool := decide ((n = 8 ∧ a % 8 = 0) ∨ (n = 4 ∧ a % 4 = 0))

/-- Does the offset answer before READY and in the dugout: the diagnostic page and the registers of MBX channel 0 (R353)? -/
def alwaysAnswers (a : Nat) : Bool := decide ((0xA00000 ≤ a ∧ a < 0xA01000) ∨ (Reg.mbxChMsg 0 0 ≤ a ∧ a < Reg.mbxChMsg 1 0))

/-- Does an access meet the boot's gate (R353, R358)? The referee's own agents do not, nor does what answers early. -/
def gated (m : Master) (a : Nat) : Bool :=
  match m with
  | .referee => false
  | .pf | .hart _ => !(alwaysAnswers a)
  | _ => true

/-- The mark of the block that an offset lies in: chip block n, or 16 + 16 c + slot; none in reserved space (R8). -/
def blockMark (a : Nat) : Option Nat :=
  if a < 0x1000000 then some (a / 0x100000)
  else if a < 0x2000000 ∨ a ≥ 0x4000000 ∨ a % 0x20000 ≥ 0x12000 then none
  else some (16 + 16 * ((a - 0x2000000) / 0x20000) + a % 0x20000 / 0x2000)

/-- Is the block of the offset wedged (R363)? -/
def State.isWedged (s : State) (a : Nat) : Bool := (blockMark a).any (fun n => s.referee.wedged.contains n)

/-- Bytes [a % 8, a % 8 + n) of a register's value. -/
def halfOf (w : Word) (a n : Nat) : Nat := bitsAt w.toNat (8 * (a % 8)) (8 * n)

/-- The mailbox channel whose registers the offset names. -/
def mbxChannelOf (a : Nat) : Option Nat :=
  if Reg.mbxChMsg 0 0 ≤ a ∧ a < Reg.mbxChMsg 32 0 then some ((a - Reg.mbxChMsg 0 0) / 0x100) else none

/-- The state after a read of a register that reached its block, with its value: mailbox rights, R416, and the field that a
read of SYN_WAITERS clears. -/
def State.blockRead (s : State) (m : Master) (a n : Nat) : State × Nat :=
  let id := s.masterId m
  let r := a / 8 * 8
  let plain := (s, halfOf (s.view r) a n)
  match mbxChannelOf a with
  | some c =>
    if s.mbxUsable c ∧ (id = s.mbxSender c ∨ id = s.mbxReceiver c) then plain else (s.mbxDenied c id false, 0)
  | none =>
    if s.mayRead m r = false then (s.privDenied id (s.masterPart m) r, 0)
    else if r = Reg.synWaiters ∧ a % 8 = 0 then (s.wr .synWaitersPeak 0, plain.2)
    else plain

/-- The context page of the VF of partition `p`: the BAR0 offset that page offset `a` shows, none where it reads zero (R300). -/
def vfPage (p a : Nat) : Option Nat := if a < 0x100 ∧ p < 16 then some (0x702000 + 0x100 * p + a) else none

/-- The state after a read of `n` bytes of register space, with the bytes it returns (R7, R8, R353, R358, R363, R404). -/
def State.busRead (s : State) (m : Master) (a n : Nat) : State × Nat :=
  if s.referee.power = false then (s, onesOf n)
  else if accessOk a n = false then (s.count (Reg.hifCnt 0) 1, onesOf n)
  else if gated m a && !(s.rdBit .refReadyReady) then (s.gateCount, onesOf n)
  else
    match m with
    | .vf p =>
      match vfPage p a with
      | none => (s, 0)
      | some r => if s.isWedged r then (s.count (Reg.refCnt 1) 1, onesOf n) else (s, halfOf (s.view (r / 8 * 8)) r n)
    | _ =>
      if s.isWedged a then (s.count (Reg.refCnt 1) 1, onesOf n)
      else if m ≠ .pf ∧ a / 8 * 8 = Reg.trcDmi then (s, 0)
      else s.blockRead m a n

/-! ## The DMA agents (R428) -/

/-- The part of the access [o, o + n) in the 8-byte word `w`, as (offset, bytes). -/
def wordPart (o n w : Nat) : Nat × Nat :=
  let lo := max o (8 * w)
  (lo, min (o + n) (8 * w + 8) - lo)

/-- The state after an agent's read of `n` bytes of register space from offset `o`, word by word, with the bytes. -/
def State.agentRead (s : State) (m : Master) (o n : Nat) : State × List (BitVec 8) :=
  (List.range ((o + n + 7) / 8 - o / 8)).foldl (fun (acc : State × List (BitVec 8)) i =>
    let p := wordPart o n (o / 8 + i)
    let r := acc.1.busRead m p.1 p.2
    (r.1, acc.2 ++ bytesOfNat p.2 r.2)) (s, [])

/-- The state after an agent's write of bytes to register space: each word goes to its register by a write of its own. -/
def State.agentWrite (s : State) (part o : Nat) (bs : List (BitVec 8)) : State :=
  let n := bs.length
  (List.range ((o + n + 7) / 8 - o / 8)).foldl (fun (s : State) i =>
    let p := wordPart o n (o / 8 + i)
    (s.setPosted (s.posted ++ [⟨part, p.1, p.2, natOfBytes ((bs.drop (p.1 - o)).take p.2)⟩]))) s

/-- Do the `n` bytes from `a` up lie in register space? -/
def inRegSpace (a n : Nat) : Bool := decide (regSpace ≤ a ∧ a + n ≤ regSpace + 0x4000000)

end Sys2Proof.Machine
end

