-- ==== Sys2Proof/Machine/Dma.lean ====
section
/-!
DEFINITION. The transfer engine (chapter 11): block and byte transfers (R273 to R276), tier-3 reads and their escalation
(R275), completion (R277, R278), pausing and aborting (R279, R280), and the chip channels (R284 to R286).
-/
namespace Sys2Proof.Machine

/-! ## Recovery of weights: its beginning (R293, R294) -/

/-- The recovery of an object, if one is in progress. -/
def State.recovery (s : State) (o : Nat) : Option Recovery := s.recoveries.find? (fun r => decide (r.object = o))

/-- The layers of a feed that are in flight, and the next one (R294). -/
def State.feedLayers (s : State) (f : Nat) : List Nat :=
  ((s.feed f).layers.filter (fun l => !l.waiting.isEmpty)).map (fun l => l.q) ++ [s.rd (.cadFeedShapeNextFetch f)]

/-- Does a feed have a piece that names the object, in a layer in flight or the next one? -/
def State.feedNames (s : State) (f o : Nat) : Bool :=
  (s.feedLayers f).any (fun q => (List.range (s.pieceCount f q)).any (fun j => xfReads (s.pieceDesc f q j) o))

/-- The feeds of a partition that are RUNNING or HELD and name the object. -/
def State.feedsNaming (s : State) (p o : Nat) : List Nat :=
  (List.range 64).filter (fun f => s.rdBit (.cadFeedCtrlEnable f) && decide (s.rd (.cadFeedCtrlPartition f) = p) &&
    decide (s.rd (.cadFeedCtrlState f) = 1 ∨ s.rd (.cadFeedCtrlState f) = 2) && s.feedNames f o)

/-- The state with every transfer of a channel that reads the object held (R294). -/
def State.holdTransfers (s : State) (o : Nat) : State :=
  s.chans.foldl (fun s p =>
    match p.2.xfer with
    | none => s
    | some x =>
      if p.1 < 1088 ∧ xfReads x.desc o = true then
        let st := s.chanState p.1
        if st = 1 then s.setChanState p.1 5
        else if st = 2 ∨ st = 3 then s.modChan p.1 (fun k => { k with prior := 5 })
        else s
      else s) s

/-- The units of an object that no mode reads. -/
def State.lostUnits (s : State) (o : Nat) : List Nat :=
  match s.object o with
  | none => []
  | some x => (List.range (ceilDiv x.length 4096)).filter (fun u => decide (s.unitMode o u x = 3))

/-- The state after a unit of a Z-pack object was found unreadable: the object's recovery begins, unless it is in progress;
none where 64 recoveries are (R293). -/
def State.beginRecovery (s : State) (o offset : Nat) : Option State :=
  match s.recovery o with
  | some _ => some s
  | none =>
    if s.recoveries.length ≥ 64 then none
    else
      let p := ((s.object o).map (fun x => x.part)).getD noPart
      let feeds := s.feedsNaming p o
      let r : Recovery := { object := o, part := p, units := s.lostUnits o, start := s.dtime, step := 1, alt := 0, buf := [],
                            altFailed := false, asked := false, supplied := false }
      let s := (s.setRecoveries (s.recoveries ++ [r]))
      let s := feeds.foldl (fun s f => s.wr (.cadFeedCtrlState f) 2) s
      let s := (s.raise .xfrWeightHold unitReferee p (payload [(16, 4, o), (20, 8, offset), (28, 1, feeds.length)])).count
        (Reg.cadCnt 3) 1
      some (s.holdTransfers o)

/-! ## Reading -/

/-- What a read of a unit of the source gives. -/
inductive Fetch where
  /-- The bytes, the trailer of a block, and whether a line of them is poisoned (R248). -/
  | data (bs : List (BitVec 8)) (trailer : Nat) (poisoned : Bool)
  /-- A read from another chip is under way. -/
  | wait
  /-- The transfer fails with a code. -/
  | stop (code : Nat)
  /-- The transfer is held by the recovery of its object. -/
  | hold
  deriving DecidableEq, Repr

/-- The master that an agent is on register space (R428). -/
def Accessor.master : Accessor → Master
  | .part p => .agent p
  | _ => .referee

/-- The state after an agent's read of `n` bytes of this chip, poisoned or not, and the code of its failure. -/
def State.dmaFetch (s : State) (a : Agent) (addr n hint : Nat) : State × Option Nat :=
  let w := s.agentWho a
  let u := s.agentUnit a
  let r := s.checkRange w addr n false
  match r.1.code with
  | some code => (s.refuseAccess code sevFailed u w r.2 false, some code.val)
  | none =>
    if anyMarked s.bad addr n then
      (s.raiseAs .intParity sevFailed u (s.agentPart a) (payload [(16, 8, addr), (24, 1, 1)]), some Code.intParity.val)
    else (s.cacheReads addr n hint, none)

/-- The same of a consumer that fails at a poisoned line: everything but a transfer of tensor blocks (R248). -/
def State.dmaRead (s : State) (a : Agent) (addr n hint : Nat) : State × Option Nat :=
  let r := s.dmaFetch a addr n hint
  if r.2.isNone && s.poisoned addr n then
    (r.1.raiseAs .memUncorrectable sevFailed (s.agentUnit a) (s.agentPart a) (payload [(16, 8, addr), (24, 1, tierNo addr)]),
      some Code.memUncorrectable.val)
  else r

/-- The state after a read of a unit of tier 3 has ended in mode `m` (0 NORMAL, 1 RETRY, 2 RECONSTRUCT, 3 none): the counters of the
modes it went through (R268, R275). -/
def State.countModes (s : State) (m : Nat) : State :=
  let s := if m ≥ 1 then s.count (Reg.memCnt 4) 1 else s
  let s := if m ≥ 2 then s.count (Reg.memCnt 5) 1 else s
  if m ≥ 3 then s.count (Reg.memCnt 6) 1 else s

/-- The payload of the events about a unit of an object (Tables 10-9 and 11-10). -/
def unitPayload (x : FlashObj) (o u mode : Nat) : Nat :=
  payload [(16, 4, o), (20, 8, 4096 * u), (28, 1, x.channel o u), (29, 1, mode)]

/-- The state after the units of an object that hold `n` bytes from an offset have been read (R275): the first one that no
mode reads, if there is one; `unit` and `p` are those of the events. -/
def State.readUnitsAs (s : State) (unit p o : Nat) (x : FlashObj) : List Nat → State × Option Nat
  | [] => (s, none)
  | u :: t =>
    let m := s.unitMode o u x
    let s := s.countModes m
    if m = 3 then (s, some u)
    else
      let s := if m = 0 then s else s.raise .xfrT3Recovered unit p (unitPayload x o u m)
      State.readUnitsAs s unit p o x t

/-- The same for an agent of a transfer. -/
def State.readUnits (s : State) (a : Agent) (o : Nat) (x : FlashObj) (us : List Nat) : State × Option Nat :=
  s.readUnitsAs (s.agentUnit a) (s.agentPart a) o x us

/-- The 4 KiB units that hold `n` bytes from an offset. -/
def unitsOf (off n : Nat) : List Nat := if n = 0 then [] else
  (List.range ((off + n + 4095) / 4096 - off / 4096)).map (fun i => off / 4096 + i)

/-- The state after the refusal of an access to an object (Tables 10-6 and 10-9). -/
def State.refuseObject (s : State) (a : Agent) (o : Nat) (c : Code) (reason : Nat) : State :=
  let u := s.agentUnit a
  let p := s.agentPart a
  if c = .memAccessDenied then
    (s.raiseAs c sevFailed u p (payload [(16, 8, o), (25, 1, p)])).count (Reg.memCnt 9) 1
  else s.raise c u p (payload [(16, 4, o), (20, 1, reason)])

/-- The state after an agent's read of ranges (offset, bytes) of an object: `none`, or how it ends otherwise. -/
def State.objectRead (s : State) (a : Agent) (o : Nat) (ranges : List (Nat × Nat)) : State × Option Fetch :=
  match s.objectRefusal o 0 0 (s.agentObjectPart a) with
  | some r => (s.refuseObject a o r.1 r.2, some (.stop r.1.val))
  | none =>
    match s.object o with
    | none => (s, none)
    | some x =>
      if ranges.any (fun r => decide (r.1 + r.2 > x.length)) then
        (s.refuseObject a o .memObjectUnknown 1, some (.stop Code.memObjectUnknown.val))
      else if x.type = 2 ∧ (s.recovery o).isSome then (s, some .hold)
      else
        let r := s.readUnits a o x (ranges.flatMap (fun r => unitsOf r.1 r.2)).eraseDups
        match r.2 with
        | none => (r.1, none)
        | some u =>
          if x.type = 2 then
            match r.1.beginRecovery o (4096 * u) with
            | some s => (s, some .hold)
            | none => ((r.1.count (Reg.cadCnt 6) 1).raise .memObjectLost (s.agentUnit a) (s.agentPart a)
                (payload [(16, 4, o), (20, 8, 4096 * u)]), some (.stop Code.memObjectLost.val))
          else (r.1.raise .memT3Uncorrectable (s.agentUnit a) (s.agentPart a) (unitPayload x o u 2), some (.stop Code.memT3Uncorrectable.val))

/-- The 16 bytes of a trailer as a number, and the bytes of an object. -/
def objectBytes (x : FlashObj) (off n : Nat) : List (BitVec 8) := Mem.readBytes x.bytes off n

/-! ### From another chip -/

/-- The aligned read requests (address, 32-byte units, place) that cover [a, a + n): at most 16 units each. -/
def readParts (a n place : Nat) : List (Nat × Nat × Nat) :=
  let lo := a / 32 * 32
  let units := (a + n + 31) / 32 - a / 32
  (List.range (ceilDiv units 16)).map (fun i => (lo + 512 * i, min 16 (units - 16 * i), place + 512 * i))

/-- The place in a transfer's buffer of the trailer's granule. -/
def trailerPlace : Nat := 8192

/-- The state after the read requests of a unit have been sent to another chip (R332). Remote reads use NORMAL (R256). -/
def State.askRemote (s : State) (x : Xfer) (chip : Nat) (parts : List (Nat × Nat × Nat)) : State :=
  parts.foldl (fun s p =>
    s.request (s.agentUnit x.agent)
      { tag := 0, agent := x.agent, serial := x.serial, dst := chip, type := 0x10, addr := p.1, bytes := 32 * p.2.1,
        place := p.2.2, got := 0, sent := 0 } 0 (p.1 + p.2.1 * 2 ^ 56) 0) s

/-- The outstanding requests of a transfer: reads, or writes. -/
def State.openReqs (s : State) (x : Xfer) (write : Bool) : List Req :=
  s.reqs.filter (fun r => decide (r.agent = x.agent ∧ r.serial = x.serial) &&
    (if write then decide (r.type = 0x11 ∨ r.type = 0x12) else decide (r.type = 0x10 ∨ r.type = 0x13)))

/-! ### One unit -/

/-- The number of bytes of the unit of a BYTES transfer that begins `done` bytes in: up to the next 4 KiB boundary of the
destination. -/
def byteUnit (w done : Nat) : Nat := min (4096 - (xfDst w + done) % 4096) (xfCount w - done)

/-- The payload of MEM_ZPACK_CORRUPT. -/
def State.raiseZpack (s : State) (a : Agent) (w block reason : Nat) : State :=
  s.raise .memZpackCorrupt (s.agentUnit a) (s.agentPart a) (payload [(16, 4, xfObject w), (20, 8, block), (28, 1, reason)])

/-- The ranges of a Z-pack object that record `b` takes: index entry, trailer, record. -/
def zRanges (rd : Nat → Nat) (h : ZHeader) (b : Nat) : List (Nat × Nat) :=
  [(h.index + 4 * b, 4), (h.trailer + 16 * b, 16), zRecord rd h b]

/-- The state after ranges (offset, bytes) of a Z-pack source have been read, and how the transfer ends otherwise. -/
def State.readRanges (s : State) (a : Agent) (w : Nat) (l : List (Nat × Nat)) : State × Option Fetch :=
  if xfSpace w = 2 then s.objectRead a (xfObject w) l
  else l.foldl (fun (acc : State × Option Fetch) r => match acc.2 with
    | some _ => acc
    | none =>
      let y := acc.1.dmaFetch a (xfSrc w % 2 ^ 48 + r.1) r.2 (xfHint w)
      (y.1, y.2.map Fetch.stop)) (s, none)

/-- Is one of the ranges of a Z-pack source poisoned? -/
def State.rangesPoisoned (s : State) (w : Nat) (l : List (Nat × Nat)) : Bool :=
  decide (xfSpace w = 1) && l.any (fun r => s.poisoned (xfSrc w % 2 ^ 48 + r.1) r.2)

/-- The state after record `b` of a Z-pack source has been read and expanded: a record that the decompressor rejects is read once
more, and fails the transfer if the rejection repeats (R274). -/
def State.fetchRecord (s : State) (x : Xfer) (b : Nat) : State × Fetch :=
  let w := x.desc
  let a := x.agent
  let rd := s.zRead w
  let h := zHeader rd
  let l := zRanges rd h b
  let r := s.readRanges a w l
  match r.2 with
  | some f => (r.1, f)
  | none =>
    match zExpand rd h b (decide (xfFormat w ≠ h.format)) with
    | .ok bs => (r.1.count (Reg.memCnt 10) 1, .data bs (zNat rd (h.trailer + 16 * b) 16) (s.rangesPoisoned w l))
    | .error e =>
      let y := r.1.readRanges a w l
      match y.2 with
      | some f => (y.1, f)
      | none => ((y.1.raiseZpack a w b e).count (Reg.memCnt 11) 1, .stop Code.memZpackCorrupt.val)

/-- The state after block `j` of a Z-pack source has been read: the header first, once per transfer (R274). -/
def State.fetchZpack (s : State) (x : Xfer) (j : Nat) : State × Fetch :=
  let w := x.desc
  let r := if j = 0 ∧ x.tries = 0 then s.readRanges x.agent w [(0, 4096)] else (s, none)
  match r.2 with
  | some f => (r.1, f)
  | none =>
    if j = 0 ∧ zHeaderOk (s.zRead w) = false then (r.1.raiseZpack x.agent w (xfFirst w) 4, .stop Code.memZpackCorrupt.val)
    else r.1.fetchRecord x (xfFirst w + j)

/-- The state after `n` bytes of the source and, for a block, its trailer at `ta` have been read from addresses: a BYTES transfer
reads the whole 32-byte granules that cover them (R276). -/
def State.fetchAddr (s : State) (x : Xfer) (sa n ta : Nat) : State × Fetch :=
  let w := x.desc
  let a := x.agent
  let chip := sa / 2 ^ 48
  if s.isLocal chip ∧ xfBlocks w = false ∧ inRegSpace (sa % 2 ^ 48) n = true then
    let r := s.agentRead (s.agentWho a).master (sa % 2 ^ 48 - regSpace) n
    (r.1, .data r.2 0 false)
  else if s.isLocal chip then
    let p := sa % 2 ^ 48
    if xfBlocks w then
      let r := s.dmaFetch a p n (xfHint w)
      match r.2 with
      | some code => (r.1, .stop code)
      | none =>
        let t := ta % 2 ^ 48
        let y := r.1.dmaFetch a t 16 (xfHint w)
        match y.2 with
        | some code => (y.1, .stop code)
        | none => (y.1, .data (s.bytes p n) (s.memNat t 16) (s.poisoned p n || s.poisoned t 16))
    else
      let r := s.dmaRead a (p / 32 * 32) ((p + n + 31) / 32 * 32 - p / 32 * 32) (xfHint w)
      match r.2 with
      | some code => (r.1, .stop code)
      | none => (r.1, .data (s.bytes p n) 0 false)
  else if x.asked then
    if (s.openReqs x false).isEmpty then
      (s, .data (Mem.readBytes x.buf (sa % 32) n) (natOfBytes (Mem.readBytes x.buf (trailerPlace + ta % 32) 16)) false)
    else (s, .wait)
  else
    let parts := readParts (sa % 2 ^ 48) n 0 ++ (if xfBlocks w then readParts (ta % 2 ^ 48) 16 trailerPlace else [])
    let m := s.message 0x10 0 chip 0 (sa % 2 ^ 48) 0
    if s.canRoute m then (s.askRemote x chip parts, .wait)
    else (s.unreachable sevFailed (s.agentPart a) m, .stop Code.lnkUnreachable.val)

/-- The state after the next unit of the source has been read. -/
def State.fetchUnit (s : State) (x : Xfer) : State × Fetch :=
  let w := x.desc
  let j := x.moved
  if xfZpack w then s.fetchZpack x j
  else
    let n := if xfBlocks w then 4096 else byteUnit w j
    let o := xfSrc w + (if xfBlocks w then 4096 * j else j)
    let t := xfSrcTrailer w + 16 * j
    if xfSpace w = 3 then
      let r := s.objectRead x.agent (xfObject w) ((o, n) :: (if xfBlocks w then [(t, 16)] else []))
      match r.2, s.object (xfObject w) with
      | some f, _ => (r.1, f)
      | none, some y => (r.1, .data (objectBytes y o n) (if xfBlocks w then natOfBytes (objectBytes y t 16) else 0) false)
      | none, none => (r.1, .stop Code.memObjectUnknown.val)
    else s.fetchAddr x o n t

/-! ## Writing -/

/-- The state after an agent's write of bytes into this chip, and the code of its refusal. -/
def State.dmaWrite (s : State) (a : Agent) (addr hint : Nat) (bs : List (BitVec 8)) : State × Option Nat :=
  let w := s.agentWho a
  let r := s.checkRange w addr bs.length true
  match r.1.code with
  | some code => (s.refuseAccess code sevFailed (s.agentUnit a) w r.2 true, some code.val)
  | none => ((s.store addr bs).cacheWrites addr bs.length hint, none)

/-- The write messages (type, address, data units, data) that carry bytes to another chip: whole granules, 16 at most, and
masked writes for granules that are not filled (R276, Table 13-5). -/
def writeParts : Nat → Nat → List (BitVec 8) → List (Nat × Nat × Nat × Nat)
  | 0, _, _ => []
  | f + 1, a, bs =>
    if bs.isEmpty then []
    else
      let o := a % 32
      if o = 0 ∧ bs.length ≥ 32 then
        let u := min 16 (bs.length / 32)
        (0x11, a, u, natOfBytes (bs.take (32 * u))) :: writeParts f (a + 32 * u) (bs.drop (32 * u))
      else
        let k := min (32 - o) bs.length
        (0x12, a - o, 2, (2 ^ k - 1) * 2 ^ o + natOfBytes (bs.take k) * 2 ^ (256 + 8 * o)) ::
          writeParts f (a + k) (bs.drop k)

/-- The state after an agent's write of bytes to a global address. -/
def State.dmaWriteTo (s : State) (x : Xfer) (g : Nat) (bs : List (BitVec 8)) : State × Option Nat :=
  let chip := g / 2 ^ 48
  let a := g % 2 ^ 48
  if s.isLocal chip ∧ xfBlocks x.desc = false ∧ inRegSpace a bs.length = true then
    (s.agentWrite (s.agentPart x.agent) (a - regSpace) bs, none)
  else if s.isLocal chip then s.dmaWrite x.agent a (xfHint x.desc) bs
  else
    let m := s.message 0x11 0 chip 0 a 0
    if s.canRoute m then
      ((writeParts (bs.length + 1) a bs).foldl (fun s p =>
        s.request (s.agentUnit x.agent)
          { tag := 0, agent := x.agent, serial := x.serial, dst := chip, type := p.1, addr := p.2.1, bytes := 32 * p.2.2.1,
            place := 0, got := 0, sent := 0 } p.2.2.1 p.2.1 p.2.2.2) s, none)
    else (s.unreachable sevFailed (s.agentPart x.agent) m, some Code.lnkUnreachable.val)

/-- The state with bytes of an object of tier 3 written by a referee channel (R258). The trailers of a 4 KiB unit are followed by
zeros (R273). -/
def State.objectWrite (s : State) (o off : Nat) (bs : List (BitVec 8)) (trailer : Bool) : State :=
  match s.object o with
  | none => s
  | some y =>
    let u := off / 4096
    s.setObject o { y with
      bytes := Mem.writeBytes y.bytes off (if trailer then bs ++ List.replicate (4096 - off % 4096 - bs.length) 0 else bs)
      trailed := (if trailer = true ∧ y.trailed.contains u = false then u :: y.trailed else y.trailed) }

/-- The state after a unit has been written to every destination, with its trailer for a block. -/
def State.writeUnit (s : State) (x : Xfer) (bs : List (BitVec 8)) (trailer : Nat) : State × Option Nat :=
  let w := x.desc
  let j := x.moved
  let off := if xfBlocks w then 4096 * j else j
  let tb := bytesOfNat 16 trailer
  (s.xferDests x.agent w).foldl (fun (acc : State × Option Nat) d =>
    match acc.2 with
    | some _ => acc
    | none =>
      if xfToObject w then
        match s.objectRefusal (xfObject w) 0 0 none with
        | some r =>
          if r.1 = .memObjectBusy then
            let s := acc.1.objectWrite (xfObject w) (d.1 + off) bs false
            ((if xfBlocks w then s.objectWrite (xfObject w) (d.2 + 16 * j) tb true else s), none)
          else (acc.1.refuseObject x.agent (xfObject w) r.1 r.2, some r.1.val)
        | none =>
          let s := acc.1.objectWrite (xfObject w) (d.1 + off) bs false
          ((if xfBlocks w then s.objectWrite (xfObject w) (d.2 + 16 * j) tb true else s), none)
      else
        let r := acc.1.dmaWriteTo x (d.1 + off) bs
        match r.2 with
        | some _ => r
        | none => if xfBlocks w then r.1.dmaWriteTo x (d.2 + 16 * j) tb else r) (s, none)

/-! ## Verification (R67, R125, R273) -/

/-- The verification of a block and its trailer at the destination side. -/
def checkBlock (bs : List (BitVec 8)) (trailer id format scaleCtrl : Nat) : BlockCheck :=
  if bitsAt trailer 0 64 ≠ (crc64 bs).toNat then (if bitsAt trailer 96 8 = 0 then .poisoned else .check)
  else if bitsAt trailer 64 32 ≠ id then .id
  else if bitsAt trailer 96 8 ≠ format ∨ bitsAt trailer 104 8 ≠ scaleCtrl then .format
  else .ok

/-- The poisoned trailer over the bytes written (R125). -/
def poisonTrailer (bs : List (BitVec 8)) (trailer : Nat) : Nat :=
  (~~~ (crc64 bs)).toNat + bitsAt trailer 64 32 * 2 ^ 64 + bitsAt trailer 104 8 * 2 ^ 104

/-- What a step of a transfer comes to. -/
inductive Moved where
  | more
  | wait
  | hold
  | fail (code : Nat)
  deriving DecidableEq, Repr

/-- The global address of the destination of block `j`, and the payload of the events about it (Table 5-6). -/
def State.blockEvent (s : State) (x : Xfer) (trailer : Nat) : Nat :=
  let d := ((s.xferDests x.agent x.desc).headD (0, 0)).1
  let g := if xfToObject x.desc then d else if s.isLocal (d / 2 ^ 48) then s.global (d % 2 ^ 48) else d
  blockPayload (g + 4096 * x.moved) ((xfBlockId x.desc + x.moved) % 2 ^ 32) (bitsAt trailer 64 32)

/-- The granule that holds the last byte of a unit just written, for read-back: its address, or its offset in the object, and its
bytes where it lies on this chip (R278). -/
def State.lastGranule (s : State) (x : Xfer) (n : Nat) : Option (Nat × List (BitVec 8)) :=
  ((s.xferDests x.agent x.desc).getLast?).map (fun d =>
    let a := (if xfBlocks x.desc then d.2 + 16 * x.moved + 15 else d.1 + x.moved + n - 1) / 32 * 32
    (a, if xfToObject x.desc ∨ s.isLocal (a / 2 ^ 48) = false then [] else s.bytes (a % 2 ^ 48) 32))

/-- The state after a unit that passed its verification has been written: the transfer as it then stands. -/
def State.passUnit (s : State) (x : Xfer) (bs : List (BitVec 8)) (trailer : Nat) : State × Xfer × Moved :=
  let r := s.writeUnit x bs trailer
  match r.2 with
  | some code => (r.1, x, .fail code)
  | none =>
    let n := bs.length
    let s := r.1.countChan x.agent 0 (n + (if xfBlocks x.desc then 16 else 0))
    let s := if xfBlocks x.desc then s.countChan x.agent 1 1 else s
    let last := s.lastGranule x n
    (s, { x with moved := x.moved + (if xfBlocks x.desc then 1 else n), buf := [], asked := false, tries := 0, last := last },
      .more)

/-- The state after a block that failed its verification for good has been written with a trailer, and the transfer has
failed with a code. -/
def State.failUnit (s : State) (x : Xfer) (bs : List (BitVec 8)) (trailer code : Nat) : State × Xfer × Moved :=
  let r := s.writeUnit x bs trailer
  ((r.1.countChan x.agent 0 4112).countChan x.agent 3 1, x, .fail code)

/-- The state after a block of a source of this chip has been read twice more, in vain (R125). -/
def State.rereadUnit (s : State) (x : Xfer) : State :=
  let y := { x with tries := 1 }
  ((s.fetchUnit y).1.fetchUnit y).1

/-- The state after a block has been verified (R273): `again` holds the event of a read of it that is known to be disturbed once;
a poisoned line counts as a CHECK failure (R248). -/
def State.verifyUnit (s : State) (x : Xfer) (again : Option Code) (poisoned : Bool) (bs : List (BitVec 8)) (trailer : Nat) :
    State × Xfer × Moved :=
  let w := x.desc
  let u := s.agentUnit x.agent
  let p := s.agentPart x.agent
  let pay := s.blockEvent x trailer
  let remote := decide (xfSpace w = 0) && !(s.isLocal (xfSrc w / 2 ^ 48))
  let bad (code : Code) (kind : Nat) : State × Xfer × Moved :=
    if remote ∧ x.tries % 4 < 2 then (s, { x with asked := false, buf := [], tries := x.tries % 4 + 1 + 4 * kind }, .wait)
    else ((if remote then s else s.rereadUnit x).raiseAs code sevFailed u p pay).failUnit x bs (poisonTrailer bs trailer) code.val
  match (if poisoned then .check else checkBlock bs trailer ((xfBlockId w + x.moved) % 2 ^ 32) (xfFormat w) (xfScale w)) with
  | .ok =>
    let recovered := if x.tries % 4 ≠ 0 then some (if x.tries / 4 = 1 then Code.intBlockId else .intCheckFail) else again
    let s := match recovered with
      | some code => (s.raiseAs code sevRecovered u p pay).countChan x.agent 2 1
      | none => s
    s.passUnit x bs trailer
  | .check => bad .intCheckFail 0
  | .id => bad .intBlockId 1
  | .poisoned => (s.raiseAs .intPoisoned sevFailed u p pay).failUnit x bs trailer Code.intPoisoned.val
  | .format => (s.raiseAs .numFormatMismatch sevFailed u p (payload [(16, 8, x.da), (24, 8, x.moved)])).failUnit x bs trailer
      Code.numFormatMismatch.val

/-- The place by which `Hw.reread` names the block that a transfer moves next. -/
def Xfer.blockPlace (x : Xfer) : Nat :=
  let w := x.desc
  if xfZpack w then 4096 * (xfFirst w + x.moved) else if xfSpace w = 3 then xfSrc w + 4096 * x.moved
  else xfSrc w % 2 ^ 48 + 4096 * x.moved

/-- The event of a block that the hardware is known to read badly once. -/
def Xfer.disturbed (x : Xfer) (hw : List Hw) : Option Code :=
  if hw.contains (Hw.reread x.blockPlace) then some .intCheckFail
  else if hw.contains (Hw.rereadId x.blockPlace) then some .intBlockId else none

/-- The state after the next unit of a transfer has been moved. -/
def State.moveUnit (s : State) (x : Xfer) (hw : List Hw) : State × Xfer × Moved :=
  let w := x.desc
  let r := s.fetchUnit x
  match r.2 with
  | .wait => (r.1, { x with asked := true }, .wait)
  | .hold => (r.1, x, .hold)
  | .stop code => (r.1, x, .fail code)
  | .data bs trailer poisoned =>
    if xfBlocks w then r.1.verifyUnit x (x.disturbed hw) poisoned bs trailer
    else r.1.passUnit x bs trailer

/-- The state after up to `n` units of a transfer have been moved. -/
def State.moveUnits (hw : List Hw) : Nat → State → Xfer → State × Xfer × Moved
  | 0, s, x => (s, x, .more)
  | n + 1, s, x =>
    if x.moved ≥ xfCount x.desc then (s, x, .more)
    else
      let r := s.moveUnit x hw
      match r.2.2 with
      | .more => State.moveUnits hw n r.1 r.2.1
      | _ => r

/-! ## Physical errors -/

/-- The state after the parity and line errors that the hardware brings to a transfer, and the code of the one that fails
it (R121). -/
def State.applyHwTo (s : State) (u p : Nat) : List Hw → State × Nat
  | [] => (s, 0)
  | .path :: t => (s.raiseAs .intParity sevRecovered u p (payload [])).applyHwTo u p t
  | .pathFail :: _ => (s.raiseAs .intParity sevFailed u p (payload []), Code.intParity.val)
  | .cellOnce a :: t => (s.raiseAs .intParity sevRecovered u p (payload [(16, 8, a), (24, 1, 1)])).applyHwTo u p t
  | .cell a :: t => State.applyHwTo (s.setBad (Sparse.insert a true s.bad)) u p t
  | .line a e :: t => (s.lineError a e).applyHwTo u p t
  | .unit o n m :: t => (s.weaken o n m).applyHwTo u p t
  | .cacheLine a :: t => (s.cacheParity a).applyHwTo u p t
  | _ :: t => s.applyHwTo u p t

/-! ## Ending a transfer -/

/-- The state after the transfer of an agent has ended with a code: a core channel's command is executed; a chip channel's
entry or a piece waits to be closed. -/
def State.endXfer (s : State) (x : Xfer) (code : Nat) : State :=
  let key := x.agent.key
  match x.agent with
  | .core c _ =>
    let s := (s.modChan key (fun k => { k with xfer := none, unpause := false })).wr (.dmaChStatusLastCode (chanBase key)) code
    let s := s.setChanState key (if s.rdBit (.dmaChCtrlPause (chanBase key)) then 3 else 0)
    (s.modChan key (fun k => { k with prior := 0 })).executed c x.token code
  | .chip _ =>
    (s.modChan key (fun k => { k with xfer := none, unpause := false, ended := some (code, x) })).wr
      (.dmaChStatusLastCode (chanBase key)) code
  | _ => s.modChan key (fun k => { k with xfer := none, ended := some (code, x) })

/-- The state with the requests of a transfer forgotten: a late response finds nothing. -/
def State.dropReqs (s : State) (x : Xfer) : State :=
  (s.setReqs (s.reqs.filter (fun r => !(decide (r.agent = x.agent ∧ r.serial = x.serial)))))

/-- The state after a transfer has failed. -/
def State.failXfer (s : State) (x : Xfer) (code : Nat) : State := (s.dropReqs x).endXfer x code

/-- The state after up to `n` units of the transfer of channel `key` have been moved, with the errors of the hardware. -/
def State.runXfer (s : State) (key : Nat) (hw : List Hw) (n : Nat) : State :=
  match (s.chan key).xfer with
  | none => s
  | some x =>
    let h := s.applyHwTo (s.agentUnit x.agent) (s.agentPart x.agent) hw
    if h.2 ≠ 0 then h.1.failXfer x h.2
    else
      match x.failed with
      | some code => h.1.failXfer x code
      | none =>
        let r := State.moveUnits hw n h.1 x
        match r.2.2 with
        | .fail code => r.1.failXfer r.2.1 code
        | .hold =>
          let s := r.1.modChan key (fun k => { k with xfer := some r.2.1 })
          if key < 1088 then s.setChanState key 5 else s
        | _ => r.1.modChan key (fun k => { k with xfer := some r.2.1 })

/-- The state with a transfer begun on an agent: its descriptor is checked first (R272). -/
def State.startXfer (s : State) (a : Agent) (token da w : Nat) : State :=
  let x : Xfer := { agent := a, serial := s.serial, token := token, da := da, desc := w, moved := 0, buf := [], asked := false,
                    tries := 0, last := none, held := none, failed := none }
  let s := (s.setSerial (s.serial + 1))
  match s.xfReason a w with
  | some r =>
    let y := s.raiseXferDesc a da w r
    y.1.endXfer x y.2
  | none =>
    let s := s.modChan a.key (fun k => { k with xfer := some x })
    match a with
    | .core _ _ | .chip _ => s.setChanState a.key 1
    | _ => s

/-! ## Completion (R277, R278) -/

/-- Must every write be acknowledged before the transfer completes? -/
def State.needsAcks (s : State) (x : Xfer) : Bool :=
  xfBarrier x.desc || s.rdBit .dmaModeReadback || (match x.agent with
    | .piece _ _ _ => true
    | _ => false)

/-- The state after a transfer all of whose units are moved has completed, if its acknowledgements have come; `mism` is the
number of read-backs in a row that give other bytes than were written. -/
def State.completeXfer (s : State) (key mism : Nat) : State :=
  match (s.chan key).xfer with
  | none => s
  | some x =>
    match x.failed with
    | some code => s.failXfer x code
    | none =>
      if x.moved < xfCount x.desc ∨ (s.needsAcks x = true ∧ (s.openReqs x true).isEmpty = false) then s
      else if s.rdBit .dmaModeReadback = true ∧ mism ≥ 2 then
        match x.last with
        | some g => (s.raise .xfrReadback (s.agentUnit x.agent) (s.agentPart x.agent) (payload [(16, 8, g.1)])).failXfer x
            Code.xfrReadback.val
        | none => s.endXfer x 0
      else s.endXfer x 0

/-- The wait of a chip channel's entry. -/
def State.chanWait (s : State) (n : Nat) : HeadWait := Sparse.get .none s.heads (chanKey n)

/-- Does the entry that channel `key` holds still wait on its sync object, or has it failed there (R286)? -/
def State.entryWaiting (s : State) (key : Nat) : Bool :=
  decide (key ≥ 1024) && (match s.chanWait (key - 1024) with
    | .none | .done => false
    | _ => true)

/-- TRANSFER_COMPLETE: the units that are left move and the transfer of a channel completes. -/
def execTransferComplete (channel : Nat) (hw : List Hw) (mism : Nat) (s : State) : Host.Outcome State Fault Refusal :=
  if channel ≥ 1088 ∨ s.chanState channel ≠ 1 ∨ s.entryWaiting channel = true then .next s
  else
    match (s.chan channel).xfer with
    | none => .next s
    | some x => .next ((s.runXfer channel hw (xfCount x.desc)).completeXfer channel mism)

/-! ## Commands (R282, R283) -/

/-- The state after a channel has begun a DMA_XFER (R282). -/
def State.beginDma (s : State) (c k : Nat) (i : Issued) : State :=
  let s := s.began c i
  let off := dmaOffset i.cmd
  let da := coreWindow c + off
  let reason : Option Nat :=
    if dmaClean i.cmd = false then some 0x01 else if off % 64 ≠ 0 then some 0x02 else if off + 64 > storeSize then some 0x03
    else none
  ifSome reason (fun r =>
      let y := s.raiseXferDesc (.core c k) da 0 r
      (y.1.wr (.dmaChStatusLastCode (dmaCore c k)) y.2).executed c i.token y.2) <|
    if anyMarked s.bad da 64 then
      (s.raiseParity c (engDma k) sevFailed da 1).executed c i.token Code.intParity.val
    else s.startXfer (.core c k) i.token da (s.memNat da 64)

/-- The state after a channel has taken the next command of its queue, if it is idle, and the opcode's (R282). -/
def State.takeDma (s : State) (c k op : Nat) (run : State → Issued → State) : State :=
  match (s.core c).nextOf (.dma k) with
  | none => s
  | some i => if i.opcode = op ∧ i.mayRun = true ∧ s.chanState (coreKey c k) = 0 then run s i else s

/-- DMA_XFER: the head is issued if it is one; the channel takes its next command if it is idle, and moves up to `n` units of
the transfer that it holds. -/
def execDmaXfer (core channel : Nat) (hw : List Hw) (n : Nat) (s : State) : Host.Outcome State Fault Refusal :=
  let k := channel % 4
  let key := coreKey core k
  let s := match (s.core core).head with
    | none => s
    | some w => if cmdEngine w = engDma k then s.tryIssue core 0x40 (.dma k) (s.dmaRegions core) else s
  let s := s.takeDma core k 0x40 (fun s i => s.beginDma core k i)
  .next (if s.chanState key = 1 then s.runXfer key hw n else s)

/-! ## Pausing and aborting (R279, R280) -/

/-- The state with the position registers of a channel exact. -/
def State.setPositions (s : State) (key : Nat) : State :=
  let b := chanBase key
  match (s.chan key).xfer with
  | none => s
  | some x =>
    let w := x.desc
    let off := if xfBlocks w then 4096 * x.moved else x.moved
    let s := s.setReg (Reg.dmaChPos b 0) (BitVec.ofNat 64 x.da)
    let s := s.setReg (Reg.dmaChPos b 1) (BitVec.ofNat 64 (if xfZpack w then xfSrc w else xfSrc w + off))
    let s := s.setReg (Reg.dmaChPos b 2) (BitVec.ofNat 64 (xfDst w + off))
    s.setReg (Reg.dmaChPos b 3) (BitVec.ofNat 64 (xfCount w - x.moved))

/-- DMA_PAUSE: PAUSE of a channel is written 1. -/
def State.pauseChan (s : State) (key : Nat) : State :=
  let s := s.wr (.dmaChCtrlPause (chanBase key)) 1
  let st := s.chanState key
  if st = 1 then (s.modChan key (fun k => { k with prior := 1, unpause := false })).setChanState key 2
  else if st = 2 then s.modChan key (fun k => { k with unpause := false })
  else if st = 0 ∨ st = 5 then ((s.modChan key (fun k => { k with prior := st })).setChanState key 3).setPositions key
  else s

def execDmaPause (channel : Nat) (s : State) : Host.Outcome State Fault Refusal :=
  if s.barShut false then .next (s.barAnswer false) else
  .next (if channel < 1088 then s.pauseChan channel else s)

/-- The state after a paused channel has returned to the state it paused from. -/
def State.unpauseChan (s : State) (key : Nat) : State :=
  (s.modChan key (fun k => { k with unpause := false })).setChanState key
    (if (s.chan key).xfer.isSome then (s.chan key).prior else 0)

/-- DMA_PAUSE_DRAINED: nothing of a PAUSING channel is in flight any more; it enters PAUSED, and leaves it at once if PAUSE
has been written 0. A unit whose read from another chip was under way is verified and written first, with R125's re-reads; a failure
that has come meanwhile fails the transfer. -/
def execDmaPauseDrained (channel : Nat) (s : State) : Host.Outcome State Fault Refusal :=
  if channel ≥ 1088 ∨ s.chanState channel ≠ 2 then .next s
  else
    match (s.chan channel).xfer with
    | none => .next (s.setChanState channel 3)
    | some x =>
      let s := if x.asked = true ∨ x.tries ≠ 0 ∨ x.failed.isSome then s.runXfer channel [] 1 else s
      match (s.chan channel).xfer with
      | none => .next s
      | some y =>
        if y.asked = true ∨ y.tries ≠ 0 ∨ (s.openReqs y true).isEmpty = false then .next s
        else
          let s := (s.setChanState channel 3).setPositions channel
          .next (if (s.chan channel).unpause then s.unpauseChan channel else s)

/-- DMA_RESUME: PAUSE of a channel is written 0. -/
def State.resumeChan (s : State) (key : Nat) : State :=
  let s := s.wr (.dmaChCtrlPause (chanBase key)) 0
  let st := s.chanState key
  if st = 2 then s.modChan key (fun k => { k with unpause := true })
  else if st = 3 then s.unpauseChan key
  else s

def execDmaResume (channel : Nat) (s : State) : Host.Outcome State Fault Refusal :=
  if s.barShut false then .next (s.barAnswer false) else
  .next (if channel < 1088 then s.resumeChan channel else s)

/-- DMA_ABORT: ABORT of a channel is written 1 (R280). -/
def execDmaAbort (channel : Nat) (s : State) : Host.Outcome State Fault Refusal :=
  if s.barShut false then .next (s.barAnswer false) else
  if channel ≥ 1088 then .next s
  else if s.chanState channel ≠ 3 then .next (s.count (Reg.dmaChCnt (chanBase channel) 5) 1)
  else
    match (s.chan channel).xfer with
    | none => .next s
    | some x =>
      let a := x.agent
      let s := if channel ≥ 1024 then
          (s.dropWaiter (.chipChannel (channel - 1024))).setHeads (Sparse.put .none (chanKey (channel - 1024)) .none s.heads)
        else s
      .next ((s.raise .xfrAborted (s.agentUnit a) (s.agentPart a)
        (payload [(16, 8, x.da), (24, 8, xfCount x.desc - x.moved)])).failXfer x Code.xfrAborted.val)

/-- DMA_RESTART: RESTART of a chip channel is written 1: it leaves STOPPED (R286). -/
def execDmaRestart (channel : Nat) (s : State) : Host.Outcome State Fault Refusal :=
  if s.barShut false then .next (s.barAnswer false) else
  if channel < 1024 ∨ channel ≥ 1088 ∨ s.chanState channel ≠ 4 then .next s
  else .next (s.setChanState channel (if s.rdBit (.dmaChCtrlPause (chanBase channel)) then 3 else 0))

/-! ## Chip channels (R284 to R286) -/

/-- Is a new TAIL of a ring of 2^l entries refused (R285): it moves backward, or passes HEAD by more than 2^l? -/
def tailBad (old new head l : Nat) : Bool :=
  decide ((new + 2 ^ 32 - old) % 2 ^ 32 ≥ 2 ^ 31 ∨ (new + 2 ^ 32 - head) % 2 ^ 32 > pow2 l)

/-- The state after TAIL of chip channel `channel` (0 to 63) has been written (R285). -/
def State.chipTailWrite (s : State) (channel tail : Nat) : State :=
  let b := dmaChip channel
  let head := s.rd (.dmaChDoorHead b)
  if tailBad (s.rd (.dmaChDoorTail b)) (tail % 2 ^ 32) head (s.rd (.dmaChRingL b)) then
    s.raise .xfrRingOverrun (unitChipChannel channel) (s.agentPart (.chip channel))
      (payload [(16, 1, channel), (20, 4, tail), (24, 4, head)])
  else s.wr (.dmaChDoorTail b) tail

/-- The CPA of entry `i` of a ring, for entries of 64 bytes. -/
def State.ringEntry (s : State) (b i : Nat) : Nat := s.rd (.dmaChRingRingBase b) + 64 * (i % pow2 (s.rd (.dmaChRingL b)))

/-- The state after a chip channel has taken its next entry: HEAD rises; a wait begins, or the transfer does; an entry that
cannot be read, or whose descriptor fails its check, fails. -/
def State.takeEntry (s : State) (n : Nat) : State :=
  let b := dmaChip n
  let i := s.rd (.dmaChDoorHead b)
  let a := Agent.chip n
  let da := s.ringEntry b i
  let s := s.wr (.dmaChDoorHead b) ((i + 1) % 2 ^ 32)
  let r := s.dmaRead a da 64 0
  let w := s.memNat da 64
  let x : Xfer := { agent := a, serial := s.serial, token := i, da := da, desc := w, moved := 0, buf := [], asked := false,
                    tries := 0, last := none, held := none, failed := none }
  let s := (r.1.setSerial (s.serial + 1))
  match r.2 with
  | some code => (s.setChanState (chipKey n) 1).endXfer { x with desc := 0 } code
  | none =>
    match s.xfReason a w with
    | some reason =>
      let y := s.raiseXferDesc a da w reason
      (y.1.setChanState (chipKey n) 1).endXfer x y.2
    | none =>
      let s := (s.modChan (chipKey n) (fun k => { k with xfer := some x })).setChanState (chipKey n) 1
      if xfWaitEn w then
        let s := (s.setHeads (Sparse.put .none (chanKey n) .waiting s.heads))
        s.waitFrom (.chipChannel n) (s.rd (.dmaChCtrlPartition b)) (xfWaitObject w) (s.deadline (xfTimeout w))
      else s

/-- CHIP_CHANNEL_ENTRY: an idle channel takes its next entry; one whose wait is over moves up to `n` units of its transfer. -/
def execChipChannelEntry (channel : Nat) (hw : List Hw) (n : Nat) (s : State) : Host.Outcome State Fault Refusal :=
  if channel ≥ 64 then .next s
  else
    let b := dmaChip channel
    let key := chipKey channel
    let s := if s.chanState key = 0 ∧ s.rd (.dmaChDoorHead b) ≠ s.rd (.dmaChDoorTail b) ∧
        (s.chan key).ended.isNone then s.takeEntry channel else s
    match s.chanWait channel, (s.chan key).xfer with
    | .waiting, _ => .next s
    | .failed code, some x => .next ((s.setHeads (Sparse.put .none (chanKey channel) .none s.heads)).failXfer x code)
    | _, _ => .next (if s.chanState key = 1 then s.runXfer key hw n else s)

/-- CHIP_CHANNEL_ENTRY_DONE: an entry that has completed or failed writes its status word and performs its signal, or stops
the channel (R285, R286). -/
def execChipChannelEntryDone (channel : Nat) (s : State) : Host.Outcome State Fault Refusal :=
  let key := chipKey channel
  match (s.chan key).ended with
  | none => .next s
  | some (code, x) =>
    let b := dmaChip channel
    let i := x.token
    let s := (s.modChan key (fun k => { k with ended := none, prior := 0 }))
    let s := (s.setHeads (Sparse.put .none (chanKey channel) .none s.heads))
    let sa := s.rd (.dmaChStatbaseStatusBase b) + 4 * (i % pow2 (s.rd (.dmaChRingL b)))
    let s := (s.dmaWrite x.agent sa 0 (bytesOfNat 4 (code + i % 65536 * 65536))).1
    if code = 0 then
      let s := s.setChanState key (if s.rdBit (.dmaChCtrlPause b) then 3 else 0)
      .next (s.performSignal (unitChipChannel channel) (s.rd (.dmaChCtrlPartition b)) 0 (xfSignal x.desc))
    else .next (s.setChanState key 4)

end Sys2Proof.Machine
end

