-- ==== Sys2Proof/Machine/Gather.lean ====
section
/-!
DEFINITION. DMA_GATHER (R265 to R267): gather, scatter and scatter-add of table rows.
-/
namespace Sys2Proof.Machine

/-- Is a reserved bit of the header nonzero? -/
def gListReserved (w : Nat) : Bool :=
  decide (bitsAt w 27 5 ≠ 0 ∨ bytesAt w 7 1 ≠ 0 ∨ bytesAt w 14 2 ≠ 0 ∨ bytesAt w 23 1 ≠ 0 ∨ bytesAt w 27 1 ≠ 0 ∨
    bytesAt w 34 30 ≠ 0)

/-- The width in bits of the element type (ELEM). -/
def GList.elemBits (g : GList) : Nat := if g.elem = 0 then 32 else 16

/-- Does the data tensor break reason 3 of R265? -/
def State.gatherShapeBad (s : State) (c : Nat) (g : GList) : Bool :=
  let d := s.desc (descAt c g.desc)
  decide (g.rowBytes = 0 ∨ g.rowBytes > 2048 ∨ d.fmt.bits * d.dimAt 0 ≠ 8 * g.rowBytes ∨ d.rows < g.count ∨ d.mode ≠ .none) ||
  !(s.baseInStore c d) ||
  decide (g.op = 2 ∧ d.format ≠ (if g.elem = 0 then 0x01 else 0x03))

/-- The refusal of a gather list (R265): a reason of MEM_GTH_INVALID, or the data tensor's descriptor with its own reason. -/
def State.gatherRefusal (s : State) (c cmd : Nat) : Option (Sum Nat Nat) :=
  let off := dmaOffset cmd
  let w := s.memNat (coreWindow c + off) 64
  let g := GList.ofNat w
  let past := decide (off + 64 > storeSize)
  if past = false ∧ (g.op > 2 ∨ g.elem > 1) then some (.inl 1)
  else if off % 64 ≠ 0 ∨ past = true ∨ g.table % 32 ≠ 0 ∨ g.index % 4 ≠ 0 ∨ g.index + 4 * g.count > storeSize then some (.inl 2)
  else if g.desc % 64 ≠ 0 ∨ g.desc + 64 > storeSize then some (.inl 3)
  else
    match s.descInvalid (descAt c g.desc) (decide (g.op = 0)) with
    | some r => some (.inr r)
    | none =>
      if s.gatherShapeBad c g then some (.inl 3)
      else if dmaClean cmd = false ∨ gListReserved w = true then some (.inl 4)
      else none

/-- The row index of entry `k`. -/
def State.gatherIndex (s : State) (c : Nat) (g : GList) (k : Nat) : Nat := s.memNat (coreWindow c + g.index + 4 * k) 4

/-- The state after the accesses of a row of the table are counted by tier (GTH_CNT). -/
def State.countGather (s : State) (g : GList) (a : Nat) : State :=
  let n := g.rowBytes / 32
  let s := s.count (Reg.gthCnt (if areaOf a = .tier2 then 2 else 1)) n
  if g.op = 2 then s.count (Reg.gthCnt 4) n else s

/-- The outcome of an access to a row of the table (R252, R265): the table must lie in tier 1 or tier 2. One that reads the row fails
at a poisoned line (R248). -/
def State.tableFault (s : State) (c k a n : Nat) (read write : Bool) : Option (State × Nat) :=
  let w := Accessor.part (s.corePart c)
  let u := s.unitCore c (engDma k)
  if areaOf a ≠ .tier1 ∧ areaOf a ≠ .tier2 then
    some (s.refuseAccess .memUnmapped sevFailed u w a write, Code.memUnmapped.val)
  else
    let r := s.checkRange w a n write
    match r.1.code with
    | some code => some (s.refuseAccess code sevFailed u w r.2 write, code.val)
    | none =>
      if read && s.poisoned a n then
        some (s.raiseAs .memUncorrectable sevFailed u (s.corePart c) (payload [(16, 8, a), (24, 1, tierNo a)]),
          Code.memUncorrectable.val)
      else none

/-- The sum of two rows, element by element (R266). -/
def addRows (elemBits : Nat) (a b : List (BitVec 8)) : List (BitVec 8) :=
  let f := if elemBits = 32 then fmtZF32 else fmtZB16
  let n := a.length * 8 / elemBits
  let x := natOfBytes a
  let y := natOfBytes b
  bytesOfNat a.length ((List.range n).foldr (fun i acc =>
    f.round .nearest ((f.decodeIeee (bitsAt x (elemBits * i) elemBits)).add (f.decodeIeee (bitsAt y (elemBits * i) elemBits))) +
      acc * 2 ^ elemBits) 0)

/-- The state after the bits of the 256-element blocks that row `i` of the table meets are set in the touched mask (R185). -/
def State.setMaskBits (s : State) (c k : Nat) (g : GList) (i : Nat) : State × Nat :=
  let e := g.elemBits / 8
  let lo := i * g.rowBytes / e / 256
  let hi := ((i + 1) * g.rowBytes - 1) / e / 256
  (List.range (hi + 1 - lo)).foldl (fun (acc : State × Nat) j =>
    let b := lo + j
    let a := g.mask + b / 8
    if acc.2 ≠ 0 then acc
    else
      let w := Accessor.part (s.corePart c)
      let r := acc.1.checkRange w a 1 true
      match r.1.code with
      | some code => (acc.1.refuseAccess code sevFailed (s.unitCore c (engDma k)) w r.2 true, code.val)
      | none => (acc.1.storeNat a 1 (acc.1.memNat a 1 ||| 2 ^ (b % 8)), 0)) (s, 0)

/-- The state after row `k` of the data tensor has been written with bytes, bit for bit (R266). -/
def State.gatherRow (s : State) (c : Nat) (d : Desc) (k : Nat) (bs : List (BitVec 8)) : State :=
  s.store (coreWindow c + (d.cpa + d.rowOffset k - coreWindow c)) bs

/-- One entry of a list: row `i` of the table and row `k` of the tensor of descriptor `d`. -/
def State.gatherAt (s : State) (c ch : Nat) (g : GList) (k : Nat) (d : Desc) (i : Nat) : State × Nat :=
  let ra := d.cpa + d.rowOffset k
  if i ≥ g.rows then
    (if g.op = 0 then s.gatherRow c d k (List.replicate g.rowBytes 0) else s, 0)
  else
    let a := g.table + i * g.rowBytes
    ifSome (s.tableFault c ch a g.rowBytes (decide (g.op ≠ 1)) (decide (g.op ≠ 0))) (fun r => r) <|
      if g.op = 0 then
        let s := (s.cacheReads a g.rowBytes g.hint).countGather g a
        (s.gatherRow c d k (s.bytes a g.rowBytes), 0)
      else
        ifSome (s.rowFault d k 0 (d.dimAt 0)) (fun f => s.raiseLoad c (descAt c g.desc) f) <|
          let row := s.bytes ra g.rowBytes
          let new := if g.op = 1 then row else addRows g.elemBits row (s.bytes a g.rowBytes)
          let s := (((s.store a new).cacheWrites a g.rowBytes g.hint).countGather g a).count
            (Reg.dmaChCnt (dmaCore c ch) 0) g.rowBytes
          if g.setMask then s.setMaskBits c ch g i else (s, 0)

/-- The state after one entry of the list (R266), and the code of its failure. -/
def State.gatherEntry (s : State) (c ch : Nat) (g : GList) (k : Nat) : State × Nat :=
  s.gatherAt c ch g k (s.desc (descAt c g.desc)) (s.gatherIndex c g k)

/-- The entries of a list, in order, up to the first that fails: the state, the code, and the entries done. -/
def State.gatherAll (c ch : Nat) (g : GList) : Nat → Nat → State → State × Nat × Nat
  | 0, k, s => (s, 0, k)
  | n + 1, k, s =>
    let r := s.gatherEntry c ch g k
    if r.2 ≠ 0 then (r.1, r.2, k) else State.gatherAll c ch g n (k + 1) r.1

/-- The blocks that `n` rows of the data tensor meet. -/
def gatherBlocks (d : Desc) (g : GList) (n : Nat) : List Nat :=
  (List.range d.nblk).filter (fun t => (List.range n).any (fun k =>
    decide (d.rowOffset k < 4096 * (t + 1) ∧ 4096 * t < d.rowOffset k + g.rowBytes)))

/-- The first byte of bad parity that a GATHER of `n` rows keeps in the blocks that it touches (R122). -/
def State.gatherKeptBad (s : State) (d : Desc) (g : GList) (n : Nat) : Option LoadFault :=
  (s.bad.find? (fun p => p.2 &&
    (gatherBlocks d g n).any (fun t => decide (d.blockAddr t ≤ p.1 ∧ p.1 < d.blockAddr t + 4096)) &&
    !((List.range n).any (fun k => decide (d.cpa + d.rowOffset k ≤ p.1 ∧ p.1 < d.cpa + d.rowOffset k + g.rowBytes))))).map
    (fun p => .parity p.1)

/-- The elements of the first `n` rows of the data tensor, as they lie in memory. -/
def State.gatherEls (s : State) (d : Desc) (n : Nat) : List StoreEl :=
  (List.range n).flatMap (fun k => (List.range (d.dimAt 0)).map (fun e =>
    { r := k, i0 := e, v := d.fmt.decode (s.elemCode d k e) }))

/-- The state after a GATHER has written `n` rows: what the store path does then. A tensor bound to an outlier list has its outliers
taken out into it (R114, R115); every other element keeps its bits. Then the trailers, statistics and watch (R122, R143, R411). -/
def State.gatherStored (s : State) (c ch : Nat) (i : Issued) (g : GList) (n : Nat) : State :=
  let d := s.desc (descAt c g.desc)
  let els := s.gatherEls d n
  let x := s.extractAll c d i.step i.outBinds els
  let src := (els.zip x.els).map (fun p => (d.linear p.1.r p.1.i0, p.1.v, p.2.out))
  let s := x.els.foldl (fun s y => if y.out then s.putElem d (y.r, y.i0, 0) else s) s
  let s := x.records.foldl (fun s p => (s.setNat p.1 16 p.2).clearBad p.1 16) s
  let ts := gatherBlocks d g n
  let s := ts.foldl (fun s t => (s.writeTrailer d t).clearBad (d.trailerAddr t) 16) s
  let s := (s.countStore c d x.counts).statStore c d i.staBinds src x.counts
  (s.watchStore c i.step d ts).count (Reg.dmaChCnt (dmaCore c ch) 0) (n * g.rowBytes)

/-- The refusal of a GATHER by the store path: outlier extraction (R114), or kept bytes of bad parity. -/
def State.gatherStoreFault (s : State) (c : Nat) (i : Issued) (g : GList) : Option (State × Nat) :=
  let d := s.desc (descAt c g.desc)
  if g.op ≠ 0 then none
  else
    ifSome (s.extractFault c d i.outBinds) (fun f => some (s.raiseLoad c 0 f)) <|
    ifSome (s.extractRefusal c d i.outBinds 0 0 (d.dimAt 0)) (fun x => some (s.raiseExtract c d x, Code.numExtractInvalid.val)) <|
    (s.gatherKeptBad d g g.count).map (fun f => s.raiseLoad c 0 f)

/-- The rows of an accepted list (R266, R267): those moved, those skipped for their index, and what the counters and the event say
of them; with the status code. -/
def State.gatherRows (s : State) (c ch : Nat) (i : Issued) (g : GList) : State × Nat :=
  let r := State.gatherAll c ch g g.count 0 s
  let skipped := (List.range r.2.2).filter (fun k => decide (s.gatherIndex c g k ≥ g.rows))
  let s := if g.op = 0 ∧ r.2.2 ≠ 0 then r.1.gatherStored c ch i g r.2.2 else r.1
  let s := s.count (Reg.gthCnt 3) skipped.length
  let s := match skipped with
    | [] => s
    | k :: _ => s.raise .memGthIndex (s.unitCore c (engDma ch)) (s.corePart c) (payload [(16, 4, skipped.length), (20, 4, k)])
  (if r.2.1 = 0 then s.count (Reg.gthCnt 0) 1 else s, r.2.1)

/-- The end of a DMA_GATHER: its channel's LAST_CODE, and the command executed with its status code (R208). -/
def State.gatherEnd (s : State) (c ch : Nat) (i : Issued) (code : Nat) : State :=
  (s.wr (.dmaChStatusLastCode (dmaCore c ch)) code).executed c i.token code

/-- The state after a refused list (R265), with the status code. -/
def State.gatherRefused (s : State) (c ch w : Nat) : Nat ⊕ Nat → State × Nat
  | .inl r => (s.raise .memGthInvalid (s.unitCore c (engDma ch)) (s.corePart c) (payload [(16, 1, r)]), Code.memGthInvalid.val)
  | .inr r => (s.raiseDesc c (engDma ch) (descAt c (GList.ofNat (s.memNat (coreWindow c + dmaOffset w) 64)).desc) r,
      Code.numDescInvalid.val)

/-- The state after an accepted list, with the status code. -/
def State.gatherGo (s : State) (c ch : Nat) (i : Issued) : State × Nat :=
  let la := coreWindow c + dmaOffset i.cmd
  let g := GList.ofNat (s.memNat la 64)
  if anyMarked s.bad la 64 || anyMarked s.bad (coreWindow c + g.index) (4 * g.count) then
    (s.raiseParity c engStore sevFailed la 1, Code.intParity.val)
  else
    match s.gatherStoreFault c i g with
    | some f => f
    | none => s.gatherRows c ch i g

/-- A DMA_GATHER (R265 to R267), executed with its status code. -/
def State.gatherRun (s : State) (hw : List Hw) (c ch : Nat) (i : Issued) : State :=
  let h := (s.began c i).applyHw c (engDma ch) hw
  if h.2 ≠ 0 then h.1.gatherEnd c ch i h.2
  else
    let r := match h.1.gatherRefusal c i.cmd with
      | some x => h.1.gatherRefused c ch i.cmd x
      | none => h.1.gatherGo c ch i
    r.1.gatherEnd c ch i r.2

/-- DMA_GATHER: the head is issued if it is one; the channel executes its next command if it is idle. -/
def execDmaGather (core channel : Nat) (hw : List Hw) (s : State) : Host.Outcome State Fault Refusal :=
  let k := channel % 4
  let s := match (s.core core).head with
    | none => s
    | some w => if cmdEngine w = engDma k then s.tryIssue core 0x41 (.dma k) (s.gatherRegions core) else s
  .next (s.takeDma core k 0x41 (fun s i => s.gatherRun hw core k i))

end Sys2Proof.Machine
end

