-- ==== Sys2Proof/Machine/Caddie.lean ====
section
/-!
DEFINITION. The caddie: feeds, layers and layer fences (section 11.9, R287 to R292) and the recovery of shared weights
(section 11.10, R293 to R296).
-/
namespace Sys2Proof.Machine

/-! ## Feeds (R287) -/

/-- The consumers of a feed. -/
def State.consumers (s : State) (f : Nat) : List Nat := (List.range 256).filter (fun c => s.consumer f c)

/-- The reason for which ENABLE of a feed fails (R287). -/
def State.feedRefusal (s : State) (f : Nat) : Option Nat :=
  let p := s.rd (.cadFeedCtrlPartition f)
  let base := s.rd (.cadFeedTableBase f)
  let n := s.rd (.cadFeedTableNlayers f)
  let stride := s.rd (.cadFeedShapeSlotStride f)
  firstFail [
    (decide (s.rd (.cadFeedShapeW f) < 2 ∨ s.rd (.cadFeedShapeW f) > 16), 1),
    (decide (base % 64 ≠ 0 ∨ n = 0 ∨ areaOf base ≠ .tier1 ∨ (s.checkWindow (.part p) base (64 * n) false).1 ≠ .ok), 2),
    ((s.consumers f).any (fun c => decide ((s.core c).part ≠ some p)), 3),
    (decide (stride % 4096 ≠ 0 ∨ stride = 0), 4)]

/-- The state with a RUNNING feed HELD where a layer in flight, or its next one, names an object whose recovery is in progress. -/
def State.holdFeed (s : State) (f : Nat) : State :=
  if s.rd (.cadFeedCtrlState f) = 1 ∧ s.recoveries.any (fun r =>
      decide (r.part = s.rd (.cadFeedCtrlPartition f)) && s.feedNames f r.object) = true then s.wr (.cadFeedCtrlState f) 2
  else s

/-- CAD_FEED_ENABLE: ENABLE of a feed is written 1. -/
def execCadFeedEnable (feed : Nat) (s : State) : Host.Outcome State Fault Refusal :=
  if s.barShut false then .next (s.barAnswer false) else
  if feed ≥ 64 ∨ s.rdBit (.cadFeedCtrlEnable feed) = true then .next s
  else
    let p := s.rd (.cadFeedCtrlPartition feed)
    match s.feedRefusal feed with
    | some r => .next (s.raise .xfrFeedInvalid unitReferee p (payload [(16, 1, r), (17, 1, feed)]))
    | none =>
      let first := s.rd (.cadFeedPosFirst feed)
      let s := (s.wr (.cadFeedCtrlEnable feed) 1).wr (.cadFeedCtrlState feed) 1
      let s := (s.wr (.cadFeedShapeNextFetch feed) first).wr (.cadFeedPosMinReleased feed) first
      .next ((s.modFeed feed (fun _ => Feed.reset)).holdFeed feed)

/-! ## Sequence numbers -/

/-- Serial-number distance from `a` up to `b` (R287). -/
def seqDist (a b : Nat) : Nat := (b + 2 ^ 32 - a % 2 ^ 32) % 2 ^ 32
/-- Is `b` after `a`? -/
def seqAfter (a b : Nat) : Bool := decide (0 < seqDist a b ∧ seqDist a b < 2 ^ 31)

/-- The layer below which core `c` has released every layer of a feed. -/
def State.releasedOf (s : State) (f c : Nat) : Nat :=
  (((s.feed f).released.find? (fun p => decide (p.1 = c))).map (fun p => p.2)).getD (s.rd (.cadFeedPosFirst f))

/-- May the feed start layer `q`: has every consumer released every layer below q - W + 1 (R289)? -/
def State.layerMayStart (s : State) (f q : Nat) : Bool :=
  let w := s.rd (.cadFeedShapeW f)
  (s.consumers f).all (fun c => decide (seqDist (s.releasedOf f c) q < w))

/-! ## Layers (R288 to R290) -/

/-- The state with the failure of a layer recorded, unless it has failed already. -/
def State.failLayer (s : State) (f q code : Nat) : State :=
  s.modFeed f (fun x => { x with layers := x.layers.map (fun l =>
    if l.q = q ∧ l.failed.isNone then { l with failed := some code } else l) })

/-- The state with a piece of a layer no longer waited for. -/
def State.pieceOver (s : State) (f q j : Nat) : State :=
  s.modFeed f (fun x => { x with layers := x.layers.map (fun l =>
    if l.q = q then { l with waiting := l.waiting.filter (fun i => !(decide (i = j))) } else l) })

/-- Is the piece a descriptor that a piece may be: BLOCKS, from an address or a Z-pack object, to addresses (R288)? -/
def pieceFormOk (w : Nat) : Bool := xfBlocks w && decide (xfSpace w ≠ 3) && !(xfToObject w)

/-- The state after piece `j` of layer `q` has been fetched and started; one that fails its check fails the layer. -/
def State.startPiece (s : State) (f q j : Nat) : State :=
  let a := Agent.piece f q j
  let da := s.pieceAddr f q j
  let r := s.dmaRead a da 64 0
  match r.2 with
  | some code => (r.1.failLayer f q code).pieceOver f q j
  | none =>
    let w := s.memNat da 64
    let reason := match s.xfReason a w with
      | some x => some x
      | none => if pieceFormOk w then none else some 0x04
    match reason with
    | some x => ((r.1.raiseXferDesc a da w x).1.failLayer f q (r.1.raiseXferDesc a da w x).2).pieceOver f q j
    | none => r.1.startXfer a j da w

/-- Does a piece name an object whose recovery is in progress (R294)? -/
def State.pieceHeld (s : State) (f q j : Nat) : Bool :=
  s.recoveries.any (fun r => xfReads (s.pieceDesc f q j) r.object)

/-- The state after the pieces of layer `q` that have not started have, but for those that name an object in recovery. -/
def State.startPieces (s : State) (f q : Nat) (l : List Nat) : State :=
  l.foldl (fun s j =>
    let k := s.chan (Agent.piece f q j).key
    if k.xfer.isSome || k.ended.isSome || s.pieceHeld f q j then s else s.startPiece f q j) s

/-- The state after the starvation cycles of the cores for which a layer has become resident have gone into STARVE of its table
entry and into CAD_CNT_2 (R292). -/
def State.addStarve (s : State) (f : Nat) : State :=
  let due := (s.feed f).starve.filter (fun x => s.resident f x.2.1 x.1)
  let s := s.modFeed f (fun x => { x with starve := x.starve.filter (fun y => !(due.contains y)) })
  due.foldl (fun s x =>
    let a := s.layerEntry f x.2.1 + 16
    (s.writeVia (.part (s.rd (.cadFeedCtrlPartition f))) unitReferee a 8 ((s.memNat a 8 + x.2.2) % 2 ^ 64)).count (Reg.cadCnt 2)
      x.2.2) s

/-- CADDIE_LAYER_START: a feed starts its next layer, once its window admits it. A HELD one leaves the pieces that name an object in
recovery for later (R294). -/
def execCaddieLayerStart (feed : Nat) (s : State) : Host.Outcome State Fault Refusal :=
  let q := s.rd (.cadFeedShapeNextFetch feed)
  let n := s.pieceCount feed q
  let st := s.rd (.cadFeedCtrlState feed)
  if feed ≥ 64 ∨ s.rdBit (.cadFeedCtrlEnable feed) = false ∨ s.rdBit (.cadFeedCtrlPause feed) = true ∨
      (st ≠ 1 ∧ st ≠ 2) ∨ s.layerMayStart feed q = false then .next s
  else
    let l : Layer := { q := q, waiting := List.range n, failed := none }
    let w := s.rd (.cadFeedShapeW feed)
    let s := s.modFeed feed (fun x => { x with layers := x.layers.filter (fun y => decide (seqDist y.q q < w)) ++ [l] })
    let s := s.wr (.cadFeedShapeNextFetch feed) ((q + 1) % 2 ^ 32)
    let s := (s.startPieces feed q (List.range n)).holdFeed feed
    .next (if n = 0 then (s.count (Reg.cadCnt 0) 1).addStarve feed else s)

/-- CADDIE_PIECE_DONE: the units that are left of a piece move, and it completes; the layer is delivered when its last piece
is. A piece that fails fails its layer. -/
def execCaddiePieceDone (feed layer piece : Nat) (run : PieceRun) (s : State) : Host.Outcome State Fault Refusal :=
  let a := Agent.piece feed layer piece
  let key := a.key
  match (s.chan key).xfer with
  | none => .next s
  | some x =>
    let s := (s.runXfer key run.hw (xfCount x.desc)).completeXfer key run.mism
    match (s.chan key).ended with
    | none => .next s
    | some (code, _) =>
      let s := (s.modChan key (fun k => { k with ended := none })).pieceOver feed layer piece
      if code ≠ 0 then .next (s.failLayer feed layer code)
      else if (s.feed feed).layers.any (fun l => decide (l.q = layer ∧ l.waiting = [] ∧ l.failed = none)) then
        .next ((s.count (Reg.cadCnt 0) 1).addStarve feed)
      else .next (s.addStarve feed)

/-! ## The layer fence (R290, R291) -/

/-- LAST of a core on a feed, or FIRST - 1. -/
def State.lastFence (s : State) (f c : Nat) : Nat :=
  (((s.feed f).last.find? (fun p => decide (p.1 = c))).map (fun p => p.2)).getD
    ((s.rd (.cadFeedPosFirst f) + 2 ^ 32 - 1) % 2 ^ 32)

/-- The reason for which an LFENCE fails (R290). -/
def State.lfRefusal (s : State) (c w : Nat) : Option Nat :=
  let f := lfFeed w
  let q := lfLayer w
  let last := s.lastFence f c
  firstFail [
    (!(s.rdBit (.cadFeedCtrlEnable f)), 1),
    (!(s.consumer f c), 2),
    (!(seqAfter last q) || decide (seqDist last q > s.rd (.cadFeedShapeW f) - 1), 3),
    (!(opsClean w [(32, 0, 6), (36, 0, 32)]), 4)]

/-- The failure of the layer that an LFENCE waits for: its own, or that of its feed (R290, R296). -/
def State.layerFailure (s : State) (f q : Nat) : Option Nat :=
  match ((s.feed f).layers.find? (fun l => decide (l.q = q) && l.failed.isSome)).bind (fun l => l.failed) with
  | some code => some code
  | none => if s.rd (.cadFeedCtrlState f) = 3 then some Code.memObjectLost.val else none

/-- The list with `c` bound to `q`. -/
def bindCore (c q : Nat) (l : List (Nat × Nat)) : List (Nat × Nat) :=
  (c, q) :: l.filter (fun p => !(decide (p.1 = c)))

/-- The state after the head of core `c` has failed before issue with a code. -/
def State.failHead (s : State) (c w code : Nat) : State :=
  s.failCore c code (s.core c).headIndex (cmdOpcode w) (s.core c).stream

/-- The state after an LFENCE has issued: it records the tokens held, and retires. -/
def State.issueFence (s : State) (c w : Nat) : State :=
  let f := lfFeed w
  let q := lfLayer w
  let held := (s.core c).inflight.map (fun i => i.token)
  let i := s.issued c w .pmk []
  let s := (s.issueHead c w .pmk []).began c i
  let s := (s.setFences (s.fences ++ [Fence.mk c f q held]))
  let s := s.modFeed f (fun x => { x with last := bindCore c q x.last })
  (s.retire c i 0).afterIssue c

/-- LFENCE (opcode 0x04, R290): handled at check 3: it fails, waits, or issues once the layer is resident for the core. -/
def execLfence (core : Nat) (s : State) : Host.Outcome State Fault Refusal :=
  let k := s.core core
  match k.head with
  | none => .next s
  | some w =>
    if cmdOpcode w ≠ 0x04 ∨ (headerReason w).isSome ∨ k.issuing = false ∨ k.waitsBegun = true ∧ s.mayIssue core 0x04 .pmk [] = false
      then .next s
    else if k.inflight.any (fun i => decide (i.opcode = 0x03)) || !(s.fenceMet core) then .next s
    else
      match (if k.waitsBegun then none else s.lfRefusal core w) with
      | some r => .next ((s.raiseCore .xfrLfenceInvalid core engPmk
          (payload [(16, 1, r), (17, 1, lfFeed w), (20, 4, lfLayer w)])).failHead core w Code.xfrLfenceInvalid.val)
      | none =>
        match s.layerFailure (lfFeed w) (lfLayer w) with
        | some code => .next (s.failHead core w code)
        | none =>
          if s.resident (lfFeed w) (lfLayer w) core && s.mayIssue core 0x04 .pmk [] then .next (s.issueFence core w)
          else .next s

/-- The lowest of a list of layers in serial-number order. -/
def seqMin (a : Nat) : List Nat → Nat
  | [] => a
  | b :: t => seqMin (if seqAfter b a then b else a) t

/-- The state with MIN_RELEASED of a feed as its consumers stand. -/
def State.setMinReleased (s : State) (f : Nat) : State :=
  match (s.consumers f).map (fun c => s.releasedOf f c) with
  | [] => s
  | a :: t => s.wr (.cadFeedPosMinReleased f) (seqMin a t)

/-- LAYER_RELEASE: the commands that the core's oldest layer fence recorded have retired: it releases the layers below. -/
def execLayerRelease (core : Nat) (s : State) : Host.Outcome State Fault Refusal :=
  match s.fences.find? (fun f => decide (f.core = core ∧ f.tokens = [])) with
  | none => .next s
  | some f =>
    let s := (s.setFences (s.fences.erase f))
    let s := s.modFeed f.feed (fun x => { x with released :=
      (if seqAfter (s.releasedOf f.feed core) f.q then bindCore core f.q x.released else x.released) })
    .next (s.setMinReleased f.feed)

/-! ## Recovery (R293 to R296) -/

/-- The state with a recovery replaced, or gone. -/
def State.setRecovery (s : State) (r : Recovery) : State :=
  (s.setRecoveries (s.recoveries.map (fun x => if x.object = r.object then r else x)))
def State.dropRecovery (s : State) (o : Nat) : State :=
  (s.setRecoveries (s.recoveries.filter (fun x => !(decide (x.object = o)))))

/-- The object with units replaced by bytes that were obtained, at fresh locations (R296). -/
def FlashObj.mend (x : FlashObj) (units : List Nat) (bytes : Nat → List (BitVec 8)) : FlashObj :=
  units.foldl (fun x u => { x with
    bytes := Mem.writeBytes x.bytes (4096 * u) (bytes u)
    weak := Sparse.put 0 u 0 x.weak
    moves := Sparse.put 0 u (Sparse.get 0 x.moves u + 1) x.moves }) x

/-- The blocks of a Z-pack object whose index entry, trailer or record meets one of the units. -/
def zBlocksOf (rd : Nat → Nat) (units : List Nat) : List Nat :=
  let h := zHeader rd
  (List.range h.nblocks).filter (fun b => (zRanges rd h b).any (fun r =>
    units.any (fun u => overlaps r.1 r.2 (4096 * u) 4096)))

/-- Are replacement units accepted (R293): the records that they hold pass R264, and every block expanded passes its
trailer? The identifier, format and SCALE_CTRL expected are the trailer's own; the CHECK covers the block. -/
def mendedOk (x : FlashObj) (units : List Nat) : Bool :=
  let rd (o : Nat) : Nat := (Mem.read x.bytes o).toNat
  zHeaderOk rd && (zBlocksOf rd units).all (fun b =>
    let h := zHeader rd
    let t := zNat rd (h.trailer + 16 * b) 16
    match zExpand rd h b (decide (bitsAt t 96 8 ≠ h.format)) with
    | .error _ => false
    | .ok bs => decide (checkBlock bs t (bitsAt t 64 32) (bitsAt t 96 8) (bitsAt t 104 8) = .ok))

/-- The state after the pieces that a HELD feed has left have started, where they name no object in recovery any more. -/
def State.startHeld (s : State) (f : Nat) : State :=
  (s.feed f).layers.foldl (fun s l => s.startPieces f l.q l.waiting) s

/-- The state after the held feeds and transfers of an object's recovery go on. A feed stays HELD while another recovery
names one of its pieces. -/
def State.releaseHold (s : State) (o p : Nat) : State :=
  let s := s.dropRecovery o
  let s := (List.range 64).foldl (fun s f =>
    if s.rd (.cadFeedCtrlState f) = 2 ∧ s.rd (.cadFeedCtrlPartition f) = p then
      (if s.recoveries.any (fun r => s.feedNames f r.object) then s else s.wr (.cadFeedCtrlState f) 1).startHeld f
    else s) s
  s.chans.foldl (fun s x =>
    match x.2.xfer with
    | none => s
    | some y =>
      if x.1 < 1088 ∧ xfReads y.desc o = true then
        (if s.chanState x.1 = 5 then s.setChanState x.1 1 else s).modChan x.1 (fun k => { k with
          prior := (if k.prior = 5 then 1 else k.prior) })
      else s) s

/-- The state after a recovery has succeeded at a step (R296). -/
def State.recoverySucceeded (s : State) (r : Recovery) (x : FlashObj) (step : Nat) : State :=
  let s := s.setObject r.object x
  let s := (s.raise .xfrWeightRecovered unitReferee r.part (payload [(16, 4, r.object), (20, 1, step)])).count (Reg.cadCnt 4) 1
  let s := if r.asked then s.wr (.cadPSupplyRequest r.part) 0 else s
  s.releaseHold r.object r.part

/-- The feeds that a recovery holds: those HELD of its partition that name its object, or that no other recovery's object explains. -/
def State.heldFeeds (s : State) (r : Recovery) : List Nat :=
  (List.range 64).filter (fun f => decide (s.rd (.cadFeedCtrlState f) = 2 ∧ s.rd (.cadFeedCtrlPartition f) = r.part) &&
    (s.feedNames f r.object || !(s.recoveries.any (fun y => decide (y.object ≠ r.object) && s.feedNames f y.object))))

/-- The state after a recovery has failed (R296): the object is BAD, its transfers fail, its feeds are FAILED. -/
def State.recoveryFailed (s : State) (r : Recovery) : State :=
  let o := r.object
  let code := Code.memObjectLost.val
  let feeds := s.heldFeeds r
  let s := match s.object o with
    | some x => s.setObject o { x with state := 2 }
    | none => s
  let s := (s.raise .memObjectLost unitReferee r.part (payload [(16, 4, o), (20, 8, 4096 * r.units.headD 0)])).count
    (Reg.cadCnt 5) 1
  let s := if r.asked then s.wr (.cadPSupplyRequest r.part) 0 else s
  let s := s.dropRecovery o
  let s := feeds.foldl (fun s f =>
    let s := s.wr (.cadFeedCtrlState f) 3
    s.modFeed f (fun x => { x with layers := x.layers.map (fun l =>
      if l.waiting ≠ [] ∧ l.failed.isNone then { l with failed := some code } else l) })) s
  s.chans.foldl (fun s y =>
    match y.2.xfer with
    | none => s
    | some z =>
      if xfReads z.desc o then
        match z.agent with
        | .piece f q j => ((s.failXfer z code).modChan y.1 (fun k => { k with ended := none })).pieceOver f q j
        | _ => s.failXfer z code
      else s) s

/-- Is a request of the partition's to the driver waiting for an answer (R295)? -/
def State.asking (s : State) (p : Nat) : Bool := s.recoveries.any (fun r => decide (r.part = p) && r.asked)

/-- The time left to the deadline of a recovery in ns (R295). -/
def State.recoveryLeft (s : State) (r : Recovery) : Nat :=
  r.start + s.rd (.cadPCtrlDeadlineMs r.part) * 1000000 - s.dtime

/-- The state after the driver has been asked for the units of a recovery (R293, step 3). -/
def State.askDriver (s : State) (r : Recovery) : State :=
  let s := s.setRecovery { r with step := 3, asked := true }
  (s.wr (.cadPSupplyRequest r.part) 1).raise .xfrWeightRequest unitReferee r.part
    (payload [(16, 4, r.object), (20, 8, 4096 * r.units.headD 0), (28, 2, r.units.length),
      (30, 1, min 255 (s.recoveryLeft r / 256000000))])

/-- The entry of the alternate-copy table in use that names the object, from place `n` on: its place and its address. -/
def State.nextAlt (s : State) (r : Recovery) (n : Nat) : Option (Nat × Nat) :=
  let base := s.rd (.cadPAltBase r.part)
  ((List.range (s.rd (.cadPCtrlAltCount r.part))).find? (fun i =>
    decide (n ≤ i) && decide (s.memNat (base + 16 * i) 4 = r.object))).map (fun i => (i, s.memNat (base + 16 * i + 8) 8))

/-- The state after the reads of an alternate copy's units have been sent: one remote read for each unit (R293, step 2). -/
def State.askAlternate (s : State) (r : Recovery) (place g : Nat) : State :=
  let x : Xfer := { agent := .alternate r.object, serial := place, token := 0, da := 0, desc := 0, moved := 0, buf := [],
                    asked := false, tries := 0, last := none, held := none, failed := none }
  let s := s.setRecovery { r with step := 2, alt := place, buf := [], altFailed := false }
  let m := s.message 0x10 0 (g / 2 ^ 48) 0 (g % 2 ^ 48) 0
  if g / 2 ^ 48 = 0xFFFF then
    (s.raise .lnkAddrInvalid unitReferee r.part (payload [(16, 8, g)])).setRecovery
      { r with step := 2, alt := place, buf := [], altFailed := true }
  else if s.isLocal (g / 2 ^ 48) then
    r.units.foldl (fun s u =>
      let y := s.dmaRead (.alternate r.object) (g % 2 ^ 48 + 4096 * u) 4096 0
      match (y.1.recovery r.object) with
      | none => y.1
      | some z => y.1.setRecovery { z with
          buf := Mem.writeBytes z.buf (4096 * u) (s.bytes (g % 2 ^ 48 + 4096 * u) 4096)
          altFailed := z.altFailed || y.2.isSome }) s
  else if s.canRoute m then
    r.units.foldl (fun s u => s.askRemote x (g / 2 ^ 48) (readParts (g % 2 ^ 48 + 4096 * u) 4096 (4096 * u))) s
  else (s.unreachable sevFailed r.part m).setRecovery { r with step := 2, alt := place, buf := [], altFailed := true }

/-- The state after the recovery has gone on to the next step, from place `n` of the alternate-copy table. DEADLINE_MS 0
skips steps 2 and 3 (R295). -/
def State.nextStep (s : State) (r : Recovery) (n : Nat) : State :=
  if s.rd (.cadPCtrlDeadlineMs r.part) = 0 then s.recoveryFailed r
  else
    match s.nextAlt r n with
    | some x => s.askAlternate r x.1 x.2
    | none =>
      if s.asking r.part then s.setRecovery { r with step := 3 }
      else s.askDriver { r with step := 3 }

/-- The state after the next recovery of a partition that waits to ask the driver has asked (R295). -/
def State.askNext (s : State) (p : Nat) : State :=
  if s.asking p then s
  else
    match s.recoveries.find? (fun r => decide (r.part = p ∧ r.step = 3)) with
    | none => s
    | some r => s.askDriver r

/-- The state after the units that a step obtained have been verified: they are accepted, or the next step runs. -/
def State.tryUnits (s : State) (r : Recovery) (bytes : Nat → List (BitVec 8)) (n : Nat) : State :=
  match s.object r.object with
  | none => s.recoveryFailed r
  | some x =>
    let y := x.mend r.units bytes
    if mendedOk y r.units then (s.recoverySucceeded r y r.step).askNext r.part
    else if r.step = 3 then (s.recoveryFailed r).askNext r.part
    else s.nextStep r n

/-- RECOVERY_STEP_DONE (R293): the step in progress of an object's recovery ends: step 1 reads the units again; step 2 has
the replies of an alternate copy; step 3 has the driver's units. -/
def execRecoveryStepDone (object : Nat) (s : State) : Host.Outcome State Fault Refusal :=
  match s.recovery object with
  | none => .next s
  | some r =>
    if r.step = 1 then
      if s.lostUnits object = [] then
        match s.object object with
        | some x => .next (if mendedOk x r.units then s.recoverySucceeded r x 1 else s.nextStep r 0)
        | none => .next (s.recoveryFailed r)
      else .next (s.nextStep r 0)
    else if r.step = 2 then
      if s.reqs.any (fun q => decide (q.agent = Agent.alternate object)) then .next s
      else if r.altFailed then .next (s.nextStep r (r.alt + 1))
      else .next (s.tryUnits r (fun u => Mem.readBytes r.buf (4096 * u) 4096) (r.alt + 1))
    else if r.supplied then
      let base := s.rd (.cadPSupplyBase r.part)
      let at_ (u : Nat) : Nat := base + 4096 * ((r.units.findIdx? (fun v => decide (v = u))).getD 0)
      let c := s.checkRange (.part r.part) base (4096 * r.units.length) false
      match c.1.code with
      | some code => .next (((s.refuseAccess code sevNotice unitReferee (.part r.part) c.2 false).recoveryFailed r).askNext r.part)
      | none => .next (s.tryUnits r (fun u => s.bytes (at_ u) 4096) 0)
    else .next s

/-- RECOVERY_DEADLINE (R295): DTIME reaches the deadline of an object's recovery; units that a GO brought in time are still
verified to the end. -/
def execRecoveryDeadline (object : Nat) (s : State) : Host.Outcome State Fault Refusal :=
  match s.recovery object with
  | none => .next s
  | some r =>
    let s := (s.setDtime (max s.dtime (r.start + s.rd (.cadPCtrlDeadlineMs r.part) * 1000000)))
    if r.supplied then .next s
    else .next (((s.setReqs (s.reqs.filter (fun q => !(decide (q.agent = Agent.alternate object))))).recoveryFailed r).askNext r.part)

/-- CAD_SUPPLY_GO: GO is written 1; it is discarded while no request awaits an answer. -/
def execCadSupplyGo (p : Nat) (s : State) : Host.Outcome State Fault Refusal :=
  if s.barShut false then .next (s.barAnswer false) else
  match s.recoveries.find? (fun r => decide (r.part = p) && r.asked && !r.supplied) with
  | none => .next s
  | some r =>
    if s.rdBit (.cadPSupplyRequest p) then .next ((s.wr (.cadPSupplyRequest p) 0).setRecovery { r with supplied := true })
    else .next s

/-- CAD_SUPPLY_DECLINE: DECLINE is written 1: the driver's step ends without units. -/
def execCadSupplyDecline (p : Nat) (s : State) : Host.Outcome State Fault Refusal :=
  if s.barShut false then .next (s.barAnswer false) else
  match s.recoveries.find? (fun r => decide (r.part = p) && r.asked && !r.supplied) with
  | none => .next s
  | some r =>
    if s.rdBit (.cadPSupplyRequest p) then .next ((s.recoveryFailed r).askNext p) else .next s

end Sys2Proof.Machine
end

