-- ==== Sys2Proof/Machine/Reduce.lean ====
section
/-!
DEFINITION. The fused reduction engine (section 13.8): the fixed tree (R345), and the part that this chip plays in it. The
member at view index i holds the partial of a subtree: at level l an index that is an odd multiple of 2^l sends it to index
i - 2^l, an even one waits for the partial of index i + 2^l, if there is one; the member of index 0 ends with the root and
sends it to every other. R345 lets the engine place the work on any chip; this placement is the model's choice (log entry
12).
-/
namespace Sys2Proof.Machine

/-! ## The tree -/

/-- One combination: a ZF32 addition, or the maximum of VEC_REDUCE OP 1. -/
def combineWord (sum : Bool) (a b : Nat) : Nat := if sum then f32Add a b else toZF32 (valMax (zf32 a) (zf32 b))

/-- Two vectors combined: the first `sums` elements by addition, the others by maximum. -/
def combineWords (sums : Nat) (a b : List Nat) : List Nat :=
  (a.zip b).mapIdx (fun j x => combineWord (decide (j < sums)) x.1 x.2)

/-- One level of the tree: neighbours combined, an odd last value carried (R345). -/
def treeLevel {α : Type} (f : α → α → α) : List α → List α
  | a :: b :: t => f a b :: treeLevel f t
  | l => l

/-- The whole tree: levels until one value is left; `n` levels are enough for 2^n values. -/
def treeCombine {α : Type} (f : α → α → α) : Nat → List α → List α
  | 0, l => l
  | n + 1, l => treeCombine f n (treeLevel f l)

/-! ## Messages -/

/-- The number of ZF32 words of one message beside its header unit. -/
def redChunk : Nat := 120

/-- The level that stands for the result in the store of words received. -/
def levelResult : Nat := 32

/-- The key of a word received. -/
def wordKey (level j : Nat) : Nat := level * 2 ^ 32 + j

/-- The words of a chunk as a number. -/
def wordsNat : List Nat → Nat
  | [] => 0
  | x :: t => x % 2 ^ 32 + 2 ^ 32 * wordsNat t

/-- The messages of a vector: RED_PART (0x40) of a level, or RED_RESULT (0x41) (Table 13-5). -/
def State.redMessages (s : State) (r : Red) (type level dst : Nat) : List Msg :=
  (List.range (ceilDiv r.value.length redChunk)).map (fun k =>
    let ws := (r.value.drop (redChunk * k)).take redChunk
    s.message type (1 + ceilDiv ws.length 8) dst 0 (r.group + r.rseq * 2 ^ 32)
      (redChunk * k + r.cls * 2 ^ 32 + level * 2 ^ 40 + wordsNat ws * 2 ^ 256))

/-- The state after a vector has been sent to a member. -/
def State.sendVector (s : State) (r : Red) (type level dst : Nat) : State :=
  (s.redMessages r type level dst).foldl (fun s m => s.sendMsg unitLink sevFailed r.part m) s

/-! ## Reductions -/

/-- The reduction of a class of a partition that this chip takes part in. -/
def State.red (s : State) (p cls : Nat) : Option Red := s.reds.find? (fun r => decide (r.part = p ∧ r.cls = cls))
def State.dropRed (s : State) (p cls : Nat) : State :=
  (s.setReds (s.reds.filter (fun r => !(decide (r.part = p ∧ r.cls = cls)))))
def State.setRed (s : State) (r : Red) : State := ((s.dropRed r.part r.cls).setReds ((s.dropRed r.part r.cls).reds ++ [r]))

/-- The state after a reduction has failed with a reason of R347. -/
def State.failRed (s : State) (r : Red) (reason : Nat) : State :=
  ((s.setRed { r with outcome := some reason }).raise .lnkRedFail unitLink r.part
    (payload [(16, 4, r.group), (20, 4, r.rseq), (24, 1, r.cls), (25, 1, reason)])).count (Reg.redCnt 1) 1

/-- The state after a reduction has its result. -/
def State.redDone (s : State) (r : Red) (v : List Nat) : State :=
  (s.setRed { r with value := v, outcome := some 0 }).count (Reg.redCnt 0) 1

/-- The words received at a level, if all have come. -/
def Red.words (r : Red) (level : Nat) : Option (List Nat) :=
  let l := (List.range r.value.length).map (fun j => r.got.find? (fun p => decide (p.1 = wordKey level j)))
  if l.all (fun x => x.isSome) then some (l.map (fun x => (x.map (fun p => p.2)).getD 0)) else none

/-- This chip's place in the view. -/
def Red.index (r : Red) (chip : Nat) : Nat := r.members.findIdx (fun m => decide (m = chip))

/-- The state after this chip has played its part in a reduction as far as it can, over at most `fuel` levels. -/
def State.advanceRed (s : State) (r : Red) : Nat → State
  | 0 => s.setRed r
  | fuel + 1 =>
    let i := r.index s.chipId
    let n := r.members.length
    let d := pow2 r.level
    if r.level ≥ levelResult then
      match r.words levelResult with
      | some v => s.redDone r v
      | none => s.setRed r
    else if d ≥ n then
      (r.members.filter (fun m => !(decide (m = s.chipId)))).foldl (fun s m => s.sendVector r 0x41 r.level m) (s.redDone r r.value)
    else if i / d % 2 = 1 then
      (s.sendVector r 0x40 r.level (r.members.getD (i - d) 0)).advanceRed { r with level := levelResult } fuel
    else if i + d ≥ n then s.advanceRed { r with level := r.level + 1 } fuel
    else
      match r.words r.level with
      | none => s.setRed r
      | some v =>
        (s.count (Reg.redCnt 2) (4 * v.length)).advanceRed
          { r with value := combineWords r.sums r.value v, level := r.level + 1 } fuel

/-- The key of a class's RSEQ. -/
def seqKey (p cls : Nat) : Nat := 4 * p + cls

/-- The group view that a partition's job belongs to. -/
def State.groupView (s : State) (p : Nat) : GView := Sparse.get ⟨0, [], false⟩ s.gviews (s.rd (.redPGroupGroupId p))

/-- The state after a partition has been bound to a group view (R343). -/
def State.bindGroup (s : State) (p : Nat) (v : GView) : State :=
  (((s.wr (.redPGroupBound p) 1).wr (.redPGroupComplete p) (flag v.complete)).wr (.redPGroupMembers p) v.members.length).wr
    (.redPGroupGview p) (v.id % 65536)

/-- The state after a reduction of a class of a partition has started with this chip's contribution (R347): it fails at once
when the group is not complete, or does not hold this chip. -/
def State.startRed (s : State) (p cls sums : Nat) (v : List Nat) : State :=
  let q := Sparse.get 0 s.redSeq (seqKey p cls)
  let view := s.groupView p
  let r : Red := { part := p, cls := cls, rseq := q, group := s.rd (.redPGroupGroupId p), members := view.members, sums := sums,
                   level := 0, value := v, got := [], start := s.dtime, outcome := none }
  let s := (s.setRedSeq (Sparse.put 0 (seqKey p cls) ((q + 1) % 2 ^ 32) s.redSeq))
  if s.rdBit (.redPGroupBound p) && s.rdBit (.redPGroupComplete p) && view.members.contains s.chipId then s.advanceRed r 64
  else s.failRed r 1

/-- The words of a RED_PART or RED_RESULT message: class, level, and (element, word) pairs of a vector of `n` elements. -/
def Msg.redWords (m : Msg) (n : Nat) : List (Nat × Nat) :=
  let off := bytesAt m.data 0 4
  (List.range (8 * (m.len - 1))).filterMap (fun j =>
    if off + j < n then some (off + j, bitsAt m.data (256 + 32 * j) 32) else none)

/-- The state after the words of a message have come for a reduction that runs; one that names an element past the vector
disagrees on COUNT (reason 2). -/
def State.redReceive (s : State) (r : Red) (level : Nat) (m : Msg) : State :=
  if r.outcome.isSome then s
  else if bytesAt m.data 0 4 ≥ r.value.length then s.failRed r 2
  else
    s.advanceRed { r with got := (m.redWords r.value.length).foldl (fun g x => Sparse.insert (wordKey level x.1) x.2 g) r.got } 64

/-- REDUCTION_TIMEOUT (R347): no result of a class of a partition has come within RED_CFG.TIMEOUT_MS. -/
def execReductionTimeout (p cls : Nat) (s : State) : Host.Outcome State Fault Refusal :=
  match s.red p cls with
  | none => .next s
  | some r =>
    if r.outcome.isSome then .next s
    else .next ((s.setDtime (max s.dtime (r.start + 1000000 * s.rd .redCfgTimeoutMs))).failRed r 3)

/-- The state after the view of a group has changed: every reduction of it that runs fails (R347, reason 1). -/
def State.redViewChanged (s : State) (group : Nat) : State :=
  s.reds.foldl (fun s r => if r.group = group ∧ r.outcome = none then s.failRed r 1 else s) s

end Sys2Proof.Machine
end

