-- ==== Sys2Proof/Machine/Governor.lean ====
section
/-!
DEFINITION. The precision governor (chapter 6): the validation of a context (R150), the decision pass (R151 to R154), the
decision procedure (R155, R156), the jump detector (R157, R158), HIST tensor scales (R159, R160), plans and epochs (R161),
the decision log (R166).
-/
namespace Sys2Proof.Machine

/-! ## Tables -/

/-- The addresses of a rung (Table 6-2), a group (Table 6-3) and a tensor (Table 6-4). -/
def State.rungAt (s : State) (p r j : Nat) : Nat := s.rd (.pgvAreasBase p 0) + 64 * r + 8 * j
def State.pgvGroupAt (s : State) (p g : Nat) : Nat := s.rd (.pgvGroupTableBase p) + 64 * g
def State.tensorAt (s : State) (p t : Nat) : Nat := s.rd (.pgvTensorTableBase p) + 128 * t
def State.pgvGroups (s : State) (p : Nat) : Nat := s.rd (.pgvGroupTableNgroups p)
def State.pgvTensors (s : State) (p : Nat) : Nat := s.rd (.pgvTensorTableNtensors p)

/-- The fields of a rung held as a number of 8 bytes. -/
def rungFormat (w : Nat) : Nat := bytesAt w 0 1
def rungScale (w : Nat) : Nat := bytesAt w 1 1
def rungRank (w : Nat) : Nat := bitsAt w 16 3
def rungOutliers (w : Nat) : Bool := bitAt w 19
def rungCnv (w : Nat) : Bool := bitAt w 20
def rungValid (w : Nat) : Bool := bitAt w 23
def rungTau (w : Nat) : Nat := bytesAt w 4 4

/-- The scale mode of a SCALE_CTRL byte. -/
def scaleMode (x : Nat) : ScaleMode := { Desc.ofNat 0 with scaleCtrl := x }.mode

/-- Is a field of a SCALE_CTRL byte that its mode leaves unused not zero (R429)? -/
def scaleReserved (x : Nat) : Bool :=
  match scaleMode x with
  | .none => decide (bitsAt x 2 6 ≠ 0)
  | .expand => false
  | _ => bitAt x 7

/-- The state after the governor has written a number in `n` bytes of a table of partition `p`, as that partition (R252). -/
def State.govWrite (s : State) (p a n v : Nat) : State := s.writeVia (.part p) unitGovernor a n v

/-- The rungs of role `r`, and their number (R147). -/
def State.rung (s : State) (p r j : Nat) : Nat := s.memNat (s.rungAt p r j) 8
def State.rungs (s : State) (p r : Nat) : Nat := ((List.range 8).filter (fun j => rungValid (s.rung p r j))).length

/-- A role of a group (Table 6-3); MU and YPREV are signed Q16.16, DEV unsigned. -/
structure Role where
  rung : Nat
  floor : Nat
  ceil : Nat
  nj : Nat
  streak : Nat
  mu : Int
  dev : Nat
  yprev : Int
  deriving DecidableEq, Repr

/-- Role `r` of group `g`, and the state with it replaced. -/
def State.role (s : State) (p g r : Nat) : Role :=
  let a := s.pgvGroupAt p g + 20 * r
  { rung := s.memNat a 1, floor := s.memNat (a + 1) 1, ceil := s.memNat (a + 2) 1, nj := s.memNat (a + 3) 1,
    streak := s.memNat (a + 4) 2, mu := signed 32 (s.memNat (a + 8) 4), dev := s.memNat (a + 12) 4,
    yprev := signed 32 (s.memNat (a + 16) 4) }
def State.setRole (s : State) (p g r : Nat) (x : Role) : State :=
  let a := s.pgvGroupAt p g + 20 * r
  let s := s.govWrite p a 4 (x.rung % 256 + x.floor % 256 * 2 ^ 8 + x.ceil % 256 * 2 ^ 16 + x.nj % 256 * 2 ^ 24)
  let s := s.govWrite p (a + 4) 2 x.streak
  let s := s.govWrite p (a + 8) 4 (codeOfInt 32 x.mu)
  (s.govWrite p (a + 12) 4 x.dev).govWrite p (a + 16) 4 (codeOfInt 32 x.yprev)

/-- D, ENABLE and JUMP_MASK of a group. -/
def State.groupD (s : State) (p g : Nat) : Nat := s.memNat (s.pgvGroupAt p g + 60) 2
def State.groupCfg (s : State) (p g : Nat) : Nat := s.memNat (s.pgvGroupAt p g + 62) 1

/-- The fields of a tensor table entry. -/
def State.tensorId (s : State) (p t : Nat) : Nat := s.memNat (s.tensorAt p t) 4
def State.tensorAttr (s : State) (p t : Nat) : Nat := s.memNat (s.tensorAt p t + 4) 2
def State.tensorHdr (s : State) (p t : Nat) : Nat := s.memNat (s.tensorAt p t + 8) 6
def State.tensorTrailer (s : State) (p t : Nat) : Nat := s.memNat (s.tensorAt p t + 14) 6
def State.tensorWriter (s : State) (p t : Nat) : Nat := s.memNat (s.tensorAt p t + 20) 1

/-! ## Validation (R150, Table 6-9) -/

/-- Does an area of `n` bytes lie in usable tier 1 of this chip? -/
def State.inTier1 (s : State) (a n : Nat) : Bool :=
  decide (a + n ≤ 0x010000000000) && s.usable a && (decide (n = 0) || s.usable (a + n - 1))

/-- Is a ZF32 code finite and not negative? -/
def finiteNonNeg (x : Nat) : Bool := (zf32 x).isFinite && !((zf32 x).lt (.fin false 0 0))

/-- The failing cause of the context's own registers, if there is one. -/
def State.pgvRegsBad (s : State) (p : Nat) : Option Nat :=
  let ng := s.pgvGroups p
  let nt := s.pgvTensors p
  let area (n align len : Nat) : Bool :=
    let a := s.rd (.pgvAreasBase p n)
    decide (a % align = 0) && s.inTier1 a len
  let sh := s.rd (.pgvThreshSatSatHi p)
  let sl := s.rd (.pgvThreshSatSatLo p)
  let oh := s.rd (.pgvThreshOvfOvfHi p)
  let ol := s.rd (.pgvThreshOvfOvfLo p)
  if !(decide (s.rd (.pgvGroupTableBase p) % 4096 = 0 ∧ s.rd (.pgvTensorTableBase p) % 4096 = 0 ∧ 0 < ng ∧ ng ≤ 4096 ∧
      nt ≤ 16384 ∧ s.rd (.pgvPlanPlanOffset p) % 8192 = 0) &&
      s.inTier1 (s.rd (.pgvGroupTableBase p)) (64 * ng) && s.inTier1 (s.rd (.pgvTensorTableBase p)) (128 * nt) &&
      area 0 64 192 && area 1 4096 0x800000 && area 2 4096 (64 * pow2 (s.rd (.pgvAreasLog2Entries p 2)))) then some 0x01
  else if !([sh, sl, oh, ol].all finiteNonNeg) || (zf32 sh).lt (zf32 sl) || (zf32 oh).lt (zf32 ol) ||
      decide (s.rd (.pgvJumpA p) = 0 ∨ s.rd (.pgvJumpA p) > 8 ∨ s.rd (.pgvJumpWarmup p) = 0) then some 0x06
  else if s.rd (.pgvAreasLog2Entries p 0) ≠ 0 ∨ s.rd (.pgvAreasLog2Entries p 1) ≠ 0 then some 0x07
  else none

/-- The failing cause of rung `j` of role `r`. A rung is a format that is stored, so EXPAND, which Table 2-2 permits on load only, is
not one (0x03); a SCALE_CTRL field that the mode leaves unused is reserved (0x07, R429). -/
def State.rungBad (s : State) (p r j : Nat) : Option Nat :=
  let w := s.rung p r j
  let f := Fmt.ofCode (rungFormat w)
  let m := scaleMode (rungScale w)
  if (j = 0 ∧ rungValid w = false) ∨ (j > 0 ∧ rungValid w = true ∧ rungValid (s.rung p r (j - 1)) = false) then some 0x02
  else if rungValid w && (
      (match f with
        | none => true
        | some f => decide (m = .expand) || !(f.permits m false) ||
          (rungCnv w && !(decide (f = .zb16 ∨ f = .zf16))) || (rungOutliers w && !f.extracts)) ||
      decide ((r ≠ 0 ∧ rungRank w ≠ 0) ∨ rungRank w > 4) || !(posOrInf (rungTau w))) then some 0x03
  else if bitsAt w 21 2 ≠ 0 ∨ bytesAt w 3 1 ≠ 0 ∨ (rungValid w && scaleReserved (rungScale w)) = true then some 0x07
  else none

/-- The failing cause of group `g`. -/
def State.pgvGroupBad (s : State) (p g : Nat) : Option Nat :=
  let a := s.pgvGroupAt p g
  if (List.range 3).any (fun r =>
      let x := s.role p g r
      decide (x.floor > x.rung ∨ x.rung > x.ceil ∨ x.ceil ≥ s.rungs p r)) ∨ s.groupD p g < 16 then some 0x04
  else if (List.range 3).any (fun r => decide (s.memNat (a + 20 * r + 6) 2 ≠ 0)) ∨ s.groupCfg p g ≥ 16 ∨
      s.memNat (a + 63) 1 ≠ 0 then some 0x07
  else none

/-- The failing cause of tensor `t`. -/
def State.pgvTensorBad (s : State) (p t : Nat) : Option Nat :=
  let a := s.tensorAt p t
  let at' := s.tensorAttr p t
  if bitsAt at' 0 12 ≥ s.pgvGroups p ∨
      (bitAt at' 14 = true ∧ (s.tensorHdr p t % 4096 ≠ 0 ∨ s.tensorTrailer p t % 16 ≠ 0)) ∨
      (s.coresOf p).contains (s.tensorWriter p t) = false then some 0x05
  else if bitAt at' 15 = true ∨ s.memNat (a + 7) 1 ≥ 64 ∨ s.memNat (a + 21) 1 ≥ 32 ∨ s.memNat (a + 22) 1 ≥ 16 ∨
      s.memNat (a + 23) 9 ≠ 0 ∨ s.memNat (a + 96) 32 ≠ 0 then some 0x07
  else none

/-- The first failing cause of a context with its index: the registers, then the ladder, the groups, the tensors, each in
ascending index. -/
def State.pgvBad (s : State) (p : Nat) : Option (Nat × Nat) :=
  match s.pgvRegsBad p with
  | some r => some (r, 0)
  | none =>
    let scan (n : Nat) (f : Nat → Option Nat) : Option (Nat × Nat) :=
      (List.range n).findSome? (fun i => (f i).map (fun r => (r, i)))
    ((scan 24 (fun i => s.rungBad p (i / 8) (i % 8))).orElse (fun _ => scan (s.pgvGroups p) (s.pgvGroupBad p))).orElse
      (fun _ => scan (s.pgvTensors p) (s.pgvTensorBad p))

/-! ## Plans (R161) -/

/-- The plan in the RUNG fields: one word of 2 bytes for each group. -/
def State.planNow (s : State) (p : Nat) : List Nat :=
  (List.range (s.pgvGroups p)).map (fun g => (s.role p g 0).rung % 8 + (s.role p g 1).rung % 8 * 8 + (s.role p g 2).rung % 8 * 64)

/-- The state with a plan in the plan region of every core of the job. -/
def State.writePlan (s : State) (p : Nat) (plan : List Nat) : State :=
  (s.coresOf p).foldl (fun s c =>
    (plan.mapIdx (fun g w => (s.rd (.pgvPlanPlanOffset p) + 2 * g, w))).foldl (fun s x =>
      if x.1 + 2 ≤ storeSize then s.govWrite p (coreWindow c + x.1) 2 x.2 else s) s) s

/-- The state after the plan has been published with an epoch and a step. -/
def State.publishPlan (s : State) (p epoch step : Nat) : State :=
  let plan := s.planNow p
  let s := (s.writePlan p plan).setReg (Reg.pgvEpoch p) (BitVec.ofNat 64 (epoch % 2 ^ 32))
  (s.wr (.pgvStatusPublishedStep p) step).modJob p (fun j => { j with plan := plan })

/-- The state after ENABLE of a context has been written, with the epoch and step of its first publication (R150); and the
reason of a refusal. -/
def State.pgvEnable (s : State) (p epoch step : Nat) : State × Option Nat :=
  if s.rdBit (.pgvCtxCtrlEnable p) then (s, none)
  else
    match s.pgvBad p with
    | some (r, i) => (s.raise .numGovInvalid unitGovernor p (payload [(16, 1, r), (20, 4, i)]), some r)
    | none => (((s.wr (.pgvCtxCtrlEnable p) 1).publishPlan p epoch step).setReg (Reg.pgvLogHead p) 0, none)

/-- PGV_ENABLE (R150). -/
def execPgvEnable (p : Nat) (s : State) : Host.Outcome State Fault Refusal :=
  if s.barShut false then .next (s.barAnswer false) else
  .next (if p < 16 then (s.pgvEnable p 0 0).1 else s)

/-! ## The decision procedure -/

/-- A fraction test (R155). -/
def exceeds (n theta d : Nat) : Bool :=
  (Val.fin false 0 0).lt (zf32 d) && ((zf32 theta).mul (zf32 d)).lt (zf32 n)

/-- The jump sample of a finite positive ZF32 code (R157). -/
def jumpSample (v : Nat) : Int :=
  let e := bitsAt v 23 8
  let f := bitsAt v 0 23
  if e > 0 then (((e : Int) - 127) * 65536 + (f / 128 : Nat)) / 2
  else
    let j := Nat.log2 f
    (((j : Int) - 149) * 65536 + ((f - pow2 j) * 65536 / pow2 j : Nat)) / 2

/-- What a jump test finds: the deviation test, the ratio test, a norm that is not finite, the sample. -/
structure Jump where
  dev : Bool
  ratio : Bool
  nonfinite : Bool
  y : Option Int
  deriving DecidableEq, Repr

def Jump.none : Jump := ⟨false, false, false, Option.none⟩
def Jump.flagged (j : Jump) : Bool := j.dev || j.ratio || j.nonfinite

/-- The parameters of the jump test (R158). -/
structure JumpParams where
  k : Nat
  a : Nat
  warmup : Nat
  lj : Nat
  dmin : Nat
  deriving DecidableEq, Repr

/-- The jump test (R158). -/
def jumpTest (q : JumpParams) (r : Role) (sumsq : Nat) : Role × Jump :=
  if (zf32 sumsq).isFinite = false then (r, ⟨false, false, true, none⟩)
  else if (zf32 sumsq).isZero then (r, Jump.none)
  else
    let y := jumpSample sumsq
    let warm := decide (r.nj ≥ q.warmup)
    let dev := max r.dev q.dmin
    let jd := warm && decide (y > r.mu + (q.k * dev / 16 : Nat))
    let jr := warm && decide (y > r.yprev + q.lj)
    let d := y - r.mu
    let mu := if r.nj = 0 then y else r.mu + d / (pow2 q.a : Nat)
    let dv : Int := if r.nj = 0 then 0 else (r.dev : Int) + ((d.natAbs : Int) - r.dev) / (pow2 q.a : Nat)
    ({ r with mu := mu, dev := dv.toNat, yprev := y, nj := min (r.nj + 1) 255 }, ⟨jd, jr, false, some y⟩)

/-- The reduced words of a role (R153). -/
structure RoleStats where
  elements : Nat
  saturated : Nat
  nonfinite : Nat
  outGroups : Nat
  outOvf : Nat
  sumsq : Nat
  deriving DecidableEq, Repr

/-- The job's thresholds (R155). -/
structure Thresholds where
  satHi : Nat
  satLo : Nat
  ovfHi : Nat
  ovfLo : Nat
  deriving DecidableEq, Repr

/-- The actions of Table 6-7. -/
inductive Action where
  | stay | promote | demote | heldCeil | skipped | idle | clamp
  deriving DecidableEq, Repr

/-- The number of an action. -/
def Action.code : Action → Nat
  | .stay => 0
  | .promote => 1
  | .demote => 2
  | .heldCeil => 3
  | .skipped => 4
  | .idle => 5
  | .clamp => 6

/-- A decision: the role after it, the action, CAUSE, and the jump test. -/
structure Decision where
  role : Role
  action : Action
  cause : Nat
  jump : Jump
  deriving DecidableEq, Repr

/-- Is a ZF32 word greater than zero? -/
def f32Pos (x : Nat) : Bool := (Val.fin false 0 0).lt (zf32 x)

/-- The decision procedure of one role (R156): `masked` when JUMP_MASK has the role, `d` the group's D. -/
def decideRole (th : Thresholds) (q : JumpParams) (masked : Bool) (d : Nat) (r : Role) (st : RoleStats) (skipped : Bool) :
    Decision :=
  if skipped then ⟨r, .skipped, 0, Jump.none⟩
  else if r.rung < r.floor ∨ r.rung > r.ceil then
    ⟨{ r with rung := min (max r.rung r.floor) r.ceil, streak := 0 }, .clamp, 0, Jump.none⟩
  else if (zf32 st.elements).isZero then ⟨r, .idle, 0, Jump.none⟩
  else
    let jt := if masked then jumpTest q r st.sumsq else (r, Jump.none)
    let r := jt.1
    let j := jt.2
    let sat := exceeds st.saturated th.satHi st.elements
    let ovf := exceeds st.outOvf th.ovfHi st.outGroups
    let nf := f32Pos st.nonfinite
    let cause := flag sat + 2 * flag ovf + 4 * flag j.dev + 8 * flag j.ratio + 16 * flag (nf || j.nonfinite)
    if nf || j.flagged || sat || ovf then
      if r.rung = r.ceil then ⟨{ r with streak := 0 }, .heldCeil, cause, j⟩
      else ⟨{ r with streak := 0, rung := r.rung + 1 }, .promote, cause, j⟩
    else if exceeds st.saturated th.satLo st.elements || exceeds st.outOvf th.ovfLo st.outGroups then
      ⟨{ r with streak := 0 }, .stay, cause, j⟩
    else
      let r := { r with streak := min (r.streak + 1) 65535 }
      if r.streak ≥ d ∧ r.rung > r.floor then ⟨{ r with rung := r.rung - 1, streak := 0 }, .demote, cause + 32, j⟩
      else ⟨r, .stay, cause + 32, j⟩

/-! ## Phases 1 to 3 -/

/-- Two partial records merged in order (R144, Table 6-1). -/
def StatPart.merge (a b : StatPart) : StatPart :=
  if b.flags % 2 = 0 then a
  else if a.flags % 2 = 0 then b
  else
    let ss := f32Add a.sumsq b.sumsq
    let h := (List.range 32).map (fun i => a.hist.getD i 0 + b.hist.getD i 0)
    { format := b.format
      flags := 1 + 2 * flag (bitAt a.flags 1 || bitAt b.flags 1 || h.any (fun x => decide (x > u32Max))) +
        4 * flag (bitAt a.flags 2 || bitAt b.flags 2 || decide (ss = 0x7F800000)) +
        8 * flag (bitAt a.flags 3 || bitAt b.flags 3 || decide (a.format ≠ b.format))
      elements := a.elements + b.elements
      zeros := a.zeros + b.zeros
      saturated := a.saturated + b.saturated
      underflow := a.underflow + b.underflow
      nonfinite := a.nonfinite + b.nonfinite
      groups := a.groups + b.groups
      zeroGroup := a.zeroGroup + b.zeroGroup
      satGroup := a.satGroup + b.satGroup
      outGroups := a.outGroups + b.outGroups
      outOvf := a.outOvf + b.outOvf
      outKept := a.outKept + b.outKept
      outExcess := a.outExcess + b.outExcess
      maxabs := max a.maxabs b.maxabs
      sumsq := ss
      hist := h.map (fun x => min x u32Max) }

/-- The bound tensors of the job on this chip, in ascending core and slot: (core, slot, TENSOR_ID, TINDEX). -/
def State.bound (s : State) (p : Nat) : List (Nat × Nat × Nat × Nat) :=
  (s.coresOf p).flatMap (fun c => (List.range 16).filterMap (fun i =>
    if s.rdBit (.staBindValid c i) then some (c, i, s.rd (.staBindTensorId c i), s.rd (.staBindTindex c i)) else none))

/-- The merged record of tensor table entry `t`. -/
def State.merged (s : State) (p t : Nat) : StatPart :=
  (s.bound p).foldl (fun a x =>
    if x.2.2.2 = t then a.merge (Sparse.get StatPart.empty (s.core x.1).stats x.2.1) else a) StatPart.empty

/-- The bytes of a stat record (Table 6-1). -/
def State.statRecord (s : State) (p t tid step : Nat) (a : StatPart) : List (BitVec 8) :=
  let b (n v : Nat) := bytesOfNat n v
  b 4 tid ++ b 4 step ++ b 2 t ++ b 2 (s.tensorAttr p t % 2 ^ 14) ++ b 1 a.format ++ b 1 (s.memNat (s.tensorAt p t + 6) 1) ++
    b 1 a.flags ++ b 1 0 ++ b 8 a.elements ++ b 8 a.zeros ++ b 8 a.saturated ++ b 8 a.underflow ++ b 8 a.nonfinite ++
    b 8 a.groups ++ b 8 a.zeroGroup ++ b 8 a.satGroup ++ b 8 a.outGroups ++ b 8 a.outOvf ++ b 8 a.outKept ++
    b 8 a.outExcess ++ b 4 a.maxabs ++ b 4 a.sumsq ++
    (List.range 32).flatMap (fun i => b 4 (a.hist.getD i 0)) ++ b 8 0

/-- The entries of the tensor table that this chip's cores have bound, with their TENSOR_ID, in ascending TINDEX. -/
def State.boundTensors (s : State) (p : Nat) : List (Nat × Nat) :=
  (List.range (s.pgvTensors p)).filterMap (fun t =>
    ((s.bound p).find? (fun x => decide (x.2.2.2 = t))).map (fun x => (t, x.2.2.1)))

/-- The state after phase 1: the stat records are written, the partial records cleared. -/
def State.collect (s : State) (p step : Nat) : State :=
  let recs := (s.boundTensors p).map (fun x =>
    (s.rd (.pgvAreasBase p 1) + 256 * (16384 * (step % 2) + x.1), s.statRecord p x.1 x.2 (step % 2 ^ 32) (s.merged p x.1)))
  let s := recs.foldl (fun s x => s.store x.1 x.2) s
  (s.coresOf p).foldl (fun s c =>
    (List.range 16).foldl (fun s i => s.wr (.staBindPending c i) 0) (s.modCore c (fun k => { k with stats := [] }))) s

/-- The integer rounded once to ZF32. -/
def f32OfNat (n : Nat) : Nat := toZF32 (Val.ofNat n)

/-- The whole number that a ZF32 word of a reduced count stands for. -/
def natOfF32 (w : Nat) : Nat :=
  let e := bitsAt w 23 8
  let m := 2 ^ 23 + bitsAt w 0 23
  if e < 150 then m / 2 ^ (150 - e) else m * 2 ^ (e - 150)

/-- The HIST tensors, in ascending index. -/
def State.histTensors (s : State) (p : Nat) : List Nat :=
  (List.range (s.pgvTensors p)).filter (fun t => bitAt (s.tensorAttr p t) 14)

/-- The statistics vector (R153). -/
def State.statVector (s : State) (p : Nat) : List Nat :=
  let recs := (s.boundTensors p).map (fun x => (s.tensorAttr p x.1, x.1, s.merged p x.1))
  let valid := recs.filter (fun x => decide (x.2.2.flags % 2 = 1))
  let words (g r : Nat) : List Nat :=
    let l := (valid.filter (fun x => decide (bitsAt x.1 0 12 = g ∧ bitsAt x.1 12 2 = r))).map (fun x => x.2.2)
    let sum (f : StatPart → Nat) : Nat := f32OfNat ((l.map f).foldl (· + ·) 0)
    [sum (·.elements), sum (·.saturated), sum (·.nonfinite), sum (·.outGroups), sum (·.outOvf),
      l.foldl (fun a x => f32Add a x.sumsq) 0]
  (List.range (3 * s.pgvGroups p)).flatMap (fun i => words (i / 3) (i % 3)) ++
    (s.histTensors p).map (fun t =>
      match valid.find? (fun x => decide (x.2.1 = t)) with
      | some x => x.2.2.maxabs
      | none => 0xBF800000)

/-- Was step `n` skipped by the SKIP overflow mode (R151, R177)? -/
def State.stepSkipped (s : State) (p n : Nat) : Bool :=
  s.rdBit (.optCtxCtrlEnable p) && s.rdBit (.optStatusSkipped p) && decide (s.rd (.optStatusConstStep p) = n % 2 ^ 32)

/-- GOVERNOR_PASS_START (R151, phases 1 to 3): every core of the job on this chip has ended the step. The pass waits while a
capture of the step before has still to read its state (R188), or a fingerprint round of the step has no result (R139). -/
def execGovernorPassStart (p : Nat) (s : State) : Host.Outcome State Fault Refusal :=
  match s.endedStep p with
  | none => .next s
  | some n =>
    if p ≥ 16 ∨ s.rdBit (.pgvCtxCtrlEnable p) = false ∨ (s.job p).pass.isSome = true ∨ (s.job p).passed = some n ∨
        (s.captureDue p).isSome = true ∨ s.fingerprintDue p n = true then .next s
    else
      let v := s.statVector p
      let s := (s.collect p n).modJob p (fun j => { j with pass := some (n, s.stepSkipped p n), passed := some n })
      let s := (s.wr (.pgvStatusBusy p) 1).wr (.pgvStatusPhase p) 3
      .next (s.startRed p 2 (18 * s.pgvGroups p) v)

/-! ## Phases 4 to 6 -/

/-- The six reduced words of a role. -/
def statsAt (v : List Nat) (g r : Nat) : RoleStats :=
  let w (i : Nat) : Nat := v.getD (6 * (3 * g + r) + i) 0
  ⟨w 0, w 1, w 2, w 3, w 4, w 5⟩

/-- The context's thresholds and jump parameters. -/
def State.thresholds (s : State) (p : Nat) : Thresholds :=
  ⟨s.rd (.pgvThreshSatSatHi p), s.rd (.pgvThreshSatSatLo p), s.rd (.pgvThreshOvfOvfHi p), s.rd (.pgvThreshOvfOvfLo p)⟩
def State.jumpParams (s : State) (p : Nat) : JumpParams :=
  ⟨s.rd (.pgvJumpK p), s.rd (.pgvJumpA p), s.rd (.pgvJumpWarmup p), s.rd (.pgvJumpLj p), s.rd (.pgvJumpDminDmin p)⟩

/-- The decisions of a pass, in ascending group and role: (group, role, before, words, decision). With PAUSE set every group
is as if ENABLE were 0 (R156). -/
def State.decisions (s : State) (p : Nat) (v : List Nat) (skipped : Bool) : List (Nat × Nat × Role × RoleStats × Decision) :=
  if s.rdBit (.pgvCtxCtrlPause p) then []
  else
    ((List.range (s.pgvGroups p)).filter (fun g => bitAt (s.groupCfg p g) 0)).flatMap (fun g =>
      (List.range 3).map (fun r =>
        let x := s.role p g r
        let st := statsAt v g r
        (g, r, x, st, decideRole (s.thresholds p) (s.jumpParams p) (bitAt (s.groupCfg p g) (1 + r)) (s.groupD p g) x st skipped)))

/-- The 64 bytes of a log entry (Table 6-7). -/
def logEntry (step epoch : Nat) (x : Nat × Nat × Role × RoleStats × Decision) : List (BitVec 8) :=
  let b (n v : Nat) := bytesOfNat n v
  let r := x.2.2.1
  let st := x.2.2.2.1
  let d := x.2.2.2.2
  b 4 step ++ b 2 x.1 ++ b 1 x.2.1 ++ b 1 d.action.code ++ b 1 d.cause ++ b 1 r.rung ++ b 1 d.role.rung ++ b 1 r.nj ++
    b 2 r.streak ++ b 2 d.role.streak ++ b 4 st.elements ++ b 4 st.saturated ++ b 4 st.nonfinite ++ b 4 st.outGroups ++
    b 4 st.outOvf ++ b 4 st.sumsq ++ b 4 (codeOfInt 32 r.mu) ++ b 4 r.dev ++ b 4 (codeOfInt 32 r.yprev) ++
    b 4 (codeOfInt 32 (d.jump.y.getD 0)) ++ b 4 epoch ++ b 4 0

/-- The state with a log entry in the ring (R166). -/
def State.logDecision (s : State) (p : Nat) (e : List (BitVec 8)) : State :=
  let k := s.rd (.pgvLogHeadWritten p)
  (s.govWrite p (s.rd (.pgvAreasBase p 2) + 64 * (k % pow2 (s.rd (.pgvAreasLog2Entries p 2)))) 64 (natOfBytes e)).wr (.pgvLogHeadWritten p) (k + 1)

/-- A positive magnitude rounded once to ZF32 toward +infinity, clamped to the normal numbers (R159). -/
def roundUpF32 (x : Mag) : Nat :=
  let e := max x.floorLog2 (-126)
  let k := e - 23
  let u := x.units k
  if e > 127 then 0x7F7FFFFF
  else min (max (fmtZF32.codeOf false (ceilDiv u.1 u.2) k) 0x00800000) 0x7F7FFFFF

/-- The new tensor scale from the history's maximum (R159). -/
def histScale (m hmargin : Nat) (f : Fmt) : Nat :=
  roundUpF32 (((zf32 m).mag.scale hmargin).divBy f.maxFinite.1 f.maxFinite.2)

/-- The state after T of a tensor has been rewritten through the store path of its WRITER, or NUM_HIST_T_FAIL (R160). -/
def State.rewriteT (s : State) (p t step v : Nat) : State :=
  let a := s.tensorHdr p t
  let ta := s.tensorTrailer p t
  let bs := s.bytes a 4096
  let tr := s.memNat ta 16
  if bitsAt tr 0 64 ≠ (crc64 bs).toNat then
    s.raise .numHistTFail unitGovernor p (payload [(16, 4, s.tensorId p t), (20, 4, step), (24, 6, a)])
  else
    let s := s.govWrite p a 4 v
    (s.govWrite p ta 16 (putBits tr 0 64 (crc64 (s.bytes a 4096)).toNat)).count (Reg.pgvCnt p 7) 1

/-- The largest of the last `n` entries of a tensor's history. -/
def State.histMax (s : State) (p t n : Nat) : Nat :=
  let a := s.tensorAt p t
  let next := s.memNat (a + 22) 1
  (List.range n).foldl (fun m i => max m (s.memNat (a + 32 + 4 * ((next + 15 - i) % 16)) 4)) 0

/-- The state after a reduced word has entered the history of a tensor; −1.0, of a tensor that no chip stored, enters none. -/
def State.histPut (s : State) (p t m : Nat) : State :=
  if m = 0xBF800000 then s
  else
    let a := s.tensorAt p t
    let next := s.memNat (a + 22) 1 % 16
    let fill := min (s.memNat (a + 21) 1 % 32 + 1) 16
    ((s.govWrite p (a + 32 + 4 * next) 4 m).govWrite p (a + 22) 1 ((next + 1) % 16)).govWrite p (a + 21) 1 fill

/-- The state after phase 5 for one HIST tensor and its reduced word (R159). -/
def State.histStep (s : State) (p step t m : Nat) : State :=
  let s := s.histPut p t m
  let a := s.tensorAt p t
  let hp := s.memNat (a + 7) 1
  let mh := s.histMax p t (min (hp % 16 + 1) (s.memNat (a + 21) 1 % 32))
  let r := bitsAt (s.tensorAttr p t) 12 2
  let w := s.rung p r (s.role p (bitsAt (s.tensorAttr p t) 0 12) r).rung
  match Fmt.ofCode (rungFormat w) with
  | some f =>
    if mh > 0 ∧ s.tensorHdr p t ≠ 0 ∧ r < 3 ∧ scaleMode (rungScale w) = .hist then
      s.rewriteT p t step (histScale mh (bitsAt hp 4 2) f)
    else s
  | none => s

/-- The state after the events and counters of a pass. -/
def State.passEvents (s : State) (p step : Nat) (ds : List (Nat × Nat × Role × RoleStats × Decision)) : State :=
  let num (a : Action) : Nat := (ds.filter (fun x => decide (x.2.2.2.2.action = a))).length
  let jumps := ds.filter (fun x => x.2.2.2.2.jump.flagged)
  let s := (s.count (Reg.pgvCnt p 1) (num .promote)).count (Reg.pgvCnt p 2) (num .demote)
  let s := (s.count (Reg.pgvCnt p 3) (num .heldCeil)).count (Reg.pgvCnt p 4) jumps.length
  let s := match jumps with
    | [] => s
    | x :: _ => s.raise .numJump unitGovernor p (payload [(16, 2, x.1), (18, 1, x.2.1), (19, 1, x.2.2.2.2.cause), (20, 4, step),
        (24, 4, codeOfInt 32 (x.2.2.2.2.jump.y.getD 0)), (28, 2, jumps.length)])
  if num .heldCeil = 0 then s
  else s.raise .numHeldCeil unitGovernor p (payload [(16, 4, step), (20, 2, num .heldCeil)])

/-- The state after phases 4 to 6 with the reduced vector (R152). -/
def State.decidePass (s : State) (p step : Nat) (skipped : Bool) (v : List Nat) : State :=
  let ds := s.decisions p v skipped
  let n := step % 2 ^ 32
  let s := ds.foldl (fun s x => s.setRole p x.1 x.2.1 x.2.2.2.2.role) s
  let changed := decide (s.planNow p ≠ (s.job p).plan)
  let epoch := (s.rd (.pgvEpochEpoch p) + flag changed) % 2 ^ 32
  let s := ds.foldl (fun s x => s.logDecision p (logEntry n epoch x)) s
  let s := s.passEvents p n ds
  let s := if skipped then s.count (Reg.pgvCnt p 6) 1
    else ((s.histTensors p).mapIdx (fun i t => (t, v.getD (18 * s.pgvGroups p + i) 0xBF800000))).foldl
      (fun s x => s.histStep p n x.1 x.2) s
  let s := s.publishPlan p epoch n
  let num (a : Action) : Nat := (ds.filter (fun x => decide (x.2.2.2.2.action = a))).length
  let s := if changed then s.raise .numPrecisionChange unitGovernor p
      (payload [(16, 4, n), (20, 4, epoch), (24, 2, num .promote), (26, 2, num .demote)]) else s
  s.count (Reg.pgvCnt p 0) 1

/-- GOVERNOR_PASS_DECIDE: the reduced vector has come, or the reduction has failed (R154). -/
def execGovernorPassDecide (p : Nat) (s : State) : Host.Outcome State Fault Refusal :=
  match (s.job p).pass, s.red p 2 with
  | some (step, skipped), some r =>
    match r.outcome with
    | none => .next s
    | some k =>
      let s := (s.dropRed p 2).modJob p (fun j => { j with pass := none })
      let s := (s.wr (.pgvStatusBusy p) 0).wr (.pgvStatusPhase p) 0
      if k = 0 then .next (s.decidePass p step skipped r.value)
      else
        let s := s.raise .numGovReduceFail unitGovernor p (payload [(16, 4, step % 2 ^ 32)])
        .next (s.stopJob p (step % 2 ^ 32) .numGovReduceFail)
  | _, _ => .next s

end Sys2Proof.Machine
end

