-- ==== Sys2Proof/Machine/OptStep.lean ====
section
/-!
DEFINITION. The chip-level part of the optimiser (chapter 7): the validation of a context, the norm reduction (R172), the
step constants (R173, R176, R177, R179), and the request of a checkpoint (R187).
-/
namespace Sys2Proof.Machine

/-! ## Validation (Table 7-11) -/

/-- The first index below `n` for which a test fails. -/
def firstBad (n : Nat) (f : Nat → Bool) : Option Nat := (List.range n).find? f

/-- The learning-rate curve of group `q`: point `i` as (X, Y). -/
def State.curvePoint (s : State) (p q i : Nat) : Nat × Nat :=
  let a := s.groupAt p q + 128 + 8 * i
  (s.memNat a 4, s.memNat (a + 4) 4)

/-- Is the curve of a group invalid? -/
def State.curveBad (s : State) (p q : Nat) : Bool :=
  let n := (s.optGroup p q).npts
  decide (n = 0 ∨ n > 64) ||
  (List.range (n - 1)).any (fun i => decide ((s.curvePoint p q i).1 ≥ (s.curvePoint p q (i + 1)).1)) ||
  (List.range n).any (fun i => !(finiteNonNeg (s.curvePoint p q i).2))

/-- Is a ZF32 code in [0, 1), and is it finite and positive? -/
def unitInterval (x : Nat) : Bool := finiteNonNeg x && (zf32 x).lt (.fin false 1 0)
def finitePos (x : Nat) : Bool := (zf32 x).isFinite && f32Pos x

/-- Is a field of a group outside the range that Table 7-5 gives for its rule? -/
def OptGroup.bad (g : OptGroup) : Bool :=
  let adam := decide (g.rule = 1 ∨ g.rule = 3)
  !(unitInterval g.beta1 && finiteNonNeg g.wd && finitePos g.gmax) ||
  (decide (g.rule ≠ 0) && !(unitInterval g.beta2)) || (adam && !(finiteNonNeg g.eps)) ||
  (decide (g.rule = 3) && !(unitInterval g.betap && finitePos g.epsp && finitePos g.tolp &&
    decide (0 < g.piter ∧ g.piter ≤ 32 ∧ 0 < g.pint)))

/-- Is a reserved bit of a group nonzero? -/
def State.optGroupReserved (s : State) (p q : Nat) : Bool :=
  let a := s.groupAt p q
  decide (bitsAt (s.memNat a 1) 5 2 ≠ 0 ∨ s.memNat (a + 3) 1 ≠ 0 ∨ s.memNat (a + 40) 8 ≠ 0 ∨ s.memNat (a + 60) 68 ≠ 0 ∨
    s.memNat (a + 640) 384 ≠ 0)

/-- The fields of entry `m` of the checkpoint map (R193). -/
def State.mapAt (s : State) (p m : Nat) : Nat := s.rd (.optCkptMapBase p) + 128 * m
def State.mapType (s : State) (p m : Nat) : Nat := s.memNat (s.mapAt p m) 1
def State.mapLength (s : State) (p m : Nat) : Nat := s.memNat (s.mapAt p m + 8) 8
def State.mapAddr (s : State) (p m : Nat) : Nat := s.memNat (s.mapAt p m + 16) 8
def State.mapDesc (s : State) (p m : Nat) : Desc := s.desc (s.mapAt p m + 64)

/-- Is a map entry of a tensor section? -/
def mapTensor (t : Nat) : Bool := decide (1 ≤ t ∧ t ≤ 4)

/-- Is map entry `m` invalid, and is a byte of it that must be 0 nonzero? -/
def State.mapBad (s : State) (p m : Nat) : Bool :=
  let t := s.mapType p m
  if mapTensor t then (s.descInvalid (s.mapAt p m + 64) false).isSome else !(decide (t = 5 ∨ t = 10))
def State.mapReserved (s : State) (p m : Nat) : Bool :=
  let a := s.mapAt p m
  decide (s.memNat (a + 1) 7 ≠ 0 ∨ s.memNat (a + 24) 40 ≠ 0) ||
  (if mapTensor (s.mapType p m) then decide (s.mapAddr p m ≠ 0) else decide (s.memNat (a + 64) 64 ≠ 0))

/-- The first failing cause of a context, with the failing group or map entry, in the order of Table 7-11. -/
def State.optBad (s : State) (p : Nat) : Option (Nat × Nat) :=
  let ng := s.rd (.optGroupTableNgroups p)
  let nm := s.rd (.optCkptMapNentries p)
  let gexp (f : RF) : Int := signed 8 (s.rd f)
  let valid (q : Nat) : Bool := (s.optGroup p q).valid
  if !(decide (s.rd (.optGroupTableBase p) % 4096 = 0 ∧ s.rd (.optConstBase p) % 4096 = 0 ∧ s.rd (.optCkptMapBase p) % 4096 = 0 ∧
      0 < ng ∧ ng ≤ 1024) && s.inTier1 (s.rd (.optGroupTableBase p)) (1024 * ng) && s.inTier1 (s.rd (.optConstBase p)) 65536 &&
      s.inTier1 (s.rd (.optCkptMapBase p)) (128 * nm)) then some (1, 0)
  else
    match firstBad ng (fun q => valid q && s.curveBad p q) with
    | some q => some (2, q)
    | none =>
      match firstBad ng (fun q => valid q && (s.optGroup p q).bad) with
      | some q => some (3, q)
      | none =>
        if s.rd (.optCtxCtrlOvfMode p) > 1 ∨ gexp (.optGscaleGexpMin p) > gexp (.optGscaleGexpInit p) ∨
            gexp (.optGscaleGexpInit p) > gexp (.optGscaleGexpMax p) ∨ gexp (.optGscaleGexpMin p) < -126 ∨
            gexp (.optGscaleGexpMax p) > 126 ∨ s.rd (.optGscaleNclean p) = 0 ∨
            posOrInf (s.rd (.optClipClipMax p)) = false then some (4, 0)
        else
          match firstBad nm (s.mapBad p) with
          | some m => some (5, m)
          | none =>
            if s.rd (.optBuddyBuddyBase p) % 4096 ≠ 0 ∨ s.rd (.optBuddyStripeStripe p) % 4096 ≠ 0 then some (5, 0)
            else ((firstBad ng (fun q => valid q && s.optGroupReserved p q)).orElse
              (fun _ => firstBad nm (s.mapReserved p))).map (fun i => (7, i))

/-- The state after ENABLE of a context has been written, with the GEXP and CLEAN it starts from, none for a new job; and
the reason of a refusal. -/
def State.optEnable (s : State) (p : Nat) (restored : Option (Nat × Nat)) : State × Option Nat :=
  if s.rdBit (.optCtxCtrlEnable p) then (s, none)
  else
    match s.optBad p with
    | some (r, i) => (s.raise .numOptCtxInvalid (s.unitOpt p) p (payload [(16, 1, r), (20, 4, i)]), some r)
    | none =>
      let g := restored.getD (s.rd (.optGscaleGexpInit p), 0)
      (((s.wr (.optCtxCtrlEnable p) 1).wr (.optStatusGexp p) g.1).wr (.optStatusClean p) g.2, none)

/-- OPT_ENABLE (R150). -/
def execOptEnable (p : Nat) (s : State) : Host.Outcome State Fault Refusal :=
  if s.barShut false then .next (s.barAnswer false) else
  .next (if p < 16 then (s.optEnable p none).1 else s)

/-! ## Phase 3: the norm reduction (R172) -/

/-- A core's partial of a step. -/
def Core.normOf (k : Core) (step : Nat) : NormPart := (k.norms.find? (fun x => decide (x.step = step))).getD ⟨step, 0, 0, false⟩

/-- The first step, in the order in which the lowest core has begun them, for which every core of the job on this chip has retired an
OPT_NORM with LAST; a core may be further on. -/
def State.normStep (s : State) (p : Nat) : Option Nat :=
  match s.coresOf p with
  | [] => none
  | c :: cs => ((s.core c).norms.find? (fun x => (c :: cs).all (fun y => ((s.core y).normOf x.step).last))).map (fun x => x.step)

/-- OPT_NORM_REDUCE_START: the core partials are summed and the reduction of the norm words starts. It waits for a capture that
is due or has not ended (R188). -/
def execOptNormReduceStart (p : Nat) (s : State) : Host.Outcome State Fault Refusal :=
  match s.normStep p with
  | none => .next s
  | some n =>
    let waits := match (s.job p).capture with
      | some x => x.vote.isNone
      | none => (s.captureDue p).isSome
    if p ≥ 16 ∨ s.rdBit (.optCtxCtrlEnable p) = false ∨ (s.job p).norm.isSome = true ∨ waits = true then .next s
    else
      let cs := s.coresOf p
      let sum := cs.foldl (fun a c => f32Add a ((s.core c).normOf n).sum) 0
      let bad := f32OfNat ((cs.map (fun c => ((s.core c).normOf n).bad)).foldl (· + ·) 0)
      let done := f32OfNat (match (s.job p).capture with
        | some x => flag (x.vote.getD false)
        | none => 0)
      let s := cs.foldl (fun s c => s.modCore c (fun k => { k with norms := k.norms.filter (fun x => !(decide (x.step = n))) })) s
      let s := (s.wr (.optStatusBusy p) 1).modJob p (fun j => { j with norm := some n })
      .next (s.startRed p 1 3 [sum, bad, done])

/-! ## Phase 4: the step constants -/

/-- The ZF32 code of 1. -/
def f32One : Nat := 0x3F800000

/-- The learning rate of group `q` at update `t` (R179). -/
def State.learningRate (s : State) (p q t : Nat) : Nat :=
  let n := (s.optGroup p q).npts
  let pt := s.curvePoint p q
  if t ≤ (pt 0).1 then (pt 0).2
  else if t ≥ (pt (n - 1)).1 then (pt (n - 1)).2
  else
    match (List.range (n - 1)).find? (fun i => decide ((pt i).1 ≤ t ∧ t < (pt (i + 1)).1)) with
    | none => (pt (n - 1)).2
    | some i =>
      let a := pt i
      let b := pt (i + 1)
      let dx := b.1 - a.1
      valDiv fmtZF32 (((zf32 a.2).mul (Val.ofNat dx)).add (((zf32 b.2).sub (zf32 a.2)).mul (Val.ofNat (t - a.1)))) (Val.ofNat dx)

/-- The clip factor of a step that is not skipped (R176). -/
def clipFactor (s clipMax : Nat) : Nat :=
  if (zf32 s).isFinite = false then 0
  else
    let nrm := f32Sqrt s
    if (zf32 nrm).le (zf32 clipMax) then f32One else f32Div clipMax nrm

/-- GEXP and CLEAN after a step (R177): GEXP changes only in SKIP mode; and whether NUM_GSCALE_FLOOR is raised. -/
def gscaleNext (gexp lo hi : Int) (clean nclean : Nat) (skipMode skipped : Bool) : Int × Nat × Bool :=
  if skipped then (max (gexp - 1) lo, 0, decide (gexp = lo))
  else if clean + 1 ≥ nclean then ((if skipMode then min (gexp + 1) hi else gexp), 0, false)
  else (gexp, clean + 1, false)

/-- The state after the optimiser has written a number in `n` bytes of a table of partition `p`, as that partition (R252). -/
def State.optWrite (s : State) (p a n v : Nat) : State := s.writeVia (.part p) (s.unitOpt p) a n v

/-- The constants record of a step that is not skipped (R179, Table 7-6), its reserved bytes zero; `t`, `b1` and `b2` are T, B1POW and B2POW
after the step. -/
def State.constRecord (s : State) (p q n clip ginv gnext t b1 b2 : Nat) (sat : Bool) : Nat :=
  let g := s.optGroup p q
  let ibc1 := if g.biasCorr then f32Div f32One (f32Sub f32One b1) else f32One
  let isbc2 := if g.biasCorr then f32Div f32One (f32Sqrt (f32Sub f32One b2)) else f32One
  let words := [n, t, s.learningRate p q t, f32Sub f32One g.beta1, f32Sub f32One g.beta2, ibc1, isbc2, ginv, clip, g.gmax,
    f32Sub f32One g.betap, gnext, 2 * flag (decide (g.pint > 0 ∧ t % g.pint = 0)) + 4 * flag sat]
  natOfBytes (words.flatMap (bytesOfNat 4))

/-- The state after the constants record of group `q` has been written (R179). A skipped step leaves the group's entry as it is, and
of the record writes STEP, GINV, GSCALE_NEXT and FLAGS with SKIP, the reserved bytes zero. -/
def State.writeConst (s : State) (p q n clip : Nat) (ginv gnext : Nat) (skipped sat : Bool) : State :=
  let a := s.constAt p q
  if skipped then
    (((s.optWrite p a 4 n).optWrite p (a + 28) 4 ginv).optWrite p (a + 44) 4 gnext).optWrite p (a + 48) 16 (1 + 4 * flag sat)
  else
    let g := s.optGroup p q
    let t := (g.t + 1) % 2 ^ 32
    let b1 := f32Mul g.b1pow g.beta1
    let b2 := f32Mul g.b2pow g.beta2
    let e := s.groupAt p q
    let r := s.constRecord p q n clip ginv gnext t b1 b2 sat
    (((s.optWrite p (e + 48) 4 t).optWrite p (e + 52) 4 b1).optWrite p (e + 56) 4 b2).optWrite p a 64 r

/-- The state after phase 4 with the reduced SUMSQ and NONFINITE of step `n` (R173). -/
def State.publishConstants (s : State) (p n sumsq nf : Nat) : State :=
  let skipMode := decide (s.rd (.optCtxCtrlOvfMode p) = 1)
  let skipped := skipMode && (f32Pos nf || !(zf32 sumsq).isFinite)
  let clip := clipFactor sumsq (s.rd (.optClipClipMax p))
  let gexp := signed 8 (s.rd (.optStatusGexp p))
  let g := gscaleNext gexp (signed 8 (s.rd (.optGscaleGexpMin p))) (signed 8 (s.rd (.optGscaleGexpMax p)))
    (s.rd (.optStatusClean p)) (s.rd (.optGscaleNclean p)) skipMode skipped
  let groups := (List.range (s.rd (.optGroupTableNgroups p))).filter (fun q => (s.optGroup p q).valid)
  let s := groups.foldl (fun s q => s.writeConst p q n clip (f32Pow2 (-gexp)) (f32Pow2 g.1) skipped (!skipMode)) s
  let s := s.wr (.optNormResultSumsq p) sumsq
  let s := if skipped then s else s.wr (.optNormResultClip p) clip
  let s := ((s.wr (.optStatusGexp p) (codeOfInt 8 g.1)).wr (.optStatusClean p) g.2.1).wr (.optStatusSkipped p) (flag skipped)
  let s := (s.wr (.optStatusConstStep p) n).wr (.optStatusBusy p) 0
  let s := s.count (Reg.optCnt p (flag skipped)) 1
  if skipped then
    let s := s.raise .numStepSkipped (s.unitOpt p) p (payload [(16, 4, n), (20, 4, nf), (24, 1, codeOfInt 8 g.1)])
    if g.2.2 then s.raise .numGscaleFloor (s.unitOpt p) p (payload [(16, 4, n), (20, 1, codeOfInt 8 g.1)]) else s
  else s

/-! ## Checkpoints: request and completion -/

/-- CKPT_REQUEST (R187): REQ_STEP of a context is written. -/
def execCkptRequest (p step : Nat) (s : State) : Host.Outcome State Fault Refusal :=
  if s.barShut false then .next (s.barAnswer false) else
  let req := step % 2 ^ 32
  let cur := ((s.coresOf p).map (fun c => s.pmkStep c)).foldl max 0 % 2 ^ 32
  let d := (cur + 2 ^ 32 - req) % 2 ^ 32
  if p ≥ 16 then .next s
  else if req ≠ 0 ∧ 0 < d ∧ d < 2 ^ 31 then
    .next (s.raise .numCkptLate unitReferee p (payload [(16, 4, req), (20, 4, cur)]))
  else .next (s.wr (.optCkptCtrlReqStep p) req)

end Sys2Proof.Machine
end

