-- ==== Sys2Proof/Machine/Checkpoint.lean ====
section
/-!
DEFINITION. Checkpoints (section 7.9): the image (R193), its capture to the buddies (R188, R189), its completion with the step
constants (R173, R190), its drain into tier 3 (R192); and fingerprint rounds (R138, R139).
-/
namespace Sys2Proof.Machine

/-! ## The image -/

/-- A section of an image: its type, whether it is of tensor blocks, its map entry, its bytes; the ranges of memory (CPA, bytes) that it
is read from, for a tensor its blocks and then their trailers; and for a tensor the BLOCK_ID, FORMAT and SCALE_CTRL that each block's trailer must
carry (R67). -/
structure Section where
  type : Nat
  tensor : Bool
  map : Nat
  bytes : List (BitVec 8)
  ranges : List (Nat × Nat)
  expect : List (Nat × Nat × Nat)
  deriving DecidableEq, Repr

/-- The MAP_INDEX of sections that the writer adds. -/
def noMap : Nat := 0xFFFFFFFF

/-- The unit of the checkpoint writer: referee chip channel 62 (R192). -/
def unitWriter : Nat := unitChipChannel 62

/-- The ranges of blocks with their trailers: the blocks, then the trailers in the same order (log entry 13). -/
def blockRanges (bs : List (Nat × Nat)) : List (Nat × Nat) := bs.map (fun b => (b.1, 4096)) ++ bs.map (fun b => (b.2, 16))

/-- The bytes of ranges as the checkpoint writer, a referee's agent, reads them. -/
def State.rangesBytes (s : State) (l : List (Nat × Nat)) : List (BitVec 8) := l.flatMap (fun r => s.bytesVia .referee r.1 r.2)

/-- The blocks of a tensor: (block, trailer) addresses in ascending trailer index; and what their trailers must carry. -/
def Desc.blockList (d : Desc) : List (Nat × Nat) :=
  (List.range (d.nblk + d.nsb)).map (fun t => (d.blockAddr t, d.trailerAddr t))
def Desc.blockExpect (d : Desc) : List (Nat × Nat × Nat) :=
  (List.range (d.nblk + d.nsb)).map (fun t => ((d.blockIdBase + t) % 2 ^ 32, d.trailerFormat t, d.scaleCtrl))

/-- The sections of the map of one type. -/
def State.mapSections (s : State) (p type : Nat) : List Section :=
  ((List.range (s.rd (.optCkptMapNentries p))).filter (fun m => decide (s.mapType p m = type))).map (fun m =>
    let d := s.mapDesc p m
    let rs := if mapTensor type then blockRanges d.blockList else [(s.mapAddr p m, s.mapLength p m)]
    { type := type, tensor := mapTensor type, map := m, bytes := s.rangesBytes rs, ranges := rs,
      expect := if mapTensor type then d.blockExpect else [] })

/-- Section 0x09: step number, GEXP, CLEAN, XFM_RNG_KEY0 and XFM_RNG_KEY1, 8 bytes each (log entry 13). -/
def State.optSection (s : State) (p step : Nat) : List (BitVec 8) :=
  bytesOfNat 8 step ++ bytesOfNat 8 (s.rd (.optStatusGexp p)) ++ bytesOfNat 8 (s.rd (.optStatusClean p)) ++
    bytesOfNat 8 (s.key0 (s.firstCore p)).toNat ++ bytesOfNat 8 (s.key1 (s.firstCore p)).toNat

/-- The ranges of section 0x07 (ladder, group table, tensor table), which EPOCH and PUBLISHED_STEP follow. -/
def State.pgvRanges (s : State) (p : Nat) : List (Nat × Nat) :=
  [(s.rungAt p 0 0, 192), (s.pgvGroupAt p 0, 64 * s.pgvGroups p), (s.tensorAt p 0, 128 * s.pgvTensors p)]

/-- Section 0x07. -/
def State.pgvSection (s : State) (p : Nat) : List (BitVec 8) :=
  s.rangesBytes (s.pgvRanges p) ++ bytesOfNat 8 (s.rd (.pgvEpochEpoch p)) ++ bytesOfNat 8 (s.rd (.pgvStatusPublishedStep p))

/-- The blocks of section 0x08: scale block 0 of every HIST tensor with a copy on this chip. -/
def State.histBlocks (s : State) (p : Nat) : List (Nat × Nat) :=
  ((s.histTensors p).filter (fun t => decide (s.tensorHdr p t ≠ 0))).map (fun t => (s.tensorHdr p t, s.tensorTrailer p t))

/-- What the trailer of a HIST tensor's scale block must carry. The tensor table names no BLOCK_ID and no SCALE_CTRL, so those that the
trailer holds stand (log entry 58). -/
def histExpect (trailer : Nat) : Nat × Nat × Nat := (bitsAt trailer 64 32, 0x0B, bitsAt trailer 104 8)

/-- Section 0x08. -/
def State.histSection (s : State) (p : Nat) : Section :=
  let bs := s.histBlocks p
  { type := 8, tensor := true, map := noMap, bytes := s.rangesBytes (blockRanges bs), ranges := blockRanges bs,
    expect := bs.map (fun b => histExpect (natOfBytes (s.bytesVia .referee b.2 16))) }

/-- The sections of a checkpoint of step `step`, in the order of Table 7-8. -/
def State.sections (s : State) (p step : Nat) : List Section :=
  let groups := [(s.groupAt p 0, 1024 * s.rd (.optGroupTableNgroups p))]
  s.mapSections p 0x0A ++ [⟨9, false, noMap, s.optSection p step, [], []⟩] ++
    [⟨6, false, noMap, s.rangesBytes groups, groups, []⟩] ++
    [⟨7, false, noMap, s.pgvSection p, s.pgvRanges p, []⟩] ++ [s.histSection p] ++
    s.mapSections p 1 ++ s.mapSections p 2 ++ s.mapSections p 3 ++ s.mapSections p 4 ++ s.mapSections p 5

/-- The event code and payload of a block that fails the steps of R67, if it does: `a` is its CPA, `da` its descriptor's, `i` its index. -/
def State.blockFault (s : State) (bs : List (BitVec 8)) (trailer : Nat) (poisoned : Bool) (e : Nat × Nat × Nat) (a da i : Nat) :
    Option (Code × Nat) :=
  let pay := blockPayload (s.global a) e.1 (bitsAt trailer 64 32)
  match (if poisoned then .check else checkBlock bs trailer e.1 e.2.1 e.2.2) with
  | .ok => none
  | .check => some (.intCheckFail, pay)
  | .id => some (.intBlockId, pay)
  | .poisoned => some (.intPoisoned, pay)
  | .format => some (.numFormatMismatch, payload [(16, 8, da), (24, 8, i)])

/-- The first fault of a section as it was read (R123, R248). -/
def State.sectionFault (s : State) (p : Nat) (x : Section) : Option (Code × Nat) :=
  if x.tensor then
    let k := x.expect.length
    (x.expect.zipIdx).findSome? (fun e =>
      let b := x.ranges.getD e.2 (0, 0)
      let t := x.ranges.getD (k + e.2) (0, 0)
      s.blockFault ((x.bytes.drop (4096 * e.2)).take 4096) (natOfBytes ((x.bytes.drop (4096 * k + 16 * e.2)).take 16))
        (s.poisoned b.1 4096 || s.poisoned t.1 16) e.1 b.1 (s.mapAt p x.map + 64) e.2)
  else (x.ranges.find? (fun r => s.poisoned r.1 r.2)).map (fun r => (Code.memUncorrectable, payload [(16, 8, r.1), (24, 1, tierNo r.1)]))

/-- The state after the events of faults of the checkpoint writer. -/
def State.raiseFaults (s : State) (p : Nat) (l : List (Code × Nat)) : State :=
  l.foldl (fun (s : State) f => s.raiseAs f.1 sevFailed unitWriter p f.2) s

/-- A row of bytes filled with zeros up to a multiple of 4 KiB. -/
def padBlock (bs : List (BitVec 8)) : List (BitVec 8) := bs ++ List.replicate (ceilDiv bs.length 4096 * 4096 - bs.length) 0

/-- The section table from an offset up (Table 7-9). -/
def sectionTable : Nat → List Section → List (BitVec 8)
  | _, [] => []
  | off, x :: t =>
    bytesOfNat 1 x.type ++ bytesOfNat 1 (flag x.tensor) ++ bytesOfNat 2 0 ++ bytesOfNat 4 x.map ++ bytesOfNat 8 off ++
      bytesOfNat 8 x.bytes.length ++ bytesOfNat 8 (if x.tensor then 0 else (crc64 x.bytes).toNat) ++
      sectionTable (off + ceilDiv x.bytes.length 4096 * 4096) t

/-- The bytes of an image: header, section table, sections. -/
def imageBytes (step chip shard members : Nat) (l : List Section) : List (BitVec 8) :=
  let head := ceilDiv (64 + 32 * l.length) 4096 * 4096
  let body := l.flatMap (fun x => padBlock x.bytes)
  let h := bytesOfNat 4 0x4B435A56 ++ bytesOfNat 2 1 ++ bytesOfNat 2 l.length ++ bytesOfNat 4 step ++ bytesOfNat 2 chip ++
    bytesOfNat 2 shard ++ bytesOfNat 4 members ++ bytesOfNat 8 (head + body.length) ++ List.replicate 28 0
  let t := sectionTable head l
  padBlock (h ++ bytesOfNat 8 (crc64 (h ++ t)).toNat ++ t) ++ body

/-- The number in `n` bytes of an image. -/
def imageNat (m : List Host.Cell) (off n : Nat) : Nat := natOfBytes (Mem.readBytes m off n)

/-- The sections of an image as it was read: (type, tensor, map entry, offset, length, CHECK). -/
def imageSections (m : List Host.Cell) : List (Nat × Bool × Nat × Nat × Nat × Nat) :=
  (List.range (imageNat m 6 2)).map (fun i =>
    let e := 64 + 32 * i
    (imageNat m e 1, bitAt (imageNat m (e + 1) 1) 0, imageNat m (e + 4) 4, imageNat m (e + 8) 8, imageNat m (e + 16) 8,
      imageNat m (e + 24) 8))

/-- What the trailers of a tensor section of an image must carry: those of its map entry's descriptor; of the scale blocks of the HIST tensors
what each trailer holds. -/
def State.imageExpect (s : State) (p : Nat) (m : List Host.Cell) (x : Nat × Bool × Nat × Nat × Nat × Nat) : List (Nat × Nat × Nat) :=
  if x.1 = 8 then
    let k := x.2.2.2.2.1 / 4112
    (List.range k).map (fun i => histExpect (imageNat m (x.2.2.2.1 + 4096 * k + 16 * i) 16))
  else (s.mapDesc p x.2.2.1).blockExpect

/-- The first fault of a section of an image of partition `p`: a block by the steps of R67, or the CHECK of another section, which has no
event of its own. -/
def State.imageFault (s : State) (p : Nat) (m : List Host.Cell) (x : Nat × Bool × Nat × Nat × Nat × Nat) : Option (Option (Code × Nat)) :=
  let off := x.2.2.2.1
  let len := x.2.2.2.2.1
  if x.2.1 then
    let es := s.imageExpect p m x
    let k := es.length
    if len ≠ 4112 * k then some none
    else
      let bad := (es.zipIdx).findSome? (fun e =>
        s.blockFault (Mem.readBytes m (off + 4096 * e.2) 4096) (imageNat m (off + 4096 * k + 16 * e.2) 16) false e.1
          (((s.mapDesc p x.2.2.1).blockList.getD e.2 (0, 0)).1) (s.mapAt p x.2.2.1 + 64) e.2)
      bad.map some
  else if (crc64 (Mem.readBytes m off len)).toNat = x.2.2.2.2.2 then none else some none

/-- Does the header of an image pass its CHECK? -/
def imageHeadOk (m : List Host.Cell) : Bool :=
  decide (imageNat m 0 4 = 0x4B435A56 ∧ imageNat m 4 2 = 1 ∧
    imageNat m 56 8 = (crc64 (Mem.readBytes m 0 56 ++ Mem.readBytes m 64 (32 * imageNat m 6 2))).toNat)

/-- Is an image of partition `p` intact: header CHECK, every section CHECK, every block and its trailer (R194)? -/
def State.imageOk (s : State) (p : Nat) (m : List Host.Cell) : Bool :=
  imageHeadOk m && (imageSections m).all (fun x => (s.imageFault p m x).isNone)

/-! ## Objects of tier 3 (R258) -/

/-- The lowest object identifier that the catalogue does not hold. -/
def freeObject (l : List (Nat × FlashObj)) : Nat :=
  ((List.range (l.length + 1)).map (· + 1)).find? (fun i => l.all (fun p => decide (p.1 ≠ i))) |>.getD 1

/-- The quota units of an object of a length. -/
def quotaUnits (n : Nat) : Nat := ceilDiv n gib16

/-- The state in which the checkpoint writer has created the image object of a checkpoint, WRITING, with its quota charged. -/
def State.openObject (s : State) (p id length : Nat) (bytes : List Host.Cell) : State :=
  let u := quotaUnits length
  (s.setObject id { FlashObj.empty with part := p, type := 3, state := 0, length := length, units := u, bytes := bytes }).wr (.memUseT3 p)
    (s.rd (.memUseT3 p) + u)

/-- The state in which an object is COMPLETE with its bytes. -/
def State.closeObject (s : State) (id : Nat) (bytes : List Host.Cell) : State :=
  match s.object id with
  | none => s
  | some y => s.setObject id { y with state := 1, dtime := s.dtime, bytes := bytes }

/-- The state after an object has been deleted, its quota returned. -/
def State.deleteObject (s : State) (id : Nat) : State :=
  match s.object id with
  | none => s
  | some y =>
    let s := s.dropObject id
    if y.part < 16 then s.wr (.memUseT3 y.part) (s.rd (.memUseT3 y.part) - y.units) else s

/-- The state after the object of a checkpoint that has failed has been deleted, if it has one. -/
def State.dropCkptObject (s : State) (x : Ckpt) : State := if x.object = 0 then s else s.deleteObject x.object

/-! ## Capture -/

/-- The chip of buddy `k` (R189, R327): the peer of an UP port towards octet position p + k. -/
def State.buddyChip (s : State) (k : Nat) : Option Nat :=
  ([2 * (k - 1), 2 * (k - 1) + 1].find? (fun n => s.portUp n)).map (fun n => s.rd (.lnkPortStatusPeerChip n))

/-- The bytes of a checkpoint's image. -/
def Ckpt.bytes (x : Ckpt) (off n : Nat) : List (BitVec 8) := Mem.readBytes x.image off n

/-- The place of unit `u` on its buddy: buddy and CPA. -/
def State.unitPlace (s : State) (p u : Nat) : Nat × Nat :=
  let w := s.rd (.optBuddyWays p)
  (u % w + 1, s.rd (.optBuddyBuddyBase p) + u % w * s.rd (.optBuddyStripeStripe p) + 4096 * (u / w))

/-- The state after unit `u` of a partition's capture has been sent to its buddy; a buddy that is not in the group view, or
not reached, fails the capture (R191). -/
def State.sendUnit (s : State) (p u : Nat) (bs : List (BitVec 8)) : State :=
  let place := s.unitPlace p u
  let fail (s : State) : State := s.modJob p (fun j => { j with capture := j.capture.map (fun x => { x with bad := true }) })
  match s.buddyChip place.1 with
  | none => fail s
  | some chip =>
    if (s.groupView p).members.contains chip = false ∨ s.canRoute (s.message 0x11 0 chip 0 0 0) = false then fail s
    else
      (writeParts 4097 place.2 bs).foldl (fun s m =>
        s.request unitReferee
          { tag := 0, agent := .capture p, serial := 0, dst := chip, type := m.1, addr := m.2.1, bytes := 32 * m.2.2.1,
            place := 0, got := 0, sent := 0 } m.2.2.1 m.2.1 m.2.2.2) s

/-- The state after NUM_CKPT_FAIL with a cause. -/
def State.ckptFail (s : State) (p step cause : Nat) : State :=
  s.raise .numCkptFail unitReferee p (payload [(16, 4, step), (20, 1, cause)])

/-- CHECKPOINT_CAPTURE_START (R188, R189): every section is read and verified, and every unit is sent; with WAYS 0 the image goes into tier 3 at
once. A drain in progress holds it. The steps of R67 that a buddy would take are taken here, on what is sent: links deliver it unchanged. -/
def execCheckpointCaptureStart (p : Nat) (s : State) : Host.Outcome State Fault Refusal :=
  match s.captureDue p with
  | none => .next s
  | some n =>
    if p ≥ 16 ∨ (s.job p).drain.isSome = true ∨ (s.job p).capture.isSome = true then .next s
    else
      let ss := s.sections p n
      let img := imageBytes (n % 2 ^ 32) s.chipId (s.job p).shard (s.groupView p).members.length ss
      let units := img.length / 4096
      let ways := s.rd (.optBuddyWays p)
      let big := decide (ways > 0 ∧ img.length > ways * s.rd (.optBuddyStripeStripe p))
      let faults := ss.filterMap (s.sectionFault p)
      let id := if ways = 0 then freeObject s.flash else 0
      let x : Ckpt := { step := n % 2 ^ 32, image := Mem.writeBytes [] 0 img, length := img.length, vote := none,
                        bad := big || !faults.isEmpty, object := id }
      let s := (s.seeReads .referee unitWriter (ss.flatMap (fun x => x.ranges))).raiseFaults p faults
      let s := s.modJob p (fun j => { j with capture := some x, captured := some n })
      let s := (s.wr (.optCkptStateCapture p) 1).wr (.optCkptStateSwDone p) 1
      if big then .next (s.ckptFail p (n % 2 ^ 32) 1)
      else if ways = 0 then .next (s.openObject p id img.length (Mem.writeBytes [] 0 img))
      else .next ((List.range units).foldl (fun s u => s.sendUnit p u ((img.drop (4096 * u)).take 4096)) s)

/-- The requests of a partition's capture (serial 0) or drain (serial 1) that have no response. -/
def State.ckptReqs (s : State) (p serial : Nat) : List Req :=
  s.reqs.filter (fun r => decide (r.agent = Agent.capture p ∧ r.serial = serial))

/-- CHECKPOINT_CAPTURE_END (R190): every unit has been acknowledged, or the capture has failed; the vote is fixed. -/
def execCheckpointCaptureEnd (p : Nat) (s : State) : Host.Outcome State Fault Refusal :=
  match (s.job p).capture with
  | none => .next s
  | some x =>
    if x.vote.isSome ∨ (x.bad = false ∧ (s.ckptReqs p 0).isEmpty = false) then .next s
    else
      let s := (s.setReqs (s.reqs.filter (fun r => !(decide (r.agent = Agent.capture p ∧ r.serial = 0)))))
      .next ((s.modJob p (fun j => { j with capture := some { x with vote := some (!x.bad) } })).wr (.optCkptStateCapture p) 0)

/-! ## Completion -/

/-- The state after the drain of an image has begun: the stripes are asked back from the buddies, each of which must still be in the group view
(R191), into an object that is WRITING (R192, R258). With WAYS 0 the image is in its object already. -/
def State.askStripes (s : State) (p : Nat) (x : Ckpt) : State :=
  let fail (s : State) : State := s.modJob p (fun j => { j with drain := j.drain.map (fun x => { x with bad := true }) })
  if x.object ≠ 0 then s
  else
    let id := freeObject s.flash
    let s := (s.openObject p id x.length []).modJob p (fun j => { j with drain := some { x with image := [], object := id } })
    (List.range (x.length / 4096)).foldl (fun s u =>
      let place := s.unitPlace p u
      match s.buddyChip place.1 with
      | none => fail s
      | some chip =>
        if (s.groupView p).members.contains chip = false ∨ s.canRoute (s.message 0x10 0 chip 0 0 0) = false then fail s
        else (List.range 8).foldl (fun s i =>
          s.request unitReferee
            { tag := 0, agent := .capture p, serial := 1, dst := chip, type := 0x10, addr := place.2 + 512 * i, bytes := 512,
              place := 4096 * u + 512 * i, got := 0, sent := 0 } 0 (place.2 + 512 * i + 16 * 2 ^ 56) 0) s) s

/-- The partitions that hold a job. -/
def State.loadedJobs (s : State) : List Nat := (List.range 16).filter (fun p => decide (2 ≤ s.rd (.hifPartStatusState p) ∧ s.rd (.hifPartStatusState p) ≤ 4))

/-- The state of a flagged chip after a checkpoint has completed (R135): once every job has completed one since the flag, the jobs stop, those
that run at the end of the step that runs. -/
def State.flagStop (s : State) : State :=
  let js := s.loadedJobs
  if s.rdBit .refReadyFlagged && js.all (fun q => (s.job q).flagDone) then
    js.foldl (fun (s : State) q =>
      if s.rd (.hifPartStatusState q) = 4 then s.stopJob q (s.rd (.optCkptStatusLastComplete q)) .intReplaceChip
      else
        let step := ((s.coresOf q).map (fun c => s.pmkStep c)).foldl max 0 % 2 ^ 32
        (s.modJob q (fun j => { j with stopDue := true })).setHaltAt (s.haltAt ++ [(q, step)])) s
  else s

/-- The state after the jobs whose stop is due and whose cores have all halted at a step boundary have stopped. -/
def State.stopTick (s : State) : State :=
  ((List.range 16).filter (fun p => (s.job p).stopDue && (s.coresOf p).all (fun c => decide ((s.core c).pstate = 2)))).foldl
    (fun (s : State) p => (s.modJob p (fun j => { j with stopDue := false })).stopJob p (s.rd (.optCkptStatusLastComplete p)) .intReplaceChip) s

/-- The state after a checkpoint of step `step` has completed (R190): LAST_COMPLETE, the drain begins. -/
def State.ckptComplete (s : State) (p : Nat) (x : Ckpt) : State :=
  let s := (s.wr (.optCkptStatusLastComplete p) x.step).raise .numCkptComplete unitReferee p (payload [(16, 4, x.step)])
  let s := (s.count (Reg.optCnt p 7) 1).wr (.hifPartStatusRestarts p) 0
  let flagged := s.rdBit .refReadyFlagged
  let s := s.modJob p (fun j => { j with
    capture := none
    drain := some { x with vote := none }
    complete := some x.step
    diverged := 0
    flagDone := flagged })
  ((s.wr (.optCkptStateDrain p) 1).askStripes p x).flagStop

/-- OPT_CONSTANTS (R173, R190): the reduced words have come, or the reduction has failed (R172). -/
def execOptConstants (p : Nat) (s : State) : Host.Outcome State Fault Refusal :=
  match (s.job p).norm, s.red p 1 with
  | some n, some r =>
    match r.outcome with
    | none => .next s
    | some k =>
      let s := (s.dropRed p 1).modJob p (fun j => { j with norm := none })
      if k ≠ 0 then
        let s := (s.wr (.optStatusBusy p) 0).raise .numOptReduceFail (s.unitOpt p) p (payload [(16, 4, n)])
        .next (s.stopJob p n .numOptReduceFail)
      else
        let s := s.publishConstants p n (r.value.getD 0 0) (r.value.getD 1 0)
        match (s.job p).capture with
        | none => .next s
        | some x =>
          if x.vote.isNone then .next s
          else if r.value.getD 2 0 = f32OfNat r.members.length then .next (s.ckptComplete p x)
          else .next (((s.modJob p (fun j => { j with capture := none })).dropCkptObject x).ckptFail p x.step 2)
  | _, _ => .next s

/-! ## Drain (R192) -/

/-- Has a buddy whose stripes have not all come left the group view (R191)? -/
def State.buddyLeft (s : State) (p : Nat) : Bool := (s.ckptReqs p 1).any (fun r => !((s.groupView p).members.contains r.dst))

/-- The blocks of the tensor sections of an image. -/
def imageBlocks (m : List Host.Cell) : Nat := ((imageSections m).map (fun x => if x.2.1 then x.2.2.2.2.1 / 4112 else 0)).foldl (· + ·) 0

/-- CHECKPOINT_DRAIN_DONE: every stripe has come back and passes its checks, so the image object is COMPLETE and the one before
it deleted; or the drain fails with cause 3 and its object goes. Channel 62 counts what it has moved. -/
def execCheckpointDrainDone (p : Nat) (s : State) : Host.Outcome State Fault Refusal :=
  match (s.job p).drain with
  | none => .next s
  | some x =>
    if x.bad = false ∧ (s.ckptReqs p 1).isEmpty = false ∧ s.buddyLeft p = false then .next s
    else
      let bad := x.bad || !((s.ckptReqs p 1).isEmpty)
      let s := (s.setReqs (s.reqs.filter (fun r => !(decide (r.agent = Agent.capture p ∧ r.serial = 1)))))
      let s := (s.modJob p (fun j => { j with drain := none })).wr (.optCkptStateDrain p) 0
      let faults := if bad then [] else (imageSections x.image).filterMap (fun y => (s.imageFault p x.image y).bind id)
      let s := s.raiseFaults p faults
      if bad || !(s.imageOk p x.image) then .next ((s.dropCkptObject x).ckptFail p x.step 3)
      else
        let s := ((s.closeObject x.object x.image).countChan (.chip 62) 0 x.length).countChan (.chip 62) 1 (imageBlocks x.image)
        let s := (s.job p).images.foldl (fun (s : State) o => s.deleteObject o.2) s
        let s := (s.modJob p (fun j => { j with images := [(x.step, x.object)] })).wr (.optCkptStatusLastDrained p) x.step
        .next (s.raise .numCkptDrained unitReferee p (payload [(16, 4, x.step)]))

/-! ## Fingerprints (R138, R139) -/

/-- The weight blocks of the shard: (block, trailer) addresses, and what their trailers must carry. -/
def State.weightBlocks (s : State) (p : Nat) : List ((Nat × Nat) × (Nat × Nat × Nat)) :=
  ((List.range (s.rd (.optCkptMapNentries p))).filter (fun m => decide (s.mapType p m = 1))).flatMap (fun m =>
    (s.mapDesc p m).blockList.zip (s.mapDesc p m).blockExpect)

/-- The fingerprint of the shard's weight blocks: the CRC-64 of their trailers' CHECK fields. -/
def State.fingerprintOf (s : State) (p : Nat) : Nat :=
  (crc64 ((s.weightBlocks p).flatMap (fun b => s.bytesVia .referee b.1.2 8))).toNat

/-- The state after this chip has begun a fingerprint round of a partition, if one is due: it computes the fingerprint of its copy,
and goes on as `go` says of it. -/
def State.fpRound (s : State) (p : Nat) (go : State → Nat → State) : State :=
  match s.endedStep p with
  | none => s
  | some n =>
    if p ≥ 16 ∨ s.fingerprintDue p n = false ∨ (s.job p).fingerprint.isSome = true ∨ (s.job p).pass.isSome = true then s
    else
      let fp := s.fingerprintOf p
      go ((s.seeReads .referee unitReferee ((s.weightBlocks p).map (fun b => (b.1.2, 8)))).modJob p
        (fun j => { j with fingerprint := some (n, fp) })) fp

/-- FINGERPRINT_ROUND: at the end of every FP_INTERVAL-th step this chip computes the fingerprint of its copy. A chip that does not
own the shard sends it to the owner; the owner counts the copies that differ into the fused reduction (of class PGV; log entry 59). -/
def execFingerprintRound (round : FpRound) (s : State) : Host.Outcome State Fault Refusal :=
  match round with
  | .copy p => .next (s.fpRound p (fun s fp => (s.setOut (s.out ++ [.fingerprint p fp])).startRed p 2 1 [0]))
  | .owner p l =>
    .next (s.fpRound p (fun s fp => s.startRed p 2 1 [f32OfNat (l.filter (fun x => decide (x ≠ fp))).length]))

/-- The state after a weight block has been fetched again from the owner: `reads` are its reads in order, at most three, each of 4,112 bytes
as a number. The first that passes the steps of R67 is written; with none, the last is, under a poisoned trailer (R125). -/
def State.refetch (s : State) (p : Nat) (b : (Nat × Nat) × (Nat × Nat × Nat)) (reads : List Nat) : State :=
  let fault (x : Nat) : Option (Code × Nat) := s.blockFault (bytesOfNat 4096 x) (bitsAt x 32768 128) false b.2 b.1.1 0 0
  let put (s : State) (x t : Nat) : State := (s.writeVia .referee unitReferee b.1.1 4096 x).writeVia .referee unitReferee b.1.2 16 t
  let l := reads.take 3
  match l.find? (fun x => (fault x).isNone), l.head?.bind fault with
  | some x, none => put s x (bitsAt x 32768 128)
  | some x, some f => put (s.raiseAs f.1 sevRecovered unitReferee p f.2) x (bitsAt x 32768 128)
  | none, some f =>
    let x := l.getLastD 0
    let t := bitsAt x 32768 128
    put (s.raiseAs f.1 sevFailed unitReferee p f.2) x (if bitsAt t 96 8 = 0 then t else poisonTrailer (bytesOfNat 4096 x) t)
  | none, none => s

/-- The reads of each block in order: its first, then its further ones. -/
def readsOf : List Nat → List (List Nat) → List (List Nat)
  | [], _ => []
  | x :: t, l => (x :: l.headD []) :: readsOf t l.tail

/-- FINGERPRINT_RESULT (R139): the reduced number of differing copies has come. `reads` are the weight blocks that this chip, whose copy
differs, has fetched again, in their order, and `again` the further reads of each (R125); a reduction that has failed gives no
count. -/
def execFingerprintResult (p : Nat) (reads : List Nat) (again : List (List Nat)) (s : State) : Host.Outcome State Fault Refusal :=
  match (s.job p).fingerprint, s.red p 2 with
  | some (n, _), some r =>
    match r.outcome with
    | none => .next s
    | some k =>
      let count := if k = 0 then natOfF32 (r.value.getD 0 0) else 0
      let s := (s.dropRed p 2).modJob p (fun j => { j with fingerprint := none, fpDone := some n })
      if count = 0 then .next s
      else
        let s := s.modJob p (fun j => { j with diverged := j.diverged + 1 })
        let k := (s.job p).diverged
        let pay := payload [(16, 4, (s.job p).shard), (20, 4, count), (24, 4, n), (28, 1, k)]
        if k = 1 then
          .next ((((s.weightBlocks p).zip (readsOf reads again)).foldl (fun (s : State) x => s.refetch p x.1 x.2) s).raiseAs .intReplicaDiverge sevRecovered
            unitReferee p pay)
        else .next ((s.raiseAs .intReplicaDiverge sevFailed unitReferee p pay).stopJob p (n % 2 ^ 32) .intReplicaDiverge)
  | _, _ => .next s

end Sys2Proof.Machine
end

