-- ==== Sys2Proof/Machine/Link.lean ====
section
/-!
DEFINITION. The Ergal link layer (sections 13.1 to 13.3): the requests that wait for responses, flits with FEC, CRC and replay
(R330, R331), credits (R333), port bring-up (R328, R329) and failure (R335).
-/
namespace Sys2Proof.Machine

/-! ## Requests (R335) -/

/-- The state with a request forgotten. -/
def State.dropReq (s : State) (tag : Nat) : State := (s.setReqs (s.reqs.filter (fun r => !(decide (r.tag = tag)))))

/-- The outstanding request that a response names: by its TAG and the chip that answers. -/
def State.reqOf (s : State) (m : Msg) : Option Req := s.reqs.find? (fun r => decide (r.tag = m.tag ∧ r.dst = m.src))

/-- The state with the transfer that a request belongs to changed, if it still runs. -/
def State.modReqXfer (s : State) (r : Req) (f : Xfer → Xfer) : State :=
  s.modChan r.agent.key (fun k => { k with
    xfer := k.xfer.map (fun x => if x.serial = r.serial ∧ x.agent = r.agent then f x else x) })

/-- The state after a request has failed with a code: its transfer fails with it (R337). -/
def State.failReq (s : State) (r : Req) (code : Nat) : State :=
  let s := s.dropReq r.tag
  match r.agent with
  | .alternate o =>
    match s.recovery o with
    | some z => s.setRecovery { z with altFailed := true }
    | none => s
  | .capture p => s.modJob p (fun j =>
      if r.serial = 0 then { j with capture := j.capture.map (fun x => { x with bad := true }) }
      else { j with drain := j.drain.map (fun x => { x with bad := true }) })
  | _ => s.modReqXfer r (fun x => { x with failed := some code })

/-- The state after the data of a response has reached its requester, at an offset within the request. -/
def State.reqData (s : State) (r : Req) (offset : Nat) (bs : List (BitVec 8)) : State :=
  let bs := bs.take (r.bytes - offset)
  let got := r.got + bs.length
  let s := if got ≥ r.bytes then s.dropReq r.tag
    else (s.setReqs (s.reqs.map (fun q => if q.tag = r.tag then { q with got := got } else q)))
  match r.agent with
  | .alternate o =>
    match s.recovery o with
    | some z => s.setRecovery { z with buf := Mem.writeBytes z.buf (r.place + offset) bs }
    | none => s
  | .capture p => s.modJob p (fun j => { j with
      drain := j.drain.map (fun x => { x with image := Mem.writeBytes x.image (r.place + offset) bs }) })
  | _ => s.modReqXfer r (fun x => { x with buf := Mem.writeBytes x.buf (r.place + offset) bs })

/-- Is a message type a request? -/
def msgRequest (t : Nat) : Bool := decide (0x10 ≤ t ∧ t ≤ 0x13)

/-- The answer ERR_RSP to a request. -/
def Msg.errRsp (m : Msg) (code : Nat) : Msg := { type := 0x22, len := 0, hops := 0, dst := m.src, src := m.dst, tag := m.tag, arg := code, data := 0 }

/-- The state with the receive slots of a message owed back to the peer of the port that holds it (R333, R336). -/
def State.freeVia (s : State) (m : Msg) : State :=
  match m.via with
  | none => s
  | some n =>
    let vc := msgVc m.type
    s.modPort n (fun p => { p with freed := p.freed.set vc (p.freed.getD vc 0 + m.slotCount) })

/-- The severity of LNK_UNREACHABLE (R268, R338): FAILED where a request or a reduction fails with the message. -/
def msgSev (type : Nat) : Nat := if msgRequest type ∨ type = 0x40 ∨ type = 0x41 then sevFailed else sevNotice

/-- The state after a message has been dropped for want of a route (R335): LNK_UNREACHABLE, and for a request an ERR_RSP to
its source. -/
def State.dropMsg (s : State) (m : Msg) : State :=
  let s := s.freeVia m
  let own := decide (m.src = s.chipId)
  let r := s.reqs.find? (fun r => decide (r.tag = m.tag ∧ r.dst = m.dst))
  let s := s.unreachable (msgSev m.type) noPart m
  if msgRequest m.type then
    if own then
      match r with
      | some r => s.failReq r Code.lnkUnreachable.val
      | none => s
    else
      let e := m.errRsp Code.lnkUnreachable.val
      s.sendMsg unitLink sevNotice noPart e
  else s

/-- LNK_REQUEST_TIMEOUT (R335): the request with a tag has had no response within REQ_TIMEOUT_MS. -/
def execLnkRequestTimeout (tag : Nat) (s : State) : Host.Outcome State Fault Refusal :=
  match s.reqs.find? (fun r => decide (r.tag = tag)) with
  | none => .next s
  | some r =>
    let s := (s.setDtime (max s.dtime (r.sent + 1000000 * max 1 (s.rd .lnkCfgReqTimeoutMs))))
    .next ((s.raise .lnkTimeout (s.agentUnit r.agent) (s.agentPart r.agent)
      (payload [(16, 2, r.dst), (18, 1, r.type), (20, 8, r.addr)])).failReq r Code.lnkTimeout.val)

/-- The state after the requests that wait for receive space have been sent, in order, as far as it reaches (R333). -/
def State.sendHeld (s : State) : Nat → State
  | 0 => s
  | n + 1 =>
    match s.reqs.find? (fun r => r.hold.isSome) with
    | none => s
    | some r =>
      if s.rspRoom r then
        let s := s.setReqs (s.reqs.map (fun q => if q.tag = r.tag then { q with hold := none } else q))
        (match r.hold with
          | none => s
          | some m => if s.canRoute m then s.enqueueMsg m.unit m else s.dropMsg m).sendHeld n
      else s

/-! ## Flits (R330) -/

/-- The number of a flit's 16 slots, and its 260 bytes under the CRC, and the whole. -/
def slotsNat : List Nat → Nat
  | [] => 0
  | x :: t => x % 2 ^ 128 + 2 ^ 128 * slotsNat t
def flitBytes (body seq ack kind : Nat) : Nat :=
  let v := body % 2 ^ 2048 + (seq % 4096 + ack % 4096 * 2 ^ 12 + kind % 4 * 2 ^ 24) * 2 ^ 2048
  v + (crc32c (bytesOfNat 260 v)).toNat * 2 ^ 2080

/-- The 272 transmitted bytes of a logical flit: codeword 0, then codeword 1, each data and then parity. -/
def flitSent (l : Nat) : List Nat :=
  let word (k : Nat) : List Nat := (List.range 132).map (fun i => bytesAt l (132 * k + i) 1)
  word 0 ++ eccFlit.parity (word 0) ++ word 1 ++ eccFlit.parity (word 1)

/-- The bytes of each lane as a number: transmitted byte j goes on lane j mod 4. -/
def flitLanes (l : Nat) : List Nat :=
  let t := flitSent l
  (List.range 4).map (fun k => (List.range 68).foldl (fun v i => v + t.getD (4 * i + k) 0 * 256 ^ i) 0)

/-- The fields of a flit's control field (Table 13-3). -/
def flitSeq (l : Nat) : Nat := bitsAt l 2048 12
def flitAck (l : Nat) : Nat := bitsAt l 2060 12
def flitKind (l : Nat) : Nat := bitsAt l 2072 2
def flitCrcOk (l : Nat) : Bool := decide (bitsAt l 2080 32 = (crc32c (bytesOfNat 260 (l % 2 ^ 2080))).toNat)

/-- A logical flit with a pattern of errors on its bytes exclusive-ored in. -/
def flipBytes (l : Nat) (errs : List (Nat × Nat)) : Nat := errs.foldl (fun l x => l ^^^ (x.2 % 256) * 2 ^ (8 * x.1)) l

/-- The decoding of a received flit: the logical bytes, and the bytes corrected; none where a codeword fails. `errs` are the
errors of the link: (transmitted byte, exclusive-or value). -/
def flitDecode (l : Nat) (errs : List (Nat × Nat)) : Option (Nat × Nat) :=
  let half (k : Nat) : List (Nat × Nat) := (errs.filter (fun x => decide (x.1 / 136 = k))).map (fun x => (x.1 % 136, x.2))
  match eccFlit.decodeTwo (half 0), eccFlit.decodeTwo (half 1) with
  | some a, some b =>
    let place (k : Nat) (e : List (Nat × Nat)) : List (Nat × Nat) :=
      (e.filter (fun x => decide (x.1 < 132))).map (fun x => (132 * k + x.1, x.2))
    some (flipBytes l (place 0 (half 0 ++ a) ++ place 1 (half 1 ++ b)), a.length + b.length)
  | _, _ => none

/-- Full credits (R333). -/
def fullCredits : List Nat := [4096, 4096, 256, 2048, 256]

/-- The message in a row of slots: a header and its data. -/
def msgOfSlots (l : List Nat) : Msg :=
  let h := l.headD 0
  { type := h % 256, len := bitsAt h 8 5, hops := bitsAt h 13 3, dst := bitsAt h 16 16, src := bitsAt h 32 16,
    tag := bitsAt h 48 16, arg := bitsAt h 64 64, data := slotsNat l.tail }

/-- The slots of a flit's body taken into a port: the messages that become whole, and the slots of one that is not (R332). -/
def parseSlots : List Nat → List Nat → List Msg → List Msg × List Nat
  | [], rx, done => (done, rx)
  | x :: t, rx, done =>
    if rx.isEmpty && decide (x % 256 = 0) then (done, rx)
    else
      let l := rx ++ [x]
      if l.length ≥ (msgOfSlots l).slotCount then parseSlots t [] (done ++ [msgOfSlots l]) else parseSlots t l done

/-- The 16 slots of a body. -/
def bodySlots (body : Nat) : List Nat := (List.range 16).map (fun i => bitsAt body (128 * i) 128)

/-- The state after whole messages have come in at a port: those of a type that Table 13-5 does not give are discarded; a
flit that is not DATA carries CREDIT alone. -/
def State.msgsIn (s : State) (n : Nat) (creditsOnly : Bool) (ms : List Msg) : State :=
  ms.foldl (fun s m =>
    if m.type = 1 ∨ (msgKnown m.type = true ∧ creditsOnly = false) then (s.setInbox (s.inbox ++ [(n, m)]))
    else s.count (Reg.lnkPortCnt n 3) 1) s

/-! ## Sending -/

/-- The CREDIT message for the slots to return (Table 13-5). -/
def creditMsg (freed : List Nat) : Msg :=
  { type := 1, len := 0, hops := 0, dst := 0, src := 0, tag := 0,
    arg := (freed.mapIdx (fun i n => min n 4095 * 2 ^ (12 * i))).foldl (· + ·) 0, data := 0 }

/-- The message that may start next: the first with credit for all of its slots (R333) that no earlier one of its virtual channel
waits before (R17, R334). -/
def pickMsg (credits : List Nat) : List Nat → List Msg → Option Msg
  | _, [] => none
  | shut, m :: t =>
    let vc := msgVc m.type
    if !(shut.contains vc) && decide (m.slotCount ≤ credits.getD vc 0) then some m else pickMsg credits (vc :: shut) t
def Port.pick (p : Port) : Option Msg := pickMsg p.credits [] p.txq

/-- The messages of a port put into at most `room` slots of a flit: the port, the slots, and the messages that have started. -/
def fillSlots (seq : Nat) : Nat → Nat → Port → List Nat → List Msg → Port × List Nat × List Msg
  | 0, _, p, acc, ms => (p, acc, ms)
  | f + 1, room, p, acc, ms =>
    if room = 0 then (p, acc, ms)
    else
      match p.partly with
      | some (left, m) =>
        let k := min left room
        let ws := (m.toSlots.drop (m.slotCount - left)).take k
        let p := if left ≤ room then { p with partly := none, sent := p.sent ++ [(seq, m)] }
          else { p with partly := some (left - k, m) }
        fillSlots seq f (room - k) p (acc ++ ws) ms
      | none =>
        match p.pick with
        | none => (p, acc, ms)
        | some m =>
          let vc := msgVc m.type
          fillSlots seq f room { p with
            txq := p.txq.erase m
            partly := some (m.slotCount, { m with via := none })
            credits := p.credits.set vc (p.credits.getD vc 0 - m.slotCount) } acc (ms ++ [m])

/-- Has a port slots to return? -/
def Port.owesCredit (p : Port) : Bool := p.freed.any (fun n => decide (n > 0))

/-- The port after its slots to return have gone into a CREDIT message, and the slot of that message. -/
def Port.takeCredit (p : Port) : Port × List Nat :=
  if p.owesCredit then ({ p with freed := p.freed.map (fun n => n - min n 4095) }, [(creditMsg p.freed).header]) else (p, [])

/-- Can a message of a port start or go on? -/
def Port.canSend (p : Port) : Bool :=
  p.partly.isSome || p.pick.isSome

/-- The state after a flit has been sent: its acknowledgement counts. -/
def State.flitOut (s : State) (n : Nat) (p : Port) (l : Nat) : State :=
  let s := s.modPort n (fun _ => { p with sinceAck := 0, lastAck := s.dtime })
  (s.setOut (s.out ++ [Output.flit n (flitLanes l)])).count (Reg.lnkPortCnt n 0) 1

/-- The state after port `n` has sent one flit, if it has something to send: a replayed flit, a NAK, data, or an IDLE flit that
returns slots or acknowledges (`force`). -/
def State.sendFlit (s : State) (n : Nat) (force : Bool) : State :=
  let p := s.port n
  if s.portUp n = false then s
  else
    match p.resend with
    | (q, body) :: t => s.flitOut n { p with resend := t } (flitBytes body q p.ack 0)
    | [] =>
      if p.owesNak then
        let c := p.takeCredit
        s.flitOut n { c.1 with owesNak := false } (flitBytes (slotsNat c.2) 0 p.ack 2)
      else if p.canSend && decide (p.replay.length < 1024) then
        let c := p.takeCredit
        let f := fillSlots p.seq 40 (16 - c.2.length) c.1 c.2 []
        let body := slotsNat f.2.1
        let s := s.flitOut n { f.1 with seq := (p.seq + 1) % 4096, replay := p.replay ++ [(p.seq, body)] } (flitBytes body p.seq p.ack 0)
        f.2.2.foldl State.freeVia s
      else if p.owesCredit || force || decide (p.sinceAck ≥ 64) then
        let c := p.takeCredit
        s.flitOut n c.1 (flitBytes (slotsNat c.2) 0 p.ack 1)
      else s

/-- ACK_TIMER (R331): 0.5 us after its last acknowledgement the receiver sends an ACK. -/
def execAckTimer (port : Nat) (s : State) : Host.Outcome State Fault Refusal :=
  if port < 18 ∧ s.portUp port = true ∧ (s.port port).sinceAck > 0 then
    let s := (s.setDtime (max s.dtime ((s.port port).lastAck + 500)))
    let p := s.port port
    let c := p.takeCredit
    .next (s.flitOut port { c.1 with owesNak := false } (flitBytes (slotsNat c.2) 0 p.ack (if p.owesNak then 2 else 1)))
  else .next s

/-! ## Ports -/

/-- The state after a message has been put before those that wait, on a port of its route; or dropped. -/
def State.rerouteFirst (s : State) (m : Msg) : State :=
  if s.canRoute m then
    let l := s.routePorts m.dst
    let n := l.getD (Config.routeHash m.src m.unit m.routeKey % l.length) 0
    s.modPort n (fun p => { p with txq := m :: p.txq })
  else s.dropMsg m

/-- The state with a port in a step of its bring-up (Table 13-2), or DOWN (0) or UP (6). -/
def State.setStep (s : State) (n k : Nat) : State :=
  (s.modPort n (fun p => { p with step := if k = 0 then p.step else k })).wr (.lnkPortStatusState n) k

/-- The state with a port reset and DOWN. -/
def State.closePort (s : State) (n : Nat) : State :=
  ((s.modPort n (fun _ => Port.reset)).wr (.lnkPortStatusState n) 0).wr (.lnkPortStatusLanes n) 0

/-- The state after an UP port has gone down (R335): LNK_PORT_DOWN, and its messages go to another port of their route, those
not acknowledged first, in order. -/
def State.portDown (s : State) (n step : Nat) : State :=
  let p := s.port n
  let ms := p.sent.map (fun x => x.2) ++ (p.partly.map (fun x => x.2)).toList ++ p.txq
  let s := s.closePort n
  let s := s.raise .lnkPortDown (unitPort n 63) noPart (payload [(16, 1, n), (17, 1, step)])
  ms.reverse.foldl State.rerouteFirst s

/-- The state after a port has begun to retrain (R331): it keeps its replay buffer. -/
def State.retrain (s : State) (n : Nat) : State :=
  let s := s.modPort n (fun p => { p with retrain := some s.dtime, helloed := false, nakRun := 0 })
  (s.setStep n 1).count (Reg.lnkPortCnt n 5) 1

/-- The state after a port's bring-up begins, if it is enabled and the chip has its identity (R328). A port in Ethernet mode has
none of the steps of Table 13-2: it is UP (log entry 16). -/
def State.startPort (s : State) (n : Nat) : State :=
  if s.rdBit (.lnkPortCtrlEnable n) && s.rdBit .lnkIdentLock && decide (s.rd (.lnkPortStatusState n) = 0) &&
      !(s.referee.cut.contains n) then
    if s.rd (.lnkPortCtrlMode n) = 0 then (s.modPort n (fun _ => Port.reset)).setStep n 1
    else ((s.modPort n (fun _ => Port.reset)).setStep n 6).wr (.lnkPortStatusLanes n) 15
  else s

/-- LNK_IDENT_LOCK (R328): LOCK of LNK_IDENT is written 1. -/
def execLnkIdentLock (pf : Bool) (s : State) : Host.Outcome State Fault Refusal :=
  if s.barShut pf then .next (s.barAnswer pf) else
  if pf = false then .next (s.count (Reg.hifCnt 0) 1)
  else if s.rdBit .lnkIdentLock then .next s
  else .next ((List.range 18).foldl State.startPort (s.wr .lnkIdentLock 1))

/-- PORT_ENABLE: LNK_PORT_CTRL_n is written by the physical function (R328, R339). A write that changes ENABLE of a claimed
port, or MODE of an enabled or claimed one, is discarded and counted in LNK_CNT_0. -/
def State.portCtrlWrite (s : State) (pf : Bool) (n value : Nat) : State :=
  let en := bitAt value 0
  let mode := bitsAt value 1 1
  let on := s.rdBit (.lnkPortCtrlEnable n)
  let claimed := s.rdBit (.lnkPortStatusClaimed n)
  if pf = false then s.count (Reg.hifCnt 0) 1
  else if n ≥ 18 then s
  else if (claimed = true ∧ en ≠ on) ∨ (mode ≠ s.rd (.lnkPortCtrlMode n) ∧ (on = true ∨ claimed = true)) then
    s.count (Reg.lnkCnt 0) 1
  else
    let was := s.portTakes n
    let s' := ((s.wr (.lnkPortCtrlMode n) mode).wr (.lnkPortCtrlPartition n) (bitsAt value 2 4)).wr (.lnkPortCtrlReplayWarn n)
      (bitsAt value 16 16)
    let s' := s'.wr (.lnkPortCtrlEnable n) (flag en)
    if en = true ∧ on = false then s'.startPort n
    else if en = false ∧ on = true then (if was then s'.portDown n (s.port n).step else s'.closePort n)
    else s'
def execPortEnable (pf : Bool) (port value : Nat) (s : State) : Host.Outcome State Fault Refusal :=
  if s.barShut pf then .next (s.barAnswer pf) else
  .next (s.portCtrlWrite pf port value)

/-- The state after a step of a port's bring-up has failed: the sequence starts again after 100 ms. A port that retrains stays
so until it is UP or its time is over. -/
def State.bringupFailed (s : State) (n : Nat) : State :=
  (s.modPort n (fun p => { p with helloed := false })).setStep n 0

/-- PORT_BRINGUP_DONE (R328): the step of the bring-up in progress ends: it has failed, or the next one begins, or after step 5 the
port is UP on a mask of lanes. DESIGN CHOICE (log entry 61): one command ends one step. Step 4 ends when HELLO has succeeded. -/
def execPortBringupDone (port : Nat) (failed : Option Nat) (lanes : Nat) (s : State) : Host.Outcome State Fault Refusal :=
  let st := s.rd (.lnkPortStatusState port)
  if port ≥ 18 ∨ st = 0 ∨ st = 6 then .next s
  else if failed.isSome ∨ (st ≥ 4 ∧ (s.port port).helloed = false) then .next (s.bringupFailed port)
  else if st < 5 then .next (s.setStep port (st + 1))
  else
    let s := s.modPort port (fun p => { p with
      credits := fullCredits
      freed := [0, 0, 0, 0, 0]
      resend := (if p.retrain.isSome then p.replay else [])
      retrain := none
      lastAck := s.dtime })
    let mask := if lanes = 3 ∨ lanes = 12 then lanes else 15
    let s := (s.setStep port 6).wr (.lnkPortStatusLanes port) mask
    let s := s.raise .lnkPortUp (unitPort port 63) noPart (payload [(16, 1, port), (17, 2, s.rd (.lnkPortStatusPeerChip port)),
      (19, 1, s.rd (.lnkPortStatusPeerPort port))])
    .next (if mask = 15 then s
      else s.raise .lnkLaneDegraded (unitPort port 63) noPart (payload [(16, 1, port), (17, 1, mask)]))

/-- PORT_RETRY_TIMER (R328): 100 ms after a failed step the sequence starts again from step 1. -/
def execPortRetryTimer (port : Nat) (s : State) : Host.Outcome State Fault Refusal :=
  if port ≥ 18 then .next s
  else if (s.port port).retrain.isSome ∧ s.rd (.lnkPortStatusState port) = 0 then .next (s.setStep port 1)
  else .next (s.startPort port)

/-- PORT_DOWN (R328, R335): an UP port goes down at a step. -/
def execPortDown (port step : Nat) (s : State) : Host.Outcome State Fault Refusal :=
  .next (if port < 18 ∧ s.portUp port = true then s.portDown port step else s)

/-- RETRAIN_TIMEOUT (R331): a retraining port is not UP within 250 ms, so it goes down. -/
def execRetrainTimeout (port : Nat) (s : State) : Host.Outcome State Fault Refusal :=
  match (s.port port).retrain with
  | none => .next s
  | some t => .next ((s.setDtime (max s.dtime (t + 250000000))).portDown port (s.port port).step)

/-! ## HELLO (R329) -/

/-- The HELLO of a port: CHIP_ID, POD_ID, OCTET, POSITION and port number in one unit (log entry 14). -/
def State.helloMsg (s : State) (n : Nat) : Msg :=
  s.message 0x50 1 0xFFFF 0 0 (s.chipId + s.rd .lnkIdentPodId * 2 ^ 16 + s.rd .lnkIdentOctet * 2 ^ 32 +
    s.rd .lnkIdentPosition * 2 ^ 40 + n * 2 ^ 48)

/-- MSG_HELLO: the peer's HELLO comes in step 4 of a bring-up: our own goes out, the peer's is checked, and its route is set. -/
def execMsgHello (port chip pod octet position peer : Nat) (s : State) : Host.Outcome State Fault Refusal :=
  let st := s.rd (.lnkPortStatusState port)
  if port ≥ 18 ∨ st ≠ 4 ∨ s.rd (.lnkPortCtrlMode port) ≠ 0 then .next s
  else
    let s := (s.setOut (s.out ++ [Output.hello port (s.helloMsg port)]))
    let u := unitPort port 63
    if chip = s.chipId ∨ chip ≥ 0xFFFF then
      .next ((s.raise .lnkIdConflict u noPart (payload [(16, 1, port), (17, 2, chip)])).bringupFailed port)
    else
      let k := port / 2 + 1
      let bad := decide (port < 14) && (decide (pod ≠ s.rd .lnkIdentPodId ∨ octet ≠ s.rd .lnkIdentOctet ∨
        position ≠ (s.rd .lnkIdentPosition + k) % 8 ∨ peer ≠ 2 * (7 - k) + port % 2))
      if bad then
        .next ((s.raise .lnkCabling u noPart (payload [(16, 1, port), (17, 2, chip), (19, 1, peer), (20, 1, position)])).bringupFailed
          port)
      else
        let s := ((s.wr (.lnkPortStatusPeerChip port) chip).wr (.lnkPortStatusPeerPort port) peer).wr (.lnkPortStatusPeerPosition port)
          position
        let s := s.modPort port (fun p => { p with helloed := true })
        let s := s.wr (.lnkRoutePorts chip) (s.rd (.lnkRoutePorts chip) ||| pow2 port)
        .next (((s.wr (.lnkRouteValid chip) 1).wr (.lnkRouteAuto chip) 1).setStep port 5)

/-! ## Receiving (R331) -/

/-- Is `q` one of the sequence numbers up to and with `ack`, counted back from it? -/
def ackCovers (q ack : Nat) : Bool := decide ((ack + 4096 - q) % 4096 < 2048)

/-- The port after an ACK: the flits and messages that it covers are done with. -/
def Port.acked (p : Port) (ack : Nat) : Port :=
  { p with replay := p.replay.filter (fun x => !(ackCovers x.1 ack)), resend := p.resend.filter (fun x => !(ackCovers x.1 ack)),
           sent := p.sent.filter (fun x => !(ackCovers x.1 ack)) }

/-- The state after a NAK: every flit from ACK + 1 is sent again; 8 in a row for one SEQ, or 1,000 replays within 1 ms, retrain
the port; more than REPLAY_WARN within 1 s are reported once for that second. -/
def State.nakReceived (s : State) (n ack : Nat) : State :=
  let s := s.count (Reg.lnkPortCnt n 4) 1
  let p := s.port n
  let run := if p.nakRun > 0 ∧ p.nakSeq = ack then p.nakRun + 1 else 1
  let replays := (p.replays ++ [s.dtime]).filter (fun t => decide (s.dtime < t + 1000000000))
  let ms := (replays.filter (fun t => decide (s.dtime < t + 1000000))).length
  let quiet := match p.warnAt with
    | some t => decide (s.dtime ≥ t + 1000000000)
    | none => true
  let warn := quiet && decide (replays.length > s.rd (.lnkPortCtrlReplayWarn n))
  let s := s.modPort n (fun p => { p with
    resend := p.replay
    nakSeq := ack
    nakRun := run
    replays := replays
    warnAt := (if warn then some s.dtime else p.warnAt) })
  let s := if warn then s.raise .lnkReplayHigh (unitPort n 63) noPart (payload [(16, 1, n), (20, 4, replays.length)]) else s
  if run ≥ 8 ∨ ms ≥ 1000 then s.retrain n else s

/-- FLIT_RECEIVE: a flit arrives at an UP port: its logical bytes as the peer sent them, and the errors of the link. -/
def execFlitReceive (port flit : Nat) (errs : List (Nat × Nat)) (s : State) : Host.Outcome State Fault Refusal :=
  if port ≥ 18 ∨ s.portUp port = false then .next s
  else
    let s := s.count (Reg.lnkPortCnt port 1) 1
    let bad (s : State) : State := (s.count (Reg.lnkPortCnt port 3) 1).modPort port (fun p => { p with
      owesNak := true
      discarding := true })
    match flitDecode flit errs with
    | none => .next (bad s)
    | some (l, fixed) =>
      let s := s.count (Reg.lnkPortCnt port 2) fixed
      if flitCrcOk l = false then .next (bad s)
      else if flitKind l = 3 then .next (s.count (Reg.lnkPortCnt port 3) 1)
      else
        let s := s.modPort port (fun p => p.acked (flitAck l))
        let slots := bodySlots l
        if flitKind l = 0 then
          let p := s.port port
          if flitSeq l ≠ (p.ack + 1) % 4096 then
            .next (if p.discarding then s.count (Reg.lnkPortCnt port 3) 1 else bad s)
          else
            let r := parseSlots slots p.rx []
            let s := s.modPort port (fun p => { p with ack := flitSeq l, discarding := false, owesNak := false, rx := r.2,
                                                       sinceAck := p.sinceAck + 1 })
            .next (s.msgsIn port false r.1)
        else
          let s := s.msgsIn port true (parseSlots slots [] []).1
          .next (if flitKind l = 2 then s.nakReceived port (flitAck l) else s)

end Sys2Proof.Machine
end

