-- ==== Sys2Proof/Machine/Ethernet.lean ====
section
/-!
DEFINITION. Ports in Ethernet mode (section 13.5): descriptor rings, receive hashing, checksums, priority flow control and the
frames that come and go (R339, R340).
-/
namespace Sys2Proof.Machine

/-! ## Frames -/

/-- A byte, and the big-endian numbers of 2 and 4 bytes, of a frame. -/
def fByte (f : List (BitVec 8)) (i : Nat) : Nat := (f.getD i 0).toNat
def fWord (f : List (BitVec 8)) (i : Nat) : Nat := fByte f i * 256 + fByte f (i + 1)
def fLong (f : List (BitVec 8)) (i : Nat) : Nat := fWord f i * 65536 + fWord f (i + 2)

/-- A big-endian number of 2 bytes placed in a frame. -/
def fPut (f : List (BitVec 8)) (i v : Nat) : List (BitVec 8) := (f.set i (BitVec.ofNat 8 (v / 256))).set (i + 1) (BitVec.ofNat 8 v)

/-- The ones' complement sum of 16-bit words. -/
def onesSum (l : List Nat) : Nat :=
  let fold (x : Nat) : Nat := x % 65536 + x / 65536
  fold (fold (fold (l.foldl (· + ·) 0)))

/-- The words of `n` bytes of a frame from an offset; an odd last byte is followed by a zero. -/
def fWords (f : List (BitVec 8)) (o n : Nat) : List Nat :=
  (List.range (ceilDiv n 2)).map (fun k => if 2 * k + 1 < n then fWord f (o + 2 * k) else fByte f (o + 2 * k) * 256)

/-- Is the frame an untagged IPv4 packet with a whole header (log entry 16)? -/
def fIpv4 (f : List (BitVec 8)) : Bool := decide (fWord f 12 = 0x0800 ∧ fByte f 14 / 16 = 4 ∧ f.length ≥ 34)

/-- The bytes of its header, its protocol, its payload's place and length, and whether it is a fragment. -/
def fIhl (f : List (BitVec 8)) : Nat := 4 * (fByte f 14 % 16)
def fProto (f : List (BitVec 8)) : Nat := fByte f 23
def fL4 (f : List (BitVec 8)) : Nat := 14 + fIhl f
def fL4Len (f : List (BitVec 8)) : Nat := fWord f 16 - fIhl f
def fFragment (f : List (BitVec 8)) : Bool := decide (fWord f 20 % 16384 ≠ 0)

/-- Is there a TCP or UDP header whose checksum the port handles? -/
def fTransport (f : List (BitVec 8)) : Bool := fIpv4 f && !(fFragment f) && decide (fProto f = 6 ∨ fProto f = 17)

/-- The words of the pseudo header and the segment. -/
def fL4Words (f : List (BitVec 8)) : List Nat := fWords f 26 8 ++ [fProto f, fL4Len f] ++ fWords f (fL4 f) (fL4Len f)

/-- The verification of a frame's checksums: none where there is none, else whether all are good. -/
def checksumGood (f : List (BitVec 8)) : Option Bool :=
  if fIpv4 f = false then none
  else
    let ip := decide (onesSum (fWords f 14 (fIhl f)) = 0xFFFF)
    if fTransport f then
      if fProto f = 17 ∧ fWord f (fL4 f + 6) = 0 then some ip else some (ip && decide (onesSum (fL4Words f) = 0xFFFF))
    else some ip

/-- The frame with its checksums inserted. -/
def insertChecksums (f : List (BitVec 8)) : List (BitVec 8) :=
  if fIpv4 f = false then f
  else
    let f := fPut f 24 0
    let f := fPut f 24 (0xFFFF - onesSum (fWords f 14 (fIhl f)))
    if fTransport f then
      let o := fL4 f + (if fProto f = 6 then 16 else 6)
      let f := fPut f o 0
      let c := 0xFFFF - onesSum (fL4Words f)
      fPut f o (if fProto f = 17 ∧ c = 0 then 0xFFFF else c)
    else f

/-! ## Receive hashing -/

/-- The bits of a row of bytes, the first byte's most significant bit first. -/
def msbBits (l : List Nat) : List Bool := l.flatMap (fun b => (List.range 8).map (fun i => bitAt b (7 - i)))

/-- The 40 bytes of a port's Toeplitz key. -/
def State.rssKey (s : State) (n : Nat) : List Nat :=
  (List.range 5).flatMap (fun k => (List.range 8).map (fun j => bytesAt (s.rd (.lnkEthRsskeyKey n k)) j 1))

/-- The Toeplitz hash: the exclusive or of the 32 key bits from each input bit that is one. -/
def toeplitz (key input : List Bool) : Nat :=
  (input.mapIdx (fun i b => if b then (((key.drop i).take 32).foldl (fun a x => 2 * a + flag x) 0) else 0)).foldl (· ^^^ ·) 0

/-- The bytes that the hash takes: the IPv4 addresses, and the ports of TCP or UDP. -/
def rssInput (f : List (BitVec 8)) : List Nat :=
  if fIpv4 f then
    (List.range 8).map (fun i => fByte f (26 + i)) ++ (if fTransport f then (List.range 4).map (fun i => fByte f (fL4 f + i)) else [])
  else []

/-- The hash of a frame, and its receive ring (0 to 7). -/
def State.rssHash (s : State) (n : Nat) (f : List (BitVec 8)) : Nat := toeplitz (msbBits (s.rssKey n)) (msbBits (rssInput f))
def State.rssRing (s : State) (n hash : Nat) : Nat :=
  let e := hash % 128
  bitsAt (s.reg (Reg.lnkEthIndir n (e / 16))).toNat (4 * (e % 16)) 3

/-! ## Rings -/

/-- Is a port UP in Ethernet mode? -/
def State.ethUp (s : State) (n : Nat) : Bool := decide (n < 18 ∧ s.rd (.lnkPortStatusState n) = 6 ∧ s.rd (.lnkPortCtrlMode n) = 1)

/-- The descriptor of a ring at a count, and its CPA. -/
def State.ethAddr (s : State) (n r i : Nat) : Nat := s.rd (.lnkEthRingABase n r) + 16 * (i % pow2 (s.rd (.lnkEthRingAL n r)))

/-- The accessor of a port's rings. -/
def State.ethWho (s : State) (n : Nat) : Accessor := .part (s.rd (.lnkPortCtrlPartition n))

/-- The state after a port's access to memory has been checked (R252): whether it may go on. -/
def State.ethCheck (s : State) (n a len : Nat) (write : Bool) : State × Bool :=
  let r := s.checkRange (s.ethWho n) a len write
  match r.1.code with
  | some c => (s.refuseAccess c sevNotice (unitPort n 63) (s.ethWho n) r.2 write, false)
  | none => (s, true)

/-- What a port's read of memory gives, or none where it fails: refused (R252), of bad parity (R121), or poisoned (R248). -/
def State.ethRead (s : State) (n a len : Nat) : State × Option (List (BitVec 8)) :=
  let c := s.ethCheck n a len false
  if c.2 = false then (c.1, none)
  else if anyMarked s.bad a len then
    (s.raiseAs .intParity sevFailed (unitPort n 63) (s.ethWho n).partField (payload [(16, 8, a), (24, 1, 1)]), none)
  else if s.poisoned a len then
    (s.raiseAs .memUncorrectable sevFailed (unitPort n 63) (s.ethWho n).partField (payload [(16, 8, a), (24, 1, tierNo a)]), none)
  else (s.cacheReads a len 0, some (s.bytes a len))

/-! ## Priority flow control (IEEE 802.1Qbb, log entry 62) -/

/-- The class of a received frame: the priority of its 802.1Q tag, 0 without one. -/
def fClass (f : List (BitVec 8)) : Nat := if fWord f 12 = 0x8100 then fWord f 14 / 8192 else 0

/-- The frame that pauses a class of the peer for a number of quanta. -/
def pauseFrame (n c quanta : Nat) : List (BitVec 8) :=
  let two (v : Nat) : List Nat := [v / 256 % 256, v % 256]
  ([0x01, 0x80, 0xC2, 0, 0, 1] ++ (List.range 6).map (fun i => bytesAt (Config.macAddress n) i 1) ++ two 0x8808 ++ two 0x0101 ++
    two (pow2 c) ++ (List.range 8).flatMap (fun k => two (if k = c then quanta else 0)) ++ List.replicate 26 0).map (BitVec.ofNat 8)

/-- The state after a port has sent that frame. -/
def State.sendPause (s : State) (n c quanta : Nat) : State :=
  let f := pauseFrame n c quanta
  s.setOut (s.out ++ [Output.frame n (natOfBytes f) f.length])

/-- The key of a class paused for want of buffers of receive ring `r`. -/
def pauseKey (r c : Nat) : Nat := 8 * r + c

/-- The state after the port has paused a class, since ring `r` has no buffer for it. -/
def State.pauseClass (s : State) (n r c : Nat) : State :=
  (s.modPort n (fun p => { p with paused := (p.paused.filter (fun x => !(decide (x = pauseKey r c)))) ++ [pauseKey r c] })).sendPause n c
    0xFFFF

/-- The state after ring `r` has buffers again: the classes that it alone has paused may go on. -/
def State.resumeRing (s : State) (n r : Nat) : State :=
  let old := (s.port n).paused
  let rest := old.filter (fun x => !(decide (x / 8 = r)))
  let s := s.modPort n (fun p => { p with paused := rest })
  (List.range 8).foldl (fun (s : State) c =>
    if old.contains (pauseKey r c) && !(rest.any (fun x => decide (x % 8 = c))) then s.sendPause n c 0 else s) s

/-- ETH_RING_TAIL (R340, R285): TAIL of ring `ring` of a port is written: 0 to 7 transmit, 8 to 15 receive. -/
def State.ethTail (s : State) (pf : Bool) (n r tail : Nat) : State :=
  let head := s.rd (.lnkEthRingBHead n r)
  if pf = false then s.count (Reg.hifCnt 0) 1
  else if n ≥ 18 ∨ r ≥ 16 then s
  else if tailBad (s.rd (.lnkEthRingBTail n r)) (tail % 2 ^ 32) head (s.rd (.lnkEthRingAL n r)) then
    s.raise .xfrRingOverrun (unitPort n 63) (s.ethWho n).partField (payload [(16, 1, r), (20, 4, tail), (24, 4, head)])
  else if tail % 2 ^ 32 = head then s.wr (.lnkEthRingBTail n r) tail
  else (s.wr (.lnkEthRingBTail n r) tail).resumeRing n r
def execEthRingTail (pf : Bool) (port ring tail : Nat) (s : State) : Host.Outcome State Fault Refusal :=
  if s.barShut pf then .next (s.barAnswer pf) else
  .next (s.ethTail pf port ring tail)

/-- The state after a descriptor has been written back: HEAD rises, and the ring's interrupt goes out. -/
def State.ethBack (s : State) (n r stamp len flags hash : Nat) : State :=
  let i := s.rd (.lnkEthRingBHead n r)
  let a := s.ethAddr n r i
  let c := s.ethCheck n a 16 true
  let s := if c.2 then c.1.storeNat a 16 (stamp % 2 ^ 64 + len % 2 ^ 16 * 2 ^ 64 + flags % 256 * 2 ^ 80 + hash % 2 ^ 32 * 2 ^ 96)
    else c.1
  let s := s.wr (.lnkEthRingBHead n r) ((i + 1) % 2 ^ 32)
  if s.rdBit (.lnkEthRingCIrqEn n r) then
    (s.setOut (s.out ++ [Output.imsic (s.rd (.lnkEthRingCHart n r)) (s.rd (.lnkEthRingCEiid n r))]))
  else s

/-! ## Receiving -/

/-- What the search for a frame's buffers gives. -/
inductive RxFind where
  /-- The buffers, (CPA, bytes) each. -/
  | found (l : List (Nat × Nat))
  /-- Too few are posted. -/
  | short
  /-- A descriptor cannot be read. -/
  | refused
  deriving DecidableEq, Repr

/-- What was found with one more buffer before it. -/
def RxFind.before (b : Nat × Nat) : RxFind → RxFind
  | .found l => .found (b :: l)
  | x => x

/-- The buffers that a frame takes from a receive ring, each descriptor read as the port's partition (R252). -/
def State.rxBuffers (s : State) (n r : Nat) : Nat → Nat → Nat → State × RxFind
  | 0, _, _ => (s, .short)
  | f + 1, i, len =>
    if i = s.rd (.lnkEthRingBTail n r) then (s, .short)
    else
      let x := s.ethRead n (s.ethAddr n r i) 16
      match x.2 with
      | none => (x.1, .refused)
      | some bs =>
        let d := natOfBytes bs
        let size := bytesAt d 8 2
        if size ≥ len then (x.1, .found [(bytesAt d 0 6, len)])
        else
          let y := x.1.rxBuffers n r f ((i + 1) % 2 ^ 32) (len - size)
          (y.1, y.2.before (bytesAt d 0 6, size))

/-- The state after a frame's bytes have been put into its buffers, each written back in turn. -/
def State.rxDeliver (s : State) (n r hash sums : Nat) : List (Nat × Nat) → List (BitVec 8) → State
  | [], _ => s
  | (a, k) :: t, f =>
    let c := s.ethCheck n a k true
    let s := if c.2 then (c.1.store a (f.take k)).cacheWrites a k 0 else c.1
    let flags := 128 + flag t.isEmpty + (if t.isEmpty then sums else 0)
    (s.ethBack n r s.dtime k flags hash).rxDeliver n r hash sums t (f.drop k)

/-- The key of a traffic class's pause. -/
def pfcKey (n c : Nat) : Nat := 8 * n + c

/-- Is the frame one of priority flow control (IEEE 802.1Qbb)? -/
def isPfc (f : List (BitVec 8)) : Bool := decide (fWord f 12 = 0x8808 ∧ fWord f 14 = 0x0101)

/-- The state after a priority flow control frame: each enabled class pauses for its quanta of 512 bit times at 800 Gbit/s. -/
def State.pfcFrame (s : State) (n : Nat) (f : List (BitVec 8)) : State :=
  (List.range 8).foldl (fun (s : State) c =>
    if bitAt (fWord f 16) c then
      let q := fWord f (18 + 2 * c)
      (s.setPfc (Sparse.put 0 (pfcKey n c) (if q = 0 then 0 else s.dtime + ceilDiv (q * 16) 25) s.pfc))
    else s) s

/-- ETH_FRAME_RECEIVE (R339, R340): a frame arrives, without its frame check sequence, which was good or not. -/
def execEthFrameReceive (port : Nat) (frame : List (BitVec 8)) (fcsOk : Bool) (s : State) : Host.Outcome State Fault Refusal :=
  let drop (s : State) : State := s.count (Reg.lnkPortCnt port 3) 1
  if s.ethUp port = false then .next s
  else if fcsOk = false ∨ frame.length + 4 < 64 ∨ frame.length + 4 > 9216 then .next (drop s)
  else if isPfc frame then .next (s.pfcFrame port frame)
  else
    let h := s.rssHash port frame
    let r := 8 + s.rssRing port h
    let x := s.rxBuffers port r 16384 (s.rd (.lnkEthRingBHead port r)) frame.length
    match x.2 with
    | .refused => .next (drop x.1)
    | .short => .next ((drop x.1).pauseClass port r (fClass frame))
    | .found l =>
      let sums := match checksumGood frame with
        | some true => 2
        | some false => 4
        | none => 0
      let t := x.1.rxDeliver port r h sums l frame
      .next (if t.rd (.lnkEthRingBHead port r) = t.rd (.lnkEthRingBTail port r) then t.pauseClass port r (fClass frame) else t)

/-! ## Transmitting -/

/-- The posted descriptors of the next frame of a transmit ring, up to END_OF_FRAME, each read as the port's partition (R252);
none where there is no whole frame or a descriptor cannot be read. -/
def State.txDescs (s : State) (n r : Nat) : Nat → Nat → State × Option (List Nat)
  | 0, _ => (s, none)
  | f + 1, i =>
    if i = s.rd (.lnkEthRingBTail n r) then (s, none)
    else
      let x := s.ethRead n (s.ethAddr n r i) 16
      match x.2 with
      | none => (x.1, none)
      | some bs =>
        let d := natOfBytes bs
        if bitAt d 80 then (x.1, some [d])
        else
          let y := x.1.txDescs n r f ((i + 1) % 2 ^ 32)
          (y.1, y.2.map (fun l => d :: l))

/-- The state after the buffers of a frame have been read, and its bytes, if every read was good. -/
def State.txRead (s : State) (n : Nat) (ds : List Nat) : State × Option (List (BitVec 8)) :=
  ds.foldl (fun (acc : State × Option (List (BitVec 8))) d =>
    match acc.2 with
    | none => acc
    | some f =>
      let x := acc.1.ethRead n (bytesAt d 0 6) (bytesAt d 8 2)
      (x.1, x.2.map (fun bs => f ++ bs))) (s, some [])

/-- ETH_TRANSMIT_DONE (R340): the next frame of a transmit ring goes out, unless its class is paused; its descriptors are
written back. -/
def execEthTransmitDone (port ring : Nat) (s : State) : Host.Outcome State Fault Refusal :=
  let i := s.rd (.lnkEthRingBHead port ring)
  if s.ethUp port = false ∨ ring ≥ 8 then .next s
  else
      let x := s.txDescs port ring 16384 i
      match x.2 with
      | none => .next x.1
      | some ds =>
        let s := x.1
        let d := ds.headD 0
        if s.dtime < Sparse.get 0 s.pfc (pfcKey port (bitsAt d 83 3)) then .next s
        else
          let r := s.txRead port ds
          let f := (r.2.getD [])
          let f := if bitAt d 81 then insertChecksums f else f
          let s := if r.2.isSome ∧ 64 ≤ f.length + 4 ∧ f.length + 4 ≤ 9216 then
              (r.1.setOut (r.1.out ++ [Output.frame port (natOfBytes f) f.length]))
            else r.1.count (Reg.lnkPortCnt port 3) 1
          .next (ds.foldl (fun (s : State) d =>
            s.ethBack port ring (if bitAt d 82 then s.dtime else bytesAt d 0 8) (bytesAt d 8 2) (128 + flag (bitAt d 80)) 0) s)

end Sys2Proof.Machine
end

