-- ==== Sys2Proof/Machine/HostIf.lean ====
section
/-!
DEFINITION. The host interface (chapter 12): unsupported requests (R299), the shared window and its ownership flags (R304 to
R307), queues and their entries (R308 to R310), streams, sequence slots and event rings (R311 to R315).
-/
namespace Sys2Proof.Machine

/-! ## Functions -/

/-- The function of a request: 0 the physical function, p + 1 the virtual function of partition p (R300). Is it in D0, so
that its BARs are decoded? -/
def State.decodes (s : State) (fn : Nat) : Bool := decide (fn ≤ 16) && !(s.lowPower.contains fn)

/-- PCIE_UNSUPPORTED_REQUEST (R299). -/
def execPcieUnsupportedRequest (s : State) : Host.Outcome State Fault Refusal := .next s.unsupportedRequest

/-- The state after a host's read has been answered. -/
def State.reply (s : State) (v : Option Nat) : State := (s.setOut (s.out ++ [.readReply v]))

/-! ## The window (R304 to R306) -/

/-- The window entry and the offset in it of a BAR2 address of a function; none beyond the BAR. -/
def State.windowAt (s : State) (fn addr : Nat) : Option (Nat × Nat) :=
  let e := addr / gib1
  if fn = 0 then (if e < 128 then some (e, addr % gib1) else none)
  else if e < 8 ∧ fn ≤ 16 then some ((s.rd (.hifPartMiscWbase (fn - 1)) + e) % 128, addr % gib1)
  else none

/-- The cause for which a window access of `n` bytes is refused (Table 12-11, HQ_WINDOW). -/
def State.windowRefusal (s : State) (e off n : Nat) (write : Bool) : Option Nat :=
  let a := s.rd (.hifWinTarget e) * gib1 + off
  if s.rdBit (.hifWinValid e) = false then some 0
  else if !(decide (areaOf a = .tier1 ∨ areaOf a = .tier2) && s.usable a && s.usable (a + n - 1)) then some 1
  else
    match (s.checkWindow (.part (s.rd (.hifWinPartition e))) a n write).1 with
    | .ok => none
    | .readOnly => some 3
    | .unmapped => some 1
    | _ => some 2

/-- The state after a refused window access. -/
def State.refuseWindow (s : State) (e off cause : Nat) (write : Bool) : State :=
  (s.raise .hqWindow unitPcie (s.rd (.hifWinPartition e))
    (payload [(16, 1, e), (20, 4, off), (24, 1, flag write), (25, 1, cause)])).count (Reg.hifCnt 5) 1

/-- WINDOW_READ: a host read of `n` bytes at an address of a function's BAR2. -/
def execWindowRead (fn addr n : Nat) (s : State) : Host.Outcome State Fault Refusal :=
  if s.decodes fn && !(s.rdBit .refReadyReady) then .next (s.gateCount.reply (some (onesOf n))) else
  match s.decodes fn, s.windowAt fn addr with
  | true, some (e, off) =>
    let a := s.rd (.hifWinTarget e) * gib1 + off
    match s.windowRefusal e off n false with
    | some cause => .next ((s.refuseWindow e off cause false).reply (some (onesOf n)))
    | none =>
      if s.poisoned a n then .next (s.reply none)
      else .next ((s.cacheReads a n (s.rd (.hifWinHint e))).reply (some (s.memNat a n)))
  | _, _ => .next s.unsupportedRequest

/-- The flag word of a window granule (R305). -/
def State.flagWord (s : State) (g : Nat) : Nat := Sparse.get 0 s.flags g
def State.setFlag (s : State) (g v : Nat) : State := (s.setFlags (Sparse.put 0 g v s.flags))

/-- The state after HQ_OWNERSHIP for a granule: kind 0 host data, 1 host flag, 2 device write, 3 GRANT, 4 CLAIM. -/
def State.ownershipEvent (s : State) (sev g kind : Nat) : State :=
  let p := s.rd (.hifWinPartition (g / 16384))
  (s.raiseAs .hqOwnership sev unitPcie p
    (payload [(16, 4, g), (20, 1, kind), (21, 1, p), (22, 2, s.flagWord g / 65536)])).count (Reg.hifCnt 4) 1

/-- WINDOW_WRITE: a host write of `n` bytes at an address of a function's BAR2. -/
def execWindowWrite (fn addr n value : Nat) (s : State) : Host.Outcome State Fault Refusal :=
  if s.decodes fn && !(s.rdBit .refReadyReady) then .next s.gateCount else
  match s.decodes fn, s.windowAt fn addr with
  | true, some (e, off) =>
    let a := s.rd (.hifWinTarget e) * gib1 + off
    match s.windowRefusal e off n true with
    | some cause => .next (s.refuseWindow e off cause true)
    | none =>
      let gs := (List.range (n / 65536 + 2)).filterMap (fun i =>
        let g := e * 16384 + off / 65536 + i
        if (off / 65536 + i) * 65536 < off + n ∧ g < 2097152 then some g else none)
      match gs.find? (fun g => decide (s.flagWord g % 4 = 2)) with
      | some g => .next (s.ownershipEvent sevNotice g 0)
      | none => .next ((s.storeNat a n value).cacheWrites a n (s.rd (.hifWinHint e)))
  | _, _ => .next s.unsupportedRequest

/-- WINDOW_ENTRY_WRITE: HIF_WIN_e is written by the physical function; writing VALID 1 resets the entry's flags. -/
def execWindowEntryWrite (pf : Bool) (e value : Nat) (s : State) : Host.Outcome State Fault Refusal :=
  if s.barShut pf then .next (s.barAnswer pf) else
  if pf = false then .next (s.count (Reg.hifCnt 0) 1)
  else if e ≥ 128 then .next s
  else
    let v := value % 2 ^ 25
    let s := s.setReg (Reg.hifWin e) (BitVec.ofNat 64 v)
    if bitAt v 24 then .next (s.setFlags (s.flags.filter (fun p => !(decide (p.1 / 16384 = e))))) else .next s

/-- HOST_FLAG_WRITE: a host write of a flag word at a granule number of a function's flag aperture (R305, Table 12-4). -/
def execHostFlagWrite (fn granule value : Nat) (s : State) : Host.Outcome State Fault Refusal :=
  if s.decodes fn && !(s.rdBit .refReadyReady) then .next s.gateCount else
  if s.decodes fn = false then .next s.unsupportedRequest
  else
    let g := if fn = 0 then granule else s.rd (.hifPartMiscWbase (fn - 1)) * 16384 + granule
    if g ≥ 2097152 ∨ (fn ≠ 0 ∧ granule ≥ 131072) then .next s
    else
      let v := value % 2 ^ 32
      let w := s.flagWord g
      if v % 4 = 3 ∨ bitsAt v 2 14 ≠ 0 ∨ w % 4 = 2 ∨ v / 65536 ≠ (w / 65536 + 1) % 65536 then
        .next (s.ownershipEvent sevNotice g 1)
      else .next (s.setFlag g v)

/-! ## Queues (R308) -/

/-- The state of queue `q` (Table 12-5): 0 DISABLED, 1 RUNNING, 2 STOPPED. The device keeps it and writes it into the
context. -/
def State.queueState (s : State) (q : Nat) : Nat := Sparse.get 0 s.queues q
def State.setQueueState (s : State) (q v : Nat) : State :=
  (s.setQueues (Sparse.put 0 q v s.queues)).ctxWrite (s.queueCtx q + 28) 1 v

/-- The fields of a queue's context (Table 12-5). -/
def State.queueRing (s : State) (q : Nat) : Nat := s.ctxNat (s.queueCtx q) 8
def State.queueL (s : State) (q : Nat) : Nat := s.ctxNat (s.queueCtx q + 8) 1
def State.queueHost (s : State) (q : Nat) : Bool := bitAt (s.ctxNat (s.queueCtx q + 9) 1) 0
def State.queuePasid (s : State) (q : Nat) : Nat :=
  if bitAt (s.ctxNat (s.queueCtx q + 9) 1) 1 then s.ctxNat (s.queueCtx q + 12) 4 + 1 else 0
def State.queueErr (s : State) (q : Nat) : Nat := s.ctxNat (s.queueCtx q + 10) 2
def State.queuePart (s : State) (q : Nat) : Nat := s.ctxNat (s.queueCtx q + 16) 1
def State.queueHead (s : State) (q : Nat) : Nat := s.ctxNat (s.queueCtx q + 20) 4
def State.queueTail (s : State) (q : Nat) : Nat := s.ctxNat (s.queueCtx q + 24) 4

/-- The partition that an event about a queue or stream of a partition byte carries. -/
def partByte (p : Nat) : Nat := if p < 16 then p else noPart

/-- Is partition `p` created (Table 12-8)? -/
def State.partState (s : State) (p : Nat) : Nat := s.rd (.hifPartStatusState p)

/-- Does queue `q` (stream `n`) lie in the range of created partition `p`? -/
def State.queueInRange (s : State) (p q : Nat) : Bool :=
  decide (s.partState p ≠ 0 ∧ s.rd (.hifPartRangeQfirst p) ≤ q ∧ q < s.rd (.hifPartRangeQfirst p) + s.rd (.hifPartRangeQcount p))
def State.streamInRange (s : State) (p n : Nat) : Bool :=
  decide (s.partState p ≠ 0 ∧ s.rd (.hifPartRangeSfirst p) ≤ n ∧ n < s.rd (.hifPartRangeSfirst p) + s.rd (.hifPartRangeScount p))
def State.slotInRange (s : State) (p n : Nat) : Bool :=
  decide (s.rd (.hifPartMiscSeqfirst p) ≤ n ∧ n < s.rd (.hifPartMiscSeqfirst p) + s.rd (.hifPartMiscSeqcount p))

/-- May a ring lie at an address: host memory, or a byte of tier 1 or tier 2? -/
def ringPlaceOk (host : Bool) (a : Nat) : Bool :=
  decide (a % 4096 = 0) && (host || decide (areaOf a = .tier1 ∨ areaOf a = .tier2))

/-- Are the fields of a queue's context in their ranges (R308, reason 1)? -/
def State.queueCtxOk (s : State) (q : Nat) : Bool :=
  let a := s.queueCtx q
  ringPlaceOk (s.queueHost q) (s.queueRing q) &&
  decide (4 ≤ s.queueL q ∧ s.queueL q ≤ 16 ∧ s.ctxNat (a + 9) 1 < 4 ∧ bitsAt (s.queueErr q) 13 2 = 0 ∧
    s.ctxNat (a + 12) 4 < 2 ^ 20 ∧ s.queuePart q < 16 ∧ s.ctxNat (a + 17) 3 = 0 ∧ s.ctxNat (a + 29) 35 = 0)

/-- The same of a stream's (R311, R313). -/
def State.streamCtxOk (s : State) (n : Nat) : Bool :=
  let a := s.streamCtx n
  let p := s.streamPart n
  ringPlaceOk (bitAt (s.streamFlags n) 0) (s.streamRing n) &&
  decide (4 ≤ s.streamL n ∧ s.streamL n ≤ 16 ∧ s.streamFlags n < 8 ∧ s.ctxNat (a + 10) 2 < (if p = 0xF0 then 1024 else 64) ∧
    s.ctxNat (a + 12) 4 < 2 ^ 20 ∧ (p < 16 ∨ p = 0xF0) ∧ s.ctxNat (a + 18) 2 = 0 ∧ s.ctxNat (a + 28) 4 = 0)

/-- The state with queue `q` DISABLED: a wait of its head ends. -/
def State.disableQueue (s : State) (q : Nat) : State :=
  let s := (s.dropWaiter (.queueEntry q)).setHeadWait q .none
  (s.setHeldHeads (s.heldHeads.filter (fun x => !(decide (x = q))))).setQueueState q 0

/-- The state with stream `n` disabled: completions that wait are dropped (R312). -/
def State.disableStream (s : State) (n : Nat) : State :=
  let waiting := (s.stream n).waiting
  let s := s.modStream n (fun x => { x with on := false, dropped := false, waiting := [], owed := false })
  waiting.foldl (fun s x => s.dropCompletion x 1) s

/-- The reason for which an operation of HIF_Q_OP is refused (R308): reason 3 first, then 1 and 2. -/
def State.qOpRefusal (s : State) (op index : Nat) (stream : Bool) : Option Nat :=
  if stream then
    let on := (s.stream index).on
    if (op = 1 ∧ on = true) ∨ (op = 2 ∧ on = false) then some 3
    else if op ≠ 1 ∧ op ≠ 2 ∨ index ≥ 8192 then some 1
    else if op = 1 then
      (if s.streamCtxOk index = false then some 1
        else if s.streamPart index ≠ 0xF0 ∧ s.streamInRange (s.streamPart index) index = false then some 2 else none)
    else none
  else
    let st := s.queueState index
    if (op = 1 ∧ st ≠ 0) ∨ (op = 2 ∧ st = 0) ∨ (op = 3 ∧ st ≠ 2) then some 3
    else if op = 0 ∨ op > 3 then some 1
    else if op = 1 then
      (if s.queueCtxOk index = false then some 1
        else if s.queueInRange (s.queuePart index) index = false then some 2 else none)
    else none

/-- The state after an operation of HIF_Q_OP by the physical function; another function's write is discarded and counted. -/
def State.qOp (s : State) (pf : Bool) (op index : Nat) (stream : Bool) : State :=
  if pf = false then s.count (Reg.hifCnt 0) 1
  else
    let known := op = 1 ∨ (if stream then (s.stream index).on else decide (s.queueState index ≠ 0)) = true
    let p := if known then partByte (if stream then s.streamPart index else s.queuePart index) else noPart
    let s := if op = 1 then s.ctxSeen (if stream then s.streamCtx index else s.queueCtx index) 64 else s
    match s.qOpRefusal op index stream with
    | some r => (s.raise .hqQueueInvalid unitPcie p (payload [(16, 2, index), (18, 1, r)])).wr .hifQStatusCode
        Code.hqQueueInvalid.val
    | none =>
      let s := s.wr .hifQStatusCode 0
      if stream then
        (if op = 1 then s.modStream index (fun _ => { Stream.reset with on := true }) else s.disableStream index)
      else if op = 2 then s.disableQueue index
      else s.setQueueState index 1

/-- QUEUE_ENABLE, QUEUE_DISABLE, QUEUE_RESTART: the operations of HIF_Q_OP on a queue or a stream. -/
def execQueueEnable (pf : Bool) (index : Nat) (stream : Bool) (s : State) : Host.Outcome State Fault Refusal :=
  if s.barShut pf then .next (s.barAnswer pf) else
  .next (s.qOp pf 1 index stream)
def execQueueDisable (pf : Bool) (index : Nat) (stream : Bool) (s : State) : Host.Outcome State Fault Refusal :=
  if s.barShut pf then .next (s.barAnswer pf) else
  .next (s.qOp pf 2 index stream)
def execQueueRestart (pf : Bool) (index : Nat) (stream : Bool) (s : State) : Host.Outcome State Fault Refusal :=
  if s.barShut pf then .next (s.barAnswer pf) else
  .next (s.qOp pf 3 index stream)

/-! ## Doorbells (R302, R303) -/

/-- The queue of a queue page, and the stream of a stream page; none for a reserved page. -/
def State.pageQueue (s : State) (fn page : Nat) : Option Nat :=
  if fn = 0 then (if page < 32768 then some page else none)
  else if page < 2048 ∧ page < s.rd (.hifPartRangeQcount (fn - 1)) then some (s.rd (.hifPartRangeQfirst (fn - 1)) + page) else none
def State.pageStream (s : State) (fn page : Nat) : Option Nat :=
  if fn = 0 then (if page < 8192 then some page else none)
  else if page < 1024 ∧ page < s.rd (.hifPartRangeScount (fn - 1)) then some (s.rd (.hifPartRangeSfirst (fn - 1)) + page) else none

/-- The state after HQ_RING_OVERRUN: kind 0 queue, 1 stream, 2 event ring. -/
def State.ringOverrun (s : State) (kind index part value other : Nat) : State :=
  s.raise .hqRingOverrun unitPcie part (payload [(16, 1, kind), (18, 2, index), (20, 4, value), (24, 4, other)])

/-- The state after a TAIL has been written for queue `q`. -/
def State.queueTailWrite (s : State) (q value : Nat) : State :=
  let v := value % 2 ^ 32
  if s.queueState q = 0 then s.count (Reg.hifCnt 3) 1
  else
    let s := s.ctxSeen (s.queueCtx q) 64
    if tailBad (s.queueTail q) v (s.queueHead q) (s.queueL q) then
      (s.ringOverrun 0 q (partByte (s.queuePart q)) v (s.queueHead q)).count (Reg.hifCnt 3) 1
    else s.ctxWrite (s.queueCtx q + 24) 4 v

/-- Is a new HEAD refused: it moves backward, or past TAIL? -/
def headBad (old new tail : Nat) : Bool :=
  decide ((new + 2 ^ 32 - old) % 2 ^ 32 > (tail + 2 ^ 32 - old) % 2 ^ 32)

/-- The state after a HEAD has been written for stream `n`. -/
def State.streamHeadWrite (s : State) (n value : Nat) : State :=
  let v := value % 2 ^ 32
  if (s.stream n).on = false then s.count (Reg.hifCnt 3) 1
  else
    let s := s.ctxSeen (s.streamCtx n) 32
    if headBad (s.streamHead n) v (s.streamTail n) then
      (s.ringOverrun 1 n (partByte (s.streamPart n)) v (s.streamTail n)).count (Reg.hifCnt 3) 1
    else s.ctxWrite (s.streamCtx n + 24) 4 v

/-- QUEUE_DOORBELL and STREAM_HEAD_WRITE: a write of `size` bytes at an offset of a doorbell page of a function. -/
def execQueueDoorbell (fn page offset size value : Nat) (s : State) : Host.Outcome State Fault Refusal :=
  if s.decodes fn && !(s.rdBit .refReadyReady) then .next s.gateCount else
  if s.decodes fn = false then .next s.unsupportedRequest
  else
    match s.pageQueue fn page with
    | none => .next s
    | some q => if offset ≠ 0 ∨ size ≠ 4 then .next (s.count (Reg.hifCnt 3) 1) else .next (s.queueTailWrite q value)
def execStreamHeadWrite (fn page offset size value : Nat) (s : State) : Host.Outcome State Fault Refusal :=
  if s.decodes fn && !(s.rdBit .refReadyReady) then .next s.gateCount else
  if s.decodes fn = false then .next s.unsupportedRequest
  else
    match s.pageStream fn page with
    | none => .next s
    | some n => if offset ≠ 0 ∨ size ≠ 4 then .next (s.count (Reg.hifCnt 3) 1) else .next (s.streamHeadWrite n value)

/-- CHIP_CHANNEL_DOORBELL: the same of the chip channel of the page; through a VF only where the channel is of its partition (R302). -/
def execChipChannelDoorbell (door : DoorAddr) (value : Nat) (s : State) : Host.Outcome State Fault Refusal :=
  if s.decodes door.fn && !(s.rdBit .refReadyReady) then .next s.gateCount else
  if s.decodes door.fn = false then .next s.unsupportedRequest
  else if door.page ≥ 64 ∨ (door.fn ≠ 0 ∧ s.rd (.dmaChCtrlPartition (dmaChip door.page)) ≠ door.fn - 1) then .next s
  else if door.offset ≠ 0 ∨ door.size ≠ 4 then .next (s.count (Reg.hifCnt 3) 1)
  else .next (s.chipTailWrite door.page value)

/-- The number of the `n` bytes from offset `o` up of the flag aperture of a function, whose first word is granule `g` (R302, R305). -/
def State.flagBytes (s : State) (g o : Nat) : Nat → Nat
  | 0 => 0
  | n + 1 => bytesAt (s.flagWord (g + o / 4)) (o % 4) 1 + 256 * s.flagBytes g (o + 1) n

/-- What `n` bytes of BAR4 of a function read as (R302, Table 12-3): flag words in the aperture, else zero. -/
def State.bar4Value (s : State) (fn off n : Nat) : Nat :=
  let lo := if fn = 0 then 0x0C000000 else 0xC00000
  let words := if fn = 0 then 0x800000 else 0x80000
  if lo ≤ off ∧ off + n ≤ lo + words then
    s.flagBytes (if fn = 0 then 0 else s.rd (.hifPartMiscWbase (fn - 1)) * 16384) (off - lo) n
  else 0

/-- The state after a host's read of `n` bytes at an offset of BAR4 of a function (R302, R353). -/
def State.bar4Read (s : State) (fn off n : Nat) : State :=
  if s.decodes fn && !(s.rdBit .refReadyReady) then s.gateCount.reply (some (onesOf n))
  else if s.decodes fn = false ∨ off + n > (if fn = 0 then 0x10000000 else 0x1000000) then s.unsupportedRequest
  else s.reply (some (s.bar4Value fn off n))

/-! ## Submission entries (R309, R310) -/

/-- The fields of an entry of 64 bytes held as a number (Table 12-6). -/
def enType (w : Nat) : Nat := bytesAt w 0 1
def enWait (w : Nat) : Bool := bitAt w 8
def enNotify (w : Nat) : Bool := bitAt w 9
def enTimeout (w : Nat) : Nat := bitsAt w 16 4
def enObject (w : Nat) : Nat := bytesAt w 4 2
def enCore (w : Nat) : Nat := bytesAt w 6 1
def enStream (w : Nat) : Nat := if enType w = 1 then bitsAt w (8 * 44) 13 else bitsAt w (8 * 8) 13
def enTag (w : Nat) : Nat := if enType w = 1 then bytesAt w 48 8 else bytesAt w 16 8
def enGranule (w : Nat) : Nat := bytesAt w 32 8
def enCount (w : Nat) : Nat := bytesAt w 40 4
def enSlot (w : Nat) : Nat := if enType w = 1 then bytesAt w 46 1 else bytesAt w 32 1

/-- The segment record of a SEGMENT entry (Table 8-1). -/
def enRecord (w q part order : Nat) : SegRec :=
  { base := bytesAt w 32 8, count := bytesAt w 40 3, stream := bitsAt w (8 * 44) 13, seqSlot := bytesAt w 46 1,
    flags := bytesAt w 47 1, tag := bytesAt w 48 8, rsv := bytesAt w 56 8, queue := q, part := part, core := enCore w,
    order := order }

/-- Is a TYPE or a field of an entry reserved (reason 1)? -/
def enReserved (w : Nat) : Bool :=
  let t := enType w
  decide (t = 0 ∨ t > 6 ∨ bitsAt w 10 6 ≠ 0 ∨ bitsAt w 20 4 ≠ 0 ∨ bytesAt w 3 1 ≠ 0 ∨ bytesAt w 7 1 ≠ 0 ∨
    bitsAt w (8 * 9 + 5) 3 ≠ 0 ∨ bytesAt w 10 6 ≠ 0 ∨ bytesAt w 24 8 ≠ 0) ||
  (match t with
    | 1 => decide (bytesAt w 43 1 ≠ 0 ∨ bitsAt w (8 * 45 + 5) 3 ≠ 0 ∨ bitsAt w (8 * 47 + 2) 6 ≠ 0 ∨ bytesAt w 56 8 ≠ 0)
    | 2 | 3 => decide (enCount w = 0 ∨ enCount w > 2097152 ∨ bytesAt w 44 20 ≠ 0)
    | 4 => decide ((signalEntry (bytesAt w 32 6)).kind = 3 ∨ (signalEntry (bytesAt w 32 6)).rsv ≠ 0 ∨ bytesAt w 38 26 ≠ 0)
    | 5 => decide (bytesAt w 33 31 ≠ 0)
    | _ => decide (bytesAt w 32 32 ≠ 0))

/-- The reason for which an entry of a queue of partition `p` is invalid (R310), in the order of the list. -/
def State.entryReason (s : State) (p w : Nat) : Option Nat :=
  let t := enType w
  let lo := s.rd (.hifPartMiscWbase p) * 16384
  if enReserved w then some 1
  else if s.partState p ≤ 1 then some 5
  else if t = 1 ∧ (s.core (enCore w)).part ≠ some p then some 2
  else if s.streamInRange p (enStream w) = false ∨
      (((t = 1 ∧ bitAt w (8 * 47 + 1) = true) ∨ t = 5) ∧ s.slotInRange p (enSlot w) = false) then some 3
  else if (t = 2 ∨ t = 3) ∧ (enGranule w < lo ∨ enGranule w + enCount w > lo + 131072) then some 4
  else none

/-- The entry at the head of a queue: the state after reading it, its 64 bytes, and the code of a refused read. -/
def State.readEntry (s : State) (q : Nat) : State × Nat × Option Nat :=
  let s := s.ctxSeen (s.queueCtx q) 64
  let a := s.queueRing q + 64 * (s.queueHead q % pow2 (s.queueL q))
  let p := s.queuePasid q
  if s.queueHost q then (s.translate (msixFn (s.queuePart q)) p a, s.hostNat (hostKey p a) 64, none)
  else
    let w := Accessor.part (s.queuePart q)
    let r := s.checkRange w a 64 false
    match r.1.code with
    | some code => (s.refuseAccess code sevNotice unitPcie w r.2 false, 0, some code.val)
    | none =>
      if s.poisoned a 64 then
        (s.raiseAs .memUncorrectable sevFailed unitPcie (partByte (s.queuePart q)) (payload [(16, 8, a), (24, 1, tierNo a)]), 0,
          some Code.memUncorrectable.val)
      else (s, s.memNat a 64, none)

/-- The state after the entry at the head has been taken: HEAD, HIF_CNT_1, no wait. -/
def State.entryTaken (s : State) (q : Nat) : State :=
  let s := s.ctxWrite (s.queueCtx q + 20) 4 ((s.queueHead q + 1) % 2 ^ 32)
  (s.setHeadWait q .none).count (Reg.hifCnt 1) 1

/-- The completion of an entry. -/
def enCompletion (w q stream status : Nat) : Completion :=
  { stream := stream, tag := enTag w, status := status, queue := q, slot := 0, flags := (if enType w = 1 then 2 else 0),
    seq := 0, core := none, ofEntry := true }

/-- The state after the completion of a failed entry: to its own stream, to ERR_STREAM, or nowhere (R310). -/
def State.postFailure (s : State) (q w status : Nat) : State :=
  let p := s.queuePart q
  let st := enStream w
  if s.streamInRange p st && (s.stream st).on then s.postCompletion (enCompletion w q st status)
  else if bitAt (s.queueErr q) 15 then s.postCompletion (enCompletion w q (s.queueErr q % 2 ^ 13) status)
  else s

/-- The state after an entry's wait or action has failed: its completion, and the queue STOPPED. -/
def State.failEntry (s : State) (q w code : Nat) : State := ((s.postFailure q w code).entryTaken q).setQueueState q 2

/-- The state after the entry at the head of a queue could not be read: its completion goes to ERR_STREAM, the queue is
STOPPED. The TAG of the completion lies in the entry, so the spec states no value of it: a free value. -/
def State.unreadEntry (s : State) (q code : Nat) : State :=
  let r := s.fresh
  let s := if bitAt (s.queueErr q) 15 then
      r.2.postCompletion (enCompletion (r.1.toNat * 2 ^ 128) q (s.queueErr q % 2 ^ 13) code)
    else s
  (s.entryTaken q).setQueueState q 2

/-- The state after an entry's action is done. -/
def State.entryDone (s : State) (q w : Nat) : State :=
  (if enNotify w then s.postCompletion (enCompletion w q (enStream w) 0) else s).entryTaken q

/-- The waits of queue heads in progress. -/
def State.entryWaits (s : State) : Nat :=
  (s.heads.filter (fun p => decide (p.1 < 0x10000) && decide (p.2 = .waiting))).length

/-- The state after the wait of the entry at the head of a queue has begun, or is held for want of a place (R310). -/
def State.beginEntryWait (s : State) (q w : Nat) : State :=
  let first := s.heldHeads.headD q
  if s.entryWaits ≥ 4096 ∨ first ≠ q then
    (if s.heldHeads.contains q then s else (s.setHeldHeads (s.heldHeads ++ [q])))
  else
    let s := (s.setHeldHeads (s.heldHeads.filter (fun x => !(decide (x = q))))).setHeadWait q .waiting
    s.waitFrom (.queueEntry q) (s.queuePart q) (enObject w) (s.deadline (enTimeout w))

/-- Does queue `q` wait behind a completion that one of its entries has posted to a full stream (R312)? -/
def State.queueWaits (s : State) (q : Nat) : Bool :=
  s.streams.any (fun p => p.2.waiting.any (fun x => decide (x.queue = q) && x.ofEntry))

/-- The state after the entry at the head of a RUNNING queue has been handled, if it is valid and of a type: its wait, then
its action `act`. -/
def State.entryRow (s : State) (q type : Nat) (act : State → Nat → State) : State :=
  if s.queueState q ≠ 1 ∨ s.queueHead q = s.queueTail q ∨ s.queueWaits q = true then s
  else
    let r := s.readEntry q
    let s := r.1
    let w := r.2.1
    match r.2.2 with
    | some code => s.unreadEntry q code
    | none =>
      if enType w ≠ type ∨ (s.entryReason (s.queuePart q) w).isSome then s
      else
        let s := if enWait w = true ∧ s.headWait q = .none then s.beginEntryWait q w else s
        match s.headWait q with
        | .waiting => s
        | .failed code => s.failEntry q w code
        | .done => act s w
        | .none => if enWait w then s else act s w

/-- May the dispatcher take a record for its core: it is one that its slot holds, or the core's segment queue has room
(R196)? -/
def State.dispatchRoom (s : State) (r : SegRec) : Bool :=
  let c := r.core
  s.seqHeld r || decide ((s.core c).segq.length + (s.dispatch.filter (fun x => decide (x.core = c) && !(s.seqHeld x))).length < 16)

/-- ENTRY_SEGMENT: the record goes to the dispatcher of the core's CD; the queue moves on. -/
def execEntrySegment (queue : Nat) (s : State) : Host.Outcome State Fault Refusal :=
  .next (s.entryRow queue 1 (fun s w =>
    let r := enRecord w queue (s.queuePart queue) s.segOrder
    if s.dispatchRoom r then ((s.setDispatch (s.dispatch ++ [r])).setSegOrder (s.segOrder + 1)).entryTaken queue else s))

/-- The granules of an entry. -/
def enGranules (w : Nat) : List Nat := (List.range (enCount w)).map (fun i => enGranule w + i)

/-- The state after every granule of a range has a new owner: SEQ rises by 1 (Table 12-4). -/
def State.setOwners (s : State) (gs : List Nat) (owner : Nat) : State :=
  gs.foldl (fun s g => s.setFlag g (owner + (s.flagWord g / 65536 + 1) % 65536 * 65536)) s

/-- ENTRY_GRANT: the granules go to the host, unless one is HOST already. -/
def execEntryGrant (queue : Nat) (s : State) : Host.Outcome State Fault Refusal :=
  .next (s.entryRow queue 2 (fun s w =>
    match (enGranules w).find? (fun g => decide (s.flagWord g % 4 = 1)) with
    | some g => (s.ownershipEvent sevFailed g 3).failEntry queue w Code.hqOwnership.val
    | none => (s.setOwners (enGranules w) 1).entryDone queue w))

/-- ENTRY_CLAIM: the granules go to the device, if every one is of owner NONE. -/
def execEntryClaim (queue : Nat) (s : State) : Host.Outcome State Fault Refusal :=
  .next (s.entryRow queue 3 (fun s w =>
    match (enGranules w).find? (fun g => decide (s.flagWord g % 4 ≠ 0)) with
    | some g => (s.ownershipEvent sevFailed g 4).failEntry queue w Code.hqOwnership.val
    | none => (s.setOwners (enGranules w) 2).entryDone queue w))

/-- ENTRY_SIGNAL: the signal entry is performed. -/
def execEntrySignal (queue : Nat) (s : State) : Host.Outcome State Fault Refusal :=
  .next (s.entryRow queue 4 (fun s w =>
    (s.performSignal unitPcie (s.queuePart queue) 0 (signalEntry (bytesAt w 32 6))).entryDone queue w))

/-- The state after a segment that never ran has completed with a status: its slot counts, and its completion is posted if
it asks for one. -/
def State.dropSegment (s : State) (r : SegRec) (status : Nat) : State :=
  let s := (s.setDispatch (s.dispatch.erase r))
  let s := if r.seqValid then s.seqUp r.seqSlot else s
  if r.notify then s.postCompletion (r.completion status (s.rd (.hifSeqCount r.seqSlot)) none) else s

/-- ENTRY_SEQ_CANCEL: every held segment of the slot completes with HQ_SEQ_CANCELLED (R314). -/
def execEntrySeqCancel (queue : Nat) (s : State) : Host.Outcome State Fault Refusal :=
  .next (s.entryRow queue 5 (fun s w =>
    let held := s.dispatch.filter (fun r => decide (r.seqSlot = enSlot w) && s.seqHeld r)
    let s := held.foldl (fun s r => s.dropSegment r Code.hqSeqCancelled.val) s
    (s.raise .hqSeqCancelled unitPcie (s.queuePart queue) (payload [(16, 1, enSlot w), (20, 4, held.length)])).entryDone
      queue w))

/-- ENTRY_NOP. -/
def execEntryNop (queue : Nat) (s : State) : Host.Outcome State Fault Refusal :=
  .next (s.entryRow queue 6 (fun s w => s.entryDone queue w))

/-- ENTRY_INVALID: an invalid entry at the head fails with HQ_ENTRY_INVALID and is skipped; the queue goes on. -/
def execEntryInvalid (queue : Nat) (s : State) : Host.Outcome State Fault Refusal :=
  if s.queueState queue ≠ 1 ∨ s.queueHead queue = s.queueTail queue ∨ s.queueWaits queue = true then .next s
  else
    let r := s.readEntry queue
    let s := r.1
    match r.2.2 with
    | some code => .next (s.unreadEntry queue code)
    | none =>
      let p := s.queuePart queue
      match s.entryReason p r.2.1 with
      | none => .next s
      | some reason =>
        let s := s.raise .hqEntryInvalid unitPcie (partByte p)
          (payload [(16, 1, reason), (20, 2, queue), (24, 4, s.queueHead queue)])
        .next ((s.postFailure queue r.2.1 Code.hqEntryInvalid.val).entryTaken queue)

/-! ## Streams -/

/-- COMPLETION_POST_RESUME: the first waiting completion of a stream is written, once there is room (R312). -/
def execCompletionPostResume (stream : Nat) (s : State) : Host.Outcome State Fault Refusal :=
  .next (if (s.stream stream).on then s.resumeStream stream else s)

/-- The event ring of context `p` beside its registers. -/
def State.ring (s : State) (p : Nat) : EventRing := Sparse.get EventRing.reset s.rings p
def State.modRing (s : State) (p : Nat) (f : EventRing → EventRing) : State :=
  (s.setRings (Sparse.put EventRing.reset p (f (s.ring p)) s.rings))

/-- The MSI-X function of event context `p` (R313). -/
def ringFn (p : Nat) : Nat := if p < 16 then p + 1 else 0

/-- MSIX_HOLDOFF_EXPIRY: the holdoff of a stream, or of an event ring, ends; one message covers what was written during it. -/
def execMsixHoldoffExpiry (ring : Bool) (n : Nat) (s : State) : Host.Outcome State Fault Refusal :=
  if ring then
    let x := s.ring n
    if x.owed then
      let s := (s.setDtime (max s.dtime x.holdoff)).sendMsix (ringFn n) (s.rd (.hifPartEvctrlVector n))
      .next (s.modRing n (fun y => { y with owed := false, holdoff := s.dtime + 1000 * s.rd (.hifPartEvctrlHoldoff n) }))
    else .next s
  else
    let x := s.stream n
    if x.owed then .next ((s.setDtime (max s.dtime x.holdoff)).streamMessage n) else .next s

/-! ## Event rings (R315) -/

/-- EVENT_RING_WRITE: HIF_PART_EVRING of context `p` (0 to 16) is written by the physical function: discarded whole when L is
outside 4 to 16, or when it changes the ring while ENABLE is 1; ENABLE from 0 to 1 restarts the ring. -/
def execEventRingWrite (pf : Bool) (p value : Nat) (s : State) : Host.Outcome State Fault Refusal :=
  if s.barShut pf then .next (s.barAnswer pf) else
  let v := value % 2 ^ 55
  let l := bitsAt v 49 5
  let old := (s.reg (Reg.hifPartEvring p)).toNat
  let on := s.rdBit (.hifPartEvringEnable p)
  if pf = false ∨ p > 16 then .next (s.count (Reg.hifCnt 0) 1)
  else if l < 4 ∨ l > 16 ∨ (on = true ∧ v % 2 ^ 54 ≠ old % 2 ^ 54) then .next (s.count (Reg.hifCnt 0) 1)
  else
    let s := s.setReg (Reg.hifPartEvring p) (BitVec.ofNat 64 v)
    if on = false ∧ bitAt v 54 = true then
      .next ((s.setReg (Reg.hifPartEvpos p) 0).modRing p (fun x => { x with seq := 0 }))
    else .next s

/-- The state after HEAD of event context `p` has been written (R303, R315). -/
def State.eventHeadWrite (s : State) (p value : Nat) : State :=
  let v := value % 2 ^ 32
  let tail := s.rd (.hifPartEvposTail p)
  if headBad (s.rd (.hifPartEvposHead p)) v tail then s.ringOverrun 2 p (partByte p) v tail
  else s.wr (.hifPartEvposHead p) v

end Sys2Proof.Machine
end

