-- ==== Sys2Proof/Machine/Messages.lean ====
section
/-!
DEFINITION. The messages of other chips (sections 13.3 and 13.4): consuming and forwarding (R334, R335), remote access
(R337), signals (R338), and the parts and results of reductions (R345 to R347).
-/
namespace Sys2Proof.Machine

/-! ## Taking a message -/

/-- The state with the message at a place of the inbox taken out, and its slots owed back to the sender (R333). -/
def State.freeMsg (s : State) (i : Nat) : State :=
  match s.inbox[i]? with
  | none => s
  | some (n, m) =>
    let s := (s.setInbox (s.inbox.eraseIdx i))
    if m.type = 1 then s else s.freeVia { m with via := some n }

/-- The message of a type at a place of the inbox, if no earlier one of its type, source and port stands before it (R334). -/
def State.msgAt (s : State) (i type : Nat) : Option (Nat × Msg) :=
  match s.inbox[i]? with
  | none => none
  | some (n, m) =>
    if m.type ≠ type ∨ (s.inbox.take i).any (fun x => decide (x.1 = n ∧ x.2.type = type ∧ x.2.src = m.src)) = true then none
    else some (n, m)

/-- The state after the message at a place of the inbox, which came in at a port for another chip, has been sent on, or dropped
(R334, R335). It keeps its receive slots until the next port has credit for it (R336). -/
def State.forward (s : State) (i n : Nat) (m : Msg) : State :=
  let s := s.setInbox (s.inbox.eraseIdx i)
  let m := { m with hops := m.hops + 1, via := some n }
  if s.canRoute m then (s.enqueueMsg unitLink m).count (Reg.lnkCnt 1) 1 else s.dropMsg m

/-- The state after the message of a type at a place of the inbox has been taken: `f` consumes one for this chip that came
in at a port; any other is sent on. -/
def State.onMsg (s : State) (i type : Nat) (f : State → Nat → Msg → State) : State :=
  match s.msgAt i type with
  | none => s
  | some (n, m) =>
    if m.dst = s.chipId then f (s.freeMsg i) n m else s.forward i n m

/-- The state after an answer to a message has been sent. -/
def State.answer (s : State) (m : Msg) : State := s.sendMsg unitLink sevNotice noPart m

/-- MSG_CREDIT (R333): the slots that a peer returns, by virtual channel; link-local. -/
def execMsgCredit (i : Nat) (s : State) : Host.Outcome State Fault Refusal :=
  match s.msgAt i 1 with
  | none => .next s
  | some (n, m) =>
    .next ((s.freeMsg i).modPort n (fun p => { p with
      credits := p.credits.mapIdx (fun v k => min (k + bitsAt m.arg (12 * v) 12) (fullCredits.getD v 0)) }))

/-! ## Remote access (R337) -/

/-- The CPA that a request names. -/
def Msg.cpa (m : Msg) : Nat := bitsAt m.arg 0 48 / 32 * 32

/-- The answer to a link's access to `n` bytes: refused by R252, or register space, which no link reaches (R428). -/
def State.linkCheck (s : State) (a n : Nat) (write : Bool) : AccessResult × Nat :=
  match areaOf a with
  | .register _ => (.unmapped, a)
  | _ => s.checkRange .link a n write

/-- The state after a request has been refused with a code: the home's event and the ERR_RSP. -/
def State.refuseRemote (s : State) (port : Nat) (m : Msg) (c : Code) (a : Nat) (write : Bool) : State :=
  (s.refuseAccess c sevNotice (unitPort port 63) .link a write).answer (m.errRsp c.val)

/-- A response to a request. -/
def Msg.reply (m : Msg) (type len arg data : Nat) : Msg :=
  { type := type, len := len, hops := 0, dst := m.src, src := m.dst, tag := m.tag, arg := arg, data := data }

/-- The state after a remote read has been answered. -/
def State.remoteRead (s : State) (port : Nat) (m : Msg) : State :=
  let a := m.cpa
  let u := min 16 (bitsAt m.arg 56 8)
  let r := s.linkCheck a (32 * u) false
  match r.1.code with
  | some c => s.refuseRemote port m c r.2 false
  | none =>
    if anyMarked s.bad a (32 * u) then
      (s.raiseAs .intParity sevFailed (unitPort port 63) noPart (payload [(16, 8, a), (24, 1, 1)])).answer (m.errRsp Code.intParity.val)
    else if s.poisoned a (32 * u) then
      (s.raiseAs .memUncorrectable sevFailed (unitPort port 63) noPart (payload [(16, 8, a), (24, 1, tierNo a)])).answer
        (m.errRsp Code.memUncorrectable.val)
    else (s.cacheReads a (32 * u) 0).answer (m.reply 0x20 u 0 (natOfBytes (s.bytes a (32 * u))))
def execMsgRdReq (i : Nat) (s : State) : Host.Outcome State Fault Refusal := .next (s.onMsg i 0x10 State.remoteRead)

/-- The state after a remote write of runs of bytes (address, bytes) within `n` bytes from `a` up. -/
def State.remoteStore (s : State) (port : Nat) (m : Msg) (a n : Nat) (runs : List (Nat × List (BitVec 8))) : State :=
  let r := s.linkCheck a n true
  match r.1.code with
  | some c => s.refuseRemote port m c r.2 true
  | none => ((runs.foldl (fun s x => s.store x.1 x.2) s).cacheWrites a n 0).answer (m.reply 0x21 0 1 0)

/-- The state after a remote write. -/
def State.remoteWrite (s : State) (port : Nat) (m : Msg) : State :=
  s.remoteStore port m m.cpa (32 * m.len) [(m.cpa, bytesOfNat (32 * m.len) m.data)]
def execMsgWr (i : Nat) (s : State) : Host.Outcome State Fault Refusal := .next (s.onMsg i 0x11 State.remoteWrite)

/-- The state after a remote masked write of one granule. -/
def State.remoteMasked (s : State) (port : Nat) (m : Msg) : State :=
  s.remoteStore port m m.cpa 32 ((List.range 32).filterMap (fun j =>
    if bitAt m.data j then some (m.cpa + j, bytesOfNat 1 (bytesAt m.data (32 + j) 1)) else none))
def execMsgWrMasked (i : Nat) (s : State) : Host.Outcome State Fault Refusal := .next (s.onMsg i 0x12 State.remoteMasked)

/-- The object and the unit that a remote read of tier 3 names. -/
def Msg.object (m : Msg) : Nat := bitsAt m.arg 0 32
def Msg.objectUnit (m : Msg) : Nat := bitsAt m.arg 32 32

/-- The state after a remote read of a unit of tier 3 has been refused with an event and a code (R268, R337). -/
def State.refuseUnit (s : State) (m : Msg) (c : Code) (sev un pay : Nat) : State :=
  (s.raiseAs c sev un noPart pay).answer (m.errRsp c.val)

/-- Why a remote read of a unit of tier 3 is refused before the unit is read: catalogue types 2 and 3 alone are read so (R337). The
message does not say which agent sent it, so what R337 says of the channel is its sender's to keep (log entry 56). -/
def State.unitRefusal (s : State) (m : Msg) : Option (Code × Nat) :=
  match s.objectRefusal m.object 0 0 none with
  | some r => some r
  | none =>
    match s.object m.object with
    | none => some (.memObjectUnknown, 0)
    | some x =>
      if x.type ≠ 2 ∧ x.type ≠ 3 then some (.memAccessDenied, 0)
      else if 4096 * m.objectUnit ≥ x.length then some (.memObjectUnknown, 1)
      else none

/-- The state after a remote read of 4 KiB of an object of tier 3, answered with 8 messages (R275, R337). -/
def State.remoteObject (s : State) (port : Nat) (m : Msg) : State :=
  let o := m.object
  let u := m.objectUnit
  let un := unitPort port 63
  match s.unitRefusal m, s.object o with
  | some (.memAccessDenied, _), _ =>
    (s.count (Reg.memCnt 9) 1).refuseUnit m .memAccessDenied sevNotice un (payload [(16, 8, o), (25, 1, noPart)])
  | some (c, r), _ => s.refuseUnit m c c.sev un (payload [(16, 4, o), (20, 1, r)])
  | none, none => s
  | none, some x =>
    let md := s.unitMode o u x
    let s := s.countModes md
    if md = 3 then
      (if x.type = 2 then (s.count (Reg.cadCnt 6) 1).refuseUnit m .memObjectLost sevFailed un (payload [(16, 4, o), (20, 8, 4096 * u)])
        else s.refuseUnit m .memT3Uncorrectable sevFailed un (unitPayload x o u 2))
    else
      let s := if md = 0 then s else s.raise .xfrT3Recovered un noPart (unitPayload x o u md)
      (List.range 8).foldl (fun s k =>
        s.answer (m.reply 0x20 16 (512 * k) (natOfBytes (objectBytes x (4096 * u + 512 * k) 512)))) s

/-- The state in which a remote read of a Z-pack object waits: the object's recovery is in progress, or begins with this read
(R293, R294). -/
def State.unitHeld (s : State) (m : Msg) : Option State :=
  match s.unitRefusal m, s.object m.object with
  | none, some x =>
    if x.type ≠ 2 then none
    else if (s.recovery m.object).isSome then some s
    else if s.unitMode m.object m.objectUnit x = 3 then (s.countModes 3).beginRecovery m.object (4096 * m.objectUnit)
    else none
  | _, _ => none

/-- The state after a request whose home this chip is, where it is held (`unitHeld`). -/
def State.heldHere (s : State) (m : Msg) : Option State := if m.dst = s.chipId then s.unitHeld m else none

/-- MSG_OBJ_RD_REQ: a remote read of tier 3. -/
def execMsgObjRdReq (i : Nat) (s : State) : Host.Outcome State Fault Refusal :=
  match s.msgAt i 0x13 with
  | none => .next s
  | some (_, m) =>
    match s.heldHere m with
    | some t => .next t
    | none => .next (s.onMsg i 0x13 State.remoteObject)

/-! ## Responses -/

/-- Does a response of a type belong to a request of a type: data to a read, an acknowledgement to a write? -/
def respFits (type req : Nat) : Bool :=
  if type = 0x20 then decide (req = 0x10 ∨ req = 0x13) else if type = 0x21 then decide (req = 0x11 ∨ req = 0x12) else true

/-- The state after a response has come: a late one is discarded (R335). -/
def State.onResponse (s : State) (m : Msg) (f : State → Req → State) : State :=
  match s.reqOf m with
  | some r => if respFits m.type r.type then f s r else s
  | none => s

/-- MSG_RD_RSP: the data of a read, at its offset. -/
def execMsgRdRsp (i : Nat) (s : State) : Host.Outcome State Fault Refusal :=
  .next (s.onMsg i 0x20 (fun s _ m => s.onResponse m (fun s r => s.reqData r m.arg (bytesOfNat (32 * m.len) m.data))))

/-- The state after a number of writes of an agent, the named one the last of them, have been acknowledged. -/
def State.ackWrites (s : State) (r : Req) (n : Nat) : State :=
  let l := (s.reqs.filter (fun q => decide (q.agent = r.agent ∧ q.dst = r.dst ∧ (q.type = 0x11 ∨ q.type = 0x12)))).map (fun q => q.tag)
  let upTo := l.take (l.findIdx (fun t => decide (t = r.tag)) + 1)
  (upTo.drop (upTo.length - max 1 n)).foldl State.dropReq s
/-- MSG_WR_ACK: writes of the requester are acknowledged. -/
def execMsgWrAck (i : Nat) (s : State) : Host.Outcome State Fault Refusal :=
  .next (s.onMsg i 0x21 (fun s _ m => s.onResponse m (fun s r => s.ackWrites r (bitsAt m.arg 0 16))))

/-- MSG_ERR_RSP (R337): the requester's transfer fails with the code. -/
def execMsgErrRsp (i : Nat) (s : State) : Host.Outcome State Fault Refusal :=
  .next (s.onMsg i 0x22 (fun s _ m => s.onResponse m (fun s r => s.failReq r (bitsAt m.arg 0 16))))

/-! ## Signals (R338) -/

/-- MSG_SIGNAL: a signal or broadcast of another chip reaches its object. -/
def execMsgSignal (i : Nat) (s : State) : Host.Outcome State Fault Refusal :=
  .next (s.onMsg i 0x30 (fun s n m => s.applySignal
    { src := unitPort n 63, part := none, chip := m.src, object := bitsAt m.arg 0 16, broadcast := decide (bitsAt m.arg 16 8 = 2),
      index := 0 }))

/-! ## Reductions -/

/-- The group, RSEQ and class of a RED message. -/
def Msg.redGroup (m : Msg) : Nat := bitsAt m.arg 0 32
def Msg.redSeq (m : Msg) : Nat := bitsAt m.arg 32 32
def Msg.redClass (m : Msg) : Nat := bytesAt m.data 4 1
def Msg.redLevel (m : Msg) : Nat := bytesAt m.data 5 1

/-- Has a partition of the message's group still to start the reduction that it belongs to? -/
def State.redAhead (s : State) (m : Msg) : Bool :=
  (List.range 16).any (fun p => decide (s.rd (.redPGroupGroupId p) = m.redGroup ∧ m.redClass < 3) &&
    s.rdBit (.redPGroupBound p) &&
    decide ((m.redSeq + 2 ^ 32 - Sparse.get 0 s.redSeq (seqKey p m.redClass)) % 2 ^ 32 < 2 ^ 31))

/-- The state after the RED message of a type at a place of the inbox has been taken at a level: it waits for its reduction to
start; one of a reduction that is over is discarded; the members may disagree (reason 2). -/
def State.redMessage (s : State) (i type level : Nat) (disagree : Bool) : State :=
  match s.inbox[i]? with
  | none => s
  | some (n, m) =>
    if m.type ≠ type then s
    else if m.dst ≠ s.chipId then s.forward i n m
    else
      match s.reds.find? (fun r => decide (r.group = m.redGroup ∧ r.rseq = m.redSeq ∧ r.cls = m.redClass)) with
      | some r =>
        let s := s.freeMsg i
        if r.outcome.isSome then s
        else if disagree then s.failRed r 2
        else s.redReceive r level m
      | none => if s.redAhead m then s else s.freeMsg i

/-- The level of the message at a place of the inbox. -/
def State.inboxLevel (s : State) (i : Nat) : Nat := match s.inbox[i]? with
  | some (_, m) => m.redLevel
  | none => 0

/-- MSG_RED_PART: a partial of the tree comes. -/
def execMsgRedPart (i : Nat) (disagree : Bool) (s : State) : Host.Outcome State Fault Refusal :=
  .next (s.redMessage i 0x40 (s.inboxLevel i) disagree)
/-- MSG_RED_RESULT: the root's words come. -/
def execMsgRedResult (i : Nat) (disagree : Bool) (s : State) : Host.Outcome State Fault Refusal :=
  .next (s.redMessage i 0x41 levelResult disagree)

end Sys2Proof.Machine
end

