-- ==== Sys2Proof/Machine/Members.lean ====
section
/-!
DEFINITION. Roles, views and groups (section 13.6) and device time across chips (section 13.7).
-/
namespace Sys2Proof.Machine

/-! ## Roles -/

/-- The roles of R341. -/
def roleWorker : Nat := 0
def roleManager : Nat := 1
def roleHead : Nat := 2
def State.chipRole (s : State) : Nat := s.rd .lnkRoleRole

/-- No chip (LNK_ROLE, LNK_VIEW). -/
def noChip : Nat := 0xFFFF

/-- The state with the membership state changed. -/
def State.modFellows (s : State) (f : Fellows → Fellows) : State := (s.setFellows (f s.fellows))

/-- A list of identifiers with one more, in ascending order. -/
def insertId (x : Nat) : List Nat → List Nat
  | [] => [x]
  | y :: t => if x < y then x :: y :: t else if x = y then y :: t else y :: insertId x t

/-- A list of identifiers, ascending, without repeats. -/
def sortIds (l : List Nat) : List Nat := l.foldl (fun acc x => insertId x acc) []

/-- The DTIME of a peer's last heartbeat, if it is watched. -/
def State.lastHeard (s : State) (chip : Nat) : Option Nat := (s.fellows.heard.find? (fun x => decide (x.1 = chip))).map (fun x => x.2)

/-- The state after a peer has been heard; or is watched no longer. -/
def State.hear (s : State) (chip : Nat) : State := s.modFellows (fun f => { f with heard := Sparse.insert chip s.dtime f.heard })
def State.unhear (s : State) (chip : Nat) : State := s.modFellows (fun f => { f with heard := Sparse.erase chip f.heard })

/-! ## Views -/

/-- The members of a VIEW message's units as a number. -/
def idsNat : List Nat → Nat
  | [] => 0
  | x :: t => x % 65536 + 65536 * idsNat t

/-- The VIEW messages of a list of members (Table 13-5): 16 members a unit, 256 a message. `kind` is 0 for the pod view, 1 for
a group view, whose group stands in TAG (log entry 15). -/
def State.viewMsgs (s : State) (dst id kind group : Nat) (members : List Nat) : List Msg :=
  (List.range (max 1 (ceilDiv members.length 256))).map (fun k =>
    let ms := (members.drop (256 * k)).take 256
    s.message 0x53 (ceilDiv ms.length 16) dst (group % 65536)
      (id % 2 ^ 32 + kind * 2 ^ 32 + members.length % 2 ^ 24 * 2 ^ 40) (idsNat ms))

/-- The state after a message of the membership protocol or of time has been sent, if a route leads there. -/
def State.sendMgt (s : State) (m : Msg) : State := s.sendMsg unitLink sevNotice noPart m

/-- The state after a view has been sent to chips. -/
def State.sendView (s : State) (dsts : List Nat) (id kind group : Nat) (members : List Nat) : State :=
  dsts.foldl (fun s d => (s.viewMsgs d id kind group members).foldl State.sendMgt s) s

/-- The state after JOIN of a kind has been sent to a chip: 1 join, 2 refused, 3 leave. -/
def State.sendJoin (s : State) (dst kind : Nat) : State :=
  s.sendMgt (s.message 0x52 0 dst 0 (s.rd .lnkIdentPodId + kind * 2 ^ 16) 0)

/-- The state with a pod view held: LNK_VIEW and the view area, which is laid out like a group entry (log entry 15). -/
def State.holdView (s : State) (id : Nat) (members : List Nat) : State :=
  let s := s.modFellows (fun f => { f with members := members })
  let s := (s.wr .lnkViewViewId (id % 2 ^ 32)).wr .lnkViewMembers members.length
  s.writeVia .referee unitLink (s.rd .lnkViewBaseBase) (16 + 2 * members.length)
    (natOfBytes (bytesOfNat 4 id ++ bytesOfNat 2 members.length ++ bytesOfNat 10 0 ++ members.flatMap (bytesOfNat 2)))

/-! ## Groups (R343) -/

/-- Entry `e` of the group table: GROUP_ID and the identifiers; none where the table cannot be read (R252). -/
def State.groupEntry (s : State) (e : Nat) : Option (Nat × List Nat) :=
  let a := s.rd .lnkGroupsBase + 8192 * e
  let n := min 4088 (s.memNat (a + 4) 2)
  if (s.checkRange .referee a 8192 false).1 = .ok then
    some (s.memNat a 4, (List.range n).map (fun i => s.memNat (a + 16 + 2 * i) 2))
  else none

/-- The identifiers that are present in the pod views that this chip knows. -/
def State.inPod (s : State) (chip : Nat) : Bool :=
  if s.chipRole = roleHead then s.fellows.podViews.any (fun v => v.2.contains chip) else s.fellows.members.contains chip

/-- The partitions of this chip that name a group. -/
def State.groupParts (s : State) (group : Nat) : List Nat :=
  (List.range 16).filter (fun p => decide (s.rd (.redPGroupGroupId p) = group))

/-- The state after a group view has arrived: its reductions fail, and the partitions of the group are bound to it. -/
def State.adoptGroup (s : State) (group : Nat) (v : GView) : State :=
  let s := (s.setGviews (Sparse.put ⟨0, [], false⟩ group v s.gviews)).redViewChanged group
  (s.groupParts group).foldl (fun s p => s.bindGroup p v) s

/-- The chips that a holder or a relaying manager sends a group view to: a manager its own workers, a head its managers. -/
def State.viewTargets (s : State) (l : List Nat) : List Nat :=
  if s.chipRole = roleHead then s.fellows.children else s.fellows.members.filter (fun m => l.contains m)

/-- The state after one entry of the group table has been computed again: a view that changed gets a new GVIEW_ID and goes out;
the group is complete when every listed chip is present. -/
def State.computeGroup (s : State) (e : Nat) : State :=
  match s.groupEntry e with
  | none => s
  | some x =>
    let ids := sortIds x.2
    let ms := ids.filter (fun c => s.inPod c)
    let old := Sparse.get ⟨0, [], false⟩ s.gviews x.1
    let full := decide (ms = ids)
    if x.2.isEmpty then s
    else if ms = old.members then s.setGviews (Sparse.put ⟨0, [], false⟩ x.1 { old with complete := full } s.gviews)
    else
      let v : GView := ⟨(old.id + 1) % 2 ^ 32, ms, full⟩
      let s := (s.setGviews (Sparse.put ⟨0, [], false⟩ x.1 v s.gviews))
      s.sendView (s.viewTargets (old.members ++ ms)) v.id 1 x.1 ms

/-- The state after the holder has computed every group view again: at every change of a pod view, and after every write of the
table, which the idle tick sees (R343, log entry 15). -/
def State.computeGroups (s : State) : State :=
  if s.chipRole = roleWorker then s else (List.range (s.rd .lnkGroupsNgroups)).foldl State.computeGroup s

/-- The state after the manager has changed its pod view (R342): VIEW_ID rises by 1 and VIEW goes to every member, and to the
head that the manager has. -/
def State.changeView (s : State) (members : List Nat) : State :=
  let id := (s.rd .lnkViewViewId + 1) % 2 ^ 32
  let s := s.holdView id members
  let parent := s.rd .lnkRoleParent
  let s := s.sendView (members ++ (if parent = noChip then [] else [parent])) id 0 0 members
  s.computeGroups

/-- The state after this chip has left every group (R343). -/
def State.leaveGroups (s : State) : State :=
  let gs := s.gviews.map (fun g => g.1)
  let s := gs.foldl (fun s g => (s.setGviews (Sparse.erase g s.gviews)).redViewChanged g) s
  (List.range 16).foldl (fun s p =>
    if s.rdBit (.redPGroupBound p) then
      ((s.wr (.redPGroupBound p) 0).wr (.redPGroupComplete p) 0).wr (.redPGroupMembers p) 0
    else s) s

/-- The payload of a peer's event: chip and VIEW_ID. -/
def State.peerPayload (s : State) (chip : Nat) : Nat := payload [(16, 2, chip), (20, 4, s.rd .lnkViewViewId)]

/-- The state with a new manager: LNK_MANAGER_CHANGE where another was known. -/
def State.setManager (s : State) (chip : Nat) : State :=
  let old := s.rd .lnkViewManager
  let s := ((s.wr .lnkViewManager chip).wr .lnkViewManagerPresent 1)
  if old = noChip ∨ old = chip then s
  else s.raise .lnkManagerChange unitLink noPart (s.peerPayload chip)

/-! ## Heartbeats (R342) -/

/-- The chips that this chip sends heartbeats to: its parent, and its children. -/
def State.heartPeers (s : State) : List Nat :=
  let parent := s.rd .lnkRoleParent
  let children := if s.chipRole = roleManager then s.fellows.members else if s.chipRole = roleHead then s.fellows.children else []
  (if parent = noChip ∨ s.chipRole = roleHead then [] else [parent]) ++ children

/-- HEARTBEAT_TIMER (R342): every 1 ms each chip sends HEARTBEAT to its parent and children. A worker that is in no view asks its
parent for one. -/
def execHeartbeatTimer (s : State) : Host.Outcome State Fault Refusal :=
  if s.rdBit .lnkRoleEnable = false then .next s
  else
    let s := s.heartPeers.foldl (fun s d => s.sendMgt (s.message 0x51 0 d 0 (s.rd .lnkViewViewId + s.chipRole * 2 ^ 32) 0)) s
    let parent := s.rd .lnkRoleParent
    if s.chipRole = roleWorker then
      .next (if parent = noChip ∨ s.fellows.members.contains s.chipId then s else s.sendJoin parent 1)
    else .next s

/-- The state after the holder of a group table has seen what has been written into it. -/
def State.groupTick (s : State) : State := if s.rdBit .lnkRoleEnable then s.computeGroups else s

/-- The state after a manager has met another of its pod: the one with the lower VIEW_ID steps down, with equal ones the higher
identifier; it becomes a worker of the other and sends JOIN. -/
def State.rival (s : State) (chip id : Nat) : State :=
  let own := s.rd .lnkViewViewId
  if own < id ∨ (own = id ∧ s.chipId > chip) then
    let s := ((s.wr .lnkRoleRole roleWorker).wr .lnkRoleParent chip).setManager chip
    (s.hear chip).sendJoin chip 1
  else s

/-- MSG_HEARTBEAT (R342): a peer lives. A manager's heartbeats go only to its head and its workers, so one that claims MANAGER
reaches a manager from a rival, and a head from a child. -/
def execMsgHeartbeat (i : Nat) (s : State) : Host.Outcome State Fault Refusal :=
  .next (s.onMsg i 0x51 (fun s _ m =>
    let id := bitsAt m.arg 0 32
    let role := bitsAt m.arg 32 8
    if s.rdBit .lnkRoleEnable = false then s
    else if s.chipRole = roleManager ∧ role = roleManager then s.rival m.src id
    else
      let s := s.hear m.src
      if s.chipRole = roleHead then
        if role = roleManager then
          let cs := insertId m.src s.fellows.children
          (if cs.length ≤ 64 then s.modFellows (fun f => { f with children := cs }) else s)
        else s
      else if s.chipRole = roleWorker ∧ role = roleManager then
        let mgr := s.rd .lnkViewManager
        if mgr = noChip then
          (if m.src = s.rd .lnkRoleParent then (s.wr .lnkViewManager m.src).wr .lnkViewManagerPresent 1 else s)
        else if s.rdBit .lnkViewManagerPresent then s
        else
          let s := if m.src = mgr then s.wr .lnkViewManagerPresent 1 else s
          s.sendJoin m.src 1
      else s))

/-- The state after a worker has lost its manager: the standby manager takes over the last view; any other keeps its view. -/
def State.managerLost (s : State) : State :=
  if decide (s.rd .lnkRoleStandby = s.chipId) then
    let ms := s.fellows.members.filter (fun m => !(decide (m = s.chipId)))
    (((ms.foldl State.hear (s.wr .lnkRoleRole roleManager).leaveGroups)).changeView ms).setManager s.chipId
  else s

/-- PEER_LOST_TIMEOUT (R342): no heartbeat of a chip has come for 5.5 ms. -/
def execPeerLostTimeout (chip : Nat) (s : State) : Host.Outcome State Fault Refusal :=
  match s.lastHeard chip with
  | none => .next s
  | some t =>
    if s.rdBit .lnkRoleEnable = false then .next s
    else
      let s := (s.setDtime (max s.dtime (t + 5500000))).unhear chip
      if s.chipRole = roleManager then
        if s.fellows.members.contains chip then
          let s := s.changeView (s.fellows.members.filter (fun m => !(decide (m = chip))))
          .next (s.raise .lnkPeerLost unitLink noPart (s.peerPayload chip))
        else .next s
      else if s.chipRole = roleHead then
        .next (s.modFellows (fun f => { f with children := f.children.filter (fun m => !(decide (m = chip))) }))
      else if s.rd .lnkViewManager = chip then
        .next (s.wr .lnkViewManagerPresent 0).managerLost
      else .next s

/-! ## JOIN and VIEW -/

/-- MSG_JOIN (R342, Table 13-9). -/
def execMsgJoin (i : Nat) (s : State) : Host.Outcome State Fault Refusal :=
  .next (s.onMsg i 0x52 (fun s _ m =>
    let pod := bitsAt m.arg 0 16
    let kind := bitsAt m.arg 16 8
    let ms := s.fellows.members
    if s.rdBit .lnkRoleEnable = false then s
    else if kind = 2 then s.raise .lnkJoinRefused unitLink noPart (payload [(16, 2, m.src)])
    else if s.chipRole ≠ roleManager then s
    else if kind = 1 then
      if pod ≠ s.rd .lnkIdentPodId ∨ s.routePorts m.src = [] then s
      else if ms.length < 64 ∧ ms.contains m.src = false then
        let s := (s.hear m.src).changeView (insertId m.src ms)
        s.raise .lnkPeerJoined unitLink noPart (s.peerPayload m.src)
      else s.sendJoin m.src 2
    else if kind = 3 ∧ ms.contains m.src = true then
      let s := (s.unhear m.src).changeView (ms.filter (fun x => !(decide (x = m.src))))
      s.raise .lnkPeerLost unitLink noPart (s.peerPayload m.src)
    else s))

/-- The state after a whole pod view has come from a chip. -/
def State.podView (s : State) (src id : Nat) (members : List Nat) : State :=
  if s.chipRole = roleHead then
    (s.modFellows (fun f => { f with podViews := Sparse.insert src members f.podViews })).computeGroups
  else if s.chipRole = roleManager then s.rival src id
  else if id ≤ s.rd .lnkViewViewId then s
  else
    let s := ((s.holdView id members).setManager src).wr .lnkRoleParent src
    let s := s.hear src
    if members.contains s.chipId then s else s.leaveGroups.sendJoin src 1

/-- The state after a whole group view has come from a chip: a worker adopts a newer one; a manager relays it to its workers. -/
def State.groupViewIn (s : State) (id group : Nat) (complete : Bool) (members : List Nat) : State :=
  let old := Sparse.get ⟨0, [], false⟩ s.gviews group
  if id ≤ old.id then s
  else
    let v : GView := ⟨id, members, complete⟩
    if s.chipRole = roleManager then
      let s := (s.setGviews (Sparse.put ⟨0, [], false⟩ group v s.gviews))
      s.sendView (s.viewTargets (old.members ++ members)) id 1 group members
    else s.adoptGroup group v

/-- MSG_VIEW (R342, R343): one message of a view; the view is adopted when all its members have come. The group of a group view
and its completeness, for which Table 13-5 has no field, come with the command (log entry 15). -/
def execMsgView (i group : Nat) (complete : Bool) (s : State) : Host.Outcome State Fault Refusal :=
  .next (s.onMsg i 0x53 (fun s _ m =>
    let id := bitsAt m.arg 0 32
    let kind := bitsAt m.arg 32 8
    let n := bitsAt m.arg 40 24
    let g := if kind = 1 then group else 0
    if s.rdBit .lnkRoleEnable = false then s
    else
      let same (v : ViewRx) : Bool := decide (v.src = m.src ∧ v.kind = kind ∧ v.group = g)
      let had := match s.fellows.viewRx.find? (fun v => same v && decide (v.id = id)) with
        | some v => v.members
        | none => []
      let now := had ++ (List.range (min (16 * m.len) (n - had.length))).map (fun j => bitsAt m.data (16 * j) 16)
      let rest := s.fellows.viewRx.filter (fun v => !(same v))
      if now.length < n then
        s.modFellows (fun f => { f with viewRx := rest ++ [ViewRx.mk m.src kind id g now] })
      else
        let s := s.modFellows (fun f => { f with viewRx := rest })
        if kind = 0 then s.podView m.src id now else if kind = 1 then s.groupViewIn id group complete now else s))

/-! ## Time (R344) -/

/-- The correction of DTIME by an offset (R33): a step forward when it is more than 1 ms behind, else by slewing. -/
def State.correctTime (s : State) (o : Int) : State :=
  if o > 1000000 then ((s.modFellows (fun f => { f with slew := 0 })).setDtime (s.dtime + o.toNat))
  else s.modFellows (fun f => { f with slew := o })

/-- The state after an offset has been measured: it corrects DTIME, the alignment of the last 16 is tested, and a chip more than
1 ms ahead says so once. -/
def State.offsetIn (s : State) (o : Int) : State :=
  let s := s.modFellows (fun f => { f with offsets := (o :: f.offsets).take 16 })
  let l := s.fellows.offsets
  let s := s.wr .lnkViewTimeAligned (flag (decide (l.length = 16) && l.all (fun x => decide (x.natAbs ≤ 100))))
  let s := s.correctTime o
  if o < -1000000 ∧ s.fellows.ahead = false then
    (s.modFellows (fun f => { f with ahead := true })).raise .lnkTimeAhead unitLink noPart (payload [(16, 8, codeOfInt 64 o)])
  else s

/-- The time parent of this chip, if it follows one. -/
def State.timeParent (s : State) : Option Nat :=
  let p := s.rd .lnkRoleParent
  if s.chipRole = roleHead ∨ p = noChip then none else some p

/-- TIME_SYNC_TIMER (R344): every 1 ms a child sends TIME to its parent. -/
def execTimeSyncTimer (s : State) : Host.Outcome State Fault Refusal :=
  match s.timeParent with
  | none => .next s
  | some p => .next (s.sendMgt (s.message 0x54 1 p 0 0 s.dtime))

/-- The state with a TIME message's CORRECTION raised. -/
def Msg.residing (m : Msg) (residence : Nat) : Msg :=
  { m with data := putBits m.data 192 64 (bitsAt m.data 192 64 + residence) }

/-- MSG_TIME (R344): a request is stamped and answered, `residence` nanoseconds later; a response gives an offset; one for
another chip goes on with its residence time added to CORRECTION. -/
def execMsgTime (i residence : Nat) (s : State) : Host.Outcome State Fault Refusal :=
  match s.msgAt i 0x54 with
  | none => .next s
  | some (n, m) =>
    let t1 := bitsAt m.data 0 64
    let cor := bitsAt m.data 192 64
    if m.dst ≠ s.chipId then .next (s.forward i n (m.residing residence))
    else
    let s := s.freeMsg i
    if bitsAt m.arg 0 8 = 0 then
      let d := t1 + s.dtime % 2 ^ 64 * 2 ^ 64 + (s.dtime + residence) % 2 ^ 64 * 2 ^ 128 + cor * 2 ^ 192
      .next (s.sendMgt (m.reply 0x54 1 1 d))
    else if s.timeParent ≠ some m.src then .next s
    else
      let t2 : Int := bitsAt m.data 64 64
      let t3 : Int := bitsAt m.data 128 64
      let o := ((t2 - (t1 : Int)) - ((s.dtime : Int) - t3) - (cor : Int)) / 2
      .next (s.offsetIn o)

/-- TIME_ADJ_WRITE (R344): an IEEE 1588 offset; discarded unless TIME_SRC is 1. R344 has the service cores write it, beside the
physical function: `may` is whether the writer is one of these. -/
def execTimeAdjWrite (may : Bool) (offset : Nat) (s : State) : Host.Outcome State Fault Refusal :=
  if s.barShut false then .next (s.barAnswer false) else
  if may = false then .next (s.count (Reg.hifCnt 0) 1)
  else if s.rd .lnkRoleTimeSrc ≠ 1 then .next s
  else .next (s.offsetIn (signed 64 offset))

end Sys2Proof.Machine
end

