-- ==== Sys2Proof/Machine/RedRing.lean ====
section
/-!
DEFINITION. Program reductions (R343, R347, R348): a partition's group register and its reduction ring.
-/
namespace Sys2Proof.Machine

/-! ## The entry (Table 13-10) -/

def reOp (w : Nat) : Nat := bytesAt w 0 1
def reCombine (w : Nat) : Nat := bytesAt w 1 1
def reRoot (w : Nat) : Nat := bytesAt w 2 2
def reCount (w : Nat) : Nat := bytesAt w 4 4
def reSrc (w : Nat) : Nat := bytesAt w 8 8 % 2 ^ 48
def reDst (w : Nat) : Nat := bytesAt w 16 8 % 2 ^ 48
def reCore (w : Nat) : Nat := bytesAt w 24 1
def reWaitEn (w : Nat) : Bool := bitAt w (8 * 32)
def reTimeout (w : Nat) : Nat := bitsAt w (8 * 33) 4
def reWaitObject (w : Nat) : Nat := bytesAt w 34 2
def reSignal (w : Nat) : SignalEntry := signalEntry (bytesAt w 36 6)

/-- Partition `p`'s ring beside its registers. -/
def State.redRing (s : State) (p : Nat) : RedRing := Sparse.get RedRing.reset s.redRings p
def State.modRedRing (s : State) (p : Nat) (f : RedRing → RedRing) : State :=
  (s.setRedRings (Sparse.put RedRing.reset p (f (s.redRing p)) s.redRings))

/-- Are the fields of an entry that stand by themselves valid? -/
def reFieldsOk (w : Nat) : Bool :=
  decide (reOp w ≤ 2 ∧ reCombine w ≤ 1 ∧ (reOp w = 2 ∨ reRoot w = 0) ∧ reCount w ≠ 0 ∧ bytesAt w 25 7 = 0 ∧ bytesAt w 42 22 = 0 ∧
    bitsAt w (8 * 32 + 1) 7 = 0 ∧ bitsAt w (8 * 33 + 4) 4 = 0 ∧ (reSignal w).kind ≠ 3 ∧ (reSignal w).rsv = 0)

/-- Does a descriptor's BASE lie in this chip's tier 1, or in a core store of the partition? -/
def State.redPlaceOk (s : State) (p : Nat) (d : Desc) : Bool :=
  decide (d.base / 2 ^ 48 = s.chipId) && (decide (areaOf d.cpa = .tier1) || (s.coresOf p).any (fun c => inStore c d.cpa 1))

/-- The elements that this chip's result delivers: (first, count), given its index in the view of `n` members. -/
def State.redShare (s : State) (w n i : Nat) : Nat × Nat :=
  if reOp w = 0 then (0, reCount w)
  else if reOp w = 1 then
    let lo := i * reCount w / max 1 n
    (lo, (i + 1) * reCount w / max 1 n - lo)
  else (0, if reRoot w = s.chipId then reCount w else 0)

/-- The elements that an entry of partition `p` delivers on this chip under the group view that the partition is bound to. -/
def State.redCount (s : State) (p w : Nat) : Nat :=
  let ms := (s.groupView p).members
  (s.redShare w ms.length (ms.findIdx (fun m => decide (m = s.chipId)))).2

/-- Is an entry valid (R348), as far as its descriptors say? All elements that this chip receives must fit its destination. -/
def State.redValid (s : State) (p w : Nat) : Bool :=
  let sd := s.desc (reSrc w)
  let dd := s.desc (reDst w)
  (s.descInvalid (reSrc w) false).isNone &&
    (s.descInvalid (reDst w) true).isNone && decide ((sd.fmt = .zf32 ∨ sd.fmt = .zb16) ∧ sd.mode = .none) &&
    s.redPlaceOk p sd && decide (dd.base / 2 ^ 48 = s.chipId) && decide (sd.elements ≥ reCount w) &&
    decide (s.redCount p w ≤ dd.elements)

/-! ## Reading the source (R123) -/

/-- The outcome of reading a block of the source: access, parity, then R67; a poisoned line is a CHECK failure (R248). -/
def State.redBlockFault (s : State) (p da : Nat) (d : Desc) (t : Nat) : Option (State × Nat) :=
  let a := d.blockAddr t
  let x := s.checkRange (.part p) a 4096 false
  let y := s.checkRange (.part p) (d.trailerAddr t) 16 false
  ifSome ((x.1.code.map (fun k => (k, x.2))).orElse (fun _ => y.1.code.map (fun k => (k, y.2))))
    (fun k => some (s.refuseAccess k.1 sevFailed unitLink (.part p) k.2 false, k.1.val)) <|
    if anyMarked s.bad a 4096 then
      some (s.raiseAs .intParity sevFailed unitLink p (payload [(16, 8, a), (24, 1, 1)]), Code.intParity.val)
    else
      let pay := blockPayload (s.global a) (d.blockId t) (s.memNat (d.trailerAddr t + 8) 4)
      let bad (c : Code) : Option (State × Nat) := some (s.raiseAs c sevFailed unitLink p pay, c.val)
      match (if s.poisoned a 4096 || s.poisoned (d.trailerAddr t) 16 then .check else s.blockCheck d t) with
      | .ok => none
      | .check => bad .intCheckFail
      | .id => bad .intBlockId
      | .poisoned => bad .intPoisoned
      | .format => some (s.raise .numFormatMismatch unitLink p (payload [(16, 8, da), (24, 8, t)]), Code.numFormatMismatch.val)

/-- The outcome of reading a whole tensor. -/
def State.redSourceFault (s : State) (p da : Nat) : Option (State × Nat) :=
  (List.range (s.desc da).nblk).findSome? (fun t => s.redBlockFault p da (s.desc da) t)

/-- This chip's contribution: the first COUNT elements as ZF32 codes. -/
def State.redWords (s : State) (w : Nat) : List Nat :=
  let d := s.desc (reSrc w)
  (List.range (reCount w)).map (fun j => toZF32 (s.elemVal (reCore w) d 0 (j / d.dimAt 0) (j % d.dimAt 0)))

/-! ## Commands -/

/-- RED_GROUP_WRITE (R343, R347): GROUP_ID is written; every RSEQ restarts at 0, what ran is over, and a group view that this
chip holds is bound. RESTART is a row of its own. -/
def State.groupWrite (s : State) (pf : Bool) (p value : Nat) : State :=
  if pf = false then s.count (Reg.hifCnt 0) 1
  else if p ≥ 16 then s
  else
    let s := s.wr (.redPGroupGroupId p) (bitsAt value 0 32)
    let s := (s.setRedSeq ((List.range 4).foldl (fun q c => Sparse.erase (seqKey p c) q) s.redSeq))
    let s := (List.range 3).foldl (fun (s : State) c => match s.red p c with
      | some r => if r.outcome.isSome then s else s.failRed r 1
      | none => s) s
    let v := s.groupView p
    if v.id = 0 then
      (((s.wr (.redPGroupBound p) 0).wr (.redPGroupComplete p) 0).wr (.redPGroupMembers p) 0).wr (.redPGroupGview p) 0
    else s.bindGroup p v
def execRedGroupWrite (pf : Bool) (p value : Nat) (s : State) : Host.Outcome State Fault Refusal :=
  if s.barShut pf then .next (s.barAnswer pf) else
  .next (s.groupWrite pf p value)

/-- RED_RESTART (R348, R286): the ring leaves STOPPED. -/
def State.redRestart (s : State) (pf : Bool) (p : Nat) : State :=
  if pf = false then s.count (Reg.hifCnt 0) 1 else if p < 16 then s.wr (.redPGroupStopped p) 0 else s
def execRedRestart (pf : Bool) (p : Nat) (s : State) : Host.Outcome State Fault Refusal :=
  if s.barShut pf then .next (s.barAnswer pf) else
  .next (s.redRestart pf p)

/-- RED_DOORBELL (R348, R285): TAIL of a partition's ring is written. -/
def State.redDoorbell (s : State) (pf : Bool) (p tail : Nat) : State :=
  let b := redRingBase p
  let head := s.rd (.dmaChDoorHead b)
  if pf = false then s.count (Reg.hifCnt 0) 1
  else if p ≥ 16 then s
  else if tailBad (s.rd (.dmaChDoorTail b)) (tail % 2 ^ 32) head (s.rd (.dmaChRingL b)) then
    s.raise .xfrRingOverrun unitLink p (payload [(16, 1, p), (20, 4, tail), (24, 4, head)])
  else s.wr (.dmaChDoorTail b) tail
def execRedDoorbell (pf : Bool) (p tail : Nat) (s : State) : Host.Outcome State Fault Refusal :=
  if s.barShut pf then .next (s.barAnswer pf) else
  .next (s.redDoorbell pf p tail)

/-- The state after a ring's entry has failed before its reduction started. -/
def State.redEntryFail (s : State) (p code : Nat) : State := s.modRedRing p (fun r => { r with failed := some code })

/-- The state after LNK_RED_INVALID for an entry, which fails with it (R348). -/
def State.redInvalid (s : State) (p i : Nat) : State :=
  (s.raise .lnkRedInvalid unitLink p (payload [(16, 1, p), (20, 4, i)])).redEntryFail p Code.lnkRedInvalid.val

/-- The state after a ring's entry has started its reduction, its wait over: the descriptors are read, then the source is read and
verified. -/
def State.redStart (s : State) (p w : Nat) : State :=
  let x := s.checkRange (.part p) (reSrc w) 64 false
  let y := s.checkRange (.part p) (reDst w) 64 false
  ifSome ((x.1.code.map (fun k => (k, x.2))).orElse (fun _ => y.1.code.map (fun k => (k, y.2))))
    (fun k => (s.refuseAccess k.1 sevFailed unitLink (.part p) k.2 false).redEntryFail p k.1.val) <|
  if s.redValid p w = false then s.redInvalid p (s.redRing p).index
  else
  match s.redSourceFault p (reSrc w) with
  | some x => x.1.redEntryFail p x.2
  | none =>
    let n := reCount w
    let s := s.modRedRing p (fun r => { r with started := true })
    s.startRed p 0 (if reCombine w = 0 then n else 0) (s.redWords w)

/-- The state after the engine has taken the next entry of a ring: it is read and checked, and its wait begins. -/
def State.redTake (s : State) (p : Nat) : State :=
  let b := redRingBase p
  let i := s.rd (.dmaChDoorHead b)
  let da := s.ringEntry b i
  let s := s.wr (.dmaChDoorHead b) ((i + 1) % 2 ^ 32)
  let w := s.memNat da 64
  let s := s.modRedRing p (fun _ => ⟨some w, i, false, none⟩)
  let r := s.checkRange (.part p) da 64 false
  match r.1.code with
  | some c => (s.refuseAccess c sevFailed unitLink (.part p) r.2 false).redEntryFail p c.val
  | none =>
    if reFieldsOk w = false ∨ (s.coresOf p).contains (reCore w) = false then s.redInvalid p i
    else if reWaitEn w then
      (s.setHeadWait (ringKey p) .waiting).waitFrom (.redRing p) p (reWaitObject w) (s.deadline (reTimeout w))
    else s

/-- RED_ENTRY (R348): an idle ring takes its next entry; one whose wait is over starts its reduction. -/
def execRedEntry (p : Nat) (s : State) : Host.Outcome State Fault Refusal :=
  if p ≥ 16 then .next s
  else
    let b := redRingBase p
    let s := if (s.redRing p).entry.isNone ∧ s.rdBit (.redPGroupStopped p) = false ∧
        s.rd (.dmaChDoorHead b) ≠ s.rd (.dmaChDoorTail b) then s.redTake p else s
    let r := s.redRing p
    match r.entry, s.headWait (ringKey p) with
    | none, _ => .next s
    | some _, .waiting => .next s
    | some _, .failed code => .next ((s.setHeadWait (ringKey p) .none).redEntryFail p code)
    | some w, _ =>
      let s := s.setHeadWait (ringKey p) .none
      .next (if r.started ∨ r.failed.isSome then s else s.redStart p w)

/-- The refusal of outlier extraction for the first `n` elements of a destination in row order (R114). -/
def State.redExtract (s : State) (c n : Nat) (d : Desc) : Option (Nat × Nat) :=
  let w := d.dimAt 0
  let full := if n / w = 0 then none else s.extractRefusal c d (s.outBinds c) 0 0 w
  full.orElse (fun _ => if n % w = 0 then none else s.extractRefusal c d (s.outBinds c) (n / w) 0 (n % w))

/-- The state after a result has been delivered through the store path of DST_CORE, and the status code. -/
def State.redDeliver (s : State) (p w : Nat) (r : Red) : State × Nat :=
  let d := s.desc (reDst w)
  let c := reCore w
  let sh := s.redShare w r.members.length (r.index s.chipId)
  let n := sh.2
  let blocks := (List.range (d.nblk + d.nsb)).findSome? (fun t =>
    let x := s.checkRange (.part p) (d.blockAddr t) 4096 true
    let y := s.checkRange (.part p) (d.trailerAddr t) 16 true
    (x.1.code.map (fun k => (k, x.2))).orElse (fun _ => y.1.code.map (fun k => (k, y.2))))
  if n = 0 then (s, 0)
  else
    match blocks with
    | some k => (s.refuseAccess k.1 sevFailed unitLink (.part p) k.2 true, k.1.val)
    | none =>
      if n > d.elements then
        (s.raise .lnkRedInvalid unitLink p (payload [(16, 1, p), (20, 4, (s.redRing p).index)]), Code.lnkRedInvalid.val)
      else ifSome (s.redExtract c n d) (fun f => (s.raiseExtract c d f, Code.numExtractInvalid.val)) <|
      let els := (List.range n).map (fun j => (j / d.dimAt 0, j % d.dimAt 0, zf32 (r.value.getD (sh.1 + j) 0)))
      let x := s.storePath c d (s.pmkStep c) (s.outBinds c) (s.staBinds c) els
      (x.1.count (Reg.redCnt 3) (4 * n), x.2)

/-- The state after a ring's entry has ended with a code (R285, R286): status word, then the signal, or STOPPED. -/
def State.redFinish (s : State) (p w i code : Nat) : State :=
  let b := redRingBase p
  let s := s.modRedRing p (fun _ => RedRing.reset)
  let sa := s.rd (.dmaChStatbaseStatusBase b) + 4 * (i % pow2 (s.rd (.dmaChRingL b)))
  let r := s.checkRange (.part p) sa 4 true
  let s := match r.1.code with
    | some c => s.refuseAccess c sevFailed unitLink (.part p) r.2 true
    | none => s.storeNat sa 4 (code + i % 65536 * 65536)
  if code = 0 then s.performSignal unitLink p i (reSignal w) else s.wr (.redPGroupStopped p) 1

/-- RED_ENTRY_DONE (R348): the reduction of a ring's entry has its result, which is delivered, or the entry has failed. -/
def execRedEntryDone (p : Nat) (s : State) : Host.Outcome State Fault Refusal :=
  let r := s.redRing p
  match r.entry with
  | none => .next s
  | some w =>
    match r.failed with
    | some code => .next (s.redFinish p w r.index code)
    | none =>
      if r.started = false then .next s
      else
        match s.red p 0 with
        | none => .next s
        | some x =>
          match x.outcome with
          | none => .next s
          | some 0 =>
            let y := (s.dropRed p 0).redDeliver p w x
            .next (y.1.redFinish p w r.index y.2)
          | some _ => .next ((s.dropRed p 0).redFinish p w r.index Code.lnkRedFail.val)

end Sys2Proof.Machine
end

