-- ==== Sys2Proof/Machine/Playmaker.lean ====
section
/-!
DEFINITION. The playmaker's own commands and events (chapter 8; PFENCE and STA_BIND of chapter 6, OUT_BIND of chapter 4):
segments, fetch, issue by the playmaker, step ends, branches, halting and retirement. LFENCE stands with the caddie.
-/
namespace Sys2Proof.Machine

/-! ## Bindings -/

/-- OUT_BIND (R113): the binding of a slot is set or cleared. -/
def State.outBindRun (s : State) (c : Nat) (i : Issued) : State × Nat :=
  let w := i.cmd
  if opsClean w [(32, 0, 3), (33, 0, 1), (36, 0, 32), (40, 0, 24)] then
    let v := opBits w 33 0 1
    let s := s.modCore c (fun k => { k with bindBad := k.bindBad.filter (fun n => !(decide (n = opBits w 32 0 3))) })
    (s.setReg (Reg.outBind c (opBits w 32 0 3))
      (BitVec.ofNat 64 (if v = 1 then opBits w 36 0 32 + opBits w 40 0 24 * 2 ^ 32 + 2 ^ 63 else 0)), 0)
  else (s.raiseCore .numOutInvalid c engOut (payload [(16, 1, 0x07)]), Code.numOutInvalid.val)

def execOutBind (core : Nat) (s : State) : Host.Outcome State Fault Refusal :=
  .next (s.pmkRow core 0x30 (fun s i => s.outBindRun core i))

/-- The register value of a statistics binding (STA_BIND_n), without PENDING. -/
def staBindValue (w : Nat) : Nat :=
  if opBits w 33 0 1 = 1 then opBits w 36 0 32 + opBits w 40 0 14 * 2 ^ 32 + 2 ^ 63 else 0

/-- The reason for which a STA_BIND fails (R142). -/
def State.staBindRefusal (s : State) (c w : Nat) : Option Nat :=
  let n := opBits w 32 0 4
  let old := (s.reg (Reg.staBind c n)).toNat
  let pending := s.rdBit (.staBindPending c n)
  firstFail [
    (pending && decide (putBits old 46 1 0 ≠ staBindValue w), 0x01),
    (decide (opBits w 40 0 14 ≥ s.rd (.pgvTensorTableNtensors (s.corePart c))), 0x02),
    (!(opsClean w [(32, 0, 4), (33, 0, 1), (36, 0, 32), (40, 0, 14)]), 0x03)]

/-- STA_BIND (R142). -/
def State.staBindRun (s : State) (c : Nat) (i : Issued) : State × Nat :=
  let w := i.cmd
  let n := opBits w 32 0 4
  match s.staBindRefusal c w with
  | some r => (s.raiseCore .numStaInvalid c engSta (payload [(16, 1, r), (17, 1, n)]), Code.numStaInvalid.val)
  | none => (s.setReg (Reg.staBind c n)
      (BitVec.ofNat 64 (staBindValue w + flag (s.rdBit (.staBindPending c n)) * 2 ^ 46)), 0)

def execStaBind (core : Nat) (s : State) : Host.Outcome State Fault Refusal :=
  .next (s.pmkRow core 0x38 (fun s i => s.staBindRun core i))

/-! ## Branches -/

/-- The state after a branch of the command at `index` by `offset` commands (R215): a refused one gives the status code
of HQ_CMD_INVALID with reason 0x06. An offset of 1 keeps the fetch buffer and is no branch. -/
def State.branch (s : State) (c : Nat) (i : Issued) (offset : Int) : State × Nat :=
  let k := s.core c
  let t := (i.index : Int) + offset
  if offset = 0 ∨ t < 0 ∨ t ≥ (k.segCount : Int) then
    (s.raiseCore .hqCmdInvalid c engPmk
      (payload [(16, 1, 0x06), (20, 4, i.index), (24, 2, i.stream), (26, 1, i.opcode)]), Code.hqCmdInvalid.val)
  else if offset = 1 then (s, 0)
  else ((s.modCore c (fun k => { k with buf := [], headIndex := t.toNat })).count (Reg.pmkCnt c 11) 1, 0)

/-- PMK_JUMP (R215). -/
def State.jumpRun (s : State) (c : Nat) (i : Issued) : State × Nat :=
  if opsClean i.cmd [(32, 0, 32)] then s.branch c i (signed 32 (opBits i.cmd 32 0 32))
  else (s.raiseCore .hqCmdInvalid c engPmk
    (payload [(16, 1, 0x03), (20, 4, i.index), (24, 2, i.stream), (26, 1, i.opcode)]), Code.hqCmdInvalid.val)

def execPmkJump (core : Nat) (s : State) : Host.Outcome State Fault Refusal :=
  .next (s.pmkRow core 0x05 (fun s i => s.jumpRun core i))

/-- PMK_NOP (R220): it carries waits and signals only. -/
def execPmkNop (core : Nat) (s : State) : Host.Outcome State Fault Refusal :=
  .next (s.pmkRow core 0x01 (fun s _ => (s, 0)))

/-! ## PFENCE -/

/-- The operand fields of PFENCE (Table 6-6). -/
def fenceGroup (w : Nat) : Nat := opBits w 32 0 12
def fenceRoles (w : Nat) : Nat := opBits w 34 0 3
def fenceSel (w : Nat) : Bool := bitAt w (8 * 35)
def fenceTable (w : Nat) : Nat := opBits w 36 0 24

/-- idx of R162: the rungs of the roles in the mask as digits of base 8, from a plan entry. -/
def fenceIndex (mask entry : Nat) : Nat :=
  ((List.range 3).filter (fun r => bitAt mask r)).foldr (fun r acc => bitsAt entry (3 * r) 3 + 8 * acc) 0

/-- The core-store offset of the plan entry of a group (R161). -/
def State.planOffset (s : State) (c g : Nat) : Nat := s.rd (.pgvPlanPlanOffset (s.corePart c)) + 2 * g

/-- The reason for which a PFENCE fails (R162). -/
def State.fenceRefusal (s : State) (c w : Nat) : Option Nat :=
  let p := s.corePart c
  let limit := if s.pgvEnabled p then s.rd (.pgvGroupTableNgroups p) else 4096
  let po := s.planOffset c (fenceGroup w)
  let idx := fenceIndex (fenceRoles w) (s.memNat (coreWindow c + po) 2)
  firstFail [
    (decide (fenceGroup w ≥ limit), 0x01),
    (fenceSel w && decide (fenceRoles w = 0), 0x02),
    (decide (po + 2 > storeSize ∨ fenceTable w % 4 ≠ 0 ∨ fenceTable w + 4 * idx + 4 > storeSize), 0x03),
    (!(opsClean w [(32, 0, 12), (34, 0, 3), (35, 0, 1), (36, 0, 24)]), 0x04)]

/-- The address of the entry of a PFENCE's variant table that its group's plan selects (R162). -/
def State.fenceEntry (s : State) (c w : Nat) : Nat :=
  coreWindow c + fenceTable w + 4 * fenceIndex (fenceRoles w) (s.memNat (coreWindow c + s.planOffset c (fenceGroup w)) 2)

/-- The fault of the two reads of a PFENCE with SEL: its plan, then the entry of its table. -/
def State.fenceFault (s : State) (c w : Nat) : Option LoadFault :=
  match s.readFault (coreWindow c + s.planOffset c (fenceGroup w)) 2 with
  | some f => some f
  | none => s.readFault (s.fenceEntry c w) 4

/-- PFENCE (R162), after its wait: the selection of a variant. -/
def State.fenceRun (s : State) (c : Nat) (i : Issued) : State × Nat :=
  let w := i.cmd
  match s.fenceRefusal c w with
  | some r => (s.raiseCore .numFenceInvalid c engPmk (payload [(16, 1, r)]), Code.numFenceInvalid.val)
  | none =>
    if fenceSel w then
      match s.fenceFault c w with
      | some f => s.raiseLoad c 0 f
      | none => s.branch c i (signed 32 (s.memNat (s.fenceEntry c w) 4))
    else (s, 0)

def execPfence (core : Nat) (s : State) : Host.Outcome State Fault Refusal :=
  .next (s.pmkRow core 0x02 (fun s i => s.fenceRun core i))

/-! ## Step ends -/

/-- STEP_END (R213): it issues at once and holds every later command. -/
def execStepEnd (core : Nat) (s : State) : Host.Outcome State Fault Refusal :=
  match (s.core core).head with
  | none => .next s
  | some w =>
    if s.mayIssue core 0x03 .pmk [] then
      let i := s.issued core w .pmk []
      .next (((s.issueHead core w .pmk []).began core i).afterIssue core)
    else .next s

/-- The state after the watch slots of partition `p` have been tested at the end of a step (R412): an armed slot whose
step every core of the job has ended becomes DONE. -/
def State.watchStepEnd (s : State) (p step : Nat) : State :=
  if (s.coresOf p).all (fun c => decide (step < s.pmkStep c)) then
    (List.range 8).foldl (fun s n =>
      if s.rd (.trcPWatchAState p n) = 1 ∧ s.rd (.trcPWatchBStep p n) = step then
        let cnt := Sparse.get (0, 0) s.watch (8 * p + n)
        (s.wr (.trcPWatchAState p n) 2).raise .dbgWatchDone unitReferee p
          (payload [(16, 1, p), (17, 1, n), (20, 4, cnt.1), (24, 4, cnt.2)])
      else s) s
  else s

/-- The state after STEP_END has retired on core `c` (R213): PMK_STEP rises, the next command meets the fence of R163, a
suspension of the job at this step halts the core (R321). -/
def State.stepEnded (s : State) (c : Nat) : State :=
  let step := s.pmkStep c
  let s := s.setReg (Reg.pmkStep c) (BitVec.ofNat 64 (step + 1))
  let s := s.modCore c (fun k => { k with needFence := true, endedStep := step % 2 ^ 32 })
  match (s.core c).part with
  | none => s
  | some p =>
    let s := s.watchStepEnd p step
    if s.haltAt.any (fun x => decide (x = (p, step % 2 ^ 32))) then s.haltCore c 1 else s

/-- STEP_END_RETIRE (R213): every command issued before the marker has retired. -/
def execStepEndRetire (core : Nat) (s : State) : Host.Outcome State Fault Refusal :=
  match (s.core core).inflight with
  | [i] => if i.opcode = 0x03 then .next ((s.retire core i 0).stepEnded core) else .next s
  | _ => .next s

/-! ## The end of a segment -/

/-- The state after PMK_END has issued (R198, R215): its segment will complete when its commands have retired, and the
next segment starts. -/
def State.endSegment (s : State) (c seg : Nat) : State :=
  (s.modCore c (fun k => { k with
    segOpen := k.segOpen.map (fun r => if r.no = seg then { r with endRetired := true } else r), seg := none,
    buf := [] })).nextSegment c

/-- PMK_END (R215). -/
def execPmkEnd (core : Nat) (s : State) : Host.Outcome State Fault Refusal :=
  match (s.core core).head with
  | none => .next s
  | some w =>
    if s.mayIssue core 0x06 .pmk [] then
      let i := s.issued core w .pmk []
      let s := ((s.issueHead core w .pmk []).began core i).retire core i 0
      .next (s.endSegment core i.seg)
    else .next s

/-! ## Refusal at the head -/

/-- INVALID_COMMAND (R199, R223): a head whose header is not valid faults the core, before a halt that waits for the
command boundary (R203: check 1 precedes check 2). -/
def execInvalidCommand (core : Nat) (s : State) : Host.Outcome State Fault Refusal :=
  let k := s.core core
  match k.head with
  | none => .next s
  | some w =>
    match headerReason w with
    | none => .next s
    | some r =>
      if k.pstate = 1 ∧ k.stopping = .no then
        .next ((s.traceFailed core Code.hqCmdInvalid.val k.headIndex (cmdOpcode w) w).refuseCommand core r k.headIndex (cmdOpcode w))
      else .next s

/-! ## Retirement -/

/-- The queue that an engine number names (Tables 1-5 and 8-7). -/
def queueOf (engine : Nat) : Option Queue :=
  if engine = 1 then some .arr else if engine = 2 then some .sbk else if engine = 3 then some .cnv
  else if engine = 4 then some .vec else if engine = 5 then some .out
  else if 9 ≤ engine ∧ engine ≤ 12 then some (.dma (engine - 9)) else none

/-- COMMAND_RETIRE (R206 to R208): the oldest command of an engine's queue, if it is executed. -/
def execCommandRetire (core engine : Nat) (s : State) : Host.Outcome State Fault Refusal :=
  match queueOf engine with
  | none => .next s
  | some q => .next (s.retireOldest core q)

/-! ## Segments -/

/-- The state after the dispatcher has moved record `r` into its core's segment queue; an IDLE core starts it (R196,
R198, R216). -/
def State.segmentArrive (s : State) (r : SegRec) : State :=
  let s := (s.setDispatch (s.dispatch.erase r))
  let s := s.modCore r.core (fun k => { k with segq := k.segq ++ [r] })
  let k := s.core r.core
  if k.pstate = 0 ∧ k.stopping = .no then s.nextSegment r.core else s

/-- SEGMENT_ARRIVE (R196, R314): the oldest record for the core that no sequence slot holds, if the queue has room. -/
def execSegmentArrive (core : Nat) (s : State) : Host.Outcome State Fault Refusal :=
  match s.dispatch.find? (fun r => decide (r.core = core) && !(s.seqHeld r)) with
  | none => .next s
  | some r => if (s.core core).segq.length < 16 then .next (s.segmentArrive r) else .next s

/-- The state after a fetch of core `c` has failed with a code on the command at `index` (R202). -/
def State.fetchFailed (s : State) (c code index : Nat) : State :=
  (s.traceFailed c code index 0 0).failCore c code index 0 (s.core c).stream

/-- FETCH_RESPONSE (R202): up to 16 commands enter the fetch buffer. `bad` is the place in the request of a command that
fails its parity check, if one does. A fetch that is answered with all ones (R28, R252) fails its parity check too; one that meets
a poisoned line faults the core (R248). -/
def execFetchResponse (core : Nat) (bad : Option Nat) (s : State) : Host.Outcome State Fault Refusal :=
  let k := s.core core
  match k.seg with
  | none => .next s
  | some r =>
    let i := k.headIndex + k.buf.length
    let n := min 16 (r.record.count - i)
    if k.pstate ≠ 1 ∨ k.stopping ≠ .no ∨ n = 0 ∨ k.buf.length + 16 > 256 then .next s
    else
      let a := r.record.base + 64 * i
      let w := Accessor.part (s.corePart core)
      let x := s.checkRange w a (64 * n) false
      match x.1.code with
      | some code =>
        .next (((s.refuseAccess code sevFailed (s.unitCore core engPmk) w x.2 false).raiseParity core engPmk sevFailed x.2 1).fetchFailed
          core Code.intParity.val ((x.2 - r.record.base) / 64))
      | none =>
        match (bad.bind (fun j => if j < n then some j else none)).orElse
            (fun _ => (List.range n).find? (fun j => anyMarked s.bad (a + 64 * j) 64)) with
        | some j => .next ((s.raiseParity core engPmk sevFailed (a + 64 * j) 1).fetchFailed core Code.intParity.val (i + j))
        | none =>
          if s.poisoned a (64 * n) then
            .next ((s.raiseAs .memUncorrectable sevFailed (s.unitCore core engPmk) (s.corePart core)
              (payload [(16, 8, a), (24, 1, tierNo a)])).fetchFailed core Code.memUncorrectable.val i)
          else
            let cmds := (List.range n).map (fun j => s.memNat (a + 64 * j) 64)
            let s := s.modCore core (fun k => { k with buf := k.buf ++ cmds })
            if k.buf.isEmpty then .next (s.atHead core) else .next s

/-- SEGMENT_COMPLETE (R198): the oldest open segment of the core, once its PMK_END and all its commands have retired: its
slot counts, and its completion, with the status code of its first failure, is posted if it asks for one. -/
def execSegmentComplete (core : Nat) (s : State) : Host.Outcome State Fault Refusal :=
  let k := s.core core
  match k.segOpen with
  | [] => .next s
  | r :: _ =>
    if r.endRetired && !(k.inflight.any (fun i => decide (i.seg = r.no))) && !(s.reportWaits core) then
      let s := if r.record.seqValid then s.seqUp r.record.seqSlot else s
      let x := r.record.completion r.status (s.rd (.hifSeqCount r.record.seqSlot)) (some core)
      if r.record.notify then .next (s.postCompletion x) else .next (s.segmentReported x)
    else .next s

/-! ## Halting -/

/-- PMK_HALT (R217): HALT is written 1. -/
def execPmkHalt (core : Nat) (s : State) : Host.Outcome State Fault Refusal :=
  if s.barShut false then .next (s.barAnswer false) else
  .next ((s.wr (.pmkCtrlHalt core) 1).haltCore core 1)

/-- The state after HALT of core `c` is 0 again (R217): a halted core goes on at its head; a halt not yet taken is
cancelled. -/
def State.resumeCore (s : State) (c : Nat) : State :=
  let s := s.wr (.pmkCtrlHalt c) 0
  let k := s.core c
  if k.pstate = 2 then
    let s := s.modCore c (fun k => { k with
      pstate := 1, haltCause := 0, haltReq := 0 })
    if k.seg.isNone then s.nextSegment c else s.atHead c
  else s.modCore c (fun k => { k with
    haltReq := 0
    stopping := (match k.stopping with
      | .failed => .failed
      | _ => .no) })

/-- PMK_RESUME (R217): HALT is written 0. -/
def execPmkResume (core : Nat) (s : State) : Host.Outcome State Fault Refusal :=
  if s.barShut false then .next (s.barAnswer false) else
  .next (s.resumeCore core)

/-- DRAIN_COMPLETE (R216): a stopping core with nothing in flight enters HALTED or FAULTED. -/
def execDrainComplete (core : Nat) (s : State) : Host.Outcome State Fault Refusal := .next (s.settle core)

end Sys2Proof.Machine
end

