-- ==== Sys2Proof/Machine/Trace.lean ====
section
/-!
DEFINITION. Trace (section 16.3): pools, buffers, the collector, triggers; the tensor watch's arming (section 16.4); the
Debug Module's interface (section 16.2).
-/
namespace Sys2Proof.Machine

/-! ## Buffers (R405 to R408) -/

/-- The key of partition `p`'s buffer on CD `d`, and what is held of it beside its registers. -/
def bufKey (p d : Nat) : Nat := 8 * p + d
def State.traceBuf (s : State) (p d : Nat) : TraceBuf := Sparse.get TraceBuf.reset s.traceBufs (bufKey p d)
def State.setTraceBuf (s : State) (p d : Nat) (x : TraceBuf) : State :=
  (s.setTraceBufs (Sparse.put TraceBuf.reset (bufKey p d) x s.traceBufs))

/-- The entries that the buffer of partition `p` on CD `d` holds: 32,768 for each MiB. -/
def State.bufSize (s : State) (p d : Nat) : Nat := 32768 * s.rd (.trcPBufMib p d)

/-- The CDs on which partition `p` has a buffer. -/
def State.bufDies (s : State) (p : Nat) : List Nat := (List.range 8).filter (fun d => decide (s.rd (.trcPBufMib p d) ≠ 0))

/-- Is an entry offered now lost: the buffer has stopped or frozen, or holds its last entry (Table 16-3)? -/
def State.bufDone (s : State) (p d : Nat) : Bool :=
  let st := s.rd (.trcPPosState p d)
  decide (st = 3 ∨ st = 4 ∨ (st = 1 ∧ s.rd (.trcPCtrlPolicy p) = 1 ∧ s.rd (.trcPPosWritten p d) ≥ s.bufSize p d) ∨
    (st = 2 ∧ (s.traceBuf p d).post = some 0))

/-- The state after an entry, a function of its SEQUENCE, has been offered to a buffer (R406, R408). -/
def State.bufferPut (s : State) (p d : Nat) (f : Nat → Nat) : State :=
  if s.rd (.trcPBufMib p d) = 0 ∨ s.rd (.trcPPosState p d) = 0 then s
  else
    let b := s.traceBuf p d
    let seq := (b.seq + 1) % 65536
    if s.bufDone p d then
      ((s.setTraceBuf p d { b with seq := seq }).wr (.trcPLostLost p d)
        (min (s.rd (.trcPLostLost p d) + 1) u32Max)).count (Reg.trcCnt 1) 1
    else
      let w := s.rd (.trcPPosWritten p d)
      let s := s.storeNat (s.rd (.trcPBufBase p d) + 32 * (w % s.bufSize p d)) 32 (f b.seq)
      let s := s.setTraceBuf p d ⟨seq, b.post.map (fun n => n - 1)⟩
      (s.wr (.trcPPosWritten p d) (w + 1)).count (Reg.trcCnt 0) 1

/-- The 32 bytes of a trace entry (Table 16-1). -/
def TraceEntry.bytes (x : TraceEntry) (seq : Nat) : Nat :=
  x.dtime + x.status * 2 ^ 64 + x.unit * 2 ^ 80 + x.part * 2 ^ 96 + x.kind * 2 ^ 104 + seq * 2 ^ 112 + x.index * 2 ^ 128 +
    x.opcode * 2 ^ 152 + x.stream * 2 ^ 160 + x.token * 2 ^ 176 + x.step * 2 ^ 192 + x.arg * 2 ^ 224

/-- The 32 bytes of an event record (Table 1-8). -/
def Event.bytes (e : Event) (seq : Nat) : Nat :=
  e.dtime + e.code * 2 ^ 64 + e.unit * 2 ^ 80 + e.part * 2 ^ 96 + e.sev * 2 ^ 104 + seq * 2 ^ 112 + e.payload * 2 ^ 128

/-! ## The collector (R407) -/

/-- The cores of CD `d` whose trace queues hold entries, the one whose turn it is first. -/
def State.traceCores (s : State) (d : Nat) : List Nat :=
  let l := (s.cores.filter (fun x => decide (x.1 / 32 = d) && !x.2.traceQ.isEmpty)).map (fun x => x.1)
  let t := Sparse.get 0 s.traceTurn d
  l.filter (fun c => decide (c ≥ t)) ++ l.filter (fun c => decide (c < t))

/-- The state after the collector of CD `d` has taken one entry from the queue of core `c`. -/
def State.collectFrom (s : State) (d c : Nat) : State :=
  match (s.core c).traceQ with
  | [] => s
  | x :: t =>
    let s := s.modCore c (fun k => { k with traceQ := t })
    (s.setTraceTurn (Sparse.put 0 d (c + 1) s.traceTurn)).bufferPut x.part d x.bytes

/-- The state after the collector of CD `d` has written one entry, if a queue holds one. -/
def State.traceCollect (s : State) (d : Nat) : State :=
  match s.traceCores d with
  | [] => s
  | c :: _ => s.collectFrom d c

/-- The state after `n` entries of CD `d` at most. -/
def State.collectMany (s : State) (d : Nat) : Nat → State
  | 0 => s
  | n + 1 => (s.traceCollect d).collectMany d n

/-- The state after at most `n` entries of core `c`'s queue have been taken. -/
def State.drainCore (s : State) (c : Nat) : Nat → State
  | 0 => s
  | n + 1 => (s.collectFrom (c / 32) c).drainCore c n

/-- The state after the queues of partition `p`'s cores have drained into its buffers (R408). -/
def State.drainTrace (s : State) (p : Nat) : State :=
  (s.coresOf p).foldl (fun (s : State) c => s.drainCore c (s.core c).traceQ.length) s

/-! ## Triggers (R409) -/

/-- The state after a trigger of partition `p`'s trace from a source of Table 16-2, with the code that caused it. -/
def State.traceTrigger (s : State) (p source code : Nat) : State :=
  if p ≥ 16 ∨ s.rdBit (.trcPCtrlEnable p) = false ∨ s.rdBit (.trcPTrigFired p) = true then s
  else
    let s := (s.wr (.trcPTrigFired p) 1).raise .dbgTraceTrigger unitReferee p
      (payload [(16, 1, p), (17, 1, source), (18, 2, code)])
    (s.bufDies p).foldl (fun s d =>
      let x : TraceEntry :=
        { dtime := s.dtime, status := code, unit := unitDie d 0, part := p, kind := 0x83, index := 0, opcode := 0, stream := 0,
          token := 0, step := 0, arg := source }
      let s := s.bufferPut p d x.bytes
      if s.rd (.trcPCtrlPolicy p) = 2 ∧ s.rd (.trcPPosState p d) = 1 then
        (s.wr (.trcPPosState p d) 2).setTraceBuf p d ⟨(s.traceBuf p d).seq, some (s.rd (.trcPCtrlPost p))⟩
      else s) s

/-- The state after an event has been tested as a trigger of its partition's trace (Table 16-2). -/
def State.eventTrigger (s : State) (e : Event) : State :=
  let p := e.part
  if p ≥ 16 then s
  else if s.rdBit (.trcPTrigOnBreak p) = true ∧ e.code = Code.dbgBreak.val then s.traceTrigger p 1 e.code
  else if s.rdBit (.trcPTrigOnCode p) = true ∧ e.code = s.rd (.trcPTrigTrigCode p) then s.traceTrigger p 2 e.code
  else if s.rd (.trcPTrigMinSev p) ≠ 0 ∧ e.sev ≥ s.rd (.trcPTrigMinSev p) then s.traceTrigger p 3 e.code
  else s

/-- The state after an event has been offered to its partition's trace under EVENTS (R407). -/
def State.eventTraced (s : State) (e : Event) : State :=
  let p := e.part
  if p ≥ 16 ∨ s.rdBit (.trcPCtrlEnable p) = false ∨ s.rdBit (.trcPCtrlEvents p) = false then s
  else
    let die := e.unit / 4096
    s.bufferPut p (if die < 8 then die else (s.bufDies p).headD 0) e.bytes

/-- TRACE_FORCE: FORCE is written 1. -/
def execTraceForce (p : Nat) (s : State) : Host.Outcome State Fault Refusal :=
  if s.barShut false then .next (s.barAnswer false) else
  .next (s.traceTrigger p 4 0)

/-! ## Enabling (R408) -/

/-- The state after DBG_INVALID with a reason. -/
def State.debugInvalid (s : State) (part reason : Nat) : State :=
  s.raise .dbgInvalid unitReferee part (payload [(16, 1, reason)])

/-- The fields of TRC_P_CTRL but ENABLE that a written value gives. -/
def ctrlFields (v : Nat) : Nat := bitsAt v 1 39

/-- The reason for which ENABLE 1 is refused. -/
def State.traceRefusal (s : State) (p v : Nat) : Option Nat :=
  let st := s.rd (.hifPartStatusState p)
  if st ≠ 2 ∧ st ≠ 3 ∧ st ≠ 4 then some 2
  else if bitsAt v 1 2 = 3 ∨ (bitsAt v 1 2 = 2 ∧ (s.bufDies p).any (fun d => decide (bitsAt v 17 23 ≥ s.bufSize p d)) = true) then
    some 3
  else none

/-- The value that a write leaves in TRC_P_CTRL's other fields: while ENABLE is 1 they keep theirs, and a write that would
change them is counted (R408). -/
def State.traceFields (s : State) (p v : Nat) : State × Nat :=
  let old := (s.reg (Reg.trcPCtrl p)).toNat
  if bitAt old 0 then (if ctrlFields v = ctrlFields old then (s, old) else (s.count (Reg.trcCnt 2) 1, old)) else (s, v)

/-- The state with every buffer of partition `p` started. -/
def State.startBuffers (s : State) (p : Nat) : State :=
  (s.bufDies p).foldl (fun s d =>
    ((s.setReg (Reg.trcPPos p d) (BitVec.ofNat 64 (2 ^ 60))).wr (.trcPLostLost p d) 0).setTraceBuf p d TraceBuf.reset) s

/-- TRACE_ENABLE: TRC_P_CTRL of partition `p` is written with ENABLE 1. -/
def execTraceEnable (p value : Nat) (s : State) : Host.Outcome State Fault Refusal :=
  if s.barShut false then .next (s.barAnswer false) else
  if p ≥ 16 then .next s
  else
    let r := s.traceFields p value
    match s.traceRefusal p r.2 with
    | some reason => .next (r.1.debugInvalid p reason)
    | none =>
      let s := r.1.setReg (Reg.trcPCtrl p) (BitVec.ofNat 64 (1 + 2 * ctrlFields r.2))
      .next ((s.wr (.trcPTrigFired p) 0).startBuffers p)

/-- TRACE_DISABLE: TRC_P_CTRL of partition `p` is written with ENABLE 0. -/
def execTraceDisable (p value : Nat) (s : State) : Host.Outcome State Fault Refusal :=
  if s.barShut false then .next (s.barAnswer false) else
  if p ≥ 16 then .next s
  else
    let r := s.traceFields p value
    let s := (r.1.drainTrace p).setReg (Reg.trcPCtrl p) (BitVec.ofNat 64 (2 * ctrlFields r.2))
    .next ((s.bufDies p).foldl (fun s d => s.wr (.trcPPosState p d) 0) s)

/-- TRACE_BUFFER_FULL: the buffer of partition `p` on CD `d` holds its last entry: it stops or freezes (Table 16-3). -/
def execTraceBufferFull (p d : Nat) (s : State) : Host.Outcome State Fault Refusal :=
  let st := s.rd (.trcPPosState p d)
  if p ≥ 16 ∨ d ≥ 8 ∨ (st ≠ 1 ∧ st ≠ 2) ∨ s.bufDone p d = false then .next s
  else
    .next ((s.wr (.trcPPosState p d) (if st = 1 then 4 else 3)).raise .dbgTraceStopped unitReferee p
      (payload [(16, 1, p), (17, 1, d), (18, 1, s.rd (.trcPCtrlPolicy p)), (20, 8, s.rd (.trcPPosWritten p d))]))

/-! ## Pools (R405) -/

/-- Are buffers allocated in the pool of CD `d`? -/
def State.poolInUse (s : State) (d : Nat) : Bool := (List.range 16).any (fun p => decide (s.rd (.trcPBufMib p d) ≠ 0))

/-- The reason for which a pool may not be enabled: its place (5 alignment, 1 not within one usable granule of the CD), or a
region that holds the granule. -/
def State.poolRefusal (s : State) (d base size : Nat) : Option Nat :=
  let g := base / gib1
  if base % 0x100000 ≠ 0 then some 5
  else if size > 1024 ∨ base % gib1 + size * 0x100000 > gib1 ∨ areaOf base ≠ .tier1 ∨ base / 0x2000000000 ≠ d ∨
      s.usable (g * gib1) = false ∨ s.usable (g * gib1 + gib1 - 1) = false ∨ (s.regionOf 0 g).isSome = true then some 1
  else none

/-- TRACE_POOL_WRITE: TRC_POOL of CD `d` is written. -/
def execTracePoolWrite (d value : Nat) (s : State) : Host.Outcome State Fault Refusal :=
  if s.barShut false then .next (s.barAnswer false) else
  let v := value % 2 ^ 60
  if d ≥ 8 then .next s
  else if s.poolInUse d then .next (s.count (Reg.trcCnt 2) 1)
  else if bitAt v 59 then
    match s.poolRefusal d (bitsAt v 0 48) (bitsAt v 48 11) with
    | some r => .next (s.debugInvalid noPart r)
    | none => .next (s.setReg (Reg.trcPool d) (BitVec.ofNat 64 v))
  else .next (s.setReg (Reg.trcPool d) (BitVec.ofNat 64 v))

/-- The buffers in the pool of CD `d`: (base, end). -/
def State.poolRuns (s : State) (d : Nat) : List (Nat × Nat) :=
  (List.range 16).filterMap (fun p =>
    let m := s.rd (.trcPBufMib p d)
    if m = 0 then none else some (s.rd (.trcPBufBase p d), s.rd (.trcPBufBase p d) + m * 0x100000))

/-- The base of the lowest free run of `m` MiB in the pool of CD `d` (R405), if there is one. -/
def State.poolFree (s : State) (d m : Nat) : Option Nat :=
  if s.rdBit (.trcPoolEnable d) = false ∨ m > s.rd (.trcPoolSize d) then none
  else
    let base := s.rd (.trcPoolBase d)
    ((List.range (s.rd (.trcPoolSize d) - m + 1)).map (fun i => base + i * 0x100000)).find? (fun a =>
      (s.poolRuns d).all (fun x => decide (a + m * 0x100000 ≤ x.1 ∨ x.2 ≤ a)))

/-! ## The tensor watch (R411) -/

/-- The reason for which a watch slot is not armed. -/
def State.watchRefusal (s : State) (p n : Nat) : Option Nat :=
  if (s.job p).loaded = false then some 2
  else if (s.coresOf p).any (fun c => decide (s.pmkStep c > s.rd (.trcPWatchBStep p n))) then some 4
  else if s.rd (.trcPWatchCDest p n) % 4096 ≠ 0 ∨ s.rd (.trcPWatchDDestTrailer p n) % 16 ≠ 0 then some 5
  else none

/-- WATCH_ARM: the first word of watch slot `n` of partition `p` is written with ENABLE 1. -/
def execWatchArm (p n value : Nat) (s : State) : Host.Outcome State Fault Refusal :=
  if s.barShut false then .next (s.barAnswer false) else
  if p ≥ 16 ∨ n ≥ 8 ∨ s.rd (.trcPWatchAState p n) = 1 then .next s
  else
    match s.watchRefusal p n with
    | some r => .next (s.debugInvalid p r)
    | none =>
      let s := (s.setWatch (Sparse.put (0, 0) (8 * p + n) (0, 0) s.watch))
      .next (s.setReg (Reg.trcPWatchA p n)
        (BitVec.ofNat 64 (bitsAt value 0 32 + 2 ^ 32 + 2 ^ 33 + bitsAt value 40 24 * 2 ^ 40)))

/-! ## The Debug Module Interface (R403, R404) -/

/-- The bytes of a system-bus access: 1, 2, 4 or 8. -/
def DebugModule.size (m : DebugModule) : Nat := pow2 m.access

/-- The state after the address has been advanced by an access with sbautoincrement. -/
def State.dmNext (s : State) : State :=
  if s.dm.autoInc then (s.setDm ({ s.dm with addr := (s.dm.addr + s.dm.size) % 2 ^ 64 })) else s

/-- The state with a system-bus error (sberror). -/
def State.dmError (s : State) (e : Nat) : State := (s.setDm ({ s.dm with error := e }))

/-- The error of a system-bus access before R252: an unsupported size (4), alignment (3), register space (2). -/
def State.dmBad (s : State) : Option Nat :=
  if s.dm.access > 3 then some 4
  else if s.dm.addr % s.dm.size ≠ 0 then some 3
  else match areaOf s.dm.addr with
    | .register _ => some 2
    | _ => none

/-- The state after a system-bus access (R404): a read into the data, or a write of it. A pending error holds further ones. -/
def State.dmAccess (s : State) (write : Bool) : State :=
  if s.dm.error ≠ 0 then s
  else
    match s.dmBad with
    | some e => s.dmError e
    | none =>
      let a := s.dm.addr
      let w := Accessor.part (s.rd .trcDmiSbaPartition)
      let r := s.checkRange w a s.dm.size write
      match r.1.code with
      | some code => (s.refuseAccess code sevNotice unitReferee w r.2 write).dmError 2
      | none =>
        if write then (s.storeNat a s.dm.size s.dm.data).dmNext
        else if s.poisoned a s.dm.size then s.dmError 7
        else (s.setDm ({ s.dm with data := s.memNat a s.dm.size })).dmNext

/-- The value that sbcs reads as (PRESUMED, RISC-V Debug 1.0): version 1, 48 address bits, sizes 8 to 64. -/
def DebugModule.sbcs (m : DebugModule) : Nat :=
  2 ^ 29 + flag m.readOnAddr * 2 ^ 20 + m.access * 2 ^ 17 + flag m.autoInc * 2 ^ 16 + flag m.readOnData * 2 ^ 15 +
    m.error * 2 ^ 12 + 48 * 2 ^ 5 + 0xF

/-- The state after a reset of service-core hart `h`: its address translation is off (R23), its objects become ORPHANED (R232), and the channels of its identity meet R377. -/
def State.resetHart (s : State) (h : Nat) : State :=
  let s := (s.orphanOwned (256 + h)).setHartCsr (s.hartCsr.filter (fun x => !(decide (x.1 / 4096 = h))))
  if s.hartIdentity h = 0 then s else s.mbxReset (s.hartIdentity h)

/-- The harts that dmcontrol selects: hartsel, and with hasel those of the hart array mask. -/
def DebugModule.selected (m : DebugModule) (v : Nat) : List Nat :=
  (List.range 32).filter (fun h => decide (h = bitsAt v 16 10 + bitsAt v 6 10 * 1024) || (bitAt v 26 && bitAt m.mask h))

/-- A set of harts with the harts of a list added, or taken out. -/
def addHarts (l hs : List Nat) : List Nat := l ++ hs.filter (fun h => !(l.contains h))
def dropHarts (l hs : List Nat) : List Nat := l.filter (fun h => !(hs.contains h))

/-- The harts that halt with those of a list: the members of their halt groups 1 and 2 (R403). -/
def DebugModule.withGroups (m : DebugModule) (hs : List Nat) : List Nat :=
  let g (h : Nat) : Nat := Sparse.get 0 m.groups h
  (List.range 32).filter (fun h => hs.contains h || (decide (g h ≠ 0) && hs.any (fun x => decide (g x = g h))))

/-- The state after a write of dmcontrol with dmactive 1: hartreset, then haltreq or resumereq, for the harts that it selects; a hart
with resethaltreq halts as it leaves its reset. -/
def State.dmControl (s : State) (v : Nat) : State :=
  let sel := s.dm.selected v
  let s := if bitAt v 29 then sel.foldl (fun (s : State) h => s.resetHart h) s else s
  let m := { s.dm with active := true, ctl := v % 2 ^ 26 / 2 ^ 6 * 2 ^ 6 + flag (bitAt v 26) * 2 ^ 26 }
  let m := if bitAt v 29 then { m with
      halted := addHarts (dropHarts m.halted sel) (sel.filter (fun h => m.resetHalt.contains h)),
      wasReset := addHarts m.wasReset sel } else m
  let m := if bitAt v 28 then { m with wasReset := dropHarts m.wasReset sel } else m
  let m := if bitAt v 2 then { m with resetHalt := dropHarts m.resetHalt sel }
    else if bitAt v 3 then { m with resetHalt := addHarts m.resetHalt sel } else m
  let m := if bitAt v 31 then { m with halted := addHarts m.halted (m.withGroups sel) }
    else if bitAt v 30 then { m with halted := dropHarts m.halted sel, resumed := addHarts m.resumed sel } else m
  s.setDm m

/-- dmstatus: version 3, authenticated, impebreak, hasresethaltreq, and what the selected harts do (PRESUMED, RISC-V Debug 1.0). -/
def DebugModule.status (m : DebugModule) : Nat :=
  let sel := m.selected m.ctl
  let two (lo : Nat) (f : Nat → Bool) : Nat := (flag (sel.any f) + 2 * flag (sel.all f)) * 2 ^ lo
  3 + 2 ^ 5 + 2 ^ 7 + 2 ^ 22 + two 8 m.halted.contains + two 10 (fun h => !(m.halted.contains h)) + two 16 m.resumed.contains +
    two 18 m.wasReset.contains

/-- The module after an abstract command (R403): Access Register of 32 or 64 bits on a halted hart; the hart's result is an operand,
as a cmderr with a read's value. Any other command is cmderr 2; one on a hart that runs is cmderr 4. -/
def DebugModule.command (m : DebugModule) (v result value : Nat) : DebugModule :=
  if m.cmderr ≠ 0 then m
  else if bitsAt v 24 8 ≠ 0 ∨ (bitAt v 17 = true ∧ bitsAt v 20 3 ≠ 2 ∧ bitsAt v 20 3 ≠ 3) then { m with cmderr := 2 }
  else if m.halted.contains (bitsAt m.ctl 16 10 + bitsAt m.ctl 6 10 * 1024) = false then { m with cmderr := 4 }
  else if result % 8 ≠ 0 then { m with cmderr := result % 8 }
  else if bitAt v 17 && !(bitAt v 16) then { m with args := value % 2 ^ (if bitsAt v 20 3 = 3 then 64 else 32) }
  else m

/-- What a write of a register other than dmcontrol leaves in an active Debug Module, before the bus access that it may start. -/
def DebugModule.write (m : DebugModule) (addr v result value : Nat) : DebugModule :=
  if addr = 0x04 then { m with args := putBits m.args 0 32 v }
  else if addr = 0x05 then { m with args := putBits m.args 32 32 v }
  else if addr = 0x15 then { m with mask := v % 2 ^ 32 }
  else if addr = 0x16 then { m with cmderr := m.cmderr - (m.cmderr &&& bitsAt v 8 3) }
  else if addr = 0x17 then m.command v result value
  else if 0x20 ≤ addr ∧ addr < 0x28 then { m with progbuf := Sparse.put 0 (addr - 0x20) (v % 2 ^ 32) m.progbuf }
  else if addr = 0x32 then
    (if bitAt v 1 = true ∧ bitAt v 0 = false ∧ bitAt v 11 = false ∧ bitsAt v 2 5 ≤ 2 then
      { m with groups := (m.selected m.ctl).foldl (fun g h => Sparse.put 0 h (bitsAt v 2 5) g) m.groups }
    else m)
  else if addr = 0x38 then
    { m with
      readOnAddr := bitAt v 20
      access := bitsAt v 17 3
      autoInc := bitAt v 16
      readOnData := bitAt v 15
      error := m.error - (m.error &&& bitsAt v 12 3) }
  else if addr = 0x39 then { m with addr := putBits m.addr 0 32 v }
  else if addr = 0x3A then { m with addr := putBits m.addr 32 32 v }
  else if addr = 0x3C then { m with data := putBits m.data 0 32 v }
  else if addr = 0x3D then { m with data := putBits m.data 32 32 v }
  else m

/-- The state after a DMI write of a register that the model holds. -/
def State.dmiWrite (s : State) (addr v result value : Nat) : State :=
  if addr = 0x10 then (if bitAt v 0 then s.dmControl v else s.setDm DebugModule.reset)
  else if s.dm.active = false then s
  else
    let t := s.setDm (s.dm.write addr v result value)
    if addr = 0x39 then (if s.dm.readOnAddr then t.dmAccess false else t)
    else if addr = 0x3C then t.dmAccess true
    else t

/-- What a Debug Module register reads as (R412). -/
def DebugModule.value (m : DebugModule) (addr : Nat) : Nat :=
  if addr = 0x04 then bitsAt m.args 0 32
  else if addr = 0x05 then bitsAt m.args 32 32
  else if addr = 0x10 then m.ctl + flag m.active
  else if addr = 0x11 then m.status
  else if addr = 0x15 then m.mask
  else if addr = 0x16 then 2 + m.cmderr * 2 ^ 8 + 8 * 2 ^ 24
  else if addr = 0x17 then 0
  else if 0x20 ≤ addr ∧ addr < 0x28 then Sparse.get 0 m.progbuf (addr - 0x20)
  else if addr = 0x32 then Sparse.get 0 m.groups ((m.selected m.ctl).headD 0) * 4
  else if addr = 0x38 then m.sbcs
  else if addr = 0x39 then bitsAt m.addr 0 32
  else if addr = 0x3A then bitsAt m.addr 32 32
  else if addr = 0x3C then bitsAt m.data 0 32
  else if addr = 0x3D then bitsAt m.data 32 32
  else m.halted.foldl (fun n h => n + pow2 h) 0

/-- The value of a DMI read of a register that the model holds, with the state after it. -/
def State.dmiRead (s : State) (addr : Nat) : State × Nat :=
  (if addr = 0x3C ∧ s.dm.readOnData = true then s.dmAccess false else s, s.dm.value addr)

/-- Is the DMI address one that the model holds: data0 and data1, dmcontrol, dmstatus, hawindow, abstractcs, command, the program
buffer, dmcs2, the system-bus registers, haltsum0? -/
def dmiHeld (addr : Nat) : Bool :=
  [0x04, 0x05, 0x10, 0x11, 0x15, 0x16, 0x17, 0x32, 0x38, 0x39, 0x3A, 0x3C, 0x3D, 0x40].contains addr ||
    decide (0x20 ≤ addr ∧ addr < 0x28)

/-- DMI_OPERATION: TRC_DMI is written with GO. What a hart answers to an abstract command is in the operands, its cmderr `op`
and a read's `data`; so are the OP and the data of a Debug Module register that the model does not hold. -/
def execDmiOperation (pf : Bool) (value op data : Nat) (s : State) : Host.Outcome State Fault Refusal :=
  if s.barShut pf then .next (s.barAnswer pf) else
  if pf = false then .next (s.count (Reg.hifCnt 0) 1)
  else
    let addr := bitsAt value 0 7
    let write := bitAt value 7
    let s := s.setReg Reg.trcDmi (BitVec.ofNat 64 (bitsAt value 0 8 + bitsAt value 11 4 * 2 ^ 11 + bitsAt value 32 32 * 2 ^ 32))
    if bitAt (s.rd .refFwDbgOff) 1 then .next (s.wr .trcDmiOp 2)
    else if write && dmiHeld addr then .next (s.dmiWrite addr (bitsAt value 32 32) op data)
    else if write = false ∧ dmiHeld addr = true then
      let r := s.dmiRead addr
      .next (r.1.wr .trcDmiData r.2)
    else
      let s := s.wr .trcDmiOp (op % 4)
      .next (if write then s else s.wr .trcDmiData data)

end Sys2Proof.Machine
end

