-- ==== Sys2Proof/Machine/RegWrite.lean ====
section
/-!
DEFINITION. Writing register space: what each field takes by its access code (Table 0-3a), the registers whose write acts,
block by block, and which master may write which register (R428 and the notes of the register chapters).
-/
namespace Sys2Proof.Machine

/-- The state that an outcome goes on with: every meaning goes on (R5). -/
def State.after (s : State) : Host.Outcome State Fault Refusal → State
  | .next t => t
  | _ => s

/-! ## A write -/

/-- A write that reached its register: its master, the register's offset, the lowest bit and the number of bits that it covers,
and the value in its place in the register. -/
structure Wr where
  m : Master
  a : Nat
  lo : Nat
  w : Nat
  v : Nat
  deriving DecidableEq, Repr

/-- The write of `n` bytes at `a`. -/
def Wr.of (m : Master) (a n value : Nat) : Wr := ⟨m, a / 8 * 8, 8 * (a % 8), 8 * n, value % 256 ^ n * 2 ^ (8 * (a % 8))⟩

/-- Does the write cover a bit; does it write a 1 there; the bits it writes (0 where it covers none). -/
def Wr.covers (x : Wr) (b : Nat) : Bool := decide (x.lo ≤ b ∧ b < x.lo + x.w)
def Wr.one (x : Wr) (b : Nat) : Bool := bitAt x.v b
def Wr.bits (x : Wr) (lo w : Nat) : Nat := bitsAt x.v lo w

/-- The register's value with the covered bits replaced. -/
def Wr.merged (x : Wr) (old : Word) : Nat := (old.setField x.lo x.w (bitsAt x.v x.lo x.w)).toNat

/-- The write with bit `b` zero. -/
def Wr.without (x : Wr) (b : Nat) : Wr := { x with v := if bitAt x.v b then x.v - 2 ^ b else x.v }

/-- What one field holds after a write, by its access code: `lock` is the LOCK of RWL fields. -/
def FieldRow.write (f : FieldRow) (lock : Bool) (x : Wr) (old : Word) : Word :=
  let was := old.field f.lo f.w
  let new := bitsAt (x.merged old) f.lo f.w
  let ones := bitsAt x.v f.lo f.w
  match f.acc with
  | .rw => old.setField f.lo f.w new
  | .rwl => if lock then old else old.setField f.lo f.w new
  | .w1s => old.setField f.lo f.w (was ||| ones)
  | .w1c => old.setField f.lo f.w (was - (was &&& ones))
  | _ => old

/-- The row of a register's offset. -/
def regRowAt (a : Nat) : Option RegRow := regRows.find? (fun r => decide (r.base ≤ a) && inDims r.dims (a - r.base))

/-- Is the LOCK of the row's RWL fields 1? -/
def State.rowLocked (s : State) (r : RegRow) (a : Nat) : Bool :=
  match r.lock with
  | none => false
  | some (al, off, b) => decide ((s.reg (a / al * al + off)).field b 1 = 1)

/-- The state after a write has taken effect field by field (Table 0-3a). Space that holds no register keeps nothing (R8). -/
def State.plainWrite (s : State) (x : Wr) : State :=
  match regRowAt x.a with
  | none => s
  | some r =>
    let lock := s.rowLocked r x.a
    s.setReg x.a (r.fields.foldl (fun w f => f.write lock x w) (s.reg x.a))

/-- The index of an offset in an array of `n` registers `st` apart from `base` on. -/
def arrayIndex (base st n a : Nat) : Option Nat :=
  if base ≤ a ∧ (a - base) % st = 0 ∧ (a - base) / st < n then some ((a - base) / st) else none

/-! ## The chip blocks -/

/-- PGV and OPT: ENABLE validates; REQ_STEP is a request (R150, R187). -/
def State.writeContext (s : State) (x : Wr) : State :=
  match arrayIndex 0x10000 0x1000 16 x.a, arrayIndex 0x110000 0x1000 16 x.a, arrayIndex 0x110028 0x1000 16 x.a with
  | some p, _, _ =>
    let s := s.plainWrite (x.without 0)
    if x.one 0 && !(s.rdBit (.pgvCtxCtrlEnable p)) then s.after (execPgvEnable p s) else s
  | _, some p, _ =>
    let s := s.plainWrite (x.without 0)
    if x.one 0 && !(s.rdBit (.optCtxCtrlEnable p)) then s.after (execOptEnable p s) else s
  | _, _, some p =>
    let old := s.rd (.optCkptCtrlReqStep p)
    let s := (s.plainWrite x).wr (.optCkptCtrlReqStep p) old
    if x.covers 32 then s.after (execCkptRequest p (x.bits 32 32) s) else s
  | _, _, _ => s.plainWrite x

/-- SYN: the manual operations and the harts' operations (R237 to R239). -/
def State.writeSyn (s : State) (x : Wr) : State :=
  if x.a = Reg.synManOp then (if x.covers 16 then s.manual true (x.bits 16 3) (x.bits 0 16) else s)
  else
    match arrayIndex (Reg.synHartOp 0) 0x100 32 x.a with
    | some h =>
      if x.covers 0 && x.covers 32 then
        match x.bits 32 3 with
        | 1 => s.hartWait h (x.bits 0 16) (x.bits 35 4) (x.bits 48 16)
        | 2 => s.hartSignal h (x.bits 16 16) (x.bits 0 16) 1
        | 3 => s.hartSignal h (x.bits 16 16) (x.bits 0 16) 2
        | 4 => s.hartCancel h (x.bits 48 16)
        | _ => s.hartReject h
      else s.hartReject h
    | none =>
      match arrayIndex (Reg.synHartRing 0) 0x100 32 x.a with
      | some h =>
        let s := s.plainWrite x
        if x.covers 48 then s.setHartFull (s.hartFull.filter (fun y => !(decide (y = h)))) else s
      | none => s.plainWrite x

/-- MEM: region operations and the quotas' LOCK (R253, R254). -/
def State.writeMem (s : State) (x : Wr) : State :=
  if x.a = Reg.memRegionOp then (if x.covers 8 then s.regionOp true (x.bits 8 3) (x.bits 0 8) else s)
  else
    match arrayIndex (Reg.memQuota 0) 8 16 x.a with
    | some p =>
      let s := s.plainWrite (x.without 63)
      if x.one 63 then s.after (execQuotaLock p s) else s
    | none => s.plainWrite x

/-- CTRL of a channel: PAUSE, ABORT, RESTART; PARTITION of a chip channel is the physical function's (R279, R280, R284). -/
def State.writeChanCtrl (s : State) (x : Wr) (key : Nat) : State :=
  let old := s.rd (.dmaChCtrlPartition x.a)
  let lock := s.rdBit (.dmaChCtrlLock x.a)
  let pause := s.rd (.dmaChCtrlPause x.a)
  let s := (s.plainWrite x).wr (.dmaChCtrlPause x.a) pause
  let s := if key < 1024 then (s.wr (.dmaChCtrlPartition x.a) old).wr (.dmaChCtrlLock x.a) (flag lock)
    else if x.m ≠ .pf ∧ s.rd (.dmaChCtrlPartition x.a) ≠ old then
      (s.wr (.dmaChCtrlPartition x.a) old).count (Reg.hifCnt 0) 1
    else s
  let s := if x.covers 0 then (if x.one 0 then s.pauseChan key else s.resumeChan key) else s
  let s := if x.one 1 then s.after (execDmaAbort key s) else s
  if x.one 2 then s.after (execDmaRestart key s) else s

/-- A chip channel's registers. -/
def State.writeChip (s : State) (x : Wr) : State :=
  match arrayIndex 0x301000 0x100 64 x.a, arrayIndex 0x301040 0x100 64 x.a with
  | some n, _ => s.writeChanCtrl x (chipKey n)
  | _, some n => if x.covers 0 then s.chipTailWrite n (x.bits 0 32) else s
  | _, _ => s.plainWrite x

/-- CAD: a feed's ENABLE, the driver's answers to a recovery (R287, R293). -/
def State.writeCad (s : State) (x : Wr) : State :=
  match arrayIndex (Reg.cadFeedCtrl 0) 0x40 64 x.a, arrayIndex (Reg.cadPSupply 0) 0x20 16 x.a with
  | some f, _ =>
    let s := s.plainWrite (x.without 0)
    if x.one 0 then s.after (execCadFeedEnable f s) else s
  | _, some p =>
    let s := s.plainWrite x
    let s := if x.one 48 then s.after (execCadSupplyGo p s) else s
    if x.one 49 then s.after (execCadSupplyDecline p s) else s
  | _, _ => s.plainWrite x

/-- The event registers of a context (R313, R315). -/
def State.writeEvents (s : State) (x : Wr) (p : Nat) : State :=
  if x.a = Reg.hifPartEvring p then s.after (execEventRingWrite true p (x.merged (s.reg x.a)) s)
  else if x.a = Reg.hifPartEvctrl p then
    (if bitsAt (x.merged (s.reg x.a)) 0 11 ≥ (if p = 16 then 1024 else 64) then s.count (Reg.hifCnt 0) 1 else s.plainWrite x)
  else if x.a = Reg.hifPartEvpos p then (if x.covers 32 then s.eventHeadWrite p (x.bits 32 32) else s)
  else s.plainWrite x

/-- HIF: queue operations, window entries, event rings, the doorbell aliases (R303 to R315). -/
def State.writeHif (s : State) (x : Wr) : State :=
  if x.a = Reg.hifQOp then (if x.covers 16 then s.qOp true (x.bits 16 3) (x.bits 0 15) (x.one 15) else s)
  else if 0x702000 ≤ x.a ∧ x.a < 0x703100 then s.writeEvents x ((x.a - 0x702000) / 0x100)
  else
    match arrayIndex (Reg.hifWin 0) 8 128 x.a, arrayIndex (Reg.hifDoor 0) 8 32768 x.a, arrayIndex (Reg.hifShead 0) 8 8192 x.a with
    | some e, _, _ => if x.covers 0 then s.after (execWindowEntryWrite true e (x.merged (s.reg x.a)) s) else s
    | _, some q, _ => if x.covers 0 then s.queueTailWrite q (x.bits 0 32) else s
    | _, _, some n => if x.covers 0 then s.streamHeadWrite n (x.bits 0 32) else s
    | _, _, _ => s.plainWrite x

/-- LNK: identity, role, groups, time, ports, Ethernet rings, routes (chapter 13). -/
def State.writeLnk (s : State) (x : Wr) : State :=
  let v := x.merged (s.reg x.a)
  if x.a = Reg.lnkIdent then
    let s := s.plainWrite (x.without 63)
    if x.one 63 then s.after (execLnkIdentLock true s) else s
  else if x.a = Reg.lnkRole then (if bitsAt v 0 2 = 3 ∨ bitsAt v 3 2 ≥ 2 then s else s.plainWrite x)
  else if x.a = Reg.lnkGroups then (if bitsAt v 48 9 > 256 then s.count (Reg.lnkCnt 0) 1 else s.plainWrite x)
  else if x.a = Reg.lnkTimeAdj then s.after (execTimeAdjWrite true x.v s)
  else
    match arrayIndex (Reg.lnkPortCtrl 0) 0x40 18 x.a, arrayIndex (Reg.lnkRoute 0) 8 65536 x.a with
    | some n, _ => if x.covers 0 then s.portCtrlWrite true n v else s
    | _, some n => (s.plainWrite x).wr ⟨Reg.lnkRoute n, 62, 1⟩ 0
    | _, _ =>
      if 0x820000 ≤ x.a ∧ x.a < 0x824800 ∧ (x.a - 0x820000) % 0x400 < 0x200 ∧ x.a % 0x20 = 8 then
        (if x.covers 0 then s.ethTail true ((x.a - 0x820000) / 0x400) ((x.a - 0x820000) % 0x400 / 0x20) (x.bits 0 32) else s)
      else s.plainWrite x

/-- RED: a partition's group, its restart and its doorbell (R343, R348). -/
def State.writeRed (s : State) (x : Wr) : State :=
  match arrayIndex (Reg.redPGroup 0) 0x40 16 x.a, arrayIndex 0x901018 0x40 16 x.a with
  | some p, _ =>
    let s := if x.covers 0 then s.groupWrite true p (x.merged (s.reg x.a)) else s
    if x.one 35 then s.redRestart true p else s
  | _, some p => if x.covers 0 then s.redDoorbell true p (x.bits 0 32) else s
  | _, _ => s.plainWrite x

/-- MBX: a channel's registers, and an identity's pending bits, masks and interrupt (R374 to R376). -/
def State.writeMbx (s : State) (x : Wr) : State :=
  let id := s.masterId x.m
  match mbxChannelOf x.a with
  | some c =>
    let o := x.a % 0x100
    if o < 0x80 then s.after (execMbxMsgWrite id c (o / 8) (x.merged (s.reg x.a)) s)
    else if o = 0x80 then
      (if x.one 0 then s.after (execMbxGo id c s)
        else if s.mbxUsable c ∧ id = s.mbxSender c then s else s.mbxDenied c id true)
    else if o = 0x88 then (if x.covers 0 then s.after (execMbxAck id c (x.bits 0 16) s) else s)
    else s
  | none =>
    let r := (x.a - 0xB00000) / 0x20
    if r ≤ 1 ∨ r ≥ 32 then s
    else if x.a = Reg.mbxRxPend r then ((List.range 32).filter (fun b => x.one (32 + b))).foldl (fun s b => s.mbxFall r (32 + b)) s
    else if x.a = Reg.mbxRxMask r then (s.plainWrite x).mbxUnmask r
    else s.plainWrite x

/-- PWR and MGN: a write that puts a field outside its range is discarded whole (chapter 15). -/
def State.writePwr (s : State) (x : Wr) : State :=
  let v := x.merged (s.reg x.a)
  let inside (lo hi n : Nat) : Bool := decide (lo ≤ n ∧ n ≤ hi)
  if x.a = Reg.pwrCap then
    (if inside 1500 3500 (bitsAt v 0 16) && inside 1500 3500 (bitsAt v 16 16) && inside 1000 3000 (bitsAt v 32 16) then s.plainWrite x
      else s.count (Reg.pwrCnt 5) 1)
  else if x.a = Reg.mgnCtrl then
    (if inside 1 168 (bitsAt v 16 8) then (if x.one 0 then (s.plainWrite x).requestPlan 3 else s.plainWrite x)
      else s.count (Reg.mgnCnt 6) 1)
  else if x.a = Reg.mgnThresh then
    (if inside 1 65535 (bitsAt v 0 16) && inside 1 65535 (bitsAt v 16 16) && inside 8 100 (bitsAt v 32 8) then s.plainWrite x
      else s.count (Reg.mgnCnt 6) 1)
  else s.plainWrite x

/-- A write of TRC_P_CTRL of partition `p`. -/
def State.writeTraceCtrl (s : State) (x : Wr) (p : Nat) : State :=
  let v := x.merged (s.reg x.a) % 2 ^ 40
  if x.covers 0 then s.after (if bitAt v 0 then execTraceEnable p v s else execTraceDisable p v s)
  else
    let r := s.traceFields p v
    r.1.setReg x.a (BitVec.ofNat 64 r.2)

/-- A write of a watch slot's word: discarded while the slot is ARMED; the arm apart, while the trace is enabled (R408, R411). -/
def State.writeWatch (s : State) (x : Wr) (p n : Nat) : State :=
  if s.rd (.trcPWatchAState p n) = 1 then s
  else if x.a = Reg.trcPWatchA p n ∧ x.one 32 = true then s.after (execWatchArm p n (x.merged (s.reg x.a)) s)
  else if s.rdBit (.trcPCtrlEnable p) then s
  else s.plainWrite x

/-- TRC: pools, the Debug Module Interface, a partition's trace (chapter 16). -/
def State.writeTrc (s : State) (x : Wr) : State :=
  if x.a = Reg.trcDmi then
    (if x.one 8 then
      let f := s.fresh
      f.2.after (execDmiOperation true (x.merged (s.reg x.a)) 0 (f.1.toNat % 2 ^ 32) f.2)
    else s.plainWrite x)
  else
    match arrayIndex (Reg.trcPool 0) 8 8 x.a with
    | some d => s.after (execTracePoolWrite d (x.merged (s.reg x.a)) s)
    | none =>
      if 0xE01000 ≤ x.a ∧ x.a < 0xE03000 then
        let p := (x.a - 0xE01000) / 0x200
        let o := (x.a - 0xE01000) % 0x200
        if o = 0 then s.writeTraceCtrl x p
        else if o = 8 then
          let s := if s.rdBit (.trcPCtrlEnable p) then s else s.plainWrite x
          if x.one 5 then s.traceTrigger p 4 0 else s
        else if o ≥ 0x100 then s.writeWatch x p ((o - 0x100) / 0x20)
        else s
      else s.plainWrite x

/-! ## The per-core blocks -/

/-- A register of the window of core `c`: INJECT, HALT, a DMA channel's CTRL; a core's channel has no ring and no owner of its
own. -/
def State.writeCore (s : State) (x : Wr) : State :=
  let c := (x.a - 0x2000000) / 0x20000
  let o := x.a % 0x20000
  if x.a = Reg.umpCtrl c then
    (if x.bits 0 2 = 1 then s.after (execUmpInjectArray c s) else if x.bits 0 2 = 2 then s.after (execUmpInjectChecksum c s) else s)
  else if x.a = Reg.pmkCtrl c then
    let halt := s.rd (.pmkCtrlHalt c)
    let s := (s.plainWrite x).wr (.pmkCtrlHalt c) halt
    (if x.covers 0 then (if x.one 0 then s.after (execPmkHalt c s) else s.resumeCore c) else s).testBreak c
  else if Reg.pmkBrk c 0 ≤ x.a ∧ x.a ≤ Reg.pmkBrk c 3 then (s.plainWrite x).testBreak c
  else if 0x10000 ≤ o ∧ o < 0x10400 then
    (if o % 0x100 = 0 then s.writeChanCtrl x (coreKey c ((o - 0x10000) / 0x100)) else s)
  else s.plainWrite x

/-! ## All of register space -/

/-- The state after a write has reached its register. HIF_PART_OP and REF_CTRL stand with the operations that they start. -/
def State.regWrite (s : State) (x : Wr) : State :=
  if x.a ≥ 0x2000000 then s.writeCore x
  else
    match x.a / 0x100000 with
    | 0 | 1 => s.writeContext x
    | 2 => s.writeSyn x
    | 3 => s.writeChip x
    | 4 => s.writeCad x
    | 5 => s.writeMem x
    | 7 => s.writeHif x
    | 8 => s.writeLnk x
    | 9 => s.writeRed x
    | 11 => s.writeMbx x
    | 12 | 13 => s.writePwr x
    | 14 => s.writeTrc x
    | _ => s.plainWrite x

/-- Is a register reserved to the physical function: HIF but the doorbell aliases, LNK but LNK_TIME_ADJ, RED, the manual sync
operations, the region operations, CNT_PRIV, TRC_DMI (R428)? -/
def pfOnly (a : Nat) : Bool :=
  decide ((0x700000 ≤ a ∧ a < 0x780000) ∨ (0x800000 ≤ a ∧ a < 0xA00000 ∧ a ≠ Reg.lnkTimeAdj) ∨ a = Reg.synManArg ∨ a = Reg.synManOp ∨
    a = Reg.memRegionArg ∨ a = Reg.memRegionOp ∨ a = Reg.cntPriv ∨ a = Reg.trcDmi)

/-- May a master other than a virtual function write the register? PWR and MGN are the physical function's and the referee's;
LNK_TIME_ADJ is also the service cores' (R344). -/
def mayWrite (m : Master) (a : Nat) : Bool :=
  match m with
  | .pf => true
  | .vf _ => false
  | .referee => !(pfOnly a) && decide (a ≠ Reg.lnkTimeAdj)
  | _ => !(pfOnly a) && !(decide (0xC00000 ≤ a ∧ a < 0xE00000))

/-- Is it a register of a playmaker whose writes follow R416? -/
def pmkGuarded (a : Nat) : Bool :=
  decide (a ≥ 0x2000000) && (decide (a % 0x20000 = 0xE008) || decide (0xE100 ≤ a % 0x20000 ∧ a % 0x20000 < 0xE120))

end Sys2Proof.Machine
end

