-- ==== Sys2Proof/Machine/Sha3.lean ====
section
/-!
DEFINITION. SHA3-256, which the spec names and does not give (R60, R366 to R373, R398). PRESUMED from FIPS 202 (log entry 40).
Lanes are numbers below 2^64; the constants are computed by the rules of that standard and not tabled.
-/
namespace Sys2Proof.Machine

/-- One step of the register of 8 bits, x^8 + x^6 + x^5 + x^4 + 1, that gives the bits of the round constants. -/
def shaRegister (r : Nat) : Nat := if r < 128 then 2 * r else (2 * r - 256) ^^^ 0x71

/-- The constants of `n` rounds from a register on: bit 2^j - 1 of each takes the register's next bit, j = 0 to 6. -/
def shaConstants : Nat → Nat → List Nat
  | 0, _ => []
  | n + 1, r =>
    let p := (List.range 7).foldl (fun (p : Nat × Nat) j => (p.1 + p.2 % 2 * 2 ^ (2 ^ j - 1), shaRegister p.2)) (0, r)
    p.1 :: shaConstants n p.2

/-- A lane turned left. -/
def shaTurn (w k : Nat) : Nat := w * 2 ^ k % 2 ^ 64 + w / 2 ^ (64 - k)

/-- The way of `n` lanes from column x, row y and turn number t on: (lane, lane it goes to, how far it is turned). -/
def shaWay : Nat → Nat → Nat → Nat → List (Nat × Nat × Nat)
  | 0, _, _, _ => []
  | n + 1, x, y, t =>
    let z := (2 * x + 3 * y) % 5
    (5 * y + x, 5 * z + y, (t + 1) * (t + 2) / 2 % 64) :: shaWay n y z (t + 1)

/-- The exclusive-or of the five lanes of column `x`. -/
def shaColumn (v : List Nat) (x : Nat) : Nat := [0, 5, 10, 15, 20].foldl (fun acc y => acc ^^^ v.getD (y + x) 0) 0

/-- The lanes after every lane has taken in the column before its own and the turned column after it. -/
def shaSpread (v : List Nat) : List Nat :=
  v.zipIdx.map (fun p => p.1 ^^^ shaColumn v ((p.2 + 4) % 5) ^^^ shaTurn (shaColumn v ((p.2 + 1) % 5)) 1)

/-- The lanes after 24 of them have gone their way; lane 0 stays. -/
def shaMove (v : List Nat) : List Nat :=
  (shaWay 24 1 0 0).foldl (fun acc m => acc.set m.2.1 (shaTurn (v.getD m.1 0) m.2.2)) v

/-- The lanes after each has been combined with the two that follow it in its row. -/
def shaMix (v : List Nat) : List Nat :=
  v.zipIdx.map (fun p =>
    let next (k : Nat) : Nat := v.getD (p.2 / 5 * 5 + (p.2 % 5 + k) % 5) 0
    p.1 ^^^ ((2 ^ 64 - 1 - next 1) &&& next 2))

/-- The permutation: 24 rounds, each closed by its constant on lane 0. -/
def shaPermute (v : List Nat) : List Nat :=
  (shaConstants 24 1).foldl (fun v k =>
    let w := shaMix (shaMove (shaSpread v))
    w.set 0 (w.headD 0 ^^^ k)) v

/-- The lanes after `n` blocks of 136 bytes of a message in its padded length have been taken in: each block is 17 lanes of
the number that its bytes spell. -/
def shaTake : Nat → List (BitVec 8) → List Nat → List Nat
  | 0, _, v => v
  | n + 1, m, v =>
    let b := natOfBytes (m.take 136)
    shaTake n (m.drop 136) (shaPermute (v.zipIdx.map (fun p => if p.2 < 17 then p.1 ^^^ b / 2 ^ (64 * p.2) % 2 ^ 64 else p.1)))

/-- The SHA3-256 digest of a row of bytes as a number, its first byte the least significant (R1). The padding is the byte 6
after the message and the top bit of the last block. -/
def sha3Nat (m : List (BitVec 8)) : Nat :=
  let blocks := m.length / 136 + 1
  let padded := bytesOfNat (136 * blocks) (natOfBytes m + 6 * 2 ^ (8 * m.length) + 2 ^ (8 * (136 * blocks) - 1))
  ((shaTake blocks padded (List.replicate 25 0)).take 4).zipIdx.foldl (fun acc p => acc + p.1 * 2 ^ (64 * p.2)) 0

/-- The digest as its 32 bytes. -/
def sha3 (m : List (BitVec 8)) : List (BitVec 8) := bytesOfNat 32 (sha3Nat m)

/-- The bytes of an ASCII text of five characters. -/
def ascii (t : List Nat) : List (BitVec 8) := t.map (BitVec.ofNat 8)

/-- "VZ9SR" (R60) and "VZ9ID" (R372). -/
def textSR : List (BitVec 8) := ascii [0x56, 0x5A, 0x39, 0x53, 0x52]
def textID : List (BitVec 8) := ascii [0x56, 0x5A, 0x39, 0x49, 0x44]

end Sys2Proof.Machine
end

