-- ==== Sys2Proof/Machine/Loader.lean ====
section
/-!
DEFINITION. The job image and its load (R318 to R320), the restore of a checkpoint (R194), the undoing of a load and what END
releases (R319, R323).
-/
namespace Sys2Proof.Machine

/-! ## The source and the manifest -/

/-- A refusal of a load: its code, and the payload's detail, requested and available (Table 12-13). -/
structure LoadErr where
  code : Code
  detail : Nat
  requested : Nat
  available : Nat
  deriving DecidableEq, Repr

/-- LD_IMAGE with a detail. -/
def ldImage (detail : Nat) : LoadErr := ⟨.ldImage, detail, 0, 0⟩

/-- The state after the loader's read of an object of tier 3 that no unit gives (R275): the recovery of a Z-pack object begins. -/
def State.sourceLost (s : State) (p o u : Nat) (x : FlashObj) : State :=
  if x.type = 2 then
    (match s.beginRecovery o (4096 * u) with
      | some t => t
      | none => (s.count (Reg.cadCnt 6) 1).raise .memObjectLost unitReferee p (payload [(16, 4, o), (20, 8, 4096 * u)]))
  else s.raise .memT3Uncorrectable unitReferee p (unitPayload x o u 2)

/-- The `n` bytes at an offset of the image of partition `p`, read by the loader: an object of tier 3, or memory in a region of the partition; with
the state after the events of the read. None where they cannot be read. -/
def State.sourceBytes (s : State) (p object cpa off n : Nat) : State × Option (List (BitVec 8)) :=
  if n = 0 then (s, some [])
  else if object ≠ 0 then
    match s.objectRefusal object (off / 4096 * 4096) (off % 4096 + n) none, s.object object with
    | some r, _ => (s.raise r.1 unitReferee p (payload [(16, 4, object), (20, 1, r.2)]), none)
    | none, none => (s, none)
    | none, some x =>
      if x.type = 2 ∧ (s.recovery object).isSome then (s, none)
      else
        let r := s.readUnitsAs unitReferee p object x (unitsOf off n)
        match r.2 with
        | some u => (r.1.sourceLost p object u x, none)
        | none => (r.1, some (Mem.readBytes x.bytes off n))
  else if cpa % 4096 ≠ 0 then (s, none)
  else
    let a := cpa + off
    let r := s.checkRange (.part p) a n false
    match r.1.code with
    | some c => (s.refuseAccess c sevFailed unitReferee (.part p) r.2 false, none)
    | none =>
      if s.poisoned a n then
        (s.raiseAs .memUncorrectable sevFailed unitReferee p (payload [(16, 8, a), (24, 1, tierNo a)]), none)
      else (s, some (s.bytes a n))

/-- The lists of a manifest held as a number of 4,096 bytes: their lengths and where each begins. -/
def mfRegions (m : Nat) : Nat := bytesAt m 112 2
def mfLoads (m : Nat) : Nat := bytesAt m 114 2
def mfSyncs (m : Nat) : Nat := bytesAt m 116 2
def mfRegs (m : Nat) : Nat := bytesAt m 118 2
def mfLength (m : Nat) : Nat := 16 * mfRegions m + 32 * mfLoads m + 8 * mfSyncs m + 16 * mfRegs m

/-- The fields of a manifest that the claims name. -/
def mfCores (m : Nat) : List Nat := (List.range 256).filter (fun c => bitAt m (8 * 32 + c))
def mfPorts (m : Nat) : List Nat := (List.range 18).filter (fun n => bitAt m (8 * 96 + n))
def mfFeeds (m : Nat) : List Nat := (List.range 64).filter (fun f => bitAt m (8 * 104 + f))
def mfStep (m : Nat) : Nat := bytesAt m 16 8
def mfSynFirst (m : Nat) : Nat := bytesAt m 72 2
def mfSynCount (m : Nat) : Nat := bytesAt m 76 4
def mfTrace (m : Nat) : Nat := bytesAt m 100 2
def mfSensitive (m g : Nat) : Bool := bitAt m (8 * 512 + g)

/-- An image as it was read: its manifest and its lists, each as a number. -/
structure Image where
  m : Nat
  lists : Nat
  deriving DecidableEq, Repr

/-- Entry `i` of each list, as a number. -/
def Image.region (x : Image) (i : Nat) : Nat := bytesAt x.lists (16 * i) 16
def Image.load (x : Image) (i : Nat) : Nat := bytesAt x.lists (16 * mfRegions x.m + 32 * i) 32
def Image.sync (x : Image) (i : Nat) : Nat := bytesAt x.lists (16 * mfRegions x.m + 32 * mfLoads x.m + 8 * i) 8
def Image.reg (x : Image) (i : Nat) : Nat :=
  bytesAt x.lists (16 * mfRegions x.m + 32 * mfLoads x.m + 8 * mfSyncs x.m + 16 * i) 16

/-- The ranges of bytes of a manifest that no field names. -/
def mfReserved : List (Nat × Nat) := [(7, 1), (74, 2), (86, 2), (94, 2), (102, 2), (120, 392), (1024, 3064)]

/-- Phase 2: the manifest and the lists, if they pass their checks. -/
def State.readImage (s : State) (p object cpa : Nat) : State × Except LoadErr Image :=
  let r := s.sourceBytes p object cpa 0 4096
  match r.2 with
  | none => (r.1, .error (ldImage 2))
  | some bs =>
    let m := natOfBytes bs
    if bytesAt m 0 4 ≠ 0x424A5A56 ∨ bytesAt m 4 2 ≠ 1 ∨ bytesAt m 6 1 ≠ p ∨ mfRegions m > 256 ∨ bitsAt m (8 * 96 + 18) 14 ≠ 0 ∨
        mfReserved.any (fun r => decide (bytesAt m r.1 r.2 ≠ 0)) = true then (r.1, .error (ldImage 1))
    else
      let l := r.1.sourceBytes p object cpa 4096 (mfLength m)
      match l.2 with
      | none => (l.1, .error (ldImage 2))
      | some ls =>
        if bytesAt m 4088 8 = (crc64 (bs.take 4088 ++ ls)).toNat then (l.1, .ok ⟨m, natOfBytes ls⟩) else (l.1, .error (ldImage 1))

/-! ## Claims (phase 3) -/

/-- The feeds and the ports that other partitions' jobs have claimed. -/
def State.feedClaimed (s : State) (p f : Nat) : Bool :=
  s.jobs.any (fun x => decide (x.1 ≠ p) && x.2.loaded && bitAt x.2.feeds f)

/-- The region entry's fields: tier, type, flags, first granule, granules. -/
def rgTier (w : Nat) : Nat := bytesAt w 0 1
def rgType (w : Nat) : Nat := bytesAt w 1 1
def rgFlags (w : Nat) : Nat := bytesAt w 2 1
def rgBase (w : Nat) : Nat := bytesAt w 4 2
def rgCount (w : Nat) : Nat := bytesAt w 6 2

/-- Is a region entry malformed? -/
def rgMalformed (w : Nat) : Bool :=
  decide (rgTier w > 1 ∨ rgFlags w ≥ 8 ∨ bytesAt w 3 1 ≠ 0 ∨ bytesAt w 8 8 ≠ 0 ∨ rgBase w ≥ 2048 ∨ rgCount w ≥ 2048 ∨ rgType w ≥ 8) ||
  (bitAt (rgFlags w) 1 && decide (rgType w ≠ 2))

/-- The value of MEM_REGION_ARG for an entry of partition `p`. -/
def rgArg (p w : Nat) : Nat :=
  rgTier w + rgBase w * 2 + rgCount w * 2 ^ 12 + p * 2 ^ 23 + rgType w * 2 ^ 27 + bitsAt (rgFlags w) 0 1 * 2 ^ 30

/-- The region of the table that an earlier job of the partition kept and that is what the entry asks for, if there is one. -/
def State.keptRegion (s : State) (p w : Nat) : Option Nat :=
  if bitAt (rgFlags w) 2 then
    (s.validRegions.find? (fun x => decide (x.2.field 0 31 = rgArg p w))).map (fun x => x.1)
  else none

/-- The state with the region of an entry created, and its number; none where it is in use, unusable or malformed. -/
def State.makeRegion (s : State) (p w : Nat) : Option (State × Nat) :=
  if rgMalformed w then none
  else
    match (List.range 256).find? (fun n => !(s.rdBit (.memRegionValid n))) with
    | none => none
    | some n =>
      let arg := s.reg Reg.memRegionArg
      let t := s.setReg Reg.memRegionArg (BitVec.ofNat 64 (rgArg p w))
      let tier := rgTier w
      if (t.createRefusal n).isSome ∨ t.rd (useField p tier) + rgCount w > t.rd (quotaField p tier) then none
      else
        let t := (t.setReg (Reg.memRegion n) (BitVec.ofNat 64 (rgArg p w + 2 ^ 31))).wr (useField p tier)
          (t.rd (useField p tier) + rgCount w)
        some (t.setReg Reg.memRegionArg arg, n)

/-- The regions of an image created in list order: the state, those created and those kept; or the first entry that fails. -/
def State.makeRegions (s : State) (p : Nat) (x : Image) : Except Nat (State × List Nat × List Nat) :=
  (List.range (mfRegions x.m)).foldl (fun acc i =>
    match acc with
    | .error e => .error e
    | .ok (s, made, kept) =>
      match s.keptRegion p (x.region i) with
      | some n => .ok (s, made, kept ++ [n])
      | none =>
        match s.makeRegion p (x.region i) with
        | none => .error i
        | some (t, n) => .ok (t, made ++ [n], kept)) (.ok (s, [], []))

/-- The compute dies of a list of cores. -/
def State.diesOf (s : State) (cs : List Nat) : List Nat := (List.range 8).filter (fun d => cs.any (fun c => decide (s.coreDie c = d)))

/-- Does a sync range overlap another partition's, or leave the device? -/
def State.syncTaken (s : State) (p first n : Nat) : Bool :=
  decide (first + n > 65536) ||
  (decide (n > 0) && (List.range 16).any (fun q =>
    let f := s.rd (.synPartRangeFirst q)
    let k := s.rd (.synPartRangeNumber q)
    decide (q ≠ p ∧ k > 0 ∧ first < f + k ∧ f < first + n)))

/-- The first refusal of a list of tests in order. -/
def firstErr : List (Option LoadErr) → Option LoadErr
  | [] => none
  | some e :: _ => some e
  | none :: t => firstErr t

/-- A claim of more than there is. -/
def overClaim (code : Code) (need limit : Nat) : Option LoadErr := if need > limit then some ⟨code, 0, need, limit⟩ else none

/-- The sync objects from `first` on that no other partition's range holds. -/
def State.syncFree (s : State) (p first : Nat) : Nat :=
  (List.range 16).foldl (fun n q =>
    let f := s.rd (.synPartRangeFirst q)
    let k := s.rd (.synPartRangeNumber q)
    if q = p ∨ first ≥ f + k then n else min n (f - first)) (65536 - first)

/-- The claims of cores, stores and the sync range that do not fit. -/
def State.coreClaims (s : State) (p m : Nat) : List (Option LoadErr) := [
  ((mfCores m).find? (fun c => (s.core c).part.isSome)).map (fun c => LoadErr.mk .ldCoreBusy c 0 0),
  overClaim .ldCoreStore (bytesAt m 64 4) storeSize,
  overClaim .ldScorebook (bytesAt m 68 4) bookSize,
  if s.syncTaken p (mfSynFirst m) (mfSynCount m) then some (LoadErr.mk .ldSync 0 (mfSynCount m) (s.syncFree p (mfSynFirst m))) else none]

/-- The claims against the partition's ranges and quotas. `units` is the number of 16 GiB units of one of the job's checkpoint
images, 0 where it takes no checkpoints. -/
def State.quotaClaims (s : State) (p units m : Nat) : List (Option LoadErr) := [
  overClaim .ldQueues (bytesAt m 80 2) (s.rd (.hifPartRangeQcount p)),
  overClaim .ldStreams (bytesAt m 82 2) (s.rd (.hifPartRangeScount p)),
  overClaim .ldSeqSlots (bytesAt m 84 2) (s.rd (.hifPartMiscSeqcount p)),
  overClaim .ldTier1Quota (bytesAt m 88 2) (s.rd (.memQuotaT1 p)),
  overClaim .ldTier2Quota (bytesAt m 90 2) (s.rd (.memQuotaT2 p)),
  overClaim .ldTier3Quota (bytesAt m 92 2) (s.rd (.memQuotaT3 p)),
  overClaim .ldTier3Quota (2 * units) (bytesAt m 92 2)]

/-- Is Ergal port `n` claimed or in Ethernet mode? -/
def State.portTaken (s : State) (n : Nat) : Bool := s.rdBit (.lnkPortStatusClaimed n) || decide (s.rd (.lnkPortCtrlMode n) = 1)

/-- The mask of the numbers below `n` that are not taken. -/
def freeMask (n : Nat) (taken : Nat → Bool) : Nat := ((List.range n).filter (fun k => !(taken k))).foldl (fun m k => m + 2 ^ k) 0

/-- Does every compute die of a manifest's cores have trace space for `n` MiB? -/
def State.traceFits (s : State) (m n : Nat) : Bool :=
  decide (n = 0) || (s.diesOf (mfCores m)).all (fun d => (s.poolFree d n).isSome)

/-- The claims of regions, ports, trace space and feeds. -/
def State.unitClaims (s : State) (p : Nat) (x : Image) : List (Option LoadErr) := [
  (match s.makeRegions p x with
    | .error i => some (LoadErr.mk .ldRegion i 0 0)
    | .ok _ => none),
  (if (mfPorts x.m).any s.portTaken then
    some (LoadErr.mk .ldLinkPorts 0 (bytesAt x.m 96 4) (freeMask 18 s.portTaken)) else none),
  (if s.traceFits x.m (mfTrace x.m) then none
    else some (LoadErr.mk .ldTrace 0 (mfTrace x.m) (((List.range (mfTrace x.m)).reverse.find? (s.traceFits x.m)).getD 0))),
  (if (mfFeeds x.m).any (s.feedClaimed p) then
    some (LoadErr.mk .ldFeeds 0 (bytesAt x.m 104 8) (freeMask 32 (s.feedClaimed p))) else none)]

/-- Phase 3: the first claim of an image that does not fit. -/
def State.claimRefusal (s : State) (p units : Nat) (x : Image) : Option LoadErr :=
  firstErr (s.coreClaims p x.m ++ s.quotaClaims p units x.m ++ s.unitClaims p x)

/-! ## The register list (phase 4) -/

/-- May the register list of an image of partition `p` name an offset? The referee's channels 62 and 63 are no partition's. -/
def State.regAllowed (s : State) (p m off : Nat) : Bool :=
  let inside (base n : Nat) : Bool := decide (base ≤ off ∧ off < base + n)
  decide (off % 8 = 0) &&
  ((mfCores m).any (fun c => inside (0x2000000 + 0x20000 * c) 0x20000) || inside (0x10000 + 0x1000 * p) 0x1000 ||
    inside (0x110000 + 0x1000 * p) 0x1000 || inside (Reg.cadPCtrl p) 0x20 ||
    (mfFeeds m).any (fun f => inside (Reg.cadFeedCtrl f) 0x40) ||
    (List.range 62).any (fun n => inside (dmaChip n) 0x100 && decide (s.rd (.dmaChCtrlPartition (dmaChip n)) = p)))

/-- Phase 4: is the register list of an image in order? -/
def State.regListOk (s : State) (p : Nat) (x : Image) : Bool :=
  (List.range (mfRegs x.m)).all (fun i =>
    let w := x.reg i
    s.regAllowed p x.m (bytesAt w 0 4) && decide (bytesAt w 4 4 = 0))

/-! ## Releasing (R319, R323) -/

/-- The state with every register in a range at its reset value. -/
def State.resetRange (s : State) (lo n : Nat) : State :=
  s.setRegs (s.regs.filter (fun x => !(decide (lo ≤ x.1 ∧ x.1 < lo + n))))

/-- The state with every scorebook entry of core `c` at its reset value. -/
def State.resetBook (s : State) (c : Nat) : State := s.setBook (s.book.filter (fun x => !(decide (x.1 / bookSize = c))))

/-- The state without the requests to other chips that an agent of a kind waits for. -/
def State.abandonReqs (s : State) (q : Agent → Bool) : State := s.setReqs (s.reqs.filter (fun r => !(q r.agent)))

/-- The state with core `c` reset and released: its window's registers but PMK_CORE_IDENT and the umpire's marks, its scorebook,
its channels; its store keeps its bytes. -/
def State.releaseCore (s : State) (c : Nat) : State :=
  let id := s.reg (Reg.pmkCoreIdent c)
  let suspect := s.rd (.umpStatusSuspect c)
  let bench := s.rd (.umpStatusBenchPending c)
  let s := (s.resetRange (0x2000000 + 0x20000 * c) 0x20000).setReg (Reg.pmkCoreIdent c) id
  let s := ((s.wr (.umpStatusSuspect c) suspect).wr (.umpStatusBenchPending c) bench).setCore c Core.reset
  let mine : Agent → Bool
    | .core d _ => decide (d = c)
    | _ => false
  (((s.resetBook c).setChans (s.chans.filter (fun x => !(decide (x.1 / 4 = c))))).abandonReqs mine).setFences
    (s.fences.filter (fun f => !(decide (f.core = c))))

/-- The state with chip channel `n` reset. -/
def State.resetChip (s : State) (n : Nat) : State :=
  let s := (s.resetRange (dmaChip n) 0x100).dropWaiter (.chipChannel n)
  ((s.setHeadWait (chanKey n) .none).setChans (s.chans.filter (fun x => !(decide (x.1 = chipKey n))))).abandonReqs
    (fun a => decide (a = Agent.chip n))

/-- The chip channels of partition `p`: those whose PARTITION names it, but 62 and 63. -/
def State.chipsOf (s : State) (p : Nat) : List Nat :=
  (List.range 62).filter (fun n => decide (s.rd (.dmaChCtrlPartition (dmaChip n)) = p))

/-- The state with feed `f` disabled and released: its layers and their pieces are over. -/
def State.releaseFeed (s : State) (f : Nat) : State :=
  let mine : Agent → Bool
    | .piece g _ _ => decide (g = f)
    | _ => false
  let s := s.resetRange (Reg.cadFeedCtrl f) 0x40
  ((s.setFeeds (Sparse.erase f s.feeds)).setChans
    (s.chans.filter (fun x => !((x.2.xfer.map (fun y => mine y.agent)).getD false)))).abandonReqs mine

/-- The state with the trace of partition `p` stopped, its buffers released and its watch slots off. -/
def State.releaseTrace (s : State) (p : Nat) : State :=
  let s := if s.rdBit (.trcPCtrlEnable p) then s.after (execTraceDisable p 0 s) else s
  let s := (List.range 8).foldl (fun (s : State) d => s.setReg (Reg.trcPBuf p d) 0) s
  (List.range 8).foldl (fun (s : State) n => if s.rd (.trcPWatchAState p n) = 1 then s.setReg (Reg.trcPWatchA p n) 0 else s) s

/-- The state after the resources of a load have been released: regions in `regs` freed, cores, contexts, feeds, ports, trace and
sync range reset; the partition is CREATED. The objects have been checked or were never used. -/
def State.releaseJob (s : State) (p : Nat) (regs : List Nat) : State :=
  let j := s.job p
  let s := (j.capture.toList ++ j.drain.toList).foldl State.dropCkptObject (s.releaseTrace p)
  let s := (s.coresOf p).foldl State.releaseCore s
  let s := (s.resetRange (0x10000 + 0x1000 * p) 0x1000).resetRange (0x110000 + 0x1000 * p) 0x1000
  let s := ((List.range 64).filter (bitAt j.feeds)).foldl State.releaseFeed s
  let s := ((List.range 18).filter (bitAt j.ports)).foldl (fun (s : State) n => s.wr (.lnkPortStatusClaimed n) 0) s
  let s := regs.foldl State.freeRegion s
  let s := (s.objectsOf p).foldl State.freeObj s
  let s := s.setReg (Reg.synPartRange p) 0
  let s := (s.setHaltAt (s.haltAt.filter (fun x => !(decide (x.1 = p))))).setReds (s.reds.filter (fun r => !(decide (r.part = p))))
  let s := s.setRecoveries (s.recoveries.filter (fun r => !(decide (r.part = p))))
  let s := (s.abandonReqs (fun a => decide (a = Agent.capture p))).setJobs (Sparse.erase p s.jobs)
  (s.wr (.hifPartStatusState p) 1).wr (.hifPartStatusStopCause p) 0

/-- The state after a load has been undone (R319): what it released, and the contexts with the partition's CAD context. -/
def State.undoJob (s : State) (p : Nat) (regs : List Nat) : State := (s.releaseJob p regs).resetRange (Reg.cadPCtrl p) 0x20

/-- The state with the bytes of the partition's off-load regions discarded (R186): they read as memory that nothing has written. -/
def State.discardOffload (s : State) (p : Nat) : State :=
  let rs := (s.validRegions.filter (fun x => decide (x.2.field 23 4 = p ∧ x.2.field 27 3 = 3))).map (fun x => x.2)
  let lost (a : Nat) : Bool := decide (areaOf a = .tier2) &&
    rs.any (fun v => regionHolds v (granuleOf a).1 (granuleOf a).2)
  s.keepMem (fun a => !(lost a))

/-! ## Phases 5 to 8 -/

/-- Does a range lie in regions that were kept and are sealed? Their bytes stand: a seal holds the loader too (R252). -/
def State.keptSealed (s : State) (kept : List Nat) (a n : Nat) : Bool :=
  let g := granuleOf a
  decide (n > 0) && (List.range (n / gib1 + 2)).all (fun i =>
    decide (a / gib1 * gib1 + i * gib1 ≥ a + n) ||
    kept.any (fun k => s.rdBit (.memRegionSealed k) && regionHolds (s.reg (Reg.memRegion k)) g.1 (g.2 + i)))

/-- The state with an entry of the load list copied, and whether its CRC holds and its destination took it. The bytes of a region that was kept
sealed are not written again; another destination that R252 or R306 refuses raises its event. -/
def State.loadEntry (s : State) (p object cpa : Nat) (kept : List Nat) (w : Nat) : State × Bool :=
  let dst := bytesAt w 8 8
  let n := bytesAt w 16 8
  let r := s.sourceBytes p object cpa (bytesAt w 0 8) n
  let s := r.1
  match r.2 with
  | none => (s, false)
  | some bs =>
    let crc := decide ((crc64 bs).toNat = bytesAt w 24 8)
    if s.keptSealed kept dst n then (s, crc)
    else
      let c := s.checkRange .referee dst n true
      match c.1.code with
      | some k => (s.refuseAccess k sevFailed unitReferee .referee c.2 true, false)
      | none => (s.store dst bs, crc)

/-- The state with the load list copied in order, up to the first entry whose CRC fails. -/
def State.loadList (s : State) (p object cpa : Nat) (kept : List Nat) : List Nat → State × Bool
  | [] => (s, true)
  | w :: t =>
    let r := s.loadEntry p object cpa kept w
    if r.2 then State.loadList r.1 p object cpa kept t else r

/-- What the start of a load takes: the cores with HALT 1, the ports and the trace buffers; the job's record. -/
def State.takeClaims (s : State) (p object cpa : Nat) (x : Image) (made kept : List Nat) : State :=
  let m := x.m
  let s := (mfCores m).foldl (fun (s : State) c =>
    ((s.setCore c { Core.reset with part := some p }).wr (.pmkCtrlHalt c) 1).haltCore c 1) s
  let s := (mfPorts m).foldl (fun (s : State) n => s.wr (.lnkPortStatusClaimed n) 1) s
  let s := if mfTrace m = 0 then s else (s.diesOf (mfCores m)).foldl (fun (s : State) d =>
    (s.wr (.trcPBufBase p d) ((s.poolFree d (mfTrace m)).getD 0)).wr (.trcPBufMib p d) (mfTrace m)) s
  let keepers := ((List.range (mfRegions m)).map x.region).filter (fun w => bitAt (rgFlags w) 2)
  s.setJob p { Job.empty with
    loaded := true
    object := object
    source := cpa
    manifest := m
    shard := bytesAt m 24 4
    fpInterval := bytesAt m 28 4
    ports := bytesAt m 96 4
    feeds := bytesAt m 104 8
    trace := mfTrace m
    regions := made ++ kept
    keep := (made ++ kept).filter (fun n => keepers.any (fun w => decide ((s.reg (Reg.memRegion n)).field 0 31 = rgArg p w))) }

/-- The state with the regions of an image that are marked SEAL sealed. -/
def State.sealRegions (s : State) (p : Nat) (x : Image) (regs : List Nat) : State :=
  let sealers := ((List.range (mfRegions x.m)).map x.region).filter (fun w => bitAt (rgFlags w) 1)
  (regs.filter (fun n => sealers.any (fun w => decide ((s.reg (Reg.memRegion n)).field 0 31 = rgArg p w)))).foldl
    (fun (s : State) n => s.wr (.memRegionSealed n) 1) s

/-- The state with object `o` initialised by the loader. -/
def State.initObject (s : State) (p o count owner scope : Nat) : State :=
  (s.setObj o { count := count, state := 1, scope := scope, part := p, owner := owner, waiters := [] }).wr (initField o) count

/-- Is an entry of the sync list in order? -/
def syncOk (m w : Nat) : Bool :=
  let o := bytesAt w 0 2
  let owner := bitsAt w 16 9
  decide (mfSynFirst m ≤ o ∧ o < mfSynFirst m + mfSynCount m ∧ bitsAt w 25 2 ≤ 2 ∧ bitsAt w 27 5 = 0) && ownerOk owner

/-- Phase 6: the sync range, its objects, the sync list, the register list. -/
def State.loadSync (s : State) (p : Nat) (x : Image) : Except LoadErr State :=
  let m := x.m
  let syncs := (List.range (mfSyncs m)).map x.sync
  let s := (s.wr (.synPartRangeFirst p) (mfSynFirst m)).wr (.synPartRangeNumber p) (mfSynCount m)
  let s := (List.range (mfSynCount m)).foldl (fun (s : State) i => s.initObject p (mfSynFirst m + i) 0 511 1) s
  if syncs.all (syncOk m) = false then .error (ldImage 5)
  else
    let s := syncs.foldl (fun (s : State) w => s.initObject p (bytesAt w 0 2) (bytesAt w 4 4) (bitsAt w 16 9) (bitsAt w 25 2)) s
    .ok (((List.range (mfRegs m)).map x.reg).foldl (fun (s : State) w =>
      s.regWrite (Wr.of .referee (bytesAt w 0 4) 8 (bytesAt w 8 8))) s)

/-! ## Restoring (R194, phase 7) -/

/-- What phase 8 takes from a checkpoint: the step, GEXP and CLEAN, the keys, EPOCH and PUBLISHED_STEP. -/
structure Restored where
  step : Nat
  gexp : Nat
  clean : Nat
  k0 : Nat
  k1 : Nat
  epoch : Nat
  published : Nat
  deriving DecidableEq, Repr

/-- The images that a restore may use: those of this chip's tier 3 that hold the shard for partition `p`, whose checkpoints have all completed,
then those that the buddies and other chips supply, of steps at or below the job's LAST_COMPLETE. -/
def State.candidates (s : State) (p shard : Nat) (images : List (List (BitVec 8))) : List (List Host.Cell) :=
  let own := (s.flash.filter (fun x => decide (x.2.part = p ∧ x.2.type = 3 ∧ x.2.state = 1) &&
    (List.range (ceilDiv x.2.length 4096)).all (fun u => decide (s.unitMode x.1 u x.2 ≠ 3)))).map (fun x => x.2.bytes)
  (own ++ images.map (fun b => Mem.writeBytes [] 0 b)).filter (fun im => s.imageOk p im && decide (imageNat im 14 2 = shard % 65536))

/-- The newest of the candidates at or below a step; of two of one step the first. `others` is the steps for which every other
shard has an intact image, none for a job of one shard. -/
def newestImage (upTo : Option Nat) (others : Option (List Nat)) (l : List (List Host.Cell)) : Option (List Host.Cell) :=
  let ok (im : List Host.Cell) : Bool :=
    let n := imageNat im 8 4
    (match upTo with
      | some k => decide (n ≤ k)
      | none => true) &&
    (match others with
      | some ks => ks.contains n
      | none => true)
  (l.filter ok).foldl (fun best im => match best with
    | none => some im
    | some b => if imageNat b 8 4 < imageNat im 8 4 then some im else some b) none

/-- The state after the loader, a referee's agent, has written bytes: checked by R252 and R306. -/
def State.loadWrite (s : State) (a : Nat) (bs : List (BitVec 8)) : State := s.writeVia .referee unitReferee a bs.length (natOfBytes bs)

/-- The state with the blocks of a tensor section written to their places. -/
def State.restoreBlocks (s : State) (im : List Host.Cell) (off : Nat) (l : List (Nat × Nat)) : State :=
  let k := l.length
  (l.zipIdx).foldl (fun (s : State) x =>
    (s.loadWrite x.1.1 (Mem.readBytes im (off + 4096 * x.2) 4096)).loadWrite x.1.2 (Mem.readBytes im (off + 4096 * k + 16 * x.2) 16)) s

/-- The state with one section of an image restored: (type, tensor, map entry, offset, length, CHECK). -/
def State.restoreSection (s : State) (p : Nat) (im : List Host.Cell) (x : Nat × Bool × Nat × Nat × Nat × Nat) : State :=
  let off := x.2.2.2.1
  let n := x.2.2.2.2.1
  match x.1 with
  | 1 | 2 | 3 | 4 => s.restoreBlocks im off ((s.mapDesc p x.2.2.1).blockList.take (n / 4112))
  | 5 | 10 => s.loadWrite (s.mapAddr p x.2.2.1) (Mem.readBytes im off (min n (s.mapLength p x.2.2.1)))
  | 6 => s.loadWrite (s.groupAt p 0) (Mem.readBytes im off (min n (1024 * s.rd (.optGroupTableNgroups p))))
  | 7 =>
    let g := 64 * s.pgvGroups p
    let t := 128 * s.pgvTensors p
    ((s.loadWrite (s.rungAt p 0 0) (Mem.readBytes im off 192)).loadWrite (s.pgvGroupAt p 0) (Mem.readBytes im (off + 192) g)).loadWrite
      (s.tensorAt p 0) (Mem.readBytes im (off + 192 + g) t)
  | 8 => s.restoreBlocks im off ((s.histBlocks p).take (n / 4112))
  | _ => s

/-! ## The tables of a new job (R178, R182) -/

/-- The state with `n` bytes of memory zero, which the checks of R252 admit; their parity marks and the poison of whole lines are gone. -/
def State.zeroRange (s : State) (a n : Nat) : State :=
  let r := s.checkRange .referee a n true
  match r.1.code with
  | some c => s.refuseAccess c sevNotice unitReferee .referee r.2 true
  | none =>
    let out (x : Nat) : Bool := decide (x < a ∨ a + n ≤ x)
    ((s.keepMem out).setBad (s.bad.filter (fun c => out c.1))).clearPoison a n

/-- The state after the loader has prepared the optimiser's tables of a new job: T = 0 and B1POW = B2POW = 1.0 in every parameter group; the
payload blocks of LF, RF, LI and RI, and the Rule P status bytes, zero. The trailers stand as the load list wrote them (R122). -/
def State.newTables (s : State) (p : Nat) : State :=
  let put (s : State) (a v : Nat) : State := s.writeVia .referee unitReferee a 4 v
  let s := (List.range (s.rd (.optGroupTableNgroups p))).foldl (fun (s : State) q =>
    let e := s.groupAt p q
    put (put (put s (e + 48) 0) (e + 52) f32One) (e + 56) f32One) s
  (List.range (s.rd (.optCkptMapNentries p))).foldl (fun (s : State) m =>
    match s.mapType p m with
    | 4 => s.zeroRange (s.mapDesc p m).cpa (4096 * (s.mapDesc p m).nblk)
    | 5 => s.zeroRange (s.mapAddr p m) (s.mapLength p m)
    | _ => s) s

/-! ## What phase 8 takes -/

/-- What phase 8 takes from an image. -/
def State.restoredOf (s : State) (p : Nat) (im : List Host.Cell) : Restored :=
  let off (t : Nat) : Nat := (((imageSections im).find? (fun x => decide (x.1 = t))).map (fun x => x.2.2.2.1)).getD 0
  let o := off 9
  let g := off 7 + 192 + 64 * s.pgvGroups p + 128 * s.pgvTensors p
  { step := imageNat im o 8, gexp := imageNat im (o + 8) 8, clean := imageNat im (o + 16) 8, k0 := imageNat im (o + 24) 8,
    k1 := imageNat im (o + 32) 8, epoch := imageNat im g 8, published := imageNat im (g + 8) 8 }

/-! ## Phase 8 -/

/-- The lowest rung of a role whose OPTIONS.CNV is set (R320). -/
def State.cnvRung (s : State) (p r : Nat) : Option Nat :=
  (List.range 8).find? (fun j => rungValid (s.rung p r j) && rungCnv (s.rung p r j))

/-- The state with the floors of the sensitive groups raised; or the first group with a role that has no CNV rung. -/
def State.raiseFloors (s : State) (p m : Nat) : Except LoadErr State :=
  let gs := (List.range (s.pgvGroups p)).filter (mfSensitive m)
  match gs, (List.range 3).all (fun r => (s.cnvRung p r).isSome) with
  | g :: _, false => .error ⟨.ldSensitive, g, 0, 0⟩
  | _, _ => .ok (gs.foldl (fun (s : State) g => (List.range 3).foldl (fun (s : State) r =>
      let j := (s.cnvRung p r).getD 0
      let x := s.role p g r
      s.setRole p g r { x with floor := j, ceil := max x.ceil j, rung := max x.rung j }) s) s)

/-- LD_CONTEXT with the code and the reason of a failed enable (R320). -/
def ldContext (code reason : Nat) : LoadErr := ⟨.ldContext, 0, code + reason * 2 ^ 16, 0⟩

/-- The state with the claimed feeds enabled, or the refusal of the first that fails. -/
def State.enableFeeds (s : State) : List Nat → State × Option LoadErr
  | [] => (s, none)
  | f :: t =>
    match s.feedRefusal f with
    | some r => (s.after (execCadFeedEnable f s), some (ldContext Code.xfrFeedInvalid.val r))
    | none => (s.after (execCadFeedEnable f s)).enableFeeds t

/-- Keys, step numbers and their locks in every core of the job (R60, R214). -/
def State.lockCores (s : State) (p k0 k1 step : Nat) : State :=
  (s.coresOf p).foldl (fun (s : State) c =>
    let s := ((s.setReg (Reg.xfmRngKey0 c) (BitVec.ofNat 64 k0)).setReg (Reg.xfmRngKey1 c) (BitVec.ofNat 64 k1)).wr (.xfmCtrlLock c) 1
    (s.setReg (Reg.pmkStep c) (BitVec.ofNat 64 step)).wr (.pmkCtrlLock c) 1) s

/-- The job key of a manifest's seed (R60): SHA3-256 of the seed and "VZ9SR". -/
def jobKey (m : Nat) : Nat :=
  sha3Nat (bytesOfNat 8 (bytesAt m 8 8) ++ [0x56, 0x5A, 0x39, 0x53, 0x52])

/-- Does an image's register list write a register of the context at a BAR0 offset, one that is not at `but`? -/
def Image.writesContext (x : Image) (base but : Nat) : Bool :=
  (List.range (mfRegs x.m)).any (fun i =>
    let o := bytesAt (x.reg i) 0 4
    decide (base ≤ o ∧ o < base + 0x1000 ∧ o / 8 * 8 ≠ but))

/-- The PGV context of a job, enabled if its image sets one up; the reason of a refusal. A job whose register list writes none of
the context's registers, PGV_PLAN apart, runs with the context not enabled (R162; DEDUCED, log entry 17). -/
def State.enablePgv (s : State) (p : Nat) (x : Image) (back : Option Restored) : State × Option Nat :=
  if x.writesContext (Reg.pgvCtxCtrl p) (Reg.pgvPlan p) then
    s.pgvEnable p ((back.map (fun r => r.epoch)).getD 0) ((back.map (fun r => r.published)).getD 0)
  else (s, none)

/-- The same of the OPT context (Table 7-10, reason 0x08). -/
def State.enableOpt (s : State) (p : Nat) (x : Image) (back : Option Restored) : State × Option Nat :=
  if x.writesContext (Reg.optCtxCtrl p) 0 then s.optEnable p (back.map (fun r => (r.gexp, r.clean))) else (s, none)

/-- Phase 8, before which a new job's optimiser tables are prepared. -/
def State.enableJob (s : State) (p : Nat) (x : Image) (back : Option Restored) : State × Option LoadErr :=
  let key := jobKey x.m
  let step := match back with
    | some r => r.step + 1
    | none => mfStep x.m
  let s := match back with
    | some r => s.lockCores p r.k0 r.k1 step
    | none => s.lockCores p (bytesAt key 0 8) (bytesAt key 8 8) step
  let own := (s.flash.filter (fun y => decide (y.2.part = p ∧ y.2.type = 3 ∧ y.2.state = 1))).map (fun y => (imageNat y.2.bytes 8 4, y.1))
  let s := s.modJob p (fun j => { j with
    first := step
    complete := back.map (fun r => r.step % 2 ^ 32)
    images := if back.isSome then own else [] })
  let s := if back.isNone && x.writesContext (Reg.optCtxCtrl p) 0 then s.newTables p else s
  match s.raiseFloors p x.m with
  | .error e => (s, some e)
  | .ok s =>
    let g := s.enablePgv p x back
    match g.2 with
    | some r => (g.1, some (ldContext Code.numGovInvalid.val r))
    | none =>
      let o := g.1.enableOpt p x back
      match o.2 with
      | some r => (o.1, some (ldContext Code.numOptCtxInvalid.val r))
      | none => o.1.enableFeeds (mfFeeds x.m)

/-! ## The load -/

/-- Phases 5 and 6, and with `restore` phase 7: the state, the regions created, and what phase 8 takes. -/
def State.placeJob (s : State) (p object cpa : Nat) (x : Image) (restore : Bool) (upTo : Option Nat)
    (others : Option (List Nat)) (images : List (List (BitVec 8))) : State × List Nat × Except LoadErr (Option Restored) :=
  match s.makeRegions p x with
  | .error i => (s, [], .error ⟨.ldRegion, i, 0, 0⟩)
  | .ok (t, made, kept) =>
    let t := t.takeClaims p object cpa x made kept
    let l := t.loadList p object cpa kept ((List.range (mfLoads x.m)).map x.load)
    if l.2 = false then (l.1, made, .error (ldImage 4))
    else
      match (l.1.sealRegions p x made).loadSync p x with
      | .error e => (l.1, made, .error e)
      | .ok t =>
        if restore then
          match newestImage upTo others (t.candidates p (bytesAt x.m 24 4) images) with
          | none => (t, made, .error ⟨.numCkptRestoreFail, 0, 0, 0⟩)
          | some im =>
            let t := (imageSections im).foldl (fun (s : State) y => s.restoreSection p im y) t
            (t, made, .ok (some (t.restoredOf p im)))
        else (t, made, .ok none)

/-- The 16 GiB units of a checkpoint image of the job that an image loads, 0 where its map is empty: found on the state that the
load would leave. -/
def State.imageUnits (s : State) (p object cpa : Nat) (x : Image) : Nat :=
  let r := s.placeJob p object cpa x false none none []
  match r.2.2 with
  | .error _ => 0
  | .ok _ =>
    if r.1.rd (.optCkptMapNentries p) = 0 then 0
    else quotaUnits (imageBytes 0 0 0 0 (r.1.sections p 0)).length

/-- The state after a load has been refused with its code. -/
def State.loadRefused (s : State) (p : Nat) (e : LoadErr) (newest : Nat) : State :=
  let s := s.wr (.hifPartStatusCode p) e.code.val
  if e.code = Code.numCkptRestoreFail then s.raise e.code unitReferee p (payload [(16, 4, newest)])
  else s.raise e.code unitReferee p (payload [(16, 2, e.detail), (20, 8, e.requested), (28, 4, e.available)])

/-- The newest step that this chip has a complete checkpoint of, for NUM_CKPT_RESTORE_FAIL. -/
def newestStep (upTo : Option Nat) : Nat := upTo.getD 0

/-- The state after LOAD of partition `p` from a source (R319): READY, or CREATED with the refusal reported. `fails` names the
physical cores that fail their test at the job boundary. -/
def State.loadJob (s : State) (p object cpa : Nat) (restore : Bool) (upTo : Option Nat) (others : Option (List Nat))
    (images : List (List (BitVec 8))) (fails : List (Nat × Nat)) : State :=
  if s.rdBit .refReadyFlagged then s.loadRefused p ⟨.ldChipFlagged, 0, 0, 0⟩ 0
  else
    let i := s.readImage p object cpa
    let s := i.1
    match i.2 with
    | .error e => s.loadRefused p e 0
    | .ok x =>
      match s.claimRefusal p (s.imageUnits p object cpa x) x with
      | some e => s.loadRefused p e 0
      | none =>
        if s.regListOk p x = false then s.loadRefused p (ldImage 3) 0
        else
          let s := (s.jobBoundary fails).requestPlan 1
          let r := s.placeJob p object cpa x restore upTo others images
          match r.2.2 with
          | .error e => (r.1.undoJob p r.2.1).loadRefused p e (newestStep upTo)
          | .ok back =>
            let t := r.1.enableJob p x back
            match t.2 with
            | some e => (t.1.undoJob p r.2.1).loadRefused p e (newestStep upTo)
            | none => (t.1.wr (.hifPartStatusState p) 2).wr (.hifPartStatusCode p) 0

end Sys2Proof.Machine
end

