-- ==== Sys2Proof/Machine/Partition.lean ====
section
/-!
DEFINITION. Partitions (R316 to R324): the operations of HIF_PART_OP, the automatic restart, function-level resets (R324, R362,
R364).
-/
namespace Sys2Proof.Machine

/-! ## Operations -/

/-- The state after an operation of a partition has been refused with a reason of Table 12-12. -/
def State.partRefused (s : State) (p op reason : Nat) : State :=
  (s.raise .hqPartInvalid unitPcie p (payload [(16, 1, p), (17, 1, reason), (18, 1, op)])).wr (.hifPartStatusCode p)
    Code.hqPartInvalid.val

/-- The state with a suspension that a fault or a stop has overtaken given up: BUSY falls. -/
def State.dropSuspend (s : State) (p : Nat) : State :=
  if (s.job p).suspend.isSome ∧ s.partState p ≠ 3 then
    (((s.modJob p (fun j => { j with suspend := none })).wr (.hifPartStatusBusy p) 0).setHaltAt (s.haltAt.filter (fun x => !(decide (x.1 = p)))))
  else s

/-- The state after operation `op` of partition `p`: it is the physical function's; BUSY discards it; the states that permit it,
then its own check, give the refusal (R317); otherwise CODE is 0 and it acts. -/
def State.partOp (s : State) (pf : Bool) (p op : Nat) (states : List Nat) (check : State → Option Nat) (act : State → State) :
    State :=
  if pf = false then s.count (Reg.hifCnt 0) 1
  else if p ≥ 16 then s
  else
    let s := s.dropSuspend p
    if s.rdBit (.hifPartStatusBusy p) then s
    else if states.contains (s.partState p) = false then s.partRefused p op 1
    else
      match check s with
      | some r => s.partRefused p op r
      | none => act (s.wr (.hifPartStatusCode p) 0)

/-- No check of its own. -/
def noCheck (_ : State) : Option Nat := none

/-! ## CREATE and DESTROY (R317) -/

/-- Do two ranges (first, count) overlap? -/
def rangesMeet (a b : Nat × Nat) : Bool := decide (0 < a.2 ∧ 0 < b.2 ∧ a.1 < b.1 + b.2 ∧ b.1 < a.1 + a.2)

/-- The ranges of a partition: queues, streams, sequence slots, window entries, with the device's limit of each. -/
def State.partRanges (s : State) (p : Nat) : List ((Nat × Nat) × Nat) := [
  ((s.rd (.hifPartRangeQfirst p), s.rd (.hifPartRangeQcount p)), 32768),
  ((s.rd (.hifPartRangeSfirst p), s.rd (.hifPartRangeScount p)), 8192),
  ((s.rd (.hifPartMiscSeqfirst p), s.rd (.hifPartMiscSeqcount p)), 256),
  ((s.rd (.hifPartMiscWbase p), 8), 128)]

/-- The check of CREATE. -/
def State.createCheck (s : State) (p : Nat) : Option Nat :=
  let mine := s.partRanges p
  let beyond := mine.any (fun r => decide (r.1.1 + r.1.2 > r.2))
  let clash := (List.range 16).any (fun q => decide (q ≠ p ∧ s.partState q ≠ 0) &&
    (mine.zip (s.partRanges q)).any (fun x => rangesMeet x.1.1 x.2.1))
  if beyond || clash then some 2 else if s.rdBit (.memQuotaLock p) = false then some 3 else none

/-- PARTITION_CREATE. -/
def execPartitionCreate (pf : Bool) (p : Nat) (s : State) : Host.Outcome State Fault Refusal :=
  if s.barShut pf then .next (s.barAnswer pf) else
  .next (s.partOp pf p 1 [0] (fun s => s.createCheck p) (fun s => (s.wr (.hifPartMiscLock p) 1).wr (.hifPartStatusState p) 1))

/-- The queues and the streams of a partition's ranges that are in use. -/
def State.queuesOf (s : State) (p : Nat) : List Nat := (s.queues.map (fun x => x.1)).filter (fun q => s.queueInRange p q)
def State.streamsOf (s : State) (p : Nat) : List Nat :=
  (s.streams.filter (fun x => x.2.on && s.streamInRange p x.1)).map (fun x => x.1)

/-- The state after DESTROY. -/
def State.destroy (s : State) (p : Nat) : State :=
  let regs := (s.validRegions.filter (fun x => decide (x.2.field 23 4 = p))).map (fun x => x.1)
  let s := regs.foldl State.freeRegion s
  let s := (s.queuesOf p).foldl State.disableQueue s
  let s := (s.streamsOf p).foldl State.disableStream s
  let s := (s.chipsOf p).foldl State.resetChip s
  let s := (s.resetRange (Reg.cadPCtrl p) 0x20).wr (.memQuotaLock p) 0
  (s.wr (.hifPartMiscLock p) 0).wr (.hifPartStatusState p) 0

/-- PARTITION_DESTROY. -/
def execPartitionDestroy (pf : Bool) (p : Nat) (s : State) : Host.Outcome State Fault Refusal :=
  if s.barShut pf then .next (s.barAnswer pf) else
  .next (s.partOp pf p 8 [1] noCheck (fun s => s.destroy p))

/-! ## LOAD and RUN -/

/-- PARTITION_LOAD: `others` and `images` are what a restore finds on other chips (R194), `fails` the physical cores that fail
their test at the job boundary. -/
def execPartitionLoad (pf : Bool) (p : Nat) (others : Option (List Nat)) (images : List (List (BitVec 8)))
    (fails : List (Nat × Nat)) (s : State) : Host.Outcome State Fault Refusal :=
  if s.barShut pf then .next (s.barAnswer pf) else
  .next (s.partOp pf p 2 [1] noCheck (fun s =>
    s.loadJob p (s.rd (.hifPartJobObjectId p)) (s.rd (.hifPartJobCpaJobCpa p)) (s.rdBit (.hifPartJobRestore p)) none others images fails))

/-- The state after RUN. -/
def State.runJob (s : State) (p : Nat) : State := ((s.coresOf p).foldl State.resumeCore s).wr (.hifPartStatusState p) 3

/-- PARTITION_RUN. -/
def execPartitionRun (pf : Bool) (p : Nat) (s : State) : Host.Outcome State Fault Refusal :=
  if s.barShut pf then .next (s.barAnswer pf) else
  .next (s.partOp pf p 3 [2] noCheck (fun s => s.runJob p))

/-! ## SUSPEND and RESUME -/

/-- Is a core's step past S, in serial-number order (R415)? -/
def State.stepPassed (s : State) (p : Nat) : Option Nat :=
  let k := s.rd (.hifPartSuspendStep p)
  if (s.coresOf p).any (fun c =>
      let d := (s.pmkStep c + 2 ^ 32 - k) % 2 ^ 32
      decide (0 < d ∧ d < 2 ^ 31)) then some 4 else none

/-- PARTITION_SUSPEND: each core will halt after the STEP_END of step S. -/
def execPartitionSuspend (pf : Bool) (p : Nat) (s : State) : Host.Outcome State Fault Refusal :=
  if s.barShut pf then .next (s.barAnswer pf) else
  .next (s.partOp pf p 4 [3] (fun s => s.stepPassed p) (fun s =>
    let k := s.rd (.hifPartSuspendStep p)
    (((s.modJob p (fun j => { j with suspend := some k })).wr (.hifPartStatusBusy p) 1).setHaltAt (s.haltAt ++ [(p, k)]))))

/-- The feeds that a partition's job has claimed. -/
def State.feedsOf (s : State) (p : Nat) : List Nat := (List.range 64).filter (fun f => bitAt (s.job p).feeds f)

/-- PARTITION_SUSPENDED: every core has halted after step S and the governor has published it: everything pauses, and the
contents of the off-load regions are discarded (R186). -/
def execPartitionSuspended (p : Nat) (s : State) : Host.Outcome State Fault Refusal :=
  if p ≥ 16 then .next s
  else
    let s := s.dropSuspend p
    match (s.job p).suspend with
    | none => .next s
    | some k =>
      let halted := (s.coresOf p).all (fun c => decide ((s.core c).pstate = 2 ∧ s.pmkStep c % 2 ^ 32 = (k + 1) % 2 ^ 32))
      let published := !(s.rdBit (.pgvCtxCtrlEnable p)) || decide (s.rd (.pgvStatusPublishedStep p) = k)
      if halted && published then
        let s := (s.coresOf p).foldl (fun (s : State) c => s.wr (.pmkCtrlHalt c) 1) s
        let s := s.wr (.pgvCtxCtrlPause p) 1
        let s := (s.feedsOf p).foldl (fun (s : State) f => s.wr (.cadFeedCtrlPause f) 1) s
        let s := (s.chipsOf p).foldl (fun (s : State) n => s.pauseChan (chipKey n)) s
        let s := (s.moveObjects p objActive objFrozen).modJob p (fun j => { j with suspend := none })
        let s := ((s.discardOffload p).wr (.hifPartStatusState p) 4).wr (.hifPartStatusBusy p) 0
        .next (s.setHaltAt (s.haltAt.filter (fun x => !(decide (x.1 = p)))))
      else .next s

/-- PARTITION_RESUME. -/
def execPartitionResume (pf : Bool) (p : Nat) (s : State) : Host.Outcome State Fault Refusal :=
  if s.barShut pf then .next (s.barAnswer pf) else
  .next (s.partOp pf p 5 [4] noCheck (fun s =>
    let s := s.wr (.pgvCtxCtrlPause p) 0
    let s := (s.feedsOf p).foldl (fun (s : State) f => s.wr (.cadFeedCtrlPause f) 0) s
    let s := (s.chipsOf p).foldl (fun (s : State) n => s.resumeChan (chipKey n)) s
    (s.moveObjects p objFrozen objActive).runJob p))

/-! ## END (R323) -/

/-- The segments that core `c` has started and whose completions have not been posted. -/
def State.openSegments (s : State) (c : Nat) : List SegRec :=
  ((s.core c).segOpen.drop (if s.reportWaits c then 1 else 0)).map (fun r => r.record)

/-- The state in which the completions that wait for room report no segment of the cores `cs`: those cores' segments are over. -/
def State.detachWaiting (s : State) (cs : List Nat) : State :=
  let free (x : Completion) : Completion := if x.core.any (fun c => cs.contains c) then { x with core := none } else x
  s.setStreams (s.streams.map (fun y => (y.1, { y.2 with waiting := y.2.waiting.map free })))

/-- The state after every segment record of the job that is not complete has been completed with HQ_JOB_ENDED (R323): for each
core those it has started, those in its queue and those that the dispatcher holds for it, in the order in which they were taken. One whose
completion waits at a full stream already is complete. -/
def State.endSegments (s : State) (p : Nat) : State :=
  let rs := (s.coresOf p).flatMap (fun c =>
    s.openSegments c ++ (s.core c).segq ++ s.dispatch.filter (fun r => decide (r.core = c)))
  let rest := s.dispatch.filter (fun r => decide (r.part = p) && !(rs.contains r))
  (rs ++ rest).foldl (fun (s : State) r => s.dropSegment r Code.hqJobEnded.val) (s.detachWaiting (s.coresOf p))

/-- The state after a function-level reset has completed: READBACK is cleared by the last of those that overlap (R364). The mark
16 is the physical function's. -/
def State.flrDone (s : State) (p : Nat) : State :=
  let l := s.referee.flr.erase p
  let l := if l = [16] then [] else l
  let s := (s.setReferee ({ s.referee with flr := l }))
  if l.isEmpty ∧ s.rdBit .refReadyReady = true then s.wr .dmaModeReadback 0 else s

/-- The state after END has run its steps for a drained job. -/
def State.finishEnd (s : State) (p : Nat) (e : Ending) : State :=
  let s := s.endSegments p
  let s := (s.queuesOf p).foldl State.disableQueue s
  let s := s.jobEndObjects p
  let j := s.job p
  let s := s.releaseJob p (j.regions.filter (fun n => !(j.keep.contains n)))
  let s := ((s.jobBoundary e.fails).requestPlan 1).wr (.hifPartStatusBusy p) 0
  let s := if e.flr = 2 then s.destroy p else s
  if e.flr = 0 then s else s.flrDone p

/-- Has nothing of the job's cores anything left in flight? -/
def State.drained (s : State) (p : Nat) : Bool :=
  (s.coresOf p).all (fun c => (s.core c).inflight.isEmpty && (s.core c).arbs.isEmpty)

/-- The state after END has begun: the cores halt; a drained job ends at once, another when its commands have retired. -/
def State.beginEnd (s : State) (p : Nat) (e : Ending) : State :=
  let s := (s.coresOf p).foldl (fun (s : State) c => (s.wr (.pmkCtrlHalt c) 1).haltCore c 1) s
  let s := (s.setHaltAt (s.haltAt.filter (fun x => !(decide (x.1 = p)))))
  if s.drained p then s.finishEnd p e
  else (s.modJob p (fun j => { j with suspend := none, ending := some e })).wr (.hifPartStatusBusy p) 1

/-- The state after the ENDs whose jobs have drained have finished. -/
def State.endTick (s : State) : State :=
  (List.range 16).foldl (fun (s : State) p =>
    match (s.job p).ending with
    | some e => if s.drained p then s.finishEnd p e else s
    | none => s) s

/-- PARTITION_END. -/
def execPartitionEnd (pf : Bool) (p : Nat) (fails : List (Nat × Nat)) (s : State) : Host.Outcome State Fault Refusal :=
  if s.barShut pf then .next (s.barAnswer pf) else
  .next (s.partOp pf p 6 [2, 3, 4, 5, 6] noCheck (fun s => s.beginEnd p ⟨fails, 0⟩))

/-! ## RESTART (R322) -/

/-- The state after RESTART: the balance is checked (R236), the load is undone but for its KEEP regions, off-load regions lose their contents (R186),
and the same source is loaded with RESTORE. -/
def State.restart (s : State) (p : Nat) (others : Option (List Nat)) (images : List (List (BitVec 8)))
    (fails : List (Nat × Nat)) : State :=
  let s := (s.endSegments p).jobEndObjects p
  let j := s.job p
  let s := (s.undoJob p (j.regions.filter (fun n => !(j.keep.contains n)))).discardOffload p
  s.loadJob p j.object j.source true j.complete others images fails

/-- PARTITION_RESTART. -/
def execPartitionRestart (pf : Bool) (p : Nat) (others : Option (List Nat)) (images : List (List (BitVec 8)))
    (fails : List (Nat × Nat)) (s : State) : Host.Outcome State Fault Refusal :=
  if s.barShut pf then .next (s.barAnswer pf) else
  .next (s.partOp pf p 7 [5, 6] noCheck (fun s => s.restart p others images fails))

/-- The state after the referee has run the job that it restarted, if the membership is complete (R321). -/
def State.autoRun (s : State) (p : Nat) : State :=
  if (s.job p).autoRun = true ∧ s.partState p = 2 ∧
      (s.rdBit (.redPGroupBound p) = false ∨ s.rdBit (.redPGroupComplete p) = true) then
    ((s.modJob p (fun j => { j with autoRun := false })).runJob p).raise .hqJobRestarted unitPcie p
      (payload [(16, 4, ((s.job p).complete).getD 0)])
  else s

/-- AUTO_RESTART: a STOPPED job that may restart is restarted; it runs once its group is complete. -/
def execAutoRestart (p : Nat) (others : Option (List Nat)) (images : List (List (BitVec 8))) (fails : List (Nat × Nat))
    (s : State) : Host.Outcome State Fault Refusal :=
  let n := s.rd (.hifPartStatusRestarts p)
  if p ≥ 16 ∨ s.rdBit (.hifPartStatusBusy p) = true then .next s
  else if s.partState p = 6 ∧ s.rdBit (.hifPartMiscAutoRestart p) = true ∧ n < s.rd (.hifPartMiscRestartLimit p) ∧
      s.rd (.hifPartStatusStopCause p) ≠ Code.intReplaceChip.val then
    let s := (s.restart p others images fails).wr (.hifPartStatusRestarts p) (n + 1)
    if s.partState p = 2 then .next ((s.modJob p (fun j => { j with autoRun := true })).autoRun p) else .next s
  else .next (s.autoRun p)

/-! ## Function-level resets (R324, R362, R364) -/

/-- The state after a partition has met an owner reset (R232, R239, R377). -/
def State.resetOwner (s : State) (p : Nat) : State :=
  let hs := s.hartsOf p
  let s := s.ownerReset p (fun _ => true)
  let s := hs.foldl (fun (s : State) h => s.wr (.synHartIrqLock h) 0) s
  s.mbxPartitionReset p

/-- The state after the function-level reset of a partition has begun: kind 1 through its VF, 2 through the physical function. -/
def State.flrPart (s : State) (p kind : Nat) (fails : List (Nat × Nat)) : State :=
  let s := (((s.resetOwner p).wr .dmaModeReadback 1).setReferee ({ s.referee with flr := s.referee.flr.erase p ++ [p] }))
  if s.partState p ≥ 2 then
    (match (s.job p).ending with
      | some e => s.modJob p (fun j => { j with ending := some { e with flr := max e.flr kind } })
      | none => s.beginEnd p ⟨fails, kind⟩)
  else
    let s := if kind = 2 ∧ s.partState p = 1 then s.destroy p else s
    s.flrDone p

/-- The state with the configuration of function `fn` reset: D0, no ATS, MSI-X disabled with its table masked (R298, R308, R313). -/
def State.resetFunction (s : State) (fn : Nat) : State :=
  let s := (s.setLowPower (s.lowPower.filter (fun x => !(decide (x = fn))))).setAtsOn (s.atsOn.filter (fun x => !(decide (x = fn))))
  (s.setMsix (s.msix.filter (fun x => !(decide (x.1 / 2048 = fn))))).setMsixCtl (s.msixCtl.filter (fun x => !(decide (x.1 = fn))))

/-- VF_FLR: a function-level reset of the VF of partition `p`; before READY it completes at once and resets the function only (R353). -/
def execVfFlr (p : Nat) (fails : List (Nat × Nat)) (s : State) : Host.Outcome State Fault Refusal :=
  if p ≥ 16 then .next s
  else if s.rdBit .refReadyReady = false then .next (s.resetFunction (p + 1))
  else .next ((s.resetFunction (p + 1)).flrPart p 1 fails)

/-- The state after a function-level reset of the physical function. -/
def State.pfReset (s : State) (fails : List (Nat × Nat)) : State :=
  if s.rdBit .refReadyReady = false then s
  else
    let s := ((s.wr .dmaModeReadback 1).setReferee ({ s.referee with flr := s.referee.flr.erase 16 ++ [16] }))
    let s := s.mbxReset idPf
    let s := ((List.range 16).filter (fun p => decide (s.partState p ≠ 0))).foldl (fun (s : State) p => s.flrPart p 2 fails) s
    let s := ((s.streams.filter (fun x => x.2.on && decide (s.streamPart x.1 = 0xF0))).map (fun x => x.1)).foldl State.disableStream s
    let s := (((s.queues.filter (fun x => decide (x.2 ≠ 0))).map (fun x => x.1)).filter (fun q =>
      (List.range 16).all (fun p => !(s.queueInRange p q)))).foldl State.disableQueue s
    if s.referee.flr.all (fun x => decide (x = 16)) then s.flrDone 16 else s

/-- PF_FLR. -/
def execPfFlr (fails : List (Nat × Nat)) (s : State) : Host.Outcome State Fault Refusal :=
  .next (((List.range 17).foldl (fun (s : State) fn => s.resetFunction fn) s).pfReset fails)

/-- FLR_DRAIN_TIMEOUT (R362): 50 ms after its reset began, a partition has not drained: its agents are reset in place. -/
def execFlrDrainTimeout (p : Nat) (s : State) : Host.Outcome State Fault Refusal :=
  match (s.job p).ending with
  | none => .next s
  | some e =>
    if p ≥ 16 ∨ e.flr = 0 ∨ s.drained p = true then .next s
    else
      let s := (s.chipsOf p).foldl State.resetChip (s.raise .mgtForcedReset unitReferee p (payload [(16, 1, p)]))
      .next (s.finishEnd p e)

end Sys2Proof.Machine
end

