-- ==== Sys2Proof/Machine/Referee.lean ====
section
/-!
DEFINITION. The referee (chapter 14): its faults (R351), boot and self-test (R352 to R356), the dugout's causes (R357), the
firmware image (R366 to R369), resets (R361 to R365) and wedged blocks (R363).
-/
namespace Sys2Proof.Machine

/-! ## Power good (R32, R352) -/

/-- REFEREE_POWER_GOOD: the referee rail is good: DTIME starts, boot begins, SLOT_ID is sampled (R424). `low` is the level of
PERST_N: low holds the PCIe controller in reset until its release (R421). -/
def execRefereePowerGood (slot : Nat) (low : Bool) (s : State) : Host.Outcome State Fault Refusal :=
  if s.referee.entry = false ∨ s.referee.power = true then .next s
  else .next ((s.setDtime 0).setReferee ({ s.referee with power := true, bootAt := 0, phaseAt := 0, slotId := slot % 32, perst := low, released := !low }))

/-! ## Firmware images (R366, R367) -/

/-- The `n` bytes of an image at an offset, and as a number. -/
def imgBytes (img : List Host.Cell) (off n : Nat) : List (BitVec 8) := Mem.readBytes img off n
def imgNat (img : List Host.Cell) (off n : Nat) : Nat := natOfBytes (imgBytes img off n)

/-- The length of an image by its PAYLOAD_LENGTH. -/
def imgLength (img : List Host.Cell) : Nat := 12288 + imgNat img 16 8

/-- Hash `k` of the fuse array: 0 vendor, 1 to 4 customer slots, 5 identity (REF_FUSE_HASH). -/
def State.fuseHash (s : State) (k : Nat) : Nat :=
  (List.range 4).foldl (fun n w => n + (s.reg (Reg.refFuseHash k w)).toNat * 2 ^ (64 * w)) 0

/-- MAGIC, VERSION, lengths and zero fields are as Table 14-6 gives. -/
def imgLayoutOk (img : List Host.Cell) : Bool :=
  let slot := imgNat img 6 1
  decide (imgNat img 0 4 = 0x57465A56 ∧ imgNat img 4 2 = 1 ∧ (slot < 4 ∨ slot = 0xFF) ∧ imgNat img 7 1 < 16 ∧ imgNat img 8 4 ≤ 64 ∧
    imgNat img 12 4 = 0 ∧ 1 ≤ imgNat img 16 8 ∧ imgNat img 16 8 ≤ 1572864 ∧ imgNat img 56 8 = 0 ∧ imgNat img 10586 1702 = 0 ∧
    (slot = 0xFF → imgNat img 5325 5261 = 0))

/-- The rules of an image in their order, with the reason of MGT_IMAGE_INVALID that each failure gives (R367). -/
def State.imageRules (s : State) (img : List Host.Cell) : List (Nat × Bool) :=
  let d := sha3 (imgBytes img 0 64)
  let slot := imgNat img 6 1
  let live (k : Nat) : Bool := bitAt (s.rd .refFwProvisioned) k && !(bitAt (s.rd .refFwRevoked) k)
  let any := (List.range 4).any live
  [(1, imgLayoutOk img),
   (2, decide (imgBytes img 24 32 = sha3 (imgBytes img 12288 (imgNat img 16 8)))),
   (3, decide (sha3Nat (imgBytes img 64 1952) = s.fuseHash 0)),
   (4, Config.mlDsaVerify (imgBytes img 64 1952) d (imgBytes img 2016 3309)),
   (5, !any || (decide (slot < 4) && live slot && decide (sha3Nat (imgBytes img 5325 1952) = s.fuseHash (slot + 1)))),
   (6, !any || Config.mlDsaVerify (imgBytes img 5325 1952) d (imgBytes img 7277 3309)),
   (7, decide (s.rd .refFwFusedSvn ≤ imgNat img 8 4)),
   (8, !(decide (slot < 4) && bitAt (imgNat img 7 1) slot))]

/-- The reason for which an image is not valid. -/
def State.imageReason (s : State) (img : List Host.Cell) : Option Nat :=
  ((s.imageRules img).find? (fun x => !x.2)).map (fun x => x.1)

/-- The state after MGT_IMAGE_INVALID with a reason. -/
def State.imageInvalid (s : State) (reason : Nat) : State :=
  s.raise .mgtImageInvalid unitReferee noPart (payload [(16, 1, reason)])

/-! ## Boot phases (R352, Table 14-1) -/

/-- The longest time of a phase in ms. -/
def phaseLimit (n : Nat) : Nat := [10, 350, 1000, 8000, 30000, 1000, 2000, 500].getD n 0

/-- Does a boot run on a powered referee? -/
def State.booting (s : State) : Bool := s.referee.power && s.rdBit .refReadyBooting

/-- The state after a test of the present phase has failed without repair: CAUSE and unit (Table 14-2). -/
def State.bootFail (s : State) (cause unit : Nat) : State := s.enterDugout 1 unit (s.rd .refReadyPhase) cause

/-- The state after a repair has been recorded: unit, action and detail (Table 14-3). -/
def State.repaired (s : State) (unit action detail : Nat) : State :=
  (s.setReferee ({ s.referee with repairs := s.referee.repairs ++ [(unit, action, detail)] }))

/-- The state after the present phase's time has been written down; phase 0 counts the boot. -/
def State.endPhase (s : State) : State :=
  let n := s.rd .refReadyPhase
  let s := (s.setReferee ({ s.referee with durations := s.referee.durations ++ [(s.dtime - s.referee.phaseAt) / 1000000] }))
  if n = 0 then (s.count (Reg.refCnt 3) 1).wr .dmaModeReadback 1 else s

/-- The units of the parts that a test names (Table 1-9). -/
def unitT1 (d b : Nat) : Nat := unitId d (48 + b / 32) (b % 32)
def unitT2 (c : Nat) : Nat := unitId (12 + c / 32) (c / 4 % 8) (c % 4)
def unitFlash (ch : Nat) : Nat := unitId (12 + ch / 4) (8 + ch % 4) 0

/-! ## Repairs (R354, Table 14-2) -/

/-- The state after a physical core has failed; `fails` are all the physical cores that fail here. A core that serves is benched
for a libero, or there is none; a libero that serves none is benched. -/
def State.bootCore (s : State) (fails : List (Nat × Nat)) (d k : Nat) : State :=
  let u := unitSlot d k
  match s.coreAt d k with
  | some c =>
    if ((s.freeLiberos d).filter (fun x => !(fails.contains (d, x)))).isEmpty then s.bootFail 1 u
    else
      let r := s.benchCore fails 0 c
      r.1.repaired u 1 (r.2.getD 0)
  | none =>
    let s := if s.benched.contains (d, k) then s else (s.setBenched (s.benched ++ [(d, k)]))
    if s.referee.repairs.any (fun x => decide (x.1 = u)) then s else s.repaired u 1 0

/-- The state after a tier-1 pseudo-channel has failed. -/
def State.bootT1 (s : State) (d b : Nat) : State :=
  let m := s.rd (.memT1MapInService d)
  if d ≥ 8 ∨ b ≥ 64 ∨ bitAt m b = false then s
  else if popCount 64 m ≤ 48 then s.bootFail 2 (unitT1 d b)
  else ((s.setT1Map d (m - 2 ^ b)).mappedOut 1 d [b]).repaired (unitT1 d b) 2 0

/-- The state after a tier-2 channel has failed. -/
def State.bootT2 (s : State) (c : Nat) : State :=
  let m := s.t2Map
  if c ≥ 128 ∨ bitAt m c = false then s
  else if popCount 128 m ≤ 120 then s.bootFail 3 (unitT2 c)
  else ((s.setT2Map (m - 2 ^ c)).mappedOut 2 0xFF [c]).repaired (unitT2 c) 3 0

/-- The state after a flash channel has failed: the first is served by RECONSTRUCT (R260). -/
def State.bootFlash (s : State) (ch : Nat) : State :=
  if ch ≥ 16 then s
  else if s.flashDown.any (fun x => decide (x ≠ ch)) then s.bootFail 4 (unitFlash ch)
  else (State.after s (execFlashChannelFail ch (s.setFlashDown []))).repaired (unitFlash ch) 4 0

/-- The state after one finding of a self-test; nothing follows the dugout. -/
def State.bootFinding (s : State) (fails : List (Nat × Nat)) (f : BootFinding) : State :=
  if s.rdBit .refReadyDugout then s
  else
    match f with
    | .core d k => if d < 8 ∧ k < 34 then s.bootCore fails d k else s
    | .t1 d b => s.bootT1 d b
    | .t2 c => s.bootT2 c
    | .flash ch => s.bootFlash ch
    | .lane n l => if n < 18 ∧ l < 4 then s.repaired (unitPort n l) 5 0 else s
    | .block u => s.bootFail 5 u
    | .refArea => s.bootFail 6 unitReferee
    | .bootArea => s.bootFail 4 (unitFlash 0)
    | .image => s
    | .fuse _ => s
    | .record k => s.setLearned (s.learned.eraseIdx k)

/-- The cores among the findings. -/
def failedCores (l : List BootFinding) : List (Nat × Nat) :=
  l.filterMap (fun f => match f with
    | .core d k => some (d, k)
    | _ => none)

/-- The state after the findings of a phase, in order. -/
def State.bootFindings (s : State) (l : List BootFinding) : State :=
  l.foldl (fun (s : State) f => s.bootFinding (failedCores l) f) s

/-! ## What the phases do -/

/-- The state after ROM recovery has been entered for a reason (R360). -/
def State.enterRecovery (s : State) (reason : Nat) : State :=
  let s := (s.imageInvalid reason).raise .mgtRecovery unitReferee noPart (payload [(16, 1, reason)])
  (s.wr .refReadyRecovery 1).bootEnds 2 Code.mgtRecovery.val unitReferee

/-- The SHA3-256 of the identity public key that ID_SEED gives (R372). -/
def State.identityHash (s : State) : Nat :=
  sha3Nat (Config.mlDsaKeygen (sha3 (bytesOfNat 32 s.referee.idSeed ++ textID)))

/-- Phase 1: the image is read and verified; control passes to firmware, which derives the identity key (R360, R372). -/
def State.bootFirmware (s : State) (unreadable : Bool) : State :=
  let img := s.referee.image
  match (if unreadable then some 1 else s.imageReason img) with
  | some r => s.enterRecovery r
  | none =>
    let s := (s.setReferee ({ s.referee with running := img }))
    let s := (s.wr .refFwSvn (imgNat img 8 4)).wr .refFwSlot (imgNat img 6 1)
    if s.identityHash = s.fuseHash 5 then s else s.enterDugout 8 unitReferee 0 0

/-- The state with the margin-plan record of the referee area in force, if it holds one (R398). -/
def State.loadPlan (s : State) : State :=
  let bs := Mem.readBytes s.referee.plan 0 4096
  let n := natOfBytes bs
  if bitsAt n 0 32 = 0x504D5A56 ∧ bitsAt n (8 * 4088) 64 = (crc64 (bs.take 4088)).toNat then
    (List.range 512).foldl (fun (s : State) k => s.setReg (Reg.mgnPlan k) (BitVec.ofNat 64 (bitsAt n (64 * k) 64))) s
  else s

/-- Phase 4 before its findings: the maps without the units that the planner has retired (R250), tier 3, whose catalogue names the referee's own area
(R258). -/
def State.bootMemories (s : State) : State :=
  let s := s.loadPlan
  let s := (List.range 8).foldl (fun (s : State) d => s.setT1Map d (2 ^ 64 - 1 - s.planAt (1664 + 8 * d) 8)) s
  let s := s.setT2Map (2 ^ 128 - 1 - s.planAt 1728 16)
  let s := if s.flash.any (fun x => decide (x.2.type = 4)) then s
    else s.setObject (freeObject s.flash) { FlashObj.empty with part := noPart, type := 4, state := 1, length := Config.refereeAreaLength }
  (s.wr .memCapacityT3Units 1396).wr .memCapacityT3Degraded (flag (!s.flashDown.isEmpty))

/-- The state after the revocation fuses of the running image's REVOKE have been burned (R368); `l` names burns that fail. -/
def State.burnRevocations (s : State) (l : List BootFinding) : State :=
  (List.range 4).foldl (fun (s : State) k =>
    if bitAt (imgNat s.referee.running 7 1) k = false ∨ bitAt (s.rd .refFwRevoked) k = true then s
    else if l.contains (.fuse k) then s.raise .mgtFuseFail unitReferee noPart (payload [(16, 1, 6)])
    else s.wr .refFwRevoked (s.rd .refFwRevoked + 2 ^ k)) s

/-- Phase 7: the margin plan, READBACK cleared, READY, MGT_READY. -/
def State.bootReady (s : State) (l : List BootFinding) (plan : PlanInput) : State :=
  let old := s.stateSensor
  let s := (((s.applyPlan plan 0).wr .dmaModeReadback 0).wr .refReadyReady 1).bootEnds 0 0 0
  let s := s.raise .mgtReady unitReferee noPart
    (payload [(16, 4, s.rd .refReadyElapsedMs), (20, 1, s.rd .refReadyDegraded), (21, 1, s.rd .refReadyFlagged)])
  (s.burnRevocations l).stateEvent old

/-- The state after a phase's work has been done with what its tests found. -/
def State.bootWork (s : State) (n : Nat) (l : List BootFinding) (plan : PlanInput) : State :=
  let s := if n = 4 then s.bootMemories else s
  let s := s.bootFindings l
  let s := if n = 4 ∧ s.rdBit .refReadyDugout = false then s.setCapacity else s
  if s.rdBit .refReadyDugout then s
  else if n = 0 then (s.setReferee ({ s.referee with linkUp := s.referee.released && !s.referee.perst }))
  else if n = 1 then s.bootFirmware (l.contains .image)
  else if n = 7 then s.bootReady l plan
  else s

/-- BOOT_PHASE_DONE: the phase that runs ends, with what its tests found and, for phase 7, what the plan is made of; the end of phase 0
finds the host rail in regulation (R420); a phase past
its longest time is a self-test failure. -/
def execBootPhaseDone (findings : List BootFinding) (plan : PlanInput) (s : State) : Host.Outcome State Fault Refusal :=
  if s.booting = false then .next s
  else
    let n := s.rd .refReadyPhase
    let late := decide (s.dtime - s.referee.phaseAt > phaseLimit n * 1000000)
    let s := s.endPhase
    let s := if n = 0 then s.setReferee { s.referee with clkreq := true } else s
    if late then .next (s.bootFail 7 unitReferee)
    else
      let s := s.bootWork n findings plan
      if s.booting = false ∨ n = 7 then .next s
      else .next ((s.wr .refReadyPhase (n + 1)).setReferee ({ s.referee with phaseAt := s.dtime }))

/-- BOOT_PHASE_TIMEOUT: the longest time of the phase that runs has passed. -/
def execBootPhaseTimeout (s : State) : Host.Outcome State Fault Refusal :=
  if s.booting = false then .next s
  else
    let due := s.referee.phaseAt + phaseLimit (s.rd .refReadyPhase) * 1000000
    .next (((s.setDtime (max s.dtime due)).endPhase).bootFail 7 unitReferee)

/-! ## Faults that lead to the dugout (R351, R357) -/

/-- WATCHDOG_EXPIRY: a write of the boot area is cut off: the next boot finds no valid image (R369). -/
def execWatchdogExpiry (s : State) : Host.Outcome State Fault Refusal :=
  if s.referee.power = false then .next s
  else
    let cut := s.referee.writing
    let due := s.referee.resetDue
    let r := if cut then { s.referee with image := [], writing := false, endPath := none, resetDue := none } else s.referee
    let s := (s.setReferee r).enterDugout 2 unitReferee 0 0
    match due with
    | some source => .next (if cut then s.fullReset source else s)
    | none => .next s

/-- REFEREE_SRAM_ERROR: an ECC error of the referee's SRAM at an address. -/
def execRefereeSramError (double : Bool) (addr : Nat) (s : State) : Host.Outcome State Fault Refusal :=
  if s.referee.power = false then .next s
  else if double then .next (s.enterDugout 3 unitReferee 0 0)
  else .next ((s.count (Reg.refCnt 0) 1).raise .mgtRefCorrected unitReferee noPart (payload [(16, 4, addr)]))

/-- THERMAL_TRIP (R392): a sensor reads at or above its trip point, in 1/16 °C. A rail fault of the same millisecond gives way to
it. -/
def execThermalTrip (sensor : Nat) (reading : Int) (s : State) : Host.Outcome State Fault Refusal :=
  match throttleOf sensor with
  | none => .next s
  | some x =>
    if s.referee.power = false ∨ reading < 16 * x.2 then .next s
    else .next (s.tripped sensor)

/-- RAIL_FAULT (R382): a rail is a fault; `unit` is its die's, or a NAND package's. -/
def execRailFault (unit : Nat) (s : State) : Host.Outcome State Fault Refusal :=
  .next (if s.referee.power then s.enterDugout 5 unit 0 0 else s)

/-- UNCORRECTABLE_CONTROL_STATE (Table 14-4). -/
def execUncorrectableControlState (unit : Nat) (s : State) : Host.Outcome State Fault Refusal :=
  .next (if s.referee.power then s.enterDugout 7 unit 0 0 else s)

/-! ## Resets (R361, R365, R421) -/

/-- REF_FULL_RESET: FULL_RESET of REF_CTRL is written 1 with a key. -/
def execRefFullReset (key : Nat) (s : State) : Host.Outcome State Fault Refusal :=
  .next (if s.referee.power = true ∧ key = 0xB9 then s.fullReset 0 else s)

/-- REF_RAILS_OFF: RAILS_OFF of REF_CTRL is written 1 with a key. -/
def execRefRailsOff (key : Nat) (s : State) : Host.Outcome State Fault Refusal :=
  .next (if s.referee.power = true ∧ key = 0xB9 then s.enterDugout 6 unitReferee 0 0 else s)

/-- PERST_ASSERT: PERST_N falls. Only a fall after its release counts. -/
def execPerstAssert (fails : List (Nat × Nat)) (s : State) : Host.Outcome State Fault Refusal :=
  if s.referee.perst then .next s
  else
    let t := (s.setReferee ({ s.referee with perst := true }))
    if s.referee.power = false ∨ s.referee.released = false then .next t
    else if s.rdBit .refCtrlPerstFull then .next (t.fullReset 3)
    else .next (((((((t.setLowPower []).setAtc []).setAtsOn []).setMsix []).setMsixCtl []).setReferee ({ t.referee with linkUp := false })).pfReset fails)

/-- PERST_RELEASE: PERST_N rises: link training begins, once phase 0 has enabled the host rail. -/
def execPerstRelease (s : State) : Host.Outcome State Fault Refusal :=
  if s.referee.perst = false then .next s
  else
    let up := s.referee.power && !(s.rdBit .refReadyBooting && decide (s.rd .refReadyPhase = 0))
    .next (s.setReferee ({ s.referee with perst := false, released := s.referee.power || s.referee.released, linkUp := up }))

/-! ## Wedged blocks (R363) -/

/-- The unit of the block that an offset lies in: that of its part, or the referee's for a block without one (Table 1-9). -/
def State.blockUnit (s : State) (a : Nat) : Nat :=
  if a ≥ 0x2000000 then
    let c := (a - 0x2000000) / 0x20000
    let o := a % 0x20000
    s.unitCore c (if o < 0x10000 then slotEngine (o / 0x2000) else engDma (o / 0x100 % 4))
  else
    match a / 0x100000 with
    | 0 | 1 => unitGovernor
    | 3 => if 0x301000 ≤ a ∧ a < 0x305000 then unitChipChannel ((a - 0x301000) / 0x100) else unitReferee
    | 7 => unitPcie
    | 9 => unitLink
    | 11 => unitMailbox ((mbxChannelOf a).getD 0)
    | _ => unitReferee

/-- The master byte of MGT_BUS_TIMEOUT. -/
def masterByte : Master → Nat
  | .hart h => 0x20 + h
  | .vf p => p + 1
  | _ => 0

/-- The state with the block of mark `n`, at BAR0 offset `a`, wedged by an access of a master at `off`. -/
def State.wedge (s : State) (a n off : Nat) (write : Bool) (who : Master) : State :=
  let s := (s.setReferee ({ s.referee with wedged := s.referee.wedged ++ [n] }))
  let s := if n < 16 then s.wr .refWedgedBlocks (s.rd .refWedgedBlocks ||| 2 ^ n) else s.wr .refWedgedCoreSlots 1
  s.raise .mgtBusTimeout (s.blockUnit a) noPart (payload [(16, 8, off), (24, 1, flag write), (25, 1, masterByte who)])

/-- BAR0_BLOCK_TIMEOUT: an access of a function or a hart has not been answered for 1 ms. A VF's offset is one of its page. -/
def execBar0BlockTimeout (who : Master) (off size : Nat) (write : Bool) (s : State) : Host.Outcome State Fault Refusal :=
  let ones (s : State) : State := if write then s else s.reply (some (onesOf size))
  let place : Option Nat := match who with
    | .vf p => vfPage p off
    | _ => some off
  if accessOk off size = false then .next (ones (s.count (Reg.hifCnt 0) 1))
  else if gated who off && !(s.rdBit .refReadyReady) then .next (ones s.gateCount)
  else if who = .referee ∨ alwaysAnswers off = true then .next s
  else
    ifSome (place.bind (fun a => (blockMark a).map (fun n => (a, n)))) (fun x =>
      if s.isWedged x.1 then .next s else .next (ones (s.wedge x.1 x.2 off write who))) (.next s)

end Sys2Proof.Machine
end

