-- ==== Sys2Proof/Machine/Requests.lean ====
section
/-!
DEFINITION. The referee's requests (R378, Table 14-9), attestation (R373), provisioning (R370), SPDM (R373) and PLDM (R379).
-/
namespace Sys2Proof.Machine

/-! ## Requests (R378) -/

/-- The SEQ, the ARG and the 120 bytes of data of a request. -/
def State.reqSeq (s : State) : ReqPath → Nat
  | .channel0 => (s.reg (Reg.mbxChMsg 0 0)).field 16 16
  | .mctp q _ _ => q % 65536
def State.reqArg (s : State) : ReqPath → Nat
  | .channel0 => (s.reg (Reg.mbxChMsg 0 0)).field 32 32
  | .mctp _ a _ => a % 2 ^ 32
def State.reqBody (s : State) : ReqPath → Nat
  | .channel0 => (List.range 15).foldl (fun n i => n + (s.reg (Reg.mbxChMsg 0 (i + 1))).toNat * 2 ^ (64 * i)) 0
  | .mctp _ _ d => d % 256 ^ 120

/-- Has request `req` come by the path? While the boot area is written only RESET is taken (R365); the others wait. -/
def State.reqHere (s : State) (path : ReqPath) (req : Nat) : Bool :=
  s.referee.power && (!s.referee.writing || decide (req = 7)) &&
  match path with
  | .channel0 => s.isPosted 0 && decide ((s.reg (Reg.mbxChMsg 0 0)).field 0 8 = req)
  | .mctp _ _ _ => true

/-- The state after a request has been answered with a code and `len` bytes of data. -/
def State.reqReply (s : State) (path : ReqPath) (req code len data : Nat) : State :=
  let head := req + s.reqSeq path * 2 ^ 16 + len * 2 ^ 32
  let s := s.count (Reg.refCnt 2) 1
  match path with
  | .channel0 =>
    let s := s.setReg (Reg.mbxChMsg 0 0) (BitVec.ofNat 64 head)
    let s := (List.range ((len + 7) / 8)).foldl (fun (s : State) i =>
      s.setReg (Reg.mbxChMsg 0 (i + 1)) (BitVec.ofNat 64 (data / 2 ^ (64 * i)))) s
    s.mbxAcknowledge 0 code
  | .mctp _ _ _ =>
    (s.setOut (s.out ++ [Output.mctp 0x7E (head + code * 2 ^ 64 + data % 256 ^ len * 2 ^ 80) (10 + len)]))

/-- The states that permit a request (Table 14-9). -/
inductive Permit where
  | always
  | ready
  | push
  | notRecovery
  deriving DecidableEq, Repr

/-- Does the present state permit it? An image is pushed in the dugout or in ROM recovery, with the boot area powered (R358,
R369). -/
def State.permits (s : State) : Permit → Bool
  | .always => true
  | .ready => s.rdBit .refReadyReady
  | .push => (s.rdBit .refReadyDugout || s.rdBit .refReadyRecovery) && !s.referee.md0Off
  | .notRecovery => !(s.rdBit .refReadyRecovery)

/-- The state after a request has failed with MGT_REQ_STATE, or with MGT_REQ_INVALID of a kind. -/
def State.reqStateFail (s : State) (path : ReqPath) (req : Nat) : State :=
  (s.raise .mgtReqState unitReferee noPart (payload [(16, 1, req), (17, 1, (s.reg Reg.refReady).field 0 4)])).reqReply path req
    Code.mgtReqState.val 0 0
def State.reqFail (s : State) (path : ReqPath) (req kind : Nat) : State :=
  (s.reqInvalid req kind).reqReply path req Code.mgtReqInvalid.val 0 0

/-- The state after a request: it is here; the state permits it; its argument is good; then it is served. -/
def State.serve (s : State) (path : ReqPath) (req : Nat) (permit : Permit) (argOk : Bool) (act : State → State) : State :=
  if s.reqHere path req = false then s
  else if s.permits permit = false then s.reqStateFail path req
  else if argOk = false then s.reqFail path req 2
  else act s

/-- STATUS. -/
def execStatus (path : ReqPath) (s : State) : Host.Outcome State Fault Refusal :=
  .next (s.serve path 1 .always true (fun s => s.reqReply path 1 0 32 (recordNat
    [(0, 8, s.viewReady.toNat), (8, 8, (s.reg Reg.refDugout).toNat), (16, 8, s.dtime), (24, 8, (s.reg Reg.refFw).toNat)])))

/-- Does the fault log record the event: FAILED or FATAL, an MGT_ code, INT_BENCHED, INT_REPLACE_CHIP, MEM_MAPPED_OUT? -/
def Event.logged (e : Event) : Bool :=
  decide (e.sev ≥ 3 ∨ e.code / 256 = 9 ∨ e.code = Code.intBenched.val ∨ e.code = Code.intReplaceChip.val ∨ e.code = Code.memMappedOut.val)

/-- The last 256 records of the fault log and the number ever written, with the events that no tick has told of yet. -/
def State.logNow (s : State) : List Event × Nat :=
  let new := s.events.filter Event.logged
  let l := s.referee.log ++ new
  (l.drop (l.length - 256), s.referee.logCount + new.length)

/-- The fault log (buffer 1): the number of records ever written, and from byte 64 the last 256, oldest first. -/
def State.faultLog (s : State) : List Host.Cell :=
  let m := Mem.writeBytes [] 0 (bytesOfNat 8 s.logNow.2)
  s.logNow.1.zipIdx.foldl (fun m x => Mem.writeBytes m (64 + 32 * x.2) (bytesOfNat 32 (x.1.bytes 0))) m

/-- A buffer of READ and its size. -/
def State.buffer (s : State) (b : Nat) : Option (List Host.Cell × Nat) :=
  match b with
  | 1 => some (s.faultLog, 8256)
  | 2 => some (s.referee.report, 4096)
  | 3 => some (s.referee.attest, 4096)
  | _ => none

/-- READ. -/
def execRead (path : ReqPath) (s : State) : Host.Outcome State Fault Refusal :=
  let arg := s.reqArg path
  let b := arg / 2 ^ 24
  let o : Nat := arg % 2 ^ 24
  let size : Nat := ((s.buffer b).map (fun x => x.2)).getD 0
  .next (s.serve path 2 (if b = 3 then .ready else .always) (decide (o % 8 = 0 ∧ o < size)) (fun s =>
    s.reqReply path 2 0 120 (natOfBytes (Mem.readBytes (((s.buffer b).map (fun x => x.1)).getD []) o 120))))

/-! ## Attestation (R373, Table 14-8) -/

/-- Values of `w` bits packed from bit 0 on (R38). -/
def packBits (w : Nat) (l : List Nat) : Nat := l.zipIdx.foldl (fun n x => n + (x.1 % 2 ^ w) * 2 ^ (w * x.2)) 0

/-- The width of the elements of a format code. -/
def codeBits (fmt : Nat) : Nat := ((Fmt.ofCode (fmt % 16)).map Fmt.bits).getD 8

/-- The 8 KiB of a learned pattern record (Table 5-5). -/
def Learned.record (x : Learned) : List (BitVec 8) :=
  let two := bitAt x.geom 7
  let kStride := if two then 16 else 32
  let streamScale := (List.range 16).map (fun i => (576 + i, 1, ((x.stream[16 * i]?).map (fun e => e.2)).getD 0x7F))
  let stat := if x.pairs.isEmpty then x.stat.zipIdx.map (fun r =>
      (1024 + kStride * r.2, kStride, packBits (codeBits x.statFmt) (r.1.map (fun e => e.1))))
    else x.pairs.zipIdx.map (fun r => (1024 + 8 * r.2, 8, r.1.1 % 2 ^ 32 + r.1.2 * 2 ^ 32))
  let statScale := (List.range 16).flatMap (fun g => ((x.stat.getD (16 * g) []).take 16).zipIdx.map (fun e =>
    (5120 + 16 * g + e.2, 1, e.1.2)))
  let body := recordNat ([(0, 8, x.dtime), (8, 2, x.unit), (10, 2, x.code), (12, 1, x.geom), (13, 1, x.plane), (14, 1, x.streamFmt),
    (15, 1, x.statFmt), (16, 1, x.block), (17, 2, x.keff), (20, 4, x.good), (24, 4, x.bad),
    (64, 512, packBits (codeBits x.streamFmt) (x.stream.map (fun e => e.1)))] ++ streamScale ++ stat ++ statScale)
  let bs := bytesOfNat 8184 body
  bs ++ bytesOfNat 8 (crc64 bs).toNat

/-- The readable fuse fields in the order of Table 14-7, each in whole bytes. -/
def State.fuseBytes (s : State) : List (BitVec 8) :=
  let words (a n : Nat) : List (BitVec 8) := (List.range n).flatMap (fun i => bytesOfNat 8 (s.reg (a + 8 * i)).toNat)
  words Reg.refSerial 1 ++ (words (Reg.refFuseMap 0) 3).take 20 ++ words (Reg.refFuseBind 0) 5 ++ bytesOfNat 1 (s.rd .refFwDbgOff) ++
    (List.range 5).flatMap (fun k => words (Reg.refFuseHash k 0) 4) ++ bytesOfNat 1 (s.rd .refFwRevoked) ++
    words (Reg.refFuseHash 5 0) 4 ++ bytesOfNat 8 (2 ^ s.rd .refFwFusedSvn - 1) ++ bytesOfNat 1 (flag s.referee.closed) ++
    words (Reg.refFuseVmin 0) 4

/-- The measurements M0 to M19, each of 32 bytes. -/
def State.measurements (s : State) : List Nat :=
  let run := s.referee.running
  [sha3Nat (Mem.readBytes run 0 (imgLength run)), sha3Nat s.fuseBytes, sha3Nat (s.learned.flatMap Learned.record),
   sha3Nat (Mem.readBytes s.referee.plan 0 4096)] ++
  (List.range 16).map (fun p => if (s.job p).loaded then sha3Nat (bytesOfNat 4096 (s.job p).manifest) else 0)

/-- The attestation report on a nonce. -/
def State.attestation (s : State) (nonce : Nat) : Nat :=
  let body := recordNat ([(0, 4, 0x54415A56), (4, 2, 1), (6, 2, s.chipId), (8, 8, s.dtime), (16, 8, (s.reg Reg.refSerial).toNat),
    (24, 2, s.rd .refFwSvn), (26, 2, s.rd .refFwFusedSvn), (28, 1, s.rd .refFwRevoked + 16 * s.rd .refFwProvisioned),
    (29, 1, s.rd .refReadyDegraded + 2 * s.rd .refReadyFlagged + 4 * flag (decide (s.rd .refFwDbgOff % 8 ≠ 7))),
    (64, 32, nonce), (96, 32, s.fuseHash 5)] ++ s.measurements.zipIdx.map (fun x => (128 + 32 * x.2, 32, x.1)))
  let sig := natOfBytes ((Config.mlDsaSign (sha3 (bytesOfNat 768 body))).take 3309)
  body + sig * 256 ^ 768

/-- ATTEST: the report is built into buffer 3. -/
def execAttest (path : ReqPath) (s : State) : Host.Outcome State Fault Refusal :=
  .next (s.serve path 3 .ready true (fun s =>
    (s.setReferee ({ s.referee with attest := recordMem 4096 (s.attestation (s.reqBody path % 256 ^ 32)) })).reqReply path 3 0 0 0))

/-! ## Pushing an image (R369) -/

/-- IMAGE_BEGIN: opens the one session. -/
def execImageBegin (path : ReqPath) (s : State) : Host.Outcome State Fault Refusal :=
  let n := s.reqArg path
  .next (s.serve path 4 .push (decide (12289 ≤ n ∧ n ≤ 1585152)) (fun s =>
    (s.setReferee ({ s.referee with session := some n, staged := [], stagedAt := [] })).reqReply path 4 0 0 0))

/-- IMAGE_DATA: stages 120 bytes; those beyond the declared length are dropped. -/
def execImageData (path : ReqPath) (s : State) : Host.Outcome State Fault Refusal :=
  let o := s.reqArg path
  match s.referee.session with
  | none => .next (if s.reqHere path 5 then s.reqStateFail path 5 else s)
  | some n =>
    .next (s.serve path 5 .push (decide (o % 8 = 0 ∧ o < n)) (fun s =>
      let r := s.referee
      (s.setReferee ({ r with
            staged := Mem.writeBytes r.staged o ((bytesOfNat 120 (s.reqBody path)).take (n - o)),
            stagedAt := (List.range 15).foldl (fun (l : List Nat) i => if l.contains (o / 8 + i) then l else (o / 8 + i) :: l) r.stagedAt })).reqReply path 5 0 0 0))

/-- The reason for which a staged image of declared length `n` is refused: 9 a byte is missing or the length is wrong. -/
def State.stagedReason (s : State) (n : Nat) : Option Nat :=
  let r := s.referee
  if (List.range ((n + 7) / 8)).any (fun i => !(r.stagedAt.contains i)) || decide (n ≠ imgLength r.staged) then some 9
  else s.imageReason r.staged

/-- IMAGE_END: verifies; a good image goes to the boot area, and the answer waits for that write's end. -/
def execImageEnd (path : ReqPath) (s : State) : Host.Outcome State Fault Refusal :=
  match s.referee.session with
  | none => .next (if s.reqHere path 6 then s.reqStateFail path 6 else s)
  | some n =>
    .next (s.serve path 6 .push true (fun s =>
      match s.stagedReason n with
      | some reason =>
        ((s.imageInvalid reason).setReferee ({ s.referee with session := none })).reqReply path 6 Code.mgtImageInvalid.val 0 0
      | none => (s.setReferee ({ s.referee with session := none, writing := true, endPath := some path }))))

/-- BOOT_AREA_WRITE_DONE: the write of the boot area ends; IMAGE_END is answered; a full reset that waits begins. -/
def execBootAreaWriteDone (ok : Bool) (s : State) : Host.Outcome State Fault Refusal :=
  let r := s.referee
  if r.writing = false then .next s
  else
    let due := r.resetDue
    let s := (s.setReferee ({ r with writing := false, endPath := none, resetDue := none, image := (if ok then r.staged else []) }))
    let s := if ok then s else s.imageInvalid 10
    let s := match r.endPath with
      | none => s
      | some path => s.reqReply path 6 (if ok then 0 else Code.mgtImageInvalid.val) 0 0
    match due with
    | none => .next s
    | some source => .next (s.fullReset source)

/-! ## The other requests -/

/-- RESET: answered, then a full reset. -/
def execReset (path : ReqPath) (s : State) : Host.Outcome State Fault Refusal :=
  .next (s.serve path 7 .always true (fun s => (s.reqReply path 7 0 0 0).fullReset (if path = .channel0 then 1 else 2)))

/-- RAILS_OFF. -/
def execRailsOff (path : ReqPath) (s : State) : Host.Outcome State Fault Refusal :=
  .next (s.serve path 8 .notRecovery true (fun s => (s.reqReply path 8 0 0 0).enterDugout 6 unitReferee 0 0))

/-- The state after MGT_FUSE_FAIL of a field of Table 14-7, and the request's failure. -/
def State.fuseFail (s : State) (path : ReqPath) (req field : Nat) : State :=
  (s.raise .mgtFuseFail unitReferee noPart (payload [(16, 1, field)])).reqReply path req Code.mgtFuseFail.val 0 0

/-- SVN_COMMIT: the fused count rises to the running image's SVN; `ok` is whether the burn verifies. -/
def execSvnCommit (path : ReqPath) (ok : Bool) (s : State) : Host.Outcome State Fault Refusal :=
  .next (s.serve path 9 .ready true (fun s =>
    let n := max (s.rd .refFwFusedSvn) (s.rd .refFwSvn)
    if ok then (s.wr .refFwFusedSvn n).reqReply path 9 0 8 n else s.fuseFail path 9 9))

/-- The words and the bits of a customer field of Table 14-7 that stands in registers. -/
def customerField (field slot : Nat) : Option (Nat × Nat) :=
  match field with
  | 1 => some (Reg.refFuseMap 0, 160)
  | 2 => some (Reg.refFuseBind 0, 320)
  | 5 => if slot < 4 then some (Reg.refFuseHash (slot + 1) 0, 256) else none
  | _ => none

/-- Is a customer field all zero? -/
def State.fieldBlank (s : State) (field slot : Nat) : Bool :=
  match field, customerField field slot with
  | 3, _ => decide (s.rd .refFwDbgOff = 0)
  | 10, _ => !s.referee.closed
  | _, some x => (List.range ((x.2 + 63) / 64)).all (fun i => decide (s.reg (x.1 + 8 * i) = 0))
  | _, none => false

/-- The state with a customer field burned. -/
def State.burnField (s : State) (field slot value : Nat) : State :=
  match field, customerField field slot with
  | 3, _ => s.wr .refFwDbgOff (value % 8)
  | 10, _ => (s.setReferee ({ s.referee with closed := decide (value % 2 = 1) }))
  | _, some x =>
    let v := value % 2 ^ x.2
    let s := (List.range ((x.2 + 63) / 64)).foldl (fun (s : State) i => s.setReg (x.1 + 8 * i) (BitVec.ofNat 64 (v / 2 ^ (64 * i)))) s
    if field = 5 ∧ v ≠ 0 then s.wr .refFwProvisioned (s.rd .refFwProvisioned ||| 2 ^ slot) else s
  | _, none => s

/-- PROVISION: over MCTP only, a blank customer field, while PROVISION_CLOSED is 0 (R370): the field's number in byte 0, a
CUST_KEY_HASH slot in byte 1, the value from byte 8. -/
def execProvision (path : ReqPath) (ok : Bool) (s : State) : Host.Outcome State Fault Refusal :=
  let d := s.reqBody path
  let f := d % 256
  let k := d / 256 % 256
  let known := decide (f = 3 ∨ f = 10) || (customerField f k).isSome
  if path = .channel0 ∧ s.reqHere path 10 = true then .next (s.reqFail path 10 3)
  else .next (s.serve path 10 .ready known (fun s =>
    if s.referee.closed = true ∨ s.fieldBlank f k = false then s.reqStateFail path 10
    else if ok then (s.burnField f k (d / 2 ^ 64)).reqReply path 10 0 0 0
    else s.fuseFail path 10 f))

/-! ## SPDM (R373) -/

/-- SPDM_REQUEST: over DOE or MCTP; a request for mutual authentication is answered with ERROR, UnsupportedRequest. ROM
recovery carries none (R360). -/
def execSpdmRequest (doe : Bool) (request : List (BitVec 8)) (pair : Bool) (s : State) : Host.Outcome State Fault Refusal :=
  if s.referee.power = false ∨ s.rdBit .refReadyRecovery = true then .next s
  else
    let bs := if pair then [0x14, 0x7F, 0x07, request.getD 1 0] else Config.spdmResponse s.freeCount request
    let o := if doe then Output.doe (natOfBytes bs) bs.length else Output.mctp 5 (natOfBytes bs) bs.length
    .next ((s.setOut (s.out ++ [o])).setFreeCount (s.freeCount + 1))

/-! ## PLDM (R379) -/

/-- The state after a PLDM response: instance, type, command, completion code and the bytes that follow. -/
def State.pldm (s : State) (inst type cmd cc : Nat) (data : List Nat) : State :=
  if s.referee.power = false ∨ s.rdBit .refReadyRecovery = true then s
  else
    let bs := ([inst % 32, type, cmd, cc] ++ data).map (BitVec.ofNat 8)
    (s.setOut (s.out ++ [Output.mctp 1 (natOfBytes bs) bs.length]))

/-- Is PLDM carried now? -/
def State.pldmOn (s : State) : Bool := s.referee.power && !(s.rdBit .refReadyRecovery)

/-- A number in bytes. -/
def leBytes (n v : Nat) : List Nat := (List.range n).map (fun i => v / 256 ^ i % 256)

def execGetTid (inst : Nat) (s : State) : Host.Outcome State Fault Refusal := .next (s.pldm inst 0 0x02 0 [s.referee.tid])

/-- SET_TID: 0 and 0xFF are no identifiers. -/
def execSetTid (inst tid : Nat) (s : State) : Host.Outcome State Fault Refusal :=
  if tid = 0 ∨ tid ≥ 255 then .next (s.pldm inst 0 0x01 0x02 [])
  else .next ((if s.pldmOn then (s.setReferee ({ s.referee with tid := tid })) else s).pldm inst 0 0x01 0 [])

/-- The versions of the two types and the commands served (Table 14-9a; the numbers of DSP0240 and DSP0248, PRESUMED). -/
def pldmVersion (type : Nat) : Nat := if type = 0 then 0xF1F1F000 else 0xF1F2F000
def pldmCommands (type : Nat) : List Nat :=
  if type = 0 then [1, 2, 3, 4, 5] else if type = 2 then [0x04, 0x11, 0x21, 0x31, 0x32, 0x50, 0x51] else []

/-- Is the type one of the two (R379)? -/
def pldmType (type : Nat) : Bool := decide (type = 0 ∨ type = 2)

def execGetPldmVersion (inst type : Nat) (s : State) : Host.Outcome State Fault Refusal :=
  let v := leBytes 4 (pldmVersion type)
  if pldmType type then
    .next (s.pldm inst 0 0x03 0 (leBytes 4 0 ++ [0x05] ++ v ++ leBytes 4 (crc32 (v.map (BitVec.ofNat 8))).toNat))
  else .next (s.pldm inst 0 0x03 0x83 [])

def execGetPldmTypes (inst : Nat) (s : State) : Host.Outcome State Fault Refusal := .next (s.pldm inst 0 0x04 0 (leBytes 8 0x05))

def execGetPldmCommands (inst type : Nat) (s : State) : Host.Outcome State Fault Refusal :=
  if pldmType type then .next (s.pldm inst 0 0x05 0 (leBytes 32 ((pldmCommands type).foldl (fun n c => n + 2 ^ c) 0)))
  else .next (s.pldm inst 0 0x05 0x83 [])

/-- SET_EVENT_RECEIVER: method 0 disables events, 1 sends them to an address. -/
def execSetEventReceiver (inst method addr : Nat) (s : State) : Host.Outcome State Fault Refusal :=
  if method > 1 then .next (s.pldm inst 2 0x04 0x81 [])
  else
    let r := if method = 1 then some addr else none
    .next ((if s.pldmOn then (s.setReferee ({ s.referee with receiver := r })) else s).pldm inst 2 0x04 0 [])

/-- Is the sensor's die switched off (R358, R379)? -/
def State.sensorOff (s : State) (n : Nat) : Bool :=
  s.rdBit .refReadyDugout && (decide (n = 3 ∨ n = 6 ∨ n = 7) || (s.referee.md0Off && decide (n = 5 ∨ n = 8)))

/-- The reading of a numeric sensor with its size code (0 unsigned byte, 1 signed byte, 2 two bytes) and bytes (Table 14-9b). -/
def State.sensorValue (s : State) (n : Nat) : Nat × Nat × Nat :=
  let t (lo : Nat) : Nat × Nat × Nat := (1, 1, (s.reg Reg.pwrTempMax).field lo 8)
  if n = 1 then t 48 else if n = 2 then t 56
  else if n ≤ 8 then t (8 * (n - 3))
  else if n = 9 then (2, 2, s.rd .pwrStatusInputW) else (2, 2, s.rd .pwrStatusVin)

/-- GET_SENSOR_READING: operational state 0 enabled, 2 unavailable. -/
def execGetSensorReading (inst sensor : Nat) (s : State) : Host.Outcome State Fault Refusal :=
  if sensor = 0 ∨ sensor > 10 then .next (s.pldm inst 2 0x11 0x80 [])
  else
    let v := s.sensorValue sensor
    let off := s.sensorOff sensor
    let now := if 3 ≤ sensor ∧ sensor ≤ 8 then s.platformTemp sensor else 1
    let was := if 3 ≤ sensor ∧ sensor ≤ 8 then s.platformWas sensor else 1
    .next (s.pldm inst 2 0x11 0 ([v.1, if off then 2 else 0, if s.referee.receiver.isSome then 1 else 0, now, was, now] ++
      leBytes v.2.1 (if off then 0 else v.2.2)))

/-- GET_STATE_SENSOR_READINGS. -/
def execGetStateSensorReadings (inst sensor : Nat) (s : State) : Host.Outcome State Fault Refusal :=
  if sensor ≠ 11 then .next (s.pldm inst 2 0x21 0x80 [])
  else .next (s.pldm inst 2 0x21 0 [1, 0, s.stateSensor, s.stateSensor, s.stateSensor])

/-- SET_NUMERIC_EFFECTER_VALUE: the module power cap. -/
def execSetNumericEffecterValue (inst effecter value : Nat) (s : State) : Host.Outcome State Fault Refusal :=
  if effecter ≠ 12 then .next (s.pldm inst 2 0x31 0x80 [])
  else if s.rdBit .refReadyDugout then .next (s.pldm inst 2 0x31 0x04 [])
  else if value < 1500 ∨ value > 3500 then .next (s.pldm inst 2 0x31 0x02 [])
  else .next ((if s.pldmOn then s.wr .pwrCapModuleCap value else s).pldm inst 2 0x31 0 [])

/-- GET_NUMERIC_EFFECTER_VALUE. -/
def execGetNumericEffecterValue (inst effecter : Nat) (s : State) : Host.Outcome State Fault Refusal :=
  let v := leBytes 2 (s.rd .pwrCapModuleCap)
  if effecter ≠ 12 then .next (s.pldm inst 2 0x32 0x80 [])
  else .next (s.pldm inst 2 0x32 0 ([2, 1] ++ v ++ v))

/-- The records of the repository: one for each sensor and for the effecter. -/
def pdrs : List (List (BitVec 8)) := (List.range 12).map (fun i => Config.pdrRecord (i + 1))

/-- GET_PDR_REPOSITORY_INFO. -/
def execGetPdrRepositoryInfo (inst : Nat) (s : State) : Host.Outcome State Fault Refusal :=
  let sizes := pdrs.map List.length
  .next (s.pldm inst 2 0x50 0 ([0] ++ leBytes 26 0 ++ leBytes 4 12 ++ leBytes 4 (sizes.foldl (· + ·) 0) ++
    leBytes 4 (sizes.foldl max 0) ++ [0]))

/-- GET_PDR: handle 0 is the first record's. -/
def execGetPdr (inst handle : Nat) (s : State) : Host.Outcome State Fault Refusal :=
  let h := if handle = 0 then 1 else handle
  if h > 12 then .next (s.pldm inst 2 0x51 0x82 [])
  else
    let bs := Config.pdrRecord h
    .next (s.pldm inst 2 0x51 0 (leBytes 4 (if h = 12 then 0 else h + 1) ++ leBytes 4 0 ++ [0x05] ++ leBytes 2 bs.length ++
      bs.map BitVec.toNat))

/-- PLDM_UNSUPPORTED: another command of a supported type, or another type. -/
def execPldmUnsupported (inst type cmd : Nat) (s : State) : Host.Outcome State Fault Refusal :=
  if pldmType type = false then .next (s.pldm inst type cmd 0x20 [])
  else if (pldmCommands type).contains cmd then .next s
  else .next (s.pldm inst type cmd 0x05 [])

/-- PLDM_EVENT_RETRY: an event message is acknowledged, or 1 s has passed: it is sent again, three times at most. -/
def execPldmEventRetry (id : Nat) (acked : Bool) (s : State) : Host.Outcome State Fault Refusal :=
  let r := s.referee
  match r.platform.find? (fun e => decide (e.id = id)) with
  | none => .next s
  | some e =>
    let rest := r.platform.filter (fun x => !(decide (x.id = id)))
    if acked = true ∨ e.tries ≥ 3 then .next (s.setReferee ({ r with platform := rest }))
    else .next ((s.setReferee ({ r with platform := rest ++ [{ e with tries := e.tries + 1 }] })).setOut (s.out ++ [Output.mctp 1 e.bytes e.len]))

end Sys2Proof.Machine
end

