-- ==== Sys2Proof/Machine/Bus.lean ====
section
/-!
DEFINITION. Register space as its masters reach it (R7, R8, R300, R353, R358, R363, R416, R428).
-/
namespace Sys2Proof.Machine

/-! ## Registers whose write starts an operation of the referee or of a partition -/

/-- REF_CTRL: PERST_FULL; RAILS_OFF and FULL_RESET with KEY in the same write (R357, R361). -/
def State.writeRefCtrl (s : State) (x : Wr) : State :=
  let s := s.plainWrite x
  let key := x.bits 8 8
  let s := if x.one 2 then s.after (execRefRailsOff key s) else s
  if x.one 1 then s.after (execRefFullReset key s) else s

/-- HIF_PART_OP of partition `p` (R316, R317). A LOAD or RESTART written so finds no images on other chips, and no core fails its
test. -/
def State.writePartOp (s : State) (x : Wr) (p : Nat) : State :=
  if x.covers 0 = false then s
  else if bitsAt x.v 4 60 ≠ 0 then (if s.rdBit (.hifPartStatusBusy p) then s else s.partRefused p (x.bits 0 4) 5)
  else
    match x.bits 0 4 with
    | 1 => s.after (execPartitionCreate true p s)
    | 2 => s.after (execPartitionLoad true p none [] [] s)
    | 3 => s.after (execPartitionRun true p s)
    | 4 => s.after (execPartitionSuspend true p s)
    | 5 => s.after (execPartitionResume true p s)
    | 6 => s.after (execPartitionEnd true p [] s)
    | 7 => s.after (execPartitionRestart true p none [] [] s)
    | 8 => s.after (execPartitionDestroy true p s)
    | op => if s.rdBit (.hifPartStatusBusy p) then s else s.partRefused p op 5

/-- The state after a write has reached its register, in all of register space. -/
def State.registerWrite (s : State) (x : Wr) : State :=
  if x.a = Reg.refCtrl then s.writeRefCtrl x
  else
    match arrayIndex (Reg.hifPartOp 0) 0x100 16 x.a with
    | some p => s.writePartOp x p
    | none => s.regWrite x

/-! ## Accesses -/

/-- Is the access one of a function in D3hot, which decodes no BAR (R298)? -/
def State.busAsleep (s : State) : Master → Bool
  | .pf => s.lowPower.contains 0
  | .vf p => s.lowPower.contains (p + 1)
  | _ => false

/-- The state after a write of `n` bytes of register space. A write that its master may not make is discarded and counted; one of
PMK_CTRL or PMK_BRK follows R416. -/
def State.busWrite (s : State) (m : Master) (a n value : Nat) : State :=
  if s.referee.power = false then s
  else if s.busAsleep m then s.unsupportedRequest
  else if accessOk a n = false then s.count (Reg.hifCnt 0) 1
  else if gated m a && !(s.rdBit .refReadyReady) then s.gateCount
  else
    match m with
    | .vf p =>
      match vfPage p a with
      | none => s.count (Reg.hifCnt 0) 1
      | some r =>
        let x := Wr.of m r n value
        if s.isWedged r then s.count (Reg.refCnt 1) 1
        else if x.a = Reg.hifPartEvpos p ∧ x.covers 32 = true then s.eventHeadWrite p (x.bits 32 32)
        else s.count (Reg.hifCnt 0) 1
    | _ =>
      let x := Wr.of m a n value
      if s.isWedged a then s.count (Reg.refCnt 1) 1
      else if pmkGuarded x.a = true ∧ s.mayRead m x.a = false then s.privEvent (s.masterId m) (s.masterPart m) x.a
      else if mayWrite m x.a = false then s.count (Reg.hifCnt 0) 1
      else s.registerWrite x

/-- Is an access of more than 8 bytes divided into words (R428)? A function's is not: it is an access of another size (R7). -/
def divides : Master → Bool
  | .pf | .vf _ => false
  | _ => true

/-- The state after a write of `n` bytes of register space: one of more than 8 bytes by a hart, the referee or a DMA agent is divided
into aligned 8-byte words, applied in ascending order (R428). -/
def State.wideWrite (s : State) (m : Master) (a n value : Nat) : State :=
  if decide (n ≤ 8) || !(divides m) then s.busWrite m a n value
  else (List.range ((a + n + 7) / 8 - a / 8)).foldl (fun (s : State) i =>
    let p := wordPart a n (a / 8 + i)
    s.busWrite m p.1 p.2 (bitsAt value (8 * (p.1 - a)) (8 * p.2))) s

/-- The state after a read of `n` bytes of register space, divided in the same way, with the number that its bytes spell. -/
def State.wideRead (s : State) (m : Master) (a n : Nat) : State × Nat :=
  if decide (n ≤ 8) || !(divides m) then s.busRead m a n
  else
    let r := s.agentRead m a n
    (r.1, natOfBytes r.2)

/-- The state after a read has been answered. -/
def State.busReply (s : State) (m : Master) (a n : Nat) : State :=
  if s.referee.power && s.busAsleep m then s.unsupportedRequest
  else
    let r := s.wideRead m a n
    r.1.reply (some r.2)

/-- REGISTER_WRITE: `size` bytes at BAR0 offset `off` (a VF's: at an offset of its page). -/
def execRegisterWrite (who : Master) (off size value : Nat) (s : State) : Host.Outcome State Fault Refusal :=
  .next (s.wideWrite who off size value)

/-- PRIVILEGED_READ (R416). -/
def execPrivilegedRead (who : Master) (off size : Nat) (s : State) : Host.Outcome State Fault Refusal :=
  .next (s.busReply who off size)

/-- SYN_WAITERS_READ (R11): `size` bytes at byte `byte` of SYN_WAITERS. -/
def execSynWaitersRead (who : Master) (byte size : Nat) (s : State) : Host.Outcome State Fault Refusal :=
  .next (s.busReply who (Reg.synWaiters + byte % 8) size)

/-- ACCESS_ERROR_READ (R7, R302, R353, R363): a read that the bus answers with all ones; or a host's read of BAR4, whose flag words read
as they stand, before READY as all ones. -/
def execAccessErrorRead (path : ReadPath) (off size : Nat) (s : State) : Host.Outcome State Fault Refusal :=
  match path with
  | .space who => .next (s.busReply who off size)
  | .bar4 fn => .next (s.bar4Read fn off size)

end Sys2Proof.Machine
end

