-- ==== Sys2Proof/Machine/Cycles.lean ====
section
/-!
DEFINITION. The counters of cycles in which something waits (R80, R140, R162, R174, R188, R203, R292, R312): as DTIME goes by while no
command waits, each counts the cycles of its own clock (R31, R384). The counters of cycles that the engines work, or in which one
contends with another, belong to timing that the model leaves out (log entry 63).
-/
namespace Sys2Proof.Machine

/-- The cycles of a clock of `rate` cycles in 20 ns that end as DTIME goes from `t` to `u`. -/
def cyclesIn (rate t u : Nat) : Nat := u * rate / 20 - t * rate / 20

/-- The island of a core (R381). -/
def State.coreIsland (s : State) (c : Nat) : Nat :=
  let k := s.rd (.pmkCoreIdentPhysSlot c)
  4 * s.coreDie c + (if k < 32 then k / 8 else k - 31)

/-- The cycles of ACLK in 20 ns at a core: by the point in force on its island, halved by clock division (R384, R387). -/
def State.aclkRate (s : State) (c : Nat) : Nat :=
  let r := 25 - (s.clock (s.coreIsland c)).freq
  if s.rdBit .pwrStatusDivided then r else 2 * r

/-- The counter with `n` cycles more, if it waits. -/
def State.countIf (s : State) (waits : Bool) (r n : Nat) : State := if waits then s.count r n else s

/-- Does the next ARR_SWAP of a core wait for a fill (R80)? -/
def Core.swapWaits (k : Core) : Bool :=
  match (k.queue .arr).find? (fun i => !i.done && decide (i.opcode ≠ 0x11)) with
  | some i => decide (i.opcode = 0x12) && k.filling.isSome
  | none => false

/-- Is the checkpoint of a partition being captured, or about to be (R188)? -/
def State.captureWaits (s : State) (p : Nat) : Bool :=
  (s.captureDue p).isSome || (match (s.job p).capture with
    | some x => x.vote.isNone
    | none => false)

/-- The state after `n` ACLK cycles of a core's wait in check 3, which holds its head: for the governor (PGV_CNT_5), for the constants of
its step (VEC_CNT_3), for a layer (R292), and for a capture that one of these waits for (OPT_CNT_6). -/
def State.fenceCycles (s : State) (c n : Nat) (w : Nat) : State :=
  let p := s.corePart c
  let pgv := !(s.fenceMet c) && s.pgvEnabled p
  let opt := decide (cmdOpcode w = 0x29) && !(s.constReady c)
  let starved := decide (cmdOpcode w = 0x04) && !(s.resident (lfFeed w) (lfLayer w) c)
  let s' := ((s.countIf pgv (Reg.pgvCnt p 5) n).countIf opt (Reg.vecCnt c 3) n).countIf ((pgv || opt) && s.captureWaits p)
    (Reg.optCnt p 6) n
  if starved then
    s'.modFeed (lfFeed w) (fun x =>
      let same (y : Nat × Nat × Nat) : Bool := decide (y.1 = c ∧ y.2.1 = lfLayer w)
      let old := ((x.starve.find? same).map (fun y => y.2.2)).getD 0
      { x with starve := x.starve.filter (fun y => !(same y)) ++ [(c, lfLayer w, old + n)] })
  else s'

/-- The state after the cycles of a core from DTIME `t` to `u` have been counted. -/
def State.coreCycles (s : State) (c t u : Nat) : State :=
  let n := cyclesIn (s.aclkRate c) t u
  if n = 0 then s
  else
    let k := s.core c
    let cause := s.headCause c
    let s' := s.countIf (decide (k.pstate = 0)) (Reg.pmkCnt c 1) n
    let s' := s'.countIf (decide (cause ≠ 0)) (Reg.pmkCnt c (cause + 1)) n
    let s' := match k.head with
      | some w => if cause = 2 then s'.fenceCycles c n w else s'
      | none => s'
    (s'.countIf k.swapWaits (Reg.arrCnt c 2) n).countIf (k.arbs.any (fun a => decide (a.engine = engArr))) (Reg.umpCnt c 9) n

/-- The state after the FCLK cycles, 2 in a nanosecond (R31), of the completions that wait for room in a stream (R312). -/
def State.streamCycles (s : State) (t u : Nat) : State :=
  s.streams.foldl (fun (s : State) x =>
    s.countIf (!x.2.waiting.isEmpty && s.streamFull x.1) (Reg.hifCnt 7) (cyclesIn 40 t u)) s

/-- The state after all cycles from DTIME `t` on have been counted. The cores run from the end of the boot on, but in the dugout. -/
def State.countCycles (s : State) (t : Nat) : State :=
  if s.rdBit .refReadyReady && !(s.rdBit .refReadyDugout) then
    (List.range 256).foldl (fun (s : State) c => s.coreCycles c t s.dtime) (s.streamCycles t s.dtime)
  else s

end Sys2Proof.Machine
end

