-- ==== Sys2Proof/Machine/Events.lean ====
section
/-!
DEFINITION. What happens by itself while no command waits: DTIME (R32, R33), the waiting cycles, the delivery of events (R315, R358), the trace
collectors (R407), the ports' flits (R331), the writes on their way to register space (R428), the ends of draining jobs (R323).
-/
namespace Sys2Proof.Machine

/-! ## DTIME -/

/-- The state a nanosecond later: a correction that is due slews DTIME by one step in 5,000 ns, 200 ppm (R33, R344). -/
def State.tickClock (s : State) : State :=
  let f := s.fellows
  if f.slew = 0 then (s.setDtime (s.dtime + 1))
  else if f.slewTicks + 1 < 5000 then ((s.setDtime (s.dtime + 1)).setFellows ({ f with slewTicks := f.slewTicks + 1 }))
  else if f.slew > 0 then ((s.setDtime (s.dtime + 2)).setFellows ({ f with slew := f.slew - 1, slewTicks := 0 }))
  else (s.setFellows ({ f with slew := f.slew + 1, slewTicks := 0 }))

/-! ## Event rings (R315) -/

/-- The ring of an event: its partition's context, or 16 for 0xFF. -/
def Event.ring (e : Event) : Option Nat :=
  if e.part < 16 then some e.part else if e.part = noPart then some 16 else none

/-- The state after the message of ring `p`: at once, or owed at the holdoff's end. -/
def State.ringMessage (s : State) (p : Nat) : State :=
  if s.rdBit (.hifPartEvctrlIrqEn p) = false then s
  else if s.dtime ≥ (s.ring p).holdoff then
    (s.sendMsix (ringFn p) (s.rd (.hifPartEvctrlVector p))).modRing p
      (fun x => { x with holdoff := s.dtime + 1000 * s.rd (.hifPartEvctrlHoldoff p) })
  else s.modRing p (fun x => { x with owed := true })

/-- The state after a record has been written at a ring's tail; the second component is whether it was refused. -/
def State.ringWrite (s : State) (p a bytes : Nat) : State × Bool :=
  let bs := bytesOfNat 32 bytes
  if s.rdBit (.hifPartEvringHost p) then ((s.translate (ringFn p) 0 a).setHostBytes (hostKey 0 a) bs, false)
  else
    let w := if p = 16 then Accessor.referee else Accessor.part p
    match (s.checkRange w a 32 true).1 with
    | .ok => ((s.store a bs).cacheWrites a 32 0, false)
    | _ => ((s.count (Reg.hifCnt 6) 2).count (Reg.memCnt 9) 1, true)

/-- The state after a record has been offered to ring `p`. In the dugout only a ring in host memory is reached. -/
def State.ringOffer (s : State) (p : Nat) (e : Event) : State :=
  if s.rdBit (.hifPartEvringEnable p) = false ∨ e.sev < s.rd (.hifPartEvctrlMinSev p) then s
  else
    let seq := (s.ring p).seq
    let s := s.modRing p (fun x => { x with seq := (x.seq + 1) % 65536 })
    let size := 2 ^ s.rd (.hifPartEvringL p)
    let tail := s.rd (.hifPartEvposTail p)
    let used := (tail + 2 ^ 32 - s.rd (.hifPartEvposHead p)) % 2 ^ 32
    if used ≥ size ∨ (s.rdBit .refReadyDugout = true ∧ s.rdBit (.hifPartEvringHost p) = false) then s.count (Reg.hifCnt 6) 1
    else
      let r := s.ringWrite p (s.rd (.hifPartEvringBase p) + 32 * (tail % size)) (e.bytes seq)
      if r.2 then r.1 else (r.1.wr (.hifPartEvposTail p) ((tail + 1) % 2 ^ 32)).ringMessage p

/-- The state after an event has gone into the fault log, if it is one that the log records (section 14.7). -/
def State.logEvent (s : State) (e : Event) : State :=
  if e.logged then
    let l := s.referee.log ++ [e]
    (s.setReferee ({ s.referee with logCount := s.referee.logCount + 1, log := l.drop (l.length - 256) }))
  else s

/-- The state after the oldest event has been told: the fault log, its partition's trace, its ring. -/
def State.deliver (s : State) : State :=
  match s.events with
  | [] => s
  | e :: t =>
    let s := (((s.setEvents t).logEvent e).eventTrigger e).eventTraced e
    match e.ring with
    | none => s
    | some p => s.ringOffer p e

/-! ## The rest -/

/-- The state after each CD's collector has taken its entries of a nanosecond, one per FCLK cycle (R407). -/
def State.collectAll (s : State) : State := (List.range 8).foldl (fun (s : State) d => s.collectMany d 2) s

/-- The state after each Ergal port that is UP has sent what it has. -/
def State.sendAll (s : State) : State :=
  (List.range 18).foldl (fun (s : State) n => if s.rd (.lnkPortCtrlMode n) = 0 then s.sendFlit n false else s) s

/-- The state after the requests that wait for receive space have been sent as far as it reaches (R333). -/
def State.sendWaiting (s : State) : State := s.sendHeld s.reqs.length

/-- The state after the first write on its way to register space has reached its register. -/
def State.arrivePosted (s : State) : State :=
  match s.posted with
  | [] => s
  | x :: t => (s.setPosted t).busWrite (if x.part = noPart then .referee else .agent x.part) x.off x.size x.value

/-- The state a nanosecond later, while no command waits. Without power nothing happens. -/
def State.tick (s : State) : State :=
  if s.referee.power = false then s
  else (s.tickClock.countCycles s.dtime).deliver.collectAll.groupTick.sendWaiting.sendAll.arrivePosted.endTick.stopTick

end Sys2Proof.Machine
end

