-- ==== Sys2Proof/Machine/Connector.lean ====
section
/-!
DEFINITION. The module's connector (chapter 17): power entry, the management bus, the cables; and what configuration requests and
messages of the PCIe port change (R298).
-/
namespace Sys2Proof.Machine

/-! ## Power entry (R422, R423) -/

/-- INPUT_POWER_UP: the input has risen through 38.5 V: the hot-swap controller closes, and power good follows. -/
def execInputPowerUp (s : State) : Host.Outcome State Fault Refusal :=
  .next (s.setReferee ({ s.referee with entry := true }))

/-- INPUT_POWER_LOSS: everything but tier 3, the boot area and the fuses is lost. A firmware write that it cuts off leaves no valid
image (R369). -/
def execInputPowerLoss (s : State) : Host.Outcome State Fault Refusal :=
  let flagged := s.rd .refReadyFlagged
  let log := s.logNow
  let img := if s.referee.writing then [] else s.referee.image
  let b := (((s.bare fuseReg).wr .refFwSvn 0).wr .refFwSlot 0xFF).wr .refReadyFlagged flagged
  .next (((b.setDtime 0).setEvents []).setReferee ({ b.referee with
        entry := false,
        power := false,
        bootAt := 0,
        phaseAt := 0,
        report := [],
        image := img,
        logCount := log.2,
        log := log.1,
        eid := 0,
        clkreq := false,
        released := false }))

/-- Is CLKREQ_N asserted: from the host rail's regulation, which phase 0 brings, until input power is lost (R420)? -/
def State.clkreqN (s : State) : Bool := s.referee.clkreq

/-- WAKE_N is never asserted (R420). -/
def State.wakeN (_ : State) : Bool := false

/-! ## Cables (R425) -/

/-- CABLE_POWER_FAULT: a cable draws more than 3.0 W: its supply is cut and its port stays DOWN. -/
def execCablePowerFault (port : Nat) (s : State) : Host.Outcome State Fault Refusal :=
  if port ≥ 18 ∨ s.referee.cut.contains port = true then .next s
  else .next ((s.setReferee ({ s.referee with cut := s.referee.cut ++ [port] })).portDown port 0)

/-! ## The management bus (R360, R424) -/

/-- The message types that the endpoint carries: in ROM recovery control and the request set only. -/
def State.mctpTypes (s : State) : List Nat := if s.rdBit .refReadyRecovery then [0x7E] else [0x01, 0x05, 0x7E]

/-- The state after an MCTP control response (DSP0236, PRESUMED): instance, command, completion code, data. -/
def State.mctpControl (s : State) (inst cmd cc : Nat) (data : List Nat) : State :=
  let bs := ([inst % 32, cmd, cc] ++ data).map (BitVec.ofNat 8)
  (s.setOut (s.out ++ [Output.mctp 0 (natOfBytes bs) bs.length]))

/-- MCTP_CONTROL_MESSAGE: Set and Get Endpoint ID, Get MCTP Version Support, Get Message Type Support; another command is not
supported. -/
def execMctpControlMessage (inst cmd op eid : Nat) (s : State) : Host.Outcome State Fault Refusal :=
  if s.referee.power = false then .next s
  else
    match cmd with
    | 1 =>
      if op > 1 ∨ eid = 0 ∨ eid ≥ 255 then .next (s.mctpControl inst cmd 2 [])
      else .next ((s.setReferee ({ s.referee with eid := eid })).mctpControl inst cmd 0 [0, eid, 0])
    | 2 => .next (s.mctpControl inst cmd 0 [s.referee.eid, 0, 0])
    | 4 => .next (s.mctpControl inst cmd 0 [1, 0xF1, 0xF3, 0xF1, 0x00])
    | 5 => .next (s.mctpControl inst cmd 0 (s.mctpTypes.length :: s.mctpTypes))
    | _ => .next (s.mctpControl inst cmd 5 [])

/-- DYNAMIC_ADDRESS_ASSIGNMENT: SETDASA names the static address 0x20 + SLOT_ID; ENTDAA gives an address to a target without
one. -/
def execDynamicAddressAssignment (setdasa : Bool) (static addr : Nat) (s : State) : Host.Outcome State Fault Refusal :=
  let r := s.referee
  if r.power = false then .next s
  else if r.dynAddr.isSome ∨ (setdasa = true ∧ static ≠ 0x20 + r.slotId) then .next s
  else .next (s.setReferee ({ r with dynAddr := some (addr % 128) }))

/-! ## The PCIe port (R298) -/

/-- ATS_INVALIDATION: the entries of `n` pages from `page` up, of one PASID (its number and 1, 0 without one), leave the
cache; the request is completed. -/
def execAtsInvalidation (tag pasid page n : Nat) (s : State) : Host.Outcome State Fault Refusal :=
  .next ((s.setAtc (s.atc.filter (fun x => !(decide (x.1 = pasid ∧ page ≤ x.2 ∧ x.2 < page + n))))).setOut (s.out ++ [Output.atsDone tag]))

/-- DOE_DISCOVERY: the protocol of an index, of the PCI-SIG's vendor number 1: 0 discovery, 1 CMA/SPDM, 2 secured CMA/SPDM, which
carries IDE key management; with the next index, 0 after the last (the layout of the PCI Express specification, PRESUMED). -/
def execDoeDiscovery (index : Nat) (s : State) : Host.Outcome State Fault Refusal :=
  if s.referee.power = false then .next s
  else
    let v := if index < 3 then 1 + index * 2 ^ 16 + ((index + 1) % 3) * 2 ^ 24 else 0xFFFF
    .next (s.setOut (s.out ++ [Output.doe v 4]))

/-- DEVICE_POWER_STATE_WRITE: what a write in configuration space or in the MSI-X structures of a function changes: D3hot or D0
(R298), ATS (R308), MSI-X with its table (R313). -/
def execDevicePowerStateWrite (fn : Nat) (w : ConfigWrite) (s : State) : Host.Outcome State Fault Refusal :=
  if fn > 16 then .next s
  else
    match w with
    | .power hot =>
      let rest := s.lowPower.filter (fun x => !(decide (x = fn)))
      .next (s.setLowPower (if hot then rest ++ [fn] else rest))
    | .ats on =>
      let rest := s.atsOn.filter (fun x => !(decide (x = fn)))
      .next (s.setAtsOn (if on then rest ++ [fn] else rest))
    | .msix on mask => .next ((s.setMsixCtl (Sparse.put 0 fn (flag on + 2 * flag mask) s.msixCtl)).sendPending fn)
    | .msixEntry v addr data masked =>
      if v ≥ (if fn = 0 then 1024 else 64) then .next s
      else .next ((s.putMsix fn v ⟨addr % 2 ^ 64, data % 2 ^ 32, masked, (s.msixEntry fn v).pending⟩).sendPending fn)

end Sys2Proof.Machine
end

