-- ==== Sys2Proof/Machine/Hart.lean ====
section
/-!
DEFINITION. The accesses of the service-core harts (R23, R24, R32, R121, R248, R252, R428): the translation of their addresses by
satp, vsatp and hgatp, and the coherent caches of the 32 service cores. The formats of the CSRs and of the page tables, and the
causes of their faults, are those of the RISC-V privileged specification that R23 names, which the spec does not repeat
(PRESUMED, log entry 57).
-/
namespace Sys2Proof.Machine

/-- The accessor that hart `h` is to R252. -/
def State.hartAccessor (s : State) (h : Nat) : Accessor :=
  match s.masterPart (.hart h) with
  | some p => .part p
  | none => .nobody

/-- The state after hart `h` has taken a fault. -/
def State.hartFault (s : State) (h cause : Nat) : State := s.setOut (s.out ++ [.hartFault h cause])

/-! ## The CSRs that rule translation (R23) -/

/-- The number of satp, vsatp and hgatp. -/
def csrSatp : Nat := 0x180
def csrVsatp : Nat := 0x280
def csrHgatp : Nat := 0x680

/-- The value of a CSR of hart `h`. -/
def State.hartCsrOf (s : State) (h csr : Nat) : Nat := Sparse.get 0 s.hartCsr (4096 * h + csr)

/-- The state after a write of a CSR: Bare, Sv39 and Sv48 are the modes that the harts have. A write of another mode to satp leaves satp
as it is (R23), and so does one to vsatp; hgatp keeps its MODE and takes the other fields, its root being aligned to 16 KiB. -/
def State.writeHartCsr (s : State) (h csr v : Nat) : State :=
  let v := v % 2 ^ 64
  let known := bitsAt v 60 4 == 0 || bitsAt v 60 4 == 8 || bitsAt v 60 4 == 9
  let put (x : Nat) : State := s.setHartCsr (Sparse.put 0 (4096 * h + csr) x s.hartCsr)
  if csr = csrSatp ∨ csr = csrVsatp then (if known then put v else s)
  else if csr = csrHgatp then
    let m := if known then bitsAt v 60 4 else bitsAt (s.hartCsrOf h csr) 60 4
    put (m * 2 ^ 60 + bitsAt v 44 14 * 2 ^ 44 + bitsAt v 2 42 * 4)
  else s

/-! ## The caches of the service cores (R24, R121) -/

/-- The line that holds CPA `a`, if a service core caches it. -/
def State.hartLine (s : State) (a : Nat) : Option HartLine :=
  let l := Sparse.get HartLine.none s.lines (a / 64)
  if l = HartLine.none then none else some l

/-- The state with the line of CPA `a` replaced. -/
def State.putHartLine (s : State) (a : Nat) (l : HartLine) : State := s.setLines (Sparse.put HartLine.none (a / 64) l s.lines)

/-- The state with the line of CPA `a` in no cache. -/
def State.dropHartLine (s : State) (a : Nat) : State := s.putHartLine a HartLine.none

/-- The state after a line has been fetched from memory into the caches, or the cause of the fault: a poisoned line is a fault, and a
store that meets one raises MEM_UNCORRECTABLE (R248); a bad byte of an on-die memory raises INT_PARITY (R121; log entry 60). -/
def State.fetchHartLine (s : State) (h a : Nat) (store : Bool) : State × Option Nat :=
  let b := a / 64 * 64
  let w := s.hartAccessor h
  let cause := if store then 7 else 5
  if s.poisoned b 64 then
    (if store then s.raiseAs .memUncorrectable sevFailed (unitHart h) w.partField (payload [(16, 8, b), (24, 1, tierNo b)]) else s,
      some cause)
  else if anyMarked s.bad b 64 then
    (s.raiseAs .intParity sevFailed (unitHart h) w.partField (payload [(16, 8, b), (24, 1, 1)]), some cause)
  else ((s.cacheReads b 64 0).putHartLine a ⟨false, s.bytes b 64⟩, none)

/-- The state after the line of CPA `a` has been written back, all 64 bytes of it, if it is dirty (R24); `w` is the hart's accessor. -/
def State.writeBack (s : State) (h a : Nat) : State :=
  match s.hartLine a with
  | some l =>
    if l.dirty = false then s
    else
      let b := a / 64 * 64
      let w := s.hartAccessor h
      let r := s.checkRange w b 64 true
      let s := match r.1.code with
        | some c => s.refuseAccess c sevNotice (unitHart h) w r.2 true
        | none => (s.store b l.data).cacheWrites b 64 0
      s.putHartLine a { l with dirty := false }
  | none => s

/-- `n` bytes at `a`, which lie in one line, as the harts see them: those of the cached line, else those of memory. -/
def State.hartBytes (s : State) (a n : Nat) : List (BitVec 8) :=
  match s.hartLine a with
  | some l => (l.data.drop (a % 64)).take n
  | none => s.bytes a n

/-- The bytes `bs` put into a line at byte `i`. -/
def HartLine.write (l : HartLine) (i : Nat) (bs : List (BitVec 8)) : HartLine :=
  ⟨true, l.data.take i ++ bs ++ l.data.drop (i + bs.length)⟩

/-! ## Physical accesses -/

/-- A hart's load of `n` bytes of one line: the state, and the bytes or the cause of the fault. A load that R252 refuses reads as all
ones. -/
def State.hartLoadAt (s : State) (h a n : Nat) (cached : Bool) : State × Except Nat (List (BitVec 8)) :=
  let w := s.hartAccessor h
  if a + n > 2 ^ 48 then (s, .error 5)
  else if inRegSpace a n then
    let r := s.wideRead (.hart h) (a - regSpace) n
    (r.1, .ok (bytesOfNat n r.2))
  else
    let r := s.checkRange w a n false
    match r.1.code with
    | some c => (s.refuseAccess c sevNotice (unitHart h) w r.2 false, .ok (bytesOfNat n (onesOf n)))
    | none =>
      if cached then
        if s.hartLine a = none then
          let f := s.fetchHartLine h a false
          match f.2 with
          | some k => (f.1, .error k)
          | none => (f.1, .ok (f.1.hartBytes a n))
        else (s, .ok (s.hartBytes a n))
      else if s.poisoned a n then (s, .error 5)
      else if anyMarked s.bad a n then
        (s.raiseAs .intParity sevFailed (unitHart h) w.partField (payload [(16, 8, a), (24, 1, 1)]), .error 5)
      else (s.cacheReads a n 0, .ok (s.bytes a n))

/-- A hart's store of bytes of one line: the state, and the cause of the fault if it takes one. A store that R252 refuses is
discarded. -/
def State.hartStoreAt (s : State) (h a : Nat) (bs : List (BitVec 8)) (cached : Bool) : State × Option Nat :=
  let n := bs.length
  let w := s.hartAccessor h
  if a + n > 2 ^ 48 then (s, some 7)
  else if inRegSpace a n then (s.wideWrite (.hart h) (a - regSpace) n (natOfBytes bs), none)
  else
    let r := s.checkRange w a n true
    match r.1.code with
    | some c => (s.refuseAccess c sevNotice (unitHart h) w r.2 true, none)
    | none =>
      if cached = false then ((s.store a bs).cacheWrites a n 0, none)
      else
        let f := if s.hartLine a = none then s.fetchHartLine h a true else (s, none)
        match f.2, f.1.hartLine a with
        | none, some l => (f.1.putHartLine a (l.write (a % 64) bs), none)
        | k, _ => (f.1, k)

/-! ## Address translation (R23) -/

/-- What an access asks of a page: to load, to store, or what a cache-block operation asks, either of them. -/
inductive HartNeed where
  | load | store | block
  deriving DecidableEq, Repr

/-- The cause of an access fault, a page fault and a guest-page fault of an access. -/
def HartNeed.access : HartNeed → Nat
  | .load => 5
  | _ => 7
def HartNeed.page : HartNeed → Nat
  | .load => 13
  | _ => 15
def HartNeed.guest : HartNeed → Nat
  | .load => 21
  | _ => 23

/-- Who a page must serve: `user` mode or not, with SUM and MXR; and whether the page is one of the guest-physical stage. -/
structure HartView where
  user : Bool
  sum : Bool
  mxr : Bool
  gstage : Bool
  deriving DecidableEq, Repr

/-- Is a page-table entry one that no translation may use: not valid, writable and not readable, a reserved bit or reserved memory type
set, or, where it points to another table, a bit of a leaf? -/
def pteBad (v level : Nat) : Bool :=
  let leaf := bitAt v 1 || bitAt v 3
  !(bitAt v 0) || (!(bitAt v 1) && bitAt v 2) || bitsAt v 54 7 ≠ 0 || bitsAt v 61 2 = 3 ||
    (!leaf && (level = 0 || bitAt v 4 || bitAt v 6 || bitAt v 7 || bitsAt v 61 3 ≠ 0))

/-- Does a leaf allow an access? The A bit must be set, and for a store the D bit: the harts do not set them (Svade). -/
def pteAllows (v : Nat) (need : HartNeed) (view : HartView) : Bool :=
  let rd := bitAt v 1 || (view.mxr && bitAt v 3)
  let wr := bitAt v 2 && bitAt v 7
  let mode := if view.gstage || view.user then bitAt v 4 else !(bitAt v 4) || view.sum
  mode && bitAt v 6 && (match need with | .load => rd | .store => wr | .block => rd || bitAt v 2)

/-- Is a leaf of level `level` well placed: a superpage aligned, and the NAPOT bit only on a 64 KiB range of 4 KiB pages? -/
def pteAligned (v level : Nat) : Bool :=
  bitsAt v 10 (9 * level) = 0 && (!(bitAt v 63) || (level = 0 && bitsAt v 10 4 = 8))

/-- The address that a leaf of level `level` gives for address `a`. -/
def pteAddress (v level a : Nat) : Nat :=
  let bits := if bitAt v 63 then 16 else 12 + 9 * level
  bitsAt v 10 44 * 4096 / 2 ^ bits * 2 ^ bits + a % 2 ^ bits

/-- What a stage of translation gives: an address and whether the page is cacheable (Svpbmt: types NC and IO are not), or a cause. -/
abbrev HartXlat := Except Nat (Nat × Bool)

/-- The walk of one stage from the table at `root`, `level` being the level of its entries, for address `a` whose index at the
root has `wide` more bits than at the others. `next` translates the address of an entry and `fault` is the stage's page fault. -/
def hartWalk (h : Nat) (need : HartNeed) (view : HartView) (fault : Nat) (next : State → Nat → State × HartXlat) (a : Nat) :
    Nat → Nat → Nat → State → State × HartXlat
  | root, level, wide, s =>
    let ix := bitsAt a (12 + 9 * level) (9 + wide)
    let e := next s (root + 8 * ix)
    match e.2 with
    | .error k => (e.1, .error k)
    | .ok (pa, cached) =>
      let r := e.1.hartLoadAt h pa 8 cached
      match r.2 with
      | .error _ => (r.1, .error need.access)
      | .ok bs =>
        let v := natOfBytes bs
        if pteBad v level then (r.1, .error fault)
        else if bitAt v 1 || bitAt v 3 then
          (if pteAligned v level && pteAllows v need view then (r.1, .ok (pteAddress v level a, bitsAt v 61 2 = 0))
           else (r.1, .error fault))
        else
          match level with
          | 0 => (r.1, .error fault)
          | l + 1 => hartWalk h need view fault next a (bitsAt v 10 44 * 4096) l 0 r.1

/-- The level of the root's entries for a MODE of satp, vsatp or hgatp. -/
def rootLevel (mode : Nat) : Nat := if mode = 9 then 3 else 2

/-- A CPA as it is. -/
def identityXlat (s : State) (a : Nat) : State × HartXlat := (s, .ok (a, true))

/-- The guest-physical stage: hgatp translates address `a` of the guest. -/
def State.guestStage (s : State) (h : Nat) (need : HartNeed) (a : Nat) : State × HartXlat :=
  let g := s.hartCsrOf h csrHgatp
  if bitsAt g 60 4 = 0 then (s, .ok (a, true))
  else
    let level := rootLevel (bitsAt g 60 4)
    if a ≥ 2 ^ (23 + 9 * level) then (s, .error need.guest)
    else hartWalk h need ⟨true, false, false, true⟩ need.guest identityXlat a (bitsAt g 0 44 * 4096) level 2 s

/-- The stage of satp or vsatp: the address must be a sign-extended one of 39 or 48 bits. -/
def State.firstStage (s : State) (h atp : Nat) (need : HartNeed) (view : HartView) (next : State → Nat → State × HartXlat) (a : Nat) :
    State × HartXlat :=
  if bitsAt atp 60 4 = 0 then (s, .ok (a, true))
  else
    let level := rootLevel (bitsAt atp 60 4)
    let top := a / 2 ^ (20 + 9 * level)
    if top ≠ 0 ∧ top ≠ 2 ^ (44 - 9 * level) - 1 then (s, .error need.page)
    else hartWalk h need view need.page next a (bitsAt atp 0 44 * 4096) level 0 s

/-- The translation of address `a` of hart `h` in a mode: machine mode names CPAs; a guest's entries and its pages go through
the second stage. A page is cacheable only if every stage says so. -/
def State.hartTranslate (s : State) (h : Nat) (mode : HartMode) (need : HartNeed) (a : Nat) : State × HartXlat :=
  match mode with
  | .machine => identityXlat s a
  | .host user sum mxr => s.firstStage h (s.hartCsrOf h csrSatp) need ⟨user, sum, mxr, false⟩ identityXlat a
  | .guest user sum mxr =>
    let f := s.firstStage h (s.hartCsrOf h csrVsatp) need ⟨user, sum, mxr, false⟩ (fun s a => s.guestStage h need a) a
    match f.2 with
    | .error k => (f.1, .error k)
    | .ok (ga, c1) =>
      let g := f.1.guestStage h need ga
      match g.2 with
      | .error k => (g.1, .error k)
      | .ok (pa, c2) => (g.1, .ok (pa, c1 && c2))

/-! ## Accesses -/

/-- A hart's load of `n` bytes, piece by piece of the lines it meets: the state, and the bytes or the cause of the first fault. -/
def State.hartLoad (s : State) (h : Nat) (mode : HartMode) (a : Nat) : List Nat → State × Except Nat (List (BitVec 8))
  | [] => (s, .ok [])
  | n :: t =>
    let x := s.hartTranslate h mode .load (a % 2 ^ 64)
    match x.2 with
    | .error k => (x.1, .error k)
    | .ok (pa, cached) =>
      let r := x.1.hartLoadAt h pa n cached
      match r.2 with
      | .error k => (r.1, .error k)
      | .ok bs =>
        let u := State.hartLoad r.1 h mode (a + n) t
        match u.2 with
        | .error k => (u.1, .error k)
        | .ok cs => (u.1, .ok (bs ++ cs))

/-- A hart's store, piece by piece: the state, and the cause of the first fault, after which nothing more is stored. -/
def State.hartStore (s : State) (h : Nat) (mode : HartMode) (a : Nat) : List (List (BitVec 8)) → State × Option Nat
  | [] => (s, none)
  | bs :: t =>
    let x := s.hartTranslate h mode .store (a % 2 ^ 64)
    match x.2 with
    | .error k => (x.1, some k)
    | .ok (pa, cached) =>
      let r := x.1.hartStoreAt h pa bs cached
      match r.2 with
      | some k => (r.1, some k)
      | none => State.hartStore r.1 h mode (a + bs.length) t

/-- The sizes of the pieces of `n` bytes from `a` up that lie each in one 64-byte line. -/
def linePieces (a n : Nat) : List Nat :=
  (List.range ((a + n + 63) / 64 - a / 64)).map (fun i =>
    min (a + n) ((a / 64 + i + 1) * 64) - max a ((a / 64 + i) * 64))

/-- Rows of bytes cut to the given sizes. -/
def cutBytes : List Nat → List (BitVec 8) → List (List (BitVec 8))
  | [], _ => []
  | n :: t, bs => bs.take n :: cutBytes t (bs.drop n)

/-- A CBO instruction of hart `h` on the line of address `a` (R24): CLEAN writes a dirty line back, FLUSH also drops it, INVAL drops it
with its data. -/
def State.hartBlock (s : State) (h : Nat) (mode : HartMode) (a : Nat) (write drop : Bool) : State :=
  let x := s.hartTranslate h mode .block (a % 2 ^ 64)
  match x.2 with
  | .error k => x.1.hartFault h k
  | .ok (pa, _) =>
    if pa ≥ 2 ^ 48 then x.1.hartFault h 7
    else
      let s := if write then x.1.writeBack h pa else x.1
      if drop then s.dropHartLine pa else s

/-- The state after a load or a store of hart `h` met a parity error in the cached line of CPA `a` (Table 5-2): a clean line is fetched
again; a dirty line is lost, and the access takes the fault. -/
def State.hartParity (s : State) (h a : Nat) (store : Bool) : State :=
  match s.hartLine a with
  | none => s
  | some l =>
    let w := s.hartAccessor h
    let x := payload [(16, 8, a / 64 * 64), (24, 1, 2)]
    let t := s.dropHartLine a
    if l.dirty then (t.raiseAs .intParity sevFailed (unitHart h) w.partField x).hartFault h (if store then 7 else 5)
    else
      let f := (t.raiseAs .intParity sevRecovered (unitHart h) w.partField x).fetchHartLine h a store
      match f.2 with
      | some k => f.1.hartFault h k
      | none => f.1

/-- SERVICE_CORE_MEMORY_ACCESS: what a service-core hart does to memory and to the state that rules its accesses. The service cores run
once the device is READY. -/
def execServiceCoreMemoryAccess (hart : Nat) (access : HartAccess) (a n : Nat) (s : State) : Host.Outcome State Fault Refusal :=
  if s.rdBit .refReadyReady = false ∨ hart ≥ 32 then .next s
  else
    match access with
    | .load mode =>
      let r := s.hartLoad hart mode a (linePieces a n)
      (match r.2 with
        | .error k => .next (r.1.hartFault hart k)
        | .ok bs => .next (r.1.reply (some (natOfBytes bs))))
    | .store mode v =>
      let r := s.hartStore hart mode a (cutBytes (linePieces a n) (bytesOfNat n v))
      (match r.2 with
        | some k => .next (r.1.hartFault hart k)
        | none => .next r.1)
    | .evict => .next ((s.writeBack hart a).dropHartLine a)
    | .clean mode => .next (s.hartBlock hart mode a true false)
    | .flush mode => .next (s.hartBlock hart mode a true true)
    | .inval mode => .next (s.hartBlock hart mode a false true)
    | .parity store => .next (s.hartParity hart a store)
    | .readTime => .next (s.reply (some (s.dtime % 2 ^ 64)))
    | .writeCsr v => .next (s.writeHartCsr hart a v)

end Sys2Proof.Machine
end

