-- ==== Sys2Proof/Machine/Wait.lean ====
section
/-!
DEFINITION. SYNC_WAIT: the sync waits of a head command (check 9 of Table 8-6, R200, R204, R226).
-/
namespace Sys2Proof.Machine

/-- SYNC_WAIT: the head's next sync wait that is not complete reaches its object's home, once checks 3 to 8 hold and the
wait before it has completed; the first of them starts the command's TIMEOUT. -/
def execSyncWait (core : Nat) (s : State) : Host.Outcome State Fault Refusal :=
  let k := s.core core
  match k.head with
  | none => .next s
  | some w =>
    match opcodeRow (cmdOpcode w) (cmdEngine w), (syncWaits w)[k.waitsDone]? with
    | some (q, _), some (_, o) =>
      if (headerReason w).isSome ∨ k.issuing = false ∨ k.waiting = true ∨ s.checks3to8 core w q (s.regionsOf core w) = false ∨
          s.ownFence core w = false then .next s
      else
        let d := if k.waitsDone = 0 then s.deadline (cmdTimeout w) else k.waitDeadline
        let s := s.modCore core (fun k => { k with waiting := true, waitDeadline := d })
        .next (s.waitFrom (.core core) (s.corePart core) o d)
    | _, _ => .next s

end Sys2Proof.Machine
end

