-- ==== Sys2Proof/Machine/Dispatch.lean ====
section
/-!
DEFINITION. The dispatch of the commands: one arm for each constructor, one call of its meaning.
-/
namespace Sys2Proof.Machine

/-- The effect of a command on everything but the queue of waiting commands. -/
def exec (i : Instr) (s : State) : Host.Outcome State Fault Refusal :=
  match i with
  | .registerWrite who off size value => Sys2Proof.Machine.execRegisterWrite who off size value s
  | .privilegedRead who off size => Sys2Proof.Machine.execPrivilegedRead who off size s
  | .synWaitersRead who byte size => Sys2Proof.Machine.execSynWaitersRead who byte size s
  | .arrLoad core hw => Sys2Proof.Machine.execArrLoad core hw s
  | .arrLoadDone core => Sys2Proof.Machine.execArrLoadDone core s
  | .arrFill core hw => Sys2Proof.Machine.execArrFill core hw s
  | .arrFillDone core => Sys2Proof.Machine.execArrFillDone core s
  | .arrSwap core hw => Sys2Proof.Machine.execArrSwap core hw s
  | .matstream core hw => Sys2Proof.Machine.execMatstream core hw s
  | .arbitrationDecided core engine replays badRes pairs hw => Sys2Proof.Machine.execArbitrationDecided core engine replays badRes pairs hw s
  | .sbkClear core hw => Sys2Proof.Machine.execSbkClear core hw s
  | .sbkDrain core hw => Sys2Proof.Machine.execSbkDrain core hw s
  | .sbkSpill core hw => Sys2Proof.Machine.execSbkSpill core hw s
  | .sbkRestore core hw => Sys2Proof.Machine.execSbkRestore core hw s
  | .cnvMatmul core hw => Sys2Proof.Machine.execCnvMatmul core hw s
  | .cnvProj core hw => Sys2Proof.Machine.execCnvProj core hw s
  | .cnvCorr core hw => Sys2Proof.Machine.execCnvCorr core hw s
  | .outBind core => Sys2Proof.Machine.execOutBind core s
  | .outMatstream core hw => Sys2Proof.Machine.execOutMatstream core hw s
  | .staBind core => Sys2Proof.Machine.execStaBind core s
  | .pfence core => Sys2Proof.Machine.execPfence core s
  | .stepEnd core => Sys2Proof.Machine.execStepEnd core s
  | .stepEndRetire core => Sys2Proof.Machine.execStepEndRetire core s
  | .pmkNop core => Sys2Proof.Machine.execPmkNop core s
  | .pmkJump core => Sys2Proof.Machine.execPmkJump core s
  | .pmkEnd core => Sys2Proof.Machine.execPmkEnd core s
  | .lfence core => Sys2Proof.Machine.execLfence core s
  | .vecEw core hw => Sys2Proof.Machine.execVecEw core hw s
  | .vecReduce core hw => Sys2Proof.Machine.execVecReduce core hw s
  | .optNorm core hw => Sys2Proof.Machine.execOptNorm core hw s
  | .optUpdate core hw => Sys2Proof.Machine.execOptUpdate core hw s
  | .dmaXfer core channel hw n => Sys2Proof.Machine.execDmaXfer core channel hw n s
  | .dmaGather core channel hw => Sys2Proof.Machine.execDmaGather core channel hw s
  | .invalidCommand core => Sys2Proof.Machine.execInvalidCommand core s
  | .commandRetire core engine => Sys2Proof.Machine.execCommandRetire core engine s
  | .segmentArrive core => Sys2Proof.Machine.execSegmentArrive core s
  | .fetchResponse core bad => Sys2Proof.Machine.execFetchResponse core bad s
  | .segmentComplete core => Sys2Proof.Machine.execSegmentComplete core s
  | .pmkHalt core => Sys2Proof.Machine.execPmkHalt core s
  | .pmkResume core => Sys2Proof.Machine.execPmkResume core s
  | .drainComplete core => Sys2Proof.Machine.execDrainComplete core s
  | .syncWait core => Sys2Proof.Machine.execSyncWait core s
  | .syncSignal ix => Sys2Proof.Machine.execSyncSignal ix s
  | .syncBroadcast ix => Sys2Proof.Machine.execSyncBroadcast ix s
  | .syncWaitTimeout object place => Sys2Proof.Machine.execSyncWaitTimeout object place s
  | .synInit pf object => Sys2Proof.Machine.execSynInit pf object s
  | .synSetCount pf object => Sys2Proof.Machine.execSynSetCount pf object s
  | .synSetState pf object => Sys2Proof.Machine.execSynSetState pf object s
  | .synCheck pf => Sys2Proof.Machine.execSynCheck pf s
  | .synRelease pf object => Sys2Proof.Machine.execSynRelease pf object s
  | .hartWait hart object timeout cookie => Sys2Proof.Machine.execHartWait hart object timeout cookie s
  | .hartSignal hart chip object => Sys2Proof.Machine.execHartSignal hart chip object s
  | .hartBroadcast hart chip object => Sys2Proof.Machine.execHartBroadcast hart chip object s
  | .hartCancel hart cookie => Sys2Proof.Machine.execHartCancel hart cookie s
  | .patrolScrub lines => Sys2Proof.Machine.execPatrolScrub lines s
  | .mapOutTakeEffect tier die => Sys2Proof.Machine.execMapOutTakeEffect tier die s
  | .regionCreate pf region => Sys2Proof.Machine.execRegionCreate pf region s
  | .regionSeal pf region => Sys2Proof.Machine.execRegionSeal pf region s
  | .regionFree pf region => Sys2Proof.Machine.execRegionFree pf region s
  | .quotaLock p => Sys2Proof.Machine.execQuotaLock p s
  | .t3Patrol units => Sys2Proof.Machine.execT3Patrol units s
  | .t3Relocate object unit => Sys2Proof.Machine.execT3Relocate object unit s
  | .flashChannelFail channel => Sys2Proof.Machine.execFlashChannelFail channel s
  | .dmaPause channel => Sys2Proof.Machine.execDmaPause channel s
  | .dmaPauseDrained channel => Sys2Proof.Machine.execDmaPauseDrained channel s
  | .dmaResume channel => Sys2Proof.Machine.execDmaResume channel s
  | .dmaAbort channel => Sys2Proof.Machine.execDmaAbort channel s
  | .dmaRestart channel => Sys2Proof.Machine.execDmaRestart channel s
  | .transferComplete channel hw mism => Sys2Proof.Machine.execTransferComplete channel hw mism s
  | .chipChannelDoorbell door value => Sys2Proof.Machine.execChipChannelDoorbell door value s
  | .chipChannelEntry channel hw n => Sys2Proof.Machine.execChipChannelEntry channel hw n s
  | .chipChannelEntryDone channel => Sys2Proof.Machine.execChipChannelEntryDone channel s
  | .cadFeedEnable feed => Sys2Proof.Machine.execCadFeedEnable feed s
  | .caddieLayerStart feed => Sys2Proof.Machine.execCaddieLayerStart feed s
  | .caddiePieceDone feed layer piece run => Sys2Proof.Machine.execCaddiePieceDone feed layer piece run s
  | .layerRelease core => Sys2Proof.Machine.execLayerRelease core s
  | .recoveryStepDone object => Sys2Proof.Machine.execRecoveryStepDone object s
  | .recoveryDeadline object => Sys2Proof.Machine.execRecoveryDeadline object s
  | .cadSupplyGo p => Sys2Proof.Machine.execCadSupplyGo p s
  | .cadSupplyDecline p => Sys2Proof.Machine.execCadSupplyDecline p s
  | .pcieUnsupportedRequest => Sys2Proof.Machine.execPcieUnsupportedRequest s
  | .windowRead fn addr n => Sys2Proof.Machine.execWindowRead fn addr n s
  | .windowWrite fn addr n value => Sys2Proof.Machine.execWindowWrite fn addr n value s
  | .windowEntryWrite pf e value => Sys2Proof.Machine.execWindowEntryWrite pf e value s
  | .hostFlagWrite fn granule value => Sys2Proof.Machine.execHostFlagWrite fn granule value s
  | .queueDoorbell fn page offset size value => Sys2Proof.Machine.execQueueDoorbell fn page offset size value s
  | .streamHeadWrite fn page offset size value => Sys2Proof.Machine.execStreamHeadWrite fn page offset size value s
  | .queueEnable pf index stream => Sys2Proof.Machine.execQueueEnable pf index stream s
  | .queueDisable pf index stream => Sys2Proof.Machine.execQueueDisable pf index stream s
  | .queueRestart pf index stream => Sys2Proof.Machine.execQueueRestart pf index stream s
  | .entrySegment queue => Sys2Proof.Machine.execEntrySegment queue s
  | .entryGrant queue => Sys2Proof.Machine.execEntryGrant queue s
  | .entryClaim queue => Sys2Proof.Machine.execEntryClaim queue s
  | .entrySignal queue => Sys2Proof.Machine.execEntrySignal queue s
  | .entrySeqCancel queue => Sys2Proof.Machine.execEntrySeqCancel queue s
  | .entryNop queue => Sys2Proof.Machine.execEntryNop queue s
  | .entryInvalid queue => Sys2Proof.Machine.execEntryInvalid queue s
  | .completionPostResume stream => Sys2Proof.Machine.execCompletionPostResume stream s
  | .msixHoldoffExpiry ring n => Sys2Proof.Machine.execMsixHoldoffExpiry ring n s
  | .eventRingWrite pf p value => Sys2Proof.Machine.execEventRingWrite pf p value s
  | .partitionCreate pf p => Sys2Proof.Machine.execPartitionCreate pf p s
  | .partitionLoad pf p others images fails => Sys2Proof.Machine.execPartitionLoad pf p others images fails s
  | .partitionRun pf p => Sys2Proof.Machine.execPartitionRun pf p s
  | .partitionSuspend pf p => Sys2Proof.Machine.execPartitionSuspend pf p s
  | .partitionSuspended p => Sys2Proof.Machine.execPartitionSuspended p s
  | .partitionResume pf p => Sys2Proof.Machine.execPartitionResume pf p s
  | .partitionEnd pf p fails => Sys2Proof.Machine.execPartitionEnd pf p fails s
  | .partitionRestart pf p others images fails => Sys2Proof.Machine.execPartitionRestart pf p others images fails s
  | .partitionDestroy pf p => Sys2Proof.Machine.execPartitionDestroy pf p s
  | .autoRestart p others images fails => Sys2Proof.Machine.execAutoRestart p others images fails s
  | .vfFlr p fails => Sys2Proof.Machine.execVfFlr p fails s
  | .pfFlr fails => Sys2Proof.Machine.execPfFlr fails s
  | .flrDrainTimeout p => Sys2Proof.Machine.execFlrDrainTimeout p s
  | .pgvEnable p => Sys2Proof.Machine.execPgvEnable p s
  | .governorPassStart p => Sys2Proof.Machine.execGovernorPassStart p s
  | .governorPassDecide p => Sys2Proof.Machine.execGovernorPassDecide p s
  | .optEnable p => Sys2Proof.Machine.execOptEnable p s
  | .optNormReduceStart p => Sys2Proof.Machine.execOptNormReduceStart p s
  | .optConstants p => Sys2Proof.Machine.execOptConstants p s
  | .ckptRequest p step => Sys2Proof.Machine.execCkptRequest p step s
  | .checkpointCaptureStart p => Sys2Proof.Machine.execCheckpointCaptureStart p s
  | .checkpointCaptureEnd p => Sys2Proof.Machine.execCheckpointCaptureEnd p s
  | .checkpointDrainDone p => Sys2Proof.Machine.execCheckpointDrainDone p s
  | .fingerprintRound round => Sys2Proof.Machine.execFingerprintRound round s
  | .fingerprintResult p reads again => Sys2Proof.Machine.execFingerprintResult p reads again s
  | .umpInjectArray core => Sys2Proof.Machine.execUmpInjectArray core s
  | .umpInjectChecksum core => Sys2Proof.Machine.execUmpInjectChecksum core s
  | .lnkIdentLock pf => Sys2Proof.Machine.execLnkIdentLock pf s
  | .portEnable pf port value => Sys2Proof.Machine.execPortEnable pf port value s
  | .portBringupDone port failed lanes => Sys2Proof.Machine.execPortBringupDone port failed lanes s
  | .portRetryTimer port => Sys2Proof.Machine.execPortRetryTimer port s
  | .portDown port step => Sys2Proof.Machine.execPortDown port step s
  | .retrainTimeout port => Sys2Proof.Machine.execRetrainTimeout port s
  | .flitReceive port flit errs => Sys2Proof.Machine.execFlitReceive port flit errs s
  | .ackTimer port => Sys2Proof.Machine.execAckTimer port s
  | .msgCredit ix => Sys2Proof.Machine.execMsgCredit ix s
  | .msgRdReq ix => Sys2Proof.Machine.execMsgRdReq ix s
  | .msgWr ix => Sys2Proof.Machine.execMsgWr ix s
  | .msgWrMasked ix => Sys2Proof.Machine.execMsgWrMasked ix s
  | .msgObjRdReq ix => Sys2Proof.Machine.execMsgObjRdReq ix s
  | .msgRdRsp ix => Sys2Proof.Machine.execMsgRdRsp ix s
  | .msgWrAck ix => Sys2Proof.Machine.execMsgWrAck ix s
  | .msgErrRsp ix => Sys2Proof.Machine.execMsgErrRsp ix s
  | .msgSignal ix => Sys2Proof.Machine.execMsgSignal ix s
  | .msgRedPart ix disagree => Sys2Proof.Machine.execMsgRedPart ix disagree s
  | .msgRedResult ix disagree => Sys2Proof.Machine.execMsgRedResult ix disagree s
  | .msgHello port chip pod octet position peer => Sys2Proof.Machine.execMsgHello port chip pod octet position peer s
  | .msgHeartbeat ix => Sys2Proof.Machine.execMsgHeartbeat ix s
  | .msgJoin ix => Sys2Proof.Machine.execMsgJoin ix s
  | .msgView ix group complete => Sys2Proof.Machine.execMsgView ix group complete s
  | .msgTime ix residence => Sys2Proof.Machine.execMsgTime ix residence s
  | .lnkRequestTimeout tag => Sys2Proof.Machine.execLnkRequestTimeout tag s
  | .heartbeatTimer => Sys2Proof.Machine.execHeartbeatTimer s
  | .peerLostTimeout chip => Sys2Proof.Machine.execPeerLostTimeout chip s
  | .timeSyncTimer => Sys2Proof.Machine.execTimeSyncTimer s
  | .timeAdjWrite may offset => Sys2Proof.Machine.execTimeAdjWrite may offset s
  | .ethFrameReceive port frame fcsOk => Sys2Proof.Machine.execEthFrameReceive port frame fcsOk s
  | .ethRingTail pf port ring tail => Sys2Proof.Machine.execEthRingTail pf port ring tail s
  | .ethTransmitDone port ring => Sys2Proof.Machine.execEthTransmitDone port ring s
  | .redGroupWrite pf p value => Sys2Proof.Machine.execRedGroupWrite pf p value s
  | .redRestart pf p => Sys2Proof.Machine.execRedRestart pf p s
  | .redDoorbell pf p tail => Sys2Proof.Machine.execRedDoorbell pf p tail s
  | .redEntry p => Sys2Proof.Machine.execRedEntry p s
  | .redEntryDone p => Sys2Proof.Machine.execRedEntryDone p s
  | .reductionTimeout p cls => Sys2Proof.Machine.execReductionTimeout p cls s
  | .refereePowerGood slot low => Sys2Proof.Machine.execRefereePowerGood slot low s
  | .bootPhaseDone findings plan => Sys2Proof.Machine.execBootPhaseDone findings plan s
  | .bootPhaseTimeout => Sys2Proof.Machine.execBootPhaseTimeout s
  | .watchdogExpiry => Sys2Proof.Machine.execWatchdogExpiry s
  | .railFault unit => Sys2Proof.Machine.execRailFault unit s
  | .refFullReset key => Sys2Proof.Machine.execRefFullReset key s
  | .refRailsOff key => Sys2Proof.Machine.execRefRailsOff key s
  | .perstAssert fails => Sys2Proof.Machine.execPerstAssert fails s
  | .perstRelease => Sys2Proof.Machine.execPerstRelease s
  | .bar0BlockTimeout who off size write => Sys2Proof.Machine.execBar0BlockTimeout who off size write s
  | .bootAreaWriteDone ok => Sys2Proof.Machine.execBootAreaWriteDone ok s
  | .mbxMsgWrite id c ix value => Sys2Proof.Machine.execMbxMsgWrite id c ix value s
  | .mbxGo id c => Sys2Proof.Machine.execMbxGo id c s
  | .mbxAck id c code => Sys2Proof.Machine.execMbxAck id c code s
  | .status path => Sys2Proof.Machine.execStatus path s
  | .read path => Sys2Proof.Machine.execRead path s
  | .attest path => Sys2Proof.Machine.execAttest path s
  | .imageBegin path => Sys2Proof.Machine.execImageBegin path s
  | .imageData path => Sys2Proof.Machine.execImageData path s
  | .imageEnd path => Sys2Proof.Machine.execImageEnd path s
  | .reset path => Sys2Proof.Machine.execReset path s
  | .railsOff path => Sys2Proof.Machine.execRailsOff path s
  | .svnCommit path ok => Sys2Proof.Machine.execSvnCommit path ok s
  | .provision path ok => Sys2Proof.Machine.execProvision path ok s
  | .spdmRequest doe request pair => Sys2Proof.Machine.execSpdmRequest doe request pair s
  | .getTid inst => Sys2Proof.Machine.execGetTid inst s
  | .setTid inst tid => Sys2Proof.Machine.execSetTid inst tid s
  | .getPldmVersion inst type => Sys2Proof.Machine.execGetPldmVersion inst type s
  | .getPldmTypes inst => Sys2Proof.Machine.execGetPldmTypes inst s
  | .getPldmCommands inst type => Sys2Proof.Machine.execGetPldmCommands inst type s
  | .setEventReceiver inst method addr => Sys2Proof.Machine.execSetEventReceiver inst method addr s
  | .getSensorReading inst sensor => Sys2Proof.Machine.execGetSensorReading inst sensor s
  | .getStateSensorReadings inst sensor => Sys2Proof.Machine.execGetStateSensorReadings inst sensor s
  | .setNumericEffecterValue inst effecter value => Sys2Proof.Machine.execSetNumericEffecterValue inst effecter value s
  | .getNumericEffecterValue inst effecter => Sys2Proof.Machine.execGetNumericEffecterValue inst effecter s
  | .getPdrRepositoryInfo inst => Sys2Proof.Machine.execGetPdrRepositoryInfo inst s
  | .getPdr inst handle => Sys2Proof.Machine.execGetPdr inst handle s
  | .pldmUnsupported inst type cmd => Sys2Proof.Machine.execPldmUnsupported inst type cmd s
  | .pldmEventRetry id acked => Sys2Proof.Machine.execPldmEventRetry id acked s
  | .powerSample input package vin iin => Sys2Proof.Machine.execPowerSample input package vin iin s
  | .powerControlTick => Sys2Proof.Machine.execPowerControlTick s
  | .pwrcapInput asserted => Sys2Proof.Machine.execPwrcapInput asserted s
  | .clockPointStepDone island => Sys2Proof.Machine.execClockPointStepDone island s
  | .thermalTick readings => Sys2Proof.Machine.execThermalTick readings s
  | .thermalTrip sensor reading => Sys2Proof.Machine.execThermalTrip sensor reading s
  | .mgnReplan => Sys2Proof.Machine.execMgnReplan s
  | .replanInterval => Sys2Proof.Machine.execReplanInterval s
  | .replanDone plan => Sys2Proof.Machine.execReplanDone plan s
  | .marginMonitorTick slacks => Sys2Proof.Machine.execMarginMonitorTick slacks s
  | .inputPowerUp => Sys2Proof.Machine.execInputPowerUp s
  | .inputPowerLoss => Sys2Proof.Machine.execInputPowerLoss s
  | .cablePowerFault port => Sys2Proof.Machine.execCablePowerFault port s
  | .dmiOperation pf value op data => Sys2Proof.Machine.execDmiOperation pf value op data s
  | .tracePoolWrite d value => Sys2Proof.Machine.execTracePoolWrite d value s
  | .traceEnable p value => Sys2Proof.Machine.execTraceEnable p value s
  | .traceDisable p value => Sys2Proof.Machine.execTraceDisable p value s
  | .traceForce p => Sys2Proof.Machine.execTraceForce p s
  | .traceBufferFull p d => Sys2Proof.Machine.execTraceBufferFull p d s
  | .watchArm p n value => Sys2Proof.Machine.execWatchArm p n value s
  | .serviceCoreMemoryAccess hart access addr n => Sys2Proof.Machine.execServiceCoreMemoryAccess hart access addr n s
  | .accessErrorRead path off size => Sys2Proof.Machine.execAccessErrorRead path off size s
  | .mbxDeniedRead id c => Sys2Proof.Machine.execMbxDeniedRead id c s
  | .uncorrectableControlState unit => Sys2Proof.Machine.execUncorrectableControlState unit s
  | .refereeSramError double addr => Sys2Proof.Machine.execRefereeSramError double addr s
  | .mctpControlMessage inst cmd op eid => Sys2Proof.Machine.execMctpControlMessage inst cmd op eid s
  | .dynamicAddressAssignment setdasa static addr => Sys2Proof.Machine.execDynamicAddressAssignment setdasa static addr s
  | .atsInvalidation tag pasid page n => Sys2Proof.Machine.execAtsInvalidation tag pasid page n s
  | .doeDiscovery index => Sys2Proof.Machine.execDoeDiscovery index s
  | .devicePowerStateWrite fn w => Sys2Proof.Machine.execDevicePowerStateWrite fn w s

end Sys2Proof.Machine
end

