-- ==== Sys2Proof/Safety.lean ====
section
/-!
DEFINITION. What the claims mean by a sound state, by a run, and by the kinds of state that a command leaves alone.
-/
namespace Sys2Proof.Machine

/-- The memories hold their canonical form: addresses strictly rising, no byte listed that reads as an unlisted one. -/
def State.memoryCanonical (s : State) : Bool := Memory.wf s.mem && Memory.wf s.hostMem

/-- The memories, the register file, the cores and the scorebooks hold their canonical form: keys strictly rising, nothing
listed that reads as an unlisted key does. Equal contents are then equal data. -/
def State.canonical (s : State) : Bool :=
  s.memoryCanonical && Sparse.wf regReset s.regs && Sparse.wf (fun _ => Core.reset) s.cores &&
    Sparse.wf (fun _ => Entry.reset) s.book

/-- R225: an object with COUNT above 0 has no waiters. -/
def State.syncRule (s : State) : Prop := ∀ o : Nat, 0 < (s.obj o).count → (s.obj o).waiters = []

/-- `t` is what a run of `n` steps from `s` comes to. -/
def State.runs (s : State) : Nat → State → Prop
  | 0, t => s = t
  | n + 1, t => ∃ u, step s = .next u ∧ State.runs u n t

/-- The kinds of state: one for each field of State. -/
inductive Field where
  | pending | dtime | regs | mem | hostMem | book | learned | benched | cores | sync | waitOrder | signals | dispatch
  | segOrder | streams | rings | heads | haltAt | heldHeads | queues | atsOn | atc | lowPower | flags | out | events
  | bad | poison | cache | watch | flash | flashDown | ports | inbox | fellows | pfc | reqs | serial | tag | chans
  | feeds | fences | recoveries | gviews | reds | redSeq | redRings | jobs | traceBufs | traceTurn | dm | posted
  | referee | power | freeCount | lines | hartCsr | msix | msixCtl | hartFull
  deriving DecidableEq, Repr

/-- `t` holds in a field what `s` holds. -/
def Field.same (s t : State) : Field → Prop
  | .pending => t.pending = s.pending
  | .dtime => t.dtime = s.dtime
  | .regs => t.regs = s.regs
  | .mem => t.mem = s.mem
  | .hostMem => t.hostMem = s.hostMem
  | .book => t.book = s.book
  | .learned => t.learned = s.learned
  | .benched => t.benched = s.benched
  | .cores => t.cores = s.cores
  | .sync => t.sync = s.sync
  | .waitOrder => t.waitOrder = s.waitOrder
  | .signals => t.signals = s.signals
  | .dispatch => t.dispatch = s.dispatch
  | .segOrder => t.segOrder = s.segOrder
  | .streams => t.streams = s.streams
  | .rings => t.rings = s.rings
  | .heads => t.heads = s.heads
  | .haltAt => t.haltAt = s.haltAt
  | .heldHeads => t.heldHeads = s.heldHeads
  | .queues => t.queues = s.queues
  | .atsOn => t.atsOn = s.atsOn
  | .atc => t.atc = s.atc
  | .lowPower => t.lowPower = s.lowPower
  | .flags => t.flags = s.flags
  | .out => t.out = s.out
  | .events => t.events = s.events
  | .bad => t.bad = s.bad
  | .poison => t.poison = s.poison
  | .cache => t.cache = s.cache
  | .watch => t.watch = s.watch
  | .flash => t.flash = s.flash
  | .flashDown => t.flashDown = s.flashDown
  | .ports => t.ports = s.ports
  | .inbox => t.inbox = s.inbox
  | .fellows => t.fellows = s.fellows
  | .pfc => t.pfc = s.pfc
  | .reqs => t.reqs = s.reqs
  | .serial => t.serial = s.serial
  | .tag => t.tag = s.tag
  | .chans => t.chans = s.chans
  | .feeds => t.feeds = s.feeds
  | .fences => t.fences = s.fences
  | .recoveries => t.recoveries = s.recoveries
  | .gviews => t.gviews = s.gviews
  | .reds => t.reds = s.reds
  | .redSeq => t.redSeq = s.redSeq
  | .redRings => t.redRings = s.redRings
  | .jobs => t.jobs = s.jobs
  | .traceBufs => t.traceBufs = s.traceBufs
  | .traceTurn => t.traceTurn = s.traceTurn
  | .dm => t.dm = s.dm
  | .posted => t.posted = s.posted
  | .referee => t.referee = s.referee
  | .power => t.power = s.power
  | .freeCount => t.freeCount = s.freeCount
  | .lines => t.lines = s.lines
  | .hartCsr => t.hartCsr = s.hartCsr
  | .msix => t.msix = s.msix
  | .msixCtl => t.msixCtl = s.msixCtl
  | .hartFull => t.hartFull = s.hartFull

/-- Every field but those of a list is the same in `t` as in `s`. -/
def State.onlyChanges (s t : State) (l : List Field) : Prop := ∀ f : Field, f ∉ l → f.same s t

/-- Every kind of state. -/
def allFields : List Field :=
  [.pending, .dtime, .regs, .mem, .hostMem, .book, .learned, .benched, .cores, .sync, .waitOrder, .signals, .dispatch,
   .segOrder, .streams, .rings, .heads, .haltAt, .heldHeads, .queues, .atsOn, .atc, .lowPower, .flags, .out, .events, .bad,
   .poison, .cache, .watch, .flash, .flashDown, .ports, .inbox, .fellows, .pfc, .reqs, .serial, .tag, .chans, .feeds,
   .fences, .recoveries, .gviews, .reds, .redSeq, .redRings, .jobs, .traceBufs, .traceTurn, .dm, .posted, .referee, .power,
   .freeCount, .lines, .hartCsr, .msix, .msixCtl, .hartFull]

/-- Every kind of state but those of a list. -/
def fieldsBut (l : List Field) : List Field := allFields.filter (fun f => !(l.contains f))

/-- The kinds of state that a command may change. A full reset, which some commands lead to, changes most of them. -/
def Instr.changes : Instr → List Field
  | .registerWrite _ _ _ _ | .serviceCoreMemoryAccess _ _ _ _ =>
    fieldsBut [.pending, .learned, .flashDown, .serial]
  | .privilegedRead _ _ _ | .synWaitersRead _ _ _ | .bar0BlockTimeout _ _ _ _ | .accessErrorRead _ _ _ =>
    [.regs, .out, .events, .referee]
  | .arrLoad _ _ | .arrFill _ _ | .arrSwap _ _ | .sbkClear _ _ | .sbkSpill _ _ | .sbkRestore _ _ | .outMatstream _ _ =>
    [.regs, .mem, .book, .cores, .events, .bad, .poison, .cache]
  | .arrLoadDone _ | .arrFillDone _ | .outBind _ | .staBind _ | .pfence _ | .stepEndRetire _ | .pmkNop _ | .pmkJump _
  | .pmkEnd _ | .commandRetire _ _ =>
    [.regs, .cores, .signals, .events, .ports, .fences]
  | .matstream _ _ =>
    [.regs, .mem, .book, .cores, .events, .bad, .poison, .cache, .serial]
  | .arbitrationDecided _ _ _ _ _ _ =>
    [.regs, .mem, .book, .learned, .cores, .events, .bad, .poison, .watch, .serial, .freeCount]
  | .sbkDrain _ _ | .dmaGather _ _ _ =>
    [.regs, .mem, .book, .cores, .events, .bad, .poison, .cache, .watch]
  | .cnvMatmul _ _ | .cnvProj _ _ | .cnvCorr _ _ | .vecEw _ _ | .vecReduce _ _ =>
    [.regs, .mem, .book, .cores, .events, .bad, .poison, .cache, .watch, .serial]
  | .stepEnd _ | .invalidCommand _ | .fetchResponse _ _ =>
    [.regs, .cores, .events]
  | .lfence _ =>
    [.regs, .cores, .signals, .events, .ports, .feeds, .fences]
  | .optNorm _ _ | .optUpdate _ _ =>
    [.regs, .mem, .book, .cores, .events, .bad, .poison, .cache, .watch, .serial, .freeCount]
  | .dmaXfer _ _ _ _ =>
    [.regs, .mem, .book, .cores, .events, .bad, .poison, .cache, .flash, .ports, .reqs, .serial, .tag, .chans, .recoveries,
     .posted, .referee]
  | .segmentArrive _ =>
    [.regs, .cores, .dispatch, .events]
  | .segmentComplete _ | .completionPostResume _ =>
    [.regs, .mem, .hostMem, .book, .cores, .streams, .atc, .out, .events, .bad, .poison, .msix]
  | .pmkHalt _ | .pmkResume _ | .umpInjectArray _ | .umpInjectChecksum _ =>
    [.regs, .cores, .out, .events]
  | .drainComplete _ =>
    [.regs, .cores]
  | .syncWait _ | .hartWait _ _ _ _ =>
    [.regs, .mem, .book, .cores, .sync, .waitOrder, .signals, .heads, .out, .events, .bad, .poison, .hartFull]
  | .syncSignal _ | .syncBroadcast _ | .hartCancel _ _ =>
    [.regs, .mem, .book, .cores, .sync, .signals, .heads, .out, .events, .bad, .poison, .hartFull]
  | .syncWaitTimeout _ _ =>
    [.dtime, .regs, .mem, .book, .cores, .sync, .heads, .out, .events, .bad, .poison, .hartFull]
  | .synInit _ _ | .synSetCount _ _ | .synSetState _ _ | .synCheck _ | .synRelease _ _ =>
    [.regs, .mem, .book, .cores, .sync, .heads, .out, .events, .bad, .poison, .hartFull]
  | .hartSignal _ _ _ | .hartBroadcast _ _ _ =>
    [.regs, .signals, .out, .events, .ports]
  | .patrolScrub _ =>
    [.regs, .mem, .book, .events, .poison]
  | .mapOutTakeEffect _ _ =>
    [.regs, .mem, .events, .poison]
  | .regionCreate _ _ | .regionSeal _ _ | .regionFree _ _ | .windowRead _ _ _ =>
    [.regs, .out, .events, .cache]
  | .quotaLock _ | .dmaRestart _ | .chipChannelDoorbell _ _ | .pcieUnsupportedRequest | .optEnable _ | .ckptRequest _ _
  | .redRestart _ _ | .redDoorbell _ _ _ | .mbxMsgWrite _ _ _ _ | .tracePoolWrite _ _ | .mbxDeniedRead _ _ =>
    [.regs, .out, .events]
  | .t3Patrol _ | .t3Relocate _ _ =>
    [.flash]
  | .flashChannelFail _ =>
    [.regs, .events, .flashDown]
  | .dmaPause _ | .dmaResume _ =>
    [.regs, .out, .events, .chans]
  | .dmaPauseDrained _ | .transferComplete _ _ _ =>
    [.regs, .mem, .book, .cores, .events, .bad, .poison, .cache, .flash, .ports, .reqs, .tag, .chans, .recoveries, .posted,
     .referee]
  | .dmaAbort _ =>
    [.regs, .cores, .sync, .heads, .out, .events, .reqs, .chans]
  | .chipChannelEntry _ _ _ =>
    [.regs, .mem, .book, .cores, .sync, .waitOrder, .signals, .heads, .out, .events, .bad, .poison, .cache, .flash, .ports,
     .reqs, .serial, .tag, .chans, .recoveries, .posted, .referee, .hartFull]
  | .chipChannelEntryDone _ =>
    [.regs, .mem, .book, .signals, .heads, .events, .bad, .poison, .cache, .ports, .chans]
  | .cadFeedEnable _ =>
    [.regs, .out, .events, .feeds]
  | .caddieLayerStart _ =>
    [.regs, .mem, .book, .cores, .events, .bad, .poison, .cache, .serial, .chans, .feeds]
  | .caddiePieceDone _ _ _ _ =>
    [.regs, .mem, .book, .cores, .events, .bad, .poison, .cache, .flash, .ports, .reqs, .tag, .chans, .feeds, .recoveries,
     .posted, .referee]
  | .layerRelease _ =>
    [.regs, .feeds, .fences]
  | .recoveryStepDone _ =>
    [.regs, .cores, .events, .cache, .flash, .ports, .reqs, .serial, .tag, .chans, .feeds, .recoveries]
  | .recoveryDeadline _ =>
    [.dtime, .regs, .cores, .events, .flash, .reqs, .chans, .feeds, .recoveries]
  | .cadSupplyGo _ =>
    [.regs, .out, .events, .recoveries]
  | .cadSupplyDecline _ =>
    [.regs, .cores, .out, .events, .flash, .reqs, .chans, .feeds, .recoveries]
  | .windowWrite _ _ _ _ | .ethTransmitDone _ _ =>
    [.regs, .mem, .book, .out, .events, .bad, .poison, .cache]
  | .windowEntryWrite _ _ _ | .hostFlagWrite _ _ _ =>
    [.regs, .flags, .out, .events]
  | .queueDoorbell _ _ _ _ _ | .streamHeadWrite _ _ _ _ _ =>
    [.regs, .mem, .book, .out, .events, .bad, .poison]
  | .queueEnable _ _ _ | .queueDisable _ _ _ | .queueRestart _ _ _ =>
    [.regs, .mem, .book, .cores, .sync, .streams, .heads, .heldHeads, .queues, .out, .events, .bad, .poison]
  | .entrySegment _ =>
    [.regs, .mem, .hostMem, .book, .cores, .sync, .waitOrder, .signals, .dispatch, .segOrder, .streams, .heads, .heldHeads,
     .queues, .atc, .out, .events, .bad, .poison, .freeCount, .msix, .hartFull]
  | .entryGrant _ | .entryClaim _ =>
    [.regs, .mem, .hostMem, .book, .cores, .sync, .waitOrder, .signals, .streams, .heads, .heldHeads, .queues, .atc,
     .flags, .out, .events, .bad, .poison, .freeCount, .msix, .hartFull]
  | .entrySignal _ =>
    [.regs, .mem, .hostMem, .book, .cores, .sync, .waitOrder, .signals, .streams, .heads, .heldHeads, .queues, .atc, .out,
     .events, .bad, .poison, .ports, .freeCount, .msix, .hartFull]
  | .entrySeqCancel _ =>
    [.regs, .mem, .hostMem, .book, .cores, .sync, .waitOrder, .signals, .dispatch, .streams, .heads, .heldHeads, .queues,
     .atc, .out, .events, .bad, .poison, .freeCount, .msix, .hartFull]
  | .entryNop _ =>
    [.regs, .mem, .hostMem, .book, .cores, .sync, .waitOrder, .signals, .streams, .heads, .heldHeads, .queues, .atc, .out,
     .events, .bad, .poison, .freeCount, .msix, .hartFull]
  | .entryInvalid _ =>
    [.regs, .mem, .hostMem, .book, .cores, .streams, .heads, .queues, .atc, .out, .events, .bad, .poison, .freeCount,
     .msix]
  | .msixHoldoffExpiry _ _ =>
    [.dtime, .streams, .rings, .out, .msix]
  | .eventRingWrite _ _ _ =>
    [.regs, .rings, .out, .events]
  | .partitionCreate _ _ | .partitionSuspend _ _ =>
    [.regs, .haltAt, .out, .events, .jobs]
  | .partitionLoad _ _ _ _ _ =>
    fieldsBut [.pending, .hostMem, .learned, .dispatch, .segOrder, .atsOn, .atc, .lowPower, .flashDown, .inbox, .pfc,
     .serial, .tag, .gviews, .redRings, .posted, .lines, .msixCtl]
  | .partitionRun _ _ =>
    [.regs, .cores, .haltAt, .out, .events, .jobs]
  | .partitionSuspended _ =>
    [.regs, .mem, .sync, .haltAt, .chans, .jobs]
  | .partitionResume _ _ =>
    [.regs, .cores, .sync, .haltAt, .out, .events, .chans, .jobs]
  | .partitionEnd _ _ _ | .flrDrainTimeout _ =>
    fieldsBut [.pending, .dtime, .learned, .waitOrder, .signals, .segOrder, .rings, .atsOn, .lowPower, .flags, .watch,
     .flashDown, .ports, .inbox, .fellows, .pfc, .serial, .tag, .gviews, .redSeq, .redRings, .dm, .posted, .freeCount,
     .lines, .hartCsr, .msixCtl]
  | .partitionRestart _ _ _ _ _ | .autoRestart _ _ _ _ =>
    fieldsBut [.pending, .learned, .segOrder, .atsOn, .lowPower, .flashDown, .inbox, .pfc, .serial, .tag, .gviews,
     .redRings, .posted, .lines, .msixCtl]
  | .partitionDestroy _ _ =>
    [.regs, .mem, .book, .cores, .sync, .streams, .heads, .haltAt, .heldHeads, .queues, .out, .events, .bad, .poison,
     .cache, .reqs, .chans, .jobs]
  | .vfFlr _ _ | .pfFlr _ =>
    fieldsBut [.pending, .dtime, .learned, .waitOrder, .signals, .segOrder, .rings, .flags, .watch, .flashDown, .ports,
     .inbox, .fellows, .pfc, .serial, .tag, .gviews, .redSeq, .redRings, .dm, .posted, .freeCount, .lines, .hartCsr]
  | .pgvEnable _ =>
    [.regs, .mem, .book, .out, .events, .bad, .poison, .jobs]
  | .governorPassStart _ =>
    [.regs, .mem, .book, .cores, .events, .bad, .poison, .ports, .reds, .redSeq, .jobs]
  | .governorPassDecide _ | .fingerprintResult _ _ _ =>
    [.regs, .mem, .book, .cores, .events, .bad, .poison, .reds, .jobs]
  | .optNormReduceStart _ =>
    [.regs, .cores, .events, .ports, .reds, .redSeq, .jobs]
  | .optConstants _ =>
    [.regs, .mem, .book, .cores, .haltAt, .events, .bad, .poison, .flash, .ports, .reqs, .tag, .reds, .jobs]
  | .checkpointCaptureStart _ =>
    [.regs, .events, .flash, .ports, .reqs, .tag, .jobs]
  | .checkpointCaptureEnd _ =>
    [.regs, .reqs, .jobs]
  | .checkpointDrainDone _ =>
    [.regs, .events, .flash, .reqs, .jobs]
  | .fingerprintRound _ =>
    [.regs, .out, .events, .ports, .reds, .redSeq, .jobs]
  | .lnkIdentLock _ | .msgHello _ _ _ _ _ _ | .ethRingTail _ _ _ _ =>
    [.regs, .out, .events, .ports]
  | .portEnable _ _ _ =>
    [.regs, .out, .events, .ports, .reqs, .chans, .recoveries, .jobs]
  | .portBringupDone _ _ _ =>
    [.regs, .events, .ports]
  | .portRetryTimer _ =>
    [.regs, .ports]
  | .portDown _ _ =>
    [.regs, .events, .ports, .reqs, .chans, .recoveries, .jobs]
  | .retrainTimeout _ =>
    [.dtime, .regs, .events, .ports, .reqs, .chans, .recoveries, .jobs]
  | .flitReceive _ _ _ =>
    [.regs, .events, .ports, .inbox]
  | .ackTimer _ =>
    [.dtime, .regs, .out, .events, .ports]
  | .msgCredit _ =>
    [.ports, .inbox]
  | .msgRdReq _ =>
    [.regs, .events, .cache, .ports, .inbox, .reqs, .chans, .recoveries, .jobs]
  | .msgWr _ | .msgWrMasked _ =>
    [.regs, .mem, .book, .events, .bad, .poison, .cache, .ports, .inbox, .reqs, .chans, .recoveries, .jobs]
  | .msgObjRdReq _ | .msgRdRsp _ | .msgWrAck _ | .msgErrRsp _ =>
    [.regs, .events, .ports, .inbox, .reqs, .chans, .recoveries, .jobs]
  | .msgSignal _ =>
    [.regs, .mem, .book, .cores, .sync, .heads, .out, .events, .bad, .poison, .ports, .inbox, .reqs, .chans, .recoveries,
     .jobs, .hartFull]
  | .msgRedPart _ _ | .msgRedResult _ _ =>
    [.regs, .events, .ports, .inbox, .reqs, .chans, .recoveries, .reds, .jobs]
  | .msgHeartbeat _ =>
    [.regs, .events, .ports, .inbox, .fellows, .reqs, .chans, .recoveries, .jobs]
  | .msgJoin _ =>
    [.regs, .mem, .book, .events, .bad, .poison, .ports, .inbox, .fellows, .reqs, .chans, .recoveries, .gviews, .jobs]
  | .msgView _ _ _ =>
    [.regs, .mem, .book, .events, .bad, .poison, .ports, .inbox, .fellows, .reqs, .chans, .recoveries, .gviews, .reds,
     .jobs]
  | .msgTime _ _ =>
    [.dtime, .regs, .events, .ports, .inbox, .fellows, .reqs, .chans, .recoveries, .jobs]
  | .lnkRequestTimeout _ =>
    [.dtime, .events, .reqs, .chans, .recoveries, .jobs]
  | .heartbeatTimer | .timeSyncTimer =>
    [.events, .ports]
  | .peerLostTimeout _ =>
    [.dtime, .regs, .mem, .book, .events, .bad, .poison, .ports, .fellows, .gviews, .reds]
  | .timeAdjWrite _ _ =>
    [.dtime, .regs, .out, .events, .fellows]
  | .ethFrameReceive _ _ _ =>
    [.regs, .mem, .book, .out, .events, .bad, .poison, .cache, .ports, .pfc]
  | .redGroupWrite _ _ _ =>
    [.regs, .out, .events, .reds, .redSeq]
  | .redEntry _ =>
    [.regs, .mem, .book, .cores, .sync, .waitOrder, .signals, .heads, .out, .events, .bad, .poison, .ports, .reds, .redSeq,
     .redRings, .hartFull]
  | .redEntryDone _ =>
    [.regs, .mem, .book, .cores, .signals, .events, .bad, .poison, .watch, .ports, .reds, .redRings]
  | .reductionTimeout _ _ =>
    [.dtime, .regs, .events, .reds]
  | .refereePowerGood _ _ =>
    [.dtime, .referee]
  | .bootPhaseDone _ _ =>
    fieldsBut [.pending, .dtime, .hostMem, .serial, .freeCount]
  | .bootPhaseTimeout =>
    fieldsBut [.pending, .hostMem, .learned, .benched, .flash, .flashDown, .serial, .freeCount]
  | .watchdogExpiry | .railFault _ | .refFullReset _ | .refRailsOff _ | .bootAreaWriteDone _ | .reset _ | .railsOff _
  | .powerSample _ _ _ _ | .thermalTick _ | .thermalTrip _ _ | .uncorrectableControlState _ | .refereeSramError _ _ =>
    fieldsBut [.pending, .dtime, .hostMem, .learned, .benched, .flash, .flashDown, .serial, .freeCount]
  | .perstAssert _ =>
    fieldsBut [.pending, .dtime, .learned, .flashDown, .serial, .freeCount]
  | .perstRelease | .inputPowerUp | .dynamicAddressAssignment _ _ _ =>
    [.referee]
  | .mbxGo _ _ | .mbxAck _ _ _ | .status _ | .read _ | .attest _ | .imageBegin _ | .imageData _ | .imageEnd _
  | .svnCommit _ _ | .provision _ _ =>
    [.regs, .out, .events, .referee, .msix]
  | .spdmRequest _ _ _ =>
    [.out, .freeCount]
  | .getTid _ | .getPldmVersion _ _ | .getPldmTypes _ | .getPldmCommands _ _ | .getSensorReading _ _
  | .getStateSensorReadings _ _ | .getNumericEffecterValue _ _ | .getPdrRepositoryInfo _ | .getPdr _ _
  | .pldmUnsupported _ _ _ | .doeDiscovery _ =>
    [.out]
  | .setTid _ _ | .setEventReceiver _ _ _ | .pldmEventRetry _ _ | .mctpControlMessage _ _ _ _ =>
    [.out, .referee]
  | .setNumericEffecterValue _ _ _ =>
    [.regs, .out]
  | .powerControlTick | .marginMonitorTick _ =>
    [.regs, .events, .power]
  | .pwrcapInput _ =>
    [.regs]
  | .clockPointStepDone _ =>
    [.regs, .power]
  | .mgnReplan =>
    [.regs, .out, .events, .power]
  | .replanInterval =>
    [.dtime, .regs, .power]
  | .replanDone _ =>
    [.regs, .events, .referee, .power]
  | .inputPowerLoss =>
    fieldsBut [.pending, .hostMem, .learned, .benched, .out, .flash, .flashDown, .serial, .freeCount]
  | .cablePowerFault _ =>
    [.regs, .events, .ports, .reqs, .chans, .recoveries, .jobs, .referee]
  | .dmiOperation _ _ _ _ =>
    [.regs, .mem, .book, .cores, .sync, .heads, .out, .events, .bad, .poison, .dm, .referee, .hartCsr, .msix, .hartFull]
  | .traceEnable _ _ =>
    [.regs, .out, .events, .traceBufs]
  | .traceDisable _ _ =>
    [.regs, .mem, .book, .cores, .out, .events, .bad, .poison, .traceBufs, .traceTurn]
  | .traceForce _ =>
    [.regs, .mem, .book, .out, .events, .bad, .poison, .traceBufs]
  | .traceBufferFull _ _ =>
    [.regs, .events]
  | .watchArm _ _ _ =>
    [.regs, .out, .events, .watch]
  | .atsInvalidation _ _ _ _ =>
    [.atc, .out]
  | .devicePowerStateWrite _ _ =>
    [.atsOn, .lowPower, .out, .msix, .msixCtl]

end Sys2Proof.Machine
end

