-- ==== Sys2Proof/Certificates/Slice0/Obligations.lean ====
section
/-!
DEFINITION. The statements about the model. Each follows rules of the spec, which its entry in OBLIGATIONS.json cites.
-/
open Sys2Proof Sys2Proof.Machine

/-- The registers but those of a list read in `t` as in `s`. -/
def Sys2Proof.Machine.State.regsBut (s t : State) (l : List Nat) : Prop := ∀ a : Nat, a ∉ l → t.reg a = s.reg a

/-- A register access of the physical function at BAR0 offset `a` reaches its block: the device has power and is READY, the
function decodes its BAR, the block answers. -/
def Sys2Proof.Machine.State.reaches (s : State) (a : Nat) : Prop :=
  s.referee.power = true ∧ s.lowPower.contains 0 = false ∧ s.rdBit .refReadyReady = true ∧ s.isWedged a = false

/-- The command `i` has its turn in a row of opcode `op` on queue `q` of core `c`: with the head issued if it may be, `i` is the
queue's first command not executed, it has that opcode and has not begun; `b` is the state in which it has begun. -/
def Sys2Proof.Machine.State.turn (s : State) (c op : Nat) (q : Queue) (regions : Nat → List Region) (i : Issued) (b : State) : Prop :=
  ((s.tryIssue c op q regions).core c).nextOf q = some i ∧ i.opcode = op ∧ i.progress = .waiting ∧
    b = (s.tryIssue c op q regions).began c i

/-- Every command of core `c` that holds the token has been executed with a status code. -/
def Sys2Proof.Machine.State.hasExecuted (s : State) (c token code : Nat) : Prop :=
  ∀ j ∈ (s.core c).inflight, j.token = token → j.progress = .executed code

/-- The same for the array's queue, whose commands begin by the rules of R212. -/
def Sys2Proof.Machine.State.arrTurn (s : State) (c op : Nat) (regions : Nat → List Region) (i : Issued) (b : State) : Prop :=
  ((s.tryIssue c op .arr regions).core c).arrNext op = some i ∧ i.progress = .waiting ∧
    b = (s.tryIssue c op .arr regions).began c i

/-- The command `w` at the head of core `c` has the opcode `op` and passes every check of Table 8-6; it is issued as `i`, and
`b` is the state in which it has begun. -/
def Sys2Proof.Machine.State.pmkTurn (s : State) (c op w : Nat) (i : Issued) (b : State) : Prop :=
  (s.core c).head = some w ∧ s.mayIssue c op .pmk [] = true ∧ i = s.issued c w .pmk [] ∧
    b = (s.issueHead c w .pmk []).began c i

/-- The signal at place `i` of those on their way arrives next at its object: it is `g`, and no earlier one of its source is for
the same object. -/
def Sys2Proof.Machine.State.arrives (s : State) (i : Nat) (g : Signal) : Prop :=
  s.signals[i]? = some g ∧ ∀ y ∈ s.signals.take i, ¬ (y.src = g.src ∧ y.object = g.object)

/-- A manual operation has been accepted: the status code is 0, and SYN_MANUAL carries the object, the operation, and the object's
count and state after it (Table 9-8). -/
def Sys2Proof.Machine.State.manReported (t : State) (o op : Nat) : Prop :=
  t.rd .synManStatusCode = 0 ∧ ∃ e ∈ t.events, e.code = Code.synManual.val ∧
    e.payload = payload [(16, 2, o), (18, 1, op), (20, 4, (t.obj o).count), (24, 1, (t.obj o).state)]

/-- The position registers of a channel are exact for its transfer (R279): the descriptor, the next source and destination
address, and what is left to move. -/
def Sys2Proof.Machine.State.posOf (t : State) (key : Nat) (x : Xfer) : Prop :=
  let off := if xfBlocks x.desc then 4096 * x.moved else x.moved
  t.reg (Reg.dmaChPos (chanBase key) 0) = BitVec.ofNat 64 x.da ∧
    t.reg (Reg.dmaChPos (chanBase key) 1) = BitVec.ofNat 64 (if xfZpack x.desc then xfSrc x.desc else xfSrc x.desc + off) ∧
    t.reg (Reg.dmaChPos (chanBase key) 2) = BitVec.ofNat 64 (xfDst x.desc + off) ∧
    t.reg (Reg.dmaChPos (chanBase key) 3) = BitVec.ofNat 64 (xfCount x.desc - x.moved)

/-- The entry at the head of queue `q` is `w`, of type `type`, read in state `u` with the checks of R310 passed and no wait asked. -/
def Sys2Proof.Machine.State.headEntry (s : State) (q type w : Nat) (u : State) : Prop :=
  s.queueState q = 1 ∧ s.queueHead q ≠ s.queueTail q ∧ s.queueWaits q = false ∧ s.readEntry q = (u, w, none) ∧ enType w = type ∧
    u.entryReason (u.queuePart q) w = none ∧ enWait w = false ∧ u.headWait q = .none

/-- For every state with a command c at the front of its queue, step answers what exec answers for c on the state with
the rest of the queue. -/
def Obligations.StepTakesFrontCommand : Prop :=
  ∀ (s : State) (c : Instr) (rest : List Instr), s.pending = c :: rest → step s = exec c { s with pending := rest }

/-- With an empty queue step answers a next state whose queue is empty (a step that lets a nanosecond pass is the
model's choice, log entry 1). Without power it changes nothing. With power, and no write on its way to register space,
DTIME advances by 1 ns; while a correction is being slewed, the 5,000th nanosecond counts 2 for a correction forward and
0 for one backward, which is the 200 ppm of R33, and DTIME never goes back. -/
def Obligations.IdleStepLetsTimePass : Prop :=
  ∀ s : State, s.pending = [] → ∃ t, step s = .next t ∧ t.pending = [] ∧ (s.referee.power = false → t = s) ∧
    (s.referee.power = true → s.posted = [] →
      t.dtime = s.dtime + (if s.fellows.slew = 0 ∨ s.fellows.slewTicks + 1 < 5000 then 1 else if s.fellows.slew > 0 then 2 else 0))

/-- For every command c and every state s, exec c s answers a next state, never a fault or a refusal, and the queue of
waiting commands is what it was: the device has no undefined behaviour visible to software. -/
def Obligations.EveryCommandCompletes : Prop :=
  ∀ (c : Instr) (s : State), ∃ t, exec c s = .next t ∧ t.pending = s.pending

/-- For every state in which every sync object with COUNT > 0 has no waiters, and every step of it, by whatever command
is at the front of the queue or by the passing of time, the same holds of every object in the next state. -/
def Obligations.StepKeepsSyncRule : Prop :=
  ∀ s t : State, s.syncRule → step s = .next t → t.syncRule

/-- For every state whose memory, host memory, register file, cores and scorebooks are in canonical form (keys strictly
rising, nothing listed that reads as an unlisted key does), every step gives a state in that form, so that equal
contents remain equal data. -/
def Obligations.StepKeepsCanonicalForm : Prop :=
  ∀ s t : State, s.canonical = true → step s = .next t → t.canonical = true

/-- After reset every object with COUNT > 0 has no waiters, the stores are in canonical form, and no command waits. -/
def Obligations.ResetMeetsTheInvariants : Prop :=
  State.reset.syncRule ∧ State.reset.canonical = true ∧ State.reset.pending = []

/-- For every command c and states s and t with exec c s answering t, every kind of state (memory, host memory,
registers, scorebooks, cores, sync objects, queues, streams, rings, ports, transfers, feeds, jobs, trace, events,
outputs and the rest, one for each field of State) that Instr.changes does not list for c is in t what it was in s. -/
def Obligations.CommandsChangeOnlyTheirOwnState : Prop :=
  ∀ (c : Instr) (s t : State), exec c s = .next t → s.onlyChanges t (Machine.Instr.changes c)

/-- For every register a and every increment n: while SAT is 0 and the sum stays below 2^48 - 1, COUNT becomes the sum,
SAT stays 0 and no event is raised. A sum that reaches the limit leaves COUNT at 2^48 - 1 with SAT 1 and raises one
DBG_COUNTER_SAT carrying the BAR0 offset, in bytes 16-23, with severity NOTICE. Once SAT is 1 nothing changes any more.
No other register changes. -/
def Obligations.CountersSaturate : Prop :=
  ∀ (s : State) (a n : Nat),
    s.regsBut (s.count a n) [a] ∧ s.onlyChanges (s.count a n) [.regs, .events] ∧
    ((s.reg a).field 63 1 = 0 → (s.reg a).field 0 48 + n < 0xFFFFFFFFFFFF →
      ((s.count a n).reg a).field 0 48 = (s.reg a).field 0 48 + n ∧ ((s.count a n).reg a).field 63 1 = 0 ∧
        (s.count a n).events = s.events) ∧
    ((s.reg a).field 63 1 = 0 → 0xFFFFFFFFFFFF ≤ (s.reg a).field 0 48 + n →
      ((s.count a n).reg a).field 0 48 = 0xFFFFFFFFFFFF ∧ ((s.count a n).reg a).field 63 1 = 1 ∧
        ∃ u p, (s.count a n).events = s.events ++ [⟨s.dtime, 0x0A06, u, p, 1, a % 2 ^ 64⟩]) ∧
    ((s.reg a).field 63 1 = 1 → s.count a n = s)

/-- A whole-register write of SYN_PART_RANGE_p by the physical function sets its RW fields and changes no other
register. A write of another size or alignment that is not divided into words (R428) is discarded and counted in
HIF_CNT_0, and such a read returns all ones and is counted (R7). A read that R416 allows returns the bytes that the
register shows and changes nothing; one that it denies returns zero and is counted in TRC_CNT_3. A read of SYN_WAITERS
returns the entries in use and PEAK and clears PEAK (R11). An access to a block that does not answer in 1 ms marks the
block, raises MGT_BUS_TIMEOUT and, for a read, returns all ones (R363). -/
def Obligations.RegisterAccessesComplete : Prop :=
  (∀ (s : State) (p v : Nat), p < 16 → s.reaches (Reg.synPartRange p) →
    ∃ t, exec (.registerWrite .pf (Reg.synPartRange p) 8 v) s = .next t ∧ t.rd (.synPartRangeFirst p) = bitsAt v 0 16 ∧
      t.rd (.synPartRangeNumber p) = bitsAt v 16 17 ∧ s.regsBut t [Reg.synPartRange p] ∧ s.onlyChanges t [.regs]) ∧
  (∀ (s : State) (who : Master) (off n v : Nat), s.referee.power = true → s.busAsleep who = false → accessOk off n = false →
    (n ≤ 8 ∨ who = .pf) →
    ∃ t, exec (.registerWrite who off n v) s = .next t ∧ t = s.count (Reg.hifCnt 0) 1) ∧
  (∀ (s : State) (who : Master) (off n : Nat), s.referee.power = true → s.busAsleep who = false → accessOk off n = false →
    (n ≤ 8 ∨ who = .pf) →
    ∃ t, exec (.accessErrorRead (.space who) off n) s = .next t ∧ t.out = s.out ++ [.readReply (some (256 ^ n - 1))] ∧
      t.reg (Reg.hifCnt 0) = (s.count (Reg.hifCnt 0) 1).reg (Reg.hifCnt 0) ∧ s.regsBut t [Reg.hifCnt 0]) ∧
  (∀ (s : State) (h off n : Nat), s.referee.power = true → accessOk off n = true → s.rdBit .refReadyReady = true →
    s.isWedged off = false → mbxChannelOf off = none → off / 8 * 8 ≠ Reg.trcDmi → off / 8 * 8 ≠ Reg.synWaiters →
    (s.mayRead (.hart h) (off / 8 * 8) = true →
      ∃ t, exec (.privilegedRead (.hart h) off n) s = .next t ∧
        t.out = s.out ++ [.readReply (some (bitsAt (s.view (off / 8 * 8)).toNat (8 * (off % 8)) (8 * n)))] ∧ s.onlyChanges t [.out]) ∧
    (s.mayRead (.hart h) (off / 8 * 8) = false →
      ∃ t, exec (.privilegedRead (.hart h) off n) s = .next t ∧ t.out = s.out ++ [.readReply (some 0)] ∧
        t.reg (Reg.trcCnt 3) = (s.count (Reg.trcCnt 3) 1).reg (Reg.trcCnt 3) ∧ s.regsBut t [Reg.trcCnt 3])) ∧
  (∀ s : State, s.reaches Reg.synWaiters →
    ∃ t, exec (.synWaitersRead .pf 0 8) s = .next t ∧
      t.out = s.out ++ [.readReply (some ((s.reg Reg.synWaiters).setField 0 15 s.waitersUsed).toNat)] ∧
      t.rd .synWaitersPeak = 0 ∧ s.regsBut t [Reg.synWaiters]) ∧
  (∀ (s : State) (off n : Nat) (write : Bool), accessOk off n = true → s.rdBit .refReadyReady = true → s.isWedged off = false →
    alwaysAnswers off = false → (off < 0x1000000 ∨ (0x2000000 ≤ off ∧ off < 0x4000000 ∧ off % 0x20000 < 0x12000)) →
    ∃ t, exec (.bar0BlockTimeout .pf off n write) s = .next t ∧ t.isWedged off = true ∧
      t.out = s.out ++ (if write then [] else [.readReply (some (256 ^ n - 1))]) ∧
      ∃ u pay, t.events = s.events ++ [⟨s.dtime, Code.mgtBusTimeout.val, u, noPart, Code.mgtBusTimeout.sev, pay⟩])

/-- A scorebook command that has its turn, with its operands in range and without a hardware error, executes with
success. SBK_CLEAR sets exactly its entries to +0, untagged (R91). SBK_SPILL writes the values, then the tags, then
zeros up to a multiple of 64 bytes at its image and nothing else (R96). SBK_RESTORE sets exactly its entries to the
values and tags of the image, every tag of which lies below 512 (R96). SBK_DRAIN sends its entries, row by row and
whatever their tags, through the store path into its tensor, and clears them as it reads with CLEAR_AFTER (R95). -/
def Obligations.ScorebookCommandsWrite : Prop :=
  (∀ (s b : State) (core : Nat) (hw : List Hw) (i : Issued), s.turn core 0x18 .sbk clearRegions i b →
    opsClean i.cmd [(46, 0, 19), (53, 0, 24)] = true → countBad (sbkCount i.cmd) = false →
    sbkEntry i.cmd + sbkCount i.cmd ≤ bookSize → (b.applyHw core engBook hw).2 = 0 →
    ∃ t, exec (.sbkClear core hw) s = .next t ∧ t.hasExecuted core i.token 0 ∧
      ∀ c k, k < bookSize → t.entry c k =
        if c = core ∧ sbkEntry i.cmd ≤ k ∧ k < sbkEntry i.cmd + sbkCount i.cmd then ⟨0, 0⟩
        else (b.applyHw core engBook hw).1.entry c k) ∧
  (∀ (s b : State) (core : Nat) (hw : List Hw) (i : Issued), core < 256 → s.turn core 0x1A .sbk spillRegions i b →
    imageRefusal i.cmd = none → (b.applyHw core engBook hw).2 = 0 →
    let h := (b.applyHw core engBook hw).1
    let ks := (List.range (sbkCount i.cmd)).map (fun j => sbkEntry i.cmd + j)
    let a := coreWindow core + sbkImage i.cmd
    h.badEntry core ks = none →
    ∃ t, exec (.sbkSpill core hw) s = .next t ∧ t.hasExecuted core i.token 0 ∧
      t.bytes a (imageSize (sbkCount i.cmd)) = ks.flatMap (fun k => bytesOfNat 4 (h.entry core k).val) ++
        ks.flatMap (fun k => bytesOfNat 2 (h.entry core k).tag) ++
        List.replicate (imageSize (sbkCount i.cmd) - 6 * sbkCount i.cmd) 0 ∧
      (∀ x, x < a ∨ a + imageSize (sbkCount i.cmd) ≤ x → t.byte x = h.byte x)) ∧
  (∀ (s b : State) (core : Nat) (hw : List Hw) (i : Issued), core < 256 → s.turn core 0x1B .sbk restoreRegions i b →
    imageRefusal i.cmd = none → (b.applyHw core engBook hw).2 = 0 →
    let h := (b.applyHw core engBook hw).1
    let n := sbkCount i.cmd
    let a := coreWindow core + sbkImage i.cmd
    anyMarked h.bad a (6 * n) = false → (∀ j, j < n → h.memNat (a + 4 * n + 2 * j) 2 < 512) →
    ∃ t, exec (.sbkRestore core hw) s = .next t ∧ t.hasExecuted core i.token 0 ∧
      ∀ c k, k < bookSize → t.entry c k =
        if c = core ∧ sbkEntry i.cmd ≤ k ∧ k < sbkEntry i.cmd + n then
          ⟨h.memNat (a + 4 * (k - sbkEntry i.cmd)) 4, h.memNat (a + 4 * n + 2 * (k - sbkEntry i.cmd)) 2⟩
        else h.entry c k) ∧
  (∀ (s b : State) (core : Nat) (hw : List Hw) (i : Issued), s.turn core 0x19 .sbk (s.drainRegions core) i b →
    b.drainRefusal core i = none → (b.applyHw core engBook hw).2 = 0 →
    let h := (b.applyHw core engBook hw).1
    let ks := drainEntries i.cmd
    let els := ks.mapIdx (fun j k => (drainRow0 i.cmd + j / drainCols i.cmd, drainCol0 i.cmd + j % drainCols i.cmd,
      Fmt.z32a.decode (h.entry core k).val))
    let u := if drainClear i.cmd then ks.foldl (fun s k => s.putEntry core k Entry.reset) h else h
    let x := u.storePath core (h.desc (descAt core (drainDesc i.cmd))) i.step i.outBinds i.staBinds els
    h.badEntry core ks = none →
    ∃ t, exec (.sbkDrain core hw) s = .next t ∧ t.hasExecuted core i.token x.2 ∧ t.book = x.1.book ∧ t.mem = x.1.mem)

/-- A load that has its turn, is not refused and meets no error builds its block: ARR_LOAD puts it on its way into the
bank, ARR_FILL on its way into the bullpen, whose old contents are gone. ARR_LOAD_DONE sets the bank LOADED with that
block, counts its 128 cycles in ARR_CNT_1 and gives the command success; ARR_FILL_DONE sets the bullpen READY. ARR_SWAP
with a block in the bullpen exchanges the two holders with all they hold (R80). -/
def Obligations.ArrayLoadsFillTheBank : Prop :=
  (∀ (s b : State) (core : Nat) (hw : List Hw) (i : Issued), s.arrTurn core 0x10 (s.loadRegions core) i b →
    b.loadRefusal core i.cmd = none → (b.applyHw core engArr hw).2 = 0 →
    let h := (b.applyHw core engArr hw).1
    let x := h.loadBlock core i.cmd i.step
    h.loadFault core i.cmd x.nEff x.kEff = none →
    ∃ t, exec (.arrLoad core hw) s = .next t ∧ (t.core core).loading = some x ∧ (t.core core).bank = (h.core core).bank ∧
      (t.core core).bullpen = (h.core core).bullpen) ∧
  (∀ (s b : State) (core : Nat) (hw : List Hw) (i : Issued), s.arrTurn core 0x11 (s.loadRegions core) i b →
    b.loadRefusal core i.cmd = none → (b.applyHw core engArr hw).2 = 0 →
    let h := (b.applyHw core engArr hw).1
    let x := h.loadBlock core i.cmd i.step
    h.loadFault core i.cmd x.nEff x.kEff = none →
    ∃ t, exec (.arrFill core hw) s = .next t ∧ (t.core core).filling = some x ∧ (t.core core).bullpen = none ∧
      (t.core core).bank = (h.core core).bank) ∧
  (∀ (s : State) (core : Nat) (x : Block) (i : Issued), (s.core core).loading = some x →
    ((s.core core).queue .arr).find? (fun i => decide (i.opcode = 0x10 ∧ i.progress = .running)) = some i →
    ∃ t u : State, exec (.arrLoadDone core) s = .next t ∧ t = u.retireOldest core .arr ∧ u.hasExecuted core i.token 0 ∧
      (u.core core).bank = some x ∧ (u.core core).loading = none ∧
      u.reg (Reg.arrCnt core 1) = (s.count (Reg.arrCnt core 1) 128).reg (Reg.arrCnt core 1)) ∧
  (∀ (s : State) (core : Nat) (x : Block) (i : Issued), (s.core core).filling = some x →
    ((s.core core).queue .arr).find? (fun i => decide (i.opcode = 0x11 ∧ i.progress = .running)) = some i →
    ∃ t u : State, exec (.arrFillDone core) s = .next t ∧ t = u.retireOldest core .arr ∧ u.hasExecuted core i.token 0 ∧
      (u.core core).bullpen = some x ∧ (u.core core).filling = none ∧ (u.core core).bank = (s.core core).bank) ∧
  (∀ (s b : State) (core : Nat) (hw : List Hw) (i : Issued), s.arrTurn core 0x12 (fun _ => []) i b → opsClean i.cmd [] = true →
    hw.contains .bank = false → (b.applyHw core engArr hw).2 = 0 →
    let h := (b.applyHw core engArr hw).1
    (h.core core).bullpen.isSome = true →
    ∃ t, exec (.arrSwap core hw) s = .next t ∧ t.hasExecuted core i.token 0 ∧ (t.core core).bank = (h.core core).bullpen ∧
      (t.core core).bullpen = (h.core core).bank)

/-- A MATSTREAM that has its turn, against a LOADED bank, not refused, not all skipped and without a hardware error,
reads the scale of its operand once and goes through its ROWS from row 0 on. A row whose operands, tags and check are in
order is counted in ARR_CNT_0, for each lane group that skips in ARR_CNT_3, and in UMP_CNT_0, is written, and the next
follows; after the last the command is executed with success, its overflows reported. Writing row m sets entry DST + m *
STRIDE + n of each column n to the code that accumulate_column (R87) gives for its products on +0, or in ACC mode on the
entry's old value, with the tag of the command's epoch (R92); the entries of a lane group that skips keep their values
(R97). -/
def Obligations.MatstreamAccumulates : Prop :=
  (∀ (s b : State) (core : Nat) (hw : List Hw) (i : Issued) (x : Block), s.arrTurn core 0x13 (s.streamRegions core) i b →
    b.streamRefusal core i.cmd = none → (b.core core).bank = some x → hw.contains .bank = false →
    (b.applyHw core engArr hw).2 = 0 → x.skips (streamAcc i.cmd) ≠ 0xFFFF →
    let h := (b.applyHw core engArr hw).1
    let j := { i with tx := b.tensorScale ((b.streamDescs core i.cmd).headD (Desc.ofNat 0)) }
    ∃ t, exec (.matstream core hw) s = .next t ∧
      t = State.streamRowsFrom hw core j x (streamRows i.cmd) 0 (h.modIssued core i.token (fun k => { k with tx := j.tx }))) ∧
  (∀ (s : State) (core : Nat) (hw : List Hw) (i : Issued) (x : Block) (n m : Nat), (s.core core).bank = some x →
    let w := i.cmd
    let u := s.rowEnters core (x.skips (streamAcc w))
    let ks := rowEntries (streamDst w) (streamStride w) m x.nEff
    let row := u.arrRow core (s.streamDescs core w) i.step (arrRow0 w + m) (arrK0 w) x.kEff
    let v := u.verdict core x row (x.skips (streamAcc w)) (hwMask hw m ||| (if streamAcc w then u.entryMask core x ks else 0))
    s.arrRowFault (s.streamDescs core w) (arrRow0 w + m) (arrK0 w) x.kEff = none →
    (streamAcc w = true → u.tagFault core (cmdEpoch w) ks = none) →
    v.2.1 = 0 → hwDiffers hw m = false →
    State.streamRowsFrom hw core i x (n + 1) m s = State.streamRowsFrom hw core i x n (m + 1) (v.1.streamPut core i x m)) ∧
  (∀ (s : State) (core : Nat) (hw : List Hw) (i : Issued) (x : Block) (m : Nat),
    (State.streamRowsFrom hw core i x 0 m s).hasExecuted core i.token 0) ∧
  (∀ (s : State) (core : Nat) (i : Issued) (x : Block) (m n : Nat),
    let w := i.cmd
    let row := s.arrRow core (s.streamDescs core w) i.step (arrRow0 w + m) (arrK0 w) x.kEff
    let k := streamDst w + m * streamStride w + n
    let f := i.streamScale x
    n < x.cols.length → streamDst w + m * streamStride w + x.cols.length ≤ bookSize →
    (s.streamPut core i x m).entry core k =
      ⟨if bitAt (x.skips (streamAcc w)) (x.group n) then (if streamAcc w then (s.entry core k).val else 0)
        else (accumulateColumn (if streamAcc w then (s.entry core k).val else 0) ((x.products row).getD n []) f.1 f.2).1,
        256 + cmdEpoch w % 256⟩)

/-- A CNV command that has its turn, is not refused, meets no hardware error and whose operands load goes through its
tiles from the first. A tile with no fault on its entries and no failed check is written and the next follows; after the
last a command with a scorebook or correction-buffer destination is executed with success. Writing a tile accumulates
output (m, n) into entry DST + m * DST_STRIDE + n as R87 accumulates one product with F = 1, from +0 or, for DEST 1,
from the entry's value (R104); for CNV_CORR it leaves the outputs' ZF32 codes in the correction buffer. -/
def Obligations.CnvCommandsAccumulate : Prop :=
  (∀ (s b : State) (core : Nat) (hw : List Hw) (i : Issued) (op : Nat) (cmd : Instr),
    (op = 0x20 ∧ cmd = .cnvMatmul core hw) ∨ (op = 0x21 ∧ cmd = .cnvProj core hw) ∨ (op = 0x22 ∧ cmd = .cnvCorr core hw) →
    s.turn core op .cnv (s.cnvRegions core) i b → b.cnvRefusal core i = none → (b.applyHw core engCnv hw).2 = 0 →
    let h := (b.applyHw core engCnv hw).1
    h.loadsFault core (cnvLoads i.cmd) = none → h.corrFault core i.cmd = false →
    ∃ t, exec cmd s = .next t ∧
      t = State.cnvTilesFrom hw core i (cnvPlan i.cmd) (cnvPlan i.cmd).tiles 0 (h.countAllLoads core i.step (cnvLoads i.cmd))) ∧
  (∀ (s : State) (core : Nat) (hw : List Hw) (i : Issued) (p : CnvPlan) (n j : Nat),
    s.entryFault core (cmdEpoch i.cmd) (p.accEntries j) = none → hwMask hw j = 0 → hwDiffers hw j = false →
    State.cnvTilesFrom hw core i p (n + 1) j s = State.cnvTilesFrom hw core i p n (j + 1) (s.cnvPut core i p j)) ∧
  (∀ (s : State) (core : Nat) (hw : List Hw) (i : Issued) (p : CnvPlan) (j : Nat), (∀ off, p.dest ≠ .tensor off) →
    (State.cnvTilesFrom hw core i p 0 j s).hasExecuted core i.token 0) ∧
  (∀ (s : State) (core : Nat) (i : Issued) (p : CnvPlan) (j dst stride m n : Nat) (acc : Bool), p.dest = .entries dst stride acc →
    p.tile j = [(m, n)] → dst + m * stride + n < bookSize →
    (s.cnvPut core i p j).entry core (dst + m * stride + n) =
      ⟨(accumulateColumn (if acc then (s.entry core (dst + m * stride + n)).val else 0)
        [Elem.ofZf32 (s.cnvOutput core i m n).code] 1 0).1, 256 + cmdEpoch i.cmd % 256⟩) ∧
  (∀ (s : State) (core : Nat) (i : Issued) (p : CnvPlan) (j base m n : Nat) (x : Bool), p.dest = .buffer base x →
    p.tile j = [(m, n)] →
    Sparse.get 0 ((s.cnvPut core i p j).core core).corr (base + m * p.cols + n) = (s.cnvOutput core i m n).code)

/-- An OUT_MATSTREAM that has its turn, is not refused and meets no hardware error goes through its ROWS from row 0 on,
and after the last is executed with success. A row whose operands, list records and entries are in order accumulates,
into each entry that has at least one term, the sum of its terms in order from -0, as R104 does for DEST 1; the next row
follows. -/
def Obligations.OutlierRowsAccumulate : Prop :=
  (∀ (s b : State) (core : Nat) (hw : List Hw) (i : Issued), s.turn core 0x31 .out (s.outRegions core) i b →
    b.outRefusal core i = none → (b.applyHw core engOut hw).2 = 0 → (b.applyHw core engOut hw).1.bindFault core i = false →
    ∃ t, exec (.outMatstream core hw) s = .next t ∧
      t = State.outRowsFrom core i (outRows i.cmd) 0 (b.applyHw core engOut hw).1) ∧
  (∀ (s : State) (core : Nat) (i : Issued) (m : Nat), (State.outRowsFrom core i 0 m s).hasExecuted core i.token 0) ∧
  (∀ (s : State) (core : Nat) (i : Issued) (n m : Nat),
    let w := i.cmd
    let x := s.desc (descAt core (outX w))
    let d := s.desc (descAt core (outW w))
    let xl := (s.outLists core i).1
    let wl := (s.outLists core i).2
    let row := s.outRowTerms core i m
    let sums := row.map (fun p =>
      (p.1, accumulateColumn (s.entry core p.1).val [Elem.ofZf32 (p.2.foldl f32Add 0x80000000)] 1 0))
    s.loadsFault core [(outX w, outRow0 w + m, 1, outK0 w, outLen w), (outW w, outN0 w, outCols w, outK0 w, outLen w)] = none →
    (wl.bind (fun a => s.recordFault d a (outN0 w) (outCols w) (outK0 w) (outLen w))) = none →
    (xl.bind (fun a => s.recordFault x a (outRow0 w + m) 1 (outK0 w) (outLen w))) = none →
    (wl.bind (fun a => s.badRecord d a (outN0 w) (outCols w) (outK0 w) (outLen w))) = none →
    (xl.bind (fun a => s.badRecord x a (outRow0 w + m) 1 (outK0 w) (outLen w))) = none →
    s.entryFault core (cmdEpoch w) (row.map (fun p => p.1)) = none →
    State.outRowsFrom core i (n + 1) m s = State.outRowsFrom core i n (m + 1)
      ((s.count (Reg.outCnt core 0) ((row.map (fun p => p.2.length)).foldl (· + ·) 0)).putRow core i.token (cmdEpoch w) sums))

/-- A VEC command that has its turn, is not refused, meets no hardware error and whose operands load stores through the
store path, into the tensor D, for every element the result of its operation (VEC_EW, R221) or of the reduction of its
row (VEC_REDUCE, R222), and is executed with the store's status. An OPT_NORM leaves in the core's partial of its step
the sum of squares of its gradients and the count of the non-finite ones (R171). An OPT_UPDATE by Rules S, A or L stores
the results of the rule for the present elements and clears the mask that it was told to (R174, R175, R180); when the
constants of its step carry SKIP it is executed at once and stores nothing. -/
def Obligations.VectorCommandsStore : Prop :=
  (∀ (s b : State) (core : Nat) (hw : List Hw) (i : Issued) (op : Nat) (cmd : Instr),
    (op = 0x2A ∧ cmd = .vecEw core hw) ∨ (op = 0x2B ∧ cmd = .vecReduce core hw) →
    s.turn core op .vec (s.vecRegions core) i b → b.vecRefusal core i = none → (b.applyHw core engVec hw).2 = 0 →
    (∀ j, hwMask hw j = 0 ∧ hwDiffers hw j = false) →
    let h := (b.applyHw core engVec hw).1
    let loads := b.wholeLoads core (vecSources i.cmd)
    let u := h.countAllLoads core i.step loads
    let d := u.desc (descAt core (vecD i.cmd))
    let els := (List.range (u.vecDone core i.cmd (b.vecBatches core i.cmd))).map (fun j =>
      (j / d.dimAt 0, j % d.dimAt 0, zf32 (if op = 0x2B then u.vecRow core i j else u.vecElem core i j)))
    let x := u.storePath core d i.step i.outBinds i.staBinds els
    h.loadsFault core loads = none → els ≠ [] → u.vecBatches core i.cmd = b.vecBatches core i.cmd →
    ∃ t, exec cmd s = .next t ∧ t.hasExecuted core i.token x.2 ∧ t.mem = x.1.mem ∧ t.book = x.1.book) ∧
  (∀ (s b : State) (core : Nat) (hw : List Hw) (i : Issued), s.turn core 0x28 .vec (s.optRegions core) i b →
    optIsNorm i.cmd = true → b.optRefusal core i = none → optEmpty i.cmd = false → (b.applyHw core engVec hw).2 = 0 →
    (∀ j, hwMask hw j = 0 ∧ hwDiffers hw j = false) →
    let h := (b.applyHw core engVec hw).1
    let ops := optOperands i.cmd (h.optGroup (h.corePart core) (optGroupNo i.cmd)).rule
    let n := (h.desc (descAt core ((ops.headD (0, false)).1))).elements
    h.optMaskFault core i.cmd n = none → (∀ x ∈ ops, h.optOperandFault core i.cmd (descAt core x.1) x.2 = none) →
    let u := h.optRereads core (ops.map (fun x => descAt core x.1)) hw
    let gr := u.optGroup (u.corePart core) (optGroupNo i.cmd)
    let vs := u.gradValues core i
    let gs := vs.map (fun x => (x.1, grad x.2 (f32Pow2 (-(signed 8 (u.rd (.optStatusGexp (u.corePart core)))))) gr.gmax
      (decide (u.rd (.optCtxCtrlOvfMode (u.corePart core)) = 0))))
    let k := u.core core
    ∃ t, exec (.optNorm core hw) s = .next t ∧ t.hasExecuted core i.token 0 ∧
      ((t.core core).normOf (i.step % 2 ^ 32)).sum = (if gr.clipEn then f32Add (k.normOf (i.step % 2 ^ 32)).sum
        (normPartial (u.desc (descAt core (optG i.cmd))).elements (gs.map (fun x => (x.1, x.2.g))))
        else (k.normOf (i.step % 2 ^ 32)).sum) ∧
      ((t.core core).normOf (i.step % 2 ^ 32)).bad =
        (k.normOf (i.step % 2 ^ 32)).bad + (vs.filter (fun x => !x.2.isFinite)).length) ∧
  (∀ (s b : State) (core : Nat) (hw : List Hw) (i : Issued), s.constReady core = true →
    s.turn core 0x29 .vec (s.optRegions core) i b → optIsNorm i.cmd = false → b.optSkips core = false →
    b.optRefusal core i = none → optEmpty i.cmd = false → (b.applyHw core engVec hw).2 = 0 → (∀ j, hwMask hw j = 0 ∧ hwDiffers hw j = false) →
    let h := (b.applyHw core engVec hw).1
    let gr := h.optGroup (h.corePart core) (optGroupNo i.cmd)
    let ops := optOperands i.cmd gr.rule
    let n := (h.desc (descAt core ((ops.headD (0, false)).1))).elements
    h.optMaskFault core i.cmd n = none → (∀ x ∈ ops, h.optOperandFault core i.cmd (descAt core x.1) x.2 = none) →
    let u := h.optRereads core (ops.map (fun x => descAt core x.1)) hw
    ∃ t, exec (.optUpdate core hw) s = .next t ∧ t = State.optEnd core i u (h.optUnits core i.cmd gr.rule) 0) ∧
  (∀ (s b : State) (core : Nat) (hw : List Hw) (i : Issued), s.constReady core = true →
    s.turn core 0x29 .vec (s.optRegions core) i b → optIsNorm i.cmd = false → b.optSkips core = true →
    ∃ t, exec (.optUpdate core hw) s = .next t ∧ t.hasExecuted core i.token 0 ∧ t.mem = b.mem ∧ t.book = b.book ∧ t.regs = b.regs)

/-- A playmaker command that passes every check of Table 8-6 is issued, executed and retired with success, and the next
command comes to the head. PMK_NOP does nothing else (R220). A taken PMK_JUMP puts the head OFFSET commands behind the
jump, empties the fetch buffer and counts in PMK_CNT_11 (R215); a PFENCE with SEL branches by the entry of its variant
table that the plan selects, one without does not (R162). OUT_BIND and STA_BIND write the binding register of their slot
(R113, R142). -/
def Obligations.PlaymakerCommandsExecuteAtIssue : Prop :=
  (∀ (s b : State) (core w : Nat) (i : Issued), s.pmkTurn core 0x01 w i b →
    ∃ t, exec (.pmkNop core) s = .next t ∧ t = (b.retire core i 0).afterIssue core) ∧
  (∀ (s b : State) (core w : Nat) (i : Issued), s.pmkTurn core 0x05 w i b →
    let d := signed 32 (opBits i.cmd 32 0 32)
    opsClean i.cmd [(32, 0, 32)] = true → d ≠ 0 → d ≠ 1 → 0 ≤ (i.index : Int) + d →
    (i.index : Int) + d < ((b.core core).segCount : Int) →
    ∃ t u : State, exec (.pmkJump core) s = .next t ∧ t = (u.retire core i 0).afterIssue core ∧
      (u.core core).headIndex = ((i.index : Int) + d).toNat ∧ (u.core core).buf = [] ∧
      u.reg (Reg.pmkCnt core 11) = (b.count (Reg.pmkCnt core 11) 1).reg (Reg.pmkCnt core 11) ∧ u.mem = b.mem) ∧
  (∀ (s b : State) (core w : Nat) (i : Issued), s.pmkTurn core 0x02 w i b → b.fenceRefusal core i.cmd = none →
    fenceSel i.cmd = false → ∃ t, exec (.pfence core) s = .next t ∧ t = (b.retire core i 0).afterIssue core) ∧
  (∀ (s b : State) (core w : Nat) (i : Issued), s.pmkTurn core 0x02 w i b → b.fenceRefusal core i.cmd = none →
    fenceSel i.cmd = true →
    b.fenceFault core i.cmd = none →
    let d := signed 32 (b.memNat (coreWindow core + fenceTable i.cmd +
      4 * fenceIndex (fenceRoles i.cmd) (b.memNat (coreWindow core + b.planOffset core (fenceGroup i.cmd)) 2)) 4)
    d ≠ 0 → d ≠ 1 → 0 ≤ (i.index : Int) + d → (i.index : Int) + d < ((b.core core).segCount : Int) →
    ∃ t u : State, exec (.pfence core) s = .next t ∧ t = (u.retire core i 0).afterIssue core ∧
      (u.core core).headIndex = ((i.index : Int) + d).toNat ∧ (u.core core).buf = [] ∧
      u.reg (Reg.pmkCnt core 11) = (b.count (Reg.pmkCnt core 11) 1).reg (Reg.pmkCnt core 11) ∧ u.mem = b.mem) ∧
  (∀ (s b : State) (core w : Nat) (i : Issued), s.pmkTurn core 0x30 w i b →
    opsClean i.cmd [(32, 0, 3), (33, 0, 1), (36, 0, 32), (40, 0, 24)] = true →
    ∃ t u : State, exec (.outBind core) s = .next t ∧ t = (u.retire core i 0).afterIssue core ∧
      u.reg (Reg.outBind core (opBits i.cmd 32 0 3)) = BitVec.ofNat 64 (if opBits i.cmd 33 0 1 = 1 then
        opBits i.cmd 36 0 32 + opBits i.cmd 40 0 24 * 2 ^ 32 + 2 ^ 63 else 0) ∧
      b.regsBut u [Reg.outBind core (opBits i.cmd 32 0 3)]) ∧
  (∀ (s b : State) (core w : Nat) (i : Issued), s.pmkTurn core 0x38 w i b → b.staBindRefusal core i.cmd = none →
    let n := opBits i.cmd 32 0 4
    ∃ t u : State, exec (.staBind core) s = .next t ∧ t = (u.retire core i 0).afterIssue core ∧
      u.reg (Reg.staBind core n) = BitVec.ofNat 64 ((if opBits i.cmd 33 0 1 = 1 then
        opBits i.cmd 36 0 32 + opBits i.cmd 40 0 14 * 2 ^ 32 + 2 ^ 63 else 0) + flag (b.rdBit (.staBindPending core n)) * 2 ^ 46) ∧
      b.regsBut u [Reg.staBind core n])

/-- STEP_END issues as soon as the checks pass and stays in flight: the next command comes to the head, which it holds.
Once it is the only command in flight it retires, PMK_STEP increases by 1 and the core notes that the next command meets
the fence of R163 (stated for a core of no job or of partition 0 to 15). PMK_END issues and retires at once and the next
segment starts; with no record queued the core is IDLE. -/
def Obligations.StepsAndSegmentsEnd : Prop :=
  (∀ (s : State) (core w : Nat), (s.core core).head = some w → s.mayIssue core 0x03 .pmk [] = true →
    let i := s.issued core w .pmk []
    ∃ t u : State, exec (.stepEnd core) s = .next t ∧ t = u.afterIssue core ∧ u = (s.issueHead core w .pmk []).began core i ∧
      ((s.issueHead core w .pmk []).core core).inflight = (s.core core).inflight ++ [i] ∧ i.progress = .waiting) ∧
  (∀ (s : State) (core : Nat) (i : Issued), core < 256 → (s.core core).inflight = [i] → i.opcode = 0x03 →
    let u := s.retire core i 0
    (∀ p, (u.core core).part = some p → p < 16) →
    ∃ t, exec (.stepEndRetire core) s = .next t ∧ t.pmkStep core = (u.pmkStep core + 1) % 2 ^ 64 ∧
      (t.core core).needFence = true ∧ (t.core core).endedStep = u.pmkStep core % 2 ^ 32) ∧
  (∀ (s : State) (core w : Nat), (s.core core).head = some w → s.mayIssue core 0x06 .pmk [] = true →
    let i := s.issued core w .pmk []
    let u := ((s.issueHead core w .pmk []).began core i).retire core i 0
    ∃ t, exec (.pmkEnd core) s = .next t ∧ t = u.endSegment core i.seg ∧
      ((u.core core).segq = [] → (t.core core).pstate = 0 ∧ (t.core core).seg = none))

/-- SEGMENT_ARRIVE moves the oldest record that is not held into the queue of its core, which has room; an IDLE core
with an empty queue starts it at its first command (R196, R198). FETCH_RESPONSE appends to the fetch buffer the commands
that stand in memory behind those it holds, at most 16, once 16 places are free (R202). SEGMENT_COMPLETE counts the
segment's sequence slot up and posts the completion, or without NOTIFY only counts the segment in PMK_CNT_10; it leaves
the list of open segments. -/
def Obligations.SegmentsAreFetchedAndReported : Prop :=
  (∀ (s : State) (core : Nat) (r : SegRec), s.dispatch.find? (fun r => decide (r.core = core) && !(s.seqHeld r)) = some r →
    (s.core core).segq.length < 16 → (s.core core).pstate ≠ 0 →
    ∃ t, exec (.segmentArrive core) s = .next t ∧ t.dispatch = s.dispatch.erase r ∧
      (t.core core).segq = (s.core core).segq ++ [r]) ∧
  (∀ (s : State) (core : Nat) (r : SegRec), s.dispatch.find? (fun r => decide (r.core = core) && !(s.seqHeld r)) = some r →
    (s.core core).segq = [] → (s.core core).pstate = 0 → (s.core core).stopping = .no → (s.core core).haltReq = 0 →
    segRecOk core r = true →
    ∃ t, exec (.segmentArrive core) s = .next t ∧ t.dispatch = s.dispatch.erase r ∧ (t.core core).pstate = 1 ∧
      (t.core core).headIndex = 0 ∧ (t.core core).buf = [] ∧ (t.core core).segq = [] ∧
      (t.core core).seg = some ⟨(s.core core).segNo, r, false, 0⟩) ∧
  (∀ (s : State) (core : Nat) (r : SegRun), (s.core core).seg = some r → (s.core core).pstate = 1 →
    (s.core core).stopping = .no →
    let k := s.core core
    let i := k.headIndex + k.buf.length
    let n := min 16 (r.record.count - i)
    let a := r.record.base + 64 * i
    0 < n → k.buf.length ≤ 240 → (s.checkRange (.part (s.corePart core)) a (64 * n) false).1.code = none →
    (∀ j, j < n → anyMarked s.bad (a + 64 * j) 64 = false) → s.poisoned a (64 * n) = false →
    ∃ t u : State, exec (.fetchResponse core none) s = .next t ∧
      (u.core core).buf = k.buf ++ (List.range n).map (fun j => s.memNat (a + 64 * j) 64) ∧
      (u.core core).headIndex = k.headIndex ∧ t = if k.buf = [] then u.atHead core else u) ∧
  (∀ (s : State) (core : Nat) (r : SegRun) (rest : List SegRun), (s.core core).segOpen = r :: rest → r.endRetired = true →
    (∀ i ∈ (s.core core).inflight, i.seg ≠ r.no) → s.reportWaits core = false →
    let u := if r.record.seqValid then s.seqUp r.record.seqSlot else s
    let x := r.record.completion r.status (u.rd (.hifSeqCount r.record.seqSlot)) (some core)
    ∃ t, exec (.segmentComplete core) s = .next t ∧ (r.record.notify = true → t = u.postCompletion x) ∧
      (r.record.notify = false → (t.core core).segOpen = rest ∧
        t.reg (Reg.pmkCnt core 10) = (u.count (Reg.pmkCnt core 10) 1).reg (Reg.pmkCnt core 10)))

/-- COMMAND_RETIRE on an engine whose oldest command has been executed with a status code retires it: with success,
nothing in flight holds its token any longer, and its two signals are performed in order (those on objects of this chip
are on their way, SIG0 first; on another chip they leave as messages, R234). With a failure neither is performed, no
sync object changes (counts that its waits took are not returned), and nothing is sent. -/
def Obligations.SignalsAreSentAtRetirement : Prop :=
  (∀ (s : State) (core engine code : Nat) (q : Queue) (i : Issued) (rest : List Issued), queueOf engine = some q →
    (s.core core).queue q = i :: rest → i.progress = .executed code →
    ∃ t, exec (.commandRetire core engine) s = .next t ∧ t = s.retire core i code) ∧
  (∀ (s : State) (core : Nat) (i : Issued), ((s.retire core i 0).core core).inflight =
      (s.core core).inflight.filter (fun j => !(decide (j.token = i.token)))) ∧
  (∀ (s : State) (core : Nat) (i : Issued),
    let g := fun n => cmdSignal i.cmd n
    ∃ u : State, u.signals = s.signals ∧ s.retire core i 0 =
      (u.performSignal (u.unitCore core engPmk) (u.corePart core) i.index (g 0)).performSignal (u.unitCore core engPmk)
        (u.corePart core) i.index (g 1) ∧
      (((u.isLocal (g 0).chip = true ∧ u.isLocal (g 1).chip = true)) → (s.retire core i 0).signals = s.signals ++
        (if (g 0).kind = 0 then [] else [⟨u.unitCore core engPmk, some (u.corePart core), 0xFFFF, (g 0).object,
          decide ((g 0).kind = 2), i.index⟩]) ++
        (if (g 1).kind = 0 then [] else [⟨u.unitCore core engPmk, some (u.corePart core), 0xFFFF, (g 1).object,
          decide ((g 1).kind = 2), i.index⟩]))) ∧
  (∀ (s : State) (core code : Nat) (i : Issued), code ≠ 0 → (s.retire core i code).signals = s.signals ∧
    (s.retire core i code).sync = s.sync ∧ (s.retire core i code).ports = s.ports ∧ (s.retire core i code).inbox = s.inbox)

/-- An LFENCE whose layer is resident for the core and that passes the checks issues and retires at once, and leaves a
record of the tokens that commands in flight held at its issue. Whenever a command of the core retires, its token leaves
every such record of the core. LAYER_RELEASE takes the core's oldest record without tokens: the core has then released
every layer below that fence's layer (a layer that it had released already stays released). -/
def Obligations.LayerFencesReleaseLayers : Prop :=
  (∀ (s : State) (core w : Nat), (s.core core).head = some w → cmdOpcode w = 0x04 → s.mayIssue core 0x04 .pmk [] = true →
    s.lfRefusal core w = none → s.layerFailure (lfFeed w) (lfLayer w) = none → s.resident (lfFeed w) (lfLayer w) core = true →
    ∃ t, exec (.lfence core) s = .next t ∧
      Fence.mk core (lfFeed w) (lfLayer w) ((s.core core).inflight.map (fun i => i.token)) ∈ t.fences) ∧
  (∀ (s : State) (core code : Nat) (i : Issued), (s.retire core i code).fences = s.fences.map (fun f =>
    if f.core = core then { f with tokens := f.tokens.filter (fun t => !(decide (t = i.token))) } else f)) ∧
  (∀ (s : State) (core : Nat) (f : Fence), s.fences.find? (fun f => decide (f.core = core ∧ f.tokens = [])) = some f →
    ∃ t, exec (.layerRelease core) s = .next t ∧ t.fences = s.fences.erase f ∧
      t.releasedOf f.feed core =
        if seqAfter (s.releasedOf f.feed core) f.q then f.q else s.releasedOf f.feed core)

/-- A wait on a FREE object fails with SYN_UNALLOCATED, on an ORPHANED one with SYN_ORPHANED, and by an agent of another
partition than the object's with SYN_NOT_OWNER; otherwise it takes 1 from a COUNT above 0 and completes at once with no
waiter added, or with COUNT 0 it is appended to the queue and its agent goes on waiting. SYNC_WAIT makes the head's next
sync wait so, once checks 3 to 8 hold, and the first of them fixes the deadline of TIMEOUT; a hart's WAIT does so for
the hart's partition while the port has room for its record. Either waits behind the signals to the object that its own
source has on their way; where there are none, nothing else happens first. -/
def Obligations.WaitsTakeACountOrQueue : Prop :=
  (∀ (s : State) (a : WaitAgent) (q o : Nat) (d : Option Nat),
    let x := s.obj o
    let t := s.waitOn a q o d
    (x.state = objFree → t = s.letGo o a (some .synUnallocated)) ∧
    (x.state = objOrphaned → t = s.letGo o a (some .synOrphaned)) ∧
    (x.state ≠ objFree → x.state ≠ objOrphaned → q ≠ x.part → t = s.letGo o a (some .synNotOwner)) ∧
    (x.state ≠ objFree → x.state ≠ objOrphaned → q = x.part → 0 < x.count →
      t.obj o = { x with count := x.count - 1 } ∧ ∃ u : State, u.cores = s.cores ∧ t = u.letGo o a none) ∧
    (x.state ≠ objFree → x.state ≠ objOrphaned → q = x.part → x.count = 0 →
      t.obj o = { x with waiters := x.waiters ++ [⟨a, q, d, s.waitOrder + 1⟩] } ∧ t.cores = s.cores ∧ t.out = s.out)) ∧
  (∀ (s : State) (core w n o : Nat) (q : Queue) (e : Nat), (s.core core).head = some w →
    opcodeRow (cmdOpcode w) (cmdEngine w) = some (q, e) → (syncWaits w)[(s.core core).waitsDone]? = some (n, o) →
    headerReason w = none → (s.core core).issuing = true → (s.core core).waiting = false →
    s.checks3to8 core w q (s.regionsOf core w) = true → s.ownFence core w = true →
    let d := if (s.core core).waitsDone = 0 then s.deadline (cmdTimeout w) else (s.core core).waitDeadline
    ∃ t u : State, exec (.syncWait core) s = .next t ∧
      t = (u.settleSource (u.waitSource (.core core)) o).waitOn (.core core) (s.corePart core) o d ∧ u.sync = s.sync ∧
      u.signals = s.signals ∧
      u.core core = { s.core core with waiting := true, waitDeadline := d }) ∧
  (∀ (s : State) (hart object timeout cookie : Nat), s.barShut false = false → s.hartRoom hart = true →
    ∃ t u : State, exec (.hartWait hart object timeout cookie) s = .next t ∧
      t = (u.settleSource (unitHart hart) object).waitOn (.hart hart cookie) (s.hartPart hart) object (s.deadline timeout) ∧
      u.sync = s.sync ∧ u.signals = s.signals ∧
      u.rd (.synHartStatusOutstanding hart) = (s.rd (.synHartStatusOutstanding hart) + 1) % 2 ^ (RF.synHartStatusOutstanding hart).w) ∧
  (∀ (s : State) (src o : Nat), (∀ g ∈ s.signals, ¬ (g.src = src ∧ g.object = o)) → s.settleSource src o = s)

/-- A SIGNAL that reaches its object and is not refused releases the oldest waiter with success, if one is queued, and
leaves COUNT as it was; otherwise COUNT rises by 1. With COUNT at 0xFFFF_FFFF and no waiter it is discarded: the object
is unchanged, SYN_COUNT_SAT is raised, and it counts in SYN_CNT_6 and not in SYN_CNT_2. -/
def Obligations.SignalsGiveOneUnit : Prop :=
  ∀ (s : State) (i : Nat) (g : Signal), s.arrives i g → g.broadcast = false →
    let x := s.obj g.object
    x.refusal g = none →
    ∃ t u : State, exec (.syncSignal i) s = .next t ∧
      (∀ w rest, x.waiters = w :: rest → t = u.letGo g.object w.agent none ∧ t.obj g.object = { x with waiters := rest } ∧
        u.cores = s.cores) ∧
      (x.waiters = [] → x.count < 0xFFFFFFFF → t.obj g.object = { x with count := x.count + 1 } ∧ t.cores = s.cores) ∧
      (x.waiters = [] → x.count ≥ 0xFFFFFFFF → t.sync = s.sync ∧ t.reg (Reg.synCnt 2) = s.reg (Reg.synCnt 2) ∧
        t.reg (Reg.synCnt 6) = (s.count (Reg.synCnt 6) 1).reg (Reg.synCnt 6) ∧
        ∃ e ∈ t.events, e.code = Code.synCountSat.val ∧ e.unit = g.src ∧ e.sev = sevNotice)

/-- A BROADCAST that reaches its object and is not refused releases with success every waiter queued, in order, with
COUNT unchanged. One that meets an empty queue has no effect on any object or agent and is counted in SYN_CNT_4. A wait
that arrives later queues by R226. -/
def Obligations.BroadcastsReleaseTheQueue : Prop :=
  ∀ (s : State) (i : Nat) (g : Signal), s.arrives i g → g.broadcast = true →
    let x := s.obj g.object
    x.refusal g = none →
    ∃ t u : State, exec (.syncBroadcast i) s = .next t ∧
      (x.waiters ≠ [] → t = u.letAllGo g.object none x.waiters ∧ t.obj g.object = { x with waiters := [] } ∧ u.cores = s.cores) ∧
      (x.waiters = [] → t.sync = s.sync ∧ t.cores = s.cores ∧ t.out = s.out ∧
        t.reg (Reg.synCnt 4) = (s.count (Reg.synCnt 4) 1).reg (Reg.synCnt 4))

/-- A signal or broadcast is refused when its object is FREE (SYN_UNALLOCATED) or ORPHANED (SYN_ORPHANED), when SCOPE is
PARTITION and the signaller is an agent of this chip of another partition, and when SCOPE is LOCAL and it is of another
partition or another chip (SYN_SCOPE); in no other case. A refused one leaves every object and every agent as it was and
raises its event with severity NOTICE and the signaller's unit and partition. -/
def Obligations.RefusedSignalsHaveNoEffect : Prop :=
  (∀ (x : SyncObj) (g : Signal),
    x.refusal g = if x.state = objFree then some .synUnallocated else if x.state = objOrphaned then some .synOrphaned
      else if (x.scope = 1 ∧ g.chip = 0xFFFF ∧ g.part ≠ some x.part) ∨ (x.scope = 2 ∧ (g.chip ≠ 0xFFFF ∨ g.part ≠ some x.part)) then
        some .synScope else none) ∧
  (∀ (s : State) (i : Nat) (g : Signal) (code : Code) (cmd : Instr), s.arrives i g → (s.obj g.object).refusal g = some code →
    (g.broadcast = false ∧ cmd = .syncSignal i) ∨ (g.broadcast = true ∧ cmd = .syncBroadcast i) →
    ∃ t, exec cmd s = .next t ∧ t.sync = s.sync ∧ t.cores = s.cores ∧ t.out = s.out ∧
      ∃ e ∈ t.events, e.code = code.val ∧ e.unit = g.src ∧ e.part = g.part.getD noPart ∧ e.sev = sevNotice)

/-- At its deadline a waiter is abandoned with SYN_TIMEOUT: its entry is freed, those behind it keep their order, and
DTIME has reached the deadline. A hart's SIGNAL or BROADCAST on an object of this chip is on its way from the hart's
unit and partition, and on no sync object has an effect yet. A hart's CANCEL removes the oldest wait of the hart with
the cookie, whose record carries SYN_CANCELLED; one that matches nothing has no effect. It comes behind the hart's own
signals that are on their way. -/
def Obligations.TimeoutsAndHartsLeaveTheQueue : Prop :=
  (∀ (s : State) (object place d : Nat) (w : Waiter), (s.obj object).waiters[place]? = some w → w.deadline = some d →
    ∃ t u : State, exec (.syncWaitTimeout object place) s = .next t ∧ t = u.letGo object w.agent (some .synTimeout) ∧
      t.obj object = { s.obj object with waiters := (s.obj object).waiters.eraseIdx place } ∧ t.dtime = max s.dtime d ∧
      u.cores = s.cores) ∧
  (∀ (s : State) (hart chip object kind : Nat) (cmd : Instr), s.barShut false = false → s.isLocal chip = true →
    (kind = 1 ∧ cmd = .hartSignal hart chip object) ∨ (kind = 2 ∧ cmd = .hartBroadcast hart chip object) →
    ∃ t, exec cmd s = .next t ∧ t.sync = s.sync ∧ t.signals = s.signals ++
      [⟨unitHart hart, some (s.hartPart hart), 0xFFFF, object, decide (kind = 2), 0⟩]) ∧
  (∀ (s : State) (hart cookie object : Nat) (w : Waiter), s.barShut false = false →
    let v := s.settleAll (unitHart hart)
    v.hartWaitWith hart cookie = some (object, w) →
    ∃ t u : State, exec (.hartCancel hart cookie) s = .next t ∧ t = u.letGo object (.hart hart cookie) (some .synCancelled) ∧
      t.obj object = { v.obj object with waiters := (v.obj object).waiters.erase w } ∧ u.regs = v.regs) ∧
  (∀ (s : State) (hart cookie : Nat), s.barShut false = false →
    (s.settleAll (unitHart hart)).hartWaitWith hart cookie = none →
    exec (.hartCancel hart cookie) s = .next (s.settleAll (unitHart hart)))

/-- INVALID_COMMAND on a core that is RUNNING and not stopping, whose head has a header that Table 8-8 refuses raises
HQ_CMD_INVALID with the reason, the index, STREAM and OPCODE, and records the first failure in PMK_FAULT. While commands
are in flight the core drains and issues no more; DRAIN_COMPLETE, with nothing in flight, brings a failed core to
FAULTED with HALT_CAUSE 4 and a halting one to HALTED with the cause of its halt. -/
def Obligations.FailuresStopTheCore : Prop :=
  (∀ (s : State) (core w r : Nat), (s.core core).head = some w → headerReason w = some r → (s.core core).pstate = 1 →
    (s.core core).stopping = .no → (s.core core).inflight ≠ [] →
    let k := s.core core
    ∃ t, exec (.invalidCommand core) s = .next t ∧ (t.core core).stopping = .failed ∧ (t.core core).inflight = k.inflight ∧
      (t.core core).issuing = false ∧ t.reg (Reg.pmkFault core) = BitVec.ofNat 64 (Code.hqCmdInvalid.val + k.headIndex * 2 ^ 16 +
        cmdOpcode w * 2 ^ 40 + k.stream * 2 ^ 48) ∧
      ∃ e ∈ t.events, e.code = Code.hqCmdInvalid.val ∧ e.sev = Code.hqCmdInvalid.sev ∧
        e.payload = payload [(16, 1, r), (20, 4, k.headIndex), (24, 2, k.stream), (26, 1, cmdOpcode w)]) ∧
  (∀ (s : State) (core cause : Nat), (s.core core).inflight = [] → (s.core core).stopping = .halt cause →
    ∃ t, exec (.drainComplete core) s = .next t ∧ t.core core = 
      { s.core core with pstate := 2, stopping := .no, haltCause := cause, haltReq := 0 }) ∧
  (∀ (s : State) (core : Nat), (s.core core).inflight = [] → (s.core core).stopping = .failed →
    ∃ t, exec (.drainComplete core) s = .next t ∧ t.core core = 
      { s.core core with pstate := 3, stopping := .no, haltCause := 4, haltReq := 0 })

/-- HALT written 1 on a RUNNING core whose head, if any, has a header that may issue and has begun no sync wait: with
nothing in flight the core is HALTED with HALT_CAUSE 1 at once, otherwise it drains first; a head that has begun its
waits keeps them, and one with a refused header fails first; the halt waits behind it (R203, R204). HALT written 0 on a
HALTED core with a segment makes it RUNNING again at the same head with its completed waits kept, and keeps its note
that the breakpoint that halted it is not tested again (R218); on one that is still draining for a halt it cancels the
halt. -/
def Obligations.HaltAndResume : Prop :=
  (∀ (s : State) (core : Nat), s.barShut false = false → (s.core core).pstate = 1 → (s.core core).stopping = .no →
    (s.core core).waitsBegun = false → (s.core core).headInvalid = false →
    let k := s.core core
    ∃ t, exec (.pmkHalt core) s = .next t ∧ t.core core = (if k.inflight = [] then
        { k with pstate := 2, stopping := .no, haltCause := 1, haltReq := 0 }
      else { k with stopping := .halt 1, haltCause := 1, haltReq := 0 }) ∧ (∀ c, c ≠ core → t.core c = s.core c) ∧
      t.rd (.pmkCtrlHalt core) = 1) ∧
  (∀ (s : State) (core : Nat), s.barShut false = false → (s.core core).pstate = 1 → (s.core core).stopping = .no →
    (s.core core).waitsBegun = true ∨ (s.core core).headInvalid = true →
    ∃ t, exec (.pmkHalt core) s = .next t ∧ t.core core = { s.core core with haltReq := 1 } ∧ t.rd (.pmkCtrlHalt core) = 1) ∧
  (∀ (s : State) (core : Nat), s.barShut false = false → (s.core core).pstate = 2 → (s.core core).seg ≠ none →
    let k := s.core core
    ∃ t u : State, exec (.pmkResume core) s = .next t ∧ t = u.atHead core ∧ u.rd (.pmkCtrlHalt core) = 0 ∧
      u.core core = { k with pstate := 1, haltCause := 0, haltReq := 0 }) ∧
  (∀ (s : State) (core cause : Nat), s.barShut false = false → (s.core core).pstate = 1 → (s.core core).stopping = .halt cause →
    ∃ t, exec (.pmkResume core) s = .next t ∧ t.core core = { s.core core with haltReq := 0, stopping := .no })

/-- When an arbitration of an engine is held, with its command in flight, the replays and the arbitrating core decide
its outcome (R130, R132), unless it needs the arbitrating core while an earlier one stands there: the arbitration ends,
the outcome is reported, counted and marked (Table 5-3), and a decided command goes on with the decided result of the
unit, an unresolved one fails with INT_UNRESOLVED. INJECT 1 and 2 of UMP_CTRL arm an injection when debug is enabled by
fuse, and do nothing otherwise. -/
def Obligations.ArbitrationEnds : Prop :=
  (∀ (s : State) (core engine badRes : Nat) (r : Replays) (pairs : List (Nat × Nat)) (hw : List Hw) (a : Arb) (i : Issued),
    (s.core core).arbs.find? (fun a => decide (a.engine = engine)) = some a →
    (s.core core).inflight.find? (fun i => decide (i.token = a.token)) = some i →
    let o := s.arbOutcome core a r
    (o.2 = true → s.arbQueued core a = false) →
    ∃ t u v : State, exec (.arbitrationDecided core engine r badRes pairs hw) s = .next t ∧
      t = (if o.1 = .intUnresolved then v.arbFailed core i a else v.arbGoesOn core i a hw) ∧
      v = (u.arbReported core i a o.1 o.2).arbMarked core i a o.1 badRes pairs ∧
      u.core core = { s.core core with arbs := (s.core core).arbs.erase a } ∧
      u.rdBit (.umpStatusArbitrating core) = !((s.core core).arbs.erase a).isEmpty) ∧
  (∀ (s : State) (core : Nat) (a : Arb) (r : Replays), s.rdBit (.umpStatusSuspect core) = false → a.cause ≠ 1 → a.cause ≠ 2 →
    (s.arbOutcome core a r).1 = if r.sAgrees then .intTransient else if (s.arbiterOf core).isNone then .intUnresolved
      else if r.sEqO && r.xEqO then .intCheckerFault else if r.sEqO && !r.xEqO && r.xAgrees then .intPatternFault
      else if !r.sEqO && !r.xEqO && !r.xEqS && r.xAgrees then .intCoreFault else .intUnresolved) ∧
  (∀ (s : State) (core : Nat), s.barShut false = false →
    ∃ t u : State, exec (.umpInjectArray core) s = .next t ∧ exec (.umpInjectChecksum core) s = .next u ∧
      t.core core = (if s.debugFuse then { s.core core with inject1 := true } else s.core core) ∧
      u.core core = (if s.debugFuse then { s.core core with inject2 := true } else s.core core))

/-- A manual operation of the physical function that Table 9-8 refuses for no reason acts on its object and on no other:
INIT makes it ACTIVE with the fields of SYN_MAN_ARG and its COUNT as INIT_COUNT; SET_COUNT sets COUNT; under both, the
oldest waiters take the counts that are there; SET_STATE sets the state, and ORPHANED releases every waiter; CHECK
changes no object and leaves the number of failing objects of the partition in SYN_BAL_STATUS with DONE; RELEASE brings
the object and its INIT_COUNT to reset. Each raises SYN_MANUAL and leaves the status code 0 (that waiters take counts
under INIT is the model's reading, log entry 18). -/
def Obligations.ManualOperationsAct : Prop :=
  ∀ s : State, s.barShut true = false → let a := s.manArg;
  (∀ o, o < 65536 → s.manRefusal 1 o = none → let w := (s.obj o).waiters; let k := min a.count w.length;
    ∃ t, exec (.synInit true o) s = .next t ∧ t.obj o = ⟨a.count - k, objActive, a.scope, a.part, a.owner, w.drop k⟩ ∧
      t.initCount o = a.count % 2 ^ 32 ∧ (∀ p, p ≠ o → t.obj p = s.obj p) ∧ t.manReported o 1) ∧
  (∀ o, o < 65536 → s.manRefusal 2 o = none → let w := (s.obj o).waiters; let k := min a.count w.length;
    ∃ t, exec (.synSetCount true o) s = .next t ∧ t.obj o = { s.obj o with count := a.count - k, waiters := w.drop k } ∧
      (∀ p, p ≠ o → t.obj p = s.obj p) ∧ t.manReported o 2) ∧
  (∀ o, o < 65536 → s.manRefusal 3 o = none →
    ∃ t, exec (.synSetState true o) s = .next t ∧ t.obj o = { s.obj o with state := a.state, waiters := if a.state = objOrphaned then [] else (s.obj o).waiters } ∧
      (∀ p, p ≠ o → t.obj p = s.obj p) ∧ t.manReported o 3) ∧
  (a.part < 16 → ∃ t, exec (.synCheck true) s = .next t ∧ (∀ p, t.obj p = s.obj p) ∧ t.rdBit (.synBalStatusDone a.part) = true ∧
    t.rd (.synBalStatusViolations a.part) = ((s.objectsOf a.part).filter s.unbalanced).length % 2 ^ (RF.synBalStatusViolations a.part).w ∧ t.manReported 0 4) ∧
  (∀ o, o < 65536 → s.manRefusal 5 o = none →
    ∃ t, exec (.synRelease true o) s = .next t ∧ t.obj o = SyncObj.reset ∧ t.initCount o = 0 ∧
      (∀ p, p ≠ o → t.obj p = s.obj p) ∧ t.manReported o 5)

/-- PATROL_SCRUB meets its lines in order; on one line, an error pattern that the code of R243 or R247 corrects raises
MEM_CORRECTED with the line and the symbol and poisons nothing, and an uncorrectable one poisons the line and raises
MEM_UNCORRECTABLE with severity NOTICE. T3_RELOCATE and T3_PATROL rewrite a weak unit that some mode still reads to a
fresh location: it is weak no longer, and its object keeps its bytes and its other units; T3_PATROL also finds a unit
that needs a higher read mode. FLASH_CHANNEL_FAIL of a working channel takes it down, sets DEGRADED and raises
MEM_T3_DEGRADED with the channel. MAP_OUT_TAKE_EFFECT, once no region lies in the range, takes the PENDING units out of
the map, clears PENDING, and raises MEM_MAPPED_OUT for each; for tier 2 LIMIT and CHANNELS follow (that data moves with
its physical channel is the model's reading, log entry 29). -/
def Obligations.MemoryUnitsAreScrubbedAndMappedOut : Prop :=
  ∀ s : State,
  (∀ (x : Nat × List (Nat × Nat)) (l : List (Nat × List (Nat × Nat))), ∃ t, exec (.patrolScrub [x]) s = .next t ∧
    exec (.patrolScrub (x :: l)) s = exec (.patrolScrub l) t) ∧
  (∀ (a : Nat) (errs : List (Nat × Nat)),
    let size := if a < 0x010000000000 then 64 else 128
    let c := if a < 0x010000000000 then eccTier1 else eccTier2
    let line := a / size * size
    ∃ t, exec (.patrolScrub [(a, errs)]) s = .next t ∧
      (∀ i v, c.decode (errs.filter (fun e => decide (e.1 < c.n))) = .corrected i v → t.poison = s.poison ∧
        ∃ e ∈ t.events, e.code = Code.memCorrected.val ∧ e.payload = payload [(16, 8, line), (24, 1, tierNo line), (25, 1, i)]) ∧
      (c.decode (errs.filter (fun e => decide (e.1 < c.n))) = .uncorrectable → Sparse.get false t.poison line = true ∧
        ∃ e ∈ t.events, e.code = Code.memUncorrectable.val ∧ e.sev = sevNotice ∧ e.payload = payload [(16, 8, line), (24, 1, tierNo line)])) ∧
  (∀ (id unit : Nat) (x : FlashObj), s.object id = some x → s.unitMode id unit x ≠ 3 → s.unitMode id unit x ≠ 0 →
    unit * 4096 < x.length →
    ∃ t y z, exec (.t3Relocate id unit) s = .next t ∧ exec (.t3Patrol [(id, unit, 0)]) s = .next t ∧
      Sparse.get FlashObj.empty t.flash id = { x with weak := y, moves := z } ∧ Sparse.get 0 y unit = 0 ∧
      Sparse.get 0 z unit = Sparse.get 0 x.moves unit + 1 ∧
      ∀ u, u ≠ unit → Sparse.get 0 y u = Sparse.get 0 x.weak u ∧ Sparse.get 0 z u = Sparse.get 0 x.moves u) ∧
  (∀ (id unit mode : Nat) (x : FlashObj), s.object id = some x → 0 < mode → mode ≤ 3 →
    ∃ t y, exec (.t3Patrol [(id, unit, mode)]) s = .next t ∧ Sparse.get FlashObj.empty t.flash id = { x with weak := y } ∧
      Sparse.get 0 y unit = max (Sparse.get 0 x.weak unit) mode) ∧
  (∀ channel : Nat, channel < 16 → channel ∉ s.flashDown →
    ∃ t, exec (.flashChannelFail channel) s = .next t ∧ t.flashDown = s.flashDown ++ [channel] ∧ t.rd .memCapacityT3Degraded = 1 ∧
      ∃ e ∈ t.events, e.code = Code.memT3Degraded.val ∧ e.payload = payload [(16, 1, channel)]) ∧
  (∀ die : Nat, die < 8 → s.rangeHasRegion 1 die = false → s.rd (.memT1PendPending die) ≠ 0 →
    let p := s.rd (.memT1PendPending die)
    let m := s.rd (.memT1MapInService die)
    ∃ t, exec (.mapOutTakeEffect 1 die) s = .next t ∧ t.rd (.memT1PendPending die) = 0 ∧ t.rd (.memT1MapInService die) = m - (m &&& p) ∧
      ∀ u < 64, p.testBit u = true → ∃ e ∈ t.events, e.code = Code.memMappedOut.val ∧ e.payload = payload [(16, 1, 1), (17, 1, die), (18, 1, u)]) ∧
  (s.rangeHasRegion 2 0 = false → s.t2Pending ≠ 0 →
    let m := s.t2Map - (s.t2Map &&& s.t2Pending)
    ∃ t, exec (.mapOutTakeEffect 2 0) s = .next t ∧ t.t2Pending = 0 ∧ t.t2Map = m ∧ t.rd .memT2LimitLimit = t2Limit (t2List m).length % 2 ^ 48 ∧
      t.rd .memT2LimitChannels = (t2List m).length % 2 ^ 8 ∧
      ∀ u < 128, s.t2Pending.testBit u = true → ∃ e ∈ t.events, e.code = Code.memMappedOut.val ∧ e.payload = payload [(16, 1, 2), (17, 1, 0xFF), (18, 1, u)])

/-- Through the physical function: CREATE that nothing refuses and whose quota suffices writes the region's entry from
MEM_REGION_ARG with VALID, charges COUNT to the partition's use of the tier, and leaves the status code 0. SEAL of a
valid region of type WEIGHT sets SEALED; FREE of a valid region clears VALID and gives its COUNT back. A quota locks
when the locked quotas of each tier with it fit the capacity; otherwise it stays unlocked and MEM_QUOTA is raised with
the tier, the sum and the capacity. Each leaves the other regions as they are. -/
def Obligations.RegionsAreCreatedSealedAndFreed : Prop :=
  ∀ (s : State) (n : Nat), n < 256 → s.barShut true = false →
  (let p := s.rd .memRegionArgPartition
    let u := useField p (s.rd .memRegionArgTier)
    s.createRefusal n = none → s.rd u + s.rd .memRegionArgCount ≤ s.rd (quotaField p (s.rd .memRegionArgTier)) →
    ∃ t, exec (.regionCreate true n) s = .next t ∧ t.rd (.memRegionValid n) = 1 ∧ t.rd (.memRegionTier n) = s.rd .memRegionArgTier ∧
      t.rd (.memRegionBase n) = s.rd .memRegionArgBase ∧ t.rd (.memRegionCount n) = s.rd .memRegionArgCount ∧ t.rd (.memRegionPartition n) = p ∧
      t.rd (.memRegionType n) = s.rd .memRegionArgType ∧ t.rd (.memRegionRemote n) = s.rd .memRegionArgRemote ∧ t.rd (.memRegionSealed n) = 0 ∧
      t.rd u = s.rd u + s.rd .memRegionArgCount ∧ t.rd .memRegionStatusCode = 0 ∧ ∀ k < 256, k ≠ n → t.reg (Reg.memRegion k) = s.reg (Reg.memRegion k)) ∧
  (s.rd (.memRegionValid n) = 1 → s.rd (.memRegionType n) = 2 →
    ∃ t, exec (.regionSeal true n) s = .next t ∧ t.rd (.memRegionSealed n) = 1 ∧ t.rd (.memRegionValid n) = 1 ∧ t.rd .memRegionStatusCode = 0 ∧
      ∀ k < 256, k ≠ n → t.reg (Reg.memRegion k) = s.reg (Reg.memRegion k)) ∧
  (s.rd (.memRegionValid n) = 1 → let u := useField (s.rd (.memRegionPartition n)) (s.rd (.memRegionTier n))
    ∃ t, exec (.regionFree true n) s = .next t ∧ t.rd (.memRegionValid n) = 0 ∧ t.rd u = s.rd u - s.rd (.memRegionCount n) ∧
      t.rd .memRegionStatusCode = 0 ∧ ∀ k < 256, k ≠ n → t.reg (Reg.memRegion k) = s.reg (Reg.memRegion k)) ∧
  (∀ p < 16, s.barShut false = false → s.rd (.memQuotaLock p) = 0 →
    ∃ t, exec (.quotaLock p) s = .next t ∧
      ((∀ k, 1 ≤ k → k ≤ 3 → s.lockedSum p k ≤ s.rd (capacityOf k)) → t.rd (.memQuotaLock p) = 1 ∧ t.rd (.memQuotaT1 p) = s.rd (.memQuotaT1 p)) ∧
      (∀ k, 1 ≤ k → k ≤ 3 → s.lockedSum p k > s.rd (capacityOf k) → (∀ j, 1 ≤ j → j < k → s.lockedSum p j ≤ s.rd (capacityOf j)) → t.rd (.memQuotaLock p) = 0 ∧
        ∃ e ∈ t.events, e.code = Code.memQuota.val ∧ e.payload = payload [(16, 1, p), (17, 1, k), (20, 4, s.lockedSum p k), (24, 4, s.rd (capacityOf k))]))

/-- PAUSE of an active channel brings it to PAUSING, and of an idle or held one to PAUSED. When nothing of a PAUSING
channel is in flight it becomes PAUSED with exact positions, or returns to the state it paused from if PAUSE was written
0 meanwhile. Clearing PAUSE of a paused channel brings it back to the state it paused from with its transfer as it was.
ABORT of a PAUSED channel with a transfer ends the transfer with XFR_ABORTED, its descriptor and what was left: a core
channel's command is executed with that code, a chip channel's entry has ended with it. RESTART takes a stopped chip
channel to IDLE, or to PAUSED where PAUSE is 1. An aligned 32-bit doorbell write, through the PF or through the VF of
the channel's partition, writes TAIL, unless it moves TAIL backward or past the ring, which raises XFR_RING_OVERRUN and
changes nothing else. -/
def Obligations.ChannelsPauseAbortAndRestart : Prop :=
  ∀ (s : State) (ch : Nat), ch < 1088 → s.barShut false = false → let k := s.chan ch; let pause := RF.dmaChCtrlPause (chanBase ch);
  (s.chanState ch = 1 → ∃ t, exec (.dmaPause ch) s = .next t ∧ t.chanState ch = 2 ∧ t.rd pause = 1 ∧ t.chan ch = { k with prior := 1, unpause := false }) ∧
  (s.chanState ch = 0 ∨ s.chanState ch = 5 → ∃ t, exec (.dmaPause ch) s = .next t ∧ t.chanState ch = 3 ∧ t.rd pause = 1 ∧
    t.chan ch = { k with prior := s.chanState ch } ∧ ∀ x, k.xfer = some x → t.posOf ch x) ∧
  (∀ x, s.chanState ch = 2 → k.xfer = some x → x.asked = false → x.tries = 0 → x.failed = none → s.openReqs x true = [] →
    ∃ t, exec (.dmaPauseDrained ch) s = .next t ∧ t.posOf ch x ∧ (t.chan ch).xfer = some x ∧ (k.unpause = false → t.chanState ch = 3) ∧
      (k.unpause = true → k.prior < 8 → t.chanState ch = k.prior ∧ (t.chan ch).unpause = false)) ∧
  (s.chanState ch = 3 → k.prior < 8 → ∃ t, exec (.dmaResume ch) s = .next t ∧ t.rd pause = 0 ∧ t.chan ch = { k with unpause := false } ∧
    t.chanState ch = if k.xfer = none then 0 else k.prior) ∧
  (∀ x, s.chanState ch = 3 → k.xfer = some x → x.agent.key = ch →
    ∃ t, exec (.dmaAbort ch) s = .next t ∧ (t.chan ch).xfer = none ∧ (∀ n, x.agent = .chip n → (t.chan ch).ended = some (Code.xfrAborted.val, x)) ∧
      (∀ c n, x.agent = .core c n → t.hasExecuted c x.token Code.xfrAborted.val) ∧
      ∃ e ∈ t.events, e.code = Code.xfrAborted.val ∧ e.payload = payload [(16, 8, x.da), (24, 8, xfCount x.desc - x.moved)]) ∧
  (1024 ≤ ch → s.chanState ch = 4 → ∃ t, exec (.dmaRestart ch) s = .next t ∧ t.chan ch = k ∧ t.chanState ch = if s.rdBit pause then 3 else 0) ∧
  (∀ (fn n tail : Nat), s.decodes fn = true → s.rdBit .refReadyReady = true → n < 64 →
    fn = 0 ∨ s.rd (.dmaChCtrlPartition (dmaChip n)) = fn - 1 → let b := dmaChip n; let head := s.rd (.dmaChDoorHead b);
    ∃ t, exec (.chipChannelDoorbell ⟨fn, n, 0, 4⟩ tail) s = .next t ∧ t.rd (.dmaChDoorHead b) = head ∧
      (tailBad (s.rd (.dmaChDoorTail b)) (tail % 2 ^ 32) head (s.rd (.dmaChRingL b)) = false → t.rd (.dmaChDoorTail b) = tail % 2 ^ 32 ∧ t.events = s.events) ∧
      (tailBad (s.rd (.dmaChDoorTail b)) (tail % 2 ^ 32) head (s.rd (.dmaChRingL b)) = true → t.rd (.dmaChDoorTail b) = s.rd (.dmaChDoorTail b) ∧
        ∃ e ∈ t.events, e.code = Code.xfrRingOverrun.val ∧ e.payload = payload [(16, 1, n), (20, 4, tail), (24, 4, head)]))

/-- SERVICE_CORE_MEMORY_ACCESS of a hart of a READY device, in machine mode (whose addresses are CPAs), to bytes of one
line of memory that R252 allows. A load of a line that no core caches, with no poison and no parity error in it, answers
the bytes of memory and leaves the line cached and clean with its 64 bytes; a load of a cached line answers its bytes
and changes nothing. A store to a cached line changes those bytes of the line, makes it dirty, and leaves memory as it
is; eviction, CLEAN and FLUSH of a dirty line write back all 64 bytes (R24), and INVAL drops it without. A load that
R252 refuses answers all ones and a store that it refuses changes no line and no byte. The time CSR answers DTIME; a
write of satp with MODE Sv57 is ignored (R23). -/
def Obligations.HartAccessesSeeAndKeepMemory : Prop :=
  ∀ (s : State) (h a n : Nat), s.rdBit .refReadyReady = true → h < 32 →
  let w := s.hartAccessor h
  let b := a / 64 * 64
  (0 < n → a % 64 + n ≤ 64 → a + n ≤ 2 ^ 48 → inRegSpace a n = false →
    ((s.checkRange w a n false).1 = .ok → s.hartLine a = none → s.poisoned b 64 = false → anyMarked s.bad b 64 = false →
      ∃ t, exec (.serviceCoreMemoryAccess h (.load .machine) a n) s = .next t ∧ t.mem = s.mem ∧ t.book = s.book ∧
        t.hartLine a = some ⟨false, s.bytes b 64⟩ ∧ t.out = s.out ++ [.readReply (some (natOfBytes (s.bytes a n)))]) ∧
    (∀ l, (s.checkRange w a n false).1 = .ok → s.hartLine a = some l →
      exec (.serviceCoreMemoryAccess h (.load .machine) a n) s = .next (s.reply (some (natOfBytes ((l.data.drop (a % 64)).take n))))) ∧
    (∀ c, (s.checkRange w a n false).1.code = some c → ∃ t, exec (.serviceCoreMemoryAccess h (.load .machine) a n) s = .next t ∧
      t.mem = s.mem ∧ t.lines = s.lines ∧ t.out = s.out ++ [.readReply (some (natOfBytes (bytesOfNat n (onesOf n))))]) ∧
    (∀ l v, (s.checkRange w a n true).1 = .ok → s.hartLine a = some l →
      ∃ t, exec (.serviceCoreMemoryAccess h (.store .machine v) a n) s = .next t ∧ t.mem = s.mem ∧ t.book = s.book ∧ t.out = s.out ∧
        t.hartLine a = some (l.write (a % 64) (bytesOfNat n v))) ∧
    (∀ c v, (s.checkRange w a n true).1.code = some c → ∃ t, exec (.serviceCoreMemoryAccess h (.store .machine v) a n) s = .next t ∧
      t.mem = s.mem ∧ t.book = s.book ∧ t.lines = s.lines ∧ t.out = s.out)) ∧
  (∀ l, a < 2 ^ 48 → s.hartLine a = some l → l.dirty = true → l.data.length = 64 → (s.checkRange w b 64 true).1 = .ok →
    (∃ t, exec (.serviceCoreMemoryAccess h .evict a n) s = .next t ∧ t.mem = (s.store b l.data).mem ∧ t.hartLine a = none) ∧
    (∃ t, exec (.serviceCoreMemoryAccess h (.clean .machine) a n) s = .next t ∧ t.mem = (s.store b l.data).mem ∧
      t.hartLine a = some { l with dirty := false }) ∧
    (∃ t, exec (.serviceCoreMemoryAccess h (.flush .machine) a n) s = .next t ∧ t.mem = (s.store b l.data).mem ∧ t.hartLine a = none)) ∧
  (a < 2 ^ 48 → ∃ t, exec (.serviceCoreMemoryAccess h (.inval .machine) a n) s = .next t ∧ t.mem = s.mem ∧ t.hartLine a = none) ∧
  (∃ t, exec (.serviceCoreMemoryAccess h .readTime a n) s = .next t ∧ t.out = s.out ++ [.readReply (some (s.dtime % 2 ^ 64))] ∧ t.mem = s.mem) ∧
  (∀ v, bitsAt (v % 2 ^ 64) 60 4 = 10 → exec (.serviceCoreMemoryAccess h (.writeCsr v) 0x180 n) s = .next s) ∧
  (∀ v, bitsAt (v % 2 ^ 64) 60 4 = 8 ∨ bitsAt (v % 2 ^ 64) 60 4 = 9 → ∃ t, exec (.serviceCoreMemoryAccess h (.writeCsr v) 0x180 n) s = .next t ∧
    t.hartCsrOf h 0x180 = v % 2 ^ 64)

/-- A core channel that is idle takes its next DMA_XFER, when its operands and its descriptor pass their checks: it is
RUNNING and holds the descriptor at OFFSET of the core store with nothing moved. A RUNNING channel moves units in order;
a unit that passes its verification and is written advances the transfer by one block or by its bytes, and one that
fails ends it with its code. TRANSFER_COMPLETE of a transfer all of whose units are moved, and whose acknowledgements
(where needed) have come, ends it with success: a core command is executed with code 0, a chip channel's entry has
ended. DMA_GATHER runs its list and is executed with the code that its rows, or the refusal, give. A chip channel takes
the entry at HEAD and advances HEAD (said for a ring outside tier 2, whose cache counters are registers too); when it
has ended, CHIP_CHANNEL_ENTRY_DONE performs its signal and frees the channel, or stops it where it failed. -/
def Obligations.TransfersBeginMoveAndEnd : Prop :=
  ∀ s : State,
  (∀ (core channel : Nat) (i : Issued),
    let k := channel % 4
    let key := coreKey core k
    let v := s.began core i
    let da := coreWindow core + dmaOffset i.cmd
    (s.core core).head = none → (s.core core).nextOf (.dma k) = some i → i.opcode = 0x40 → i.mayRun = true → s.chanState key = 0 →
    dmaClean i.cmd = true → dmaOffset i.cmd % 64 = 0 → dmaOffset i.cmd + 64 ≤ storeSize → anyMarked v.bad da 64 = false →
    (v.setSerial (v.serial + 1)).xfReason (.core core k) (v.memNat da 64) = none →
    ∃ t x, exec (.dmaXfer core channel [] 0) s = .next t ∧ t.chanState key = 1 ∧ (t.chan key).xfer = some x ∧ x.agent = .core core k ∧
      x.token = i.token ∧ x.da = da ∧ x.desc = v.memNat da 64 ∧ x.moved = 0) ∧
  (∀ (core channel n : Nat) (x : Xfer),
    let k := channel % 4
    let key := coreKey core k
    let r := State.moveUnits [] n s x
    (s.core core).head = none → (s.core core).nextOf (.dma k) = none → s.chanState key = 1 → (s.chan key).xfer = some x →
    x.failed = none → x.agent = .core core k →
    ∃ t, exec (.dmaXfer core channel [] n) s = .next t ∧ (r.2.2 = .more → (t.chan key).xfer = some r.2.1 ∧ t.mem = r.1.mem) ∧
      ∀ code, r.2.2 = .fail code → t = r.1.failXfer r.2.1 code) ∧
  (∀ (x : Xfer) (bs : List (BitVec 8)) (trailer : Nat), (s.writeUnit x bs trailer).2 = none →
    (s.passUnit x bs trailer).2.2 = .more ∧
      (s.passUnit x bs trailer).2.1.moved = x.moved + (if xfBlocks x.desc then 1 else bs.length)) ∧
  (∀ (channel : Nat) (x : Xfer), channel < 1088 → s.chanState channel = 1 → s.entryWaiting channel = false →
    (s.chan channel).xfer = some x → x.agent.key = channel → x.failed = none → x.moved = xfCount x.desc →
    s.needsAcks x = false ∨ s.openReqs x true = [] → s.rdBit .dmaModeReadback = false →
    ∃ t, exec (.transferComplete channel [] 0) s = .next t ∧ (t.chan channel).xfer = none ∧ t.mem = s.mem ∧
      (∀ n, x.agent = .chip n → (t.chan channel).ended = some (0, x)) ∧
      (∀ c n, x.agent = .core c n → t.hasExecuted c x.token 0)) ∧
  (∀ (core channel : Nat) (i : Issued),
    let k := channel % 4
    let v := s.began core i
    (s.core core).head = none → (s.core core).nextOf (.dma k) = some i → i.opcode = 0x41 → i.mayRun = true →
    s.chanState (coreKey core k) = 0 →
    ∃ t, exec (.dmaGather core channel []) s = .next t ∧
      (v.gatherRefusal core i.cmd = none → t.hasExecuted core i.token (v.gatherGo core k i).2 ∧ t.mem = (v.gatherGo core k i).1.mem) ∧
      ∀ r, v.gatherRefusal core i.cmd = some r → t.hasExecuted core i.token (v.gatherRefused core k i.cmd r).2 ∧ t.mem = s.mem) ∧
  (∀ n : Nat, n < 64 →
    let b := dmaChip n
    let key := chipKey n
    let da := s.ringEntry b (s.rd (.dmaChDoorHead b))
    let v := s.wr (.dmaChDoorHead b) ((s.rd (.dmaChDoorHead b) + 1) % 2 ^ 32)
    let y := v.dmaRead (.chip n) da 64 0
    let w := v.memNat da 64
    s.chanState key = 0 → s.rd (.dmaChDoorHead b) ≠ s.rd (.dmaChDoorTail b) → (s.chan key).ended = none → s.chanWait n = .none →
    y.2 = none → (y.1.setSerial (v.serial + 1)).xfReason (.chip n) w = none → xfWaitEn w = false →
    ∃ t x, exec (.chipChannelEntry n [] 0) s = .next t ∧ t.chanState key = 1 ∧ (t.chan key).xfer = some x ∧ x.da = da ∧ x.desc = w ∧
      x.moved = 0 ∧ (areaOf da ≠ .tier2 → t.rd (.dmaChDoorHead b) = (s.rd (.dmaChDoorHead b) + 1) % 2 ^ 32)) ∧
  (∀ (n code : Nat) (x : Xfer), n < 64 → (s.chan (chipKey n)).ended = some (code, x) →
    ∃ t, exec (.chipChannelEntryDone n) s = .next t ∧ (t.chan (chipKey n)).ended = none ∧
      (code ≠ 0 → t.chanState (chipKey n) = 4) ∧
      (code = 0 → ∃ u : State, u.chanState (chipKey n) = (if u.rdBit (.dmaChCtrlPause (dmaChip n)) then 3 else 0) ∧
        t = u.performSignal (unitChipChannel n) (u.rd (.dmaChCtrlPartition (dmaChip n))) 0 (xfSignal x.desc)))

/-- ENABLE of a feed that nothing refuses makes it RUNNING at FIRST with nothing released (said where no recovery is in
progress); a refused one raises XFR_FEED_INVALID with its reason and stays disabled. A feed that may start its next
layer advances NEXT_FETCH, keeps the layers within its window W, and starts the pieces of the new one in order. A piece
all of whose units are moved and acknowledged is no longer waited for, and a layer without waiting pieces is delivered.
A recovery whose units read well again, and pass their checks, succeeds; otherwise the next step runs. GO hands the
driver's units over, DECLINE and the deadline end the recovery without. -/
def Obligations.FeedsLayersAndRecoveries : Prop :=
  ∀ s : State,
  (∀ feed : Nat, feed < 64 → s.barShut false = false → s.rd (.cadFeedCtrlEnable feed) = 0 → let p := s.rd (.cadFeedCtrlPartition feed);
    (s.feedRefusal feed = none → s.recoveries = [] → ∃ t, exec (.cadFeedEnable feed) s = .next t ∧ t.rd (.cadFeedCtrlEnable feed) = 1 ∧
      t.rd (.cadFeedCtrlState feed) = 1 ∧ t.rd (.cadFeedShapeNextFetch feed) = s.rd (.cadFeedPosFirst feed) ∧
      t.rd (.cadFeedPosMinReleased feed) = s.rd (.cadFeedPosFirst feed) ∧ t.feed feed = Feed.reset) ∧
    (∀ r, s.feedRefusal feed = some r → ∃ t, exec (.cadFeedEnable feed) s = .next t ∧ t.rd (.cadFeedCtrlEnable feed) = 0 ∧
      ∃ e ∈ t.events, e.code = Code.xfrFeedInvalid.val ∧ e.part = p ∧ e.payload = payload [(16, 1, r), (17, 1, feed)])) ∧
  (∀ feed : Nat, feed < 64 → s.rdBit (.cadFeedCtrlEnable feed) = true → s.rdBit (.cadFeedCtrlPause feed) = false →
    s.rd (.cadFeedCtrlState feed) = 1 ∨ s.rd (.cadFeedCtrlState feed) = 2 →
    let q := s.rd (.cadFeedShapeNextFetch feed)
    let n := s.pieceCount feed q
    s.layerMayStart feed q = true →
    ∃ t u : State, exec (.caddieLayerStart feed) s = .next t ∧ u.rd (.cadFeedShapeNextFetch feed) = (q + 1) % 2 ^ 32 ∧
      (u.feed feed).layers = (s.feed feed).layers.filter (fun y => decide (seqDist y.q q < s.rd (.cadFeedShapeW feed))) ++
        [⟨q, List.range n, none⟩] ∧
      (n ≠ 0 → t = (u.startPieces feed q (List.range n)).holdFeed feed) ∧
      (n = 0 → t = ((u.holdFeed feed).count (Reg.cadCnt 0) 1).addStarve feed)) ∧
  (∀ (feed layer piece : Nat) (x : Xfer), let a := Agent.piece feed layer piece;
    (s.chan a.key).xfer = some x → x.agent = a → x.failed = none → x.moved = xfCount x.desc → s.openReqs x true = [] →
    s.rdBit .dmaModeReadback = false →
    ∃ t u : State, exec (.caddiePieceDone feed layer piece ⟨[], 0⟩) s = .next t ∧ (u.chan a.key).xfer = none ∧
      (u.chan a.key).ended = none ∧ (u.feed feed).layers = (s.feed feed).layers.map (fun l =>
        if l.q = layer then { l with waiting := l.waiting.filter (fun i => !(decide (i = piece))) } else l) ∧
      t = (if (u.feed feed).layers.any (fun l => decide (l.q = layer ∧ l.waiting = [] ∧ l.failed = none)) then
          (u.count (Reg.cadCnt 0) 1).addStarve feed else u.addStarve feed)) ∧
  (∀ (object : Nat) (r : Recovery) (x : FlashObj), s.recovery object = some r → r.step = 1 → s.object object = some x → s.lostUnits object = [] →
    (mendedOk x r.units = true → ∃ t u : State, exec (.recoveryStepDone object) s = .next t ∧ t = u.releaseHold r.object r.part ∧
      ∃ e ∈ u.events, e.code = Code.xfrWeightRecovered.val ∧ e.part = r.part ∧ e.payload = payload [(16, 4, r.object), (20, 1, 1)]) ∧
    (mendedOk x r.units = false → exec (.recoveryStepDone object) s = .next (s.nextStep r 0))) ∧
  (∀ (object : Nat) (r : Recovery), s.recovery object = some r → r.supplied = false →
    ∃ t u : State, exec (.recoveryDeadline object) s = .next t ∧ t = (u.recoveryFailed r).askNext r.part ∧
      u.dtime = max s.dtime (r.start + s.rd (.cadPCtrlDeadlineMs r.part) * 1000000) ∧ u.recoveries = s.recoveries ∧
      ∀ q ∈ u.reqs, q.agent ≠ .alternate object) ∧
  (∀ (p : Nat) (r : Recovery), s.barShut false = false →
    s.recoveries.find? (fun r => decide (r.part = p) && r.asked && !r.supplied) = some r → s.rd (.cadPSupplyRequest p) = 1 →
    (∃ t, exec (.cadSupplyGo p) s = .next t ∧ t.rd (.cadPSupplyRequest p) = 0 ∧
      t.recoveries = s.recoveries.map (fun x => if x.object = r.object then { r with supplied := true } else x)) ∧
    exec (.cadSupplyDecline p) s = .next ((s.recoveryFailed r).askNext p))

/-- With the device READY and the function in D0: a window read that its entry and R252 allow answers the bytes of the
target's device memory, or is answered poisoned where a line is; a write stores its bytes there unless a granule it
touches is owned by a command (flag 2), which discards it with HQ_OWNERSHIP kind 0. A refused access answers all ones,
changes no memory, and raises HQ_WINDOW with its cause. The PF writes a window entry, and VALID 1 resets the flags of
its granules and of no others. A host write of a flag word is taken exactly when it names owner 0 to 2 with the reserved
bits zero, the word is not owned by a command, and SEQ is the next; otherwise the word stays and HQ_OWNERSHIP kind 1 is
raised. A request that no BAR decodes is an Unsupported Request. -/
def Obligations.WindowAccessesFollowTheirEntry : Prop :=
  ∀ s : State,
  (∀ fn addr n e off : Nat, s.decodes fn = true → s.rdBit .refReadyReady = true → s.windowAt fn addr = some (e, off) →
    let a := s.rd (.hifWinTarget e) * gib1 + off
    (s.windowRefusal e off n false = none → s.poisoned a n = false →
      ∃ t, exec (.windowRead fn addr n) s = .next t ∧ t.mem = s.mem ∧ t.out = s.out ++ [.readReply (some (s.memNat a n))]) ∧
    (s.windowRefusal e off n false = none → s.poisoned a n = true →
      ∃ t, exec (.windowRead fn addr n) s = .next t ∧ t.mem = s.mem ∧ t.out = s.out ++ [.readReply none]) ∧
    (∀ c, s.windowRefusal e off n false = some c → ∃ t, exec (.windowRead fn addr n) s = .next t ∧ t.mem = s.mem ∧
      t.out = s.out ++ [.readReply (some (onesOf n))] ∧ ∃ ev ∈ t.events, ev.code = Code.hqWindow.val ∧
        ev.payload = payload [(16, 1, e), (20, 4, off), (24, 1, 0), (25, 1, c)])) ∧
  (∀ fn addr n value e off : Nat, s.decodes fn = true → s.rdBit .refReadyReady = true → s.windowAt fn addr = some (e, off) →
    let a := s.rd (.hifWinTarget e) * gib1 + off
    (s.windowRefusal e off n true = none → (∀ g, e * 16384 + off / 65536 ≤ g → s.flagWord g % 4 ≠ 2) →
      ∃ t, exec (.windowWrite fn addr n value) s = .next t ∧ t.mem = (s.storeNat a n value).mem ∧ t.flags = s.flags) ∧
    (∀ c, s.windowRefusal e off n true = some c → ∃ t, exec (.windowWrite fn addr n value) s = .next t ∧ t.mem = s.mem ∧
      ∃ ev ∈ t.events, ev.code = Code.hqWindow.val ∧ ev.payload = payload [(16, 1, e), (20, 4, off), (24, 1, 1), (25, 1, c)]) ∧
    (s.windowRefusal e off n true = none → 0 < n → e * 16384 + off / 65536 < 2097152 → s.flagWord (e * 16384 + off / 65536) % 4 = 2 →
      ∃ t, exec (.windowWrite fn addr n value) s = .next t ∧ t.mem = s.mem ∧ ∃ ev ∈ t.events, ev.code = Code.hqOwnership.val)) ∧
  (∀ e value : Nat, e < 128 → s.barShut true = false → ∃ t, exec (.windowEntryWrite true e value) s = .next t ∧
    t.reg (Reg.hifWin e) = BitVec.ofNat 64 (value % 2 ^ 25) ∧
    ∀ g, t.flagWord g = if bitAt (value % 2 ^ 25) 24 = true ∧ g / 16384 = e then 0 else s.flagWord g) ∧
  (∀ fn granule value : Nat, s.decodes fn = true → s.rdBit .refReadyReady = true →
    let g := if fn = 0 then granule else s.rd (.hifPartMiscWbase (fn - 1)) * 16384 + granule
    let v := value % 2 ^ 32
    g < 2097152 → fn = 0 ∨ granule < 131072 →
    ∃ t, exec (.hostFlagWrite fn granule value) s = .next t ∧
      (v % 4 ≠ 3 ∧ bitsAt v 2 14 = 0 ∧ s.flagWord g % 4 ≠ 2 ∧ v / 65536 = (s.flagWord g / 65536 + 1) % 65536 →
        t.flagWord g = v ∧ ∀ k, k ≠ g → t.flagWord k = s.flagWord k) ∧
      (¬ (v % 4 ≠ 3 ∧ bitsAt v 2 14 = 0 ∧ s.flagWord g % 4 ≠ 2 ∧ v / 65536 = (s.flagWord g / 65536 + 1) % 65536) →
        t.flags = s.flags ∧ ∃ ev ∈ t.events, ev.code = Code.hqOwnership.val ∧
          ev.payload = payload [(16, 4, g), (20, 1, 1), (21, 1, s.rd (.hifWinPartition (g / 16384))), (22, 2, s.flagWord g / 65536)])) ∧
  (∃ t, exec .pcieUnsupportedRequest s = .next t ∧ t.out = s.out ++ [.unsupported] ∧ t.mem = s.mem)

/-- Through the physical function: ENABLE of a queue that nothing refuses makes it RUNNING, DISABLE makes it DISABLED,
RESTART takes a STOPPED one back to RUNNING, and of a stream ENABLE starts it afresh and DISABLE runs its disabling; a
refused operation raises HQ_QUEUE_INVALID with its reason and changes neither. A doorbell write of a DISABLED queue, or
of another size or offset, is only counted in HIF_CNT_3; of an enabled one it writes TAIL into the context, unless it
moves TAIL backward or past the ring, which raises HQ_RING_OVERRUN and writes no memory; and so with HEAD of a stream. A
write of HIF_PART_EVRING with L in range sets the register, and ENABLE from 0 to 1 restarts the ring; one with L out of
range changes nothing but a count. -/
def Obligations.QueuesStreamsAndDoorbells : Prop :=
  ∀ s : State,
  (∀ (op index : Nat) (stream : Bool) (cmd : Instr), s.barShut true = false →
    (op = 1 ∧ cmd = .queueEnable true index stream) ∨ (op = 2 ∧ cmd = .queueDisable true index stream) ∨
      (op = 3 ∧ cmd = .queueRestart true index stream) →
    let u := if op = 1 then s.ctxSeen (if stream then s.streamCtx index else s.queueCtx index) 64 else s
    ∃ t, exec cmd s = .next t ∧
      (u.qOpRefusal op index stream = none → stream = false → t.queueState index = if op = 2 then 0 else 1) ∧
      (u.qOpRefusal op index stream = none → stream = true → op = 1 → t.stream index = { Stream.reset with on := true }) ∧
      (u.qOpRefusal op index stream = none → stream = true → op ≠ 1 → t = (u.wr .hifQStatusCode 0).disableStream index) ∧
      (∀ r, u.qOpRefusal op index stream = some r → t.queues = s.queues ∧ t.streams = s.streams ∧
        t.rd .hifQStatusCode = Code.hqQueueInvalid.val ∧
        ∃ e ∈ t.events, e.code = Code.hqQueueInvalid.val ∧ e.payload = payload [(16, 2, index), (18, 1, r)])) ∧
  (∀ (fn page value q : Nat), s.decodes fn = true → s.rdBit .refReadyReady = true → s.pageQueue fn page = some q →
    let u := s.ctxSeen (s.queueCtx q) 64
    let v := value % 2 ^ 32
    (s.queueState q = 0 → exec (.queueDoorbell fn page 0 4 value) s = .next (s.count (Reg.hifCnt 3) 1)) ∧
    (∀ offset size, offset ≠ 0 ∨ size ≠ 4 → exec (.queueDoorbell fn page offset size value) s = .next (s.count (Reg.hifCnt 3) 1)) ∧
    (s.queueState q ≠ 0 → tailBad (u.queueTail q) v (u.queueHead q) (u.queueL q) = false →
      exec (.queueDoorbell fn page 0 4 value) s = .next (u.ctxWrite (u.queueCtx q + 24) 4 v)) ∧
    (s.queueState q ≠ 0 → tailBad (u.queueTail q) v (u.queueHead q) (u.queueL q) = true →
      ∃ t, exec (.queueDoorbell fn page 0 4 value) s = .next t ∧ t.mem = s.mem ∧ ∃ e ∈ t.events, e.code = Code.hqRingOverrun.val ∧
        e.payload = payload [(16, 1, 0), (18, 2, q), (20, 4, v), (24, 4, u.queueHead q)])) ∧
  (∀ (fn page value n : Nat), s.decodes fn = true → s.rdBit .refReadyReady = true → s.pageStream fn page = some n →
    let u := s.ctxSeen (s.streamCtx n) 32
    let v := value % 2 ^ 32
    ((s.stream n).on = false → exec (.streamHeadWrite fn page 0 4 value) s = .next (s.count (Reg.hifCnt 3) 1)) ∧
    ((s.stream n).on = true → headBad (u.streamHead n) v (u.streamTail n) = false →
      exec (.streamHeadWrite fn page 0 4 value) s = .next (u.ctxWrite (u.streamCtx n + 24) 4 v)) ∧
    ((s.stream n).on = true → headBad (u.streamHead n) v (u.streamTail n) = true →
      ∃ t, exec (.streamHeadWrite fn page 0 4 value) s = .next t ∧ t.mem = s.mem ∧ ∃ e ∈ t.events, e.code = Code.hqRingOverrun.val ∧
        e.payload = payload [(16, 1, 1), (18, 2, n), (20, 4, v), (24, 4, u.streamTail n)])) ∧
  (∀ p value : Nat, p ≤ 16 → s.barShut true = false → s.rd (.hifPartEvringEnable p) = 0 →
    let v := value % 2 ^ 55
    ∃ t, exec (.eventRingWrite true p value) s = .next t ∧
      (4 ≤ bitsAt v 49 5 ∧ bitsAt v 49 5 ≤ 16 → t.reg (Reg.hifPartEvring p) = BitVec.ofNat 64 v ∧
        (bitAt v 54 = true → t.reg (Reg.hifPartEvpos p) = 0 ∧ (t.ring p).seq = 0)) ∧
      (¬ (4 ≤ bitsAt v 49 5 ∧ bitsAt v 49 5 ≤ 16) → t = s.count (Reg.hifCnt 0) 1))

/-- At the head of a RUNNING queue, an entry that is valid and asks for no wait acts at once. SEGMENT hands its record
to the dispatcher, last in order, if the core has room for it, and stays otherwise. GRANT of granules none of which is
HOST makes every one HOST, each SEQ one up, and CLAIM of granules all of owner NONE makes every one COMMAND; the flags
of all other granules stay; a granule that forbids it fails the entry with HQ_OWNERSHIP. SIGNAL performs its signal
entry, SEQ_CANCEL raises HQ_SEQ_CANCELLED with the number of held segments, NOP only completes. An invalid entry raises
HQ_ENTRY_INVALID with its reason and is skipped. The first waiting completion of a stream with room is written; the end
of a holdoff sends what was owed. -/
def Obligations.SubmissionEntriesTakeEffect : Prop :=
  ∀ s : State,
  (∀ (q w : Nat) (u : State), s.headEntry q 1 w u →
    let r := enRecord w q (u.queuePart q) u.segOrder
    ∃ t, exec (.entrySegment q) s = .next t ∧ (u.dispatchRoom r = true → t.dispatch = u.dispatch ++ [r]) ∧
      (u.dispatchRoom r = false → t = u)) ∧
  (∀ (q w : Nat) (u : State), s.headEntry q 2 w u → ∃ t, exec (.entryGrant q) s = .next t ∧
    ((∀ g ∈ enGranules w, u.flagWord g % 4 ≠ 1) → ∀ g, t.flagWord g =
      if g ∈ enGranules w then 1 + (u.flagWord g / 65536 + 1) % 65536 * 65536 else u.flagWord g) ∧
    (∀ g, (enGranules w).find? (fun g => decide (u.flagWord g % 4 = 1)) = some g →
      t = (u.ownershipEvent sevFailed g 3).failEntry q w Code.hqOwnership.val)) ∧
  (∀ (q w : Nat) (u : State), s.headEntry q 3 w u → ∃ t, exec (.entryClaim q) s = .next t ∧
    ((∀ g ∈ enGranules w, u.flagWord g % 4 = 0) → ∀ g, t.flagWord g =
      if g ∈ enGranules w then 2 + (u.flagWord g / 65536 + 1) % 65536 * 65536 else u.flagWord g) ∧
    (∀ g, (enGranules w).find? (fun g => decide (u.flagWord g % 4 ≠ 0)) = some g →
      t = (u.ownershipEvent sevFailed g 4).failEntry q w Code.hqOwnership.val)) ∧
  (∀ (q w : Nat) (u : State), s.headEntry q 4 w u →
    let g := signalEntry (bytesAt w 32 6)
    ∃ t, exec (.entrySignal q) s = .next t ∧ (g.kind = 1 ∨ g.kind = 2 → u.isLocal g.chip = true → t.signals =
      u.signals ++ [⟨unitPcie, some (u.queuePart q), 0xFFFF, g.object, decide (g.kind = 2), 0⟩]) ∧ (g.kind = 0 → t = u.entryDone q w)) ∧
  (∀ (q w : Nat) (u : State), s.headEntry q 5 w u →
    let held := u.dispatch.filter (fun r => decide (r.seqSlot = enSlot w) && u.seqHeld r)
    ∃ t v : State, exec (.entrySeqCancel q) s = .next t ∧ t = v.entryDone q w ∧ ∃ e ∈ v.events, e.code = Code.hqSeqCancelled.val ∧
      e.payload = payload [(16, 1, enSlot w), (20, 4, held.length)]) ∧
  (∀ (q w : Nat) (u : State), s.headEntry q 6 w u → exec (.entryNop q) s = .next (u.entryDone q w)) ∧
  (∀ (q w reason : Nat) (u : State), s.queueState q = 1 → s.queueHead q ≠ s.queueTail q → s.queueWaits q = false →
    s.readEntry q = (u, w, none) → u.entryReason (u.queuePart q) w = some reason →
    ∃ t v : State, exec (.entryInvalid q) s = .next t ∧ t = (v.postFailure q w Code.hqEntryInvalid.val).entryTaken q ∧
      ∃ e ∈ v.events, e.code = Code.hqEntryInvalid.val ∧ e.payload = payload [(16, 1, reason), (20, 2, q), (24, 4, u.queueHead q)]) ∧
  (∀ (n : Nat) (x : Completion) (l : List Completion), (s.stream n).on = true → (s.stream n).waiting = x :: l → s.streamFull n = false →
    ∃ t u : State, exec (.completionPostResume n) s = .next t ∧ t = u.writeCompletion x ∧ u.stream n = { s.stream n with waiting := l }) ∧
  (∀ n : Nat, (s.ring n).owed = true → ∃ t, exec (.msixHoldoffExpiry true n) s = .next t ∧ (t.ring n).owed = false ∧
    t.dtime = max s.dtime (s.ring n).holdoff) ∧
  (∀ n : Nat, (s.stream n).owed = true →
    exec (.msixHoldoffExpiry false n) s = .next ((s.setDtime (max s.dtime (s.stream n).holdoff)).streamMessage n))

/-- Through the physical function, on a partition that is not BUSY and holds no suspension: CREATE that passes its check
locks the ranges and makes it CREATED; LOAD of an image that is read, claimed, placed and enabled without a refusal
makes it READY with CODE 0; RUN makes a READY one RUNNING; SUSPEND of step S that no core has passed makes it BUSY and
notes S; RESUME makes it RUNNING again; END halts the cores, and ends a drained job at once or keeps it BUSY until its
commands have retired; RESTART undoes the load and loads it again with RESTORE; DESTROY makes it DESTROYED and unlocks
it. In a state that does not permit the operation, HQ_PART_INVALID with reason 1 is raised and CODE holds it. -/
def Obligations.PartitionOperationsRun : Prop :=
  ∀ (s : State) (p : Nat), p < 16 → s.barShut true = false → s.rd (.hifPartStatusBusy p) = 0 → (s.job p).suspend = none →
  let u := s.wr (.hifPartStatusCode p) 0
  (s.partState p = 0 → s.createCheck p = none → ∃ t, exec (.partitionCreate true p) s = .next t ∧ t.partState p = 1 ∧
    t.rd (.hifPartMiscLock p) = 1 ∧ t.rd (.hifPartStatusCode p) = 0) ∧
  (∀ states op, states.contains (s.partState p) = false → (op = 1 ∧ states = [0]) ∨ (op = 2 ∧ states = [1]) ∨ (op = 3 ∧ states = [2]) ∨
      (op = 4 ∧ states = [3]) ∨ (op = 5 ∧ states = [4]) ∨ (op = 6 ∧ states = [2, 3, 4, 5, 6]) ∨ (op = 7 ∧ states = [5, 6]) ∨ (op = 8 ∧ states = [1]) →
    ∀ cmd ∈ [(1, Instr.partitionCreate true p), (2, .partitionLoad true p none [] []), (3, .partitionRun true p), (4, .partitionSuspend true p),
      (5, .partitionResume true p), (6, .partitionEnd true p []), (7, .partitionRestart true p none [] []), (8, .partitionDestroy true p)],
    cmd.1 = op → ∃ t, exec cmd.2 s = .next t ∧ t.partState p = s.partState p ∧ t.rd (.hifPartStatusCode p) = Code.hqPartInvalid.val ∧
      ∃ e ∈ t.events, e.code = Code.hqPartInvalid.val ∧ e.payload = payload [(16, 1, p), (17, 1, 1), (18, 1, op)]) ∧
  (∀ (others : Option (List Nat)) (images : List (List (BitVec 8))) (fails : List (Nat × Nat)) (i : State × Except LoadErr Image) (x : Image),
    let o := u.rd (.hifPartJobObjectId p)
    let c := u.rd (.hifPartJobCpaJobCpa p)
    s.partState p = 1 → u.rdBit .refReadyFlagged = false → u.readImage p o c = i → i.2 = .ok x →
    i.1.claimRefusal p (i.1.imageUnits p o c x) x = none → i.1.regListOk p x = true →
    let r := ((i.1.jobBoundary fails).requestPlan 1).placeJob p o c x (u.rdBit (.hifPartJobRestore p)) none others images
    ∀ back, r.2.2 = .ok back → (r.1.enableJob p x back).2 = none →
      ∃ t, exec (.partitionLoad true p others images fails) s = .next t ∧ t.partState p = 2 ∧ t.rd (.hifPartStatusCode p) = 0) ∧
  (s.partState p = 2 → ∃ t, exec (.partitionRun true p) s = .next t ∧ t.partState p = 3) ∧
  (s.partState p = 3 → s.stepPassed p = none → let k := s.rd (.hifPartSuspendStep p);
    ∃ t, exec (.partitionSuspend true p) s = .next t ∧ t.rd (.hifPartStatusBusy p) = 1 ∧ t.partState p = 3 ∧ (t.job p).suspend = some k ∧
      t.haltAt = s.haltAt ++ [(p, k)]) ∧
  (s.partState p = 4 → ∃ t, exec (.partitionResume true p) s = .next t ∧ t.partState p = 3) ∧
  (∀ fails, s.partState p ∈ [2, 3, 4, 5, 6] → exec (.partitionEnd true p fails) s = .next (u.beginEnd p ⟨fails, 0⟩)) ∧
  (∀ others images fails, s.partState p = 5 ∨ s.partState p = 6 →
    exec (.partitionRestart true p others images fails) s = .next (u.restart p others images fails)) ∧
  (s.partState p = 1 → ∃ t, exec (.partitionDestroy true p) s = .next t ∧ t.partState p = 0 ∧ t.rd (.hifPartMiscLock p) = 0)

/-- When every core of a RUNNING partition with a suspension at step S has halted after S and its governor has published
S (or is off), PARTITION_SUSPENDED makes it SUSPENDED, clears BUSY and leaves no halt of it pending. AUTO_RESTART of a
STOPPED partition that may restart, whose loading again succeeds and whose membership is complete or unused, makes it
RUNNING and raises HQ_JOB_RESTARTED. VF_FLR and PF_FLR reset the functions: low-power states and ATS end and MSI-X is
disabled; before READY no register changes; after it a VF_FLR of a partition with a job sets READBACK and ends the job,
and PF_FLR resets every partition. FLR_DRAIN_TIMEOUT resets the agents of a partition that has not drained and finishes
its END: BUSY is 0, and after a reset through the physical function the partition is DESTROYED and unlocked. -/
def Obligations.SuspensionsRestartsAndResetsComplete : Prop :=
  ∀ (s : State) (p : Nat), p < 16 →
  (∀ k, (s.job p).suspend = some k → s.partState p = 3 →
    (∀ c ∈ s.coresOf p, (s.core c).pstate = 2 ∧ s.pmkStep c % 2 ^ 32 = (k + 1) % 2 ^ 32) →
    s.rd (.pgvCtxCtrlEnable p) = 0 ∨ s.rd (.pgvStatusPublishedStep p) = k →
    ∃ t, exec (.partitionSuspended p) s = .next t ∧ t.partState p = 4 ∧ t.rd (.hifPartStatusBusy p) = 0 ∧ (t.job p).suspend = none ∧
      ∀ x ∈ t.haltAt, x.1 ≠ p) ∧
  (∀ others images fails, s.rd (.hifPartStatusBusy p) = 0 → s.partState p = 6 → s.rd (.hifPartMiscAutoRestart p) = 1 →
    s.rd (.hifPartStatusRestarts p) < s.rd (.hifPartMiscRestartLimit p) → s.rd (.hifPartStatusStopCause p) ≠ Code.intReplaceChip.val →
    let u := (s.restart p others images fails).wr (.hifPartStatusRestarts p) (s.rd (.hifPartStatusRestarts p) + 1)
    u.partState p = 2 → u.rd (.redPGroupBound p) = 0 ∨ u.rd (.redPGroupComplete p) = 1 →
    ∃ t, exec (.autoRestart p others images fails) s = .next t ∧ t.partState p = 3 ∧
      ∃ e ∈ t.events, e.code = Code.hqJobRestarted.val ∧ e.part = p) ∧
  (∀ fails, ∃ t, exec (.vfFlr p fails) s = .next t ∧ p + 1 ∉ t.lowPower ∧ p + 1 ∉ t.atsOn ∧
      (∀ x ∈ t.msixCtl, x.1 ≠ p + 1) ∧ (s.rd .refReadyReady = 0 → t.regs = s.regs) ∧
      (s.rd .refReadyReady = 1 → ∃ u : State, u.rd .dmaModeReadback = 1 ∧ p ∈ u.referee.flr ∧
        (u.partState p ≥ 2 → (u.job p).ending = none → t = u.beginEnd p ⟨fails, 1⟩) ∧ (u.partState p < 2 → t = u.flrDone p))) ∧
  (∀ fails, ∃ t, exec (.pfFlr fails) s = .next t ∧
      (∀ fn < 17, fn ∉ t.lowPower ∧ fn ∉ t.atsOn ∧ (∀ x ∈ t.msixCtl, x.1 ≠ fn)) ∧
      (s.rd .refReadyReady = 0 → t.regs = s.regs)) ∧
  (∀ e, (s.job p).ending = some e → s.drained p = false → e.flr = 1 ∨ e.flr = 2 →
    ∃ t, exec (.flrDrainTimeout p) s = .next t ∧ t = ((s.chipsOf p).foldl State.resetChip (s.raise .mgtForcedReset unitReferee p (payload [(16, 1, p)]))).finishEnd p e ∧
      (e.flr = 1 → t.rd (.hifPartStatusBusy p) = 0) ∧ (e.flr = 2 → t.partState p = 0 ∧ t.rd (.hifPartMiscLock p) = 0))

/-- An enable write of a context that passes its checks sets ENABLE and publishes the start (the plan with epoch 0 and
step 0 and an empty log; GEXP from GEXP_INIT and CLEAN 0); of one that fails, NUM_GOV_INVALID or NUM_OPT_CTX_INVALID
names the cause and ENABLE stays 0. A pass of an enabled governor starts once for a step that every core has ended, with
BUSY 1 and PHASE 3, and the class PGV reduction of its statistics vector; with the result the pass is decided and its
step published, and a failed reduction stops the job. The norm reduction starts when every core has retired its last
OPT_NORM of the step; with its result the constants are published (SUMSQ, BUSY 0, CONST_STEP), and a failed one stops
the job. -/
def Obligations.GovernorAndOptimiserStepsComplete : Prop :=
  ∀ (s : State) (p : Nat), p < 16 →
  (s.barShut false = false → s.rd (.pgvCtxCtrlEnable p) = 0 →
    (s.pgvBad p = none → ∃ t, exec (.pgvEnable p) s = .next t ∧ t.rd (.pgvStatusPublishedStep p) = 0 ∧ t.reg (Reg.pgvEpoch p) = 0 ∧
      t.reg (Reg.pgvLogHead p) = 0 ∧ (t.job p).plan = ((s.wr (.pgvCtxCtrlEnable p) 1).planNow p)) ∧
    (∀ r i, s.pgvBad p = some (r, i) → ∃ t, exec (.pgvEnable p) s = .next t ∧ t.rd (.pgvCtxCtrlEnable p) = 0 ∧
      ∃ e ∈ t.events, e.code = Code.numGovInvalid.val ∧ e.payload = payload [(16, 1, r), (20, 4, i)])) ∧
  (s.barShut false = false → s.rd (.optCtxCtrlEnable p) = 0 →
    (s.optBad p = none → ∃ t, exec (.optEnable p) s = .next t ∧ t.rd (.optCtxCtrlEnable p) = 1 ∧
      t.rd (.optStatusGexp p) = s.rd (.optGscaleGexpInit p) ∧ t.rd (.optStatusClean p) = 0) ∧
    (∀ r i, s.optBad p = some (r, i) → ∃ t, exec (.optEnable p) s = .next t ∧ t.rd (.optCtxCtrlEnable p) = 0 ∧
      ∃ e ∈ t.events, e.code = Code.numOptCtxInvalid.val ∧ e.payload = payload [(16, 1, r), (20, 4, i)])) ∧
  (∀ n, s.endedStep p = some n → s.rd (.pgvCtxCtrlEnable p) = 1 → (s.job p).pass = none → (s.job p).passed ≠ some n → s.captureDue p = none →
    s.fingerprintDue p n = false → ∃ (u t : State), exec (.governorPassStart p) s = .next t ∧ t = u.startRed p 2 (18 * u.pgvGroups p) (s.statVector p) ∧
      (u.job p).pass = some (n, s.stepSkipped p n) ∧ (u.job p).passed = some n ∧ u.rd (.pgvStatusBusy p) = 1 ∧ u.rd (.pgvStatusPhase p) = 3) ∧
  (∀ n k r code, (s.job p).pass = some (n, k) → s.red p 2 = some r → r.outcome = some code →
    (code = 0 → ∃ t, exec (.governorPassDecide p) s = .next t ∧ t.rd (.pgvStatusPublishedStep p) = n % 2 ^ 32) ∧
    (code ≠ 0 → s.partState p = 3 → ∃ t, exec (.governorPassDecide p) s = .next t ∧ t.partState p = 6 ∧
      t.rd (.hifPartStatusStopCause p) = Code.numGovReduceFail.val)) ∧
  (∀ n, s.normStep p = some n → s.rd (.optCtxCtrlEnable p) = 1 → (s.job p).norm = none → (s.job p).capture = none → s.captureDue p = none →
    ∃ (u t : State), exec (.optNormReduceStart p) s = .next t ∧ u.rd (.optStatusBusy p) = 1 ∧ (u.job p).norm = some n ∧
      t = u.startRed p 1 3 [(s.coresOf p).foldl (fun a c => f32Add a ((s.core c).normOf n).sum) 0,
        f32OfNat (((s.coresOf p).map (fun c => ((s.core c).normOf n).bad)).foldl (· + ·) 0), f32OfNat 0]) ∧
  (∀ n r code, (s.job p).norm = some n → s.red p 1 = some r → r.outcome = some code →
    (code = 0 → (s.job p).capture = none → ∃ t, exec (.optConstants p) s = .next t ∧ t.rd (.optStatusBusy p) = 0 ∧
      t.rd (.optStatusConstStep p) = n % 2 ^ 32 ∧ t.rd (.optNormResultSumsq p) = r.value.getD 0 0 % 2 ^ 32) ∧
    (code ≠ 0 → s.partState p = 3 → ∃ t, exec (.optConstants p) s = .next t ∧ t.partState p = 6 ∧
      t.rd (.hifPartStatusStopCause p) = Code.numOptReduceFail.val))

/-- CKPT_REQUEST writes REQ_STEP, or raises NUM_CKPT_LATE for a step already passed. A capture that is due begins with
the image of the step: CAPTURE and SW_DONE are set; an image too large for the stripes fails with cause 1; with WAYS 0
the image stands in a new object that is WRITING; else every 4 KiB unit is sent to its buddy. Its end clears CAPTURE,
leaves no request of it and fixes the vote, 1 unless it failed. A drain whose stripes have come and pass makes the image
the one of the partition, sets LAST_DRAINED and raises NUM_CKPT_DRAINED; a failed one raises NUM_CKPT_FAIL with cause 3.
A round of fingerprints starts the reduction, for the owner with the count of the copies that differ; a first divergence
is reported as recovered, a second one stops the job. -/
def Obligations.CheckpointsAndFingerprintsComplete : Prop :=
  ∀ (s : State) (p : Nat), p < 16 →
  (∀ step, s.barShut false = false →
    let req := step % 2 ^ 32
    let cur := ((s.coresOf p).map (fun c => s.pmkStep c)).foldl max 0 % 2 ^ 32
    let d := (cur + 2 ^ 32 - req) % 2 ^ 32
    (req = 0 ∨ d = 0 ∨ d ≥ 2 ^ 31 → ∃ t, exec (.ckptRequest p step) s = .next t ∧ t.rd (.optCkptCtrlReqStep p) = req) ∧
    (req ≠ 0 → 0 < d → d < 2 ^ 31 → ∃ t, exec (.ckptRequest p step) s = .next t ∧ t.rd (.optCkptCtrlReqStep p) = s.rd (.optCkptCtrlReqStep p) ∧
      ∃ e ∈ t.events, e.code = Code.numCkptLate.val ∧ e.payload = payload [(16, 4, req), (20, 4, cur)])) ∧
  (∀ n, s.captureDue p = some n → (s.job p).drain = none → (s.job p).capture = none →
    let img := imageBytes (n % 2 ^ 32) s.chipId (s.job p).shard (s.groupView p).members.length (s.sections p n)
    let ways := s.rd (.optBuddyWays p)
    let big := ways > 0 ∧ img.length > ways * s.rd (.optBuddyStripeStripe p)
    ∃ (u t : State), exec (.checkpointCaptureStart p) s = .next t ∧ u.rd (.optCkptStateCapture p) = 1 ∧ u.rd (.optCkptStateSwDone p) = 1 ∧
      (u.job p).captured = some n ∧ (∃ x, (u.job p).capture = some x ∧ x.step = n % 2 ^ 32 ∧ x.vote = none ∧ x.length = img.length) ∧
      (big → t = u.ckptFail p (n % 2 ^ 32) 1) ∧
      (ways = 0 → t = u.openObject p (freeObject s.flash) img.length (Mem.writeBytes [] 0 img)) ∧
      (¬ big → ways ≠ 0 → t = (List.range (img.length / 4096)).foldl (fun s u => s.sendUnit p u ((img.drop (4096 * u)).take 4096)) u)) ∧
  (∀ x, (s.job p).capture = some x → x.vote = none → x.bad = true ∨ s.ckptReqs p 0 = [] →
    ∃ t, exec (.checkpointCaptureEnd p) s = .next t ∧ t.rd (.optCkptStateCapture p) = 0 ∧ t.ckptReqs p 0 = [] ∧
      (t.job p).capture = some { x with vote := some (!x.bad) }) ∧
  (∀ x, (s.job p).drain = some x →
    (x.bad = true → ∃ t, exec (.checkpointDrainDone p) s = .next t ∧ t.rd (.optCkptStateDrain p) = 0 ∧ (t.job p).drain = none ∧
      ∃ e ∈ t.events, e.code = Code.numCkptFail.val ∧ e.payload = payload [(16, 4, x.step), (20, 1, 3)]) ∧
    (x.bad = false → s.ckptReqs p 1 = [] →
      let u := (((s.setReqs (s.reqs.filter (fun r => !(decide (r.agent = Agent.capture p ∧ r.serial = 1))))).modJob p (fun j => { j with drain := none })).wr
        (.optCkptStateDrain p) 0)
      (u.raiseFaults p ((imageSections x.image).filterMap (fun y => (u.imageFault p x.image y).bind id))).imageOk p x.image = true →
      ∃ t, exec (.checkpointDrainDone p) s = .next t ∧ t.rd (.optCkptStatusLastDrained p) = x.step % 2 ^ 32 ∧ (t.job p).images = [(x.step, x.object)] ∧
        ∃ e ∈ t.events, e.code = Code.numCkptDrained.val ∧ e.payload = payload [(16, 4, x.step)])) ∧
  (∀ n, s.endedStep p = some n → s.fingerprintDue p n = true → (s.job p).fingerprint = none → (s.job p).pass = none →
    let fp := s.fingerprintOf p
    (∃ (u t : State), exec (.fingerprintRound (.copy p)) s = .next t ∧ t = u.startRed p 2 1 [0] ∧ Output.fingerprint p fp ∈ u.out ∧
      (u.job p).fingerprint = some (n, fp)) ∧
    (∀ l, ∃ (u t : State), exec (.fingerprintRound (.owner p l)) s = .next t ∧ (u.job p).fingerprint = some (n, fp) ∧
      t = u.startRed p 2 1 [f32OfNat (l.filter (fun x => decide (x ≠ fp))).length])) ∧
  (∀ n fp r k reads again, (s.job p).fingerprint = some (n, fp) → s.red p 2 = some r → r.outcome = some k →
    let count := if k = 0 then natOfF32 (r.value.getD 0 0) else 0
    let say (i : Nat) (t : State) (sev : Nat) : Prop := ∃ e ∈ t.events, e.code = Code.intReplicaDiverge.val ∧ e.sev = sev ∧
      e.payload = payload [(16, 4, (s.job p).shard), (20, 4, count), (24, 4, n), (28, 1, i)]
    (count = 0 → ∃ t, exec (.fingerprintResult p reads again) s = .next t ∧ (t.job p).fingerprint = none ∧ (t.job p).fpDone = some n ∧ t.events = s.events) ∧
    (count ≠ 0 → (s.job p).diverged = 0 → ∃ t, exec (.fingerprintResult p reads again) s = .next t ∧ say 1 t sevRecovered) ∧
    (count ≠ 0 → 0 < (s.job p).diverged → s.partState p = 3 → ∃ t, exec (.fingerprintResult p reads again) s = .next t ∧ t.partState p = 6 ∧
      t.rd (.hifPartStatusStopCause p) = Code.intReplicaDiverge.val))

/-- Writing LOCK of LNK_IDENT through the physical function sets it. Enabling a port that is DOWN, on a locked chip,
puts an Ergal port in step 1 and an Ethernet port UP; disabling one that takes no messages puts it DOWN. Each step of
the bring-up that ends without a failure begins the next, step 5 ends in UP with full credits and LNK_PORT_UP, and a
failed step ends in DOWN; the retry timer starts again from step 1. An UP port that goes down is DOWN without lanes,
LNK_PORT_DOWN names it and the step, and its messages are rerouted; a retrain that is over its 250 ms goes the same way.
A received flit that decodes, passes its CRC and is next in sequence is acknowledged and its messages are taken; one
that fails is discarded and a NAK is owed. The acknowledgement timer sends one flit. -/
def Obligations.PortsComeUpReceiveAndGoDown : Prop :=
  ∀ (s : State) (n : Nat), n < 18 →
  (s.barShut true = false → s.rd .lnkIdentLock = 0 → ∃ t, exec (.lnkIdentLock true) s = .next t ∧ t.rd .lnkIdentLock = 1) ∧
  (∀ v, s.barShut true = false → s.rd (.lnkPortStatusClaimed n) = 0 →
    (s.rd (.lnkPortCtrlEnable n) = 0 → bitAt v 0 = true → s.rd .lnkIdentLock = 1 → s.rd (.lnkPortStatusState n) = 0 → n ∉ s.referee.cut →
      ∃ t, exec (.portEnable true n v) s = .next t ∧ t.rd (.lnkPortCtrlEnable n) = 1 ∧
        t.rd (.lnkPortStatusState n) = if bitAt v 1 then 6 else 1) ∧
    (s.rd (.lnkPortCtrlEnable n) = 1 → bitAt v 0 = false → bitsAt v 1 1 = s.rd (.lnkPortCtrlMode n) → s.portTakes n = false →
      ∃ t, exec (.portEnable true n v) s = .next t ∧ t.rd (.lnkPortCtrlEnable n) = 0 ∧ t.rd (.lnkPortStatusState n) = 0)) ∧
  (∀ failed lanes, let st := s.rd (.lnkPortStatusState n)
    (st ≠ 0 → st ≠ 6 → failed ≠ none → ∃ t, exec (.portBringupDone n failed lanes) s = .next t ∧ t.rd (.lnkPortStatusState n) = 0) ∧
    (failed = none → (0 < st ∧ st < 4) ∨ (st = 4 ∧ (s.port n).helloed = true) →
      ∃ t, exec (.portBringupDone n failed lanes) s = .next t ∧ t.rd (.lnkPortStatusState n) = st + 1) ∧
    (failed = none → st = 5 → (s.port n).helloed = true → ∃ t, exec (.portBringupDone n failed lanes) s = .next t ∧ t.rd (.lnkPortStatusState n) = 6 ∧
      (t.port n).credits = fullCredits ∧ (t.port n).retrain = none ∧ t.rd (.lnkPortStatusLanes n) = (if lanes = 3 ∨ lanes = 12 then lanes else 15) ∧
      ∃ e ∈ t.events, e.code = Code.lnkPortUp.val)) ∧
  (s.rd (.lnkPortCtrlEnable n) = 1 → s.rd .lnkIdentLock = 1 → s.rd (.lnkPortStatusState n) = 0 → s.rd (.lnkPortCtrlMode n) = 0 → n ∉ s.referee.cut →
    ∃ t, exec (.portRetryTimer n) s = .next t ∧ t.rd (.lnkPortStatusState n) = 1) ∧
  (∀ cmd q step, (cmd = Instr.portDown n step ∧ q = s ∧ s.portUp n = true) ∨
      (cmd = .retrainTimeout n ∧ step = (s.port n).step ∧ ∃ t0, (s.port n).retrain = some t0 ∧ q = s.setDtime (max s.dtime (t0 + 250000000))) →
    ∃ (u t : State), exec cmd s = .next t ∧
      t = (((s.port n).sent.map (fun x => x.2) ++ ((s.port n).partly.map (fun x => x.2)).toList ++ (s.port n).txq).reverse.foldl State.rerouteFirst u) ∧
      u.port n = Port.reset ∧ u.rd (.lnkPortStatusState n) = 0 ∧ u.rd (.lnkPortStatusLanes n) = 0 ∧ u.dtime = q.dtime ∧
      ∃ e ∈ u.events, e.code = Code.lnkPortDown.val ∧ e.payload = payload [(16, 1, n), (17, 1, step)]) ∧
  (∀ flit errs, s.portUp n = true →
    (flitDecode flit errs = none → ∃ t, exec (.flitReceive n flit errs) s = .next t ∧ (t.port n).owesNak = true ∧ (t.port n).discarding = true ∧
      t.inbox = s.inbox) ∧
    (∀ l fixed, flitDecode flit errs = some (l, fixed) → flitCrcOk l = false → ∃ t, exec (.flitReceive n flit errs) s = .next t ∧
      (t.port n).owesNak = true ∧ (t.port n).discarding = true ∧ t.inbox = s.inbox) ∧
    (∀ l fixed, flitDecode flit errs = some (l, fixed) → flitCrcOk l = true → flitKind l = 0 → flitSeq l = ((s.port n).ack + 1) % 4096 →
      ∃ (u t : State), exec (.flitReceive n flit errs) s = .next t ∧ (t.port n).ack = flitSeq l ∧ (t.port n).owesNak = false ∧ u.inbox = s.inbox ∧
        t = u.msgsIn n false (parseSlots (bodySlots l) (s.port n).rx []).1)) ∧
  (s.portUp n = true → (s.port n).sinceAck > 0 → ∃ t, exec (.ackTimer n) s = .next t ∧ (t.port n).sinceAck = 0 ∧ t.dtime ≥ (s.port n).lastAck + 500 ∧
    ∃ lanes, t.out = s.out ++ [.flit n lanes])

/-- A message for another chip that has a route leaves the inbox for the queue of a port of that route, with one more
hop. A message for this chip leaves the inbox and takes effect: CREDIT adds the slots to the credits of its port; a
read, a write, a masked write or an object read that no check refuses is answered with its data (memory unchanged) or
stored and acknowledged, and a refused one is answered with ERR_RSP of its code; RD_RSP data reach the request, which is
over when all have come; WR_ACK and ERR_RSP end their requests; SIGNAL acts on the object with its source chip; RED_PART
and RED_RESULT advance the running reduction that they name, and fail it with LNK_RED_FAIL where the members disagree.
-/
def Obligations.MessagesAreTakenAnsweredAndForwarded : Prop :=
  ∀ (s : State) (i n : Nat) (m : Msg),
  let q := s.freeMsg i
  (∀ x ∈ [(Instr.msgRdReq i, 0x10), (.msgWr i, 0x11), (.msgWrMasked i, 0x12), (.msgRdRsp i, 0x20), (.msgWrAck i, 0x21), (.msgErrRsp i, 0x22),
      (.msgSignal i, 0x30)], s.msgAt i x.2 = some (n, m) → m.dst ≠ s.chipId → s.canRoute { m with hops := m.hops + 1, via := some n } = true →
    ∃ t, exec x.1 s = .next t ∧ t.inbox = s.inbox.eraseIdx i ∧
      ∃ k ∈ s.routePorts m.dst, { m with hops := m.hops + 1, via := some n, unit := unitLink } ∈ (t.port k).txq) ∧
  (s.msgAt i 1 = some (n, m) → ∃ t, exec (.msgCredit i) s = .next t ∧ t.inbox = s.inbox.eraseIdx i ∧
    (t.port n).credits = (s.port n).credits.mapIdx (fun v k => min (k + bitsAt m.arg (12 * v) 12) (fullCredits.getD v 0))) ∧
  (m.dst = s.chipId →
    (s.msgAt i 0x10 = some (n, m) → let u := min 16 (bitsAt m.arg 56 8)
      (∀ c, (q.linkCheck m.cpa (32 * u) false).1.code = some c → ∃ (v t : State), exec (.msgRdReq i) s = .next t ∧
        t = v.answer (m.errRsp c.val) ∧ t.inbox = s.inbox.eraseIdx i ∧ t.mem = s.mem) ∧
      ((q.linkCheck m.cpa (32 * u) false).1.code = none → anyMarked s.bad m.cpa (32 * u) = false → q.poisoned m.cpa (32 * u) = false →
        ∃ (v t : State), exec (.msgRdReq i) s = .next t ∧ t = v.answer (m.reply 0x20 u 0 (natOfBytes (q.bytes m.cpa (32 * u)))) ∧
          t.inbox = s.inbox.eraseIdx i ∧ t.mem = s.mem)) ∧
    (∀ x ∈ [(Instr.msgWr i, 0x11, 32 * m.len, [(m.cpa, bytesOfNat (32 * m.len) m.data)]), (.msgWrMasked i, 0x12, 32, (List.range 32).filterMap (fun j =>
          if bitAt m.data j then some (m.cpa + j, bytesOfNat 1 (bytesAt m.data (32 + j) 1)) else none))],
      s.msgAt i x.2.1 = some (n, m) →
      (∀ c, (q.linkCheck m.cpa x.2.2.1 true).1.code = some c → ∃ (v t : State), exec x.1 s = .next t ∧ t = v.answer (m.errRsp c.val) ∧
        t.inbox = s.inbox.eraseIdx i ∧ t.mem = s.mem) ∧
      ((q.linkCheck m.cpa x.2.2.1 true).1.code = none → ∃ (v t : State), exec x.1 s = .next t ∧ t = v.answer (m.reply 0x21 0 1 0) ∧
        t.mem = (x.2.2.2.foldl (fun s y => s.store y.1 y.2) q).mem)) ∧
    (s.msgAt i 0x13 = some (n, m) → s.heldHere m = none →
      (∀ c r, q.unitRefusal m = some (c, r) → ∃ (v t : State), exec (.msgObjRdReq i) s = .next t ∧ t = v.answer (m.errRsp c.val) ∧ t.mem = s.mem) ∧
      (∀ x, q.unitRefusal m = none → q.object m.object = some x → q.unitMode m.object m.objectUnit x ≠ 3 → ∃ (v t : State),
        exec (.msgObjRdReq i) s = .next t ∧ v.mem = s.mem ∧ t = (List.range 8).foldl (fun s k => s.answer (m.reply 0x20 16 (512 * k)
          (natOfBytes (objectBytes x (4096 * m.objectUnit + 512 * k) 512)))) v)) ∧
    (∀ r, s.reqOf m = some r →
      (s.msgAt i 0x20 = some (n, m) → r.type = 0x10 ∨ r.type = 0x13 → ∃ t, exec (.msgRdRsp i) s = .next t ∧ t.inbox = s.inbox.eraseIdx i ∧
        (r.got + (min (r.bytes - m.arg) (32 * m.len)) ≥ r.bytes → ∀ z ∈ t.reqs, z.tag ≠ r.tag)) ∧
      (s.msgAt i 0x21 = some (n, m) → r.type = 0x11 ∨ r.type = 0x12 → bitsAt m.arg 0 16 ≤ 1 → ∃ t, exec (.msgWrAck i) s = .next t ∧
        t.inbox = s.inbox.eraseIdx i ∧ t = q.ackWrites r (bitsAt m.arg 0 16)) ∧
      (s.msgAt i 0x22 = some (n, m) → ∃ t, exec (.msgErrRsp i) s = .next t ∧ t.inbox = s.inbox.eraseIdx i ∧ ∀ z ∈ t.reqs, z.tag ≠ r.tag)) ∧
    (s.msgAt i 0x30 = some (n, m) → ∃ t, exec (.msgSignal i) s = .next t ∧ t.inbox = s.inbox.eraseIdx i ∧ t = q.applySignal
      { src := unitPort n 63, part := none, chip := m.src, object := bitsAt m.arg 0 16, broadcast := decide (bitsAt m.arg 16 8 = 2), index := 0 }) ∧
    (∀ x ∈ [(fun d => Instr.msgRedPart i d, 0x40, m.redLevel), (fun d => Instr.msgRedResult i d, 0x41, levelResult)],
      s.inbox[i]? = some (n, m) → m.type = x.2.1 →
      ∀ r, s.reds.find? (fun r => decide (r.group = m.redGroup ∧ r.rseq = m.redSeq ∧ r.cls = m.redClass)) = some r → r.outcome = none →
        (∃ t, exec (x.1 false) s = .next t ∧ t = q.redReceive r x.2.2 m ∧ t.inbox = s.inbox.eraseIdx i) ∧
        (∃ t, exec (x.1 true) s = .next t ∧ t.inbox = s.inbox.eraseIdx i ∧ ∃ e ∈ t.events, e.code = Code.lnkRedFail.val ∧ e.payload =
          payload [(16, 4, r.group), (20, 4, r.rseq), (24, 1, r.cls), (25, 1, 2)])))

/-- HELLO in step 4 answers with its own: a good peer becomes the port's peer with its automatic route and begins step
5, an identifier in conflict raises LNK_ID_CONFLICT and wrong cabling LNK_CABLING, and the port is DOWN. With
LNK_ROLE.ENABLE: a heartbeat is noted with its time, a worker finds its manager by its parent's heartbeat, and a manager
that meets one of its pod with a higher VIEW_ID becomes a worker; JOIN adds the sender to a manager's view with
LNK_PEER_JOINED, a refusal raises LNK_JOIN_REFUSED; a whole newer pod view is adopted by a worker; the heartbeat and
time timers send to the parent where a route leads there; a lost member leaves the manager's view with LNK_PEER_LOST, a
lost manager is no longer PRESENT. An offset from TIME or TIME_ADJ joins the last 16. A request without a response fails
with LNK_TIMEOUT. -/
def Obligations.MembersJoinWatchAndKeepTime : Prop :=
  ∀ (s : State),
  (∀ n chip pod octet pos peer, n < 18 → s.rd (.lnkPortStatusState n) = 4 → s.rd (.lnkPortCtrlMode n) = 0 →
    let k := n / 2 + 1
    let bad := n < 14 ∧ (pod ≠ s.rd .lnkIdentPodId ∨ octet ≠ s.rd .lnkIdentOctet ∨ pos ≠ (s.rd .lnkIdentPosition + k) % 8 ∨ peer ≠ 2 * (7 - k) + n % 2)
    ∃ t, exec (.msgHello n chip pod octet pos peer) s = .next t ∧ t.out = s.out ++ [.hello n (s.helloMsg n)] ∧
      (chip = s.chipId ∨ chip ≥ 0xFFFF → t.rd (.lnkPortStatusState n) = 0 ∧ ∃ e ∈ t.events, e.code = Code.lnkIdConflict.val) ∧
      (chip ≠ s.chipId → chip < 0xFFFF → bad → t.rd (.lnkPortStatusState n) = 0 ∧ ∃ e ∈ t.events, e.code = Code.lnkCabling.val) ∧
      (chip ≠ s.chipId → chip < 0xFFFF → ¬ bad → t.rd (.lnkPortStatusState n) = 5 ∧ (t.port n).helloed = true ∧ t.rd (.lnkRouteAuto chip) = 1 ∧
        t.rd (.lnkRouteValid chip) = 1)) ∧
  (∀ tag r, s.reqs.find? (fun r => decide (r.tag = tag)) = some r → ∃ t, exec (.lnkRequestTimeout tag) s = .next t ∧
    (∀ z ∈ t.reqs, z.tag ≠ r.tag) ∧ ∃ e ∈ t.events, e.code = Code.lnkTimeout.val ∧ e.payload = payload [(16, 2, r.dst), (18, 1, r.type), (20, 8, r.addr)]) ∧
  (∀ may off, s.barShut false = false → may = true → s.rd .lnkRoleTimeSrc = 1 → ∃ t, exec (.timeAdjWrite may off) s = .next t ∧
    t.fellows.offsets = (signed 64 off :: s.fellows.offsets).take 16) ∧
  (∀ p, s.timeParent = some p → s.canRoute (s.message 0x54 1 p 0 0 s.dtime) = true → ∃ t, exec .timeSyncTimer s = .next t ∧
    ∃ k ∈ s.routePorts p, { s.message 0x54 1 p 0 0 s.dtime with unit := unitLink } ∈ (t.port k).txq) ∧
  (∀ i res n m, s.msgAt i 0x54 = some (n, m) → m.dst = s.chipId →
    (bitsAt m.arg 0 8 = 0 → ∃ t, exec (.msgTime i res) s = .next t ∧ t.inbox = s.inbox.eraseIdx i ∧ t = (s.freeMsg i).sendMgt (m.reply 0x54 1 1
      (bitsAt m.data 0 64 + s.dtime % 2 ^ 64 * 2 ^ 64 + (s.dtime + res) % 2 ^ 64 * 2 ^ 128 + bitsAt m.data 192 64 * 2 ^ 192))) ∧
    (bitsAt m.arg 0 8 ≠ 0 → s.timeParent = some m.src → ∃ t, exec (.msgTime i res) s = .next t ∧ t.fellows.offsets =
      (((((bitsAt m.data 64 64 : Nat) : Int) - (bitsAt m.data 0 64 : Nat)) - ((s.dtime : Int) - (bitsAt m.data 128 64 : Nat)) - (bitsAt m.data 192 64 : Nat)) / 2 ::
        s.fellows.offsets).take 16)) ∧
  (s.rd .lnkRoleEnable = 1 →
    (∀ p, s.rd .lnkRoleParent = p → p ≠ noChip → s.chipRole = roleWorker → s.chipId ∈ s.fellows.members →
      let m := s.message 0x51 0 p 0 (s.rd .lnkViewViewId + s.chipRole * 2 ^ 32) 0
      s.canRoute m = true → ∃ t, exec .heartbeatTimer s = .next t ∧ ∃ k ∈ s.routePorts p, { m with unit := unitLink } ∈ (t.port k).txq) ∧
    (∀ i n m, s.msgAt i 0x51 = some (n, m) → m.dst = s.chipId →
      (s.chipRole = roleManager → bitsAt m.arg 32 8 = roleWorker → ∃ t, exec (.msgHeartbeat i) s = .next t ∧ t.inbox = s.inbox.eraseIdx i ∧
        t.lastHeard m.src = some s.dtime) ∧
      (s.chipRole = roleManager → bitsAt m.arg 32 8 = roleManager → s.rd .lnkViewViewId < bitsAt m.arg 0 32 → ∃ t, exec (.msgHeartbeat i) s = .next t ∧
        t.chipRole = roleWorker) ∧
      (s.chipRole = roleWorker → bitsAt m.arg 32 8 = roleManager → s.rd .lnkViewManager = noChip → m.src = s.rd .lnkRoleParent →
        ∃ t, exec (.msgHeartbeat i) s = .next t ∧ t.rd .lnkViewManager = m.src ∧ t.rd .lnkViewManagerPresent = 1)) ∧
    (∀ i n m, s.msgAt i 0x52 = some (n, m) → m.dst = s.chipId →
      (bitsAt m.arg 16 8 = 2 → ∃ t, exec (.msgJoin i) s = .next t ∧ ∃ e ∈ t.events, e.code = Code.lnkJoinRefused.val) ∧
      (bitsAt m.arg 16 8 = 1 → s.chipRole = roleManager → bitsAt m.arg 0 16 = s.rd .lnkIdentPodId → (s.freeMsg i).routePorts m.src ≠ [] →
        s.fellows.members.length < 64 → s.fellows.members.contains m.src = false → ∃ t, exec (.msgJoin i) s = .next t ∧
        t.fellows.members = insertId m.src s.fellows.members ∧ ∃ e ∈ t.events, e.code = Code.lnkPeerJoined.val)) ∧
    (∀ i n m group c, s.msgAt i 0x53 = some (n, m) → m.dst = s.chipId → bitsAt m.arg 32 8 = 0 → s.chipRole = roleWorker → s.fellows.viewRx = [] →
      bitsAt m.arg 40 24 ≤ 16 * m.len → s.rd .lnkViewViewId < bitsAt m.arg 0 32 → ∃ t, exec (.msgView i group c) s = .next t ∧
        t.fellows.members = (List.range (bitsAt m.arg 40 24)).map (fun j => bitsAt m.data (16 * j) 16)) ∧
    (∀ chip t0, s.lastHeard chip = some t0 →
      (s.chipRole = roleManager → chip ∈ s.fellows.members → ∃ t, exec (.peerLostTimeout chip) s = .next t ∧
        t.fellows.members = s.fellows.members.filter (fun m => !(decide (m = chip))) ∧ ∃ e ∈ t.events, e.code = Code.lnkPeerLost.val) ∧
      (s.chipRole = roleWorker → s.rd .lnkViewManager = chip → s.rd .lnkRoleStandby ≠ s.chipId → ∃ t, exec (.peerLostTimeout chip) s = .next t ∧
        t.rd .lnkViewManagerPresent = 0)))

/-- On an UP Ethernet port a frame with a bad check sequence or size is dropped with memory unchanged; one for which
buffers are posted is delivered into them; one for which there are too few pauses its class. A transmitted frame whose
reads are good goes out, with its checksums where asked, and its descriptors are written back. A TAIL within its ring is
taken; one beyond raises XFR_RING_OVERRUN and leaves TAIL, for the Ethernet and the reduction rings. Writing the group
register sets GROUP_ID; RESTART clears STOPPED; an idle ring takes its next entry; an entry whose wait is over starts
the class PROG reduction of its source; an entry that has failed, or whose reduction has, frees the ring and stops it; a
result is delivered and the ring freed. A reduction without a result in its time fails with LNK_RED_FAIL reason 3. -/
def Obligations.EthernetPortsAndReductionRingsRun : Prop :=
  ∀ (s : State),
  (∀ n frame ok, s.ethUp n = true →
    let h := s.rssHash n frame
    let r := 8 + s.rssRing n h
    let x := s.rxBuffers n r 16384 (s.rd (.lnkEthRingBHead n r)) frame.length
    (ok = false ∨ frame.length + 4 < 64 ∨ frame.length + 4 > 9216 → ∃ t, exec (.ethFrameReceive n frame ok) s = .next t ∧ t.mem = s.mem ∧ t.out = s.out) ∧
    (ok = true → 60 ≤ frame.length → frame.length ≤ 9212 → isPfc frame = false →
      (x.2 = .short → ∃ t, exec (.ethFrameReceive n frame ok) s = .next t ∧ t.mem = s.mem ∧ pauseKey r (fClass frame) ∈ (t.port n).paused) ∧
      (∀ l, x.2 = .found l → ∃ (u t : State), exec (.ethFrameReceive n frame ok) s = .next t ∧ t.mem = u.mem ∧ t.regs = u.regs ∧
        u = x.1.rxDeliver n r h (match checksumGood frame with | some true => 2 | some false => 4 | none => 0) l frame))) ∧
  (∀ n r ds, s.ethUp n = true → r < 8 → let x := s.txDescs n r 16384 (s.rd (.lnkEthRingBHead n r))
    x.2 = some ds → Sparse.get 0 x.1.pfc (pfcKey n (bitsAt (ds.headD 0) 83 3)) ≤ x.1.dtime → ∃ (v t : State), exec (.ethTransmitDone n r) s = .next t ∧
      t = ds.foldl (fun (s : State) d => s.ethBack n r (if bitAt d 82 then s.dtime else bytesAt d 0 8) (bytesAt d 8 2) (128 + flag (bitAt d 80)) 0) v ∧
      (∀ f, (x.1.txRead n ds).2 = some f → let g := if bitAt (ds.headD 0) 81 then insertChecksums f else f
        64 ≤ g.length + 4 → g.length + 4 ≤ 9216 → v.out = (x.1.txRead n ds).1.out ++ [.frame n (natOfBytes g) g.length])) ∧
  (s.barShut true = false →
    (∀ n r tail, n < 18 → r < 16 → let full := tailBad (s.rd (.lnkEthRingBTail n r)) (tail % 2 ^ 32) (s.rd (.lnkEthRingBHead n r)) (s.rd (.lnkEthRingAL n r))
      (full = false → ∃ t, exec (.ethRingTail true n r tail) s = .next t ∧ t.rd (.lnkEthRingBTail n r) = tail % 2 ^ 32) ∧
      (full = true → ∃ t, exec (.ethRingTail true n r tail) s = .next t ∧ t.regs = s.regs ∧ ∃ e ∈ t.events, e.code = Code.xfrRingOverrun.val)) ∧
    (∀ p tail, p < 16 → let b := redRingBase p
      let full := tailBad (s.rd (.dmaChDoorTail b)) (tail % 2 ^ 32) (s.rd (.dmaChDoorHead b)) (s.rd (.dmaChRingL b))
      (full = false → ∃ t, exec (.redDoorbell true p tail) s = .next t ∧ t.rd (.dmaChDoorTail b) = tail % 2 ^ 32) ∧
      (full = true → ∃ t, exec (.redDoorbell true p tail) s = .next t ∧ t.regs = s.regs ∧ ∃ e ∈ t.events, e.code = Code.xfrRingOverrun.val)) ∧
    (∀ p v, p < 16 → ∃ t, exec (.redGroupWrite true p v) s = .next t ∧ t.rd (.redPGroupGroupId p) = bitsAt v 0 32) ∧
    (∀ p, p < 16 → ∃ t, exec (.redRestart true p) s = .next t ∧ t.rd (.redPGroupStopped p) = 0)) ∧
  (∀ p, p < 16 →
    (let b := redRingBase p;
      (s.redRing p).entry = none → s.rd (.redPGroupStopped p) = 0 → s.rd (.dmaChDoorHead b) ≠ s.rd (.dmaChDoorTail b) →
      let u := s.redTake p;
      ((u.redRing p).entry = some (s.memNat (s.ringEntry b (s.rd (.dmaChDoorHead b))) 64) ∧ (u.redRing p).index = s.rd (.dmaChDoorHead b)) ∧
      (u.headWait (ringKey p) = .waiting → exec (.redEntry p) s = .next u)) ∧
    (∀ w, (s.redRing p).entry = some w →
      (s.headWait (ringKey p) = .none → (s.redRing p).started = false → (s.redRing p).failed = none →
        let u := s.setHeadWait (ringKey p) .none
        ((u.checkRange (.part p) (reSrc w) 64 false).1.code = none → (u.checkRange (.part p) (reDst w) 64 false).1.code = none → u.redValid p w = true →
          u.redSourceFault p (reSrc w) = none → ∃ (v t : State), exec (.redEntry p) s = .next t ∧ (v.redRing p).started = true ∧
          t = v.startRed p 0 (if reCombine w = 0 then reCount w else 0) (v.redWords w))) ∧
      (∀ code, (s.redRing p).failed = some code → code ≠ 0 → ∃ t, exec (.redEntryDone p) s = .next t ∧ t.redRing p = RedRing.reset ∧
        t.rd (.redPGroupStopped p) = 1) ∧
      ((s.redRing p).failed = none → (s.redRing p).started = true → ∀ x, s.red p 0 = some x →
        (∀ k, x.outcome = some (k + 1) → ∃ t, exec (.redEntryDone p) s = .next t ∧ t.redRing p = RedRing.reset ∧ t.rd (.redPGroupStopped p) = 1) ∧
        (x.outcome = some 0 → let y := (s.dropRed p 0).redDeliver p w x
          ∃ t, exec (.redEntryDone p) s = .next t ∧ t = y.1.redFinish p w (s.redRing p).index y.2 ∧ t.redRing p = RedRing.reset)))) ∧
  (∀ p cls r, s.red p cls = some r → r.outcome = none → ∃ t, exec (.reductionTimeout p cls) s = .next t ∧
    t.dtime ≥ r.start + 1000000 * s.rd .redCfgTimeoutMs ∧ (∃ z ∈ t.reds, z.part = p ∧ z.cls = cls ∧ z.outcome = some 3) ∧
    ∃ e ∈ t.events, e.code = Code.lnkRedFail.val ∧ e.payload = payload [(16, 4, r.group), (20, 4, r.rseq), (24, 1, r.cls), (25, 1, 3)])

/-- Power good starts DTIME at 0 and samples PERST_N. A phase that ends in its time without a finding (0, 2, 3, 5, 6) is
followed by the next; phase 7 ends with READY and BOOTING 0; a late phase, a phase timeout, a watchdog expiry, a
double-bit SRAM error, a thermal trip at its trip point, a rail fault, RAILS_OFF and an uncorrectable control state lead
to the dugout: DUGOUT 1, READY and BOOTING 0, the cause of Table 14-4 (1 for a self-test failure) and its event, and
nothing left in tiers 1 and 2; a single-bit error raises MGT_REF_CORRECTED only. FULL_RESET with the key, and PERST_N
with PERST_FULL, begin the boot again in phase 0 with MGT_RESET and the source. PERST_N low without power is only noted;
its rise ends the hold, and the link trains once phase 0 is over. The end of a boot-area write leaves the staged image,
or none. -/
def Obligations.BootsDugoutsAndResetsComplete : Prop :=
  ∀ (s : State),
  let inDugout (c : Nat) (t : State) : Prop := t.rd .refReadyDugout = 1 ∧ t.rd .refReadyReady = 0 ∧ t.rd .refReadyBooting = 0 ∧ t.rd .refDugoutCause = c ∧ t.mem = [] ∧
    ∃ e ∈ t.events, e.code = if c = 1 then Code.mgtSelftest.val else Code.mgtDugout.val
  let rebooted (c : Nat) (t : State) : Prop := t.rd .refReadyBooting = 1 ∧ t.rd .refReadyReady = 0 ∧ t.rd .refReadyPhase = 0 ∧ t.mem = [] ∧
    ∃ e ∈ t.events, e.code = Code.mgtReset.val ∧ e.payload = payload [(16, 1, c)]
  (∀ slot low, s.referee.entry = true → s.referee.power = false → ∃ t, exec (.refereePowerGood slot low) s = .next t ∧ t.dtime = 0 ∧
    t.referee.power = true ∧ t.referee.perst = low ∧ t.referee.slotId = slot % 32) ∧
  (s.booting = true → s.rd .refReadyDugout = 0 → let n := s.rd .refReadyPhase
    (s.dtime - s.referee.phaseAt ≤ phaseLimit n * 1000000 →
      (n ∈ [0, 2, 3, 5, 6] → ∀ plan, ∃ t, exec (.bootPhaseDone [] plan) s = .next t ∧ t.rd .refReadyPhase = n + 1 ∧ t.referee.phaseAt = s.dtime) ∧
      (n = 7 → ∀ plan, ∃ t, exec (.bootPhaseDone [] plan) s = .next t ∧ t.rd .refReadyReady = 1 ∧ t.rd .refReadyBooting = 0)) ∧
    (s.dtime - s.referee.phaseAt > phaseLimit n * 1000000 → ∀ l plan, ∃ t, exec (.bootPhaseDone l plan) s = .next t ∧ inDugout 1 t) ∧
    (∃ t, exec .bootPhaseTimeout s = .next t ∧ inDugout 1 t)) ∧
  (s.referee.power = true → s.rd .refReadyDugout = 0 →
    (s.referee.writing = false → s.referee.resetDue = none → ∃ t, exec .watchdogExpiry s = .next t ∧ inDugout 2 t) ∧
    (∀ a, (∃ t, exec (.refereeSramError true a) s = .next t ∧ inDugout 3 t) ∧
      (∃ t, exec (.refereeSramError false a) s = .next t ∧ ∃ e ∈ t.events, e.code = Code.mgtRefCorrected.val ∧ e.payload = payload [(16, 4, a)])) ∧
    (∀ k x r, throttleOf k = some x → r ≥ 16 * x.2 → ∃ t, exec (.thermalTrip k r) s = .next t ∧ inDugout 4 t) ∧
    (∀ u, ∃ t, exec (.railFault u) s = .next t ∧ inDugout 5 t) ∧ (∃ t, exec (.refRailsOff 0xB9) s = .next t ∧ inDugout 6 t) ∧
    (∀ u, ∃ t, exec (.uncorrectableControlState u) s = .next t ∧ inDugout 7 t)) ∧
  (s.referee.power = true → s.referee.writing = false →
    (∃ t, exec (.refFullReset 0xB9) s = .next t ∧ rebooted 0 t) ∧
    (∀ l, s.referee.perst = false → s.referee.released = true → s.rd .refCtrlPerstFull = 1 → ∃ t, exec (.perstAssert l) s = .next t ∧ rebooted 3 t)) ∧
  (∀ l, s.referee.perst = false → s.referee.power = false → ∃ t, exec (.perstAssert l) s = .next t ∧ t.referee.perst = true ∧ t.regs = s.regs) ∧
  (s.referee.perst = true → ∃ t, exec .perstRelease s = .next t ∧ t.referee.perst = false ∧
    t.referee.linkUp = (s.referee.power && !(s.rdBit .refReadyBooting && decide (s.rd .refReadyPhase = 0)))) ∧
  (∀ ok, s.referee.writing = true → s.referee.resetDue = none → s.referee.endPath = none → ∃ t, exec (.bootAreaWriteDone ok) s = .next t ∧
    t.referee.writing = false ∧ t.referee.image = if ok then s.referee.staged else [])

/-- On a usable channel whose block answers: the sender writes a message register while the channel is idle, the
receiver while it is POSTED, and no other register changes; GO posts an idle channel, clears the acknowledge and raises
the bit of MBX_RX_PEND of the receiver (not for the referee, whose registers read 0); GO on a posted channel raises
MGT_MBX_BUSY; the acknowledge of a posted channel clears GO, gives CODE and VALID, drops the receiver bit c and raises
the sender bit 32 + c. An unknown request on channel 0 is answered at once with MGT_REQ_INVALID. An access by another
identity, or to an unusable channel, raises MGT_MBX_DENIED with the channel, the identity and the direction, a write
leaves every register as it was, and a read returns zero. -/
def Obligations.MailboxesCarryMessages : Prop :=
  ∀ (s : State) (id c : Nat), c < 32 → (c ≠ 0 → s.barShut false = false) →
  let denied (w : Bool) (t : State) : Prop := t.regs = s.regs ∧ ∃ e ∈ t.events, e.code = Code.mgtMbxDenied.val ∧ e.payload = payload [(16, 1, c), (17, 1, id), (18, 1, flag w)]
  let foreign : Prop := s.mbxUsable c = false ∨ (id ≠ s.mbxSender c ∧ id ≠ s.mbxReceiver c)
  (s.mbxUsable c = true →
    (∀ i v, i < 16 → (id = s.mbxSender c ∧ s.isPosted c = false ∨ id = s.mbxReceiver c ∧ s.isPosted c = true) →
      ∃ t, exec (.mbxMsgWrite id c i v) s = .next t ∧ t.reg (Reg.mbxChMsg c i) = BitVec.ofNat 64 v ∧ ∀ a, a ≠ Reg.mbxChMsg c i → t.reg a = s.reg a) ∧
    (id = s.mbxSender c → s.isPosted c = false → (c = 0 → reqKnown ((s.reg (Reg.mbxChMsg 0 0)).field 0 8) = true) →
      ∃ t, exec (.mbxGo id c) s = .next t ∧ t.isPosted c = true ∧ t.rd (.mbxChAckValid c) = 0 ∧
        (2 ≤ s.mbxReceiver c → (t.reg (Reg.mbxRxPend (s.mbxReceiver c))).field c 1 = 1)) ∧
    (id = s.mbxSender c → s.isPosted c = true → ∃ t, exec (.mbxGo id c) s = .next t ∧ t.regs = s.regs ∧ ∃ e ∈ t.events, e.code = Code.mgtMbxBusy.val) ∧
    (∀ code, id = s.mbxReceiver c → s.isPosted c = true →
      ∃ t, exec (.mbxAck id c code) s = .next t ∧ t.isPosted c = false ∧ t.reg (Reg.mbxChAck c) = BitVec.ofNat 64 (code % 65536 + 65536) ∧
        (2 ≤ s.mbxReceiver c → (t.reg (Reg.mbxRxPend (s.mbxReceiver c))).field c 1 = 0) ∧
        (2 ≤ s.mbxSender c → (t.reg (Reg.mbxRxPend (s.mbxSender c))).field (32 + c) 1 = 1))) ∧
  (c = 0 → id = idPf → s.isPosted 0 = false → reqKnown ((s.reg (Reg.mbxChMsg 0 0)).field 0 8) = false →
    ∃ t, exec (.mbxGo id c) s = .next t ∧ t.isPosted 0 = false ∧ t.reg (Reg.mbxChAck 0) = BitVec.ofNat 64 (Code.mgtReqInvalid.val % 65536 + 65536)) ∧
  (foreign →
    (∀ i v, i < 16 → ∃ t, exec (.mbxMsgWrite id c i v) s = .next t ∧ denied true t) ∧ (∃ t, exec (.mbxGo id c) s = .next t ∧ denied true t) ∧
    (∀ code, ∃ t, exec (.mbxAck id c code) s = .next t ∧ denied true t) ∧
    (∃ t, exec (.mbxDeniedRead id c) s = .next t ∧ denied false t ∧ t.out = s.out ++ [Output.readReply (some 0)]))

/-- An answer on channel 0 puts REQ, SEQ and the length in MSG_0 and the data from MSG_1 on, the code with VALID in ACK,
and clears GO; over MCTP it is one message of type 0x7E. STATUS answers REF_READY, REF_DUGOUT, DTIME and REF_FW; RESET
answers before the reset begins; READ answers 120 bytes of its buffer at a multiple of 8 below the size of the buffer;
ATTEST builds the report on the nonce into buffer 3; IMAGE_BEGIN opens the session; IMAGE_DATA stages 120 bytes;
IMAGE_END of a good image starts the write of the boot area, and of another answers MGT_IMAGE_INVALID; RAILS_OFF answers
and enters the dugout for cause 6; SVN_COMMIT raises the fused count to the SVN of the running image and answers it;
PROVISION over MCTP burns a blank customer field, and a failed burn answers MGT_FUSE_FAIL. A request that the state does
not permit fails with MGT_REQ_STATE, a bad argument with MGT_REQ_INVALID, and PROVISION on channel 0 with kind 3. -/
def Obligations.RequestsAreServedAndAnswered : Prop :=
  ∀ (s : State) (path : ReqPath),
  (∀ req code len data, len ≤ 120 →
    (path = .channel0 → let t := s.reqReply path req code len data
      t.isPosted 0 = false ∧ t.reg (Reg.mbxChAck 0) = BitVec.ofNat 64 (code % 65536 + 65536) ∧
      t.reg (Reg.mbxChMsg 0 0) = BitVec.ofNat 64 (req + s.reqSeq path * 2 ^ 16 + len * 2 ^ 32) ∧
      ∀ i, i < (len + 7) / 8 → t.reg (Reg.mbxChMsg 0 (i + 1)) = BitVec.ofNat 64 (data / 2 ^ (64 * i))) ∧
    (path ≠ .channel0 → (s.reqReply path req code len data).out = s.out ++
      [Output.mctp 0x7E (req + s.reqSeq path * 2 ^ 16 + len * 2 ^ 32 + code * 2 ^ 64 + data % 256 ^ len * 2 ^ 80) (10 + len)])) ∧
  (s.reqHere path 1 = true → exec (.status path) s = .next (s.reqReply path 1 0 32 (recordNat
      [(0, 8, s.viewReady.toNat), (8, 8, (s.reg Reg.refDugout).toNat), (16, 8, s.dtime), (24, 8, (s.reg Reg.refFw).toNat)]))) ∧
  (s.reqHere path 7 = true → exec (.reset path) s = .next ((s.reqReply path 7 0 0 0).fullReset (if path = .channel0 then 1 else 2))) ∧
  (s.reqHere path 2 = true → ∀ m size, s.buffer (s.reqArg path / 2 ^ 24) = some (m, size) → let o : Nat := s.reqArg path % 2 ^ 24
    (s.reqArg path / 2 ^ 24 = 3 → s.rdBit .refReadyReady = true) →
    (o % 8 = 0 → o < size → exec (.read path) s = .next (s.reqReply path 2 0 120 (natOfBytes (Mem.readBytes m o 120)))) ∧
    (o % 8 ≠ 0 ∨ size ≤ o → exec (.read path) s = .next (s.reqFail path 2 2))) ∧
  (s.reqHere path 3 = true →
    (s.rdBit .refReadyReady = true → exec (.attest path) s = .next ((s.setReferee
      ({ s.referee with attest := recordMem 4096 (s.attestation (s.reqBody path % 256 ^ 32)) })).reqReply path 3 0 0 0)) ∧
    (s.rdBit .refReadyReady = false → exec (.attest path) s = .next (s.reqStateFail path 3))) ∧
  (s.reqHere path 4 = true → let n := s.reqArg path
    (s.permits .push = true →
      (12289 ≤ n → n ≤ 1585152 → exec (.imageBegin path) s = .next ((s.setReferee ({ s.referee with session := some n, staged := [], stagedAt := [] })).reqReply path 4 0 0 0)) ∧
      (n < 12289 ∨ 1585152 < n → exec (.imageBegin path) s = .next (s.reqFail path 4 2))) ∧
    (s.permits .push = false → exec (.imageBegin path) s = .next (s.reqStateFail path 4))) ∧
  (s.reqHere path 5 = true →
    (∀ n, s.referee.session = some n → s.permits .push = true → s.reqArg path % 8 = 0 → s.reqArg path < n → ∃ u : State, exec (.imageData path) s = .next (u.reqReply path 5 0 0 0) ∧
      u.referee.staged = Mem.writeBytes s.referee.staged (s.reqArg path) ((bytesOfNat 120 (s.reqBody path)).take (n - s.reqArg path)) ∧ u.regs = s.regs) ∧
    (s.referee.session = none → exec (.imageData path) s = .next (s.reqStateFail path 5))) ∧
  (s.reqHere path 6 = true →
    (∀ n, s.referee.session = some n → s.permits .push = true →
      (s.stagedReason n = none → ∃ t, exec (.imageEnd path) s = .next t ∧ t.referee.writing = true ∧ t.referee.endPath = some path ∧ t.referee.session = none ∧ t.regs = s.regs) ∧
      (∀ r, s.stagedReason n = some r → ∃ u : State, exec (.imageEnd path) s = .next (u.reqReply path 6 Code.mgtImageInvalid.val 0 0) ∧ u.referee.session = none ∧
        ∃ e ∈ u.events, e.code = Code.mgtImageInvalid.val ∧ e.payload = payload [(16, 1, r)])) ∧
    (s.referee.session = none → exec (.imageEnd path) s = .next (s.reqStateFail path 6))) ∧
  (s.reqHere path 8 = true →
    (s.rdBit .refReadyRecovery = false → exec (.railsOff path) s = .next ((s.reqReply path 8 0 0 0).enterDugout 6 unitReferee 0 0)) ∧
    (s.rdBit .refReadyRecovery = true → exec (.railsOff path) s = .next (s.reqStateFail path 8))) ∧
  (s.reqHere path 9 = true → s.rdBit .refReadyReady = true → let n := max (s.rd .refFwFusedSvn) (s.rd .refFwSvn)
    (∃ u : State, exec (.svnCommit path true) s = .next (u.reqReply path 9 0 8 n) ∧ (s.rd .refFwSvn ≤ 64 → u.rd .refFwFusedSvn = n)) ∧
    exec (.svnCommit path false) s = .next (s.fuseFail path 9 9)) ∧
  (s.reqHere path 10 = true → let d := s.reqBody path
    (path = .channel0 → ∀ ok, exec (.provision path ok) s = .next (s.reqFail path 10 3)) ∧
    (path ≠ .channel0 → s.rdBit .refReadyReady = true → (d % 256 = 3 ∨ d % 256 = 10 ∨ (customerField (d % 256) (d / 256 % 256)).isSome = true) →
      (s.referee.closed = false → s.fieldBlank (d % 256) (d / 256 % 256) = true →
        exec (.provision path true) s = .next ((s.burnField (d % 256) (d / 256 % 256) (d / 2 ^ 64)).reqReply path 10 0 0 0) ∧
        exec (.provision path false) s = .next (s.fuseFail path 10 (d % 256))) ∧
      (s.referee.closed = true ∨ s.fieldBlank (d % 256) (d / 256 % 256) = false → ∀ ok, exec (.provision path ok) s = .next (s.reqStateFail path 10))))

/-- While the referee has power and ROM recovery is not entered, each PLDM command sends one MCTP message of type 1 with
its completion code and data: the terminus ID is read and set; the two types, their versions and their commands are
reported; the event receiver is set; sensors 1 to 10 give their reading (none while their die is off in the dugout),
sensor 11 its state; effecter 12 sets and gives the module power cap, whose range is 1,500 to 3,500 W; the repository
has 12 records. A command outside the set is answered as not supported. An SPDM request is answered on its path, one for
mutual authentication with ERROR, UnsupportedRequest. An event message that is acknowledged or has been sent again three
times is dropped, and otherwise it is sent again. The numbers of commands, completion codes and layouts beyond the
tables of the spec are the choice of the model, PRESUMED (log entry 92). -/
def Obligations.PlatformManagementIsAnswered : Prop :=
  ∀ (s : State) (inst : Nat), s.referee.power = true → s.rdBit .refReadyRecovery = false →
  let told (c : Instr) (u : State) (type cmd cc : Nat) (data : List Nat) : Prop :=
    let bs := ([inst % 32, type, cmd, cc] ++ data).map (BitVec.ofNat 8)
    ∃ t, exec c s = .next t ∧ t.out = s.out ++ [Output.mctp 1 (natOfBytes bs) bs.length] ∧ t.regs = u.regs ∧ t.referee = u.referee ∧ t.mem = s.mem ∧ t.events = s.events
  told (.getTid inst) s 0 0x02 0 [s.referee.tid] ∧
  (∀ tid, (tid ≠ 0 → tid < 255 → told (.setTid inst tid) (s.setReferee ({ s.referee with tid := tid })) 0 0x01 0 []) ∧
    (tid = 0 ∨ 255 ≤ tid → told (.setTid inst tid) s 0 0x01 0x02 [])) ∧
  (∀ type, (type = 0 ∨ type = 2 →
      told (.getPldmVersion inst type) s 0 0x03 0 (leBytes 4 0 ++ [0x05] ++ leBytes 4 (pldmVersion type) ++
        leBytes 4 (crc32 ((leBytes 4 (pldmVersion type)).map (BitVec.ofNat 8))).toNat) ∧
      told (.getPldmCommands inst type) s 0 0x05 0 (leBytes 32 ((pldmCommands type).foldl (fun n c => n + 2 ^ c) 0)) ∧
      ∀ cmd, (pldmCommands type).contains cmd = false → told (.pldmUnsupported inst type cmd) s type cmd 0x05 []) ∧
    (type ≠ 0 → type ≠ 2 → told (.getPldmVersion inst type) s 0 0x03 0x83 [] ∧ told (.getPldmCommands inst type) s 0 0x05 0x83 [] ∧
      ∀ cmd, told (.pldmUnsupported inst type cmd) s type cmd 0x20 [])) ∧
  told (.getPldmTypes inst) s 0 0x04 0 (leBytes 8 0x05) ∧
  (∀ addr, told (.setEventReceiver inst 1 addr) (s.setReferee ({ s.referee with receiver := some addr })) 2 0x04 0 [] ∧
    told (.setEventReceiver inst 0 addr) (s.setReferee ({ s.referee with receiver := none })) 2 0x04 0 [] ∧ ∀ m, m > 1 → told (.setEventReceiver inst m addr) s 2 0x04 0x81 []) ∧
  (∀ n, (1 ≤ n → n ≤ 10 → ∃ now was, told (.getSensorReading inst n) s 2 0x11 0 ([(s.sensorValue n).1, if s.sensorOff n then 2 else 0,
      if s.referee.receiver.isSome then 1 else 0, now, was, now] ++ leBytes (s.sensorValue n).2.1 (if s.sensorOff n then 0 else (s.sensorValue n).2.2))) ∧
    (n = 0 ∨ 10 < n → told (.getSensorReading inst n) s 2 0x11 0x80 []) ∧ (n ≠ 11 → told (.getStateSensorReadings inst n) s 2 0x21 0x80 [])) ∧
  told (.getStateSensorReadings inst 11) s 2 0x21 0 [1, 0, s.stateSensor, s.stateSensor, s.stateSensor] ∧
  (∀ v, (s.rdBit .refReadyDugout = false → 1500 ≤ v → v ≤ 3500 → told (.setNumericEffecterValue inst 12 v) (s.wr .pwrCapModuleCap v) 2 0x31 0 []) ∧
    (s.rdBit .refReadyDugout = false → v < 1500 ∨ 3500 < v → told (.setNumericEffecterValue inst 12 v) s 2 0x31 0x02 []) ∧
    (s.rdBit .refReadyDugout = true → told (.setNumericEffecterValue inst 12 v) s 2 0x31 0x04 []) ∧
    ∀ n, n ≠ 12 → told (.setNumericEffecterValue inst n v) s 2 0x31 0x80 [] ∧ told (.getNumericEffecterValue inst n) s 2 0x32 0x80 []) ∧
  told (.getNumericEffecterValue inst 12) s 2 0x32 0 ([2, 1] ++ leBytes 2 (s.rd .pwrCapModuleCap) ++ leBytes 2 (s.rd .pwrCapModuleCap)) ∧
  (∃ data, told (.getPdrRepositoryInfo inst) s 2 0x50 0 ([0] ++ leBytes 26 0 ++ leBytes 4 12 ++ data)) ∧
  (∀ h, (h ≤ 12 → told (.getPdr inst h) s 2 0x51 0 (leBytes 4 (if max h 1 = 12 then 0 else max h 1 + 1) ++ leBytes 4 0 ++ [0x05] ++
      leBytes 2 (Config.pdrRecord (max h 1)).length ++ (Config.pdrRecord (max h 1)).map BitVec.toNat)) ∧ (12 < h → told (.getPdr inst h) s 2 0x51 0x82 [])) ∧
  (∀ doe req, (∃ t, exec (.spdmRequest doe req true) s = .next t ∧ let bs : List (BitVec 8) := [0x14, 0x7F, 0x07, req.getD 1 0]
      t.out = s.out ++ [if doe then Output.doe (natOfBytes bs) 4 else Output.mctp 5 (natOfBytes bs) 4]) ∧
    (∃ t, exec (.spdmRequest doe req false) s = .next t ∧ ∃ n len, t.out = s.out ++ [if doe then Output.doe n len else Output.mctp 5 n len])) ∧
  (∀ id e, s.referee.platform.find? (fun e => decide (e.id = id)) = some e → let rest := s.referee.platform.filter (fun x => !(decide (x.id = id)))
    (∃ t, exec (.pldmEventRetry id true) s = .next t ∧ t.referee.platform = rest ∧ t.out = s.out) ∧
    (∃ t, exec (.pldmEventRetry id false) s = .next t ∧
      (e.tries < 3 → t.referee.platform = rest ++ [{ e with tries := e.tries + 1 }] ∧ t.out = s.out ++ [Output.mctp 1 e.bytes e.len]) ∧
      (3 ≤ e.tries → t.referee.platform = rest ∧ t.out = s.out)))

/-- While the referee has power: a sample joins the last ten, VIN and IIN show it, INPUT_W and PACKAGE_W are the means,
and input above 3,900 W or current above 325 quarter amperes halves ACLK with POWER_PEAK if it was not halved. Every 100
microseconds a mean of the input above the cap in force, or of the package above its cap, raises the ceiling and the
POWER index of every island by one, up to 15, and otherwise the tenth step in turn below 95 percent of both lowers them
by one; a mean at or below the cap ends a division. The board-cap input sets or clears its bit. A clock step moves an
island by half a step towards its target, the frequency first on the way down and the voltage first on the way up. In
the thermal millisecond a reading within its range is held, and one outside it, or missing, marks the sensor FAILED;
THERMAL of every island is the larger of its own and the shared ceiling. -/
def Obligations.PowerAndThermalControlRuns : Prop :=
  ∀ (s : State), s.referee.power = true →
  (∀ input package vin iin, let u := (s.setPower ({ s.power with samples := (s.power.samples ++ [(input, package)]).drop (s.power.samples.length - 9) }))
    (3800 ≤ vin ∧ vin ≤ 6200 ∨ s.power.outside < 100) → ∃ t, exec (.powerSample input package vin iin) s = .next t ∧
      t.power.samples = u.power.samples ∧ t.rd .pwrStatusVin = vin % 2 ^ 16 ∧ t.rd .pwrStatusIin = iin % 2 ^ 9 ∧
      t.rd .pwrStatusInputW = u.powerMean.1 % 2 ^ 16 ∧ t.rd .pwrStatusPackageW = u.powerMean.2 % 2 ^ 16 ∧
      (input > 3900 ∨ iin > 325 → t.rd .pwrStatusDivided = 1 ∧
        (s.rd .pwrStatusDivided = 0 → ∃ e ∈ t.events, e.code = Code.powerPeak.val ∧ e.payload = payload [(16, 2, input), (18, 1, 0)]))) ∧
  (let m := s.powerMean; let cap := s.inputCap.1; let pcap := s.rd .pwrCapPackageCap; let v := s.rd .pwrStatusCeiling
    ∃ t, exec .powerControlTick s = .next t ∧ (m.1 ≤ cap → t.rd .pwrStatusDivided = 0) ∧
      (m.1 > cap ∨ m.2 > pcap → (v < 15 → t.rd .pwrStatusCeiling = v + 1 ∧ ∀ k, k < 32 → t.rd (.pwrIslandPower k) = v + 1) ∧ (v = 15 → t.rd .pwrStatusCeiling = v)) ∧
      (m.1 ≤ cap → m.2 ≤ pcap → (100 * m.1 < 95 * cap → 100 * m.2 < 95 * pcap → 9 ≤ s.power.low → 0 < v →
          t.rd .pwrStatusCeiling = v - 1 ∧ ∀ k, k < 32 → t.rd (.pwrIslandPower k) = v - 1) ∧
        (100 * m.1 ≥ 95 * cap ∨ 100 * m.2 ≥ 95 * pcap → t.rd .pwrStatusCeiling = v))) ∧
  (∀ b, ∃ t, exec (.pwrcapInput b) s = .next t ∧ t.rd .pwrStatusBoardCapActive = flag b) ∧
  (∀ k, k < 32 → ∃ t, exec (.clockPointStepDone k) s = .next t ∧ t.clock k = (s.clock k).next (s.target k) ∧
    t.rd (.pwrIslandPoint k) = (t.clock k).freq % 16 ∧ t.rd (.pwrIslandVoltage k) = s.planAt (64 + 32 * k + 2 * (t.clock k).volt) 2 % 2 ^ 16) ∧
  (∀ readings, tripOf readings = none → ∃ t, exec (.thermalTick readings) s = .next t ∧
    (∀ k, k < 32 → t.rd (.pwrIslandThermal k) = max t.power.shared (Sparse.get 0 t.power.own k) % 16) ∧
    (∀ n r, readings = [(n, r)] → n < 626 → (∀ c, r = some c → -640 ≤ c → c ≤ 2400 → t.rd (.pwrSensorTemp n) = codeOfInt 16 c) ∧
      (r = none → t.rd (.pwrSensorFailed n) = 1)))

/-- A re-plan that is asked for (REPLAN, or the interval, at whose end DTIME stands at least) starts with BUSY 1, or
waits while one runs. Its end sets FMAX of every island to the lowest point that its new voltages leave usable, shows
the reason and the next PLAN_SEQ, raises MARGIN_PLAN and clears BUSY; a request that came meanwhile starts the next one.
The margin monitor raises MARGIN_EMERGENCY for an island whose worst slack is below GUARD_PS / 2, sets its FMAX one
point slower, and asks for a re-plan with reason 4; other islands are as they were. -/
def Obligations.MarginPlansRunAndTakeEffect : Prop :=
  ∀ (s : State),
  let asks (r : Nat) (t : State) : Prop := t.rd .mgnStatusBusy = 1 ∧
    (s.rd .mgnStatusBusy = 0 → t.power.planRun = some r) ∧ (s.rd .mgnStatusBusy = 1 → t.power.planAsk = some (s.power.planAsk.getD r) ∧ t.power.planRun = s.power.planRun)
  (s.barShut false = false → ∃ t, exec .mgnReplan s = .next t ∧ asks 3 t) ∧
  (s.rd .refReadyReady = 1 → (∃ t, exec .replanInterval s = .next t ∧ asks 2 t ∧ t.dtime = max s.dtime (s.power.planAt + s.rd .mgnCtrlIntervalH * 3600000000000)) ∧
    (∀ plan reason, s.power.planRun = some reason →
      ∃ t, exec (.replanDone plan) s = .next t ∧ (∀ k, k < 32 → t.rd (.pwrIslandFmax k) = fmaxOf (s.planVoltages plan k) % 16) ∧
        t.rd .mgnStatusReason = reason % 8 ∧ (∃ seq c m, t.rd .mgnStatusPlanSeq = seq % 2 ^ 32 ∧ ∃ e ∈ t.events, e.code = Code.marginPlan.val ∧
          e.payload = payload [(16, 4, seq), (20, 1, reason), (21, 1, c), (22, 1, m)]) ∧
        (∀ r, (s.applyPlan plan reason).power.planAsk = some r → t.rd .mgnStatusBusy = 1 ∧ t.power.planRun = some r) ∧
        ((s.applyPlan plan reason).power.planAsk = none → t.rd .mgnStatusBusy = 0 ∧ t.power.planRun = none)) ∧
    (∀ l, exec (.marginMonitorTick l) s = .next (l.foldl State.emergency s)) ∧
    (∀ k x, (k < 32 → 2 * x < (s.rd .mgnThreshGuardPs : Int) → let t := s.emergency (k, x)
        t.rd (.pwrIslandFmax k) = min 15 (s.rd (.pwrIslandFmax k) + 1) ∧ t.rd .mgnStatusBusy = 1 ∧ ∃ e ∈ t.events, e.code = Code.marginEmergency.val) ∧
      (32 ≤ k ∨ (s.rd .mgnThreshGuardPs : Int) ≤ 2 * x → s.emergency (k, x) = s)))

/-- The rise of the input closes the hot swap. Its loss loses tiers 1 and 2, DTIME and power, and keeps tier 3, the
learned patterns, the benched cores and the boot image, unless a write of the boot area is cut off. A cable fault cuts
the supply of its port, resets the port to DOWN and raises LNK_PORT_DOWN with step 0. The MCTP endpoint sets and tells
its identifier and tells its versions and types; the layout of these responses is PRESUMED (log entry 93). SETDASA of
the static address 0x20 + SLOT_ID, or ENTDAA, gives a target without one its address. An ATS invalidation takes its
pages out of the cache and is completed. DOE discovery tells of its three protocols. A configuration write moves a
function between D0 and D3hot, turns its ATS on or off, controls its MSI-X and fills its MSI-X table. -/
def Obligations.ConnectorsManagementBusAndPortConfigure : Prop :=
  ∀ (s : State),
  (∃ t, exec .inputPowerUp s = .next t ∧ t.referee.entry = true ∧ t.regs = s.regs ∧ t.mem = s.mem) ∧
  (∃ t, exec .inputPowerLoss s = .next t ∧ t.mem = [] ∧ t.dtime = 0 ∧ t.referee.power = false ∧ t.referee.entry = false ∧ t.clkreqN = false ∧
    t.flash = s.flash ∧ t.learned = s.learned ∧ t.benched = s.benched ∧ t.hostMem = s.hostMem ∧
    t.referee.image = (if s.referee.writing then [] else s.referee.image)) ∧
  (∀ n, n < 18 → s.referee.cut.contains n = false → ∃ (u t : State), exec (.cablePowerFault n) s = .next t ∧ u.referee.cut = s.referee.cut ++ [n] ∧
    t = ((s.port n).sent.map (fun x => x.2) ++ ((s.port n).partly.map (fun x => x.2)).toList ++ (s.port n).txq).reverse.foldl State.rerouteFirst u ∧
    u.port n = Port.reset ∧ u.rd (.lnkPortStatusState n) = 0 ∧ ∃ e ∈ u.events, e.code = Code.lnkPortDown.val ∧ e.payload = payload [(16, 1, n), (17, 1, 0)]) ∧
  (s.referee.power = true →
    (∀ inst op eid, (op ≤ 1 → 1 ≤ eid → eid ≤ 254 → ∃ t, exec (.mctpControlMessage inst 1 op eid) s = .next t ∧ t.referee.eid = eid ∧ t.out ≠ s.out) ∧
      (1 < op ∨ eid = 0 ∨ 255 ≤ eid → exec (.mctpControlMessage inst 1 op eid) s = .next (s.mctpControl inst 1 2 [])) ∧
      exec (.mctpControlMessage inst 2 op eid) s = .next (s.mctpControl inst 2 0 [s.referee.eid, 0, 0]) ∧
      exec (.mctpControlMessage inst 5 op eid) s = .next (s.mctpControl inst 5 0 (s.mctpTypes.length :: s.mctpTypes)) ∧
      ∀ cmd, cmd ∉ [1, 2, 4, 5] → exec (.mctpControlMessage inst cmd op eid) s = .next (s.mctpControl inst cmd 5 [])) ∧
    (∀ static addr, s.referee.dynAddr = none →
      (static = 0x20 + s.referee.slotId → ∃ t, exec (.dynamicAddressAssignment true static addr) s = .next t ∧ t.referee.dynAddr = some (addr % 128)) ∧
      (∃ t, exec (.dynamicAddressAssignment false static addr) s = .next t ∧ t.referee.dynAddr = some (addr % 128))) ∧
    (∀ i, ∃ t, exec (.doeDiscovery i) s = .next t ∧ t.out = s.out ++ [Output.doe (if i < 3 then 1 + i * 2 ^ 16 + ((i + 1) % 3) * 2 ^ 24 else 0xFFFF) 4])) ∧
  (∀ tag pasid page n, ∃ t, exec (.atsInvalidation tag pasid page n) s = .next t ∧ t.out = s.out ++ [Output.atsDone tag] ∧
    ∀ x, x ∈ t.atc ↔ x ∈ s.atc ∧ ¬ (x.1 = pasid ∧ page ≤ x.2 ∧ x.2 < page + n)) ∧
  (∀ fn, fn ≤ 16 →
    (∀ hot, ∃ t, exec (.devicePowerStateWrite fn (.power hot)) s = .next t ∧ (fn ∈ t.lowPower ↔ hot = true) ∧ ∀ x, x ≠ fn → (x ∈ t.lowPower ↔ x ∈ s.lowPower)) ∧
    (∀ on, ∃ t, exec (.devicePowerStateWrite fn (.ats on)) s = .next t ∧ (fn ∈ t.atsOn ↔ on = true) ∧ ∀ x, x ≠ fn → (x ∈ t.atsOn ↔ x ∈ s.atsOn)) ∧
    (∀ on mask, ∃ u : State, exec (.devicePowerStateWrite fn (.msix on mask)) s = .next (u.sendPending fn) ∧ Sparse.get 0 u.msixCtl fn = flag on + 2 * flag mask) ∧
    (∀ v addr data masked, v < (if fn = 0 then 1024 else 64) → ∃ u : State, exec (.devicePowerStateWrite fn (.msixEntry v addr data masked)) s = .next (u.sendPending fn) ∧
      u.msixEntry fn v = ⟨addr % 2 ^ 64, data % 2 ^ 32, masked, (s.msixEntry fn v).pending⟩))

/-- A DMI operation of the physical function answers OP 2 while debug is fused off; otherwise a read of a register of
the Debug Module that the model holds gives its value, a write of one takes effect in it, and one of another register
answers as the module does. A pool write that enables a pool in a free granule is taken, one that is refused raises
DBG_INVALID, and one while buffers stand is discarded and counted. ENABLE 1 that is not refused starts every buffer of
the partition in state 1 with nothing written or lost, and clears FIRED; a refusal raises DBG_INVALID; ENABLE 0 stops
them all. FORCE fires the trigger of an enabled trace with source 4. A full buffer stops, or freezes after its trigger,
with DBG_TRACE_STOPPED. A watch slot that is not refused is armed with its identifier and limit. What DMI registers hold
is PRESUMED (log entry 90). -/
def Obligations.DebugAndTraceOperationsRun : Prop :=
  ∀ (s : State),
  (∀ value op data, s.barShut true = false →
    let addr := bitsAt value 0 7
    (bitAt (s.rd .refFwDbgOff) 1 = true → ∃ t, exec (.dmiOperation true value op data) s = .next t ∧ t.rd .trcDmiOp = 2 ∧ t.dm = s.dm) ∧
    (bitAt (s.rd .refFwDbgOff) 1 = false →
      (dmiHeld addr = true → bitAt value 7 = false → addr ≠ 0x3C → ∃ t, exec (.dmiOperation true value op data) s = .next t ∧
        t.rd .trcDmiData = s.dm.value addr % 2 ^ 32 ∧ t.dm = s.dm ∧ t.rd .trcDmiOp = 0) ∧
      (dmiHeld addr = true → bitAt value 7 = true → ∃ u : State, exec (.dmiOperation true value op data) s = .next (u.dmiWrite addr (bitsAt value 32 32) op data) ∧ u.dm = s.dm) ∧
      (dmiHeld addr = false → ∃ t, exec (.dmiOperation true value op data) s = .next t ∧ t.rd .trcDmiOp = op % 4 ∧ (bitAt value 7 = false → t.rd .trcDmiData = data % 2 ^ 32)))) ∧
  (s.barShut false = false →
    (∀ d value, d < 8 → let v := value % 2 ^ 60
      (s.poolInUse d = false → (bitAt v 59 = true → s.poolRefusal d (bitsAt v 0 48) (bitsAt v 48 11) = none) → ∃ t, exec (.tracePoolWrite d value) s = .next t ∧ t.reg (Reg.trcPool d) = BitVec.ofNat 64 v) ∧
      (∀ r, s.poolInUse d = false → bitAt v 59 = true → s.poolRefusal d (bitsAt v 0 48) (bitsAt v 48 11) = some r → ∃ t, exec (.tracePoolWrite d value) s = .next t ∧
        t.regs = s.regs ∧ ∃ e ∈ t.events, e.code = Code.dbgInvalid.val ∧ e.payload = payload [(16, 1, r)]) ∧
      (s.poolInUse d = true → ∃ t, exec (.tracePoolWrite d value) s = .next t ∧ t.reg (Reg.trcPool d) = s.reg (Reg.trcPool d))) ∧
    (∀ p, p < 16 →
      (∀ value, s.rd (.trcPCtrlEnable p) = 0 →
        (s.traceRefusal p value = none → ∃ t, exec (.traceEnable p value) s = .next t ∧ t.rd (.trcPCtrlEnable p) = 1 ∧ t.rd (.trcPTrigFired p) = 0 ∧
          ∀ d ∈ s.bufDies p, t.rd (.trcPPosState p d) = 1 ∧ t.rd (.trcPPosWritten p d) = 0 ∧ t.rd (.trcPLostLost p d) = 0) ∧
        (∀ r, s.traceRefusal p value = some r → ∃ t, exec (.traceEnable p value) s = .next t ∧ t.regs = s.regs ∧
          ∃ e ∈ t.events, e.code = Code.dbgInvalid.val ∧ e.part = p ∧ e.payload = payload [(16, 1, r)])) ∧
      (∀ value, ∃ t, exec (.traceDisable p value) s = .next t ∧ t.rd (.trcPCtrlEnable p) = 0 ∧ ∀ d ∈ t.bufDies p, t.rd (.trcPPosState p d) = 0) ∧
      (s.rd (.trcPCtrlEnable p) = 1 → s.rd (.trcPTrigFired p) = 0 → ∃ t, exec (.traceForce p) s = .next t ∧ t.rd (.trcPTrigFired p) = 1 ∧
        ∃ e ∈ t.events, e.code = Code.dbgTraceTrigger.val ∧ e.payload = payload [(16, 1, p), (17, 1, 4), (18, 2, 0)]) ∧
      (∀ n value, n < 8 → s.rd (.trcPWatchAState p n) ≠ 1 →
        (s.watchRefusal p n = none → ∃ t, exec (.watchArm p n value) s = .next t ∧ t.rd (.trcPWatchAEnable p n) = 1 ∧ t.rd (.trcPWatchAState p n) = 1 ∧
          t.rd (.trcPWatchATensorId p n) = bitsAt value 0 32 ∧ t.rd (.trcPWatchALimit p n) = bitsAt value 40 24) ∧
        (∀ r, s.watchRefusal p n = some r → ∃ t, exec (.watchArm p n value) s = .next t ∧ t.regs = s.regs ∧
          ∃ e ∈ t.events, e.code = Code.dbgInvalid.val ∧ e.part = p ∧ e.payload = payload [(16, 1, r)])))) ∧
  (∀ p d, p < 16 → d < 8 → s.bufDone p d = true → (s.rd (.trcPPosState p d) = 1 ∨ s.rd (.trcPPosState p d) = 2) → ∃ t, exec (.traceBufferFull p d) s = .next t ∧
    t.rd (.trcPPosState p d) = (if s.rd (.trcPPosState p d) = 1 then 4 else 3) ∧ ∃ e ∈ t.events, e.code = Code.dbgTraceStopped.val ∧
      e.payload = payload [(16, 1, p), (17, 1, d), (18, 1, s.rd (.trcPCtrlPolicy p)), (20, 8, s.rd (.trcPPosWritten p d))])
end

