-- ==== Sys2Proof/Laws/Sparse.lean ====
section
/-!
SUPPORT. Sparse stores: read after write, and the canonical form that every operation keeps.
-/
namespace Sys2Proof.Machine

variable {α : Type}

/-! ## Read after write -/

theorem Sparse.get_insert (d : α) (k a : Nat) (v : α) (m : List (Nat × α)) :
    Sparse.get d (Sparse.insert k v m) a = if k = a then v else Sparse.get d m a := by
  induction m with
  | nil => simp [Sparse.insert, Sparse.get]
  | cons p t ih =>
    obtain ⟨k', v'⟩ := p
    simp only [Sparse.insert]
    split
    · simp [Sparse.get]
    · split
      · subst_vars
        simp only [Sparse.get]
        split <;> simp_all
      · simp only [Sparse.get, ih]
        split <;> split <;> simp_all

theorem Sparse.get_erase (d : α) (k a : Nat) (m : List (Nat × α)) :
    Sparse.get d (Sparse.erase k m) a = if k = a then d else Sparse.get d m a := by
  induction m with
  | nil => simp [Sparse.erase, Sparse.get]
  | cons p t ih =>
    obtain ⟨k', v'⟩ := p
    simp only [Sparse.erase]
    split
    · subst_vars
      simp only [ih, Sparse.get]
      split <;> simp_all
    · simp only [Sparse.get, ih]
      split <;> split <;> simp_all

theorem Sparse.get_put [DecidableEq α] (d : α) (k a : Nat) (v : α) (m : List (Nat × α)) :
    Sparse.get d (Sparse.put d k v m) a = if k = a then v else Sparse.get d m a := by
  unfold Sparse.put
  split
  · subst_vars
    rw [Sparse.get_erase]
  · rw [Sparse.get_insert]

@[simp] theorem Sparse.get_put_self [DecidableEq α] (d : α) (k : Nat) (v : α) (m : List (Nat × α)) :
    Sparse.get d (Sparse.put d k v m) k = v := by simp [Sparse.get_put]

theorem Sparse.get_put_ne [DecidableEq α] (d : α) {k a : Nat} (v : α) (m : List (Nat × α)) (h : k ≠ a) :
    Sparse.get d (Sparse.put d k v m) a = Sparse.get d m a := by simp [Sparse.get_put, h]

/-! ## The canonical form -/

theorem Sparse.mem_insert {k : Nat} {v : α} {m : List (Nat × α)} {p : Nat × α}
    (h : p ∈ Sparse.insert k v m) : p = (k, v) ∨ p ∈ m := by
  induction m with
  | nil => simpa [Sparse.insert] using h
  | cons q t ih =>
    obtain ⟨k', v'⟩ := q
    simp only [Sparse.insert] at h
    split at h
    · simpa using h
    · split at h
      · rcases List.mem_cons.1 h with h | h
        · exact .inl h
        · exact .inr (List.mem_cons_of_mem _ h)
      · rcases List.mem_cons.1 h with h | h
        · exact .inr (by simp [h])
        · rcases ih h with h | h
          · exact .inl h
          · exact .inr (List.mem_cons_of_mem _ h)

theorem Sparse.mem_erase {k : Nat} {m : List (Nat × α)} {p : Nat × α} (h : p ∈ Sparse.erase k m) : p ∈ m := by
  induction m with
  | nil => simp [Sparse.erase] at h
  | cons q t ih =>
    obtain ⟨k', v'⟩ := q
    simp only [Sparse.erase] at h
    split at h
    · exact List.mem_cons_of_mem _ (ih h)
    · rcases List.mem_cons.1 h with h | h
      · simp [h]
      · exact List.mem_cons_of_mem _ (ih h)

theorem Sparse.wf_nil [DecidableEq α] (d : Nat → α) : Sparse.wf d [] = true := rfl

theorem Sparse.wf_cons [DecidableEq α] {d : Nat → α} {k : Nat} {v : α} {t : List (Nat × α)} :
    Sparse.wf d ((k, v) :: t) = true ↔ v ≠ d k ∧ (∀ p ∈ t, k < p.1) ∧ Sparse.wf d t = true := by
  simp [Sparse.wf, and_assoc]

theorem Sparse.wf_insert [DecidableEq α] {d : Nat → α} {k : Nat} {v : α} {m : List (Nat × α)} (hv : v ≠ d k)
    (h : Sparse.wf d m = true) : Sparse.wf d (Sparse.insert k v m) = true := by
  induction m with
  | nil => simp [Sparse.insert, Sparse.wf, hv]
  | cons q t ih =>
    obtain ⟨k', v'⟩ := q
    obtain ⟨h1, h2, h3⟩ := Sparse.wf_cons.1 h
    simp only [Sparse.insert]
    split
    · rename_i hlt
      refine Sparse.wf_cons.2 ⟨hv, ?_, h⟩
      intro p hp
      rcases List.mem_cons.1 hp with rfl | hp
      · exact hlt
      · exact Nat.lt_trans hlt (h2 p hp)
    · split
      · subst_vars
        exact Sparse.wf_cons.2 ⟨hv, h2, h3⟩
      · refine Sparse.wf_cons.2 ⟨h1, ?_, ih h3⟩
        intro p hp
        rcases Sparse.mem_insert hp with rfl | hp
        · show k' < k
          omega
        · exact h2 p hp

theorem Sparse.wf_erase [DecidableEq α] {d : Nat → α} {k : Nat} {m : List (Nat × α)}
    (h : Sparse.wf d m = true) : Sparse.wf d (Sparse.erase k m) = true := by
  induction m with
  | nil => rfl
  | cons q t ih =>
    obtain ⟨k', v'⟩ := q
    obtain ⟨h1, h2, h3⟩ := Sparse.wf_cons.1 h
    simp only [Sparse.erase]
    split
    · exact ih h3
    · exact Sparse.wf_cons.2 ⟨h1, fun p hp => h2 p (Sparse.mem_erase hp), ih h3⟩

/-- Writing keeps the canonical form of a store whose unlisted key `k` reads as `d k`. -/
theorem Sparse.wf_put [DecidableEq α] {d : Nat → α} {k : Nat} {v : α} {m : List (Nat × α)}
    (h : Sparse.wf d m = true) : Sparse.wf d (Sparse.put (d k) k v m) = true := by
  unfold Sparse.put
  split
  · exact Sparse.wf_erase h
  · rename_i hv
    exact Sparse.wf_insert hv h

theorem Sparse.wf_filter [DecidableEq α] {d : Nat → α} {q : Nat × α → Bool} {m : List (Nat × α)}
    (h : Sparse.wf d m = true) : Sparse.wf d (m.filter q) = true := by
  induction m with
  | nil => rfl
  | cons p t ih =>
    obtain ⟨k, v⟩ := p
    obtain ⟨h1, h2, h3⟩ := Sparse.wf_cons.1 h
    rw [List.filter_cons]
    split
    · exact Sparse.wf_cons.2 ⟨h1, fun p hp => h2 p (List.mem_filter.1 hp).1, ih h3⟩
    · exact ih h3

/-- Keys that rise strictly. -/
theorem Sparse.wf_mem [DecidableEq α] {d : Nat → α} {m : List (Nat × α)} (h : Sparse.wf d m = true) {p : Nat × α}
    (hp : p ∈ m) : p.2 ≠ d p.1 := by
  induction m with
  | nil => simp at hp
  | cons q t ih =>
    obtain ⟨k, v⟩ := q
    obtain ⟨h1, h2, h3⟩ := Sparse.wf_cons.1 h
    rcases List.mem_cons.1 hp with rfl | hp
    · exact h1
    · exact ih h3 hp

/-- A store built by inserting values of which none is what an unlisted key reads as. -/
theorem Sparse.wf_foldl_insert [DecidableEq α] {d : Nat → α} (g : List (Nat × α) → Nat × α → List (Nat × α))
    (hg : ∀ acc p, p.2 ≠ d 0 → Sparse.wf d acc = true → Sparse.wf d (g acc p) = true) :
    ∀ (m acc : List (Nat × α)), (∀ p ∈ m, p.2 ≠ d 0) → Sparse.wf d acc = true → Sparse.wf d (m.foldl g acc) = true
  | [], _, _, ha => ha
  | p :: t, acc, hm, ha =>
    Sparse.wf_foldl_insert g hg t (g acc p) (fun q hq => hm q (List.mem_cons_of_mem _ hq))
      (hg acc p (hm p List.mem_cons_self) ha)

/-- The values of a store mapped, then those that an unlisted key reads as taken out: the keys still rise strictly. -/
theorem Sparse.wf_map_filter [DecidableEq α] {d : Nat → α} {f : Nat × α → Nat × α} (hf : ∀ p, (f p).1 = p.1)
    {m : List (Nat × α)} (h : Sparse.wf d m = true) :
    Sparse.wf d ((m.map f).filter (fun p => !(decide (p.2 = d p.1)))) = true := by
  induction m with
  | nil => rfl
  | cons p t ih =>
    obtain ⟨k, v⟩ := p
    obtain ⟨h1, h2, h3⟩ := Sparse.wf_cons.1 h
    rw [List.map_cons, List.filter_cons]
    split
    · rename_i hk
      have hk1 : (f (k, v)).1 = k := hf (k, v)
      have e : f (k, v) = (k, (f (k, v)).2) := Prod.ext hk1 rfl
      rw [e]
      refine Sparse.wf_cons.2 ⟨?_, ?_, ih h3⟩
      · intro hc
        rw [e] at hk
        simp [hc] at hk
      · intro q hq
        obtain ⟨r, hr, rfl⟩ := List.mem_map.1 (List.mem_filter.1 hq).1
        rw [hf r]
        exact h2 r hr
    · exact ih h3

/-! ## Memory -/

theorem Mem.read_write (m : List (Nat × BitVec 8)) (a b : Nat) (v : BitVec 8) :
    Mem.read (Mem.write m a v) b = if a = b then v else Mem.read m b := Sparse.get_put _ _ _ _ _

@[simp] theorem Mem.read_write_self (m : List (Nat × BitVec 8)) (a : Nat) (v : BitVec 8) :
    Mem.read (Mem.write m a v) a = v := by simp [Mem.read_write]

theorem Mem.read_write_ne (m : List (Nat × BitVec 8)) {a b : Nat} (v : BitVec 8) (h : a ≠ b) :
    Mem.read (Mem.write m a v) b = Mem.read m b := by simp [Mem.read_write, h]

theorem Mem.write_wf {m : List (Nat × BitVec 8)} (a : Nat) (v : BitVec 8) (h : Memory.wf m = true) :
    Memory.wf (Mem.write m a v) = true := Sparse.wf_put (d := fun _ => memUnlisted) h

theorem Mem.writeBytes_wf {m : List (Nat × BitVec 8)} (a : Nat) (l : List (BitVec 8)) (h : Memory.wf m = true) :
    Memory.wf (Mem.writeBytes m a l) = true := by
  induction l generalizing m a with
  | nil => exact h
  | cons b t ih => exact ih (a + 1) (Mem.write_wf a b h)

/-- Bytes below or above those written keep their values. -/
theorem Mem.read_writeBytes_out (m : List (Nat × BitVec 8)) (a x : Nat) (l : List (BitVec 8))
    (h : x < a ∨ a + l.length ≤ x) : Mem.read (Mem.writeBytes m a l) x = Mem.read m x := by
  induction l generalizing m a with
  | nil => rfl
  | cons b t ih =>
    simp only [List.length_cons] at h
    rw [Mem.writeBytes, ih (Mem.write m a b) (a + 1) (by omega), Mem.read_write_ne _ _ (by omega)]

/-- Reading back the bytes just written. -/
theorem Mem.readBytes_writeBytes (m : List (Nat × BitVec 8)) (a : Nat) (l : List (BitVec 8)) :
    Mem.readBytes (Mem.writeBytes m a l) a l.length = l := by
  induction l generalizing m a with
  | nil => rfl
  | cons b t ih =>
    simp only [List.length_cons, Mem.readBytes, Mem.writeBytes, ih]
    rw [Mem.read_writeBytes_out _ _ _ _ (by omega), Mem.read_write_self]

end Sys2Proof.Machine
end

