-- ==== Sys2Proof/Laws/State.lean ====
section
/-!
SUPPORT. One lemma for each field after each update of State: the field written holds what was written, every other field
what it held. Nothing unfolds an update of the record after these.
-/
namespace Sys2Proof.Machine

variable (s : State)

@[simp] theorem State.pending_setDtime (x : Nat) : (s.setDtime x).pending = s.pending := rfl
@[simp] theorem State.dtime_setDtime (x : Nat) : (s.setDtime x).dtime = x := rfl
@[simp] theorem State.regs_setDtime (x : Nat) : (s.setDtime x).regs = s.regs := rfl
@[simp] theorem State.mem_setDtime (x : Nat) : (s.setDtime x).mem = s.mem := rfl
@[simp] theorem State.hostMem_setDtime (x : Nat) : (s.setDtime x).hostMem = s.hostMem := rfl
@[simp] theorem State.book_setDtime (x : Nat) : (s.setDtime x).book = s.book := rfl
@[simp] theorem State.learned_setDtime (x : Nat) : (s.setDtime x).learned = s.learned := rfl
@[simp] theorem State.benched_setDtime (x : Nat) : (s.setDtime x).benched = s.benched := rfl
@[simp] theorem State.cores_setDtime (x : Nat) : (s.setDtime x).cores = s.cores := rfl
@[simp] theorem State.sync_setDtime (x : Nat) : (s.setDtime x).sync = s.sync := rfl
@[simp] theorem State.waitOrder_setDtime (x : Nat) : (s.setDtime x).waitOrder = s.waitOrder := rfl
@[simp] theorem State.signals_setDtime (x : Nat) : (s.setDtime x).signals = s.signals := rfl
@[simp] theorem State.dispatch_setDtime (x : Nat) : (s.setDtime x).dispatch = s.dispatch := rfl
@[simp] theorem State.segOrder_setDtime (x : Nat) : (s.setDtime x).segOrder = s.segOrder := rfl
@[simp] theorem State.streams_setDtime (x : Nat) : (s.setDtime x).streams = s.streams := rfl
@[simp] theorem State.rings_setDtime (x : Nat) : (s.setDtime x).rings = s.rings := rfl
@[simp] theorem State.heads_setDtime (x : Nat) : (s.setDtime x).heads = s.heads := rfl
@[simp] theorem State.haltAt_setDtime (x : Nat) : (s.setDtime x).haltAt = s.haltAt := rfl
@[simp] theorem State.heldHeads_setDtime (x : Nat) : (s.setDtime x).heldHeads = s.heldHeads := rfl
@[simp] theorem State.queues_setDtime (x : Nat) : (s.setDtime x).queues = s.queues := rfl
@[simp] theorem State.atsOn_setDtime (x : Nat) : (s.setDtime x).atsOn = s.atsOn := rfl
@[simp] theorem State.atc_setDtime (x : Nat) : (s.setDtime x).atc = s.atc := rfl
@[simp] theorem State.lowPower_setDtime (x : Nat) : (s.setDtime x).lowPower = s.lowPower := rfl
@[simp] theorem State.flags_setDtime (x : Nat) : (s.setDtime x).flags = s.flags := rfl
@[simp] theorem State.out_setDtime (x : Nat) : (s.setDtime x).out = s.out := rfl
@[simp] theorem State.events_setDtime (x : Nat) : (s.setDtime x).events = s.events := rfl
@[simp] theorem State.bad_setDtime (x : Nat) : (s.setDtime x).bad = s.bad := rfl
@[simp] theorem State.poison_setDtime (x : Nat) : (s.setDtime x).poison = s.poison := rfl
@[simp] theorem State.cache_setDtime (x : Nat) : (s.setDtime x).cache = s.cache := rfl
@[simp] theorem State.watch_setDtime (x : Nat) : (s.setDtime x).watch = s.watch := rfl
@[simp] theorem State.flash_setDtime (x : Nat) : (s.setDtime x).flash = s.flash := rfl
@[simp] theorem State.flashDown_setDtime (x : Nat) : (s.setDtime x).flashDown = s.flashDown := rfl
@[simp] theorem State.ports_setDtime (x : Nat) : (s.setDtime x).ports = s.ports := rfl
@[simp] theorem State.inbox_setDtime (x : Nat) : (s.setDtime x).inbox = s.inbox := rfl
@[simp] theorem State.fellows_setDtime (x : Nat) : (s.setDtime x).fellows = s.fellows := rfl
@[simp] theorem State.pfc_setDtime (x : Nat) : (s.setDtime x).pfc = s.pfc := rfl
@[simp] theorem State.reqs_setDtime (x : Nat) : (s.setDtime x).reqs = s.reqs := rfl
@[simp] theorem State.serial_setDtime (x : Nat) : (s.setDtime x).serial = s.serial := rfl
@[simp] theorem State.tag_setDtime (x : Nat) : (s.setDtime x).tag = s.tag := rfl
@[simp] theorem State.chans_setDtime (x : Nat) : (s.setDtime x).chans = s.chans := rfl
@[simp] theorem State.feeds_setDtime (x : Nat) : (s.setDtime x).feeds = s.feeds := rfl
@[simp] theorem State.fences_setDtime (x : Nat) : (s.setDtime x).fences = s.fences := rfl
@[simp] theorem State.recoveries_setDtime (x : Nat) : (s.setDtime x).recoveries = s.recoveries := rfl
@[simp] theorem State.gviews_setDtime (x : Nat) : (s.setDtime x).gviews = s.gviews := rfl
@[simp] theorem State.reds_setDtime (x : Nat) : (s.setDtime x).reds = s.reds := rfl
@[simp] theorem State.redSeq_setDtime (x : Nat) : (s.setDtime x).redSeq = s.redSeq := rfl
@[simp] theorem State.redRings_setDtime (x : Nat) : (s.setDtime x).redRings = s.redRings := rfl
@[simp] theorem State.jobs_setDtime (x : Nat) : (s.setDtime x).jobs = s.jobs := rfl
@[simp] theorem State.traceBufs_setDtime (x : Nat) : (s.setDtime x).traceBufs = s.traceBufs := rfl
@[simp] theorem State.traceTurn_setDtime (x : Nat) : (s.setDtime x).traceTurn = s.traceTurn := rfl
@[simp] theorem State.dm_setDtime (x : Nat) : (s.setDtime x).dm = s.dm := rfl
@[simp] theorem State.posted_setDtime (x : Nat) : (s.setDtime x).posted = s.posted := rfl
@[simp] theorem State.referee_setDtime (x : Nat) : (s.setDtime x).referee = s.referee := rfl
@[simp] theorem State.power_setDtime (x : Nat) : (s.setDtime x).power = s.power := rfl
@[simp] theorem State.freeCount_setDtime (x : Nat) : (s.setDtime x).freeCount = s.freeCount := rfl
@[simp] theorem State.lines_setDtime (x : Nat) : (s.setDtime x).lines = s.lines := rfl
@[simp] theorem State.hartCsr_setDtime (x : Nat) : (s.setDtime x).hartCsr = s.hartCsr := rfl
@[simp] theorem State.msix_setDtime (x : Nat) : (s.setDtime x).msix = s.msix := rfl
@[simp] theorem State.msixCtl_setDtime (x : Nat) : (s.setDtime x).msixCtl = s.msixCtl := rfl
@[simp] theorem State.hartFull_setDtime (x : Nat) : (s.setDtime x).hartFull = s.hartFull := rfl
@[simp] theorem State.pending_setRegs (x : List (Nat × Word)) : (s.setRegs x).pending = s.pending := rfl
@[simp] theorem State.dtime_setRegs (x : List (Nat × Word)) : (s.setRegs x).dtime = s.dtime := rfl
@[simp] theorem State.regs_setRegs (x : List (Nat × Word)) : (s.setRegs x).regs = x := rfl
@[simp] theorem State.mem_setRegs (x : List (Nat × Word)) : (s.setRegs x).mem = s.mem := rfl
@[simp] theorem State.hostMem_setRegs (x : List (Nat × Word)) : (s.setRegs x).hostMem = s.hostMem := rfl
@[simp] theorem State.book_setRegs (x : List (Nat × Word)) : (s.setRegs x).book = s.book := rfl
@[simp] theorem State.learned_setRegs (x : List (Nat × Word)) : (s.setRegs x).learned = s.learned := rfl
@[simp] theorem State.benched_setRegs (x : List (Nat × Word)) : (s.setRegs x).benched = s.benched := rfl
@[simp] theorem State.cores_setRegs (x : List (Nat × Word)) : (s.setRegs x).cores = s.cores := rfl
@[simp] theorem State.sync_setRegs (x : List (Nat × Word)) : (s.setRegs x).sync = s.sync := rfl
@[simp] theorem State.waitOrder_setRegs (x : List (Nat × Word)) : (s.setRegs x).waitOrder = s.waitOrder := rfl
@[simp] theorem State.signals_setRegs (x : List (Nat × Word)) : (s.setRegs x).signals = s.signals := rfl
@[simp] theorem State.dispatch_setRegs (x : List (Nat × Word)) : (s.setRegs x).dispatch = s.dispatch := rfl
@[simp] theorem State.segOrder_setRegs (x : List (Nat × Word)) : (s.setRegs x).segOrder = s.segOrder := rfl
@[simp] theorem State.streams_setRegs (x : List (Nat × Word)) : (s.setRegs x).streams = s.streams := rfl
@[simp] theorem State.rings_setRegs (x : List (Nat × Word)) : (s.setRegs x).rings = s.rings := rfl
@[simp] theorem State.heads_setRegs (x : List (Nat × Word)) : (s.setRegs x).heads = s.heads := rfl
@[simp] theorem State.haltAt_setRegs (x : List (Nat × Word)) : (s.setRegs x).haltAt = s.haltAt := rfl
@[simp] theorem State.heldHeads_setRegs (x : List (Nat × Word)) : (s.setRegs x).heldHeads = s.heldHeads := rfl
@[simp] theorem State.queues_setRegs (x : List (Nat × Word)) : (s.setRegs x).queues = s.queues := rfl
@[simp] theorem State.atsOn_setRegs (x : List (Nat × Word)) : (s.setRegs x).atsOn = s.atsOn := rfl
@[simp] theorem State.atc_setRegs (x : List (Nat × Word)) : (s.setRegs x).atc = s.atc := rfl
@[simp] theorem State.lowPower_setRegs (x : List (Nat × Word)) : (s.setRegs x).lowPower = s.lowPower := rfl
@[simp] theorem State.flags_setRegs (x : List (Nat × Word)) : (s.setRegs x).flags = s.flags := rfl
@[simp] theorem State.out_setRegs (x : List (Nat × Word)) : (s.setRegs x).out = s.out := rfl
@[simp] theorem State.events_setRegs (x : List (Nat × Word)) : (s.setRegs x).events = s.events := rfl
@[simp] theorem State.bad_setRegs (x : List (Nat × Word)) : (s.setRegs x).bad = s.bad := rfl
@[simp] theorem State.poison_setRegs (x : List (Nat × Word)) : (s.setRegs x).poison = s.poison := rfl
@[simp] theorem State.cache_setRegs (x : List (Nat × Word)) : (s.setRegs x).cache = s.cache := rfl
@[simp] theorem State.watch_setRegs (x : List (Nat × Word)) : (s.setRegs x).watch = s.watch := rfl
@[simp] theorem State.flash_setRegs (x : List (Nat × Word)) : (s.setRegs x).flash = s.flash := rfl
@[simp] theorem State.flashDown_setRegs (x : List (Nat × Word)) : (s.setRegs x).flashDown = s.flashDown := rfl
@[simp] theorem State.ports_setRegs (x : List (Nat × Word)) : (s.setRegs x).ports = s.ports := rfl
@[simp] theorem State.inbox_setRegs (x : List (Nat × Word)) : (s.setRegs x).inbox = s.inbox := rfl
@[simp] theorem State.fellows_setRegs (x : List (Nat × Word)) : (s.setRegs x).fellows = s.fellows := rfl
@[simp] theorem State.pfc_setRegs (x : List (Nat × Word)) : (s.setRegs x).pfc = s.pfc := rfl
@[simp] theorem State.reqs_setRegs (x : List (Nat × Word)) : (s.setRegs x).reqs = s.reqs := rfl
@[simp] theorem State.serial_setRegs (x : List (Nat × Word)) : (s.setRegs x).serial = s.serial := rfl
@[simp] theorem State.tag_setRegs (x : List (Nat × Word)) : (s.setRegs x).tag = s.tag := rfl
@[simp] theorem State.chans_setRegs (x : List (Nat × Word)) : (s.setRegs x).chans = s.chans := rfl
@[simp] theorem State.feeds_setRegs (x : List (Nat × Word)) : (s.setRegs x).feeds = s.feeds := rfl
@[simp] theorem State.fences_setRegs (x : List (Nat × Word)) : (s.setRegs x).fences = s.fences := rfl
@[simp] theorem State.recoveries_setRegs (x : List (Nat × Word)) : (s.setRegs x).recoveries = s.recoveries := rfl
@[simp] theorem State.gviews_setRegs (x : List (Nat × Word)) : (s.setRegs x).gviews = s.gviews := rfl
@[simp] theorem State.reds_setRegs (x : List (Nat × Word)) : (s.setRegs x).reds = s.reds := rfl
@[simp] theorem State.redSeq_setRegs (x : List (Nat × Word)) : (s.setRegs x).redSeq = s.redSeq := rfl
@[simp] theorem State.redRings_setRegs (x : List (Nat × Word)) : (s.setRegs x).redRings = s.redRings := rfl
@[simp] theorem State.jobs_setRegs (x : List (Nat × Word)) : (s.setRegs x).jobs = s.jobs := rfl
@[simp] theorem State.traceBufs_setRegs (x : List (Nat × Word)) : (s.setRegs x).traceBufs = s.traceBufs := rfl
@[simp] theorem State.traceTurn_setRegs (x : List (Nat × Word)) : (s.setRegs x).traceTurn = s.traceTurn := rfl
@[simp] theorem State.dm_setRegs (x : List (Nat × Word)) : (s.setRegs x).dm = s.dm := rfl
@[simp] theorem State.posted_setRegs (x : List (Nat × Word)) : (s.setRegs x).posted = s.posted := rfl
@[simp] theorem State.referee_setRegs (x : List (Nat × Word)) : (s.setRegs x).referee = s.referee := rfl
@[simp] theorem State.power_setRegs (x : List (Nat × Word)) : (s.setRegs x).power = s.power := rfl
@[simp] theorem State.freeCount_setRegs (x : List (Nat × Word)) : (s.setRegs x).freeCount = s.freeCount := rfl
@[simp] theorem State.lines_setRegs (x : List (Nat × Word)) : (s.setRegs x).lines = s.lines := rfl
@[simp] theorem State.hartCsr_setRegs (x : List (Nat × Word)) : (s.setRegs x).hartCsr = s.hartCsr := rfl
@[simp] theorem State.msix_setRegs (x : List (Nat × Word)) : (s.setRegs x).msix = s.msix := rfl
@[simp] theorem State.msixCtl_setRegs (x : List (Nat × Word)) : (s.setRegs x).msixCtl = s.msixCtl := rfl
@[simp] theorem State.hartFull_setRegs (x : List (Nat × Word)) : (s.setRegs x).hartFull = s.hartFull := rfl
@[simp] theorem State.pending_setMem (x : List Host.Cell) : (s.setMem x).pending = s.pending := rfl
@[simp] theorem State.dtime_setMem (x : List Host.Cell) : (s.setMem x).dtime = s.dtime := rfl
@[simp] theorem State.regs_setMem (x : List Host.Cell) : (s.setMem x).regs = s.regs := rfl
@[simp] theorem State.mem_setMem (x : List Host.Cell) : (s.setMem x).mem = x := rfl
@[simp] theorem State.hostMem_setMem (x : List Host.Cell) : (s.setMem x).hostMem = s.hostMem := rfl
@[simp] theorem State.book_setMem (x : List Host.Cell) : (s.setMem x).book = s.book := rfl
@[simp] theorem State.learned_setMem (x : List Host.Cell) : (s.setMem x).learned = s.learned := rfl
@[simp] theorem State.benched_setMem (x : List Host.Cell) : (s.setMem x).benched = s.benched := rfl
@[simp] theorem State.cores_setMem (x : List Host.Cell) : (s.setMem x).cores = s.cores := rfl
@[simp] theorem State.sync_setMem (x : List Host.Cell) : (s.setMem x).sync = s.sync := rfl
@[simp] theorem State.waitOrder_setMem (x : List Host.Cell) : (s.setMem x).waitOrder = s.waitOrder := rfl
@[simp] theorem State.signals_setMem (x : List Host.Cell) : (s.setMem x).signals = s.signals := rfl
@[simp] theorem State.dispatch_setMem (x : List Host.Cell) : (s.setMem x).dispatch = s.dispatch := rfl
@[simp] theorem State.segOrder_setMem (x : List Host.Cell) : (s.setMem x).segOrder = s.segOrder := rfl
@[simp] theorem State.streams_setMem (x : List Host.Cell) : (s.setMem x).streams = s.streams := rfl
@[simp] theorem State.rings_setMem (x : List Host.Cell) : (s.setMem x).rings = s.rings := rfl
@[simp] theorem State.heads_setMem (x : List Host.Cell) : (s.setMem x).heads = s.heads := rfl
@[simp] theorem State.haltAt_setMem (x : List Host.Cell) : (s.setMem x).haltAt = s.haltAt := rfl
@[simp] theorem State.heldHeads_setMem (x : List Host.Cell) : (s.setMem x).heldHeads = s.heldHeads := rfl
@[simp] theorem State.queues_setMem (x : List Host.Cell) : (s.setMem x).queues = s.queues := rfl
@[simp] theorem State.atsOn_setMem (x : List Host.Cell) : (s.setMem x).atsOn = s.atsOn := rfl
@[simp] theorem State.atc_setMem (x : List Host.Cell) : (s.setMem x).atc = s.atc := rfl
@[simp] theorem State.lowPower_setMem (x : List Host.Cell) : (s.setMem x).lowPower = s.lowPower := rfl
@[simp] theorem State.flags_setMem (x : List Host.Cell) : (s.setMem x).flags = s.flags := rfl
@[simp] theorem State.out_setMem (x : List Host.Cell) : (s.setMem x).out = s.out := rfl
@[simp] theorem State.events_setMem (x : List Host.Cell) : (s.setMem x).events = s.events := rfl
@[simp] theorem State.bad_setMem (x : List Host.Cell) : (s.setMem x).bad = s.bad := rfl
@[simp] theorem State.poison_setMem (x : List Host.Cell) : (s.setMem x).poison = s.poison := rfl
@[simp] theorem State.cache_setMem (x : List Host.Cell) : (s.setMem x).cache = s.cache := rfl
@[simp] theorem State.watch_setMem (x : List Host.Cell) : (s.setMem x).watch = s.watch := rfl
@[simp] theorem State.flash_setMem (x : List Host.Cell) : (s.setMem x).flash = s.flash := rfl
@[simp] theorem State.flashDown_setMem (x : List Host.Cell) : (s.setMem x).flashDown = s.flashDown := rfl
@[simp] theorem State.ports_setMem (x : List Host.Cell) : (s.setMem x).ports = s.ports := rfl
@[simp] theorem State.inbox_setMem (x : List Host.Cell) : (s.setMem x).inbox = s.inbox := rfl
@[simp] theorem State.fellows_setMem (x : List Host.Cell) : (s.setMem x).fellows = s.fellows := rfl
@[simp] theorem State.pfc_setMem (x : List Host.Cell) : (s.setMem x).pfc = s.pfc := rfl
@[simp] theorem State.reqs_setMem (x : List Host.Cell) : (s.setMem x).reqs = s.reqs := rfl
@[simp] theorem State.serial_setMem (x : List Host.Cell) : (s.setMem x).serial = s.serial := rfl
@[simp] theorem State.tag_setMem (x : List Host.Cell) : (s.setMem x).tag = s.tag := rfl
@[simp] theorem State.chans_setMem (x : List Host.Cell) : (s.setMem x).chans = s.chans := rfl
@[simp] theorem State.feeds_setMem (x : List Host.Cell) : (s.setMem x).feeds = s.feeds := rfl
@[simp] theorem State.fences_setMem (x : List Host.Cell) : (s.setMem x).fences = s.fences := rfl
@[simp] theorem State.recoveries_setMem (x : List Host.Cell) : (s.setMem x).recoveries = s.recoveries := rfl
@[simp] theorem State.gviews_setMem (x : List Host.Cell) : (s.setMem x).gviews = s.gviews := rfl
@[simp] theorem State.reds_setMem (x : List Host.Cell) : (s.setMem x).reds = s.reds := rfl
@[simp] theorem State.redSeq_setMem (x : List Host.Cell) : (s.setMem x).redSeq = s.redSeq := rfl
@[simp] theorem State.redRings_setMem (x : List Host.Cell) : (s.setMem x).redRings = s.redRings := rfl
@[simp] theorem State.jobs_setMem (x : List Host.Cell) : (s.setMem x).jobs = s.jobs := rfl
@[simp] theorem State.traceBufs_setMem (x : List Host.Cell) : (s.setMem x).traceBufs = s.traceBufs := rfl
@[simp] theorem State.traceTurn_setMem (x : List Host.Cell) : (s.setMem x).traceTurn = s.traceTurn := rfl
@[simp] theorem State.dm_setMem (x : List Host.Cell) : (s.setMem x).dm = s.dm := rfl
@[simp] theorem State.posted_setMem (x : List Host.Cell) : (s.setMem x).posted = s.posted := rfl
@[simp] theorem State.referee_setMem (x : List Host.Cell) : (s.setMem x).referee = s.referee := rfl
@[simp] theorem State.power_setMem (x : List Host.Cell) : (s.setMem x).power = s.power := rfl
@[simp] theorem State.freeCount_setMem (x : List Host.Cell) : (s.setMem x).freeCount = s.freeCount := rfl
@[simp] theorem State.lines_setMem (x : List Host.Cell) : (s.setMem x).lines = s.lines := rfl
@[simp] theorem State.hartCsr_setMem (x : List Host.Cell) : (s.setMem x).hartCsr = s.hartCsr := rfl
@[simp] theorem State.msix_setMem (x : List Host.Cell) : (s.setMem x).msix = s.msix := rfl
@[simp] theorem State.msixCtl_setMem (x : List Host.Cell) : (s.setMem x).msixCtl = s.msixCtl := rfl
@[simp] theorem State.hartFull_setMem (x : List Host.Cell) : (s.setMem x).hartFull = s.hartFull := rfl
@[simp] theorem State.pending_setBook (x : List (Nat × Entry)) : (s.setBook x).pending = s.pending := rfl
@[simp] theorem State.dtime_setBook (x : List (Nat × Entry)) : (s.setBook x).dtime = s.dtime := rfl
@[simp] theorem State.regs_setBook (x : List (Nat × Entry)) : (s.setBook x).regs = s.regs := rfl
@[simp] theorem State.mem_setBook (x : List (Nat × Entry)) : (s.setBook x).mem = s.mem := rfl
@[simp] theorem State.hostMem_setBook (x : List (Nat × Entry)) : (s.setBook x).hostMem = s.hostMem := rfl
@[simp] theorem State.book_setBook (x : List (Nat × Entry)) : (s.setBook x).book = x := rfl
@[simp] theorem State.learned_setBook (x : List (Nat × Entry)) : (s.setBook x).learned = s.learned := rfl
@[simp] theorem State.benched_setBook (x : List (Nat × Entry)) : (s.setBook x).benched = s.benched := rfl
@[simp] theorem State.cores_setBook (x : List (Nat × Entry)) : (s.setBook x).cores = s.cores := rfl
@[simp] theorem State.sync_setBook (x : List (Nat × Entry)) : (s.setBook x).sync = s.sync := rfl
@[simp] theorem State.waitOrder_setBook (x : List (Nat × Entry)) : (s.setBook x).waitOrder = s.waitOrder := rfl
@[simp] theorem State.signals_setBook (x : List (Nat × Entry)) : (s.setBook x).signals = s.signals := rfl
@[simp] theorem State.dispatch_setBook (x : List (Nat × Entry)) : (s.setBook x).dispatch = s.dispatch := rfl
@[simp] theorem State.segOrder_setBook (x : List (Nat × Entry)) : (s.setBook x).segOrder = s.segOrder := rfl
@[simp] theorem State.streams_setBook (x : List (Nat × Entry)) : (s.setBook x).streams = s.streams := rfl
@[simp] theorem State.rings_setBook (x : List (Nat × Entry)) : (s.setBook x).rings = s.rings := rfl
@[simp] theorem State.heads_setBook (x : List (Nat × Entry)) : (s.setBook x).heads = s.heads := rfl
@[simp] theorem State.haltAt_setBook (x : List (Nat × Entry)) : (s.setBook x).haltAt = s.haltAt := rfl
@[simp] theorem State.heldHeads_setBook (x : List (Nat × Entry)) : (s.setBook x).heldHeads = s.heldHeads := rfl
@[simp] theorem State.queues_setBook (x : List (Nat × Entry)) : (s.setBook x).queues = s.queues := rfl
@[simp] theorem State.atsOn_setBook (x : List (Nat × Entry)) : (s.setBook x).atsOn = s.atsOn := rfl
@[simp] theorem State.atc_setBook (x : List (Nat × Entry)) : (s.setBook x).atc = s.atc := rfl
@[simp] theorem State.lowPower_setBook (x : List (Nat × Entry)) : (s.setBook x).lowPower = s.lowPower := rfl
@[simp] theorem State.flags_setBook (x : List (Nat × Entry)) : (s.setBook x).flags = s.flags := rfl
@[simp] theorem State.out_setBook (x : List (Nat × Entry)) : (s.setBook x).out = s.out := rfl
@[simp] theorem State.events_setBook (x : List (Nat × Entry)) : (s.setBook x).events = s.events := rfl
@[simp] theorem State.bad_setBook (x : List (Nat × Entry)) : (s.setBook x).bad = s.bad := rfl
@[simp] theorem State.poison_setBook (x : List (Nat × Entry)) : (s.setBook x).poison = s.poison := rfl
@[simp] theorem State.cache_setBook (x : List (Nat × Entry)) : (s.setBook x).cache = s.cache := rfl
@[simp] theorem State.watch_setBook (x : List (Nat × Entry)) : (s.setBook x).watch = s.watch := rfl
@[simp] theorem State.flash_setBook (x : List (Nat × Entry)) : (s.setBook x).flash = s.flash := rfl
@[simp] theorem State.flashDown_setBook (x : List (Nat × Entry)) : (s.setBook x).flashDown = s.flashDown := rfl
@[simp] theorem State.ports_setBook (x : List (Nat × Entry)) : (s.setBook x).ports = s.ports := rfl
@[simp] theorem State.inbox_setBook (x : List (Nat × Entry)) : (s.setBook x).inbox = s.inbox := rfl
@[simp] theorem State.fellows_setBook (x : List (Nat × Entry)) : (s.setBook x).fellows = s.fellows := rfl
@[simp] theorem State.pfc_setBook (x : List (Nat × Entry)) : (s.setBook x).pfc = s.pfc := rfl
@[simp] theorem State.reqs_setBook (x : List (Nat × Entry)) : (s.setBook x).reqs = s.reqs := rfl
@[simp] theorem State.serial_setBook (x : List (Nat × Entry)) : (s.setBook x).serial = s.serial := rfl
@[simp] theorem State.tag_setBook (x : List (Nat × Entry)) : (s.setBook x).tag = s.tag := rfl
@[simp] theorem State.chans_setBook (x : List (Nat × Entry)) : (s.setBook x).chans = s.chans := rfl
@[simp] theorem State.feeds_setBook (x : List (Nat × Entry)) : (s.setBook x).feeds = s.feeds := rfl
@[simp] theorem State.fences_setBook (x : List (Nat × Entry)) : (s.setBook x).fences = s.fences := rfl
@[simp] theorem State.recoveries_setBook (x : List (Nat × Entry)) : (s.setBook x).recoveries = s.recoveries := rfl
@[simp] theorem State.gviews_setBook (x : List (Nat × Entry)) : (s.setBook x).gviews = s.gviews := rfl
@[simp] theorem State.reds_setBook (x : List (Nat × Entry)) : (s.setBook x).reds = s.reds := rfl
@[simp] theorem State.redSeq_setBook (x : List (Nat × Entry)) : (s.setBook x).redSeq = s.redSeq := rfl
@[simp] theorem State.redRings_setBook (x : List (Nat × Entry)) : (s.setBook x).redRings = s.redRings := rfl
@[simp] theorem State.jobs_setBook (x : List (Nat × Entry)) : (s.setBook x).jobs = s.jobs := rfl
@[simp] theorem State.traceBufs_setBook (x : List (Nat × Entry)) : (s.setBook x).traceBufs = s.traceBufs := rfl
@[simp] theorem State.traceTurn_setBook (x : List (Nat × Entry)) : (s.setBook x).traceTurn = s.traceTurn := rfl
@[simp] theorem State.dm_setBook (x : List (Nat × Entry)) : (s.setBook x).dm = s.dm := rfl
@[simp] theorem State.posted_setBook (x : List (Nat × Entry)) : (s.setBook x).posted = s.posted := rfl
@[simp] theorem State.referee_setBook (x : List (Nat × Entry)) : (s.setBook x).referee = s.referee := rfl
@[simp] theorem State.power_setBook (x : List (Nat × Entry)) : (s.setBook x).power = s.power := rfl
@[simp] theorem State.freeCount_setBook (x : List (Nat × Entry)) : (s.setBook x).freeCount = s.freeCount := rfl
@[simp] theorem State.lines_setBook (x : List (Nat × Entry)) : (s.setBook x).lines = s.lines := rfl
@[simp] theorem State.hartCsr_setBook (x : List (Nat × Entry)) : (s.setBook x).hartCsr = s.hartCsr := rfl
@[simp] theorem State.msix_setBook (x : List (Nat × Entry)) : (s.setBook x).msix = s.msix := rfl
@[simp] theorem State.msixCtl_setBook (x : List (Nat × Entry)) : (s.setBook x).msixCtl = s.msixCtl := rfl
@[simp] theorem State.hartFull_setBook (x : List (Nat × Entry)) : (s.setBook x).hartFull = s.hartFull := rfl
@[simp] theorem State.pending_setLearned (x : List Learned) : (s.setLearned x).pending = s.pending := rfl
@[simp] theorem State.dtime_setLearned (x : List Learned) : (s.setLearned x).dtime = s.dtime := rfl
@[simp] theorem State.regs_setLearned (x : List Learned) : (s.setLearned x).regs = s.regs := rfl
@[simp] theorem State.mem_setLearned (x : List Learned) : (s.setLearned x).mem = s.mem := rfl
@[simp] theorem State.hostMem_setLearned (x : List Learned) : (s.setLearned x).hostMem = s.hostMem := rfl
@[simp] theorem State.book_setLearned (x : List Learned) : (s.setLearned x).book = s.book := rfl
@[simp] theorem State.learned_setLearned (x : List Learned) : (s.setLearned x).learned = x := rfl
@[simp] theorem State.benched_setLearned (x : List Learned) : (s.setLearned x).benched = s.benched := rfl
@[simp] theorem State.cores_setLearned (x : List Learned) : (s.setLearned x).cores = s.cores := rfl
@[simp] theorem State.sync_setLearned (x : List Learned) : (s.setLearned x).sync = s.sync := rfl
@[simp] theorem State.waitOrder_setLearned (x : List Learned) : (s.setLearned x).waitOrder = s.waitOrder := rfl
@[simp] theorem State.signals_setLearned (x : List Learned) : (s.setLearned x).signals = s.signals := rfl
@[simp] theorem State.dispatch_setLearned (x : List Learned) : (s.setLearned x).dispatch = s.dispatch := rfl
@[simp] theorem State.segOrder_setLearned (x : List Learned) : (s.setLearned x).segOrder = s.segOrder := rfl
@[simp] theorem State.streams_setLearned (x : List Learned) : (s.setLearned x).streams = s.streams := rfl
@[simp] theorem State.rings_setLearned (x : List Learned) : (s.setLearned x).rings = s.rings := rfl
@[simp] theorem State.heads_setLearned (x : List Learned) : (s.setLearned x).heads = s.heads := rfl
@[simp] theorem State.haltAt_setLearned (x : List Learned) : (s.setLearned x).haltAt = s.haltAt := rfl
@[simp] theorem State.heldHeads_setLearned (x : List Learned) : (s.setLearned x).heldHeads = s.heldHeads := rfl
@[simp] theorem State.queues_setLearned (x : List Learned) : (s.setLearned x).queues = s.queues := rfl
@[simp] theorem State.atsOn_setLearned (x : List Learned) : (s.setLearned x).atsOn = s.atsOn := rfl
@[simp] theorem State.atc_setLearned (x : List Learned) : (s.setLearned x).atc = s.atc := rfl
@[simp] theorem State.lowPower_setLearned (x : List Learned) : (s.setLearned x).lowPower = s.lowPower := rfl
@[simp] theorem State.flags_setLearned (x : List Learned) : (s.setLearned x).flags = s.flags := rfl
@[simp] theorem State.out_setLearned (x : List Learned) : (s.setLearned x).out = s.out := rfl
@[simp] theorem State.events_setLearned (x : List Learned) : (s.setLearned x).events = s.events := rfl
@[simp] theorem State.bad_setLearned (x : List Learned) : (s.setLearned x).bad = s.bad := rfl
@[simp] theorem State.poison_setLearned (x : List Learned) : (s.setLearned x).poison = s.poison := rfl
@[simp] theorem State.cache_setLearned (x : List Learned) : (s.setLearned x).cache = s.cache := rfl
@[simp] theorem State.watch_setLearned (x : List Learned) : (s.setLearned x).watch = s.watch := rfl
@[simp] theorem State.flash_setLearned (x : List Learned) : (s.setLearned x).flash = s.flash := rfl
@[simp] theorem State.flashDown_setLearned (x : List Learned) : (s.setLearned x).flashDown = s.flashDown := rfl
@[simp] theorem State.ports_setLearned (x : List Learned) : (s.setLearned x).ports = s.ports := rfl
@[simp] theorem State.inbox_setLearned (x : List Learned) : (s.setLearned x).inbox = s.inbox := rfl
@[simp] theorem State.fellows_setLearned (x : List Learned) : (s.setLearned x).fellows = s.fellows := rfl
@[simp] theorem State.pfc_setLearned (x : List Learned) : (s.setLearned x).pfc = s.pfc := rfl
@[simp] theorem State.reqs_setLearned (x : List Learned) : (s.setLearned x).reqs = s.reqs := rfl
@[simp] theorem State.serial_setLearned (x : List Learned) : (s.setLearned x).serial = s.serial := rfl
@[simp] theorem State.tag_setLearned (x : List Learned) : (s.setLearned x).tag = s.tag := rfl
@[simp] theorem State.chans_setLearned (x : List Learned) : (s.setLearned x).chans = s.chans := rfl
@[simp] theorem State.feeds_setLearned (x : List Learned) : (s.setLearned x).feeds = s.feeds := rfl
@[simp] theorem State.fences_setLearned (x : List Learned) : (s.setLearned x).fences = s.fences := rfl
@[simp] theorem State.recoveries_setLearned (x : List Learned) : (s.setLearned x).recoveries = s.recoveries := rfl
@[simp] theorem State.gviews_setLearned (x : List Learned) : (s.setLearned x).gviews = s.gviews := rfl
@[simp] theorem State.reds_setLearned (x : List Learned) : (s.setLearned x).reds = s.reds := rfl
@[simp] theorem State.redSeq_setLearned (x : List Learned) : (s.setLearned x).redSeq = s.redSeq := rfl
@[simp] theorem State.redRings_setLearned (x : List Learned) : (s.setLearned x).redRings = s.redRings := rfl
@[simp] theorem State.jobs_setLearned (x : List Learned) : (s.setLearned x).jobs = s.jobs := rfl
@[simp] theorem State.traceBufs_setLearned (x : List Learned) : (s.setLearned x).traceBufs = s.traceBufs := rfl
@[simp] theorem State.traceTurn_setLearned (x : List Learned) : (s.setLearned x).traceTurn = s.traceTurn := rfl
@[simp] theorem State.dm_setLearned (x : List Learned) : (s.setLearned x).dm = s.dm := rfl
@[simp] theorem State.posted_setLearned (x : List Learned) : (s.setLearned x).posted = s.posted := rfl
@[simp] theorem State.referee_setLearned (x : List Learned) : (s.setLearned x).referee = s.referee := rfl
@[simp] theorem State.power_setLearned (x : List Learned) : (s.setLearned x).power = s.power := rfl
@[simp] theorem State.freeCount_setLearned (x : List Learned) : (s.setLearned x).freeCount = s.freeCount := rfl
@[simp] theorem State.lines_setLearned (x : List Learned) : (s.setLearned x).lines = s.lines := rfl
@[simp] theorem State.hartCsr_setLearned (x : List Learned) : (s.setLearned x).hartCsr = s.hartCsr := rfl
@[simp] theorem State.msix_setLearned (x : List Learned) : (s.setLearned x).msix = s.msix := rfl
@[simp] theorem State.msixCtl_setLearned (x : List Learned) : (s.setLearned x).msixCtl = s.msixCtl := rfl
@[simp] theorem State.hartFull_setLearned (x : List Learned) : (s.setLearned x).hartFull = s.hartFull := rfl
@[simp] theorem State.pending_setBenched (x : List (Nat × Nat)) : (s.setBenched x).pending = s.pending := rfl
@[simp] theorem State.dtime_setBenched (x : List (Nat × Nat)) : (s.setBenched x).dtime = s.dtime := rfl
@[simp] theorem State.regs_setBenched (x : List (Nat × Nat)) : (s.setBenched x).regs = s.regs := rfl
@[simp] theorem State.mem_setBenched (x : List (Nat × Nat)) : (s.setBenched x).mem = s.mem := rfl
@[simp] theorem State.hostMem_setBenched (x : List (Nat × Nat)) : (s.setBenched x).hostMem = s.hostMem := rfl
@[simp] theorem State.book_setBenched (x : List (Nat × Nat)) : (s.setBenched x).book = s.book := rfl
@[simp] theorem State.learned_setBenched (x : List (Nat × Nat)) : (s.setBenched x).learned = s.learned := rfl
@[simp] theorem State.benched_setBenched (x : List (Nat × Nat)) : (s.setBenched x).benched = x := rfl
@[simp] theorem State.cores_setBenched (x : List (Nat × Nat)) : (s.setBenched x).cores = s.cores := rfl
@[simp] theorem State.sync_setBenched (x : List (Nat × Nat)) : (s.setBenched x).sync = s.sync := rfl
@[simp] theorem State.waitOrder_setBenched (x : List (Nat × Nat)) : (s.setBenched x).waitOrder = s.waitOrder := rfl
@[simp] theorem State.signals_setBenched (x : List (Nat × Nat)) : (s.setBenched x).signals = s.signals := rfl
@[simp] theorem State.dispatch_setBenched (x : List (Nat × Nat)) : (s.setBenched x).dispatch = s.dispatch := rfl
@[simp] theorem State.segOrder_setBenched (x : List (Nat × Nat)) : (s.setBenched x).segOrder = s.segOrder := rfl
@[simp] theorem State.streams_setBenched (x : List (Nat × Nat)) : (s.setBenched x).streams = s.streams := rfl
@[simp] theorem State.rings_setBenched (x : List (Nat × Nat)) : (s.setBenched x).rings = s.rings := rfl
@[simp] theorem State.heads_setBenched (x : List (Nat × Nat)) : (s.setBenched x).heads = s.heads := rfl
@[simp] theorem State.haltAt_setBenched (x : List (Nat × Nat)) : (s.setBenched x).haltAt = s.haltAt := rfl
@[simp] theorem State.heldHeads_setBenched (x : List (Nat × Nat)) : (s.setBenched x).heldHeads = s.heldHeads := rfl
@[simp] theorem State.queues_setBenched (x : List (Nat × Nat)) : (s.setBenched x).queues = s.queues := rfl
@[simp] theorem State.atsOn_setBenched (x : List (Nat × Nat)) : (s.setBenched x).atsOn = s.atsOn := rfl
@[simp] theorem State.atc_setBenched (x : List (Nat × Nat)) : (s.setBenched x).atc = s.atc := rfl
@[simp] theorem State.lowPower_setBenched (x : List (Nat × Nat)) : (s.setBenched x).lowPower = s.lowPower := rfl
@[simp] theorem State.flags_setBenched (x : List (Nat × Nat)) : (s.setBenched x).flags = s.flags := rfl
@[simp] theorem State.out_setBenched (x : List (Nat × Nat)) : (s.setBenched x).out = s.out := rfl
@[simp] theorem State.events_setBenched (x : List (Nat × Nat)) : (s.setBenched x).events = s.events := rfl
@[simp] theorem State.bad_setBenched (x : List (Nat × Nat)) : (s.setBenched x).bad = s.bad := rfl
@[simp] theorem State.poison_setBenched (x : List (Nat × Nat)) : (s.setBenched x).poison = s.poison := rfl
@[simp] theorem State.cache_setBenched (x : List (Nat × Nat)) : (s.setBenched x).cache = s.cache := rfl
@[simp] theorem State.watch_setBenched (x : List (Nat × Nat)) : (s.setBenched x).watch = s.watch := rfl
@[simp] theorem State.flash_setBenched (x : List (Nat × Nat)) : (s.setBenched x).flash = s.flash := rfl
@[simp] theorem State.flashDown_setBenched (x : List (Nat × Nat)) : (s.setBenched x).flashDown = s.flashDown := rfl
@[simp] theorem State.ports_setBenched (x : List (Nat × Nat)) : (s.setBenched x).ports = s.ports := rfl
@[simp] theorem State.inbox_setBenched (x : List (Nat × Nat)) : (s.setBenched x).inbox = s.inbox := rfl
@[simp] theorem State.fellows_setBenched (x : List (Nat × Nat)) : (s.setBenched x).fellows = s.fellows := rfl
@[simp] theorem State.pfc_setBenched (x : List (Nat × Nat)) : (s.setBenched x).pfc = s.pfc := rfl
@[simp] theorem State.reqs_setBenched (x : List (Nat × Nat)) : (s.setBenched x).reqs = s.reqs := rfl
@[simp] theorem State.serial_setBenched (x : List (Nat × Nat)) : (s.setBenched x).serial = s.serial := rfl
@[simp] theorem State.tag_setBenched (x : List (Nat × Nat)) : (s.setBenched x).tag = s.tag := rfl
@[simp] theorem State.chans_setBenched (x : List (Nat × Nat)) : (s.setBenched x).chans = s.chans := rfl
@[simp] theorem State.feeds_setBenched (x : List (Nat × Nat)) : (s.setBenched x).feeds = s.feeds := rfl
@[simp] theorem State.fences_setBenched (x : List (Nat × Nat)) : (s.setBenched x).fences = s.fences := rfl
@[simp] theorem State.recoveries_setBenched (x : List (Nat × Nat)) : (s.setBenched x).recoveries = s.recoveries := rfl
@[simp] theorem State.gviews_setBenched (x : List (Nat × Nat)) : (s.setBenched x).gviews = s.gviews := rfl
@[simp] theorem State.reds_setBenched (x : List (Nat × Nat)) : (s.setBenched x).reds = s.reds := rfl
@[simp] theorem State.redSeq_setBenched (x : List (Nat × Nat)) : (s.setBenched x).redSeq = s.redSeq := rfl
@[simp] theorem State.redRings_setBenched (x : List (Nat × Nat)) : (s.setBenched x).redRings = s.redRings := rfl
@[simp] theorem State.jobs_setBenched (x : List (Nat × Nat)) : (s.setBenched x).jobs = s.jobs := rfl
@[simp] theorem State.traceBufs_setBenched (x : List (Nat × Nat)) : (s.setBenched x).traceBufs = s.traceBufs := rfl
@[simp] theorem State.traceTurn_setBenched (x : List (Nat × Nat)) : (s.setBenched x).traceTurn = s.traceTurn := rfl
@[simp] theorem State.dm_setBenched (x : List (Nat × Nat)) : (s.setBenched x).dm = s.dm := rfl
@[simp] theorem State.posted_setBenched (x : List (Nat × Nat)) : (s.setBenched x).posted = s.posted := rfl
@[simp] theorem State.referee_setBenched (x : List (Nat × Nat)) : (s.setBenched x).referee = s.referee := rfl
@[simp] theorem State.power_setBenched (x : List (Nat × Nat)) : (s.setBenched x).power = s.power := rfl
@[simp] theorem State.freeCount_setBenched (x : List (Nat × Nat)) : (s.setBenched x).freeCount = s.freeCount := rfl
@[simp] theorem State.lines_setBenched (x : List (Nat × Nat)) : (s.setBenched x).lines = s.lines := rfl
@[simp] theorem State.hartCsr_setBenched (x : List (Nat × Nat)) : (s.setBenched x).hartCsr = s.hartCsr := rfl
@[simp] theorem State.msix_setBenched (x : List (Nat × Nat)) : (s.setBenched x).msix = s.msix := rfl
@[simp] theorem State.msixCtl_setBenched (x : List (Nat × Nat)) : (s.setBenched x).msixCtl = s.msixCtl := rfl
@[simp] theorem State.hartFull_setBenched (x : List (Nat × Nat)) : (s.setBenched x).hartFull = s.hartFull := rfl
@[simp] theorem State.pending_setSync (x : List (Nat × SyncObj)) : (s.setSync x).pending = s.pending := rfl
@[simp] theorem State.dtime_setSync (x : List (Nat × SyncObj)) : (s.setSync x).dtime = s.dtime := rfl
@[simp] theorem State.regs_setSync (x : List (Nat × SyncObj)) : (s.setSync x).regs = s.regs := rfl
@[simp] theorem State.mem_setSync (x : List (Nat × SyncObj)) : (s.setSync x).mem = s.mem := rfl
@[simp] theorem State.hostMem_setSync (x : List (Nat × SyncObj)) : (s.setSync x).hostMem = s.hostMem := rfl
@[simp] theorem State.book_setSync (x : List (Nat × SyncObj)) : (s.setSync x).book = s.book := rfl
@[simp] theorem State.learned_setSync (x : List (Nat × SyncObj)) : (s.setSync x).learned = s.learned := rfl
@[simp] theorem State.benched_setSync (x : List (Nat × SyncObj)) : (s.setSync x).benched = s.benched := rfl
@[simp] theorem State.cores_setSync (x : List (Nat × SyncObj)) : (s.setSync x).cores = s.cores := rfl
@[simp] theorem State.sync_setSync (x : List (Nat × SyncObj)) : (s.setSync x).sync = x := rfl
@[simp] theorem State.waitOrder_setSync (x : List (Nat × SyncObj)) : (s.setSync x).waitOrder = s.waitOrder := rfl
@[simp] theorem State.signals_setSync (x : List (Nat × SyncObj)) : (s.setSync x).signals = s.signals := rfl
@[simp] theorem State.dispatch_setSync (x : List (Nat × SyncObj)) : (s.setSync x).dispatch = s.dispatch := rfl
@[simp] theorem State.segOrder_setSync (x : List (Nat × SyncObj)) : (s.setSync x).segOrder = s.segOrder := rfl
@[simp] theorem State.streams_setSync (x : List (Nat × SyncObj)) : (s.setSync x).streams = s.streams := rfl
@[simp] theorem State.rings_setSync (x : List (Nat × SyncObj)) : (s.setSync x).rings = s.rings := rfl
@[simp] theorem State.heads_setSync (x : List (Nat × SyncObj)) : (s.setSync x).heads = s.heads := rfl
@[simp] theorem State.haltAt_setSync (x : List (Nat × SyncObj)) : (s.setSync x).haltAt = s.haltAt := rfl
@[simp] theorem State.heldHeads_setSync (x : List (Nat × SyncObj)) : (s.setSync x).heldHeads = s.heldHeads := rfl
@[simp] theorem State.queues_setSync (x : List (Nat × SyncObj)) : (s.setSync x).queues = s.queues := rfl
@[simp] theorem State.atsOn_setSync (x : List (Nat × SyncObj)) : (s.setSync x).atsOn = s.atsOn := rfl
@[simp] theorem State.atc_setSync (x : List (Nat × SyncObj)) : (s.setSync x).atc = s.atc := rfl
@[simp] theorem State.lowPower_setSync (x : List (Nat × SyncObj)) : (s.setSync x).lowPower = s.lowPower := rfl
@[simp] theorem State.flags_setSync (x : List (Nat × SyncObj)) : (s.setSync x).flags = s.flags := rfl
@[simp] theorem State.out_setSync (x : List (Nat × SyncObj)) : (s.setSync x).out = s.out := rfl
@[simp] theorem State.events_setSync (x : List (Nat × SyncObj)) : (s.setSync x).events = s.events := rfl
@[simp] theorem State.bad_setSync (x : List (Nat × SyncObj)) : (s.setSync x).bad = s.bad := rfl
@[simp] theorem State.poison_setSync (x : List (Nat × SyncObj)) : (s.setSync x).poison = s.poison := rfl
@[simp] theorem State.cache_setSync (x : List (Nat × SyncObj)) : (s.setSync x).cache = s.cache := rfl
@[simp] theorem State.watch_setSync (x : List (Nat × SyncObj)) : (s.setSync x).watch = s.watch := rfl
@[simp] theorem State.flash_setSync (x : List (Nat × SyncObj)) : (s.setSync x).flash = s.flash := rfl
@[simp] theorem State.flashDown_setSync (x : List (Nat × SyncObj)) : (s.setSync x).flashDown = s.flashDown := rfl
@[simp] theorem State.ports_setSync (x : List (Nat × SyncObj)) : (s.setSync x).ports = s.ports := rfl
@[simp] theorem State.inbox_setSync (x : List (Nat × SyncObj)) : (s.setSync x).inbox = s.inbox := rfl
@[simp] theorem State.fellows_setSync (x : List (Nat × SyncObj)) : (s.setSync x).fellows = s.fellows := rfl
@[simp] theorem State.pfc_setSync (x : List (Nat × SyncObj)) : (s.setSync x).pfc = s.pfc := rfl
@[simp] theorem State.reqs_setSync (x : List (Nat × SyncObj)) : (s.setSync x).reqs = s.reqs := rfl
@[simp] theorem State.serial_setSync (x : List (Nat × SyncObj)) : (s.setSync x).serial = s.serial := rfl
@[simp] theorem State.tag_setSync (x : List (Nat × SyncObj)) : (s.setSync x).tag = s.tag := rfl
@[simp] theorem State.chans_setSync (x : List (Nat × SyncObj)) : (s.setSync x).chans = s.chans := rfl
@[simp] theorem State.feeds_setSync (x : List (Nat × SyncObj)) : (s.setSync x).feeds = s.feeds := rfl
@[simp] theorem State.fences_setSync (x : List (Nat × SyncObj)) : (s.setSync x).fences = s.fences := rfl
@[simp] theorem State.recoveries_setSync (x : List (Nat × SyncObj)) : (s.setSync x).recoveries = s.recoveries := rfl
@[simp] theorem State.gviews_setSync (x : List (Nat × SyncObj)) : (s.setSync x).gviews = s.gviews := rfl
@[simp] theorem State.reds_setSync (x : List (Nat × SyncObj)) : (s.setSync x).reds = s.reds := rfl
@[simp] theorem State.redSeq_setSync (x : List (Nat × SyncObj)) : (s.setSync x).redSeq = s.redSeq := rfl
@[simp] theorem State.redRings_setSync (x : List (Nat × SyncObj)) : (s.setSync x).redRings = s.redRings := rfl
@[simp] theorem State.jobs_setSync (x : List (Nat × SyncObj)) : (s.setSync x).jobs = s.jobs := rfl
@[simp] theorem State.traceBufs_setSync (x : List (Nat × SyncObj)) : (s.setSync x).traceBufs = s.traceBufs := rfl
@[simp] theorem State.traceTurn_setSync (x : List (Nat × SyncObj)) : (s.setSync x).traceTurn = s.traceTurn := rfl
@[simp] theorem State.dm_setSync (x : List (Nat × SyncObj)) : (s.setSync x).dm = s.dm := rfl
@[simp] theorem State.posted_setSync (x : List (Nat × SyncObj)) : (s.setSync x).posted = s.posted := rfl
@[simp] theorem State.referee_setSync (x : List (Nat × SyncObj)) : (s.setSync x).referee = s.referee := rfl
@[simp] theorem State.power_setSync (x : List (Nat × SyncObj)) : (s.setSync x).power = s.power := rfl
@[simp] theorem State.freeCount_setSync (x : List (Nat × SyncObj)) : (s.setSync x).freeCount = s.freeCount := rfl
@[simp] theorem State.lines_setSync (x : List (Nat × SyncObj)) : (s.setSync x).lines = s.lines := rfl
@[simp] theorem State.hartCsr_setSync (x : List (Nat × SyncObj)) : (s.setSync x).hartCsr = s.hartCsr := rfl
@[simp] theorem State.msix_setSync (x : List (Nat × SyncObj)) : (s.setSync x).msix = s.msix := rfl
@[simp] theorem State.msixCtl_setSync (x : List (Nat × SyncObj)) : (s.setSync x).msixCtl = s.msixCtl := rfl
@[simp] theorem State.hartFull_setSync (x : List (Nat × SyncObj)) : (s.setSync x).hartFull = s.hartFull := rfl
@[simp] theorem State.pending_setWaitOrder (x : Nat) : (s.setWaitOrder x).pending = s.pending := rfl
@[simp] theorem State.dtime_setWaitOrder (x : Nat) : (s.setWaitOrder x).dtime = s.dtime := rfl
@[simp] theorem State.regs_setWaitOrder (x : Nat) : (s.setWaitOrder x).regs = s.regs := rfl
@[simp] theorem State.mem_setWaitOrder (x : Nat) : (s.setWaitOrder x).mem = s.mem := rfl
@[simp] theorem State.hostMem_setWaitOrder (x : Nat) : (s.setWaitOrder x).hostMem = s.hostMem := rfl
@[simp] theorem State.book_setWaitOrder (x : Nat) : (s.setWaitOrder x).book = s.book := rfl
@[simp] theorem State.learned_setWaitOrder (x : Nat) : (s.setWaitOrder x).learned = s.learned := rfl
@[simp] theorem State.benched_setWaitOrder (x : Nat) : (s.setWaitOrder x).benched = s.benched := rfl
@[simp] theorem State.cores_setWaitOrder (x : Nat) : (s.setWaitOrder x).cores = s.cores := rfl
@[simp] theorem State.sync_setWaitOrder (x : Nat) : (s.setWaitOrder x).sync = s.sync := rfl
@[simp] theorem State.waitOrder_setWaitOrder (x : Nat) : (s.setWaitOrder x).waitOrder = x := rfl
@[simp] theorem State.signals_setWaitOrder (x : Nat) : (s.setWaitOrder x).signals = s.signals := rfl
@[simp] theorem State.dispatch_setWaitOrder (x : Nat) : (s.setWaitOrder x).dispatch = s.dispatch := rfl
@[simp] theorem State.segOrder_setWaitOrder (x : Nat) : (s.setWaitOrder x).segOrder = s.segOrder := rfl
@[simp] theorem State.streams_setWaitOrder (x : Nat) : (s.setWaitOrder x).streams = s.streams := rfl
@[simp] theorem State.rings_setWaitOrder (x : Nat) : (s.setWaitOrder x).rings = s.rings := rfl
@[simp] theorem State.heads_setWaitOrder (x : Nat) : (s.setWaitOrder x).heads = s.heads := rfl
@[simp] theorem State.haltAt_setWaitOrder (x : Nat) : (s.setWaitOrder x).haltAt = s.haltAt := rfl
@[simp] theorem State.heldHeads_setWaitOrder (x : Nat) : (s.setWaitOrder x).heldHeads = s.heldHeads := rfl
@[simp] theorem State.queues_setWaitOrder (x : Nat) : (s.setWaitOrder x).queues = s.queues := rfl
@[simp] theorem State.atsOn_setWaitOrder (x : Nat) : (s.setWaitOrder x).atsOn = s.atsOn := rfl
@[simp] theorem State.atc_setWaitOrder (x : Nat) : (s.setWaitOrder x).atc = s.atc := rfl
@[simp] theorem State.lowPower_setWaitOrder (x : Nat) : (s.setWaitOrder x).lowPower = s.lowPower := rfl
@[simp] theorem State.flags_setWaitOrder (x : Nat) : (s.setWaitOrder x).flags = s.flags := rfl
@[simp] theorem State.out_setWaitOrder (x : Nat) : (s.setWaitOrder x).out = s.out := rfl
@[simp] theorem State.events_setWaitOrder (x : Nat) : (s.setWaitOrder x).events = s.events := rfl
@[simp] theorem State.bad_setWaitOrder (x : Nat) : (s.setWaitOrder x).bad = s.bad := rfl
@[simp] theorem State.poison_setWaitOrder (x : Nat) : (s.setWaitOrder x).poison = s.poison := rfl
@[simp] theorem State.cache_setWaitOrder (x : Nat) : (s.setWaitOrder x).cache = s.cache := rfl
@[simp] theorem State.watch_setWaitOrder (x : Nat) : (s.setWaitOrder x).watch = s.watch := rfl
@[simp] theorem State.flash_setWaitOrder (x : Nat) : (s.setWaitOrder x).flash = s.flash := rfl
@[simp] theorem State.flashDown_setWaitOrder (x : Nat) : (s.setWaitOrder x).flashDown = s.flashDown := rfl
@[simp] theorem State.ports_setWaitOrder (x : Nat) : (s.setWaitOrder x).ports = s.ports := rfl
@[simp] theorem State.inbox_setWaitOrder (x : Nat) : (s.setWaitOrder x).inbox = s.inbox := rfl
@[simp] theorem State.fellows_setWaitOrder (x : Nat) : (s.setWaitOrder x).fellows = s.fellows := rfl
@[simp] theorem State.pfc_setWaitOrder (x : Nat) : (s.setWaitOrder x).pfc = s.pfc := rfl
@[simp] theorem State.reqs_setWaitOrder (x : Nat) : (s.setWaitOrder x).reqs = s.reqs := rfl
@[simp] theorem State.serial_setWaitOrder (x : Nat) : (s.setWaitOrder x).serial = s.serial := rfl
@[simp] theorem State.tag_setWaitOrder (x : Nat) : (s.setWaitOrder x).tag = s.tag := rfl
@[simp] theorem State.chans_setWaitOrder (x : Nat) : (s.setWaitOrder x).chans = s.chans := rfl
@[simp] theorem State.feeds_setWaitOrder (x : Nat) : (s.setWaitOrder x).feeds = s.feeds := rfl
@[simp] theorem State.fences_setWaitOrder (x : Nat) : (s.setWaitOrder x).fences = s.fences := rfl
@[simp] theorem State.recoveries_setWaitOrder (x : Nat) : (s.setWaitOrder x).recoveries = s.recoveries := rfl
@[simp] theorem State.gviews_setWaitOrder (x : Nat) : (s.setWaitOrder x).gviews = s.gviews := rfl
@[simp] theorem State.reds_setWaitOrder (x : Nat) : (s.setWaitOrder x).reds = s.reds := rfl
@[simp] theorem State.redSeq_setWaitOrder (x : Nat) : (s.setWaitOrder x).redSeq = s.redSeq := rfl
@[simp] theorem State.redRings_setWaitOrder (x : Nat) : (s.setWaitOrder x).redRings = s.redRings := rfl
@[simp] theorem State.jobs_setWaitOrder (x : Nat) : (s.setWaitOrder x).jobs = s.jobs := rfl
@[simp] theorem State.traceBufs_setWaitOrder (x : Nat) : (s.setWaitOrder x).traceBufs = s.traceBufs := rfl
@[simp] theorem State.traceTurn_setWaitOrder (x : Nat) : (s.setWaitOrder x).traceTurn = s.traceTurn := rfl
@[simp] theorem State.dm_setWaitOrder (x : Nat) : (s.setWaitOrder x).dm = s.dm := rfl
@[simp] theorem State.posted_setWaitOrder (x : Nat) : (s.setWaitOrder x).posted = s.posted := rfl
@[simp] theorem State.referee_setWaitOrder (x : Nat) : (s.setWaitOrder x).referee = s.referee := rfl
@[simp] theorem State.power_setWaitOrder (x : Nat) : (s.setWaitOrder x).power = s.power := rfl
@[simp] theorem State.freeCount_setWaitOrder (x : Nat) : (s.setWaitOrder x).freeCount = s.freeCount := rfl
@[simp] theorem State.lines_setWaitOrder (x : Nat) : (s.setWaitOrder x).lines = s.lines := rfl
@[simp] theorem State.hartCsr_setWaitOrder (x : Nat) : (s.setWaitOrder x).hartCsr = s.hartCsr := rfl
@[simp] theorem State.msix_setWaitOrder (x : Nat) : (s.setWaitOrder x).msix = s.msix := rfl
@[simp] theorem State.msixCtl_setWaitOrder (x : Nat) : (s.setWaitOrder x).msixCtl = s.msixCtl := rfl
@[simp] theorem State.hartFull_setWaitOrder (x : Nat) : (s.setWaitOrder x).hartFull = s.hartFull := rfl
@[simp] theorem State.pending_setSignals (x : List Signal) : (s.setSignals x).pending = s.pending := rfl
@[simp] theorem State.dtime_setSignals (x : List Signal) : (s.setSignals x).dtime = s.dtime := rfl
@[simp] theorem State.regs_setSignals (x : List Signal) : (s.setSignals x).regs = s.regs := rfl
@[simp] theorem State.mem_setSignals (x : List Signal) : (s.setSignals x).mem = s.mem := rfl
@[simp] theorem State.hostMem_setSignals (x : List Signal) : (s.setSignals x).hostMem = s.hostMem := rfl
@[simp] theorem State.book_setSignals (x : List Signal) : (s.setSignals x).book = s.book := rfl
@[simp] theorem State.learned_setSignals (x : List Signal) : (s.setSignals x).learned = s.learned := rfl
@[simp] theorem State.benched_setSignals (x : List Signal) : (s.setSignals x).benched = s.benched := rfl
@[simp] theorem State.cores_setSignals (x : List Signal) : (s.setSignals x).cores = s.cores := rfl
@[simp] theorem State.sync_setSignals (x : List Signal) : (s.setSignals x).sync = s.sync := rfl
@[simp] theorem State.waitOrder_setSignals (x : List Signal) : (s.setSignals x).waitOrder = s.waitOrder := rfl
@[simp] theorem State.signals_setSignals (x : List Signal) : (s.setSignals x).signals = x := rfl
@[simp] theorem State.dispatch_setSignals (x : List Signal) : (s.setSignals x).dispatch = s.dispatch := rfl
@[simp] theorem State.segOrder_setSignals (x : List Signal) : (s.setSignals x).segOrder = s.segOrder := rfl
@[simp] theorem State.streams_setSignals (x : List Signal) : (s.setSignals x).streams = s.streams := rfl
@[simp] theorem State.rings_setSignals (x : List Signal) : (s.setSignals x).rings = s.rings := rfl
@[simp] theorem State.heads_setSignals (x : List Signal) : (s.setSignals x).heads = s.heads := rfl
@[simp] theorem State.haltAt_setSignals (x : List Signal) : (s.setSignals x).haltAt = s.haltAt := rfl
@[simp] theorem State.heldHeads_setSignals (x : List Signal) : (s.setSignals x).heldHeads = s.heldHeads := rfl
@[simp] theorem State.queues_setSignals (x : List Signal) : (s.setSignals x).queues = s.queues := rfl
@[simp] theorem State.atsOn_setSignals (x : List Signal) : (s.setSignals x).atsOn = s.atsOn := rfl
@[simp] theorem State.atc_setSignals (x : List Signal) : (s.setSignals x).atc = s.atc := rfl
@[simp] theorem State.lowPower_setSignals (x : List Signal) : (s.setSignals x).lowPower = s.lowPower := rfl
@[simp] theorem State.flags_setSignals (x : List Signal) : (s.setSignals x).flags = s.flags := rfl
@[simp] theorem State.out_setSignals (x : List Signal) : (s.setSignals x).out = s.out := rfl
@[simp] theorem State.events_setSignals (x : List Signal) : (s.setSignals x).events = s.events := rfl
@[simp] theorem State.bad_setSignals (x : List Signal) : (s.setSignals x).bad = s.bad := rfl
@[simp] theorem State.poison_setSignals (x : List Signal) : (s.setSignals x).poison = s.poison := rfl
@[simp] theorem State.cache_setSignals (x : List Signal) : (s.setSignals x).cache = s.cache := rfl
@[simp] theorem State.watch_setSignals (x : List Signal) : (s.setSignals x).watch = s.watch := rfl
@[simp] theorem State.flash_setSignals (x : List Signal) : (s.setSignals x).flash = s.flash := rfl
@[simp] theorem State.flashDown_setSignals (x : List Signal) : (s.setSignals x).flashDown = s.flashDown := rfl
@[simp] theorem State.ports_setSignals (x : List Signal) : (s.setSignals x).ports = s.ports := rfl
@[simp] theorem State.inbox_setSignals (x : List Signal) : (s.setSignals x).inbox = s.inbox := rfl
@[simp] theorem State.fellows_setSignals (x : List Signal) : (s.setSignals x).fellows = s.fellows := rfl
@[simp] theorem State.pfc_setSignals (x : List Signal) : (s.setSignals x).pfc = s.pfc := rfl
@[simp] theorem State.reqs_setSignals (x : List Signal) : (s.setSignals x).reqs = s.reqs := rfl
@[simp] theorem State.serial_setSignals (x : List Signal) : (s.setSignals x).serial = s.serial := rfl
@[simp] theorem State.tag_setSignals (x : List Signal) : (s.setSignals x).tag = s.tag := rfl
@[simp] theorem State.chans_setSignals (x : List Signal) : (s.setSignals x).chans = s.chans := rfl
@[simp] theorem State.feeds_setSignals (x : List Signal) : (s.setSignals x).feeds = s.feeds := rfl
@[simp] theorem State.fences_setSignals (x : List Signal) : (s.setSignals x).fences = s.fences := rfl
@[simp] theorem State.recoveries_setSignals (x : List Signal) : (s.setSignals x).recoveries = s.recoveries := rfl
@[simp] theorem State.gviews_setSignals (x : List Signal) : (s.setSignals x).gviews = s.gviews := rfl
@[simp] theorem State.reds_setSignals (x : List Signal) : (s.setSignals x).reds = s.reds := rfl
@[simp] theorem State.redSeq_setSignals (x : List Signal) : (s.setSignals x).redSeq = s.redSeq := rfl
@[simp] theorem State.redRings_setSignals (x : List Signal) : (s.setSignals x).redRings = s.redRings := rfl
@[simp] theorem State.jobs_setSignals (x : List Signal) : (s.setSignals x).jobs = s.jobs := rfl
@[simp] theorem State.traceBufs_setSignals (x : List Signal) : (s.setSignals x).traceBufs = s.traceBufs := rfl
@[simp] theorem State.traceTurn_setSignals (x : List Signal) : (s.setSignals x).traceTurn = s.traceTurn := rfl
@[simp] theorem State.dm_setSignals (x : List Signal) : (s.setSignals x).dm = s.dm := rfl
@[simp] theorem State.posted_setSignals (x : List Signal) : (s.setSignals x).posted = s.posted := rfl
@[simp] theorem State.referee_setSignals (x : List Signal) : (s.setSignals x).referee = s.referee := rfl
@[simp] theorem State.power_setSignals (x : List Signal) : (s.setSignals x).power = s.power := rfl
@[simp] theorem State.freeCount_setSignals (x : List Signal) : (s.setSignals x).freeCount = s.freeCount := rfl
@[simp] theorem State.lines_setSignals (x : List Signal) : (s.setSignals x).lines = s.lines := rfl
@[simp] theorem State.hartCsr_setSignals (x : List Signal) : (s.setSignals x).hartCsr = s.hartCsr := rfl
@[simp] theorem State.msix_setSignals (x : List Signal) : (s.setSignals x).msix = s.msix := rfl
@[simp] theorem State.msixCtl_setSignals (x : List Signal) : (s.setSignals x).msixCtl = s.msixCtl := rfl
@[simp] theorem State.hartFull_setSignals (x : List Signal) : (s.setSignals x).hartFull = s.hartFull := rfl
@[simp] theorem State.pending_setDispatch (x : List SegRec) : (s.setDispatch x).pending = s.pending := rfl
@[simp] theorem State.dtime_setDispatch (x : List SegRec) : (s.setDispatch x).dtime = s.dtime := rfl
@[simp] theorem State.regs_setDispatch (x : List SegRec) : (s.setDispatch x).regs = s.regs := rfl
@[simp] theorem State.mem_setDispatch (x : List SegRec) : (s.setDispatch x).mem = s.mem := rfl
@[simp] theorem State.hostMem_setDispatch (x : List SegRec) : (s.setDispatch x).hostMem = s.hostMem := rfl
@[simp] theorem State.book_setDispatch (x : List SegRec) : (s.setDispatch x).book = s.book := rfl
@[simp] theorem State.learned_setDispatch (x : List SegRec) : (s.setDispatch x).learned = s.learned := rfl
@[simp] theorem State.benched_setDispatch (x : List SegRec) : (s.setDispatch x).benched = s.benched := rfl
@[simp] theorem State.cores_setDispatch (x : List SegRec) : (s.setDispatch x).cores = s.cores := rfl
@[simp] theorem State.sync_setDispatch (x : List SegRec) : (s.setDispatch x).sync = s.sync := rfl
@[simp] theorem State.waitOrder_setDispatch (x : List SegRec) : (s.setDispatch x).waitOrder = s.waitOrder := rfl
@[simp] theorem State.signals_setDispatch (x : List SegRec) : (s.setDispatch x).signals = s.signals := rfl
@[simp] theorem State.dispatch_setDispatch (x : List SegRec) : (s.setDispatch x).dispatch = x := rfl
@[simp] theorem State.segOrder_setDispatch (x : List SegRec) : (s.setDispatch x).segOrder = s.segOrder := rfl
@[simp] theorem State.streams_setDispatch (x : List SegRec) : (s.setDispatch x).streams = s.streams := rfl
@[simp] theorem State.rings_setDispatch (x : List SegRec) : (s.setDispatch x).rings = s.rings := rfl
@[simp] theorem State.heads_setDispatch (x : List SegRec) : (s.setDispatch x).heads = s.heads := rfl
@[simp] theorem State.haltAt_setDispatch (x : List SegRec) : (s.setDispatch x).haltAt = s.haltAt := rfl
@[simp] theorem State.heldHeads_setDispatch (x : List SegRec) : (s.setDispatch x).heldHeads = s.heldHeads := rfl
@[simp] theorem State.queues_setDispatch (x : List SegRec) : (s.setDispatch x).queues = s.queues := rfl
@[simp] theorem State.atsOn_setDispatch (x : List SegRec) : (s.setDispatch x).atsOn = s.atsOn := rfl
@[simp] theorem State.atc_setDispatch (x : List SegRec) : (s.setDispatch x).atc = s.atc := rfl
@[simp] theorem State.lowPower_setDispatch (x : List SegRec) : (s.setDispatch x).lowPower = s.lowPower := rfl
@[simp] theorem State.flags_setDispatch (x : List SegRec) : (s.setDispatch x).flags = s.flags := rfl
@[simp] theorem State.out_setDispatch (x : List SegRec) : (s.setDispatch x).out = s.out := rfl
@[simp] theorem State.events_setDispatch (x : List SegRec) : (s.setDispatch x).events = s.events := rfl
@[simp] theorem State.bad_setDispatch (x : List SegRec) : (s.setDispatch x).bad = s.bad := rfl
@[simp] theorem State.poison_setDispatch (x : List SegRec) : (s.setDispatch x).poison = s.poison := rfl
@[simp] theorem State.cache_setDispatch (x : List SegRec) : (s.setDispatch x).cache = s.cache := rfl
@[simp] theorem State.watch_setDispatch (x : List SegRec) : (s.setDispatch x).watch = s.watch := rfl
@[simp] theorem State.flash_setDispatch (x : List SegRec) : (s.setDispatch x).flash = s.flash := rfl
@[simp] theorem State.flashDown_setDispatch (x : List SegRec) : (s.setDispatch x).flashDown = s.flashDown := rfl
@[simp] theorem State.ports_setDispatch (x : List SegRec) : (s.setDispatch x).ports = s.ports := rfl
@[simp] theorem State.inbox_setDispatch (x : List SegRec) : (s.setDispatch x).inbox = s.inbox := rfl
@[simp] theorem State.fellows_setDispatch (x : List SegRec) : (s.setDispatch x).fellows = s.fellows := rfl
@[simp] theorem State.pfc_setDispatch (x : List SegRec) : (s.setDispatch x).pfc = s.pfc := rfl
@[simp] theorem State.reqs_setDispatch (x : List SegRec) : (s.setDispatch x).reqs = s.reqs := rfl
@[simp] theorem State.serial_setDispatch (x : List SegRec) : (s.setDispatch x).serial = s.serial := rfl
@[simp] theorem State.tag_setDispatch (x : List SegRec) : (s.setDispatch x).tag = s.tag := rfl
@[simp] theorem State.chans_setDispatch (x : List SegRec) : (s.setDispatch x).chans = s.chans := rfl
@[simp] theorem State.feeds_setDispatch (x : List SegRec) : (s.setDispatch x).feeds = s.feeds := rfl
@[simp] theorem State.fences_setDispatch (x : List SegRec) : (s.setDispatch x).fences = s.fences := rfl
@[simp] theorem State.recoveries_setDispatch (x : List SegRec) : (s.setDispatch x).recoveries = s.recoveries := rfl
@[simp] theorem State.gviews_setDispatch (x : List SegRec) : (s.setDispatch x).gviews = s.gviews := rfl
@[simp] theorem State.reds_setDispatch (x : List SegRec) : (s.setDispatch x).reds = s.reds := rfl
@[simp] theorem State.redSeq_setDispatch (x : List SegRec) : (s.setDispatch x).redSeq = s.redSeq := rfl
@[simp] theorem State.redRings_setDispatch (x : List SegRec) : (s.setDispatch x).redRings = s.redRings := rfl
@[simp] theorem State.jobs_setDispatch (x : List SegRec) : (s.setDispatch x).jobs = s.jobs := rfl
@[simp] theorem State.traceBufs_setDispatch (x : List SegRec) : (s.setDispatch x).traceBufs = s.traceBufs := rfl
@[simp] theorem State.traceTurn_setDispatch (x : List SegRec) : (s.setDispatch x).traceTurn = s.traceTurn := rfl
@[simp] theorem State.dm_setDispatch (x : List SegRec) : (s.setDispatch x).dm = s.dm := rfl
@[simp] theorem State.posted_setDispatch (x : List SegRec) : (s.setDispatch x).posted = s.posted := rfl
@[simp] theorem State.referee_setDispatch (x : List SegRec) : (s.setDispatch x).referee = s.referee := rfl
@[simp] theorem State.power_setDispatch (x : List SegRec) : (s.setDispatch x).power = s.power := rfl
@[simp] theorem State.freeCount_setDispatch (x : List SegRec) : (s.setDispatch x).freeCount = s.freeCount := rfl
@[simp] theorem State.lines_setDispatch (x : List SegRec) : (s.setDispatch x).lines = s.lines := rfl
@[simp] theorem State.hartCsr_setDispatch (x : List SegRec) : (s.setDispatch x).hartCsr = s.hartCsr := rfl
@[simp] theorem State.msix_setDispatch (x : List SegRec) : (s.setDispatch x).msix = s.msix := rfl
@[simp] theorem State.msixCtl_setDispatch (x : List SegRec) : (s.setDispatch x).msixCtl = s.msixCtl := rfl
@[simp] theorem State.hartFull_setDispatch (x : List SegRec) : (s.setDispatch x).hartFull = s.hartFull := rfl
@[simp] theorem State.pending_setSegOrder (x : Nat) : (s.setSegOrder x).pending = s.pending := rfl
@[simp] theorem State.dtime_setSegOrder (x : Nat) : (s.setSegOrder x).dtime = s.dtime := rfl
@[simp] theorem State.regs_setSegOrder (x : Nat) : (s.setSegOrder x).regs = s.regs := rfl
@[simp] theorem State.mem_setSegOrder (x : Nat) : (s.setSegOrder x).mem = s.mem := rfl
@[simp] theorem State.hostMem_setSegOrder (x : Nat) : (s.setSegOrder x).hostMem = s.hostMem := rfl
@[simp] theorem State.book_setSegOrder (x : Nat) : (s.setSegOrder x).book = s.book := rfl
@[simp] theorem State.learned_setSegOrder (x : Nat) : (s.setSegOrder x).learned = s.learned := rfl
@[simp] theorem State.benched_setSegOrder (x : Nat) : (s.setSegOrder x).benched = s.benched := rfl
@[simp] theorem State.cores_setSegOrder (x : Nat) : (s.setSegOrder x).cores = s.cores := rfl
@[simp] theorem State.sync_setSegOrder (x : Nat) : (s.setSegOrder x).sync = s.sync := rfl
@[simp] theorem State.waitOrder_setSegOrder (x : Nat) : (s.setSegOrder x).waitOrder = s.waitOrder := rfl
@[simp] theorem State.signals_setSegOrder (x : Nat) : (s.setSegOrder x).signals = s.signals := rfl
@[simp] theorem State.dispatch_setSegOrder (x : Nat) : (s.setSegOrder x).dispatch = s.dispatch := rfl
@[simp] theorem State.segOrder_setSegOrder (x : Nat) : (s.setSegOrder x).segOrder = x := rfl
@[simp] theorem State.streams_setSegOrder (x : Nat) : (s.setSegOrder x).streams = s.streams := rfl
@[simp] theorem State.rings_setSegOrder (x : Nat) : (s.setSegOrder x).rings = s.rings := rfl
@[simp] theorem State.heads_setSegOrder (x : Nat) : (s.setSegOrder x).heads = s.heads := rfl
@[simp] theorem State.haltAt_setSegOrder (x : Nat) : (s.setSegOrder x).haltAt = s.haltAt := rfl
@[simp] theorem State.heldHeads_setSegOrder (x : Nat) : (s.setSegOrder x).heldHeads = s.heldHeads := rfl
@[simp] theorem State.queues_setSegOrder (x : Nat) : (s.setSegOrder x).queues = s.queues := rfl
@[simp] theorem State.atsOn_setSegOrder (x : Nat) : (s.setSegOrder x).atsOn = s.atsOn := rfl
@[simp] theorem State.atc_setSegOrder (x : Nat) : (s.setSegOrder x).atc = s.atc := rfl
@[simp] theorem State.lowPower_setSegOrder (x : Nat) : (s.setSegOrder x).lowPower = s.lowPower := rfl
@[simp] theorem State.flags_setSegOrder (x : Nat) : (s.setSegOrder x).flags = s.flags := rfl
@[simp] theorem State.out_setSegOrder (x : Nat) : (s.setSegOrder x).out = s.out := rfl
@[simp] theorem State.events_setSegOrder (x : Nat) : (s.setSegOrder x).events = s.events := rfl
@[simp] theorem State.bad_setSegOrder (x : Nat) : (s.setSegOrder x).bad = s.bad := rfl
@[simp] theorem State.poison_setSegOrder (x : Nat) : (s.setSegOrder x).poison = s.poison := rfl
@[simp] theorem State.cache_setSegOrder (x : Nat) : (s.setSegOrder x).cache = s.cache := rfl
@[simp] theorem State.watch_setSegOrder (x : Nat) : (s.setSegOrder x).watch = s.watch := rfl
@[simp] theorem State.flash_setSegOrder (x : Nat) : (s.setSegOrder x).flash = s.flash := rfl
@[simp] theorem State.flashDown_setSegOrder (x : Nat) : (s.setSegOrder x).flashDown = s.flashDown := rfl
@[simp] theorem State.ports_setSegOrder (x : Nat) : (s.setSegOrder x).ports = s.ports := rfl
@[simp] theorem State.inbox_setSegOrder (x : Nat) : (s.setSegOrder x).inbox = s.inbox := rfl
@[simp] theorem State.fellows_setSegOrder (x : Nat) : (s.setSegOrder x).fellows = s.fellows := rfl
@[simp] theorem State.pfc_setSegOrder (x : Nat) : (s.setSegOrder x).pfc = s.pfc := rfl
@[simp] theorem State.reqs_setSegOrder (x : Nat) : (s.setSegOrder x).reqs = s.reqs := rfl
@[simp] theorem State.serial_setSegOrder (x : Nat) : (s.setSegOrder x).serial = s.serial := rfl
@[simp] theorem State.tag_setSegOrder (x : Nat) : (s.setSegOrder x).tag = s.tag := rfl
@[simp] theorem State.chans_setSegOrder (x : Nat) : (s.setSegOrder x).chans = s.chans := rfl
@[simp] theorem State.feeds_setSegOrder (x : Nat) : (s.setSegOrder x).feeds = s.feeds := rfl
@[simp] theorem State.fences_setSegOrder (x : Nat) : (s.setSegOrder x).fences = s.fences := rfl
@[simp] theorem State.recoveries_setSegOrder (x : Nat) : (s.setSegOrder x).recoveries = s.recoveries := rfl
@[simp] theorem State.gviews_setSegOrder (x : Nat) : (s.setSegOrder x).gviews = s.gviews := rfl
@[simp] theorem State.reds_setSegOrder (x : Nat) : (s.setSegOrder x).reds = s.reds := rfl
@[simp] theorem State.redSeq_setSegOrder (x : Nat) : (s.setSegOrder x).redSeq = s.redSeq := rfl
@[simp] theorem State.redRings_setSegOrder (x : Nat) : (s.setSegOrder x).redRings = s.redRings := rfl
@[simp] theorem State.jobs_setSegOrder (x : Nat) : (s.setSegOrder x).jobs = s.jobs := rfl
@[simp] theorem State.traceBufs_setSegOrder (x : Nat) : (s.setSegOrder x).traceBufs = s.traceBufs := rfl
@[simp] theorem State.traceTurn_setSegOrder (x : Nat) : (s.setSegOrder x).traceTurn = s.traceTurn := rfl
@[simp] theorem State.dm_setSegOrder (x : Nat) : (s.setSegOrder x).dm = s.dm := rfl
@[simp] theorem State.posted_setSegOrder (x : Nat) : (s.setSegOrder x).posted = s.posted := rfl
@[simp] theorem State.referee_setSegOrder (x : Nat) : (s.setSegOrder x).referee = s.referee := rfl
@[simp] theorem State.power_setSegOrder (x : Nat) : (s.setSegOrder x).power = s.power := rfl
@[simp] theorem State.freeCount_setSegOrder (x : Nat) : (s.setSegOrder x).freeCount = s.freeCount := rfl
@[simp] theorem State.lines_setSegOrder (x : Nat) : (s.setSegOrder x).lines = s.lines := rfl
@[simp] theorem State.hartCsr_setSegOrder (x : Nat) : (s.setSegOrder x).hartCsr = s.hartCsr := rfl
@[simp] theorem State.msix_setSegOrder (x : Nat) : (s.setSegOrder x).msix = s.msix := rfl
@[simp] theorem State.msixCtl_setSegOrder (x : Nat) : (s.setSegOrder x).msixCtl = s.msixCtl := rfl
@[simp] theorem State.hartFull_setSegOrder (x : Nat) : (s.setSegOrder x).hartFull = s.hartFull := rfl
@[simp] theorem State.pending_setStreams (x : List (Nat × Stream)) : (s.setStreams x).pending = s.pending := rfl
@[simp] theorem State.dtime_setStreams (x : List (Nat × Stream)) : (s.setStreams x).dtime = s.dtime := rfl
@[simp] theorem State.regs_setStreams (x : List (Nat × Stream)) : (s.setStreams x).regs = s.regs := rfl
@[simp] theorem State.mem_setStreams (x : List (Nat × Stream)) : (s.setStreams x).mem = s.mem := rfl
@[simp] theorem State.hostMem_setStreams (x : List (Nat × Stream)) : (s.setStreams x).hostMem = s.hostMem := rfl
@[simp] theorem State.book_setStreams (x : List (Nat × Stream)) : (s.setStreams x).book = s.book := rfl
@[simp] theorem State.learned_setStreams (x : List (Nat × Stream)) : (s.setStreams x).learned = s.learned := rfl
@[simp] theorem State.benched_setStreams (x : List (Nat × Stream)) : (s.setStreams x).benched = s.benched := rfl
@[simp] theorem State.cores_setStreams (x : List (Nat × Stream)) : (s.setStreams x).cores = s.cores := rfl
@[simp] theorem State.sync_setStreams (x : List (Nat × Stream)) : (s.setStreams x).sync = s.sync := rfl
@[simp] theorem State.waitOrder_setStreams (x : List (Nat × Stream)) : (s.setStreams x).waitOrder = s.waitOrder := rfl
@[simp] theorem State.signals_setStreams (x : List (Nat × Stream)) : (s.setStreams x).signals = s.signals := rfl
@[simp] theorem State.dispatch_setStreams (x : List (Nat × Stream)) : (s.setStreams x).dispatch = s.dispatch := rfl
@[simp] theorem State.segOrder_setStreams (x : List (Nat × Stream)) : (s.setStreams x).segOrder = s.segOrder := rfl
@[simp] theorem State.streams_setStreams (x : List (Nat × Stream)) : (s.setStreams x).streams = x := rfl
@[simp] theorem State.rings_setStreams (x : List (Nat × Stream)) : (s.setStreams x).rings = s.rings := rfl
@[simp] theorem State.heads_setStreams (x : List (Nat × Stream)) : (s.setStreams x).heads = s.heads := rfl
@[simp] theorem State.haltAt_setStreams (x : List (Nat × Stream)) : (s.setStreams x).haltAt = s.haltAt := rfl
@[simp] theorem State.heldHeads_setStreams (x : List (Nat × Stream)) : (s.setStreams x).heldHeads = s.heldHeads := rfl
@[simp] theorem State.queues_setStreams (x : List (Nat × Stream)) : (s.setStreams x).queues = s.queues := rfl
@[simp] theorem State.atsOn_setStreams (x : List (Nat × Stream)) : (s.setStreams x).atsOn = s.atsOn := rfl
@[simp] theorem State.atc_setStreams (x : List (Nat × Stream)) : (s.setStreams x).atc = s.atc := rfl
@[simp] theorem State.lowPower_setStreams (x : List (Nat × Stream)) : (s.setStreams x).lowPower = s.lowPower := rfl
@[simp] theorem State.flags_setStreams (x : List (Nat × Stream)) : (s.setStreams x).flags = s.flags := rfl
@[simp] theorem State.out_setStreams (x : List (Nat × Stream)) : (s.setStreams x).out = s.out := rfl
@[simp] theorem State.events_setStreams (x : List (Nat × Stream)) : (s.setStreams x).events = s.events := rfl
@[simp] theorem State.bad_setStreams (x : List (Nat × Stream)) : (s.setStreams x).bad = s.bad := rfl
@[simp] theorem State.poison_setStreams (x : List (Nat × Stream)) : (s.setStreams x).poison = s.poison := rfl
@[simp] theorem State.cache_setStreams (x : List (Nat × Stream)) : (s.setStreams x).cache = s.cache := rfl
@[simp] theorem State.watch_setStreams (x : List (Nat × Stream)) : (s.setStreams x).watch = s.watch := rfl
@[simp] theorem State.flash_setStreams (x : List (Nat × Stream)) : (s.setStreams x).flash = s.flash := rfl
@[simp] theorem State.flashDown_setStreams (x : List (Nat × Stream)) : (s.setStreams x).flashDown = s.flashDown := rfl
@[simp] theorem State.ports_setStreams (x : List (Nat × Stream)) : (s.setStreams x).ports = s.ports := rfl
@[simp] theorem State.inbox_setStreams (x : List (Nat × Stream)) : (s.setStreams x).inbox = s.inbox := rfl
@[simp] theorem State.fellows_setStreams (x : List (Nat × Stream)) : (s.setStreams x).fellows = s.fellows := rfl
@[simp] theorem State.pfc_setStreams (x : List (Nat × Stream)) : (s.setStreams x).pfc = s.pfc := rfl
@[simp] theorem State.reqs_setStreams (x : List (Nat × Stream)) : (s.setStreams x).reqs = s.reqs := rfl
@[simp] theorem State.serial_setStreams (x : List (Nat × Stream)) : (s.setStreams x).serial = s.serial := rfl
@[simp] theorem State.tag_setStreams (x : List (Nat × Stream)) : (s.setStreams x).tag = s.tag := rfl
@[simp] theorem State.chans_setStreams (x : List (Nat × Stream)) : (s.setStreams x).chans = s.chans := rfl
@[simp] theorem State.feeds_setStreams (x : List (Nat × Stream)) : (s.setStreams x).feeds = s.feeds := rfl
@[simp] theorem State.fences_setStreams (x : List (Nat × Stream)) : (s.setStreams x).fences = s.fences := rfl
@[simp] theorem State.recoveries_setStreams (x : List (Nat × Stream)) : (s.setStreams x).recoveries = s.recoveries := rfl
@[simp] theorem State.gviews_setStreams (x : List (Nat × Stream)) : (s.setStreams x).gviews = s.gviews := rfl
@[simp] theorem State.reds_setStreams (x : List (Nat × Stream)) : (s.setStreams x).reds = s.reds := rfl
@[simp] theorem State.redSeq_setStreams (x : List (Nat × Stream)) : (s.setStreams x).redSeq = s.redSeq := rfl
@[simp] theorem State.redRings_setStreams (x : List (Nat × Stream)) : (s.setStreams x).redRings = s.redRings := rfl
@[simp] theorem State.jobs_setStreams (x : List (Nat × Stream)) : (s.setStreams x).jobs = s.jobs := rfl
@[simp] theorem State.traceBufs_setStreams (x : List (Nat × Stream)) : (s.setStreams x).traceBufs = s.traceBufs := rfl
@[simp] theorem State.traceTurn_setStreams (x : List (Nat × Stream)) : (s.setStreams x).traceTurn = s.traceTurn := rfl
@[simp] theorem State.dm_setStreams (x : List (Nat × Stream)) : (s.setStreams x).dm = s.dm := rfl
@[simp] theorem State.posted_setStreams (x : List (Nat × Stream)) : (s.setStreams x).posted = s.posted := rfl
@[simp] theorem State.referee_setStreams (x : List (Nat × Stream)) : (s.setStreams x).referee = s.referee := rfl
@[simp] theorem State.power_setStreams (x : List (Nat × Stream)) : (s.setStreams x).power = s.power := rfl
@[simp] theorem State.freeCount_setStreams (x : List (Nat × Stream)) : (s.setStreams x).freeCount = s.freeCount := rfl
@[simp] theorem State.lines_setStreams (x : List (Nat × Stream)) : (s.setStreams x).lines = s.lines := rfl
@[simp] theorem State.hartCsr_setStreams (x : List (Nat × Stream)) : (s.setStreams x).hartCsr = s.hartCsr := rfl
@[simp] theorem State.msix_setStreams (x : List (Nat × Stream)) : (s.setStreams x).msix = s.msix := rfl
@[simp] theorem State.msixCtl_setStreams (x : List (Nat × Stream)) : (s.setStreams x).msixCtl = s.msixCtl := rfl
@[simp] theorem State.hartFull_setStreams (x : List (Nat × Stream)) : (s.setStreams x).hartFull = s.hartFull := rfl
@[simp] theorem State.pending_setRings (x : List (Nat × EventRing)) : (s.setRings x).pending = s.pending := rfl
@[simp] theorem State.dtime_setRings (x : List (Nat × EventRing)) : (s.setRings x).dtime = s.dtime := rfl
@[simp] theorem State.regs_setRings (x : List (Nat × EventRing)) : (s.setRings x).regs = s.regs := rfl
@[simp] theorem State.mem_setRings (x : List (Nat × EventRing)) : (s.setRings x).mem = s.mem := rfl
@[simp] theorem State.hostMem_setRings (x : List (Nat × EventRing)) : (s.setRings x).hostMem = s.hostMem := rfl
@[simp] theorem State.book_setRings (x : List (Nat × EventRing)) : (s.setRings x).book = s.book := rfl
@[simp] theorem State.learned_setRings (x : List (Nat × EventRing)) : (s.setRings x).learned = s.learned := rfl
@[simp] theorem State.benched_setRings (x : List (Nat × EventRing)) : (s.setRings x).benched = s.benched := rfl
@[simp] theorem State.cores_setRings (x : List (Nat × EventRing)) : (s.setRings x).cores = s.cores := rfl
@[simp] theorem State.sync_setRings (x : List (Nat × EventRing)) : (s.setRings x).sync = s.sync := rfl
@[simp] theorem State.waitOrder_setRings (x : List (Nat × EventRing)) : (s.setRings x).waitOrder = s.waitOrder := rfl
@[simp] theorem State.signals_setRings (x : List (Nat × EventRing)) : (s.setRings x).signals = s.signals := rfl
@[simp] theorem State.dispatch_setRings (x : List (Nat × EventRing)) : (s.setRings x).dispatch = s.dispatch := rfl
@[simp] theorem State.segOrder_setRings (x : List (Nat × EventRing)) : (s.setRings x).segOrder = s.segOrder := rfl
@[simp] theorem State.streams_setRings (x : List (Nat × EventRing)) : (s.setRings x).streams = s.streams := rfl
@[simp] theorem State.rings_setRings (x : List (Nat × EventRing)) : (s.setRings x).rings = x := rfl
@[simp] theorem State.heads_setRings (x : List (Nat × EventRing)) : (s.setRings x).heads = s.heads := rfl
@[simp] theorem State.haltAt_setRings (x : List (Nat × EventRing)) : (s.setRings x).haltAt = s.haltAt := rfl
@[simp] theorem State.heldHeads_setRings (x : List (Nat × EventRing)) : (s.setRings x).heldHeads = s.heldHeads := rfl
@[simp] theorem State.queues_setRings (x : List (Nat × EventRing)) : (s.setRings x).queues = s.queues := rfl
@[simp] theorem State.atsOn_setRings (x : List (Nat × EventRing)) : (s.setRings x).atsOn = s.atsOn := rfl
@[simp] theorem State.atc_setRings (x : List (Nat × EventRing)) : (s.setRings x).atc = s.atc := rfl
@[simp] theorem State.lowPower_setRings (x : List (Nat × EventRing)) : (s.setRings x).lowPower = s.lowPower := rfl
@[simp] theorem State.flags_setRings (x : List (Nat × EventRing)) : (s.setRings x).flags = s.flags := rfl
@[simp] theorem State.out_setRings (x : List (Nat × EventRing)) : (s.setRings x).out = s.out := rfl
@[simp] theorem State.events_setRings (x : List (Nat × EventRing)) : (s.setRings x).events = s.events := rfl
@[simp] theorem State.bad_setRings (x : List (Nat × EventRing)) : (s.setRings x).bad = s.bad := rfl
@[simp] theorem State.poison_setRings (x : List (Nat × EventRing)) : (s.setRings x).poison = s.poison := rfl
@[simp] theorem State.cache_setRings (x : List (Nat × EventRing)) : (s.setRings x).cache = s.cache := rfl
@[simp] theorem State.watch_setRings (x : List (Nat × EventRing)) : (s.setRings x).watch = s.watch := rfl
@[simp] theorem State.flash_setRings (x : List (Nat × EventRing)) : (s.setRings x).flash = s.flash := rfl
@[simp] theorem State.flashDown_setRings (x : List (Nat × EventRing)) : (s.setRings x).flashDown = s.flashDown := rfl
@[simp] theorem State.ports_setRings (x : List (Nat × EventRing)) : (s.setRings x).ports = s.ports := rfl
@[simp] theorem State.inbox_setRings (x : List (Nat × EventRing)) : (s.setRings x).inbox = s.inbox := rfl
@[simp] theorem State.fellows_setRings (x : List (Nat × EventRing)) : (s.setRings x).fellows = s.fellows := rfl
@[simp] theorem State.pfc_setRings (x : List (Nat × EventRing)) : (s.setRings x).pfc = s.pfc := rfl
@[simp] theorem State.reqs_setRings (x : List (Nat × EventRing)) : (s.setRings x).reqs = s.reqs := rfl
@[simp] theorem State.serial_setRings (x : List (Nat × EventRing)) : (s.setRings x).serial = s.serial := rfl
@[simp] theorem State.tag_setRings (x : List (Nat × EventRing)) : (s.setRings x).tag = s.tag := rfl
@[simp] theorem State.chans_setRings (x : List (Nat × EventRing)) : (s.setRings x).chans = s.chans := rfl
@[simp] theorem State.feeds_setRings (x : List (Nat × EventRing)) : (s.setRings x).feeds = s.feeds := rfl
@[simp] theorem State.fences_setRings (x : List (Nat × EventRing)) : (s.setRings x).fences = s.fences := rfl
@[simp] theorem State.recoveries_setRings (x : List (Nat × EventRing)) : (s.setRings x).recoveries = s.recoveries := rfl
@[simp] theorem State.gviews_setRings (x : List (Nat × EventRing)) : (s.setRings x).gviews = s.gviews := rfl
@[simp] theorem State.reds_setRings (x : List (Nat × EventRing)) : (s.setRings x).reds = s.reds := rfl
@[simp] theorem State.redSeq_setRings (x : List (Nat × EventRing)) : (s.setRings x).redSeq = s.redSeq := rfl
@[simp] theorem State.redRings_setRings (x : List (Nat × EventRing)) : (s.setRings x).redRings = s.redRings := rfl
@[simp] theorem State.jobs_setRings (x : List (Nat × EventRing)) : (s.setRings x).jobs = s.jobs := rfl
@[simp] theorem State.traceBufs_setRings (x : List (Nat × EventRing)) : (s.setRings x).traceBufs = s.traceBufs := rfl
@[simp] theorem State.traceTurn_setRings (x : List (Nat × EventRing)) : (s.setRings x).traceTurn = s.traceTurn := rfl
@[simp] theorem State.dm_setRings (x : List (Nat × EventRing)) : (s.setRings x).dm = s.dm := rfl
@[simp] theorem State.posted_setRings (x : List (Nat × EventRing)) : (s.setRings x).posted = s.posted := rfl
@[simp] theorem State.referee_setRings (x : List (Nat × EventRing)) : (s.setRings x).referee = s.referee := rfl
@[simp] theorem State.power_setRings (x : List (Nat × EventRing)) : (s.setRings x).power = s.power := rfl
@[simp] theorem State.freeCount_setRings (x : List (Nat × EventRing)) : (s.setRings x).freeCount = s.freeCount := rfl
@[simp] theorem State.lines_setRings (x : List (Nat × EventRing)) : (s.setRings x).lines = s.lines := rfl
@[simp] theorem State.hartCsr_setRings (x : List (Nat × EventRing)) : (s.setRings x).hartCsr = s.hartCsr := rfl
@[simp] theorem State.msix_setRings (x : List (Nat × EventRing)) : (s.setRings x).msix = s.msix := rfl
@[simp] theorem State.msixCtl_setRings (x : List (Nat × EventRing)) : (s.setRings x).msixCtl = s.msixCtl := rfl
@[simp] theorem State.hartFull_setRings (x : List (Nat × EventRing)) : (s.setRings x).hartFull = s.hartFull := rfl
@[simp] theorem State.pending_setHeads (x : List (Nat × HeadWait)) : (s.setHeads x).pending = s.pending := rfl
@[simp] theorem State.dtime_setHeads (x : List (Nat × HeadWait)) : (s.setHeads x).dtime = s.dtime := rfl
@[simp] theorem State.regs_setHeads (x : List (Nat × HeadWait)) : (s.setHeads x).regs = s.regs := rfl
@[simp] theorem State.mem_setHeads (x : List (Nat × HeadWait)) : (s.setHeads x).mem = s.mem := rfl
@[simp] theorem State.hostMem_setHeads (x : List (Nat × HeadWait)) : (s.setHeads x).hostMem = s.hostMem := rfl
@[simp] theorem State.book_setHeads (x : List (Nat × HeadWait)) : (s.setHeads x).book = s.book := rfl
@[simp] theorem State.learned_setHeads (x : List (Nat × HeadWait)) : (s.setHeads x).learned = s.learned := rfl
@[simp] theorem State.benched_setHeads (x : List (Nat × HeadWait)) : (s.setHeads x).benched = s.benched := rfl
@[simp] theorem State.cores_setHeads (x : List (Nat × HeadWait)) : (s.setHeads x).cores = s.cores := rfl
@[simp] theorem State.sync_setHeads (x : List (Nat × HeadWait)) : (s.setHeads x).sync = s.sync := rfl
@[simp] theorem State.waitOrder_setHeads (x : List (Nat × HeadWait)) : (s.setHeads x).waitOrder = s.waitOrder := rfl
@[simp] theorem State.signals_setHeads (x : List (Nat × HeadWait)) : (s.setHeads x).signals = s.signals := rfl
@[simp] theorem State.dispatch_setHeads (x : List (Nat × HeadWait)) : (s.setHeads x).dispatch = s.dispatch := rfl
@[simp] theorem State.segOrder_setHeads (x : List (Nat × HeadWait)) : (s.setHeads x).segOrder = s.segOrder := rfl
@[simp] theorem State.streams_setHeads (x : List (Nat × HeadWait)) : (s.setHeads x).streams = s.streams := rfl
@[simp] theorem State.rings_setHeads (x : List (Nat × HeadWait)) : (s.setHeads x).rings = s.rings := rfl
@[simp] theorem State.heads_setHeads (x : List (Nat × HeadWait)) : (s.setHeads x).heads = x := rfl
@[simp] theorem State.haltAt_setHeads (x : List (Nat × HeadWait)) : (s.setHeads x).haltAt = s.haltAt := rfl
@[simp] theorem State.heldHeads_setHeads (x : List (Nat × HeadWait)) : (s.setHeads x).heldHeads = s.heldHeads := rfl
@[simp] theorem State.queues_setHeads (x : List (Nat × HeadWait)) : (s.setHeads x).queues = s.queues := rfl
@[simp] theorem State.atsOn_setHeads (x : List (Nat × HeadWait)) : (s.setHeads x).atsOn = s.atsOn := rfl
@[simp] theorem State.atc_setHeads (x : List (Nat × HeadWait)) : (s.setHeads x).atc = s.atc := rfl
@[simp] theorem State.lowPower_setHeads (x : List (Nat × HeadWait)) : (s.setHeads x).lowPower = s.lowPower := rfl
@[simp] theorem State.flags_setHeads (x : List (Nat × HeadWait)) : (s.setHeads x).flags = s.flags := rfl
@[simp] theorem State.out_setHeads (x : List (Nat × HeadWait)) : (s.setHeads x).out = s.out := rfl
@[simp] theorem State.events_setHeads (x : List (Nat × HeadWait)) : (s.setHeads x).events = s.events := rfl
@[simp] theorem State.bad_setHeads (x : List (Nat × HeadWait)) : (s.setHeads x).bad = s.bad := rfl
@[simp] theorem State.poison_setHeads (x : List (Nat × HeadWait)) : (s.setHeads x).poison = s.poison := rfl
@[simp] theorem State.cache_setHeads (x : List (Nat × HeadWait)) : (s.setHeads x).cache = s.cache := rfl
@[simp] theorem State.watch_setHeads (x : List (Nat × HeadWait)) : (s.setHeads x).watch = s.watch := rfl
@[simp] theorem State.flash_setHeads (x : List (Nat × HeadWait)) : (s.setHeads x).flash = s.flash := rfl
@[simp] theorem State.flashDown_setHeads (x : List (Nat × HeadWait)) : (s.setHeads x).flashDown = s.flashDown := rfl
@[simp] theorem State.ports_setHeads (x : List (Nat × HeadWait)) : (s.setHeads x).ports = s.ports := rfl
@[simp] theorem State.inbox_setHeads (x : List (Nat × HeadWait)) : (s.setHeads x).inbox = s.inbox := rfl
@[simp] theorem State.fellows_setHeads (x : List (Nat × HeadWait)) : (s.setHeads x).fellows = s.fellows := rfl
@[simp] theorem State.pfc_setHeads (x : List (Nat × HeadWait)) : (s.setHeads x).pfc = s.pfc := rfl
@[simp] theorem State.reqs_setHeads (x : List (Nat × HeadWait)) : (s.setHeads x).reqs = s.reqs := rfl
@[simp] theorem State.serial_setHeads (x : List (Nat × HeadWait)) : (s.setHeads x).serial = s.serial := rfl
@[simp] theorem State.tag_setHeads (x : List (Nat × HeadWait)) : (s.setHeads x).tag = s.tag := rfl
@[simp] theorem State.chans_setHeads (x : List (Nat × HeadWait)) : (s.setHeads x).chans = s.chans := rfl
@[simp] theorem State.feeds_setHeads (x : List (Nat × HeadWait)) : (s.setHeads x).feeds = s.feeds := rfl
@[simp] theorem State.fences_setHeads (x : List (Nat × HeadWait)) : (s.setHeads x).fences = s.fences := rfl
@[simp] theorem State.recoveries_setHeads (x : List (Nat × HeadWait)) : (s.setHeads x).recoveries = s.recoveries := rfl
@[simp] theorem State.gviews_setHeads (x : List (Nat × HeadWait)) : (s.setHeads x).gviews = s.gviews := rfl
@[simp] theorem State.reds_setHeads (x : List (Nat × HeadWait)) : (s.setHeads x).reds = s.reds := rfl
@[simp] theorem State.redSeq_setHeads (x : List (Nat × HeadWait)) : (s.setHeads x).redSeq = s.redSeq := rfl
@[simp] theorem State.redRings_setHeads (x : List (Nat × HeadWait)) : (s.setHeads x).redRings = s.redRings := rfl
@[simp] theorem State.jobs_setHeads (x : List (Nat × HeadWait)) : (s.setHeads x).jobs = s.jobs := rfl
@[simp] theorem State.traceBufs_setHeads (x : List (Nat × HeadWait)) : (s.setHeads x).traceBufs = s.traceBufs := rfl
@[simp] theorem State.traceTurn_setHeads (x : List (Nat × HeadWait)) : (s.setHeads x).traceTurn = s.traceTurn := rfl
@[simp] theorem State.dm_setHeads (x : List (Nat × HeadWait)) : (s.setHeads x).dm = s.dm := rfl
@[simp] theorem State.posted_setHeads (x : List (Nat × HeadWait)) : (s.setHeads x).posted = s.posted := rfl
@[simp] theorem State.referee_setHeads (x : List (Nat × HeadWait)) : (s.setHeads x).referee = s.referee := rfl
@[simp] theorem State.power_setHeads (x : List (Nat × HeadWait)) : (s.setHeads x).power = s.power := rfl
@[simp] theorem State.freeCount_setHeads (x : List (Nat × HeadWait)) : (s.setHeads x).freeCount = s.freeCount := rfl
@[simp] theorem State.lines_setHeads (x : List (Nat × HeadWait)) : (s.setHeads x).lines = s.lines := rfl
@[simp] theorem State.hartCsr_setHeads (x : List (Nat × HeadWait)) : (s.setHeads x).hartCsr = s.hartCsr := rfl
@[simp] theorem State.msix_setHeads (x : List (Nat × HeadWait)) : (s.setHeads x).msix = s.msix := rfl
@[simp] theorem State.msixCtl_setHeads (x : List (Nat × HeadWait)) : (s.setHeads x).msixCtl = s.msixCtl := rfl
@[simp] theorem State.hartFull_setHeads (x : List (Nat × HeadWait)) : (s.setHeads x).hartFull = s.hartFull := rfl
@[simp] theorem State.pending_setHaltAt (x : List (Nat × Nat)) : (s.setHaltAt x).pending = s.pending := rfl
@[simp] theorem State.dtime_setHaltAt (x : List (Nat × Nat)) : (s.setHaltAt x).dtime = s.dtime := rfl
@[simp] theorem State.regs_setHaltAt (x : List (Nat × Nat)) : (s.setHaltAt x).regs = s.regs := rfl
@[simp] theorem State.mem_setHaltAt (x : List (Nat × Nat)) : (s.setHaltAt x).mem = s.mem := rfl
@[simp] theorem State.hostMem_setHaltAt (x : List (Nat × Nat)) : (s.setHaltAt x).hostMem = s.hostMem := rfl
@[simp] theorem State.book_setHaltAt (x : List (Nat × Nat)) : (s.setHaltAt x).book = s.book := rfl
@[simp] theorem State.learned_setHaltAt (x : List (Nat × Nat)) : (s.setHaltAt x).learned = s.learned := rfl
@[simp] theorem State.benched_setHaltAt (x : List (Nat × Nat)) : (s.setHaltAt x).benched = s.benched := rfl
@[simp] theorem State.cores_setHaltAt (x : List (Nat × Nat)) : (s.setHaltAt x).cores = s.cores := rfl
@[simp] theorem State.sync_setHaltAt (x : List (Nat × Nat)) : (s.setHaltAt x).sync = s.sync := rfl
@[simp] theorem State.waitOrder_setHaltAt (x : List (Nat × Nat)) : (s.setHaltAt x).waitOrder = s.waitOrder := rfl
@[simp] theorem State.signals_setHaltAt (x : List (Nat × Nat)) : (s.setHaltAt x).signals = s.signals := rfl
@[simp] theorem State.dispatch_setHaltAt (x : List (Nat × Nat)) : (s.setHaltAt x).dispatch = s.dispatch := rfl
@[simp] theorem State.segOrder_setHaltAt (x : List (Nat × Nat)) : (s.setHaltAt x).segOrder = s.segOrder := rfl
@[simp] theorem State.streams_setHaltAt (x : List (Nat × Nat)) : (s.setHaltAt x).streams = s.streams := rfl
@[simp] theorem State.rings_setHaltAt (x : List (Nat × Nat)) : (s.setHaltAt x).rings = s.rings := rfl
@[simp] theorem State.heads_setHaltAt (x : List (Nat × Nat)) : (s.setHaltAt x).heads = s.heads := rfl
@[simp] theorem State.haltAt_setHaltAt (x : List (Nat × Nat)) : (s.setHaltAt x).haltAt = x := rfl
@[simp] theorem State.heldHeads_setHaltAt (x : List (Nat × Nat)) : (s.setHaltAt x).heldHeads = s.heldHeads := rfl
@[simp] theorem State.queues_setHaltAt (x : List (Nat × Nat)) : (s.setHaltAt x).queues = s.queues := rfl
@[simp] theorem State.atsOn_setHaltAt (x : List (Nat × Nat)) : (s.setHaltAt x).atsOn = s.atsOn := rfl
@[simp] theorem State.atc_setHaltAt (x : List (Nat × Nat)) : (s.setHaltAt x).atc = s.atc := rfl
@[simp] theorem State.lowPower_setHaltAt (x : List (Nat × Nat)) : (s.setHaltAt x).lowPower = s.lowPower := rfl
@[simp] theorem State.flags_setHaltAt (x : List (Nat × Nat)) : (s.setHaltAt x).flags = s.flags := rfl
@[simp] theorem State.out_setHaltAt (x : List (Nat × Nat)) : (s.setHaltAt x).out = s.out := rfl
@[simp] theorem State.events_setHaltAt (x : List (Nat × Nat)) : (s.setHaltAt x).events = s.events := rfl
@[simp] theorem State.bad_setHaltAt (x : List (Nat × Nat)) : (s.setHaltAt x).bad = s.bad := rfl
@[simp] theorem State.poison_setHaltAt (x : List (Nat × Nat)) : (s.setHaltAt x).poison = s.poison := rfl
@[simp] theorem State.cache_setHaltAt (x : List (Nat × Nat)) : (s.setHaltAt x).cache = s.cache := rfl
@[simp] theorem State.watch_setHaltAt (x : List (Nat × Nat)) : (s.setHaltAt x).watch = s.watch := rfl
@[simp] theorem State.flash_setHaltAt (x : List (Nat × Nat)) : (s.setHaltAt x).flash = s.flash := rfl
@[simp] theorem State.flashDown_setHaltAt (x : List (Nat × Nat)) : (s.setHaltAt x).flashDown = s.flashDown := rfl
@[simp] theorem State.ports_setHaltAt (x : List (Nat × Nat)) : (s.setHaltAt x).ports = s.ports := rfl
@[simp] theorem State.inbox_setHaltAt (x : List (Nat × Nat)) : (s.setHaltAt x).inbox = s.inbox := rfl
@[simp] theorem State.fellows_setHaltAt (x : List (Nat × Nat)) : (s.setHaltAt x).fellows = s.fellows := rfl
@[simp] theorem State.pfc_setHaltAt (x : List (Nat × Nat)) : (s.setHaltAt x).pfc = s.pfc := rfl
@[simp] theorem State.reqs_setHaltAt (x : List (Nat × Nat)) : (s.setHaltAt x).reqs = s.reqs := rfl
@[simp] theorem State.serial_setHaltAt (x : List (Nat × Nat)) : (s.setHaltAt x).serial = s.serial := rfl
@[simp] theorem State.tag_setHaltAt (x : List (Nat × Nat)) : (s.setHaltAt x).tag = s.tag := rfl
@[simp] theorem State.chans_setHaltAt (x : List (Nat × Nat)) : (s.setHaltAt x).chans = s.chans := rfl
@[simp] theorem State.feeds_setHaltAt (x : List (Nat × Nat)) : (s.setHaltAt x).feeds = s.feeds := rfl
@[simp] theorem State.fences_setHaltAt (x : List (Nat × Nat)) : (s.setHaltAt x).fences = s.fences := rfl
@[simp] theorem State.recoveries_setHaltAt (x : List (Nat × Nat)) : (s.setHaltAt x).recoveries = s.recoveries := rfl
@[simp] theorem State.gviews_setHaltAt (x : List (Nat × Nat)) : (s.setHaltAt x).gviews = s.gviews := rfl
@[simp] theorem State.reds_setHaltAt (x : List (Nat × Nat)) : (s.setHaltAt x).reds = s.reds := rfl
@[simp] theorem State.redSeq_setHaltAt (x : List (Nat × Nat)) : (s.setHaltAt x).redSeq = s.redSeq := rfl
@[simp] theorem State.redRings_setHaltAt (x : List (Nat × Nat)) : (s.setHaltAt x).redRings = s.redRings := rfl
@[simp] theorem State.jobs_setHaltAt (x : List (Nat × Nat)) : (s.setHaltAt x).jobs = s.jobs := rfl
@[simp] theorem State.traceBufs_setHaltAt (x : List (Nat × Nat)) : (s.setHaltAt x).traceBufs = s.traceBufs := rfl
@[simp] theorem State.traceTurn_setHaltAt (x : List (Nat × Nat)) : (s.setHaltAt x).traceTurn = s.traceTurn := rfl
@[simp] theorem State.dm_setHaltAt (x : List (Nat × Nat)) : (s.setHaltAt x).dm = s.dm := rfl
@[simp] theorem State.posted_setHaltAt (x : List (Nat × Nat)) : (s.setHaltAt x).posted = s.posted := rfl
@[simp] theorem State.referee_setHaltAt (x : List (Nat × Nat)) : (s.setHaltAt x).referee = s.referee := rfl
@[simp] theorem State.power_setHaltAt (x : List (Nat × Nat)) : (s.setHaltAt x).power = s.power := rfl
@[simp] theorem State.freeCount_setHaltAt (x : List (Nat × Nat)) : (s.setHaltAt x).freeCount = s.freeCount := rfl
@[simp] theorem State.lines_setHaltAt (x : List (Nat × Nat)) : (s.setHaltAt x).lines = s.lines := rfl
@[simp] theorem State.hartCsr_setHaltAt (x : List (Nat × Nat)) : (s.setHaltAt x).hartCsr = s.hartCsr := rfl
@[simp] theorem State.msix_setHaltAt (x : List (Nat × Nat)) : (s.setHaltAt x).msix = s.msix := rfl
@[simp] theorem State.msixCtl_setHaltAt (x : List (Nat × Nat)) : (s.setHaltAt x).msixCtl = s.msixCtl := rfl
@[simp] theorem State.hartFull_setHaltAt (x : List (Nat × Nat)) : (s.setHaltAt x).hartFull = s.hartFull := rfl
@[simp] theorem State.pending_setHeldHeads (x : List Nat) : (s.setHeldHeads x).pending = s.pending := rfl
@[simp] theorem State.dtime_setHeldHeads (x : List Nat) : (s.setHeldHeads x).dtime = s.dtime := rfl
@[simp] theorem State.regs_setHeldHeads (x : List Nat) : (s.setHeldHeads x).regs = s.regs := rfl
@[simp] theorem State.mem_setHeldHeads (x : List Nat) : (s.setHeldHeads x).mem = s.mem := rfl
@[simp] theorem State.hostMem_setHeldHeads (x : List Nat) : (s.setHeldHeads x).hostMem = s.hostMem := rfl
@[simp] theorem State.book_setHeldHeads (x : List Nat) : (s.setHeldHeads x).book = s.book := rfl
@[simp] theorem State.learned_setHeldHeads (x : List Nat) : (s.setHeldHeads x).learned = s.learned := rfl
@[simp] theorem State.benched_setHeldHeads (x : List Nat) : (s.setHeldHeads x).benched = s.benched := rfl
@[simp] theorem State.cores_setHeldHeads (x : List Nat) : (s.setHeldHeads x).cores = s.cores := rfl
@[simp] theorem State.sync_setHeldHeads (x : List Nat) : (s.setHeldHeads x).sync = s.sync := rfl
@[simp] theorem State.waitOrder_setHeldHeads (x : List Nat) : (s.setHeldHeads x).waitOrder = s.waitOrder := rfl
@[simp] theorem State.signals_setHeldHeads (x : List Nat) : (s.setHeldHeads x).signals = s.signals := rfl
@[simp] theorem State.dispatch_setHeldHeads (x : List Nat) : (s.setHeldHeads x).dispatch = s.dispatch := rfl
@[simp] theorem State.segOrder_setHeldHeads (x : List Nat) : (s.setHeldHeads x).segOrder = s.segOrder := rfl
@[simp] theorem State.streams_setHeldHeads (x : List Nat) : (s.setHeldHeads x).streams = s.streams := rfl
@[simp] theorem State.rings_setHeldHeads (x : List Nat) : (s.setHeldHeads x).rings = s.rings := rfl
@[simp] theorem State.heads_setHeldHeads (x : List Nat) : (s.setHeldHeads x).heads = s.heads := rfl
@[simp] theorem State.haltAt_setHeldHeads (x : List Nat) : (s.setHeldHeads x).haltAt = s.haltAt := rfl
@[simp] theorem State.heldHeads_setHeldHeads (x : List Nat) : (s.setHeldHeads x).heldHeads = x := rfl
@[simp] theorem State.queues_setHeldHeads (x : List Nat) : (s.setHeldHeads x).queues = s.queues := rfl
@[simp] theorem State.atsOn_setHeldHeads (x : List Nat) : (s.setHeldHeads x).atsOn = s.atsOn := rfl
@[simp] theorem State.atc_setHeldHeads (x : List Nat) : (s.setHeldHeads x).atc = s.atc := rfl
@[simp] theorem State.lowPower_setHeldHeads (x : List Nat) : (s.setHeldHeads x).lowPower = s.lowPower := rfl
@[simp] theorem State.flags_setHeldHeads (x : List Nat) : (s.setHeldHeads x).flags = s.flags := rfl
@[simp] theorem State.out_setHeldHeads (x : List Nat) : (s.setHeldHeads x).out = s.out := rfl
@[simp] theorem State.events_setHeldHeads (x : List Nat) : (s.setHeldHeads x).events = s.events := rfl
@[simp] theorem State.bad_setHeldHeads (x : List Nat) : (s.setHeldHeads x).bad = s.bad := rfl
@[simp] theorem State.poison_setHeldHeads (x : List Nat) : (s.setHeldHeads x).poison = s.poison := rfl
@[simp] theorem State.cache_setHeldHeads (x : List Nat) : (s.setHeldHeads x).cache = s.cache := rfl
@[simp] theorem State.watch_setHeldHeads (x : List Nat) : (s.setHeldHeads x).watch = s.watch := rfl
@[simp] theorem State.flash_setHeldHeads (x : List Nat) : (s.setHeldHeads x).flash = s.flash := rfl
@[simp] theorem State.flashDown_setHeldHeads (x : List Nat) : (s.setHeldHeads x).flashDown = s.flashDown := rfl
@[simp] theorem State.ports_setHeldHeads (x : List Nat) : (s.setHeldHeads x).ports = s.ports := rfl
@[simp] theorem State.inbox_setHeldHeads (x : List Nat) : (s.setHeldHeads x).inbox = s.inbox := rfl
@[simp] theorem State.fellows_setHeldHeads (x : List Nat) : (s.setHeldHeads x).fellows = s.fellows := rfl
@[simp] theorem State.pfc_setHeldHeads (x : List Nat) : (s.setHeldHeads x).pfc = s.pfc := rfl
@[simp] theorem State.reqs_setHeldHeads (x : List Nat) : (s.setHeldHeads x).reqs = s.reqs := rfl
@[simp] theorem State.serial_setHeldHeads (x : List Nat) : (s.setHeldHeads x).serial = s.serial := rfl
@[simp] theorem State.tag_setHeldHeads (x : List Nat) : (s.setHeldHeads x).tag = s.tag := rfl
@[simp] theorem State.chans_setHeldHeads (x : List Nat) : (s.setHeldHeads x).chans = s.chans := rfl
@[simp] theorem State.feeds_setHeldHeads (x : List Nat) : (s.setHeldHeads x).feeds = s.feeds := rfl
@[simp] theorem State.fences_setHeldHeads (x : List Nat) : (s.setHeldHeads x).fences = s.fences := rfl
@[simp] theorem State.recoveries_setHeldHeads (x : List Nat) : (s.setHeldHeads x).recoveries = s.recoveries := rfl
@[simp] theorem State.gviews_setHeldHeads (x : List Nat) : (s.setHeldHeads x).gviews = s.gviews := rfl
@[simp] theorem State.reds_setHeldHeads (x : List Nat) : (s.setHeldHeads x).reds = s.reds := rfl
@[simp] theorem State.redSeq_setHeldHeads (x : List Nat) : (s.setHeldHeads x).redSeq = s.redSeq := rfl
@[simp] theorem State.redRings_setHeldHeads (x : List Nat) : (s.setHeldHeads x).redRings = s.redRings := rfl
@[simp] theorem State.jobs_setHeldHeads (x : List Nat) : (s.setHeldHeads x).jobs = s.jobs := rfl
@[simp] theorem State.traceBufs_setHeldHeads (x : List Nat) : (s.setHeldHeads x).traceBufs = s.traceBufs := rfl
@[simp] theorem State.traceTurn_setHeldHeads (x : List Nat) : (s.setHeldHeads x).traceTurn = s.traceTurn := rfl
@[simp] theorem State.dm_setHeldHeads (x : List Nat) : (s.setHeldHeads x).dm = s.dm := rfl
@[simp] theorem State.posted_setHeldHeads (x : List Nat) : (s.setHeldHeads x).posted = s.posted := rfl
@[simp] theorem State.referee_setHeldHeads (x : List Nat) : (s.setHeldHeads x).referee = s.referee := rfl
@[simp] theorem State.power_setHeldHeads (x : List Nat) : (s.setHeldHeads x).power = s.power := rfl
@[simp] theorem State.freeCount_setHeldHeads (x : List Nat) : (s.setHeldHeads x).freeCount = s.freeCount := rfl
@[simp] theorem State.lines_setHeldHeads (x : List Nat) : (s.setHeldHeads x).lines = s.lines := rfl
@[simp] theorem State.hartCsr_setHeldHeads (x : List Nat) : (s.setHeldHeads x).hartCsr = s.hartCsr := rfl
@[simp] theorem State.msix_setHeldHeads (x : List Nat) : (s.setHeldHeads x).msix = s.msix := rfl
@[simp] theorem State.msixCtl_setHeldHeads (x : List Nat) : (s.setHeldHeads x).msixCtl = s.msixCtl := rfl
@[simp] theorem State.hartFull_setHeldHeads (x : List Nat) : (s.setHeldHeads x).hartFull = s.hartFull := rfl
@[simp] theorem State.pending_setQueues (x : List (Nat × Nat)) : (s.setQueues x).pending = s.pending := rfl
@[simp] theorem State.dtime_setQueues (x : List (Nat × Nat)) : (s.setQueues x).dtime = s.dtime := rfl
@[simp] theorem State.regs_setQueues (x : List (Nat × Nat)) : (s.setQueues x).regs = s.regs := rfl
@[simp] theorem State.mem_setQueues (x : List (Nat × Nat)) : (s.setQueues x).mem = s.mem := rfl
@[simp] theorem State.hostMem_setQueues (x : List (Nat × Nat)) : (s.setQueues x).hostMem = s.hostMem := rfl
@[simp] theorem State.book_setQueues (x : List (Nat × Nat)) : (s.setQueues x).book = s.book := rfl
@[simp] theorem State.learned_setQueues (x : List (Nat × Nat)) : (s.setQueues x).learned = s.learned := rfl
@[simp] theorem State.benched_setQueues (x : List (Nat × Nat)) : (s.setQueues x).benched = s.benched := rfl
@[simp] theorem State.cores_setQueues (x : List (Nat × Nat)) : (s.setQueues x).cores = s.cores := rfl
@[simp] theorem State.sync_setQueues (x : List (Nat × Nat)) : (s.setQueues x).sync = s.sync := rfl
@[simp] theorem State.waitOrder_setQueues (x : List (Nat × Nat)) : (s.setQueues x).waitOrder = s.waitOrder := rfl
@[simp] theorem State.signals_setQueues (x : List (Nat × Nat)) : (s.setQueues x).signals = s.signals := rfl
@[simp] theorem State.dispatch_setQueues (x : List (Nat × Nat)) : (s.setQueues x).dispatch = s.dispatch := rfl
@[simp] theorem State.segOrder_setQueues (x : List (Nat × Nat)) : (s.setQueues x).segOrder = s.segOrder := rfl
@[simp] theorem State.streams_setQueues (x : List (Nat × Nat)) : (s.setQueues x).streams = s.streams := rfl
@[simp] theorem State.rings_setQueues (x : List (Nat × Nat)) : (s.setQueues x).rings = s.rings := rfl
@[simp] theorem State.heads_setQueues (x : List (Nat × Nat)) : (s.setQueues x).heads = s.heads := rfl
@[simp] theorem State.haltAt_setQueues (x : List (Nat × Nat)) : (s.setQueues x).haltAt = s.haltAt := rfl
@[simp] theorem State.heldHeads_setQueues (x : List (Nat × Nat)) : (s.setQueues x).heldHeads = s.heldHeads := rfl
@[simp] theorem State.queues_setQueues (x : List (Nat × Nat)) : (s.setQueues x).queues = x := rfl
@[simp] theorem State.atsOn_setQueues (x : List (Nat × Nat)) : (s.setQueues x).atsOn = s.atsOn := rfl
@[simp] theorem State.atc_setQueues (x : List (Nat × Nat)) : (s.setQueues x).atc = s.atc := rfl
@[simp] theorem State.lowPower_setQueues (x : List (Nat × Nat)) : (s.setQueues x).lowPower = s.lowPower := rfl
@[simp] theorem State.flags_setQueues (x : List (Nat × Nat)) : (s.setQueues x).flags = s.flags := rfl
@[simp] theorem State.out_setQueues (x : List (Nat × Nat)) : (s.setQueues x).out = s.out := rfl
@[simp] theorem State.events_setQueues (x : List (Nat × Nat)) : (s.setQueues x).events = s.events := rfl
@[simp] theorem State.bad_setQueues (x : List (Nat × Nat)) : (s.setQueues x).bad = s.bad := rfl
@[simp] theorem State.poison_setQueues (x : List (Nat × Nat)) : (s.setQueues x).poison = s.poison := rfl
@[simp] theorem State.cache_setQueues (x : List (Nat × Nat)) : (s.setQueues x).cache = s.cache := rfl
@[simp] theorem State.watch_setQueues (x : List (Nat × Nat)) : (s.setQueues x).watch = s.watch := rfl
@[simp] theorem State.flash_setQueues (x : List (Nat × Nat)) : (s.setQueues x).flash = s.flash := rfl
@[simp] theorem State.flashDown_setQueues (x : List (Nat × Nat)) : (s.setQueues x).flashDown = s.flashDown := rfl
@[simp] theorem State.ports_setQueues (x : List (Nat × Nat)) : (s.setQueues x).ports = s.ports := rfl
@[simp] theorem State.inbox_setQueues (x : List (Nat × Nat)) : (s.setQueues x).inbox = s.inbox := rfl
@[simp] theorem State.fellows_setQueues (x : List (Nat × Nat)) : (s.setQueues x).fellows = s.fellows := rfl
@[simp] theorem State.pfc_setQueues (x : List (Nat × Nat)) : (s.setQueues x).pfc = s.pfc := rfl
@[simp] theorem State.reqs_setQueues (x : List (Nat × Nat)) : (s.setQueues x).reqs = s.reqs := rfl
@[simp] theorem State.serial_setQueues (x : List (Nat × Nat)) : (s.setQueues x).serial = s.serial := rfl
@[simp] theorem State.tag_setQueues (x : List (Nat × Nat)) : (s.setQueues x).tag = s.tag := rfl
@[simp] theorem State.chans_setQueues (x : List (Nat × Nat)) : (s.setQueues x).chans = s.chans := rfl
@[simp] theorem State.feeds_setQueues (x : List (Nat × Nat)) : (s.setQueues x).feeds = s.feeds := rfl
@[simp] theorem State.fences_setQueues (x : List (Nat × Nat)) : (s.setQueues x).fences = s.fences := rfl
@[simp] theorem State.recoveries_setQueues (x : List (Nat × Nat)) : (s.setQueues x).recoveries = s.recoveries := rfl
@[simp] theorem State.gviews_setQueues (x : List (Nat × Nat)) : (s.setQueues x).gviews = s.gviews := rfl
@[simp] theorem State.reds_setQueues (x : List (Nat × Nat)) : (s.setQueues x).reds = s.reds := rfl
@[simp] theorem State.redSeq_setQueues (x : List (Nat × Nat)) : (s.setQueues x).redSeq = s.redSeq := rfl
@[simp] theorem State.redRings_setQueues (x : List (Nat × Nat)) : (s.setQueues x).redRings = s.redRings := rfl
@[simp] theorem State.jobs_setQueues (x : List (Nat × Nat)) : (s.setQueues x).jobs = s.jobs := rfl
@[simp] theorem State.traceBufs_setQueues (x : List (Nat × Nat)) : (s.setQueues x).traceBufs = s.traceBufs := rfl
@[simp] theorem State.traceTurn_setQueues (x : List (Nat × Nat)) : (s.setQueues x).traceTurn = s.traceTurn := rfl
@[simp] theorem State.dm_setQueues (x : List (Nat × Nat)) : (s.setQueues x).dm = s.dm := rfl
@[simp] theorem State.posted_setQueues (x : List (Nat × Nat)) : (s.setQueues x).posted = s.posted := rfl
@[simp] theorem State.referee_setQueues (x : List (Nat × Nat)) : (s.setQueues x).referee = s.referee := rfl
@[simp] theorem State.power_setQueues (x : List (Nat × Nat)) : (s.setQueues x).power = s.power := rfl
@[simp] theorem State.freeCount_setQueues (x : List (Nat × Nat)) : (s.setQueues x).freeCount = s.freeCount := rfl
@[simp] theorem State.lines_setQueues (x : List (Nat × Nat)) : (s.setQueues x).lines = s.lines := rfl
@[simp] theorem State.hartCsr_setQueues (x : List (Nat × Nat)) : (s.setQueues x).hartCsr = s.hartCsr := rfl
@[simp] theorem State.msix_setQueues (x : List (Nat × Nat)) : (s.setQueues x).msix = s.msix := rfl
@[simp] theorem State.msixCtl_setQueues (x : List (Nat × Nat)) : (s.setQueues x).msixCtl = s.msixCtl := rfl
@[simp] theorem State.hartFull_setQueues (x : List (Nat × Nat)) : (s.setQueues x).hartFull = s.hartFull := rfl
@[simp] theorem State.pending_setAtc (x : List (Nat × Nat)) : (s.setAtc x).pending = s.pending := rfl
@[simp] theorem State.dtime_setAtc (x : List (Nat × Nat)) : (s.setAtc x).dtime = s.dtime := rfl
@[simp] theorem State.regs_setAtc (x : List (Nat × Nat)) : (s.setAtc x).regs = s.regs := rfl
@[simp] theorem State.mem_setAtc (x : List (Nat × Nat)) : (s.setAtc x).mem = s.mem := rfl
@[simp] theorem State.hostMem_setAtc (x : List (Nat × Nat)) : (s.setAtc x).hostMem = s.hostMem := rfl
@[simp] theorem State.book_setAtc (x : List (Nat × Nat)) : (s.setAtc x).book = s.book := rfl
@[simp] theorem State.learned_setAtc (x : List (Nat × Nat)) : (s.setAtc x).learned = s.learned := rfl
@[simp] theorem State.benched_setAtc (x : List (Nat × Nat)) : (s.setAtc x).benched = s.benched := rfl
@[simp] theorem State.cores_setAtc (x : List (Nat × Nat)) : (s.setAtc x).cores = s.cores := rfl
@[simp] theorem State.sync_setAtc (x : List (Nat × Nat)) : (s.setAtc x).sync = s.sync := rfl
@[simp] theorem State.waitOrder_setAtc (x : List (Nat × Nat)) : (s.setAtc x).waitOrder = s.waitOrder := rfl
@[simp] theorem State.signals_setAtc (x : List (Nat × Nat)) : (s.setAtc x).signals = s.signals := rfl
@[simp] theorem State.dispatch_setAtc (x : List (Nat × Nat)) : (s.setAtc x).dispatch = s.dispatch := rfl
@[simp] theorem State.segOrder_setAtc (x : List (Nat × Nat)) : (s.setAtc x).segOrder = s.segOrder := rfl
@[simp] theorem State.streams_setAtc (x : List (Nat × Nat)) : (s.setAtc x).streams = s.streams := rfl
@[simp] theorem State.rings_setAtc (x : List (Nat × Nat)) : (s.setAtc x).rings = s.rings := rfl
@[simp] theorem State.heads_setAtc (x : List (Nat × Nat)) : (s.setAtc x).heads = s.heads := rfl
@[simp] theorem State.haltAt_setAtc (x : List (Nat × Nat)) : (s.setAtc x).haltAt = s.haltAt := rfl
@[simp] theorem State.heldHeads_setAtc (x : List (Nat × Nat)) : (s.setAtc x).heldHeads = s.heldHeads := rfl
@[simp] theorem State.queues_setAtc (x : List (Nat × Nat)) : (s.setAtc x).queues = s.queues := rfl
@[simp] theorem State.atsOn_setAtc (x : List (Nat × Nat)) : (s.setAtc x).atsOn = s.atsOn := rfl
@[simp] theorem State.atc_setAtc (x : List (Nat × Nat)) : (s.setAtc x).atc = x := rfl
@[simp] theorem State.lowPower_setAtc (x : List (Nat × Nat)) : (s.setAtc x).lowPower = s.lowPower := rfl
@[simp] theorem State.flags_setAtc (x : List (Nat × Nat)) : (s.setAtc x).flags = s.flags := rfl
@[simp] theorem State.out_setAtc (x : List (Nat × Nat)) : (s.setAtc x).out = s.out := rfl
@[simp] theorem State.events_setAtc (x : List (Nat × Nat)) : (s.setAtc x).events = s.events := rfl
@[simp] theorem State.bad_setAtc (x : List (Nat × Nat)) : (s.setAtc x).bad = s.bad := rfl
@[simp] theorem State.poison_setAtc (x : List (Nat × Nat)) : (s.setAtc x).poison = s.poison := rfl
@[simp] theorem State.cache_setAtc (x : List (Nat × Nat)) : (s.setAtc x).cache = s.cache := rfl
@[simp] theorem State.watch_setAtc (x : List (Nat × Nat)) : (s.setAtc x).watch = s.watch := rfl
@[simp] theorem State.flash_setAtc (x : List (Nat × Nat)) : (s.setAtc x).flash = s.flash := rfl
@[simp] theorem State.flashDown_setAtc (x : List (Nat × Nat)) : (s.setAtc x).flashDown = s.flashDown := rfl
@[simp] theorem State.ports_setAtc (x : List (Nat × Nat)) : (s.setAtc x).ports = s.ports := rfl
@[simp] theorem State.inbox_setAtc (x : List (Nat × Nat)) : (s.setAtc x).inbox = s.inbox := rfl
@[simp] theorem State.fellows_setAtc (x : List (Nat × Nat)) : (s.setAtc x).fellows = s.fellows := rfl
@[simp] theorem State.pfc_setAtc (x : List (Nat × Nat)) : (s.setAtc x).pfc = s.pfc := rfl
@[simp] theorem State.reqs_setAtc (x : List (Nat × Nat)) : (s.setAtc x).reqs = s.reqs := rfl
@[simp] theorem State.serial_setAtc (x : List (Nat × Nat)) : (s.setAtc x).serial = s.serial := rfl
@[simp] theorem State.tag_setAtc (x : List (Nat × Nat)) : (s.setAtc x).tag = s.tag := rfl
@[simp] theorem State.chans_setAtc (x : List (Nat × Nat)) : (s.setAtc x).chans = s.chans := rfl
@[simp] theorem State.feeds_setAtc (x : List (Nat × Nat)) : (s.setAtc x).feeds = s.feeds := rfl
@[simp] theorem State.fences_setAtc (x : List (Nat × Nat)) : (s.setAtc x).fences = s.fences := rfl
@[simp] theorem State.recoveries_setAtc (x : List (Nat × Nat)) : (s.setAtc x).recoveries = s.recoveries := rfl
@[simp] theorem State.gviews_setAtc (x : List (Nat × Nat)) : (s.setAtc x).gviews = s.gviews := rfl
@[simp] theorem State.reds_setAtc (x : List (Nat × Nat)) : (s.setAtc x).reds = s.reds := rfl
@[simp] theorem State.redSeq_setAtc (x : List (Nat × Nat)) : (s.setAtc x).redSeq = s.redSeq := rfl
@[simp] theorem State.redRings_setAtc (x : List (Nat × Nat)) : (s.setAtc x).redRings = s.redRings := rfl
@[simp] theorem State.jobs_setAtc (x : List (Nat × Nat)) : (s.setAtc x).jobs = s.jobs := rfl
@[simp] theorem State.traceBufs_setAtc (x : List (Nat × Nat)) : (s.setAtc x).traceBufs = s.traceBufs := rfl
@[simp] theorem State.traceTurn_setAtc (x : List (Nat × Nat)) : (s.setAtc x).traceTurn = s.traceTurn := rfl
@[simp] theorem State.dm_setAtc (x : List (Nat × Nat)) : (s.setAtc x).dm = s.dm := rfl
@[simp] theorem State.posted_setAtc (x : List (Nat × Nat)) : (s.setAtc x).posted = s.posted := rfl
@[simp] theorem State.referee_setAtc (x : List (Nat × Nat)) : (s.setAtc x).referee = s.referee := rfl
@[simp] theorem State.power_setAtc (x : List (Nat × Nat)) : (s.setAtc x).power = s.power := rfl
@[simp] theorem State.freeCount_setAtc (x : List (Nat × Nat)) : (s.setAtc x).freeCount = s.freeCount := rfl
@[simp] theorem State.lines_setAtc (x : List (Nat × Nat)) : (s.setAtc x).lines = s.lines := rfl
@[simp] theorem State.hartCsr_setAtc (x : List (Nat × Nat)) : (s.setAtc x).hartCsr = s.hartCsr := rfl
@[simp] theorem State.msix_setAtc (x : List (Nat × Nat)) : (s.setAtc x).msix = s.msix := rfl
@[simp] theorem State.msixCtl_setAtc (x : List (Nat × Nat)) : (s.setAtc x).msixCtl = s.msixCtl := rfl
@[simp] theorem State.hartFull_setAtc (x : List (Nat × Nat)) : (s.setAtc x).hartFull = s.hartFull := rfl
@[simp] theorem State.pending_setLowPower (x : List Nat) : (s.setLowPower x).pending = s.pending := rfl
@[simp] theorem State.dtime_setLowPower (x : List Nat) : (s.setLowPower x).dtime = s.dtime := rfl
@[simp] theorem State.regs_setLowPower (x : List Nat) : (s.setLowPower x).regs = s.regs := rfl
@[simp] theorem State.mem_setLowPower (x : List Nat) : (s.setLowPower x).mem = s.mem := rfl
@[simp] theorem State.hostMem_setLowPower (x : List Nat) : (s.setLowPower x).hostMem = s.hostMem := rfl
@[simp] theorem State.book_setLowPower (x : List Nat) : (s.setLowPower x).book = s.book := rfl
@[simp] theorem State.learned_setLowPower (x : List Nat) : (s.setLowPower x).learned = s.learned := rfl
@[simp] theorem State.benched_setLowPower (x : List Nat) : (s.setLowPower x).benched = s.benched := rfl
@[simp] theorem State.cores_setLowPower (x : List Nat) : (s.setLowPower x).cores = s.cores := rfl
@[simp] theorem State.sync_setLowPower (x : List Nat) : (s.setLowPower x).sync = s.sync := rfl
@[simp] theorem State.waitOrder_setLowPower (x : List Nat) : (s.setLowPower x).waitOrder = s.waitOrder := rfl
@[simp] theorem State.signals_setLowPower (x : List Nat) : (s.setLowPower x).signals = s.signals := rfl
@[simp] theorem State.dispatch_setLowPower (x : List Nat) : (s.setLowPower x).dispatch = s.dispatch := rfl
@[simp] theorem State.segOrder_setLowPower (x : List Nat) : (s.setLowPower x).segOrder = s.segOrder := rfl
@[simp] theorem State.streams_setLowPower (x : List Nat) : (s.setLowPower x).streams = s.streams := rfl
@[simp] theorem State.rings_setLowPower (x : List Nat) : (s.setLowPower x).rings = s.rings := rfl
@[simp] theorem State.heads_setLowPower (x : List Nat) : (s.setLowPower x).heads = s.heads := rfl
@[simp] theorem State.haltAt_setLowPower (x : List Nat) : (s.setLowPower x).haltAt = s.haltAt := rfl
@[simp] theorem State.heldHeads_setLowPower (x : List Nat) : (s.setLowPower x).heldHeads = s.heldHeads := rfl
@[simp] theorem State.queues_setLowPower (x : List Nat) : (s.setLowPower x).queues = s.queues := rfl
@[simp] theorem State.atsOn_setLowPower (x : List Nat) : (s.setLowPower x).atsOn = s.atsOn := rfl
@[simp] theorem State.atc_setLowPower (x : List Nat) : (s.setLowPower x).atc = s.atc := rfl
@[simp] theorem State.lowPower_setLowPower (x : List Nat) : (s.setLowPower x).lowPower = x := rfl
@[simp] theorem State.flags_setLowPower (x : List Nat) : (s.setLowPower x).flags = s.flags := rfl
@[simp] theorem State.out_setLowPower (x : List Nat) : (s.setLowPower x).out = s.out := rfl
@[simp] theorem State.events_setLowPower (x : List Nat) : (s.setLowPower x).events = s.events := rfl
@[simp] theorem State.bad_setLowPower (x : List Nat) : (s.setLowPower x).bad = s.bad := rfl
@[simp] theorem State.poison_setLowPower (x : List Nat) : (s.setLowPower x).poison = s.poison := rfl
@[simp] theorem State.cache_setLowPower (x : List Nat) : (s.setLowPower x).cache = s.cache := rfl
@[simp] theorem State.watch_setLowPower (x : List Nat) : (s.setLowPower x).watch = s.watch := rfl
@[simp] theorem State.flash_setLowPower (x : List Nat) : (s.setLowPower x).flash = s.flash := rfl
@[simp] theorem State.flashDown_setLowPower (x : List Nat) : (s.setLowPower x).flashDown = s.flashDown := rfl
@[simp] theorem State.ports_setLowPower (x : List Nat) : (s.setLowPower x).ports = s.ports := rfl
@[simp] theorem State.inbox_setLowPower (x : List Nat) : (s.setLowPower x).inbox = s.inbox := rfl
@[simp] theorem State.fellows_setLowPower (x : List Nat) : (s.setLowPower x).fellows = s.fellows := rfl
@[simp] theorem State.pfc_setLowPower (x : List Nat) : (s.setLowPower x).pfc = s.pfc := rfl
@[simp] theorem State.reqs_setLowPower (x : List Nat) : (s.setLowPower x).reqs = s.reqs := rfl
@[simp] theorem State.serial_setLowPower (x : List Nat) : (s.setLowPower x).serial = s.serial := rfl
@[simp] theorem State.tag_setLowPower (x : List Nat) : (s.setLowPower x).tag = s.tag := rfl
@[simp] theorem State.chans_setLowPower (x : List Nat) : (s.setLowPower x).chans = s.chans := rfl
@[simp] theorem State.feeds_setLowPower (x : List Nat) : (s.setLowPower x).feeds = s.feeds := rfl
@[simp] theorem State.fences_setLowPower (x : List Nat) : (s.setLowPower x).fences = s.fences := rfl
@[simp] theorem State.recoveries_setLowPower (x : List Nat) : (s.setLowPower x).recoveries = s.recoveries := rfl
@[simp] theorem State.gviews_setLowPower (x : List Nat) : (s.setLowPower x).gviews = s.gviews := rfl
@[simp] theorem State.reds_setLowPower (x : List Nat) : (s.setLowPower x).reds = s.reds := rfl
@[simp] theorem State.redSeq_setLowPower (x : List Nat) : (s.setLowPower x).redSeq = s.redSeq := rfl
@[simp] theorem State.redRings_setLowPower (x : List Nat) : (s.setLowPower x).redRings = s.redRings := rfl
@[simp] theorem State.jobs_setLowPower (x : List Nat) : (s.setLowPower x).jobs = s.jobs := rfl
@[simp] theorem State.traceBufs_setLowPower (x : List Nat) : (s.setLowPower x).traceBufs = s.traceBufs := rfl
@[simp] theorem State.traceTurn_setLowPower (x : List Nat) : (s.setLowPower x).traceTurn = s.traceTurn := rfl
@[simp] theorem State.dm_setLowPower (x : List Nat) : (s.setLowPower x).dm = s.dm := rfl
@[simp] theorem State.posted_setLowPower (x : List Nat) : (s.setLowPower x).posted = s.posted := rfl
@[simp] theorem State.referee_setLowPower (x : List Nat) : (s.setLowPower x).referee = s.referee := rfl
@[simp] theorem State.power_setLowPower (x : List Nat) : (s.setLowPower x).power = s.power := rfl
@[simp] theorem State.freeCount_setLowPower (x : List Nat) : (s.setLowPower x).freeCount = s.freeCount := rfl
@[simp] theorem State.lines_setLowPower (x : List Nat) : (s.setLowPower x).lines = s.lines := rfl
@[simp] theorem State.hartCsr_setLowPower (x : List Nat) : (s.setLowPower x).hartCsr = s.hartCsr := rfl
@[simp] theorem State.msix_setLowPower (x : List Nat) : (s.setLowPower x).msix = s.msix := rfl
@[simp] theorem State.msixCtl_setLowPower (x : List Nat) : (s.setLowPower x).msixCtl = s.msixCtl := rfl
@[simp] theorem State.hartFull_setLowPower (x : List Nat) : (s.setLowPower x).hartFull = s.hartFull := rfl
@[simp] theorem State.pending_setFlags (x : List (Nat × Nat)) : (s.setFlags x).pending = s.pending := rfl
@[simp] theorem State.dtime_setFlags (x : List (Nat × Nat)) : (s.setFlags x).dtime = s.dtime := rfl
@[simp] theorem State.regs_setFlags (x : List (Nat × Nat)) : (s.setFlags x).regs = s.regs := rfl
@[simp] theorem State.mem_setFlags (x : List (Nat × Nat)) : (s.setFlags x).mem = s.mem := rfl
@[simp] theorem State.hostMem_setFlags (x : List (Nat × Nat)) : (s.setFlags x).hostMem = s.hostMem := rfl
@[simp] theorem State.book_setFlags (x : List (Nat × Nat)) : (s.setFlags x).book = s.book := rfl
@[simp] theorem State.learned_setFlags (x : List (Nat × Nat)) : (s.setFlags x).learned = s.learned := rfl
@[simp] theorem State.benched_setFlags (x : List (Nat × Nat)) : (s.setFlags x).benched = s.benched := rfl
@[simp] theorem State.cores_setFlags (x : List (Nat × Nat)) : (s.setFlags x).cores = s.cores := rfl
@[simp] theorem State.sync_setFlags (x : List (Nat × Nat)) : (s.setFlags x).sync = s.sync := rfl
@[simp] theorem State.waitOrder_setFlags (x : List (Nat × Nat)) : (s.setFlags x).waitOrder = s.waitOrder := rfl
@[simp] theorem State.signals_setFlags (x : List (Nat × Nat)) : (s.setFlags x).signals = s.signals := rfl
@[simp] theorem State.dispatch_setFlags (x : List (Nat × Nat)) : (s.setFlags x).dispatch = s.dispatch := rfl
@[simp] theorem State.segOrder_setFlags (x : List (Nat × Nat)) : (s.setFlags x).segOrder = s.segOrder := rfl
@[simp] theorem State.streams_setFlags (x : List (Nat × Nat)) : (s.setFlags x).streams = s.streams := rfl
@[simp] theorem State.rings_setFlags (x : List (Nat × Nat)) : (s.setFlags x).rings = s.rings := rfl
@[simp] theorem State.heads_setFlags (x : List (Nat × Nat)) : (s.setFlags x).heads = s.heads := rfl
@[simp] theorem State.haltAt_setFlags (x : List (Nat × Nat)) : (s.setFlags x).haltAt = s.haltAt := rfl
@[simp] theorem State.heldHeads_setFlags (x : List (Nat × Nat)) : (s.setFlags x).heldHeads = s.heldHeads := rfl
@[simp] theorem State.queues_setFlags (x : List (Nat × Nat)) : (s.setFlags x).queues = s.queues := rfl
@[simp] theorem State.atsOn_setFlags (x : List (Nat × Nat)) : (s.setFlags x).atsOn = s.atsOn := rfl
@[simp] theorem State.atc_setFlags (x : List (Nat × Nat)) : (s.setFlags x).atc = s.atc := rfl
@[simp] theorem State.lowPower_setFlags (x : List (Nat × Nat)) : (s.setFlags x).lowPower = s.lowPower := rfl
@[simp] theorem State.flags_setFlags (x : List (Nat × Nat)) : (s.setFlags x).flags = x := rfl
@[simp] theorem State.out_setFlags (x : List (Nat × Nat)) : (s.setFlags x).out = s.out := rfl
@[simp] theorem State.events_setFlags (x : List (Nat × Nat)) : (s.setFlags x).events = s.events := rfl
@[simp] theorem State.bad_setFlags (x : List (Nat × Nat)) : (s.setFlags x).bad = s.bad := rfl
@[simp] theorem State.poison_setFlags (x : List (Nat × Nat)) : (s.setFlags x).poison = s.poison := rfl
@[simp] theorem State.cache_setFlags (x : List (Nat × Nat)) : (s.setFlags x).cache = s.cache := rfl
@[simp] theorem State.watch_setFlags (x : List (Nat × Nat)) : (s.setFlags x).watch = s.watch := rfl
@[simp] theorem State.flash_setFlags (x : List (Nat × Nat)) : (s.setFlags x).flash = s.flash := rfl
@[simp] theorem State.flashDown_setFlags (x : List (Nat × Nat)) : (s.setFlags x).flashDown = s.flashDown := rfl
@[simp] theorem State.ports_setFlags (x : List (Nat × Nat)) : (s.setFlags x).ports = s.ports := rfl
@[simp] theorem State.inbox_setFlags (x : List (Nat × Nat)) : (s.setFlags x).inbox = s.inbox := rfl
@[simp] theorem State.fellows_setFlags (x : List (Nat × Nat)) : (s.setFlags x).fellows = s.fellows := rfl
@[simp] theorem State.pfc_setFlags (x : List (Nat × Nat)) : (s.setFlags x).pfc = s.pfc := rfl
@[simp] theorem State.reqs_setFlags (x : List (Nat × Nat)) : (s.setFlags x).reqs = s.reqs := rfl
@[simp] theorem State.serial_setFlags (x : List (Nat × Nat)) : (s.setFlags x).serial = s.serial := rfl
@[simp] theorem State.tag_setFlags (x : List (Nat × Nat)) : (s.setFlags x).tag = s.tag := rfl
@[simp] theorem State.chans_setFlags (x : List (Nat × Nat)) : (s.setFlags x).chans = s.chans := rfl
@[simp] theorem State.feeds_setFlags (x : List (Nat × Nat)) : (s.setFlags x).feeds = s.feeds := rfl
@[simp] theorem State.fences_setFlags (x : List (Nat × Nat)) : (s.setFlags x).fences = s.fences := rfl
@[simp] theorem State.recoveries_setFlags (x : List (Nat × Nat)) : (s.setFlags x).recoveries = s.recoveries := rfl
@[simp] theorem State.gviews_setFlags (x : List (Nat × Nat)) : (s.setFlags x).gviews = s.gviews := rfl
@[simp] theorem State.reds_setFlags (x : List (Nat × Nat)) : (s.setFlags x).reds = s.reds := rfl
@[simp] theorem State.redSeq_setFlags (x : List (Nat × Nat)) : (s.setFlags x).redSeq = s.redSeq := rfl
@[simp] theorem State.redRings_setFlags (x : List (Nat × Nat)) : (s.setFlags x).redRings = s.redRings := rfl
@[simp] theorem State.jobs_setFlags (x : List (Nat × Nat)) : (s.setFlags x).jobs = s.jobs := rfl
@[simp] theorem State.traceBufs_setFlags (x : List (Nat × Nat)) : (s.setFlags x).traceBufs = s.traceBufs := rfl
@[simp] theorem State.traceTurn_setFlags (x : List (Nat × Nat)) : (s.setFlags x).traceTurn = s.traceTurn := rfl
@[simp] theorem State.dm_setFlags (x : List (Nat × Nat)) : (s.setFlags x).dm = s.dm := rfl
@[simp] theorem State.posted_setFlags (x : List (Nat × Nat)) : (s.setFlags x).posted = s.posted := rfl
@[simp] theorem State.referee_setFlags (x : List (Nat × Nat)) : (s.setFlags x).referee = s.referee := rfl
@[simp] theorem State.power_setFlags (x : List (Nat × Nat)) : (s.setFlags x).power = s.power := rfl
@[simp] theorem State.freeCount_setFlags (x : List (Nat × Nat)) : (s.setFlags x).freeCount = s.freeCount := rfl
@[simp] theorem State.lines_setFlags (x : List (Nat × Nat)) : (s.setFlags x).lines = s.lines := rfl
@[simp] theorem State.hartCsr_setFlags (x : List (Nat × Nat)) : (s.setFlags x).hartCsr = s.hartCsr := rfl
@[simp] theorem State.msix_setFlags (x : List (Nat × Nat)) : (s.setFlags x).msix = s.msix := rfl
@[simp] theorem State.msixCtl_setFlags (x : List (Nat × Nat)) : (s.setFlags x).msixCtl = s.msixCtl := rfl
@[simp] theorem State.hartFull_setFlags (x : List (Nat × Nat)) : (s.setFlags x).hartFull = s.hartFull := rfl
@[simp] theorem State.pending_setOut (x : List Output) : (s.setOut x).pending = s.pending := rfl
@[simp] theorem State.dtime_setOut (x : List Output) : (s.setOut x).dtime = s.dtime := rfl
@[simp] theorem State.regs_setOut (x : List Output) : (s.setOut x).regs = s.regs := rfl
@[simp] theorem State.mem_setOut (x : List Output) : (s.setOut x).mem = s.mem := rfl
@[simp] theorem State.hostMem_setOut (x : List Output) : (s.setOut x).hostMem = s.hostMem := rfl
@[simp] theorem State.book_setOut (x : List Output) : (s.setOut x).book = s.book := rfl
@[simp] theorem State.learned_setOut (x : List Output) : (s.setOut x).learned = s.learned := rfl
@[simp] theorem State.benched_setOut (x : List Output) : (s.setOut x).benched = s.benched := rfl
@[simp] theorem State.cores_setOut (x : List Output) : (s.setOut x).cores = s.cores := rfl
@[simp] theorem State.sync_setOut (x : List Output) : (s.setOut x).sync = s.sync := rfl
@[simp] theorem State.waitOrder_setOut (x : List Output) : (s.setOut x).waitOrder = s.waitOrder := rfl
@[simp] theorem State.signals_setOut (x : List Output) : (s.setOut x).signals = s.signals := rfl
@[simp] theorem State.dispatch_setOut (x : List Output) : (s.setOut x).dispatch = s.dispatch := rfl
@[simp] theorem State.segOrder_setOut (x : List Output) : (s.setOut x).segOrder = s.segOrder := rfl
@[simp] theorem State.streams_setOut (x : List Output) : (s.setOut x).streams = s.streams := rfl
@[simp] theorem State.rings_setOut (x : List Output) : (s.setOut x).rings = s.rings := rfl
@[simp] theorem State.heads_setOut (x : List Output) : (s.setOut x).heads = s.heads := rfl
@[simp] theorem State.haltAt_setOut (x : List Output) : (s.setOut x).haltAt = s.haltAt := rfl
@[simp] theorem State.heldHeads_setOut (x : List Output) : (s.setOut x).heldHeads = s.heldHeads := rfl
@[simp] theorem State.queues_setOut (x : List Output) : (s.setOut x).queues = s.queues := rfl
@[simp] theorem State.atsOn_setOut (x : List Output) : (s.setOut x).atsOn = s.atsOn := rfl
@[simp] theorem State.atc_setOut (x : List Output) : (s.setOut x).atc = s.atc := rfl
@[simp] theorem State.lowPower_setOut (x : List Output) : (s.setOut x).lowPower = s.lowPower := rfl
@[simp] theorem State.flags_setOut (x : List Output) : (s.setOut x).flags = s.flags := rfl
@[simp] theorem State.out_setOut (x : List Output) : (s.setOut x).out = x := rfl
@[simp] theorem State.events_setOut (x : List Output) : (s.setOut x).events = s.events := rfl
@[simp] theorem State.bad_setOut (x : List Output) : (s.setOut x).bad = s.bad := rfl
@[simp] theorem State.poison_setOut (x : List Output) : (s.setOut x).poison = s.poison := rfl
@[simp] theorem State.cache_setOut (x : List Output) : (s.setOut x).cache = s.cache := rfl
@[simp] theorem State.watch_setOut (x : List Output) : (s.setOut x).watch = s.watch := rfl
@[simp] theorem State.flash_setOut (x : List Output) : (s.setOut x).flash = s.flash := rfl
@[simp] theorem State.flashDown_setOut (x : List Output) : (s.setOut x).flashDown = s.flashDown := rfl
@[simp] theorem State.ports_setOut (x : List Output) : (s.setOut x).ports = s.ports := rfl
@[simp] theorem State.inbox_setOut (x : List Output) : (s.setOut x).inbox = s.inbox := rfl
@[simp] theorem State.fellows_setOut (x : List Output) : (s.setOut x).fellows = s.fellows := rfl
@[simp] theorem State.pfc_setOut (x : List Output) : (s.setOut x).pfc = s.pfc := rfl
@[simp] theorem State.reqs_setOut (x : List Output) : (s.setOut x).reqs = s.reqs := rfl
@[simp] theorem State.serial_setOut (x : List Output) : (s.setOut x).serial = s.serial := rfl
@[simp] theorem State.tag_setOut (x : List Output) : (s.setOut x).tag = s.tag := rfl
@[simp] theorem State.chans_setOut (x : List Output) : (s.setOut x).chans = s.chans := rfl
@[simp] theorem State.feeds_setOut (x : List Output) : (s.setOut x).feeds = s.feeds := rfl
@[simp] theorem State.fences_setOut (x : List Output) : (s.setOut x).fences = s.fences := rfl
@[simp] theorem State.recoveries_setOut (x : List Output) : (s.setOut x).recoveries = s.recoveries := rfl
@[simp] theorem State.gviews_setOut (x : List Output) : (s.setOut x).gviews = s.gviews := rfl
@[simp] theorem State.reds_setOut (x : List Output) : (s.setOut x).reds = s.reds := rfl
@[simp] theorem State.redSeq_setOut (x : List Output) : (s.setOut x).redSeq = s.redSeq := rfl
@[simp] theorem State.redRings_setOut (x : List Output) : (s.setOut x).redRings = s.redRings := rfl
@[simp] theorem State.jobs_setOut (x : List Output) : (s.setOut x).jobs = s.jobs := rfl
@[simp] theorem State.traceBufs_setOut (x : List Output) : (s.setOut x).traceBufs = s.traceBufs := rfl
@[simp] theorem State.traceTurn_setOut (x : List Output) : (s.setOut x).traceTurn = s.traceTurn := rfl
@[simp] theorem State.dm_setOut (x : List Output) : (s.setOut x).dm = s.dm := rfl
@[simp] theorem State.posted_setOut (x : List Output) : (s.setOut x).posted = s.posted := rfl
@[simp] theorem State.referee_setOut (x : List Output) : (s.setOut x).referee = s.referee := rfl
@[simp] theorem State.power_setOut (x : List Output) : (s.setOut x).power = s.power := rfl
@[simp] theorem State.freeCount_setOut (x : List Output) : (s.setOut x).freeCount = s.freeCount := rfl
@[simp] theorem State.lines_setOut (x : List Output) : (s.setOut x).lines = s.lines := rfl
@[simp] theorem State.hartCsr_setOut (x : List Output) : (s.setOut x).hartCsr = s.hartCsr := rfl
@[simp] theorem State.msix_setOut (x : List Output) : (s.setOut x).msix = s.msix := rfl
@[simp] theorem State.msixCtl_setOut (x : List Output) : (s.setOut x).msixCtl = s.msixCtl := rfl
@[simp] theorem State.hartFull_setOut (x : List Output) : (s.setOut x).hartFull = s.hartFull := rfl
@[simp] theorem State.pending_setEvents (x : List Event) : (s.setEvents x).pending = s.pending := rfl
@[simp] theorem State.dtime_setEvents (x : List Event) : (s.setEvents x).dtime = s.dtime := rfl
@[simp] theorem State.regs_setEvents (x : List Event) : (s.setEvents x).regs = s.regs := rfl
@[simp] theorem State.mem_setEvents (x : List Event) : (s.setEvents x).mem = s.mem := rfl
@[simp] theorem State.hostMem_setEvents (x : List Event) : (s.setEvents x).hostMem = s.hostMem := rfl
@[simp] theorem State.book_setEvents (x : List Event) : (s.setEvents x).book = s.book := rfl
@[simp] theorem State.learned_setEvents (x : List Event) : (s.setEvents x).learned = s.learned := rfl
@[simp] theorem State.benched_setEvents (x : List Event) : (s.setEvents x).benched = s.benched := rfl
@[simp] theorem State.cores_setEvents (x : List Event) : (s.setEvents x).cores = s.cores := rfl
@[simp] theorem State.sync_setEvents (x : List Event) : (s.setEvents x).sync = s.sync := rfl
@[simp] theorem State.waitOrder_setEvents (x : List Event) : (s.setEvents x).waitOrder = s.waitOrder := rfl
@[simp] theorem State.signals_setEvents (x : List Event) : (s.setEvents x).signals = s.signals := rfl
@[simp] theorem State.dispatch_setEvents (x : List Event) : (s.setEvents x).dispatch = s.dispatch := rfl
@[simp] theorem State.segOrder_setEvents (x : List Event) : (s.setEvents x).segOrder = s.segOrder := rfl
@[simp] theorem State.streams_setEvents (x : List Event) : (s.setEvents x).streams = s.streams := rfl
@[simp] theorem State.rings_setEvents (x : List Event) : (s.setEvents x).rings = s.rings := rfl
@[simp] theorem State.heads_setEvents (x : List Event) : (s.setEvents x).heads = s.heads := rfl
@[simp] theorem State.haltAt_setEvents (x : List Event) : (s.setEvents x).haltAt = s.haltAt := rfl
@[simp] theorem State.heldHeads_setEvents (x : List Event) : (s.setEvents x).heldHeads = s.heldHeads := rfl
@[simp] theorem State.queues_setEvents (x : List Event) : (s.setEvents x).queues = s.queues := rfl
@[simp] theorem State.atsOn_setEvents (x : List Event) : (s.setEvents x).atsOn = s.atsOn := rfl
@[simp] theorem State.atc_setEvents (x : List Event) : (s.setEvents x).atc = s.atc := rfl
@[simp] theorem State.lowPower_setEvents (x : List Event) : (s.setEvents x).lowPower = s.lowPower := rfl
@[simp] theorem State.flags_setEvents (x : List Event) : (s.setEvents x).flags = s.flags := rfl
@[simp] theorem State.out_setEvents (x : List Event) : (s.setEvents x).out = s.out := rfl
@[simp] theorem State.events_setEvents (x : List Event) : (s.setEvents x).events = x := rfl
@[simp] theorem State.bad_setEvents (x : List Event) : (s.setEvents x).bad = s.bad := rfl
@[simp] theorem State.poison_setEvents (x : List Event) : (s.setEvents x).poison = s.poison := rfl
@[simp] theorem State.cache_setEvents (x : List Event) : (s.setEvents x).cache = s.cache := rfl
@[simp] theorem State.watch_setEvents (x : List Event) : (s.setEvents x).watch = s.watch := rfl
@[simp] theorem State.flash_setEvents (x : List Event) : (s.setEvents x).flash = s.flash := rfl
@[simp] theorem State.flashDown_setEvents (x : List Event) : (s.setEvents x).flashDown = s.flashDown := rfl
@[simp] theorem State.ports_setEvents (x : List Event) : (s.setEvents x).ports = s.ports := rfl
@[simp] theorem State.inbox_setEvents (x : List Event) : (s.setEvents x).inbox = s.inbox := rfl
@[simp] theorem State.fellows_setEvents (x : List Event) : (s.setEvents x).fellows = s.fellows := rfl
@[simp] theorem State.pfc_setEvents (x : List Event) : (s.setEvents x).pfc = s.pfc := rfl
@[simp] theorem State.reqs_setEvents (x : List Event) : (s.setEvents x).reqs = s.reqs := rfl
@[simp] theorem State.serial_setEvents (x : List Event) : (s.setEvents x).serial = s.serial := rfl
@[simp] theorem State.tag_setEvents (x : List Event) : (s.setEvents x).tag = s.tag := rfl
@[simp] theorem State.chans_setEvents (x : List Event) : (s.setEvents x).chans = s.chans := rfl
@[simp] theorem State.feeds_setEvents (x : List Event) : (s.setEvents x).feeds = s.feeds := rfl
@[simp] theorem State.fences_setEvents (x : List Event) : (s.setEvents x).fences = s.fences := rfl
@[simp] theorem State.recoveries_setEvents (x : List Event) : (s.setEvents x).recoveries = s.recoveries := rfl
@[simp] theorem State.gviews_setEvents (x : List Event) : (s.setEvents x).gviews = s.gviews := rfl
@[simp] theorem State.reds_setEvents (x : List Event) : (s.setEvents x).reds = s.reds := rfl
@[simp] theorem State.redSeq_setEvents (x : List Event) : (s.setEvents x).redSeq = s.redSeq := rfl
@[simp] theorem State.redRings_setEvents (x : List Event) : (s.setEvents x).redRings = s.redRings := rfl
@[simp] theorem State.jobs_setEvents (x : List Event) : (s.setEvents x).jobs = s.jobs := rfl
@[simp] theorem State.traceBufs_setEvents (x : List Event) : (s.setEvents x).traceBufs = s.traceBufs := rfl
@[simp] theorem State.traceTurn_setEvents (x : List Event) : (s.setEvents x).traceTurn = s.traceTurn := rfl
@[simp] theorem State.dm_setEvents (x : List Event) : (s.setEvents x).dm = s.dm := rfl
@[simp] theorem State.posted_setEvents (x : List Event) : (s.setEvents x).posted = s.posted := rfl
@[simp] theorem State.referee_setEvents (x : List Event) : (s.setEvents x).referee = s.referee := rfl
@[simp] theorem State.power_setEvents (x : List Event) : (s.setEvents x).power = s.power := rfl
@[simp] theorem State.freeCount_setEvents (x : List Event) : (s.setEvents x).freeCount = s.freeCount := rfl
@[simp] theorem State.lines_setEvents (x : List Event) : (s.setEvents x).lines = s.lines := rfl
@[simp] theorem State.hartCsr_setEvents (x : List Event) : (s.setEvents x).hartCsr = s.hartCsr := rfl
@[simp] theorem State.msix_setEvents (x : List Event) : (s.setEvents x).msix = s.msix := rfl
@[simp] theorem State.msixCtl_setEvents (x : List Event) : (s.setEvents x).msixCtl = s.msixCtl := rfl
@[simp] theorem State.hartFull_setEvents (x : List Event) : (s.setEvents x).hartFull = s.hartFull := rfl
@[simp] theorem State.pending_setBad (x : List (Nat × Bool)) : (s.setBad x).pending = s.pending := rfl
@[simp] theorem State.dtime_setBad (x : List (Nat × Bool)) : (s.setBad x).dtime = s.dtime := rfl
@[simp] theorem State.regs_setBad (x : List (Nat × Bool)) : (s.setBad x).regs = s.regs := rfl
@[simp] theorem State.mem_setBad (x : List (Nat × Bool)) : (s.setBad x).mem = s.mem := rfl
@[simp] theorem State.hostMem_setBad (x : List (Nat × Bool)) : (s.setBad x).hostMem = s.hostMem := rfl
@[simp] theorem State.book_setBad (x : List (Nat × Bool)) : (s.setBad x).book = s.book := rfl
@[simp] theorem State.learned_setBad (x : List (Nat × Bool)) : (s.setBad x).learned = s.learned := rfl
@[simp] theorem State.benched_setBad (x : List (Nat × Bool)) : (s.setBad x).benched = s.benched := rfl
@[simp] theorem State.cores_setBad (x : List (Nat × Bool)) : (s.setBad x).cores = s.cores := rfl
@[simp] theorem State.sync_setBad (x : List (Nat × Bool)) : (s.setBad x).sync = s.sync := rfl
@[simp] theorem State.waitOrder_setBad (x : List (Nat × Bool)) : (s.setBad x).waitOrder = s.waitOrder := rfl
@[simp] theorem State.signals_setBad (x : List (Nat × Bool)) : (s.setBad x).signals = s.signals := rfl
@[simp] theorem State.dispatch_setBad (x : List (Nat × Bool)) : (s.setBad x).dispatch = s.dispatch := rfl
@[simp] theorem State.segOrder_setBad (x : List (Nat × Bool)) : (s.setBad x).segOrder = s.segOrder := rfl
@[simp] theorem State.streams_setBad (x : List (Nat × Bool)) : (s.setBad x).streams = s.streams := rfl
@[simp] theorem State.rings_setBad (x : List (Nat × Bool)) : (s.setBad x).rings = s.rings := rfl
@[simp] theorem State.heads_setBad (x : List (Nat × Bool)) : (s.setBad x).heads = s.heads := rfl
@[simp] theorem State.haltAt_setBad (x : List (Nat × Bool)) : (s.setBad x).haltAt = s.haltAt := rfl
@[simp] theorem State.heldHeads_setBad (x : List (Nat × Bool)) : (s.setBad x).heldHeads = s.heldHeads := rfl
@[simp] theorem State.queues_setBad (x : List (Nat × Bool)) : (s.setBad x).queues = s.queues := rfl
@[simp] theorem State.atsOn_setBad (x : List (Nat × Bool)) : (s.setBad x).atsOn = s.atsOn := rfl
@[simp] theorem State.atc_setBad (x : List (Nat × Bool)) : (s.setBad x).atc = s.atc := rfl
@[simp] theorem State.lowPower_setBad (x : List (Nat × Bool)) : (s.setBad x).lowPower = s.lowPower := rfl
@[simp] theorem State.flags_setBad (x : List (Nat × Bool)) : (s.setBad x).flags = s.flags := rfl
@[simp] theorem State.out_setBad (x : List (Nat × Bool)) : (s.setBad x).out = s.out := rfl
@[simp] theorem State.events_setBad (x : List (Nat × Bool)) : (s.setBad x).events = s.events := rfl
@[simp] theorem State.bad_setBad (x : List (Nat × Bool)) : (s.setBad x).bad = x := rfl
@[simp] theorem State.poison_setBad (x : List (Nat × Bool)) : (s.setBad x).poison = s.poison := rfl
@[simp] theorem State.cache_setBad (x : List (Nat × Bool)) : (s.setBad x).cache = s.cache := rfl
@[simp] theorem State.watch_setBad (x : List (Nat × Bool)) : (s.setBad x).watch = s.watch := rfl
@[simp] theorem State.flash_setBad (x : List (Nat × Bool)) : (s.setBad x).flash = s.flash := rfl
@[simp] theorem State.flashDown_setBad (x : List (Nat × Bool)) : (s.setBad x).flashDown = s.flashDown := rfl
@[simp] theorem State.ports_setBad (x : List (Nat × Bool)) : (s.setBad x).ports = s.ports := rfl
@[simp] theorem State.inbox_setBad (x : List (Nat × Bool)) : (s.setBad x).inbox = s.inbox := rfl
@[simp] theorem State.fellows_setBad (x : List (Nat × Bool)) : (s.setBad x).fellows = s.fellows := rfl
@[simp] theorem State.pfc_setBad (x : List (Nat × Bool)) : (s.setBad x).pfc = s.pfc := rfl
@[simp] theorem State.reqs_setBad (x : List (Nat × Bool)) : (s.setBad x).reqs = s.reqs := rfl
@[simp] theorem State.serial_setBad (x : List (Nat × Bool)) : (s.setBad x).serial = s.serial := rfl
@[simp] theorem State.tag_setBad (x : List (Nat × Bool)) : (s.setBad x).tag = s.tag := rfl
@[simp] theorem State.chans_setBad (x : List (Nat × Bool)) : (s.setBad x).chans = s.chans := rfl
@[simp] theorem State.feeds_setBad (x : List (Nat × Bool)) : (s.setBad x).feeds = s.feeds := rfl
@[simp] theorem State.fences_setBad (x : List (Nat × Bool)) : (s.setBad x).fences = s.fences := rfl
@[simp] theorem State.recoveries_setBad (x : List (Nat × Bool)) : (s.setBad x).recoveries = s.recoveries := rfl
@[simp] theorem State.gviews_setBad (x : List (Nat × Bool)) : (s.setBad x).gviews = s.gviews := rfl
@[simp] theorem State.reds_setBad (x : List (Nat × Bool)) : (s.setBad x).reds = s.reds := rfl
@[simp] theorem State.redSeq_setBad (x : List (Nat × Bool)) : (s.setBad x).redSeq = s.redSeq := rfl
@[simp] theorem State.redRings_setBad (x : List (Nat × Bool)) : (s.setBad x).redRings = s.redRings := rfl
@[simp] theorem State.jobs_setBad (x : List (Nat × Bool)) : (s.setBad x).jobs = s.jobs := rfl
@[simp] theorem State.traceBufs_setBad (x : List (Nat × Bool)) : (s.setBad x).traceBufs = s.traceBufs := rfl
@[simp] theorem State.traceTurn_setBad (x : List (Nat × Bool)) : (s.setBad x).traceTurn = s.traceTurn := rfl
@[simp] theorem State.dm_setBad (x : List (Nat × Bool)) : (s.setBad x).dm = s.dm := rfl
@[simp] theorem State.posted_setBad (x : List (Nat × Bool)) : (s.setBad x).posted = s.posted := rfl
@[simp] theorem State.referee_setBad (x : List (Nat × Bool)) : (s.setBad x).referee = s.referee := rfl
@[simp] theorem State.power_setBad (x : List (Nat × Bool)) : (s.setBad x).power = s.power := rfl
@[simp] theorem State.freeCount_setBad (x : List (Nat × Bool)) : (s.setBad x).freeCount = s.freeCount := rfl
@[simp] theorem State.lines_setBad (x : List (Nat × Bool)) : (s.setBad x).lines = s.lines := rfl
@[simp] theorem State.hartCsr_setBad (x : List (Nat × Bool)) : (s.setBad x).hartCsr = s.hartCsr := rfl
@[simp] theorem State.msix_setBad (x : List (Nat × Bool)) : (s.setBad x).msix = s.msix := rfl
@[simp] theorem State.msixCtl_setBad (x : List (Nat × Bool)) : (s.setBad x).msixCtl = s.msixCtl := rfl
@[simp] theorem State.hartFull_setBad (x : List (Nat × Bool)) : (s.setBad x).hartFull = s.hartFull := rfl
@[simp] theorem State.pending_setPoison (x : List (Nat × Bool)) : (s.setPoison x).pending = s.pending := rfl
@[simp] theorem State.dtime_setPoison (x : List (Nat × Bool)) : (s.setPoison x).dtime = s.dtime := rfl
@[simp] theorem State.regs_setPoison (x : List (Nat × Bool)) : (s.setPoison x).regs = s.regs := rfl
@[simp] theorem State.mem_setPoison (x : List (Nat × Bool)) : (s.setPoison x).mem = s.mem := rfl
@[simp] theorem State.hostMem_setPoison (x : List (Nat × Bool)) : (s.setPoison x).hostMem = s.hostMem := rfl
@[simp] theorem State.book_setPoison (x : List (Nat × Bool)) : (s.setPoison x).book = s.book := rfl
@[simp] theorem State.learned_setPoison (x : List (Nat × Bool)) : (s.setPoison x).learned = s.learned := rfl
@[simp] theorem State.benched_setPoison (x : List (Nat × Bool)) : (s.setPoison x).benched = s.benched := rfl
@[simp] theorem State.cores_setPoison (x : List (Nat × Bool)) : (s.setPoison x).cores = s.cores := rfl
@[simp] theorem State.sync_setPoison (x : List (Nat × Bool)) : (s.setPoison x).sync = s.sync := rfl
@[simp] theorem State.waitOrder_setPoison (x : List (Nat × Bool)) : (s.setPoison x).waitOrder = s.waitOrder := rfl
@[simp] theorem State.signals_setPoison (x : List (Nat × Bool)) : (s.setPoison x).signals = s.signals := rfl
@[simp] theorem State.dispatch_setPoison (x : List (Nat × Bool)) : (s.setPoison x).dispatch = s.dispatch := rfl
@[simp] theorem State.segOrder_setPoison (x : List (Nat × Bool)) : (s.setPoison x).segOrder = s.segOrder := rfl
@[simp] theorem State.streams_setPoison (x : List (Nat × Bool)) : (s.setPoison x).streams = s.streams := rfl
@[simp] theorem State.rings_setPoison (x : List (Nat × Bool)) : (s.setPoison x).rings = s.rings := rfl
@[simp] theorem State.heads_setPoison (x : List (Nat × Bool)) : (s.setPoison x).heads = s.heads := rfl
@[simp] theorem State.haltAt_setPoison (x : List (Nat × Bool)) : (s.setPoison x).haltAt = s.haltAt := rfl
@[simp] theorem State.heldHeads_setPoison (x : List (Nat × Bool)) : (s.setPoison x).heldHeads = s.heldHeads := rfl
@[simp] theorem State.queues_setPoison (x : List (Nat × Bool)) : (s.setPoison x).queues = s.queues := rfl
@[simp] theorem State.atsOn_setPoison (x : List (Nat × Bool)) : (s.setPoison x).atsOn = s.atsOn := rfl
@[simp] theorem State.atc_setPoison (x : List (Nat × Bool)) : (s.setPoison x).atc = s.atc := rfl
@[simp] theorem State.lowPower_setPoison (x : List (Nat × Bool)) : (s.setPoison x).lowPower = s.lowPower := rfl
@[simp] theorem State.flags_setPoison (x : List (Nat × Bool)) : (s.setPoison x).flags = s.flags := rfl
@[simp] theorem State.out_setPoison (x : List (Nat × Bool)) : (s.setPoison x).out = s.out := rfl
@[simp] theorem State.events_setPoison (x : List (Nat × Bool)) : (s.setPoison x).events = s.events := rfl
@[simp] theorem State.bad_setPoison (x : List (Nat × Bool)) : (s.setPoison x).bad = s.bad := rfl
@[simp] theorem State.poison_setPoison (x : List (Nat × Bool)) : (s.setPoison x).poison = x := rfl
@[simp] theorem State.cache_setPoison (x : List (Nat × Bool)) : (s.setPoison x).cache = s.cache := rfl
@[simp] theorem State.watch_setPoison (x : List (Nat × Bool)) : (s.setPoison x).watch = s.watch := rfl
@[simp] theorem State.flash_setPoison (x : List (Nat × Bool)) : (s.setPoison x).flash = s.flash := rfl
@[simp] theorem State.flashDown_setPoison (x : List (Nat × Bool)) : (s.setPoison x).flashDown = s.flashDown := rfl
@[simp] theorem State.ports_setPoison (x : List (Nat × Bool)) : (s.setPoison x).ports = s.ports := rfl
@[simp] theorem State.inbox_setPoison (x : List (Nat × Bool)) : (s.setPoison x).inbox = s.inbox := rfl
@[simp] theorem State.fellows_setPoison (x : List (Nat × Bool)) : (s.setPoison x).fellows = s.fellows := rfl
@[simp] theorem State.pfc_setPoison (x : List (Nat × Bool)) : (s.setPoison x).pfc = s.pfc := rfl
@[simp] theorem State.reqs_setPoison (x : List (Nat × Bool)) : (s.setPoison x).reqs = s.reqs := rfl
@[simp] theorem State.serial_setPoison (x : List (Nat × Bool)) : (s.setPoison x).serial = s.serial := rfl
@[simp] theorem State.tag_setPoison (x : List (Nat × Bool)) : (s.setPoison x).tag = s.tag := rfl
@[simp] theorem State.chans_setPoison (x : List (Nat × Bool)) : (s.setPoison x).chans = s.chans := rfl
@[simp] theorem State.feeds_setPoison (x : List (Nat × Bool)) : (s.setPoison x).feeds = s.feeds := rfl
@[simp] theorem State.fences_setPoison (x : List (Nat × Bool)) : (s.setPoison x).fences = s.fences := rfl
@[simp] theorem State.recoveries_setPoison (x : List (Nat × Bool)) : (s.setPoison x).recoveries = s.recoveries := rfl
@[simp] theorem State.gviews_setPoison (x : List (Nat × Bool)) : (s.setPoison x).gviews = s.gviews := rfl
@[simp] theorem State.reds_setPoison (x : List (Nat × Bool)) : (s.setPoison x).reds = s.reds := rfl
@[simp] theorem State.redSeq_setPoison (x : List (Nat × Bool)) : (s.setPoison x).redSeq = s.redSeq := rfl
@[simp] theorem State.redRings_setPoison (x : List (Nat × Bool)) : (s.setPoison x).redRings = s.redRings := rfl
@[simp] theorem State.jobs_setPoison (x : List (Nat × Bool)) : (s.setPoison x).jobs = s.jobs := rfl
@[simp] theorem State.traceBufs_setPoison (x : List (Nat × Bool)) : (s.setPoison x).traceBufs = s.traceBufs := rfl
@[simp] theorem State.traceTurn_setPoison (x : List (Nat × Bool)) : (s.setPoison x).traceTurn = s.traceTurn := rfl
@[simp] theorem State.dm_setPoison (x : List (Nat × Bool)) : (s.setPoison x).dm = s.dm := rfl
@[simp] theorem State.posted_setPoison (x : List (Nat × Bool)) : (s.setPoison x).posted = s.posted := rfl
@[simp] theorem State.referee_setPoison (x : List (Nat × Bool)) : (s.setPoison x).referee = s.referee := rfl
@[simp] theorem State.power_setPoison (x : List (Nat × Bool)) : (s.setPoison x).power = s.power := rfl
@[simp] theorem State.freeCount_setPoison (x : List (Nat × Bool)) : (s.setPoison x).freeCount = s.freeCount := rfl
@[simp] theorem State.lines_setPoison (x : List (Nat × Bool)) : (s.setPoison x).lines = s.lines := rfl
@[simp] theorem State.hartCsr_setPoison (x : List (Nat × Bool)) : (s.setPoison x).hartCsr = s.hartCsr := rfl
@[simp] theorem State.msix_setPoison (x : List (Nat × Bool)) : (s.setPoison x).msix = s.msix := rfl
@[simp] theorem State.msixCtl_setPoison (x : List (Nat × Bool)) : (s.setPoison x).msixCtl = s.msixCtl := rfl
@[simp] theorem State.hartFull_setPoison (x : List (Nat × Bool)) : (s.setPoison x).hartFull = s.hartFull := rfl
@[simp] theorem State.pending_setCache (x : List (Nat × List CacheLine)) : (s.setCache x).pending = s.pending := rfl
@[simp] theorem State.dtime_setCache (x : List (Nat × List CacheLine)) : (s.setCache x).dtime = s.dtime := rfl
@[simp] theorem State.regs_setCache (x : List (Nat × List CacheLine)) : (s.setCache x).regs = s.regs := rfl
@[simp] theorem State.mem_setCache (x : List (Nat × List CacheLine)) : (s.setCache x).mem = s.mem := rfl
@[simp] theorem State.hostMem_setCache (x : List (Nat × List CacheLine)) : (s.setCache x).hostMem = s.hostMem := rfl
@[simp] theorem State.book_setCache (x : List (Nat × List CacheLine)) : (s.setCache x).book = s.book := rfl
@[simp] theorem State.learned_setCache (x : List (Nat × List CacheLine)) : (s.setCache x).learned = s.learned := rfl
@[simp] theorem State.benched_setCache (x : List (Nat × List CacheLine)) : (s.setCache x).benched = s.benched := rfl
@[simp] theorem State.cores_setCache (x : List (Nat × List CacheLine)) : (s.setCache x).cores = s.cores := rfl
@[simp] theorem State.sync_setCache (x : List (Nat × List CacheLine)) : (s.setCache x).sync = s.sync := rfl
@[simp] theorem State.waitOrder_setCache (x : List (Nat × List CacheLine)) : (s.setCache x).waitOrder = s.waitOrder := rfl
@[simp] theorem State.signals_setCache (x : List (Nat × List CacheLine)) : (s.setCache x).signals = s.signals := rfl
@[simp] theorem State.dispatch_setCache (x : List (Nat × List CacheLine)) : (s.setCache x).dispatch = s.dispatch := rfl
@[simp] theorem State.segOrder_setCache (x : List (Nat × List CacheLine)) : (s.setCache x).segOrder = s.segOrder := rfl
@[simp] theorem State.streams_setCache (x : List (Nat × List CacheLine)) : (s.setCache x).streams = s.streams := rfl
@[simp] theorem State.rings_setCache (x : List (Nat × List CacheLine)) : (s.setCache x).rings = s.rings := rfl
@[simp] theorem State.heads_setCache (x : List (Nat × List CacheLine)) : (s.setCache x).heads = s.heads := rfl
@[simp] theorem State.haltAt_setCache (x : List (Nat × List CacheLine)) : (s.setCache x).haltAt = s.haltAt := rfl
@[simp] theorem State.heldHeads_setCache (x : List (Nat × List CacheLine)) : (s.setCache x).heldHeads = s.heldHeads := rfl
@[simp] theorem State.queues_setCache (x : List (Nat × List CacheLine)) : (s.setCache x).queues = s.queues := rfl
@[simp] theorem State.atsOn_setCache (x : List (Nat × List CacheLine)) : (s.setCache x).atsOn = s.atsOn := rfl
@[simp] theorem State.atc_setCache (x : List (Nat × List CacheLine)) : (s.setCache x).atc = s.atc := rfl
@[simp] theorem State.lowPower_setCache (x : List (Nat × List CacheLine)) : (s.setCache x).lowPower = s.lowPower := rfl
@[simp] theorem State.flags_setCache (x : List (Nat × List CacheLine)) : (s.setCache x).flags = s.flags := rfl
@[simp] theorem State.out_setCache (x : List (Nat × List CacheLine)) : (s.setCache x).out = s.out := rfl
@[simp] theorem State.events_setCache (x : List (Nat × List CacheLine)) : (s.setCache x).events = s.events := rfl
@[simp] theorem State.bad_setCache (x : List (Nat × List CacheLine)) : (s.setCache x).bad = s.bad := rfl
@[simp] theorem State.poison_setCache (x : List (Nat × List CacheLine)) : (s.setCache x).poison = s.poison := rfl
@[simp] theorem State.cache_setCache (x : List (Nat × List CacheLine)) : (s.setCache x).cache = x := rfl
@[simp] theorem State.watch_setCache (x : List (Nat × List CacheLine)) : (s.setCache x).watch = s.watch := rfl
@[simp] theorem State.flash_setCache (x : List (Nat × List CacheLine)) : (s.setCache x).flash = s.flash := rfl
@[simp] theorem State.flashDown_setCache (x : List (Nat × List CacheLine)) : (s.setCache x).flashDown = s.flashDown := rfl
@[simp] theorem State.ports_setCache (x : List (Nat × List CacheLine)) : (s.setCache x).ports = s.ports := rfl
@[simp] theorem State.inbox_setCache (x : List (Nat × List CacheLine)) : (s.setCache x).inbox = s.inbox := rfl
@[simp] theorem State.fellows_setCache (x : List (Nat × List CacheLine)) : (s.setCache x).fellows = s.fellows := rfl
@[simp] theorem State.pfc_setCache (x : List (Nat × List CacheLine)) : (s.setCache x).pfc = s.pfc := rfl
@[simp] theorem State.reqs_setCache (x : List (Nat × List CacheLine)) : (s.setCache x).reqs = s.reqs := rfl
@[simp] theorem State.serial_setCache (x : List (Nat × List CacheLine)) : (s.setCache x).serial = s.serial := rfl
@[simp] theorem State.tag_setCache (x : List (Nat × List CacheLine)) : (s.setCache x).tag = s.tag := rfl
@[simp] theorem State.chans_setCache (x : List (Nat × List CacheLine)) : (s.setCache x).chans = s.chans := rfl
@[simp] theorem State.feeds_setCache (x : List (Nat × List CacheLine)) : (s.setCache x).feeds = s.feeds := rfl
@[simp] theorem State.fences_setCache (x : List (Nat × List CacheLine)) : (s.setCache x).fences = s.fences := rfl
@[simp] theorem State.recoveries_setCache (x : List (Nat × List CacheLine)) : (s.setCache x).recoveries = s.recoveries := rfl
@[simp] theorem State.gviews_setCache (x : List (Nat × List CacheLine)) : (s.setCache x).gviews = s.gviews := rfl
@[simp] theorem State.reds_setCache (x : List (Nat × List CacheLine)) : (s.setCache x).reds = s.reds := rfl
@[simp] theorem State.redSeq_setCache (x : List (Nat × List CacheLine)) : (s.setCache x).redSeq = s.redSeq := rfl
@[simp] theorem State.redRings_setCache (x : List (Nat × List CacheLine)) : (s.setCache x).redRings = s.redRings := rfl
@[simp] theorem State.jobs_setCache (x : List (Nat × List CacheLine)) : (s.setCache x).jobs = s.jobs := rfl
@[simp] theorem State.traceBufs_setCache (x : List (Nat × List CacheLine)) : (s.setCache x).traceBufs = s.traceBufs := rfl
@[simp] theorem State.traceTurn_setCache (x : List (Nat × List CacheLine)) : (s.setCache x).traceTurn = s.traceTurn := rfl
@[simp] theorem State.dm_setCache (x : List (Nat × List CacheLine)) : (s.setCache x).dm = s.dm := rfl
@[simp] theorem State.posted_setCache (x : List (Nat × List CacheLine)) : (s.setCache x).posted = s.posted := rfl
@[simp] theorem State.referee_setCache (x : List (Nat × List CacheLine)) : (s.setCache x).referee = s.referee := rfl
@[simp] theorem State.power_setCache (x : List (Nat × List CacheLine)) : (s.setCache x).power = s.power := rfl
@[simp] theorem State.freeCount_setCache (x : List (Nat × List CacheLine)) : (s.setCache x).freeCount = s.freeCount := rfl
@[simp] theorem State.lines_setCache (x : List (Nat × List CacheLine)) : (s.setCache x).lines = s.lines := rfl
@[simp] theorem State.hartCsr_setCache (x : List (Nat × List CacheLine)) : (s.setCache x).hartCsr = s.hartCsr := rfl
@[simp] theorem State.msix_setCache (x : List (Nat × List CacheLine)) : (s.setCache x).msix = s.msix := rfl
@[simp] theorem State.msixCtl_setCache (x : List (Nat × List CacheLine)) : (s.setCache x).msixCtl = s.msixCtl := rfl
@[simp] theorem State.hartFull_setCache (x : List (Nat × List CacheLine)) : (s.setCache x).hartFull = s.hartFull := rfl
@[simp] theorem State.pending_setFlash (x : List (Nat × FlashObj)) : (s.setFlash x).pending = s.pending := rfl
@[simp] theorem State.dtime_setFlash (x : List (Nat × FlashObj)) : (s.setFlash x).dtime = s.dtime := rfl
@[simp] theorem State.regs_setFlash (x : List (Nat × FlashObj)) : (s.setFlash x).regs = s.regs := rfl
@[simp] theorem State.mem_setFlash (x : List (Nat × FlashObj)) : (s.setFlash x).mem = s.mem := rfl
@[simp] theorem State.hostMem_setFlash (x : List (Nat × FlashObj)) : (s.setFlash x).hostMem = s.hostMem := rfl
@[simp] theorem State.book_setFlash (x : List (Nat × FlashObj)) : (s.setFlash x).book = s.book := rfl
@[simp] theorem State.learned_setFlash (x : List (Nat × FlashObj)) : (s.setFlash x).learned = s.learned := rfl
@[simp] theorem State.benched_setFlash (x : List (Nat × FlashObj)) : (s.setFlash x).benched = s.benched := rfl
@[simp] theorem State.cores_setFlash (x : List (Nat × FlashObj)) : (s.setFlash x).cores = s.cores := rfl
@[simp] theorem State.sync_setFlash (x : List (Nat × FlashObj)) : (s.setFlash x).sync = s.sync := rfl
@[simp] theorem State.waitOrder_setFlash (x : List (Nat × FlashObj)) : (s.setFlash x).waitOrder = s.waitOrder := rfl
@[simp] theorem State.signals_setFlash (x : List (Nat × FlashObj)) : (s.setFlash x).signals = s.signals := rfl
@[simp] theorem State.dispatch_setFlash (x : List (Nat × FlashObj)) : (s.setFlash x).dispatch = s.dispatch := rfl
@[simp] theorem State.segOrder_setFlash (x : List (Nat × FlashObj)) : (s.setFlash x).segOrder = s.segOrder := rfl
@[simp] theorem State.streams_setFlash (x : List (Nat × FlashObj)) : (s.setFlash x).streams = s.streams := rfl
@[simp] theorem State.rings_setFlash (x : List (Nat × FlashObj)) : (s.setFlash x).rings = s.rings := rfl
@[simp] theorem State.heads_setFlash (x : List (Nat × FlashObj)) : (s.setFlash x).heads = s.heads := rfl
@[simp] theorem State.haltAt_setFlash (x : List (Nat × FlashObj)) : (s.setFlash x).haltAt = s.haltAt := rfl
@[simp] theorem State.heldHeads_setFlash (x : List (Nat × FlashObj)) : (s.setFlash x).heldHeads = s.heldHeads := rfl
@[simp] theorem State.queues_setFlash (x : List (Nat × FlashObj)) : (s.setFlash x).queues = s.queues := rfl
@[simp] theorem State.atsOn_setFlash (x : List (Nat × FlashObj)) : (s.setFlash x).atsOn = s.atsOn := rfl
@[simp] theorem State.atc_setFlash (x : List (Nat × FlashObj)) : (s.setFlash x).atc = s.atc := rfl
@[simp] theorem State.lowPower_setFlash (x : List (Nat × FlashObj)) : (s.setFlash x).lowPower = s.lowPower := rfl
@[simp] theorem State.flags_setFlash (x : List (Nat × FlashObj)) : (s.setFlash x).flags = s.flags := rfl
@[simp] theorem State.out_setFlash (x : List (Nat × FlashObj)) : (s.setFlash x).out = s.out := rfl
@[simp] theorem State.events_setFlash (x : List (Nat × FlashObj)) : (s.setFlash x).events = s.events := rfl
@[simp] theorem State.bad_setFlash (x : List (Nat × FlashObj)) : (s.setFlash x).bad = s.bad := rfl
@[simp] theorem State.poison_setFlash (x : List (Nat × FlashObj)) : (s.setFlash x).poison = s.poison := rfl
@[simp] theorem State.cache_setFlash (x : List (Nat × FlashObj)) : (s.setFlash x).cache = s.cache := rfl
@[simp] theorem State.watch_setFlash (x : List (Nat × FlashObj)) : (s.setFlash x).watch = s.watch := rfl
@[simp] theorem State.flash_setFlash (x : List (Nat × FlashObj)) : (s.setFlash x).flash = x := rfl
@[simp] theorem State.flashDown_setFlash (x : List (Nat × FlashObj)) : (s.setFlash x).flashDown = s.flashDown := rfl
@[simp] theorem State.ports_setFlash (x : List (Nat × FlashObj)) : (s.setFlash x).ports = s.ports := rfl
@[simp] theorem State.inbox_setFlash (x : List (Nat × FlashObj)) : (s.setFlash x).inbox = s.inbox := rfl
@[simp] theorem State.fellows_setFlash (x : List (Nat × FlashObj)) : (s.setFlash x).fellows = s.fellows := rfl
@[simp] theorem State.pfc_setFlash (x : List (Nat × FlashObj)) : (s.setFlash x).pfc = s.pfc := rfl
@[simp] theorem State.reqs_setFlash (x : List (Nat × FlashObj)) : (s.setFlash x).reqs = s.reqs := rfl
@[simp] theorem State.serial_setFlash (x : List (Nat × FlashObj)) : (s.setFlash x).serial = s.serial := rfl
@[simp] theorem State.tag_setFlash (x : List (Nat × FlashObj)) : (s.setFlash x).tag = s.tag := rfl
@[simp] theorem State.chans_setFlash (x : List (Nat × FlashObj)) : (s.setFlash x).chans = s.chans := rfl
@[simp] theorem State.feeds_setFlash (x : List (Nat × FlashObj)) : (s.setFlash x).feeds = s.feeds := rfl
@[simp] theorem State.fences_setFlash (x : List (Nat × FlashObj)) : (s.setFlash x).fences = s.fences := rfl
@[simp] theorem State.recoveries_setFlash (x : List (Nat × FlashObj)) : (s.setFlash x).recoveries = s.recoveries := rfl
@[simp] theorem State.gviews_setFlash (x : List (Nat × FlashObj)) : (s.setFlash x).gviews = s.gviews := rfl
@[simp] theorem State.reds_setFlash (x : List (Nat × FlashObj)) : (s.setFlash x).reds = s.reds := rfl
@[simp] theorem State.redSeq_setFlash (x : List (Nat × FlashObj)) : (s.setFlash x).redSeq = s.redSeq := rfl
@[simp] theorem State.redRings_setFlash (x : List (Nat × FlashObj)) : (s.setFlash x).redRings = s.redRings := rfl
@[simp] theorem State.jobs_setFlash (x : List (Nat × FlashObj)) : (s.setFlash x).jobs = s.jobs := rfl
@[simp] theorem State.traceBufs_setFlash (x : List (Nat × FlashObj)) : (s.setFlash x).traceBufs = s.traceBufs := rfl
@[simp] theorem State.traceTurn_setFlash (x : List (Nat × FlashObj)) : (s.setFlash x).traceTurn = s.traceTurn := rfl
@[simp] theorem State.dm_setFlash (x : List (Nat × FlashObj)) : (s.setFlash x).dm = s.dm := rfl
@[simp] theorem State.posted_setFlash (x : List (Nat × FlashObj)) : (s.setFlash x).posted = s.posted := rfl
@[simp] theorem State.referee_setFlash (x : List (Nat × FlashObj)) : (s.setFlash x).referee = s.referee := rfl
@[simp] theorem State.power_setFlash (x : List (Nat × FlashObj)) : (s.setFlash x).power = s.power := rfl
@[simp] theorem State.freeCount_setFlash (x : List (Nat × FlashObj)) : (s.setFlash x).freeCount = s.freeCount := rfl
@[simp] theorem State.lines_setFlash (x : List (Nat × FlashObj)) : (s.setFlash x).lines = s.lines := rfl
@[simp] theorem State.hartCsr_setFlash (x : List (Nat × FlashObj)) : (s.setFlash x).hartCsr = s.hartCsr := rfl
@[simp] theorem State.msix_setFlash (x : List (Nat × FlashObj)) : (s.setFlash x).msix = s.msix := rfl
@[simp] theorem State.msixCtl_setFlash (x : List (Nat × FlashObj)) : (s.setFlash x).msixCtl = s.msixCtl := rfl
@[simp] theorem State.hartFull_setFlash (x : List (Nat × FlashObj)) : (s.setFlash x).hartFull = s.hartFull := rfl
@[simp] theorem State.pending_setFlashDown (x : List Nat) : (s.setFlashDown x).pending = s.pending := rfl
@[simp] theorem State.dtime_setFlashDown (x : List Nat) : (s.setFlashDown x).dtime = s.dtime := rfl
@[simp] theorem State.regs_setFlashDown (x : List Nat) : (s.setFlashDown x).regs = s.regs := rfl
@[simp] theorem State.mem_setFlashDown (x : List Nat) : (s.setFlashDown x).mem = s.mem := rfl
@[simp] theorem State.hostMem_setFlashDown (x : List Nat) : (s.setFlashDown x).hostMem = s.hostMem := rfl
@[simp] theorem State.book_setFlashDown (x : List Nat) : (s.setFlashDown x).book = s.book := rfl
@[simp] theorem State.learned_setFlashDown (x : List Nat) : (s.setFlashDown x).learned = s.learned := rfl
@[simp] theorem State.benched_setFlashDown (x : List Nat) : (s.setFlashDown x).benched = s.benched := rfl
@[simp] theorem State.cores_setFlashDown (x : List Nat) : (s.setFlashDown x).cores = s.cores := rfl
@[simp] theorem State.sync_setFlashDown (x : List Nat) : (s.setFlashDown x).sync = s.sync := rfl
@[simp] theorem State.waitOrder_setFlashDown (x : List Nat) : (s.setFlashDown x).waitOrder = s.waitOrder := rfl
@[simp] theorem State.signals_setFlashDown (x : List Nat) : (s.setFlashDown x).signals = s.signals := rfl
@[simp] theorem State.dispatch_setFlashDown (x : List Nat) : (s.setFlashDown x).dispatch = s.dispatch := rfl
@[simp] theorem State.segOrder_setFlashDown (x : List Nat) : (s.setFlashDown x).segOrder = s.segOrder := rfl
@[simp] theorem State.streams_setFlashDown (x : List Nat) : (s.setFlashDown x).streams = s.streams := rfl
@[simp] theorem State.rings_setFlashDown (x : List Nat) : (s.setFlashDown x).rings = s.rings := rfl
@[simp] theorem State.heads_setFlashDown (x : List Nat) : (s.setFlashDown x).heads = s.heads := rfl
@[simp] theorem State.haltAt_setFlashDown (x : List Nat) : (s.setFlashDown x).haltAt = s.haltAt := rfl
@[simp] theorem State.heldHeads_setFlashDown (x : List Nat) : (s.setFlashDown x).heldHeads = s.heldHeads := rfl
@[simp] theorem State.queues_setFlashDown (x : List Nat) : (s.setFlashDown x).queues = s.queues := rfl
@[simp] theorem State.atsOn_setFlashDown (x : List Nat) : (s.setFlashDown x).atsOn = s.atsOn := rfl
@[simp] theorem State.atc_setFlashDown (x : List Nat) : (s.setFlashDown x).atc = s.atc := rfl
@[simp] theorem State.lowPower_setFlashDown (x : List Nat) : (s.setFlashDown x).lowPower = s.lowPower := rfl
@[simp] theorem State.flags_setFlashDown (x : List Nat) : (s.setFlashDown x).flags = s.flags := rfl
@[simp] theorem State.out_setFlashDown (x : List Nat) : (s.setFlashDown x).out = s.out := rfl
@[simp] theorem State.events_setFlashDown (x : List Nat) : (s.setFlashDown x).events = s.events := rfl
@[simp] theorem State.bad_setFlashDown (x : List Nat) : (s.setFlashDown x).bad = s.bad := rfl
@[simp] theorem State.poison_setFlashDown (x : List Nat) : (s.setFlashDown x).poison = s.poison := rfl
@[simp] theorem State.cache_setFlashDown (x : List Nat) : (s.setFlashDown x).cache = s.cache := rfl
@[simp] theorem State.watch_setFlashDown (x : List Nat) : (s.setFlashDown x).watch = s.watch := rfl
@[simp] theorem State.flash_setFlashDown (x : List Nat) : (s.setFlashDown x).flash = s.flash := rfl
@[simp] theorem State.flashDown_setFlashDown (x : List Nat) : (s.setFlashDown x).flashDown = x := rfl
@[simp] theorem State.ports_setFlashDown (x : List Nat) : (s.setFlashDown x).ports = s.ports := rfl
@[simp] theorem State.inbox_setFlashDown (x : List Nat) : (s.setFlashDown x).inbox = s.inbox := rfl
@[simp] theorem State.fellows_setFlashDown (x : List Nat) : (s.setFlashDown x).fellows = s.fellows := rfl
@[simp] theorem State.pfc_setFlashDown (x : List Nat) : (s.setFlashDown x).pfc = s.pfc := rfl
@[simp] theorem State.reqs_setFlashDown (x : List Nat) : (s.setFlashDown x).reqs = s.reqs := rfl
@[simp] theorem State.serial_setFlashDown (x : List Nat) : (s.setFlashDown x).serial = s.serial := rfl
@[simp] theorem State.tag_setFlashDown (x : List Nat) : (s.setFlashDown x).tag = s.tag := rfl
@[simp] theorem State.chans_setFlashDown (x : List Nat) : (s.setFlashDown x).chans = s.chans := rfl
@[simp] theorem State.feeds_setFlashDown (x : List Nat) : (s.setFlashDown x).feeds = s.feeds := rfl
@[simp] theorem State.fences_setFlashDown (x : List Nat) : (s.setFlashDown x).fences = s.fences := rfl
@[simp] theorem State.recoveries_setFlashDown (x : List Nat) : (s.setFlashDown x).recoveries = s.recoveries := rfl
@[simp] theorem State.gviews_setFlashDown (x : List Nat) : (s.setFlashDown x).gviews = s.gviews := rfl
@[simp] theorem State.reds_setFlashDown (x : List Nat) : (s.setFlashDown x).reds = s.reds := rfl
@[simp] theorem State.redSeq_setFlashDown (x : List Nat) : (s.setFlashDown x).redSeq = s.redSeq := rfl
@[simp] theorem State.redRings_setFlashDown (x : List Nat) : (s.setFlashDown x).redRings = s.redRings := rfl
@[simp] theorem State.jobs_setFlashDown (x : List Nat) : (s.setFlashDown x).jobs = s.jobs := rfl
@[simp] theorem State.traceBufs_setFlashDown (x : List Nat) : (s.setFlashDown x).traceBufs = s.traceBufs := rfl
@[simp] theorem State.traceTurn_setFlashDown (x : List Nat) : (s.setFlashDown x).traceTurn = s.traceTurn := rfl
@[simp] theorem State.dm_setFlashDown (x : List Nat) : (s.setFlashDown x).dm = s.dm := rfl
@[simp] theorem State.posted_setFlashDown (x : List Nat) : (s.setFlashDown x).posted = s.posted := rfl
@[simp] theorem State.referee_setFlashDown (x : List Nat) : (s.setFlashDown x).referee = s.referee := rfl
@[simp] theorem State.power_setFlashDown (x : List Nat) : (s.setFlashDown x).power = s.power := rfl
@[simp] theorem State.freeCount_setFlashDown (x : List Nat) : (s.setFlashDown x).freeCount = s.freeCount := rfl
@[simp] theorem State.lines_setFlashDown (x : List Nat) : (s.setFlashDown x).lines = s.lines := rfl
@[simp] theorem State.hartCsr_setFlashDown (x : List Nat) : (s.setFlashDown x).hartCsr = s.hartCsr := rfl
@[simp] theorem State.msix_setFlashDown (x : List Nat) : (s.setFlashDown x).msix = s.msix := rfl
@[simp] theorem State.msixCtl_setFlashDown (x : List Nat) : (s.setFlashDown x).msixCtl = s.msixCtl := rfl
@[simp] theorem State.hartFull_setFlashDown (x : List Nat) : (s.setFlashDown x).hartFull = s.hartFull := rfl
@[simp] theorem State.pending_setPorts (x : List (Nat × Port)) : (s.setPorts x).pending = s.pending := rfl
@[simp] theorem State.dtime_setPorts (x : List (Nat × Port)) : (s.setPorts x).dtime = s.dtime := rfl
@[simp] theorem State.regs_setPorts (x : List (Nat × Port)) : (s.setPorts x).regs = s.regs := rfl
@[simp] theorem State.mem_setPorts (x : List (Nat × Port)) : (s.setPorts x).mem = s.mem := rfl
@[simp] theorem State.hostMem_setPorts (x : List (Nat × Port)) : (s.setPorts x).hostMem = s.hostMem := rfl
@[simp] theorem State.book_setPorts (x : List (Nat × Port)) : (s.setPorts x).book = s.book := rfl
@[simp] theorem State.learned_setPorts (x : List (Nat × Port)) : (s.setPorts x).learned = s.learned := rfl
@[simp] theorem State.benched_setPorts (x : List (Nat × Port)) : (s.setPorts x).benched = s.benched := rfl
@[simp] theorem State.cores_setPorts (x : List (Nat × Port)) : (s.setPorts x).cores = s.cores := rfl
@[simp] theorem State.sync_setPorts (x : List (Nat × Port)) : (s.setPorts x).sync = s.sync := rfl
@[simp] theorem State.waitOrder_setPorts (x : List (Nat × Port)) : (s.setPorts x).waitOrder = s.waitOrder := rfl
@[simp] theorem State.signals_setPorts (x : List (Nat × Port)) : (s.setPorts x).signals = s.signals := rfl
@[simp] theorem State.dispatch_setPorts (x : List (Nat × Port)) : (s.setPorts x).dispatch = s.dispatch := rfl
@[simp] theorem State.segOrder_setPorts (x : List (Nat × Port)) : (s.setPorts x).segOrder = s.segOrder := rfl
@[simp] theorem State.streams_setPorts (x : List (Nat × Port)) : (s.setPorts x).streams = s.streams := rfl
@[simp] theorem State.rings_setPorts (x : List (Nat × Port)) : (s.setPorts x).rings = s.rings := rfl
@[simp] theorem State.heads_setPorts (x : List (Nat × Port)) : (s.setPorts x).heads = s.heads := rfl
@[simp] theorem State.haltAt_setPorts (x : List (Nat × Port)) : (s.setPorts x).haltAt = s.haltAt := rfl
@[simp] theorem State.heldHeads_setPorts (x : List (Nat × Port)) : (s.setPorts x).heldHeads = s.heldHeads := rfl
@[simp] theorem State.queues_setPorts (x : List (Nat × Port)) : (s.setPorts x).queues = s.queues := rfl
@[simp] theorem State.atsOn_setPorts (x : List (Nat × Port)) : (s.setPorts x).atsOn = s.atsOn := rfl
@[simp] theorem State.atc_setPorts (x : List (Nat × Port)) : (s.setPorts x).atc = s.atc := rfl
@[simp] theorem State.lowPower_setPorts (x : List (Nat × Port)) : (s.setPorts x).lowPower = s.lowPower := rfl
@[simp] theorem State.flags_setPorts (x : List (Nat × Port)) : (s.setPorts x).flags = s.flags := rfl
@[simp] theorem State.out_setPorts (x : List (Nat × Port)) : (s.setPorts x).out = s.out := rfl
@[simp] theorem State.events_setPorts (x : List (Nat × Port)) : (s.setPorts x).events = s.events := rfl
@[simp] theorem State.bad_setPorts (x : List (Nat × Port)) : (s.setPorts x).bad = s.bad := rfl
@[simp] theorem State.poison_setPorts (x : List (Nat × Port)) : (s.setPorts x).poison = s.poison := rfl
@[simp] theorem State.cache_setPorts (x : List (Nat × Port)) : (s.setPorts x).cache = s.cache := rfl
@[simp] theorem State.watch_setPorts (x : List (Nat × Port)) : (s.setPorts x).watch = s.watch := rfl
@[simp] theorem State.flash_setPorts (x : List (Nat × Port)) : (s.setPorts x).flash = s.flash := rfl
@[simp] theorem State.flashDown_setPorts (x : List (Nat × Port)) : (s.setPorts x).flashDown = s.flashDown := rfl
@[simp] theorem State.ports_setPorts (x : List (Nat × Port)) : (s.setPorts x).ports = x := rfl
@[simp] theorem State.inbox_setPorts (x : List (Nat × Port)) : (s.setPorts x).inbox = s.inbox := rfl
@[simp] theorem State.fellows_setPorts (x : List (Nat × Port)) : (s.setPorts x).fellows = s.fellows := rfl
@[simp] theorem State.pfc_setPorts (x : List (Nat × Port)) : (s.setPorts x).pfc = s.pfc := rfl
@[simp] theorem State.reqs_setPorts (x : List (Nat × Port)) : (s.setPorts x).reqs = s.reqs := rfl
@[simp] theorem State.serial_setPorts (x : List (Nat × Port)) : (s.setPorts x).serial = s.serial := rfl
@[simp] theorem State.tag_setPorts (x : List (Nat × Port)) : (s.setPorts x).tag = s.tag := rfl
@[simp] theorem State.chans_setPorts (x : List (Nat × Port)) : (s.setPorts x).chans = s.chans := rfl
@[simp] theorem State.feeds_setPorts (x : List (Nat × Port)) : (s.setPorts x).feeds = s.feeds := rfl
@[simp] theorem State.fences_setPorts (x : List (Nat × Port)) : (s.setPorts x).fences = s.fences := rfl
@[simp] theorem State.recoveries_setPorts (x : List (Nat × Port)) : (s.setPorts x).recoveries = s.recoveries := rfl
@[simp] theorem State.gviews_setPorts (x : List (Nat × Port)) : (s.setPorts x).gviews = s.gviews := rfl
@[simp] theorem State.reds_setPorts (x : List (Nat × Port)) : (s.setPorts x).reds = s.reds := rfl
@[simp] theorem State.redSeq_setPorts (x : List (Nat × Port)) : (s.setPorts x).redSeq = s.redSeq := rfl
@[simp] theorem State.redRings_setPorts (x : List (Nat × Port)) : (s.setPorts x).redRings = s.redRings := rfl
@[simp] theorem State.jobs_setPorts (x : List (Nat × Port)) : (s.setPorts x).jobs = s.jobs := rfl
@[simp] theorem State.traceBufs_setPorts (x : List (Nat × Port)) : (s.setPorts x).traceBufs = s.traceBufs := rfl
@[simp] theorem State.traceTurn_setPorts (x : List (Nat × Port)) : (s.setPorts x).traceTurn = s.traceTurn := rfl
@[simp] theorem State.dm_setPorts (x : List (Nat × Port)) : (s.setPorts x).dm = s.dm := rfl
@[simp] theorem State.posted_setPorts (x : List (Nat × Port)) : (s.setPorts x).posted = s.posted := rfl
@[simp] theorem State.referee_setPorts (x : List (Nat × Port)) : (s.setPorts x).referee = s.referee := rfl
@[simp] theorem State.power_setPorts (x : List (Nat × Port)) : (s.setPorts x).power = s.power := rfl
@[simp] theorem State.freeCount_setPorts (x : List (Nat × Port)) : (s.setPorts x).freeCount = s.freeCount := rfl
@[simp] theorem State.lines_setPorts (x : List (Nat × Port)) : (s.setPorts x).lines = s.lines := rfl
@[simp] theorem State.hartCsr_setPorts (x : List (Nat × Port)) : (s.setPorts x).hartCsr = s.hartCsr := rfl
@[simp] theorem State.msix_setPorts (x : List (Nat × Port)) : (s.setPorts x).msix = s.msix := rfl
@[simp] theorem State.msixCtl_setPorts (x : List (Nat × Port)) : (s.setPorts x).msixCtl = s.msixCtl := rfl
@[simp] theorem State.hartFull_setPorts (x : List (Nat × Port)) : (s.setPorts x).hartFull = s.hartFull := rfl
@[simp] theorem State.pending_setInbox (x : List (Nat × Msg)) : (s.setInbox x).pending = s.pending := rfl
@[simp] theorem State.dtime_setInbox (x : List (Nat × Msg)) : (s.setInbox x).dtime = s.dtime := rfl
@[simp] theorem State.regs_setInbox (x : List (Nat × Msg)) : (s.setInbox x).regs = s.regs := rfl
@[simp] theorem State.mem_setInbox (x : List (Nat × Msg)) : (s.setInbox x).mem = s.mem := rfl
@[simp] theorem State.hostMem_setInbox (x : List (Nat × Msg)) : (s.setInbox x).hostMem = s.hostMem := rfl
@[simp] theorem State.book_setInbox (x : List (Nat × Msg)) : (s.setInbox x).book = s.book := rfl
@[simp] theorem State.learned_setInbox (x : List (Nat × Msg)) : (s.setInbox x).learned = s.learned := rfl
@[simp] theorem State.benched_setInbox (x : List (Nat × Msg)) : (s.setInbox x).benched = s.benched := rfl
@[simp] theorem State.cores_setInbox (x : List (Nat × Msg)) : (s.setInbox x).cores = s.cores := rfl
@[simp] theorem State.sync_setInbox (x : List (Nat × Msg)) : (s.setInbox x).sync = s.sync := rfl
@[simp] theorem State.waitOrder_setInbox (x : List (Nat × Msg)) : (s.setInbox x).waitOrder = s.waitOrder := rfl
@[simp] theorem State.signals_setInbox (x : List (Nat × Msg)) : (s.setInbox x).signals = s.signals := rfl
@[simp] theorem State.dispatch_setInbox (x : List (Nat × Msg)) : (s.setInbox x).dispatch = s.dispatch := rfl
@[simp] theorem State.segOrder_setInbox (x : List (Nat × Msg)) : (s.setInbox x).segOrder = s.segOrder := rfl
@[simp] theorem State.streams_setInbox (x : List (Nat × Msg)) : (s.setInbox x).streams = s.streams := rfl
@[simp] theorem State.rings_setInbox (x : List (Nat × Msg)) : (s.setInbox x).rings = s.rings := rfl
@[simp] theorem State.heads_setInbox (x : List (Nat × Msg)) : (s.setInbox x).heads = s.heads := rfl
@[simp] theorem State.haltAt_setInbox (x : List (Nat × Msg)) : (s.setInbox x).haltAt = s.haltAt := rfl
@[simp] theorem State.heldHeads_setInbox (x : List (Nat × Msg)) : (s.setInbox x).heldHeads = s.heldHeads := rfl
@[simp] theorem State.queues_setInbox (x : List (Nat × Msg)) : (s.setInbox x).queues = s.queues := rfl
@[simp] theorem State.atsOn_setInbox (x : List (Nat × Msg)) : (s.setInbox x).atsOn = s.atsOn := rfl
@[simp] theorem State.atc_setInbox (x : List (Nat × Msg)) : (s.setInbox x).atc = s.atc := rfl
@[simp] theorem State.lowPower_setInbox (x : List (Nat × Msg)) : (s.setInbox x).lowPower = s.lowPower := rfl
@[simp] theorem State.flags_setInbox (x : List (Nat × Msg)) : (s.setInbox x).flags = s.flags := rfl
@[simp] theorem State.out_setInbox (x : List (Nat × Msg)) : (s.setInbox x).out = s.out := rfl
@[simp] theorem State.events_setInbox (x : List (Nat × Msg)) : (s.setInbox x).events = s.events := rfl
@[simp] theorem State.bad_setInbox (x : List (Nat × Msg)) : (s.setInbox x).bad = s.bad := rfl
@[simp] theorem State.poison_setInbox (x : List (Nat × Msg)) : (s.setInbox x).poison = s.poison := rfl
@[simp] theorem State.cache_setInbox (x : List (Nat × Msg)) : (s.setInbox x).cache = s.cache := rfl
@[simp] theorem State.watch_setInbox (x : List (Nat × Msg)) : (s.setInbox x).watch = s.watch := rfl
@[simp] theorem State.flash_setInbox (x : List (Nat × Msg)) : (s.setInbox x).flash = s.flash := rfl
@[simp] theorem State.flashDown_setInbox (x : List (Nat × Msg)) : (s.setInbox x).flashDown = s.flashDown := rfl
@[simp] theorem State.ports_setInbox (x : List (Nat × Msg)) : (s.setInbox x).ports = s.ports := rfl
@[simp] theorem State.inbox_setInbox (x : List (Nat × Msg)) : (s.setInbox x).inbox = x := rfl
@[simp] theorem State.fellows_setInbox (x : List (Nat × Msg)) : (s.setInbox x).fellows = s.fellows := rfl
@[simp] theorem State.pfc_setInbox (x : List (Nat × Msg)) : (s.setInbox x).pfc = s.pfc := rfl
@[simp] theorem State.reqs_setInbox (x : List (Nat × Msg)) : (s.setInbox x).reqs = s.reqs := rfl
@[simp] theorem State.serial_setInbox (x : List (Nat × Msg)) : (s.setInbox x).serial = s.serial := rfl
@[simp] theorem State.tag_setInbox (x : List (Nat × Msg)) : (s.setInbox x).tag = s.tag := rfl
@[simp] theorem State.chans_setInbox (x : List (Nat × Msg)) : (s.setInbox x).chans = s.chans := rfl
@[simp] theorem State.feeds_setInbox (x : List (Nat × Msg)) : (s.setInbox x).feeds = s.feeds := rfl
@[simp] theorem State.fences_setInbox (x : List (Nat × Msg)) : (s.setInbox x).fences = s.fences := rfl
@[simp] theorem State.recoveries_setInbox (x : List (Nat × Msg)) : (s.setInbox x).recoveries = s.recoveries := rfl
@[simp] theorem State.gviews_setInbox (x : List (Nat × Msg)) : (s.setInbox x).gviews = s.gviews := rfl
@[simp] theorem State.reds_setInbox (x : List (Nat × Msg)) : (s.setInbox x).reds = s.reds := rfl
@[simp] theorem State.redSeq_setInbox (x : List (Nat × Msg)) : (s.setInbox x).redSeq = s.redSeq := rfl
@[simp] theorem State.redRings_setInbox (x : List (Nat × Msg)) : (s.setInbox x).redRings = s.redRings := rfl
@[simp] theorem State.jobs_setInbox (x : List (Nat × Msg)) : (s.setInbox x).jobs = s.jobs := rfl
@[simp] theorem State.traceBufs_setInbox (x : List (Nat × Msg)) : (s.setInbox x).traceBufs = s.traceBufs := rfl
@[simp] theorem State.traceTurn_setInbox (x : List (Nat × Msg)) : (s.setInbox x).traceTurn = s.traceTurn := rfl
@[simp] theorem State.dm_setInbox (x : List (Nat × Msg)) : (s.setInbox x).dm = s.dm := rfl
@[simp] theorem State.posted_setInbox (x : List (Nat × Msg)) : (s.setInbox x).posted = s.posted := rfl
@[simp] theorem State.referee_setInbox (x : List (Nat × Msg)) : (s.setInbox x).referee = s.referee := rfl
@[simp] theorem State.power_setInbox (x : List (Nat × Msg)) : (s.setInbox x).power = s.power := rfl
@[simp] theorem State.freeCount_setInbox (x : List (Nat × Msg)) : (s.setInbox x).freeCount = s.freeCount := rfl
@[simp] theorem State.lines_setInbox (x : List (Nat × Msg)) : (s.setInbox x).lines = s.lines := rfl
@[simp] theorem State.hartCsr_setInbox (x : List (Nat × Msg)) : (s.setInbox x).hartCsr = s.hartCsr := rfl
@[simp] theorem State.msix_setInbox (x : List (Nat × Msg)) : (s.setInbox x).msix = s.msix := rfl
@[simp] theorem State.msixCtl_setInbox (x : List (Nat × Msg)) : (s.setInbox x).msixCtl = s.msixCtl := rfl
@[simp] theorem State.hartFull_setInbox (x : List (Nat × Msg)) : (s.setInbox x).hartFull = s.hartFull := rfl
@[simp] theorem State.pending_setFellows (x : Fellows) : (s.setFellows x).pending = s.pending := rfl
@[simp] theorem State.dtime_setFellows (x : Fellows) : (s.setFellows x).dtime = s.dtime := rfl
@[simp] theorem State.regs_setFellows (x : Fellows) : (s.setFellows x).regs = s.regs := rfl
@[simp] theorem State.mem_setFellows (x : Fellows) : (s.setFellows x).mem = s.mem := rfl
@[simp] theorem State.hostMem_setFellows (x : Fellows) : (s.setFellows x).hostMem = s.hostMem := rfl
@[simp] theorem State.book_setFellows (x : Fellows) : (s.setFellows x).book = s.book := rfl
@[simp] theorem State.learned_setFellows (x : Fellows) : (s.setFellows x).learned = s.learned := rfl
@[simp] theorem State.benched_setFellows (x : Fellows) : (s.setFellows x).benched = s.benched := rfl
@[simp] theorem State.cores_setFellows (x : Fellows) : (s.setFellows x).cores = s.cores := rfl
@[simp] theorem State.sync_setFellows (x : Fellows) : (s.setFellows x).sync = s.sync := rfl
@[simp] theorem State.waitOrder_setFellows (x : Fellows) : (s.setFellows x).waitOrder = s.waitOrder := rfl
@[simp] theorem State.signals_setFellows (x : Fellows) : (s.setFellows x).signals = s.signals := rfl
@[simp] theorem State.dispatch_setFellows (x : Fellows) : (s.setFellows x).dispatch = s.dispatch := rfl
@[simp] theorem State.segOrder_setFellows (x : Fellows) : (s.setFellows x).segOrder = s.segOrder := rfl
@[simp] theorem State.streams_setFellows (x : Fellows) : (s.setFellows x).streams = s.streams := rfl
@[simp] theorem State.rings_setFellows (x : Fellows) : (s.setFellows x).rings = s.rings := rfl
@[simp] theorem State.heads_setFellows (x : Fellows) : (s.setFellows x).heads = s.heads := rfl
@[simp] theorem State.haltAt_setFellows (x : Fellows) : (s.setFellows x).haltAt = s.haltAt := rfl
@[simp] theorem State.heldHeads_setFellows (x : Fellows) : (s.setFellows x).heldHeads = s.heldHeads := rfl
@[simp] theorem State.queues_setFellows (x : Fellows) : (s.setFellows x).queues = s.queues := rfl
@[simp] theorem State.atsOn_setFellows (x : Fellows) : (s.setFellows x).atsOn = s.atsOn := rfl
@[simp] theorem State.atc_setFellows (x : Fellows) : (s.setFellows x).atc = s.atc := rfl
@[simp] theorem State.lowPower_setFellows (x : Fellows) : (s.setFellows x).lowPower = s.lowPower := rfl
@[simp] theorem State.flags_setFellows (x : Fellows) : (s.setFellows x).flags = s.flags := rfl
@[simp] theorem State.out_setFellows (x : Fellows) : (s.setFellows x).out = s.out := rfl
@[simp] theorem State.events_setFellows (x : Fellows) : (s.setFellows x).events = s.events := rfl
@[simp] theorem State.bad_setFellows (x : Fellows) : (s.setFellows x).bad = s.bad := rfl
@[simp] theorem State.poison_setFellows (x : Fellows) : (s.setFellows x).poison = s.poison := rfl
@[simp] theorem State.cache_setFellows (x : Fellows) : (s.setFellows x).cache = s.cache := rfl
@[simp] theorem State.watch_setFellows (x : Fellows) : (s.setFellows x).watch = s.watch := rfl
@[simp] theorem State.flash_setFellows (x : Fellows) : (s.setFellows x).flash = s.flash := rfl
@[simp] theorem State.flashDown_setFellows (x : Fellows) : (s.setFellows x).flashDown = s.flashDown := rfl
@[simp] theorem State.ports_setFellows (x : Fellows) : (s.setFellows x).ports = s.ports := rfl
@[simp] theorem State.inbox_setFellows (x : Fellows) : (s.setFellows x).inbox = s.inbox := rfl
@[simp] theorem State.fellows_setFellows (x : Fellows) : (s.setFellows x).fellows = x := rfl
@[simp] theorem State.pfc_setFellows (x : Fellows) : (s.setFellows x).pfc = s.pfc := rfl
@[simp] theorem State.reqs_setFellows (x : Fellows) : (s.setFellows x).reqs = s.reqs := rfl
@[simp] theorem State.serial_setFellows (x : Fellows) : (s.setFellows x).serial = s.serial := rfl
@[simp] theorem State.tag_setFellows (x : Fellows) : (s.setFellows x).tag = s.tag := rfl
@[simp] theorem State.chans_setFellows (x : Fellows) : (s.setFellows x).chans = s.chans := rfl
@[simp] theorem State.feeds_setFellows (x : Fellows) : (s.setFellows x).feeds = s.feeds := rfl
@[simp] theorem State.fences_setFellows (x : Fellows) : (s.setFellows x).fences = s.fences := rfl
@[simp] theorem State.recoveries_setFellows (x : Fellows) : (s.setFellows x).recoveries = s.recoveries := rfl
@[simp] theorem State.gviews_setFellows (x : Fellows) : (s.setFellows x).gviews = s.gviews := rfl
@[simp] theorem State.reds_setFellows (x : Fellows) : (s.setFellows x).reds = s.reds := rfl
@[simp] theorem State.redSeq_setFellows (x : Fellows) : (s.setFellows x).redSeq = s.redSeq := rfl
@[simp] theorem State.redRings_setFellows (x : Fellows) : (s.setFellows x).redRings = s.redRings := rfl
@[simp] theorem State.jobs_setFellows (x : Fellows) : (s.setFellows x).jobs = s.jobs := rfl
@[simp] theorem State.traceBufs_setFellows (x : Fellows) : (s.setFellows x).traceBufs = s.traceBufs := rfl
@[simp] theorem State.traceTurn_setFellows (x : Fellows) : (s.setFellows x).traceTurn = s.traceTurn := rfl
@[simp] theorem State.dm_setFellows (x : Fellows) : (s.setFellows x).dm = s.dm := rfl
@[simp] theorem State.posted_setFellows (x : Fellows) : (s.setFellows x).posted = s.posted := rfl
@[simp] theorem State.referee_setFellows (x : Fellows) : (s.setFellows x).referee = s.referee := rfl
@[simp] theorem State.power_setFellows (x : Fellows) : (s.setFellows x).power = s.power := rfl
@[simp] theorem State.freeCount_setFellows (x : Fellows) : (s.setFellows x).freeCount = s.freeCount := rfl
@[simp] theorem State.lines_setFellows (x : Fellows) : (s.setFellows x).lines = s.lines := rfl
@[simp] theorem State.hartCsr_setFellows (x : Fellows) : (s.setFellows x).hartCsr = s.hartCsr := rfl
@[simp] theorem State.msix_setFellows (x : Fellows) : (s.setFellows x).msix = s.msix := rfl
@[simp] theorem State.msixCtl_setFellows (x : Fellows) : (s.setFellows x).msixCtl = s.msixCtl := rfl
@[simp] theorem State.hartFull_setFellows (x : Fellows) : (s.setFellows x).hartFull = s.hartFull := rfl
@[simp] theorem State.pending_setPfc (x : List (Nat × Nat)) : (s.setPfc x).pending = s.pending := rfl
@[simp] theorem State.dtime_setPfc (x : List (Nat × Nat)) : (s.setPfc x).dtime = s.dtime := rfl
@[simp] theorem State.regs_setPfc (x : List (Nat × Nat)) : (s.setPfc x).regs = s.regs := rfl
@[simp] theorem State.mem_setPfc (x : List (Nat × Nat)) : (s.setPfc x).mem = s.mem := rfl
@[simp] theorem State.hostMem_setPfc (x : List (Nat × Nat)) : (s.setPfc x).hostMem = s.hostMem := rfl
@[simp] theorem State.book_setPfc (x : List (Nat × Nat)) : (s.setPfc x).book = s.book := rfl
@[simp] theorem State.learned_setPfc (x : List (Nat × Nat)) : (s.setPfc x).learned = s.learned := rfl
@[simp] theorem State.benched_setPfc (x : List (Nat × Nat)) : (s.setPfc x).benched = s.benched := rfl
@[simp] theorem State.cores_setPfc (x : List (Nat × Nat)) : (s.setPfc x).cores = s.cores := rfl
@[simp] theorem State.sync_setPfc (x : List (Nat × Nat)) : (s.setPfc x).sync = s.sync := rfl
@[simp] theorem State.waitOrder_setPfc (x : List (Nat × Nat)) : (s.setPfc x).waitOrder = s.waitOrder := rfl
@[simp] theorem State.signals_setPfc (x : List (Nat × Nat)) : (s.setPfc x).signals = s.signals := rfl
@[simp] theorem State.dispatch_setPfc (x : List (Nat × Nat)) : (s.setPfc x).dispatch = s.dispatch := rfl
@[simp] theorem State.segOrder_setPfc (x : List (Nat × Nat)) : (s.setPfc x).segOrder = s.segOrder := rfl
@[simp] theorem State.streams_setPfc (x : List (Nat × Nat)) : (s.setPfc x).streams = s.streams := rfl
@[simp] theorem State.rings_setPfc (x : List (Nat × Nat)) : (s.setPfc x).rings = s.rings := rfl
@[simp] theorem State.heads_setPfc (x : List (Nat × Nat)) : (s.setPfc x).heads = s.heads := rfl
@[simp] theorem State.haltAt_setPfc (x : List (Nat × Nat)) : (s.setPfc x).haltAt = s.haltAt := rfl
@[simp] theorem State.heldHeads_setPfc (x : List (Nat × Nat)) : (s.setPfc x).heldHeads = s.heldHeads := rfl
@[simp] theorem State.queues_setPfc (x : List (Nat × Nat)) : (s.setPfc x).queues = s.queues := rfl
@[simp] theorem State.atsOn_setPfc (x : List (Nat × Nat)) : (s.setPfc x).atsOn = s.atsOn := rfl
@[simp] theorem State.atc_setPfc (x : List (Nat × Nat)) : (s.setPfc x).atc = s.atc := rfl
@[simp] theorem State.lowPower_setPfc (x : List (Nat × Nat)) : (s.setPfc x).lowPower = s.lowPower := rfl
@[simp] theorem State.flags_setPfc (x : List (Nat × Nat)) : (s.setPfc x).flags = s.flags := rfl
@[simp] theorem State.out_setPfc (x : List (Nat × Nat)) : (s.setPfc x).out = s.out := rfl
@[simp] theorem State.events_setPfc (x : List (Nat × Nat)) : (s.setPfc x).events = s.events := rfl
@[simp] theorem State.bad_setPfc (x : List (Nat × Nat)) : (s.setPfc x).bad = s.bad := rfl
@[simp] theorem State.poison_setPfc (x : List (Nat × Nat)) : (s.setPfc x).poison = s.poison := rfl
@[simp] theorem State.cache_setPfc (x : List (Nat × Nat)) : (s.setPfc x).cache = s.cache := rfl
@[simp] theorem State.watch_setPfc (x : List (Nat × Nat)) : (s.setPfc x).watch = s.watch := rfl
@[simp] theorem State.flash_setPfc (x : List (Nat × Nat)) : (s.setPfc x).flash = s.flash := rfl
@[simp] theorem State.flashDown_setPfc (x : List (Nat × Nat)) : (s.setPfc x).flashDown = s.flashDown := rfl
@[simp] theorem State.ports_setPfc (x : List (Nat × Nat)) : (s.setPfc x).ports = s.ports := rfl
@[simp] theorem State.inbox_setPfc (x : List (Nat × Nat)) : (s.setPfc x).inbox = s.inbox := rfl
@[simp] theorem State.fellows_setPfc (x : List (Nat × Nat)) : (s.setPfc x).fellows = s.fellows := rfl
@[simp] theorem State.pfc_setPfc (x : List (Nat × Nat)) : (s.setPfc x).pfc = x := rfl
@[simp] theorem State.reqs_setPfc (x : List (Nat × Nat)) : (s.setPfc x).reqs = s.reqs := rfl
@[simp] theorem State.serial_setPfc (x : List (Nat × Nat)) : (s.setPfc x).serial = s.serial := rfl
@[simp] theorem State.tag_setPfc (x : List (Nat × Nat)) : (s.setPfc x).tag = s.tag := rfl
@[simp] theorem State.chans_setPfc (x : List (Nat × Nat)) : (s.setPfc x).chans = s.chans := rfl
@[simp] theorem State.feeds_setPfc (x : List (Nat × Nat)) : (s.setPfc x).feeds = s.feeds := rfl
@[simp] theorem State.fences_setPfc (x : List (Nat × Nat)) : (s.setPfc x).fences = s.fences := rfl
@[simp] theorem State.recoveries_setPfc (x : List (Nat × Nat)) : (s.setPfc x).recoveries = s.recoveries := rfl
@[simp] theorem State.gviews_setPfc (x : List (Nat × Nat)) : (s.setPfc x).gviews = s.gviews := rfl
@[simp] theorem State.reds_setPfc (x : List (Nat × Nat)) : (s.setPfc x).reds = s.reds := rfl
@[simp] theorem State.redSeq_setPfc (x : List (Nat × Nat)) : (s.setPfc x).redSeq = s.redSeq := rfl
@[simp] theorem State.redRings_setPfc (x : List (Nat × Nat)) : (s.setPfc x).redRings = s.redRings := rfl
@[simp] theorem State.jobs_setPfc (x : List (Nat × Nat)) : (s.setPfc x).jobs = s.jobs := rfl
@[simp] theorem State.traceBufs_setPfc (x : List (Nat × Nat)) : (s.setPfc x).traceBufs = s.traceBufs := rfl
@[simp] theorem State.traceTurn_setPfc (x : List (Nat × Nat)) : (s.setPfc x).traceTurn = s.traceTurn := rfl
@[simp] theorem State.dm_setPfc (x : List (Nat × Nat)) : (s.setPfc x).dm = s.dm := rfl
@[simp] theorem State.posted_setPfc (x : List (Nat × Nat)) : (s.setPfc x).posted = s.posted := rfl
@[simp] theorem State.referee_setPfc (x : List (Nat × Nat)) : (s.setPfc x).referee = s.referee := rfl
@[simp] theorem State.power_setPfc (x : List (Nat × Nat)) : (s.setPfc x).power = s.power := rfl
@[simp] theorem State.freeCount_setPfc (x : List (Nat × Nat)) : (s.setPfc x).freeCount = s.freeCount := rfl
@[simp] theorem State.lines_setPfc (x : List (Nat × Nat)) : (s.setPfc x).lines = s.lines := rfl
@[simp] theorem State.hartCsr_setPfc (x : List (Nat × Nat)) : (s.setPfc x).hartCsr = s.hartCsr := rfl
@[simp] theorem State.msix_setPfc (x : List (Nat × Nat)) : (s.setPfc x).msix = s.msix := rfl
@[simp] theorem State.msixCtl_setPfc (x : List (Nat × Nat)) : (s.setPfc x).msixCtl = s.msixCtl := rfl
@[simp] theorem State.hartFull_setPfc (x : List (Nat × Nat)) : (s.setPfc x).hartFull = s.hartFull := rfl
@[simp] theorem State.pending_setReqs (x : List Req) : (s.setReqs x).pending = s.pending := rfl
@[simp] theorem State.dtime_setReqs (x : List Req) : (s.setReqs x).dtime = s.dtime := rfl
@[simp] theorem State.regs_setReqs (x : List Req) : (s.setReqs x).regs = s.regs := rfl
@[simp] theorem State.mem_setReqs (x : List Req) : (s.setReqs x).mem = s.mem := rfl
@[simp] theorem State.hostMem_setReqs (x : List Req) : (s.setReqs x).hostMem = s.hostMem := rfl
@[simp] theorem State.book_setReqs (x : List Req) : (s.setReqs x).book = s.book := rfl
@[simp] theorem State.learned_setReqs (x : List Req) : (s.setReqs x).learned = s.learned := rfl
@[simp] theorem State.benched_setReqs (x : List Req) : (s.setReqs x).benched = s.benched := rfl
@[simp] theorem State.cores_setReqs (x : List Req) : (s.setReqs x).cores = s.cores := rfl
@[simp] theorem State.sync_setReqs (x : List Req) : (s.setReqs x).sync = s.sync := rfl
@[simp] theorem State.waitOrder_setReqs (x : List Req) : (s.setReqs x).waitOrder = s.waitOrder := rfl
@[simp] theorem State.signals_setReqs (x : List Req) : (s.setReqs x).signals = s.signals := rfl
@[simp] theorem State.dispatch_setReqs (x : List Req) : (s.setReqs x).dispatch = s.dispatch := rfl
@[simp] theorem State.segOrder_setReqs (x : List Req) : (s.setReqs x).segOrder = s.segOrder := rfl
@[simp] theorem State.streams_setReqs (x : List Req) : (s.setReqs x).streams = s.streams := rfl
@[simp] theorem State.rings_setReqs (x : List Req) : (s.setReqs x).rings = s.rings := rfl
@[simp] theorem State.heads_setReqs (x : List Req) : (s.setReqs x).heads = s.heads := rfl
@[simp] theorem State.haltAt_setReqs (x : List Req) : (s.setReqs x).haltAt = s.haltAt := rfl
@[simp] theorem State.heldHeads_setReqs (x : List Req) : (s.setReqs x).heldHeads = s.heldHeads := rfl
@[simp] theorem State.queues_setReqs (x : List Req) : (s.setReqs x).queues = s.queues := rfl
@[simp] theorem State.atsOn_setReqs (x : List Req) : (s.setReqs x).atsOn = s.atsOn := rfl
@[simp] theorem State.atc_setReqs (x : List Req) : (s.setReqs x).atc = s.atc := rfl
@[simp] theorem State.lowPower_setReqs (x : List Req) : (s.setReqs x).lowPower = s.lowPower := rfl
@[simp] theorem State.flags_setReqs (x : List Req) : (s.setReqs x).flags = s.flags := rfl
@[simp] theorem State.out_setReqs (x : List Req) : (s.setReqs x).out = s.out := rfl
@[simp] theorem State.events_setReqs (x : List Req) : (s.setReqs x).events = s.events := rfl
@[simp] theorem State.bad_setReqs (x : List Req) : (s.setReqs x).bad = s.bad := rfl
@[simp] theorem State.poison_setReqs (x : List Req) : (s.setReqs x).poison = s.poison := rfl
@[simp] theorem State.cache_setReqs (x : List Req) : (s.setReqs x).cache = s.cache := rfl
@[simp] theorem State.watch_setReqs (x : List Req) : (s.setReqs x).watch = s.watch := rfl
@[simp] theorem State.flash_setReqs (x : List Req) : (s.setReqs x).flash = s.flash := rfl
@[simp] theorem State.flashDown_setReqs (x : List Req) : (s.setReqs x).flashDown = s.flashDown := rfl
@[simp] theorem State.ports_setReqs (x : List Req) : (s.setReqs x).ports = s.ports := rfl
@[simp] theorem State.inbox_setReqs (x : List Req) : (s.setReqs x).inbox = s.inbox := rfl
@[simp] theorem State.fellows_setReqs (x : List Req) : (s.setReqs x).fellows = s.fellows := rfl
@[simp] theorem State.pfc_setReqs (x : List Req) : (s.setReqs x).pfc = s.pfc := rfl
@[simp] theorem State.reqs_setReqs (x : List Req) : (s.setReqs x).reqs = x := rfl
@[simp] theorem State.serial_setReqs (x : List Req) : (s.setReqs x).serial = s.serial := rfl
@[simp] theorem State.tag_setReqs (x : List Req) : (s.setReqs x).tag = s.tag := rfl
@[simp] theorem State.chans_setReqs (x : List Req) : (s.setReqs x).chans = s.chans := rfl
@[simp] theorem State.feeds_setReqs (x : List Req) : (s.setReqs x).feeds = s.feeds := rfl
@[simp] theorem State.fences_setReqs (x : List Req) : (s.setReqs x).fences = s.fences := rfl
@[simp] theorem State.recoveries_setReqs (x : List Req) : (s.setReqs x).recoveries = s.recoveries := rfl
@[simp] theorem State.gviews_setReqs (x : List Req) : (s.setReqs x).gviews = s.gviews := rfl
@[simp] theorem State.reds_setReqs (x : List Req) : (s.setReqs x).reds = s.reds := rfl
@[simp] theorem State.redSeq_setReqs (x : List Req) : (s.setReqs x).redSeq = s.redSeq := rfl
@[simp] theorem State.redRings_setReqs (x : List Req) : (s.setReqs x).redRings = s.redRings := rfl
@[simp] theorem State.jobs_setReqs (x : List Req) : (s.setReqs x).jobs = s.jobs := rfl
@[simp] theorem State.traceBufs_setReqs (x : List Req) : (s.setReqs x).traceBufs = s.traceBufs := rfl
@[simp] theorem State.traceTurn_setReqs (x : List Req) : (s.setReqs x).traceTurn = s.traceTurn := rfl
@[simp] theorem State.dm_setReqs (x : List Req) : (s.setReqs x).dm = s.dm := rfl
@[simp] theorem State.posted_setReqs (x : List Req) : (s.setReqs x).posted = s.posted := rfl
@[simp] theorem State.referee_setReqs (x : List Req) : (s.setReqs x).referee = s.referee := rfl
@[simp] theorem State.power_setReqs (x : List Req) : (s.setReqs x).power = s.power := rfl
@[simp] theorem State.freeCount_setReqs (x : List Req) : (s.setReqs x).freeCount = s.freeCount := rfl
@[simp] theorem State.lines_setReqs (x : List Req) : (s.setReqs x).lines = s.lines := rfl
@[simp] theorem State.hartCsr_setReqs (x : List Req) : (s.setReqs x).hartCsr = s.hartCsr := rfl
@[simp] theorem State.msix_setReqs (x : List Req) : (s.setReqs x).msix = s.msix := rfl
@[simp] theorem State.msixCtl_setReqs (x : List Req) : (s.setReqs x).msixCtl = s.msixCtl := rfl
@[simp] theorem State.hartFull_setReqs (x : List Req) : (s.setReqs x).hartFull = s.hartFull := rfl
@[simp] theorem State.pending_setSerial (x : Nat) : (s.setSerial x).pending = s.pending := rfl
@[simp] theorem State.dtime_setSerial (x : Nat) : (s.setSerial x).dtime = s.dtime := rfl
@[simp] theorem State.regs_setSerial (x : Nat) : (s.setSerial x).regs = s.regs := rfl
@[simp] theorem State.mem_setSerial (x : Nat) : (s.setSerial x).mem = s.mem := rfl
@[simp] theorem State.hostMem_setSerial (x : Nat) : (s.setSerial x).hostMem = s.hostMem := rfl
@[simp] theorem State.book_setSerial (x : Nat) : (s.setSerial x).book = s.book := rfl
@[simp] theorem State.learned_setSerial (x : Nat) : (s.setSerial x).learned = s.learned := rfl
@[simp] theorem State.benched_setSerial (x : Nat) : (s.setSerial x).benched = s.benched := rfl
@[simp] theorem State.cores_setSerial (x : Nat) : (s.setSerial x).cores = s.cores := rfl
@[simp] theorem State.sync_setSerial (x : Nat) : (s.setSerial x).sync = s.sync := rfl
@[simp] theorem State.waitOrder_setSerial (x : Nat) : (s.setSerial x).waitOrder = s.waitOrder := rfl
@[simp] theorem State.signals_setSerial (x : Nat) : (s.setSerial x).signals = s.signals := rfl
@[simp] theorem State.dispatch_setSerial (x : Nat) : (s.setSerial x).dispatch = s.dispatch := rfl
@[simp] theorem State.segOrder_setSerial (x : Nat) : (s.setSerial x).segOrder = s.segOrder := rfl
@[simp] theorem State.streams_setSerial (x : Nat) : (s.setSerial x).streams = s.streams := rfl
@[simp] theorem State.rings_setSerial (x : Nat) : (s.setSerial x).rings = s.rings := rfl
@[simp] theorem State.heads_setSerial (x : Nat) : (s.setSerial x).heads = s.heads := rfl
@[simp] theorem State.haltAt_setSerial (x : Nat) : (s.setSerial x).haltAt = s.haltAt := rfl
@[simp] theorem State.heldHeads_setSerial (x : Nat) : (s.setSerial x).heldHeads = s.heldHeads := rfl
@[simp] theorem State.queues_setSerial (x : Nat) : (s.setSerial x).queues = s.queues := rfl
@[simp] theorem State.atsOn_setSerial (x : Nat) : (s.setSerial x).atsOn = s.atsOn := rfl
@[simp] theorem State.atc_setSerial (x : Nat) : (s.setSerial x).atc = s.atc := rfl
@[simp] theorem State.lowPower_setSerial (x : Nat) : (s.setSerial x).lowPower = s.lowPower := rfl
@[simp] theorem State.flags_setSerial (x : Nat) : (s.setSerial x).flags = s.flags := rfl
@[simp] theorem State.out_setSerial (x : Nat) : (s.setSerial x).out = s.out := rfl
@[simp] theorem State.events_setSerial (x : Nat) : (s.setSerial x).events = s.events := rfl
@[simp] theorem State.bad_setSerial (x : Nat) : (s.setSerial x).bad = s.bad := rfl
@[simp] theorem State.poison_setSerial (x : Nat) : (s.setSerial x).poison = s.poison := rfl
@[simp] theorem State.cache_setSerial (x : Nat) : (s.setSerial x).cache = s.cache := rfl
@[simp] theorem State.watch_setSerial (x : Nat) : (s.setSerial x).watch = s.watch := rfl
@[simp] theorem State.flash_setSerial (x : Nat) : (s.setSerial x).flash = s.flash := rfl
@[simp] theorem State.flashDown_setSerial (x : Nat) : (s.setSerial x).flashDown = s.flashDown := rfl
@[simp] theorem State.ports_setSerial (x : Nat) : (s.setSerial x).ports = s.ports := rfl
@[simp] theorem State.inbox_setSerial (x : Nat) : (s.setSerial x).inbox = s.inbox := rfl
@[simp] theorem State.fellows_setSerial (x : Nat) : (s.setSerial x).fellows = s.fellows := rfl
@[simp] theorem State.pfc_setSerial (x : Nat) : (s.setSerial x).pfc = s.pfc := rfl
@[simp] theorem State.reqs_setSerial (x : Nat) : (s.setSerial x).reqs = s.reqs := rfl
@[simp] theorem State.serial_setSerial (x : Nat) : (s.setSerial x).serial = x := rfl
@[simp] theorem State.tag_setSerial (x : Nat) : (s.setSerial x).tag = s.tag := rfl
@[simp] theorem State.chans_setSerial (x : Nat) : (s.setSerial x).chans = s.chans := rfl
@[simp] theorem State.feeds_setSerial (x : Nat) : (s.setSerial x).feeds = s.feeds := rfl
@[simp] theorem State.fences_setSerial (x : Nat) : (s.setSerial x).fences = s.fences := rfl
@[simp] theorem State.recoveries_setSerial (x : Nat) : (s.setSerial x).recoveries = s.recoveries := rfl
@[simp] theorem State.gviews_setSerial (x : Nat) : (s.setSerial x).gviews = s.gviews := rfl
@[simp] theorem State.reds_setSerial (x : Nat) : (s.setSerial x).reds = s.reds := rfl
@[simp] theorem State.redSeq_setSerial (x : Nat) : (s.setSerial x).redSeq = s.redSeq := rfl
@[simp] theorem State.redRings_setSerial (x : Nat) : (s.setSerial x).redRings = s.redRings := rfl
@[simp] theorem State.jobs_setSerial (x : Nat) : (s.setSerial x).jobs = s.jobs := rfl
@[simp] theorem State.traceBufs_setSerial (x : Nat) : (s.setSerial x).traceBufs = s.traceBufs := rfl
@[simp] theorem State.traceTurn_setSerial (x : Nat) : (s.setSerial x).traceTurn = s.traceTurn := rfl
@[simp] theorem State.dm_setSerial (x : Nat) : (s.setSerial x).dm = s.dm := rfl
@[simp] theorem State.posted_setSerial (x : Nat) : (s.setSerial x).posted = s.posted := rfl
@[simp] theorem State.referee_setSerial (x : Nat) : (s.setSerial x).referee = s.referee := rfl
@[simp] theorem State.power_setSerial (x : Nat) : (s.setSerial x).power = s.power := rfl
@[simp] theorem State.freeCount_setSerial (x : Nat) : (s.setSerial x).freeCount = s.freeCount := rfl
@[simp] theorem State.lines_setSerial (x : Nat) : (s.setSerial x).lines = s.lines := rfl
@[simp] theorem State.hartCsr_setSerial (x : Nat) : (s.setSerial x).hartCsr = s.hartCsr := rfl
@[simp] theorem State.msix_setSerial (x : Nat) : (s.setSerial x).msix = s.msix := rfl
@[simp] theorem State.msixCtl_setSerial (x : Nat) : (s.setSerial x).msixCtl = s.msixCtl := rfl
@[simp] theorem State.hartFull_setSerial (x : Nat) : (s.setSerial x).hartFull = s.hartFull := rfl
@[simp] theorem State.pending_setTag (x : Nat) : (s.setTag x).pending = s.pending := rfl
@[simp] theorem State.dtime_setTag (x : Nat) : (s.setTag x).dtime = s.dtime := rfl
@[simp] theorem State.regs_setTag (x : Nat) : (s.setTag x).regs = s.regs := rfl
@[simp] theorem State.mem_setTag (x : Nat) : (s.setTag x).mem = s.mem := rfl
@[simp] theorem State.hostMem_setTag (x : Nat) : (s.setTag x).hostMem = s.hostMem := rfl
@[simp] theorem State.book_setTag (x : Nat) : (s.setTag x).book = s.book := rfl
@[simp] theorem State.learned_setTag (x : Nat) : (s.setTag x).learned = s.learned := rfl
@[simp] theorem State.benched_setTag (x : Nat) : (s.setTag x).benched = s.benched := rfl
@[simp] theorem State.cores_setTag (x : Nat) : (s.setTag x).cores = s.cores := rfl
@[simp] theorem State.sync_setTag (x : Nat) : (s.setTag x).sync = s.sync := rfl
@[simp] theorem State.waitOrder_setTag (x : Nat) : (s.setTag x).waitOrder = s.waitOrder := rfl
@[simp] theorem State.signals_setTag (x : Nat) : (s.setTag x).signals = s.signals := rfl
@[simp] theorem State.dispatch_setTag (x : Nat) : (s.setTag x).dispatch = s.dispatch := rfl
@[simp] theorem State.segOrder_setTag (x : Nat) : (s.setTag x).segOrder = s.segOrder := rfl
@[simp] theorem State.streams_setTag (x : Nat) : (s.setTag x).streams = s.streams := rfl
@[simp] theorem State.rings_setTag (x : Nat) : (s.setTag x).rings = s.rings := rfl
@[simp] theorem State.heads_setTag (x : Nat) : (s.setTag x).heads = s.heads := rfl
@[simp] theorem State.haltAt_setTag (x : Nat) : (s.setTag x).haltAt = s.haltAt := rfl
@[simp] theorem State.heldHeads_setTag (x : Nat) : (s.setTag x).heldHeads = s.heldHeads := rfl
@[simp] theorem State.queues_setTag (x : Nat) : (s.setTag x).queues = s.queues := rfl
@[simp] theorem State.atsOn_setTag (x : Nat) : (s.setTag x).atsOn = s.atsOn := rfl
@[simp] theorem State.atc_setTag (x : Nat) : (s.setTag x).atc = s.atc := rfl
@[simp] theorem State.lowPower_setTag (x : Nat) : (s.setTag x).lowPower = s.lowPower := rfl
@[simp] theorem State.flags_setTag (x : Nat) : (s.setTag x).flags = s.flags := rfl
@[simp] theorem State.out_setTag (x : Nat) : (s.setTag x).out = s.out := rfl
@[simp] theorem State.events_setTag (x : Nat) : (s.setTag x).events = s.events := rfl
@[simp] theorem State.bad_setTag (x : Nat) : (s.setTag x).bad = s.bad := rfl
@[simp] theorem State.poison_setTag (x : Nat) : (s.setTag x).poison = s.poison := rfl
@[simp] theorem State.cache_setTag (x : Nat) : (s.setTag x).cache = s.cache := rfl
@[simp] theorem State.watch_setTag (x : Nat) : (s.setTag x).watch = s.watch := rfl
@[simp] theorem State.flash_setTag (x : Nat) : (s.setTag x).flash = s.flash := rfl
@[simp] theorem State.flashDown_setTag (x : Nat) : (s.setTag x).flashDown = s.flashDown := rfl
@[simp] theorem State.ports_setTag (x : Nat) : (s.setTag x).ports = s.ports := rfl
@[simp] theorem State.inbox_setTag (x : Nat) : (s.setTag x).inbox = s.inbox := rfl
@[simp] theorem State.fellows_setTag (x : Nat) : (s.setTag x).fellows = s.fellows := rfl
@[simp] theorem State.pfc_setTag (x : Nat) : (s.setTag x).pfc = s.pfc := rfl
@[simp] theorem State.reqs_setTag (x : Nat) : (s.setTag x).reqs = s.reqs := rfl
@[simp] theorem State.serial_setTag (x : Nat) : (s.setTag x).serial = s.serial := rfl
@[simp] theorem State.tag_setTag (x : Nat) : (s.setTag x).tag = x := rfl
@[simp] theorem State.chans_setTag (x : Nat) : (s.setTag x).chans = s.chans := rfl
@[simp] theorem State.feeds_setTag (x : Nat) : (s.setTag x).feeds = s.feeds := rfl
@[simp] theorem State.fences_setTag (x : Nat) : (s.setTag x).fences = s.fences := rfl
@[simp] theorem State.recoveries_setTag (x : Nat) : (s.setTag x).recoveries = s.recoveries := rfl
@[simp] theorem State.gviews_setTag (x : Nat) : (s.setTag x).gviews = s.gviews := rfl
@[simp] theorem State.reds_setTag (x : Nat) : (s.setTag x).reds = s.reds := rfl
@[simp] theorem State.redSeq_setTag (x : Nat) : (s.setTag x).redSeq = s.redSeq := rfl
@[simp] theorem State.redRings_setTag (x : Nat) : (s.setTag x).redRings = s.redRings := rfl
@[simp] theorem State.jobs_setTag (x : Nat) : (s.setTag x).jobs = s.jobs := rfl
@[simp] theorem State.traceBufs_setTag (x : Nat) : (s.setTag x).traceBufs = s.traceBufs := rfl
@[simp] theorem State.traceTurn_setTag (x : Nat) : (s.setTag x).traceTurn = s.traceTurn := rfl
@[simp] theorem State.dm_setTag (x : Nat) : (s.setTag x).dm = s.dm := rfl
@[simp] theorem State.posted_setTag (x : Nat) : (s.setTag x).posted = s.posted := rfl
@[simp] theorem State.referee_setTag (x : Nat) : (s.setTag x).referee = s.referee := rfl
@[simp] theorem State.power_setTag (x : Nat) : (s.setTag x).power = s.power := rfl
@[simp] theorem State.freeCount_setTag (x : Nat) : (s.setTag x).freeCount = s.freeCount := rfl
@[simp] theorem State.lines_setTag (x : Nat) : (s.setTag x).lines = s.lines := rfl
@[simp] theorem State.hartCsr_setTag (x : Nat) : (s.setTag x).hartCsr = s.hartCsr := rfl
@[simp] theorem State.msix_setTag (x : Nat) : (s.setTag x).msix = s.msix := rfl
@[simp] theorem State.msixCtl_setTag (x : Nat) : (s.setTag x).msixCtl = s.msixCtl := rfl
@[simp] theorem State.hartFull_setTag (x : Nat) : (s.setTag x).hartFull = s.hartFull := rfl
@[simp] theorem State.pending_setChans (x : List (Nat × Chan)) : (s.setChans x).pending = s.pending := rfl
@[simp] theorem State.dtime_setChans (x : List (Nat × Chan)) : (s.setChans x).dtime = s.dtime := rfl
@[simp] theorem State.regs_setChans (x : List (Nat × Chan)) : (s.setChans x).regs = s.regs := rfl
@[simp] theorem State.mem_setChans (x : List (Nat × Chan)) : (s.setChans x).mem = s.mem := rfl
@[simp] theorem State.hostMem_setChans (x : List (Nat × Chan)) : (s.setChans x).hostMem = s.hostMem := rfl
@[simp] theorem State.book_setChans (x : List (Nat × Chan)) : (s.setChans x).book = s.book := rfl
@[simp] theorem State.learned_setChans (x : List (Nat × Chan)) : (s.setChans x).learned = s.learned := rfl
@[simp] theorem State.benched_setChans (x : List (Nat × Chan)) : (s.setChans x).benched = s.benched := rfl
@[simp] theorem State.cores_setChans (x : List (Nat × Chan)) : (s.setChans x).cores = s.cores := rfl
@[simp] theorem State.sync_setChans (x : List (Nat × Chan)) : (s.setChans x).sync = s.sync := rfl
@[simp] theorem State.waitOrder_setChans (x : List (Nat × Chan)) : (s.setChans x).waitOrder = s.waitOrder := rfl
@[simp] theorem State.signals_setChans (x : List (Nat × Chan)) : (s.setChans x).signals = s.signals := rfl
@[simp] theorem State.dispatch_setChans (x : List (Nat × Chan)) : (s.setChans x).dispatch = s.dispatch := rfl
@[simp] theorem State.segOrder_setChans (x : List (Nat × Chan)) : (s.setChans x).segOrder = s.segOrder := rfl
@[simp] theorem State.streams_setChans (x : List (Nat × Chan)) : (s.setChans x).streams = s.streams := rfl
@[simp] theorem State.rings_setChans (x : List (Nat × Chan)) : (s.setChans x).rings = s.rings := rfl
@[simp] theorem State.heads_setChans (x : List (Nat × Chan)) : (s.setChans x).heads = s.heads := rfl
@[simp] theorem State.haltAt_setChans (x : List (Nat × Chan)) : (s.setChans x).haltAt = s.haltAt := rfl
@[simp] theorem State.heldHeads_setChans (x : List (Nat × Chan)) : (s.setChans x).heldHeads = s.heldHeads := rfl
@[simp] theorem State.queues_setChans (x : List (Nat × Chan)) : (s.setChans x).queues = s.queues := rfl
@[simp] theorem State.atsOn_setChans (x : List (Nat × Chan)) : (s.setChans x).atsOn = s.atsOn := rfl
@[simp] theorem State.atc_setChans (x : List (Nat × Chan)) : (s.setChans x).atc = s.atc := rfl
@[simp] theorem State.lowPower_setChans (x : List (Nat × Chan)) : (s.setChans x).lowPower = s.lowPower := rfl
@[simp] theorem State.flags_setChans (x : List (Nat × Chan)) : (s.setChans x).flags = s.flags := rfl
@[simp] theorem State.out_setChans (x : List (Nat × Chan)) : (s.setChans x).out = s.out := rfl
@[simp] theorem State.events_setChans (x : List (Nat × Chan)) : (s.setChans x).events = s.events := rfl
@[simp] theorem State.bad_setChans (x : List (Nat × Chan)) : (s.setChans x).bad = s.bad := rfl
@[simp] theorem State.poison_setChans (x : List (Nat × Chan)) : (s.setChans x).poison = s.poison := rfl
@[simp] theorem State.cache_setChans (x : List (Nat × Chan)) : (s.setChans x).cache = s.cache := rfl
@[simp] theorem State.watch_setChans (x : List (Nat × Chan)) : (s.setChans x).watch = s.watch := rfl
@[simp] theorem State.flash_setChans (x : List (Nat × Chan)) : (s.setChans x).flash = s.flash := rfl
@[simp] theorem State.flashDown_setChans (x : List (Nat × Chan)) : (s.setChans x).flashDown = s.flashDown := rfl
@[simp] theorem State.ports_setChans (x : List (Nat × Chan)) : (s.setChans x).ports = s.ports := rfl
@[simp] theorem State.inbox_setChans (x : List (Nat × Chan)) : (s.setChans x).inbox = s.inbox := rfl
@[simp] theorem State.fellows_setChans (x : List (Nat × Chan)) : (s.setChans x).fellows = s.fellows := rfl
@[simp] theorem State.pfc_setChans (x : List (Nat × Chan)) : (s.setChans x).pfc = s.pfc := rfl
@[simp] theorem State.reqs_setChans (x : List (Nat × Chan)) : (s.setChans x).reqs = s.reqs := rfl
@[simp] theorem State.serial_setChans (x : List (Nat × Chan)) : (s.setChans x).serial = s.serial := rfl
@[simp] theorem State.tag_setChans (x : List (Nat × Chan)) : (s.setChans x).tag = s.tag := rfl
@[simp] theorem State.chans_setChans (x : List (Nat × Chan)) : (s.setChans x).chans = x := rfl
@[simp] theorem State.feeds_setChans (x : List (Nat × Chan)) : (s.setChans x).feeds = s.feeds := rfl
@[simp] theorem State.fences_setChans (x : List (Nat × Chan)) : (s.setChans x).fences = s.fences := rfl
@[simp] theorem State.recoveries_setChans (x : List (Nat × Chan)) : (s.setChans x).recoveries = s.recoveries := rfl
@[simp] theorem State.gviews_setChans (x : List (Nat × Chan)) : (s.setChans x).gviews = s.gviews := rfl
@[simp] theorem State.reds_setChans (x : List (Nat × Chan)) : (s.setChans x).reds = s.reds := rfl
@[simp] theorem State.redSeq_setChans (x : List (Nat × Chan)) : (s.setChans x).redSeq = s.redSeq := rfl
@[simp] theorem State.redRings_setChans (x : List (Nat × Chan)) : (s.setChans x).redRings = s.redRings := rfl
@[simp] theorem State.jobs_setChans (x : List (Nat × Chan)) : (s.setChans x).jobs = s.jobs := rfl
@[simp] theorem State.traceBufs_setChans (x : List (Nat × Chan)) : (s.setChans x).traceBufs = s.traceBufs := rfl
@[simp] theorem State.traceTurn_setChans (x : List (Nat × Chan)) : (s.setChans x).traceTurn = s.traceTurn := rfl
@[simp] theorem State.dm_setChans (x : List (Nat × Chan)) : (s.setChans x).dm = s.dm := rfl
@[simp] theorem State.posted_setChans (x : List (Nat × Chan)) : (s.setChans x).posted = s.posted := rfl
@[simp] theorem State.referee_setChans (x : List (Nat × Chan)) : (s.setChans x).referee = s.referee := rfl
@[simp] theorem State.power_setChans (x : List (Nat × Chan)) : (s.setChans x).power = s.power := rfl
@[simp] theorem State.freeCount_setChans (x : List (Nat × Chan)) : (s.setChans x).freeCount = s.freeCount := rfl
@[simp] theorem State.lines_setChans (x : List (Nat × Chan)) : (s.setChans x).lines = s.lines := rfl
@[simp] theorem State.hartCsr_setChans (x : List (Nat × Chan)) : (s.setChans x).hartCsr = s.hartCsr := rfl
@[simp] theorem State.msix_setChans (x : List (Nat × Chan)) : (s.setChans x).msix = s.msix := rfl
@[simp] theorem State.msixCtl_setChans (x : List (Nat × Chan)) : (s.setChans x).msixCtl = s.msixCtl := rfl
@[simp] theorem State.hartFull_setChans (x : List (Nat × Chan)) : (s.setChans x).hartFull = s.hartFull := rfl
@[simp] theorem State.pending_setFeeds (x : List (Nat × Feed)) : (s.setFeeds x).pending = s.pending := rfl
@[simp] theorem State.dtime_setFeeds (x : List (Nat × Feed)) : (s.setFeeds x).dtime = s.dtime := rfl
@[simp] theorem State.regs_setFeeds (x : List (Nat × Feed)) : (s.setFeeds x).regs = s.regs := rfl
@[simp] theorem State.mem_setFeeds (x : List (Nat × Feed)) : (s.setFeeds x).mem = s.mem := rfl
@[simp] theorem State.hostMem_setFeeds (x : List (Nat × Feed)) : (s.setFeeds x).hostMem = s.hostMem := rfl
@[simp] theorem State.book_setFeeds (x : List (Nat × Feed)) : (s.setFeeds x).book = s.book := rfl
@[simp] theorem State.learned_setFeeds (x : List (Nat × Feed)) : (s.setFeeds x).learned = s.learned := rfl
@[simp] theorem State.benched_setFeeds (x : List (Nat × Feed)) : (s.setFeeds x).benched = s.benched := rfl
@[simp] theorem State.cores_setFeeds (x : List (Nat × Feed)) : (s.setFeeds x).cores = s.cores := rfl
@[simp] theorem State.sync_setFeeds (x : List (Nat × Feed)) : (s.setFeeds x).sync = s.sync := rfl
@[simp] theorem State.waitOrder_setFeeds (x : List (Nat × Feed)) : (s.setFeeds x).waitOrder = s.waitOrder := rfl
@[simp] theorem State.signals_setFeeds (x : List (Nat × Feed)) : (s.setFeeds x).signals = s.signals := rfl
@[simp] theorem State.dispatch_setFeeds (x : List (Nat × Feed)) : (s.setFeeds x).dispatch = s.dispatch := rfl
@[simp] theorem State.segOrder_setFeeds (x : List (Nat × Feed)) : (s.setFeeds x).segOrder = s.segOrder := rfl
@[simp] theorem State.streams_setFeeds (x : List (Nat × Feed)) : (s.setFeeds x).streams = s.streams := rfl
@[simp] theorem State.rings_setFeeds (x : List (Nat × Feed)) : (s.setFeeds x).rings = s.rings := rfl
@[simp] theorem State.heads_setFeeds (x : List (Nat × Feed)) : (s.setFeeds x).heads = s.heads := rfl
@[simp] theorem State.haltAt_setFeeds (x : List (Nat × Feed)) : (s.setFeeds x).haltAt = s.haltAt := rfl
@[simp] theorem State.heldHeads_setFeeds (x : List (Nat × Feed)) : (s.setFeeds x).heldHeads = s.heldHeads := rfl
@[simp] theorem State.queues_setFeeds (x : List (Nat × Feed)) : (s.setFeeds x).queues = s.queues := rfl
@[simp] theorem State.atsOn_setFeeds (x : List (Nat × Feed)) : (s.setFeeds x).atsOn = s.atsOn := rfl
@[simp] theorem State.atc_setFeeds (x : List (Nat × Feed)) : (s.setFeeds x).atc = s.atc := rfl
@[simp] theorem State.lowPower_setFeeds (x : List (Nat × Feed)) : (s.setFeeds x).lowPower = s.lowPower := rfl
@[simp] theorem State.flags_setFeeds (x : List (Nat × Feed)) : (s.setFeeds x).flags = s.flags := rfl
@[simp] theorem State.out_setFeeds (x : List (Nat × Feed)) : (s.setFeeds x).out = s.out := rfl
@[simp] theorem State.events_setFeeds (x : List (Nat × Feed)) : (s.setFeeds x).events = s.events := rfl
@[simp] theorem State.bad_setFeeds (x : List (Nat × Feed)) : (s.setFeeds x).bad = s.bad := rfl
@[simp] theorem State.poison_setFeeds (x : List (Nat × Feed)) : (s.setFeeds x).poison = s.poison := rfl
@[simp] theorem State.cache_setFeeds (x : List (Nat × Feed)) : (s.setFeeds x).cache = s.cache := rfl
@[simp] theorem State.watch_setFeeds (x : List (Nat × Feed)) : (s.setFeeds x).watch = s.watch := rfl
@[simp] theorem State.flash_setFeeds (x : List (Nat × Feed)) : (s.setFeeds x).flash = s.flash := rfl
@[simp] theorem State.flashDown_setFeeds (x : List (Nat × Feed)) : (s.setFeeds x).flashDown = s.flashDown := rfl
@[simp] theorem State.ports_setFeeds (x : List (Nat × Feed)) : (s.setFeeds x).ports = s.ports := rfl
@[simp] theorem State.inbox_setFeeds (x : List (Nat × Feed)) : (s.setFeeds x).inbox = s.inbox := rfl
@[simp] theorem State.fellows_setFeeds (x : List (Nat × Feed)) : (s.setFeeds x).fellows = s.fellows := rfl
@[simp] theorem State.pfc_setFeeds (x : List (Nat × Feed)) : (s.setFeeds x).pfc = s.pfc := rfl
@[simp] theorem State.reqs_setFeeds (x : List (Nat × Feed)) : (s.setFeeds x).reqs = s.reqs := rfl
@[simp] theorem State.serial_setFeeds (x : List (Nat × Feed)) : (s.setFeeds x).serial = s.serial := rfl
@[simp] theorem State.tag_setFeeds (x : List (Nat × Feed)) : (s.setFeeds x).tag = s.tag := rfl
@[simp] theorem State.chans_setFeeds (x : List (Nat × Feed)) : (s.setFeeds x).chans = s.chans := rfl
@[simp] theorem State.feeds_setFeeds (x : List (Nat × Feed)) : (s.setFeeds x).feeds = x := rfl
@[simp] theorem State.fences_setFeeds (x : List (Nat × Feed)) : (s.setFeeds x).fences = s.fences := rfl
@[simp] theorem State.recoveries_setFeeds (x : List (Nat × Feed)) : (s.setFeeds x).recoveries = s.recoveries := rfl
@[simp] theorem State.gviews_setFeeds (x : List (Nat × Feed)) : (s.setFeeds x).gviews = s.gviews := rfl
@[simp] theorem State.reds_setFeeds (x : List (Nat × Feed)) : (s.setFeeds x).reds = s.reds := rfl
@[simp] theorem State.redSeq_setFeeds (x : List (Nat × Feed)) : (s.setFeeds x).redSeq = s.redSeq := rfl
@[simp] theorem State.redRings_setFeeds (x : List (Nat × Feed)) : (s.setFeeds x).redRings = s.redRings := rfl
@[simp] theorem State.jobs_setFeeds (x : List (Nat × Feed)) : (s.setFeeds x).jobs = s.jobs := rfl
@[simp] theorem State.traceBufs_setFeeds (x : List (Nat × Feed)) : (s.setFeeds x).traceBufs = s.traceBufs := rfl
@[simp] theorem State.traceTurn_setFeeds (x : List (Nat × Feed)) : (s.setFeeds x).traceTurn = s.traceTurn := rfl
@[simp] theorem State.dm_setFeeds (x : List (Nat × Feed)) : (s.setFeeds x).dm = s.dm := rfl
@[simp] theorem State.posted_setFeeds (x : List (Nat × Feed)) : (s.setFeeds x).posted = s.posted := rfl
@[simp] theorem State.referee_setFeeds (x : List (Nat × Feed)) : (s.setFeeds x).referee = s.referee := rfl
@[simp] theorem State.power_setFeeds (x : List (Nat × Feed)) : (s.setFeeds x).power = s.power := rfl
@[simp] theorem State.freeCount_setFeeds (x : List (Nat × Feed)) : (s.setFeeds x).freeCount = s.freeCount := rfl
@[simp] theorem State.lines_setFeeds (x : List (Nat × Feed)) : (s.setFeeds x).lines = s.lines := rfl
@[simp] theorem State.hartCsr_setFeeds (x : List (Nat × Feed)) : (s.setFeeds x).hartCsr = s.hartCsr := rfl
@[simp] theorem State.msix_setFeeds (x : List (Nat × Feed)) : (s.setFeeds x).msix = s.msix := rfl
@[simp] theorem State.msixCtl_setFeeds (x : List (Nat × Feed)) : (s.setFeeds x).msixCtl = s.msixCtl := rfl
@[simp] theorem State.hartFull_setFeeds (x : List (Nat × Feed)) : (s.setFeeds x).hartFull = s.hartFull := rfl
@[simp] theorem State.pending_setFences (x : List Fence) : (s.setFences x).pending = s.pending := rfl
@[simp] theorem State.dtime_setFences (x : List Fence) : (s.setFences x).dtime = s.dtime := rfl
@[simp] theorem State.regs_setFences (x : List Fence) : (s.setFences x).regs = s.regs := rfl
@[simp] theorem State.mem_setFences (x : List Fence) : (s.setFences x).mem = s.mem := rfl
@[simp] theorem State.hostMem_setFences (x : List Fence) : (s.setFences x).hostMem = s.hostMem := rfl
@[simp] theorem State.book_setFences (x : List Fence) : (s.setFences x).book = s.book := rfl
@[simp] theorem State.learned_setFences (x : List Fence) : (s.setFences x).learned = s.learned := rfl
@[simp] theorem State.benched_setFences (x : List Fence) : (s.setFences x).benched = s.benched := rfl
@[simp] theorem State.cores_setFences (x : List Fence) : (s.setFences x).cores = s.cores := rfl
@[simp] theorem State.sync_setFences (x : List Fence) : (s.setFences x).sync = s.sync := rfl
@[simp] theorem State.waitOrder_setFences (x : List Fence) : (s.setFences x).waitOrder = s.waitOrder := rfl
@[simp] theorem State.signals_setFences (x : List Fence) : (s.setFences x).signals = s.signals := rfl
@[simp] theorem State.dispatch_setFences (x : List Fence) : (s.setFences x).dispatch = s.dispatch := rfl
@[simp] theorem State.segOrder_setFences (x : List Fence) : (s.setFences x).segOrder = s.segOrder := rfl
@[simp] theorem State.streams_setFences (x : List Fence) : (s.setFences x).streams = s.streams := rfl
@[simp] theorem State.rings_setFences (x : List Fence) : (s.setFences x).rings = s.rings := rfl
@[simp] theorem State.heads_setFences (x : List Fence) : (s.setFences x).heads = s.heads := rfl
@[simp] theorem State.haltAt_setFences (x : List Fence) : (s.setFences x).haltAt = s.haltAt := rfl
@[simp] theorem State.heldHeads_setFences (x : List Fence) : (s.setFences x).heldHeads = s.heldHeads := rfl
@[simp] theorem State.queues_setFences (x : List Fence) : (s.setFences x).queues = s.queues := rfl
@[simp] theorem State.atsOn_setFences (x : List Fence) : (s.setFences x).atsOn = s.atsOn := rfl
@[simp] theorem State.atc_setFences (x : List Fence) : (s.setFences x).atc = s.atc := rfl
@[simp] theorem State.lowPower_setFences (x : List Fence) : (s.setFences x).lowPower = s.lowPower := rfl
@[simp] theorem State.flags_setFences (x : List Fence) : (s.setFences x).flags = s.flags := rfl
@[simp] theorem State.out_setFences (x : List Fence) : (s.setFences x).out = s.out := rfl
@[simp] theorem State.events_setFences (x : List Fence) : (s.setFences x).events = s.events := rfl
@[simp] theorem State.bad_setFences (x : List Fence) : (s.setFences x).bad = s.bad := rfl
@[simp] theorem State.poison_setFences (x : List Fence) : (s.setFences x).poison = s.poison := rfl
@[simp] theorem State.cache_setFences (x : List Fence) : (s.setFences x).cache = s.cache := rfl
@[simp] theorem State.watch_setFences (x : List Fence) : (s.setFences x).watch = s.watch := rfl
@[simp] theorem State.flash_setFences (x : List Fence) : (s.setFences x).flash = s.flash := rfl
@[simp] theorem State.flashDown_setFences (x : List Fence) : (s.setFences x).flashDown = s.flashDown := rfl
@[simp] theorem State.ports_setFences (x : List Fence) : (s.setFences x).ports = s.ports := rfl
@[simp] theorem State.inbox_setFences (x : List Fence) : (s.setFences x).inbox = s.inbox := rfl
@[simp] theorem State.fellows_setFences (x : List Fence) : (s.setFences x).fellows = s.fellows := rfl
@[simp] theorem State.pfc_setFences (x : List Fence) : (s.setFences x).pfc = s.pfc := rfl
@[simp] theorem State.reqs_setFences (x : List Fence) : (s.setFences x).reqs = s.reqs := rfl
@[simp] theorem State.serial_setFences (x : List Fence) : (s.setFences x).serial = s.serial := rfl
@[simp] theorem State.tag_setFences (x : List Fence) : (s.setFences x).tag = s.tag := rfl
@[simp] theorem State.chans_setFences (x : List Fence) : (s.setFences x).chans = s.chans := rfl
@[simp] theorem State.feeds_setFences (x : List Fence) : (s.setFences x).feeds = s.feeds := rfl
@[simp] theorem State.fences_setFences (x : List Fence) : (s.setFences x).fences = x := rfl
@[simp] theorem State.recoveries_setFences (x : List Fence) : (s.setFences x).recoveries = s.recoveries := rfl
@[simp] theorem State.gviews_setFences (x : List Fence) : (s.setFences x).gviews = s.gviews := rfl
@[simp] theorem State.reds_setFences (x : List Fence) : (s.setFences x).reds = s.reds := rfl
@[simp] theorem State.redSeq_setFences (x : List Fence) : (s.setFences x).redSeq = s.redSeq := rfl
@[simp] theorem State.redRings_setFences (x : List Fence) : (s.setFences x).redRings = s.redRings := rfl
@[simp] theorem State.jobs_setFences (x : List Fence) : (s.setFences x).jobs = s.jobs := rfl
@[simp] theorem State.traceBufs_setFences (x : List Fence) : (s.setFences x).traceBufs = s.traceBufs := rfl
@[simp] theorem State.traceTurn_setFences (x : List Fence) : (s.setFences x).traceTurn = s.traceTurn := rfl
@[simp] theorem State.dm_setFences (x : List Fence) : (s.setFences x).dm = s.dm := rfl
@[simp] theorem State.posted_setFences (x : List Fence) : (s.setFences x).posted = s.posted := rfl
@[simp] theorem State.referee_setFences (x : List Fence) : (s.setFences x).referee = s.referee := rfl
@[simp] theorem State.power_setFences (x : List Fence) : (s.setFences x).power = s.power := rfl
@[simp] theorem State.freeCount_setFences (x : List Fence) : (s.setFences x).freeCount = s.freeCount := rfl
@[simp] theorem State.lines_setFences (x : List Fence) : (s.setFences x).lines = s.lines := rfl
@[simp] theorem State.hartCsr_setFences (x : List Fence) : (s.setFences x).hartCsr = s.hartCsr := rfl
@[simp] theorem State.msix_setFences (x : List Fence) : (s.setFences x).msix = s.msix := rfl
@[simp] theorem State.msixCtl_setFences (x : List Fence) : (s.setFences x).msixCtl = s.msixCtl := rfl
@[simp] theorem State.hartFull_setFences (x : List Fence) : (s.setFences x).hartFull = s.hartFull := rfl
@[simp] theorem State.pending_setRecoveries (x : List Recovery) : (s.setRecoveries x).pending = s.pending := rfl
@[simp] theorem State.dtime_setRecoveries (x : List Recovery) : (s.setRecoveries x).dtime = s.dtime := rfl
@[simp] theorem State.regs_setRecoveries (x : List Recovery) : (s.setRecoveries x).regs = s.regs := rfl
@[simp] theorem State.mem_setRecoveries (x : List Recovery) : (s.setRecoveries x).mem = s.mem := rfl
@[simp] theorem State.hostMem_setRecoveries (x : List Recovery) : (s.setRecoveries x).hostMem = s.hostMem := rfl
@[simp] theorem State.book_setRecoveries (x : List Recovery) : (s.setRecoveries x).book = s.book := rfl
@[simp] theorem State.learned_setRecoveries (x : List Recovery) : (s.setRecoveries x).learned = s.learned := rfl
@[simp] theorem State.benched_setRecoveries (x : List Recovery) : (s.setRecoveries x).benched = s.benched := rfl
@[simp] theorem State.cores_setRecoveries (x : List Recovery) : (s.setRecoveries x).cores = s.cores := rfl
@[simp] theorem State.sync_setRecoveries (x : List Recovery) : (s.setRecoveries x).sync = s.sync := rfl
@[simp] theorem State.waitOrder_setRecoveries (x : List Recovery) : (s.setRecoveries x).waitOrder = s.waitOrder := rfl
@[simp] theorem State.signals_setRecoveries (x : List Recovery) : (s.setRecoveries x).signals = s.signals := rfl
@[simp] theorem State.dispatch_setRecoveries (x : List Recovery) : (s.setRecoveries x).dispatch = s.dispatch := rfl
@[simp] theorem State.segOrder_setRecoveries (x : List Recovery) : (s.setRecoveries x).segOrder = s.segOrder := rfl
@[simp] theorem State.streams_setRecoveries (x : List Recovery) : (s.setRecoveries x).streams = s.streams := rfl
@[simp] theorem State.rings_setRecoveries (x : List Recovery) : (s.setRecoveries x).rings = s.rings := rfl
@[simp] theorem State.heads_setRecoveries (x : List Recovery) : (s.setRecoveries x).heads = s.heads := rfl
@[simp] theorem State.haltAt_setRecoveries (x : List Recovery) : (s.setRecoveries x).haltAt = s.haltAt := rfl
@[simp] theorem State.heldHeads_setRecoveries (x : List Recovery) : (s.setRecoveries x).heldHeads = s.heldHeads := rfl
@[simp] theorem State.queues_setRecoveries (x : List Recovery) : (s.setRecoveries x).queues = s.queues := rfl
@[simp] theorem State.atsOn_setRecoveries (x : List Recovery) : (s.setRecoveries x).atsOn = s.atsOn := rfl
@[simp] theorem State.atc_setRecoveries (x : List Recovery) : (s.setRecoveries x).atc = s.atc := rfl
@[simp] theorem State.lowPower_setRecoveries (x : List Recovery) : (s.setRecoveries x).lowPower = s.lowPower := rfl
@[simp] theorem State.flags_setRecoveries (x : List Recovery) : (s.setRecoveries x).flags = s.flags := rfl
@[simp] theorem State.out_setRecoveries (x : List Recovery) : (s.setRecoveries x).out = s.out := rfl
@[simp] theorem State.events_setRecoveries (x : List Recovery) : (s.setRecoveries x).events = s.events := rfl
@[simp] theorem State.bad_setRecoveries (x : List Recovery) : (s.setRecoveries x).bad = s.bad := rfl
@[simp] theorem State.poison_setRecoveries (x : List Recovery) : (s.setRecoveries x).poison = s.poison := rfl
@[simp] theorem State.cache_setRecoveries (x : List Recovery) : (s.setRecoveries x).cache = s.cache := rfl
@[simp] theorem State.watch_setRecoveries (x : List Recovery) : (s.setRecoveries x).watch = s.watch := rfl
@[simp] theorem State.flash_setRecoveries (x : List Recovery) : (s.setRecoveries x).flash = s.flash := rfl
@[simp] theorem State.flashDown_setRecoveries (x : List Recovery) : (s.setRecoveries x).flashDown = s.flashDown := rfl
@[simp] theorem State.ports_setRecoveries (x : List Recovery) : (s.setRecoveries x).ports = s.ports := rfl
@[simp] theorem State.inbox_setRecoveries (x : List Recovery) : (s.setRecoveries x).inbox = s.inbox := rfl
@[simp] theorem State.fellows_setRecoveries (x : List Recovery) : (s.setRecoveries x).fellows = s.fellows := rfl
@[simp] theorem State.pfc_setRecoveries (x : List Recovery) : (s.setRecoveries x).pfc = s.pfc := rfl
@[simp] theorem State.reqs_setRecoveries (x : List Recovery) : (s.setRecoveries x).reqs = s.reqs := rfl
@[simp] theorem State.serial_setRecoveries (x : List Recovery) : (s.setRecoveries x).serial = s.serial := rfl
@[simp] theorem State.tag_setRecoveries (x : List Recovery) : (s.setRecoveries x).tag = s.tag := rfl
@[simp] theorem State.chans_setRecoveries (x : List Recovery) : (s.setRecoveries x).chans = s.chans := rfl
@[simp] theorem State.feeds_setRecoveries (x : List Recovery) : (s.setRecoveries x).feeds = s.feeds := rfl
@[simp] theorem State.fences_setRecoveries (x : List Recovery) : (s.setRecoveries x).fences = s.fences := rfl
@[simp] theorem State.recoveries_setRecoveries (x : List Recovery) : (s.setRecoveries x).recoveries = x := rfl
@[simp] theorem State.gviews_setRecoveries (x : List Recovery) : (s.setRecoveries x).gviews = s.gviews := rfl
@[simp] theorem State.reds_setRecoveries (x : List Recovery) : (s.setRecoveries x).reds = s.reds := rfl
@[simp] theorem State.redSeq_setRecoveries (x : List Recovery) : (s.setRecoveries x).redSeq = s.redSeq := rfl
@[simp] theorem State.redRings_setRecoveries (x : List Recovery) : (s.setRecoveries x).redRings = s.redRings := rfl
@[simp] theorem State.jobs_setRecoveries (x : List Recovery) : (s.setRecoveries x).jobs = s.jobs := rfl
@[simp] theorem State.traceBufs_setRecoveries (x : List Recovery) : (s.setRecoveries x).traceBufs = s.traceBufs := rfl
@[simp] theorem State.traceTurn_setRecoveries (x : List Recovery) : (s.setRecoveries x).traceTurn = s.traceTurn := rfl
@[simp] theorem State.dm_setRecoveries (x : List Recovery) : (s.setRecoveries x).dm = s.dm := rfl
@[simp] theorem State.posted_setRecoveries (x : List Recovery) : (s.setRecoveries x).posted = s.posted := rfl
@[simp] theorem State.referee_setRecoveries (x : List Recovery) : (s.setRecoveries x).referee = s.referee := rfl
@[simp] theorem State.power_setRecoveries (x : List Recovery) : (s.setRecoveries x).power = s.power := rfl
@[simp] theorem State.freeCount_setRecoveries (x : List Recovery) : (s.setRecoveries x).freeCount = s.freeCount := rfl
@[simp] theorem State.lines_setRecoveries (x : List Recovery) : (s.setRecoveries x).lines = s.lines := rfl
@[simp] theorem State.hartCsr_setRecoveries (x : List Recovery) : (s.setRecoveries x).hartCsr = s.hartCsr := rfl
@[simp] theorem State.msix_setRecoveries (x : List Recovery) : (s.setRecoveries x).msix = s.msix := rfl
@[simp] theorem State.msixCtl_setRecoveries (x : List Recovery) : (s.setRecoveries x).msixCtl = s.msixCtl := rfl
@[simp] theorem State.hartFull_setRecoveries (x : List Recovery) : (s.setRecoveries x).hartFull = s.hartFull := rfl
@[simp] theorem State.pending_setGviews (x : List (Nat × GView)) : (s.setGviews x).pending = s.pending := rfl
@[simp] theorem State.dtime_setGviews (x : List (Nat × GView)) : (s.setGviews x).dtime = s.dtime := rfl
@[simp] theorem State.regs_setGviews (x : List (Nat × GView)) : (s.setGviews x).regs = s.regs := rfl
@[simp] theorem State.mem_setGviews (x : List (Nat × GView)) : (s.setGviews x).mem = s.mem := rfl
@[simp] theorem State.hostMem_setGviews (x : List (Nat × GView)) : (s.setGviews x).hostMem = s.hostMem := rfl
@[simp] theorem State.book_setGviews (x : List (Nat × GView)) : (s.setGviews x).book = s.book := rfl
@[simp] theorem State.learned_setGviews (x : List (Nat × GView)) : (s.setGviews x).learned = s.learned := rfl
@[simp] theorem State.benched_setGviews (x : List (Nat × GView)) : (s.setGviews x).benched = s.benched := rfl
@[simp] theorem State.cores_setGviews (x : List (Nat × GView)) : (s.setGviews x).cores = s.cores := rfl
@[simp] theorem State.sync_setGviews (x : List (Nat × GView)) : (s.setGviews x).sync = s.sync := rfl
@[simp] theorem State.waitOrder_setGviews (x : List (Nat × GView)) : (s.setGviews x).waitOrder = s.waitOrder := rfl
@[simp] theorem State.signals_setGviews (x : List (Nat × GView)) : (s.setGviews x).signals = s.signals := rfl
@[simp] theorem State.dispatch_setGviews (x : List (Nat × GView)) : (s.setGviews x).dispatch = s.dispatch := rfl
@[simp] theorem State.segOrder_setGviews (x : List (Nat × GView)) : (s.setGviews x).segOrder = s.segOrder := rfl
@[simp] theorem State.streams_setGviews (x : List (Nat × GView)) : (s.setGviews x).streams = s.streams := rfl
@[simp] theorem State.rings_setGviews (x : List (Nat × GView)) : (s.setGviews x).rings = s.rings := rfl
@[simp] theorem State.heads_setGviews (x : List (Nat × GView)) : (s.setGviews x).heads = s.heads := rfl
@[simp] theorem State.haltAt_setGviews (x : List (Nat × GView)) : (s.setGviews x).haltAt = s.haltAt := rfl
@[simp] theorem State.heldHeads_setGviews (x : List (Nat × GView)) : (s.setGviews x).heldHeads = s.heldHeads := rfl
@[simp] theorem State.queues_setGviews (x : List (Nat × GView)) : (s.setGviews x).queues = s.queues := rfl
@[simp] theorem State.atsOn_setGviews (x : List (Nat × GView)) : (s.setGviews x).atsOn = s.atsOn := rfl
@[simp] theorem State.atc_setGviews (x : List (Nat × GView)) : (s.setGviews x).atc = s.atc := rfl
@[simp] theorem State.lowPower_setGviews (x : List (Nat × GView)) : (s.setGviews x).lowPower = s.lowPower := rfl
@[simp] theorem State.flags_setGviews (x : List (Nat × GView)) : (s.setGviews x).flags = s.flags := rfl
@[simp] theorem State.out_setGviews (x : List (Nat × GView)) : (s.setGviews x).out = s.out := rfl
@[simp] theorem State.events_setGviews (x : List (Nat × GView)) : (s.setGviews x).events = s.events := rfl
@[simp] theorem State.bad_setGviews (x : List (Nat × GView)) : (s.setGviews x).bad = s.bad := rfl
@[simp] theorem State.poison_setGviews (x : List (Nat × GView)) : (s.setGviews x).poison = s.poison := rfl
@[simp] theorem State.cache_setGviews (x : List (Nat × GView)) : (s.setGviews x).cache = s.cache := rfl
@[simp] theorem State.watch_setGviews (x : List (Nat × GView)) : (s.setGviews x).watch = s.watch := rfl
@[simp] theorem State.flash_setGviews (x : List (Nat × GView)) : (s.setGviews x).flash = s.flash := rfl
@[simp] theorem State.flashDown_setGviews (x : List (Nat × GView)) : (s.setGviews x).flashDown = s.flashDown := rfl
@[simp] theorem State.ports_setGviews (x : List (Nat × GView)) : (s.setGviews x).ports = s.ports := rfl
@[simp] theorem State.inbox_setGviews (x : List (Nat × GView)) : (s.setGviews x).inbox = s.inbox := rfl
@[simp] theorem State.fellows_setGviews (x : List (Nat × GView)) : (s.setGviews x).fellows = s.fellows := rfl
@[simp] theorem State.pfc_setGviews (x : List (Nat × GView)) : (s.setGviews x).pfc = s.pfc := rfl
@[simp] theorem State.reqs_setGviews (x : List (Nat × GView)) : (s.setGviews x).reqs = s.reqs := rfl
@[simp] theorem State.serial_setGviews (x : List (Nat × GView)) : (s.setGviews x).serial = s.serial := rfl
@[simp] theorem State.tag_setGviews (x : List (Nat × GView)) : (s.setGviews x).tag = s.tag := rfl
@[simp] theorem State.chans_setGviews (x : List (Nat × GView)) : (s.setGviews x).chans = s.chans := rfl
@[simp] theorem State.feeds_setGviews (x : List (Nat × GView)) : (s.setGviews x).feeds = s.feeds := rfl
@[simp] theorem State.fences_setGviews (x : List (Nat × GView)) : (s.setGviews x).fences = s.fences := rfl
@[simp] theorem State.recoveries_setGviews (x : List (Nat × GView)) : (s.setGviews x).recoveries = s.recoveries := rfl
@[simp] theorem State.gviews_setGviews (x : List (Nat × GView)) : (s.setGviews x).gviews = x := rfl
@[simp] theorem State.reds_setGviews (x : List (Nat × GView)) : (s.setGviews x).reds = s.reds := rfl
@[simp] theorem State.redSeq_setGviews (x : List (Nat × GView)) : (s.setGviews x).redSeq = s.redSeq := rfl
@[simp] theorem State.redRings_setGviews (x : List (Nat × GView)) : (s.setGviews x).redRings = s.redRings := rfl
@[simp] theorem State.jobs_setGviews (x : List (Nat × GView)) : (s.setGviews x).jobs = s.jobs := rfl
@[simp] theorem State.traceBufs_setGviews (x : List (Nat × GView)) : (s.setGviews x).traceBufs = s.traceBufs := rfl
@[simp] theorem State.traceTurn_setGviews (x : List (Nat × GView)) : (s.setGviews x).traceTurn = s.traceTurn := rfl
@[simp] theorem State.dm_setGviews (x : List (Nat × GView)) : (s.setGviews x).dm = s.dm := rfl
@[simp] theorem State.posted_setGviews (x : List (Nat × GView)) : (s.setGviews x).posted = s.posted := rfl
@[simp] theorem State.referee_setGviews (x : List (Nat × GView)) : (s.setGviews x).referee = s.referee := rfl
@[simp] theorem State.power_setGviews (x : List (Nat × GView)) : (s.setGviews x).power = s.power := rfl
@[simp] theorem State.freeCount_setGviews (x : List (Nat × GView)) : (s.setGviews x).freeCount = s.freeCount := rfl
@[simp] theorem State.lines_setGviews (x : List (Nat × GView)) : (s.setGviews x).lines = s.lines := rfl
@[simp] theorem State.hartCsr_setGviews (x : List (Nat × GView)) : (s.setGviews x).hartCsr = s.hartCsr := rfl
@[simp] theorem State.msix_setGviews (x : List (Nat × GView)) : (s.setGviews x).msix = s.msix := rfl
@[simp] theorem State.msixCtl_setGviews (x : List (Nat × GView)) : (s.setGviews x).msixCtl = s.msixCtl := rfl
@[simp] theorem State.hartFull_setGviews (x : List (Nat × GView)) : (s.setGviews x).hartFull = s.hartFull := rfl
@[simp] theorem State.pending_setReds (x : List Red) : (s.setReds x).pending = s.pending := rfl
@[simp] theorem State.dtime_setReds (x : List Red) : (s.setReds x).dtime = s.dtime := rfl
@[simp] theorem State.regs_setReds (x : List Red) : (s.setReds x).regs = s.regs := rfl
@[simp] theorem State.mem_setReds (x : List Red) : (s.setReds x).mem = s.mem := rfl
@[simp] theorem State.hostMem_setReds (x : List Red) : (s.setReds x).hostMem = s.hostMem := rfl
@[simp] theorem State.book_setReds (x : List Red) : (s.setReds x).book = s.book := rfl
@[simp] theorem State.learned_setReds (x : List Red) : (s.setReds x).learned = s.learned := rfl
@[simp] theorem State.benched_setReds (x : List Red) : (s.setReds x).benched = s.benched := rfl
@[simp] theorem State.cores_setReds (x : List Red) : (s.setReds x).cores = s.cores := rfl
@[simp] theorem State.sync_setReds (x : List Red) : (s.setReds x).sync = s.sync := rfl
@[simp] theorem State.waitOrder_setReds (x : List Red) : (s.setReds x).waitOrder = s.waitOrder := rfl
@[simp] theorem State.signals_setReds (x : List Red) : (s.setReds x).signals = s.signals := rfl
@[simp] theorem State.dispatch_setReds (x : List Red) : (s.setReds x).dispatch = s.dispatch := rfl
@[simp] theorem State.segOrder_setReds (x : List Red) : (s.setReds x).segOrder = s.segOrder := rfl
@[simp] theorem State.streams_setReds (x : List Red) : (s.setReds x).streams = s.streams := rfl
@[simp] theorem State.rings_setReds (x : List Red) : (s.setReds x).rings = s.rings := rfl
@[simp] theorem State.heads_setReds (x : List Red) : (s.setReds x).heads = s.heads := rfl
@[simp] theorem State.haltAt_setReds (x : List Red) : (s.setReds x).haltAt = s.haltAt := rfl
@[simp] theorem State.heldHeads_setReds (x : List Red) : (s.setReds x).heldHeads = s.heldHeads := rfl
@[simp] theorem State.queues_setReds (x : List Red) : (s.setReds x).queues = s.queues := rfl
@[simp] theorem State.atsOn_setReds (x : List Red) : (s.setReds x).atsOn = s.atsOn := rfl
@[simp] theorem State.atc_setReds (x : List Red) : (s.setReds x).atc = s.atc := rfl
@[simp] theorem State.lowPower_setReds (x : List Red) : (s.setReds x).lowPower = s.lowPower := rfl
@[simp] theorem State.flags_setReds (x : List Red) : (s.setReds x).flags = s.flags := rfl
@[simp] theorem State.out_setReds (x : List Red) : (s.setReds x).out = s.out := rfl
@[simp] theorem State.events_setReds (x : List Red) : (s.setReds x).events = s.events := rfl
@[simp] theorem State.bad_setReds (x : List Red) : (s.setReds x).bad = s.bad := rfl
@[simp] theorem State.poison_setReds (x : List Red) : (s.setReds x).poison = s.poison := rfl
@[simp] theorem State.cache_setReds (x : List Red) : (s.setReds x).cache = s.cache := rfl
@[simp] theorem State.watch_setReds (x : List Red) : (s.setReds x).watch = s.watch := rfl
@[simp] theorem State.flash_setReds (x : List Red) : (s.setReds x).flash = s.flash := rfl
@[simp] theorem State.flashDown_setReds (x : List Red) : (s.setReds x).flashDown = s.flashDown := rfl
@[simp] theorem State.ports_setReds (x : List Red) : (s.setReds x).ports = s.ports := rfl
@[simp] theorem State.inbox_setReds (x : List Red) : (s.setReds x).inbox = s.inbox := rfl
@[simp] theorem State.fellows_setReds (x : List Red) : (s.setReds x).fellows = s.fellows := rfl
@[simp] theorem State.pfc_setReds (x : List Red) : (s.setReds x).pfc = s.pfc := rfl
@[simp] theorem State.reqs_setReds (x : List Red) : (s.setReds x).reqs = s.reqs := rfl
@[simp] theorem State.serial_setReds (x : List Red) : (s.setReds x).serial = s.serial := rfl
@[simp] theorem State.tag_setReds (x : List Red) : (s.setReds x).tag = s.tag := rfl
@[simp] theorem State.chans_setReds (x : List Red) : (s.setReds x).chans = s.chans := rfl
@[simp] theorem State.feeds_setReds (x : List Red) : (s.setReds x).feeds = s.feeds := rfl
@[simp] theorem State.fences_setReds (x : List Red) : (s.setReds x).fences = s.fences := rfl
@[simp] theorem State.recoveries_setReds (x : List Red) : (s.setReds x).recoveries = s.recoveries := rfl
@[simp] theorem State.gviews_setReds (x : List Red) : (s.setReds x).gviews = s.gviews := rfl
@[simp] theorem State.reds_setReds (x : List Red) : (s.setReds x).reds = x := rfl
@[simp] theorem State.redSeq_setReds (x : List Red) : (s.setReds x).redSeq = s.redSeq := rfl
@[simp] theorem State.redRings_setReds (x : List Red) : (s.setReds x).redRings = s.redRings := rfl
@[simp] theorem State.jobs_setReds (x : List Red) : (s.setReds x).jobs = s.jobs := rfl
@[simp] theorem State.traceBufs_setReds (x : List Red) : (s.setReds x).traceBufs = s.traceBufs := rfl
@[simp] theorem State.traceTurn_setReds (x : List Red) : (s.setReds x).traceTurn = s.traceTurn := rfl
@[simp] theorem State.dm_setReds (x : List Red) : (s.setReds x).dm = s.dm := rfl
@[simp] theorem State.posted_setReds (x : List Red) : (s.setReds x).posted = s.posted := rfl
@[simp] theorem State.referee_setReds (x : List Red) : (s.setReds x).referee = s.referee := rfl
@[simp] theorem State.power_setReds (x : List Red) : (s.setReds x).power = s.power := rfl
@[simp] theorem State.freeCount_setReds (x : List Red) : (s.setReds x).freeCount = s.freeCount := rfl
@[simp] theorem State.lines_setReds (x : List Red) : (s.setReds x).lines = s.lines := rfl
@[simp] theorem State.hartCsr_setReds (x : List Red) : (s.setReds x).hartCsr = s.hartCsr := rfl
@[simp] theorem State.msix_setReds (x : List Red) : (s.setReds x).msix = s.msix := rfl
@[simp] theorem State.msixCtl_setReds (x : List Red) : (s.setReds x).msixCtl = s.msixCtl := rfl
@[simp] theorem State.hartFull_setReds (x : List Red) : (s.setReds x).hartFull = s.hartFull := rfl
@[simp] theorem State.pending_setRedSeq (x : List (Nat × Nat)) : (s.setRedSeq x).pending = s.pending := rfl
@[simp] theorem State.dtime_setRedSeq (x : List (Nat × Nat)) : (s.setRedSeq x).dtime = s.dtime := rfl
@[simp] theorem State.regs_setRedSeq (x : List (Nat × Nat)) : (s.setRedSeq x).regs = s.regs := rfl
@[simp] theorem State.mem_setRedSeq (x : List (Nat × Nat)) : (s.setRedSeq x).mem = s.mem := rfl
@[simp] theorem State.hostMem_setRedSeq (x : List (Nat × Nat)) : (s.setRedSeq x).hostMem = s.hostMem := rfl
@[simp] theorem State.book_setRedSeq (x : List (Nat × Nat)) : (s.setRedSeq x).book = s.book := rfl
@[simp] theorem State.learned_setRedSeq (x : List (Nat × Nat)) : (s.setRedSeq x).learned = s.learned := rfl
@[simp] theorem State.benched_setRedSeq (x : List (Nat × Nat)) : (s.setRedSeq x).benched = s.benched := rfl
@[simp] theorem State.cores_setRedSeq (x : List (Nat × Nat)) : (s.setRedSeq x).cores = s.cores := rfl
@[simp] theorem State.sync_setRedSeq (x : List (Nat × Nat)) : (s.setRedSeq x).sync = s.sync := rfl
@[simp] theorem State.waitOrder_setRedSeq (x : List (Nat × Nat)) : (s.setRedSeq x).waitOrder = s.waitOrder := rfl
@[simp] theorem State.signals_setRedSeq (x : List (Nat × Nat)) : (s.setRedSeq x).signals = s.signals := rfl
@[simp] theorem State.dispatch_setRedSeq (x : List (Nat × Nat)) : (s.setRedSeq x).dispatch = s.dispatch := rfl
@[simp] theorem State.segOrder_setRedSeq (x : List (Nat × Nat)) : (s.setRedSeq x).segOrder = s.segOrder := rfl
@[simp] theorem State.streams_setRedSeq (x : List (Nat × Nat)) : (s.setRedSeq x).streams = s.streams := rfl
@[simp] theorem State.rings_setRedSeq (x : List (Nat × Nat)) : (s.setRedSeq x).rings = s.rings := rfl
@[simp] theorem State.heads_setRedSeq (x : List (Nat × Nat)) : (s.setRedSeq x).heads = s.heads := rfl
@[simp] theorem State.haltAt_setRedSeq (x : List (Nat × Nat)) : (s.setRedSeq x).haltAt = s.haltAt := rfl
@[simp] theorem State.heldHeads_setRedSeq (x : List (Nat × Nat)) : (s.setRedSeq x).heldHeads = s.heldHeads := rfl
@[simp] theorem State.queues_setRedSeq (x : List (Nat × Nat)) : (s.setRedSeq x).queues = s.queues := rfl
@[simp] theorem State.atsOn_setRedSeq (x : List (Nat × Nat)) : (s.setRedSeq x).atsOn = s.atsOn := rfl
@[simp] theorem State.atc_setRedSeq (x : List (Nat × Nat)) : (s.setRedSeq x).atc = s.atc := rfl
@[simp] theorem State.lowPower_setRedSeq (x : List (Nat × Nat)) : (s.setRedSeq x).lowPower = s.lowPower := rfl
@[simp] theorem State.flags_setRedSeq (x : List (Nat × Nat)) : (s.setRedSeq x).flags = s.flags := rfl
@[simp] theorem State.out_setRedSeq (x : List (Nat × Nat)) : (s.setRedSeq x).out = s.out := rfl
@[simp] theorem State.events_setRedSeq (x : List (Nat × Nat)) : (s.setRedSeq x).events = s.events := rfl
@[simp] theorem State.bad_setRedSeq (x : List (Nat × Nat)) : (s.setRedSeq x).bad = s.bad := rfl
@[simp] theorem State.poison_setRedSeq (x : List (Nat × Nat)) : (s.setRedSeq x).poison = s.poison := rfl
@[simp] theorem State.cache_setRedSeq (x : List (Nat × Nat)) : (s.setRedSeq x).cache = s.cache := rfl
@[simp] theorem State.watch_setRedSeq (x : List (Nat × Nat)) : (s.setRedSeq x).watch = s.watch := rfl
@[simp] theorem State.flash_setRedSeq (x : List (Nat × Nat)) : (s.setRedSeq x).flash = s.flash := rfl
@[simp] theorem State.flashDown_setRedSeq (x : List (Nat × Nat)) : (s.setRedSeq x).flashDown = s.flashDown := rfl
@[simp] theorem State.ports_setRedSeq (x : List (Nat × Nat)) : (s.setRedSeq x).ports = s.ports := rfl
@[simp] theorem State.inbox_setRedSeq (x : List (Nat × Nat)) : (s.setRedSeq x).inbox = s.inbox := rfl
@[simp] theorem State.fellows_setRedSeq (x : List (Nat × Nat)) : (s.setRedSeq x).fellows = s.fellows := rfl
@[simp] theorem State.pfc_setRedSeq (x : List (Nat × Nat)) : (s.setRedSeq x).pfc = s.pfc := rfl
@[simp] theorem State.reqs_setRedSeq (x : List (Nat × Nat)) : (s.setRedSeq x).reqs = s.reqs := rfl
@[simp] theorem State.serial_setRedSeq (x : List (Nat × Nat)) : (s.setRedSeq x).serial = s.serial := rfl
@[simp] theorem State.tag_setRedSeq (x : List (Nat × Nat)) : (s.setRedSeq x).tag = s.tag := rfl
@[simp] theorem State.chans_setRedSeq (x : List (Nat × Nat)) : (s.setRedSeq x).chans = s.chans := rfl
@[simp] theorem State.feeds_setRedSeq (x : List (Nat × Nat)) : (s.setRedSeq x).feeds = s.feeds := rfl
@[simp] theorem State.fences_setRedSeq (x : List (Nat × Nat)) : (s.setRedSeq x).fences = s.fences := rfl
@[simp] theorem State.recoveries_setRedSeq (x : List (Nat × Nat)) : (s.setRedSeq x).recoveries = s.recoveries := rfl
@[simp] theorem State.gviews_setRedSeq (x : List (Nat × Nat)) : (s.setRedSeq x).gviews = s.gviews := rfl
@[simp] theorem State.reds_setRedSeq (x : List (Nat × Nat)) : (s.setRedSeq x).reds = s.reds := rfl
@[simp] theorem State.redSeq_setRedSeq (x : List (Nat × Nat)) : (s.setRedSeq x).redSeq = x := rfl
@[simp] theorem State.redRings_setRedSeq (x : List (Nat × Nat)) : (s.setRedSeq x).redRings = s.redRings := rfl
@[simp] theorem State.jobs_setRedSeq (x : List (Nat × Nat)) : (s.setRedSeq x).jobs = s.jobs := rfl
@[simp] theorem State.traceBufs_setRedSeq (x : List (Nat × Nat)) : (s.setRedSeq x).traceBufs = s.traceBufs := rfl
@[simp] theorem State.traceTurn_setRedSeq (x : List (Nat × Nat)) : (s.setRedSeq x).traceTurn = s.traceTurn := rfl
@[simp] theorem State.dm_setRedSeq (x : List (Nat × Nat)) : (s.setRedSeq x).dm = s.dm := rfl
@[simp] theorem State.posted_setRedSeq (x : List (Nat × Nat)) : (s.setRedSeq x).posted = s.posted := rfl
@[simp] theorem State.referee_setRedSeq (x : List (Nat × Nat)) : (s.setRedSeq x).referee = s.referee := rfl
@[simp] theorem State.power_setRedSeq (x : List (Nat × Nat)) : (s.setRedSeq x).power = s.power := rfl
@[simp] theorem State.freeCount_setRedSeq (x : List (Nat × Nat)) : (s.setRedSeq x).freeCount = s.freeCount := rfl
@[simp] theorem State.lines_setRedSeq (x : List (Nat × Nat)) : (s.setRedSeq x).lines = s.lines := rfl
@[simp] theorem State.hartCsr_setRedSeq (x : List (Nat × Nat)) : (s.setRedSeq x).hartCsr = s.hartCsr := rfl
@[simp] theorem State.msix_setRedSeq (x : List (Nat × Nat)) : (s.setRedSeq x).msix = s.msix := rfl
@[simp] theorem State.msixCtl_setRedSeq (x : List (Nat × Nat)) : (s.setRedSeq x).msixCtl = s.msixCtl := rfl
@[simp] theorem State.hartFull_setRedSeq (x : List (Nat × Nat)) : (s.setRedSeq x).hartFull = s.hartFull := rfl
@[simp] theorem State.pending_setRedRings (x : List (Nat × RedRing)) : (s.setRedRings x).pending = s.pending := rfl
@[simp] theorem State.dtime_setRedRings (x : List (Nat × RedRing)) : (s.setRedRings x).dtime = s.dtime := rfl
@[simp] theorem State.regs_setRedRings (x : List (Nat × RedRing)) : (s.setRedRings x).regs = s.regs := rfl
@[simp] theorem State.mem_setRedRings (x : List (Nat × RedRing)) : (s.setRedRings x).mem = s.mem := rfl
@[simp] theorem State.hostMem_setRedRings (x : List (Nat × RedRing)) : (s.setRedRings x).hostMem = s.hostMem := rfl
@[simp] theorem State.book_setRedRings (x : List (Nat × RedRing)) : (s.setRedRings x).book = s.book := rfl
@[simp] theorem State.learned_setRedRings (x : List (Nat × RedRing)) : (s.setRedRings x).learned = s.learned := rfl
@[simp] theorem State.benched_setRedRings (x : List (Nat × RedRing)) : (s.setRedRings x).benched = s.benched := rfl
@[simp] theorem State.cores_setRedRings (x : List (Nat × RedRing)) : (s.setRedRings x).cores = s.cores := rfl
@[simp] theorem State.sync_setRedRings (x : List (Nat × RedRing)) : (s.setRedRings x).sync = s.sync := rfl
@[simp] theorem State.waitOrder_setRedRings (x : List (Nat × RedRing)) : (s.setRedRings x).waitOrder = s.waitOrder := rfl
@[simp] theorem State.signals_setRedRings (x : List (Nat × RedRing)) : (s.setRedRings x).signals = s.signals := rfl
@[simp] theorem State.dispatch_setRedRings (x : List (Nat × RedRing)) : (s.setRedRings x).dispatch = s.dispatch := rfl
@[simp] theorem State.segOrder_setRedRings (x : List (Nat × RedRing)) : (s.setRedRings x).segOrder = s.segOrder := rfl
@[simp] theorem State.streams_setRedRings (x : List (Nat × RedRing)) : (s.setRedRings x).streams = s.streams := rfl
@[simp] theorem State.rings_setRedRings (x : List (Nat × RedRing)) : (s.setRedRings x).rings = s.rings := rfl
@[simp] theorem State.heads_setRedRings (x : List (Nat × RedRing)) : (s.setRedRings x).heads = s.heads := rfl
@[simp] theorem State.haltAt_setRedRings (x : List (Nat × RedRing)) : (s.setRedRings x).haltAt = s.haltAt := rfl
@[simp] theorem State.heldHeads_setRedRings (x : List (Nat × RedRing)) : (s.setRedRings x).heldHeads = s.heldHeads := rfl
@[simp] theorem State.queues_setRedRings (x : List (Nat × RedRing)) : (s.setRedRings x).queues = s.queues := rfl
@[simp] theorem State.atsOn_setRedRings (x : List (Nat × RedRing)) : (s.setRedRings x).atsOn = s.atsOn := rfl
@[simp] theorem State.atc_setRedRings (x : List (Nat × RedRing)) : (s.setRedRings x).atc = s.atc := rfl
@[simp] theorem State.lowPower_setRedRings (x : List (Nat × RedRing)) : (s.setRedRings x).lowPower = s.lowPower := rfl
@[simp] theorem State.flags_setRedRings (x : List (Nat × RedRing)) : (s.setRedRings x).flags = s.flags := rfl
@[simp] theorem State.out_setRedRings (x : List (Nat × RedRing)) : (s.setRedRings x).out = s.out := rfl
@[simp] theorem State.events_setRedRings (x : List (Nat × RedRing)) : (s.setRedRings x).events = s.events := rfl
@[simp] theorem State.bad_setRedRings (x : List (Nat × RedRing)) : (s.setRedRings x).bad = s.bad := rfl
@[simp] theorem State.poison_setRedRings (x : List (Nat × RedRing)) : (s.setRedRings x).poison = s.poison := rfl
@[simp] theorem State.cache_setRedRings (x : List (Nat × RedRing)) : (s.setRedRings x).cache = s.cache := rfl
@[simp] theorem State.watch_setRedRings (x : List (Nat × RedRing)) : (s.setRedRings x).watch = s.watch := rfl
@[simp] theorem State.flash_setRedRings (x : List (Nat × RedRing)) : (s.setRedRings x).flash = s.flash := rfl
@[simp] theorem State.flashDown_setRedRings (x : List (Nat × RedRing)) : (s.setRedRings x).flashDown = s.flashDown := rfl
@[simp] theorem State.ports_setRedRings (x : List (Nat × RedRing)) : (s.setRedRings x).ports = s.ports := rfl
@[simp] theorem State.inbox_setRedRings (x : List (Nat × RedRing)) : (s.setRedRings x).inbox = s.inbox := rfl
@[simp] theorem State.fellows_setRedRings (x : List (Nat × RedRing)) : (s.setRedRings x).fellows = s.fellows := rfl
@[simp] theorem State.pfc_setRedRings (x : List (Nat × RedRing)) : (s.setRedRings x).pfc = s.pfc := rfl
@[simp] theorem State.reqs_setRedRings (x : List (Nat × RedRing)) : (s.setRedRings x).reqs = s.reqs := rfl
@[simp] theorem State.serial_setRedRings (x : List (Nat × RedRing)) : (s.setRedRings x).serial = s.serial := rfl
@[simp] theorem State.tag_setRedRings (x : List (Nat × RedRing)) : (s.setRedRings x).tag = s.tag := rfl
@[simp] theorem State.chans_setRedRings (x : List (Nat × RedRing)) : (s.setRedRings x).chans = s.chans := rfl
@[simp] theorem State.feeds_setRedRings (x : List (Nat × RedRing)) : (s.setRedRings x).feeds = s.feeds := rfl
@[simp] theorem State.fences_setRedRings (x : List (Nat × RedRing)) : (s.setRedRings x).fences = s.fences := rfl
@[simp] theorem State.recoveries_setRedRings (x : List (Nat × RedRing)) : (s.setRedRings x).recoveries = s.recoveries := rfl
@[simp] theorem State.gviews_setRedRings (x : List (Nat × RedRing)) : (s.setRedRings x).gviews = s.gviews := rfl
@[simp] theorem State.reds_setRedRings (x : List (Nat × RedRing)) : (s.setRedRings x).reds = s.reds := rfl
@[simp] theorem State.redSeq_setRedRings (x : List (Nat × RedRing)) : (s.setRedRings x).redSeq = s.redSeq := rfl
@[simp] theorem State.redRings_setRedRings (x : List (Nat × RedRing)) : (s.setRedRings x).redRings = x := rfl
@[simp] theorem State.jobs_setRedRings (x : List (Nat × RedRing)) : (s.setRedRings x).jobs = s.jobs := rfl
@[simp] theorem State.traceBufs_setRedRings (x : List (Nat × RedRing)) : (s.setRedRings x).traceBufs = s.traceBufs := rfl
@[simp] theorem State.traceTurn_setRedRings (x : List (Nat × RedRing)) : (s.setRedRings x).traceTurn = s.traceTurn := rfl
@[simp] theorem State.dm_setRedRings (x : List (Nat × RedRing)) : (s.setRedRings x).dm = s.dm := rfl
@[simp] theorem State.posted_setRedRings (x : List (Nat × RedRing)) : (s.setRedRings x).posted = s.posted := rfl
@[simp] theorem State.referee_setRedRings (x : List (Nat × RedRing)) : (s.setRedRings x).referee = s.referee := rfl
@[simp] theorem State.power_setRedRings (x : List (Nat × RedRing)) : (s.setRedRings x).power = s.power := rfl
@[simp] theorem State.freeCount_setRedRings (x : List (Nat × RedRing)) : (s.setRedRings x).freeCount = s.freeCount := rfl
@[simp] theorem State.lines_setRedRings (x : List (Nat × RedRing)) : (s.setRedRings x).lines = s.lines := rfl
@[simp] theorem State.hartCsr_setRedRings (x : List (Nat × RedRing)) : (s.setRedRings x).hartCsr = s.hartCsr := rfl
@[simp] theorem State.msix_setRedRings (x : List (Nat × RedRing)) : (s.setRedRings x).msix = s.msix := rfl
@[simp] theorem State.msixCtl_setRedRings (x : List (Nat × RedRing)) : (s.setRedRings x).msixCtl = s.msixCtl := rfl
@[simp] theorem State.hartFull_setRedRings (x : List (Nat × RedRing)) : (s.setRedRings x).hartFull = s.hartFull := rfl
@[simp] theorem State.pending_setJobs (x : List (Nat × Job)) : (s.setJobs x).pending = s.pending := rfl
@[simp] theorem State.dtime_setJobs (x : List (Nat × Job)) : (s.setJobs x).dtime = s.dtime := rfl
@[simp] theorem State.regs_setJobs (x : List (Nat × Job)) : (s.setJobs x).regs = s.regs := rfl
@[simp] theorem State.mem_setJobs (x : List (Nat × Job)) : (s.setJobs x).mem = s.mem := rfl
@[simp] theorem State.hostMem_setJobs (x : List (Nat × Job)) : (s.setJobs x).hostMem = s.hostMem := rfl
@[simp] theorem State.book_setJobs (x : List (Nat × Job)) : (s.setJobs x).book = s.book := rfl
@[simp] theorem State.learned_setJobs (x : List (Nat × Job)) : (s.setJobs x).learned = s.learned := rfl
@[simp] theorem State.benched_setJobs (x : List (Nat × Job)) : (s.setJobs x).benched = s.benched := rfl
@[simp] theorem State.cores_setJobs (x : List (Nat × Job)) : (s.setJobs x).cores = s.cores := rfl
@[simp] theorem State.sync_setJobs (x : List (Nat × Job)) : (s.setJobs x).sync = s.sync := rfl
@[simp] theorem State.waitOrder_setJobs (x : List (Nat × Job)) : (s.setJobs x).waitOrder = s.waitOrder := rfl
@[simp] theorem State.signals_setJobs (x : List (Nat × Job)) : (s.setJobs x).signals = s.signals := rfl
@[simp] theorem State.dispatch_setJobs (x : List (Nat × Job)) : (s.setJobs x).dispatch = s.dispatch := rfl
@[simp] theorem State.segOrder_setJobs (x : List (Nat × Job)) : (s.setJobs x).segOrder = s.segOrder := rfl
@[simp] theorem State.streams_setJobs (x : List (Nat × Job)) : (s.setJobs x).streams = s.streams := rfl
@[simp] theorem State.rings_setJobs (x : List (Nat × Job)) : (s.setJobs x).rings = s.rings := rfl
@[simp] theorem State.heads_setJobs (x : List (Nat × Job)) : (s.setJobs x).heads = s.heads := rfl
@[simp] theorem State.haltAt_setJobs (x : List (Nat × Job)) : (s.setJobs x).haltAt = s.haltAt := rfl
@[simp] theorem State.heldHeads_setJobs (x : List (Nat × Job)) : (s.setJobs x).heldHeads = s.heldHeads := rfl
@[simp] theorem State.queues_setJobs (x : List (Nat × Job)) : (s.setJobs x).queues = s.queues := rfl
@[simp] theorem State.atsOn_setJobs (x : List (Nat × Job)) : (s.setJobs x).atsOn = s.atsOn := rfl
@[simp] theorem State.atc_setJobs (x : List (Nat × Job)) : (s.setJobs x).atc = s.atc := rfl
@[simp] theorem State.lowPower_setJobs (x : List (Nat × Job)) : (s.setJobs x).lowPower = s.lowPower := rfl
@[simp] theorem State.flags_setJobs (x : List (Nat × Job)) : (s.setJobs x).flags = s.flags := rfl
@[simp] theorem State.out_setJobs (x : List (Nat × Job)) : (s.setJobs x).out = s.out := rfl
@[simp] theorem State.events_setJobs (x : List (Nat × Job)) : (s.setJobs x).events = s.events := rfl
@[simp] theorem State.bad_setJobs (x : List (Nat × Job)) : (s.setJobs x).bad = s.bad := rfl
@[simp] theorem State.poison_setJobs (x : List (Nat × Job)) : (s.setJobs x).poison = s.poison := rfl
@[simp] theorem State.cache_setJobs (x : List (Nat × Job)) : (s.setJobs x).cache = s.cache := rfl
@[simp] theorem State.watch_setJobs (x : List (Nat × Job)) : (s.setJobs x).watch = s.watch := rfl
@[simp] theorem State.flash_setJobs (x : List (Nat × Job)) : (s.setJobs x).flash = s.flash := rfl
@[simp] theorem State.flashDown_setJobs (x : List (Nat × Job)) : (s.setJobs x).flashDown = s.flashDown := rfl
@[simp] theorem State.ports_setJobs (x : List (Nat × Job)) : (s.setJobs x).ports = s.ports := rfl
@[simp] theorem State.inbox_setJobs (x : List (Nat × Job)) : (s.setJobs x).inbox = s.inbox := rfl
@[simp] theorem State.fellows_setJobs (x : List (Nat × Job)) : (s.setJobs x).fellows = s.fellows := rfl
@[simp] theorem State.pfc_setJobs (x : List (Nat × Job)) : (s.setJobs x).pfc = s.pfc := rfl
@[simp] theorem State.reqs_setJobs (x : List (Nat × Job)) : (s.setJobs x).reqs = s.reqs := rfl
@[simp] theorem State.serial_setJobs (x : List (Nat × Job)) : (s.setJobs x).serial = s.serial := rfl
@[simp] theorem State.tag_setJobs (x : List (Nat × Job)) : (s.setJobs x).tag = s.tag := rfl
@[simp] theorem State.chans_setJobs (x : List (Nat × Job)) : (s.setJobs x).chans = s.chans := rfl
@[simp] theorem State.feeds_setJobs (x : List (Nat × Job)) : (s.setJobs x).feeds = s.feeds := rfl
@[simp] theorem State.fences_setJobs (x : List (Nat × Job)) : (s.setJobs x).fences = s.fences := rfl
@[simp] theorem State.recoveries_setJobs (x : List (Nat × Job)) : (s.setJobs x).recoveries = s.recoveries := rfl
@[simp] theorem State.gviews_setJobs (x : List (Nat × Job)) : (s.setJobs x).gviews = s.gviews := rfl
@[simp] theorem State.reds_setJobs (x : List (Nat × Job)) : (s.setJobs x).reds = s.reds := rfl
@[simp] theorem State.redSeq_setJobs (x : List (Nat × Job)) : (s.setJobs x).redSeq = s.redSeq := rfl
@[simp] theorem State.redRings_setJobs (x : List (Nat × Job)) : (s.setJobs x).redRings = s.redRings := rfl
@[simp] theorem State.jobs_setJobs (x : List (Nat × Job)) : (s.setJobs x).jobs = x := rfl
@[simp] theorem State.traceBufs_setJobs (x : List (Nat × Job)) : (s.setJobs x).traceBufs = s.traceBufs := rfl
@[simp] theorem State.traceTurn_setJobs (x : List (Nat × Job)) : (s.setJobs x).traceTurn = s.traceTurn := rfl
@[simp] theorem State.dm_setJobs (x : List (Nat × Job)) : (s.setJobs x).dm = s.dm := rfl
@[simp] theorem State.posted_setJobs (x : List (Nat × Job)) : (s.setJobs x).posted = s.posted := rfl
@[simp] theorem State.referee_setJobs (x : List (Nat × Job)) : (s.setJobs x).referee = s.referee := rfl
@[simp] theorem State.power_setJobs (x : List (Nat × Job)) : (s.setJobs x).power = s.power := rfl
@[simp] theorem State.freeCount_setJobs (x : List (Nat × Job)) : (s.setJobs x).freeCount = s.freeCount := rfl
@[simp] theorem State.lines_setJobs (x : List (Nat × Job)) : (s.setJobs x).lines = s.lines := rfl
@[simp] theorem State.hartCsr_setJobs (x : List (Nat × Job)) : (s.setJobs x).hartCsr = s.hartCsr := rfl
@[simp] theorem State.msix_setJobs (x : List (Nat × Job)) : (s.setJobs x).msix = s.msix := rfl
@[simp] theorem State.msixCtl_setJobs (x : List (Nat × Job)) : (s.setJobs x).msixCtl = s.msixCtl := rfl
@[simp] theorem State.hartFull_setJobs (x : List (Nat × Job)) : (s.setJobs x).hartFull = s.hartFull := rfl
@[simp] theorem State.pending_setTraceBufs (x : List (Nat × TraceBuf)) : (s.setTraceBufs x).pending = s.pending := rfl
@[simp] theorem State.dtime_setTraceBufs (x : List (Nat × TraceBuf)) : (s.setTraceBufs x).dtime = s.dtime := rfl
@[simp] theorem State.regs_setTraceBufs (x : List (Nat × TraceBuf)) : (s.setTraceBufs x).regs = s.regs := rfl
@[simp] theorem State.mem_setTraceBufs (x : List (Nat × TraceBuf)) : (s.setTraceBufs x).mem = s.mem := rfl
@[simp] theorem State.hostMem_setTraceBufs (x : List (Nat × TraceBuf)) : (s.setTraceBufs x).hostMem = s.hostMem := rfl
@[simp] theorem State.book_setTraceBufs (x : List (Nat × TraceBuf)) : (s.setTraceBufs x).book = s.book := rfl
@[simp] theorem State.learned_setTraceBufs (x : List (Nat × TraceBuf)) : (s.setTraceBufs x).learned = s.learned := rfl
@[simp] theorem State.benched_setTraceBufs (x : List (Nat × TraceBuf)) : (s.setTraceBufs x).benched = s.benched := rfl
@[simp] theorem State.cores_setTraceBufs (x : List (Nat × TraceBuf)) : (s.setTraceBufs x).cores = s.cores := rfl
@[simp] theorem State.sync_setTraceBufs (x : List (Nat × TraceBuf)) : (s.setTraceBufs x).sync = s.sync := rfl
@[simp] theorem State.waitOrder_setTraceBufs (x : List (Nat × TraceBuf)) : (s.setTraceBufs x).waitOrder = s.waitOrder := rfl
@[simp] theorem State.signals_setTraceBufs (x : List (Nat × TraceBuf)) : (s.setTraceBufs x).signals = s.signals := rfl
@[simp] theorem State.dispatch_setTraceBufs (x : List (Nat × TraceBuf)) : (s.setTraceBufs x).dispatch = s.dispatch := rfl
@[simp] theorem State.segOrder_setTraceBufs (x : List (Nat × TraceBuf)) : (s.setTraceBufs x).segOrder = s.segOrder := rfl
@[simp] theorem State.streams_setTraceBufs (x : List (Nat × TraceBuf)) : (s.setTraceBufs x).streams = s.streams := rfl
@[simp] theorem State.rings_setTraceBufs (x : List (Nat × TraceBuf)) : (s.setTraceBufs x).rings = s.rings := rfl
@[simp] theorem State.heads_setTraceBufs (x : List (Nat × TraceBuf)) : (s.setTraceBufs x).heads = s.heads := rfl
@[simp] theorem State.haltAt_setTraceBufs (x : List (Nat × TraceBuf)) : (s.setTraceBufs x).haltAt = s.haltAt := rfl
@[simp] theorem State.heldHeads_setTraceBufs (x : List (Nat × TraceBuf)) : (s.setTraceBufs x).heldHeads = s.heldHeads := rfl
@[simp] theorem State.queues_setTraceBufs (x : List (Nat × TraceBuf)) : (s.setTraceBufs x).queues = s.queues := rfl
@[simp] theorem State.atsOn_setTraceBufs (x : List (Nat × TraceBuf)) : (s.setTraceBufs x).atsOn = s.atsOn := rfl
@[simp] theorem State.atc_setTraceBufs (x : List (Nat × TraceBuf)) : (s.setTraceBufs x).atc = s.atc := rfl
@[simp] theorem State.lowPower_setTraceBufs (x : List (Nat × TraceBuf)) : (s.setTraceBufs x).lowPower = s.lowPower := rfl
@[simp] theorem State.flags_setTraceBufs (x : List (Nat × TraceBuf)) : (s.setTraceBufs x).flags = s.flags := rfl
@[simp] theorem State.out_setTraceBufs (x : List (Nat × TraceBuf)) : (s.setTraceBufs x).out = s.out := rfl
@[simp] theorem State.events_setTraceBufs (x : List (Nat × TraceBuf)) : (s.setTraceBufs x).events = s.events := rfl
@[simp] theorem State.bad_setTraceBufs (x : List (Nat × TraceBuf)) : (s.setTraceBufs x).bad = s.bad := rfl
@[simp] theorem State.poison_setTraceBufs (x : List (Nat × TraceBuf)) : (s.setTraceBufs x).poison = s.poison := rfl
@[simp] theorem State.cache_setTraceBufs (x : List (Nat × TraceBuf)) : (s.setTraceBufs x).cache = s.cache := rfl
@[simp] theorem State.watch_setTraceBufs (x : List (Nat × TraceBuf)) : (s.setTraceBufs x).watch = s.watch := rfl
@[simp] theorem State.flash_setTraceBufs (x : List (Nat × TraceBuf)) : (s.setTraceBufs x).flash = s.flash := rfl
@[simp] theorem State.flashDown_setTraceBufs (x : List (Nat × TraceBuf)) : (s.setTraceBufs x).flashDown = s.flashDown := rfl
@[simp] theorem State.ports_setTraceBufs (x : List (Nat × TraceBuf)) : (s.setTraceBufs x).ports = s.ports := rfl
@[simp] theorem State.inbox_setTraceBufs (x : List (Nat × TraceBuf)) : (s.setTraceBufs x).inbox = s.inbox := rfl
@[simp] theorem State.fellows_setTraceBufs (x : List (Nat × TraceBuf)) : (s.setTraceBufs x).fellows = s.fellows := rfl
@[simp] theorem State.pfc_setTraceBufs (x : List (Nat × TraceBuf)) : (s.setTraceBufs x).pfc = s.pfc := rfl
@[simp] theorem State.reqs_setTraceBufs (x : List (Nat × TraceBuf)) : (s.setTraceBufs x).reqs = s.reqs := rfl
@[simp] theorem State.serial_setTraceBufs (x : List (Nat × TraceBuf)) : (s.setTraceBufs x).serial = s.serial := rfl
@[simp] theorem State.tag_setTraceBufs (x : List (Nat × TraceBuf)) : (s.setTraceBufs x).tag = s.tag := rfl
@[simp] theorem State.chans_setTraceBufs (x : List (Nat × TraceBuf)) : (s.setTraceBufs x).chans = s.chans := rfl
@[simp] theorem State.feeds_setTraceBufs (x : List (Nat × TraceBuf)) : (s.setTraceBufs x).feeds = s.feeds := rfl
@[simp] theorem State.fences_setTraceBufs (x : List (Nat × TraceBuf)) : (s.setTraceBufs x).fences = s.fences := rfl
@[simp] theorem State.recoveries_setTraceBufs (x : List (Nat × TraceBuf)) : (s.setTraceBufs x).recoveries = s.recoveries := rfl
@[simp] theorem State.gviews_setTraceBufs (x : List (Nat × TraceBuf)) : (s.setTraceBufs x).gviews = s.gviews := rfl
@[simp] theorem State.reds_setTraceBufs (x : List (Nat × TraceBuf)) : (s.setTraceBufs x).reds = s.reds := rfl
@[simp] theorem State.redSeq_setTraceBufs (x : List (Nat × TraceBuf)) : (s.setTraceBufs x).redSeq = s.redSeq := rfl
@[simp] theorem State.redRings_setTraceBufs (x : List (Nat × TraceBuf)) : (s.setTraceBufs x).redRings = s.redRings := rfl
@[simp] theorem State.jobs_setTraceBufs (x : List (Nat × TraceBuf)) : (s.setTraceBufs x).jobs = s.jobs := rfl
@[simp] theorem State.traceBufs_setTraceBufs (x : List (Nat × TraceBuf)) : (s.setTraceBufs x).traceBufs = x := rfl
@[simp] theorem State.traceTurn_setTraceBufs (x : List (Nat × TraceBuf)) : (s.setTraceBufs x).traceTurn = s.traceTurn := rfl
@[simp] theorem State.dm_setTraceBufs (x : List (Nat × TraceBuf)) : (s.setTraceBufs x).dm = s.dm := rfl
@[simp] theorem State.posted_setTraceBufs (x : List (Nat × TraceBuf)) : (s.setTraceBufs x).posted = s.posted := rfl
@[simp] theorem State.referee_setTraceBufs (x : List (Nat × TraceBuf)) : (s.setTraceBufs x).referee = s.referee := rfl
@[simp] theorem State.power_setTraceBufs (x : List (Nat × TraceBuf)) : (s.setTraceBufs x).power = s.power := rfl
@[simp] theorem State.freeCount_setTraceBufs (x : List (Nat × TraceBuf)) : (s.setTraceBufs x).freeCount = s.freeCount := rfl
@[simp] theorem State.lines_setTraceBufs (x : List (Nat × TraceBuf)) : (s.setTraceBufs x).lines = s.lines := rfl
@[simp] theorem State.hartCsr_setTraceBufs (x : List (Nat × TraceBuf)) : (s.setTraceBufs x).hartCsr = s.hartCsr := rfl
@[simp] theorem State.msix_setTraceBufs (x : List (Nat × TraceBuf)) : (s.setTraceBufs x).msix = s.msix := rfl
@[simp] theorem State.msixCtl_setTraceBufs (x : List (Nat × TraceBuf)) : (s.setTraceBufs x).msixCtl = s.msixCtl := rfl
@[simp] theorem State.hartFull_setTraceBufs (x : List (Nat × TraceBuf)) : (s.setTraceBufs x).hartFull = s.hartFull := rfl
@[simp] theorem State.pending_setTraceTurn (x : List (Nat × Nat)) : (s.setTraceTurn x).pending = s.pending := rfl
@[simp] theorem State.dtime_setTraceTurn (x : List (Nat × Nat)) : (s.setTraceTurn x).dtime = s.dtime := rfl
@[simp] theorem State.regs_setTraceTurn (x : List (Nat × Nat)) : (s.setTraceTurn x).regs = s.regs := rfl
@[simp] theorem State.mem_setTraceTurn (x : List (Nat × Nat)) : (s.setTraceTurn x).mem = s.mem := rfl
@[simp] theorem State.hostMem_setTraceTurn (x : List (Nat × Nat)) : (s.setTraceTurn x).hostMem = s.hostMem := rfl
@[simp] theorem State.book_setTraceTurn (x : List (Nat × Nat)) : (s.setTraceTurn x).book = s.book := rfl
@[simp] theorem State.learned_setTraceTurn (x : List (Nat × Nat)) : (s.setTraceTurn x).learned = s.learned := rfl
@[simp] theorem State.benched_setTraceTurn (x : List (Nat × Nat)) : (s.setTraceTurn x).benched = s.benched := rfl
@[simp] theorem State.cores_setTraceTurn (x : List (Nat × Nat)) : (s.setTraceTurn x).cores = s.cores := rfl
@[simp] theorem State.sync_setTraceTurn (x : List (Nat × Nat)) : (s.setTraceTurn x).sync = s.sync := rfl
@[simp] theorem State.waitOrder_setTraceTurn (x : List (Nat × Nat)) : (s.setTraceTurn x).waitOrder = s.waitOrder := rfl
@[simp] theorem State.signals_setTraceTurn (x : List (Nat × Nat)) : (s.setTraceTurn x).signals = s.signals := rfl
@[simp] theorem State.dispatch_setTraceTurn (x : List (Nat × Nat)) : (s.setTraceTurn x).dispatch = s.dispatch := rfl
@[simp] theorem State.segOrder_setTraceTurn (x : List (Nat × Nat)) : (s.setTraceTurn x).segOrder = s.segOrder := rfl
@[simp] theorem State.streams_setTraceTurn (x : List (Nat × Nat)) : (s.setTraceTurn x).streams = s.streams := rfl
@[simp] theorem State.rings_setTraceTurn (x : List (Nat × Nat)) : (s.setTraceTurn x).rings = s.rings := rfl
@[simp] theorem State.heads_setTraceTurn (x : List (Nat × Nat)) : (s.setTraceTurn x).heads = s.heads := rfl
@[simp] theorem State.haltAt_setTraceTurn (x : List (Nat × Nat)) : (s.setTraceTurn x).haltAt = s.haltAt := rfl
@[simp] theorem State.heldHeads_setTraceTurn (x : List (Nat × Nat)) : (s.setTraceTurn x).heldHeads = s.heldHeads := rfl
@[simp] theorem State.queues_setTraceTurn (x : List (Nat × Nat)) : (s.setTraceTurn x).queues = s.queues := rfl
@[simp] theorem State.atsOn_setTraceTurn (x : List (Nat × Nat)) : (s.setTraceTurn x).atsOn = s.atsOn := rfl
@[simp] theorem State.atc_setTraceTurn (x : List (Nat × Nat)) : (s.setTraceTurn x).atc = s.atc := rfl
@[simp] theorem State.lowPower_setTraceTurn (x : List (Nat × Nat)) : (s.setTraceTurn x).lowPower = s.lowPower := rfl
@[simp] theorem State.flags_setTraceTurn (x : List (Nat × Nat)) : (s.setTraceTurn x).flags = s.flags := rfl
@[simp] theorem State.out_setTraceTurn (x : List (Nat × Nat)) : (s.setTraceTurn x).out = s.out := rfl
@[simp] theorem State.events_setTraceTurn (x : List (Nat × Nat)) : (s.setTraceTurn x).events = s.events := rfl
@[simp] theorem State.bad_setTraceTurn (x : List (Nat × Nat)) : (s.setTraceTurn x).bad = s.bad := rfl
@[simp] theorem State.poison_setTraceTurn (x : List (Nat × Nat)) : (s.setTraceTurn x).poison = s.poison := rfl
@[simp] theorem State.cache_setTraceTurn (x : List (Nat × Nat)) : (s.setTraceTurn x).cache = s.cache := rfl
@[simp] theorem State.watch_setTraceTurn (x : List (Nat × Nat)) : (s.setTraceTurn x).watch = s.watch := rfl
@[simp] theorem State.flash_setTraceTurn (x : List (Nat × Nat)) : (s.setTraceTurn x).flash = s.flash := rfl
@[simp] theorem State.flashDown_setTraceTurn (x : List (Nat × Nat)) : (s.setTraceTurn x).flashDown = s.flashDown := rfl
@[simp] theorem State.ports_setTraceTurn (x : List (Nat × Nat)) : (s.setTraceTurn x).ports = s.ports := rfl
@[simp] theorem State.inbox_setTraceTurn (x : List (Nat × Nat)) : (s.setTraceTurn x).inbox = s.inbox := rfl
@[simp] theorem State.fellows_setTraceTurn (x : List (Nat × Nat)) : (s.setTraceTurn x).fellows = s.fellows := rfl
@[simp] theorem State.pfc_setTraceTurn (x : List (Nat × Nat)) : (s.setTraceTurn x).pfc = s.pfc := rfl
@[simp] theorem State.reqs_setTraceTurn (x : List (Nat × Nat)) : (s.setTraceTurn x).reqs = s.reqs := rfl
@[simp] theorem State.serial_setTraceTurn (x : List (Nat × Nat)) : (s.setTraceTurn x).serial = s.serial := rfl
@[simp] theorem State.tag_setTraceTurn (x : List (Nat × Nat)) : (s.setTraceTurn x).tag = s.tag := rfl
@[simp] theorem State.chans_setTraceTurn (x : List (Nat × Nat)) : (s.setTraceTurn x).chans = s.chans := rfl
@[simp] theorem State.feeds_setTraceTurn (x : List (Nat × Nat)) : (s.setTraceTurn x).feeds = s.feeds := rfl
@[simp] theorem State.fences_setTraceTurn (x : List (Nat × Nat)) : (s.setTraceTurn x).fences = s.fences := rfl
@[simp] theorem State.recoveries_setTraceTurn (x : List (Nat × Nat)) : (s.setTraceTurn x).recoveries = s.recoveries := rfl
@[simp] theorem State.gviews_setTraceTurn (x : List (Nat × Nat)) : (s.setTraceTurn x).gviews = s.gviews := rfl
@[simp] theorem State.reds_setTraceTurn (x : List (Nat × Nat)) : (s.setTraceTurn x).reds = s.reds := rfl
@[simp] theorem State.redSeq_setTraceTurn (x : List (Nat × Nat)) : (s.setTraceTurn x).redSeq = s.redSeq := rfl
@[simp] theorem State.redRings_setTraceTurn (x : List (Nat × Nat)) : (s.setTraceTurn x).redRings = s.redRings := rfl
@[simp] theorem State.jobs_setTraceTurn (x : List (Nat × Nat)) : (s.setTraceTurn x).jobs = s.jobs := rfl
@[simp] theorem State.traceBufs_setTraceTurn (x : List (Nat × Nat)) : (s.setTraceTurn x).traceBufs = s.traceBufs := rfl
@[simp] theorem State.traceTurn_setTraceTurn (x : List (Nat × Nat)) : (s.setTraceTurn x).traceTurn = x := rfl
@[simp] theorem State.dm_setTraceTurn (x : List (Nat × Nat)) : (s.setTraceTurn x).dm = s.dm := rfl
@[simp] theorem State.posted_setTraceTurn (x : List (Nat × Nat)) : (s.setTraceTurn x).posted = s.posted := rfl
@[simp] theorem State.referee_setTraceTurn (x : List (Nat × Nat)) : (s.setTraceTurn x).referee = s.referee := rfl
@[simp] theorem State.power_setTraceTurn (x : List (Nat × Nat)) : (s.setTraceTurn x).power = s.power := rfl
@[simp] theorem State.freeCount_setTraceTurn (x : List (Nat × Nat)) : (s.setTraceTurn x).freeCount = s.freeCount := rfl
@[simp] theorem State.lines_setTraceTurn (x : List (Nat × Nat)) : (s.setTraceTurn x).lines = s.lines := rfl
@[simp] theorem State.hartCsr_setTraceTurn (x : List (Nat × Nat)) : (s.setTraceTurn x).hartCsr = s.hartCsr := rfl
@[simp] theorem State.msix_setTraceTurn (x : List (Nat × Nat)) : (s.setTraceTurn x).msix = s.msix := rfl
@[simp] theorem State.msixCtl_setTraceTurn (x : List (Nat × Nat)) : (s.setTraceTurn x).msixCtl = s.msixCtl := rfl
@[simp] theorem State.hartFull_setTraceTurn (x : List (Nat × Nat)) : (s.setTraceTurn x).hartFull = s.hartFull := rfl
@[simp] theorem State.pending_setDm (x : DebugModule) : (s.setDm x).pending = s.pending := rfl
@[simp] theorem State.dtime_setDm (x : DebugModule) : (s.setDm x).dtime = s.dtime := rfl
@[simp] theorem State.regs_setDm (x : DebugModule) : (s.setDm x).regs = s.regs := rfl
@[simp] theorem State.mem_setDm (x : DebugModule) : (s.setDm x).mem = s.mem := rfl
@[simp] theorem State.hostMem_setDm (x : DebugModule) : (s.setDm x).hostMem = s.hostMem := rfl
@[simp] theorem State.book_setDm (x : DebugModule) : (s.setDm x).book = s.book := rfl
@[simp] theorem State.learned_setDm (x : DebugModule) : (s.setDm x).learned = s.learned := rfl
@[simp] theorem State.benched_setDm (x : DebugModule) : (s.setDm x).benched = s.benched := rfl
@[simp] theorem State.cores_setDm (x : DebugModule) : (s.setDm x).cores = s.cores := rfl
@[simp] theorem State.sync_setDm (x : DebugModule) : (s.setDm x).sync = s.sync := rfl
@[simp] theorem State.waitOrder_setDm (x : DebugModule) : (s.setDm x).waitOrder = s.waitOrder := rfl
@[simp] theorem State.signals_setDm (x : DebugModule) : (s.setDm x).signals = s.signals := rfl
@[simp] theorem State.dispatch_setDm (x : DebugModule) : (s.setDm x).dispatch = s.dispatch := rfl
@[simp] theorem State.segOrder_setDm (x : DebugModule) : (s.setDm x).segOrder = s.segOrder := rfl
@[simp] theorem State.streams_setDm (x : DebugModule) : (s.setDm x).streams = s.streams := rfl
@[simp] theorem State.rings_setDm (x : DebugModule) : (s.setDm x).rings = s.rings := rfl
@[simp] theorem State.heads_setDm (x : DebugModule) : (s.setDm x).heads = s.heads := rfl
@[simp] theorem State.haltAt_setDm (x : DebugModule) : (s.setDm x).haltAt = s.haltAt := rfl
@[simp] theorem State.heldHeads_setDm (x : DebugModule) : (s.setDm x).heldHeads = s.heldHeads := rfl
@[simp] theorem State.queues_setDm (x : DebugModule) : (s.setDm x).queues = s.queues := rfl
@[simp] theorem State.atsOn_setDm (x : DebugModule) : (s.setDm x).atsOn = s.atsOn := rfl
@[simp] theorem State.atc_setDm (x : DebugModule) : (s.setDm x).atc = s.atc := rfl
@[simp] theorem State.lowPower_setDm (x : DebugModule) : (s.setDm x).lowPower = s.lowPower := rfl
@[simp] theorem State.flags_setDm (x : DebugModule) : (s.setDm x).flags = s.flags := rfl
@[simp] theorem State.out_setDm (x : DebugModule) : (s.setDm x).out = s.out := rfl
@[simp] theorem State.events_setDm (x : DebugModule) : (s.setDm x).events = s.events := rfl
@[simp] theorem State.bad_setDm (x : DebugModule) : (s.setDm x).bad = s.bad := rfl
@[simp] theorem State.poison_setDm (x : DebugModule) : (s.setDm x).poison = s.poison := rfl
@[simp] theorem State.cache_setDm (x : DebugModule) : (s.setDm x).cache = s.cache := rfl
@[simp] theorem State.watch_setDm (x : DebugModule) : (s.setDm x).watch = s.watch := rfl
@[simp] theorem State.flash_setDm (x : DebugModule) : (s.setDm x).flash = s.flash := rfl
@[simp] theorem State.flashDown_setDm (x : DebugModule) : (s.setDm x).flashDown = s.flashDown := rfl
@[simp] theorem State.ports_setDm (x : DebugModule) : (s.setDm x).ports = s.ports := rfl
@[simp] theorem State.inbox_setDm (x : DebugModule) : (s.setDm x).inbox = s.inbox := rfl
@[simp] theorem State.fellows_setDm (x : DebugModule) : (s.setDm x).fellows = s.fellows := rfl
@[simp] theorem State.pfc_setDm (x : DebugModule) : (s.setDm x).pfc = s.pfc := rfl
@[simp] theorem State.reqs_setDm (x : DebugModule) : (s.setDm x).reqs = s.reqs := rfl
@[simp] theorem State.serial_setDm (x : DebugModule) : (s.setDm x).serial = s.serial := rfl
@[simp] theorem State.tag_setDm (x : DebugModule) : (s.setDm x).tag = s.tag := rfl
@[simp] theorem State.chans_setDm (x : DebugModule) : (s.setDm x).chans = s.chans := rfl
@[simp] theorem State.feeds_setDm (x : DebugModule) : (s.setDm x).feeds = s.feeds := rfl
@[simp] theorem State.fences_setDm (x : DebugModule) : (s.setDm x).fences = s.fences := rfl
@[simp] theorem State.recoveries_setDm (x : DebugModule) : (s.setDm x).recoveries = s.recoveries := rfl
@[simp] theorem State.gviews_setDm (x : DebugModule) : (s.setDm x).gviews = s.gviews := rfl
@[simp] theorem State.reds_setDm (x : DebugModule) : (s.setDm x).reds = s.reds := rfl
@[simp] theorem State.redSeq_setDm (x : DebugModule) : (s.setDm x).redSeq = s.redSeq := rfl
@[simp] theorem State.redRings_setDm (x : DebugModule) : (s.setDm x).redRings = s.redRings := rfl
@[simp] theorem State.jobs_setDm (x : DebugModule) : (s.setDm x).jobs = s.jobs := rfl
@[simp] theorem State.traceBufs_setDm (x : DebugModule) : (s.setDm x).traceBufs = s.traceBufs := rfl
@[simp] theorem State.traceTurn_setDm (x : DebugModule) : (s.setDm x).traceTurn = s.traceTurn := rfl
@[simp] theorem State.dm_setDm (x : DebugModule) : (s.setDm x).dm = x := rfl
@[simp] theorem State.posted_setDm (x : DebugModule) : (s.setDm x).posted = s.posted := rfl
@[simp] theorem State.referee_setDm (x : DebugModule) : (s.setDm x).referee = s.referee := rfl
@[simp] theorem State.power_setDm (x : DebugModule) : (s.setDm x).power = s.power := rfl
@[simp] theorem State.freeCount_setDm (x : DebugModule) : (s.setDm x).freeCount = s.freeCount := rfl
@[simp] theorem State.lines_setDm (x : DebugModule) : (s.setDm x).lines = s.lines := rfl
@[simp] theorem State.hartCsr_setDm (x : DebugModule) : (s.setDm x).hartCsr = s.hartCsr := rfl
@[simp] theorem State.msix_setDm (x : DebugModule) : (s.setDm x).msix = s.msix := rfl
@[simp] theorem State.msixCtl_setDm (x : DebugModule) : (s.setDm x).msixCtl = s.msixCtl := rfl
@[simp] theorem State.hartFull_setDm (x : DebugModule) : (s.setDm x).hartFull = s.hartFull := rfl
@[simp] theorem State.pending_setPosted (x : List Posted) : (s.setPosted x).pending = s.pending := rfl
@[simp] theorem State.dtime_setPosted (x : List Posted) : (s.setPosted x).dtime = s.dtime := rfl
@[simp] theorem State.regs_setPosted (x : List Posted) : (s.setPosted x).regs = s.regs := rfl
@[simp] theorem State.mem_setPosted (x : List Posted) : (s.setPosted x).mem = s.mem := rfl
@[simp] theorem State.hostMem_setPosted (x : List Posted) : (s.setPosted x).hostMem = s.hostMem := rfl
@[simp] theorem State.book_setPosted (x : List Posted) : (s.setPosted x).book = s.book := rfl
@[simp] theorem State.learned_setPosted (x : List Posted) : (s.setPosted x).learned = s.learned := rfl
@[simp] theorem State.benched_setPosted (x : List Posted) : (s.setPosted x).benched = s.benched := rfl
@[simp] theorem State.cores_setPosted (x : List Posted) : (s.setPosted x).cores = s.cores := rfl
@[simp] theorem State.sync_setPosted (x : List Posted) : (s.setPosted x).sync = s.sync := rfl
@[simp] theorem State.waitOrder_setPosted (x : List Posted) : (s.setPosted x).waitOrder = s.waitOrder := rfl
@[simp] theorem State.signals_setPosted (x : List Posted) : (s.setPosted x).signals = s.signals := rfl
@[simp] theorem State.dispatch_setPosted (x : List Posted) : (s.setPosted x).dispatch = s.dispatch := rfl
@[simp] theorem State.segOrder_setPosted (x : List Posted) : (s.setPosted x).segOrder = s.segOrder := rfl
@[simp] theorem State.streams_setPosted (x : List Posted) : (s.setPosted x).streams = s.streams := rfl
@[simp] theorem State.rings_setPosted (x : List Posted) : (s.setPosted x).rings = s.rings := rfl
@[simp] theorem State.heads_setPosted (x : List Posted) : (s.setPosted x).heads = s.heads := rfl
@[simp] theorem State.haltAt_setPosted (x : List Posted) : (s.setPosted x).haltAt = s.haltAt := rfl
@[simp] theorem State.heldHeads_setPosted (x : List Posted) : (s.setPosted x).heldHeads = s.heldHeads := rfl
@[simp] theorem State.queues_setPosted (x : List Posted) : (s.setPosted x).queues = s.queues := rfl
@[simp] theorem State.atsOn_setPosted (x : List Posted) : (s.setPosted x).atsOn = s.atsOn := rfl
@[simp] theorem State.atc_setPosted (x : List Posted) : (s.setPosted x).atc = s.atc := rfl
@[simp] theorem State.lowPower_setPosted (x : List Posted) : (s.setPosted x).lowPower = s.lowPower := rfl
@[simp] theorem State.flags_setPosted (x : List Posted) : (s.setPosted x).flags = s.flags := rfl
@[simp] theorem State.out_setPosted (x : List Posted) : (s.setPosted x).out = s.out := rfl
@[simp] theorem State.events_setPosted (x : List Posted) : (s.setPosted x).events = s.events := rfl
@[simp] theorem State.bad_setPosted (x : List Posted) : (s.setPosted x).bad = s.bad := rfl
@[simp] theorem State.poison_setPosted (x : List Posted) : (s.setPosted x).poison = s.poison := rfl
@[simp] theorem State.cache_setPosted (x : List Posted) : (s.setPosted x).cache = s.cache := rfl
@[simp] theorem State.watch_setPosted (x : List Posted) : (s.setPosted x).watch = s.watch := rfl
@[simp] theorem State.flash_setPosted (x : List Posted) : (s.setPosted x).flash = s.flash := rfl
@[simp] theorem State.flashDown_setPosted (x : List Posted) : (s.setPosted x).flashDown = s.flashDown := rfl
@[simp] theorem State.ports_setPosted (x : List Posted) : (s.setPosted x).ports = s.ports := rfl
@[simp] theorem State.inbox_setPosted (x : List Posted) : (s.setPosted x).inbox = s.inbox := rfl
@[simp] theorem State.fellows_setPosted (x : List Posted) : (s.setPosted x).fellows = s.fellows := rfl
@[simp] theorem State.pfc_setPosted (x : List Posted) : (s.setPosted x).pfc = s.pfc := rfl
@[simp] theorem State.reqs_setPosted (x : List Posted) : (s.setPosted x).reqs = s.reqs := rfl
@[simp] theorem State.serial_setPosted (x : List Posted) : (s.setPosted x).serial = s.serial := rfl
@[simp] theorem State.tag_setPosted (x : List Posted) : (s.setPosted x).tag = s.tag := rfl
@[simp] theorem State.chans_setPosted (x : List Posted) : (s.setPosted x).chans = s.chans := rfl
@[simp] theorem State.feeds_setPosted (x : List Posted) : (s.setPosted x).feeds = s.feeds := rfl
@[simp] theorem State.fences_setPosted (x : List Posted) : (s.setPosted x).fences = s.fences := rfl
@[simp] theorem State.recoveries_setPosted (x : List Posted) : (s.setPosted x).recoveries = s.recoveries := rfl
@[simp] theorem State.gviews_setPosted (x : List Posted) : (s.setPosted x).gviews = s.gviews := rfl
@[simp] theorem State.reds_setPosted (x : List Posted) : (s.setPosted x).reds = s.reds := rfl
@[simp] theorem State.redSeq_setPosted (x : List Posted) : (s.setPosted x).redSeq = s.redSeq := rfl
@[simp] theorem State.redRings_setPosted (x : List Posted) : (s.setPosted x).redRings = s.redRings := rfl
@[simp] theorem State.jobs_setPosted (x : List Posted) : (s.setPosted x).jobs = s.jobs := rfl
@[simp] theorem State.traceBufs_setPosted (x : List Posted) : (s.setPosted x).traceBufs = s.traceBufs := rfl
@[simp] theorem State.traceTurn_setPosted (x : List Posted) : (s.setPosted x).traceTurn = s.traceTurn := rfl
@[simp] theorem State.dm_setPosted (x : List Posted) : (s.setPosted x).dm = s.dm := rfl
@[simp] theorem State.posted_setPosted (x : List Posted) : (s.setPosted x).posted = x := rfl
@[simp] theorem State.referee_setPosted (x : List Posted) : (s.setPosted x).referee = s.referee := rfl
@[simp] theorem State.power_setPosted (x : List Posted) : (s.setPosted x).power = s.power := rfl
@[simp] theorem State.freeCount_setPosted (x : List Posted) : (s.setPosted x).freeCount = s.freeCount := rfl
@[simp] theorem State.lines_setPosted (x : List Posted) : (s.setPosted x).lines = s.lines := rfl
@[simp] theorem State.hartCsr_setPosted (x : List Posted) : (s.setPosted x).hartCsr = s.hartCsr := rfl
@[simp] theorem State.msix_setPosted (x : List Posted) : (s.setPosted x).msix = s.msix := rfl
@[simp] theorem State.msixCtl_setPosted (x : List Posted) : (s.setPosted x).msixCtl = s.msixCtl := rfl
@[simp] theorem State.hartFull_setPosted (x : List Posted) : (s.setPosted x).hartFull = s.hartFull := rfl
@[simp] theorem State.pending_setReferee (x : Referee) : (s.setReferee x).pending = s.pending := rfl
@[simp] theorem State.dtime_setReferee (x : Referee) : (s.setReferee x).dtime = s.dtime := rfl
@[simp] theorem State.regs_setReferee (x : Referee) : (s.setReferee x).regs = s.regs := rfl
@[simp] theorem State.mem_setReferee (x : Referee) : (s.setReferee x).mem = s.mem := rfl
@[simp] theorem State.hostMem_setReferee (x : Referee) : (s.setReferee x).hostMem = s.hostMem := rfl
@[simp] theorem State.book_setReferee (x : Referee) : (s.setReferee x).book = s.book := rfl
@[simp] theorem State.learned_setReferee (x : Referee) : (s.setReferee x).learned = s.learned := rfl
@[simp] theorem State.benched_setReferee (x : Referee) : (s.setReferee x).benched = s.benched := rfl
@[simp] theorem State.cores_setReferee (x : Referee) : (s.setReferee x).cores = s.cores := rfl
@[simp] theorem State.sync_setReferee (x : Referee) : (s.setReferee x).sync = s.sync := rfl
@[simp] theorem State.waitOrder_setReferee (x : Referee) : (s.setReferee x).waitOrder = s.waitOrder := rfl
@[simp] theorem State.signals_setReferee (x : Referee) : (s.setReferee x).signals = s.signals := rfl
@[simp] theorem State.dispatch_setReferee (x : Referee) : (s.setReferee x).dispatch = s.dispatch := rfl
@[simp] theorem State.segOrder_setReferee (x : Referee) : (s.setReferee x).segOrder = s.segOrder := rfl
@[simp] theorem State.streams_setReferee (x : Referee) : (s.setReferee x).streams = s.streams := rfl
@[simp] theorem State.rings_setReferee (x : Referee) : (s.setReferee x).rings = s.rings := rfl
@[simp] theorem State.heads_setReferee (x : Referee) : (s.setReferee x).heads = s.heads := rfl
@[simp] theorem State.haltAt_setReferee (x : Referee) : (s.setReferee x).haltAt = s.haltAt := rfl
@[simp] theorem State.heldHeads_setReferee (x : Referee) : (s.setReferee x).heldHeads = s.heldHeads := rfl
@[simp] theorem State.queues_setReferee (x : Referee) : (s.setReferee x).queues = s.queues := rfl
@[simp] theorem State.atsOn_setReferee (x : Referee) : (s.setReferee x).atsOn = s.atsOn := rfl
@[simp] theorem State.atc_setReferee (x : Referee) : (s.setReferee x).atc = s.atc := rfl
@[simp] theorem State.lowPower_setReferee (x : Referee) : (s.setReferee x).lowPower = s.lowPower := rfl
@[simp] theorem State.flags_setReferee (x : Referee) : (s.setReferee x).flags = s.flags := rfl
@[simp] theorem State.out_setReferee (x : Referee) : (s.setReferee x).out = s.out := rfl
@[simp] theorem State.events_setReferee (x : Referee) : (s.setReferee x).events = s.events := rfl
@[simp] theorem State.bad_setReferee (x : Referee) : (s.setReferee x).bad = s.bad := rfl
@[simp] theorem State.poison_setReferee (x : Referee) : (s.setReferee x).poison = s.poison := rfl
@[simp] theorem State.cache_setReferee (x : Referee) : (s.setReferee x).cache = s.cache := rfl
@[simp] theorem State.watch_setReferee (x : Referee) : (s.setReferee x).watch = s.watch := rfl
@[simp] theorem State.flash_setReferee (x : Referee) : (s.setReferee x).flash = s.flash := rfl
@[simp] theorem State.flashDown_setReferee (x : Referee) : (s.setReferee x).flashDown = s.flashDown := rfl
@[simp] theorem State.ports_setReferee (x : Referee) : (s.setReferee x).ports = s.ports := rfl
@[simp] theorem State.inbox_setReferee (x : Referee) : (s.setReferee x).inbox = s.inbox := rfl
@[simp] theorem State.fellows_setReferee (x : Referee) : (s.setReferee x).fellows = s.fellows := rfl
@[simp] theorem State.pfc_setReferee (x : Referee) : (s.setReferee x).pfc = s.pfc := rfl
@[simp] theorem State.reqs_setReferee (x : Referee) : (s.setReferee x).reqs = s.reqs := rfl
@[simp] theorem State.serial_setReferee (x : Referee) : (s.setReferee x).serial = s.serial := rfl
@[simp] theorem State.tag_setReferee (x : Referee) : (s.setReferee x).tag = s.tag := rfl
@[simp] theorem State.chans_setReferee (x : Referee) : (s.setReferee x).chans = s.chans := rfl
@[simp] theorem State.feeds_setReferee (x : Referee) : (s.setReferee x).feeds = s.feeds := rfl
@[simp] theorem State.fences_setReferee (x : Referee) : (s.setReferee x).fences = s.fences := rfl
@[simp] theorem State.recoveries_setReferee (x : Referee) : (s.setReferee x).recoveries = s.recoveries := rfl
@[simp] theorem State.gviews_setReferee (x : Referee) : (s.setReferee x).gviews = s.gviews := rfl
@[simp] theorem State.reds_setReferee (x : Referee) : (s.setReferee x).reds = s.reds := rfl
@[simp] theorem State.redSeq_setReferee (x : Referee) : (s.setReferee x).redSeq = s.redSeq := rfl
@[simp] theorem State.redRings_setReferee (x : Referee) : (s.setReferee x).redRings = s.redRings := rfl
@[simp] theorem State.jobs_setReferee (x : Referee) : (s.setReferee x).jobs = s.jobs := rfl
@[simp] theorem State.traceBufs_setReferee (x : Referee) : (s.setReferee x).traceBufs = s.traceBufs := rfl
@[simp] theorem State.traceTurn_setReferee (x : Referee) : (s.setReferee x).traceTurn = s.traceTurn := rfl
@[simp] theorem State.dm_setReferee (x : Referee) : (s.setReferee x).dm = s.dm := rfl
@[simp] theorem State.posted_setReferee (x : Referee) : (s.setReferee x).posted = s.posted := rfl
@[simp] theorem State.referee_setReferee (x : Referee) : (s.setReferee x).referee = x := rfl
@[simp] theorem State.power_setReferee (x : Referee) : (s.setReferee x).power = s.power := rfl
@[simp] theorem State.freeCount_setReferee (x : Referee) : (s.setReferee x).freeCount = s.freeCount := rfl
@[simp] theorem State.lines_setReferee (x : Referee) : (s.setReferee x).lines = s.lines := rfl
@[simp] theorem State.hartCsr_setReferee (x : Referee) : (s.setReferee x).hartCsr = s.hartCsr := rfl
@[simp] theorem State.msix_setReferee (x : Referee) : (s.setReferee x).msix = s.msix := rfl
@[simp] theorem State.msixCtl_setReferee (x : Referee) : (s.setReferee x).msixCtl = s.msixCtl := rfl
@[simp] theorem State.hartFull_setReferee (x : Referee) : (s.setReferee x).hartFull = s.hartFull := rfl
@[simp] theorem State.pending_setPower (x : Power) : (s.setPower x).pending = s.pending := rfl
@[simp] theorem State.dtime_setPower (x : Power) : (s.setPower x).dtime = s.dtime := rfl
@[simp] theorem State.regs_setPower (x : Power) : (s.setPower x).regs = s.regs := rfl
@[simp] theorem State.mem_setPower (x : Power) : (s.setPower x).mem = s.mem := rfl
@[simp] theorem State.hostMem_setPower (x : Power) : (s.setPower x).hostMem = s.hostMem := rfl
@[simp] theorem State.book_setPower (x : Power) : (s.setPower x).book = s.book := rfl
@[simp] theorem State.learned_setPower (x : Power) : (s.setPower x).learned = s.learned := rfl
@[simp] theorem State.benched_setPower (x : Power) : (s.setPower x).benched = s.benched := rfl
@[simp] theorem State.cores_setPower (x : Power) : (s.setPower x).cores = s.cores := rfl
@[simp] theorem State.sync_setPower (x : Power) : (s.setPower x).sync = s.sync := rfl
@[simp] theorem State.waitOrder_setPower (x : Power) : (s.setPower x).waitOrder = s.waitOrder := rfl
@[simp] theorem State.signals_setPower (x : Power) : (s.setPower x).signals = s.signals := rfl
@[simp] theorem State.dispatch_setPower (x : Power) : (s.setPower x).dispatch = s.dispatch := rfl
@[simp] theorem State.segOrder_setPower (x : Power) : (s.setPower x).segOrder = s.segOrder := rfl
@[simp] theorem State.streams_setPower (x : Power) : (s.setPower x).streams = s.streams := rfl
@[simp] theorem State.rings_setPower (x : Power) : (s.setPower x).rings = s.rings := rfl
@[simp] theorem State.heads_setPower (x : Power) : (s.setPower x).heads = s.heads := rfl
@[simp] theorem State.haltAt_setPower (x : Power) : (s.setPower x).haltAt = s.haltAt := rfl
@[simp] theorem State.heldHeads_setPower (x : Power) : (s.setPower x).heldHeads = s.heldHeads := rfl
@[simp] theorem State.queues_setPower (x : Power) : (s.setPower x).queues = s.queues := rfl
@[simp] theorem State.atsOn_setPower (x : Power) : (s.setPower x).atsOn = s.atsOn := rfl
@[simp] theorem State.atc_setPower (x : Power) : (s.setPower x).atc = s.atc := rfl
@[simp] theorem State.lowPower_setPower (x : Power) : (s.setPower x).lowPower = s.lowPower := rfl
@[simp] theorem State.flags_setPower (x : Power) : (s.setPower x).flags = s.flags := rfl
@[simp] theorem State.out_setPower (x : Power) : (s.setPower x).out = s.out := rfl
@[simp] theorem State.events_setPower (x : Power) : (s.setPower x).events = s.events := rfl
@[simp] theorem State.bad_setPower (x : Power) : (s.setPower x).bad = s.bad := rfl
@[simp] theorem State.poison_setPower (x : Power) : (s.setPower x).poison = s.poison := rfl
@[simp] theorem State.cache_setPower (x : Power) : (s.setPower x).cache = s.cache := rfl
@[simp] theorem State.watch_setPower (x : Power) : (s.setPower x).watch = s.watch := rfl
@[simp] theorem State.flash_setPower (x : Power) : (s.setPower x).flash = s.flash := rfl
@[simp] theorem State.flashDown_setPower (x : Power) : (s.setPower x).flashDown = s.flashDown := rfl
@[simp] theorem State.ports_setPower (x : Power) : (s.setPower x).ports = s.ports := rfl
@[simp] theorem State.inbox_setPower (x : Power) : (s.setPower x).inbox = s.inbox := rfl
@[simp] theorem State.fellows_setPower (x : Power) : (s.setPower x).fellows = s.fellows := rfl
@[simp] theorem State.pfc_setPower (x : Power) : (s.setPower x).pfc = s.pfc := rfl
@[simp] theorem State.reqs_setPower (x : Power) : (s.setPower x).reqs = s.reqs := rfl
@[simp] theorem State.serial_setPower (x : Power) : (s.setPower x).serial = s.serial := rfl
@[simp] theorem State.tag_setPower (x : Power) : (s.setPower x).tag = s.tag := rfl
@[simp] theorem State.chans_setPower (x : Power) : (s.setPower x).chans = s.chans := rfl
@[simp] theorem State.feeds_setPower (x : Power) : (s.setPower x).feeds = s.feeds := rfl
@[simp] theorem State.fences_setPower (x : Power) : (s.setPower x).fences = s.fences := rfl
@[simp] theorem State.recoveries_setPower (x : Power) : (s.setPower x).recoveries = s.recoveries := rfl
@[simp] theorem State.gviews_setPower (x : Power) : (s.setPower x).gviews = s.gviews := rfl
@[simp] theorem State.reds_setPower (x : Power) : (s.setPower x).reds = s.reds := rfl
@[simp] theorem State.redSeq_setPower (x : Power) : (s.setPower x).redSeq = s.redSeq := rfl
@[simp] theorem State.redRings_setPower (x : Power) : (s.setPower x).redRings = s.redRings := rfl
@[simp] theorem State.jobs_setPower (x : Power) : (s.setPower x).jobs = s.jobs := rfl
@[simp] theorem State.traceBufs_setPower (x : Power) : (s.setPower x).traceBufs = s.traceBufs := rfl
@[simp] theorem State.traceTurn_setPower (x : Power) : (s.setPower x).traceTurn = s.traceTurn := rfl
@[simp] theorem State.dm_setPower (x : Power) : (s.setPower x).dm = s.dm := rfl
@[simp] theorem State.posted_setPower (x : Power) : (s.setPower x).posted = s.posted := rfl
@[simp] theorem State.referee_setPower (x : Power) : (s.setPower x).referee = s.referee := rfl
@[simp] theorem State.power_setPower (x : Power) : (s.setPower x).power = x := rfl
@[simp] theorem State.freeCount_setPower (x : Power) : (s.setPower x).freeCount = s.freeCount := rfl
@[simp] theorem State.lines_setPower (x : Power) : (s.setPower x).lines = s.lines := rfl
@[simp] theorem State.hartCsr_setPower (x : Power) : (s.setPower x).hartCsr = s.hartCsr := rfl
@[simp] theorem State.msix_setPower (x : Power) : (s.setPower x).msix = s.msix := rfl
@[simp] theorem State.msixCtl_setPower (x : Power) : (s.setPower x).msixCtl = s.msixCtl := rfl
@[simp] theorem State.hartFull_setPower (x : Power) : (s.setPower x).hartFull = s.hartFull := rfl
@[simp] theorem State.pending_setFreeCount (x : Nat) : (s.setFreeCount x).pending = s.pending := rfl
@[simp] theorem State.dtime_setFreeCount (x : Nat) : (s.setFreeCount x).dtime = s.dtime := rfl
@[simp] theorem State.regs_setFreeCount (x : Nat) : (s.setFreeCount x).regs = s.regs := rfl
@[simp] theorem State.mem_setFreeCount (x : Nat) : (s.setFreeCount x).mem = s.mem := rfl
@[simp] theorem State.hostMem_setFreeCount (x : Nat) : (s.setFreeCount x).hostMem = s.hostMem := rfl
@[simp] theorem State.book_setFreeCount (x : Nat) : (s.setFreeCount x).book = s.book := rfl
@[simp] theorem State.learned_setFreeCount (x : Nat) : (s.setFreeCount x).learned = s.learned := rfl
@[simp] theorem State.benched_setFreeCount (x : Nat) : (s.setFreeCount x).benched = s.benched := rfl
@[simp] theorem State.cores_setFreeCount (x : Nat) : (s.setFreeCount x).cores = s.cores := rfl
@[simp] theorem State.sync_setFreeCount (x : Nat) : (s.setFreeCount x).sync = s.sync := rfl
@[simp] theorem State.waitOrder_setFreeCount (x : Nat) : (s.setFreeCount x).waitOrder = s.waitOrder := rfl
@[simp] theorem State.signals_setFreeCount (x : Nat) : (s.setFreeCount x).signals = s.signals := rfl
@[simp] theorem State.dispatch_setFreeCount (x : Nat) : (s.setFreeCount x).dispatch = s.dispatch := rfl
@[simp] theorem State.segOrder_setFreeCount (x : Nat) : (s.setFreeCount x).segOrder = s.segOrder := rfl
@[simp] theorem State.streams_setFreeCount (x : Nat) : (s.setFreeCount x).streams = s.streams := rfl
@[simp] theorem State.rings_setFreeCount (x : Nat) : (s.setFreeCount x).rings = s.rings := rfl
@[simp] theorem State.heads_setFreeCount (x : Nat) : (s.setFreeCount x).heads = s.heads := rfl
@[simp] theorem State.haltAt_setFreeCount (x : Nat) : (s.setFreeCount x).haltAt = s.haltAt := rfl
@[simp] theorem State.heldHeads_setFreeCount (x : Nat) : (s.setFreeCount x).heldHeads = s.heldHeads := rfl
@[simp] theorem State.queues_setFreeCount (x : Nat) : (s.setFreeCount x).queues = s.queues := rfl
@[simp] theorem State.atsOn_setFreeCount (x : Nat) : (s.setFreeCount x).atsOn = s.atsOn := rfl
@[simp] theorem State.atc_setFreeCount (x : Nat) : (s.setFreeCount x).atc = s.atc := rfl
@[simp] theorem State.lowPower_setFreeCount (x : Nat) : (s.setFreeCount x).lowPower = s.lowPower := rfl
@[simp] theorem State.flags_setFreeCount (x : Nat) : (s.setFreeCount x).flags = s.flags := rfl
@[simp] theorem State.out_setFreeCount (x : Nat) : (s.setFreeCount x).out = s.out := rfl
@[simp] theorem State.events_setFreeCount (x : Nat) : (s.setFreeCount x).events = s.events := rfl
@[simp] theorem State.bad_setFreeCount (x : Nat) : (s.setFreeCount x).bad = s.bad := rfl
@[simp] theorem State.poison_setFreeCount (x : Nat) : (s.setFreeCount x).poison = s.poison := rfl
@[simp] theorem State.cache_setFreeCount (x : Nat) : (s.setFreeCount x).cache = s.cache := rfl
@[simp] theorem State.watch_setFreeCount (x : Nat) : (s.setFreeCount x).watch = s.watch := rfl
@[simp] theorem State.flash_setFreeCount (x : Nat) : (s.setFreeCount x).flash = s.flash := rfl
@[simp] theorem State.flashDown_setFreeCount (x : Nat) : (s.setFreeCount x).flashDown = s.flashDown := rfl
@[simp] theorem State.ports_setFreeCount (x : Nat) : (s.setFreeCount x).ports = s.ports := rfl
@[simp] theorem State.inbox_setFreeCount (x : Nat) : (s.setFreeCount x).inbox = s.inbox := rfl
@[simp] theorem State.fellows_setFreeCount (x : Nat) : (s.setFreeCount x).fellows = s.fellows := rfl
@[simp] theorem State.pfc_setFreeCount (x : Nat) : (s.setFreeCount x).pfc = s.pfc := rfl
@[simp] theorem State.reqs_setFreeCount (x : Nat) : (s.setFreeCount x).reqs = s.reqs := rfl
@[simp] theorem State.serial_setFreeCount (x : Nat) : (s.setFreeCount x).serial = s.serial := rfl
@[simp] theorem State.tag_setFreeCount (x : Nat) : (s.setFreeCount x).tag = s.tag := rfl
@[simp] theorem State.chans_setFreeCount (x : Nat) : (s.setFreeCount x).chans = s.chans := rfl
@[simp] theorem State.feeds_setFreeCount (x : Nat) : (s.setFreeCount x).feeds = s.feeds := rfl
@[simp] theorem State.fences_setFreeCount (x : Nat) : (s.setFreeCount x).fences = s.fences := rfl
@[simp] theorem State.recoveries_setFreeCount (x : Nat) : (s.setFreeCount x).recoveries = s.recoveries := rfl
@[simp] theorem State.gviews_setFreeCount (x : Nat) : (s.setFreeCount x).gviews = s.gviews := rfl
@[simp] theorem State.reds_setFreeCount (x : Nat) : (s.setFreeCount x).reds = s.reds := rfl
@[simp] theorem State.redSeq_setFreeCount (x : Nat) : (s.setFreeCount x).redSeq = s.redSeq := rfl
@[simp] theorem State.redRings_setFreeCount (x : Nat) : (s.setFreeCount x).redRings = s.redRings := rfl
@[simp] theorem State.jobs_setFreeCount (x : Nat) : (s.setFreeCount x).jobs = s.jobs := rfl
@[simp] theorem State.traceBufs_setFreeCount (x : Nat) : (s.setFreeCount x).traceBufs = s.traceBufs := rfl
@[simp] theorem State.traceTurn_setFreeCount (x : Nat) : (s.setFreeCount x).traceTurn = s.traceTurn := rfl
@[simp] theorem State.dm_setFreeCount (x : Nat) : (s.setFreeCount x).dm = s.dm := rfl
@[simp] theorem State.posted_setFreeCount (x : Nat) : (s.setFreeCount x).posted = s.posted := rfl
@[simp] theorem State.referee_setFreeCount (x : Nat) : (s.setFreeCount x).referee = s.referee := rfl
@[simp] theorem State.power_setFreeCount (x : Nat) : (s.setFreeCount x).power = s.power := rfl
@[simp] theorem State.freeCount_setFreeCount (x : Nat) : (s.setFreeCount x).freeCount = x := rfl
@[simp] theorem State.lines_setFreeCount (x : Nat) : (s.setFreeCount x).lines = s.lines := rfl
@[simp] theorem State.hartCsr_setFreeCount (x : Nat) : (s.setFreeCount x).hartCsr = s.hartCsr := rfl
@[simp] theorem State.msix_setFreeCount (x : Nat) : (s.setFreeCount x).msix = s.msix := rfl
@[simp] theorem State.msixCtl_setFreeCount (x : Nat) : (s.setFreeCount x).msixCtl = s.msixCtl := rfl
@[simp] theorem State.hartFull_setFreeCount (x : Nat) : (s.setFreeCount x).hartFull = s.hartFull := rfl
@[simp] theorem State.pending_setLines (x : List (Nat × HartLine)) : (s.setLines x).pending = s.pending := rfl
@[simp] theorem State.dtime_setLines (x : List (Nat × HartLine)) : (s.setLines x).dtime = s.dtime := rfl
@[simp] theorem State.regs_setLines (x : List (Nat × HartLine)) : (s.setLines x).regs = s.regs := rfl
@[simp] theorem State.mem_setLines (x : List (Nat × HartLine)) : (s.setLines x).mem = s.mem := rfl
@[simp] theorem State.hostMem_setLines (x : List (Nat × HartLine)) : (s.setLines x).hostMem = s.hostMem := rfl
@[simp] theorem State.book_setLines (x : List (Nat × HartLine)) : (s.setLines x).book = s.book := rfl
@[simp] theorem State.learned_setLines (x : List (Nat × HartLine)) : (s.setLines x).learned = s.learned := rfl
@[simp] theorem State.benched_setLines (x : List (Nat × HartLine)) : (s.setLines x).benched = s.benched := rfl
@[simp] theorem State.cores_setLines (x : List (Nat × HartLine)) : (s.setLines x).cores = s.cores := rfl
@[simp] theorem State.sync_setLines (x : List (Nat × HartLine)) : (s.setLines x).sync = s.sync := rfl
@[simp] theorem State.waitOrder_setLines (x : List (Nat × HartLine)) : (s.setLines x).waitOrder = s.waitOrder := rfl
@[simp] theorem State.signals_setLines (x : List (Nat × HartLine)) : (s.setLines x).signals = s.signals := rfl
@[simp] theorem State.dispatch_setLines (x : List (Nat × HartLine)) : (s.setLines x).dispatch = s.dispatch := rfl
@[simp] theorem State.segOrder_setLines (x : List (Nat × HartLine)) : (s.setLines x).segOrder = s.segOrder := rfl
@[simp] theorem State.streams_setLines (x : List (Nat × HartLine)) : (s.setLines x).streams = s.streams := rfl
@[simp] theorem State.rings_setLines (x : List (Nat × HartLine)) : (s.setLines x).rings = s.rings := rfl
@[simp] theorem State.heads_setLines (x : List (Nat × HartLine)) : (s.setLines x).heads = s.heads := rfl
@[simp] theorem State.haltAt_setLines (x : List (Nat × HartLine)) : (s.setLines x).haltAt = s.haltAt := rfl
@[simp] theorem State.heldHeads_setLines (x : List (Nat × HartLine)) : (s.setLines x).heldHeads = s.heldHeads := rfl
@[simp] theorem State.queues_setLines (x : List (Nat × HartLine)) : (s.setLines x).queues = s.queues := rfl
@[simp] theorem State.atsOn_setLines (x : List (Nat × HartLine)) : (s.setLines x).atsOn = s.atsOn := rfl
@[simp] theorem State.atc_setLines (x : List (Nat × HartLine)) : (s.setLines x).atc = s.atc := rfl
@[simp] theorem State.lowPower_setLines (x : List (Nat × HartLine)) : (s.setLines x).lowPower = s.lowPower := rfl
@[simp] theorem State.flags_setLines (x : List (Nat × HartLine)) : (s.setLines x).flags = s.flags := rfl
@[simp] theorem State.out_setLines (x : List (Nat × HartLine)) : (s.setLines x).out = s.out := rfl
@[simp] theorem State.events_setLines (x : List (Nat × HartLine)) : (s.setLines x).events = s.events := rfl
@[simp] theorem State.bad_setLines (x : List (Nat × HartLine)) : (s.setLines x).bad = s.bad := rfl
@[simp] theorem State.poison_setLines (x : List (Nat × HartLine)) : (s.setLines x).poison = s.poison := rfl
@[simp] theorem State.cache_setLines (x : List (Nat × HartLine)) : (s.setLines x).cache = s.cache := rfl
@[simp] theorem State.watch_setLines (x : List (Nat × HartLine)) : (s.setLines x).watch = s.watch := rfl
@[simp] theorem State.flash_setLines (x : List (Nat × HartLine)) : (s.setLines x).flash = s.flash := rfl
@[simp] theorem State.flashDown_setLines (x : List (Nat × HartLine)) : (s.setLines x).flashDown = s.flashDown := rfl
@[simp] theorem State.ports_setLines (x : List (Nat × HartLine)) : (s.setLines x).ports = s.ports := rfl
@[simp] theorem State.inbox_setLines (x : List (Nat × HartLine)) : (s.setLines x).inbox = s.inbox := rfl
@[simp] theorem State.fellows_setLines (x : List (Nat × HartLine)) : (s.setLines x).fellows = s.fellows := rfl
@[simp] theorem State.pfc_setLines (x : List (Nat × HartLine)) : (s.setLines x).pfc = s.pfc := rfl
@[simp] theorem State.reqs_setLines (x : List (Nat × HartLine)) : (s.setLines x).reqs = s.reqs := rfl
@[simp] theorem State.serial_setLines (x : List (Nat × HartLine)) : (s.setLines x).serial = s.serial := rfl
@[simp] theorem State.tag_setLines (x : List (Nat × HartLine)) : (s.setLines x).tag = s.tag := rfl
@[simp] theorem State.chans_setLines (x : List (Nat × HartLine)) : (s.setLines x).chans = s.chans := rfl
@[simp] theorem State.feeds_setLines (x : List (Nat × HartLine)) : (s.setLines x).feeds = s.feeds := rfl
@[simp] theorem State.fences_setLines (x : List (Nat × HartLine)) : (s.setLines x).fences = s.fences := rfl
@[simp] theorem State.recoveries_setLines (x : List (Nat × HartLine)) : (s.setLines x).recoveries = s.recoveries := rfl
@[simp] theorem State.gviews_setLines (x : List (Nat × HartLine)) : (s.setLines x).gviews = s.gviews := rfl
@[simp] theorem State.reds_setLines (x : List (Nat × HartLine)) : (s.setLines x).reds = s.reds := rfl
@[simp] theorem State.redSeq_setLines (x : List (Nat × HartLine)) : (s.setLines x).redSeq = s.redSeq := rfl
@[simp] theorem State.redRings_setLines (x : List (Nat × HartLine)) : (s.setLines x).redRings = s.redRings := rfl
@[simp] theorem State.jobs_setLines (x : List (Nat × HartLine)) : (s.setLines x).jobs = s.jobs := rfl
@[simp] theorem State.traceBufs_setLines (x : List (Nat × HartLine)) : (s.setLines x).traceBufs = s.traceBufs := rfl
@[simp] theorem State.traceTurn_setLines (x : List (Nat × HartLine)) : (s.setLines x).traceTurn = s.traceTurn := rfl
@[simp] theorem State.dm_setLines (x : List (Nat × HartLine)) : (s.setLines x).dm = s.dm := rfl
@[simp] theorem State.posted_setLines (x : List (Nat × HartLine)) : (s.setLines x).posted = s.posted := rfl
@[simp] theorem State.referee_setLines (x : List (Nat × HartLine)) : (s.setLines x).referee = s.referee := rfl
@[simp] theorem State.power_setLines (x : List (Nat × HartLine)) : (s.setLines x).power = s.power := rfl
@[simp] theorem State.freeCount_setLines (x : List (Nat × HartLine)) : (s.setLines x).freeCount = s.freeCount := rfl
@[simp] theorem State.lines_setLines (x : List (Nat × HartLine)) : (s.setLines x).lines = x := rfl
@[simp] theorem State.hartCsr_setLines (x : List (Nat × HartLine)) : (s.setLines x).hartCsr = s.hartCsr := rfl
@[simp] theorem State.msix_setLines (x : List (Nat × HartLine)) : (s.setLines x).msix = s.msix := rfl
@[simp] theorem State.msixCtl_setLines (x : List (Nat × HartLine)) : (s.setLines x).msixCtl = s.msixCtl := rfl
@[simp] theorem State.hartFull_setLines (x : List (Nat × HartLine)) : (s.setLines x).hartFull = s.hartFull := rfl
@[simp] theorem State.pending_setHartCsr (x : List (Nat × Nat)) : (s.setHartCsr x).pending = s.pending := rfl
@[simp] theorem State.dtime_setHartCsr (x : List (Nat × Nat)) : (s.setHartCsr x).dtime = s.dtime := rfl
@[simp] theorem State.regs_setHartCsr (x : List (Nat × Nat)) : (s.setHartCsr x).regs = s.regs := rfl
@[simp] theorem State.mem_setHartCsr (x : List (Nat × Nat)) : (s.setHartCsr x).mem = s.mem := rfl
@[simp] theorem State.hostMem_setHartCsr (x : List (Nat × Nat)) : (s.setHartCsr x).hostMem = s.hostMem := rfl
@[simp] theorem State.book_setHartCsr (x : List (Nat × Nat)) : (s.setHartCsr x).book = s.book := rfl
@[simp] theorem State.learned_setHartCsr (x : List (Nat × Nat)) : (s.setHartCsr x).learned = s.learned := rfl
@[simp] theorem State.benched_setHartCsr (x : List (Nat × Nat)) : (s.setHartCsr x).benched = s.benched := rfl
@[simp] theorem State.cores_setHartCsr (x : List (Nat × Nat)) : (s.setHartCsr x).cores = s.cores := rfl
@[simp] theorem State.sync_setHartCsr (x : List (Nat × Nat)) : (s.setHartCsr x).sync = s.sync := rfl
@[simp] theorem State.waitOrder_setHartCsr (x : List (Nat × Nat)) : (s.setHartCsr x).waitOrder = s.waitOrder := rfl
@[simp] theorem State.signals_setHartCsr (x : List (Nat × Nat)) : (s.setHartCsr x).signals = s.signals := rfl
@[simp] theorem State.dispatch_setHartCsr (x : List (Nat × Nat)) : (s.setHartCsr x).dispatch = s.dispatch := rfl
@[simp] theorem State.segOrder_setHartCsr (x : List (Nat × Nat)) : (s.setHartCsr x).segOrder = s.segOrder := rfl
@[simp] theorem State.streams_setHartCsr (x : List (Nat × Nat)) : (s.setHartCsr x).streams = s.streams := rfl
@[simp] theorem State.rings_setHartCsr (x : List (Nat × Nat)) : (s.setHartCsr x).rings = s.rings := rfl
@[simp] theorem State.heads_setHartCsr (x : List (Nat × Nat)) : (s.setHartCsr x).heads = s.heads := rfl
@[simp] theorem State.haltAt_setHartCsr (x : List (Nat × Nat)) : (s.setHartCsr x).haltAt = s.haltAt := rfl
@[simp] theorem State.heldHeads_setHartCsr (x : List (Nat × Nat)) : (s.setHartCsr x).heldHeads = s.heldHeads := rfl
@[simp] theorem State.queues_setHartCsr (x : List (Nat × Nat)) : (s.setHartCsr x).queues = s.queues := rfl
@[simp] theorem State.atsOn_setHartCsr (x : List (Nat × Nat)) : (s.setHartCsr x).atsOn = s.atsOn := rfl
@[simp] theorem State.atc_setHartCsr (x : List (Nat × Nat)) : (s.setHartCsr x).atc = s.atc := rfl
@[simp] theorem State.lowPower_setHartCsr (x : List (Nat × Nat)) : (s.setHartCsr x).lowPower = s.lowPower := rfl
@[simp] theorem State.flags_setHartCsr (x : List (Nat × Nat)) : (s.setHartCsr x).flags = s.flags := rfl
@[simp] theorem State.out_setHartCsr (x : List (Nat × Nat)) : (s.setHartCsr x).out = s.out := rfl
@[simp] theorem State.events_setHartCsr (x : List (Nat × Nat)) : (s.setHartCsr x).events = s.events := rfl
@[simp] theorem State.bad_setHartCsr (x : List (Nat × Nat)) : (s.setHartCsr x).bad = s.bad := rfl
@[simp] theorem State.poison_setHartCsr (x : List (Nat × Nat)) : (s.setHartCsr x).poison = s.poison := rfl
@[simp] theorem State.cache_setHartCsr (x : List (Nat × Nat)) : (s.setHartCsr x).cache = s.cache := rfl
@[simp] theorem State.watch_setHartCsr (x : List (Nat × Nat)) : (s.setHartCsr x).watch = s.watch := rfl
@[simp] theorem State.flash_setHartCsr (x : List (Nat × Nat)) : (s.setHartCsr x).flash = s.flash := rfl
@[simp] theorem State.flashDown_setHartCsr (x : List (Nat × Nat)) : (s.setHartCsr x).flashDown = s.flashDown := rfl
@[simp] theorem State.ports_setHartCsr (x : List (Nat × Nat)) : (s.setHartCsr x).ports = s.ports := rfl
@[simp] theorem State.inbox_setHartCsr (x : List (Nat × Nat)) : (s.setHartCsr x).inbox = s.inbox := rfl
@[simp] theorem State.fellows_setHartCsr (x : List (Nat × Nat)) : (s.setHartCsr x).fellows = s.fellows := rfl
@[simp] theorem State.pfc_setHartCsr (x : List (Nat × Nat)) : (s.setHartCsr x).pfc = s.pfc := rfl
@[simp] theorem State.reqs_setHartCsr (x : List (Nat × Nat)) : (s.setHartCsr x).reqs = s.reqs := rfl
@[simp] theorem State.serial_setHartCsr (x : List (Nat × Nat)) : (s.setHartCsr x).serial = s.serial := rfl
@[simp] theorem State.tag_setHartCsr (x : List (Nat × Nat)) : (s.setHartCsr x).tag = s.tag := rfl
@[simp] theorem State.chans_setHartCsr (x : List (Nat × Nat)) : (s.setHartCsr x).chans = s.chans := rfl
@[simp] theorem State.feeds_setHartCsr (x : List (Nat × Nat)) : (s.setHartCsr x).feeds = s.feeds := rfl
@[simp] theorem State.fences_setHartCsr (x : List (Nat × Nat)) : (s.setHartCsr x).fences = s.fences := rfl
@[simp] theorem State.recoveries_setHartCsr (x : List (Nat × Nat)) : (s.setHartCsr x).recoveries = s.recoveries := rfl
@[simp] theorem State.gviews_setHartCsr (x : List (Nat × Nat)) : (s.setHartCsr x).gviews = s.gviews := rfl
@[simp] theorem State.reds_setHartCsr (x : List (Nat × Nat)) : (s.setHartCsr x).reds = s.reds := rfl
@[simp] theorem State.redSeq_setHartCsr (x : List (Nat × Nat)) : (s.setHartCsr x).redSeq = s.redSeq := rfl
@[simp] theorem State.redRings_setHartCsr (x : List (Nat × Nat)) : (s.setHartCsr x).redRings = s.redRings := rfl
@[simp] theorem State.jobs_setHartCsr (x : List (Nat × Nat)) : (s.setHartCsr x).jobs = s.jobs := rfl
@[simp] theorem State.traceBufs_setHartCsr (x : List (Nat × Nat)) : (s.setHartCsr x).traceBufs = s.traceBufs := rfl
@[simp] theorem State.traceTurn_setHartCsr (x : List (Nat × Nat)) : (s.setHartCsr x).traceTurn = s.traceTurn := rfl
@[simp] theorem State.dm_setHartCsr (x : List (Nat × Nat)) : (s.setHartCsr x).dm = s.dm := rfl
@[simp] theorem State.posted_setHartCsr (x : List (Nat × Nat)) : (s.setHartCsr x).posted = s.posted := rfl
@[simp] theorem State.referee_setHartCsr (x : List (Nat × Nat)) : (s.setHartCsr x).referee = s.referee := rfl
@[simp] theorem State.power_setHartCsr (x : List (Nat × Nat)) : (s.setHartCsr x).power = s.power := rfl
@[simp] theorem State.freeCount_setHartCsr (x : List (Nat × Nat)) : (s.setHartCsr x).freeCount = s.freeCount := rfl
@[simp] theorem State.lines_setHartCsr (x : List (Nat × Nat)) : (s.setHartCsr x).lines = s.lines := rfl
@[simp] theorem State.hartCsr_setHartCsr (x : List (Nat × Nat)) : (s.setHartCsr x).hartCsr = x := rfl
@[simp] theorem State.msix_setHartCsr (x : List (Nat × Nat)) : (s.setHartCsr x).msix = s.msix := rfl
@[simp] theorem State.msixCtl_setHartCsr (x : List (Nat × Nat)) : (s.setHartCsr x).msixCtl = s.msixCtl := rfl
@[simp] theorem State.hartFull_setHartCsr (x : List (Nat × Nat)) : (s.setHartCsr x).hartFull = s.hartFull := rfl
@[simp] theorem State.pending_setMsix (x : List (Nat × MsixEntry)) : (s.setMsix x).pending = s.pending := rfl
@[simp] theorem State.dtime_setMsix (x : List (Nat × MsixEntry)) : (s.setMsix x).dtime = s.dtime := rfl
@[simp] theorem State.regs_setMsix (x : List (Nat × MsixEntry)) : (s.setMsix x).regs = s.regs := rfl
@[simp] theorem State.mem_setMsix (x : List (Nat × MsixEntry)) : (s.setMsix x).mem = s.mem := rfl
@[simp] theorem State.hostMem_setMsix (x : List (Nat × MsixEntry)) : (s.setMsix x).hostMem = s.hostMem := rfl
@[simp] theorem State.book_setMsix (x : List (Nat × MsixEntry)) : (s.setMsix x).book = s.book := rfl
@[simp] theorem State.learned_setMsix (x : List (Nat × MsixEntry)) : (s.setMsix x).learned = s.learned := rfl
@[simp] theorem State.benched_setMsix (x : List (Nat × MsixEntry)) : (s.setMsix x).benched = s.benched := rfl
@[simp] theorem State.cores_setMsix (x : List (Nat × MsixEntry)) : (s.setMsix x).cores = s.cores := rfl
@[simp] theorem State.sync_setMsix (x : List (Nat × MsixEntry)) : (s.setMsix x).sync = s.sync := rfl
@[simp] theorem State.waitOrder_setMsix (x : List (Nat × MsixEntry)) : (s.setMsix x).waitOrder = s.waitOrder := rfl
@[simp] theorem State.signals_setMsix (x : List (Nat × MsixEntry)) : (s.setMsix x).signals = s.signals := rfl
@[simp] theorem State.dispatch_setMsix (x : List (Nat × MsixEntry)) : (s.setMsix x).dispatch = s.dispatch := rfl
@[simp] theorem State.segOrder_setMsix (x : List (Nat × MsixEntry)) : (s.setMsix x).segOrder = s.segOrder := rfl
@[simp] theorem State.streams_setMsix (x : List (Nat × MsixEntry)) : (s.setMsix x).streams = s.streams := rfl
@[simp] theorem State.rings_setMsix (x : List (Nat × MsixEntry)) : (s.setMsix x).rings = s.rings := rfl
@[simp] theorem State.heads_setMsix (x : List (Nat × MsixEntry)) : (s.setMsix x).heads = s.heads := rfl
@[simp] theorem State.haltAt_setMsix (x : List (Nat × MsixEntry)) : (s.setMsix x).haltAt = s.haltAt := rfl
@[simp] theorem State.heldHeads_setMsix (x : List (Nat × MsixEntry)) : (s.setMsix x).heldHeads = s.heldHeads := rfl
@[simp] theorem State.queues_setMsix (x : List (Nat × MsixEntry)) : (s.setMsix x).queues = s.queues := rfl
@[simp] theorem State.atsOn_setMsix (x : List (Nat × MsixEntry)) : (s.setMsix x).atsOn = s.atsOn := rfl
@[simp] theorem State.atc_setMsix (x : List (Nat × MsixEntry)) : (s.setMsix x).atc = s.atc := rfl
@[simp] theorem State.lowPower_setMsix (x : List (Nat × MsixEntry)) : (s.setMsix x).lowPower = s.lowPower := rfl
@[simp] theorem State.flags_setMsix (x : List (Nat × MsixEntry)) : (s.setMsix x).flags = s.flags := rfl
@[simp] theorem State.out_setMsix (x : List (Nat × MsixEntry)) : (s.setMsix x).out = s.out := rfl
@[simp] theorem State.events_setMsix (x : List (Nat × MsixEntry)) : (s.setMsix x).events = s.events := rfl
@[simp] theorem State.bad_setMsix (x : List (Nat × MsixEntry)) : (s.setMsix x).bad = s.bad := rfl
@[simp] theorem State.poison_setMsix (x : List (Nat × MsixEntry)) : (s.setMsix x).poison = s.poison := rfl
@[simp] theorem State.cache_setMsix (x : List (Nat × MsixEntry)) : (s.setMsix x).cache = s.cache := rfl
@[simp] theorem State.watch_setMsix (x : List (Nat × MsixEntry)) : (s.setMsix x).watch = s.watch := rfl
@[simp] theorem State.flash_setMsix (x : List (Nat × MsixEntry)) : (s.setMsix x).flash = s.flash := rfl
@[simp] theorem State.flashDown_setMsix (x : List (Nat × MsixEntry)) : (s.setMsix x).flashDown = s.flashDown := rfl
@[simp] theorem State.ports_setMsix (x : List (Nat × MsixEntry)) : (s.setMsix x).ports = s.ports := rfl
@[simp] theorem State.inbox_setMsix (x : List (Nat × MsixEntry)) : (s.setMsix x).inbox = s.inbox := rfl
@[simp] theorem State.fellows_setMsix (x : List (Nat × MsixEntry)) : (s.setMsix x).fellows = s.fellows := rfl
@[simp] theorem State.pfc_setMsix (x : List (Nat × MsixEntry)) : (s.setMsix x).pfc = s.pfc := rfl
@[simp] theorem State.reqs_setMsix (x : List (Nat × MsixEntry)) : (s.setMsix x).reqs = s.reqs := rfl
@[simp] theorem State.serial_setMsix (x : List (Nat × MsixEntry)) : (s.setMsix x).serial = s.serial := rfl
@[simp] theorem State.tag_setMsix (x : List (Nat × MsixEntry)) : (s.setMsix x).tag = s.tag := rfl
@[simp] theorem State.chans_setMsix (x : List (Nat × MsixEntry)) : (s.setMsix x).chans = s.chans := rfl
@[simp] theorem State.feeds_setMsix (x : List (Nat × MsixEntry)) : (s.setMsix x).feeds = s.feeds := rfl
@[simp] theorem State.fences_setMsix (x : List (Nat × MsixEntry)) : (s.setMsix x).fences = s.fences := rfl
@[simp] theorem State.recoveries_setMsix (x : List (Nat × MsixEntry)) : (s.setMsix x).recoveries = s.recoveries := rfl
@[simp] theorem State.gviews_setMsix (x : List (Nat × MsixEntry)) : (s.setMsix x).gviews = s.gviews := rfl
@[simp] theorem State.reds_setMsix (x : List (Nat × MsixEntry)) : (s.setMsix x).reds = s.reds := rfl
@[simp] theorem State.redSeq_setMsix (x : List (Nat × MsixEntry)) : (s.setMsix x).redSeq = s.redSeq := rfl
@[simp] theorem State.redRings_setMsix (x : List (Nat × MsixEntry)) : (s.setMsix x).redRings = s.redRings := rfl
@[simp] theorem State.jobs_setMsix (x : List (Nat × MsixEntry)) : (s.setMsix x).jobs = s.jobs := rfl
@[simp] theorem State.traceBufs_setMsix (x : List (Nat × MsixEntry)) : (s.setMsix x).traceBufs = s.traceBufs := rfl
@[simp] theorem State.traceTurn_setMsix (x : List (Nat × MsixEntry)) : (s.setMsix x).traceTurn = s.traceTurn := rfl
@[simp] theorem State.dm_setMsix (x : List (Nat × MsixEntry)) : (s.setMsix x).dm = s.dm := rfl
@[simp] theorem State.posted_setMsix (x : List (Nat × MsixEntry)) : (s.setMsix x).posted = s.posted := rfl
@[simp] theorem State.referee_setMsix (x : List (Nat × MsixEntry)) : (s.setMsix x).referee = s.referee := rfl
@[simp] theorem State.power_setMsix (x : List (Nat × MsixEntry)) : (s.setMsix x).power = s.power := rfl
@[simp] theorem State.freeCount_setMsix (x : List (Nat × MsixEntry)) : (s.setMsix x).freeCount = s.freeCount := rfl
@[simp] theorem State.lines_setMsix (x : List (Nat × MsixEntry)) : (s.setMsix x).lines = s.lines := rfl
@[simp] theorem State.hartCsr_setMsix (x : List (Nat × MsixEntry)) : (s.setMsix x).hartCsr = s.hartCsr := rfl
@[simp] theorem State.msix_setMsix (x : List (Nat × MsixEntry)) : (s.setMsix x).msix = x := rfl
@[simp] theorem State.msixCtl_setMsix (x : List (Nat × MsixEntry)) : (s.setMsix x).msixCtl = s.msixCtl := rfl
@[simp] theorem State.hartFull_setMsix (x : List (Nat × MsixEntry)) : (s.setMsix x).hartFull = s.hartFull := rfl
@[simp] theorem State.pending_setMsixCtl (x : List (Nat × Nat)) : (s.setMsixCtl x).pending = s.pending := rfl
@[simp] theorem State.dtime_setMsixCtl (x : List (Nat × Nat)) : (s.setMsixCtl x).dtime = s.dtime := rfl
@[simp] theorem State.regs_setMsixCtl (x : List (Nat × Nat)) : (s.setMsixCtl x).regs = s.regs := rfl
@[simp] theorem State.mem_setMsixCtl (x : List (Nat × Nat)) : (s.setMsixCtl x).mem = s.mem := rfl
@[simp] theorem State.hostMem_setMsixCtl (x : List (Nat × Nat)) : (s.setMsixCtl x).hostMem = s.hostMem := rfl
@[simp] theorem State.book_setMsixCtl (x : List (Nat × Nat)) : (s.setMsixCtl x).book = s.book := rfl
@[simp] theorem State.learned_setMsixCtl (x : List (Nat × Nat)) : (s.setMsixCtl x).learned = s.learned := rfl
@[simp] theorem State.benched_setMsixCtl (x : List (Nat × Nat)) : (s.setMsixCtl x).benched = s.benched := rfl
@[simp] theorem State.cores_setMsixCtl (x : List (Nat × Nat)) : (s.setMsixCtl x).cores = s.cores := rfl
@[simp] theorem State.sync_setMsixCtl (x : List (Nat × Nat)) : (s.setMsixCtl x).sync = s.sync := rfl
@[simp] theorem State.waitOrder_setMsixCtl (x : List (Nat × Nat)) : (s.setMsixCtl x).waitOrder = s.waitOrder := rfl
@[simp] theorem State.signals_setMsixCtl (x : List (Nat × Nat)) : (s.setMsixCtl x).signals = s.signals := rfl
@[simp] theorem State.dispatch_setMsixCtl (x : List (Nat × Nat)) : (s.setMsixCtl x).dispatch = s.dispatch := rfl
@[simp] theorem State.segOrder_setMsixCtl (x : List (Nat × Nat)) : (s.setMsixCtl x).segOrder = s.segOrder := rfl
@[simp] theorem State.streams_setMsixCtl (x : List (Nat × Nat)) : (s.setMsixCtl x).streams = s.streams := rfl
@[simp] theorem State.rings_setMsixCtl (x : List (Nat × Nat)) : (s.setMsixCtl x).rings = s.rings := rfl
@[simp] theorem State.heads_setMsixCtl (x : List (Nat × Nat)) : (s.setMsixCtl x).heads = s.heads := rfl
@[simp] theorem State.haltAt_setMsixCtl (x : List (Nat × Nat)) : (s.setMsixCtl x).haltAt = s.haltAt := rfl
@[simp] theorem State.heldHeads_setMsixCtl (x : List (Nat × Nat)) : (s.setMsixCtl x).heldHeads = s.heldHeads := rfl
@[simp] theorem State.queues_setMsixCtl (x : List (Nat × Nat)) : (s.setMsixCtl x).queues = s.queues := rfl
@[simp] theorem State.atsOn_setMsixCtl (x : List (Nat × Nat)) : (s.setMsixCtl x).atsOn = s.atsOn := rfl
@[simp] theorem State.atc_setMsixCtl (x : List (Nat × Nat)) : (s.setMsixCtl x).atc = s.atc := rfl
@[simp] theorem State.lowPower_setMsixCtl (x : List (Nat × Nat)) : (s.setMsixCtl x).lowPower = s.lowPower := rfl
@[simp] theorem State.flags_setMsixCtl (x : List (Nat × Nat)) : (s.setMsixCtl x).flags = s.flags := rfl
@[simp] theorem State.out_setMsixCtl (x : List (Nat × Nat)) : (s.setMsixCtl x).out = s.out := rfl
@[simp] theorem State.events_setMsixCtl (x : List (Nat × Nat)) : (s.setMsixCtl x).events = s.events := rfl
@[simp] theorem State.bad_setMsixCtl (x : List (Nat × Nat)) : (s.setMsixCtl x).bad = s.bad := rfl
@[simp] theorem State.poison_setMsixCtl (x : List (Nat × Nat)) : (s.setMsixCtl x).poison = s.poison := rfl
@[simp] theorem State.cache_setMsixCtl (x : List (Nat × Nat)) : (s.setMsixCtl x).cache = s.cache := rfl
@[simp] theorem State.watch_setMsixCtl (x : List (Nat × Nat)) : (s.setMsixCtl x).watch = s.watch := rfl
@[simp] theorem State.flash_setMsixCtl (x : List (Nat × Nat)) : (s.setMsixCtl x).flash = s.flash := rfl
@[simp] theorem State.flashDown_setMsixCtl (x : List (Nat × Nat)) : (s.setMsixCtl x).flashDown = s.flashDown := rfl
@[simp] theorem State.ports_setMsixCtl (x : List (Nat × Nat)) : (s.setMsixCtl x).ports = s.ports := rfl
@[simp] theorem State.inbox_setMsixCtl (x : List (Nat × Nat)) : (s.setMsixCtl x).inbox = s.inbox := rfl
@[simp] theorem State.fellows_setMsixCtl (x : List (Nat × Nat)) : (s.setMsixCtl x).fellows = s.fellows := rfl
@[simp] theorem State.pfc_setMsixCtl (x : List (Nat × Nat)) : (s.setMsixCtl x).pfc = s.pfc := rfl
@[simp] theorem State.reqs_setMsixCtl (x : List (Nat × Nat)) : (s.setMsixCtl x).reqs = s.reqs := rfl
@[simp] theorem State.serial_setMsixCtl (x : List (Nat × Nat)) : (s.setMsixCtl x).serial = s.serial := rfl
@[simp] theorem State.tag_setMsixCtl (x : List (Nat × Nat)) : (s.setMsixCtl x).tag = s.tag := rfl
@[simp] theorem State.chans_setMsixCtl (x : List (Nat × Nat)) : (s.setMsixCtl x).chans = s.chans := rfl
@[simp] theorem State.feeds_setMsixCtl (x : List (Nat × Nat)) : (s.setMsixCtl x).feeds = s.feeds := rfl
@[simp] theorem State.fences_setMsixCtl (x : List (Nat × Nat)) : (s.setMsixCtl x).fences = s.fences := rfl
@[simp] theorem State.recoveries_setMsixCtl (x : List (Nat × Nat)) : (s.setMsixCtl x).recoveries = s.recoveries := rfl
@[simp] theorem State.gviews_setMsixCtl (x : List (Nat × Nat)) : (s.setMsixCtl x).gviews = s.gviews := rfl
@[simp] theorem State.reds_setMsixCtl (x : List (Nat × Nat)) : (s.setMsixCtl x).reds = s.reds := rfl
@[simp] theorem State.redSeq_setMsixCtl (x : List (Nat × Nat)) : (s.setMsixCtl x).redSeq = s.redSeq := rfl
@[simp] theorem State.redRings_setMsixCtl (x : List (Nat × Nat)) : (s.setMsixCtl x).redRings = s.redRings := rfl
@[simp] theorem State.jobs_setMsixCtl (x : List (Nat × Nat)) : (s.setMsixCtl x).jobs = s.jobs := rfl
@[simp] theorem State.traceBufs_setMsixCtl (x : List (Nat × Nat)) : (s.setMsixCtl x).traceBufs = s.traceBufs := rfl
@[simp] theorem State.traceTurn_setMsixCtl (x : List (Nat × Nat)) : (s.setMsixCtl x).traceTurn = s.traceTurn := rfl
@[simp] theorem State.dm_setMsixCtl (x : List (Nat × Nat)) : (s.setMsixCtl x).dm = s.dm := rfl
@[simp] theorem State.posted_setMsixCtl (x : List (Nat × Nat)) : (s.setMsixCtl x).posted = s.posted := rfl
@[simp] theorem State.referee_setMsixCtl (x : List (Nat × Nat)) : (s.setMsixCtl x).referee = s.referee := rfl
@[simp] theorem State.power_setMsixCtl (x : List (Nat × Nat)) : (s.setMsixCtl x).power = s.power := rfl
@[simp] theorem State.freeCount_setMsixCtl (x : List (Nat × Nat)) : (s.setMsixCtl x).freeCount = s.freeCount := rfl
@[simp] theorem State.lines_setMsixCtl (x : List (Nat × Nat)) : (s.setMsixCtl x).lines = s.lines := rfl
@[simp] theorem State.hartCsr_setMsixCtl (x : List (Nat × Nat)) : (s.setMsixCtl x).hartCsr = s.hartCsr := rfl
@[simp] theorem State.msix_setMsixCtl (x : List (Nat × Nat)) : (s.setMsixCtl x).msix = s.msix := rfl
@[simp] theorem State.msixCtl_setMsixCtl (x : List (Nat × Nat)) : (s.setMsixCtl x).msixCtl = x := rfl
@[simp] theorem State.hartFull_setMsixCtl (x : List (Nat × Nat)) : (s.setMsixCtl x).hartFull = s.hartFull := rfl
@[simp] theorem State.pending_setAtsOn (x : List Nat) : (s.setAtsOn x).pending = s.pending := rfl
@[simp] theorem State.dtime_setAtsOn (x : List Nat) : (s.setAtsOn x).dtime = s.dtime := rfl
@[simp] theorem State.regs_setAtsOn (x : List Nat) : (s.setAtsOn x).regs = s.regs := rfl
@[simp] theorem State.mem_setAtsOn (x : List Nat) : (s.setAtsOn x).mem = s.mem := rfl
@[simp] theorem State.hostMem_setAtsOn (x : List Nat) : (s.setAtsOn x).hostMem = s.hostMem := rfl
@[simp] theorem State.book_setAtsOn (x : List Nat) : (s.setAtsOn x).book = s.book := rfl
@[simp] theorem State.learned_setAtsOn (x : List Nat) : (s.setAtsOn x).learned = s.learned := rfl
@[simp] theorem State.benched_setAtsOn (x : List Nat) : (s.setAtsOn x).benched = s.benched := rfl
@[simp] theorem State.cores_setAtsOn (x : List Nat) : (s.setAtsOn x).cores = s.cores := rfl
@[simp] theorem State.sync_setAtsOn (x : List Nat) : (s.setAtsOn x).sync = s.sync := rfl
@[simp] theorem State.waitOrder_setAtsOn (x : List Nat) : (s.setAtsOn x).waitOrder = s.waitOrder := rfl
@[simp] theorem State.signals_setAtsOn (x : List Nat) : (s.setAtsOn x).signals = s.signals := rfl
@[simp] theorem State.dispatch_setAtsOn (x : List Nat) : (s.setAtsOn x).dispatch = s.dispatch := rfl
@[simp] theorem State.segOrder_setAtsOn (x : List Nat) : (s.setAtsOn x).segOrder = s.segOrder := rfl
@[simp] theorem State.streams_setAtsOn (x : List Nat) : (s.setAtsOn x).streams = s.streams := rfl
@[simp] theorem State.rings_setAtsOn (x : List Nat) : (s.setAtsOn x).rings = s.rings := rfl
@[simp] theorem State.heads_setAtsOn (x : List Nat) : (s.setAtsOn x).heads = s.heads := rfl
@[simp] theorem State.haltAt_setAtsOn (x : List Nat) : (s.setAtsOn x).haltAt = s.haltAt := rfl
@[simp] theorem State.heldHeads_setAtsOn (x : List Nat) : (s.setAtsOn x).heldHeads = s.heldHeads := rfl
@[simp] theorem State.queues_setAtsOn (x : List Nat) : (s.setAtsOn x).queues = s.queues := rfl
@[simp] theorem State.atsOn_setAtsOn (x : List Nat) : (s.setAtsOn x).atsOn = x := rfl
@[simp] theorem State.atc_setAtsOn (x : List Nat) : (s.setAtsOn x).atc = s.atc := rfl
@[simp] theorem State.lowPower_setAtsOn (x : List Nat) : (s.setAtsOn x).lowPower = s.lowPower := rfl
@[simp] theorem State.flags_setAtsOn (x : List Nat) : (s.setAtsOn x).flags = s.flags := rfl
@[simp] theorem State.out_setAtsOn (x : List Nat) : (s.setAtsOn x).out = s.out := rfl
@[simp] theorem State.events_setAtsOn (x : List Nat) : (s.setAtsOn x).events = s.events := rfl
@[simp] theorem State.bad_setAtsOn (x : List Nat) : (s.setAtsOn x).bad = s.bad := rfl
@[simp] theorem State.poison_setAtsOn (x : List Nat) : (s.setAtsOn x).poison = s.poison := rfl
@[simp] theorem State.cache_setAtsOn (x : List Nat) : (s.setAtsOn x).cache = s.cache := rfl
@[simp] theorem State.watch_setAtsOn (x : List Nat) : (s.setAtsOn x).watch = s.watch := rfl
@[simp] theorem State.flash_setAtsOn (x : List Nat) : (s.setAtsOn x).flash = s.flash := rfl
@[simp] theorem State.flashDown_setAtsOn (x : List Nat) : (s.setAtsOn x).flashDown = s.flashDown := rfl
@[simp] theorem State.ports_setAtsOn (x : List Nat) : (s.setAtsOn x).ports = s.ports := rfl
@[simp] theorem State.inbox_setAtsOn (x : List Nat) : (s.setAtsOn x).inbox = s.inbox := rfl
@[simp] theorem State.fellows_setAtsOn (x : List Nat) : (s.setAtsOn x).fellows = s.fellows := rfl
@[simp] theorem State.pfc_setAtsOn (x : List Nat) : (s.setAtsOn x).pfc = s.pfc := rfl
@[simp] theorem State.reqs_setAtsOn (x : List Nat) : (s.setAtsOn x).reqs = s.reqs := rfl
@[simp] theorem State.serial_setAtsOn (x : List Nat) : (s.setAtsOn x).serial = s.serial := rfl
@[simp] theorem State.tag_setAtsOn (x : List Nat) : (s.setAtsOn x).tag = s.tag := rfl
@[simp] theorem State.chans_setAtsOn (x : List Nat) : (s.setAtsOn x).chans = s.chans := rfl
@[simp] theorem State.feeds_setAtsOn (x : List Nat) : (s.setAtsOn x).feeds = s.feeds := rfl
@[simp] theorem State.fences_setAtsOn (x : List Nat) : (s.setAtsOn x).fences = s.fences := rfl
@[simp] theorem State.recoveries_setAtsOn (x : List Nat) : (s.setAtsOn x).recoveries = s.recoveries := rfl
@[simp] theorem State.gviews_setAtsOn (x : List Nat) : (s.setAtsOn x).gviews = s.gviews := rfl
@[simp] theorem State.reds_setAtsOn (x : List Nat) : (s.setAtsOn x).reds = s.reds := rfl
@[simp] theorem State.redSeq_setAtsOn (x : List Nat) : (s.setAtsOn x).redSeq = s.redSeq := rfl
@[simp] theorem State.redRings_setAtsOn (x : List Nat) : (s.setAtsOn x).redRings = s.redRings := rfl
@[simp] theorem State.jobs_setAtsOn (x : List Nat) : (s.setAtsOn x).jobs = s.jobs := rfl
@[simp] theorem State.traceBufs_setAtsOn (x : List Nat) : (s.setAtsOn x).traceBufs = s.traceBufs := rfl
@[simp] theorem State.traceTurn_setAtsOn (x : List Nat) : (s.setAtsOn x).traceTurn = s.traceTurn := rfl
@[simp] theorem State.dm_setAtsOn (x : List Nat) : (s.setAtsOn x).dm = s.dm := rfl
@[simp] theorem State.posted_setAtsOn (x : List Nat) : (s.setAtsOn x).posted = s.posted := rfl
@[simp] theorem State.referee_setAtsOn (x : List Nat) : (s.setAtsOn x).referee = s.referee := rfl
@[simp] theorem State.power_setAtsOn (x : List Nat) : (s.setAtsOn x).power = s.power := rfl
@[simp] theorem State.freeCount_setAtsOn (x : List Nat) : (s.setAtsOn x).freeCount = s.freeCount := rfl
@[simp] theorem State.lines_setAtsOn (x : List Nat) : (s.setAtsOn x).lines = s.lines := rfl
@[simp] theorem State.hartCsr_setAtsOn (x : List Nat) : (s.setAtsOn x).hartCsr = s.hartCsr := rfl
@[simp] theorem State.msix_setAtsOn (x : List Nat) : (s.setAtsOn x).msix = s.msix := rfl
@[simp] theorem State.msixCtl_setAtsOn (x : List Nat) : (s.setAtsOn x).msixCtl = s.msixCtl := rfl
@[simp] theorem State.hartFull_setAtsOn (x : List Nat) : (s.setAtsOn x).hartFull = s.hartFull := rfl
@[simp] theorem State.pending_setHartFull (x : List Nat) : (s.setHartFull x).pending = s.pending := rfl
@[simp] theorem State.dtime_setHartFull (x : List Nat) : (s.setHartFull x).dtime = s.dtime := rfl
@[simp] theorem State.regs_setHartFull (x : List Nat) : (s.setHartFull x).regs = s.regs := rfl
@[simp] theorem State.mem_setHartFull (x : List Nat) : (s.setHartFull x).mem = s.mem := rfl
@[simp] theorem State.hostMem_setHartFull (x : List Nat) : (s.setHartFull x).hostMem = s.hostMem := rfl
@[simp] theorem State.book_setHartFull (x : List Nat) : (s.setHartFull x).book = s.book := rfl
@[simp] theorem State.learned_setHartFull (x : List Nat) : (s.setHartFull x).learned = s.learned := rfl
@[simp] theorem State.benched_setHartFull (x : List Nat) : (s.setHartFull x).benched = s.benched := rfl
@[simp] theorem State.cores_setHartFull (x : List Nat) : (s.setHartFull x).cores = s.cores := rfl
@[simp] theorem State.sync_setHartFull (x : List Nat) : (s.setHartFull x).sync = s.sync := rfl
@[simp] theorem State.waitOrder_setHartFull (x : List Nat) : (s.setHartFull x).waitOrder = s.waitOrder := rfl
@[simp] theorem State.signals_setHartFull (x : List Nat) : (s.setHartFull x).signals = s.signals := rfl
@[simp] theorem State.dispatch_setHartFull (x : List Nat) : (s.setHartFull x).dispatch = s.dispatch := rfl
@[simp] theorem State.segOrder_setHartFull (x : List Nat) : (s.setHartFull x).segOrder = s.segOrder := rfl
@[simp] theorem State.streams_setHartFull (x : List Nat) : (s.setHartFull x).streams = s.streams := rfl
@[simp] theorem State.rings_setHartFull (x : List Nat) : (s.setHartFull x).rings = s.rings := rfl
@[simp] theorem State.heads_setHartFull (x : List Nat) : (s.setHartFull x).heads = s.heads := rfl
@[simp] theorem State.haltAt_setHartFull (x : List Nat) : (s.setHartFull x).haltAt = s.haltAt := rfl
@[simp] theorem State.heldHeads_setHartFull (x : List Nat) : (s.setHartFull x).heldHeads = s.heldHeads := rfl
@[simp] theorem State.queues_setHartFull (x : List Nat) : (s.setHartFull x).queues = s.queues := rfl
@[simp] theorem State.atsOn_setHartFull (x : List Nat) : (s.setHartFull x).atsOn = s.atsOn := rfl
@[simp] theorem State.atc_setHartFull (x : List Nat) : (s.setHartFull x).atc = s.atc := rfl
@[simp] theorem State.lowPower_setHartFull (x : List Nat) : (s.setHartFull x).lowPower = s.lowPower := rfl
@[simp] theorem State.flags_setHartFull (x : List Nat) : (s.setHartFull x).flags = s.flags := rfl
@[simp] theorem State.out_setHartFull (x : List Nat) : (s.setHartFull x).out = s.out := rfl
@[simp] theorem State.events_setHartFull (x : List Nat) : (s.setHartFull x).events = s.events := rfl
@[simp] theorem State.bad_setHartFull (x : List Nat) : (s.setHartFull x).bad = s.bad := rfl
@[simp] theorem State.poison_setHartFull (x : List Nat) : (s.setHartFull x).poison = s.poison := rfl
@[simp] theorem State.cache_setHartFull (x : List Nat) : (s.setHartFull x).cache = s.cache := rfl
@[simp] theorem State.watch_setHartFull (x : List Nat) : (s.setHartFull x).watch = s.watch := rfl
@[simp] theorem State.flash_setHartFull (x : List Nat) : (s.setHartFull x).flash = s.flash := rfl
@[simp] theorem State.flashDown_setHartFull (x : List Nat) : (s.setHartFull x).flashDown = s.flashDown := rfl
@[simp] theorem State.ports_setHartFull (x : List Nat) : (s.setHartFull x).ports = s.ports := rfl
@[simp] theorem State.inbox_setHartFull (x : List Nat) : (s.setHartFull x).inbox = s.inbox := rfl
@[simp] theorem State.fellows_setHartFull (x : List Nat) : (s.setHartFull x).fellows = s.fellows := rfl
@[simp] theorem State.pfc_setHartFull (x : List Nat) : (s.setHartFull x).pfc = s.pfc := rfl
@[simp] theorem State.reqs_setHartFull (x : List Nat) : (s.setHartFull x).reqs = s.reqs := rfl
@[simp] theorem State.serial_setHartFull (x : List Nat) : (s.setHartFull x).serial = s.serial := rfl
@[simp] theorem State.tag_setHartFull (x : List Nat) : (s.setHartFull x).tag = s.tag := rfl
@[simp] theorem State.chans_setHartFull (x : List Nat) : (s.setHartFull x).chans = s.chans := rfl
@[simp] theorem State.feeds_setHartFull (x : List Nat) : (s.setHartFull x).feeds = s.feeds := rfl
@[simp] theorem State.fences_setHartFull (x : List Nat) : (s.setHartFull x).fences = s.fences := rfl
@[simp] theorem State.recoveries_setHartFull (x : List Nat) : (s.setHartFull x).recoveries = s.recoveries := rfl
@[simp] theorem State.gviews_setHartFull (x : List Nat) : (s.setHartFull x).gviews = s.gviews := rfl
@[simp] theorem State.reds_setHartFull (x : List Nat) : (s.setHartFull x).reds = s.reds := rfl
@[simp] theorem State.redSeq_setHartFull (x : List Nat) : (s.setHartFull x).redSeq = s.redSeq := rfl
@[simp] theorem State.redRings_setHartFull (x : List Nat) : (s.setHartFull x).redRings = s.redRings := rfl
@[simp] theorem State.jobs_setHartFull (x : List Nat) : (s.setHartFull x).jobs = s.jobs := rfl
@[simp] theorem State.traceBufs_setHartFull (x : List Nat) : (s.setHartFull x).traceBufs = s.traceBufs := rfl
@[simp] theorem State.traceTurn_setHartFull (x : List Nat) : (s.setHartFull x).traceTurn = s.traceTurn := rfl
@[simp] theorem State.dm_setHartFull (x : List Nat) : (s.setHartFull x).dm = s.dm := rfl
@[simp] theorem State.posted_setHartFull (x : List Nat) : (s.setHartFull x).posted = s.posted := rfl
@[simp] theorem State.referee_setHartFull (x : List Nat) : (s.setHartFull x).referee = s.referee := rfl
@[simp] theorem State.power_setHartFull (x : List Nat) : (s.setHartFull x).power = s.power := rfl
@[simp] theorem State.freeCount_setHartFull (x : List Nat) : (s.setHartFull x).freeCount = s.freeCount := rfl
@[simp] theorem State.lines_setHartFull (x : List Nat) : (s.setHartFull x).lines = s.lines := rfl
@[simp] theorem State.hartCsr_setHartFull (x : List Nat) : (s.setHartFull x).hartCsr = s.hartCsr := rfl
@[simp] theorem State.msix_setHartFull (x : List Nat) : (s.setHartFull x).msix = s.msix := rfl
@[simp] theorem State.msixCtl_setHartFull (x : List Nat) : (s.setHartFull x).msixCtl = s.msixCtl := rfl
@[simp] theorem State.hartFull_setHartFull (x : List Nat) : (s.setHartFull x).hartFull = x := rfl
@[simp] theorem State.pending_setReg (a : Nat) (v : Word) : (s.setReg a v).pending = s.pending := rfl
@[simp] theorem State.dtime_setReg (a : Nat) (v : Word) : (s.setReg a v).dtime = s.dtime := rfl
@[simp] theorem State.mem_setReg (a : Nat) (v : Word) : (s.setReg a v).mem = s.mem := rfl
@[simp] theorem State.hostMem_setReg (a : Nat) (v : Word) : (s.setReg a v).hostMem = s.hostMem := rfl
@[simp] theorem State.book_setReg (a : Nat) (v : Word) : (s.setReg a v).book = s.book := rfl
@[simp] theorem State.learned_setReg (a : Nat) (v : Word) : (s.setReg a v).learned = s.learned := rfl
@[simp] theorem State.benched_setReg (a : Nat) (v : Word) : (s.setReg a v).benched = s.benched := rfl
@[simp] theorem State.cores_setReg (a : Nat) (v : Word) : (s.setReg a v).cores = s.cores := rfl
@[simp] theorem State.sync_setReg (a : Nat) (v : Word) : (s.setReg a v).sync = s.sync := rfl
@[simp] theorem State.waitOrder_setReg (a : Nat) (v : Word) : (s.setReg a v).waitOrder = s.waitOrder := rfl
@[simp] theorem State.signals_setReg (a : Nat) (v : Word) : (s.setReg a v).signals = s.signals := rfl
@[simp] theorem State.dispatch_setReg (a : Nat) (v : Word) : (s.setReg a v).dispatch = s.dispatch := rfl
@[simp] theorem State.segOrder_setReg (a : Nat) (v : Word) : (s.setReg a v).segOrder = s.segOrder := rfl
@[simp] theorem State.streams_setReg (a : Nat) (v : Word) : (s.setReg a v).streams = s.streams := rfl
@[simp] theorem State.rings_setReg (a : Nat) (v : Word) : (s.setReg a v).rings = s.rings := rfl
@[simp] theorem State.heads_setReg (a : Nat) (v : Word) : (s.setReg a v).heads = s.heads := rfl
@[simp] theorem State.haltAt_setReg (a : Nat) (v : Word) : (s.setReg a v).haltAt = s.haltAt := rfl
@[simp] theorem State.heldHeads_setReg (a : Nat) (v : Word) : (s.setReg a v).heldHeads = s.heldHeads := rfl
@[simp] theorem State.queues_setReg (a : Nat) (v : Word) : (s.setReg a v).queues = s.queues := rfl
@[simp] theorem State.atsOn_setReg (a : Nat) (v : Word) : (s.setReg a v).atsOn = s.atsOn := rfl
@[simp] theorem State.atc_setReg (a : Nat) (v : Word) : (s.setReg a v).atc = s.atc := rfl
@[simp] theorem State.lowPower_setReg (a : Nat) (v : Word) : (s.setReg a v).lowPower = s.lowPower := rfl
@[simp] theorem State.flags_setReg (a : Nat) (v : Word) : (s.setReg a v).flags = s.flags := rfl
@[simp] theorem State.out_setReg (a : Nat) (v : Word) : (s.setReg a v).out = s.out := rfl
@[simp] theorem State.events_setReg (a : Nat) (v : Word) : (s.setReg a v).events = s.events := rfl
@[simp] theorem State.bad_setReg (a : Nat) (v : Word) : (s.setReg a v).bad = s.bad := rfl
@[simp] theorem State.poison_setReg (a : Nat) (v : Word) : (s.setReg a v).poison = s.poison := rfl
@[simp] theorem State.cache_setReg (a : Nat) (v : Word) : (s.setReg a v).cache = s.cache := rfl
@[simp] theorem State.watch_setReg (a : Nat) (v : Word) : (s.setReg a v).watch = s.watch := rfl
@[simp] theorem State.flash_setReg (a : Nat) (v : Word) : (s.setReg a v).flash = s.flash := rfl
@[simp] theorem State.flashDown_setReg (a : Nat) (v : Word) : (s.setReg a v).flashDown = s.flashDown := rfl
@[simp] theorem State.ports_setReg (a : Nat) (v : Word) : (s.setReg a v).ports = s.ports := rfl
@[simp] theorem State.inbox_setReg (a : Nat) (v : Word) : (s.setReg a v).inbox = s.inbox := rfl
@[simp] theorem State.fellows_setReg (a : Nat) (v : Word) : (s.setReg a v).fellows = s.fellows := rfl
@[simp] theorem State.pfc_setReg (a : Nat) (v : Word) : (s.setReg a v).pfc = s.pfc := rfl
@[simp] theorem State.reqs_setReg (a : Nat) (v : Word) : (s.setReg a v).reqs = s.reqs := rfl
@[simp] theorem State.serial_setReg (a : Nat) (v : Word) : (s.setReg a v).serial = s.serial := rfl
@[simp] theorem State.tag_setReg (a : Nat) (v : Word) : (s.setReg a v).tag = s.tag := rfl
@[simp] theorem State.chans_setReg (a : Nat) (v : Word) : (s.setReg a v).chans = s.chans := rfl
@[simp] theorem State.feeds_setReg (a : Nat) (v : Word) : (s.setReg a v).feeds = s.feeds := rfl
@[simp] theorem State.fences_setReg (a : Nat) (v : Word) : (s.setReg a v).fences = s.fences := rfl
@[simp] theorem State.recoveries_setReg (a : Nat) (v : Word) : (s.setReg a v).recoveries = s.recoveries := rfl
@[simp] theorem State.gviews_setReg (a : Nat) (v : Word) : (s.setReg a v).gviews = s.gviews := rfl
@[simp] theorem State.reds_setReg (a : Nat) (v : Word) : (s.setReg a v).reds = s.reds := rfl
@[simp] theorem State.redSeq_setReg (a : Nat) (v : Word) : (s.setReg a v).redSeq = s.redSeq := rfl
@[simp] theorem State.redRings_setReg (a : Nat) (v : Word) : (s.setReg a v).redRings = s.redRings := rfl
@[simp] theorem State.jobs_setReg (a : Nat) (v : Word) : (s.setReg a v).jobs = s.jobs := rfl
@[simp] theorem State.traceBufs_setReg (a : Nat) (v : Word) : (s.setReg a v).traceBufs = s.traceBufs := rfl
@[simp] theorem State.traceTurn_setReg (a : Nat) (v : Word) : (s.setReg a v).traceTurn = s.traceTurn := rfl
@[simp] theorem State.dm_setReg (a : Nat) (v : Word) : (s.setReg a v).dm = s.dm := rfl
@[simp] theorem State.posted_setReg (a : Nat) (v : Word) : (s.setReg a v).posted = s.posted := rfl
@[simp] theorem State.referee_setReg (a : Nat) (v : Word) : (s.setReg a v).referee = s.referee := rfl
@[simp] theorem State.power_setReg (a : Nat) (v : Word) : (s.setReg a v).power = s.power := rfl
@[simp] theorem State.freeCount_setReg (a : Nat) (v : Word) : (s.setReg a v).freeCount = s.freeCount := rfl
@[simp] theorem State.lines_setReg (a : Nat) (v : Word) : (s.setReg a v).lines = s.lines := rfl
@[simp] theorem State.hartCsr_setReg (a : Nat) (v : Word) : (s.setReg a v).hartCsr = s.hartCsr := rfl
@[simp] theorem State.msix_setReg (a : Nat) (v : Word) : (s.setReg a v).msix = s.msix := rfl
@[simp] theorem State.msixCtl_setReg (a : Nat) (v : Word) : (s.setReg a v).msixCtl = s.msixCtl := rfl
@[simp] theorem State.hartFull_setReg (a : Nat) (v : Word) : (s.setReg a v).hartFull = s.hartFull := rfl
@[simp] theorem State.pending_wr (f : RF) (v : Nat) : (s.wr f v).pending = s.pending := rfl
@[simp] theorem State.dtime_wr (f : RF) (v : Nat) : (s.wr f v).dtime = s.dtime := rfl
@[simp] theorem State.mem_wr (f : RF) (v : Nat) : (s.wr f v).mem = s.mem := rfl
@[simp] theorem State.hostMem_wr (f : RF) (v : Nat) : (s.wr f v).hostMem = s.hostMem := rfl
@[simp] theorem State.book_wr (f : RF) (v : Nat) : (s.wr f v).book = s.book := rfl
@[simp] theorem State.learned_wr (f : RF) (v : Nat) : (s.wr f v).learned = s.learned := rfl
@[simp] theorem State.benched_wr (f : RF) (v : Nat) : (s.wr f v).benched = s.benched := rfl
@[simp] theorem State.cores_wr (f : RF) (v : Nat) : (s.wr f v).cores = s.cores := rfl
@[simp] theorem State.sync_wr (f : RF) (v : Nat) : (s.wr f v).sync = s.sync := rfl
@[simp] theorem State.waitOrder_wr (f : RF) (v : Nat) : (s.wr f v).waitOrder = s.waitOrder := rfl
@[simp] theorem State.signals_wr (f : RF) (v : Nat) : (s.wr f v).signals = s.signals := rfl
@[simp] theorem State.dispatch_wr (f : RF) (v : Nat) : (s.wr f v).dispatch = s.dispatch := rfl
@[simp] theorem State.segOrder_wr (f : RF) (v : Nat) : (s.wr f v).segOrder = s.segOrder := rfl
@[simp] theorem State.streams_wr (f : RF) (v : Nat) : (s.wr f v).streams = s.streams := rfl
@[simp] theorem State.rings_wr (f : RF) (v : Nat) : (s.wr f v).rings = s.rings := rfl
@[simp] theorem State.heads_wr (f : RF) (v : Nat) : (s.wr f v).heads = s.heads := rfl
@[simp] theorem State.haltAt_wr (f : RF) (v : Nat) : (s.wr f v).haltAt = s.haltAt := rfl
@[simp] theorem State.heldHeads_wr (f : RF) (v : Nat) : (s.wr f v).heldHeads = s.heldHeads := rfl
@[simp] theorem State.queues_wr (f : RF) (v : Nat) : (s.wr f v).queues = s.queues := rfl
@[simp] theorem State.atsOn_wr (f : RF) (v : Nat) : (s.wr f v).atsOn = s.atsOn := rfl
@[simp] theorem State.atc_wr (f : RF) (v : Nat) : (s.wr f v).atc = s.atc := rfl
@[simp] theorem State.lowPower_wr (f : RF) (v : Nat) : (s.wr f v).lowPower = s.lowPower := rfl
@[simp] theorem State.flags_wr (f : RF) (v : Nat) : (s.wr f v).flags = s.flags := rfl
@[simp] theorem State.out_wr (f : RF) (v : Nat) : (s.wr f v).out = s.out := rfl
@[simp] theorem State.events_wr (f : RF) (v : Nat) : (s.wr f v).events = s.events := rfl
@[simp] theorem State.bad_wr (f : RF) (v : Nat) : (s.wr f v).bad = s.bad := rfl
@[simp] theorem State.poison_wr (f : RF) (v : Nat) : (s.wr f v).poison = s.poison := rfl
@[simp] theorem State.cache_wr (f : RF) (v : Nat) : (s.wr f v).cache = s.cache := rfl
@[simp] theorem State.watch_wr (f : RF) (v : Nat) : (s.wr f v).watch = s.watch := rfl
@[simp] theorem State.flash_wr (f : RF) (v : Nat) : (s.wr f v).flash = s.flash := rfl
@[simp] theorem State.flashDown_wr (f : RF) (v : Nat) : (s.wr f v).flashDown = s.flashDown := rfl
@[simp] theorem State.ports_wr (f : RF) (v : Nat) : (s.wr f v).ports = s.ports := rfl
@[simp] theorem State.inbox_wr (f : RF) (v : Nat) : (s.wr f v).inbox = s.inbox := rfl
@[simp] theorem State.fellows_wr (f : RF) (v : Nat) : (s.wr f v).fellows = s.fellows := rfl
@[simp] theorem State.pfc_wr (f : RF) (v : Nat) : (s.wr f v).pfc = s.pfc := rfl
@[simp] theorem State.reqs_wr (f : RF) (v : Nat) : (s.wr f v).reqs = s.reqs := rfl
@[simp] theorem State.serial_wr (f : RF) (v : Nat) : (s.wr f v).serial = s.serial := rfl
@[simp] theorem State.tag_wr (f : RF) (v : Nat) : (s.wr f v).tag = s.tag := rfl
@[simp] theorem State.chans_wr (f : RF) (v : Nat) : (s.wr f v).chans = s.chans := rfl
@[simp] theorem State.feeds_wr (f : RF) (v : Nat) : (s.wr f v).feeds = s.feeds := rfl
@[simp] theorem State.fences_wr (f : RF) (v : Nat) : (s.wr f v).fences = s.fences := rfl
@[simp] theorem State.recoveries_wr (f : RF) (v : Nat) : (s.wr f v).recoveries = s.recoveries := rfl
@[simp] theorem State.gviews_wr (f : RF) (v : Nat) : (s.wr f v).gviews = s.gviews := rfl
@[simp] theorem State.reds_wr (f : RF) (v : Nat) : (s.wr f v).reds = s.reds := rfl
@[simp] theorem State.redSeq_wr (f : RF) (v : Nat) : (s.wr f v).redSeq = s.redSeq := rfl
@[simp] theorem State.redRings_wr (f : RF) (v : Nat) : (s.wr f v).redRings = s.redRings := rfl
@[simp] theorem State.jobs_wr (f : RF) (v : Nat) : (s.wr f v).jobs = s.jobs := rfl
@[simp] theorem State.traceBufs_wr (f : RF) (v : Nat) : (s.wr f v).traceBufs = s.traceBufs := rfl
@[simp] theorem State.traceTurn_wr (f : RF) (v : Nat) : (s.wr f v).traceTurn = s.traceTurn := rfl
@[simp] theorem State.dm_wr (f : RF) (v : Nat) : (s.wr f v).dm = s.dm := rfl
@[simp] theorem State.posted_wr (f : RF) (v : Nat) : (s.wr f v).posted = s.posted := rfl
@[simp] theorem State.referee_wr (f : RF) (v : Nat) : (s.wr f v).referee = s.referee := rfl
@[simp] theorem State.power_wr (f : RF) (v : Nat) : (s.wr f v).power = s.power := rfl
@[simp] theorem State.freeCount_wr (f : RF) (v : Nat) : (s.wr f v).freeCount = s.freeCount := rfl
@[simp] theorem State.lines_wr (f : RF) (v : Nat) : (s.wr f v).lines = s.lines := rfl
@[simp] theorem State.hartCsr_wr (f : RF) (v : Nat) : (s.wr f v).hartCsr = s.hartCsr := rfl
@[simp] theorem State.msix_wr (f : RF) (v : Nat) : (s.wr f v).msix = s.msix := rfl
@[simp] theorem State.msixCtl_wr (f : RF) (v : Nat) : (s.wr f v).msixCtl = s.msixCtl := rfl
@[simp] theorem State.hartFull_wr (f : RF) (v : Nat) : (s.wr f v).hartFull = s.hartFull := rfl
@[simp] theorem State.pending_setCore (c : Nat) (k : Core) : (s.setCore c k).pending = s.pending := rfl
@[simp] theorem State.dtime_setCore (c : Nat) (k : Core) : (s.setCore c k).dtime = s.dtime := rfl
@[simp] theorem State.regs_setCore (c : Nat) (k : Core) : (s.setCore c k).regs = s.regs := rfl
@[simp] theorem State.mem_setCore (c : Nat) (k : Core) : (s.setCore c k).mem = s.mem := rfl
@[simp] theorem State.hostMem_setCore (c : Nat) (k : Core) : (s.setCore c k).hostMem = s.hostMem := rfl
@[simp] theorem State.book_setCore (c : Nat) (k : Core) : (s.setCore c k).book = s.book := rfl
@[simp] theorem State.learned_setCore (c : Nat) (k : Core) : (s.setCore c k).learned = s.learned := rfl
@[simp] theorem State.benched_setCore (c : Nat) (k : Core) : (s.setCore c k).benched = s.benched := rfl
@[simp] theorem State.sync_setCore (c : Nat) (k : Core) : (s.setCore c k).sync = s.sync := rfl
@[simp] theorem State.waitOrder_setCore (c : Nat) (k : Core) : (s.setCore c k).waitOrder = s.waitOrder := rfl
@[simp] theorem State.signals_setCore (c : Nat) (k : Core) : (s.setCore c k).signals = s.signals := rfl
@[simp] theorem State.dispatch_setCore (c : Nat) (k : Core) : (s.setCore c k).dispatch = s.dispatch := rfl
@[simp] theorem State.segOrder_setCore (c : Nat) (k : Core) : (s.setCore c k).segOrder = s.segOrder := rfl
@[simp] theorem State.streams_setCore (c : Nat) (k : Core) : (s.setCore c k).streams = s.streams := rfl
@[simp] theorem State.rings_setCore (c : Nat) (k : Core) : (s.setCore c k).rings = s.rings := rfl
@[simp] theorem State.heads_setCore (c : Nat) (k : Core) : (s.setCore c k).heads = s.heads := rfl
@[simp] theorem State.haltAt_setCore (c : Nat) (k : Core) : (s.setCore c k).haltAt = s.haltAt := rfl
@[simp] theorem State.heldHeads_setCore (c : Nat) (k : Core) : (s.setCore c k).heldHeads = s.heldHeads := rfl
@[simp] theorem State.queues_setCore (c : Nat) (k : Core) : (s.setCore c k).queues = s.queues := rfl
@[simp] theorem State.atsOn_setCore (c : Nat) (k : Core) : (s.setCore c k).atsOn = s.atsOn := rfl
@[simp] theorem State.atc_setCore (c : Nat) (k : Core) : (s.setCore c k).atc = s.atc := rfl
@[simp] theorem State.lowPower_setCore (c : Nat) (k : Core) : (s.setCore c k).lowPower = s.lowPower := rfl
@[simp] theorem State.flags_setCore (c : Nat) (k : Core) : (s.setCore c k).flags = s.flags := rfl
@[simp] theorem State.out_setCore (c : Nat) (k : Core) : (s.setCore c k).out = s.out := rfl
@[simp] theorem State.events_setCore (c : Nat) (k : Core) : (s.setCore c k).events = s.events := rfl
@[simp] theorem State.bad_setCore (c : Nat) (k : Core) : (s.setCore c k).bad = s.bad := rfl
@[simp] theorem State.poison_setCore (c : Nat) (k : Core) : (s.setCore c k).poison = s.poison := rfl
@[simp] theorem State.cache_setCore (c : Nat) (k : Core) : (s.setCore c k).cache = s.cache := rfl
@[simp] theorem State.watch_setCore (c : Nat) (k : Core) : (s.setCore c k).watch = s.watch := rfl
@[simp] theorem State.flash_setCore (c : Nat) (k : Core) : (s.setCore c k).flash = s.flash := rfl
@[simp] theorem State.flashDown_setCore (c : Nat) (k : Core) : (s.setCore c k).flashDown = s.flashDown := rfl
@[simp] theorem State.ports_setCore (c : Nat) (k : Core) : (s.setCore c k).ports = s.ports := rfl
@[simp] theorem State.inbox_setCore (c : Nat) (k : Core) : (s.setCore c k).inbox = s.inbox := rfl
@[simp] theorem State.fellows_setCore (c : Nat) (k : Core) : (s.setCore c k).fellows = s.fellows := rfl
@[simp] theorem State.pfc_setCore (c : Nat) (k : Core) : (s.setCore c k).pfc = s.pfc := rfl
@[simp] theorem State.reqs_setCore (c : Nat) (k : Core) : (s.setCore c k).reqs = s.reqs := rfl
@[simp] theorem State.serial_setCore (c : Nat) (k : Core) : (s.setCore c k).serial = s.serial := rfl
@[simp] theorem State.tag_setCore (c : Nat) (k : Core) : (s.setCore c k).tag = s.tag := rfl
@[simp] theorem State.chans_setCore (c : Nat) (k : Core) : (s.setCore c k).chans = s.chans := rfl
@[simp] theorem State.feeds_setCore (c : Nat) (k : Core) : (s.setCore c k).feeds = s.feeds := rfl
@[simp] theorem State.fences_setCore (c : Nat) (k : Core) : (s.setCore c k).fences = s.fences := rfl
@[simp] theorem State.recoveries_setCore (c : Nat) (k : Core) : (s.setCore c k).recoveries = s.recoveries := rfl
@[simp] theorem State.gviews_setCore (c : Nat) (k : Core) : (s.setCore c k).gviews = s.gviews := rfl
@[simp] theorem State.reds_setCore (c : Nat) (k : Core) : (s.setCore c k).reds = s.reds := rfl
@[simp] theorem State.redSeq_setCore (c : Nat) (k : Core) : (s.setCore c k).redSeq = s.redSeq := rfl
@[simp] theorem State.redRings_setCore (c : Nat) (k : Core) : (s.setCore c k).redRings = s.redRings := rfl
@[simp] theorem State.jobs_setCore (c : Nat) (k : Core) : (s.setCore c k).jobs = s.jobs := rfl
@[simp] theorem State.traceBufs_setCore (c : Nat) (k : Core) : (s.setCore c k).traceBufs = s.traceBufs := rfl
@[simp] theorem State.traceTurn_setCore (c : Nat) (k : Core) : (s.setCore c k).traceTurn = s.traceTurn := rfl
@[simp] theorem State.dm_setCore (c : Nat) (k : Core) : (s.setCore c k).dm = s.dm := rfl
@[simp] theorem State.posted_setCore (c : Nat) (k : Core) : (s.setCore c k).posted = s.posted := rfl
@[simp] theorem State.referee_setCore (c : Nat) (k : Core) : (s.setCore c k).referee = s.referee := rfl
@[simp] theorem State.power_setCore (c : Nat) (k : Core) : (s.setCore c k).power = s.power := rfl
@[simp] theorem State.freeCount_setCore (c : Nat) (k : Core) : (s.setCore c k).freeCount = s.freeCount := rfl
@[simp] theorem State.lines_setCore (c : Nat) (k : Core) : (s.setCore c k).lines = s.lines := rfl
@[simp] theorem State.hartCsr_setCore (c : Nat) (k : Core) : (s.setCore c k).hartCsr = s.hartCsr := rfl
@[simp] theorem State.msix_setCore (c : Nat) (k : Core) : (s.setCore c k).msix = s.msix := rfl
@[simp] theorem State.msixCtl_setCore (c : Nat) (k : Core) : (s.setCore c k).msixCtl = s.msixCtl := rfl
@[simp] theorem State.hartFull_setCore (c : Nat) (k : Core) : (s.setCore c k).hartFull = s.hartFull := rfl
@[simp] theorem State.pending_modCore (c : Nat) (g : Core → Core) : (s.modCore c g).pending = s.pending := rfl
@[simp] theorem State.dtime_modCore (c : Nat) (g : Core → Core) : (s.modCore c g).dtime = s.dtime := rfl
@[simp] theorem State.regs_modCore (c : Nat) (g : Core → Core) : (s.modCore c g).regs = s.regs := rfl
@[simp] theorem State.mem_modCore (c : Nat) (g : Core → Core) : (s.modCore c g).mem = s.mem := rfl
@[simp] theorem State.hostMem_modCore (c : Nat) (g : Core → Core) : (s.modCore c g).hostMem = s.hostMem := rfl
@[simp] theorem State.book_modCore (c : Nat) (g : Core → Core) : (s.modCore c g).book = s.book := rfl
@[simp] theorem State.learned_modCore (c : Nat) (g : Core → Core) : (s.modCore c g).learned = s.learned := rfl
@[simp] theorem State.benched_modCore (c : Nat) (g : Core → Core) : (s.modCore c g).benched = s.benched := rfl
@[simp] theorem State.sync_modCore (c : Nat) (g : Core → Core) : (s.modCore c g).sync = s.sync := rfl
@[simp] theorem State.waitOrder_modCore (c : Nat) (g : Core → Core) : (s.modCore c g).waitOrder = s.waitOrder := rfl
@[simp] theorem State.signals_modCore (c : Nat) (g : Core → Core) : (s.modCore c g).signals = s.signals := rfl
@[simp] theorem State.dispatch_modCore (c : Nat) (g : Core → Core) : (s.modCore c g).dispatch = s.dispatch := rfl
@[simp] theorem State.segOrder_modCore (c : Nat) (g : Core → Core) : (s.modCore c g).segOrder = s.segOrder := rfl
@[simp] theorem State.streams_modCore (c : Nat) (g : Core → Core) : (s.modCore c g).streams = s.streams := rfl
@[simp] theorem State.rings_modCore (c : Nat) (g : Core → Core) : (s.modCore c g).rings = s.rings := rfl
@[simp] theorem State.heads_modCore (c : Nat) (g : Core → Core) : (s.modCore c g).heads = s.heads := rfl
@[simp] theorem State.haltAt_modCore (c : Nat) (g : Core → Core) : (s.modCore c g).haltAt = s.haltAt := rfl
@[simp] theorem State.heldHeads_modCore (c : Nat) (g : Core → Core) : (s.modCore c g).heldHeads = s.heldHeads := rfl
@[simp] theorem State.queues_modCore (c : Nat) (g : Core → Core) : (s.modCore c g).queues = s.queues := rfl
@[simp] theorem State.atsOn_modCore (c : Nat) (g : Core → Core) : (s.modCore c g).atsOn = s.atsOn := rfl
@[simp] theorem State.atc_modCore (c : Nat) (g : Core → Core) : (s.modCore c g).atc = s.atc := rfl
@[simp] theorem State.lowPower_modCore (c : Nat) (g : Core → Core) : (s.modCore c g).lowPower = s.lowPower := rfl
@[simp] theorem State.flags_modCore (c : Nat) (g : Core → Core) : (s.modCore c g).flags = s.flags := rfl
@[simp] theorem State.out_modCore (c : Nat) (g : Core → Core) : (s.modCore c g).out = s.out := rfl
@[simp] theorem State.events_modCore (c : Nat) (g : Core → Core) : (s.modCore c g).events = s.events := rfl
@[simp] theorem State.bad_modCore (c : Nat) (g : Core → Core) : (s.modCore c g).bad = s.bad := rfl
@[simp] theorem State.poison_modCore (c : Nat) (g : Core → Core) : (s.modCore c g).poison = s.poison := rfl
@[simp] theorem State.cache_modCore (c : Nat) (g : Core → Core) : (s.modCore c g).cache = s.cache := rfl
@[simp] theorem State.watch_modCore (c : Nat) (g : Core → Core) : (s.modCore c g).watch = s.watch := rfl
@[simp] theorem State.flash_modCore (c : Nat) (g : Core → Core) : (s.modCore c g).flash = s.flash := rfl
@[simp] theorem State.flashDown_modCore (c : Nat) (g : Core → Core) : (s.modCore c g).flashDown = s.flashDown := rfl
@[simp] theorem State.ports_modCore (c : Nat) (g : Core → Core) : (s.modCore c g).ports = s.ports := rfl
@[simp] theorem State.inbox_modCore (c : Nat) (g : Core → Core) : (s.modCore c g).inbox = s.inbox := rfl
@[simp] theorem State.fellows_modCore (c : Nat) (g : Core → Core) : (s.modCore c g).fellows = s.fellows := rfl
@[simp] theorem State.pfc_modCore (c : Nat) (g : Core → Core) : (s.modCore c g).pfc = s.pfc := rfl
@[simp] theorem State.reqs_modCore (c : Nat) (g : Core → Core) : (s.modCore c g).reqs = s.reqs := rfl
@[simp] theorem State.serial_modCore (c : Nat) (g : Core → Core) : (s.modCore c g).serial = s.serial := rfl
@[simp] theorem State.tag_modCore (c : Nat) (g : Core → Core) : (s.modCore c g).tag = s.tag := rfl
@[simp] theorem State.chans_modCore (c : Nat) (g : Core → Core) : (s.modCore c g).chans = s.chans := rfl
@[simp] theorem State.feeds_modCore (c : Nat) (g : Core → Core) : (s.modCore c g).feeds = s.feeds := rfl
@[simp] theorem State.fences_modCore (c : Nat) (g : Core → Core) : (s.modCore c g).fences = s.fences := rfl
@[simp] theorem State.recoveries_modCore (c : Nat) (g : Core → Core) : (s.modCore c g).recoveries = s.recoveries := rfl
@[simp] theorem State.gviews_modCore (c : Nat) (g : Core → Core) : (s.modCore c g).gviews = s.gviews := rfl
@[simp] theorem State.reds_modCore (c : Nat) (g : Core → Core) : (s.modCore c g).reds = s.reds := rfl
@[simp] theorem State.redSeq_modCore (c : Nat) (g : Core → Core) : (s.modCore c g).redSeq = s.redSeq := rfl
@[simp] theorem State.redRings_modCore (c : Nat) (g : Core → Core) : (s.modCore c g).redRings = s.redRings := rfl
@[simp] theorem State.jobs_modCore (c : Nat) (g : Core → Core) : (s.modCore c g).jobs = s.jobs := rfl
@[simp] theorem State.traceBufs_modCore (c : Nat) (g : Core → Core) : (s.modCore c g).traceBufs = s.traceBufs := rfl
@[simp] theorem State.traceTurn_modCore (c : Nat) (g : Core → Core) : (s.modCore c g).traceTurn = s.traceTurn := rfl
@[simp] theorem State.dm_modCore (c : Nat) (g : Core → Core) : (s.modCore c g).dm = s.dm := rfl
@[simp] theorem State.posted_modCore (c : Nat) (g : Core → Core) : (s.modCore c g).posted = s.posted := rfl
@[simp] theorem State.referee_modCore (c : Nat) (g : Core → Core) : (s.modCore c g).referee = s.referee := rfl
@[simp] theorem State.power_modCore (c : Nat) (g : Core → Core) : (s.modCore c g).power = s.power := rfl
@[simp] theorem State.freeCount_modCore (c : Nat) (g : Core → Core) : (s.modCore c g).freeCount = s.freeCount := rfl
@[simp] theorem State.lines_modCore (c : Nat) (g : Core → Core) : (s.modCore c g).lines = s.lines := rfl
@[simp] theorem State.hartCsr_modCore (c : Nat) (g : Core → Core) : (s.modCore c g).hartCsr = s.hartCsr := rfl
@[simp] theorem State.msix_modCore (c : Nat) (g : Core → Core) : (s.modCore c g).msix = s.msix := rfl
@[simp] theorem State.msixCtl_modCore (c : Nat) (g : Core → Core) : (s.modCore c g).msixCtl = s.msixCtl := rfl
@[simp] theorem State.hartFull_modCore (c : Nat) (g : Core → Core) : (s.modCore c g).hartFull = s.hartFull := rfl
@[simp] theorem State.pending_setEntry (c k : Nat) (e : Entry) : (s.setEntry c k e).pending = s.pending := rfl
@[simp] theorem State.dtime_setEntry (c k : Nat) (e : Entry) : (s.setEntry c k e).dtime = s.dtime := rfl
@[simp] theorem State.regs_setEntry (c k : Nat) (e : Entry) : (s.setEntry c k e).regs = s.regs := rfl
@[simp] theorem State.mem_setEntry (c k : Nat) (e : Entry) : (s.setEntry c k e).mem = s.mem := rfl
@[simp] theorem State.hostMem_setEntry (c k : Nat) (e : Entry) : (s.setEntry c k e).hostMem = s.hostMem := rfl
@[simp] theorem State.learned_setEntry (c k : Nat) (e : Entry) : (s.setEntry c k e).learned = s.learned := rfl
@[simp] theorem State.benched_setEntry (c k : Nat) (e : Entry) : (s.setEntry c k e).benched = s.benched := rfl
@[simp] theorem State.cores_setEntry (c k : Nat) (e : Entry) : (s.setEntry c k e).cores = s.cores := rfl
@[simp] theorem State.sync_setEntry (c k : Nat) (e : Entry) : (s.setEntry c k e).sync = s.sync := rfl
@[simp] theorem State.waitOrder_setEntry (c k : Nat) (e : Entry) : (s.setEntry c k e).waitOrder = s.waitOrder := rfl
@[simp] theorem State.signals_setEntry (c k : Nat) (e : Entry) : (s.setEntry c k e).signals = s.signals := rfl
@[simp] theorem State.dispatch_setEntry (c k : Nat) (e : Entry) : (s.setEntry c k e).dispatch = s.dispatch := rfl
@[simp] theorem State.segOrder_setEntry (c k : Nat) (e : Entry) : (s.setEntry c k e).segOrder = s.segOrder := rfl
@[simp] theorem State.streams_setEntry (c k : Nat) (e : Entry) : (s.setEntry c k e).streams = s.streams := rfl
@[simp] theorem State.rings_setEntry (c k : Nat) (e : Entry) : (s.setEntry c k e).rings = s.rings := rfl
@[simp] theorem State.heads_setEntry (c k : Nat) (e : Entry) : (s.setEntry c k e).heads = s.heads := rfl
@[simp] theorem State.haltAt_setEntry (c k : Nat) (e : Entry) : (s.setEntry c k e).haltAt = s.haltAt := rfl
@[simp] theorem State.heldHeads_setEntry (c k : Nat) (e : Entry) : (s.setEntry c k e).heldHeads = s.heldHeads := rfl
@[simp] theorem State.queues_setEntry (c k : Nat) (e : Entry) : (s.setEntry c k e).queues = s.queues := rfl
@[simp] theorem State.atsOn_setEntry (c k : Nat) (e : Entry) : (s.setEntry c k e).atsOn = s.atsOn := rfl
@[simp] theorem State.atc_setEntry (c k : Nat) (e : Entry) : (s.setEntry c k e).atc = s.atc := rfl
@[simp] theorem State.lowPower_setEntry (c k : Nat) (e : Entry) : (s.setEntry c k e).lowPower = s.lowPower := rfl
@[simp] theorem State.flags_setEntry (c k : Nat) (e : Entry) : (s.setEntry c k e).flags = s.flags := rfl
@[simp] theorem State.out_setEntry (c k : Nat) (e : Entry) : (s.setEntry c k e).out = s.out := rfl
@[simp] theorem State.events_setEntry (c k : Nat) (e : Entry) : (s.setEntry c k e).events = s.events := rfl
@[simp] theorem State.bad_setEntry (c k : Nat) (e : Entry) : (s.setEntry c k e).bad = s.bad := rfl
@[simp] theorem State.poison_setEntry (c k : Nat) (e : Entry) : (s.setEntry c k e).poison = s.poison := rfl
@[simp] theorem State.cache_setEntry (c k : Nat) (e : Entry) : (s.setEntry c k e).cache = s.cache := rfl
@[simp] theorem State.watch_setEntry (c k : Nat) (e : Entry) : (s.setEntry c k e).watch = s.watch := rfl
@[simp] theorem State.flash_setEntry (c k : Nat) (e : Entry) : (s.setEntry c k e).flash = s.flash := rfl
@[simp] theorem State.flashDown_setEntry (c k : Nat) (e : Entry) : (s.setEntry c k e).flashDown = s.flashDown := rfl
@[simp] theorem State.ports_setEntry (c k : Nat) (e : Entry) : (s.setEntry c k e).ports = s.ports := rfl
@[simp] theorem State.inbox_setEntry (c k : Nat) (e : Entry) : (s.setEntry c k e).inbox = s.inbox := rfl
@[simp] theorem State.fellows_setEntry (c k : Nat) (e : Entry) : (s.setEntry c k e).fellows = s.fellows := rfl
@[simp] theorem State.pfc_setEntry (c k : Nat) (e : Entry) : (s.setEntry c k e).pfc = s.pfc := rfl
@[simp] theorem State.reqs_setEntry (c k : Nat) (e : Entry) : (s.setEntry c k e).reqs = s.reqs := rfl
@[simp] theorem State.serial_setEntry (c k : Nat) (e : Entry) : (s.setEntry c k e).serial = s.serial := rfl
@[simp] theorem State.tag_setEntry (c k : Nat) (e : Entry) : (s.setEntry c k e).tag = s.tag := rfl
@[simp] theorem State.chans_setEntry (c k : Nat) (e : Entry) : (s.setEntry c k e).chans = s.chans := rfl
@[simp] theorem State.feeds_setEntry (c k : Nat) (e : Entry) : (s.setEntry c k e).feeds = s.feeds := rfl
@[simp] theorem State.fences_setEntry (c k : Nat) (e : Entry) : (s.setEntry c k e).fences = s.fences := rfl
@[simp] theorem State.recoveries_setEntry (c k : Nat) (e : Entry) : (s.setEntry c k e).recoveries = s.recoveries := rfl
@[simp] theorem State.gviews_setEntry (c k : Nat) (e : Entry) : (s.setEntry c k e).gviews = s.gviews := rfl
@[simp] theorem State.reds_setEntry (c k : Nat) (e : Entry) : (s.setEntry c k e).reds = s.reds := rfl
@[simp] theorem State.redSeq_setEntry (c k : Nat) (e : Entry) : (s.setEntry c k e).redSeq = s.redSeq := rfl
@[simp] theorem State.redRings_setEntry (c k : Nat) (e : Entry) : (s.setEntry c k e).redRings = s.redRings := rfl
@[simp] theorem State.jobs_setEntry (c k : Nat) (e : Entry) : (s.setEntry c k e).jobs = s.jobs := rfl
@[simp] theorem State.traceBufs_setEntry (c k : Nat) (e : Entry) : (s.setEntry c k e).traceBufs = s.traceBufs := rfl
@[simp] theorem State.traceTurn_setEntry (c k : Nat) (e : Entry) : (s.setEntry c k e).traceTurn = s.traceTurn := rfl
@[simp] theorem State.dm_setEntry (c k : Nat) (e : Entry) : (s.setEntry c k e).dm = s.dm := rfl
@[simp] theorem State.posted_setEntry (c k : Nat) (e : Entry) : (s.setEntry c k e).posted = s.posted := rfl
@[simp] theorem State.referee_setEntry (c k : Nat) (e : Entry) : (s.setEntry c k e).referee = s.referee := rfl
@[simp] theorem State.power_setEntry (c k : Nat) (e : Entry) : (s.setEntry c k e).power = s.power := rfl
@[simp] theorem State.freeCount_setEntry (c k : Nat) (e : Entry) : (s.setEntry c k e).freeCount = s.freeCount := rfl
@[simp] theorem State.lines_setEntry (c k : Nat) (e : Entry) : (s.setEntry c k e).lines = s.lines := rfl
@[simp] theorem State.hartCsr_setEntry (c k : Nat) (e : Entry) : (s.setEntry c k e).hartCsr = s.hartCsr := rfl
@[simp] theorem State.msix_setEntry (c k : Nat) (e : Entry) : (s.setEntry c k e).msix = s.msix := rfl
@[simp] theorem State.msixCtl_setEntry (c k : Nat) (e : Entry) : (s.setEntry c k e).msixCtl = s.msixCtl := rfl
@[simp] theorem State.hartFull_setEntry (c k : Nat) (e : Entry) : (s.setEntry c k e).hartFull = s.hartFull := rfl
@[simp] theorem State.pending_setHostBytes (a : Nat) (l : List (BitVec 8)) : (s.setHostBytes a l).pending = s.pending := rfl
@[simp] theorem State.dtime_setHostBytes (a : Nat) (l : List (BitVec 8)) : (s.setHostBytes a l).dtime = s.dtime := rfl
@[simp] theorem State.regs_setHostBytes (a : Nat) (l : List (BitVec 8)) : (s.setHostBytes a l).regs = s.regs := rfl
@[simp] theorem State.mem_setHostBytes (a : Nat) (l : List (BitVec 8)) : (s.setHostBytes a l).mem = s.mem := rfl
@[simp] theorem State.book_setHostBytes (a : Nat) (l : List (BitVec 8)) : (s.setHostBytes a l).book = s.book := rfl
@[simp] theorem State.learned_setHostBytes (a : Nat) (l : List (BitVec 8)) : (s.setHostBytes a l).learned = s.learned := rfl
@[simp] theorem State.benched_setHostBytes (a : Nat) (l : List (BitVec 8)) : (s.setHostBytes a l).benched = s.benched := rfl
@[simp] theorem State.cores_setHostBytes (a : Nat) (l : List (BitVec 8)) : (s.setHostBytes a l).cores = s.cores := rfl
@[simp] theorem State.sync_setHostBytes (a : Nat) (l : List (BitVec 8)) : (s.setHostBytes a l).sync = s.sync := rfl
@[simp] theorem State.waitOrder_setHostBytes (a : Nat) (l : List (BitVec 8)) : (s.setHostBytes a l).waitOrder = s.waitOrder := rfl
@[simp] theorem State.signals_setHostBytes (a : Nat) (l : List (BitVec 8)) : (s.setHostBytes a l).signals = s.signals := rfl
@[simp] theorem State.dispatch_setHostBytes (a : Nat) (l : List (BitVec 8)) : (s.setHostBytes a l).dispatch = s.dispatch := rfl
@[simp] theorem State.segOrder_setHostBytes (a : Nat) (l : List (BitVec 8)) : (s.setHostBytes a l).segOrder = s.segOrder := rfl
@[simp] theorem State.streams_setHostBytes (a : Nat) (l : List (BitVec 8)) : (s.setHostBytes a l).streams = s.streams := rfl
@[simp] theorem State.rings_setHostBytes (a : Nat) (l : List (BitVec 8)) : (s.setHostBytes a l).rings = s.rings := rfl
@[simp] theorem State.heads_setHostBytes (a : Nat) (l : List (BitVec 8)) : (s.setHostBytes a l).heads = s.heads := rfl
@[simp] theorem State.haltAt_setHostBytes (a : Nat) (l : List (BitVec 8)) : (s.setHostBytes a l).haltAt = s.haltAt := rfl
@[simp] theorem State.heldHeads_setHostBytes (a : Nat) (l : List (BitVec 8)) : (s.setHostBytes a l).heldHeads = s.heldHeads := rfl
@[simp] theorem State.queues_setHostBytes (a : Nat) (l : List (BitVec 8)) : (s.setHostBytes a l).queues = s.queues := rfl
@[simp] theorem State.atsOn_setHostBytes (a : Nat) (l : List (BitVec 8)) : (s.setHostBytes a l).atsOn = s.atsOn := rfl
@[simp] theorem State.atc_setHostBytes (a : Nat) (l : List (BitVec 8)) : (s.setHostBytes a l).atc = s.atc := rfl
@[simp] theorem State.lowPower_setHostBytes (a : Nat) (l : List (BitVec 8)) : (s.setHostBytes a l).lowPower = s.lowPower := rfl
@[simp] theorem State.flags_setHostBytes (a : Nat) (l : List (BitVec 8)) : (s.setHostBytes a l).flags = s.flags := rfl
@[simp] theorem State.out_setHostBytes (a : Nat) (l : List (BitVec 8)) : (s.setHostBytes a l).out = s.out := rfl
@[simp] theorem State.events_setHostBytes (a : Nat) (l : List (BitVec 8)) : (s.setHostBytes a l).events = s.events := rfl
@[simp] theorem State.bad_setHostBytes (a : Nat) (l : List (BitVec 8)) : (s.setHostBytes a l).bad = s.bad := rfl
@[simp] theorem State.poison_setHostBytes (a : Nat) (l : List (BitVec 8)) : (s.setHostBytes a l).poison = s.poison := rfl
@[simp] theorem State.cache_setHostBytes (a : Nat) (l : List (BitVec 8)) : (s.setHostBytes a l).cache = s.cache := rfl
@[simp] theorem State.watch_setHostBytes (a : Nat) (l : List (BitVec 8)) : (s.setHostBytes a l).watch = s.watch := rfl
@[simp] theorem State.flash_setHostBytes (a : Nat) (l : List (BitVec 8)) : (s.setHostBytes a l).flash = s.flash := rfl
@[simp] theorem State.flashDown_setHostBytes (a : Nat) (l : List (BitVec 8)) : (s.setHostBytes a l).flashDown = s.flashDown := rfl
@[simp] theorem State.ports_setHostBytes (a : Nat) (l : List (BitVec 8)) : (s.setHostBytes a l).ports = s.ports := rfl
@[simp] theorem State.inbox_setHostBytes (a : Nat) (l : List (BitVec 8)) : (s.setHostBytes a l).inbox = s.inbox := rfl
@[simp] theorem State.fellows_setHostBytes (a : Nat) (l : List (BitVec 8)) : (s.setHostBytes a l).fellows = s.fellows := rfl
@[simp] theorem State.pfc_setHostBytes (a : Nat) (l : List (BitVec 8)) : (s.setHostBytes a l).pfc = s.pfc := rfl
@[simp] theorem State.reqs_setHostBytes (a : Nat) (l : List (BitVec 8)) : (s.setHostBytes a l).reqs = s.reqs := rfl
@[simp] theorem State.serial_setHostBytes (a : Nat) (l : List (BitVec 8)) : (s.setHostBytes a l).serial = s.serial := rfl
@[simp] theorem State.tag_setHostBytes (a : Nat) (l : List (BitVec 8)) : (s.setHostBytes a l).tag = s.tag := rfl
@[simp] theorem State.chans_setHostBytes (a : Nat) (l : List (BitVec 8)) : (s.setHostBytes a l).chans = s.chans := rfl
@[simp] theorem State.feeds_setHostBytes (a : Nat) (l : List (BitVec 8)) : (s.setHostBytes a l).feeds = s.feeds := rfl
@[simp] theorem State.fences_setHostBytes (a : Nat) (l : List (BitVec 8)) : (s.setHostBytes a l).fences = s.fences := rfl
@[simp] theorem State.recoveries_setHostBytes (a : Nat) (l : List (BitVec 8)) : (s.setHostBytes a l).recoveries = s.recoveries := rfl
@[simp] theorem State.gviews_setHostBytes (a : Nat) (l : List (BitVec 8)) : (s.setHostBytes a l).gviews = s.gviews := rfl
@[simp] theorem State.reds_setHostBytes (a : Nat) (l : List (BitVec 8)) : (s.setHostBytes a l).reds = s.reds := rfl
@[simp] theorem State.redSeq_setHostBytes (a : Nat) (l : List (BitVec 8)) : (s.setHostBytes a l).redSeq = s.redSeq := rfl
@[simp] theorem State.redRings_setHostBytes (a : Nat) (l : List (BitVec 8)) : (s.setHostBytes a l).redRings = s.redRings := rfl
@[simp] theorem State.jobs_setHostBytes (a : Nat) (l : List (BitVec 8)) : (s.setHostBytes a l).jobs = s.jobs := rfl
@[simp] theorem State.traceBufs_setHostBytes (a : Nat) (l : List (BitVec 8)) : (s.setHostBytes a l).traceBufs = s.traceBufs := rfl
@[simp] theorem State.traceTurn_setHostBytes (a : Nat) (l : List (BitVec 8)) : (s.setHostBytes a l).traceTurn = s.traceTurn := rfl
@[simp] theorem State.dm_setHostBytes (a : Nat) (l : List (BitVec 8)) : (s.setHostBytes a l).dm = s.dm := rfl
@[simp] theorem State.posted_setHostBytes (a : Nat) (l : List (BitVec 8)) : (s.setHostBytes a l).posted = s.posted := rfl
@[simp] theorem State.referee_setHostBytes (a : Nat) (l : List (BitVec 8)) : (s.setHostBytes a l).referee = s.referee := rfl
@[simp] theorem State.power_setHostBytes (a : Nat) (l : List (BitVec 8)) : (s.setHostBytes a l).power = s.power := rfl
@[simp] theorem State.freeCount_setHostBytes (a : Nat) (l : List (BitVec 8)) : (s.setHostBytes a l).freeCount = s.freeCount := rfl
@[simp] theorem State.lines_setHostBytes (a : Nat) (l : List (BitVec 8)) : (s.setHostBytes a l).lines = s.lines := rfl
@[simp] theorem State.hartCsr_setHostBytes (a : Nat) (l : List (BitVec 8)) : (s.setHostBytes a l).hartCsr = s.hartCsr := rfl
@[simp] theorem State.msix_setHostBytes (a : Nat) (l : List (BitVec 8)) : (s.setHostBytes a l).msix = s.msix := rfl
@[simp] theorem State.msixCtl_setHostBytes (a : Nat) (l : List (BitVec 8)) : (s.setHostBytes a l).msixCtl = s.msixCtl := rfl
@[simp] theorem State.hartFull_setHostBytes (a : Nat) (l : List (BitVec 8)) : (s.setHostBytes a l).hartFull = s.hartFull := rfl
@[simp] theorem State.pending_raiseAs (code : Code) (sev unit part pay : Nat) : (s.raiseAs code sev unit part pay).pending = s.pending := rfl
@[simp] theorem State.dtime_raiseAs (code : Code) (sev unit part pay : Nat) : (s.raiseAs code sev unit part pay).dtime = s.dtime := rfl
@[simp] theorem State.regs_raiseAs (code : Code) (sev unit part pay : Nat) : (s.raiseAs code sev unit part pay).regs = s.regs := rfl
@[simp] theorem State.mem_raiseAs (code : Code) (sev unit part pay : Nat) : (s.raiseAs code sev unit part pay).mem = s.mem := rfl
@[simp] theorem State.hostMem_raiseAs (code : Code) (sev unit part pay : Nat) : (s.raiseAs code sev unit part pay).hostMem = s.hostMem := rfl
@[simp] theorem State.book_raiseAs (code : Code) (sev unit part pay : Nat) : (s.raiseAs code sev unit part pay).book = s.book := rfl
@[simp] theorem State.learned_raiseAs (code : Code) (sev unit part pay : Nat) : (s.raiseAs code sev unit part pay).learned = s.learned := rfl
@[simp] theorem State.benched_raiseAs (code : Code) (sev unit part pay : Nat) : (s.raiseAs code sev unit part pay).benched = s.benched := rfl
@[simp] theorem State.cores_raiseAs (code : Code) (sev unit part pay : Nat) : (s.raiseAs code sev unit part pay).cores = s.cores := rfl
@[simp] theorem State.sync_raiseAs (code : Code) (sev unit part pay : Nat) : (s.raiseAs code sev unit part pay).sync = s.sync := rfl
@[simp] theorem State.waitOrder_raiseAs (code : Code) (sev unit part pay : Nat) : (s.raiseAs code sev unit part pay).waitOrder = s.waitOrder := rfl
@[simp] theorem State.signals_raiseAs (code : Code) (sev unit part pay : Nat) : (s.raiseAs code sev unit part pay).signals = s.signals := rfl
@[simp] theorem State.dispatch_raiseAs (code : Code) (sev unit part pay : Nat) : (s.raiseAs code sev unit part pay).dispatch = s.dispatch := rfl
@[simp] theorem State.segOrder_raiseAs (code : Code) (sev unit part pay : Nat) : (s.raiseAs code sev unit part pay).segOrder = s.segOrder := rfl
@[simp] theorem State.streams_raiseAs (code : Code) (sev unit part pay : Nat) : (s.raiseAs code sev unit part pay).streams = s.streams := rfl
@[simp] theorem State.rings_raiseAs (code : Code) (sev unit part pay : Nat) : (s.raiseAs code sev unit part pay).rings = s.rings := rfl
@[simp] theorem State.heads_raiseAs (code : Code) (sev unit part pay : Nat) : (s.raiseAs code sev unit part pay).heads = s.heads := rfl
@[simp] theorem State.haltAt_raiseAs (code : Code) (sev unit part pay : Nat) : (s.raiseAs code sev unit part pay).haltAt = s.haltAt := rfl
@[simp] theorem State.heldHeads_raiseAs (code : Code) (sev unit part pay : Nat) : (s.raiseAs code sev unit part pay).heldHeads = s.heldHeads := rfl
@[simp] theorem State.queues_raiseAs (code : Code) (sev unit part pay : Nat) : (s.raiseAs code sev unit part pay).queues = s.queues := rfl
@[simp] theorem State.atsOn_raiseAs (code : Code) (sev unit part pay : Nat) : (s.raiseAs code sev unit part pay).atsOn = s.atsOn := rfl
@[simp] theorem State.atc_raiseAs (code : Code) (sev unit part pay : Nat) : (s.raiseAs code sev unit part pay).atc = s.atc := rfl
@[simp] theorem State.lowPower_raiseAs (code : Code) (sev unit part pay : Nat) : (s.raiseAs code sev unit part pay).lowPower = s.lowPower := rfl
@[simp] theorem State.flags_raiseAs (code : Code) (sev unit part pay : Nat) : (s.raiseAs code sev unit part pay).flags = s.flags := rfl
@[simp] theorem State.out_raiseAs (code : Code) (sev unit part pay : Nat) : (s.raiseAs code sev unit part pay).out = s.out := rfl
@[simp] theorem State.bad_raiseAs (code : Code) (sev unit part pay : Nat) : (s.raiseAs code sev unit part pay).bad = s.bad := rfl
@[simp] theorem State.poison_raiseAs (code : Code) (sev unit part pay : Nat) : (s.raiseAs code sev unit part pay).poison = s.poison := rfl
@[simp] theorem State.cache_raiseAs (code : Code) (sev unit part pay : Nat) : (s.raiseAs code sev unit part pay).cache = s.cache := rfl
@[simp] theorem State.watch_raiseAs (code : Code) (sev unit part pay : Nat) : (s.raiseAs code sev unit part pay).watch = s.watch := rfl
@[simp] theorem State.flash_raiseAs (code : Code) (sev unit part pay : Nat) : (s.raiseAs code sev unit part pay).flash = s.flash := rfl
@[simp] theorem State.flashDown_raiseAs (code : Code) (sev unit part pay : Nat) : (s.raiseAs code sev unit part pay).flashDown = s.flashDown := rfl
@[simp] theorem State.ports_raiseAs (code : Code) (sev unit part pay : Nat) : (s.raiseAs code sev unit part pay).ports = s.ports := rfl
@[simp] theorem State.inbox_raiseAs (code : Code) (sev unit part pay : Nat) : (s.raiseAs code sev unit part pay).inbox = s.inbox := rfl
@[simp] theorem State.fellows_raiseAs (code : Code) (sev unit part pay : Nat) : (s.raiseAs code sev unit part pay).fellows = s.fellows := rfl
@[simp] theorem State.pfc_raiseAs (code : Code) (sev unit part pay : Nat) : (s.raiseAs code sev unit part pay).pfc = s.pfc := rfl
@[simp] theorem State.reqs_raiseAs (code : Code) (sev unit part pay : Nat) : (s.raiseAs code sev unit part pay).reqs = s.reqs := rfl
@[simp] theorem State.serial_raiseAs (code : Code) (sev unit part pay : Nat) : (s.raiseAs code sev unit part pay).serial = s.serial := rfl
@[simp] theorem State.tag_raiseAs (code : Code) (sev unit part pay : Nat) : (s.raiseAs code sev unit part pay).tag = s.tag := rfl
@[simp] theorem State.chans_raiseAs (code : Code) (sev unit part pay : Nat) : (s.raiseAs code sev unit part pay).chans = s.chans := rfl
@[simp] theorem State.feeds_raiseAs (code : Code) (sev unit part pay : Nat) : (s.raiseAs code sev unit part pay).feeds = s.feeds := rfl
@[simp] theorem State.fences_raiseAs (code : Code) (sev unit part pay : Nat) : (s.raiseAs code sev unit part pay).fences = s.fences := rfl
@[simp] theorem State.recoveries_raiseAs (code : Code) (sev unit part pay : Nat) : (s.raiseAs code sev unit part pay).recoveries = s.recoveries := rfl
@[simp] theorem State.gviews_raiseAs (code : Code) (sev unit part pay : Nat) : (s.raiseAs code sev unit part pay).gviews = s.gviews := rfl
@[simp] theorem State.reds_raiseAs (code : Code) (sev unit part pay : Nat) : (s.raiseAs code sev unit part pay).reds = s.reds := rfl
@[simp] theorem State.redSeq_raiseAs (code : Code) (sev unit part pay : Nat) : (s.raiseAs code sev unit part pay).redSeq = s.redSeq := rfl
@[simp] theorem State.redRings_raiseAs (code : Code) (sev unit part pay : Nat) : (s.raiseAs code sev unit part pay).redRings = s.redRings := rfl
@[simp] theorem State.jobs_raiseAs (code : Code) (sev unit part pay : Nat) : (s.raiseAs code sev unit part pay).jobs = s.jobs := rfl
@[simp] theorem State.traceBufs_raiseAs (code : Code) (sev unit part pay : Nat) : (s.raiseAs code sev unit part pay).traceBufs = s.traceBufs := rfl
@[simp] theorem State.traceTurn_raiseAs (code : Code) (sev unit part pay : Nat) : (s.raiseAs code sev unit part pay).traceTurn = s.traceTurn := rfl
@[simp] theorem State.dm_raiseAs (code : Code) (sev unit part pay : Nat) : (s.raiseAs code sev unit part pay).dm = s.dm := rfl
@[simp] theorem State.posted_raiseAs (code : Code) (sev unit part pay : Nat) : (s.raiseAs code sev unit part pay).posted = s.posted := rfl
@[simp] theorem State.referee_raiseAs (code : Code) (sev unit part pay : Nat) : (s.raiseAs code sev unit part pay).referee = s.referee := rfl
@[simp] theorem State.power_raiseAs (code : Code) (sev unit part pay : Nat) : (s.raiseAs code sev unit part pay).power = s.power := rfl
@[simp] theorem State.freeCount_raiseAs (code : Code) (sev unit part pay : Nat) : (s.raiseAs code sev unit part pay).freeCount = s.freeCount := rfl
@[simp] theorem State.lines_raiseAs (code : Code) (sev unit part pay : Nat) : (s.raiseAs code sev unit part pay).lines = s.lines := rfl
@[simp] theorem State.hartCsr_raiseAs (code : Code) (sev unit part pay : Nat) : (s.raiseAs code sev unit part pay).hartCsr = s.hartCsr := rfl
@[simp] theorem State.msix_raiseAs (code : Code) (sev unit part pay : Nat) : (s.raiseAs code sev unit part pay).msix = s.msix := rfl
@[simp] theorem State.msixCtl_raiseAs (code : Code) (sev unit part pay : Nat) : (s.raiseAs code sev unit part pay).msixCtl = s.msixCtl := rfl
@[simp] theorem State.hartFull_raiseAs (code : Code) (sev unit part pay : Nat) : (s.raiseAs code sev unit part pay).hartFull = s.hartFull := rfl
@[simp] theorem State.pending_raise (code : Code) (unit part pay : Nat) : (s.raise code unit part pay).pending = s.pending := rfl
@[simp] theorem State.dtime_raise (code : Code) (unit part pay : Nat) : (s.raise code unit part pay).dtime = s.dtime := rfl
@[simp] theorem State.regs_raise (code : Code) (unit part pay : Nat) : (s.raise code unit part pay).regs = s.regs := rfl
@[simp] theorem State.mem_raise (code : Code) (unit part pay : Nat) : (s.raise code unit part pay).mem = s.mem := rfl
@[simp] theorem State.hostMem_raise (code : Code) (unit part pay : Nat) : (s.raise code unit part pay).hostMem = s.hostMem := rfl
@[simp] theorem State.book_raise (code : Code) (unit part pay : Nat) : (s.raise code unit part pay).book = s.book := rfl
@[simp] theorem State.learned_raise (code : Code) (unit part pay : Nat) : (s.raise code unit part pay).learned = s.learned := rfl
@[simp] theorem State.benched_raise (code : Code) (unit part pay : Nat) : (s.raise code unit part pay).benched = s.benched := rfl
@[simp] theorem State.cores_raise (code : Code) (unit part pay : Nat) : (s.raise code unit part pay).cores = s.cores := rfl
@[simp] theorem State.sync_raise (code : Code) (unit part pay : Nat) : (s.raise code unit part pay).sync = s.sync := rfl
@[simp] theorem State.waitOrder_raise (code : Code) (unit part pay : Nat) : (s.raise code unit part pay).waitOrder = s.waitOrder := rfl
@[simp] theorem State.signals_raise (code : Code) (unit part pay : Nat) : (s.raise code unit part pay).signals = s.signals := rfl
@[simp] theorem State.dispatch_raise (code : Code) (unit part pay : Nat) : (s.raise code unit part pay).dispatch = s.dispatch := rfl
@[simp] theorem State.segOrder_raise (code : Code) (unit part pay : Nat) : (s.raise code unit part pay).segOrder = s.segOrder := rfl
@[simp] theorem State.streams_raise (code : Code) (unit part pay : Nat) : (s.raise code unit part pay).streams = s.streams := rfl
@[simp] theorem State.rings_raise (code : Code) (unit part pay : Nat) : (s.raise code unit part pay).rings = s.rings := rfl
@[simp] theorem State.heads_raise (code : Code) (unit part pay : Nat) : (s.raise code unit part pay).heads = s.heads := rfl
@[simp] theorem State.haltAt_raise (code : Code) (unit part pay : Nat) : (s.raise code unit part pay).haltAt = s.haltAt := rfl
@[simp] theorem State.heldHeads_raise (code : Code) (unit part pay : Nat) : (s.raise code unit part pay).heldHeads = s.heldHeads := rfl
@[simp] theorem State.queues_raise (code : Code) (unit part pay : Nat) : (s.raise code unit part pay).queues = s.queues := rfl
@[simp] theorem State.atsOn_raise (code : Code) (unit part pay : Nat) : (s.raise code unit part pay).atsOn = s.atsOn := rfl
@[simp] theorem State.atc_raise (code : Code) (unit part pay : Nat) : (s.raise code unit part pay).atc = s.atc := rfl
@[simp] theorem State.lowPower_raise (code : Code) (unit part pay : Nat) : (s.raise code unit part pay).lowPower = s.lowPower := rfl
@[simp] theorem State.flags_raise (code : Code) (unit part pay : Nat) : (s.raise code unit part pay).flags = s.flags := rfl
@[simp] theorem State.out_raise (code : Code) (unit part pay : Nat) : (s.raise code unit part pay).out = s.out := rfl
@[simp] theorem State.bad_raise (code : Code) (unit part pay : Nat) : (s.raise code unit part pay).bad = s.bad := rfl
@[simp] theorem State.poison_raise (code : Code) (unit part pay : Nat) : (s.raise code unit part pay).poison = s.poison := rfl
@[simp] theorem State.cache_raise (code : Code) (unit part pay : Nat) : (s.raise code unit part pay).cache = s.cache := rfl
@[simp] theorem State.watch_raise (code : Code) (unit part pay : Nat) : (s.raise code unit part pay).watch = s.watch := rfl
@[simp] theorem State.flash_raise (code : Code) (unit part pay : Nat) : (s.raise code unit part pay).flash = s.flash := rfl
@[simp] theorem State.flashDown_raise (code : Code) (unit part pay : Nat) : (s.raise code unit part pay).flashDown = s.flashDown := rfl
@[simp] theorem State.ports_raise (code : Code) (unit part pay : Nat) : (s.raise code unit part pay).ports = s.ports := rfl
@[simp] theorem State.inbox_raise (code : Code) (unit part pay : Nat) : (s.raise code unit part pay).inbox = s.inbox := rfl
@[simp] theorem State.fellows_raise (code : Code) (unit part pay : Nat) : (s.raise code unit part pay).fellows = s.fellows := rfl
@[simp] theorem State.pfc_raise (code : Code) (unit part pay : Nat) : (s.raise code unit part pay).pfc = s.pfc := rfl
@[simp] theorem State.reqs_raise (code : Code) (unit part pay : Nat) : (s.raise code unit part pay).reqs = s.reqs := rfl
@[simp] theorem State.serial_raise (code : Code) (unit part pay : Nat) : (s.raise code unit part pay).serial = s.serial := rfl
@[simp] theorem State.tag_raise (code : Code) (unit part pay : Nat) : (s.raise code unit part pay).tag = s.tag := rfl
@[simp] theorem State.chans_raise (code : Code) (unit part pay : Nat) : (s.raise code unit part pay).chans = s.chans := rfl
@[simp] theorem State.feeds_raise (code : Code) (unit part pay : Nat) : (s.raise code unit part pay).feeds = s.feeds := rfl
@[simp] theorem State.fences_raise (code : Code) (unit part pay : Nat) : (s.raise code unit part pay).fences = s.fences := rfl
@[simp] theorem State.recoveries_raise (code : Code) (unit part pay : Nat) : (s.raise code unit part pay).recoveries = s.recoveries := rfl
@[simp] theorem State.gviews_raise (code : Code) (unit part pay : Nat) : (s.raise code unit part pay).gviews = s.gviews := rfl
@[simp] theorem State.reds_raise (code : Code) (unit part pay : Nat) : (s.raise code unit part pay).reds = s.reds := rfl
@[simp] theorem State.redSeq_raise (code : Code) (unit part pay : Nat) : (s.raise code unit part pay).redSeq = s.redSeq := rfl
@[simp] theorem State.redRings_raise (code : Code) (unit part pay : Nat) : (s.raise code unit part pay).redRings = s.redRings := rfl
@[simp] theorem State.jobs_raise (code : Code) (unit part pay : Nat) : (s.raise code unit part pay).jobs = s.jobs := rfl
@[simp] theorem State.traceBufs_raise (code : Code) (unit part pay : Nat) : (s.raise code unit part pay).traceBufs = s.traceBufs := rfl
@[simp] theorem State.traceTurn_raise (code : Code) (unit part pay : Nat) : (s.raise code unit part pay).traceTurn = s.traceTurn := rfl
@[simp] theorem State.dm_raise (code : Code) (unit part pay : Nat) : (s.raise code unit part pay).dm = s.dm := rfl
@[simp] theorem State.posted_raise (code : Code) (unit part pay : Nat) : (s.raise code unit part pay).posted = s.posted := rfl
@[simp] theorem State.referee_raise (code : Code) (unit part pay : Nat) : (s.raise code unit part pay).referee = s.referee := rfl
@[simp] theorem State.power_raise (code : Code) (unit part pay : Nat) : (s.raise code unit part pay).power = s.power := rfl
@[simp] theorem State.freeCount_raise (code : Code) (unit part pay : Nat) : (s.raise code unit part pay).freeCount = s.freeCount := rfl
@[simp] theorem State.lines_raise (code : Code) (unit part pay : Nat) : (s.raise code unit part pay).lines = s.lines := rfl
@[simp] theorem State.hartCsr_raise (code : Code) (unit part pay : Nat) : (s.raise code unit part pay).hartCsr = s.hartCsr := rfl
@[simp] theorem State.msix_raise (code : Code) (unit part pay : Nat) : (s.raise code unit part pay).msix = s.msix := rfl
@[simp] theorem State.msixCtl_raise (code : Code) (unit part pay : Nat) : (s.raise code unit part pay).msixCtl = s.msixCtl := rfl
@[simp] theorem State.hartFull_raise (code : Code) (unit part pay : Nat) : (s.raise code unit part pay).hartFull = s.hartFull := rfl
@[simp] theorem State.pending_raiseCore (code : Code) (c engine pay : Nat) : (s.raiseCore code c engine pay).pending = s.pending := rfl
@[simp] theorem State.dtime_raiseCore (code : Code) (c engine pay : Nat) : (s.raiseCore code c engine pay).dtime = s.dtime := rfl
@[simp] theorem State.regs_raiseCore (code : Code) (c engine pay : Nat) : (s.raiseCore code c engine pay).regs = s.regs := rfl
@[simp] theorem State.mem_raiseCore (code : Code) (c engine pay : Nat) : (s.raiseCore code c engine pay).mem = s.mem := rfl
@[simp] theorem State.hostMem_raiseCore (code : Code) (c engine pay : Nat) : (s.raiseCore code c engine pay).hostMem = s.hostMem := rfl
@[simp] theorem State.book_raiseCore (code : Code) (c engine pay : Nat) : (s.raiseCore code c engine pay).book = s.book := rfl
@[simp] theorem State.learned_raiseCore (code : Code) (c engine pay : Nat) : (s.raiseCore code c engine pay).learned = s.learned := rfl
@[simp] theorem State.benched_raiseCore (code : Code) (c engine pay : Nat) : (s.raiseCore code c engine pay).benched = s.benched := rfl
@[simp] theorem State.cores_raiseCore (code : Code) (c engine pay : Nat) : (s.raiseCore code c engine pay).cores = s.cores := rfl
@[simp] theorem State.sync_raiseCore (code : Code) (c engine pay : Nat) : (s.raiseCore code c engine pay).sync = s.sync := rfl
@[simp] theorem State.waitOrder_raiseCore (code : Code) (c engine pay : Nat) : (s.raiseCore code c engine pay).waitOrder = s.waitOrder := rfl
@[simp] theorem State.signals_raiseCore (code : Code) (c engine pay : Nat) : (s.raiseCore code c engine pay).signals = s.signals := rfl
@[simp] theorem State.dispatch_raiseCore (code : Code) (c engine pay : Nat) : (s.raiseCore code c engine pay).dispatch = s.dispatch := rfl
@[simp] theorem State.segOrder_raiseCore (code : Code) (c engine pay : Nat) : (s.raiseCore code c engine pay).segOrder = s.segOrder := rfl
@[simp] theorem State.streams_raiseCore (code : Code) (c engine pay : Nat) : (s.raiseCore code c engine pay).streams = s.streams := rfl
@[simp] theorem State.rings_raiseCore (code : Code) (c engine pay : Nat) : (s.raiseCore code c engine pay).rings = s.rings := rfl
@[simp] theorem State.heads_raiseCore (code : Code) (c engine pay : Nat) : (s.raiseCore code c engine pay).heads = s.heads := rfl
@[simp] theorem State.haltAt_raiseCore (code : Code) (c engine pay : Nat) : (s.raiseCore code c engine pay).haltAt = s.haltAt := rfl
@[simp] theorem State.heldHeads_raiseCore (code : Code) (c engine pay : Nat) : (s.raiseCore code c engine pay).heldHeads = s.heldHeads := rfl
@[simp] theorem State.queues_raiseCore (code : Code) (c engine pay : Nat) : (s.raiseCore code c engine pay).queues = s.queues := rfl
@[simp] theorem State.atsOn_raiseCore (code : Code) (c engine pay : Nat) : (s.raiseCore code c engine pay).atsOn = s.atsOn := rfl
@[simp] theorem State.atc_raiseCore (code : Code) (c engine pay : Nat) : (s.raiseCore code c engine pay).atc = s.atc := rfl
@[simp] theorem State.lowPower_raiseCore (code : Code) (c engine pay : Nat) : (s.raiseCore code c engine pay).lowPower = s.lowPower := rfl
@[simp] theorem State.flags_raiseCore (code : Code) (c engine pay : Nat) : (s.raiseCore code c engine pay).flags = s.flags := rfl
@[simp] theorem State.out_raiseCore (code : Code) (c engine pay : Nat) : (s.raiseCore code c engine pay).out = s.out := rfl
@[simp] theorem State.bad_raiseCore (code : Code) (c engine pay : Nat) : (s.raiseCore code c engine pay).bad = s.bad := rfl
@[simp] theorem State.poison_raiseCore (code : Code) (c engine pay : Nat) : (s.raiseCore code c engine pay).poison = s.poison := rfl
@[simp] theorem State.cache_raiseCore (code : Code) (c engine pay : Nat) : (s.raiseCore code c engine pay).cache = s.cache := rfl
@[simp] theorem State.watch_raiseCore (code : Code) (c engine pay : Nat) : (s.raiseCore code c engine pay).watch = s.watch := rfl
@[simp] theorem State.flash_raiseCore (code : Code) (c engine pay : Nat) : (s.raiseCore code c engine pay).flash = s.flash := rfl
@[simp] theorem State.flashDown_raiseCore (code : Code) (c engine pay : Nat) : (s.raiseCore code c engine pay).flashDown = s.flashDown := rfl
@[simp] theorem State.ports_raiseCore (code : Code) (c engine pay : Nat) : (s.raiseCore code c engine pay).ports = s.ports := rfl
@[simp] theorem State.inbox_raiseCore (code : Code) (c engine pay : Nat) : (s.raiseCore code c engine pay).inbox = s.inbox := rfl
@[simp] theorem State.fellows_raiseCore (code : Code) (c engine pay : Nat) : (s.raiseCore code c engine pay).fellows = s.fellows := rfl
@[simp] theorem State.pfc_raiseCore (code : Code) (c engine pay : Nat) : (s.raiseCore code c engine pay).pfc = s.pfc := rfl
@[simp] theorem State.reqs_raiseCore (code : Code) (c engine pay : Nat) : (s.raiseCore code c engine pay).reqs = s.reqs := rfl
@[simp] theorem State.serial_raiseCore (code : Code) (c engine pay : Nat) : (s.raiseCore code c engine pay).serial = s.serial := rfl
@[simp] theorem State.tag_raiseCore (code : Code) (c engine pay : Nat) : (s.raiseCore code c engine pay).tag = s.tag := rfl
@[simp] theorem State.chans_raiseCore (code : Code) (c engine pay : Nat) : (s.raiseCore code c engine pay).chans = s.chans := rfl
@[simp] theorem State.feeds_raiseCore (code : Code) (c engine pay : Nat) : (s.raiseCore code c engine pay).feeds = s.feeds := rfl
@[simp] theorem State.fences_raiseCore (code : Code) (c engine pay : Nat) : (s.raiseCore code c engine pay).fences = s.fences := rfl
@[simp] theorem State.recoveries_raiseCore (code : Code) (c engine pay : Nat) : (s.raiseCore code c engine pay).recoveries = s.recoveries := rfl
@[simp] theorem State.gviews_raiseCore (code : Code) (c engine pay : Nat) : (s.raiseCore code c engine pay).gviews = s.gviews := rfl
@[simp] theorem State.reds_raiseCore (code : Code) (c engine pay : Nat) : (s.raiseCore code c engine pay).reds = s.reds := rfl
@[simp] theorem State.redSeq_raiseCore (code : Code) (c engine pay : Nat) : (s.raiseCore code c engine pay).redSeq = s.redSeq := rfl
@[simp] theorem State.redRings_raiseCore (code : Code) (c engine pay : Nat) : (s.raiseCore code c engine pay).redRings = s.redRings := rfl
@[simp] theorem State.jobs_raiseCore (code : Code) (c engine pay : Nat) : (s.raiseCore code c engine pay).jobs = s.jobs := rfl
@[simp] theorem State.traceBufs_raiseCore (code : Code) (c engine pay : Nat) : (s.raiseCore code c engine pay).traceBufs = s.traceBufs := rfl
@[simp] theorem State.traceTurn_raiseCore (code : Code) (c engine pay : Nat) : (s.raiseCore code c engine pay).traceTurn = s.traceTurn := rfl
@[simp] theorem State.dm_raiseCore (code : Code) (c engine pay : Nat) : (s.raiseCore code c engine pay).dm = s.dm := rfl
@[simp] theorem State.posted_raiseCore (code : Code) (c engine pay : Nat) : (s.raiseCore code c engine pay).posted = s.posted := rfl
@[simp] theorem State.referee_raiseCore (code : Code) (c engine pay : Nat) : (s.raiseCore code c engine pay).referee = s.referee := rfl
@[simp] theorem State.power_raiseCore (code : Code) (c engine pay : Nat) : (s.raiseCore code c engine pay).power = s.power := rfl
@[simp] theorem State.freeCount_raiseCore (code : Code) (c engine pay : Nat) : (s.raiseCore code c engine pay).freeCount = s.freeCount := rfl
@[simp] theorem State.lines_raiseCore (code : Code) (c engine pay : Nat) : (s.raiseCore code c engine pay).lines = s.lines := rfl
@[simp] theorem State.hartCsr_raiseCore (code : Code) (c engine pay : Nat) : (s.raiseCore code c engine pay).hartCsr = s.hartCsr := rfl
@[simp] theorem State.msix_raiseCore (code : Code) (c engine pay : Nat) : (s.raiseCore code c engine pay).msix = s.msix := rfl
@[simp] theorem State.msixCtl_raiseCore (code : Code) (c engine pay : Nat) : (s.raiseCore code c engine pay).msixCtl = s.msixCtl := rfl
@[simp] theorem State.hartFull_raiseCore (code : Code) (c engine pay : Nat) : (s.raiseCore code c engine pay).hartFull = s.hartFull := rfl
@[simp] theorem State.pending_setObj (o : Nat) (x : SyncObj) : (s.setObj o x).pending = s.pending := rfl
@[simp] theorem State.dtime_setObj (o : Nat) (x : SyncObj) : (s.setObj o x).dtime = s.dtime := rfl
@[simp] theorem State.regs_setObj (o : Nat) (x : SyncObj) : (s.setObj o x).regs = s.regs := rfl
@[simp] theorem State.mem_setObj (o : Nat) (x : SyncObj) : (s.setObj o x).mem = s.mem := rfl
@[simp] theorem State.hostMem_setObj (o : Nat) (x : SyncObj) : (s.setObj o x).hostMem = s.hostMem := rfl
@[simp] theorem State.book_setObj (o : Nat) (x : SyncObj) : (s.setObj o x).book = s.book := rfl
@[simp] theorem State.learned_setObj (o : Nat) (x : SyncObj) : (s.setObj o x).learned = s.learned := rfl
@[simp] theorem State.benched_setObj (o : Nat) (x : SyncObj) : (s.setObj o x).benched = s.benched := rfl
@[simp] theorem State.cores_setObj (o : Nat) (x : SyncObj) : (s.setObj o x).cores = s.cores := rfl
@[simp] theorem State.waitOrder_setObj (o : Nat) (x : SyncObj) : (s.setObj o x).waitOrder = s.waitOrder := rfl
@[simp] theorem State.signals_setObj (o : Nat) (x : SyncObj) : (s.setObj o x).signals = s.signals := rfl
@[simp] theorem State.dispatch_setObj (o : Nat) (x : SyncObj) : (s.setObj o x).dispatch = s.dispatch := rfl
@[simp] theorem State.segOrder_setObj (o : Nat) (x : SyncObj) : (s.setObj o x).segOrder = s.segOrder := rfl
@[simp] theorem State.streams_setObj (o : Nat) (x : SyncObj) : (s.setObj o x).streams = s.streams := rfl
@[simp] theorem State.rings_setObj (o : Nat) (x : SyncObj) : (s.setObj o x).rings = s.rings := rfl
@[simp] theorem State.heads_setObj (o : Nat) (x : SyncObj) : (s.setObj o x).heads = s.heads := rfl
@[simp] theorem State.haltAt_setObj (o : Nat) (x : SyncObj) : (s.setObj o x).haltAt = s.haltAt := rfl
@[simp] theorem State.heldHeads_setObj (o : Nat) (x : SyncObj) : (s.setObj o x).heldHeads = s.heldHeads := rfl
@[simp] theorem State.queues_setObj (o : Nat) (x : SyncObj) : (s.setObj o x).queues = s.queues := rfl
@[simp] theorem State.atsOn_setObj (o : Nat) (x : SyncObj) : (s.setObj o x).atsOn = s.atsOn := rfl
@[simp] theorem State.atc_setObj (o : Nat) (x : SyncObj) : (s.setObj o x).atc = s.atc := rfl
@[simp] theorem State.lowPower_setObj (o : Nat) (x : SyncObj) : (s.setObj o x).lowPower = s.lowPower := rfl
@[simp] theorem State.flags_setObj (o : Nat) (x : SyncObj) : (s.setObj o x).flags = s.flags := rfl
@[simp] theorem State.out_setObj (o : Nat) (x : SyncObj) : (s.setObj o x).out = s.out := rfl
@[simp] theorem State.events_setObj (o : Nat) (x : SyncObj) : (s.setObj o x).events = s.events := rfl
@[simp] theorem State.bad_setObj (o : Nat) (x : SyncObj) : (s.setObj o x).bad = s.bad := rfl
@[simp] theorem State.poison_setObj (o : Nat) (x : SyncObj) : (s.setObj o x).poison = s.poison := rfl
@[simp] theorem State.cache_setObj (o : Nat) (x : SyncObj) : (s.setObj o x).cache = s.cache := rfl
@[simp] theorem State.watch_setObj (o : Nat) (x : SyncObj) : (s.setObj o x).watch = s.watch := rfl
@[simp] theorem State.flash_setObj (o : Nat) (x : SyncObj) : (s.setObj o x).flash = s.flash := rfl
@[simp] theorem State.flashDown_setObj (o : Nat) (x : SyncObj) : (s.setObj o x).flashDown = s.flashDown := rfl
@[simp] theorem State.ports_setObj (o : Nat) (x : SyncObj) : (s.setObj o x).ports = s.ports := rfl
@[simp] theorem State.inbox_setObj (o : Nat) (x : SyncObj) : (s.setObj o x).inbox = s.inbox := rfl
@[simp] theorem State.fellows_setObj (o : Nat) (x : SyncObj) : (s.setObj o x).fellows = s.fellows := rfl
@[simp] theorem State.pfc_setObj (o : Nat) (x : SyncObj) : (s.setObj o x).pfc = s.pfc := rfl
@[simp] theorem State.reqs_setObj (o : Nat) (x : SyncObj) : (s.setObj o x).reqs = s.reqs := rfl
@[simp] theorem State.serial_setObj (o : Nat) (x : SyncObj) : (s.setObj o x).serial = s.serial := rfl
@[simp] theorem State.tag_setObj (o : Nat) (x : SyncObj) : (s.setObj o x).tag = s.tag := rfl
@[simp] theorem State.chans_setObj (o : Nat) (x : SyncObj) : (s.setObj o x).chans = s.chans := rfl
@[simp] theorem State.feeds_setObj (o : Nat) (x : SyncObj) : (s.setObj o x).feeds = s.feeds := rfl
@[simp] theorem State.fences_setObj (o : Nat) (x : SyncObj) : (s.setObj o x).fences = s.fences := rfl
@[simp] theorem State.recoveries_setObj (o : Nat) (x : SyncObj) : (s.setObj o x).recoveries = s.recoveries := rfl
@[simp] theorem State.gviews_setObj (o : Nat) (x : SyncObj) : (s.setObj o x).gviews = s.gviews := rfl
@[simp] theorem State.reds_setObj (o : Nat) (x : SyncObj) : (s.setObj o x).reds = s.reds := rfl
@[simp] theorem State.redSeq_setObj (o : Nat) (x : SyncObj) : (s.setObj o x).redSeq = s.redSeq := rfl
@[simp] theorem State.redRings_setObj (o : Nat) (x : SyncObj) : (s.setObj o x).redRings = s.redRings := rfl
@[simp] theorem State.jobs_setObj (o : Nat) (x : SyncObj) : (s.setObj o x).jobs = s.jobs := rfl
@[simp] theorem State.traceBufs_setObj (o : Nat) (x : SyncObj) : (s.setObj o x).traceBufs = s.traceBufs := rfl
@[simp] theorem State.traceTurn_setObj (o : Nat) (x : SyncObj) : (s.setObj o x).traceTurn = s.traceTurn := rfl
@[simp] theorem State.dm_setObj (o : Nat) (x : SyncObj) : (s.setObj o x).dm = s.dm := rfl
@[simp] theorem State.posted_setObj (o : Nat) (x : SyncObj) : (s.setObj o x).posted = s.posted := rfl
@[simp] theorem State.referee_setObj (o : Nat) (x : SyncObj) : (s.setObj o x).referee = s.referee := rfl
@[simp] theorem State.power_setObj (o : Nat) (x : SyncObj) : (s.setObj o x).power = s.power := rfl
@[simp] theorem State.freeCount_setObj (o : Nat) (x : SyncObj) : (s.setObj o x).freeCount = s.freeCount := rfl
@[simp] theorem State.lines_setObj (o : Nat) (x : SyncObj) : (s.setObj o x).lines = s.lines := rfl
@[simp] theorem State.hartCsr_setObj (o : Nat) (x : SyncObj) : (s.setObj o x).hartCsr = s.hartCsr := rfl
@[simp] theorem State.msix_setObj (o : Nat) (x : SyncObj) : (s.setObj o x).msix = s.msix := rfl
@[simp] theorem State.msixCtl_setObj (o : Nat) (x : SyncObj) : (s.setObj o x).msixCtl = s.msixCtl := rfl
@[simp] theorem State.hartFull_setObj (o : Nat) (x : SyncObj) : (s.setObj o x).hartFull = s.hartFull := rfl
@[simp] theorem State.pending_clearBad (a n : Nat) : (s.clearBad a n).pending = s.pending := rfl
@[simp] theorem State.dtime_clearBad (a n : Nat) : (s.clearBad a n).dtime = s.dtime := rfl
@[simp] theorem State.regs_clearBad (a n : Nat) : (s.clearBad a n).regs = s.regs := rfl
@[simp] theorem State.mem_clearBad (a n : Nat) : (s.clearBad a n).mem = s.mem := rfl
@[simp] theorem State.hostMem_clearBad (a n : Nat) : (s.clearBad a n).hostMem = s.hostMem := rfl
@[simp] theorem State.book_clearBad (a n : Nat) : (s.clearBad a n).book = s.book := rfl
@[simp] theorem State.learned_clearBad (a n : Nat) : (s.clearBad a n).learned = s.learned := rfl
@[simp] theorem State.benched_clearBad (a n : Nat) : (s.clearBad a n).benched = s.benched := rfl
@[simp] theorem State.cores_clearBad (a n : Nat) : (s.clearBad a n).cores = s.cores := rfl
@[simp] theorem State.sync_clearBad (a n : Nat) : (s.clearBad a n).sync = s.sync := rfl
@[simp] theorem State.waitOrder_clearBad (a n : Nat) : (s.clearBad a n).waitOrder = s.waitOrder := rfl
@[simp] theorem State.signals_clearBad (a n : Nat) : (s.clearBad a n).signals = s.signals := rfl
@[simp] theorem State.dispatch_clearBad (a n : Nat) : (s.clearBad a n).dispatch = s.dispatch := rfl
@[simp] theorem State.segOrder_clearBad (a n : Nat) : (s.clearBad a n).segOrder = s.segOrder := rfl
@[simp] theorem State.streams_clearBad (a n : Nat) : (s.clearBad a n).streams = s.streams := rfl
@[simp] theorem State.rings_clearBad (a n : Nat) : (s.clearBad a n).rings = s.rings := rfl
@[simp] theorem State.heads_clearBad (a n : Nat) : (s.clearBad a n).heads = s.heads := rfl
@[simp] theorem State.haltAt_clearBad (a n : Nat) : (s.clearBad a n).haltAt = s.haltAt := rfl
@[simp] theorem State.heldHeads_clearBad (a n : Nat) : (s.clearBad a n).heldHeads = s.heldHeads := rfl
@[simp] theorem State.queues_clearBad (a n : Nat) : (s.clearBad a n).queues = s.queues := rfl
@[simp] theorem State.atsOn_clearBad (a n : Nat) : (s.clearBad a n).atsOn = s.atsOn := rfl
@[simp] theorem State.atc_clearBad (a n : Nat) : (s.clearBad a n).atc = s.atc := rfl
@[simp] theorem State.lowPower_clearBad (a n : Nat) : (s.clearBad a n).lowPower = s.lowPower := rfl
@[simp] theorem State.flags_clearBad (a n : Nat) : (s.clearBad a n).flags = s.flags := rfl
@[simp] theorem State.out_clearBad (a n : Nat) : (s.clearBad a n).out = s.out := rfl
@[simp] theorem State.events_clearBad (a n : Nat) : (s.clearBad a n).events = s.events := rfl
@[simp] theorem State.poison_clearBad (a n : Nat) : (s.clearBad a n).poison = s.poison := rfl
@[simp] theorem State.cache_clearBad (a n : Nat) : (s.clearBad a n).cache = s.cache := rfl
@[simp] theorem State.watch_clearBad (a n : Nat) : (s.clearBad a n).watch = s.watch := rfl
@[simp] theorem State.flash_clearBad (a n : Nat) : (s.clearBad a n).flash = s.flash := rfl
@[simp] theorem State.flashDown_clearBad (a n : Nat) : (s.clearBad a n).flashDown = s.flashDown := rfl
@[simp] theorem State.ports_clearBad (a n : Nat) : (s.clearBad a n).ports = s.ports := rfl
@[simp] theorem State.inbox_clearBad (a n : Nat) : (s.clearBad a n).inbox = s.inbox := rfl
@[simp] theorem State.fellows_clearBad (a n : Nat) : (s.clearBad a n).fellows = s.fellows := rfl
@[simp] theorem State.pfc_clearBad (a n : Nat) : (s.clearBad a n).pfc = s.pfc := rfl
@[simp] theorem State.reqs_clearBad (a n : Nat) : (s.clearBad a n).reqs = s.reqs := rfl
@[simp] theorem State.serial_clearBad (a n : Nat) : (s.clearBad a n).serial = s.serial := rfl
@[simp] theorem State.tag_clearBad (a n : Nat) : (s.clearBad a n).tag = s.tag := rfl
@[simp] theorem State.chans_clearBad (a n : Nat) : (s.clearBad a n).chans = s.chans := rfl
@[simp] theorem State.feeds_clearBad (a n : Nat) : (s.clearBad a n).feeds = s.feeds := rfl
@[simp] theorem State.fences_clearBad (a n : Nat) : (s.clearBad a n).fences = s.fences := rfl
@[simp] theorem State.recoveries_clearBad (a n : Nat) : (s.clearBad a n).recoveries = s.recoveries := rfl
@[simp] theorem State.gviews_clearBad (a n : Nat) : (s.clearBad a n).gviews = s.gviews := rfl
@[simp] theorem State.reds_clearBad (a n : Nat) : (s.clearBad a n).reds = s.reds := rfl
@[simp] theorem State.redSeq_clearBad (a n : Nat) : (s.clearBad a n).redSeq = s.redSeq := rfl
@[simp] theorem State.redRings_clearBad (a n : Nat) : (s.clearBad a n).redRings = s.redRings := rfl
@[simp] theorem State.jobs_clearBad (a n : Nat) : (s.clearBad a n).jobs = s.jobs := rfl
@[simp] theorem State.traceBufs_clearBad (a n : Nat) : (s.clearBad a n).traceBufs = s.traceBufs := rfl
@[simp] theorem State.traceTurn_clearBad (a n : Nat) : (s.clearBad a n).traceTurn = s.traceTurn := rfl
@[simp] theorem State.dm_clearBad (a n : Nat) : (s.clearBad a n).dm = s.dm := rfl
@[simp] theorem State.posted_clearBad (a n : Nat) : (s.clearBad a n).posted = s.posted := rfl
@[simp] theorem State.referee_clearBad (a n : Nat) : (s.clearBad a n).referee = s.referee := rfl
@[simp] theorem State.power_clearBad (a n : Nat) : (s.clearBad a n).power = s.power := rfl
@[simp] theorem State.freeCount_clearBad (a n : Nat) : (s.clearBad a n).freeCount = s.freeCount := rfl
@[simp] theorem State.lines_clearBad (a n : Nat) : (s.clearBad a n).lines = s.lines := rfl
@[simp] theorem State.hartCsr_clearBad (a n : Nat) : (s.clearBad a n).hartCsr = s.hartCsr := rfl
@[simp] theorem State.msix_clearBad (a n : Nat) : (s.clearBad a n).msix = s.msix := rfl
@[simp] theorem State.msixCtl_clearBad (a n : Nat) : (s.clearBad a n).msixCtl = s.msixCtl := rfl
@[simp] theorem State.hartFull_clearBad (a n : Nat) : (s.clearBad a n).hartFull = s.hartFull := rfl

end Sys2Proof.Machine
end

