-- ==== Sys2Proof/Laws/Reads.lean ====
section
/-!
SUPPORT. Reading after writing: registers and their fields, cores, scorebook entries, sync objects, bytes of memory.
-/
namespace Sys2Proof.Machine

/-! ## Fields of a word -/

theorem bitsAt_lt (x lo w : Nat) : bitsAt x lo w < 2 ^ w := Nat.mod_lt _ (Nat.two_pow_pos w)

theorem mul_add_div' (k l c : Nat) (h : l < c) : (k * c + l) / c = k := by
  rw [Nat.mul_comm, Nat.mul_add_div (by omega), Nat.div_eq_of_lt h, Nat.add_zero]

theorem mul_add_mod' (k l c : Nat) (h : l < c) : (k * c + l) % c = l := by
  rw [Nat.mul_comm, Nat.mul_add_mod, Nat.mod_eq_of_lt h]

/-- A number as the bits above, in and below a field. -/
theorem bits_split (x lo w : Nat) : x = x / 2 ^ (lo + w) * 2 ^ (lo + w) + bitsAt x lo w * 2 ^ lo + x % 2 ^ lo := by
  unfold bitsAt
  rw [Nat.shiftRight_eq_div_pow]
  have h1 := Nat.div_add_mod x (2 ^ lo)
  have h2 := Nat.div_add_mod (x / 2 ^ lo) (2 ^ w)
  rw [Nat.div_div_eq_div_mul, ← Nat.pow_add] at h2
  have h3 : (2 ^ w * (x / 2 ^ (lo + w)) + x / 2 ^ lo % 2 ^ w) * 2 ^ lo =
      x / 2 ^ (lo + w) * 2 ^ (lo + w) + x / 2 ^ lo % 2 ^ w * 2 ^ lo := by
    rw [Nat.add_mul, Nat.pow_add 2 lo w, Nat.mul_comm (2 ^ w), Nat.mul_assoc, Nat.mul_comm (2 ^ w)]
  rw [← h3, h2, Nat.mul_comm]
  exact h1.symm

theorem putBits_split (x lo w v : Nat) :
    putBits x lo w v = (x / 2 ^ (lo + w) * 2 ^ w + v % 2 ^ w) * 2 ^ lo + x % 2 ^ lo := by
  have h := bits_split x lo w
  rw [Nat.add_mul, Nat.mul_assoc, ← Nat.pow_add, Nat.add_comm w lo]
  unfold putBits
  omega

theorem bitsAt_putBits (x lo w v : Nat) : bitsAt (putBits x lo w v) lo w = v % 2 ^ w := by
  rw [putBits_split]
  unfold bitsAt
  rw [Nat.shiftRight_eq_div_pow, mul_add_div' _ _ _ (Nat.mod_lt _ (Nat.two_pow_pos lo)),
    mul_add_mod' _ _ _ (Nat.mod_lt _ (Nat.two_pow_pos w))]

theorem putBits_mod (x lo w v : Nat) : putBits x lo w v % 2 ^ lo = x % 2 ^ lo := by
  rw [putBits_split, mul_add_mod' _ _ _ (Nat.mod_lt _ (Nat.two_pow_pos lo))]

theorem putBits_div (x lo w v : Nat) : putBits x lo w v / 2 ^ (lo + w) = x / 2 ^ (lo + w) := by
  rw [putBits_split]
  have h : (x / 2 ^ (lo + w) * 2 ^ w + v % 2 ^ w) * 2 ^ lo + x % 2 ^ lo =
      x / 2 ^ (lo + w) * 2 ^ (lo + w) + (v % 2 ^ w * 2 ^ lo + x % 2 ^ lo) := by
    rw [Nat.add_mul, Nat.mul_assoc, ← Nat.pow_add, Nat.add_comm w lo, Nat.add_assoc]
  rw [h]
  apply mul_add_div'
  have h1 := Nat.mod_lt v (Nat.two_pow_pos w)
  have h2 := Nat.mod_lt x (Nat.two_pow_pos lo)
  have h3 : (v % 2 ^ w + 1) * 2 ^ lo ≤ 2 ^ w * 2 ^ lo := Nat.mul_le_mul_right _ h1
  rw [← Nat.pow_add, Nat.add_comm w lo, Nat.add_mul] at h3
  omega

/-- The field lies in the low bits of a number. -/
theorem bitsAt_mod (x lo w n : Nat) (h : lo + w ≤ n) : bitsAt (x % 2 ^ n) lo w = bitsAt x lo w := by
  unfold bitsAt
  apply Nat.eq_of_testBit_eq
  intro i
  simp only [Nat.testBit_mod_two_pow, Nat.testBit_shiftRight]
  by_cases hi : i < w
  · have : lo + i < n := by omega
    simp [hi, this]
  · simp [hi]

/-- The field lies in the high bits of a number. -/
theorem bitsAt_div (x lo w n : Nat) : bitsAt x (n + lo) w = bitsAt (x / 2 ^ n) lo w := by
  unfold bitsAt
  rw [Nat.shiftRight_eq_div_pow, Nat.shiftRight_eq_div_pow, Nat.div_div_eq_div_mul, ← Nat.pow_add]

/-- A field apart from the one written keeps its value. -/
theorem bitsAt_putBits_ne (x lo w v lo' w' : Nat) (h : lo' + w' ≤ lo ∨ lo + w ≤ lo') :
    bitsAt (putBits x lo w v) lo' w' = bitsAt x lo' w' := by
  rcases h with h | h
  · rw [← bitsAt_mod (putBits x lo w v) lo' w' lo h, putBits_mod, bitsAt_mod _ _ _ _ h]
  · obtain ⟨k, rfl⟩ : ∃ k, lo' = lo + w + k := ⟨lo' - (lo + w), by omega⟩
    rw [bitsAt_div, bitsAt_div, putBits_div]

theorem Word.field_setField (x : Word) (lo w v : Nat) (h : lo + w ≤ 64) : (x.setField lo w v).field lo w = v % 2 ^ w := by
  unfold Word.setField Word.field
  rw [BitVec.toNat_ofNat, bitsAt_mod _ _ _ _ h, bitsAt_putBits]

theorem Word.field_setField_ne (x : Word) (lo w v lo' w' : Nat) (h : lo' + w' ≤ lo ∨ lo + w ≤ lo') (h64 : lo' + w' ≤ 64) :
    (x.setField lo w v).field lo' w' = x.field lo' w' := by
  unfold Word.setField Word.field
  rw [BitVec.toNat_ofNat, bitsAt_mod _ _ _ _ h64, bitsAt_putBits_ne _ _ _ _ _ _ h]

theorem Word.field_ofNat (n lo w : Nat) (h : lo + w ≤ 64) : Word.field (BitVec.ofNat 64 n) lo w = bitsAt n lo w := by
  unfold Word.field
  rw [BitVec.toNat_ofNat, bitsAt_mod _ _ _ _ h]

/-! ## Registers -/

variable (s : State)

theorem State.reg_setReg (a b : Nat) (v : Word) : (s.setReg a v).reg b = if a = b then v else s.reg b := by
  unfold State.reg State.setReg
  by_cases h : a = b
  · subst h
    simp
  · rw [if_neg h]
    dsimp only
    unfold Sparse.put
    split
    · rw [Sparse.get_erase, if_neg h]
    · rw [Sparse.get_insert, if_neg h]

@[simp] theorem State.reg_setReg_self (a : Nat) (v : Word) : (s.setReg a v).reg a = v := by simp [State.reg_setReg]

theorem State.reg_setReg_ne {a b : Nat} (v : Word) (h : a ≠ b) : (s.setReg a v).reg b = s.reg b := by simp [State.reg_setReg, h]

theorem State.reg_wr_ne {f : RF} {b : Nat} (v : Nat) (h : f.reg ≠ b) : (s.wr f v).reg b = s.reg b := s.reg_setReg_ne _ h

/-- A field reads as what was written to it, cut to its width. -/
theorem State.rd_wr_self (f : RF) (v : Nat) (h : f.lo + f.w ≤ 64) : (s.wr f v).rd f = v % 2 ^ f.w := by
  unfold State.rd State.wr
  rw [State.reg_setReg_self, Word.field_setField _ _ _ _ h]

/-- A field of another register, or apart in the same one, keeps its value. -/
theorem State.rd_wr_ne (f g : RF) (v : Nat) (h : f.reg ≠ g.reg ∨ ((g.lo + g.w ≤ f.lo ∨ f.lo + f.w ≤ g.lo) ∧ g.lo + g.w ≤ 64)) :
    (s.wr f v).rd g = s.rd g := by
  unfold State.rd
  by_cases e : f.reg = g.reg
  · rcases h with h | ⟨h, h64⟩
    · exact absurd e h
    · rw [State.wr, ← e, State.reg_setReg_self, Word.field_setField_ne _ _ _ _ _ _ h h64]
  · rw [State.reg_wr_ne _ _ e]

theorem State.reg_congr {s t : State} (h : t.regs = s.regs) (a : Nat) : t.reg a = s.reg a := by
  unfold State.reg
  rw [h]

theorem State.rd_congr {s t : State} (h : t.regs = s.regs) (f : RF) : t.rd f = s.rd f := by
  unfold State.rd
  rw [State.reg_congr h]

/-! ## Cores -/

theorem State.core_setCore (c d : Nat) (k : Core) : (s.setCore c k).core d = if c = d then k else s.core d :=
  Sparse.get_put _ _ _ _ _

@[simp] theorem State.core_setCore_self (c : Nat) (k : Core) : (s.setCore c k).core c = k := by simp [State.core_setCore]

@[simp] theorem State.core_modCore_self (c : Nat) (f : Core → Core) : (s.modCore c f).core c = f (s.core c) :=
  s.core_setCore_self c _

theorem State.core_modCore_ne {c d : Nat} (f : Core → Core) (h : c ≠ d) : (s.modCore c f).core d = s.core d := by
  unfold State.modCore
  rw [State.core_setCore, if_neg h]

theorem State.core_congr {s t : State} (h : t.cores = s.cores) (c : Nat) : t.core c = s.core c := by
  unfold State.core
  rw [h]

/-! ## Scorebook entries -/

theorem bookKey_ne {c k c' k' : Nat} (h : c ≠ c' ∨ k ≠ k') (hk : k < bookSize) (hk' : k' < bookSize) : bookKey c k ≠ bookKey c' k' := by
  unfold bookKey bookSize at *
  omega

theorem State.entry_setEntry (c k c' k' : Nat) (e : Entry) :
    (s.setEntry c k e).entry c' k' = if bookKey c k = bookKey c' k' then e else s.entry c' k' := Sparse.get_put _ _ _ _ _

@[simp] theorem State.entry_setEntry_self (c k : Nat) (e : Entry) : (s.setEntry c k e).entry c k = e := by
  simp [State.entry_setEntry]

theorem State.entry_congr {s t : State} (h : t.book = s.book) (c k : Nat) : t.entry c k = s.entry c k := by
  unfold State.entry
  rw [h]

/-! ## Bytes -/

theorem State.byte_congr {s t : State} (h1 : t.mem = s.mem) (h2 : t.book = s.book) (a : Nat) : t.byte a = s.byte a := by
  unfold State.byte
  simp only [State.entry_congr h2, h1]

/-- Outside the scorebooks a byte reads as what was last written to it; every other byte keeps its value. -/
theorem State.byte_setByte (a b : Nat) (v : BitVec 8) (h : ∀ c, areaOf a ≠ .book c) :
    (s.setByte a v).byte b = if a = b then v else s.byte b := by
  have e : s.setByte a v = { s with mem := Mem.write s.mem a v } := by
    unfold State.setByte
    split
    · rename_i c hc
      exact absurd hc (h c)
    · rfl
  rw [e]
  unfold State.byte
  split
  · rename_i c hc
    split
    · rename_i e
      subst e
      exact absurd hc (h c)
    · rfl
  · exact Mem.read_write _ _ _ _

theorem State.byte_setBytes_out (a b : Nat) (l : List (BitVec 8)) (h : ∀ i, i < l.length → ∀ c, areaOf (a + i) ≠ .book c)
    (hb : b < a ∨ a + l.length ≤ b) : (s.setBytes a l).byte b = s.byte b := by
  induction l generalizing s a with
  | nil => rfl
  | cons x t ih =>
    simp only [List.length_cons] at h hb
    unfold State.setBytes
    rw [ih (s.setByte a x) (a + 1) (fun i hi c => by
        have := h (i + 1) (by omega) c
        rw [show a + 1 + i = a + (i + 1) by omega]
        exact this) (by omega),
      State.byte_setByte s a b x (h 0 (by omega)), if_neg (by omega)]

end Sys2Proof.Machine
end

