-- ==== Sys2Proof/Laws/Frame.lean ====
section
/-!
SUPPORT. The frame relation: which fields of State an operation may change, as a mask, with the canonical form that it keeps; and
its rules for updates, folds and outcomes. Laws/Touches*.lean say it of every operation and of every command.
-/
namespace Sys2Proof.Machine

/-- The place of a field in a mask. -/
def Field.pos : Field → Nat
  | .pending => 0
  | .dtime => 1
  | .regs => 2
  | .mem => 3
  | .hostMem => 4
  | .book => 5
  | .learned => 6
  | .benched => 7
  | .cores => 8
  | .sync => 9
  | .waitOrder => 10
  | .signals => 11
  | .dispatch => 12
  | .segOrder => 13
  | .streams => 14
  | .rings => 15
  | .heads => 16
  | .haltAt => 17
  | .heldHeads => 18
  | .queues => 19
  | .atsOn => 20
  | .atc => 21
  | .lowPower => 22
  | .flags => 23
  | .out => 24
  | .events => 25
  | .bad => 26
  | .poison => 27
  | .cache => 28
  | .watch => 29
  | .flash => 30
  | .flashDown => 31
  | .ports => 32
  | .inbox => 33
  | .fellows => 34
  | .pfc => 35
  | .reqs => 36
  | .serial => 37
  | .tag => 38
  | .chans => 39
  | .feeds => 40
  | .fences => 41
  | .recoveries => 42
  | .gviews => 43
  | .reds => 44
  | .redSeq => 45
  | .redRings => 46
  | .jobs => 47
  | .traceBufs => 48
  | .traceTurn => 49
  | .dm => 50
  | .posted => 51
  | .referee => 52
  | .power => 53
  | .freeCount => 54
  | .lines => 55
  | .hartCsr => 56
  | .msix => 57
  | .msixCtl => 58
  | .hartFull => 59

/-- `t` differs from `s` at most in the fields of the mask, is canonical if `s` is, and keeps the rule of R225. -/
def Touches (m : Nat) (s t : State) : Prop :=
  (∀ f : Field, m.testBit f.pos = false → f.same s t) ∧ (s.canonical = true → t.canonical = true) ∧
    (s.syncRule → t.syncRule)

/-- Every field of mask `a` is one of mask `b`. -/
def Sub (a b : Nat) : Prop := a ||| b = b

theorem Sub.trans {a b c : Nat} (h1 : Sub a b) (h2 : Sub b c) : Sub a c := by
  unfold Sub at *
  rw [← h2, ← Nat.or_assoc, h1]

theorem Sub.testBit {a b i : Nat} (h : Sub a b) (hb : b.testBit i = false) : a.testBit i = false := by
  unfold Sub at h
  rw [← h, Nat.testBit_or, Bool.or_eq_false_iff] at hb
  exact hb.1

theorem Sub.lit {a b : Nat} (h : Nat.beq (a ||| b) b = true) : Sub a b := Nat.eq_of_beq_eq_true h

theorem Sub.refl (a : Nat) : Sub a a := Nat.or_self a

theorem Field.same_refl (s : State) (f : Field) : f.same s s := by cases f <;> rfl

theorem Field.same_trans {s t u : State} {f : Field} (h1 : f.same s t) (h2 : f.same t u) : f.same s u := by
  cases f <;> exact Eq.trans h2 h1

theorem Touches.refl {m : Nat} (s : State) : Touches m s s := ⟨fun f _ => f.same_refl s, id, id⟩

theorem Touches.trans {m : Nat} {s t u : State} (h1 : Touches m s t) (h2 : Touches m t u) : Touches m s u :=
  ⟨fun f hf => Field.same_trans (h1.1 f hf) (h2.1 f hf), fun h => h2.2.1 (h1.2.1 h), fun h => h2.2.2 (h1.2.2 h)⟩

theorem Touches.weaken {a b : Nat} {s t : State} (hs : Sub a b) (h : Touches a s t) : Touches b s t :=
  ⟨fun f hf => h.1 f (hs.testBit hf), h.2⟩

theorem syncRule_congr {s t : State} (h : t.sync = s.sync) : s.syncRule → t.syncRule := by
  intro hr o
  have e : t.obj o = s.obj o := by
    unfold State.obj
    rw [h]
  rw [e]
  exact hr o

/-- An update that leaves the stores with a canonical form and the sync objects alone. -/
theorem Touches.upd {M K : Nat} {s0 s t : State} (hK : Sub K M) (h : Touches M s0 s)
    (hf : ∀ f : Field, K.testBit f.pos = false → f.same s t) (h1 : t.mem = s.mem) (h2 : t.hostMem = s.hostMem)
    (h3 : t.regs = s.regs) (h4 : t.cores = s.cores) (h5 : t.book = s.book) (h6 : t.sync = s.sync) : Touches M s0 t :=
  h.trans (Touches.weaken hK ⟨hf, fun hc => by
    unfold State.canonical State.memoryCanonical at *
    rw [h1, h2, h3, h4, h5]
    exact hc, syncRule_congr h6⟩)

/-- An update that leaves the sync objects alone and keeps the canonical form. -/
theorem Touches.updWf {M K : Nat} {s0 s t : State} (hK : Sub K M) (h : Touches M s0 s)
    (hf : ∀ f : Field, K.testBit f.pos = false → f.same s t) (h6 : t.sync = s.sync)
    (hc : s.canonical = true → t.canonical = true) : Touches M s0 t :=
  h.trans (Touches.weaken hK ⟨hf, hc, syncRule_congr h6⟩)

/-- An update of the sync objects alone, that keeps their rule. -/
theorem Touches.updSync {M : Nat} {s0 s : State} {x : List (Nat × SyncObj)} (hK : Sub 512 M) (h : Touches M s0 s)
    (hr : s.syncRule → (s.setSync x).syncRule) : Touches M s0 (s.setSync x) :=
  h.trans (Touches.weaken hK ⟨fun f hf => by cases f <;> first | rfl | exact absurd hf (by decide), id, hr⟩)

theorem State.obj_setObj (s : State) (o p : Nat) (x : SyncObj) : (s.setObj o x).obj p = if o = p then x else s.obj p :=
  Sparse.get_put _ _ _ _ _

theorem State.setObj_rule {s : State} {o : Nat} (x : SyncObj)
    (h : ∀ p, p ≠ o → 0 < (s.obj p).count → (s.obj p).waiters = []) (hx : 0 < x.count → x.waiters = []) :
    (s.setObj o x).syncRule := by
  intro p hc
  by_cases e : o = p
  · rw [State.obj_setObj, if_pos e] at hc ⊢
    exact hx hc
  · rw [State.obj_setObj, if_neg e] at hc ⊢
    exact h p (Ne.symm e) hc

theorem canonical_iff {s : State} : s.canonical = true ↔ Memory.wf s.mem = true ∧ Memory.wf s.hostMem = true ∧
    Sparse.wf regReset s.regs = true ∧ Sparse.wf (fun _ => Core.reset) s.cores = true ∧
    Sparse.wf (fun _ => Entry.reset) s.book = true := by
  simp [State.canonical, State.memoryCanonical, and_assoc]

/-! ## The memory maps -/

/-- A memory whose units have moved keeps the canonical form. -/
theorem remap_wf {dec : Nat → Nat × Nat} {l : List Nat} {g lo hi hi' : Nat} {m : List Host.Cell} (h : Memory.wf m = true) :
    Memory.wf (remap dec l g lo hi hi' m) = true := by
  refine Sparse.wf_foldl_insert (d := fun _ => memUnlisted) _ (fun acc p hp ha => ?_) m [] (fun p hp => Sparse.wf_mem h hp) rfl
  dsimp only
  split
  · exact Sparse.wf_insert hp ha
  · split
    · split
      · exact Sparse.wf_insert hp ha
      · exact ha
    · exact ha

/-! ## Folds -/

theorem Touches.foldl {α : Type} {M : Nat} {s0 : State} {f : State → α → State} (l : List α) {s : State}
    (hf : ∀ s x, Touches M s0 s → Touches M s0 (f s x)) (h : Touches M s0 s) : Touches M s0 (l.foldl f s) := by
  induction l generalizing s with
  | nil => exact h
  | cons x t ih => exact ih (hf s x h)

theorem Touches.ifSome {α : Type} {M : Nat} {s0 go : State} {o : Option α} {f : α → State} (hf : ∀ x, Touches M s0 (f x))
    (hg : Touches M s0 go) : Touches M s0 (ifSome o f go) := by
  cases o
  · exact hg
  · exact hf _

/-! ## Answers that carry a state

Each is a definition of its own, so that a proof speaks of the whole answer and never of a part of an unevaluated one. -/

/-- The state that stands first in an answer is framed. -/
def Touches1 {α : Type} (M : Nat) (s0 : State) (p : State × α) : Prop := Touches M s0 p.1

theorem Touches1.mk {α : Type} {M : Nat} {s0 t : State} {x : α} (h : Touches M s0 t) : Touches1 M s0 (t, x) := h

theorem Touches1.fst {α : Type} {M : Nat} {s0 : State} {p : State × α} (h : Touches1 M s0 p) : Touches M s0 p.1 := h

theorem Touches1.foldl {α β : Type} {M : Nat} {s0 : State} {f : State × β → α → State × β} (l : List α) {a : State × β}
    (hf : ∀ a x, Touches1 M s0 a → Touches1 M s0 (f a x)) (h : Touches1 M s0 a) : Touches1 M s0 (l.foldl f a) := by
  induction l generalizing a with
  | nil => exact h
  | cons x t ih => exact ih (hf a x h)

theorem Touches1.ifSome {α β : Type} {M : Nat} {s0 : State} {go : State × β} {o : Option α} {f : α → State × β}
    (hf : ∀ x, o = some x → Touches1 M s0 (f x)) (hg : Touches1 M s0 go) : Touches1 M s0 (ifSome o f go) := by
  cases o
  · exact hg
  · exact hf _ rfl

/-- The state that stands second in an answer is framed. -/
def Touches2 {α : Type} (M : Nat) (s0 : State) (p : α × State) : Prop := Touches M s0 p.2

theorem Touches2.mk {α : Type} {M : Nat} {s0 t : State} {x : α} (h : Touches M s0 t) : Touches2 M s0 (x, t) := h

theorem Touches2.snd {α : Type} {M : Nat} {s0 : State} {p : α × State} (h : Touches2 M s0 p) : Touches M s0 p.2 := h

/-- The state of a load's result is framed. -/
def TouchesL (M : Nat) (s0 : State) (p : LoadResult) : Prop := Touches M s0 p.state

theorem TouchesL.mk {M : Nat} {s0 t : State} {b : Option Block} {x : Bool} {n : Nat} (h : Touches M s0 t) :
    TouchesL M s0 ⟨t, b, x, n⟩ := h

theorem TouchesL.state {M : Nat} {s0 : State} {p : LoadResult} (h : TouchesL M s0 p) : Touches M s0 p.state := h

theorem TouchesL.ifSome {α : Type} {M : Nat} {s0 : State} {go : LoadResult} {o : Option α} {f : α → LoadResult}
    (hf : ∀ x, TouchesL M s0 (f x)) (hg : TouchesL M s0 go) : TouchesL M s0 (ifSome o f go) := by
  cases o
  · exact hg
  · exact hf _

/-! ## Outcomes and partial answers -/


/-- A next state that an outcome gives is framed. -/
def TouchesO (M : Nat) (s0 : State) (o : Host.Outcome State Fault Refusal) : Prop := ∀ t, o = .next t → Touches M s0 t

theorem TouchesO.next {M : Nat} {s0 t : State} (h : Touches M s0 t) : TouchesO M s0 (.next t) := by
  intro u e
  cases e
  exact h

theorem TouchesO.ifSome {α : Type} {M : Nat} {s0 : State} {go : Host.Outcome State Fault Refusal} {o : Option α}
    {f : α → Host.Outcome State Fault Refusal} (hf : ∀ x, TouchesO M s0 (f x)) (hg : TouchesO M s0 go) :
    TouchesO M s0 (ifSome o f go) := by
  cases o
  · exact hg
  · exact hf _

/-- The state of an answer, if there is one, is framed. -/
def TouchesP {α : Type} (M : Nat) (s0 : State) (o : Option (State × α)) : Prop := ∀ x, o = some x → Touches1 M s0 x

theorem TouchesP.none {α : Type} {M : Nat} {s0 : State} : TouchesP M s0 (Option.none : Option (State × α)) := by
  intro x e
  cases e

theorem TouchesP.some {α : Type} {M : Nat} {s0 : State} {x : State × α} (h : Touches1 M s0 x) : TouchesP M s0 (Option.some x) := by
  intro y e
  cases e
  exact h

theorem TouchesP.map {α β : Type} {M : Nat} {s0 : State} {f : β → State × α} {o : Option β}
    (h : ∀ x, Touches1 M s0 (f x)) : TouchesP M s0 (o.map f) := by
  cases o
  · exact TouchesP.none
  · exact TouchesP.some (h _)

theorem TouchesP.ifSome {α β : Type} {M : Nat} {s0 : State} {go : Option (State × β)} {o : Option α} {f : α → Option (State × β)}
    (hf : ∀ x, TouchesP M s0 (f x)) (hg : TouchesP M s0 go) : TouchesP M s0 (ifSome o f go) := by
  cases o
  · exact hg
  · exact hf _

theorem TouchesP.elim {α : Type} {M : Nat} {s0 : State} {o : Option (State × α)} {x : State × α} (e : o = Option.some x)
    (h : TouchesP M s0 o) : Touches1 M s0 x := h x e

theorem TouchesP.findSome {α β : Type} {M : Nat} {s0 : State} {f : β → Option (State × α)} {l : List β}
    (h : ∀ x, TouchesP M s0 (f x)) : TouchesP M s0 (l.findSome? f) := by
  intro x e
  obtain ⟨y, _, hy⟩ := List.exists_of_findSome?_eq_some e
  exact h y x hy

theorem TouchesP.orElse {α : Type} {M : Nat} {s0 : State} {o : Option (State × α)} {f : Unit → Option (State × α)}
    (h : TouchesP M s0 o) (hf : TouchesP M s0 (f ())) : TouchesP M s0 (o.orElse f) := by
  cases o
  · exact hf
  · exact h

/-- The state of an answer that is one, if there is one, is framed. -/
def TouchesQ (M : Nat) (s0 : State) (o : Option State) : Prop := ∀ x, o = some x → Touches M s0 x

theorem TouchesQ.none {M : Nat} {s0 : State} : TouchesQ M s0 Option.none := by
  intro x e
  cases e

theorem TouchesQ.some {M : Nat} {s0 x : State} (h : Touches M s0 x) : TouchesQ M s0 (Option.some x) := by
  intro y e
  cases e
  exact h

theorem TouchesQ.elim {M : Nat} {s0 : State} {o : Option State} {x : State} (e : o = Option.some x) (h : TouchesQ M s0 o) :
    Touches M s0 x := h x e

/-- The state that an operation which may fail gives is framed. -/
def TouchesE {ε : Type} (M : Nat) (s0 : State) (o : Except ε State) : Prop := ∀ x, o = .ok x → Touches M s0 x

theorem TouchesE.ok {ε : Type} {M : Nat} {s0 x : State} (h : Touches M s0 x) : TouchesE M s0 (Except.ok x : Except ε State) := by
  intro y e
  cases e
  exact h

theorem TouchesE.error {ε : Type} {M : Nat} {s0 : State} {r : ε} : TouchesE M s0 (Except.error r : Except ε State) := by
  intro y e
  cases e

theorem TouchesE.elim {ε : Type} {M : Nat} {s0 : State} {o : Except ε State} {x : State} (e : o = .ok x) (h : TouchesE M s0 o) :
    Touches M s0 x := h x e

/-- The same of one that gives more beside the state. -/
def TouchesF {ε α : Type} (M : Nat) (s0 : State) (o : Except ε (State × α)) : Prop := ∀ x, o = .ok x → Touches1 M s0 x

theorem TouchesF.ok {ε α : Type} {M : Nat} {s0 : State} {x : State × α} (h : Touches1 M s0 x) :
    TouchesF M s0 (Except.ok x : Except ε (State × α)) := by
  intro y e
  cases e
  exact h

theorem TouchesF.error {ε α : Type} {M : Nat} {s0 : State} {r : ε} : TouchesF M s0 (Except.error r : Except ε (State × α)) := by
  intro y e
  cases e

theorem TouchesF.foldl {ε α β : Type} {M : Nat} {s0 : State} {f : Except ε (State × α) → β → Except ε (State × α)} (l : List β)
    {a : Except ε (State × α)} (hf : ∀ a x, TouchesF M s0 a → TouchesF M s0 (f a x)) (h : TouchesF M s0 a) :
    TouchesF M s0 (l.foldl f a) := by
  induction l generalizing a with
  | nil => exact h
  | cons x t ih => exact ih (hf a x h)

theorem TouchesF.elim {ε α : Type} {M : Nat} {s0 : State} {o : Except ε (State × α)} {x : State × α} (e : o = .ok x)
    (h : TouchesF M s0 o) : Touches1 M s0 x := h x e

end Sys2Proof.Machine
end

