-- ==== Sys2Proof/Laws/TouchesSet.lean ====
section
/-!
SUPPORT. The frames of the updates of one field or a few.
-/
namespace Sys2Proof.Machine

theorem Touches.set_pending {M : Nat} {s0 s : State} {x0} (hM : Sub 1 M) (hT : Touches M s0 s) :
    Touches M s0 { s with pending := x0 } :=
  Touches.upd hM hT (fun f hf => by cases f <;> first | rfl | exact absurd hf (by decide)) rfl rfl rfl rfl rfl rfl

theorem Touches.set_dtime {M : Nat} {s0 s : State} {x0} (hM : Sub 2 M) (hT : Touches M s0 s) :
    Touches M s0 { s with dtime := x0 } :=
  Touches.upd hM hT (fun f hf => by cases f <;> first | rfl | exact absurd hf (by decide)) rfl rfl rfl rfl rfl rfl

theorem Touches.set_learned {M : Nat} {s0 s : State} {x0} (hM : Sub 64 M) (hT : Touches M s0 s) :
    Touches M s0 { s with learned := x0 } :=
  Touches.upd hM hT (fun f hf => by cases f <;> first | rfl | exact absurd hf (by decide)) rfl rfl rfl rfl rfl rfl

theorem Touches.set_benched {M : Nat} {s0 s : State} {x0} (hM : Sub 128 M) (hT : Touches M s0 s) :
    Touches M s0 { s with benched := x0 } :=
  Touches.upd hM hT (fun f hf => by cases f <;> first | rfl | exact absurd hf (by decide)) rfl rfl rfl rfl rfl rfl

theorem Touches.set_waitOrder {M : Nat} {s0 s : State} {x0} (hM : Sub 1024 M) (hT : Touches M s0 s) :
    Touches M s0 { s with waitOrder := x0 } :=
  Touches.upd hM hT (fun f hf => by cases f <;> first | rfl | exact absurd hf (by decide)) rfl rfl rfl rfl rfl rfl

theorem Touches.set_signals {M : Nat} {s0 s : State} {x0} (hM : Sub 2048 M) (hT : Touches M s0 s) :
    Touches M s0 { s with signals := x0 } :=
  Touches.upd hM hT (fun f hf => by cases f <;> first | rfl | exact absurd hf (by decide)) rfl rfl rfl rfl rfl rfl

theorem Touches.set_dispatch {M : Nat} {s0 s : State} {x0} (hM : Sub 4096 M) (hT : Touches M s0 s) :
    Touches M s0 { s with dispatch := x0 } :=
  Touches.upd hM hT (fun f hf => by cases f <;> first | rfl | exact absurd hf (by decide)) rfl rfl rfl rfl rfl rfl

theorem Touches.set_segOrder {M : Nat} {s0 s : State} {x0} (hM : Sub 8192 M) (hT : Touches M s0 s) :
    Touches M s0 { s with segOrder := x0 } :=
  Touches.upd hM hT (fun f hf => by cases f <;> first | rfl | exact absurd hf (by decide)) rfl rfl rfl rfl rfl rfl

theorem Touches.set_streams {M : Nat} {s0 s : State} {x0} (hM : Sub 16384 M) (hT : Touches M s0 s) :
    Touches M s0 { s with streams := x0 } :=
  Touches.upd hM hT (fun f hf => by cases f <;> first | rfl | exact absurd hf (by decide)) rfl rfl rfl rfl rfl rfl

theorem Touches.set_rings {M : Nat} {s0 s : State} {x0} (hM : Sub 32768 M) (hT : Touches M s0 s) :
    Touches M s0 { s with rings := x0 } :=
  Touches.upd hM hT (fun f hf => by cases f <;> first | rfl | exact absurd hf (by decide)) rfl rfl rfl rfl rfl rfl

theorem Touches.set_heads {M : Nat} {s0 s : State} {x0} (hM : Sub 65536 M) (hT : Touches M s0 s) :
    Touches M s0 { s with heads := x0 } :=
  Touches.upd hM hT (fun f hf => by cases f <;> first | rfl | exact absurd hf (by decide)) rfl rfl rfl rfl rfl rfl

theorem Touches.set_haltAt {M : Nat} {s0 s : State} {x0} (hM : Sub 131072 M) (hT : Touches M s0 s) :
    Touches M s0 { s with haltAt := x0 } :=
  Touches.upd hM hT (fun f hf => by cases f <;> first | rfl | exact absurd hf (by decide)) rfl rfl rfl rfl rfl rfl

theorem Touches.set_heldHeads {M : Nat} {s0 s : State} {x0} (hM : Sub 262144 M) (hT : Touches M s0 s) :
    Touches M s0 { s with heldHeads := x0 } :=
  Touches.upd hM hT (fun f hf => by cases f <;> first | rfl | exact absurd hf (by decide)) rfl rfl rfl rfl rfl rfl

theorem Touches.set_queues {M : Nat} {s0 s : State} {x0} (hM : Sub 524288 M) (hT : Touches M s0 s) :
    Touches M s0 { s with queues := x0 } :=
  Touches.upd hM hT (fun f hf => by cases f <;> first | rfl | exact absurd hf (by decide)) rfl rfl rfl rfl rfl rfl

theorem Touches.set_atsOn {M : Nat} {s0 s : State} {x0} (hM : Sub 1048576 M) (hT : Touches M s0 s) :
    Touches M s0 { s with atsOn := x0 } :=
  Touches.upd hM hT (fun f hf => by cases f <;> first | rfl | exact absurd hf (by decide)) rfl rfl rfl rfl rfl rfl

theorem Touches.set_atc {M : Nat} {s0 s : State} {x0} (hM : Sub 2097152 M) (hT : Touches M s0 s) :
    Touches M s0 { s with atc := x0 } :=
  Touches.upd hM hT (fun f hf => by cases f <;> first | rfl | exact absurd hf (by decide)) rfl rfl rfl rfl rfl rfl

theorem Touches.set_lowPower {M : Nat} {s0 s : State} {x0} (hM : Sub 4194304 M) (hT : Touches M s0 s) :
    Touches M s0 { s with lowPower := x0 } :=
  Touches.upd hM hT (fun f hf => by cases f <;> first | rfl | exact absurd hf (by decide)) rfl rfl rfl rfl rfl rfl

theorem Touches.set_flags {M : Nat} {s0 s : State} {x0} (hM : Sub 8388608 M) (hT : Touches M s0 s) :
    Touches M s0 { s with flags := x0 } :=
  Touches.upd hM hT (fun f hf => by cases f <;> first | rfl | exact absurd hf (by decide)) rfl rfl rfl rfl rfl rfl

theorem Touches.set_out {M : Nat} {s0 s : State} {x0} (hM : Sub 16777216 M) (hT : Touches M s0 s) :
    Touches M s0 { s with out := x0 } :=
  Touches.upd hM hT (fun f hf => by cases f <;> first | rfl | exact absurd hf (by decide)) rfl rfl rfl rfl rfl rfl

theorem Touches.set_events {M : Nat} {s0 s : State} {x0} (hM : Sub 33554432 M) (hT : Touches M s0 s) :
    Touches M s0 { s with events := x0 } :=
  Touches.upd hM hT (fun f hf => by cases f <;> first | rfl | exact absurd hf (by decide)) rfl rfl rfl rfl rfl rfl

theorem Touches.set_bad {M : Nat} {s0 s : State} {x0} (hM : Sub 67108864 M) (hT : Touches M s0 s) :
    Touches M s0 { s with bad := x0 } :=
  Touches.upd hM hT (fun f hf => by cases f <;> first | rfl | exact absurd hf (by decide)) rfl rfl rfl rfl rfl rfl

theorem Touches.set_poison {M : Nat} {s0 s : State} {x0} (hM : Sub 134217728 M) (hT : Touches M s0 s) :
    Touches M s0 { s with poison := x0 } :=
  Touches.upd hM hT (fun f hf => by cases f <;> first | rfl | exact absurd hf (by decide)) rfl rfl rfl rfl rfl rfl

theorem Touches.set_cache {M : Nat} {s0 s : State} {x0} (hM : Sub 268435456 M) (hT : Touches M s0 s) :
    Touches M s0 { s with cache := x0 } :=
  Touches.upd hM hT (fun f hf => by cases f <;> first | rfl | exact absurd hf (by decide)) rfl rfl rfl rfl rfl rfl

theorem Touches.set_watch {M : Nat} {s0 s : State} {x0} (hM : Sub 536870912 M) (hT : Touches M s0 s) :
    Touches M s0 { s with watch := x0 } :=
  Touches.upd hM hT (fun f hf => by cases f <;> first | rfl | exact absurd hf (by decide)) rfl rfl rfl rfl rfl rfl

theorem Touches.set_flash {M : Nat} {s0 s : State} {x0} (hM : Sub 1073741824 M) (hT : Touches M s0 s) :
    Touches M s0 { s with flash := x0 } :=
  Touches.upd hM hT (fun f hf => by cases f <;> first | rfl | exact absurd hf (by decide)) rfl rfl rfl rfl rfl rfl

theorem Touches.set_flashDown {M : Nat} {s0 s : State} {x0} (hM : Sub 2147483648 M) (hT : Touches M s0 s) :
    Touches M s0 { s with flashDown := x0 } :=
  Touches.upd hM hT (fun f hf => by cases f <;> first | rfl | exact absurd hf (by decide)) rfl rfl rfl rfl rfl rfl

theorem Touches.set_ports {M : Nat} {s0 s : State} {x0} (hM : Sub 4294967296 M) (hT : Touches M s0 s) :
    Touches M s0 { s with ports := x0 } :=
  Touches.upd hM hT (fun f hf => by cases f <;> first | rfl | exact absurd hf (by decide)) rfl rfl rfl rfl rfl rfl

theorem Touches.set_inbox {M : Nat} {s0 s : State} {x0} (hM : Sub 8589934592 M) (hT : Touches M s0 s) :
    Touches M s0 { s with inbox := x0 } :=
  Touches.upd hM hT (fun f hf => by cases f <;> first | rfl | exact absurd hf (by decide)) rfl rfl rfl rfl rfl rfl

theorem Touches.set_fellows {M : Nat} {s0 s : State} {x0} (hM : Sub 17179869184 M) (hT : Touches M s0 s) :
    Touches M s0 { s with fellows := x0 } :=
  Touches.upd hM hT (fun f hf => by cases f <;> first | rfl | exact absurd hf (by decide)) rfl rfl rfl rfl rfl rfl

theorem Touches.set_pfc {M : Nat} {s0 s : State} {x0} (hM : Sub 34359738368 M) (hT : Touches M s0 s) :
    Touches M s0 { s with pfc := x0 } :=
  Touches.upd hM hT (fun f hf => by cases f <;> first | rfl | exact absurd hf (by decide)) rfl rfl rfl rfl rfl rfl

theorem Touches.set_reqs {M : Nat} {s0 s : State} {x0} (hM : Sub 68719476736 M) (hT : Touches M s0 s) :
    Touches M s0 { s with reqs := x0 } :=
  Touches.upd hM hT (fun f hf => by cases f <;> first | rfl | exact absurd hf (by decide)) rfl rfl rfl rfl rfl rfl

theorem Touches.set_serial {M : Nat} {s0 s : State} {x0} (hM : Sub 137438953472 M) (hT : Touches M s0 s) :
    Touches M s0 { s with serial := x0 } :=
  Touches.upd hM hT (fun f hf => by cases f <;> first | rfl | exact absurd hf (by decide)) rfl rfl rfl rfl rfl rfl

theorem Touches.set_tag {M : Nat} {s0 s : State} {x0} (hM : Sub 274877906944 M) (hT : Touches M s0 s) :
    Touches M s0 { s with tag := x0 } :=
  Touches.upd hM hT (fun f hf => by cases f <;> first | rfl | exact absurd hf (by decide)) rfl rfl rfl rfl rfl rfl

theorem Touches.set_chans {M : Nat} {s0 s : State} {x0} (hM : Sub 549755813888 M) (hT : Touches M s0 s) :
    Touches M s0 { s with chans := x0 } :=
  Touches.upd hM hT (fun f hf => by cases f <;> first | rfl | exact absurd hf (by decide)) rfl rfl rfl rfl rfl rfl

theorem Touches.set_feeds {M : Nat} {s0 s : State} {x0} (hM : Sub 1099511627776 M) (hT : Touches M s0 s) :
    Touches M s0 { s with feeds := x0 } :=
  Touches.upd hM hT (fun f hf => by cases f <;> first | rfl | exact absurd hf (by decide)) rfl rfl rfl rfl rfl rfl

theorem Touches.set_fences {M : Nat} {s0 s : State} {x0} (hM : Sub 2199023255552 M) (hT : Touches M s0 s) :
    Touches M s0 { s with fences := x0 } :=
  Touches.upd hM hT (fun f hf => by cases f <;> first | rfl | exact absurd hf (by decide)) rfl rfl rfl rfl rfl rfl

theorem Touches.set_recoveries {M : Nat} {s0 s : State} {x0} (hM : Sub 4398046511104 M) (hT : Touches M s0 s) :
    Touches M s0 { s with recoveries := x0 } :=
  Touches.upd hM hT (fun f hf => by cases f <;> first | rfl | exact absurd hf (by decide)) rfl rfl rfl rfl rfl rfl

theorem Touches.set_gviews {M : Nat} {s0 s : State} {x0} (hM : Sub 8796093022208 M) (hT : Touches M s0 s) :
    Touches M s0 { s with gviews := x0 } :=
  Touches.upd hM hT (fun f hf => by cases f <;> first | rfl | exact absurd hf (by decide)) rfl rfl rfl rfl rfl rfl

theorem Touches.set_reds {M : Nat} {s0 s : State} {x0} (hM : Sub 17592186044416 M) (hT : Touches M s0 s) :
    Touches M s0 { s with reds := x0 } :=
  Touches.upd hM hT (fun f hf => by cases f <;> first | rfl | exact absurd hf (by decide)) rfl rfl rfl rfl rfl rfl

theorem Touches.set_redSeq {M : Nat} {s0 s : State} {x0} (hM : Sub 35184372088832 M) (hT : Touches M s0 s) :
    Touches M s0 { s with redSeq := x0 } :=
  Touches.upd hM hT (fun f hf => by cases f <;> first | rfl | exact absurd hf (by decide)) rfl rfl rfl rfl rfl rfl

theorem Touches.set_redRings {M : Nat} {s0 s : State} {x0} (hM : Sub 70368744177664 M) (hT : Touches M s0 s) :
    Touches M s0 { s with redRings := x0 } :=
  Touches.upd hM hT (fun f hf => by cases f <;> first | rfl | exact absurd hf (by decide)) rfl rfl rfl rfl rfl rfl

theorem Touches.set_jobs {M : Nat} {s0 s : State} {x0} (hM : Sub 140737488355328 M) (hT : Touches M s0 s) :
    Touches M s0 { s with jobs := x0 } :=
  Touches.upd hM hT (fun f hf => by cases f <;> first | rfl | exact absurd hf (by decide)) rfl rfl rfl rfl rfl rfl

theorem Touches.set_traceBufs {M : Nat} {s0 s : State} {x0} (hM : Sub 281474976710656 M) (hT : Touches M s0 s) :
    Touches M s0 { s with traceBufs := x0 } :=
  Touches.upd hM hT (fun f hf => by cases f <;> first | rfl | exact absurd hf (by decide)) rfl rfl rfl rfl rfl rfl

theorem Touches.set_traceTurn {M : Nat} {s0 s : State} {x0} (hM : Sub 562949953421312 M) (hT : Touches M s0 s) :
    Touches M s0 { s with traceTurn := x0 } :=
  Touches.upd hM hT (fun f hf => by cases f <;> first | rfl | exact absurd hf (by decide)) rfl rfl rfl rfl rfl rfl

theorem Touches.set_dm {M : Nat} {s0 s : State} {x0} (hM : Sub 1125899906842624 M) (hT : Touches M s0 s) :
    Touches M s0 { s with dm := x0 } :=
  Touches.upd hM hT (fun f hf => by cases f <;> first | rfl | exact absurd hf (by decide)) rfl rfl rfl rfl rfl rfl

theorem Touches.set_posted {M : Nat} {s0 s : State} {x0} (hM : Sub 2251799813685248 M) (hT : Touches M s0 s) :
    Touches M s0 { s with posted := x0 } :=
  Touches.upd hM hT (fun f hf => by cases f <;> first | rfl | exact absurd hf (by decide)) rfl rfl rfl rfl rfl rfl

theorem Touches.set_referee {M : Nat} {s0 s : State} {x0} (hM : Sub 4503599627370496 M) (hT : Touches M s0 s) :
    Touches M s0 { s with referee := x0 } :=
  Touches.upd hM hT (fun f hf => by cases f <;> first | rfl | exact absurd hf (by decide)) rfl rfl rfl rfl rfl rfl

theorem Touches.set_power {M : Nat} {s0 s : State} {x0} (hM : Sub 9007199254740992 M) (hT : Touches M s0 s) :
    Touches M s0 { s with power := x0 } :=
  Touches.upd hM hT (fun f hf => by cases f <;> first | rfl | exact absurd hf (by decide)) rfl rfl rfl rfl rfl rfl

theorem Touches.set_freeCount {M : Nat} {s0 s : State} {x0} (hM : Sub 18014398509481984 M) (hT : Touches M s0 s) :
    Touches M s0 { s with freeCount := x0 } :=
  Touches.upd hM hT (fun f hf => by cases f <;> first | rfl | exact absurd hf (by decide)) rfl rfl rfl rfl rfl rfl

theorem Touches.set_lines {M : Nat} {s0 s : State} {x0} (hM : Sub 36028797018963968 M) (hT : Touches M s0 s) :
    Touches M s0 { s with lines := x0 } :=
  Touches.upd hM hT (fun f hf => by cases f <;> first | rfl | exact absurd hf (by decide)) rfl rfl rfl rfl rfl rfl

theorem Touches.set_hartCsr {M : Nat} {s0 s : State} {x0} (hM : Sub 72057594037927936 M) (hT : Touches M s0 s) :
    Touches M s0 { s with hartCsr := x0 } :=
  Touches.upd hM hT (fun f hf => by cases f <;> first | rfl | exact absurd hf (by decide)) rfl rfl rfl rfl rfl rfl

theorem Touches.set_msix {M : Nat} {s0 s : State} {x0} (hM : Sub 144115188075855872 M) (hT : Touches M s0 s) :
    Touches M s0 { s with msix := x0 } :=
  Touches.upd hM hT (fun f hf => by cases f <;> first | rfl | exact absurd hf (by decide)) rfl rfl rfl rfl rfl rfl

theorem Touches.set_msixCtl {M : Nat} {s0 s : State} {x0} (hM : Sub 288230376151711744 M) (hT : Touches M s0 s) :
    Touches M s0 { s with msixCtl := x0 } :=
  Touches.upd hM hT (fun f hf => by cases f <;> first | rfl | exact absurd hf (by decide)) rfl rfl rfl rfl rfl rfl

theorem Touches.set_hartFull {M : Nat} {s0 s : State} {x0} (hM : Sub 576460752303423488 M) (hT : Touches M s0 s) :
    Touches M s0 { s with hartFull := x0 } :=
  Touches.upd hM hT (fun f hf => by cases f <;> first | rfl | exact absurd hf (by decide)) rfl rfl rfl rfl rfl rfl

end Sys2Proof.Machine
end

