-- ==== Sys2Proof/Laws/Touches1.lean ====
section
/-!
SUPPORT. The frames of operations and commands, part 1: each may change the fields of its mask only, and keeps the canonical form.
-/
namespace Sys2Proof.Machine

theorem State.setObj_touches {M : Nat} {s0 : State} (s : State) (o : Nat) (x : SyncObj)
    (hx : s.syncRule → 0 < x.count → x.waiters = []) (hM : Sub 512 M) (hT : Touches M s0 s) : Touches M s0 (State.setObj s o x) := by
  refine Touches.updSync hM hT (fun hr => State.setObj_rule x (fun p _ => hr p) (hx hr))

theorem State.setDtime_touches {M : Nat} {s0 : State} (s : State) (x : Nat) (hM : Sub 2 M) (hT : Touches M s0 s) : Touches
  M s0 (State.setDtime s x) := by
  unfold State.setDtime
  try dsimp only
  repeat' first
    | with_reducible assumption
    | (with_reducible refine Sub.trans ?_ hM) <;> exact Sub.lit rfl
    | with_reducible apply Touches.set_dtime
    | (with_reducible intro _; try dsimp only)
    | split

theorem State.setCore_touches {M : Nat} {s0 : State} (s : State) (c : Nat) (k : Core) (hM : Sub 256 M) (hT : Touches M s0
  s) : Touches M s0 (State.setCore s c k) := by
  refine Touches.updWf hM hT (fun f hf => by cases f <;> first | rfl | exact absurd hf (by decide)) rfl ?_
  simp only [canonical_iff]
  rintro ⟨h1, h2, h3, h4, h5⟩
  exact ⟨h1, h2, h3, Sparse.wf_put (d := fun _ => Core.reset) h4, h5⟩

theorem State.modCore_touches {M : Nat} {s0 : State} (s : State) (c : Nat) (f : Core → Core) (hM : Sub 256 M) (hT : Touches
  M s0 s) : Touches M s0 (State.modCore s c f) := by
  unfold State.modCore
  try dsimp only
  repeat' first
    | with_reducible assumption
    | (with_reducible refine Sub.trans ?_ hM) <;> exact Sub.lit rfl
    | with_reducible apply State.setCore_touches
    | (with_reducible intro _; try dsimp only)
    | split

theorem State.raiseAs_touches {M : Nat} {s0 : State} (s : State) (code : Code) (sev unit part : Nat) (pay : Nat) (hM : Sub
  33554432 M) (hT : Touches M s0 s) : Touches M s0 (State.raiseAs s code sev unit part pay) := by
  unfold State.raiseAs
  try dsimp only
  repeat' first
    | with_reducible assumption
    | (with_reducible refine Sub.trans ?_ hM) <;> exact Sub.lit rfl
    | with_reducible apply Touches.set_events
    | (with_reducible intro _; try dsimp only)
    | split

theorem State.setReg_touches {M : Nat} {s0 : State} (s : State) (a : Nat) (v : Word) (hM : Sub 4 M) (hT : Touches M s0 s) :
  Touches M s0 (State.setReg s a v) := by
  refine Touches.updWf hM hT (fun f hf => by cases f <;> first | rfl | exact absurd hf (by decide)) rfl ?_
  simp only [canonical_iff]
  rintro ⟨h1, h2, h3, h4, h5⟩
  exact ⟨h1, h2, Sparse.wf_put (d := regReset) h3, h4, h5⟩

theorem State.wr_touches {M : Nat} {s0 : State} (s : State) (f : RF) (v : Nat) (hM : Sub 4 M) (hT : Touches M s0 s) :
  Touches M s0 (State.wr s f v) := by
  unfold State.wr
  try dsimp only
  repeat' first
    | with_reducible assumption
    | (with_reducible refine Sub.trans ?_ hM) <;> exact Sub.lit rfl
    | with_reducible apply State.setReg_touches
    | (with_reducible intro _; try dsimp only)
    | split

theorem State.raise_touches {M : Nat} {s0 : State} (s : State) (code : Code) (unit part : Nat) (pay : Nat) (hM : Sub
  33554432 M) (hT : Touches M s0 s) : Touches M s0 (State.raise s code unit part pay) := by
  unfold State.raise
  try dsimp only
  repeat' first
    | with_reducible assumption
    | (with_reducible refine Sub.trans ?_ hM) <;> exact Sub.lit rfl
    | with_reducible apply State.raiseAs_touches
    | (with_reducible intro _; try dsimp only)
    | split

theorem State.count_touches {M : Nat} {s0 : State} (s : State) (a n : Nat) (hM : Sub 33554436 M) (hT : Touches M s0 s) :
  Touches M s0 (State.count s a n) := by
  unfold State.count
  try dsimp only
  repeat' first
    | with_reducible assumption
    | (with_reducible refine Sub.trans ?_ hM) <;> exact Sub.lit rfl
    | with_reducible apply State.wr_touches
    | with_reducible apply State.raise_touches
    | (with_reducible intro _; try dsimp only)
    | split

theorem State.refuseAccess_touches {M : Nat} {s0 : State} (s : State) (c : Code) (sev unit : Nat) (w : Accessor) (a : Nat)
  (write : Bool) (hM : Sub 33554436 M) (hT : Touches M s0 s) : Touches M s0 (State.refuseAccess s c sev unit w a write) :=
  by
  unfold State.refuseAccess
  try dsimp only
  repeat' first
    | with_reducible assumption
    | (with_reducible refine Sub.trans ?_ hM) <;> exact Sub.lit rfl
    | with_reducible apply State.raiseAs_touches
    | with_reducible apply State.count_touches
    | (with_reducible intro _; try dsimp only)
    | split

theorem State.setBad_touches {M : Nat} {s0 : State} (s : State) (x : List (Nat × Bool)) (hM : Sub 67108864 M) (hT : Touches
  M s0 s) : Touches M s0 (State.setBad s x) := by
  unfold State.setBad
  try dsimp only
  repeat' first
    | with_reducible assumption
    | (with_reducible refine Sub.trans ?_ hM) <;> exact Sub.lit rfl
    | with_reducible apply Touches.set_bad
    | (with_reducible intro _; try dsimp only)
    | split

theorem State.setPoison_touches {M : Nat} {s0 : State} (s : State) (x : List (Nat × Bool)) (hM : Sub 134217728 M) (hT :
  Touches M s0 s) : Touches M s0 (State.setPoison s x) := by
  unfold State.setPoison
  try dsimp only
  repeat' first
    | with_reducible assumption
    | (with_reducible refine Sub.trans ?_ hM) <;> exact Sub.lit rfl
    | with_reducible apply Touches.set_poison
    | (with_reducible intro _; try dsimp only)
    | split

theorem State.clearPoison_touches {M : Nat} {s0 : State} (s : State) (a n : Nat) (hM : Sub 134217728 M) (hT : Touches M s0
  s) : Touches M s0 (State.clearPoison s a n) := by
  unfold State.clearPoison
  try dsimp only
  repeat' first
    | with_reducible assumption
    | (with_reducible refine Sub.trans ?_ hM) <;> exact Sub.lit rfl
    | with_reducible apply State.setPoison_touches
    | (with_reducible intro _; try dsimp only)
    | split

theorem State.setEntry_touches {M : Nat} {s0 : State} (s : State) (c k : Nat) (e : Entry) (hM : Sub 32 M) (hT : Touches M
  s0 s) : Touches M s0 (State.setEntry s c k e) := by
  refine Touches.updWf hM hT (fun f hf => by cases f <;> first | rfl | exact absurd hf (by decide)) rfl ?_
  simp only [canonical_iff]
  rintro ⟨h1, h2, h3, h4, h5⟩
  exact ⟨h1, h2, h3, h4, Sparse.wf_put (d := fun _ => Entry.reset) h5⟩

theorem State.setByte_touches {M : Nat} {s0 : State} (s : State) (a : Nat) (b : BitVec 8) (hM : Sub 40 M) (hT : Touches M
  s0 s) : Touches M s0 (State.setByte s a b) := by
  unfold State.setByte
  split
  · dsimp only
    exact State.setEntry_touches _ _ _ _ (Sub.trans (Sub.lit rfl) hM) hT
  · refine Touches.updWf (K := 8) (Sub.trans (Sub.lit rfl) hM) hT (fun f hf => by cases f <;> first | rfl | exact absurd hf (by decide)) rfl ?_
    simp only [canonical_iff]
    rintro ⟨h1, h2, h3, h4, h5⟩
    exact ⟨Mem.write_wf _ _ h1, h2, h3, h4, h5⟩

theorem State.setBytes_touches {M : Nat} {s0 : State} (s : State) (a : Nat) (y0 : List (BitVec 8)) (hM : Sub 40 M) (hT :
  Touches M s0 s) : Touches M s0 (State.setBytes s a y0) := by
  induction y0 generalizing s a with
  | nil => exact hT
  | cons b t ih => exact ih _ _ (State.setByte_touches _ _ _ hM hT)

theorem State.store_touches {M : Nat} {s0 : State} (s : State) (a : Nat) (bs : List (BitVec 8)) (hM : Sub 201326632 M) (hT
  : Touches M s0 s) : Touches M s0 (State.store s a bs) := by
  unfold State.store
  try dsimp only
  repeat' first
    | with_reducible assumption
    | (with_reducible refine Sub.trans ?_ hM) <;> exact Sub.lit rfl
    | with_reducible apply State.setBad_touches
    | with_reducible apply State.clearPoison_touches
    | with_reducible apply State.setBytes_touches
    | (with_reducible intro _; try dsimp only)
    | split

theorem State.storeNat_touches {M : Nat} {s0 : State} (s : State) (a n v : Nat) (hM : Sub 201326632 M) (hT : Touches M s0
  s) : Touches M s0 (State.storeNat s a n v) := by
  unfold State.storeNat
  try dsimp only
  repeat' first
    | with_reducible assumption
    | (with_reducible refine Sub.trans ?_ hM) <;> exact Sub.lit rfl
    | with_reducible apply State.store_touches
    | (with_reducible intro _; try dsimp only)
    | split

theorem State.setHartFull_touches {M : Nat} {s0 : State} (s : State) (x : List Nat) (hM : Sub 576460752303423488 M) (hT :
  Touches M s0 s) : Touches M s0 (State.setHartFull s x) := by
  unfold State.setHartFull
  try dsimp only
  repeat' first
    | with_reducible assumption
    | (with_reducible refine Sub.trans ?_ hM) <;> exact Sub.lit rfl
    | with_reducible apply Touches.set_hartFull
    | (with_reducible intro _; try dsimp only)
    | split

theorem State.setOut_touches {M : Nat} {s0 : State} (s : State) (x : List Output) (hM : Sub 16777216 M) (hT : Touches M s0
  s) : Touches M s0 (State.setOut s x) := by
  unfold State.setOut
  try dsimp only
  repeat' first
    | with_reducible assumption
    | (with_reducible refine Sub.trans ?_ hM) <;> exact Sub.lit rfl
    | with_reducible apply Touches.set_out
    | (with_reducible intro _; try dsimp only)
    | split

theorem State.hartRecord_touches {M : Nat} {s0 : State} (s : State) (h cookie object status : Nat) (hM : Sub
  576460752555081772 M) (hT : Touches M s0 s) : Touches M s0 (State.hartRecord s h cookie object status) := by
  unfold State.hartRecord
  try dsimp only
  repeat' first
    | with_reducible assumption
    | (with_reducible refine Sub.trans ?_ hM) <;> exact Sub.lit rfl
    | with_reducible apply State.refuseAccess_touches
    | with_reducible apply State.storeNat_touches
    | with_reducible apply State.setHartFull_touches
    | with_reducible apply State.wr_touches
    | with_reducible apply State.setOut_touches
    | (with_reducible intro _; try dsimp only)
    | split

theorem State.entryWaitFailed_touches {M : Nat} {s0 : State} (s : State) (unit part object index : Nat) (code : Code) (hM :
  Sub 33554432 M) (hT : Touches M s0 s) : Touches M s0 (State.entryWaitFailed s unit part object index code) := by
  unfold State.entryWaitFailed
  try dsimp only
  repeat' first
    | with_reducible assumption
    | (with_reducible refine Sub.trans ?_ hM) <;> exact Sub.lit rfl
    | with_reducible apply State.raiseAs_touches
    | (with_reducible intro _; try dsimp only)
    | split

theorem State.setHeads_touches {M : Nat} {s0 : State} (s : State) (x : List (Nat × HeadWait)) (hM : Sub 65536 M) (hT :
  Touches M s0 s) : Touches M s0 (State.setHeads s x) := by
  unfold State.setHeads
  try dsimp only
  repeat' first
    | with_reducible assumption
    | (with_reducible refine Sub.trans ?_ hM) <;> exact Sub.lit rfl
    | with_reducible apply Touches.set_heads
    | (with_reducible intro _; try dsimp only)
    | split

theorem State.setHeadWait_touches {M : Nat} {s0 : State} (s : State) (k : Nat) (w : HeadWait) (hM : Sub 65536 M) (hT :
  Touches M s0 s) : Touches M s0 (State.setHeadWait s k w) := by
  unfold State.setHeadWait
  try dsimp only
  repeat' first
    | with_reducible assumption
    | (with_reducible refine Sub.trans ?_ hM) <;> exact Sub.lit rfl
    | with_reducible apply State.setHeads_touches
    | (with_reducible intro _; try dsimp only)
    | split

theorem State.entryLetGo_touches {M : Nat} {s0 : State} (s : State) (key unit part object index : Nat) (y0 : Option Code)
  (hM : Sub 33619968 M) (hT : Touches M s0 s) : Touches M s0 (State.entryLetGo s key unit part object index y0) := by
  unfold State.entryLetGo
  try dsimp only
  repeat' first
    | with_reducible assumption
    | (with_reducible refine Sub.trans ?_ hM) <;> exact Sub.lit rfl
    | with_reducible apply State.entryWaitFailed_touches
    | with_reducible apply State.setHeadWait_touches
    | (with_reducible intro _; try dsimp only)
    | split

theorem State.enterHalted_touches {M : Nat} {s0 : State} (s : State) (c cause : Nat) (hM : Sub 256 M) (hT : Touches M s0 s)
  : Touches M s0 (State.enterHalted s c cause) := by
  unfold State.enterHalted
  try dsimp only
  repeat' first
    | with_reducible assumption
    | (with_reducible refine Sub.trans ?_ hM) <;> exact Sub.lit rfl
    | with_reducible apply State.modCore_touches
    | (with_reducible intro _; try dsimp only)
    | split

theorem State.haltCore_touches {M : Nat} {s0 : State} (s : State) (c cause : Nat) (hM : Sub 256 M) (hT : Touches M s0 s) :
  Touches M s0 (State.haltCore s c cause) := by
  unfold State.haltCore
  try dsimp only
  repeat' first
    | with_reducible assumption
    | (with_reducible refine Sub.trans ?_ hM) <;> exact Sub.lit rfl
    | with_reducible apply State.enterHalted_touches
    | with_reducible apply State.modCore_touches
    | (with_reducible intro _; try dsimp only)
    | split

theorem State.enterFaulted_touches {M : Nat} {s0 : State} (s : State) (c : Nat) (hM : Sub 260 M) (hT : Touches M s0 s) :
  Touches M s0 (State.enterFaulted s c) := by
  unfold State.enterFaulted
  try dsimp only
  repeat' first
    | with_reducible assumption
    | (with_reducible refine Sub.trans ?_ hM) <;> exact Sub.lit rfl
    | with_reducible apply State.haltCore_touches
    | with_reducible apply State.modCore_touches
    | with_reducible apply State.wr_touches
    | with_reducible apply Touches.foldl
    | with_reducible apply Touches1.foldl
    | with_reducible apply Touches1.fst
    | (with_reducible intro _; try dsimp only)
    | split
    | with_reducible apply Touches1.mk

theorem State.settle_touches {M : Nat} {s0 : State} (s : State) (c : Nat) (hM : Sub 260 M) (hT : Touches M s0 s) : Touches
  M s0 (State.settle s c) := by
  unfold State.settle
  try dsimp only
  repeat' first
    | with_reducible assumption
    | (with_reducible refine Sub.trans ?_ hM) <;> exact Sub.lit rfl
    | with_reducible apply State.enterFaulted_touches
    | with_reducible apply State.enterHalted_touches
    | (with_reducible intro _; try dsimp only)
    | split

theorem State.failCore_touches {M : Nat} {s0 : State} (s : State) (c code index op stream : Nat) (hM : Sub 260 M) (hT :
  Touches M s0 s) : Touches M s0 (State.failCore s c code index op stream) := by
  unfold State.failCore
  try dsimp only
  repeat' first
    | with_reducible assumption
    | (with_reducible refine Sub.trans ?_ hM) <;> exact Sub.lit rfl
    | with_reducible apply State.setReg_touches
    | with_reducible apply State.modCore_touches
    | with_reducible apply State.settle_touches
    | (with_reducible intro _; try dsimp only)
    | split

theorem State.offer_touches {M : Nat} {s0 : State} (s : State) (c : Nat) (x : TraceEntry) (hM : Sub 33554692 M) (hT :
  Touches M s0 s) : Touches M s0 (State.offer s c x) := by
  unfold State.offer
  try dsimp only
  repeat' first
    | with_reducible assumption
    | (with_reducible refine Sub.trans ?_ hM) <;> exact Sub.lit rfl
    | with_reducible apply State.modCore_touches
    | with_reducible apply State.count_touches
    | (with_reducible intro _; try dsimp only)
    | split

theorem State.traceFailed_touches {M : Nat} {s0 : State} (s : State) (c status index op w : Nat) (hM : Sub 33554692 M) (hT
  : Touches M s0 s) : Touches M s0 (State.traceFailed s c status index op w) := by
  unfold State.traceFailed
  try dsimp only
  repeat' first
    | with_reducible assumption
    | (with_reducible refine Sub.trans ?_ hM) <;> exact Sub.lit rfl
    | with_reducible apply State.offer_touches
    | (with_reducible intro _; try dsimp only)
    | split

theorem State.coreWaitFailed_touches {M : Nat} {s0 : State} (s : State) (c object : Nat) (code : Code) (hM : Sub 33554692
  M) (hT : Touches M s0 s) : Touches M s0 (State.coreWaitFailed s c object code) := by
  unfold State.coreWaitFailed
  try dsimp only
  repeat' first
    | with_reducible assumption
    | (with_reducible refine Sub.trans ?_ hM) <;> exact Sub.lit rfl
    | with_reducible apply State.failCore_touches
    | with_reducible apply State.modCore_touches
    | with_reducible apply State.raiseAs_touches
    | with_reducible apply State.traceFailed_touches
    | (with_reducible intro _; try dsimp only)
    | split

theorem State.letGo_touches {M : Nat} {s0 : State} (s : State) (object : Nat) (a : WaitAgent) (r : Option Code) (hM : Sub
  576460752555147564 M) (hT : Touches M s0 s) : Touches M s0 (State.letGo s object a r) := by
  unfold State.letGo
  try dsimp only
  repeat' first
    | with_reducible assumption
    | (with_reducible refine Sub.trans ?_ hM) <;> exact Sub.lit rfl
    | with_reducible apply State.modCore_touches
    | with_reducible apply State.hartRecord_touches
    | with_reducible apply State.entryLetGo_touches
    | with_reducible apply State.coreWaitFailed_touches
    | (with_reducible intro _; try dsimp only)
    | split

theorem State.abandon_touches {M : Nat} {s0 : State} (s : State) (object place : Nat) (hM : Sub 576460752555148078 M) (hT :
  Touches M s0 s) : Touches M s0 (State.abandon s object place) := by
  unfold State.abandon
  dsimp only
  split
  · exact hT
  split
  · exact hT
  · refine State.letGo_touches _ _ _ _ (Sub.trans (Sub.lit rfl) hM) (State.count_touches _ _ _ (Sub.trans (Sub.lit rfl) hM) ?_)
    refine State.setObj_touches _ _ _ (fun hr hc => ?_) (Sub.trans (Sub.lit rfl) hM) (State.setDtime_touches _ _ (Sub.trans (Sub.lit rfl) hM) hT)
    have h : (s.obj object).waiters = [] := hr object hc
    rw [h]
    rfl

theorem State.setReqs_touches {M : Nat} {s0 : State} (s : State) (x : List Req) (hM : Sub 68719476736 M) (hT : Touches M s0
  s) : Touches M s0 (State.setReqs s x) := by
  unfold State.setReqs
  try dsimp only
  repeat' first
    | with_reducible assumption
    | (with_reducible refine Sub.trans ?_ hM) <;> exact Sub.lit rfl
    | with_reducible apply Touches.set_reqs
    | (with_reducible intro _; try dsimp only)
    | split

theorem State.abandonReqs_touches {M : Nat} {s0 : State} (s : State) (q : Agent → Bool) (hM : Sub 68719476736 M) (hT :
  Touches M s0 s) : Touches M s0 (State.abandonReqs s q) := by
  unfold State.abandonReqs
  try dsimp only
  repeat' first
    | with_reducible assumption
    | (with_reducible refine Sub.trans ?_ hM) <;> exact Sub.lit rfl
    | with_reducible apply State.setReqs_touches
    | (with_reducible intro _; try dsimp only)
    | split

theorem State.dropReq_touches {M : Nat} {s0 : State} (s : State) (tag : Nat) (hM : Sub 68719476736 M) (hT : Touches M s0 s)
  : Touches M s0 (State.dropReq s tag) := by
  unfold State.dropReq
  try dsimp only
  repeat' first
    | with_reducible assumption
    | (with_reducible refine Sub.trans ?_ hM) <;> exact Sub.lit rfl
    | with_reducible apply State.setReqs_touches
    | (with_reducible intro _; try dsimp only)
    | split

theorem State.ackWrites_touches {M : Nat} {s0 : State} (s : State) (r : Req) (n : Nat) (hM : Sub 68719476736 M) (hT :
  Touches M s0 s) : Touches M s0 (State.ackWrites s r n) := by
  unfold State.ackWrites
  try dsimp only
  repeat' first
    | with_reducible assumption
    | (with_reducible refine Sub.trans ?_ hM) <;> exact Sub.lit rfl
    | with_reducible apply State.dropReq_touches
    | with_reducible apply Touches.foldl
    | with_reducible apply Touches1.foldl
    | with_reducible apply Touches1.fst
    | (with_reducible intro _; try dsimp only)
    | split
    | with_reducible apply Touches1.mk

theorem State.writeVia_touches {M : Nat} {s0 : State} (s : State) (w : Accessor) (unit a n v : Nat) (hM : Sub 234881068 M)
  (hT : Touches M s0 s) : Touches M s0 (State.writeVia s w unit a n v) := by
  unfold State.writeVia
  try dsimp only
  repeat' first
    | with_reducible assumption
    | (with_reducible refine Sub.trans ?_ hM) <;> exact Sub.lit rfl
    | with_reducible apply State.refuseAccess_touches
    | with_reducible apply State.storeNat_touches
    | (with_reducible intro _; try dsimp only)
    | split

theorem State.setFeeds_touches {M : Nat} {s0 : State} (s : State) (x : List (Nat × Feed)) (hM : Sub 1099511627776 M) (hT :
  Touches M s0 s) : Touches M s0 (State.setFeeds s x) := by
  unfold State.setFeeds
  try dsimp only
  repeat' first
    | with_reducible assumption
    | (with_reducible refine Sub.trans ?_ hM) <;> exact Sub.lit rfl
    | with_reducible apply Touches.set_feeds
    | (with_reducible intro _; try dsimp only)
    | split

theorem State.modFeed_touches {M : Nat} {s0 : State} (s : State) (f : Nat) (g : Feed → Feed) (hM : Sub 1099511627776 M) (hT
  : Touches M s0 s) : Touches M s0 (State.modFeed s f g) := by
  unfold State.modFeed
  try dsimp only
  repeat' first
    | with_reducible assumption
    | (with_reducible refine Sub.trans ?_ hM) <;> exact Sub.lit rfl
    | with_reducible apply State.setFeeds_touches
    | (with_reducible intro _; try dsimp only)
    | split

theorem State.addStarve_touches {M : Nat} {s0 : State} (s : State) (f : Nat) (hM : Sub 1099746508844 M) (hT : Touches M s0
  s) : Touches M s0 (State.addStarve s f) := by
  unfold State.addStarve
  try dsimp only
  repeat' first
    | with_reducible assumption
    | (with_reducible refine Sub.trans ?_ hM) <;> exact Sub.lit rfl
    | with_reducible apply State.writeVia_touches
    | with_reducible apply State.modFeed_touches
    | with_reducible apply State.count_touches
    | with_reducible apply Touches.foldl
    | with_reducible apply Touches1.foldl
    | with_reducible apply Touches1.fst
    | (with_reducible intro _; try dsimp only)
    | split
    | with_reducible apply Touches1.mk

theorem State.setReds_touches {M : Nat} {s0 : State} (s : State) (x : List Red) (hM : Sub 17592186044416 M) (hT : Touches M
  s0 s) : Touches M s0 (State.setReds s x) := by
  unfold State.setReds
  try dsimp only
  repeat' first
    | with_reducible assumption
    | (with_reducible refine Sub.trans ?_ hM) <;> exact Sub.lit rfl
    | with_reducible apply Touches.set_reds
    | (with_reducible intro _; try dsimp only)
    | split

theorem State.dropRed_touches {M : Nat} {s0 : State} (s : State) (p cls : Nat) (hM : Sub 17592186044416 M) (hT : Touches M
  s0 s) : Touches M s0 (State.dropRed s p cls) := by
  unfold State.dropRed
  try dsimp only
  repeat' first
    | with_reducible assumption
    | (with_reducible refine Sub.trans ?_ hM) <;> exact Sub.lit rfl
    | with_reducible apply State.setReds_touches
    | (with_reducible intro _; try dsimp only)
    | split

theorem State.setRed_touches {M : Nat} {s0 : State} (s : State) (r : Red) (hM : Sub 17592186044416 M) (hT : Touches M s0 s)
  : Touches M s0 (State.setRed s r) := by
  unfold State.setRed
  try dsimp only
  repeat' first
    | with_reducible assumption
    | (with_reducible refine Sub.trans ?_ hM) <;> exact Sub.lit rfl
    | with_reducible apply State.dropRed_touches
    | with_reducible apply State.setReds_touches
    | (with_reducible intro _; try dsimp only)
    | split

theorem State.failRed_touches {M : Nat} {s0 : State} (s : State) (r : Red) (reason : Nat) (hM : Sub 17592219598852 M) (hT :
  Touches M s0 s) : Touches M s0 (State.failRed s r reason) := by
  unfold State.failRed
  try dsimp only
  repeat' first
    | with_reducible assumption
    | (with_reducible refine Sub.trans ?_ hM) <;> exact Sub.lit rfl
    | with_reducible apply State.raise_touches
    | with_reducible apply State.setRed_touches
    | with_reducible apply State.count_touches
    | (with_reducible intro _; try dsimp only)
    | split

theorem State.redViewChanged_touches {M : Nat} {s0 : State} (s : State) (group : Nat) (hM : Sub 17592219598852 M) (hT :
  Touches M s0 s) : Touches M s0 (State.redViewChanged s group) := by
  unfold State.redViewChanged
  try dsimp only
  repeat' first
    | with_reducible assumption
    | (with_reducible refine Sub.trans ?_ hM) <;> exact Sub.lit rfl
    | with_reducible apply State.failRed_touches
    | with_reducible apply Touches.foldl
    | with_reducible apply Touches1.foldl
    | with_reducible apply Touches1.fst
    | (with_reducible intro _; try dsimp only)
    | split
    | with_reducible apply Touches1.mk

theorem State.setGviews_touches {M : Nat} {s0 : State} (s : State) (x : List (Nat × GView)) (hM : Sub 8796093022208 M) (hT
  : Touches M s0 s) : Touches M s0 (State.setGviews s x) := by
  unfold State.setGviews
  try dsimp only
  repeat' first
    | with_reducible assumption
    | (with_reducible refine Sub.trans ?_ hM) <;> exact Sub.lit rfl
    | with_reducible apply Touches.set_gviews
    | (with_reducible intro _; try dsimp only)
    | split

theorem State.bindGroup_touches {M : Nat} {s0 : State} (s : State) (p : Nat) (v : GView) (hM : Sub 4 M) (hT : Touches M s0
  s) : Touches M s0 (State.bindGroup s p v) := by
  unfold State.bindGroup
  try dsimp only
  repeat' first
    | with_reducible assumption
    | (with_reducible refine Sub.trans ?_ hM) <;> exact Sub.lit rfl
    | with_reducible apply State.wr_touches
    | (with_reducible intro _; try dsimp only)
    | split

theorem State.adoptGroup_touches {M : Nat} {s0 : State} (s : State) (group : Nat) (v : GView) (hM : Sub 26388312621060 M)
  (hT : Touches M s0 s) : Touches M s0 (State.adoptGroup s group v) := by
  unfold State.adoptGroup
  try dsimp only
  repeat' first
    | with_reducible assumption
    | (with_reducible refine Sub.trans ?_ hM) <;> exact Sub.lit rfl
    | with_reducible apply State.redViewChanged_touches
    | with_reducible apply State.setGviews_touches
    | with_reducible apply State.bindGroup_touches
    | with_reducible apply Touches.foldl
    | with_reducible apply Touches1.foldl
    | with_reducible apply Touches1.fst
    | (with_reducible intro _; try dsimp only)
    | split
    | with_reducible apply Touches1.mk

theorem State.unreachable_touches {M : Nat} {s0 : State} (s : State) (sev part : Nat) (m : Msg) (hM : Sub 33554432 M) (hT :
  Touches M s0 s) : Touches M s0 (State.unreachable s sev part m) := by
  unfold State.unreachable
  try dsimp only
  repeat' first
    | with_reducible assumption
    | (with_reducible refine Sub.trans ?_ hM) <;> exact Sub.lit rfl
    | with_reducible apply State.raiseAs_touches
    | (with_reducible intro _; try dsimp only)
    | split

theorem State.setPorts_touches {M : Nat} {s0 : State} (s : State) (x : List (Nat × Port)) (hM : Sub 4294967296 M) (hT :
  Touches M s0 s) : Touches M s0 (State.setPorts s x) := by
  unfold State.setPorts
  try dsimp only
  repeat' first
    | with_reducible assumption
    | (with_reducible refine Sub.trans ?_ hM) <;> exact Sub.lit rfl
    | with_reducible apply Touches.set_ports
    | (with_reducible intro _; try dsimp only)
    | split

theorem State.modPort_touches {M : Nat} {s0 : State} (s : State) (n : Nat) (f : Port → Port) (hM : Sub 4294967296 M) (hT :
  Touches M s0 s) : Touches M s0 (State.modPort s n f) := by
  unfold State.modPort
  try dsimp only
  repeat' first
    | with_reducible assumption
    | (with_reducible refine Sub.trans ?_ hM) <;> exact Sub.lit rfl
    | with_reducible apply State.setPorts_touches
    | (with_reducible intro _; try dsimp only)
    | split

theorem State.enqueueMsg_touches {M : Nat} {s0 : State} (s : State) (unit : Nat) (m : Msg) (hM : Sub 4294967296 M) (hT :
  Touches M s0 s) : Touches M s0 (State.enqueueMsg s unit m) := by
  unfold State.enqueueMsg
  try dsimp only
  repeat' first
    | with_reducible assumption
    | (with_reducible refine Sub.trans ?_ hM) <;> exact Sub.lit rfl
    | with_reducible apply State.modPort_touches
    | (with_reducible intro _; try dsimp only)
    | split

theorem State.sendMsg_touches {M : Nat} {s0 : State} (s : State) (unit sev part : Nat) (m : Msg) (hM : Sub 4328521728 M)
  (hT : Touches M s0 s) : Touches M s0 (State.sendMsg s unit sev part m) := by
  unfold State.sendMsg
  try dsimp only
  repeat' first
    | with_reducible assumption
    | (with_reducible refine Sub.trans ?_ hM) <;> exact Sub.lit rfl
    | with_reducible apply State.unreachable_touches
    | with_reducible apply State.enqueueMsg_touches
    | (with_reducible intro _; try dsimp only)
    | split

theorem State.sendVector_touches {M : Nat} {s0 : State} (s : State) (r : Red) (type level dst : Nat) (hM : Sub 4328521728
  M) (hT : Touches M s0 s) : Touches M s0 (State.sendVector s r type level dst) := by
  unfold State.sendVector
  try dsimp only
  repeat' first
    | with_reducible assumption
    | (with_reducible refine Sub.trans ?_ hM) <;> exact Sub.lit rfl
    | with_reducible apply State.sendMsg_touches
    | with_reducible apply Touches.foldl
    | with_reducible apply Touches1.foldl
    | with_reducible apply Touches1.fst
    | (with_reducible intro _; try dsimp only)
    | split
    | with_reducible apply Touches1.mk

theorem State.redDone_touches {M : Nat} {s0 : State} (s : State) (r : Red) (v : List Nat) (hM : Sub 17592219598852 M) (hT :
  Touches M s0 s) : Touches M s0 (State.redDone s r v) := by
  unfold State.redDone
  try dsimp only
  repeat' first
    | with_reducible assumption
    | (with_reducible refine Sub.trans ?_ hM) <;> exact Sub.lit rfl
    | with_reducible apply State.setRed_touches
    | with_reducible apply State.count_touches
    | (with_reducible intro _; try dsimp only)
    | split

theorem State.advanceRed_touches {M : Nat} {s0 : State} (s : State) (r : Red) (y0 : Nat) (hM : Sub 17596514566148 M) (hT :
  Touches M s0 s) : Touches M s0 (State.advanceRed s r y0) := by
  induction y0 generalizing s r with
  | zero =>
    unfold State.advanceRed
    try dsimp only
    repeat' first
      | with_reducible assumption
      | (with_reducible refine Sub.trans ?_ hM) <;> exact Sub.lit rfl
      | with_reducible apply State.sendVector_touches
      | with_reducible apply ih
      | with_reducible apply State.redDone_touches
      | with_reducible apply State.setRed_touches
      | with_reducible apply State.count_touches
      | with_reducible apply Touches.foldl
      | with_reducible apply Touches1.foldl
      | with_reducible apply Touches1.fst
      | (with_reducible intro _; try dsimp only)
      | split
      | with_reducible apply Touches1.mk
  | succ n ih =>
    unfold State.advanceRed
    try dsimp only
    repeat' first
      | with_reducible assumption
      | (with_reducible refine Sub.trans ?_ hM) <;> exact Sub.lit rfl
      | with_reducible apply State.sendVector_touches
      | with_reducible apply ih
      | with_reducible apply State.redDone_touches
      | with_reducible apply State.setRed_touches
      | with_reducible apply State.count_touches
      | with_reducible apply Touches.foldl
      | with_reducible apply Touches1.foldl
      | with_reducible apply Touches1.fst
      | (with_reducible intro _; try dsimp only)
      | split
      | with_reducible apply Touches1.mk

theorem State.after_touches {M : Nat} {s0 : State} (s : State) (o : Host.Outcome State Fault Refusal) (hO : TouchesO M s0 o)
    (hT : Touches M s0 s) : Touches M s0 (s.after o) := by
  cases o with
  | next t => exact hO t rfl
  | _ => exact hT

theorem State.raiseCore_touches {M : Nat} {s0 : State} (s : State) (code : Code) (c engine : Nat) (pay : Nat) (hM : Sub
  33554432 M) (hT : Touches M s0 s) : Touches M s0 (State.raiseCore s code c engine pay) := by
  unfold State.raiseCore
  try dsimp only
  repeat' first
    | with_reducible assumption
    | (with_reducible refine Sub.trans ?_ hM) <;> exact Sub.lit rfl
    | with_reducible apply State.raise_touches
    | (with_reducible intro _; try dsimp only)
    | split

theorem State.refuseCommand_touches {M : Nat} {s0 : State} (s : State) (c reason index op : Nat) (hM : Sub 33554692 M) (hT
  : Touches M s0 s) : Touches M s0 (State.refuseCommand s c reason index op) := by
  unfold State.refuseCommand
  try dsimp only
  repeat' first
    | with_reducible assumption
    | (with_reducible refine Sub.trans ?_ hM) <;> exact Sub.lit rfl
    | with_reducible apply State.failCore_touches
    | with_reducible apply State.raiseCore_touches
    | (with_reducible intro _; try dsimp only)
    | split

theorem State.testBreak_touches {M : Nat} {s0 : State} (s : State) (c : Nat) (hM : Sub 33554692 M) (hT : Touches M s0 s) :
  Touches M s0 (State.testBreak s c) := by
  unfold State.testBreak
  try dsimp only
  repeat' first
    | with_reducible assumption
    | (with_reducible refine Sub.trans ?_ hM) <;> exact Sub.lit rfl
    | with_reducible apply State.haltCore_touches
    | with_reducible apply State.modCore_touches
    | with_reducible apply State.wr_touches
    | with_reducible apply State.raiseCore_touches
    | with_reducible apply Touches.foldl
    | with_reducible apply Touches1.foldl
    | with_reducible apply Touches1.fst
    | (with_reducible intro _; try dsimp only)
    | split
    | with_reducible apply Touches1.mk

theorem State.testHalt_touches {M : Nat} {s0 : State} (s : State) (c : Nat) (hM : Sub 256 M) (hT : Touches M s0 s) :
  Touches M s0 (State.testHalt s c) := by
  unfold State.testHalt
  try dsimp only
  repeat' first
    | with_reducible assumption
    | (with_reducible refine Sub.trans ?_ hM) <;> exact Sub.lit rfl
    | with_reducible apply State.haltCore_touches
    | (with_reducible intro _; try dsimp only)
    | split

theorem State.atHead_touches {M : Nat} {s0 : State} (s : State) (c : Nat) (hM : Sub 33554692 M) (hT : Touches M s0 s) :
  Touches M s0 (State.atHead s c) := by
  unfold State.atHead
  try dsimp only
  repeat' first
    | with_reducible assumption
    | (with_reducible refine Sub.trans ?_ hM) <;> exact Sub.lit rfl
    | with_reducible apply State.testBreak_touches
    | with_reducible apply State.testHalt_touches
    | (with_reducible intro _; try dsimp only)
    | split

theorem State.afterIssue_touches {M : Nat} {s0 : State} (s : State) (c : Nat) (hM : Sub 33554692 M) (hT : Touches M s0 s) :
  Touches M s0 (State.afterIssue s c) := by
  unfold State.afterIssue
  try dsimp only
  repeat' first
    | with_reducible assumption
    | (with_reducible refine Sub.trans ?_ hM) <;> exact Sub.lit rfl
    | with_reducible apply State.refuseCommand_touches
    | with_reducible apply State.atHead_touches
    | (with_reducible intro _; try dsimp only)
    | split

theorem State.gateCount_touches {M : Nat} {s0 : State} (s : State) (hM : Sub 33554436 M) (hT : Touches M s0 s) : Touches M
  s0 (State.gateCount s) := by
  unfold State.gateCount
  try dsimp only
  repeat' first
    | with_reducible assumption
    | (with_reducible refine Sub.trans ?_ hM) <;> exact Sub.lit rfl
    | with_reducible apply State.count_touches
    | (with_reducible intro _; try dsimp only)
    | split

theorem State.mbxDenied_touches {M : Nat} {s0 : State} (s : State) (c id : Nat) (write : Bool) (hM : Sub 33554432 M) (hT :
  Touches M s0 s) : Touches M s0 (State.mbxDenied s c id write) := by
  unfold State.mbxDenied
  try dsimp only
  repeat' first
    | with_reducible assumption
    | (with_reducible refine Sub.trans ?_ hM) <;> exact Sub.lit rfl
    | with_reducible apply State.raise_touches
    | (with_reducible intro _; try dsimp only)
    | split

theorem State.setReferee_touches {M : Nat} {s0 : State} (s : State) (x : Referee) (hM : Sub 4503599627370496 M) (hT :
  Touches M s0 s) : Touches M s0 (State.setReferee s x) := by
  unfold State.setReferee
  try dsimp only
  repeat' first
    | with_reducible assumption
    | (with_reducible refine Sub.trans ?_ hM) <;> exact Sub.lit rfl
    | with_reducible apply Touches.set_referee
    | (with_reducible intro _; try dsimp only)
    | split

theorem State.privEvent_touches {M : Nat} {s0 : State} (s : State) (id : Nat) (part : Option Nat) (a : Nat) (hM : Sub
  4503599660924928 M) (hT : Touches M s0 s) : Touches M s0 (State.privEvent s id part a) := by
  unfold State.privEvent
  try dsimp only
  repeat' first
    | with_reducible assumption
    | (with_reducible refine Sub.trans ?_ hM) <;> exact Sub.lit rfl
    | with_reducible apply State.raise_touches
    | with_reducible apply State.setReferee_touches
    | (with_reducible intro _; try dsimp only)
    | split

theorem State.privDenied_touches {M : Nat} {s0 : State} (s : State) (id : Nat) (part : Option Nat) (a : Nat) (hM : Sub
  4503599660924932 M) (hT : Touches M s0 s) : Touches M s0 (State.privDenied s id part a) := by
  unfold State.privDenied
  try dsimp only
  repeat' first
    | with_reducible assumption
    | (with_reducible refine Sub.trans ?_ hM) <;> exact Sub.lit rfl
    | with_reducible apply State.privEvent_touches
    | with_reducible apply State.count_touches
    | (with_reducible intro _; try dsimp only)
    | split

theorem State.blockRead_touches {M : Nat} {s0 : State} (s : State) (m : Master) (a n : Nat) (hM : Sub 4503599660924932 M)
  (hT : Touches M s0 s) : Touches1 M s0 (State.blockRead s m a n) := by
  unfold State.blockRead
  try dsimp only
  repeat' first
    | with_reducible assumption
    | (with_reducible refine Sub.trans ?_ hM) <;> exact Sub.lit rfl
    | with_reducible apply State.wr_touches
    | with_reducible apply State.mbxDenied_touches
    | with_reducible apply State.privDenied_touches
    | with_reducible apply Touches1.fst
    | (with_reducible intro _; try dsimp only)
    | split
    | with_reducible apply Touches1.mk

theorem State.busRead_touches {M : Nat} {s0 : State} (s : State) (m : Master) (a n : Nat) (hM : Sub 4503599660924932 M) (hT
  : Touches M s0 s) : Touches1 M s0 (State.busRead s m a n) := by
  unfold State.busRead
  try dsimp only
  repeat' first
    | with_reducible assumption
    | (with_reducible refine Sub.trans ?_ hM) <;> exact Sub.lit rfl
    | with_reducible apply State.gateCount_touches
    | with_reducible apply State.blockRead_touches
    | with_reducible apply State.count_touches
    | with_reducible apply Touches1.fst
    | (with_reducible intro _; try dsimp only)
    | split
    | with_reducible apply Touches1.mk

theorem State.agentRead_touches {M : Nat} {s0 : State} (s : State) (m : Master) (o n : Nat) (hM : Sub 4503599660924932 M)
  (hT : Touches M s0 s) : Touches1 M s0 (State.agentRead s m o n) := by
  unfold State.agentRead
  try dsimp only
  repeat' first
    | with_reducible assumption
    | (with_reducible refine Sub.trans ?_ hM) <;> exact Sub.lit rfl
    | with_reducible apply State.busRead_touches
    | with_reducible apply Touches1.fst
    | with_reducible apply Touches.foldl
    | with_reducible apply Touches1.foldl
    | with_reducible apply Touches1.fst
    | (with_reducible intro _; try dsimp only)
    | split
    | with_reducible apply Touches1.mk

theorem State.setPosted_touches {M : Nat} {s0 : State} (s : State) (x : List Posted) (hM : Sub 2251799813685248 M) (hT :
  Touches M s0 s) : Touches M s0 (State.setPosted s x) := by
  unfold State.setPosted
  try dsimp only
  repeat' first
    | with_reducible assumption
    | (with_reducible refine Sub.trans ?_ hM) <;> exact Sub.lit rfl
    | with_reducible apply Touches.set_posted
    | (with_reducible intro _; try dsimp only)
    | split

theorem State.agentWrite_touches {M : Nat} {s0 : State} (s : State) (part o : Nat) (bs : List (BitVec 8)) (hM : Sub
  2251799813685248 M) (hT : Touches M s0 s) : Touches M s0 (State.agentWrite s part o bs) := by
  unfold State.agentWrite
  try dsimp only
  repeat' first
    | with_reducible assumption
    | (with_reducible refine Sub.trans ?_ hM) <;> exact Sub.lit rfl
    | with_reducible apply State.setPosted_touches
    | with_reducible apply Touches.foldl
    | with_reducible apply Touches1.foldl
    | with_reducible apply Touches1.fst
    | (with_reducible intro _; try dsimp only)
    | split
    | with_reducible apply Touches1.mk

theorem State.alert_touches {M : Nat} {s0 : State} (s : State) (hM : Sub 4 M) (hT : Touches M s0 s) : Touches M s0
  (State.alert s) := by
  unfold State.alert
  try dsimp only
  repeat' first
    | with_reducible assumption
    | (with_reducible refine Sub.trans ?_ hM) <;> exact Sub.lit rfl
    | with_reducible apply State.wr_touches
    | (with_reducible intro _; try dsimp only)
    | split

theorem State.answer_touches {M : Nat} {s0 : State} (s : State) (m : Msg) (hM : Sub 4328521728 M) (hT : Touches M s0 s) :
  Touches M s0 (State.answer s m) := by
  unfold State.answer
  try dsimp only
  repeat' first
    | with_reducible assumption
    | (with_reducible refine Sub.trans ?_ hM) <;> exact Sub.lit rfl
    | with_reducible apply State.sendMsg_touches
    | (with_reducible intro _; try dsimp only)
    | split

theorem State.setNat_touches {M : Nat} {s0 : State} (s : State) (a n v : Nat) (hM : Sub 40 M) (hT : Touches M s0 s) :
  Touches M s0 (State.setNat s a n v) := by
  unfold State.setNat
  try dsimp only
  repeat' first
    | with_reducible assumption
    | (with_reducible refine Sub.trans ?_ hM) <;> exact Sub.lit rfl
    | with_reducible apply State.setBytes_touches
    | (with_reducible intro _; try dsimp only)
    | split

theorem State.flipLine_touches {M : Nat} {s0 : State} (s : State) (a bytes : Nat) (errs : List (Nat × Nat)) (hM : Sub 40 M)
  (hT : Touches M s0 s) : Touches M s0 (State.flipLine s a bytes errs) := by
  unfold State.flipLine
  try dsimp only
  repeat' first
    | with_reducible assumption
    | (with_reducible refine Sub.trans ?_ hM) <;> exact Sub.lit rfl
    | with_reducible apply State.setNat_touches
    | with_reducible apply Touches.foldl
    | with_reducible apply Touches1.foldl
    | with_reducible apply Touches1.fst
    | (with_reducible intro _; try dsimp only)
    | split
    | with_reducible apply Touches1.mk

theorem State.lineError_touches {M : Nat} {s0 : State} (s : State) (x : Nat) (errs : List (Nat × Nat)) (hM : Sub 167772204
  M) (hT : Touches M s0 s) : Touches M s0 (State.lineError s x errs) := by
  unfold State.lineError
  try dsimp only
  repeat' first
    | with_reducible assumption
    | (with_reducible refine Sub.trans ?_ hM) <;> exact Sub.lit rfl
    | with_reducible apply State.setPoison_touches
    | with_reducible apply State.raise_touches
    | with_reducible apply State.raiseAs_touches
    | with_reducible apply State.flipLine_touches
    | with_reducible apply State.count_touches
    | (with_reducible intro _; try dsimp only)
    | split

theorem State.setCache_touches {M : Nat} {s0 : State} (s : State) (x : List (Nat × List CacheLine)) (hM : Sub 268435456 M)
  (hT : Touches M s0 s) : Touches M s0 (State.setCache s x) := by
  unfold State.setCache
  try dsimp only
  repeat' first
    | with_reducible assumption
    | (with_reducible refine Sub.trans ?_ hM) <;> exact Sub.lit rfl
    | with_reducible apply Touches.set_cache
    | (with_reducible intro _; try dsimp only)
    | split

theorem State.cacheParity_touches {M : Nat} {s0 : State} (s : State) (a : Nat) (hM : Sub 301989888 M) (hT : Touches M s0 s)
  : Touches M s0 (State.cacheParity s a) := by
  unfold State.cacheParity
  try dsimp only
  repeat' first
    | with_reducible assumption
    | (with_reducible refine Sub.trans ?_ hM) <;> exact Sub.lit rfl
    | with_reducible apply State.setCache_touches
    | with_reducible apply State.raiseAs_touches
    | (with_reducible intro _; try dsimp only)
    | split

theorem State.raiseParity_touches {M : Nat} {s0 : State} (s : State) (c engine sev a kind : Nat) (hM : Sub 33554432 M) (hT
  : Touches M s0 s) : Touches M s0 (State.raiseParity s c engine sev a kind) := by
  unfold State.raiseParity
  try dsimp only
  repeat' first
    | with_reducible assumption
    | (with_reducible refine Sub.trans ?_ hM) <;> exact Sub.lit rfl
    | with_reducible apply State.raiseAs_touches
    | (with_reducible intro _; try dsimp only)
    | split

theorem State.applyHw_touches {M : Nat} {s0 : State} (s : State) (c engine : Nat) (y0 : List Hw) (hM : Sub 503316780 M) (hT
  : Touches M s0 s) : Touches1 M s0 (State.applyHw s c engine y0) := by
  fun_induction State.applyHw s c engine y0
  all_goals try dsimp only
  all_goals repeat' first
    | with_reducible assumption
    | (with_reducible refine Sub.trans ?_ hM) <;> exact Sub.lit rfl
    | with_reducible apply State.lineError_touches
    | with_reducible apply State.setBad_touches
    | with_reducible apply State.modCore_touches
    | with_reducible apply State.cacheParity_touches
    | with_reducible apply State.raiseParity_touches
    | with_reducible apply Touches1.fst
    | with_reducible apply_assumption
    | (with_reducible intro _; try dsimp only)
    | split
    | with_reducible apply Touches1.mk

theorem State.setFlash_touches {M : Nat} {s0 : State} (s : State) (x : List (Nat × FlashObj)) (hM : Sub 1073741824 M) (hT :
  Touches M s0 s) : Touches M s0 (State.setFlash s x) := by
  unfold State.setFlash
  try dsimp only
  repeat' first
    | with_reducible assumption
    | (with_reducible refine Sub.trans ?_ hM) <;> exact Sub.lit rfl
    | with_reducible apply Touches.set_flash
    | (with_reducible intro _; try dsimp only)
    | split

theorem State.setObject_touches {M : Nat} {s0 : State} (s : State) (id : Nat) (x : FlashObj) (hM : Sub 1073741824 M) (hT :
  Touches M s0 s) : Touches M s0 (State.setObject s id x) := by
  unfold State.setObject
  try dsimp only
  repeat' first
    | with_reducible assumption
    | (with_reducible refine Sub.trans ?_ hM) <;> exact Sub.lit rfl
    | with_reducible apply State.setFlash_touches
    | (with_reducible intro _; try dsimp only)
    | split

theorem State.weaken_touches {M : Nat} {s0 : State} (s : State) (id unit mode : Nat) (hM : Sub 1073741824 M) (hT : Touches
  M s0 s) : Touches M s0 (State.weaken s id unit mode) := by
  unfold State.weaken
  try dsimp only
  repeat' first
    | with_reducible assumption
    | (with_reducible refine Sub.trans ?_ hM) <;> exact Sub.lit rfl
    | with_reducible apply State.setObject_touches
    | (with_reducible intro _; try dsimp only)
    | split

theorem State.applyHwTo_touches {M : Nat} {s0 : State} (s : State) (u p : Nat) (y0 : List Hw) (hM : Sub 1577058348 M) (hT :
  Touches M s0 s) : Touches1 M s0 (State.applyHwTo s u p y0) := by
  fun_induction State.applyHwTo s u p y0
  all_goals try dsimp only
  all_goals repeat' first
    | with_reducible assumption
    | (with_reducible refine Sub.trans ?_ hM) <;> exact Sub.lit rfl
    | with_reducible apply State.lineError_touches
    | with_reducible apply State.setBad_touches
    | with_reducible apply State.cacheParity_touches
    | with_reducible apply State.raiseAs_touches
    | with_reducible apply State.weaken_touches
    | with_reducible apply Touches1.fst
    | with_reducible apply_assumption
    | (with_reducible intro _; try dsimp only)
    | split
    | with_reducible apply Touches1.mk

theorem State.setCapacity_touches {M : Nat} {s0 : State} (s : State) (hM : Sub 4 M) (hT : Touches M s0 s) : Touches M s0
  (State.setCapacity s) := by
  unfold State.setCapacity
  try dsimp only
  repeat' first
    | with_reducible assumption
    | (with_reducible refine Sub.trans ?_ hM) <;> exact Sub.lit rfl
    | with_reducible apply State.wr_touches
    | with_reducible apply Touches.foldl
    | with_reducible apply Touches1.foldl
    | with_reducible apply Touches1.fst
    | (with_reducible intro _; try dsimp only)
    | split
    | with_reducible apply Touches1.mk

theorem State.showIsland_touches {M : Nat} {s0 : State} (s : State) (k : Nat) (hM : Sub 4 M) (hT : Touches M s0 s) :
  Touches M s0 (State.showIsland s k) := by
  unfold State.showIsland
  try dsimp only
  repeat' first
    | with_reducible assumption
    | (with_reducible refine Sub.trans ?_ hM) <;> exact Sub.lit rfl
    | with_reducible apply State.wr_touches
    | (with_reducible intro _; try dsimp only)
    | split

theorem State.countPlan_touches {M : Nat} {s0 : State} (s : State) (k : Nat) (vs : List Nat) (hM : Sub 33554436 M) (hT :
  Touches M s0 s) : Touches M s0 (State.countPlan s k vs) := by
  unfold State.countPlan
  try dsimp only
  repeat' first
    | with_reducible assumption
    | (with_reducible refine Sub.trans ?_ hM) <;> exact Sub.lit rfl
    | with_reducible apply State.count_touches
    | (with_reducible intro _; try dsimp only)
    | split

theorem State.putPlan_touches {M : Nat} {s0 : State} (s : State) (body : Nat) (hM : Sub 4503599627370500 M) (hT : Touches M
  s0 s) : Touches M s0 (State.putPlan s body) := by
  unfold State.putPlan
  try dsimp only
  repeat' first
    | with_reducible assumption
    | (with_reducible refine Sub.trans ?_ hM) <;> exact Sub.lit rfl
    | with_reducible apply State.setReg_touches
    | with_reducible apply State.setReferee_touches
    | with_reducible apply Touches.foldl
    | with_reducible apply Touches1.foldl
    | with_reducible apply Touches1.fst
    | (with_reducible intro _; try dsimp only)
    | split
    | with_reducible apply Touches1.mk

theorem State.mapPending_touches {M : Nat} {s0 : State} (s : State) (tier die unit : Nat) (hM : Sub 33554432 M) (hT :
  Touches M s0 s) : Touches M s0 (State.mapPending s tier die unit) := by
  unfold State.mapPending
  try dsimp only
  repeat' first
    | with_reducible assumption
    | (with_reducible refine Sub.trans ?_ hM) <;> exact Sub.lit rfl
    | with_reducible apply State.raise_touches
    | (with_reducible intro _; try dsimp only)
    | split

theorem State.withheld_touches {M : Nat} {s0 : State} (s : State) (tier die unit : Nat) (hM : Sub 33554436 M) (hT : Touches
  M s0 s) : Touches M s0 (State.withheld s tier die unit) := by
  unfold State.withheld
  try dsimp only
  repeat' first
    | with_reducible assumption
    | (with_reducible refine Sub.trans ?_ hM) <;> exact Sub.lit rfl
    | with_reducible apply State.raise_touches
    | with_reducible apply State.count_touches
    | (with_reducible intro _; try dsimp only)
    | split

theorem State.retireT2_touches {M : Nat} {s0 : State} (s : State) (c : Nat) (hM : Sub 33554436 M) (hT : Touches M s0 s) :
  Touches1 M s0 (State.retireT2 s c) := by
  unfold State.retireT2
  try dsimp only
  repeat' first
    | with_reducible assumption
    | (with_reducible refine Sub.trans ?_ hM) <;> exact Sub.lit rfl
    | with_reducible apply State.wr_touches
    | with_reducible apply State.mapPending_touches
    | with_reducible apply State.withheld_touches
    | with_reducible apply Touches1.fst
    | (with_reducible intro _; try dsimp only)
    | split
    | with_reducible apply Touches1.mk

theorem State.retireT1_touches {M : Nat} {s0 : State} (s : State) (d b : Nat) (hM : Sub 33554436 M) (hT : Touches M s0 s) :
  Touches1 M s0 (State.retireT1 s d b) := by
  unfold State.retireT1
  try dsimp only
  repeat' first
    | with_reducible assumption
    | (with_reducible refine Sub.trans ?_ hM) <;> exact Sub.lit rfl
    | with_reducible apply State.wr_touches
    | with_reducible apply State.mapPending_touches
    | with_reducible apply State.withheld_touches
    | with_reducible apply Touches1.fst
    | (with_reducible intro _; try dsimp only)
    | split
    | with_reducible apply Touches1.mk

theorem State.retireCore_touches {M : Nat} {s0 : State} (s : State) (d k : Nat) (hM : Sub 4 M) (hT : Touches M s0 s) :
  Touches1 M s0 (State.retireCore s d k) := by
  unfold State.retireCore
  try dsimp only
  repeat' first
    | with_reducible assumption
    | (with_reducible refine Sub.trans ?_ hM) <;> exact Sub.lit rfl
    | with_reducible apply State.wr_touches
    | with_reducible apply Touches1.fst
    | (with_reducible intro _; try dsimp only)
    | split
    | with_reducible apply Touches1.mk

theorem State.retirements_touches {M : Nat} {s0 : State} (s : State) (x : PlanInput) (hM : Sub 33554436 M) (hT : Touches M
  s0 s) : Touches1 M s0 (State.retirements s x) := by
  unfold State.retirements
  try dsimp only
  repeat' first
    | with_reducible assumption
    | (with_reducible refine Sub.trans ?_ hM) <;> exact Sub.lit rfl
    | with_reducible apply State.retireT2_touches
    | with_reducible apply State.retireT1_touches
    | with_reducible apply State.retireCore_touches
    | with_reducible apply Touches1.fst
    | with_reducible apply Touches.foldl
    | with_reducible apply Touches1.foldl
    | with_reducible apply Touches1.fst
    | (with_reducible intro _; try dsimp only)
    | split
    | with_reducible apply Touches1.mk

theorem State.setPower_touches {M : Nat} {s0 : State} (s : State) (x : Power) (hM : Sub 9007199254740992 M) (hT : Touches M
  s0 s) : Touches M s0 (State.setPower s x) := by
  unfold State.setPower
  try dsimp only
  repeat' first
    | with_reducible assumption
    | (with_reducible refine Sub.trans ?_ hM) <;> exact Sub.lit rfl
    | with_reducible apply Touches.set_power
    | (with_reducible intro _; try dsimp only)
    | split

theorem State.applyPlan_touches {M : Nat} {s0 : State} (s : State) (x : PlanInput) (reason : Nat) (hM : Sub
  13510798915665924 M) (hT : Touches M s0 s) : Touches M s0 (State.applyPlan s x reason) := by
  unfold State.applyPlan
  try dsimp only
  repeat' first
    | with_reducible assumption
    | (with_reducible refine Sub.trans ?_ hM) <;> exact Sub.lit rfl
    | with_reducible apply State.setCapacity_touches
    | with_reducible apply State.showIsland_touches
    | with_reducible apply State.wr_touches
    | with_reducible apply State.raise_touches
    | with_reducible apply State.countPlan_touches
    | with_reducible apply State.putPlan_touches
    | with_reducible apply State.count_touches
    | with_reducible apply State.retirements_touches
    | with_reducible apply State.setPower_touches
    | with_reducible apply Touches1.fst
    | with_reducible apply Touches.foldl
    | with_reducible apply Touches1.foldl
    | with_reducible apply Touches1.fst
    | (with_reducible intro _; try dsimp only)
    | split
    | with_reducible apply Touches1.mk

theorem State.signalRefused_touches {M : Nat} {s0 : State} (s : State) (g : Signal) (code : Code) (hM : Sub 33554436 M) (hT
  : Touches M s0 s) : Touches M s0 (State.signalRefused s g code) := by
  unfold State.signalRefused
  try dsimp only
  repeat' first
    | with_reducible assumption
    | (with_reducible refine Sub.trans ?_ hM) <;> exact Sub.lit rfl
    | with_reducible apply State.raiseAs_touches
    | with_reducible apply State.count_touches
    | (with_reducible intro _; try dsimp only)
    | split

theorem State.letAllGo_touches {M : Nat} {s0 : State} (s : State) (object : Nat) (r : Option Code) (y0 : List Waiter) (hM :
  Sub 576460752555147564 M) (hT : Touches M s0 s) : Touches M s0 (State.letAllGo s object r y0) := by
  fun_induction State.letAllGo s object r y0
  all_goals try dsimp only
  all_goals repeat' first
    | with_reducible assumption
    | (with_reducible refine Sub.trans ?_ hM) <;> exact Sub.lit rfl
    | with_reducible apply State.letGo_touches
    | with_reducible apply_assumption
    | (with_reducible intro _; try dsimp only)
    | split

theorem State.applySignal_touches {M : Nat} {s0 : State} (s : State) (g : Signal) (hM : Sub 576460752555148076 M) (hT :
  Touches M s0 s) : Touches M s0 (State.applySignal s g) := by
  unfold State.applySignal
  dsimp only
  split
  · exact State.signalRefused_touches _ _ _ (Sub.trans (Sub.lit rfl) hM) hT
  split
  · split
    · exact State.count_touches _ _ _ (Sub.trans (Sub.lit rfl) hM) hT
    · refine State.letAllGo_touches _ _ _ _ (Sub.trans (Sub.lit rfl) hM) (State.count_touches _ _ _ (Sub.trans (Sub.lit rfl) hM) ?_)
      exact State.setObj_touches _ _ _ (fun _ _ => rfl) (Sub.trans (Sub.lit rfl) hM) hT
  · split
    · rename_i w t hw
      refine State.letGo_touches _ _ _ _ (Sub.trans (Sub.lit rfl) hM) (State.count_touches _ _ _ (Sub.trans (Sub.lit rfl) hM) ?_)
      exact State.setObj_touches _ _ _ (fun hr hc => absurd (hr _ hc) (by rw [hw]; exact List.cons_ne_nil _ _))
        (Sub.trans (Sub.lit rfl) hM) hT
    · rename_i hw
      split
      · exact State.signalRefused_touches _ _ _ (Sub.trans (Sub.lit rfl) hM) hT
      · refine State.count_touches _ _ _ (Sub.trans (Sub.lit rfl) hM) ?_
        exact State.setObj_touches _ _ _ (fun _ _ => hw) (Sub.trans (Sub.lit rfl) hM) hT

theorem State.fresh_touches {M : Nat} {s0 : State} (s : State) (hM : Sub 18014398509481984 M) (hT : Touches M s0 s) :
  Touches2 M s0 (State.fresh s) := by
  unfold State.fresh
  try dsimp only
  repeat' first
    | with_reducible assumption
    | (with_reducible refine Sub.trans ?_ hM) <;> exact Sub.lit rfl
    | with_reducible apply Touches.set_freeCount
    | with_reducible apply Touches2.snd
    | (with_reducible intro _; try dsimp only)
    | split
    | with_reducible apply Touches2.mk

theorem State.freeBytes_touches {M : Nat} {s0 : State} (s : State) (a : Nat) (y0 : Nat) (hM : Sub 18014398509482024 M) (hT
  : Touches M s0 s) : Touches M s0 (State.freeBytes s a y0) := by
  fun_induction State.freeBytes s a y0
  all_goals try dsimp only
  all_goals repeat' first
    | with_reducible assumption
    | (with_reducible refine Sub.trans ?_ hM) <;> exact Sub.lit rfl
    | with_reducible apply State.setByte_touches
    | with_reducible apply State.fresh_touches
    | with_reducible apply Touches2.snd
    | with_reducible apply_assumption
    | (with_reducible intro _; try dsimp only)
    | split

theorem State.countGrads_touches {M : Nat} {s0 : State} (s : State) (c q : Nat) (gs : List Grad) (hM : Sub 33554436 M) (hT
  : Touches M s0 s) : Touches M s0 (State.countGrads s c q gs) := by
  unfold State.countGrads
  try dsimp only
  repeat' first
    | with_reducible assumption
    | (with_reducible refine Sub.trans ?_ hM) <;> exact Sub.lit rfl
    | with_reducible apply State.raiseCore_touches
    | with_reducible apply State.count_touches
    | (with_reducible intro _; try dsimp only)
    | split

theorem State.setWatch_touches {M : Nat} {s0 : State} (s : State) (x : List (Nat × (Nat × Nat))) (hM : Sub 536870912 M) (hT
  : Touches M s0 s) : Touches M s0 (State.setWatch s x) := by
  unfold State.setWatch
  try dsimp only
  repeat' first
    | with_reducible assumption
    | (with_reducible refine Sub.trans ?_ hM) <;> exact Sub.lit rfl
    | with_reducible apply Touches.set_watch
    | (with_reducible intro _; try dsimp only)
    | split

theorem State.watchSlot_touches {M : Nat} {s0 : State} (s : State) (p n step : Nat) (d : Desc) (ts : List Nat) (hM : Sub
  771751980 M) (hT : Touches M s0 s) : Touches M s0 (State.watchSlot s p n step d ts) := by
  unfold State.watchSlot
  try dsimp only
  repeat' first
    | with_reducible assumption
    | (with_reducible refine Sub.trans ?_ hM) <;> exact Sub.lit rfl
    | with_reducible apply State.setWatch_touches
    | with_reducible apply State.store_touches
    | with_reducible apply State.wr_touches
    | with_reducible apply State.raise_touches
    | with_reducible apply Touches.foldl
    | with_reducible apply Touches1.foldl
    | with_reducible apply Touches1.fst
    | (with_reducible intro _; try dsimp only)
    | split
    | with_reducible apply Touches1.mk

theorem State.watchStore_touches {M : Nat} {s0 : State} (s : State) (c step : Nat) (d : Desc) (ts : List Nat) (hM : Sub
  771751980 M) (hT : Touches M s0 s) : Touches M s0 (State.watchStore s c step d ts) := by
  unfold State.watchStore
  try dsimp only
  repeat' first
    | with_reducible assumption
    | (with_reducible refine Sub.trans ?_ hM) <;> exact Sub.lit rfl
    | with_reducible apply State.watchSlot_touches
    | with_reducible apply Touches.foldl
    | with_reducible apply Touches1.foldl
    | with_reducible apply Touches1.fst
    | (with_reducible intro _; try dsimp only)
    | split
    | with_reducible apply Touches1.mk

theorem State.clearBad_touches {M : Nat} {s0 : State} (s : State) (a n : Nat) (hM : Sub 67108864 M) (hT : Touches M s0 s) :
  Touches M s0 (State.clearBad s a n) := by
  unfold State.clearBad
  try dsimp only
  repeat' first
    | with_reducible assumption
    | (with_reducible refine Sub.trans ?_ hM) <;> exact Sub.lit rfl
    | with_reducible apply Touches.set_bad
    | (with_reducible intro _; try dsimp only)
    | split

theorem State.writeTrailer_touches {M : Nat} {s0 : State} (s : State) (d : Desc) (t : Nat) (hM : Sub 40 M) (hT : Touches M
  s0 s) : Touches M s0 (State.writeTrailer s d t) := by
  unfold State.writeTrailer
  try dsimp only
  repeat' first
    | with_reducible assumption
    | (with_reducible refine Sub.trans ?_ hM) <;> exact Sub.lit rfl
    | with_reducible apply State.setNat_touches
    | (with_reducible intro _; try dsimp only)
    | split

theorem State.putElem_touches {M : Nat} {s0 : State} (s : State) (d : Desc) (x : Nat × Nat × Nat) (hM : Sub 40 M) (hT :
  Touches M s0 s) : Touches M s0 (State.putElem s d x) := by
  unfold State.putElem
  try dsimp only
  repeat' first
    | with_reducible assumption
    | (with_reducible refine Sub.trans ?_ hM) <;> exact Sub.lit rfl
    | with_reducible apply State.setNat_touches
    | (with_reducible intro _; try dsimp only)
    | split

theorem State.writeConverted_touches {M : Nat} {s0 : State} (s : State) (d : Desc) (v : Converted) (hM : Sub 40 M) (hT :
  Touches M s0 s) : Touches M s0 (State.writeConverted s d v) := by
  unfold State.writeConverted
  try dsimp only
  repeat' first
    | with_reducible assumption
    | (with_reducible refine Sub.trans ?_ hM) <;> exact Sub.lit rfl
    | with_reducible apply State.setNat_touches
    | with_reducible apply State.writeTrailer_touches
    | with_reducible apply State.putElem_touches
    | with_reducible apply Touches.foldl
    | with_reducible apply Touches1.foldl
    | with_reducible apply Touches1.fst
    | (with_reducible intro _; try dsimp only)
    | split
    | with_reducible apply Touches1.mk

theorem State.countStore_touches {M : Nat} {s0 : State} (s : State) (c : Nat) (d : Desc) (n : StoreCounts) (hM : Sub
  33554436 M) (hT : Touches M s0 s) : Touches M s0 (State.countStore s c d n) := by
  unfold State.countStore
  try dsimp only
  repeat' first
    | with_reducible assumption
    | (with_reducible refine Sub.trans ?_ hM) <;> exact Sub.lit rfl
    | with_reducible apply State.raiseCore_touches
    | with_reducible apply State.count_touches
    | (with_reducible intro _; try dsimp only)
    | split

theorem State.statStore_touches {M : Nat} {s0 : State} (s : State) (c : Nat) (d : Desc) (staBinds : List Nat) (els : List
  (Nat × Val × Bool)) (n : StoreCounts) (hM : Sub 260 M) (hT : Touches M s0 s) : Touches M s0 (State.statStore s c d
  staBinds els n) := by
  unfold State.statStore
  try dsimp only
  repeat' first
    | with_reducible assumption
    | (with_reducible refine Sub.trans ?_ hM) <;> exact Sub.lit rfl
    | with_reducible apply State.modCore_touches
    | with_reducible apply State.wr_touches
    | (with_reducible intro _; try dsimp only)
    | split

theorem State.raiseLoad_touches {M : Nat} {s0 : State} (s : State) (c da : Nat) (y0 : LoadFault) (hM : Sub 33554432 M) (hT
  : Touches M s0 s) : Touches1 M s0 (State.raiseLoad s c da y0) := by
  unfold State.raiseLoad
  try dsimp only
  repeat' first
    | with_reducible assumption
    | (with_reducible refine Sub.trans ?_ hM) <;> exact Sub.lit rfl
    | with_reducible apply State.raiseCore_touches
    | with_reducible apply State.raiseAs_touches
    | with_reducible apply Touches1.fst
    | (with_reducible intro _; try dsimp only)
    | split
    | with_reducible apply Touches1.mk

theorem State.storePath_touches {M : Nat} {s0 : State} (s : State) (c : Nat) (d : Desc) (step : Nat) (outBinds staBinds :
  List Nat) (els : List (Nat × Nat × Val)) (hM : Sub 771752236 M) (hT : Touches M s0 s) : Touches1 M s0 (State.storePath s
  c d step outBinds staBinds els) := by
  unfold State.storePath
  try dsimp only
  repeat' first
    | with_reducible assumption
    | (with_reducible refine Sub.trans ?_ hM) <;> exact Sub.lit rfl
    | with_reducible apply State.watchStore_touches
    | with_reducible apply State.clearBad_touches
    | with_reducible apply State.writeConverted_touches
    | with_reducible apply State.countStore_touches
    | with_reducible apply State.clearPoison_touches
    | with_reducible apply State.statStore_touches
    | with_reducible apply State.raiseLoad_touches
    | with_reducible apply Touches1.fst
    | with_reducible apply Touches.foldl
    | with_reducible apply Touches1.foldl
    | with_reducible apply Touches1.fst
    | (with_reducible intro _; try dsimp only)
    | split
    | with_reducible apply Touches1.mk

theorem State.optStore_touches {M : Nat} {s0 : State} (s : State) (c : Nat) (i : Issued) (off : Nat) (vs : List (Nat ×
  Nat)) (hM : Sub 771752236 M) (hT : Touches M s0 s) : Touches1 M s0 (State.optStore s c i off vs) := by
  unfold State.optStore
  try dsimp only
  repeat' first
    | with_reducible assumption
    | (with_reducible refine Sub.trans ?_ hM) <;> exact Sub.lit rfl
    | with_reducible apply State.storePath_touches
    | with_reducible apply Touches1.fst
    | (with_reducible intro _; try dsimp only)
    | split
    | with_reducible apply Touches1.mk

theorem State.optStores_touches {M : Nat} {s0 : State} (c : Nat) (i : Issued) (y0 : List (Nat × List (Nat × Nat))) (y1 :
  State) (hM : Sub 771752236 M) (hT : Touches M s0 y1) : Touches1 M s0 (State.optStores c i y0 y1) := by
  fun_induction State.optStores c i y0 y1
  all_goals try dsimp only
  all_goals repeat' first
    | with_reducible assumption
    | (with_reducible refine Sub.trans ?_ hM) <;> exact Sub.lit rfl
    | with_reducible apply State.optStore_touches
    | with_reducible apply Touches1.fst
    | with_reducible apply_assumption
    | (with_reducible intro _; try dsimp only)
    | split
    | with_reducible apply Touches1.mk

theorem State.countState_touches {M : Nat} {s0 : State} (s : State) (c q n step : Nat) (ops : List (Nat × List (Nat ×
  Nat))) (hM : Sub 33554436 M) (hT : Touches M s0 s) : Touches M s0 (State.countState s c q n step ops) := by
  unfold State.countState
  try dsimp only
  repeat' first
    | with_reducible assumption
    | (with_reducible refine Sub.trans ?_ hM) <;> exact Sub.lit rfl
    | with_reducible apply State.raiseCore_touches
    | with_reducible apply State.count_touches
    | with_reducible apply Touches.foldl
    | with_reducible apply Touches1.foldl
    | with_reducible apply Touches1.fst
    | (with_reducible intro _; try dsimp only)
    | split
    | with_reducible apply Touches1.mk

theorem State.optBlocksEnd_touches {M : Nat} {s0 : State} (s : State) (c : Nat) (i : Issued) (gr : OptGroup) (k : OptConst)
  (n : Nat) (hM : Sub 18014399281234220 M) (hT : Touches M s0 s) : Touches1 M s0 (State.optBlocksEnd s c i gr k n) := by
  unfold State.optBlocksEnd
  try dsimp only
  repeat' first
    | with_reducible assumption
    | (with_reducible refine Sub.trans ?_ hM) <;> exact Sub.lit rfl
    | with_reducible apply State.freeBytes_touches
    | with_reducible apply State.storeNat_touches
    | with_reducible apply State.countGrads_touches
    | with_reducible apply State.optStores_touches
    | with_reducible apply State.raiseCore_touches
    | with_reducible apply State.count_touches
    | with_reducible apply State.countState_touches
    | with_reducible apply Touches1.fst
    | with_reducible apply Touches.foldl
    | with_reducible apply Touches1.foldl
    | with_reducible apply Touches1.fst
    | (with_reducible intro _; try dsimp only)
    | split
    | with_reducible apply Touches1.mk

theorem State.countMask_touches {M : Nat} {s0 : State} (s : State) (c w n : Nat) (hM : Sub 33554436 M) (hT : Touches M s0
  s) : Touches M s0 (State.countMask s c w n) := by
  unfold State.countMask
  try dsimp only
  repeat' first
    | with_reducible assumption
    | (with_reducible refine Sub.trans ?_ hM) <;> exact Sub.lit rfl
    | with_reducible apply State.count_touches
    | (with_reducible intro _; try dsimp only)
    | split

theorem State.normEnd_touches {M : Nat} {s0 : State} (s : State) (c : Nat) (i : Issued) (hM : Sub 33554692 M) (hT : Touches
  M s0 s) : Touches M s0 (State.normEnd s c i) := by
  unfold State.normEnd
  try dsimp only
  repeat' first
    | with_reducible assumption
    | (with_reducible refine Sub.trans ?_ hM) <;> exact Sub.lit rfl
    | with_reducible apply State.modCore_touches
    | with_reducible apply State.countGrads_touches
    | with_reducible apply State.countMask_touches
    | (with_reducible intro _; try dsimp only)
    | split

theorem State.clearMask_touches {M : Nat} {s0 : State} (s : State) (w n total : Nat) (hM : Sub 201326632 M) (hT : Touches M
  s0 s) : Touches M s0 (State.clearMask s w n total) := by
  unfold State.clearMask
  try dsimp only
  repeat' first
    | with_reducible assumption
    | (with_reducible refine Sub.trans ?_ hM) <;> exact Sub.lit rfl
    | with_reducible apply State.storeNat_touches
    | with_reducible apply Touches.foldl
    | with_reducible apply Touches1.foldl
    | with_reducible apply Touches1.fst
    | (with_reducible intro _; try dsimp only)
    | split
    | with_reducible apply Touches1.mk

theorem State.optElementsEnd_touches {M : Nat} {s0 : State} (s : State) (c : Nat) (i : Issued) (gr : OptGroup) (k :
  OptConst) (n : Nat) (hM : Sub 771752236 M) (hT : Touches M s0 s) : Touches1 M s0 (State.optElementsEnd s c i gr k n) :=
  by
  unfold State.optElementsEnd
  try dsimp only
  repeat' first
    | with_reducible assumption
    | (with_reducible refine Sub.trans ?_ hM) <;> exact Sub.lit rfl
    | with_reducible apply State.countGrads_touches
    | with_reducible apply State.optStores_touches
    | with_reducible apply State.countMask_touches
    | with_reducible apply State.countState_touches
    | with_reducible apply Touches1.fst
    | (with_reducible intro _; try dsimp only)
    | split
    | with_reducible apply Touches1.mk

theorem State.executed_touches {M : Nat} {s0 : State} (s : State) (c token code : Nat) (hM : Sub 256 M) (hT : Touches M s0
  s) : Touches M s0 (State.executed s c token code) := by
  unfold State.executed
  try dsimp only
  repeat' first
    | with_reducible assumption
    | (with_reducible refine Sub.trans ?_ hM) <;> exact Sub.lit rfl
    | with_reducible apply State.modCore_touches
    | (with_reducible intro _; try dsimp only)
    | split

theorem State.optEnd_touches {M : Nat} {s0 : State} (c : Nat) (i : Issued) (s : State) (n code : Nat) (hM : Sub
  18014399281234220 M) (hT : Touches M s0 s) : Touches M s0 (State.optEnd c i s n code) := by
  unfold State.optEnd
  try dsimp only
  repeat' first
    | with_reducible assumption
    | (with_reducible refine Sub.trans ?_ hM) <;> exact Sub.lit rfl
    | with_reducible apply State.optBlocksEnd_touches
    | with_reducible apply State.normEnd_touches
    | with_reducible apply State.clearMask_touches
    | with_reducible apply State.optElementsEnd_touches
    | with_reducible apply State.executed_touches
    | with_reducible apply Touches1.fst
    | (with_reducible intro _; try dsimp only)
    | split
    | with_reducible apply Touches1.mk

theorem State.raiseInf_touches {M : Nat} {s0 : State} (s : State) (c token : Nat) (hM : Sub 33554432 M) (hT : Touches M s0
  s) : Touches M s0 (State.raiseInf s c token) := by
  unfold State.raiseInf
  try dsimp only
  repeat' first
    | with_reducible assumption
    | (with_reducible refine Sub.trans ?_ hM) <;> exact Sub.lit rfl
    | with_reducible apply State.raiseCore_touches
    | (with_reducible intro _; try dsimp only)
    | split

theorem State.raiseOverflow_touches {M : Nat} {s0 : State} (s : State) (c engine token : Nat) (hM : Sub 33554432 M) (hT :
  Touches M s0 s) : Touches M s0 (State.raiseOverflow s c engine token) := by
  unfold State.raiseOverflow
  try dsimp only
  repeat' first
    | with_reducible assumption
    | (with_reducible refine Sub.trans ?_ hM) <;> exact Sub.lit rfl
    | with_reducible apply State.raiseCore_touches
    | (with_reducible intro _; try dsimp only)
    | split

theorem State.cnvEnd_touches {M : Nat} {s0 : State} (s : State) (c : Nat) (i : Issued) (p : CnvPlan) (n code : Nat) (hM :
  Sub 771752236 M) (hT : Touches M s0 s) : Touches M s0 (State.cnvEnd s c i p n code) := by
  unfold State.cnvEnd
  try dsimp only
  repeat' first
    | with_reducible assumption
    | (with_reducible refine Sub.trans ?_ hM) <;> exact Sub.lit rfl
    | with_reducible apply State.storePath_touches
    | with_reducible apply State.raiseInf_touches
    | with_reducible apply State.executed_touches
    | with_reducible apply State.raiseOverflow_touches
    | with_reducible apply Touches1.fst
    | (with_reducible intro _; try dsimp only)
    | split
    | with_reducible apply Touches1.mk

theorem State.countLoads_touches {M : Nat} {s0 : State} (s : State) (c : Nat) (l : List (Nat × List Loaded)) (hM : Sub
  33554436 M) (hT : Touches M s0 s) : Touches M s0 (State.countLoads s c l) := by
  unfold State.countLoads
  try dsimp only
  repeat' first
    | with_reducible assumption
    | (with_reducible refine Sub.trans ?_ hM) <;> exact Sub.lit rfl
    | with_reducible apply State.raiseCore_touches
    | with_reducible apply State.count_touches
    | (with_reducible intro _; try dsimp only)
    | split

theorem State.streamEnd_touches {M : Nat} {s0 : State} (s : State) (c : Nat) (i : Issued) (kEff m code : Nat) (hM : Sub
  33554692 M) (hT : Touches M s0 s) : Touches M s0 (State.streamEnd s c i kEff m code) := by
  unfold State.streamEnd
  try dsimp only
  repeat' first
    | with_reducible assumption
    | (with_reducible refine Sub.trans ?_ hM) <;> exact Sub.lit rfl
    | with_reducible apply State.countLoads_touches
    | with_reducible apply State.executed_touches
    | with_reducible apply State.raiseOverflow_touches
    | (with_reducible intro _; try dsimp only)
    | split

theorem State.vecEnd_touches {M : Nat} {s0 : State} (s : State) (c : Nat) (i : Issued) (n code : Nat) (hM : Sub 771752236
  M) (hT : Touches M s0 s) : Touches M s0 (State.vecEnd s c i n code) := by
  unfold State.vecEnd
  try dsimp only
  repeat' first
    | with_reducible assumption
    | (with_reducible refine Sub.trans ?_ hM) <;> exact Sub.lit rfl
    | with_reducible apply State.storePath_touches
    | with_reducible apply State.executed_touches
    | with_reducible apply Touches1.fst
    | (with_reducible intro _; try dsimp only)
    | split
    | with_reducible apply Touches1.mk

theorem State.arbFailed_touches {M : Nat} {s0 : State} (s : State) (c : Nat) (i : Issued) (a : Arb) (hM : Sub
  18014399281234220 M) (hT : Touches M s0 s) : Touches M s0 (State.arbFailed s c i a) := by
  unfold State.arbFailed
  try dsimp only
  repeat' first
    | with_reducible assumption
    | (with_reducible refine Sub.trans ?_ hM) <;> exact Sub.lit rfl
    | with_reducible apply State.optEnd_touches
    | with_reducible apply State.cnvEnd_touches
    | with_reducible apply State.streamEnd_touches
    | with_reducible apply State.executed_touches
    | with_reducible apply State.vecEnd_touches
    | (with_reducible intro _; try dsimp only)
    | split

theorem State.injectChecksum_touches {M : Nat} {s0 : State} (s : State) (c : Nat) (b : Block) (x : List Elem) (skip : Nat)
  (hM : Sub 256 M) (hT : Touches M s0 s) : Touches1 M s0 (State.injectChecksum s c b x skip) := by
  unfold State.injectChecksum
  try dsimp only
  repeat' first
    | with_reducible assumption
    | (with_reducible refine Sub.trans ?_ hM) <;> exact Sub.lit rfl
    | with_reducible apply State.modCore_touches
    | with_reducible apply Touches1.fst
    | (with_reducible intro _; try dsimp only)
    | split
    | with_reducible apply Touches1.mk

theorem State.verdict_touches {M : Nat} {s0 : State} (s : State) (c : Nat) (b : Block) (x : List Elem) (skip hw : Nat) (hM
  : Sub 256 M) (hT : Touches M s0 s) : Touches1 M s0 (State.verdict s c b x skip hw) := by
  unfold State.verdict
  try dsimp only
  repeat' first
    | with_reducible assumption
    | (with_reducible refine Sub.trans ?_ hM) <;> exact Sub.lit rfl
    | with_reducible apply State.modCore_touches
    | with_reducible apply State.injectChecksum_touches
    | with_reducible apply Touches1.fst
    | with_reducible apply Touches.foldl
    | with_reducible apply Touches1.foldl
    | with_reducible apply Touches1.fst
    | (with_reducible intro _; try dsimp only)
    | split
    | with_reducible apply Touches1.mk

theorem State.setSerial_touches {M : Nat} {s0 : State} (s : State) (x : Nat) (hM : Sub 137438953472 M) (hT : Touches M s0
  s) : Touches M s0 (State.setSerial s x) := by
  unfold State.setSerial
  try dsimp only
  repeat' first
    | with_reducible assumption
    | (with_reducible refine Sub.trans ?_ hM) <;> exact Sub.lit rfl
    | with_reducible apply Touches.set_serial
    | (with_reducible intro _; try dsimp only)
    | split

theorem State.modIssued_touches {M : Nat} {s0 : State} (s : State) (c token : Nat) (f : Issued → Issued) (hM : Sub 256 M)
  (hT : Touches M s0 s) : Touches M s0 (State.modIssued s c token f) := by
  unfold State.modIssued
  try dsimp only
  repeat' first
    | with_reducible assumption
    | (with_reducible refine Sub.trans ?_ hM) <;> exact Sub.lit rfl
    | with_reducible apply State.modCore_touches
    | (with_reducible intro _; try dsimp only)
    | split

theorem State.holdUnit_touches {M : Nat} {s0 : State} (s : State) (c : Nat) (i : Issued) (engine unit mask cause : Nat) (hM
  : Sub 137438953732 M) (hT : Touches M s0 s) : Touches M s0 (State.holdUnit s c i engine unit mask cause) := by
  unfold State.holdUnit
  try dsimp only
  repeat' first
    | with_reducible assumption
    | (with_reducible refine Sub.trans ?_ hM) <;> exact Sub.lit rfl
    | with_reducible apply State.setSerial_touches
    | with_reducible apply State.modCore_touches
    | with_reducible apply State.wr_touches
    | with_reducible apply State.modIssued_touches
    | (with_reducible intro _; try dsimp only)
    | split

theorem State.putEntry_touches {M : Nat} {s0 : State} (s : State) (c k : Nat) (e : Entry) (hM : Sub 67108896 M) (hT :
  Touches M s0 s) : Touches M s0 (State.putEntry s c k e) := by
  unfold State.putEntry
  try dsimp only
  repeat' first
    | with_reducible assumption
    | (with_reducible refine Sub.trans ?_ hM) <;> exact Sub.lit rfl
    | with_reducible apply State.setEntry_touches
    | with_reducible apply State.clearBad_touches
    | (with_reducible intro _; try dsimp only)
    | split

theorem State.putRow_touches {M : Nat} {s0 : State} (s : State) (c token ep : Nat) (row : List (Nat × Nat × Bool)) (hM :
  Sub 100663588 M) (hT : Touches M s0 s) : Touches M s0 (State.putRow s c token ep row) := by
  unfold State.putRow
  try dsimp only
  repeat' first
    | with_reducible assumption
    | (with_reducible refine Sub.trans ?_ hM) <;> exact Sub.lit rfl
    | with_reducible apply State.putEntry_touches
    | with_reducible apply State.modIssued_touches
    | with_reducible apply State.count_touches
    | with_reducible apply Touches.foldl
    | with_reducible apply Touches1.foldl
    | with_reducible apply Touches1.fst
    | (with_reducible intro _; try dsimp only)
    | split
    | with_reducible apply Touches1.mk

theorem State.streamPut_touches {M : Nat} {s0 : State} (s : State) (c : Nat) (i : Issued) (b : Block) (m : Nat) (hM : Sub
  100663588 M) (hT : Touches M s0 s) : Touches M s0 (State.streamPut s c i b m) := by
  unfold State.streamPut
  try dsimp only
  repeat' first
    | with_reducible assumption
    | (with_reducible refine Sub.trans ?_ hM) <;> exact Sub.lit rfl
    | with_reducible apply State.putRow_touches
    | (with_reducible intro _; try dsimp only)
    | split

theorem State.rowEnters_touches {M : Nat} {s0 : State} (s : State) (c skip : Nat) (hM : Sub 33554436 M) (hT : Touches M s0
  s) : Touches M s0 (State.rowEnters s c skip) := by
  unfold State.rowEnters
  try dsimp only
  repeat' first
    | with_reducible assumption
    | (with_reducible refine Sub.trans ?_ hM) <;> exact Sub.lit rfl
    | with_reducible apply State.count_touches
    | (with_reducible intro _; try dsimp only)
    | split

theorem State.raiseEpochMix_touches {M : Nat} {s0 : State} (s : State) (c ep k : Nat) (hM : Sub 33554432 M) (hT : Touches M
  s0 s) : Touches1 M s0 (State.raiseEpochMix s c ep k) := by
  unfold State.raiseEpochMix
  try dsimp only
  repeat' first
    | with_reducible assumption
    | (with_reducible refine Sub.trans ?_ hM) <;> exact Sub.lit rfl
    | with_reducible apply State.raiseCore_touches
    | with_reducible apply Touches1.fst
    | (with_reducible intro _; try dsimp only)
    | split
    | with_reducible apply Touches1.mk

theorem State.tagFault_touches {M : Nat} {s0 : State} (s : State) (c ep : Nat) (ks : List Nat) (hM : Sub 33554432 M) (hT :
  Touches M s0 s) : TouchesP M s0 (State.tagFault s c ep ks) := by
  unfold State.tagFault
  try dsimp only
  repeat' first
    | with_reducible assumption
    | (with_reducible refine Sub.trans ?_ hM) <;> exact Sub.lit rfl
    | with_reducible apply State.raiseEpochMix_touches
    | with_reducible apply Touches1.fst
    | with_reducible exact TouchesP.none
    | with_reducible apply TouchesP.some
    | with_reducible apply TouchesP.map
    | with_reducible apply TouchesP.findSome
    | with_reducible apply TouchesP.orElse
    | with_reducible exact TouchesP.none
    | (with_reducible intro _; try dsimp only)
    | split
    | with_reducible apply Touches1.mk

theorem State.streamRowsFrom_touches {M : Nat} {s0 : State} (hw : List Hw) (c : Nat) (i : Issued) (b : Block) (y0 : Nat)
  (y1 : Nat) (y2 : State) (hM : Sub 137539617060 M) (hT : Touches M s0 y2) : Touches M s0 (State.streamRowsFrom hw c i b y0
  y1 y2) := by
  induction y0 generalizing b y1 y2 with
  | zero =>
    unfold State.streamRowsFrom
    try dsimp only
    repeat' first
      | with_reducible assumption
      | (with_reducible refine Sub.trans ?_ hM) <;> exact Sub.lit rfl
      | with_reducible apply State.verdict_touches
      | with_reducible apply ih
      | with_reducible apply State.streamEnd_touches
      | with_reducible apply State.holdUnit_touches
      | with_reducible apply State.streamPut_touches
      | with_reducible apply State.rowEnters_touches
      | with_reducible apply State.count_touches
      | with_reducible apply State.tagFault_touches
      | with_reducible apply State.raiseLoad_touches
      | (with_reducible apply TouchesP.elim; with_reducible assumption)
      | with_reducible apply Touches1.fst
      | with_reducible apply TouchesP.map
      | with_reducible apply TouchesP.findSome
      | with_reducible apply TouchesP.orElse
      | with_reducible exact TouchesP.none
      | (with_reducible intro _; try dsimp only)
      | split
      | with_reducible apply Touches1.mk
  | succ n ih =>
    unfold State.streamRowsFrom
    try dsimp only
    repeat' first
      | with_reducible assumption
      | (with_reducible refine Sub.trans ?_ hM) <;> exact Sub.lit rfl
      | with_reducible apply State.verdict_touches
      | with_reducible apply ih
      | with_reducible apply State.streamEnd_touches
      | with_reducible apply State.holdUnit_touches
      | with_reducible apply State.streamPut_touches
      | with_reducible apply State.rowEnters_touches
      | with_reducible apply State.count_touches
      | with_reducible apply State.tagFault_touches
      | with_reducible apply State.raiseLoad_touches
      | (with_reducible apply TouchesP.elim; with_reducible assumption)
      | with_reducible apply Touches1.fst
      | with_reducible apply TouchesP.map
      | with_reducible apply TouchesP.findSome
      | with_reducible apply TouchesP.orElse
      | with_reducible exact TouchesP.none
      | (with_reducible intro _; try dsimp only)
      | split
      | with_reducible apply Touches1.mk

theorem State.vecFrom_touches {M : Nat} {s0 : State} (hw : List Hw) (c : Nat) (i : Issued) (fin : State → Nat → Nat →
  State) (y0 : Nat) (y1 : Nat) (y2 : State) (hfin : ∀ u0 u1 u2, Touches M s0 u0 → Touches M s0 (fin u0 u1 u2)) (hM : Sub
  137472508164 M) (hT : Touches M s0 y2) : Touches M s0 (State.vecFrom hw c i fin y0 y1 y2) := by
  induction y0 generalizing y1 y2 with
  | zero =>
    unfold State.vecFrom
    try dsimp only
    repeat' first
      | with_reducible assumption
      | (with_reducible refine Sub.trans ?_ hM) <;> exact Sub.lit rfl
      | with_reducible apply State.holdUnit_touches
      | with_reducible apply ih
      | with_reducible apply State.count_touches
      | with_reducible apply hfin
      | (with_reducible intro _; try dsimp only)
      | split
  | succ n ih =>
    unfold State.vecFrom
    try dsimp only
    repeat' first
      | with_reducible assumption
      | (with_reducible refine Sub.trans ?_ hM) <;> exact Sub.lit rfl
      | with_reducible apply State.holdUnit_touches
      | with_reducible apply ih
      | with_reducible apply State.count_touches
      | with_reducible apply hfin
      | (with_reducible intro _; try dsimp only)
      | split

theorem State.countInf_touches {M : Nat} {s0 : State} (s : State) (c token : Nat) (outs : List (Nat × CnvAcc)) (hM : Sub
  33554692 M) (hT : Touches M s0 s) : Touches M s0 (State.countInf s c token outs) := by
  unfold State.countInf
  try dsimp only
  repeat' first
    | with_reducible assumption
    | (with_reducible refine Sub.trans ?_ hM) <;> exact Sub.lit rfl
    | with_reducible apply State.modIssued_touches
    | with_reducible apply State.count_touches
    | (with_reducible intro _; try dsimp only)
    | split

theorem State.cnvPut_touches {M : Nat} {s0 : State} (s : State) (c : Nat) (i : Issued) (p : CnvPlan) (j : Nat) (hM : Sub
  100663588 M) (hT : Touches M s0 s) : Touches M s0 (State.cnvPut s c i p j) := by
  unfold State.cnvPut
  try dsimp only
  repeat' first
    | with_reducible assumption
    | (with_reducible refine Sub.trans ?_ hM) <;> exact Sub.lit rfl
    | with_reducible apply State.modCore_touches
    | with_reducible apply State.countInf_touches
    | with_reducible apply State.putRow_touches
    | with_reducible apply State.count_touches
    | with_reducible apply Touches.foldl
    | with_reducible apply Touches1.foldl
    | with_reducible apply Touches1.fst
    | (with_reducible intro _; try dsimp only)
    | split
    | with_reducible apply Touches1.mk

theorem State.entryFault_touches {M : Nat} {s0 : State} (s : State) (c ep : Nat) (ks : List Nat) (hM : Sub 33554432 M) (hT
  : Touches M s0 s) : TouchesP M s0 (State.entryFault s c ep ks) := by
  unfold State.entryFault
  try dsimp only
  repeat' first
    | with_reducible assumption
    | (with_reducible refine Sub.trans ?_ hM) <;> exact Sub.lit rfl
    | with_reducible apply State.raiseParity_touches
    | with_reducible apply State.tagFault_touches
    | (with_reducible apply TouchesP.elim; with_reducible assumption)
    | with_reducible apply Touches1.fst
    | with_reducible exact TouchesP.none
    | with_reducible apply TouchesP.some
    | with_reducible apply TouchesP.map
    | with_reducible apply TouchesP.findSome
    | with_reducible apply TouchesP.orElse
    | with_reducible exact TouchesP.none
    | (with_reducible intro _; try dsimp only)
    | split
    | with_reducible apply Touches1.mk

theorem State.cnvTilesFrom_touches {M : Nat} {s0 : State} (hw : List Hw) (c : Nat) (i : Issued) (p : CnvPlan) (y0 : Nat)
  (y1 : Nat) (y2 : State) (hM : Sub 138210705708 M) (hT : Touches M s0 y2) : Touches M s0 (State.cnvTilesFrom hw c i p y0
  y1 y2) := by
  induction y0 generalizing y1 y2 with
  | zero =>
    unfold State.cnvTilesFrom
    try dsimp only
    repeat' first
      | with_reducible assumption
      | (with_reducible refine Sub.trans ?_ hM) <;> exact Sub.lit rfl
      | with_reducible apply State.cnvEnd_touches
      | with_reducible apply ih
      | with_reducible apply State.cnvPut_touches
      | with_reducible apply State.holdUnit_touches
      | with_reducible apply State.count_touches
      | with_reducible apply State.entryFault_touches
      | (with_reducible apply TouchesP.elim; with_reducible assumption)
      | with_reducible apply Touches1.fst
      | with_reducible apply TouchesP.map
      | with_reducible apply TouchesP.findSome
      | with_reducible apply TouchesP.orElse
      | with_reducible exact TouchesP.none
      | (with_reducible intro _; try dsimp only)
      | split
      | with_reducible apply Touches1.mk
  | succ n ih =>
    unfold State.cnvTilesFrom
    try dsimp only
    repeat' first
      | with_reducible assumption
      | (with_reducible refine Sub.trans ?_ hM) <;> exact Sub.lit rfl
      | with_reducible apply State.cnvEnd_touches
      | with_reducible apply ih
      | with_reducible apply State.cnvPut_touches
      | with_reducible apply State.holdUnit_touches
      | with_reducible apply State.count_touches
      | with_reducible apply State.entryFault_touches
      | (with_reducible apply TouchesP.elim; with_reducible assumption)
      | with_reducible apply Touches1.fst
      | with_reducible apply TouchesP.map
      | with_reducible apply TouchesP.findSome
      | with_reducible apply TouchesP.orElse
      | with_reducible exact TouchesP.none
      | (with_reducible intro _; try dsimp only)
      | split
      | with_reducible apply Touches1.mk

theorem State.arbGoesOn_touches {M : Nat} {s0 : State} (s : State) (c : Nat) (i : Issued) (a : Arb) (hw : List Hw) (hM :
  Sub 18014536720187692 M) (hT : Touches M s0 s) : Touches M s0 (State.arbGoesOn s c i a hw) := by
  unfold State.arbGoesOn
  try dsimp only
  repeat' first
    | with_reducible assumption
    | (with_reducible refine Sub.trans ?_ hM) <;> exact Sub.lit rfl
    | with_reducible apply State.streamRowsFrom_touches
    | with_reducible apply State.optEnd_touches
    | with_reducible apply State.vecFrom_touches
    | with_reducible apply State.cnvPut_touches
    | with_reducible apply State.streamPut_touches
    | with_reducible apply State.cnvTilesFrom_touches
    | with_reducible apply State.executed_touches
    | with_reducible apply State.vecEnd_touches
    | (with_reducible intro _; try dsimp only)
    | split

theorem State.setLearned_touches {M : Nat} {s0 : State} (s : State) (x : List Learned) (hM : Sub 64 M) (hT : Touches M s0
  s) : Touches M s0 (State.setLearned s x) := by
  unfold State.setLearned
  try dsimp only
  repeat' first
    | with_reducible assumption
    | (with_reducible refine Sub.trans ?_ hM) <;> exact Sub.lit rfl
    | with_reducible apply Touches.set_learned
    | (with_reducible intro _; try dsimp only)
    | split

theorem State.arbMarked_touches {M : Nat} {s0 : State} (s : State) (c : Nat) (i : Issued) (a : Arb) (code : Code) (badRes :
  Nat) (pairs : List (Nat × Nat)) (hM : Sub 324 M) (hT : Touches M s0 s) : Touches M s0 (State.arbMarked s c i a code
  badRes pairs) := by
  unfold State.arbMarked
  try dsimp only
  repeat' first
    | with_reducible assumption
    | (with_reducible refine Sub.trans ?_ hM) <;> exact Sub.lit rfl
    | with_reducible apply State.modCore_touches
    | with_reducible apply State.wr_touches
    | with_reducible apply State.setLearned_touches
    | (with_reducible intro _; try dsimp only)
    | split

theorem State.arbReported_touches {M : Nat} {s0 : State} (s : State) (c : Nat) (i : Issued) (a : Arb) (code : Code) (other
  : Bool) (hM : Sub 33554436 M) (hT : Touches M s0 s) : Touches M s0 (State.arbReported s c i a code other) := by
  unfold State.arbReported
  try dsimp only
  repeat' first
    | with_reducible assumption
    | (with_reducible refine Sub.trans ?_ hM) <;> exact Sub.lit rfl
    | with_reducible apply State.wr_touches
    | with_reducible apply State.raiseCore_touches
    | with_reducible apply State.count_touches
    | (with_reducible intro _; try dsimp only)
    | split

theorem State.trace_touches {M : Nat} {s0 : State} (s : State) (c e kind status : Nat) (i : Issued) (hM : Sub 33554692 M)
  (hT : Touches M s0 s) : Touches M s0 (State.trace s c e kind status i) := by
  unfold State.trace
  try dsimp only
  repeat' first
    | with_reducible assumption
    | (with_reducible refine Sub.trans ?_ hM) <;> exact Sub.lit rfl
    | with_reducible apply State.offer_touches
    | (with_reducible intro _; try dsimp only)
    | split

theorem State.setSignals_touches {M : Nat} {s0 : State} (s : State) (x : List Signal) (hM : Sub 2048 M) (hT : Touches M s0
  s) : Touches M s0 (State.setSignals s x) := by
  unfold State.setSignals
  try dsimp only
  repeat' first
    | with_reducible assumption
    | (with_reducible refine Sub.trans ?_ hM) <;> exact Sub.lit rfl
    | with_reducible apply Touches.set_signals
    | (with_reducible intro _; try dsimp only)
    | split

theorem State.performSignal_touches {M : Nat} {s0 : State} (s : State) (unit part index : Nat) (g : SignalEntry) (hM : Sub
  4328523776 M) (hT : Touches M s0 s) : Touches M s0 (State.performSignal s unit part index g) := by
  unfold State.performSignal
  try dsimp only
  repeat' first
    | with_reducible assumption
    | (with_reducible refine Sub.trans ?_ hM) <;> exact Sub.lit rfl
    | with_reducible apply State.sendMsg_touches
    | with_reducible apply State.setSignals_touches
    | (with_reducible intro _; try dsimp only)
    | split

theorem State.setFences_touches {M : Nat} {s0 : State} (s : State) (x : List Fence) (hM : Sub 2199023255552 M) (hT :
  Touches M s0 s) : Touches M s0 (State.setFences s x) := by
  unfold State.setFences
  try dsimp only
  repeat' first
    | with_reducible assumption
    | (with_reducible refine Sub.trans ?_ hM) <;> exact Sub.lit rfl
    | with_reducible apply Touches.set_fences
    | (with_reducible intro _; try dsimp only)
    | split

theorem State.dropCommand_touches {M : Nat} {s0 : State} (s : State) (c token : Nat) (hM : Sub 2199023255808 M) (hT :
  Touches M s0 s) : Touches M s0 (State.dropCommand s c token) := by
  unfold State.dropCommand
  try dsimp only
  repeat' first
    | with_reducible assumption
    | (with_reducible refine Sub.trans ?_ hM) <;> exact Sub.lit rfl
    | with_reducible apply State.modCore_touches
    | with_reducible apply State.setFences_touches
    | (with_reducible intro _; try dsimp only)
    | split

theorem State.retire_touches {M : Nat} {s0 : State} (s : State) (c : Nat) (i : Issued) (code : Nat) (hM : Sub 2203351779588
  M) (hT : Touches M s0 s) : Touches M s0 (State.retire s c i code) := by
  unfold State.retire
  try dsimp only
  repeat' first
    | with_reducible assumption
    | (with_reducible refine Sub.trans ?_ hM) <;> exact Sub.lit rfl
    | with_reducible apply State.failCore_touches
    | with_reducible apply State.modCore_touches
    | with_reducible apply State.trace_touches
    | with_reducible apply State.performSignal_touches
    | with_reducible apply State.dropCommand_touches
    | (with_reducible intro _; try dsimp only)
    | split

theorem State.retireOldest_touches {M : Nat} {s0 : State} (s : State) (c : Nat) (q : Queue) (hM : Sub 2203351779588 M) (hT
  : Touches M s0 s) : Touches M s0 (State.retireOldest s c q) := by
  unfold State.retireOldest
  try dsimp only
  repeat' first
    | with_reducible assumption
    | (with_reducible refine Sub.trans ?_ hM) <;> exact Sub.lit rfl
    | with_reducible apply State.retire_touches
    | (with_reducible intro _; try dsimp only)
    | split

theorem State.arrDone_touches {M : Nat} {s0 : State} (s : State) (c op : Nat) (f : Core → Core) (hM : Sub 2203351779588 M)
  (hT : Touches M s0 s) : Touches M s0 (State.arrDone s c op f) := by
  unfold State.arrDone
  try dsimp only
  repeat' first
    | with_reducible assumption
    | (with_reducible refine Sub.trans ?_ hM) <;> exact Sub.lit rfl
    | with_reducible apply State.modCore_touches
    | with_reducible apply State.executed_touches
    | with_reducible apply State.retireOldest_touches
    | (with_reducible intro _; try dsimp only)
    | split

theorem State.began_touches {M : Nat} {s0 : State} (s : State) (c : Nat) (i : Issued) (hM : Sub 33554692 M) (hT : Touches M
  s0 s) : Touches M s0 (State.began s c i) := by
  unfold State.began
  try dsimp only
  repeat' first
    | with_reducible assumption
    | (with_reducible refine Sub.trans ?_ hM) <;> exact Sub.lit rfl
    | with_reducible apply State.modCore_touches
    | with_reducible apply State.trace_touches
    | (with_reducible intro _; try dsimp only)
    | split

theorem State.raiseDesc_touches {M : Nat} {s0 : State} (s : State) (c engine da reason : Nat) (hM : Sub 33554432 M) (hT :
  Touches M s0 s) : Touches M s0 (State.raiseDesc s c engine da reason) := by
  unfold State.raiseDesc
  try dsimp only
  repeat' first
    | with_reducible assumption
    | (with_reducible refine Sub.trans ?_ hM) <;> exact Sub.lit rfl
    | with_reducible apply State.raiseCore_touches
    | (with_reducible intro _; try dsimp only)
    | split

theorem State.raiseExtract_touches {M : Nat} {s0 : State} (s : State) (c : Nat) (d : Desc) (x : Nat × Nat) (hM : Sub
  33554432 M) (hT : Touches M s0 s) : Touches M s0 (State.raiseExtract s c d x) := by
  unfold State.raiseExtract
  try dsimp only
  repeat' first
    | with_reducible assumption
    | (with_reducible refine Sub.trans ?_ hM) <;> exact Sub.lit rfl
    | with_reducible apply State.raiseCore_touches
    | (with_reducible intro _; try dsimp only)
    | split

theorem State.raiseArr_touches {M : Nat} {s0 : State} (s : State) (c engine : Nat) (y0 : ArrRefusal) (hM : Sub 33554432 M)
  (hT : Touches M s0 s) : Touches1 M s0 (State.raiseArr s c engine y0) := by
  unfold State.raiseArr
  try dsimp only
  repeat' first
    | with_reducible assumption
    | (with_reducible refine Sub.trans ?_ hM) <;> exact Sub.lit rfl
    | with_reducible apply State.raiseDesc_touches
    | with_reducible apply State.raiseExtract_touches
    | with_reducible apply State.raiseCore_touches
    | with_reducible apply State.raiseLoad_touches
    | with_reducible apply Touches1.fst
    | (with_reducible intro _; try dsimp only)
    | split
    | with_reducible apply Touches1.mk

theorem State.arrLoad_touches {M : Nat} {s0 : State} (s : State) (c : Nat) (i : Issued) (hw : List Hw) (hM : Sub 503316780
  M) (hT : Touches M s0 s) : TouchesL M s0 (State.arrLoad s c i hw) := by
  unfold State.arrLoad
  try dsimp only
  repeat' first
    | with_reducible assumption
    | (with_reducible refine Sub.trans ?_ hM) <;> exact Sub.lit rfl
    | with_reducible apply State.countLoads_touches
    | with_reducible apply State.applyHw_touches
    | with_reducible apply State.raiseArr_touches
    | with_reducible apply State.raiseLoad_touches
    | with_reducible apply Touches1.fst
    | with_reducible apply TouchesL.state
    | with_reducible apply Touches.ifSome
    | with_reducible apply Touches1.ifSome
    | with_reducible apply TouchesL.ifSome
    | with_reducible apply TouchesP.ifSome
    | with_reducible apply TouchesO.ifSome
    | (with_reducible intro _; try dsimp only)
    | split
    | with_reducible apply Touches1.mk
    | with_reducible apply TouchesL.mk

theorem State.arrFillRun_touches {M : Nat} {s0 : State} (hw : List Hw) (s : State) (c : Nat) (i : Issued) (hM : Sub
  503316780 M) (hT : Touches M s0 s) : Touches M s0 (State.arrFillRun hw s c i) := by
  unfold State.arrFillRun
  try dsimp only
  repeat' first
    | with_reducible assumption
    | (with_reducible refine Sub.trans ?_ hM) <;> exact Sub.lit rfl
    | with_reducible apply State.began_touches
    | with_reducible apply State.modCore_touches
    | with_reducible apply State.arrLoad_touches
    | with_reducible apply State.executed_touches
    | with_reducible apply TouchesL.state
    | with_reducible apply Touches.ifSome
    | with_reducible apply Touches1.ifSome
    | with_reducible apply TouchesL.ifSome
    | with_reducible apply TouchesP.ifSome
    | with_reducible apply TouchesO.ifSome
    | (with_reducible intro _; try dsimp only)
    | split

theorem State.arrLoadRun_touches {M : Nat} {s0 : State} (hw : List Hw) (s : State) (c : Nat) (i : Issued) (hM : Sub
  503316780 M) (hT : Touches M s0 s) : Touches M s0 (State.arrLoadRun hw s c i) := by
  unfold State.arrLoadRun
  try dsimp only
  repeat' first
    | with_reducible assumption
    | (with_reducible refine Sub.trans ?_ hM) <;> exact Sub.lit rfl
    | with_reducible apply State.began_touches
    | with_reducible apply State.modCore_touches
    | with_reducible apply State.arrLoad_touches
    | with_reducible apply State.executed_touches
    | with_reducible apply TouchesL.state
    | with_reducible apply Touches.ifSome
    | with_reducible apply Touches1.ifSome
    | with_reducible apply TouchesL.ifSome
    | with_reducible apply TouchesP.ifSome
    | with_reducible apply TouchesO.ifSome
    | (with_reducible intro _; try dsimp only)
    | split

theorem State.issueHead_touches {M : Nat} {s0 : State} (s : State) (c w : Nat) (q : Queue) (rs : List Region) (hM : Sub
  33554692 M) (hT : Touches M s0 s) : Touches M s0 (State.issueHead s c w q rs) := by
  unfold State.issueHead
  try dsimp only
  repeat' first
    | with_reducible assumption
    | (with_reducible refine Sub.trans ?_ hM) <;> exact Sub.lit rfl
    | with_reducible apply State.modCore_touches
    | with_reducible apply State.count_touches
    | (with_reducible intro _; try dsimp only)
    | split

theorem State.tryIssue_touches {M : Nat} {s0 : State} (s : State) (c op : Nat) (q : Queue) (regions : Nat → List Region)
  (hM : Sub 33554692 M) (hT : Touches M s0 s) : Touches M s0 (State.tryIssue s c op q regions) := by
  unfold State.tryIssue
  try dsimp only
  repeat' first
    | with_reducible assumption
    | (with_reducible refine Sub.trans ?_ hM) <;> exact Sub.lit rfl
    | with_reducible apply State.issueHead_touches
    | with_reducible apply State.afterIssue_touches
    | (with_reducible intro _; try dsimp only)
    | split

theorem State.arrRowOp_touches {M : Nat} {s0 : State} (s : State) (c op : Nat) (regions : Nat → List Region) (run : State →
  Issued → State) (hrun : ∀ u0 u1, Touches M s0 u0 → Touches M s0 (run u0 u1)) (hM : Sub 33554692 M) (hT : Touches M s0 s)
  : Touches M s0 (State.arrRowOp s c op regions run) := by
  unfold State.arrRowOp
  try dsimp only
  repeat' first
    | with_reducible assumption
    | (with_reducible refine Sub.trans ?_ hM) <;> exact Sub.lit rfl
    | with_reducible apply State.tryIssue_touches
    | with_reducible apply hrun
    | (with_reducible intro _; try dsimp only)
    | split

theorem State.arrSwapRun_touches {M : Nat} {s0 : State} (hw : List Hw) (s : State) (c : Nat) (i : Issued) (hM : Sub
  503316780 M) (hT : Touches M s0 s) : Touches M s0 (State.arrSwapRun hw s c i) := by
  unfold State.arrSwapRun
  try dsimp only
  repeat' first
    | with_reducible assumption
    | (with_reducible refine Sub.trans ?_ hM) <;> exact Sub.lit rfl
    | with_reducible apply State.began_touches
    | with_reducible apply State.modCore_touches
    | with_reducible apply State.executed_touches
    | with_reducible apply State.applyHw_touches
    | with_reducible apply State.raiseArr_touches
    | with_reducible apply Touches1.fst
    | (with_reducible intro _; try dsimp only)
    | split
    | with_reducible apply Touches1.mk

theorem State.unsupportedRequest_touches {M : Nat} {s0 : State} (s : State) (hM : Sub 50331652 M) (hT : Touches M s0 s) :
  Touches M s0 (State.unsupportedRequest s) := by
  unfold State.unsupportedRequest
  try dsimp only
  repeat' first
    | with_reducible assumption
    | (with_reducible refine Sub.trans ?_ hM) <;> exact Sub.lit rfl
    | with_reducible apply State.setOut_touches
    | with_reducible apply State.count_touches
    | (with_reducible intro _; try dsimp only)
    | split

theorem State.ringOverrun_touches {M : Nat} {s0 : State} (s : State) (kind index part value other : Nat) (hM : Sub 33554432
  M) (hT : Touches M s0 s) : Touches M s0 (State.ringOverrun s kind index part value other) := by
  unfold State.ringOverrun
  try dsimp only
  repeat' first
    | with_reducible assumption
    | (with_reducible refine Sub.trans ?_ hM) <;> exact Sub.lit rfl
    | with_reducible apply State.raise_touches
    | (with_reducible intro _; try dsimp only)
    | split

theorem State.eventHeadWrite_touches {M : Nat} {s0 : State} (s : State) (p value : Nat) (hM : Sub 33554436 M) (hT : Touches
  M s0 s) : Touches M s0 (State.eventHeadWrite s p value) := by
  unfold State.eventHeadWrite
  try dsimp only
  repeat' first
    | with_reducible assumption
    | (with_reducible refine Sub.trans ?_ hM) <;> exact Sub.lit rfl
    | with_reducible apply State.ringOverrun_touches
    | with_reducible apply State.wr_touches
    | (with_reducible intro _; try dsimp only)
    | split

theorem State.setRecoveries_touches {M : Nat} {s0 : State} (s : State) (x : List Recovery) (hM : Sub 4398046511104 M) (hT :
  Touches M s0 s) : Touches M s0 (State.setRecoveries s x) := by
  unfold State.setRecoveries
  try dsimp only
  repeat' first
    | with_reducible assumption
    | (with_reducible refine Sub.trans ?_ hM) <;> exact Sub.lit rfl
    | with_reducible apply Touches.set_recoveries
    | (with_reducible intro _; try dsimp only)
    | split

theorem State.setRecovery_touches {M : Nat} {s0 : State} (s : State) (r : Recovery) (hM : Sub 4398046511104 M) (hT :
  Touches M s0 s) : Touches M s0 (State.setRecovery s r) := by
  unfold State.setRecovery
  try dsimp only
  repeat' first
    | with_reducible assumption
    | (with_reducible refine Sub.trans ?_ hM) <;> exact Sub.lit rfl
    | with_reducible apply State.setRecoveries_touches
    | (with_reducible intro _; try dsimp only)
    | split

theorem State.barAnswer_touches {M : Nat} {s0 : State} (s : State) (pf : Bool) (hM : Sub 50331652 M) (hT : Touches M s0 s)
  : Touches M s0 (State.barAnswer s pf) := by
  unfold State.barAnswer
  try dsimp only
  repeat' first
    | with_reducible assumption
    | (with_reducible refine Sub.trans ?_ hM) <;> exact Sub.lit rfl
    | with_reducible apply State.unsupportedRequest_touches
    | with_reducible apply State.gateCount_touches
    | (with_reducible intro _; try dsimp only)
    | split

theorem execCadSupplyGo_touches {M : Nat} {s0 : State} (p : Nat) (s : State) (hM : Sub 4398096842756 M) (hT : Touches M s0
  s) : TouchesO M s0 (execCadSupplyGo p s) := by
  unfold execCadSupplyGo
  try dsimp only
  repeat' first
    | with_reducible assumption
    | (with_reducible refine Sub.trans ?_ hM) <;> exact Sub.lit rfl
    | with_reducible apply State.wr_touches
    | with_reducible apply State.setRecovery_touches
    | with_reducible apply State.barAnswer_touches
    | with_reducible apply TouchesO.next
    | (with_reducible intro _; try dsimp only)
    | split
    | with_reducible apply Touches1.mk

theorem State.plainWrite_touches {M : Nat} {s0 : State} (s : State) (x : Wr) (hM : Sub 4 M) (hT : Touches M s0 s) : Touches
  M s0 (State.plainWrite s x) := by
  unfold State.plainWrite
  try dsimp only
  repeat' first
    | with_reducible assumption
    | (with_reducible refine Sub.trans ?_ hM) <;> exact Sub.lit rfl
    | with_reducible apply State.setReg_touches
    | with_reducible apply Touches.foldl
    | with_reducible apply Touches1.foldl
    | with_reducible apply Touches1.fst
    | (with_reducible intro _; try dsimp only)
    | split
    | with_reducible apply Touches1.mk

theorem State.pieceOver_touches {M : Nat} {s0 : State} (s : State) (f q j : Nat) (hM : Sub 1099511627776 M) (hT : Touches M
  s0 s) : Touches M s0 (State.pieceOver s f q j) := by
  unfold State.pieceOver
  try dsimp only
  repeat' first
    | with_reducible assumption
    | (with_reducible refine Sub.trans ?_ hM) <;> exact Sub.lit rfl
    | with_reducible apply State.modFeed_touches
    | (with_reducible intro _; try dsimp only)
    | split

theorem State.setChans_touches {M : Nat} {s0 : State} (s : State) (x : List (Nat × Chan)) (hM : Sub 549755813888 M) (hT :
  Touches M s0 s) : Touches M s0 (State.setChans s x) := by
  unfold State.setChans
  try dsimp only
  repeat' first
    | with_reducible assumption
    | (with_reducible refine Sub.trans ?_ hM) <;> exact Sub.lit rfl
    | with_reducible apply Touches.set_chans
    | (with_reducible intro _; try dsimp only)
    | split

theorem State.modChan_touches {M : Nat} {s0 : State} (s : State) (key : Nat) (f : Chan → Chan) (hM : Sub 549755813888 M)
  (hT : Touches M s0 s) : Touches M s0 (State.modChan s key f) := by
  unfold State.modChan
  try dsimp only
  repeat' first
    | with_reducible assumption
    | (with_reducible refine Sub.trans ?_ hM) <;> exact Sub.lit rfl
    | with_reducible apply State.setChans_touches
    | (with_reducible intro _; try dsimp only)
    | split

theorem State.setChanState_touches {M : Nat} {s0 : State} (s : State) (key v : Nat) (hM : Sub 4 M) (hT : Touches M s0 s) :
  Touches M s0 (State.setChanState s key v) := by
  unfold State.setChanState
  try dsimp only
  repeat' first
    | with_reducible assumption
    | (with_reducible refine Sub.trans ?_ hM) <;> exact Sub.lit rfl
    | with_reducible apply State.wr_touches
    | (with_reducible intro _; try dsimp only)
    | split

theorem State.endXfer_touches {M : Nat} {s0 : State} (s : State) (x : Xfer) (code : Nat) (hM : Sub 549755814148 M) (hT :
  Touches M s0 s) : Touches M s0 (State.endXfer s x code) := by
  unfold State.endXfer
  try dsimp only
  repeat' first
    | with_reducible assumption
    | (with_reducible refine Sub.trans ?_ hM) <;> exact Sub.lit rfl
    | with_reducible apply State.modChan_touches
    | with_reducible apply State.setChanState_touches
    | with_reducible apply State.wr_touches
    | with_reducible apply State.executed_touches
    | (with_reducible intro _; try dsimp only)
    | split

theorem State.dropReqs_touches {M : Nat} {s0 : State} (s : State) (x : Xfer) (hM : Sub 68719476736 M) (hT : Touches M s0 s)
  : Touches M s0 (State.dropReqs s x) := by
  unfold State.dropReqs
  try dsimp only
  repeat' first
    | with_reducible assumption
    | (with_reducible refine Sub.trans ?_ hM) <;> exact Sub.lit rfl
    | with_reducible apply State.setReqs_touches
    | (with_reducible intro _; try dsimp only)
    | split

theorem State.failXfer_touches {M : Nat} {s0 : State} (s : State) (x : Xfer) (code : Nat) (hM : Sub 618475290884 M) (hT :
  Touches M s0 s) : Touches M s0 (State.failXfer s x code) := by
  unfold State.failXfer
  try dsimp only
  repeat' first
    | with_reducible assumption
    | (with_reducible refine Sub.trans ?_ hM) <;> exact Sub.lit rfl
    | with_reducible apply State.endXfer_touches
    | with_reducible apply State.dropReqs_touches
    | (with_reducible intro _; try dsimp only)
    | split

theorem State.dropRecovery_touches {M : Nat} {s0 : State} (s : State) (o : Nat) (hM : Sub 4398046511104 M) (hT : Touches M
  s0 s) : Touches M s0 (State.dropRecovery s o) := by
  unfold State.dropRecovery
  try dsimp only
  repeat' first
    | with_reducible assumption
    | (with_reducible refine Sub.trans ?_ hM) <;> exact Sub.lit rfl
    | with_reducible apply State.setRecoveries_touches
    | (with_reducible intro _; try dsimp only)
    | split

theorem State.recoveryFailed_touches {M : Nat} {s0 : State} (s : State) (r : Recovery) (hM : Sub 6117140726020 M) (hT :
  Touches M s0 s) : Touches M s0 (State.recoveryFailed s r) := by
  unfold State.recoveryFailed
  try dsimp only
  repeat' first
    | with_reducible assumption
    | (with_reducible refine Sub.trans ?_ hM) <;> exact Sub.lit rfl
    | with_reducible apply State.pieceOver_touches
    | with_reducible apply State.modChan_touches
    | with_reducible apply State.failXfer_touches
    | with_reducible apply State.wr_touches
    | with_reducible apply State.modFeed_touches
    | with_reducible apply State.dropRecovery_touches
    | with_reducible apply State.raise_touches
    | with_reducible apply State.setObject_touches
    | with_reducible apply State.count_touches
    | with_reducible apply Touches.foldl
    | with_reducible apply Touches1.foldl
    | with_reducible apply Touches1.fst
    | (with_reducible intro _; try dsimp only)
    | split
    | with_reducible apply Touches1.mk

theorem State.askDriver_touches {M : Nat} {s0 : State} (s : State) (r : Recovery) (hM : Sub 4398080065540 M) (hT : Touches
  M s0 s) : Touches M s0 (State.askDriver s r) := by
  unfold State.askDriver
  try dsimp only
  repeat' first
    | with_reducible assumption
    | (with_reducible refine Sub.trans ?_ hM) <;> exact Sub.lit rfl
    | with_reducible apply State.wr_touches
    | with_reducible apply State.setRecovery_touches
    | with_reducible apply State.raise_touches
    | (with_reducible intro _; try dsimp only)
    | split

theorem State.askNext_touches {M : Nat} {s0 : State} (s : State) (p : Nat) (hM : Sub 4398080065540 M) (hT : Touches M s0 s)
  : Touches M s0 (State.askNext s p) := by
  unfold State.askNext
  try dsimp only
  repeat' first
    | with_reducible assumption
    | (with_reducible refine Sub.trans ?_ hM) <;> exact Sub.lit rfl
    | with_reducible apply State.askDriver_touches
    | (with_reducible intro _; try dsimp only)
    | split

theorem execCadSupplyDecline_touches {M : Nat} {s0 : State} (p : Nat) (s : State) (hM : Sub 6117157503236 M) (hT : Touches
  M s0 s) : TouchesO M s0 (execCadSupplyDecline p s) := by
  unfold execCadSupplyDecline
  try dsimp only
  repeat' first
    | with_reducible assumption
    | (with_reducible refine Sub.trans ?_ hM) <;> exact Sub.lit rfl
    | with_reducible apply State.barAnswer_touches
    | with_reducible apply State.recoveryFailed_touches
    | with_reducible apply State.askNext_touches
    | with_reducible apply TouchesO.next
    | (with_reducible intro _; try dsimp only)
    | split
    | with_reducible apply Touches1.mk

theorem State.holdFeed_touches {M : Nat} {s0 : State} (s : State) (f : Nat) (hM : Sub 4 M) (hT : Touches M s0 s) : Touches
  M s0 (State.holdFeed s f) := by
  unfold State.holdFeed
  try dsimp only
  repeat' first
    | with_reducible assumption
    | (with_reducible refine Sub.trans ?_ hM) <;> exact Sub.lit rfl
    | with_reducible apply State.wr_touches
    | (with_reducible intro _; try dsimp only)
    | split

theorem execCadFeedEnable_touches {M : Nat} {s0 : State} (feed : Nat) (s : State) (hM : Sub 1099561959428 M) (hT : Touches
  M s0 s) : TouchesO M s0 (execCadFeedEnable feed s) := by
  unfold execCadFeedEnable
  try dsimp only
  repeat' first
    | with_reducible assumption
    | (with_reducible refine Sub.trans ?_ hM) <;> exact Sub.lit rfl
    | with_reducible apply State.wr_touches
    | with_reducible apply State.modFeed_touches
    | with_reducible apply State.holdFeed_touches
    | with_reducible apply State.raise_touches
    | with_reducible apply State.barAnswer_touches
    | with_reducible apply TouchesO.next
    | (with_reducible intro _; try dsimp only)
    | split
    | with_reducible apply Touches1.mk

theorem State.writeCad_touches {M : Nat} {s0 : State} (s : State) (x : Wr) (hM : Sub 6117157503236 M) (hT : Touches M s0 s)
  : Touches M s0 (State.writeCad s x) := by
  unfold State.writeCad
  try dsimp only
  repeat' first
    | with_reducible assumption
    | (with_reducible refine Sub.trans ?_ hM) <;> exact Sub.lit rfl
    | with_reducible apply execCadSupplyGo_touches
    | with_reducible apply State.plainWrite_touches
    | with_reducible apply execCadSupplyDecline_touches
    | with_reducible apply execCadFeedEnable_touches
    | with_reducible apply State.after_touches
    | (with_reducible intro _; try dsimp only)
    | split

theorem State.quotaRefused_touches {M : Nat} {s0 : State} (s : State) (p tier requested limit : Nat) (hM : Sub 33554432 M)
  (hT : Touches M s0 s) : Touches M s0 (State.quotaRefused s p tier requested limit) := by
  unfold State.quotaRefused
  try dsimp only
  repeat' first
    | with_reducible assumption
    | (with_reducible refine Sub.trans ?_ hM) <;> exact Sub.lit rfl
    | with_reducible apply State.raise_touches
    | (with_reducible intro _; try dsimp only)
    | split

theorem execQuotaLock_touches {M : Nat} {s0 : State} (p : Nat) (s : State) (hM : Sub 50331652 M) (hT : Touches M s0 s) :
  TouchesO M s0 (execQuotaLock p s) := by
  unfold execQuotaLock
  try dsimp only
  repeat' first
    | with_reducible assumption
    | (with_reducible refine Sub.trans ?_ hM) <;> exact Sub.lit rfl
    | with_reducible apply State.wr_touches
    | with_reducible apply State.quotaRefused_touches
    | with_reducible apply State.barAnswer_touches
    | with_reducible apply TouchesO.next
    | (with_reducible intro _; try dsimp only)
    | split
    | with_reducible apply Touches1.mk

end Sys2Proof.Machine
end

