-- ==== Sys2Proof/Laws/Views.lean ====
section
/-!
SUPPORT. What a reader of State (a register, a field, a core, an object, a byte, a stream and so on) gives after an update of
another kind of state: what it gave before; and after an update of its own kind, at the same key and at another.
-/
namespace Sys2Proof.Machine

variable (s : State)

theorem State.memNat_congr {s t : State} (h1 : t.mem = s.mem) (h2 : t.book = s.book) (a n : Nat) : t.memNat a n = s.memNat a n := by
  induction n generalizing a with
  | zero => rfl
  | succ n ih => simp only [State.memNat, State.byte_congr h1 h2, ih]

theorem State.bytes_congr {s t : State} (h1 : t.mem = s.mem) (h2 : t.book = s.book) (a n : Nat) : t.bytes a n = s.bytes a n := by
  induction n generalizing a with
  | zero => rfl
  | succ n ih => simp only [State.bytes, State.byte_congr h1 h2, ih]

@[simp] theorem State.pending_modPort (n1 : Nat) (g : Port → Port) : (s.modPort n1 g).pending = s.pending := rfl
@[simp] theorem State.dtime_modPort (n1 : Nat) (g : Port → Port) : (s.modPort n1 g).dtime = s.dtime := rfl
@[simp] theorem State.regs_modPort (n1 : Nat) (g : Port → Port) : (s.modPort n1 g).regs = s.regs := rfl
@[simp] theorem State.mem_modPort (n1 : Nat) (g : Port → Port) : (s.modPort n1 g).mem = s.mem := rfl
@[simp] theorem State.hostMem_modPort (n1 : Nat) (g : Port → Port) : (s.modPort n1 g).hostMem = s.hostMem := rfl
@[simp] theorem State.book_modPort (n1 : Nat) (g : Port → Port) : (s.modPort n1 g).book = s.book := rfl
@[simp] theorem State.learned_modPort (n1 : Nat) (g : Port → Port) : (s.modPort n1 g).learned = s.learned := rfl
@[simp] theorem State.benched_modPort (n1 : Nat) (g : Port → Port) : (s.modPort n1 g).benched = s.benched := rfl
@[simp] theorem State.cores_modPort (n1 : Nat) (g : Port → Port) : (s.modPort n1 g).cores = s.cores := rfl
@[simp] theorem State.sync_modPort (n1 : Nat) (g : Port → Port) : (s.modPort n1 g).sync = s.sync := rfl
@[simp] theorem State.waitOrder_modPort (n1 : Nat) (g : Port → Port) : (s.modPort n1 g).waitOrder = s.waitOrder := rfl
@[simp] theorem State.signals_modPort (n1 : Nat) (g : Port → Port) : (s.modPort n1 g).signals = s.signals := rfl
@[simp] theorem State.dispatch_modPort (n1 : Nat) (g : Port → Port) : (s.modPort n1 g).dispatch = s.dispatch := rfl
@[simp] theorem State.segOrder_modPort (n1 : Nat) (g : Port → Port) : (s.modPort n1 g).segOrder = s.segOrder := rfl
@[simp] theorem State.streams_modPort (n1 : Nat) (g : Port → Port) : (s.modPort n1 g).streams = s.streams := rfl
@[simp] theorem State.rings_modPort (n1 : Nat) (g : Port → Port) : (s.modPort n1 g).rings = s.rings := rfl
@[simp] theorem State.heads_modPort (n1 : Nat) (g : Port → Port) : (s.modPort n1 g).heads = s.heads := rfl
@[simp] theorem State.haltAt_modPort (n1 : Nat) (g : Port → Port) : (s.modPort n1 g).haltAt = s.haltAt := rfl
@[simp] theorem State.heldHeads_modPort (n1 : Nat) (g : Port → Port) : (s.modPort n1 g).heldHeads = s.heldHeads := rfl
@[simp] theorem State.queues_modPort (n1 : Nat) (g : Port → Port) : (s.modPort n1 g).queues = s.queues := rfl
@[simp] theorem State.atsOn_modPort (n1 : Nat) (g : Port → Port) : (s.modPort n1 g).atsOn = s.atsOn := rfl
@[simp] theorem State.atc_modPort (n1 : Nat) (g : Port → Port) : (s.modPort n1 g).atc = s.atc := rfl
@[simp] theorem State.lowPower_modPort (n1 : Nat) (g : Port → Port) : (s.modPort n1 g).lowPower = s.lowPower := rfl
@[simp] theorem State.flags_modPort (n1 : Nat) (g : Port → Port) : (s.modPort n1 g).flags = s.flags := rfl
@[simp] theorem State.out_modPort (n1 : Nat) (g : Port → Port) : (s.modPort n1 g).out = s.out := rfl
@[simp] theorem State.events_modPort (n1 : Nat) (g : Port → Port) : (s.modPort n1 g).events = s.events := rfl
@[simp] theorem State.bad_modPort (n1 : Nat) (g : Port → Port) : (s.modPort n1 g).bad = s.bad := rfl
@[simp] theorem State.poison_modPort (n1 : Nat) (g : Port → Port) : (s.modPort n1 g).poison = s.poison := rfl
@[simp] theorem State.cache_modPort (n1 : Nat) (g : Port → Port) : (s.modPort n1 g).cache = s.cache := rfl
@[simp] theorem State.watch_modPort (n1 : Nat) (g : Port → Port) : (s.modPort n1 g).watch = s.watch := rfl
@[simp] theorem State.flash_modPort (n1 : Nat) (g : Port → Port) : (s.modPort n1 g).flash = s.flash := rfl
@[simp] theorem State.flashDown_modPort (n1 : Nat) (g : Port → Port) : (s.modPort n1 g).flashDown = s.flashDown := rfl
@[simp] theorem State.inbox_modPort (n1 : Nat) (g : Port → Port) : (s.modPort n1 g).inbox = s.inbox := rfl
@[simp] theorem State.fellows_modPort (n1 : Nat) (g : Port → Port) : (s.modPort n1 g).fellows = s.fellows := rfl
@[simp] theorem State.pfc_modPort (n1 : Nat) (g : Port → Port) : (s.modPort n1 g).pfc = s.pfc := rfl
@[simp] theorem State.reqs_modPort (n1 : Nat) (g : Port → Port) : (s.modPort n1 g).reqs = s.reqs := rfl
@[simp] theorem State.serial_modPort (n1 : Nat) (g : Port → Port) : (s.modPort n1 g).serial = s.serial := rfl
@[simp] theorem State.tag_modPort (n1 : Nat) (g : Port → Port) : (s.modPort n1 g).tag = s.tag := rfl
@[simp] theorem State.chans_modPort (n1 : Nat) (g : Port → Port) : (s.modPort n1 g).chans = s.chans := rfl
@[simp] theorem State.feeds_modPort (n1 : Nat) (g : Port → Port) : (s.modPort n1 g).feeds = s.feeds := rfl
@[simp] theorem State.fences_modPort (n1 : Nat) (g : Port → Port) : (s.modPort n1 g).fences = s.fences := rfl
@[simp] theorem State.recoveries_modPort (n1 : Nat) (g : Port → Port) : (s.modPort n1 g).recoveries = s.recoveries := rfl
@[simp] theorem State.gviews_modPort (n1 : Nat) (g : Port → Port) : (s.modPort n1 g).gviews = s.gviews := rfl
@[simp] theorem State.reds_modPort (n1 : Nat) (g : Port → Port) : (s.modPort n1 g).reds = s.reds := rfl
@[simp] theorem State.redSeq_modPort (n1 : Nat) (g : Port → Port) : (s.modPort n1 g).redSeq = s.redSeq := rfl
@[simp] theorem State.redRings_modPort (n1 : Nat) (g : Port → Port) : (s.modPort n1 g).redRings = s.redRings := rfl
@[simp] theorem State.jobs_modPort (n1 : Nat) (g : Port → Port) : (s.modPort n1 g).jobs = s.jobs := rfl
@[simp] theorem State.traceBufs_modPort (n1 : Nat) (g : Port → Port) : (s.modPort n1 g).traceBufs = s.traceBufs := rfl
@[simp] theorem State.traceTurn_modPort (n1 : Nat) (g : Port → Port) : (s.modPort n1 g).traceTurn = s.traceTurn := rfl
@[simp] theorem State.dm_modPort (n1 : Nat) (g : Port → Port) : (s.modPort n1 g).dm = s.dm := rfl
@[simp] theorem State.posted_modPort (n1 : Nat) (g : Port → Port) : (s.modPort n1 g).posted = s.posted := rfl
@[simp] theorem State.referee_modPort (n1 : Nat) (g : Port → Port) : (s.modPort n1 g).referee = s.referee := rfl
@[simp] theorem State.power_modPort (n1 : Nat) (g : Port → Port) : (s.modPort n1 g).power = s.power := rfl
@[simp] theorem State.freeCount_modPort (n1 : Nat) (g : Port → Port) : (s.modPort n1 g).freeCount = s.freeCount := rfl
@[simp] theorem State.lines_modPort (n1 : Nat) (g : Port → Port) : (s.modPort n1 g).lines = s.lines := rfl
@[simp] theorem State.hartCsr_modPort (n1 : Nat) (g : Port → Port) : (s.modPort n1 g).hartCsr = s.hartCsr := rfl
@[simp] theorem State.msix_modPort (n1 : Nat) (g : Port → Port) : (s.modPort n1 g).msix = s.msix := rfl
@[simp] theorem State.msixCtl_modPort (n1 : Nat) (g : Port → Port) : (s.modPort n1 g).msixCtl = s.msixCtl := rfl
@[simp] theorem State.hartFull_modPort (n1 : Nat) (g : Port → Port) : (s.modPort n1 g).hartFull = s.hartFull := rfl
@[simp] theorem State.pending_modChan (n1 : Nat) (g : Chan → Chan) : (s.modChan n1 g).pending = s.pending := rfl
@[simp] theorem State.dtime_modChan (n1 : Nat) (g : Chan → Chan) : (s.modChan n1 g).dtime = s.dtime := rfl
@[simp] theorem State.regs_modChan (n1 : Nat) (g : Chan → Chan) : (s.modChan n1 g).regs = s.regs := rfl
@[simp] theorem State.mem_modChan (n1 : Nat) (g : Chan → Chan) : (s.modChan n1 g).mem = s.mem := rfl
@[simp] theorem State.hostMem_modChan (n1 : Nat) (g : Chan → Chan) : (s.modChan n1 g).hostMem = s.hostMem := rfl
@[simp] theorem State.book_modChan (n1 : Nat) (g : Chan → Chan) : (s.modChan n1 g).book = s.book := rfl
@[simp] theorem State.learned_modChan (n1 : Nat) (g : Chan → Chan) : (s.modChan n1 g).learned = s.learned := rfl
@[simp] theorem State.benched_modChan (n1 : Nat) (g : Chan → Chan) : (s.modChan n1 g).benched = s.benched := rfl
@[simp] theorem State.cores_modChan (n1 : Nat) (g : Chan → Chan) : (s.modChan n1 g).cores = s.cores := rfl
@[simp] theorem State.sync_modChan (n1 : Nat) (g : Chan → Chan) : (s.modChan n1 g).sync = s.sync := rfl
@[simp] theorem State.waitOrder_modChan (n1 : Nat) (g : Chan → Chan) : (s.modChan n1 g).waitOrder = s.waitOrder := rfl
@[simp] theorem State.signals_modChan (n1 : Nat) (g : Chan → Chan) : (s.modChan n1 g).signals = s.signals := rfl
@[simp] theorem State.dispatch_modChan (n1 : Nat) (g : Chan → Chan) : (s.modChan n1 g).dispatch = s.dispatch := rfl
@[simp] theorem State.segOrder_modChan (n1 : Nat) (g : Chan → Chan) : (s.modChan n1 g).segOrder = s.segOrder := rfl
@[simp] theorem State.streams_modChan (n1 : Nat) (g : Chan → Chan) : (s.modChan n1 g).streams = s.streams := rfl
@[simp] theorem State.rings_modChan (n1 : Nat) (g : Chan → Chan) : (s.modChan n1 g).rings = s.rings := rfl
@[simp] theorem State.heads_modChan (n1 : Nat) (g : Chan → Chan) : (s.modChan n1 g).heads = s.heads := rfl
@[simp] theorem State.haltAt_modChan (n1 : Nat) (g : Chan → Chan) : (s.modChan n1 g).haltAt = s.haltAt := rfl
@[simp] theorem State.heldHeads_modChan (n1 : Nat) (g : Chan → Chan) : (s.modChan n1 g).heldHeads = s.heldHeads := rfl
@[simp] theorem State.queues_modChan (n1 : Nat) (g : Chan → Chan) : (s.modChan n1 g).queues = s.queues := rfl
@[simp] theorem State.atsOn_modChan (n1 : Nat) (g : Chan → Chan) : (s.modChan n1 g).atsOn = s.atsOn := rfl
@[simp] theorem State.atc_modChan (n1 : Nat) (g : Chan → Chan) : (s.modChan n1 g).atc = s.atc := rfl
@[simp] theorem State.lowPower_modChan (n1 : Nat) (g : Chan → Chan) : (s.modChan n1 g).lowPower = s.lowPower := rfl
@[simp] theorem State.flags_modChan (n1 : Nat) (g : Chan → Chan) : (s.modChan n1 g).flags = s.flags := rfl
@[simp] theorem State.out_modChan (n1 : Nat) (g : Chan → Chan) : (s.modChan n1 g).out = s.out := rfl
@[simp] theorem State.events_modChan (n1 : Nat) (g : Chan → Chan) : (s.modChan n1 g).events = s.events := rfl
@[simp] theorem State.bad_modChan (n1 : Nat) (g : Chan → Chan) : (s.modChan n1 g).bad = s.bad := rfl
@[simp] theorem State.poison_modChan (n1 : Nat) (g : Chan → Chan) : (s.modChan n1 g).poison = s.poison := rfl
@[simp] theorem State.cache_modChan (n1 : Nat) (g : Chan → Chan) : (s.modChan n1 g).cache = s.cache := rfl
@[simp] theorem State.watch_modChan (n1 : Nat) (g : Chan → Chan) : (s.modChan n1 g).watch = s.watch := rfl
@[simp] theorem State.flash_modChan (n1 : Nat) (g : Chan → Chan) : (s.modChan n1 g).flash = s.flash := rfl
@[simp] theorem State.flashDown_modChan (n1 : Nat) (g : Chan → Chan) : (s.modChan n1 g).flashDown = s.flashDown := rfl
@[simp] theorem State.ports_modChan (n1 : Nat) (g : Chan → Chan) : (s.modChan n1 g).ports = s.ports := rfl
@[simp] theorem State.inbox_modChan (n1 : Nat) (g : Chan → Chan) : (s.modChan n1 g).inbox = s.inbox := rfl
@[simp] theorem State.fellows_modChan (n1 : Nat) (g : Chan → Chan) : (s.modChan n1 g).fellows = s.fellows := rfl
@[simp] theorem State.pfc_modChan (n1 : Nat) (g : Chan → Chan) : (s.modChan n1 g).pfc = s.pfc := rfl
@[simp] theorem State.reqs_modChan (n1 : Nat) (g : Chan → Chan) : (s.modChan n1 g).reqs = s.reqs := rfl
@[simp] theorem State.serial_modChan (n1 : Nat) (g : Chan → Chan) : (s.modChan n1 g).serial = s.serial := rfl
@[simp] theorem State.tag_modChan (n1 : Nat) (g : Chan → Chan) : (s.modChan n1 g).tag = s.tag := rfl
@[simp] theorem State.feeds_modChan (n1 : Nat) (g : Chan → Chan) : (s.modChan n1 g).feeds = s.feeds := rfl
@[simp] theorem State.fences_modChan (n1 : Nat) (g : Chan → Chan) : (s.modChan n1 g).fences = s.fences := rfl
@[simp] theorem State.recoveries_modChan (n1 : Nat) (g : Chan → Chan) : (s.modChan n1 g).recoveries = s.recoveries := rfl
@[simp] theorem State.gviews_modChan (n1 : Nat) (g : Chan → Chan) : (s.modChan n1 g).gviews = s.gviews := rfl
@[simp] theorem State.reds_modChan (n1 : Nat) (g : Chan → Chan) : (s.modChan n1 g).reds = s.reds := rfl
@[simp] theorem State.redSeq_modChan (n1 : Nat) (g : Chan → Chan) : (s.modChan n1 g).redSeq = s.redSeq := rfl
@[simp] theorem State.redRings_modChan (n1 : Nat) (g : Chan → Chan) : (s.modChan n1 g).redRings = s.redRings := rfl
@[simp] theorem State.jobs_modChan (n1 : Nat) (g : Chan → Chan) : (s.modChan n1 g).jobs = s.jobs := rfl
@[simp] theorem State.traceBufs_modChan (n1 : Nat) (g : Chan → Chan) : (s.modChan n1 g).traceBufs = s.traceBufs := rfl
@[simp] theorem State.traceTurn_modChan (n1 : Nat) (g : Chan → Chan) : (s.modChan n1 g).traceTurn = s.traceTurn := rfl
@[simp] theorem State.dm_modChan (n1 : Nat) (g : Chan → Chan) : (s.modChan n1 g).dm = s.dm := rfl
@[simp] theorem State.posted_modChan (n1 : Nat) (g : Chan → Chan) : (s.modChan n1 g).posted = s.posted := rfl
@[simp] theorem State.referee_modChan (n1 : Nat) (g : Chan → Chan) : (s.modChan n1 g).referee = s.referee := rfl
@[simp] theorem State.power_modChan (n1 : Nat) (g : Chan → Chan) : (s.modChan n1 g).power = s.power := rfl
@[simp] theorem State.freeCount_modChan (n1 : Nat) (g : Chan → Chan) : (s.modChan n1 g).freeCount = s.freeCount := rfl
@[simp] theorem State.lines_modChan (n1 : Nat) (g : Chan → Chan) : (s.modChan n1 g).lines = s.lines := rfl
@[simp] theorem State.hartCsr_modChan (n1 : Nat) (g : Chan → Chan) : (s.modChan n1 g).hartCsr = s.hartCsr := rfl
@[simp] theorem State.msix_modChan (n1 : Nat) (g : Chan → Chan) : (s.modChan n1 g).msix = s.msix := rfl
@[simp] theorem State.msixCtl_modChan (n1 : Nat) (g : Chan → Chan) : (s.modChan n1 g).msixCtl = s.msixCtl := rfl
@[simp] theorem State.hartFull_modChan (n1 : Nat) (g : Chan → Chan) : (s.modChan n1 g).hartFull = s.hartFull := rfl
@[simp] theorem State.pending_modFeed (n1 : Nat) (g : Feed → Feed) : (s.modFeed n1 g).pending = s.pending := rfl
@[simp] theorem State.dtime_modFeed (n1 : Nat) (g : Feed → Feed) : (s.modFeed n1 g).dtime = s.dtime := rfl
@[simp] theorem State.regs_modFeed (n1 : Nat) (g : Feed → Feed) : (s.modFeed n1 g).regs = s.regs := rfl
@[simp] theorem State.mem_modFeed (n1 : Nat) (g : Feed → Feed) : (s.modFeed n1 g).mem = s.mem := rfl
@[simp] theorem State.hostMem_modFeed (n1 : Nat) (g : Feed → Feed) : (s.modFeed n1 g).hostMem = s.hostMem := rfl
@[simp] theorem State.book_modFeed (n1 : Nat) (g : Feed → Feed) : (s.modFeed n1 g).book = s.book := rfl
@[simp] theorem State.learned_modFeed (n1 : Nat) (g : Feed → Feed) : (s.modFeed n1 g).learned = s.learned := rfl
@[simp] theorem State.benched_modFeed (n1 : Nat) (g : Feed → Feed) : (s.modFeed n1 g).benched = s.benched := rfl
@[simp] theorem State.cores_modFeed (n1 : Nat) (g : Feed → Feed) : (s.modFeed n1 g).cores = s.cores := rfl
@[simp] theorem State.sync_modFeed (n1 : Nat) (g : Feed → Feed) : (s.modFeed n1 g).sync = s.sync := rfl
@[simp] theorem State.waitOrder_modFeed (n1 : Nat) (g : Feed → Feed) : (s.modFeed n1 g).waitOrder = s.waitOrder := rfl
@[simp] theorem State.signals_modFeed (n1 : Nat) (g : Feed → Feed) : (s.modFeed n1 g).signals = s.signals := rfl
@[simp] theorem State.dispatch_modFeed (n1 : Nat) (g : Feed → Feed) : (s.modFeed n1 g).dispatch = s.dispatch := rfl
@[simp] theorem State.segOrder_modFeed (n1 : Nat) (g : Feed → Feed) : (s.modFeed n1 g).segOrder = s.segOrder := rfl
@[simp] theorem State.streams_modFeed (n1 : Nat) (g : Feed → Feed) : (s.modFeed n1 g).streams = s.streams := rfl
@[simp] theorem State.rings_modFeed (n1 : Nat) (g : Feed → Feed) : (s.modFeed n1 g).rings = s.rings := rfl
@[simp] theorem State.heads_modFeed (n1 : Nat) (g : Feed → Feed) : (s.modFeed n1 g).heads = s.heads := rfl
@[simp] theorem State.haltAt_modFeed (n1 : Nat) (g : Feed → Feed) : (s.modFeed n1 g).haltAt = s.haltAt := rfl
@[simp] theorem State.heldHeads_modFeed (n1 : Nat) (g : Feed → Feed) : (s.modFeed n1 g).heldHeads = s.heldHeads := rfl
@[simp] theorem State.queues_modFeed (n1 : Nat) (g : Feed → Feed) : (s.modFeed n1 g).queues = s.queues := rfl
@[simp] theorem State.atsOn_modFeed (n1 : Nat) (g : Feed → Feed) : (s.modFeed n1 g).atsOn = s.atsOn := rfl
@[simp] theorem State.atc_modFeed (n1 : Nat) (g : Feed → Feed) : (s.modFeed n1 g).atc = s.atc := rfl
@[simp] theorem State.lowPower_modFeed (n1 : Nat) (g : Feed → Feed) : (s.modFeed n1 g).lowPower = s.lowPower := rfl
@[simp] theorem State.flags_modFeed (n1 : Nat) (g : Feed → Feed) : (s.modFeed n1 g).flags = s.flags := rfl
@[simp] theorem State.out_modFeed (n1 : Nat) (g : Feed → Feed) : (s.modFeed n1 g).out = s.out := rfl
@[simp] theorem State.events_modFeed (n1 : Nat) (g : Feed → Feed) : (s.modFeed n1 g).events = s.events := rfl
@[simp] theorem State.bad_modFeed (n1 : Nat) (g : Feed → Feed) : (s.modFeed n1 g).bad = s.bad := rfl
@[simp] theorem State.poison_modFeed (n1 : Nat) (g : Feed → Feed) : (s.modFeed n1 g).poison = s.poison := rfl
@[simp] theorem State.cache_modFeed (n1 : Nat) (g : Feed → Feed) : (s.modFeed n1 g).cache = s.cache := rfl
@[simp] theorem State.watch_modFeed (n1 : Nat) (g : Feed → Feed) : (s.modFeed n1 g).watch = s.watch := rfl
@[simp] theorem State.flash_modFeed (n1 : Nat) (g : Feed → Feed) : (s.modFeed n1 g).flash = s.flash := rfl
@[simp] theorem State.flashDown_modFeed (n1 : Nat) (g : Feed → Feed) : (s.modFeed n1 g).flashDown = s.flashDown := rfl
@[simp] theorem State.ports_modFeed (n1 : Nat) (g : Feed → Feed) : (s.modFeed n1 g).ports = s.ports := rfl
@[simp] theorem State.inbox_modFeed (n1 : Nat) (g : Feed → Feed) : (s.modFeed n1 g).inbox = s.inbox := rfl
@[simp] theorem State.fellows_modFeed (n1 : Nat) (g : Feed → Feed) : (s.modFeed n1 g).fellows = s.fellows := rfl
@[simp] theorem State.pfc_modFeed (n1 : Nat) (g : Feed → Feed) : (s.modFeed n1 g).pfc = s.pfc := rfl
@[simp] theorem State.reqs_modFeed (n1 : Nat) (g : Feed → Feed) : (s.modFeed n1 g).reqs = s.reqs := rfl
@[simp] theorem State.serial_modFeed (n1 : Nat) (g : Feed → Feed) : (s.modFeed n1 g).serial = s.serial := rfl
@[simp] theorem State.tag_modFeed (n1 : Nat) (g : Feed → Feed) : (s.modFeed n1 g).tag = s.tag := rfl
@[simp] theorem State.chans_modFeed (n1 : Nat) (g : Feed → Feed) : (s.modFeed n1 g).chans = s.chans := rfl
@[simp] theorem State.fences_modFeed (n1 : Nat) (g : Feed → Feed) : (s.modFeed n1 g).fences = s.fences := rfl
@[simp] theorem State.recoveries_modFeed (n1 : Nat) (g : Feed → Feed) : (s.modFeed n1 g).recoveries = s.recoveries := rfl
@[simp] theorem State.gviews_modFeed (n1 : Nat) (g : Feed → Feed) : (s.modFeed n1 g).gviews = s.gviews := rfl
@[simp] theorem State.reds_modFeed (n1 : Nat) (g : Feed → Feed) : (s.modFeed n1 g).reds = s.reds := rfl
@[simp] theorem State.redSeq_modFeed (n1 : Nat) (g : Feed → Feed) : (s.modFeed n1 g).redSeq = s.redSeq := rfl
@[simp] theorem State.redRings_modFeed (n1 : Nat) (g : Feed → Feed) : (s.modFeed n1 g).redRings = s.redRings := rfl
@[simp] theorem State.jobs_modFeed (n1 : Nat) (g : Feed → Feed) : (s.modFeed n1 g).jobs = s.jobs := rfl
@[simp] theorem State.traceBufs_modFeed (n1 : Nat) (g : Feed → Feed) : (s.modFeed n1 g).traceBufs = s.traceBufs := rfl
@[simp] theorem State.traceTurn_modFeed (n1 : Nat) (g : Feed → Feed) : (s.modFeed n1 g).traceTurn = s.traceTurn := rfl
@[simp] theorem State.dm_modFeed (n1 : Nat) (g : Feed → Feed) : (s.modFeed n1 g).dm = s.dm := rfl
@[simp] theorem State.posted_modFeed (n1 : Nat) (g : Feed → Feed) : (s.modFeed n1 g).posted = s.posted := rfl
@[simp] theorem State.referee_modFeed (n1 : Nat) (g : Feed → Feed) : (s.modFeed n1 g).referee = s.referee := rfl
@[simp] theorem State.power_modFeed (n1 : Nat) (g : Feed → Feed) : (s.modFeed n1 g).power = s.power := rfl
@[simp] theorem State.freeCount_modFeed (n1 : Nat) (g : Feed → Feed) : (s.modFeed n1 g).freeCount = s.freeCount := rfl
@[simp] theorem State.lines_modFeed (n1 : Nat) (g : Feed → Feed) : (s.modFeed n1 g).lines = s.lines := rfl
@[simp] theorem State.hartCsr_modFeed (n1 : Nat) (g : Feed → Feed) : (s.modFeed n1 g).hartCsr = s.hartCsr := rfl
@[simp] theorem State.msix_modFeed (n1 : Nat) (g : Feed → Feed) : (s.modFeed n1 g).msix = s.msix := rfl
@[simp] theorem State.msixCtl_modFeed (n1 : Nat) (g : Feed → Feed) : (s.modFeed n1 g).msixCtl = s.msixCtl := rfl
@[simp] theorem State.hartFull_modFeed (n1 : Nat) (g : Feed → Feed) : (s.modFeed n1 g).hartFull = s.hartFull := rfl
@[simp] theorem State.pending_modStream (n1 : Nat) (g : Stream → Stream) : (s.modStream n1 g).pending = s.pending := rfl
@[simp] theorem State.dtime_modStream (n1 : Nat) (g : Stream → Stream) : (s.modStream n1 g).dtime = s.dtime := rfl
@[simp] theorem State.regs_modStream (n1 : Nat) (g : Stream → Stream) : (s.modStream n1 g).regs = s.regs := rfl
@[simp] theorem State.mem_modStream (n1 : Nat) (g : Stream → Stream) : (s.modStream n1 g).mem = s.mem := rfl
@[simp] theorem State.hostMem_modStream (n1 : Nat) (g : Stream → Stream) : (s.modStream n1 g).hostMem = s.hostMem := rfl
@[simp] theorem State.book_modStream (n1 : Nat) (g : Stream → Stream) : (s.modStream n1 g).book = s.book := rfl
@[simp] theorem State.learned_modStream (n1 : Nat) (g : Stream → Stream) : (s.modStream n1 g).learned = s.learned := rfl
@[simp] theorem State.benched_modStream (n1 : Nat) (g : Stream → Stream) : (s.modStream n1 g).benched = s.benched := rfl
@[simp] theorem State.cores_modStream (n1 : Nat) (g : Stream → Stream) : (s.modStream n1 g).cores = s.cores := rfl
@[simp] theorem State.sync_modStream (n1 : Nat) (g : Stream → Stream) : (s.modStream n1 g).sync = s.sync := rfl
@[simp] theorem State.waitOrder_modStream (n1 : Nat) (g : Stream → Stream) : (s.modStream n1 g).waitOrder = s.waitOrder := rfl
@[simp] theorem State.signals_modStream (n1 : Nat) (g : Stream → Stream) : (s.modStream n1 g).signals = s.signals := rfl
@[simp] theorem State.dispatch_modStream (n1 : Nat) (g : Stream → Stream) : (s.modStream n1 g).dispatch = s.dispatch := rfl
@[simp] theorem State.segOrder_modStream (n1 : Nat) (g : Stream → Stream) : (s.modStream n1 g).segOrder = s.segOrder := rfl
@[simp] theorem State.rings_modStream (n1 : Nat) (g : Stream → Stream) : (s.modStream n1 g).rings = s.rings := rfl
@[simp] theorem State.heads_modStream (n1 : Nat) (g : Stream → Stream) : (s.modStream n1 g).heads = s.heads := rfl
@[simp] theorem State.haltAt_modStream (n1 : Nat) (g : Stream → Stream) : (s.modStream n1 g).haltAt = s.haltAt := rfl
@[simp] theorem State.heldHeads_modStream (n1 : Nat) (g : Stream → Stream) : (s.modStream n1 g).heldHeads = s.heldHeads := rfl
@[simp] theorem State.queues_modStream (n1 : Nat) (g : Stream → Stream) : (s.modStream n1 g).queues = s.queues := rfl
@[simp] theorem State.atsOn_modStream (n1 : Nat) (g : Stream → Stream) : (s.modStream n1 g).atsOn = s.atsOn := rfl
@[simp] theorem State.atc_modStream (n1 : Nat) (g : Stream → Stream) : (s.modStream n1 g).atc = s.atc := rfl
@[simp] theorem State.lowPower_modStream (n1 : Nat) (g : Stream → Stream) : (s.modStream n1 g).lowPower = s.lowPower := rfl
@[simp] theorem State.flags_modStream (n1 : Nat) (g : Stream → Stream) : (s.modStream n1 g).flags = s.flags := rfl
@[simp] theorem State.out_modStream (n1 : Nat) (g : Stream → Stream) : (s.modStream n1 g).out = s.out := rfl
@[simp] theorem State.events_modStream (n1 : Nat) (g : Stream → Stream) : (s.modStream n1 g).events = s.events := rfl
@[simp] theorem State.bad_modStream (n1 : Nat) (g : Stream → Stream) : (s.modStream n1 g).bad = s.bad := rfl
@[simp] theorem State.poison_modStream (n1 : Nat) (g : Stream → Stream) : (s.modStream n1 g).poison = s.poison := rfl
@[simp] theorem State.cache_modStream (n1 : Nat) (g : Stream → Stream) : (s.modStream n1 g).cache = s.cache := rfl
@[simp] theorem State.watch_modStream (n1 : Nat) (g : Stream → Stream) : (s.modStream n1 g).watch = s.watch := rfl
@[simp] theorem State.flash_modStream (n1 : Nat) (g : Stream → Stream) : (s.modStream n1 g).flash = s.flash := rfl
@[simp] theorem State.flashDown_modStream (n1 : Nat) (g : Stream → Stream) : (s.modStream n1 g).flashDown = s.flashDown := rfl
@[simp] theorem State.ports_modStream (n1 : Nat) (g : Stream → Stream) : (s.modStream n1 g).ports = s.ports := rfl
@[simp] theorem State.inbox_modStream (n1 : Nat) (g : Stream → Stream) : (s.modStream n1 g).inbox = s.inbox := rfl
@[simp] theorem State.fellows_modStream (n1 : Nat) (g : Stream → Stream) : (s.modStream n1 g).fellows = s.fellows := rfl
@[simp] theorem State.pfc_modStream (n1 : Nat) (g : Stream → Stream) : (s.modStream n1 g).pfc = s.pfc := rfl
@[simp] theorem State.reqs_modStream (n1 : Nat) (g : Stream → Stream) : (s.modStream n1 g).reqs = s.reqs := rfl
@[simp] theorem State.serial_modStream (n1 : Nat) (g : Stream → Stream) : (s.modStream n1 g).serial = s.serial := rfl
@[simp] theorem State.tag_modStream (n1 : Nat) (g : Stream → Stream) : (s.modStream n1 g).tag = s.tag := rfl
@[simp] theorem State.chans_modStream (n1 : Nat) (g : Stream → Stream) : (s.modStream n1 g).chans = s.chans := rfl
@[simp] theorem State.feeds_modStream (n1 : Nat) (g : Stream → Stream) : (s.modStream n1 g).feeds = s.feeds := rfl
@[simp] theorem State.fences_modStream (n1 : Nat) (g : Stream → Stream) : (s.modStream n1 g).fences = s.fences := rfl
@[simp] theorem State.recoveries_modStream (n1 : Nat) (g : Stream → Stream) : (s.modStream n1 g).recoveries = s.recoveries := rfl
@[simp] theorem State.gviews_modStream (n1 : Nat) (g : Stream → Stream) : (s.modStream n1 g).gviews = s.gviews := rfl
@[simp] theorem State.reds_modStream (n1 : Nat) (g : Stream → Stream) : (s.modStream n1 g).reds = s.reds := rfl
@[simp] theorem State.redSeq_modStream (n1 : Nat) (g : Stream → Stream) : (s.modStream n1 g).redSeq = s.redSeq := rfl
@[simp] theorem State.redRings_modStream (n1 : Nat) (g : Stream → Stream) : (s.modStream n1 g).redRings = s.redRings := rfl
@[simp] theorem State.jobs_modStream (n1 : Nat) (g : Stream → Stream) : (s.modStream n1 g).jobs = s.jobs := rfl
@[simp] theorem State.traceBufs_modStream (n1 : Nat) (g : Stream → Stream) : (s.modStream n1 g).traceBufs = s.traceBufs := rfl
@[simp] theorem State.traceTurn_modStream (n1 : Nat) (g : Stream → Stream) : (s.modStream n1 g).traceTurn = s.traceTurn := rfl
@[simp] theorem State.dm_modStream (n1 : Nat) (g : Stream → Stream) : (s.modStream n1 g).dm = s.dm := rfl
@[simp] theorem State.posted_modStream (n1 : Nat) (g : Stream → Stream) : (s.modStream n1 g).posted = s.posted := rfl
@[simp] theorem State.referee_modStream (n1 : Nat) (g : Stream → Stream) : (s.modStream n1 g).referee = s.referee := rfl
@[simp] theorem State.power_modStream (n1 : Nat) (g : Stream → Stream) : (s.modStream n1 g).power = s.power := rfl
@[simp] theorem State.freeCount_modStream (n1 : Nat) (g : Stream → Stream) : (s.modStream n1 g).freeCount = s.freeCount := rfl
@[simp] theorem State.lines_modStream (n1 : Nat) (g : Stream → Stream) : (s.modStream n1 g).lines = s.lines := rfl
@[simp] theorem State.hartCsr_modStream (n1 : Nat) (g : Stream → Stream) : (s.modStream n1 g).hartCsr = s.hartCsr := rfl
@[simp] theorem State.msix_modStream (n1 : Nat) (g : Stream → Stream) : (s.modStream n1 g).msix = s.msix := rfl
@[simp] theorem State.msixCtl_modStream (n1 : Nat) (g : Stream → Stream) : (s.modStream n1 g).msixCtl = s.msixCtl := rfl
@[simp] theorem State.hartFull_modStream (n1 : Nat) (g : Stream → Stream) : (s.modStream n1 g).hartFull = s.hartFull := rfl
@[simp] theorem State.pending_modRing (n1 : Nat) (g : EventRing → EventRing) : (s.modRing n1 g).pending = s.pending := rfl
@[simp] theorem State.dtime_modRing (n1 : Nat) (g : EventRing → EventRing) : (s.modRing n1 g).dtime = s.dtime := rfl
@[simp] theorem State.regs_modRing (n1 : Nat) (g : EventRing → EventRing) : (s.modRing n1 g).regs = s.regs := rfl
@[simp] theorem State.mem_modRing (n1 : Nat) (g : EventRing → EventRing) : (s.modRing n1 g).mem = s.mem := rfl
@[simp] theorem State.hostMem_modRing (n1 : Nat) (g : EventRing → EventRing) : (s.modRing n1 g).hostMem = s.hostMem := rfl
@[simp] theorem State.book_modRing (n1 : Nat) (g : EventRing → EventRing) : (s.modRing n1 g).book = s.book := rfl
@[simp] theorem State.learned_modRing (n1 : Nat) (g : EventRing → EventRing) : (s.modRing n1 g).learned = s.learned := rfl
@[simp] theorem State.benched_modRing (n1 : Nat) (g : EventRing → EventRing) : (s.modRing n1 g).benched = s.benched := rfl
@[simp] theorem State.cores_modRing (n1 : Nat) (g : EventRing → EventRing) : (s.modRing n1 g).cores = s.cores := rfl
@[simp] theorem State.sync_modRing (n1 : Nat) (g : EventRing → EventRing) : (s.modRing n1 g).sync = s.sync := rfl
@[simp] theorem State.waitOrder_modRing (n1 : Nat) (g : EventRing → EventRing) : (s.modRing n1 g).waitOrder = s.waitOrder := rfl
@[simp] theorem State.signals_modRing (n1 : Nat) (g : EventRing → EventRing) : (s.modRing n1 g).signals = s.signals := rfl
@[simp] theorem State.dispatch_modRing (n1 : Nat) (g : EventRing → EventRing) : (s.modRing n1 g).dispatch = s.dispatch := rfl
@[simp] theorem State.segOrder_modRing (n1 : Nat) (g : EventRing → EventRing) : (s.modRing n1 g).segOrder = s.segOrder := rfl
@[simp] theorem State.streams_modRing (n1 : Nat) (g : EventRing → EventRing) : (s.modRing n1 g).streams = s.streams := rfl
@[simp] theorem State.heads_modRing (n1 : Nat) (g : EventRing → EventRing) : (s.modRing n1 g).heads = s.heads := rfl
@[simp] theorem State.haltAt_modRing (n1 : Nat) (g : EventRing → EventRing) : (s.modRing n1 g).haltAt = s.haltAt := rfl
@[simp] theorem State.heldHeads_modRing (n1 : Nat) (g : EventRing → EventRing) : (s.modRing n1 g).heldHeads = s.heldHeads := rfl
@[simp] theorem State.queues_modRing (n1 : Nat) (g : EventRing → EventRing) : (s.modRing n1 g).queues = s.queues := rfl
@[simp] theorem State.atsOn_modRing (n1 : Nat) (g : EventRing → EventRing) : (s.modRing n1 g).atsOn = s.atsOn := rfl
@[simp] theorem State.atc_modRing (n1 : Nat) (g : EventRing → EventRing) : (s.modRing n1 g).atc = s.atc := rfl
@[simp] theorem State.lowPower_modRing (n1 : Nat) (g : EventRing → EventRing) : (s.modRing n1 g).lowPower = s.lowPower := rfl
@[simp] theorem State.flags_modRing (n1 : Nat) (g : EventRing → EventRing) : (s.modRing n1 g).flags = s.flags := rfl
@[simp] theorem State.out_modRing (n1 : Nat) (g : EventRing → EventRing) : (s.modRing n1 g).out = s.out := rfl
@[simp] theorem State.events_modRing (n1 : Nat) (g : EventRing → EventRing) : (s.modRing n1 g).events = s.events := rfl
@[simp] theorem State.bad_modRing (n1 : Nat) (g : EventRing → EventRing) : (s.modRing n1 g).bad = s.bad := rfl
@[simp] theorem State.poison_modRing (n1 : Nat) (g : EventRing → EventRing) : (s.modRing n1 g).poison = s.poison := rfl
@[simp] theorem State.cache_modRing (n1 : Nat) (g : EventRing → EventRing) : (s.modRing n1 g).cache = s.cache := rfl
@[simp] theorem State.watch_modRing (n1 : Nat) (g : EventRing → EventRing) : (s.modRing n1 g).watch = s.watch := rfl
@[simp] theorem State.flash_modRing (n1 : Nat) (g : EventRing → EventRing) : (s.modRing n1 g).flash = s.flash := rfl
@[simp] theorem State.flashDown_modRing (n1 : Nat) (g : EventRing → EventRing) : (s.modRing n1 g).flashDown = s.flashDown := rfl
@[simp] theorem State.ports_modRing (n1 : Nat) (g : EventRing → EventRing) : (s.modRing n1 g).ports = s.ports := rfl
@[simp] theorem State.inbox_modRing (n1 : Nat) (g : EventRing → EventRing) : (s.modRing n1 g).inbox = s.inbox := rfl
@[simp] theorem State.fellows_modRing (n1 : Nat) (g : EventRing → EventRing) : (s.modRing n1 g).fellows = s.fellows := rfl
@[simp] theorem State.pfc_modRing (n1 : Nat) (g : EventRing → EventRing) : (s.modRing n1 g).pfc = s.pfc := rfl
@[simp] theorem State.reqs_modRing (n1 : Nat) (g : EventRing → EventRing) : (s.modRing n1 g).reqs = s.reqs := rfl
@[simp] theorem State.serial_modRing (n1 : Nat) (g : EventRing → EventRing) : (s.modRing n1 g).serial = s.serial := rfl
@[simp] theorem State.tag_modRing (n1 : Nat) (g : EventRing → EventRing) : (s.modRing n1 g).tag = s.tag := rfl
@[simp] theorem State.chans_modRing (n1 : Nat) (g : EventRing → EventRing) : (s.modRing n1 g).chans = s.chans := rfl
@[simp] theorem State.feeds_modRing (n1 : Nat) (g : EventRing → EventRing) : (s.modRing n1 g).feeds = s.feeds := rfl
@[simp] theorem State.fences_modRing (n1 : Nat) (g : EventRing → EventRing) : (s.modRing n1 g).fences = s.fences := rfl
@[simp] theorem State.recoveries_modRing (n1 : Nat) (g : EventRing → EventRing) : (s.modRing n1 g).recoveries = s.recoveries := rfl
@[simp] theorem State.gviews_modRing (n1 : Nat) (g : EventRing → EventRing) : (s.modRing n1 g).gviews = s.gviews := rfl
@[simp] theorem State.reds_modRing (n1 : Nat) (g : EventRing → EventRing) : (s.modRing n1 g).reds = s.reds := rfl
@[simp] theorem State.redSeq_modRing (n1 : Nat) (g : EventRing → EventRing) : (s.modRing n1 g).redSeq = s.redSeq := rfl
@[simp] theorem State.redRings_modRing (n1 : Nat) (g : EventRing → EventRing) : (s.modRing n1 g).redRings = s.redRings := rfl
@[simp] theorem State.jobs_modRing (n1 : Nat) (g : EventRing → EventRing) : (s.modRing n1 g).jobs = s.jobs := rfl
@[simp] theorem State.traceBufs_modRing (n1 : Nat) (g : EventRing → EventRing) : (s.modRing n1 g).traceBufs = s.traceBufs := rfl
@[simp] theorem State.traceTurn_modRing (n1 : Nat) (g : EventRing → EventRing) : (s.modRing n1 g).traceTurn = s.traceTurn := rfl
@[simp] theorem State.dm_modRing (n1 : Nat) (g : EventRing → EventRing) : (s.modRing n1 g).dm = s.dm := rfl
@[simp] theorem State.posted_modRing (n1 : Nat) (g : EventRing → EventRing) : (s.modRing n1 g).posted = s.posted := rfl
@[simp] theorem State.referee_modRing (n1 : Nat) (g : EventRing → EventRing) : (s.modRing n1 g).referee = s.referee := rfl
@[simp] theorem State.power_modRing (n1 : Nat) (g : EventRing → EventRing) : (s.modRing n1 g).power = s.power := rfl
@[simp] theorem State.freeCount_modRing (n1 : Nat) (g : EventRing → EventRing) : (s.modRing n1 g).freeCount = s.freeCount := rfl
@[simp] theorem State.lines_modRing (n1 : Nat) (g : EventRing → EventRing) : (s.modRing n1 g).lines = s.lines := rfl
@[simp] theorem State.hartCsr_modRing (n1 : Nat) (g : EventRing → EventRing) : (s.modRing n1 g).hartCsr = s.hartCsr := rfl
@[simp] theorem State.msix_modRing (n1 : Nat) (g : EventRing → EventRing) : (s.modRing n1 g).msix = s.msix := rfl
@[simp] theorem State.msixCtl_modRing (n1 : Nat) (g : EventRing → EventRing) : (s.modRing n1 g).msixCtl = s.msixCtl := rfl
@[simp] theorem State.hartFull_modRing (n1 : Nat) (g : EventRing → EventRing) : (s.modRing n1 g).hartFull = s.hartFull := rfl
@[simp] theorem State.pending_modJob (n1 : Nat) (g : Job → Job) : (s.modJob n1 g).pending = s.pending := rfl
@[simp] theorem State.dtime_modJob (n1 : Nat) (g : Job → Job) : (s.modJob n1 g).dtime = s.dtime := rfl
@[simp] theorem State.regs_modJob (n1 : Nat) (g : Job → Job) : (s.modJob n1 g).regs = s.regs := rfl
@[simp] theorem State.mem_modJob (n1 : Nat) (g : Job → Job) : (s.modJob n1 g).mem = s.mem := rfl
@[simp] theorem State.hostMem_modJob (n1 : Nat) (g : Job → Job) : (s.modJob n1 g).hostMem = s.hostMem := rfl
@[simp] theorem State.book_modJob (n1 : Nat) (g : Job → Job) : (s.modJob n1 g).book = s.book := rfl
@[simp] theorem State.learned_modJob (n1 : Nat) (g : Job → Job) : (s.modJob n1 g).learned = s.learned := rfl
@[simp] theorem State.benched_modJob (n1 : Nat) (g : Job → Job) : (s.modJob n1 g).benched = s.benched := rfl
@[simp] theorem State.cores_modJob (n1 : Nat) (g : Job → Job) : (s.modJob n1 g).cores = s.cores := rfl
@[simp] theorem State.sync_modJob (n1 : Nat) (g : Job → Job) : (s.modJob n1 g).sync = s.sync := rfl
@[simp] theorem State.waitOrder_modJob (n1 : Nat) (g : Job → Job) : (s.modJob n1 g).waitOrder = s.waitOrder := rfl
@[simp] theorem State.signals_modJob (n1 : Nat) (g : Job → Job) : (s.modJob n1 g).signals = s.signals := rfl
@[simp] theorem State.dispatch_modJob (n1 : Nat) (g : Job → Job) : (s.modJob n1 g).dispatch = s.dispatch := rfl
@[simp] theorem State.segOrder_modJob (n1 : Nat) (g : Job → Job) : (s.modJob n1 g).segOrder = s.segOrder := rfl
@[simp] theorem State.streams_modJob (n1 : Nat) (g : Job → Job) : (s.modJob n1 g).streams = s.streams := rfl
@[simp] theorem State.rings_modJob (n1 : Nat) (g : Job → Job) : (s.modJob n1 g).rings = s.rings := rfl
@[simp] theorem State.heads_modJob (n1 : Nat) (g : Job → Job) : (s.modJob n1 g).heads = s.heads := rfl
@[simp] theorem State.haltAt_modJob (n1 : Nat) (g : Job → Job) : (s.modJob n1 g).haltAt = s.haltAt := rfl
@[simp] theorem State.heldHeads_modJob (n1 : Nat) (g : Job → Job) : (s.modJob n1 g).heldHeads = s.heldHeads := rfl
@[simp] theorem State.queues_modJob (n1 : Nat) (g : Job → Job) : (s.modJob n1 g).queues = s.queues := rfl
@[simp] theorem State.atsOn_modJob (n1 : Nat) (g : Job → Job) : (s.modJob n1 g).atsOn = s.atsOn := rfl
@[simp] theorem State.atc_modJob (n1 : Nat) (g : Job → Job) : (s.modJob n1 g).atc = s.atc := rfl
@[simp] theorem State.lowPower_modJob (n1 : Nat) (g : Job → Job) : (s.modJob n1 g).lowPower = s.lowPower := rfl
@[simp] theorem State.flags_modJob (n1 : Nat) (g : Job → Job) : (s.modJob n1 g).flags = s.flags := rfl
@[simp] theorem State.out_modJob (n1 : Nat) (g : Job → Job) : (s.modJob n1 g).out = s.out := rfl
@[simp] theorem State.events_modJob (n1 : Nat) (g : Job → Job) : (s.modJob n1 g).events = s.events := rfl
@[simp] theorem State.bad_modJob (n1 : Nat) (g : Job → Job) : (s.modJob n1 g).bad = s.bad := rfl
@[simp] theorem State.poison_modJob (n1 : Nat) (g : Job → Job) : (s.modJob n1 g).poison = s.poison := rfl
@[simp] theorem State.cache_modJob (n1 : Nat) (g : Job → Job) : (s.modJob n1 g).cache = s.cache := rfl
@[simp] theorem State.watch_modJob (n1 : Nat) (g : Job → Job) : (s.modJob n1 g).watch = s.watch := rfl
@[simp] theorem State.flash_modJob (n1 : Nat) (g : Job → Job) : (s.modJob n1 g).flash = s.flash := rfl
@[simp] theorem State.flashDown_modJob (n1 : Nat) (g : Job → Job) : (s.modJob n1 g).flashDown = s.flashDown := rfl
@[simp] theorem State.ports_modJob (n1 : Nat) (g : Job → Job) : (s.modJob n1 g).ports = s.ports := rfl
@[simp] theorem State.inbox_modJob (n1 : Nat) (g : Job → Job) : (s.modJob n1 g).inbox = s.inbox := rfl
@[simp] theorem State.fellows_modJob (n1 : Nat) (g : Job → Job) : (s.modJob n1 g).fellows = s.fellows := rfl
@[simp] theorem State.pfc_modJob (n1 : Nat) (g : Job → Job) : (s.modJob n1 g).pfc = s.pfc := rfl
@[simp] theorem State.reqs_modJob (n1 : Nat) (g : Job → Job) : (s.modJob n1 g).reqs = s.reqs := rfl
@[simp] theorem State.serial_modJob (n1 : Nat) (g : Job → Job) : (s.modJob n1 g).serial = s.serial := rfl
@[simp] theorem State.tag_modJob (n1 : Nat) (g : Job → Job) : (s.modJob n1 g).tag = s.tag := rfl
@[simp] theorem State.chans_modJob (n1 : Nat) (g : Job → Job) : (s.modJob n1 g).chans = s.chans := rfl
@[simp] theorem State.feeds_modJob (n1 : Nat) (g : Job → Job) : (s.modJob n1 g).feeds = s.feeds := rfl
@[simp] theorem State.fences_modJob (n1 : Nat) (g : Job → Job) : (s.modJob n1 g).fences = s.fences := rfl
@[simp] theorem State.recoveries_modJob (n1 : Nat) (g : Job → Job) : (s.modJob n1 g).recoveries = s.recoveries := rfl
@[simp] theorem State.gviews_modJob (n1 : Nat) (g : Job → Job) : (s.modJob n1 g).gviews = s.gviews := rfl
@[simp] theorem State.reds_modJob (n1 : Nat) (g : Job → Job) : (s.modJob n1 g).reds = s.reds := rfl
@[simp] theorem State.redSeq_modJob (n1 : Nat) (g : Job → Job) : (s.modJob n1 g).redSeq = s.redSeq := rfl
@[simp] theorem State.redRings_modJob (n1 : Nat) (g : Job → Job) : (s.modJob n1 g).redRings = s.redRings := rfl
@[simp] theorem State.traceBufs_modJob (n1 : Nat) (g : Job → Job) : (s.modJob n1 g).traceBufs = s.traceBufs := rfl
@[simp] theorem State.traceTurn_modJob (n1 : Nat) (g : Job → Job) : (s.modJob n1 g).traceTurn = s.traceTurn := rfl
@[simp] theorem State.dm_modJob (n1 : Nat) (g : Job → Job) : (s.modJob n1 g).dm = s.dm := rfl
@[simp] theorem State.posted_modJob (n1 : Nat) (g : Job → Job) : (s.modJob n1 g).posted = s.posted := rfl
@[simp] theorem State.referee_modJob (n1 : Nat) (g : Job → Job) : (s.modJob n1 g).referee = s.referee := rfl
@[simp] theorem State.power_modJob (n1 : Nat) (g : Job → Job) : (s.modJob n1 g).power = s.power := rfl
@[simp] theorem State.freeCount_modJob (n1 : Nat) (g : Job → Job) : (s.modJob n1 g).freeCount = s.freeCount := rfl
@[simp] theorem State.lines_modJob (n1 : Nat) (g : Job → Job) : (s.modJob n1 g).lines = s.lines := rfl
@[simp] theorem State.hartCsr_modJob (n1 : Nat) (g : Job → Job) : (s.modJob n1 g).hartCsr = s.hartCsr := rfl
@[simp] theorem State.msix_modJob (n1 : Nat) (g : Job → Job) : (s.modJob n1 g).msix = s.msix := rfl
@[simp] theorem State.msixCtl_modJob (n1 : Nat) (g : Job → Job) : (s.modJob n1 g).msixCtl = s.msixCtl := rfl
@[simp] theorem State.hartFull_modJob (n1 : Nat) (g : Job → Job) : (s.modJob n1 g).hartFull = s.hartFull := rfl
@[simp] theorem State.pending_setFlag (n1 v1 : Nat) : (s.setFlag n1 v1).pending = s.pending := rfl
@[simp] theorem State.dtime_setFlag (n1 v1 : Nat) : (s.setFlag n1 v1).dtime = s.dtime := rfl
@[simp] theorem State.regs_setFlag (n1 v1 : Nat) : (s.setFlag n1 v1).regs = s.regs := rfl
@[simp] theorem State.mem_setFlag (n1 v1 : Nat) : (s.setFlag n1 v1).mem = s.mem := rfl
@[simp] theorem State.hostMem_setFlag (n1 v1 : Nat) : (s.setFlag n1 v1).hostMem = s.hostMem := rfl
@[simp] theorem State.book_setFlag (n1 v1 : Nat) : (s.setFlag n1 v1).book = s.book := rfl
@[simp] theorem State.learned_setFlag (n1 v1 : Nat) : (s.setFlag n1 v1).learned = s.learned := rfl
@[simp] theorem State.benched_setFlag (n1 v1 : Nat) : (s.setFlag n1 v1).benched = s.benched := rfl
@[simp] theorem State.cores_setFlag (n1 v1 : Nat) : (s.setFlag n1 v1).cores = s.cores := rfl
@[simp] theorem State.sync_setFlag (n1 v1 : Nat) : (s.setFlag n1 v1).sync = s.sync := rfl
@[simp] theorem State.waitOrder_setFlag (n1 v1 : Nat) : (s.setFlag n1 v1).waitOrder = s.waitOrder := rfl
@[simp] theorem State.signals_setFlag (n1 v1 : Nat) : (s.setFlag n1 v1).signals = s.signals := rfl
@[simp] theorem State.dispatch_setFlag (n1 v1 : Nat) : (s.setFlag n1 v1).dispatch = s.dispatch := rfl
@[simp] theorem State.segOrder_setFlag (n1 v1 : Nat) : (s.setFlag n1 v1).segOrder = s.segOrder := rfl
@[simp] theorem State.streams_setFlag (n1 v1 : Nat) : (s.setFlag n1 v1).streams = s.streams := rfl
@[simp] theorem State.rings_setFlag (n1 v1 : Nat) : (s.setFlag n1 v1).rings = s.rings := rfl
@[simp] theorem State.heads_setFlag (n1 v1 : Nat) : (s.setFlag n1 v1).heads = s.heads := rfl
@[simp] theorem State.haltAt_setFlag (n1 v1 : Nat) : (s.setFlag n1 v1).haltAt = s.haltAt := rfl
@[simp] theorem State.heldHeads_setFlag (n1 v1 : Nat) : (s.setFlag n1 v1).heldHeads = s.heldHeads := rfl
@[simp] theorem State.queues_setFlag (n1 v1 : Nat) : (s.setFlag n1 v1).queues = s.queues := rfl
@[simp] theorem State.atsOn_setFlag (n1 v1 : Nat) : (s.setFlag n1 v1).atsOn = s.atsOn := rfl
@[simp] theorem State.atc_setFlag (n1 v1 : Nat) : (s.setFlag n1 v1).atc = s.atc := rfl
@[simp] theorem State.lowPower_setFlag (n1 v1 : Nat) : (s.setFlag n1 v1).lowPower = s.lowPower := rfl
@[simp] theorem State.out_setFlag (n1 v1 : Nat) : (s.setFlag n1 v1).out = s.out := rfl
@[simp] theorem State.events_setFlag (n1 v1 : Nat) : (s.setFlag n1 v1).events = s.events := rfl
@[simp] theorem State.bad_setFlag (n1 v1 : Nat) : (s.setFlag n1 v1).bad = s.bad := rfl
@[simp] theorem State.poison_setFlag (n1 v1 : Nat) : (s.setFlag n1 v1).poison = s.poison := rfl
@[simp] theorem State.cache_setFlag (n1 v1 : Nat) : (s.setFlag n1 v1).cache = s.cache := rfl
@[simp] theorem State.watch_setFlag (n1 v1 : Nat) : (s.setFlag n1 v1).watch = s.watch := rfl
@[simp] theorem State.flash_setFlag (n1 v1 : Nat) : (s.setFlag n1 v1).flash = s.flash := rfl
@[simp] theorem State.flashDown_setFlag (n1 v1 : Nat) : (s.setFlag n1 v1).flashDown = s.flashDown := rfl
@[simp] theorem State.ports_setFlag (n1 v1 : Nat) : (s.setFlag n1 v1).ports = s.ports := rfl
@[simp] theorem State.inbox_setFlag (n1 v1 : Nat) : (s.setFlag n1 v1).inbox = s.inbox := rfl
@[simp] theorem State.fellows_setFlag (n1 v1 : Nat) : (s.setFlag n1 v1).fellows = s.fellows := rfl
@[simp] theorem State.pfc_setFlag (n1 v1 : Nat) : (s.setFlag n1 v1).pfc = s.pfc := rfl
@[simp] theorem State.reqs_setFlag (n1 v1 : Nat) : (s.setFlag n1 v1).reqs = s.reqs := rfl
@[simp] theorem State.serial_setFlag (n1 v1 : Nat) : (s.setFlag n1 v1).serial = s.serial := rfl
@[simp] theorem State.tag_setFlag (n1 v1 : Nat) : (s.setFlag n1 v1).tag = s.tag := rfl
@[simp] theorem State.chans_setFlag (n1 v1 : Nat) : (s.setFlag n1 v1).chans = s.chans := rfl
@[simp] theorem State.feeds_setFlag (n1 v1 : Nat) : (s.setFlag n1 v1).feeds = s.feeds := rfl
@[simp] theorem State.fences_setFlag (n1 v1 : Nat) : (s.setFlag n1 v1).fences = s.fences := rfl
@[simp] theorem State.recoveries_setFlag (n1 v1 : Nat) : (s.setFlag n1 v1).recoveries = s.recoveries := rfl
@[simp] theorem State.gviews_setFlag (n1 v1 : Nat) : (s.setFlag n1 v1).gviews = s.gviews := rfl
@[simp] theorem State.reds_setFlag (n1 v1 : Nat) : (s.setFlag n1 v1).reds = s.reds := rfl
@[simp] theorem State.redSeq_setFlag (n1 v1 : Nat) : (s.setFlag n1 v1).redSeq = s.redSeq := rfl
@[simp] theorem State.redRings_setFlag (n1 v1 : Nat) : (s.setFlag n1 v1).redRings = s.redRings := rfl
@[simp] theorem State.jobs_setFlag (n1 v1 : Nat) : (s.setFlag n1 v1).jobs = s.jobs := rfl
@[simp] theorem State.traceBufs_setFlag (n1 v1 : Nat) : (s.setFlag n1 v1).traceBufs = s.traceBufs := rfl
@[simp] theorem State.traceTurn_setFlag (n1 v1 : Nat) : (s.setFlag n1 v1).traceTurn = s.traceTurn := rfl
@[simp] theorem State.dm_setFlag (n1 v1 : Nat) : (s.setFlag n1 v1).dm = s.dm := rfl
@[simp] theorem State.posted_setFlag (n1 v1 : Nat) : (s.setFlag n1 v1).posted = s.posted := rfl
@[simp] theorem State.referee_setFlag (n1 v1 : Nat) : (s.setFlag n1 v1).referee = s.referee := rfl
@[simp] theorem State.power_setFlag (n1 v1 : Nat) : (s.setFlag n1 v1).power = s.power := rfl
@[simp] theorem State.freeCount_setFlag (n1 v1 : Nat) : (s.setFlag n1 v1).freeCount = s.freeCount := rfl
@[simp] theorem State.lines_setFlag (n1 v1 : Nat) : (s.setFlag n1 v1).lines = s.lines := rfl
@[simp] theorem State.hartCsr_setFlag (n1 v1 : Nat) : (s.setFlag n1 v1).hartCsr = s.hartCsr := rfl
@[simp] theorem State.msix_setFlag (n1 v1 : Nat) : (s.setFlag n1 v1).msix = s.msix := rfl
@[simp] theorem State.msixCtl_setFlag (n1 v1 : Nat) : (s.setFlag n1 v1).msixCtl = s.msixCtl := rfl
@[simp] theorem State.hartFull_setFlag (n1 v1 : Nat) : (s.setFlag n1 v1).hartFull = s.hartFull := rfl
@[simp] theorem State.pending_setHeadWait (n1 : Nat) (w1 : HeadWait) : (s.setHeadWait n1 w1).pending = s.pending := rfl
@[simp] theorem State.dtime_setHeadWait (n1 : Nat) (w1 : HeadWait) : (s.setHeadWait n1 w1).dtime = s.dtime := rfl
@[simp] theorem State.regs_setHeadWait (n1 : Nat) (w1 : HeadWait) : (s.setHeadWait n1 w1).regs = s.regs := rfl
@[simp] theorem State.mem_setHeadWait (n1 : Nat) (w1 : HeadWait) : (s.setHeadWait n1 w1).mem = s.mem := rfl
@[simp] theorem State.hostMem_setHeadWait (n1 : Nat) (w1 : HeadWait) : (s.setHeadWait n1 w1).hostMem = s.hostMem := rfl
@[simp] theorem State.book_setHeadWait (n1 : Nat) (w1 : HeadWait) : (s.setHeadWait n1 w1).book = s.book := rfl
@[simp] theorem State.learned_setHeadWait (n1 : Nat) (w1 : HeadWait) : (s.setHeadWait n1 w1).learned = s.learned := rfl
@[simp] theorem State.benched_setHeadWait (n1 : Nat) (w1 : HeadWait) : (s.setHeadWait n1 w1).benched = s.benched := rfl
@[simp] theorem State.cores_setHeadWait (n1 : Nat) (w1 : HeadWait) : (s.setHeadWait n1 w1).cores = s.cores := rfl
@[simp] theorem State.sync_setHeadWait (n1 : Nat) (w1 : HeadWait) : (s.setHeadWait n1 w1).sync = s.sync := rfl
@[simp] theorem State.waitOrder_setHeadWait (n1 : Nat) (w1 : HeadWait) : (s.setHeadWait n1 w1).waitOrder = s.waitOrder := rfl
@[simp] theorem State.signals_setHeadWait (n1 : Nat) (w1 : HeadWait) : (s.setHeadWait n1 w1).signals = s.signals := rfl
@[simp] theorem State.dispatch_setHeadWait (n1 : Nat) (w1 : HeadWait) : (s.setHeadWait n1 w1).dispatch = s.dispatch := rfl
@[simp] theorem State.segOrder_setHeadWait (n1 : Nat) (w1 : HeadWait) : (s.setHeadWait n1 w1).segOrder = s.segOrder := rfl
@[simp] theorem State.streams_setHeadWait (n1 : Nat) (w1 : HeadWait) : (s.setHeadWait n1 w1).streams = s.streams := rfl
@[simp] theorem State.rings_setHeadWait (n1 : Nat) (w1 : HeadWait) : (s.setHeadWait n1 w1).rings = s.rings := rfl
@[simp] theorem State.haltAt_setHeadWait (n1 : Nat) (w1 : HeadWait) : (s.setHeadWait n1 w1).haltAt = s.haltAt := rfl
@[simp] theorem State.heldHeads_setHeadWait (n1 : Nat) (w1 : HeadWait) : (s.setHeadWait n1 w1).heldHeads = s.heldHeads := rfl
@[simp] theorem State.queues_setHeadWait (n1 : Nat) (w1 : HeadWait) : (s.setHeadWait n1 w1).queues = s.queues := rfl
@[simp] theorem State.atsOn_setHeadWait (n1 : Nat) (w1 : HeadWait) : (s.setHeadWait n1 w1).atsOn = s.atsOn := rfl
@[simp] theorem State.atc_setHeadWait (n1 : Nat) (w1 : HeadWait) : (s.setHeadWait n1 w1).atc = s.atc := rfl
@[simp] theorem State.lowPower_setHeadWait (n1 : Nat) (w1 : HeadWait) : (s.setHeadWait n1 w1).lowPower = s.lowPower := rfl
@[simp] theorem State.flags_setHeadWait (n1 : Nat) (w1 : HeadWait) : (s.setHeadWait n1 w1).flags = s.flags := rfl
@[simp] theorem State.out_setHeadWait (n1 : Nat) (w1 : HeadWait) : (s.setHeadWait n1 w1).out = s.out := rfl
@[simp] theorem State.events_setHeadWait (n1 : Nat) (w1 : HeadWait) : (s.setHeadWait n1 w1).events = s.events := rfl
@[simp] theorem State.bad_setHeadWait (n1 : Nat) (w1 : HeadWait) : (s.setHeadWait n1 w1).bad = s.bad := rfl
@[simp] theorem State.poison_setHeadWait (n1 : Nat) (w1 : HeadWait) : (s.setHeadWait n1 w1).poison = s.poison := rfl
@[simp] theorem State.cache_setHeadWait (n1 : Nat) (w1 : HeadWait) : (s.setHeadWait n1 w1).cache = s.cache := rfl
@[simp] theorem State.watch_setHeadWait (n1 : Nat) (w1 : HeadWait) : (s.setHeadWait n1 w1).watch = s.watch := rfl
@[simp] theorem State.flash_setHeadWait (n1 : Nat) (w1 : HeadWait) : (s.setHeadWait n1 w1).flash = s.flash := rfl
@[simp] theorem State.flashDown_setHeadWait (n1 : Nat) (w1 : HeadWait) : (s.setHeadWait n1 w1).flashDown = s.flashDown := rfl
@[simp] theorem State.ports_setHeadWait (n1 : Nat) (w1 : HeadWait) : (s.setHeadWait n1 w1).ports = s.ports := rfl
@[simp] theorem State.inbox_setHeadWait (n1 : Nat) (w1 : HeadWait) : (s.setHeadWait n1 w1).inbox = s.inbox := rfl
@[simp] theorem State.fellows_setHeadWait (n1 : Nat) (w1 : HeadWait) : (s.setHeadWait n1 w1).fellows = s.fellows := rfl
@[simp] theorem State.pfc_setHeadWait (n1 : Nat) (w1 : HeadWait) : (s.setHeadWait n1 w1).pfc = s.pfc := rfl
@[simp] theorem State.reqs_setHeadWait (n1 : Nat) (w1 : HeadWait) : (s.setHeadWait n1 w1).reqs = s.reqs := rfl
@[simp] theorem State.serial_setHeadWait (n1 : Nat) (w1 : HeadWait) : (s.setHeadWait n1 w1).serial = s.serial := rfl
@[simp] theorem State.tag_setHeadWait (n1 : Nat) (w1 : HeadWait) : (s.setHeadWait n1 w1).tag = s.tag := rfl
@[simp] theorem State.chans_setHeadWait (n1 : Nat) (w1 : HeadWait) : (s.setHeadWait n1 w1).chans = s.chans := rfl
@[simp] theorem State.feeds_setHeadWait (n1 : Nat) (w1 : HeadWait) : (s.setHeadWait n1 w1).feeds = s.feeds := rfl
@[simp] theorem State.fences_setHeadWait (n1 : Nat) (w1 : HeadWait) : (s.setHeadWait n1 w1).fences = s.fences := rfl
@[simp] theorem State.recoveries_setHeadWait (n1 : Nat) (w1 : HeadWait) : (s.setHeadWait n1 w1).recoveries = s.recoveries := rfl
@[simp] theorem State.gviews_setHeadWait (n1 : Nat) (w1 : HeadWait) : (s.setHeadWait n1 w1).gviews = s.gviews := rfl
@[simp] theorem State.reds_setHeadWait (n1 : Nat) (w1 : HeadWait) : (s.setHeadWait n1 w1).reds = s.reds := rfl
@[simp] theorem State.redSeq_setHeadWait (n1 : Nat) (w1 : HeadWait) : (s.setHeadWait n1 w1).redSeq = s.redSeq := rfl
@[simp] theorem State.redRings_setHeadWait (n1 : Nat) (w1 : HeadWait) : (s.setHeadWait n1 w1).redRings = s.redRings := rfl
@[simp] theorem State.jobs_setHeadWait (n1 : Nat) (w1 : HeadWait) : (s.setHeadWait n1 w1).jobs = s.jobs := rfl
@[simp] theorem State.traceBufs_setHeadWait (n1 : Nat) (w1 : HeadWait) : (s.setHeadWait n1 w1).traceBufs = s.traceBufs := rfl
@[simp] theorem State.traceTurn_setHeadWait (n1 : Nat) (w1 : HeadWait) : (s.setHeadWait n1 w1).traceTurn = s.traceTurn := rfl
@[simp] theorem State.dm_setHeadWait (n1 : Nat) (w1 : HeadWait) : (s.setHeadWait n1 w1).dm = s.dm := rfl
@[simp] theorem State.posted_setHeadWait (n1 : Nat) (w1 : HeadWait) : (s.setHeadWait n1 w1).posted = s.posted := rfl
@[simp] theorem State.referee_setHeadWait (n1 : Nat) (w1 : HeadWait) : (s.setHeadWait n1 w1).referee = s.referee := rfl
@[simp] theorem State.power_setHeadWait (n1 : Nat) (w1 : HeadWait) : (s.setHeadWait n1 w1).power = s.power := rfl
@[simp] theorem State.freeCount_setHeadWait (n1 : Nat) (w1 : HeadWait) : (s.setHeadWait n1 w1).freeCount = s.freeCount := rfl
@[simp] theorem State.lines_setHeadWait (n1 : Nat) (w1 : HeadWait) : (s.setHeadWait n1 w1).lines = s.lines := rfl
@[simp] theorem State.hartCsr_setHeadWait (n1 : Nat) (w1 : HeadWait) : (s.setHeadWait n1 w1).hartCsr = s.hartCsr := rfl
@[simp] theorem State.msix_setHeadWait (n1 : Nat) (w1 : HeadWait) : (s.setHeadWait n1 w1).msix = s.msix := rfl
@[simp] theorem State.msixCtl_setHeadWait (n1 : Nat) (w1 : HeadWait) : (s.setHeadWait n1 w1).msixCtl = s.msixCtl := rfl
@[simp] theorem State.hartFull_setHeadWait (n1 : Nat) (w1 : HeadWait) : (s.setHeadWait n1 w1).hartFull = s.hartFull := rfl
@[simp] theorem State.pending_modRedRing (n1 : Nat) (g : RedRing → RedRing) : (s.modRedRing n1 g).pending = s.pending := rfl
@[simp] theorem State.dtime_modRedRing (n1 : Nat) (g : RedRing → RedRing) : (s.modRedRing n1 g).dtime = s.dtime := rfl
@[simp] theorem State.regs_modRedRing (n1 : Nat) (g : RedRing → RedRing) : (s.modRedRing n1 g).regs = s.regs := rfl
@[simp] theorem State.mem_modRedRing (n1 : Nat) (g : RedRing → RedRing) : (s.modRedRing n1 g).mem = s.mem := rfl
@[simp] theorem State.hostMem_modRedRing (n1 : Nat) (g : RedRing → RedRing) : (s.modRedRing n1 g).hostMem = s.hostMem := rfl
@[simp] theorem State.book_modRedRing (n1 : Nat) (g : RedRing → RedRing) : (s.modRedRing n1 g).book = s.book := rfl
@[simp] theorem State.learned_modRedRing (n1 : Nat) (g : RedRing → RedRing) : (s.modRedRing n1 g).learned = s.learned := rfl
@[simp] theorem State.benched_modRedRing (n1 : Nat) (g : RedRing → RedRing) : (s.modRedRing n1 g).benched = s.benched := rfl
@[simp] theorem State.cores_modRedRing (n1 : Nat) (g : RedRing → RedRing) : (s.modRedRing n1 g).cores = s.cores := rfl
@[simp] theorem State.sync_modRedRing (n1 : Nat) (g : RedRing → RedRing) : (s.modRedRing n1 g).sync = s.sync := rfl
@[simp] theorem State.waitOrder_modRedRing (n1 : Nat) (g : RedRing → RedRing) : (s.modRedRing n1 g).waitOrder = s.waitOrder := rfl
@[simp] theorem State.signals_modRedRing (n1 : Nat) (g : RedRing → RedRing) : (s.modRedRing n1 g).signals = s.signals := rfl
@[simp] theorem State.dispatch_modRedRing (n1 : Nat) (g : RedRing → RedRing) : (s.modRedRing n1 g).dispatch = s.dispatch := rfl
@[simp] theorem State.segOrder_modRedRing (n1 : Nat) (g : RedRing → RedRing) : (s.modRedRing n1 g).segOrder = s.segOrder := rfl
@[simp] theorem State.streams_modRedRing (n1 : Nat) (g : RedRing → RedRing) : (s.modRedRing n1 g).streams = s.streams := rfl
@[simp] theorem State.rings_modRedRing (n1 : Nat) (g : RedRing → RedRing) : (s.modRedRing n1 g).rings = s.rings := rfl
@[simp] theorem State.heads_modRedRing (n1 : Nat) (g : RedRing → RedRing) : (s.modRedRing n1 g).heads = s.heads := rfl
@[simp] theorem State.haltAt_modRedRing (n1 : Nat) (g : RedRing → RedRing) : (s.modRedRing n1 g).haltAt = s.haltAt := rfl
@[simp] theorem State.heldHeads_modRedRing (n1 : Nat) (g : RedRing → RedRing) : (s.modRedRing n1 g).heldHeads = s.heldHeads := rfl
@[simp] theorem State.queues_modRedRing (n1 : Nat) (g : RedRing → RedRing) : (s.modRedRing n1 g).queues = s.queues := rfl
@[simp] theorem State.atsOn_modRedRing (n1 : Nat) (g : RedRing → RedRing) : (s.modRedRing n1 g).atsOn = s.atsOn := rfl
@[simp] theorem State.atc_modRedRing (n1 : Nat) (g : RedRing → RedRing) : (s.modRedRing n1 g).atc = s.atc := rfl
@[simp] theorem State.lowPower_modRedRing (n1 : Nat) (g : RedRing → RedRing) : (s.modRedRing n1 g).lowPower = s.lowPower := rfl
@[simp] theorem State.flags_modRedRing (n1 : Nat) (g : RedRing → RedRing) : (s.modRedRing n1 g).flags = s.flags := rfl
@[simp] theorem State.out_modRedRing (n1 : Nat) (g : RedRing → RedRing) : (s.modRedRing n1 g).out = s.out := rfl
@[simp] theorem State.events_modRedRing (n1 : Nat) (g : RedRing → RedRing) : (s.modRedRing n1 g).events = s.events := rfl
@[simp] theorem State.bad_modRedRing (n1 : Nat) (g : RedRing → RedRing) : (s.modRedRing n1 g).bad = s.bad := rfl
@[simp] theorem State.poison_modRedRing (n1 : Nat) (g : RedRing → RedRing) : (s.modRedRing n1 g).poison = s.poison := rfl
@[simp] theorem State.cache_modRedRing (n1 : Nat) (g : RedRing → RedRing) : (s.modRedRing n1 g).cache = s.cache := rfl
@[simp] theorem State.watch_modRedRing (n1 : Nat) (g : RedRing → RedRing) : (s.modRedRing n1 g).watch = s.watch := rfl
@[simp] theorem State.flash_modRedRing (n1 : Nat) (g : RedRing → RedRing) : (s.modRedRing n1 g).flash = s.flash := rfl
@[simp] theorem State.flashDown_modRedRing (n1 : Nat) (g : RedRing → RedRing) : (s.modRedRing n1 g).flashDown = s.flashDown := rfl
@[simp] theorem State.ports_modRedRing (n1 : Nat) (g : RedRing → RedRing) : (s.modRedRing n1 g).ports = s.ports := rfl
@[simp] theorem State.inbox_modRedRing (n1 : Nat) (g : RedRing → RedRing) : (s.modRedRing n1 g).inbox = s.inbox := rfl
@[simp] theorem State.fellows_modRedRing (n1 : Nat) (g : RedRing → RedRing) : (s.modRedRing n1 g).fellows = s.fellows := rfl
@[simp] theorem State.pfc_modRedRing (n1 : Nat) (g : RedRing → RedRing) : (s.modRedRing n1 g).pfc = s.pfc := rfl
@[simp] theorem State.reqs_modRedRing (n1 : Nat) (g : RedRing → RedRing) : (s.modRedRing n1 g).reqs = s.reqs := rfl
@[simp] theorem State.serial_modRedRing (n1 : Nat) (g : RedRing → RedRing) : (s.modRedRing n1 g).serial = s.serial := rfl
@[simp] theorem State.tag_modRedRing (n1 : Nat) (g : RedRing → RedRing) : (s.modRedRing n1 g).tag = s.tag := rfl
@[simp] theorem State.chans_modRedRing (n1 : Nat) (g : RedRing → RedRing) : (s.modRedRing n1 g).chans = s.chans := rfl
@[simp] theorem State.feeds_modRedRing (n1 : Nat) (g : RedRing → RedRing) : (s.modRedRing n1 g).feeds = s.feeds := rfl
@[simp] theorem State.fences_modRedRing (n1 : Nat) (g : RedRing → RedRing) : (s.modRedRing n1 g).fences = s.fences := rfl
@[simp] theorem State.recoveries_modRedRing (n1 : Nat) (g : RedRing → RedRing) : (s.modRedRing n1 g).recoveries = s.recoveries := rfl
@[simp] theorem State.gviews_modRedRing (n1 : Nat) (g : RedRing → RedRing) : (s.modRedRing n1 g).gviews = s.gviews := rfl
@[simp] theorem State.reds_modRedRing (n1 : Nat) (g : RedRing → RedRing) : (s.modRedRing n1 g).reds = s.reds := rfl
@[simp] theorem State.redSeq_modRedRing (n1 : Nat) (g : RedRing → RedRing) : (s.modRedRing n1 g).redSeq = s.redSeq := rfl
@[simp] theorem State.jobs_modRedRing (n1 : Nat) (g : RedRing → RedRing) : (s.modRedRing n1 g).jobs = s.jobs := rfl
@[simp] theorem State.traceBufs_modRedRing (n1 : Nat) (g : RedRing → RedRing) : (s.modRedRing n1 g).traceBufs = s.traceBufs := rfl
@[simp] theorem State.traceTurn_modRedRing (n1 : Nat) (g : RedRing → RedRing) : (s.modRedRing n1 g).traceTurn = s.traceTurn := rfl
@[simp] theorem State.dm_modRedRing (n1 : Nat) (g : RedRing → RedRing) : (s.modRedRing n1 g).dm = s.dm := rfl
@[simp] theorem State.posted_modRedRing (n1 : Nat) (g : RedRing → RedRing) : (s.modRedRing n1 g).posted = s.posted := rfl
@[simp] theorem State.referee_modRedRing (n1 : Nat) (g : RedRing → RedRing) : (s.modRedRing n1 g).referee = s.referee := rfl
@[simp] theorem State.power_modRedRing (n1 : Nat) (g : RedRing → RedRing) : (s.modRedRing n1 g).power = s.power := rfl
@[simp] theorem State.freeCount_modRedRing (n1 : Nat) (g : RedRing → RedRing) : (s.modRedRing n1 g).freeCount = s.freeCount := rfl
@[simp] theorem State.lines_modRedRing (n1 : Nat) (g : RedRing → RedRing) : (s.modRedRing n1 g).lines = s.lines := rfl
@[simp] theorem State.hartCsr_modRedRing (n1 : Nat) (g : RedRing → RedRing) : (s.modRedRing n1 g).hartCsr = s.hartCsr := rfl
@[simp] theorem State.msix_modRedRing (n1 : Nat) (g : RedRing → RedRing) : (s.modRedRing n1 g).msix = s.msix := rfl
@[simp] theorem State.msixCtl_modRedRing (n1 : Nat) (g : RedRing → RedRing) : (s.modRedRing n1 g).msixCtl = s.msixCtl := rfl
@[simp] theorem State.hartFull_modRedRing (n1 : Nat) (g : RedRing → RedRing) : (s.modRedRing n1 g).hartFull = s.hartFull := rfl
@[simp] theorem State.pending_modFellows (g : Fellows → Fellows) : (s.modFellows g).pending = s.pending := rfl
@[simp] theorem State.dtime_modFellows (g : Fellows → Fellows) : (s.modFellows g).dtime = s.dtime := rfl
@[simp] theorem State.regs_modFellows (g : Fellows → Fellows) : (s.modFellows g).regs = s.regs := rfl
@[simp] theorem State.mem_modFellows (g : Fellows → Fellows) : (s.modFellows g).mem = s.mem := rfl
@[simp] theorem State.hostMem_modFellows (g : Fellows → Fellows) : (s.modFellows g).hostMem = s.hostMem := rfl
@[simp] theorem State.book_modFellows (g : Fellows → Fellows) : (s.modFellows g).book = s.book := rfl
@[simp] theorem State.learned_modFellows (g : Fellows → Fellows) : (s.modFellows g).learned = s.learned := rfl
@[simp] theorem State.benched_modFellows (g : Fellows → Fellows) : (s.modFellows g).benched = s.benched := rfl
@[simp] theorem State.cores_modFellows (g : Fellows → Fellows) : (s.modFellows g).cores = s.cores := rfl
@[simp] theorem State.sync_modFellows (g : Fellows → Fellows) : (s.modFellows g).sync = s.sync := rfl
@[simp] theorem State.waitOrder_modFellows (g : Fellows → Fellows) : (s.modFellows g).waitOrder = s.waitOrder := rfl
@[simp] theorem State.signals_modFellows (g : Fellows → Fellows) : (s.modFellows g).signals = s.signals := rfl
@[simp] theorem State.dispatch_modFellows (g : Fellows → Fellows) : (s.modFellows g).dispatch = s.dispatch := rfl
@[simp] theorem State.segOrder_modFellows (g : Fellows → Fellows) : (s.modFellows g).segOrder = s.segOrder := rfl
@[simp] theorem State.streams_modFellows (g : Fellows → Fellows) : (s.modFellows g).streams = s.streams := rfl
@[simp] theorem State.rings_modFellows (g : Fellows → Fellows) : (s.modFellows g).rings = s.rings := rfl
@[simp] theorem State.heads_modFellows (g : Fellows → Fellows) : (s.modFellows g).heads = s.heads := rfl
@[simp] theorem State.haltAt_modFellows (g : Fellows → Fellows) : (s.modFellows g).haltAt = s.haltAt := rfl
@[simp] theorem State.heldHeads_modFellows (g : Fellows → Fellows) : (s.modFellows g).heldHeads = s.heldHeads := rfl
@[simp] theorem State.queues_modFellows (g : Fellows → Fellows) : (s.modFellows g).queues = s.queues := rfl
@[simp] theorem State.atsOn_modFellows (g : Fellows → Fellows) : (s.modFellows g).atsOn = s.atsOn := rfl
@[simp] theorem State.atc_modFellows (g : Fellows → Fellows) : (s.modFellows g).atc = s.atc := rfl
@[simp] theorem State.lowPower_modFellows (g : Fellows → Fellows) : (s.modFellows g).lowPower = s.lowPower := rfl
@[simp] theorem State.flags_modFellows (g : Fellows → Fellows) : (s.modFellows g).flags = s.flags := rfl
@[simp] theorem State.out_modFellows (g : Fellows → Fellows) : (s.modFellows g).out = s.out := rfl
@[simp] theorem State.events_modFellows (g : Fellows → Fellows) : (s.modFellows g).events = s.events := rfl
@[simp] theorem State.bad_modFellows (g : Fellows → Fellows) : (s.modFellows g).bad = s.bad := rfl
@[simp] theorem State.poison_modFellows (g : Fellows → Fellows) : (s.modFellows g).poison = s.poison := rfl
@[simp] theorem State.cache_modFellows (g : Fellows → Fellows) : (s.modFellows g).cache = s.cache := rfl
@[simp] theorem State.watch_modFellows (g : Fellows → Fellows) : (s.modFellows g).watch = s.watch := rfl
@[simp] theorem State.flash_modFellows (g : Fellows → Fellows) : (s.modFellows g).flash = s.flash := rfl
@[simp] theorem State.flashDown_modFellows (g : Fellows → Fellows) : (s.modFellows g).flashDown = s.flashDown := rfl
@[simp] theorem State.ports_modFellows (g : Fellows → Fellows) : (s.modFellows g).ports = s.ports := rfl
@[simp] theorem State.inbox_modFellows (g : Fellows → Fellows) : (s.modFellows g).inbox = s.inbox := rfl
@[simp] theorem State.pfc_modFellows (g : Fellows → Fellows) : (s.modFellows g).pfc = s.pfc := rfl
@[simp] theorem State.reqs_modFellows (g : Fellows → Fellows) : (s.modFellows g).reqs = s.reqs := rfl
@[simp] theorem State.serial_modFellows (g : Fellows → Fellows) : (s.modFellows g).serial = s.serial := rfl
@[simp] theorem State.tag_modFellows (g : Fellows → Fellows) : (s.modFellows g).tag = s.tag := rfl
@[simp] theorem State.chans_modFellows (g : Fellows → Fellows) : (s.modFellows g).chans = s.chans := rfl
@[simp] theorem State.feeds_modFellows (g : Fellows → Fellows) : (s.modFellows g).feeds = s.feeds := rfl
@[simp] theorem State.fences_modFellows (g : Fellows → Fellows) : (s.modFellows g).fences = s.fences := rfl
@[simp] theorem State.recoveries_modFellows (g : Fellows → Fellows) : (s.modFellows g).recoveries = s.recoveries := rfl
@[simp] theorem State.gviews_modFellows (g : Fellows → Fellows) : (s.modFellows g).gviews = s.gviews := rfl
@[simp] theorem State.reds_modFellows (g : Fellows → Fellows) : (s.modFellows g).reds = s.reds := rfl
@[simp] theorem State.redSeq_modFellows (g : Fellows → Fellows) : (s.modFellows g).redSeq = s.redSeq := rfl
@[simp] theorem State.redRings_modFellows (g : Fellows → Fellows) : (s.modFellows g).redRings = s.redRings := rfl
@[simp] theorem State.jobs_modFellows (g : Fellows → Fellows) : (s.modFellows g).jobs = s.jobs := rfl
@[simp] theorem State.traceBufs_modFellows (g : Fellows → Fellows) : (s.modFellows g).traceBufs = s.traceBufs := rfl
@[simp] theorem State.traceTurn_modFellows (g : Fellows → Fellows) : (s.modFellows g).traceTurn = s.traceTurn := rfl
@[simp] theorem State.dm_modFellows (g : Fellows → Fellows) : (s.modFellows g).dm = s.dm := rfl
@[simp] theorem State.posted_modFellows (g : Fellows → Fellows) : (s.modFellows g).posted = s.posted := rfl
@[simp] theorem State.referee_modFellows (g : Fellows → Fellows) : (s.modFellows g).referee = s.referee := rfl
@[simp] theorem State.power_modFellows (g : Fellows → Fellows) : (s.modFellows g).power = s.power := rfl
@[simp] theorem State.freeCount_modFellows (g : Fellows → Fellows) : (s.modFellows g).freeCount = s.freeCount := rfl
@[simp] theorem State.lines_modFellows (g : Fellows → Fellows) : (s.modFellows g).lines = s.lines := rfl
@[simp] theorem State.hartCsr_modFellows (g : Fellows → Fellows) : (s.modFellows g).hartCsr = s.hartCsr := rfl
@[simp] theorem State.msix_modFellows (g : Fellows → Fellows) : (s.modFellows g).msix = s.msix := rfl
@[simp] theorem State.msixCtl_modFellows (g : Fellows → Fellows) : (s.modFellows g).msixCtl = s.msixCtl := rfl
@[simp] theorem State.hartFull_modFellows (g : Fellows → Fellows) : (s.modFellows g).hartFull = s.hartFull := rfl
@[simp] theorem State.pending_count (a1 n1 : Nat) : (s.count a1 n1).pending = s.pending := 
  (State.count_touches s a1 n1 (Sub.refl _) (Touches.refl s)).1 .pending rfl
@[simp] theorem State.dtime_count (a1 n1 : Nat) : (s.count a1 n1).dtime = s.dtime := 
  (State.count_touches s a1 n1 (Sub.refl _) (Touches.refl s)).1 .dtime rfl
@[simp] theorem State.mem_count (a1 n1 : Nat) : (s.count a1 n1).mem = s.mem := 
  (State.count_touches s a1 n1 (Sub.refl _) (Touches.refl s)).1 .mem rfl
@[simp] theorem State.hostMem_count (a1 n1 : Nat) : (s.count a1 n1).hostMem = s.hostMem := 
  (State.count_touches s a1 n1 (Sub.refl _) (Touches.refl s)).1 .hostMem rfl
@[simp] theorem State.book_count (a1 n1 : Nat) : (s.count a1 n1).book = s.book := 
  (State.count_touches s a1 n1 (Sub.refl _) (Touches.refl s)).1 .book rfl
@[simp] theorem State.learned_count (a1 n1 : Nat) : (s.count a1 n1).learned = s.learned := 
  (State.count_touches s a1 n1 (Sub.refl _) (Touches.refl s)).1 .learned rfl
@[simp] theorem State.benched_count (a1 n1 : Nat) : (s.count a1 n1).benched = s.benched := 
  (State.count_touches s a1 n1 (Sub.refl _) (Touches.refl s)).1 .benched rfl
@[simp] theorem State.cores_count (a1 n1 : Nat) : (s.count a1 n1).cores = s.cores := 
  (State.count_touches s a1 n1 (Sub.refl _) (Touches.refl s)).1 .cores rfl
@[simp] theorem State.sync_count (a1 n1 : Nat) : (s.count a1 n1).sync = s.sync := 
  (State.count_touches s a1 n1 (Sub.refl _) (Touches.refl s)).1 .sync rfl
@[simp] theorem State.waitOrder_count (a1 n1 : Nat) : (s.count a1 n1).waitOrder = s.waitOrder := 
  (State.count_touches s a1 n1 (Sub.refl _) (Touches.refl s)).1 .waitOrder rfl
@[simp] theorem State.signals_count (a1 n1 : Nat) : (s.count a1 n1).signals = s.signals := 
  (State.count_touches s a1 n1 (Sub.refl _) (Touches.refl s)).1 .signals rfl
@[simp] theorem State.dispatch_count (a1 n1 : Nat) : (s.count a1 n1).dispatch = s.dispatch := 
  (State.count_touches s a1 n1 (Sub.refl _) (Touches.refl s)).1 .dispatch rfl
@[simp] theorem State.segOrder_count (a1 n1 : Nat) : (s.count a1 n1).segOrder = s.segOrder := 
  (State.count_touches s a1 n1 (Sub.refl _) (Touches.refl s)).1 .segOrder rfl
@[simp] theorem State.streams_count (a1 n1 : Nat) : (s.count a1 n1).streams = s.streams := 
  (State.count_touches s a1 n1 (Sub.refl _) (Touches.refl s)).1 .streams rfl
@[simp] theorem State.rings_count (a1 n1 : Nat) : (s.count a1 n1).rings = s.rings := 
  (State.count_touches s a1 n1 (Sub.refl _) (Touches.refl s)).1 .rings rfl
@[simp] theorem State.heads_count (a1 n1 : Nat) : (s.count a1 n1).heads = s.heads := 
  (State.count_touches s a1 n1 (Sub.refl _) (Touches.refl s)).1 .heads rfl
@[simp] theorem State.haltAt_count (a1 n1 : Nat) : (s.count a1 n1).haltAt = s.haltAt := 
  (State.count_touches s a1 n1 (Sub.refl _) (Touches.refl s)).1 .haltAt rfl
@[simp] theorem State.heldHeads_count (a1 n1 : Nat) : (s.count a1 n1).heldHeads = s.heldHeads := 
  (State.count_touches s a1 n1 (Sub.refl _) (Touches.refl s)).1 .heldHeads rfl
@[simp] theorem State.queues_count (a1 n1 : Nat) : (s.count a1 n1).queues = s.queues := 
  (State.count_touches s a1 n1 (Sub.refl _) (Touches.refl s)).1 .queues rfl
@[simp] theorem State.atsOn_count (a1 n1 : Nat) : (s.count a1 n1).atsOn = s.atsOn := 
  (State.count_touches s a1 n1 (Sub.refl _) (Touches.refl s)).1 .atsOn rfl
@[simp] theorem State.atc_count (a1 n1 : Nat) : (s.count a1 n1).atc = s.atc := 
  (State.count_touches s a1 n1 (Sub.refl _) (Touches.refl s)).1 .atc rfl
@[simp] theorem State.lowPower_count (a1 n1 : Nat) : (s.count a1 n1).lowPower = s.lowPower := 
  (State.count_touches s a1 n1 (Sub.refl _) (Touches.refl s)).1 .lowPower rfl
@[simp] theorem State.flags_count (a1 n1 : Nat) : (s.count a1 n1).flags = s.flags := 
  (State.count_touches s a1 n1 (Sub.refl _) (Touches.refl s)).1 .flags rfl
@[simp] theorem State.out_count (a1 n1 : Nat) : (s.count a1 n1).out = s.out := 
  (State.count_touches s a1 n1 (Sub.refl _) (Touches.refl s)).1 .out rfl
@[simp] theorem State.bad_count (a1 n1 : Nat) : (s.count a1 n1).bad = s.bad := 
  (State.count_touches s a1 n1 (Sub.refl _) (Touches.refl s)).1 .bad rfl
@[simp] theorem State.poison_count (a1 n1 : Nat) : (s.count a1 n1).poison = s.poison := 
  (State.count_touches s a1 n1 (Sub.refl _) (Touches.refl s)).1 .poison rfl
@[simp] theorem State.cache_count (a1 n1 : Nat) : (s.count a1 n1).cache = s.cache := 
  (State.count_touches s a1 n1 (Sub.refl _) (Touches.refl s)).1 .cache rfl
@[simp] theorem State.watch_count (a1 n1 : Nat) : (s.count a1 n1).watch = s.watch := 
  (State.count_touches s a1 n1 (Sub.refl _) (Touches.refl s)).1 .watch rfl
@[simp] theorem State.flash_count (a1 n1 : Nat) : (s.count a1 n1).flash = s.flash := 
  (State.count_touches s a1 n1 (Sub.refl _) (Touches.refl s)).1 .flash rfl
@[simp] theorem State.flashDown_count (a1 n1 : Nat) : (s.count a1 n1).flashDown = s.flashDown := 
  (State.count_touches s a1 n1 (Sub.refl _) (Touches.refl s)).1 .flashDown rfl
@[simp] theorem State.ports_count (a1 n1 : Nat) : (s.count a1 n1).ports = s.ports := 
  (State.count_touches s a1 n1 (Sub.refl _) (Touches.refl s)).1 .ports rfl
@[simp] theorem State.inbox_count (a1 n1 : Nat) : (s.count a1 n1).inbox = s.inbox := 
  (State.count_touches s a1 n1 (Sub.refl _) (Touches.refl s)).1 .inbox rfl
@[simp] theorem State.fellows_count (a1 n1 : Nat) : (s.count a1 n1).fellows = s.fellows := 
  (State.count_touches s a1 n1 (Sub.refl _) (Touches.refl s)).1 .fellows rfl
@[simp] theorem State.pfc_count (a1 n1 : Nat) : (s.count a1 n1).pfc = s.pfc := 
  (State.count_touches s a1 n1 (Sub.refl _) (Touches.refl s)).1 .pfc rfl
@[simp] theorem State.reqs_count (a1 n1 : Nat) : (s.count a1 n1).reqs = s.reqs := 
  (State.count_touches s a1 n1 (Sub.refl _) (Touches.refl s)).1 .reqs rfl
@[simp] theorem State.serial_count (a1 n1 : Nat) : (s.count a1 n1).serial = s.serial := 
  (State.count_touches s a1 n1 (Sub.refl _) (Touches.refl s)).1 .serial rfl
@[simp] theorem State.tag_count (a1 n1 : Nat) : (s.count a1 n1).tag = s.tag := 
  (State.count_touches s a1 n1 (Sub.refl _) (Touches.refl s)).1 .tag rfl
@[simp] theorem State.chans_count (a1 n1 : Nat) : (s.count a1 n1).chans = s.chans := 
  (State.count_touches s a1 n1 (Sub.refl _) (Touches.refl s)).1 .chans rfl
@[simp] theorem State.feeds_count (a1 n1 : Nat) : (s.count a1 n1).feeds = s.feeds := 
  (State.count_touches s a1 n1 (Sub.refl _) (Touches.refl s)).1 .feeds rfl
@[simp] theorem State.fences_count (a1 n1 : Nat) : (s.count a1 n1).fences = s.fences := 
  (State.count_touches s a1 n1 (Sub.refl _) (Touches.refl s)).1 .fences rfl
@[simp] theorem State.recoveries_count (a1 n1 : Nat) : (s.count a1 n1).recoveries = s.recoveries := 
  (State.count_touches s a1 n1 (Sub.refl _) (Touches.refl s)).1 .recoveries rfl
@[simp] theorem State.gviews_count (a1 n1 : Nat) : (s.count a1 n1).gviews = s.gviews := 
  (State.count_touches s a1 n1 (Sub.refl _) (Touches.refl s)).1 .gviews rfl
@[simp] theorem State.reds_count (a1 n1 : Nat) : (s.count a1 n1).reds = s.reds := 
  (State.count_touches s a1 n1 (Sub.refl _) (Touches.refl s)).1 .reds rfl
@[simp] theorem State.redSeq_count (a1 n1 : Nat) : (s.count a1 n1).redSeq = s.redSeq := 
  (State.count_touches s a1 n1 (Sub.refl _) (Touches.refl s)).1 .redSeq rfl
@[simp] theorem State.redRings_count (a1 n1 : Nat) : (s.count a1 n1).redRings = s.redRings := 
  (State.count_touches s a1 n1 (Sub.refl _) (Touches.refl s)).1 .redRings rfl
@[simp] theorem State.jobs_count (a1 n1 : Nat) : (s.count a1 n1).jobs = s.jobs := 
  (State.count_touches s a1 n1 (Sub.refl _) (Touches.refl s)).1 .jobs rfl
@[simp] theorem State.traceBufs_count (a1 n1 : Nat) : (s.count a1 n1).traceBufs = s.traceBufs := 
  (State.count_touches s a1 n1 (Sub.refl _) (Touches.refl s)).1 .traceBufs rfl
@[simp] theorem State.traceTurn_count (a1 n1 : Nat) : (s.count a1 n1).traceTurn = s.traceTurn := 
  (State.count_touches s a1 n1 (Sub.refl _) (Touches.refl s)).1 .traceTurn rfl
@[simp] theorem State.dm_count (a1 n1 : Nat) : (s.count a1 n1).dm = s.dm := 
  (State.count_touches s a1 n1 (Sub.refl _) (Touches.refl s)).1 .dm rfl
@[simp] theorem State.posted_count (a1 n1 : Nat) : (s.count a1 n1).posted = s.posted := 
  (State.count_touches s a1 n1 (Sub.refl _) (Touches.refl s)).1 .posted rfl
@[simp] theorem State.referee_count (a1 n1 : Nat) : (s.count a1 n1).referee = s.referee := 
  (State.count_touches s a1 n1 (Sub.refl _) (Touches.refl s)).1 .referee rfl
@[simp] theorem State.power_count (a1 n1 : Nat) : (s.count a1 n1).power = s.power := 
  (State.count_touches s a1 n1 (Sub.refl _) (Touches.refl s)).1 .power rfl
@[simp] theorem State.freeCount_count (a1 n1 : Nat) : (s.count a1 n1).freeCount = s.freeCount := 
  (State.count_touches s a1 n1 (Sub.refl _) (Touches.refl s)).1 .freeCount rfl
@[simp] theorem State.lines_count (a1 n1 : Nat) : (s.count a1 n1).lines = s.lines := 
  (State.count_touches s a1 n1 (Sub.refl _) (Touches.refl s)).1 .lines rfl
@[simp] theorem State.hartCsr_count (a1 n1 : Nat) : (s.count a1 n1).hartCsr = s.hartCsr := 
  (State.count_touches s a1 n1 (Sub.refl _) (Touches.refl s)).1 .hartCsr rfl
@[simp] theorem State.msix_count (a1 n1 : Nat) : (s.count a1 n1).msix = s.msix := 
  (State.count_touches s a1 n1 (Sub.refl _) (Touches.refl s)).1 .msix rfl
@[simp] theorem State.msixCtl_count (a1 n1 : Nat) : (s.count a1 n1).msixCtl = s.msixCtl := 
  (State.count_touches s a1 n1 (Sub.refl _) (Touches.refl s)).1 .msixCtl rfl
@[simp] theorem State.hartFull_count (a1 n1 : Nat) : (s.count a1 n1).hartFull = s.hartFull := 
  (State.count_touches s a1 n1 (Sub.refl _) (Touches.refl s)).1 .hartFull rfl
@[simp] theorem State.reg_setDtime (x : Nat) (a : Nat) : (s.setDtime x).reg a = s.reg a := rfl
@[simp] theorem State.reg_setMem (x : List Host.Cell) (a : Nat) : (s.setMem x).reg a = s.reg a := rfl
@[simp] theorem State.reg_setBook (x : List (Nat × Entry)) (a : Nat) : (s.setBook x).reg a = s.reg a := rfl
@[simp] theorem State.reg_setLearned (x : List Learned) (a : Nat) : (s.setLearned x).reg a = s.reg a := rfl
@[simp] theorem State.reg_setBenched (x : List (Nat × Nat)) (a : Nat) : (s.setBenched x).reg a = s.reg a := rfl
@[simp] theorem State.reg_setSync (x : List (Nat × SyncObj)) (a : Nat) : (s.setSync x).reg a = s.reg a := rfl
@[simp] theorem State.reg_setWaitOrder (x : Nat) (a : Nat) : (s.setWaitOrder x).reg a = s.reg a := rfl
@[simp] theorem State.reg_setSignals (x : List Signal) (a : Nat) : (s.setSignals x).reg a = s.reg a := rfl
@[simp] theorem State.reg_setDispatch (x : List SegRec) (a : Nat) : (s.setDispatch x).reg a = s.reg a := rfl
@[simp] theorem State.reg_setSegOrder (x : Nat) (a : Nat) : (s.setSegOrder x).reg a = s.reg a := rfl
@[simp] theorem State.reg_setStreams (x : List (Nat × Stream)) (a : Nat) : (s.setStreams x).reg a = s.reg a := rfl
@[simp] theorem State.reg_setRings (x : List (Nat × EventRing)) (a : Nat) : (s.setRings x).reg a = s.reg a := rfl
@[simp] theorem State.reg_setHeads (x : List (Nat × HeadWait)) (a : Nat) : (s.setHeads x).reg a = s.reg a := rfl
@[simp] theorem State.reg_setHaltAt (x : List (Nat × Nat)) (a : Nat) : (s.setHaltAt x).reg a = s.reg a := rfl
@[simp] theorem State.reg_setHeldHeads (x : List Nat) (a : Nat) : (s.setHeldHeads x).reg a = s.reg a := rfl
@[simp] theorem State.reg_setQueues (x : List (Nat × Nat)) (a : Nat) : (s.setQueues x).reg a = s.reg a := rfl
@[simp] theorem State.reg_setAtc (x : List (Nat × Nat)) (a : Nat) : (s.setAtc x).reg a = s.reg a := rfl
@[simp] theorem State.reg_setLowPower (x : List Nat) (a : Nat) : (s.setLowPower x).reg a = s.reg a := rfl
@[simp] theorem State.reg_setFlags (x : List (Nat × Nat)) (a : Nat) : (s.setFlags x).reg a = s.reg a := rfl
@[simp] theorem State.reg_setOut (x : List Output) (a : Nat) : (s.setOut x).reg a = s.reg a := rfl
@[simp] theorem State.reg_setEvents (x : List Event) (a : Nat) : (s.setEvents x).reg a = s.reg a := rfl
@[simp] theorem State.reg_setBad (x : List (Nat × Bool)) (a : Nat) : (s.setBad x).reg a = s.reg a := rfl
@[simp] theorem State.reg_setPoison (x : List (Nat × Bool)) (a : Nat) : (s.setPoison x).reg a = s.reg a := rfl
@[simp] theorem State.reg_setCache (x : List (Nat × List CacheLine)) (a : Nat) : (s.setCache x).reg a = s.reg a := rfl
@[simp] theorem State.reg_setFlash (x : List (Nat × FlashObj)) (a : Nat) : (s.setFlash x).reg a = s.reg a := rfl
@[simp] theorem State.reg_setFlashDown (x : List Nat) (a : Nat) : (s.setFlashDown x).reg a = s.reg a := rfl
@[simp] theorem State.reg_setPorts (x : List (Nat × Port)) (a : Nat) : (s.setPorts x).reg a = s.reg a := rfl
@[simp] theorem State.reg_setInbox (x : List (Nat × Msg)) (a : Nat) : (s.setInbox x).reg a = s.reg a := rfl
@[simp] theorem State.reg_setFellows (x : Fellows) (a : Nat) : (s.setFellows x).reg a = s.reg a := rfl
@[simp] theorem State.reg_setPfc (x : List (Nat × Nat)) (a : Nat) : (s.setPfc x).reg a = s.reg a := rfl
@[simp] theorem State.reg_setReqs (x : List Req) (a : Nat) : (s.setReqs x).reg a = s.reg a := rfl
@[simp] theorem State.reg_setSerial (x : Nat) (a : Nat) : (s.setSerial x).reg a = s.reg a := rfl
@[simp] theorem State.reg_setTag (x : Nat) (a : Nat) : (s.setTag x).reg a = s.reg a := rfl
@[simp] theorem State.reg_setChans (x : List (Nat × Chan)) (a : Nat) : (s.setChans x).reg a = s.reg a := rfl
@[simp] theorem State.reg_setFeeds (x : List (Nat × Feed)) (a : Nat) : (s.setFeeds x).reg a = s.reg a := rfl
@[simp] theorem State.reg_setFences (x : List Fence) (a : Nat) : (s.setFences x).reg a = s.reg a := rfl
@[simp] theorem State.reg_setRecoveries (x : List Recovery) (a : Nat) : (s.setRecoveries x).reg a = s.reg a := rfl
@[simp] theorem State.reg_setGviews (x : List (Nat × GView)) (a : Nat) : (s.setGviews x).reg a = s.reg a := rfl
@[simp] theorem State.reg_setReds (x : List Red) (a : Nat) : (s.setReds x).reg a = s.reg a := rfl
@[simp] theorem State.reg_setRedSeq (x : List (Nat × Nat)) (a : Nat) : (s.setRedSeq x).reg a = s.reg a := rfl
@[simp] theorem State.reg_setRedRings (x : List (Nat × RedRing)) (a : Nat) : (s.setRedRings x).reg a = s.reg a := rfl
@[simp] theorem State.reg_setJobs (x : List (Nat × Job)) (a : Nat) : (s.setJobs x).reg a = s.reg a := rfl
@[simp] theorem State.reg_setTraceBufs (x : List (Nat × TraceBuf)) (a : Nat) : (s.setTraceBufs x).reg a = s.reg a := rfl
@[simp] theorem State.reg_setTraceTurn (x : List (Nat × Nat)) (a : Nat) : (s.setTraceTurn x).reg a = s.reg a := rfl
@[simp] theorem State.reg_setDm (x : DebugModule) (a : Nat) : (s.setDm x).reg a = s.reg a := rfl
@[simp] theorem State.reg_setPosted (x : List Posted) (a : Nat) : (s.setPosted x).reg a = s.reg a := rfl
@[simp] theorem State.reg_setReferee (x : Referee) (a : Nat) : (s.setReferee x).reg a = s.reg a := rfl
@[simp] theorem State.reg_setPower (x : Power) (a : Nat) : (s.setPower x).reg a = s.reg a := rfl
@[simp] theorem State.reg_setFreeCount (x : Nat) (a : Nat) : (s.setFreeCount x).reg a = s.reg a := rfl
@[simp] theorem State.reg_setLines (x : List (Nat × HartLine)) (a : Nat) : (s.setLines x).reg a = s.reg a := rfl
@[simp] theorem State.reg_setHartCsr (x : List (Nat × Nat)) (a : Nat) : (s.setHartCsr x).reg a = s.reg a := rfl
@[simp] theorem State.reg_setMsix (x : List (Nat × MsixEntry)) (a : Nat) : (s.setMsix x).reg a = s.reg a := rfl
@[simp] theorem State.reg_setMsixCtl (x : List (Nat × Nat)) (a : Nat) : (s.setMsixCtl x).reg a = s.reg a := rfl
@[simp] theorem State.reg_setAtsOn (x : List Nat) (a : Nat) : (s.setAtsOn x).reg a = s.reg a := rfl
@[simp] theorem State.reg_setHartFull (x : List Nat) (a : Nat) : (s.setHartFull x).reg a = s.reg a := rfl
@[simp] theorem State.reg_setCore (c1 : Nat) (k1 : Core) (a : Nat) : (s.setCore c1 k1).reg a = s.reg a := rfl
@[simp] theorem State.reg_modCore (c1 : Nat) (g : Core → Core) (a : Nat) : (s.modCore c1 g).reg a = s.reg a := rfl
@[simp] theorem State.reg_setEntry (c1 k1 : Nat) (e : Entry) (a : Nat) : (s.setEntry c1 k1 e).reg a = s.reg a := rfl
@[simp] theorem State.reg_setHostBytes (a1 : Nat) (l : List (BitVec 8)) (a : Nat) : (s.setHostBytes a1 l).reg a = s.reg a := rfl
@[simp] theorem State.reg_raiseAs (code : Code) (sev unit part pay : Nat) (a : Nat) : (s.raiseAs code sev unit part pay).reg a = s.reg a := rfl
@[simp] theorem State.reg_raise (code : Code) (unit part pay : Nat) (a : Nat) : (s.raise code unit part pay).reg a = s.reg a := rfl
@[simp] theorem State.reg_raiseCore (code : Code) (c1 engine pay : Nat) (a : Nat) : (s.raiseCore code c1 engine pay).reg a = s.reg a := rfl
@[simp] theorem State.reg_clearBad (a1 n1 : Nat) (a : Nat) : (s.clearBad a1 n1).reg a = s.reg a := rfl
@[simp] theorem State.reg_setObj (o1 : Nat) (x : SyncObj) (a : Nat) : (s.setObj o1 x).reg a = s.reg a := rfl
@[simp] theorem State.reg_modPort (n1 : Nat) (g : Port → Port) (a : Nat) : (s.modPort n1 g).reg a = s.reg a := rfl
@[simp] theorem State.reg_modChan (n1 : Nat) (g : Chan → Chan) (a : Nat) : (s.modChan n1 g).reg a = s.reg a := rfl
@[simp] theorem State.reg_modFeed (n1 : Nat) (g : Feed → Feed) (a : Nat) : (s.modFeed n1 g).reg a = s.reg a := rfl
@[simp] theorem State.reg_modStream (n1 : Nat) (g : Stream → Stream) (a : Nat) : (s.modStream n1 g).reg a = s.reg a := rfl
@[simp] theorem State.reg_modRing (n1 : Nat) (g : EventRing → EventRing) (a : Nat) : (s.modRing n1 g).reg a = s.reg a := rfl
@[simp] theorem State.reg_modJob (n1 : Nat) (g : Job → Job) (a : Nat) : (s.modJob n1 g).reg a = s.reg a := rfl
@[simp] theorem State.reg_setFlag (n1 v1 : Nat) (a : Nat) : (s.setFlag n1 v1).reg a = s.reg a := rfl
@[simp] theorem State.reg_setHeadWait (n1 : Nat) (w1 : HeadWait) (a : Nat) : (s.setHeadWait n1 w1).reg a = s.reg a := rfl
@[simp] theorem State.reg_modRedRing (n1 : Nat) (g : RedRing → RedRing) (a : Nat) : (s.modRedRing n1 g).reg a = s.reg a := rfl
@[simp] theorem State.reg_modFellows (g : Fellows → Fellows) (a : Nat) : (s.modFellows g).reg a = s.reg a := rfl
@[simp] theorem State.rd_setDtime (x : Nat) (f : RF) : (s.setDtime x).rd f = s.rd f := rfl
@[simp] theorem State.rd_setMem (x : List Host.Cell) (f : RF) : (s.setMem x).rd f = s.rd f := rfl
@[simp] theorem State.rd_setBook (x : List (Nat × Entry)) (f : RF) : (s.setBook x).rd f = s.rd f := rfl
@[simp] theorem State.rd_setLearned (x : List Learned) (f : RF) : (s.setLearned x).rd f = s.rd f := rfl
@[simp] theorem State.rd_setBenched (x : List (Nat × Nat)) (f : RF) : (s.setBenched x).rd f = s.rd f := rfl
@[simp] theorem State.rd_setSync (x : List (Nat × SyncObj)) (f : RF) : (s.setSync x).rd f = s.rd f := rfl
@[simp] theorem State.rd_setWaitOrder (x : Nat) (f : RF) : (s.setWaitOrder x).rd f = s.rd f := rfl
@[simp] theorem State.rd_setSignals (x : List Signal) (f : RF) : (s.setSignals x).rd f = s.rd f := rfl
@[simp] theorem State.rd_setDispatch (x : List SegRec) (f : RF) : (s.setDispatch x).rd f = s.rd f := rfl
@[simp] theorem State.rd_setSegOrder (x : Nat) (f : RF) : (s.setSegOrder x).rd f = s.rd f := rfl
@[simp] theorem State.rd_setStreams (x : List (Nat × Stream)) (f : RF) : (s.setStreams x).rd f = s.rd f := rfl
@[simp] theorem State.rd_setRings (x : List (Nat × EventRing)) (f : RF) : (s.setRings x).rd f = s.rd f := rfl
@[simp] theorem State.rd_setHeads (x : List (Nat × HeadWait)) (f : RF) : (s.setHeads x).rd f = s.rd f := rfl
@[simp] theorem State.rd_setHaltAt (x : List (Nat × Nat)) (f : RF) : (s.setHaltAt x).rd f = s.rd f := rfl
@[simp] theorem State.rd_setHeldHeads (x : List Nat) (f : RF) : (s.setHeldHeads x).rd f = s.rd f := rfl
@[simp] theorem State.rd_setQueues (x : List (Nat × Nat)) (f : RF) : (s.setQueues x).rd f = s.rd f := rfl
@[simp] theorem State.rd_setAtc (x : List (Nat × Nat)) (f : RF) : (s.setAtc x).rd f = s.rd f := rfl
@[simp] theorem State.rd_setLowPower (x : List Nat) (f : RF) : (s.setLowPower x).rd f = s.rd f := rfl
@[simp] theorem State.rd_setFlags (x : List (Nat × Nat)) (f : RF) : (s.setFlags x).rd f = s.rd f := rfl
@[simp] theorem State.rd_setOut (x : List Output) (f : RF) : (s.setOut x).rd f = s.rd f := rfl
@[simp] theorem State.rd_setEvents (x : List Event) (f : RF) : (s.setEvents x).rd f = s.rd f := rfl
@[simp] theorem State.rd_setBad (x : List (Nat × Bool)) (f : RF) : (s.setBad x).rd f = s.rd f := rfl
@[simp] theorem State.rd_setPoison (x : List (Nat × Bool)) (f : RF) : (s.setPoison x).rd f = s.rd f := rfl
@[simp] theorem State.rd_setCache (x : List (Nat × List CacheLine)) (f : RF) : (s.setCache x).rd f = s.rd f := rfl
@[simp] theorem State.rd_setFlash (x : List (Nat × FlashObj)) (f : RF) : (s.setFlash x).rd f = s.rd f := rfl
@[simp] theorem State.rd_setFlashDown (x : List Nat) (f : RF) : (s.setFlashDown x).rd f = s.rd f := rfl
@[simp] theorem State.rd_setPorts (x : List (Nat × Port)) (f : RF) : (s.setPorts x).rd f = s.rd f := rfl
@[simp] theorem State.rd_setInbox (x : List (Nat × Msg)) (f : RF) : (s.setInbox x).rd f = s.rd f := rfl
@[simp] theorem State.rd_setFellows (x : Fellows) (f : RF) : (s.setFellows x).rd f = s.rd f := rfl
@[simp] theorem State.rd_setPfc (x : List (Nat × Nat)) (f : RF) : (s.setPfc x).rd f = s.rd f := rfl
@[simp] theorem State.rd_setReqs (x : List Req) (f : RF) : (s.setReqs x).rd f = s.rd f := rfl
@[simp] theorem State.rd_setSerial (x : Nat) (f : RF) : (s.setSerial x).rd f = s.rd f := rfl
@[simp] theorem State.rd_setTag (x : Nat) (f : RF) : (s.setTag x).rd f = s.rd f := rfl
@[simp] theorem State.rd_setChans (x : List (Nat × Chan)) (f : RF) : (s.setChans x).rd f = s.rd f := rfl
@[simp] theorem State.rd_setFeeds (x : List (Nat × Feed)) (f : RF) : (s.setFeeds x).rd f = s.rd f := rfl
@[simp] theorem State.rd_setFences (x : List Fence) (f : RF) : (s.setFences x).rd f = s.rd f := rfl
@[simp] theorem State.rd_setRecoveries (x : List Recovery) (f : RF) : (s.setRecoveries x).rd f = s.rd f := rfl
@[simp] theorem State.rd_setGviews (x : List (Nat × GView)) (f : RF) : (s.setGviews x).rd f = s.rd f := rfl
@[simp] theorem State.rd_setReds (x : List Red) (f : RF) : (s.setReds x).rd f = s.rd f := rfl
@[simp] theorem State.rd_setRedSeq (x : List (Nat × Nat)) (f : RF) : (s.setRedSeq x).rd f = s.rd f := rfl
@[simp] theorem State.rd_setRedRings (x : List (Nat × RedRing)) (f : RF) : (s.setRedRings x).rd f = s.rd f := rfl
@[simp] theorem State.rd_setJobs (x : List (Nat × Job)) (f : RF) : (s.setJobs x).rd f = s.rd f := rfl
@[simp] theorem State.rd_setTraceBufs (x : List (Nat × TraceBuf)) (f : RF) : (s.setTraceBufs x).rd f = s.rd f := rfl
@[simp] theorem State.rd_setTraceTurn (x : List (Nat × Nat)) (f : RF) : (s.setTraceTurn x).rd f = s.rd f := rfl
@[simp] theorem State.rd_setDm (x : DebugModule) (f : RF) : (s.setDm x).rd f = s.rd f := rfl
@[simp] theorem State.rd_setPosted (x : List Posted) (f : RF) : (s.setPosted x).rd f = s.rd f := rfl
@[simp] theorem State.rd_setReferee (x : Referee) (f : RF) : (s.setReferee x).rd f = s.rd f := rfl
@[simp] theorem State.rd_setPower (x : Power) (f : RF) : (s.setPower x).rd f = s.rd f := rfl
@[simp] theorem State.rd_setFreeCount (x : Nat) (f : RF) : (s.setFreeCount x).rd f = s.rd f := rfl
@[simp] theorem State.rd_setLines (x : List (Nat × HartLine)) (f : RF) : (s.setLines x).rd f = s.rd f := rfl
@[simp] theorem State.rd_setHartCsr (x : List (Nat × Nat)) (f : RF) : (s.setHartCsr x).rd f = s.rd f := rfl
@[simp] theorem State.rd_setMsix (x : List (Nat × MsixEntry)) (f : RF) : (s.setMsix x).rd f = s.rd f := rfl
@[simp] theorem State.rd_setMsixCtl (x : List (Nat × Nat)) (f : RF) : (s.setMsixCtl x).rd f = s.rd f := rfl
@[simp] theorem State.rd_setAtsOn (x : List Nat) (f : RF) : (s.setAtsOn x).rd f = s.rd f := rfl
@[simp] theorem State.rd_setHartFull (x : List Nat) (f : RF) : (s.setHartFull x).rd f = s.rd f := rfl
@[simp] theorem State.rd_setCore (c1 : Nat) (k1 : Core) (f : RF) : (s.setCore c1 k1).rd f = s.rd f := rfl
@[simp] theorem State.rd_modCore (c1 : Nat) (g : Core → Core) (f : RF) : (s.modCore c1 g).rd f = s.rd f := rfl
@[simp] theorem State.rd_setEntry (c1 k1 : Nat) (e : Entry) (f : RF) : (s.setEntry c1 k1 e).rd f = s.rd f := rfl
@[simp] theorem State.rd_setHostBytes (a1 : Nat) (l : List (BitVec 8)) (f : RF) : (s.setHostBytes a1 l).rd f = s.rd f := rfl
@[simp] theorem State.rd_raiseAs (code : Code) (sev unit part pay : Nat) (f : RF) : (s.raiseAs code sev unit part pay).rd f = s.rd f := rfl
@[simp] theorem State.rd_raise (code : Code) (unit part pay : Nat) (f : RF) : (s.raise code unit part pay).rd f = s.rd f := rfl
@[simp] theorem State.rd_raiseCore (code : Code) (c1 engine pay : Nat) (f : RF) : (s.raiseCore code c1 engine pay).rd f = s.rd f := rfl
@[simp] theorem State.rd_clearBad (a1 n1 : Nat) (f : RF) : (s.clearBad a1 n1).rd f = s.rd f := rfl
@[simp] theorem State.rd_setObj (o1 : Nat) (x : SyncObj) (f : RF) : (s.setObj o1 x).rd f = s.rd f := rfl
@[simp] theorem State.rd_modPort (n1 : Nat) (g : Port → Port) (f : RF) : (s.modPort n1 g).rd f = s.rd f := rfl
@[simp] theorem State.rd_modChan (n1 : Nat) (g : Chan → Chan) (f : RF) : (s.modChan n1 g).rd f = s.rd f := rfl
@[simp] theorem State.rd_modFeed (n1 : Nat) (g : Feed → Feed) (f : RF) : (s.modFeed n1 g).rd f = s.rd f := rfl
@[simp] theorem State.rd_modStream (n1 : Nat) (g : Stream → Stream) (f : RF) : (s.modStream n1 g).rd f = s.rd f := rfl
@[simp] theorem State.rd_modRing (n1 : Nat) (g : EventRing → EventRing) (f : RF) : (s.modRing n1 g).rd f = s.rd f := rfl
@[simp] theorem State.rd_modJob (n1 : Nat) (g : Job → Job) (f : RF) : (s.modJob n1 g).rd f = s.rd f := rfl
@[simp] theorem State.rd_setFlag (n1 v1 : Nat) (f : RF) : (s.setFlag n1 v1).rd f = s.rd f := rfl
@[simp] theorem State.rd_setHeadWait (n1 : Nat) (w1 : HeadWait) (f : RF) : (s.setHeadWait n1 w1).rd f = s.rd f := rfl
@[simp] theorem State.rd_modRedRing (n1 : Nat) (g : RedRing → RedRing) (f : RF) : (s.modRedRing n1 g).rd f = s.rd f := rfl
@[simp] theorem State.rd_modFellows (g : Fellows → Fellows) (f : RF) : (s.modFellows g).rd f = s.rd f := rfl
@[simp] theorem State.rdBit_setDtime (x : Nat) (f : RF) : (s.setDtime x).rdBit f = s.rdBit f := rfl
@[simp] theorem State.rdBit_setMem (x : List Host.Cell) (f : RF) : (s.setMem x).rdBit f = s.rdBit f := rfl
@[simp] theorem State.rdBit_setBook (x : List (Nat × Entry)) (f : RF) : (s.setBook x).rdBit f = s.rdBit f := rfl
@[simp] theorem State.rdBit_setLearned (x : List Learned) (f : RF) : (s.setLearned x).rdBit f = s.rdBit f := rfl
@[simp] theorem State.rdBit_setBenched (x : List (Nat × Nat)) (f : RF) : (s.setBenched x).rdBit f = s.rdBit f := rfl
@[simp] theorem State.rdBit_setSync (x : List (Nat × SyncObj)) (f : RF) : (s.setSync x).rdBit f = s.rdBit f := rfl
@[simp] theorem State.rdBit_setWaitOrder (x : Nat) (f : RF) : (s.setWaitOrder x).rdBit f = s.rdBit f := rfl
@[simp] theorem State.rdBit_setSignals (x : List Signal) (f : RF) : (s.setSignals x).rdBit f = s.rdBit f := rfl
@[simp] theorem State.rdBit_setDispatch (x : List SegRec) (f : RF) : (s.setDispatch x).rdBit f = s.rdBit f := rfl
@[simp] theorem State.rdBit_setSegOrder (x : Nat) (f : RF) : (s.setSegOrder x).rdBit f = s.rdBit f := rfl
@[simp] theorem State.rdBit_setStreams (x : List (Nat × Stream)) (f : RF) : (s.setStreams x).rdBit f = s.rdBit f := rfl
@[simp] theorem State.rdBit_setRings (x : List (Nat × EventRing)) (f : RF) : (s.setRings x).rdBit f = s.rdBit f := rfl
@[simp] theorem State.rdBit_setHeads (x : List (Nat × HeadWait)) (f : RF) : (s.setHeads x).rdBit f = s.rdBit f := rfl
@[simp] theorem State.rdBit_setHaltAt (x : List (Nat × Nat)) (f : RF) : (s.setHaltAt x).rdBit f = s.rdBit f := rfl
@[simp] theorem State.rdBit_setHeldHeads (x : List Nat) (f : RF) : (s.setHeldHeads x).rdBit f = s.rdBit f := rfl
@[simp] theorem State.rdBit_setQueues (x : List (Nat × Nat)) (f : RF) : (s.setQueues x).rdBit f = s.rdBit f := rfl
@[simp] theorem State.rdBit_setAtc (x : List (Nat × Nat)) (f : RF) : (s.setAtc x).rdBit f = s.rdBit f := rfl
@[simp] theorem State.rdBit_setLowPower (x : List Nat) (f : RF) : (s.setLowPower x).rdBit f = s.rdBit f := rfl
@[simp] theorem State.rdBit_setFlags (x : List (Nat × Nat)) (f : RF) : (s.setFlags x).rdBit f = s.rdBit f := rfl
@[simp] theorem State.rdBit_setOut (x : List Output) (f : RF) : (s.setOut x).rdBit f = s.rdBit f := rfl
@[simp] theorem State.rdBit_setEvents (x : List Event) (f : RF) : (s.setEvents x).rdBit f = s.rdBit f := rfl
@[simp] theorem State.rdBit_setBad (x : List (Nat × Bool)) (f : RF) : (s.setBad x).rdBit f = s.rdBit f := rfl
@[simp] theorem State.rdBit_setPoison (x : List (Nat × Bool)) (f : RF) : (s.setPoison x).rdBit f = s.rdBit f := rfl
@[simp] theorem State.rdBit_setCache (x : List (Nat × List CacheLine)) (f : RF) : (s.setCache x).rdBit f = s.rdBit f := rfl
@[simp] theorem State.rdBit_setFlash (x : List (Nat × FlashObj)) (f : RF) : (s.setFlash x).rdBit f = s.rdBit f := rfl
@[simp] theorem State.rdBit_setFlashDown (x : List Nat) (f : RF) : (s.setFlashDown x).rdBit f = s.rdBit f := rfl
@[simp] theorem State.rdBit_setPorts (x : List (Nat × Port)) (f : RF) : (s.setPorts x).rdBit f = s.rdBit f := rfl
@[simp] theorem State.rdBit_setInbox (x : List (Nat × Msg)) (f : RF) : (s.setInbox x).rdBit f = s.rdBit f := rfl
@[simp] theorem State.rdBit_setFellows (x : Fellows) (f : RF) : (s.setFellows x).rdBit f = s.rdBit f := rfl
@[simp] theorem State.rdBit_setPfc (x : List (Nat × Nat)) (f : RF) : (s.setPfc x).rdBit f = s.rdBit f := rfl
@[simp] theorem State.rdBit_setReqs (x : List Req) (f : RF) : (s.setReqs x).rdBit f = s.rdBit f := rfl
@[simp] theorem State.rdBit_setSerial (x : Nat) (f : RF) : (s.setSerial x).rdBit f = s.rdBit f := rfl
@[simp] theorem State.rdBit_setTag (x : Nat) (f : RF) : (s.setTag x).rdBit f = s.rdBit f := rfl
@[simp] theorem State.rdBit_setChans (x : List (Nat × Chan)) (f : RF) : (s.setChans x).rdBit f = s.rdBit f := rfl
@[simp] theorem State.rdBit_setFeeds (x : List (Nat × Feed)) (f : RF) : (s.setFeeds x).rdBit f = s.rdBit f := rfl
@[simp] theorem State.rdBit_setFences (x : List Fence) (f : RF) : (s.setFences x).rdBit f = s.rdBit f := rfl
@[simp] theorem State.rdBit_setRecoveries (x : List Recovery) (f : RF) : (s.setRecoveries x).rdBit f = s.rdBit f := rfl
@[simp] theorem State.rdBit_setGviews (x : List (Nat × GView)) (f : RF) : (s.setGviews x).rdBit f = s.rdBit f := rfl
@[simp] theorem State.rdBit_setReds (x : List Red) (f : RF) : (s.setReds x).rdBit f = s.rdBit f := rfl
@[simp] theorem State.rdBit_setRedSeq (x : List (Nat × Nat)) (f : RF) : (s.setRedSeq x).rdBit f = s.rdBit f := rfl
@[simp] theorem State.rdBit_setRedRings (x : List (Nat × RedRing)) (f : RF) : (s.setRedRings x).rdBit f = s.rdBit f := rfl
@[simp] theorem State.rdBit_setJobs (x : List (Nat × Job)) (f : RF) : (s.setJobs x).rdBit f = s.rdBit f := rfl
@[simp] theorem State.rdBit_setTraceBufs (x : List (Nat × TraceBuf)) (f : RF) : (s.setTraceBufs x).rdBit f = s.rdBit f := rfl
@[simp] theorem State.rdBit_setTraceTurn (x : List (Nat × Nat)) (f : RF) : (s.setTraceTurn x).rdBit f = s.rdBit f := rfl
@[simp] theorem State.rdBit_setDm (x : DebugModule) (f : RF) : (s.setDm x).rdBit f = s.rdBit f := rfl
@[simp] theorem State.rdBit_setPosted (x : List Posted) (f : RF) : (s.setPosted x).rdBit f = s.rdBit f := rfl
@[simp] theorem State.rdBit_setReferee (x : Referee) (f : RF) : (s.setReferee x).rdBit f = s.rdBit f := rfl
@[simp] theorem State.rdBit_setPower (x : Power) (f : RF) : (s.setPower x).rdBit f = s.rdBit f := rfl
@[simp] theorem State.rdBit_setFreeCount (x : Nat) (f : RF) : (s.setFreeCount x).rdBit f = s.rdBit f := rfl
@[simp] theorem State.rdBit_setLines (x : List (Nat × HartLine)) (f : RF) : (s.setLines x).rdBit f = s.rdBit f := rfl
@[simp] theorem State.rdBit_setHartCsr (x : List (Nat × Nat)) (f : RF) : (s.setHartCsr x).rdBit f = s.rdBit f := rfl
@[simp] theorem State.rdBit_setMsix (x : List (Nat × MsixEntry)) (f : RF) : (s.setMsix x).rdBit f = s.rdBit f := rfl
@[simp] theorem State.rdBit_setMsixCtl (x : List (Nat × Nat)) (f : RF) : (s.setMsixCtl x).rdBit f = s.rdBit f := rfl
@[simp] theorem State.rdBit_setAtsOn (x : List Nat) (f : RF) : (s.setAtsOn x).rdBit f = s.rdBit f := rfl
@[simp] theorem State.rdBit_setHartFull (x : List Nat) (f : RF) : (s.setHartFull x).rdBit f = s.rdBit f := rfl
@[simp] theorem State.rdBit_setCore (c1 : Nat) (k1 : Core) (f : RF) : (s.setCore c1 k1).rdBit f = s.rdBit f := rfl
@[simp] theorem State.rdBit_modCore (c1 : Nat) (g : Core → Core) (f : RF) : (s.modCore c1 g).rdBit f = s.rdBit f := rfl
@[simp] theorem State.rdBit_setEntry (c1 k1 : Nat) (e : Entry) (f : RF) : (s.setEntry c1 k1 e).rdBit f = s.rdBit f := rfl
@[simp] theorem State.rdBit_setHostBytes (a1 : Nat) (l : List (BitVec 8)) (f : RF) : (s.setHostBytes a1 l).rdBit f = s.rdBit f := rfl
@[simp] theorem State.rdBit_raiseAs (code : Code) (sev unit part pay : Nat) (f : RF) : (s.raiseAs code sev unit part pay).rdBit f = s.rdBit f := rfl
@[simp] theorem State.rdBit_raise (code : Code) (unit part pay : Nat) (f : RF) : (s.raise code unit part pay).rdBit f = s.rdBit f := rfl
@[simp] theorem State.rdBit_raiseCore (code : Code) (c1 engine pay : Nat) (f : RF) : (s.raiseCore code c1 engine pay).rdBit f = s.rdBit f := rfl
@[simp] theorem State.rdBit_clearBad (a1 n1 : Nat) (f : RF) : (s.clearBad a1 n1).rdBit f = s.rdBit f := rfl
@[simp] theorem State.rdBit_setObj (o1 : Nat) (x : SyncObj) (f : RF) : (s.setObj o1 x).rdBit f = s.rdBit f := rfl
@[simp] theorem State.rdBit_modPort (n1 : Nat) (g : Port → Port) (f : RF) : (s.modPort n1 g).rdBit f = s.rdBit f := rfl
@[simp] theorem State.rdBit_modChan (n1 : Nat) (g : Chan → Chan) (f : RF) : (s.modChan n1 g).rdBit f = s.rdBit f := rfl
@[simp] theorem State.rdBit_modFeed (n1 : Nat) (g : Feed → Feed) (f : RF) : (s.modFeed n1 g).rdBit f = s.rdBit f := rfl
@[simp] theorem State.rdBit_modStream (n1 : Nat) (g : Stream → Stream) (f : RF) : (s.modStream n1 g).rdBit f = s.rdBit f := rfl
@[simp] theorem State.rdBit_modRing (n1 : Nat) (g : EventRing → EventRing) (f : RF) : (s.modRing n1 g).rdBit f = s.rdBit f := rfl
@[simp] theorem State.rdBit_modJob (n1 : Nat) (g : Job → Job) (f : RF) : (s.modJob n1 g).rdBit f = s.rdBit f := rfl
@[simp] theorem State.rdBit_setFlag (n1 v1 : Nat) (f : RF) : (s.setFlag n1 v1).rdBit f = s.rdBit f := rfl
@[simp] theorem State.rdBit_setHeadWait (n1 : Nat) (w1 : HeadWait) (f : RF) : (s.setHeadWait n1 w1).rdBit f = s.rdBit f := rfl
@[simp] theorem State.rdBit_modRedRing (n1 : Nat) (g : RedRing → RedRing) (f : RF) : (s.modRedRing n1 g).rdBit f = s.rdBit f := rfl
@[simp] theorem State.rdBit_modFellows (g : Fellows → Fellows) (f : RF) : (s.modFellows g).rdBit f = s.rdBit f := rfl
@[simp] theorem State.core_setDtime (x : Nat) (c : Nat) : (s.setDtime x).core c = s.core c := rfl
@[simp] theorem State.core_setRegs (x : List (Nat × Word)) (c : Nat) : (s.setRegs x).core c = s.core c := rfl
@[simp] theorem State.core_setMem (x : List Host.Cell) (c : Nat) : (s.setMem x).core c = s.core c := rfl
@[simp] theorem State.core_setBook (x : List (Nat × Entry)) (c : Nat) : (s.setBook x).core c = s.core c := rfl
@[simp] theorem State.core_setLearned (x : List Learned) (c : Nat) : (s.setLearned x).core c = s.core c := rfl
@[simp] theorem State.core_setBenched (x : List (Nat × Nat)) (c : Nat) : (s.setBenched x).core c = s.core c := rfl
@[simp] theorem State.core_setSync (x : List (Nat × SyncObj)) (c : Nat) : (s.setSync x).core c = s.core c := rfl
@[simp] theorem State.core_setWaitOrder (x : Nat) (c : Nat) : (s.setWaitOrder x).core c = s.core c := rfl
@[simp] theorem State.core_setSignals (x : List Signal) (c : Nat) : (s.setSignals x).core c = s.core c := rfl
@[simp] theorem State.core_setDispatch (x : List SegRec) (c : Nat) : (s.setDispatch x).core c = s.core c := rfl
@[simp] theorem State.core_setSegOrder (x : Nat) (c : Nat) : (s.setSegOrder x).core c = s.core c := rfl
@[simp] theorem State.core_setStreams (x : List (Nat × Stream)) (c : Nat) : (s.setStreams x).core c = s.core c := rfl
@[simp] theorem State.core_setRings (x : List (Nat × EventRing)) (c : Nat) : (s.setRings x).core c = s.core c := rfl
@[simp] theorem State.core_setHeads (x : List (Nat × HeadWait)) (c : Nat) : (s.setHeads x).core c = s.core c := rfl
@[simp] theorem State.core_setHaltAt (x : List (Nat × Nat)) (c : Nat) : (s.setHaltAt x).core c = s.core c := rfl
@[simp] theorem State.core_setHeldHeads (x : List Nat) (c : Nat) : (s.setHeldHeads x).core c = s.core c := rfl
@[simp] theorem State.core_setQueues (x : List (Nat × Nat)) (c : Nat) : (s.setQueues x).core c = s.core c := rfl
@[simp] theorem State.core_setAtc (x : List (Nat × Nat)) (c : Nat) : (s.setAtc x).core c = s.core c := rfl
@[simp] theorem State.core_setLowPower (x : List Nat) (c : Nat) : (s.setLowPower x).core c = s.core c := rfl
@[simp] theorem State.core_setFlags (x : List (Nat × Nat)) (c : Nat) : (s.setFlags x).core c = s.core c := rfl
@[simp] theorem State.core_setOut (x : List Output) (c : Nat) : (s.setOut x).core c = s.core c := rfl
@[simp] theorem State.core_setEvents (x : List Event) (c : Nat) : (s.setEvents x).core c = s.core c := rfl
@[simp] theorem State.core_setBad (x : List (Nat × Bool)) (c : Nat) : (s.setBad x).core c = s.core c := rfl
@[simp] theorem State.core_setPoison (x : List (Nat × Bool)) (c : Nat) : (s.setPoison x).core c = s.core c := rfl
@[simp] theorem State.core_setCache (x : List (Nat × List CacheLine)) (c : Nat) : (s.setCache x).core c = s.core c := rfl
@[simp] theorem State.core_setFlash (x : List (Nat × FlashObj)) (c : Nat) : (s.setFlash x).core c = s.core c := rfl
@[simp] theorem State.core_setFlashDown (x : List Nat) (c : Nat) : (s.setFlashDown x).core c = s.core c := rfl
@[simp] theorem State.core_setPorts (x : List (Nat × Port)) (c : Nat) : (s.setPorts x).core c = s.core c := rfl
@[simp] theorem State.core_setInbox (x : List (Nat × Msg)) (c : Nat) : (s.setInbox x).core c = s.core c := rfl
@[simp] theorem State.core_setFellows (x : Fellows) (c : Nat) : (s.setFellows x).core c = s.core c := rfl
@[simp] theorem State.core_setPfc (x : List (Nat × Nat)) (c : Nat) : (s.setPfc x).core c = s.core c := rfl
@[simp] theorem State.core_setReqs (x : List Req) (c : Nat) : (s.setReqs x).core c = s.core c := rfl
@[simp] theorem State.core_setSerial (x : Nat) (c : Nat) : (s.setSerial x).core c = s.core c := rfl
@[simp] theorem State.core_setTag (x : Nat) (c : Nat) : (s.setTag x).core c = s.core c := rfl
@[simp] theorem State.core_setChans (x : List (Nat × Chan)) (c : Nat) : (s.setChans x).core c = s.core c := rfl
@[simp] theorem State.core_setFeeds (x : List (Nat × Feed)) (c : Nat) : (s.setFeeds x).core c = s.core c := rfl
@[simp] theorem State.core_setFences (x : List Fence) (c : Nat) : (s.setFences x).core c = s.core c := rfl
@[simp] theorem State.core_setRecoveries (x : List Recovery) (c : Nat) : (s.setRecoveries x).core c = s.core c := rfl
@[simp] theorem State.core_setGviews (x : List (Nat × GView)) (c : Nat) : (s.setGviews x).core c = s.core c := rfl
@[simp] theorem State.core_setReds (x : List Red) (c : Nat) : (s.setReds x).core c = s.core c := rfl
@[simp] theorem State.core_setRedSeq (x : List (Nat × Nat)) (c : Nat) : (s.setRedSeq x).core c = s.core c := rfl
@[simp] theorem State.core_setRedRings (x : List (Nat × RedRing)) (c : Nat) : (s.setRedRings x).core c = s.core c := rfl
@[simp] theorem State.core_setJobs (x : List (Nat × Job)) (c : Nat) : (s.setJobs x).core c = s.core c := rfl
@[simp] theorem State.core_setTraceBufs (x : List (Nat × TraceBuf)) (c : Nat) : (s.setTraceBufs x).core c = s.core c := rfl
@[simp] theorem State.core_setTraceTurn (x : List (Nat × Nat)) (c : Nat) : (s.setTraceTurn x).core c = s.core c := rfl
@[simp] theorem State.core_setDm (x : DebugModule) (c : Nat) : (s.setDm x).core c = s.core c := rfl
@[simp] theorem State.core_setPosted (x : List Posted) (c : Nat) : (s.setPosted x).core c = s.core c := rfl
@[simp] theorem State.core_setReferee (x : Referee) (c : Nat) : (s.setReferee x).core c = s.core c := rfl
@[simp] theorem State.core_setPower (x : Power) (c : Nat) : (s.setPower x).core c = s.core c := rfl
@[simp] theorem State.core_setFreeCount (x : Nat) (c : Nat) : (s.setFreeCount x).core c = s.core c := rfl
@[simp] theorem State.core_setLines (x : List (Nat × HartLine)) (c : Nat) : (s.setLines x).core c = s.core c := rfl
@[simp] theorem State.core_setHartCsr (x : List (Nat × Nat)) (c : Nat) : (s.setHartCsr x).core c = s.core c := rfl
@[simp] theorem State.core_setMsix (x : List (Nat × MsixEntry)) (c : Nat) : (s.setMsix x).core c = s.core c := rfl
@[simp] theorem State.core_setMsixCtl (x : List (Nat × Nat)) (c : Nat) : (s.setMsixCtl x).core c = s.core c := rfl
@[simp] theorem State.core_setAtsOn (x : List Nat) (c : Nat) : (s.setAtsOn x).core c = s.core c := rfl
@[simp] theorem State.core_setHartFull (x : List Nat) (c : Nat) : (s.setHartFull x).core c = s.core c := rfl
@[simp] theorem State.core_setReg (a1 : Nat) (v1 : Word) (c : Nat) : (s.setReg a1 v1).core c = s.core c := rfl
@[simp] theorem State.core_wr (f1 : RF) (v1 : Nat) (c : Nat) : (s.wr f1 v1).core c = s.core c := rfl
@[simp] theorem State.core_setEntry (c1 k1 : Nat) (e : Entry) (c : Nat) : (s.setEntry c1 k1 e).core c = s.core c := rfl
@[simp] theorem State.core_setHostBytes (a1 : Nat) (l : List (BitVec 8)) (c : Nat) : (s.setHostBytes a1 l).core c = s.core c := rfl
@[simp] theorem State.core_raiseAs (code : Code) (sev unit part pay : Nat) (c : Nat) : (s.raiseAs code sev unit part pay).core c = s.core c := rfl
@[simp] theorem State.core_raise (code : Code) (unit part pay : Nat) (c : Nat) : (s.raise code unit part pay).core c = s.core c := rfl
@[simp] theorem State.core_raiseCore (code : Code) (c1 engine pay : Nat) (c : Nat) : (s.raiseCore code c1 engine pay).core c = s.core c := rfl
@[simp] theorem State.core_clearBad (a1 n1 : Nat) (c : Nat) : (s.clearBad a1 n1).core c = s.core c := rfl
@[simp] theorem State.core_setObj (o1 : Nat) (x : SyncObj) (c : Nat) : (s.setObj o1 x).core c = s.core c := rfl
@[simp] theorem State.core_modPort (n1 : Nat) (g : Port → Port) (c : Nat) : (s.modPort n1 g).core c = s.core c := rfl
@[simp] theorem State.core_modChan (n1 : Nat) (g : Chan → Chan) (c : Nat) : (s.modChan n1 g).core c = s.core c := rfl
@[simp] theorem State.core_modFeed (n1 : Nat) (g : Feed → Feed) (c : Nat) : (s.modFeed n1 g).core c = s.core c := rfl
@[simp] theorem State.core_modStream (n1 : Nat) (g : Stream → Stream) (c : Nat) : (s.modStream n1 g).core c = s.core c := rfl
@[simp] theorem State.core_modRing (n1 : Nat) (g : EventRing → EventRing) (c : Nat) : (s.modRing n1 g).core c = s.core c := rfl
@[simp] theorem State.core_modJob (n1 : Nat) (g : Job → Job) (c : Nat) : (s.modJob n1 g).core c = s.core c := rfl
@[simp] theorem State.core_setFlag (n1 v1 : Nat) (c : Nat) : (s.setFlag n1 v1).core c = s.core c := rfl
@[simp] theorem State.core_setHeadWait (n1 : Nat) (w1 : HeadWait) (c : Nat) : (s.setHeadWait n1 w1).core c = s.core c := rfl
@[simp] theorem State.core_modRedRing (n1 : Nat) (g : RedRing → RedRing) (c : Nat) : (s.modRedRing n1 g).core c = s.core c := rfl
@[simp] theorem State.core_modFellows (g : Fellows → Fellows) (c : Nat) : (s.modFellows g).core c = s.core c := rfl
@[simp] theorem State.core_count (a1 n1 : Nat) (c : Nat) : (s.count a1 n1).core c = s.core c := State.core_congr (by simp) c
@[simp] theorem State.obj_setDtime (x : Nat) (o : Nat) : (s.setDtime x).obj o = s.obj o := rfl
@[simp] theorem State.obj_setRegs (x : List (Nat × Word)) (o : Nat) : (s.setRegs x).obj o = s.obj o := rfl
@[simp] theorem State.obj_setMem (x : List Host.Cell) (o : Nat) : (s.setMem x).obj o = s.obj o := rfl
@[simp] theorem State.obj_setBook (x : List (Nat × Entry)) (o : Nat) : (s.setBook x).obj o = s.obj o := rfl
@[simp] theorem State.obj_setLearned (x : List Learned) (o : Nat) : (s.setLearned x).obj o = s.obj o := rfl
@[simp] theorem State.obj_setBenched (x : List (Nat × Nat)) (o : Nat) : (s.setBenched x).obj o = s.obj o := rfl
@[simp] theorem State.obj_setWaitOrder (x : Nat) (o : Nat) : (s.setWaitOrder x).obj o = s.obj o := rfl
@[simp] theorem State.obj_setSignals (x : List Signal) (o : Nat) : (s.setSignals x).obj o = s.obj o := rfl
@[simp] theorem State.obj_setDispatch (x : List SegRec) (o : Nat) : (s.setDispatch x).obj o = s.obj o := rfl
@[simp] theorem State.obj_setSegOrder (x : Nat) (o : Nat) : (s.setSegOrder x).obj o = s.obj o := rfl
@[simp] theorem State.obj_setStreams (x : List (Nat × Stream)) (o : Nat) : (s.setStreams x).obj o = s.obj o := rfl
@[simp] theorem State.obj_setRings (x : List (Nat × EventRing)) (o : Nat) : (s.setRings x).obj o = s.obj o := rfl
@[simp] theorem State.obj_setHeads (x : List (Nat × HeadWait)) (o : Nat) : (s.setHeads x).obj o = s.obj o := rfl
@[simp] theorem State.obj_setHaltAt (x : List (Nat × Nat)) (o : Nat) : (s.setHaltAt x).obj o = s.obj o := rfl
@[simp] theorem State.obj_setHeldHeads (x : List Nat) (o : Nat) : (s.setHeldHeads x).obj o = s.obj o := rfl
@[simp] theorem State.obj_setQueues (x : List (Nat × Nat)) (o : Nat) : (s.setQueues x).obj o = s.obj o := rfl
@[simp] theorem State.obj_setAtc (x : List (Nat × Nat)) (o : Nat) : (s.setAtc x).obj o = s.obj o := rfl
@[simp] theorem State.obj_setLowPower (x : List Nat) (o : Nat) : (s.setLowPower x).obj o = s.obj o := rfl
@[simp] theorem State.obj_setFlags (x : List (Nat × Nat)) (o : Nat) : (s.setFlags x).obj o = s.obj o := rfl
@[simp] theorem State.obj_setOut (x : List Output) (o : Nat) : (s.setOut x).obj o = s.obj o := rfl
@[simp] theorem State.obj_setEvents (x : List Event) (o : Nat) : (s.setEvents x).obj o = s.obj o := rfl
@[simp] theorem State.obj_setBad (x : List (Nat × Bool)) (o : Nat) : (s.setBad x).obj o = s.obj o := rfl
@[simp] theorem State.obj_setPoison (x : List (Nat × Bool)) (o : Nat) : (s.setPoison x).obj o = s.obj o := rfl
@[simp] theorem State.obj_setCache (x : List (Nat × List CacheLine)) (o : Nat) : (s.setCache x).obj o = s.obj o := rfl
@[simp] theorem State.obj_setFlash (x : List (Nat × FlashObj)) (o : Nat) : (s.setFlash x).obj o = s.obj o := rfl
@[simp] theorem State.obj_setFlashDown (x : List Nat) (o : Nat) : (s.setFlashDown x).obj o = s.obj o := rfl
@[simp] theorem State.obj_setPorts (x : List (Nat × Port)) (o : Nat) : (s.setPorts x).obj o = s.obj o := rfl
@[simp] theorem State.obj_setInbox (x : List (Nat × Msg)) (o : Nat) : (s.setInbox x).obj o = s.obj o := rfl
@[simp] theorem State.obj_setFellows (x : Fellows) (o : Nat) : (s.setFellows x).obj o = s.obj o := rfl
@[simp] theorem State.obj_setPfc (x : List (Nat × Nat)) (o : Nat) : (s.setPfc x).obj o = s.obj o := rfl
@[simp] theorem State.obj_setReqs (x : List Req) (o : Nat) : (s.setReqs x).obj o = s.obj o := rfl
@[simp] theorem State.obj_setSerial (x : Nat) (o : Nat) : (s.setSerial x).obj o = s.obj o := rfl
@[simp] theorem State.obj_setTag (x : Nat) (o : Nat) : (s.setTag x).obj o = s.obj o := rfl
@[simp] theorem State.obj_setChans (x : List (Nat × Chan)) (o : Nat) : (s.setChans x).obj o = s.obj o := rfl
@[simp] theorem State.obj_setFeeds (x : List (Nat × Feed)) (o : Nat) : (s.setFeeds x).obj o = s.obj o := rfl
@[simp] theorem State.obj_setFences (x : List Fence) (o : Nat) : (s.setFences x).obj o = s.obj o := rfl
@[simp] theorem State.obj_setRecoveries (x : List Recovery) (o : Nat) : (s.setRecoveries x).obj o = s.obj o := rfl
@[simp] theorem State.obj_setGviews (x : List (Nat × GView)) (o : Nat) : (s.setGviews x).obj o = s.obj o := rfl
@[simp] theorem State.obj_setReds (x : List Red) (o : Nat) : (s.setReds x).obj o = s.obj o := rfl
@[simp] theorem State.obj_setRedSeq (x : List (Nat × Nat)) (o : Nat) : (s.setRedSeq x).obj o = s.obj o := rfl
@[simp] theorem State.obj_setRedRings (x : List (Nat × RedRing)) (o : Nat) : (s.setRedRings x).obj o = s.obj o := rfl
@[simp] theorem State.obj_setJobs (x : List (Nat × Job)) (o : Nat) : (s.setJobs x).obj o = s.obj o := rfl
@[simp] theorem State.obj_setTraceBufs (x : List (Nat × TraceBuf)) (o : Nat) : (s.setTraceBufs x).obj o = s.obj o := rfl
@[simp] theorem State.obj_setTraceTurn (x : List (Nat × Nat)) (o : Nat) : (s.setTraceTurn x).obj o = s.obj o := rfl
@[simp] theorem State.obj_setDm (x : DebugModule) (o : Nat) : (s.setDm x).obj o = s.obj o := rfl
@[simp] theorem State.obj_setPosted (x : List Posted) (o : Nat) : (s.setPosted x).obj o = s.obj o := rfl
@[simp] theorem State.obj_setReferee (x : Referee) (o : Nat) : (s.setReferee x).obj o = s.obj o := rfl
@[simp] theorem State.obj_setPower (x : Power) (o : Nat) : (s.setPower x).obj o = s.obj o := rfl
@[simp] theorem State.obj_setFreeCount (x : Nat) (o : Nat) : (s.setFreeCount x).obj o = s.obj o := rfl
@[simp] theorem State.obj_setLines (x : List (Nat × HartLine)) (o : Nat) : (s.setLines x).obj o = s.obj o := rfl
@[simp] theorem State.obj_setHartCsr (x : List (Nat × Nat)) (o : Nat) : (s.setHartCsr x).obj o = s.obj o := rfl
@[simp] theorem State.obj_setMsix (x : List (Nat × MsixEntry)) (o : Nat) : (s.setMsix x).obj o = s.obj o := rfl
@[simp] theorem State.obj_setMsixCtl (x : List (Nat × Nat)) (o : Nat) : (s.setMsixCtl x).obj o = s.obj o := rfl
@[simp] theorem State.obj_setAtsOn (x : List Nat) (o : Nat) : (s.setAtsOn x).obj o = s.obj o := rfl
@[simp] theorem State.obj_setHartFull (x : List Nat) (o : Nat) : (s.setHartFull x).obj o = s.obj o := rfl
@[simp] theorem State.obj_setReg (a1 : Nat) (v1 : Word) (o : Nat) : (s.setReg a1 v1).obj o = s.obj o := rfl
@[simp] theorem State.obj_wr (f1 : RF) (v1 : Nat) (o : Nat) : (s.wr f1 v1).obj o = s.obj o := rfl
@[simp] theorem State.obj_setCore (c1 : Nat) (k1 : Core) (o : Nat) : (s.setCore c1 k1).obj o = s.obj o := rfl
@[simp] theorem State.obj_modCore (c1 : Nat) (g : Core → Core) (o : Nat) : (s.modCore c1 g).obj o = s.obj o := rfl
@[simp] theorem State.obj_setEntry (c1 k1 : Nat) (e : Entry) (o : Nat) : (s.setEntry c1 k1 e).obj o = s.obj o := rfl
@[simp] theorem State.obj_setHostBytes (a1 : Nat) (l : List (BitVec 8)) (o : Nat) : (s.setHostBytes a1 l).obj o = s.obj o := rfl
@[simp] theorem State.obj_raiseAs (code : Code) (sev unit part pay : Nat) (o : Nat) : (s.raiseAs code sev unit part pay).obj o = s.obj o := rfl
@[simp] theorem State.obj_raise (code : Code) (unit part pay : Nat) (o : Nat) : (s.raise code unit part pay).obj o = s.obj o := rfl
@[simp] theorem State.obj_raiseCore (code : Code) (c1 engine pay : Nat) (o : Nat) : (s.raiseCore code c1 engine pay).obj o = s.obj o := rfl
@[simp] theorem State.obj_clearBad (a1 n1 : Nat) (o : Nat) : (s.clearBad a1 n1).obj o = s.obj o := rfl
@[simp] theorem State.obj_modPort (n1 : Nat) (g : Port → Port) (o : Nat) : (s.modPort n1 g).obj o = s.obj o := rfl
@[simp] theorem State.obj_modChan (n1 : Nat) (g : Chan → Chan) (o : Nat) : (s.modChan n1 g).obj o = s.obj o := rfl
@[simp] theorem State.obj_modFeed (n1 : Nat) (g : Feed → Feed) (o : Nat) : (s.modFeed n1 g).obj o = s.obj o := rfl
@[simp] theorem State.obj_modStream (n1 : Nat) (g : Stream → Stream) (o : Nat) : (s.modStream n1 g).obj o = s.obj o := rfl
@[simp] theorem State.obj_modRing (n1 : Nat) (g : EventRing → EventRing) (o : Nat) : (s.modRing n1 g).obj o = s.obj o := rfl
@[simp] theorem State.obj_modJob (n1 : Nat) (g : Job → Job) (o : Nat) : (s.modJob n1 g).obj o = s.obj o := rfl
@[simp] theorem State.obj_setFlag (n1 v1 : Nat) (o : Nat) : (s.setFlag n1 v1).obj o = s.obj o := rfl
@[simp] theorem State.obj_setHeadWait (n1 : Nat) (w1 : HeadWait) (o : Nat) : (s.setHeadWait n1 w1).obj o = s.obj o := rfl
@[simp] theorem State.obj_modRedRing (n1 : Nat) (g : RedRing → RedRing) (o : Nat) : (s.modRedRing n1 g).obj o = s.obj o := rfl
@[simp] theorem State.obj_modFellows (g : Fellows → Fellows) (o : Nat) : (s.modFellows g).obj o = s.obj o := rfl
@[simp] theorem State.obj_count (a1 n1 : Nat) (o : Nat) : (s.count a1 n1).obj o = s.obj o := by unfold State.obj; simp
@[simp] theorem State.entry_setDtime (x : Nat) (c k : Nat) : (s.setDtime x).entry c k = s.entry c k := rfl
@[simp] theorem State.entry_setRegs (x : List (Nat × Word)) (c k : Nat) : (s.setRegs x).entry c k = s.entry c k := rfl
@[simp] theorem State.entry_setMem (x : List Host.Cell) (c k : Nat) : (s.setMem x).entry c k = s.entry c k := rfl
@[simp] theorem State.entry_setLearned (x : List Learned) (c k : Nat) : (s.setLearned x).entry c k = s.entry c k := rfl
@[simp] theorem State.entry_setBenched (x : List (Nat × Nat)) (c k : Nat) : (s.setBenched x).entry c k = s.entry c k := rfl
@[simp] theorem State.entry_setSync (x : List (Nat × SyncObj)) (c k : Nat) : (s.setSync x).entry c k = s.entry c k := rfl
@[simp] theorem State.entry_setWaitOrder (x : Nat) (c k : Nat) : (s.setWaitOrder x).entry c k = s.entry c k := rfl
@[simp] theorem State.entry_setSignals (x : List Signal) (c k : Nat) : (s.setSignals x).entry c k = s.entry c k := rfl
@[simp] theorem State.entry_setDispatch (x : List SegRec) (c k : Nat) : (s.setDispatch x).entry c k = s.entry c k := rfl
@[simp] theorem State.entry_setSegOrder (x : Nat) (c k : Nat) : (s.setSegOrder x).entry c k = s.entry c k := rfl
@[simp] theorem State.entry_setStreams (x : List (Nat × Stream)) (c k : Nat) : (s.setStreams x).entry c k = s.entry c k := rfl
@[simp] theorem State.entry_setRings (x : List (Nat × EventRing)) (c k : Nat) : (s.setRings x).entry c k = s.entry c k := rfl
@[simp] theorem State.entry_setHeads (x : List (Nat × HeadWait)) (c k : Nat) : (s.setHeads x).entry c k = s.entry c k := rfl
@[simp] theorem State.entry_setHaltAt (x : List (Nat × Nat)) (c k : Nat) : (s.setHaltAt x).entry c k = s.entry c k := rfl
@[simp] theorem State.entry_setHeldHeads (x : List Nat) (c k : Nat) : (s.setHeldHeads x).entry c k = s.entry c k := rfl
@[simp] theorem State.entry_setQueues (x : List (Nat × Nat)) (c k : Nat) : (s.setQueues x).entry c k = s.entry c k := rfl
@[simp] theorem State.entry_setAtc (x : List (Nat × Nat)) (c k : Nat) : (s.setAtc x).entry c k = s.entry c k := rfl
@[simp] theorem State.entry_setLowPower (x : List Nat) (c k : Nat) : (s.setLowPower x).entry c k = s.entry c k := rfl
@[simp] theorem State.entry_setFlags (x : List (Nat × Nat)) (c k : Nat) : (s.setFlags x).entry c k = s.entry c k := rfl
@[simp] theorem State.entry_setOut (x : List Output) (c k : Nat) : (s.setOut x).entry c k = s.entry c k := rfl
@[simp] theorem State.entry_setEvents (x : List Event) (c k : Nat) : (s.setEvents x).entry c k = s.entry c k := rfl
@[simp] theorem State.entry_setBad (x : List (Nat × Bool)) (c k : Nat) : (s.setBad x).entry c k = s.entry c k := rfl
@[simp] theorem State.entry_setPoison (x : List (Nat × Bool)) (c k : Nat) : (s.setPoison x).entry c k = s.entry c k := rfl
@[simp] theorem State.entry_setCache (x : List (Nat × List CacheLine)) (c k : Nat) : (s.setCache x).entry c k = s.entry c k := rfl
@[simp] theorem State.entry_setFlash (x : List (Nat × FlashObj)) (c k : Nat) : (s.setFlash x).entry c k = s.entry c k := rfl
@[simp] theorem State.entry_setFlashDown (x : List Nat) (c k : Nat) : (s.setFlashDown x).entry c k = s.entry c k := rfl
@[simp] theorem State.entry_setPorts (x : List (Nat × Port)) (c k : Nat) : (s.setPorts x).entry c k = s.entry c k := rfl
@[simp] theorem State.entry_setInbox (x : List (Nat × Msg)) (c k : Nat) : (s.setInbox x).entry c k = s.entry c k := rfl
@[simp] theorem State.entry_setFellows (x : Fellows) (c k : Nat) : (s.setFellows x).entry c k = s.entry c k := rfl
@[simp] theorem State.entry_setPfc (x : List (Nat × Nat)) (c k : Nat) : (s.setPfc x).entry c k = s.entry c k := rfl
@[simp] theorem State.entry_setReqs (x : List Req) (c k : Nat) : (s.setReqs x).entry c k = s.entry c k := rfl
@[simp] theorem State.entry_setSerial (x : Nat) (c k : Nat) : (s.setSerial x).entry c k = s.entry c k := rfl
@[simp] theorem State.entry_setTag (x : Nat) (c k : Nat) : (s.setTag x).entry c k = s.entry c k := rfl
@[simp] theorem State.entry_setChans (x : List (Nat × Chan)) (c k : Nat) : (s.setChans x).entry c k = s.entry c k := rfl
@[simp] theorem State.entry_setFeeds (x : List (Nat × Feed)) (c k : Nat) : (s.setFeeds x).entry c k = s.entry c k := rfl
@[simp] theorem State.entry_setFences (x : List Fence) (c k : Nat) : (s.setFences x).entry c k = s.entry c k := rfl
@[simp] theorem State.entry_setRecoveries (x : List Recovery) (c k : Nat) : (s.setRecoveries x).entry c k = s.entry c k := rfl
@[simp] theorem State.entry_setGviews (x : List (Nat × GView)) (c k : Nat) : (s.setGviews x).entry c k = s.entry c k := rfl
@[simp] theorem State.entry_setReds (x : List Red) (c k : Nat) : (s.setReds x).entry c k = s.entry c k := rfl
@[simp] theorem State.entry_setRedSeq (x : List (Nat × Nat)) (c k : Nat) : (s.setRedSeq x).entry c k = s.entry c k := rfl
@[simp] theorem State.entry_setRedRings (x : List (Nat × RedRing)) (c k : Nat) : (s.setRedRings x).entry c k = s.entry c k := rfl
@[simp] theorem State.entry_setJobs (x : List (Nat × Job)) (c k : Nat) : (s.setJobs x).entry c k = s.entry c k := rfl
@[simp] theorem State.entry_setTraceBufs (x : List (Nat × TraceBuf)) (c k : Nat) : (s.setTraceBufs x).entry c k = s.entry c k := rfl
@[simp] theorem State.entry_setTraceTurn (x : List (Nat × Nat)) (c k : Nat) : (s.setTraceTurn x).entry c k = s.entry c k := rfl
@[simp] theorem State.entry_setDm (x : DebugModule) (c k : Nat) : (s.setDm x).entry c k = s.entry c k := rfl
@[simp] theorem State.entry_setPosted (x : List Posted) (c k : Nat) : (s.setPosted x).entry c k = s.entry c k := rfl
@[simp] theorem State.entry_setReferee (x : Referee) (c k : Nat) : (s.setReferee x).entry c k = s.entry c k := rfl
@[simp] theorem State.entry_setPower (x : Power) (c k : Nat) : (s.setPower x).entry c k = s.entry c k := rfl
@[simp] theorem State.entry_setFreeCount (x : Nat) (c k : Nat) : (s.setFreeCount x).entry c k = s.entry c k := rfl
@[simp] theorem State.entry_setLines (x : List (Nat × HartLine)) (c k : Nat) : (s.setLines x).entry c k = s.entry c k := rfl
@[simp] theorem State.entry_setHartCsr (x : List (Nat × Nat)) (c k : Nat) : (s.setHartCsr x).entry c k = s.entry c k := rfl
@[simp] theorem State.entry_setMsix (x : List (Nat × MsixEntry)) (c k : Nat) : (s.setMsix x).entry c k = s.entry c k := rfl
@[simp] theorem State.entry_setMsixCtl (x : List (Nat × Nat)) (c k : Nat) : (s.setMsixCtl x).entry c k = s.entry c k := rfl
@[simp] theorem State.entry_setAtsOn (x : List Nat) (c k : Nat) : (s.setAtsOn x).entry c k = s.entry c k := rfl
@[simp] theorem State.entry_setHartFull (x : List Nat) (c k : Nat) : (s.setHartFull x).entry c k = s.entry c k := rfl
@[simp] theorem State.entry_setReg (a1 : Nat) (v1 : Word) (c k : Nat) : (s.setReg a1 v1).entry c k = s.entry c k := rfl
@[simp] theorem State.entry_wr (f1 : RF) (v1 : Nat) (c k : Nat) : (s.wr f1 v1).entry c k = s.entry c k := rfl
@[simp] theorem State.entry_setCore (c1 : Nat) (k1 : Core) (c k : Nat) : (s.setCore c1 k1).entry c k = s.entry c k := rfl
@[simp] theorem State.entry_modCore (c1 : Nat) (g : Core → Core) (c k : Nat) : (s.modCore c1 g).entry c k = s.entry c k := rfl
@[simp] theorem State.entry_setHostBytes (a1 : Nat) (l : List (BitVec 8)) (c k : Nat) : (s.setHostBytes a1 l).entry c k = s.entry c k := rfl
@[simp] theorem State.entry_raiseAs (code : Code) (sev unit part pay : Nat) (c k : Nat) : (s.raiseAs code sev unit part pay).entry c k = s.entry c k := rfl
@[simp] theorem State.entry_raise (code : Code) (unit part pay : Nat) (c k : Nat) : (s.raise code unit part pay).entry c k = s.entry c k := rfl
@[simp] theorem State.entry_raiseCore (code : Code) (c1 engine pay : Nat) (c k : Nat) : (s.raiseCore code c1 engine pay).entry c k = s.entry c k := rfl
@[simp] theorem State.entry_clearBad (a1 n1 : Nat) (c k : Nat) : (s.clearBad a1 n1).entry c k = s.entry c k := rfl
@[simp] theorem State.entry_setObj (o1 : Nat) (x : SyncObj) (c k : Nat) : (s.setObj o1 x).entry c k = s.entry c k := rfl
@[simp] theorem State.entry_modPort (n1 : Nat) (g : Port → Port) (c k : Nat) : (s.modPort n1 g).entry c k = s.entry c k := rfl
@[simp] theorem State.entry_modChan (n1 : Nat) (g : Chan → Chan) (c k : Nat) : (s.modChan n1 g).entry c k = s.entry c k := rfl
@[simp] theorem State.entry_modFeed (n1 : Nat) (g : Feed → Feed) (c k : Nat) : (s.modFeed n1 g).entry c k = s.entry c k := rfl
@[simp] theorem State.entry_modStream (n1 : Nat) (g : Stream → Stream) (c k : Nat) : (s.modStream n1 g).entry c k = s.entry c k := rfl
@[simp] theorem State.entry_modRing (n1 : Nat) (g : EventRing → EventRing) (c k : Nat) : (s.modRing n1 g).entry c k = s.entry c k := rfl
@[simp] theorem State.entry_modJob (n1 : Nat) (g : Job → Job) (c k : Nat) : (s.modJob n1 g).entry c k = s.entry c k := rfl
@[simp] theorem State.entry_setFlag (n1 v1 : Nat) (c k : Nat) : (s.setFlag n1 v1).entry c k = s.entry c k := rfl
@[simp] theorem State.entry_setHeadWait (n1 : Nat) (w1 : HeadWait) (c k : Nat) : (s.setHeadWait n1 w1).entry c k = s.entry c k := rfl
@[simp] theorem State.entry_modRedRing (n1 : Nat) (g : RedRing → RedRing) (c k : Nat) : (s.modRedRing n1 g).entry c k = s.entry c k := rfl
@[simp] theorem State.entry_modFellows (g : Fellows → Fellows) (c k : Nat) : (s.modFellows g).entry c k = s.entry c k := rfl
@[simp] theorem State.entry_count (a1 n1 : Nat) (c k : Nat) : (s.count a1 n1).entry c k = s.entry c k := State.entry_congr (by simp) c k
@[simp] theorem State.byte_setDtime (x : Nat) (a : Nat) : (s.setDtime x).byte a = s.byte a := rfl
@[simp] theorem State.byte_setRegs (x : List (Nat × Word)) (a : Nat) : (s.setRegs x).byte a = s.byte a := rfl
@[simp] theorem State.byte_setLearned (x : List Learned) (a : Nat) : (s.setLearned x).byte a = s.byte a := rfl
@[simp] theorem State.byte_setBenched (x : List (Nat × Nat)) (a : Nat) : (s.setBenched x).byte a = s.byte a := rfl
@[simp] theorem State.byte_setSync (x : List (Nat × SyncObj)) (a : Nat) : (s.setSync x).byte a = s.byte a := rfl
@[simp] theorem State.byte_setWaitOrder (x : Nat) (a : Nat) : (s.setWaitOrder x).byte a = s.byte a := rfl
@[simp] theorem State.byte_setSignals (x : List Signal) (a : Nat) : (s.setSignals x).byte a = s.byte a := rfl
@[simp] theorem State.byte_setDispatch (x : List SegRec) (a : Nat) : (s.setDispatch x).byte a = s.byte a := rfl
@[simp] theorem State.byte_setSegOrder (x : Nat) (a : Nat) : (s.setSegOrder x).byte a = s.byte a := rfl
@[simp] theorem State.byte_setStreams (x : List (Nat × Stream)) (a : Nat) : (s.setStreams x).byte a = s.byte a := rfl
@[simp] theorem State.byte_setRings (x : List (Nat × EventRing)) (a : Nat) : (s.setRings x).byte a = s.byte a := rfl
@[simp] theorem State.byte_setHeads (x : List (Nat × HeadWait)) (a : Nat) : (s.setHeads x).byte a = s.byte a := rfl
@[simp] theorem State.byte_setHaltAt (x : List (Nat × Nat)) (a : Nat) : (s.setHaltAt x).byte a = s.byte a := rfl
@[simp] theorem State.byte_setHeldHeads (x : List Nat) (a : Nat) : (s.setHeldHeads x).byte a = s.byte a := rfl
@[simp] theorem State.byte_setQueues (x : List (Nat × Nat)) (a : Nat) : (s.setQueues x).byte a = s.byte a := rfl
@[simp] theorem State.byte_setAtc (x : List (Nat × Nat)) (a : Nat) : (s.setAtc x).byte a = s.byte a := rfl
@[simp] theorem State.byte_setLowPower (x : List Nat) (a : Nat) : (s.setLowPower x).byte a = s.byte a := rfl
@[simp] theorem State.byte_setFlags (x : List (Nat × Nat)) (a : Nat) : (s.setFlags x).byte a = s.byte a := rfl
@[simp] theorem State.byte_setOut (x : List Output) (a : Nat) : (s.setOut x).byte a = s.byte a := rfl
@[simp] theorem State.byte_setEvents (x : List Event) (a : Nat) : (s.setEvents x).byte a = s.byte a := rfl
@[simp] theorem State.byte_setBad (x : List (Nat × Bool)) (a : Nat) : (s.setBad x).byte a = s.byte a := rfl
@[simp] theorem State.byte_setPoison (x : List (Nat × Bool)) (a : Nat) : (s.setPoison x).byte a = s.byte a := rfl
@[simp] theorem State.byte_setCache (x : List (Nat × List CacheLine)) (a : Nat) : (s.setCache x).byte a = s.byte a := rfl
@[simp] theorem State.byte_setFlash (x : List (Nat × FlashObj)) (a : Nat) : (s.setFlash x).byte a = s.byte a := rfl
@[simp] theorem State.byte_setFlashDown (x : List Nat) (a : Nat) : (s.setFlashDown x).byte a = s.byte a := rfl
@[simp] theorem State.byte_setPorts (x : List (Nat × Port)) (a : Nat) : (s.setPorts x).byte a = s.byte a := rfl
@[simp] theorem State.byte_setInbox (x : List (Nat × Msg)) (a : Nat) : (s.setInbox x).byte a = s.byte a := rfl
@[simp] theorem State.byte_setFellows (x : Fellows) (a : Nat) : (s.setFellows x).byte a = s.byte a := rfl
@[simp] theorem State.byte_setPfc (x : List (Nat × Nat)) (a : Nat) : (s.setPfc x).byte a = s.byte a := rfl
@[simp] theorem State.byte_setReqs (x : List Req) (a : Nat) : (s.setReqs x).byte a = s.byte a := rfl
@[simp] theorem State.byte_setSerial (x : Nat) (a : Nat) : (s.setSerial x).byte a = s.byte a := rfl
@[simp] theorem State.byte_setTag (x : Nat) (a : Nat) : (s.setTag x).byte a = s.byte a := rfl
@[simp] theorem State.byte_setChans (x : List (Nat × Chan)) (a : Nat) : (s.setChans x).byte a = s.byte a := rfl
@[simp] theorem State.byte_setFeeds (x : List (Nat × Feed)) (a : Nat) : (s.setFeeds x).byte a = s.byte a := rfl
@[simp] theorem State.byte_setFences (x : List Fence) (a : Nat) : (s.setFences x).byte a = s.byte a := rfl
@[simp] theorem State.byte_setRecoveries (x : List Recovery) (a : Nat) : (s.setRecoveries x).byte a = s.byte a := rfl
@[simp] theorem State.byte_setGviews (x : List (Nat × GView)) (a : Nat) : (s.setGviews x).byte a = s.byte a := rfl
@[simp] theorem State.byte_setReds (x : List Red) (a : Nat) : (s.setReds x).byte a = s.byte a := rfl
@[simp] theorem State.byte_setRedSeq (x : List (Nat × Nat)) (a : Nat) : (s.setRedSeq x).byte a = s.byte a := rfl
@[simp] theorem State.byte_setRedRings (x : List (Nat × RedRing)) (a : Nat) : (s.setRedRings x).byte a = s.byte a := rfl
@[simp] theorem State.byte_setJobs (x : List (Nat × Job)) (a : Nat) : (s.setJobs x).byte a = s.byte a := rfl
@[simp] theorem State.byte_setTraceBufs (x : List (Nat × TraceBuf)) (a : Nat) : (s.setTraceBufs x).byte a = s.byte a := rfl
@[simp] theorem State.byte_setTraceTurn (x : List (Nat × Nat)) (a : Nat) : (s.setTraceTurn x).byte a = s.byte a := rfl
@[simp] theorem State.byte_setDm (x : DebugModule) (a : Nat) : (s.setDm x).byte a = s.byte a := rfl
@[simp] theorem State.byte_setPosted (x : List Posted) (a : Nat) : (s.setPosted x).byte a = s.byte a := rfl
@[simp] theorem State.byte_setReferee (x : Referee) (a : Nat) : (s.setReferee x).byte a = s.byte a := rfl
@[simp] theorem State.byte_setPower (x : Power) (a : Nat) : (s.setPower x).byte a = s.byte a := rfl
@[simp] theorem State.byte_setFreeCount (x : Nat) (a : Nat) : (s.setFreeCount x).byte a = s.byte a := rfl
@[simp] theorem State.byte_setLines (x : List (Nat × HartLine)) (a : Nat) : (s.setLines x).byte a = s.byte a := rfl
@[simp] theorem State.byte_setHartCsr (x : List (Nat × Nat)) (a : Nat) : (s.setHartCsr x).byte a = s.byte a := rfl
@[simp] theorem State.byte_setMsix (x : List (Nat × MsixEntry)) (a : Nat) : (s.setMsix x).byte a = s.byte a := rfl
@[simp] theorem State.byte_setMsixCtl (x : List (Nat × Nat)) (a : Nat) : (s.setMsixCtl x).byte a = s.byte a := rfl
@[simp] theorem State.byte_setAtsOn (x : List Nat) (a : Nat) : (s.setAtsOn x).byte a = s.byte a := rfl
@[simp] theorem State.byte_setHartFull (x : List Nat) (a : Nat) : (s.setHartFull x).byte a = s.byte a := rfl
@[simp] theorem State.byte_setReg (a1 : Nat) (v1 : Word) (a : Nat) : (s.setReg a1 v1).byte a = s.byte a := rfl
@[simp] theorem State.byte_wr (f1 : RF) (v1 : Nat) (a : Nat) : (s.wr f1 v1).byte a = s.byte a := rfl
@[simp] theorem State.byte_setCore (c1 : Nat) (k1 : Core) (a : Nat) : (s.setCore c1 k1).byte a = s.byte a := rfl
@[simp] theorem State.byte_modCore (c1 : Nat) (g : Core → Core) (a : Nat) : (s.modCore c1 g).byte a = s.byte a := rfl
@[simp] theorem State.byte_setHostBytes (a1 : Nat) (l : List (BitVec 8)) (a : Nat) : (s.setHostBytes a1 l).byte a = s.byte a := rfl
@[simp] theorem State.byte_raiseAs (code : Code) (sev unit part pay : Nat) (a : Nat) : (s.raiseAs code sev unit part pay).byte a = s.byte a := rfl
@[simp] theorem State.byte_raise (code : Code) (unit part pay : Nat) (a : Nat) : (s.raise code unit part pay).byte a = s.byte a := rfl
@[simp] theorem State.byte_raiseCore (code : Code) (c1 engine pay : Nat) (a : Nat) : (s.raiseCore code c1 engine pay).byte a = s.byte a := rfl
@[simp] theorem State.byte_clearBad (a1 n1 : Nat) (a : Nat) : (s.clearBad a1 n1).byte a = s.byte a := rfl
@[simp] theorem State.byte_setObj (o1 : Nat) (x : SyncObj) (a : Nat) : (s.setObj o1 x).byte a = s.byte a := rfl
@[simp] theorem State.byte_modPort (n1 : Nat) (g : Port → Port) (a : Nat) : (s.modPort n1 g).byte a = s.byte a := rfl
@[simp] theorem State.byte_modChan (n1 : Nat) (g : Chan → Chan) (a : Nat) : (s.modChan n1 g).byte a = s.byte a := rfl
@[simp] theorem State.byte_modFeed (n1 : Nat) (g : Feed → Feed) (a : Nat) : (s.modFeed n1 g).byte a = s.byte a := rfl
@[simp] theorem State.byte_modStream (n1 : Nat) (g : Stream → Stream) (a : Nat) : (s.modStream n1 g).byte a = s.byte a := rfl
@[simp] theorem State.byte_modRing (n1 : Nat) (g : EventRing → EventRing) (a : Nat) : (s.modRing n1 g).byte a = s.byte a := rfl
@[simp] theorem State.byte_modJob (n1 : Nat) (g : Job → Job) (a : Nat) : (s.modJob n1 g).byte a = s.byte a := rfl
@[simp] theorem State.byte_setFlag (n1 v1 : Nat) (a : Nat) : (s.setFlag n1 v1).byte a = s.byte a := rfl
@[simp] theorem State.byte_setHeadWait (n1 : Nat) (w1 : HeadWait) (a : Nat) : (s.setHeadWait n1 w1).byte a = s.byte a := rfl
@[simp] theorem State.byte_modRedRing (n1 : Nat) (g : RedRing → RedRing) (a : Nat) : (s.modRedRing n1 g).byte a = s.byte a := rfl
@[simp] theorem State.byte_modFellows (g : Fellows → Fellows) (a : Nat) : (s.modFellows g).byte a = s.byte a := rfl
@[simp] theorem State.byte_count (a1 n1 : Nat) (a : Nat) : (s.count a1 n1).byte a = s.byte a := State.byte_congr (by simp) (by simp) a
@[simp] theorem State.memNat_setDtime (x : Nat) (a n : Nat) : (s.setDtime x).memNat a n = s.memNat a n := State.memNat_congr (by simp) (by simp) a n
@[simp] theorem State.memNat_setRegs (x : List (Nat × Word)) (a n : Nat) : (s.setRegs x).memNat a n = s.memNat a n := State.memNat_congr (by simp) (by simp) a n
@[simp] theorem State.memNat_setLearned (x : List Learned) (a n : Nat) : (s.setLearned x).memNat a n = s.memNat a n := State.memNat_congr (by simp) (by simp) a n
@[simp] theorem State.memNat_setBenched (x : List (Nat × Nat)) (a n : Nat) : (s.setBenched x).memNat a n = s.memNat a n := State.memNat_congr (by simp) (by simp) a n
@[simp] theorem State.memNat_setSync (x : List (Nat × SyncObj)) (a n : Nat) : (s.setSync x).memNat a n = s.memNat a n := State.memNat_congr (by simp) (by simp) a n
@[simp] theorem State.memNat_setWaitOrder (x : Nat) (a n : Nat) : (s.setWaitOrder x).memNat a n = s.memNat a n := State.memNat_congr (by simp) (by simp) a n
@[simp] theorem State.memNat_setSignals (x : List Signal) (a n : Nat) : (s.setSignals x).memNat a n = s.memNat a n := State.memNat_congr (by simp) (by simp) a n
@[simp] theorem State.memNat_setDispatch (x : List SegRec) (a n : Nat) : (s.setDispatch x).memNat a n = s.memNat a n := State.memNat_congr (by simp) (by simp) a n
@[simp] theorem State.memNat_setSegOrder (x : Nat) (a n : Nat) : (s.setSegOrder x).memNat a n = s.memNat a n := State.memNat_congr (by simp) (by simp) a n
@[simp] theorem State.memNat_setStreams (x : List (Nat × Stream)) (a n : Nat) : (s.setStreams x).memNat a n = s.memNat a n := State.memNat_congr (by simp) (by simp) a n
@[simp] theorem State.memNat_setRings (x : List (Nat × EventRing)) (a n : Nat) : (s.setRings x).memNat a n = s.memNat a n := State.memNat_congr (by simp) (by simp) a n
@[simp] theorem State.memNat_setHeads (x : List (Nat × HeadWait)) (a n : Nat) : (s.setHeads x).memNat a n = s.memNat a n := State.memNat_congr (by simp) (by simp) a n
@[simp] theorem State.memNat_setHaltAt (x : List (Nat × Nat)) (a n : Nat) : (s.setHaltAt x).memNat a n = s.memNat a n := State.memNat_congr (by simp) (by simp) a n
@[simp] theorem State.memNat_setHeldHeads (x : List Nat) (a n : Nat) : (s.setHeldHeads x).memNat a n = s.memNat a n := State.memNat_congr (by simp) (by simp) a n
@[simp] theorem State.memNat_setQueues (x : List (Nat × Nat)) (a n : Nat) : (s.setQueues x).memNat a n = s.memNat a n := State.memNat_congr (by simp) (by simp) a n
@[simp] theorem State.memNat_setAtc (x : List (Nat × Nat)) (a n : Nat) : (s.setAtc x).memNat a n = s.memNat a n := State.memNat_congr (by simp) (by simp) a n
@[simp] theorem State.memNat_setLowPower (x : List Nat) (a n : Nat) : (s.setLowPower x).memNat a n = s.memNat a n := State.memNat_congr (by simp) (by simp) a n
@[simp] theorem State.memNat_setFlags (x : List (Nat × Nat)) (a n : Nat) : (s.setFlags x).memNat a n = s.memNat a n := State.memNat_congr (by simp) (by simp) a n
@[simp] theorem State.memNat_setOut (x : List Output) (a n : Nat) : (s.setOut x).memNat a n = s.memNat a n := State.memNat_congr (by simp) (by simp) a n
@[simp] theorem State.memNat_setEvents (x : List Event) (a n : Nat) : (s.setEvents x).memNat a n = s.memNat a n := State.memNat_congr (by simp) (by simp) a n
@[simp] theorem State.memNat_setBad (x : List (Nat × Bool)) (a n : Nat) : (s.setBad x).memNat a n = s.memNat a n := State.memNat_congr (by simp) (by simp) a n
@[simp] theorem State.memNat_setPoison (x : List (Nat × Bool)) (a n : Nat) : (s.setPoison x).memNat a n = s.memNat a n := State.memNat_congr (by simp) (by simp) a n
@[simp] theorem State.memNat_setCache (x : List (Nat × List CacheLine)) (a n : Nat) : (s.setCache x).memNat a n = s.memNat a n := State.memNat_congr (by simp) (by simp) a n
@[simp] theorem State.memNat_setFlash (x : List (Nat × FlashObj)) (a n : Nat) : (s.setFlash x).memNat a n = s.memNat a n := State.memNat_congr (by simp) (by simp) a n
@[simp] theorem State.memNat_setFlashDown (x : List Nat) (a n : Nat) : (s.setFlashDown x).memNat a n = s.memNat a n := State.memNat_congr (by simp) (by simp) a n
@[simp] theorem State.memNat_setPorts (x : List (Nat × Port)) (a n : Nat) : (s.setPorts x).memNat a n = s.memNat a n := State.memNat_congr (by simp) (by simp) a n
@[simp] theorem State.memNat_setInbox (x : List (Nat × Msg)) (a n : Nat) : (s.setInbox x).memNat a n = s.memNat a n := State.memNat_congr (by simp) (by simp) a n
@[simp] theorem State.memNat_setFellows (x : Fellows) (a n : Nat) : (s.setFellows x).memNat a n = s.memNat a n := State.memNat_congr (by simp) (by simp) a n
@[simp] theorem State.memNat_setPfc (x : List (Nat × Nat)) (a n : Nat) : (s.setPfc x).memNat a n = s.memNat a n := State.memNat_congr (by simp) (by simp) a n
@[simp] theorem State.memNat_setReqs (x : List Req) (a n : Nat) : (s.setReqs x).memNat a n = s.memNat a n := State.memNat_congr (by simp) (by simp) a n
@[simp] theorem State.memNat_setSerial (x : Nat) (a n : Nat) : (s.setSerial x).memNat a n = s.memNat a n := State.memNat_congr (by simp) (by simp) a n
@[simp] theorem State.memNat_setTag (x : Nat) (a n : Nat) : (s.setTag x).memNat a n = s.memNat a n := State.memNat_congr (by simp) (by simp) a n
@[simp] theorem State.memNat_setChans (x : List (Nat × Chan)) (a n : Nat) : (s.setChans x).memNat a n = s.memNat a n := State.memNat_congr (by simp) (by simp) a n
@[simp] theorem State.memNat_setFeeds (x : List (Nat × Feed)) (a n : Nat) : (s.setFeeds x).memNat a n = s.memNat a n := State.memNat_congr (by simp) (by simp) a n
@[simp] theorem State.memNat_setFences (x : List Fence) (a n : Nat) : (s.setFences x).memNat a n = s.memNat a n := State.memNat_congr (by simp) (by simp) a n
@[simp] theorem State.memNat_setRecoveries (x : List Recovery) (a n : Nat) : (s.setRecoveries x).memNat a n = s.memNat a n := State.memNat_congr (by simp) (by simp) a n
@[simp] theorem State.memNat_setGviews (x : List (Nat × GView)) (a n : Nat) : (s.setGviews x).memNat a n = s.memNat a n := State.memNat_congr (by simp) (by simp) a n
@[simp] theorem State.memNat_setReds (x : List Red) (a n : Nat) : (s.setReds x).memNat a n = s.memNat a n := State.memNat_congr (by simp) (by simp) a n
@[simp] theorem State.memNat_setRedSeq (x : List (Nat × Nat)) (a n : Nat) : (s.setRedSeq x).memNat a n = s.memNat a n := State.memNat_congr (by simp) (by simp) a n
@[simp] theorem State.memNat_setRedRings (x : List (Nat × RedRing)) (a n : Nat) : (s.setRedRings x).memNat a n = s.memNat a n := State.memNat_congr (by simp) (by simp) a n
@[simp] theorem State.memNat_setJobs (x : List (Nat × Job)) (a n : Nat) : (s.setJobs x).memNat a n = s.memNat a n := State.memNat_congr (by simp) (by simp) a n
@[simp] theorem State.memNat_setTraceBufs (x : List (Nat × TraceBuf)) (a n : Nat) : (s.setTraceBufs x).memNat a n = s.memNat a n := State.memNat_congr (by simp) (by simp) a n
@[simp] theorem State.memNat_setTraceTurn (x : List (Nat × Nat)) (a n : Nat) : (s.setTraceTurn x).memNat a n = s.memNat a n := State.memNat_congr (by simp) (by simp) a n
@[simp] theorem State.memNat_setDm (x : DebugModule) (a n : Nat) : (s.setDm x).memNat a n = s.memNat a n := State.memNat_congr (by simp) (by simp) a n
@[simp] theorem State.memNat_setPosted (x : List Posted) (a n : Nat) : (s.setPosted x).memNat a n = s.memNat a n := State.memNat_congr (by simp) (by simp) a n
@[simp] theorem State.memNat_setReferee (x : Referee) (a n : Nat) : (s.setReferee x).memNat a n = s.memNat a n := State.memNat_congr (by simp) (by simp) a n
@[simp] theorem State.memNat_setPower (x : Power) (a n : Nat) : (s.setPower x).memNat a n = s.memNat a n := State.memNat_congr (by simp) (by simp) a n
@[simp] theorem State.memNat_setFreeCount (x : Nat) (a n : Nat) : (s.setFreeCount x).memNat a n = s.memNat a n := State.memNat_congr (by simp) (by simp) a n
@[simp] theorem State.memNat_setLines (x : List (Nat × HartLine)) (a n : Nat) : (s.setLines x).memNat a n = s.memNat a n := State.memNat_congr (by simp) (by simp) a n
@[simp] theorem State.memNat_setHartCsr (x : List (Nat × Nat)) (a n : Nat) : (s.setHartCsr x).memNat a n = s.memNat a n := State.memNat_congr (by simp) (by simp) a n
@[simp] theorem State.memNat_setMsix (x : List (Nat × MsixEntry)) (a n : Nat) : (s.setMsix x).memNat a n = s.memNat a n := State.memNat_congr (by simp) (by simp) a n
@[simp] theorem State.memNat_setMsixCtl (x : List (Nat × Nat)) (a n : Nat) : (s.setMsixCtl x).memNat a n = s.memNat a n := State.memNat_congr (by simp) (by simp) a n
@[simp] theorem State.memNat_setAtsOn (x : List Nat) (a n : Nat) : (s.setAtsOn x).memNat a n = s.memNat a n := State.memNat_congr (by simp) (by simp) a n
@[simp] theorem State.memNat_setHartFull (x : List Nat) (a n : Nat) : (s.setHartFull x).memNat a n = s.memNat a n := State.memNat_congr (by simp) (by simp) a n
@[simp] theorem State.memNat_setReg (a1 : Nat) (v1 : Word) (a n : Nat) : (s.setReg a1 v1).memNat a n = s.memNat a n := State.memNat_congr (by simp) (by simp) a n
@[simp] theorem State.memNat_wr (f1 : RF) (v1 : Nat) (a n : Nat) : (s.wr f1 v1).memNat a n = s.memNat a n := State.memNat_congr (by simp) (by simp) a n
@[simp] theorem State.memNat_setCore (c1 : Nat) (k1 : Core) (a n : Nat) : (s.setCore c1 k1).memNat a n = s.memNat a n := State.memNat_congr (by simp) (by simp) a n
@[simp] theorem State.memNat_modCore (c1 : Nat) (g : Core → Core) (a n : Nat) : (s.modCore c1 g).memNat a n = s.memNat a n := State.memNat_congr (by simp) (by simp) a n
@[simp] theorem State.memNat_setHostBytes (a1 : Nat) (l : List (BitVec 8)) (a n : Nat) : (s.setHostBytes a1 l).memNat a n = s.memNat a n := State.memNat_congr (by simp) (by simp) a n
@[simp] theorem State.memNat_raiseAs (code : Code) (sev unit part pay : Nat) (a n : Nat) : (s.raiseAs code sev unit part pay).memNat a n = s.memNat a n := State.memNat_congr (by simp) (by simp) a n
@[simp] theorem State.memNat_raise (code : Code) (unit part pay : Nat) (a n : Nat) : (s.raise code unit part pay).memNat a n = s.memNat a n := State.memNat_congr (by simp) (by simp) a n
@[simp] theorem State.memNat_raiseCore (code : Code) (c1 engine pay : Nat) (a n : Nat) : (s.raiseCore code c1 engine pay).memNat a n = s.memNat a n := State.memNat_congr (by simp) (by simp) a n
@[simp] theorem State.memNat_clearBad (a1 n1 : Nat) (a n : Nat) : (s.clearBad a1 n1).memNat a n = s.memNat a n := State.memNat_congr (by simp) (by simp) a n
@[simp] theorem State.memNat_setObj (o1 : Nat) (x : SyncObj) (a n : Nat) : (s.setObj o1 x).memNat a n = s.memNat a n := State.memNat_congr (by simp) (by simp) a n
@[simp] theorem State.memNat_modPort (n1 : Nat) (g : Port → Port) (a n : Nat) : (s.modPort n1 g).memNat a n = s.memNat a n := State.memNat_congr (by simp) (by simp) a n
@[simp] theorem State.memNat_modChan (n1 : Nat) (g : Chan → Chan) (a n : Nat) : (s.modChan n1 g).memNat a n = s.memNat a n := State.memNat_congr (by simp) (by simp) a n
@[simp] theorem State.memNat_modFeed (n1 : Nat) (g : Feed → Feed) (a n : Nat) : (s.modFeed n1 g).memNat a n = s.memNat a n := State.memNat_congr (by simp) (by simp) a n
@[simp] theorem State.memNat_modStream (n1 : Nat) (g : Stream → Stream) (a n : Nat) : (s.modStream n1 g).memNat a n = s.memNat a n := State.memNat_congr (by simp) (by simp) a n
@[simp] theorem State.memNat_modRing (n1 : Nat) (g : EventRing → EventRing) (a n : Nat) : (s.modRing n1 g).memNat a n = s.memNat a n := State.memNat_congr (by simp) (by simp) a n
@[simp] theorem State.memNat_modJob (n1 : Nat) (g : Job → Job) (a n : Nat) : (s.modJob n1 g).memNat a n = s.memNat a n := State.memNat_congr (by simp) (by simp) a n
@[simp] theorem State.memNat_setFlag (n1 v1 : Nat) (a n : Nat) : (s.setFlag n1 v1).memNat a n = s.memNat a n := State.memNat_congr (by simp) (by simp) a n
@[simp] theorem State.memNat_setHeadWait (n1 : Nat) (w1 : HeadWait) (a n : Nat) : (s.setHeadWait n1 w1).memNat a n = s.memNat a n := State.memNat_congr (by simp) (by simp) a n
@[simp] theorem State.memNat_modRedRing (n1 : Nat) (g : RedRing → RedRing) (a n : Nat) : (s.modRedRing n1 g).memNat a n = s.memNat a n := State.memNat_congr (by simp) (by simp) a n
@[simp] theorem State.memNat_modFellows (g : Fellows → Fellows) (a n : Nat) : (s.modFellows g).memNat a n = s.memNat a n := State.memNat_congr (by simp) (by simp) a n
@[simp] theorem State.memNat_count (a1 n1 : Nat) (a n : Nat) : (s.count a1 n1).memNat a n = s.memNat a n := State.memNat_congr (by simp) (by simp) a n
@[simp] theorem State.bytes_setDtime (x : Nat) (a n : Nat) : (s.setDtime x).bytes a n = s.bytes a n := State.bytes_congr (by simp) (by simp) a n
@[simp] theorem State.bytes_setRegs (x : List (Nat × Word)) (a n : Nat) : (s.setRegs x).bytes a n = s.bytes a n := State.bytes_congr (by simp) (by simp) a n
@[simp] theorem State.bytes_setLearned (x : List Learned) (a n : Nat) : (s.setLearned x).bytes a n = s.bytes a n := State.bytes_congr (by simp) (by simp) a n
@[simp] theorem State.bytes_setBenched (x : List (Nat × Nat)) (a n : Nat) : (s.setBenched x).bytes a n = s.bytes a n := State.bytes_congr (by simp) (by simp) a n
@[simp] theorem State.bytes_setSync (x : List (Nat × SyncObj)) (a n : Nat) : (s.setSync x).bytes a n = s.bytes a n := State.bytes_congr (by simp) (by simp) a n
@[simp] theorem State.bytes_setWaitOrder (x : Nat) (a n : Nat) : (s.setWaitOrder x).bytes a n = s.bytes a n := State.bytes_congr (by simp) (by simp) a n
@[simp] theorem State.bytes_setSignals (x : List Signal) (a n : Nat) : (s.setSignals x).bytes a n = s.bytes a n := State.bytes_congr (by simp) (by simp) a n
@[simp] theorem State.bytes_setDispatch (x : List SegRec) (a n : Nat) : (s.setDispatch x).bytes a n = s.bytes a n := State.bytes_congr (by simp) (by simp) a n
@[simp] theorem State.bytes_setSegOrder (x : Nat) (a n : Nat) : (s.setSegOrder x).bytes a n = s.bytes a n := State.bytes_congr (by simp) (by simp) a n
@[simp] theorem State.bytes_setStreams (x : List (Nat × Stream)) (a n : Nat) : (s.setStreams x).bytes a n = s.bytes a n := State.bytes_congr (by simp) (by simp) a n
@[simp] theorem State.bytes_setRings (x : List (Nat × EventRing)) (a n : Nat) : (s.setRings x).bytes a n = s.bytes a n := State.bytes_congr (by simp) (by simp) a n
@[simp] theorem State.bytes_setHeads (x : List (Nat × HeadWait)) (a n : Nat) : (s.setHeads x).bytes a n = s.bytes a n := State.bytes_congr (by simp) (by simp) a n
@[simp] theorem State.bytes_setHaltAt (x : List (Nat × Nat)) (a n : Nat) : (s.setHaltAt x).bytes a n = s.bytes a n := State.bytes_congr (by simp) (by simp) a n
@[simp] theorem State.bytes_setHeldHeads (x : List Nat) (a n : Nat) : (s.setHeldHeads x).bytes a n = s.bytes a n := State.bytes_congr (by simp) (by simp) a n
@[simp] theorem State.bytes_setQueues (x : List (Nat × Nat)) (a n : Nat) : (s.setQueues x).bytes a n = s.bytes a n := State.bytes_congr (by simp) (by simp) a n
@[simp] theorem State.bytes_setAtc (x : List (Nat × Nat)) (a n : Nat) : (s.setAtc x).bytes a n = s.bytes a n := State.bytes_congr (by simp) (by simp) a n
@[simp] theorem State.bytes_setLowPower (x : List Nat) (a n : Nat) : (s.setLowPower x).bytes a n = s.bytes a n := State.bytes_congr (by simp) (by simp) a n
@[simp] theorem State.bytes_setFlags (x : List (Nat × Nat)) (a n : Nat) : (s.setFlags x).bytes a n = s.bytes a n := State.bytes_congr (by simp) (by simp) a n
@[simp] theorem State.bytes_setOut (x : List Output) (a n : Nat) : (s.setOut x).bytes a n = s.bytes a n := State.bytes_congr (by simp) (by simp) a n
@[simp] theorem State.bytes_setEvents (x : List Event) (a n : Nat) : (s.setEvents x).bytes a n = s.bytes a n := State.bytes_congr (by simp) (by simp) a n
@[simp] theorem State.bytes_setBad (x : List (Nat × Bool)) (a n : Nat) : (s.setBad x).bytes a n = s.bytes a n := State.bytes_congr (by simp) (by simp) a n
@[simp] theorem State.bytes_setPoison (x : List (Nat × Bool)) (a n : Nat) : (s.setPoison x).bytes a n = s.bytes a n := State.bytes_congr (by simp) (by simp) a n
@[simp] theorem State.bytes_setCache (x : List (Nat × List CacheLine)) (a n : Nat) : (s.setCache x).bytes a n = s.bytes a n := State.bytes_congr (by simp) (by simp) a n
@[simp] theorem State.bytes_setFlash (x : List (Nat × FlashObj)) (a n : Nat) : (s.setFlash x).bytes a n = s.bytes a n := State.bytes_congr (by simp) (by simp) a n
@[simp] theorem State.bytes_setFlashDown (x : List Nat) (a n : Nat) : (s.setFlashDown x).bytes a n = s.bytes a n := State.bytes_congr (by simp) (by simp) a n
@[simp] theorem State.bytes_setPorts (x : List (Nat × Port)) (a n : Nat) : (s.setPorts x).bytes a n = s.bytes a n := State.bytes_congr (by simp) (by simp) a n
@[simp] theorem State.bytes_setInbox (x : List (Nat × Msg)) (a n : Nat) : (s.setInbox x).bytes a n = s.bytes a n := State.bytes_congr (by simp) (by simp) a n
@[simp] theorem State.bytes_setFellows (x : Fellows) (a n : Nat) : (s.setFellows x).bytes a n = s.bytes a n := State.bytes_congr (by simp) (by simp) a n
@[simp] theorem State.bytes_setPfc (x : List (Nat × Nat)) (a n : Nat) : (s.setPfc x).bytes a n = s.bytes a n := State.bytes_congr (by simp) (by simp) a n
@[simp] theorem State.bytes_setReqs (x : List Req) (a n : Nat) : (s.setReqs x).bytes a n = s.bytes a n := State.bytes_congr (by simp) (by simp) a n
@[simp] theorem State.bytes_setSerial (x : Nat) (a n : Nat) : (s.setSerial x).bytes a n = s.bytes a n := State.bytes_congr (by simp) (by simp) a n
@[simp] theorem State.bytes_setTag (x : Nat) (a n : Nat) : (s.setTag x).bytes a n = s.bytes a n := State.bytes_congr (by simp) (by simp) a n
@[simp] theorem State.bytes_setChans (x : List (Nat × Chan)) (a n : Nat) : (s.setChans x).bytes a n = s.bytes a n := State.bytes_congr (by simp) (by simp) a n
@[simp] theorem State.bytes_setFeeds (x : List (Nat × Feed)) (a n : Nat) : (s.setFeeds x).bytes a n = s.bytes a n := State.bytes_congr (by simp) (by simp) a n
@[simp] theorem State.bytes_setFences (x : List Fence) (a n : Nat) : (s.setFences x).bytes a n = s.bytes a n := State.bytes_congr (by simp) (by simp) a n
@[simp] theorem State.bytes_setRecoveries (x : List Recovery) (a n : Nat) : (s.setRecoveries x).bytes a n = s.bytes a n := State.bytes_congr (by simp) (by simp) a n
@[simp] theorem State.bytes_setGviews (x : List (Nat × GView)) (a n : Nat) : (s.setGviews x).bytes a n = s.bytes a n := State.bytes_congr (by simp) (by simp) a n
@[simp] theorem State.bytes_setReds (x : List Red) (a n : Nat) : (s.setReds x).bytes a n = s.bytes a n := State.bytes_congr (by simp) (by simp) a n
@[simp] theorem State.bytes_setRedSeq (x : List (Nat × Nat)) (a n : Nat) : (s.setRedSeq x).bytes a n = s.bytes a n := State.bytes_congr (by simp) (by simp) a n
@[simp] theorem State.bytes_setRedRings (x : List (Nat × RedRing)) (a n : Nat) : (s.setRedRings x).bytes a n = s.bytes a n := State.bytes_congr (by simp) (by simp) a n
@[simp] theorem State.bytes_setJobs (x : List (Nat × Job)) (a n : Nat) : (s.setJobs x).bytes a n = s.bytes a n := State.bytes_congr (by simp) (by simp) a n
@[simp] theorem State.bytes_setTraceBufs (x : List (Nat × TraceBuf)) (a n : Nat) : (s.setTraceBufs x).bytes a n = s.bytes a n := State.bytes_congr (by simp) (by simp) a n
@[simp] theorem State.bytes_setTraceTurn (x : List (Nat × Nat)) (a n : Nat) : (s.setTraceTurn x).bytes a n = s.bytes a n := State.bytes_congr (by simp) (by simp) a n
@[simp] theorem State.bytes_setDm (x : DebugModule) (a n : Nat) : (s.setDm x).bytes a n = s.bytes a n := State.bytes_congr (by simp) (by simp) a n
@[simp] theorem State.bytes_setPosted (x : List Posted) (a n : Nat) : (s.setPosted x).bytes a n = s.bytes a n := State.bytes_congr (by simp) (by simp) a n
@[simp] theorem State.bytes_setReferee (x : Referee) (a n : Nat) : (s.setReferee x).bytes a n = s.bytes a n := State.bytes_congr (by simp) (by simp) a n
@[simp] theorem State.bytes_setPower (x : Power) (a n : Nat) : (s.setPower x).bytes a n = s.bytes a n := State.bytes_congr (by simp) (by simp) a n
@[simp] theorem State.bytes_setFreeCount (x : Nat) (a n : Nat) : (s.setFreeCount x).bytes a n = s.bytes a n := State.bytes_congr (by simp) (by simp) a n
@[simp] theorem State.bytes_setLines (x : List (Nat × HartLine)) (a n : Nat) : (s.setLines x).bytes a n = s.bytes a n := State.bytes_congr (by simp) (by simp) a n
@[simp] theorem State.bytes_setHartCsr (x : List (Nat × Nat)) (a n : Nat) : (s.setHartCsr x).bytes a n = s.bytes a n := State.bytes_congr (by simp) (by simp) a n
@[simp] theorem State.bytes_setMsix (x : List (Nat × MsixEntry)) (a n : Nat) : (s.setMsix x).bytes a n = s.bytes a n := State.bytes_congr (by simp) (by simp) a n
@[simp] theorem State.bytes_setMsixCtl (x : List (Nat × Nat)) (a n : Nat) : (s.setMsixCtl x).bytes a n = s.bytes a n := State.bytes_congr (by simp) (by simp) a n
@[simp] theorem State.bytes_setAtsOn (x : List Nat) (a n : Nat) : (s.setAtsOn x).bytes a n = s.bytes a n := State.bytes_congr (by simp) (by simp) a n
@[simp] theorem State.bytes_setHartFull (x : List Nat) (a n : Nat) : (s.setHartFull x).bytes a n = s.bytes a n := State.bytes_congr (by simp) (by simp) a n
@[simp] theorem State.bytes_setReg (a1 : Nat) (v1 : Word) (a n : Nat) : (s.setReg a1 v1).bytes a n = s.bytes a n := State.bytes_congr (by simp) (by simp) a n
@[simp] theorem State.bytes_wr (f1 : RF) (v1 : Nat) (a n : Nat) : (s.wr f1 v1).bytes a n = s.bytes a n := State.bytes_congr (by simp) (by simp) a n
@[simp] theorem State.bytes_setCore (c1 : Nat) (k1 : Core) (a n : Nat) : (s.setCore c1 k1).bytes a n = s.bytes a n := State.bytes_congr (by simp) (by simp) a n
@[simp] theorem State.bytes_modCore (c1 : Nat) (g : Core → Core) (a n : Nat) : (s.modCore c1 g).bytes a n = s.bytes a n := State.bytes_congr (by simp) (by simp) a n
@[simp] theorem State.bytes_setHostBytes (a1 : Nat) (l : List (BitVec 8)) (a n : Nat) : (s.setHostBytes a1 l).bytes a n = s.bytes a n := State.bytes_congr (by simp) (by simp) a n
@[simp] theorem State.bytes_raiseAs (code : Code) (sev unit part pay : Nat) (a n : Nat) : (s.raiseAs code sev unit part pay).bytes a n = s.bytes a n := State.bytes_congr (by simp) (by simp) a n
@[simp] theorem State.bytes_raise (code : Code) (unit part pay : Nat) (a n : Nat) : (s.raise code unit part pay).bytes a n = s.bytes a n := State.bytes_congr (by simp) (by simp) a n
@[simp] theorem State.bytes_raiseCore (code : Code) (c1 engine pay : Nat) (a n : Nat) : (s.raiseCore code c1 engine pay).bytes a n = s.bytes a n := State.bytes_congr (by simp) (by simp) a n
@[simp] theorem State.bytes_clearBad (a1 n1 : Nat) (a n : Nat) : (s.clearBad a1 n1).bytes a n = s.bytes a n := State.bytes_congr (by simp) (by simp) a n
@[simp] theorem State.bytes_setObj (o1 : Nat) (x : SyncObj) (a n : Nat) : (s.setObj o1 x).bytes a n = s.bytes a n := State.bytes_congr (by simp) (by simp) a n
@[simp] theorem State.bytes_modPort (n1 : Nat) (g : Port → Port) (a n : Nat) : (s.modPort n1 g).bytes a n = s.bytes a n := State.bytes_congr (by simp) (by simp) a n
@[simp] theorem State.bytes_modChan (n1 : Nat) (g : Chan → Chan) (a n : Nat) : (s.modChan n1 g).bytes a n = s.bytes a n := State.bytes_congr (by simp) (by simp) a n
@[simp] theorem State.bytes_modFeed (n1 : Nat) (g : Feed → Feed) (a n : Nat) : (s.modFeed n1 g).bytes a n = s.bytes a n := State.bytes_congr (by simp) (by simp) a n
@[simp] theorem State.bytes_modStream (n1 : Nat) (g : Stream → Stream) (a n : Nat) : (s.modStream n1 g).bytes a n = s.bytes a n := State.bytes_congr (by simp) (by simp) a n
@[simp] theorem State.bytes_modRing (n1 : Nat) (g : EventRing → EventRing) (a n : Nat) : (s.modRing n1 g).bytes a n = s.bytes a n := State.bytes_congr (by simp) (by simp) a n
@[simp] theorem State.bytes_modJob (n1 : Nat) (g : Job → Job) (a n : Nat) : (s.modJob n1 g).bytes a n = s.bytes a n := State.bytes_congr (by simp) (by simp) a n
@[simp] theorem State.bytes_setFlag (n1 v1 : Nat) (a n : Nat) : (s.setFlag n1 v1).bytes a n = s.bytes a n := State.bytes_congr (by simp) (by simp) a n
@[simp] theorem State.bytes_setHeadWait (n1 : Nat) (w1 : HeadWait) (a n : Nat) : (s.setHeadWait n1 w1).bytes a n = s.bytes a n := State.bytes_congr (by simp) (by simp) a n
@[simp] theorem State.bytes_modRedRing (n1 : Nat) (g : RedRing → RedRing) (a n : Nat) : (s.modRedRing n1 g).bytes a n = s.bytes a n := State.bytes_congr (by simp) (by simp) a n
@[simp] theorem State.bytes_modFellows (g : Fellows → Fellows) (a n : Nat) : (s.modFellows g).bytes a n = s.bytes a n := State.bytes_congr (by simp) (by simp) a n
@[simp] theorem State.bytes_count (a1 n1 : Nat) (a n : Nat) : (s.count a1 n1).bytes a n = s.bytes a n := State.bytes_congr (by simp) (by simp) a n
@[simp] theorem State.stream_setDtime (x : Nat) (n : Nat) : (s.setDtime x).stream n = s.stream n := rfl
@[simp] theorem State.stream_setRegs (x : List (Nat × Word)) (n : Nat) : (s.setRegs x).stream n = s.stream n := rfl
@[simp] theorem State.stream_setMem (x : List Host.Cell) (n : Nat) : (s.setMem x).stream n = s.stream n := rfl
@[simp] theorem State.stream_setBook (x : List (Nat × Entry)) (n : Nat) : (s.setBook x).stream n = s.stream n := rfl
@[simp] theorem State.stream_setLearned (x : List Learned) (n : Nat) : (s.setLearned x).stream n = s.stream n := rfl
@[simp] theorem State.stream_setBenched (x : List (Nat × Nat)) (n : Nat) : (s.setBenched x).stream n = s.stream n := rfl
@[simp] theorem State.stream_setSync (x : List (Nat × SyncObj)) (n : Nat) : (s.setSync x).stream n = s.stream n := rfl
@[simp] theorem State.stream_setWaitOrder (x : Nat) (n : Nat) : (s.setWaitOrder x).stream n = s.stream n := rfl
@[simp] theorem State.stream_setSignals (x : List Signal) (n : Nat) : (s.setSignals x).stream n = s.stream n := rfl
@[simp] theorem State.stream_setDispatch (x : List SegRec) (n : Nat) : (s.setDispatch x).stream n = s.stream n := rfl
@[simp] theorem State.stream_setSegOrder (x : Nat) (n : Nat) : (s.setSegOrder x).stream n = s.stream n := rfl
@[simp] theorem State.stream_setRings (x : List (Nat × EventRing)) (n : Nat) : (s.setRings x).stream n = s.stream n := rfl
@[simp] theorem State.stream_setHeads (x : List (Nat × HeadWait)) (n : Nat) : (s.setHeads x).stream n = s.stream n := rfl
@[simp] theorem State.stream_setHaltAt (x : List (Nat × Nat)) (n : Nat) : (s.setHaltAt x).stream n = s.stream n := rfl
@[simp] theorem State.stream_setHeldHeads (x : List Nat) (n : Nat) : (s.setHeldHeads x).stream n = s.stream n := rfl
@[simp] theorem State.stream_setQueues (x : List (Nat × Nat)) (n : Nat) : (s.setQueues x).stream n = s.stream n := rfl
@[simp] theorem State.stream_setAtc (x : List (Nat × Nat)) (n : Nat) : (s.setAtc x).stream n = s.stream n := rfl
@[simp] theorem State.stream_setLowPower (x : List Nat) (n : Nat) : (s.setLowPower x).stream n = s.stream n := rfl
@[simp] theorem State.stream_setFlags (x : List (Nat × Nat)) (n : Nat) : (s.setFlags x).stream n = s.stream n := rfl
@[simp] theorem State.stream_setOut (x : List Output) (n : Nat) : (s.setOut x).stream n = s.stream n := rfl
@[simp] theorem State.stream_setEvents (x : List Event) (n : Nat) : (s.setEvents x).stream n = s.stream n := rfl
@[simp] theorem State.stream_setBad (x : List (Nat × Bool)) (n : Nat) : (s.setBad x).stream n = s.stream n := rfl
@[simp] theorem State.stream_setPoison (x : List (Nat × Bool)) (n : Nat) : (s.setPoison x).stream n = s.stream n := rfl
@[simp] theorem State.stream_setCache (x : List (Nat × List CacheLine)) (n : Nat) : (s.setCache x).stream n = s.stream n := rfl
@[simp] theorem State.stream_setFlash (x : List (Nat × FlashObj)) (n : Nat) : (s.setFlash x).stream n = s.stream n := rfl
@[simp] theorem State.stream_setFlashDown (x : List Nat) (n : Nat) : (s.setFlashDown x).stream n = s.stream n := rfl
@[simp] theorem State.stream_setPorts (x : List (Nat × Port)) (n : Nat) : (s.setPorts x).stream n = s.stream n := rfl
@[simp] theorem State.stream_setInbox (x : List (Nat × Msg)) (n : Nat) : (s.setInbox x).stream n = s.stream n := rfl
@[simp] theorem State.stream_setFellows (x : Fellows) (n : Nat) : (s.setFellows x).stream n = s.stream n := rfl
@[simp] theorem State.stream_setPfc (x : List (Nat × Nat)) (n : Nat) : (s.setPfc x).stream n = s.stream n := rfl
@[simp] theorem State.stream_setReqs (x : List Req) (n : Nat) : (s.setReqs x).stream n = s.stream n := rfl
@[simp] theorem State.stream_setSerial (x : Nat) (n : Nat) : (s.setSerial x).stream n = s.stream n := rfl
@[simp] theorem State.stream_setTag (x : Nat) (n : Nat) : (s.setTag x).stream n = s.stream n := rfl
@[simp] theorem State.stream_setChans (x : List (Nat × Chan)) (n : Nat) : (s.setChans x).stream n = s.stream n := rfl
@[simp] theorem State.stream_setFeeds (x : List (Nat × Feed)) (n : Nat) : (s.setFeeds x).stream n = s.stream n := rfl
@[simp] theorem State.stream_setFences (x : List Fence) (n : Nat) : (s.setFences x).stream n = s.stream n := rfl
@[simp] theorem State.stream_setRecoveries (x : List Recovery) (n : Nat) : (s.setRecoveries x).stream n = s.stream n := rfl
@[simp] theorem State.stream_setGviews (x : List (Nat × GView)) (n : Nat) : (s.setGviews x).stream n = s.stream n := rfl
@[simp] theorem State.stream_setReds (x : List Red) (n : Nat) : (s.setReds x).stream n = s.stream n := rfl
@[simp] theorem State.stream_setRedSeq (x : List (Nat × Nat)) (n : Nat) : (s.setRedSeq x).stream n = s.stream n := rfl
@[simp] theorem State.stream_setRedRings (x : List (Nat × RedRing)) (n : Nat) : (s.setRedRings x).stream n = s.stream n := rfl
@[simp] theorem State.stream_setJobs (x : List (Nat × Job)) (n : Nat) : (s.setJobs x).stream n = s.stream n := rfl
@[simp] theorem State.stream_setTraceBufs (x : List (Nat × TraceBuf)) (n : Nat) : (s.setTraceBufs x).stream n = s.stream n := rfl
@[simp] theorem State.stream_setTraceTurn (x : List (Nat × Nat)) (n : Nat) : (s.setTraceTurn x).stream n = s.stream n := rfl
@[simp] theorem State.stream_setDm (x : DebugModule) (n : Nat) : (s.setDm x).stream n = s.stream n := rfl
@[simp] theorem State.stream_setPosted (x : List Posted) (n : Nat) : (s.setPosted x).stream n = s.stream n := rfl
@[simp] theorem State.stream_setReferee (x : Referee) (n : Nat) : (s.setReferee x).stream n = s.stream n := rfl
@[simp] theorem State.stream_setPower (x : Power) (n : Nat) : (s.setPower x).stream n = s.stream n := rfl
@[simp] theorem State.stream_setFreeCount (x : Nat) (n : Nat) : (s.setFreeCount x).stream n = s.stream n := rfl
@[simp] theorem State.stream_setLines (x : List (Nat × HartLine)) (n : Nat) : (s.setLines x).stream n = s.stream n := rfl
@[simp] theorem State.stream_setHartCsr (x : List (Nat × Nat)) (n : Nat) : (s.setHartCsr x).stream n = s.stream n := rfl
@[simp] theorem State.stream_setMsix (x : List (Nat × MsixEntry)) (n : Nat) : (s.setMsix x).stream n = s.stream n := rfl
@[simp] theorem State.stream_setMsixCtl (x : List (Nat × Nat)) (n : Nat) : (s.setMsixCtl x).stream n = s.stream n := rfl
@[simp] theorem State.stream_setAtsOn (x : List Nat) (n : Nat) : (s.setAtsOn x).stream n = s.stream n := rfl
@[simp] theorem State.stream_setHartFull (x : List Nat) (n : Nat) : (s.setHartFull x).stream n = s.stream n := rfl
@[simp] theorem State.stream_setReg (a1 : Nat) (v1 : Word) (n : Nat) : (s.setReg a1 v1).stream n = s.stream n := rfl
@[simp] theorem State.stream_wr (f1 : RF) (v1 : Nat) (n : Nat) : (s.wr f1 v1).stream n = s.stream n := rfl
@[simp] theorem State.stream_setCore (c1 : Nat) (k1 : Core) (n : Nat) : (s.setCore c1 k1).stream n = s.stream n := rfl
@[simp] theorem State.stream_modCore (c1 : Nat) (g : Core → Core) (n : Nat) : (s.modCore c1 g).stream n = s.stream n := rfl
@[simp] theorem State.stream_setEntry (c1 k1 : Nat) (e : Entry) (n : Nat) : (s.setEntry c1 k1 e).stream n = s.stream n := rfl
@[simp] theorem State.stream_setHostBytes (a1 : Nat) (l : List (BitVec 8)) (n : Nat) : (s.setHostBytes a1 l).stream n = s.stream n := rfl
@[simp] theorem State.stream_raiseAs (code : Code) (sev unit part pay : Nat) (n : Nat) : (s.raiseAs code sev unit part pay).stream n = s.stream n := rfl
@[simp] theorem State.stream_raise (code : Code) (unit part pay : Nat) (n : Nat) : (s.raise code unit part pay).stream n = s.stream n := rfl
@[simp] theorem State.stream_raiseCore (code : Code) (c1 engine pay : Nat) (n : Nat) : (s.raiseCore code c1 engine pay).stream n = s.stream n := rfl
@[simp] theorem State.stream_clearBad (a1 n1 : Nat) (n : Nat) : (s.clearBad a1 n1).stream n = s.stream n := rfl
@[simp] theorem State.stream_setObj (o1 : Nat) (x : SyncObj) (n : Nat) : (s.setObj o1 x).stream n = s.stream n := rfl
@[simp] theorem State.stream_modPort (n1 : Nat) (g : Port → Port) (n : Nat) : (s.modPort n1 g).stream n = s.stream n := rfl
@[simp] theorem State.stream_modChan (n1 : Nat) (g : Chan → Chan) (n : Nat) : (s.modChan n1 g).stream n = s.stream n := rfl
@[simp] theorem State.stream_modFeed (n1 : Nat) (g : Feed → Feed) (n : Nat) : (s.modFeed n1 g).stream n = s.stream n := rfl
@[simp] theorem State.stream_modRing (n1 : Nat) (g : EventRing → EventRing) (n : Nat) : (s.modRing n1 g).stream n = s.stream n := rfl
@[simp] theorem State.stream_modJob (n1 : Nat) (g : Job → Job) (n : Nat) : (s.modJob n1 g).stream n = s.stream n := rfl
@[simp] theorem State.stream_setFlag (n1 v1 : Nat) (n : Nat) : (s.setFlag n1 v1).stream n = s.stream n := rfl
@[simp] theorem State.stream_setHeadWait (n1 : Nat) (w1 : HeadWait) (n : Nat) : (s.setHeadWait n1 w1).stream n = s.stream n := rfl
@[simp] theorem State.stream_modRedRing (n1 : Nat) (g : RedRing → RedRing) (n : Nat) : (s.modRedRing n1 g).stream n = s.stream n := rfl
@[simp] theorem State.stream_modFellows (g : Fellows → Fellows) (n : Nat) : (s.modFellows g).stream n = s.stream n := rfl
@[simp] theorem State.stream_count (a1 n1 : Nat) (n : Nat) : (s.count a1 n1).stream n = s.stream n := by unfold State.stream; simp
@[simp] theorem State.ring_setDtime (x : Nat) (n : Nat) : (s.setDtime x).ring n = s.ring n := rfl
@[simp] theorem State.ring_setRegs (x : List (Nat × Word)) (n : Nat) : (s.setRegs x).ring n = s.ring n := rfl
@[simp] theorem State.ring_setMem (x : List Host.Cell) (n : Nat) : (s.setMem x).ring n = s.ring n := rfl
@[simp] theorem State.ring_setBook (x : List (Nat × Entry)) (n : Nat) : (s.setBook x).ring n = s.ring n := rfl
@[simp] theorem State.ring_setLearned (x : List Learned) (n : Nat) : (s.setLearned x).ring n = s.ring n := rfl
@[simp] theorem State.ring_setBenched (x : List (Nat × Nat)) (n : Nat) : (s.setBenched x).ring n = s.ring n := rfl
@[simp] theorem State.ring_setSync (x : List (Nat × SyncObj)) (n : Nat) : (s.setSync x).ring n = s.ring n := rfl
@[simp] theorem State.ring_setWaitOrder (x : Nat) (n : Nat) : (s.setWaitOrder x).ring n = s.ring n := rfl
@[simp] theorem State.ring_setSignals (x : List Signal) (n : Nat) : (s.setSignals x).ring n = s.ring n := rfl
@[simp] theorem State.ring_setDispatch (x : List SegRec) (n : Nat) : (s.setDispatch x).ring n = s.ring n := rfl
@[simp] theorem State.ring_setSegOrder (x : Nat) (n : Nat) : (s.setSegOrder x).ring n = s.ring n := rfl
@[simp] theorem State.ring_setStreams (x : List (Nat × Stream)) (n : Nat) : (s.setStreams x).ring n = s.ring n := rfl
@[simp] theorem State.ring_setHeads (x : List (Nat × HeadWait)) (n : Nat) : (s.setHeads x).ring n = s.ring n := rfl
@[simp] theorem State.ring_setHaltAt (x : List (Nat × Nat)) (n : Nat) : (s.setHaltAt x).ring n = s.ring n := rfl
@[simp] theorem State.ring_setHeldHeads (x : List Nat) (n : Nat) : (s.setHeldHeads x).ring n = s.ring n := rfl
@[simp] theorem State.ring_setQueues (x : List (Nat × Nat)) (n : Nat) : (s.setQueues x).ring n = s.ring n := rfl
@[simp] theorem State.ring_setAtc (x : List (Nat × Nat)) (n : Nat) : (s.setAtc x).ring n = s.ring n := rfl
@[simp] theorem State.ring_setLowPower (x : List Nat) (n : Nat) : (s.setLowPower x).ring n = s.ring n := rfl
@[simp] theorem State.ring_setFlags (x : List (Nat × Nat)) (n : Nat) : (s.setFlags x).ring n = s.ring n := rfl
@[simp] theorem State.ring_setOut (x : List Output) (n : Nat) : (s.setOut x).ring n = s.ring n := rfl
@[simp] theorem State.ring_setEvents (x : List Event) (n : Nat) : (s.setEvents x).ring n = s.ring n := rfl
@[simp] theorem State.ring_setBad (x : List (Nat × Bool)) (n : Nat) : (s.setBad x).ring n = s.ring n := rfl
@[simp] theorem State.ring_setPoison (x : List (Nat × Bool)) (n : Nat) : (s.setPoison x).ring n = s.ring n := rfl
@[simp] theorem State.ring_setCache (x : List (Nat × List CacheLine)) (n : Nat) : (s.setCache x).ring n = s.ring n := rfl
@[simp] theorem State.ring_setFlash (x : List (Nat × FlashObj)) (n : Nat) : (s.setFlash x).ring n = s.ring n := rfl
@[simp] theorem State.ring_setFlashDown (x : List Nat) (n : Nat) : (s.setFlashDown x).ring n = s.ring n := rfl
@[simp] theorem State.ring_setPorts (x : List (Nat × Port)) (n : Nat) : (s.setPorts x).ring n = s.ring n := rfl
@[simp] theorem State.ring_setInbox (x : List (Nat × Msg)) (n : Nat) : (s.setInbox x).ring n = s.ring n := rfl
@[simp] theorem State.ring_setFellows (x : Fellows) (n : Nat) : (s.setFellows x).ring n = s.ring n := rfl
@[simp] theorem State.ring_setPfc (x : List (Nat × Nat)) (n : Nat) : (s.setPfc x).ring n = s.ring n := rfl
@[simp] theorem State.ring_setReqs (x : List Req) (n : Nat) : (s.setReqs x).ring n = s.ring n := rfl
@[simp] theorem State.ring_setSerial (x : Nat) (n : Nat) : (s.setSerial x).ring n = s.ring n := rfl
@[simp] theorem State.ring_setTag (x : Nat) (n : Nat) : (s.setTag x).ring n = s.ring n := rfl
@[simp] theorem State.ring_setChans (x : List (Nat × Chan)) (n : Nat) : (s.setChans x).ring n = s.ring n := rfl
@[simp] theorem State.ring_setFeeds (x : List (Nat × Feed)) (n : Nat) : (s.setFeeds x).ring n = s.ring n := rfl
@[simp] theorem State.ring_setFences (x : List Fence) (n : Nat) : (s.setFences x).ring n = s.ring n := rfl
@[simp] theorem State.ring_setRecoveries (x : List Recovery) (n : Nat) : (s.setRecoveries x).ring n = s.ring n := rfl
@[simp] theorem State.ring_setGviews (x : List (Nat × GView)) (n : Nat) : (s.setGviews x).ring n = s.ring n := rfl
@[simp] theorem State.ring_setReds (x : List Red) (n : Nat) : (s.setReds x).ring n = s.ring n := rfl
@[simp] theorem State.ring_setRedSeq (x : List (Nat × Nat)) (n : Nat) : (s.setRedSeq x).ring n = s.ring n := rfl
@[simp] theorem State.ring_setRedRings (x : List (Nat × RedRing)) (n : Nat) : (s.setRedRings x).ring n = s.ring n := rfl
@[simp] theorem State.ring_setJobs (x : List (Nat × Job)) (n : Nat) : (s.setJobs x).ring n = s.ring n := rfl
@[simp] theorem State.ring_setTraceBufs (x : List (Nat × TraceBuf)) (n : Nat) : (s.setTraceBufs x).ring n = s.ring n := rfl
@[simp] theorem State.ring_setTraceTurn (x : List (Nat × Nat)) (n : Nat) : (s.setTraceTurn x).ring n = s.ring n := rfl
@[simp] theorem State.ring_setDm (x : DebugModule) (n : Nat) : (s.setDm x).ring n = s.ring n := rfl
@[simp] theorem State.ring_setPosted (x : List Posted) (n : Nat) : (s.setPosted x).ring n = s.ring n := rfl
@[simp] theorem State.ring_setReferee (x : Referee) (n : Nat) : (s.setReferee x).ring n = s.ring n := rfl
@[simp] theorem State.ring_setPower (x : Power) (n : Nat) : (s.setPower x).ring n = s.ring n := rfl
@[simp] theorem State.ring_setFreeCount (x : Nat) (n : Nat) : (s.setFreeCount x).ring n = s.ring n := rfl
@[simp] theorem State.ring_setLines (x : List (Nat × HartLine)) (n : Nat) : (s.setLines x).ring n = s.ring n := rfl
@[simp] theorem State.ring_setHartCsr (x : List (Nat × Nat)) (n : Nat) : (s.setHartCsr x).ring n = s.ring n := rfl
@[simp] theorem State.ring_setMsix (x : List (Nat × MsixEntry)) (n : Nat) : (s.setMsix x).ring n = s.ring n := rfl
@[simp] theorem State.ring_setMsixCtl (x : List (Nat × Nat)) (n : Nat) : (s.setMsixCtl x).ring n = s.ring n := rfl
@[simp] theorem State.ring_setAtsOn (x : List Nat) (n : Nat) : (s.setAtsOn x).ring n = s.ring n := rfl
@[simp] theorem State.ring_setHartFull (x : List Nat) (n : Nat) : (s.setHartFull x).ring n = s.ring n := rfl
@[simp] theorem State.ring_setReg (a1 : Nat) (v1 : Word) (n : Nat) : (s.setReg a1 v1).ring n = s.ring n := rfl
@[simp] theorem State.ring_wr (f1 : RF) (v1 : Nat) (n : Nat) : (s.wr f1 v1).ring n = s.ring n := rfl
@[simp] theorem State.ring_setCore (c1 : Nat) (k1 : Core) (n : Nat) : (s.setCore c1 k1).ring n = s.ring n := rfl
@[simp] theorem State.ring_modCore (c1 : Nat) (g : Core → Core) (n : Nat) : (s.modCore c1 g).ring n = s.ring n := rfl
@[simp] theorem State.ring_setEntry (c1 k1 : Nat) (e : Entry) (n : Nat) : (s.setEntry c1 k1 e).ring n = s.ring n := rfl
@[simp] theorem State.ring_setHostBytes (a1 : Nat) (l : List (BitVec 8)) (n : Nat) : (s.setHostBytes a1 l).ring n = s.ring n := rfl
@[simp] theorem State.ring_raiseAs (code : Code) (sev unit part pay : Nat) (n : Nat) : (s.raiseAs code sev unit part pay).ring n = s.ring n := rfl
@[simp] theorem State.ring_raise (code : Code) (unit part pay : Nat) (n : Nat) : (s.raise code unit part pay).ring n = s.ring n := rfl
@[simp] theorem State.ring_raiseCore (code : Code) (c1 engine pay : Nat) (n : Nat) : (s.raiseCore code c1 engine pay).ring n = s.ring n := rfl
@[simp] theorem State.ring_clearBad (a1 n1 : Nat) (n : Nat) : (s.clearBad a1 n1).ring n = s.ring n := rfl
@[simp] theorem State.ring_setObj (o1 : Nat) (x : SyncObj) (n : Nat) : (s.setObj o1 x).ring n = s.ring n := rfl
@[simp] theorem State.ring_modPort (n1 : Nat) (g : Port → Port) (n : Nat) : (s.modPort n1 g).ring n = s.ring n := rfl
@[simp] theorem State.ring_modChan (n1 : Nat) (g : Chan → Chan) (n : Nat) : (s.modChan n1 g).ring n = s.ring n := rfl
@[simp] theorem State.ring_modFeed (n1 : Nat) (g : Feed → Feed) (n : Nat) : (s.modFeed n1 g).ring n = s.ring n := rfl
@[simp] theorem State.ring_modStream (n1 : Nat) (g : Stream → Stream) (n : Nat) : (s.modStream n1 g).ring n = s.ring n := rfl
@[simp] theorem State.ring_modJob (n1 : Nat) (g : Job → Job) (n : Nat) : (s.modJob n1 g).ring n = s.ring n := rfl
@[simp] theorem State.ring_setFlag (n1 v1 : Nat) (n : Nat) : (s.setFlag n1 v1).ring n = s.ring n := rfl
@[simp] theorem State.ring_setHeadWait (n1 : Nat) (w1 : HeadWait) (n : Nat) : (s.setHeadWait n1 w1).ring n = s.ring n := rfl
@[simp] theorem State.ring_modRedRing (n1 : Nat) (g : RedRing → RedRing) (n : Nat) : (s.modRedRing n1 g).ring n = s.ring n := rfl
@[simp] theorem State.ring_modFellows (g : Fellows → Fellows) (n : Nat) : (s.modFellows g).ring n = s.ring n := rfl
@[simp] theorem State.ring_count (a1 n1 : Nat) (n : Nat) : (s.count a1 n1).ring n = s.ring n := by unfold State.ring; simp
@[simp] theorem State.chan_setDtime (x : Nat) (n : Nat) : (s.setDtime x).chan n = s.chan n := rfl
@[simp] theorem State.chan_setRegs (x : List (Nat × Word)) (n : Nat) : (s.setRegs x).chan n = s.chan n := rfl
@[simp] theorem State.chan_setMem (x : List Host.Cell) (n : Nat) : (s.setMem x).chan n = s.chan n := rfl
@[simp] theorem State.chan_setBook (x : List (Nat × Entry)) (n : Nat) : (s.setBook x).chan n = s.chan n := rfl
@[simp] theorem State.chan_setLearned (x : List Learned) (n : Nat) : (s.setLearned x).chan n = s.chan n := rfl
@[simp] theorem State.chan_setBenched (x : List (Nat × Nat)) (n : Nat) : (s.setBenched x).chan n = s.chan n := rfl
@[simp] theorem State.chan_setSync (x : List (Nat × SyncObj)) (n : Nat) : (s.setSync x).chan n = s.chan n := rfl
@[simp] theorem State.chan_setWaitOrder (x : Nat) (n : Nat) : (s.setWaitOrder x).chan n = s.chan n := rfl
@[simp] theorem State.chan_setSignals (x : List Signal) (n : Nat) : (s.setSignals x).chan n = s.chan n := rfl
@[simp] theorem State.chan_setDispatch (x : List SegRec) (n : Nat) : (s.setDispatch x).chan n = s.chan n := rfl
@[simp] theorem State.chan_setSegOrder (x : Nat) (n : Nat) : (s.setSegOrder x).chan n = s.chan n := rfl
@[simp] theorem State.chan_setStreams (x : List (Nat × Stream)) (n : Nat) : (s.setStreams x).chan n = s.chan n := rfl
@[simp] theorem State.chan_setRings (x : List (Nat × EventRing)) (n : Nat) : (s.setRings x).chan n = s.chan n := rfl
@[simp] theorem State.chan_setHeads (x : List (Nat × HeadWait)) (n : Nat) : (s.setHeads x).chan n = s.chan n := rfl
@[simp] theorem State.chan_setHaltAt (x : List (Nat × Nat)) (n : Nat) : (s.setHaltAt x).chan n = s.chan n := rfl
@[simp] theorem State.chan_setHeldHeads (x : List Nat) (n : Nat) : (s.setHeldHeads x).chan n = s.chan n := rfl
@[simp] theorem State.chan_setQueues (x : List (Nat × Nat)) (n : Nat) : (s.setQueues x).chan n = s.chan n := rfl
@[simp] theorem State.chan_setAtc (x : List (Nat × Nat)) (n : Nat) : (s.setAtc x).chan n = s.chan n := rfl
@[simp] theorem State.chan_setLowPower (x : List Nat) (n : Nat) : (s.setLowPower x).chan n = s.chan n := rfl
@[simp] theorem State.chan_setFlags (x : List (Nat × Nat)) (n : Nat) : (s.setFlags x).chan n = s.chan n := rfl
@[simp] theorem State.chan_setOut (x : List Output) (n : Nat) : (s.setOut x).chan n = s.chan n := rfl
@[simp] theorem State.chan_setEvents (x : List Event) (n : Nat) : (s.setEvents x).chan n = s.chan n := rfl
@[simp] theorem State.chan_setBad (x : List (Nat × Bool)) (n : Nat) : (s.setBad x).chan n = s.chan n := rfl
@[simp] theorem State.chan_setPoison (x : List (Nat × Bool)) (n : Nat) : (s.setPoison x).chan n = s.chan n := rfl
@[simp] theorem State.chan_setCache (x : List (Nat × List CacheLine)) (n : Nat) : (s.setCache x).chan n = s.chan n := rfl
@[simp] theorem State.chan_setFlash (x : List (Nat × FlashObj)) (n : Nat) : (s.setFlash x).chan n = s.chan n := rfl
@[simp] theorem State.chan_setFlashDown (x : List Nat) (n : Nat) : (s.setFlashDown x).chan n = s.chan n := rfl
@[simp] theorem State.chan_setPorts (x : List (Nat × Port)) (n : Nat) : (s.setPorts x).chan n = s.chan n := rfl
@[simp] theorem State.chan_setInbox (x : List (Nat × Msg)) (n : Nat) : (s.setInbox x).chan n = s.chan n := rfl
@[simp] theorem State.chan_setFellows (x : Fellows) (n : Nat) : (s.setFellows x).chan n = s.chan n := rfl
@[simp] theorem State.chan_setPfc (x : List (Nat × Nat)) (n : Nat) : (s.setPfc x).chan n = s.chan n := rfl
@[simp] theorem State.chan_setReqs (x : List Req) (n : Nat) : (s.setReqs x).chan n = s.chan n := rfl
@[simp] theorem State.chan_setSerial (x : Nat) (n : Nat) : (s.setSerial x).chan n = s.chan n := rfl
@[simp] theorem State.chan_setTag (x : Nat) (n : Nat) : (s.setTag x).chan n = s.chan n := rfl
@[simp] theorem State.chan_setFeeds (x : List (Nat × Feed)) (n : Nat) : (s.setFeeds x).chan n = s.chan n := rfl
@[simp] theorem State.chan_setFences (x : List Fence) (n : Nat) : (s.setFences x).chan n = s.chan n := rfl
@[simp] theorem State.chan_setRecoveries (x : List Recovery) (n : Nat) : (s.setRecoveries x).chan n = s.chan n := rfl
@[simp] theorem State.chan_setGviews (x : List (Nat × GView)) (n : Nat) : (s.setGviews x).chan n = s.chan n := rfl
@[simp] theorem State.chan_setReds (x : List Red) (n : Nat) : (s.setReds x).chan n = s.chan n := rfl
@[simp] theorem State.chan_setRedSeq (x : List (Nat × Nat)) (n : Nat) : (s.setRedSeq x).chan n = s.chan n := rfl
@[simp] theorem State.chan_setRedRings (x : List (Nat × RedRing)) (n : Nat) : (s.setRedRings x).chan n = s.chan n := rfl
@[simp] theorem State.chan_setJobs (x : List (Nat × Job)) (n : Nat) : (s.setJobs x).chan n = s.chan n := rfl
@[simp] theorem State.chan_setTraceBufs (x : List (Nat × TraceBuf)) (n : Nat) : (s.setTraceBufs x).chan n = s.chan n := rfl
@[simp] theorem State.chan_setTraceTurn (x : List (Nat × Nat)) (n : Nat) : (s.setTraceTurn x).chan n = s.chan n := rfl
@[simp] theorem State.chan_setDm (x : DebugModule) (n : Nat) : (s.setDm x).chan n = s.chan n := rfl
@[simp] theorem State.chan_setPosted (x : List Posted) (n : Nat) : (s.setPosted x).chan n = s.chan n := rfl
@[simp] theorem State.chan_setReferee (x : Referee) (n : Nat) : (s.setReferee x).chan n = s.chan n := rfl
@[simp] theorem State.chan_setPower (x : Power) (n : Nat) : (s.setPower x).chan n = s.chan n := rfl
@[simp] theorem State.chan_setFreeCount (x : Nat) (n : Nat) : (s.setFreeCount x).chan n = s.chan n := rfl
@[simp] theorem State.chan_setLines (x : List (Nat × HartLine)) (n : Nat) : (s.setLines x).chan n = s.chan n := rfl
@[simp] theorem State.chan_setHartCsr (x : List (Nat × Nat)) (n : Nat) : (s.setHartCsr x).chan n = s.chan n := rfl
@[simp] theorem State.chan_setMsix (x : List (Nat × MsixEntry)) (n : Nat) : (s.setMsix x).chan n = s.chan n := rfl
@[simp] theorem State.chan_setMsixCtl (x : List (Nat × Nat)) (n : Nat) : (s.setMsixCtl x).chan n = s.chan n := rfl
@[simp] theorem State.chan_setAtsOn (x : List Nat) (n : Nat) : (s.setAtsOn x).chan n = s.chan n := rfl
@[simp] theorem State.chan_setHartFull (x : List Nat) (n : Nat) : (s.setHartFull x).chan n = s.chan n := rfl
@[simp] theorem State.chan_setReg (a1 : Nat) (v1 : Word) (n : Nat) : (s.setReg a1 v1).chan n = s.chan n := rfl
@[simp] theorem State.chan_wr (f1 : RF) (v1 : Nat) (n : Nat) : (s.wr f1 v1).chan n = s.chan n := rfl
@[simp] theorem State.chan_setCore (c1 : Nat) (k1 : Core) (n : Nat) : (s.setCore c1 k1).chan n = s.chan n := rfl
@[simp] theorem State.chan_modCore (c1 : Nat) (g : Core → Core) (n : Nat) : (s.modCore c1 g).chan n = s.chan n := rfl
@[simp] theorem State.chan_setEntry (c1 k1 : Nat) (e : Entry) (n : Nat) : (s.setEntry c1 k1 e).chan n = s.chan n := rfl
@[simp] theorem State.chan_setHostBytes (a1 : Nat) (l : List (BitVec 8)) (n : Nat) : (s.setHostBytes a1 l).chan n = s.chan n := rfl
@[simp] theorem State.chan_raiseAs (code : Code) (sev unit part pay : Nat) (n : Nat) : (s.raiseAs code sev unit part pay).chan n = s.chan n := rfl
@[simp] theorem State.chan_raise (code : Code) (unit part pay : Nat) (n : Nat) : (s.raise code unit part pay).chan n = s.chan n := rfl
@[simp] theorem State.chan_raiseCore (code : Code) (c1 engine pay : Nat) (n : Nat) : (s.raiseCore code c1 engine pay).chan n = s.chan n := rfl
@[simp] theorem State.chan_clearBad (a1 n1 : Nat) (n : Nat) : (s.clearBad a1 n1).chan n = s.chan n := rfl
@[simp] theorem State.chan_setObj (o1 : Nat) (x : SyncObj) (n : Nat) : (s.setObj o1 x).chan n = s.chan n := rfl
@[simp] theorem State.chan_modPort (n1 : Nat) (g : Port → Port) (n : Nat) : (s.modPort n1 g).chan n = s.chan n := rfl
@[simp] theorem State.chan_modFeed (n1 : Nat) (g : Feed → Feed) (n : Nat) : (s.modFeed n1 g).chan n = s.chan n := rfl
@[simp] theorem State.chan_modStream (n1 : Nat) (g : Stream → Stream) (n : Nat) : (s.modStream n1 g).chan n = s.chan n := rfl
@[simp] theorem State.chan_modRing (n1 : Nat) (g : EventRing → EventRing) (n : Nat) : (s.modRing n1 g).chan n = s.chan n := rfl
@[simp] theorem State.chan_modJob (n1 : Nat) (g : Job → Job) (n : Nat) : (s.modJob n1 g).chan n = s.chan n := rfl
@[simp] theorem State.chan_setFlag (n1 v1 : Nat) (n : Nat) : (s.setFlag n1 v1).chan n = s.chan n := rfl
@[simp] theorem State.chan_setHeadWait (n1 : Nat) (w1 : HeadWait) (n : Nat) : (s.setHeadWait n1 w1).chan n = s.chan n := rfl
@[simp] theorem State.chan_modRedRing (n1 : Nat) (g : RedRing → RedRing) (n : Nat) : (s.modRedRing n1 g).chan n = s.chan n := rfl
@[simp] theorem State.chan_modFellows (g : Fellows → Fellows) (n : Nat) : (s.modFellows g).chan n = s.chan n := rfl
@[simp] theorem State.chan_count (a1 n1 : Nat) (n : Nat) : (s.count a1 n1).chan n = s.chan n := by unfold State.chan; simp
@[simp] theorem State.feed_setDtime (x : Nat) (n : Nat) : (s.setDtime x).feed n = s.feed n := rfl
@[simp] theorem State.feed_setRegs (x : List (Nat × Word)) (n : Nat) : (s.setRegs x).feed n = s.feed n := rfl
@[simp] theorem State.feed_setMem (x : List Host.Cell) (n : Nat) : (s.setMem x).feed n = s.feed n := rfl
@[simp] theorem State.feed_setBook (x : List (Nat × Entry)) (n : Nat) : (s.setBook x).feed n = s.feed n := rfl
@[simp] theorem State.feed_setLearned (x : List Learned) (n : Nat) : (s.setLearned x).feed n = s.feed n := rfl
@[simp] theorem State.feed_setBenched (x : List (Nat × Nat)) (n : Nat) : (s.setBenched x).feed n = s.feed n := rfl
@[simp] theorem State.feed_setSync (x : List (Nat × SyncObj)) (n : Nat) : (s.setSync x).feed n = s.feed n := rfl
@[simp] theorem State.feed_setWaitOrder (x : Nat) (n : Nat) : (s.setWaitOrder x).feed n = s.feed n := rfl
@[simp] theorem State.feed_setSignals (x : List Signal) (n : Nat) : (s.setSignals x).feed n = s.feed n := rfl
@[simp] theorem State.feed_setDispatch (x : List SegRec) (n : Nat) : (s.setDispatch x).feed n = s.feed n := rfl
@[simp] theorem State.feed_setSegOrder (x : Nat) (n : Nat) : (s.setSegOrder x).feed n = s.feed n := rfl
@[simp] theorem State.feed_setStreams (x : List (Nat × Stream)) (n : Nat) : (s.setStreams x).feed n = s.feed n := rfl
@[simp] theorem State.feed_setRings (x : List (Nat × EventRing)) (n : Nat) : (s.setRings x).feed n = s.feed n := rfl
@[simp] theorem State.feed_setHeads (x : List (Nat × HeadWait)) (n : Nat) : (s.setHeads x).feed n = s.feed n := rfl
@[simp] theorem State.feed_setHaltAt (x : List (Nat × Nat)) (n : Nat) : (s.setHaltAt x).feed n = s.feed n := rfl
@[simp] theorem State.feed_setHeldHeads (x : List Nat) (n : Nat) : (s.setHeldHeads x).feed n = s.feed n := rfl
@[simp] theorem State.feed_setQueues (x : List (Nat × Nat)) (n : Nat) : (s.setQueues x).feed n = s.feed n := rfl
@[simp] theorem State.feed_setAtc (x : List (Nat × Nat)) (n : Nat) : (s.setAtc x).feed n = s.feed n := rfl
@[simp] theorem State.feed_setLowPower (x : List Nat) (n : Nat) : (s.setLowPower x).feed n = s.feed n := rfl
@[simp] theorem State.feed_setFlags (x : List (Nat × Nat)) (n : Nat) : (s.setFlags x).feed n = s.feed n := rfl
@[simp] theorem State.feed_setOut (x : List Output) (n : Nat) : (s.setOut x).feed n = s.feed n := rfl
@[simp] theorem State.feed_setEvents (x : List Event) (n : Nat) : (s.setEvents x).feed n = s.feed n := rfl
@[simp] theorem State.feed_setBad (x : List (Nat × Bool)) (n : Nat) : (s.setBad x).feed n = s.feed n := rfl
@[simp] theorem State.feed_setPoison (x : List (Nat × Bool)) (n : Nat) : (s.setPoison x).feed n = s.feed n := rfl
@[simp] theorem State.feed_setCache (x : List (Nat × List CacheLine)) (n : Nat) : (s.setCache x).feed n = s.feed n := rfl
@[simp] theorem State.feed_setFlash (x : List (Nat × FlashObj)) (n : Nat) : (s.setFlash x).feed n = s.feed n := rfl
@[simp] theorem State.feed_setFlashDown (x : List Nat) (n : Nat) : (s.setFlashDown x).feed n = s.feed n := rfl
@[simp] theorem State.feed_setPorts (x : List (Nat × Port)) (n : Nat) : (s.setPorts x).feed n = s.feed n := rfl
@[simp] theorem State.feed_setInbox (x : List (Nat × Msg)) (n : Nat) : (s.setInbox x).feed n = s.feed n := rfl
@[simp] theorem State.feed_setFellows (x : Fellows) (n : Nat) : (s.setFellows x).feed n = s.feed n := rfl
@[simp] theorem State.feed_setPfc (x : List (Nat × Nat)) (n : Nat) : (s.setPfc x).feed n = s.feed n := rfl
@[simp] theorem State.feed_setReqs (x : List Req) (n : Nat) : (s.setReqs x).feed n = s.feed n := rfl
@[simp] theorem State.feed_setSerial (x : Nat) (n : Nat) : (s.setSerial x).feed n = s.feed n := rfl
@[simp] theorem State.feed_setTag (x : Nat) (n : Nat) : (s.setTag x).feed n = s.feed n := rfl
@[simp] theorem State.feed_setChans (x : List (Nat × Chan)) (n : Nat) : (s.setChans x).feed n = s.feed n := rfl
@[simp] theorem State.feed_setFences (x : List Fence) (n : Nat) : (s.setFences x).feed n = s.feed n := rfl
@[simp] theorem State.feed_setRecoveries (x : List Recovery) (n : Nat) : (s.setRecoveries x).feed n = s.feed n := rfl
@[simp] theorem State.feed_setGviews (x : List (Nat × GView)) (n : Nat) : (s.setGviews x).feed n = s.feed n := rfl
@[simp] theorem State.feed_setReds (x : List Red) (n : Nat) : (s.setReds x).feed n = s.feed n := rfl
@[simp] theorem State.feed_setRedSeq (x : List (Nat × Nat)) (n : Nat) : (s.setRedSeq x).feed n = s.feed n := rfl
@[simp] theorem State.feed_setRedRings (x : List (Nat × RedRing)) (n : Nat) : (s.setRedRings x).feed n = s.feed n := rfl
@[simp] theorem State.feed_setJobs (x : List (Nat × Job)) (n : Nat) : (s.setJobs x).feed n = s.feed n := rfl
@[simp] theorem State.feed_setTraceBufs (x : List (Nat × TraceBuf)) (n : Nat) : (s.setTraceBufs x).feed n = s.feed n := rfl
@[simp] theorem State.feed_setTraceTurn (x : List (Nat × Nat)) (n : Nat) : (s.setTraceTurn x).feed n = s.feed n := rfl
@[simp] theorem State.feed_setDm (x : DebugModule) (n : Nat) : (s.setDm x).feed n = s.feed n := rfl
@[simp] theorem State.feed_setPosted (x : List Posted) (n : Nat) : (s.setPosted x).feed n = s.feed n := rfl
@[simp] theorem State.feed_setReferee (x : Referee) (n : Nat) : (s.setReferee x).feed n = s.feed n := rfl
@[simp] theorem State.feed_setPower (x : Power) (n : Nat) : (s.setPower x).feed n = s.feed n := rfl
@[simp] theorem State.feed_setFreeCount (x : Nat) (n : Nat) : (s.setFreeCount x).feed n = s.feed n := rfl
@[simp] theorem State.feed_setLines (x : List (Nat × HartLine)) (n : Nat) : (s.setLines x).feed n = s.feed n := rfl
@[simp] theorem State.feed_setHartCsr (x : List (Nat × Nat)) (n : Nat) : (s.setHartCsr x).feed n = s.feed n := rfl
@[simp] theorem State.feed_setMsix (x : List (Nat × MsixEntry)) (n : Nat) : (s.setMsix x).feed n = s.feed n := rfl
@[simp] theorem State.feed_setMsixCtl (x : List (Nat × Nat)) (n : Nat) : (s.setMsixCtl x).feed n = s.feed n := rfl
@[simp] theorem State.feed_setAtsOn (x : List Nat) (n : Nat) : (s.setAtsOn x).feed n = s.feed n := rfl
@[simp] theorem State.feed_setHartFull (x : List Nat) (n : Nat) : (s.setHartFull x).feed n = s.feed n := rfl
@[simp] theorem State.feed_setReg (a1 : Nat) (v1 : Word) (n : Nat) : (s.setReg a1 v1).feed n = s.feed n := rfl
@[simp] theorem State.feed_wr (f1 : RF) (v1 : Nat) (n : Nat) : (s.wr f1 v1).feed n = s.feed n := rfl
@[simp] theorem State.feed_setCore (c1 : Nat) (k1 : Core) (n : Nat) : (s.setCore c1 k1).feed n = s.feed n := rfl
@[simp] theorem State.feed_modCore (c1 : Nat) (g : Core → Core) (n : Nat) : (s.modCore c1 g).feed n = s.feed n := rfl
@[simp] theorem State.feed_setEntry (c1 k1 : Nat) (e : Entry) (n : Nat) : (s.setEntry c1 k1 e).feed n = s.feed n := rfl
@[simp] theorem State.feed_setHostBytes (a1 : Nat) (l : List (BitVec 8)) (n : Nat) : (s.setHostBytes a1 l).feed n = s.feed n := rfl
@[simp] theorem State.feed_raiseAs (code : Code) (sev unit part pay : Nat) (n : Nat) : (s.raiseAs code sev unit part pay).feed n = s.feed n := rfl
@[simp] theorem State.feed_raise (code : Code) (unit part pay : Nat) (n : Nat) : (s.raise code unit part pay).feed n = s.feed n := rfl
@[simp] theorem State.feed_raiseCore (code : Code) (c1 engine pay : Nat) (n : Nat) : (s.raiseCore code c1 engine pay).feed n = s.feed n := rfl
@[simp] theorem State.feed_clearBad (a1 n1 : Nat) (n : Nat) : (s.clearBad a1 n1).feed n = s.feed n := rfl
@[simp] theorem State.feed_setObj (o1 : Nat) (x : SyncObj) (n : Nat) : (s.setObj o1 x).feed n = s.feed n := rfl
@[simp] theorem State.feed_modPort (n1 : Nat) (g : Port → Port) (n : Nat) : (s.modPort n1 g).feed n = s.feed n := rfl
@[simp] theorem State.feed_modChan (n1 : Nat) (g : Chan → Chan) (n : Nat) : (s.modChan n1 g).feed n = s.feed n := rfl
@[simp] theorem State.feed_modStream (n1 : Nat) (g : Stream → Stream) (n : Nat) : (s.modStream n1 g).feed n = s.feed n := rfl
@[simp] theorem State.feed_modRing (n1 : Nat) (g : EventRing → EventRing) (n : Nat) : (s.modRing n1 g).feed n = s.feed n := rfl
@[simp] theorem State.feed_modJob (n1 : Nat) (g : Job → Job) (n : Nat) : (s.modJob n1 g).feed n = s.feed n := rfl
@[simp] theorem State.feed_setFlag (n1 v1 : Nat) (n : Nat) : (s.setFlag n1 v1).feed n = s.feed n := rfl
@[simp] theorem State.feed_setHeadWait (n1 : Nat) (w1 : HeadWait) (n : Nat) : (s.setHeadWait n1 w1).feed n = s.feed n := rfl
@[simp] theorem State.feed_modRedRing (n1 : Nat) (g : RedRing → RedRing) (n : Nat) : (s.modRedRing n1 g).feed n = s.feed n := rfl
@[simp] theorem State.feed_modFellows (g : Fellows → Fellows) (n : Nat) : (s.modFellows g).feed n = s.feed n := rfl
@[simp] theorem State.feed_count (a1 n1 : Nat) (n : Nat) : (s.count a1 n1).feed n = s.feed n := by unfold State.feed; simp
@[simp] theorem State.port_setDtime (x : Nat) (n : Nat) : (s.setDtime x).port n = s.port n := rfl
@[simp] theorem State.port_setRegs (x : List (Nat × Word)) (n : Nat) : (s.setRegs x).port n = s.port n := rfl
@[simp] theorem State.port_setMem (x : List Host.Cell) (n : Nat) : (s.setMem x).port n = s.port n := rfl
@[simp] theorem State.port_setBook (x : List (Nat × Entry)) (n : Nat) : (s.setBook x).port n = s.port n := rfl
@[simp] theorem State.port_setLearned (x : List Learned) (n : Nat) : (s.setLearned x).port n = s.port n := rfl
@[simp] theorem State.port_setBenched (x : List (Nat × Nat)) (n : Nat) : (s.setBenched x).port n = s.port n := rfl
@[simp] theorem State.port_setSync (x : List (Nat × SyncObj)) (n : Nat) : (s.setSync x).port n = s.port n := rfl
@[simp] theorem State.port_setWaitOrder (x : Nat) (n : Nat) : (s.setWaitOrder x).port n = s.port n := rfl
@[simp] theorem State.port_setSignals (x : List Signal) (n : Nat) : (s.setSignals x).port n = s.port n := rfl
@[simp] theorem State.port_setDispatch (x : List SegRec) (n : Nat) : (s.setDispatch x).port n = s.port n := rfl
@[simp] theorem State.port_setSegOrder (x : Nat) (n : Nat) : (s.setSegOrder x).port n = s.port n := rfl
@[simp] theorem State.port_setStreams (x : List (Nat × Stream)) (n : Nat) : (s.setStreams x).port n = s.port n := rfl
@[simp] theorem State.port_setRings (x : List (Nat × EventRing)) (n : Nat) : (s.setRings x).port n = s.port n := rfl
@[simp] theorem State.port_setHeads (x : List (Nat × HeadWait)) (n : Nat) : (s.setHeads x).port n = s.port n := rfl
@[simp] theorem State.port_setHaltAt (x : List (Nat × Nat)) (n : Nat) : (s.setHaltAt x).port n = s.port n := rfl
@[simp] theorem State.port_setHeldHeads (x : List Nat) (n : Nat) : (s.setHeldHeads x).port n = s.port n := rfl
@[simp] theorem State.port_setQueues (x : List (Nat × Nat)) (n : Nat) : (s.setQueues x).port n = s.port n := rfl
@[simp] theorem State.port_setAtc (x : List (Nat × Nat)) (n : Nat) : (s.setAtc x).port n = s.port n := rfl
@[simp] theorem State.port_setLowPower (x : List Nat) (n : Nat) : (s.setLowPower x).port n = s.port n := rfl
@[simp] theorem State.port_setFlags (x : List (Nat × Nat)) (n : Nat) : (s.setFlags x).port n = s.port n := rfl
@[simp] theorem State.port_setOut (x : List Output) (n : Nat) : (s.setOut x).port n = s.port n := rfl
@[simp] theorem State.port_setEvents (x : List Event) (n : Nat) : (s.setEvents x).port n = s.port n := rfl
@[simp] theorem State.port_setBad (x : List (Nat × Bool)) (n : Nat) : (s.setBad x).port n = s.port n := rfl
@[simp] theorem State.port_setPoison (x : List (Nat × Bool)) (n : Nat) : (s.setPoison x).port n = s.port n := rfl
@[simp] theorem State.port_setCache (x : List (Nat × List CacheLine)) (n : Nat) : (s.setCache x).port n = s.port n := rfl
@[simp] theorem State.port_setFlash (x : List (Nat × FlashObj)) (n : Nat) : (s.setFlash x).port n = s.port n := rfl
@[simp] theorem State.port_setFlashDown (x : List Nat) (n : Nat) : (s.setFlashDown x).port n = s.port n := rfl
@[simp] theorem State.port_setInbox (x : List (Nat × Msg)) (n : Nat) : (s.setInbox x).port n = s.port n := rfl
@[simp] theorem State.port_setFellows (x : Fellows) (n : Nat) : (s.setFellows x).port n = s.port n := rfl
@[simp] theorem State.port_setPfc (x : List (Nat × Nat)) (n : Nat) : (s.setPfc x).port n = s.port n := rfl
@[simp] theorem State.port_setReqs (x : List Req) (n : Nat) : (s.setReqs x).port n = s.port n := rfl
@[simp] theorem State.port_setSerial (x : Nat) (n : Nat) : (s.setSerial x).port n = s.port n := rfl
@[simp] theorem State.port_setTag (x : Nat) (n : Nat) : (s.setTag x).port n = s.port n := rfl
@[simp] theorem State.port_setChans (x : List (Nat × Chan)) (n : Nat) : (s.setChans x).port n = s.port n := rfl
@[simp] theorem State.port_setFeeds (x : List (Nat × Feed)) (n : Nat) : (s.setFeeds x).port n = s.port n := rfl
@[simp] theorem State.port_setFences (x : List Fence) (n : Nat) : (s.setFences x).port n = s.port n := rfl
@[simp] theorem State.port_setRecoveries (x : List Recovery) (n : Nat) : (s.setRecoveries x).port n = s.port n := rfl
@[simp] theorem State.port_setGviews (x : List (Nat × GView)) (n : Nat) : (s.setGviews x).port n = s.port n := rfl
@[simp] theorem State.port_setReds (x : List Red) (n : Nat) : (s.setReds x).port n = s.port n := rfl
@[simp] theorem State.port_setRedSeq (x : List (Nat × Nat)) (n : Nat) : (s.setRedSeq x).port n = s.port n := rfl
@[simp] theorem State.port_setRedRings (x : List (Nat × RedRing)) (n : Nat) : (s.setRedRings x).port n = s.port n := rfl
@[simp] theorem State.port_setJobs (x : List (Nat × Job)) (n : Nat) : (s.setJobs x).port n = s.port n := rfl
@[simp] theorem State.port_setTraceBufs (x : List (Nat × TraceBuf)) (n : Nat) : (s.setTraceBufs x).port n = s.port n := rfl
@[simp] theorem State.port_setTraceTurn (x : List (Nat × Nat)) (n : Nat) : (s.setTraceTurn x).port n = s.port n := rfl
@[simp] theorem State.port_setDm (x : DebugModule) (n : Nat) : (s.setDm x).port n = s.port n := rfl
@[simp] theorem State.port_setPosted (x : List Posted) (n : Nat) : (s.setPosted x).port n = s.port n := rfl
@[simp] theorem State.port_setReferee (x : Referee) (n : Nat) : (s.setReferee x).port n = s.port n := rfl
@[simp] theorem State.port_setPower (x : Power) (n : Nat) : (s.setPower x).port n = s.port n := rfl
@[simp] theorem State.port_setFreeCount (x : Nat) (n : Nat) : (s.setFreeCount x).port n = s.port n := rfl
@[simp] theorem State.port_setLines (x : List (Nat × HartLine)) (n : Nat) : (s.setLines x).port n = s.port n := rfl
@[simp] theorem State.port_setHartCsr (x : List (Nat × Nat)) (n : Nat) : (s.setHartCsr x).port n = s.port n := rfl
@[simp] theorem State.port_setMsix (x : List (Nat × MsixEntry)) (n : Nat) : (s.setMsix x).port n = s.port n := rfl
@[simp] theorem State.port_setMsixCtl (x : List (Nat × Nat)) (n : Nat) : (s.setMsixCtl x).port n = s.port n := rfl
@[simp] theorem State.port_setAtsOn (x : List Nat) (n : Nat) : (s.setAtsOn x).port n = s.port n := rfl
@[simp] theorem State.port_setHartFull (x : List Nat) (n : Nat) : (s.setHartFull x).port n = s.port n := rfl
@[simp] theorem State.port_setReg (a1 : Nat) (v1 : Word) (n : Nat) : (s.setReg a1 v1).port n = s.port n := rfl
@[simp] theorem State.port_wr (f1 : RF) (v1 : Nat) (n : Nat) : (s.wr f1 v1).port n = s.port n := rfl
@[simp] theorem State.port_setCore (c1 : Nat) (k1 : Core) (n : Nat) : (s.setCore c1 k1).port n = s.port n := rfl
@[simp] theorem State.port_modCore (c1 : Nat) (g : Core → Core) (n : Nat) : (s.modCore c1 g).port n = s.port n := rfl
@[simp] theorem State.port_setEntry (c1 k1 : Nat) (e : Entry) (n : Nat) : (s.setEntry c1 k1 e).port n = s.port n := rfl
@[simp] theorem State.port_setHostBytes (a1 : Nat) (l : List (BitVec 8)) (n : Nat) : (s.setHostBytes a1 l).port n = s.port n := rfl
@[simp] theorem State.port_raiseAs (code : Code) (sev unit part pay : Nat) (n : Nat) : (s.raiseAs code sev unit part pay).port n = s.port n := rfl
@[simp] theorem State.port_raise (code : Code) (unit part pay : Nat) (n : Nat) : (s.raise code unit part pay).port n = s.port n := rfl
@[simp] theorem State.port_raiseCore (code : Code) (c1 engine pay : Nat) (n : Nat) : (s.raiseCore code c1 engine pay).port n = s.port n := rfl
@[simp] theorem State.port_clearBad (a1 n1 : Nat) (n : Nat) : (s.clearBad a1 n1).port n = s.port n := rfl
@[simp] theorem State.port_setObj (o1 : Nat) (x : SyncObj) (n : Nat) : (s.setObj o1 x).port n = s.port n := rfl
@[simp] theorem State.port_modChan (n1 : Nat) (g : Chan → Chan) (n : Nat) : (s.modChan n1 g).port n = s.port n := rfl
@[simp] theorem State.port_modFeed (n1 : Nat) (g : Feed → Feed) (n : Nat) : (s.modFeed n1 g).port n = s.port n := rfl
@[simp] theorem State.port_modStream (n1 : Nat) (g : Stream → Stream) (n : Nat) : (s.modStream n1 g).port n = s.port n := rfl
@[simp] theorem State.port_modRing (n1 : Nat) (g : EventRing → EventRing) (n : Nat) : (s.modRing n1 g).port n = s.port n := rfl
@[simp] theorem State.port_modJob (n1 : Nat) (g : Job → Job) (n : Nat) : (s.modJob n1 g).port n = s.port n := rfl
@[simp] theorem State.port_setFlag (n1 v1 : Nat) (n : Nat) : (s.setFlag n1 v1).port n = s.port n := rfl
@[simp] theorem State.port_setHeadWait (n1 : Nat) (w1 : HeadWait) (n : Nat) : (s.setHeadWait n1 w1).port n = s.port n := rfl
@[simp] theorem State.port_modRedRing (n1 : Nat) (g : RedRing → RedRing) (n : Nat) : (s.modRedRing n1 g).port n = s.port n := rfl
@[simp] theorem State.port_modFellows (g : Fellows → Fellows) (n : Nat) : (s.modFellows g).port n = s.port n := rfl
@[simp] theorem State.port_count (a1 n1 : Nat) (n : Nat) : (s.count a1 n1).port n = s.port n := by unfold State.port; simp
@[simp] theorem State.job_setDtime (x : Nat) (n : Nat) : (s.setDtime x).job n = s.job n := rfl
@[simp] theorem State.job_setRegs (x : List (Nat × Word)) (n : Nat) : (s.setRegs x).job n = s.job n := rfl
@[simp] theorem State.job_setMem (x : List Host.Cell) (n : Nat) : (s.setMem x).job n = s.job n := rfl
@[simp] theorem State.job_setBook (x : List (Nat × Entry)) (n : Nat) : (s.setBook x).job n = s.job n := rfl
@[simp] theorem State.job_setLearned (x : List Learned) (n : Nat) : (s.setLearned x).job n = s.job n := rfl
@[simp] theorem State.job_setBenched (x : List (Nat × Nat)) (n : Nat) : (s.setBenched x).job n = s.job n := rfl
@[simp] theorem State.job_setSync (x : List (Nat × SyncObj)) (n : Nat) : (s.setSync x).job n = s.job n := rfl
@[simp] theorem State.job_setWaitOrder (x : Nat) (n : Nat) : (s.setWaitOrder x).job n = s.job n := rfl
@[simp] theorem State.job_setSignals (x : List Signal) (n : Nat) : (s.setSignals x).job n = s.job n := rfl
@[simp] theorem State.job_setDispatch (x : List SegRec) (n : Nat) : (s.setDispatch x).job n = s.job n := rfl
@[simp] theorem State.job_setSegOrder (x : Nat) (n : Nat) : (s.setSegOrder x).job n = s.job n := rfl
@[simp] theorem State.job_setStreams (x : List (Nat × Stream)) (n : Nat) : (s.setStreams x).job n = s.job n := rfl
@[simp] theorem State.job_setRings (x : List (Nat × EventRing)) (n : Nat) : (s.setRings x).job n = s.job n := rfl
@[simp] theorem State.job_setHeads (x : List (Nat × HeadWait)) (n : Nat) : (s.setHeads x).job n = s.job n := rfl
@[simp] theorem State.job_setHaltAt (x : List (Nat × Nat)) (n : Nat) : (s.setHaltAt x).job n = s.job n := rfl
@[simp] theorem State.job_setHeldHeads (x : List Nat) (n : Nat) : (s.setHeldHeads x).job n = s.job n := rfl
@[simp] theorem State.job_setQueues (x : List (Nat × Nat)) (n : Nat) : (s.setQueues x).job n = s.job n := rfl
@[simp] theorem State.job_setAtc (x : List (Nat × Nat)) (n : Nat) : (s.setAtc x).job n = s.job n := rfl
@[simp] theorem State.job_setLowPower (x : List Nat) (n : Nat) : (s.setLowPower x).job n = s.job n := rfl
@[simp] theorem State.job_setFlags (x : List (Nat × Nat)) (n : Nat) : (s.setFlags x).job n = s.job n := rfl
@[simp] theorem State.job_setOut (x : List Output) (n : Nat) : (s.setOut x).job n = s.job n := rfl
@[simp] theorem State.job_setEvents (x : List Event) (n : Nat) : (s.setEvents x).job n = s.job n := rfl
@[simp] theorem State.job_setBad (x : List (Nat × Bool)) (n : Nat) : (s.setBad x).job n = s.job n := rfl
@[simp] theorem State.job_setPoison (x : List (Nat × Bool)) (n : Nat) : (s.setPoison x).job n = s.job n := rfl
@[simp] theorem State.job_setCache (x : List (Nat × List CacheLine)) (n : Nat) : (s.setCache x).job n = s.job n := rfl
@[simp] theorem State.job_setFlash (x : List (Nat × FlashObj)) (n : Nat) : (s.setFlash x).job n = s.job n := rfl
@[simp] theorem State.job_setFlashDown (x : List Nat) (n : Nat) : (s.setFlashDown x).job n = s.job n := rfl
@[simp] theorem State.job_setPorts (x : List (Nat × Port)) (n : Nat) : (s.setPorts x).job n = s.job n := rfl
@[simp] theorem State.job_setInbox (x : List (Nat × Msg)) (n : Nat) : (s.setInbox x).job n = s.job n := rfl
@[simp] theorem State.job_setFellows (x : Fellows) (n : Nat) : (s.setFellows x).job n = s.job n := rfl
@[simp] theorem State.job_setPfc (x : List (Nat × Nat)) (n : Nat) : (s.setPfc x).job n = s.job n := rfl
@[simp] theorem State.job_setReqs (x : List Req) (n : Nat) : (s.setReqs x).job n = s.job n := rfl
@[simp] theorem State.job_setSerial (x : Nat) (n : Nat) : (s.setSerial x).job n = s.job n := rfl
@[simp] theorem State.job_setTag (x : Nat) (n : Nat) : (s.setTag x).job n = s.job n := rfl
@[simp] theorem State.job_setChans (x : List (Nat × Chan)) (n : Nat) : (s.setChans x).job n = s.job n := rfl
@[simp] theorem State.job_setFeeds (x : List (Nat × Feed)) (n : Nat) : (s.setFeeds x).job n = s.job n := rfl
@[simp] theorem State.job_setFences (x : List Fence) (n : Nat) : (s.setFences x).job n = s.job n := rfl
@[simp] theorem State.job_setRecoveries (x : List Recovery) (n : Nat) : (s.setRecoveries x).job n = s.job n := rfl
@[simp] theorem State.job_setGviews (x : List (Nat × GView)) (n : Nat) : (s.setGviews x).job n = s.job n := rfl
@[simp] theorem State.job_setReds (x : List Red) (n : Nat) : (s.setReds x).job n = s.job n := rfl
@[simp] theorem State.job_setRedSeq (x : List (Nat × Nat)) (n : Nat) : (s.setRedSeq x).job n = s.job n := rfl
@[simp] theorem State.job_setRedRings (x : List (Nat × RedRing)) (n : Nat) : (s.setRedRings x).job n = s.job n := rfl
@[simp] theorem State.job_setTraceBufs (x : List (Nat × TraceBuf)) (n : Nat) : (s.setTraceBufs x).job n = s.job n := rfl
@[simp] theorem State.job_setTraceTurn (x : List (Nat × Nat)) (n : Nat) : (s.setTraceTurn x).job n = s.job n := rfl
@[simp] theorem State.job_setDm (x : DebugModule) (n : Nat) : (s.setDm x).job n = s.job n := rfl
@[simp] theorem State.job_setPosted (x : List Posted) (n : Nat) : (s.setPosted x).job n = s.job n := rfl
@[simp] theorem State.job_setReferee (x : Referee) (n : Nat) : (s.setReferee x).job n = s.job n := rfl
@[simp] theorem State.job_setPower (x : Power) (n : Nat) : (s.setPower x).job n = s.job n := rfl
@[simp] theorem State.job_setFreeCount (x : Nat) (n : Nat) : (s.setFreeCount x).job n = s.job n := rfl
@[simp] theorem State.job_setLines (x : List (Nat × HartLine)) (n : Nat) : (s.setLines x).job n = s.job n := rfl
@[simp] theorem State.job_setHartCsr (x : List (Nat × Nat)) (n : Nat) : (s.setHartCsr x).job n = s.job n := rfl
@[simp] theorem State.job_setMsix (x : List (Nat × MsixEntry)) (n : Nat) : (s.setMsix x).job n = s.job n := rfl
@[simp] theorem State.job_setMsixCtl (x : List (Nat × Nat)) (n : Nat) : (s.setMsixCtl x).job n = s.job n := rfl
@[simp] theorem State.job_setAtsOn (x : List Nat) (n : Nat) : (s.setAtsOn x).job n = s.job n := rfl
@[simp] theorem State.job_setHartFull (x : List Nat) (n : Nat) : (s.setHartFull x).job n = s.job n := rfl
@[simp] theorem State.job_setReg (a1 : Nat) (v1 : Word) (n : Nat) : (s.setReg a1 v1).job n = s.job n := rfl
@[simp] theorem State.job_wr (f1 : RF) (v1 : Nat) (n : Nat) : (s.wr f1 v1).job n = s.job n := rfl
@[simp] theorem State.job_setCore (c1 : Nat) (k1 : Core) (n : Nat) : (s.setCore c1 k1).job n = s.job n := rfl
@[simp] theorem State.job_modCore (c1 : Nat) (g : Core → Core) (n : Nat) : (s.modCore c1 g).job n = s.job n := rfl
@[simp] theorem State.job_setEntry (c1 k1 : Nat) (e : Entry) (n : Nat) : (s.setEntry c1 k1 e).job n = s.job n := rfl
@[simp] theorem State.job_setHostBytes (a1 : Nat) (l : List (BitVec 8)) (n : Nat) : (s.setHostBytes a1 l).job n = s.job n := rfl
@[simp] theorem State.job_raiseAs (code : Code) (sev unit part pay : Nat) (n : Nat) : (s.raiseAs code sev unit part pay).job n = s.job n := rfl
@[simp] theorem State.job_raise (code : Code) (unit part pay : Nat) (n : Nat) : (s.raise code unit part pay).job n = s.job n := rfl
@[simp] theorem State.job_raiseCore (code : Code) (c1 engine pay : Nat) (n : Nat) : (s.raiseCore code c1 engine pay).job n = s.job n := rfl
@[simp] theorem State.job_clearBad (a1 n1 : Nat) (n : Nat) : (s.clearBad a1 n1).job n = s.job n := rfl
@[simp] theorem State.job_setObj (o1 : Nat) (x : SyncObj) (n : Nat) : (s.setObj o1 x).job n = s.job n := rfl
@[simp] theorem State.job_modPort (n1 : Nat) (g : Port → Port) (n : Nat) : (s.modPort n1 g).job n = s.job n := rfl
@[simp] theorem State.job_modChan (n1 : Nat) (g : Chan → Chan) (n : Nat) : (s.modChan n1 g).job n = s.job n := rfl
@[simp] theorem State.job_modFeed (n1 : Nat) (g : Feed → Feed) (n : Nat) : (s.modFeed n1 g).job n = s.job n := rfl
@[simp] theorem State.job_modStream (n1 : Nat) (g : Stream → Stream) (n : Nat) : (s.modStream n1 g).job n = s.job n := rfl
@[simp] theorem State.job_modRing (n1 : Nat) (g : EventRing → EventRing) (n : Nat) : (s.modRing n1 g).job n = s.job n := rfl
@[simp] theorem State.job_setFlag (n1 v1 : Nat) (n : Nat) : (s.setFlag n1 v1).job n = s.job n := rfl
@[simp] theorem State.job_setHeadWait (n1 : Nat) (w1 : HeadWait) (n : Nat) : (s.setHeadWait n1 w1).job n = s.job n := rfl
@[simp] theorem State.job_modRedRing (n1 : Nat) (g : RedRing → RedRing) (n : Nat) : (s.modRedRing n1 g).job n = s.job n := rfl
@[simp] theorem State.job_modFellows (g : Fellows → Fellows) (n : Nat) : (s.modFellows g).job n = s.job n := rfl
@[simp] theorem State.job_count (a1 n1 : Nat) (n : Nat) : (s.count a1 n1).job n = s.job n := by unfold State.job; simp
@[simp] theorem State.flagWord_setDtime (x : Nat) (n : Nat) : (s.setDtime x).flagWord n = s.flagWord n := rfl
@[simp] theorem State.flagWord_setRegs (x : List (Nat × Word)) (n : Nat) : (s.setRegs x).flagWord n = s.flagWord n := rfl
@[simp] theorem State.flagWord_setMem (x : List Host.Cell) (n : Nat) : (s.setMem x).flagWord n = s.flagWord n := rfl
@[simp] theorem State.flagWord_setBook (x : List (Nat × Entry)) (n : Nat) : (s.setBook x).flagWord n = s.flagWord n := rfl
@[simp] theorem State.flagWord_setLearned (x : List Learned) (n : Nat) : (s.setLearned x).flagWord n = s.flagWord n := rfl
@[simp] theorem State.flagWord_setBenched (x : List (Nat × Nat)) (n : Nat) : (s.setBenched x).flagWord n = s.flagWord n := rfl
@[simp] theorem State.flagWord_setSync (x : List (Nat × SyncObj)) (n : Nat) : (s.setSync x).flagWord n = s.flagWord n := rfl
@[simp] theorem State.flagWord_setWaitOrder (x : Nat) (n : Nat) : (s.setWaitOrder x).flagWord n = s.flagWord n := rfl
@[simp] theorem State.flagWord_setSignals (x : List Signal) (n : Nat) : (s.setSignals x).flagWord n = s.flagWord n := rfl
@[simp] theorem State.flagWord_setDispatch (x : List SegRec) (n : Nat) : (s.setDispatch x).flagWord n = s.flagWord n := rfl
@[simp] theorem State.flagWord_setSegOrder (x : Nat) (n : Nat) : (s.setSegOrder x).flagWord n = s.flagWord n := rfl
@[simp] theorem State.flagWord_setStreams (x : List (Nat × Stream)) (n : Nat) : (s.setStreams x).flagWord n = s.flagWord n := rfl
@[simp] theorem State.flagWord_setRings (x : List (Nat × EventRing)) (n : Nat) : (s.setRings x).flagWord n = s.flagWord n := rfl
@[simp] theorem State.flagWord_setHeads (x : List (Nat × HeadWait)) (n : Nat) : (s.setHeads x).flagWord n = s.flagWord n := rfl
@[simp] theorem State.flagWord_setHaltAt (x : List (Nat × Nat)) (n : Nat) : (s.setHaltAt x).flagWord n = s.flagWord n := rfl
@[simp] theorem State.flagWord_setHeldHeads (x : List Nat) (n : Nat) : (s.setHeldHeads x).flagWord n = s.flagWord n := rfl
@[simp] theorem State.flagWord_setQueues (x : List (Nat × Nat)) (n : Nat) : (s.setQueues x).flagWord n = s.flagWord n := rfl
@[simp] theorem State.flagWord_setAtc (x : List (Nat × Nat)) (n : Nat) : (s.setAtc x).flagWord n = s.flagWord n := rfl
@[simp] theorem State.flagWord_setLowPower (x : List Nat) (n : Nat) : (s.setLowPower x).flagWord n = s.flagWord n := rfl
@[simp] theorem State.flagWord_setOut (x : List Output) (n : Nat) : (s.setOut x).flagWord n = s.flagWord n := rfl
@[simp] theorem State.flagWord_setEvents (x : List Event) (n : Nat) : (s.setEvents x).flagWord n = s.flagWord n := rfl
@[simp] theorem State.flagWord_setBad (x : List (Nat × Bool)) (n : Nat) : (s.setBad x).flagWord n = s.flagWord n := rfl
@[simp] theorem State.flagWord_setPoison (x : List (Nat × Bool)) (n : Nat) : (s.setPoison x).flagWord n = s.flagWord n := rfl
@[simp] theorem State.flagWord_setCache (x : List (Nat × List CacheLine)) (n : Nat) : (s.setCache x).flagWord n = s.flagWord n := rfl
@[simp] theorem State.flagWord_setFlash (x : List (Nat × FlashObj)) (n : Nat) : (s.setFlash x).flagWord n = s.flagWord n := rfl
@[simp] theorem State.flagWord_setFlashDown (x : List Nat) (n : Nat) : (s.setFlashDown x).flagWord n = s.flagWord n := rfl
@[simp] theorem State.flagWord_setPorts (x : List (Nat × Port)) (n : Nat) : (s.setPorts x).flagWord n = s.flagWord n := rfl
@[simp] theorem State.flagWord_setInbox (x : List (Nat × Msg)) (n : Nat) : (s.setInbox x).flagWord n = s.flagWord n := rfl
@[simp] theorem State.flagWord_setFellows (x : Fellows) (n : Nat) : (s.setFellows x).flagWord n = s.flagWord n := rfl
@[simp] theorem State.flagWord_setPfc (x : List (Nat × Nat)) (n : Nat) : (s.setPfc x).flagWord n = s.flagWord n := rfl
@[simp] theorem State.flagWord_setReqs (x : List Req) (n : Nat) : (s.setReqs x).flagWord n = s.flagWord n := rfl
@[simp] theorem State.flagWord_setSerial (x : Nat) (n : Nat) : (s.setSerial x).flagWord n = s.flagWord n := rfl
@[simp] theorem State.flagWord_setTag (x : Nat) (n : Nat) : (s.setTag x).flagWord n = s.flagWord n := rfl
@[simp] theorem State.flagWord_setChans (x : List (Nat × Chan)) (n : Nat) : (s.setChans x).flagWord n = s.flagWord n := rfl
@[simp] theorem State.flagWord_setFeeds (x : List (Nat × Feed)) (n : Nat) : (s.setFeeds x).flagWord n = s.flagWord n := rfl
@[simp] theorem State.flagWord_setFences (x : List Fence) (n : Nat) : (s.setFences x).flagWord n = s.flagWord n := rfl
@[simp] theorem State.flagWord_setRecoveries (x : List Recovery) (n : Nat) : (s.setRecoveries x).flagWord n = s.flagWord n := rfl
@[simp] theorem State.flagWord_setGviews (x : List (Nat × GView)) (n : Nat) : (s.setGviews x).flagWord n = s.flagWord n := rfl
@[simp] theorem State.flagWord_setReds (x : List Red) (n : Nat) : (s.setReds x).flagWord n = s.flagWord n := rfl
@[simp] theorem State.flagWord_setRedSeq (x : List (Nat × Nat)) (n : Nat) : (s.setRedSeq x).flagWord n = s.flagWord n := rfl
@[simp] theorem State.flagWord_setRedRings (x : List (Nat × RedRing)) (n : Nat) : (s.setRedRings x).flagWord n = s.flagWord n := rfl
@[simp] theorem State.flagWord_setJobs (x : List (Nat × Job)) (n : Nat) : (s.setJobs x).flagWord n = s.flagWord n := rfl
@[simp] theorem State.flagWord_setTraceBufs (x : List (Nat × TraceBuf)) (n : Nat) : (s.setTraceBufs x).flagWord n = s.flagWord n := rfl
@[simp] theorem State.flagWord_setTraceTurn (x : List (Nat × Nat)) (n : Nat) : (s.setTraceTurn x).flagWord n = s.flagWord n := rfl
@[simp] theorem State.flagWord_setDm (x : DebugModule) (n : Nat) : (s.setDm x).flagWord n = s.flagWord n := rfl
@[simp] theorem State.flagWord_setPosted (x : List Posted) (n : Nat) : (s.setPosted x).flagWord n = s.flagWord n := rfl
@[simp] theorem State.flagWord_setReferee (x : Referee) (n : Nat) : (s.setReferee x).flagWord n = s.flagWord n := rfl
@[simp] theorem State.flagWord_setPower (x : Power) (n : Nat) : (s.setPower x).flagWord n = s.flagWord n := rfl
@[simp] theorem State.flagWord_setFreeCount (x : Nat) (n : Nat) : (s.setFreeCount x).flagWord n = s.flagWord n := rfl
@[simp] theorem State.flagWord_setLines (x : List (Nat × HartLine)) (n : Nat) : (s.setLines x).flagWord n = s.flagWord n := rfl
@[simp] theorem State.flagWord_setHartCsr (x : List (Nat × Nat)) (n : Nat) : (s.setHartCsr x).flagWord n = s.flagWord n := rfl
@[simp] theorem State.flagWord_setMsix (x : List (Nat × MsixEntry)) (n : Nat) : (s.setMsix x).flagWord n = s.flagWord n := rfl
@[simp] theorem State.flagWord_setMsixCtl (x : List (Nat × Nat)) (n : Nat) : (s.setMsixCtl x).flagWord n = s.flagWord n := rfl
@[simp] theorem State.flagWord_setAtsOn (x : List Nat) (n : Nat) : (s.setAtsOn x).flagWord n = s.flagWord n := rfl
@[simp] theorem State.flagWord_setHartFull (x : List Nat) (n : Nat) : (s.setHartFull x).flagWord n = s.flagWord n := rfl
@[simp] theorem State.flagWord_setReg (a1 : Nat) (v1 : Word) (n : Nat) : (s.setReg a1 v1).flagWord n = s.flagWord n := rfl
@[simp] theorem State.flagWord_wr (f1 : RF) (v1 : Nat) (n : Nat) : (s.wr f1 v1).flagWord n = s.flagWord n := rfl
@[simp] theorem State.flagWord_setCore (c1 : Nat) (k1 : Core) (n : Nat) : (s.setCore c1 k1).flagWord n = s.flagWord n := rfl
@[simp] theorem State.flagWord_modCore (c1 : Nat) (g : Core → Core) (n : Nat) : (s.modCore c1 g).flagWord n = s.flagWord n := rfl
@[simp] theorem State.flagWord_setEntry (c1 k1 : Nat) (e : Entry) (n : Nat) : (s.setEntry c1 k1 e).flagWord n = s.flagWord n := rfl
@[simp] theorem State.flagWord_setHostBytes (a1 : Nat) (l : List (BitVec 8)) (n : Nat) : (s.setHostBytes a1 l).flagWord n = s.flagWord n := rfl
@[simp] theorem State.flagWord_raiseAs (code : Code) (sev unit part pay : Nat) (n : Nat) : (s.raiseAs code sev unit part pay).flagWord n = s.flagWord n := rfl
@[simp] theorem State.flagWord_raise (code : Code) (unit part pay : Nat) (n : Nat) : (s.raise code unit part pay).flagWord n = s.flagWord n := rfl
@[simp] theorem State.flagWord_raiseCore (code : Code) (c1 engine pay : Nat) (n : Nat) : (s.raiseCore code c1 engine pay).flagWord n = s.flagWord n := rfl
@[simp] theorem State.flagWord_clearBad (a1 n1 : Nat) (n : Nat) : (s.clearBad a1 n1).flagWord n = s.flagWord n := rfl
@[simp] theorem State.flagWord_setObj (o1 : Nat) (x : SyncObj) (n : Nat) : (s.setObj o1 x).flagWord n = s.flagWord n := rfl
@[simp] theorem State.flagWord_modPort (n1 : Nat) (g : Port → Port) (n : Nat) : (s.modPort n1 g).flagWord n = s.flagWord n := rfl
@[simp] theorem State.flagWord_modChan (n1 : Nat) (g : Chan → Chan) (n : Nat) : (s.modChan n1 g).flagWord n = s.flagWord n := rfl
@[simp] theorem State.flagWord_modFeed (n1 : Nat) (g : Feed → Feed) (n : Nat) : (s.modFeed n1 g).flagWord n = s.flagWord n := rfl
@[simp] theorem State.flagWord_modStream (n1 : Nat) (g : Stream → Stream) (n : Nat) : (s.modStream n1 g).flagWord n = s.flagWord n := rfl
@[simp] theorem State.flagWord_modRing (n1 : Nat) (g : EventRing → EventRing) (n : Nat) : (s.modRing n1 g).flagWord n = s.flagWord n := rfl
@[simp] theorem State.flagWord_modJob (n1 : Nat) (g : Job → Job) (n : Nat) : (s.modJob n1 g).flagWord n = s.flagWord n := rfl
@[simp] theorem State.flagWord_setHeadWait (n1 : Nat) (w1 : HeadWait) (n : Nat) : (s.setHeadWait n1 w1).flagWord n = s.flagWord n := rfl
@[simp] theorem State.flagWord_modRedRing (n1 : Nat) (g : RedRing → RedRing) (n : Nat) : (s.modRedRing n1 g).flagWord n = s.flagWord n := rfl
@[simp] theorem State.flagWord_modFellows (g : Fellows → Fellows) (n : Nat) : (s.modFellows g).flagWord n = s.flagWord n := rfl
@[simp] theorem State.flagWord_count (a1 n1 : Nat) (n : Nat) : (s.count a1 n1).flagWord n = s.flagWord n := by unfold State.flagWord; simp
@[simp] theorem State.queueState_setDtime (x : Nat) (n : Nat) : (s.setDtime x).queueState n = s.queueState n := rfl
@[simp] theorem State.queueState_setRegs (x : List (Nat × Word)) (n : Nat) : (s.setRegs x).queueState n = s.queueState n := rfl
@[simp] theorem State.queueState_setMem (x : List Host.Cell) (n : Nat) : (s.setMem x).queueState n = s.queueState n := rfl
@[simp] theorem State.queueState_setBook (x : List (Nat × Entry)) (n : Nat) : (s.setBook x).queueState n = s.queueState n := rfl
@[simp] theorem State.queueState_setLearned (x : List Learned) (n : Nat) : (s.setLearned x).queueState n = s.queueState n := rfl
@[simp] theorem State.queueState_setBenched (x : List (Nat × Nat)) (n : Nat) : (s.setBenched x).queueState n = s.queueState n := rfl
@[simp] theorem State.queueState_setSync (x : List (Nat × SyncObj)) (n : Nat) : (s.setSync x).queueState n = s.queueState n := rfl
@[simp] theorem State.queueState_setWaitOrder (x : Nat) (n : Nat) : (s.setWaitOrder x).queueState n = s.queueState n := rfl
@[simp] theorem State.queueState_setSignals (x : List Signal) (n : Nat) : (s.setSignals x).queueState n = s.queueState n := rfl
@[simp] theorem State.queueState_setDispatch (x : List SegRec) (n : Nat) : (s.setDispatch x).queueState n = s.queueState n := rfl
@[simp] theorem State.queueState_setSegOrder (x : Nat) (n : Nat) : (s.setSegOrder x).queueState n = s.queueState n := rfl
@[simp] theorem State.queueState_setStreams (x : List (Nat × Stream)) (n : Nat) : (s.setStreams x).queueState n = s.queueState n := rfl
@[simp] theorem State.queueState_setRings (x : List (Nat × EventRing)) (n : Nat) : (s.setRings x).queueState n = s.queueState n := rfl
@[simp] theorem State.queueState_setHeads (x : List (Nat × HeadWait)) (n : Nat) : (s.setHeads x).queueState n = s.queueState n := rfl
@[simp] theorem State.queueState_setHaltAt (x : List (Nat × Nat)) (n : Nat) : (s.setHaltAt x).queueState n = s.queueState n := rfl
@[simp] theorem State.queueState_setHeldHeads (x : List Nat) (n : Nat) : (s.setHeldHeads x).queueState n = s.queueState n := rfl
@[simp] theorem State.queueState_setAtc (x : List (Nat × Nat)) (n : Nat) : (s.setAtc x).queueState n = s.queueState n := rfl
@[simp] theorem State.queueState_setLowPower (x : List Nat) (n : Nat) : (s.setLowPower x).queueState n = s.queueState n := rfl
@[simp] theorem State.queueState_setFlags (x : List (Nat × Nat)) (n : Nat) : (s.setFlags x).queueState n = s.queueState n := rfl
@[simp] theorem State.queueState_setOut (x : List Output) (n : Nat) : (s.setOut x).queueState n = s.queueState n := rfl
@[simp] theorem State.queueState_setEvents (x : List Event) (n : Nat) : (s.setEvents x).queueState n = s.queueState n := rfl
@[simp] theorem State.queueState_setBad (x : List (Nat × Bool)) (n : Nat) : (s.setBad x).queueState n = s.queueState n := rfl
@[simp] theorem State.queueState_setPoison (x : List (Nat × Bool)) (n : Nat) : (s.setPoison x).queueState n = s.queueState n := rfl
@[simp] theorem State.queueState_setCache (x : List (Nat × List CacheLine)) (n : Nat) : (s.setCache x).queueState n = s.queueState n := rfl
@[simp] theorem State.queueState_setFlash (x : List (Nat × FlashObj)) (n : Nat) : (s.setFlash x).queueState n = s.queueState n := rfl
@[simp] theorem State.queueState_setFlashDown (x : List Nat) (n : Nat) : (s.setFlashDown x).queueState n = s.queueState n := rfl
@[simp] theorem State.queueState_setPorts (x : List (Nat × Port)) (n : Nat) : (s.setPorts x).queueState n = s.queueState n := rfl
@[simp] theorem State.queueState_setInbox (x : List (Nat × Msg)) (n : Nat) : (s.setInbox x).queueState n = s.queueState n := rfl
@[simp] theorem State.queueState_setFellows (x : Fellows) (n : Nat) : (s.setFellows x).queueState n = s.queueState n := rfl
@[simp] theorem State.queueState_setPfc (x : List (Nat × Nat)) (n : Nat) : (s.setPfc x).queueState n = s.queueState n := rfl
@[simp] theorem State.queueState_setReqs (x : List Req) (n : Nat) : (s.setReqs x).queueState n = s.queueState n := rfl
@[simp] theorem State.queueState_setSerial (x : Nat) (n : Nat) : (s.setSerial x).queueState n = s.queueState n := rfl
@[simp] theorem State.queueState_setTag (x : Nat) (n : Nat) : (s.setTag x).queueState n = s.queueState n := rfl
@[simp] theorem State.queueState_setChans (x : List (Nat × Chan)) (n : Nat) : (s.setChans x).queueState n = s.queueState n := rfl
@[simp] theorem State.queueState_setFeeds (x : List (Nat × Feed)) (n : Nat) : (s.setFeeds x).queueState n = s.queueState n := rfl
@[simp] theorem State.queueState_setFences (x : List Fence) (n : Nat) : (s.setFences x).queueState n = s.queueState n := rfl
@[simp] theorem State.queueState_setRecoveries (x : List Recovery) (n : Nat) : (s.setRecoveries x).queueState n = s.queueState n := rfl
@[simp] theorem State.queueState_setGviews (x : List (Nat × GView)) (n : Nat) : (s.setGviews x).queueState n = s.queueState n := rfl
@[simp] theorem State.queueState_setReds (x : List Red) (n : Nat) : (s.setReds x).queueState n = s.queueState n := rfl
@[simp] theorem State.queueState_setRedSeq (x : List (Nat × Nat)) (n : Nat) : (s.setRedSeq x).queueState n = s.queueState n := rfl
@[simp] theorem State.queueState_setRedRings (x : List (Nat × RedRing)) (n : Nat) : (s.setRedRings x).queueState n = s.queueState n := rfl
@[simp] theorem State.queueState_setJobs (x : List (Nat × Job)) (n : Nat) : (s.setJobs x).queueState n = s.queueState n := rfl
@[simp] theorem State.queueState_setTraceBufs (x : List (Nat × TraceBuf)) (n : Nat) : (s.setTraceBufs x).queueState n = s.queueState n := rfl
@[simp] theorem State.queueState_setTraceTurn (x : List (Nat × Nat)) (n : Nat) : (s.setTraceTurn x).queueState n = s.queueState n := rfl
@[simp] theorem State.queueState_setDm (x : DebugModule) (n : Nat) : (s.setDm x).queueState n = s.queueState n := rfl
@[simp] theorem State.queueState_setPosted (x : List Posted) (n : Nat) : (s.setPosted x).queueState n = s.queueState n := rfl
@[simp] theorem State.queueState_setReferee (x : Referee) (n : Nat) : (s.setReferee x).queueState n = s.queueState n := rfl
@[simp] theorem State.queueState_setPower (x : Power) (n : Nat) : (s.setPower x).queueState n = s.queueState n := rfl
@[simp] theorem State.queueState_setFreeCount (x : Nat) (n : Nat) : (s.setFreeCount x).queueState n = s.queueState n := rfl
@[simp] theorem State.queueState_setLines (x : List (Nat × HartLine)) (n : Nat) : (s.setLines x).queueState n = s.queueState n := rfl
@[simp] theorem State.queueState_setHartCsr (x : List (Nat × Nat)) (n : Nat) : (s.setHartCsr x).queueState n = s.queueState n := rfl
@[simp] theorem State.queueState_setMsix (x : List (Nat × MsixEntry)) (n : Nat) : (s.setMsix x).queueState n = s.queueState n := rfl
@[simp] theorem State.queueState_setMsixCtl (x : List (Nat × Nat)) (n : Nat) : (s.setMsixCtl x).queueState n = s.queueState n := rfl
@[simp] theorem State.queueState_setAtsOn (x : List Nat) (n : Nat) : (s.setAtsOn x).queueState n = s.queueState n := rfl
@[simp] theorem State.queueState_setHartFull (x : List Nat) (n : Nat) : (s.setHartFull x).queueState n = s.queueState n := rfl
@[simp] theorem State.queueState_setReg (a1 : Nat) (v1 : Word) (n : Nat) : (s.setReg a1 v1).queueState n = s.queueState n := rfl
@[simp] theorem State.queueState_wr (f1 : RF) (v1 : Nat) (n : Nat) : (s.wr f1 v1).queueState n = s.queueState n := rfl
@[simp] theorem State.queueState_setCore (c1 : Nat) (k1 : Core) (n : Nat) : (s.setCore c1 k1).queueState n = s.queueState n := rfl
@[simp] theorem State.queueState_modCore (c1 : Nat) (g : Core → Core) (n : Nat) : (s.modCore c1 g).queueState n = s.queueState n := rfl
@[simp] theorem State.queueState_setEntry (c1 k1 : Nat) (e : Entry) (n : Nat) : (s.setEntry c1 k1 e).queueState n = s.queueState n := rfl
@[simp] theorem State.queueState_setHostBytes (a1 : Nat) (l : List (BitVec 8)) (n : Nat) : (s.setHostBytes a1 l).queueState n = s.queueState n := rfl
@[simp] theorem State.queueState_raiseAs (code : Code) (sev unit part pay : Nat) (n : Nat) : (s.raiseAs code sev unit part pay).queueState n = s.queueState n := rfl
@[simp] theorem State.queueState_raise (code : Code) (unit part pay : Nat) (n : Nat) : (s.raise code unit part pay).queueState n = s.queueState n := rfl
@[simp] theorem State.queueState_raiseCore (code : Code) (c1 engine pay : Nat) (n : Nat) : (s.raiseCore code c1 engine pay).queueState n = s.queueState n := rfl
@[simp] theorem State.queueState_clearBad (a1 n1 : Nat) (n : Nat) : (s.clearBad a1 n1).queueState n = s.queueState n := rfl
@[simp] theorem State.queueState_setObj (o1 : Nat) (x : SyncObj) (n : Nat) : (s.setObj o1 x).queueState n = s.queueState n := rfl
@[simp] theorem State.queueState_modPort (n1 : Nat) (g : Port → Port) (n : Nat) : (s.modPort n1 g).queueState n = s.queueState n := rfl
@[simp] theorem State.queueState_modChan (n1 : Nat) (g : Chan → Chan) (n : Nat) : (s.modChan n1 g).queueState n = s.queueState n := rfl
@[simp] theorem State.queueState_modFeed (n1 : Nat) (g : Feed → Feed) (n : Nat) : (s.modFeed n1 g).queueState n = s.queueState n := rfl
@[simp] theorem State.queueState_modStream (n1 : Nat) (g : Stream → Stream) (n : Nat) : (s.modStream n1 g).queueState n = s.queueState n := rfl
@[simp] theorem State.queueState_modRing (n1 : Nat) (g : EventRing → EventRing) (n : Nat) : (s.modRing n1 g).queueState n = s.queueState n := rfl
@[simp] theorem State.queueState_modJob (n1 : Nat) (g : Job → Job) (n : Nat) : (s.modJob n1 g).queueState n = s.queueState n := rfl
@[simp] theorem State.queueState_setFlag (n1 v1 : Nat) (n : Nat) : (s.setFlag n1 v1).queueState n = s.queueState n := rfl
@[simp] theorem State.queueState_setHeadWait (n1 : Nat) (w1 : HeadWait) (n : Nat) : (s.setHeadWait n1 w1).queueState n = s.queueState n := rfl
@[simp] theorem State.queueState_modRedRing (n1 : Nat) (g : RedRing → RedRing) (n : Nat) : (s.modRedRing n1 g).queueState n = s.queueState n := rfl
@[simp] theorem State.queueState_modFellows (g : Fellows → Fellows) (n : Nat) : (s.modFellows g).queueState n = s.queueState n := rfl
@[simp] theorem State.queueState_count (a1 n1 : Nat) (n : Nat) : (s.count a1 n1).queueState n = s.queueState n := by unfold State.queueState; simp
@[simp] theorem State.headWait_setDtime (x : Nat) (n : Nat) : (s.setDtime x).headWait n = s.headWait n := rfl
@[simp] theorem State.headWait_setRegs (x : List (Nat × Word)) (n : Nat) : (s.setRegs x).headWait n = s.headWait n := rfl
@[simp] theorem State.headWait_setMem (x : List Host.Cell) (n : Nat) : (s.setMem x).headWait n = s.headWait n := rfl
@[simp] theorem State.headWait_setBook (x : List (Nat × Entry)) (n : Nat) : (s.setBook x).headWait n = s.headWait n := rfl
@[simp] theorem State.headWait_setLearned (x : List Learned) (n : Nat) : (s.setLearned x).headWait n = s.headWait n := rfl
@[simp] theorem State.headWait_setBenched (x : List (Nat × Nat)) (n : Nat) : (s.setBenched x).headWait n = s.headWait n := rfl
@[simp] theorem State.headWait_setSync (x : List (Nat × SyncObj)) (n : Nat) : (s.setSync x).headWait n = s.headWait n := rfl
@[simp] theorem State.headWait_setWaitOrder (x : Nat) (n : Nat) : (s.setWaitOrder x).headWait n = s.headWait n := rfl
@[simp] theorem State.headWait_setSignals (x : List Signal) (n : Nat) : (s.setSignals x).headWait n = s.headWait n := rfl
@[simp] theorem State.headWait_setDispatch (x : List SegRec) (n : Nat) : (s.setDispatch x).headWait n = s.headWait n := rfl
@[simp] theorem State.headWait_setSegOrder (x : Nat) (n : Nat) : (s.setSegOrder x).headWait n = s.headWait n := rfl
@[simp] theorem State.headWait_setStreams (x : List (Nat × Stream)) (n : Nat) : (s.setStreams x).headWait n = s.headWait n := rfl
@[simp] theorem State.headWait_setRings (x : List (Nat × EventRing)) (n : Nat) : (s.setRings x).headWait n = s.headWait n := rfl
@[simp] theorem State.headWait_setHaltAt (x : List (Nat × Nat)) (n : Nat) : (s.setHaltAt x).headWait n = s.headWait n := rfl
@[simp] theorem State.headWait_setHeldHeads (x : List Nat) (n : Nat) : (s.setHeldHeads x).headWait n = s.headWait n := rfl
@[simp] theorem State.headWait_setQueues (x : List (Nat × Nat)) (n : Nat) : (s.setQueues x).headWait n = s.headWait n := rfl
@[simp] theorem State.headWait_setAtc (x : List (Nat × Nat)) (n : Nat) : (s.setAtc x).headWait n = s.headWait n := rfl
@[simp] theorem State.headWait_setLowPower (x : List Nat) (n : Nat) : (s.setLowPower x).headWait n = s.headWait n := rfl
@[simp] theorem State.headWait_setFlags (x : List (Nat × Nat)) (n : Nat) : (s.setFlags x).headWait n = s.headWait n := rfl
@[simp] theorem State.headWait_setOut (x : List Output) (n : Nat) : (s.setOut x).headWait n = s.headWait n := rfl
@[simp] theorem State.headWait_setEvents (x : List Event) (n : Nat) : (s.setEvents x).headWait n = s.headWait n := rfl
@[simp] theorem State.headWait_setBad (x : List (Nat × Bool)) (n : Nat) : (s.setBad x).headWait n = s.headWait n := rfl
@[simp] theorem State.headWait_setPoison (x : List (Nat × Bool)) (n : Nat) : (s.setPoison x).headWait n = s.headWait n := rfl
@[simp] theorem State.headWait_setCache (x : List (Nat × List CacheLine)) (n : Nat) : (s.setCache x).headWait n = s.headWait n := rfl
@[simp] theorem State.headWait_setFlash (x : List (Nat × FlashObj)) (n : Nat) : (s.setFlash x).headWait n = s.headWait n := rfl
@[simp] theorem State.headWait_setFlashDown (x : List Nat) (n : Nat) : (s.setFlashDown x).headWait n = s.headWait n := rfl
@[simp] theorem State.headWait_setPorts (x : List (Nat × Port)) (n : Nat) : (s.setPorts x).headWait n = s.headWait n := rfl
@[simp] theorem State.headWait_setInbox (x : List (Nat × Msg)) (n : Nat) : (s.setInbox x).headWait n = s.headWait n := rfl
@[simp] theorem State.headWait_setFellows (x : Fellows) (n : Nat) : (s.setFellows x).headWait n = s.headWait n := rfl
@[simp] theorem State.headWait_setPfc (x : List (Nat × Nat)) (n : Nat) : (s.setPfc x).headWait n = s.headWait n := rfl
@[simp] theorem State.headWait_setReqs (x : List Req) (n : Nat) : (s.setReqs x).headWait n = s.headWait n := rfl
@[simp] theorem State.headWait_setSerial (x : Nat) (n : Nat) : (s.setSerial x).headWait n = s.headWait n := rfl
@[simp] theorem State.headWait_setTag (x : Nat) (n : Nat) : (s.setTag x).headWait n = s.headWait n := rfl
@[simp] theorem State.headWait_setChans (x : List (Nat × Chan)) (n : Nat) : (s.setChans x).headWait n = s.headWait n := rfl
@[simp] theorem State.headWait_setFeeds (x : List (Nat × Feed)) (n : Nat) : (s.setFeeds x).headWait n = s.headWait n := rfl
@[simp] theorem State.headWait_setFences (x : List Fence) (n : Nat) : (s.setFences x).headWait n = s.headWait n := rfl
@[simp] theorem State.headWait_setRecoveries (x : List Recovery) (n : Nat) : (s.setRecoveries x).headWait n = s.headWait n := rfl
@[simp] theorem State.headWait_setGviews (x : List (Nat × GView)) (n : Nat) : (s.setGviews x).headWait n = s.headWait n := rfl
@[simp] theorem State.headWait_setReds (x : List Red) (n : Nat) : (s.setReds x).headWait n = s.headWait n := rfl
@[simp] theorem State.headWait_setRedSeq (x : List (Nat × Nat)) (n : Nat) : (s.setRedSeq x).headWait n = s.headWait n := rfl
@[simp] theorem State.headWait_setRedRings (x : List (Nat × RedRing)) (n : Nat) : (s.setRedRings x).headWait n = s.headWait n := rfl
@[simp] theorem State.headWait_setJobs (x : List (Nat × Job)) (n : Nat) : (s.setJobs x).headWait n = s.headWait n := rfl
@[simp] theorem State.headWait_setTraceBufs (x : List (Nat × TraceBuf)) (n : Nat) : (s.setTraceBufs x).headWait n = s.headWait n := rfl
@[simp] theorem State.headWait_setTraceTurn (x : List (Nat × Nat)) (n : Nat) : (s.setTraceTurn x).headWait n = s.headWait n := rfl
@[simp] theorem State.headWait_setDm (x : DebugModule) (n : Nat) : (s.setDm x).headWait n = s.headWait n := rfl
@[simp] theorem State.headWait_setPosted (x : List Posted) (n : Nat) : (s.setPosted x).headWait n = s.headWait n := rfl
@[simp] theorem State.headWait_setReferee (x : Referee) (n : Nat) : (s.setReferee x).headWait n = s.headWait n := rfl
@[simp] theorem State.headWait_setPower (x : Power) (n : Nat) : (s.setPower x).headWait n = s.headWait n := rfl
@[simp] theorem State.headWait_setFreeCount (x : Nat) (n : Nat) : (s.setFreeCount x).headWait n = s.headWait n := rfl
@[simp] theorem State.headWait_setLines (x : List (Nat × HartLine)) (n : Nat) : (s.setLines x).headWait n = s.headWait n := rfl
@[simp] theorem State.headWait_setHartCsr (x : List (Nat × Nat)) (n : Nat) : (s.setHartCsr x).headWait n = s.headWait n := rfl
@[simp] theorem State.headWait_setMsix (x : List (Nat × MsixEntry)) (n : Nat) : (s.setMsix x).headWait n = s.headWait n := rfl
@[simp] theorem State.headWait_setMsixCtl (x : List (Nat × Nat)) (n : Nat) : (s.setMsixCtl x).headWait n = s.headWait n := rfl
@[simp] theorem State.headWait_setAtsOn (x : List Nat) (n : Nat) : (s.setAtsOn x).headWait n = s.headWait n := rfl
@[simp] theorem State.headWait_setHartFull (x : List Nat) (n : Nat) : (s.setHartFull x).headWait n = s.headWait n := rfl
@[simp] theorem State.headWait_setReg (a1 : Nat) (v1 : Word) (n : Nat) : (s.setReg a1 v1).headWait n = s.headWait n := rfl
@[simp] theorem State.headWait_wr (f1 : RF) (v1 : Nat) (n : Nat) : (s.wr f1 v1).headWait n = s.headWait n := rfl
@[simp] theorem State.headWait_setCore (c1 : Nat) (k1 : Core) (n : Nat) : (s.setCore c1 k1).headWait n = s.headWait n := rfl
@[simp] theorem State.headWait_modCore (c1 : Nat) (g : Core → Core) (n : Nat) : (s.modCore c1 g).headWait n = s.headWait n := rfl
@[simp] theorem State.headWait_setEntry (c1 k1 : Nat) (e : Entry) (n : Nat) : (s.setEntry c1 k1 e).headWait n = s.headWait n := rfl
@[simp] theorem State.headWait_setHostBytes (a1 : Nat) (l : List (BitVec 8)) (n : Nat) : (s.setHostBytes a1 l).headWait n = s.headWait n := rfl
@[simp] theorem State.headWait_raiseAs (code : Code) (sev unit part pay : Nat) (n : Nat) : (s.raiseAs code sev unit part pay).headWait n = s.headWait n := rfl
@[simp] theorem State.headWait_raise (code : Code) (unit part pay : Nat) (n : Nat) : (s.raise code unit part pay).headWait n = s.headWait n := rfl
@[simp] theorem State.headWait_raiseCore (code : Code) (c1 engine pay : Nat) (n : Nat) : (s.raiseCore code c1 engine pay).headWait n = s.headWait n := rfl
@[simp] theorem State.headWait_clearBad (a1 n1 : Nat) (n : Nat) : (s.clearBad a1 n1).headWait n = s.headWait n := rfl
@[simp] theorem State.headWait_setObj (o1 : Nat) (x : SyncObj) (n : Nat) : (s.setObj o1 x).headWait n = s.headWait n := rfl
@[simp] theorem State.headWait_modPort (n1 : Nat) (g : Port → Port) (n : Nat) : (s.modPort n1 g).headWait n = s.headWait n := rfl
@[simp] theorem State.headWait_modChan (n1 : Nat) (g : Chan → Chan) (n : Nat) : (s.modChan n1 g).headWait n = s.headWait n := rfl
@[simp] theorem State.headWait_modFeed (n1 : Nat) (g : Feed → Feed) (n : Nat) : (s.modFeed n1 g).headWait n = s.headWait n := rfl
@[simp] theorem State.headWait_modStream (n1 : Nat) (g : Stream → Stream) (n : Nat) : (s.modStream n1 g).headWait n = s.headWait n := rfl
@[simp] theorem State.headWait_modRing (n1 : Nat) (g : EventRing → EventRing) (n : Nat) : (s.modRing n1 g).headWait n = s.headWait n := rfl
@[simp] theorem State.headWait_modJob (n1 : Nat) (g : Job → Job) (n : Nat) : (s.modJob n1 g).headWait n = s.headWait n := rfl
@[simp] theorem State.headWait_setFlag (n1 v1 : Nat) (n : Nat) : (s.setFlag n1 v1).headWait n = s.headWait n := rfl
@[simp] theorem State.headWait_modRedRing (n1 : Nat) (g : RedRing → RedRing) (n : Nat) : (s.modRedRing n1 g).headWait n = s.headWait n := rfl
@[simp] theorem State.headWait_modFellows (g : Fellows → Fellows) (n : Nat) : (s.modFellows g).headWait n = s.headWait n := rfl
@[simp] theorem State.headWait_count (a1 n1 : Nat) (n : Nat) : (s.count a1 n1).headWait n = s.headWait n := by unfold State.headWait; simp
@[simp] theorem State.redRing_setDtime (x : Nat) (n : Nat) : (s.setDtime x).redRing n = s.redRing n := rfl
@[simp] theorem State.redRing_setRegs (x : List (Nat × Word)) (n : Nat) : (s.setRegs x).redRing n = s.redRing n := rfl
@[simp] theorem State.redRing_setMem (x : List Host.Cell) (n : Nat) : (s.setMem x).redRing n = s.redRing n := rfl
@[simp] theorem State.redRing_setBook (x : List (Nat × Entry)) (n : Nat) : (s.setBook x).redRing n = s.redRing n := rfl
@[simp] theorem State.redRing_setLearned (x : List Learned) (n : Nat) : (s.setLearned x).redRing n = s.redRing n := rfl
@[simp] theorem State.redRing_setBenched (x : List (Nat × Nat)) (n : Nat) : (s.setBenched x).redRing n = s.redRing n := rfl
@[simp] theorem State.redRing_setSync (x : List (Nat × SyncObj)) (n : Nat) : (s.setSync x).redRing n = s.redRing n := rfl
@[simp] theorem State.redRing_setWaitOrder (x : Nat) (n : Nat) : (s.setWaitOrder x).redRing n = s.redRing n := rfl
@[simp] theorem State.redRing_setSignals (x : List Signal) (n : Nat) : (s.setSignals x).redRing n = s.redRing n := rfl
@[simp] theorem State.redRing_setDispatch (x : List SegRec) (n : Nat) : (s.setDispatch x).redRing n = s.redRing n := rfl
@[simp] theorem State.redRing_setSegOrder (x : Nat) (n : Nat) : (s.setSegOrder x).redRing n = s.redRing n := rfl
@[simp] theorem State.redRing_setStreams (x : List (Nat × Stream)) (n : Nat) : (s.setStreams x).redRing n = s.redRing n := rfl
@[simp] theorem State.redRing_setRings (x : List (Nat × EventRing)) (n : Nat) : (s.setRings x).redRing n = s.redRing n := rfl
@[simp] theorem State.redRing_setHeads (x : List (Nat × HeadWait)) (n : Nat) : (s.setHeads x).redRing n = s.redRing n := rfl
@[simp] theorem State.redRing_setHaltAt (x : List (Nat × Nat)) (n : Nat) : (s.setHaltAt x).redRing n = s.redRing n := rfl
@[simp] theorem State.redRing_setHeldHeads (x : List Nat) (n : Nat) : (s.setHeldHeads x).redRing n = s.redRing n := rfl
@[simp] theorem State.redRing_setQueues (x : List (Nat × Nat)) (n : Nat) : (s.setQueues x).redRing n = s.redRing n := rfl
@[simp] theorem State.redRing_setAtc (x : List (Nat × Nat)) (n : Nat) : (s.setAtc x).redRing n = s.redRing n := rfl
@[simp] theorem State.redRing_setLowPower (x : List Nat) (n : Nat) : (s.setLowPower x).redRing n = s.redRing n := rfl
@[simp] theorem State.redRing_setFlags (x : List (Nat × Nat)) (n : Nat) : (s.setFlags x).redRing n = s.redRing n := rfl
@[simp] theorem State.redRing_setOut (x : List Output) (n : Nat) : (s.setOut x).redRing n = s.redRing n := rfl
@[simp] theorem State.redRing_setEvents (x : List Event) (n : Nat) : (s.setEvents x).redRing n = s.redRing n := rfl
@[simp] theorem State.redRing_setBad (x : List (Nat × Bool)) (n : Nat) : (s.setBad x).redRing n = s.redRing n := rfl
@[simp] theorem State.redRing_setPoison (x : List (Nat × Bool)) (n : Nat) : (s.setPoison x).redRing n = s.redRing n := rfl
@[simp] theorem State.redRing_setCache (x : List (Nat × List CacheLine)) (n : Nat) : (s.setCache x).redRing n = s.redRing n := rfl
@[simp] theorem State.redRing_setFlash (x : List (Nat × FlashObj)) (n : Nat) : (s.setFlash x).redRing n = s.redRing n := rfl
@[simp] theorem State.redRing_setFlashDown (x : List Nat) (n : Nat) : (s.setFlashDown x).redRing n = s.redRing n := rfl
@[simp] theorem State.redRing_setPorts (x : List (Nat × Port)) (n : Nat) : (s.setPorts x).redRing n = s.redRing n := rfl
@[simp] theorem State.redRing_setInbox (x : List (Nat × Msg)) (n : Nat) : (s.setInbox x).redRing n = s.redRing n := rfl
@[simp] theorem State.redRing_setFellows (x : Fellows) (n : Nat) : (s.setFellows x).redRing n = s.redRing n := rfl
@[simp] theorem State.redRing_setPfc (x : List (Nat × Nat)) (n : Nat) : (s.setPfc x).redRing n = s.redRing n := rfl
@[simp] theorem State.redRing_setReqs (x : List Req) (n : Nat) : (s.setReqs x).redRing n = s.redRing n := rfl
@[simp] theorem State.redRing_setSerial (x : Nat) (n : Nat) : (s.setSerial x).redRing n = s.redRing n := rfl
@[simp] theorem State.redRing_setTag (x : Nat) (n : Nat) : (s.setTag x).redRing n = s.redRing n := rfl
@[simp] theorem State.redRing_setChans (x : List (Nat × Chan)) (n : Nat) : (s.setChans x).redRing n = s.redRing n := rfl
@[simp] theorem State.redRing_setFeeds (x : List (Nat × Feed)) (n : Nat) : (s.setFeeds x).redRing n = s.redRing n := rfl
@[simp] theorem State.redRing_setFences (x : List Fence) (n : Nat) : (s.setFences x).redRing n = s.redRing n := rfl
@[simp] theorem State.redRing_setRecoveries (x : List Recovery) (n : Nat) : (s.setRecoveries x).redRing n = s.redRing n := rfl
@[simp] theorem State.redRing_setGviews (x : List (Nat × GView)) (n : Nat) : (s.setGviews x).redRing n = s.redRing n := rfl
@[simp] theorem State.redRing_setReds (x : List Red) (n : Nat) : (s.setReds x).redRing n = s.redRing n := rfl
@[simp] theorem State.redRing_setRedSeq (x : List (Nat × Nat)) (n : Nat) : (s.setRedSeq x).redRing n = s.redRing n := rfl
@[simp] theorem State.redRing_setJobs (x : List (Nat × Job)) (n : Nat) : (s.setJobs x).redRing n = s.redRing n := rfl
@[simp] theorem State.redRing_setTraceBufs (x : List (Nat × TraceBuf)) (n : Nat) : (s.setTraceBufs x).redRing n = s.redRing n := rfl
@[simp] theorem State.redRing_setTraceTurn (x : List (Nat × Nat)) (n : Nat) : (s.setTraceTurn x).redRing n = s.redRing n := rfl
@[simp] theorem State.redRing_setDm (x : DebugModule) (n : Nat) : (s.setDm x).redRing n = s.redRing n := rfl
@[simp] theorem State.redRing_setPosted (x : List Posted) (n : Nat) : (s.setPosted x).redRing n = s.redRing n := rfl
@[simp] theorem State.redRing_setReferee (x : Referee) (n : Nat) : (s.setReferee x).redRing n = s.redRing n := rfl
@[simp] theorem State.redRing_setPower (x : Power) (n : Nat) : (s.setPower x).redRing n = s.redRing n := rfl
@[simp] theorem State.redRing_setFreeCount (x : Nat) (n : Nat) : (s.setFreeCount x).redRing n = s.redRing n := rfl
@[simp] theorem State.redRing_setLines (x : List (Nat × HartLine)) (n : Nat) : (s.setLines x).redRing n = s.redRing n := rfl
@[simp] theorem State.redRing_setHartCsr (x : List (Nat × Nat)) (n : Nat) : (s.setHartCsr x).redRing n = s.redRing n := rfl
@[simp] theorem State.redRing_setMsix (x : List (Nat × MsixEntry)) (n : Nat) : (s.setMsix x).redRing n = s.redRing n := rfl
@[simp] theorem State.redRing_setMsixCtl (x : List (Nat × Nat)) (n : Nat) : (s.setMsixCtl x).redRing n = s.redRing n := rfl
@[simp] theorem State.redRing_setAtsOn (x : List Nat) (n : Nat) : (s.setAtsOn x).redRing n = s.redRing n := rfl
@[simp] theorem State.redRing_setHartFull (x : List Nat) (n : Nat) : (s.setHartFull x).redRing n = s.redRing n := rfl
@[simp] theorem State.redRing_setReg (a1 : Nat) (v1 : Word) (n : Nat) : (s.setReg a1 v1).redRing n = s.redRing n := rfl
@[simp] theorem State.redRing_wr (f1 : RF) (v1 : Nat) (n : Nat) : (s.wr f1 v1).redRing n = s.redRing n := rfl
@[simp] theorem State.redRing_setCore (c1 : Nat) (k1 : Core) (n : Nat) : (s.setCore c1 k1).redRing n = s.redRing n := rfl
@[simp] theorem State.redRing_modCore (c1 : Nat) (g : Core → Core) (n : Nat) : (s.modCore c1 g).redRing n = s.redRing n := rfl
@[simp] theorem State.redRing_setEntry (c1 k1 : Nat) (e : Entry) (n : Nat) : (s.setEntry c1 k1 e).redRing n = s.redRing n := rfl
@[simp] theorem State.redRing_setHostBytes (a1 : Nat) (l : List (BitVec 8)) (n : Nat) : (s.setHostBytes a1 l).redRing n = s.redRing n := rfl
@[simp] theorem State.redRing_raiseAs (code : Code) (sev unit part pay : Nat) (n : Nat) : (s.raiseAs code sev unit part pay).redRing n = s.redRing n := rfl
@[simp] theorem State.redRing_raise (code : Code) (unit part pay : Nat) (n : Nat) : (s.raise code unit part pay).redRing n = s.redRing n := rfl
@[simp] theorem State.redRing_raiseCore (code : Code) (c1 engine pay : Nat) (n : Nat) : (s.raiseCore code c1 engine pay).redRing n = s.redRing n := rfl
@[simp] theorem State.redRing_clearBad (a1 n1 : Nat) (n : Nat) : (s.clearBad a1 n1).redRing n = s.redRing n := rfl
@[simp] theorem State.redRing_setObj (o1 : Nat) (x : SyncObj) (n : Nat) : (s.setObj o1 x).redRing n = s.redRing n := rfl
@[simp] theorem State.redRing_modPort (n1 : Nat) (g : Port → Port) (n : Nat) : (s.modPort n1 g).redRing n = s.redRing n := rfl
@[simp] theorem State.redRing_modChan (n1 : Nat) (g : Chan → Chan) (n : Nat) : (s.modChan n1 g).redRing n = s.redRing n := rfl
@[simp] theorem State.redRing_modFeed (n1 : Nat) (g : Feed → Feed) (n : Nat) : (s.modFeed n1 g).redRing n = s.redRing n := rfl
@[simp] theorem State.redRing_modStream (n1 : Nat) (g : Stream → Stream) (n : Nat) : (s.modStream n1 g).redRing n = s.redRing n := rfl
@[simp] theorem State.redRing_modRing (n1 : Nat) (g : EventRing → EventRing) (n : Nat) : (s.modRing n1 g).redRing n = s.redRing n := rfl
@[simp] theorem State.redRing_modJob (n1 : Nat) (g : Job → Job) (n : Nat) : (s.modJob n1 g).redRing n = s.redRing n := rfl
@[simp] theorem State.redRing_setFlag (n1 v1 : Nat) (n : Nat) : (s.setFlag n1 v1).redRing n = s.redRing n := rfl
@[simp] theorem State.redRing_setHeadWait (n1 : Nat) (w1 : HeadWait) (n : Nat) : (s.setHeadWait n1 w1).redRing n = s.redRing n := rfl
@[simp] theorem State.redRing_modFellows (g : Fellows → Fellows) (n : Nat) : (s.modFellows g).redRing n = s.redRing n := rfl
@[simp] theorem State.redRing_count (a1 n1 : Nat) (n : Nat) : (s.count a1 n1).redRing n = s.redRing n := by unfold State.redRing; simp
@[simp] theorem State.barShut_setDtime (x : Nat) (pf : Bool) : (s.setDtime x).barShut pf = s.barShut pf := rfl
@[simp] theorem State.barShut_setMem (x : List Host.Cell) (pf : Bool) : (s.setMem x).barShut pf = s.barShut pf := rfl
@[simp] theorem State.barShut_setBook (x : List (Nat × Entry)) (pf : Bool) : (s.setBook x).barShut pf = s.barShut pf := rfl
@[simp] theorem State.barShut_setLearned (x : List Learned) (pf : Bool) : (s.setLearned x).barShut pf = s.barShut pf := rfl
@[simp] theorem State.barShut_setBenched (x : List (Nat × Nat)) (pf : Bool) : (s.setBenched x).barShut pf = s.barShut pf := rfl
@[simp] theorem State.barShut_setSync (x : List (Nat × SyncObj)) (pf : Bool) : (s.setSync x).barShut pf = s.barShut pf := rfl
@[simp] theorem State.barShut_setWaitOrder (x : Nat) (pf : Bool) : (s.setWaitOrder x).barShut pf = s.barShut pf := rfl
@[simp] theorem State.barShut_setSignals (x : List Signal) (pf : Bool) : (s.setSignals x).barShut pf = s.barShut pf := rfl
@[simp] theorem State.barShut_setDispatch (x : List SegRec) (pf : Bool) : (s.setDispatch x).barShut pf = s.barShut pf := rfl
@[simp] theorem State.barShut_setSegOrder (x : Nat) (pf : Bool) : (s.setSegOrder x).barShut pf = s.barShut pf := rfl
@[simp] theorem State.barShut_setStreams (x : List (Nat × Stream)) (pf : Bool) : (s.setStreams x).barShut pf = s.barShut pf := rfl
@[simp] theorem State.barShut_setRings (x : List (Nat × EventRing)) (pf : Bool) : (s.setRings x).barShut pf = s.barShut pf := rfl
@[simp] theorem State.barShut_setHeads (x : List (Nat × HeadWait)) (pf : Bool) : (s.setHeads x).barShut pf = s.barShut pf := rfl
@[simp] theorem State.barShut_setHaltAt (x : List (Nat × Nat)) (pf : Bool) : (s.setHaltAt x).barShut pf = s.barShut pf := rfl
@[simp] theorem State.barShut_setHeldHeads (x : List Nat) (pf : Bool) : (s.setHeldHeads x).barShut pf = s.barShut pf := rfl
@[simp] theorem State.barShut_setQueues (x : List (Nat × Nat)) (pf : Bool) : (s.setQueues x).barShut pf = s.barShut pf := rfl
@[simp] theorem State.barShut_setAtc (x : List (Nat × Nat)) (pf : Bool) : (s.setAtc x).barShut pf = s.barShut pf := rfl
@[simp] theorem State.barShut_setFlags (x : List (Nat × Nat)) (pf : Bool) : (s.setFlags x).barShut pf = s.barShut pf := rfl
@[simp] theorem State.barShut_setOut (x : List Output) (pf : Bool) : (s.setOut x).barShut pf = s.barShut pf := rfl
@[simp] theorem State.barShut_setEvents (x : List Event) (pf : Bool) : (s.setEvents x).barShut pf = s.barShut pf := rfl
@[simp] theorem State.barShut_setBad (x : List (Nat × Bool)) (pf : Bool) : (s.setBad x).barShut pf = s.barShut pf := rfl
@[simp] theorem State.barShut_setPoison (x : List (Nat × Bool)) (pf : Bool) : (s.setPoison x).barShut pf = s.barShut pf := rfl
@[simp] theorem State.barShut_setCache (x : List (Nat × List CacheLine)) (pf : Bool) : (s.setCache x).barShut pf = s.barShut pf := rfl
@[simp] theorem State.barShut_setFlash (x : List (Nat × FlashObj)) (pf : Bool) : (s.setFlash x).barShut pf = s.barShut pf := rfl
@[simp] theorem State.barShut_setFlashDown (x : List Nat) (pf : Bool) : (s.setFlashDown x).barShut pf = s.barShut pf := rfl
@[simp] theorem State.barShut_setPorts (x : List (Nat × Port)) (pf : Bool) : (s.setPorts x).barShut pf = s.barShut pf := rfl
@[simp] theorem State.barShut_setInbox (x : List (Nat × Msg)) (pf : Bool) : (s.setInbox x).barShut pf = s.barShut pf := rfl
@[simp] theorem State.barShut_setFellows (x : Fellows) (pf : Bool) : (s.setFellows x).barShut pf = s.barShut pf := rfl
@[simp] theorem State.barShut_setPfc (x : List (Nat × Nat)) (pf : Bool) : (s.setPfc x).barShut pf = s.barShut pf := rfl
@[simp] theorem State.barShut_setReqs (x : List Req) (pf : Bool) : (s.setReqs x).barShut pf = s.barShut pf := rfl
@[simp] theorem State.barShut_setSerial (x : Nat) (pf : Bool) : (s.setSerial x).barShut pf = s.barShut pf := rfl
@[simp] theorem State.barShut_setTag (x : Nat) (pf : Bool) : (s.setTag x).barShut pf = s.barShut pf := rfl
@[simp] theorem State.barShut_setChans (x : List (Nat × Chan)) (pf : Bool) : (s.setChans x).barShut pf = s.barShut pf := rfl
@[simp] theorem State.barShut_setFeeds (x : List (Nat × Feed)) (pf : Bool) : (s.setFeeds x).barShut pf = s.barShut pf := rfl
@[simp] theorem State.barShut_setFences (x : List Fence) (pf : Bool) : (s.setFences x).barShut pf = s.barShut pf := rfl
@[simp] theorem State.barShut_setRecoveries (x : List Recovery) (pf : Bool) : (s.setRecoveries x).barShut pf = s.barShut pf := rfl
@[simp] theorem State.barShut_setGviews (x : List (Nat × GView)) (pf : Bool) : (s.setGviews x).barShut pf = s.barShut pf := rfl
@[simp] theorem State.barShut_setReds (x : List Red) (pf : Bool) : (s.setReds x).barShut pf = s.barShut pf := rfl
@[simp] theorem State.barShut_setRedSeq (x : List (Nat × Nat)) (pf : Bool) : (s.setRedSeq x).barShut pf = s.barShut pf := rfl
@[simp] theorem State.barShut_setRedRings (x : List (Nat × RedRing)) (pf : Bool) : (s.setRedRings x).barShut pf = s.barShut pf := rfl
@[simp] theorem State.barShut_setJobs (x : List (Nat × Job)) (pf : Bool) : (s.setJobs x).barShut pf = s.barShut pf := rfl
@[simp] theorem State.barShut_setTraceBufs (x : List (Nat × TraceBuf)) (pf : Bool) : (s.setTraceBufs x).barShut pf = s.barShut pf := rfl
@[simp] theorem State.barShut_setTraceTurn (x : List (Nat × Nat)) (pf : Bool) : (s.setTraceTurn x).barShut pf = s.barShut pf := rfl
@[simp] theorem State.barShut_setDm (x : DebugModule) (pf : Bool) : (s.setDm x).barShut pf = s.barShut pf := rfl
@[simp] theorem State.barShut_setPosted (x : List Posted) (pf : Bool) : (s.setPosted x).barShut pf = s.barShut pf := rfl
@[simp] theorem State.barShut_setReferee (x : Referee) (pf : Bool) : (s.setReferee x).barShut pf = s.barShut pf := rfl
@[simp] theorem State.barShut_setPower (x : Power) (pf : Bool) : (s.setPower x).barShut pf = s.barShut pf := rfl
@[simp] theorem State.barShut_setFreeCount (x : Nat) (pf : Bool) : (s.setFreeCount x).barShut pf = s.barShut pf := rfl
@[simp] theorem State.barShut_setLines (x : List (Nat × HartLine)) (pf : Bool) : (s.setLines x).barShut pf = s.barShut pf := rfl
@[simp] theorem State.barShut_setHartCsr (x : List (Nat × Nat)) (pf : Bool) : (s.setHartCsr x).barShut pf = s.barShut pf := rfl
@[simp] theorem State.barShut_setMsix (x : List (Nat × MsixEntry)) (pf : Bool) : (s.setMsix x).barShut pf = s.barShut pf := rfl
@[simp] theorem State.barShut_setMsixCtl (x : List (Nat × Nat)) (pf : Bool) : (s.setMsixCtl x).barShut pf = s.barShut pf := rfl
@[simp] theorem State.barShut_setAtsOn (x : List Nat) (pf : Bool) : (s.setAtsOn x).barShut pf = s.barShut pf := rfl
@[simp] theorem State.barShut_setHartFull (x : List Nat) (pf : Bool) : (s.setHartFull x).barShut pf = s.barShut pf := rfl
@[simp] theorem State.barShut_setCore (c1 : Nat) (k1 : Core) (pf : Bool) : (s.setCore c1 k1).barShut pf = s.barShut pf := rfl
@[simp] theorem State.barShut_modCore (c1 : Nat) (g : Core → Core) (pf : Bool) : (s.modCore c1 g).barShut pf = s.barShut pf := rfl
@[simp] theorem State.barShut_setEntry (c1 k1 : Nat) (e : Entry) (pf : Bool) : (s.setEntry c1 k1 e).barShut pf = s.barShut pf := rfl
@[simp] theorem State.barShut_setHostBytes (a1 : Nat) (l : List (BitVec 8)) (pf : Bool) : (s.setHostBytes a1 l).barShut pf = s.barShut pf := rfl
@[simp] theorem State.barShut_raiseAs (code : Code) (sev unit part pay : Nat) (pf : Bool) : (s.raiseAs code sev unit part pay).barShut pf = s.barShut pf := rfl
@[simp] theorem State.barShut_raise (code : Code) (unit part pay : Nat) (pf : Bool) : (s.raise code unit part pay).barShut pf = s.barShut pf := rfl
@[simp] theorem State.barShut_raiseCore (code : Code) (c1 engine pay : Nat) (pf : Bool) : (s.raiseCore code c1 engine pay).barShut pf = s.barShut pf := rfl
@[simp] theorem State.barShut_clearBad (a1 n1 : Nat) (pf : Bool) : (s.clearBad a1 n1).barShut pf = s.barShut pf := rfl
@[simp] theorem State.barShut_setObj (o1 : Nat) (x : SyncObj) (pf : Bool) : (s.setObj o1 x).barShut pf = s.barShut pf := rfl
@[simp] theorem State.barShut_modPort (n1 : Nat) (g : Port → Port) (pf : Bool) : (s.modPort n1 g).barShut pf = s.barShut pf := rfl
@[simp] theorem State.barShut_modChan (n1 : Nat) (g : Chan → Chan) (pf : Bool) : (s.modChan n1 g).barShut pf = s.barShut pf := rfl
@[simp] theorem State.barShut_modFeed (n1 : Nat) (g : Feed → Feed) (pf : Bool) : (s.modFeed n1 g).barShut pf = s.barShut pf := rfl
@[simp] theorem State.barShut_modStream (n1 : Nat) (g : Stream → Stream) (pf : Bool) : (s.modStream n1 g).barShut pf = s.barShut pf := rfl
@[simp] theorem State.barShut_modRing (n1 : Nat) (g : EventRing → EventRing) (pf : Bool) : (s.modRing n1 g).barShut pf = s.barShut pf := rfl
@[simp] theorem State.barShut_modJob (n1 : Nat) (g : Job → Job) (pf : Bool) : (s.modJob n1 g).barShut pf = s.barShut pf := rfl
@[simp] theorem State.barShut_setFlag (n1 v1 : Nat) (pf : Bool) : (s.setFlag n1 v1).barShut pf = s.barShut pf := rfl
@[simp] theorem State.barShut_setHeadWait (n1 : Nat) (w1 : HeadWait) (pf : Bool) : (s.setHeadWait n1 w1).barShut pf = s.barShut pf := rfl
@[simp] theorem State.barShut_modRedRing (n1 : Nat) (g : RedRing → RedRing) (pf : Bool) : (s.modRedRing n1 g).barShut pf = s.barShut pf := rfl
@[simp] theorem State.barShut_modFellows (g : Fellows → Fellows) (pf : Bool) : (s.modFellows g).barShut pf = s.barShut pf := rfl

@[simp] theorem State.port_modPort_self (n : Nat) (g : Port → Port) : (s.modPort n g).port n = g (s.port n) := by
  show Sparse.get _ (Sparse.put _ _ _ _) _ = _
  rw [Sparse.get_put, if_pos rfl]
theorem State.port_modPort_ne {n k : Nat} (g : Port → Port) (h : n ≠ k) : (s.modPort n g).port k = s.port k := by
  show Sparse.get _ (Sparse.put _ _ _ _) _ = _
  rw [Sparse.get_put, if_neg h]
  rfl

@[simp] theorem State.chan_modChan_self (n : Nat) (g : Chan → Chan) : (s.modChan n g).chan n = g (s.chan n) := by
  show Sparse.get _ (Sparse.put _ _ _ _) _ = _
  rw [Sparse.get_put, if_pos rfl]
theorem State.chan_modChan_ne {n k : Nat} (g : Chan → Chan) (h : n ≠ k) : (s.modChan n g).chan k = s.chan k := by
  show Sparse.get _ (Sparse.put _ _ _ _) _ = _
  rw [Sparse.get_put, if_neg h]
  rfl

@[simp] theorem State.feed_modFeed_self (n : Nat) (g : Feed → Feed) : (s.modFeed n g).feed n = g (s.feed n) := by
  show Sparse.get _ (Sparse.put _ _ _ _) _ = _
  rw [Sparse.get_put, if_pos rfl]
theorem State.feed_modFeed_ne {n k : Nat} (g : Feed → Feed) (h : n ≠ k) : (s.modFeed n g).feed k = s.feed k := by
  show Sparse.get _ (Sparse.put _ _ _ _) _ = _
  rw [Sparse.get_put, if_neg h]
  rfl

@[simp] theorem State.stream_modStream_self (n : Nat) (g : Stream → Stream) : (s.modStream n g).stream n = g (s.stream n) := by
  show Sparse.get _ (Sparse.put _ _ _ _) _ = _
  rw [Sparse.get_put, if_pos rfl]
theorem State.stream_modStream_ne {n k : Nat} (g : Stream → Stream) (h : n ≠ k) : (s.modStream n g).stream k = s.stream k := by
  show Sparse.get _ (Sparse.put _ _ _ _) _ = _
  rw [Sparse.get_put, if_neg h]
  rfl

@[simp] theorem State.ring_modRing_self (n : Nat) (g : EventRing → EventRing) : (s.modRing n g).ring n = g (s.ring n) := by
  show Sparse.get _ (Sparse.put _ _ _ _) _ = _
  rw [Sparse.get_put, if_pos rfl]
theorem State.ring_modRing_ne {n k : Nat} (g : EventRing → EventRing) (h : n ≠ k) : (s.modRing n g).ring k = s.ring k := by
  show Sparse.get _ (Sparse.put _ _ _ _) _ = _
  rw [Sparse.get_put, if_neg h]
  rfl

@[simp] theorem State.job_modJob_self (n : Nat) (g : Job → Job) : (s.modJob n g).job n = g (s.job n) := by
  show Sparse.get _ (Sparse.put _ _ _ _) _ = _
  rw [Sparse.get_put, if_pos rfl]
theorem State.job_modJob_ne {n k : Nat} (g : Job → Job) (h : n ≠ k) : (s.modJob n g).job k = s.job k := by
  show Sparse.get _ (Sparse.put _ _ _ _) _ = _
  rw [Sparse.get_put, if_neg h]
  rfl

@[simp] theorem State.redRing_modRedRing_self (n : Nat) (g : RedRing → RedRing) : (s.modRedRing n g).redRing n = g (s.redRing n) := by
  show Sparse.get _ (Sparse.put _ _ _ _) _ = _
  rw [Sparse.get_put, if_pos rfl]
theorem State.redRing_modRedRing_ne {n k : Nat} (g : RedRing → RedRing) (h : n ≠ k) : (s.modRedRing n g).redRing k = s.redRing k := by
  show Sparse.get _ (Sparse.put _ _ _ _) _ = _
  rw [Sparse.get_put, if_neg h]
  rfl

@[simp] theorem State.flagWord_setFlag_self (n v : Nat) : (s.setFlag n v).flagWord n = v := by
  show Sparse.get _ (Sparse.put _ _ _ _) _ = _
  rw [Sparse.get_put, if_pos rfl]
theorem State.flagWord_setFlag_ne {n k : Nat} (v : Nat) (h : n ≠ k) : (s.setFlag n v).flagWord k = s.flagWord k := by
  show Sparse.get _ (Sparse.put _ _ _ _) _ = _
  rw [Sparse.get_put, if_neg h]
  rfl
@[simp] theorem State.headWait_setHeadWait_self (n : Nat) (w : HeadWait) : (s.setHeadWait n w).headWait n = w := by
  show Sparse.get _ (Sparse.put _ _ _ _) _ = _
  rw [Sparse.get_put, if_pos rfl]
@[simp] theorem State.obj_setObj_self (o : Nat) (x : SyncObj) : (s.setObj o x).obj o = x := by
  show Sparse.get _ (Sparse.put _ _ _ _) _ = _
  rw [Sparse.get_put, if_pos rfl]
theorem State.obj_setObj_ne {o p : Nat} (x : SyncObj) (h : o ≠ p) : (s.setObj o x).obj p = s.obj p := by
  show Sparse.get _ (Sparse.put _ _ _ _) _ = _
  rw [Sparse.get_put, if_neg h]
  rfl

/-! ## Bytes -/

theorem bytesOfNat_length (n x : Nat) : (bytesOfNat n x).length = n := by
  induction n generalizing x with
  | zero => rfl
  | succ n ih => simp [bytesOfNat, ih]

/-- Outside the scorebooks a row of bytes reads as it was written. -/
theorem State.bytes_setBytes_self (a : Nat) (l : List (BitVec 8)) (h : ∀ i, i < l.length → ∀ c, areaOf (a + i) ≠ .book c) :
    (s.setBytes a l).bytes a l.length = l := by
  induction l generalizing s a with
  | nil => rfl
  | cons x t ih =>
    simp only [List.length_cons] at h
    have ht : ∀ i, i < t.length → ∀ c, areaOf (a + 1 + i) ≠ .book c := fun i hi c => by
      have := h (i + 1) (by omega) c
      rwa [show a + (i + 1) = a + 1 + i by omega] at this
    have e : ((s.setByte a x).setBytes (a + 1) t).byte a = x := by
      rw [State.byte_setBytes_out _ _ _ _ ht (by omega), State.byte_setByte s a a x (h 0 (by omega)), if_pos rfl]
    show State.bytes ((s.setByte a x).setBytes (a + 1) t) a (t.length + 1) = x :: t
    rw [State.bytes, e, ih _ _ ht]

/-- Bytes outside the stored ones keep their values; the stored ones read as written. -/
theorem State.byte_store_out (a b : Nat) (l : List (BitVec 8)) (h : ∀ i, i < l.length → ∀ c, areaOf (a + i) ≠ .book c)
    (hb : b < a ∨ a + l.length ≤ b) : (s.store a l).byte b = s.byte b := s.byte_setBytes_out a b l h hb
theorem State.bytes_store_self (a : Nat) (l : List (BitVec 8)) (h : ∀ i, i < l.length → ∀ c, areaOf (a + i) ≠ .book c) :
    (s.store a l).bytes a l.length = l := by
  have e : (s.store a l).bytes a l.length = (s.setBytes a l).bytes a l.length :=
    State.bytes_congr (s := s.setBytes a l) (by simp [State.store, State.clearPoison]) (by simp [State.store, State.clearPoison]) _ _
  rw [e, s.bytes_setBytes_self a l h]

/-! ## Events -/

/-- What raising an event appends. -/
theorem State.events_raiseAs (code : Code) (sev unit part pay : Nat) :
    (s.raiseAs code sev unit part pay).events = s.events ++ [⟨s.dtime, code.val, unit, part, sev, pay⟩] := rfl
theorem State.events_raise (code : Code) (unit part pay : Nat) :
    (s.raise code unit part pay).events = s.events ++ [⟨s.dtime, code.val, unit, part, code.sev, pay⟩] := rfl
theorem State.events_raiseCore (code : Code) (c engine pay : Nat) :
    (s.raiseCore code c engine pay).events =
      s.events ++ [⟨s.dtime, code.val, s.unitCore c engine, s.corePart c, code.sev, pay⟩] := rfl

/-! ## Counters -/

/-- Counting (R413), in one equation. -/
theorem State.count_eq (a n : Nat) : s.count a n = if (s.reg a).field 63 1 = 1 then s
    else if (s.reg a).field 0 48 + n < countMax then s.wr ⟨a, 0, 48⟩ ((s.reg a).field 0 48 + n)
    else ((s.wr ⟨a, 0, 48⟩ countMax).wr ⟨a, 63, 1⟩ 1).raise .dbgCounterSat (s.counterUnit a).1 (s.counterUnit a).2
      (payload [(16, 8, a)]) := rfl

/-- A counter's register is the only one that counting changes. -/
theorem State.reg_count_ne {a b : Nat} (n : Nat) (h : a ≠ b) : (s.count a n).reg b = s.reg b := by
  rw [State.count_eq]
  by_cases h1 : (s.reg a).field 63 1 = 1
  · rw [if_pos h1]
  · rw [if_neg h1]
    by_cases h2 : (s.reg a).field 0 48 + n < countMax
    · rw [if_pos h2]
      exact s.reg_wr_ne _ h
    · rw [if_neg h2, State.reg_raise, State.reg_wr_ne _ _ h, State.reg_wr_ne _ _ h]

theorem State.rd_count_ne {a : Nat} {f : RF} (n : Nat) (h : a ≠ f.reg) : (s.count a n).rd f = s.rd f := by
  unfold State.rd
  rw [State.reg_count_ne s n h]

/-- Below its limit a counter takes what is added to it, without an event. -/
theorem State.count_below (a n : Nat) (h1 : (s.reg a).field 63 1 ≠ 1) (h2 : (s.reg a).field 0 48 + n < countMax) :
    s.count a n = s.wr ⟨a, 0, 48⟩ ((s.reg a).field 0 48 + n) := by
  rw [s.count_eq a n, if_neg h1, if_pos h2]

end Sys2Proof.Machine
end

