-- ==== Sys2Proof/Laws/Engines.lean ====
section
/-!
SUPPORT. What the engines' shared operations come to when nothing stands in their way. Large parts of a result (a block, a state
after the hardware's errors) are generalised first: the kernel then compares names and does not compute them.
-/
namespace Sys2Proof.Machine

theorem ifSome_none {α β : Type} (f : α → β) (g : β) : ifSome none f g = g := rfl
theorem ifSome_some {α β : Type} (a : α) (f : α → β) (g : β) : ifSome (some a) f g = f a := rfl

/-- A load that is not refused, met by no hardware error and no fault, gives its block (R80). -/
theorem State.arrLoad_ok (s : State) (c : Nat) (i : Issued) (hw : List Hw) (h1 : s.loadRefusal c i.cmd = none)
    (h2 : (s.applyHw c engArr hw).2 = 0)
    (h3 : (s.applyHw c engArr hw).1.loadFault c i.cmd ((s.applyHw c engArr hw).1.loadBlock c i.cmd i.step).nEff
      ((s.applyHw c engArr hw).1.loadBlock c i.cmd i.step).kEff = none) :
    s.arrLoad c i hw =
      ⟨(s.applyHw c engArr hw).1.countLoads c
        (((descOffs (arrSrc i.cmd) (arrPair i.cmd)).map (fun o => (s.applyHw c engArr hw).1.desc (descAt c o))).map (fun d =>
          (d.tensorId, (List.range ((s.applyHw c engArr hw).1.loadBlock c i.cmd i.step).nEff).flatMap (fun n =>
            (s.applyHw c engArr hw).1.rowLoads c d i.step (arrRow0 i.cmd + n) (arrK0 i.cmd)
              ((s.applyHw c engArr hw).1.loadBlock c i.cmd i.step).kEff)))),
      some ((s.applyHw c engArr hw).1.loadBlock c i.cmd i.step), false, 0⟩ := by
  unfold State.arrLoad
  dsimp only
  rw [h1, ifSome_none]
  generalize (s.applyHw c engArr hw) = h at *
  generalize h.1.loadBlock c i.cmd i.step = b at *
  rw [if_neg (by simp [h2]), h3]

end Sys2Proof.Machine
end

