-- ==== Sys2Proof/Laws/Touches2.lean ====
section
/-!
SUPPORT. The frames of operations and commands, part 2: each may change the fields of its mask only, and keeps the canonical form.
-/
namespace Sys2Proof.Machine

theorem State.regionRefused_touches {M : Nat} {s0 : State} (s : State) (p n reason : Nat) (hM : Sub 33554436 M) (hT :
  Touches M s0 s) : Touches M s0 (State.regionRefused s p n reason) := by
  unfold State.regionRefused
  try dsimp only
  repeat' first
    | with_reducible assumption
    | (with_reducible refine Sub.trans ?_ hM) <;> exact Sub.lit rfl
    | with_reducible apply State.wr_touches
    | with_reducible apply State.raise_touches
    | (with_reducible intro _; try dsimp only)
    | split

theorem State.regionCreate_touches {M : Nat} {s0 : State} (s : State) (n : Nat) (hM : Sub 33554436 M) (hT : Touches M s0 s)
  : Touches M s0 (State.regionCreate s n) := by
  unfold State.regionCreate
  try dsimp only
  repeat' first
    | with_reducible assumption
    | (with_reducible refine Sub.trans ?_ hM) <;> exact Sub.lit rfl
    | with_reducible apply State.setReg_touches
    | with_reducible apply State.regionRefused_touches
    | with_reducible apply State.wr_touches
    | with_reducible apply State.quotaRefused_touches
    | (with_reducible intro _; try dsimp only)
    | split

theorem State.dropLines_touches {M : Nat} {s0 : State} (s : State) (b n : Nat) (hM : Sub 268435456 M) (hT : Touches M s0 s)
  : Touches M s0 (State.dropLines s b n) := by
  unfold State.dropLines
  try dsimp only
  repeat' first
    | with_reducible assumption
    | (with_reducible refine Sub.trans ?_ hM) <;> exact Sub.lit rfl
    | with_reducible apply State.setCache_touches
    | (with_reducible intro _; try dsimp only)
    | split

theorem State.freeRegion_touches {M : Nat} {s0 : State} (s : State) (n : Nat) (hM : Sub 268435460 M) (hT : Touches M s0 s)
  : Touches M s0 (State.freeRegion s n) := by
  unfold State.freeRegion
  try dsimp only
  repeat' first
    | with_reducible assumption
    | (with_reducible refine Sub.trans ?_ hM) <;> exact Sub.lit rfl
    | with_reducible apply State.dropLines_touches
    | with_reducible apply State.wr_touches
    | (with_reducible intro _; try dsimp only)
    | split

theorem State.regionFree_touches {M : Nat} {s0 : State} (s : State) (n : Nat) (hM : Sub 301989892 M) (hT : Touches M s0 s)
  : Touches M s0 (State.regionFree s n) := by
  unfold State.regionFree
  try dsimp only
  repeat' first
    | with_reducible assumption
    | (with_reducible refine Sub.trans ?_ hM) <;> exact Sub.lit rfl
    | with_reducible apply State.regionRefused_touches
    | with_reducible apply State.freeRegion_touches
    | with_reducible apply State.wr_touches
    | (with_reducible intro _; try dsimp only)
    | split

theorem State.regionSeal_touches {M : Nat} {s0 : State} (s : State) (n : Nat) (hM : Sub 33554436 M) (hT : Touches M s0 s) :
  Touches M s0 (State.regionSeal s n) := by
  unfold State.regionSeal
  try dsimp only
  repeat' first
    | with_reducible assumption
    | (with_reducible refine Sub.trans ?_ hM) <;> exact Sub.lit rfl
    | with_reducible apply State.regionRefused_touches
    | with_reducible apply State.wr_touches
    | (with_reducible intro _; try dsimp only)
    | split

theorem State.regionOp_touches {M : Nat} {s0 : State} (s : State) (pf : Bool) (op n : Nat) (hM : Sub 301989892 M) (hT :
  Touches M s0 s) : Touches M s0 (State.regionOp s pf op n) := by
  unfold State.regionOp
  try dsimp only
  repeat' first
    | with_reducible assumption
    | (with_reducible refine Sub.trans ?_ hM) <;> exact Sub.lit rfl
    | with_reducible apply State.regionCreate_touches
    | with_reducible apply State.regionFree_touches
    | with_reducible apply State.regionRefused_touches
    | with_reducible apply State.regionSeal_touches
    | with_reducible apply State.count_touches
    | (with_reducible intro _; try dsimp only)
    | split

theorem State.writeMem_touches {M : Nat} {s0 : State} (s : State) (x : Wr) (hM : Sub 318767108 M) (hT : Touches M s0 s) :
  Touches M s0 (State.writeMem s x) := by
  unfold State.writeMem
  try dsimp only
  repeat' first
    | with_reducible assumption
    | (with_reducible refine Sub.trans ?_ hM) <;> exact Sub.lit rfl
    | with_reducible apply State.plainWrite_touches
    | with_reducible apply execQuotaLock_touches
    | with_reducible apply State.regionOp_touches
    | with_reducible apply State.after_touches
    | (with_reducible intro _; try dsimp only)
    | split

theorem State.closePort_touches {M : Nat} {s0 : State} (s : State) (n : Nat) (hM : Sub 4294967300 M) (hT : Touches M s0 s)
  : Touches M s0 (State.closePort s n) := by
  unfold State.closePort
  try dsimp only
  repeat' first
    | with_reducible assumption
    | (with_reducible refine Sub.trans ?_ hM) <;> exact Sub.lit rfl
    | with_reducible apply State.modPort_touches
    | with_reducible apply State.wr_touches
    | (with_reducible intro _; try dsimp only)
    | split

theorem State.freeVia_touches {M : Nat} {s0 : State} (s : State) (m : Msg) (hM : Sub 4294967296 M) (hT : Touches M s0 s) :
  Touches M s0 (State.freeVia s m) := by
  unfold State.freeVia
  try dsimp only
  repeat' first
    | with_reducible assumption
    | (with_reducible refine Sub.trans ?_ hM) <;> exact Sub.lit rfl
    | with_reducible apply State.modPort_touches
    | (with_reducible intro _; try dsimp only)
    | split

theorem State.modReqXfer_touches {M : Nat} {s0 : State} (s : State) (r : Req) (f : Xfer → Xfer) (hM : Sub 549755813888 M)
  (hT : Touches M s0 s) : Touches M s0 (State.modReqXfer s r f) := by
  unfold State.modReqXfer
  try dsimp only
  repeat' first
    | with_reducible assumption
    | (with_reducible refine Sub.trans ?_ hM) <;> exact Sub.lit rfl
    | with_reducible apply State.modChan_touches
    | (with_reducible intro _; try dsimp only)
    | split

theorem State.setJobs_touches {M : Nat} {s0 : State} (s : State) (x : List (Nat × Job)) (hM : Sub 140737488355328 M) (hT :
  Touches M s0 s) : Touches M s0 (State.setJobs s x) := by
  unfold State.setJobs
  try dsimp only
  repeat' first
    | with_reducible assumption
    | (with_reducible refine Sub.trans ?_ hM) <;> exact Sub.lit rfl
    | with_reducible apply Touches.set_jobs
    | (with_reducible intro _; try dsimp only)
    | split

theorem State.setJob_touches {M : Nat} {s0 : State} (s : State) (p : Nat) (j : Job) (hM : Sub 140737488355328 M) (hT :
  Touches M s0 s) : Touches M s0 (State.setJob s p j) := by
  unfold State.setJob
  try dsimp only
  repeat' first
    | with_reducible assumption
    | (with_reducible refine Sub.trans ?_ hM) <;> exact Sub.lit rfl
    | with_reducible apply State.setJobs_touches
    | (with_reducible intro _; try dsimp only)
    | split

theorem State.modJob_touches {M : Nat} {s0 : State} (s : State) (p : Nat) (f : Job → Job) (hM : Sub 140737488355328 M) (hT
  : Touches M s0 s) : Touches M s0 (State.modJob s p f) := by
  unfold State.modJob
  try dsimp only
  repeat' first
    | with_reducible assumption
    | (with_reducible refine Sub.trans ?_ hM) <;> exact Sub.lit rfl
    | with_reducible apply State.setJob_touches
    | (with_reducible intro _; try dsimp only)
    | split

theorem State.failReq_touches {M : Nat} {s0 : State} (s : State) (r : Req) (code : Nat) (hM : Sub 145754010157056 M) (hT :
  Touches M s0 s) : Touches M s0 (State.failReq s r code) := by
  unfold State.failReq
  try dsimp only
  repeat' first
    | with_reducible assumption
    | (with_reducible refine Sub.trans ?_ hM) <;> exact Sub.lit rfl
    | with_reducible apply State.dropReq_touches
    | with_reducible apply State.modReqXfer_touches
    | with_reducible apply State.setRecovery_touches
    | with_reducible apply State.modJob_touches
    | (with_reducible intro _; try dsimp only)
    | split

theorem State.dropMsg_touches {M : Nat} {s0 : State} (s : State) (m : Msg) (hM : Sub 145758338678784 M) (hT : Touches M s0
  s) : Touches M s0 (State.dropMsg s m) := by
  unfold State.dropMsg
  try dsimp only
  repeat' first
    | with_reducible assumption
    | (with_reducible refine Sub.trans ?_ hM) <;> exact Sub.lit rfl
    | with_reducible apply State.unreachable_touches
    | with_reducible apply State.freeVia_touches
    | with_reducible apply State.sendMsg_touches
    | with_reducible apply State.failReq_touches
    | (with_reducible intro _; try dsimp only)
    | split

theorem State.rerouteFirst_touches {M : Nat} {s0 : State} (s : State) (m : Msg) (hM : Sub 145758338678784 M) (hT : Touches
  M s0 s) : Touches M s0 (State.rerouteFirst s m) := by
  unfold State.rerouteFirst
  try dsimp only
  repeat' first
    | with_reducible assumption
    | (with_reducible refine Sub.trans ?_ hM) <;> exact Sub.lit rfl
    | with_reducible apply State.modPort_touches
    | with_reducible apply State.dropMsg_touches
    | (with_reducible intro _; try dsimp only)
    | split

theorem State.portDown_touches {M : Nat} {s0 : State} (s : State) (n step : Nat) (hM : Sub 145758338678788 M) (hT : Touches
  M s0 s) : Touches M s0 (State.portDown s n step) := by
  unfold State.portDown
  try dsimp only
  repeat' first
    | with_reducible assumption
    | (with_reducible refine Sub.trans ?_ hM) <;> exact Sub.lit rfl
    | with_reducible apply State.raise_touches
    | with_reducible apply State.closePort_touches
    | with_reducible apply State.rerouteFirst_touches
    | with_reducible apply Touches.foldl
    | with_reducible apply Touches1.foldl
    | with_reducible apply Touches1.fst
    | (with_reducible intro _; try dsimp only)
    | split
    | with_reducible apply Touches1.mk

theorem State.setStep_touches {M : Nat} {s0 : State} (s : State) (n k : Nat) (hM : Sub 4294967300 M) (hT : Touches M s0 s)
  : Touches M s0 (State.setStep s n k) := by
  unfold State.setStep
  try dsimp only
  repeat' first
    | with_reducible assumption
    | (with_reducible refine Sub.trans ?_ hM) <;> exact Sub.lit rfl
    | with_reducible apply State.modPort_touches
    | with_reducible apply State.wr_touches
    | (with_reducible intro _; try dsimp only)
    | split

theorem State.startPort_touches {M : Nat} {s0 : State} (s : State) (n : Nat) (hM : Sub 4294967300 M) (hT : Touches M s0 s)
  : Touches M s0 (State.startPort s n) := by
  unfold State.startPort
  try dsimp only
  repeat' first
    | with_reducible assumption
    | (with_reducible refine Sub.trans ?_ hM) <;> exact Sub.lit rfl
    | with_reducible apply State.modPort_touches
    | with_reducible apply State.setStep_touches
    | with_reducible apply State.wr_touches
    | (with_reducible intro _; try dsimp only)
    | split

theorem State.portCtrlWrite_touches {M : Nat} {s0 : State} (s : State) (pf : Bool) (n value : Nat) (hM : Sub
  145758338678788 M) (hT : Touches M s0 s) : Touches M s0 (State.portCtrlWrite s pf n value) := by
  unfold State.portCtrlWrite
  try dsimp only
  repeat' first
    | with_reducible assumption
    | (with_reducible refine Sub.trans ?_ hM) <;> exact Sub.lit rfl
    | with_reducible apply State.portDown_touches
    | with_reducible apply State.wr_touches
    | with_reducible apply State.closePort_touches
    | with_reducible apply State.count_touches
    | with_reducible apply State.startPort_touches
    | (with_reducible intro _; try dsimp only)
    | split

theorem execLnkIdentLock_touches {M : Nat} {s0 : State} (pf : Bool) (s : State) (hM : Sub 4345298948 M) (hT : Touches M s0
  s) : TouchesO M s0 (execLnkIdentLock pf s) := by
  unfold execLnkIdentLock
  try dsimp only
  repeat' first
    | with_reducible assumption
    | (with_reducible refine Sub.trans ?_ hM) <;> exact Sub.lit rfl
    | with_reducible apply State.wr_touches
    | with_reducible apply State.barAnswer_touches
    | with_reducible apply State.count_touches
    | with_reducible apply State.startPort_touches
    | with_reducible apply TouchesO.next
    | with_reducible apply Touches.foldl
    | with_reducible apply Touches1.foldl
    | with_reducible apply Touches1.fst
    | (with_reducible intro _; try dsimp only)
    | split
    | with_reducible apply Touches1.mk

theorem State.setFellows_touches {M : Nat} {s0 : State} (s : State) (x : Fellows) (hM : Sub 17179869184 M) (hT : Touches M
  s0 s) : Touches M s0 (State.setFellows s x) := by
  unfold State.setFellows
  try dsimp only
  repeat' first
    | with_reducible assumption
    | (with_reducible refine Sub.trans ?_ hM) <;> exact Sub.lit rfl
    | with_reducible apply Touches.set_fellows
    | (with_reducible intro _; try dsimp only)
    | split

theorem State.modFellows_touches {M : Nat} {s0 : State} (s : State) (f : Fellows → Fellows) (hM : Sub 17179869184 M) (hT :
  Touches M s0 s) : Touches M s0 (State.modFellows s f) := by
  unfold State.modFellows
  try dsimp only
  repeat' first
    | with_reducible assumption
    | (with_reducible refine Sub.trans ?_ hM) <;> exact Sub.lit rfl
    | with_reducible apply State.setFellows_touches
    | (with_reducible intro _; try dsimp only)
    | split

theorem State.correctTime_touches {M : Nat} {s0 : State} (s : State) (o : Int) (hM : Sub 17179869186 M) (hT : Touches M s0
  s) : Touches M s0 (State.correctTime s o) := by
  unfold State.correctTime
  try dsimp only
  repeat' first
    | with_reducible assumption
    | (with_reducible refine Sub.trans ?_ hM) <;> exact Sub.lit rfl
    | with_reducible apply State.setDtime_touches
    | with_reducible apply State.modFellows_touches
    | (with_reducible intro _; try dsimp only)
    | split

theorem State.offsetIn_touches {M : Nat} {s0 : State} (s : State) (o : Int) (hM : Sub 17213423622 M) (hT : Touches M s0 s)
  : Touches M s0 (State.offsetIn s o) := by
  unfold State.offsetIn
  try dsimp only
  repeat' first
    | with_reducible assumption
    | (with_reducible refine Sub.trans ?_ hM) <;> exact Sub.lit rfl
    | with_reducible apply State.correctTime_touches
    | with_reducible apply State.wr_touches
    | with_reducible apply State.raise_touches
    | with_reducible apply State.modFellows_touches
    | (with_reducible intro _; try dsimp only)
    | split

theorem execTimeAdjWrite_touches {M : Nat} {s0 : State} (may : Bool) (offset : Nat) (s : State) (hM : Sub 17230200838 M)
  (hT : Touches M s0 s) : TouchesO M s0 (execTimeAdjWrite may offset s) := by
  unfold execTimeAdjWrite
  try dsimp only
  repeat' first
    | with_reducible assumption
    | (with_reducible refine Sub.trans ?_ hM) <;> exact Sub.lit rfl
    | with_reducible apply State.offsetIn_touches
    | with_reducible apply State.barAnswer_touches
    | with_reducible apply State.count_touches
    | with_reducible apply TouchesO.next
    | (with_reducible intro _; try dsimp only)
    | split
    | with_reducible apply Touches1.mk

theorem State.sendPause_touches {M : Nat} {s0 : State} (s : State) (n c quanta : Nat) (hM : Sub 16777216 M) (hT : Touches M
  s0 s) : Touches M s0 (State.sendPause s n c quanta) := by
  unfold State.sendPause
  try dsimp only
  repeat' first
    | with_reducible assumption
    | (with_reducible refine Sub.trans ?_ hM) <;> exact Sub.lit rfl
    | with_reducible apply State.setOut_touches
    | (with_reducible intro _; try dsimp only)
    | split

theorem State.resumeRing_touches {M : Nat} {s0 : State} (s : State) (n r : Nat) (hM : Sub 4311744512 M) (hT : Touches M s0
  s) : Touches M s0 (State.resumeRing s n r) := by
  unfold State.resumeRing
  try dsimp only
  repeat' first
    | with_reducible assumption
    | (with_reducible refine Sub.trans ?_ hM) <;> exact Sub.lit rfl
    | with_reducible apply State.modPort_touches
    | with_reducible apply State.sendPause_touches
    | with_reducible apply Touches.foldl
    | with_reducible apply Touches1.foldl
    | with_reducible apply Touches1.fst
    | (with_reducible intro _; try dsimp only)
    | split
    | with_reducible apply Touches1.mk

theorem State.ethTail_touches {M : Nat} {s0 : State} (s : State) (pf : Bool) (n r tail : Nat) (hM : Sub 4345298948 M) (hT :
  Touches M s0 s) : Touches M s0 (State.ethTail s pf n r tail) := by
  unfold State.ethTail
  try dsimp only
  repeat' first
    | with_reducible assumption
    | (with_reducible refine Sub.trans ?_ hM) <;> exact Sub.lit rfl
    | with_reducible apply State.wr_touches
    | with_reducible apply State.resumeRing_touches
    | with_reducible apply State.raise_touches
    | with_reducible apply State.count_touches
    | (with_reducible intro _; try dsimp only)
    | split

theorem State.writeLnk_touches {M : Nat} {s0 : State} (s : State) (x : Wr) (hM : Sub 145775535325190 M) (hT : Touches M s0
  s) : Touches M s0 (State.writeLnk s x) := by
  unfold State.writeLnk
  try dsimp only
  repeat' first
    | with_reducible assumption
    | (with_reducible refine Sub.trans ?_ hM) <;> exact Sub.lit rfl
    | with_reducible apply State.portCtrlWrite_touches
    | with_reducible apply execLnkIdentLock_touches
    | with_reducible apply State.wr_touches
    | with_reducible apply State.plainWrite_touches
    | with_reducible apply execTimeAdjWrite_touches
    | with_reducible apply State.ethTail_touches
    | with_reducible apply State.after_touches
    | with_reducible apply State.count_touches
    | (with_reducible intro _; try dsimp only)
    | split

theorem State.requestPlan_touches {M : Nat} {s0 : State} (s : State) (reason : Nat) (hM : Sub 9007199254740996 M) (hT :
  Touches M s0 s) : Touches M s0 (State.requestPlan s reason) := by
  unfold State.requestPlan
  try dsimp only
  repeat' first
    | with_reducible assumption
    | (with_reducible refine Sub.trans ?_ hM) <;> exact Sub.lit rfl
    | with_reducible apply State.wr_touches
    | with_reducible apply State.setPower_touches
    | (with_reducible intro _; try dsimp only)
    | split

theorem State.writePwr_touches {M : Nat} {s0 : State} (s : State) (x : Wr) (hM : Sub 9007199288295428 M) (hT : Touches M s0
  s) : Touches M s0 (State.writePwr s x) := by
  unfold State.writePwr
  try dsimp only
  repeat' first
    | with_reducible assumption
    | (with_reducible refine Sub.trans ?_ hM) <;> exact Sub.lit rfl
    | with_reducible apply State.requestPlan_touches
    | with_reducible apply State.plainWrite_touches
    | with_reducible apply State.count_touches
    | (with_reducible intro _; try dsimp only)
    | split

theorem State.readVia_touches {M : Nat} {s0 : State} (s : State) (w : Accessor) (unit a n : Nat) (hM : Sub 33554436 M) (hT
  : Touches M s0 s) : Touches2 M s0 (State.readVia s w unit a n) := by
  unfold State.readVia
  try dsimp only
  repeat' first
    | with_reducible assumption
    | (with_reducible refine Sub.trans ?_ hM) <;> exact Sub.lit rfl
    | with_reducible apply State.refuseAccess_touches
    | with_reducible apply Touches2.snd
    | (with_reducible intro _; try dsimp only)
    | split
    | with_reducible apply Touches2.mk

theorem State.ctxSeen_touches {M : Nat} {s0 : State} (s : State) (a n : Nat) (hM : Sub 33554436 M) (hT : Touches M s0 s) :
  Touches M s0 (State.ctxSeen s a n) := by
  unfold State.ctxSeen
  try dsimp only
  repeat' first
    | with_reducible assumption
    | (with_reducible refine Sub.trans ?_ hM) <;> exact Sub.lit rfl
    | with_reducible apply State.readVia_touches
    | with_reducible apply Touches2.snd
    | (with_reducible intro _; try dsimp only)
    | split

theorem State.ctxWrite_touches {M : Nat} {s0 : State} (s : State) (a n v : Nat) (hM : Sub 234881068 M) (hT : Touches M s0
  s) : Touches M s0 (State.ctxWrite s a n v) := by
  unfold State.ctxWrite
  try dsimp only
  repeat' first
    | with_reducible assumption
    | (with_reducible refine Sub.trans ?_ hM) <;> exact Sub.lit rfl
    | with_reducible apply State.writeVia_touches
    | (with_reducible intro _; try dsimp only)
    | split

theorem State.queueTailWrite_touches {M : Nat} {s0 : State} (s : State) (q value : Nat) (hM : Sub 234881068 M) (hT :
  Touches M s0 s) : Touches M s0 (State.queueTailWrite s q value) := by
  unfold State.queueTailWrite
  try dsimp only
  repeat' first
    | with_reducible assumption
    | (with_reducible refine Sub.trans ?_ hM) <;> exact Sub.lit rfl
    | with_reducible apply State.ringOverrun_touches
    | with_reducible apply State.ctxSeen_touches
    | with_reducible apply State.count_touches
    | with_reducible apply State.ctxWrite_touches
    | (with_reducible intro _; try dsimp only)
    | split

theorem State.setStreams_touches {M : Nat} {s0 : State} (s : State) (x : List (Nat × Stream)) (hM : Sub 16384 M) (hT :
  Touches M s0 s) : Touches M s0 (State.setStreams s x) := by
  unfold State.setStreams
  try dsimp only
  repeat' first
    | with_reducible assumption
    | (with_reducible refine Sub.trans ?_ hM) <;> exact Sub.lit rfl
    | with_reducible apply Touches.set_streams
    | (with_reducible intro _; try dsimp only)
    | split

theorem State.modStream_touches {M : Nat} {s0 : State} (s : State) (n : Nat) (f : Stream → Stream) (hM : Sub 16384 M) (hT :
  Touches M s0 s) : Touches M s0 (State.modStream s n f) := by
  unfold State.modStream
  try dsimp only
  repeat' first
    | with_reducible assumption
    | (with_reducible refine Sub.trans ?_ hM) <;> exact Sub.lit rfl
    | with_reducible apply State.setStreams_touches
    | (with_reducible intro _; try dsimp only)
    | split

theorem State.segmentReported_touches {M : Nat} {s0 : State} (s : State) (x : Completion) (hM : Sub 33554692 M) (hT :
  Touches M s0 s) : Touches M s0 (State.segmentReported s x) := by
  unfold State.segmentReported
  try dsimp only
  repeat' first
    | with_reducible assumption
    | (with_reducible refine Sub.trans ?_ hM) <;> exact Sub.lit rfl
    | with_reducible apply State.modCore_touches
    | with_reducible apply State.count_touches
    | (with_reducible intro _; try dsimp only)
    | split

theorem State.dropCompletion_touches {M : Nat} {s0 : State} (s : State) (x : Completion) (kind : Nat) (hM : Sub 33571076 M)
  (hT : Touches M s0 s) : Touches M s0 (State.dropCompletion s x kind) := by
  unfold State.dropCompletion
  try dsimp only
  repeat' first
    | with_reducible assumption
    | (with_reducible refine Sub.trans ?_ hM) <;> exact Sub.lit rfl
    | with_reducible apply State.raise_touches
    | with_reducible apply State.modStream_touches
    | with_reducible apply State.segmentReported_touches
    | with_reducible apply State.count_touches
    | (with_reducible intro _; try dsimp only)
    | split

theorem State.disableStream_touches {M : Nat} {s0 : State} (s : State) (n : Nat) (hM : Sub 33571076 M) (hT : Touches M s0
  s) : Touches M s0 (State.disableStream s n) := by
  unfold State.disableStream
  try dsimp only
  repeat' first
    | with_reducible assumption
    | (with_reducible refine Sub.trans ?_ hM) <;> exact Sub.lit rfl
    | with_reducible apply State.dropCompletion_touches
    | with_reducible apply State.modStream_touches
    | with_reducible apply Touches.foldl
    | with_reducible apply Touches1.foldl
    | with_reducible apply Touches1.fst
    | (with_reducible intro _; try dsimp only)
    | split
    | with_reducible apply Touches1.mk

theorem State.dropWaiter_touches {M : Nat} {s0 : State} (s : State) (a : WaitAgent) (hM : Sub 512 M) (hT : Touches M s0 s)
  : Touches M s0 (State.dropWaiter s a) := by
  refine Touches.updSync hM hT (fun hr o hc => ?_)
  have e : ∀ m : List (Nat × SyncObj), Sparse.get SyncObj.reset
      (m.map (fun p => (p.1, { p.2 with waiters := p.2.waiters.filter (fun w => !(decide (w.agent = a))) }))) o =
      { (Sparse.get SyncObj.reset m o) with waiters := (Sparse.get SyncObj.reset m o).waiters.filter (fun w => !(decide (w.agent = a))) } := by
    intro m
    induction m with
    | nil => rfl
    | cons p t ih =>
      simp only [List.map_cons, Sparse.get]
      split
      · rfl
      · exact ih
  unfold State.obj State.setSync at hc ⊢
  dsimp only at hc ⊢
  rw [e] at hc ⊢
  have h : (Sparse.get SyncObj.reset s.sync o).waiters = [] := hr o hc
  dsimp only
  rw [h]
  rfl

theorem State.setHeldHeads_touches {M : Nat} {s0 : State} (s : State) (x : List Nat) (hM : Sub 262144 M) (hT : Touches M s0
  s) : Touches M s0 (State.setHeldHeads s x) := by
  unfold State.setHeldHeads
  try dsimp only
  repeat' first
    | with_reducible assumption
    | (with_reducible refine Sub.trans ?_ hM) <;> exact Sub.lit rfl
    | with_reducible apply Touches.set_heldHeads
    | (with_reducible intro _; try dsimp only)
    | split

theorem State.setQueues_touches {M : Nat} {s0 : State} (s : State) (x : List (Nat × Nat)) (hM : Sub 524288 M) (hT : Touches
  M s0 s) : Touches M s0 (State.setQueues s x) := by
  unfold State.setQueues
  try dsimp only
  repeat' first
    | with_reducible assumption
    | (with_reducible refine Sub.trans ?_ hM) <;> exact Sub.lit rfl
    | with_reducible apply Touches.set_queues
    | (with_reducible intro _; try dsimp only)
    | split

theorem State.setQueueState_touches {M : Nat} {s0 : State} (s : State) (q v : Nat) (hM : Sub 235405356 M) (hT : Touches M
  s0 s) : Touches M s0 (State.setQueueState s q v) := by
  unfold State.setQueueState
  try dsimp only
  repeat' first
    | with_reducible assumption
    | (with_reducible refine Sub.trans ?_ hM) <;> exact Sub.lit rfl
    | with_reducible apply State.setQueues_touches
    | with_reducible apply State.ctxWrite_touches
    | (with_reducible intro _; try dsimp only)
    | split

theorem State.disableQueue_touches {M : Nat} {s0 : State} (s : State) (q : Nat) (hM : Sub 235733548 M) (hT : Touches M s0
  s) : Touches M s0 (State.disableQueue s q) := by
  unfold State.disableQueue
  try dsimp only
  repeat' first
    | with_reducible assumption
    | (with_reducible refine Sub.trans ?_ hM) <;> exact Sub.lit rfl
    | with_reducible apply State.dropWaiter_touches
    | with_reducible apply State.setHeldHeads_touches
    | with_reducible apply State.setQueueState_touches
    | with_reducible apply State.setHeadWait_touches
    | (with_reducible intro _; try dsimp only)
    | split

theorem State.qOp_touches {M : Nat} {s0 : State} (s : State) (pf : Bool) (op index : Nat) (stream : Bool) (hM : Sub
  235750188 M) (hT : Touches M s0 s) : Touches M s0 (State.qOp s pf op index stream) := by
  unfold State.qOp
  try dsimp only
  repeat' first
    | with_reducible assumption
    | (with_reducible refine Sub.trans ?_ hM) <;> exact Sub.lit rfl
    | with_reducible apply State.ctxSeen_touches
    | with_reducible apply State.wr_touches
    | with_reducible apply State.disableStream_touches
    | with_reducible apply State.raise_touches
    | with_reducible apply State.disableQueue_touches
    | with_reducible apply State.modStream_touches
    | with_reducible apply State.count_touches
    | with_reducible apply State.setQueueState_touches
    | (with_reducible intro _; try dsimp only)
    | split

theorem State.setRings_touches {M : Nat} {s0 : State} (s : State) (x : List (Nat × EventRing)) (hM : Sub 32768 M) (hT :
  Touches M s0 s) : Touches M s0 (State.setRings s x) := by
  unfold State.setRings
  try dsimp only
  repeat' first
    | with_reducible assumption
    | (with_reducible refine Sub.trans ?_ hM) <;> exact Sub.lit rfl
    | with_reducible apply Touches.set_rings
    | (with_reducible intro _; try dsimp only)
    | split

theorem State.modRing_touches {M : Nat} {s0 : State} (s : State) (p : Nat) (f : EventRing → EventRing) (hM : Sub 32768 M)
  (hT : Touches M s0 s) : Touches M s0 (State.modRing s p f) := by
  unfold State.modRing
  try dsimp only
  repeat' first
    | with_reducible assumption
    | (with_reducible refine Sub.trans ?_ hM) <;> exact Sub.lit rfl
    | with_reducible apply State.setRings_touches
    | (with_reducible intro _; try dsimp only)
    | split

theorem execEventRingWrite_touches {M : Nat} {s0 : State} (pf : Bool) (p value : Nat) (s : State) (hM : Sub 50364420 M) (hT
  : Touches M s0 s) : TouchesO M s0 (execEventRingWrite pf p value s) := by
  unfold execEventRingWrite
  try dsimp only
  repeat' first
    | with_reducible assumption
    | (with_reducible refine Sub.trans ?_ hM) <;> exact Sub.lit rfl
    | with_reducible apply State.setReg_touches
    | with_reducible apply State.barAnswer_touches
    | with_reducible apply State.count_touches
    | with_reducible apply State.modRing_touches
    | with_reducible apply TouchesO.next
    | (with_reducible intro _; try dsimp only)
    | split
    | with_reducible apply Touches1.mk

theorem State.writeEvents_touches {M : Nat} {s0 : State} (s : State) (x : Wr) (p : Nat) (hM : Sub 50364420 M) (hT : Touches
  M s0 s) : Touches M s0 (State.writeEvents s x p) := by
  unfold State.writeEvents
  try dsimp only
  repeat' first
    | with_reducible assumption
    | (with_reducible refine Sub.trans ?_ hM) <;> exact Sub.lit rfl
    | with_reducible apply State.eventHeadWrite_touches
    | with_reducible apply State.plainWrite_touches
    | with_reducible apply State.after_touches
    | with_reducible apply State.count_touches
    | with_reducible apply execEventRingWrite_touches
    | (with_reducible intro _; try dsimp only)
    | split

theorem State.setFlags_touches {M : Nat} {s0 : State} (s : State) (x : List (Nat × Nat)) (hM : Sub 8388608 M) (hT : Touches
  M s0 s) : Touches M s0 (State.setFlags s x) := by
  unfold State.setFlags
  try dsimp only
  repeat' first
    | with_reducible assumption
    | (with_reducible refine Sub.trans ?_ hM) <;> exact Sub.lit rfl
    | with_reducible apply Touches.set_flags
    | (with_reducible intro _; try dsimp only)
    | split

theorem execWindowEntryWrite_touches {M : Nat} {s0 : State} (pf : Bool) (e value : Nat) (s : State) (hM : Sub 58720260 M)
  (hT : Touches M s0 s) : TouchesO M s0 (execWindowEntryWrite pf e value s) := by
  unfold execWindowEntryWrite
  try dsimp only
  repeat' first
    | with_reducible assumption
    | (with_reducible refine Sub.trans ?_ hM) <;> exact Sub.lit rfl
    | with_reducible apply State.setReg_touches
    | with_reducible apply State.barAnswer_touches
    | with_reducible apply State.setFlags_touches
    | with_reducible apply State.count_touches
    | with_reducible apply TouchesO.next
    | (with_reducible intro _; try dsimp only)
    | split
    | with_reducible apply Touches1.mk

theorem State.streamHeadWrite_touches {M : Nat} {s0 : State} (s : State) (n value : Nat) (hM : Sub 234881068 M) (hT :
  Touches M s0 s) : Touches M s0 (State.streamHeadWrite s n value) := by
  unfold State.streamHeadWrite
  try dsimp only
  repeat' first
    | with_reducible assumption
    | (with_reducible refine Sub.trans ?_ hM) <;> exact Sub.lit rfl
    | with_reducible apply State.ringOverrun_touches
    | with_reducible apply State.ctxSeen_touches
    | with_reducible apply State.count_touches
    | with_reducible apply State.ctxWrite_touches
    | (with_reducible intro _; try dsimp only)
    | split

theorem State.writeHif_touches {M : Nat} {s0 : State} (s : State) (x : Wr) (hM : Sub 260948780 M) (hT : Touches M s0 s) :
  Touches M s0 (State.writeHif s x) := by
  unfold State.writeHif
  try dsimp only
  repeat' first
    | with_reducible assumption
    | (with_reducible refine Sub.trans ?_ hM) <;> exact Sub.lit rfl
    | with_reducible apply State.queueTailWrite_touches
    | with_reducible apply State.qOp_touches
    | with_reducible apply State.writeEvents_touches
    | with_reducible apply execWindowEntryWrite_touches
    | with_reducible apply State.plainWrite_touches
    | with_reducible apply State.streamHeadWrite_touches
    | with_reducible apply State.after_touches
    | (with_reducible intro _; try dsimp only)
    | split

theorem State.debugInvalid_touches {M : Nat} {s0 : State} (s : State) (part reason : Nat) (hM : Sub 33554432 M) (hT :
  Touches M s0 s) : Touches M s0 (State.debugInvalid s part reason) := by
  unfold State.debugInvalid
  try dsimp only
  repeat' first
    | with_reducible assumption
    | (with_reducible refine Sub.trans ?_ hM) <;> exact Sub.lit rfl
    | with_reducible apply State.raise_touches
    | (with_reducible intro _; try dsimp only)
    | split

theorem execWatchArm_touches {M : Nat} {s0 : State} (p n value : Nat) (s : State) (hM : Sub 587202564 M) (hT : Touches M s0
  s) : TouchesO M s0 (execWatchArm p n value s) := by
  unfold execWatchArm
  try dsimp only
  repeat' first
    | with_reducible assumption
    | (with_reducible refine Sub.trans ?_ hM) <;> exact Sub.lit rfl
    | with_reducible apply State.setReg_touches
    | with_reducible apply State.setWatch_touches
    | with_reducible apply State.barAnswer_touches
    | with_reducible apply State.debugInvalid_touches
    | with_reducible apply TouchesO.next
    | (with_reducible intro _; try dsimp only)
    | split
    | with_reducible apply Touches1.mk

theorem State.writeWatch_touches {M : Nat} {s0 : State} (s : State) (x : Wr) (p n : Nat) (hM : Sub 587202564 M) (hT :
  Touches M s0 s) : Touches M s0 (State.writeWatch s x p n) := by
  unfold State.writeWatch
  try dsimp only
  repeat' first
    | with_reducible assumption
    | (with_reducible refine Sub.trans ?_ hM) <;> exact Sub.lit rfl
    | with_reducible apply State.plainWrite_touches
    | with_reducible apply execWatchArm_touches
    | with_reducible apply State.after_touches
    | (with_reducible intro _; try dsimp only)
    | split

theorem State.setDm_touches {M : Nat} {s0 : State} (s : State) (x : DebugModule) (hM : Sub 1125899906842624 M) (hT :
  Touches M s0 s) : Touches M s0 (State.setDm s x) := by
  unfold State.setDm
  try dsimp only
  repeat' first
    | with_reducible assumption
    | (with_reducible refine Sub.trans ?_ hM) <;> exact Sub.lit rfl
    | with_reducible apply Touches.set_dm
    | (with_reducible intro _; try dsimp only)
    | split

theorem State.dmError_touches {M : Nat} {s0 : State} (s : State) (e : Nat) (hM : Sub 1125899906842624 M) (hT : Touches M s0
  s) : Touches M s0 (State.dmError s e) := by
  unfold State.dmError
  try dsimp only
  repeat' first
    | with_reducible assumption
    | (with_reducible refine Sub.trans ?_ hM) <;> exact Sub.lit rfl
    | with_reducible apply State.setDm_touches
    | (with_reducible intro _; try dsimp only)
    | split

theorem State.dmNext_touches {M : Nat} {s0 : State} (s : State) (hM : Sub 1125899906842624 M) (hT : Touches M s0 s) :
  Touches M s0 (State.dmNext s) := by
  unfold State.dmNext
  try dsimp only
  repeat' first
    | with_reducible assumption
    | (with_reducible refine Sub.trans ?_ hM) <;> exact Sub.lit rfl
    | with_reducible apply State.setDm_touches
    | (with_reducible intro _; try dsimp only)
    | split

theorem State.dmAccess_touches {M : Nat} {s0 : State} (s : State) (write : Bool) (hM : Sub 1125900141723692 M) (hT :
  Touches M s0 s) : Touches M s0 (State.dmAccess s write) := by
  unfold State.dmAccess
  try dsimp only
  repeat' first
    | with_reducible assumption
    | (with_reducible refine Sub.trans ?_ hM) <;> exact Sub.lit rfl
    | with_reducible apply State.refuseAccess_touches
    | with_reducible apply State.storeNat_touches
    | with_reducible apply State.setDm_touches
    | with_reducible apply State.dmError_touches
    | with_reducible apply State.dmNext_touches
    | (with_reducible intro _; try dsimp only)
    | split

theorem State.dmiRead_touches {M : Nat} {s0 : State} (s : State) (addr : Nat) (hM : Sub 1125900141723692 M) (hT : Touches M
  s0 s) : Touches1 M s0 (State.dmiRead s addr) := by
  unfold State.dmiRead
  try dsimp only
  repeat' first
    | with_reducible assumption
    | (with_reducible refine Sub.trans ?_ hM) <;> exact Sub.lit rfl
    | with_reducible apply State.dmAccess_touches
    | with_reducible apply Touches1.fst
    | (with_reducible intro _; try dsimp only)
    | split
    | with_reducible apply Touches1.mk

theorem State.setHartCsr_touches {M : Nat} {s0 : State} (s : State) (x : List (Nat × Nat)) (hM : Sub 72057594037927936 M)
  (hT : Touches M s0 s) : Touches M s0 (State.setHartCsr s x) := by
  unfold State.setHartCsr
  try dsimp only
  repeat' first
    | with_reducible assumption
    | (with_reducible refine Sub.trans ?_ hM) <;> exact Sub.lit rfl
    | with_reducible apply Touches.set_hartCsr
    | (with_reducible intro _; try dsimp only)
    | split

theorem State.mbxFall_touches {M : Nat} {s0 : State} (s : State) (r b : Nat) (hM : Sub 4503599627370500 M) (hT : Touches M
  s0 s) : Touches M s0 (State.mbxFall s r b) := by
  unfold State.mbxFall
  try dsimp only
  repeat' first
    | with_reducible assumption
    | (with_reducible refine Sub.trans ?_ hM) <;> exact Sub.lit rfl
    | with_reducible apply State.setReg_touches
    | with_reducible apply State.setReferee_touches
    | (with_reducible intro _; try dsimp only)
    | split

theorem State.mbxAborted_touches {M : Nat} {s0 : State} (s : State) (c kind : Nat) (hM : Sub 33554432 M) (hT : Touches M s0
  s) : Touches M s0 (State.mbxAborted s c kind) := by
  unfold State.mbxAborted
  try dsimp only
  repeat' first
    | with_reducible assumption
    | (with_reducible refine Sub.trans ?_ hM) <;> exact Sub.lit rfl
    | with_reducible apply State.raise_touches
    | (with_reducible intro _; try dsimp only)
    | split

theorem State.mbxClear_touches {M : Nat} {s0 : State} (s : State) (c : Nat) (hM : Sub 4 M) (hT : Touches M s0 s) : Touches
  M s0 (State.mbxClear s c) := by
  unfold State.mbxClear
  try dsimp only
  repeat' first
    | with_reducible assumption
    | (with_reducible refine Sub.trans ?_ hM) <;> exact Sub.lit rfl
    | with_reducible apply State.setReg_touches
    | with_reducible apply Touches.foldl
    | with_reducible apply Touches1.foldl
    | with_reducible apply Touches1.fst
    | (with_reducible intro _; try dsimp only)
    | split
    | with_reducible apply Touches1.mk

theorem State.mbxSenderReset_touches {M : Nat} {s0 : State} (s : State) (c : Nat) (hM : Sub 4503599660924932 M) (hT :
  Touches M s0 s) : Touches M s0 (State.mbxSenderReset s c) := by
  unfold State.mbxSenderReset
  try dsimp only
  repeat' first
    | with_reducible assumption
    | (with_reducible refine Sub.trans ?_ hM) <;> exact Sub.lit rfl
    | with_reducible apply State.mbxFall_touches
    | with_reducible apply State.wr_touches
    | with_reducible apply State.mbxAborted_touches
    | with_reducible apply State.mbxClear_touches
    | (with_reducible intro _; try dsimp only)
    | split

theorem State.setMsix_touches {M : Nat} {s0 : State} (s : State) (x : List (Nat × MsixEntry)) (hM : Sub 144115188075855872
  M) (hT : Touches M s0 s) : Touches M s0 (State.setMsix s x) := by
  unfold State.setMsix
  try dsimp only
  repeat' first
    | with_reducible assumption
    | (with_reducible refine Sub.trans ?_ hM) <;> exact Sub.lit rfl
    | with_reducible apply Touches.set_msix
    | (with_reducible intro _; try dsimp only)
    | split

theorem State.putMsix_touches {M : Nat} {s0 : State} (s : State) (fn v : Nat) (e : MsixEntry) (hM : Sub 144115188075855872
  M) (hT : Touches M s0 s) : Touches M s0 (State.putMsix s fn v e) := by
  unfold State.putMsix
  try dsimp only
  repeat' first
    | with_reducible assumption
    | (with_reducible refine Sub.trans ?_ hM) <;> exact Sub.lit rfl
    | with_reducible apply State.setMsix_touches
    | (with_reducible intro _; try dsimp only)
    | split

theorem State.sendMsix_touches {M : Nat} {s0 : State} (s : State) (fn v : Nat) (hM : Sub 144115188092633088 M) (hT :
  Touches M s0 s) : Touches M s0 (State.sendMsix s fn v) := by
  unfold State.sendMsix
  try dsimp only
  repeat' first
    | with_reducible assumption
    | (with_reducible refine Sub.trans ?_ hM) <;> exact Sub.lit rfl
    | with_reducible apply State.putMsix_touches
    | with_reducible apply State.setOut_touches
    | (with_reducible intro _; try dsimp only)
    | split

theorem State.mbxInterrupt_touches {M : Nat} {s0 : State} (s : State) (r : Nat) (hM : Sub 144115188092633088 M) (hT :
  Touches M s0 s) : Touches M s0 (State.mbxInterrupt s r) := by
  unfold State.mbxInterrupt
  try dsimp only
  repeat' first
    | with_reducible assumption
    | (with_reducible refine Sub.trans ?_ hM) <;> exact Sub.lit rfl
    | with_reducible apply State.setOut_touches
    | with_reducible apply State.sendMsix_touches
    | (with_reducible intro _; try dsimp only)
    | split

theorem State.mbxRise_touches {M : Nat} {s0 : State} (s : State) (r b : Nat) (hM : Sub 148618787720003588 M) (hT : Touches
  M s0 s) : Touches M s0 (State.mbxRise s r b) := by
  unfold State.mbxRise
  try dsimp only
  repeat' first
    | with_reducible assumption
    | (with_reducible refine Sub.trans ?_ hM) <;> exact Sub.lit rfl
    | with_reducible apply State.setReg_touches
    | with_reducible apply State.mbxInterrupt_touches
    | with_reducible apply State.setReferee_touches
    | (with_reducible intro _; try dsimp only)
    | split

theorem State.mbxAcknowledge_touches {M : Nat} {s0 : State} (s : State) (c code : Nat) (hM : Sub 148618787720003588 M) (hT
  : Touches M s0 s) : Touches M s0 (State.mbxAcknowledge s c code) := by
  unfold State.mbxAcknowledge
  try dsimp only
  repeat' first
    | with_reducible assumption
    | (with_reducible refine Sub.trans ?_ hM) <;> exact Sub.lit rfl
    | with_reducible apply State.mbxFall_touches
    | with_reducible apply State.setReg_touches
    | with_reducible apply State.mbxRise_touches
    | with_reducible apply State.wr_touches
    | (with_reducible intro _; try dsimp only)
    | split

theorem State.mbxReceiverReset_touches {M : Nat} {s0 : State} (s : State) (c : Nat) (hM : Sub 148618787753558020 M) (hT :
  Touches M s0 s) : Touches M s0 (State.mbxReceiverReset s c) := by
  unfold State.mbxReceiverReset
  try dsimp only
  repeat' first
    | with_reducible assumption
    | (with_reducible refine Sub.trans ?_ hM) <;> exact Sub.lit rfl
    | with_reducible apply State.mbxAcknowledge_touches
    | with_reducible apply State.mbxAborted_touches
    | with_reducible apply State.mbxClear_touches
    | (with_reducible intro _; try dsimp only)
    | split

theorem State.mbxReset_touches {M : Nat} {s0 : State} (s : State) (r : Nat) (hM : Sub 148618787753558020 M) (hT : Touches M
  s0 s) : Touches M s0 (State.mbxReset s r) := by
  unfold State.mbxReset
  try dsimp only
  repeat' first
    | with_reducible assumption
    | (with_reducible refine Sub.trans ?_ hM) <;> exact Sub.lit rfl
    | with_reducible apply State.mbxSenderReset_touches
    | with_reducible apply State.mbxReceiverReset_touches
    | with_reducible apply Touches.foldl
    | with_reducible apply Touches1.foldl
    | with_reducible apply Touches1.fst
    | (with_reducible intro _; try dsimp only)
    | split
    | with_reducible apply Touches1.mk

theorem State.orphan_touches {M : Nat} {s0 : State} (s : State) (o : Nat) (hM : Sub 576460752555148076 M) (hT : Touches M
  s0 s) : Touches M s0 (State.orphan s o) := by
  exact State.letAllGo_touches _ _ _ _ (Sub.trans (Sub.lit rfl) hM)
    (State.setObj_touches _ _ _ (fun _ _ => rfl) (Sub.trans (Sub.lit rfl) hM) hT)

theorem State.orphanOwned_touches {M : Nat} {s0 : State} (s : State) (owner : Nat) (hM : Sub 576460752555148076 M) (hT :
  Touches M s0 s) : Touches M s0 (State.orphanOwned s owner) := by
  unfold State.orphanOwned
  try dsimp only
  repeat' first
    | with_reducible assumption
    | (with_reducible refine Sub.trans ?_ hM) <;> exact Sub.lit rfl
    | with_reducible apply State.orphan_touches
    | with_reducible apply Touches.foldl
    | with_reducible apply Touches1.foldl
    | with_reducible apply Touches1.fst
    | (with_reducible intro _; try dsimp only)
    | split
    | with_reducible apply Touches1.mk

theorem State.resetHart_touches {M : Nat} {s0 : State} (s : State) (h : Nat) (hM : Sub 797137134296302380 M) (hT : Touches
  M s0 s) : Touches M s0 (State.resetHart s h) := by
  unfold State.resetHart
  try dsimp only
  repeat' first
    | with_reducible assumption
    | (with_reducible refine Sub.trans ?_ hM) <;> exact Sub.lit rfl
    | with_reducible apply State.setHartCsr_touches
    | with_reducible apply State.mbxReset_touches
    | with_reducible apply State.orphanOwned_touches
    | (with_reducible intro _; try dsimp only)
    | split

theorem State.dmControl_touches {M : Nat} {s0 : State} (s : State) (v : Nat) (hM : Sub 798263034203145004 M) (hT : Touches
  M s0 s) : Touches M s0 (State.dmControl s v) := by
  unfold State.dmControl
  try dsimp only
  repeat' first
    | with_reducible assumption
    | (with_reducible refine Sub.trans ?_ hM) <;> exact Sub.lit rfl
    | with_reducible apply State.resetHart_touches
    | with_reducible apply State.setDm_touches
    | with_reducible apply Touches.foldl
    | with_reducible apply Touches1.foldl
    | with_reducible apply Touches1.fst
    | (with_reducible intro _; try dsimp only)
    | split
    | with_reducible apply Touches1.mk

theorem State.dmiWrite_touches {M : Nat} {s0 : State} (s : State) (addr v result value : Nat) (hM : Sub 798263034203145004
  M) (hT : Touches M s0 s) : Touches M s0 (State.dmiWrite s addr v result value) := by
  unfold State.dmiWrite
  try dsimp only
  repeat' first
    | with_reducible assumption
    | (with_reducible refine Sub.trans ?_ hM) <;> exact Sub.lit rfl
    | with_reducible apply State.dmAccess_touches
    | with_reducible apply State.setDm_touches
    | with_reducible apply State.dmControl_touches
    | (with_reducible intro _; try dsimp only)
    | split

theorem execDmiOperation_touches {M : Nat} {s0 : State} (pf : Bool) (value op data : Nat) (s : State) (hM : Sub
  798263034203145004 M) (hT : Touches M s0 s) : TouchesO M s0 (execDmiOperation pf value op data s) := by
  unfold execDmiOperation
  try dsimp only
  repeat' first
    | with_reducible assumption
    | (with_reducible refine Sub.trans ?_ hM) <;> exact Sub.lit rfl
    | with_reducible apply State.setReg_touches
    | with_reducible apply State.wr_touches
    | with_reducible apply State.dmiRead_touches
    | with_reducible apply State.dmiWrite_touches
    | with_reducible apply State.barAnswer_touches
    | with_reducible apply State.count_touches
    | with_reducible apply Touches1.fst
    | with_reducible apply TouchesO.next
    | (with_reducible intro _; try dsimp only)
    | split
    | with_reducible apply Touches1.mk

theorem execTracePoolWrite_touches {M : Nat} {s0 : State} (d value : Nat) (s : State) (hM : Sub 50331652 M) (hT : Touches M
  s0 s) : TouchesO M s0 (execTracePoolWrite d value s) := by
  unfold execTracePoolWrite
  try dsimp only
  repeat' first
    | with_reducible assumption
    | (with_reducible refine Sub.trans ?_ hM) <;> exact Sub.lit rfl
    | with_reducible apply State.setReg_touches
    | with_reducible apply State.barAnswer_touches
    | with_reducible apply State.debugInvalid_touches
    | with_reducible apply State.count_touches
    | with_reducible apply TouchesO.next
    | (with_reducible intro _; try dsimp only)
    | split
    | with_reducible apply Touches1.mk

theorem State.setTraceBufs_touches {M : Nat} {s0 : State} (s : State) (x : List (Nat × TraceBuf)) (hM : Sub 281474976710656
  M) (hT : Touches M s0 s) : Touches M s0 (State.setTraceBufs s x) := by
  unfold State.setTraceBufs
  try dsimp only
  repeat' first
    | with_reducible assumption
    | (with_reducible refine Sub.trans ?_ hM) <;> exact Sub.lit rfl
    | with_reducible apply Touches.set_traceBufs
    | (with_reducible intro _; try dsimp only)
    | split

theorem State.setTraceBuf_touches {M : Nat} {s0 : State} (s : State) (p d : Nat) (x : TraceBuf) (hM : Sub 281474976710656
  M) (hT : Touches M s0 s) : Touches M s0 (State.setTraceBuf s p d x) := by
  unfold State.setTraceBuf
  try dsimp only
  repeat' first
    | with_reducible assumption
    | (with_reducible refine Sub.trans ?_ hM) <;> exact Sub.lit rfl
    | with_reducible apply State.setTraceBufs_touches
    | (with_reducible intro _; try dsimp only)
    | split

theorem State.bufferPut_touches {M : Nat} {s0 : State} (s : State) (p d : Nat) (f : Nat → Nat) (hM : Sub 281475211591724 M)
  (hT : Touches M s0 s) : Touches M s0 (State.bufferPut s p d f) := by
  unfold State.bufferPut
  try dsimp only
  repeat' first
    | with_reducible assumption
    | (with_reducible refine Sub.trans ?_ hM) <;> exact Sub.lit rfl
    | with_reducible apply State.storeNat_touches
    | with_reducible apply State.wr_touches
    | with_reducible apply State.setTraceBuf_touches
    | with_reducible apply State.count_touches
    | (with_reducible intro _; try dsimp only)
    | split

theorem State.traceTrigger_touches {M : Nat} {s0 : State} (s : State) (p source code : Nat) (hM : Sub 281475211591724 M)
  (hT : Touches M s0 s) : Touches M s0 (State.traceTrigger s p source code) := by
  unfold State.traceTrigger
  try dsimp only
  repeat' first
    | with_reducible assumption
    | (with_reducible refine Sub.trans ?_ hM) <;> exact Sub.lit rfl
    | with_reducible apply State.bufferPut_touches
    | with_reducible apply State.wr_touches
    | with_reducible apply State.raise_touches
    | with_reducible apply State.setTraceBuf_touches
    | with_reducible apply Touches.foldl
    | with_reducible apply Touches1.foldl
    | with_reducible apply Touches1.fst
    | (with_reducible intro _; try dsimp only)
    | split
    | with_reducible apply Touches1.mk

theorem State.startBuffers_touches {M : Nat} {s0 : State} (s : State) (p : Nat) (hM : Sub 281474976710660 M) (hT : Touches
  M s0 s) : Touches M s0 (State.startBuffers s p) := by
  unfold State.startBuffers
  try dsimp only
  repeat' first
    | with_reducible assumption
    | (with_reducible refine Sub.trans ?_ hM) <;> exact Sub.lit rfl
    | with_reducible apply State.setReg_touches
    | with_reducible apply State.wr_touches
    | with_reducible apply State.setTraceBuf_touches
    | with_reducible apply Touches.foldl
    | with_reducible apply Touches1.foldl
    | with_reducible apply Touches1.fst
    | (with_reducible intro _; try dsimp only)
    | split
    | with_reducible apply Touches1.mk

theorem State.traceFields_touches {M : Nat} {s0 : State} (s : State) (p v : Nat) (hM : Sub 33554436 M) (hT : Touches M s0
  s) : Touches1 M s0 (State.traceFields s p v) := by
  unfold State.traceFields
  try dsimp only
  repeat' first
    | with_reducible assumption
    | (with_reducible refine Sub.trans ?_ hM) <;> exact Sub.lit rfl
    | with_reducible apply State.count_touches
    | with_reducible apply Touches1.fst
    | (with_reducible intro _; try dsimp only)
    | split
    | with_reducible apply Touches1.mk

theorem execTraceEnable_touches {M : Nat} {s0 : State} (p value : Nat) (s : State) (hM : Sub 281475027042308 M) (hT :
  Touches M s0 s) : TouchesO M s0 (execTraceEnable p value s) := by
  unfold execTraceEnable
  try dsimp only
  repeat' first
    | with_reducible assumption
    | (with_reducible refine Sub.trans ?_ hM) <;> exact Sub.lit rfl
    | with_reducible apply State.setReg_touches
    | with_reducible apply State.wr_touches
    | with_reducible apply State.startBuffers_touches
    | with_reducible apply State.barAnswer_touches
    | with_reducible apply State.debugInvalid_touches
    | with_reducible apply State.traceFields_touches
    | with_reducible apply Touches1.fst
    | with_reducible apply TouchesO.next
    | (with_reducible intro _; try dsimp only)
    | split
    | with_reducible apply Touches1.mk

theorem State.setTraceTurn_touches {M : Nat} {s0 : State} (s : State) (x : List (Nat × Nat)) (hM : Sub 562949953421312 M)
  (hT : Touches M s0 s) : Touches M s0 (State.setTraceTurn s x) := by
  unfold State.setTraceTurn
  try dsimp only
  repeat' first
    | with_reducible assumption
    | (with_reducible refine Sub.trans ?_ hM) <;> exact Sub.lit rfl
    | with_reducible apply Touches.set_traceTurn
    | (with_reducible intro _; try dsimp only)
    | split

theorem State.collectFrom_touches {M : Nat} {s0 : State} (s : State) (d c : Nat) (hM : Sub 844425165013292 M) (hT : Touches
  M s0 s) : Touches M s0 (State.collectFrom s d c) := by
  unfold State.collectFrom
  try dsimp only
  repeat' first
    | with_reducible assumption
    | (with_reducible refine Sub.trans ?_ hM) <;> exact Sub.lit rfl
    | with_reducible apply State.bufferPut_touches
    | with_reducible apply State.modCore_touches
    | with_reducible apply State.setTraceTurn_touches
    | (with_reducible intro _; try dsimp only)
    | split

theorem State.drainCore_touches {M : Nat} {s0 : State} (s : State) (c : Nat) (y0 : Nat) (hM : Sub 844425165013292 M) (hT :
  Touches M s0 s) : Touches M s0 (State.drainCore s c y0) := by
  induction y0 generalizing s with
  | zero =>
    unfold State.drainCore
    try dsimp only
    repeat' first
      | with_reducible assumption
      | (with_reducible refine Sub.trans ?_ hM) <;> exact Sub.lit rfl
      | with_reducible apply State.collectFrom_touches
      | with_reducible apply ih
      | (with_reducible intro _; try dsimp only)
      | split
  | succ n ih =>
    unfold State.drainCore
    try dsimp only
    repeat' first
      | with_reducible assumption
      | (with_reducible refine Sub.trans ?_ hM) <;> exact Sub.lit rfl
      | with_reducible apply State.collectFrom_touches
      | with_reducible apply ih
      | (with_reducible intro _; try dsimp only)
      | split

theorem State.drainTrace_touches {M : Nat} {s0 : State} (s : State) (p : Nat) (hM : Sub 844425165013292 M) (hT : Touches M
  s0 s) : Touches M s0 (State.drainTrace s p) := by
  unfold State.drainTrace
  try dsimp only
  repeat' first
    | with_reducible assumption
    | (with_reducible refine Sub.trans ?_ hM) <;> exact Sub.lit rfl
    | with_reducible apply State.drainCore_touches
    | with_reducible apply Touches.foldl
    | with_reducible apply Touches1.foldl
    | with_reducible apply Touches1.fst
    | (with_reducible intro _; try dsimp only)
    | split
    | with_reducible apply Touches1.mk

theorem execTraceDisable_touches {M : Nat} {s0 : State} (p value : Nat) (s : State) (hM : Sub 844425181790508 M) (hT :
  Touches M s0 s) : TouchesO M s0 (execTraceDisable p value s) := by
  unfold execTraceDisable
  try dsimp only
  repeat' first
    | with_reducible assumption
    | (with_reducible refine Sub.trans ?_ hM) <;> exact Sub.lit rfl
    | with_reducible apply State.setReg_touches
    | with_reducible apply State.drainTrace_touches
    | with_reducible apply State.wr_touches
    | with_reducible apply State.barAnswer_touches
    | with_reducible apply State.traceFields_touches
    | with_reducible apply Touches1.fst
    | with_reducible apply TouchesO.next
    | with_reducible apply Touches.foldl
    | with_reducible apply Touches1.foldl
    | with_reducible apply Touches1.fst
    | (with_reducible intro _; try dsimp only)
    | split
    | with_reducible apply Touches1.mk

theorem State.writeTraceCtrl_touches {M : Nat} {s0 : State} (s : State) (x : Wr) (p : Nat) (hM : Sub 844425181790508 M) (hT
  : Touches M s0 s) : Touches M s0 (State.writeTraceCtrl s x p) := by
  unfold State.writeTraceCtrl
  try dsimp only
  repeat' first
    | with_reducible assumption
    | (with_reducible refine Sub.trans ?_ hM) <;> exact Sub.lit rfl
    | with_reducible apply State.setReg_touches
    | with_reducible apply execTraceEnable_touches
    | with_reducible apply execTraceDisable_touches
    | with_reducible apply State.traceFields_touches
    | with_reducible apply State.after_touches
    | with_reducible apply Touches1.fst
    | (with_reducible intro _; try dsimp only)
    | split
    | with_reducible apply Touches1.mk

theorem State.writeTrc_touches {M : Nat} {s0 : State} (s : State) (x : Wr) (hM : Sub 817121858179629868 M) (hT : Touches M
  s0 s) : Touches M s0 (State.writeTrc s x) := by
  unfold State.writeTrc
  try dsimp only
  repeat' first
    | with_reducible assumption
    | (with_reducible refine Sub.trans ?_ hM) <;> exact Sub.lit rfl
    | with_reducible apply State.writeWatch_touches
    | with_reducible apply State.fresh_touches
    | with_reducible apply State.plainWrite_touches
    | with_reducible apply execDmiOperation_touches
    | with_reducible apply execTracePoolWrite_touches
    | with_reducible apply State.traceTrigger_touches
    | with_reducible apply State.writeTraceCtrl_touches
    | with_reducible apply State.after_touches
    | with_reducible apply Touches2.snd
    | (with_reducible intro _; try dsimp only)
    | split

theorem State.settleSource_touches {M : Nat} {s0 : State} (s : State) (src o : Nat) (hM : Sub 576460752555150124 M) (hT :
  Touches M s0 s) : Touches M s0 (State.settleSource s src o) := by
  unfold State.settleSource
  try dsimp only
  repeat' first
    | with_reducible assumption
    | (with_reducible refine Sub.trans ?_ hM) <;> exact Sub.lit rfl
    | with_reducible apply State.applySignal_touches
    | with_reducible apply State.setSignals_touches
    | with_reducible apply Touches.foldl
    | with_reducible apply Touches1.foldl
    | with_reducible apply Touches1.fst
    | (with_reducible intro _; try dsimp only)
    | split
    | with_reducible apply Touches1.mk

theorem State.settleAll_touches {M : Nat} {s0 : State} (s : State) (src : Nat) (hM : Sub 576460752555150124 M) (hT :
  Touches M s0 s) : Touches M s0 (State.settleAll s src) := by
  unfold State.settleAll
  try dsimp only
  repeat' first
    | with_reducible assumption
    | (with_reducible refine Sub.trans ?_ hM) <;> exact Sub.lit rfl
    | with_reducible apply State.settleSource_touches
    | with_reducible apply Touches.foldl
    | with_reducible apply Touches1.foldl
    | with_reducible apply Touches1.fst
    | (with_reducible intro _; try dsimp only)
    | split
    | with_reducible apply Touches1.mk

theorem State.hartCancel_touches {M : Nat} {s0 : State} (s : State) (h cookie : Nat) (hM : Sub 576460752555150124 M) (hT :
  Touches M s0 s) : Touches M s0 (State.hartCancel s h cookie) := by
  unfold State.hartCancel
  dsimp only
  split
  · exact State.settleAll_touches _ _ (Sub.trans (Sub.lit rfl) hM) hT
  · rename_i x hx
    refine State.letGo_touches _ _ _ _ (Sub.trans (Sub.lit rfl) hM) ?_
    refine State.setObj_touches _ _ _ (fun hr hc => ?_) (Sub.trans (Sub.lit rfl) hM) (State.settleAll_touches _ _ (Sub.trans (Sub.lit rfl) hM) hT)
    have h : ((s.settleAll (unitHart h)).obj x.1).waiters = [] := hr x.1 hc
    rw [h]
    rfl

theorem State.hartSignal_touches {M : Nat} {s0 : State} (s : State) (h chip object kind : Nat) (hM : Sub 4328523776 M) (hT
  : Touches M s0 s) : Touches M s0 (State.hartSignal s h chip object kind) := by
  unfold State.hartSignal
  try dsimp only
  repeat' first
    | with_reducible assumption
    | (with_reducible refine Sub.trans ?_ hM) <;> exact Sub.lit rfl
    | with_reducible apply State.performSignal_touches
    | (with_reducible intro _; try dsimp only)
    | split

theorem State.hartReject_touches {M : Nat} {s0 : State} (s : State) (h : Nat) (hM : Sub 4 M) (hT : Touches M s0 s) :
  Touches M s0 (State.hartReject s h) := by
  unfold State.hartReject
  try dsimp only
  repeat' first
    | with_reducible assumption
    | (with_reducible refine Sub.trans ?_ hM) <;> exact Sub.lit rfl
    | with_reducible apply State.wr_touches
    | (with_reducible intro _; try dsimp only)
    | split

theorem State.notePeak_touches {M : Nat} {s0 : State} (s : State) (hM : Sub 4 M) (hT : Touches M s0 s) : Touches M s0
  (State.notePeak s) := by
  unfold State.notePeak
  try dsimp only
  repeat' first
    | with_reducible assumption
    | (with_reducible refine Sub.trans ?_ hM) <;> exact Sub.lit rfl
    | with_reducible apply State.wr_touches
    | (with_reducible intro _; try dsimp only)
    | split

theorem State.setWaitOrder_touches {M : Nat} {s0 : State} (s : State) (x : Nat) (hM : Sub 1024 M) (hT : Touches M s0 s) :
  Touches M s0 (State.setWaitOrder s x) := by
  unfold State.setWaitOrder
  try dsimp only
  repeat' first
    | with_reducible assumption
    | (with_reducible refine Sub.trans ?_ hM) <;> exact Sub.lit rfl
    | with_reducible apply Touches.set_waitOrder
    | (with_reducible intro _; try dsimp only)
    | split

theorem State.waitOn_touches {M : Nat} {s0 : State} (s : State) (a : WaitAgent) (q o : Nat) (deadline : Option Nat) (hM :
  Sub 576460752555149100 M) (hT : Touches M s0 s) : Touches M s0 (State.waitOn s a q o deadline) := by
  unfold State.waitOn
  dsimp only
  split
  · exact State.letGo_touches _ _ _ _ (Sub.trans (Sub.lit rfl) hM) hT
  split
  · exact State.letGo_touches _ _ _ _ (Sub.trans (Sub.lit rfl) hM) hT
  split
  · exact State.letGo_touches _ _ _ _ (Sub.trans (Sub.lit rfl) hM) hT
  split
  · rename_i hc
    refine State.letGo_touches _ _ _ _ (Sub.trans (Sub.lit rfl) hM) (State.count_touches _ _ _ (Sub.trans (Sub.lit rfl) hM) ?_)
    exact State.setObj_touches _ _ _ (fun hr _ => hr _ hc) (Sub.trans (Sub.lit rfl) hM) hT
  · rename_i hc
    refine State.notePeak_touches _ (Sub.trans (Sub.lit rfl) hM) (State.count_touches _ _ _ (Sub.trans (Sub.lit rfl) hM) ?_)
    refine State.setObj_touches _ _ _ (fun _ h => absurd h hc) (Sub.trans (Sub.lit rfl) hM) ?_
    exact State.setWaitOrder_touches _ _ (Sub.trans (Sub.lit rfl) hM) hT

theorem State.waitFrom_touches {M : Nat} {s0 : State} (s : State) (a : WaitAgent) (q o : Nat) (deadline : Option Nat) (hM :
  Sub 576460752555151148 M) (hT : Touches M s0 s) : Touches M s0 (State.waitFrom s a q o deadline) := by
  unfold State.waitFrom
  try dsimp only
  repeat' first
    | with_reducible assumption
    | (with_reducible refine Sub.trans ?_ hM) <;> exact Sub.lit rfl
    | with_reducible apply State.waitOn_touches
    | with_reducible apply State.settleSource_touches
    | (with_reducible intro _; try dsimp only)
    | split

theorem State.hartWait_touches {M : Nat} {s0 : State} (s : State) (h object timeout cookie : Nat) (hM : Sub
  576460752555151148 M) (hT : Touches M s0 s) : Touches M s0 (State.hartWait s h object timeout cookie) := by
  unfold State.hartWait
  try dsimp only
  repeat' first
    | with_reducible assumption
    | (with_reducible refine Sub.trans ?_ hM) <;> exact Sub.lit rfl
    | with_reducible apply State.wr_touches
    | with_reducible apply State.hartReject_touches
    | with_reducible apply State.waitFrom_touches
    | (with_reducible intro _; try dsimp only)
    | split

theorem State.removeWaiters_touches {M : Nat} {s0 : State} (s : State) (o : Nat) (hM : Sub 576460752555148076 M) (hT :
  Touches M s0 s) : Touches M s0 (State.removeWaiters s o) := by
  exact State.letAllGo_touches _ _ _ _ (Sub.trans (Sub.lit rfl) hM)
    (State.setObj_touches _ _ _ (fun _ _ => rfl) (Sub.trans (Sub.lit rfl) hM) hT)

theorem State.freeObj_touches {M : Nat} {s0 : State} (s : State) (o : Nat) (hM : Sub 576460752555148076 M) (hT : Touches M
  s0 s) : Touches M s0 (State.freeObj s o) := by
  refine State.wr_touches _ _ _ (Sub.trans (Sub.lit rfl) hM) ?_
  exact State.setObj_touches _ _ _ (fun _ _ => rfl) (Sub.trans (Sub.lit rfl) hM)
    (State.removeWaiters_touches _ _ (Sub.trans (Sub.lit rfl) hM) hT)

theorem State.imbalance_touches {M : Nat} {s0 : State} (s : State) (p o waiters : Nat) (hM : Sub 33554432 M) (hT : Touches
  M s0 s) : Touches M s0 (State.imbalance s p o waiters) := by
  unfold State.imbalance
  try dsimp only
  repeat' first
    | with_reducible assumption
    | (with_reducible refine Sub.trans ?_ hM) <;> exact Sub.lit rfl
    | with_reducible apply State.raise_touches
    | (with_reducible intro _; try dsimp only)
    | split

theorem State.balanceReport_touches {M : Nat} {s0 : State} (s : State) (p : Nat) (hM : Sub 33554436 M) (hT : Touches M s0
  s) : Touches M s0 (State.balanceReport s p) := by
  unfold State.balanceReport
  try dsimp only
  repeat' first
    | with_reducible assumption
    | (with_reducible refine Sub.trans ?_ hM) <;> exact Sub.lit rfl
    | with_reducible apply State.imbalance_touches
    | with_reducible apply State.wr_touches
    | with_reducible apply Touches.foldl
    | with_reducible apply Touches1.foldl
    | with_reducible apply Touches1.fst
    | (with_reducible intro _; try dsimp only)
    | split
    | with_reducible apply Touches1.mk

theorem State.letGo_obj (s : State) (o : Nat) (a : WaitAgent) (r : Option Code) (p : Nat) : (s.letGo o a r).obj p = s.obj p := by
  have h : (s.letGo o a r).sync = s.sync := (State.letGo_touches s o a r (Sub.refl _) (Touches.refl s)).1 .sync rfl
  unfold State.obj
  rw [h]

/-- Once enough waiters have taken their counts, the object is in order; the others stay as they were. -/
theorem State.drainCount_rule (s : State) (o n : Nat) (h : ∀ p, p ≠ o → 0 < (s.obj p).count → (s.obj p).waiters = [])
    (hn : (s.obj o).waiters.length ≤ n) : (s.drainCount o n).syncRule := by
  induction n generalizing s with
  | zero =>
    intro p hc
    by_cases e : p = o
    · subst e
      exact List.length_eq_zero_iff.1 (Nat.le_zero.1 hn)
    · exact h p e hc
  | succ n ih =>
    unfold State.drainCount
    dsimp only
    split
    · rename_i hw
      intro p hc
      by_cases e : p = o
      · subst e
        exact hw
      · exact h p e hc
    · rename_i w t hw
      split
      · rename_i h0
        intro p hc
        by_cases e : p = o
        · subst e
          omega
        · exact h p e hc
      · refine ih _ (fun p e hc => ?_) ?_
        · rw [State.letGo_obj, State.obj_setObj, if_neg (Ne.symm e)] at hc ⊢
          exact h p e hc
        · rw [State.letGo_obj, State.obj_setObj, if_pos rfl]
          rw [hw] at hn
          exact Nat.le_of_succ_le_succ hn

/-- The fields and the canonical form, whatever the object's rule. -/
theorem State.drainCount_fields {K : Nat} (s : State) (o n : Nat) (hK : Sub 576460752555148076 K) :
    (∀ f : Field, K.testBit f.pos = false → f.same s (s.drainCount o n)) ∧ (s.canonical = true → (s.drainCount o n).canonical = true) := by
  induction n generalizing s with
  | zero => exact ⟨fun f _ => f.same_refl s, id⟩
  | succ n ih =>
    unfold State.drainCount
    dsimp only
    split
    · exact ⟨fun f _ => f.same_refl s, id⟩
    · split
      · exact ⟨fun f _ => f.same_refl s, id⟩
      · rename_i w t hw h0
        have hl := State.letGo_touches (M := K) (s.setObj o { s.obj o with count := (s.obj o).count - 1, waiters := t }) o w.agent none
          (Sub.trans (Sub.lit rfl) hK) (Touches.refl _)
        have hi := ih ((s.setObj o { s.obj o with count := (s.obj o).count - 1, waiters := t }).letGo o w.agent none)
        refine ⟨fun f hf => ?_, fun hc => hi.2 (hl.2.1 hc)⟩
        refine Field.same_trans (Field.same_trans ?_ (hl.1 f hf)) (hi.1 f hf)
        have h512 : Sub 512 K := Sub.trans (Sub.lit rfl) hK
        have hf' := h512.testBit hf
        revert hf'
        cases f <;> first | exact fun _ => rfl | exact fun h => absurd h (by decide)

/-- SET_COUNT and INIT: a count is written, then the waiters take theirs. -/
theorem State.drainCount_touches {M : Nat} {s0 : State} (s : State) (o n : Nat) (x : SyncObj) (hn : x.waiters.length ≤ n)
    (hM : Sub 576460752555148076 M) (hT : Touches M s0 s) : Touches M s0 ((s.setObj o x).drainCount o n) := by
  have hd := State.drainCount_fields (K := M) (s.setObj o x) o n hM
  refine hT.trans ⟨fun f hf => Field.same_trans ?_ (hd.1 f hf), hd.2, fun hr => State.drainCount_rule _ o n (fun p e hc => ?_) ?_⟩
  · have h512 : Sub 512 M := Sub.trans (Sub.lit rfl) hM
    have hf' := h512.testBit hf
    revert hf'
    cases f <;> first | exact fun _ => rfl | exact fun h => absurd h (by decide)
  · rw [State.obj_setObj, if_neg (Ne.symm e)] at hc ⊢
    exact hr p hc
  · rw [State.obj_setObj, if_pos rfl]
    exact hn

theorem State.manEffect_touches {M : Nat} {s0 : State} (s : State) (op o : Nat) (hM : Sub 576460752555148076 M) (hT :
  Touches M s0 s) : Touches M s0 (State.manEffect s op o) := by
  unfold State.manEffect
  dsimp only
  split
  · refine State.wr_touches _ _ _ (Sub.trans (Sub.lit rfl) hM) ?_
    exact State.drainCount_touches _ _ _ _ (Nat.le_refl _) (Sub.trans (Sub.lit rfl) hM) hT
  · exact State.drainCount_touches _ _ _ _ (Nat.le_refl _) (Sub.trans (Sub.lit rfl) hM) hT
  · split
    · exact State.orphan_touches _ _ (Sub.trans (Sub.lit rfl) hM) hT
    · exact State.setObj_touches _ _ _ (fun hr hc => hr _ hc) (Sub.trans (Sub.lit rfl) hM) hT
  · exact State.balanceReport_touches _ _ (Sub.trans (Sub.lit rfl) hM) hT
  · refine State.freeObj_touches _ _ (Sub.trans (Sub.lit rfl) hM) ?_
    split
    · exact State.imbalance_touches _ _ _ _ (Sub.trans (Sub.lit rfl) hM) hT
    · exact hT

theorem State.manual_touches {M : Nat} {s0 : State} (s : State) (pf : Bool) (op object : Nat) (hM : Sub 576460752555148076
  M) (hT : Touches M s0 s) : Touches M s0 (State.manual s pf op object) := by
  unfold State.manual
  try dsimp only
  repeat' first
    | with_reducible assumption
    | (with_reducible refine Sub.trans ?_ hM) <;> exact Sub.lit rfl
    | with_reducible apply State.manEffect_touches
    | with_reducible apply State.wr_touches
    | with_reducible apply State.raise_touches
    | with_reducible apply State.count_touches
    | (with_reducible intro _; try dsimp only)
    | split

theorem State.writeSyn_touches {M : Nat} {s0 : State} (s : State) (x : Wr) (hM : Sub 576460756850118444 M) (hT : Touches M
  s0 s) : Touches M s0 (State.writeSyn s x) := by
  unfold State.writeSyn
  try dsimp only
  repeat' first
    | with_reducible assumption
    | (with_reducible refine Sub.trans ?_ hM) <;> exact Sub.lit rfl
    | with_reducible apply State.setHartFull_touches
    | with_reducible apply State.hartCancel_touches
    | with_reducible apply State.hartSignal_touches
    | with_reducible apply State.hartWait_touches
    | with_reducible apply State.plainWrite_touches
    | with_reducible apply State.hartReject_touches
    | with_reducible apply State.manual_touches
    | (with_reducible intro _; try dsimp only)
    | split

theorem State.unpauseChan_touches {M : Nat} {s0 : State} (s : State) (key : Nat) (hM : Sub 549755813892 M) (hT : Touches M
  s0 s) : Touches M s0 (State.unpauseChan s key) := by
  unfold State.unpauseChan
  try dsimp only
  repeat' first
    | with_reducible assumption
    | (with_reducible refine Sub.trans ?_ hM) <;> exact Sub.lit rfl
    | with_reducible apply State.modChan_touches
    | with_reducible apply State.setChanState_touches
    | (with_reducible intro _; try dsimp only)
    | split

theorem State.resumeChan_touches {M : Nat} {s0 : State} (s : State) (key : Nat) (hM : Sub 549755813892 M) (hT : Touches M
  s0 s) : Touches M s0 (State.resumeChan s key) := by
  unfold State.resumeChan
  try dsimp only
  repeat' first
    | with_reducible assumption
    | (with_reducible refine Sub.trans ?_ hM) <;> exact Sub.lit rfl
    | with_reducible apply State.modChan_touches
    | with_reducible apply State.unpauseChan_touches
    | with_reducible apply State.wr_touches
    | (with_reducible intro _; try dsimp only)
    | split

theorem State.setPositions_touches {M : Nat} {s0 : State} (s : State) (key : Nat) (hM : Sub 4 M) (hT : Touches M s0 s) :
  Touches M s0 (State.setPositions s key) := by
  unfold State.setPositions
  try dsimp only
  repeat' first
    | with_reducible assumption
    | (with_reducible refine Sub.trans ?_ hM) <;> exact Sub.lit rfl
    | with_reducible apply State.setReg_touches
    | (with_reducible intro _; try dsimp only)
    | split

theorem State.pauseChan_touches {M : Nat} {s0 : State} (s : State) (key : Nat) (hM : Sub 549755813892 M) (hT : Touches M s0
  s) : Touches M s0 (State.pauseChan s key) := by
  unfold State.pauseChan
  try dsimp only
  repeat' first
    | with_reducible assumption
    | (with_reducible refine Sub.trans ?_ hM) <;> exact Sub.lit rfl
    | with_reducible apply State.setPositions_touches
    | with_reducible apply State.modChan_touches
    | with_reducible apply State.setChanState_touches
    | with_reducible apply State.wr_touches
    | (with_reducible intro _; try dsimp only)
    | split

theorem execDmaAbort_touches {M : Nat} {s0 : State} (channel : Nat) (s : State) (hM : Sub 618525688580 M) (hT : Touches M
  s0 s) : TouchesO M s0 (execDmaAbort channel s) := by
  unfold execDmaAbort
  try dsimp only
  repeat' first
    | with_reducible assumption
    | (with_reducible refine Sub.trans ?_ hM) <;> exact Sub.lit rfl
    | with_reducible apply State.dropWaiter_touches
    | with_reducible apply State.setHeads_touches
    | with_reducible apply State.failXfer_touches
    | with_reducible apply State.raise_touches
    | with_reducible apply State.barAnswer_touches
    | with_reducible apply State.count_touches
    | with_reducible apply TouchesO.next
    | (with_reducible intro _; try dsimp only)
    | split
    | with_reducible apply Touches1.mk

theorem execDmaRestart_touches {M : Nat} {s0 : State} (channel : Nat) (s : State) (hM : Sub 50331652 M) (hT : Touches M s0
  s) : TouchesO M s0 (execDmaRestart channel s) := by
  unfold execDmaRestart
  try dsimp only
  repeat' first
    | with_reducible assumption
    | (with_reducible refine Sub.trans ?_ hM) <;> exact Sub.lit rfl
    | with_reducible apply State.setChanState_touches
    | with_reducible apply State.barAnswer_touches
    | with_reducible apply TouchesO.next
    | (with_reducible intro _; try dsimp only)
    | split
    | with_reducible apply Touches1.mk

theorem State.writeChanCtrl_touches {M : Nat} {s0 : State} (s : State) (x : Wr) (key : Nat) (hM : Sub 618525688580 M) (hT :
  Touches M s0 s) : Touches M s0 (State.writeChanCtrl s x key) := by
  unfold State.writeChanCtrl
  try dsimp only
  repeat' first
    | with_reducible assumption
    | (with_reducible refine Sub.trans ?_ hM) <;> exact Sub.lit rfl
    | with_reducible apply State.resumeChan_touches
    | with_reducible apply State.pauseChan_touches
    | with_reducible apply execDmaAbort_touches
    | with_reducible apply State.wr_touches
    | with_reducible apply State.plainWrite_touches
    | with_reducible apply State.after_touches
    | with_reducible apply State.count_touches
    | with_reducible apply execDmaRestart_touches
    | (with_reducible intro _; try dsimp only)
    | split

theorem State.nextSegment_touches {M : Nat} {s0 : State} (s : State) (c : Nat) (hM : Sub 33554692 M) (hT : Touches M s0 s)
  : Touches M s0 (State.nextSegment s c) := by
  unfold State.nextSegment
  try dsimp only
  repeat' first
    | with_reducible assumption
    | (with_reducible refine Sub.trans ?_ hM) <;> exact Sub.lit rfl
    | with_reducible apply State.modCore_touches
    | with_reducible apply State.refuseCommand_touches
    | with_reducible apply State.testHalt_touches
    | (with_reducible intro _; try dsimp only)
    | split

theorem State.resumeCore_touches {M : Nat} {s0 : State} (s : State) (c : Nat) (hM : Sub 33554692 M) (hT : Touches M s0 s) :
  Touches M s0 (State.resumeCore s c) := by
  unfold State.resumeCore
  try dsimp only
  repeat' first
    | with_reducible assumption
    | (with_reducible refine Sub.trans ?_ hM) <;> exact Sub.lit rfl
    | with_reducible apply State.modCore_touches
    | with_reducible apply State.atHead_touches
    | with_reducible apply State.wr_touches
    | with_reducible apply State.nextSegment_touches
    | (with_reducible intro _; try dsimp only)
    | split

theorem execUmpInjectChecksum_touches {M : Nat} {s0 : State} (core : Nat) (s : State) (hM : Sub 50331908 M) (hT : Touches M
  s0 s) : TouchesO M s0 (execUmpInjectChecksum core s) := by
  unfold execUmpInjectChecksum
  try dsimp only
  repeat' first
    | with_reducible assumption
    | (with_reducible refine Sub.trans ?_ hM) <;> exact Sub.lit rfl
    | with_reducible apply State.modCore_touches
    | with_reducible apply State.barAnswer_touches
    | with_reducible apply TouchesO.next
    | (with_reducible intro _; try dsimp only)
    | split
    | with_reducible apply Touches1.mk

theorem execUmpInjectArray_touches {M : Nat} {s0 : State} (core : Nat) (s : State) (hM : Sub 50331908 M) (hT : Touches M s0
  s) : TouchesO M s0 (execUmpInjectArray core s) := by
  unfold execUmpInjectArray
  try dsimp only
  repeat' first
    | with_reducible assumption
    | (with_reducible refine Sub.trans ?_ hM) <;> exact Sub.lit rfl
    | with_reducible apply State.modCore_touches
    | with_reducible apply State.barAnswer_touches
    | with_reducible apply TouchesO.next
    | (with_reducible intro _; try dsimp only)
    | split
    | with_reducible apply Touches1.mk

theorem execPmkHalt_touches {M : Nat} {s0 : State} (core : Nat) (s : State) (hM : Sub 50331908 M) (hT : Touches M s0 s) :
  TouchesO M s0 (execPmkHalt core s) := by
  unfold execPmkHalt
  try dsimp only
  repeat' first
    | with_reducible assumption
    | (with_reducible refine Sub.trans ?_ hM) <;> exact Sub.lit rfl
    | with_reducible apply State.haltCore_touches
    | with_reducible apply State.wr_touches
    | with_reducible apply State.barAnswer_touches
    | with_reducible apply TouchesO.next
    | (with_reducible intro _; try dsimp only)
    | split
    | with_reducible apply Touches1.mk

theorem State.writeCore_touches {M : Nat} {s0 : State} (s : State) (x : Wr) (hM : Sub 618525688580 M) (hT : Touches M s0 s)
  : Touches M s0 (State.writeCore s x) := by
  unfold State.writeCore
  try dsimp only
  repeat' first
    | with_reducible assumption
    | (with_reducible refine Sub.trans ?_ hM) <;> exact Sub.lit rfl
    | with_reducible apply State.writeChanCtrl_touches
    | with_reducible apply State.testBreak_touches
    | with_reducible apply State.wr_touches
    | with_reducible apply State.resumeCore_touches
    | with_reducible apply State.plainWrite_touches
    | with_reducible apply execUmpInjectChecksum_touches
    | with_reducible apply execUmpInjectArray_touches
    | with_reducible apply State.after_touches
    | with_reducible apply execPmkHalt_touches
    | (with_reducible intro _; try dsimp only)
    | split

theorem State.redRestart_touches {M : Nat} {s0 : State} (s : State) (pf : Bool) (p : Nat) (hM : Sub 33554436 M) (hT :
  Touches M s0 s) : Touches M s0 (State.redRestart s pf p) := by
  unfold State.redRestart
  try dsimp only
  repeat' first
    | with_reducible assumption
    | (with_reducible refine Sub.trans ?_ hM) <;> exact Sub.lit rfl
    | with_reducible apply State.wr_touches
    | with_reducible apply State.count_touches
    | (with_reducible intro _; try dsimp only)
    | split

theorem State.redDoorbell_touches {M : Nat} {s0 : State} (s : State) (pf : Bool) (p tail : Nat) (hM : Sub 33554436 M) (hT :
  Touches M s0 s) : Touches M s0 (State.redDoorbell s pf p tail) := by
  unfold State.redDoorbell
  try dsimp only
  repeat' first
    | with_reducible assumption
    | (with_reducible refine Sub.trans ?_ hM) <;> exact Sub.lit rfl
    | with_reducible apply State.wr_touches
    | with_reducible apply State.raise_touches
    | with_reducible apply State.count_touches
    | (with_reducible intro _; try dsimp only)
    | split

theorem State.setRedSeq_touches {M : Nat} {s0 : State} (s : State) (x : List (Nat × Nat)) (hM : Sub 35184372088832 M) (hT :
  Touches M s0 s) : Touches M s0 (State.setRedSeq s x) := by
  unfold State.setRedSeq
  try dsimp only
  repeat' first
    | with_reducible assumption
    | (with_reducible refine Sub.trans ?_ hM) <;> exact Sub.lit rfl
    | with_reducible apply Touches.set_redSeq
    | (with_reducible intro _; try dsimp only)
    | split

theorem State.groupWrite_touches {M : Nat} {s0 : State} (s : State) (pf : Bool) (p value : Nat) (hM : Sub 52776591687684 M)
  (hT : Touches M s0 s) : Touches M s0 (State.groupWrite s pf p value) := by
  unfold State.groupWrite
  try dsimp only
  repeat' first
    | with_reducible assumption
    | (with_reducible refine Sub.trans ?_ hM) <;> exact Sub.lit rfl
    | with_reducible apply State.wr_touches
    | with_reducible apply State.setRedSeq_touches
    | with_reducible apply State.count_touches
    | with_reducible apply State.bindGroup_touches
    | with_reducible apply State.failRed_touches
    | with_reducible apply Touches.foldl
    | with_reducible apply Touches1.foldl
    | with_reducible apply Touches1.fst
    | (with_reducible intro _; try dsimp only)
    | split
    | with_reducible apply Touches1.mk

theorem State.writeRed_touches {M : Nat} {s0 : State} (s : State) (x : Wr) (hM : Sub 52776591687684 M) (hT : Touches M s0
  s) : Touches M s0 (State.writeRed s x) := by
  unfold State.writeRed
  try dsimp only
  repeat' first
    | with_reducible assumption
    | (with_reducible refine Sub.trans ?_ hM) <;> exact Sub.lit rfl
    | with_reducible apply State.redRestart_touches
    | with_reducible apply State.plainWrite_touches
    | with_reducible apply State.redDoorbell_touches
    | with_reducible apply State.groupWrite_touches
    | (with_reducible intro _; try dsimp only)
    | split

theorem execMbxMsgWrite_touches {M : Nat} {s0 : State} (id c i value : Nat) (s : State) (hM : Sub 50331652 M) (hT : Touches
  M s0 s) : TouchesO M s0 (execMbxMsgWrite id c i value s) := by
  unfold execMbxMsgWrite
  try dsimp only
  repeat' first
    | with_reducible assumption
    | (with_reducible refine Sub.trans ?_ hM) <;> exact Sub.lit rfl
    | with_reducible apply State.setReg_touches
    | with_reducible apply State.mbxDenied_touches
    | with_reducible apply State.barAnswer_touches
    | with_reducible apply TouchesO.next
    | (with_reducible intro _; try dsimp only)
    | split
    | with_reducible apply Touches1.mk

theorem execMbxAck_touches {M : Nat} {s0 : State} (id c code : Nat) (s : State) (hM : Sub 148618787753558020 M) (hT :
  Touches M s0 s) : TouchesO M s0 (execMbxAck id c code s) := by
  unfold execMbxAck
  try dsimp only
  repeat' first
    | with_reducible assumption
    | (with_reducible refine Sub.trans ?_ hM) <;> exact Sub.lit rfl
    | with_reducible apply State.mbxAcknowledge_touches
    | with_reducible apply State.mbxDenied_touches
    | with_reducible apply State.barAnswer_touches
    | with_reducible apply TouchesO.next
    | (with_reducible intro _; try dsimp only)
    | split
    | with_reducible apply Touches1.mk

theorem State.mbxUnmask_touches {M : Nat} {s0 : State} (s : State) (r : Nat) (hM : Sub 148618787720003584 M) (hT : Touches
  M s0 s) : Touches M s0 (State.mbxUnmask s r) := by
  unfold State.mbxUnmask
  try dsimp only
  repeat' first
    | with_reducible assumption
    | (with_reducible refine Sub.trans ?_ hM) <;> exact Sub.lit rfl
    | with_reducible apply State.mbxInterrupt_touches
    | with_reducible apply State.setReferee_touches
    | with_reducible apply Touches.foldl
    | with_reducible apply Touches1.foldl
    | with_reducible apply Touches1.fst
    | (with_reducible intro _; try dsimp only)
    | split
    | with_reducible apply Touches1.mk

theorem State.reqInvalid_touches {M : Nat} {s0 : State} (s : State) (req kind : Nat) (hM : Sub 33554432 M) (hT : Touches M
  s0 s) : Touches M s0 (State.reqInvalid s req kind) := by
  unfold State.reqInvalid
  try dsimp only
  repeat' first
    | with_reducible assumption
    | (with_reducible refine Sub.trans ?_ hM) <;> exact Sub.lit rfl
    | with_reducible apply State.raise_touches
    | (with_reducible intro _; try dsimp only)
    | split

theorem execMbxGo_touches {M : Nat} {s0 : State} (id c : Nat) (s : State) (hM : Sub 148618787753558020 M) (hT : Touches M
  s0 s) : TouchesO M s0 (execMbxGo id c s) := by
  unfold execMbxGo
  try dsimp only
  repeat' first
    | with_reducible assumption
    | (with_reducible refine Sub.trans ?_ hM) <;> exact Sub.lit rfl
    | with_reducible apply State.mbxAcknowledge_touches
    | with_reducible apply State.mbxRise_touches
    | with_reducible apply State.wr_touches
    | with_reducible apply State.raise_touches
    | with_reducible apply State.mbxDenied_touches
    | with_reducible apply State.barAnswer_touches
    | with_reducible apply State.reqInvalid_touches
    | with_reducible apply State.count_touches
    | with_reducible apply TouchesO.next
    | (with_reducible intro _; try dsimp only)
    | split
    | with_reducible apply Touches1.mk

theorem State.writeMbx_touches {M : Nat} {s0 : State} (s : State) (x : Wr) (hM : Sub 148618787753558020 M) (hT : Touches M
  s0 s) : Touches M s0 (State.writeMbx s x) := by
  unfold State.writeMbx
  try dsimp only
  repeat' first
    | with_reducible assumption
    | (with_reducible refine Sub.trans ?_ hM) <;> exact Sub.lit rfl
    | with_reducible apply State.mbxFall_touches
    | with_reducible apply execMbxMsgWrite_touches
    | with_reducible apply execMbxAck_touches
    | with_reducible apply State.mbxUnmask_touches
    | with_reducible apply State.plainWrite_touches
    | with_reducible apply execMbxGo_touches
    | with_reducible apply State.mbxDenied_touches
    | with_reducible apply State.after_touches
    | with_reducible apply Touches.foldl
    | with_reducible apply Touches1.foldl
    | with_reducible apply Touches1.fst
    | (with_reducible intro _; try dsimp only)
    | split
    | with_reducible apply Touches1.mk

theorem State.chipTailWrite_touches {M : Nat} {s0 : State} (s : State) (channel tail : Nat) (hM : Sub 33554436 M) (hT :
  Touches M s0 s) : Touches M s0 (State.chipTailWrite s channel tail) := by
  unfold State.chipTailWrite
  try dsimp only
  repeat' first
    | with_reducible assumption
    | (with_reducible refine Sub.trans ?_ hM) <;> exact Sub.lit rfl
    | with_reducible apply State.wr_touches
    | with_reducible apply State.raise_touches
    | (with_reducible intro _; try dsimp only)
    | split

theorem State.writeChip_touches {M : Nat} {s0 : State} (s : State) (x : Wr) (hM : Sub 618525688580 M) (hT : Touches M s0 s)
  : Touches M s0 (State.writeChip s x) := by
  unfold State.writeChip
  try dsimp only
  repeat' first
    | with_reducible assumption
    | (with_reducible refine Sub.trans ?_ hM) <;> exact Sub.lit rfl
    | with_reducible apply State.chipTailWrite_touches
    | with_reducible apply State.writeChanCtrl_touches
    | with_reducible apply State.plainWrite_touches
    | (with_reducible intro _; try dsimp only)
    | split

theorem State.optEnable_touches {M : Nat} {s0 : State} (s : State) (p : Nat) (restored : Option (Nat × Nat)) (hM : Sub
  33554436 M) (hT : Touches M s0 s) : Touches1 M s0 (State.optEnable s p restored) := by
  unfold State.optEnable
  try dsimp only
  repeat' first
    | with_reducible assumption
    | (with_reducible refine Sub.trans ?_ hM) <;> exact Sub.lit rfl
    | with_reducible apply State.wr_touches
    | with_reducible apply State.raise_touches
    | with_reducible apply Touches1.fst
    | (with_reducible intro _; try dsimp only)
    | split
    | with_reducible apply Touches1.mk

theorem execOptEnable_touches {M : Nat} {s0 : State} (p : Nat) (s : State) (hM : Sub 50331652 M) (hT : Touches M s0 s) :
  TouchesO M s0 (execOptEnable p s) := by
  unfold execOptEnable
  try dsimp only
  repeat' first
    | with_reducible assumption
    | (with_reducible refine Sub.trans ?_ hM) <;> exact Sub.lit rfl
    | with_reducible apply State.barAnswer_touches
    | with_reducible apply State.optEnable_touches
    | with_reducible apply Touches1.fst
    | with_reducible apply TouchesO.next
    | (with_reducible intro _; try dsimp only)
    | split
    | with_reducible apply Touches1.mk

theorem State.govWrite_touches {M : Nat} {s0 : State} (s : State) (p a n v : Nat) (hM : Sub 234881068 M) (hT : Touches M s0
  s) : Touches M s0 (State.govWrite s p a n v) := by
  unfold State.govWrite
  try dsimp only
  repeat' first
    | with_reducible assumption
    | (with_reducible refine Sub.trans ?_ hM) <;> exact Sub.lit rfl
    | with_reducible apply State.writeVia_touches
    | (with_reducible intro _; try dsimp only)
    | split

theorem State.writePlan_touches {M : Nat} {s0 : State} (s : State) (p : Nat) (plan : List Nat) (hM : Sub 234881068 M) (hT :
  Touches M s0 s) : Touches M s0 (State.writePlan s p plan) := by
  unfold State.writePlan
  try dsimp only
  repeat' first
    | with_reducible assumption
    | (with_reducible refine Sub.trans ?_ hM) <;> exact Sub.lit rfl
    | with_reducible apply State.govWrite_touches
    | with_reducible apply Touches.foldl
    | with_reducible apply Touches1.foldl
    | with_reducible apply Touches1.fst
    | (with_reducible intro _; try dsimp only)
    | split
    | with_reducible apply Touches1.mk

theorem State.publishPlan_touches {M : Nat} {s0 : State} (s : State) (p epoch step : Nat) (hM : Sub 140737723236396 M) (hT
  : Touches M s0 s) : Touches M s0 (State.publishPlan s p epoch step) := by
  unfold State.publishPlan
  try dsimp only
  repeat' first
    | with_reducible assumption
    | (with_reducible refine Sub.trans ?_ hM) <;> exact Sub.lit rfl
    | with_reducible apply State.setReg_touches
    | with_reducible apply State.wr_touches
    | with_reducible apply State.modJob_touches
    | with_reducible apply State.writePlan_touches
    | (with_reducible intro _; try dsimp only)
    | split

theorem State.pgvEnable_touches {M : Nat} {s0 : State} (s : State) (p epoch step : Nat) (hM : Sub 140737723236396 M) (hT :
  Touches M s0 s) : Touches1 M s0 (State.pgvEnable s p epoch step) := by
  unfold State.pgvEnable
  try dsimp only
  repeat' first
    | with_reducible assumption
    | (with_reducible refine Sub.trans ?_ hM) <;> exact Sub.lit rfl
    | with_reducible apply State.setReg_touches
    | with_reducible apply State.publishPlan_touches
    | with_reducible apply State.wr_touches
    | with_reducible apply State.raise_touches
    | with_reducible apply Touches1.fst
    | (with_reducible intro _; try dsimp only)
    | split
    | with_reducible apply Touches1.mk

theorem execPgvEnable_touches {M : Nat} {s0 : State} (p : Nat) (s : State) (hM : Sub 140737740013612 M) (hT : Touches M s0
  s) : TouchesO M s0 (execPgvEnable p s) := by
  unfold execPgvEnable
  try dsimp only
  repeat' first
    | with_reducible assumption
    | (with_reducible refine Sub.trans ?_ hM) <;> exact Sub.lit rfl
    | with_reducible apply State.barAnswer_touches
    | with_reducible apply State.pgvEnable_touches
    | with_reducible apply Touches1.fst
    | with_reducible apply TouchesO.next
    | (with_reducible intro _; try dsimp only)
    | split
    | with_reducible apply Touches1.mk

theorem execCkptRequest_touches {M : Nat} {s0 : State} (p step : Nat) (s : State) (hM : Sub 50331652 M) (hT : Touches M s0
  s) : TouchesO M s0 (execCkptRequest p step s) := by
  unfold execCkptRequest
  try dsimp only
  repeat' first
    | with_reducible assumption
    | (with_reducible refine Sub.trans ?_ hM) <;> exact Sub.lit rfl
    | with_reducible apply State.wr_touches
    | with_reducible apply State.raise_touches
    | with_reducible apply State.barAnswer_touches
    | with_reducible apply TouchesO.next
    | with_reducible apply Touches.foldl
    | with_reducible apply Touches1.foldl
    | with_reducible apply Touches1.fst
    | (with_reducible intro _; try dsimp only)
    | split
    | with_reducible apply Touches1.mk

theorem State.writeContext_touches {M : Nat} {s0 : State} (s : State) (x : Wr) (hM : Sub 140737740013612 M) (hT : Touches M
  s0 s) : Touches M s0 (State.writeContext s x) := by
  unfold State.writeContext
  try dsimp only
  repeat' first
    | with_reducible assumption
    | (with_reducible refine Sub.trans ?_ hM) <;> exact Sub.lit rfl
    | with_reducible apply State.wr_touches
    | with_reducible apply State.plainWrite_touches
    | with_reducible apply execOptEnable_touches
    | with_reducible apply execPgvEnable_touches
    | with_reducible apply execCkptRequest_touches
    | with_reducible apply State.after_touches
    | (with_reducible intro _; try dsimp only)
    | split

theorem State.regWrite_touches {M : Nat} {s0 : State} (s : State) (x : Wr) (hM : Sub 826328710340529966 M) (hT : Touches M
  s0 s) : Touches M s0 (State.regWrite s x) := by
  unfold State.regWrite
  try dsimp only
  repeat' first
    | with_reducible assumption
    | (with_reducible refine Sub.trans ?_ hM) <;> exact Sub.lit rfl
    | with_reducible apply State.writeCad_touches
    | with_reducible apply State.writeMem_touches
    | with_reducible apply State.writeLnk_touches
    | with_reducible apply State.writePwr_touches
    | with_reducible apply State.writeHif_touches
    | with_reducible apply State.writeTrc_touches
    | with_reducible apply State.plainWrite_touches
    | with_reducible apply State.writeSyn_touches
    | with_reducible apply State.writeCore_touches
    | with_reducible apply State.writeRed_touches
    | with_reducible apply State.writeMbx_touches
    | with_reducible apply State.writeChip_touches
    | with_reducible apply State.writeContext_touches
    | (with_reducible intro _; try dsimp only)
    | split

theorem State.bootEnds_touches {M : Nat} {s0 : State} (s : State) (outcome code unit : Nat) (hM : Sub 4503599660924932 M)
  (hT : Touches M s0 s) : Touches M s0 (State.bootEnds s outcome code unit) := by
  unfold State.bootEnds
  try dsimp only
  repeat' first
    | with_reducible assumption
    | (with_reducible refine Sub.trans ?_ hM) <;> exact Sub.lit rfl
    | with_reducible apply State.wr_touches
    | with_reducible apply State.count_touches
    | with_reducible apply State.setReferee_touches
    | (with_reducible intro _; try dsimp only)
    | split

theorem State.setMsixCtl_touches {M : Nat} {s0 : State} (s : State) (x : List (Nat × Nat)) (hM : Sub 288230376151711744 M)
  (hT : Touches M s0 s) : Touches M s0 (State.setMsixCtl s x) := by
  unfold State.setMsixCtl
  try dsimp only
  repeat' first
    | with_reducible assumption
    | (with_reducible refine Sub.trans ?_ hM) <;> exact Sub.lit rfl
    | with_reducible apply Touches.set_msixCtl
    | (with_reducible intro _; try dsimp only)
    | split

theorem State.setAtsOn_touches {M : Nat} {s0 : State} (s : State) (x : List Nat) (hM : Sub 1048576 M) (hT : Touches M s0 s)
  : Touches M s0 (State.setAtsOn s x) := by
  unfold State.setAtsOn
  try dsimp only
  repeat' first
    | with_reducible assumption
    | (with_reducible refine Sub.trans ?_ hM) <;> exact Sub.lit rfl
    | with_reducible apply Touches.set_atsOn
    | (with_reducible intro _; try dsimp only)
    | split

theorem State.setLowPower_touches {M : Nat} {s0 : State} (s : State) (x : List Nat) (hM : Sub 4194304 M) (hT : Touches M s0
  s) : Touches M s0 (State.setLowPower s x) := by
  unfold State.setLowPower
  try dsimp only
  repeat' first
    | with_reducible assumption
    | (with_reducible refine Sub.trans ?_ hM) <;> exact Sub.lit rfl
    | with_reducible apply Touches.set_lowPower
    | (with_reducible intro _; try dsimp only)
    | split

theorem State.bare_touches {M : Nat} {s0 : State} (s : State) (keep : Nat → Bool) (hM : Sub 1134906965386854188 M) (hT :
  Touches M s0 s) : Touches M s0 (State.bare s keep) := by
  refine hT.trans (Touches.weaken hM ⟨fun f hf => by cases f <;> first | rfl | exact absurd hf (by decide), ?_, fun _ o _ => rfl⟩)
  simp only [canonical_iff]
  rintro ⟨_, h2, h3, _, _⟩
  refine ⟨rfl, h2, Sparse.wf_map_filter (fun p => ?_) (Sparse.wf_filter h3), rfl, rfl⟩
  split <;> rfl

theorem State.platformEvent_touches {M : Nat} {s0 : State} (s : State) (sensor kind : Nat) (data : List Nat) (hM : Sub
  4503599644147712 M) (hT : Touches M s0 s) : Touches M s0 (State.platformEvent s sensor kind data) := by
  unfold State.platformEvent
  try dsimp only
  repeat' first
    | with_reducible assumption
    | (with_reducible refine Sub.trans ?_ hM) <;> exact Sub.lit rfl
    | with_reducible apply State.setOut_touches
    | with_reducible apply State.setReferee_touches
    | (with_reducible intro _; try dsimp only)
    | split

theorem State.stateEvent_touches {M : Nat} {s0 : State} (s : State) (old : Nat) (hM : Sub 4503599644147712 M) (hT : Touches
  M s0 s) : Touches M s0 (State.stateEvent s old) := by
  unfold State.stateEvent
  try dsimp only
  repeat' first
    | with_reducible assumption
    | (with_reducible refine Sub.trans ?_ hM) <;> exact Sub.lit rfl
    | with_reducible apply State.platformEvent_touches
    | (with_reducible intro _; try dsimp only)
    | split

theorem State.enterDugout_touches {M : Nat} {s0 : State} (s : State) (cause unit phase detail : Nat) (hM : Sub
  1134906965437185836 M) (hT : Touches M s0 s) : Touches M s0 (State.enterDugout s cause unit phase detail) := by
  unfold State.enterDugout
  try dsimp only
  repeat' first
    | with_reducible assumption
    | (with_reducible refine Sub.trans ?_ hM) <;> exact Sub.lit rfl
    | with_reducible apply State.bootEnds_touches
    | with_reducible apply State.setMsixCtl_touches
    | with_reducible apply State.setMsix_touches
    | with_reducible apply State.setAtsOn_touches
    | with_reducible apply State.setLowPower_touches
    | with_reducible apply State.wr_touches
    | with_reducible apply State.setRings_touches
    | with_reducible apply State.raise_touches
    | with_reducible apply State.bare_touches
    | with_reducible apply State.setPower_touches
    | with_reducible apply State.stateEvent_touches
    | with_reducible apply State.setReferee_touches
    | (with_reducible intro _; try dsimp only)
    | split

theorem execRefRailsOff_touches {M : Nat} {s0 : State} (key : Nat) (s : State) (hM : Sub 1134906965437185836 M) (hT :
  Touches M s0 s) : TouchesO M s0 (execRefRailsOff key s) := by
  unfold execRefRailsOff
  try dsimp only
  repeat' first
    | with_reducible assumption
    | (with_reducible refine Sub.trans ?_ hM) <;> exact Sub.lit rfl
    | with_reducible apply State.enterDugout_touches
    | with_reducible apply TouchesO.next
    | (with_reducible intro _; try dsimp only)
    | split
    | with_reducible apply Touches1.mk

theorem State.mappedOut_touches {M : Nat} {s0 : State} (s : State) (tier die : Nat) (units : List Nat) (hM : Sub 33554432
  M) (hT : Touches M s0 s) : Touches M s0 (State.mappedOut s tier die units) := by
  unfold State.mappedOut
  try dsimp only
  repeat' first
    | with_reducible assumption
    | (with_reducible refine Sub.trans ?_ hM) <;> exact Sub.lit rfl
    | with_reducible apply State.raise_touches
    | with_reducible apply Touches.foldl
    | with_reducible apply Touches1.foldl
    | with_reducible apply Touches1.fst
    | (with_reducible intro _; try dsimp only)
    | split
    | with_reducible apply Touches1.mk

theorem State.fullReset_touches {M : Nat} {s0 : State} (s : State) (source : Nat) (hM : Sub 1134906965437185836 M) (hT :
  Touches M s0 s) : Touches M s0 (State.fullReset s source) := by
  unfold State.fullReset
  try dsimp only
  repeat' first
    | with_reducible assumption
    | (with_reducible refine Sub.trans ?_ hM) <;> exact Sub.lit rfl
    | with_reducible apply State.wr_touches
    | with_reducible apply State.raise_touches
    | with_reducible apply State.mbxReceiverReset_touches
    | with_reducible apply State.bare_touches
    | with_reducible apply State.mappedOut_touches
    | with_reducible apply State.stateEvent_touches
    | with_reducible apply State.setReferee_touches
    | with_reducible apply Touches.foldl
    | with_reducible apply Touches1.foldl
    | with_reducible apply Touches1.fst
    | (with_reducible intro _; try dsimp only)
    | split
    | with_reducible apply Touches1.mk

theorem execRefFullReset_touches {M : Nat} {s0 : State} (key : Nat) (s : State) (hM : Sub 1134906965437185836 M) (hT :
  Touches M s0 s) : TouchesO M s0 (execRefFullReset key s) := by
  unfold execRefFullReset
  try dsimp only
  repeat' first
    | with_reducible assumption
    | (with_reducible refine Sub.trans ?_ hM) <;> exact Sub.lit rfl
    | with_reducible apply State.fullReset_touches
    | with_reducible apply TouchesO.next
    | (with_reducible intro _; try dsimp only)
    | split
    | with_reducible apply Touches1.mk

theorem State.writeRefCtrl_touches {M : Nat} {s0 : State} (s : State) (x : Wr) (hM : Sub 1134906965437185836 M) (hT :
  Touches M s0 s) : Touches M s0 (State.writeRefCtrl s x) := by
  unfold State.writeRefCtrl
  try dsimp only
  repeat' first
    | with_reducible assumption
    | (with_reducible refine Sub.trans ?_ hM) <;> exact Sub.lit rfl
    | with_reducible apply execRefRailsOff_touches
    | with_reducible apply execRefFullReset_touches
    | with_reducible apply State.plainWrite_touches
    | with_reducible apply State.after_touches
    | (with_reducible intro _; try dsimp only)
    | split

theorem State.resetRange_touches {M : Nat} {s0 : State} (s : State) (lo n : Nat) (hM : Sub 4 M) (hT : Touches M s0 s) :
  Touches M s0 (State.resetRange s lo n) := by
  refine Touches.updWf hM hT (fun f hf => by cases f <;> first | rfl | exact absurd hf (by decide)) rfl ?_
  simp only [canonical_iff]
  rintro ⟨h1, h2, h3, h4, h5⟩
  exact ⟨h1, h2, Sparse.wf_filter h3, h4, h5⟩

theorem State.resetChip_touches {M : Nat} {s0 : State} (s : State) (n : Nat) (hM : Sub 618475356676 M) (hT : Touches M s0
  s) : Touches M s0 (State.resetChip s n) := by
  unfold State.resetChip
  try dsimp only
  repeat' first
    | with_reducible assumption
    | (with_reducible refine Sub.trans ?_ hM) <;> exact Sub.lit rfl
    | with_reducible apply State.dropWaiter_touches
    | with_reducible apply State.resetRange_touches
    | with_reducible apply State.abandonReqs_touches
    | with_reducible apply State.setChans_touches
    | with_reducible apply State.setHeadWait_touches
    | (with_reducible intro _; try dsimp only)
    | split

theorem State.destroy_touches {M : Nat} {s0 : State} (s : State) (p : Nat) (hM : Sub 618979476268 M) (hT : Touches M s0 s)
  : Touches M s0 (State.destroy s p) := by
  unfold State.destroy
  try dsimp only
  repeat' first
    | with_reducible assumption
    | (with_reducible refine Sub.trans ?_ hM) <;> exact Sub.lit rfl
    | with_reducible apply State.resetRange_touches
    | with_reducible apply State.freeRegion_touches
    | with_reducible apply State.wr_touches
    | with_reducible apply State.disableStream_touches
    | with_reducible apply State.resetChip_touches
    | with_reducible apply State.disableQueue_touches
    | with_reducible apply Touches.foldl
    | with_reducible apply Touches1.foldl
    | with_reducible apply Touches1.fst
    | (with_reducible intro _; try dsimp only)
    | split
    | with_reducible apply Touches1.mk

theorem State.flrDone_touches {M : Nat} {s0 : State} (s : State) (p : Nat) (hM : Sub 4503599627370500 M) (hT : Touches M s0
  s) : Touches M s0 (State.flrDone s p) := by
  unfold State.flrDone
  try dsimp only
  repeat' first
    | with_reducible assumption
    | (with_reducible refine Sub.trans ?_ hM) <;> exact Sub.lit rfl
    | with_reducible apply State.wr_touches
    | with_reducible apply State.setReferee_touches
    | (with_reducible intro _; try dsimp only)
    | split

theorem State.detachWaiting_touches {M : Nat} {s0 : State} (s : State) (cs : List Nat) (hM : Sub 16384 M) (hT : Touches M
  s0 s) : Touches M s0 (State.detachWaiting s cs) := by
  unfold State.detachWaiting
  try dsimp only
  repeat' first
    | with_reducible assumption
    | (with_reducible refine Sub.trans ?_ hM) <;> exact Sub.lit rfl
    | with_reducible apply State.setStreams_touches
    | (with_reducible intro _; try dsimp only)
    | split

theorem State.setAtc_touches {M : Nat} {s0 : State} (s : State) (x : List (Nat × Nat)) (hM : Sub 2097152 M) (hT : Touches M
  s0 s) : Touches M s0 (State.setAtc s x) := by
  unfold State.setAtc
  try dsimp only
  repeat' first
    | with_reducible assumption
    | (with_reducible refine Sub.trans ?_ hM) <;> exact Sub.lit rfl
    | with_reducible apply Touches.set_atc
    | (with_reducible intro _; try dsimp only)
    | split

theorem State.translate_touches {M : Nat} {s0 : State} (s : State) (fn space a : Nat) (hM : Sub 2097152 M) (hT : Touches M
  s0 s) : Touches M s0 (State.translate s fn space a) := by
  unfold State.translate
  try dsimp only
  repeat' first
    | with_reducible assumption
    | (with_reducible refine Sub.trans ?_ hM) <;> exact Sub.lit rfl
    | with_reducible apply State.setAtc_touches
    | (with_reducible intro _; try dsimp only)
    | split

theorem State.streamMessage_touches {M : Nat} {s0 : State} (s : State) (n : Nat) (hM : Sub 144115188092649472 M) (hT :
  Touches M s0 s) : Touches M s0 (State.streamMessage s n) := by
  unfold State.streamMessage
  try dsimp only
  repeat' first
    | with_reducible assumption
    | (with_reducible refine Sub.trans ?_ hM) <;> exact Sub.lit rfl
    | with_reducible apply State.sendMsix_touches
    | with_reducible apply State.modStream_touches
    | (with_reducible intro _; try dsimp only)
    | split

theorem State.streamWritten_touches {M : Nat} {s0 : State} (s : State) (n t : Nat) (hM : Sub 144115188327530540 M) (hT :
  Touches M s0 s) : Touches M s0 (State.streamWritten s n t) := by
  unfold State.streamWritten
  try dsimp only
  repeat' first
    | with_reducible assumption
    | (with_reducible refine Sub.trans ?_ hM) <;> exact Sub.lit rfl
    | with_reducible apply State.streamMessage_touches
    | with_reducible apply State.raise_touches
    | with_reducible apply State.count_touches
    | with_reducible apply State.ctxWrite_touches
    | (with_reducible intro _; try dsimp only)
    | split

theorem State.setHostBytes_touches {M : Nat} {s0 : State} (s : State) (a : Nat) (bs : List (BitVec 8)) (hM : Sub 16 M) (hT
  : Touches M s0 s) : Touches M s0 (State.setHostBytes s a bs) := by
  refine Touches.updWf hM hT (fun f hf => by cases f <;> first | rfl | exact absurd hf (by decide)) rfl ?_
  simp only [canonical_iff]
  rintro ⟨h1, h2, h3, h4, h5⟩
  exact ⟨h1, Mem.writeBytes_wf _ _ h2, h3, h4, h5⟩

theorem State.writeCompletion_touches {M : Nat} {s0 : State} (s : State) (x : Completion) (hM : Sub 144115188329627964 M)
  (hT : Touches M s0 s) : Touches M s0 (State.writeCompletion s x) := by
  unfold State.writeCompletion
  try dsimp only
  repeat' first
    | with_reducible assumption
    | (with_reducible refine Sub.trans ?_ hM) <;> exact Sub.lit rfl
    | with_reducible apply State.refuseAccess_touches
    | with_reducible apply State.translate_touches
    | with_reducible apply State.storeNat_touches
    | with_reducible apply State.streamWritten_touches
    | with_reducible apply State.setHostBytes_touches
    | with_reducible apply State.segmentReported_touches
    | with_reducible apply State.count_touches
    | (with_reducible intro _; try dsimp only)
    | split

theorem State.postCompletion_touches {M : Nat} {s0 : State} (s : State) (x : Completion) (hM : Sub 144115188329627964 M)
  (hT : Touches M s0 s) : Touches M s0 (State.postCompletion s x) := by
  unfold State.postCompletion
  try dsimp only
  repeat' first
    | with_reducible assumption
    | (with_reducible refine Sub.trans ?_ hM) <;> exact Sub.lit rfl
    | with_reducible apply State.ctxSeen_touches
    | with_reducible apply State.dropCompletion_touches
    | with_reducible apply State.writeCompletion_touches
    | with_reducible apply State.modStream_touches
    | (with_reducible intro _; try dsimp only)
    | split

theorem State.seqUp_touches {M : Nat} {s0 : State} (s : State) (n : Nat) (hM : Sub 4 M) (hT : Touches M s0 s) : Touches M
  s0 (State.seqUp s n) := by
  unfold State.seqUp
  try dsimp only
  repeat' first
    | with_reducible assumption
    | (with_reducible refine Sub.trans ?_ hM) <;> exact Sub.lit rfl
    | with_reducible apply State.wr_touches
    | (with_reducible intro _; try dsimp only)
    | split

theorem State.setDispatch_touches {M : Nat} {s0 : State} (s : State) (x : List SegRec) (hM : Sub 4096 M) (hT : Touches M s0
  s) : Touches M s0 (State.setDispatch s x) := by
  unfold State.setDispatch
  try dsimp only
  repeat' first
    | with_reducible assumption
    | (with_reducible refine Sub.trans ?_ hM) <;> exact Sub.lit rfl
    | with_reducible apply Touches.set_dispatch
    | (with_reducible intro _; try dsimp only)
    | split

theorem State.dropSegment_touches {M : Nat} {s0 : State} (s : State) (r : SegRec) (status : Nat) (hM : Sub
  144115188329632060 M) (hT : Touches M s0 s) : Touches M s0 (State.dropSegment s r status) := by
  unfold State.dropSegment
  try dsimp only
  repeat' first
    | with_reducible assumption
    | (with_reducible refine Sub.trans ?_ hM) <;> exact Sub.lit rfl
    | with_reducible apply State.postCompletion_touches
    | with_reducible apply State.seqUp_touches
    | with_reducible apply State.setDispatch_touches
    | (with_reducible intro _; try dsimp only)
    | split

theorem State.endSegments_touches {M : Nat} {s0 : State} (s : State) (p : Nat) (hM : Sub 144115188329632060 M) (hT :
  Touches M s0 s) : Touches M s0 (State.endSegments s p) := by
  unfold State.endSegments
  try dsimp only
  repeat' first
    | with_reducible assumption
    | (with_reducible refine Sub.trans ?_ hM) <;> exact Sub.lit rfl
    | with_reducible apply State.detachWaiting_touches
    | with_reducible apply State.dropSegment_touches
    | with_reducible apply Touches.foldl
    | with_reducible apply Touches1.foldl
    | with_reducible apply Touches1.fst
    | (with_reducible intro _; try dsimp only)
    | split
    | with_reducible apply Touches1.mk

theorem State.jobEndObjects_touches {M : Nat} {s0 : State} (s : State) (p : Nat) (hM : Sub 576460752555148076 M) (hT :
  Touches M s0 s) : Touches M s0 (State.jobEndObjects s p) := by
  unfold State.jobEndObjects
  try dsimp only
  repeat' first
    | with_reducible assumption
    | (with_reducible refine Sub.trans ?_ hM) <;> exact Sub.lit rfl
    | with_reducible apply State.freeObj_touches
    | with_reducible apply State.balanceReport_touches
    | with_reducible apply Touches.foldl
    | with_reducible apply Touches1.foldl
    | with_reducible apply Touches1.fst
    | (with_reducible intro _; try dsimp only)
    | split
    | with_reducible apply Touches1.mk

theorem State.setBenched_touches {M : Nat} {s0 : State} (s : State) (x : List (Nat × Nat)) (hM : Sub 128 M) (hT : Touches M
  s0 s) : Touches M s0 (State.setBenched s x) := by
  unfold State.setBenched
  try dsimp only
  repeat' first
    | with_reducible assumption
    | (with_reducible refine Sub.trans ?_ hM) <;> exact Sub.lit rfl
    | with_reducible apply Touches.set_benched
    | (with_reducible intro _; try dsimp only)
    | split

theorem State.moveCore_touches {M : Nat} {s0 : State} (s : State) (c old k : Nat) (hM : Sub 33554564 M) (hT : Touches M s0
  s) : Touches M s0 (State.moveCore s c old k) := by
  unfold State.moveCore
  try dsimp only
  repeat' first
    | with_reducible assumption
    | (with_reducible refine Sub.trans ?_ hM) <;> exact Sub.lit rfl
    | with_reducible apply State.wr_touches
    | with_reducible apply State.raise_touches
    | with_reducible apply State.setBenched_touches
    | (with_reducible intro _; try dsimp only)
    | split

theorem State.flagChip_touches {M : Nat} {s0 : State} (s : State) (d k cause : Nat) (hM : Sub 4503599677702148 M) (hT :
  Touches M s0 s) : Touches M s0 (State.flagChip s d k cause) := by
  unfold State.flagChip
  try dsimp only
  repeat' first
    | with_reducible assumption
    | (with_reducible refine Sub.trans ?_ hM) <;> exact Sub.lit rfl
    | with_reducible apply State.wr_touches
    | with_reducible apply State.raise_touches
    | with_reducible apply State.stateEvent_touches
    | (with_reducible intro _; try dsimp only)
    | split

theorem State.takeLibero_touches {M : Nat} {s0 : State} (s : State) (fails : List (Nat × Nat)) (c old cause : Nat) (y0 :
  List Nat) (hM : Sub 4503599677702276 M) (hT : Touches M s0 s) : Touches1 M s0 (State.takeLibero s fails c old cause y0)
  := by
  induction y0 generalizing s old cause with
  | nil =>
    unfold State.takeLibero
    try dsimp only
    repeat' first
      | with_reducible assumption
      | (with_reducible refine Sub.trans ?_ hM) <;> exact Sub.lit rfl
      | with_reducible apply State.moveCore_touches
      | with_reducible apply ih
      | with_reducible apply State.setBenched_touches
      | with_reducible apply State.flagChip_touches
      | with_reducible apply Touches1.fst
      | (with_reducible intro _; try dsimp only)
      | split
      | with_reducible apply Touches1.mk
  | cons k t ih =>
    unfold State.takeLibero
    try dsimp only
    repeat' first
      | with_reducible assumption
      | (with_reducible refine Sub.trans ?_ hM) <;> exact Sub.lit rfl
      | with_reducible apply State.moveCore_touches
      | with_reducible apply ih
      | with_reducible apply State.setBenched_touches
      | with_reducible apply State.flagChip_touches
      | with_reducible apply Touches1.fst
      | (with_reducible intro _; try dsimp only)
      | split
      | with_reducible apply Touches1.mk

theorem State.benchCore_touches {M : Nat} {s0 : State} (s : State) (fails : List (Nat × Nat)) (cause c : Nat) (hM : Sub
  4503599677702276 M) (hT : Touches M s0 s) : Touches1 M s0 (State.benchCore s fails cause c) := by
  unfold State.benchCore
  try dsimp only
  repeat' first
    | with_reducible assumption
    | (with_reducible refine Sub.trans ?_ hM) <;> exact Sub.lit rfl
    | with_reducible apply State.takeLibero_touches
    | with_reducible apply Touches1.fst
    | (with_reducible intro _; try dsimp only)
    | split
    | with_reducible apply Touches1.mk

theorem State.boundaryCore_touches {M : Nat} {s0 : State} (s : State) (fails : List (Nat × Nat)) (c : Nat) (hM : Sub
  4503599677702276 M) (hT : Touches M s0 s) : Touches M s0 (State.boundaryCore s fails c) := by
  unfold State.boundaryCore
  try dsimp only
  repeat' first
    | with_reducible assumption
    | (with_reducible refine Sub.trans ?_ hM) <;> exact Sub.lit rfl
    | with_reducible apply State.wr_touches
    | with_reducible apply State.benchCore_touches
    | with_reducible apply Touches1.fst
    | (with_reducible intro _; try dsimp only)
    | split
    | with_reducible apply Touches1.mk

theorem State.jobBoundary_touches {M : Nat} {s0 : State} (s : State) (fails : List (Nat × Nat)) (hM : Sub 4503599677702276
  M) (hT : Touches M s0 s) : Touches M s0 (State.jobBoundary s fails) := by
  unfold State.jobBoundary
  try dsimp only
  repeat' first
    | with_reducible assumption
    | (with_reducible refine Sub.trans ?_ hM) <;> exact Sub.lit rfl
    | with_reducible apply State.boundaryCore_touches
    | with_reducible apply Touches.foldl
    | with_reducible apply Touches1.foldl
    | with_reducible apply Touches1.fst
    | (with_reducible intro _; try dsimp only)
    | split
    | with_reducible apply Touches1.mk

theorem State.dropObject_touches {M : Nat} {s0 : State} (s : State) (id : Nat) (hM : Sub 1073741824 M) (hT : Touches M s0
  s) : Touches M s0 (State.dropObject s id) := by
  unfold State.dropObject
  try dsimp only
  repeat' first
    | with_reducible assumption
    | (with_reducible refine Sub.trans ?_ hM) <;> exact Sub.lit rfl
    | with_reducible apply State.setFlash_touches
    | (with_reducible intro _; try dsimp only)
    | split

theorem State.deleteObject_touches {M : Nat} {s0 : State} (s : State) (id : Nat) (hM : Sub 1073741828 M) (hT : Touches M s0
  s) : Touches M s0 (State.deleteObject s id) := by
  unfold State.deleteObject
  try dsimp only
  repeat' first
    | with_reducible assumption
    | (with_reducible refine Sub.trans ?_ hM) <;> exact Sub.lit rfl
    | with_reducible apply State.dropObject_touches
    | with_reducible apply State.wr_touches
    | (with_reducible intro _; try dsimp only)
    | split

theorem State.dropCkptObject_touches {M : Nat} {s0 : State} (s : State) (x : Ckpt) (hM : Sub 1073741828 M) (hT : Touches M
  s0 s) : Touches M s0 (State.dropCkptObject s x) := by
  unfold State.dropCkptObject
  try dsimp only
  repeat' first
    | with_reducible assumption
    | (with_reducible refine Sub.trans ?_ hM) <;> exact Sub.lit rfl
    | with_reducible apply State.deleteObject_touches
    | (with_reducible intro _; try dsimp only)
    | split

theorem State.releaseTrace_touches {M : Nat} {s0 : State} (s : State) (p : Nat) (hM : Sub 844425181790508 M) (hT : Touches
  M s0 s) : Touches M s0 (State.releaseTrace s p) := by
  unfold State.releaseTrace
  try dsimp only
  repeat' first
    | with_reducible assumption
    | (with_reducible refine Sub.trans ?_ hM) <;> exact Sub.lit rfl
    | with_reducible apply State.setReg_touches
    | with_reducible apply execTraceDisable_touches
    | with_reducible apply State.after_touches
    | with_reducible apply Touches.foldl
    | with_reducible apply Touches1.foldl
    | with_reducible apply Touches1.fst
    | (with_reducible intro _; try dsimp only)
    | split
    | with_reducible apply Touches1.mk

theorem State.releaseFeed_touches {M : Nat} {s0 : State} (s : State) (f : Nat) (hM : Sub 1717986918404 M) (hT : Touches M
  s0 s) : Touches M s0 (State.releaseFeed s f) := by
  unfold State.releaseFeed
  try dsimp only
  repeat' first
    | with_reducible assumption
    | (with_reducible refine Sub.trans ?_ hM) <;> exact Sub.lit rfl
    | with_reducible apply State.resetRange_touches
    | with_reducible apply State.abandonReqs_touches
    | with_reducible apply State.setFeeds_touches
    | with_reducible apply State.setChans_touches
    | (with_reducible intro _; try dsimp only)
    | split

theorem State.setHaltAt_touches {M : Nat} {s0 : State} (s : State) (x : List (Nat × Nat)) (hM : Sub 131072 M) (hT : Touches
  M s0 s) : Touches M s0 (State.setHaltAt s x) := by
  unfold State.setHaltAt
  try dsimp only
  repeat' first
    | with_reducible assumption
    | (with_reducible refine Sub.trans ?_ hM) <;> exact Sub.lit rfl
    | with_reducible apply Touches.set_haltAt
    | (with_reducible intro _; try dsimp only)
    | split

theorem State.resetBook_touches {M : Nat} {s0 : State} (s : State) (c : Nat) (hM : Sub 32 M) (hT : Touches M s0 s) :
  Touches M s0 (State.resetBook s c) := by
  refine Touches.updWf hM hT (fun f hf => by cases f <;> first | rfl | exact absurd hf (by decide)) rfl ?_
  simp only [canonical_iff]
  rintro ⟨h1, h2, h3, h4, h5⟩
  exact ⟨h1, h2, h3, h4, Sparse.wf_filter h5⟩

theorem State.releaseCore_touches {M : Nat} {s0 : State} (s : State) (c : Nat) (hM : Sub 2817498546468 M) (hT : Touches M
  s0 s) : Touches M s0 (State.releaseCore s c) := by
  unfold State.releaseCore
  try dsimp only
  repeat' first
    | with_reducible assumption
    | (with_reducible refine Sub.trans ?_ hM) <;> exact Sub.lit rfl
    | with_reducible apply State.setReg_touches
    | with_reducible apply State.resetRange_touches
    | with_reducible apply State.abandonReqs_touches
    | with_reducible apply State.wr_touches
    | with_reducible apply State.setChans_touches
    | with_reducible apply State.setCore_touches
    | with_reducible apply State.setFences_touches
    | with_reducible apply State.resetBook_touches
    | (with_reducible intro _; try dsimp only)
    | split

theorem State.releaseJob_touches {M : Nat} {s0 : State} (s : State) (p : Nat) (regs : List Nat) (hM : Sub
  577471823558673196 M) (hT : Touches M s0 s) : Touches M s0 (State.releaseJob s p regs) := by
  unfold State.releaseJob
  try dsimp only
  repeat' first
    | with_reducible assumption
    | (with_reducible refine Sub.trans ?_ hM) <;> exact Sub.lit rfl
    | with_reducible apply State.setReg_touches
    | with_reducible apply State.resetRange_touches
    | with_reducible apply State.abandonReqs_touches
    | with_reducible apply State.freeObj_touches
    | with_reducible apply State.setReds_touches
    | with_reducible apply State.dropCkptObject_touches
    | with_reducible apply State.setRecoveries_touches
    | with_reducible apply State.freeRegion_touches
    | with_reducible apply State.wr_touches
    | with_reducible apply State.releaseTrace_touches
    | with_reducible apply State.releaseFeed_touches
    | with_reducible apply State.setHaltAt_touches
    | with_reducible apply State.setJobs_touches
    | with_reducible apply State.releaseCore_touches
    | with_reducible apply Touches.foldl
    | with_reducible apply Touches1.foldl
    | with_reducible apply Touches1.fst
    | (with_reducible intro _; try dsimp only)
    | split
    | with_reducible apply Touches1.mk

theorem State.finishEnd_touches {M : Nat} {s0 : State} (s : State) (p : Nat) (e : Ending) (hM : Sub 735097810519544764 M)
  (hT : Touches M s0 s) : Touches M s0 (State.finishEnd s p e) := by
  unfold State.finishEnd
  try dsimp only
  repeat' first
    | with_reducible assumption
    | (with_reducible refine Sub.trans ?_ hM) <;> exact Sub.lit rfl
    | with_reducible apply State.destroy_touches
    | with_reducible apply State.flrDone_touches
    | with_reducible apply State.requestPlan_touches
    | with_reducible apply State.endSegments_touches
    | with_reducible apply State.wr_touches
    | with_reducible apply State.jobEndObjects_touches
    | with_reducible apply State.disableQueue_touches
    | with_reducible apply State.jobBoundary_touches
    | with_reducible apply State.releaseJob_touches
    | with_reducible apply Touches.foldl
    | with_reducible apply Touches1.foldl
    | with_reducible apply Touches1.fst
    | (with_reducible intro _; try dsimp only)
    | split
    | with_reducible apply Touches1.mk

theorem State.beginEnd_touches {M : Nat} {s0 : State} (s : State) (p : Nat) (e : Ending) (hM : Sub 735097810519544764 M)
  (hT : Touches M s0 s) : Touches M s0 (State.beginEnd s p e) := by
  unfold State.beginEnd
  try dsimp only
  repeat' first
    | with_reducible assumption
    | (with_reducible refine Sub.trans ?_ hM) <;> exact Sub.lit rfl
    | with_reducible apply State.haltCore_touches
    | with_reducible apply State.wr_touches
    | with_reducible apply State.finishEnd_touches
    | with_reducible apply State.modJob_touches
    | with_reducible apply State.setHaltAt_touches
    | with_reducible apply Touches.foldl
    | with_reducible apply Touches1.foldl
    | with_reducible apply Touches1.fst
    | (with_reducible intro _; try dsimp only)
    | split
    | with_reducible apply Touches1.mk

end Sys2Proof.Machine
end

