-- ==== Sys2Proof/Laws/Touches3.lean ====
section
/-!
SUPPORT. The frames of operations and commands, part 3: each may change the fields of its mask only, and keeps the canonical form.
-/
namespace Sys2Proof.Machine

theorem State.partRefused_touches {M : Nat} {s0 : State} (s : State) (p op reason : Nat) (hM : Sub 33554436 M) (hT :
  Touches M s0 s) : Touches M s0 (State.partRefused s p op reason) := by
  unfold State.partRefused
  try dsimp only
  repeat' first
    | with_reducible assumption
    | (with_reducible refine Sub.trans ?_ hM) <;> exact Sub.lit rfl
    | with_reducible apply State.wr_touches
    | with_reducible apply State.raise_touches
    | (with_reducible intro _; try dsimp only)
    | split

theorem State.dropSuspend_touches {M : Nat} {s0 : State} (s : State) (p : Nat) (hM : Sub 140737488486404 M) (hT : Touches M
  s0 s) : Touches M s0 (State.dropSuspend s p) := by
  unfold State.dropSuspend
  try dsimp only
  repeat' first
    | with_reducible assumption
    | (with_reducible refine Sub.trans ?_ hM) <;> exact Sub.lit rfl
    | with_reducible apply State.wr_touches
    | with_reducible apply State.modJob_touches
    | with_reducible apply State.setHaltAt_touches
    | (with_reducible intro _; try dsimp only)
    | split

theorem State.partOp_touches {M : Nat} {s0 : State} (s : State) (pf : Bool) (p op : Nat) (states : List Nat) (check : State
  → Option Nat) (act : State → State) (hact : ∀ u0, Touches M s0 u0 → Touches M s0 (act u0)) (hM : Sub 140737522040836 M)
  (hT : Touches M s0 s) : Touches M s0 (State.partOp s pf p op states check act) := by
  unfold State.partOp
  try dsimp only
  repeat' first
    | with_reducible assumption
    | (with_reducible refine Sub.trans ?_ hM) <;> exact Sub.lit rfl
    | with_reducible apply State.partRefused_touches
    | with_reducible apply State.wr_touches
    | with_reducible apply State.count_touches
    | with_reducible apply State.dropSuspend_touches
    | with_reducible apply hact
    | (with_reducible intro _; try dsimp only)
    | split

theorem execPartitionEnd_touches {M : Nat} {s0 : State} (pf : Bool) (p : Nat) (fails : List (Nat × Nat)) (s : State) (hM :
  Sub 735097810519544764 M) (hT : Touches M s0 s) : TouchesO M s0 (execPartitionEnd pf p fails s) := by
  unfold execPartitionEnd
  try dsimp only
  repeat' first
    | with_reducible assumption
    | (with_reducible refine Sub.trans ?_ hM) <;> exact Sub.lit rfl
    | with_reducible apply State.beginEnd_touches
    | with_reducible apply State.barAnswer_touches
    | with_reducible apply State.partOp_touches
    | with_reducible apply TouchesO.next
    | (with_reducible intro _; try dsimp only)
    | split
    | with_reducible apply Touches1.mk

theorem State.initObject_touches {M : Nat} {s0 : State} (s : State) (p o count owner scope : Nat) (hM : Sub 516 M) (hT :
  Touches M s0 s) : Touches M s0 (State.initObject s p o count owner scope) := by
  refine State.wr_touches _ _ _ (Sub.trans (Sub.lit rfl) hM) ?_
  exact State.setObj_touches _ _ _ (fun _ _ => rfl) (Sub.trans (Sub.lit rfl) hM) hT

theorem State.loadSync_touches {M : Nat} {s0 : State} (s : State) (p : Nat) (x : Image) (hM : Sub 826328710340529966 M) (hT
  : Touches M s0 s) : TouchesE M s0 (State.loadSync s p x) := by
  unfold State.loadSync
  try dsimp only
  repeat' first
    | with_reducible assumption
    | (with_reducible refine Sub.trans ?_ hM) <;> exact Sub.lit rfl
    | with_reducible apply State.wr_touches
    | with_reducible apply State.regWrite_touches
    | with_reducible apply State.initObject_touches
    | with_reducible exact TouchesE.error
    | with_reducible apply TouchesE.ok
    | with_reducible apply Touches.foldl
    | with_reducible apply Touches1.foldl
    | with_reducible apply Touches1.fst
    | (with_reducible intro _; try dsimp only)
    | split
    | with_reducible apply Touches1.mk

theorem State.makeRegion_touches {M : Nat} {s0 : State} (s : State) (p w : Nat) (hM : Sub 4 M) (hT : Touches M s0 s) :
  TouchesP M s0 (State.makeRegion s p w) := by
  unfold State.makeRegion
  try dsimp only
  repeat' first
    | with_reducible assumption
    | (with_reducible refine Sub.trans ?_ hM) <;> exact Sub.lit rfl
    | with_reducible apply State.setReg_touches
    | with_reducible apply State.wr_touches
    | with_reducible apply Touches1.fst
    | with_reducible exact TouchesP.none
    | with_reducible apply TouchesP.some
    | with_reducible apply TouchesP.map
    | with_reducible apply TouchesP.findSome
    | with_reducible apply TouchesP.orElse
    | with_reducible exact TouchesP.none
    | (with_reducible intro _; try dsimp only)
    | split
    | with_reducible apply Touches1.mk

theorem State.makeRegions_touches {M : Nat} {s0 : State} (s : State) (p : Nat) (x : Image) (hM : Sub 4 M) (hT : Touches M
  s0 s) : TouchesF M s0 (State.makeRegions s p x) := by
  unfold State.makeRegions
  refine TouchesF.foldl _ (fun acc i ha => ?_) (TouchesF.ok (Touches1.mk hT))
  split
  · with_reducible exact TouchesF.error
  · have h := Touches1.fst (ha _ rfl)
    split
    · exact TouchesF.ok (Touches1.mk h)
    · split
      · with_reducible exact TouchesF.error
      · exact TouchesF.ok (Touches1.mk (Touches1.fst (TouchesP.elim (by assumption) (State.makeRegion_touches _ _ _ hM h))))

theorem State.sealRegions_touches {M : Nat} {s0 : State} (s : State) (p : Nat) (x : Image) (regs : List Nat) (hM : Sub 4 M)
  (hT : Touches M s0 s) : Touches M s0 (State.sealRegions s p x regs) := by
  unfold State.sealRegions
  try dsimp only
  repeat' first
    | with_reducible assumption
    | (with_reducible refine Sub.trans ?_ hM) <;> exact Sub.lit rfl
    | with_reducible apply State.wr_touches
    | with_reducible apply Touches.foldl
    | with_reducible apply Touches1.foldl
    | with_reducible apply Touches1.fst
    | (with_reducible intro _; try dsimp only)
    | split
    | with_reducible apply Touches1.mk

theorem State.takeClaims_touches {M : Nat} {s0 : State} (s : State) (p object cpa : Nat) (x : Image) (made kept : List Nat)
  (hM : Sub 140737488355588 M) (hT : Touches M s0 s) : Touches M s0 (State.takeClaims s p object cpa x made kept) := by
  unfold State.takeClaims
  try dsimp only
  repeat' first
    | with_reducible assumption
    | (with_reducible refine Sub.trans ?_ hM) <;> exact Sub.lit rfl
    | with_reducible apply State.haltCore_touches
    | with_reducible apply State.wr_touches
    | with_reducible apply State.setJob_touches
    | with_reducible apply State.setCore_touches
    | with_reducible apply Touches.foldl
    | with_reducible apply Touches1.foldl
    | with_reducible apply Touches1.fst
    | (with_reducible intro _; try dsimp only)
    | split
    | with_reducible apply Touches1.mk

theorem State.loadWrite_touches {M : Nat} {s0 : State} (s : State) (a : Nat) (bs : List (BitVec 8)) (hM : Sub 234881068 M)
  (hT : Touches M s0 s) : Touches M s0 (State.loadWrite s a bs) := by
  unfold State.loadWrite
  try dsimp only
  repeat' first
    | with_reducible assumption
    | (with_reducible refine Sub.trans ?_ hM) <;> exact Sub.lit rfl
    | with_reducible apply State.writeVia_touches
    | (with_reducible intro _; try dsimp only)
    | split

theorem State.restoreBlocks_touches {M : Nat} {s0 : State} (s : State) (im : List Host.Cell) (off : Nat) (l : List (Nat ×
  Nat)) (hM : Sub 234881068 M) (hT : Touches M s0 s) : Touches M s0 (State.restoreBlocks s im off l) := by
  unfold State.restoreBlocks
  try dsimp only
  repeat' first
    | with_reducible assumption
    | (with_reducible refine Sub.trans ?_ hM) <;> exact Sub.lit rfl
    | with_reducible apply State.loadWrite_touches
    | with_reducible apply Touches.foldl
    | with_reducible apply Touches1.foldl
    | with_reducible apply Touches1.fst
    | (with_reducible intro _; try dsimp only)
    | split
    | with_reducible apply Touches1.mk

theorem State.restoreSection_touches {M : Nat} {s0 : State} (s : State) (p : Nat) (im : List Host.Cell) (x : Nat × Bool ×
  Nat × Nat × Nat × Nat) (hM : Sub 234881068 M) (hT : Touches M s0 s) : Touches M s0 (State.restoreSection s p im x) := by
  unfold State.restoreSection
  try dsimp only
  repeat' first
    | with_reducible assumption
    | (with_reducible refine Sub.trans ?_ hM) <;> exact Sub.lit rfl
    | with_reducible apply State.restoreBlocks_touches
    | with_reducible apply State.loadWrite_touches
    | (with_reducible intro _; try dsimp only)
    | split

theorem State.holdTransfers_touches {M : Nat} {s0 : State} (s : State) (o : Nat) (hM : Sub 549755813892 M) (hT : Touches M
  s0 s) : Touches M s0 (State.holdTransfers s o) := by
  unfold State.holdTransfers
  try dsimp only
  repeat' first
    | with_reducible assumption
    | (with_reducible refine Sub.trans ?_ hM) <;> exact Sub.lit rfl
    | with_reducible apply State.modChan_touches
    | with_reducible apply State.setChanState_touches
    | with_reducible apply Touches.foldl
    | with_reducible apply Touches1.foldl
    | with_reducible apply Touches1.fst
    | (with_reducible intro _; try dsimp only)
    | split
    | with_reducible apply Touches1.mk

theorem State.beginRecovery_touches {M : Nat} {s0 : State} (s : State) (o offset : Nat) (hM : Sub 4947835879428 M) (hT :
  Touches M s0 s) : TouchesQ M s0 (State.beginRecovery s o offset) := by
  unfold State.beginRecovery
  try dsimp only
  repeat' first
    | with_reducible assumption
    | (with_reducible refine Sub.trans ?_ hM) <;> exact Sub.lit rfl
    | with_reducible apply State.setRecoveries_touches
    | with_reducible apply State.wr_touches
    | with_reducible apply State.holdTransfers_touches
    | with_reducible apply State.raise_touches
    | with_reducible apply State.count_touches
    | with_reducible exact TouchesQ.none
    | with_reducible apply TouchesQ.some
    | with_reducible apply Touches.foldl
    | with_reducible apply Touches1.foldl
    | with_reducible apply Touches1.fst
    | (with_reducible intro _; try dsimp only)
    | split
    | with_reducible apply Touches1.mk

theorem State.sourceLost_touches {M : Nat} {s0 : State} (s : State) (p o u : Nat) (x : FlashObj) (hM : Sub 4947835879428 M)
  (hT : Touches M s0 s) : Touches M s0 (State.sourceLost s p o u x) := by
  unfold State.sourceLost
  try dsimp only
  repeat' first
    | with_reducible assumption
    | (with_reducible refine Sub.trans ?_ hM) <;> exact Sub.lit rfl
    | with_reducible apply State.raise_touches
    | with_reducible apply State.beginRecovery_touches
    | with_reducible apply State.count_touches
    | (with_reducible apply TouchesQ.elim; with_reducible assumption)
    | (with_reducible intro _; try dsimp only)
    | split

theorem State.countModes_touches {M : Nat} {s0 : State} (s : State) (m : Nat) (hM : Sub 33554436 M) (hT : Touches M s0 s) :
  Touches M s0 (State.countModes s m) := by
  unfold State.countModes
  try dsimp only
  repeat' first
    | with_reducible assumption
    | (with_reducible refine Sub.trans ?_ hM) <;> exact Sub.lit rfl
    | with_reducible apply State.count_touches
    | (with_reducible intro _; try dsimp only)
    | split

theorem State.readUnitsAs_touches {M : Nat} {s0 : State} (s : State) (unit p o : Nat) (x : FlashObj) (y0 : List Nat) (hM :
  Sub 33554436 M) (hT : Touches M s0 s) : Touches1 M s0 (State.readUnitsAs s unit p o x y0) := by
  induction y0 generalizing s with
  | nil =>
    unfold State.readUnitsAs
    try dsimp only
    repeat' first
      | with_reducible assumption
      | (with_reducible refine Sub.trans ?_ hM) <;> exact Sub.lit rfl
      | with_reducible apply State.raise_touches
      | with_reducible apply ih
      | with_reducible apply State.countModes_touches
      | with_reducible apply Touches1.fst
      | (with_reducible intro _; try dsimp only)
      | split
      | with_reducible apply Touches1.mk
  | cons k t ih =>
    unfold State.readUnitsAs
    try dsimp only
    repeat' first
      | with_reducible assumption
      | (with_reducible refine Sub.trans ?_ hM) <;> exact Sub.lit rfl
      | with_reducible apply State.raise_touches
      | with_reducible apply ih
      | with_reducible apply State.countModes_touches
      | with_reducible apply Touches1.fst
      | (with_reducible intro _; try dsimp only)
      | split
      | with_reducible apply Touches1.mk

theorem State.sourceBytes_touches {M : Nat} {s0 : State} (s : State) (p object cpa off n : Nat) (hM : Sub 4947835879428 M)
  (hT : Touches M s0 s) : Touches1 M s0 (State.sourceBytes s p object cpa off n) := by
  unfold State.sourceBytes
  try dsimp only
  repeat' first
    | with_reducible assumption
    | (with_reducible refine Sub.trans ?_ hM) <;> exact Sub.lit rfl
    | with_reducible apply State.refuseAccess_touches
    | with_reducible apply State.raise_touches
    | with_reducible apply State.sourceLost_touches
    | with_reducible apply State.readUnitsAs_touches
    | with_reducible apply State.raiseAs_touches
    | with_reducible apply Touches1.fst
    | (with_reducible intro _; try dsimp only)
    | split
    | with_reducible apply Touches1.mk

theorem State.loadEntry_touches {M : Nat} {s0 : State} (s : State) (p object cpa : Nat) (kept : List Nat) (w : Nat) (hM :
  Sub 4948037206060 M) (hT : Touches M s0 s) : Touches1 M s0 (State.loadEntry s p object cpa kept w) := by
  unfold State.loadEntry
  try dsimp only
  repeat' first
    | with_reducible assumption
    | (with_reducible refine Sub.trans ?_ hM) <;> exact Sub.lit rfl
    | with_reducible apply State.refuseAccess_touches
    | with_reducible apply State.store_touches
    | with_reducible apply State.sourceBytes_touches
    | with_reducible apply Touches1.fst
    | (with_reducible intro _; try dsimp only)
    | split
    | with_reducible apply Touches1.mk

theorem State.loadList_touches {M : Nat} {s0 : State} (s : State) (p object cpa : Nat) (kept : List Nat) (y0 : List Nat)
  (hM : Sub 4948037206060 M) (hT : Touches M s0 s) : Touches1 M s0 (State.loadList s p object cpa kept y0) := by
  fun_induction State.loadList s p object cpa kept y0
  all_goals try dsimp +zetaDelta only at *
  all_goals repeat' first
    | with_reducible assumption
    | (with_reducible refine Sub.trans ?_ hM) <;> exact Sub.lit rfl
    | with_reducible apply State.loadEntry_touches
    | with_reducible apply Touches1.fst
    | with_reducible apply_assumption
    | (with_reducible intro _; try dsimp only)
    | split
    | with_reducible apply Touches1.mk

theorem State.placeJob_touches {M : Nat} {s0 : State} (s : State) (p object cpa : Nat) (x : Image) (restore : Bool) (upTo :
  Option Nat) (others : Option (List Nat)) (images : List (List (BitVec 8))) (hM : Sub 826328710340529966 M) (hT : Touches
  M s0 s) : Touches1 M s0 (State.placeJob s p object cpa x restore upTo others images) := by
  unfold State.placeJob
  split
  · exact hT
  · rename_i t made kept e
    have ht : Touches M s0 t := Touches1.fst (TouchesF.elim e (State.makeRegions_touches _ _ _ (Sub.trans (Sub.lit rfl) hM) hT))
    have ht := State.takeClaims_touches _ p object cpa x made kept (Sub.trans (Sub.lit rfl) hM) ht
    have ht := Touches1.fst (State.loadList_touches _ p object cpa kept ((List.range (mfLoads x.m)).map x.load)
      (Sub.trans (Sub.lit rfl) hM) ht)
    dsimp only
    split
    · exact ht
    · split
      · exact ht
      · rename_i u hu
        have hv : Touches M s0 u := TouchesE.elim hu (State.loadSync_touches _ _ _ (Sub.trans (Sub.lit rfl) hM)
          (State.sealRegions_touches _ _ _ _ (Sub.trans (Sub.lit rfl) hM) ht))
        split
        · split
          · exact hv
          · refine Touches1.mk (Touches.foldl _ (fun s y h => ?_) hv)
            exact State.restoreSection_touches _ _ _ _ (Sub.trans (Sub.lit rfl) hM) h
        · exact hv

theorem State.loadRefused_touches {M : Nat} {s0 : State} (s : State) (p : Nat) (e : LoadErr) (newest : Nat) (hM : Sub
  33554436 M) (hT : Touches M s0 s) : Touches M s0 (State.loadRefused s p e newest) := by
  unfold State.loadRefused
  try dsimp only
  repeat' first
    | with_reducible assumption
    | (with_reducible refine Sub.trans ?_ hM) <;> exact Sub.lit rfl
    | with_reducible apply State.wr_touches
    | with_reducible apply State.raise_touches
    | (with_reducible intro _; try dsimp only)
    | split

theorem State.readImage_touches {M : Nat} {s0 : State} (s : State) (p object cpa : Nat) (hM : Sub 4947835879428 M) (hT :
  Touches M s0 s) : Touches1 M s0 (State.readImage s p object cpa) := by
  unfold State.readImage
  try dsimp only
  repeat' first
    | with_reducible assumption
    | (with_reducible refine Sub.trans ?_ hM) <;> exact Sub.lit rfl
    | with_reducible apply State.sourceBytes_touches
    | with_reducible apply Touches1.fst
    | (with_reducible intro _; try dsimp only)
    | split
    | with_reducible apply Touches1.mk

theorem State.undoJob_touches {M : Nat} {s0 : State} (s : State) (p : Nat) (regs : List Nat) (hM : Sub 577471823558673196
  M) (hT : Touches M s0 s) : Touches M s0 (State.undoJob s p regs) := by
  unfold State.undoJob
  try dsimp only
  repeat' first
    | with_reducible assumption
    | (with_reducible refine Sub.trans ?_ hM) <;> exact Sub.lit rfl
    | with_reducible apply State.resetRange_touches
    | with_reducible apply State.releaseJob_touches
    | (with_reducible intro _; try dsimp only)
    | split

theorem State.enableFeeds_touches {M : Nat} {s0 : State} (s : State) (y0 : List Nat) (hM : Sub 1099561959428 M) (hT :
  Touches M s0 s) : Touches1 M s0 (State.enableFeeds s y0) := by
  fun_induction State.enableFeeds s y0
  all_goals try dsimp only
  all_goals repeat' first
    | with_reducible assumption
    | (with_reducible refine Sub.trans ?_ hM) <;> exact Sub.lit rfl
    | with_reducible apply execCadFeedEnable_touches
    | with_reducible apply State.after_touches
    | with_reducible apply Touches1.fst
    | with_reducible apply_assumption
    | (with_reducible intro _; try dsimp only)
    | split
    | with_reducible apply Touches1.mk

theorem State.lockCores_touches {M : Nat} {s0 : State} (s : State) (p k0 k1 step : Nat) (hM : Sub 4 M) (hT : Touches M s0
  s) : Touches M s0 (State.lockCores s p k0 k1 step) := by
  unfold State.lockCores
  try dsimp only
  repeat' first
    | with_reducible assumption
    | (with_reducible refine Sub.trans ?_ hM) <;> exact Sub.lit rfl
    | with_reducible apply State.setReg_touches
    | with_reducible apply State.wr_touches
    | with_reducible apply Touches.foldl
    | with_reducible apply Touches1.foldl
    | with_reducible apply Touches1.fst
    | (with_reducible intro _; try dsimp only)
    | split
    | with_reducible apply Touches1.mk

theorem State.enableOpt_touches {M : Nat} {s0 : State} (s : State) (p : Nat) (x : Image) (back : Option Restored) (hM : Sub
  33554436 M) (hT : Touches M s0 s) : Touches1 M s0 (State.enableOpt s p x back) := by
  unfold State.enableOpt
  try dsimp only
  repeat' first
    | with_reducible assumption
    | (with_reducible refine Sub.trans ?_ hM) <;> exact Sub.lit rfl
    | with_reducible apply State.optEnable_touches
    | with_reducible apply Touches1.fst
    | (with_reducible intro _; try dsimp only)
    | split
    | with_reducible apply Touches1.mk

theorem State.keepMem_touches {M : Nat} {s0 : State} (s : State) (keep : Nat → Bool) (hM : Sub 8 M) (hT : Touches M s0 s) :
  Touches M s0 (State.keepMem s keep) := by
  refine Touches.updWf hM hT (fun f hf => by cases f <;> first | rfl | exact absurd hf (by decide)) rfl ?_
  simp only [canonical_iff]
  rintro ⟨h1, h2, h3, h4, h5⟩
  exact ⟨Sparse.wf_filter h1, h2, h3, h4, h5⟩

theorem State.zeroRange_touches {M : Nat} {s0 : State} (s : State) (a n : Nat) (hM : Sub 234881036 M) (hT : Touches M s0 s)
  : Touches M s0 (State.zeroRange s a n) := by
  unfold State.zeroRange
  try dsimp only
  repeat' first
    | with_reducible assumption
    | (with_reducible refine Sub.trans ?_ hM) <;> exact Sub.lit rfl
    | with_reducible apply State.setBad_touches
    | with_reducible apply State.refuseAccess_touches
    | with_reducible apply State.keepMem_touches
    | with_reducible apply State.clearPoison_touches
    | (with_reducible intro _; try dsimp only)
    | split

theorem State.newTables_touches {M : Nat} {s0 : State} (s : State) (p : Nat) (hM : Sub 234881068 M) (hT : Touches M s0 s) :
  Touches M s0 (State.newTables s p) := by
  unfold State.newTables
  try dsimp only
  repeat' first
    | with_reducible assumption
    | (with_reducible refine Sub.trans ?_ hM) <;> exact Sub.lit rfl
    | with_reducible apply State.writeVia_touches
    | with_reducible apply State.zeroRange_touches
    | with_reducible apply Touches.foldl
    | with_reducible apply Touches1.foldl
    | with_reducible apply Touches1.fst
    | (with_reducible intro _; try dsimp only)
    | split
    | with_reducible apply Touches1.mk

theorem State.enablePgv_touches {M : Nat} {s0 : State} (s : State) (p : Nat) (x : Image) (back : Option Restored) (hM : Sub
  140737723236396 M) (hT : Touches M s0 s) : Touches1 M s0 (State.enablePgv s p x back) := by
  unfold State.enablePgv
  try dsimp only
  repeat' first
    | with_reducible assumption
    | (with_reducible refine Sub.trans ?_ hM) <;> exact Sub.lit rfl
    | with_reducible apply State.pgvEnable_touches
    | with_reducible apply Touches1.fst
    | (with_reducible intro _; try dsimp only)
    | split
    | with_reducible apply Touches1.mk

theorem State.setRole_touches {M : Nat} {s0 : State} (s : State) (p g r : Nat) (x : Role) (hM : Sub 234881068 M) (hT :
  Touches M s0 s) : Touches M s0 (State.setRole s p g r x) := by
  unfold State.setRole
  try dsimp only
  repeat' first
    | with_reducible assumption
    | (with_reducible refine Sub.trans ?_ hM) <;> exact Sub.lit rfl
    | with_reducible apply State.govWrite_touches
    | (with_reducible intro _; try dsimp only)
    | split

theorem State.raiseFloors_touches {M : Nat} {s0 : State} (s : State) (p m : Nat) (hM : Sub 234881068 M) (hT : Touches M s0
  s) : TouchesE M s0 (State.raiseFloors s p m) := by
  unfold State.raiseFloors
  try dsimp only
  repeat' first
    | with_reducible assumption
    | (with_reducible refine Sub.trans ?_ hM) <;> exact Sub.lit rfl
    | with_reducible apply State.setRole_touches
    | with_reducible exact TouchesE.error
    | with_reducible apply TouchesE.ok
    | with_reducible apply Touches.foldl
    | with_reducible apply Touches1.foldl
    | with_reducible apply Touches1.fst
    | (with_reducible intro _; try dsimp only)
    | split
    | with_reducible apply Touches1.mk

theorem State.enableJob_touches {M : Nat} {s0 : State} (s : State) (p : Nat) (x : Image) (back : Option Restored) (hM : Sub
  141837251641388 M) (hT : Touches M s0 s) : Touches1 M s0 (State.enableJob s p x back) := by
  unfold State.enableJob
  try dsimp only
  repeat' first
    | with_reducible assumption
    | (with_reducible refine Sub.trans ?_ hM) <;> exact Sub.lit rfl
    | with_reducible apply State.enableFeeds_touches
    | with_reducible apply State.lockCores_touches
    | with_reducible apply State.enableOpt_touches
    | with_reducible apply State.newTables_touches
    | with_reducible apply State.modJob_touches
    | with_reducible apply State.enablePgv_touches
    | with_reducible apply State.raiseFloors_touches
    | (with_reducible apply TouchesE.elim; with_reducible assumption)
    | with_reducible apply Touches1.fst
    | (with_reducible intro _; try dsimp only)
    | split
    | with_reducible apply Touches1.mk

theorem State.loadJob_touches {M : Nat} {s0 : State} (s : State) (p object cpa : Nat) (restore : Bool) (upTo : Option Nat)
  (others : Option (List Nat)) (images : List (List (BitVec 8))) (fails : List (Nat × Nat)) (hM : Sub 826330909363916718 M)
  (hT : Touches M s0 s) : Touches M s0 (State.loadJob s p object cpa restore upTo others images fails) := by
  unfold State.loadJob
  try dsimp only
  repeat' first
    | with_reducible assumption
    | (with_reducible refine Sub.trans ?_ hM) <;> exact Sub.lit rfl
    | with_reducible apply State.placeJob_touches
    | with_reducible apply State.requestPlan_touches
    | with_reducible apply State.wr_touches
    | with_reducible apply State.loadRefused_touches
    | with_reducible apply State.readImage_touches
    | with_reducible apply State.jobBoundary_touches
    | with_reducible apply State.undoJob_touches
    | with_reducible apply State.enableJob_touches
    | with_reducible apply Touches1.fst
    | (with_reducible intro _; try dsimp only)
    | split
    | with_reducible apply Touches1.mk

theorem execPartitionLoad_touches {M : Nat} {s0 : State} (pf : Bool) (p : Nat) (others : Option (List Nat)) (images : List
  (List (BitVec 8))) (fails : List (Nat × Nat)) (s : State) (hM : Sub 826330909363916718 M) (hT : Touches M s0 s) :
  TouchesO M s0 (execPartitionLoad pf p others images fails s) := by
  unfold execPartitionLoad
  try dsimp only
  repeat' first
    | with_reducible assumption
    | (with_reducible refine Sub.trans ?_ hM) <;> exact Sub.lit rfl
    | with_reducible apply State.loadJob_touches
    | with_reducible apply State.barAnswer_touches
    | with_reducible apply State.partOp_touches
    | with_reducible apply TouchesO.next
    | (with_reducible intro _; try dsimp only)
    | split
    | with_reducible apply Touches1.mk

theorem execPartitionSuspend_touches {M : Nat} {s0 : State} (pf : Bool) (p : Nat) (s : State) (hM : Sub 140737538818052 M)
  (hT : Touches M s0 s) : TouchesO M s0 (execPartitionSuspend pf p s) := by
  unfold execPartitionSuspend
  try dsimp only
  repeat' first
    | with_reducible assumption
    | (with_reducible refine Sub.trans ?_ hM) <;> exact Sub.lit rfl
    | with_reducible apply State.wr_touches
    | with_reducible apply State.modJob_touches
    | with_reducible apply State.setHaltAt_touches
    | with_reducible apply State.barAnswer_touches
    | with_reducible apply State.partOp_touches
    | with_reducible apply TouchesO.next
    | (with_reducible intro _; try dsimp only)
    | split
    | with_reducible apply Touches1.mk

theorem State.runJob_touches {M : Nat} {s0 : State} (s : State) (p : Nat) (hM : Sub 33554692 M) (hT : Touches M s0 s) :
  Touches M s0 (State.runJob s p) := by
  unfold State.runJob
  try dsimp only
  repeat' first
    | with_reducible assumption
    | (with_reducible refine Sub.trans ?_ hM) <;> exact Sub.lit rfl
    | with_reducible apply State.wr_touches
    | with_reducible apply State.resumeCore_touches
    | with_reducible apply Touches.foldl
    | with_reducible apply Touches1.foldl
    | with_reducible apply Touches1.fst
    | (with_reducible intro _; try dsimp only)
    | split
    | with_reducible apply Touches1.mk

theorem execPartitionRun_touches {M : Nat} {s0 : State} (pf : Bool) (p : Nat) (s : State) (hM : Sub 140737538818308 M) (hT
  : Touches M s0 s) : TouchesO M s0 (execPartitionRun pf p s) := by
  unfold execPartitionRun
  try dsimp only
  repeat' first
    | with_reducible assumption
    | (with_reducible refine Sub.trans ?_ hM) <;> exact Sub.lit rfl
    | with_reducible apply State.barAnswer_touches
    | with_reducible apply State.partOp_touches
    | with_reducible apply State.runJob_touches
    | with_reducible apply TouchesO.next
    | (with_reducible intro _; try dsimp only)
    | split
    | with_reducible apply Touches1.mk

theorem execPartitionDestroy_touches {M : Nat} {s0 : State} (pf : Bool) (p : Nat) (s : State) (hM : Sub 141356484739884 M)
  (hT : Touches M s0 s) : TouchesO M s0 (execPartitionDestroy pf p s) := by
  unfold execPartitionDestroy
  try dsimp only
  repeat' first
    | with_reducible assumption
    | (with_reducible refine Sub.trans ?_ hM) <;> exact Sub.lit rfl
    | with_reducible apply State.destroy_touches
    | with_reducible apply State.barAnswer_touches
    | with_reducible apply State.partOp_touches
    | with_reducible apply TouchesO.next
    | (with_reducible intro _; try dsimp only)
    | split
    | with_reducible apply Touches1.mk

theorem State.moveObjects_touches {M : Nat} {s0 : State} (s : State) (p src dst : Nat) (hM : Sub 512 M) (hT : Touches M s0
  s) : Touches M s0 (State.moveObjects s p src dst) := by
  refine Touches.foldl _ (fun t o ht => ?_) hT
  dsimp only
  split
  · exact State.setObj_touches _ _ _ (fun hr hc => hr o hc) hM ht
  · exact ht

theorem execPartitionResume_touches {M : Nat} {s0 : State} (pf : Bool) (p : Nat) (s : State) (hM : Sub 141287294632708 M)
  (hT : Touches M s0 s) : TouchesO M s0 (execPartitionResume pf p s) := by
  unfold execPartitionResume
  try dsimp only
  repeat' first
    | with_reducible assumption
    | (with_reducible refine Sub.trans ?_ hM) <;> exact Sub.lit rfl
    | with_reducible apply State.resumeChan_touches
    | with_reducible apply State.wr_touches
    | with_reducible apply State.moveObjects_touches
    | with_reducible apply State.barAnswer_touches
    | with_reducible apply State.partOp_touches
    | with_reducible apply State.runJob_touches
    | with_reducible apply TouchesO.next
    | with_reducible apply Touches.foldl
    | with_reducible apply Touches1.foldl
    | with_reducible apply Touches1.fst
    | (with_reducible intro _; try dsimp only)
    | split
    | with_reducible apply Touches1.mk

theorem State.discardOffload_touches {M : Nat} {s0 : State} (s : State) (p : Nat) (hM : Sub 8 M) (hT : Touches M s0 s) :
  Touches M s0 (State.discardOffload s p) := by
  unfold State.discardOffload
  try dsimp only
  repeat' first
    | with_reducible assumption
    | (with_reducible refine Sub.trans ?_ hM) <;> exact Sub.lit rfl
    | with_reducible apply State.keepMem_touches
    | (with_reducible intro _; try dsimp only)
    | split

theorem State.restart_touches {M : Nat} {s0 : State} (s : State) (p : Nat) (others : Option (List Nat)) (images : List
  (List (BitVec 8))) (fails : List (Nat × Nat)) (hM : Sub 826330909366017982 M) (hT : Touches M s0 s) : Touches M s0
  (State.restart s p others images fails) := by
  unfold State.restart
  try dsimp only
  repeat' first
    | with_reducible assumption
    | (with_reducible refine Sub.trans ?_ hM) <;> exact Sub.lit rfl
    | with_reducible apply State.endSegments_touches
    | with_reducible apply State.discardOffload_touches
    | with_reducible apply State.jobEndObjects_touches
    | with_reducible apply State.loadJob_touches
    | with_reducible apply State.undoJob_touches
    | (with_reducible intro _; try dsimp only)
    | split

theorem execPartitionRestart_touches {M : Nat} {s0 : State} (pf : Bool) (p : Nat) (others : Option (List Nat)) (images :
  List (List (BitVec 8))) (fails : List (Nat × Nat)) (s : State) (hM : Sub 826330909366017982 M) (hT : Touches M s0 s) :
  TouchesO M s0 (execPartitionRestart pf p others images fails s) := by
  unfold execPartitionRestart
  try dsimp only
  repeat' first
    | with_reducible assumption
    | (with_reducible refine Sub.trans ?_ hM) <;> exact Sub.lit rfl
    | with_reducible apply State.restart_touches
    | with_reducible apply State.barAnswer_touches
    | with_reducible apply State.partOp_touches
    | with_reducible apply TouchesO.next
    | (with_reducible intro _; try dsimp only)
    | split
    | with_reducible apply Touches1.mk

theorem execPartitionCreate_touches {M : Nat} {s0 : State} (pf : Bool) (p : Nat) (s : State) (hM : Sub 140737538818052 M)
  (hT : Touches M s0 s) : TouchesO M s0 (execPartitionCreate pf p s) := by
  unfold execPartitionCreate
  try dsimp only
  repeat' first
    | with_reducible assumption
    | (with_reducible refine Sub.trans ?_ hM) <;> exact Sub.lit rfl
    | with_reducible apply State.wr_touches
    | with_reducible apply State.barAnswer_touches
    | with_reducible apply State.partOp_touches
    | with_reducible apply TouchesO.next
    | (with_reducible intro _; try dsimp only)
    | split
    | with_reducible apply Touches1.mk

theorem State.writePartOp_touches {M : Nat} {s0 : State} (s : State) (x : Wr) (p : Nat) (hM : Sub 826330909366017982 M) (hT
  : Touches M s0 s) : Touches M s0 (State.writePartOp s x p) := by
  unfold State.writePartOp
  try dsimp only
  repeat' first
    | with_reducible assumption
    | (with_reducible refine Sub.trans ?_ hM) <;> exact Sub.lit rfl
    | with_reducible apply execPartitionEnd_touches
    | with_reducible apply execPartitionLoad_touches
    | with_reducible apply State.partRefused_touches
    | with_reducible apply execPartitionSuspend_touches
    | with_reducible apply execPartitionRun_touches
    | with_reducible apply execPartitionDestroy_touches
    | with_reducible apply execPartitionResume_touches
    | with_reducible apply State.after_touches
    | with_reducible apply execPartitionRestart_touches
    | with_reducible apply execPartitionCreate_touches
    | (with_reducible intro _; try dsimp only)
    | split

theorem State.registerWrite_touches {M : Nat} {s0 : State} (s : State) (x : Wr) (hM : Sub 1152921365020409790 M) (hT :
  Touches M s0 s) : Touches M s0 (State.registerWrite s x) := by
  unfold State.registerWrite
  try dsimp only
  repeat' first
    | with_reducible assumption
    | (with_reducible refine Sub.trans ?_ hM) <;> exact Sub.lit rfl
    | with_reducible apply State.regWrite_touches
    | with_reducible apply State.writeRefCtrl_touches
    | with_reducible apply State.writePartOp_touches
    | (with_reducible intro _; try dsimp only)
    | split

theorem State.busWrite_touches {M : Nat} {s0 : State} (s : State) (m : Master) (a n value : Nat) (hM : Sub
  1152921365020409790 M) (hT : Touches M s0 s) : Touches M s0 (State.busWrite s m a n value) := by
  unfold State.busWrite
  try dsimp only
  repeat' first
    | with_reducible assumption
    | (with_reducible refine Sub.trans ?_ hM) <;> exact Sub.lit rfl
    | with_reducible apply State.unsupportedRequest_touches
    | with_reducible apply State.gateCount_touches
    | with_reducible apply State.eventHeadWrite_touches
    | with_reducible apply State.privEvent_touches
    | with_reducible apply State.count_touches
    | with_reducible apply State.registerWrite_touches
    | (with_reducible intro _; try dsimp only)
    | split

theorem State.arrivePosted_touches {M : Nat} {s0 : State} (s : State) (hM : Sub 1152921365020409790 M) (hT : Touches M s0
  s) : Touches M s0 (State.arrivePosted s) := by
  unfold State.arrivePosted
  try dsimp only
  repeat' first
    | with_reducible assumption
    | (with_reducible refine Sub.trans ?_ hM) <;> exact Sub.lit rfl
    | with_reducible apply State.setPosted_touches
    | with_reducible apply State.busWrite_touches
    | (with_reducible intro _; try dsimp only)
    | split

theorem State.setTag_touches {M : Nat} {s0 : State} (s : State) (x : Nat) (hM : Sub 274877906944 M) (hT : Touches M s0 s) :
  Touches M s0 (State.setTag s x) := by
  unfold State.setTag
  try dsimp only
  repeat' first
    | with_reducible assumption
    | (with_reducible refine Sub.trans ?_ hM) <;> exact Sub.lit rfl
    | with_reducible apply Touches.set_tag
    | (with_reducible intro _; try dsimp only)
    | split

theorem State.request_touches {M : Nat} {s0 : State} (s : State) (unit : Nat) (r : Req) (len arg data : Nat) (hM : Sub
  347892350976 M) (hT : Touches M s0 s) : Touches M s0 (State.request s unit r len arg data) := by
  unfold State.request
  try dsimp only
  repeat' first
    | with_reducible assumption
    | (with_reducible refine Sub.trans ?_ hM) <;> exact Sub.lit rfl
    | with_reducible apply State.setTag_touches
    | with_reducible apply State.enqueueMsg_touches
    | with_reducible apply State.setReqs_touches
    | (with_reducible intro _; try dsimp only)
    | split

theorem State.askRemote_touches {M : Nat} {s0 : State} (s : State) (x : Xfer) (chip : Nat) (parts : List (Nat × Nat × Nat))
  (hM : Sub 347892350976 M) (hT : Touches M s0 s) : Touches M s0 (State.askRemote s x chip parts) := by
  unfold State.askRemote
  try dsimp only
  repeat' first
    | with_reducible assumption
    | (with_reducible refine Sub.trans ?_ hM) <;> exact Sub.lit rfl
    | with_reducible apply State.request_touches
    | with_reducible apply Touches.foldl
    | with_reducible apply Touches1.foldl
    | with_reducible apply Touches1.fst
    | (with_reducible intro _; try dsimp only)
    | split
    | with_reducible apply Touches1.mk

theorem State.cacheRead_touches {M : Nat} {s0 : State} (s : State) (a hint : Nat) (hM : Sub 301989892 M) (hT : Touches M s0
  s) : Touches M s0 (State.cacheRead s a hint) := by
  unfold State.cacheRead
  try dsimp only
  repeat' first
    | with_reducible assumption
    | (with_reducible refine Sub.trans ?_ hM) <;> exact Sub.lit rfl
    | with_reducible apply State.setCache_touches
    | with_reducible apply State.count_touches
    | (with_reducible intro _; try dsimp only)
    | split

theorem State.cacheReads_touches {M : Nat} {s0 : State} (s : State) (a n hint : Nat) (hM : Sub 301989892 M) (hT : Touches M
  s0 s) : Touches M s0 (State.cacheReads s a n hint) := by
  unfold State.cacheReads
  try dsimp only
  repeat' first
    | with_reducible assumption
    | (with_reducible refine Sub.trans ?_ hM) <;> exact Sub.lit rfl
    | with_reducible apply State.cacheRead_touches
    | with_reducible apply Touches.foldl
    | with_reducible apply Touches1.foldl
    | with_reducible apply Touches1.fst
    | (with_reducible intro _; try dsimp only)
    | split
    | with_reducible apply Touches1.mk

theorem State.dmaFetch_touches {M : Nat} {s0 : State} (s : State) (a : Agent) (addr n hint : Nat) (hM : Sub 301989892 M)
  (hT : Touches M s0 s) : Touches1 M s0 (State.dmaFetch s a addr n hint) := by
  unfold State.dmaFetch
  try dsimp only
  repeat' first
    | with_reducible assumption
    | (with_reducible refine Sub.trans ?_ hM) <;> exact Sub.lit rfl
    | with_reducible apply State.cacheReads_touches
    | with_reducible apply State.refuseAccess_touches
    | with_reducible apply State.raiseAs_touches
    | with_reducible apply Touches1.fst
    | (with_reducible intro _; try dsimp only)
    | split
    | with_reducible apply Touches1.mk

theorem State.dmaRead_touches {M : Nat} {s0 : State} (s : State) (a : Agent) (addr n hint : Nat) (hM : Sub 301989892 M) (hT
  : Touches M s0 s) : Touches1 M s0 (State.dmaRead s a addr n hint) := by
  unfold State.dmaRead
  try dsimp only
  repeat' first
    | with_reducible assumption
    | (with_reducible refine Sub.trans ?_ hM) <;> exact Sub.lit rfl
    | with_reducible apply State.raiseAs_touches
    | with_reducible apply State.dmaFetch_touches
    | with_reducible apply Touches1.fst
    | (with_reducible intro _; try dsimp only)
    | split
    | with_reducible apply Touches1.mk

theorem State.askAlternate_touches {M : Nat} {s0 : State} (s : State) (r : Recovery) (place g : Nat) (hM : Sub
  4746240851972 M) (hT : Touches M s0 s) : Touches M s0 (State.askAlternate s r place g) := by
  unfold State.askAlternate
  try dsimp only
  repeat' first
    | with_reducible assumption
    | (with_reducible refine Sub.trans ?_ hM) <;> exact Sub.lit rfl
    | with_reducible apply State.unreachable_touches
    | with_reducible apply State.askRemote_touches
    | with_reducible apply State.setRecovery_touches
    | with_reducible apply State.raise_touches
    | with_reducible apply State.dmaRead_touches
    | with_reducible apply Touches1.fst
    | with_reducible apply Touches.foldl
    | with_reducible apply Touches1.foldl
    | with_reducible apply Touches1.fst
    | (with_reducible intro _; try dsimp only)
    | split
    | with_reducible apply Touches1.mk

theorem State.openObject_touches {M : Nat} {s0 : State} (s : State) (p id length : Nat) (bytes : List Host.Cell) (hM : Sub
  1073741828 M) (hT : Touches M s0 s) : Touches M s0 (State.openObject s p id length bytes) := by
  unfold State.openObject
  try dsimp only
  repeat' first
    | with_reducible assumption
    | (with_reducible refine Sub.trans ?_ hM) <;> exact Sub.lit rfl
    | with_reducible apply State.wr_touches
    | with_reducible apply State.setObject_touches
    | (with_reducible intro _; try dsimp only)
    | split

theorem State.askStripes_touches {M : Nat} {s0 : State} (s : State) (p : Nat) (x : Ckpt) (hM : Sub 141086454448132 M) (hT :
  Touches M s0 s) : Touches M s0 (State.askStripes s p x) := by
  unfold State.askStripes
  try dsimp only
  repeat' first
    | with_reducible assumption
    | (with_reducible refine Sub.trans ?_ hM) <;> exact Sub.lit rfl
    | with_reducible apply State.modJob_touches
    | with_reducible apply State.request_touches
    | with_reducible apply State.openObject_touches
    | with_reducible apply Touches.foldl
    | with_reducible apply Touches1.foldl
    | with_reducible apply Touches1.fst
    | (with_reducible intro _; try dsimp only)
    | split
    | with_reducible apply Touches1.mk

theorem State.autoRun_touches {M : Nat} {s0 : State} (s : State) (p : Nat) (hM : Sub 140737521910020 M) (hT : Touches M s0
  s) : Touches M s0 (State.autoRun s p) := by
  unfold State.autoRun
  try dsimp only
  repeat' first
    | with_reducible assumption
    | (with_reducible refine Sub.trans ?_ hM) <;> exact Sub.lit rfl
    | with_reducible apply State.modJob_touches
    | with_reducible apply State.raise_touches
    | with_reducible apply State.runJob_touches
    | (with_reducible intro _; try dsimp only)
    | split

theorem State.reply_touches {M : Nat} {s0 : State} (s : State) (v : Option Nat) (hM : Sub 16777216 M) (hT : Touches M s0 s)
  : Touches M s0 (State.reply s v) := by
  unfold State.reply
  try dsimp only
  repeat' first
    | with_reducible assumption
    | (with_reducible refine Sub.trans ?_ hM) <;> exact Sub.lit rfl
    | with_reducible apply State.setOut_touches
    | (with_reducible intro _; try dsimp only)
    | split

theorem State.bar4Read_touches {M : Nat} {s0 : State} (s : State) (fn off n : Nat) (hM : Sub 50331652 M) (hT : Touches M s0
  s) : Touches M s0 (State.bar4Read s fn off n) := by
  unfold State.bar4Read
  try dsimp only
  repeat' first
    | with_reducible assumption
    | (with_reducible refine Sub.trans ?_ hM) <;> exact Sub.lit rfl
    | with_reducible apply State.unsupportedRequest_touches
    | with_reducible apply State.reply_touches
    | with_reducible apply State.gateCount_touches
    | (with_reducible intro _; try dsimp only)
    | split

theorem State.raiseXferDesc_touches {M : Nat} {s0 : State} (s : State) (a : Agent) (da w reason : Nat) (hM : Sub 33554432
  M) (hT : Touches M s0 s) : Touches1 M s0 (State.raiseXferDesc s a da w reason) := by
  unfold State.raiseXferDesc
  try dsimp only
  repeat' first
    | with_reducible assumption
    | (with_reducible refine Sub.trans ?_ hM) <;> exact Sub.lit rfl
    | with_reducible apply State.raise_touches
    | with_reducible apply State.raiseAs_touches
    | with_reducible apply Touches1.fst
    | (with_reducible intro _; try dsimp only)
    | split
    | with_reducible apply Touches1.mk

theorem State.startXfer_touches {M : Nat} {s0 : State} (s : State) (a : Agent) (token da w : Nat) (hM : Sub 687228322052 M)
  (hT : Touches M s0 s) : Touches M s0 (State.startXfer s a token da w) := by
  unfold State.startXfer
  try dsimp only
  repeat' first
    | with_reducible assumption
    | (with_reducible refine Sub.trans ?_ hM) <;> exact Sub.lit rfl
    | with_reducible apply State.modChan_touches
    | with_reducible apply State.setSerial_touches
    | with_reducible apply State.setChanState_touches
    | with_reducible apply State.endXfer_touches
    | with_reducible apply State.raiseXferDesc_touches
    | with_reducible apply Touches1.fst
    | (with_reducible intro _; try dsimp only)
    | split
    | with_reducible apply Touches1.mk

theorem State.beginDma_touches {M : Nat} {s0 : State} (s : State) (c k : Nat) (i : Issued) (hM : Sub 687228322052 M) (hT :
  Touches M s0 s) : Touches M s0 (State.beginDma s c k i) := by
  unfold State.beginDma
  try dsimp only
  repeat' first
    | with_reducible assumption
    | (with_reducible refine Sub.trans ?_ hM) <;> exact Sub.lit rfl
    | with_reducible apply State.startXfer_touches
    | with_reducible apply State.began_touches
    | with_reducible apply State.wr_touches
    | with_reducible apply State.raiseXferDesc_touches
    | with_reducible apply State.raiseParity_touches
    | with_reducible apply State.executed_touches
    | with_reducible apply Touches1.fst
    | with_reducible apply Touches.ifSome
    | with_reducible apply Touches1.ifSome
    | with_reducible apply TouchesL.ifSome
    | with_reducible apply TouchesP.ifSome
    | with_reducible apply TouchesO.ifSome
    | (with_reducible intro _; try dsimp only)
    | split
    | with_reducible apply Touches1.mk

theorem State.beginEntryWait_touches {M : Nat} {s0 : State} (s : State) (q w : Nat) (hM : Sub 576460752555413292 M) (hT :
  Touches M s0 s) : Touches M s0 (State.beginEntryWait s q w) := by
  unfold State.beginEntryWait
  try dsimp only
  repeat' first
    | with_reducible assumption
    | (with_reducible refine Sub.trans ?_ hM) <;> exact Sub.lit rfl
    | with_reducible apply State.waitFrom_touches
    | with_reducible apply State.setHeldHeads_touches
    | with_reducible apply State.setHeadWait_touches
    | (with_reducible intro _; try dsimp only)
    | split

theorem State.repaired_touches {M : Nat} {s0 : State} (s : State) (unit action detail : Nat) (hM : Sub 4503599627370496 M)
  (hT : Touches M s0 s) : Touches M s0 (State.repaired s unit action detail) := by
  unfold State.repaired
  try dsimp only
  repeat' first
    | with_reducible assumption
    | (with_reducible refine Sub.trans ?_ hM) <;> exact Sub.lit rfl
    | with_reducible apply State.setReferee_touches
    | (with_reducible intro _; try dsimp only)
    | split

theorem State.bootFail_touches {M : Nat} {s0 : State} (s : State) (cause unit : Nat) (hM : Sub 1134906965437185836 M) (hT :
  Touches M s0 s) : Touches M s0 (State.bootFail s cause unit) := by
  unfold State.bootFail
  try dsimp only
  repeat' first
    | with_reducible assumption
    | (with_reducible refine Sub.trans ?_ hM) <;> exact Sub.lit rfl
    | with_reducible apply State.enterDugout_touches
    | (with_reducible intro _; try dsimp only)
    | split

theorem State.bootCore_touches {M : Nat} {s0 : State} (s : State) (fails : List (Nat × Nat)) (d k : Nat) (hM : Sub
  1134906965437185964 M) (hT : Touches M s0 s) : Touches M s0 (State.bootCore s fails d k) := by
  unfold State.bootCore
  try dsimp only
  repeat' first
    | with_reducible assumption
    | (with_reducible refine Sub.trans ?_ hM) <;> exact Sub.lit rfl
    | with_reducible apply State.repaired_touches
    | with_reducible apply State.benchCore_touches
    | with_reducible apply State.bootFail_touches
    | with_reducible apply State.setBenched_touches
    | with_reducible apply Touches1.fst
    | (with_reducible intro _; try dsimp only)
    | split
    | with_reducible apply Touches1.mk

theorem State.setT1Map_touches {M : Nat} {s0 : State} (s : State) (d m : Nat) (hM : Sub 134217740 M) (hT : Touches M s0 s)
  : Touches M s0 (State.setT1Map s d m) := by
  refine State.setPoison_touches _ _ (Sub.trans (Sub.lit rfl) hM) ?_
  refine Touches.updWf (K := 8) (Sub.trans (Sub.lit rfl) hM) (State.wr_touches _ _ _ (Sub.trans (Sub.lit rfl) hM) hT)
    (fun f hf => by cases f <;> first | rfl | exact absurd hf (by decide)) rfl ?_
  simp only [canonical_iff]
  rintro ⟨h1, h2, h3, h4, h5⟩
  exact ⟨remap_wf h1, h2, h3, h4, h5⟩

theorem State.bootT1_touches {M : Nat} {s0 : State} (s : State) (d b : Nat) (hM : Sub 1134906965437185836 M) (hT : Touches
  M s0 s) : Touches M s0 (State.bootT1 s d b) := by
  unfold State.bootT1
  try dsimp only
  repeat' first
    | with_reducible assumption
    | (with_reducible refine Sub.trans ?_ hM) <;> exact Sub.lit rfl
    | with_reducible apply State.setT1Map_touches
    | with_reducible apply State.repaired_touches
    | with_reducible apply State.bootFail_touches
    | with_reducible apply State.mappedOut_touches
    | (with_reducible intro _; try dsimp only)
    | split

theorem State.setT2Map_touches {M : Nat} {s0 : State} (s : State) (m : Nat) (hM : Sub 134217740 M) (hT : Touches M s0 s) :
  Touches M s0 (State.setT2Map s m) := by
  unfold State.setT2Map
  dsimp only
  iterate 4 refine State.wr_touches _ _ _ (Sub.trans (Sub.lit rfl) hM) ?_
  refine State.setPoison_touches _ _ (Sub.trans (Sub.lit rfl) hM) ?_
  refine Touches.updWf (K := 8) (Sub.trans (Sub.lit rfl) hM) hT
    (fun f hf => by cases f <;> first | rfl | exact absurd hf (by decide)) rfl ?_
  simp only [canonical_iff]
  rintro ⟨h1, h2, h3, h4, h5⟩
  exact ⟨remap_wf h1, h2, h3, h4, h5⟩

theorem State.bootT2_touches {M : Nat} {s0 : State} (s : State) (c : Nat) (hM : Sub 1134906965437185836 M) (hT : Touches M
  s0 s) : Touches M s0 (State.bootT2 s c) := by
  unfold State.bootT2
  try dsimp only
  repeat' first
    | with_reducible assumption
    | (with_reducible refine Sub.trans ?_ hM) <;> exact Sub.lit rfl
    | with_reducible apply State.setT2Map_touches
    | with_reducible apply State.repaired_touches
    | with_reducible apply State.bootFail_touches
    | with_reducible apply State.mappedOut_touches
    | (with_reducible intro _; try dsimp only)
    | split

theorem State.setFlashDown_touches {M : Nat} {s0 : State} (s : State) (x : List Nat) (hM : Sub 2147483648 M) (hT : Touches
  M s0 s) : Touches M s0 (State.setFlashDown s x) := by
  unfold State.setFlashDown
  try dsimp only
  repeat' first
    | with_reducible assumption
    | (with_reducible refine Sub.trans ?_ hM) <;> exact Sub.lit rfl
    | with_reducible apply Touches.set_flashDown
    | (with_reducible intro _; try dsimp only)
    | split

theorem execFlashChannelFail_touches {M : Nat} {s0 : State} (channel : Nat) (s : State) (hM : Sub 2181038084 M) (hT :
  Touches M s0 s) : TouchesO M s0 (execFlashChannelFail channel s) := by
  unfold execFlashChannelFail
  try dsimp only
  repeat' first
    | with_reducible assumption
    | (with_reducible refine Sub.trans ?_ hM) <;> exact Sub.lit rfl
    | with_reducible apply State.wr_touches
    | with_reducible apply State.setFlashDown_touches
    | with_reducible apply State.raise_touches
    | with_reducible apply TouchesO.next
    | (with_reducible intro _; try dsimp only)
    | split
    | with_reducible apply Touches1.mk

theorem State.bootFlash_touches {M : Nat} {s0 : State} (s : State) (ch : Nat) (hM : Sub 1134906967584669484 M) (hT :
  Touches M s0 s) : Touches M s0 (State.bootFlash s ch) := by
  unfold State.bootFlash
  try dsimp only
  repeat' first
    | with_reducible assumption
    | (with_reducible refine Sub.trans ?_ hM) <;> exact Sub.lit rfl
    | with_reducible apply State.repaired_touches
    | with_reducible apply State.setFlashDown_touches
    | with_reducible apply execFlashChannelFail_touches
    | with_reducible apply State.bootFail_touches
    | with_reducible apply State.after_touches
    | (with_reducible intro _; try dsimp only)
    | split

theorem State.bootFinding_touches {M : Nat} {s0 : State} (s : State) (fails : List (Nat × Nat)) (f : BootFinding) (hM : Sub
  1134906967584669676 M) (hT : Touches M s0 s) : Touches M s0 (State.bootFinding s fails f) := by
  unfold State.bootFinding
  try dsimp only
  repeat' first
    | with_reducible assumption
    | (with_reducible refine Sub.trans ?_ hM) <;> exact Sub.lit rfl
    | with_reducible apply State.bootT1_touches
    | with_reducible apply State.repaired_touches
    | with_reducible apply State.bootCore_touches
    | with_reducible apply State.bootT2_touches
    | with_reducible apply State.setLearned_touches
    | with_reducible apply State.bootFail_touches
    | with_reducible apply State.bootFlash_touches
    | (with_reducible intro _; try dsimp only)
    | split

theorem State.bootFindings_touches {M : Nat} {s0 : State} (s : State) (l : List BootFinding) (hM : Sub 1134906967584669676
  M) (hT : Touches M s0 s) : Touches M s0 (State.bootFindings s l) := by
  unfold State.bootFindings
  try dsimp only
  repeat' first
    | with_reducible assumption
    | (with_reducible refine Sub.trans ?_ hM) <;> exact Sub.lit rfl
    | with_reducible apply State.bootFinding_touches
    | with_reducible apply Touches.foldl
    | with_reducible apply Touches1.foldl
    | with_reducible apply Touches1.fst
    | (with_reducible intro _; try dsimp only)
    | split
    | with_reducible apply Touches1.mk

theorem State.imageInvalid_touches {M : Nat} {s0 : State} (s : State) (reason : Nat) (hM : Sub 33554432 M) (hT : Touches M
  s0 s) : Touches M s0 (State.imageInvalid s reason) := by
  unfold State.imageInvalid
  try dsimp only
  repeat' first
    | with_reducible assumption
    | (with_reducible refine Sub.trans ?_ hM) <;> exact Sub.lit rfl
    | with_reducible apply State.raise_touches
    | (with_reducible intro _; try dsimp only)
    | split

theorem State.enterRecovery_touches {M : Nat} {s0 : State} (s : State) (reason : Nat) (hM : Sub 4503599660924932 M) (hT :
  Touches M s0 s) : Touches M s0 (State.enterRecovery s reason) := by
  unfold State.enterRecovery
  try dsimp only
  repeat' first
    | with_reducible assumption
    | (with_reducible refine Sub.trans ?_ hM) <;> exact Sub.lit rfl
    | with_reducible apply State.bootEnds_touches
    | with_reducible apply State.imageInvalid_touches
    | with_reducible apply State.wr_touches
    | with_reducible apply State.raise_touches
    | (with_reducible intro _; try dsimp only)
    | split

theorem State.bootFirmware_touches {M : Nat} {s0 : State} (s : State) (unreadable : Bool) (hM : Sub 1134906965437185836 M)
  (hT : Touches M s0 s) : Touches M s0 (State.bootFirmware s unreadable) := by
  unfold State.bootFirmware
  try dsimp only
  repeat' first
    | with_reducible assumption
    | (with_reducible refine Sub.trans ?_ hM) <;> exact Sub.lit rfl
    | with_reducible apply State.enterRecovery_touches
    | with_reducible apply State.wr_touches
    | with_reducible apply State.enterDugout_touches
    | with_reducible apply State.setReferee_touches
    | (with_reducible intro _; try dsimp only)
    | split

theorem State.loadPlan_touches {M : Nat} {s0 : State} (s : State) (hM : Sub 4 M) (hT : Touches M s0 s) : Touches M s0
  (State.loadPlan s) := by
  unfold State.loadPlan
  try dsimp only
  repeat' first
    | with_reducible assumption
    | (with_reducible refine Sub.trans ?_ hM) <;> exact Sub.lit rfl
    | with_reducible apply State.setReg_touches
    | with_reducible apply Touches.foldl
    | with_reducible apply Touches1.foldl
    | with_reducible apply Touches1.fst
    | (with_reducible intro _; try dsimp only)
    | split
    | with_reducible apply Touches1.mk

theorem State.bootMemories_touches {M : Nat} {s0 : State} (s : State) (hM : Sub 1207959564 M) (hT : Touches M s0 s) :
  Touches M s0 (State.bootMemories s) := by
  unfold State.bootMemories
  try dsimp only
  repeat' first
    | with_reducible assumption
    | (with_reducible refine Sub.trans ?_ hM) <;> exact Sub.lit rfl
    | with_reducible apply State.loadPlan_touches
    | with_reducible apply State.setT1Map_touches
    | with_reducible apply State.setT2Map_touches
    | with_reducible apply State.wr_touches
    | with_reducible apply State.setObject_touches
    | with_reducible apply Touches.foldl
    | with_reducible apply Touches1.foldl
    | with_reducible apply Touches1.fst
    | (with_reducible intro _; try dsimp only)
    | split
    | with_reducible apply Touches1.mk

theorem State.burnRevocations_touches {M : Nat} {s0 : State} (s : State) (l : List BootFinding) (hM : Sub 33554436 M) (hT :
  Touches M s0 s) : Touches M s0 (State.burnRevocations s l) := by
  unfold State.burnRevocations
  try dsimp only
  repeat' first
    | with_reducible assumption
    | (with_reducible refine Sub.trans ?_ hM) <;> exact Sub.lit rfl
    | with_reducible apply State.wr_touches
    | with_reducible apply State.raise_touches
    | with_reducible apply Touches.foldl
    | with_reducible apply Touches1.foldl
    | with_reducible apply Touches1.fst
    | (with_reducible intro _; try dsimp only)
    | split
    | with_reducible apply Touches1.mk

theorem State.bootReady_touches {M : Nat} {s0 : State} (s : State) (l : List BootFinding) (plan : PlanInput) (hM : Sub
  13510798932443140 M) (hT : Touches M s0 s) : Touches M s0 (State.bootReady s l plan) := by
  unfold State.bootReady
  try dsimp only
  repeat' first
    | with_reducible assumption
    | (with_reducible refine Sub.trans ?_ hM) <;> exact Sub.lit rfl
    | with_reducible apply State.bootEnds_touches
    | with_reducible apply State.wr_touches
    | with_reducible apply State.raise_touches
    | with_reducible apply State.burnRevocations_touches
    | with_reducible apply State.applyPlan_touches
    | with_reducible apply State.stateEvent_touches
    | (with_reducible intro _; try dsimp only)
    | split

theorem State.bootWork_touches {M : Nat} {s0 : State} (s : State) (n : Nat) (l : List BootFinding) (plan : PlanInput) (hM :
  Sub 1134906968658411500 M) (hT : Touches M s0 s) : Touches M s0 (State.bootWork s n l plan) := by
  unfold State.bootWork
  try dsimp only
  repeat' first
    | with_reducible assumption
    | (with_reducible refine Sub.trans ?_ hM) <;> exact Sub.lit rfl
    | with_reducible apply State.setCapacity_touches
    | with_reducible apply State.bootReady_touches
    | with_reducible apply State.bootFirmware_touches
    | with_reducible apply State.bootMemories_touches
    | with_reducible apply State.bootFindings_touches
    | with_reducible apply State.setReferee_touches
    | (with_reducible intro _; try dsimp only)
    | split

theorem State.branch_touches {M : Nat} {s0 : State} (s : State) (c : Nat) (i : Issued) (offset : Int) (hM : Sub 33554692 M)
  (hT : Touches M s0 s) : Touches1 M s0 (State.branch s c i offset) := by
  unfold State.branch
  try dsimp only
  repeat' first
    | with_reducible assumption
    | (with_reducible refine Sub.trans ?_ hM) <;> exact Sub.lit rfl
    | with_reducible apply State.modCore_touches
    | with_reducible apply State.raiseCore_touches
    | with_reducible apply State.count_touches
    | with_reducible apply Touches1.fst
    | (with_reducible intro _; try dsimp only)
    | split
    | with_reducible apply Touches1.mk

theorem State.bringupFailed_touches {M : Nat} {s0 : State} (s : State) (n : Nat) (hM : Sub 4294967300 M) (hT : Touches M s0
  s) : Touches M s0 (State.bringupFailed s n) := by
  unfold State.bringupFailed
  try dsimp only
  repeat' first
    | with_reducible assumption
    | (with_reducible refine Sub.trans ?_ hM) <;> exact Sub.lit rfl
    | with_reducible apply State.modPort_touches
    | with_reducible apply State.setStep_touches
    | (with_reducible intro _; try dsimp only)
    | split

theorem State.burnField_touches {M : Nat} {s0 : State} (s : State) (field slot value : Nat) (hM : Sub 4503599627370500 M)
  (hT : Touches M s0 s) : Touches M s0 (State.burnField s field slot value) := by
  unfold State.burnField
  try dsimp only
  repeat' first
    | with_reducible assumption
    | (with_reducible refine Sub.trans ?_ hM) <;> exact Sub.lit rfl
    | with_reducible apply State.setReg_touches
    | with_reducible apply State.wr_touches
    | with_reducible apply State.setReferee_touches
    | with_reducible apply Touches.foldl
    | with_reducible apply Touches1.foldl
    | with_reducible apply Touches1.fst
    | (with_reducible intro _; try dsimp only)
    | split
    | with_reducible apply Touches1.mk

theorem State.wideRead_touches {M : Nat} {s0 : State} (s : State) (m : Master) (a n : Nat) (hM : Sub 4503599660924932 M)
  (hT : Touches M s0 s) : Touches1 M s0 (State.wideRead s m a n) := by
  unfold State.wideRead
  try dsimp only
  repeat' first
    | with_reducible assumption
    | (with_reducible refine Sub.trans ?_ hM) <;> exact Sub.lit rfl
    | with_reducible apply State.busRead_touches
    | with_reducible apply State.agentRead_touches
    | with_reducible apply Touches1.fst
    | (with_reducible intro _; try dsimp only)
    | split
    | with_reducible apply Touches1.mk

theorem State.busReply_touches {M : Nat} {s0 : State} (s : State) (m : Master) (a n : Nat) (hM : Sub 4503599677702148 M)
  (hT : Touches M s0 s) : Touches M s0 (State.busReply s m a n) := by
  unfold State.busReply
  try dsimp only
  repeat' first
    | with_reducible assumption
    | (with_reducible refine Sub.trans ?_ hM) <;> exact Sub.lit rfl
    | with_reducible apply State.unsupportedRequest_touches
    | with_reducible apply State.reply_touches
    | with_reducible apply State.wideRead_touches
    | with_reducible apply Touches1.fst
    | (with_reducible intro _; try dsimp only)
    | split
    | with_reducible apply Touches1.mk

theorem State.cacheWrite_touches {M : Nat} {s0 : State} (s : State) (a hint : Nat) (hM : Sub 268435456 M) (hT : Touches M
  s0 s) : Touches M s0 (State.cacheWrite s a hint) := by
  unfold State.cacheWrite
  try dsimp only
  repeat' first
    | with_reducible assumption
    | (with_reducible refine Sub.trans ?_ hM) <;> exact Sub.lit rfl
    | with_reducible apply State.setCache_touches
    | (with_reducible intro _; try dsimp only)
    | split

theorem State.cacheWrites_touches {M : Nat} {s0 : State} (s : State) (a n hint : Nat) (hM : Sub 268435456 M) (hT : Touches
  M s0 s) : Touches M s0 (State.cacheWrites s a n hint) := by
  unfold State.cacheWrites
  try dsimp only
  repeat' first
    | with_reducible assumption
    | (with_reducible refine Sub.trans ?_ hM) <;> exact Sub.lit rfl
    | with_reducible apply State.cacheWrite_touches
    | with_reducible apply Touches.foldl
    | with_reducible apply Touches1.foldl
    | with_reducible apply Touches1.fst
    | (with_reducible intro _; try dsimp only)
    | split
    | with_reducible apply Touches1.mk

theorem State.holdView_touches {M : Nat} {s0 : State} (s : State) (id : Nat) (members : List Nat) (hM : Sub 17414750252 M)
  (hT : Touches M s0 s) : Touches M s0 (State.holdView s id members) := by
  unfold State.holdView
  try dsimp only
  repeat' first
    | with_reducible assumption
    | (with_reducible refine Sub.trans ?_ hM) <;> exact Sub.lit rfl
    | with_reducible apply State.writeVia_touches
    | with_reducible apply State.wr_touches
    | with_reducible apply State.modFellows_touches
    | (with_reducible intro _; try dsimp only)
    | split

theorem State.sendMgt_touches {M : Nat} {s0 : State} (s : State) (m : Msg) (hM : Sub 4328521728 M) (hT : Touches M s0 s) :
  Touches M s0 (State.sendMgt s m) := by
  unfold State.sendMgt
  try dsimp only
  repeat' first
    | with_reducible assumption
    | (with_reducible refine Sub.trans ?_ hM) <;> exact Sub.lit rfl
    | with_reducible apply State.sendMsg_touches
    | (with_reducible intro _; try dsimp only)
    | split

theorem State.sendView_touches {M : Nat} {s0 : State} (s : State) (dsts : List Nat) (id kind group : Nat) (members : List
  Nat) (hM : Sub 4328521728 M) (hT : Touches M s0 s) : Touches M s0 (State.sendView s dsts id kind group members) := by
  unfold State.sendView
  try dsimp only
  repeat' first
    | with_reducible assumption
    | (with_reducible refine Sub.trans ?_ hM) <;> exact Sub.lit rfl
    | with_reducible apply State.sendMgt_touches
    | with_reducible apply Touches.foldl
    | with_reducible apply Touches1.foldl
    | with_reducible apply Touches1.fst
    | (with_reducible intro _; try dsimp only)
    | split
    | with_reducible apply Touches1.mk

theorem State.computeGroup_touches {M : Nat} {s0 : State} (s : State) (e : Nat) (hM : Sub 8800421543936 M) (hT : Touches M
  s0 s) : Touches M s0 (State.computeGroup s e) := by
  unfold State.computeGroup
  try dsimp only
  repeat' first
    | with_reducible assumption
    | (with_reducible refine Sub.trans ?_ hM) <;> exact Sub.lit rfl
    | with_reducible apply State.sendView_touches
    | with_reducible apply State.setGviews_touches
    | (with_reducible intro _; try dsimp only)
    | split

theorem State.computeGroups_touches {M : Nat} {s0 : State} (s : State) (hM : Sub 8800421543936 M) (hT : Touches M s0 s) :
  Touches M s0 (State.computeGroups s) := by
  unfold State.computeGroups
  try dsimp only
  repeat' first
    | with_reducible assumption
    | (with_reducible refine Sub.trans ?_ hM) <;> exact Sub.lit rfl
    | with_reducible apply State.computeGroup_touches
    | with_reducible apply Touches.foldl
    | with_reducible apply Touches1.foldl
    | with_reducible apply Touches1.fst
    | (with_reducible intro _; try dsimp only)
    | split
    | with_reducible apply Touches1.mk

theorem State.changeView_touches {M : Nat} {s0 : State} (s : State) (members : List Nat) (hM : Sub 8817802739756 M) (hT :
  Touches M s0 s) : Touches M s0 (State.changeView s members) := by
  unfold State.changeView
  try dsimp only
  repeat' first
    | with_reducible assumption
    | (with_reducible refine Sub.trans ?_ hM) <;> exact Sub.lit rfl
    | with_reducible apply State.holdView_touches
    | with_reducible apply State.computeGroups_touches
    | with_reducible apply State.sendView_touches
    | (with_reducible intro _; try dsimp only)
    | split

theorem State.stopJob_touches {M : Nat} {s0 : State} (s : State) (p step : Nat) (cause : Code) (hM : Sub 33554692 M) (hT :
  Touches M s0 s) : Touches M s0 (State.stopJob s p step cause) := by
  unfold State.stopJob
  try dsimp only
  repeat' first
    | with_reducible assumption
    | (with_reducible refine Sub.trans ?_ hM) <;> exact Sub.lit rfl
    | with_reducible apply State.haltCore_touches
    | with_reducible apply State.wr_touches
    | with_reducible apply State.raise_touches
    | with_reducible apply Touches.foldl
    | with_reducible apply Touches1.foldl
    | with_reducible apply Touches1.fst
    | (with_reducible intro _; try dsimp only)
    | split
    | with_reducible apply Touches1.mk

theorem State.flagStop_touches {M : Nat} {s0 : State} (s : State) (hM : Sub 140737522041092 M) (hT : Touches M s0 s) :
  Touches M s0 (State.flagStop s) := by
  unfold State.flagStop
  try dsimp only
  repeat' first
    | with_reducible assumption
    | (with_reducible refine Sub.trans ?_ hM) <;> exact Sub.lit rfl
    | with_reducible apply State.stopJob_touches
    | with_reducible apply State.modJob_touches
    | with_reducible apply State.setHaltAt_touches
    | with_reducible apply Touches.foldl
    | with_reducible apply Touches1.foldl
    | with_reducible apply Touches1.fst
    | (with_reducible intro _; try dsimp only)
    | split
    | with_reducible apply Touches1.mk

theorem State.ckptComplete_touches {M : Nat} {s0 : State} (s : State) (p : Nat) (x : Ckpt) (hM : Sub 141086488133892 M) (hT
  : Touches M s0 s) : Touches M s0 (State.ckptComplete s p x) := by
  unfold State.ckptComplete
  try dsimp only
  repeat' first
    | with_reducible assumption
    | (with_reducible refine Sub.trans ?_ hM) <;> exact Sub.lit rfl
    | with_reducible apply State.askStripes_touches
    | with_reducible apply State.wr_touches
    | with_reducible apply State.modJob_touches
    | with_reducible apply State.raise_touches
    | with_reducible apply State.count_touches
    | with_reducible apply State.flagStop_touches
    | (with_reducible intro _; try dsimp only)
    | split

theorem State.ckptFail_touches {M : Nat} {s0 : State} (s : State) (p step cause : Nat) (hM : Sub 33554432 M) (hT : Touches
  M s0 s) : Touches M s0 (State.ckptFail s p step cause) := by
  unfold State.ckptFail
  try dsimp only
  repeat' first
    | with_reducible assumption
    | (with_reducible refine Sub.trans ?_ hM) <;> exact Sub.lit rfl
    | with_reducible apply State.raise_touches
    | (with_reducible intro _; try dsimp only)
    | split

theorem State.clearEntries_touches {M : Nat} {s0 : State} (s : State) (c k n : Nat) (hM : Sub 67108896 M) (hT : Touches M
  s0 s) : Touches M s0 (State.clearEntries s c k n) := by
  unfold State.clearEntries
  try dsimp only
  repeat' first
    | with_reducible assumption
    | (with_reducible refine Sub.trans ?_ hM) <;> exact Sub.lit rfl
    | with_reducible apply State.putEntry_touches
    | with_reducible apply Touches.foldl
    | with_reducible apply Touches1.foldl
    | with_reducible apply Touches1.fst
    | (with_reducible intro _; try dsimp only)
    | split
    | with_reducible apply Touches1.mk

theorem State.closeObject_touches {M : Nat} {s0 : State} (s : State) (id : Nat) (bytes : List Host.Cell) (hM : Sub
  1073741824 M) (hT : Touches M s0 s) : Touches M s0 (State.closeObject s id bytes) := by
  unfold State.closeObject
  try dsimp only
  repeat' first
    | with_reducible assumption
    | (with_reducible refine Sub.trans ?_ hM) <;> exact Sub.lit rfl
    | with_reducible apply State.setObject_touches
    | (with_reducible intro _; try dsimp only)
    | split

theorem State.raiseCnv_touches {M : Nat} {s0 : State} (s : State) (c : Nat) (code : Code) (engine : Nat) (y0 : ArrRefusal)
  (hM : Sub 33554432 M) (hT : Touches M s0 s) : Touches1 M s0 (State.raiseCnv s c code engine y0) := by
  unfold State.raiseCnv
  try dsimp only
  repeat' first
    | with_reducible assumption
    | (with_reducible refine Sub.trans ?_ hM) <;> exact Sub.lit rfl
    | with_reducible apply State.raiseDesc_touches
    | with_reducible apply State.raiseExtract_touches
    | with_reducible apply State.raiseCore_touches
    | with_reducible apply State.raiseLoad_touches
    | with_reducible apply Touches1.fst
    | (with_reducible intro _; try dsimp only)
    | split
    | with_reducible apply Touches1.mk

theorem State.countAllLoads_touches {M : Nat} {s0 : State} (s : State) (c step : Nat) (l : List (Nat × Nat × Nat × Nat ×
  Nat)) (hM : Sub 33554436 M) (hT : Touches M s0 s) : Touches M s0 (State.countAllLoads s c step l) := by
  unfold State.countAllLoads
  try dsimp only
  repeat' first
    | with_reducible assumption
    | (with_reducible refine Sub.trans ?_ hM) <;> exact Sub.lit rfl
    | with_reducible apply State.countLoads_touches
    | (with_reducible intro _; try dsimp only)
    | split

theorem State.cnvRun_touches {M : Nat} {s0 : State} (hw : List Hw) (s : State) (c : Nat) (i : Issued) (hM : Sub
  138479141164 M) (hT : Touches M s0 s) : Touches M s0 (State.cnvRun hw s c i) := by
  unfold State.cnvRun
  try dsimp only
  repeat' first
    | with_reducible assumption
    | (with_reducible refine Sub.trans ?_ hM) <;> exact Sub.lit rfl
    | with_reducible apply State.began_touches
    | with_reducible apply State.raiseCnv_touches
    | with_reducible apply State.raiseParity_touches
    | with_reducible apply State.cnvTilesFrom_touches
    | with_reducible apply State.countAllLoads_touches
    | with_reducible apply State.executed_touches
    | with_reducible apply State.applyHw_touches
    | with_reducible apply State.raiseLoad_touches
    | with_reducible apply Touches1.fst
    | (with_reducible intro _; try dsimp only)
    | split
    | with_reducible apply Touches1.mk

theorem State.collect_touches {M : Nat} {s0 : State} (s : State) (p step : Nat) (hM : Sub 201326892 M) (hT : Touches M s0
  s) : Touches M s0 (State.collect s p step) := by
  unfold State.collect
  try dsimp only
  repeat' first
    | with_reducible assumption
    | (with_reducible refine Sub.trans ?_ hM) <;> exact Sub.lit rfl
    | with_reducible apply State.modCore_touches
    | with_reducible apply State.store_touches
    | with_reducible apply State.wr_touches
    | with_reducible apply Touches.foldl
    | with_reducible apply Touches1.foldl
    | with_reducible apply Touches1.fst
    | (with_reducible intro _; try dsimp only)
    | split
    | with_reducible apply Touches1.mk

theorem State.traceCollect_touches {M : Nat} {s0 : State} (s : State) (d : Nat) (hM : Sub 844425165013292 M) (hT : Touches
  M s0 s) : Touches M s0 (State.traceCollect s d) := by
  unfold State.traceCollect
  try dsimp only
  repeat' first
    | with_reducible assumption
    | (with_reducible refine Sub.trans ?_ hM) <;> exact Sub.lit rfl
    | with_reducible apply State.collectFrom_touches
    | (with_reducible intro _; try dsimp only)
    | split

theorem State.collectMany_touches {M : Nat} {s0 : State} (s : State) (d : Nat) (y0 : Nat) (hM : Sub 844425165013292 M) (hT
  : Touches M s0 s) : Touches M s0 (State.collectMany s d y0) := by
  fun_induction State.collectMany s d y0
  all_goals try dsimp only
  all_goals repeat' first
    | with_reducible assumption
    | (with_reducible refine Sub.trans ?_ hM) <;> exact Sub.lit rfl
    | with_reducible apply State.traceCollect_touches
    | with_reducible apply_assumption
    | (with_reducible intro _; try dsimp only)
    | split

theorem State.collectAll_touches {M : Nat} {s0 : State} (s : State) (hM : Sub 844425165013292 M) (hT : Touches M s0 s) :
  Touches M s0 (State.collectAll s) := by
  unfold State.collectAll
  try dsimp only
  repeat' first
    | with_reducible assumption
    | (with_reducible refine Sub.trans ?_ hM) <;> exact Sub.lit rfl
    | with_reducible apply State.collectMany_touches
    | with_reducible apply Touches.foldl
    | with_reducible apply Touches1.foldl
    | with_reducible apply Touches1.fst
    | (with_reducible intro _; try dsimp only)
    | split
    | with_reducible apply Touches1.mk

theorem State.completeXfer_touches {M : Nat} {s0 : State} (s : State) (key mism : Nat) (hM : Sub 618508845316 M) (hT :
  Touches M s0 s) : Touches M s0 (State.completeXfer s key mism) := by
  unfold State.completeXfer
  try dsimp only
  repeat' first
    | with_reducible assumption
    | (with_reducible refine Sub.trans ?_ hM) <;> exact Sub.lit rfl
    | with_reducible apply State.failXfer_touches
    | with_reducible apply State.endXfer_touches
    | with_reducible apply State.raise_touches
    | (with_reducible intro _; try dsimp only)
    | split

theorem State.coolantTest_touches {M : Nat} {s0 : State} (s : State) (hM : Sub 9007199288295424 M) (hT : Touches M s0 s) :
  Touches M s0 (State.coolantTest s) := by
  unfold State.coolantTest
  try dsimp only
  repeat' first
    | with_reducible assumption
    | (with_reducible refine Sub.trans ?_ hM) <;> exact Sub.lit rfl
    | with_reducible apply State.raise_touches
    | with_reducible apply State.setPower_touches
    | (with_reducible intro _; try dsimp only)
    | split

theorem State.countIf_touches {M : Nat} {s0 : State} (s : State) (waits : Bool) (r n : Nat) (hM : Sub 33554436 M) (hT :
  Touches M s0 s) : Touches M s0 (State.countIf s waits r n) := by
  unfold State.countIf
  try dsimp only
  repeat' first
    | with_reducible assumption
    | (with_reducible refine Sub.trans ?_ hM) <;> exact Sub.lit rfl
    | with_reducible apply State.count_touches
    | (with_reducible intro _; try dsimp only)
    | split

theorem State.fenceCycles_touches {M : Nat} {s0 : State} (s : State) (c n : Nat) (w : Nat) (hM : Sub 1099545182212 M) (hT :
  Touches M s0 s) : Touches M s0 (State.fenceCycles s c n w) := by
  unfold State.fenceCycles
  try dsimp only
  repeat' first
    | with_reducible assumption
    | (with_reducible refine Sub.trans ?_ hM) <;> exact Sub.lit rfl
    | with_reducible apply State.modFeed_touches
    | with_reducible apply State.countIf_touches
    | (with_reducible intro _; try dsimp only)
    | split

theorem State.coreCycles_touches {M : Nat} {s0 : State} (s : State) (c t u : Nat) (hM : Sub 1099545182212 M) (hT : Touches
  M s0 s) : Touches M s0 (State.coreCycles s c t u) := by
  unfold State.coreCycles
  try dsimp only
  repeat' first
    | with_reducible assumption
    | (with_reducible refine Sub.trans ?_ hM) <;> exact Sub.lit rfl
    | with_reducible apply State.fenceCycles_touches
    | with_reducible apply State.countIf_touches
    | (with_reducible intro _; try dsimp only)
    | split

theorem State.countChan_touches {M : Nat} {s0 : State} (s : State) (a : Agent) (n k : Nat) (hM : Sub 33554436 M) (hT :
  Touches M s0 s) : Touches M s0 (State.countChan s a n k) := by
  unfold State.countChan
  try dsimp only
  repeat' first
    | with_reducible assumption
    | (with_reducible refine Sub.trans ?_ hM) <;> exact Sub.lit rfl
    | with_reducible apply State.count_touches
    | (with_reducible intro _; try dsimp only)
    | split

theorem State.streamCycles_touches {M : Nat} {s0 : State} (s : State) (t u : Nat) (hM : Sub 33554436 M) (hT : Touches M s0
  s) : Touches M s0 (State.streamCycles s t u) := by
  unfold State.streamCycles
  try dsimp only
  repeat' first
    | with_reducible assumption
    | (with_reducible refine Sub.trans ?_ hM) <;> exact Sub.lit rfl
    | with_reducible apply State.countIf_touches
    | with_reducible apply Touches.foldl
    | with_reducible apply Touches1.foldl
    | with_reducible apply Touches1.fst
    | (with_reducible intro _; try dsimp only)
    | split
    | with_reducible apply Touches1.mk

theorem State.countCycles_touches {M : Nat} {s0 : State} (s : State) (t : Nat) (hM : Sub 1099545182212 M) (hT : Touches M
  s0 s) : Touches M s0 (State.countCycles s t) := by
  unfold State.countCycles
  try dsimp only
  repeat' first
    | with_reducible assumption
    | (with_reducible refine Sub.trans ?_ hM) <;> exact Sub.lit rfl
    | with_reducible apply State.coreCycles_touches
    | with_reducible apply State.streamCycles_touches
    | with_reducible apply Touches.foldl
    | with_reducible apply Touches1.foldl
    | with_reducible apply Touches1.fst
    | (with_reducible intro _; try dsimp only)
    | split
    | with_reducible apply Touches1.mk

theorem State.countGather_touches {M : Nat} {s0 : State} (s : State) (g : GList) (a : Nat) (hM : Sub 33554436 M) (hT :
  Touches M s0 s) : Touches M s0 (State.countGather s g a) := by
  unfold State.countGather
  try dsimp only
  repeat' first
    | with_reducible assumption
    | (with_reducible refine Sub.trans ?_ hM) <;> exact Sub.lit rfl
    | with_reducible apply State.count_touches
    | (with_reducible intro _; try dsimp only)
    | split

theorem State.logDecision_touches {M : Nat} {s0 : State} (s : State) (p : Nat) (e : List (BitVec 8)) (hM : Sub 234881068 M)
  (hT : Touches M s0 s) : Touches M s0 (State.logDecision s p e) := by
  unfold State.logDecision
  try dsimp only
  repeat' first
    | with_reducible assumption
    | (with_reducible refine Sub.trans ?_ hM) <;> exact Sub.lit rfl
    | with_reducible apply State.govWrite_touches
    | with_reducible apply State.wr_touches
    | (with_reducible intro _; try dsimp only)
    | split

theorem State.histPut_touches {M : Nat} {s0 : State} (s : State) (p t m : Nat) (hM : Sub 234881068 M) (hT : Touches M s0 s)
  : Touches M s0 (State.histPut s p t m) := by
  unfold State.histPut
  try dsimp only
  repeat' first
    | with_reducible assumption
    | (with_reducible refine Sub.trans ?_ hM) <;> exact Sub.lit rfl
    | with_reducible apply State.govWrite_touches
    | (with_reducible intro _; try dsimp only)
    | split

theorem State.rewriteT_touches {M : Nat} {s0 : State} (s : State) (p t step v : Nat) (hM : Sub 234881068 M) (hT : Touches M
  s0 s) : Touches M s0 (State.rewriteT s p t step v) := by
  unfold State.rewriteT
  try dsimp only
  repeat' first
    | with_reducible assumption
    | (with_reducible refine Sub.trans ?_ hM) <;> exact Sub.lit rfl
    | with_reducible apply State.govWrite_touches
    | with_reducible apply State.raise_touches
    | with_reducible apply State.count_touches
    | (with_reducible intro _; try dsimp only)
    | split

theorem State.histStep_touches {M : Nat} {s0 : State} (s : State) (p step t m : Nat) (hM : Sub 234881068 M) (hT : Touches M
  s0 s) : Touches M s0 (State.histStep s p step t m) := by
  unfold State.histStep
  try dsimp only
  repeat' first
    | with_reducible assumption
    | (with_reducible refine Sub.trans ?_ hM) <;> exact Sub.lit rfl
    | with_reducible apply State.histPut_touches
    | with_reducible apply State.rewriteT_touches
    | (with_reducible intro _; try dsimp only)
    | split

theorem State.passEvents_touches {M : Nat} {s0 : State} (s : State) (p step : Nat) (ds : List (Nat × Nat × Role × RoleStats
  × Decision)) (hM : Sub 33554436 M) (hT : Touches M s0 s) : Touches M s0 (State.passEvents s p step ds) := by
  unfold State.passEvents
  try dsimp only
  repeat' first
    | with_reducible assumption
    | (with_reducible refine Sub.trans ?_ hM) <;> exact Sub.lit rfl
    | with_reducible apply State.raise_touches
    | with_reducible apply State.count_touches
    | (with_reducible intro _; try dsimp only)
    | split

theorem State.decidePass_touches {M : Nat} {s0 : State} (s : State) (p step : Nat) (skipped : Bool) (v : List Nat) (hM :
  Sub 140737723236396 M) (hT : Touches M s0 s) : Touches M s0 (State.decidePass s p step skipped v) := by
  unfold State.decidePass
  try dsimp only
  repeat' first
    | with_reducible assumption
    | (with_reducible refine Sub.trans ?_ hM) <;> exact Sub.lit rfl
    | with_reducible apply State.logDecision_touches
    | with_reducible apply State.publishPlan_touches
    | with_reducible apply State.histStep_touches
    | with_reducible apply State.setRole_touches
    | with_reducible apply State.passEvents_touches
    | with_reducible apply State.raise_touches
    | with_reducible apply State.count_touches
    | with_reducible apply Touches.foldl
    | with_reducible apply Touches1.foldl
    | with_reducible apply Touches1.fst
    | (with_reducible intro _; try dsimp only)
    | split
    | with_reducible apply Touches1.mk

theorem State.eventTraced_touches {M : Nat} {s0 : State} (s : State) (e : Event) (hM : Sub 281475211591724 M) (hT : Touches
  M s0 s) : Touches M s0 (State.eventTraced s e) := by
  unfold State.eventTraced
  try dsimp only
  repeat' first
    | with_reducible assumption
    | (with_reducible refine Sub.trans ?_ hM) <;> exact Sub.lit rfl
    | with_reducible apply State.bufferPut_touches
    | (with_reducible intro _; try dsimp only)
    | split

theorem State.setEvents_touches {M : Nat} {s0 : State} (s : State) (x : List Event) (hM : Sub 33554432 M) (hT : Touches M
  s0 s) : Touches M s0 (State.setEvents s x) := by
  unfold State.setEvents
  try dsimp only
  repeat' first
    | with_reducible assumption
    | (with_reducible refine Sub.trans ?_ hM) <;> exact Sub.lit rfl
    | with_reducible apply Touches.set_events
    | (with_reducible intro _; try dsimp only)
    | split

theorem State.eventTrigger_touches {M : Nat} {s0 : State} (s : State) (e : Event) (hM : Sub 281475211591724 M) (hT :
  Touches M s0 s) : Touches M s0 (State.eventTrigger s e) := by
  unfold State.eventTrigger
  try dsimp only
  repeat' first
    | with_reducible assumption
    | (with_reducible refine Sub.trans ?_ hM) <;> exact Sub.lit rfl
    | with_reducible apply State.traceTrigger_touches
    | (with_reducible intro _; try dsimp only)
    | split

theorem State.ringWrite_touches {M : Nat} {s0 : State} (s : State) (p a bytes : Nat) (hM : Sub 505413692 M) (hT : Touches M
  s0 s) : Touches1 M s0 (State.ringWrite s p a bytes) := by
  unfold State.ringWrite
  try dsimp only
  repeat' first
    | with_reducible assumption
    | (with_reducible refine Sub.trans ?_ hM) <;> exact Sub.lit rfl
    | with_reducible apply State.translate_touches
    | with_reducible apply State.store_touches
    | with_reducible apply State.cacheWrites_touches
    | with_reducible apply State.setHostBytes_touches
    | with_reducible apply State.count_touches
    | with_reducible apply Touches1.fst
    | (with_reducible intro _; try dsimp only)
    | split
    | with_reducible apply Touches1.mk

theorem State.ringMessage_touches {M : Nat} {s0 : State} (s : State) (p : Nat) (hM : Sub 144115188092665856 M) (hT :
  Touches M s0 s) : Touches M s0 (State.ringMessage s p) := by
  unfold State.ringMessage
  try dsimp only
  repeat' first
    | with_reducible assumption
    | (with_reducible refine Sub.trans ?_ hM) <;> exact Sub.lit rfl
    | with_reducible apply State.sendMsix_touches
    | with_reducible apply State.modRing_touches
    | (with_reducible intro _; try dsimp only)
    | split

theorem State.ringOffer_touches {M : Nat} {s0 : State} (s : State) (p : Nat) (e : Event) (hM : Sub 144115188598079548 M)
  (hT : Touches M s0 s) : Touches M s0 (State.ringOffer s p e) := by
  unfold State.ringOffer
  try dsimp only
  repeat' first
    | with_reducible assumption
    | (with_reducible refine Sub.trans ?_ hM) <;> exact Sub.lit rfl
    | with_reducible apply State.ringWrite_touches
    | with_reducible apply State.wr_touches
    | with_reducible apply State.ringMessage_touches
    | with_reducible apply State.count_touches
    | with_reducible apply State.modRing_touches
    | with_reducible apply Touches1.fst
    | (with_reducible intro _; try dsimp only)
    | split
    | with_reducible apply Touches1.mk

theorem State.logEvent_touches {M : Nat} {s0 : State} (s : State) (e : Event) (hM : Sub 4503599627370496 M) (hT : Touches M
  s0 s) : Touches M s0 (State.logEvent s e) := by
  unfold State.logEvent
  try dsimp only
  repeat' first
    | with_reducible assumption
    | (with_reducible refine Sub.trans ?_ hM) <;> exact Sub.lit rfl
    | with_reducible apply State.setReferee_touches
    | (with_reducible intro _; try dsimp only)
    | split

theorem State.deliver_touches {M : Nat} {s0 : State} (s : State) (hM : Sub 148900263202160700 M) (hT : Touches M s0 s) :
  Touches M s0 (State.deliver s) := by
  unfold State.deliver
  try dsimp only
  repeat' first
    | with_reducible assumption
    | (with_reducible refine Sub.trans ?_ hM) <;> exact Sub.lit rfl
    | with_reducible apply State.eventTraced_touches
    | with_reducible apply State.setEvents_touches
    | with_reducible apply State.eventTrigger_touches
    | with_reducible apply State.ringOffer_touches
    | with_reducible apply State.logEvent_touches
    | (with_reducible intro _; try dsimp only)
    | split

theorem State.divide_touches {M : Nat} {s0 : State} (s : State) (watts kind : Nat) (hM : Sub 33554436 M) (hT : Touches M s0
  s) : Touches M s0 (State.divide s watts kind) := by
  unfold State.divide
  try dsimp only
  repeat' first
    | with_reducible assumption
    | (with_reducible refine Sub.trans ?_ hM) <;> exact Sub.lit rfl
    | with_reducible apply State.wr_touches
    | with_reducible apply State.raise_touches
    | with_reducible apply State.count_touches
    | (with_reducible intro _; try dsimp only)
    | split

theorem State.dmaWrite_touches {M : Nat} {s0 : State} (s : State) (a : Agent) (addr hint : Nat) (bs : List (BitVec 8)) (hM
  : Sub 503316524 M) (hT : Touches M s0 s) : Touches1 M s0 (State.dmaWrite s a addr hint bs) := by
  unfold State.dmaWrite
  try dsimp only
  repeat' first
    | with_reducible assumption
    | (with_reducible refine Sub.trans ?_ hM) <;> exact Sub.lit rfl
    | with_reducible apply State.refuseAccess_touches
    | with_reducible apply State.store_touches
    | with_reducible apply State.cacheWrites_touches
    | with_reducible apply Touches1.fst
    | (with_reducible intro _; try dsimp only)
    | split
    | with_reducible apply Touches1.mk

theorem State.dmaWriteTo_touches {M : Nat} {s0 : State} (s : State) (x : Xfer) (g : Nat) (bs : List (BitVec 8)) (hM : Sub
  2252148209352748 M) (hT : Touches M s0 s) : Touches1 M s0 (State.dmaWriteTo s x g bs) := by
  unfold State.dmaWriteTo
  try dsimp only
  repeat' first
    | with_reducible assumption
    | (with_reducible refine Sub.trans ?_ hM) <;> exact Sub.lit rfl
    | with_reducible apply State.unreachable_touches
    | with_reducible apply State.agentWrite_touches
    | with_reducible apply State.request_touches
    | with_reducible apply State.dmaWrite_touches
    | with_reducible apply Touches1.fst
    | with_reducible apply Touches.foldl
    | with_reducible apply Touches1.foldl
    | with_reducible apply Touches1.fst
    | (with_reducible intro _; try dsimp only)
    | split
    | with_reducible apply Touches1.mk

theorem State.setLines_touches {M : Nat} {s0 : State} (s : State) (x : List (Nat × HartLine)) (hM : Sub 36028797018963968
  M) (hT : Touches M s0 s) : Touches M s0 (State.setLines s x) := by
  unfold State.setLines
  try dsimp only
  repeat' first
    | with_reducible assumption
    | (with_reducible refine Sub.trans ?_ hM) <;> exact Sub.lit rfl
    | with_reducible apply Touches.set_lines
    | (with_reducible intro _; try dsimp only)
    | split

theorem State.putHartLine_touches {M : Nat} {s0 : State} (s : State) (a : Nat) (l : HartLine) (hM : Sub 36028797018963968
  M) (hT : Touches M s0 s) : Touches M s0 (State.putHartLine s a l) := by
  unfold State.putHartLine
  try dsimp only
  repeat' first
    | with_reducible assumption
    | (with_reducible refine Sub.trans ?_ hM) <;> exact Sub.lit rfl
    | with_reducible apply State.setLines_touches
    | (with_reducible intro _; try dsimp only)
    | split

theorem State.dropHartLine_touches {M : Nat} {s0 : State} (s : State) (a : Nat) (hM : Sub 36028797018963968 M) (hT :
  Touches M s0 s) : Touches M s0 (State.dropHartLine s a) := by
  unfold State.dropHartLine
  try dsimp only
  repeat' first
    | with_reducible assumption
    | (with_reducible refine Sub.trans ?_ hM) <;> exact Sub.lit rfl
    | with_reducible apply State.putHartLine_touches
    | (with_reducible intro _; try dsimp only)
    | split

theorem State.emergency_touches {M : Nat} {s0 : State} (s : State) (x : Nat × Int) (hM : Sub 9007199288295428 M) (hT :
  Touches M s0 s) : Touches M s0 (State.emergency s x) := by
  unfold State.emergency
  try dsimp only
  repeat' first
    | with_reducible assumption
    | (with_reducible refine Sub.trans ?_ hM) <;> exact Sub.lit rfl
    | with_reducible apply State.requestPlan_touches
    | with_reducible apply State.wr_touches
    | with_reducible apply State.raise_touches
    | with_reducible apply State.count_touches
    | (with_reducible intro _; try dsimp only)
    | split

theorem State.endPhase_touches {M : Nat} {s0 : State} (s : State) (hM : Sub 4503599660924932 M) (hT : Touches M s0 s) :
  Touches M s0 (State.endPhase s) := by
  unfold State.endPhase
  try dsimp only
  repeat' first
    | with_reducible assumption
    | (with_reducible refine Sub.trans ?_ hM) <;> exact Sub.lit rfl
    | with_reducible apply State.wr_touches
    | with_reducible apply State.count_touches
    | with_reducible apply State.setReferee_touches
    | (with_reducible intro _; try dsimp only)
    | split

theorem State.endSegment_touches {M : Nat} {s0 : State} (s : State) (c seg : Nat) (hM : Sub 33554692 M) (hT : Touches M s0
  s) : Touches M s0 (State.endSegment s c seg) := by
  unfold State.endSegment
  try dsimp only
  repeat' first
    | with_reducible assumption
    | (with_reducible refine Sub.trans ?_ hM) <;> exact Sub.lit rfl
    | with_reducible apply State.modCore_touches
    | with_reducible apply State.nextSegment_touches
    | (with_reducible intro _; try dsimp only)
    | split

theorem State.endTick_touches {M : Nat} {s0 : State} (s : State) (hM : Sub 735097810519544764 M) (hT : Touches M s0 s) :
  Touches M s0 (State.endTick s) := by
  unfold State.endTick
  try dsimp only
  repeat' first
    | with_reducible assumption
    | (with_reducible refine Sub.trans ?_ hM) <;> exact Sub.lit rfl
    | with_reducible apply State.finishEnd_touches
    | with_reducible apply Touches.foldl
    | with_reducible apply Touches1.foldl
    | with_reducible apply Touches1.fst
    | (with_reducible intro _; try dsimp only)
    | split
    | with_reducible apply Touches1.mk

theorem State.engineRow_touches {M : Nat} {s0 : State} (s : State) (c op : Nat) (q : Queue) (regions : Nat → List Region)
  (run : State → Issued → State) (hrun : ∀ u0 u1, Touches M s0 u0 → Touches M s0 (run u0 u1)) (hM : Sub 33554692 M) (hT :
  Touches M s0 s) : Touches M s0 (State.engineRow s c op q regions run) := by
  unfold State.engineRow
  try dsimp only
  repeat' first
    | with_reducible assumption
    | (with_reducible refine Sub.trans ?_ hM) <;> exact Sub.lit rfl
    | with_reducible apply State.tryIssue_touches
    | with_reducible apply hrun
    | (with_reducible intro _; try dsimp only)
    | split

theorem State.entryTaken_touches {M : Nat} {s0 : State} (s : State) (q : Nat) (hM : Sub 234946604 M) (hT : Touches M s0 s)
  : Touches M s0 (State.entryTaken s q) := by
  unfold State.entryTaken
  try dsimp only
  repeat' first
    | with_reducible assumption
    | (with_reducible refine Sub.trans ?_ hM) <;> exact Sub.lit rfl
    | with_reducible apply State.count_touches
    | with_reducible apply State.setHeadWait_touches
    | with_reducible apply State.ctxWrite_touches
    | (with_reducible intro _; try dsimp only)
    | split

theorem State.entryDone_touches {M : Nat} {s0 : State} (s : State) (q w : Nat) (hM : Sub 144115188329693500 M) (hT :
  Touches M s0 s) : Touches M s0 (State.entryDone s q w) := by
  unfold State.entryDone
  try dsimp only
  repeat' first
    | with_reducible assumption
    | (with_reducible refine Sub.trans ?_ hM) <;> exact Sub.lit rfl
    | with_reducible apply State.postCompletion_touches
    | with_reducible apply State.entryTaken_touches
    | (with_reducible intro _; try dsimp only)
    | split

theorem State.unreadEntry_touches {M : Nat} {s0 : State} (s : State) (q code : Nat) (hM : Sub 162129586839699772 M) (hT :
  Touches M s0 s) : Touches M s0 (State.unreadEntry s q code) := by
  unfold State.unreadEntry
  try dsimp only
  repeat' first
    | with_reducible assumption
    | (with_reducible refine Sub.trans ?_ hM) <;> exact Sub.lit rfl
    | with_reducible apply State.postCompletion_touches
    | with_reducible apply State.fresh_touches
    | with_reducible apply State.entryTaken_touches
    | with_reducible apply State.setQueueState_touches
    | with_reducible apply Touches2.snd
    | (with_reducible intro _; try dsimp only)
    | split

theorem State.readEntry_touches {M : Nat} {s0 : State} (s : State) (q : Nat) (hM : Sub 35651588 M) (hT : Touches M s0 s) :
  Touches1 M s0 (State.readEntry s q) := by
  unfold State.readEntry
  try dsimp only
  repeat' first
    | with_reducible assumption
    | (with_reducible refine Sub.trans ?_ hM) <;> exact Sub.lit rfl
    | with_reducible apply State.refuseAccess_touches
    | with_reducible apply State.translate_touches
    | with_reducible apply State.ctxSeen_touches
    | with_reducible apply State.raiseAs_touches
    | with_reducible apply Touches1.fst
    | (with_reducible intro _; try dsimp only)
    | split
    | with_reducible apply Touches1.mk

theorem State.postFailure_touches {M : Nat} {s0 : State} (s : State) (q w status : Nat) (hM : Sub 144115188329627964 M) (hT
  : Touches M s0 s) : Touches M s0 (State.postFailure s q w status) := by
  unfold State.postFailure
  try dsimp only
  repeat' first
    | with_reducible assumption
    | (with_reducible refine Sub.trans ?_ hM) <;> exact Sub.lit rfl
    | with_reducible apply State.postCompletion_touches
    | (with_reducible intro _; try dsimp only)
    | split

theorem State.failEntry_touches {M : Nat} {s0 : State} (s : State) (q w code : Nat) (hM : Sub 144115188330217788 M) (hT :
  Touches M s0 s) : Touches M s0 (State.failEntry s q w code) := by
  unfold State.failEntry
  try dsimp only
  repeat' first
    | with_reducible assumption
    | (with_reducible refine Sub.trans ?_ hM) <;> exact Sub.lit rfl
    | with_reducible apply State.postFailure_touches
    | with_reducible apply State.entryTaken_touches
    | with_reducible apply State.setQueueState_touches
    | (with_reducible intro _; try dsimp only)
    | split

theorem State.entryRow_touches {M : Nat} {s0 : State} (s : State) (q type : Nat) (act : State → Nat → State) (hact : ∀ u0
  u1, Touches M s0 u0 → Touches M s0 (act u0 u1)) (hM : Sub 738590339143388988 M) (hT : Touches M s0 s) : Touches M s0
  (State.entryRow s q type act) := by
  unfold State.entryRow
  try dsimp only
  repeat' first
    | with_reducible assumption
    | (with_reducible refine Sub.trans ?_ hM) <;> exact Sub.lit rfl
    | with_reducible apply State.unreadEntry_touches
    | with_reducible apply State.readEntry_touches
    | with_reducible apply State.failEntry_touches
    | with_reducible apply State.beginEntryWait_touches
    | with_reducible apply Touches1.fst
    | with_reducible apply hact
    | (with_reducible intro _; try dsimp only)
    | split
    | with_reducible apply Touches1.mk

theorem State.ethCheck_touches {M : Nat} {s0 : State} (s : State) (n a len : Nat) (write : Bool) (hM : Sub 33554436 M) (hT
  : Touches M s0 s) : Touches1 M s0 (State.ethCheck s n a len write) := by
  unfold State.ethCheck
  try dsimp only
  repeat' first
    | with_reducible assumption
    | (with_reducible refine Sub.trans ?_ hM) <;> exact Sub.lit rfl
    | with_reducible apply State.refuseAccess_touches
    | with_reducible apply Touches1.fst
    | (with_reducible intro _; try dsimp only)
    | split
    | with_reducible apply Touches1.mk

theorem State.ethBack_touches {M : Nat} {s0 : State} (s : State) (n r stamp len flags hash : Nat) (hM : Sub 251658284 M)
  (hT : Touches M s0 s) : Touches M s0 (State.ethBack s n r stamp len flags hash) := by
  unfold State.ethBack
  try dsimp only
  repeat' first
    | with_reducible assumption
    | (with_reducible refine Sub.trans ?_ hM) <;> exact Sub.lit rfl
    | with_reducible apply State.storeNat_touches
    | with_reducible apply State.wr_touches
    | with_reducible apply State.ethCheck_touches
    | with_reducible apply State.setOut_touches
    | with_reducible apply Touches1.fst
    | (with_reducible intro _; try dsimp only)
    | split
    | with_reducible apply Touches1.mk

theorem State.ethRead_touches {M : Nat} {s0 : State} (s : State) (n a len : Nat) (hM : Sub 301989892 M) (hT : Touches M s0
  s) : Touches1 M s0 (State.ethRead s n a len) := by
  unfold State.ethRead
  try dsimp only
  repeat' first
    | with_reducible assumption
    | (with_reducible refine Sub.trans ?_ hM) <;> exact Sub.lit rfl
    | with_reducible apply State.cacheReads_touches
    | with_reducible apply State.ethCheck_touches
    | with_reducible apply State.raiseAs_touches
    | with_reducible apply Touches1.fst
    | (with_reducible intro _; try dsimp only)
    | split
    | with_reducible apply Touches1.mk

theorem State.failHead_touches {M : Nat} {s0 : State} (s : State) (c w code : Nat) (hM : Sub 260 M) (hT : Touches M s0 s) :
  Touches M s0 (State.failHead s c w code) := by
  unfold State.failHead
  try dsimp only
  repeat' first
    | with_reducible assumption
    | (with_reducible refine Sub.trans ?_ hM) <;> exact Sub.lit rfl
    | with_reducible apply State.failCore_touches
    | (with_reducible intro _; try dsimp only)
    | split

theorem State.failLayer_touches {M : Nat} {s0 : State} (s : State) (f q code : Nat) (hM : Sub 1099511627776 M) (hT :
  Touches M s0 s) : Touches M s0 (State.failLayer s f q code) := by
  unfold State.failLayer
  try dsimp only
  repeat' first
    | with_reducible assumption
    | (with_reducible refine Sub.trans ?_ hM) <;> exact Sub.lit rfl
    | with_reducible apply State.modFeed_touches
    | (with_reducible intro _; try dsimp only)
    | split

theorem State.objectWrite_touches {M : Nat} {s0 : State} (s : State) (o off : Nat) (bs : List (BitVec 8)) (trailer : Bool)
  (hM : Sub 1073741824 M) (hT : Touches M s0 s) : Touches M s0 (State.objectWrite s o off bs trailer) := by
  unfold State.objectWrite
  try dsimp only
  repeat' first
    | with_reducible assumption
    | (with_reducible refine Sub.trans ?_ hM) <;> exact Sub.lit rfl
    | with_reducible apply State.setObject_touches
    | (with_reducible intro _; try dsimp only)
    | split

theorem State.refuseObject_touches {M : Nat} {s0 : State} (s : State) (a : Agent) (o : Nat) (c : Code) (reason : Nat) (hM :
  Sub 33554436 M) (hT : Touches M s0 s) : Touches M s0 (State.refuseObject s a o c reason) := by
  unfold State.refuseObject
  try dsimp only
  repeat' first
    | with_reducible assumption
    | (with_reducible refine Sub.trans ?_ hM) <;> exact Sub.lit rfl
    | with_reducible apply State.raise_touches
    | with_reducible apply State.raiseAs_touches
    | with_reducible apply State.count_touches
    | (with_reducible intro _; try dsimp only)
    | split

theorem State.writeUnit_touches {M : Nat} {s0 : State} (s : State) (x : Xfer) (bs : List (BitVec 8)) (trailer : Nat) (hM :
  Sub 2252149283094572 M) (hT : Touches M s0 s) : Touches1 M s0 (State.writeUnit s x bs trailer) := by
  unfold State.writeUnit
  try dsimp only
  repeat' first
    | with_reducible assumption
    | (with_reducible refine Sub.trans ?_ hM) <;> exact Sub.lit rfl
    | with_reducible apply State.objectWrite_touches
    | with_reducible apply State.dmaWriteTo_touches
    | with_reducible apply State.refuseObject_touches
    | with_reducible apply Touches1.fst
    | with_reducible apply Touches.foldl
    | with_reducible apply Touches1.foldl
    | with_reducible apply Touches1.fst
    | (with_reducible intro _; try dsimp only)
    | split
    | with_reducible apply Touches1.mk

theorem State.failUnit_touches {M : Nat} {s0 : State} (s : State) (x : Xfer) (bs : List (BitVec 8)) (trailer code : Nat)
  (hM : Sub 2252149283094572 M) (hT : Touches M s0 s) : Touches1 M s0 (State.failUnit s x bs trailer code) := by
  unfold State.failUnit
  try dsimp only
  repeat' first
    | with_reducible assumption
    | (with_reducible refine Sub.trans ?_ hM) <;> exact Sub.lit rfl
    | with_reducible apply State.writeUnit_touches
    | with_reducible apply State.countChan_touches
    | with_reducible apply Touches1.fst
    | (with_reducible intro _; try dsimp only)
    | split
    | with_reducible apply Touches1.mk

theorem State.fenceRun_touches {M : Nat} {s0 : State} (s : State) (c : Nat) (i : Issued) (hM : Sub 33554692 M) (hT :
  Touches M s0 s) : Touches1 M s0 (State.fenceRun s c i) := by
  unfold State.fenceRun
  try dsimp only
  repeat' first
    | with_reducible assumption
    | (with_reducible refine Sub.trans ?_ hM) <;> exact Sub.lit rfl
    | with_reducible apply State.raiseCore_touches
    | with_reducible apply State.branch_touches
    | with_reducible apply State.raiseLoad_touches
    | with_reducible apply Touches1.fst
    | (with_reducible intro _; try dsimp only)
    | split
    | with_reducible apply Touches1.mk

theorem State.fetchAddr_touches {M : Nat} {s0 : State} (s : State) (x : Xfer) (sa n ta : Nat) (hM : Sub 4503947821711364 M)
  (hT : Touches M s0 s) : Touches1 M s0 (State.fetchAddr s x sa n ta) := by
  unfold State.fetchAddr
  try dsimp only
  repeat' first
    | with_reducible assumption
    | (with_reducible refine Sub.trans ?_ hM) <;> exact Sub.lit rfl
    | with_reducible apply State.unreachable_touches
    | with_reducible apply State.askRemote_touches
    | with_reducible apply State.dmaFetch_touches
    | with_reducible apply State.dmaRead_touches
    | with_reducible apply State.agentRead_touches
    | with_reducible apply Touches1.fst
    | (with_reducible intro _; try dsimp only)
    | split
    | with_reducible apply Touches1.mk

theorem State.fetchFailed_touches {M : Nat} {s0 : State} (s : State) (c code index : Nat) (hM : Sub 33554692 M) (hT :
  Touches M s0 s) : Touches M s0 (State.fetchFailed s c code index) := by
  unfold State.fetchFailed
  try dsimp only
  repeat' first
    | with_reducible assumption
    | (with_reducible refine Sub.trans ?_ hM) <;> exact Sub.lit rfl
    | with_reducible apply State.failCore_touches
    | with_reducible apply State.traceFailed_touches
    | (with_reducible intro _; try dsimp only)
    | split

theorem State.fetchHartLine_touches {M : Nat} {s0 : State} (s : State) (h a : Nat) (store : Bool) (hM : Sub
  36028797320953860 M) (hT : Touches M s0 s) : Touches1 M s0 (State.fetchHartLine s h a store) := by
  unfold State.fetchHartLine
  try dsimp only
  repeat' first
    | with_reducible assumption
    | (with_reducible refine Sub.trans ?_ hM) <;> exact Sub.lit rfl
    | with_reducible apply State.cacheReads_touches
    | with_reducible apply State.raiseAs_touches
    | with_reducible apply State.putHartLine_touches
    | with_reducible apply Touches1.fst
    | (with_reducible intro _; try dsimp only)
    | split
    | with_reducible apply Touches1.mk

theorem State.readUnits_touches {M : Nat} {s0 : State} (s : State) (a : Agent) (o : Nat) (x : FlashObj) (us : List Nat) (hM
  : Sub 33554436 M) (hT : Touches M s0 s) : Touches1 M s0 (State.readUnits s a o x us) := by
  unfold State.readUnits
  try dsimp only
  repeat' first
    | with_reducible assumption
    | (with_reducible refine Sub.trans ?_ hM) <;> exact Sub.lit rfl
    | with_reducible apply State.readUnitsAs_touches
    | with_reducible apply Touches1.fst
    | (with_reducible intro _; try dsimp only)
    | split
    | with_reducible apply Touches1.mk

theorem State.objectRead_touches {M : Nat} {s0 : State} (s : State) (a : Agent) (o : Nat) (ranges : List (Nat × Nat)) (hM :
  Sub 4947835879428 M) (hT : Touches M s0 s) : Touches1 M s0 (State.objectRead s a o ranges) := by
  unfold State.objectRead
  try dsimp only
  repeat' first
    | with_reducible assumption
    | (with_reducible refine Sub.trans ?_ hM) <;> exact Sub.lit rfl
    | with_reducible apply State.readUnits_touches
    | with_reducible apply State.refuseObject_touches
    | with_reducible apply State.raise_touches
    | with_reducible apply State.beginRecovery_touches
    | with_reducible apply State.count_touches
    | (with_reducible apply TouchesQ.elim; with_reducible assumption)
    | with_reducible apply Touches1.fst
    | (with_reducible intro _; try dsimp only)
    | split
    | with_reducible apply Touches1.mk

theorem State.readRanges_touches {M : Nat} {s0 : State} (s : State) (a : Agent) (w : Nat) (l : List (Nat × Nat)) (hM : Sub
  4948104314884 M) (hT : Touches M s0 s) : Touches1 M s0 (State.readRanges s a w l) := by
  unfold State.readRanges
  try dsimp only
  repeat' first
    | with_reducible assumption
    | (with_reducible refine Sub.trans ?_ hM) <;> exact Sub.lit rfl
    | with_reducible apply State.objectRead_touches
    | with_reducible apply State.dmaFetch_touches
    | with_reducible apply Touches1.fst
    | with_reducible apply Touches.foldl
    | with_reducible apply Touches1.foldl
    | with_reducible apply Touches1.fst
    | (with_reducible intro _; try dsimp only)
    | split
    | with_reducible apply Touches1.mk

theorem State.raiseZpack_touches {M : Nat} {s0 : State} (s : State) (a : Agent) (w block reason : Nat) (hM : Sub 33554432
  M) (hT : Touches M s0 s) : Touches M s0 (State.raiseZpack s a w block reason) := by
  unfold State.raiseZpack
  try dsimp only
  repeat' first
    | with_reducible assumption
    | (with_reducible refine Sub.trans ?_ hM) <;> exact Sub.lit rfl
    | with_reducible apply State.raise_touches
    | (with_reducible intro _; try dsimp only)
    | split

theorem State.fetchRecord_touches {M : Nat} {s0 : State} (s : State) (x : Xfer) (b : Nat) (hM : Sub 4948104314884 M) (hT :
  Touches M s0 s) : Touches1 M s0 (State.fetchRecord s x b) := by
  unfold State.fetchRecord
  try dsimp only
  repeat' first
    | with_reducible assumption
    | (with_reducible refine Sub.trans ?_ hM) <;> exact Sub.lit rfl
    | with_reducible apply State.readRanges_touches
    | with_reducible apply State.raiseZpack_touches
    | with_reducible apply State.count_touches
    | with_reducible apply Touches1.fst
    | (with_reducible intro _; try dsimp only)
    | split
    | with_reducible apply Touches1.mk

theorem State.fetchZpack_touches {M : Nat} {s0 : State} (s : State) (x : Xfer) (j : Nat) (hM : Sub 4948104314884 M) (hT :
  Touches M s0 s) : Touches1 M s0 (State.fetchZpack s x j) := by
  unfold State.fetchZpack
  try dsimp only
  repeat' first
    | with_reducible assumption
    | (with_reducible refine Sub.trans ?_ hM) <;> exact Sub.lit rfl
    | with_reducible apply State.readRanges_touches
    | with_reducible apply State.raiseZpack_touches
    | with_reducible apply State.fetchRecord_touches
    | with_reducible apply Touches1.fst
    | (with_reducible intro _; try dsimp only)
    | split
    | with_reducible apply Touches1.mk

theorem State.fetchUnit_touches {M : Nat} {s0 : State} (s : State) (x : Xfer) (hM : Sub 4508895624036356 M) (hT : Touches M
  s0 s) : Touches1 M s0 (State.fetchUnit s x) := by
  unfold State.fetchUnit
  try dsimp only
  repeat' first
    | with_reducible assumption
    | (with_reducible refine Sub.trans ?_ hM) <;> exact Sub.lit rfl
    | with_reducible apply State.objectRead_touches
    | with_reducible apply State.fetchAddr_touches
    | with_reducible apply State.fetchZpack_touches
    | with_reducible apply Touches1.fst
    | (with_reducible intro _; try dsimp only)
    | split
    | with_reducible apply Touches1.mk

theorem State.hartLoadAt_touches {M : Nat} {s0 : State} (s : State) (h a n : Nat) (cached : Bool) (hM : Sub
  40532396948324356 M) (hT : Touches M s0 s) : Touches1 M s0 (State.hartLoadAt s h a n cached) := by
  unfold State.hartLoadAt
  try dsimp only
  repeat' first
    | with_reducible assumption
    | (with_reducible refine Sub.trans ?_ hM) <;> exact Sub.lit rfl
    | with_reducible apply State.cacheReads_touches
    | with_reducible apply State.refuseAccess_touches
    | with_reducible apply State.raiseAs_touches
    | with_reducible apply State.fetchHartLine_touches
    | with_reducible apply State.wideRead_touches
    | with_reducible apply Touches1.fst
    | (with_reducible intro _; try dsimp only)
    | split
    | with_reducible apply Touches1.mk

theorem hartWalk_touches {M : Nat} {s0 : State} (h : Nat) (need : HartNeed) (view : HartView) (fault : Nat) (next : State →
  Nat → State × HartXlat) (a : Nat) (y0 : Nat) (y1 : Nat) (y2 : Nat) (y3 : State) (hnext : ∀ u0 u1, Touches M s0 u0 →
  Touches1 M s0 (next u0 u1)) (hM : Sub 40532396948324356 M) (hT : Touches M s0 y3) : Touches1 M s0 (hartWalk h need view
  fault next a y0 y1 y2 y3) := by
  induction y1 generalizing y0 y2 y3 with
  | zero =>
    unfold hartWalk
    try dsimp only
    repeat' first
      | with_reducible assumption
      | (with_reducible refine Sub.trans ?_ hM) <;> exact Sub.lit rfl
      | with_reducible apply State.hartLoadAt_touches
      | with_reducible apply ih
      | with_reducible apply Touches1.fst
      | with_reducible apply hnext
      | (with_reducible intro _; try dsimp only)
      | split
      | with_reducible apply Touches1.mk
  | succ n ih =>
    unfold hartWalk
    try dsimp only
    repeat' first
      | with_reducible assumption
      | (with_reducible refine Sub.trans ?_ hM) <;> exact Sub.lit rfl
      | with_reducible apply State.hartLoadAt_touches
      | with_reducible apply ih
      | with_reducible apply Touches1.fst
      | with_reducible apply hnext
      | (with_reducible intro _; try dsimp only)
      | split
      | with_reducible apply Touches1.mk

theorem State.firstStage_touches {M : Nat} {s0 : State} (s : State) (h atp : Nat) (need : HartNeed) (view : HartView) (next
  : State → Nat → State × HartXlat) (a : Nat) (hnext : ∀ u0 u1, Touches M s0 u0 → Touches1 M s0 (next u0 u1)) (hM : Sub
  40532396948324356 M) (hT : Touches M s0 s) : Touches1 M s0 (State.firstStage s h atp need view next a) := by
  unfold State.firstStage
  try dsimp only
  repeat' first
    | with_reducible assumption
    | (with_reducible refine Sub.trans ?_ hM) <;> exact Sub.lit rfl
    | with_reducible apply hartWalk_touches
    | with_reducible apply Touches1.fst
    | with_reducible apply hnext
    | (with_reducible intro _; try dsimp only)
    | split
    | with_reducible apply Touches1.mk

theorem State.flitOut_touches {M : Nat} {s0 : State} (s : State) (n : Nat) (p : Port) (l : Nat) (hM : Sub 4345298948 M) (hT
  : Touches M s0 s) : Touches M s0 (State.flitOut s n p l) := by
  unfold State.flitOut
  try dsimp only
  repeat' first
    | with_reducible assumption
    | (with_reducible refine Sub.trans ?_ hM) <;> exact Sub.lit rfl
    | with_reducible apply State.modPort_touches
    | with_reducible apply State.setOut_touches
    | with_reducible apply State.count_touches
    | (with_reducible intro _; try dsimp only)
    | split

theorem State.ownerReset_touches {M : Nat} {s0 : State} (s : State) (p : Nat) (owns : Nat → Bool) (hM : Sub
  576460752555148076 M) (hT : Touches M s0 s) : Touches M s0 (State.ownerReset s p owns) := by
  unfold State.ownerReset
  try dsimp only
  repeat' first
    | with_reducible assumption
    | (with_reducible refine Sub.trans ?_ hM) <;> exact Sub.lit rfl
    | with_reducible apply State.orphan_touches
    | with_reducible apply Touches.foldl
    | with_reducible apply Touches1.foldl
    | with_reducible apply Touches1.fst
    | (with_reducible intro _; try dsimp only)
    | split
    | with_reducible apply Touches1.mk

theorem State.mbxPartitionReset_touches {M : Nat} {s0 : State} (s : State) (p : Nat) (hM : Sub 148618787753558020 M) (hT :
  Touches M s0 s) : Touches M s0 (State.mbxPartitionReset s p) := by
  unfold State.mbxPartitionReset
  try dsimp only
  repeat' first
    | with_reducible assumption
    | (with_reducible refine Sub.trans ?_ hM) <;> exact Sub.lit rfl
    | with_reducible apply State.mbxReset_touches
    | with_reducible apply Touches.foldl
    | with_reducible apply Touches1.foldl
    | with_reducible apply Touches1.fst
    | (with_reducible intro _; try dsimp only)
    | split
    | with_reducible apply Touches1.mk

theorem State.resetOwner_touches {M : Nat} {s0 : State} (s : State) (p : Nat) (hM : Sub 725079540258374444 M) (hT : Touches
  M s0 s) : Touches M s0 (State.resetOwner s p) := by
  unfold State.resetOwner
  try dsimp only
  repeat' first
    | with_reducible assumption
    | (with_reducible refine Sub.trans ?_ hM) <;> exact Sub.lit rfl
    | with_reducible apply State.ownerReset_touches
    | with_reducible apply State.wr_touches
    | with_reducible apply State.mbxPartitionReset_touches
    | with_reducible apply Touches.foldl
    | with_reducible apply Touches1.foldl
    | with_reducible apply Touches1.fst
    | (with_reducible intro _; try dsimp only)
    | split
    | with_reducible apply Touches1.mk

theorem State.flrPart_touches {M : Nat} {s0 : State} (s : State) (p kind : Nat) (fails : List (Nat × Nat)) (hM : Sub
  735097810519544764 M) (hT : Touches M s0 s) : Touches M s0 (State.flrPart s p kind fails) := by
  unfold State.flrPart
  try dsimp only
  repeat' first
    | with_reducible assumption
    | (with_reducible refine Sub.trans ?_ hM) <;> exact Sub.lit rfl
    | with_reducible apply State.destroy_touches
    | with_reducible apply State.flrDone_touches
    | with_reducible apply State.beginEnd_touches
    | with_reducible apply State.resetOwner_touches
    | with_reducible apply State.wr_touches
    | with_reducible apply State.modJob_touches
    | with_reducible apply State.setReferee_touches
    | (with_reducible intro _; try dsimp only)
    | split

theorem State.setInbox_touches {M : Nat} {s0 : State} (s : State) (x : List (Nat × Msg)) (hM : Sub 8589934592 M) (hT :
  Touches M s0 s) : Touches M s0 (State.setInbox s x) := by
  unfold State.setInbox
  try dsimp only
  repeat' first
    | with_reducible assumption
    | (with_reducible refine Sub.trans ?_ hM) <;> exact Sub.lit rfl
    | with_reducible apply Touches.set_inbox
    | (with_reducible intro _; try dsimp only)
    | split

theorem State.forward_touches {M : Nat} {s0 : State} (s : State) (i n : Nat) (m : Msg) (hM : Sub 145766928613380 M) (hT :
  Touches M s0 s) : Touches M s0 (State.forward s i n m) := by
  unfold State.forward
  try dsimp only
  repeat' first
    | with_reducible assumption
    | (with_reducible refine Sub.trans ?_ hM) <;> exact Sub.lit rfl
    | with_reducible apply State.dropMsg_touches
    | with_reducible apply State.enqueueMsg_touches
    | with_reducible apply State.setInbox_touches
    | with_reducible apply State.count_touches
    | (with_reducible intro _; try dsimp only)
    | split

theorem State.seeReads_touches {M : Nat} {s0 : State} (s : State) (w : Accessor) (unit : Nat) (l : List (Nat × Nat)) (hM :
  Sub 33554436 M) (hT : Touches M s0 s) : Touches M s0 (State.seeReads s w unit l) := by
  unfold State.seeReads
  try dsimp only
  repeat' first
    | with_reducible assumption
    | (with_reducible refine Sub.trans ?_ hM) <;> exact Sub.lit rfl
    | with_reducible apply State.readVia_touches
    | with_reducible apply Touches2.snd
    | with_reducible apply Touches.foldl
    | with_reducible apply Touches1.foldl
    | with_reducible apply Touches1.fst
    | (with_reducible intro _; try dsimp only)
    | split
    | with_reducible apply Touches1.mk

theorem State.fpRound_touches {M : Nat} {s0 : State} (s : State) (p : Nat) (go : State → Nat → State) (hgo : ∀ u0 u1,
  Touches M s0 u0 → Touches M s0 (go u0 u1)) (hM : Sub 140737521909764 M) (hT : Touches M s0 s) : Touches M s0
  (State.fpRound s p go) := by
  unfold State.fpRound
  try dsimp only
  repeat' first
    | with_reducible assumption
    | (with_reducible refine Sub.trans ?_ hM) <;> exact Sub.lit rfl
    | with_reducible apply State.seeReads_touches
    | with_reducible apply State.modJob_touches
    | with_reducible apply hgo
    | (with_reducible intro _; try dsimp only)
    | split

theorem State.freeMsg_touches {M : Nat} {s0 : State} (s : State) (i : Nat) (hM : Sub 12884901888 M) (hT : Touches M s0 s) :
  Touches M s0 (State.freeMsg s i) := by
  unfold State.freeMsg
  try dsimp only
  repeat' first
    | with_reducible assumption
    | (with_reducible refine Sub.trans ?_ hM) <;> exact Sub.lit rfl
    | with_reducible apply State.freeVia_touches
    | with_reducible apply State.setInbox_touches
    | (with_reducible intro _; try dsimp only)
    | split

theorem State.reqReply_touches {M : Nat} {s0 : State} (s : State) (path : ReqPath) (req code len data : Nat) (hM : Sub
  148618787753558020 M) (hT : Touches M s0 s) : Touches M s0 (State.reqReply s path req code len data) := by
  unfold State.reqReply
  try dsimp only
  repeat' first
    | with_reducible assumption
    | (with_reducible refine Sub.trans ?_ hM) <;> exact Sub.lit rfl
    | with_reducible apply State.setReg_touches
    | with_reducible apply State.mbxAcknowledge_touches
    | with_reducible apply State.setOut_touches
    | with_reducible apply State.count_touches
    | with_reducible apply Touches.foldl
    | with_reducible apply Touches1.foldl
    | with_reducible apply Touches1.fst
    | (with_reducible intro _; try dsimp only)
    | split
    | with_reducible apply Touches1.mk

theorem State.fuseFail_touches {M : Nat} {s0 : State} (s : State) (path : ReqPath) (req field : Nat) (hM : Sub
  148618787753558020 M) (hT : Touches M s0 s) : Touches M s0 (State.fuseFail s path req field) := by
  unfold State.fuseFail
  try dsimp only
  repeat' first
    | with_reducible assumption
    | (with_reducible refine Sub.trans ?_ hM) <;> exact Sub.lit rfl
    | with_reducible apply State.reqReply_touches
    | with_reducible apply State.raise_touches
    | (with_reducible intro _; try dsimp only)
    | split

theorem State.setMaskBits_touches {M : Nat} {s0 : State} (s : State) (c k : Nat) (g : GList) (i : Nat) (hM : Sub 234881068
  M) (hT : Touches M s0 s) : Touches1 M s0 (State.setMaskBits s c k g i) := by
  unfold State.setMaskBits
  try dsimp only
  repeat' first
    | with_reducible assumption
    | (with_reducible refine Sub.trans ?_ hM) <;> exact Sub.lit rfl
    | with_reducible apply State.refuseAccess_touches
    | with_reducible apply State.storeNat_touches
    | with_reducible apply Touches1.fst
    | with_reducible apply Touches.foldl
    | with_reducible apply Touches1.foldl
    | with_reducible apply Touches1.fst
    | (with_reducible intro _; try dsimp only)
    | split
    | with_reducible apply Touches1.mk

theorem State.gatherRow_touches {M : Nat} {s0 : State} (s : State) (c : Nat) (d : Desc) (k : Nat) (bs : List (BitVec 8))
  (hM : Sub 201326632 M) (hT : Touches M s0 s) : Touches M s0 (State.gatherRow s c d k bs) := by
  unfold State.gatherRow
  try dsimp only
  repeat' first
    | with_reducible assumption
    | (with_reducible refine Sub.trans ?_ hM) <;> exact Sub.lit rfl
    | with_reducible apply State.store_touches
    | (with_reducible intro _; try dsimp only)
    | split

theorem State.tableFault_touches {M : Nat} {s0 : State} (s : State) (c k a n : Nat) (read write : Bool) (hM : Sub 33554436
  M) (hT : Touches M s0 s) : TouchesP M s0 (State.tableFault s c k a n read write) := by
  unfold State.tableFault
  try dsimp only
  repeat' first
    | with_reducible assumption
    | (with_reducible refine Sub.trans ?_ hM) <;> exact Sub.lit rfl
    | with_reducible apply State.refuseAccess_touches
    | with_reducible apply State.raiseAs_touches
    | with_reducible apply Touches1.fst
    | with_reducible exact TouchesP.none
    | with_reducible apply TouchesP.some
    | with_reducible apply TouchesP.map
    | with_reducible apply TouchesP.findSome
    | with_reducible apply TouchesP.orElse
    | with_reducible exact TouchesP.none
    | (with_reducible intro _; try dsimp only)
    | split
    | with_reducible apply Touches1.mk

theorem State.gatherAt_touches {M : Nat} {s0 : State} (s : State) (c ch : Nat) (g : GList) (k : Nat) (d : Desc) (i : Nat)
  (hM : Sub 503316524 M) (hT : Touches M s0 s) : Touches1 M s0 (State.gatherAt s c ch g k d i) := by
  unfold State.gatherAt
  try dsimp only
  repeat' first
    | with_reducible assumption
    | (with_reducible refine Sub.trans ?_ hM) <;> exact Sub.lit rfl
    | with_reducible apply State.countGather_touches
    | with_reducible apply State.cacheReads_touches
    | with_reducible apply State.setMaskBits_touches
    | with_reducible apply State.store_touches
    | with_reducible apply State.gatherRow_touches
    | with_reducible apply State.cacheWrites_touches
    | with_reducible apply State.tableFault_touches
    | with_reducible apply State.count_touches
    | with_reducible apply State.raiseLoad_touches
    | (with_reducible apply TouchesP.elim; with_reducible assumption)
    | with_reducible apply Touches1.fst
    | with_reducible apply TouchesP.map
    | with_reducible apply TouchesP.findSome
    | with_reducible apply TouchesP.orElse
    | with_reducible exact TouchesP.none
    | with_reducible apply Touches.ifSome
    | with_reducible apply Touches1.ifSome
    | with_reducible apply TouchesL.ifSome
    | with_reducible apply TouchesP.ifSome
    | with_reducible apply TouchesO.ifSome
    | (with_reducible intro _; try dsimp only)
    | split
    | with_reducible apply Touches1.mk

theorem State.gatherEntry_touches {M : Nat} {s0 : State} (s : State) (c ch : Nat) (g : GList) (k : Nat) (hM : Sub 503316524
  M) (hT : Touches M s0 s) : Touches1 M s0 (State.gatherEntry s c ch g k) := by
  unfold State.gatherEntry
  try dsimp only
  repeat' first
    | with_reducible assumption
    | (with_reducible refine Sub.trans ?_ hM) <;> exact Sub.lit rfl
    | with_reducible apply State.gatherAt_touches
    | with_reducible apply Touches1.fst
    | (with_reducible intro _; try dsimp only)
    | split
    | with_reducible apply Touches1.mk

theorem State.gatherAll_touches {M : Nat} {s0 : State} (c ch : Nat) (g : GList) (y0 : Nat) (y1 : Nat) (y2 : State) (hM :
  Sub 503316524 M) (hT : Touches M s0 y2) : Touches1 M s0 (State.gatherAll c ch g y0 y1 y2) := by
  induction y0 generalizing y1 y2 with
  | zero =>
    unfold State.gatherAll
    try dsimp only
    repeat' first
      | with_reducible assumption
      | (with_reducible refine Sub.trans ?_ hM) <;> exact Sub.lit rfl
      | with_reducible apply State.gatherEntry_touches
      | with_reducible apply ih
      | with_reducible apply Touches1.fst
      | (with_reducible intro _; try dsimp only)
      | split
      | with_reducible apply Touches1.mk
  | succ n ih =>
    unfold State.gatherAll
    try dsimp only
    repeat' first
      | with_reducible assumption
      | (with_reducible refine Sub.trans ?_ hM) <;> exact Sub.lit rfl
      | with_reducible apply State.gatherEntry_touches
      | with_reducible apply ih
      | with_reducible apply Touches1.fst
      | (with_reducible intro _; try dsimp only)
      | split
      | with_reducible apply Touches1.mk

theorem State.gatherEnd_touches {M : Nat} {s0 : State} (s : State) (c ch : Nat) (i : Issued) (code : Nat) (hM : Sub 260 M)
  (hT : Touches M s0 s) : Touches M s0 (State.gatherEnd s c ch i code) := by
  unfold State.gatherEnd
  try dsimp only
  repeat' first
    | with_reducible assumption
    | (with_reducible refine Sub.trans ?_ hM) <;> exact Sub.lit rfl
    | with_reducible apply State.wr_touches
    | with_reducible apply State.executed_touches
    | (with_reducible intro _; try dsimp only)
    | split

theorem State.gatherStoreFault_touches {M : Nat} {s0 : State} (s : State) (c : Nat) (i : Issued) (g : GList) (hM : Sub
  33554432 M) (hT : Touches M s0 s) : TouchesP M s0 (State.gatherStoreFault s c i g) := by
  unfold State.gatherStoreFault
  try dsimp only
  repeat' first
    | with_reducible assumption
    | (with_reducible refine Sub.trans ?_ hM) <;> exact Sub.lit rfl
    | with_reducible apply State.raiseExtract_touches
    | with_reducible apply State.raiseLoad_touches
    | with_reducible apply Touches1.fst
    | with_reducible exact TouchesP.none
    | with_reducible apply TouchesP.some
    | with_reducible apply TouchesP.map
    | with_reducible apply TouchesP.findSome
    | with_reducible apply TouchesP.orElse
    | with_reducible exact TouchesP.none
    | with_reducible apply Touches.ifSome
    | with_reducible apply Touches1.ifSome
    | with_reducible apply TouchesL.ifSome
    | with_reducible apply TouchesP.ifSome
    | with_reducible apply TouchesO.ifSome
    | (with_reducible intro _; try dsimp only)
    | split
    | with_reducible apply Touches1.mk

theorem State.gatherStored_touches {M : Nat} {s0 : State} (s : State) (c ch : Nat) (i : Issued) (g : GList) (n : Nat) (hM :
  Sub 771752236 M) (hT : Touches M s0 s) : Touches M s0 (State.gatherStored s c ch i g n) := by
  unfold State.gatherStored
  try dsimp only
  repeat' first
    | with_reducible assumption
    | (with_reducible refine Sub.trans ?_ hM) <;> exact Sub.lit rfl
    | with_reducible apply State.watchStore_touches
    | with_reducible apply State.setNat_touches
    | with_reducible apply State.clearBad_touches
    | with_reducible apply State.countStore_touches
    | with_reducible apply State.writeTrailer_touches
    | with_reducible apply State.count_touches
    | with_reducible apply State.putElem_touches
    | with_reducible apply State.statStore_touches
    | with_reducible apply Touches.foldl
    | with_reducible apply Touches1.foldl
    | with_reducible apply Touches1.fst
    | (with_reducible intro _; try dsimp only)
    | split
    | with_reducible apply Touches1.mk

theorem State.gatherRows_touches {M : Nat} {s0 : State} (s : State) (c ch : Nat) (i : Issued) (g : GList) (hM : Sub
  1040187692 M) (hT : Touches M s0 s) : Touches1 M s0 (State.gatherRows s c ch i g) := by
  unfold State.gatherRows
  try dsimp only
  repeat' first
    | with_reducible assumption
    | (with_reducible refine Sub.trans ?_ hM) <;> exact Sub.lit rfl
    | with_reducible apply State.gatherStored_touches
    | with_reducible apply State.raise_touches
    | with_reducible apply State.gatherAll_touches
    | with_reducible apply State.count_touches
    | with_reducible apply Touches1.fst
    | (with_reducible intro _; try dsimp only)
    | split
    | with_reducible apply Touches1.mk

end Sys2Proof.Machine
end

