-- ==== Sys2Proof/Laws/Touches4.lean ====
section
/-!
SUPPORT. The frames of operations and commands, part 4: each may change the fields of its mask only, and keeps the canonical form.
-/
namespace Sys2Proof.Machine

theorem State.gatherGo_touches {M : Nat} {s0 : State} (s : State) (c ch : Nat) (i : Issued) (hM : Sub 1040187692 M) (hT :
  Touches M s0 s) : Touches1 M s0 (State.gatherGo s c ch i) := by
  unfold State.gatherGo
  try dsimp only
  repeat' first
    | with_reducible assumption
    | (with_reducible refine Sub.trans ?_ hM) <;> exact Sub.lit rfl
    | with_reducible apply State.gatherStoreFault_touches
    | with_reducible apply State.gatherRows_touches
    | with_reducible apply State.raiseParity_touches
    | (with_reducible apply TouchesP.elim; with_reducible assumption)
    | with_reducible apply Touches1.fst
    | with_reducible apply TouchesP.map
    | with_reducible apply TouchesP.findSome
    | with_reducible apply TouchesP.orElse
    | with_reducible exact TouchesP.none
    | (with_reducible intro _; try dsimp only)
    | split
    | with_reducible apply Touches1.mk

theorem State.gatherRefused_touches {M : Nat} {s0 : State} (s : State) (c ch w : Nat) (y0 : Nat ⊕ Nat) (hM : Sub 33554432
  M) (hT : Touches M s0 s) : Touches1 M s0 (State.gatherRefused s c ch w y0) := by
  unfold State.gatherRefused
  try dsimp only
  repeat' first
    | with_reducible assumption
    | (with_reducible refine Sub.trans ?_ hM) <;> exact Sub.lit rfl
    | with_reducible apply State.raiseDesc_touches
    | with_reducible apply State.raise_touches
    | with_reducible apply Touches1.fst
    | (with_reducible intro _; try dsimp only)
    | split
    | with_reducible apply Touches1.mk

theorem State.gatherRun_touches {M : Nat} {s0 : State} (s : State) (hw : List Hw) (c ch : Nat) (i : Issued) (hM : Sub
  1040187692 M) (hT : Touches M s0 s) : Touches M s0 (State.gatherRun s hw c ch i) := by
  unfold State.gatherRun
  try dsimp only
  repeat' first
    | with_reducible assumption
    | (with_reducible refine Sub.trans ?_ hM) <;> exact Sub.lit rfl
    | with_reducible apply State.gatherEnd_touches
    | with_reducible apply State.began_touches
    | with_reducible apply State.gatherGo_touches
    | with_reducible apply State.gatherRefused_touches
    | with_reducible apply State.applyHw_touches
    | with_reducible apply Touches1.fst
    | (with_reducible intro _; try dsimp only)
    | split
    | with_reducible apply Touches1.mk

theorem State.groupTick_touches {M : Nat} {s0 : State} (s : State) (hM : Sub 8800421543936 M) (hT : Touches M s0 s) :
  Touches M s0 (State.groupTick s) := by
  unfold State.groupTick
  try dsimp only
  repeat' first
    | with_reducible assumption
    | (with_reducible refine Sub.trans ?_ hM) <;> exact Sub.lit rfl
    | with_reducible apply State.computeGroups_touches
    | (with_reducible intro _; try dsimp only)
    | split

theorem State.groupViewIn_touches {M : Nat} {s0 : State} (s : State) (id group : Nat) (complete : Bool) (members : List
  Nat) (hM : Sub 26392607588356 M) (hT : Touches M s0 s) : Touches M s0 (State.groupViewIn s id group complete members) :=
  by
  unfold State.groupViewIn
  try dsimp only
  repeat' first
    | with_reducible assumption
    | (with_reducible refine Sub.trans ?_ hM) <;> exact Sub.lit rfl
    | with_reducible apply State.sendView_touches
    | with_reducible apply State.setGviews_touches
    | with_reducible apply State.adoptGroup_touches
    | (with_reducible intro _; try dsimp only)
    | split

theorem identityXlat_touches {M : Nat} {s0 : State} (s : State) (a : Nat) (_ : Sub 0 M) (hT : Touches M s0 s) : Touches1 M
  s0 (identityXlat s a) := by
  unfold identityXlat
  try dsimp only
  repeat' first
    | with_reducible assumption
    | (with_reducible refine Sub.trans ?_ hM) <;> exact Sub.lit rfl
    | with_reducible apply Touches1.fst
    | (with_reducible intro _; try dsimp only)
    | split
    | with_reducible apply Touches1.mk

theorem State.guestStage_touches {M : Nat} {s0 : State} (s : State) (h : Nat) (need : HartNeed) (a : Nat) (hM : Sub
  40532396948324356 M) (hT : Touches M s0 s) : Touches1 M s0 (State.guestStage s h need a) := by
  unfold State.guestStage
  try dsimp only
  repeat' first
    | with_reducible assumption
    | (with_reducible refine Sub.trans ?_ hM) <;> exact Sub.lit rfl
    | with_reducible apply hartWalk_touches
    | with_reducible apply identityXlat_touches
    | with_reducible apply Touches1.fst
    | (with_reducible intro _; try dsimp only)
    | split
    | with_reducible apply Touches1.mk

theorem State.hartFault_touches {M : Nat} {s0 : State} (s : State) (h cause : Nat) (hM : Sub 16777216 M) (hT : Touches M s0
  s) : Touches M s0 (State.hartFault s h cause) := by
  unfold State.hartFault
  try dsimp only
  repeat' first
    | with_reducible assumption
    | (with_reducible refine Sub.trans ?_ hM) <;> exact Sub.lit rfl
    | with_reducible apply State.setOut_touches
    | (with_reducible intro _; try dsimp only)
    | split

theorem State.hartTranslate_touches {M : Nat} {s0 : State} (s : State) (h : Nat) (mode : HartMode) (need : HartNeed) (a :
  Nat) (hM : Sub 40532396948324356 M) (hT : Touches M s0 s) : Touches1 M s0 (State.hartTranslate s h mode need a) := by
  unfold State.hartTranslate
  try dsimp only
  repeat' first
    | with_reducible assumption
    | (with_reducible refine Sub.trans ?_ hM) <;> exact Sub.lit rfl
    | with_reducible apply State.firstStage_touches
    | with_reducible apply State.guestStage_touches
    | with_reducible apply identityXlat_touches
    | with_reducible apply Touches1.fst
    | (with_reducible intro _; try dsimp only)
    | split
    | with_reducible apply Touches1.mk

theorem State.writeBack_touches {M : Nat} {s0 : State} (s : State) (h a : Nat) (hM : Sub 36028797522280492 M) (hT : Touches
  M s0 s) : Touches M s0 (State.writeBack s h a) := by
  unfold State.writeBack
  try dsimp only
  repeat' first
    | with_reducible assumption
    | (with_reducible refine Sub.trans ?_ hM) <;> exact Sub.lit rfl
    | with_reducible apply State.refuseAccess_touches
    | with_reducible apply State.store_touches
    | with_reducible apply State.cacheWrites_touches
    | with_reducible apply State.putHartLine_touches
    | (with_reducible intro _; try dsimp only)
    | split

theorem State.hartBlock_touches {M : Nat} {s0 : State} (s : State) (h : Nat) (mode : HartMode) (a : Nat) (write drop :
  Bool) (hM : Sub 40532397166428204 M) (hT : Touches M s0 s) : Touches M s0 (State.hartBlock s h mode a write drop) := by
  unfold State.hartBlock
  try dsimp only
  repeat' first
    | with_reducible assumption
    | (with_reducible refine Sub.trans ?_ hM) <;> exact Sub.lit rfl
    | with_reducible apply State.hartFault_touches
    | with_reducible apply State.dropHartLine_touches
    | with_reducible apply State.hartTranslate_touches
    | with_reducible apply State.writeBack_touches
    | with_reducible apply Touches1.fst
    | (with_reducible intro _; try dsimp only)
    | split
    | with_reducible apply Touches1.mk

theorem State.hartLoad_touches {M : Nat} {s0 : State} (s : State) (h : Nat) (mode : HartMode) (a : Nat) (y0 : List Nat) (hM
  : Sub 40532396948324356 M) (hT : Touches M s0 s) : Touches1 M s0 (State.hartLoad s h mode a y0) := by
  induction y0 generalizing s a with
  | nil =>
    unfold State.hartLoad
    try dsimp only
    repeat' first
      | with_reducible assumption
      | (with_reducible refine Sub.trans ?_ hM) <;> exact Sub.lit rfl
      | with_reducible apply State.hartLoadAt_touches
      | with_reducible apply ih
      | with_reducible apply State.hartTranslate_touches
      | with_reducible apply Touches1.fst
      | (with_reducible intro _; try dsimp only)
      | split
      | with_reducible apply Touches1.mk
  | cons k t ih =>
    unfold State.hartLoad
    try dsimp only
    repeat' first
      | with_reducible assumption
      | (with_reducible refine Sub.trans ?_ hM) <;> exact Sub.lit rfl
      | with_reducible apply State.hartLoadAt_touches
      | with_reducible apply ih
      | with_reducible apply State.hartTranslate_touches
      | with_reducible apply Touches1.fst
      | (with_reducible intro _; try dsimp only)
      | split
      | with_reducible apply Touches1.mk

theorem State.hartParity_touches {M : Nat} {s0 : State} (s : State) (h a : Nat) (store : Bool) (hM : Sub 36028797337731076
  M) (hT : Touches M s0 s) : Touches M s0 (State.hartParity s h a store) := by
  unfold State.hartParity
  try dsimp only
  repeat' first
    | with_reducible assumption
    | (with_reducible refine Sub.trans ?_ hM) <;> exact Sub.lit rfl
    | with_reducible apply State.hartFault_touches
    | with_reducible apply State.dropHartLine_touches
    | with_reducible apply State.raiseAs_touches
    | with_reducible apply State.fetchHartLine_touches
    | with_reducible apply Touches1.fst
    | (with_reducible intro _; try dsimp only)
    | split
    | with_reducible apply Touches1.mk

theorem State.wideWrite_touches {M : Nat} {s0 : State} (s : State) (m : Master) (a n value : Nat) (hM : Sub
  1152921365020409790 M) (hT : Touches M s0 s) : Touches M s0 (State.wideWrite s m a n value) := by
  unfold State.wideWrite
  try dsimp only
  repeat' first
    | with_reducible assumption
    | (with_reducible refine Sub.trans ?_ hM) <;> exact Sub.lit rfl
    | with_reducible apply State.busWrite_touches
    | with_reducible apply Touches.foldl
    | with_reducible apply Touches1.foldl
    | with_reducible apply Touches1.fst
    | (with_reducible intro _; try dsimp only)
    | split
    | with_reducible apply Touches1.mk

theorem State.hartStoreAt_touches {M : Nat} {s0 : State} (s : State) (h a : Nat) (bs : List (BitVec 8)) (cached : Bool) (hM
  : Sub 1152921365020409790 M) (hT : Touches M s0 s) : Touches1 M s0 (State.hartStoreAt s h a bs cached) := by
  unfold State.hartStoreAt
  try dsimp only
  repeat' first
    | with_reducible assumption
    | (with_reducible refine Sub.trans ?_ hM) <;> exact Sub.lit rfl
    | with_reducible apply State.wideWrite_touches
    | with_reducible apply State.refuseAccess_touches
    | with_reducible apply State.store_touches
    | with_reducible apply State.cacheWrites_touches
    | with_reducible apply State.fetchHartLine_touches
    | with_reducible apply State.putHartLine_touches
    | with_reducible apply Touches1.fst
    | (with_reducible intro _; try dsimp only)
    | split
    | with_reducible apply Touches1.mk

theorem State.hartStore_touches {M : Nat} {s0 : State} (s : State) (h : Nat) (mode : HartMode) (a : Nat) (y0 : List (List
  (BitVec 8))) (hM : Sub 1152921365020409790 M) (hT : Touches M s0 s) : Touches1 M s0 (State.hartStore s h mode a y0) := by
  induction y0 generalizing s a with
  | nil =>
    unfold State.hartStore
    try dsimp only
    repeat' first
      | with_reducible assumption
      | (with_reducible refine Sub.trans ?_ hM) <;> exact Sub.lit rfl
      | with_reducible apply State.hartTranslate_touches
      | with_reducible apply ih
      | with_reducible apply State.hartStoreAt_touches
      | with_reducible apply Touches1.fst
      | (with_reducible intro _; try dsimp only)
      | split
      | with_reducible apply Touches1.mk
  | cons k t ih =>
    unfold State.hartStore
    try dsimp only
    repeat' first
      | with_reducible assumption
      | (with_reducible refine Sub.trans ?_ hM) <;> exact Sub.lit rfl
      | with_reducible apply State.hartTranslate_touches
      | with_reducible apply ih
      | with_reducible apply State.hartStoreAt_touches
      | with_reducible apply Touches1.fst
      | (with_reducible intro _; try dsimp only)
      | split
      | with_reducible apply Touches1.mk

theorem State.hear_touches {M : Nat} {s0 : State} (s : State) (chip : Nat) (hM : Sub 17179869184 M) (hT : Touches M s0 s) :
  Touches M s0 (State.hear s chip) := by
  unfold State.hear
  try dsimp only
  repeat' first
    | with_reducible assumption
    | (with_reducible refine Sub.trans ?_ hM) <;> exact Sub.lit rfl
    | with_reducible apply State.modFellows_touches
    | (with_reducible intro _; try dsimp only)
    | split

theorem State.unitHeld_touches {M : Nat} {s0 : State} (s : State) (m : Msg) (hM : Sub 4947835879428 M) (hT : Touches M s0
  s) : TouchesQ M s0 (State.unitHeld s m) := by
  unfold State.unitHeld
  try dsimp only
  repeat' first
    | with_reducible assumption
    | (with_reducible refine Sub.trans ?_ hM) <;> exact Sub.lit rfl
    | with_reducible apply State.beginRecovery_touches
    | with_reducible apply State.countModes_touches
    | (with_reducible apply TouchesQ.elim; with_reducible assumption)
    | with_reducible exact TouchesQ.none
    | with_reducible apply TouchesQ.some
    | (with_reducible intro _; try dsimp only)
    | split

theorem State.heldHere_touches {M : Nat} {s0 : State} (s : State) (m : Msg) (hM : Sub 4947835879428 M) (hT : Touches M s0
  s) : TouchesQ M s0 (State.heldHere s m) := by
  unfold State.heldHere
  try dsimp only
  repeat' first
    | with_reducible assumption
    | (with_reducible refine Sub.trans ?_ hM) <;> exact Sub.lit rfl
    | with_reducible apply State.unitHeld_touches
    | (with_reducible apply TouchesQ.elim; with_reducible assumption)
    | with_reducible exact TouchesQ.none
    | with_reducible apply TouchesQ.some
    | (with_reducible intro _; try dsimp only)
    | split

theorem State.issueFence_touches {M : Nat} {s0 : State} (s : State) (c w : Nat) (hM : Sub 3302863407364 M) (hT : Touches M
  s0 s) : Touches M s0 (State.issueFence s c w) := by
  unfold State.issueFence
  try dsimp only
  repeat' first
    | with_reducible assumption
    | (with_reducible refine Sub.trans ?_ hM) <;> exact Sub.lit rfl
    | with_reducible apply State.retire_touches
    | with_reducible apply State.began_touches
    | with_reducible apply State.issueHead_touches
    | with_reducible apply State.modFeed_touches
    | with_reducible apply State.afterIssue_touches
    | with_reducible apply State.setFences_touches
    | (with_reducible intro _; try dsimp only)
    | split

theorem State.jumpRun_touches {M : Nat} {s0 : State} (s : State) (c : Nat) (i : Issued) (hM : Sub 33554692 M) (hT : Touches
  M s0 s) : Touches1 M s0 (State.jumpRun s c i) := by
  unfold State.jumpRun
  try dsimp only
  repeat' first
    | with_reducible assumption
    | (with_reducible refine Sub.trans ?_ hM) <;> exact Sub.lit rfl
    | with_reducible apply State.raiseCore_touches
    | with_reducible apply State.branch_touches
    | with_reducible apply Touches1.fst
    | (with_reducible intro _; try dsimp only)
    | split
    | with_reducible apply Touches1.mk

theorem State.leaveGroups_touches {M : Nat} {s0 : State} (s : State) (hM : Sub 26388312621060 M) (hT : Touches M s0 s) :
  Touches M s0 (State.leaveGroups s) := by
  unfold State.leaveGroups
  try dsimp only
  repeat' first
    | with_reducible assumption
    | (with_reducible refine Sub.trans ?_ hM) <;> exact Sub.lit rfl
    | with_reducible apply State.redViewChanged_touches
    | with_reducible apply State.wr_touches
    | with_reducible apply State.setGviews_touches
    | with_reducible apply Touches.foldl
    | with_reducible apply Touches1.foldl
    | with_reducible apply Touches1.fst
    | (with_reducible intro _; try dsimp only)
    | split
    | with_reducible apply Touches1.mk

theorem State.limited_touches {M : Nat} {s0 : State} (s : State) (cause : Nat) (hM : Sub 9007199288295424 M) (hT : Touches
  M s0 s) : Touches M s0 (State.limited s cause) := by
  unfold State.limited
  try dsimp only
  repeat' first
    | with_reducible assumption
    | (with_reducible refine Sub.trans ?_ hM) <;> exact Sub.lit rfl
    | with_reducible apply State.raise_touches
    | with_reducible apply State.setPower_touches
    | (with_reducible intro _; try dsimp only)
    | split

theorem State.setManager_touches {M : Nat} {s0 : State} (s : State) (chip : Nat) (hM : Sub 33554436 M) (hT : Touches M s0
  s) : Touches M s0 (State.setManager s chip) := by
  unfold State.setManager
  try dsimp only
  repeat' first
    | with_reducible assumption
    | (with_reducible refine Sub.trans ?_ hM) <;> exact Sub.lit rfl
    | with_reducible apply State.wr_touches
    | with_reducible apply State.raise_touches
    | (with_reducible intro _; try dsimp only)
    | split

theorem State.managerLost_touches {M : Nat} {s0 : State} (s : State) (hM : Sub 26409988784172 M) (hT : Touches M s0 s) :
  Touches M s0 (State.managerLost s) := by
  unfold State.managerLost
  try dsimp only
  repeat' first
    | with_reducible assumption
    | (with_reducible refine Sub.trans ?_ hM) <;> exact Sub.lit rfl
    | with_reducible apply State.leaveGroups_touches
    | with_reducible apply State.hear_touches
    | with_reducible apply State.wr_touches
    | with_reducible apply State.changeView_touches
    | with_reducible apply State.setManager_touches
    | with_reducible apply Touches.foldl
    | with_reducible apply Touches1.foldl
    | with_reducible apply Touches1.fst
    | (with_reducible intro _; try dsimp only)
    | split
    | with_reducible apply Touches1.mk

theorem State.mctpControl_touches {M : Nat} {s0 : State} (s : State) (inst cmd cc : Nat) (data : List Nat) (hM : Sub
  16777216 M) (hT : Touches M s0 s) : Touches M s0 (State.mctpControl s inst cmd cc data) := by
  unfold State.mctpControl
  try dsimp only
  repeat' first
    | with_reducible assumption
    | (with_reducible refine Sub.trans ?_ hM) <;> exact Sub.lit rfl
    | with_reducible apply State.setOut_touches
    | (with_reducible intro _; try dsimp only)
    | split

theorem State.setRedRings_touches {M : Nat} {s0 : State} (s : State) (x : List (Nat × RedRing)) (hM : Sub 70368744177664 M)
  (hT : Touches M s0 s) : Touches M s0 (State.setRedRings s x) := by
  unfold State.setRedRings
  try dsimp only
  repeat' first
    | with_reducible assumption
    | (with_reducible refine Sub.trans ?_ hM) <;> exact Sub.lit rfl
    | with_reducible apply Touches.set_redRings
    | (with_reducible intro _; try dsimp only)
    | split

theorem State.modRedRing_touches {M : Nat} {s0 : State} (s : State) (p : Nat) (f : RedRing → RedRing) (hM : Sub
  70368744177664 M) (hT : Touches M s0 s) : Touches M s0 (State.modRedRing s p f) := by
  unfold State.modRedRing
  try dsimp only
  repeat' first
    | with_reducible assumption
    | (with_reducible refine Sub.trans ?_ hM) <;> exact Sub.lit rfl
    | with_reducible apply State.setRedRings_touches
    | (with_reducible intro _; try dsimp only)
    | split

theorem State.passUnit_touches {M : Nat} {s0 : State} (s : State) (x : Xfer) (bs : List (BitVec 8)) (trailer : Nat) (hM :
  Sub 2252149283094572 M) (hT : Touches M s0 s) : Touches1 M s0 (State.passUnit s x bs trailer) := by
  unfold State.passUnit
  try dsimp only
  repeat' first
    | with_reducible assumption
    | (with_reducible refine Sub.trans ?_ hM) <;> exact Sub.lit rfl
    | with_reducible apply State.writeUnit_touches
    | with_reducible apply State.countChan_touches
    | with_reducible apply Touches1.fst
    | (with_reducible intro _; try dsimp only)
    | split
    | with_reducible apply Touches1.mk

theorem State.rereadUnit_touches {M : Nat} {s0 : State} (s : State) (x : Xfer) (hM : Sub 4508895624036356 M) (hT : Touches
  M s0 s) : Touches M s0 (State.rereadUnit s x) := by
  unfold State.rereadUnit
  try dsimp only
  repeat' first
    | with_reducible assumption
    | (with_reducible refine Sub.trans ?_ hM) <;> exact Sub.lit rfl
    | with_reducible apply State.fetchUnit_touches
    | with_reducible apply Touches1.fst
    | (with_reducible intro _; try dsimp only)
    | split
    | with_reducible apply Touches1.mk

theorem State.verifyUnit_touches {M : Nat} {s0 : State} (s : State) (x : Xfer) (again : Option Code) (poisoned : Bool) (bs
  : List (BitVec 8)) (trailer : Nat) (hM : Sub 6760696712790060 M) (hT : Touches M s0 s) : Touches1 M s0 (State.verifyUnit
  s x again poisoned bs trailer) := by
  unfold State.verifyUnit
  try dsimp only
  repeat' first
    | with_reducible assumption
    | (with_reducible refine Sub.trans ?_ hM) <;> exact Sub.lit rfl
    | with_reducible apply State.countChan_touches
    | with_reducible apply State.passUnit_touches
    | with_reducible apply State.failUnit_touches
    | with_reducible apply State.raiseAs_touches
    | with_reducible apply State.rereadUnit_touches
    | with_reducible apply Touches1.fst
    | (with_reducible intro _; try dsimp only)
    | split
    | with_reducible apply Touches1.mk

theorem State.moveUnit_touches {M : Nat} {s0 : State} (s : State) (x : Xfer) (hw : List Hw) (hM : Sub 6760696712790060 M)
  (hT : Touches M s0 s) : Touches1 M s0 (State.moveUnit s x hw) := by
  unfold State.moveUnit
  try dsimp only
  repeat' first
    | with_reducible assumption
    | (with_reducible refine Sub.trans ?_ hM) <;> exact Sub.lit rfl
    | with_reducible apply State.passUnit_touches
    | with_reducible apply State.verifyUnit_touches
    | with_reducible apply State.fetchUnit_touches
    | with_reducible apply Touches1.fst
    | (with_reducible intro _; try dsimp only)
    | split
    | with_reducible apply Touches1.mk

theorem State.moveUnits_touches {M : Nat} {s0 : State} (hw : List Hw) (y0 : Nat) (y1 : State) (y2 : Xfer) (hM : Sub
  6760696712790060 M) (hT : Touches M s0 y1) : Touches1 M s0 (State.moveUnits hw y0 y1 y2) := by
  fun_induction State.moveUnits hw y0 y1 y2
  all_goals try dsimp only
  all_goals repeat' first
    | with_reducible assumption
    | (with_reducible refine Sub.trans ?_ hM) <;> exact Sub.lit rfl
    | with_reducible apply State.moveUnit_touches
    | with_reducible apply Touches1.fst
    | with_reducible apply_assumption
    | (with_reducible intro _; try dsimp only)
    | split
    | with_reducible apply Touches1.mk

theorem State.msgsIn_touches {M : Nat} {s0 : State} (s : State) (n : Nat) (creditsOnly : Bool) (ms : List Msg) (hM : Sub
  8623489028 M) (hT : Touches M s0 s) : Touches M s0 (State.msgsIn s n creditsOnly ms) := by
  unfold State.msgsIn
  try dsimp only
  repeat' first
    | with_reducible assumption
    | (with_reducible refine Sub.trans ?_ hM) <;> exact Sub.lit rfl
    | with_reducible apply State.setInbox_touches
    | with_reducible apply State.count_touches
    | with_reducible apply Touches.foldl
    | with_reducible apply Touches1.foldl
    | with_reducible apply Touches1.fst
    | (with_reducible intro _; try dsimp only)
    | split
    | with_reducible apply Touches1.mk

theorem State.retrain_touches {M : Nat} {s0 : State} (s : State) (n : Nat) (hM : Sub 4328521732 M) (hT : Touches M s0 s) :
  Touches M s0 (State.retrain s n) := by
  unfold State.retrain
  try dsimp only
  repeat' first
    | with_reducible assumption
    | (with_reducible refine Sub.trans ?_ hM) <;> exact Sub.lit rfl
    | with_reducible apply State.modPort_touches
    | with_reducible apply State.setStep_touches
    | with_reducible apply State.count_touches
    | (with_reducible intro _; try dsimp only)
    | split

theorem State.nakReceived_touches {M : Nat} {s0 : State} (s : State) (n ack : Nat) (hM : Sub 4328521732 M) (hT : Touches M
  s0 s) : Touches M s0 (State.nakReceived s n ack) := by
  unfold State.nakReceived
  try dsimp only
  repeat' first
    | with_reducible assumption
    | (with_reducible refine Sub.trans ?_ hM) <;> exact Sub.lit rfl
    | with_reducible apply State.modPort_touches
    | with_reducible apply State.raise_touches
    | with_reducible apply State.retrain_touches
    | with_reducible apply State.count_touches
    | (with_reducible intro _; try dsimp only)
    | split

theorem State.nextStep_touches {M : Nat} {s0 : State} (s : State) (r : Recovery) (n : Nat) (hM : Sub 6396582035716 M) (hT :
  Touches M s0 s) : Touches M s0 (State.nextStep s r n) := by
  unfold State.nextStep
  try dsimp only
  repeat' first
    | with_reducible assumption
    | (with_reducible refine Sub.trans ?_ hM) <;> exact Sub.lit rfl
    | with_reducible apply State.askAlternate_touches
    | with_reducible apply State.setRecovery_touches
    | with_reducible apply State.askDriver_touches
    | with_reducible apply State.recoveryFailed_touches
    | (with_reducible intro _; try dsimp only)
    | split

theorem State.onMsg_touches {M : Nat} {s0 : State} (s : State) (i type : Nat) (f : State → Nat → Msg → State) (hf : ∀ u0 u1
  u2, Touches M s0 u0 → Touches M s0 (f u0 u1 u2)) (hM : Sub 145766928613380 M) (hT : Touches M s0 s) : Touches M s0
  (State.onMsg s i type f) := by
  unfold State.onMsg
  try dsimp only
  repeat' first
    | with_reducible assumption
    | (with_reducible refine Sub.trans ?_ hM) <;> exact Sub.lit rfl
    | with_reducible apply State.forward_touches
    | with_reducible apply State.freeMsg_touches
    | with_reducible apply hf
    | (with_reducible intro _; try dsimp only)
    | split

theorem State.onResponse_touches {M : Nat} {s0 : State} (s : State) (m : Msg) (f : State → Req → State) (hf : ∀ u0 u1,
  Touches M s0 u0 → Touches M s0 (f u0 u1)) (_ : Sub 0 M) (hT : Touches M s0 s) : Touches M s0 (State.onResponse s m f) :=
  by
  unfold State.onResponse
  try dsimp only
  repeat' first
    | with_reducible assumption
    | (with_reducible refine Sub.trans ?_ hM) <;> exact Sub.lit rfl
    | with_reducible apply hf
    | (with_reducible intro _; try dsimp only)
    | split

theorem State.optBlockFault_touches {M : Nat} {s0 : State} (s : State) (c da : Nat) (d : Desc) (write : Bool) (t : Nat) (hM
  : Sub 33554436 M) (hT : Touches M s0 s) : TouchesP M s0 (State.optBlockFault s c da d write t) := by
  unfold State.optBlockFault
  try dsimp only
  repeat' first
    | with_reducible assumption
    | (with_reducible refine Sub.trans ?_ hM) <;> exact Sub.lit rfl
    | with_reducible apply State.refuseAccess_touches
    | with_reducible apply State.raiseCore_touches
    | with_reducible apply State.raiseAs_touches
    | with_reducible apply Touches1.fst
    | with_reducible exact TouchesP.none
    | with_reducible apply TouchesP.some
    | with_reducible apply TouchesP.map
    | with_reducible apply TouchesP.findSome
    | with_reducible apply TouchesP.orElse
    | with_reducible exact TouchesP.none
    | with_reducible apply Touches.ifSome
    | with_reducible apply Touches1.ifSome
    | with_reducible apply TouchesL.ifSome
    | with_reducible apply TouchesP.ifSome
    | with_reducible apply TouchesO.ifSome
    | (with_reducible intro _; try dsimp only)
    | split
    | with_reducible apply Touches1.mk

theorem State.optMaskFault_touches {M : Nat} {s0 : State} (s : State) (c w n : Nat) (hM : Sub 33554436 M) (hT : Touches M
  s0 s) : TouchesP M s0 (State.optMaskFault s c w n) := by
  unfold State.optMaskFault
  try dsimp only
  repeat' first
    | with_reducible assumption
    | (with_reducible refine Sub.trans ?_ hM) <;> exact Sub.lit rfl
    | with_reducible apply State.refuseAccess_touches
    | with_reducible apply Touches1.fst
    | with_reducible exact TouchesP.none
    | with_reducible apply TouchesP.some
    | with_reducible apply TouchesP.map
    | with_reducible apply TouchesP.findSome
    | with_reducible apply TouchesP.orElse
    | with_reducible exact TouchesP.none
    | (with_reducible intro _; try dsimp only)
    | split
    | with_reducible apply Touches1.mk

theorem State.optOperandFault_touches {M : Nat} {s0 : State} (s : State) (c w da : Nat) (write : Bool) (hM : Sub 33554436
  M) (hT : Touches M s0 s) : TouchesP M s0 (State.optOperandFault s c w da write) := by
  unfold State.optOperandFault
  try dsimp only
  repeat' first
    | with_reducible assumption
    | (with_reducible refine Sub.trans ?_ hM) <;> exact Sub.lit rfl
    | with_reducible apply State.optBlockFault_touches
    | with_reducible apply State.raiseLoad_touches
    | (with_reducible apply TouchesP.elim; with_reducible assumption)
    | with_reducible apply Touches1.fst
    | with_reducible exact TouchesP.none
    | with_reducible apply TouchesP.some
    | with_reducible apply TouchesP.map
    | with_reducible apply TouchesP.findSome
    | with_reducible apply TouchesP.orElse
    | with_reducible exact TouchesP.none
    | (with_reducible intro _; try dsimp only)
    | split
    | with_reducible apply Touches1.mk

theorem State.optReread_touches {M : Nat} {s0 : State} (s : State) (c : Nat) (das : List Nat) (code : Code) (a : Nat) (hM :
  Sub 33554432 M) (hT : Touches M s0 s) : Touches M s0 (State.optReread s c das code a) := by
  unfold State.optReread
  try dsimp only
  repeat' first
    | with_reducible assumption
    | (with_reducible refine Sub.trans ?_ hM) <;> exact Sub.lit rfl
    | with_reducible apply State.raiseAs_touches
    | (with_reducible intro _; try dsimp only)
    | split

theorem State.optRereads_touches {M : Nat} {s0 : State} (s : State) (c : Nat) (das : List Nat) (y0 : List Hw) (hM : Sub
  33554432 M) (hT : Touches M s0 s) : Touches M s0 (State.optRereads s c das y0) := by
  fun_induction State.optRereads s c das y0
  all_goals try dsimp +zetaDelta only at *
  all_goals repeat' first
    | with_reducible assumption
    | (with_reducible refine Sub.trans ?_ hM) <;> exact Sub.lit rfl
    | with_reducible apply State.optReread_touches
    | with_reducible apply_assumption
    | (with_reducible intro _; try dsimp only)
    | split

theorem State.optRun_touches {M : Nat} {s0 : State} (hw : List Hw) (s : State) (c : Nat) (i : Issued) (hM : Sub
  18014536988623148 M) (hT : Touches M s0 s) : Touches M s0 (State.optRun hw s c i) := by
  unfold State.optRun
  try dsimp only
  repeat' first
    | with_reducible assumption
    | (with_reducible refine Sub.trans ?_ hM) <;> exact Sub.lit rfl
    | with_reducible apply State.began_touches
    | with_reducible apply State.raiseCnv_touches
    | with_reducible apply State.optEnd_touches
    | with_reducible apply State.optOperandFault_touches
    | with_reducible apply State.vecFrom_touches
    | with_reducible apply State.optMaskFault_touches
    | with_reducible apply State.executed_touches
    | with_reducible apply State.applyHw_touches
    | with_reducible apply State.optRereads_touches
    | (with_reducible apply TouchesP.elim; with_reducible assumption)
    | with_reducible apply Touches1.fst
    | with_reducible apply TouchesP.map
    | with_reducible apply TouchesP.findSome
    | with_reducible apply TouchesP.orElse
    | with_reducible exact TouchesP.none
    | (with_reducible intro _; try dsimp only)
    | split
    | with_reducible apply Touches1.mk

theorem State.optWrite_touches {M : Nat} {s0 : State} (s : State) (p a n v : Nat) (hM : Sub 234881068 M) (hT : Touches M s0
  s) : Touches M s0 (State.optWrite s p a n v) := by
  unfold State.optWrite
  try dsimp only
  repeat' first
    | with_reducible assumption
    | (with_reducible refine Sub.trans ?_ hM) <;> exact Sub.lit rfl
    | with_reducible apply State.writeVia_touches
    | (with_reducible intro _; try dsimp only)
    | split

theorem State.outBindRun_touches {M : Nat} {s0 : State} (s : State) (c : Nat) (i : Issued) (hM : Sub 33554692 M) (hT :
  Touches M s0 s) : Touches1 M s0 (State.outBindRun s c i) := by
  unfold State.outBindRun
  try dsimp only
  repeat' first
    | with_reducible assumption
    | (with_reducible refine Sub.trans ?_ hM) <;> exact Sub.lit rfl
    | with_reducible apply State.setReg_touches
    | with_reducible apply State.modCore_touches
    | with_reducible apply State.raiseCore_touches
    | with_reducible apply Touches1.fst
    | (with_reducible intro _; try dsimp only)
    | split
    | with_reducible apply Touches1.mk

theorem State.outEnd_touches {M : Nat} {s0 : State} (s : State) (c : Nat) (i : Issued) (m code : Nat) (hM : Sub 33554692 M)
  (hT : Touches M s0 s) : Touches M s0 (State.outEnd s c i m code) := by
  unfold State.outEnd
  try dsimp only
  repeat' first
    | with_reducible assumption
    | (with_reducible refine Sub.trans ?_ hM) <;> exact Sub.lit rfl
    | with_reducible apply State.countAllLoads_touches
    | with_reducible apply State.executed_touches
    | with_reducible apply State.raiseOverflow_touches
    | (with_reducible intro _; try dsimp only)
    | split

theorem State.outRowsFrom_touches {M : Nat} {s0 : State} (c : Nat) (i : Issued) (y0 : Nat) (y1 : Nat) (y2 : State) (hM :
  Sub 100663588 M) (hT : Touches M s0 y2) : Touches M s0 (State.outRowsFrom c i y0 y1 y2) := by
  fun_induction State.outRowsFrom c i y0 y1 y2
  all_goals try dsimp +zetaDelta only at *
  all_goals repeat' first
    | with_reducible assumption
    | (with_reducible refine Sub.trans ?_ hM) <;> exact Sub.lit rfl
    | with_reducible apply State.putRow_touches
    | with_reducible apply State.outEnd_touches
    | with_reducible apply State.raiseCore_touches
    | with_reducible apply State.count_touches
    | with_reducible apply State.entryFault_touches
    | with_reducible apply State.raiseLoad_touches
    | (with_reducible apply TouchesP.elim; with_reducible assumption)
    | with_reducible apply Touches1.fst
    | with_reducible apply TouchesP.map
    | with_reducible apply TouchesP.findSome
    | with_reducible apply TouchesP.orElse
    | with_reducible exact TouchesP.none
    | with_reducible apply Touches.foldl
    | with_reducible apply Touches1.foldl
    | with_reducible apply Touches1.fst
    | with_reducible apply Touches.ifSome
    | with_reducible apply Touches1.ifSome
    | with_reducible apply TouchesL.ifSome
    | with_reducible apply TouchesP.ifSome
    | with_reducible apply TouchesO.ifSome
    | with_reducible apply_assumption
    | (with_reducible intro _; try dsimp only)
    | split
    | with_reducible apply Touches1.mk

theorem State.outRun_touches {M : Nat} {s0 : State} (hw : List Hw) (s : State) (c : Nat) (i : Issued) (hM : Sub 503316780
  M) (hT : Touches M s0 s) : Touches M s0 (State.outRun hw s c i) := by
  unfold State.outRun
  try dsimp only
  repeat' first
    | with_reducible assumption
    | (with_reducible refine Sub.trans ?_ hM) <;> exact Sub.lit rfl
    | with_reducible apply State.began_touches
    | with_reducible apply State.raiseCnv_touches
    | with_reducible apply State.outRowsFrom_touches
    | with_reducible apply State.raiseParity_touches
    | with_reducible apply State.executed_touches
    | with_reducible apply State.applyHw_touches
    | with_reducible apply Touches1.fst
    | with_reducible apply Touches.ifSome
    | with_reducible apply Touches1.ifSome
    | with_reducible apply TouchesL.ifSome
    | with_reducible apply TouchesP.ifSome
    | with_reducible apply TouchesO.ifSome
    | (with_reducible intro _; try dsimp only)
    | split
    | with_reducible apply Touches1.mk

theorem State.ownershipEvent_touches {M : Nat} {s0 : State} (s : State) (sev g kind : Nat) (hM : Sub 33554436 M) (hT :
  Touches M s0 s) : Touches M s0 (State.ownershipEvent s sev g kind) := by
  unfold State.ownershipEvent
  try dsimp only
  repeat' first
    | with_reducible assumption
    | (with_reducible refine Sub.trans ?_ hM) <;> exact Sub.lit rfl
    | with_reducible apply State.raiseAs_touches
    | with_reducible apply State.count_touches
    | (with_reducible intro _; try dsimp only)
    | split

theorem State.pauseClass_touches {M : Nat} {s0 : State} (s : State) (n r c : Nat) (hM : Sub 4311744512 M) (hT : Touches M
  s0 s) : Touches M s0 (State.pauseClass s n r c) := by
  unfold State.pauseClass
  try dsimp only
  repeat' first
    | with_reducible assumption
    | (with_reducible refine Sub.trans ?_ hM) <;> exact Sub.lit rfl
    | with_reducible apply State.modPort_touches
    | with_reducible apply State.sendPause_touches
    | (with_reducible intro _; try dsimp only)
    | split

theorem State.pfReset_touches {M : Nat} {s0 : State} (s : State) (fails : List (Nat × Nat)) (hM : Sub 735097810519544764 M)
  (hT : Touches M s0 s) : Touches M s0 (State.pfReset s fails) := by
  unfold State.pfReset
  try dsimp only
  repeat' first
    | with_reducible assumption
    | (with_reducible refine Sub.trans ?_ hM) <;> exact Sub.lit rfl
    | with_reducible apply State.flrDone_touches
    | with_reducible apply State.wr_touches
    | with_reducible apply State.mbxReset_touches
    | with_reducible apply State.disableStream_touches
    | with_reducible apply State.disableQueue_touches
    | with_reducible apply State.flrPart_touches
    | with_reducible apply State.setReferee_touches
    | with_reducible apply Touches.foldl
    | with_reducible apply Touches1.foldl
    | with_reducible apply Touches1.fst
    | (with_reducible intro _; try dsimp only)
    | split
    | with_reducible apply Touches1.mk

theorem State.setPfc_touches {M : Nat} {s0 : State} (s : State) (x : List (Nat × Nat)) (hM : Sub 34359738368 M) (hT :
  Touches M s0 s) : Touches M s0 (State.setPfc s x) := by
  unfold State.setPfc
  try dsimp only
  repeat' first
    | with_reducible assumption
    | (with_reducible refine Sub.trans ?_ hM) <;> exact Sub.lit rfl
    | with_reducible apply Touches.set_pfc
    | (with_reducible intro _; try dsimp only)
    | split

theorem State.pfcFrame_touches {M : Nat} {s0 : State} (s : State) (n : Nat) (f : List (BitVec 8)) (hM : Sub 34359738368 M)
  (hT : Touches M s0 s) : Touches M s0 (State.pfcFrame s n f) := by
  unfold State.pfcFrame
  try dsimp only
  repeat' first
    | with_reducible assumption
    | (with_reducible refine Sub.trans ?_ hM) <;> exact Sub.lit rfl
    | with_reducible apply State.setPfc_touches
    | with_reducible apply Touches.foldl
    | with_reducible apply Touches1.foldl
    | with_reducible apply Touches1.fst
    | (with_reducible intro _; try dsimp only)
    | split
    | with_reducible apply Touches1.mk

theorem State.platformTemps_touches {M : Nat} {s0 : State} (s : State) (hM : Sub 13510798898888704 M) (hT : Touches M s0 s)
  : Touches M s0 (State.platformTemps s) := by
  unfold State.platformTemps
  try dsimp only
  repeat' first
    | with_reducible assumption
    | (with_reducible refine Sub.trans ?_ hM) <;> exact Sub.lit rfl
    | with_reducible apply State.platformEvent_touches
    | with_reducible apply State.setPower_touches
    | with_reducible apply Touches.foldl
    | with_reducible apply Touches1.foldl
    | with_reducible apply Touches1.fst
    | (with_reducible intro _; try dsimp only)
    | split
    | with_reducible apply Touches1.mk

theorem State.pldm_touches {M : Nat} {s0 : State} (s : State) (inst type cmd cc : Nat) (data : List Nat) (hM : Sub 16777216
  M) (hT : Touches M s0 s) : Touches M s0 (State.pldm s inst type cmd cc data) := by
  unfold State.pldm
  try dsimp only
  repeat' first
    | with_reducible assumption
    | (with_reducible refine Sub.trans ?_ hM) <;> exact Sub.lit rfl
    | with_reducible apply State.setOut_touches
    | (with_reducible intro _; try dsimp only)
    | split

theorem State.pmkRow_touches {M : Nat} {s0 : State} (s : State) (c op : Nat) (run : State → Issued → State × Nat) (hrun : ∀
  u0 u1, Touches M s0 u0 → Touches1 M s0 (run u0 u1)) (hM : Sub 2203351779588 M) (hT : Touches M s0 s) : Touches M s0
  (State.pmkRow s c op run) := by
  unfold State.pmkRow
  try dsimp only
  repeat' first
    | with_reducible assumption
    | (with_reducible refine Sub.trans ?_ hM) <;> exact Sub.lit rfl
    | with_reducible apply State.retire_touches
    | with_reducible apply State.began_touches
    | with_reducible apply State.issueHead_touches
    | with_reducible apply State.afterIssue_touches
    | with_reducible apply Touches1.fst
    | with_reducible apply hrun
    | (with_reducible intro _; try dsimp only)
    | split
    | with_reducible apply Touches1.mk

theorem State.sendJoin_touches {M : Nat} {s0 : State} (s : State) (dst kind : Nat) (hM : Sub 4328521728 M) (hT : Touches M
  s0 s) : Touches M s0 (State.sendJoin s dst kind) := by
  unfold State.sendJoin
  try dsimp only
  repeat' first
    | with_reducible assumption
    | (with_reducible refine Sub.trans ?_ hM) <;> exact Sub.lit rfl
    | with_reducible apply State.sendMgt_touches
    | (with_reducible intro _; try dsimp only)
    | split

theorem State.rival_touches {M : Nat} {s0 : State} (s : State) (chip id : Nat) (hM : Sub 21508390916 M) (hT : Touches M s0
  s) : Touches M s0 (State.rival s chip id) := by
  unfold State.rival
  try dsimp only
  repeat' first
    | with_reducible assumption
    | (with_reducible refine Sub.trans ?_ hM) <;> exact Sub.lit rfl
    | with_reducible apply State.hear_touches
    | with_reducible apply State.wr_touches
    | with_reducible apply State.setManager_touches
    | with_reducible apply State.sendJoin_touches
    | (with_reducible intro _; try dsimp only)
    | split

theorem State.podView_touches {M : Nat} {s0 : State} (s : State) (src id : Nat) (members : List Nat) (hM : Sub
  26409988784172 M) (hT : Touches M s0 s) : Touches M s0 (State.podView s src id members) := by
  unfold State.podView
  try dsimp only
  repeat' first
    | with_reducible assumption
    | (with_reducible refine Sub.trans ?_ hM) <;> exact Sub.lit rfl
    | with_reducible apply State.leaveGroups_touches
    | with_reducible apply State.holdView_touches
    | with_reducible apply State.computeGroups_touches
    | with_reducible apply State.hear_touches
    | with_reducible apply State.wr_touches
    | with_reducible apply State.setManager_touches
    | with_reducible apply State.rival_touches
    | with_reducible apply State.sendJoin_touches
    | with_reducible apply State.modFellows_touches
    | (with_reducible intro _; try dsimp only)
    | split

theorem State.writeConst_touches {M : Nat} {s0 : State} (s : State) (p q n clip : Nat) (ginv gnext : Nat) (skipped sat :
  Bool) (hM : Sub 234881068 M) (hT : Touches M s0 s) : Touches M s0 (State.writeConst s p q n clip ginv gnext skipped sat)
  := by
  unfold State.writeConst
  try dsimp only
  repeat' first
    | with_reducible assumption
    | (with_reducible refine Sub.trans ?_ hM) <;> exact Sub.lit rfl
    | with_reducible apply State.optWrite_touches
    | (with_reducible intro _; try dsimp only)
    | split

theorem State.publishConstants_touches {M : Nat} {s0 : State} (s : State) (p n sumsq nf : Nat) (hM : Sub 234881068 M) (hT :
  Touches M s0 s) : Touches M s0 (State.publishConstants s p n sumsq nf) := by
  unfold State.publishConstants
  try dsimp only
  repeat' first
    | with_reducible assumption
    | (with_reducible refine Sub.trans ?_ hM) <;> exact Sub.lit rfl
    | with_reducible apply State.writeConst_touches
    | with_reducible apply State.wr_touches
    | with_reducible apply State.raise_touches
    | with_reducible apply State.count_touches
    | with_reducible apply Touches.foldl
    | with_reducible apply Touches1.foldl
    | with_reducible apply Touches1.fst
    | (with_reducible intro _; try dsimp only)
    | split
    | with_reducible apply Touches1.mk

theorem State.raiseFaults_touches {M : Nat} {s0 : State} (s : State) (p : Nat) (l : List (Code × Nat)) (hM : Sub 33554432
  M) (hT : Touches M s0 s) : Touches M s0 (State.raiseFaults s p l) := by
  unfold State.raiseFaults
  try dsimp only
  repeat' first
    | with_reducible assumption
    | (with_reducible refine Sub.trans ?_ hM) <;> exact Sub.lit rfl
    | with_reducible apply State.raiseAs_touches
    | with_reducible apply Touches.foldl
    | with_reducible apply Touches1.foldl
    | with_reducible apply Touches1.fst
    | (with_reducible intro _; try dsimp only)
    | split
    | with_reducible apply Touches1.mk

theorem State.startPiece_touches {M : Nat} {s0 : State} (s : State) (f q j : Nat) (hM : Sub 1787008385284 M) (hT : Touches
  M s0 s) : Touches M s0 (State.startPiece s f q j) := by
  unfold State.startPiece
  try dsimp only
  repeat' first
    | with_reducible assumption
    | (with_reducible refine Sub.trans ?_ hM) <;> exact Sub.lit rfl
    | with_reducible apply State.startXfer_touches
    | with_reducible apply State.pieceOver_touches
    | with_reducible apply State.failLayer_touches
    | with_reducible apply State.raiseXferDesc_touches
    | with_reducible apply State.dmaRead_touches
    | with_reducible apply Touches1.fst
    | (with_reducible intro _; try dsimp only)
    | split
    | with_reducible apply Touches1.mk

theorem State.startPieces_touches {M : Nat} {s0 : State} (s : State) (f q : Nat) (l : List Nat) (hM : Sub 1787008385284 M)
  (hT : Touches M s0 s) : Touches M s0 (State.startPieces s f q l) := by
  unfold State.startPieces
  try dsimp only
  repeat' first
    | with_reducible assumption
    | (with_reducible refine Sub.trans ?_ hM) <;> exact Sub.lit rfl
    | with_reducible apply State.startPiece_touches
    | with_reducible apply Touches.foldl
    | with_reducible apply Touches1.foldl
    | with_reducible apply Touches1.fst
    | (with_reducible intro _; try dsimp only)
    | split
    | with_reducible apply Touches1.mk

theorem State.startHeld_touches {M : Nat} {s0 : State} (s : State) (f : Nat) (hM : Sub 1787008385284 M) (hT : Touches M s0
  s) : Touches M s0 (State.startHeld s f) := by
  unfold State.startHeld
  try dsimp only
  repeat' first
    | with_reducible assumption
    | (with_reducible refine Sub.trans ?_ hM) <;> exact Sub.lit rfl
    | with_reducible apply State.startPieces_touches
    | with_reducible apply Touches.foldl
    | with_reducible apply Touches1.foldl
    | with_reducible apply Touches1.fst
    | (with_reducible intro _; try dsimp only)
    | split
    | with_reducible apply Touches1.mk

theorem State.releaseHold_touches {M : Nat} {s0 : State} (s : State) (o p : Nat) (hM : Sub 6185054896388 M) (hT : Touches M
  s0 s) : Touches M s0 (State.releaseHold s o p) := by
  unfold State.releaseHold
  try dsimp only
  repeat' first
    | with_reducible assumption
    | (with_reducible refine Sub.trans ?_ hM) <;> exact Sub.lit rfl
    | with_reducible apply State.modChan_touches
    | with_reducible apply State.setChanState_touches
    | with_reducible apply State.wr_touches
    | with_reducible apply State.startHeld_touches
    | with_reducible apply State.dropRecovery_touches
    | with_reducible apply Touches.foldl
    | with_reducible apply Touches1.foldl
    | with_reducible apply Touches1.fst
    | (with_reducible intro _; try dsimp only)
    | split
    | with_reducible apply Touches1.mk

theorem State.recoverySucceeded_touches {M : Nat} {s0 : State} (s : State) (r : Recovery) (x : FlashObj) (step : Nat) (hM :
  Sub 6186128638212 M) (hT : Touches M s0 s) : Touches M s0 (State.recoverySucceeded s r x step) := by
  unfold State.recoverySucceeded
  try dsimp only
  repeat' first
    | with_reducible assumption
    | (with_reducible refine Sub.trans ?_ hM) <;> exact Sub.lit rfl
    | with_reducible apply State.wr_touches
    | with_reducible apply State.raise_touches
    | with_reducible apply State.setObject_touches
    | with_reducible apply State.count_touches
    | with_reducible apply State.releaseHold_touches
    | (with_reducible intro _; try dsimp only)
    | split

theorem State.redBlockFault_touches {M : Nat} {s0 : State} (s : State) (p da : Nat) (d : Desc) (t : Nat) (hM : Sub 33554436
  M) (hT : Touches M s0 s) : TouchesP M s0 (State.redBlockFault s p da d t) := by
  unfold State.redBlockFault
  try dsimp only
  repeat' first
    | with_reducible assumption
    | (with_reducible refine Sub.trans ?_ hM) <;> exact Sub.lit rfl
    | with_reducible apply State.refuseAccess_touches
    | with_reducible apply State.raise_touches
    | with_reducible apply State.raiseAs_touches
    | with_reducible apply Touches1.fst
    | with_reducible exact TouchesP.none
    | with_reducible apply TouchesP.some
    | with_reducible apply TouchesP.map
    | with_reducible apply TouchesP.findSome
    | with_reducible apply TouchesP.orElse
    | with_reducible exact TouchesP.none
    | with_reducible apply Touches.ifSome
    | with_reducible apply Touches1.ifSome
    | with_reducible apply TouchesL.ifSome
    | with_reducible apply TouchesP.ifSome
    | with_reducible apply TouchesO.ifSome
    | (with_reducible intro _; try dsimp only)
    | split
    | with_reducible apply Touches1.mk

theorem State.redDeliver_touches {M : Nat} {s0 : State} (s : State) (p w : Nat) (r : Red) (hM : Sub 771752236 M) (hT :
  Touches M s0 s) : Touches1 M s0 (State.redDeliver s p w r) := by
  unfold State.redDeliver
  try dsimp only
  repeat' first
    | with_reducible assumption
    | (with_reducible refine Sub.trans ?_ hM) <;> exact Sub.lit rfl
    | with_reducible apply State.storePath_touches
    | with_reducible apply State.refuseAccess_touches
    | with_reducible apply State.raiseExtract_touches
    | with_reducible apply State.raise_touches
    | with_reducible apply State.count_touches
    | with_reducible apply Touches1.fst
    | with_reducible apply Touches.ifSome
    | with_reducible apply Touches1.ifSome
    | with_reducible apply TouchesL.ifSome
    | with_reducible apply TouchesP.ifSome
    | with_reducible apply TouchesO.ifSome
    | (with_reducible intro _; try dsimp only)
    | split
    | with_reducible apply Touches1.mk

theorem State.redEntryFail_touches {M : Nat} {s0 : State} (s : State) (p code : Nat) (hM : Sub 70368744177664 M) (hT :
  Touches M s0 s) : Touches M s0 (State.redEntryFail s p code) := by
  unfold State.redEntryFail
  try dsimp only
  repeat' first
    | with_reducible assumption
    | (with_reducible refine Sub.trans ?_ hM) <;> exact Sub.lit rfl
    | with_reducible apply State.modRedRing_touches
    | (with_reducible intro _; try dsimp only)
    | split

theorem State.redFinish_touches {M : Nat} {s0 : State} (s : State) (p w i code : Nat) (hM : Sub 70373274028076 M) (hT :
  Touches M s0 s) : Touches M s0 (State.redFinish s p w i code) := by
  unfold State.redFinish
  try dsimp only
  repeat' first
    | with_reducible assumption
    | (with_reducible refine Sub.trans ?_ hM) <;> exact Sub.lit rfl
    | with_reducible apply State.refuseAccess_touches
    | with_reducible apply State.storeNat_touches
    | with_reducible apply State.modRedRing_touches
    | with_reducible apply State.performSignal_touches
    | with_reducible apply State.wr_touches
    | (with_reducible intro _; try dsimp only)
    | split

theorem State.redInvalid_touches {M : Nat} {s0 : State} (s : State) (p i : Nat) (hM : Sub 70368777732096 M) (hT : Touches M
  s0 s) : Touches M s0 (State.redInvalid s p i) := by
  unfold State.redInvalid
  try dsimp only
  repeat' first
    | with_reducible assumption
    | (with_reducible refine Sub.trans ?_ hM) <;> exact Sub.lit rfl
    | with_reducible apply State.redEntryFail_touches
    | with_reducible apply State.raise_touches
    | (with_reducible intro _; try dsimp only)
    | split

theorem State.redReceive_touches {M : Nat} {s0 : State} (s : State) (r : Red) (level : Nat) (m : Msg) (hM : Sub
  17596514566148 M) (hT : Touches M s0 s) : Touches M s0 (State.redReceive s r level m) := by
  unfold State.redReceive
  try dsimp only
  repeat' first
    | with_reducible assumption
    | (with_reducible refine Sub.trans ?_ hM) <;> exact Sub.lit rfl
    | with_reducible apply State.advanceRed_touches
    | with_reducible apply State.failRed_touches
    | with_reducible apply Touches.foldl
    | with_reducible apply Touches1.foldl
    | with_reducible apply Touches1.fst
    | (with_reducible intro _; try dsimp only)
    | split
    | with_reducible apply Touches1.mk

theorem State.redMessage_touches {M : Nat} {s0 : State} (s : State) (i type level : Nat) (disagree : Bool) (hM : Sub
  163359114657796 M) (hT : Touches M s0 s) : Touches M s0 (State.redMessage s i type level disagree) := by
  unfold State.redMessage
  try dsimp only
  repeat' first
    | with_reducible assumption
    | (with_reducible refine Sub.trans ?_ hM) <;> exact Sub.lit rfl
    | with_reducible apply State.redReceive_touches
    | with_reducible apply State.forward_touches
    | with_reducible apply State.freeMsg_touches
    | with_reducible apply State.failRed_touches
    | (with_reducible intro _; try dsimp only)
    | split

theorem State.redSourceFault_touches {M : Nat} {s0 : State} (s : State) (p da : Nat) (hM : Sub 33554436 M) (hT : Touches M
  s0 s) : TouchesP M s0 (State.redSourceFault s p da) := by
  unfold State.redSourceFault
  try dsimp only
  repeat' first
    | with_reducible assumption
    | (with_reducible refine Sub.trans ?_ hM) <;> exact Sub.lit rfl
    | with_reducible apply State.redBlockFault_touches
    | (with_reducible apply TouchesP.elim; with_reducible assumption)
    | with_reducible apply Touches1.fst
    | with_reducible exact TouchesP.none
    | with_reducible apply TouchesP.some
    | with_reducible apply TouchesP.map
    | with_reducible apply TouchesP.findSome
    | with_reducible apply TouchesP.orElse
    | with_reducible exact TouchesP.none
    | (with_reducible intro _; try dsimp only)
    | split
    | with_reducible apply Touches1.mk

theorem State.startRed_touches {M : Nat} {s0 : State} (s : State) (p cls sums : Nat) (v : List Nat) (hM : Sub
  52780886654980 M) (hT : Touches M s0 s) : Touches M s0 (State.startRed s p cls sums v) := by
  unfold State.startRed
  try dsimp only
  repeat' first
    | with_reducible assumption
    | (with_reducible refine Sub.trans ?_ hM) <;> exact Sub.lit rfl
    | with_reducible apply State.setRedSeq_touches
    | with_reducible apply State.advanceRed_touches
    | with_reducible apply State.failRed_touches
    | (with_reducible intro _; try dsimp only)
    | split

theorem State.redStart_touches {M : Nat} {s0 : State} (s : State) (p w : Nat) (hM : Sub 123149630832644 M) (hT : Touches M
  s0 s) : Touches M s0 (State.redStart s p w) := by
  unfold State.redStart
  try dsimp only
  repeat' first
    | with_reducible assumption
    | (with_reducible refine Sub.trans ?_ hM) <;> exact Sub.lit rfl
    | with_reducible apply State.refuseAccess_touches
    | with_reducible apply State.startRed_touches
    | with_reducible apply State.redEntryFail_touches
    | with_reducible apply State.modRedRing_touches
    | with_reducible apply State.redSourceFault_touches
    | with_reducible apply State.redInvalid_touches
    | (with_reducible apply TouchesP.elim; with_reducible assumption)
    | with_reducible apply Touches1.fst
    | with_reducible apply TouchesP.map
    | with_reducible apply TouchesP.findSome
    | with_reducible apply TouchesP.orElse
    | with_reducible exact TouchesP.none
    | with_reducible apply Touches.ifSome
    | with_reducible apply Touches1.ifSome
    | with_reducible apply TouchesL.ifSome
    | with_reducible apply TouchesP.ifSome
    | with_reducible apply TouchesO.ifSome
    | (with_reducible intro _; try dsimp only)
    | split
    | with_reducible apply Touches1.mk

theorem State.redTake_touches {M : Nat} {s0 : State} (s : State) (p : Nat) (hM : Sub 576531121299328812 M) (hT : Touches M
  s0 s) : Touches M s0 (State.redTake s p) := by
  unfold State.redTake
  try dsimp only
  repeat' first
    | with_reducible assumption
    | (with_reducible refine Sub.trans ?_ hM) <;> exact Sub.lit rfl
    | with_reducible apply State.refuseAccess_touches
    | with_reducible apply State.redEntryFail_touches
    | with_reducible apply State.modRedRing_touches
    | with_reducible apply State.wr_touches
    | with_reducible apply State.waitFrom_touches
    | with_reducible apply State.redInvalid_touches
    | with_reducible apply State.setHeadWait_touches
    | (with_reducible intro _; try dsimp only)
    | split

theorem State.refetch_touches {M : Nat} {s0 : State} (s : State) (p : Nat) (b : (Nat × Nat) × (Nat × Nat × Nat)) (reads :
  List Nat) (hM : Sub 234881068 M) (hT : Touches M s0 s) : Touches M s0 (State.refetch s p b reads) := by
  unfold State.refetch
  try dsimp only
  repeat' first
    | with_reducible assumption
    | (with_reducible refine Sub.trans ?_ hM) <;> exact Sub.lit rfl
    | with_reducible apply State.writeVia_touches
    | with_reducible apply State.raiseAs_touches
    | (with_reducible intro _; try dsimp only)
    | split

theorem State.refreshStack_touches {M : Nat} {s0 : State} (s : State) (st : Nat) (hM : Sub 9007199288295428 M) (hT :
  Touches M s0 s) : Touches M s0 (State.refreshStack s st) := by
  unfold State.refreshStack
  try dsimp only
  repeat' first
    | with_reducible assumption
    | (with_reducible refine Sub.trans ?_ hM) <;> exact Sub.lit rfl
    | with_reducible apply State.raise_touches
    | with_reducible apply State.count_touches
    | with_reducible apply State.setPower_touches
    | (with_reducible intro _; try dsimp only)
    | split

theorem State.refuseRemote_touches {M : Nat} {s0 : State} (s : State) (port : Nat) (m : Msg) (c : Code) (a : Nat) (write :
  Bool) (hM : Sub 4328521732 M) (hT : Touches M s0 s) : Touches M s0 (State.refuseRemote s port m c a write) := by
  unfold State.refuseRemote
  try dsimp only
  repeat' first
    | with_reducible assumption
    | (with_reducible refine Sub.trans ?_ hM) <;> exact Sub.lit rfl
    | with_reducible apply State.answer_touches
    | with_reducible apply State.refuseAccess_touches
    | (with_reducible intro _; try dsimp only)
    | split

theorem State.refuseUnit_touches {M : Nat} {s0 : State} (s : State) (m : Msg) (c : Code) (sev un pay : Nat) (hM : Sub
  4328521728 M) (hT : Touches M s0 s) : Touches M s0 (State.refuseUnit s m c sev un pay) := by
  unfold State.refuseUnit
  try dsimp only
  repeat' first
    | with_reducible assumption
    | (with_reducible refine Sub.trans ?_ hM) <;> exact Sub.lit rfl
    | with_reducible apply State.answer_touches
    | with_reducible apply State.raiseAs_touches
    | (with_reducible intro _; try dsimp only)
    | split

theorem State.refuseVec_touches {M : Nat} {s0 : State} (s : State) (c : Nat) (i : Issued) (hM : Sub 33554432 M) (hT :
  Touches M s0 s) : Touches1 M s0 (State.refuseVec s c i) := by
  unfold State.refuseVec
  try dsimp only
  repeat' first
    | with_reducible assumption
    | (with_reducible refine Sub.trans ?_ hM) <;> exact Sub.lit rfl
    | with_reducible apply State.raiseCore_touches
    | with_reducible apply Touches1.fst
    | (with_reducible intro _; try dsimp only)
    | split
    | with_reducible apply Touches1.mk

theorem State.refuseWindow_touches {M : Nat} {s0 : State} (s : State) (e off cause : Nat) (write : Bool) (hM : Sub 33554436
  M) (hT : Touches M s0 s) : Touches M s0 (State.refuseWindow s e off cause write) := by
  unfold State.refuseWindow
  try dsimp only
  repeat' first
    | with_reducible assumption
    | (with_reducible refine Sub.trans ?_ hM) <;> exact Sub.lit rfl
    | with_reducible apply State.raise_touches
    | with_reducible apply State.count_touches
    | (with_reducible intro _; try dsimp only)
    | split

theorem State.relocate_touches {M : Nat} {s0 : State} (s : State) (id unit : Nat) (hM : Sub 1073741824 M) (hT : Touches M
  s0 s) : Touches M s0 (State.relocate s id unit) := by
  unfold State.relocate
  try dsimp only
  repeat' first
    | with_reducible assumption
    | (with_reducible refine Sub.trans ?_ hM) <;> exact Sub.lit rfl
    | with_reducible apply State.setObject_touches
    | (with_reducible intro _; try dsimp only)
    | split

theorem State.remoteStore_touches {M : Nat} {s0 : State} (s : State) (port : Nat) (m : Msg) (a n : Nat) (runs : List (Nat ×
  List (BitVec 8))) (hM : Sub 4798283820 M) (hT : Touches M s0 s) : Touches M s0 (State.remoteStore s port m a n runs) :=
  by
  unfold State.remoteStore
  try dsimp only
  repeat' first
    | with_reducible assumption
    | (with_reducible refine Sub.trans ?_ hM) <;> exact Sub.lit rfl
    | with_reducible apply State.answer_touches
    | with_reducible apply State.store_touches
    | with_reducible apply State.cacheWrites_touches
    | with_reducible apply State.refuseRemote_touches
    | with_reducible apply Touches.foldl
    | with_reducible apply Touches1.foldl
    | with_reducible apply Touches1.fst
    | (with_reducible intro _; try dsimp only)
    | split
    | with_reducible apply Touches1.mk

theorem State.remoteMasked_touches {M : Nat} {s0 : State} (s : State) (port : Nat) (m : Msg) (hM : Sub 4798283820 M) (hT :
  Touches M s0 s) : Touches M s0 (State.remoteMasked s port m) := by
  unfold State.remoteMasked
  try dsimp only
  repeat' first
    | with_reducible assumption
    | (with_reducible refine Sub.trans ?_ hM) <;> exact Sub.lit rfl
    | with_reducible apply State.remoteStore_touches
    | (with_reducible intro _; try dsimp only)
    | split

theorem State.remoteObject_touches {M : Nat} {s0 : State} (s : State) (port : Nat) (m : Msg) (hM : Sub 4328521732 M) (hT :
  Touches M s0 s) : Touches M s0 (State.remoteObject s port m) := by
  unfold State.remoteObject
  try dsimp only
  repeat' first
    | with_reducible assumption
    | (with_reducible refine Sub.trans ?_ hM) <;> exact Sub.lit rfl
    | with_reducible apply State.answer_touches
    | with_reducible apply State.raise_touches
    | with_reducible apply State.refuseUnit_touches
    | with_reducible apply State.countModes_touches
    | with_reducible apply State.count_touches
    | with_reducible apply Touches.foldl
    | with_reducible apply Touches1.foldl
    | with_reducible apply Touches1.fst
    | (with_reducible intro _; try dsimp only)
    | split
    | with_reducible apply Touches1.mk

theorem State.remoteRead_touches {M : Nat} {s0 : State} (s : State) (port : Nat) (m : Msg) (hM : Sub 4596957188 M) (hT :
  Touches M s0 s) : Touches M s0 (State.remoteRead s port m) := by
  unfold State.remoteRead
  try dsimp only
  repeat' first
    | with_reducible assumption
    | (with_reducible refine Sub.trans ?_ hM) <;> exact Sub.lit rfl
    | with_reducible apply State.answer_touches
    | with_reducible apply State.cacheReads_touches
    | with_reducible apply State.raiseAs_touches
    | with_reducible apply State.refuseRemote_touches
    | (with_reducible intro _; try dsimp only)
    | split

theorem State.remoteWrite_touches {M : Nat} {s0 : State} (s : State) (port : Nat) (m : Msg) (hM : Sub 4798283820 M) (hT :
  Touches M s0 s) : Touches M s0 (State.remoteWrite s port m) := by
  unfold State.remoteWrite
  try dsimp only
  repeat' first
    | with_reducible assumption
    | (with_reducible refine Sub.trans ?_ hM) <;> exact Sub.lit rfl
    | with_reducible apply State.remoteStore_touches
    | (with_reducible intro _; try dsimp only)
    | split

theorem State.reqData_touches {M : Nat} {s0 : State} (s : State) (r : Req) (offset : Nat) (bs : List (BitVec 8)) (hM : Sub
  145754010157056 M) (hT : Touches M s0 s) : Touches M s0 (State.reqData s r offset bs) := by
  unfold State.reqData
  try dsimp only
  repeat' first
    | with_reducible assumption
    | (with_reducible refine Sub.trans ?_ hM) <;> exact Sub.lit rfl
    | with_reducible apply State.dropReq_touches
    | with_reducible apply State.modReqXfer_touches
    | with_reducible apply State.setRecovery_touches
    | with_reducible apply State.modJob_touches
    | with_reducible apply State.setReqs_touches
    | (with_reducible intro _; try dsimp only)
    | split

theorem State.reqFail_touches {M : Nat} {s0 : State} (s : State) (path : ReqPath) (req kind : Nat) (hM : Sub
  148618787753558020 M) (hT : Touches M s0 s) : Touches M s0 (State.reqFail s path req kind) := by
  unfold State.reqFail
  try dsimp only
  repeat' first
    | with_reducible assumption
    | (with_reducible refine Sub.trans ?_ hM) <;> exact Sub.lit rfl
    | with_reducible apply State.reqReply_touches
    | with_reducible apply State.reqInvalid_touches
    | (with_reducible intro _; try dsimp only)
    | split

theorem State.reqStateFail_touches {M : Nat} {s0 : State} (s : State) (path : ReqPath) (req : Nat) (hM : Sub
  148618787753558020 M) (hT : Touches M s0 s) : Touches M s0 (State.reqStateFail s path req) := by
  unfold State.reqStateFail
  try dsimp only
  repeat' first
    | with_reducible assumption
    | (with_reducible refine Sub.trans ?_ hM) <;> exact Sub.lit rfl
    | with_reducible apply State.reqReply_touches
    | with_reducible apply State.raise_touches
    | (with_reducible intro _; try dsimp only)
    | split

theorem State.resetFunction_touches {M : Nat} {s0 : State} (s : State) (fn : Nat) (hM : Sub 432345564232810496 M) (hT :
  Touches M s0 s) : Touches M s0 (State.resetFunction s fn) := by
  unfold State.resetFunction
  try dsimp only
  repeat' first
    | with_reducible assumption
    | (with_reducible refine Sub.trans ?_ hM) <;> exact Sub.lit rfl
    | with_reducible apply State.setMsixCtl_touches
    | with_reducible apply State.setMsix_touches
    | with_reducible apply State.setAtsOn_touches
    | with_reducible apply State.setLowPower_touches
    | (with_reducible intro _; try dsimp only)
    | split

theorem State.resumeStream_touches {M : Nat} {s0 : State} (s : State) (n : Nat) (hM : Sub 144115188329627964 M) (hT :
  Touches M s0 s) : Touches M s0 (State.resumeStream s n) := by
  unfold State.resumeStream
  try dsimp only
  repeat' first
    | with_reducible assumption
    | (with_reducible refine Sub.trans ?_ hM) <;> exact Sub.lit rfl
    | with_reducible apply State.writeCompletion_touches
    | with_reducible apply State.modStream_touches
    | (with_reducible intro _; try dsimp only)
    | split

theorem State.runXfer_touches {M : Nat} {s0 : State} (s : State) (key : Nat) (hw : List Hw) (n : Nat) (hM : Sub
  6760696712790316 M) (hT : Touches M s0 s) : Touches M s0 (State.runXfer s key hw n) := by
  unfold State.runXfer
  try dsimp only
  repeat' first
    | with_reducible assumption
    | (with_reducible refine Sub.trans ?_ hM) <;> exact Sub.lit rfl
    | with_reducible apply State.modChan_touches
    | with_reducible apply State.failXfer_touches
    | with_reducible apply State.setChanState_touches
    | with_reducible apply State.applyHwTo_touches
    | with_reducible apply State.moveUnits_touches
    | with_reducible apply Touches1.fst
    | (with_reducible intro _; try dsimp only)
    | split
    | with_reducible apply Touches1.mk

theorem State.rxBuffers_touches {M : Nat} {s0 : State} (s : State) (n r : Nat) (y0 : Nat) (y1 : Nat) (y2 : Nat) (hM : Sub
  301989892 M) (hT : Touches M s0 s) : Touches1 M s0 (State.rxBuffers s n r y0 y1 y2) := by
  induction y0 generalizing s y1 y2 with
  | zero =>
    unfold State.rxBuffers
    try dsimp only
    repeat' first
      | with_reducible assumption
      | (with_reducible refine Sub.trans ?_ hM) <;> exact Sub.lit rfl
      | with_reducible apply State.ethRead_touches
      | with_reducible apply ih
      | with_reducible apply Touches1.fst
      | (with_reducible intro _; try dsimp only)
      | split
      | with_reducible apply Touches1.mk
  | succ n ih =>
    unfold State.rxBuffers
    try dsimp only
    repeat' first
      | with_reducible assumption
      | (with_reducible refine Sub.trans ?_ hM) <;> exact Sub.lit rfl
      | with_reducible apply State.ethRead_touches
      | with_reducible apply ih
      | with_reducible apply Touches1.fst
      | (with_reducible intro _; try dsimp only)
      | split
      | with_reducible apply Touches1.mk

theorem State.rxDeliver_touches {M : Nat} {s0 : State} (s : State) (n r hash sums : Nat) (y0 : List (Nat × Nat)) (y1 : List
  (BitVec 8)) (hM : Sub 520093740 M) (hT : Touches M s0 s) : Touches M s0 (State.rxDeliver s n r hash sums y0 y1) := by
  fun_induction State.rxDeliver s n r hash sums y0 y1
  all_goals try dsimp +zetaDelta only at *
  all_goals repeat' first
    | with_reducible assumption
    | (with_reducible refine Sub.trans ?_ hM) <;> exact Sub.lit rfl
    | with_reducible apply State.store_touches
    | with_reducible apply State.ethBack_touches
    | with_reducible apply State.ethCheck_touches
    | with_reducible apply State.cacheWrites_touches
    | with_reducible apply Touches1.fst
    | with_reducible apply_assumption
    | (with_reducible intro _; try dsimp only)
    | split
    | with_reducible apply Touches1.mk

theorem State.sbkClearRun_touches {M : Nat} {s0 : State} (hw : List Hw) (s : State) (c : Nat) (i : Issued) (hM : Sub
  503316780 M) (hT : Touches M s0 s) : Touches M s0 (State.sbkClearRun hw s c i) := by
  unfold State.sbkClearRun
  try dsimp only
  repeat' first
    | with_reducible assumption
    | (with_reducible refine Sub.trans ?_ hM) <;> exact Sub.lit rfl
    | with_reducible apply State.began_touches
    | with_reducible apply State.clearEntries_touches
    | with_reducible apply State.executed_touches
    | with_reducible apply State.applyHw_touches
    | with_reducible apply State.raiseArr_touches
    | with_reducible apply Touches1.fst
    | with_reducible apply Touches.ifSome
    | with_reducible apply Touches1.ifSome
    | with_reducible apply TouchesL.ifSome
    | with_reducible apply TouchesP.ifSome
    | with_reducible apply TouchesO.ifSome
    | (with_reducible intro _; try dsimp only)
    | split
    | with_reducible apply Touches1.mk

theorem State.sbkDrainRun_touches {M : Nat} {s0 : State} (hw : List Hw) (s : State) (c : Nat) (i : Issued) (hM : Sub
  1040187692 M) (hT : Touches M s0 s) : Touches M s0 (State.sbkDrainRun hw s c i) := by
  unfold State.sbkDrainRun
  try dsimp only
  repeat' first
    | with_reducible assumption
    | (with_reducible refine Sub.trans ?_ hM) <;> exact Sub.lit rfl
    | with_reducible apply State.storePath_touches
    | with_reducible apply State.began_touches
    | with_reducible apply State.putEntry_touches
    | with_reducible apply State.raiseParity_touches
    | with_reducible apply State.executed_touches
    | with_reducible apply State.applyHw_touches
    | with_reducible apply State.raiseArr_touches
    | with_reducible apply Touches1.fst
    | with_reducible apply Touches.foldl
    | with_reducible apply Touches1.foldl
    | with_reducible apply Touches1.fst
    | with_reducible apply Touches.ifSome
    | with_reducible apply Touches1.ifSome
    | with_reducible apply TouchesL.ifSome
    | with_reducible apply TouchesP.ifSome
    | with_reducible apply TouchesO.ifSome
    | (with_reducible intro _; try dsimp only)
    | split
    | with_reducible apply Touches1.mk

theorem State.sbkRestoreRun_touches {M : Nat} {s0 : State} (hw : List Hw) (s : State) (c : Nat) (i : Issued) (hM : Sub
  503316780 M) (hT : Touches M s0 s) : Touches M s0 (State.sbkRestoreRun hw s c i) := by
  unfold State.sbkRestoreRun
  try dsimp only
  repeat' first
    | with_reducible assumption
    | (with_reducible refine Sub.trans ?_ hM) <;> exact Sub.lit rfl
    | with_reducible apply State.began_touches
    | with_reducible apply State.putEntry_touches
    | with_reducible apply State.executed_touches
    | with_reducible apply State.applyHw_touches
    | with_reducible apply State.raiseArr_touches
    | with_reducible apply State.raiseLoad_touches
    | with_reducible apply Touches1.fst
    | with_reducible apply Touches.foldl
    | with_reducible apply Touches1.foldl
    | with_reducible apply Touches1.fst
    | with_reducible apply Touches.ifSome
    | with_reducible apply Touches1.ifSome
    | with_reducible apply TouchesL.ifSome
    | with_reducible apply TouchesP.ifSome
    | with_reducible apply TouchesO.ifSome
    | (with_reducible intro _; try dsimp only)
    | split
    | with_reducible apply Touches1.mk

theorem State.sbkSpillRun_touches {M : Nat} {s0 : State} (hw : List Hw) (s : State) (c : Nat) (i : Issued) (hM : Sub
  503316780 M) (hT : Touches M s0 s) : Touches M s0 (State.sbkSpillRun hw s c i) := by
  unfold State.sbkSpillRun
  try dsimp only
  repeat' first
    | with_reducible assumption
    | (with_reducible refine Sub.trans ?_ hM) <;> exact Sub.lit rfl
    | with_reducible apply State.began_touches
    | with_reducible apply State.store_touches
    | with_reducible apply State.raiseParity_touches
    | with_reducible apply State.executed_touches
    | with_reducible apply State.applyHw_touches
    | with_reducible apply State.raiseArr_touches
    | with_reducible apply Touches1.fst
    | with_reducible apply Touches.ifSome
    | with_reducible apply Touches1.ifSome
    | with_reducible apply TouchesL.ifSome
    | with_reducible apply TouchesP.ifSome
    | with_reducible apply TouchesO.ifSome
    | (with_reducible intro _; try dsimp only)
    | split
    | with_reducible apply Touches1.mk

theorem State.segmentArrive_touches {M : Nat} {s0 : State} (s : State) (r : SegRec) (hM : Sub 33558788 M) (hT : Touches M
  s0 s) : Touches M s0 (State.segmentArrive s r) := by
  unfold State.segmentArrive
  try dsimp only
  repeat' first
    | with_reducible assumption
    | (with_reducible refine Sub.trans ?_ hM) <;> exact Sub.lit rfl
    | with_reducible apply State.modCore_touches
    | with_reducible apply State.setDispatch_touches
    | with_reducible apply State.nextSegment_touches
    | (with_reducible intro _; try dsimp only)
    | split

theorem State.sendFlit_touches {M : Nat} {s0 : State} (s : State) (n : Nat) (force : Bool) (hM : Sub 4345298948 M) (hT :
  Touches M s0 s) : Touches M s0 (State.sendFlit s n force) := by
  unfold State.sendFlit
  try dsimp only
  repeat' first
    | with_reducible assumption
    | (with_reducible refine Sub.trans ?_ hM) <;> exact Sub.lit rfl
    | with_reducible apply State.freeVia_touches
    | with_reducible apply State.flitOut_touches
    | with_reducible apply Touches.foldl
    | with_reducible apply Touches1.foldl
    | with_reducible apply Touches1.fst
    | (with_reducible intro _; try dsimp only)
    | split
    | with_reducible apply Touches1.mk

theorem State.sendAll_touches {M : Nat} {s0 : State} (s : State) (hM : Sub 4345298948 M) (hT : Touches M s0 s) : Touches M
  s0 (State.sendAll s) := by
  unfold State.sendAll
  try dsimp only
  repeat' first
    | with_reducible assumption
    | (with_reducible refine Sub.trans ?_ hM) <;> exact Sub.lit rfl
    | with_reducible apply State.sendFlit_touches
    | with_reducible apply Touches.foldl
    | with_reducible apply Touches1.foldl
    | with_reducible apply Touches1.fst
    | (with_reducible intro _; try dsimp only)
    | split
    | with_reducible apply Touches1.mk

theorem State.sendHeld_touches {M : Nat} {s0 : State} (s : State) (y0 : Nat) (hM : Sub 145758338678784 M) (hT : Touches M
  s0 s) : Touches M s0 (State.sendHeld s y0) := by
  induction y0 generalizing s with
  | zero =>
    unfold State.sendHeld
    try dsimp only
    repeat' first
      | with_reducible assumption
      | (with_reducible refine Sub.trans ?_ hM) <;> exact Sub.lit rfl
      | with_reducible apply State.dropMsg_touches
      | with_reducible apply ih
      | with_reducible apply State.enqueueMsg_touches
      | with_reducible apply State.setReqs_touches
      | (with_reducible intro _; try dsimp only)
      | split
  | succ n ih =>
    unfold State.sendHeld
    try dsimp only
    repeat' first
      | with_reducible assumption
      | (with_reducible refine Sub.trans ?_ hM) <;> exact Sub.lit rfl
      | with_reducible apply State.dropMsg_touches
      | with_reducible apply ih
      | with_reducible apply State.enqueueMsg_touches
      | with_reducible apply State.setReqs_touches
      | (with_reducible intro _; try dsimp only)
      | split

theorem State.sendPending_touches {M : Nat} {s0 : State} (s : State) (fn : Nat) (hM : Sub 144115188092633088 M) (hT :
  Touches M s0 s) : Touches M s0 (State.sendPending s fn) := by
  unfold State.sendPending
  try dsimp only
  repeat' first
    | with_reducible assumption
    | (with_reducible refine Sub.trans ?_ hM) <;> exact Sub.lit rfl
    | with_reducible apply State.putMsix_touches
    | with_reducible apply State.sendMsix_touches
    | with_reducible apply Touches.foldl
    | with_reducible apply Touches1.foldl
    | with_reducible apply Touches1.fst
    | (with_reducible intro _; try dsimp only)
    | split
    | with_reducible apply Touches1.mk

theorem State.sendUnit_touches {M : Nat} {s0 : State} (s : State) (p u : Nat) (bs : List (BitVec 8)) (hM : Sub
  141085380706304 M) (hT : Touches M s0 s) : Touches M s0 (State.sendUnit s p u bs) := by
  unfold State.sendUnit
  try dsimp only
  repeat' first
    | with_reducible assumption
    | (with_reducible refine Sub.trans ?_ hM) <;> exact Sub.lit rfl
    | with_reducible apply State.modJob_touches
    | with_reducible apply State.request_touches
    | with_reducible apply Touches.foldl
    | with_reducible apply Touches1.foldl
    | with_reducible apply Touches1.fst
    | (with_reducible intro _; try dsimp only)
    | split
    | with_reducible apply Touches1.mk

theorem State.sendWaiting_touches {M : Nat} {s0 : State} (s : State) (hM : Sub 145758338678784 M) (hT : Touches M s0 s) :
  Touches M s0 (State.sendWaiting s) := by
  unfold State.sendWaiting
  try dsimp only
  repeat' first
    | with_reducible assumption
    | (with_reducible refine Sub.trans ?_ hM) <;> exact Sub.lit rfl
    | with_reducible apply State.sendHeld_touches
    | (with_reducible intro _; try dsimp only)
    | split

theorem State.serve_touches {M : Nat} {s0 : State} (s : State) (path : ReqPath) (req : Nat) (permit : Permit) (argOk :
  Bool) (act : State → State) (hact : ∀ u0, Touches M s0 u0 → Touches M s0 (act u0)) (hM : Sub 148618787753558020 M) (hT :
  Touches M s0 s) : Touches M s0 (State.serve s path req permit argOk act) := by
  unfold State.serve
  try dsimp only
  repeat' first
    | with_reducible assumption
    | (with_reducible refine Sub.trans ?_ hM) <;> exact Sub.lit rfl
    | with_reducible apply State.reqStateFail_touches
    | with_reducible apply State.reqFail_touches
    | with_reducible apply hact
    | (with_reducible intro _; try dsimp only)
    | split

theorem State.setCeiling_touches {M : Nat} {s0 : State} (s : State) (v : Nat) (hM : Sub 4 M) (hT : Touches M s0 s) :
  Touches M s0 (State.setCeiling s v) := by
  unfold State.setCeiling
  try dsimp only
  repeat' first
    | with_reducible assumption
    | (with_reducible refine Sub.trans ?_ hM) <;> exact Sub.lit rfl
    | with_reducible apply State.wr_touches
    | with_reducible apply Touches.foldl
    | with_reducible apply Touches1.foldl
    | with_reducible apply Touches1.fst
    | (with_reducible intro _; try dsimp only)
    | split
    | with_reducible apply Touches1.mk

theorem State.setFlag_touches {M : Nat} {s0 : State} (s : State) (g v : Nat) (hM : Sub 8388608 M) (hT : Touches M s0 s) :
  Touches M s0 (State.setFlag s g v) := by
  unfold State.setFlag
  try dsimp only
  repeat' first
    | with_reducible assumption
    | (with_reducible refine Sub.trans ?_ hM) <;> exact Sub.lit rfl
    | with_reducible apply State.setFlags_touches
    | (with_reducible intro _; try dsimp only)
    | split

theorem State.setFreeCount_touches {M : Nat} {s0 : State} (s : State) (x : Nat) (hM : Sub 18014398509481984 M) (hT :
  Touches M s0 s) : Touches M s0 (State.setFreeCount s x) := by
  unfold State.setFreeCount
  try dsimp only
  repeat' first
    | with_reducible assumption
    | (with_reducible refine Sub.trans ?_ hM) <;> exact Sub.lit rfl
    | with_reducible apply Touches.set_freeCount
    | (with_reducible intro _; try dsimp only)
    | split

theorem State.setMinReleased_touches {M : Nat} {s0 : State} (s : State) (f : Nat) (hM : Sub 4 M) (hT : Touches M s0 s) :
  Touches M s0 (State.setMinReleased s f) := by
  unfold State.setMinReleased
  try dsimp only
  repeat' first
    | with_reducible assumption
    | (with_reducible refine Sub.trans ?_ hM) <;> exact Sub.lit rfl
    | with_reducible apply State.wr_touches
    | (with_reducible intro _; try dsimp only)
    | split

theorem State.setOwners_touches {M : Nat} {s0 : State} (s : State) (gs : List Nat) (owner : Nat) (hM : Sub 8388608 M) (hT :
  Touches M s0 s) : Touches M s0 (State.setOwners s gs owner) := by
  unfold State.setOwners
  try dsimp only
  repeat' first
    | with_reducible assumption
    | (with_reducible refine Sub.trans ?_ hM) <;> exact Sub.lit rfl
    | with_reducible apply State.setFlag_touches
    | with_reducible apply Touches.foldl
    | with_reducible apply Touches1.foldl
    | with_reducible apply Touches1.fst
    | (with_reducible intro _; try dsimp only)
    | split
    | with_reducible apply Touches1.mk

theorem State.setSegOrder_touches {M : Nat} {s0 : State} (s : State) (x : Nat) (hM : Sub 8192 M) (hT : Touches M s0 s) :
  Touches M s0 (State.setSegOrder s x) := by
  unfold State.setSegOrder
  try dsimp only
  repeat' first
    | with_reducible assumption
    | (with_reducible refine Sub.trans ?_ hM) <;> exact Sub.lit rfl
    | with_reducible apply Touches.set_segOrder
    | (with_reducible intro _; try dsimp only)
    | split

theorem State.showTemps_touches {M : Nat} {s0 : State} (s : State) (hM : Sub 4 M) (hT : Touches M s0 s) : Touches M s0
  (State.showTemps s) := by
  unfold State.showTemps
  try dsimp only
  repeat' first
    | with_reducible assumption
    | (with_reducible refine Sub.trans ?_ hM) <;> exact Sub.lit rfl
    | with_reducible apply State.setReg_touches
    | with_reducible apply Touches.foldl
    | with_reducible apply Touches1.foldl
    | with_reducible apply Touches1.fst
    | (with_reducible intro _; try dsimp only)
    | split
    | with_reducible apply Touches1.mk

theorem State.signalArrives_touches {M : Nat} {s0 : State} (s : State) (i : Nat) (broadcast : Bool) (hM : Sub
  576460752555150124 M) (hT : Touches M s0 s) : Touches M s0 (State.signalArrives s i broadcast) := by
  unfold State.signalArrives
  try dsimp only
  repeat' first
    | with_reducible assumption
    | (with_reducible refine Sub.trans ?_ hM) <;> exact Sub.lit rfl
    | with_reducible apply State.applySignal_touches
    | with_reducible apply State.setSignals_touches
    | (with_reducible intro _; try dsimp only)
    | split

theorem State.staBindRun_touches {M : Nat} {s0 : State} (s : State) (c : Nat) (i : Issued) (hM : Sub 33554436 M) (hT :
  Touches M s0 s) : Touches1 M s0 (State.staBindRun s c i) := by
  unfold State.staBindRun
  try dsimp only
  repeat' first
    | with_reducible assumption
    | (with_reducible refine Sub.trans ?_ hM) <;> exact Sub.lit rfl
    | with_reducible apply State.setReg_touches
    | with_reducible apply State.raiseCore_touches
    | with_reducible apply Touches1.fst
    | (with_reducible intro _; try dsimp only)
    | split
    | with_reducible apply Touches1.mk

theorem State.watchStepEnd_touches {M : Nat} {s0 : State} (s : State) (p step : Nat) (hM : Sub 33554436 M) (hT : Touches M
  s0 s) : Touches M s0 (State.watchStepEnd s p step) := by
  unfold State.watchStepEnd
  try dsimp only
  repeat' first
    | with_reducible assumption
    | (with_reducible refine Sub.trans ?_ hM) <;> exact Sub.lit rfl
    | with_reducible apply State.wr_touches
    | with_reducible apply State.raise_touches
    | with_reducible apply Touches.foldl
    | with_reducible apply Touches1.foldl
    | with_reducible apply Touches1.fst
    | (with_reducible intro _; try dsimp only)
    | split
    | with_reducible apply Touches1.mk

theorem State.stepEnded_touches {M : Nat} {s0 : State} (s : State) (c : Nat) (hM : Sub 33554692 M) (hT : Touches M s0 s) :
  Touches M s0 (State.stepEnded s c) := by
  unfold State.stepEnded
  try dsimp only
  repeat' first
    | with_reducible assumption
    | (with_reducible refine Sub.trans ?_ hM) <;> exact Sub.lit rfl
    | with_reducible apply State.setReg_touches
    | with_reducible apply State.haltCore_touches
    | with_reducible apply State.modCore_touches
    | with_reducible apply State.watchStepEnd_touches
    | (with_reducible intro _; try dsimp only)
    | split

theorem State.stopTick_touches {M : Nat} {s0 : State} (s : State) (hM : Sub 140737521910020 M) (hT : Touches M s0 s) :
  Touches M s0 (State.stopTick s) := by
  unfold State.stopTick
  try dsimp only
  repeat' first
    | with_reducible assumption
    | (with_reducible refine Sub.trans ?_ hM) <;> exact Sub.lit rfl
    | with_reducible apply State.stopJob_touches
    | with_reducible apply State.modJob_touches
    | with_reducible apply Touches.foldl
    | with_reducible apply Touches1.foldl
    | with_reducible apply Touches1.fst
    | (with_reducible intro _; try dsimp only)
    | split
    | with_reducible apply Touches1.mk

theorem State.tagPassFrom_touches {M : Nat} {s0 : State} (c : Nat) (i : Issued) (b : Block) (y0 : Nat) (y1 : Nat) (y2 :
  State) (hM : Sub 100663584 M) (hT : Touches M s0 y2) : Touches M s0 (State.tagPassFrom c i b y0 y1 y2) := by
  fun_induction State.tagPassFrom c i b y0 y1 y2
  all_goals try dsimp +zetaDelta only at *
  all_goals repeat' first
    | with_reducible assumption
    | (with_reducible refine Sub.trans ?_ hM) <;> exact Sub.lit rfl
    | with_reducible apply State.putEntry_touches
    | with_reducible apply State.executed_touches
    | with_reducible apply State.entryFault_touches
    | (with_reducible apply TouchesP.elim; with_reducible assumption)
    | with_reducible apply Touches1.fst
    | with_reducible apply TouchesP.map
    | with_reducible apply TouchesP.findSome
    | with_reducible apply TouchesP.orElse
    | with_reducible exact TouchesP.none
    | with_reducible apply Touches.foldl
    | with_reducible apply Touches1.foldl
    | with_reducible apply Touches1.fst
    | with_reducible apply_assumption
    | (with_reducible intro _; try dsimp only)
    | split
    | with_reducible apply Touches1.mk

theorem State.streamRun_touches {M : Nat} {s0 : State} (hw : List Hw) (s : State) (c : Nat) (i : Issued) (hM : Sub
  137942270252 M) (hT : Touches M s0 s) : Touches M s0 (State.streamRun hw s c i) := by
  unfold State.streamRun
  try dsimp only
  repeat' first
    | with_reducible assumption
    | (with_reducible refine Sub.trans ?_ hM) <;> exact Sub.lit rfl
    | with_reducible apply State.streamRowsFrom_touches
    | with_reducible apply State.began_touches
    | with_reducible apply State.modCore_touches
    | with_reducible apply State.modIssued_touches
    | with_reducible apply State.executed_touches
    | with_reducible apply State.applyHw_touches
    | with_reducible apply State.raiseArr_touches
    | with_reducible apply State.count_touches
    | with_reducible apply State.tagPassFrom_touches
    | with_reducible apply Touches1.fst
    | with_reducible apply Touches.ifSome
    | with_reducible apply Touches1.ifSome
    | with_reducible apply TouchesL.ifSome
    | with_reducible apply TouchesP.ifSome
    | with_reducible apply TouchesO.ifSome
    | (with_reducible intro _; try dsimp only)
    | split
    | with_reducible apply Touches1.mk

theorem State.takeDma_touches {M : Nat} {s0 : State} (s : State) (c k op : Nat) (run : State → Issued → State) (hrun : ∀ u0
  u1, Touches M s0 u0 → Touches M s0 (run u0 u1)) (_ : Sub 0 M) (hT : Touches M s0 s) : Touches M s0 (State.takeDma s c k
  op run) := by
  unfold State.takeDma
  try dsimp only
  repeat' first
    | with_reducible assumption
    | (with_reducible refine Sub.trans ?_ hM) <;> exact Sub.lit rfl
    | with_reducible apply hrun
    | (with_reducible intro _; try dsimp only)
    | split

theorem State.takeEntry_touches {M : Nat} {s0 : State} (s : State) (n : Nat) (hM : Sub 576461440018353964 M) (hT : Touches
  M s0 s) : Touches M s0 (State.takeEntry s n) := by
  unfold State.takeEntry
  try dsimp only
  repeat' first
    | with_reducible assumption
    | (with_reducible refine Sub.trans ?_ hM) <;> exact Sub.lit rfl
    | with_reducible apply State.setHeads_touches
    | with_reducible apply State.modChan_touches
    | with_reducible apply State.setSerial_touches
    | with_reducible apply State.setChanState_touches
    | with_reducible apply State.wr_touches
    | with_reducible apply State.endXfer_touches
    | with_reducible apply State.raiseXferDesc_touches
    | with_reducible apply State.waitFrom_touches
    | with_reducible apply State.dmaRead_touches
    | with_reducible apply Touches1.fst
    | (with_reducible intro _; try dsimp only)
    | split
    | with_reducible apply Touches1.mk

theorem State.takeReading_touches {M : Nat} {s0 : State} (s : State) (x : Nat × Option Int) (hM : Sub 33554436 M) (hT :
  Touches M s0 s) : Touches M s0 (State.takeReading s x) := by
  unfold State.takeReading
  try dsimp only
  repeat' first
    | with_reducible assumption
    | (with_reducible refine Sub.trans ?_ hM) <;> exact Sub.lit rfl
    | with_reducible apply State.wr_touches
    | with_reducible apply State.raise_touches
    | (with_reducible intro _; try dsimp only)
    | split

theorem State.thermalEvent_touches {M : Nat} {s0 : State} (s : State) (island ceiling : Nat) (l : List Nat) (hM : Sub
  33554432 M) (hT : Touches M s0 s) : Touches M s0 (State.thermalEvent s island ceiling l) := by
  unfold State.thermalEvent
  try dsimp only
  repeat' first
    | with_reducible assumption
    | (with_reducible refine Sub.trans ?_ hM) <;> exact Sub.lit rfl
    | with_reducible apply State.raise_touches
    | (with_reducible intro _; try dsimp only)
    | split

theorem State.thermalIsland_touches {M : Nat} {s0 : State} (s : State) (k : Nat) (hM : Sub 9007199288295428 M) (hT :
  Touches M s0 s) : Touches M s0 (State.thermalIsland s k) := by
  unfold State.thermalIsland
  try dsimp only
  repeat' first
    | with_reducible assumption
    | (with_reducible refine Sub.trans ?_ hM) <;> exact Sub.lit rfl
    | with_reducible apply State.wr_touches
    | with_reducible apply State.thermalEvent_touches
    | with_reducible apply State.count_touches
    | with_reducible apply State.setPower_touches
    | (with_reducible intro _; try dsimp only)
    | split

theorem State.thermalShared_touches {M : Nat} {s0 : State} (s : State) (hM : Sub 9007199288295428 M) (hT : Touches M s0 s)
  : Touches M s0 (State.thermalShared s) := by
  unfold State.thermalShared
  try dsimp only
  repeat' first
    | with_reducible assumption
    | (with_reducible refine Sub.trans ?_ hM) <;> exact Sub.lit rfl
    | with_reducible apply State.wr_touches
    | with_reducible apply State.thermalEvent_touches
    | with_reducible apply State.count_touches
    | with_reducible apply State.setPower_touches
    | with_reducible apply Touches.foldl
    | with_reducible apply Touches1.foldl
    | with_reducible apply Touches1.fst
    | (with_reducible intro _; try dsimp only)
    | split
    | with_reducible apply Touches1.mk

theorem State.tickClock_touches {M : Nat} {s0 : State} (s : State) (hM : Sub 17179869186 M) (hT : Touches M s0 s) : Touches
  M s0 (State.tickClock s) := by
  unfold State.tickClock
  try dsimp only
  repeat' first
    | with_reducible assumption
    | (with_reducible refine Sub.trans ?_ hM) <;> exact Sub.lit rfl
    | with_reducible apply State.setDtime_touches
    | with_reducible apply State.setFellows_touches
    | (with_reducible intro _; try dsimp only)
    | split

theorem State.tick_touches {M : Nat} {s0 : State} (s : State) (hM : Sub 1152921365020409790 M) (hT : Touches M s0 s) :
  Touches M s0 (State.tick s) := by
  unfold State.tick
  try dsimp only
  repeat' first
    | with_reducible assumption
    | (with_reducible refine Sub.trans ?_ hM) <;> exact Sub.lit rfl
    | with_reducible apply State.countCycles_touches
    | with_reducible apply State.stopTick_touches
    | with_reducible apply State.tickClock_touches
    | with_reducible apply State.collectAll_touches
    | with_reducible apply State.endTick_touches
    | with_reducible apply State.deliver_touches
    | with_reducible apply State.sendAll_touches
    | with_reducible apply State.sendWaiting_touches
    | with_reducible apply State.arrivePosted_touches
    | with_reducible apply State.groupTick_touches
    | (with_reducible intro _; try dsimp only)
    | split

theorem State.tripped_touches {M : Nat} {s0 : State} (s : State) (sensor : Nat) (hM : Sub 1134906965437185836 M) (hT :
  Touches M s0 s) : Touches M s0 (State.tripped s sensor) := by
  unfold State.tripped
  try dsimp only
  repeat' first
    | with_reducible assumption
    | (with_reducible refine Sub.trans ?_ hM) <;> exact Sub.lit rfl
    | with_reducible apply State.wr_touches
    | with_reducible apply State.enterDugout_touches
    | with_reducible apply State.raise_touches
    | (with_reducible intro _; try dsimp only)
    | split

theorem State.tryUnits_touches {M : Nat} {s0 : State} (s : State) (r : Recovery) (bytes : Nat → List (BitVec 8)) (n : Nat)
  (hM : Sub 6534020989188 M) (hT : Touches M s0 s) : Touches M s0 (State.tryUnits s r bytes n) := by
  unfold State.tryUnits
  try dsimp only
  repeat' first
    | with_reducible assumption
    | (with_reducible refine Sub.trans ?_ hM) <;> exact Sub.lit rfl
    | with_reducible apply State.nextStep_touches
    | with_reducible apply State.recoveryFailed_touches
    | with_reducible apply State.askNext_touches
    | with_reducible apply State.recoverySucceeded_touches
    | (with_reducible intro _; try dsimp only)
    | split

theorem State.txDescs_touches {M : Nat} {s0 : State} (s : State) (n r : Nat) (y0 : Nat) (y1 : Nat) (hM : Sub 301989892 M)
  (hT : Touches M s0 s) : Touches1 M s0 (State.txDescs s n r y0 y1) := by
  induction y0 generalizing s y1 with
  | zero =>
    unfold State.txDescs
    try dsimp only
    repeat' first
      | with_reducible assumption
      | (with_reducible refine Sub.trans ?_ hM) <;> exact Sub.lit rfl
      | with_reducible apply State.ethRead_touches
      | with_reducible apply ih
      | with_reducible apply Touches1.fst
      | (with_reducible intro _; try dsimp only)
      | split
      | with_reducible apply Touches1.mk
  | succ n ih =>
    unfold State.txDescs
    try dsimp only
    repeat' first
      | with_reducible assumption
      | (with_reducible refine Sub.trans ?_ hM) <;> exact Sub.lit rfl
      | with_reducible apply State.ethRead_touches
      | with_reducible apply ih
      | with_reducible apply Touches1.fst
      | (with_reducible intro _; try dsimp only)
      | split
      | with_reducible apply Touches1.mk

theorem State.txRead_touches {M : Nat} {s0 : State} (s : State) (n : Nat) (ds : List Nat) (hM : Sub 301989892 M) (hT :
  Touches M s0 s) : Touches1 M s0 (State.txRead s n ds) := by
  unfold State.txRead
  try dsimp only
  repeat' first
    | with_reducible assumption
    | (with_reducible refine Sub.trans ?_ hM) <;> exact Sub.lit rfl
    | with_reducible apply State.ethRead_touches
    | with_reducible apply Touches1.fst
    | with_reducible apply Touches.foldl
    | with_reducible apply Touches1.foldl
    | with_reducible apply Touches1.fst
    | (with_reducible intro _; try dsimp only)
    | split
    | with_reducible apply Touches1.mk

theorem State.unhear_touches {M : Nat} {s0 : State} (s : State) (chip : Nat) (hM : Sub 17179869184 M) (hT : Touches M s0 s)
  : Touches M s0 (State.unhear s chip) := by
  unfold State.unhear
  try dsimp only
  repeat' first
    | with_reducible assumption
    | (with_reducible refine Sub.trans ?_ hM) <;> exact Sub.lit rfl
    | with_reducible apply State.modFellows_touches
    | (with_reducible intro _; try dsimp only)
    | split

theorem State.vecRefusal_touches {M : Nat} {s0 : State} (s : State) (c : Nat) (i : Issued) (hM : Sub 33554432 M) (hT :
  Touches M s0 s) : TouchesP M s0 (State.vecRefusal s c i) := by
  unfold State.vecRefusal
  try dsimp only
  repeat' first
    | with_reducible assumption
    | (with_reducible refine Sub.trans ?_ hM) <;> exact Sub.lit rfl
    | with_reducible apply State.raiseCnv_touches
    | with_reducible apply State.raiseDesc_touches
    | with_reducible apply State.refuseVec_touches
    | with_reducible apply State.raiseExtract_touches
    | with_reducible apply Touches1.fst
    | with_reducible exact TouchesP.none
    | with_reducible apply TouchesP.some
    | with_reducible apply TouchesP.map
    | with_reducible apply TouchesP.findSome
    | with_reducible apply TouchesP.orElse
    | with_reducible exact TouchesP.none
    | with_reducible apply Touches.ifSome
    | with_reducible apply Touches1.ifSome
    | with_reducible apply TouchesL.ifSome
    | with_reducible apply TouchesP.ifSome
    | with_reducible apply TouchesO.ifSome
    | (with_reducible intro _; try dsimp only)
    | split
    | with_reducible apply Touches1.mk

theorem State.vecRun_touches {M : Nat} {s0 : State} (hw : List Hw) (s : State) (c : Nat) (i : Issued) (hM : Sub
  138479141164 M) (hT : Touches M s0 s) : Touches M s0 (State.vecRun hw s c i) := by
  unfold State.vecRun
  try dsimp only
  repeat' first
    | with_reducible assumption
    | (with_reducible refine Sub.trans ?_ hM) <;> exact Sub.lit rfl
    | with_reducible apply State.began_touches
    | with_reducible apply State.vecFrom_touches
    | with_reducible apply State.vecRefusal_touches
    | with_reducible apply State.countAllLoads_touches
    | with_reducible apply State.executed_touches
    | with_reducible apply State.applyHw_touches
    | with_reducible apply State.vecEnd_touches
    | with_reducible apply State.raiseLoad_touches
    | (with_reducible apply TouchesP.elim; with_reducible assumption)
    | with_reducible apply Touches1.fst
    | with_reducible apply TouchesP.map
    | with_reducible apply TouchesP.findSome
    | with_reducible apply TouchesP.orElse
    | with_reducible exact TouchesP.none
    | (with_reducible intro _; try dsimp only)
    | split
    | with_reducible apply Touches1.mk

theorem State.wedge_touches {M : Nat} {s0 : State} (s : State) (a n off : Nat) (write : Bool) (who : Master) (hM : Sub
  4503599660924932 M) (hT : Touches M s0 s) : Touches M s0 (State.wedge s a n off write who) := by
  unfold State.wedge
  try dsimp only
  repeat' first
    | with_reducible assumption
    | (with_reducible refine Sub.trans ?_ hM) <;> exact Sub.lit rfl
    | with_reducible apply State.wr_touches
    | with_reducible apply State.raise_touches
    | with_reducible apply State.setReferee_touches
    | (with_reducible intro _; try dsimp only)
    | split

theorem State.withFetchWord_touches {M : Nat} {s0 : State} (s : State) (nbits w : Nat) (_ : Sub 1 M) (hT : Touches M s0 s)
  : Touches M s0 (State.withFetchWord s nbits w) := by
  exact hT

theorem State.writeHartCsr_touches {M : Nat} {s0 : State} (s : State) (h csr v : Nat) (hM : Sub 72057594037927936 M) (hT :
  Touches M s0 s) : Touches M s0 (State.writeHartCsr s h csr v) := by
  unfold State.writeHartCsr
  try dsimp only
  repeat' first
    | with_reducible assumption
    | (with_reducible refine Sub.trans ?_ hM) <;> exact Sub.lit rfl
    | with_reducible apply State.setHartCsr_touches
    | (with_reducible intro _; try dsimp only)
    | split

theorem execEntryInvalid_touches {M : Nat} {s0 : State} (queue : Nat) (s : State) (hM : Sub 162129586839699772 M) (hT :
  Touches M s0 s) : TouchesO M s0 (execEntryInvalid queue s) := by
  unfold execEntryInvalid
  try dsimp only
  repeat' first
    | with_reducible assumption
    | (with_reducible refine Sub.trans ?_ hM) <;> exact Sub.lit rfl
    | with_reducible apply State.postFailure_touches
    | with_reducible apply State.entryTaken_touches
    | with_reducible apply State.unreadEntry_touches
    | with_reducible apply State.readEntry_touches
    | with_reducible apply State.raise_touches
    | with_reducible apply Touches1.fst
    | with_reducible apply TouchesO.next
    | (with_reducible intro _; try dsimp only)
    | split
    | with_reducible apply Touches1.mk

theorem execQueueRestart_touches {M : Nat} {s0 : State} (pf : Bool) (index : Nat) (stream : Bool) (s : State) (hM : Sub
  252527404 M) (hT : Touches M s0 s) : TouchesO M s0 (execQueueRestart pf index stream s) := by
  unfold execQueueRestart
  try dsimp only
  repeat' first
    | with_reducible assumption
    | (with_reducible refine Sub.trans ?_ hM) <;> exact Sub.lit rfl
    | with_reducible apply State.qOp_touches
    | with_reducible apply State.barAnswer_touches
    | with_reducible apply TouchesO.next
    | (with_reducible intro _; try dsimp only)
    | split
    | with_reducible apply Touches1.mk

theorem execGetPldmVersion_touches {M : Nat} {s0 : State} (inst type : Nat) (s : State) (hM : Sub 16777216 M) (hT : Touches
  M s0 s) : TouchesO M s0 (execGetPldmVersion inst type s) := by
  unfold execGetPldmVersion
  try dsimp only
  repeat' first
    | with_reducible assumption
    | (with_reducible refine Sub.trans ?_ hM) <;> exact Sub.lit rfl
    | with_reducible apply State.pldm_touches
    | with_reducible apply TouchesO.next
    | (with_reducible intro _; try dsimp only)
    | split
    | with_reducible apply Touches1.mk

theorem execGovernorPassStart_touches {M : Nat} {s0 : State} (p : Nat) (s : State) (hM : Sub 193518576337196 M) (hT :
  Touches M s0 s) : TouchesO M s0 (execGovernorPassStart p s) := by
  unfold execGovernorPassStart
  try dsimp only
  repeat' first
    | with_reducible assumption
    | (with_reducible refine Sub.trans ?_ hM) <;> exact Sub.lit rfl
    | with_reducible apply State.startRed_touches
    | with_reducible apply State.wr_touches
    | with_reducible apply State.modJob_touches
    | with_reducible apply State.collect_touches
    | with_reducible apply TouchesO.next
    | (with_reducible intro _; try dsimp only)
    | split
    | with_reducible apply Touches1.mk

theorem execOptConstants_touches {M : Nat} {s0 : State} (p : Nat) (s : State) (hM : Sub 158678875504940 M) (hT : Touches M
  s0 s) : TouchesO M s0 (execOptConstants p s) := by
  unfold execOptConstants
  try dsimp only
  repeat' first
    | with_reducible assumption
    | (with_reducible refine Sub.trans ?_ hM) <;> exact Sub.lit rfl
    | with_reducible apply State.publishConstants_touches
    | with_reducible apply State.stopJob_touches
    | with_reducible apply State.dropRed_touches
    | with_reducible apply State.dropCkptObject_touches
    | with_reducible apply State.ckptFail_touches
    | with_reducible apply State.wr_touches
    | with_reducible apply State.modJob_touches
    | with_reducible apply State.raise_touches
    | with_reducible apply State.ckptComplete_touches
    | with_reducible apply TouchesO.next
    | (with_reducible intro _; try dsimp only)
    | split
    | with_reducible apply Touches1.mk

theorem execQueueDisable_touches {M : Nat} {s0 : State} (pf : Bool) (index : Nat) (stream : Bool) (s : State) (hM : Sub
  252527404 M) (hT : Touches M s0 s) : TouchesO M s0 (execQueueDisable pf index stream s) := by
  unfold execQueueDisable
  try dsimp only
  repeat' first
    | with_reducible assumption
    | (with_reducible refine Sub.trans ?_ hM) <;> exact Sub.lit rfl
    | with_reducible apply State.qOp_touches
    | with_reducible apply State.barAnswer_touches
    | with_reducible apply TouchesO.next
    | (with_reducible intro _; try dsimp only)
    | split
    | with_reducible apply Touches1.mk

theorem execInputPowerUp_touches {M : Nat} {s0 : State} (s : State) (hM : Sub 4503599627370496 M) (hT : Touches M s0 s) :
  TouchesO M s0 (execInputPowerUp s) := by
  unfold execInputPowerUp
  try dsimp only
  repeat' first
    | with_reducible assumption
    | (with_reducible refine Sub.trans ?_ hM) <;> exact Sub.lit rfl
    | with_reducible apply State.setReferee_touches
    | with_reducible apply TouchesO.next
    | (with_reducible intro _; try dsimp only)
    | split
    | with_reducible apply Touches1.mk

theorem execCablePowerFault_touches {M : Nat} {s0 : State} (port : Nat) (s : State) (hM : Sub 4649357966049284 M) (hT :
  Touches M s0 s) : TouchesO M s0 (execCablePowerFault port s) := by
  unfold execCablePowerFault
  try dsimp only
  repeat' first
    | with_reducible assumption
    | (with_reducible refine Sub.trans ?_ hM) <;> exact Sub.lit rfl
    | with_reducible apply State.portDown_touches
    | with_reducible apply State.setReferee_touches
    | with_reducible apply TouchesO.next
    | (with_reducible intro _; try dsimp only)
    | split
    | with_reducible apply Touches1.mk

theorem execTransferComplete_touches {M : Nat} {s0 : State} (channel : Nat) (hw : List Hw) (mism : Nat) (s : State) (hM :
  Sub 6760696712790316 M) (hT : Touches M s0 s) : TouchesO M s0 (execTransferComplete channel hw mism s) := by
  unfold execTransferComplete
  try dsimp only
  repeat' first
    | with_reducible assumption
    | (with_reducible refine Sub.trans ?_ hM) <;> exact Sub.lit rfl
    | with_reducible apply State.runXfer_touches
    | with_reducible apply State.completeXfer_touches
    | with_reducible apply TouchesO.next
    | (with_reducible intro _; try dsimp only)
    | split
    | with_reducible apply Touches1.mk

theorem execMsgErrRsp_touches {M : Nat} {s0 : State} (i : Nat) (s : State) (hM : Sub 145766928613380 M) (hT : Touches M s0
  s) : TouchesO M s0 (execMsgErrRsp i s) := by
  unfold execMsgErrRsp
  try dsimp only
  repeat' first
    | with_reducible assumption
    | (with_reducible refine Sub.trans ?_ hM) <;> exact Sub.lit rfl
    | with_reducible apply State.onResponse_touches
    | with_reducible apply State.onMsg_touches
    | with_reducible apply State.failReq_touches
    | with_reducible apply TouchesO.next
    | (with_reducible intro _; try dsimp only)
    | split
    | with_reducible apply Touches1.mk

theorem execMsgTime_touches {M : Nat} {s0 : State} (i residence : Nat) (s : State) (hM : Sub 145784108482566 M) (hT :
  Touches M s0 s) : TouchesO M s0 (execMsgTime i residence s) := by
  unfold execMsgTime
  try dsimp only
  repeat' first
    | with_reducible assumption
    | (with_reducible refine Sub.trans ?_ hM) <;> exact Sub.lit rfl
    | with_reducible apply State.sendMgt_touches
    | with_reducible apply State.forward_touches
    | with_reducible apply State.offsetIn_touches
    | with_reducible apply State.freeMsg_touches
    | with_reducible apply TouchesO.next
    | (with_reducible intro _; try dsimp only)
    | split
    | with_reducible apply Touches1.mk

theorem execPfence_touches {M : Nat} {s0 : State} (core : Nat) (s : State) (hM : Sub 2203351779588 M) (hT : Touches M s0 s)
  : TouchesO M s0 (execPfence core s) := by
  unfold execPfence
  try dsimp only
  repeat' first
    | with_reducible assumption
    | (with_reducible refine Sub.trans ?_ hM) <;> exact Sub.lit rfl
    | with_reducible apply State.pmkRow_touches
    | with_reducible apply State.fenceRun_touches
    | with_reducible apply Touches1.fst
    | with_reducible apply TouchesO.next
    | (with_reducible intro _; try dsimp only)
    | split
    | with_reducible apply Touches1.mk

theorem execPrivilegedRead_touches {M : Nat} {s0 : State} (who : Master) (off size : Nat) (s : State) (hM : Sub
  4503599677702148 M) (hT : Touches M s0 s) : TouchesO M s0 (execPrivilegedRead who off size s) := by
  unfold execPrivilegedRead
  try dsimp only
  repeat' first
    | with_reducible assumption
    | (with_reducible refine Sub.trans ?_ hM) <;> exact Sub.lit rfl
    | with_reducible apply State.busReply_touches
    | with_reducible apply TouchesO.next
    | (with_reducible intro _; try dsimp only)
    | split
    | with_reducible apply Touches1.mk

theorem execSbkDrain_touches {M : Nat} {s0 : State} (core : Nat) (hw : List Hw) (s : State) (hM : Sub 1040187692 M) (hT :
  Touches M s0 s) : TouchesO M s0 (execSbkDrain core hw s) := by
  unfold execSbkDrain
  try dsimp only
  repeat' first
    | with_reducible assumption
    | (with_reducible refine Sub.trans ?_ hM) <;> exact Sub.lit rfl
    | with_reducible apply State.engineRow_touches
    | with_reducible apply State.sbkDrainRun_touches
    | with_reducible apply TouchesO.next
    | (with_reducible intro _; try dsimp only)
    | split
    | with_reducible apply Touches1.mk

theorem execStepEnd_touches {M : Nat} {s0 : State} (core : Nat) (s : State) (hM : Sub 33554692 M) (hT : Touches M s0 s) :
  TouchesO M s0 (execStepEnd core s) := by
  unfold execStepEnd
  try dsimp only
  repeat' first
    | with_reducible assumption
    | (with_reducible refine Sub.trans ?_ hM) <;> exact Sub.lit rfl
    | with_reducible apply State.began_touches
    | with_reducible apply State.issueHead_touches
    | with_reducible apply State.afterIssue_touches
    | with_reducible apply TouchesO.next
    | (with_reducible intro _; try dsimp only)
    | split
    | with_reducible apply Touches1.mk

theorem execClockPointStepDone_touches {M : Nat} {s0 : State} (island : Nat) (s : State) (hM : Sub 9007199254740996 M) (hT
  : Touches M s0 s) : TouchesO M s0 (execClockPointStepDone island s) := by
  unfold execClockPointStepDone
  try dsimp only
  repeat' first
    | with_reducible assumption
    | (with_reducible refine Sub.trans ?_ hM) <;> exact Sub.lit rfl
    | with_reducible apply State.showIsland_touches
    | with_reducible apply State.setPower_touches
    | with_reducible apply TouchesO.next
    | (with_reducible intro _; try dsimp only)
    | split
    | with_reducible apply Touches1.mk

theorem execMatstream_touches {M : Nat} {s0 : State} (core : Nat) (hw : List Hw) (s : State) (hM : Sub 137942270252 M) (hT
  : Touches M s0 s) : TouchesO M s0 (execMatstream core hw s) := by
  unfold execMatstream
  try dsimp only
  repeat' first
    | with_reducible assumption
    | (with_reducible refine Sub.trans ?_ hM) <;> exact Sub.lit rfl
    | with_reducible apply State.streamRun_touches
    | with_reducible apply State.arrRowOp_touches
    | with_reducible apply TouchesO.next
    | (with_reducible intro _; try dsimp only)
    | split
    | with_reducible apply Touches1.mk

theorem execPortRetryTimer_touches {M : Nat} {s0 : State} (port : Nat) (s : State) (hM : Sub 4294967300 M) (hT : Touches M
  s0 s) : TouchesO M s0 (execPortRetryTimer port s) := by
  unfold execPortRetryTimer
  try dsimp only
  repeat' first
    | with_reducible assumption
    | (with_reducible refine Sub.trans ?_ hM) <;> exact Sub.lit rfl
    | with_reducible apply State.setStep_touches
    | with_reducible apply State.startPort_touches
    | with_reducible apply TouchesO.next
    | (with_reducible intro _; try dsimp only)
    | split
    | with_reducible apply Touches1.mk

theorem execGetStateSensorReadings_touches {M : Nat} {s0 : State} (inst sensor : Nat) (s : State) (hM : Sub 16777216 M) (hT
  : Touches M s0 s) : TouchesO M s0 (execGetStateSensorReadings inst sensor s) := by
  unfold execGetStateSensorReadings
  try dsimp only
  repeat' first
    | with_reducible assumption
    | (with_reducible refine Sub.trans ?_ hM) <;> exact Sub.lit rfl
    | with_reducible apply State.pldm_touches
    | with_reducible apply TouchesO.next
    | (with_reducible intro _; try dsimp only)
    | split
    | with_reducible apply Touches1.mk

theorem execDrainComplete_touches {M : Nat} {s0 : State} (core : Nat) (s : State) (hM : Sub 260 M) (hT : Touches M s0 s) :
  TouchesO M s0 (execDrainComplete core s) := by
  unfold execDrainComplete
  try dsimp only
  repeat' first
    | with_reducible assumption
    | (with_reducible refine Sub.trans ?_ hM) <;> exact Sub.lit rfl
    | with_reducible apply State.settle_touches
    | with_reducible apply TouchesO.next
    | (with_reducible intro _; try dsimp only)
    | split
    | with_reducible apply Touches1.mk

theorem execCheckpointCaptureStart_touches {M : Nat} {s0 : State} (p : Nat) (s : State) (hM : Sub 141086488002564 M) (hT :
  Touches M s0 s) : TouchesO M s0 (execCheckpointCaptureStart p s) := by
  unfold execCheckpointCaptureStart
  try dsimp only
  repeat' first
    | with_reducible assumption
    | (with_reducible refine Sub.trans ?_ hM) <;> exact Sub.lit rfl
    | with_reducible apply State.sendUnit_touches
    | with_reducible apply State.seeReads_touches
    | with_reducible apply State.ckptFail_touches
    | with_reducible apply State.wr_touches
    | with_reducible apply State.modJob_touches
    | with_reducible apply State.openObject_touches
    | with_reducible apply State.raiseFaults_touches
    | with_reducible apply TouchesO.next
    | with_reducible apply Touches.foldl
    | with_reducible apply Touches1.foldl
    | with_reducible apply Touches1.fst
    | (with_reducible intro _; try dsimp only)
    | split
    | with_reducible apply Touches1.mk

theorem execImageEnd_touches {M : Nat} {s0 : State} (path : ReqPath) (s : State) (hM : Sub 148618787753558020 M) (hT :
  Touches M s0 s) : TouchesO M s0 (execImageEnd path s) := by
  unfold execImageEnd
  try dsimp only
  repeat' first
    | with_reducible assumption
    | (with_reducible refine Sub.trans ?_ hM) <;> exact Sub.lit rfl
    | with_reducible apply State.reqReply_touches
    | with_reducible apply State.reqStateFail_touches
    | with_reducible apply State.imageInvalid_touches
    | with_reducible apply State.serve_touches
    | with_reducible apply State.setReferee_touches
    | with_reducible apply TouchesO.next
    | (with_reducible intro _; try dsimp only)
    | split
    | with_reducible apply Touches1.mk

theorem execMsgWrAck_touches {M : Nat} {s0 : State} (i : Nat) (s : State) (hM : Sub 145766928613380 M) (hT : Touches M s0
  s) : TouchesO M s0 (execMsgWrAck i s) := by
  unfold execMsgWrAck
  try dsimp only
  repeat' first
    | with_reducible assumption
    | (with_reducible refine Sub.trans ?_ hM) <;> exact Sub.lit rfl
    | with_reducible apply State.onResponse_touches
    | with_reducible apply State.onMsg_touches
    | with_reducible apply State.ackWrites_touches
    | with_reducible apply TouchesO.next
    | (with_reducible intro _; try dsimp only)
    | split
    | with_reducible apply Touches1.mk

theorem execRead_touches {M : Nat} {s0 : State} (path : ReqPath) (s : State) (hM : Sub 148618787753558020 M) (hT : Touches
  M s0 s) : TouchesO M s0 (execRead path s) := by
  unfold execRead
  try dsimp only
  repeat' first
    | with_reducible assumption
    | (with_reducible refine Sub.trans ?_ hM) <;> exact Sub.lit rfl
    | with_reducible apply State.reqReply_touches
    | with_reducible apply State.serve_touches
    | with_reducible apply TouchesO.next
    | (with_reducible intro _; try dsimp only)
    | split
    | with_reducible apply Touches1.mk

theorem execPerstAssert_touches {M : Nat} {s0 : State} (fails : List (Nat × Nat)) (s : State) (hM : Sub 1134906966510927804
  M) (hT : Touches M s0 s) : TouchesO M s0 (execPerstAssert fails s) := by
  unfold execPerstAssert
  try dsimp only
  repeat' first
    | with_reducible assumption
    | (with_reducible refine Sub.trans ?_ hM) <;> exact Sub.lit rfl
    | with_reducible apply State.setMsixCtl_touches
    | with_reducible apply State.setMsix_touches
    | with_reducible apply State.setAtsOn_touches
    | with_reducible apply State.setLowPower_touches
    | with_reducible apply State.setAtc_touches
    | with_reducible apply State.fullReset_touches
    | with_reducible apply State.pfReset_touches
    | with_reducible apply State.setReferee_touches
    | with_reducible apply TouchesO.next
    | (with_reducible intro _; try dsimp only)
    | split
    | with_reducible apply Touches1.mk

theorem execRailFault_touches {M : Nat} {s0 : State} (unit : Nat) (s : State) (hM : Sub 1134906965437185836 M) (hT :
  Touches M s0 s) : TouchesO M s0 (execRailFault unit s) := by
  unfold execRailFault
  try dsimp only
  repeat' first
    | with_reducible assumption
    | (with_reducible refine Sub.trans ?_ hM) <;> exact Sub.lit rfl
    | with_reducible apply State.enterDugout_touches
    | with_reducible apply TouchesO.next
    | (with_reducible intro _; try dsimp only)
    | split
    | with_reducible apply Touches1.mk

theorem execArbitrationDecided_touches {M : Nat} {s0 : State} (core engine : Nat) (replays : Replays) (badRes : Nat) (pairs
  : List (Nat × Nat)) (hw : List Hw) (s : State) (hM : Sub 18014536720187756 M) (hT : Touches M s0 s) : TouchesO M s0
  (execArbitrationDecided core engine replays badRes pairs hw s) := by
  unfold execArbitrationDecided
  try dsimp only
  repeat' first
    | with_reducible assumption
    | (with_reducible refine Sub.trans ?_ hM) <;> exact Sub.lit rfl
    | with_reducible apply State.arbMarked_touches
    | with_reducible apply State.arbFailed_touches
    | with_reducible apply State.modCore_touches
    | with_reducible apply State.wr_touches
    | with_reducible apply State.arbReported_touches
    | with_reducible apply State.arbGoesOn_touches
    | with_reducible apply TouchesO.next
    | (with_reducible intro _; try dsimp only)
    | split
    | with_reducible apply Touches1.mk

theorem execMsgHello_touches {M : Nat} {s0 : State} (port chip pod octet position peer : Nat) (s : State) (hM : Sub
  4345298948 M) (hT : Touches M s0 s) : TouchesO M s0 (execMsgHello port chip pod octet position peer s) := by
  unfold execMsgHello
  try dsimp only
  repeat' first
    | with_reducible assumption
    | (with_reducible refine Sub.trans ?_ hM) <;> exact Sub.lit rfl
    | with_reducible apply State.modPort_touches
    | with_reducible apply State.setStep_touches
    | with_reducible apply State.wr_touches
    | with_reducible apply State.setOut_touches
    | with_reducible apply State.bringupFailed_touches
    | with_reducible apply State.raise_touches
    | with_reducible apply TouchesO.next
    | (with_reducible intro _; try dsimp only)
    | split
    | with_reducible apply Touches1.mk

theorem execRegionCreate_touches {M : Nat} {s0 : State} (pf : Bool) (region : Nat) (s : State) (hM : Sub 318767108 M) (hT :
  Touches M s0 s) : TouchesO M s0 (execRegionCreate pf region s) := by
  unfold execRegionCreate
  try dsimp only
  repeat' first
    | with_reducible assumption
    | (with_reducible refine Sub.trans ?_ hM) <;> exact Sub.lit rfl
    | with_reducible apply State.barAnswer_touches
    | with_reducible apply State.regionOp_touches
    | with_reducible apply TouchesO.next
    | (with_reducible intro _; try dsimp only)
    | split
    | with_reducible apply Touches1.mk

theorem execMsgWr_touches {M : Nat} {s0 : State} (i : Nat) (s : State) (hM : Sub 145767398375468 M) (hT : Touches M s0 s) :
  TouchesO M s0 (execMsgWr i s) := by
  unfold execMsgWr
  try dsimp only
  repeat' first
    | with_reducible assumption
    | (with_reducible refine Sub.trans ?_ hM) <;> exact Sub.lit rfl
    | with_reducible apply State.onMsg_touches
    | with_reducible apply State.remoteWrite_touches
    | with_reducible apply TouchesO.next
    | (with_reducible intro _; try dsimp only)
    | split
    | with_reducible apply Touches1.mk

theorem execArrFillDone_touches {M : Nat} {s0 : State} (core : Nat) (s : State) (hM : Sub 2203351779588 M) (hT : Touches M
  s0 s) : TouchesO M s0 (execArrFillDone core s) := by
  unfold execArrFillDone
  try dsimp only
  repeat' first
    | with_reducible assumption
    | (with_reducible refine Sub.trans ?_ hM) <;> exact Sub.lit rfl
    | with_reducible apply State.arrDone_touches
    | with_reducible apply TouchesO.next
    | (with_reducible intro _; try dsimp only)
    | split
    | with_reducible apply Touches1.mk

theorem execUncorrectableControlState_touches {M : Nat} {s0 : State} (unit : Nat) (s : State) (hM : Sub 1134906965437185836
  M) (hT : Touches M s0 s) : TouchesO M s0 (execUncorrectableControlState unit s) := by
  unfold execUncorrectableControlState
  try dsimp only
  repeat' first
    | with_reducible assumption
    | (with_reducible refine Sub.trans ?_ hM) <;> exact Sub.lit rfl
    | with_reducible apply State.enterDugout_touches
    | with_reducible apply TouchesO.next
    | (with_reducible intro _; try dsimp only)
    | split
    | with_reducible apply Touches1.mk

theorem execStaBind_touches {M : Nat} {s0 : State} (core : Nat) (s : State) (hM : Sub 2203351779588 M) (hT : Touches M s0
  s) : TouchesO M s0 (execStaBind core s) := by
  unfold execStaBind
  try dsimp only
  repeat' first
    | with_reducible assumption
    | (with_reducible refine Sub.trans ?_ hM) <;> exact Sub.lit rfl
    | with_reducible apply State.pmkRow_touches
    | with_reducible apply State.staBindRun_touches
    | with_reducible apply Touches1.fst
    | with_reducible apply TouchesO.next
    | (with_reducible intro _; try dsimp only)
    | split
    | with_reducible apply Touches1.mk

theorem execRefereeSramError_touches {M : Nat} {s0 : State} (double : Bool) (addr : Nat) (s : State) (hM : Sub
  1134906965437185836 M) (hT : Touches M s0 s) : TouchesO M s0 (execRefereeSramError double addr s) := by
  unfold execRefereeSramError
  try dsimp only
  repeat' first
    | with_reducible assumption
    | (with_reducible refine Sub.trans ?_ hM) <;> exact Sub.lit rfl
    | with_reducible apply State.enterDugout_touches
    | with_reducible apply State.raise_touches
    | with_reducible apply State.count_touches
    | with_reducible apply TouchesO.next
    | (with_reducible intro _; try dsimp only)
    | split
    | with_reducible apply Touches1.mk

theorem execDmaGather_touches {M : Nat} {s0 : State} (core channel : Nat) (hw : List Hw) (s : State) (hM : Sub 1040187692
  M) (hT : Touches M s0 s) : TouchesO M s0 (execDmaGather core channel hw s) := by
  unfold execDmaGather
  try dsimp only
  repeat' first
    | with_reducible assumption
    | (with_reducible refine Sub.trans ?_ hM) <;> exact Sub.lit rfl
    | with_reducible apply State.gatherRun_touches
    | with_reducible apply State.tryIssue_touches
    | with_reducible apply State.takeDma_touches
    | with_reducible apply TouchesO.next
    | (with_reducible intro _; try dsimp only)
    | split
    | with_reducible apply Touches1.mk

theorem execPldmEventRetry_touches {M : Nat} {s0 : State} (id : Nat) (acked : Bool) (s : State) (hM : Sub 4503599644147712
  M) (hT : Touches M s0 s) : TouchesO M s0 (execPldmEventRetry id acked s) := by
  unfold execPldmEventRetry
  try dsimp only
  repeat' first
    | with_reducible assumption
    | (with_reducible refine Sub.trans ?_ hM) <;> exact Sub.lit rfl
    | with_reducible apply State.setOut_touches
    | with_reducible apply State.setReferee_touches
    | with_reducible apply TouchesO.next
    | (with_reducible intro _; try dsimp only)
    | split
    | with_reducible apply Touches1.mk

theorem execDevicePowerStateWrite_touches {M : Nat} {s0 : State} (fn : Nat) (w : ConfigWrite) (s : State) (hM : Sub
  432345564249587712 M) (hT : Touches M s0 s) : TouchesO M s0 (execDevicePowerStateWrite fn w s) := by
  unfold execDevicePowerStateWrite
  try dsimp only
  repeat' first
    | with_reducible assumption
    | (with_reducible refine Sub.trans ?_ hM) <;> exact Sub.lit rfl
    | with_reducible apply State.setMsixCtl_touches
    | with_reducible apply State.setAtsOn_touches
    | with_reducible apply State.putMsix_touches
    | with_reducible apply State.setLowPower_touches
    | with_reducible apply State.sendPending_touches
    | with_reducible apply TouchesO.next
    | (with_reducible intro _; try dsimp only)
    | split
    | with_reducible apply Touches1.mk

theorem execQueueDoorbell_touches {M : Nat} {s0 : State} (fn page offset size value : Nat) (s : State) (hM : Sub 251658284
  M) (hT : Touches M s0 s) : TouchesO M s0 (execQueueDoorbell fn page offset size value s) := by
  unfold execQueueDoorbell
  try dsimp only
  repeat' first
    | with_reducible assumption
    | (with_reducible refine Sub.trans ?_ hM) <;> exact Sub.lit rfl
    | with_reducible apply State.unsupportedRequest_touches
    | with_reducible apply State.queueTailWrite_touches
    | with_reducible apply State.gateCount_touches
    | with_reducible apply State.count_touches
    | with_reducible apply TouchesO.next
    | (with_reducible intro _; try dsimp only)
    | split
    | with_reducible apply Touches1.mk

theorem execEntryClaim_touches {M : Nat} {s0 : State} (queue : Nat) (s : State) (hM : Sub 738590339151777596 M) (hT :
  Touches M s0 s) : TouchesO M s0 (execEntryClaim queue s) := by
  unfold execEntryClaim
  try dsimp only
  repeat' first
    | with_reducible assumption
    | (with_reducible refine Sub.trans ?_ hM) <;> exact Sub.lit rfl
    | with_reducible apply State.ownershipEvent_touches
    | with_reducible apply State.failEntry_touches
    | with_reducible apply State.entryDone_touches
    | with_reducible apply State.entryRow_touches
    | with_reducible apply State.setOwners_touches
    | with_reducible apply TouchesO.next
    | (with_reducible intro _; try dsimp only)
    | split
    | with_reducible apply Touches1.mk

theorem execStatus_touches {M : Nat} {s0 : State} (path : ReqPath) (s : State) (hM : Sub 148618787753558020 M) (hT :
  Touches M s0 s) : TouchesO M s0 (execStatus path s) := by
  unfold execStatus
  try dsimp only
  repeat' first
    | with_reducible assumption
    | (with_reducible refine Sub.trans ?_ hM) <;> exact Sub.lit rfl
    | with_reducible apply State.reqReply_touches
    | with_reducible apply State.serve_touches
    | with_reducible apply TouchesO.next
    | (with_reducible intro _; try dsimp only)
    | split
    | with_reducible apply Touches1.mk

theorem execMsgSignal_touches {M : Nat} {s0 : State} (i : Nat) (s : State) (hM : Sub 576606519450207020 M) (hT : Touches M
  s0 s) : TouchesO M s0 (execMsgSignal i s) := by
  unfold execMsgSignal
  try dsimp only
  repeat' first
    | with_reducible assumption
    | (with_reducible refine Sub.trans ?_ hM) <;> exact Sub.lit rfl
    | with_reducible apply State.onMsg_touches
    | with_reducible apply State.applySignal_touches
    | with_reducible apply TouchesO.next
    | (with_reducible intro _; try dsimp only)
    | split
    | with_reducible apply Touches1.mk

theorem execMsgJoin_touches {M : Nat} {s0 : State} (i : Nat) (s : State) (hM : Sub 154580402831404 M) (hT : Touches M s0 s)
  : TouchesO M s0 (execMsgJoin i s) := by
  unfold execMsgJoin
  try dsimp only
  repeat' first
    | with_reducible assumption
    | (with_reducible refine Sub.trans ?_ hM) <;> exact Sub.lit rfl
    | with_reducible apply State.unhear_touches
    | with_reducible apply State.hear_touches
    | with_reducible apply State.changeView_touches
    | with_reducible apply State.raise_touches
    | with_reducible apply State.onMsg_touches
    | with_reducible apply State.sendJoin_touches
    | with_reducible apply TouchesO.next
    | (with_reducible intro _; try dsimp only)
    | split
    | with_reducible apply Touches1.mk

theorem execFetchResponse_touches {M : Nat} {s0 : State} (core : Nat) (bad : Option Nat) (s : State) (hM : Sub 33554692 M)
  (hT : Touches M s0 s) : TouchesO M s0 (execFetchResponse core bad s) := by
  unfold execFetchResponse
  try dsimp only
  repeat' first
    | with_reducible assumption
    | (with_reducible refine Sub.trans ?_ hM) <;> exact Sub.lit rfl
    | with_reducible apply State.refuseAccess_touches
    | with_reducible apply State.modCore_touches
    | with_reducible apply State.fetchFailed_touches
    | with_reducible apply State.atHead_touches
    | with_reducible apply State.raiseParity_touches
    | with_reducible apply State.raiseAs_touches
    | with_reducible apply TouchesO.next
    | (with_reducible intro _; try dsimp only)
    | split
    | with_reducible apply Touches1.mk

theorem execChipChannelDoorbell_touches {M : Nat} {s0 : State} (door : DoorAddr) (value : Nat) (s : State) (hM : Sub
  50331652 M) (hT : Touches M s0 s) : TouchesO M s0 (execChipChannelDoorbell door value s) := by
  unfold execChipChannelDoorbell
  try dsimp only
  repeat' first
    | with_reducible assumption
    | (with_reducible refine Sub.trans ?_ hM) <;> exact Sub.lit rfl
    | with_reducible apply State.chipTailWrite_touches
    | with_reducible apply State.unsupportedRequest_touches
    | with_reducible apply State.gateCount_touches
    | with_reducible apply State.count_touches
    | with_reducible apply TouchesO.next
    | (with_reducible intro _; try dsimp only)
    | split
    | with_reducible apply Touches1.mk

theorem execDmaXfer_touches {M : Nat} {s0 : State} (core channel : Nat) (hw : List Hw) (n : Nat) (s : State) (hM : Sub
  6760834151743788 M) (hT : Touches M s0 s) : TouchesO M s0 (execDmaXfer core channel hw n s) := by
  unfold execDmaXfer
  try dsimp only
  repeat' first
    | with_reducible assumption
    | (with_reducible refine Sub.trans ?_ hM) <;> exact Sub.lit rfl
    | with_reducible apply State.runXfer_touches
    | with_reducible apply State.beginDma_touches
    | with_reducible apply State.tryIssue_touches
    | with_reducible apply State.takeDma_touches
    | with_reducible apply TouchesO.next
    | (with_reducible intro _; try dsimp only)
    | split
    | with_reducible apply Touches1.mk

theorem execPcieUnsupportedRequest_touches {M : Nat} {s0 : State} (s : State) (hM : Sub 50331652 M) (hT : Touches M s0 s) :
  TouchesO M s0 (execPcieUnsupportedRequest s) := by
  unfold execPcieUnsupportedRequest
  try dsimp only
  repeat' first
    | with_reducible assumption
    | (with_reducible refine Sub.trans ?_ hM) <;> exact Sub.lit rfl
    | with_reducible apply State.unsupportedRequest_touches
    | with_reducible apply TouchesO.next
    | (with_reducible intro _; try dsimp only)
    | split
    | with_reducible apply Touches1.mk

theorem execMsgView_touches {M : Nat} {s0 : State} (i group : Nat) (complete : Bool) (s : State) (hM : Sub 172172588875820
  M) (hT : Touches M s0 s) : TouchesO M s0 (execMsgView i group complete s) := by
  unfold execMsgView
  try dsimp only
  repeat' first
    | with_reducible assumption
    | (with_reducible refine Sub.trans ?_ hM) <;> exact Sub.lit rfl
    | with_reducible apply State.podView_touches
    | with_reducible apply State.onMsg_touches
    | with_reducible apply State.groupViewIn_touches
    | with_reducible apply State.modFellows_touches
    | with_reducible apply TouchesO.next
    | (with_reducible intro _; try dsimp only)
    | split
    | with_reducible apply Touches1.mk

theorem execMsgRedPart_touches {M : Nat} {s0 : State} (i : Nat) (disagree : Bool) (s : State) (hM : Sub 163359114657796 M)
  (hT : Touches M s0 s) : TouchesO M s0 (execMsgRedPart i disagree s) := by
  unfold execMsgRedPart
  try dsimp only
  repeat' first
    | with_reducible assumption
    | (with_reducible refine Sub.trans ?_ hM) <;> exact Sub.lit rfl
    | with_reducible apply State.redMessage_touches
    | with_reducible apply TouchesO.next
    | (with_reducible intro _; try dsimp only)
    | split
    | with_reducible apply Touches1.mk

theorem execReset_touches {M : Nat} {s0 : State} (path : ReqPath) (s : State) (hM : Sub 1134906965437185836 M) (hT :
  Touches M s0 s) : TouchesO M s0 (execReset path s) := by
  unfold execReset
  try dsimp only
  repeat' first
    | with_reducible assumption
    | (with_reducible refine Sub.trans ?_ hM) <;> exact Sub.lit rfl
    | with_reducible apply State.reqReply_touches
    | with_reducible apply State.serve_touches
    | with_reducible apply State.fullReset_touches
    | with_reducible apply TouchesO.next
    | (with_reducible intro _; try dsimp only)
    | split
    | with_reducible apply Touches1.mk

theorem execFingerprintRound_touches {M : Nat} {s0 : State} (round : FpRound) (s : State) (hM : Sub 193518391787524 M) (hT
  : Touches M s0 s) : TouchesO M s0 (execFingerprintRound round s) := by
  unfold execFingerprintRound
  try dsimp only
  repeat' first
    | with_reducible assumption
    | (with_reducible refine Sub.trans ?_ hM) <;> exact Sub.lit rfl
    | with_reducible apply State.startRed_touches
    | with_reducible apply State.setOut_touches
    | with_reducible apply State.fpRound_touches
    | with_reducible apply TouchesO.next
    | (with_reducible intro _; try dsimp only)
    | split
    | with_reducible apply Touches1.mk

theorem execFingerprintResult_touches {M : Nat} {s0 : State} (p : Nat) (reads : List Nat) (again : List (List Nat)) (s :
  State) (hM : Sub 158329909281068 M) (hT : Touches M s0 s) : TouchesO M s0 (execFingerprintResult p reads again s) := by
  unfold execFingerprintResult
  try dsimp only
  repeat' first
    | with_reducible assumption
    | (with_reducible refine Sub.trans ?_ hM) <;> exact Sub.lit rfl
    | with_reducible apply State.stopJob_touches
    | with_reducible apply State.dropRed_touches
    | with_reducible apply State.refetch_touches
    | with_reducible apply State.modJob_touches
    | with_reducible apply State.raiseAs_touches
    | with_reducible apply TouchesO.next
    | with_reducible apply Touches.foldl
    | with_reducible apply Touches1.foldl
    | with_reducible apply Touches1.fst
    | (with_reducible intro _; try dsimp only)
    | split
    | with_reducible apply Touches1.mk

theorem execHartCancel_touches {M : Nat} {s0 : State} (hart cookie : Nat) (s : State) (hM : Sub 576460752555150124 M) (hT :
  Touches M s0 s) : TouchesO M s0 (execHartCancel hart cookie s) := by
  unfold execHartCancel
  try dsimp only
  repeat' first
    | with_reducible assumption
    | (with_reducible refine Sub.trans ?_ hM) <;> exact Sub.lit rfl
    | with_reducible apply State.hartCancel_touches
    | with_reducible apply State.barAnswer_touches
    | with_reducible apply TouchesO.next
    | (with_reducible intro _; try dsimp only)
    | split
    | with_reducible apply Touches1.mk

theorem execChipChannelEntryDone_touches {M : Nat} {s0 : State} (channel : Nat) (s : State) (hM : Sub 554554165292 M) (hT :
  Touches M s0 s) : TouchesO M s0 (execChipChannelEntryDone channel s) := by
  unfold execChipChannelEntryDone
  try dsimp only
  repeat' first
    | with_reducible assumption
    | (with_reducible refine Sub.trans ?_ hM) <;> exact Sub.lit rfl
    | with_reducible apply State.setHeads_touches
    | with_reducible apply State.modChan_touches
    | with_reducible apply State.setChanState_touches
    | with_reducible apply State.performSignal_touches
    | with_reducible apply State.dmaWrite_touches
    | with_reducible apply Touches1.fst
    | with_reducible apply TouchesO.next
    | (with_reducible intro _; try dsimp only)
    | split
    | with_reducible apply Touches1.mk

theorem execRetrainTimeout_touches {M : Nat} {s0 : State} (port : Nat) (s : State) (hM : Sub 145758338678790 M) (hT :
  Touches M s0 s) : TouchesO M s0 (execRetrainTimeout port s) := by
  unfold execRetrainTimeout
  try dsimp only
  repeat' first
    | with_reducible assumption
    | (with_reducible refine Sub.trans ?_ hM) <;> exact Sub.lit rfl
    | with_reducible apply State.portDown_touches
    | with_reducible apply State.setDtime_touches
    | with_reducible apply TouchesO.next
    | (with_reducible intro _; try dsimp only)
    | split
    | with_reducible apply Touches1.mk

theorem execOutBind_touches {M : Nat} {s0 : State} (core : Nat) (s : State) (hM : Sub 2203351779588 M) (hT : Touches M s0
  s) : TouchesO M s0 (execOutBind core s) := by
  unfold execOutBind
  try dsimp only
  repeat' first
    | with_reducible assumption
    | (with_reducible refine Sub.trans ?_ hM) <;> exact Sub.lit rfl
    | with_reducible apply State.outBindRun_touches
    | with_reducible apply State.pmkRow_touches
    | with_reducible apply Touches1.fst
    | with_reducible apply TouchesO.next
    | (with_reducible intro _; try dsimp only)
    | split
    | with_reducible apply Touches1.mk

theorem execCnvProj_touches {M : Nat} {s0 : State} (core : Nat) (hw : List Hw) (s : State) (hM : Sub 138479141164 M) (hT :
  Touches M s0 s) : TouchesO M s0 (execCnvProj core hw s) := by
  unfold execCnvProj
  try dsimp only
  repeat' first
    | with_reducible assumption
    | (with_reducible refine Sub.trans ?_ hM) <;> exact Sub.lit rfl
    | with_reducible apply State.engineRow_touches
    | with_reducible apply State.cnvRun_touches
    | with_reducible apply TouchesO.next
    | (with_reducible intro _; try dsimp only)
    | split
    | with_reducible apply Touches1.mk

end Sys2Proof.Machine
end

