-- ==== Sys2Proof/Laws/Touches5.lean ====
section
/-!
SUPPORT. The frames of operations and commands, part 5: each may change the fields of its mask only, and keeps the canonical form.
-/
namespace Sys2Proof.Machine

theorem execSpdmRequest_touches {M : Nat} {s0 : State} (doe : Bool) (request : List (BitVec 8)) (pair : Bool) (s : State)
  (hM : Sub 18014398526259200 M) (hT : Touches M s0 s) : TouchesO M s0 (execSpdmRequest doe request pair s) := by
  unfold execSpdmRequest
  try dsimp only
  repeat' first
    | with_reducible assumption
    | (with_reducible refine Sub.trans ?_ hM) <;> exact Sub.lit rfl
    | with_reducible apply State.setFreeCount_touches
    | with_reducible apply State.setOut_touches
    | with_reducible apply TouchesO.next
    | (with_reducible intro _; try dsimp only)
    | split
    | with_reducible apply Touches1.mk

theorem execEthTransmitDone_touches {M : Nat} {s0 : State} (port ring : Nat) (s : State) (hM : Sub 520093740 M) (hT :
  Touches M s0 s) : TouchesO M s0 (execEthTransmitDone port ring s) := by
  unfold execEthTransmitDone
  try dsimp only
  repeat' first
    | with_reducible assumption
    | (with_reducible refine Sub.trans ?_ hM) <;> exact Sub.lit rfl
    | with_reducible apply State.txRead_touches
    | with_reducible apply State.ethBack_touches
    | with_reducible apply State.setOut_touches
    | with_reducible apply State.txDescs_touches
    | with_reducible apply State.count_touches
    | with_reducible apply Touches1.fst
    | with_reducible apply TouchesO.next
    | with_reducible apply Touches.foldl
    | with_reducible apply Touches1.foldl
    | with_reducible apply Touches1.fst
    | (with_reducible intro _; try dsimp only)
    | split
    | with_reducible apply Touches1.mk

theorem execPartitionSuspended_touches {M : Nat} {s0 : State} (p : Nat) (s : State) (hM : Sub 141287244300812 M) (hT :
  Touches M s0 s) : TouchesO M s0 (execPartitionSuspended p s) := by
  unfold execPartitionSuspended
  try dsimp only
  repeat' first
    | with_reducible assumption
    | (with_reducible refine Sub.trans ?_ hM) <;> exact Sub.lit rfl
    | with_reducible apply State.pauseChan_touches
    | with_reducible apply State.wr_touches
    | with_reducible apply State.moveObjects_touches
    | with_reducible apply State.discardOffload_touches
    | with_reducible apply State.modJob_touches
    | with_reducible apply State.setHaltAt_touches
    | with_reducible apply State.dropSuspend_touches
    | with_reducible apply TouchesO.next
    | with_reducible apply Touches.foldl
    | with_reducible apply Touches1.foldl
    | with_reducible apply Touches1.fst
    | (with_reducible intro _; try dsimp only)
    | split
    | with_reducible apply Touches1.mk

theorem execCaddiePieceDone_touches {M : Nat} {s0 : State} (feed layer piece : Nat) (run : PieceRun) (s : State) (hM : Sub
  6761796224418092 M) (hT : Touches M s0 s) : TouchesO M s0 (execCaddiePieceDone feed layer piece run s) := by
  unfold execCaddiePieceDone
  try dsimp only
  repeat' first
    | with_reducible assumption
    | (with_reducible refine Sub.trans ?_ hM) <;> exact Sub.lit rfl
    | with_reducible apply State.pieceOver_touches
    | with_reducible apply State.modChan_touches
    | with_reducible apply State.failLayer_touches
    | with_reducible apply State.runXfer_touches
    | with_reducible apply State.completeXfer_touches
    | with_reducible apply State.count_touches
    | with_reducible apply State.addStarve_touches
    | with_reducible apply TouchesO.next
    | (with_reducible intro _; try dsimp only)
    | split
    | with_reducible apply Touches1.mk

theorem execSynCheck_touches {M : Nat} {s0 : State} (pf : Bool) (s : State) (hM : Sub 576460752555148076 M) (hT : Touches M
  s0 s) : TouchesO M s0 (execSynCheck pf s) := by
  unfold execSynCheck
  try dsimp only
  repeat' first
    | with_reducible assumption
    | (with_reducible refine Sub.trans ?_ hM) <;> exact Sub.lit rfl
    | with_reducible apply State.barAnswer_touches
    | with_reducible apply State.manual_touches
    | with_reducible apply TouchesO.next
    | (with_reducible intro _; try dsimp only)
    | split
    | with_reducible apply Touches1.mk

theorem execMarginMonitorTick_touches {M : Nat} {s0 : State} (slacks : List (Nat × Int)) (s : State) (hM : Sub
  9007199288295428 M) (hT : Touches M s0 s) : TouchesO M s0 (execMarginMonitorTick slacks s) := by
  unfold execMarginMonitorTick
  try dsimp only
  repeat' first
    | with_reducible assumption
    | (with_reducible refine Sub.trans ?_ hM) <;> exact Sub.lit rfl
    | with_reducible apply State.emergency_touches
    | with_reducible apply TouchesO.next
    | with_reducible apply Touches.foldl
    | with_reducible apply Touches1.foldl
    | with_reducible apply Touches1.fst
    | (with_reducible intro _; try dsimp only)
    | split
    | with_reducible apply Touches1.mk

theorem execRecoveryDeadline_touches {M : Nat} {s0 : State} (object : Nat) (s : State) (hM : Sub 6117140726022 M) (hT :
  Touches M s0 s) : TouchesO M s0 (execRecoveryDeadline object s) := by
  unfold execRecoveryDeadline
  try dsimp only
  repeat' first
    | with_reducible assumption
    | (with_reducible refine Sub.trans ?_ hM) <;> exact Sub.lit rfl
    | with_reducible apply State.setDtime_touches
    | with_reducible apply State.setReqs_touches
    | with_reducible apply State.recoveryFailed_touches
    | with_reducible apply State.askNext_touches
    | with_reducible apply TouchesO.next
    | (with_reducible intro _; try dsimp only)
    | split
    | with_reducible apply Touches1.mk

theorem execPmkJump_touches {M : Nat} {s0 : State} (core : Nat) (s : State) (hM : Sub 2203351779588 M) (hT : Touches M s0
  s) : TouchesO M s0 (execPmkJump core s) := by
  unfold execPmkJump
  try dsimp only
  repeat' first
    | with_reducible assumption
    | (with_reducible refine Sub.trans ?_ hM) <;> exact Sub.lit rfl
    | with_reducible apply State.jumpRun_touches
    | with_reducible apply State.pmkRow_touches
    | with_reducible apply Touches1.fst
    | with_reducible apply TouchesO.next
    | (with_reducible intro _; try dsimp only)
    | split
    | with_reducible apply Touches1.mk

theorem execAccessErrorRead_touches {M : Nat} {s0 : State} (path : ReadPath) (off size : Nat) (s : State) (hM : Sub
  4503599677702148 M) (hT : Touches M s0 s) : TouchesO M s0 (execAccessErrorRead path off size s) := by
  unfold execAccessErrorRead
  try dsimp only
  repeat' first
    | with_reducible assumption
    | (with_reducible refine Sub.trans ?_ hM) <;> exact Sub.lit rfl
    | with_reducible apply State.bar4Read_touches
    | with_reducible apply State.busReply_touches
    | with_reducible apply TouchesO.next
    | (with_reducible intro _; try dsimp only)
    | split
    | with_reducible apply Touches1.mk

theorem execMbxDeniedRead_touches {M : Nat} {s0 : State} (id c : Nat) (s : State) (hM : Sub 50331652 M) (hT : Touches M s0
  s) : TouchesO M s0 (execMbxDeniedRead id c s) := by
  unfold execMbxDeniedRead
  try dsimp only
  repeat' first
    | with_reducible assumption
    | (with_reducible refine Sub.trans ?_ hM) <;> exact Sub.lit rfl
    | with_reducible apply State.setOut_touches
    | with_reducible apply State.mbxDenied_touches
    | with_reducible apply State.barAnswer_touches
    | with_reducible apply TouchesO.next
    | (with_reducible intro _; try dsimp only)
    | split
    | with_reducible apply Touches1.mk

theorem execPmkNop_touches {M : Nat} {s0 : State} (core : Nat) (s : State) (hM : Sub 2203351779588 M) (hT : Touches M s0 s)
  : TouchesO M s0 (execPmkNop core s) := by
  unfold execPmkNop
  try dsimp only
  repeat' first
    | with_reducible assumption
    | (with_reducible refine Sub.trans ?_ hM) <;> exact Sub.lit rfl
    | with_reducible apply State.pmkRow_touches
    | with_reducible apply TouchesO.next
    | (with_reducible intro _; try dsimp only)
    | split
    | with_reducible apply Touches1.mk

theorem execGetPdr_touches {M : Nat} {s0 : State} (inst handle : Nat) (s : State) (hM : Sub 16777216 M) (hT : Touches M s0
  s) : TouchesO M s0 (execGetPdr inst handle s) := by
  unfold execGetPdr
  try dsimp only
  repeat' first
    | with_reducible assumption
    | (with_reducible refine Sub.trans ?_ hM) <;> exact Sub.lit rfl
    | with_reducible apply State.pldm_touches
    | with_reducible apply TouchesO.next
    | (with_reducible intro _; try dsimp only)
    | split
    | with_reducible apply Touches1.mk

theorem execSegmentArrive_touches {M : Nat} {s0 : State} (core : Nat) (s : State) (hM : Sub 33558788 M) (hT : Touches M s0
  s) : TouchesO M s0 (execSegmentArrive core s) := by
  unfold execSegmentArrive
  try dsimp only
  repeat' first
    | with_reducible assumption
    | (with_reducible refine Sub.trans ?_ hM) <;> exact Sub.lit rfl
    | with_reducible apply State.segmentArrive_touches
    | with_reducible apply TouchesO.next
    | (with_reducible intro _; try dsimp only)
    | split
    | with_reducible apply Touches1.mk

theorem execTimeSyncTimer_touches {M : Nat} {s0 : State} (s : State) (hM : Sub 4328521728 M) (hT : Touches M s0 s) :
  TouchesO M s0 (execTimeSyncTimer s) := by
  unfold execTimeSyncTimer
  try dsimp only
  repeat' first
    | with_reducible assumption
    | (with_reducible refine Sub.trans ?_ hM) <;> exact Sub.lit rfl
    | with_reducible apply State.sendMgt_touches
    | with_reducible apply TouchesO.next
    | (with_reducible intro _; try dsimp only)
    | split
    | with_reducible apply Touches1.mk

theorem execAtsInvalidation_touches {M : Nat} {s0 : State} (tag pasid page n : Nat) (s : State) (hM : Sub 18874368 M) (hT :
  Touches M s0 s) : TouchesO M s0 (execAtsInvalidation tag pasid page n s) := by
  unfold execAtsInvalidation
  try dsimp only
  repeat' first
    | with_reducible assumption
    | (with_reducible refine Sub.trans ?_ hM) <;> exact Sub.lit rfl
    | with_reducible apply State.setOut_touches
    | with_reducible apply State.setAtc_touches
    | with_reducible apply TouchesO.next
    | (with_reducible intro _; try dsimp only)
    | split
    | with_reducible apply Touches1.mk

theorem execInvalidCommand_touches {M : Nat} {s0 : State} (core : Nat) (s : State) (hM : Sub 33554692 M) (hT : Touches M s0
  s) : TouchesO M s0 (execInvalidCommand core s) := by
  unfold execInvalidCommand
  try dsimp only
  repeat' first
    | with_reducible assumption
    | (with_reducible refine Sub.trans ?_ hM) <;> exact Sub.lit rfl
    | with_reducible apply State.refuseCommand_touches
    | with_reducible apply State.traceFailed_touches
    | with_reducible apply TouchesO.next
    | (with_reducible intro _; try dsimp only)
    | split
    | with_reducible apply Touches1.mk

theorem execVfFlr_touches {M : Nat} {s0 : State} (p : Nat) (fails : List (Nat × Nat)) (s : State) (hM : Sub
  1023328186676499388 M) (hT : Touches M s0 s) : TouchesO M s0 (execVfFlr p fails s) := by
  unfold execVfFlr
  try dsimp only
  repeat' first
    | with_reducible assumption
    | (with_reducible refine Sub.trans ?_ hM) <;> exact Sub.lit rfl
    | with_reducible apply State.resetFunction_touches
    | with_reducible apply State.flrPart_touches
    | with_reducible apply TouchesO.next
    | (with_reducible intro _; try dsimp only)
    | split
    | with_reducible apply Touches1.mk

theorem execGetNumericEffecterValue_touches {M : Nat} {s0 : State} (inst effecter : Nat) (s : State) (hM : Sub 16777216 M)
  (hT : Touches M s0 s) : TouchesO M s0 (execGetNumericEffecterValue inst effecter s) := by
  unfold execGetNumericEffecterValue
  try dsimp only
  repeat' first
    | with_reducible assumption
    | (with_reducible refine Sub.trans ?_ hM) <;> exact Sub.lit rfl
    | with_reducible apply State.pldm_touches
    | with_reducible apply TouchesO.next
    | (with_reducible intro _; try dsimp only)
    | split
    | with_reducible apply Touches1.mk

theorem execDoeDiscovery_touches {M : Nat} {s0 : State} (index : Nat) (s : State) (hM : Sub 16777216 M) (hT : Touches M s0
  s) : TouchesO M s0 (execDoeDiscovery index s) := by
  unfold execDoeDiscovery
  try dsimp only
  repeat' first
    | with_reducible assumption
    | (with_reducible refine Sub.trans ?_ hM) <;> exact Sub.lit rfl
    | with_reducible apply State.setOut_touches
    | with_reducible apply TouchesO.next
    | (with_reducible intro _; try dsimp only)
    | split
    | with_reducible apply Touches1.mk

theorem execOptNormReduceStart_touches {M : Nat} {s0 : State} (p : Nat) (s : State) (hM : Sub 193518375010564 M) (hT :
  Touches M s0 s) : TouchesO M s0 (execOptNormReduceStart p s) := by
  unfold execOptNormReduceStart
  try dsimp only
  repeat' first
    | with_reducible assumption
    | (with_reducible refine Sub.trans ?_ hM) <;> exact Sub.lit rfl
    | with_reducible apply State.startRed_touches
    | with_reducible apply State.modCore_touches
    | with_reducible apply State.wr_touches
    | with_reducible apply State.modJob_touches
    | with_reducible apply TouchesO.next
    | with_reducible apply Touches.foldl
    | with_reducible apply Touches1.foldl
    | with_reducible apply Touches1.fst
    | (with_reducible intro _; try dsimp only)
    | split
    | with_reducible apply Touches1.mk

theorem execRedDoorbell_touches {M : Nat} {s0 : State} (pf : Bool) (p tail : Nat) (s : State) (hM : Sub 50331652 M) (hT :
  Touches M s0 s) : TouchesO M s0 (execRedDoorbell pf p tail s) := by
  unfold execRedDoorbell
  try dsimp only
  repeat' first
    | with_reducible assumption
    | (with_reducible refine Sub.trans ?_ hM) <;> exact Sub.lit rfl
    | with_reducible apply State.redDoorbell_touches
    | with_reducible apply State.barAnswer_touches
    | with_reducible apply TouchesO.next
    | (with_reducible intro _; try dsimp only)
    | split
    | with_reducible apply Touches1.mk

theorem execStepEndRetire_touches {M : Nat} {s0 : State} (core : Nat) (s : State) (hM : Sub 2203351779588 M) (hT : Touches
  M s0 s) : TouchesO M s0 (execStepEndRetire core s) := by
  unfold execStepEndRetire
  try dsimp only
  repeat' first
    | with_reducible assumption
    | (with_reducible refine Sub.trans ?_ hM) <;> exact Sub.lit rfl
    | with_reducible apply State.retire_touches
    | with_reducible apply State.stepEnded_touches
    | with_reducible apply TouchesO.next
    | (with_reducible intro _; try dsimp only)
    | split
    | with_reducible apply Touches1.mk

theorem execReductionTimeout_touches {M : Nat} {s0 : State} (p cls : Nat) (s : State) (hM : Sub 17592219598854 M) (hT :
  Touches M s0 s) : TouchesO M s0 (execReductionTimeout p cls s) := by
  unfold execReductionTimeout
  try dsimp only
  repeat' first
    | with_reducible assumption
    | (with_reducible refine Sub.trans ?_ hM) <;> exact Sub.lit rfl
    | with_reducible apply State.setDtime_touches
    | with_reducible apply State.failRed_touches
    | with_reducible apply TouchesO.next
    | (with_reducible intro _; try dsimp only)
    | split
    | with_reducible apply Touches1.mk

theorem execT3Relocate_touches {M : Nat} {s0 : State} (object unit : Nat) (s : State) (hM : Sub 1073741824 M) (hT : Touches
  M s0 s) : TouchesO M s0 (execT3Relocate object unit s) := by
  unfold execT3Relocate
  try dsimp only
  repeat' first
    | with_reducible assumption
    | (with_reducible refine Sub.trans ?_ hM) <;> exact Sub.lit rfl
    | with_reducible apply State.relocate_touches
    | with_reducible apply TouchesO.next
    | (with_reducible intro _; try dsimp only)
    | split
    | with_reducible apply Touches1.mk

theorem execHostFlagWrite_touches {M : Nat} {s0 : State} (fn granule value : Nat) (s : State) (hM : Sub 58720260 M) (hT :
  Touches M s0 s) : TouchesO M s0 (execHostFlagWrite fn granule value s) := by
  unfold execHostFlagWrite
  try dsimp only
  repeat' first
    | with_reducible assumption
    | (with_reducible refine Sub.trans ?_ hM) <;> exact Sub.lit rfl
    | with_reducible apply State.unsupportedRequest_touches
    | with_reducible apply State.setFlag_touches
    | with_reducible apply State.ownershipEvent_touches
    | with_reducible apply State.gateCount_touches
    | with_reducible apply TouchesO.next
    | (with_reducible intro _; try dsimp only)
    | split
    | with_reducible apply Touches1.mk

theorem execMsgRdReq_touches {M : Nat} {s0 : State} (i : Nat) (s : State) (hM : Sub 145767197048836 M) (hT : Touches M s0
  s) : TouchesO M s0 (execMsgRdReq i s) := by
  unfold execMsgRdReq
  try dsimp only
  repeat' first
    | with_reducible assumption
    | (with_reducible refine Sub.trans ?_ hM) <;> exact Sub.lit rfl
    | with_reducible apply State.remoteRead_touches
    | with_reducible apply State.onMsg_touches
    | with_reducible apply TouchesO.next
    | (with_reducible intro _; try dsimp only)
    | split
    | with_reducible apply Touches1.mk

theorem execImageData_touches {M : Nat} {s0 : State} (path : ReqPath) (s : State) (hM : Sub 148618787753558020 M) (hT :
  Touches M s0 s) : TouchesO M s0 (execImageData path s) := by
  unfold execImageData
  try dsimp only
  repeat' first
    | with_reducible assumption
    | (with_reducible refine Sub.trans ?_ hM) <;> exact Sub.lit rfl
    | with_reducible apply State.reqReply_touches
    | with_reducible apply State.reqStateFail_touches
    | with_reducible apply State.serve_touches
    | with_reducible apply State.setReferee_touches
    | with_reducible apply TouchesO.next
    | with_reducible apply Touches.foldl
    | with_reducible apply Touches1.foldl
    | with_reducible apply Touches1.fst
    | (with_reducible intro _; try dsimp only)
    | split
    | with_reducible apply Touches1.mk

theorem execMsgRedResult_touches {M : Nat} {s0 : State} (i : Nat) (disagree : Bool) (s : State) (hM : Sub 163359114657796
  M) (hT : Touches M s0 s) : TouchesO M s0 (execMsgRedResult i disagree s) := by
  unfold execMsgRedResult
  try dsimp only
  repeat' first
    | with_reducible assumption
    | (with_reducible refine Sub.trans ?_ hM) <;> exact Sub.lit rfl
    | with_reducible apply State.redMessage_touches
    | with_reducible apply TouchesO.next
    | (with_reducible intro _; try dsimp only)
    | split
    | with_reducible apply Touches1.mk

theorem execReplanInterval_touches {M : Nat} {s0 : State} (s : State) (hM : Sub 9007199254740998 M) (hT : Touches M s0 s) :
  TouchesO M s0 (execReplanInterval s) := by
  unfold execReplanInterval
  try dsimp only
  repeat' first
    | with_reducible assumption
    | (with_reducible refine Sub.trans ?_ hM) <;> exact Sub.lit rfl
    | with_reducible apply State.requestPlan_touches
    | with_reducible apply State.setDtime_touches
    | with_reducible apply TouchesO.next
    | (with_reducible intro _; try dsimp only)
    | split
    | with_reducible apply Touches1.mk

theorem execPowerControlTick_touches {M : Nat} {s0 : State} (s : State) (hM : Sub 9007199288295428 M) (hT : Touches M s0 s)
  : TouchesO M s0 (execPowerControlTick s) := by
  unfold execPowerControlTick
  try dsimp only
  repeat' first
    | with_reducible assumption
    | (with_reducible refine Sub.trans ?_ hM) <;> exact Sub.lit rfl
    | with_reducible apply State.limited_touches
    | with_reducible apply State.alert_touches
    | with_reducible apply State.wr_touches
    | with_reducible apply State.setCeiling_touches
    | with_reducible apply State.count_touches
    | with_reducible apply State.setPower_touches
    | with_reducible apply TouchesO.next
    | (with_reducible intro _; try dsimp only)
    | split
    | with_reducible apply Touches1.mk

theorem execDmaResume_touches {M : Nat} {s0 : State} (channel : Nat) (s : State) (hM : Sub 549806145540 M) (hT : Touches M
  s0 s) : TouchesO M s0 (execDmaResume channel s) := by
  unfold execDmaResume
  try dsimp only
  repeat' first
    | with_reducible assumption
    | (with_reducible refine Sub.trans ?_ hM) <;> exact Sub.lit rfl
    | with_reducible apply State.resumeChan_touches
    | with_reducible apply State.barAnswer_touches
    | with_reducible apply TouchesO.next
    | (with_reducible intro _; try dsimp only)
    | split
    | with_reducible apply Touches1.mk

theorem execGetPdrRepositoryInfo_touches {M : Nat} {s0 : State} (inst : Nat) (s : State) (hM : Sub 16777216 M) (hT :
  Touches M s0 s) : TouchesO M s0 (execGetPdrRepositoryInfo inst s) := by
  unfold execGetPdrRepositoryInfo
  try dsimp only
  repeat' first
    | with_reducible assumption
    | (with_reducible refine Sub.trans ?_ hM) <;> exact Sub.lit rfl
    | with_reducible apply State.pldm_touches
    | with_reducible apply TouchesO.next
    | with_reducible apply Touches.foldl
    | with_reducible apply Touches1.foldl
    | with_reducible apply Touches1.fst
    | (with_reducible intro _; try dsimp only)
    | split
    | with_reducible apply Touches1.mk

theorem execMsgHeartbeat_touches {M : Nat} {s0 : State} (i : Nat) (s : State) (hM : Sub 145784108482564 M) (hT : Touches M
  s0 s) : TouchesO M s0 (execMsgHeartbeat i s) := by
  unfold execMsgHeartbeat
  try dsimp only
  repeat' first
    | with_reducible assumption
    | (with_reducible refine Sub.trans ?_ hM) <;> exact Sub.lit rfl
    | with_reducible apply State.hear_touches
    | with_reducible apply State.wr_touches
    | with_reducible apply State.onMsg_touches
    | with_reducible apply State.rival_touches
    | with_reducible apply State.sendJoin_touches
    | with_reducible apply State.modFellows_touches
    | with_reducible apply TouchesO.next
    | (with_reducible intro _; try dsimp only)
    | split
    | with_reducible apply Touches1.mk

theorem execTraceBufferFull_touches {M : Nat} {s0 : State} (p d : Nat) (s : State) (hM : Sub 33554436 M) (hT : Touches M s0
  s) : TouchesO M s0 (execTraceBufferFull p d s) := by
  unfold execTraceBufferFull
  try dsimp only
  repeat' first
    | with_reducible assumption
    | (with_reducible refine Sub.trans ?_ hM) <;> exact Sub.lit rfl
    | with_reducible apply State.wr_touches
    | with_reducible apply State.raise_touches
    | with_reducible apply TouchesO.next
    | (with_reducible intro _; try dsimp only)
    | split
    | with_reducible apply Touches1.mk

theorem execRegionFree_touches {M : Nat} {s0 : State} (pf : Bool) (region : Nat) (s : State) (hM : Sub 318767108 M) (hT :
  Touches M s0 s) : TouchesO M s0 (execRegionFree pf region s) := by
  unfold execRegionFree
  try dsimp only
  repeat' first
    | with_reducible assumption
    | (with_reducible refine Sub.trans ?_ hM) <;> exact Sub.lit rfl
    | with_reducible apply State.barAnswer_touches
    | with_reducible apply State.regionOp_touches
    | with_reducible apply TouchesO.next
    | (with_reducible intro _; try dsimp only)
    | split
    | with_reducible apply Touches1.mk

theorem execDynamicAddressAssignment_touches {M : Nat} {s0 : State} (setdasa : Bool) (static addr : Nat) (s : State) (hM :
  Sub 4503599627370496 M) (hT : Touches M s0 s) : TouchesO M s0 (execDynamicAddressAssignment setdasa static addr s) := by
  unfold execDynamicAddressAssignment
  try dsimp only
  repeat' first
    | with_reducible assumption
    | (with_reducible refine Sub.trans ?_ hM) <;> exact Sub.lit rfl
    | with_reducible apply State.setReferee_touches
    | with_reducible apply TouchesO.next
    | (with_reducible intro _; try dsimp only)
    | split
    | with_reducible apply Touches1.mk

theorem execEthFrameReceive_touches {M : Nat} {s0 : State} (port : Nat) (frame : List (BitVec 8)) (fcsOk : Bool) (s :
  State) (hM : Sub 39174799404 M) (hT : Touches M s0 s) : TouchesO M s0 (execEthFrameReceive port frame fcsOk s) := by
  unfold execEthFrameReceive
  try dsimp only
  repeat' first
    | with_reducible assumption
    | (with_reducible refine Sub.trans ?_ hM) <;> exact Sub.lit rfl
    | with_reducible apply State.pauseClass_touches
    | with_reducible apply State.rxBuffers_touches
    | with_reducible apply State.rxDeliver_touches
    | with_reducible apply State.count_touches
    | with_reducible apply State.pfcFrame_touches
    | with_reducible apply Touches1.fst
    | with_reducible apply TouchesO.next
    | (with_reducible intro _; try dsimp only)
    | split
    | with_reducible apply Touches1.mk

theorem execEntryNop_touches {M : Nat} {s0 : State} (queue : Nat) (s : State) (hM : Sub 738590339143388988 M) (hT : Touches
  M s0 s) : TouchesO M s0 (execEntryNop queue s) := by
  unfold execEntryNop
  try dsimp only
  repeat' first
    | with_reducible assumption
    | (with_reducible refine Sub.trans ?_ hM) <;> exact Sub.lit rfl
    | with_reducible apply State.entryDone_touches
    | with_reducible apply State.entryRow_touches
    | with_reducible apply TouchesO.next
    | (with_reducible intro _; try dsimp only)
    | split
    | with_reducible apply Touches1.mk

theorem execVecReduce_touches {M : Nat} {s0 : State} (core : Nat) (hw : List Hw) (s : State) (hM : Sub 138479141164 M) (hT
  : Touches M s0 s) : TouchesO M s0 (execVecReduce core hw s) := by
  unfold execVecReduce
  try dsimp only
  repeat' first
    | with_reducible assumption
    | (with_reducible refine Sub.trans ?_ hM) <;> exact Sub.lit rfl
    | with_reducible apply State.engineRow_touches
    | with_reducible apply State.vecRun_touches
    | with_reducible apply TouchesO.next
    | (with_reducible intro _; try dsimp only)
    | split
    | with_reducible apply Touches1.mk

theorem execPeerLostTimeout_touches {M : Nat} {s0 : State} (chip : Nat) (s : State) (hM : Sub 26409988784174 M) (hT :
  Touches M s0 s) : TouchesO M s0 (execPeerLostTimeout chip s) := by
  unfold execPeerLostTimeout
  try dsimp only
  repeat' first
    | with_reducible assumption
    | (with_reducible refine Sub.trans ?_ hM) <;> exact Sub.lit rfl
    | with_reducible apply State.unhear_touches
    | with_reducible apply State.wr_touches
    | with_reducible apply State.changeView_touches
    | with_reducible apply State.setDtime_touches
    | with_reducible apply State.raise_touches
    | with_reducible apply State.managerLost_touches
    | with_reducible apply State.modFellows_touches
    | with_reducible apply TouchesO.next
    | (with_reducible intro _; try dsimp only)
    | split
    | with_reducible apply Touches1.mk

theorem execRedRestart_touches {M : Nat} {s0 : State} (pf : Bool) (p : Nat) (s : State) (hM : Sub 50331652 M) (hT : Touches
  M s0 s) : TouchesO M s0 (execRedRestart pf p s) := by
  unfold execRedRestart
  try dsimp only
  repeat' first
    | with_reducible assumption
    | (with_reducible refine Sub.trans ?_ hM) <;> exact Sub.lit rfl
    | with_reducible apply State.redRestart_touches
    | with_reducible apply State.barAnswer_touches
    | with_reducible apply TouchesO.next
    | (with_reducible intro _; try dsimp only)
    | split
    | with_reducible apply Touches1.mk

theorem execPwrcapInput_touches {M : Nat} {s0 : State} (asserted : Bool) (s : State) (hM : Sub 4 M) (hT : Touches M s0 s) :
  TouchesO M s0 (execPwrcapInput asserted s) := by
  unfold execPwrcapInput
  try dsimp only
  repeat' first
    | with_reducible assumption
    | (with_reducible refine Sub.trans ?_ hM) <;> exact Sub.lit rfl
    | with_reducible apply State.wr_touches
    | with_reducible apply TouchesO.next
    | (with_reducible intro _; try dsimp only)
    | split
    | with_reducible apply Touches1.mk

theorem execSvnCommit_touches {M : Nat} {s0 : State} (path : ReqPath) (ok : Bool) (s : State) (hM : Sub 148618787753558020
  M) (hT : Touches M s0 s) : TouchesO M s0 (execSvnCommit path ok s) := by
  unfold execSvnCommit
  try dsimp only
  repeat' first
    | with_reducible assumption
    | (with_reducible refine Sub.trans ?_ hM) <;> exact Sub.lit rfl
    | with_reducible apply State.reqReply_touches
    | with_reducible apply State.serve_touches
    | with_reducible apply State.wr_touches
    | with_reducible apply State.fuseFail_touches
    | with_reducible apply TouchesO.next
    | (with_reducible intro _; try dsimp only)
    | split
    | with_reducible apply Touches1.mk

theorem execAutoRestart_touches {M : Nat} {s0 : State} (p : Nat) (others : Option (List Nat)) (images : List (List (BitVec
  8))) (fails : List (Nat × Nat)) (s : State) (hM : Sub 826330909366017982 M) (hT : Touches M s0 s) : TouchesO M s0
  (execAutoRestart p others images fails s) := by
  unfold execAutoRestart
  try dsimp only
  repeat' first
    | with_reducible assumption
    | (with_reducible refine Sub.trans ?_ hM) <;> exact Sub.lit rfl
    | with_reducible apply State.restart_touches
    | with_reducible apply State.wr_touches
    | with_reducible apply State.autoRun_touches
    | with_reducible apply State.modJob_touches
    | with_reducible apply TouchesO.next
    | (with_reducible intro _; try dsimp only)
    | split
    | with_reducible apply Touches1.mk

theorem execT3Patrol_touches {M : Nat} {s0 : State} (units : List (Nat × Nat × Nat)) (s : State) (hM : Sub 1073741824 M)
  (hT : Touches M s0 s) : TouchesO M s0 (execT3Patrol units s) := by
  unfold execT3Patrol
  try dsimp only
  repeat' first
    | with_reducible assumption
    | (with_reducible refine Sub.trans ?_ hM) <;> exact Sub.lit rfl
    | with_reducible apply State.relocate_touches
    | with_reducible apply State.weaken_touches
    | with_reducible apply TouchesO.next
    | with_reducible apply Touches.foldl
    | with_reducible apply Touches1.foldl
    | with_reducible apply Touches1.fst
    | (with_reducible intro _; try dsimp only)
    | split
    | with_reducible apply Touches1.mk

theorem execCheckpointCaptureEnd_touches {M : Nat} {s0 : State} (p : Nat) (s : State) (hM : Sub 140806207832068 M) (hT :
  Touches M s0 s) : TouchesO M s0 (execCheckpointCaptureEnd p s) := by
  unfold execCheckpointCaptureEnd
  try dsimp only
  repeat' first
    | with_reducible assumption
    | (with_reducible refine Sub.trans ?_ hM) <;> exact Sub.lit rfl
    | with_reducible apply State.wr_touches
    | with_reducible apply State.modJob_touches
    | with_reducible apply State.setReqs_touches
    | with_reducible apply TouchesO.next
    | (with_reducible intro _; try dsimp only)
    | split
    | with_reducible apply Touches1.mk

theorem execSynRelease_touches {M : Nat} {s0 : State} (pf : Bool) (object : Nat) (s : State) (hM : Sub 576460752555148076
  M) (hT : Touches M s0 s) : TouchesO M s0 (execSynRelease pf object s) := by
  unfold execSynRelease
  try dsimp only
  repeat' first
    | with_reducible assumption
    | (with_reducible refine Sub.trans ?_ hM) <;> exact Sub.lit rfl
    | with_reducible apply State.barAnswer_touches
    | with_reducible apply State.manual_touches
    | with_reducible apply TouchesO.next
    | (with_reducible intro _; try dsimp only)
    | split
    | with_reducible apply Touches1.mk

theorem execSynWaitersRead_touches {M : Nat} {s0 : State} (who : Master) (byte size : Nat) (s : State) (hM : Sub
  4503599677702148 M) (hT : Touches M s0 s) : TouchesO M s0 (execSynWaitersRead who byte size s) := by
  unfold execSynWaitersRead
  try dsimp only
  repeat' first
    | with_reducible assumption
    | (with_reducible refine Sub.trans ?_ hM) <;> exact Sub.lit rfl
    | with_reducible apply State.busReply_touches
    | with_reducible apply TouchesO.next
    | (with_reducible intro _; try dsimp only)
    | split
    | with_reducible apply Touches1.mk

theorem execCommandRetire_touches {M : Nat} {s0 : State} (core engine : Nat) (s : State) (hM : Sub 2203351779588 M) (hT :
  Touches M s0 s) : TouchesO M s0 (execCommandRetire core engine s) := by
  unfold execCommandRetire
  try dsimp only
  repeat' first
    | with_reducible assumption
    | (with_reducible refine Sub.trans ?_ hM) <;> exact Sub.lit rfl
    | with_reducible apply State.retireOldest_touches
    | with_reducible apply TouchesO.next
    | (with_reducible intro _; try dsimp only)
    | split
    | with_reducible apply Touches1.mk

theorem execSyncWait_touches {M : Nat} {s0 : State} (core : Nat) (s : State) (hM : Sub 576460752555151148 M) (hT : Touches
  M s0 s) : TouchesO M s0 (execSyncWait core s) := by
  unfold execSyncWait
  try dsimp only
  repeat' first
    | with_reducible assumption
    | (with_reducible refine Sub.trans ?_ hM) <;> exact Sub.lit rfl
    | with_reducible apply State.modCore_touches
    | with_reducible apply State.waitFrom_touches
    | with_reducible apply TouchesO.next
    | (with_reducible intro _; try dsimp only)
    | split
    | with_reducible apply Touches1.mk

theorem execRedGroupWrite_touches {M : Nat} {s0 : State} (pf : Bool) (p value : Nat) (s : State) (hM : Sub 52776608464900
  M) (hT : Touches M s0 s) : TouchesO M s0 (execRedGroupWrite pf p value s) := by
  unfold execRedGroupWrite
  try dsimp only
  repeat' first
    | with_reducible assumption
    | (with_reducible refine Sub.trans ?_ hM) <;> exact Sub.lit rfl
    | with_reducible apply State.barAnswer_touches
    | with_reducible apply State.groupWrite_touches
    | with_reducible apply TouchesO.next
    | (with_reducible intro _; try dsimp only)
    | split
    | with_reducible apply Touches1.mk

theorem execServiceCoreMemoryAccess_touches {M : Nat} {s0 : State} (hart : Nat) (access : HartAccess) (a n : Nat) (s :
  State) (hM : Sub 1152921365020409790 M) (hT : Touches M s0 s) : TouchesO M s0 (execServiceCoreMemoryAccess hart access a
  n s) := by
  unfold execServiceCoreMemoryAccess
  try dsimp only
  repeat' first
    | with_reducible assumption
    | (with_reducible refine Sub.trans ?_ hM) <;> exact Sub.lit rfl
    | with_reducible apply State.reply_touches
    | with_reducible apply State.hartFault_touches
    | with_reducible apply State.writeHartCsr_touches
    | with_reducible apply State.hartLoad_touches
    | with_reducible apply State.dropHartLine_touches
    | with_reducible apply State.hartStore_touches
    | with_reducible apply State.writeBack_touches
    | with_reducible apply State.hartParity_touches
    | with_reducible apply State.hartBlock_touches
    | with_reducible apply Touches1.fst
    | with_reducible apply TouchesO.next
    | (with_reducible intro _; try dsimp only)
    | split
    | with_reducible apply Touches1.mk

theorem execBootPhaseDone_touches {M : Nat} {s0 : State} (findings : List BootFinding) (plan : PlanInput) (s : State) (hM :
  Sub 1134906968658411500 M) (hT : Touches M s0 s) : TouchesO M s0 (execBootPhaseDone findings plan s) := by
  unfold execBootPhaseDone
  try dsimp only
  repeat' first
    | with_reducible assumption
    | (with_reducible refine Sub.trans ?_ hM) <;> exact Sub.lit rfl
    | with_reducible apply State.wr_touches
    | with_reducible apply State.bootWork_touches
    | with_reducible apply State.bootFail_touches
    | with_reducible apply State.endPhase_touches
    | with_reducible apply State.setReferee_touches
    | with_reducible apply TouchesO.next
    | (with_reducible intro _; try dsimp only)
    | split
    | with_reducible apply Touches1.mk

theorem execSetEventReceiver_touches {M : Nat} {s0 : State} (inst method addr : Nat) (s : State) (hM : Sub 4503599644147712
  M) (hT : Touches M s0 s) : TouchesO M s0 (execSetEventReceiver inst method addr s) := by
  unfold execSetEventReceiver
  try dsimp only
  repeat' first
    | with_reducible assumption
    | (with_reducible refine Sub.trans ?_ hM) <;> exact Sub.lit rfl
    | with_reducible apply State.pldm_touches
    | with_reducible apply State.setReferee_touches
    | with_reducible apply TouchesO.next
    | (with_reducible intro _; try dsimp only)
    | split
    | with_reducible apply Touches1.mk

theorem execWindowRead_touches {M : Nat} {s0 : State} (fn addr n : Nat) (s : State) (hM : Sub 318767108 M) (hT : Touches M
  s0 s) : TouchesO M s0 (execWindowRead fn addr n s) := by
  unfold execWindowRead
  try dsimp only
  repeat' first
    | with_reducible assumption
    | (with_reducible refine Sub.trans ?_ hM) <;> exact Sub.lit rfl
    | with_reducible apply State.unsupportedRequest_touches
    | with_reducible apply State.reply_touches
    | with_reducible apply State.cacheReads_touches
    | with_reducible apply State.gateCount_touches
    | with_reducible apply State.refuseWindow_touches
    | with_reducible apply TouchesO.next
    | (with_reducible intro _; try dsimp only)
    | split
    | with_reducible apply Touches1.mk

theorem execSetTid_touches {M : Nat} {s0 : State} (inst tid : Nat) (s : State) (hM : Sub 4503599644147712 M) (hT : Touches
  M s0 s) : TouchesO M s0 (execSetTid inst tid s) := by
  unfold execSetTid
  try dsimp only
  repeat' first
    | with_reducible assumption
    | (with_reducible refine Sub.trans ?_ hM) <;> exact Sub.lit rfl
    | with_reducible apply State.pldm_touches
    | with_reducible apply State.setReferee_touches
    | with_reducible apply TouchesO.next
    | (with_reducible intro _; try dsimp only)
    | split
    | with_reducible apply Touches1.mk

theorem execSbkRestore_touches {M : Nat} {s0 : State} (core : Nat) (hw : List Hw) (s : State) (hM : Sub 503316780 M) (hT :
  Touches M s0 s) : TouchesO M s0 (execSbkRestore core hw s) := by
  unfold execSbkRestore
  try dsimp only
  repeat' first
    | with_reducible assumption
    | (with_reducible refine Sub.trans ?_ hM) <;> exact Sub.lit rfl
    | with_reducible apply State.engineRow_touches
    | with_reducible apply State.sbkRestoreRun_touches
    | with_reducible apply TouchesO.next
    | (with_reducible intro _; try dsimp only)
    | split
    | with_reducible apply Touches1.mk

theorem execThermalTick_touches {M : Nat} {s0 : State} (readings : List (Nat × Option Int)) (s : State) (hM : Sub
  1134906965437185836 M) (hT : Touches M s0 s) : TouchesO M s0 (execThermalTick readings s) := by
  unfold execThermalTick
  try dsimp only
  repeat' first
    | with_reducible assumption
    | (with_reducible refine Sub.trans ?_ hM) <;> exact Sub.lit rfl
    | with_reducible apply State.refreshStack_touches
    | with_reducible apply State.showTemps_touches
    | with_reducible apply State.tripped_touches
    | with_reducible apply State.alert_touches
    | with_reducible apply State.coolantTest_touches
    | with_reducible apply State.thermalShared_touches
    | with_reducible apply State.thermalIsland_touches
    | with_reducible apply State.platformTemps_touches
    | with_reducible apply State.takeReading_touches
    | with_reducible apply TouchesO.next
    | with_reducible apply Touches.foldl
    | with_reducible apply Touches1.foldl
    | with_reducible apply Touches1.fst
    | (with_reducible intro _; try dsimp only)
    | split
    | with_reducible apply Touches1.mk

theorem execEntrySeqCancel_touches {M : Nat} {s0 : State} (queue : Nat) (s : State) (hM : Sub 738590339143393084 M) (hT :
  Touches M s0 s) : TouchesO M s0 (execEntrySeqCancel queue s) := by
  unfold execEntrySeqCancel
  try dsimp only
  repeat' first
    | with_reducible assumption
    | (with_reducible refine Sub.trans ?_ hM) <;> exact Sub.lit rfl
    | with_reducible apply State.raise_touches
    | with_reducible apply State.entryDone_touches
    | with_reducible apply State.entryRow_touches
    | with_reducible apply State.dropSegment_touches
    | with_reducible apply TouchesO.next
    | with_reducible apply Touches.foldl
    | with_reducible apply Touches1.foldl
    | with_reducible apply Touches1.fst
    | (with_reducible intro _; try dsimp only)
    | split
    | with_reducible apply Touches1.mk

theorem execAckTimer_touches {M : Nat} {s0 : State} (port : Nat) (s : State) (hM : Sub 4345298950 M) (hT : Touches M s0 s)
  : TouchesO M s0 (execAckTimer port s) := by
  unfold execAckTimer
  try dsimp only
  repeat' first
    | with_reducible assumption
    | (with_reducible refine Sub.trans ?_ hM) <;> exact Sub.lit rfl
    | with_reducible apply State.flitOut_touches
    | with_reducible apply State.setDtime_touches
    | with_reducible apply TouchesO.next
    | (with_reducible intro _; try dsimp only)
    | split
    | with_reducible apply Touches1.mk

theorem execPmkEnd_touches {M : Nat} {s0 : State} (core : Nat) (s : State) (hM : Sub 2203351779588 M) (hT : Touches M s0 s)
  : TouchesO M s0 (execPmkEnd core s) := by
  unfold execPmkEnd
  try dsimp only
  repeat' first
    | with_reducible assumption
    | (with_reducible refine Sub.trans ?_ hM) <;> exact Sub.lit rfl
    | with_reducible apply State.retire_touches
    | with_reducible apply State.began_touches
    | with_reducible apply State.issueHead_touches
    | with_reducible apply State.endSegment_touches
    | with_reducible apply TouchesO.next
    | (with_reducible intro _; try dsimp only)
    | split
    | with_reducible apply Touches1.mk

theorem execArrLoadDone_touches {M : Nat} {s0 : State} (core : Nat) (s : State) (hM : Sub 2203351779588 M) (hT : Touches M
  s0 s) : TouchesO M s0 (execArrLoadDone core s) := by
  unfold execArrLoadDone
  try dsimp only
  repeat' first
    | with_reducible assumption
    | (with_reducible refine Sub.trans ?_ hM) <;> exact Sub.lit rfl
    | with_reducible apply State.count_touches
    | with_reducible apply State.arrDone_touches
    | with_reducible apply TouchesO.next
    | (with_reducible intro _; try dsimp only)
    | split
    | with_reducible apply Touches1.mk

theorem execQueueEnable_touches {M : Nat} {s0 : State} (pf : Bool) (index : Nat) (stream : Bool) (s : State) (hM : Sub
  252527404 M) (hT : Touches M s0 s) : TouchesO M s0 (execQueueEnable pf index stream s) := by
  unfold execQueueEnable
  try dsimp only
  repeat' first
    | with_reducible assumption
    | (with_reducible refine Sub.trans ?_ hM) <;> exact Sub.lit rfl
    | with_reducible apply State.qOp_touches
    | with_reducible apply State.barAnswer_touches
    | with_reducible apply TouchesO.next
    | (with_reducible intro _; try dsimp only)
    | split
    | with_reducible apply Touches1.mk

theorem execPldmUnsupported_touches {M : Nat} {s0 : State} (inst type cmd : Nat) (s : State) (hM : Sub 16777216 M) (hT :
  Touches M s0 s) : TouchesO M s0 (execPldmUnsupported inst type cmd s) := by
  unfold execPldmUnsupported
  try dsimp only
  repeat' first
    | with_reducible assumption
    | (with_reducible refine Sub.trans ?_ hM) <;> exact Sub.lit rfl
    | with_reducible apply State.pldm_touches
    | with_reducible apply TouchesO.next
    | (with_reducible intro _; try dsimp only)
    | split
    | with_reducible apply Touches1.mk

theorem execStreamHeadWrite_touches {M : Nat} {s0 : State} (fn page offset size value : Nat) (s : State) (hM : Sub
  251658284 M) (hT : Touches M s0 s) : TouchesO M s0 (execStreamHeadWrite fn page offset size value s) := by
  unfold execStreamHeadWrite
  try dsimp only
  repeat' first
    | with_reducible assumption
    | (with_reducible refine Sub.trans ?_ hM) <;> exact Sub.lit rfl
    | with_reducible apply State.unsupportedRequest_touches
    | with_reducible apply State.gateCount_touches
    | with_reducible apply State.streamHeadWrite_touches
    | with_reducible apply State.count_touches
    | with_reducible apply TouchesO.next
    | (with_reducible intro _; try dsimp only)
    | split
    | with_reducible apply Touches1.mk

theorem execOptUpdate_touches {M : Nat} {s0 : State} (core : Nat) (hw : List Hw) (s : State) (hM : Sub 18014536988623148 M)
  (hT : Touches M s0 s) : TouchesO M s0 (execOptUpdate core hw s) := by
  unfold execOptUpdate
  try dsimp only
  repeat' first
    | with_reducible assumption
    | (with_reducible refine Sub.trans ?_ hM) <;> exact Sub.lit rfl
    | with_reducible apply State.engineRow_touches
    | with_reducible apply State.optRun_touches
    | with_reducible apply TouchesO.next
    | (with_reducible intro _; try dsimp only)
    | split
    | with_reducible apply Touches1.mk

theorem execOptNorm_touches {M : Nat} {s0 : State} (core : Nat) (hw : List Hw) (s : State) (hM : Sub 18014536988623148 M)
  (hT : Touches M s0 s) : TouchesO M s0 (execOptNorm core hw s) := by
  unfold execOptNorm
  try dsimp only
  repeat' first
    | with_reducible assumption
    | (with_reducible refine Sub.trans ?_ hM) <;> exact Sub.lit rfl
    | with_reducible apply State.engineRow_touches
    | with_reducible apply State.optRun_touches
    | with_reducible apply TouchesO.next
    | (with_reducible intro _; try dsimp only)
    | split
    | with_reducible apply Touches1.mk

theorem execMsgRdRsp_touches {M : Nat} {s0 : State} (i : Nat) (s : State) (hM : Sub 145766928613380 M) (hT : Touches M s0
  s) : TouchesO M s0 (execMsgRdRsp i s) := by
  unfold execMsgRdRsp
  try dsimp only
  repeat' first
    | with_reducible assumption
    | (with_reducible refine Sub.trans ?_ hM) <;> exact Sub.lit rfl
    | with_reducible apply State.onResponse_touches
    | with_reducible apply State.onMsg_touches
    | with_reducible apply State.reqData_touches
    | with_reducible apply TouchesO.next
    | (with_reducible intro _; try dsimp only)
    | split
    | with_reducible apply Touches1.mk

theorem execLayerRelease_touches {M : Nat} {s0 : State} (core : Nat) (s : State) (hM : Sub 3298534883332 M) (hT : Touches M
  s0 s) : TouchesO M s0 (execLayerRelease core s) := by
  unfold execLayerRelease
  try dsimp only
  repeat' first
    | with_reducible assumption
    | (with_reducible refine Sub.trans ?_ hM) <;> exact Sub.lit rfl
    | with_reducible apply State.setMinReleased_touches
    | with_reducible apply State.modFeed_touches
    | with_reducible apply State.setFences_touches
    | with_reducible apply TouchesO.next
    | (with_reducible intro _; try dsimp only)
    | split
    | with_reducible apply Touches1.mk

theorem execBootPhaseTimeout_touches {M : Nat} {s0 : State} (s : State) (hM : Sub 1134906965437185838 M) (hT : Touches M s0
  s) : TouchesO M s0 (execBootPhaseTimeout s) := by
  unfold execBootPhaseTimeout
  try dsimp only
  repeat' first
    | with_reducible assumption
    | (with_reducible refine Sub.trans ?_ hM) <;> exact Sub.lit rfl
    | with_reducible apply State.setDtime_touches
    | with_reducible apply State.bootFail_touches
    | with_reducible apply State.endPhase_touches
    | with_reducible apply TouchesO.next
    | (with_reducible intro _; try dsimp only)
    | split
    | with_reducible apply Touches1.mk

theorem execMctpControlMessage_touches {M : Nat} {s0 : State} (inst cmd op eid : Nat) (s : State) (hM : Sub
  4503599644147712 M) (hT : Touches M s0 s) : TouchesO M s0 (execMctpControlMessage inst cmd op eid s) := by
  unfold execMctpControlMessage
  try dsimp only
  repeat' first
    | with_reducible assumption
    | (with_reducible refine Sub.trans ?_ hM) <;> exact Sub.lit rfl
    | with_reducible apply State.mctpControl_touches
    | with_reducible apply State.setReferee_touches
    | with_reducible apply TouchesO.next
    | (with_reducible intro _; try dsimp only)
    | split
    | with_reducible apply Touches1.mk

theorem execEntryGrant_touches {M : Nat} {s0 : State} (queue : Nat) (s : State) (hM : Sub 738590339151777596 M) (hT :
  Touches M s0 s) : TouchesO M s0 (execEntryGrant queue s) := by
  unfold execEntryGrant
  try dsimp only
  repeat' first
    | with_reducible assumption
    | (with_reducible refine Sub.trans ?_ hM) <;> exact Sub.lit rfl
    | with_reducible apply State.ownershipEvent_touches
    | with_reducible apply State.failEntry_touches
    | with_reducible apply State.entryDone_touches
    | with_reducible apply State.entryRow_touches
    | with_reducible apply State.setOwners_touches
    | with_reducible apply TouchesO.next
    | (with_reducible intro _; try dsimp only)
    | split
    | with_reducible apply Touches1.mk

theorem execTraceForce_touches {M : Nat} {s0 : State} (p : Nat) (s : State) (hM : Sub 281475228368940 M) (hT : Touches M s0
  s) : TouchesO M s0 (execTraceForce p s) := by
  unfold execTraceForce
  try dsimp only
  repeat' first
    | with_reducible assumption
    | (with_reducible refine Sub.trans ?_ hM) <;> exact Sub.lit rfl
    | with_reducible apply State.barAnswer_touches
    | with_reducible apply State.traceTrigger_touches
    | with_reducible apply TouchesO.next
    | (with_reducible intro _; try dsimp only)
    | split
    | with_reducible apply Touches1.mk

theorem execEthRingTail_touches {M : Nat} {s0 : State} (pf : Bool) (port ring tail : Nat) (s : State) (hM : Sub 4345298948
  M) (hT : Touches M s0 s) : TouchesO M s0 (execEthRingTail pf port ring tail s) := by
  unfold execEthRingTail
  try dsimp only
  repeat' first
    | with_reducible assumption
    | (with_reducible refine Sub.trans ?_ hM) <;> exact Sub.lit rfl
    | with_reducible apply State.barAnswer_touches
    | with_reducible apply State.ethTail_touches
    | with_reducible apply TouchesO.next
    | (with_reducible intro _; try dsimp only)
    | split
    | with_reducible apply Touches1.mk

theorem execSyncSignal_touches {M : Nat} {s0 : State} (i : Nat) (s : State) (hM : Sub 576460752555150124 M) (hT : Touches M
  s0 s) : TouchesO M s0 (execSyncSignal i s) := by
  unfold execSyncSignal
  try dsimp only
  repeat' first
    | with_reducible assumption
    | (with_reducible refine Sub.trans ?_ hM) <;> exact Sub.lit rfl
    | with_reducible apply State.signalArrives_touches
    | with_reducible apply TouchesO.next
    | (with_reducible intro _; try dsimp only)
    | split
    | with_reducible apply Touches1.mk

theorem execArrFill_touches {M : Nat} {s0 : State} (core : Nat) (hw : List Hw) (s : State) (hM : Sub 503316780 M) (hT :
  Touches M s0 s) : TouchesO M s0 (execArrFill core hw s) := by
  unfold execArrFill
  try dsimp only
  repeat' first
    | with_reducible assumption
    | (with_reducible refine Sub.trans ?_ hM) <;> exact Sub.lit rfl
    | with_reducible apply State.arrFillRun_touches
    | with_reducible apply State.arrRowOp_touches
    | with_reducible apply TouchesO.next
    | (with_reducible intro _; try dsimp only)
    | split
    | with_reducible apply Touches1.mk

theorem execMgnReplan_touches {M : Nat} {s0 : State} (s : State) (hM : Sub 9007199305072644 M) (hT : Touches M s0 s) :
  TouchesO M s0 (execMgnReplan s) := by
  unfold execMgnReplan
  try dsimp only
  repeat' first
    | with_reducible assumption
    | (with_reducible refine Sub.trans ?_ hM) <;> exact Sub.lit rfl
    | with_reducible apply State.requestPlan_touches
    | with_reducible apply State.barAnswer_touches
    | with_reducible apply TouchesO.next
    | (with_reducible intro _; try dsimp only)
    | split
    | with_reducible apply Touches1.mk

theorem execSynSetState_touches {M : Nat} {s0 : State} (pf : Bool) (object : Nat) (s : State) (hM : Sub 576460752555148076
  M) (hT : Touches M s0 s) : TouchesO M s0 (execSynSetState pf object s) := by
  unfold execSynSetState
  try dsimp only
  repeat' first
    | with_reducible assumption
    | (with_reducible refine Sub.trans ?_ hM) <;> exact Sub.lit rfl
    | with_reducible apply State.barAnswer_touches
    | with_reducible apply State.manual_touches
    | with_reducible apply TouchesO.next
    | (with_reducible intro _; try dsimp only)
    | split
    | with_reducible apply Touches1.mk

theorem execCompletionPostResume_touches {M : Nat} {s0 : State} (stream : Nat) (s : State) (hM : Sub 144115188329627964 M)
  (hT : Touches M s0 s) : TouchesO M s0 (execCompletionPostResume stream s) := by
  unfold execCompletionPostResume
  try dsimp only
  repeat' first
    | with_reducible assumption
    | (with_reducible refine Sub.trans ?_ hM) <;> exact Sub.lit rfl
    | with_reducible apply State.resumeStream_touches
    | with_reducible apply TouchesO.next
    | (with_reducible intro _; try dsimp only)
    | split
    | with_reducible apply Touches1.mk

theorem execGetSensorReading_touches {M : Nat} {s0 : State} (inst sensor : Nat) (s : State) (hM : Sub 16777216 M) (hT :
  Touches M s0 s) : TouchesO M s0 (execGetSensorReading inst sensor s) := by
  unfold execGetSensorReading
  try dsimp only
  repeat' first
    | with_reducible assumption
    | (with_reducible refine Sub.trans ?_ hM) <;> exact Sub.lit rfl
    | with_reducible apply State.pldm_touches
    | with_reducible apply TouchesO.next
    | (with_reducible intro _; try dsimp only)
    | split
    | with_reducible apply Touches1.mk

theorem execMsgObjRdReq_touches {M : Nat} {s0 : State} (i : Nat) (s : State) (hM : Sub 145766928613380 M) (hT : Touches M
  s0 s) : TouchesO M s0 (execMsgObjRdReq i s) := by
  unfold execMsgObjRdReq
  try dsimp only
  repeat' first
    | with_reducible assumption
    | (with_reducible refine Sub.trans ?_ hM) <;> exact Sub.lit rfl
    | with_reducible apply State.remoteObject_touches
    | with_reducible apply State.onMsg_touches
    | with_reducible apply State.heldHere_touches
    | (with_reducible apply TouchesQ.elim; with_reducible assumption)
    | with_reducible apply TouchesO.next
    | (with_reducible intro _; try dsimp only)
    | split
    | with_reducible apply Touches1.mk

theorem execPerstRelease_touches {M : Nat} {s0 : State} (s : State) (hM : Sub 4503599627370496 M) (hT : Touches M s0 s) :
  TouchesO M s0 (execPerstRelease s) := by
  unfold execPerstRelease
  try dsimp only
  repeat' first
    | with_reducible assumption
    | (with_reducible refine Sub.trans ?_ hM) <;> exact Sub.lit rfl
    | with_reducible apply State.setReferee_touches
    | with_reducible apply TouchesO.next
    | (with_reducible intro _; try dsimp only)
    | split
    | with_reducible apply Touches1.mk

theorem execDmaPause_touches {M : Nat} {s0 : State} (channel : Nat) (s : State) (hM : Sub 549806145540 M) (hT : Touches M
  s0 s) : TouchesO M s0 (execDmaPause channel s) := by
  unfold execDmaPause
  try dsimp only
  repeat' first
    | with_reducible assumption
    | (with_reducible refine Sub.trans ?_ hM) <;> exact Sub.lit rfl
    | with_reducible apply State.pauseChan_touches
    | with_reducible apply State.barAnswer_touches
    | with_reducible apply TouchesO.next
    | (with_reducible intro _; try dsimp only)
    | split
    | with_reducible apply Touches1.mk

theorem execThermalTrip_touches {M : Nat} {s0 : State} (sensor : Nat) (reading : Int) (s : State) (hM : Sub
  1134906965437185836 M) (hT : Touches M s0 s) : TouchesO M s0 (execThermalTrip sensor reading s) := by
  unfold execThermalTrip
  try dsimp only
  repeat' first
    | with_reducible assumption
    | (with_reducible refine Sub.trans ?_ hM) <;> exact Sub.lit rfl
    | with_reducible apply State.tripped_touches
    | with_reducible apply TouchesO.next
    | (with_reducible intro _; try dsimp only)
    | split
    | with_reducible apply Touches1.mk

theorem execRedEntryDone_touches {M : Nat} {s0 : State} (p : Nat) (s : State) (hM : Sub 87965996943660 M) (hT : Touches M
  s0 s) : TouchesO M s0 (execRedEntryDone p s) := by
  unfold execRedEntryDone
  try dsimp only
  repeat' first
    | with_reducible assumption
    | (with_reducible refine Sub.trans ?_ hM) <;> exact Sub.lit rfl
    | with_reducible apply State.dropRed_touches
    | with_reducible apply State.redFinish_touches
    | with_reducible apply State.redDeliver_touches
    | with_reducible apply Touches1.fst
    | with_reducible apply TouchesO.next
    | (with_reducible intro _; try dsimp only)
    | split
    | with_reducible apply Touches1.mk

theorem execImageBegin_touches {M : Nat} {s0 : State} (path : ReqPath) (s : State) (hM : Sub 148618787753558020 M) (hT :
  Touches M s0 s) : TouchesO M s0 (execImageBegin path s) := by
  unfold execImageBegin
  try dsimp only
  repeat' first
    | with_reducible assumption
    | (with_reducible refine Sub.trans ?_ hM) <;> exact Sub.lit rfl
    | with_reducible apply State.reqReply_touches
    | with_reducible apply State.serve_touches
    | with_reducible apply State.setReferee_touches
    | with_reducible apply TouchesO.next
    | (with_reducible intro _; try dsimp only)
    | split
    | with_reducible apply Touches1.mk

theorem execLnkRequestTimeout_touches {M : Nat} {s0 : State} (tag : Nat) (s : State) (hM : Sub 145754043711490 M) (hT :
  Touches M s0 s) : TouchesO M s0 (execLnkRequestTimeout tag s) := by
  unfold execLnkRequestTimeout
  try dsimp only
  repeat' first
    | with_reducible assumption
    | (with_reducible refine Sub.trans ?_ hM) <;> exact Sub.lit rfl
    | with_reducible apply State.setDtime_touches
    | with_reducible apply State.raise_touches
    | with_reducible apply State.failReq_touches
    | with_reducible apply TouchesO.next
    | (with_reducible intro _; try dsimp only)
    | split
    | with_reducible apply Touches1.mk

theorem execMsixHoldoffExpiry_touches {M : Nat} {s0 : State} (ring : Bool) (n : Nat) (s : State) (hM : Sub
  144115188092682242 M) (hT : Touches M s0 s) : TouchesO M s0 (execMsixHoldoffExpiry ring n s) := by
  unfold execMsixHoldoffExpiry
  try dsimp only
  repeat' first
    | with_reducible assumption
    | (with_reducible refine Sub.trans ?_ hM) <;> exact Sub.lit rfl
    | with_reducible apply State.streamMessage_touches
    | with_reducible apply State.setDtime_touches
    | with_reducible apply State.sendMsix_touches
    | with_reducible apply State.modRing_touches
    | with_reducible apply TouchesO.next
    | (with_reducible intro _; try dsimp only)
    | split
    | with_reducible apply Touches1.mk

theorem execEntrySignal_touches {M : Nat} {s0 : State} (queue : Nat) (s : State) (hM : Sub 738590343438356284 M) (hT :
  Touches M s0 s) : TouchesO M s0 (execEntrySignal queue s) := by
  unfold execEntrySignal
  try dsimp only
  repeat' first
    | with_reducible assumption
    | (with_reducible refine Sub.trans ?_ hM) <;> exact Sub.lit rfl
    | with_reducible apply State.performSignal_touches
    | with_reducible apply State.entryDone_touches
    | with_reducible apply State.entryRow_touches
    | with_reducible apply TouchesO.next
    | (with_reducible intro _; try dsimp only)
    | split
    | with_reducible apply Touches1.mk

theorem execSbkSpill_touches {M : Nat} {s0 : State} (core : Nat) (hw : List Hw) (s : State) (hM : Sub 503316780 M) (hT :
  Touches M s0 s) : TouchesO M s0 (execSbkSpill core hw s) := by
  unfold execSbkSpill
  try dsimp only
  repeat' first
    | with_reducible assumption
    | (with_reducible refine Sub.trans ?_ hM) <;> exact Sub.lit rfl
    | with_reducible apply State.engineRow_touches
    | with_reducible apply State.sbkSpillRun_touches
    | with_reducible apply TouchesO.next
    | (with_reducible intro _; try dsimp only)
    | split
    | with_reducible apply Touches1.mk

theorem execSyncBroadcast_touches {M : Nat} {s0 : State} (i : Nat) (s : State) (hM : Sub 576460752555150124 M) (hT :
  Touches M s0 s) : TouchesO M s0 (execSyncBroadcast i s) := by
  unfold execSyncBroadcast
  try dsimp only
  repeat' first
    | with_reducible assumption
    | (with_reducible refine Sub.trans ?_ hM) <;> exact Sub.lit rfl
    | with_reducible apply State.signalArrives_touches
    | with_reducible apply TouchesO.next
    | (with_reducible intro _; try dsimp only)
    | split
    | with_reducible apply Touches1.mk

theorem execArrSwap_touches {M : Nat} {s0 : State} (core : Nat) (hw : List Hw) (s : State) (hM : Sub 503316780 M) (hT :
  Touches M s0 s) : TouchesO M s0 (execArrSwap core hw s) := by
  unfold execArrSwap
  try dsimp only
  repeat' first
    | with_reducible assumption
    | (with_reducible refine Sub.trans ?_ hM) <;> exact Sub.lit rfl
    | with_reducible apply State.arrSwapRun_touches
    | with_reducible apply State.arrRowOp_touches
    | with_reducible apply TouchesO.next
    | (with_reducible intro _; try dsimp only)
    | split
    | with_reducible apply Touches1.mk

theorem execHeartbeatTimer_touches {M : Nat} {s0 : State} (s : State) (hM : Sub 4328521728 M) (hT : Touches M s0 s) :
  TouchesO M s0 (execHeartbeatTimer s) := by
  unfold execHeartbeatTimer
  try dsimp only
  repeat' first
    | with_reducible assumption
    | (with_reducible refine Sub.trans ?_ hM) <;> exact Sub.lit rfl
    | with_reducible apply State.sendMgt_touches
    | with_reducible apply State.sendJoin_touches
    | with_reducible apply TouchesO.next
    | with_reducible apply Touches.foldl
    | with_reducible apply Touches1.foldl
    | with_reducible apply Touches1.fst
    | (with_reducible intro _; try dsimp only)
    | split
    | with_reducible apply Touches1.mk

theorem execRegisterWrite_touches {M : Nat} {s0 : State} (who : Master) (off size value : Nat) (s : State) (hM : Sub
  1152921365020409790 M) (hT : Touches M s0 s) : TouchesO M s0 (execRegisterWrite who off size value s) := by
  unfold execRegisterWrite
  try dsimp only
  repeat' first
    | with_reducible assumption
    | (with_reducible refine Sub.trans ?_ hM) <;> exact Sub.lit rfl
    | with_reducible apply State.wideWrite_touches
    | with_reducible apply TouchesO.next
    | (with_reducible intro _; try dsimp only)
    | split
    | with_reducible apply Touches1.mk

theorem execGetPldmTypes_touches {M : Nat} {s0 : State} (inst : Nat) (s : State) (hM : Sub 16777216 M) (hT : Touches M s0
  s) : TouchesO M s0 (execGetPldmTypes inst s) := by
  unfold execGetPldmTypes
  try dsimp only
  repeat' first
    | with_reducible assumption
    | (with_reducible refine Sub.trans ?_ hM) <;> exact Sub.lit rfl
    | with_reducible apply State.pldm_touches
    | with_reducible apply TouchesO.next
    | (with_reducible intro _; try dsimp only)
    | split
    | with_reducible apply Touches1.mk

theorem execSyncWaitTimeout_touches {M : Nat} {s0 : State} (object place : Nat) (s : State) (hM : Sub 576460752555148078 M)
  (hT : Touches M s0 s) : TouchesO M s0 (execSyncWaitTimeout object place s) := by
  unfold execSyncWaitTimeout
  try dsimp only
  repeat' first
    | with_reducible assumption
    | (with_reducible refine Sub.trans ?_ hM) <;> exact Sub.lit rfl
    | with_reducible apply State.abandon_touches
    | with_reducible apply TouchesO.next
    | (with_reducible intro _; try dsimp only)
    | split
    | with_reducible apply Touches1.mk

theorem execPfFlr_touches {M : Nat} {s0 : State} (fails : List (Nat × Nat)) (s : State) (hM : Sub 1023328186676499388 M)
  (hT : Touches M s0 s) : TouchesO M s0 (execPfFlr fails s) := by
  unfold execPfFlr
  try dsimp only
  repeat' first
    | with_reducible assumption
    | (with_reducible refine Sub.trans ?_ hM) <;> exact Sub.lit rfl
    | with_reducible apply State.resetFunction_touches
    | with_reducible apply State.pfReset_touches
    | with_reducible apply TouchesO.next
    | with_reducible apply Touches.foldl
    | with_reducible apply Touches1.foldl
    | with_reducible apply Touches1.fst
    | (with_reducible intro _; try dsimp only)
    | split
    | with_reducible apply Touches1.mk

theorem execRecoveryStepDone_touches {M : Nat} {s0 : State} (object : Nat) (s : State) (hM : Sub 6534020989188 M) (hT :
  Touches M s0 s) : TouchesO M s0 (execRecoveryStepDone object s) := by
  unfold execRecoveryStepDone
  try dsimp only
  repeat' first
    | with_reducible assumption
    | (with_reducible refine Sub.trans ?_ hM) <;> exact Sub.lit rfl
    | with_reducible apply State.nextStep_touches
    | with_reducible apply State.refuseAccess_touches
    | with_reducible apply State.tryUnits_touches
    | with_reducible apply State.recoveryFailed_touches
    | with_reducible apply State.askNext_touches
    | with_reducible apply State.recoverySucceeded_touches
    | with_reducible apply TouchesO.next
    | (with_reducible intro _; try dsimp only)
    | split
    | with_reducible apply Touches1.mk

theorem execFlitReceive_touches {M : Nat} {s0 : State} (port flit : Nat) (errs : List (Nat × Nat)) (s : State) (hM : Sub
  12918456324 M) (hT : Touches M s0 s) : TouchesO M s0 (execFlitReceive port flit errs s) := by
  unfold execFlitReceive
  try dsimp only
  repeat' first
    | with_reducible assumption
    | (with_reducible refine Sub.trans ?_ hM) <;> exact Sub.lit rfl
    | with_reducible apply State.modPort_touches
    | with_reducible apply State.nakReceived_touches
    | with_reducible apply State.msgsIn_touches
    | with_reducible apply State.count_touches
    | with_reducible apply TouchesO.next
    | (with_reducible intro _; try dsimp only)
    | split
    | with_reducible apply Touches1.mk

theorem execMsgWrMasked_touches {M : Nat} {s0 : State} (i : Nat) (s : State) (hM : Sub 145767398375468 M) (hT : Touches M
  s0 s) : TouchesO M s0 (execMsgWrMasked i s) := by
  unfold execMsgWrMasked
  try dsimp only
  repeat' first
    | with_reducible assumption
    | (with_reducible refine Sub.trans ?_ hM) <;> exact Sub.lit rfl
    | with_reducible apply State.remoteMasked_touches
    | with_reducible apply State.onMsg_touches
    | with_reducible apply TouchesO.next
    | (with_reducible intro _; try dsimp only)
    | split
    | with_reducible apply Touches1.mk

theorem execDmaPauseDrained_touches {M : Nat} {s0 : State} (channel : Nat) (s : State) (hM : Sub 6760696712790316 M) (hT :
  Touches M s0 s) : TouchesO M s0 (execDmaPauseDrained channel s) := by
  unfold execDmaPauseDrained
  try dsimp only
  repeat' first
    | with_reducible assumption
    | (with_reducible refine Sub.trans ?_ hM) <;> exact Sub.lit rfl
    | with_reducible apply State.setPositions_touches
    | with_reducible apply State.runXfer_touches
    | with_reducible apply State.unpauseChan_touches
    | with_reducible apply State.setChanState_touches
    | with_reducible apply TouchesO.next
    | (with_reducible intro _; try dsimp only)
    | split
    | with_reducible apply Touches1.mk

theorem execPowerSample_touches {M : Nat} {s0 : State} (input package vin iin : Nat) (s : State) (hM : Sub
  1134906965437185836 M) (hT : Touches M s0 s) : TouchesO M s0 (execPowerSample input package vin iin s) := by
  unfold execPowerSample
  try dsimp only
  repeat' first
    | with_reducible assumption
    | (with_reducible refine Sub.trans ?_ hM) <;> exact Sub.lit rfl
    | with_reducible apply State.alert_touches
    | with_reducible apply State.wr_touches
    | with_reducible apply State.enterDugout_touches
    | with_reducible apply State.divide_touches
    | with_reducible apply State.setPower_touches
    | with_reducible apply TouchesO.next
    | (with_reducible intro _; try dsimp only)
    | split
    | with_reducible apply Touches1.mk

theorem execRegionSeal_touches {M : Nat} {s0 : State} (pf : Bool) (region : Nat) (s : State) (hM : Sub 318767108 M) (hT :
  Touches M s0 s) : TouchesO M s0 (execRegionSeal pf region s) := by
  unfold execRegionSeal
  try dsimp only
  repeat' first
    | with_reducible assumption
    | (with_reducible refine Sub.trans ?_ hM) <;> exact Sub.lit rfl
    | with_reducible apply State.barAnswer_touches
    | with_reducible apply State.regionOp_touches
    | with_reducible apply TouchesO.next
    | (with_reducible intro _; try dsimp only)
    | split
    | with_reducible apply Touches1.mk

theorem execRefereePowerGood_touches {M : Nat} {s0 : State} (slot : Nat) (low : Bool) (s : State) (hM : Sub
  4503599627370498 M) (hT : Touches M s0 s) : TouchesO M s0 (execRefereePowerGood slot low s) := by
  unfold execRefereePowerGood
  try dsimp only
  repeat' first
    | with_reducible assumption
    | (with_reducible refine Sub.trans ?_ hM) <;> exact Sub.lit rfl
    | with_reducible apply State.setDtime_touches
    | with_reducible apply State.setReferee_touches
    | with_reducible apply TouchesO.next
    | (with_reducible intro _; try dsimp only)
    | split
    | with_reducible apply Touches1.mk

theorem execPatrolScrub_touches {M : Nat} {s0 : State} (lines : List (Nat × List (Nat × Nat))) (s : State) (hM : Sub
  167772204 M) (hT : Touches M s0 s) : TouchesO M s0 (execPatrolScrub lines s) := by
  unfold execPatrolScrub
  try dsimp only
  repeat' first
    | with_reducible assumption
    | (with_reducible refine Sub.trans ?_ hM) <;> exact Sub.lit rfl
    | with_reducible apply State.lineError_touches
    | with_reducible apply TouchesO.next
    | with_reducible apply Touches.foldl
    | with_reducible apply Touches1.foldl
    | with_reducible apply Touches1.fst
    | (with_reducible intro _; try dsimp only)
    | split
    | with_reducible apply Touches1.mk

theorem execAttest_touches {M : Nat} {s0 : State} (path : ReqPath) (s : State) (hM : Sub 148618787753558020 M) (hT :
  Touches M s0 s) : TouchesO M s0 (execAttest path s) := by
  unfold execAttest
  try dsimp only
  repeat' first
    | with_reducible assumption
    | (with_reducible refine Sub.trans ?_ hM) <;> exact Sub.lit rfl
    | with_reducible apply State.reqReply_touches
    | with_reducible apply State.serve_touches
    | with_reducible apply State.setReferee_touches
    | with_reducible apply TouchesO.next
    | (with_reducible intro _; try dsimp only)
    | split
    | with_reducible apply Touches1.mk

theorem execPmkResume_touches {M : Nat} {s0 : State} (core : Nat) (s : State) (hM : Sub 50331908 M) (hT : Touches M s0 s) :
  TouchesO M s0 (execPmkResume core s) := by
  unfold execPmkResume
  try dsimp only
  repeat' first
    | with_reducible assumption
    | (with_reducible refine Sub.trans ?_ hM) <;> exact Sub.lit rfl
    | with_reducible apply State.resumeCore_touches
    | with_reducible apply State.barAnswer_touches
    | with_reducible apply TouchesO.next
    | (with_reducible intro _; try dsimp only)
    | split
    | with_reducible apply Touches1.mk

theorem execRailsOff_touches {M : Nat} {s0 : State} (path : ReqPath) (s : State) (hM : Sub 1134906965437185836 M) (hT :
  Touches M s0 s) : TouchesO M s0 (execRailsOff path s) := by
  unfold execRailsOff
  try dsimp only
  repeat' first
    | with_reducible assumption
    | (with_reducible refine Sub.trans ?_ hM) <;> exact Sub.lit rfl
    | with_reducible apply State.reqReply_touches
    | with_reducible apply State.serve_touches
    | with_reducible apply State.enterDugout_touches
    | with_reducible apply TouchesO.next
    | (with_reducible intro _; try dsimp only)
    | split
    | with_reducible apply Touches1.mk

theorem execChipChannelEntry_touches {M : Nat} {s0 : State} (channel : Nat) (hw : List Hw) (n : Nat) (s : State) (hM : Sub
  583221586472013612 M) (hT : Touches M s0 s) : TouchesO M s0 (execChipChannelEntry channel hw n s) := by
  unfold execChipChannelEntry
  try dsimp only
  repeat' first
    | with_reducible assumption
    | (with_reducible refine Sub.trans ?_ hM) <;> exact Sub.lit rfl
    | with_reducible apply State.setHeads_touches
    | with_reducible apply State.takeEntry_touches
    | with_reducible apply State.runXfer_touches
    | with_reducible apply State.failXfer_touches
    | with_reducible apply TouchesO.next
    | (with_reducible intro _; try dsimp only)
    | split
    | with_reducible apply Touches1.mk

theorem execRedEntry_touches {M : Nat} {s0 : State} (p : Nat) (s : State) (hM : Sub 576583902152429356 M) (hT : Touches M
  s0 s) : TouchesO M s0 (execRedEntry p s) := by
  unfold execRedEntry
  try dsimp only
  repeat' first
    | with_reducible assumption
    | (with_reducible refine Sub.trans ?_ hM) <;> exact Sub.lit rfl
    | with_reducible apply State.redTake_touches
    | with_reducible apply State.redEntryFail_touches
    | with_reducible apply State.setHeadWait_touches
    | with_reducible apply State.redStart_touches
    | with_reducible apply TouchesO.next
    | (with_reducible intro _; try dsimp only)
    | split
    | with_reducible apply Touches1.mk

theorem execWatchdogExpiry_touches {M : Nat} {s0 : State} (s : State) (hM : Sub 1134906965437185836 M) (hT : Touches M s0
  s) : TouchesO M s0 (execWatchdogExpiry s) := by
  unfold execWatchdogExpiry
  try dsimp only
  repeat' first
    | with_reducible assumption
    | (with_reducible refine Sub.trans ?_ hM) <;> exact Sub.lit rfl
    | with_reducible apply State.enterDugout_touches
    | with_reducible apply State.fullReset_touches
    | with_reducible apply State.setReferee_touches
    | with_reducible apply TouchesO.next
    | (with_reducible intro _; try dsimp only)
    | split
    | with_reducible apply Touches1.mk

theorem execSynSetCount_touches {M : Nat} {s0 : State} (pf : Bool) (object : Nat) (s : State) (hM : Sub 576460752555148076
  M) (hT : Touches M s0 s) : TouchesO M s0 (execSynSetCount pf object s) := by
  unfold execSynSetCount
  try dsimp only
  repeat' first
    | with_reducible assumption
    | (with_reducible refine Sub.trans ?_ hM) <;> exact Sub.lit rfl
    | with_reducible apply State.barAnswer_touches
    | with_reducible apply State.manual_touches
    | with_reducible apply TouchesO.next
    | (with_reducible intro _; try dsimp only)
    | split
    | with_reducible apply Touches1.mk

theorem execCaddieLayerStart_touches {M : Nat} {s0 : State} (feed : Nat) (s : State) (hM : Sub 1787209711916 M) (hT :
  Touches M s0 s) : TouchesO M s0 (execCaddieLayerStart feed s) := by
  unfold execCaddieLayerStart
  try dsimp only
  repeat' first
    | with_reducible assumption
    | (with_reducible refine Sub.trans ?_ hM) <;> exact Sub.lit rfl
    | with_reducible apply State.startPieces_touches
    | with_reducible apply State.wr_touches
    | with_reducible apply State.modFeed_touches
    | with_reducible apply State.holdFeed_touches
    | with_reducible apply State.count_touches
    | with_reducible apply State.addStarve_touches
    | with_reducible apply TouchesO.next
    | (with_reducible intro _; try dsimp only)
    | split
    | with_reducible apply Touches1.mk

theorem execCnvCorr_touches {M : Nat} {s0 : State} (core : Nat) (hw : List Hw) (s : State) (hM : Sub 138479141164 M) (hT :
  Touches M s0 s) : TouchesO M s0 (execCnvCorr core hw s) := by
  unfold execCnvCorr
  try dsimp only
  repeat' first
    | with_reducible assumption
    | (with_reducible refine Sub.trans ?_ hM) <;> exact Sub.lit rfl
    | with_reducible apply State.engineRow_touches
    | with_reducible apply State.cnvRun_touches
    | with_reducible apply TouchesO.next
    | (with_reducible intro _; try dsimp only)
    | split
    | with_reducible apply Touches1.mk

theorem execReplanDone_touches {M : Nat} {s0 : State} (plan : PlanInput) (s : State) (hM : Sub 13510798915665924 M) (hT :
  Touches M s0 s) : TouchesO M s0 (execReplanDone plan s) := by
  unfold execReplanDone
  try dsimp only
  repeat' first
    | with_reducible assumption
    | (with_reducible refine Sub.trans ?_ hM) <;> exact Sub.lit rfl
    | with_reducible apply State.requestPlan_touches
    | with_reducible apply State.wr_touches
    | with_reducible apply State.applyPlan_touches
    | with_reducible apply State.setPower_touches
    | with_reducible apply TouchesO.next
    | (with_reducible intro _; try dsimp only)
    | split
    | with_reducible apply Touches1.mk

theorem execCnvMatmul_touches {M : Nat} {s0 : State} (core : Nat) (hw : List Hw) (s : State) (hM : Sub 138479141164 M) (hT
  : Touches M s0 s) : TouchesO M s0 (execCnvMatmul core hw s) := by
  unfold execCnvMatmul
  try dsimp only
  repeat' first
    | with_reducible assumption
    | (with_reducible refine Sub.trans ?_ hM) <;> exact Sub.lit rfl
    | with_reducible apply State.engineRow_touches
    | with_reducible apply State.cnvRun_touches
    | with_reducible apply TouchesO.next
    | (with_reducible intro _; try dsimp only)
    | split
    | with_reducible apply Touches1.mk

theorem execSynInit_touches {M : Nat} {s0 : State} (pf : Bool) (object : Nat) (s : State) (hM : Sub 576460752555148076 M)
  (hT : Touches M s0 s) : TouchesO M s0 (execSynInit pf object s) := by
  unfold execSynInit
  try dsimp only
  repeat' first
    | with_reducible assumption
    | (with_reducible refine Sub.trans ?_ hM) <;> exact Sub.lit rfl
    | with_reducible apply State.barAnswer_touches
    | with_reducible apply State.manual_touches
    | with_reducible apply TouchesO.next
    | (with_reducible intro _; try dsimp only)
    | split
    | with_reducible apply Touches1.mk

theorem execMapOutTakeEffect_touches {M : Nat} {s0 : State} (tier die : Nat) (s : State) (hM : Sub 167772172 M) (hT :
  Touches M s0 s) : TouchesO M s0 (execMapOutTakeEffect tier die s) := by
  unfold execMapOutTakeEffect
  try dsimp only
  repeat' first
    | with_reducible assumption
    | (with_reducible refine Sub.trans ?_ hM) <;> exact Sub.lit rfl
    | with_reducible apply State.setT1Map_touches
    | with_reducible apply State.setT2Map_touches
    | with_reducible apply State.wr_touches
    | with_reducible apply State.mappedOut_touches
    | with_reducible apply TouchesO.next
    | (with_reducible intro _; try dsimp only)
    | split
    | with_reducible apply Touches1.mk

theorem execGovernorPassDecide_touches {M : Nat} {s0 : State} (p : Nat) (s : State) (hM : Sub 158329909281068 M) (hT :
  Touches M s0 s) : TouchesO M s0 (execGovernorPassDecide p s) := by
  unfold execGovernorPassDecide
  try dsimp only
  repeat' first
    | with_reducible assumption
    | (with_reducible refine Sub.trans ?_ hM) <;> exact Sub.lit rfl
    | with_reducible apply State.stopJob_touches
    | with_reducible apply State.dropRed_touches
    | with_reducible apply State.decidePass_touches
    | with_reducible apply State.wr_touches
    | with_reducible apply State.modJob_touches
    | with_reducible apply State.raise_touches
    | with_reducible apply TouchesO.next
    | (with_reducible intro _; try dsimp only)
    | split
    | with_reducible apply Touches1.mk

theorem execPortBringupDone_touches {M : Nat} {s0 : State} (port : Nat) (failed : Option Nat) (lanes : Nat) (s : State) (hM
  : Sub 4328521732 M) (hT : Touches M s0 s) : TouchesO M s0 (execPortBringupDone port failed lanes s) := by
  unfold execPortBringupDone
  try dsimp only
  repeat' first
    | with_reducible assumption
    | (with_reducible refine Sub.trans ?_ hM) <;> exact Sub.lit rfl
    | with_reducible apply State.modPort_touches
    | with_reducible apply State.setStep_touches
    | with_reducible apply State.wr_touches
    | with_reducible apply State.bringupFailed_touches
    | with_reducible apply State.raise_touches
    | with_reducible apply TouchesO.next
    | (with_reducible intro _; try dsimp only)
    | split
    | with_reducible apply Touches1.mk

theorem execPortEnable_touches {M : Nat} {s0 : State} (pf : Bool) (port value : Nat) (s : State) (hM : Sub 145758355456004
  M) (hT : Touches M s0 s) : TouchesO M s0 (execPortEnable pf port value s) := by
  unfold execPortEnable
  try dsimp only
  repeat' first
    | with_reducible assumption
    | (with_reducible refine Sub.trans ?_ hM) <;> exact Sub.lit rfl
    | with_reducible apply State.portCtrlWrite_touches
    | with_reducible apply State.barAnswer_touches
    | with_reducible apply TouchesO.next
    | (with_reducible intro _; try dsimp only)
    | split
    | with_reducible apply Touches1.mk

theorem execEntrySegment_touches {M : Nat} {s0 : State} (queue : Nat) (s : State) (hM : Sub 738590339143401276 M) (hT :
  Touches M s0 s) : TouchesO M s0 (execEntrySegment queue s) := by
  unfold execEntrySegment
  try dsimp only
  repeat' first
    | with_reducible assumption
    | (with_reducible refine Sub.trans ?_ hM) <;> exact Sub.lit rfl
    | with_reducible apply State.entryTaken_touches
    | with_reducible apply State.setDispatch_touches
    | with_reducible apply State.setSegOrder_touches
    | with_reducible apply State.entryRow_touches
    | with_reducible apply TouchesO.next
    | (with_reducible intro _; try dsimp only)
    | split
    | with_reducible apply Touches1.mk

theorem execVecEw_touches {M : Nat} {s0 : State} (core : Nat) (hw : List Hw) (s : State) (hM : Sub 138479141164 M) (hT :
  Touches M s0 s) : TouchesO M s0 (execVecEw core hw s) := by
  unfold execVecEw
  try dsimp only
  repeat' first
    | with_reducible assumption
    | (with_reducible refine Sub.trans ?_ hM) <;> exact Sub.lit rfl
    | with_reducible apply State.engineRow_touches
    | with_reducible apply State.vecRun_touches
    | with_reducible apply TouchesO.next
    | (with_reducible intro _; try dsimp only)
    | split
    | with_reducible apply Touches1.mk

theorem execSbkClear_touches {M : Nat} {s0 : State} (core : Nat) (hw : List Hw) (s : State) (hM : Sub 503316780 M) (hT :
  Touches M s0 s) : TouchesO M s0 (execSbkClear core hw s) := by
  unfold execSbkClear
  try dsimp only
  repeat' first
    | with_reducible assumption
    | (with_reducible refine Sub.trans ?_ hM) <;> exact Sub.lit rfl
    | with_reducible apply State.engineRow_touches
    | with_reducible apply State.sbkClearRun_touches
    | with_reducible apply TouchesO.next
    | (with_reducible intro _; try dsimp only)
    | split
    | with_reducible apply Touches1.mk

theorem execGetTid_touches {M : Nat} {s0 : State} (inst : Nat) (s : State) (hM : Sub 16777216 M) (hT : Touches M s0 s) :
  TouchesO M s0 (execGetTid inst s) := by
  unfold execGetTid
  try dsimp only
  repeat' first
    | with_reducible assumption
    | (with_reducible refine Sub.trans ?_ hM) <;> exact Sub.lit rfl
    | with_reducible apply State.pldm_touches
    | with_reducible apply TouchesO.next
    | (with_reducible intro _; try dsimp only)
    | split
    | with_reducible apply Touches1.mk

theorem execPortDown_touches {M : Nat} {s0 : State} (port step : Nat) (s : State) (hM : Sub 145758338678788 M) (hT :
  Touches M s0 s) : TouchesO M s0 (execPortDown port step s) := by
  unfold execPortDown
  try dsimp only
  repeat' first
    | with_reducible assumption
    | (with_reducible refine Sub.trans ?_ hM) <;> exact Sub.lit rfl
    | with_reducible apply State.portDown_touches
    | with_reducible apply TouchesO.next
    | (with_reducible intro _; try dsimp only)
    | split
    | with_reducible apply Touches1.mk

theorem execBar0BlockTimeout_touches {M : Nat} {s0 : State} (who : Master) (off size : Nat) (write : Bool) (s : State) (hM
  : Sub 4503599677702148 M) (hT : Touches M s0 s) : TouchesO M s0 (execBar0BlockTimeout who off size write s) := by
  unfold execBar0BlockTimeout
  try dsimp only
  repeat' first
    | with_reducible assumption
    | (with_reducible refine Sub.trans ?_ hM) <;> exact Sub.lit rfl
    | with_reducible apply State.reply_touches
    | with_reducible apply State.gateCount_touches
    | with_reducible apply State.wedge_touches
    | with_reducible apply State.count_touches
    | with_reducible apply TouchesO.next
    | with_reducible apply Touches.ifSome
    | with_reducible apply Touches1.ifSome
    | with_reducible apply TouchesL.ifSome
    | with_reducible apply TouchesP.ifSome
    | with_reducible apply TouchesO.ifSome
    | (with_reducible intro _; try dsimp only)
    | split
    | with_reducible apply Touches1.mk

theorem execHartSignal_touches {M : Nat} {s0 : State} (hart chip object : Nat) (s : State) (hM : Sub 4345300996 M) (hT :
  Touches M s0 s) : TouchesO M s0 (execHartSignal hart chip object s) := by
  unfold execHartSignal
  try dsimp only
  repeat' first
    | with_reducible assumption
    | (with_reducible refine Sub.trans ?_ hM) <;> exact Sub.lit rfl
    | with_reducible apply State.hartSignal_touches
    | with_reducible apply State.barAnswer_touches
    | with_reducible apply TouchesO.next
    | (with_reducible intro _; try dsimp only)
    | split
    | with_reducible apply Touches1.mk

theorem execOutMatstream_touches {M : Nat} {s0 : State} (core : Nat) (hw : List Hw) (s : State) (hM : Sub 503316780 M) (hT
  : Touches M s0 s) : TouchesO M s0 (execOutMatstream core hw s) := by
  unfold execOutMatstream
  try dsimp only
  repeat' first
    | with_reducible assumption
    | (with_reducible refine Sub.trans ?_ hM) <;> exact Sub.lit rfl
    | with_reducible apply State.engineRow_touches
    | with_reducible apply State.outRun_touches
    | with_reducible apply TouchesO.next
    | (with_reducible intro _; try dsimp only)
    | split
    | with_reducible apply Touches1.mk

theorem execCheckpointDrainDone_touches {M : Nat} {s0 : State} (p : Nat) (s : State) (hM : Sub 140807315128324 M) (hT :
  Touches M s0 s) : TouchesO M s0 (execCheckpointDrainDone p s) := by
  unfold execCheckpointDrainDone
  try dsimp only
  repeat' first
    | with_reducible assumption
    | (with_reducible refine Sub.trans ?_ hM) <;> exact Sub.lit rfl
    | with_reducible apply State.countChan_touches
    | with_reducible apply State.dropCkptObject_touches
    | with_reducible apply State.ckptFail_touches
    | with_reducible apply State.wr_touches
    | with_reducible apply State.modJob_touches
    | with_reducible apply State.raise_touches
    | with_reducible apply State.setReqs_touches
    | with_reducible apply State.raiseFaults_touches
    | with_reducible apply State.closeObject_touches
    | with_reducible apply State.deleteObject_touches
    | with_reducible apply TouchesO.next
    | with_reducible apply Touches.foldl
    | with_reducible apply Touches1.foldl
    | with_reducible apply Touches1.fst
    | (with_reducible intro _; try dsimp only)
    | split
    | with_reducible apply Touches1.mk

theorem execHartBroadcast_touches {M : Nat} {s0 : State} (hart chip object : Nat) (s : State) (hM : Sub 4345300996 M) (hT :
  Touches M s0 s) : TouchesO M s0 (execHartBroadcast hart chip object s) := by
  unfold execHartBroadcast
  try dsimp only
  repeat' first
    | with_reducible assumption
    | (with_reducible refine Sub.trans ?_ hM) <;> exact Sub.lit rfl
    | with_reducible apply State.hartSignal_touches
    | with_reducible apply State.barAnswer_touches
    | with_reducible apply TouchesO.next
    | (with_reducible intro _; try dsimp only)
    | split
    | with_reducible apply Touches1.mk

theorem execArrLoad_touches {M : Nat} {s0 : State} (core : Nat) (hw : List Hw) (s : State) (hM : Sub 503316780 M) (hT :
  Touches M s0 s) : TouchesO M s0 (execArrLoad core hw s) := by
  unfold execArrLoad
  try dsimp only
  repeat' first
    | with_reducible assumption
    | (with_reducible refine Sub.trans ?_ hM) <;> exact Sub.lit rfl
    | with_reducible apply State.arrLoadRun_touches
    | with_reducible apply State.arrRowOp_touches
    | with_reducible apply TouchesO.next
    | (with_reducible intro _; try dsimp only)
    | split
    | with_reducible apply Touches1.mk

theorem execWindowWrite_touches {M : Nat} {s0 : State} (fn addr n value : Nat) (s : State) (hM : Sub 520093740 M) (hT :
  Touches M s0 s) : TouchesO M s0 (execWindowWrite fn addr n value s) := by
  unfold execWindowWrite
  try dsimp only
  repeat' first
    | with_reducible assumption
    | (with_reducible refine Sub.trans ?_ hM) <;> exact Sub.lit rfl
    | with_reducible apply State.unsupportedRequest_touches
    | with_reducible apply State.ownershipEvent_touches
    | with_reducible apply State.gateCount_touches
    | with_reducible apply State.storeNat_touches
    | with_reducible apply State.refuseWindow_touches
    | with_reducible apply State.cacheWrites_touches
    | with_reducible apply TouchesO.next
    | (with_reducible intro _; try dsimp only)
    | split
    | with_reducible apply Touches1.mk

theorem execInputPowerLoss_touches {M : Nat} {s0 : State} (s : State) (hM : Sub 1134906965420408622 M) (hT : Touches M s0
  s) : TouchesO M s0 (execInputPowerLoss s) := by
  unfold execInputPowerLoss
  try dsimp only
  repeat' first
    | with_reducible assumption
    | (with_reducible refine Sub.trans ?_ hM) <;> exact Sub.lit rfl
    | with_reducible apply State.setEvents_touches
    | with_reducible apply State.wr_touches
    | with_reducible apply State.setDtime_touches
    | with_reducible apply State.bare_touches
    | with_reducible apply State.setReferee_touches
    | with_reducible apply TouchesO.next
    | (with_reducible intro _; try dsimp only)
    | split
    | with_reducible apply Touches1.mk

theorem execFlrDrainTimeout_touches {M : Nat} {s0 : State} (p : Nat) (s : State) (hM : Sub 735097810519544764 M) (hT :
  Touches M s0 s) : TouchesO M s0 (execFlrDrainTimeout p s) := by
  unfold execFlrDrainTimeout
  try dsimp only
  repeat' first
    | with_reducible assumption
    | (with_reducible refine Sub.trans ?_ hM) <;> exact Sub.lit rfl
    | with_reducible apply State.finishEnd_touches
    | with_reducible apply State.raise_touches
    | with_reducible apply State.resetChip_touches
    | with_reducible apply TouchesO.next
    | with_reducible apply Touches.foldl
    | with_reducible apply Touches1.foldl
    | with_reducible apply Touches1.fst
    | (with_reducible intro _; try dsimp only)
    | split
    | with_reducible apply Touches1.mk

theorem execHartWait_touches {M : Nat} {s0 : State} (hart object timeout cookie : Nat) (s : State) (hM : Sub
  576460752555151148 M) (hT : Touches M s0 s) : TouchesO M s0 (execHartWait hart object timeout cookie s) := by
  unfold execHartWait
  try dsimp only
  repeat' first
    | with_reducible assumption
    | (with_reducible refine Sub.trans ?_ hM) <;> exact Sub.lit rfl
    | with_reducible apply State.hartWait_touches
    | with_reducible apply State.barAnswer_touches
    | with_reducible apply TouchesO.next
    | (with_reducible intro _; try dsimp only)
    | split
    | with_reducible apply Touches1.mk

theorem execSetNumericEffecterValue_touches {M : Nat} {s0 : State} (inst effecter value : Nat) (s : State) (hM : Sub
  16777220 M) (hT : Touches M s0 s) : TouchesO M s0 (execSetNumericEffecterValue inst effecter value s) := by
  unfold execSetNumericEffecterValue
  try dsimp only
  repeat' first
    | with_reducible assumption
    | (with_reducible refine Sub.trans ?_ hM) <;> exact Sub.lit rfl
    | with_reducible apply State.wr_touches
    | with_reducible apply State.pldm_touches
    | with_reducible apply TouchesO.next
    | (with_reducible intro _; try dsimp only)
    | split
    | with_reducible apply Touches1.mk

theorem execSegmentComplete_touches {M : Nat} {s0 : State} (core : Nat) (s : State) (hM : Sub 144115188329627964 M) (hT :
  Touches M s0 s) : TouchesO M s0 (execSegmentComplete core s) := by
  unfold execSegmentComplete
  try dsimp only
  repeat' first
    | with_reducible assumption
    | (with_reducible refine Sub.trans ?_ hM) <;> exact Sub.lit rfl
    | with_reducible apply State.postCompletion_touches
    | with_reducible apply State.seqUp_touches
    | with_reducible apply State.segmentReported_touches
    | with_reducible apply TouchesO.next
    | (with_reducible intro _; try dsimp only)
    | split
    | with_reducible apply Touches1.mk

theorem execMsgCredit_touches {M : Nat} {s0 : State} (i : Nat) (s : State) (hM : Sub 12884901888 M) (hT : Touches M s0 s) :
  TouchesO M s0 (execMsgCredit i s) := by
  unfold execMsgCredit
  try dsimp only
  repeat' first
    | with_reducible assumption
    | (with_reducible refine Sub.trans ?_ hM) <;> exact Sub.lit rfl
    | with_reducible apply State.modPort_touches
    | with_reducible apply State.freeMsg_touches
    | with_reducible apply TouchesO.next
    | (with_reducible intro _; try dsimp only)
    | split
    | with_reducible apply Touches1.mk

theorem execGetPldmCommands_touches {M : Nat} {s0 : State} (inst type : Nat) (s : State) (hM : Sub 16777216 M) (hT :
  Touches M s0 s) : TouchesO M s0 (execGetPldmCommands inst type s) := by
  unfold execGetPldmCommands
  try dsimp only
  repeat' first
    | with_reducible assumption
    | (with_reducible refine Sub.trans ?_ hM) <;> exact Sub.lit rfl
    | with_reducible apply State.pldm_touches
    | with_reducible apply TouchesO.next
    | with_reducible apply Touches.foldl
    | with_reducible apply Touches1.foldl
    | with_reducible apply Touches1.fst
    | (with_reducible intro _; try dsimp only)
    | split
    | with_reducible apply Touches1.mk

theorem execProvision_touches {M : Nat} {s0 : State} (path : ReqPath) (ok : Bool) (s : State) (hM : Sub 148618787753558020
  M) (hT : Touches M s0 s) : TouchesO M s0 (execProvision path ok s) := by
  unfold execProvision
  try dsimp only
  repeat' first
    | with_reducible assumption
    | (with_reducible refine Sub.trans ?_ hM) <;> exact Sub.lit rfl
    | with_reducible apply State.reqReply_touches
    | with_reducible apply State.reqStateFail_touches
    | with_reducible apply State.serve_touches
    | with_reducible apply State.burnField_touches
    | with_reducible apply State.reqFail_touches
    | with_reducible apply State.fuseFail_touches
    | with_reducible apply TouchesO.next
    | (with_reducible intro _; try dsimp only)
    | split
    | with_reducible apply Touches1.mk

theorem execBootAreaWriteDone_touches {M : Nat} {s0 : State} (ok : Bool) (s : State) (hM : Sub 1134906965437185836 M) (hT :
  Touches M s0 s) : TouchesO M s0 (execBootAreaWriteDone ok s) := by
  unfold execBootAreaWriteDone
  try dsimp only
  repeat' first
    | with_reducible assumption
    | (with_reducible refine Sub.trans ?_ hM) <;> exact Sub.lit rfl
    | with_reducible apply State.reqReply_touches
    | with_reducible apply State.imageInvalid_touches
    | with_reducible apply State.fullReset_touches
    | with_reducible apply State.setReferee_touches
    | with_reducible apply TouchesO.next
    | (with_reducible intro _; try dsimp only)
    | split
    | with_reducible apply Touches1.mk

theorem execLfence_touches {M : Nat} {s0 : State} (core : Nat) (s : State) (hM : Sub 3302863407364 M) (hT : Touches M s0 s)
  : TouchesO M s0 (execLfence core s) := by
  unfold execLfence
  try dsimp only
  repeat' first
    | with_reducible assumption
    | (with_reducible refine Sub.trans ?_ hM) <;> exact Sub.lit rfl
    | with_reducible apply State.issueFence_touches
    | with_reducible apply State.raiseCore_touches
    | with_reducible apply State.failHead_touches
    | with_reducible apply TouchesO.next
    | (with_reducible intro _; try dsimp only)
    | split
    | with_reducible apply Touches1.mk

theorem exec_touches {M : Nat} {s0 : State} (i : Instr) (s : State) (hM : Sub 1152921504606846974 M) (hT : Touches M s0 s)
  : TouchesO M s0 (exec i s) := by
  unfold exec
  try dsimp only
  repeat' first
    | with_reducible assumption
    | (with_reducible refine Sub.trans ?_ hM) <;> exact Sub.lit rfl
    | with_reducible apply execEntryInvalid_touches
    | with_reducible apply execQueueRestart_touches
    | with_reducible apply execGetPldmVersion_touches
    | with_reducible apply execGovernorPassStart_touches
    | with_reducible apply execOptConstants_touches
    | with_reducible apply execQueueDisable_touches
    | with_reducible apply execInputPowerUp_touches
    | with_reducible apply execCablePowerFault_touches
    | with_reducible apply execPartitionEnd_touches
    | with_reducible apply execTransferComplete_touches
    | with_reducible apply execMsgErrRsp_touches
    | with_reducible apply execMsgTime_touches
    | with_reducible apply execPfence_touches
    | with_reducible apply execPrivilegedRead_touches
    | with_reducible apply execSbkDrain_touches
    | with_reducible apply execStepEnd_touches
    | with_reducible apply execClockPointStepDone_touches
    | with_reducible apply execRefRailsOff_touches
    | with_reducible apply execMbxMsgWrite_touches
    | with_reducible apply execMatstream_touches
    | with_reducible apply execMbxAck_touches
    | with_reducible apply execPortRetryTimer_touches
    | with_reducible apply execGetStateSensorReadings_touches
    | with_reducible apply execDrainComplete_touches
    | with_reducible apply execCheckpointCaptureStart_touches
    | with_reducible apply execImageEnd_touches
    | with_reducible apply execTraceEnable_touches
    | with_reducible apply execMsgWrAck_touches
    | with_reducible apply execRead_touches
    | with_reducible apply execPartitionLoad_touches
    | with_reducible apply execTraceDisable_touches
    | with_reducible apply execPerstAssert_touches
    | with_reducible apply execRailFault_touches
    | with_reducible apply execLnkIdentLock_touches
    | with_reducible apply execArbitrationDecided_touches
    | with_reducible apply execMsgHello_touches
    | with_reducible apply execRegionCreate_touches
    | with_reducible apply execMsgWr_touches
    | with_reducible apply execArrFillDone_touches
    | with_reducible apply execUncorrectableControlState_touches
    | with_reducible apply execStaBind_touches
    | with_reducible apply execRefereeSramError_touches
    | with_reducible apply execDmaGather_touches
    | with_reducible apply execPldmEventRetry_touches
    | with_reducible apply execDevicePowerStateWrite_touches
    | with_reducible apply execQueueDoorbell_touches
    | with_reducible apply execEntryClaim_touches
    | with_reducible apply execStatus_touches
    | with_reducible apply execMsgSignal_touches
    | with_reducible apply execMsgJoin_touches
    | with_reducible apply execFetchResponse_touches
    | with_reducible apply execChipChannelDoorbell_touches
    | with_reducible apply execDmaXfer_touches
    | with_reducible apply execCadSupplyGo_touches
    | with_reducible apply execPcieUnsupportedRequest_touches
    | with_reducible apply execMsgView_touches
    | with_reducible apply execMsgRedPart_touches
    | with_reducible apply execReset_touches
    | with_reducible apply execFingerprintRound_touches
    | with_reducible apply execFingerprintResult_touches
    | with_reducible apply execHartCancel_touches
    | with_reducible apply execChipChannelEntryDone_touches
    | with_reducible apply execRetrainTimeout_touches
    | with_reducible apply execDmaAbort_touches
    | with_reducible apply execOutBind_touches
    | with_reducible apply execCnvProj_touches
    | with_reducible apply execSpdmRequest_touches
    | with_reducible apply execEthTransmitDone_touches
    | with_reducible apply execPartitionSuspended_touches
    | with_reducible apply execCaddiePieceDone_touches
    | with_reducible apply execSynCheck_touches
    | with_reducible apply execMarginMonitorTick_touches
    | with_reducible apply execRecoveryDeadline_touches
    | with_reducible apply execPmkJump_touches
    | with_reducible apply execAccessErrorRead_touches
    | with_reducible apply execMbxDeniedRead_touches
    | with_reducible apply execPmkNop_touches
    | with_reducible apply execGetPdr_touches
    | with_reducible apply execSegmentArrive_touches
    | with_reducible apply execTimeSyncTimer_touches
    | with_reducible apply execAtsInvalidation_touches
    | with_reducible apply execInvalidCommand_touches
    | with_reducible apply execVfFlr_touches
    | with_reducible apply execGetNumericEffecterValue_touches
    | with_reducible apply execPartitionSuspend_touches
    | with_reducible apply execDoeDiscovery_touches
    | with_reducible apply execOptNormReduceStart_touches
    | with_reducible apply execRedDoorbell_touches
    | with_reducible apply execStepEndRetire_touches
    | with_reducible apply execReductionTimeout_touches
    | with_reducible apply execWindowEntryWrite_touches
    | with_reducible apply execT3Relocate_touches
    | with_reducible apply execHostFlagWrite_touches
    | with_reducible apply execMsgRdReq_touches
    | with_reducible apply execImageData_touches
    | with_reducible apply execPartitionRun_touches
    | with_reducible apply execRefFullReset_touches
    | with_reducible apply execMsgRedResult_touches
    | with_reducible apply execReplanInterval_touches
    | with_reducible apply execPowerControlTick_touches
    | with_reducible apply execDmaResume_touches
    | with_reducible apply execGetPdrRepositoryInfo_touches
    | with_reducible apply execMsgHeartbeat_touches
    | with_reducible apply execTraceBufferFull_touches
    | with_reducible apply execRegionFree_touches
    | with_reducible apply execDynamicAddressAssignment_touches
    | with_reducible apply execEthFrameReceive_touches
    | with_reducible apply execEntryNop_touches
    | with_reducible apply execVecReduce_touches
    | with_reducible apply execPeerLostTimeout_touches
    | with_reducible apply execRedRestart_touches
    | with_reducible apply execPwrcapInput_touches
    | with_reducible apply execSvnCommit_touches
    | with_reducible apply execAutoRestart_touches
    | with_reducible apply execT3Patrol_touches
    | with_reducible apply execCheckpointCaptureEnd_touches
    | with_reducible apply execSynRelease_touches
    | with_reducible apply execSynWaitersRead_touches
    | with_reducible apply execCommandRetire_touches
    | with_reducible apply execSyncWait_touches
    | with_reducible apply execRedGroupWrite_touches
    | with_reducible apply execServiceCoreMemoryAccess_touches
    | with_reducible apply execBootPhaseDone_touches
    | with_reducible apply execPartitionDestroy_touches
    | with_reducible apply execSetEventReceiver_touches
    | with_reducible apply execUmpInjectChecksum_touches
    | with_reducible apply execWindowRead_touches
    | with_reducible apply execQuotaLock_touches
    | with_reducible apply execDmiOperation_touches
    | with_reducible apply execSetTid_touches
    | with_reducible apply execWatchArm_touches
    | with_reducible apply execSbkRestore_touches
    | with_reducible apply execThermalTick_touches
    | with_reducible apply execEntrySeqCancel_touches
    | with_reducible apply execOptEnable_touches
    | with_reducible apply execAckTimer_touches
    | with_reducible apply execPmkEnd_touches
    | with_reducible apply execArrLoadDone_touches
    | with_reducible apply execCadSupplyDecline_touches
    | with_reducible apply execQueueEnable_touches
    | with_reducible apply execCadFeedEnable_touches
    | with_reducible apply execPldmUnsupported_touches
    | with_reducible apply execStreamHeadWrite_touches
    | with_reducible apply execOptUpdate_touches
    | with_reducible apply execOptNorm_touches
    | with_reducible apply execMbxGo_touches
    | with_reducible apply execMsgRdRsp_touches
    | with_reducible apply execLayerRelease_touches
    | with_reducible apply execTracePoolWrite_touches
    | with_reducible apply execBootPhaseTimeout_touches
    | with_reducible apply execPgvEnable_touches
    | with_reducible apply execUmpInjectArray_touches
    | with_reducible apply execMctpControlMessage_touches
    | with_reducible apply execEntryGrant_touches
    | with_reducible apply execTraceForce_touches
    | with_reducible apply execEthRingTail_touches
    | with_reducible apply execSyncSignal_touches
    | with_reducible apply execArrFill_touches
    | with_reducible apply execMgnReplan_touches
    | with_reducible apply execSynSetState_touches
    | with_reducible apply execCompletionPostResume_touches
    | with_reducible apply execGetSensorReading_touches
    | with_reducible apply execMsgObjRdReq_touches
    | with_reducible apply execPerstRelease_touches
    | with_reducible apply execDmaPause_touches
    | with_reducible apply execThermalTrip_touches
    | with_reducible apply execRedEntryDone_touches
    | with_reducible apply execTimeAdjWrite_touches
    | with_reducible apply execImageBegin_touches
    | with_reducible apply execLnkRequestTimeout_touches
    | with_reducible apply execPartitionResume_touches
    | with_reducible apply execMsixHoldoffExpiry_touches
    | with_reducible apply execEntrySignal_touches
    | with_reducible apply execSbkSpill_touches
    | with_reducible apply execSyncBroadcast_touches
    | with_reducible apply execArrSwap_touches
    | with_reducible apply execHeartbeatTimer_touches
    | with_reducible apply execRegisterWrite_touches
    | with_reducible apply execGetPldmTypes_touches
    | with_reducible apply execSyncWaitTimeout_touches
    | with_reducible apply execFlashChannelFail_touches
    | with_reducible apply execPfFlr_touches
    | with_reducible apply execRecoveryStepDone_touches
    | with_reducible apply execFlitReceive_touches
    | with_reducible apply execMsgWrMasked_touches
    | with_reducible apply execDmaPauseDrained_touches
    | with_reducible apply execPowerSample_touches
    | with_reducible apply execRegionSeal_touches
    | with_reducible apply execRefereePowerGood_touches
    | with_reducible apply execPatrolScrub_touches
    | with_reducible apply execCkptRequest_touches
    | with_reducible apply execAttest_touches
    | with_reducible apply execPmkResume_touches
    | with_reducible apply execRailsOff_touches
    | with_reducible apply execChipChannelEntry_touches
    | with_reducible apply execRedEntry_touches
    | with_reducible apply execWatchdogExpiry_touches
    | with_reducible apply execSynSetCount_touches
    | with_reducible apply execCaddieLayerStart_touches
    | with_reducible apply execCnvCorr_touches
    | with_reducible apply execReplanDone_touches
    | with_reducible apply execCnvMatmul_touches
    | with_reducible apply execSynInit_touches
    | with_reducible apply execMapOutTakeEffect_touches
    | with_reducible apply execGovernorPassDecide_touches
    | with_reducible apply execPortBringupDone_touches
    | with_reducible apply execDmaRestart_touches
    | with_reducible apply execPartitionRestart_touches
    | with_reducible apply execPortEnable_touches
    | with_reducible apply execEntrySegment_touches
    | with_reducible apply execVecEw_touches
    | with_reducible apply execSbkClear_touches
    | with_reducible apply execGetTid_touches
    | with_reducible apply execPortDown_touches
    | with_reducible apply execPartitionCreate_touches
    | with_reducible apply execBar0BlockTimeout_touches
    | with_reducible apply execHartSignal_touches
    | with_reducible apply execOutMatstream_touches
    | with_reducible apply execCheckpointDrainDone_touches
    | with_reducible apply execHartBroadcast_touches
    | with_reducible apply execArrLoad_touches
    | with_reducible apply execEventRingWrite_touches
    | with_reducible apply execWindowWrite_touches
    | with_reducible apply execInputPowerLoss_touches
    | with_reducible apply execFlrDrainTimeout_touches
    | with_reducible apply execHartWait_touches
    | with_reducible apply execSetNumericEffecterValue_touches
    | with_reducible apply execPmkHalt_touches
    | with_reducible apply execSegmentComplete_touches
    | with_reducible apply execMsgCredit_touches
    | with_reducible apply execGetPldmCommands_touches
    | with_reducible apply execProvision_touches
    | with_reducible apply execBootAreaWriteDone_touches
    | with_reducible apply execLfence_touches
    | with_reducible apply TouchesO.next
    | (with_reducible intro _; try dsimp only)
    | split
    | with_reducible apply Touches1.mk

theorem step_touches {M : Nat} {s0 : State} (s : State) (hM : Sub 1152921504606846975 M) (hT : Touches M s0 s) : TouchesO M
  s0 (step s) := by
  unfold step
  try dsimp only
  repeat' first
    | with_reducible assumption
    | (with_reducible refine Sub.trans ?_ hM) <;> exact Sub.lit rfl
    | with_reducible apply exec_touches
    | with_reducible apply State.tick_touches
    | with_reducible apply Touches.set_pending
    | with_reducible apply TouchesO.next
    | (with_reducible intro _; try dsimp only)
    | split
    | with_reducible apply Touches1.mk

end Sys2Proof.Machine
end

