-- ==== Sys2Proof/WellFormed.lean ====
section
/-!
DEFINITION. Well-formed commands: each operand that names a part of the block names one that there is. The meanings are total: a
command that is not well formed is answered too, and changes no part that is not there.
-/
namespace Sys2Proof

/-- The partition of a fingerprint round. -/
def FpRound.partition : FpRound → Nat
  | .copy p => p
  | .owner p _ => p

/-- Is the sender of an access to register space one that there is? -/
def Master.wf : Master → Bool
  | .pf => true
  | .vf p => decide (p < 16)
  | .referee => true
  | .hart h => decide (h < 32)
  | .agent p => decide (p < 16)

/-- Does a path name a sender, or a function, that there is? -/
def ReadPath.wf : ReadPath → Bool
  | .space who => who.wf
  | .bar4 fn => decide (fn < 17)

/-- Does every operand of a command name a part that the block has? -/
def Instr.wf : Instr → Bool
  | .registerWrite who _ _ _ => who.wf
  | .privilegedRead who _ _ => who.wf
  | .synWaitersRead who byte _ => who.wf && decide (byte < 8)
  | .arrLoad core _ => decide (core < 256)
  | .arrLoadDone core => decide (core < 256)
  | .arrFill core _ => decide (core < 256)
  | .arrFillDone core => decide (core < 256)
  | .arrSwap core _ => decide (core < 256)
  | .matstream core _ => decide (core < 256)
  | .arbitrationDecided core _ _ _ _ _ => decide (core < 256)
  | .sbkClear core _ => decide (core < 256)
  | .sbkDrain core _ => decide (core < 256)
  | .sbkSpill core _ => decide (core < 256)
  | .sbkRestore core _ => decide (core < 256)
  | .cnvMatmul core _ => decide (core < 256)
  | .cnvProj core _ => decide (core < 256)
  | .cnvCorr core _ => decide (core < 256)
  | .outBind core => decide (core < 256)
  | .outMatstream core _ => decide (core < 256)
  | .staBind core => decide (core < 256)
  | .pfence core => decide (core < 256)
  | .stepEnd core => decide (core < 256)
  | .stepEndRetire core => decide (core < 256)
  | .pmkNop core => decide (core < 256)
  | .pmkJump core => decide (core < 256)
  | .pmkEnd core => decide (core < 256)
  | .lfence core => decide (core < 256)
  | .vecEw core _ => decide (core < 256)
  | .vecReduce core _ => decide (core < 256)
  | .optNorm core _ => decide (core < 256)
  | .optUpdate core _ => decide (core < 256)
  | .dmaXfer core channel _ _ => decide (core < 256) && decide (channel < 4)
  | .dmaGather core channel _ => decide (core < 256) && decide (channel < 4)
  | .invalidCommand core => decide (core < 256)
  | .commandRetire core engine => decide (core < 256) && decide (engine < 64)
  | .segmentArrive core => decide (core < 256)
  | .fetchResponse core _ => decide (core < 256)
  | .segmentComplete core => decide (core < 256)
  | .pmkHalt core => decide (core < 256)
  | .pmkResume core => decide (core < 256)
  | .drainComplete core => decide (core < 256)
  | .syncWait core => decide (core < 256)
  | .syncSignal _ => true
  | .syncBroadcast _ => true
  | .syncWaitTimeout object _ => decide (object < 65536)
  | .synInit _ object => decide (object < 65536)
  | .synSetCount _ object => decide (object < 65536)
  | .synSetState _ object => decide (object < 65536)
  | .synCheck _ => true
  | .synRelease _ object => decide (object < 65536)
  | .hartWait hart object timeout cookie => decide (hart < 32) && decide (object < 65536) && decide (timeout < 16) && decide (cookie < 65536)
  | .hartSignal hart chip object => decide (hart < 32) && decide (chip < 65536) && decide (object < 65536)
  | .hartBroadcast hart chip object => decide (hart < 32) && decide (chip < 65536) && decide (object < 65536)
  | .hartCancel hart cookie => decide (hart < 32) && decide (cookie < 65536)
  | .patrolScrub _ => true
  | .mapOutTakeEffect tier die => decide (tier < 3) && decide (die < 8)
  | .regionCreate _ region => decide (region < 256)
  | .regionSeal _ region => decide (region < 256)
  | .regionFree _ region => decide (region < 256)
  | .quotaLock p => decide (p < 16)
  | .t3Patrol _ => true
  | .t3Relocate _ _ => true
  | .flashChannelFail channel => decide (channel < 16)
  | .dmaPause channel => decide (channel < 1088)
  | .dmaPauseDrained channel => decide (channel < 1088)
  | .dmaResume channel => decide (channel < 1088)
  | .dmaAbort channel => decide (channel < 1088)
  | .dmaRestart channel => decide (channel < 1088)
  | .transferComplete channel _ _ => decide (channel < 1088)
  | .chipChannelDoorbell door _ => decide (door.fn < 17)
  | .chipChannelEntry channel _ _ => decide (channel < 64)
  | .chipChannelEntryDone channel => decide (channel < 64)
  | .cadFeedEnable feed => decide (feed < 64)
  | .caddieLayerStart feed => decide (feed < 64)
  | .caddiePieceDone feed _ _ _ => decide (feed < 64)
  | .layerRelease core => decide (core < 256)
  | .recoveryStepDone _ => true
  | .recoveryDeadline _ => true
  | .cadSupplyGo p => decide (p < 16)
  | .cadSupplyDecline p => decide (p < 16)
  | .pcieUnsupportedRequest => true
  | .windowRead fn _ _ => decide (fn < 17)
  | .windowWrite fn _ _ _ => decide (fn < 17)
  | .windowEntryWrite _ e _ => decide (e < 128)
  | .hostFlagWrite fn _ _ => decide (fn < 17)
  | .queueDoorbell fn _ _ _ _ => decide (fn < 17)
  | .streamHeadWrite fn _ _ _ _ => decide (fn < 17)
  | .queueEnable _ _ _ => true
  | .queueDisable _ _ _ => true
  | .queueRestart _ _ _ => true
  | .entrySegment queue => decide (queue < 32768)
  | .entryGrant queue => decide (queue < 32768)
  | .entryClaim queue => decide (queue < 32768)
  | .entrySignal queue => decide (queue < 32768)
  | .entrySeqCancel queue => decide (queue < 32768)
  | .entryNop queue => decide (queue < 32768)
  | .entryInvalid queue => decide (queue < 32768)
  | .completionPostResume stream => decide (stream < 8192)
  | .msixHoldoffExpiry _ _ => true
  | .eventRingWrite _ p _ => decide (p < 17)
  | .partitionCreate _ p => decide (p < 16)
  | .partitionLoad _ p _ _ _ => decide (p < 16)
  | .partitionRun _ p => decide (p < 16)
  | .partitionSuspend _ p => decide (p < 16)
  | .partitionSuspended p => decide (p < 16)
  | .partitionResume _ p => decide (p < 16)
  | .partitionEnd _ p _ => decide (p < 16)
  | .partitionRestart _ p _ _ _ => decide (p < 16)
  | .partitionDestroy _ p => decide (p < 16)
  | .autoRestart p _ _ _ => decide (p < 16)
  | .vfFlr p _ => decide (p < 16)
  | .pfFlr _ => true
  | .flrDrainTimeout p => decide (p < 16)
  | .pgvEnable p => decide (p < 16)
  | .governorPassStart p => decide (p < 16)
  | .governorPassDecide p => decide (p < 16)
  | .optEnable p => decide (p < 16)
  | .optNormReduceStart p => decide (p < 16)
  | .optConstants p => decide (p < 16)
  | .ckptRequest p _ => decide (p < 16)
  | .checkpointCaptureStart p => decide (p < 16)
  | .checkpointCaptureEnd p => decide (p < 16)
  | .checkpointDrainDone p => decide (p < 16)
  | .fingerprintRound round => decide (round.partition < 16)
  | .fingerprintResult p _ _ => decide (p < 16)
  | .umpInjectArray core => decide (core < 256)
  | .umpInjectChecksum core => decide (core < 256)
  | .lnkIdentLock _ => true
  | .portEnable _ port _ => decide (port < 18)
  | .portBringupDone port _ lanes => decide (port < 18) && decide (lanes < 16)
  | .portRetryTimer port => decide (port < 18)
  | .portDown port step => decide (port < 18) && decide (step < 8)
  | .retrainTimeout port => decide (port < 18)
  | .flitReceive port _ _ => decide (port < 18)
  | .ackTimer port => decide (port < 18)
  | .msgCredit _ => true
  | .msgRdReq _ => true
  | .msgWr _ => true
  | .msgWrMasked _ => true
  | .msgObjRdReq _ => true
  | .msgRdRsp _ => true
  | .msgWrAck _ => true
  | .msgErrRsp _ => true
  | .msgSignal _ => true
  | .msgRedPart _ _ => true
  | .msgRedResult _ _ => true
  | .msgHello port chip _ _ _ _ => decide (port < 18) && decide (chip < 65536)
  | .msgHeartbeat _ => true
  | .msgJoin _ => true
  | .msgView _ _ _ => true
  | .msgTime _ _ => true
  | .lnkRequestTimeout _ => true
  | .heartbeatTimer => true
  | .peerLostTimeout chip => decide (chip < 65536)
  | .timeSyncTimer => true
  | .timeAdjWrite _ _ => true
  | .ethFrameReceive port _ _ => decide (port < 18)
  | .ethRingTail _ port ring _ => decide (port < 18) && decide (ring < 16)
  | .ethTransmitDone port ring => decide (port < 18) && decide (ring < 8)
  | .redGroupWrite _ p _ => decide (p < 16)
  | .redRestart _ p => decide (p < 16)
  | .redDoorbell _ p _ => decide (p < 16)
  | .redEntry p => decide (p < 16)
  | .redEntryDone p => decide (p < 16)
  | .reductionTimeout p cls => decide (p < 16) && decide (cls < 3)
  | .refereePowerGood slot _ => decide (slot < 32)
  | .bootPhaseDone _ _ => true
  | .bootPhaseTimeout => true
  | .watchdogExpiry => true
  | .railFault _ => true
  | .refFullReset key => decide (key < 256)
  | .refRailsOff key => decide (key < 256)
  | .perstAssert _ => true
  | .perstRelease => true
  | .bar0BlockTimeout who _ _ _ => who.wf
  | .bootAreaWriteDone _ => true
  | .mbxMsgWrite id c ix _ => decide (id < 32) && decide (c < 32) && decide (ix < 16)
  | .mbxGo id c => decide (id < 32) && decide (c < 32)
  | .mbxAck id c code => decide (id < 32) && decide (c < 32) && decide (code < 65536)
  | .status _ => true
  | .read _ => true
  | .attest _ => true
  | .imageBegin _ => true
  | .imageData _ => true
  | .imageEnd _ => true
  | .reset _ => true
  | .railsOff _ => true
  | .svnCommit _ _ => true
  | .provision _ _ => true
  | .spdmRequest _ _ _ => true
  | .getTid inst => decide (inst < 32)
  | .setTid inst tid => decide (inst < 32) && decide (tid < 256)
  | .getPldmVersion inst _ => decide (inst < 32)
  | .getPldmTypes inst => decide (inst < 32)
  | .getPldmCommands inst _ => decide (inst < 32)
  | .setEventReceiver inst _ _ => decide (inst < 32)
  | .getSensorReading inst sensor => decide (inst < 32) && decide (sensor < 65536)
  | .getStateSensorReadings inst sensor => decide (inst < 32) && decide (sensor < 65536)
  | .setNumericEffecterValue inst effecter _ => decide (inst < 32) && decide (effecter < 65536)
  | .getNumericEffecterValue inst effecter => decide (inst < 32) && decide (effecter < 65536)
  | .getPdrRepositoryInfo inst => decide (inst < 32)
  | .getPdr inst _ => decide (inst < 32)
  | .pldmUnsupported inst _ _ => decide (inst < 32)
  | .pldmEventRetry _ _ => true
  | .powerSample _ _ _ _ => true
  | .powerControlTick => true
  | .pwrcapInput _ => true
  | .clockPointStepDone island => decide (island < 32)
  | .thermalTick _ => true
  | .thermalTrip sensor _ => decide (sensor < 626)
  | .mgnReplan => true
  | .replanInterval => true
  | .replanDone _ => true
  | .marginMonitorTick _ => true
  | .inputPowerUp => true
  | .inputPowerLoss => true
  | .cablePowerFault port => decide (port < 18)
  | .dmiOperation _ _ _ _ => true
  | .tracePoolWrite d _ => decide (d < 8)
  | .traceEnable p _ => decide (p < 16)
  | .traceDisable p _ => decide (p < 16)
  | .traceForce p => decide (p < 16)
  | .traceBufferFull p d => decide (p < 16) && decide (d < 8)
  | .watchArm p n _ => decide (p < 16) && decide (n < 8)
  | .serviceCoreMemoryAccess hart _ _ _ => decide (hart < 32)
  | .accessErrorRead path _ _ => path.wf
  | .mbxDeniedRead id c => decide (id < 32) && decide (c < 32)
  | .uncorrectableControlState _ => true
  | .refereeSramError _ _ => true
  | .mctpControlMessage inst _ _ _ => decide (inst < 32)
  | .dynamicAddressAssignment _ _ _ => true
  | .atsInvalidation _ pasid _ _ => decide (pasid < 1048577)
  | .doeDiscovery _ => true
  | .devicePowerStateWrite fn _ => decide (fn < 17)

end Sys2Proof
end

