-- ==== Sys2Proof/Tests/Slice0.lean ====
section
/-!
SUPPORT. Small tests of the model: an ill-formed term for each check of well-formedness, one step here and there against values
of the spec, and for every statement with hypotheses a concrete state and operands that meet them (a theorem named
witness_<Name>, its parts in the order of the statement's clauses).
-/
namespace Sys2Proof.Tests
open Sys2Proof Sys2Proof.Machine
set_option Elab.async false

/-! ## States -/

/-- A device that has power and is READY, with the chip identifier 3. -/
def base : State := { ((State.reset.wr .refReadyReady 1).wr .refReadyBooting 0).wr .lnkIdentChipId 3 with dtime := 1000000 }

/-- It with one core as given. -/
def onCore (c : Nat) (k : Core) : State := { base with cores := [(c, k)] }

/-- A command in flight in a queue, not begun. -/
def flying (q : Queue) (op cmd : Nat) : Issued :=
  { token := 1, queue := q, opcode := op, index := 0, seg := 0, stream := 0, cmd := cmd, step := 0, regions := [], progress := .waiting,
    next := 0, ovfFirst := 0, ovfCount := 0, infFirst := 0, infCount := 0, outBinds := [], staBinds := [], tx := (1, 0) }

/-- A core with one such command in flight. -/
def coreWith (q : Queue) (op cmd : Nat) : Core := { Core.reset with inflight := [flying q op cmd] }

/-- A command from its fields: (byte, bytes, value). -/
def bytesOf : List (Nat × Nat × Nat) → Nat
  | [] => 0
  | (b, n, v) :: t => v % 256 ^ n * 256 ^ b + bytesOf t

/-- A segment record for core 0 with `n` commands at address 0 of its core store. -/
def seg0 (n : Nat) : SegRec := ⟨coreWindow 0, n, 0, 0, 0, 0, 0, 0, 0, 0, 0⟩

/-- A core that is RUNNING in that segment with the command `w` at its head. -/
def coreAt (n w : Nat) : Core := { Core.reset with part := some 0, pstate := 1, seg := some ⟨0, seg0 n, false, 0⟩, buf := [w] }

/-- A state with bytes in memory: (address, bytes, value). -/
def withMem (s : State) : List (Nat × Nat × Nat) → State
  | [] => s
  | (a, n, v) :: t => withMem { s with mem := Mem.writeBytes s.mem a (bytesOfNat n v) } t

/-- A state with register fields set. -/
def withRegs (s : State) : List (RF × Nat) → State
  | [] => s
  | (f, v) :: t => withRegs (s.wr f v) t

/-- A descriptor of `d1` rows of `d0` elements of a format of `bits` bits, with a scale mode, in the store of core 0 from offset
`o`: its trailer at `o` + 0x1000, its scale array at `o` + 0x2000. -/
def tensor (fmt bits mode o d0 d1 : Nat) : Nat :=
  let st := (bits * d0 / 8 + 15) / 16
  bytesOf [(0, 6, coreWindow 0 + o), (6, 2, 3), (8, 6, if mode = 0 then 0 else coreWindow 0 + o + 0x2000), (14, 6, coreWindow 0 + o + 0x1000),
    (20, 4, 7), (28, 4, st), (32, 4, st * d1), (36, 4, st * d1), (40, 4, st * d1), (44, 3, d0), (47, 3, d1), (50, 3, 1), (53, 3, 1),
    (56, 3, 1), (59, 1, fmt), (60, 1, mode)]

/-- The trailers of its block and of its scale block, as (address, bytes, value). -/
def trailersOf (fmt mode o : Nat) : List (Nat × Nat × Nat) :=
  [(coreWindow 0 + o + 0x1000, 16, bytesOf [(12, 1, fmt), (13, 1, mode)]),
    (coreWindow 0 + o + 0x1010, 16, bytesOf [(12, 1, 0x0B), (13, 1, mode)])]

/-- A device with sync object 65535 as given. -/
def withObj (x : SyncObj) : State := { base with sync := [(65535, x)] }

/-- A waiter of hart 31 with cookie 9, and one of core 1 with a deadline. -/
def hartWaiter : Waiter := ⟨.hart 31 9, 0, none, 1⟩
def coreWaiter : Waiter := ⟨.core 1, 0, some 5000, 2⟩

/-- A signal of the referee for partition 0 to that object. -/
def sig (broadcast : Bool) : Signal := ⟨unitReferee, some 0, 0xFFFF, 65535, broadcast, 0⟩


/-! ## Witnesses -/

theorem witness_StepTakesFrontCommand : ({ base with pending := [.doeDiscovery 0, .pmkNop 0] }).pending = .doeDiscovery 0 :: [.pmkNop 0] := rfl

/-- With power, without it, and at the 5,000th nanosecond of a correction forward and backward. -/
theorem witness_IdleStepLetsTimePass :
    (State.reset.pending = [] ∧ State.reset.referee.power = true ∧ State.reset.posted = []) ∧
    (State.reset.setReferee { Referee.reset with power := false }).referee.power = false ∧
    (let s := State.reset.setFellows { Fellows.reset with slew := 3, slewTicks := 4999 }
     ¬ (s.fellows.slew = 0 ∨ s.fellows.slewTicks + 1 < 5000) ∧ s.fellows.slew > 0) ∧
    (let s := State.reset.setFellows { Fellows.reset with slew := -3, slewTicks := 4999 }
     ¬ (s.fellows.slew = 0 ∨ s.fellows.slewTicks + 1 < 5000) ∧ ¬ s.fellows.slew > 0) := by decide +kernel

/-- An object with COUNT 1, and a signal that reaches it. -/
theorem witness_StepKeepsSyncRule : ∃ s t : State, s.syncRule ∧ step s = .next t ∧ (t.obj 5).count = 2 := by
  refine ⟨{ base with sync := [(5, ⟨1, objActive, 0, 0, 0, []⟩)], signals := [⟨unitReferee, some 0, 0xFFFF, 5, false, 0⟩], pending := [Instr.syncSignal 0] }, _, ?_, rfl, by decide +kernel⟩
  intro o _
  show (Sparse.get SyncObj.reset [(5, _)] o).waiters = []
  unfold Sparse.get
  split
  · rename_i h; revert h; intro h; subst h; rfl
  · rfl

theorem witness_StepKeepsCanonicalForm : ∃ s t : State, s.canonical = true ∧ step s = .next t ∧ t.mem = [(3, 7)] :=
  ⟨{ base with mem := [(3, 7)], pending := [.doeDiscovery 0] }, _, by decide +kernel, rfl, by decide +kernel⟩

theorem witness_CommandsChangeOnlyTheirOwnState : ∃ t, exec (.doeDiscovery 0) base = .next t := ⟨_, rfl⟩

/-- Below the limit, one below it, at it, and with SAT set. -/
theorem witness_CountersSaturate :
    (let s := base.setReg (Reg.refCnt 1) 0xFFFFFFFFFFFD
     (s.reg (Reg.refCnt 1)).field 63 1 = 0 ∧ (s.reg (Reg.refCnt 1)).field 0 48 + 1 < 0xFFFFFFFFFFFF ∧
       0xFFFFFFFFFFFF ≤ (s.reg (Reg.refCnt 1)).field 0 48 + 2) ∧
    ((base.setReg (Reg.refCnt 1) 0x8000FFFFFFFFFFFF).reg (Reg.refCnt 1)).field 63 1 = 1 := by decide +kernel

/-- A whole-register write at p = 15; wrong sizes and alignments; a hart's reads of a register that is not privileged and of one
of core 255; SYN_WAITERS; the first and the last slot of a core and a chip block. -/
theorem witness_RegisterAccessesComplete :
    (base.referee.power = true ∧ base.lowPower.contains 0 = false ∧ base.rdBit .refReadyReady = true ∧
      base.isWedged (Reg.synPartRange 15) = false ∧ base.isWedged Reg.synWaiters = false) ∧
    (base.busAsleep .pf = false ∧ accessOk 3 2 = false ∧ accessOk 4 8 = false ∧ accessOk 0 16 = false) ∧
    (let off := 0x702000
     accessOk off 8 = true ∧ base.isWedged off = false ∧ mbxChannelOf off = none ∧ off / 8 * 8 ≠ Reg.trcDmi ∧ off / 8 * 8 ≠ Reg.synWaiters ∧
       base.mayRead (.hart 0) (Reg.pmkCoreIdent 255) = false ∧ base.mayRead (.hart 0) 0xA00000 = true) ∧
    (∀ off ∈ [0, 0xFFFFF8, 0x2000000, 0x3FF1FF8], accessOk off 8 = true ∧ base.isWedged off = false ∧ alwaysAnswers off = false ∧
      (off < 0x1000000 ∨ (0x2000000 ≤ off ∧ off < 0x4000000 ∧ off % 0x20000 < 0x12000))) := by decide +kernel

/-- What a turn is, for a core that has nothing at its head. -/
theorem turn_of {s : State} {c op : Nat} {q : Queue} {r : Nat → List Region} {i : Issued}
    (h : ((s.tryIssue c op q r).core c).nextOf q = some i) (h' : i.opcode = op) (h'' : i.progress = .waiting) :
    ((s.tryIssue c op q r).core c).nextOf q = some i ∧ i.opcode = op ∧ i.progress = .waiting ∧
      (s.tryIssue c op q r).began c i = (s.tryIssue c op q r).began c i := ⟨h, h', h'', rfl⟩

/-- SBK_CLEAR of the last 4 entries; SPILL and RESTORE of the last 10, with an image whose tags are 511 at most; DRAIN of 2 rows
of 16 entries into a ZF32 tensor. -/
def clearCmd : Nat := bytesOf [(0, 1, 0x18), (46, 3, 524284), (53, 3, 4)]
def spillCmd (op : Nat) : Nat := bytesOf [(0, 1, op), (32, 3, 64), (46, 3, 524278), (53, 3, 10)]
def drainCmd : Nat := bytesOf [(0, 1, 0x19), (44, 2, 2), (46, 3, 524256), (49, 3, 16), (52, 2, 16)]
def drainS : State :=
  withMem (onCore 0 (coreWith .sbk 0x19 drainCmd)) ((coreWindow 0, 64, tensor 1 32 0 0x1000 16 2) :: trailersOf 1 0 0x1000)

theorem witness_ScorebookCommandsWrite :
    (let s := onCore 0 (coreWith .sbk 0x18 clearCmd)
     let i := flying .sbk 0x18 clearCmd
     ((s.tryIssue 0 0x18 .sbk clearRegions).core 0).nextOf .sbk = some i ∧ opsClean clearCmd [(46, 0, 19), (53, 0, 24)] = true ∧
       countBad (sbkCount clearCmd) = false ∧ sbkEntry clearCmd + sbkCount clearCmd ≤ bookSize ∧
       (((s.tryIssue 0 0x18 .sbk clearRegions).began 0 i).applyHw 0 engBook []).2 = 0) ∧
    (let w := spillCmd 0x1A
     let s := onCore 0 (coreWith .sbk 0x1A w)
     let i := flying .sbk 0x1A w
     let h := ((s.tryIssue 0 0x1A .sbk spillRegions).began 0 i).applyHw 0 engBook []
     ((s.tryIssue 0 0x1A .sbk spillRegions).core 0).nextOf .sbk = some i ∧ imageRefusal w = none ∧ h.2 = 0 ∧
       h.1.badEntry 0 ((List.range (sbkCount w)).map (fun j => sbkEntry w + j)) = none) ∧
    (let w := spillCmd 0x1B
     let s := withMem (onCore 0 (coreWith .sbk 0x1B w)) [(coreWindow 0 + 64 + 40, 2, 511)]
     let i := flying .sbk 0x1B w
     let h := ((s.tryIssue 0 0x1B .sbk restoreRegions).began 0 i).applyHw 0 engBook []
     ((s.tryIssue 0 0x1B .sbk restoreRegions).core 0).nextOf .sbk = some i ∧ imageRefusal w = none ∧ h.2 = 0 ∧
       anyMarked h.1.bad (coreWindow 0 + sbkImage w) 60 = false ∧
       ∀ j, j < sbkCount w → h.1.memNat (coreWindow 0 + sbkImage w + 4 * 10 + 2 * j) 2 < 512) ∧
    (let i := flying .sbk 0x19 drainCmd
     let b := (drainS.tryIssue 0 0x19 .sbk (drainS.drainRegions 0)).began 0 i
     ((drainS.tryIssue 0 0x19 .sbk (drainS.drainRegions 0)).core 0).nextOf .sbk = some i ∧ b.drainRefusal 0 i = none ∧
       (b.applyHw 0 engBook []).2 = 0 ∧ (b.applyHw 0 engBook []).1.badEntry 0 (drainEntries drainCmd) = none) := by decide +kernel

/-- A ZE4 tensor of 16 rows of 16 elements, loaded into geometry 1 x 1; a block that is loading and one that is filling; a swap. -/
def loadCmd (op : Nat) : Nat := bytesOf [(0, 1, op), (44, 1, 4)]
def loadS (op : Nat) : State :=
  withMem (onCore 0 (coreWith .arr op (loadCmd op))) ((coreWindow 0, 64, tensor 4 8 0 0x1000 16 16) :: trailersOf 4 0 0x1000)
def smallBlock : Block :=
  { r := 2, c := 4, twoBit := false, temporal := false, plane := 0, statFmt := 4, streamFmt := 4,
    cols := List.replicate 64 (List.replicate 64 Elem.zero), tm := 1, te := 0, zero := 0, check := List.replicate 64 (List.replicate 16 0) }
def holding (op : Nat) : Core :=
  { coreWith .arr op (bytesOf [(0, 1, op)]) with inflight := [{ flying .arr op 0 with progress := .running }], filling := some smallBlock,
                                                 loading := some smallBlock }

theorem witness_ArrayLoadsFillTheBank :
    (∀ op ∈ [0x10, 0x11],
      let s := loadS op
      let i := flying .arr op (loadCmd op)
      let u := s.tryIssue 0 op .arr (s.loadRegions 0)
      let b := u.began 0 i
      (u.core 0).arrNext op = some i ∧ i.progress = .waiting ∧ b.loadRefusal 0 i.cmd = none ∧ (b.applyHw 0 engArr []).2 = 0) ∧
    (let s := loadS 0x10
     let h := (((s.tryIssue 0 0x10 .arr (s.loadRegions 0)).began 0 (flying .arr 0x10 (loadCmd 0x10))).applyHw 0 engArr []).1
     let x := h.loadBlock 0 (loadCmd 0x10) 0
     h.loadFault 0 (loadCmd 0x10) x.nEff x.kEff = none) ∧
    (∀ op ∈ [0x10, 0x11], let s := onCore 0 (holding op)
      (s.core 0).loading = some smallBlock ∧ (s.core 0).filling = some smallBlock ∧
      (((s.core 0).queue .arr).find? (fun i => decide (i.opcode = op ∧ i.progress = .running))).isSome) ∧
    (let s := onCore 0 { coreWith .arr 0x12 0x12 with bullpen := some smallBlock }
     let i := flying .arr 0x12 0x12
     let u := s.tryIssue 0 0x12 .arr (fun _ => [])
     (u.core 0).arrNext 0x12 = some i ∧ opsClean i.cmd [] = true ∧ ((u.began 0 i).applyHw 0 engArr []).2 = 0 ∧
       (((u.began 0 i).applyHw 0 engArr []).1.core 0).bullpen.isSome = true) := by decide +kernel

/-- 16 rows against a bank of geometry 2 x 4, the last row's last entry being the last of the scorebook, in ACC mode. -/
def streamCmd : Nat := bytesOf [(0, 1, 0x13), (43, 1, 1), (44, 2, 16), (46, 3, 524288 - 16 * 64), (49, 3, 64)]
def streamS : State :=
  withMem (onCore 0 { coreWith .arr 0x13 streamCmd with bank := some smallBlock })
    ((coreWindow 0, 64, tensor 3 16 0 0x1000 16 16) :: trailersOf 3 0 0x1000)

theorem witness_MatstreamAccumulates :
    (let s := streamS
     let i := flying .arr 0x13 streamCmd
     let u := s.tryIssue 0 0x13 .arr (s.streamRegions 0)
     let b := u.began 0 i
     (u.core 0).arrNext 0x13 = some i ∧ b.streamRefusal 0 streamCmd = none ∧ (b.core 0).bank = some smallBlock ∧
       (b.applyHw 0 engArr []).2 = 0 ∧ smallBlock.skips (streamAcc streamCmd) ≠ 0xFFFF) ∧
    (let s := streamS
     let w := streamCmd
     let u := s.rowEnters 0 (smallBlock.skips (streamAcc w))
     let ks := rowEntries (streamDst w) (streamStride w) 15 smallBlock.nEff
     let row := u.arrRow 0 (s.streamDescs 0 w) 0 (arrRow0 w + 15) (arrK0 w) smallBlock.kEff
     let v := u.verdict 0 smallBlock row (smallBlock.skips (streamAcc w)) (hwMask [] 15 ||| u.entryMask 0 smallBlock ks)
     s.arrRowFault (s.streamDescs 0 w) (arrRow0 w + 15) (arrK0 w) smallBlock.kEff = none ∧ u.tagFault 0 (cmdEpoch w) ks = none ∧
       v.2.1 = 0 ∧ hwDiffers [] 15 = false) ∧
    (63 < smallBlock.cols.length ∧ streamDst streamCmd + 15 * streamStride streamCmd + smallBlock.cols.length ≤ bookSize) := by
  decide +kernel

/-- 8 x 8 outputs of two tensors of 8 rows of 16 ZB16 elements into the last entries; 2 rows against rank 8 into the last 16
places of the correction buffer; and those against 8 columns. -/
def cnvCmd : Nat → Nat
  | 0x20 => bytesOf [(0, 1, 0x20), (36, 3, 64), (44, 2, 8), (46, 3, 524288 - 64), (49, 3, 8), (55, 2, 8), (60, 3, 16)]
  | 0x21 => bytesOf [(0, 1, 0x21), (36, 3, 64), (44, 2, 2), (46, 2, 65536 - 16), (52, 3, 16)]
  | _ => bytesOf [(0, 1, 0x22), (36, 2, 65536 - 16), (44, 2, 2), (46, 3, 524288 - 16), (49, 3, 8), (52, 2, 8)]
def cnvS (op : Nat) : State :=
  withMem (onCore 0 (coreWith .cnv op (cnvCmd op))) ((coreWindow 0, 64, tensor 3 16 0 0x4000 16 8) ::
    (coreWindow 0 + 64, 64, tensor 3 16 0 0x8000 16 8) :: trailersOf 3 0 0x4000 ++ trailersOf 3 0 0x8000)

theorem witness_CnvCommandsAccumulate :
    (∀ op ∈ [0x20, 0x21, 0x22],
      let s := cnvS op
      let i := flying .cnv op (cnvCmd op)
      let u := s.tryIssue 0 op .cnv (s.cnvRegions 0)
      let b := u.began 0 i
      let h := (b.applyHw 0 engCnv []).1
      (u.core 0).nextOf .cnv = some i ∧ b.cnvRefusal 0 i = none ∧ (b.applyHw 0 engCnv []).2 = 0 ∧
        h.loadsFault 0 (cnvLoads i.cmd) = none ∧ h.corrFault 0 i.cmd = false) ∧
    (let s := cnvS 0x22
     s.entryFault 0 0 ((cnvPlan (cnvCmd 0x22)).accEntries 0) = none ∧ hwMask [] 0 = 0 ∧ hwDiffers [] 0 = false ∧
       (cnvPlan (cnvCmd 0x22)).dest = .entries (524288 - 16) 8 true) ∧
    (let p : CnvPlan := ⟨1, 1, 32, 32, 16, .entries 524287 1 false⟩
     p.tile 0 = [(0, 0)] ∧ 524287 + 0 * 1 + 0 < bookSize) ∧
    (let p : CnvPlan := ⟨1, 1, 128, 8, 16, .buffer 65535 false⟩
     p.tile 0 = [(0, 0)]) := by decide +kernel

/-- Two rows of 16 ZB16 elements against two rows of 16 ZE4 ones that a binding extracts to an empty list. -/
def outCmd : Nat :=
  bytesOf [(0, 1, 0x31), (36, 3, 64), (44, 2, 2), (46, 3, 524288 - 4), (49, 3, 2), (55, 3, 16), (61, 1, 1), (62, 1, 1)]
def outI : Issued := { flying .out 0x31 outCmd with outBinds := [7 + 0x10000 * 2 ^ 32 + 2 ^ 63] }
def outS : State :=
  withMem (onCore 0 { Core.reset with inflight := [outI] }) ((coreWindow 0, 64, tensor 3 16 0 0x4000 16 2) ::
    (coreWindow 0 + 64, 64, tensor 4 8 0 0x8000 16 2) :: trailersOf 3 0 0x4000 ++ trailersOf 4 0 0x8000)

theorem witness_OutlierRowsAccumulate :
    (let u := outS.tryIssue 0 0x31 .out (outS.outRegions 0)
     let b := u.began 0 outI
     (u.core 0).nextOf .out = some outI ∧ b.outRefusal 0 outI = none ∧ (b.applyHw 0 engOut []).2 = 0 ∧
       (b.applyHw 0 engOut []).1.bindFault 0 outI = false) ∧
    (let s := outS
     let w := outCmd
     let d := s.desc (descAt 0 (outW w))
     (s.outLists 0 outI).2.isSome = true ∧
       s.loadsFault 0 [(outX w, outRow0 w + 1, 1, outK0 w, outLen w), (outW w, outN0 w, outCols w, outK0 w, outLen w)] = none ∧
       ((s.outLists 0 outI).2.bind (fun a => s.recordFault d a (outN0 w) (outCols w) (outK0 w) (outLen w))) = none ∧
       ((s.outLists 0 outI).2.bind (fun a => s.badRecord d a (outN0 w) (outCols w) (outK0 w) (outLen w))) = none ∧
       s.entryFault 0 0 ((s.outRowTerms 0 outI 1).map (fun p => p.1)) = none) := by decide +kernel

/-- The sum of two ZF32 tensors of 2 rows of 16 elements; the sum of the rows of one. -/
def vecCmd : Nat → Nat
  | 0x2A => bytesOf [(0, 1, 0x2A), (32, 3, 64), (36, 3, 64), (44, 3, 128), (48, 1, 1)]
  | _ => bytesOf [(0, 1, 0x2B), (32, 3, 64), (44, 3, 128)]
def vecS (op : Nat) : State :=
  withMem (onCore 0 (coreWith .vec op (vecCmd op))) ((coreWindow 0 + 64, 64, tensor 1 32 0 0x4000 16 2) ::
    (coreWindow 0 + 128, 64, tensor 1 32 0 0x8000 (if op = 0x2B then 1 else 16) 2) :: trailersOf 1 0 0x4000 ++ trailersOf 1 0 0x8000)

/-- An enabled optimiser context of partition 0 with one valid group of Rule S, and ZB16 tensors of 16 elements. -/
def optCmd : Nat → Nat
  | 0x28 => bytesOf [(0, 1, 0x28), (32, 3, 64)]
  | _ => bytesOf [(0, 1, 0x29), (32, 3, 64), (36, 3, 128), (44, 3, 192)]
def optS (op : Nat) : State :=
  let s := onCore 0 { coreWith .vec op (optCmd op) with part := some 0 }
  let s := (((s.wr (.optCtxCtrlEnable 0) 1).wr (.optGroupTableNgroups 0) 1).wr (.optGroupTableBase 0) 0x100000).wr (.optConstBase 0) 0x200000
  withMem s ((0x100000, 1, 0x90) :: (coreWindow 0 + 64, 64, tensor 3 16 0 0x4000 16 1) ::
    (coreWindow 0 + 128, 64, tensor 3 16 0 0x8000 16 1) :: (coreWindow 0 + 192, 64, tensor 3 16 0 0xC000 16 1) ::
    trailersOf 3 0 0x4000 ++ trailersOf 3 0 0x8000 ++ trailersOf 3 0 0xC000)

theorem witness_VectorCommandsStore :
    (∀ op ∈ [0x2A, 0x2B],
      let s := vecS op
      let i := flying .vec op (vecCmd op)
      let v := s.tryIssue 0 op .vec (s.vecRegions 0)
      let b := v.began 0 i
      let h := (b.applyHw 0 engVec []).1
      let loads := b.wholeLoads 0 (vecSources i.cmd)
      let u := h.countAllLoads 0 i.step loads
      (v.core 0).nextOf .vec = some i ∧ (b.vecRefusal 0 i).isNone = true ∧ (b.applyHw 0 engVec []).2 = 0 ∧ h.loadsFault 0 loads = none ∧
        u.vecDone 0 i.cmd (b.vecBatches 0 i.cmd) = (if op = 0x2B then 2 else 32) ∧
        u.vecBatches 0 i.cmd = b.vecBatches 0 i.cmd) ∧
    (∀ op ∈ [0x28, 0x29],
      let s := optS op
      let i := flying .vec op (optCmd op)
      let v := s.tryIssue 0 op .vec (s.optRegions 0)
      let b := v.began 0 i
      let h := (b.applyHw 0 engVec []).1
      let ops := optOperands i.cmd (h.optGroup (h.corePart 0) (optGroupNo i.cmd)).rule
      (v.core 0).nextOf .vec = some i ∧ s.constReady 0 = true ∧ optIsNorm i.cmd = decide (op = 0x28) ∧ b.optSkips 0 = false ∧
        b.optRefusal 0 i = none ∧ optEmpty i.cmd = false ∧ (b.applyHw 0 engVec []).2 = 0 ∧ (h.optMaskFault 0 i.cmd 16).isNone = true ∧
        ∀ x ∈ ops, (h.optOperandFault 0 i.cmd (descAt 0 x.1) x.2).isNone = true) ∧
    (let s := (optS 0x29).wr (.optStatusSkipped 0) 1
     s.constReady 0 = true ∧ ((s.tryIssue 0 0x29 .vec (s.optRegions 0)).began 0 (flying .vec 0x29 (optCmd 0x29))).optSkips 0 = true) ∧
    (∀ j, hwMask [] j = 0 ∧ hwDiffers [] j = false) := by
  refine ⟨?_, ?_, ?_, fun j => ⟨rfl, rfl⟩⟩ <;> decide +kernel

/-- Commands of the playmaker at the head of a segment of 4 commands: the jump goes to the last of them. -/
def pmkCmd : Nat → Nat
  | 0x05 => bytesOf [(0, 1, 0x05), (32, 4, 3)]
  | 0x02 => bytesOf [(0, 1, 0x02), (32, 2, 4095), (34, 1, 1), (36, 3, 0x100)]
  | 0x102 => bytesOf [(0, 1, 0x02), (32, 2, 4095), (34, 1, 1), (35, 1, 1), (36, 3, 0x100)]
  | 0x30 => bytesOf [(0, 1, 0x30), (1, 1, 5), (32, 1, 7), (33, 1, 1), (36, 4, 7), (40, 3, 0x1000)]
  | 0x38 => bytesOf [(0, 1, 0x38), (1, 1, 7), (32, 1, 15), (33, 1, 1), (36, 4, 7), (40, 2, 16383)]
  | op => op
def pmkS (op : Nat) : State :=
  withMem (withRegs (onCore 0 (coreAt 4 (pmkCmd op))) [(.pgvTensorTableNtensors 0, 16384)]) [(coreWindow 0 + 0x100, 4, 2)]

theorem witness_PlaymakerCommandsExecuteAtIssue :
    (∀ x ∈ [0x01, 0x05, 0x02, 0x102, 0x30, 0x38],
      let s := pmkS x
      (s.core 0).head = some (pmkCmd x) ∧ s.mayIssue 0 (x % 256) .pmk [] = true) ∧
    (let s := pmkS 0x05
     let i := s.issued 0 (pmkCmd 0x05) .pmk []
     opsClean i.cmd [(32, 0, 32)] = true ∧ signed 32 (opBits i.cmd 32 0 32) = 3 ∧ i.index = 0 ∧
       (((s.issueHead 0 (pmkCmd 0x05) .pmk []).began 0 i).core 0).segCount = 4) ∧
    (∀ x ∈ [0x02, 0x102],
      let s := pmkS x
      let i := s.issued 0 (pmkCmd x) .pmk []
      let b := (s.issueHead 0 (pmkCmd x) .pmk []).began 0 i
      b.fenceRefusal 0 i.cmd = none ∧ fenceSel i.cmd = decide (x = 0x102) ∧ b.fenceFault 0 i.cmd = none ∧
        signed 32 (b.memNat (coreWindow 0 + fenceTable i.cmd +
          4 * fenceIndex (fenceRoles i.cmd) (b.memNat (coreWindow 0 + b.planOffset 0 (fenceGroup i.cmd)) 2)) 4) = 2) ∧
    opsClean ((pmkS 0x30).issued 0 (pmkCmd 0x30) .pmk []).cmd [(32, 0, 3), (33, 0, 1), (36, 0, 32), (40, 0, 24)] = true ∧
    (let s := pmkS 0x38
     let i := s.issued 0 (pmkCmd 0x38) .pmk []
     ((s.issueHead 0 (pmkCmd 0x38) .pmk []).began 0 i).staBindRefusal 0 i.cmd = none) := by decide +kernel

theorem witness_StepsAndSegmentsEnd :
    (∀ op ∈ [0x03, 0x06], ((pmkS op).core 0).head = some op ∧ (pmkS op).mayIssue 0 op .pmk [] = true) ∧
    (let i := flying .pmk 0x03 0x03
     let s := onCore 255 { Core.reset with part := some 15, inflight := [i] }
     (s.core 255).inflight = [i] ∧ ((s.retire 255 i 0).core 255).part = some 15) ∧
    ((((pmkS 0x06).issueHead 0 0x06 .pmk []).began 0 ((pmkS 0x06).issued 0 0x06 .pmk [])).retire 0
      ((pmkS 0x06).issued 0 0x06 .pmk []) 0 |>.core 0).segq = [] := by decide +kernel

theorem witness_SegmentsAreFetchedAndReported :
    (∀ n ∈ [0, 15],
      let s := { onCore 0 { coreAt 4 1 with segq := List.replicate n (seg0 1) } with dispatch := [seg0 1] }
      s.dispatch.find? (fun r => decide (r.core = 0) && !(s.seqHeld r)) = some (seg0 1) ∧ (s.core 0).segq.length < 16 ∧
        (s.core 0).pstate ≠ 0) ∧
    (let s := { base with dispatch := [seg0 1] }
     s.dispatch.find? (fun r => decide (r.core = 0) && !(s.seqHeld r)) = some (seg0 1) ∧ (s.core 0).segq = [] ∧ (s.core 0).pstate = 0 ∧
       (s.core 0).stopping = .no ∧ (s.core 0).haltReq = 0 ∧ segRecOk 0 (seg0 1) = true) ∧
    (let k := { coreAt 1000 1 with buf := List.replicate 240 1 }
     let s := onCore 0 k
     let a := (seg0 1000).base + 64 * 240
     (s.core 0).pstate = 1 ∧ 0 < min 16 (1000 - 240) ∧ k.buf.length ≤ 240 ∧
       (s.checkRange (.part (s.corePart 0)) a (64 * 16) false).1.code = none ∧
       (∀ j, j < 16 → anyMarked s.bad (a + 64 * j) 64 = false) ∧ s.poisoned a (64 * 16) = false) ∧
    (∀ flags ∈ [0, 1],
      let r : SegRun := ⟨0, { seg0 4 with flags := flags }, true, 0⟩
      let s := onCore 0 { Core.reset with segOpen := [r] }
      (s.core 0).segOpen = r :: [] ∧ r.endRetired = true ∧ (s.core 0).inflight = [] ∧ s.reportWaits 0 = false ∧
        r.record.notify = decide (flags = 1)) := by decide +kernel

theorem witness_SignalsAreSentAtRetirement :
    (let i := { flying .vec 0x2A 0x2A with progress := .executed 0 }
     let s := onCore 0 { Core.reset with inflight := [i] }
     queueOf engVec = some .vec ∧ (s.core 0).queue .vec = i :: [] ∧ i.progress = .executed 0) ∧
    (base.isLocal 0xFFFF = true ∧ base.isLocal 3 = true ∧ Code.intParity.val ≠ 0) := by decide +kernel

/-- An LFENCE for layer 0 of feed 63 at core 255; a release that waits for nothing. -/
def lfCmd : Nat := bytesOf [(0, 1, 0x04), (32, 1, 63)]
def lfS : State :=
  { withRegs (onCore 255 (coreAt 4 lfCmd)) [(.cadFeedCtrlEnable 63, 1), (.cadFeedCoresConsumer 63 3, 2 ^ 63), (.cadFeedShapeW 63, 2)] with
    feeds := [(63, { Feed.reset with layers := [⟨0, [], none⟩] })], fences := [⟨255, 63, 0, []⟩] }

theorem witness_LayerFencesReleaseLayers :
    (lfS.core 255).head = some lfCmd ∧ cmdOpcode lfCmd = 0x04 ∧ lfS.mayIssue 255 0x04 .pmk [] = true ∧ lfS.lfRefusal 255 lfCmd = none ∧
      lfS.layerFailure (lfFeed lfCmd) (lfLayer lfCmd) = none ∧ lfS.resident (lfFeed lfCmd) (lfLayer lfCmd) 255 = true ∧
      lfS.fences.find? (fun f => decide (f.core = 255 ∧ f.tokens = [])) = some ⟨255, 63, 0, []⟩ := by decide +kernel

/-- A command whose first wait is a sync wait on object 5. -/
def waitCmd : Nat := bytesOf [(0, 1, 0x01), (8, 2, 5), (10, 1, 2)]

theorem witness_WaitsTakeACountOrQueue :
    ((base.obj 0).state = objFree ∧ ((withObj ⟨0, objOrphaned, 0, 0, 0, []⟩).obj 65535).state = objOrphaned) ∧
    (∀ n ∈ [0, 1, 0xFFFFFFFF], let x := (withObj ⟨n, objActive, 0, 15, 0, []⟩).obj 65535
      x.state ≠ objFree ∧ x.state ≠ objOrphaned ∧ x.part = 15 ∧ x.part ≠ 0 ∧ x.count = n) ∧
    (let s := onCore 0 (coreAt 4 waitCmd)
     (s.core 0).head = some waitCmd ∧ opcodeRow (cmdOpcode waitCmd) (cmdEngine waitCmd) = some (.pmk, 0) ∧
       (syncWaits waitCmd)[(s.core 0).waitsDone]? = some (0, 5) ∧ headerReason waitCmd = none ∧ (s.core 0).issuing = true ∧
       (s.core 0).waiting = false ∧ s.checks3to8 0 waitCmd .pmk (s.regionsOf 0 waitCmd) = true ∧ s.ownFence 0 waitCmd = true) ∧
    (base.barShut false = false ∧ base.hartRoom 31 = true ∧ (base.wr (.synHartStatusOutstanding 31) 255).hartRoom 31 = true) ∧
    base.signals = [] := by decide +kernel

theorem witness_SignalsGiveOneUnit :
    ∀ x ∈ [SyncObj.mk 0 objActive 0 0 0 [hartWaiter, coreWaiter], ⟨0xFFFFFFFE, objFrozen, 1, 0, 0, []⟩, ⟨0xFFFFFFFF, objActive, 2, 0, 0, []⟩],
      let s := { withObj x with signals := [sig false] }
      s.signals[0]? = some (sig false) ∧ s.signals.take 0 = [] ∧ (sig false).broadcast = false ∧ (s.obj 65535).refusal (sig false) = none := by
  decide +kernel

theorem witness_BroadcastsReleaseTheQueue :
    ∀ x ∈ [SyncObj.mk 0 objActive 0 0 0 [hartWaiter, coreWaiter], ⟨7, objActive, 0, 0, 0, []⟩],
      let s := { withObj x with signals := [sig true] }
      s.signals[0]? = some (sig true) ∧ s.signals.take 0 = [] ∧ (sig true).broadcast = true ∧ (s.obj 65535).refusal (sig true) = none := by
  decide +kernel

theorem witness_RefusedSignalsHaveNoEffect :
    ∀ b ∈ [false, true], ∀ x ∈ [(SyncObj.reset, Code.synUnallocated), (⟨0, objOrphaned, 0, 0, 0, []⟩, .synOrphaned), (⟨0, objActive, 1, 1, 0, []⟩, .synScope),
        (⟨0, objActive, 2, 1, 0, []⟩, .synScope)],
      let s := { withObj x.1 with signals := [sig b] }
      s.signals[0]? = some (sig b) ∧ s.signals.take 0 = [] ∧ (s.obj (sig b).object).refusal (sig b) = some x.2 := by decide +kernel

theorem witness_TimeoutsAndHartsLeaveTheQueue :
    (let s := withObj ⟨0, objActive, 0, 0, 0, [hartWaiter, coreWaiter]⟩
     (s.obj 65535).waiters[1]? = some coreWaiter ∧ coreWaiter.deadline = some 5000 ∧ s.barShut false = false ∧ s.isLocal 0xFFFF = true ∧
       (s.settleAll (unitHart 31)).hartWaitWith 31 9 = some (65535, hartWaiter) ∧ (s.settleAll (unitHart 31)).hartWaitWith 31 8 = none) := by
  decide +kernel

theorem witness_FailuresStopTheCore :
    (let s := onCore 0 { coreAt 4 0xFF with inflight := [flying .vec 0x2A 0x2A] }
     (s.core 0).head = some 0xFF ∧ headerReason 0xFF = some 1 ∧ (s.core 0).pstate = 1 ∧ (s.core 0).stopping = .no ∧ (s.core 0).inflight ≠ []) ∧
    (∀ x ∈ [Stopping.halt 1, .failed], let s := onCore 0 { coreAt 4 1 with stopping := x }
      (s.core 0).inflight = [] ∧ (s.core 0).stopping = x) := by decide +kernel

theorem witness_HaltAndResume :
    base.barShut false = false ∧
    (∀ k ∈ [coreAt 4 1, { coreAt 4 1 with inflight := [flying .vec 0x2A 0x2A] }, { coreAt 4 1 with buf := [] }],
      k.pstate = 1 ∧ k.stopping = .no ∧ k.waitsBegun = false ∧ k.headInvalid = false) ∧
    (∀ k ∈ [{ coreAt 4 waitCmd with waiting := true }, coreAt 4 0xFF], k.pstate = 1 ∧ k.stopping = .no ∧
      (k.waitsBegun = true ∨ k.headInvalid = true)) ∧
    (let k := { coreAt 4 1 with pstate := 2 }
     k.pstate = 2 ∧ k.seg ≠ none) ∧
    (let k := { coreAt 4 1 with stopping := .halt 1 }
     k.pstate = 1 ∧ k.stopping = .halt 1) := by decide +kernel

/-- A held unit of the array, with its command in flight, on a core that is not SUSPECT and on one that is. -/
theorem witness_ArbitrationEnds :
    (let a : Arb := ⟨1, engArr, 0, 1, 0, 0⟩
     let i := { flying .arr 0x13 0x13 with progress := .running }
     let s := onCore 0 { Core.reset with inflight := [i], arbs := [a] }
     (s.core 0).arbs.find? (fun a => decide (a.engine = engArr)) = some a ∧
       (s.core 0).inflight.find? (fun i => decide (i.token = a.token)) = some i ∧ s.arbQueued 0 a = false ∧
       s.rdBit (.umpStatusSuspect 0) = false ∧ a.cause ≠ 1 ∧ a.cause ≠ 2 ∧ s.barShut false = false) := by decide +kernel

theorem witness_ManualOperationsAct :
    base.barShut true = false ∧
    (let s := withRegs base [(.synPartRangeFirst 15, 65535), (.synPartRangeNumber 15, 1), (.synManArgPartition, 15), (.synManArgOwner, 511)]
     s.manRefusal 1 65535 = none ∧ s.manArg.part < 16) ∧
    (let s := withRegs (withObj ⟨0, objFrozen, 0, 0, 0, [hartWaiter]⟩) [(.synManArgState, 3), (.synManArgCount, 1)]
     s.manRefusal 2 65535 = none ∧ s.manRefusal 3 65535 = none ∧ s.manRefusal 5 65535 = none) := by decide +kernel

/-! ## Memory tiers and regions -/

theorem witness_MemoryUnitsAreScrubbedAndMappedOut :
    (eccTier1.decode [(35, 1)] = .corrected 35 1 ∧ eccTier2.decode [(0, 1)] = .corrected 0 1 ∧
      ∀ c ∈ [eccTier1, eccTier2], c.decode [(0, 1), (1, 1), (2, 2)] = .uncorrectable) ∧
    (let x := { FlashObj.empty with length := 8192, weak := [(1, 1)] }
     let s := { base with flash := [(7, x)] }
     s.object 7 = some x ∧ s.unitMode 7 1 x = 1 ∧ 1 * 4096 < x.length) ∧
    (15 ∉ base.flashDown) ∧
    (let s := base.wr (.memT1PendPending 7) (2 ^ 63)
     s.rangeHasRegion 1 7 = false ∧ s.rd (.memT1PendPending 7) ≠ 0) ∧
    (let s := base.wr (.memT2PendPending 1) (2 ^ 63)
     s.rangeHasRegion 2 0 = false ∧ s.t2Pending ≠ 0) := by decide +kernel

/-- A device with all of the tier 1 of die 7 in the map, and a request of partition 15 for its last granule as CODE. -/
def regionArg : State :=
  withRegs base [(.memT1MapInService 7, 2 ^ 64 - 1), (.memQuotaT1 15, 1), (.memRegionArgPartition, 15), (.memRegionArgBase, 1023),
    (.memRegionArgCount, 1), (.memRegionArgType, 1)]

/-- The whole entry of region 255, of that granule, with a type. -/
def withRegion (type : Nat) : State :=
  withRegs regionArg [(.memRegionValid 255, 1), (.memRegionBase 255, 1023), (.memRegionCount 255, 1), (.memRegionPartition 255, 15),
    (.memRegionType 255, type), (.memUseT1 15, 1)]

theorem witness_RegionsAreCreatedSealedAndFreed :
    (let s := regionArg
     s.barShut true = false ∧ s.createRefusal 255 = none ∧
       s.rd (useField 15 (s.rd .memRegionArgTier)) + s.rd .memRegionArgCount ≤ s.rd (quotaField 15 (s.rd .memRegionArgTier))) ∧
    ((withRegion 2).rd (.memRegionValid 255) = 1 ∧ (withRegion 2).rd (.memRegionType 255) = 2) ∧
    (let s := base.wr (.memQuotaT1 15) 1
     s.barShut false = false ∧ s.rd (.memQuotaLock 15) = 0 ∧ s.lockedSum 15 1 > s.rd (capacityOf 1) ∧
       ∀ k ∈ [1, 2, 3], base.lockedSum 15 k ≤ base.rd (capacityOf k)) := by decide +kernel

/-! ## Transfers, the host's memory and queues -/

/-- Partition 15 with granule 0 of tier 1 (region 255), hart 31, core 255, feed 63, chip channel 61, queue 32767, stream 8191, SEQ slot
255 and window entry 127, RUNNING. -/
def home : State :=
  { withRegs base [(.memT1MapInService 0, 2 ^ 64 - 1), (.memRegionValid 255, 1), (.memRegionCount 255, 1), (.memRegionPartition 255, 15),
      (.memRegionType 255, 1), (.hifHartPartPartition7 3, 15), (.hifHartPartValid7 3, 1), (.hifPartStatusState 15, 3),
      (.hifPartRangeQfirst 15, 32767), (.hifPartRangeQcount 15, 1), (.hifPartRangeSfirst 15, 8191), (.hifPartRangeScount 15, 1),
      (.hifPartMiscSeqfirst 15, 255), (.hifPartMiscSeqcount 15, 1), (.hifPartMiscWbase 15, 120), (.hifWinValid 127, 1),
      (.hifWinPartition 127, 15), (.hifQtableBase, 0x100000), (.hifStableBase, 0x400000), (.cadFeedCtrlPartition 63, 15),
      (.dmaChCtrlPartition (dmaChip 61), 15)] with cores := [(255, { Core.reset with part := some 15 })] }

/-- A transfer of 64 bytes from 0x1000 to 0x2000 of the device's memory. -/
def smallXfer : Nat := bytesOf [(8, 6, 0x1000), (14, 2, 3), (16, 6, 0x2000), (22, 2, 3), (24, 5, 64)]

/-- That transfer held by an agent, with `n` bytes moved. -/
def held (a : Agent) (n : Nat) : Xfer := ⟨a, 1, 1, 0x3000, smallXfer, n, [], false, 0, none, none, none⟩

/-- A channel in a state with that transfer. -/
def channel (key state : Nat) (a : Agent) (n : Nat) : State :=
  { home.setChanState key state with chans := [(key, { Chan.reset with xfer := some (held a n), prior := 7 })] }

theorem witness_ChannelsPauseAbortAndRestart :
    home.barShut false = false ∧
    (∀ x ∈ [(1023, Agent.core 255 3), (1087, .chip 63)],
      (channel x.1 1 x.2 0).chanState x.1 = 1 ∧ (channel x.1 5 x.2 0).chanState x.1 = 5 ∧ home.chanState x.1 = 0 ∧
      (let s := channel x.1 2 x.2 32
       s.chanState x.1 = 2 ∧ (s.chan x.1).xfer = some (held x.2 32) ∧ s.openReqs (held x.2 32) true = []) ∧
      (let s := channel x.1 3 x.2 32
       s.chanState x.1 = 3 ∧ (s.chan x.1).prior < 8 ∧ (s.chan x.1).xfer = some (held x.2 32) ∧ (held x.2 32).agent.key = x.1)) ∧
    (channel 1087 4 (.chip 63) 0).chanState 1087 = 4 ∧
    (home.decodes 16 = true ∧ home.rdBit .refReadyReady = true ∧ home.rd (.dmaChCtrlPartition (dmaChip 61)) = 16 - 1 ∧
      tailBad 0 0 0 0 = false ∧ tailBad 0 2 0 0 = true) := by decide +kernel

/-- The line of hart 31 at 0x40, dirty, in a device with 8 bytes of memory there. -/
def hartHome : State :=
  { withMem home [(0x40, 8, 0x1122334455667788)] with lines := [(1, ⟨true, List.replicate 64 7⟩)] }

theorem witness_HartAccessesSeeAndKeepMemory :
    (let s := hartHome
     let w := s.hartAccessor 31
     s.rdBit .refReadyReady = true ∧ 0x40 % 64 + 64 ≤ 64 ∧ inRegSpace 0x40 64 = false ∧ (s.checkRange w 0x40 64 false).1 = .ok ∧
       (s.checkRange w 0x40 64 true).1 = .ok ∧ s.hartLine 0x40 = some ⟨true, List.replicate 64 7⟩ ∧
       (s.checkRange w 0x80 64 false).1 = .ok ∧ s.hartLine 0x80 = none ∧ s.poisoned 0x80 64 = false ∧ anyMarked s.bad 0x80 64 = false ∧
       (s.checkRange w (2 ^ 48 - 1) 1 false).1.code ≠ none ∧ inRegSpace (2 ^ 48 - 1) 1 = false ∧
       (s.checkRange (s.hartAccessor 30) 0x40 1 true).1.code ≠ none) ∧
    (∀ m ∈ [8, 9, 10], bitsAt (m * 2 ^ 60 % 2 ^ 64) 60 4 = m) := by decide +kernel

/-- Core 255 with a DMA command of descriptor 0 in flight on channel 3, its store holding that transfer. -/
def dmaHome (op cmd : Nat) : State :=
  { withMem home [(coreWindow 255, 64, bytesOf [(8, 6, coreWindow 255 + 0x1000), (14, 2, 3), (16, 6, 0x2000), (22, 2, 3), (24, 5, 64)])] with
      cores := [(255, { Core.reset with part := some 15, inflight := [flying (.dma 3) op cmd] })] }

theorem witness_TransfersBeginMoveAndEnd :
    (let s := dmaHome 0x40 0x40
     let i := flying (.dma 3) 0x40 0x40
     let v := s.began 255 i
     let da := coreWindow 255 + dmaOffset i.cmd
     (s.core 255).head = none ∧ (s.core 255).nextOf (.dma 3) = some i ∧ i.mayRun = true ∧ s.chanState (coreKey 255 3) = 0 ∧
       dmaClean i.cmd = true ∧ dmaOffset i.cmd % 64 = 0 ∧ dmaOffset i.cmd + 64 ≤ storeSize ∧ anyMarked v.bad da 64 = false ∧
       (v.setSerial (v.serial + 1)).xfReason (.core 255 3) (v.memNat da 64) = none) ∧
    (let s := channel (coreKey 255 3) 1 (.core 255 3) 0
     let x := held (.core 255 3) 0
     (s.core 255).head = none ∧ (s.core 255).nextOf (.dma 3) = none ∧ s.chanState (coreKey 255 3) = 1 ∧
       (s.chan (coreKey 255 3)).xfer = some x ∧ x.failed = none ∧ (s.writeUnit x (List.replicate 64 1) 0).2 = none ∧
       (State.moveUnits [] 1 s x).2.2 = .more) ∧
    (∀ y ∈ [(1023, Agent.core 255 3), (1085, .chip 61)],
      let s := (channel y.1 1 y.2 64).wr .dmaModeReadback 0
      let x := held y.2 64
      s.chanState y.1 = 1 ∧ s.entryWaiting y.1 = false ∧ (s.chan y.1).xfer = some x ∧ x.agent.key = y.1 ∧ x.moved = xfCount x.desc ∧
        s.needsAcks x = false ∧ s.rdBit .dmaModeReadback = false) ∧
    (let s := dmaHome 0x41 0x41
     let i := flying (.dma 3) 0x41 0x41
     (s.core 255).nextOf (.dma 3) = some i ∧ i.mayRun = true ∧ s.chanState (coreKey 255 3) = 0 ∧ (s.began 255 i).gatherRefusal 255 i.cmd ≠ none) ∧
    (let s := withMem (withRegs home [(.dmaChDoorTail (dmaChip 61), 1), (.dmaChRingRingBase (dmaChip 61), 0x3000)]) [(0x3000, 64, smallXfer)]
     let b := dmaChip 61
     let v := s.wr (.dmaChDoorHead b) 1
     let y := v.dmaRead (.chip 61) 0x3000 64 0
     s.chanState (chipKey 61) = 0 ∧ s.rd (.dmaChDoorHead b) ≠ s.rd (.dmaChDoorTail b) ∧ (s.chan (chipKey 61)).ended = none ∧
       s.chanWait 61 = .none ∧ s.ringEntry b (s.rd (.dmaChDoorHead b)) = 0x3000 ∧ y.2 = none ∧ v.memNat 0x3000 64 = smallXfer ∧
       (y.1.setSerial (v.serial + 1)).xfReason (.chip 61) smallXfer = none ∧ xfWaitEn smallXfer = false ∧ areaOf 0x3000 ≠ .tier2) ∧
    (∀ code ∈ [0, Code.xfrAborted.val],
      let s := { home with chans := [(chipKey 63, { Chan.reset with ended := some (code, held (.chip 63) 64) })] }
      (s.chan (chipKey 63)).ended = some (code, held (.chip 63) 64)) := by decide +kernel

/-! ## Feeds, windows and queues -/

/-- Feed 63 of partition 15, with W 2, one layer in the table at 0x3000, core 255 as its consumer. -/
def feedHome : State :=
  withRegs home [(.cadFeedShapeW 63, 2), (.cadFeedTableBase 63, 0x3000), (.cadFeedTableNlayers 63, 1), (.cadFeedShapeSlotStride 63, 4096),
    (.cadFeedCoresConsumer 63 3, 2 ^ 63)]

/-- The first 56 bytes of the header of a Z-pack object without blocks, with the CRC-64 of the first 48 after them, so that the
CRC-64 of all, and of the zeros that follow in the object, is 0. -/
def emptyZpack : List (BitVec 8) :=
  let h := bytesOfNat 48 (bytesOf [(0, 4, 0x4B505A56), (4, 2, 1)])
  h ++ (bytesOfNat 8 (crc64 h).toNat).reverse

/-- Such an object of partition 15, whose recovery has reached step 1. -/
def mended (asked supplied : Bool) (bytes : List (BitVec 8)) : State :=
  { home.wr (.cadPSupplyRequest 15) 1 with
      flash := [(7, { FlashObj.empty with part := 15, type := 2, state := 1, length := 4096, bytes := Mem.writeBytes [] 0 bytes })]
      recoveries := [⟨7, 15, [0], 0, 1, 0, [], false, asked, supplied⟩] }

theorem crc64_zeros (n : Nat) : (List.replicate n (0 : BitVec 8)).foldl crc64Byte 0 = 0 := by
  induction n with
  | zero => rfl
  | succ n ih => rw [List.replicate_succ, List.foldl_cons, show crc64Byte 0 0 = 0 by decide +kernel, ih]

/-- The units of that object pass: the clause of FeedsLayersAndRecoveries on a recovery that succeeds. -/
theorem witness_recoveredUnits : ((mended false false emptyZpack).object 7).map (fun o => mendedOk o [0]) = some true := by
  simp only [show (mended false false emptyZpack).object 7 = some { FlashObj.empty with part := 15, type := 2, state := 1, length := 4096, bytes := Mem.writeBytes [] 0 emptyZpack } by decide +kernel,
    Option.map_some, mendedOk, zHeaderOk, Bool.and_eq_true, decide_eq_true_eq, Option.some.injEq]
  refine ⟨⟨⟨by decide +kernel, ?_⟩, by decide +kernel⟩, by decide +kernel⟩
  rw [show (List.map (fun i => BitVec.ofNat 8 (Mem.read (Mem.writeBytes [] 0 emptyZpack) (0 + i)).toNat) (List.range 56) ++
      List.map (fun i => BitVec.ofNat 8 (Mem.read (Mem.writeBytes [] 0 emptyZpack) (64 + i)).toNat) (List.range 1024)) =
        emptyZpack ++ List.replicate 1024 0 by decide +kernel, crc64, List.foldl_append,
    show emptyZpack.foldl crc64Byte 0 = 0 by decide +kernel, crc64_zeros]
  decide +kernel

theorem witness_FeedsLayersAndRecoveries :
    (feedHome.barShut false = false ∧ feedHome.rd (.cadFeedCtrlEnable 63) = 0 ∧ feedHome.feedRefusal 63 = none ∧ feedHome.recoveries = [] ∧
      (feedHome.wr (.cadFeedShapeW 63) 17).feedRefusal 63 = some 1) ∧
    (∀ st ∈ [1, 2], ∀ pieces ∈ [0, 1],
      let s := withMem (withRegs feedHome [(.cadFeedCtrlEnable 63, 1), (.cadFeedCtrlState 63, st)]) [(0x3008, 4, pieces)]
      s.rdBit (.cadFeedCtrlEnable 63) = true ∧ s.rdBit (.cadFeedCtrlPause 63) = false ∧ s.rd (.cadFeedCtrlState 63) = st ∧
        s.layerMayStart 63 0 = true ∧ s.pieceCount 63 0 = pieces) ∧
    (let a := Agent.piece 63 0 0
     let s := (channel 0 0 a 64).wr .dmaModeReadback 0
     let t := { s with chans := [(a.key, { Chan.reset with xfer := some (held a 64) })] }
     (t.chan a.key).xfer = some (held a 64) ∧ (held a 64).moved = xfCount (held a 64).desc ∧ t.openReqs (held a 64) true = [] ∧
       t.rdBit .dmaModeReadback = false) ∧
    (let s := mended false false []
      let r : Recovery := ⟨7, 15, [0], 0, 1, 0, [], false, false, false⟩
      s.recovery 7 = some r ∧ r.step = 1 ∧ r.supplied = false ∧ (s.object 7).map (fun o => mendedOk o r.units) = some false ∧ s.lostUnits 7 = []) ∧
    (let s := mended true false []
     s.barShut false = false ∧ s.rd (.cadPSupplyRequest 15) = 1 ∧
       s.recoveries.find? (fun r => decide (r.part = 15) && r.asked && !r.supplied) = some ⟨7, 15, [0], 0, 1, 0, [], false, true, false⟩) := by
  decide +kernel

theorem witness_WindowAccessesFollowTheirEntry :
    (let s := home
     s.decodes 0 = true ∧ s.decodes 16 = true ∧ s.rdBit .refReadyReady = true ∧
       s.windowAt 0 (128 * gib1 - 1) = some (127, gib1 - 1) ∧ s.windowAt 16 (7 * gib1) = some (127, 0) ∧
       s.windowRefusal 127 0 64 false = none ∧ s.poisoned 0 64 = false ∧ { s with poison := [(0, true)] }.poisoned 0 64 = true ∧
       s.windowRefusal 127 (gib1 - 1) 1 true = none ∧ s.windowRefusal 0 0 4 false = some 0 ∧ s.windowRefusal 0 0 4 true = some 0 ∧
       (s.windowAt 0 0 = some (0, 0))) ∧
    (home.flags = [] ∧ 127 * 16384 < 2097152 ∧ { home with flags := [(127 * 16384, 2)] }.flagWord (127 * 16384 + 0 / 65536) % 4 = 2) ∧
    home.barShut true = false ∧
    (let g := home.rd (.hifPartMiscWbase 15) * 16384 + 131071
     g < 2097152 ∧ home.flagWord g / 65536 = 0 ∧ (65536 + 2) % 4 ≠ 3 ∧ bitsAt (65536 + 2) 2 14 = 0 ∧ (65536 + 2) / 65536 = 1 ∧ 3 % 4 = 3) := by
  decide +kernel

/-- The context of queue 32767, at 0x2FFFC0: a ring of 16 entries of the device at 0x8000, of partition 15, with HEAD and TAIL; and
that of stream 8191, at 0x43FFE0: its ring at 0x9000. -/
def queueHome (state tail : Nat) (on : Bool) (head entry : Nat) : State :=
  { withMem home [(0x2FFFC0, 29, bytesOf [(0, 8, 0x8000), (8, 1, 4), (16, 1, 15), (24, 4, tail), (28, 1, state)]),
      (0x43FFE0, 28, bytesOf [(0, 8, 0x9000), (8, 1, 4), (16, 1, 15), (20, 4, 16), (24, 4, head)]), (0x8000, 64, entry)] with
      queues := if state = 0 then [] else [(32767, state)], streams := if on then [(8191, { Stream.reset with on := true })] else [] }

theorem witness_QueuesStreamsAndDoorbells :
    (home.barShut true = false ∧
      ∀ x ∈ [(1, false, 0, false), (2, false, 1, false), (3, false, 2, false), (1, true, 0, false), (2, true, 0, true)],
        let s := queueHome x.2.2.1 0 x.2.2.2 0 0
        (if x.1 = 1 then s.ctxSeen (if x.2.1 then s.streamCtx 8191 else s.queueCtx 32767) 64 else s).qOpRefusal x.1
          (if x.2.1 then 8191 else 32767) x.2.1 = none ∧
          s.qOpRefusal 3 8191 true = some 1 ∧ s.qOpRefusal 0 32767 false = some 1) ∧
    (home.decodes 16 = true ∧ home.pageQueue 16 0 = some 32767 ∧ home.pageQueue 0 32767 = some 32767 ∧ home.queueState 32767 = 0 ∧
      (let s := queueHome 1 0 true 0 0
       let u := s.ctxSeen (s.queueCtx 32767) 64
       s.queueState 32767 ≠ 0 ∧ tailBad (u.queueTail 32767) 16 (u.queueHead 32767) (u.queueL 32767) = false ∧
         tailBad (u.queueTail 32767) 17 (u.queueHead 32767) (u.queueL 32767) = true)) ∧
    (home.pageStream 16 0 = some 8191 ∧ home.pageStream 0 8191 = some 8191 ∧ (home.stream 8191).on = false ∧
      (let s := queueHome 1 0 true 0 0
       let u := s.ctxSeen (s.streamCtx 8191) 32
       (s.stream 8191).on = true ∧ headBad (u.streamHead 8191) 16 (u.streamTail 8191) = false ∧
         headBad (u.streamHead 8191) 17 (u.streamTail 8191) = true)) ∧
    (home.rd (.hifPartEvringEnable 16) = 0 ∧ ∀ l ∈ [(4, true), (16, true), (3, false), (17, false)],
      decide (4 ≤ bitsAt (2 ^ 54 + l.1 * 2 ^ 49) 49 5 ∧ bitsAt (2 ^ 54 + l.1 * 2 ^ 49) 49 5 ≤ 16) = l.2 ∧
        bitAt (2 ^ 54 + l.1 * 2 ^ 49) 54 = true) := by decide +kernel

/-- Entries of the queue, of types 1 to 6: for core 255 and SEQ slot 255, for granule 127 * 16384, for a local signal, with stream 8191. -/
def entryOf (type : Nat) : Nat :=
  bytesOf ([(0, 1, type)] ++ (match type with
    | 1 => [(6, 1, 255), (44, 2, 8191), (46, 1, 255), (47, 1, 3)]
    | 2 | 3 => [(8, 2, 8191), (32, 8, 127 * 16384), (40, 4, 1)]
    | 4 => [(8, 2, 8191), (32, 6, bytesOf [(0, 2, 0xFFFF), (2, 2, 65535), (4, 1, 1)])]
    | 5 => [(8, 2, 8191), (32, 1, 255)]
    | _ => [(8, 2, 8191)]))

theorem witness_SubmissionEntriesTakeEffect :
    (∀ type ∈ [1, 2, 3, 4, 5, 6], let s := queueHome 1 1 true 16 (entryOf type)
      s.queueState 32767 = 1 ∧ s.queueHead 32767 ≠ s.queueTail 32767 ∧ s.queueWaits 32767 = false ∧
        (s.readEntry 32767).2 = (entryOf type, none) ∧ enType (entryOf type) = type ∧
        (s.readEntry 32767).1.entryReason ((s.readEntry 32767).1.queuePart 32767) (entryOf type) = none ∧ enWait (entryOf type) = false ∧
        (s.readEntry 32767).1.headWait 32767 = .none) ∧
    (let s := queueHome 1 1 true 16 0
     (s.readEntry 32767).2 = (0, none) ∧ (s.readEntry 32767).1.entryReason ((s.readEntry 32767).1.queuePart 32767) 0 = some 1) ∧
    (let r := enRecord (entryOf 1) 32767 15 0
     home.dispatchRoom r = true ∧ { home with cores := [(255, { Core.reset with segq := List.replicate 16 r })] }.dispatchRoom r = false) ∧
    (enGranules (entryOf 2) = [2080768] ∧ home.flagWord 2080768 % 4 = 0 ∧ { home with flags := [(2080768, 1)] }.flagWord 2080768 % 4 = 1) ∧
    ((signalEntry (bytesAt (entryOf 4) 32 6)).kind = 1 ∧ home.isLocal (signalEntry (bytesAt (entryOf 4) 32 6)).chip = true ∧
      (signalEntry (bytesAt 0 32 6)).kind = 0) ∧
    (let x : Completion := ⟨8191, 0, 0, 32767, 255, 0, 0, none, true⟩
     let s := { queueHome 1 1 true 16 0 with
       streams := [(8191, { Stream.reset with on := true, waiting := [x], owed := true })]
       rings := [(16, ⟨0, 0, true⟩)] }
     (s.stream 8191).on = true ∧ (s.stream 8191).waiting = [x] ∧ s.streamFull 8191 = false ∧ (s.ring 16).owed = true ∧
       (s.stream 8191).owed = true) := by decide +kernel

/-! ## Jobs -/

/-- The manifest of partition 15 without cores, whose JOB_ID is such that the CRC-64 of its first 16 bytes, and of all its 4,088, is 0. -/
def manifest : List (BitVec 8) :=
  let h := bytesOfNat 8 (bytesOf [(0, 4, 0x424A5A56), (4, 2, 1), (6, 1, 15)])
  h ++ (bytesOfNat 8 (crc64 h).toNat).reverse

/-- That image as an object. -/
def image7 : FlashObj := { FlashObj.empty with part := 15, type := 1, state := 1, length := 4096, bytes := Mem.writeBytes [] 0 manifest }

/-- Partition 15 in a state, with that image as object 7 and its quota locked. -/
def jobHome (state : Nat) : State :=
  { withRegs home [(.hifPartStatusState 15, state), (.hifPartJobObjectId 15, 7), (.memQuotaLock 15, 1), (.hifPartMiscWbase 15, 120)] with
      flash := [(7, image7)] }

/-- The state after the image is read: nothing of it changes but the counters. -/
def imageRead : State × Option (List (BitVec 8)) := ((jobHome 1).wr (.hifPartStatusCode 15) 0).sourceBytes 15 7 0 0 4096

theorem get_beyond (m : List (Nat × BitVec 8)) (a : Nat) (h : ∀ p ∈ m, p.1 < a) : Mem.read m a = 0 := by
  induction m with
  | nil => rfl
  | cons p t ih =>
    have hp := h p (by simp)
    have ht := ih (fun q hq => h q (by simp [hq]))
    simp only [Mem.read, Sparse.get] at ht ⊢
    split <;> first | omega | exact ht

theorem readBytes_beyond (m : List (Nat × BitVec 8)) (n a : Nat) (h : ∀ p ∈ m, p.1 < a) : Mem.readBytes m a n = List.replicate n 0 := by
  induction n generalizing a with
  | zero => rfl
  | succ n ih =>
    rw [Mem.readBytes, get_beyond m a h, ih (a + 1) (fun p hp => Nat.lt_succ_of_lt (h p hp)), List.replicate_succ]

theorem readBytes_add (m : List (Nat × BitVec 8)) (j k a : Nat) :
    Mem.readBytes m a (j + k) = Mem.readBytes m a j ++ Mem.readBytes m (a + j) k := by
  induction j generalizing a with
  | zero => simp [Mem.readBytes]
  | succ j ih =>
    rw [show j + 1 + k = (j + k) + 1 by omega, Mem.readBytes, ih, Mem.readBytes, List.cons_append, show a + 1 + j = a + (j + 1) by omega]

theorem natOfBytes_zeros (l : List (BitVec 8)) (n : Nat) : natOfBytes (l ++ List.replicate n 0) = natOfBytes l := by
  induction l with
  | nil =>
    induction n with
    | zero => rfl
    | succ n ih =>
      rw [List.nil_append] at ih ⊢
      show (0 : BitVec 8).toNat + 256 * natOfBytes (List.replicate n 0) = 0
      rw [ih]; rfl
  | cons b t ih => rw [List.cons_append, natOfBytes, ih, natOfBytes]

theorem sourceBytes_object (s : State) (p o c off n : Nat) (x : FlashObj) (hn : n ≠ 0) (ho : o ≠ 0)
    (h1 : s.objectRefusal o (off / 4096 * 4096) (off % 4096 + n) none = none) (h2 : s.object o = some x) (ht : x.type ≠ 2)
    (h3 : (s.readUnitsAs unitReferee p o x (unitsOf off n)).2 = none) :
    (s.sourceBytes p o c off n).2 = some (Mem.readBytes x.bytes off n) := by
  unfold State.sourceBytes
  simp [hn, ho, h1, h2, ht, h3]

theorem readImage_ok (s t : State) (p o c : Nat) (bs : List (BitVec 8)) (h : s.sourceBytes p o c 0 4096 = (t, some bs)) (m : Nat)
    (hm : natOfBytes bs = m)
    (hc : ¬ (bytesAt m 0 4 ≠ 0x424A5A56 ∨ bytesAt m 4 2 ≠ 1 ∨ bytesAt m 6 1 ≠ p ∨ mfRegions m > 256 ∨ bitsAt m (8 * 96 + 18) 14 ≠ 0 ∨
      mfReserved.any (fun r => decide (bytesAt m r.1 r.2 ≠ 0)) = true))
    (hl : mfLength m = 0) (hk : bytesAt m 4088 8 = (crc64 (bs.take 4088 ++ [])).toNat) : s.readImage p o c = (t, .ok ⟨m, 0⟩) := by
  unfold State.readImage
  simp only [h, hm]
  rw [if_neg hc]
  simp only [hl, State.sourceBytes, if_true]
  rw [if_pos hk]
  rfl

/-- In a state whose tier 3 holds that object readable, the image is read whole: its manifest, and lists of nothing. -/
theorem image_reads_of (s : State) (h1 : s.objectRefusal 7 (0 / 4096 * 4096) (0 % 4096 + 4096) none = none) (h2 : s.object 7 = some image7)
    (h3 : (s.readUnitsAs unitReferee 15 7 image7 (unitsOf 0 4096)).2 = none) :
    s.readImage 15 7 0 = ((s.sourceBytes 15 7 0 0 4096).1, .ok ⟨natOfBytes manifest, 0⟩) := by
  have hb : Mem.readBytes image7.bytes 0 4096 = manifest ++ List.replicate 4080 0 := by
    rw [show 4096 = 16 + 4080 by omega, show image7.bytes = Mem.writeBytes [] 0 manifest by decide +kernel, readBytes_add,
      readBytes_beyond _ 4080 (0 + 16) (by decide +kernel), show Mem.readBytes (Mem.writeBytes [] 0 manifest) 0 16 = manifest by decide +kernel]
  have h4 : (s.sourceBytes 15 7 0 0 4096).2 = some (manifest ++ List.replicate 4080 0) := by
    rw [← hb]
    exact sourceBytes_object s 15 7 0 0 4096 image7 (by omega) (by omega) h1 h2 (by decide +kernel) h3
  refine readImage_ok _ _ 15 7 0 (manifest ++ List.replicate 4080 0) (Prod.ext rfl h4) _ (natOfBytes_zeros manifest 4080) (by decide +kernel)
    (by decide +kernel) ?_
  rw [List.append_nil, List.take_append, show manifest.length = 16 by decide +kernel, List.take_replicate,
    List.take_of_length_le (by decide +kernel), crc64, List.foldl_append, show manifest.foldl crc64Byte 0 = 0 by decide +kernel, crc64_zeros]
  decide +kernel

theorem image_reads : ((jobHome 1).wr (.hifPartStatusCode 15) 0).readImage 15 7 0 = (imageRead.1, .ok ⟨natOfBytes manifest, 0⟩) :=
  image_reads_of _ (by decide +kernel) (by decide +kernel) (by decide +kernel)

theorem witness_PartitionOperationsRun :
    (∀ st ∈ [0, 1, 2, 3, 4, 5, 6], (jobHome st).barShut true = false ∧ (jobHome st).rd (.hifPartStatusBusy 15) = 0 ∧
      ((jobHome st).job 15).suspend = none ∧ (jobHome st).partState 15 = st) ∧
    (jobHome 0).createCheck 15 = none ∧
    (∀ x ∈ [(0, [1]), (1, [0]), (0, [2, 3, 4, 5, 6]), (6, [0])], x.2.contains ((jobHome x.1).partState 15) = false) ∧
    (let u := (jobHome 1).wr (.hifPartStatusCode 15) 0
     let x : Image := ⟨natOfBytes manifest, 0⟩
     let i := imageRead.1
     let r := ((i.jobBoundary []).requestPlan 1).placeJob 15 7 0 x (u.rdBit (.hifPartJobRestore 15)) none none []
     u.rd (.hifPartJobObjectId 15) = 7 ∧ u.rd (.hifPartJobCpaJobCpa 15) = 0 ∧ u.rdBit .refReadyFlagged = false ∧
       i.claimRefusal 15 (i.imageUnits 15 7 0 x) x = none ∧ i.regListOk 15 x = true ∧
       (match r.2.2 with
       | .ok back => (r.1.enableJob 15 x back).2.isNone
       | .error _ => false) = true) ∧
    (jobHome 3).stepPassed 15 = none := by decide +kernel

theorem loadJob_ok (s t : State) (p o c : Nat) (x : Image) (restore : Bool) (upTo : Option Nat) (others : Option (List Nat))
    (images : List (List (BitVec 8))) (fails : List (Nat × Nat)) (back : Option Restored) (h0 : s.rdBit .refReadyFlagged = false)
    (h1 : s.readImage p o c = (t, .ok x)) (h2 : t.claimRefusal p (t.imageUnits p o c x) x = none) (h3 : t.regListOk p x = true)
    (h4 : (((t.jobBoundary fails).requestPlan 1).placeJob p o c x restore upTo others images).2.2 = .ok back)
    (h5 : ((((t.jobBoundary fails).requestPlan 1).placeJob p o c x restore upTo others images).1.enableJob p x back).2 = none) :
    s.loadJob p o c restore upTo others images fails =
      ((((((t.jobBoundary fails).requestPlan 1).placeJob p o c x restore upTo others images).1.enableJob p x back).1.wr
        (.hifPartStatusState p) 2).wr (.hifPartStatusCode p) 0) := by
  unfold State.loadJob
  rw [h0]
  simp only [Bool.false_eq_true, if_false, h1, h2, h3, h4, h5, Bool.true_eq_false]

/-- A checkpoint image without sections, of step 0. -/
def emptyCkpt : List (BitVec 8) :=
  let h := bytesOfNat 56 (bytesOf [(0, 4, 0x4B435A56), (4, 2, 1), (24, 8, 64)])
  h ++ bytesOfNat 8 (crc64 h).toNat

/-- Partition 15 STOPPED, with its image to be loaded again. -/
def stopped : State :=
  { withRegs (jobHome 6) [(.hifPartMiscAutoRestart 15, 1), (.hifPartMiscRestartLimit 15, 1), (.hifPartStatusStopCause 15, Code.numGovReduceFail.val)] with
      jobs := [(15, { Job.empty with loaded := true, object := 7 })] }

/-- It with its job undone, and that after the image is read. -/
def undone : State :=
  let s := (stopped.endSegments 15).jobEndObjects 15
  let j := s.job 15
  (s.undoJob 15 (j.regions.filter (fun n => !(j.keep.contains n)))).discardOffload 15
def undoneRead : State := (undone.sourceBytes 15 7 0 0 4096).1

theorem image_readsAgain : undone.readImage 15 7 0 = (undoneRead, .ok ⟨natOfBytes manifest, 0⟩) := by
  refine image_reads_of undone (by decide +kernel) (by decide +kernel) (by decide +kernel)

/-- Its loading again succeeds, with the state of that checkpoint. -/
theorem witness_restart :
    ∃ t : State, stopped.restart 15 none [emptyCkpt] [] = (t.wr (.hifPartStatusState 15) 2).wr (.hifPartStatusCode 15) 0 ∧
      t.rd (.redPGroupBound 15) = 0 := by
  let x : Image := ⟨natOfBytes manifest, 0⟩
  let r := ((undoneRead.jobBoundary []).requestPlan 1).placeJob 15 7 0 x true none none [emptyCkpt]
  have hr : (match r.2.2 with
    | .ok b => (r.1.enableJob 15 x b).2.isNone && decide ((r.1.enableJob 15 x b).1.rd (.redPGroupBound 15) = 0)
    | .error _ => false) = true := by decide +kernel
  cases hb : r.2.2 with
  | error e => rw [hb] at hr; cases hr
  | ok b =>
    rw [hb] at hr
    simp only [Bool.and_eq_true, Option.isNone_iff_eq_none, decide_eq_true_eq] at hr
    exact ⟨_, loadJob_ok undone undoneRead 15 7 0 x true none none [emptyCkpt] [] b (by decide +kernel) image_readsAgain (by decide +kernel)
      (by decide +kernel) hb hr.1, hr.2⟩

/-- Cores 0 and 1 of partition 15 after step 4, in a playmaker state, with a job, registers and reductions as given. -/
def after4 (ps : Nat) (j : Job) (regs : List (RF × Nat)) (reds : List Red) : State :=
  { withRegs (jobHome 3) ([(.pmkStepStep 0, 5), (.pmkStepStep 1, 5)] ++ regs) with
      cores := [(0, { Core.reset with part := some 15, pstate := ps, norms := [⟨4, 0, 0, true⟩] }),
        (1, { Core.reset with part := some 15, pstate := ps, norms := [⟨4, 0, 0, true⟩] })]
      jobs := [(15, j)]
      reds := reds }

/-- A reduction of partition 15 in a class, with an outcome. -/
def redOf (cls : Nat) (o : Option Nat) : Red := ⟨15, cls, 1, 9, [3], 1, 0, [f32OfNat 1], [], 0, o⟩

theorem witness_SuspensionsRestartsAndResetsComplete :
    (∀ x ∈ [[], [(RF.pgvCtxCtrlEnable 15, 1), (.pgvStatusPublishedStep 15, 4)]],
      let s := after4 2 { Job.empty with suspend := some 4 } x []
      (s.job 15).suspend = some 4 ∧ s.partState 15 = 3 ∧ s.coresOf 15 = [0, 1] ∧
        (∀ c ∈ s.coresOf 15, (s.core c).pstate = 2 ∧ s.pmkStep c % 2 ^ 32 = (4 + 1) % 2 ^ 32) ∧
        (s.rd (.pgvCtxCtrlEnable 15) = 0 ∨ s.rd (.pgvStatusPublishedStep 15) = 4)) ∧
    (stopped.rd (.hifPartStatusBusy 15) = 0 ∧ stopped.partState 15 = 6 ∧ stopped.rd (.hifPartMiscAutoRestart 15) = 1 ∧
      stopped.rd (.hifPartStatusRestarts 15) < stopped.rd (.hifPartMiscRestartLimit 15) ∧
      stopped.rd (.hifPartStatusStopCause 15) ≠ Code.intReplaceChip.val) ∧
    (base.rd .refReadyReady = 1 ∧ State.reset.rd .refReadyReady = 0) ∧
    (∀ flr ∈ [1, 2], let i := { flying .vec 0x2A 0x2A with progress := .running }
      let s := { after4 3 { Job.empty with ending := some ⟨[], flr⟩ } [] [] with
        cores := [(0, { Core.reset with part := some 15, inflight := [i] })] }
      (s.job 15).ending = some ⟨[], flr⟩ ∧ s.drained 15 = false) := by decide +kernel

/-- An ENABLE of the governor that passes: one rung for each role, one group, its areas in tier 1. -/
def govHome : State :=
  withMem (withRegs (jobHome 3) [(.pgvGroupTableBase 15, 0x10000), (.pgvGroupTableNgroups 15, 1), (.pgvTensorTableBase 15, 0x20000),
      (.pgvAreasBase 15 0, 0x30000), (.pgvAreasBase 15 1, 0x1000000), (.pgvAreasBase 15 2, 0x2000000), (.pgvJumpA 15, 8),
      (.pgvJumpWarmup 15, 1)])
    [(0x30000, 8, bytesOf [(0, 1, 1), (2, 1, 128), (4, 4, 0x3F800000)]), (0x30040, 8, bytesOf [(0, 1, 1), (2, 1, 128), (4, 4, 0x3F800000)]),
      (0x30080, 8, bytesOf [(0, 1, 1), (2, 1, 128), (4, 4, 0x3F800000)]), (0x1003C, 2, 16)]

/-- An ENABLE of the optimiser context that passes: one group that is not VALID. -/
def optHome : State :=
  withRegs (jobHome 3) [(.optGroupTableBase 15, 0x10000), (.optGroupTableNgroups 15, 1), (.optConstBase 15, 0x40000), (.optGscaleNclean 15, 1),
    (.optClipClipMax 15, 0x7F800000)]

theorem witness_GovernorAndOptimiserStepsComplete :
    (govHome.barShut false = false ∧ govHome.rd (.pgvCtxCtrlEnable 15) = 0 ∧ govHome.pgvBad 15 = none ∧
      (govHome.wr (.pgvJumpA 15) 9).pgvBad 15 = some (6, 0)) ∧
    (optHome.rd (.optCtxCtrlEnable 15) = 0 ∧ optHome.optBad 15 = none ∧ (optHome.wr (.optClipClipMax 15) 0x7F800001).optBad 15 = some (4, 0)) ∧
    (let s := after4 1 Job.empty [(.pgvCtxCtrlEnable 15, 1)] []
     s.endedStep 15 = some 4 ∧ s.rd (.pgvCtxCtrlEnable 15) = 1 ∧ (s.job 15).pass = none ∧ (s.job 15).passed ≠ some 4 ∧
       s.captureDue 15 = none ∧ s.fingerprintDue 15 4 = false) ∧
    (∀ o ∈ [0, 3], let s := after4 1 { Job.empty with pass := some (4, false) } [] [redOf 2 (some o)]
      (s.job 15).pass = some (4, false) ∧ s.red 15 2 = some (redOf 2 (some o)) ∧ (redOf 2 (some o)).outcome = some o ∧ s.partState 15 = 3) ∧
    (let s := after4 1 Job.empty [(.optCtxCtrlEnable 15, 1)] []
     s.normStep 15 = some 4 ∧ s.rd (.optCtxCtrlEnable 15) = 1 ∧ (s.job 15).norm = none ∧ (s.job 15).capture = none ∧ s.captureDue 15 = none) ∧
    (∀ o ∈ [0, 3], let s := after4 1 { Job.empty with norm := some 4 } [] [redOf 1 (some o)]
      (s.job 15).norm = some 4 ∧ s.red 15 1 = some (redOf 1 (some o)) ∧ (redOf 1 (some o)).outcome = some o ∧ (s.job 15).capture = none ∧
        s.partState 15 = 3) := by decide +kernel

/-- A checkpoint of step 4 being captured or drained. -/
def ckptOf (bad : Bool) : Ckpt := ⟨4, Mem.writeBytes [] 0 emptyCkpt, 4096, none, bad, 8⟩

theorem witness_CheckpointsAndFingerprintsComplete :
    (base.barShut false = false ∧
      (let s := after4 1 Job.empty [] []
       ((s.coresOf 15).map (fun c => s.pmkStep c)).foldl max 0 % 2 ^ 32 = 5 ∧ (5 + 2 ^ 32 - 5) % 2 ^ 32 = 0 ∧ (5 + 2 ^ 32 - 4) % 2 ^ 32 = 1 ∧
         (5 + 2 ^ 32 - 6) % 2 ^ 32 ≥ 2 ^ 31)) ∧
    (∀ w ∈ [(0, 0), (7, 0), (1, 2 ^ 40)],
      let s := after4 1 { Job.empty with passed := some 4 } [(.optCtxCtrlEnable 15, 1), (.pgvStatusPublishedStep 15, 4), (.optCkptCtrlInterval 15, 4),
        (.optBuddyWays 15, w.1), (.optBuddyStripeStripe 15, w.2)] []
      s.captureDue 15 = some 4 ∧ (s.job 15).drain = none ∧ (s.job 15).capture = none ∧ s.rd (.optBuddyWays 15) = w.1) ∧
    (∀ b ∈ [false, true],
      let s := after4 1 { Job.empty with capture := some (ckptOf b), drain := some (ckptOf b) } [] []
      (s.job 15).capture = some (ckptOf b) ∧ (ckptOf b).vote = none ∧ s.ckptReqs 15 0 = [] ∧ s.ckptReqs 15 1 = [] ∧
        (s.job 15).drain = some (ckptOf b) ∧ (ckptOf b).bad = b) ∧
    (let x := ckptOf false
     let s := after4 1 { Job.empty with drain := some x } [] []
     let u := (((s.setReqs (s.reqs.filter (fun r => !(decide (r.agent = Agent.capture 15 ∧ r.serial = 1))))).modJob 15 (fun j => { j with drain := none })).wr
       (.optCkptStateDrain 15) 0)
     (u.raiseFaults 15 ((imageSections x.image).filterMap (fun y => (u.imageFault 15 x.image y).bind id))).imageOk 15 x.image = true) ∧
    (let s := after4 1 { Job.empty with fpInterval := 4 } [] []
     s.endedStep 15 = some 4 ∧ s.fingerprintDue 15 4 = true ∧ (s.job 15).fingerprint = none ∧ (s.job 15).pass = none) ∧
    (∀ o ∈ [(0, 0), (0, 1), (3, 0)], ∀ d ∈ [0, 1],
      let r := { redOf 2 (some o.1) with value := [f32OfNat o.2] }
      let s := after4 1 { Job.empty with fingerprint := some (4, 7), diverged := d } [] [r]
      (s.job 15).fingerprint = some (4, 7) ∧ s.red 15 2 = some r ∧ r.outcome = some o.1 ∧ natOfF32 (r.value.getD 0 0) = o.2 ∧ (s.job 15).diverged = d ∧
        s.partState 15 = 3) := by decide +kernel

/-! ## Links -/

/-- A locked chip whose port 17 is in a state and a mode, with a route to chip 5 through it, and granule 0 of tier 1 REMOTE. -/
def linked (state mode : Nat) (regs : List (RF × Nat)) : State :=
  withRegs home ([(.lnkIdentLock, 1), (.lnkPortCtrlEnable 17, 1), (.lnkPortCtrlMode 17, mode), (.lnkPortStatusState 17, state),
    (.lnkRouteValid 5, 1), (.lnkRoutePorts 5, 2 ^ 17), (.memRegionRemote 255, 1)] ++ regs)

/-- The data flit of sequence number 0 and empty slots, with its CRC-32C. -/
def flit0 : Nat := 3975388681 * 2 ^ 2080

/-- The CRC-32C of its 260 bytes of zeros, in five parts. -/
theorem flit0_crc : crc32c (List.replicate 260 0) = 3975388681#32 := by
  let f (c : BitVec 32) (b : BitVec 8) : BitVec 32 := crc32cBits 8 (c ^^^ b.zeroExtend 32)
  have h1 : (List.replicate 52 0).foldl f 0xFFFFFFFF = 2493084981#32 := by decide +kernel
  have h2 : (List.replicate 52 0).foldl f 2493084981#32 = 2052322934#32 := by decide +kernel
  have h3 : (List.replicate 52 0).foldl f 2052322934#32 = 2493348528#32 := by decide +kernel
  have h4 : (List.replicate 52 0).foldl f 2493348528#32 = 2994234801#32 := by decide +kernel
  have h5 : (List.replicate 52 0).foldl f 2994234801#32 = 319578614#32 := by decide +kernel
  have hs : List.replicate 260 (0 : BitVec 8) = List.replicate 52 0 ++ (List.replicate 52 0 ++ (List.replicate 52 0 ++
    (List.replicate 52 0 ++ List.replicate 52 0))) := by decide +kernel
  show ~~~ ((List.replicate 260 0).foldl f 0xFFFFFFFF) = 3975388681#32
  rw [hs, List.foldl_append, h1, List.foldl_append, h2, List.foldl_append, h3, List.foldl_append, h4, h5]
  decide +kernel

theorem witness_flits : flitCrcOk flit0 = true ∧ flitCrcOk 0 = false := by
  simp only [flitCrcOk, show bytesOfNat 260 (flit0 % 2 ^ 2080) = List.replicate 260 0 by decide +kernel,
    show bytesOfNat 260 (0 % 2 ^ 2080) = List.replicate 260 0 by decide +kernel, flit0_crc]
  decide +kernel

theorem witness_PortsComeUpReceiveAndGoDown :
    (home.barShut true = false ∧ home.rd .lnkIdentLock = 0) ∧
    (let s := (linked 0 0 []).wr (.lnkPortCtrlEnable 17) 0
     s.rd (.lnkPortStatusClaimed 17) = 0 ∧ s.rd (.lnkPortCtrlEnable 17) = 0 ∧ bitAt 3 0 = true ∧ bitAt 1 0 = true ∧ s.rd .lnkIdentLock = 1 ∧
       s.rd (.lnkPortStatusState 17) = 0 ∧ 17 ∉ s.referee.cut) ∧
    (let s := linked 5 0 []
     s.rd (.lnkPortCtrlEnable 17) = 1 ∧ bitAt 0 0 = false ∧ bitsAt 0 1 1 = s.rd (.lnkPortCtrlMode 17) ∧ s.portTakes 17 = false) ∧
    (∀ st ∈ [1, 2, 3, 4, 5], let s := { linked st 0 [] with ports := [(17, { Port.reset with helloed := true })] }
      s.rd (.lnkPortStatusState 17) = st ∧ (s.port 17).helloed = true) ∧
    (let s := linked 0 0 []
     s.rd (.lnkPortCtrlEnable 17) = 1 ∧ s.rd .lnkIdentLock = 1 ∧ s.rd (.lnkPortStatusState 17) = 0 ∧ s.rd (.lnkPortCtrlMode 17) = 0 ∧
       17 ∉ s.referee.cut) ∧
    ((linked 6 0 []).portUp 17 = true ∧ { linked 1 0 [] with ports := [(17, { Port.reset with retrain := some 0 })] }.port 17 =
      { Port.reset with retrain := some 0 }) ∧
    (flitDecode flit0 [(0, 1), (1, 1), (2, 1)] = none ∧ flitDecode flit0 [] = some (flit0, 0) ∧ flitKind flit0 = 0 ∧
      flitSeq flit0 = (((linked 6 0 []).port 17).ack + 1) % 4096 ∧ flitDecode 0 [] = some (0, 0)) ∧
    ({ linked 6 0 [] with ports := [(17, { Port.reset with sinceAck := 1 })] }.port 17).sinceAck > 0 := by decide +kernel

/-- A message of a type from chip 5 to a chip, and a state in which it has come through port 17. -/
def msgOf (type dst arg data : Nat) : Msg := ⟨type, 1, 0, dst, 5, 9, arg, data, 0, none⟩
def received (m : Msg) : State := { linked 6 0 [] with inbox := [(17, m)] }

/-- A request of tag 9 to chip 5. -/
def reqOf (type : Nat) : Req := { tag := 9, agent := .chip 62, serial := 1, dst := 5, type := type, addr := 0, bytes := 32, place := 0, got := 0, sent := 0 }

theorem witness_MessagesAreTakenAnsweredAndForwarded :
    (∀ type ∈ [0x10, 0x11, 0x12, 0x20, 0x21, 0x22, 0x30], let m := msgOf type 5 0 0
      (received m).msgAt 0 type = some (17, m) ∧ m.dst ≠ (received m).chipId ∧
        (received m).canRoute { m with hops := m.hops + 1, via := some 17 } = true) ∧
    ((received (msgOf 1 3 4095 0)).msgAt 0 1 = some (17, msgOf 1 3 4095 0)) ∧
    (∀ type ∈ [0x10, 0x11, 0x12, 0x13, 0x20, 0x21, 0x22, 0x30], let m := msgOf type 3 0 0
      m.dst = (received m).chipId ∧ (received m).msgAt 0 type = some (17, m)) ∧
    (let q := (received (msgOf 0x10 3 0 0)).freeMsg 0
     (msgOf 0x10 3 0 0).cpa = 0 ∧ (q.linkCheck 0 (32 * 1) false).1.code = none ∧ (q.linkCheck 0 32 true).1.code = none ∧
       anyMarked q.bad 0 32 = false ∧ q.poisoned 0 32 = false ∧ (home.linkCheck 0 32 false).1.code ≠ none ∧
       (home.linkCheck 0 32 true).1.code ≠ none) ∧
    (let m := msgOf 0x13 3 0 0
     let s := { received m with flash := [(0, { FlashObj.empty with type := 3, state := 1, length := 4096 })] }
     s.heldHere m = none ∧ (s.freeMsg 0).unitRefusal m = none ∧ ((received m).freeMsg 0).unitRefusal m ≠ none ∧ (received m).heldHere m = none ∧
       m.object = 0 ∧ m.objectUnit = 0 ∧
       s.unitMode 0 0 { FlashObj.empty with type := 3, state := 1, length := 4096 } ≠ 3) ∧
    (∀ x ∈ [(0x20, 0x10), (0x20, 0x13), (0x21, 0x11), (0x21, 0x12), (0x22, 0x10)], let m := msgOf x.1 3 1 0
      let s := { received m with reqs := [reqOf x.2] }
      s.reqOf m = some (reqOf x.2) ∧ (reqOf x.2).type = x.2 ∧ s.msgAt 0 x.1 = some (17, m) ∧ bitsAt m.arg 0 16 ≤ 1) ∧
    (∀ type ∈ [0x40, 0x41], let m := msgOf type 3 (9 + 2 ^ 32) 0
      let r : Red := { redOf 0 none with rseq := 1, cls := 0 }
      let s := { received m with reds := [r] }
      s.inbox[0]? = some (17, m) ∧ s.reds.find? (fun r => decide (r.group = m.redGroup ∧ r.rseq = m.redSeq ∧ r.cls = m.redClass)) = some r ∧
        r.outcome = none) := by decide +kernel

/-- That state with registers and a membership as given. -/
def fellow (m : Msg) (regs : List (RF × Nat)) (f : Fellows) : State := { linked 6 0 ([(.lnkRoleEnable, 1)] ++ regs) with inbox := [(17, m)], fellows := f }

theorem witness_MembersJoinWatchAndKeepTime :
    (∀ n ∈ [0, 17], ∀ peer ∈ [12, 13], let s := withRegs home [(.lnkPortStatusState n, 4)]
      s.rd (.lnkPortStatusState n) = 4 ∧ s.rd (.lnkPortCtrlMode n) = 0 ∧ (5 : Nat) ≠ s.chipId ∧ 3 = s.chipId ∧
        (n < 14 ∧ (0 ≠ s.rd .lnkIdentPodId ∨ 0 ≠ s.rd .lnkIdentOctet ∨ 1 ≠ (s.rd .lnkIdentPosition + (n / 2 + 1)) % 8 ∨
          peer ≠ 2 * (7 - (n / 2 + 1)) + n % 2) ↔ n = 0 ∧ peer = 13)) ∧
    ({ home with reqs := [reqOf 0x10] }.reqs.find? (fun r => decide (r.tag = 9)) = some (reqOf 0x10)) ∧
    (home.barShut false = false ∧ (home.wr .lnkRoleTimeSrc 1).rd .lnkRoleTimeSrc = 1) ∧
    (let s := linked 6 0 [(.lnkRoleParent, 5)]
     s.timeParent = some 5 ∧ s.canRoute (s.message 0x54 1 5 0 0 s.dtime) = true) ∧
    (∀ a ∈ [0, 1], let m := msgOf 0x54 3 a 0
      let s := fellow m [(.lnkRoleParent, 5)] Fellows.reset
      s.msgAt 0 0x54 = some (17, m) ∧ m.dst = s.chipId ∧ bitsAt m.arg 0 8 = a ∧ s.timeParent = some m.src) := by
  decide +kernel

/-- The clauses of MembersJoinWatchAndKeepTime on a chip whose role is enabled. -/
theorem witness_members :
    (let s := fellow (msgOf 0x51 3 0 0) [(.lnkRoleParent, 5)] { Fellows.reset with members := [3] }
     s.rd .lnkRoleEnable = 1 ∧ s.rd .lnkRoleParent = 5 ∧ 5 ≠ noChip ∧ s.chipRole = roleWorker ∧ s.chipId ∈ s.fellows.members ∧
       s.canRoute (s.message 0x51 0 5 0 (s.rd .lnkViewViewId + s.chipRole * 2 ^ 32) 0) = true) ∧
    (∀ x ∈ [(roleManager, roleWorker), (roleManager, roleManager), (roleWorker, roleManager)],
      let m := msgOf 0x51 3 (1 + x.2 * 2 ^ 32) 0
      let s := fellow m [(.lnkRoleRole, x.1), (.lnkRoleParent, 5), (.lnkViewManager, noChip)] Fellows.reset
      s.msgAt 0 0x51 = some (17, m) ∧ m.dst = s.chipId ∧ s.chipRole = x.1 ∧ bitsAt m.arg 32 8 = x.2 ∧ s.rd .lnkViewViewId < bitsAt m.arg 0 32 ∧
        s.rd .lnkViewManager = noChip ∧ m.src = s.rd .lnkRoleParent) ∧
    (∀ a ∈ [1, 2], let m := msgOf 0x52 3 (a * 2 ^ 16) 0
      let s := fellow m [(.lnkRoleRole, roleManager)] Fellows.reset
      s.msgAt 0 0x52 = some (17, m) ∧ m.dst = s.chipId ∧ bitsAt m.arg 16 8 = a ∧ s.chipRole = roleManager ∧
        bitsAt m.arg 0 16 = s.rd .lnkIdentPodId ∧ (s.freeMsg 0).routePorts m.src ≠ [] ∧ s.fellows.members.length < 64 ∧
        s.fellows.members.contains m.src = false) ∧
    (let m := msgOf 0x53 3 (1 + 16 * 2 ^ 40) 0
     let s := fellow m [] Fellows.reset
     s.msgAt 0 0x53 = some (17, m) ∧ m.dst = s.chipId ∧ bitsAt m.arg 32 8 = 0 ∧ s.chipRole = roleWorker ∧ s.fellows.viewRx = [] ∧
       bitsAt m.arg 40 24 ≤ 16 * m.len ∧ s.rd .lnkViewViewId < bitsAt m.arg 0 32) ∧
    (∀ r ∈ [roleManager, roleWorker],
      let s := fellow (msgOf 0 3 0 0) [(.lnkRoleRole, r), (.lnkViewManager, 5), (.lnkRoleStandby, noChip)] { Fellows.reset with members := [3, 5], heard := [(5, 0)] }
      s.lastHeard 5 = some 0 ∧ s.chipRole = r ∧ 5 ∈ s.fellows.members ∧ s.rd .lnkViewManager = 5 ∧ s.rd .lnkRoleStandby ≠ s.chipId) := by
  decide +kernel

/-! ## Ethernet ports and reduction rings -/

theorem bytes_zero (s : State) (a n : Nat) (ha : a + n ≤ 0x010000000000) (h : ∀ p ∈ s.mem, p.1 < a) : s.bytes a n = List.replicate n 0 := by
  induction n generalizing a with
  | zero => rfl
  | succ n ih =>
    have hz : s.byte a = 0 := by
      have : areaOf a = .tier1 := by unfold areaOf; rw [if_pos (by omega)]
      unfold State.byte
      rw [this]
      exact get_beyond _ _ h
    rw [State.bytes, hz, ih (a + 1) (by omega) (fun p hp => Nat.lt_succ_of_lt (h p hp)), List.replicate_succ]

/-- Frames of 60 bytes of zeros; a ring of receive buffers and one of transmit descriptors of port 17, of partition 15: each with one
entry, at 0x5000 and 0x6000, for a buffer at 0x7000. -/
def ethHome (size : Nat) : State :=
  withMem (linked 6 1 [(.lnkPortCtrlPartition 17, 15), (.lnkEthRingABase 17 8, 0x5000), (.lnkEthRingAL 17 8, 4), (.lnkEthRingBTail 17 8, 1),
      (.lnkEthRingABase 17 7, 0x6000), (.lnkEthRingAL 17 7, 4), (.lnkEthRingBTail 17 7, 1)])
    [(0x5000, 16, bytesOf [(0, 6, 0x7000), (8, 2, size)]), (0x6000, 16, bytesOf [(0, 6, 0x7000), (8, 2, 60), (10, 1, 1)])]

/-- An entry of the reduction ring of partition 15: ALLREDUCE of the one element of the tensor whose descriptor is at 0x4000. -/
def redEntry : Nat := bytesOf [(0, 1, 0), (4, 4, 1), (8, 8, 0x4000), (16, 8, 0x4000), (24, 1, 255)]

/-- A device with the entry at 0x3000, that descriptor, and its trailer; its block, of zeros, is at 0x100000. -/
def redHome (rings : List (Nat × RedRing)) (reds : List Red) : State :=
  { withMem (withRegs home [(.dmaChDoorTail (redRingBase 15), 1), (.dmaChRingRingBase (redRingBase 15), 0x3000), (.dmaChRingL (redRingBase 15), 4)])
      [(0x3000, 64, redEntry), (0x4000, 64, bytesOf [(0, 6, 0x100000), (6, 2, 3), (14, 6, 0x5000), (28, 4, 1), (32, 4, 1), (36, 4, 1), (40, 4, 1),
        (44, 3, 1), (47, 3, 1), (50, 3, 1), (53, 3, 1), (56, 3, 1), (59, 1, 3)]), (0x5000, 16, bytesOf [(12, 1, 3)])] with
      redRings := rings, reds := reds }

/-- It with the entry taken, and not yet started. -/
def redTaken : State := redHome [(15, ⟨some redEntry, 0, false, none⟩)] []

/-- It when its wait is over. -/
def redReady : State := redTaken.setHeadWait (ringKey 15) .none

theorem redBlock : redReady.blockCheck (redReady.desc 0x4000) 0 = .ok := by
  have hz : redReady.bytes ((redReady.desc 0x4000).blockAddr 0) 4096 = List.replicate 4096 0 := by
    rw [show (redReady.desc 0x4000).blockAddr 0 = 0x100000 by decide +kernel]
    exact bytes_zero redReady 0x100000 4096 (by omega) (by decide +kernel)
  have hc : crc64 (redReady.bytes ((redReady.desc 0x4000).blockAddr 0) 4096) = 0 := by rw [hz]; exact crc64_zeros 4096
  unfold State.blockCheck State.blockAt
  rw [hc]
  decide +kernel

theorem redBlockFault_none (s : State) (p da t : Nat) (d : Desc) (h1 : (s.checkRange (.part p) (d.blockAddr t) 4096 false).1.code = none)
    (h2 : (s.checkRange (.part p) (d.trailerAddr t) 16 false).1.code = none) (h3 : anyMarked s.bad (d.blockAddr t) 4096 = false)
    (h4 : (s.poisoned (d.blockAddr t) 4096 || s.poisoned (d.trailerAddr t) 16) = false) (h5 : s.blockCheck d t = .ok) :
    s.redBlockFault p da d t = none := by
  unfold State.redBlockFault
  simp [h1, h2, h3, h4, h5, ifSome]

theorem redSourceFault_none (s : State) (p da : Nat) (hn : (s.desc da).nblk = 1) (h : s.redBlockFault p da (s.desc da) 0 = none) :
    s.redSourceFault p da = none := by
  unfold State.redSourceFault
  rw [hn, List.range_one, List.findSome?_cons, h]
  rfl

/-- The block of the source passes its check: its CRC-64 is that of zeros. -/
theorem witness_redSource : redReady.redSourceFault 15 0x4000 = none :=
  redSourceFault_none _ _ _ (by decide +kernel) (redBlockFault_none _ _ _ _ _ (by decide +kernel) (by decide +kernel) (by decide +kernel)
    (by decide +kernel) redBlock)

theorem witness_EthernetPortsAndReductionRingsRun :
    (let s := ethHome 60
     let f : List (BitVec 8) := List.replicate 60 0
     s.ethUp 17 = true ∧ s.rssRing 17 (s.rssHash 17 f) = 0 ∧ isPfc f = false ∧
       ((s.rxBuffers 17 8 16384 (s.rd (.lnkEthRingBHead 17 8)) 60).2 matches .found _) = true ∧
       (((ethHome 59).rxBuffers 17 8 16384 0 60).2 matches .short) = true) ∧
    (let s := ethHome 60
     let x := s.txDescs 17 7 16384 (s.rd (.lnkEthRingBHead 17 7))
     x.2 = some [bytesOf [(0, 6, 0x7000), (8, 2, 60), (10, 1, 1)]] ∧ Sparse.get 0 x.1.pfc (pfcKey 17 0) ≤ x.1.dtime ∧
       (x.1.txRead 17 [bytesOf [(0, 6, 0x7000), (8, 2, 60), (10, 1, 1)]]).2 = some (List.replicate 60 0)) ∧
    (home.barShut true = false ∧ tailBad 0 0 0 0 = false ∧ tailBad 0 2 0 0 = true) ∧
    (let s := redHome [] []
     let b := redRingBase 15
     (s.redRing 15).entry = none ∧ s.rd (.redPGroupStopped 15) = 0 ∧ s.rd (.dmaChDoorHead b) ≠ s.rd (.dmaChDoorTail b) ∧
       (s.redTake 15).headWait (ringKey 15) = .none ∧
       ({ withMem s [(0x3020, 4, bytesOf [(0, 1, 1), (2, 2, 65535)])] with sync := [(65535, ⟨0, objActive, 0, 15, 0, []⟩)] }.redTake 15).headWait (ringKey 15) =
         .waiting) ∧
    (let s := redTaken
     let u := redReady
     (s.redRing 15).entry = some redEntry ∧ s.headWait (ringKey 15) = .none ∧ (s.redRing 15).started = false ∧ (s.redRing 15).failed = none ∧
       (u.checkRange (.part 15) (reSrc redEntry) 64 false).1.code = none ∧ (u.checkRange (.part 15) (reDst redEntry) 64 false).1.code = none ∧
       u.redValid 15 redEntry = true) ∧
    (∀ o ∈ [none, some 0, some 3],
      let s := redHome [(15, ⟨some redEntry, 0, true, none⟩)] [redOf 0 o]
      (s.redRing 15).entry = some redEntry ∧ (s.redRing 15).failed = none ∧ (s.redRing 15).started = true ∧ s.red 15 0 = some (redOf 0 o) ∧
        (redOf 0 o).outcome = o) ∧
    (let s := redHome [(15, ⟨some redEntry, 0, false, some 1⟩)] []
     (s.redRing 15).entry = some redEntry ∧ (s.redRing 15).failed = some 1) := by decide +kernel

/-! ## The referee -/

/-- A boot in phase `n`, at a DTIME. -/
def bootAt (n dtime : Nat) : State := { State.reset.wr .refReadyPhase n with dtime := dtime }

theorem witness_BootsDugoutsAndResetsComplete :
    (let s := { State.reset with referee := { Referee.reset with power := false } }
     s.referee.entry = true ∧ s.referee.power = false ∧ s.referee.perst = false) ∧
    (∀ n ∈ [0, 2, 3, 5, 6, 7],
      let s := bootAt n (phaseLimit n * 1000000)
      let t := bootAt n (phaseLimit n * 1000000 + 1)
      s.booting = true ∧ s.rd .refReadyDugout = 0 ∧ s.rd .refReadyPhase = n ∧ s.dtime - s.referee.phaseAt ≤ phaseLimit n * 1000000 ∧
        t.booting = true ∧ t.rd .refReadyPhase = n ∧ t.dtime - t.referee.phaseAt > phaseLimit n * 1000000) ∧
    (let s := home.wr .refCtrlPerstFull 1
     s.referee.power = true ∧ s.rd .refReadyDugout = 0 ∧ s.referee.writing = false ∧ s.referee.resetDue = none ∧ throttleOf 623 = some (110, 125) ∧
       s.referee.perst = false ∧ s.referee.released = true ∧ s.rd .refCtrlPerstFull = 1) ∧
    ({ home with referee := { Referee.reset with perst := true } }.referee.perst = true) ∧
    (let r := { Referee.reset with writing := true }
     r.writing = true ∧ r.resetDue = none ∧ r.endPath = none) := by decide +kernel

/-- Channel 31 bound from partition 15's identity to hart 31's. -/
def mailHome : State := withRegs home [(⟨Reg.refFuseBind 4, 54, 10⟩, 18 + 31 * 32)]

theorem witness_MailboxesCarryMessages :
    (let s := mailHome
     s.barShut false = false ∧ s.mbxUsable 31 = true ∧ s.mbxSender 31 = 18 ∧ s.mbxReceiver 31 = 31 ∧ s.isPosted 31 = false ∧
       (s.wr (.mbxChCtrlGo 31) 1).isPosted 31 = true ∧ 3 ≠ s.mbxSender 31 ∧ 3 ≠ s.mbxReceiver 31 ∧ home.mbxUsable 31 = false) ∧
    (let s := home.setReg (Reg.mbxChMsg 0 0) 10
     s.mbxUsable 0 = true ∧ idPf = s.mbxSender 0 ∧ s.isPosted 0 = false ∧ reqKnown ((s.reg (Reg.mbxChMsg 0 0)).field 0 8) = true ∧
       reqKnown ((home.reg (Reg.mbxChMsg 0 0)).field 0 8) = false) := by decide +kernel

/-- A request on channel 0, with an argument. -/
def asked (s : State) (req arg : Nat) : State := (s.setReg (Reg.mbxChMsg 0 0) (BitVec.ofNat 64 (req + arg * 2 ^ 32))).wr (.mbxChCtrlGo 0) 1

/-- ROM recovery with an image session of a length open, or without one. -/
def recovering (session : Option Nat) : State := { State.reset.wr .refReadyRecovery 1 with referee := { Referee.reset with session := session } }

theorem witness_RequestsAreServedAndAnswered :
    (∀ req ∈ [1, 2, 3, 4, 5, 6, 7, 8, 9, 10], (asked home req 0).reqHere .channel0 req = true ∧ home.reqHere (.mctp 0 0 0) req = true) ∧
    (∀ b ∈ [(1, 8256), (2, 4096), (3, 4096)], let s := asked home 2 (b.1 * 2 ^ 24 + b.2 - 8)
      s.reqArg .channel0 / 2 ^ 24 = b.1 ∧ (s.buffer b.1).map (fun x => x.2) = some b.2 ∧ s.reqArg .channel0 % 2 ^ 24 % 8 = 0 ∧
        s.reqArg .channel0 % 2 ^ 24 < b.2 ∧ b.2 ≤ (asked home 2 (b.1 * 2 ^ 24 + b.2)).reqArg .channel0 % 2 ^ 24 ∧ s.rdBit .refReadyReady = true) ∧
    (State.reset.rdBit .refReadyReady = false ∧ home.permits .push = false ∧ (recovering none).permits .push = true) ∧
    (∀ n ∈ [12288, 12289, 1585152, 1585153], (asked (recovering none) 4 n).reqArg .channel0 = n) ∧
    (let s := asked (recovering (some 12289)) 5 12288
     s.referee.session = some 12289 ∧ s.permits .push = true ∧ s.reqArg .channel0 % 8 = 0 ∧ s.reqArg .channel0 < 12289 ∧
       s.stagedReason 12289 = some 9 ∧ s.rdBit .refReadyRecovery = true ∧ (recovering none).referee.session = none ∧ home.rdBit .refReadyRecovery = false) ∧
    (home.rd .refFwSvn ≤ 64) ∧
    (∀ f ∈ [(3, 0), (10, 0), (1, 0), (2, 0), (5, 3)], (f.1 = 3 ∨ f.1 = 10 ∨ (customerField f.1 f.2).isSome = true) ∧ home.referee.closed = false ∧
      home.fieldBlank f.1 f.2 = true ∧ (home.reqBody (.mctp 0 0 (f.1 + 256 * f.2))) = f.1 + 256 * f.2) := by decide +kernel

theorem witness_PlatformManagementIsAnswered :
    home.referee.power = true ∧ home.rdBit .refReadyRecovery = false ∧ home.rdBit .refReadyDugout = false ∧
    (home.wr .refReadyDugout 1).rdBit .refReadyDugout = true ∧ (pldmCommands 0).contains 63 = false ∧
    (∀ tries ∈ [2, 3], let e : PldmEvent := ⟨7, 0, 1, tries⟩
      { home with referee := { Referee.reset with platform := [e] } }.referee.platform.find? (fun e => decide (e.id = 7)) = some e) := by
  decide +kernel

/-! ## Power, the connector, debug -/

/-- A device with a mean of input and package power, at 12 V-class input, and a ceiling. -/
def powered (input package ceiling low : Nat) : State :=
  { withRegs home [(.pwrStatusVin, 5000), (.pwrStatusCeiling, ceiling)] with power := { home.power with samples := [(input, package)], low := low } }

theorem witness_PowerAndThermalControlRuns :
    (home.referee.power = true ∧ home.power.outside < 100 ∧ 3800 ≤ 3800 ∧ 6200 ≤ 6200 ∧ home.rd .pwrStatusDivided = 0) ∧
    (let cap := (powered 0 0 0 0).inputCap.1
     let pcap := home.rd .pwrCapPackageCap
     (∀ v ∈ [14, 15], let s := powered (cap + 1) pcap v 0
       s.powerMean = (cap + 1, pcap) ∧ s.inputCap.1 = cap ∧ s.rd .pwrStatusCeiling = v) ∧
     (let s := powered 0 0 1 9
      s.powerMean = (0, 0) ∧ 100 * 0 < 95 * cap ∧ 100 * 0 < 95 * pcap ∧ 9 ≤ s.power.low ∧ 0 < s.rd .pwrStatusCeiling) ∧
     (let s := powered cap 0 1 9
      s.powerMean.1 ≤ cap ∧ s.powerMean.2 ≤ pcap ∧ 100 * s.powerMean.1 ≥ 95 * cap)) ∧
    (tripOf [(625, some 2400)] = none ∧ tripOf [(625, none)] = none ∧ tripOf [(0, some (-640))] = none ∧ tripOf [(0, some 1760)] ≠ none) := by
  decide +kernel

theorem witness_MarginPlansRunAndTakeEffect :
    (home.barShut false = false ∧ home.rd .refReadyReady = 1 ∧ home.rd .mgnStatusBusy = 0 ∧ (home.wr .mgnStatusBusy 1).rd .mgnStatusBusy = 1) ∧
    (∀ ask ∈ [none, some 3], let s := { home with power := { home.power with planRun := some 1, planAsk := ask } }
      s.power.planRun = some 1 ∧ (s.applyPlan ⟨[], [], [], [], [], [], [], []⟩ 1).power.planAsk = ask) ∧
    (2 * (-1 : Int) < (home.rd .mgnThreshGuardPs : Int) ∧ (home.rd .mgnThreshGuardPs : Int) ≤ 2 * (1000 : Int)) := by decide +kernel

theorem witness_ConnectorsManagementBusAndPortConfigure :
    home.referee.power = true ∧ home.referee.cut.contains 17 = false ∧ home.referee.dynAddr = none := by decide +kernel

/-- Partition 15 in a state, with core 0 on die 0, a trace pool of one MiB there and a buffer in it. -/
def traced (state : Nat) (regs : List (RF × Nat)) (loaded : Bool) : State :=
  { withRegs base ([(.memT1MapInService 7, 2 ^ 64 - 1), (.hifPartStatusState 15, state)] ++ regs) with
      cores := [(255, { Core.reset with part := some 15 })], jobs := [(15, { Job.empty with loaded := loaded })] }

theorem witness_DebugAndTraceOperationsRun :
    base.barShut true = false ∧ base.barShut false = false ∧
    (let s := base.wr .refFwDbgOff 2
     bitAt (s.rd .refFwDbgOff) 1 = true ∧ bitAt (base.rd .refFwDbgOff) 1 = false ∧
       ∀ a ∈ [0x04, 0x40, 0x20, 0x27], dmiHeld (bitsAt (a + 128) 0 7) = true ∧ bitAt a 7 = false ∧ bitAt (a + 128) 7 = true) ∧
    (dmiHeld (bitsAt 0x7F 0 7) = false ∧ dmiHeld (bitsAt 0x28 0 7) = false) ∧
    (let s := traced 3 [] true
     let v := 0xE000000000 + 1024 * 2 ^ 48 + 2 ^ 59
     s.poolInUse 7 = false ∧ bitAt v 59 = true ∧ s.poolRefusal 7 (bitsAt v 0 48) (bitsAt v 48 11) = none ∧
       s.poolRefusal 7 (bitsAt (v + 2 ^ 48) 0 48) (bitsAt (v + 2 ^ 48) 48 11) = some 1 ∧ s.poolRefusal 7 (bitsAt (v + 1) 0 48) (bitsAt (v + 1) 48 11) = some 5 ∧
       (s.wr (.trcPBufMib 15 7) 1).poolInUse 7 = true) ∧
    (∀ st ∈ [2, 3, 4], let s := traced st [(.trcPBufMib 15 7, 1)] true
      s.rd (.trcPCtrlEnable 15) = 0 ∧ s.traceRefusal 15 1 = none ∧ s.traceRefusal 15 7 = some 3 ∧ 7 ∈ s.bufDies 15) ∧
    (traced 1 [] true).traceRefusal 15 1 = some 2 ∧
    (let s := traced 3 [(.trcPCtrlEnable 15, 1)] true
     s.rd (.trcPCtrlEnable 15) = 1 ∧ s.rd (.trcPTrigFired 15) = 0) ∧
    (∀ n ∈ [0, 7], (traced 3 [] true).rd (.trcPWatchAState 15 n) ≠ 1 ∧ (traced 3 [] true).watchRefusal 15 n = none ∧
      (traced 3 [] false).watchRefusal 15 n = some 2 ∧ (traced 3 [(.trcPWatchCDest 15 n, 1)] true).watchRefusal 15 n = some 5) ∧
    (let s := traced 3 [(.trcPPosState 15 7, 1), (.trcPCtrlPolicy 15, 1)] true
     s.bufDone 15 7 = true ∧ s.rd (.trcPPosState 15 7) = 1) ∧
    (let s := { traced 3 [(.trcPPosState 15 7, 2)] true with traceBufs := [(bufKey 15 7, ⟨0, some 0⟩)] }
     s.rd (.trcPPosState 15 7) = 2 ∧ s.bufDone 15 7 = true) := by decide +kernel

/-! ## Well-formedness -/

/-- For each check an operand just past the end of what there is, and beside it the last that there is. -/
theorem test_wf :
    (∀ c ∈ [Instr.arrLoad 256 [], .dmaXfer 0 4 [] 0, .commandRetire 0 64, .syncWaitTimeout 65536 0, .hartWait 32 0 0 0, .hartWait 0 65536 0 0,
        .hartWait 0 0 16 0, .hartWait 0 0 0 65536, .hartSignal 0 65536 0, .mapOutTakeEffect 3 0, .mapOutTakeEffect 1 8, .regionCreate true 256, .quotaLock 16,
        .flashChannelFail 16, .dmaPause 1088, .chipChannelEntry 64 [] 0, .chipChannelDoorbell ⟨17, 0, 0, 4⟩ 0, .cadFeedEnable 64, .windowRead 17 0 4,
        .windowEntryWrite true 128 0, .entryNop 32768, .completionPostResume 8192, .eventRingWrite true 17 0, .fingerprintRound (.copy 16),
        .fingerprintRound (.owner 16 []), .portDown 18 0, .portDown 0 8, .portBringupDone 0 none 16, .peerLostTimeout 65536, .ethRingTail true 0 16 0,
        .ethTransmitDone 0 8, .reductionTimeout 0 3, .refereePowerGood 32 false, .refFullReset 256, .mbxGo 32 0, .mbxGo 0 32, .mbxMsgWrite 0 0 16 0,
        .mbxAck 0 0 65536, .getTid 32, .setTid 0 256, .getSensorReading 0 65536, .clockPointStepDone 32, .thermalTrip 626 0, .tracePoolWrite 8 0,
        .traceBufferFull 0 8, .watchArm 0 8 0, .registerWrite (.vf 16) 0 8 0, .privilegedRead (.hart 32) 0 8, .synWaitersRead .pf 8 1,
        .bar0BlockTimeout (.agent 16) 0 8 false, .accessErrorRead (.bar4 17) 0 4, .accessErrorRead (.space (.vf 16)) 0 4, .atsInvalidation 0 1048577 0 1,
        .devicePowerStateWrite 17 (.power true)], c.wf = false) ∧
    (∀ c ∈ [Instr.arrLoad 255 [], .dmaXfer 255 3 [] 0, .commandRetire 255 63, .syncWaitTimeout 65535 0, .hartWait 31 65535 15 65535, .hartSignal 31 65535 65535,
        .mapOutTakeEffect 2 7, .regionCreate true 255, .quotaLock 15, .flashChannelFail 15, .dmaPause 1087, .chipChannelEntry 63 [] 0,
        .chipChannelDoorbell ⟨16, 0, 0, 4⟩ 0, .cadFeedEnable 63, .windowRead 16 0 4, .windowEntryWrite true 127 0, .entryNop 32767, .completionPostResume 8191,
        .eventRingWrite true 16 0, .fingerprintRound (.owner 15 []), .portDown 17 7, .portBringupDone 17 none 15, .peerLostTimeout 65535,
        .ethRingTail true 17 15 0, .ethTransmitDone 17 7, .reductionTimeout 15 2, .refereePowerGood 31 false, .refFullReset 255, .mbxMsgWrite 31 31 15 0,
        .mbxAck 31 31 65535, .setTid 31 255, .getSensorReading 31 65535, .clockPointStepDone 31, .thermalTrip 625 0, .tracePoolWrite 7 0, .traceBufferFull 15 7,
        .watchArm 15 7 0, .registerWrite (.vf 15) 0 8 0, .privilegedRead (.hart 31) 0 8, .synWaitersRead .pf 7 1, .bar0BlockTimeout (.agent 15) 0 8 false,
        .accessErrorRead (.bar4 16) 0 4, .atsInvalidation 0 1048576 0 1, .devicePowerStateWrite 16 (.power true)], c.wf = true) := by decide +kernel

/-! ## Values of the spec's worked examples -/

/-- R66: the CRC-64 of the nine bytes "123456789". -/
theorem test_crc64 : crc64 [0x31, 0x32, 0x33, 0x34, 0x35, 0x36, 0x37, 0x38, 0x39] = 0x6C40DF5F0B497347#64 := by decide +kernel

/-- Chapter 0: offset 0x100 of the UMP block of core 37 is BAR0 offset 0x024A_C100. Chapter 1: entry 1,000 of its scorebook is at
0x0E00_25C0_0FA0, and CD0 is four hops from CD7. -/
theorem test_places : Reg.umpCtrl 37 + 0x100 = 0x024AC100 ∧ coreWindow 37 + storeSize + 4 * 1000 = 0x0E0025C00FA0 ∧
    areaOf 0x0E0025C00FA0 = .book 37 ∧ hops 0 7 = 4 := by decide +kernel

/-- Chapter 2: the LIVE group in ZE4 whose largest value is 25.0 has the scale 0x7B; 400, 48, -12, 16 and 0.0008 in it (the values
times 16) have the codes 0x7C, 0x64, 0xD4, 0x58 and 0x00. -/
theorem test_ze4 :
    groupScale .ze4 [zf32 0x41C80000, zf32 0x40400000, zf32 0xBF400000, zf32 0x3F800000] 1 0 254 = 0x7B ∧
    [Val.ofInt 400, .ofInt 48, .ofInt (-12), .ofInt 16, zf32 0x3A51B717].map (fun v => (encodeElement .ze4 .nearest v 127 1 0).code) = [0x7C, 0x64, 0xD4, 0x58, 0x00] := by
  decide +kernel

/-- Chapter 2: 0x3FA6_6666 rounds stochastically to the ZB16 0x3FA7 with the bits 0x3A10, and to 0x3FA6 with 0x6666. -/
theorem test_stochastic : fmtZB16.round (.stochastic 0x3A10) (zf32 0x3FA66666) = 0x3FA7 ∧
    fmtZB16.round (.stochastic 0x6666) (zf32 0x3FA66666) = 0x3FA6 := by decide +kernel

/-- Chapter 6: one jump sample. -/
theorem test_jump :
    jumpTest ⟨0x40, 3, 16, 0x10000, 0x1000⟩ ⟨0, 0, 0, 40, 0, 688128, 16384, 737280⟩ 0x4B800000 =
      (⟨0, 0, 0, 41, 0, 700416, 26624, 786432⟩, ⟨true, false, false, some 786432⟩) := by decide +kernel

/-- Chapter 10: CPA 0x0100_0000_3A00 is on channel 39 of 128, and on channel 71 once channel 2 is out of the map; LIMIT. -/
theorem test_tier2 : (t2Decode (t2List (2 ^ 128 - 1)) 0x010000003A00).1 = 39 ∧ (t2Decode (t2List (2 ^ 128 - 1 - 4)) 0x010000003A00).1 = 71 ∧
    t2Limit 128 = 0x02F000000000 ∧ t2Limit 127 = 0x02EC00000000 := by decide +kernel

/-- Chapter 3: the slice of 1,536, 16,641 * 2^(-25) and -0.75 leaves 0x44BF_E804 in the entry. -/
theorem test_truncation :
    accumulateColumn 0 [⟨.fin, false, 24576, -4, 0, 0⟩, ⟨.fin, false, 16641, -25, 0, 0⟩, ⟨.fin, true, 24576, -15, 0, 0⟩] 1 0 = (0x44BFE804, false) := by
  decide +kernel

/-- Chapter 5: the residues of the elements of the example of a residue check. -/
theorem test_residues :
    umpRes false 8 1 = 16 ∧ umpRes false 1 (-9) = 4194304 ∧ umpRes false 12 2 = 48 ∧ umpRes false 8 (-2) = 2 ∧ umpRes false 8 (-3) = 1 ∧
      umpRes true 12 0 = umpP - 12 := by decide +kernel

/-! ## Single steps -/

/-- R302: an Unsupported Request in front of the queue is answered, and the rest of the queue waits. -/
theorem test_step_front :
    (match step { base with pending := [.pcieUnsupportedRequest, .heartbeatTimer] } with
      | .next t => decide (t.out = [.unsupported] ∧ t.pending = [.heartbeatTimer])
      | _ => false) = true := by decide +kernel

/-- R26: the physical function writes a register of the device, and the write shows in it alone. -/
theorem test_register_write :
    (match exec (.registerWrite .pf Reg.pwrCap 8 (3000 + 1500 * 2 ^ 16 + 2500 * 2 ^ 32)) { base with referee := { Referee.reset with linkUp := true } } with
      | .next t => decide (base.rd .pwrCapModuleCap = 3500 ∧ t.rd .pwrCapModuleCap = 3000 ∧ t.rd .pwrCapBoardCap = 1500)
      | _ => false) = true := by decide +kernel

end Sys2Proof.Tests
end

/-!
PROOFS. The statements of chapter 0: a step takes the front command (O1), every command completes (O3) and changes only its own
kinds of state (O7), and what the accesses of register space do (O9).
-/
namespace Sys2Proof.Machine

/-- Settles O1. -/
theorem stepTakesFrontCommand : Obligations.StepTakesFrontCommand := by
  intro s c rest h
  unfold step
  rw [h]

/-! ## From masks to lists of fields -/

/-- The mask of a list of fields. -/
def fieldMask (l : List Field) : Nat := l.foldr (fun f m => 2 ^ f.pos ||| m) 0

theorem allFields_pos (f : Field) : allFields[f.pos]? = some f := by cases f <;> rfl

theorem Field.pos_injective : Function.Injective Field.pos := fun f g h =>
  Option.some.inj (by rw [← allFields_pos f, ← allFields_pos g, h])

theorem testBit_fieldMask {f : Field} {l : List Field} (h : f ∉ l) : (fieldMask l).testBit f.pos = false := by
  induction l with
  | nil => exact Nat.zero_testBit _
  | cons g l ih =>
    have hg : f ≠ g := List.ne_of_not_mem_cons h
    have hl : f ∉ l := List.not_mem_of_not_mem_cons h
    show (2 ^ g.pos ||| fieldMask l).testBit f.pos = false
    rw [Nat.testBit_or, ih hl, Bool.or_false]
    exact Nat.testBit_two_pow_of_ne (fun e => hg (Field.pos_injective e.symm))

theorem Touches.onlyChanges {l : List Field} {s t : State} (h : Touches (fieldMask l) s t) : s.onlyChanges t l :=
  fun f hf => h.1 f (testBit_fieldMask hf)

/-! ## The frame of every command -/

/-- The mask that Laws/Touches*.lean gives a command lies within the fields that `Instr.changes` lists for it. -/
theorem exec_touches_changes (c : Instr) (s : State) : TouchesO (fieldMask (Instr.changes c)) s (exec c s) := by
  cases c with dsimp only [exec, Instr.changes]
  | registerWrite => exact execRegisterWrite_touches _ _ _ _ s (.lit rfl) (.refl s)
  | privilegedRead => exact execPrivilegedRead_touches _ _ _ s (.lit rfl) (.refl s)
  | synWaitersRead => exact execSynWaitersRead_touches _ _ _ s (.lit rfl) (.refl s)
  | arrLoad => exact execArrLoad_touches _ _ s (.lit rfl) (.refl s)
  | arrLoadDone => exact execArrLoadDone_touches _ s (.lit rfl) (.refl s)
  | arrFill => exact execArrFill_touches _ _ s (.lit rfl) (.refl s)
  | arrFillDone => exact execArrFillDone_touches _ s (.lit rfl) (.refl s)
  | arrSwap => exact execArrSwap_touches _ _ s (.lit rfl) (.refl s)
  | matstream => exact execMatstream_touches _ _ s (.lit rfl) (.refl s)
  | arbitrationDecided => exact execArbitrationDecided_touches _ _ _ _ _ _ s (.lit rfl) (.refl s)
  | sbkClear => exact execSbkClear_touches _ _ s (.lit rfl) (.refl s)
  | sbkDrain => exact execSbkDrain_touches _ _ s (.lit rfl) (.refl s)
  | sbkSpill => exact execSbkSpill_touches _ _ s (.lit rfl) (.refl s)
  | sbkRestore => exact execSbkRestore_touches _ _ s (.lit rfl) (.refl s)
  | cnvMatmul => exact execCnvMatmul_touches _ _ s (.lit rfl) (.refl s)
  | cnvProj => exact execCnvProj_touches _ _ s (.lit rfl) (.refl s)
  | cnvCorr => exact execCnvCorr_touches _ _ s (.lit rfl) (.refl s)
  | outBind => exact execOutBind_touches _ s (.lit rfl) (.refl s)
  | outMatstream => exact execOutMatstream_touches _ _ s (.lit rfl) (.refl s)
  | staBind => exact execStaBind_touches _ s (.lit rfl) (.refl s)
  | pfence => exact execPfence_touches _ s (.lit rfl) (.refl s)
  | stepEnd => exact execStepEnd_touches _ s (.lit rfl) (.refl s)
  | stepEndRetire => exact execStepEndRetire_touches _ s (.lit rfl) (.refl s)
  | pmkNop => exact execPmkNop_touches _ s (.lit rfl) (.refl s)
  | pmkJump => exact execPmkJump_touches _ s (.lit rfl) (.refl s)
  | pmkEnd => exact execPmkEnd_touches _ s (.lit rfl) (.refl s)
  | lfence => exact execLfence_touches _ s (.lit rfl) (.refl s)
  | vecEw => exact execVecEw_touches _ _ s (.lit rfl) (.refl s)
  | vecReduce => exact execVecReduce_touches _ _ s (.lit rfl) (.refl s)
  | optNorm => exact execOptNorm_touches _ _ s (.lit rfl) (.refl s)
  | optUpdate => exact execOptUpdate_touches _ _ s (.lit rfl) (.refl s)
  | dmaXfer => exact execDmaXfer_touches _ _ _ _ s (.lit rfl) (.refl s)
  | dmaGather => exact execDmaGather_touches _ _ _ s (.lit rfl) (.refl s)
  | invalidCommand => exact execInvalidCommand_touches _ s (.lit rfl) (.refl s)
  | commandRetire => exact execCommandRetire_touches _ _ s (.lit rfl) (.refl s)
  | segmentArrive => exact execSegmentArrive_touches _ s (.lit rfl) (.refl s)
  | fetchResponse => exact execFetchResponse_touches _ _ s (.lit rfl) (.refl s)
  | segmentComplete => exact execSegmentComplete_touches _ s (.lit rfl) (.refl s)
  | pmkHalt => exact execPmkHalt_touches _ s (.lit rfl) (.refl s)
  | pmkResume => exact execPmkResume_touches _ s (.lit rfl) (.refl s)
  | drainComplete => exact execDrainComplete_touches _ s (.lit rfl) (.refl s)
  | syncWait => exact execSyncWait_touches _ s (.lit rfl) (.refl s)
  | syncSignal => exact execSyncSignal_touches _ s (.lit rfl) (.refl s)
  | syncBroadcast => exact execSyncBroadcast_touches _ s (.lit rfl) (.refl s)
  | syncWaitTimeout => exact execSyncWaitTimeout_touches _ _ s (.lit rfl) (.refl s)
  | synInit => exact execSynInit_touches _ _ s (.lit rfl) (.refl s)
  | synSetCount => exact execSynSetCount_touches _ _ s (.lit rfl) (.refl s)
  | synSetState => exact execSynSetState_touches _ _ s (.lit rfl) (.refl s)
  | synCheck => exact execSynCheck_touches _ s (.lit rfl) (.refl s)
  | synRelease => exact execSynRelease_touches _ _ s (.lit rfl) (.refl s)
  | hartWait => exact execHartWait_touches _ _ _ _ s (.lit rfl) (.refl s)
  | hartSignal => exact execHartSignal_touches _ _ _ s (.lit rfl) (.refl s)
  | hartBroadcast => exact execHartBroadcast_touches _ _ _ s (.lit rfl) (.refl s)
  | hartCancel => exact execHartCancel_touches _ _ s (.lit rfl) (.refl s)
  | patrolScrub => exact execPatrolScrub_touches _ s (.lit rfl) (.refl s)
  | mapOutTakeEffect => exact execMapOutTakeEffect_touches _ _ s (.lit rfl) (.refl s)
  | regionCreate => exact execRegionCreate_touches _ _ s (.lit rfl) (.refl s)
  | regionSeal => exact execRegionSeal_touches _ _ s (.lit rfl) (.refl s)
  | regionFree => exact execRegionFree_touches _ _ s (.lit rfl) (.refl s)
  | quotaLock => exact execQuotaLock_touches _ s (.lit rfl) (.refl s)
  | t3Patrol => exact execT3Patrol_touches _ s (.lit rfl) (.refl s)
  | t3Relocate => exact execT3Relocate_touches _ _ s (.lit rfl) (.refl s)
  | flashChannelFail => exact execFlashChannelFail_touches _ s (.lit rfl) (.refl s)
  | dmaPause => exact execDmaPause_touches _ s (.lit rfl) (.refl s)
  | dmaPauseDrained => exact execDmaPauseDrained_touches _ s (.lit rfl) (.refl s)
  | dmaResume => exact execDmaResume_touches _ s (.lit rfl) (.refl s)
  | dmaAbort => exact execDmaAbort_touches _ s (.lit rfl) (.refl s)
  | dmaRestart => exact execDmaRestart_touches _ s (.lit rfl) (.refl s)
  | transferComplete => exact execTransferComplete_touches _ _ _ s (.lit rfl) (.refl s)
  | chipChannelDoorbell => exact execChipChannelDoorbell_touches _ _ s (.lit rfl) (.refl s)
  | chipChannelEntry => exact execChipChannelEntry_touches _ _ _ s (.lit rfl) (.refl s)
  | chipChannelEntryDone => exact execChipChannelEntryDone_touches _ s (.lit rfl) (.refl s)
  | cadFeedEnable => exact execCadFeedEnable_touches _ s (.lit rfl) (.refl s)
  | caddieLayerStart => exact execCaddieLayerStart_touches _ s (.lit rfl) (.refl s)
  | caddiePieceDone => exact execCaddiePieceDone_touches _ _ _ _ s (.lit rfl) (.refl s)
  | layerRelease => exact execLayerRelease_touches _ s (.lit rfl) (.refl s)
  | recoveryStepDone => exact execRecoveryStepDone_touches _ s (.lit rfl) (.refl s)
  | recoveryDeadline => exact execRecoveryDeadline_touches _ s (.lit rfl) (.refl s)
  | cadSupplyGo => exact execCadSupplyGo_touches _ s (.lit rfl) (.refl s)
  | cadSupplyDecline => exact execCadSupplyDecline_touches _ s (.lit rfl) (.refl s)
  | pcieUnsupportedRequest => exact execPcieUnsupportedRequest_touches s (.lit rfl) (.refl s)
  | windowRead => exact execWindowRead_touches _ _ _ s (.lit rfl) (.refl s)
  | windowWrite => exact execWindowWrite_touches _ _ _ _ s (.lit rfl) (.refl s)
  | windowEntryWrite => exact execWindowEntryWrite_touches _ _ _ s (.lit rfl) (.refl s)
  | hostFlagWrite => exact execHostFlagWrite_touches _ _ _ s (.lit rfl) (.refl s)
  | queueDoorbell => exact execQueueDoorbell_touches _ _ _ _ _ s (.lit rfl) (.refl s)
  | streamHeadWrite => exact execStreamHeadWrite_touches _ _ _ _ _ s (.lit rfl) (.refl s)
  | queueEnable => exact execQueueEnable_touches _ _ _ s (.lit rfl) (.refl s)
  | queueDisable => exact execQueueDisable_touches _ _ _ s (.lit rfl) (.refl s)
  | queueRestart => exact execQueueRestart_touches _ _ _ s (.lit rfl) (.refl s)
  | entrySegment => exact execEntrySegment_touches _ s (.lit rfl) (.refl s)
  | entryGrant => exact execEntryGrant_touches _ s (.lit rfl) (.refl s)
  | entryClaim => exact execEntryClaim_touches _ s (.lit rfl) (.refl s)
  | entrySignal => exact execEntrySignal_touches _ s (.lit rfl) (.refl s)
  | entrySeqCancel => exact execEntrySeqCancel_touches _ s (.lit rfl) (.refl s)
  | entryNop => exact execEntryNop_touches _ s (.lit rfl) (.refl s)
  | entryInvalid => exact execEntryInvalid_touches _ s (.lit rfl) (.refl s)
  | completionPostResume => exact execCompletionPostResume_touches _ s (.lit rfl) (.refl s)
  | msixHoldoffExpiry => exact execMsixHoldoffExpiry_touches _ _ s (.lit rfl) (.refl s)
  | eventRingWrite => exact execEventRingWrite_touches _ _ _ s (.lit rfl) (.refl s)
  | partitionCreate => exact execPartitionCreate_touches _ _ s (.lit rfl) (.refl s)
  | partitionLoad => exact execPartitionLoad_touches _ _ _ _ _ s (.lit rfl) (.refl s)
  | partitionRun => exact execPartitionRun_touches _ _ s (.lit rfl) (.refl s)
  | partitionSuspend => exact execPartitionSuspend_touches _ _ s (.lit rfl) (.refl s)
  | partitionSuspended => exact execPartitionSuspended_touches _ s (.lit rfl) (.refl s)
  | partitionResume => exact execPartitionResume_touches _ _ s (.lit rfl) (.refl s)
  | partitionEnd => exact execPartitionEnd_touches _ _ _ s (.lit rfl) (.refl s)
  | partitionRestart => exact execPartitionRestart_touches _ _ _ _ _ s (.lit rfl) (.refl s)
  | partitionDestroy => exact execPartitionDestroy_touches _ _ s (.lit rfl) (.refl s)
  | autoRestart => exact execAutoRestart_touches _ _ _ _ s (.lit rfl) (.refl s)
  | vfFlr => exact execVfFlr_touches _ _ s (.lit rfl) (.refl s)
  | pfFlr => exact execPfFlr_touches _ s (.lit rfl) (.refl s)
  | flrDrainTimeout => exact execFlrDrainTimeout_touches _ s (.lit rfl) (.refl s)
  | pgvEnable => exact execPgvEnable_touches _ s (.lit rfl) (.refl s)
  | governorPassStart => exact execGovernorPassStart_touches _ s (.lit rfl) (.refl s)
  | governorPassDecide => exact execGovernorPassDecide_touches _ s (.lit rfl) (.refl s)
  | optEnable => exact execOptEnable_touches _ s (.lit rfl) (.refl s)
  | optNormReduceStart => exact execOptNormReduceStart_touches _ s (.lit rfl) (.refl s)
  | optConstants => exact execOptConstants_touches _ s (.lit rfl) (.refl s)
  | ckptRequest => exact execCkptRequest_touches _ _ s (.lit rfl) (.refl s)
  | checkpointCaptureStart => exact execCheckpointCaptureStart_touches _ s (.lit rfl) (.refl s)
  | checkpointCaptureEnd => exact execCheckpointCaptureEnd_touches _ s (.lit rfl) (.refl s)
  | checkpointDrainDone => exact execCheckpointDrainDone_touches _ s (.lit rfl) (.refl s)
  | fingerprintRound => exact execFingerprintRound_touches _ s (.lit rfl) (.refl s)
  | fingerprintResult => exact execFingerprintResult_touches _ _ _ s (.lit rfl) (.refl s)
  | umpInjectArray => exact execUmpInjectArray_touches _ s (.lit rfl) (.refl s)
  | umpInjectChecksum => exact execUmpInjectChecksum_touches _ s (.lit rfl) (.refl s)
  | lnkIdentLock => exact execLnkIdentLock_touches _ s (.lit rfl) (.refl s)
  | portEnable => exact execPortEnable_touches _ _ _ s (.lit rfl) (.refl s)
  | portBringupDone => exact execPortBringupDone_touches _ _ _ s (.lit rfl) (.refl s)
  | portRetryTimer => exact execPortRetryTimer_touches _ s (.lit rfl) (.refl s)
  | portDown => exact execPortDown_touches _ _ s (.lit rfl) (.refl s)
  | retrainTimeout => exact execRetrainTimeout_touches _ s (.lit rfl) (.refl s)
  | flitReceive => exact execFlitReceive_touches _ _ _ s (.lit rfl) (.refl s)
  | ackTimer => exact execAckTimer_touches _ s (.lit rfl) (.refl s)
  | msgCredit => exact execMsgCredit_touches _ s (.lit rfl) (.refl s)
  | msgRdReq => exact execMsgRdReq_touches _ s (.lit rfl) (.refl s)
  | msgWr => exact execMsgWr_touches _ s (.lit rfl) (.refl s)
  | msgWrMasked => exact execMsgWrMasked_touches _ s (.lit rfl) (.refl s)
  | msgObjRdReq => exact execMsgObjRdReq_touches _ s (.lit rfl) (.refl s)
  | msgRdRsp => exact execMsgRdRsp_touches _ s (.lit rfl) (.refl s)
  | msgWrAck => exact execMsgWrAck_touches _ s (.lit rfl) (.refl s)
  | msgErrRsp => exact execMsgErrRsp_touches _ s (.lit rfl) (.refl s)
  | msgSignal => exact execMsgSignal_touches _ s (.lit rfl) (.refl s)
  | msgRedPart => exact execMsgRedPart_touches _ _ s (.lit rfl) (.refl s)
  | msgRedResult => exact execMsgRedResult_touches _ _ s (.lit rfl) (.refl s)
  | msgHello => exact execMsgHello_touches _ _ _ _ _ _ s (.lit rfl) (.refl s)
  | msgHeartbeat => exact execMsgHeartbeat_touches _ s (.lit rfl) (.refl s)
  | msgJoin => exact execMsgJoin_touches _ s (.lit rfl) (.refl s)
  | msgView => exact execMsgView_touches _ _ _ s (.lit rfl) (.refl s)
  | msgTime => exact execMsgTime_touches _ _ s (.lit rfl) (.refl s)
  | lnkRequestTimeout => exact execLnkRequestTimeout_touches _ s (.lit rfl) (.refl s)
  | heartbeatTimer => exact execHeartbeatTimer_touches s (.lit rfl) (.refl s)
  | peerLostTimeout => exact execPeerLostTimeout_touches _ s (.lit rfl) (.refl s)
  | timeSyncTimer => exact execTimeSyncTimer_touches s (.lit rfl) (.refl s)
  | timeAdjWrite => exact execTimeAdjWrite_touches _ _ s (.lit rfl) (.refl s)
  | ethFrameReceive => exact execEthFrameReceive_touches _ _ _ s (.lit rfl) (.refl s)
  | ethRingTail => exact execEthRingTail_touches _ _ _ _ s (.lit rfl) (.refl s)
  | ethTransmitDone => exact execEthTransmitDone_touches _ _ s (.lit rfl) (.refl s)
  | redGroupWrite => exact execRedGroupWrite_touches _ _ _ s (.lit rfl) (.refl s)
  | redRestart => exact execRedRestart_touches _ _ s (.lit rfl) (.refl s)
  | redDoorbell => exact execRedDoorbell_touches _ _ _ s (.lit rfl) (.refl s)
  | redEntry => exact execRedEntry_touches _ s (.lit rfl) (.refl s)
  | redEntryDone => exact execRedEntryDone_touches _ s (.lit rfl) (.refl s)
  | reductionTimeout => exact execReductionTimeout_touches _ _ s (.lit rfl) (.refl s)
  | refereePowerGood => exact execRefereePowerGood_touches _ _ s (.lit rfl) (.refl s)
  | bootPhaseDone => exact execBootPhaseDone_touches _ _ s (.lit rfl) (.refl s)
  | bootPhaseTimeout => exact execBootPhaseTimeout_touches s (.lit rfl) (.refl s)
  | watchdogExpiry => exact execWatchdogExpiry_touches s (.lit rfl) (.refl s)
  | railFault => exact execRailFault_touches _ s (.lit rfl) (.refl s)
  | refFullReset => exact execRefFullReset_touches _ s (.lit rfl) (.refl s)
  | refRailsOff => exact execRefRailsOff_touches _ s (.lit rfl) (.refl s)
  | perstAssert => exact execPerstAssert_touches _ s (.lit rfl) (.refl s)
  | perstRelease => exact execPerstRelease_touches s (.lit rfl) (.refl s)
  | bar0BlockTimeout => exact execBar0BlockTimeout_touches _ _ _ _ s (.lit rfl) (.refl s)
  | bootAreaWriteDone => exact execBootAreaWriteDone_touches _ s (.lit rfl) (.refl s)
  | mbxMsgWrite => exact execMbxMsgWrite_touches _ _ _ _ s (.lit rfl) (.refl s)
  | mbxGo => exact execMbxGo_touches _ _ s (.lit rfl) (.refl s)
  | mbxAck => exact execMbxAck_touches _ _ _ s (.lit rfl) (.refl s)
  | status => exact execStatus_touches _ s (.lit rfl) (.refl s)
  | read => exact execRead_touches _ s (.lit rfl) (.refl s)
  | attest => exact execAttest_touches _ s (.lit rfl) (.refl s)
  | imageBegin => exact execImageBegin_touches _ s (.lit rfl) (.refl s)
  | imageData => exact execImageData_touches _ s (.lit rfl) (.refl s)
  | imageEnd => exact execImageEnd_touches _ s (.lit rfl) (.refl s)
  | reset => exact execReset_touches _ s (.lit rfl) (.refl s)
  | railsOff => exact execRailsOff_touches _ s (.lit rfl) (.refl s)
  | svnCommit => exact execSvnCommit_touches _ _ s (.lit rfl) (.refl s)
  | provision => exact execProvision_touches _ _ s (.lit rfl) (.refl s)
  | spdmRequest => exact execSpdmRequest_touches _ _ _ s (.lit rfl) (.refl s)
  | getTid => exact execGetTid_touches _ s (.lit rfl) (.refl s)
  | setTid => exact execSetTid_touches _ _ s (.lit rfl) (.refl s)
  | getPldmVersion => exact execGetPldmVersion_touches _ _ s (.lit rfl) (.refl s)
  | getPldmTypes => exact execGetPldmTypes_touches _ s (.lit rfl) (.refl s)
  | getPldmCommands => exact execGetPldmCommands_touches _ _ s (.lit rfl) (.refl s)
  | setEventReceiver => exact execSetEventReceiver_touches _ _ _ s (.lit rfl) (.refl s)
  | getSensorReading => exact execGetSensorReading_touches _ _ s (.lit rfl) (.refl s)
  | getStateSensorReadings => exact execGetStateSensorReadings_touches _ _ s (.lit rfl) (.refl s)
  | setNumericEffecterValue => exact execSetNumericEffecterValue_touches _ _ _ s (.lit rfl) (.refl s)
  | getNumericEffecterValue => exact execGetNumericEffecterValue_touches _ _ s (.lit rfl) (.refl s)
  | getPdrRepositoryInfo => exact execGetPdrRepositoryInfo_touches _ s (.lit rfl) (.refl s)
  | getPdr => exact execGetPdr_touches _ _ s (.lit rfl) (.refl s)
  | pldmUnsupported => exact execPldmUnsupported_touches _ _ _ s (.lit rfl) (.refl s)
  | pldmEventRetry => exact execPldmEventRetry_touches _ _ s (.lit rfl) (.refl s)
  | powerSample => exact execPowerSample_touches _ _ _ _ s (.lit rfl) (.refl s)
  | powerControlTick => exact execPowerControlTick_touches s (.lit rfl) (.refl s)
  | pwrcapInput => exact execPwrcapInput_touches _ s (.lit rfl) (.refl s)
  | clockPointStepDone => exact execClockPointStepDone_touches _ s (.lit rfl) (.refl s)
  | thermalTick => exact execThermalTick_touches _ s (.lit rfl) (.refl s)
  | thermalTrip => exact execThermalTrip_touches _ _ s (.lit rfl) (.refl s)
  | mgnReplan => exact execMgnReplan_touches s (.lit rfl) (.refl s)
  | replanInterval => exact execReplanInterval_touches s (.lit rfl) (.refl s)
  | replanDone => exact execReplanDone_touches _ s (.lit rfl) (.refl s)
  | marginMonitorTick => exact execMarginMonitorTick_touches _ s (.lit rfl) (.refl s)
  | inputPowerUp => exact execInputPowerUp_touches s (.lit rfl) (.refl s)
  | inputPowerLoss => exact execInputPowerLoss_touches s (.lit rfl) (.refl s)
  | cablePowerFault => exact execCablePowerFault_touches _ s (.lit rfl) (.refl s)
  | dmiOperation => exact execDmiOperation_touches _ _ _ _ s (.lit rfl) (.refl s)
  | tracePoolWrite => exact execTracePoolWrite_touches _ _ s (.lit rfl) (.refl s)
  | traceEnable => exact execTraceEnable_touches _ _ s (.lit rfl) (.refl s)
  | traceDisable => exact execTraceDisable_touches _ _ s (.lit rfl) (.refl s)
  | traceForce => exact execTraceForce_touches _ s (.lit rfl) (.refl s)
  | traceBufferFull => exact execTraceBufferFull_touches _ _ s (.lit rfl) (.refl s)
  | watchArm => exact execWatchArm_touches _ _ _ s (.lit rfl) (.refl s)
  | serviceCoreMemoryAccess => exact execServiceCoreMemoryAccess_touches _ _ _ _ s (.lit rfl) (.refl s)
  | accessErrorRead => exact execAccessErrorRead_touches _ _ _ s (.lit rfl) (.refl s)
  | mbxDeniedRead => exact execMbxDeniedRead_touches _ _ s (.lit rfl) (.refl s)
  | uncorrectableControlState => exact execUncorrectableControlState_touches _ s (.lit rfl) (.refl s)
  | refereeSramError => exact execRefereeSramError_touches _ _ s (.lit rfl) (.refl s)
  | mctpControlMessage => exact execMctpControlMessage_touches _ _ _ _ s (.lit rfl) (.refl s)
  | dynamicAddressAssignment => exact execDynamicAddressAssignment_touches _ _ _ s (.lit rfl) (.refl s)
  | atsInvalidation => exact execAtsInvalidation_touches _ _ _ _ s (.lit rfl) (.refl s)
  | doeDiscovery => exact execDoeDiscovery_touches _ s (.lit rfl) (.refl s)
  | devicePowerStateWrite => exact execDevicePowerStateWrite_touches _ _ s (.lit rfl) (.refl s)

/-- Settles O7: the frame of each command, read as a list of fields. -/
theorem commandsChangeOnlyTheirOwnState : Obligations.CommandsChangeOnlyTheirOwnState :=
  fun c s t h => (exec_touches_changes c s t h).onlyChanges

/-! ## Every command completes (R5) -/

/-- The outcome is a next state. -/
def Completes (o : Host.Outcome State Fault Refusal) : Prop := ∃ t, o = .next t

theorem Completes.next {t : State} : Completes (.next t) := ⟨t, rfl⟩

theorem Completes.ite {p : Prop} [Decidable p] {a b : Host.Outcome State Fault Refusal} (ha : Completes a) (hb : Completes b) :
    Completes (if p then a else b) := by
  split
  · exact ha
  · exact hb

theorem Completes.ifSome {α : Type} {o : Option α} {f : α → Host.Outcome State Fault Refusal} {g : Host.Outcome State Fault Refusal}
    (hf : ∀ x, Completes (f x)) (hg : Completes g) : Completes (ifSome o f g) := by
  cases o with
  | none => exact hg
  | some x => exact hf x

/-- Every branch of a command's meaning ends in a next state. The commands stand by the shape of their meaning: one next state,
one or a few conditions (a gate, a refusal) in front of it, or a search or a decoded operand in front of it. -/
theorem exec_completes (c : Instr) (s : State) : Completes (exec c s) := by
  cases c with
  | registerWrite | privilegedRead | synWaitersRead | arrLoad | arrFill | arrSwap | matstream | sbkClear | sbkDrain
  | sbkSpill | sbkRestore | cnvMatmul | cnvProj | cnvCorr | outBind | outMatstream | staBind | pfence | pmkNop | pmkJump
  | vecEw | vecReduce | optNorm | dmaXfer | dmaGather | drainComplete | syncSignal | syncBroadcast | syncWaitTimeout
  | patrolScrub | t3Patrol | pcieUnsupportedRequest | entrySegment | entryGrant | entryClaim | entrySignal | entrySeqCancel
  | entryNop | completionPostResume | pfFlr | portDown | msgRdReq | msgWr | msgWrMasked | msgRdRsp | msgWrAck | msgErrRsp
  | msgSignal | msgRedPart | msgRedResult | msgHeartbeat | msgJoin | msgView | railFault | refFullReset | refRailsOff
  | status | read | attest | imageBegin | reset | railsOff | svnCommit | getTid | getPldmTypes | getPdrRepositoryInfo
  | inputPowerUp | inputPowerLoss | uncorrectableControlState | atsInvalidation =>
    exact .next
  | pmkHalt | pmkResume | synInit | synSetCount | synSetState | synCheck | synRelease | hartWait | hartSignal
  | hartBroadcast | hartCancel | regionCreate | regionSeal | regionFree | flashChannelFail | dmaPause | dmaResume
  | caddieLayerStart | queueEnable | queueDisable | queueRestart | partitionCreate | partitionLoad | partitionRun
  | partitionSuspend | partitionResume | partitionEnd | partitionRestart | partitionDestroy | pgvEnable | optEnable
  | umpInjectArray | umpInjectChecksum | portEnable | ackTimer | ethRingTail | redGroupWrite | redRestart | redDoorbell
  | refereePowerGood | bootPhaseTimeout | perstRelease | provision | spdmRequest | setTid | getPldmVersion | getPldmCommands
  | setEventReceiver | getSensorReading | getStateSensorReadings | getNumericEffecterValue | getPdr | powerSample
  | pwrcapInput | thermalTick | mgnReplan | replanInterval | marginMonitorTick | cablePowerFault | traceForce
  | traceBufferFull | doeDiscovery =>
    exact .ite .next .next
  | dmaRestart | vfFlr | portRetryTimer | heartbeatTimer | pldmUnsupported | powerControlTick | clockPointStepDone
  | traceDisable | mbxDeniedRead | refereeSramError | dynamicAddressAssignment =>
    exact .ite .next (.ite .next .next)
  | ckptRequest | lnkIdentLock | portBringupDone | msgHello | timeAdjWrite | bootPhaseDone | perstAssert | mbxMsgWrite
  | mbxAck | setNumericEffecterValue =>
    exact .ite .next (.ite .next (.ite .next .next))
  | autoRestart =>
    exact .ite .next (.ite (.ite .next .next) .next)
  | chipChannelDoorbell | windowEntryWrite | hostFlagWrite | eventRingWrite =>
    exact .ite .next (.ite .next (.ite .next (.ite .next .next)))
  | arrLoadDone | arrFillDone | commandRetire | layerRelease | fingerprintRound | retrainTimeout | msgCredit
  | lnkRequestTimeout | timeSyncTimer | imageData | imageEnd | accessErrorRead =>
    dsimp only [exec,
      execArrLoadDone, execArrFillDone, execCommandRetire, execLayerRelease, execFingerprintRound, execRetrainTimeout,
      execMsgCredit, execLnkRequestTimeout, execTimeSyncTimer, execImageData, execImageEnd, execAccessErrorRead]
    split <;> exact .next
  | arbitrationDecided | stepEnd | stepEndRetire | pmkEnd | lfence | optUpdate | invalidCommand | segmentArrive
  | fetchResponse | segmentComplete | syncWait | mapOutTakeEffect | quotaLock | t3Relocate | dmaPauseDrained | dmaAbort
  | transferComplete | chipChannelEntry | chipChannelEntryDone | cadFeedEnable | caddiePieceDone | recoveryStepDone
  | recoveryDeadline | cadSupplyGo | cadSupplyDecline | windowRead | windowWrite | queueDoorbell | streamHeadWrite
  | entryInvalid | msixHoldoffExpiry | partitionSuspended | flrDrainTimeout | governorPassStart | governorPassDecide
  | optNormReduceStart | optConstants | checkpointCaptureStart | checkpointCaptureEnd | checkpointDrainDone
  | fingerprintResult | flitReceive | msgObjRdReq | msgTime | peerLostTimeout | ethFrameReceive | ethTransmitDone | redEntry
  | redEntryDone | reductionTimeout | watchdogExpiry | bar0BlockTimeout | bootAreaWriteDone | mbxGo | pldmEventRetry
  | thermalTrip | replanDone | dmiOperation | tracePoolWrite | traceEnable | watchArm | serviceCoreMemoryAccess
  | mctpControlMessage | devicePowerStateWrite =>
    dsimp only [exec,
      execArbitrationDecided, execStepEnd, execStepEndRetire, execPmkEnd, execLfence, execOptUpdate, execInvalidCommand,
      execSegmentArrive, execFetchResponse, execSegmentComplete, execSyncWait, execMapOutTakeEffect, execQuotaLock,
      execT3Relocate, execDmaPauseDrained, execDmaAbort, execTransferComplete, execChipChannelEntry,
      execChipChannelEntryDone, execCadFeedEnable, execCaddiePieceDone, execRecoveryStepDone, execRecoveryDeadline,
      execCadSupplyGo, execCadSupplyDecline, execWindowRead, execWindowWrite, execQueueDoorbell, execStreamHeadWrite,
      execEntryInvalid, execMsixHoldoffExpiry, execPartitionSuspended, execFlrDrainTimeout, execGovernorPassStart,
      execGovernorPassDecide, execOptNormReduceStart, execOptConstants, execCheckpointCaptureStart,
      execCheckpointCaptureEnd, execCheckpointDrainDone, execFingerprintResult, execFlitReceive, execMsgObjRdReq,
      execMsgTime, execPeerLostTimeout, execEthFrameReceive, execEthTransmitDone, execRedEntry, execRedEntryDone,
      execReductionTimeout, execWatchdogExpiry, execBar0BlockTimeout, execBootAreaWriteDone, execMbxGo,
      execPldmEventRetry, execThermalTrip, execReplanDone, execDmiOperation, execTracePoolWrite, execTraceEnable,
      execWatchArm, execServiceCoreMemoryAccess, execMctpControlMessage, execDevicePowerStateWrite]
    repeat' first
      | with_reducible exact .next
      | with_reducible refine .ifSome (fun _ => ?_) ?_
      | split

/-- Settles O3: every branch of every meaning is a next state, and the frame of `exec` leaves the queue out. -/
theorem everyCommandCompletes : Obligations.EveryCommandCompletes := by
  intro c s
  obtain ⟨t, ht⟩ := exec_completes c s
  exact ⟨t, ht, (exec_touches c s (.refl _) (.refl s) t ht).1 .pending rfl⟩

section
variable (s : State)

@[simp] theorem State.reg_reply (v : Option Nat) (a : Nat) : (s.reply v).reg a = s.reg a := rfl
@[simp] theorem State.out_reply (v : Option Nat) : (s.reply v).out = s.out ++ [.readReply v] := rfl

/-! ## Accesses of register space (R7, R363, R416, R428) -/

theorem accessOk_le {a n : Nat} (h : accessOk a n = true) : n ≤ 8 := by
  simp only [accessOk, decide_eq_true_eq] at h
  omega

/-- R428: an access of at most 8 bytes, and any access of a function, is not divided into words. -/
theorem State.wideWrite_whole {m : Master} {a n : Nat} (v : Nat) (h : n ≤ 8 ∨ divides m = false) :
    s.wideWrite m a n v = s.busWrite m a n v := by
  unfold State.wideWrite
  rw [if_pos (by simpa using h)]

theorem State.wideRead_whole {m : Master} {a n : Nat} (h : n ≤ 8 ∨ divides m = false) :
    s.wideRead m a n = s.busRead m a n := by
  unfold State.wideRead
  rw [if_pos (by simpa using h)]

theorem State.busReply_whole {m : Master} {a n : Nat} (hb : s.busAsleep m = false) (h : n ≤ 8 ∨ divides m = false) :
    s.busReply m a n = (s.busRead m a n).1.reply (some (s.busRead m a n).2) := by
  unfold State.busReply
  rw [if_neg (by simp [hb]), s.wideRead_whole h]

theorem State.busWrite_misfit {m : Master} {a n : Nat} (v : Nat) (hp : s.referee.power = true) (hb : s.busAsleep m = false)
    (h : accessOk a n = false) : s.busWrite m a n v = s.count (Reg.hifCnt 0) 1 := by
  unfold State.busWrite
  rw [if_neg (by simp [hp]), if_neg (by simp [hb]), if_pos h]

theorem State.busRead_misfit {m : Master} {a n : Nat} (hp : s.referee.power = true) (h : accessOk a n = false) :
    s.busRead m a n = (s.count (Reg.hifCnt 0) 1, onesOf n) := by
  unfold State.busRead
  rw [if_neg (by simp [hp]), if_pos h]

/-- A read of the right size reaches its block once the device has power and is READY and the block answers. -/
theorem State.busRead_block {m : Master} {a n : Nat} (hp : s.referee.power = true) (h : accessOk a n = true)
    (hr : s.rdBit .refReadyReady = true) (hw : s.isWedged a = false) (hm : ∀ p, m ≠ .vf p) (hd : m = .pf ∨ a / 8 * 8 ≠ Reg.trcDmi) :
    s.busRead m a n = s.blockRead m a n := by
  unfold State.busRead
  rw [if_neg (by simp [hp]), if_neg (by simp [h]), if_neg (by simp [hr])]
  cases m with
  | vf p => exact absurd rfl (hm p)
  | _ =>
    dsimp only
    rw [if_neg (by simp [hw]), if_neg (fun h => hd.elim h.1 (· h.2))]

/-- A read that no mailbox right and no privilege denies returns what the register shows (R416). -/
theorem State.blockRead_plain {m : Master} {a n : Nat} (hx : mbxChannelOf a = none) (hm : s.mayRead m (a / 8 * 8) = true)
    (hs : a / 8 * 8 ≠ Reg.synWaiters) : s.blockRead m a n = (s, halfOf (s.view (a / 8 * 8)) a n) := by
  unfold State.blockRead
  simp only [hx]
  rw [if_neg (by simp [hm]), if_neg (fun h => hs h.1)]

/-- A read that R416 denies returns zero. -/
theorem State.blockRead_denied {m : Master} {a n : Nat} (hx : mbxChannelOf a = none) (hm : s.mayRead m (a / 8 * 8) = false) :
    s.blockRead m a n = (s.privDenied (s.masterId m) (s.masterPart m) (a / 8 * 8), 0) := by
  unfold State.blockRead
  simp only [hx]
  rw [if_pos hm]

theorem State.mayRead_pf (a : Nat) : s.mayRead .pf a = true := by
  unfold State.mayRead
  rfl

/-- A read of SYN_WAITERS clears PEAK (R11). -/
theorem State.blockRead_synWaiters (n : Nat) :
    s.blockRead .pf Reg.synWaiters n = (s.wr .synWaitersPeak 0, halfOf (s.view Reg.synWaiters) Reg.synWaiters n) := by
  have hx : mbxChannelOf Reg.synWaiters = none := by decide
  have hr : Reg.synWaiters / 8 * 8 = Reg.synWaiters := by decide
  unfold State.blockRead
  simp only [hx, hr]
  rw [if_neg (by simp [s.mayRead_pf]), if_pos ⟨trivial, by decide⟩]

theorem State.view_synWaiters : s.view Reg.synWaiters = (s.reg Reg.synWaiters).setField 0 15 s.waitersUsed := by
  unfold State.view State.viewChip
  rw [if_pos (by decide), if_neg (by decide), if_pos rfl]

theorem bitsAt_toNat (w : Word) : bitsAt w.toNat 0 64 = w.toNat := by
  unfold bitsAt
  rw [Nat.shiftRight_zero]
  exact Nat.mod_eq_of_lt w.isLt

theorem halfOf_whole (w : Word) {a : Nat} (h : a % 8 = 0) : halfOf w a 8 = w.toNat := by
  rw [halfOf, h]
  exact bitsAt_toNat w

theorem State.reg_privEvent (id : Nat) (part : Option Nat) (a b : Nat) : (s.privEvent id part a).reg b = s.reg b := by
  unfold State.privEvent
  split <;> rfl

theorem State.out_privEvent (id : Nat) (part : Option Nat) (a : Nat) : (s.privEvent id part a).out = s.out := by
  unfold State.privEvent
  split <;> rfl

theorem State.wideWrite_misfit {m : Master} {a n : Nat} (v : Nat) (hp : s.referee.power = true) (hb : s.busAsleep m = false)
    (h : accessOk a n = false) (hn : n ≤ 8 ∨ m = .pf) : s.wideWrite m a n v = s.count (Reg.hifCnt 0) 1 := by
  rw [s.wideWrite_whole v (hn.imp_right (by rintro rfl; rfl)), s.busWrite_misfit v hp hb h]

theorem State.busReply_misfit {m : Master} {a n : Nat} (hp : s.referee.power = true) (hb : s.busAsleep m = false)
    (h : accessOk a n = false) (hn : n ≤ 8 ∨ m = .pf) :
    s.busReply m a n = (s.count (Reg.hifCnt 0) 1).reply (some (onesOf n)) := by
  rw [s.busReply_whole hb (hn.imp_right (by rintro rfl; rfl)), s.busRead_misfit hp h]

/-! ### Accesses of another size or alignment (R7) -/

theorem exec_registerWrite_misfit {who : Master} {off n : Nat} (v : Nat) (hp : s.referee.power = true) (hb : s.busAsleep who = false)
    (ha : accessOk off n = false) (hn : n ≤ 8 ∨ who = .pf) :
    ∃ t, exec (.registerWrite who off n v) s = .next t ∧ t = s.count (Reg.hifCnt 0) 1 :=
  ⟨_, rfl, s.wideWrite_misfit v hp hb ha hn⟩

theorem exec_accessErrorRead_misfit {who : Master} {off n : Nat} (hp : s.referee.power = true) (hb : s.busAsleep who = false)
    (ha : accessOk off n = false) (hn : n ≤ 8 ∨ who = .pf) :
    ∃ t, exec (.accessErrorRead (.space who) off n) s = .next t ∧ t.out = s.out ++ [.readReply (some (256 ^ n - 1))] ∧
      t.reg (Reg.hifCnt 0) = (s.count (Reg.hifCnt 0) 1).reg (Reg.hifCnt 0) ∧ s.regsBut t [Reg.hifCnt 0] := by
  refine ⟨_, congrArg Host.Outcome.next (s.busReply_misfit hp hb ha hn), ?_, State.reg_reply .., fun a ha => ?_⟩
  · rw [State.out_reply, State.out_count]
    rfl
  · rw [State.reg_reply, s.reg_count_ne 1 (List.ne_of_not_mem_cons ha).symm]

/-! ### Privileged reads (R416) and SYN_WAITERS (R11) -/

theorem exec_privilegedRead_granted {h off n : Nat} (hp : s.referee.power = true) (ha : accessOk off n = true)
    (hr : s.rdBit .refReadyReady = true) (hw : s.isWedged off = false) (hx : mbxChannelOf off = none)
    (hd : off / 8 * 8 ≠ Reg.trcDmi) (hs : off / 8 * 8 ≠ Reg.synWaiters) (hm : s.mayRead (.hart h) (off / 8 * 8) = true) :
    ∃ t, exec (.privilegedRead (.hart h) off n) s = .next t ∧
        t.out = s.out ++ [.readReply (some (bitsAt (s.view (off / 8 * 8)).toNat (8 * (off % 8)) (8 * n)))] ∧ s.onlyChanges t [.out] := by
  have e : s.busReply (.hart h) off n = s.reply (some (halfOf (s.view (off / 8 * 8)) off n)) := by
    rw [s.busReply_whole rfl (.inl (accessOk_le ha)), s.busRead_block hp ha hr hw (by simp) (.inr hd), s.blockRead_plain hx hm hs]
  exact ⟨_, congrArg Host.Outcome.next e, rfl, (State.reply_touches s _ (.lit rfl) (.refl s)).onlyChanges⟩

theorem exec_privilegedRead_denied {h off n : Nat} (hp : s.referee.power = true) (ha : accessOk off n = true)
    (hr : s.rdBit .refReadyReady = true) (hw : s.isWedged off = false) (hx : mbxChannelOf off = none)
    (hd : off / 8 * 8 ≠ Reg.trcDmi) (hm : s.mayRead (.hart h) (off / 8 * 8) = false) :
    ∃ t, exec (.privilegedRead (.hart h) off n) s = .next t ∧ t.out = s.out ++ [.readReply (some 0)] ∧
        t.reg (Reg.trcCnt 3) = (s.count (Reg.trcCnt 3) 1).reg (Reg.trcCnt 3) ∧ s.regsBut t [Reg.trcCnt 3] := by
  have e : s.busReply (.hart h) off n = (s.privDenied (s.masterId (.hart h)) (s.masterPart (.hart h)) (off / 8 * 8)).reply (some 0) := by
    rw [s.busReply_whole rfl (.inl (accessOk_le ha)), s.busRead_block hp ha hr hw (by simp) (.inr hd), s.blockRead_denied hx hm]
  refine ⟨_, congrArg Host.Outcome.next e, ?_, ?_, fun a ha => ?_⟩
  · rw [State.out_reply, State.privDenied, State.out_privEvent, State.out_count]
  · rw [State.reg_reply, State.privDenied, State.reg_privEvent]
  · rw [State.reg_reply, State.privDenied, State.reg_privEvent, s.reg_count_ne 1 (List.ne_of_not_mem_cons ha).symm]

theorem exec_synWaitersRead (h : s.reaches Reg.synWaiters) :
    ∃ t, exec (.synWaitersRead .pf 0 8) s = .next t ∧
      t.out = s.out ++ [.readReply (some ((s.reg Reg.synWaiters).setField 0 15 s.waitersUsed).toNat)] ∧
      t.rd .synWaitersPeak = 0 ∧ s.regsBut t [Reg.synWaiters] := by
  obtain ⟨hp, hl, hr, hw⟩ := h
  have e : s.busReply .pf Reg.synWaiters 8 =
      (s.wr .synWaitersPeak 0).reply (some ((s.reg Reg.synWaiters).setField 0 15 s.waitersUsed).toNat) := by
    rw [s.busReply_whole (m := .pf) hl (.inl (Nat.le_refl 8)), s.busRead_block hp (by decide) hr hw (by simp) (.inl rfl),
      s.blockRead_synWaiters, s.view_synWaiters, halfOf_whole _ (by decide)]
  refine ⟨_, congrArg Host.Outcome.next e, rfl, ?_, fun a ha => ?_⟩
  · exact s.rd_wr_self .synWaitersPeak 0 (by decide)
  · rw [State.reg_reply, s.reg_wr_ne _ (List.ne_of_not_mem_cons ha).symm]

/-! ### A whole-register write -/

theorem regRowAt_synPartRange {p : Nat} (hp : p < 16) :
    regRowAt (Reg.synPartRange p) = some ⟨0x2C0100, [(16, 0x8)], none, [⟨0, 16, .rw⟩, ⟨16, 17, .rw⟩]⟩ := by
  revert p
  decide +kernel

theorem arrayIndex_below {base st n a : Nat} (h : a < base) : arrayIndex base st n a = none :=
  if_neg (fun e => Nat.not_le.2 h e.1)

/-- SYN_PART_RANGE is a register without an operation of its own. -/
theorem State.registerWrite_synPartRange {x : Wr} {p : Nat} (hp : p < 16) (hx : x.a = Reg.synPartRange p) :
    s.registerWrite x = s.plainWrite x := by
  have ha : x.a = 0x2C0100 + 0x8 * p := hx
  have hb : x.a / 0x100000 = 2 := by omega
  unfold State.registerWrite State.regWrite State.writeSyn
  simp only [hb]
  rw [if_neg (by unfold Reg.refCtrl; omega), arrayIndex_below (by unfold Reg.hifPartOp; omega), if_neg (by omega),
    if_neg (by unfold Reg.synManOp; omega), arrayIndex_below (by unfold Reg.synHartOp; omega),
    arrayIndex_below (by unfold Reg.synHartRing; omega)]

/-- A whole-register write covers every bit. -/
theorem Wr.merged_whole {a : Nat} (m : Master) (v : Nat) (old : Word) (h : a % 8 = 0) :
    (Wr.of m a 8 v).merged old = v % 2 ^ 64 := by
  have hv : bitsAt (v % 256 ^ 8 * 2 ^ (8 * 0)) 0 64 = v % 2 ^ 64 := by simp [bitsAt]
  have hf := Word.field_setField old 0 64 (v % 2 ^ 64) (by decide)
  rw [Nat.mod_mod] at hf
  simp only [Wr.merged, Wr.of, h, hv]
  exact (bitsAt_toNat _).symm.trans hf

/-- A write of the physical function that reaches its block takes effect in its register. -/
theorem State.busWrite_pf {a n v : Nat} (h : s.reaches a) (ha : accessOk a n = true) :
    s.busWrite .pf a n v = s.registerWrite (Wr.of .pf a n v) := by
  obtain ⟨hp, hl, hr, hw⟩ := h
  unfold State.busWrite
  rw [if_neg (by simp [hp]), if_neg (by simpa [State.busAsleep] using hl), if_neg (by simp [ha]), if_neg (by simp [hr])]
  dsimp only
  rw [if_neg (by simp [hw]), if_neg (fun h => by simp [State.mayRead_pf] at h), if_neg (by simp [mayWrite])]

/-- Both fields of SYN_PART_RANGE are RW (Table 0-3a), and the rest of the word is kept. -/
theorem State.plainWrite_synPartRange {p v : Nat} (hp : p < 16) :
    s.plainWrite (Wr.of .pf (Reg.synPartRange p) 8 v) = s.setReg (Reg.synPartRange p)
      (((s.reg (Reg.synPartRange p)).setField 0 16 (bitsAt v 0 16)).setField 16 17 (bitsAt v 16 17)) := by
  have h8 : Reg.synPartRange p % 8 = 0 := by unfold Reg.synPartRange; omega
  have ha : (Wr.of .pf (Reg.synPartRange p) 8 v).a = Reg.synPartRange p := by show _ / 8 * 8 = _; omega
  unfold State.plainWrite
  simp only [ha, regRowAt_synPartRange hp, List.foldl_cons, List.foldl_nil, FieldRow.write, Wr.merged_whole .pf v _ h8]
  rw [bitsAt_mod _ _ _ _ (by decide), bitsAt_mod _ _ _ _ (by decide)]

theorem State.rd_setReg_self (f : RF) (v : Word) : (s.setReg f.reg v).rd f = v.field f.lo f.w := by
  rw [State.rd, s.reg_setReg_self]

theorem exec_registerWrite_synPartRange {p : Nat} (v : Nat) (hp : p < 16) (h : s.reaches (Reg.synPartRange p)) :
    ∃ t, exec (.registerWrite .pf (Reg.synPartRange p) 8 v) s = .next t ∧ t.rd (.synPartRangeFirst p) = bitsAt v 0 16 ∧
      t.rd (.synPartRangeNumber p) = bitsAt v 16 17 ∧ s.regsBut t [Reg.synPartRange p] ∧ s.onlyChanges t [.regs] := by
  have h8 : Reg.synPartRange p % 8 = 0 := by unfold Reg.synPartRange; omega
  have e : s.wideWrite .pf (Reg.synPartRange p) 8 v = s.setReg (Reg.synPartRange p)
      (((s.reg (Reg.synPartRange p)).setField 0 16 (bitsAt v 0 16)).setField 16 17 (bitsAt v 16 17)) := by
    rw [s.wideWrite_whole v (.inr rfl), s.busWrite_pf h (by simp [accessOk, h8]),
      s.registerWrite_synPartRange hp (by show _ / 8 * 8 = _; omega), s.plainWrite_synPartRange hp]
  refine ⟨_, congrArg Host.Outcome.next e, ?_, ?_, fun a ha => ?_, (State.setReg_touches s _ _ (.lit rfl) (.refl s)).onlyChanges⟩
  · exact (s.rd_setReg_self (.synPartRangeFirst p) _).trans ((Word.field_setField_ne _ 16 17 _ 0 16 (.inl (by decide)) (by decide)).trans
      ((Word.field_setField _ 0 16 _ (by decide)).trans (Nat.mod_eq_of_lt (bitsAt_lt v 0 16))))
  · exact (s.rd_setReg_self (.synPartRangeNumber p) _).trans
      ((Word.field_setField _ 16 17 _ (by decide)).trans (Nat.mod_eq_of_lt (bitsAt_lt v 16 17)))
  · exact s.reg_setReg_ne _ (List.ne_of_not_mem_cons ha).symm

/-! ### A block that does not answer (R363) -/

theorem blockMark_isSome {a : Nat} (h : a < 0x1000000 ∨ (0x2000000 ≤ a ∧ a < 0x4000000 ∧ a % 0x20000 < 0x12000)) :
    ∃ n, blockMark a = some n := by
  unfold blockMark
  rcases h with h | ⟨h1, h2, h3⟩
  · exact ⟨_, if_pos h⟩
  · rw [if_neg (by omega), if_neg (by omega)]
    exact ⟨_, rfl⟩

theorem State.referee_wedge (a n off : Nat) (write : Bool) (who : Master) :
    (s.wedge a n off write who).referee = { s.referee with wedged := s.referee.wedged ++ [n] } := by
  rw [State.wedge, State.referee_raise]
  split <;> simp

theorem State.out_wedge (a n off : Nat) (write : Bool) (who : Master) : (s.wedge a n off write who).out = s.out :=
  (State.wedge_touches s a n off write who (.refl _) (.refl s)).1 .out rfl

theorem State.events_wedge (a n off : Nat) (write : Bool) (who : Master) : ∃ u pay,
    (s.wedge a n off write who).events = s.events ++ [⟨s.dtime, Code.mgtBusTimeout.val, u, noPart, Code.mgtBusTimeout.sev, pay⟩] := by
  unfold State.wedge
  extract_lets _ _ w
  have he : w.events = s.events := by unfold w; split <;> rw [State.events_wr, State.events_setReferee]
  have hd : w.dtime = s.dtime := by unfold w; split <;> rw [State.dtime_wr, State.dtime_setReferee]
  rw [State.events_raise, he, hd]
  exact ⟨_, _, rfl⟩

theorem State.isWedged_wedge {a n : Nat} (h : blockMark a = some n) (off : Nat) (write : Bool) (who : Master) :
    (s.wedge a n off write who).isWedged a = true := by
  simp [State.isWedged, h, s.referee_wedge]

theorem exec_bar0BlockTimeout {off n : Nat} (write : Bool) (ha : accessOk off n = true) (hr : s.rdBit .refReadyReady = true)
    (hw : s.isWedged off = false) (hd : alwaysAnswers off = false)
    (hb : off < 0x1000000 ∨ (0x2000000 ≤ off ∧ off < 0x4000000 ∧ off % 0x20000 < 0x12000)) :
    ∃ t, exec (.bar0BlockTimeout .pf off n write) s = .next t ∧ t.isWedged off = true ∧
      t.out = s.out ++ (if write then [] else [.readReply (some (256 ^ n - 1))]) ∧
      ∃ u pay, t.events = s.events ++ [⟨s.dtime, Code.mgtBusTimeout.val, u, noPart, Code.mgtBusTimeout.sev, pay⟩] := by
  obtain ⟨k, hk⟩ := blockMark_isSome hb
  have e : execBar0BlockTimeout .pf off n write s = .next
      (if write then s.wedge off k off write .pf else (s.wedge off k off write .pf).reply (some (onesOf n))) := by
    unfold execBar0BlockTimeout
    rw [if_neg (by simp [ha]), if_neg (by simp [hr]), if_neg (by simp [hd])]
    simp only [Option.bind_some, hk, Option.map_some, ifSome_some, hw]
    rfl
  refine ⟨_, e, ?_⟩
  cases write with
  | true => exact ⟨s.isWedged_wedge hk .., (s.out_wedge ..).trans (List.append_nil _).symm, s.events_wedge ..⟩
  | false => exact ⟨s.isWedged_wedge hk off false .pf, congrArg (· ++ _) (s.out_wedge ..), s.events_wedge ..⟩

end

/-- Settles O9: one lemma for each clause, each by the path that the access takes through the bus. -/
theorem registerAccessesComplete : Obligations.RegisterAccessesComplete :=
  ⟨fun s _ v => exec_registerWrite_synPartRange s v,
   fun s _ _ _ v => exec_registerWrite_misfit s v,
   fun s _ _ _ => exec_accessErrorRead_misfit s,
   fun s _ _ _ hp ha hr hw hx hd hs =>
    ⟨exec_privilegedRead_granted s hp ha hr hw hx hd hs, exec_privilegedRead_denied s hp ha hr hw hx hd⟩,
   exec_synWaitersRead,
   fun s _ _ write => exec_bar0BlockTimeout s write⟩

end Sys2Proof.Machine

/-!
PROOFS. The statements of chapter 3: what the scorebook's commands write (O10), how loads fill the bank and the bullpen (O11), and
what MATSTREAM accumulates (O12).
-/
namespace Sys2Proof.Machine

/-! ## Taking a turn (R206, R212) -/

section
variable {s b : State} {c op : Nat} {regions : Nat → List Region} {i : Issued}

theorem Issued.mayRun_of_waiting (h : i.progress = .waiting) : i.mayRun = true := decide_eq_true h

/-- A row whose command has its turn runs it. -/
theorem State.turn.engineRow {q : Queue} (h : s.turn c op q regions i b) (run : State → Issued → State) :
    s.engineRow c op q regions run = run (s.tryIssue c op q regions) i := by
  obtain ⟨hnext, hop, hwait, -⟩ := h
  unfold State.engineRow
  simp only [hnext]
  rw [if_pos ⟨hop, Issued.mayRun_of_waiting hwait⟩]

theorem State.turn.began {q : Queue} (h : s.turn c op q regions i b) : (s.tryIssue c op q regions).began c i = b := by
  obtain ⟨-, -, -, hb⟩ := h
  exact hb.symm

/-- An array row whose command has its turn runs it. -/
theorem State.arrTurn.arrRowOp (h : s.arrTurn c op regions i b) (run : State → Issued → State) :
    s.arrRowOp c op regions run = run (s.tryIssue c op .arr regions) i := by
  obtain ⟨hnext, hwait, -⟩ := h
  unfold State.arrRowOp
  simp only [hnext]
  rw [if_pos (Issued.mayRun_of_waiting hwait)]

theorem State.arrTurn.began (h : s.arrTurn c op regions i b) : (s.tryIssue c op .arr regions).began c i = b := by
  obtain ⟨-, -, hb⟩ := h
  exact hb.symm

end

/-! ## Commands marked executed -/

section
variable (s : State)

@[simp] theorem State.book_modIssued (c token : Nat) (f : Issued → Issued) : (s.modIssued c token f).book = s.book := rfl
@[simp] theorem State.book_executed (c token code : Nat) : (s.executed c token code).book = s.book := rfl
@[simp] theorem State.mem_executed (c token code : Nat) : (s.executed c token code).mem = s.mem := rfl

theorem State.core_executed (c token code : Nat) :
    (s.executed c token code).core c = (s.core c).setProgress token (.executed code) := s.core_modCore_self c _

theorem State.hasExecuted_executed (c token code : Nat) : (s.executed c token code).hasExecuted c token code := by
  intro j hj ht
  rw [s.core_executed] at hj
  obtain ⟨k, -, rfl⟩ := List.mem_map.1 hj
  split at ht
  · next h => rw [if_pos h]
  · next h => exact absurd ht h

/-- What a command that ends executed leaves to be said: its status code, and that the scorebooks and the memory are what it made
of them. -/
theorem State.ends_executed {o : Host.Outcome State Fault Refusal} {u : State} {c token code : Nat}
    (h : o = .next (u.executed c token code)) :
    ∃ t, o = .next t ∧ t.hasExecuted c token code ∧ t.book = u.book ∧ t.mem = u.mem :=
  ⟨_, h, u.hasExecuted_executed c token code, u.book_executed c token code, u.mem_executed c token code⟩

/-! ## Entries of the scorebook (R91, R92) -/

@[simp] theorem State.mem_putEntry (c k : Nat) (e : Entry) : (s.putEntry c k e).mem = s.mem := by
  unfold State.putEntry
  split <;> rfl

theorem State.book_putEntry (c k : Nat) (e : Entry) : (s.putEntry c k e).book = (s.setEntry c k e).book := by
  unfold State.putEntry
  split <;> rfl

theorem State.entry_putEntry_self (c k : Nat) (e : Entry) : (s.putEntry c k e).entry c k = e := by
  rw [State.entry_congr (s.book_putEntry c k e), s.entry_setEntry_self]

theorem State.entry_putEntry_ne {c k c' k' : Nat} (e : Entry) (h : bookKey c k ≠ bookKey c' k') :
    (s.putEntry c k e).entry c' k' = s.entry c' k' := by
  rw [State.entry_congr (s.book_putEntry c k e), s.entry_setEntry, if_neg h]

theorem bookKey_left_ne {c k k' : Nat} (h : k ≠ k') : bookKey c k ≠ bookKey c k' := fun e => h (Nat.add_left_cancel e)

end

section
variable {β : Type} {c : Nat} {key : β → Nat}

/-- Writing one entry for each element of a list leaves an entry that none of them names. -/
theorem State.entry_foldl_putEntry_out {e : State → β → Entry} {c' k : Nat} (l : List β)
    (h : ∀ p ∈ l, bookKey c (key p) ≠ bookKey c' k) (s : State) :
    (l.foldl (fun s p => s.putEntry c (key p) (e s p)) s).entry c' k = s.entry c' k := by
  induction l generalizing s with
  | nil => rfl
  | cons p l ih =>
    rw [List.foldl_cons, ih (fun q hq => h q (List.mem_cons_of_mem _ hq)), s.entry_putEntry_ne _ (h p List.mem_cons_self)]

/-- Writing one entry for each element of a list, at keys that differ, leaves each entry with its element's value; the value may
be computed from the memory on the way, which no such write changes. -/
theorem State.entry_foldl_putEntry_mem {e : State → β → Entry} {v : β → Entry} {p : β} (l : List β) (hn : (l.map key).Nodup)
    (s : State) (he : ∀ u : State, u.mem = s.mem → ∀ q ∈ l, e u q = v q) (hp : p ∈ l) :
    (l.foldl (fun s p => s.putEntry c (key p) (e s p)) s).entry c (key p) = v p := by
  induction l generalizing s with
  | nil => cases hp
  | cons q l ih =>
    obtain ⟨hq, hn⟩ := List.nodup_cons.1 hn
    rw [List.foldl_cons]
    rcases List.mem_cons.1 hp with rfl | hp
    · rw [State.entry_foldl_putEntry_out l (fun r hr => bookKey_left_ne fun h => hq (List.mem_map.2 ⟨r, hr, h⟩)),
        s.entry_putEntry_self, he s rfl p List.mem_cons_self]
    · exact ih hn _ (fun u hu r hr => he u (hu.trans (s.mem_putEntry ..)) r (List.mem_cons_of_mem _ hr)) hp

theorem nodup_entries (k n : Nat) : ((List.range n).map (k + ·)).Nodup :=
  List.Pairwise.map _ (fun _ _ hne h => hne (Nat.add_left_cancel h)) List.nodup_range

/-- A run of `n` entries from entry `k0` of core `c`, written one by one, and every other entry of a scorebook. -/
theorem State.entry_foldl_putEntry_range {e : State → Nat → Entry} {v : Nat → Entry} {k0 n : Nat} (hn : k0 + n ≤ bookSize)
    (s : State) (he : ∀ u : State, u.mem = s.mem → ∀ j, j < n → e u j = v j) {c' k : Nat} (hk : k < bookSize) :
    ((List.range n).foldl (fun s j => s.putEntry c (k0 + j) (e s j)) s).entry c' k =
      if c' = c ∧ k0 ≤ k ∧ k < k0 + n then v (k - k0) else s.entry c' k := by
  split
  · next h =>
    obtain ⟨rfl, hlo, hhi⟩ := h
    have h := State.entry_foldl_putEntry_mem (c := c') (p := k - k0) _ (nodup_entries k0 n) s
      (fun u hu q hq => he u hu q (List.mem_range.1 hq)) (List.mem_range.2 (by omega))
    rwa [Nat.add_sub_cancel' hlo] at h
  · next h =>
    refine State.entry_foldl_putEntry_out (key := (k0 + ·)) _ (fun j hj => ?_) s
    have := List.mem_range.1 hj
    exact bookKey_ne (by omega) (by omega) hk

end

/-! ## Refusals -/

/-- No check of a list of them fails. -/
theorem firstFail_eq_none {α : Type} {l : List (Bool × α)} : firstFail l = none ↔ ∀ p ∈ l, p.1 = false := by
  induction l with
  | nil => exact ⟨fun _ _ hp => absurd hp List.not_mem_nil, fun _ => rfl⟩
  | cons p l ih =>
    obtain ⟨b, x⟩ := p
    rw [List.forall_mem_cons]
    cases b with
    | false => exact ih.trans (and_iff_right rfl).symm
    | true => exact ⟨fun h => (Option.some_ne_none x h).elim, fun ⟨h, _⟩ => Bool.noConfusion h⟩

/-- An image that is not refused lies in the core store, and its entries in the scorebook (R84). -/
theorem imageRefusal_bounds {w : Nat} (h : imageRefusal w = none) :
    sbkImage w + imageSize (sbkCount w) ≤ storeSize ∧ sbkEntry w + sbkCount w ≤ bookSize := by
  have h := firstFail_eq_none.1 h
  simp only [List.mem_cons, List.not_mem_nil, or_false, forall_eq_or_imp, forall_eq, decide_eq_false_iff_not, Nat.not_lt,
    gt_iff_lt] at h
  obtain ⟨-, hstore, -, hbook⟩ := h
  exact ⟨hstore, hbook⟩

/-! ## Spill images (R96) -/

theorem le_imageSize (n : Nat) : 6 * n ≤ imageSize n := by
  unfold imageSize ceilDiv
  omega

/-- The core stores lie outside the scorebooks' windows. -/
theorem areaOf_store_ne_book {c o : Nat} (hc : c < 256) (ho : o < storeSize) (c' : Nat) : areaOf (coreWindow c + o) ≠ .book c' := by
  unfold storeSize at ho
  unfold coreWindow areaOf
  rw [if_neg (by omega), if_neg (by omega), if_neg (by omega), if_pos (by omega)]
  dsimp only
  rw [if_pos (by unfold storeSize; omega)]
  exact Area.noConfusion

/-- Outside the scorebooks a number is read from the memory alone. -/
theorem State.memNat_of_mem {s t : State} (h : t.mem = s.mem) {a n : Nat} (ha : ∀ j, j < n → ∀ c, areaOf (a + j) ≠ .book c) :
    t.memNat a n = s.memNat a n := by
  induction n generalizing a with
  | zero => rfl
  | succ n ih =>
    have hb : t.byte a = s.byte a := by
      unfold State.byte
      split
      · next c hc => exact absurd hc (ha 0 (Nat.succ_pos n) c)
      · rw [h]
    rw [State.memNat, State.memNat, hb, ih fun j hj c => by
      rw [Nat.add_assoc, Nat.add_comm 1]
      exact ha (j + 1) (by omega) c]

theorem length_flatMap_bytesOfNat (n : Nat) (ks : List Nat) (f : Nat → Nat) :
    (ks.flatMap (fun k => bytesOfNat n (f k))).length = n * ks.length := by
  induction ks with
  | nil => rfl
  | cons k ks ih => rw [List.flatMap_cons, List.length_append, bytesOfNat_length, ih, List.length_cons, Nat.mul_succ, Nat.add_comm]

/-- The entries that a spill or a restore names. -/
def imageEntries (w : Nat) : List Nat := (List.range (sbkCount w)).map (fun j => sbkEntry w + j)

/-- The image of a command's entries: their values, their tags, zeros (R96). -/
def State.imageBytes (h : State) (c w : Nat) : List (BitVec 8) :=
  (imageEntries w).flatMap (fun k => bytesOfNat 4 (h.entry c k).val) ++
    (imageEntries w).flatMap (fun k => bytesOfNat 2 (h.entry c k).tag) ++
    List.replicate (imageSize (sbkCount w) - 6 * sbkCount w) 0

/-- Entry `j` of the image that a restore reads (R96). -/
def State.imageEntry (h : State) (c w j : Nat) : Entry :=
  ⟨h.memNat (coreWindow c + sbkImage w + 4 * j) 4, h.memNat (coreWindow c + sbkImage w + 4 * sbkCount w + 2 * j) 2⟩

theorem State.length_imageBytes (h : State) (c w : Nat) : (h.imageBytes c w).length = imageSize (sbkCount w) := by
  have := le_imageSize (sbkCount w)
  simp only [State.imageBytes, imageEntries, List.length_append, length_flatMap_bytesOfNat, List.length_map, List.length_range,
    List.length_replicate]
  omega

/-- An image lies outside the scorebooks' windows. -/
theorem areaOf_image_ne_book {c w : Nat} (hc : c < 256) (hw : sbkImage w + imageSize (sbkCount w) ≤ storeSize) {j : Nat}
    (hj : j < imageSize (sbkCount w)) (c' : Nat) : areaOf (coreWindow c + sbkImage w + j) ≠ .book c' := by
  rw [Nat.add_assoc]
  exact areaOf_store_ne_book hc (by omega) c'

section
variable (h : State) {c w : Nat} (hc : c < 256) (hw : sbkImage w + imageSize (sbkCount w) ≤ storeSize)
include hc hw

theorem State.bytes_store_image :
    (h.store (coreWindow c + sbkImage w) (h.imageBytes c w)).bytes (coreWindow c + sbkImage w) (imageSize (sbkCount w)) =
      h.imageBytes c w := by
  have e := h.bytes_store_self (coreWindow c + sbkImage w) (h.imageBytes c w)
    (fun j hj => areaOf_image_ne_book hc hw (h.length_imageBytes c w ▸ hj))
  rwa [h.length_imageBytes] at e

theorem State.byte_store_image_out {x : Nat}
    (hx : x < coreWindow c + sbkImage w ∨ coreWindow c + sbkImage w + imageSize (sbkCount w) ≤ x) :
    (h.store (coreWindow c + sbkImage w) (h.imageBytes c w)).byte x = h.byte x :=
  h.byte_store_out _ x _ (fun j hj => areaOf_image_ne_book hc hw (h.length_imageBytes c w ▸ hj)) (by rwa [h.length_imageBytes])

/-- A number of an image does not change with the scorebooks. -/
theorem State.memNat_image {u : State} (hu : u.mem = h.mem) {o n : Nat} (hn : o + n ≤ 6 * sbkCount w) :
    u.memNat (coreWindow c + sbkImage w + o) n = h.memNat (coreWindow c + sbkImage w + o) n := by
  have := le_imageSize (sbkCount w)
  refine State.memNat_of_mem hu fun j hj => ?_
  rw [Nat.add_assoc]
  exact areaOf_image_ne_book hc hw (by omega)

theorem State.entry_restore (hb : sbkEntry w + sbkCount w ≤ bookSize) {c' k : Nat} (hk : k < bookSize) :
    ((List.range (sbkCount w)).foldl (fun s j => s.putEntry c (sbkEntry w + j) (s.imageEntry c w j)) h).entry c' k =
      if c' = c ∧ sbkEntry w ≤ k ∧ k < sbkEntry w + sbkCount w then h.imageEntry c w (k - sbkEntry w) else h.entry c' k := by
  refine State.entry_foldl_putEntry_range hb h (fun u hu j hj => ?_) hk
  rw [State.imageEntry, State.imageEntry, Nat.add_assoc _ (4 * sbkCount w), h.memNat_image hc hw hu (by omega),
    h.memNat_image hc hw hu (by omega)]

end

/-! ## The scorebook's commands -/

section
variable {s b : State} {core : Nat} {hw : List Hw} {i : Issued}

theorem exec_sbkClear_turn (ht : s.turn core 0x18 .sbk clearRegions i b) (hc : opsClean i.cmd [(46, 0, 19), (53, 0, 24)] = true)
    (hn : countBad (sbkCount i.cmd) = false) (hk : sbkEntry i.cmd + sbkCount i.cmd ≤ bookSize)
    (hh : (b.applyHw core engBook hw).2 = 0) :
    exec (.sbkClear core hw) s =
      .next (((b.applyHw core engBook hw).1.clearEntries core (sbkEntry i.cmd) (sbkCount i.cmd)).executed core i.token 0) := by
  have hf : firstFail [(!(opsClean i.cmd [(46, 0, 19), (53, 0, 24)]), ArrRefusal.reason 0x08),
      (countBad (sbkCount i.cmd), .reason 0x01), (decide (sbkEntry i.cmd + sbkCount i.cmd > bookSize), .reason 0x02)] = none := by
    rw [hc, hn, decide_eq_false (Nat.not_lt.2 hk)]
    rfl
  show Host.Outcome.next (s.engineRow ..) = _
  rw [ht.engineRow, State.sbkClearRun]
  dsimp only
  rw [ht.began, hf, ifSome_none, if_neg (fun hne => hne hh)]

theorem exec_sbkSpill_turn (ht : s.turn core 0x1A .sbk spillRegions i b) (hr : imageRefusal i.cmd = none)
    (hh : (b.applyHw core engBook hw).2 = 0) {h : State} (eh : h = (b.applyHw core engBook hw).1)
    (hb : h.badEntry core (imageEntries i.cmd) = none) :
    exec (.sbkSpill core hw) s =
      .next ((h.store (coreWindow core + sbkImage i.cmd) (h.imageBytes core i.cmd)).executed core i.token 0) := by
  unfold imageEntries at hb
  show Host.Outcome.next (s.engineRow ..) = _
  rw [ht.engineRow, State.sbkSpillRun]
  dsimp only
  rw [ht.began, hr, ifSome_none, if_neg (fun hne => hne hh), ← eh, hb]
  rfl

theorem exec_sbkRestore_turn (ht : s.turn core 0x1B .sbk restoreRegions i b) (hr : imageRefusal i.cmd = none)
    (hh : (b.applyHw core engBook hw).2 = 0) {h : State} (eh : h = (b.applyHw core engBook hw).1)
    (hm : anyMarked h.bad (coreWindow core + sbkImage i.cmd) (6 * sbkCount i.cmd) = false)
    (hg : ∀ j, j < sbkCount i.cmd → (h.imageEntry core i.cmd j).tag < 512) :
    exec (.sbkRestore core hw) s = .next (((List.range (sbkCount i.cmd)).foldl (fun s j =>
      s.putEntry core (sbkEntry i.cmd + j) (s.imageEntry core i.cmd j)) h).executed core i.token 0) := by
  have hg : (List.range (sbkCount i.cmd)).any (fun j => decide ((h.imageEntry core i.cmd j).tag ≥ 512)) = false :=
    List.any_eq_false.2 fun j hj h => Nat.not_le.2 (hg j (List.mem_range.1 hj)) (of_decide_eq_true h)
  unfold State.imageEntry at hg
  show Host.Outcome.next (s.engineRow ..) = _
  rw [ht.engineRow, State.sbkRestoreRun]
  dsimp only
  rw [ht.began, hr, ifSome_none, if_neg (fun hne => hne hh), ← eh, if_neg (ne_true_of_eq_false hm),
    if_neg (ne_true_of_eq_false hg)]
  rfl

theorem exec_sbkDrain_turn (ht : s.turn core 0x19 .sbk (s.drainRegions core) i b) (hr : b.drainRefusal core i = none)
    (hh : (b.applyHw core engBook hw).2 = 0) {h : State} (eh : h = (b.applyHw core engBook hw).1)
    (hb : h.badEntry core (drainEntries i.cmd) = none) {x : State × Nat}
    (ex : x = (if drainClear i.cmd then (drainEntries i.cmd).foldl (fun s k => s.putEntry core k Entry.reset) h else h).storePath core
      (h.desc (descAt core (drainDesc i.cmd))) i.step i.outBinds i.staBinds ((drainEntries i.cmd).mapIdx (fun j k =>
        (drainRow0 i.cmd + j / drainCols i.cmd, drainCol0 i.cmd + j % drainCols i.cmd, Fmt.z32a.decode (h.entry core k).val)))) :
    exec (.sbkDrain core hw) s = .next (x.1.executed core i.token x.2) := by
  show Host.Outcome.next (s.engineRow ..) = _
  rw [ht.engineRow, State.sbkDrainRun]
  dsimp only
  rw [ht.began, hr, ifSome_none, if_neg (fun hne => hne hh), ← eh, hb, ← ex]

end

/-- Settles O10: each command's turn ends in the state that its rule gives, and what that state holds is read off the entries and
the bytes written. -/
theorem scorebookCommandsWrite : Obligations.ScorebookCommandsWrite := by
  refine ⟨fun s b core hw i ht hc hn hk hh => ?_, fun s b core hw i h256 ht hr hh => ?_, fun s b core hw i h256 ht hr hh => ?_,
    fun s b core hw i ht hr hh => ?_⟩
  · obtain ⟨t, e, hx, hbook, -⟩ := State.ends_executed (exec_sbkClear_turn ht hc hn hk hh)
    refine ⟨t, e, hx, fun c k hkb => ?_⟩
    rw [State.entry_congr hbook, State.clearEntries]
    exact State.entry_foldl_putEntry_range (v := fun _ => Entry.reset) hk _ (fun _ _ _ _ => rfl) hkb
  · intro h ks a hb
    obtain ⟨hstore, -⟩ := imageRefusal_bounds hr
    obtain ⟨t, e, hx, hbook, hmem⟩ := State.ends_executed (exec_sbkSpill_turn ht hr hh rfl hb)
    refine ⟨t, e, hx, ?_, fun x hout => ?_⟩
    · exact (State.bytes_congr hmem hbook _ _).trans (h.bytes_store_image h256 hstore)
    · exact (State.byte_congr hmem hbook x).trans (h.byte_store_image_out h256 hstore hout)
  · intro h n a hm hg
    obtain ⟨hstore, hfit⟩ := imageRefusal_bounds hr
    obtain ⟨t, e, hx, hbook, -⟩ := State.ends_executed (exec_sbkRestore_turn ht hr hh rfl hm hg)
    refine ⟨t, e, hx, fun c k hkb => ?_⟩
    rw [State.entry_congr hbook]
    exact h.entry_restore h256 hstore hfit hkb
  · intro h ks els u x hb
    exact State.ends_executed (exec_sbkDrain_turn ht hr hh rfl hb rfl)

/-! ## Loads and swaps (R80) -/

section
variable {s b h : State} {core : Nat} {hw : List Hw} {i : Issued} {x : Block}

theorem State.cores_countLoads (s : State) (c : Nat) (l : List (Nat × List Loaded)) : (s.countLoads c l).cores = s.cores :=
  (State.countLoads_touches s c l (.refl _) (.refl s)).1 .cores rfl

/-- A load that is not refused and meets no error gives its block and leaves the cores to the command. -/
theorem State.arrLoad_block (hr : b.loadRefusal core i.cmd = none) (hh : (b.applyHw core engArr hw).2 = 0)
    (eh : h = (b.applyHw core engArr hw).1) (ex : x = h.loadBlock core i.cmd i.step)
    (hf : h.loadFault core i.cmd x.nEff x.kEff = none) :
    ∃ u : State, b.arrLoad core i hw = ⟨u, some x, false, 0⟩ ∧ u.cores = h.cores := by
  subst eh ex
  exact ⟨_, b.arrLoad_ok core i hw hr hh hf, State.cores_countLoads ..⟩

theorem exec_arrLoad_turn (ht : s.arrTurn core 0x10 (s.loadRegions core) i b) {u : State}
    (hl : b.arrLoad core i hw = ⟨u, some x, false, 0⟩) :
    exec (.arrLoad core hw) s = .next (u.modCore core (fun k => { k with loading := some x })) := by
  show Host.Outcome.next (s.arrRowOp ..) = _
  rw [ht.arrRowOp, State.arrLoadRun]
  dsimp only
  rw [ht.began, hl, ifSome_some]

theorem exec_arrFill_turn (ht : s.arrTurn core 0x11 (s.loadRegions core) i b) {u : State}
    (hl : b.arrLoad core i hw = ⟨u, some x, false, 0⟩) :
    exec (.arrFill core hw) s = .next (u.modCore core (fun k => { k with filling := some x, bullpen := none })) := by
  show Host.Outcome.next (s.arrRowOp ..) = _
  rw [ht.arrRowOp, State.arrFillRun]
  dsimp only
  rw [ht.began, hl, ifSome_some]

theorem State.arrDone_running {op : Nat} (f : Core → Core)
    (hi : ((s.core core).queue .arr).find? (fun i => decide (i.opcode = op ∧ i.progress = .running)) = some i) :
    s.arrDone core op f = ((s.modCore core f).executed core i.token 0).retireOldest core .arr := by
  unfold State.arrDone
  rw [hi]

theorem exec_arrLoadDone_running (hx : (s.core core).loading = some x)
    (hi : ((s.core core).queue .arr).find? (fun i => decide (i.opcode = 0x10 ∧ i.progress = .running)) = some i) :
    exec (.arrLoadDone core) s = .next ((((s.count (Reg.arrCnt core 1) 128).modCore core
      (fun k => { k with bank := some x, loading := none })).executed core i.token 0).retireOldest core .arr) := by
  show execArrLoadDone core s = _
  unfold execArrLoadDone
  rw [hx]
  dsimp only
  rw [State.arrDone_running _ (by rwa [State.core_count])]

theorem exec_arrFillDone_running (hx : (s.core core).filling = some x)
    (hi : ((s.core core).queue .arr).find? (fun i => decide (i.opcode = 0x11 ∧ i.progress = .running)) = some i) :
    exec (.arrFillDone core) s = .next (((s.modCore core
      (fun k => { k with bullpen := some x, filling := none })).executed core i.token 0).retireOldest core .arr) := by
  show execArrFillDone core s = _
  unfold execArrFillDone
  rw [hx]
  dsimp only
  rw [State.arrDone_running _ hi]

theorem exec_arrSwap_turn (ht : s.arrTurn core 0x12 (fun _ => []) i b) (hc : opsClean i.cmd [] = true)
    (hb : hw.contains .bank = false) (hh : (b.applyHw core engArr hw).2 = 0) (eh : h = (b.applyHw core engArr hw).1)
    (hp : (h.core core).bullpen.isSome = true) :
    exec (.arrSwap core hw) s =
      .next ((h.modCore core (fun k => { k with bank := k.bullpen, bullpen := k.bank })).executed core i.token 0) := by
  show Host.Outcome.next (s.arrRowOp ..) = _
  rw [ht.arrRowOp, State.arrSwapRun]
  dsimp only
  rw [ht.began, if_neg (by rw [hc]; decide), if_neg (ne_true_of_eq_false hb), if_neg (fun hne => hne hh), ← eh,
    if_neg (ne_true_of_eq_false (Option.isNone_eq_false_iff.2 hp))]

end

/-- Settles O11: each row's turn ends in one update of the core, from which its holders are read. -/
theorem arrayLoadsFillTheBank : Obligations.ArrayLoadsFillTheBank := by
  refine ⟨fun s b core hw i ht hr hh => ?_, fun s b core hw i ht hr hh => ?_, fun s core x i hx hi => ?_,
    fun s core x i hx hi => ?_, fun s b core hw i ht hc hb hh => ?_⟩
  · intro h x hf
    obtain ⟨u, hl, hu⟩ := State.arrLoad_block hr hh rfl rfl hf
    refine ⟨_, exec_arrLoad_turn ht hl, ?_⟩
    rw [State.core_modCore_self, State.core_congr hu]
    exact ⟨rfl, rfl, rfl⟩
  · intro h x hf
    obtain ⟨u, hl, hu⟩ := State.arrLoad_block hr hh rfl rfl hf
    refine ⟨_, exec_arrFill_turn ht hl, ?_⟩
    rw [State.core_modCore_self, State.core_congr hu]
    exact ⟨rfl, rfl, rfl⟩
  · refine ⟨_, _, exec_arrLoadDone_running hx hi, rfl, State.hasExecuted_executed _ _ _ _, ?_⟩
    rw [State.core_executed, State.core_modCore_self]
    exact ⟨rfl, rfl, rfl⟩
  · refine ⟨_, _, exec_arrFillDone_running hx hi, rfl, State.hasExecuted_executed _ _ _ _, ?_⟩
    rw [State.core_executed, State.core_modCore_self]
    exact ⟨rfl, rfl, rfl⟩
  · intro h hp
    refine ⟨_, exec_arrSwap_turn ht hc hb hh rfl hp, State.hasExecuted_executed _ _ _ _, ?_⟩
    rw [State.core_executed, State.core_modCore_self]
    exact ⟨rfl, rfl⟩

/-! ## MATSTREAM (R83 to R97) -/

section
variable {s b h : State} {core : Nat} {hw : List Hw} {i : Issued} {x : Block}

theorem exec_matstream_turn (ht : s.arrTurn core 0x13 (s.streamRegions core) i b) (hr : b.streamRefusal core i.cmd = none)
    (hx : (b.core core).bank = some x) (hb : hw.contains .bank = false) (hh : (b.applyHw core engArr hw).2 = 0)
    (hk : x.skips (streamAcc i.cmd) ≠ 0xFFFF) (eh : h = (b.applyHw core engArr hw).1) {j : Issued}
    (ej : j = { i with tx := b.tensorScale ((b.streamDescs core i.cmd).headD (Desc.ofNat 0)) }) :
    exec (.matstream core hw) s = .next (State.streamRowsFrom hw core j x (streamRows i.cmd) 0
      (h.modIssued core i.token (fun k => { k with tx := j.tx }))) := by
  show Host.Outcome.next (s.arrRowOp ..) = _
  rw [ht.arrRowOp, State.streamRun]
  dsimp only
  rw [ht.began, hr, ifSome_none, hx]
  dsimp only
  rw [if_neg (ne_true_of_eq_false hb), if_neg (fun hne => hne hh), if_neg hk, ← eh, ej]

/-- A row whose operands, tags and check are in order is written, and the next follows. -/
theorem State.streamRowsFrom_succ {n m : Nat} (hx : (s.core core).bank = some x) {u v : State} {row : List Elem} {cause : Nat}
    (eu : u = s.rowEnters core (x.skips (streamAcc i.cmd)))
    (er : row = u.arrRow core (s.streamDescs core i.cmd) i.step (arrRow0 i.cmd + m) (arrK0 i.cmd) x.kEff)
    (hf : s.arrRowFault (s.streamDescs core i.cmd) (arrRow0 i.cmd + m) (arrK0 i.cmd) x.kEff = none)
    (ht : streamAcc i.cmd = true →
      u.tagFault core (cmdEpoch i.cmd) (rowEntries (streamDst i.cmd) (streamStride i.cmd) m x.nEff) = none)
    (hv : u.verdict core x row (x.skips (streamAcc i.cmd)) (hwMask hw m ||| (if streamAcc i.cmd then
      u.entryMask core x (rowEntries (streamDst i.cmd) (streamStride i.cmd) m x.nEff) else 0)) = (v, 0, cause))
    (hd : hwDiffers hw m = false) :
    State.streamRowsFrom hw core i x (n + 1) m s = State.streamRowsFrom hw core i x n (m + 1) (v.streamPut core i x m) := by
  have ht : (if streamAcc i.cmd then
      u.tagFault core (cmdEpoch i.cmd) (rowEntries (streamDst i.cmd) (streamStride i.cmd) m x.nEff) else none) = none := by
    split
    · next h => exact ht h
    · rfl
  rw [State.streamRowsFrom]
  dsimp only
  rw [hx, Option.getD_some, hf]
  dsimp only
  rw [← eu, ht]
  dsimp only
  rw [← er, hv]
  dsimp only
  simp only [↓reduceIte, hd, Bool.false_eq_true, ne_eq, not_true_eq_false, ite_self]

theorem State.streamRowsFrom_zero_hasExecuted (m : Nat) :
    (State.streamRowsFrom hw core i x 0 m s).hasExecuted core i.token 0 := State.hasExecuted_executed _ _ _ _

/-! ### The entries of a row -/

/-- The bookkeeping of overflows (R89) leaves the entries that a row has written. -/
theorem State.book_putRow (s : State) (c token ep : Nat) (row : List (Nat × Nat × Bool)) :
    (s.putRow c token ep row).book = (row.foldl (fun s p => s.putEntry c p.1 ⟨p.2.1, tagOf ep⟩) s).book := by
  unfold State.putRow
  dsimp only
  split
  · rfl
  · rw [State.book_modIssued, State.book_count]

/-- The value that a column of a row starts from: its entry in ACC mode, else +0 (R83). -/
def State.streamInit (s : State) (c : Nat) (i : Issued) (m n : Nat) : Nat :=
  if streamAcc i.cmd then (s.entry c (streamDst i.cmd + m * streamStride i.cmd + n)).val else 0

/-- Column `n` of output row `m`: its entry, its new code and whether it overflowed (R87, R97). -/
def State.streamCode (s : State) (c : Nat) (i : Issued) (b : Block) (m n : Nat) (ps : List Elem) : Nat × Nat × Bool :=
  (streamDst i.cmd + m * streamStride i.cmd + n,
    if bitAt (b.skips (streamAcc i.cmd)) (b.group n) then (s.streamInit c i m n, false)
    else accumulateColumn (s.streamInit c i m n) ps (i.streamScale b).1 (i.streamScale b).2)

theorem State.streamCodes_eq (s : State) (c : Nat) (i : Issued) (b : Block) (row : List Elem) (m : Nat) :
    s.streamCodes c i b row m = (b.products row).mapIdx (s.streamCode c i b m) := by
  unfold State.streamCodes
  dsimp only
  congr 1
  funext n ps
  unfold State.streamCode State.streamInit
  split <;> rfl

/-- The columns of a row have entries of their own. -/
theorem State.streamCodes_entries (s : State) (c : Nat) (i : Issued) (b : Block) (row : List Elem) (m : Nat) :
    (s.streamCodes c i b row m).map (fun p => p.1) =
      (List.range b.cols.length).map (streamDst i.cmd + m * streamStride i.cmd + ·) := by
  rw [s.streamCodes_eq]
  refine List.ext_getElem ?_ fun j h1 h2 => ?_
  · simp only [Block.products, List.length_map, List.length_mapIdx, List.length_range]
  · simp only [List.getElem_map, List.getElem_mapIdx, List.getElem_range, State.streamCode]

theorem State.streamCode_mem (s : State) (c : Nat) (i : Issued) (b : Block) (row : List Elem) (m : Nat) {n : Nat}
    (hn : n < b.cols.length) : s.streamCode c i b m n ((b.products row).getD n []) ∈ s.streamCodes c i b row m := by
  have hn : n < (b.products row).length := by rwa [Block.products, List.length_map]
  rw [s.streamCodes_eq, List.mem_mapIdx]
  exact ⟨n, hn, by rw [List.getD_eq_getElem?_getD, List.getElem?_eq_getElem hn, Option.getD_some]⟩

/-- A row's columns are written with the command's tag. -/
theorem State.entry_streamPut (m : Nat) {n : Nat} (hn : n < x.cols.length) {row : List Elem}
    (er : row = s.arrRow core (s.streamDescs core i.cmd) i.step (arrRow0 i.cmd + m) (arrK0 i.cmd) x.kEff) :
    (s.streamPut core i x m).entry core (streamDst i.cmd + m * streamStride i.cmd + n) =
      ⟨(s.streamCode core i x m n ((x.products row).getD n [])).2.1, tagOf (cmdEpoch i.cmd)⟩ := by
  have hd : ((s.streamCodes core i x row m).map (fun p => p.1)).Nodup := by
    rw [s.streamCodes_entries]
    exact nodup_entries ..
  rw [State.streamPut, ← er, State.entry_congr (s.book_putRow ..)]
  exact State.entry_foldl_putEntry_mem (key := fun p => p.1) (v := fun p => ⟨p.2.1, tagOf (cmdEpoch i.cmd)⟩) _ hd s
    (fun _ _ _ _ => rfl) (s.streamCode_mem core i x row m hn)

end

/-- Settles O12: the turn starts the loop over the rows, the loop's own step is one row, and a row's entries are those of its columns. -/
theorem matstreamAccumulates : Obligations.MatstreamAccumulates := by
  refine ⟨fun s b core hw i x ht hr hx hb hh hk => ?_, fun s core hw i x n m hx => ?_,
    fun s core hw i x m => State.streamRowsFrom_zero_hasExecuted m, fun s core i x m n => ?_⟩
  · exact ⟨_, exec_matstream_turn ht hr hx hb hh hk rfl rfl, rfl⟩
  · intro w u ks row v hf ht hv hd
    exact State.streamRowsFrom_succ (cause := v.2.2) hx rfl rfl hf ht (Prod.ext rfl (Prod.ext hv rfl)) hd
  · intro w row k f hn _
    rw [State.entry_streamPut m hn rfl]
    unfold State.streamCode State.streamInit
    dsimp only
    split <;> rfl

end Sys2Proof.Machine

/-!
PROOFS. What OUT_MATSTREAM accumulates (O14), and what the playmaker's own commands do at issue (O16).
-/
namespace Sys2Proof.Machine

/-! ## OUT_MATSTREAM (R103, R104, R117, R118) -/

section
variable {s b h : State} {core : Nat} {hw : List Hw} {i : Issued}

/-- The turn of an OUT_MATSTREAM starts the loop over its rows. -/
theorem exec_outMatstream_turn (ht : s.turn core 0x31 .out (s.outRegions core) i b) (hr : b.outRefusal core i = none)
    (hh : (b.applyHw core engOut hw).2 = 0) (eh : h = (b.applyHw core engOut hw).1) (hb : h.bindFault core i = false) :
    exec (.outMatstream core hw) s = .next (State.outRowsFrom core i (outRows i.cmd) 0 h) := by
  show Host.Outcome.next (s.engineRow ..) = _
  rw [ht.engineRow, State.outRun]
  dsimp only
  rw [ht.began, hr, ifSome_none, if_neg (fun hne => hne hh), ← eh, if_neg (ne_true_of_eq_false hb)]

theorem State.outRowsFrom_zero_hasExecuted (m : Nat) :
    (State.outRowsFrom core i 0 m s).hasExecuted core i.token 0 := State.hasExecuted_executed _ _ _ _

/-- A row whose operands, list records and entries are in order is counted and written, and the next follows. -/
theorem State.outRowsFrom_succ {n m : Nat} {x d : Desc} {xl wl : Option Nat} {row : List (Nat × List Nat)}
    (ex : x = s.desc (descAt core (outX i.cmd))) (ed : d = s.desc (descAt core (outW i.cmd)))
    (el : s.outLists core i = (xl, wl)) (er : row = s.outRowTerms core i m)
    (hf : s.loadsFault core [(outX i.cmd, outRow0 i.cmd + m, 1, outK0 i.cmd, outLen i.cmd),
      (outW i.cmd, outN0 i.cmd, outCols i.cmd, outK0 i.cmd, outLen i.cmd)] = none)
    (hwf : wl.bind (fun a => s.recordFault d a (outN0 i.cmd) (outCols i.cmd) (outK0 i.cmd) (outLen i.cmd)) = none)
    (hxf : xl.bind (fun a => s.recordFault x a (outRow0 i.cmd + m) 1 (outK0 i.cmd) (outLen i.cmd)) = none)
    (hwb : wl.bind (fun a => s.badRecord d a (outN0 i.cmd) (outCols i.cmd) (outK0 i.cmd) (outLen i.cmd)) = none)
    (hxb : xl.bind (fun a => s.badRecord x a (outRow0 i.cmd + m) 1 (outK0 i.cmd) (outLen i.cmd)) = none)
    (he : s.entryFault core (cmdEpoch i.cmd) (row.map (fun p => p.1)) = none) :
    State.outRowsFrom core i (n + 1) m s = State.outRowsFrom core i n (m + 1)
      ((s.count (Reg.outCnt core 0) ((row.map (fun p => p.2.length)).foldl (· + ·) 0)).putRow core i.token (cmdEpoch i.cmd)
        (row.map (fun p => (p.1,
          accumulateColumn (s.entry core p.1).val [Elem.ofZf32 (p.2.foldl f32Add 0x80000000)] 1 0)))) := by
  rw [State.outRowsFrom]
  dsimp only
  rw [hf, el]
  dsimp only
  rw [← ex, ← ed, hwf, hxf, Option.orElse_none, ifSome_none, hwb, hxb, Option.orElse_none]
  dsimp only
  rw [← er, he]

end

/-- Settles O14: the turn starts the loop over the rows, and the loop's own step is one row. -/
theorem outlierRowsAccumulate : Obligations.OutlierRowsAccumulate := by
  refine ⟨fun s b core hw i ht hr hh hb => ⟨_, exec_outMatstream_turn ht hr hh rfl hb, rfl⟩,
    fun s core i m => State.outRowsFrom_zero_hasExecuted m, fun s core i n m => ?_⟩
  intro w x d xl wl row sums hf hwf hxf hwb hxb he
  exact State.outRowsFrom_succ rfl rfl rfl rfl hf hwf hxf hwb hxb he

/-! ## Commands that the playmaker executes at issue (R205, R220) -/

section
variable (s : State)

theorem State.reg_wr_congr {t : State} {f : RF} (v : Nat) (h : t.reg f.reg = s.reg f.reg) :
    (t.wr f v).reg f.reg = (s.wr f v).reg f.reg := by
  rw [State.wr, State.wr, State.reg_setReg_self, State.reg_setReg_self, h]

/-- The event of a counter at its limit does not reach the registers, so what a counter shows after counting depends on nothing but
what it showed. -/
theorem State.reg_count_congr {t : State} {a : Nat} (n : Nat) (h : t.reg a = s.reg a) :
    (t.count a n).reg a = (s.count a n).reg a := by
  rw [State.count_eq, State.count_eq, h]
  by_cases h1 : (s.reg a).field 63 1 = 1
  · rw [if_pos h1, if_pos h1, h]
  · rw [if_neg h1, if_neg h1]
    by_cases h2 : (s.reg a).field 0 48 + n < countMax
    · rw [if_pos h2, if_pos h2]
      exact s.reg_wr_congr (f := ⟨a, 0, 48⟩) _ h
    · rw [if_neg h2, if_neg h2, State.reg_raise, State.reg_raise]
      exact State.reg_wr_congr _ (f := ⟨a, 63, 1⟩) _ (s.reg_wr_congr (f := ⟨a, 0, 48⟩) _ h)

theorem State.regsBut_setReg (a : Nat) (v : Word) : s.regsBut (s.setReg a v) [a] :=
  fun _ hb => s.reg_setReg_ne v (List.ne_of_not_mem_cons hb).symm

/-- A taken branch (R215): the head stands at the target, the fetch buffer is empty and the branch is counted. -/
theorem State.branch_taken {c : Nat} {i : Issued} {d : Int} (h0 : d ≠ 0) (h1 : d ≠ 1) (hlo : 0 ≤ (i.index : Int) + d)
    (hhi : (i.index : Int) + d < ((s.core c).segCount : Int)) :
    ∃ u, s.branch c i d = (u, 0) ∧ (u.core c).headIndex = ((i.index : Int) + d).toNat ∧ (u.core c).buf = [] ∧
      u.reg (Reg.pmkCnt c 11) = (s.count (Reg.pmkCnt c 11) 1).reg (Reg.pmkCnt c 11) ∧ u.mem = s.mem := by
  have hin : ¬(d = 0 ∨ (i.index : Int) + d < 0 ∨ (i.index : Int) + d ≥ ((s.core c).segCount : Int)) := by omega
  refine ⟨_, by rw [State.branch, if_neg hin, if_neg h1], ?_, ?_, s.reg_count_congr 1 (s.reg_modCore ..), ?_⟩
  · rw [State.core_count, State.core_modCore_self]
  · rw [State.core_count, State.core_modCore_self]
  · rw [State.mem_count, State.mem_modCore]

end

section
variable {s b u : State} {c op w : Nat} {i : Issued}

/-- A playmaker row whose command passes its checks issues it, executes it and retires it. -/
theorem State.pmkTurn.pmkRow (h : s.pmkTurn c op w i b) {run : State → Issued → State × Nat} {code : Nat}
    (hr : run b i = (u, code)) : s.pmkRow c op run = (u.retire c i code).afterIssue c := by
  obtain ⟨hhead, hmay, hi, hb⟩ := h
  unfold State.pmkRow
  rw [hhead]
  dsimp only
  rw [if_pos hmay, ← hi, ← hb, hr]

theorem exec_pmkNop_turn (h : s.pmkTurn c 0x01 w i b) : exec (.pmkNop c) s = .next ((b.retire c i 0).afterIssue c) :=
  congrArg Host.Outcome.next (h.pmkRow rfl)

theorem exec_pmkJump_turn (h : s.pmkTurn c 0x05 w i b) (hc : opsClean i.cmd [(32, 0, 32)] = true)
    (hu : b.branch c i (signed 32 (opBits i.cmd 32 0 32)) = (u, 0)) :
    exec (.pmkJump c) s = .next ((u.retire c i 0).afterIssue c) :=
  congrArg Host.Outcome.next (h.pmkRow (by rw [State.jumpRun, if_pos hc, hu]))

theorem exec_pfence_plain (h : s.pmkTurn c 0x02 w i b) (hr : b.fenceRefusal c i.cmd = none) (hs : fenceSel i.cmd = false) :
    exec (.pfence c) s = .next ((b.retire c i 0).afterIssue c) := by
  refine congrArg Host.Outcome.next (h.pmkRow ?_)
  rw [State.fenceRun, hr]
  exact if_neg (ne_true_of_eq_false hs)

theorem exec_pfence_sel (h : s.pmkTurn c 0x02 w i b) (hr : b.fenceRefusal c i.cmd = none) (hs : fenceSel i.cmd = true)
    (hf : b.fenceFault c i.cmd = none) (hu : b.branch c i (signed 32 (b.memNat (b.fenceEntry c i.cmd) 4)) = (u, 0)) :
    exec (.pfence c) s = .next ((u.retire c i 0).afterIssue c) := by
  refine congrArg Host.Outcome.next (h.pmkRow ?_)
  rw [State.fenceRun, hr]
  dsimp only
  rw [if_pos hs, hf]
  exact hu

/-- OUT_BIND writes the binding of its slot, whose parity is good from then on (R113, R121). -/
theorem State.outBindRun_clean (hc : opsClean i.cmd [(32, 0, 3), (33, 0, 1), (36, 0, 32), (40, 0, 24)] = true) :
    b.outBindRun c i = ((b.modCore c (fun k =>
      { k with bindBad := k.bindBad.filter (fun n => !(decide (n = opBits i.cmd 32 0 3))) })).setReg
        (Reg.outBind c (opBits i.cmd 32 0 3)) (BitVec.ofNat 64 (if opBits i.cmd 33 0 1 = 1 then
          opBits i.cmd 36 0 32 + opBits i.cmd 40 0 24 * 2 ^ 32 + 2 ^ 63 else 0)), 0) := by
  rw [State.outBindRun, if_pos hc]

/-- STA_BIND writes the binding of its slot and keeps its PENDING (R142). -/
theorem State.staBindRun_accepted (hr : b.staBindRefusal c i.cmd = none) :
    b.staBindRun c i = (b.setReg (Reg.staBind c (opBits i.cmd 32 0 4)) (BitVec.ofNat 64
      (staBindValue i.cmd + flag (b.rdBit (.staBindPending c (opBits i.cmd 32 0 4))) * 2 ^ 46)), 0) := by
  rw [State.staBindRun, hr]

end

/-- Settles O16: each command's run on the begun state ends with success, so its row retires it; the two branching commands share
what a taken branch does, the two binding commands what one register write does. -/
theorem playmakerCommandsExecuteAtIssue : Obligations.PlaymakerCommandsExecuteAtIssue := by
  refine ⟨fun s b core w i h => ⟨_, exec_pmkNop_turn h, rfl⟩, fun s b core w i h => ?_,
    fun s b core w i h hr hs => ⟨_, exec_pfence_plain h hr hs, rfl⟩, fun s b core w i h hr hs hf => ?_,
    fun s b core w i h hc => ?_, fun s b core w i h hr => ?_⟩
  · intro d hc h0 h1 hlo hhi
    obtain ⟨u, hu, hpost⟩ := b.branch_taken h0 h1 hlo hhi
    exact ⟨_, u, exec_pmkJump_turn h hc hu, rfl, hpost⟩
  · intro d h0 h1 hlo hhi
    obtain ⟨u, hu, hpost⟩ := b.branch_taken h0 h1 hlo hhi
    exact ⟨_, u, exec_pfence_sel h hr hs hf hu, rfl, hpost⟩
  · exact ⟨_, _, congrArg Host.Outcome.next (h.pmkRow (State.outBindRun_clean hc)), rfl, State.reg_setReg_self .., fun a ha =>
      (State.regsBut_setReg _ _ _ a ha).trans (b.reg_modCore ..)⟩
  · intro n
    exact ⟨_, _, congrArg Host.Outcome.next (h.pmkRow (State.staBindRun_accepted hr)), rfl, State.reg_setReg_self ..,
      State.regsBut_setReg _ _ _⟩

end Sys2Proof.Machine

/-!
PROOFS. The statements of chapter 5: how an arbitration ends and injections are armed (O28).
-/
namespace Sys2Proof.Machine

section
variable (s : State)

/-! ## One-bit fields -/

theorem State.rdBit_wr_flag {f : RF} (b : Bool) (hw : f.w = 1) (h : f.lo + f.w ≤ 64) : (s.wr f (flag b)).rdBit f = b := by
  rw [State.rdBit, s.rd_wr_self f _ h, hw]
  cases b <;> rfl

/-! ## The end of an arbitration (R130, R131) -/

/-- The state in which core `c` no longer holds arbitration `a`; UMP_STATUS.ARBITRATING shows whether it holds another. -/
def State.arbLeft (c : Nat) (a : Arb) : State :=
  let u := s.modCore c (fun k => { k with arbs := k.arbs.erase a })
  u.wr (.umpStatusArbitrating c) (flag (!(u.core c).arbs.isEmpty))

theorem State.core_arbLeft (c : Nat) (a : Arb) : (s.arbLeft c a).core c = { s.core c with arbs := (s.core c).arbs.erase a } := by
  rw [State.arbLeft, State.core_wr, s.core_modCore_self]

theorem State.arbitrating_arbLeft (c : Nat) (a : Arb) :
    (s.arbLeft c a).rdBit (.umpStatusArbitrating c) = !((s.core c).arbs.erase a).isEmpty := by
  rw [State.arbLeft, State.rdBit_wr_flag _ _ rfl (of_decide_eq_true rfl), s.core_modCore_self]

end

section
variable {s : State} {core engine : Nat} {a : Arb} {i : Issued}

/-- An arbitration with its command in flight ends by its outcome, unless it needs an arbitrating core that another holds. -/
theorem exec_arbitrationDecided_held (r : Replays) (badRes : Nat) (pairs : List (Nat × Nat)) (hw : List Hw) {v : State}
    (ha : (s.core core).arbs.find? (fun a => decide (a.engine = engine)) = some a)
    (hi : (s.core core).inflight.find? (fun i => decide (i.token = a.token)) = some i)
    (hq : (s.arbOutcome core a r).2 = true → s.arbQueued core a = false)
    (hv : v = ((s.arbLeft core a).arbReported core i a (s.arbOutcome core a r).1 (s.arbOutcome core a r).2).arbMarked core i a
      (s.arbOutcome core a r).1 badRes pairs) :
    exec (.arbitrationDecided core engine r badRes pairs hw) s =
      .next (if (s.arbOutcome core a r).1 = .intUnresolved then v.arbFailed core i a else v.arbGoesOn core i a hw) := by
  have hfree : ¬((s.arbOutcome core a r).2 && s.arbQueued core a) = true := by
    rw [Bool.and_eq_true]
    rintro ⟨h1, h2⟩
    exact Bool.false_ne_true ((hq h1).symm.trans h2)
  show execArbitrationDecided core engine r badRes pairs hw s = _
  rw [execArbitrationDecided, ha]
  dsimp only
  rw [hi]
  dsimp only
  rw [if_neg hfree, hv, apply_ite Host.Outcome.next]
  rfl

/-- Table 5-3 for a core that is not SUSPECT, where a check of the unit itself failed. -/
theorem State.arbOutcome_fst (r : Replays) (hs : s.rdBit (.umpStatusSuspect core) = false) (h1 : a.cause ≠ 1) (h2 : a.cause ≠ 2) :
    (s.arbOutcome core a r).1 = if r.sAgrees then .intTransient else if (s.arbiterOf core).isNone then .intUnresolved
      else if r.sEqO && r.xEqO then .intCheckerFault else if r.sEqO && !r.xEqO && r.xAgrees then .intPatternFault
      else if !r.sEqO && !r.xEqO && !r.xEqS && r.xAgrees then .intCoreFault else .intUnresolved := by
  have hsus : ¬(s.rdBit (.umpStatusSuspect core) && decide (a.cause = 3)) = true := by simp [hs]
  rw [State.arbOutcome, if_neg hsus, if_neg h1, if_neg h2]
  simp only [apply_ite Prod.fst, Option.not_isSome]

/-! ## Injections (UMP_CTRL) -/

theorem exec_umpInjectArray_open (h : s.barShut false = false) : exec (.umpInjectArray core) s =
    .next (if s.debugFuse then s.modCore core (fun k => { k with inject1 := true }) else s) :=
  if_neg (ne_true_of_eq_false h)

theorem exec_umpInjectChecksum_open (h : s.barShut false = false) : exec (.umpInjectChecksum core) s =
    .next (if s.debugFuse then s.modCore core (fun k => { k with inject2 := true }) else s) :=
  if_neg (ne_true_of_eq_false h)

/-- What arming by fuse leaves in the core. -/
theorem State.core_armed (f : Core → Core) : (if s.debugFuse then s.modCore core f else s).core core =
    if s.debugFuse then f (s.core core) else s.core core := by
  rw [apply_ite (State.core · core), s.core_modCore_self]

end

/-- Settles O28: the arbitration leaves its core first, and everything else is done to the state without it. -/
theorem arbitrationEnds : Obligations.ArbitrationEnds := by
  refine ⟨fun s core engine badRes r pairs hw a i ha hi hq => ?_, fun s core a r hs h1 h2 => State.arbOutcome_fst r hs h1 h2,
    fun s core h => ?_⟩
  · exact ⟨_, s.arbLeft core a, _, exec_arbitrationDecided_held r badRes pairs hw ha hi hq rfl, rfl, rfl, s.core_arbLeft core a,
      s.arbitrating_arbLeft core a⟩
  · exact ⟨_, _, exec_umpInjectArray_open h, exec_umpInjectChecksum_open h, State.core_armed _, State.core_armed _⟩

end Sys2Proof.Machine

/-!
PROOFS. The statements of checkpoints (section 7.9) and of fingerprint rounds (R138, R139): O42.
-/
namespace Sys2Proof.Machine

/-! ## Events, and the stop of a job -/

section
variable (s : State)

theorem State.mem_events_raiseAs (code : Code) (sev unit part pay : Nat) :
    ∃ e ∈ (s.raiseAs code sev unit part pay).events, e.code = code.val ∧ e.sev = sev ∧ e.payload = pay :=
  ⟨_, List.mem_append_right _ (List.mem_singleton_self _), rfl, rfl, rfl⟩

theorem State.mem_events_raise (code : Code) (unit part pay : Nat) :
    ∃ e ∈ (s.raise code unit part pay).events, e.code = code.val ∧ e.payload = pay :=
  ⟨_, List.mem_append_right _ (List.mem_singleton_self _), rfl, rfl⟩

/-- A running job stops (R321): its partition is STOPPED, with the cause. -/
theorem State.stopJob_running {p : Nat} (step : Nat) (cause : Code) (h : s.partState p = 3) :
    (s.stopJob p step cause).partState p = 6 ∧ (s.stopJob p step cause).rd (.hifPartStatusStopCause p) = cause.val % 2 ^ 16 := by
  have hrun : ¬(s.rd (.hifPartStatusState p) ≠ 3 ∧ s.rd (.hifPartStatusState p) ≠ 4) := fun hn => hn.1 h
  rw [State.stopJob, if_neg hrun]
  dsimp only
  rw [State.partState, State.rd_raise, State.rd_raise]
  constructor
  · rw [State.rd_wr_ne _ _ _ _ (.inr (of_decide_eq_true rfl)), State.rd_wr_self _ _ _ (of_decide_eq_true rfl)]
    rfl
  · exact State.rd_wr_self _ _ _ (of_decide_eq_true rfl)

/-! ## Requests (R187) -/

/-- The step that a partition's cores have come to, as 32 bits. -/
def State.stepNow (p : Nat) : Nat := ((s.coresOf p).map (fun c => s.pmkStep c)).foldl max 0 % 2 ^ 32

/-- How many steps the partition is past a step, modulo 2^32. -/
def State.stepsPast (p step : Nat) : Nat := (s.stepNow p + 2 ^ 32 - step % 2 ^ 32) % 2 ^ 32

theorem exec_ckptRequest_open {p : Nat} (step : Nat) (h : s.barShut false = false) (hp : p < 16) :
    exec (.ckptRequest p step) s =
      .next (if step % 2 ^ 32 ≠ 0 ∧ 0 < s.stepsPast p step ∧ s.stepsPast p step < 2 ^ 31 then
          s.raise .numCkptLate unitReferee p (payload [(16, 4, step % 2 ^ 32), (20, 4, s.stepNow p)])
        else s.wr (.optCkptCtrlReqStep p) (step % 2 ^ 32)) := by
  show execCkptRequest p step s = _
  rw [execCkptRequest, if_neg (ne_true_of_eq_false h)]
  dsimp only
  rw [if_neg (Nat.not_le.2 hp), apply_ite Host.Outcome.next]
  rfl

theorem exec_ckptRequest_taken {p : Nat} (step : Nat) (h : s.barShut false = false) (hp : p < 16)
    (hs : step % 2 ^ 32 = 0 ∨ s.stepsPast p step = 0 ∨ s.stepsPast p step ≥ 2 ^ 31) :
    ∃ t, exec (.ckptRequest p step) s = .next t ∧ t.rd (.optCkptCtrlReqStep p) = step % 2 ^ 32 := by
  refine ⟨_, exec_ckptRequest_open s step h hp, ?_⟩
  rw [if_neg (by omega), s.rd_wr_self _ _ (of_decide_eq_true rfl)]
  exact Nat.mod_mod _ _

theorem exec_ckptRequest_late {p : Nat} (step : Nat) (h : s.barShut false = false) (hp : p < 16) (h0 : step % 2 ^ 32 ≠ 0)
    (h1 : 0 < s.stepsPast p step) (h2 : s.stepsPast p step < 2 ^ 31) :
    ∃ t, exec (.ckptRequest p step) s = .next t ∧ t.rd (.optCkptCtrlReqStep p) = s.rd (.optCkptCtrlReqStep p) ∧
      ∃ e ∈ t.events, e.code = Code.numCkptLate.val ∧ e.payload = payload [(16, 4, step % 2 ^ 32), (20, 4, s.stepNow p)] := by
  exact ⟨_, (exec_ckptRequest_open s step h hp).trans (congrArg Host.Outcome.next (if_pos ⟨h0, h1, h2⟩)), s.rd_raise ..,
    s.mem_events_raise ..⟩

/-! ## The capture (R188 to R190) -/

/-- The image of a partition's step as its capture reads it. -/
def State.stepImage (p n : Nat) : List (BitVec 8) :=
  Machine.imageBytes (n % 2 ^ 32) s.chipId (s.job p).shard (s.groupView p).members.length (s.sections p n)

/-- Is the image of a step too large for the stripes of the buddies? -/
def State.imageTooLarge (p n : Nat) : Bool :=
  decide (s.rd (.optBuddyWays p) > 0 ∧ (s.stepImage p n).length > s.rd (.optBuddyWays p) * s.rd (.optBuddyStripeStripe p))

/-- The checkpoint that the capture of a step begins, with no vote yet. -/
def State.newCkpt (p n : Nat) : Ckpt :=
  { step := n % 2 ^ 32, image := Mem.writeBytes [] 0 (s.stepImage p n), length := (s.stepImage p n).length, vote := none,
    bad := s.imageTooLarge p n || !((s.sections p n).filterMap (s.sectionFault p)).isEmpty,
    object := if s.rd (.optBuddyWays p) = 0 then freeObject s.flash else 0 }

/-- The state in which the capture of a step has begun: its sections are read, their faults reported. -/
def State.captureBegun (p n : Nat) : State :=
  ((((s.seeReads .referee unitWriter ((s.sections p n).flatMap (fun x => x.ranges))).raiseFaults p
    ((s.sections p n).filterMap (s.sectionFault p))).modJob p
      (fun j => { j with capture := some (s.newCkpt p n), captured := some n })).wr (.optCkptStateCapture p) 1).wr
        (.optCkptStateSwDone p) 1

theorem State.capture_captureBegun (p n : Nat) : (s.captureBegun p n).rd (.optCkptStateCapture p) = 1 := by
  rw [State.captureBegun, State.rd_wr_ne _ _ _ _ (.inr (of_decide_eq_true rfl)), State.rd_wr_self _ _ _ (of_decide_eq_true rfl)]
  rfl

theorem State.swDone_captureBegun (p n : Nat) : (s.captureBegun p n).rd (.optCkptStateSwDone p) = 1 := by
  rw [State.captureBegun, State.rd_wr_self _ _ _ (of_decide_eq_true rfl)]
  rfl

theorem State.job_captureBegun (p n : Nat) :
    ((s.captureBegun p n).job p).capture = some (s.newCkpt p n) ∧ ((s.captureBegun p n).job p).captured = some n := by
  rw [State.captureBegun, State.job_wr, State.job_wr, State.job_modJob_self]
  exact ⟨rfl, rfl⟩

/-- A due capture begins, and its image fails, stands in a new object or goes to the buddies. -/
theorem exec_checkpointCaptureStart_due {p n : Nat} (hp : p < 16) (hn : s.captureDue p = some n) (hd : (s.job p).drain = none)
    (hc : (s.job p).capture = none) :
    exec (.checkpointCaptureStart p) s = .next (
      if s.imageTooLarge p n = true then (s.captureBegun p n).ckptFail p (n % 2 ^ 32) 1
      else if s.rd (.optBuddyWays p) = 0 then
        (s.captureBegun p n).openObject p (s.newCkpt p n).object (s.stepImage p n).length (Mem.writeBytes [] 0 (s.stepImage p n))
      else (List.range ((s.stepImage p n).length / 4096)).foldl
        (fun t u => t.sendUnit p u (((s.stepImage p n).drop (4096 * u)).take 4096)) (s.captureBegun p n)) := by
  have hfree : ¬(p ≥ 16 ∨ (s.job p).drain.isSome = true ∨ (s.job p).capture.isSome = true) := by
    rw [hd, hc]
    simp [hp]
  show execCheckpointCaptureStart p s = _
  rw [execCheckpointCaptureStart, hn]
  dsimp only
  rw [if_neg hfree, apply_ite Host.Outcome.next, apply_ite Host.Outcome.next]
  rfl

/-- The state without the requests of a partition's capture (serial 0) or drain (serial 1). -/
def State.dropCkptReqs (p serial : Nat) : State :=
  s.setReqs (s.reqs.filter (fun r => !(decide (r.agent = Agent.capture p ∧ r.serial = serial))))

theorem State.ckptReqs_dropCkptReqs (p serial : Nat) : (s.dropCkptReqs p serial).ckptReqs p serial = [] := by
  rw [State.ckptReqs, State.dropCkptReqs, State.reqs_setReqs, List.filter_filter]
  exact List.filter_eq_nil_iff.2 (by simp)

/-- The capture ends once it has failed or waits for no response; its vote is fixed. -/
theorem exec_checkpointCaptureEnd_over {p : Nat} {x : Ckpt} (hc : (s.job p).capture = some x) (hv : x.vote = none)
    (hx : x.bad = true ∨ s.ckptReqs p 0 = []) :
    exec (.checkpointCaptureEnd p) s = .next (((s.dropCkptReqs p 0).modJob p
      (fun j => { j with capture := some { x with vote := some (!x.bad) } })).wr (.optCkptStateCapture p) 0) := by
  have hover : ¬(x.vote.isSome = true ∨ (x.bad = false ∧ (s.ckptReqs p 0).isEmpty = false)) := by
    rw [hv]
    rcases hx with h | h <;> simp [h]
  show execCheckpointCaptureEnd p s = _
  rw [execCheckpointCaptureEnd, hc]
  dsimp only
  rw [if_neg hover]
  rfl

/-! ## The drain (R192) -/

/-- The state in which a partition's drain is over, before what came back is judged. -/
def State.drainOver (p : Nat) : State :=
  ((s.dropCkptReqs p 1).modJob p (fun j => { j with drain := none })).wr (.optCkptStateDrain p) 0

/-- The state in which the blocks of the image that fail the steps of R67 are reported too. -/
def State.drainChecked (p : Nat) (x : Ckpt) : State :=
  (s.drainOver p).raiseFaults p ((imageSections x.image).filterMap (fun y => ((s.drainOver p).imageFault p x.image y).bind id))

theorem exec_checkpointDrainDone_bad {p : Nat} {x : Ckpt} (hd : (s.job p).drain = some x) (hb : x.bad = true) :
    exec (.checkpointDrainDone p) s = .next (((s.drainOver p).dropCkptObject x).ckptFail p x.step 3) := by
  have hover : ¬(x.bad = false ∧ (s.ckptReqs p 1).isEmpty = false ∧ s.buddyLeft p = false) := by simp [hb]
  show execCheckpointDrainDone p s = _
  rw [execCheckpointDrainDone, hd]
  dsimp only
  rw [if_neg hover]
  simp only [hb, Bool.true_or, if_true]
  rfl

/-- The state in which the object of a checkpoint is COMPLETE, what channel 62 moved is counted, and the objects of the partition's
earlier images are gone. -/
def State.imageKept (p : Nat) (x : Ckpt) : State :=
  let u := ((s.closeObject x.object x.image).countChan (.chip 62) 0 x.length).countChan (.chip 62) 1 (imageBlocks x.image)
  (u.job p).images.foldl (fun u o => u.deleteObject o.2) u

/-- An image that is intact becomes the one of its partition. -/
theorem exec_checkpointDrainDone_passed {p : Nat} {x : Ckpt} (hd : (s.job p).drain = some x) (hb : x.bad = false)
    (hr : s.ckptReqs p 1 = []) (hok : (s.drainChecked p x).imageOk p x.image = true) :
    exec (.checkpointDrainDone p) s =
      .next (((((s.drainChecked p x).imageKept p x).modJob p (fun j => { j with images := [(x.step, x.object)] })).wr
        (.optCkptStatusLastDrained p) x.step).raise .numCkptDrained unitReferee p (payload [(16, 4, x.step)])) := by
  have hover : ¬(x.bad = false ∧ (s.ckptReqs p 1).isEmpty = false ∧ s.buddyLeft p = false) := by simp [hr]
  have hgood : (x.bad || !(s.ckptReqs p 1).isEmpty) = false := by simp [hb, hr]
  have hpass : ¬(false || !(s.drainChecked p x).imageOk p x.image) = true := by simp [hok]
  show execCheckpointDrainDone p s = _
  rw [execCheckpointDrainDone, hd]
  dsimp only
  rw [if_neg hover, hgood]
  exact if_neg hpass

/-- Deleting an object writes no register but MEM_USE. -/
theorem State.rd_dropCkptObject (x : Ckpt) {f : RF} (h : ∀ q < 16, Reg.memUse q ≠ f.reg) : (s.dropCkptObject x).rd f = s.rd f := by
  unfold State.dropCkptObject State.deleteObject
  split
  · rfl
  · split
    · rfl
    · split
      · next y _ hy => exact State.rd_wr_ne _ _ _ _ (.inl (h y.part hy))
      · rfl

theorem State.job_dropCkptObject (x : Ckpt) (p : Nat) : (s.dropCkptObject x).job p = s.job p := by
  rw [State.job, show (s.dropCkptObject x).jobs = s.jobs from (State.dropCkptObject_touches s x (.refl _) (.refl s)).1 .jobs rfl]
  rfl

/-- A drain that failed is over, also once its object is deleted. -/
theorem State.drain_failed (x : Ckpt) (p : Nat) :
    ((s.drainOver p).dropCkptObject x).rd (.optCkptStateDrain p) = 0 ∧ (((s.drainOver p).dropCkptObject x).job p).drain = none := by
  have huse : ∀ q < 16, Reg.memUse q ≠ (RF.optCkptStateDrain p).reg := fun q hq => by
    show 0x500280 + 0x8 * q ≠ 0x110060 + 0x1000 * p
    omega
  constructor
  · rw [State.rd_dropCkptObject _ x huse, State.drainOver, State.rd_wr_self _ _ _ (of_decide_eq_true rfl)]
    rfl
  · rw [State.job_dropCkptObject, State.drainOver, State.job_wr, State.job_modJob_self]

/-! ## Fingerprint rounds (R138) -/

/-- The state in which this chip has computed the fingerprint of its copy for a round of step `n`. -/
def State.fingerprinted (p n : Nat) : State :=
  (s.seeReads .referee unitReferee ((s.weightBlocks p).map (fun b => (b.1.2, 8)))).modJob p
    (fun j => { j with fingerprint := some (n, s.fingerprintOf p) })

theorem State.fingerprint_fingerprinted (p n : Nat) : ((s.fingerprinted p n).job p).fingerprint = some (n, s.fingerprintOf p) := by
  rw [State.fingerprinted, State.job_modJob_self]

section
variable {p n : Nat} (hp : p < 16) (he : s.endedStep p = some n) (hf : s.fingerprintDue p n = true)
  (hn : (s.job p).fingerprint = none) (hq : (s.job p).pass = none)
include hp he hf hn hq

theorem State.fpRound_due (go : State → Nat → State) : s.fpRound p go = go (s.fingerprinted p n) (s.fingerprintOf p) := by
  have hdue : ¬(p ≥ 16 ∨ s.fingerprintDue p n = false ∨ (s.job p).fingerprint.isSome = true ∨ (s.job p).pass.isSome = true) := by
    rw [hf, hn, hq]
    simp [hp]
  rw [State.fpRound, he]
  dsimp only
  rw [if_neg hdue]
  rfl

/-- A chip that does not own the shard sends its fingerprint and adds nothing to the count. -/
theorem exec_fingerprintRound_copy {u : State} (hu : u = s.fingerprinted p n) :
    exec (.fingerprintRound (.copy p)) s =
      .next ((u.setOut (u.out ++ [.fingerprint p (s.fingerprintOf p)])).startRed p 2 1 [0]) := by
  show Host.Outcome.next (s.fpRound p _) = _
  rw [s.fpRound_due hp he hf hn hq, hu]

/-- The owner adds the number of the copies that differ from its own. -/
theorem exec_fingerprintRound_owner (l : List Nat) :
    exec (.fingerprintRound (.owner p l)) s = .next ((s.fingerprinted p n).startRed p 2 1
      [f32OfNat (l.filter (fun x => decide (x ≠ s.fingerprintOf p))).length]) := by
  show Host.Outcome.next (s.fpRound p _) = _
  rw [s.fpRound_due hp he hf hn hq]

end

/-! ## Their results (R139) -/

/-- The number of differing copies that a reduction gives; none where it has failed. -/
def differing (r : Red) (k : Nat) : Nat := if k = 0 then natOfF32 (r.value.getD 0 0) else 0

/-- The state in which the round of step `n` of a partition is over. -/
def State.roundOver (p n : Nat) : State := (s.dropRed p 2).modJob p (fun j => { j with fingerprint := none, fpDone := some n })

/-- The state in which the round is over and one more divergence is counted. -/
def State.roundDiverged (p n : Nat) : State := (s.roundOver p n).modJob p (fun j => { j with diverged := j.diverged + 1 })

theorem State.job_roundOver (p n : Nat) : (s.roundOver p n).job p = { s.job p with fingerprint := none, fpDone := some n } :=
  (s.dropRed p 2).job_modJob_self p _

theorem State.job_roundDiverged (p n : Nat) : (s.roundDiverged p n).job p =
    { s.job p with fingerprint := none, fpDone := some n, diverged := (s.job p).diverged + 1 } := by
  rw [State.roundDiverged, State.job_modJob_self, s.job_roundOver]

theorem State.partState_diverged (p n : Nat) (code : Code) (sev unit part pay : Nat) :
    ((s.roundDiverged p n).raiseAs code sev unit part pay).partState p = s.partState p := by
  rw [State.partState, State.rd_raiseAs, State.roundDiverged, State.rd_modJob, State.roundOver, State.rd_modJob]
  rfl

/-- The payload of INT_REPLICA_DIVERGE of a round of step `n` with `count` copies that differ. -/
def State.divergence (p n count : Nat) : Nat :=
  payload [(16, 4, (s.job p).shard), (20, 4, count), (24, 4, n), (28, 1, (s.job p).diverged)]

/-- The state in which the weight blocks of a partition have been fetched again from the owner, as far as they were read. -/
def State.refetchedAll (p : Nat) (reads : List Nat) (again : List (List Nat)) : State :=
  ((s.weightBlocks p).zip (readsOf reads again)).foldl (fun u x => u.refetch p x.1 x.2) s

end

section
variable {s : State} {p n fp k : Nat} {r : Red} (reads : List Nat) (again : List (List Nat))
  (hf : (s.job p).fingerprint = some (n, fp)) (hr : s.red p 2 = some r) (ho : r.outcome = some k)
include hf hr ho

theorem exec_fingerprintResult_same (hc : differing r k = 0) :
    exec (.fingerprintResult p reads again) s = .next (s.roundOver p n) := by
  show execFingerprintResult p reads again s = _
  rw [execFingerprintResult, hf, hr]
  dsimp only
  rw [ho]
  exact if_pos hc

/-- A first divergence is repaired and reported as recovered; a further one stops the job. -/
theorem exec_fingerprintResult_diverged (hc : differing r k ≠ 0) {u : State} (hu : u = s.roundDiverged p n) :
    exec (.fingerprintResult p reads again) s = .next (
      if (u.job p).diverged = 1 then
        (u.refetchedAll p reads again).raiseAs .intReplicaDiverge sevRecovered unitReferee p (u.divergence p n (differing r k))
      else (u.raiseAs .intReplicaDiverge sevFailed unitReferee p (u.divergence p n (differing r k))).stopJob p (n % 2 ^ 32)
        .intReplicaDiverge) := by
  show execFingerprintResult p reads again s = _
  rw [execFingerprintResult, hf, hr]
  dsimp only
  rw [ho]
  refine (if_neg hc).trans ?_
  rw [hu, apply_ite Host.Outcome.next]
  rfl

end

/-- Settles O42: each row's equation gives its next state, from which the registers, the job and the events are read. -/
theorem checkpointsAndFingerprintsComplete : Obligations.CheckpointsAndFingerprintsComplete := by
  intro s p hp
  refine ⟨fun step h => ⟨exec_ckptRequest_taken s step h hp, exec_ckptRequest_late s step h hp⟩, fun n hn hd hc => ?_,
    fun x hc hv hx => ?_, fun x hd => ⟨fun hb => ?_, fun hb hr hok => ?_⟩, fun n he hf hn hq => ?_, fun n fp r k reads again hf hr ho => ?_⟩
  · obtain ⟨hcapture, hcaptured⟩ := s.job_captureBegun p n
    refine ⟨s.captureBegun p n, _, exec_checkpointCaptureStart_due s hp hn hd hc, s.capture_captureBegun p n, s.swDone_captureBegun p n,
      hcaptured, ⟨_, hcapture, rfl, rfl, rfl⟩, fun hbig => ?_, fun hw => ?_, fun hbig hw => ?_⟩
    · rw [if_pos (show s.imageTooLarge p n = true from decide_eq_true hbig)]
    · have hfit : ¬s.imageTooLarge p n = true := by simp [State.imageTooLarge, hw]
      rw [if_neg hfit, if_pos hw, show (s.newCkpt p n).object = freeObject s.flash from if_pos hw]
      rfl
    · rw [if_neg (show ¬s.imageTooLarge p n = true from fun h => hbig (of_decide_eq_true h)), if_neg hw]
      rfl
  · refine ⟨_, exec_checkpointCaptureEnd_over s hc hv hx, State.rd_wr_self _ _ _ (of_decide_eq_true rfl), s.ckptReqs_dropCkptReqs p 0, ?_⟩
    rw [State.job_wr, State.job_modJob_self]
  · obtain ⟨hreg, hjob⟩ := s.drain_failed x p
    refine ⟨_, exec_checkpointDrainDone_bad s hd hb, ?_, ?_, State.mem_events_raise ..⟩
    · rw [State.ckptFail, State.rd_raise, hreg]
    · rw [State.ckptFail, State.job_raise, hjob]
  · refine ⟨_, exec_checkpointDrainDone_passed s hd hb hr hok, ?_, ?_, State.mem_events_raise ..⟩
    · rw [State.rd_raise, State.rd_wr_self _ _ _ (of_decide_eq_true rfl)]
      rfl
    · rw [State.job_raise, State.job_wr, State.job_modJob_self]
  · refine ⟨⟨_, _, exec_fingerprintRound_copy s hp he hf hn hq rfl, rfl, List.mem_append_right _ (List.mem_singleton_self _), ?_⟩,
      fun l => ⟨_, _, exec_fingerprintRound_owner s hp he hf hn hq l, s.fingerprint_fingerprinted p n, rfl⟩⟩
    rw [State.job_setOut, s.fingerprint_fingerprinted]
  · refine ⟨fun hc => ⟨_, exec_fingerprintResult_same reads again hf hr ho hc, ?_, ?_, rfl⟩, fun hc h0 => ?_, fun hc hpos hrun => ?_⟩
    · rw [s.job_roundOver]
    · rw [s.job_roundOver]
    · have hj := s.job_roundDiverged p n
      refine ⟨_, (exec_fingerprintResult_diverged reads again hf hr ho hc rfl).trans (congrArg Host.Outcome.next (if_pos ?_)), ?_⟩
      · rw [hj, h0]
      · rw [State.divergence, hj, h0]
        exact State.mem_events_raiseAs ..
    · have hmore : ¬((s.roundDiverged p n).job p).diverged = 1 := by
        rw [s.job_roundDiverged p n]
        exact fun h => Nat.ne_of_gt hpos (Nat.succ.inj h)
      refine ⟨_, (exec_fingerprintResult_diverged reads again hf hr ho hc rfl).trans (congrArg Host.Outcome.next (if_neg hmore)),
        State.stopJob_running _ (n % 2 ^ 32) .intReplicaDiverge ?_⟩
      rw [s.partState_diverged, hrun]

end Sys2Proof.Machine

/-!
PROOFS. The playmaker (chapter 8): how segments arrive, are fetched and end (O17, O18), how commands retire (O19), fail (O26) and how
a core halts and goes on (O27).
-/
namespace Sys2Proof.Machine

/-! ## Frames of the playmaker's shared operations -/

section
variable (s : State)

/-- Tracing changes nothing of a core but its trace queue (R407). -/
theorem Core.offerTrace_eq (k : Core) (x : TraceEntry) : ∃ q n, k.offerTrace x = { k with traceQ := q, traceLost := n } := by
  unfold Core.offerTrace
  split
  · exact ⟨k.traceQ, _, rfl⟩
  · split
    · exact ⟨_, k.traceLost, rfl⟩
    · exact ⟨_, _, rfl⟩

theorem State.core_offer (c : Nat) (x : TraceEntry) : (s.offer c x).core c = (s.core c).offerTrace x := by
  unfold State.offer
  dsimp only
  split
  · rw [State.core_count, State.core_modCore_self]
  · exact s.core_modCore_self c _

theorem State.core_trace (c e kind status : Nat) (i : Issued) :
    ∃ q n, (s.trace c e kind status i).core c = { s.core c with traceQ := q, traceLost := n } := by
  unfold State.trace
  split
  · rw [State.core_offer]
    exact Core.offerTrace_eq _ _
  · exact ⟨(s.core c).traceQ, (s.core c).traceLost, rfl⟩

theorem State.core_traceFailed (c status index op w : Nat) :
    ∃ q n, (s.traceFailed c status index op w).core c = { s.core c with traceQ := q, traceLost := n } := by
  unfold State.traceFailed
  split
  · rw [State.core_offer]
    exact Core.offerTrace_eq _ _
  · exact ⟨(s.core c).traceQ, (s.core c).traceLost, rfl⟩

/-- A halt changes what stops the core, and nothing else of it (R216). -/
theorem State.core_haltCore (c cause : Nat) : ∃ p x h q,
    (s.haltCore c cause).core c = { s.core c with pstate := p, stopping := x, haltCause := h, haltReq := q } := by
  unfold State.haltCore
  dsimp only
  split
  · exact ⟨(s.core c).pstate, (s.core c).stopping, (s.core c).haltCause, (s.core c).haltReq, rfl⟩
  · split
    · exact ⟨(s.core c).pstate, (s.core c).stopping, (s.core c).haltCause, cause, s.core_modCore_self c _⟩
    · split
      · exact ⟨_, _, _, _, s.core_modCore_self c _⟩
      · exact ⟨(s.core c).pstate, _, _, _, s.core_modCore_self c _⟩

theorem State.core_haltCore_ne {c d : Nat} (cause : Nat) (h : c ≠ d) : (s.haltCore c cause).core d = s.core d := by
  unfold State.haltCore State.enterHalted
  dsimp only
  split
  · rfl
  · split
    · exact s.core_modCore_ne _ h
    · split <;> exact s.core_modCore_ne _ h

theorem State.regs_haltCore (c cause : Nat) : (s.haltCore c cause).regs = s.regs :=
  (State.haltCore_touches s c cause (.refl _) (.refl s)).1 .regs rfl

theorem State.cores_performSignal (unit part index : Nat) (g : SignalEntry) :
    (s.performSignal unit part index g).cores = s.cores :=
  (State.performSignal_touches s unit part index g (.refl _) (.refl s)).1 .cores rfl

theorem State.core_dropCommand (c token : Nat) : (s.dropCommand c token).core c =
    { s.core c with inflight := (s.core c).inflight.filter (fun i => !(decide (i.token = token))) } := by
  rw [State.dropCommand, State.core_setFences, State.core_modCore_self]

theorem State.core_issueHead (c w : Nat) (q : Queue) (rs : List Region) : (s.issueHead c w q rs).core c =
    { s.core c with
      inflight := (s.core c).inflight ++ [s.issued c w q rs], buf := (s.core c).buf.tail,
      headIndex := (s.core c).headIndex + 1, waitsDone := 0, waiting := false, waitDeadline := none, brkSkip := false,
      needFence := false, epoch := s.issueEpoch c } := by
  rw [State.issueHead, State.core_count, State.core_modCore_self]

end

/-! ## Step ends (R213) -/

section
variable {s : State} {c w : Nat} {i : Issued}

theorem exec_stepEnd_issues (hh : (s.core c).head = some w) (hm : s.mayIssue c 0x03 .pmk [] = true) :
    exec (.stepEnd c) s = .next (((s.issueHead c w .pmk []).began c (s.issued c w .pmk [])).afterIssue c) := by
  show execStepEnd c s = _
  rw [execStepEnd, hh]
  exact if_pos hm

theorem exec_stepEndRetire_alone (hi : (s.core c).inflight = [i]) (ho : i.opcode = 0x03) :
    exec (.stepEndRetire c) s = .next ((s.retire c i 0).stepEnded c) := by
  show execStepEndRetire c s = _
  rw [execStepEndRetire, hi]
  exact if_pos ho

/-- The test of the watch slots writes their registers only. -/
theorem State.reg_watchStepEnd (s : State) {p step a : Nat} (h : ∀ n < 8, Reg.trcPWatchA p n ≠ a) :
    (s.watchStepEnd p step).reg a = s.reg a := by
  unfold State.watchStepEnd
  split
  · refine List.foldlRecOn (motive := fun u : State => u.reg a = s.reg a) _ _ rfl (fun u hu n hn => ?_)
    dsimp only
    split
    · rw [State.reg_raise, State.reg_wr_ne _ _ (h n (List.mem_range.1 hn)), hu]
    · exact hu
  · rfl

/-- What a step's end leaves is read after its two writes: the watch slots and a halt change neither of them. -/
theorem State.stepEnded_marks (s : State) (hp : ∀ p, (s.core c).part = some p → p < 16) :
    (s.stepEnded c).reg (Reg.pmkStep c) = BitVec.ofNat 64 (s.pmkStep c + 1) ∧ ((s.stepEnded c).core c).needFence = true ∧
      ((s.stepEnded c).core c).endedStep = s.pmkStep c % 2 ^ 32 := by
  unfold State.stepEnded
  dsimp only
  generalize hu : (s.setReg (Reg.pmkStep c) (BitVec.ofNat 64 (s.pmkStep c + 1))).modCore c
    (fun k => { k with needFence := true, endedStep := s.pmkStep c % 2 ^ 32 }) = u
  have hcore : u.core c = { s.core c with needFence := true, endedStep := s.pmkStep c % 2 ^ 32 } := by
    rw [← hu, State.core_modCore_self, State.core_setReg]
  have hreg : u.reg (Reg.pmkStep c) = BitVec.ofNat 64 (s.pmkStep c + 1) := by
    rw [← hu, State.reg_modCore, State.reg_setReg_self]
  split
  · exact ⟨hreg, by rw [hcore], by rw [hcore]⟩
  · next p hpart =>
    rw [hcore] at hpart
    have hwreg : (u.watchStepEnd p (s.pmkStep c)).reg (Reg.pmkStep c) = u.reg (Reg.pmkStep c) :=
      u.reg_watchStepEnd (fun n hn => by
        have := hp p hpart
        unfold Reg.trcPWatchA Reg.pmkStep
        omega)
    have hwcore : (u.watchStepEnd p (s.pmkStep c)).core c = u.core c :=
      State.core_congr ((State.watchStepEnd_touches u p (s.pmkStep c) (.refl _) (.refl u)).1 .cores rfl) c
    split
    · obtain ⟨ps, x, h, q, he⟩ := (u.watchStepEnd p (s.pmkStep c)).core_haltCore c 1
      rw [State.reg_congr (State.regs_haltCore ..), he, hwreg, hwcore, hcore]
      exact ⟨hreg, rfl, rfl⟩
    · rw [hwreg, hwcore, hcore]
      exact ⟨hreg, rfl, rfl⟩

/-! ## The end of a segment (R198, R215) -/

theorem exec_pmkEnd_issues (hh : (s.core c).head = some w) (hm : s.mayIssue c 0x06 .pmk [] = true) :
    exec (.pmkEnd c) s = .next ((((s.issueHead c w .pmk []).began c (s.issued c w .pmk [])).retire c
      (s.issued c w .pmk []) 0).endSegment c (s.issued c w .pmk []).seg) := by
  show execPmkEnd c s = _
  rw [execPmkEnd, hh]
  exact if_pos hm

theorem State.nextSegment_nil (h : (s.core c).segq = []) :
    s.nextSegment c = s.modCore c (fun k => { k with seg := none, buf := [], headIndex := 0, pstate := 0 }) := by
  unfold State.nextSegment
  dsimp only
  rw [h]

/-- With no record queued, the core is IDLE after its segment (R216). -/
theorem State.endSegment_idle (seg : Nat) (h : (s.core c).segq = []) :
    ((s.endSegment c seg).core c).pstate = 0 ∧ ((s.endSegment c seg).core c).seg = none := by
  unfold State.endSegment
  rw [State.nextSegment_nil (by rw [State.core_modCore_self, h]), State.core_modCore_self]
  exact ⟨rfl, rfl⟩

end

/-- Settles O17: STEP_END's row issues it, its retirement's row marks the end of the step, and PMK_END's row ends the segment. -/
theorem stepsAndSegmentsEnd : Obligations.StepsAndSegmentsEnd := by
  refine ⟨fun s core w hh hm => ⟨_, _, exec_stepEnd_issues hh hm, rfl, rfl, ?_, rfl⟩, fun s core i _ hi ho => ?_,
    fun s core w hh hm => ⟨_, exec_pmkEnd_issues hh hm, rfl, State.endSegment_idle _⟩⟩
  · rw [State.core_issueHead]
  · intro u hp
    obtain ⟨hreg, hfence, hended⟩ := u.stepEnded_marks hp
    refine ⟨_, exec_stepEndRetire_alone hi ho, ?_, hfence, hended⟩
    rw [State.pmkStep, hreg, BitVec.toNat_ofNat]

/-! ## The arrival of segments (R196, R198) -/

/-- The state in which record `r` has gone from the dispatcher to the end of its core's queue. -/
def State.segmentQueued (s : State) (r : SegRec) : State :=
  (s.setDispatch (s.dispatch.erase r)).modCore r.core (fun k => { k with segq := k.segq ++ [r] })

section
variable {s : State} {c : Nat} {r : SegRec}

theorem State.core_segmentQueued (s : State) (r : SegRec) :
    (s.segmentQueued r).core r.core = { s.core r.core with segq := (s.core r.core).segq ++ [r] } := by
  rw [State.segmentQueued, State.core_modCore_self, State.core_setDispatch]

theorem State.segmentArrive_busy (h : (s.core r.core).pstate ≠ 0) : s.segmentArrive r = s.segmentQueued r := by
  have hbusy : ¬(((s.segmentQueued r).core r.core).pstate = 0 ∧ ((s.segmentQueued r).core r.core).stopping = .no) := by
    rw [s.core_segmentQueued r]
    exact fun hi => h hi.1
  exact if_neg hbusy

theorem State.segmentArrive_idle (h0 : (s.core r.core).pstate = 0) (h1 : (s.core r.core).stopping = .no) :
    s.segmentArrive r = (s.segmentQueued r).nextSegment r.core := by
  have hidle : ((s.segmentQueued r).core r.core).pstate = 0 ∧ ((s.segmentQueued r).core r.core).stopping = .no := by
    rw [s.core_segmentQueued r]
    exact ⟨h0, h1⟩
  exact if_pos hidle

theorem exec_segmentArrive_room (hf : s.dispatch.find? (fun r => decide (r.core = c) && !(s.seqHeld r)) = some r)
    (hr : (s.core c).segq.length < 16) : exec (.segmentArrive c) s = .next (s.segmentArrive r) := by
  show execSegmentArrive c s = _
  rw [execSegmentArrive, hf]
  exact if_pos hr

/-- The record that the dispatcher finds for a core is one of that core. -/
theorem SegRec.core_of_find (hf : s.dispatch.find? (fun r => decide (r.core = c) && !(s.seqHeld r)) = some r) : r.core = c := by
  have hr := List.find?_some hf
  exact of_decide_eq_true (Bool.and_eq_true_iff.1 hr).1

theorem State.testHalt_of_no_request (h : (s.core c).haltReq = 0) : s.testHalt c = s := if_neg fun hn => hn.1 h

/-- The core starts the first record of its queue at its first command, if R197 admits it and no halt is asked. -/
theorem State.nextSegment_cons {t : List SegRec} (hq : (s.core c).segq = r :: t) (hok : segRecOk c r = true)
    (hh : (s.core c).haltReq = 0) : s.nextSegment c = s.modCore c (fun k => { k with
      segq := t, seg := some ⟨(s.core c).segNo, r, false, 0⟩, segNo := k.segNo + 1,
      segOpen := k.segOpen ++ [⟨(s.core c).segNo, r, false, 0⟩], buf := [], headIndex := 0, pstate := 1 }) := by
  unfold State.nextSegment
  dsimp only
  rw [hq]
  dsimp only
  rw [if_pos hok]
  exact State.testHalt_of_no_request (by rw [State.core_modCore_self, hh])

end

/-! ## The fetch of commands (R202) -/

/-- The index of the next command that core `k` fetches. -/
def Core.fetchIndex (k : Core) : Nat := k.headIndex + k.buf.length

/-- How many commands the next fetch from segment `r` brings, and where they stand. -/
def Core.fetchCount (k : Core) (r : SegRun) : Nat := min 16 (r.record.count - k.fetchIndex)
def Core.fetchBase (k : Core) (r : SegRun) : Nat := r.record.base + 64 * k.fetchIndex

/-- A fetch of `n` commands at `a` by core `c` is refused by nothing and meets no bad and no poisoned line. -/
def State.fetchClean (s : State) (c a n : Nat) : Prop :=
  (s.checkRange (.part (s.corePart c)) a (64 * n) false).1.code = none ∧
    (∀ j, j < n → anyMarked s.bad (a + 64 * j) 64 = false) ∧ s.poisoned a (64 * n) = false

/-- The state in which the fetch buffer of core `c` holds the `n` commands at `a` too. -/
def State.fetched (s : State) (c a n : Nat) : State :=
  s.modCore c (fun k => { k with buf := k.buf ++ (List.range n).map (fun j => s.memNat (a + 64 * j) 64) })

/-- A clean fetch fills the buffer; into an empty one it brings a new head. -/
theorem exec_fetchResponse_clean {s : State} {c a n : Nat} {r : SegRun} (hs : (s.core c).seg = some r)
    (hp : (s.core c).pstate = 1) (hx : (s.core c).stopping = .no) (hroom : (s.core c).buf.length ≤ 240)
    (hn : n = (s.core c).fetchCount r) (ha : a = (s.core c).fetchBase r) (h0 : 0 < n) (hf : s.fetchClean c a n) :
    exec (.fetchResponse c none) s = .next (if (s.core c).buf = [] then (s.fetched c a n).atHead c else s.fetched c a n) := by
  obtain ⟨hcheck, hbad, hpoison⟩ := hf
  have hmay : ¬((s.core c).pstate ≠ 1 ∨ (s.core c).stopping ≠ .no ∨ n = 0 ∨ (s.core c).buf.length + 16 > 256) := by
    rw [hp, hx]
    simp only [ne_eq, not_true_eq_false, false_or]
    omega
  have hgood : (List.range n).find? (fun j => anyMarked s.bad (a + 64 * j) 64) = none :=
    List.find?_eq_none.2 fun j hj => ne_true_of_eq_false (hbad j (List.mem_range.1 hj))
  rw [Core.fetchCount, Core.fetchIndex] at hn
  rw [Core.fetchBase, Core.fetchIndex] at ha
  show execFetchResponse c none s = _
  unfold execFetchResponse
  dsimp only
  rw [hs]
  dsimp only
  rw [← hn, ← ha, if_neg hmay, hcheck]
  dsimp only [Option.bind, Option.orElse]
  rw [hgood]
  dsimp only
  rw [if_neg (ne_true_of_eq_false hpoison), apply_ite Host.Outcome.next]
  simp only [List.isEmpty_iff]
  rfl

/-! ## The report of segments (R198, R314) -/

section
variable {s : State} {c : Nat} {r : SegRun} {rest : List SegRun}

/-- A segment whose commands have all retired counts at its slot and is reported. -/
theorem exec_segmentComplete_over {u : State} {x : Completion} (ho : (s.core c).segOpen = r :: rest) (he : r.endRetired = true)
    (hi : ∀ i ∈ (s.core c).inflight, i.seg ≠ r.no) (hw : s.reportWaits c = false)
    (hu : u = if r.record.seqValid then s.seqUp r.record.seqSlot else s)
    (hx : x = r.record.completion r.status (u.rd (.hifSeqCount r.record.seqSlot)) (some c)) :
    exec (.segmentComplete c) s = .next (if r.record.notify then u.postCompletion x else u.segmentReported x) := by
  have hgone : (s.core c).inflight.any (fun i => decide (i.seg = r.no)) = false :=
    List.any_eq_false.2 fun i hm => by simpa using hi i hm
  show execSegmentComplete c s = _
  unfold execSegmentComplete
  dsimp only
  rw [ho]
  dsimp only
  rw [he, hgone, hw, ← hu, ← hx, apply_ite Host.Outcome.next]
  rfl

/-- A reported segment leaves its core's list and is counted there. -/
theorem State.segmentReported_core (u : State) {x : Completion} (hx : x.core = some c) :
    ((u.segmentReported x).core c).segOpen = (u.core c).segOpen.tail ∧
      (u.segmentReported x).reg (Reg.pmkCnt c 10) = (u.count (Reg.pmkCnt c 10) 1).reg (Reg.pmkCnt c 10) := by
  rw [State.segmentReported, hx]
  dsimp only
  constructor
  · rw [State.core_count, State.core_modCore_self]
  · exact u.reg_count_congr 1 (u.reg_modCore ..)

end

/-- Settles O18: the dispatcher's record is one of the core, whose queue takes it; a fetch that meets no error is the append; and a
segment without NOTIFY is reported at once. -/
theorem segmentsAreFetchedAndReported : Obligations.SegmentsAreFetchedAndReported := by
  refine ⟨fun s core r hf hr hp => ?_, fun s core r hf hq hp hx hh hok => ?_,
    fun s core r hs hp hx => ?_, fun s core r rest ho he hi hw => ?_⟩
  · obtain rfl := SegRec.core_of_find hf
    refine ⟨_, (exec_segmentArrive_room hf hr).trans (congrArg _ (State.segmentArrive_busy hp)), rfl, ?_⟩
    rw [s.core_segmentQueued r]
  · obtain rfl := SegRec.core_of_find hf
    have hcore := s.core_segmentQueued r
    rw [hq] at hcore
    have hrun : (s.segmentQueued r).nextSegment r.core = _ :=
      State.nextSegment_cons (t := []) (by rw [hcore]; rfl) hok (by rw [hcore]; exact hh)
    refine ⟨_, (exec_segmentArrive_room hf (by rw [hq]; decide)).trans
      (congrArg _ ((State.segmentArrive_idle hp hx).trans hrun)), rfl, ?_⟩
    rw [State.core_modCore_self, hcore]
    exact ⟨rfl, rfl, rfl, rfl, rfl⟩
  · intro k i n a h0 hroom hc hb hpo
    refine ⟨_, s.fetched core a n, exec_fetchResponse_clean hs hp hx hroom rfl rfl h0 ⟨hc, hb, hpo⟩, ?_, ?_, rfl⟩
    · rw [State.fetched, State.core_modCore_self]
    · rw [State.fetched, State.core_modCore_self]
  · intro u x
    refine ⟨_, exec_segmentComplete_over ho he hi hw rfl rfl, fun hn => if_pos hn, fun hn => ?_⟩
    obtain ⟨hopen, hcount⟩ := State.segmentReported_core (c := core) u (x := x) rfl
    have hu : u.core core = s.core core := by
      show (if _ then _ else _ : State).core core = _
      split <;> rfl
    rw [if_neg (ne_true_of_eq_false hn), hopen, hu, ho]
    exact ⟨rfl, hcount⟩

/-! ## Retirement (R206 to R208) -/

/-- The state in which a command has left the core and its END entry is offered. -/
def State.retiring (s : State) (c : Nat) (i : Issued) (code : Nat) : State :=
  (s.dropCommand c i.token).trace c i.queue.engine 0x81 code i

/-- The state of a retirement with success before its signals: the LAST of an OPT_NORM is noted (R172). -/
def State.retired (s : State) (c : Nat) (i : Issued) : State :=
  if i.opcode = 0x28 ∧ bitAt i.cmd (8 * 38) = true then
    (s.retiring c i 0).modCore c (fun k => k.modNorm (i.step % 2 ^ 32) (fun x => { x with last := true }))
  else s.retiring c i 0

/-- What a signal entry on an object of this chip adds to the signals on their way. -/
def localSignal (unit part index : Nat) (g : SignalEntry) : List Signal :=
  if g.kind = 0 then [] else [⟨unit, some part, 0xFFFF, g.object, decide (g.kind = 2), index⟩]

section
variable (s : State) (c : Nat) (i : Issued)

theorem exec_commandRetire_executed {engine code : Nat} {q : Queue} {rest : List Issued} (hq : queueOf engine = some q)
    (hi : (s.core c).queue q = i :: rest) (hp : i.progress = .executed code) :
    exec (.commandRetire c engine) s = .next (s.retire c i code) := by
  show execCommandRetire c engine s = _
  rw [execCommandRetire, hq]
  dsimp only
  rw [State.retireOldest, hi]
  dsimp only
  rw [hp]

theorem State.core_retiring (code : Nat) : ∃ q n, (s.retiring c i code).core c =
    { s.core c with
      inflight := (s.core c).inflight.filter (fun j => !(decide (j.token = i.token))), traceQ := q, traceLost := n } := by
  obtain ⟨q, n, h⟩ := (s.dropCommand c i.token).core_trace c i.queue.engine 0x81 code i
  exact ⟨q, n, by rw [State.retiring, h, s.core_dropCommand]⟩

/-- A retiring command changes its core, the layer fences, and what tracing counts. -/
theorem State.retiring_frame (code : Nat) :
    Touches (fieldMask [.regs, .cores, .events, .fences]) s (s.retiring c i code) :=
  State.trace_touches _ c _ _ _ i (.lit rfl) (State.dropCommand_touches s c i.token (.lit rfl) (.refl s))

theorem State.inflight_retired : ((s.retired c i).core c).inflight =
    (s.core c).inflight.filter (fun j => !(decide (j.token = i.token))) := by
  obtain ⟨q, n, h⟩ := s.core_retiring c i 0
  unfold State.retired
  split
  · rw [State.core_modCore_self, h]
    rfl
  · rw [h]

theorem State.signals_retired : (s.retired c i).signals = s.signals := by
  have h : (s.retiring c i 0).signals = s.signals := (s.retiring_frame c i 0).1 .signals rfl
  unfold State.retired
  split <;> exact h

/-- Noting the LAST of an OPT_NORM moves the core neither to another unit nor to another partition. -/
theorem State.identity_retired : (s.retired c i).unitCore c engPmk = (s.retiring c i 0).unitCore c engPmk ∧
    (s.retired c i).corePart c = (s.retiring c i 0).corePart c := by
  unfold State.retired
  split
  · refine ⟨rfl, ?_⟩
    rw [State.corePart, State.core_modCore_self]
    rfl
  · exact ⟨rfl, rfl⟩

/-- A retirement with success performs SIG0 and then SIG1 (R207). -/
theorem State.retire_success : s.retire c i 0 = ((s.retired c i).performSignal ((s.retired c i).unitCore c engPmk)
      ((s.retired c i).corePart c) i.index (cmdSignal i.cmd 0)).performSignal ((s.retired c i).unitCore c engPmk)
        ((s.retired c i).corePart c) i.index (cmdSignal i.cmd 1) := by
  obtain ⟨hu, hp⟩ := s.identity_retired c i
  rw [hu, hp]
  rfl

/-- A retirement with a failure performs no signal: it changes the cores, their registers, and what the retirement itself does. -/
theorem State.retire_failure_frame {code : Nat} (h : code ≠ 0) :
    Touches (fieldMask [.regs, .cores, .events, .fences]) s (s.retire c i code) := by
  have e : s.retire c i code =
      ((s.retiring c i code).modCore c (fun k => k.segFailed i.seg code)).failCore c code i.index i.opcode i.stream := if_neg h
  rw [e]
  exact State.failCore_touches _ c code _ _ _ (.lit rfl) (State.modCore_touches _ c _ (.lit rfl) (s.retiring_frame c i code))

theorem State.signals_performSignal_local (unit part index : Nat) {g : SignalEntry} (h : s.isLocal g.chip = true) :
    (s.performSignal unit part index g).signals = s.signals ++ localSignal unit part index g := by
  by_cases hk : g.kind = 0
  · rw [State.performSignal, localSignal, if_pos hk, if_pos hk, List.append_nil]
  · rw [State.performSignal, localSignal, if_neg hk, if_neg hk, if_pos h]
    rfl

theorem State.isLocal_performSignal (unit part index : Nat) (g : SignalEntry) (chip : Nat) :
    (s.performSignal unit part index g).isLocal chip = s.isLocal chip := by
  unfold State.isLocal State.chipId
  rw [State.rd_congr ((State.performSignal_touches s unit part index g (.refl _) (.refl s)).1 .regs rfl)]

end

/-- Settles O19: a retirement with success is two signals performed on the state without the command, and one that failed stays
within what tracing and the core's failure change. -/
theorem signalsAreSentAtRetirement : Obligations.SignalsAreSentAtRetirement := by
  refine ⟨fun s core engine code q i rest hq hi hp => ⟨_, exec_commandRetire_executed s core i hq hi hp, rfl⟩,
    fun s core i => ?_, fun s core i => ?_, fun s core code i h => ?_⟩
  · rw [s.retire_success core i, State.core_congr (State.cores_performSignal ..), State.core_congr (State.cores_performSignal ..),
      s.inflight_retired core i]
  · refine ⟨s.retired core i, s.signals_retired core i, s.retire_success core i, fun hl => ?_⟩
    obtain ⟨h0, h1⟩ := hl
    rw [s.retire_success core i, State.signals_performSignal_local _ _ _ _ (by rw [State.isLocal_performSignal, h1]),
      State.signals_performSignal_local _ _ _ _ h0, s.signals_retired core i]
    rfl
  · have hf := (s.retire_failure_frame core i h).1
    exact ⟨hf .signals rfl, hf .sync rfl, hf .ports rfl, hf .inbox rfl⟩

/-! ## Failures (R199, R208, R216, R219) -/

section
variable {s : State} {c : Nat}

/-- A first failure with commands in flight is recorded, and the core drains (R208). -/
theorem State.failCore_drains (code index op stream : Nat) (hp : (s.core c).pstate ≠ 3) (hx : (s.core c).stopping ≠ .failed)
    (hi : (s.core c).inflight ≠ []) : s.failCore c code index op stream =
      (s.setReg (Reg.pmkFault c) (BitVec.ofNat 64 (code + index * 2 ^ 16 + op * 2 ^ 40 + stream * 2 ^ 48))).modCore c
        (fun k => { k with stopping := .failed, haltCause := 4, haltReq := 0 }) := by
  unfold State.failCore
  rw [if_neg (not_or.2 ⟨hp, hx⟩)]
  unfold State.settle
  dsimp only
  rw [State.core_modCore_self, State.core_setReg]
  exact if_neg (fun h => hi (List.isEmpty_iff.1 h))

theorem exec_invalidCommand_refused {w r : Nat} (hw : (s.core c).head = some w) (hr : headerReason w = some r)
    (hp : (s.core c).pstate = 1) (hx : (s.core c).stopping = .no) {u : State}
    (hu : u = s.traceFailed c Code.hqCmdInvalid.val (s.core c).headIndex (cmdOpcode w) w) :
    exec (.invalidCommand c) s = .next (u.refuseCommand c r (s.core c).headIndex (cmdOpcode w)) := by
  show execInvalidCommand c s = _
  unfold execInvalidCommand
  dsimp only
  rw [hw]
  dsimp only
  rw [hr]
  dsimp only
  rw [if_pos ⟨hp, hx⟩, hu]

/-- Once nothing is in flight, a core that halts is HALTED. -/
theorem State.settle_halt {cause : Nat} (hi : (s.core c).inflight = []) (hx : (s.core c).stopping = .halt cause) :
    s.settle c = s.enterHalted c cause := by
  unfold State.settle
  dsimp only
  rw [hi, hx]
  rfl

theorem State.settle_failed (hi : (s.core c).inflight = []) (hx : (s.core c).stopping = .failed) : s.settle c = s.enterFaulted c := by
  unfold State.settle
  dsimp only
  rw [hi, hx]
  rfl

theorem State.core_enterHalted (cause : Nat) : (s.enterHalted c cause).core c =
    { s.core c with pstate := 2, stopping := .no, haltCause := cause, haltReq := 0 } := s.core_modCore_self c _

/-- A core that enters FAULTED halts the other cores of its job only (R219). -/
theorem State.core_enterFaulted : (s.enterFaulted c).core c =
    { s.core c with pstate := 3, stopping := .no, haltCause := 4, haltReq := 0 } := by
  unfold State.enterFaulted
  dsimp only
  generalize hu : s.modCore c (fun k => { k with pstate := 3, stopping := .no, haltCause := 4, haltReq := 0 }) = u
  have hcore : u.core c = { s.core c with pstate := 3, stopping := .no, haltCause := 4, haltReq := 0 } := by
    rw [← hu, s.core_modCore_self]
  split
  · exact hcore
  · refine List.foldlRecOn (motive := fun v : State => v.core c = _) _ _ ?_ (fun v hv x hx => ?_)
    · split <;> exact hcore
    · have hne : x ≠ c := by simpa using (List.mem_filter.1 hx).2
      rw [State.core_haltCore_ne v 3 hne, hv]

end

/-- Settles O26: the refusal is raised, recorded and left to drain in that order; a drain that is done settles the core by the
cause of its stop. -/
theorem failuresStopTheCore : Obligations.FailuresStopTheCore := by
  refine ⟨fun s core w r hw hr hp hx hi => ?_, fun s core cause hi hx => ?_, fun s core hi hx => ?_⟩
  · intro k
    obtain ⟨q, n, hcore⟩ := s.core_traceFailed core Code.hqCmdInvalid.val k.headIndex (cmdOpcode w) w
    generalize hu : s.traceFailed core Code.hqCmdInvalid.val k.headIndex (cmdOpcode w) w = u at hcore
    have hstream : (u.core core).stream = k.stream := by
      rw [hcore]
      rfl
    refine ⟨_, (exec_invalidCommand_refused hw hr hp hx hu.symm).trans (congrArg _ (State.failCore_drains _ _ _ _ ?_ ?_ ?_)),
      ?_, ?_, ?_, ?_, ?_⟩
    · rw [State.core_raiseCore, hcore, hp]
      decide
    · rw [State.core_raiseCore, hcore, hx]
      decide
    · rw [State.core_raiseCore, hcore]
      exact hi
    · rw [State.core_modCore_self]
    · rw [State.core_modCore_self, State.core_setReg, State.core_raiseCore, hcore]
    · rw [State.core_modCore_self, Core.issuing, decide_eq_false (fun h => Stopping.noConfusion h.2), Bool.false_and]
    · rw [State.reg_modCore, State.reg_setReg_self, hstream]
    · rw [hstream]
      exact State.mem_events_raiseAs ..
  · exact ⟨_, congrArg Host.Outcome.next (State.settle_halt hi hx), State.core_enterHalted cause⟩
  · exact ⟨_, congrArg Host.Outcome.next (State.settle_failed hi hx), State.core_enterFaulted⟩

/-! ## Halting and going on (R204, R217, R218) -/

section
variable {s : State} {c : Nat}

theorem exec_pmkHalt_open (h : s.barShut false = false) : exec (.pmkHalt c) s = .next ((s.wr (.pmkCtrlHalt c) 1).haltCore c 1) :=
  if_neg (ne_true_of_eq_false h)

theorem exec_pmkResume_open (h : s.barShut false = false) : exec (.pmkResume c) s = .next (s.resumeCore c) :=
  if_neg (ne_true_of_eq_false h)

/-- A RUNNING core halts at its command boundary: at once, or after its drain (R216). -/
theorem State.core_haltCore_boundary (cause : Nat) (hp : (s.core c).pstate = 1) (hx : (s.core c).stopping = .no)
    (hw : (s.core c).waitsBegun = false) (hv : (s.core c).headInvalid = false) :
    (s.haltCore c cause).core c = if (s.core c).inflight = [] then
        { s.core c with pstate := 2, stopping := .no, haltCause := cause, haltReq := 0 }
      else { s.core c with stopping := .halt cause, haltCause := cause, haltReq := 0 } := by
  unfold State.haltCore
  dsimp only
  rw [if_neg (by simp [hp, hx]), if_neg (by simp [hp, hw, hv]), apply_ite (State.core · c), State.core_enterHalted,
    State.core_modCore_self]
  simp only [List.isEmpty_iff]

/-- A halt waits behind a head whose waits have begun, or whose header is refused (R203, R204). -/
theorem State.core_haltCore_waits (cause : Nat) (hp : (s.core c).pstate = 1) (hx : (s.core c).stopping = .no)
    (hw : (s.core c).waitsBegun = true ∨ (s.core c).headInvalid = true) :
    (s.haltCore c cause).core c = { s.core c with haltReq := cause } := by
  unfold State.haltCore
  dsimp only
  rw [if_neg (by simp [hp, hx]), if_pos (.inr hw), State.core_modCore_self]

theorem State.rd_pmkCtrlHalt_wr (s : State) (c : Nat) {v : Nat} (hv : v < 2) : (s.wr (.pmkCtrlHalt c) v).rd (.pmkCtrlHalt c) = v :=
  (s.rd_wr_self _ v (of_decide_eq_true rfl)).trans (Nat.mod_eq_of_lt hv)

theorem State.resumeCore_halted (hp : (s.core c).pstate = 2) (hs : (s.core c).seg ≠ none) :
    s.resumeCore c = ((s.wr (.pmkCtrlHalt c) 0).modCore c (fun k => { k with pstate := 1, haltCause := 0, haltReq := 0 })).atHead c := by
  unfold State.resumeCore
  dsimp only
  rw [State.core_wr, if_pos hp]
  exact if_neg (fun h => hs (Option.isNone_iff_eq_none.1 h))

theorem State.resumeCore_draining {cause : Nat} (hp : (s.core c).pstate = 1) (hx : (s.core c).stopping = .halt cause) :
    (s.resumeCore c).core c = { s.core c with haltReq := 0, stopping := .no } := by
  unfold State.resumeCore
  dsimp only
  rw [State.core_wr, if_neg (by rw [hp]; decide), State.core_modCore_self, State.core_wr, hx]

end

/-- Settles O27: HALT stands in PMK_CTRL whatever the core does, and a halt concerns its own core alone. -/
theorem haltAndResume : Obligations.HaltAndResume := by
  refine ⟨fun s core h hp hx hw hv => ?_, fun s core h hp hx hw => ?_, fun s core h hp hs => ?_, fun s core cause h hp hx => ?_⟩
  · refine ⟨_, exec_pmkHalt_open h, State.core_haltCore_boundary 1 hp hx hw hv, fun c hc => ?_, ?_⟩
    · rw [State.core_haltCore_ne _ 1 hc.symm, State.core_wr]
    · rw [State.rd_congr (State.regs_haltCore ..), State.rd_pmkCtrlHalt_wr _ _ (by decide)]
  · refine ⟨_, exec_pmkHalt_open h, State.core_haltCore_waits 1 hp hx hw, ?_⟩
    rw [State.rd_congr (State.regs_haltCore ..), State.rd_pmkCtrlHalt_wr _ _ (by decide)]
  · refine ⟨_, _, (exec_pmkResume_open h).trans (congrArg _ (State.resumeCore_halted hp hs)), rfl, ?_, ?_⟩
    · rw [State.rd_modCore, State.rd_pmkCtrlHalt_wr _ _ (by decide)]
    · rw [State.core_modCore_self, State.core_wr]
  · exact ⟨_, exec_pmkResume_open h, State.resumeCore_draining hp hx⟩

end Sys2Proof.Machine

/-!
PROOFS. The entries of the submission queues and what follows from them (R305 to R314): O38.
-/
namespace Sys2Proof.Machine

/-! ## What taking an entry leaves alone -/

section
variable (s : State)

theorem State.dispatch_entryTaken (q : Nat) : (s.entryTaken q).dispatch = s.dispatch :=
  (State.entryTaken_touches s q (.refl _) (.refl s)).1 .dispatch rfl

theorem State.signals_entryDone (q w : Nat) : (s.entryDone q w).signals = s.signals :=
  (State.entryDone_touches s q w (.refl _) (.refl s)).1 .signals rfl

theorem State.flagWord_entryDone (q w g : Nat) : (s.entryDone q w).flagWord g = s.flagWord g := by
  rw [State.flagWord, (State.entryDone_touches s q w (.refl _) (.refl s)).1 .flags rfl]
  rfl

end

/-! ## Entries at the head of a queue (R309, R310) -/

/-- The state after an entry has given its granules an owner, or has failed at the first granule that forbids it. -/
def State.changeOwners (u : State) (q w owner kind : Nat) (forbids : Nat → Bool) : State :=
  ifSome ((enGranules w).find? forbids) (fun g => (u.ownershipEvent sevFailed g kind).failEntry q w Code.hqOwnership.val)
    ((u.setOwners (enGranules w) owner).entryDone q w)

section
variable {s u : State} {q type w : Nat}

/-- A valid entry that asks for no wait acts at once. -/
theorem State.headEntry.entryRow (h : s.headEntry q type w u) (act : State → Nat → State) : s.entryRow q type act = act u w := by
  obtain ⟨hrun, hmore, hfree, hread, htype, hvalid, hwait, hhead⟩ := h
  have hturn : ¬(s.queueState q ≠ 1 ∨ s.queueHead q = s.queueTail q ∨ s.queueWaits q = true) := by simp [hrun, hmore, hfree]
  have hgood : ¬(enType w ≠ type ∨ (u.entryReason (u.queuePart q) w).isSome = true) := by simp [htype, hvalid]
  have hnow : ¬(enWait w = true ∧ u.headWait q = .none) := by simp [hwait]
  unfold State.entryRow
  rw [if_neg hturn, hread]
  dsimp only
  rw [if_neg hgood, if_neg hnow, hhead]
  exact if_neg (ne_true_of_eq_false hwait)

theorem exec_entrySegment_head (h : s.headEntry q 1 w u) {r : SegRec} (hr : r = enRecord w q (u.queuePart q) u.segOrder) :
    exec (.entrySegment q) s = .next (if u.dispatchRoom r then
      ((u.setDispatch (u.dispatch ++ [r])).setSegOrder (u.segOrder + 1)).entryTaken q else u) := by
  rw [hr]
  exact congrArg Host.Outcome.next (h.entryRow _)

theorem exec_entryGrant_head (h : s.headEntry q 2 w u) :
    exec (.entryGrant q) s = .next (u.changeOwners q w 1 3 (fun g => decide (u.flagWord g % 4 = 1))) := by
  show Host.Outcome.next (s.entryRow q 2 _) = _
  rw [h.entryRow, State.changeOwners]
  cases (enGranules w).find? (fun g => decide (u.flagWord g % 4 = 1)) <;> rfl

theorem exec_entryClaim_head (h : s.headEntry q 3 w u) :
    exec (.entryClaim q) s = .next (u.changeOwners q w 2 4 (fun g => decide (u.flagWord g % 4 ≠ 0))) := by
  show Host.Outcome.next (s.entryRow q 3 _) = _
  rw [h.entryRow, State.changeOwners]
  cases (enGranules w).find? (fun g => decide (u.flagWord g % 4 ≠ 0)) <;> rfl

theorem exec_entrySignal_head (h : s.headEntry q 4 w u) : exec (.entrySignal q) s =
    .next ((u.performSignal unitPcie (u.queuePart q) 0 (signalEntry (bytesAt w 32 6))).entryDone q w) :=
  congrArg Host.Outcome.next (h.entryRow _)

/-- The held segments of a slot are dropped first; the event then tells how many they were (R314). -/
theorem exec_entrySeqCancel_head (h : s.headEntry q 5 w u) {held : List SegRec} {v : State}
    (hh : held = u.dispatch.filter (fun r => decide (r.seqSlot = enSlot w) && u.seqHeld r))
    (hv : v = held.foldl (fun s r => s.dropSegment r Code.hqSeqCancelled.val) u) :
    exec (.entrySeqCancel q) s = .next ((v.raise .hqSeqCancelled unitPcie (v.queuePart q)
      (payload [(16, 1, enSlot w), (20, 4, held.length)])).entryDone q w) := by
  rw [hv, hh]
  exact congrArg Host.Outcome.next (h.entryRow _)

theorem exec_entryNop_head (h : s.headEntry q 6 w u) : exec (.entryNop q) s = .next (u.entryDone q w) :=
  congrArg Host.Outcome.next (h.entryRow _)

theorem exec_entryInvalid_head {reason : Nat} (hrun : s.queueState q = 1) (hmore : s.queueHead q ≠ s.queueTail q)
    (hfree : s.queueWaits q = false) (hread : s.readEntry q = (u, w, none))
    (hr : u.entryReason (u.queuePart q) w = some reason) :
    exec (.entryInvalid q) s = .next (((u.raise .hqEntryInvalid unitPcie (partByte (u.queuePart q))
      (payload [(16, 1, reason), (20, 2, q), (24, 4, u.queueHead q)])).postFailure q w Code.hqEntryInvalid.val).entryTaken q) := by
  have hturn : ¬(s.queueState q ≠ 1 ∨ s.queueHead q = s.queueTail q ∨ s.queueWaits q = true) := by simp [hrun, hmore, hfree]
  show execEntryInvalid q s = _
  unfold execEntryInvalid
  rw [if_neg hturn, hread]
  dsimp only
  rw [hr]

end

/-! ## Granules (R305) -/

section
variable (s : State)

/-- Each granule of a list gets the owner, its SEQ one up; every other keeps its flag. -/
theorem State.flagWord_setOwners {gs : List Nat} (owner g : Nat) (hn : gs.Nodup) : (s.setOwners gs owner).flagWord g =
    if g ∈ gs then owner + (s.flagWord g / 65536 + 1) % 65536 * 65536 else s.flagWord g := by
  induction gs generalizing s with
  | nil => rfl
  | cons x t ih =>
    obtain ⟨hx, ht⟩ := List.nodup_cons.1 hn
    refine (ih (s.setFlag x _) ht).trans ?_
    by_cases hg : g = x
    · subst hg
      rw [if_neg hx, if_pos List.mem_cons_self, State.flagWord_setFlag_self]
    · simp only [State.flagWord_setFlag_ne s _ (Ne.symm hg), List.mem_cons, hg, false_or]

theorem enGranules_nodup (w : Nat) : (enGranules w).Nodup := nodup_entries (enGranule w) (enCount w)

/-- Where no granule forbids it, an entry's granules get its owner, and the other flags stay. -/
theorem State.flagWord_changeOwners {w : Nat} {forbids : Nat → Bool} (q owner kind g : Nat)
    (h : ∀ x ∈ enGranules w, ¬forbids x = true) : (s.changeOwners q w owner kind forbids).flagWord g =
      if g ∈ enGranules w then owner + (s.flagWord g / 65536 + 1) % 65536 * 65536 else s.flagWord g := by
  rw [State.changeOwners, List.find?_eq_none.2 h, ifSome_none, State.flagWord_entryDone,
    s.flagWord_setOwners owner g (enGranules_nodup w)]

theorem State.changeOwners_forbidden {w g : Nat} {forbids : Nat → Bool} (q owner kind : Nat)
    (h : (enGranules w).find? forbids = some g) : s.changeOwners q w owner kind forbids =
      (s.ownershipEvent sevFailed g kind).failEntry q w Code.hqOwnership.val := by
  rw [State.changeOwners, h, ifSome_some]

/-! ## Streams and holdoffs (R312, R313) -/

theorem exec_completionPostResume_room {n : Nat} {x : Completion} {l : List Completion} (hon : (s.stream n).on = true)
    (hw : (s.stream n).waiting = x :: l) (hf : s.streamFull n = false) :
    exec (.completionPostResume n) s = .next ((s.modStream n (fun y => { y with waiting := l })).writeCompletion x) := by
  show execCompletionPostResume n s = _
  rw [execCompletionPostResume, if_pos hon, State.resumeStream, hw]
  exact congrArg Host.Outcome.next (if_neg (ne_true_of_eq_false hf))

/-- The end of a ring's holdoff: the message owed goes out, and the next holdoff begins. -/
theorem exec_msixHoldoffExpiry_ring {n : Nat} (h : (s.ring n).owed = true) {u : State}
    (hu : u = (s.setDtime (max s.dtime (s.ring n).holdoff)).sendMsix (ringFn n) (s.rd (.hifPartEvctrlVector n))) :
    exec (.msixHoldoffExpiry true n) s =
      .next (u.modRing n (fun y => { y with owed := false, holdoff := u.dtime + 1000 * u.rd (.hifPartEvctrlHoldoff n) })) := by
  rw [hu]
  exact if_pos h

theorem exec_msixHoldoffExpiry_stream {n : Nat} (h : (s.stream n).owed = true) : exec (.msixHoldoffExpiry false n) s =
    .next ((s.setDtime (max s.dtime (s.stream n).holdoff)).streamMessage n) := if_pos h

theorem State.dtime_sendMsix (fn v : Nat) : (s.sendMsix fn v).dtime = s.dtime :=
  (State.sendMsix_touches s fn v (.refl _) (.refl s)).1 .dtime rfl

end

/-- Settles O38: an entry that may act does what its row's equation says to the state in which it was read. -/
theorem submissionEntriesTakeEffect : Obligations.SubmissionEntriesTakeEffect := by
  refine fun s => ⟨fun q w u h => ?_, fun q w u h => ⟨_, exec_entryGrant_head h, fun hg g => ?_, fun g hg => ?_⟩,
    fun q w u h => ⟨_, exec_entryClaim_head h, fun hg g => ?_, fun g hg => ?_⟩, fun q w u h => ?_,
    fun q w u h => ⟨_, _, exec_entrySeqCancel_head h rfl rfl, rfl, State.mem_events_raise ..⟩,
    fun q w u h => exec_entryNop_head h,
    fun q w reason u hrun hmore hfree hread hr =>
      ⟨_, _, exec_entryInvalid_head hrun hmore hfree hread hr, rfl, State.mem_events_raise ..⟩,
    fun n x l hon hw hf => ⟨_, _, exec_completionPostResume_room s hon hw hf, rfl, s.stream_modStream_self n _⟩,
    fun n h => ⟨_, exec_msixHoldoffExpiry_ring s h rfl, ?_, ?_⟩, fun n h => exec_msixHoldoffExpiry_stream s h⟩
  · intro r
    refine ⟨_, exec_entrySegment_head h rfl, fun hr => ?_, fun hr => if_neg (ne_true_of_eq_false hr)⟩
    rw [if_pos hr]
    exact State.dispatch_entryTaken _ q
  · exact u.flagWord_changeOwners q 1 3 g fun x hx => by simpa using hg x hx
  · exact u.changeOwners_forbidden q 1 3 hg
  · exact u.flagWord_changeOwners q 2 4 g fun x hx => by simpa using hg x hx
  · exact u.changeOwners_forbidden q 2 4 hg
  · intro g
    refine ⟨_, exec_entrySignal_head h, fun hk hl => ?_, fun hk => by rw [State.performSignal, if_pos hk]⟩
    rw [State.signals_entryDone, State.signals_performSignal_local _ _ _ _ hl, localSignal, if_neg (show g.kind ≠ 0 by omega)]
  · rw [State.ring_modRing_self]
  · rw [State.dtime_modRing, State.dtime_sendMsix, State.dtime_setDtime]

end Sys2Proof.Machine

/-!
PROOFS. The statements of chapter 9: the rule of R225 at reset and under every step (O6, O4), what waits, signals and broadcasts do
to their object (O21 to O24), how waiters leave a queue without a signal (O25), and the manual operations (O29).
-/
namespace Sys2Proof.Machine

/-! ## The rule of R225 -/

theorem Touches.keepsSyncRule {m : Nat} {s t : State} (h : Touches m s t) (hr : s.syncRule) : t.syncRule := by
  obtain ⟨-, -, hrule⟩ := h
  exact hrule hr

/-- Settles O4: the frame of every command, and that of a tick, carries the rule. -/
theorem stepKeepsSyncRule : Obligations.StepKeepsSyncRule := by
  intro s t hr h
  unfold step at h
  split at h
  · cases h
    exact (State.tick_touches s (.refl _) (.refl s)).keepsSyncRule hr
  · next c rest _ =>
    have hrest : State.syncRule { s with pending := rest } := syncRule_congr (s := s) rfl hr
    exact (exec_touches c _ (.refl _) (.refl _) t h).keepsSyncRule hrest

theorem State.obj_reset (o : Nat) : State.reset.obj o = SyncObj.reset := rfl

/-- Settles O6: at reset every object is FREE with COUNT 0, and every store is empty. -/
theorem resetMeetsTheInvariants : Obligations.ResetMeetsTheInvariants := by
  refine ⟨fun o _ => ?_, rfl, rfl⟩
  rw [State.obj_reset]
  rfl

/-! ## Agents that are let go -/

section
variable (s : State)

theorem State.obj_congr {s t : State} (h : t.sync = s.sync) (o : Nat) : t.obj o = s.obj o := by
  rw [State.obj, State.obj, h]

theorem State.sync_letGo (o : Nat) (a : WaitAgent) (r : Option Code) : (s.letGo o a r).sync = s.sync :=
  (State.letGo_touches s o a r (.refl _) (.refl s)).1 .sync rfl

theorem State.dtime_letGo (o : Nat) (a : WaitAgent) (r : Option Code) : (s.letGo o a r).dtime = s.dtime :=
  (State.letGo_touches s o a r (.refl _) (.refl s)).1 .dtime rfl

theorem State.obj_letAllGo (o : Nat) (r : Option Code) (l : List Waiter) (p : Nat) : (s.letAllGo o r l).obj p = s.obj p :=
  State.obj_congr ((State.letAllGo_touches s o r l (.refl _) (.refl s)).1 .sync rfl) p

/-- Letting an agent go leaves what was written to the object. -/
theorem State.obj_letGo_count_setObj (o : Nat) (x : SyncObj) (a n : Nat) (g : WaitAgent) (r : Option Code) :
    (((s.setObj o x).count a n).letGo o g r).obj o = x := by
  rw [State.letGo_obj, State.obj_count, State.obj_setObj_self]

/-! ## Waits (R226) -/

variable {s} {a : WaitAgent} {q o : Nat} {d : Option Nat}

theorem State.waitOn_free (h : (s.obj o).state = objFree) : s.waitOn a q o d = s.letGo o a (some .synUnallocated) :=
  if_pos h

theorem State.waitOn_orphaned (h : (s.obj o).state = objOrphaned) : s.waitOn a q o d = s.letGo o a (some .synOrphaned) :=
  (if_neg (by rw [h]; decide)).trans (if_pos h)

theorem State.waitOn_notOwner (hf : (s.obj o).state ≠ objFree) (ho : (s.obj o).state ≠ objOrphaned) (hq : q ≠ (s.obj o).part) :
    s.waitOn a q o d = s.letGo o a (some .synNotOwner) :=
  (if_neg hf).trans ((if_neg ho).trans (if_pos hq))

theorem State.waitOn_taken (hf : (s.obj o).state ≠ objFree) (ho : (s.obj o).state ≠ objOrphaned) (hq : q = (s.obj o).part)
    (hc : 0 < (s.obj o).count) : s.waitOn a q o d =
      ((s.setObj o { s.obj o with count := (s.obj o).count - 1 }).count (Reg.synCnt 0) 1).letGo o a none :=
  (if_neg hf).trans ((if_neg ho).trans ((if_neg (not_not_intro hq)).trans (if_pos hc)))

theorem State.waitOn_queued (hf : (s.obj o).state ≠ objFree) (ho : (s.obj o).state ≠ objOrphaned) (hq : q = (s.obj o).part)
    (hc : (s.obj o).count = 0) : s.waitOn a q o d = ((((s.setWaitOrder (s.waitOrder + 1)).setObj o
      { s.obj o with waiters := (s.obj o).waiters ++ [⟨a, q, d, s.waitOrder + 1⟩] }).count (Reg.synCnt 1) 1).notePeak) :=
  (if_neg hf).trans ((if_neg ho).trans ((if_neg (not_not_intro hq)).trans (if_neg (by omega))))

end

/-! ## How a wait comes to its object (R200, R224, R238) -/

section
variable {s : State}

/-- A head that passes checks 3 to 8 sends its next sync wait; the first of them fixes the deadline. -/
theorem exec_syncWait_head {c w n o e : Nat} {q : Queue} {d : Option Nat} (hw : (s.core c).head = some w)
    (hop : opcodeRow (cmdOpcode w) (cmdEngine w) = some (q, e)) (hn : (syncWaits w)[(s.core c).waitsDone]? = some (n, o))
    (hh : headerReason w = none) (hi : (s.core c).issuing = true) (hx : (s.core c).waiting = false)
    (hck : s.checks3to8 c w q (s.regionsOf c w) = true) (hf : s.ownFence c w = true)
    (hd : d = if (s.core c).waitsDone = 0 then s.deadline (cmdTimeout w) else (s.core c).waitDeadline) :
    exec (.syncWait c) s =
      .next ((s.modCore c (fun k => { k with waiting := true, waitDeadline := d })).waitFrom (.core c) (s.corePart c) o d) := by
  have hpart : (s.modCore c (fun k => { k with waiting := true, waitDeadline := d })).corePart c = s.corePart c := by
    rw [State.corePart, State.core_modCore_self]
    rfl
  show execSyncWait c s = _
  rw [execSyncWait, hw]
  dsimp only
  rw [hop, hn]
  dsimp only
  rw [if_neg (by simp [hh, hi, hx, hck, hf]), ← hd, hpart]

/-- A port with room takes the WAIT and counts it as outstanding (R239). -/
theorem exec_hartWait_room {h : Nat} (object timeout cookie : Nat) (hb : s.barShut false = false) (hr : s.hartRoom h = true) :
    exec (.hartWait h object timeout cookie) s =
      .next ((s.wr (.synHartStatusOutstanding h) (s.rd (.synHartStatusOutstanding h) + 1)).waitFrom (.hart h cookie)
        (s.hartPart h) object (s.deadline timeout)) := by
  show execHartWait h object timeout cookie s = _
  rw [execHartWait, if_neg (ne_true_of_eq_false hb), State.hartWait, if_pos hr]

/-- Without signals of the source on their way to the object, nothing happens before the wait. -/
theorem State.settleSource_none {src o : Nat} (h : ∀ g ∈ s.signals, ¬(g.src = src ∧ g.object = o)) :
    s.settleSource src o = s := by
  have hmine : s.signals.filter (fun g => decide (g.src = src ∧ g.object = o)) = [] :=
    List.filter_eq_nil_iff.2 fun g hg => by simpa only [decide_eq_true_eq] using h g hg
  have hrest : s.signals.filter (fun g => !(decide (g.src = src ∧ g.object = o))) = s.signals :=
    List.filter_eq_self.2 fun g hg => by simpa only [Bool.not_eq_true', decide_eq_false_iff_not] using h g hg
  rw [State.settleSource, hmine, hrest]
  rfl

end

/-- Settles O21: the equations of a wait by the state, the owner and COUNT of its object, and the two rows that send one. -/
theorem waitsTakeACountOrQueue : Obligations.WaitsTakeACountOrQueue := by
  refine ⟨fun s a q o d => ⟨State.waitOn_free, State.waitOn_orphaned, State.waitOn_notOwner, fun hf ho hq hc => ?_,
      fun hf ho hq hc => ?_⟩,
    fun s core w n o q e hw hop hn hh hi hx hck hf =>
      ⟨_, _, exec_syncWait_head hw hop hn hh hi hx hck hf rfl, rfl, rfl, rfl, s.core_modCore_self core _⟩,
    fun s hart object timeout cookie hb hr => ⟨_, _, exec_hartWait_room object timeout cookie hb hr, rfl, rfl, rfl,
      s.rd_wr_self (.synHartStatusOutstanding hart) _ (of_decide_eq_true rfl)⟩,
    fun s src o => State.settleSource_none⟩
  · rw [State.waitOn_taken hf ho hq hc]
    exact ⟨s.obj_letGo_count_setObj .., _, by rw [State.cores_count, State.cores_setObj], rfl⟩
  · rw [State.waitOn_queued hf ho hq hc, State.notePeak]
    refine ⟨?_, ?_, ?_⟩
    · rw [State.obj_wr, State.obj_count, State.obj_setObj_self]
    · rw [State.cores_wr, State.cores_count, State.cores_setObj, State.cores_setWaitOrder]
    · rw [State.out_wr, State.out_count, State.out_setObj, State.out_setWaitOrder]

/-! ## Refused signals (R229) -/

section
variable (s : State)

theorem State.mem_events_count {e : Event} (a n : Nat) (h : e ∈ s.events) : e ∈ (s.count a n).events := by
  rw [State.count_eq]
  split
  · exact h
  · split
    · rwa [State.events_wr]
    · rw [State.events_raise, State.events_wr, State.events_wr]
      exact List.mem_append_left _ h

variable (g : Signal) (code : Code)

theorem State.signalRefused_frame : Touches (fieldMask [.regs, .events]) s (s.signalRefused g code) :=
  State.signalRefused_touches s g code (.lit rfl) (.refl s)

theorem State.mem_events_signalRefused : ∃ e ∈ (s.signalRefused g code).events,
    e.code = code.val ∧ e.unit = g.src ∧ e.part = g.part.getD noPart ∧ e.sev = sevNotice :=
  ⟨_, State.mem_events_count _ _ _ (List.mem_append_right _ (List.mem_singleton_self _)), rfl, rfl, rfl, rfl⟩

/-- Two conditions with one outcome, tested in turn, are one condition. -/
theorem ite_ite_same_left {α : Type} {p r : Prop} [Decidable p] [Decidable r] (y z : α) :
    (if p ∨ r then y else z) = if p then y else if r then y else z := by
  by_cases hp : p
  · rw [if_pos hp, if_pos (.inl hp)]
  · by_cases hr : r
    · rw [if_neg hp, if_pos hr, if_pos (.inr hr)]
    · rw [if_neg hp, if_neg hr, if_neg (not_or.2 ⟨hp, hr⟩)]

theorem SyncObj.refusal_eq (x : SyncObj) : x.refusal g =
    if x.state = objFree then some .synUnallocated else if x.state = objOrphaned then some .synOrphaned
    else if (x.scope = 1 ∧ g.chip = 0xFFFF ∧ g.part ≠ some x.part) ∨ (x.scope = 2 ∧ (g.chip ≠ 0xFFFF ∨ g.part ≠ some x.part)) then
      some .synScope else none := by
  rw [ite_ite_same_left]
  simp only [SyncObj.refusal, decide_eq_false_iff_not, decide_eq_true_eq, ne_eq, Decidable.not_not]

end

/-! ## What a signal does where it arrives (R227, R228) -/

/-- The state without the signal at place `i` of those on their way. -/
def State.signalTaken (s : State) (i : Nat) : State := s.setSignals (s.signals.eraseIdx i)

@[simp] theorem State.obj_signalTaken (s : State) (i o : Nat) : (s.signalTaken i).obj o = s.obj o := rfl
@[simp] theorem State.cores_signalTaken (s : State) (i : Nat) : (s.signalTaken i).cores = s.cores := rfl
@[simp] theorem State.reg_signalTaken (s : State) (i a : Nat) : (s.signalTaken i).reg a = s.reg a := rfl

section
variable {s : State} {g : Signal}

theorem State.applySignal_refused {code : Code} (h : (s.obj g.object).refusal g = some code) :
    s.applySignal g = s.signalRefused g code := by
  rw [State.applySignal, h]

section
variable (h : (s.obj g.object).refusal g = none)
include h

theorem State.applySignal_released {w : Waiter} {rest : List Waiter} (hb : g.broadcast = false)
    (hw : (s.obj g.object).waiters = w :: rest) : s.applySignal g =
      ((s.setObj g.object { s.obj g.object with waiters := (s.obj g.object).waiters.tail }).count (Reg.synCnt 2) 1).letGo g.object
        w.agent none := by
  rw [State.applySignal, h]
  dsimp only
  rw [if_neg (ne_true_of_eq_false hb), hw]
  rfl

theorem State.applySignal_counted (hb : g.broadcast = false) (hw : (s.obj g.object).waiters = [])
    (hc : (s.obj g.object).count < 0xFFFFFFFF) : s.applySignal g =
      (s.setObj g.object { s.obj g.object with count := (s.obj g.object).count + 1 }).count (Reg.synCnt 2) 1 := by
  rw [State.applySignal, h]
  dsimp only
  rw [if_neg (ne_true_of_eq_false hb), hw]
  exact if_neg (Nat.not_le.2 hc)

theorem State.applySignal_saturated (hb : g.broadcast = false) (hw : (s.obj g.object).waiters = [])
    (hc : (s.obj g.object).count ≥ 0xFFFFFFFF) : s.applySignal g = s.signalRefused g .synCountSat := by
  rw [State.applySignal, h]
  dsimp only
  rw [if_neg (ne_true_of_eq_false hb), hw]
  exact if_pos hc

theorem State.applySignal_broadcast (hb : g.broadcast = true) (hw : (s.obj g.object).waiters ≠ []) : s.applySignal g =
    ((s.setObj g.object { s.obj g.object with waiters := [] }).count (Reg.synCnt 3) 1).letAllGo g.object none
      (s.obj g.object).waiters := by
  rw [State.applySignal, h]
  dsimp only
  rw [if_pos hb, if_neg (mt List.isEmpty_iff.1 hw)]

theorem State.applySignal_unheard (hb : g.broadcast = true) (hw : (s.obj g.object).waiters = []) :
    s.applySignal g = s.count (Reg.synCnt 4) 1 := by
  rw [State.applySignal, h]
  dsimp only
  rw [if_pos hb, hw]
  rfl

end

/-- A signal that arrives leaves those on their way and is applied at its object (R224). -/
theorem State.signalArrives_arrives {i : Nat} {b : Bool} (h : s.arrives i g) (hb : g.broadcast = b) :
    s.signalArrives i b = (s.signalTaken i).applySignal g := by
  obtain ⟨hg, hfirst⟩ := h
  rw [State.signalArrives, hg]
  exact if_neg (by simpa [hb] using hfirst)

theorem exec_syncSignal_arrives {i : Nat} (h : s.arrives i g) (hb : g.broadcast = false) :
    exec (.syncSignal i) s = .next ((s.signalTaken i).applySignal g) :=
  congrArg Host.Outcome.next (State.signalArrives_arrives h hb)

theorem exec_syncBroadcast_arrives {i : Nat} (h : s.arrives i g) (hb : g.broadcast = true) :
    exec (.syncBroadcast i) s = .next ((s.signalTaken i).applySignal g) :=
  congrArg Host.Outcome.next (State.signalArrives_arrives h hb)

end

/-- Settles O22: one equation of a signal's effect for each of a waiter, room for a count, and none. -/
theorem signalsGiveOneUnit : Obligations.SignalsGiveOneUnit := by
  intro s i g ha hb x hn
  have hv : ((s.signalTaken i).obj g.object).refusal g = none := by
    rw [State.obj_signalTaken]
    exact hn
  refine ⟨_, ((s.signalTaken i).setObj g.object { x with waiters := x.waiters.tail }).count (Reg.synCnt 2) 1,
    exec_syncSignal_arrives ha hb, fun w rest hw => ?_, fun hw hc => ?_, fun hw hc => ?_⟩
  · have e := State.applySignal_released hv hb hw
    refine ⟨e, ?_, by rw [State.cores_count, State.cores_setObj, State.cores_signalTaken]⟩
    rw [e, State.obj_letGo_count_setObj]
    exact congrArg (fun l => { x with waiters := l }) (congrArg List.tail hw)
  · rw [State.applySignal_counted hv hb hw hc, State.obj_count, State.obj_setObj_self, State.cores_count, State.cores_setObj,
      State.cores_signalTaken]
    exact ⟨rfl, rfl⟩
  · rw [State.applySignal_saturated hv hb hw hc]
    obtain ⟨e, he, hcode, hunit, -, hsev⟩ := State.mem_events_signalRefused _ g .synCountSat
    refine ⟨(State.signalRefused_frame _ g .synCountSat).1 .sync rfl, ?_, ?_, e, he, hcode, hunit, hsev⟩
    · exact State.reg_count_ne _ 1 (by decide)
    · exact s.reg_count_congr 1 (s.reg_signalTaken i _)

/-- Settles O23: a broadcast empties the queue it meets, and is only counted where it meets none. -/
theorem broadcastsReleaseTheQueue : Obligations.BroadcastsReleaseTheQueue := by
  intro s i g ha hb x hn
  have hv : ((s.signalTaken i).obj g.object).refusal g = none := by
    rw [State.obj_signalTaken]
    exact hn
  refine ⟨_, ((s.signalTaken i).setObj g.object { x with waiters := [] }).count (Reg.synCnt 3) 1,
    exec_syncBroadcast_arrives ha hb, fun hw => ?_, fun hw => ?_⟩
  · have e := State.applySignal_broadcast hv hb hw
    refine ⟨e, ?_, by rw [State.cores_count, State.cores_setObj, State.cores_signalTaken]⟩
    rw [e, State.obj_letAllGo, State.obj_count, State.obj_setObj_self]
    rfl
  · rw [State.applySignal_unheard hv hb hw]
    exact ⟨State.sync_count .., State.cores_count .., State.out_count .., s.reg_count_congr 1 (s.reg_signalTaken i _)⟩

/-- Settles O24: the refusal in one equation, and a refused signal's frame and event. -/
theorem refusedSignalsHaveNoEffect : Obligations.RefusedSignalsHaveNoEffect := by
  refine ⟨fun x g => x.refusal_eq g, fun s i g code cmd ha hr hcmd => ?_⟩
  have hexec : exec cmd s = .next ((s.signalTaken i).signalRefused g code) := by
    rw [← State.applySignal_refused (s := s.signalTaken i) hr]
    rcases hcmd with ⟨hb, rfl⟩ | ⟨hb, rfl⟩
    · exact exec_syncSignal_arrives ha hb
    · exact exec_syncBroadcast_arrives ha hb
  have hframe := (s.signalTaken i).signalRefused_frame g code
  exact ⟨_, hexec, hframe.1 .sync rfl, hframe.1 .cores rfl, hframe.1 .out rfl, State.mem_events_signalRefused _ g code⟩

/-! ## Leaving the queue without a signal (R230, R234, R239) -/

section
variable {s : State}

theorem exec_syncWaitTimeout_deadline {object place d : Nat} {w : Waiter} (hw : (s.obj object).waiters[place]? = some w)
    (hd : w.deadline = some d) : exec (.syncWaitTimeout object place) s =
      .next ((((s.setDtime (max s.dtime d)).setObj object
        { s.obj object with waiters := (s.obj object).waiters.eraseIdx place }).count (Reg.synCnt 5) 1).letGo object w.agent
          (some .synTimeout)) := by
  show Host.Outcome.next (s.abandon object place) = _
  rw [State.abandon]
  dsimp only
  rw [hw]
  dsimp only
  rw [hd]

theorem exec_hartSignal_open (h chip object : Nat) (hb : s.barShut false = false) :
    exec (.hartSignal h chip object) s = .next (s.hartSignal h chip object 1) := if_neg (ne_true_of_eq_false hb)

theorem exec_hartBroadcast_open (h chip object : Nat) (hb : s.barShut false = false) :
    exec (.hartBroadcast h chip object) s = .next (s.hartSignal h chip object 2) := if_neg (ne_true_of_eq_false hb)

/-- On an object of this chip a hart's signal only joins those on their way (R224). -/
theorem State.hartSignal_local (h object : Nat) {chip kind : Nat} (hl : s.isLocal chip = true) (hk : kind ≠ 0) :
    s.hartSignal h chip object kind = s.setSignals (s.signals ++
      [⟨unitHart h, some (s.hartPart h), 0xFFFF, object, decide (kind = 2), 0⟩]) :=
  (if_neg hk).trans (if_pos hl)

theorem exec_hartCancel_open (h cookie : Nat) (hb : s.barShut false = false) :
    exec (.hartCancel h cookie) s = .next (s.hartCancel h cookie) := if_neg (ne_true_of_eq_false hb)

theorem State.hartCancel_found {h cookie object : Nat} {w : Waiter} {v : State} (hv : v = s.settleAll (unitHart h))
    (hw : v.hartWaitWith h cookie = some (object, w)) : s.hartCancel h cookie =
      (v.setObj object { v.obj object with waiters := (v.obj object).waiters.erase w }).letGo object (.hart h cookie)
        (some .synCancelled) := by
  rw [State.hartCancel, ← hv]
  dsimp only
  rw [hw]

theorem State.hartCancel_none {h cookie : Nat} (hw : (s.settleAll (unitHart h)).hartWaitWith h cookie = none) :
    s.hartCancel h cookie = s.settleAll (unitHart h) := by
  rw [State.hartCancel]
  dsimp only
  rw [hw]

end

/-- Settles O25: the equation of each of the rows, and what its release leaves of the object. -/
theorem timeoutsAndHartsLeaveTheQueue : Obligations.TimeoutsAndHartsLeaveTheQueue := by
  refine ⟨fun s object place d w hw hd => ?_, fun s hart chip object kind cmd hb hl hcmd => ?_,
    fun s hart cookie object w hb hw => ?_, fun s hart cookie hb hw => ?_⟩
  · refine ⟨_, _, exec_syncWaitTimeout_deadline hw hd, rfl, State.obj_letGo_count_setObj .., ?_, ?_⟩
    · rw [State.dtime_letGo, State.dtime_count, State.dtime_setObj, State.dtime_setDtime]
    · rw [State.cores_count, State.cores_setObj, State.cores_setDtime]
  · have hk : kind ≠ 0 := by omega
    have hexec : exec cmd s = .next (s.hartSignal hart chip object kind) := by
      rcases hcmd with ⟨rfl, rfl⟩ | ⟨rfl, rfl⟩
      · exact exec_hartSignal_open hart chip object hb
      · exact exec_hartBroadcast_open hart chip object hb
    rw [State.hartSignal_local hart object hl hk] at hexec
    exact ⟨_, hexec, rfl, rfl⟩
  · refine ⟨_, _, exec_hartCancel_open hart cookie hb, State.hartCancel_found rfl hw, ?_, State.regs_setObj ..⟩
    rw [State.hartCancel_found rfl hw, State.letGo_obj, State.obj_setObj_self]
  · rw [exec_hartCancel_open hart cookie hb, State.hartCancel_none hw]

/-! ## The manual operations (R235 to R237) -/

section
variable {s : State}

/-- The waiters of an object take its counts, the oldest first, until either runs out. -/
theorem State.obj_drainCount {o n : Nat} (hn : (s.obj o).waiters.length = n) : (s.drainCount o n).obj o =
    { s.obj o with
      count := (s.obj o).count - min (s.obj o).count n, waiters := (s.obj o).waiters.drop (min (s.obj o).count n) } := by
  induction n generalizing s with
  | zero =>
    rw [Nat.min_zero]
    rfl
  | succ n ih =>
    obtain ⟨w, rest, hw⟩ := List.exists_cons_of_length_eq_add_one hn
    rw [State.drainCount]
    simp only [hw]
    by_cases hc : (s.obj o).count = 0
    · rw [if_pos hc, hc, Nat.zero_min, List.drop_zero, ← hw]
      exact congrArg (fun n => { s.obj o with count := n }) hc
    · have hmin : min (s.obj o).count (n + 1) = min ((s.obj o).count - 1) n + 1 := by omega
      have hrest : rest.length = n := by simpa [hw] using hn
      rw [if_neg hc, ih (by rw [State.letGo_obj, State.obj_setObj_self, hrest]), State.letGo_obj, State.obj_setObj_self, hmin,
        List.drop_succ_cons, Nat.sub_sub, Nat.add_comm 1]

theorem State.obj_drainCount_ne {o p n : Nat} (h : p ≠ o) : (s.drainCount o n).obj p = s.obj p := by
  induction n generalizing s with
  | zero => rfl
  | succ n ih =>
    rw [State.drainCount]
    split
    · rfl
    · split
      · rfl
      · rw [ih, State.letGo_obj, State.obj_setObj_ne _ _ h.symm]

theorem State.obj_orphan (o p : Nat) : (s.orphan o).obj p =
    if o = p then { s.obj o with state := objOrphaned, waiters := [] } else s.obj p := by
  rw [State.orphan, State.obj_letAllGo, State.obj_setObj]

theorem State.obj_freeObj (o p : Nat) : (s.freeObj o).obj p = if o = p then SyncObj.reset else s.obj p := by
  rw [State.freeObj, State.obj_wr, State.obj_setObj]
  split
  · rfl
  · next h => rw [State.removeWaiters, State.obj_letAllGo, State.obj_setObj_ne _ _ h]

theorem State.obj_balanceReport (p o : Nat) : (s.balanceReport p).obj o = s.obj o :=
  State.obj_congr ((State.balanceReport_touches s p (.refl _) (.refl s)).1 .sync rfl) o

theorem State.rd_balanceReport (p : Nat) : (s.balanceReport p).rd (.synBalStatusDone p) = 1 ∧
    (s.balanceReport p).rd (.synBalStatusViolations p) =
      ((s.objectsOf p).filter s.unbalanced).length % 2 ^ (RF.synBalStatusViolations p).w := by
  rw [State.balanceReport]
  constructor
  · exact State.rd_wr_self _ (.synBalStatusDone p) 1 (of_decide_eq_true rfl)
  · rw [State.rd_wr_ne _ _ _ _ (.inr (of_decide_eq_true rfl)), State.rd_wr_self _ _ _ (of_decide_eq_true rfl)]

theorem initField_reg (o : Nat) : (initField o).reg = Reg.synInit (o / 2) := by
  unfold initField
  split <;> rfl

theorem initField_width (o : Nat) : (initField o).w = 32 := by
  unfold initField
  split <;> rfl

theorem initField_fits (o : Nat) : (initField o).lo + (initField o).w ≤ 64 := by
  unfold initField
  split <;> exact of_decide_eq_true rfl

theorem State.initCount_wr (o v : Nat) : (s.wr (initField o) v).initCount o = v % 2 ^ 32 := by
  rw [State.initCount, s.rd_wr_self _ _ (initField_fits o), initField_width]

/-- The table of INIT_COUNT ends below SYN_MAN_STATUS. -/
theorem manStatus_ne_initField {o : Nat} (h : o < 65536) : Reg.synManStatus ≠ (initField o).reg := by
  rw [initField_reg]
  unfold Reg.synManStatus Reg.synInit
  omega

theorem manStatus_ne_balStatus (p : Nat) : Reg.synManStatus ≠ Reg.synBalStatus p := by
  unfold Reg.synManStatus Reg.synBalStatus
  omega

/-- An operation that is not refused has its effect; its report reaches SYN_MAN_STATUS and the events only (Table 9-8). -/
theorem State.manual_accepted {op o : Nat} (h4 : op = 4 → o = 0) (h : s.manRefusal op o = none) :
    (∀ p, (s.manual true op o).obj p = (s.manEffect op o).obj p) ∧
      (∀ f, Reg.synManStatus ≠ f.reg → (s.manual true op o).rd f = (s.manEffect op o).rd f) ∧
      (s.manual true op o).manReported o op := by
  have ho : (if op = 4 then 0 else o) = o := by
    split
    · next e => exact (h4 e).symm
    · rfl
  rw [State.manual, if_neg (by simp)]
  dsimp only
  rw [ho, h]
  refine ⟨fun p => ?_, fun f hf => ?_, ?_, ?_⟩
  · rw [State.obj_wr, State.obj_raise]
  · rw [State.rd_wr_ne _ _ _ _ (.inl hf), State.rd_raise]
  · exact State.rd_wr_self _ .synManStatusCode 0 (of_decide_eq_true rfl)
  · rw [State.obj_wr, State.obj_raise]
    exact State.mem_events_raise ..

theorem exec_synInit_open (o : Nat) (hb : s.barShut true = false) : exec (.synInit true o) s = .next (s.manual true 1 o) :=
  if_neg (ne_true_of_eq_false hb)
theorem exec_synSetCount_open (o : Nat) (hb : s.barShut true = false) :
    exec (.synSetCount true o) s = .next (s.manual true 2 o) := if_neg (ne_true_of_eq_false hb)
theorem exec_synSetState_open (o : Nat) (hb : s.barShut true = false) :
    exec (.synSetState true o) s = .next (s.manual true 3 o) := if_neg (ne_true_of_eq_false hb)
theorem exec_synCheck_open (hb : s.barShut true = false) : exec (.synCheck true) s = .next (s.manual true 4 0) :=
  if_neg (ne_true_of_eq_false hb)
theorem exec_synRelease_open (o : Nat) (hb : s.barShut true = false) :
    exec (.synRelease true o) s = .next (s.manual true 5 o) := if_neg (ne_true_of_eq_false hb)

end

/-! ### The effect of each operation (Table 9-6) -/

section
variable (s : State) (o : Nat)

/-- Under INIT the waiters that the object kept take the counts that are there (log entry 18). -/
theorem State.manEffect_init :
    let k := min s.manArg.count (s.obj o).waiters.length
    (s.manEffect 1 o).obj o = ⟨s.manArg.count - k, objActive, s.manArg.scope, s.manArg.part, s.manArg.owner,
        (s.obj o).waiters.drop k⟩ ∧
      (s.manEffect 1 o).initCount o = s.manArg.count % 2 ^ 32 ∧ ∀ p, p ≠ o → (s.manEffect 1 o).obj p = s.obj p := by
  refine ⟨?_, State.initCount_wr o _, fun p hp => ?_⟩
  · rw [State.manEffect, State.obj_wr, State.obj_drainCount (by rw [State.obj_setObj_self]), State.obj_setObj_self]
  · rw [State.manEffect, State.obj_wr, State.obj_drainCount_ne hp, State.obj_setObj_ne _ _ hp.symm]

theorem State.manEffect_setCount :
    let k := min s.manArg.count (s.obj o).waiters.length
    (s.manEffect 2 o).obj o = { s.obj o with count := s.manArg.count - k, waiters := (s.obj o).waiters.drop k } ∧
      ∀ p, p ≠ o → (s.manEffect 2 o).obj p = s.obj p := by
  refine ⟨?_, fun p hp => ?_⟩
  · rw [State.manEffect, State.obj_drainCount (by rw [State.obj_setObj_self]), State.obj_setObj_self]
  · rw [State.manEffect, State.obj_drainCount_ne hp, State.obj_setObj_ne _ _ hp.symm]

theorem State.manEffect_setState :
    (s.manEffect 3 o).obj o = { s.obj o with
        state := s.manArg.state, waiters := if s.manArg.state = objOrphaned then [] else (s.obj o).waiters } ∧
      ∀ p, p ≠ o → (s.manEffect 3 o).obj p = s.obj p := by
  rw [State.manEffect]
  by_cases h : s.manArg.state = objOrphaned
  · rw [if_pos h, if_pos h, h, State.obj_orphan, if_pos rfl]
    exact ⟨rfl, fun p hp => by rw [State.obj_orphan, if_neg hp.symm]⟩
  · rw [if_neg h, if_neg h, State.obj_setObj_self]
    exact ⟨rfl, fun p hp => s.obj_setObj_ne _ hp.symm⟩

theorem State.manEffect_release : (s.manEffect 5 o).obj o = SyncObj.reset ∧ (s.manEffect 5 o).initCount o = 0 ∧
    ∀ p, p ≠ o → (s.manEffect 5 o).obj p = s.obj p := by
  have e : s.manEffect 5 o =
      (if s.unbalanced o then s.imbalance (s.obj o).part o (s.obj o).waiters.length else s).freeObj o := rfl
  rw [e]
  refine ⟨?_, State.initCount_wr o 0, fun p hp => ?_⟩
  · rw [State.obj_freeObj, if_pos rfl]
  · rw [State.obj_freeObj, if_neg hp.symm]
    split
    · rw [State.imbalance, State.obj_raise]
    · rfl

end

/-- Settles O29: each operation is its effect on the objects, reported. -/
theorem manualOperationsAct : Obligations.ManualOperationsAct := by
  intro s hb a
  refine ⟨fun o ho hr => ?_, fun o _ hr => ?_, fun o _ hr => ?_, fun _ => ?_, fun o ho hr => ?_⟩
  · obtain ⟨hobj, hrd, hrep⟩ := State.manual_accepted (by simp) hr
    obtain ⟨hself, hinit, hother⟩ := s.manEffect_init o
    exact ⟨_, exec_synInit_open o hb, (hobj o).trans hself, (hrd _ (manStatus_ne_initField ho)).trans hinit,
      fun p hp => (hobj p).trans (hother p hp), hrep⟩
  · obtain ⟨hobj, -, hrep⟩ := State.manual_accepted (by simp) hr
    obtain ⟨hself, hother⟩ := s.manEffect_setCount o
    exact ⟨_, exec_synSetCount_open o hb, (hobj o).trans hself, fun p hp => (hobj p).trans (hother p hp), hrep⟩
  · obtain ⟨hobj, -, hrep⟩ := State.manual_accepted (by simp) hr
    obtain ⟨hself, hother⟩ := s.manEffect_setState o
    exact ⟨_, exec_synSetState_open o hb, (hobj o).trans hself, fun p hp => (hobj p).trans (hother p hp), hrep⟩
  · obtain ⟨hobj, hrd, hrep⟩ := State.manual_accepted (s := s) (op := 4) (o := 0) (fun _ => rfl) rfl
    obtain ⟨hdone, hviol⟩ := s.rd_balanceReport a.part
    refine ⟨_, exec_synCheck_open hb, fun p => (hobj p).trans (s.obj_balanceReport ..), ?_,
      (hrd _ (manStatus_ne_balStatus _)).trans hviol, hrep⟩
    exact decide_eq_true ((hrd _ (manStatus_ne_balStatus _)).trans hdone)
  · obtain ⟨hobj, hrd, hrep⟩ := State.manual_accepted (by simp) hr
    obtain ⟨hself, hinit, hother⟩ := s.manEffect_release o
    exact ⟨_, exec_synRelease_open o hb, (hobj o).trans hself, (hrd _ (manStatus_ne_initField ho)).trans hinit,
      fun p hp => (hobj p).trans (hother p hp), hrep⟩

end Sys2Proof.Machine

/-!
PROOFS. The memory tiers (chapter 10): regions are created, sealed and freed, and quotas lock (O31); memory is scrubbed, units of
tier 3 are rewritten, and units leave the maps (O30).
-/
namespace Sys2Proof.Machine

/-! ## The registers of regions, quotas and use (R251, R254) -/

theorem useField_reg (p tier : Nat) : (useField p tier).reg = Reg.memUse p := by
  unfold useField
  split <;> rfl

theorem useField_width (p tier : Nat) : (useField p tier).w = 11 := by
  unfold useField
  split <;> rfl

theorem useField_fits (p tier : Nat) : (useField p tier).lo + (useField p tier).w ≤ 64 := by
  unfold useField
  split <;> exact of_decide_eq_true rfl

theorem quotaField_width (p tier : Nat) : (quotaField p tier).w = 11 := by
  unfold quotaField
  split <;> rfl

theorem memUse_ne_memRegion {p : Nat} (hp : p < 16) (k : Nat) : Reg.memUse p ≠ Reg.memRegion k := by
  unfold Reg.memUse Reg.memRegion
  omega

theorem memRegionStatus_ne_memRegion (k : Nat) : Reg.memRegionStatus ≠ Reg.memRegion k := by
  unfold Reg.memRegionStatus Reg.memRegion
  omega

theorem memRegion_injective {k n : Nat} (h : k ≠ n) : Reg.memRegion n ≠ Reg.memRegion k := by
  unfold Reg.memRegion
  omega

theorem memRegionStatus_ne_memUse (p : Nat) : Reg.memRegionStatus ≠ Reg.memUse p := by
  unfold Reg.memRegionStatus Reg.memUse
  omega

theorem State.rd_lt (s : State) (f : RF) : s.rd f < 2 ^ f.w := bitsAt_lt ..

theorem State.rdBit_eq_true {s : State} {f : RF} (h : s.rd f = 1) : s.rdBit f = true := decide_eq_true h

/-- The entry that CREATE writes (R253): MEM_REGION_ARG below VALID, not SEALED. -/
def regionEntry (arg : Word) : Word := BitVec.ofNat 64 (arg.field 0 31 + 2 ^ 31)

theorem regionEntry_arg (arg : Word) {lo w : Nat} (h : lo + w ≤ 31) : (regionEntry arg).field lo w = arg.field lo w := by
  rw [regionEntry, Word.field_ofNat _ _ _ (by omega), ← bitsAt_mod _ lo w 31 h, Nat.add_mod_right, bitsAt_mod _ _ _ _ h]
  exact bitsAt_mod arg.toNat lo w 31 h

theorem regionEntry_flags (arg : Word) : (regionEntry arg).field 31 1 = 1 ∧ (regionEntry arg).field 32 1 = 0 := by
  have hlt : arg.field 0 31 < 2 ^ 31 := bitsAt_lt ..
  rw [regionEntry, Word.field_ofNat _ _ _ (of_decide_eq_true rfl), Word.field_ofNat _ _ _ (of_decide_eq_true rfl)]
  simp only [bitsAt, Nat.shiftRight_eq_div_pow]
  omega

section
variable {s : State}

/-- The status code of a region operation is in no entry of the region table. -/
theorem State.reg_memRegion_status (v k : Nat) : (s.wr .memRegionStatusCode v).reg (Reg.memRegion k) = s.reg (Reg.memRegion k) :=
  s.reg_wr_ne _ (memRegionStatus_ne_memRegion k)

theorem State.reg_memRegion_use {p : Nat} (hp : p < 16) (tier v k : Nat) :
    (s.wr (useField p tier) v).reg (Reg.memRegion k) = s.reg (Reg.memRegion k) :=
  s.reg_wr_ne _ ((useField_reg p tier).symm ▸ memUse_ne_memRegion hp k)

theorem State.rd_status_zero : (s.wr .memRegionStatusCode 0).rd .memRegionStatusCode = 0 :=
  s.rd_wr_self _ 0 (of_decide_eq_true rfl)

theorem State.rd_use_status (p tier v : Nat) : (s.wr .memRegionStatusCode v).rd (useField p tier) = s.rd (useField p tier) :=
  s.rd_wr_ne _ _ _ (.inl ((useField_reg p tier).symm ▸ memRegionStatus_ne_memUse p))

theorem State.rd_use_wr {p tier v : Nat} (hv : v < 2 ^ 11) : (s.wr (useField p tier) v).rd (useField p tier) = v := by
  rw [s.rd_wr_self _ _ (useField_fits p tier), useField_width, Nat.mod_eq_of_lt hv]

/-! ## CREATE, SEAL and FREE (R253) -/

theorem exec_regionCreate_open (n : Nat) (h : s.barShut true = false) : exec (.regionCreate true n) s = .next (s.regionCreate n) :=
  if_neg (ne_true_of_eq_false h)
theorem exec_regionSeal_open (n : Nat) (h : s.barShut true = false) : exec (.regionSeal true n) s = .next (s.regionSeal n) :=
  if_neg (ne_true_of_eq_false h)
theorem exec_regionFree_open (n : Nat) (h : s.barShut true = false) : exec (.regionFree true n) s = .next (s.regionFree n) :=
  if_neg (ne_true_of_eq_false h)

/-- The state in which entry `n` holds the region of MEM_REGION_ARG, charged to its partition. -/
def State.regionMade (s : State) (n : Nat) : State :=
  let u := useField (s.rd .memRegionArgPartition) (s.rd .memRegionArgTier)
  ((s.setReg (Reg.memRegion n) (regionEntry (s.reg Reg.memRegionArg))).wr u (s.rd u + s.rd .memRegionArgCount)).wr
    .memRegionStatusCode 0

theorem State.regionCreate_accepted {n : Nat} (hr : s.createRefusal n = none)
    (hq : s.rd (useField (s.rd .memRegionArgPartition) (s.rd .memRegionArgTier)) + s.rd .memRegionArgCount ≤
      s.rd (quotaField (s.rd .memRegionArgPartition) (s.rd .memRegionArgTier))) : s.regionCreate n = s.regionMade n := by
  rw [State.regionCreate, hr]
  exact if_neg (Nat.not_lt.2 hq)

theorem State.reg_regionMade (n k : Nat) :
    (s.regionMade n).reg (Reg.memRegion k) = if n = k then regionEntry (s.reg Reg.memRegionArg) else s.reg (Reg.memRegion k) := by
  rw [State.regionMade, State.reg_memRegion_status, State.reg_memRegion_use (s.rd_lt .memRegionArgPartition), State.reg_setReg]
  by_cases h : n = k
  · rw [if_pos h, if_pos (congrArg Reg.memRegion h)]
  · rw [if_neg h, if_neg (memRegion_injective (Ne.symm h))]

theorem State.regionSeal_weight {n : Nat} (hv : s.rd (.memRegionValid n) = 1) (ht : s.rd (.memRegionType n) = 2) :
    s.regionSeal n = (s.wr (.memRegionSealed n) 1).wr .memRegionStatusCode 0 := by
  rw [State.regionSeal, if_neg (by simp [State.rdBit_eq_true hv]), if_neg (not_not_intro ht)]

/-- The state in which the lines of tier 2 of region `n` have left the cache. -/
def State.regionUncached (s : State) (n : Nat) : State :=
  if s.rd (.memRegionTier n) = 1 then s.dropLines (s.rd (.memRegionBase n)) (s.rd (.memRegionCount n)) else s

theorem State.regs_regionUncached (n : Nat) : (s.regionUncached n).regs = s.regs := by
  unfold State.regionUncached
  split <;> rfl

/-- FREE gives COUNT back and clears VALID. -/
theorem State.regionFree_valid {n : Nat} (hv : s.rd (.memRegionValid n) = 1) :
    let u := useField (s.rd (.memRegionPartition n)) (s.rd (.memRegionTier n))
    s.regionFree n = (((s.regionUncached n).wr u (s.rd u - s.rd (.memRegionCount n))).wr (.memRegionValid n) 0).wr
      .memRegionStatusCode 0 := by
  intro u
  rw [State.regionFree, if_neg (by simp [State.rdBit_eq_true hv]), ← State.rd_congr (s.regs_regionUncached n) u]
  rfl

/-! ## Quotas (R254) -/

/-- The tiers of which the locked quotas would exceed the capacity with partition `p`'s. -/
def State.quotaOver (s : State) (p tier : Nat) : Bool := decide (s.lockedSum p tier > s.rd (capacityOf tier))

theorem State.find_quotaOver {p k : Nat} (h1 : 1 ≤ k) (h3 : k ≤ 3) (hk : s.lockedSum p k > s.rd (capacityOf k))
    (hj : ∀ j, 1 ≤ j → j < k → s.lockedSum p j ≤ s.rd (capacityOf j)) : [1, 2, 3].find? (s.quotaOver p) = some k := by
  have hover : s.quotaOver p k = true := decide_eq_true hk
  have hfit : ∀ j, 1 ≤ j → j < k → ¬s.quotaOver p j = true := fun j hj1 hjk h => Nat.not_lt.2 (hj j hj1 hjk) (of_decide_eq_true h)
  obtain rfl | rfl | rfl : k = 1 ∨ k = 2 ∨ k = 3 := by omega
  · rw [List.find?_cons_of_pos hover]
  · rw [List.find?_cons_of_neg (hfit 1 (by omega) (by omega)), List.find?_cons_of_pos hover]
  · rw [List.find?_cons_of_neg (hfit 1 (by omega) (by omega)), List.find?_cons_of_neg (hfit 2 (by omega) (by omega)),
      List.find?_cons_of_pos hover]

theorem exec_quotaLock_find {p : Nat} (hb : s.barShut false = false) (hl : s.rd (.memQuotaLock p) = 0) :
    exec (.quotaLock p) s = .next (([1, 2, 3].find? (s.quotaOver p)).elim (s.wr (.memQuotaLock p) 1)
      (fun tier => s.quotaRefused p tier (s.lockedSum p tier) (s.rd (capacityOf tier)))) := by
  have hno : ¬s.rdBit (.memQuotaLock p) = true := by simp [State.rdBit, hl]
  show execQuotaLock p s = _
  rw [execQuotaLock, if_neg (ne_true_of_eq_false hb), if_neg hno]
  unfold State.quotaOver
  split
  · next tier h =>
    rw [h]
    rfl
  · next h =>
    rw [h]
    rfl

/-- QUOTA_LOCK writes LOCK where every tier suffices, and reports the first tier that does not. -/
theorem exec_quotaLock_unlocked {p : Nat} (hb : s.barShut false = false) (hl : s.rd (.memQuotaLock p) = 0) :
    ∃ t, exec (.quotaLock p) s = .next t ∧
      ((∀ k, 1 ≤ k → k ≤ 3 → s.lockedSum p k ≤ s.rd (capacityOf k)) → t = s.wr (.memQuotaLock p) 1) ∧
      ∀ k, 1 ≤ k → k ≤ 3 → s.lockedSum p k > s.rd (capacityOf k) →
        (∀ j, 1 ≤ j → j < k → s.lockedSum p j ≤ s.rd (capacityOf j)) →
        t = s.quotaRefused p k (s.lockedSum p k) (s.rd (capacityOf k)) := by
  refine ⟨_, exec_quotaLock_find hb hl, fun h => ?_, fun k h1 h3 hk hj => ?_⟩
  · have hnone : [1, 2, 3].find? (s.quotaOver p) = none := List.find?_eq_none.2 fun k hk hover => by
      simp only [List.mem_cons, List.not_mem_nil, or_false] at hk
      exact Nat.not_lt.2 (h k (by omega) (by omega)) (of_decide_eq_true hover)
    rw [hnone]
    rfl
  · rw [State.find_quotaOver h1 h3 hk hj]
    rfl

end

/-- Settles O31: what each operation comes to, read through the registers that it writes. -/
theorem regionsAreCreatedSealedAndFreed : Obligations.RegionsAreCreatedSealedAndFreed := by
  intro s n hn hb
  refine ⟨fun hr hq => ?_, fun hv ht => ?_, fun hv => ?_, fun p hp hb hl => ?_⟩
  · have hentry : (s.regionMade n).reg (Reg.memRegion n) = regionEntry (s.reg Reg.memRegionArg) := by
      rw [State.reg_regionMade, if_pos rfl]
    have harg : ∀ {lo w : Nat}, lo + w ≤ 31 →
        ((s.regionMade n).reg (Reg.memRegion n)).field lo w = (s.reg Reg.memRegionArg).field lo w := by
      rw [hentry]
      exact regionEntry_arg _
    obtain ⟨hvalid, hsealed⟩ := regionEntry_flags (s.reg Reg.memRegionArg)
    rw [← hentry] at hvalid hsealed
    refine ⟨_, (exec_regionCreate_open n hb).trans (congrArg _ (State.regionCreate_accepted hr hq)), hvalid,
      harg (of_decide_eq_true rfl), harg (of_decide_eq_true rfl), harg (of_decide_eq_true rfl), harg (of_decide_eq_true rfl),
      harg (of_decide_eq_true rfl), harg (of_decide_eq_true rfl), hsealed, ?_, State.rd_status_zero, fun k _ hk => ?_⟩
    · have hlim := s.rd_lt (quotaField (s.rd .memRegionArgPartition) (s.rd .memRegionArgTier))
      rw [quotaField_width] at hlim
      exact (State.rd_use_status ..).trans (State.rd_use_wr (Nat.lt_of_le_of_lt hq hlim))
    · rw [State.reg_regionMade, if_neg (Ne.symm hk)]
  · refine ⟨_, (exec_regionSeal_open n hb).trans (congrArg _ (State.regionSeal_weight hv ht)), ?_, ?_, State.rd_status_zero,
      fun k _ hk => ?_⟩
    · rw [State.rd, RF.memRegionSealed, State.reg_memRegion_status]
      exact s.rd_wr_self (.memRegionSealed n) 1 (of_decide_eq_true rfl)
    · rw [State.rd, RF.memRegionValid, State.reg_memRegion_status]
      exact (s.rd_wr_ne (.memRegionSealed n) (.memRegionValid n) 1 (.inr (of_decide_eq_true rfl))).trans hv
    · rw [State.reg_memRegion_status]
      exact s.reg_wr_ne _ (memRegion_injective hk)
  · have hp : s.rd (.memRegionPartition n) < 16 := s.rd_lt (.memRegionPartition n)
    refine ⟨_, (exec_regionFree_open n hb).trans (congrArg _ (State.regionFree_valid hv)), ?_, ?_, State.rd_status_zero, fun k _ hk => ?_⟩
    · rw [State.rd, RF.memRegionValid, State.reg_memRegion_status]
      exact State.rd_wr_self _ (.memRegionValid n) 0 (of_decide_eq_true rfl)
    · have huse := s.rd_lt (useField (s.rd (.memRegionPartition n)) (s.rd (.memRegionTier n)))
      rw [useField_width] at huse
      rw [State.rd_use_status, State.rd_wr_ne _ _ _ _ (.inl ((useField_reg ..).symm ▸ (memUse_ne_memRegion hp n).symm)),
        State.rd_use_wr (Nat.lt_of_le_of_lt (Nat.sub_le ..) huse)]
    · rw [State.reg_memRegion_status]
      exact (State.reg_wr_ne _ _ (memRegion_injective hk)).trans
        ((State.reg_memRegion_use hp ..).trans (State.reg_congr (s.regs_regionUncached n) _))
  · obtain ⟨t, hexec, hfits, hover⟩ := exec_quotaLock_unlocked hb hl
    refine ⟨t, hexec, fun h => ?_, fun k h1 h3 hk hj => ?_⟩
    · rw [hfits h]
      exact ⟨s.rd_wr_self (.memQuotaLock p) 1 (of_decide_eq_true rfl),
        s.rd_wr_ne (.memQuotaLock p) (.memQuotaT1 p) 1 (.inr (of_decide_eq_true rfl))⟩
    · rw [hover k h1 h3 hk hj]
      exact ⟨hl, s.mem_events_raise ..⟩

/-! ## Lines with errors (R248, R249) -/

/-- The code of the line that holds a CPA, and the CPA of the line (R243, R247). -/
def lineCode (a : Nat) : EccCode := if a < 0x010000000000 then eccTier1 else eccTier2
def lineStart (a : Nat) : Nat := a / (if a < 0x010000000000 then 64 else 128) * (if a < 0x010000000000 then 64 else 128)

/-- The errors of a pattern that meet a symbol of the line. -/
def lineErrs (a : Nat) (errs : List (Nat × Nat)) : List (Nat × Nat) := errs.filter (fun e => decide (e.1 < (lineCode a).n))

section
variable {s : State} {a : Nat} {errs : List (Nat × Nat)}

/-- The state in which the line of a CPA holds what its code leaves of an error pattern. -/
def State.lineFlipped (s : State) (a : Nat) (errs : List (Nat × Nat)) : State :=
  s.flipLine (lineStart a) ((lineCode a).bits / 8) ((lineCode a).residual (lineErrs a errs))

theorem State.poison_lineFlipped : (s.lineFlipped a errs).poison = s.poison :=
  (State.flipLine_touches s _ _ _ (.refl _) (.refl s)).1 .poison rfl

theorem State.lineError_corrected {i v : Nat} (h : (lineCode a).decode (lineErrs a errs) = .corrected i v) :
    s.lineError a errs = ((s.lineFlipped a errs).raise .memCorrected (s.unitMemory (lineStart a)) noPart
      (payload [(16, 8, lineStart a), (24, 1, tierNo (lineStart a)), (25, 1, i)])).count
        (Reg.memCnt (if a < 0x010000000000 then 0 else 2)) 1 := by
  unfold lineErrs lineCode at h
  rw [State.lineError]
  simp only [decide_eq_true_eq]
  rw [h]
  rfl

theorem State.lineError_uncorrectable (h : (lineCode a).decode (lineErrs a errs) = .uncorrectable) :
    s.lineError a errs = (((s.lineFlipped a errs).setPoison (Sparse.insert (lineStart a) true (s.lineFlipped a errs).poison)).raiseAs
      .memUncorrectable sevNotice (s.unitMemory (lineStart a)) noPart
        (payload [(16, 8, lineStart a), (24, 1, tierNo (lineStart a))])).count
          (Reg.memCnt (if a < 0x010000000000 then 1 else 3)) 1 := by
  unfold lineErrs lineCode at h
  rw [State.lineError]
  simp only [decide_eq_true_eq]
  rw [h]
  rfl

/-- What a pass finds on a line with errors in one symbol, and on one with more. -/
theorem State.lineError_reported :
    (∀ i v, (lineCode a).decode (lineErrs a errs) = .corrected i v → (s.lineError a errs).poison = s.poison ∧
      ∃ e ∈ (s.lineError a errs).events, e.code = Code.memCorrected.val ∧
        e.payload = payload [(16, 8, lineStart a), (24, 1, tierNo (lineStart a)), (25, 1, i)]) ∧
    ((lineCode a).decode (lineErrs a errs) = .uncorrectable → Sparse.get false (s.lineError a errs).poison (lineStart a) = true ∧
      ∃ e ∈ (s.lineError a errs).events, e.code = Code.memUncorrectable.val ∧ e.sev = sevNotice ∧
        e.payload = payload [(16, 8, lineStart a), (24, 1, tierNo (lineStart a))]) := by
  constructor
  · intro i v h
    obtain ⟨e, hmem, hcode, hpay⟩ := (s.lineFlipped a errs).mem_events_raise .memCorrected (s.unitMemory (lineStart a)) noPart
      (payload [(16, 8, lineStart a), (24, 1, tierNo (lineStart a)), (25, 1, i)])
    rw [State.lineError_corrected h]
    refine ⟨?_, e, State.mem_events_count _ _ 1 hmem, hcode, hpay⟩
    rw [State.poison_count, State.poison_raise, State.poison_lineFlipped]
  · intro h
    obtain ⟨e, hmem, hcode, hsev, hpay⟩ := ((s.lineFlipped a errs).setPoison
      (Sparse.insert (lineStart a) true (s.lineFlipped a errs).poison)).mem_events_raiseAs .memUncorrectable sevNotice
        (s.unitMemory (lineStart a)) noPart (payload [(16, 8, lineStart a), (24, 1, tierNo (lineStart a))])
    rw [State.lineError_uncorrectable h]
    refine ⟨?_, e, State.mem_events_count _ _ 1 hmem, hcode, hsev, hpay⟩
    rw [State.poison_count, State.poison_raiseAs, State.poison_setPoison, Sparse.get_insert, if_pos rfl]

/-! ## Units of tier 3 (R259, R260) -/

/-- An object with unit `unit` rewritten to a fresh location. -/
def FlashObj.rewritten (x : FlashObj) (unit : Nat) : FlashObj :=
  { x with weak := Sparse.put 0 unit 0 x.weak, moves := Sparse.put 0 unit (Sparse.get 0 x.moves unit + 1) x.moves }

/-- An object of which unit `unit` needs read mode `mode` at least. -/
def FlashObj.weakened (x : FlashObj) (unit mode : Nat) : FlashObj :=
  { x with weak := Sparse.put 0 unit (max (Sparse.get 0 x.weak unit) (min mode 3)) x.weak }

theorem State.flash_setObject (id : Nat) (x : FlashObj) : Sparse.get FlashObj.empty (s.setObject id x).flash id = x := by
  rw [State.setObject, State.flash_setFlash, Sparse.get_insert, if_pos rfl]

section
variable {id unit : Nat} {x : FlashObj} (ho : s.object id = some x)
include ho

theorem State.relocate_readable (h3 : s.unitMode id unit x ≠ 3) (hl : unit * 4096 < x.length) :
    s.relocate id unit = s.setObject id (x.rewritten unit) := by
  rw [State.relocate, ho]
  exact if_neg fun h => h.elim h3 (Nat.not_le.2 hl)

theorem exec_t3Relocate_weak (h0 : s.unitMode id unit x ≠ 0) : exec (.t3Relocate id unit) s = .next (s.relocate id unit) := by
  show execT3Relocate id unit s = _
  rw [execT3Relocate, ho]
  exact if_neg h0

theorem exec_t3Patrol_weaker {mode : Nat} (hm : 0 < mode) :
    exec (.t3Patrol [(id, unit, mode)]) s = .next (s.setObject id (x.weakened unit mode)) := by
  have hw : s.weaken id unit mode = s.setObject id (x.weakened unit mode) := by
    rw [State.weaken, ho]
    rfl
  rw [← hw]
  exact congrArg _ (if_neg (Nat.ne_of_gt hm))

end

theorem exec_t3Patrol_plan (id unit : Nat) : exec (.t3Patrol [(id, unit, 0)]) s = .next (s.relocate id unit) := rfl

theorem exec_flashChannelFail_working {channel : Nat} (h : channel < 16) (hd : channel ∉ s.flashDown) :
    ∃ unit, exec (.flashChannelFail channel) s = .next (((s.setFlashDown (s.flashDown ++ [channel])).wr .memCapacityT3Degraded 1).raise
      .memT3Degraded unit noPart (payload [(16, 1, channel)])) := by
  have hup : ¬(channel ≥ 16 ∨ s.flashDown.contains channel = true) := by
    rw [List.contains_iff_mem]
    exact fun hn => hn.elim (Nat.not_le.2 h) hd
  exact ⟨_, if_neg hup⟩

/-! ## Units that leave the maps (R250) -/

theorem State.events_mappedOut (tier die : Nat) (units : List Nat) : (s.mappedOut tier die units).events =
    s.events ++ units.map (fun u => ⟨s.dtime, Code.memMappedOut.val, unitReferee, noPart, Code.memMappedOut.sev,
      payload [(16, 1, tier), (17, 1, die), (18, 1, u)]⟩) := by
  induction units generalizing s with
  | nil => exact (List.append_nil _).symm
  | cons u l ih =>
    show ((s.raise _ _ _ _).mappedOut tier die l).events = _
    rw [ih, State.events_raise, List.append_assoc]
    rfl

theorem State.rd_mappedOut (tier die : Nat) (units : List Nat) (f : RF) : (s.mappedOut tier die units).rd f = s.rd f :=
  State.rd_congr ((State.mappedOut_touches s tier die units (.refl _) (.refl s)).1 .regs rfl) f

/-- Each unit that leaves a map is reported. -/
theorem State.mem_events_mappedOut (tier die : Nat) {n m u : Nat} (hu : u < n) (hm : m.testBit u = true) :
    ∃ e ∈ (s.mappedOut tier die (bitsOf n m)).events, e.code = Code.memMappedOut.val ∧
      e.payload = payload [(16, 1, tier), (17, 1, die), (18, 1, u)] := by
  rw [State.events_mappedOut]
  exact ⟨_, List.mem_append_right _ (List.mem_map.2 ⟨u, List.mem_filter.2 ⟨List.mem_range.2 hu, hm⟩, rfl⟩), rfl, rfl⟩

theorem exec_mapOutTakeEffect_tier1 {die : Nat} (hd : die < 8) (hr : s.rangeHasRegion 1 die = false)
    (hp : s.rd (.memT1PendPending die) ≠ 0) :
    let p := s.rd (.memT1PendPending die)
    let m := s.rd (.memT1MapInService die)
    exec (.mapOutTakeEffect 1 die) s =
      .next (((s.setT1Map die (m - (m &&& p))).wr (.memT1PendPending die) 0).mappedOut 1 die (bitsOf 64 p)) := by
  show execMapOutTakeEffect 1 die s = _
  rw [execMapOutTakeEffect, if_neg (ne_true_of_eq_false hr), if_pos ⟨rfl, hd⟩]
  exact if_neg hp

theorem exec_mapOutTakeEffect_tier2 (hr : s.rangeHasRegion 2 0 = false) (hp : s.t2Pending ≠ 0) :
    exec (.mapOutTakeEffect 2 0) s = .next ((((s.setT2Map (s.t2Map - (s.t2Map &&& s.t2Pending))).wr (.memT2PendPending 0) 0).wr
      (.memT2PendPending 1) 0).mappedOut 2 0xFF (bitsOf 128 s.t2Pending)) := by
  show execMapOutTakeEffect 2 0 s = _
  rw [execMapOutTakeEffect, if_neg (ne_true_of_eq_false hr), if_neg (by omega), if_pos rfl]
  exact if_neg hp

theorem State.rd_setT1Map {d m : Nat} (hm : m < 2 ^ 64) : (s.setT1Map d m).rd (.memT1MapInService d) = m :=
  (s.rd_wr_self (.memT1MapInService d) m (of_decide_eq_true rfl)).trans (Nat.mod_eq_of_lt hm)

theorem State.t2Map_lt : s.t2Map < 2 ^ 128 := by
  have h0 := s.rd_lt (.memT2MapInService 0)
  have h1 := s.rd_lt (.memT2MapInService 1)
  have hw : ∀ n, (RF.memT2MapInService n).w = 64 := fun _ => rfl
  rw [hw] at h0 h1
  unfold State.t2Map
  omega

/-- A new map of tier 2 in its two registers; LIMIT and CHANNELS follow (R246). -/
theorem State.t2Map_setT2Map {m : Nat} (hm : m < 2 ^ 128) : (s.setT2Map m).t2Map = m := by
  have h0 : (s.setT2Map m).rd (.memT2MapInService 0) = m % 2 ^ 64 % 2 ^ 64 := by
    rw [State.setT2Map, State.rd_wr_ne _ _ _ _ (.inl (of_decide_eq_true rfl)), State.rd_wr_ne _ _ _ _ (.inl (of_decide_eq_true rfl)),
      State.rd_wr_ne _ _ _ _ (.inl (of_decide_eq_true rfl)), State.rd_wr_self _ _ _ (of_decide_eq_true rfl)]
    rfl
  have h1 : (s.setT2Map m).rd (.memT2MapInService 1) = m / 2 ^ 64 % 2 ^ 64 := by
    rw [State.setT2Map, State.rd_wr_ne _ _ _ _ (.inl (of_decide_eq_true rfl)), State.rd_wr_ne _ _ _ _ (.inl (of_decide_eq_true rfl)),
      State.rd_wr_self _ _ _ (of_decide_eq_true rfl)]
    rfl
  rw [State.t2Map, h0, h1]
  omega

theorem State.rd_limit_setT2Map (m : Nat) : (s.setT2Map m).rd .memT2LimitLimit = t2Limit (t2List m).length % 2 ^ 48 ∧
    (s.setT2Map m).rd .memT2LimitChannels = (t2List m).length % 2 ^ 8 := by
  rw [State.setT2Map]
  constructor
  · rw [State.rd_wr_ne _ _ _ _ (.inr (of_decide_eq_true rfl)), State.rd_wr_self _ _ _ (of_decide_eq_true rfl)]
    rfl
  · exact State.rd_wr_self _ .memT2LimitChannels _ (of_decide_eq_true rfl)

/-- The state in which no unit of tier 2 is PENDING. -/
def State.t2PendCleared (s : State) : State := (s.wr (.memT2PendPending 0) 0).wr (.memT2PendPending 1) 0

theorem State.t2Pending_t2PendCleared : s.t2PendCleared.t2Pending = 0 := by
  rw [State.t2Pending, State.t2PendCleared, State.rd_wr_ne _ _ _ _ (.inl (of_decide_eq_true rfl)),
    State.rd_wr_self _ _ _ (of_decide_eq_true rfl), State.rd_wr_self _ _ _ (of_decide_eq_true rfl)]
  rfl

theorem State.rd_t2PendCleared {f : RF} (h0 : Reg.memT2Pend 0 ≠ f.reg) (h1 : Reg.memT2Pend 1 ≠ f.reg) : s.t2PendCleared.rd f = s.rd f :=
  (State.rd_wr_ne _ _ _ _ (.inl h1)).trans (s.rd_wr_ne _ _ _ (.inl h0))

theorem State.t2Map_t2PendCleared : s.t2PendCleared.t2Map = s.t2Map := by
  rw [State.t2Map, State.rd_t2PendCleared (of_decide_eq_true rfl) (of_decide_eq_true rfl),
    State.rd_t2PendCleared (of_decide_eq_true rfl) (of_decide_eq_true rfl)]
  rfl

theorem State.t2_mappedOut (tier die : Nat) (units : List Nat) : (s.mappedOut tier die units).t2Map = s.t2Map ∧
    (s.mappedOut tier die units).t2Pending = s.t2Pending := by
  simp only [State.t2Map, State.t2Pending, State.rd_mappedOut, and_self]

end

/-- Settles O30. -/
theorem memoryUnitsAreScrubbedAndMappedOut : Obligations.MemoryUnitsAreScrubbedAndMappedOut := by
  intro s
  refine ⟨fun x l => ⟨_, rfl, rfl⟩, fun a errs => ⟨_, rfl, State.lineError_reported⟩, fun id unit x ho h3 h0 hl => ?_,
    fun id unit mode x ho hm hm3 => ?_, fun channel hc hd => ?_, fun die hd hr hp => ?_, fun hr hp => ?_⟩
  · have he := State.relocate_readable ho h3 hl
    refine ⟨_, _, _, (exec_t3Relocate_weak ho h0).trans (congrArg _ he), (exec_t3Patrol_plan id unit).trans (congrArg _ he),
      State.flash_setObject id _, Sparse.get_put_self .., Sparse.get_put_self .., fun u hu => ?_⟩
    exact ⟨Sparse.get_put_ne _ _ _ (Ne.symm hu), Sparse.get_put_ne _ _ _ (Ne.symm hu)⟩
  · refine ⟨_, _, exec_t3Patrol_weaker ho hm, State.flash_setObject id _, ?_⟩
    rw [Sparse.get_put_self, Nat.min_eq_left hm3]
  · obtain ⟨unit, hexec⟩ := exec_flashChannelFail_working hc hd
    refine ⟨_, hexec, ?_, ?_, State.mem_events_raise ..⟩
    · rw [State.flashDown_raise, State.flashDown_wr, State.flashDown_setFlashDown]
    · rw [State.rd_raise, State.rd_wr_self _ _ _ (of_decide_eq_true rfl)]
      rfl
  · refine ⟨_, exec_mapOutTakeEffect_tier1 hd hr hp, ?_, ?_, fun u hu hb => State.mem_events_mappedOut 1 die hu hb⟩
    · rw [State.rd_mappedOut]
      exact State.rd_wr_self _ (.memT1PendPending die) 0 (of_decide_eq_true rfl)
    · rw [State.rd_mappedOut, State.rd_wr_ne _ _ _ _ (.inl ?_), State.rd_setT1Map]
      · exact Nat.lt_of_le_of_lt (Nat.sub_le ..) (s.rd_lt (.memT1MapInService die))
      · show 0x500040 + 0x8 * die ≠ 0x500000 + 0x8 * die
        omega
  · obtain ⟨hmap, hpend⟩ := State.t2_mappedOut (s := (s.setT2Map (s.t2Map - (s.t2Map &&& s.t2Pending))).t2PendCleared) 2 0xFF
      (bitsOf 128 s.t2Pending)
    obtain ⟨hlimit, hchannels⟩ := State.rd_limit_setT2Map (s := s) (s.t2Map - (s.t2Map &&& s.t2Pending))
    have hfit : s.t2Map - (s.t2Map &&& s.t2Pending) < 2 ^ 128 := Nat.lt_of_le_of_lt (Nat.sub_le ..) State.t2Map_lt
    refine ⟨_, exec_mapOutTakeEffect_tier2 hr hp, hpend.trans State.t2Pending_t2PendCleared,
      (hmap.trans State.t2Map_t2PendCleared).trans (State.t2Map_setT2Map hfit), ?_, ?_,
      fun u hu hb => State.mem_events_mappedOut 2 0xFF hu hb⟩
    · exact (State.rd_mappedOut ..).trans ((State.rd_t2PendCleared (of_decide_eq_true rfl) (of_decide_eq_true rfl)).trans hlimit)
    · exact (State.rd_mappedOut ..).trans ((State.rd_t2PendCleared (of_decide_eq_true rfl) (of_decide_eq_true rfl)).trans hchannels)

end Sys2Proof.Machine

/-!
PROOFS. The transfers of the channels (chapter 11): how they begin, move their units and end; gathers; and the entries of the chip
channels (O34).
-/
namespace Sys2Proof.Machine

section
variable {s : State}

/-! ## Channels and what they hold -/

theorem chanBase_chipKey (n : Nat) : chanBase (chipKey n) = dmaChip n := by
  rw [chanBase, chipKey, if_neg (by omega), Nat.add_sub_cancel_left]

theorem State.chan_congr {t : State} (h : t.chans = s.chans) (key : Nat) : t.chan key = s.chan key := by
  rw [State.chan, h]
  rfl

theorem State.chanState_setChanState (key : Nat) {v : Nat} (hv : v < 8) : (s.setChanState key v).chanState key = v :=
  (s.rd_wr_self (.dmaChStatusState (chanBase key)) v (of_decide_eq_true rfl)).trans (Nat.mod_eq_of_lt hv)

/-- Fields of a channel's registers other than its status keep their values as its state changes. -/
theorem State.rd_setChanState (key v : Nat) {f : RF} (h : Reg.dmaChStatus (chanBase key) ≠ f.reg) :
    (s.setChanState key v).rd f = s.rd f := s.rd_wr_ne _ f v (.inl h)

/-- The state in which a channel is RUNNING with a transfer. -/
def State.xferHeld (s : State) (key : Nat) (x : Xfer) : State := (s.modChan key (fun k => { k with xfer := some x })).setChanState key 1

theorem State.chanState_xferHeld (key : Nat) (x : Xfer) : (s.xferHeld key x).chanState key = 1 :=
  State.chanState_setChanState key (of_decide_eq_true rfl)

theorem State.xfer_xferHeld (key : Nat) (x : Xfer) : ((s.xferHeld key x).chan key).xfer = some x := by
  rw [State.xferHeld, State.setChanState, State.chan_wr, State.chan_modChan_self]

theorem State.rd_xferHeld (key : Nat) (x : Xfer) {f : RF} (h : Reg.dmaChStatus (chanBase key) ≠ f.reg) :
    (s.xferHeld key x).rd f = s.rd f := by
  rw [State.xferHeld, State.rd_setChanState _ _ h, State.rd_modChan]

theorem State.chanWait_xferHeld (key : Nat) (x : Xfer) (n : Nat) : (s.xferHeld key x).chanWait n = s.chanWait n := rfl

theorem State.chanWait_congr {t : State} (h : t.heads = s.heads) (n : Nat) : t.chanWait n = s.chanWait n := by
  rw [State.chanWait, h]
  rfl

/-- The transfer of a descriptor of which nothing is moved yet. -/
def newXfer (a : Agent) (serial token da w : Nat) : Xfer :=
  { agent := a, serial := serial, token := token, da := da, desc := w, moved := 0, buf := [], asked := false, tries := 0, last := none,
    held := none, failed := none }

/-! ## Moving units (R273) -/

theorem State.moveUnits_moved (hw : List Hw) (n : Nat) {x : Xfer} (h : n = 0 ∨ x.moved ≥ xfCount x.desc) :
    State.moveUnits hw n s x = (s, x, .more) := by
  cases n with
  | zero => rfl
  | succ n => exact if_pos (h.resolve_left (Nat.succ_ne_zero n))

section
variable {key n : Nat} {x : Xfer} (hx : (s.chan key).xfer = some x) (hf : x.failed = none)
include hx hf

theorem State.runXfer_more (h : (State.moveUnits [] n s x).2.2 = .more) : s.runXfer key [] n =
    (State.moveUnits [] n s x).1.modChan key (fun k => { k with xfer := some (State.moveUnits [] n s x).2.1 }) := by
  have hw : s.applyHwTo (s.agentUnit x.agent) (s.agentPart x.agent) [] = (s, 0) := rfl
  rw [State.runXfer, hx]
  dsimp only
  rw [hw, if_neg (not_not_intro rfl), hf]
  dsimp only
  rw [h]

theorem State.runXfer_fail {code : Nat} (h : (State.moveUnits [] n s x).2.2 = .fail code) : s.runXfer key [] n =
    (State.moveUnits [] n s x).1.failXfer (State.moveUnits [] n s x).2.1 code := by
  have hw : s.applyHwTo (s.agentUnit x.agent) (s.agentPart x.agent) [] = (s, 0) := rfl
  rw [State.runXfer, hx]
  dsimp only
  rw [hw, if_neg (not_not_intro rfl), hf]
  dsimp only
  rw [h]

theorem State.runXfer_still (h : n = 0 ∨ x.moved ≥ xfCount x.desc) :
    s.runXfer key [] n = s.modChan key (fun k => { k with xfer := some x }) := by
  have hm := State.moveUnits_moved (s := s) [] n h
  rw [State.runXfer_more hx hf (by rw [hm]), hm]

end

/-- A transfer that has just begun is held with nothing moved. -/
theorem State.runXfer_begun (key : Nat) {x : Xfer} (hf : x.failed = none) : ((s.xferHeld key x).runXfer key [] 0).chanState key = 1 ∧
    (((s.xferHeld key x).runXfer key [] 0).chan key).xfer = some x ∧
    ((s.xferHeld key x).runXfer key [] 0).regs = (s.xferHeld key x).regs := by
  rw [State.runXfer_still (State.xfer_xferHeld key x) hf (.inl rfl)]
  exact ⟨State.chanState_xferHeld key x, by rw [State.chan_modChan_self], rfl⟩

/-- A unit that is written advances its transfer by one block, or by its bytes. -/
theorem State.passUnit_written {x : Xfer} {bs : List (BitVec 8)} {trailer : Nat} (h : (s.writeUnit x bs trailer).2 = none) :
    (s.passUnit x bs trailer).2.2 = .more ∧
      (s.passUnit x bs trailer).2.1.moved = x.moved + (if xfBlocks x.desc then 1 else bs.length) := by
  rw [State.passUnit]
  dsimp only
  rw [h]
  exact ⟨rfl, rfl⟩

/-! ## DMA_XFER (R272, R282) -/

section
variable {c k : Nat} {i : Issued}

theorem State.takeDma_next {op : Nat} {run : State → Issued → State} (hn : (s.core c).nextOf (.dma k) = some i) (ho : i.opcode = op)
    (hr : i.mayRun = true) (hs : s.chanState (coreKey c k) = 0) : s.takeDma c k op run = run s i := by
  rw [State.takeDma, hn]
  exact if_pos ⟨ho, hr, hs⟩

theorem State.takeDma_none {op : Nat} {run : State → Issued → State} (hn : (s.core c).nextOf (.dma k) = none) :
    s.takeDma c k op run = s := by
  rw [State.takeDma, hn]

theorem exec_dmaXfer_noHead {channel : Nat} (hw : List Hw) (n : Nat) (hh : (s.core c).head = none) {u : State}
    (hu : s.takeDma c (channel % 4) 0x40 (fun s i => s.beginDma c (channel % 4) i) = u)
    (hs : u.chanState (coreKey c (channel % 4)) = 1) :
    exec (.dmaXfer c channel hw n) s = .next (u.runXfer (coreKey c (channel % 4)) hw n) := by
  show execDmaXfer c channel hw n s = _
  rw [execDmaXfer, hh]
  dsimp only
  rw [hu, if_pos hs]

/-- A DMA_XFER whose operands and descriptor pass their checks begins its transfer. -/
theorem State.beginDma_accepted (hc : dmaClean i.cmd = true) (ha : dmaOffset i.cmd % 64 = 0) (ho : dmaOffset i.cmd + 64 ≤ storeSize)
    {v : State} (hv : s.began c i = v) {da : Nat} (hda : coreWindow c + dmaOffset i.cmd = da) (hb : anyMarked v.bad da 64 = false)
    (hr : (v.setSerial (v.serial + 1)).xfReason (.core c k) (v.memNat da 64) = none) :
    s.beginDma c k i = (v.setSerial (v.serial + 1)).xferHeld (coreKey c k) (newXfer (.core c k) v.serial i.token da (v.memNat da 64)) := by
  rw [State.beginDma, hv, hda, if_neg (by simp [hc]), if_neg (not_not_intro ha), if_neg (Nat.not_lt.2 ho), ifSome_none,
    if_neg (ne_true_of_eq_false hb), State.startXfer, hr]
  rfl

end

/-! ## The end of a transfer (R277) -/

theorem State.chan_executed (c token code key : Nat) : (s.executed c token code).chan key = s.chan key := rfl

/-- A transfer that has ended is held no longer; the command of a core channel is executed, the entry of a chip channel has ended. -/
theorem State.endXfer_over (x : Xfer) (code : Nat) : ((s.endXfer x code).chan x.agent.key).xfer = none ∧ (s.endXfer x code).mem = s.mem ∧
    (∀ n, x.agent = .chip n → ((s.endXfer x code).chan x.agent.key).ended = some (code, x)) ∧
    ∀ c n, x.agent = .core c n → (s.endXfer x code).hasExecuted c x.token code := by
  have hmem : (s.endXfer x code).mem = s.mem := (State.endXfer_touches s x code (.refl _) (.refl s)).1 .mem rfl
  refine ⟨?_, hmem, fun n ha => ?_, fun c n ha => ?_⟩
  · unfold State.endXfer
    dsimp only
    split
    · rw [State.chan_executed, State.chan_modChan_self, State.setChanState, State.chan_wr, State.chan_wr, State.chan_modChan_self]
    · rw [State.chan_wr, State.chan_modChan_self]
    · rw [State.chan_modChan_self]
  · rw [State.endXfer, ha]
    dsimp only
    rw [State.chan_wr, State.chan_modChan_self]
  · rw [State.endXfer, ha]
    dsimp only
    exact State.hasExecuted_executed _ c x.token code

theorem State.completeXfer_over {key mism : Nat} {x : Xfer} (hx : (s.chan key).xfer = some x) (hf : x.failed = none)
    (hm : x.moved = xfCount x.desc) (ha : s.needsAcks x = false ∨ s.openReqs x true = []) (hr : s.rdBit .dmaModeReadback = false) :
    s.completeXfer key mism = s.endXfer x 0 := by
  have hdone : ¬(x.moved < xfCount x.desc ∨ (s.needsAcks x = true ∧ (s.openReqs x true).isEmpty = false)) := by
    rcases ha with ha | ha <;> simp [hm, ha]
  rw [State.completeXfer, hx]
  dsimp only
  rw [hf]
  dsimp only
  rw [if_neg hdone, if_neg (by simp [hr])]

theorem exec_transferComplete_moved {ch : Nat} {x : Xfer} (hc : ch < 1088) (h1 : s.chanState ch = 1) (hw : s.entryWaiting ch = false)
    (hx : (s.chan ch).xfer = some x) (hf : x.failed = none) (hm : x.moved = xfCount x.desc)
    (ha : s.needsAcks x = false ∨ s.openReqs x true = []) (hr : s.rdBit .dmaModeReadback = false) :
    exec (.transferComplete ch [] 0) s = .next ((s.modChan ch (fun k => { k with xfer := some x })).endXfer x 0) := by
  have hruns : ¬(ch ≥ 1088 ∨ s.chanState ch ≠ 1 ∨ s.entryWaiting ch = true) := by simp [h1, hw, hc]
  show execTransferComplete ch [] 0 s = _
  rw [execTransferComplete, if_neg hruns, hx]
  dsimp only
  rw [State.runXfer_still hx hf (.inr (Nat.le_of_eq hm.symm))]
  exact congrArg _ (State.completeXfer_over (by rw [State.chan_modChan_self]) hf hm ha hr)

/-! ## DMA_GATHER (R265) -/

section
variable {c k : Nat} {i : Issued} {v : State} (hv : s.began c i = v)
include hv

theorem State.gatherRun_accepted (h : v.gatherRefusal c i.cmd = none) :
    s.gatherRun [] c k i = (v.gatherGo c k i).1.gatherEnd c k i (v.gatherGo c k i).2 := by
  have hw : v.applyHw c (engDma k) [] = (v, 0) := rfl
  rw [State.gatherRun, hv, hw, if_neg (not_not_intro rfl)]
  dsimp only
  rw [h]

theorem State.gatherRun_refused {r : Nat ⊕ Nat} (h : v.gatherRefusal c i.cmd = some r) :
    s.gatherRun [] c k i = (v.gatherRefused c k i.cmd r).1.gatherEnd c k i (v.gatherRefused c k i.cmd r).2 := by
  have hw : v.applyHw c (engDma k) [] = (v, 0) := rfl
  rw [State.gatherRun, hv, hw, if_neg (not_not_intro rfl)]
  dsimp only
  rw [h]

end

theorem exec_dmaGather_noHead {c channel : Nat} (hw : List Hw) (hh : (s.core c).head = none) : exec (.dmaGather c channel hw) s =
    .next (s.takeDma c (channel % 4) 0x41 (fun s i => s.gatherRun hw c (channel % 4) i)) := by
  show execDmaGather c channel hw s = _
  rw [execDmaGather, hh]

theorem State.hasExecuted_gatherEnd (c k : Nat) (i : Issued) (code : Nat) : (s.gatherEnd c k i code).hasExecuted c i.token code :=
  State.hasExecuted_executed _ c i.token code

theorem State.mem_gatherEnd (c k : Nat) (i : Issued) (code : Nat) : (s.gatherEnd c k i code).mem = s.mem := by
  rw [State.gatherEnd, State.mem_executed, State.mem_wr]

/-! ## Chip channels (R284 to R286) -/

theorem State.cacheReads_uncached {a : Nat} (n hint : Nat) (h : areaOf a ≠ .tier2) : s.cacheReads a n hint = s := if_neg h

/-- A read that does not fail looks its lines up in the cache, and does nothing else. -/
theorem State.dmaFetch_passed {w : Agent} {a n hint : Nat} (h : (s.dmaFetch w a n hint).2 = none) :
    (s.dmaFetch w a n hint).1 = s.cacheReads a n hint := by
  unfold State.dmaFetch at h ⊢
  dsimp only at h ⊢
  split at h
  · exact absurd h nofun
  · split at h
    · exact absurd h nofun
    · next hb => rw [if_neg hb]

theorem State.dmaRead_passed {w : Agent} {a n hint : Nat} (h : (s.dmaRead w a n hint).2 = none) :
    (s.dmaRead w a n hint).1 = s.cacheReads a n hint := by
  unfold State.dmaRead at h ⊢
  dsimp only at h ⊢
  split at h
  · exact absurd h nofun
  · next hp =>
    rw [if_neg hp]
    exact State.dmaFetch_passed h

/-- The state in which a chip channel has taken the entry at HEAD, and the CPA of that entry. -/
def State.headTaken (s : State) (n : Nat) : State :=
  s.wr (.dmaChDoorHead (dmaChip n)) ((s.rd (.dmaChDoorHead (dmaChip n)) + 1) % 2 ^ 32)
def State.entryAddr (s : State) (n : Nat) : Nat := s.ringEntry (dmaChip n) (s.rd (.dmaChDoorHead (dmaChip n)))

/-- The state in which the descriptor of that entry has been read. -/
def State.entryRead (s : State) (n : Nat) : State :=
  ((s.headTaken n).dmaRead (.chip n) (s.entryAddr n) 64 0).1.setSerial ((s.headTaken n).serial + 1)

theorem State.heads_entryRead (n : Nat) : (s.entryRead n).heads = s.heads := by
  rw [State.entryRead, State.heads_setSerial]
  exact ((State.dmaRead_touches _ _ _ _ _ (.refl _) (.refl _)).fst.1 .heads rfl).trans (State.heads_wr ..)

/-- Reading a descriptor outside tier 2 writes no register. -/
theorem State.regs_entryRead {n : Nat} (hr : ((s.headTaken n).dmaRead (.chip n) (s.entryAddr n) 64 0).2 = none)
    (ha : areaOf (s.entryAddr n) ≠ .tier2) : (s.entryRead n).regs = (s.headTaken n).regs := by
  rw [State.entryRead, State.regs_setSerial, State.dmaRead_passed hr, State.cacheReads_uncached 64 0 ha]

theorem State.head_headTaken (n : Nat) :
    (s.headTaken n).rd (.dmaChDoorHead (dmaChip n)) = (s.rd (.dmaChDoorHead (dmaChip n)) + 1) % 2 ^ 32 :=
  (s.rd_wr_self (.dmaChDoorHead (dmaChip n)) _ (of_decide_eq_true rfl)).trans (Nat.mod_mod _ _)

theorem chipStatus_ne_door (n : Nat) : Reg.dmaChStatus (chanBase (chipKey n)) ≠ Reg.dmaChDoor (dmaChip n) := by
  rw [chanBase_chipKey]
  unfold Reg.dmaChStatus Reg.dmaChDoor
  omega

theorem chipStatus_ne_ctrl (n : Nat) : Reg.dmaChStatus (chanBase (chipKey n)) ≠ Reg.dmaChCtrl (dmaChip n) := by
  rw [chanBase_chipKey]
  unfold Reg.dmaChStatus Reg.dmaChCtrl
  omega

/-- The transfer of that entry. -/
def State.entryXfer (s : State) (n : Nat) : Xfer :=
  newXfer (.chip n) (s.headTaken n).serial (s.rd (.dmaChDoorHead (dmaChip n))) (s.entryAddr n)
    ((s.headTaken n).memNat (s.entryAddr n) 64)

theorem State.takeEntry_accepted {n : Nat} (hr : ((s.headTaken n).dmaRead (.chip n) (s.entryAddr n) 64 0).2 = none)
    (hx : (s.entryRead n).xfReason (.chip n) (s.entryXfer n).desc = none) (hw : xfWaitEn (s.entryXfer n).desc = false) :
    s.takeEntry n = (s.entryRead n).xferHeld (chipKey n) (s.entryXfer n) := by
  unfold State.takeEntry
  extract_lets b i a da v r w x u
  have hr' : r.2 = none := hr
  have hx' : u.xfReason a w = none := hx
  have hw' : ¬xfWaitEn w = true := ne_true_of_eq_false hw
  rw [hr']
  dsimp only
  rw [hx']
  dsimp only
  rw [if_neg hw']
  rfl

theorem exec_chipChannelEntry_taken {n k : Nat} (hw : List Hw) (hn : n < 64) (h0 : s.chanState (chipKey n) = 0)
    (hm : s.rd (.dmaChDoorHead (dmaChip n)) ≠ s.rd (.dmaChDoorTail (dmaChip n))) (he : (s.chan (chipKey n)).ended = none) {u : State}
    (hu : s.takeEntry n = u) (hq : u.chanWait n = .none) (h1 : u.chanState (chipKey n) = 1) :
    exec (.chipChannelEntry n hw k) s = .next (u.runXfer (chipKey n) hw k) := by
  show execChipChannelEntry n hw k s = _
  rw [execChipChannelEntry, if_neg (Nat.not_le.2 hn)]
  dsimp only
  rw [if_pos ⟨h0, hm, by rw [he]; rfl⟩, hu, hq]
  dsimp only
  rw [if_pos h1]

/-- The state in which an entry that has ended is closed and its status word written. -/
def State.entryClosed (s : State) (n code : Nat) (x : Xfer) : State :=
  let u := s.modChan (chipKey n) (fun k => { k with ended := none, prior := 0 })
  let u := u.setHeads (Sparse.put .none (chanKey n) .none u.heads)
  (u.dmaWrite x.agent (u.rd (.dmaChStatbaseStatusBase (dmaChip n)) + 4 * (x.token % pow2 (u.rd (.dmaChRingL (dmaChip n))))) 0
    (bytesOfNat 4 (code + x.token % 65536 * 65536))).1

theorem State.ended_entryClosed (n code : Nat) (x : Xfer) : ((s.entryClosed n code x).chan (chipKey n)).ended = none := by
  rw [State.entryClosed]
  rw [State.chan_congr ((State.dmaWrite_touches _ _ _ _ _ (.refl _) (.refl _)).fst.1 .chans rfl)]
  rw [State.chan_setHeads, State.chan_modChan_self]

theorem exec_chipChannelEntryDone_ended {n code : Nat} {x : Xfer} (h : (s.chan (chipKey n)).ended = some (code, x)) {u v : State}
    (hu : s.entryClosed n code x = u) (hv : u.setChanState (chipKey n) (if u.rdBit (.dmaChCtrlPause (dmaChip n)) then 3 else 0) = v) :
    exec (.chipChannelEntryDone n) s = .next (if code = 0 then v.performSignal (unitChipChannel n)
      (v.rd (.dmaChCtrlPartition (dmaChip n))) 0 (xfSignal x.desc) else u.setChanState (chipKey n) 4) := by
  subst hu hv
  show execChipChannelEntryDone n s = _
  rw [apply_ite Host.Outcome.next]
  unfold execChipChannelEntryDone
  extract_lets key
  have h' : (s.chan key).ended = some (code, x) := h
  rw [h']
  rfl

/-! ## What each row comes to -/

/-- An idle channel that takes a DMA_XFER whose checks pass is RUNNING, with nothing moved. -/
theorem exec_dmaXfer_begins {core channel : Nat} {i : Issued} (hh : (s.core core).head = none)
    (hn : (s.core core).nextOf (.dma (channel % 4)) = some i) (ho : i.opcode = 0x40) (hr : i.mayRun = true)
    (hs : s.chanState (coreKey core (channel % 4)) = 0) (hc : dmaClean i.cmd = true) (ha : dmaOffset i.cmd % 64 = 0)
    (hsz : dmaOffset i.cmd + 64 ≤ storeSize) {v : State} (hv : s.began core i = v) {da : Nat}
    (hda : coreWindow core + dmaOffset i.cmd = da) (hb : anyMarked v.bad da 64 = false)
    (hx : (v.setSerial (v.serial + 1)).xfReason (.core core (channel % 4)) (v.memNat da 64) = none) :
    ∃ t, exec (.dmaXfer core channel [] 0) s = .next t ∧ t.chanState (coreKey core (channel % 4)) = 1 ∧
      (t.chan (coreKey core (channel % 4))).xfer =
        some (newXfer (.core core (channel % 4)) v.serial i.token da (v.memNat da 64)) := by
  have htake := (State.takeDma_next (run := fun s i => s.beginDma core (channel % 4) i) hn ho hr hs).trans
    (State.beginDma_accepted hc ha hsz hv hda hb hx)
  obtain ⟨hrun, hheld, -⟩ := State.runXfer_begun (s := v.setSerial (v.serial + 1)) (coreKey core (channel % 4))
    (x := newXfer (.core core (channel % 4)) v.serial i.token da (v.memNat da 64)) rfl
  exact ⟨_, exec_dmaXfer_noHead [] 0 hh htake (State.chanState_xferHeld ..), hrun, hheld⟩

/-- A RUNNING channel moves its units in order, and ends its transfer at one that fails. -/
theorem exec_dmaXfer_moves {core channel n : Nat} {x : Xfer} (hh : (s.core core).head = none)
    (hn : (s.core core).nextOf (.dma (channel % 4)) = none) (hs : s.chanState (coreKey core (channel % 4)) = 1)
    (hx : (s.chan (coreKey core (channel % 4))).xfer = some x) (hf : x.failed = none) :
    ∃ t, exec (.dmaXfer core channel [] n) s = .next t ∧
      ((State.moveUnits [] n s x).2.2 = .more → (t.chan (coreKey core (channel % 4))).xfer = some (State.moveUnits [] n s x).2.1 ∧
        t.mem = (State.moveUnits [] n s x).1.mem) ∧
      ∀ code, (State.moveUnits [] n s x).2.2 = .fail code →
        t = (State.moveUnits [] n s x).1.failXfer (State.moveUnits [] n s x).2.1 code := by
  refine ⟨_, exec_dmaXfer_noHead [] n hh (State.takeDma_none hn) hs, fun hmore => ?_, fun code hfail => State.runXfer_fail hx hf hfail⟩
  rw [State.runXfer_more hx hf hmore]
  exact ⟨by rw [State.chan_modChan_self], State.mem_modChan ..⟩

/-- An idle channel executes its DMA_GATHER with the code of its rows, or of the refusal. -/
theorem exec_dmaGather_executes {core channel : Nat} {i : Issued} (hh : (s.core core).head = none)
    (hn : (s.core core).nextOf (.dma (channel % 4)) = some i) (ho : i.opcode = 0x41) (hr : i.mayRun = true)
    (hs : s.chanState (coreKey core (channel % 4)) = 0) {v : State} (hv : s.began core i = v) :
    ∃ t, exec (.dmaGather core channel []) s = .next t ∧
      (v.gatherRefusal core i.cmd = none →
        t.hasExecuted core i.token (v.gatherGo core (channel % 4) i).2 ∧ t.mem = (v.gatherGo core (channel % 4) i).1.mem) ∧
      ∀ r, v.gatherRefusal core i.cmd = some r →
        t.hasExecuted core i.token (v.gatherRefused core (channel % 4) i.cmd r).2 ∧ t.mem = s.mem := by
  have htake := State.takeDma_next (run := fun s i => s.gatherRun [] core (channel % 4) i) hn ho hr hs
  have hmem : v.mem = s.mem := hv ▸ (State.began_touches s core i (.refl _) (.refl s)).1 .mem rfl
  refine ⟨_, (exec_dmaGather_noHead [] hh).trans (congrArg _ htake), fun h => ?_, fun r h => ?_⟩
  · rw [State.gatherRun_accepted hv h]
    exact ⟨State.hasExecuted_gatherEnd _ _ _ _, State.mem_gatherEnd ..⟩
  · rw [State.gatherRun_refused hv h]
    exact ⟨State.hasExecuted_gatherEnd _ _ _ _, (State.mem_gatherEnd ..).trans
      (((State.gatherRefused_touches _ _ _ _ r (.refl _) (.refl _)).fst.1 .mem rfl).trans hmem)⟩

/-- An idle chip channel takes the entry at HEAD, where its descriptor can be read and passes its check, and HEAD rises. -/
theorem exec_chipChannelEntry_begins {n : Nat} (hn : n < 64) (h0 : s.chanState (chipKey n) = 0)
    (hm : s.rd (.dmaChDoorHead (dmaChip n)) ≠ s.rd (.dmaChDoorTail (dmaChip n))) (he : (s.chan (chipKey n)).ended = none)
    (hq : s.chanWait n = .none) (hr : ((s.headTaken n).dmaRead (.chip n) (s.entryAddr n) 64 0).2 = none)
    (hx : (s.entryRead n).xfReason (.chip n) (s.entryXfer n).desc = none) (hw : xfWaitEn (s.entryXfer n).desc = false) :
    ∃ t, exec (.chipChannelEntry n [] 0) s = .next t ∧ t.chanState (chipKey n) = 1 ∧ (t.chan (chipKey n)).xfer = some (s.entryXfer n) ∧
      (areaOf (s.entryAddr n) ≠ .tier2 →
        t.rd (.dmaChDoorHead (dmaChip n)) = (s.rd (.dmaChDoorHead (dmaChip n)) + 1) % 2 ^ 32) := by
  have htake := State.takeEntry_accepted hr hx hw
  obtain ⟨hrun, hheld, hregs⟩ := State.runXfer_begun (s := s.entryRead n) (chipKey n) (x := s.entryXfer n) rfl
  have hwait : ((s.entryRead n).xferHeld (chipKey n) (s.entryXfer n)).chanWait n = .none :=
    (State.chanWait_xferHeld ..).trans ((State.chanWait_congr (State.heads_entryRead n) n).trans hq)
  refine ⟨_, exec_chipChannelEntry_taken [] hn h0 hm he htake hwait (State.chanState_xferHeld ..), hrun, hheld, fun hout => ?_⟩
  calc _ = ((s.entryRead n).xferHeld (chipKey n) (s.entryXfer n)).rd (.dmaChDoorHead (dmaChip n)) := State.rd_congr hregs _
    _ = (s.entryRead n).rd (.dmaChDoorHead (dmaChip n)) := State.rd_xferHeld _ _ (chipStatus_ne_door n)
    _ = (s.headTaken n).rd (.dmaChDoorHead (dmaChip n)) := State.rd_congr (State.regs_entryRead hr hout) _
    _ = (s.rd (.dmaChDoorHead (dmaChip n)) + 1) % 2 ^ 32 := State.head_headTaken n

/-- An entry that has ended frees its channel and performs its signal, or stops the channel where it failed. -/
theorem exec_chipChannelEntryDone_closes {n code : Nat} {x : Xfer} (he : (s.chan (chipKey n)).ended = some (code, x)) :
    ∃ t, exec (.chipChannelEntryDone n) s = .next t ∧ (t.chan (chipKey n)).ended = none ∧ (code ≠ 0 → t.chanState (chipKey n) = 4) ∧
      (code = 0 → ∃ u : State, u.chanState (chipKey n) = (if u.rdBit (.dmaChCtrlPause (dmaChip n)) then 3 else 0) ∧
        t = u.performSignal (unitChipChannel n) (u.rd (.dmaChCtrlPartition (dmaChip n))) 0 (xfSignal x.desc)) := by
  have hended := State.ended_entryClosed (s := s) n code x
  have hexec := exec_chipChannelEntryDone_ended he rfl rfl
  generalize s.entryClosed n code x = u at hended hexec
  have hpause : ∀ v, (u.setChanState (chipKey n) v).rdBit (.dmaChCtrlPause (dmaChip n)) = u.rdBit (.dmaChCtrlPause (dmaChip n)) := fun v =>
    congrArg (fun y => decide (y = 1)) (State.rd_setChanState _ v (chipStatus_ne_ctrl n))
  have hchan : ∀ v, ((u.setChanState (chipKey n) v).chan (chipKey n)).ended = none := fun v => by
    rw [State.setChanState, State.chan_wr, hended]
  refine ⟨_, hexec, ?_, fun hc => ?_, fun hc => ⟨_, ?_, if_pos hc⟩⟩
  · split
    · rw [State.chan_congr ((State.performSignal_touches _ _ _ _ _ (.refl _) (.refl _)).1 .chans rfl), hchan]
    · exact hchan 4
  · rw [if_neg hc]
    exact State.chanState_setChanState _ (of_decide_eq_true rfl)
  · rw [hpause]
    exact State.chanState_setChanState _ (by split <;> omega)

end

/-- Settles O34. -/
theorem transfersBeginMoveAndEnd : Obligations.TransfersBeginMoveAndEnd := by
  intro s
  refine ⟨fun core channel i hh hn ho hr hs hc ha hsz hb hx => ?_, fun core channel n x hh hn hs hx hf _ =>
      exec_dmaXfer_moves hh hn hs hx hf, fun x bs trailer => State.passUnit_written, fun ch x hc h1 hw hx hk hf hm ha hr => ?_,
    fun core channel i hh hn ho hr hs => exec_dmaGather_executes hh hn ho hr hs rfl, fun n hn h0 hm he hq hr hx hw => ?_,
    fun n code x _ he => exec_chipChannelEntryDone_closes he⟩
  · obtain ⟨t, hexec, hrun, hheld⟩ := exec_dmaXfer_begins hh hn ho hr hs hc ha hsz rfl rfl hb hx
    exact ⟨t, _, hexec, hrun, hheld, rfl, rfl, rfl, rfl, rfl⟩
  · obtain ⟨hfree, hmem, hchip, hcore⟩ := State.endXfer_over (s := s.modChan ch (fun k => { k with xfer := some x })) x 0
    rw [hk] at hfree hchip
    exact ⟨_, exec_transferComplete_moved hc h1 hw hx hf hm ha hr, hfree, hmem, hchip, hcore⟩
  · obtain ⟨t, hexec, hrun, hheld, hhead⟩ := exec_chipChannelEntry_begins hn h0 hm he hq hr hx hw
    exact ⟨t, _, hexec, hrun, hheld, rfl, rfl, rfl, hhead⟩

end Sys2Proof.Machine

/-!
PROOFS. The messages of other chips (sections 13.3, 13.4 and 13.8): they are forwarded or taken, and those for this chip are
answered, reach their requests, or advance their reductions (O44).
-/
namespace Sys2Proof.Machine

/-! ## Taking a message (R333, R334) -/

section
variable {s : State} {i n type : Nat} {m : Msg}

theorem State.msgAt_some (h : s.msgAt i type = some (n, m)) : s.inbox[i]? = some (n, m) ∧ m.type = type := by
  unfold State.msgAt at h
  split at h
  · exact absurd h nofun
  · next hi =>
    split at h
    · exact absurd h nofun
    · next hn =>
      cases h
      exact ⟨hi, Classical.not_not.1 (not_or.1 hn).1⟩

/-- A message that is taken leaves the inbox; beside it only its port changes. -/
theorem State.freeMsg_frame (i : Nat) : Touches (fieldMask [.inbox, .ports]) s (s.freeMsg i) :=
  State.freeMsg_touches s i (.refl _) (.refl s)

theorem State.inbox_freeMsg (h : s.inbox[i]? = some (n, m)) : (s.freeMsg i).inbox = s.inbox.eraseIdx i := by
  rw [State.freeMsg, h]
  dsimp only
  split <;> rfl

theorem State.mem_freeMsg (i : Nat) : (s.freeMsg i).mem = s.mem := (State.freeMsg_frame i).1 .mem rfl

theorem State.bad_freeMsg (i : Nat) : (s.freeMsg i).bad = s.bad := (State.freeMsg_frame i).1 .bad rfl

theorem State.reqOf_freeMsg (i : Nat) (m : Msg) : (s.freeMsg i).reqOf m = s.reqOf m := by
  rw [State.reqOf, show (s.freeMsg i).reqs = s.reqs from (State.freeMsg_frame i).1 .reqs rfl]
  rfl

theorem State.onMsg_here {f : State → Nat → Msg → State} (h : s.msgAt i type = some (n, m)) (hd : m.dst = s.chipId) :
    s.onMsg i type f = f (s.freeMsg i) n m := by
  rw [State.onMsg, h]
  exact if_pos hd

theorem State.onMsg_elsewhere {f : State → Nat → Msg → State} (h : s.msgAt i type = some (n, m)) (hd : m.dst ≠ s.chipId) :
    s.onMsg i type f = s.forward i n m := by
  rw [State.onMsg, h]
  exact if_neg hd

/-! ## Sending on (R334, R335) -/

/-- A message that has a route stands in the queue of a port of it. -/
theorem State.mem_enqueueMsg {x : Msg} (unit : Nat) (h : s.canRoute x = true) :
    ∃ k ∈ s.routePorts x.dst, { x with unit := unit } ∈ ((s.enqueueMsg unit x).port k).txq := by
  have hne : s.routePorts x.dst ≠ [] := of_decide_eq_true (Bool.and_eq_true_iff.1 h).2
  have hlt := Nat.mod_lt (Config.routeHash x.src unit x.routeKey) (List.length_pos_iff.2 hne)
  refine ⟨_, List.getElem_eq_getD (h := hlt) 0 ▸ List.getElem_mem hlt, ?_⟩
  rw [State.enqueueMsg, State.port_modPort_self]
  exact List.mem_append_right _ (List.mem_singleton_self _)

theorem State.forward_routed {x : Msg} (hx : x = { m with hops := m.hops + 1, via := some n }) (h : s.canRoute x = true) :
    (s.forward i n m).inbox = s.inbox.eraseIdx i ∧
      ∃ k ∈ s.routePorts x.dst, { x with unit := unitLink } ∈ ((s.forward i n m).port k).txq := by
  have hroute : (s.setInbox (s.inbox.eraseIdx i)).canRoute x = true := h
  have hf : s.forward i n m = ((s.setInbox (s.inbox.eraseIdx i)).enqueueMsg unitLink x).count (Reg.lnkCnt 1) 1 := by
    rw [State.forward, ← hx]
    exact if_pos hroute
  rw [hf]
  constructor
  · rw [State.inbox_count, State.enqueueMsg, State.inbox_modPort, State.inbox_setInbox]
  · obtain ⟨k, hk, hmem⟩ := State.mem_enqueueMsg unitLink hroute
    exact ⟨k, hk, by rwa [State.port_count]⟩

/-- The rows that take a message of a type consume it here or send it on. -/
theorem exec_takes {x : Instr × Nat} (hx : x ∈ [(Instr.msgRdReq i, 0x10), (.msgWr i, 0x11), (.msgWrMasked i, 0x12), (.msgRdRsp i, 0x20),
    (.msgWrAck i, 0x21), (.msgErrRsp i, 0x22), (.msgSignal i, 0x30)]) : ∃ f, exec x.1 s = .next (s.onMsg i x.2 f) := by
  simp only [List.mem_cons, List.not_mem_nil, or_false] at hx
  obtain rfl | rfl | rfl | rfl | rfl | rfl | rfl := hx <;> exact ⟨_, rfl⟩

/-! ## Credits (R333) -/

theorem exec_msgCredit_taken (h : s.msgAt i 1 = some (n, m)) : exec (.msgCredit i) s = .next ((s.freeMsg i).modPort n (fun p =>
    { p with credits := p.credits.mapIdx (fun v k => min (k + bitsAt m.arg (12 * v) 12) (fullCredits.getD v 0)) })) := by
  show execMsgCredit i s = _
  rw [execMsgCredit, h]

theorem State.port_freeMsg_credit (h : s.msgAt i 1 = some (n, m)) (k : Nat) : (s.freeMsg i).port k = s.port k := by
  obtain ⟨hi, ht⟩ := State.msgAt_some h
  rw [State.freeMsg, hi]
  dsimp only
  rw [if_pos ht, State.port_setInbox]

/-! ## Remote reads and writes (R337) -/

theorem State.answer_frame (x : Msg) : Touches (fieldMask [.events, .ports]) s (s.answer x) :=
  State.answer_touches s x (.refl _) (.refl s)

theorem State.inbox_answer (x : Msg) : (s.answer x).inbox = s.inbox := (State.answer_frame x).1 .inbox rfl
theorem State.mem_answer (x : Msg) : (s.answer x).mem = s.mem := (State.answer_frame x).1 .mem rfl

/-- A row that answers the message it has taken, and does nothing else to the memory. -/
theorem exec_answers {c : Instr} {u : State} {x : Msg} (hexec : exec c s = .next u) (hi : s.inbox[i]? = some (n, m))
    (h : ∃ v : State, u = v.answer x ∧ v.inbox = (s.freeMsg i).inbox ∧ v.mem = (s.freeMsg i).mem) :
    ∃ v t : State, exec c s = .next t ∧ t = v.answer x ∧ t.inbox = s.inbox.eraseIdx i ∧ t.mem = s.mem := by
  obtain ⟨v, rfl, hinbox, hmem⟩ := h
  exact ⟨v, _, hexec, rfl, (State.inbox_answer x).trans (hinbox.trans (State.inbox_freeMsg hi)),
    (State.mem_answer x).trans (hmem.trans (State.mem_freeMsg i))⟩

/-- A read that R252 refuses; one of clean bytes that it allows. -/
theorem State.remoteRead_refused {c : Code} (h : (s.linkCheck m.cpa (32 * min 16 (bitsAt m.arg 56 8)) false).1.code = some c) :
    ∃ v : State, s.remoteRead n m = v.answer (m.errRsp c.val) ∧ v.inbox = s.inbox ∧ v.mem = s.mem := by
  rw [State.remoteRead, h]
  have hf := State.refuseAccess_touches s c sevNotice (unitPort n 63) .link
    (s.linkCheck m.cpa (32 * min 16 (bitsAt m.arg 56 8)) false).2 false (.refl _) (.refl s)
  exact ⟨_, rfl, hf.1 .inbox rfl, hf.1 .mem rfl⟩

theorem State.remoteRead_clean (h : (s.linkCheck m.cpa (32 * min 16 (bitsAt m.arg 56 8)) false).1.code = none)
    (hb : anyMarked s.bad m.cpa (32 * min 16 (bitsAt m.arg 56 8)) = false)
    (hp : s.poisoned m.cpa (32 * min 16 (bitsAt m.arg 56 8)) = false) :
    ∃ v : State, s.remoteRead n m = v.answer (m.reply 0x20 (min 16 (bitsAt m.arg 56 8)) 0
      (natOfBytes (s.bytes m.cpa (32 * min 16 (bitsAt m.arg 56 8))))) ∧ v.inbox = s.inbox ∧ v.mem = s.mem := by
  have hf := State.cacheReads_touches s m.cpa (32 * min 16 (bitsAt m.arg 56 8)) 0 (.refl _) (.refl s)
  refine ⟨_, ?_, hf.1 .inbox rfl, hf.1 .mem rfl⟩
  rw [State.remoteRead, h]
  dsimp only
  rw [if_neg (ne_true_of_eq_false hb), if_neg (ne_true_of_eq_false hp)]

section
variable {a k : Nat} {runs : List (Nat × List (BitVec 8))}

theorem State.remoteStore_refused {c : Code} (h : (s.linkCheck a k true).1.code = some c) :
    ∃ v : State, s.remoteStore n m a k runs = v.answer (m.errRsp c.val) ∧ v.inbox = s.inbox ∧ v.mem = s.mem := by
  rw [State.remoteStore, h]
  have hf := State.refuseAccess_touches s c sevNotice (unitPort n 63) .link (s.linkCheck a k true).2 true (.refl _) (.refl s)
  exact ⟨_, rfl, hf.1 .inbox rfl, hf.1 .mem rfl⟩

theorem State.remoteStore_accepted (h : (s.linkCheck a k true).1.code = none) :
    ∃ v : State, s.remoteStore n m a k runs = v.answer (m.reply 0x21 0 1 0) ∧
      v.mem = (runs.foldl (fun s x => s.store x.1 x.2) s).mem := by
  rw [State.remoteStore, h]
  exact ⟨_, rfl, (State.cacheWrites_touches _ a k 0 (.refl _) (.refl _)).1 .mem rfl⟩

end

/-- A write and a masked write for this chip store their runs of bytes. -/
theorem exec_remoteStore {x : Instr × Nat × Nat × List (Nat × List (BitVec 8))}
    (hx : x ∈ [(Instr.msgWr i, 0x11, 32 * m.len, [(m.cpa, bytesOfNat (32 * m.len) m.data)]),
      (.msgWrMasked i, 0x12, 32, (List.range 32).filterMap (fun j =>
        if bitAt m.data j then some (m.cpa + j, bytesOfNat 1 (bytesAt m.data (32 + j) 1)) else none))])
    (h : s.msgAt i x.2.1 = some (n, m)) (hd : m.dst = s.chipId) :
    exec x.1 s = .next ((s.freeMsg i).remoteStore n m m.cpa x.2.2.1 x.2.2.2) := by
  simp only [List.mem_cons, List.not_mem_nil, or_false] at hx
  obtain rfl | rfl := hx
  · exact congrArg Host.Outcome.next (State.onMsg_here h hd)
  · exact congrArg Host.Outcome.next (State.onMsg_here h hd)

/-! ## Remote reads of tier 3 (R275, R337) -/

theorem exec_msgObjRdReq_here (h : s.msgAt i 0x13 = some (n, m)) (hd : m.dst = s.chipId) (hh : s.heldHere m = none) :
    exec (.msgObjRdReq i) s = .next ((s.freeMsg i).remoteObject n m) := by
  show execMsgObjRdReq i s = _
  rw [execMsgObjRdReq, h]
  dsimp only
  rw [hh]
  exact congrArg Host.Outcome.next (State.onMsg_here h hd)

theorem State.remoteObject_refused {c : Code} {r : Nat} (h : s.unitRefusal m = some (c, r)) :
    ∃ v : State, s.remoteObject n m = v.answer (m.errRsp c.val) ∧ v.inbox = s.inbox ∧ v.mem = s.mem := by
  rw [State.remoteObject, h]
  dsimp only
  split
  · next heq =>
    cases heq
    exact ⟨_, rfl, State.inbox_count .., State.mem_count ..⟩
  · next heq =>
    cases heq
    exact ⟨_, rfl, rfl, rfl⟩
  · next hn _ => exact absurd hn nofun
  · next hn _ => exact absurd hn nofun

/-- The state in which the read modes of a unit that was read are counted, and a recovered one is reported. -/
def State.unitRead (s : State) (n : Nat) (m : Msg) (x : FlashObj) : State :=
  let md := s.unitMode m.object m.objectUnit x
  let u := s.countModes md
  if md = 0 then u else u.raise .xfrT3Recovered (unitPort n 63) noPart (unitPayload x m.object m.objectUnit md)

theorem State.mem_unitRead (x : FlashObj) : (s.unitRead n m x).mem = s.mem := by
  have hm : ∀ k, (s.countModes k).mem = s.mem := fun k => (State.countModes_touches s k (.refl _) (.refl s)).1 .mem rfl
  rw [State.unitRead]
  split
  · exact hm _
  · exact hm _

theorem State.remoteObject_read {x : FlashObj} (h : s.unitRefusal m = none) (ho : s.object m.object = some x)
    (h3 : s.unitMode m.object m.objectUnit x ≠ 3) : s.remoteObject n m = (List.range 8).foldl (fun s k =>
      s.answer (m.reply 0x20 16 (512 * k) (natOfBytes (objectBytes x (4096 * m.objectUnit + 512 * k) 512)))) (s.unitRead n m x) := by
  rw [State.remoteObject, h, ho]
  exact if_neg h3

/-! ## Responses (R335, R337) -/

section
variable {r : Req} (hd : m.dst = s.chipId) (hr : s.reqOf m = some r)
include hd hr

/-- A response to a request that is waiting for one of its type reaches it. -/
theorem State.onMsg_response {f : Msg → State → Req → State} (h : s.msgAt i type = some (n, m)) (hf : respFits type r.type = true) :
    s.onMsg i type (fun s _ m => s.onResponse m (f m)) = f m (s.freeMsg i) r := by
  rw [State.onMsg_here h hd, State.onResponse, State.reqOf_freeMsg, hr]
  exact if_pos ((State.msgAt_some h).2.symm ▸ hf)

theorem exec_msgRdRsp_data (h : s.msgAt i 0x20 = some (n, m)) (ht : r.type = 0x10 ∨ r.type = 0x13) :
    exec (.msgRdRsp i) s = .next ((s.freeMsg i).reqData r m.arg (bytesOfNat (32 * m.len) m.data)) :=
  congrArg Host.Outcome.next
    (State.onMsg_response (f := fun m s r => s.reqData r m.arg (bytesOfNat (32 * m.len) m.data)) hd hr h (decide_eq_true ht))

theorem exec_msgWrAck_acked (h : s.msgAt i 0x21 = some (n, m)) (ht : r.type = 0x11 ∨ r.type = 0x12) :
    exec (.msgWrAck i) s = .next ((s.freeMsg i).ackWrites r (bitsAt m.arg 0 16)) :=
  congrArg Host.Outcome.next
    (State.onMsg_response (f := fun m s r => s.ackWrites r (bitsAt m.arg 0 16)) hd hr h (decide_eq_true ht))

theorem exec_msgErrRsp_failed (h : s.msgAt i 0x22 = some (n, m)) :
    exec (.msgErrRsp i) s = .next ((s.freeMsg i).failReq r (bitsAt m.arg 0 16)) :=
  congrArg Host.Outcome.next (State.onMsg_response (f := fun m s r => s.failReq r (bitsAt m.arg 0 16)) hd hr h rfl)

end

theorem State.reqs_dropReq (tag : Nat) : ∀ z ∈ (s.dropReq tag).reqs, z.tag ≠ tag := by
  intro z hz
  rw [State.dropReq, State.reqs_setReqs] at hz
  simpa using (List.mem_filter.1 hz).2

theorem State.reqs_failReq (r : Req) (code : Nat) : (s.failReq r code).reqs = (s.dropReq r.tag).reqs := by
  rw [State.failReq]
  split
  · split <;> rfl
  · rfl
  · rfl

/-- A request all of whose data have come waits no longer. -/
theorem State.reqs_reqData {r : Req} {offset : Nat} {bs : List (BitVec 8)}
    (h : r.got + (bs.take (r.bytes - offset)).length ≥ r.bytes) : (s.reqData r offset bs).reqs = (s.dropReq r.tag).reqs := by
  rw [State.reqData, if_pos h]
  split
  · split <;> rfl
  · rfl
  · rfl

/-! ## Reductions (R345, R347) -/

theorem exec_takesRed {x : (Bool → Instr) × Nat × Nat}
    (hx : x ∈ [(fun d => Instr.msgRedPart i d, 0x40, m.redLevel), (fun d => Instr.msgRedResult i d, 0x41, levelResult)])
    (hi : s.inbox[i]? = some (n, m)) (disagree : Bool) : exec (x.1 disagree) s = .next (s.redMessage i x.2.1 x.2.2 disagree) := by
  simp only [List.mem_cons, List.not_mem_nil, or_false] at hx
  obtain rfl | rfl := hx
  · show Host.Outcome.next (s.redMessage i 0x40 (s.inboxLevel i) disagree) = _
    rw [State.inboxLevel, hi]
  · rfl

section
variable {r : Red} (hi : s.inbox[i]? = some (n, m)) (hd : m.dst = s.chipId)
  (hr : s.reds.find? (fun r => decide (r.group = m.redGroup ∧ r.rseq = m.redSeq ∧ r.cls = m.redClass)) = some r) (ho : r.outcome = none)
include hi hd hr ho

theorem State.redMessage_running (level : Nat) (disagree : Bool) : s.redMessage i m.type level disagree =
    if disagree then (s.freeMsg i).failRed r 2 else (s.freeMsg i).redReceive r level m := by
  rw [State.redMessage, hi]
  dsimp only
  rw [if_neg (not_not_intro rfl), if_neg (not_not_intro hd), hr]
  dsimp only
  rw [if_neg (by simp [ho])]

/-- A RED message of a reduction that runs advances it, or fails it where the members disagree. -/
theorem exec_takesRed_running {x : (Bool → Instr) × Nat × Nat}
    (hx : x ∈ [(fun d => Instr.msgRedPart i d, 0x40, m.redLevel), (fun d => Instr.msgRedResult i d, 0x41, levelResult)])
    (ht : m.type = x.2.1) (disagree : Bool) : exec (x.1 disagree) s =
      .next (if disagree then (s.freeMsg i).failRed r 2 else (s.freeMsg i).redReceive r x.2.2 m) := by
  rw [exec_takesRed hx hi, ← ht, State.redMessage_running hi hd hr ho]

end

theorem State.mem_events_failRed (r : Red) (reason : Nat) : ∃ e ∈ (s.failRed r reason).events, e.code = Code.lnkRedFail.val ∧
    e.payload = payload [(16, 4, r.group), (20, 4, r.rseq), (24, 1, r.cls), (25, 1, reason)] := by
  obtain ⟨e, hmem, he⟩ := (s.setRed { r with outcome := some reason }).mem_events_raise .lnkRedFail unitLink r.part
    (payload [(16, 4, r.group), (20, 4, r.rseq), (24, 1, r.cls), (25, 1, reason)])
  exact ⟨e, State.mem_events_count _ _ 1 hmem, he⟩

end

/-- Settles O44: each row takes its message out of the inbox first, and does to the rest what its type says. -/
theorem messagesAreTakenAnsweredAndForwarded : Obligations.MessagesAreTakenAnsweredAndForwarded := by
  intro s i n m q
  refine ⟨fun x hx h hd hroute => ?_, fun h => ?_, fun hd => ⟨fun h => ?_, fun x hx h => ?_, fun h hh => ?_, fun r hr => ?_, fun h => ?_,
    fun x hx hi ht r hr ho => ?_⟩⟩
  · obtain ⟨f, hexec⟩ := exec_takes (s := s) hx
    obtain ⟨hinbox, hqueued⟩ := State.forward_routed (i := i) rfl hroute
    exact ⟨_, hexec.trans (congrArg _ (State.onMsg_elsewhere h hd)), hinbox, hqueued⟩
  · refine ⟨_, exec_msgCredit_taken h, ?_, ?_⟩
    · rw [State.inbox_modPort, State.inbox_freeMsg (State.msgAt_some h).1]
    · rw [State.port_modPort_self, State.port_freeMsg_credit h]
  · have hexec : exec (.msgRdReq i) s = .next (q.remoteRead n m) := congrArg _ (State.onMsg_here h hd)
    have hi := (State.msgAt_some h).1
    exact ⟨fun c hc => exec_answers hexec hi (State.remoteRead_refused hc), fun hc hb hp =>
      exec_answers hexec hi (State.remoteRead_clean hc (by rwa [State.bad_freeMsg]) hp)⟩
  · have hexec := exec_remoteStore hx h hd
    refine ⟨fun c hc => exec_answers hexec (State.msgAt_some h).1 (State.remoteStore_refused hc), fun hc => ?_⟩
    obtain ⟨v, ht, hmem⟩ := State.remoteStore_accepted (n := n) (m := m) (runs := x.2.2.2) hc
    exact ⟨v, _, hexec, ht, ht ▸ (State.mem_answer _).trans hmem⟩
  · have hexec := exec_msgObjRdReq_here h hd hh
    refine ⟨fun c r hc => ?_, fun x hc ho h3 =>
      ⟨_, _, hexec, (State.mem_unitRead x).trans (State.mem_freeMsg i), State.remoteObject_read hc ho h3⟩⟩
    obtain ⟨v, t, ht, hv, -, hmem⟩ := exec_answers hexec (State.msgAt_some h).1 (State.remoteObject_refused hc)
    exact ⟨v, t, ht, hv, hmem⟩
  · refine ⟨fun h ht => ⟨_, exec_msgRdRsp_data hd hr h ht, ?_, fun hall => ?_⟩,
      fun h ht _ => ⟨_, exec_msgWrAck_acked hd hr h ht, ?_, rfl⟩, fun h => ⟨_, exec_msgErrRsp_failed hd hr h, ?_, ?_⟩⟩
    · exact ((State.reqData_touches q r _ _ (.refl _) (.refl q)).1 .inbox rfl).trans (State.inbox_freeMsg (State.msgAt_some h).1)
    · rw [State.reqs_reqData (by rwa [List.length_take, bytesOfNat_length])]
      exact State.reqs_dropReq r.tag
    · exact ((State.ackWrites_touches q r _ (.refl _) (.refl q)).1 .inbox rfl).trans (State.inbox_freeMsg (State.msgAt_some h).1)
    · exact ((State.failReq_touches q r _ (.refl _) (.refl q)).1 .inbox rfl).trans (State.inbox_freeMsg (State.msgAt_some h).1)
    · rw [State.reqs_failReq]
      exact State.reqs_dropReq r.tag
  · have hexec : exec (.msgSignal i) s = .next (q.applySignal
        { src := unitPort n 63, part := none, chip := m.src, object := bitsAt m.arg 0 16, broadcast := decide (bitsAt m.arg 16 8 = 2),
          index := 0 }) := congrArg _ (State.onMsg_here h hd)
    exact ⟨_, hexec, ((State.applySignal_touches q _ (.refl _) (.refl q)).1 .inbox rfl).trans
      (State.inbox_freeMsg (State.msgAt_some h).1), rfl⟩
  · have hexec := exec_takesRed_running hi hd hr ho hx ht
    refine ⟨⟨_, hexec false, rfl, ?_⟩, ⟨_, hexec true, ?_, State.mem_events_failRed r 2⟩⟩
    · exact ((State.redReceive_touches q r _ m (.refl _) (.refl q)).1 .inbox rfl).trans (State.inbox_freeMsg hi)
    · exact ((State.failRed_touches q r 2 (.refl _) (.refl q)).1 .inbox rfl).trans (State.inbox_freeMsg hi)

end Sys2Proof.Machine

/-!
PROOFS. The caddie's layer fences (chapter 11): how an LFENCE issues, how its record empties, and the release that follows (O20).
-/
namespace Sys2Proof.Machine

section
variable {s : State} {c : Nat}

/-! ## LFENCE (R290) -/

/-- What a command that may issue has passed: its header, check 3 and the check of its token. -/
theorem State.mayIssue_passed {op w : Nat} {q : Queue} {rs : List Region} (hh : (s.core c).head = some w)
    (h : s.mayIssue c op q rs = true) : (headerReason w).isSome = false ∧ (s.core c).issuing = true ∧
      ((s.core c).inflight.any (fun i => decide (i.opcode = 0x03))) = false ∧ s.fenceMet c = true ∧
      ∀ i ∈ (s.core c).inflight, i.token ≠ cmdToken w := by
  unfold State.mayIssue at h
  dsimp only at h
  rw [hh] at h
  simp only [State.checks3to8, Bool.and_eq_true, Bool.not_eq_true', Option.isNone_iff_eq_none, and_assoc] at h
  obtain ⟨-, hheader, hissuing, -, -, hstep, hfence, -, htoken, -⟩ := h
  refine ⟨by rw [hheader]; rfl, hissuing, hstep, hfence, fun i hi => ?_⟩
  simpa using List.any_eq_false.1 htoken i hi

theorem exec_lfence_resident {w : Nat} (hh : (s.core c).head = some w) (ho : cmdOpcode w = 0x04)
    (hm : s.mayIssue c 0x04 .pmk [] = true) (hr : s.lfRefusal c w = none) (hl : s.layerFailure (lfFeed w) (lfLayer w) = none)
    (hq : s.resident (lfFeed w) (lfLayer w) c = true) : exec (.lfence c) s = .next (s.issueFence c w) := by
  obtain ⟨hheader, hissuing, hstep, hfence, -⟩ := State.mayIssue_passed hh hm
  show execLfence c s = _
  unfold execLfence
  dsimp only
  rw [hh]
  dsimp only
  rw [if_neg (by simp [ho, hheader, hissuing, hm]), if_neg (by simp [hstep, hfence]), hr, ite_self]
  dsimp only
  rw [hl]
  dsimp only
  rw [hq, hm]
  rfl

/-! ## The records of layer fences (R291) -/

theorem State.fences_dropCommand (s : State) (c token : Nat) : (s.dropCommand c token).fences = s.fences.map (fun f =>
    if f.core = c then { f with tokens := f.tokens.filter (fun t => !(decide (t = token))) } else f) := by
  rw [State.dropCommand, State.fences_setFences, State.fences_modCore]

theorem State.fences_retiring (s : State) (c : Nat) (i : Issued) (code : Nat) :
    (s.retiring c i code).fences = (s.dropCommand c i.token).fences := by
  unfold State.retiring
  exact (State.trace_touches _ c _ _ _ i (.refl _) (.refl _)).1 .fences rfl

theorem State.fences_retired (s : State) (c : Nat) (i : Issued) : (s.retired c i).fences = (s.dropCommand c i.token).fences := by
  unfold State.retired
  split
  · rw [State.fences_modCore, State.fences_retiring]
  · rw [State.fences_retiring]

theorem State.fences_performSignal (s : State) (unit part index : Nat) (g : SignalEntry) :
    (s.performSignal unit part index g).fences = s.fences :=
  (State.performSignal_touches s unit part index g (.refl _) (.refl s)).1 .fences rfl

theorem State.fences_failCore (s : State) (c code index op stream : Nat) : (s.failCore c code index op stream).fences = s.fences :=
  (State.failCore_touches s c code index op stream (.refl _) (.refl s)).1 .fences rfl

/-- Of what a retirement does, only the removal of the command changes the records. -/
theorem State.fences_retire (s : State) (c : Nat) (i : Issued) (code : Nat) :
    (s.retire c i code).fences = s.fences.map (fun f =>
      if f.core = c then { f with tokens := f.tokens.filter (fun t => !(decide (t = i.token))) } else f) := by
  rw [← State.fences_dropCommand]
  by_cases hc : code = 0
  · rw [hc, s.retire_success c i, State.fences_performSignal, State.fences_performSignal, State.fences_retired]
  · have hfail : s.retire c i code =
        ((s.retiring c i code).modCore c (fun k => k.segFailed i.seg code)).failCore c code i.index i.opcode i.stream := if_neg hc
    rw [hfail, State.fences_failCore, State.fences_modCore, State.fences_retiring]

/-- The state in which an LFENCE has issued and left its record. -/
def State.fenceRecorded (s : State) (c w : Nat) : State :=
  let u := (s.issueHead c w .pmk []).began c (s.issued c w .pmk [])
  (u.setFences (u.fences ++ [Fence.mk c (lfFeed w) (lfLayer w) ((s.core c).inflight.map (fun i => i.token))])).modFeed (lfFeed w)
    (fun x => { x with last := bindCore c (lfLayer w) x.last })

theorem State.issueFence_eq (s : State) (c w : Nat) :
    s.issueFence c w = ((s.fenceRecorded c w).retire c (s.issued c w .pmk []) 0).afterIssue c := rfl

theorem State.fences_afterIssue (s : State) (c : Nat) : (s.afterIssue c).fences = s.fences :=
  (State.afterIssue_touches s c (.refl _) (.refl s)).1 .fences rfl

/-- The record of an LFENCE stands once it has issued: its own token was free, so that its retirement takes nothing from it. -/
theorem State.mem_fences_issueFence {w : Nat} (ht : ∀ i ∈ (s.core c).inflight, i.token ≠ cmdToken w) :
    Fence.mk c (lfFeed w) (lfLayer w) ((s.core c).inflight.map (fun i => i.token)) ∈ (s.issueFence c w).fences := by
  have hkept : ((s.core c).inflight.map (fun i => i.token)).filter (fun t => !(decide (t = cmdToken w))) =
      (s.core c).inflight.map (fun i => i.token) :=
    List.filter_eq_self.2 fun t h => by
      obtain ⟨i, hi, rfl⟩ := List.mem_map.1 h
      simpa using ht i hi
  rw [State.issueFence_eq, State.fences_afterIssue, State.fences_retire, State.fenceRecorded, State.fences_modFeed,
    State.fences_setFences]
  have htoken : (s.issued c w .pmk []).token = cmdToken w := rfl
  refine List.mem_map.2 ⟨_, List.mem_append_right _ (List.mem_singleton_self _), ?_⟩
  rw [if_pos rfl, htoken, hkept]

/-! ## LAYER_RELEASE (R291) -/

/-- The state in which core `c` has taken the record `f`, before MIN_RELEASED follows. -/
def State.fenceTaken (s : State) (c : Nat) (f : Fence) : State :=
  (s.setFences (s.fences.erase f)).modFeed f.feed (fun x => { x with released :=
    (if seqAfter (s.releasedOf f.feed c) f.q then bindCore c f.q x.released else x.released) })

theorem State.releasedOf_setFences (s : State) (x : List Fence) (f c : Nat) :
    (s.setFences x).releasedOf f c = s.releasedOf f c := by
  unfold State.releasedOf
  rw [State.feed_setFences, State.rd_setFences]

theorem exec_layerRelease_found {f : Fence} (h : s.fences.find? (fun f => decide (f.core = c ∧ f.tokens = [])) = some f) :
    exec (.layerRelease c) s = .next ((s.fenceTaken c f).setMinReleased f.feed) := by
  show execLayerRelease c s = _
  unfold execLayerRelease State.fenceTaken
  rw [h]
  dsimp only
  rw [State.releasedOf_setFences]

theorem State.fences_setMinReleased (f : Nat) : (s.setMinReleased f).fences = s.fences := by
  unfold State.setMinReleased
  split
  · rfl
  · rw [State.fences_wr]

theorem State.releasedOf_setMinReleased (f : Nat) : (s.setMinReleased f).releasedOf f c = s.releasedOf f c := by
  unfold State.setMinReleased
  split
  · rfl
  · unfold State.releasedOf
    rw [State.feed_wr, s.rd_wr_ne (.cadFeedPosMinReleased f) (.cadFeedPosFirst f) _ (.inr (of_decide_eq_true rfl))]

/-- A layer that the core had released already stays released. -/
theorem State.releasedOf_fenceTaken (f : Fence) : (s.fenceTaken c f).releasedOf f.feed c =
    if seqAfter (s.releasedOf f.feed c) f.q then f.q else s.releasedOf f.feed c := by
  rw [State.releasedOf, State.fenceTaken, State.feed_modFeed_self, State.rd_modFeed]
  dsimp only
  split
  · rw [bindCore, List.find?_cons_of_pos (by simp)]
    rfl
  · rfl

end

/-- Settles O20: the records change at a retirement as the removal of the command says. -/
theorem layerFencesReleaseLayers : Obligations.LayerFencesReleaseLayers := by
  refine ⟨fun s core w hh ho hm hr hl hq => ?_, fun s core code i => s.fences_retire core i code, fun s core f hf => ?_⟩
  · obtain ⟨-, -, -, -, htoken⟩ := State.mayIssue_passed hh hm
    exact ⟨_, exec_lfence_resident hh ho hm hr hl hq, State.mem_fences_issueFence htoken⟩
  · exact ⟨_, exec_layerRelease_found hf, State.fences_setMinReleased f.feed,
      (State.releasedOf_setMinReleased f.feed).trans (State.releasedOf_fenceTaken f)⟩

end Sys2Proof.Machine

/-!
PROOFS. Channels (chapter 11): PAUSE with its drain, RESUME, ABORT and RESTART, and the doorbells of the chip channels (O32).
-/
namespace Sys2Proof.Machine

section
variable {s : State} {key : Nat}

/-! ## The registers of a channel -/

theorem dmaChStatus_ne_dmaChCtrl (b : Nat) : Reg.dmaChStatus b ≠ Reg.dmaChCtrl b := by
  unfold Reg.dmaChStatus Reg.dmaChCtrl
  omega

theorem dmaChStatus_ne_dmaChPos (b n : Nat) : Reg.dmaChStatus b ≠ Reg.dmaChPos b n := by
  unfold Reg.dmaChStatus Reg.dmaChPos
  omega

theorem dmaChPos_ne_dmaChCtrl (b n : Nat) : Reg.dmaChPos b n ≠ Reg.dmaChCtrl b := by
  unfold Reg.dmaChPos Reg.dmaChCtrl
  omega

theorem dmaChPos_injective (b : Nat) {m n : Nat} (h : m ≠ n) : Reg.dmaChPos b m ≠ Reg.dmaChPos b n := by
  unfold Reg.dmaChPos
  omega

/-- PAUSE and the state of a channel stand in registers of their own. -/
theorem State.rd_pause_setChanState (s : State) (key v : Nat) :
    (s.setChanState key v).rd (.dmaChCtrlPause (chanBase key)) = s.rd (.dmaChCtrlPause (chanBase key)) :=
  State.rd_setChanState key v (dmaChStatus_ne_dmaChCtrl _)

theorem State.chanState_wr_pause (s : State) (key v : Nat) :
    (s.wr (.dmaChCtrlPause (chanBase key)) v).chanState key = s.chanState key :=
  s.rd_wr_ne _ _ v (.inl (dmaChStatus_ne_dmaChCtrl _).symm)

theorem State.rd_pause_wr (s : State) (key : Nat) {v : Nat} (hv : v < 2) :
    (s.wr (.dmaChCtrlPause (chanBase key)) v).rd (.dmaChCtrlPause (chanBase key)) = v :=
  (s.rd_wr_self _ v (of_decide_eq_true rfl)).trans (Nat.mod_eq_of_lt hv)

/-! ## Positions (R279) -/

theorem State.chan_setPositions (s : State) (key k : Nat) : (s.setPositions key).chan k = s.chan k := by
  unfold State.setPositions
  dsimp only
  split <;> rfl

/-- Only the position registers are written. -/
theorem State.rd_setPositions (s : State) (key : Nat) {f : RF} (h : ∀ n, Reg.dmaChPos (chanBase key) n ≠ f.reg) :
    (s.setPositions key).rd f = s.rd f := by
  unfold State.setPositions State.rd
  dsimp only
  split
  · rfl
  · rw [State.reg_setReg_ne _ _ (h 3), State.reg_setReg_ne _ _ (h 2), State.reg_setReg_ne _ _ (h 1), State.reg_setReg_ne _ _ (h 0)]

theorem State.posOf_setPositions {x : Xfer} (hx : (s.chan key).xfer = some x) : (s.setPositions key).posOf key x := by
  have hne {m n : Nat} (h : m ≠ n) := dmaChPos_injective (chanBase key) h
  unfold State.setPositions State.posOf
  dsimp only
  rw [hx]
  dsimp only
  refine ⟨?_, ?_, ?_, State.reg_setReg_self ..⟩
  · rw [State.reg_setReg_ne _ _ (hne (by decide)), State.reg_setReg_ne _ _ (hne (by decide)), State.reg_setReg_ne _ _ (hne (by decide)),
      State.reg_setReg_self]
  · rw [State.reg_setReg_ne _ _ (hne (by decide)), State.reg_setReg_ne _ _ (hne (by decide)), State.reg_setReg_self]
  · rw [State.reg_setReg_ne _ _ (hne (by decide)), State.reg_setReg_self]

theorem State.posOf_setChanState {x : Xfer} (v : Nat) (h : s.posOf key x) : (s.setChanState key v).posOf key x := by
  have hreg (n : Nat) : (s.setChanState key v).reg (Reg.dmaChPos (chanBase key) n) = s.reg (Reg.dmaChPos (chanBase key) n) :=
    s.reg_wr_ne v (dmaChStatus_ne_dmaChPos _ n)
  unfold State.posOf at h ⊢
  dsimp only at h ⊢
  rw [hreg, hreg, hreg, hreg]
  exact h

/-- The state in which a channel is PAUSED with exact positions. -/
def State.pausedExact (s : State) (key : Nat) : State := (s.setChanState key 3).setPositions key

theorem State.chan_pausedExact (s : State) (key k : Nat) : (s.pausedExact key).chan k = s.chan k := by
  rw [State.pausedExact, State.chan_setPositions, State.setChanState, State.chan_wr]

theorem State.chanState_pausedExact (s : State) (key : Nat) : (s.pausedExact key).chanState key = 3 := by
  have hstatus := (s.setChanState key 3).rd_setPositions key (f := .dmaChStatusState (chanBase key))
    fun n => (dmaChStatus_ne_dmaChPos _ n).symm
  exact hstatus.trans (State.chanState_setChanState key (by decide))

theorem State.rd_pause_pausedExact (s : State) (key : Nat) :
    (s.pausedExact key).rd (.dmaChCtrlPause (chanBase key)) = s.rd (.dmaChCtrlPause (chanBase key)) := by
  have hctrl := (s.setChanState key 3).rd_setPositions key (f := .dmaChCtrlPause (chanBase key)) fun n => dmaChPos_ne_dmaChCtrl _ n
  exact hctrl.trans (s.rd_pause_setChanState key 3)

theorem State.posOf_pausedExact {x : Xfer} (hx : (s.chan key).xfer = some x) : (s.pausedExact key).posOf key x :=
  State.posOf_setPositions (by rw [State.setChanState, State.chan_wr, hx])

/-! ## PAUSE (R279) -/

theorem exec_dmaPause_open (hb : s.barShut false = false) (hk : key < 1088) : exec (.dmaPause key) s = .next (s.pauseChan key) := by
  show execDmaPause key s = _
  rw [execDmaPause, if_neg (ne_true_of_eq_false hb), if_pos hk]

theorem State.pauseChan_active (h : s.chanState key = 1) : s.pauseChan key =
    ((s.wr (.dmaChCtrlPause (chanBase key)) 1).modChan key (fun k => { k with prior := 1, unpause := false })).setChanState key 2 := by
  unfold State.pauseChan
  dsimp only
  rw [State.chanState_wr_pause, if_pos h]

theorem State.pauseChan_idle (h : s.chanState key = 0 ∨ s.chanState key = 5) : s.pauseChan key =
    ((s.wr (.dmaChCtrlPause (chanBase key)) 1).modChan key (fun k => { k with prior := s.chanState key })).pausedExact key := by
  unfold State.pauseChan
  dsimp only
  rw [State.chanState_wr_pause, if_neg (by omega), if_neg (by omega), if_pos h]
  rfl

/-! ## RESUME (R279) -/

theorem State.chan_unpauseChan (s : State) (key : Nat) : (s.unpauseChan key).chan key = { s.chan key with unpause := false } := by
  rw [State.unpauseChan, State.setChanState, State.chan_wr, State.chan_modChan_self]

/-- A paused channel returns to the state it paused from, or to IDLE without a transfer. -/
theorem State.chanState_unpauseChan (hp : (s.chan key).prior < 8) :
    (s.unpauseChan key).chanState key = if (s.chan key).xfer = none then 0 else (s.chan key).prior := by
  rw [State.unpauseChan, State.chanState_setChanState key (by split <;> omega)]
  cases (s.chan key).xfer <;> rfl

theorem State.posOf_unpauseChan {x : Xfer} (h : s.posOf key x) : (s.unpauseChan key).posOf key x :=
  State.posOf_setChanState (s := s.modChan key (fun k => { k with unpause := false })) _ h

theorem exec_dmaResume_paused (hb : s.barShut false = false) (hk : key < 1088) (h : s.chanState key = 3) :
    exec (.dmaResume key) s = .next ((s.wr (.dmaChCtrlPause (chanBase key)) 0).unpauseChan key) := by
  show execDmaResume key s = _
  unfold execDmaResume State.resumeChan
  dsimp only
  rw [if_neg (ne_true_of_eq_false hb), if_pos hk, State.chanState_wr_pause, if_neg (by omega), if_pos h]

/-! ## The drain of a pause -/

/-- A PAUSING channel of which nothing is in flight is PAUSED, and leaves PAUSED at once where PAUSE has been written 0. -/
theorem exec_dmaPauseDrained_quiet {x : Xfer} (hk : key < 1088) (h : s.chanState key = 2) (hx : (s.chan key).xfer = some x)
    (ha : x.asked = false) (ht : x.tries = 0) (hf : x.failed = none) (hr : s.openReqs x true = []) :
    exec (.dmaPauseDrained key) s =
      .next (if (s.chan key).unpause = true then (s.pausedExact key).unpauseChan key else s.pausedExact key) := by
  have hrun : (if x.asked = true ∨ x.tries ≠ 0 ∨ x.failed.isSome = true then s.runXfer key [] 1 else s) = s :=
    if_neg (by simp [ha, ht, hf])
  show execDmaPauseDrained key s = _
  unfold execDmaPauseDrained
  rw [if_neg (by omega), hx]
  dsimp only
  rw [hrun, hx]
  dsimp only
  rw [if_neg (by simp [ha, ht, hr]), ← State.pausedExact, State.chan_pausedExact]

/-! ## ABORT (R280) -/

/-- The state in which the wait of a chip channel's entry is forgotten. -/
def State.waitForgotten (s : State) (key : Nat) : State :=
  if key ≥ 1024 then
    (s.dropWaiter (.chipChannel (key - 1024))).setHeads (Sparse.put .none (chanKey (key - 1024)) .none s.heads)
  else s

theorem exec_dmaAbort_paused {x : Xfer} (hb : s.barShut false = false) (hk : key < 1088) (h : s.chanState key = 3)
    (hx : (s.chan key).xfer = some x) {u : State} (hu : s.waitForgotten key = u) : exec (.dmaAbort key) s =
      .next ((u.raise .xfrAborted (u.agentUnit x.agent) (u.agentPart x.agent)
        (payload [(16, 8, x.da), (24, 8, xfCount x.desc - x.moved)])).failXfer x Code.xfrAborted.val) := by
  subst hu
  show execDmaAbort key s = _
  unfold execDmaAbort
  rw [if_neg (ne_true_of_eq_false hb), if_neg (by omega), if_neg (not_not_intro h), hx]
  rfl

theorem State.events_failXfer (s : State) (x : Xfer) (code : Nat) : (s.failXfer x code).events = s.events :=
  (State.failXfer_touches s x code (.refl _) (.refl s)).1 .events rfl

/-! ## RESTART (R286) -/

theorem exec_dmaRestart_stopped (hb : s.barShut false = false) (hlo : 1024 ≤ key) (hk : key < 1088) (h : s.chanState key = 4) :
    exec (.dmaRestart key) s = .next (s.setChanState key (if s.rdBit (.dmaChCtrlPause (chanBase key)) then 3 else 0)) := by
  show execDmaRestart key s = _
  rw [execDmaRestart, if_neg (ne_true_of_eq_false hb), if_neg (by omega)]

/-! ## The doorbell of a chip channel (R285, R303) -/

theorem exec_chipChannelDoorbell_granted {fn n : Nat} (tail : Nat) (hd : s.decodes fn = true) (hr : s.rdBit .refReadyReady = true)
    (hn : n < 64) (hp : fn = 0 ∨ s.rd (.dmaChCtrlPartition (dmaChip n)) = fn - 1) :
    exec (.chipChannelDoorbell ⟨fn, n, 0, 4⟩ tail) s = .next (s.chipTailWrite n tail) := by
  show execChipChannelDoorbell ⟨fn, n, 0, 4⟩ tail s = _
  unfold execChipChannelDoorbell
  dsimp only
  rw [if_neg (by simp [hr]), if_neg (by simp [hd]), if_neg (by omega), if_neg (by decide)]

section
variable {n tail : Nat}

theorem State.chipTailWrite_taken (h : tailBad (s.rd (.dmaChDoorTail (dmaChip n))) (tail % 2 ^ 32) (s.rd (.dmaChDoorHead (dmaChip n)))
    (s.rd (.dmaChRingL (dmaChip n))) = false) : s.chipTailWrite n tail = s.wr (.dmaChDoorTail (dmaChip n)) tail :=
  if_neg (ne_true_of_eq_false h)

theorem State.chipTailWrite_overrun (h : tailBad (s.rd (.dmaChDoorTail (dmaChip n))) (tail % 2 ^ 32)
    (s.rd (.dmaChDoorHead (dmaChip n))) (s.rd (.dmaChRingL (dmaChip n))) = true) : s.chipTailWrite n tail =
      s.raise .xfrRingOverrun (unitChipChannel n) (s.agentPart (.chip n))
        (payload [(16, 1, n), (20, 4, tail), (24, 4, s.rd (.dmaChDoorHead (dmaChip n)))]) :=
  if_pos h

end

/-! ## What each row comes to -/

theorem exec_dmaPauseDrained_pauses {x : Xfer} (hk : key < 1088) (h : s.chanState key = 2) (hx : (s.chan key).xfer = some x)
    (ha : x.asked = false) (ht : x.tries = 0) (hf : x.failed = none) (hr : s.openReqs x true = []) :
    ∃ t, exec (.dmaPauseDrained key) s = .next t ∧ t.posOf key x ∧ (t.chan key).xfer = some x ∧
      ((s.chan key).unpause = false → t.chanState key = 3) ∧
      ((s.chan key).unpause = true → (s.chan key).prior < 8 → t.chanState key = (s.chan key).prior ∧ (t.chan key).unpause = false) := by
  have hpos : (s.pausedExact key).posOf key x := State.posOf_pausedExact hx
  have hexec := exec_dmaPauseDrained_quiet hk h hx ha ht hf hr
  by_cases hu : (s.chan key).unpause = true
  · rw [if_pos hu] at hexec
    refine ⟨_, hexec, State.posOf_unpauseChan hpos, ?_, fun hn => absurd hu (ne_true_of_eq_false hn), fun _ hp => ⟨?_, ?_⟩⟩
    · rw [State.chan_unpauseChan, State.chan_pausedExact, hx]
    · rw [State.chanState_unpauseChan (by rw [State.chan_pausedExact]; exact hp), State.chan_pausedExact, hx]
      rfl
    · rw [State.chan_unpauseChan]
  · rw [if_neg hu] at hexec
    exact ⟨_, hexec, hpos, by rw [State.chan_pausedExact, hx], fun _ => State.chanState_pausedExact ..,
      fun hn => absurd hn hu⟩

theorem exec_dmaAbort_aborts {x : Xfer} (hb : s.barShut false = false) (hk : key < 1088) (h : s.chanState key = 3)
    (hx : (s.chan key).xfer = some x) (ha : x.agent.key = key) :
    ∃ t, exec (.dmaAbort key) s = .next t ∧ (t.chan key).xfer = none ∧
      (∀ n, x.agent = .chip n → (t.chan key).ended = some (Code.xfrAborted.val, x)) ∧
      (∀ c n, x.agent = .core c n → t.hasExecuted c x.token Code.xfrAborted.val) ∧
      ∃ e ∈ t.events, e.code = Code.xfrAborted.val ∧ e.payload = payload [(16, 8, x.da), (24, 8, xfCount x.desc - x.moved)] := by
  refine ⟨_, exec_dmaAbort_paused hb hk h hx rfl, ?_⟩
  generalize s.waitForgotten key = u
  generalize hv : u.raise .xfrAborted (u.agentUnit x.agent) (u.agentPart x.agent)
    (payload [(16, 8, x.da), (24, 8, xfCount x.desc - x.moved)]) = v
  obtain ⟨hfree, -, hchip, hcore⟩ := State.endXfer_over (s := v.dropReqs x) x Code.xfrAborted.val
  rw [ha] at hfree hchip
  refine ⟨hfree, hchip, hcore, ?_⟩
  rw [State.events_failXfer, ← hv]
  exact State.mem_events_raise ..

theorem exec_chipChannelDoorbell_writes {fn n : Nat} (tail : Nat) (hd : s.decodes fn = true) (hr : s.rdBit .refReadyReady = true)
    (hn : n < 64) (hp : fn = 0 ∨ s.rd (.dmaChCtrlPartition (dmaChip n)) = fn - 1) :
    let b := dmaChip n
    let head := s.rd (.dmaChDoorHead b)
    ∃ t, exec (.chipChannelDoorbell ⟨fn, n, 0, 4⟩ tail) s = .next t ∧ t.rd (.dmaChDoorHead b) = head ∧
      (tailBad (s.rd (.dmaChDoorTail b)) (tail % 2 ^ 32) head (s.rd (.dmaChRingL b)) = false →
        t.rd (.dmaChDoorTail b) = tail % 2 ^ 32 ∧ t.events = s.events) ∧
      (tailBad (s.rd (.dmaChDoorTail b)) (tail % 2 ^ 32) head (s.rd (.dmaChRingL b)) = true →
        t.rd (.dmaChDoorTail b) = s.rd (.dmaChDoorTail b) ∧
        ∃ e ∈ t.events, e.code = Code.xfrRingOverrun.val ∧ e.payload = payload [(16, 1, n), (20, 4, tail), (24, 4, head)]) := by
  intro b head
  have hexec := exec_chipChannelDoorbell_granted tail hd hr hn hp
  cases hbad : tailBad (s.rd (.dmaChDoorTail b)) (tail % 2 ^ 32) head (s.rd (.dmaChRingL b)) with
  | false =>
    rw [State.chipTailWrite_taken hbad] at hexec
    exact ⟨_, hexec, s.rd_wr_ne _ _ _ (.inr ⟨.inr (Nat.le_refl _), Nat.le_refl _⟩),
      fun _ => ⟨s.rd_wr_self _ _ (of_decide_eq_true rfl), State.events_wr ..⟩, nofun⟩
  | true =>
    rw [State.chipTailWrite_overrun hbad] at hexec
    exact ⟨_, hexec, State.rd_raise .., nofun, fun _ => ⟨State.rd_raise .., State.mem_events_raise ..⟩⟩

end

/-- Settles O32: each operation of a channel is one change of its state register beside one of what the channel holds. -/
theorem channelsPauseAbortAndRestart : Obligations.ChannelsPauseAbortAndRestart := by
  intro s ch hch hb
  refine ⟨fun h => ?_, fun h => ?_, fun x h hx ha ht hf hr => exec_dmaPauseDrained_pauses hch h hx ha ht hf hr, fun h hp => ?_,
    fun x h hx ha => exec_dmaAbort_aborts hb hch h hx ha, fun hlo h => ?_,
    fun fn n tail hd hr hn hp => exec_chipChannelDoorbell_writes tail hd hr hn hp⟩
  · refine ⟨_, (exec_dmaPause_open hb hch).trans (congrArg _ (State.pauseChan_active h)),
      State.chanState_setChanState ch (by decide), ?_, ?_⟩
    · rw [State.rd_pause_setChanState, State.rd_modChan, State.rd_pause_wr _ _ (by decide)]
    · rw [State.setChanState, State.chan_wr, State.chan_modChan_self, State.chan_wr]
  · refine ⟨_, (exec_dmaPause_open hb hch).trans (congrArg _ (State.pauseChan_idle h)), State.chanState_pausedExact .., ?_, ?_,
      fun x hx => State.posOf_pausedExact ?_⟩
    · rw [State.rd_pause_pausedExact, State.rd_modChan, State.rd_pause_wr _ _ (by decide)]
    · rw [State.chan_pausedExact, State.chan_modChan_self, State.chan_wr]
    · rw [State.chan_modChan_self, State.chan_wr, hx]
  · refine ⟨_, exec_dmaResume_paused hb hch h, ?_, ?_, ?_⟩
    · rw [State.unpauseChan, State.rd_pause_setChanState, State.rd_modChan, State.rd_pause_wr _ _ (by decide)]
    · rw [State.chan_unpauseChan, State.chan_wr]
    · rw [State.chanState_unpauseChan (by rw [State.chan_wr]; exact hp), State.chan_wr]
  · refine ⟨_, exec_dmaRestart_stopped hb hlo hch h, ?_, ?_⟩
    · rw [State.setChanState, State.chan_wr]
    · exact State.chanState_setChanState ch (by split <;> decide)

end Sys2Proof.Machine

/-!
PROOFS. The caddie (chapter 11): how a feed is enabled, starts its layers and delivers them, and how the recovery of a shared weight
goes on and ends (O35).
-/
namespace Sys2Proof.Machine

section
variable {s : State}

/-! ## The registers of a feed -/

theorem cadFeedCtrl_ne_cadFeedShape (n : Nat) : Reg.cadFeedCtrl n ≠ Reg.cadFeedShape n := by
  unfold Reg.cadFeedCtrl Reg.cadFeedShape
  omega

theorem cadFeedCtrl_ne_cadFeedPos (n : Nat) : Reg.cadFeedCtrl n ≠ Reg.cadFeedPos n := by
  unfold Reg.cadFeedCtrl Reg.cadFeedPos
  omega

theorem cadFeedShape_ne_cadFeedPos (n : Nat) : Reg.cadFeedShape n ≠ Reg.cadFeedPos n := by
  unfold Reg.cadFeedShape Reg.cadFeedPos
  omega

theorem State.rdBit_eq_false {f : RF} (h : s.rd f = 0) : s.rdBit f = false := by rw [State.rdBit, h]; rfl

/-! ## ENABLE of a feed (R287) -/

section
variable {feed : Nat}

/-- A feed is HELD for a recovery in progress only (R294). -/
theorem State.holdFeed_of_no_recovery (f : Nat) (h : s.recoveries = []) : s.holdFeed f = s := by
  unfold State.holdFeed
  rw [h]
  exact if_neg fun hn => Bool.false_ne_true hn.2

/-- The state in which a feed is enabled at FIRST, before a recovery in progress holds it. -/
def State.feedEnabled (s : State) (feed : Nat) : State :=
  let u := (s.wr (.cadFeedCtrlEnable feed) 1).wr (.cadFeedCtrlState feed) 1
  let u := (u.wr (.cadFeedShapeNextFetch feed) (s.rd (.cadFeedPosFirst feed))).wr (.cadFeedPosMinReleased feed)
    (s.rd (.cadFeedPosFirst feed))
  u.modFeed feed (fun _ => Feed.reset)

theorem exec_cadFeedEnable_accepted (hf : feed < 64) (hb : s.barShut false = false) (he : s.rd (.cadFeedCtrlEnable feed) = 0)
    (hr : s.feedRefusal feed = none) : exec (.cadFeedEnable feed) s = .next ((s.feedEnabled feed).holdFeed feed) := by
  show execCadFeedEnable feed s = _
  unfold execCadFeedEnable
  rw [if_neg (ne_true_of_eq_false hb), if_neg (by simp [State.rdBit_eq_false he, hf])]
  dsimp only
  rw [hr]
  rfl

theorem exec_cadFeedEnable_refused {r : Nat} (hf : feed < 64) (hb : s.barShut false = false) (he : s.rd (.cadFeedCtrlEnable feed) = 0)
    (hr : s.feedRefusal feed = some r) : exec (.cadFeedEnable feed) s =
      .next (s.raise .xfrFeedInvalid unitReferee (s.rd (.cadFeedCtrlPartition feed)) (payload [(16, 1, r), (17, 1, feed)])) := by
  show execCadFeedEnable feed s = _
  unfold execCadFeedEnable
  rw [if_neg (ne_true_of_eq_false hb), if_neg (by simp [State.rdBit_eq_false he, hf])]
  dsimp only
  rw [hr]

theorem State.recoveries_feedEnabled (s : State) (feed : Nat) : (s.feedEnabled feed).recoveries = s.recoveries := by
  rw [State.feedEnabled, State.recoveries_modFeed, State.recoveries_wr, State.recoveries_wr, State.recoveries_wr, State.recoveries_wr]

theorem State.feed_feedEnabled : (s.feedEnabled feed).feed feed = Feed.reset := by
  rw [State.feedEnabled, State.feed_modFeed_self]

/-- An enabled feed is RUNNING. -/
theorem State.ctrl_feedEnabled : (s.feedEnabled feed).rd (.cadFeedCtrlEnable feed) = 1 ∧
    (s.feedEnabled feed).rd (.cadFeedCtrlState feed) = 1 := by
  unfold State.feedEnabled
  dsimp only
  rw [State.rd_modFeed, State.rd_modFeed,
    State.rd_wr_ne _ (.cadFeedPosMinReleased feed) (.cadFeedCtrlEnable feed) _ (.inl (cadFeedCtrl_ne_cadFeedPos _).symm),
    State.rd_wr_ne _ (.cadFeedPosMinReleased feed) (.cadFeedCtrlState feed) _ (.inl (cadFeedCtrl_ne_cadFeedPos _).symm),
    State.rd_wr_ne _ (.cadFeedShapeNextFetch feed) (.cadFeedCtrlEnable feed) _ (.inl (cadFeedCtrl_ne_cadFeedShape _).symm),
    State.rd_wr_ne _ (.cadFeedShapeNextFetch feed) (.cadFeedCtrlState feed) _ (.inl (cadFeedCtrl_ne_cadFeedShape _).symm),
    State.rd_wr_ne _ (.cadFeedCtrlState feed) (.cadFeedCtrlEnable feed) _ (.inr (of_decide_eq_true rfl))]
  exact ⟨State.rd_wr_self _ _ _ (of_decide_eq_true rfl), State.rd_wr_self _ _ _ (of_decide_eq_true rfl)⟩

/-- An enabled feed stands at FIRST with nothing released. -/
theorem State.pos_feedEnabled : (s.feedEnabled feed).rd (.cadFeedShapeNextFetch feed) = s.rd (.cadFeedPosFirst feed) ∧
    (s.feedEnabled feed).rd (.cadFeedPosMinReleased feed) = s.rd (.cadFeedPosFirst feed) := by
  have hfirst : s.rd (.cadFeedPosFirst feed) % 2 ^ 32 = s.rd (.cadFeedPosFirst feed) := Nat.mod_eq_of_lt (s.rd_lt _)
  unfold State.feedEnabled
  dsimp only
  rw [State.rd_modFeed, State.rd_modFeed,
    State.rd_wr_ne _ (.cadFeedPosMinReleased feed) (.cadFeedShapeNextFetch feed) _ (.inl (cadFeedShape_ne_cadFeedPos _).symm)]
  exact ⟨(State.rd_wr_self _ _ _ (of_decide_eq_true rfl)).trans hfirst, (State.rd_wr_self _ _ _ (of_decide_eq_true rfl)).trans hfirst⟩

/-! ## The start of a layer (R288, R289) -/

/-- A feed with a layer added to those that its window of `w` layers still holds. -/
def Feed.addLayer (x : Feed) (w : Nat) (l : Layer) : Feed :=
  { x with layers := x.layers.filter (fun y => decide (seqDist y.q l.q < w)) ++ [l] }

/-- The state in which a feed has added its next layer, of which the pieces `l` are waited for, and NEXT_FETCH has advanced. -/
def State.layerAdded (s : State) (feed : Nat) (l : List Nat) : State :=
  (s.modFeed feed (fun x => x.addLayer (s.rd (.cadFeedShapeW feed)) ⟨s.rd (.cadFeedShapeNextFetch feed), l, none⟩)).wr
    (.cadFeedShapeNextFetch feed) ((s.rd (.cadFeedShapeNextFetch feed) + 1) % 2 ^ 32)

theorem State.nextFetch_layerAdded (l : List Nat) : (s.layerAdded feed l).rd (.cadFeedShapeNextFetch feed) =
    (s.rd (.cadFeedShapeNextFetch feed) + 1) % 2 ^ 32 :=
  (State.rd_wr_self _ (.cadFeedShapeNextFetch feed) _ (of_decide_eq_true rfl)).trans (Nat.mod_mod _ _)

theorem State.layers_layerAdded (l : List Nat) : ((s.layerAdded feed l).feed feed).layers = (s.feed feed).layers.filter
    (fun y => decide (seqDist y.q (s.rd (.cadFeedShapeNextFetch feed)) < s.rd (.cadFeedShapeW feed))) ++
      [⟨s.rd (.cadFeedShapeNextFetch feed), l, none⟩] := by
  rw [State.layerAdded, State.feed_wr, State.feed_modFeed_self, Feed.addLayer]

theorem exec_caddieLayerStart_admitted {q n : Nat} (hf : feed < 64) (he : s.rdBit (.cadFeedCtrlEnable feed) = true)
    (hp : s.rdBit (.cadFeedCtrlPause feed) = false) (hs : s.rd (.cadFeedCtrlState feed) = 1 ∨ s.rd (.cadFeedCtrlState feed) = 2)
    (hq : q = s.rd (.cadFeedShapeNextFetch feed)) (hn : n = s.pieceCount feed q) (hm : s.layerMayStart feed q = true) {u : State}
    (hu : u = ((s.layerAdded feed (List.range n)).startPieces feed q (List.range n)).holdFeed feed) :
    exec (.caddieLayerStart feed) s = .next (if n = 0 then (u.count (Reg.cadCnt 0) 1).addStarve feed else u) := by
  subst hq hn hu
  have hstart : ¬(feed ≥ 64 ∨ s.rdBit (.cadFeedCtrlEnable feed) = false ∨ s.rdBit (.cadFeedCtrlPause feed) = true ∨
      (s.rd (.cadFeedCtrlState feed) ≠ 1 ∧ s.rd (.cadFeedCtrlState feed) ≠ 2) ∨
        s.layerMayStart feed (s.rd (.cadFeedShapeNextFetch feed)) = false) := by
    rw [he, hp, hm]
    simp only [reduceCtorEq, false_or, or_false]
    omega
  show execCaddieLayerStart feed s = _
  unfold execCaddieLayerStart
  dsimp only
  rw [if_neg hstart]
  rfl

end

theorem State.startPieces_nil (s : State) (f q : Nat) : s.startPieces f q [] = s := rfl

/-- A layer without pieces is delivered at its start. -/
theorem exec_caddieLayerStart_starts {feed q n : Nat} (hf : feed < 64) (he : s.rdBit (.cadFeedCtrlEnable feed) = true)
    (hp : s.rdBit (.cadFeedCtrlPause feed) = false) (hs : s.rd (.cadFeedCtrlState feed) = 1 ∨ s.rd (.cadFeedCtrlState feed) = 2)
    (hq : q = s.rd (.cadFeedShapeNextFetch feed)) (hn : n = s.pieceCount feed q) (hm : s.layerMayStart feed q = true) :
    ∃ t u : State, exec (.caddieLayerStart feed) s = .next t ∧ u.rd (.cadFeedShapeNextFetch feed) = (q + 1) % 2 ^ 32 ∧
      (u.feed feed).layers = (s.feed feed).layers.filter (fun y => decide (seqDist y.q q < s.rd (.cadFeedShapeW feed))) ++
        [⟨q, List.range n, none⟩] ∧
      (n ≠ 0 → t = (u.startPieces feed q (List.range n)).holdFeed feed) ∧
      (n = 0 → t = ((u.holdFeed feed).count (Reg.cadCnt 0) 1).addStarve feed) := by
  refine ⟨_, s.layerAdded feed (List.range n), exec_caddieLayerStart_admitted hf he hp hs hq hn hm rfl,
    by rw [State.nextFetch_layerAdded, hq], by rw [State.layers_layerAdded, hq], fun h0 => if_neg h0, fun h0 => ?_⟩
  have hnone : List.range n = [] := by rw [h0, List.range_zero]
  rw [if_pos h0, hnone, State.startPieces_nil]

/-! ## The end of a piece (R290) -/

/-- A piece that has ended waits to be closed. -/
theorem State.endXfer_piece {x : Xfer} {f q j : Nat} (code : Nat) (ha : x.agent = .piece f q j) : s.endXfer x code =
    s.modChan (Agent.piece f q j).key (fun k => { k with xfer := none, ended := some (code, x) }) := by
  rw [State.endXfer, ha]

theorem exec_caddiePieceDone_ended {feed layer piece key : Nat} {x y : Xfer} (hk : key = (Agent.piece feed layer piece).key)
    (hx : (s.chan key).xfer = some x) {v u : State} (hv : v = (s.runXfer key [] (xfCount x.desc)).completeXfer key 0)
    (he : (v.chan key).ended = some (0, y)) (hu : u = (v.modChan key (fun k => { k with ended := none })).pieceOver feed layer piece) :
    exec (.caddiePieceDone feed layer piece ⟨[], 0⟩) s =
      .next (if (u.feed feed).layers.any (fun l => decide (l.q = layer ∧ l.waiting = [] ∧ l.failed = none)) then
        (u.count (Reg.cadCnt 0) 1).addStarve feed else u.addStarve feed) := by
  subst hk hu
  show execCaddiePieceDone feed layer piece ⟨[], 0⟩ s = _
  unfold execCaddiePieceDone
  dsimp only
  rw [hx]
  dsimp only
  rw [← hv, he]
  dsimp only
  rw [if_neg (not_not_intro rfl), apply_ite Host.Outcome.next]

theorem exec_caddiePieceDone_delivers {feed layer piece key : Nat} {x : Xfer} (hk : key = (Agent.piece feed layer piece).key)
    (hx : (s.chan key).xfer = some x) (ha : x.agent = .piece feed layer piece) (hf : x.failed = none) (hm : x.moved = xfCount x.desc)
    (hq : s.openReqs x true = []) (hr : s.rdBit .dmaModeReadback = false) :
    ∃ t u : State, exec (.caddiePieceDone feed layer piece ⟨[], 0⟩) s = .next t ∧
      (u.chan key).xfer = none ∧ (u.chan key).ended = none ∧
      (u.feed feed).layers = (s.feed feed).layers.map (fun l =>
        if l.q = layer then { l with waiting := l.waiting.filter (fun i => !(decide (i = piece))) } else l) ∧
      t = (if (u.feed feed).layers.any (fun l => decide (l.q = layer ∧ l.waiting = [] ∧ l.failed = none)) then
        (u.count (Reg.cadCnt 0) 1).addStarve feed else u.addStarve feed) := by
  have hheld : ((s.modChan key (fun k => { k with xfer := some x })).chan key).xfer = some x := by rw [State.chan_modChan_self]
  have hrun : (s.runXfer key [] (xfCount x.desc)).completeXfer key 0 =
      (s.modChan key (fun k => { k with xfer := some x })).modChan key (fun k => { k with xfer := none, ended := some (0, x) }) := by
    rw [State.runXfer_still hx hf (.inr (Nat.le_of_eq hm.symm))]
    subst hk
    exact (State.completeXfer_over hheld hf hm (.inr hq) hr).trans (State.endXfer_piece 0 ha)
  refine ⟨_, _, exec_caddiePieceDone_ended hk hx hrun.symm (by rw [State.chan_modChan_self]) rfl, ?_, ?_, ?_, rfl⟩
  · rw [State.pieceOver, State.chan_modFeed, State.chan_modChan_self, State.chan_modChan_self]
  · rw [State.pieceOver, State.chan_modFeed, State.chan_modChan_self]
  · rw [State.pieceOver, State.feed_modFeed_self, State.feed_modChan, State.feed_modChan, State.feed_modChan]

/-! ## Recoveries (R293, R295, R296) -/

section
variable {object : Nat} {r : Recovery}

/-- The state in which a recovery has succeeded at a step, before what it held goes on. -/
def State.recovered (s : State) (r : Recovery) (x : FlashObj) (step : Nat) : State :=
  let u := ((s.setObject r.object x).raise .xfrWeightRecovered unitReferee r.part (payload [(16, 4, r.object), (20, 1, step)])).count
    (Reg.cadCnt 4) 1
  if r.asked then u.wr (.cadPSupplyRequest r.part) 0 else u

theorem State.mem_events_recovered (s : State) (r : Recovery) (x : FlashObj) (step : Nat) :
    ∃ e ∈ (s.recovered r x step).events, e.code = Code.xfrWeightRecovered.val ∧ e.part = r.part ∧
      e.payload = payload [(16, 4, r.object), (20, 1, step)] := by
  have hevents (v : State) : (if r.asked then v.wr (.cadPSupplyRequest r.part) 0 else v).events = v.events := by
    split
    · rw [State.events_wr]
    · rfl
  unfold State.recovered
  dsimp only
  rw [hevents]
  exact ⟨_, State.mem_events_count _ _ _ (List.mem_append_right _ (List.mem_singleton_self _)), rfl, rfl, rfl⟩

/-- Step 1 ends where the units of the object read well again. -/
theorem exec_recoveryStepDone_readable {x : FlashObj} (hr : s.recovery object = some r) (h1 : r.step = 1)
    (hx : s.object object = some x) (hl : s.lostUnits object = []) : exec (.recoveryStepDone object) s =
      .next (if mendedOk x r.units then (s.recovered r x 1).releaseHold r.object r.part else s.nextStep r 0) := by
  show execRecoveryStepDone object s = _
  unfold execRecoveryStepDone
  rw [hr]
  dsimp only
  rw [if_pos h1, if_pos hl, hx]
  rfl

/-- The state in which DTIME has reached the deadline of a recovery, whose replies are waited for no longer. -/
def State.deadlineReached (s : State) (r : Recovery) : State :=
  (s.setDtime (max s.dtime (r.start + s.rd (.cadPCtrlDeadlineMs r.part) * 1000000))).setReqs
    (s.reqs.filter (fun q => !(decide (q.agent = Agent.alternate r.object))))

theorem State.object_of_recovery (hr : s.recovery object = some r) : r.object = object := by
  unfold State.recovery at hr
  have hobject := List.find?_some hr
  exact of_decide_eq_true hobject

theorem exec_recoveryDeadline_unsupplied (hr : s.recovery object = some r) (hs : r.supplied = false) :
    exec (.recoveryDeadline object) s = .next (((s.deadlineReached r).recoveryFailed r).askNext r.part) := by
  obtain rfl := State.object_of_recovery hr
  show execRecoveryDeadline r.object s = _
  unfold execRecoveryDeadline
  rw [hr]
  dsimp only
  rw [if_neg (ne_true_of_eq_false hs)]
  rfl

theorem State.dtime_deadlineReached (s : State) (r : Recovery) : (s.deadlineReached r).dtime =
    max s.dtime (r.start + s.rd (.cadPCtrlDeadlineMs r.part) * 1000000) := by
  rw [State.deadlineReached, State.dtime_setReqs, State.dtime_setDtime]

theorem State.recoveries_deadlineReached (s : State) (r : Recovery) : (s.deadlineReached r).recoveries = s.recoveries := by
  rw [State.deadlineReached, State.recoveries_setReqs, State.recoveries_setDtime]

theorem State.agent_deadlineReached {q : Req} (hq : q ∈ (s.deadlineReached r).reqs) : q.agent ≠ .alternate r.object := by
  rw [State.deadlineReached, State.reqs_setReqs] at hq
  simpa using (List.mem_filter.1 hq).2

section
variable {p : Nat} (hb : s.barShut false = false) (hr : s.recoveries.find? (fun r => decide (r.part = p) && r.asked && !r.supplied) = some r)
  (hq : s.rd (.cadPSupplyRequest p) = 1)
include hb hr hq

theorem exec_cadSupplyGo_asked : exec (.cadSupplyGo p) s =
    .next ((s.wr (.cadPSupplyRequest p) 0).setRecovery { r with supplied := true }) := by
  show execCadSupplyGo p s = _
  unfold execCadSupplyGo
  rw [if_neg (ne_true_of_eq_false hb), hr]
  exact if_pos (State.rdBit_eq_true hq)

theorem exec_cadSupplyDecline_asked : exec (.cadSupplyDecline p) s = .next ((s.recoveryFailed r).askNext p) := by
  show execCadSupplyDecline p s = _
  unfold execCadSupplyDecline
  rw [if_neg (ne_true_of_eq_false hb), hr]
  exact if_pos (State.rdBit_eq_true hq)

end

end

end

/-- Settles O35: a feed's rows change its registers and its layers apart, and a recovery's row ends with what it held going on. -/
theorem feedsLayersAndRecoveries : Obligations.FeedsLayersAndRecoveries := by
  intro s
  refine ⟨fun feed hf hb he => ⟨fun hr hnone => ?_, fun r hr => ?_⟩, fun feed hf he hp hs => ?_,
    fun feed layer piece x hx ha hf hm hq hr => exec_caddiePieceDone_delivers rfl hx ha hf hm hq hr, fun object r x hr h1 hx hl => ?_,
    fun object r hr hs => ?_, fun p r hb hr hq => ⟨?_, exec_cadSupplyDecline_asked hb hr hq⟩⟩
  · obtain ⟨henable, hstate⟩ := s.ctrl_feedEnabled (feed := feed)
    obtain ⟨hnext, hreleased⟩ := s.pos_feedEnabled (feed := feed)
    have hheld : (s.feedEnabled feed).holdFeed feed = s.feedEnabled feed :=
      State.holdFeed_of_no_recovery feed (by rw [State.recoveries_feedEnabled, hnone])
    exact ⟨_, (exec_cadFeedEnable_accepted hf hb he hr).trans (congrArg _ hheld), henable, hstate, hnext, hreleased,
      State.feed_feedEnabled⟩
  · exact ⟨_, exec_cadFeedEnable_refused hf hb he hr, (State.rd_raise ..).trans he, _,
      List.mem_append_right _ (List.mem_singleton_self _), rfl, rfl, rfl⟩
  · exact exec_caddieLayerStart_starts hf he hp hs rfl rfl
  · have hexec := exec_recoveryStepDone_readable hr h1 hx hl
    refine ⟨fun hok => ⟨_, s.recovered r x 1, hexec, if_pos hok, s.mem_events_recovered r x 1⟩, fun hok => ?_⟩
    rw [hexec, if_neg (ne_true_of_eq_false hok)]
  · obtain rfl := State.object_of_recovery hr
    exact ⟨_, s.deadlineReached r, exec_recoveryDeadline_unsupplied hr hs, rfl, s.dtime_deadlineReached r,
      s.recoveries_deadlineReached r, fun q => State.agent_deadlineReached⟩
  · refine ⟨_, exec_cadSupplyGo_asked hb hr hq, ?_, ?_⟩
    · rw [State.setRecovery, State.rd_setRecoveries]
      exact s.rd_wr_self (.cadPSupplyRequest p) 0 (of_decide_eq_true rfl)
    · rw [State.setRecovery, State.recoveries_setRecoveries, State.recoveries_wr]

end Sys2Proof.Machine

/-!
PROOFS. Ports in Ethernet mode and program reductions (chapter 13): frames received and sent through descriptor rings; the ring of a
partition's reductions, from its doorbell to the end of its entry (O46).
-/
namespace Sys2Proof.Machine

section
variable {s : State}

/-! ## Receiving frames (R339, R340) -/

/-- What the last descriptor of a frame says of its checksums: good, bad, or nothing. -/
def checksumFlags (frame : List (BitVec 8)) : Nat :=
  match checksumGood frame with
  | some true => 2
  | some false => 4
  | none => 0

section
variable {n : Nat} {frame : List (BitVec 8)}

theorem exec_ethFrameReceive_bad {ok : Bool} (hu : s.ethUp n = true)
    (hb : ok = false ∨ frame.length + 4 < 64 ∨ frame.length + 4 > 9216) :
    exec (.ethFrameReceive n frame ok) s = .next (s.count (Reg.lnkPortCnt n 3) 1) := by
  show execEthFrameReceive n frame ok s = _
  unfold execEthFrameReceive
  dsimp only
  rw [if_neg (by simp [hu]), if_pos hb]

section
variable {h r : Nat} (hu : s.ethUp n = true) (hlo : 60 ≤ frame.length) (hhi : frame.length ≤ 9212) (hp : isPfc frame = false)
  (hh : h = s.rssHash n frame) (hr : r = 8 + s.rssRing n h) {x : State × RxFind}
  (hx : x = s.rxBuffers n r 16384 (s.rd (.lnkEthRingBHead n r)) frame.length)
include hu hlo hhi hp hh hr hx

theorem exec_ethFrameReceive_short (hf : x.2 = .short) : exec (.ethFrameReceive n frame true) s =
    .next ((x.1.count (Reg.lnkPortCnt n 3) 1).pauseClass n r (fClass frame)) := by
  subst hh hr hx
  show execEthFrameReceive n frame true s = _
  unfold execEthFrameReceive
  dsimp only
  rw [if_neg (by simp [hu]), if_neg (not_or.2 ⟨nofun, by omega⟩), if_neg (ne_true_of_eq_false hp), hf]

theorem exec_ethFrameReceive_found {l : List (Nat × Nat)} (hf : x.2 = .found l) {t : State}
    (ht : t = x.1.rxDeliver n r h (checksumFlags frame) l frame) :
    exec (.ethFrameReceive n frame true) s =
      .next (if t.rd (.lnkEthRingBHead n r) = t.rd (.lnkEthRingBTail n r) then t.pauseClass n r (fClass frame) else t) := by
  subst hh hr hx ht
  show execEthFrameReceive n frame true s = _
  unfold execEthFrameReceive
  dsimp only
  rw [if_neg (by simp [hu]), if_neg (not_or.2 ⟨nofun, by omega⟩), if_neg (ne_true_of_eq_false hp), hf]
  rfl

end

/-- The search for buffers and the drop leave memory as it is. -/
theorem State.mem_rxBuffers_dropped (s : State) (n r f i len : Nat) :
    ((s.rxBuffers n r f i len).1.count (Reg.lnkPortCnt n 3) 1).mem = s.mem :=
  (State.mem_count ..).trans ((State.rxBuffers_touches _ _ _ _ _ _ (.refl _) (.refl s)).fst.1 .mem rfl)

theorem State.mem_pauseClass (s : State) (n r c : Nat) : (s.pauseClass n r c).mem = s.mem :=
  (State.pauseClass_touches s n r c (.refl _) (.refl s)).1 .mem rfl

theorem State.regs_pauseClass (s : State) (n r c : Nat) : (s.pauseClass n r c).regs = s.regs :=
  (State.pauseClass_touches s n r c (.refl _) (.refl s)).1 .regs rfl

theorem State.paused_pauseClass (s : State) (n r c : Nat) : pauseKey r c ∈ ((s.pauseClass n r c).port n).paused := by
  rw [State.pauseClass, State.sendPause, State.port_setOut, State.port_modPort_self]
  exact List.mem_append_right _ (List.mem_singleton_self _)

end

/-! ## Sending frames (R340) -/

/-- The state in which the frame of the descriptors `ds` has gone out, with its checksums where they are asked; one that could not be
read, or has a bad size, is counted. -/
def State.frameSent (s : State) (n : Nat) (ds : List Nat) : State :=
  let r := s.txRead n ds
  let f := r.2.getD []
  let f := if bitAt (ds.headD 0) 81 then insertChecksums f else f
  if r.2.isSome ∧ 64 ≤ f.length + 4 ∧ f.length + 4 ≤ 9216 then r.1.setOut (r.1.out ++ [Output.frame n (natOfBytes f) f.length])
  else r.1.count (Reg.lnkPortCnt n 3) 1

theorem State.out_frameSent {n : Nat} {ds : List Nat} {f g : List (BitVec 8)} (hf : (s.txRead n ds).2 = some f)
    (hg : g = if bitAt (ds.headD 0) 81 then insertChecksums f else f) (hlo : 64 ≤ g.length + 4) (hhi : g.length + 4 ≤ 9216) :
    (s.frameSent n ds).out = (s.txRead n ds).1.out ++ [.frame n (natOfBytes g) g.length] := by
  unfold State.frameSent
  dsimp only
  rw [hf, Option.getD_some, ← hg, if_pos ⟨rfl, hlo, hhi⟩, State.out_setOut]

theorem exec_ethTransmitDone_posted {n r : Nat} {ds : List Nat} (hu : s.ethUp n = true) (hr : r < 8) {x : State × Option (List Nat)}
    (hx : x = s.txDescs n r 16384 (s.rd (.lnkEthRingBHead n r))) (hd : x.2 = some ds)
    (hp : Sparse.get 0 x.1.pfc (pfcKey n (bitsAt (ds.headD 0) 83 3)) ≤ x.1.dtime) : exec (.ethTransmitDone n r) s =
      .next (ds.foldl (fun (s : State) d => s.ethBack n r (if bitAt d 82 then s.dtime else bytesAt d 0 8) (bytesAt d 8 2)
        (128 + flag (bitAt d 80)) 0) (x.1.frameSent n ds)) := by
  subst hx
  show execEthTransmitDone n r s = _
  unfold execEthTransmitDone
  dsimp only
  rw [if_neg (by simp [hu, hr]), hd]
  dsimp only
  rw [if_neg (Nat.not_lt.2 hp)]
  rfl

/-! ## TAIL of an Ethernet ring (R285) -/

section
variable {n r tail : Nat}

theorem exec_ethRingTail_open (hb : s.barShut true = false) :
    exec (.ethRingTail true n r tail) s = .next (s.ethTail true n r tail) :=
  if_neg (ne_true_of_eq_false hb)

theorem State.rd_ethTail_taken (hn : n < 18) (hr : r < 16) (hf : tailBad (s.rd (.lnkEthRingBTail n r)) (tail % 2 ^ 32)
    (s.rd (.lnkEthRingBHead n r)) (s.rd (.lnkEthRingAL n r)) = false) :
    (s.ethTail true n r tail).rd (.lnkEthRingBTail n r) = tail % 2 ^ 32 := by
  have hwr : (s.wr (.lnkEthRingBTail n r) tail).rd (.lnkEthRingBTail n r) = tail % 2 ^ 32 :=
    s.rd_wr_self _ _ (of_decide_eq_true rfl)
  unfold State.ethTail
  dsimp only
  rw [if_neg (Bool.noConfusion ·), if_neg (by omega), if_neg (ne_true_of_eq_false hf)]
  split
  · exact hwr
  · rw [State.rd_congr ((State.resumeRing_touches _ n r (.refl _) (.refl _)).1 .regs rfl), hwr]

theorem State.ethTail_overrun (hn : n < 18) (hr : r < 16) (hf : tailBad (s.rd (.lnkEthRingBTail n r)) (tail % 2 ^ 32)
    (s.rd (.lnkEthRingBHead n r)) (s.rd (.lnkEthRingAL n r)) = true) : s.ethTail true n r tail =
      s.raise .xfrRingOverrun (unitPort n 63) (s.ethWho n).partField
        (payload [(16, 1, r), (20, 4, tail), (24, 4, s.rd (.lnkEthRingBHead n r))]) := by
  unfold State.ethTail
  dsimp only
  rw [if_neg (Bool.noConfusion ·), if_neg (by omega), if_pos hf]

end

/-! ## The registers of a partition's reductions (R285, R343, R348) -/

section
variable {p : Nat}

theorem exec_redDoorbell_open (hb : s.barShut true = false) (tail : Nat) :
    exec (.redDoorbell true p tail) s = .next (s.redDoorbell true p tail) :=
  if_neg (ne_true_of_eq_false hb)

theorem State.redDoorbell_taken {tail : Nat} (hp : p < 16) (hf : tailBad (s.rd (.dmaChDoorTail (redRingBase p))) (tail % 2 ^ 32)
    (s.rd (.dmaChDoorHead (redRingBase p))) (s.rd (.dmaChRingL (redRingBase p))) = false) :
    s.redDoorbell true p tail = s.wr (.dmaChDoorTail (redRingBase p)) tail := by
  unfold State.redDoorbell
  dsimp only
  rw [if_neg (Bool.noConfusion ·), if_neg (by omega), if_neg (ne_true_of_eq_false hf)]

theorem State.redDoorbell_overrun {tail : Nat} (hp : p < 16) (hf : tailBad (s.rd (.dmaChDoorTail (redRingBase p))) (tail % 2 ^ 32)
    (s.rd (.dmaChDoorHead (redRingBase p))) (s.rd (.dmaChRingL (redRingBase p))) = true) : s.redDoorbell true p tail =
      s.raise .xfrRingOverrun unitLink p
        (payload [(16, 1, p), (20, 4, tail), (24, 4, s.rd (.dmaChDoorHead (redRingBase p)))]) := by
  unfold State.redDoorbell
  dsimp only
  rw [if_neg (Bool.noConfusion ·), if_neg (by omega), if_pos hf]

theorem exec_redRestart_open (hb : s.barShut true = false) (hp : p < 16) :
    exec (.redRestart true p) s = .next (s.wr (.redPGroupStopped p) 0) := by
  show execRedRestart true p s = _
  rw [execRedRestart, if_neg (ne_true_of_eq_false hb), State.redRestart, if_neg (Bool.noConfusion ·), if_pos hp]

theorem exec_redGroupWrite_open (hb : s.barShut true = false) (v : Nat) :
    exec (.redGroupWrite true p v) s = .next (s.groupWrite true p v) :=
  if_neg (ne_true_of_eq_false hb)

/-- GROUP_ID stands below the other fields of its register. -/
theorem State.rd_groupId_wr (s : State) (p v : Nat) {f : RF} (hf : 32 ≤ f.lo) :
    (s.wr f v).rd (.redPGroupGroupId p) = s.rd (.redPGroupGroupId p) :=
  s.rd_wr_ne f _ v (.inr ⟨.inl hf, of_decide_eq_true rfl⟩)

theorem State.rd_groupId_bindGroup (s : State) (p : Nat) (v : GView) :
    (s.bindGroup p v).rd (.redPGroupGroupId p) = s.rd (.redPGroupGroupId p) := by
  rw [State.bindGroup, State.rd_groupId_wr _ _ _ (of_decide_eq_true rfl), State.rd_groupId_wr _ _ _ (of_decide_eq_true rfl),
    State.rd_groupId_wr _ _ _ (of_decide_eq_true rfl), State.rd_groupId_wr _ _ _ (of_decide_eq_true rfl)]

/-- A reduction that fails changes only the counter of failures among the registers. -/
theorem State.rd_failRed (s : State) (r : Red) (reason : Nat) {f : RF} (h : Reg.redCnt 1 ≠ f.reg) :
    (s.failRed r reason).rd f = s.rd f := by
  rw [State.failRed, State.rd_count_ne _ 1 h, State.rd_raise, State.setRed, State.rd_setReds, State.dropRed, State.rd_setReds]

theorem redCnt_ne_redPGroup (p : Nat) : Reg.redCnt 1 ≠ Reg.redPGroup p := by
  unfold Reg.redCnt Reg.redPGroup
  omega

theorem State.rd_groupWrite (hp : p < 16) (v : Nat) : (s.groupWrite true p v).rd (.redPGroupGroupId p) = bitsAt v 0 32 := by
  have hwr : (s.wr (.redPGroupGroupId p) (bitsAt v 0 32)).rd (.redPGroupGroupId p) = bitsAt v 0 32 :=
    (s.rd_wr_self _ _ (of_decide_eq_true rfl)).trans (Nat.mod_eq_of_lt (bitsAt_lt v 0 32))
  unfold State.groupWrite
  dsimp only
  rw [if_neg (Bool.noConfusion ·), if_neg (by omega)]
  generalize hu : (s.wr (.redPGroupGroupId p) (bitsAt v 0 32)).setRedSeq _ = u
  have hgroup : u.rd (.redPGroupGroupId p) = bitsAt v 0 32 := by rw [← hu, State.rd_setRedSeq, hwr]
  generalize hw : (List.range 3).foldl _ u = w
  have hover : w.rd (.redPGroupGroupId p) = bitsAt v 0 32 := by
    rw [← hw]
    refine List.foldlRecOn (motive := fun w : State => w.rd (.redPGroupGroupId p) = bitsAt v 0 32) _ _ hgroup (fun w hw c _ => ?_)
    split
    · split
      · exact hw
      · rw [State.rd_failRed _ _ _ (redCnt_ne_redPGroup p), hw]
    · exact hw
  split
  · rw [State.rd_groupId_wr _ _ _ (of_decide_eq_true rfl), State.rd_groupId_wr _ _ _ (of_decide_eq_true rfl),
      State.rd_groupId_wr _ _ _ (of_decide_eq_true rfl), State.rd_groupId_wr _ _ _ (of_decide_eq_true rfl), hover]
  · rw [State.rd_groupId_bindGroup, hover]

end

/-! ## The entries of a reduction ring (R348) -/

section
variable {p : Nat}

theorem State.redRing_congr {t : State} (h : t.redRings = s.redRings) (p : Nat) : t.redRing p = s.redRing p := by
  rw [State.redRing, h]
  rfl

theorem State.redRing_redEntryFail (s : State) (p code : Nat) :
    (s.redEntryFail p code).redRing p = { s.redRing p with failed := some code } := s.redRing_modRedRing_self p _

theorem State.redRing_redInvalid (s : State) (p i : Nat) :
    (s.redInvalid p i).redRing p = { s.redRing p with failed := some Code.lnkRedInvalid.val } := by
  rw [State.redInvalid, State.redRing_redEntryFail, State.redRing_raise]

/-- However its checks end, the ring holds the entry that it has taken. -/
theorem State.redRing_redTake (s : State) (p : Nat) :
    ((s.redTake p).redRing p).entry =
        some (s.memNat (s.ringEntry (redRingBase p) (s.rd (.dmaChDoorHead (redRingBase p)))) 64) ∧
      ((s.redTake p).redRing p).index = s.rd (.dmaChDoorHead (redRingBase p)) := by
  unfold State.redTake
  dsimp only
  generalize hu : State.modRedRing _ p _ = u
  have htaken : u.redRing p = ⟨some (s.memNat (s.ringEntry (redRingBase p) (s.rd (.dmaChDoorHead (redRingBase p)))) 64),
      s.rd (.dmaChDoorHead (redRingBase p)), false, none⟩ := by
    rw [← hu, State.redRing_modRedRing_self, State.memNat_wr]
  split
  · rw [State.redRing_redEntryFail, State.redRing_congr ((State.refuseAccess_touches _ _ _ _ _ _ _ (.refl _) (.refl u)).1 .redRings rfl),
      htaken]
    exact ⟨rfl, rfl⟩
  · split
    · rw [State.redRing_redInvalid, htaken]
      exact ⟨rfl, rfl⟩
    · split
      · rw [State.redRing_congr ((State.waitFrom_touches _ _ _ _ _ (.refl _) (.refl _)).1 .redRings rfl), State.redRing_setHeadWait,
          htaken]
        exact ⟨rfl, rfl⟩
      · rw [htaken]
        exact ⟨rfl, rfl⟩

theorem exec_redEntry_waits (hp : p < 16) (he : (s.redRing p).entry = none) (hs : s.rd (.redPGroupStopped p) = 0)
    (hm : s.rd (.dmaChDoorHead (redRingBase p)) ≠ s.rd (.dmaChDoorTail (redRingBase p)))
    (hw : (s.redTake p).headWait (ringKey p) = .waiting) : exec (.redEntry p) s = .next (s.redTake p) := by
  have htake : (s.redRing p).entry.isNone = true ∧ s.rdBit (.redPGroupStopped p) = false ∧
      s.rd (.dmaChDoorHead (redRingBase p)) ≠ s.rd (.dmaChDoorTail (redRingBase p)) := ⟨by rw [he]; rfl, by rw [State.rdBit, hs]; rfl, hm⟩
  show execRedEntry p s = _
  unfold execRedEntry
  dsimp only
  rw [if_neg (Nat.not_le.2 hp), if_pos htake, (s.redRing_redTake p).1, hw]

section
variable {w : Nat} (he : (s.redRing p).entry = some w)
include he

theorem exec_redEntry_starts (hp : p < 16) (hw : s.headWait (ringKey p) = .none) (hs : (s.redRing p).started = false)
    (hf : (s.redRing p).failed = none) : exec (.redEntry p) s = .next ((s.setHeadWait (ringKey p) .none).redStart p w) := by
  show execRedEntry p s = _
  unfold execRedEntry
  dsimp only
  rw [if_neg (Nat.not_le.2 hp), if_neg (by simp [he]), he, hw]
  dsimp only
  rw [if_neg (by simp [hs, hf])]

theorem exec_redEntryDone_failed {code : Nat} (hf : (s.redRing p).failed = some code) :
    exec (.redEntryDone p) s = .next (s.redFinish p w (s.redRing p).index code) := by
  show execRedEntryDone p s = _
  unfold execRedEntryDone
  dsimp only
  rw [he]
  dsimp only
  rw [hf]

section
variable (hf : (s.redRing p).failed = none) (hs : (s.redRing p).started = true) {x : Red} (hx : s.red p 0 = some x)
include hf hs hx

theorem exec_redEntryDone_reduced {k : Nat} (ho : x.outcome = some k) {y : State × Nat}
    (hy : y = (s.dropRed p 0).redDeliver p w x) : exec (.redEntryDone p) s =
      .next (if k = 0 then y.1.redFinish p w (s.redRing p).index y.2
        else (s.dropRed p 0).redFinish p w (s.redRing p).index Code.lnkRedFail.val) := by
  subst hy
  show execRedEntryDone p s = _
  unfold execRedEntryDone
  dsimp only
  rw [he]
  dsimp only
  rw [hf]
  dsimp only
  rw [if_neg (by simp [hs]), hx]
  dsimp only
  rw [ho]
  cases k with
  | zero => rw [if_pos rfl]; rfl
  | succ k => rw [if_neg (Nat.succ_ne_zero k)]; rfl

end

end

/-- An entry whose descriptors and source pass starts the class PROG reduction of its source. -/
theorem State.redStart_accepted {w : Nat} (hsrc : (s.checkRange (.part p) (reSrc w) 64 false).1.code = none)
    (hdst : (s.checkRange (.part p) (reDst w) 64 false).1.code = none) (hv : s.redValid p w = true)
    (hf : s.redSourceFault p (reSrc w) = none) {v : State} (hu : v = s.modRedRing p (fun r => { r with started := true })) :
    s.redStart p w = v.startRed p 0 (if reCombine w = 0 then reCount w else 0) (v.redWords w) := by
  subst hu
  unfold State.redStart
  dsimp only
  rw [hsrc, hdst]
  dsimp only [Option.map, Option.orElse]
  rw [ifSome_none, if_neg (by simp [hv]), hf]

/-! ## The end of an entry (R285, R286) -/

/-- The state in which a ring is free again and the status word of its entry is written. -/
def State.redFreed (s : State) (p i code : Nat) : State :=
  let u := s.modRedRing p (fun _ => RedRing.reset)
  let sa := u.rd (.dmaChStatbaseStatusBase (redRingBase p)) + 4 * (i % pow2 (u.rd (.dmaChRingL (redRingBase p))))
  let r := u.checkRange (.part p) sa 4 true
  match r.1.code with
  | some c => u.refuseAccess c sevFailed unitLink (.part p) r.2 true
  | none => u.storeNat sa 4 (code + i % 65536 * 65536)

theorem State.redFinish_eq (s : State) (p w i code : Nat) : s.redFinish p w i code =
    if code = 0 then (s.redFreed p i code).performSignal unitLink p i (reSignal w)
    else (s.redFreed p i code).wr (.redPGroupStopped p) 1 := rfl

theorem State.redRing_redFreed (s : State) (p i code : Nat) : (s.redFreed p i code).redRing p = RedRing.reset := by
  unfold State.redFreed
  dsimp only
  split
  · rw [State.redRing_congr ((State.refuseAccess_touches _ _ _ _ _ _ _ (.refl _) (.refl _)).1 .redRings rfl),
      State.redRing_modRedRing_self]
  · rw [State.redRing_congr ((State.storeNat_touches _ _ _ _ (.refl _) (.refl _)).1 .redRings rfl), State.redRing_modRedRing_self]

theorem State.redRing_redFinish (s : State) (p w i code : Nat) : (s.redFinish p w i code).redRing p = RedRing.reset := by
  rw [State.redFinish_eq]
  split
  · rw [State.redRing_congr ((State.performSignal_touches _ _ _ _ _ (.refl _) (.refl _)).1 .redRings rfl), State.redRing_redFreed]
  · rw [State.redRing_wr, State.redRing_redFreed]

/-- An entry that fails stops its ring. -/
theorem State.stopped_redFinish (s : State) (p w i : Nat) {code : Nat} (h : code ≠ 0) :
    (s.redFinish p w i code).rd (.redPGroupStopped p) = 1 := by
  rw [State.redFinish_eq, if_neg h]
  exact State.rd_wr_self _ _ _ (of_decide_eq_true rfl)

end

/-! ## Reductions without a result (R347) -/

theorem exec_reductionTimeout_running {p cls : Nat} {r : Red} (hr : s.red p cls = some r) (ho : r.outcome = none) :
    exec (.reductionTimeout p cls) s =
      .next ((s.setDtime (max s.dtime (r.start + 1000000 * s.rd .redCfgTimeoutMs))).failRed r 3) := by
  show execReductionTimeout p cls s = _
  unfold execReductionTimeout
  rw [hr]
  dsimp only
  rw [if_neg (by simp [ho])]

theorem State.mem_reds_failRed (s : State) (r : Red) (reason : Nat) : { r with outcome := some reason } ∈ (s.failRed r reason).reds := by
  rw [State.failRed, State.reds_count, State.reds_raise]
  exact List.mem_append_right _ (List.mem_singleton_self _)

theorem State.red_names {p cls : Nat} {r : Red} (hr : s.red p cls = some r) : r.part = p ∧ r.cls = cls := by
  unfold State.red at hr
  have hnames := List.find?_some hr
  exact of_decide_eq_true hnames

/-! ## What each row comes to -/

/-- A frame for which buffers are posted is delivered; pausing its class afterwards changes neither memory nor a register. -/
theorem exec_ethFrameReceive_delivers {n h r : Nat} {frame : List (BitVec 8)} (hu : s.ethUp n = true) (hlo : 60 ≤ frame.length)
    (hhi : frame.length ≤ 9212) (hp : isPfc frame = false) (hh : h = s.rssHash n frame) (hr : r = 8 + s.rssRing n h)
    {x : State × RxFind} (hx : x = s.rxBuffers n r 16384 (s.rd (.lnkEthRingBHead n r)) frame.length) {l : List (Nat × Nat)}
    (hf : x.2 = .found l) {u : State}
    (hd : u = x.1.rxDeliver n r h (checksumFlags frame) l frame) :
    ∃ t, exec (.ethFrameReceive n frame true) s = .next t ∧ t.mem = u.mem ∧ t.regs = u.regs := by
  refine ⟨_, exec_ethFrameReceive_found hu hlo hhi hp hh hr hx hf hd, ?_⟩
  split
  · exact ⟨State.mem_pauseClass .., State.regs_pauseClass ..⟩
  · exact ⟨rfl, rfl⟩

/-- The entry of a ring that is over: it has failed, or its reduction has, or the result is delivered. -/
theorem exec_redEntryDone_ends {p w : Nat} (he : (s.redRing p).entry = some w) :
    (∀ code, (s.redRing p).failed = some code → code ≠ 0 → ∃ t, exec (.redEntryDone p) s = .next t ∧ t.redRing p = RedRing.reset ∧
      t.rd (.redPGroupStopped p) = 1) ∧
    ((s.redRing p).failed = none → (s.redRing p).started = true → ∀ x, s.red p 0 = some x →
      (∀ k, x.outcome = some (k + 1) → ∃ t, exec (.redEntryDone p) s = .next t ∧ t.redRing p = RedRing.reset ∧
        t.rd (.redPGroupStopped p) = 1) ∧
      (x.outcome = some 0 → let y := (s.dropRed p 0).redDeliver p w x
        ∃ t, exec (.redEntryDone p) s = .next t ∧ t = y.1.redFinish p w (s.redRing p).index y.2 ∧ t.redRing p = RedRing.reset)) := by
  refine ⟨fun _ hf hc => ⟨_, exec_redEntryDone_failed he hf, State.redRing_redFinish .., State.stopped_redFinish _ _ _ _ hc⟩,
    fun hf hs _ hx => ⟨fun k ho => ?_, fun ho => ?_⟩⟩
  · have hexec := exec_redEntryDone_reduced he hf hs hx ho rfl
    rw [if_neg (Nat.succ_ne_zero k)] at hexec
    exact ⟨_, hexec, State.redRing_redFinish .., State.stopped_redFinish _ _ _ _ (by decide)⟩
  · intro y
    have hexec := exec_redEntryDone_reduced he hf hs hx ho (y := y) rfl
    rw [if_pos rfl] at hexec
    exact ⟨_, hexec, rfl, State.redRing_redFinish ..⟩

theorem exec_redEntry_runs {p w : Nat} (hp : p < 16) (he : (s.redRing p).entry = some w) (hw : s.headWait (ringKey p) = .none)
    (hs : (s.redRing p).started = false) (hf : (s.redRing p).failed = none) {u : State} (hu : u = s.setHeadWait (ringKey p) .none)
    (hsrc : (u.checkRange (.part p) (reSrc w) 64 false).1.code = none) (hdst : (u.checkRange (.part p) (reDst w) 64 false).1.code = none)
    (hv : u.redValid p w = true) (hfault : u.redSourceFault p (reSrc w) = none) :
    ∃ v t : State, exec (.redEntry p) s = .next t ∧ (v.redRing p).started = true ∧
      t = v.startRed p 0 (if reCombine w = 0 then reCount w else 0) (v.redWords w) := by
  refine ⟨_, _, exec_redEntry_starts he hp hw hs hf, ?_, hu ▸ State.redStart_accepted hsrc hdst hv hfault rfl⟩
  rw [State.redRing_modRedRing_self]

theorem exec_reductionTimeout_fails {p cls : Nat} {r : Red} (hr : s.red p cls = some r) (ho : r.outcome = none) :
    ∃ t, exec (.reductionTimeout p cls) s = .next t ∧ t.dtime ≥ r.start + 1000000 * s.rd .redCfgTimeoutMs ∧
      (∃ z ∈ t.reds, z.part = p ∧ z.cls = cls ∧ z.outcome = some 3) ∧
      ∃ e ∈ t.events, e.code = Code.lnkRedFail.val ∧ e.payload = payload [(16, 4, r.group), (20, 4, r.rseq), (24, 1, r.cls), (25, 1, 3)] := by
  obtain ⟨hpart, hcls⟩ := State.red_names hr
  refine ⟨_, exec_reductionTimeout_running hr ho, ?_, ⟨_, State.mem_reds_failRed .., hpart, hcls, rfl⟩, State.mem_events_failRed r 3⟩
  rw [(State.failRed_touches _ r 3 (.refl _) (.refl _)).1 .dtime rfl, State.dtime_setDtime]
  exact Nat.le_max_right ..

end

/-- Settles O46: a frame's rows turn on the search for its descriptors, an entry's on whether its wait and its reduction are over. -/
theorem ethernetPortsAndReductionRingsRun : Obligations.EthernetPortsAndReductionRingsRun := by
  intro s
  refine ⟨fun n frame ok hu => ?_, fun n r ds hu hr => ?_, fun hb => ⟨fun n r tail hn hr => ?_, fun p tail hp => ?_,
    fun p v hp => ⟨_, exec_redGroupWrite_open hb v, State.rd_groupWrite hp v⟩,
    fun p hp => ⟨_, exec_redRestart_open hb hp, s.rd_wr_self (.redPGroupStopped p) 0 (of_decide_eq_true rfl)⟩⟩,
    fun p hp => ⟨?_, fun w he => ⟨?_, ?_⟩⟩,
    fun p cls r hr ho => exec_reductionTimeout_fails hr ho⟩
  · intro h r x
    refine ⟨fun hbad => ⟨_, exec_ethFrameReceive_bad hu hbad, State.mem_count .., State.out_count ..⟩, fun hok hlo hhi hp =>
      ⟨fun hf => ?_, fun l hf => ?_⟩⟩
    · subst hok
      exact ⟨_, exec_ethFrameReceive_short hu hlo hhi hp rfl rfl rfl hf,
        (State.mem_pauseClass ..).trans (State.mem_rxBuffers_dropped ..), State.paused_pauseClass ..⟩
    · subst hok
      obtain ⟨t, hexec, hmem, hregs⟩ := exec_ethFrameReceive_delivers hu hlo hhi hp rfl rfl rfl hf rfl
      exact ⟨_, t, hexec, hmem, hregs, rfl⟩
  · intro x hd hp
    exact ⟨_, _, exec_ethTransmitDone_posted hu hr rfl hd hp, rfl, fun f hf hlo hhi => State.out_frameSent hf rfl hlo hhi⟩
  · refine ⟨fun hf => ⟨_, exec_ethRingTail_open hb, State.rd_ethTail_taken hn hr hf⟩, fun hf => ⟨_, exec_ethRingTail_open hb, ?_⟩⟩
    rw [State.ethTail_overrun hn hr hf]
    exact ⟨State.regs_raise .., _, List.mem_append_right _ (List.mem_singleton_self _), rfl⟩
  · refine ⟨fun hf => ⟨_, exec_redDoorbell_open hb tail, ?_⟩, fun hf => ⟨_, exec_redDoorbell_open hb tail, ?_⟩⟩
    · rw [State.redDoorbell_taken hp hf]
      exact s.rd_wr_self _ _ (of_decide_eq_true rfl)
    · rw [State.redDoorbell_overrun hp hf]
      exact ⟨State.regs_raise .., _, List.mem_append_right _ (List.mem_singleton_self _), rfl⟩
  · exact fun he hs hm => ⟨s.redRing_redTake p, exec_redEntry_waits hp he hs hm⟩
  · exact fun hw hs hf hsrc hdst hv hfault => exec_redEntry_runs hp he hw hs hf rfl hsrc hdst hv hfault
  · exact exec_redEntryDone_ends he

end Sys2Proof.Machine

/-!
PROOFS. Queues, streams, doorbells and event rings of the host interface (R303, R308, R315): O37.
-/
namespace Sys2Proof.Machine

section
variable {s : State}

/-! ## Operations on queues and streams (R308) -/

/-- The state in which an operation is judged: ENABLE reads the context first. -/
def State.qOpSeen (s : State) (op index : Nat) (stream : Bool) : State :=
  if op = 1 then s.ctxSeen (if stream then s.streamCtx index else s.queueCtx index) 64 else s

theorem State.qOpSeen_frame (op index : Nat) (stream : Bool) : Touches (fieldMask [.regs, .events]) s (s.qOpSeen op index stream) := by
  unfold State.qOpSeen
  split
  · exact State.ctxSeen_touches s _ _ (.lit rfl) (.refl s)
  · exact .refl s

theorem State.queues_qOpSeen (op index : Nat) (stream : Bool) : (s.qOpSeen op index stream).queues = s.queues :=
  (State.qOpSeen_frame op index stream).1 .queues rfl

theorem State.streams_qOpSeen (op index : Nat) (stream : Bool) : (s.qOpSeen op index stream).streams = s.streams :=
  (State.qOpSeen_frame op index stream).1 .streams rfl

variable {op index : Nat} {stream : Bool}

theorem exec_queueOperation_open {cmd : Instr} (hb : s.barShut true = false)
    (hc : (op = 1 ∧ cmd = .queueEnable true index stream) ∨ (op = 2 ∧ cmd = .queueDisable true index stream) ∨
      (op = 3 ∧ cmd = .queueRestart true index stream)) : exec cmd s = .next (s.qOp true op index stream) := by
  obtain ⟨rfl, rfl⟩ | ⟨rfl, rfl⟩ | ⟨rfl, rfl⟩ := hc
  all_goals exact if_neg (ne_true_of_eq_false hb)

theorem State.qOp_accepted (h : (s.qOpSeen op index stream).qOpRefusal op index stream = none) {u : State}
    (hu : u = (s.qOpSeen op index stream).wr .hifQStatusCode 0) : s.qOp true op index stream =
      if stream then (if op = 1 then u.modStream index (fun _ => { Stream.reset with on := true }) else u.disableStream index)
      else if op = 2 then u.disableQueue index else u.setQueueState index 1 := by
  rw [State.qOpSeen] at h hu
  unfold State.qOp
  rw [if_neg (Bool.noConfusion ·)]
  dsimp only
  rw [h, hu]

theorem State.qOp_refused {r : Nat} (h : (s.qOpSeen op index stream).qOpRefusal op index stream = some r) :
    ∃ p, s.qOp true op index stream = ((s.qOpSeen op index stream).raise .hqQueueInvalid unitPcie p
      (payload [(16, 2, index), (18, 1, r)])).wr .hifQStatusCode Code.hqQueueInvalid.val := by
  rw [State.qOpSeen] at h ⊢
  unfold State.qOp
  rw [if_neg (Bool.noConfusion ·)]
  dsimp only
  rw [h]
  exact ⟨_, rfl⟩

theorem State.queueState_setQueueState (s : State) (q v : Nat) : (s.setQueueState q v).queueState q = v := by
  have hq : (s.setQueueState q v).queues = Sparse.put 0 q v s.queues :=
    (State.ctxWrite_touches (s.setQueues _) _ _ _ (.refl _) (.refl _)).1 .queues rfl
  rw [State.queueState, hq, Sparse.get_put_self]

/-- An operation on a queue that nothing refuses leaves it DISABLED, or RUNNING. -/
theorem State.queueState_qOp (h : (s.qOpSeen op index false).qOpRefusal op index false = none) :
    (s.qOp true op index false).queueState index = if op = 2 then 0 else 1 := by
  rw [State.qOp_accepted h rfl, if_neg (Bool.noConfusion ·)]
  split <;> exact State.queueState_setQueueState ..

/-! ## Doorbells (R302, R303) -/

/-- A doorbell takes effect as `w` says, or overruns its ring, which shows in the event and the counter alone. -/
theorem exec_doorbell_overrun {cmd : Instr} {bad : Bool} {u w : State} {kind index part value other : Nat}
    (hexec : exec cmd s = .next (if bad then (u.ringOverrun kind index part value other).count (Reg.hifCnt 3) 1 else w))
    (hmem : u.mem = s.mem) :
    (bad = false → exec cmd s = .next w) ∧
    (bad = true → ∃ t, exec cmd s = .next t ∧ t.mem = s.mem ∧ ∃ e ∈ t.events, e.code = Code.hqRingOverrun.val ∧
      e.payload = payload [(16, 1, kind), (18, 2, index), (20, 4, value), (24, 4, other)]) := by
  refine ⟨fun hbad => by rw [hexec, if_neg (ne_true_of_eq_false hbad)], fun hbad => ?_⟩
  rw [if_pos hbad] at hexec
  obtain ⟨e, he, hcode, hpay⟩ := State.mem_events_raise u .hqRingOverrun unitPcie part
    (payload [(16, 1, kind), (18, 2, index), (20, 4, value), (24, 4, other)])
  exact ⟨_, hexec, (State.mem_count ..).trans hmem, e, State.mem_events_count _ _ _ he, hcode, hpay⟩

theorem State.mem_ctxSeen (s : State) (a n : Nat) : (s.ctxSeen a n).mem = s.mem :=
  (State.ctxSeen_touches s a n (.refl _) (.refl s)).1 .mem rfl

section
variable {fn page value q : Nat}

theorem exec_queueDoorbell_page (offset size : Nat) (hd : s.decodes fn = true) (hr : s.rdBit .refReadyReady = true)
    (hp : s.pageQueue fn page = some q) : exec (.queueDoorbell fn page offset size value) s =
      .next (if offset ≠ 0 ∨ size ≠ 4 then s.count (Reg.hifCnt 3) 1 else s.queueTailWrite q value) := by
  show execQueueDoorbell fn page offset size value s = _
  unfold execQueueDoorbell
  rw [if_neg (by simp [hr]), if_neg (by simp [hd]), hp]
  exact (apply_ite Host.Outcome.next ..).symm

theorem State.queueTailWrite_enabled (h : s.queueState q ≠ 0) {u : State} (hu : u = s.ctxSeen (s.queueCtx q) 64) :
    s.queueTailWrite q value = if tailBad (u.queueTail q) (value % 2 ^ 32) (u.queueHead q) (u.queueL q) then
      (u.ringOverrun 0 q (partByte (u.queuePart q)) (value % 2 ^ 32) (u.queueHead q)).count (Reg.hifCnt 3) 1
    else u.ctxWrite (u.queueCtx q + 24) 4 (value % 2 ^ 32) := by
  rw [hu]
  exact if_neg h

end

section
variable {fn page value n : Nat}

theorem exec_streamHeadWrite_page (hd : s.decodes fn = true) (hr : s.rdBit .refReadyReady = true)
    (hp : s.pageStream fn page = some n) :
    exec (.streamHeadWrite fn page 0 4 value) s = .next (s.streamHeadWrite n value) := by
  show execStreamHeadWrite fn page 0 4 value s = _
  unfold execStreamHeadWrite
  rw [if_neg (by simp [hr]), if_neg (by simp [hd]), hp]
  exact if_neg (by decide)

theorem State.streamHeadWrite_enabled (h : (s.stream n).on = true) {u : State} (hu : u = s.ctxSeen (s.streamCtx n) 32) :
    s.streamHeadWrite n value = if headBad (u.streamHead n) (value % 2 ^ 32) (u.streamTail n) then
      (u.ringOverrun 1 n (partByte (u.streamPart n)) (value % 2 ^ 32) (u.streamTail n)).count (Reg.hifCnt 3) 1
    else u.ctxWrite (u.streamCtx n + 24) 4 (value % 2 ^ 32) := by
  rw [hu]
  exact if_neg (by simp [h])

end

/-! ## The event ring's register (R315) -/

section
variable {p value : Nat}

theorem hifPartEvpos_ne_hifPartEvring (p : Nat) : Reg.hifPartEvpos p ≠ Reg.hifPartEvring p := by
  unfold Reg.hifPartEvpos Reg.hifPartEvring
  omega

/-- The state with a ring begun anew: HEAD, TAIL and SEQUENCE are 0. -/
def State.ringRestarted (s : State) (p : Nat) : State :=
  (s.setReg (Reg.hifPartEvpos p) 0).modRing p (fun x => { x with seq := 0 })

theorem exec_eventRingWrite_inRange (hp : p ≤ 16) (hb : s.barShut true = false) (he : s.rd (.hifPartEvringEnable p) = 0) {v : Nat}
    (hv : v = value % 2 ^ 55) (hl : 4 ≤ bitsAt v 49 5 ∧ bitsAt v 49 5 ≤ 16) {u : State}
    (hu : u = s.setReg (Reg.hifPartEvring p) (BitVec.ofNat 64 v)) : exec (.eventRingWrite true p value) s =
      .next (if bitAt v 54 = true then u.ringRestarted p else u) := by
  subst hv hu
  show execEventRingWrite true p value s = _
  unfold execEventRingWrite
  dsimp only
  rw [if_neg (ne_true_of_eq_false hb), if_neg (by simp [hp]), State.rdBit_eq_false he, if_neg (by simp; omega)]
  simp only [true_and]
  exact (apply_ite Host.Outcome.next ..).symm

theorem exec_eventRingWrite_outOfRange (hb : s.barShut true = false)
    (hl : ¬(4 ≤ bitsAt (value % 2 ^ 55) 49 5 ∧ bitsAt (value % 2 ^ 55) 49 5 ≤ 16)) :
    exec (.eventRingWrite true p value) s = .next (s.count (Reg.hifCnt 0) 1) := by
  show execEventRingWrite true p value s = _
  unfold execEventRingWrite
  dsimp only
  rw [if_neg (ne_true_of_eq_false hb)]
  split
  · rfl
  · exact if_pos (by omega)

end

/-! ## What each row comes to -/

theorem exec_queueOperation_acts {cmd : Instr} (hb : s.barShut true = false)
    (hc : (op = 1 ∧ cmd = .queueEnable true index stream) ∨ (op = 2 ∧ cmd = .queueDisable true index stream) ∨
      (op = 3 ∧ cmd = .queueRestart true index stream)) {u : State} (hu : u = s.qOpSeen op index stream) :
    ∃ t, exec cmd s = .next t ∧
      (u.qOpRefusal op index stream = none → stream = false → t.queueState index = if op = 2 then 0 else 1) ∧
      (u.qOpRefusal op index stream = none → stream = true → op = 1 → t.stream index = { Stream.reset with on := true }) ∧
      (u.qOpRefusal op index stream = none → stream = true → op ≠ 1 → t = (u.wr .hifQStatusCode 0).disableStream index) ∧
      (∀ r, u.qOpRefusal op index stream = some r → t.queues = s.queues ∧ t.streams = s.streams ∧
        t.rd .hifQStatusCode = Code.hqQueueInvalid.val ∧
        ∃ e ∈ t.events, e.code = Code.hqQueueInvalid.val ∧ e.payload = payload [(16, 2, index), (18, 1, r)]) := by
  subst hu
  refine ⟨_, exec_queueOperation_open hb hc, fun h hs => ?_, fun h hs h1 => ?_, fun h hs h1 => ?_, fun r h => ?_⟩
  · subst hs
    exact State.queueState_qOp h
  · rw [State.qOp_accepted h rfl, if_pos hs, if_pos h1, State.stream_modStream_self]
  · rw [State.qOp_accepted h rfl, if_pos hs, if_neg h1]
  · obtain ⟨p, hp⟩ := State.qOp_refused h
    rw [hp]
    refine ⟨?_, ?_, State.rd_wr_self _ _ _ (by decide), ?_⟩
    · rw [State.queues_wr, State.queues_raise, State.queues_qOpSeen]
    · rw [State.streams_wr, State.streams_raise, State.streams_qOpSeen]
    · rw [State.events_wr]
      exact State.mem_events_raise ..

theorem exec_queueDoorbell_writes {fn page value q : Nat} (hd : s.decodes fn = true) (hr : s.rdBit .refReadyReady = true)
    (hp : s.pageQueue fn page = some q) (hq : s.queueState q ≠ 0) {u : State} (hu : u = s.ctxSeen (s.queueCtx q) 64) :
    (tailBad (u.queueTail q) (value % 2 ^ 32) (u.queueHead q) (u.queueL q) = false →
      exec (.queueDoorbell fn page 0 4 value) s = .next (u.ctxWrite (u.queueCtx q + 24) 4 (value % 2 ^ 32))) ∧
    (tailBad (u.queueTail q) (value % 2 ^ 32) (u.queueHead q) (u.queueL q) = true →
      ∃ t, exec (.queueDoorbell fn page 0 4 value) s = .next t ∧ t.mem = s.mem ∧ ∃ e ∈ t.events, e.code = Code.hqRingOverrun.val ∧
        e.payload = payload [(16, 1, 0), (18, 2, q), (20, 4, value % 2 ^ 32), (24, 4, u.queueHead q)]) := by
  have hmem : u.mem = s.mem := hu ▸ State.mem_ctxSeen ..
  refine exec_doorbell_overrun (part := partByte (u.queuePart q)) ?_ hmem
  rw [exec_queueDoorbell_page 0 4 hd hr hp, if_neg (by decide), State.queueTailWrite_enabled hq hu]

theorem exec_streamHeadWrite_writes {fn page value n : Nat} (hd : s.decodes fn = true) (hr : s.rdBit .refReadyReady = true)
    (hp : s.pageStream fn page = some n) (hn : (s.stream n).on = true) {u : State} (hu : u = s.ctxSeen (s.streamCtx n) 32) :
    (headBad (u.streamHead n) (value % 2 ^ 32) (u.streamTail n) = false →
      exec (.streamHeadWrite fn page 0 4 value) s = .next (u.ctxWrite (u.streamCtx n + 24) 4 (value % 2 ^ 32))) ∧
    (headBad (u.streamHead n) (value % 2 ^ 32) (u.streamTail n) = true →
      ∃ t, exec (.streamHeadWrite fn page 0 4 value) s = .next t ∧ t.mem = s.mem ∧ ∃ e ∈ t.events, e.code = Code.hqRingOverrun.val ∧
        e.payload = payload [(16, 1, 1), (18, 2, n), (20, 4, value % 2 ^ 32), (24, 4, u.streamTail n)]) := by
  have hmem : u.mem = s.mem := hu ▸ State.mem_ctxSeen ..
  refine exec_doorbell_overrun (part := partByte (u.streamPart n)) ?_ hmem
  rw [exec_streamHeadWrite_page hd hr hp, State.streamHeadWrite_enabled hn hu]

theorem exec_eventRingWrite_sets {p value : Nat} (hp : p ≤ 16) (hb : s.barShut true = false) (he : s.rd (.hifPartEvringEnable p) = 0)
    {v : Nat} (hv : v = value % 2 ^ 55) (hl : 4 ≤ bitsAt v 49 5 ∧ bitsAt v 49 5 ≤ 16) :
    ∃ t, exec (.eventRingWrite true p value) s = .next t ∧ t.reg (Reg.hifPartEvring p) = BitVec.ofNat 64 v ∧
      (bitAt v 54 = true → t.reg (Reg.hifPartEvpos p) = 0 ∧ (t.ring p).seq = 0) := by
  refine ⟨_, exec_eventRingWrite_inRange hp hb he hv hl rfl, ?_, fun hon => ?_⟩
  · split
    · rw [State.ringRestarted, State.reg_modRing, State.reg_setReg_ne _ _ (hifPartEvpos_ne_hifPartEvring p), State.reg_setReg_self]
    · exact State.reg_setReg_self ..
  · rw [if_pos hon, State.ringRestarted]
    exact ⟨by rw [State.reg_modRing, State.reg_setReg_self], by rw [State.ring_modRing_self]⟩

end

/-- Settles O37: an operation of a queue or a stream is judged in one state and acts there, a doorbell is one write of its context
or an overrun, and the event ring's register is taken whole or not at all. -/
theorem queuesStreamsAndDoorbells : Obligations.QueuesStreamsAndDoorbells := by
  refine fun s => ⟨fun op index stream cmd hb hc => exec_queueOperation_acts hb hc rfl,
    fun fn page value q hd hr hp => ⟨fun hq => ?_, fun offset size h => ?_, fun hq => (exec_queueDoorbell_writes hd hr hp hq rfl).1,
      fun hq => (exec_queueDoorbell_writes hd hr hp hq rfl).2⟩,
    fun fn page value n hd hr hp => ⟨fun hn => ?_, fun hn => (exec_streamHeadWrite_writes hd hr hp hn rfl).1,
      fun hn => (exec_streamHeadWrite_writes hd hr hp hn rfl).2⟩,
    fun p value hp hb he => ?_⟩
  · rw [exec_queueDoorbell_page 0 4 hd hr hp, if_neg (by decide), State.queueTailWrite, if_pos hq]
  · rw [exec_queueDoorbell_page offset size hd hr hp, if_pos h]
  · rw [exec_streamHeadWrite_page hd hr hp, State.streamHeadWrite, if_pos hn]
  · intro v
    by_cases hl : 4 ≤ bitsAt v 49 5 ∧ bitsAt v 49 5 ≤ 16
    · obtain ⟨t, hexec, hset⟩ := exec_eventRingWrite_sets hp hb he rfl hl
      exact ⟨t, hexec, fun _ => hset, fun hn => absurd hl hn⟩
    · exact ⟨_, exec_eventRingWrite_outOfRange hb hl, fun h => absurd h hl, fun _ => rfl⟩

end Sys2Proof.Machine

/-!
PROOFS. The module's connector and its management bus (R360, R420 to R425), and what configuration requests of the PCIe port change
(R298, R308, R313): O53.
-/
namespace Sys2Proof.Machine

section
variable {s : State}

/-! ## Power entry (R422, R423) -/

/-- Memory, time and power go with the input, and a boot image that is being written; the frame of the command says what stays. -/
theorem exec_inputPowerLoss_loses : ∃ t, exec .inputPowerLoss s = .next t ∧ t.mem = [] ∧ t.dtime = 0 ∧ t.referee.power = false ∧
    t.referee.entry = false ∧ t.clkreqN = false ∧ t.flash = s.flash ∧ t.learned = s.learned ∧ t.benched = s.benched ∧
    t.hostMem = s.hostMem ∧ t.referee.image = (if s.referee.writing then [] else s.referee.image) := by
  have hstays : ∀ t, exec .inputPowerLoss s = .next t → s.onlyChanges t (Instr.changes .inputPowerLoss) :=
    commandsChangeOnlyTheirOwnState .inputPowerLoss s
  exact ⟨_, rfl, rfl, rfl, rfl, rfl, rfl, hstays _ rfl .flash (by decide), hstays _ rfl .learned (by decide),
    hstays _ rfl .benched (by decide), hstays _ rfl .hostMem (by decide), rfl⟩

/-! ## Cables (R425) -/

section
variable {n : Nat}

/-- The state with the supply of a port's cable cut. -/
def State.cableCut (s : State) (n : Nat) : State := s.setReferee { s.referee with cut := s.referee.cut ++ [n] }

/-- The state with a port reset and told DOWN, before its messages go elsewhere (R335). -/
def State.portLost (s : State) (n step : Nat) : State :=
  (s.closePort n).raise .lnkPortDown (unitPort n 63) noPart (payload [(16, 1, n), (17, 1, step)])

theorem exec_cablePowerFault_cuts (hn : n < 18) (hc : s.referee.cut.contains n = false) :
    exec (.cablePowerFault n) s = .next ((s.cableCut n).portDown n 0) :=
  if_neg (by rw [hc, not_or]; exact ⟨Nat.not_le.2 hn, Bool.noConfusion⟩)

theorem State.referee_closePort (s : State) (n : Nat) : (s.closePort n).referee = s.referee :=
  (State.closePort_touches s n (.refl _) (.refl s)).1 .referee rfl

theorem State.port_closePort (s : State) (n : Nat) : (s.closePort n).port n = Port.reset := by
  rw [State.closePort, State.port_wr, State.port_wr, State.port_modPort_self]

theorem State.rd_state_closePort (s : State) (n : Nat) : (s.closePort n).rd (.lnkPortStatusState n) = 0 := by
  rw [State.closePort, State.rd_wr_ne _ _ _ _ (.inr (of_decide_eq_true rfl)), State.rd_wr_self _ _ _ (of_decide_eq_true rfl)]
  rfl

end

/-! ## The management bus (R360, R424) -/

theorem State.out_mctpControl_ne (s : State) (inst cmd cc : Nat) (data : List Nat) : (s.mctpControl inst cmd cc data).out ≠ s.out := by
  rw [State.mctpControl, State.out_setOut]
  exact fun h => List.cons_ne_nil _ _ (List.append_right_eq_self.1 h)

theorem exec_mctpControlMessage_powered (inst cmd op eid : Nat) (h : s.referee.power = true) :
    exec (.mctpControlMessage inst cmd op eid) s = .next (if cmd = 1 then
        (if op > 1 ∨ eid = 0 ∨ eid ≥ 255 then s.mctpControl inst 1 2 []
          else (s.setReferee { s.referee with eid := eid }).mctpControl inst 1 0 [0, eid, 0])
      else if cmd = 2 then s.mctpControl inst 2 0 [s.referee.eid, 0, 0]
      else if cmd = 4 then s.mctpControl inst 4 0 [1, 0xF1, 0xF3, 0xF1, 0x00]
      else if cmd = 5 then s.mctpControl inst 5 0 (s.mctpTypes.length :: s.mctpTypes)
      else s.mctpControl inst cmd 5 []) := by
  show execMctpControlMessage inst cmd op eid s = _
  unfold execMctpControlMessage
  rw [if_neg (by simp [h])]
  split
  · rw [if_pos rfl, apply_ite Host.Outcome.next]
  · rfl
  · rfl
  · rfl
  · next h1 h2 h4 h5 => rw [if_neg h1, if_neg h2, if_neg h4, if_neg h5]

theorem exec_dynamicAddressAssignment_gives {setdasa : Bool} {static : Nat} (addr : Nat) (h : s.referee.power = true)
    (hd : s.referee.dynAddr = none) (hs : setdasa = true → static = 0x20 + s.referee.slotId) :
    exec (.dynamicAddressAssignment setdasa static addr) s = .next (s.setReferee { s.referee with dynAddr := some (addr % 128) }) := by
  show execDynamicAddressAssignment setdasa static addr s = _
  rw [execDynamicAddressAssignment]
  dsimp only
  rw [if_neg (by simp [h]), if_neg (by simpa [hd] using hs)]

theorem exec_doeDiscovery_powered (i : Nat) (h : s.referee.power = true) : exec (.doeDiscovery i) s =
    .next (s.setOut (s.out ++ [Output.doe (if i < 3 then 1 + i * 2 ^ 16 + ((i + 1) % 3) * 2 ^ 24 else 0xFFFF) 4])) :=
  if_neg (by simp [h])

/-! ## The PCIe port (R298, R308, R313) -/

/-- A list with one number in it or not, and the others as they were. -/
theorem mem_switched {l : List Nat} {n x : Nat} (on : Bool) :
    x ∈ (if on then l.filter (fun y => !(decide (y = n))) ++ [n] else l.filter (fun y => !(decide (y = n)))) ↔
      if x = n then on = true else x ∈ l := by
  cases on <;> by_cases hx : x = n <;> simp [hx]

section
variable {fn : Nat} (h : fn ≤ 16)
include h

theorem exec_devicePowerStateWrite_power (hot : Bool) : exec (.devicePowerStateWrite fn (.power hot)) s =
    .next (s.setLowPower (if hot then s.lowPower.filter (fun x => !(decide (x = fn))) ++ [fn]
      else s.lowPower.filter (fun x => !(decide (x = fn))))) :=
  if_neg (by omega)

theorem exec_devicePowerStateWrite_ats (on : Bool) : exec (.devicePowerStateWrite fn (.ats on)) s =
    .next (s.setAtsOn (if on then s.atsOn.filter (fun x => !(decide (x = fn))) ++ [fn]
      else s.atsOn.filter (fun x => !(decide (x = fn))))) :=
  if_neg (by omega)

theorem exec_devicePowerStateWrite_msix (on mask : Bool) : exec (.devicePowerStateWrite fn (.msix on mask)) s =
    .next ((s.setMsixCtl (Sparse.put 0 fn (flag on + 2 * flag mask) s.msixCtl)).sendPending fn) :=
  if_neg (by omega)

theorem exec_devicePowerStateWrite_msixEntry {v : Nat} (addr data : Nat) (masked : Bool) (hv : v < (if fn = 0 then 1024 else 64)) :
    exec (.devicePowerStateWrite fn (.msixEntry v addr data masked)) s =
      .next ((s.putMsix fn v ⟨addr % 2 ^ 64, data % 2 ^ 32, masked, (s.msixEntry fn v).pending⟩).sendPending fn) :=
  (if_neg (by omega)).trans (if_neg (Nat.not_le.2 hv))

end

/-! ## What each row comes to -/

theorem exec_cablePowerFault_loses {n : Nat} (hn : n < 18) (hc : s.referee.cut.contains n = false) :
    ∃ (u t : State), exec (.cablePowerFault n) s = .next t ∧ u.referee.cut = s.referee.cut ++ [n] ∧
      t = ((s.port n).sent.map (fun x => x.2) ++ ((s.port n).partly.map (fun x => x.2)).toList ++ (s.port n).txq).reverse.foldl
        State.rerouteFirst u ∧
      u.port n = Port.reset ∧ u.rd (.lnkPortStatusState n) = 0 ∧
      ∃ e ∈ u.events, e.code = Code.lnkPortDown.val ∧ e.payload = payload [(16, 1, n), (17, 1, 0)] := by
  refine ⟨(s.cableCut n).portLost n 0, _, exec_cablePowerFault_cuts hn hc, ?_, rfl, ?_, ?_, State.mem_events_raise ..⟩
  · rw [State.portLost, State.referee_raise, State.referee_closePort]
    rfl
  · rw [State.portLost, State.port_raise, State.port_closePort]
  · rw [State.portLost, State.rd_raise, State.rd_state_closePort]

theorem exec_mctpControlMessage_answers (inst op eid : Nat) (h : s.referee.power = true) :
    (op ≤ 1 → 1 ≤ eid → eid ≤ 254 →
      ∃ t, exec (.mctpControlMessage inst 1 op eid) s = .next t ∧ t.referee.eid = eid ∧ t.out ≠ s.out) ∧
    (1 < op ∨ eid = 0 ∨ 255 ≤ eid → exec (.mctpControlMessage inst 1 op eid) s = .next (s.mctpControl inst 1 2 [])) ∧
    exec (.mctpControlMessage inst 2 op eid) s = .next (s.mctpControl inst 2 0 [s.referee.eid, 0, 0]) ∧
    exec (.mctpControlMessage inst 5 op eid) s = .next (s.mctpControl inst 5 0 (s.mctpTypes.length :: s.mctpTypes)) ∧
    ∀ cmd, cmd ∉ [1, 2, 4, 5] → exec (.mctpControlMessage inst cmd op eid) s = .next (s.mctpControl inst cmd 5 []) := by
  have hexec (cmd : Nat) := exec_mctpControlMessage_powered inst cmd op eid h
  refine ⟨fun hop h1 h254 => ?_, fun hbad => ?_, hexec 2, hexec 5, fun cmd hcmd => ?_⟩
  · have hset := hexec 1
    rw [if_pos rfl, if_neg (by omega)] at hset
    exact ⟨_, hset, rfl, State.out_mctpControl_ne (s.setReferee _) inst 1 0 _⟩
  · rw [hexec 1, if_pos rfl, if_pos hbad]
  · simp only [List.mem_cons, List.not_mem_nil, or_false, not_or] at hcmd
    obtain ⟨h1, h2, h4, h5⟩ := hcmd
    rw [hexec cmd, if_neg h1, if_neg h2, if_neg h4, if_neg h5]

end

/-- Settles O53: each row's equation gives its next state, from which what it loses, keeps or answers is read. -/
theorem connectorsManagementBusAndPortConfigure : Obligations.ConnectorsManagementBusAndPortConfigure := by
  refine fun s => ⟨⟨_, rfl, rfl, rfl, rfl⟩, exec_inputPowerLoss_loses, fun n hn hc => exec_cablePowerFault_loses hn hc,
    fun hp => ⟨fun inst op eid => exec_mctpControlMessage_answers inst op eid hp,
      fun static addr hd => ⟨fun hs => ⟨_, exec_dynamicAddressAssignment_gives addr hp hd (fun _ => hs), rfl⟩,
        ⟨_, exec_dynamicAddressAssignment_gives addr hp hd nofun, rfl⟩⟩,
      fun i => ⟨_, exec_doeDiscovery_powered i hp, rfl⟩⟩,
    fun tag pasid page n => ⟨_, rfl, rfl, fun x => ?_⟩,
    fun fn hfn => ⟨fun hot => ⟨_, exec_devicePowerStateWrite_power hfn hot, ?_, fun x hx => ?_⟩,
      fun on => ⟨_, exec_devicePowerStateWrite_ats hfn on, ?_, fun x hx => ?_⟩,
      fun on mask => ⟨_, exec_devicePowerStateWrite_msix hfn on mask, Sparse.get_put_self ..⟩,
      fun v addr data masked hv => ⟨_, exec_devicePowerStateWrite_msixEntry hfn addr data masked hv, Sparse.get_put_self ..⟩⟩⟩
  · rw [State.atc_setOut, State.atc_setAtc, List.mem_filter, Bool.not_eq_true', decide_eq_false_iff_not]
  · rw [State.lowPower_setLowPower, mem_switched, if_pos rfl]
  · rw [State.lowPower_setLowPower, mem_switched, if_neg hx]
  · rw [State.atsOn_setAtsOn, mem_switched, if_pos rfl]
  · rw [State.atsOn_setAtsOn, mem_switched, if_neg hx]

end Sys2Proof.Machine

/-!
PROOFS. The ports of Ergal (sections 13.1 and 13.2): their steps from DOWN to UP, the flits they receive and acknowledge, and how they go
down (O43).
-/
namespace Sys2Proof.Machine

section
variable {s : State} {n : Nat}

/-! ## The registers of a port -/

theorem lnkPortStatus_ne_lnkIdent (n : Nat) : Reg.lnkPortStatus n ≠ Reg.lnkIdent := by
  unfold Reg.lnkPortStatus Reg.lnkIdent
  omega

theorem lnkPortCtrl_ne_lnkIdent (n : Nat) : Reg.lnkPortCtrl n ≠ Reg.lnkIdent := by
  unfold Reg.lnkPortCtrl Reg.lnkIdent
  omega

theorem lnkPortStatus_ne_lnkPortCtrl (n k : Nat) : Reg.lnkPortStatus n ≠ Reg.lnkPortCtrl k := by
  unfold Reg.lnkPortStatus Reg.lnkPortCtrl
  omega

theorem State.rd_state_setStep (s : State) (n : Nat) {k : Nat} (hk : k < 8) : (s.setStep n k).rd (.lnkPortStatusState n) = k :=
  (State.rd_wr_self _ _ _ (of_decide_eq_true rfl)).trans (Nat.mod_eq_of_lt hk)

theorem State.rd_setStep_ne (s : State) (k : Nat) {f : RF} (h : Reg.lnkPortStatus n ≠ f.reg) : (s.setStep n k).rd f = s.rd f :=
  State.rd_wr_ne _ _ _ _ (.inl h)

/-- LANES stands above STATE. -/
theorem State.rd_state_wr_lanes (s : State) (n v : Nat) :
    (s.wr (.lnkPortStatusLanes n) v).rd (.lnkPortStatusState n) = s.rd (.lnkPortStatusState n) :=
  State.rd_wr_ne _ _ _ _ (.inr (of_decide_eq_true rfl))

theorem State.rd_lanes_wr (s : State) (n : Nat) {v : Nat} (hv : v < 16) :
    (s.wr (.lnkPortStatusLanes n) v).rd (.lnkPortStatusLanes n) = v :=
  (State.rd_wr_self _ _ _ (of_decide_eq_true rfl)).trans (Nat.mod_eq_of_lt hv)

/-! ## The beginning of the bring-up (R328, R339) -/

/-- The bring-up of an enabled port that is DOWN begins on a locked chip; a port in Ethernet mode is UP with it. -/
theorem State.rd_state_startPort (he : s.rd (.lnkPortCtrlEnable n) = 1) (hl : s.rd .lnkIdentLock = 1)
    (hs : s.rd (.lnkPortStatusState n) = 0) (hc : n ∉ s.referee.cut) :
    (s.startPort n).rd (.lnkPortStatusState n) = if s.rd (.lnkPortCtrlMode n) = 0 then 1 else 6 := by
  have hgo : (s.rdBit (.lnkPortCtrlEnable n) && s.rdBit .lnkIdentLock && decide (s.rd (.lnkPortStatusState n) = 0) &&
      !(s.referee.cut.contains n)) = true := by
    simp [State.rdBit_eq_true he, State.rdBit_eq_true hl, hs, hc]
  rw [State.startPort, if_pos hgo]
  split
  · exact State.rd_state_setStep _ n (by decide)
  · rw [State.rd_state_wr_lanes, State.rd_state_setStep _ n (by decide)]

/-- Beginning a bring-up writes STATUS of its port alone. -/
theorem State.rd_startPort_ne (s : State) {f : RF} (h : Reg.lnkPortStatus n ≠ f.reg) : (s.startPort n).rd f = s.rd f := by
  unfold State.startPort
  split
  · split
    · rw [State.rd_setStep_ne _ _ h, State.rd_modPort]
    · rw [State.rd_wr_ne _ _ _ _ (.inl h), State.rd_setStep_ne _ _ h, State.rd_modPort]
  · rfl

theorem State.rd_lock_foldl_startPort (l : List Nat) (s : State) : (l.foldl State.startPort s).rd .lnkIdentLock = s.rd .lnkIdentLock := by
  induction l generalizing s with
  | nil => rfl
  | cons n t ih => rw [List.foldl_cons, ih, State.rd_startPort_ne _ (lnkPortStatus_ne_lnkIdent n)]

theorem exec_lnkIdentLock_locks (hb : s.barShut true = false) (hl : s.rd .lnkIdentLock = 0) :
    ∃ t, exec (.lnkIdentLock true) s = .next t ∧ t.rd .lnkIdentLock = 1 := by
  refine ⟨(List.range 18).foldl State.startPort (s.wr .lnkIdentLock 1), ?_, ?_⟩
  · show execLnkIdentLock true s = _
    rw [execLnkIdentLock, if_neg (ne_true_of_eq_false hb), if_neg Bool.noConfusion, if_neg (ne_true_of_eq_false (State.rdBit_eq_false hl))]
  · rw [State.rd_lock_foldl_startPort, State.rd_wr_self _ _ _ (of_decide_eq_true rfl)]
    rfl

/-! ## Writing LNK_PORT_CTRL (R328) -/

/-- The state with the fields of a port's control register written. -/
def State.portCtrlSet (s : State) (n v : Nat) : State :=
  (((s.wr (.lnkPortCtrlMode n) (bitsAt v 1 1)).wr (.lnkPortCtrlPartition n) (bitsAt v 2 4)).wr (.lnkPortCtrlReplayWarn n)
    (bitsAt v 16 16)).wr (.lnkPortCtrlEnable n) (flag (bitAt v 0))

theorem State.rd_enable_portCtrlSet (s : State) (n v : Nat) : (s.portCtrlSet n v).rd (.lnkPortCtrlEnable n) = flag (bitAt v 0) := by
  rw [State.portCtrlSet, State.rd_wr_self _ _ _ (of_decide_eq_true rfl)]
  cases bitAt v 0 <;> rfl

theorem State.rd_mode_portCtrlSet (s : State) (n v : Nat) : (s.portCtrlSet n v).rd (.lnkPortCtrlMode n) = bitsAt v 1 1 := by
  rw [State.portCtrlSet, State.rd_wr_ne _ _ _ _ (.inr (of_decide_eq_true rfl)), State.rd_wr_ne _ _ _ _ (.inr (of_decide_eq_true rfl)),
    State.rd_wr_ne _ _ _ _ (.inr (of_decide_eq_true rfl)), State.rd_wr_self _ _ _ (of_decide_eq_true rfl)]
  exact Nat.mod_eq_of_lt (bitsAt_lt v 1 1)

theorem State.rd_portCtrlSet_ne (s : State) (v : Nat) {f : RF} (h : Reg.lnkPortCtrl n ≠ f.reg) : (s.portCtrlSet n v).rd f = s.rd f := by
  rw [State.portCtrlSet, State.rd_wr_ne _ _ _ _ (.inl h), State.rd_wr_ne _ _ _ _ (.inl h), State.rd_wr_ne _ _ _ _ (.inl h),
    State.rd_wr_ne _ _ _ _ (.inl h)]

theorem State.referee_portCtrlSet (s : State) (n v : Nat) : (s.portCtrlSet n v).referee = s.referee := by
  rw [State.portCtrlSet, State.referee_wr, State.referee_wr, State.referee_wr, State.referee_wr]

theorem exec_portEnable_open (hb : s.barShut true = false) (v : Nat) :
    exec (.portEnable true n v) s = .next (s.portCtrlWrite true n v) :=
  if_neg (ne_true_of_eq_false hb)

section
variable {v : Nat} (hn : n < 18) (hc : s.rd (.lnkPortStatusClaimed n) = 0)
include hn hc

theorem State.portCtrlWrite_enables (he : s.rd (.lnkPortCtrlEnable n) = 0) (hv : bitAt v 0 = true) :
    s.portCtrlWrite true n v = (s.portCtrlSet n v).startPort n := by
  unfold State.portCtrlWrite
  dsimp only
  rw [if_neg Bool.noConfusion, if_neg (Nat.not_le.2 hn), State.rdBit_eq_false he, State.rdBit_eq_false hc, if_neg (by simp),
    if_pos ⟨hv, rfl⟩]
  rfl

theorem State.portCtrlWrite_disables (he : s.rd (.lnkPortCtrlEnable n) = 1) (hv : bitAt v 0 = false)
    (hm : bitsAt v 1 1 = s.rd (.lnkPortCtrlMode n)) (ht : s.portTakes n = false) :
    s.portCtrlWrite true n v = (s.portCtrlSet n v).closePort n := by
  unfold State.portCtrlWrite
  dsimp only
  rw [if_neg Bool.noConfusion, if_neg (Nat.not_le.2 hn), State.rdBit_eq_true he, State.rdBit_eq_false hc, if_neg (by simp [hm]),
    if_neg (by simp [hv]), if_pos ⟨hv, rfl⟩, ht, if_neg Bool.noConfusion]
  rfl

end

/-- MODE is bit 1 of what is written. -/
theorem bitsAt_one_eq_zero (v : Nat) : bitsAt v 1 1 = 0 ↔ bitAt v 1 = false := by
  rw [bitAt, bitsAt, Nat.testBit_eq_decide_div_mod_eq, decide_eq_false_iff_not, Nat.shiftRight_eq_div_pow]
  omega

theorem State.rd_portCtrlSet_startPort {v : Nat} (hv : bitAt v 0 = true) (hl : s.rd .lnkIdentLock = 1)
    (hs : s.rd (.lnkPortStatusState n) = 0) (hc : n ∉ s.referee.cut) :
    ((s.portCtrlSet n v).startPort n).rd (.lnkPortCtrlEnable n) = 1 ∧
      ((s.portCtrlSet n v).startPort n).rd (.lnkPortStatusState n) = if bitAt v 1 then 6 else 1 := by
  have he : (s.portCtrlSet n v).rd (.lnkPortCtrlEnable n) = 1 := by rw [State.rd_enable_portCtrlSet, hv]; rfl
  have hl' : (s.portCtrlSet n v).rd .lnkIdentLock = 1 :=
    (s.rd_portCtrlSet_ne v (lnkPortCtrl_ne_lnkIdent n)).trans hl
  have hs' : (s.portCtrlSet n v).rd (.lnkPortStatusState n) = 0 :=
    (s.rd_portCtrlSet_ne v (lnkPortStatus_ne_lnkPortCtrl n n).symm).trans hs
  have hc' : n ∉ (s.portCtrlSet n v).referee.cut := by rwa [State.referee_portCtrlSet]
  constructor
  · rw [State.rd_startPort_ne _ (lnkPortStatus_ne_lnkPortCtrl n n), he]
  · rw [State.rd_state_startPort he hl' hs' hc', State.rd_mode_portCtrlSet]
    simp only [bitsAt_one_eq_zero]
    cases bitAt v 1 <;> rfl

theorem State.rd_enable_closePort (s : State) (n : Nat) :
    (s.closePort n).rd (.lnkPortCtrlEnable n) = s.rd (.lnkPortCtrlEnable n) := by
  have h := lnkPortStatus_ne_lnkPortCtrl n n
  rw [State.closePort, State.rd_wr_ne _ _ _ _ (.inl h), State.rd_wr_ne _ _ _ _ (.inl h), State.rd_modPort]

/-! ## The steps of the bring-up (R328, Table 13-2) -/

section
variable {failed : Option Nat} {lanes : Nat} (hn : n < 18)
include hn

theorem exec_portBringupDone_failed (h0 : s.rd (.lnkPortStatusState n) ≠ 0) (h6 : s.rd (.lnkPortStatusState n) ≠ 6)
    (hf : failed ≠ none) : exec (.portBringupDone n failed lanes) s = .next (s.bringupFailed n) := by
  show execPortBringupDone n failed lanes s = _
  unfold execPortBringupDone
  dsimp only
  rw [if_neg (by omega), if_pos (.inl (Option.isSome_iff_ne_none.2 hf))]

theorem exec_portBringupDone_next (h0 : 0 < s.rd (.lnkPortStatusState n)) (h5 : s.rd (.lnkPortStatusState n) < 5)
    (hh : s.rd (.lnkPortStatusState n) = 4 → (s.port n).helloed = true) :
    exec (.portBringupDone n none lanes) s = .next (s.setStep n (s.rd (.lnkPortStatusState n) + 1)) := by
  have hgood : ¬((none : Option Nat).isSome = true ∨ (s.rd (.lnkPortStatusState n) ≥ 4 ∧ (s.port n).helloed = false)) := by
    rintro (h | ⟨h4, h⟩)
    · exact Bool.noConfusion h
    · exact Bool.false_ne_true (h.symm.trans (hh (by omega)))
  show execPortBringupDone n none lanes s = _
  unfold execPortBringupDone
  dsimp only
  rw [if_neg (by omega), if_neg hgood, if_pos h5]

end

/-- The state in which a port is UP on a mask of lanes, with full credits; after a retraining it sends again what it kept (R331). -/
def State.portOpened (s : State) (n mask : Nat) : State :=
  ((s.modPort n (fun p => { p with
    credits := fullCredits
    freed := [0, 0, 0, 0, 0]
    resend := (if p.retrain.isSome then p.replay else [])
    retrain := none
    lastAck := s.dtime })).setStep n 6).wr (.lnkPortStatusLanes n) mask

/-- That state with LNK_PORT_UP reported. -/
def State.portUpSaid (s : State) (n mask : Nat) : State :=
  let u := s.portOpened n mask
  u.raise .lnkPortUp (unitPort n 63) noPart (payload [(16, 1, n), (17, 2, u.rd (.lnkPortStatusPeerChip n)),
    (19, 1, u.rd (.lnkPortStatusPeerPort n))])

/-- The lanes that a port comes up on: one of the two halves, or all. -/
def laneMask (lanes : Nat) : Nat := if lanes = 3 ∨ lanes = 12 then lanes else 15

theorem laneMask_lt (lanes : Nat) : laneMask lanes < 16 := by
  unfold laneMask
  split <;> omega

theorem exec_portBringupDone_up (hn : n < 18) (lanes : Nat) (h5 : s.rd (.lnkPortStatusState n) = 5) (hh : (s.port n).helloed = true) :
    exec (.portBringupDone n none lanes) s = .next (if laneMask lanes = 15 then s.portUpSaid n (laneMask lanes)
      else (s.portUpSaid n (laneMask lanes)).raise .lnkLaneDegraded (unitPort n 63) noPart
        (payload [(16, 1, n), (17, 1, laneMask lanes)])) := by
  show execPortBringupDone n none lanes s = _
  unfold execPortBringupDone
  dsimp only
  rw [if_neg (by omega), if_neg (by simp [hh]), if_neg (by omega)]
  rfl

theorem State.rd_portUpSaid (s : State) (n mask : Nat) (f : RF) : (s.portUpSaid n mask).rd f = (s.portOpened n mask).rd f :=
  State.rd_raise ..

theorem State.port_portUpSaid (s : State) (n mask k : Nat) : (s.portUpSaid n mask).port k = (s.portOpened n mask).port k :=
  State.port_raise ..

theorem State.mem_events_portUpSaid (s : State) (n mask : Nat) : ∃ e ∈ (s.portUpSaid n mask).events, e.code = Code.lnkPortUp.val :=
  ⟨_, List.mem_append_right _ (List.mem_singleton_self _), rfl⟩

/-- An event reported after a port is UP leaves its registers and its state, and LNK_PORT_UP before it. -/
theorem exec_portBringupDone_opens (hn : n < 18) (lanes : Nat) (h5 : s.rd (.lnkPortStatusState n) = 5) (hh : (s.port n).helloed = true) :
    ∃ t, exec (.portBringupDone n none lanes) s = .next t ∧ (∀ f, t.rd f = (s.portOpened n (laneMask lanes)).rd f) ∧
      t.port n = (s.portOpened n (laneMask lanes)).port n ∧ ∃ e ∈ t.events, e.code = Code.lnkPortUp.val := by
  obtain ⟨e, he, hcode⟩ := s.mem_events_portUpSaid n (laneMask lanes)
  refine ⟨_, exec_portBringupDone_up hn lanes h5 hh, ?_⟩
  split
  · exact ⟨s.rd_portUpSaid n _, s.port_portUpSaid n _ n, e, he, hcode⟩
  · refine ⟨fun f => ?_, ?_, e, ?_, hcode⟩
    · rw [State.rd_raise, State.rd_portUpSaid]
    · rw [State.port_raise, State.port_portUpSaid]
    · rw [State.events_raise]
      exact List.mem_append_left _ he

theorem State.rd_state_portOpened (s : State) (n mask : Nat) : (s.portOpened n mask).rd (.lnkPortStatusState n) = 6 := by
  rw [State.portOpened, State.rd_state_wr_lanes, State.rd_state_setStep _ n (by decide)]

theorem State.port_portOpened (s : State) (n mask : Nat) :
    ((s.portOpened n mask).port n).credits = fullCredits ∧ ((s.portOpened n mask).port n).retrain = none := by
  rw [State.portOpened, State.port_wr, State.setStep, State.port_wr, State.port_modPort_self, State.port_modPort_self]
  exact ⟨rfl, rfl⟩

/-- 100 ms after a failed step the sequence starts again, whether the port retrains or comes up for the first time. -/
theorem exec_portRetryTimer_starts (hn : n < 18) (he : s.rd (.lnkPortCtrlEnable n) = 1) (hl : s.rd .lnkIdentLock = 1)
    (hs : s.rd (.lnkPortStatusState n) = 0) (hm : s.rd (.lnkPortCtrlMode n) = 0) (hc : n ∉ s.referee.cut) :
    ∃ t, exec (.portRetryTimer n) s = .next t ∧ t.rd (.lnkPortStatusState n) = 1 := by
  have hexec : exec (.portRetryTimer n) s = if (s.port n).retrain.isSome ∧ s.rd (.lnkPortStatusState n) = 0 then
      .next (s.setStep n 1) else .next (s.startPort n) := if_neg (Nat.not_le.2 hn)
  rw [hexec]
  split
  · exact ⟨_, rfl, State.rd_state_setStep s n (by decide)⟩
  · exact ⟨_, rfl, by rw [State.rd_state_startPort he hl hs hc, if_pos hm]⟩

/-! ## Going down (R331, R335) -/

theorem exec_portDown_up (step : Nat) (hn : n < 18) (hu : s.portUp n = true) : exec (.portDown n step) s = .next (s.portDown n step) :=
  congrArg Host.Outcome.next (if_pos ⟨hn, hu⟩)

theorem exec_retrainTimeout_retraining {t0 : Nat} (h : (s.port n).retrain = some t0) :
    exec (.retrainTimeout n) s = .next ((s.setDtime (max s.dtime (t0 + 250000000))).portDown n (s.port n).step) := by
  show execRetrainTimeout n s = _
  rw [execRetrainTimeout, h]

theorem State.rd_lanes_closePort (s : State) (n : Nat) : (s.closePort n).rd (.lnkPortStatusLanes n) = 0 :=
  State.rd_lanes_wr _ n (by decide)

theorem State.portLost_down (s : State) (n step : Nat) :
    (s.portLost n step).port n = Port.reset ∧ (s.portLost n step).rd (.lnkPortStatusState n) = 0 ∧
      (s.portLost n step).rd (.lnkPortStatusLanes n) = 0 ∧ (s.portLost n step).dtime = s.dtime ∧
      ∃ e ∈ (s.portLost n step).events, e.code = Code.lnkPortDown.val ∧ e.payload = payload [(16, 1, n), (17, 1, step)] := by
  rw [State.portLost, State.port_raise, State.rd_raise, State.rd_raise, State.dtime_raise]
  exact ⟨s.port_closePort n, s.rd_state_closePort n, s.rd_lanes_closePort n, rfl, State.mem_events_raise ..⟩

/-- Both rows take down the port of a state `q` that holds the same ports. -/
theorem exec_takesDown {cmd : Instr} {q : State} {step : Nat} (hn : n < 18)
    (h : (cmd = Instr.portDown n step ∧ q = s ∧ s.portUp n = true) ∨ (cmd = .retrainTimeout n ∧ step = (s.port n).step ∧
      ∃ t0, (s.port n).retrain = some t0 ∧ q = s.setDtime (max s.dtime (t0 + 250000000)))) :
    exec cmd s = .next (q.portDown n step) ∧ q.port n = s.port n := by
  obtain ⟨rfl, rfl, hu⟩ | ⟨rfl, rfl, t0, ht, rfl⟩ := h
  · exact ⟨exec_portDown_up step hn hu, rfl⟩
  · exact ⟨exec_retrainTimeout_retraining ht, rfl⟩

theorem State.portDown_reroutes {q : State} (step : Nat) (h : q.port n = s.port n) : q.portDown n step =
    ((s.port n).sent.map (fun x => x.2) ++ ((s.port n).partly.map (fun x => x.2)).toList ++ (s.port n).txq).reverse.foldl
      State.rerouteFirst (q.portLost n step) := by
  rw [← h]
  rfl

/-! ## Flits that are received (R331) -/

/-- The state after a flit has been discarded: a NAK is owed, and flits are discarded until the one that it asks for comes. -/
def State.flitBad (s : State) (n : Nat) : State :=
  (s.count (Reg.lnkPortCnt n 3) 1).modPort n (fun p => { p with owesNak := true, discarding := true })

theorem State.flitBad_owes (s : State) (n : Nat) : ((s.flitBad n).port n).owesNak = true ∧ ((s.flitBad n).port n).discarding = true ∧
    (s.flitBad n).inbox = s.inbox := by
  rw [State.flitBad, State.port_modPort_self, State.inbox_modPort, State.inbox_count]
  exact ⟨rfl, rfl, rfl⟩

/-- The state after the data flit `l` has come in sequence: what it acknowledges is done with, and it is the last one received. -/
def State.flitTaken (s : State) (n l fixed : Nat) : State :=
  ((((s.count (Reg.lnkPortCnt n 1) 1).count (Reg.lnkPortCnt n 2) fixed).modPort n (fun p => p.acked (flitAck l))).modPort n
    (fun p => { p with
      ack := flitSeq l
      discarding := false
      owesNak := false
      rx := (parseSlots (bodySlots l) (s.port n).rx []).2
      sinceAck := p.sinceAck + 1 }))

theorem State.inbox_flitTaken (s : State) (n l fixed : Nat) : (s.flitTaken n l fixed).inbox = s.inbox := by
  rw [State.flitTaken, State.inbox_modPort, State.inbox_modPort, State.inbox_count, State.inbox_count]

theorem State.port_flitTaken (s : State) (n l fixed : Nat) :
    ((s.flitTaken n l fixed).port n).ack = flitSeq l ∧ ((s.flitTaken n l fixed).port n).owesNak = false := by
  rw [State.flitTaken, State.port_modPort_self]
  exact ⟨rfl, rfl⟩

/-- Messages that come in go to the inbox; the ports stay as they are. -/
theorem State.port_msgsIn (s : State) (n : Nat) (creditsOnly : Bool) (ms : List Msg) (k : Nat) :
    (s.msgsIn n creditsOnly ms).port k = s.port k := by
  rw [State.port, (State.msgsIn_touches s n creditsOnly ms (.refl _) (.refl s)).1 .ports rfl]
  rfl

section
variable {flit : Nat} {errs : List (Nat × Nat)} (hn : n < 18) (hu : s.portUp n = true)
include hn hu

theorem exec_flitReceive_undecoded (hd : flitDecode flit errs = none) :
    exec (.flitReceive n flit errs) s = .next ((s.count (Reg.lnkPortCnt n 1) 1).flitBad n) := by
  show execFlitReceive n flit errs s = _
  unfold execFlitReceive
  dsimp only
  rw [if_neg (by simp [hn, hu]), hd]
  rfl

section
variable {l fixed : Nat} (hd : flitDecode flit errs = some (l, fixed))
include hd

theorem exec_flitReceive_badCrc (hc : flitCrcOk l = false) : exec (.flitReceive n flit errs) s =
    .next (((s.count (Reg.lnkPortCnt n 1) 1).count (Reg.lnkPortCnt n 2) fixed).flitBad n) := by
  show execFlitReceive n flit errs s = _
  unfold execFlitReceive
  dsimp only
  rw [if_neg (by simp [hn, hu]), hd]
  dsimp only
  rw [if_pos hc]
  rfl

theorem exec_flitReceive_taken (hc : flitCrcOk l = true) (hk : flitKind l = 0) (hq : flitSeq l = ((s.port n).ack + 1) % 4096) :
    exec (.flitReceive n flit errs) s =
      .next ((s.flitTaken n l fixed).msgsIn n false (parseSlots (bodySlots l) (s.port n).rx []).1) := by
  show execFlitReceive n flit errs s = _
  unfold execFlitReceive
  dsimp only
  rw [if_neg (by simp [hn, hu]), hd]
  dsimp only
  rw [if_neg (by simp [hc]), if_neg (by omega), if_pos hk]
  simp only [State.port_modPort_self, State.port_count, Port.acked]
  rw [if_neg (not_not_intro hq)]
  rfl

end

end

/-! ## Acknowledging (R331) -/

theorem State.port_flitOut (s : State) (n : Nat) (p : Port) (l : Nat) :
    (s.flitOut n p l).port n = { p with sinceAck := 0, lastAck := s.dtime } := by
  rw [State.flitOut, State.port_count, State.port_setOut, State.port_modPort_self]

theorem State.dtime_flitOut (s : State) (n : Nat) (p : Port) (l : Nat) : (s.flitOut n p l).dtime = s.dtime := State.dtime_count ..

theorem State.out_flitOut (s : State) (n : Nat) (p : Port) (l : Nat) : (s.flitOut n p l).out = s.out ++ [.flit n (flitLanes l)] :=
  State.out_count ..

/-- The acknowledgement timer sends one flit in a state whose DTIME has come to 0.5 us after the last acknowledgement. -/
theorem exec_ackTimer_sends (hn : n < 18) (hu : s.portUp n = true) (ha : (s.port n).sinceAck > 0) :
    ∃ p l, exec (.ackTimer n) s = .next ((s.setDtime (max s.dtime ((s.port n).lastAck + 500))).flitOut n p l) :=
  ⟨_, _, if_pos ⟨hn, hu, ha⟩⟩

end

/-- Settles O43: each row's equation gives its next state, from which STATE of its port, the port and the inbox are read. -/
theorem portsComeUpReceiveAndGoDown : Obligations.PortsComeUpReceiveAndGoDown := by
  refine fun s n hn => ⟨exec_lnkIdentLock_locks, fun v hb hc => ⟨fun he hv hl hs hcut => ?_, fun he hv hm ht => ?_⟩,
    fun failed lanes => ⟨fun h0 h6 hf => ?_, ?_, ?_⟩, exec_portRetryTimer_starts hn, fun cmd q step h => ?_,
    fun flit errs hu => ⟨fun hd => ?_, fun l fixed hd hcrc => ?_, fun l fixed hd hcrc hk hq => ?_⟩, fun hu ha => ?_⟩
  · exact ⟨_, exec_portEnable_open hb v, by
      rw [State.portCtrlWrite_enables hn hc he hv]
      exact State.rd_portCtrlSet_startPort hv hl hs hcut⟩
  · refine ⟨_, exec_portEnable_open hb v, ?_⟩
    rw [State.portCtrlWrite_disables hn hc he hv hm ht, State.rd_enable_closePort, State.rd_enable_portCtrlSet, hv]
    exact ⟨rfl, State.rd_state_closePort _ n⟩
  · exact ⟨_, exec_portBringupDone_failed hn h0 h6 hf, State.rd_state_setStep _ n (by decide)⟩
  · rintro rfl hst
    have hlt : 0 < s.rd (.lnkPortStatusState n) ∧ s.rd (.lnkPortStatusState n) < 5 := by omega
    have hello : s.rd (.lnkPortStatusState n) = 4 → (s.port n).helloed = true := fun h4 => by
      obtain ⟨-, hlt4⟩ | ⟨-, hh⟩ := hst
      · omega
      · exact hh
    exact ⟨_, exec_portBringupDone_next hn hlt.1 hlt.2 hello, State.rd_state_setStep _ n (by omega)⟩
  · rintro rfl h5 hh
    obtain ⟨t, hexec, hrd, hport, hevent⟩ := exec_portBringupDone_opens hn lanes h5 hh
    obtain ⟨hcredits, hretrain⟩ := s.port_portOpened n (laneMask lanes)
    exact ⟨t, hexec, by rw [hrd, State.rd_state_portOpened], by rw [hport, hcredits], by rw [hport, hretrain],
      by rw [hrd]; exact State.rd_lanes_wr _ n (laneMask_lt lanes), hevent⟩
  · obtain ⟨hexec, hport⟩ := exec_takesDown hn h
    exact ⟨q.portLost n step, _, hexec, State.portDown_reroutes step hport, q.portLost_down n step⟩
  · obtain ⟨hnak, hdis, hinbox⟩ := (s.count (Reg.lnkPortCnt n 1) 1).flitBad_owes n
    exact ⟨_, exec_flitReceive_undecoded hn hu hd, hnak, hdis, by rw [hinbox, State.inbox_count]⟩
  · obtain ⟨hnak, hdis, hinbox⟩ := ((s.count (Reg.lnkPortCnt n 1) 1).count (Reg.lnkPortCnt n 2) fixed).flitBad_owes n
    exact ⟨_, exec_flitReceive_badCrc hn hu hd hcrc, hnak, hdis, by rw [hinbox, State.inbox_count, State.inbox_count]⟩
  · obtain ⟨hack, hnak⟩ := s.port_flitTaken n l fixed
    exact ⟨s.flitTaken n l fixed, _, exec_flitReceive_taken hn hu hd hcrc hk hq, by rw [State.port_msgsIn, hack],
      by rw [State.port_msgsIn, hnak], s.inbox_flitTaken n l fixed, rfl⟩
  · obtain ⟨p, l, hexec⟩ := exec_ackTimer_sends hn hu ha
    exact ⟨_, hexec, by rw [State.port_flitOut], by rw [State.dtime_flitOut]; exact Nat.le_max_right .., _, State.out_flitOut ..⟩

end Sys2Proof.Machine

/-!
PROOFS. The 48-bit counters (R413, R417): they add below their limit, hold at it and tell of it once (O8).
-/
namespace Sys2Proof.Machine

section
variable (s : State) (a n : Nat)

theorem State.count_saturated (h : (s.reg a).field 63 1 = 1) : s.count a n = s := by
  rw [State.count_eq, if_pos h]

/-- The state with a counter at its limit and SAT, before the event. -/
def State.saturate (s : State) (a : Nat) : State := (s.wr ⟨a, 0, 48⟩ countMax).wr ⟨a, 63, 1⟩ 1

/-- At its limit a counter saturates and tells of it. -/
theorem State.count_reaches (h1 : (s.reg a).field 63 1 ≠ 1) (h2 : countMax ≤ (s.reg a).field 0 48 + n) :
    s.count a n = (s.saturate a).raise .dbgCounterSat (s.counterUnit a).1 (s.counterUnit a).2 (payload [(16, 8, a)]) := by
  rw [State.count_eq, if_neg h1, if_neg (Nat.not_lt.2 h2)]
  rfl

theorem State.events_saturate : (s.saturate a).events = s.events := by
  rw [State.saturate, State.events_wr, State.events_wr]

theorem State.dtime_saturate : (s.saturate a).dtime = s.dtime := by
  rw [State.saturate, State.dtime_wr, State.dtime_wr]

theorem State.reg_saturate : ((s.saturate a).reg a).field 0 48 = countMax ∧ ((s.saturate a).reg a).field 63 1 = 1 := by
  constructor
  · exact (State.rd_wr_ne _ ⟨a, 63, 1⟩ ⟨a, 0, 48⟩ _ (.inr (of_decide_eq_true rfl))).trans
      (State.rd_wr_self _ ⟨a, 0, 48⟩ _ (of_decide_eq_true rfl))
  · exact State.rd_wr_self _ ⟨a, 63, 1⟩ _ (of_decide_eq_true rfl)

/-- Below its limit a counter shows the sum, and SAT stays as it is. -/
theorem State.reg_count_below (h1 : (s.reg a).field 63 1 ≠ 1) (h2 : (s.reg a).field 0 48 + n < countMax) :
    ((s.count a n).reg a).field 0 48 = (s.reg a).field 0 48 + n ∧ ((s.count a n).reg a).field 63 1 = (s.reg a).field 63 1 := by
  rw [s.count_below a n h1 h2]
  constructor
  · exact (State.rd_wr_self _ ⟨a, 0, 48⟩ _ (of_decide_eq_true rfl)).trans
      (Nat.mod_eq_of_lt (h2.trans (show countMax < 2 ^ 48 by decide)))
  · exact State.rd_wr_ne _ ⟨a, 0, 48⟩ ⟨a, 63, 1⟩ _ (.inr (of_decide_eq_true rfl))

theorem payload_whole (v : Nat) : payload [(16, 8, v)] = v % 2 ^ 64 := by
  simp [payload]

end

/-- Settles O8: a counter adds, saturates or is saturated, and each of the three equations gives its register and its event. -/
theorem countersSaturate : Obligations.CountersSaturate := by
  refine fun s a n => ⟨fun b hb => s.reg_count_ne n (List.ne_of_not_mem_cons hb).symm,
    (State.count_touches s a n (.lit rfl) (.refl s)).onlyChanges, fun h0 hlt => ?_, fun h0 hle => ?_, s.count_saturated a n⟩
  · have h1 : (s.reg a).field 63 1 ≠ 1 := by omega
    obtain ⟨hcount, hsat⟩ := s.reg_count_below a n h1 hlt
    exact ⟨hcount, hsat.trans h0, by rw [s.count_below a n h1 hlt, State.events_wr]⟩
  · have h1 : (s.reg a).field 63 1 ≠ 1 := by omega
    obtain ⟨hcount, hsat⟩ := s.reg_saturate a
    rw [s.count_reaches a n h1 hle, State.reg_raise]
    exact ⟨hcount, hsat, _, _, by rw [State.events_raise, State.events_saturate, State.dtime_saturate, payload_whole]; rfl⟩

end Sys2Proof.Machine

/-!
PROOFS. The mailboxes (R371 to R376): what a message register, GO and the acknowledge do for the ends of a channel, and what they
deny to others (O48).
-/
namespace Sys2Proof.Machine

section
variable {s : State} {c id : Nat}

/-! ## The ends of a channel (R374) -/

theorem State.fuse5_congr {t : State} {a lo : Nat} (h : ∀ n, n ≤ lo / 64 + 1 → t.reg (a + 8 * n) = s.reg (a + 8 * n)) :
    t.fuse5 a lo = s.fuse5 a lo := by
  simp only [State.fuse5]
  rw [h _ (Nat.le_succ _), h _ (Nat.le_refl _)]

theorem State.fuse5_lt (s : State) (a lo : Nat) : s.fuse5 a lo < 32 := Nat.mod_lt _ (by decide)

theorem State.mbxSender_lt (s : State) (c : Nat) : s.mbxSender c < 32 := by
  unfold State.mbxSender
  split
  · decide
  · exact s.fuse5_lt ..

theorem State.mbxReceiver_lt (s : State) (c : Nat) : s.mbxReceiver c < 32 := by
  unfold State.mbxReceiver
  split
  · decide
  · exact s.fuse5_lt ..

/-- The bindings stand in fuse registers, below the mailboxes. -/
theorem State.mbxEnds_congr {t : State} (hc : c < 32) (h : ∀ a, a < 0xB00000 → t.reg a = s.reg a) :
    t.mbxSender c = s.mbxSender c ∧ t.mbxReceiver c = s.mbxReceiver c := by
  have hfuse (lo : Nat) (hlo : lo < 320) : t.fuse5 (Reg.refFuseBind 0) lo = s.fuse5 (Reg.refFuseBind 0) lo :=
    State.fuse5_congr fun n hn => h _ (by unfold Reg.refFuseBind; omega)
  unfold State.mbxSender State.mbxReceiver
  rw [hfuse (10 * c) (by omega), hfuse (10 * c + 5) (by omega)]
  exact ⟨rfl, rfl⟩

/-! ## The bits of MBX_RX_PEND (R376) -/

theorem State.regs_mbxInterrupt (s : State) (r : Nat) : (s.mbxInterrupt r).regs = s.regs :=
  (State.mbxInterrupt_touches s r (.refl _) (.refl s)).1 .regs rfl

theorem State.reg_mbxRise (s : State) (r b a : Nat) : (s.mbxRise r b).reg a =
    if r ≤ 1 ∨ r ≥ 32 ∨ (s.reg (Reg.mbxRxPend r)).field b 1 = 1 then s.reg a
    else (s.setReg (Reg.mbxRxPend r) ((s.reg (Reg.mbxRxPend r)).setField b 1 1)).reg a := by
  unfold State.mbxRise
  split
  · rfl
  · dsimp only
    split
    · exact State.reg_congr (State.regs_mbxInterrupt ..) a
    · rfl

theorem State.reg_mbxFall (s : State) (r b a : Nat) : (s.mbxFall r b).reg a =
    if r ≤ 1 ∨ r ≥ 32 then s.reg a else (s.setReg (Reg.mbxRxPend r) ((s.reg (Reg.mbxRxPend r)).setField b 1 0)).reg a := by
  unfold State.mbxFall
  split <;> rfl

/-- Of the registers a risen or fallen bit changes only those of MBX_RX_PEND. -/
theorem State.reg_mbxRise_above (s : State) (r b : Nat) {a : Nat} (h : 0xB00400 ≤ a) : (s.mbxRise r b).reg a = s.reg a := by
  rw [State.reg_mbxRise]
  split
  · rfl
  · exact s.reg_setReg_ne _ (by unfold Reg.mbxRxPend; omega)

theorem State.reg_mbxFall_above (s : State) (r b : Nat) {a : Nat} (h : 0xB00400 ≤ a) : (s.mbxFall r b).reg a = s.reg a := by
  rw [State.reg_mbxFall]
  split
  · rfl
  · exact s.reg_setReg_ne _ (by unfold Reg.mbxRxPend; omega)

theorem State.mbxRise_sets (s : State) {r b : Nat} (h2 : 2 ≤ r) (hr : r < 32) (hb : b < 64) :
    ((s.mbxRise r b).reg (Reg.mbxRxPend r)).field b 1 = 1 := by
  rw [State.reg_mbxRise]
  split
  · next h =>
    obtain h | h | h := h
    · omega
    · omega
    · exact h
  · rw [State.reg_setReg_self, Word.field_setField _ _ _ _ hb]
    rfl

theorem State.mbxFall_clears (s : State) {r b : Nat} (h2 : 2 ≤ r) (hr : r < 32) (hb : b < 64) :
    ((s.mbxFall r b).reg (Reg.mbxRxPend r)).field b 1 = 0 := by
  rw [State.reg_mbxFall, if_neg (by omega), State.reg_setReg_self, Word.field_setField _ _ _ _ hb]
  rfl

/-- Another bit of any identity keeps its value. -/
theorem State.mbxRise_keeps (s : State) (r q : Nat) {b k : Nat} (hk : k < 64) (h : k ≠ b) :
    ((s.mbxRise r b).reg (Reg.mbxRxPend q)).field k 1 = (s.reg (Reg.mbxRxPend q)).field k 1 := by
  rw [State.reg_mbxRise]
  split
  · rfl
  · by_cases hq : Reg.mbxRxPend r = Reg.mbxRxPend q
    · rw [← hq, State.reg_setReg_self, Word.field_setField_ne _ _ _ _ _ _ (by omega) hk]
    · rw [State.reg_setReg_ne _ _ hq]

/-! ## Posting and acknowledging (R375) -/

/-- The state after channel `c` has been posted. -/
def State.mbxPost (s : State) (c : Nat) : State :=
  ((s.wr (.mbxChCtrlGo c) 1).wr (.mbxChAckValid c) 0).mbxRise (s.mbxReceiver c) c

theorem mbxChCtrl_ne_mbxChAck (c : Nat) : Reg.mbxChCtrl c ≠ Reg.mbxChAck c := by
  unfold Reg.mbxChCtrl Reg.mbxChAck
  omega

theorem State.isPosted_mbxPost (s : State) (c : Nat) : (s.mbxPost c).isPosted c = true := by
  have hreg : (s.mbxPost c).reg (Reg.mbxChCtrl c) = (s.wr (.mbxChCtrlGo c) 1).reg (Reg.mbxChCtrl c) := by
    rw [State.mbxPost, State.reg_mbxRise_above _ _ _ (by unfold Reg.mbxChCtrl; omega)]
    exact State.reg_wr_ne _ _ (mbxChCtrl_ne_mbxChAck c).symm
  have hgo : (s.mbxPost c).rd (.mbxChCtrlGo c) = 1 :=
    (congrArg (Word.field · 0 1) hreg).trans (s.rd_wr_self (.mbxChCtrlGo c) 1 (of_decide_eq_true rfl))
  exact decide_eq_true hgo

theorem State.valid_mbxPost (s : State) (c : Nat) : (s.mbxPost c).rd (.mbxChAckValid c) = 0 :=
  (congrArg (Word.field · 16 1) (State.reg_mbxRise_above _ _ _ (show 0xB00400 ≤ Reg.mbxChAck c by unfold Reg.mbxChAck; omega))).trans
    (State.rd_wr_self _ (.mbxChAckValid c) 0 (of_decide_eq_true rfl))

theorem State.reg_msg_mbxPost (s : State) (c i : Nat) (hi : i < 16) : (s.mbxPost c).reg (Reg.mbxChMsg 0 i) = s.reg (Reg.mbxChMsg 0 i) := by
  rw [State.mbxPost, State.reg_mbxRise_above _ _ _ (by unfold Reg.mbxChMsg; omega),
    State.reg_wr_ne _ _ (show Reg.mbxChAck c ≠ _ by unfold Reg.mbxChAck Reg.mbxChMsg; omega),
    State.reg_wr_ne _ _ (show Reg.mbxChCtrl c ≠ _ by unfold Reg.mbxChCtrl Reg.mbxChMsg; omega)]

/-- The registers of channel `c` acknowledged with a code, before the bits of MBX_RX_PEND. -/
def State.mbxAckSet (s : State) (c code : Nat) : State :=
  (s.wr (.mbxChCtrlGo c) 0).setReg (Reg.mbxChAck c) (BitVec.ofNat 64 (code % 65536 + 65536))

theorem State.mbxAcknowledge_eq (s : State) (code : Nat) (hc : c < 32) : s.mbxAcknowledge c code =
    ((s.mbxAckSet c code).mbxFall (s.mbxReceiver c) c).mbxRise (s.mbxSender c) (32 + c) := by
  obtain ⟨hs, hr⟩ := State.mbxEnds_congr (s := s) (t := s.mbxAckSet c code) hc fun a ha => by
    rw [State.mbxAckSet, State.reg_setReg_ne _ _ (by unfold Reg.mbxChAck; omega),
      State.reg_wr_ne _ _ (show Reg.mbxChCtrl c ≠ _ by unfold Reg.mbxChCtrl; omega)]
  rw [← hs, ← hr]
  rfl

theorem State.reg_mbxAcknowledge_above (s : State) (code : Nat) (hc : c < 32) {a : Nat} (h : 0xB00400 ≤ a) :
    (s.mbxAcknowledge c code).reg a = (s.mbxAckSet c code).reg a := by
  rw [s.mbxAcknowledge_eq code hc, State.reg_mbxRise_above _ _ _ h, State.reg_mbxFall_above _ _ _ h]

/-- A message register keeps its value. -/
theorem State.reg_msg_mbxAcknowledge (s : State) (code : Nat) {i : Nat} (hi : i < 16) :
    (s.mbxAcknowledge 0 code).reg (Reg.mbxChMsg 0 i) = s.reg (Reg.mbxChMsg 0 i) := by
  rw [State.reg_mbxAcknowledge_above _ _ (by decide) (by unfold Reg.mbxChMsg; omega), State.mbxAckSet,
    State.reg_setReg_ne _ _ (by unfold Reg.mbxChAck Reg.mbxChMsg; omega),
    State.reg_wr_ne _ _ (show Reg.mbxChCtrl 0 ≠ _ by unfold Reg.mbxChCtrl Reg.mbxChMsg; omega)]

theorem State.reg_ack_mbxAcknowledge (s : State) (code : Nat) (hc : c < 32) :
    (s.mbxAcknowledge c code).reg (Reg.mbxChAck c) = BitVec.ofNat 64 (code % 65536 + 65536) := by
  rw [s.reg_mbxAcknowledge_above code hc (by unfold Reg.mbxChAck; omega)]
  exact State.reg_setReg_self ..

theorem State.isPosted_mbxAcknowledge (s : State) (code : Nat) (hc : c < 32) : (s.mbxAcknowledge c code).isPosted c = false := by
  have hreg : (s.mbxAcknowledge c code).reg (Reg.mbxChCtrl c) = (s.wr (.mbxChCtrlGo c) 0).reg (Reg.mbxChCtrl c) := by
    rw [s.reg_mbxAcknowledge_above code hc (by unfold Reg.mbxChCtrl; omega)]
    exact State.reg_setReg_ne _ _ (mbxChCtrl_ne_mbxChAck c).symm
  have hgo : (s.mbxAcknowledge c code).rd (.mbxChCtrlGo c) = 0 :=
    (congrArg (Word.field · 0 1) hreg).trans (s.rd_wr_self (.mbxChCtrlGo c) 0 (of_decide_eq_true rfl))
  exact decide_eq_false (by rw [hgo]; decide)

/-- The receiver's bit falls, and the sender's rises: they are two bits even where both ends are one identity. -/
theorem State.pend_mbxAcknowledge (s : State) (code : Nat) (hc : c < 32) :
    (2 ≤ s.mbxReceiver c → ((s.mbxAcknowledge c code).reg (Reg.mbxRxPend (s.mbxReceiver c))).field c 1 = 0) ∧
    (2 ≤ s.mbxSender c → ((s.mbxAcknowledge c code).reg (Reg.mbxRxPend (s.mbxSender c))).field (32 + c) 1 = 1) := by
  rw [s.mbxAcknowledge_eq code hc]
  refine ⟨fun h2 => ?_, fun h2 => State.mbxRise_sets _ h2 (s.mbxSender_lt c) (by omega)⟩
  rw [State.mbxRise_keeps _ _ _ (by omega) (by omega), State.mbxFall_clears _ h2 (s.mbxReceiver_lt c) (by omega)]

/-! ## What each row comes to -/

theorem mem_events_mbxDenied (s : State) (c id : Nat) (w : Bool) : ∃ e ∈ (s.mbxDenied c id w).events,
    e.code = Code.mgtMbxDenied.val ∧ e.payload = payload [(16, 1, c), (17, 1, id), (18, 1, flag w)] :=
  State.mem_events_raise ..

section
variable (hc : c < 32) (hb : c ≠ 0 → s.barShut false = false)
include hb

theorem mbx_answers : ¬(c ≠ 0 ∧ s.barShut false = true) := fun h => by simp [hb h.1] at h

include hc

theorem exec_mbxMsgWrite_writes {i : Nat} (v : Nat) (hi : i < 16) (hu : s.mbxUsable c = true)
    (h : id = s.mbxSender c ∧ s.isPosted c = false ∨ id = s.mbxReceiver c ∧ s.isPosted c = true) :
    exec (.mbxMsgWrite id c i v) s = .next (s.setReg (Reg.mbxChMsg c i) (BitVec.ofNat 64 v)) :=
  (if_neg (mbx_answers hb)).trans ((if_neg (by omega)).trans (if_pos ⟨hu, h⟩))

theorem exec_mbxMsgWrite_denied {i : Nat} (v : Nat) (hi : i < 16)
    (h : s.mbxUsable c = false ∨ (id ≠ s.mbxSender c ∧ id ≠ s.mbxReceiver c)) :
    exec (.mbxMsgWrite id c i v) s = .next (s.mbxDenied c id true) := by
  refine (if_neg (mbx_answers hb)).trans ((if_neg (by omega)).trans (if_neg ?_))
  rintro ⟨hu, hend⟩
  obtain h | ⟨hs, hr⟩ := h
  · simp [h] at hu
  · exact hend.elim (fun x => hs x.1) (fun x => hr x.1)

theorem exec_mbxGo_denied (h : s.mbxUsable c = false ∨ id ≠ s.mbxSender c) :
    exec (.mbxGo id c) s = .next (s.mbxDenied c id true) :=
  (if_neg (mbx_answers hb)).trans ((if_neg (Nat.not_le.2 hc)).trans (if_pos h))

/-- GO of the sender of a usable channel: it is busy, or posted, or posted and answered at once. -/
theorem exec_mbxGo_sender (hu : s.mbxUsable c = true) (hid : id = s.mbxSender c) :
    exec (.mbxGo id c) s = if s.isPosted c then .next (s.raise .mgtMbxBusy (unitMailbox c) noPart (payload [(16, 1, c)]))
      else if c = 0 ∧ reqKnown ((s.reg (Reg.mbxChMsg 0 0)).field 0 8) = false then
        .next ((((s.mbxPost c).reqInvalid ((s.reg (Reg.mbxChMsg 0 0)).field 0 8) 1).mbxAcknowledge 0 Code.mgtReqInvalid.val).count
          (Reg.refCnt 2) 1)
      else .next (s.mbxPost c) := by
  have hmsg := s.reg_msg_mbxPost c 0 (by decide)
  rw [← hmsg]
  exact (if_neg (mbx_answers hb)).trans ((if_neg (Nat.not_le.2 hc)).trans (if_neg (by simp [hu, hid])))

theorem exec_mbxAck_acks (code : Nat) (hu : s.mbxUsable c = true) (hid : id = s.mbxReceiver c) (hp : s.isPosted c = true) :
    exec (.mbxAck id c code) s = .next (s.mbxAcknowledge c code) :=
  (if_neg (mbx_answers hb)).trans ((if_neg (Nat.not_le.2 hc)).trans (if_pos ⟨hu, hid, hp⟩))

theorem exec_mbxAck_denied (code : Nat) (h : s.mbxUsable c = false ∨ (id ≠ s.mbxSender c ∧ id ≠ s.mbxReceiver c)) :
    exec (.mbxAck id c code) s = .next (s.mbxDenied c id true) := by
  refine (if_neg (mbx_answers hb)).trans ((if_neg (Nat.not_le.2 hc)).trans (if_neg ?_))
  rintro ⟨hu, hr, -⟩
  obtain h | h := h
  · simp [h] at hu
  · exact h.2 hr

theorem exec_mbxDeniedRead_denied (h : s.mbxUsable c = false ∨ (id ≠ s.mbxSender c ∧ id ≠ s.mbxReceiver c)) :
    exec (.mbxDeniedRead id c) s = .next ((s.mbxDenied c id false).setOut (s.out ++ [Output.readReply (some 0)])) := by
  refine (if_neg (mbx_answers hb)).trans (if_neg ?_)
  rintro (hc' | ⟨hu, hend⟩)
  · omega
  · obtain h | ⟨hs, hr⟩ := h
    · simp [h] at hu
    · exact hend.elim hs hr

end

theorem State.mbxUsable_zero (s : State) : s.mbxUsable 0 = true := rfl

/-- An unknown request on channel 0 is posted and acknowledged with MGT_REQ_INVALID at once (R378). -/
theorem exec_mbxGo_unknown (hp : s.isPosted 0 = false) (hk : reqKnown ((s.reg (Reg.mbxChMsg 0 0)).field 0 8) = false) :
    ∃ t, exec (.mbxGo idPf 0) s = .next t ∧ t.isPosted 0 = false ∧
      t.reg (Reg.mbxChAck 0) = BitVec.ofNat 64 (Code.mgtReqInvalid.val % 65536 + 65536) := by
  have hexec := exec_mbxGo_sender (s := s) (c := 0) (id := idPf) (by decide) (fun h => absurd rfl h) s.mbxUsable_zero rfl
  rw [hp, if_neg Bool.false_ne_true, if_pos ⟨rfl, hk⟩] at hexec
  refine ⟨_, hexec, ?_, ?_⟩
  · rw [State.isPosted, State.rdBit, State.rd_count_ne _ _ (by decide)]
    exact State.isPosted_mbxAcknowledge _ _ (by decide)
  · rw [State.reg_count_ne _ _ (by decide)]
    exact State.reg_ack_mbxAcknowledge _ _ (by decide)

end

/-- Settles O48: each access has the equation of its outcome, and the acknowledge's bits are read after the fall and the rise. -/
theorem mailboxesCarryMessages : Obligations.MailboxesCarryMessages := by
  refine fun s id c hc hb => ⟨fun hu => ⟨fun i v hi hend => ?_, fun hid hp hk => ?_, fun hid hp => ?_, fun code hid hp => ?_⟩,
    ?_, fun hf => ⟨fun i v hi => ?_, ?_, fun code => ?_, ?_⟩⟩
  · exact ⟨_, exec_mbxMsgWrite_writes hc hb v hi hu hend, State.reg_setReg_self .., fun a ha => s.reg_setReg_ne _ ha.symm⟩
  · have hexec := exec_mbxGo_sender hc hb hu hid
    rw [hp, if_neg Bool.false_ne_true, if_neg (fun h => by simp [hk h.1] at h)] at hexec
    exact ⟨_, hexec, s.isPosted_mbxPost c, s.valid_mbxPost c,
      fun h2 => State.mbxRise_sets _ h2 (s.mbxReceiver_lt c) (by omega)⟩
  · have hexec := exec_mbxGo_sender hc hb hu hid
    rw [hp, if_pos rfl] at hexec
    obtain ⟨e, hmem, hcode, -⟩ := s.mem_events_raise .mgtMbxBusy (unitMailbox c) noPart (payload [(16, 1, c)])
    exact ⟨_, hexec, rfl, e, hmem, hcode⟩
  · obtain ⟨hfall, hrise⟩ := s.pend_mbxAcknowledge code hc
    exact ⟨_, exec_mbxAck_acks hc hb code hu hid hp, s.isPosted_mbxAcknowledge code hc, s.reg_ack_mbxAcknowledge code hc, hfall, hrise⟩
  · rintro rfl rfl hp hk
    exact exec_mbxGo_unknown hp hk
  · exact ⟨_, exec_mbxMsgWrite_denied hc hb v hi hf, rfl, mem_events_mbxDenied ..⟩
  · exact ⟨_, exec_mbxGo_denied hc hb (hf.imp_right And.left), rfl, mem_events_mbxDenied ..⟩
  · exact ⟨_, exec_mbxAck_denied hc hb code hf, rfl, mem_events_mbxDenied ..⟩
  · exact ⟨_, exec_mbxDeniedRead_denied hc hb hf, ⟨rfl, mem_events_mbxDenied ..⟩, rfl⟩

end Sys2Proof.Machine

/-!
PROOFS. The requests to the referee (R378, Table 14-9): how they are answered, when they fail, and what each of them does (O49).
-/
namespace Sys2Proof.Machine

section
variable {s : State}

/-! ## Registers written one after another -/

/-- Registers written in a row at different addresses hold what was written. -/
theorem State.reg_foldl_setReg {g : Nat → Nat} (hg : Function.Injective g) (v : Nat → Word) (s : State) (n a : Nat) :
    (∀ i < n, a = g i → ((List.range n).foldl (fun (s : State) i => s.setReg (g i) (v i)) s).reg a = v i) ∧
    ((∀ i < n, a ≠ g i) → ((List.range n).foldl (fun (s : State) i => s.setReg (g i) (v i)) s).reg a = s.reg a) := by
  induction n with
  | zero => exact ⟨fun i hi => absurd hi (Nat.not_lt_zero i), fun _ => rfl⟩
  | succ n ih =>
    obtain ⟨ihin, ihout⟩ := ih
    rw [List.range_succ, List.foldl_append, List.foldl_cons, List.foldl_nil, State.reg_setReg]
    refine ⟨fun i hi ha => ?_, fun ha => ?_⟩
    · by_cases e : g n = a
      · rw [if_pos e, hg (e.trans ha)]
      · have hne : i ≠ n := fun h => e (by rw [ha, h])
        rw [if_neg e, ihin i (by omega) ha]
    · rw [if_neg (ha n (Nat.lt_succ_self n)).symm, ihout fun i hi => ha i (hi.trans (Nat.lt_succ_self n))]

theorem mbxChMsg_data_injective : Function.Injective (fun i => Reg.mbxChMsg 0 (i + 1)) := fun i j h => by
  simp only [Reg.mbxChMsg] at h
  omega

/-! ## Answers (R378) -/

/-- The state with the message registers of channel 0 as an answer puts them. -/
def State.reqAnswer (s : State) (req len data : Nat) : State :=
  (List.range ((len + 7) / 8)).foldl (fun (s : State) i => s.setReg (Reg.mbxChMsg 0 (i + 1)) (BitVec.ofNat 64 (data / 2 ^ (64 * i))))
    ((s.count (Reg.refCnt 2) 1).setReg (Reg.mbxChMsg 0 0) (BitVec.ofNat 64 (req + s.reqSeq .channel0 * 2 ^ 16 + len * 2 ^ 32)))

theorem State.reqReply_channel0 (req code len data : Nat) :
    s.reqReply .channel0 req code len data = (s.reqAnswer req len data).mbxAcknowledge 0 code := rfl

theorem State.reg_head_reqAnswer (req len data : Nat) : (s.reqAnswer req len data).reg (Reg.mbxChMsg 0 0) =
    BitVec.ofNat 64 (req + s.reqSeq .channel0 * 2 ^ 16 + len * 2 ^ 32) :=
  ((State.reg_foldl_setReg mbxChMsg_data_injective _ _ _ _).2 fun i _ => by unfold Reg.mbxChMsg; omega).trans (State.reg_setReg_self ..)

theorem State.reg_data_reqAnswer (req len data : Nat) {i : Nat} (hi : i < (len + 7) / 8) :
    (s.reqAnswer req len data).reg (Reg.mbxChMsg 0 (i + 1)) = BitVec.ofNat 64 (data / 2 ^ (64 * i)) :=
  (State.reg_foldl_setReg mbxChMsg_data_injective _ _ _ _).1 i hi rfl

theorem State.reqReply_answers_channel0 (req code data : Nat) {len : Nat} (hl : len ≤ 120) :
    let t := s.reqReply .channel0 req code len data
    t.isPosted 0 = false ∧ t.reg (Reg.mbxChAck 0) = BitVec.ofNat 64 (code % 65536 + 65536) ∧
      t.reg (Reg.mbxChMsg 0 0) = BitVec.ofNat 64 (req + s.reqSeq .channel0 * 2 ^ 16 + len * 2 ^ 32) ∧
      ∀ i, i < (len + 7) / 8 → t.reg (Reg.mbxChMsg 0 (i + 1)) = BitVec.ofNat 64 (data / 2 ^ (64 * i)) := by
  dsimp only
  rw [State.reqReply_channel0]
  refine ⟨State.isPosted_mbxAcknowledge _ _ (by decide), State.reg_ack_mbxAcknowledge _ _ (by decide), ?_, fun i hi => ?_⟩
  · rw [State.reg_msg_mbxAcknowledge _ _ (by decide), State.reg_head_reqAnswer]
  · rw [State.reg_msg_mbxAcknowledge _ _ (by omega), State.reg_data_reqAnswer _ _ _ hi]

theorem State.out_reqReply_mctp {path : ReqPath} (h : path ≠ .channel0) (req code len data : Nat) :
    (s.reqReply path req code len data).out = s.out ++
      [Output.mctp 0x7E (req + s.reqSeq path * 2 ^ 16 + len * 2 ^ 32 + code * 2 ^ 64 + data % 256 ^ len * 2 ^ 80) (10 + len)] := by
  cases path with
  | channel0 => exact absurd rfl h
  | mctp => exact congrArg (· ++ _) (s.out_count ..)

/-! ## The order of the checks -/

section
variable {path : ReqPath} {req : Nat} {permit : Permit} {argOk : Bool} {act : State → State}
  (hr : s.reqHere path req = true)
include hr

theorem State.serve_served (hp : s.permits permit = true) (ha : argOk = true) : s.serve path req permit argOk act = act s := by
  rw [State.serve, if_neg (by simp [hr]), if_neg (by simp [hp]), if_neg (by simp [ha])]

theorem State.serve_forbidden (hp : s.permits permit = false) : s.serve path req permit argOk act = s.reqStateFail path req := by
  rw [State.serve, if_neg (by simp [hr]), if_pos hp]

theorem State.serve_badArg (hp : s.permits permit = true) (ha : argOk = false) :
    s.serve path req permit argOk act = s.reqFail path req 2 := by
  rw [State.serve, if_neg (by simp [hr]), if_neg (by simp [hp]), if_pos ha]

end

/-! ## Each request (Table 14-9) -/

section
variable {path : ReqPath}

theorem exec_status_answers (hr : s.reqHere path 1 = true) : exec (.status path) s = .next (s.reqReply path 1 0 32 (recordNat
    [(0, 8, s.viewReady.toNat), (8, 8, (s.reg Reg.refDugout).toNat), (16, 8, s.dtime), (24, 8, (s.reg Reg.refFw).toNat)])) :=
  congrArg Host.Outcome.next (State.serve_served hr rfl rfl)

theorem exec_reset_answers (hr : s.reqHere path 7 = true) :
    exec (.reset path) s = .next ((s.reqReply path 7 0 0 0).fullReset (if path = .channel0 then 1 else 2)) :=
  congrArg Host.Outcome.next (State.serve_served hr rfl rfl)

section
variable {m : List Host.Cell} {size : Nat} (hr : s.reqHere path 2 = true) (hbuf : s.buffer (s.reqArg path / 2 ^ 24) = some (m, size))
  (h3 : s.reqArg path / 2 ^ 24 = 3 → s.rdBit .refReadyReady = true)
include hr hbuf h3

theorem exec_read_checks : exec (.read path) s = .next
    (if s.reqArg path % 2 ^ 24 % 8 = 0 ∧ s.reqArg path % 2 ^ 24 < size then
      s.reqReply path 2 0 120 (natOfBytes (Mem.readBytes m (s.reqArg path % 2 ^ 24) 120)) else s.reqFail path 2 2) := by
  have hp : s.permits (if s.reqArg path / 2 ^ 24 = 3 then .ready else .always) = true := by
    split
    · next h => exact h3 h
    · rfl
  show execRead path s = _
  unfold execRead
  dsimp only
  rw [hbuf, Option.map_some, Option.getD_some]
  by_cases h : s.reqArg path % 2 ^ 24 % 8 = 0 ∧ s.reqArg path % 2 ^ 24 < size
  · rw [if_pos h, State.serve_served hr hp (decide_eq_true h), hbuf, Option.map_some, Option.getD_some]
  · rw [if_neg h, State.serve_badArg hr hp (decide_eq_false h)]

end

theorem exec_attest_builds (hr : s.reqHere path 3 = true) (h : s.rdBit .refReadyReady = true) : exec (.attest path) s =
    .next ((s.setReferee { s.referee with
      attest := recordMem 4096 (s.attestation (s.reqBody path % 256 ^ 32)) }).reqReply path 3 0 0 0) :=
  congrArg Host.Outcome.next (State.serve_served hr h rfl)

theorem exec_attest_forbidden (hr : s.reqHere path 3 = true) (h : s.rdBit .refReadyReady = false) :
    exec (.attest path) s = .next (s.reqStateFail path 3) :=
  congrArg Host.Outcome.next (State.serve_forbidden hr h)

theorem exec_imageBegin_opens (hr : s.reqHere path 4 = true) (hp : s.permits .push = true)
    (h : 12289 ≤ s.reqArg path ∧ s.reqArg path ≤ 1585152) : exec (.imageBegin path) s =
      .next ((s.setReferee ({ s.referee with session := some (s.reqArg path), staged := [], stagedAt := [] })).reqReply path 4 0 0 0) :=
  congrArg Host.Outcome.next (State.serve_served hr hp (decide_eq_true h))

theorem exec_imageBegin_badLength (hr : s.reqHere path 4 = true) (hp : s.permits .push = true)
    (h : s.reqArg path < 12289 ∨ 1585152 < s.reqArg path) : exec (.imageBegin path) s = .next (s.reqFail path 4 2) :=
  congrArg Host.Outcome.next (State.serve_badArg hr hp (decide_eq_false (by omega)))

theorem exec_imageBegin_forbidden (hr : s.reqHere path 4 = true) (hp : s.permits .push = false) :
    exec (.imageBegin path) s = .next (s.reqStateFail path 4) :=
  congrArg Host.Outcome.next (State.serve_forbidden hr hp)

/-- The state with 120 bytes staged at an offset of a session of `n` bytes. -/
def State.stageData (s : State) (o n data : Nat) : State :=
  s.setReferee { s.referee with
    staged := Mem.writeBytes s.referee.staged o ((bytesOfNat 120 data).take (n - o)),
    stagedAt := (List.range 15).foldl (fun (l : List Nat) i => if l.contains (o / 8 + i) then l else (o / 8 + i) :: l) s.referee.stagedAt }

theorem exec_imageData_stages {n : Nat} (hr : s.reqHere path 5 = true) (hs : s.referee.session = some n)
    (hp : s.permits .push = true) (ho : s.reqArg path % 8 = 0 ∧ s.reqArg path < n) :
    exec (.imageData path) s = .next ((s.stageData (s.reqArg path) n (s.reqBody path)).reqReply path 5 0 0 0) := by
  show execImageData path s = _
  rw [execImageData, hs]
  exact congrArg Host.Outcome.next (State.serve_served hr hp (decide_eq_true ho))

theorem exec_imageData_closed (hr : s.reqHere path 5 = true) (hs : s.referee.session = none) :
    exec (.imageData path) s = .next (s.reqStateFail path 5) := by
  show execImageData path s = _
  rw [execImageData, hs]
  exact congrArg Host.Outcome.next (if_pos hr)

section
variable {n : Nat} (hr : s.reqHere path 6 = true) (hs : s.referee.session = some n) (hp : s.permits .push = true)
include hr hs hp

theorem exec_imageEnd_good (h : s.stagedReason n = none) : exec (.imageEnd path) s =
    .next (s.setReferee { s.referee with session := none, writing := true, endPath := some path }) := by
  show execImageEnd path s = _
  rw [execImageEnd, hs]
  dsimp only
  rw [State.serve_served hr hp rfl, h]

theorem exec_imageEnd_bad {r : Nat} (h : s.stagedReason n = some r) : exec (.imageEnd path) s =
    .next (((s.imageInvalid r).setReferee { s.referee with session := none }).reqReply path 6 Code.mgtImageInvalid.val 0 0) := by
  show execImageEnd path s = _
  rw [execImageEnd, hs]
  dsimp only
  rw [State.serve_served hr hp rfl, h]

end

theorem exec_imageEnd_closed (hr : s.reqHere path 6 = true) (hs : s.referee.session = none) :
    exec (.imageEnd path) s = .next (s.reqStateFail path 6) := by
  show execImageEnd path s = _
  rw [execImageEnd, hs]
  exact congrArg Host.Outcome.next (if_pos hr)

theorem exec_railsOff_enters (hr : s.reqHere path 8 = true) (h : s.rdBit .refReadyRecovery = false) :
    exec (.railsOff path) s = .next ((s.reqReply path 8 0 0 0).enterDugout 6 unitReferee 0 0) :=
  congrArg Host.Outcome.next (State.serve_served hr (by rw [State.permits, h]; rfl) rfl)

theorem exec_railsOff_forbidden (hr : s.reqHere path 8 = true) (h : s.rdBit .refReadyRecovery = true) :
    exec (.railsOff path) s = .next (s.reqStateFail path 8) :=
  congrArg Host.Outcome.next (State.serve_forbidden hr (by rw [State.permits, h]; rfl))

theorem exec_svnCommit_ready (ok : Bool) (hr : s.reqHere path 9 = true) (h : s.rdBit .refReadyReady = true) :
    exec (.svnCommit path ok) s = .next (let n := max (s.rd .refFwFusedSvn) (s.rd .refFwSvn)
      if ok then (s.wr .refFwFusedSvn n).reqReply path 9 0 8 n else s.fuseFail path 9 9) :=
  congrArg Host.Outcome.next (State.serve_served hr h rfl)

/-- An SVN of at most 64 fits the fused count. -/
theorem State.rd_fusedSvn_wr (h : s.rd .refFwSvn ≤ 64) :
    (s.wr .refFwFusedSvn (max (s.rd .refFwFusedSvn) (s.rd .refFwSvn))).rd .refFwFusedSvn = max (s.rd .refFwFusedSvn) (s.rd .refFwSvn) := by
  have hlt : s.rd .refFwFusedSvn < 2 ^ 7 := bitsAt_lt ..
  rw [State.rd_wr_self _ _ _ (by decide)]
  exact Nat.mod_eq_of_lt (Nat.max_lt.2 ⟨hlt, h.trans_lt (show 64 < 2 ^ 7 by decide)⟩)

theorem exec_provision_channel0 (ok : Bool) (hr : s.reqHere .channel0 10 = true) :
    exec (.provision .channel0 ok) s = .next (s.reqFail .channel0 10 3) :=
  if_pos ⟨rfl, hr⟩

/-- PROVISION over MCTP of a field that Table 14-7 has: refused where it is closed or not blank, else burned or failed. -/
theorem exec_provision_mctp (ok : Bool) (hr : s.reqHere path 10 = true) (hpath : path ≠ .channel0)
    (h : s.rdBit .refReadyReady = true) {f k : Nat} (hf : s.reqBody path % 256 = f) (hk : s.reqBody path / 256 % 256 = k)
    (hknown : f = 3 ∨ f = 10 ∨ (customerField f k).isSome = true) :
    exec (.provision path ok) s = .next (if s.referee.closed = true ∨ s.fieldBlank f k = false then s.reqStateFail path 10
      else if ok then (s.burnField f k (s.reqBody path / 2 ^ 64)).reqReply path 10 0 0 0 else s.fuseFail path 10 f) := by
  have harg : (decide (f = 3 ∨ f = 10) || (customerField f k).isSome) = true := by
    rw [Bool.or_eq_true, decide_eq_true_eq, or_assoc]
    exact hknown
  subst hf hk
  exact (if_neg fun hc => hpath hc.1).trans (congrArg Host.Outcome.next (State.serve_served hr h harg))

end

end

/-- Settles O49: each request's equation, by the order of the checks, and the registers and the message of an answer. -/
theorem requestsAreServedAndAnswered : Obligations.RequestsAreServedAndAnswered := by
  refine fun s path => ⟨fun req code len data hl => ⟨?_, fun h => State.out_reqReply_mctp h req code len data⟩,
    exec_status_answers, exec_reset_answers, fun hr m size hbuf h3 => ?_,
    fun hr => ⟨exec_attest_builds hr, exec_attest_forbidden hr⟩,
    fun hr => ⟨fun hp => ⟨fun h1 h2 => exec_imageBegin_opens hr hp ⟨h1, h2⟩, exec_imageBegin_badLength hr hp⟩,
      exec_imageBegin_forbidden hr⟩,
    fun hr => ⟨fun n hs hp h8 hn => ⟨_, exec_imageData_stages hr hs hp ⟨h8, hn⟩, rfl, rfl⟩, exec_imageData_closed hr⟩,
    fun hr => ⟨fun n hs hp => ⟨fun hgood => ⟨_, exec_imageEnd_good hr hs hp hgood, rfl, rfl, rfl, rfl⟩,
      fun r hbad => ⟨_, exec_imageEnd_bad hr hs hp hbad, rfl, State.mem_events_raise ..⟩⟩,
      exec_imageEnd_closed hr⟩,
    fun hr => ⟨exec_railsOff_enters hr, exec_railsOff_forbidden hr⟩,
    fun hr h => ⟨⟨_, exec_svnCommit_ready true hr h, State.rd_fusedSvn_wr⟩, exec_svnCommit_ready false hr h⟩,
    fun hr => ⟨?_, fun hpath h hknown => ⟨fun hclosed hblank => ?_, fun hno ok => ?_⟩⟩⟩
  · rintro rfl
    exact State.reqReply_answers_channel0 req code data hl
  · have hexec := exec_read_checks hr hbuf h3
    refine ⟨fun h8 hlt => ?_, fun hbad => ?_⟩
    · rw [hexec, if_pos ⟨h8, hlt⟩]
    · rw [hexec, if_neg (fun h => hbad.elim (fun x => x h.1) (Nat.not_le.2 h.2))]
  · rintro rfl ok
    exact exec_provision_channel0 ok hr
  · have hexec (ok : Bool) := exec_provision_mctp ok hr hpath h rfl rfl hknown
    simp only [hclosed, hblank, Bool.false_eq_true, Bool.true_eq_false, or_self, if_false] at hexec
    exact ⟨hexec true, hexec false⟩
  · rw [exec_provision_mctp ok hr hpath h rfl rfl hknown, if_pos hno]

end Sys2Proof.Machine

/-!
PROOFS. Platform management (R373, R379): each PLDM command has its response, SPDM its answer, and event messages are repeated (O50).
-/
namespace Sys2Proof.Machine

section
variable {s u : State} {inst : Nat}

/-! ## Responses (R379) -/

/-- The bytes of a PLDM response. -/
def pldmBytes (inst type cmd cc : Nat) (data : List Nat) : List (BitVec 8) := ([inst % 32, type, cmd, cc] ++ data).map (BitVec.ofNat 8)

/-- Command `c` answers with one PLDM response in a state whose registers and referee are those of `u`. -/
def State.PldmTold (s u : State) (inst : Nat) (c : Instr) (type cmd cc : Nat) (data : List Nat) : Prop :=
  ∃ t, exec c s = .next t ∧
    t.out = s.out ++ [Output.mctp 1 (natOfBytes (pldmBytes inst type cmd cc data)) (pldmBytes inst type cmd cc data).length] ∧
    t.regs = u.regs ∧ t.referee = u.referee ∧ t.mem = s.mem ∧ t.events = s.events

theorem pldm_not_off (hp : s.referee.power = true) (hr : s.rdBit .refReadyRecovery = false) :
    ¬(s.referee.power = false ∨ s.rdBit .refReadyRecovery = true) := by
  simp [hp, hr]

theorem State.pldm_carried (hp : s.referee.power = true) (hr : s.rdBit .refReadyRecovery = false) (type cmd cc : Nat) (data : List Nat) :
    s.pldm inst type cmd cc data =
      s.setOut (s.out ++ [Output.mctp 1 (natOfBytes (pldmBytes inst type cmd cc data)) (pldmBytes inst type cmd cc data).length]) :=
  if_neg (pldm_not_off hp hr)

/-- PLDM is carried while the referee has power and ROM recovery is not entered. -/
theorem State.pldmOn_carried (hp : s.referee.power = true) (hr : s.rdBit .refReadyRecovery = false) : s.pldmOn = true := by
  rw [State.pldmOn, hp, hr]
  rfl

/-- A response that is sent from a state `u` tells what `u` holds. -/
theorem State.pldmTold_after {c : Instr} {type cmd cc : Nat} {data : List Nat} (hp : u.referee.power = true)
    (hr : u.rdBit .refReadyRecovery = false) (hout : u.out = s.out) (hmem : u.mem = s.mem) (hevents : u.events = s.events)
    (h : exec c s = .next (u.pldm inst type cmd cc data)) : s.PldmTold u inst c type cmd cc data := by
  rw [State.pldm_carried hp hr, hout] at h
  exact ⟨_, h, rfl, rfl, rfl, hmem, hevents⟩

/-- Effecter 12, the module power cap, by the state and the value. -/
theorem exec_setEffecter (v : Nat) : exec (.setNumericEffecterValue inst 12 v) s =
    if s.rdBit .refReadyDugout then .next (s.pldm inst 2 0x31 0x04 [])
    else if v < 1500 ∨ v > 3500 then .next (s.pldm inst 2 0x31 0x02 [])
    else .next ((if s.pldmOn then s.wr .pwrCapModuleCap v else s).pldm inst 2 0x31 0 []) := rfl

/-- Handle 0 names the first record. -/
theorem exec_getPdr_handle (h : Nat) : exec (.getPdr inst h) s = if max h 1 > 12 then .next (s.pldm inst 2 0x51 0x82 [])
    else .next (s.pldm inst 2 0x51 0 (leBytes 4 (if max h 1 = 12 then 0 else max h 1 + 1) ++ leBytes 4 0 ++ [0x05] ++
      leBytes 2 (Config.pdrRecord (max h 1)).length ++ (Config.pdrRecord (max h 1)).map BitVec.toNat)) := by
  have hmax : max h 1 = if h = 0 then 1 else h := by
    split <;> omega
  rw [hmax]
  rfl

section
variable (hp : s.referee.power = true) (hr : s.rdBit .refReadyRecovery = false)
include hp hr

theorem State.pldmTold_same {c : Instr} {type cmd cc : Nat} {data : List Nat} (h : exec c s = .next (s.pldm inst type cmd cc data)) :
    s.PldmTold s inst c type cmd cc data :=
  State.pldmTold_after hp hr rfl rfl rfl h

/-! ## The base commands -/

theorem pldmTold_setTid {tid : Nat} (h0 : tid ≠ 0) (h1 : tid < 255) :
    s.PldmTold (s.setReferee { s.referee with tid := tid }) inst (.setTid inst tid) 0 0x01 0 [] := by
  refine State.pldmTold_after hp hr rfl rfl rfl ((if_neg (by omega)).trans ?_)
  rw [if_pos (State.pldmOn_carried hp hr)]

theorem pldmTold_setTid_bad {tid : Nat} (h : tid = 0 ∨ 255 ≤ tid) : s.PldmTold s inst (.setTid inst tid) 0 0x01 0x02 [] :=
  State.pldmTold_same hp hr (if_pos h)

theorem pldmTold_ofType {type : Nat} (h : type = 0 ∨ type = 2) :
    s.PldmTold s inst (.getPldmVersion inst type) 0 0x03 0 (leBytes 4 0 ++ [0x05] ++ leBytes 4 (pldmVersion type) ++
      leBytes 4 (crc32 ((leBytes 4 (pldmVersion type)).map (BitVec.ofNat 8))).toNat) ∧
    s.PldmTold s inst (.getPldmCommands inst type) 0 0x05 0 (leBytes 32 ((pldmCommands type).foldl (fun n c => n + 2 ^ c) 0)) ∧
    ∀ cmd, (pldmCommands type).contains cmd = false → s.PldmTold s inst (.pldmUnsupported inst type cmd) type cmd 0x05 [] := by
  have htype : pldmType type = true := decide_eq_true h
  refine ⟨State.pldmTold_same hp hr (if_pos htype), State.pldmTold_same hp hr (if_pos htype), fun cmd hcmd => ?_⟩
  exact State.pldmTold_same hp hr ((if_neg (by simp [htype])).trans (if_neg (by simpa using hcmd)))

theorem pldmTold_otherType {type : Nat} (h0 : type ≠ 0) (h2 : type ≠ 2) :
    s.PldmTold s inst (.getPldmVersion inst type) 0 0x03 0x83 [] ∧ s.PldmTold s inst (.getPldmCommands inst type) 0 0x05 0x83 [] ∧
    ∀ cmd, s.PldmTold s inst (.pldmUnsupported inst type cmd) type cmd 0x20 [] := by
  have htype : ¬pldmType type = true := by simp [pldmType, h0, h2]
  exact ⟨State.pldmTold_same hp hr (if_neg htype), State.pldmTold_same hp hr (if_neg htype),
    fun cmd => State.pldmTold_same hp hr (if_pos (Bool.eq_false_iff.2 htype))⟩

/-! ## Events, sensors and the effecter -/

theorem pldmTold_setEventReceiver {m : Nat} (addr : Nat) (h : m ≤ 1) :
    s.PldmTold (s.setReferee { s.referee with receiver := if m = 1 then some addr else none }) inst
      (.setEventReceiver inst m addr) 2 0x04 0 [] := by
  refine State.pldmTold_after hp hr rfl rfl rfl ((if_neg (Nat.not_lt.2 h)).trans ?_)
  rw [if_pos (State.pldmOn_carried hp hr)]

theorem pldmTold_getSensorReading {n : Nat} (h1 : 1 ≤ n) (h10 : n ≤ 10) :
    ∃ now was, s.PldmTold s inst (.getSensorReading inst n) 2 0x11 0 ([(s.sensorValue n).1, if s.sensorOff n then 2 else 0,
      if s.referee.receiver.isSome then 1 else 0, now, was, now] ++
      leBytes (s.sensorValue n).2.1 (if s.sensorOff n then 0 else (s.sensorValue n).2.2)) :=
  ⟨_, _, State.pldmTold_same hp hr (if_neg (by omega))⟩

theorem pldmTold_getSensorReading_none {n : Nat} (h : n = 0 ∨ 10 < n) :
    s.PldmTold s inst (.getSensorReading inst n) 2 0x11 0x80 [] :=
  State.pldmTold_same hp hr (if_pos h)

theorem pldmTold_getStateSensorReadings :
    s.PldmTold s inst (.getStateSensorReadings inst 11) 2 0x21 0 [1, 0, s.stateSensor, s.stateSensor, s.stateSensor] :=
  State.pldmTold_same hp hr rfl

theorem pldmTold_setEffecter {v : Nat} (hd : s.rdBit .refReadyDugout = false) (h1 : 1500 ≤ v) (h2 : v ≤ 3500) :
    s.PldmTold (s.wr .pwrCapModuleCap v) inst (.setNumericEffecterValue inst 12 v) 2 0x31 0 [] := by
  have hrec : (s.wr .pwrCapModuleCap v).rdBit .refReadyRecovery = false := by
    rw [State.rdBit, s.rd_wr_ne _ _ _ (.inl (by decide))]
    exact hr
  refine State.pldmTold_after hp hrec rfl rfl rfl
    ((exec_setEffecter v).trans ((if_neg (by simp [hd])).trans ((if_neg (by omega)).trans ?_)))
  rw [if_pos (State.pldmOn_carried hp hr)]

theorem pldmTold_setEffecter_range {v : Nat} (hd : s.rdBit .refReadyDugout = false) (h : v < 1500 ∨ 3500 < v) :
    s.PldmTold s inst (.setNumericEffecterValue inst 12 v) 2 0x31 0x02 [] :=
  State.pldmTold_same hp hr ((exec_setEffecter v).trans ((if_neg (by simp [hd])).trans (if_pos h)))

theorem pldmTold_setEffecter_dugout (v : Nat) (hd : s.rdBit .refReadyDugout = true) :
    s.PldmTold s inst (.setNumericEffecterValue inst 12 v) 2 0x31 0x04 [] :=
  State.pldmTold_same hp hr ((exec_setEffecter v).trans (if_pos hd))

theorem pldmTold_otherEffecter {n : Nat} (v : Nat) (h : n ≠ 12) :
    s.PldmTold s inst (.setNumericEffecterValue inst n v) 2 0x31 0x80 [] ∧
      s.PldmTold s inst (.getNumericEffecterValue inst n) 2 0x32 0x80 [] :=
  ⟨State.pldmTold_same hp hr (if_pos h), State.pldmTold_same hp hr (if_pos h)⟩

theorem pldmTold_getEffecter : s.PldmTold s inst (.getNumericEffecterValue inst 12) 2 0x32 0
    ([2, 1] ++ leBytes 2 (s.rd .pwrCapModuleCap) ++ leBytes 2 (s.rd .pwrCapModuleCap)) :=
  State.pldmTold_same hp hr rfl

/-! ## The repository -/

theorem pldmTold_getPdrRepositoryInfo :
    ∃ data, s.PldmTold s inst (.getPdrRepositoryInfo inst) 2 0x50 0 ([0] ++ leBytes 26 0 ++ leBytes 4 12 ++ data) := by
  refine ⟨leBytes 4 ((pdrs.map List.length).foldl (· + ·) 0) ++ leBytes 4 ((pdrs.map List.length).foldl max 0) ++ [0], ?_⟩
  rw [← List.append_assoc, ← List.append_assoc]
  exact State.pldmTold_same hp hr rfl

theorem pldmTold_getPdr {h : Nat} (hh : h ≤ 12) : s.PldmTold s inst (.getPdr inst h) 2 0x51 0
    (leBytes 4 (if max h 1 = 12 then 0 else max h 1 + 1) ++ leBytes 4 0 ++ [0x05] ++
      leBytes 2 (Config.pdrRecord (max h 1)).length ++ (Config.pdrRecord (max h 1)).map BitVec.toNat) :=
  State.pldmTold_same hp hr ((exec_getPdr_handle h).trans (if_neg (by omega)))

theorem pldmTold_getPdr_none {h : Nat} (hh : 12 < h) : s.PldmTold s inst (.getPdr inst h) 2 0x51 0x82 [] :=
  State.pldmTold_same hp hr ((exec_getPdr_handle h).trans (if_pos (by omega)))

/-! ## SPDM (R373) -/

theorem exec_spdmRequest_answers (doe pair : Bool) (req : List (BitVec 8)) :
    ∃ t, exec (.spdmRequest doe req pair) s = .next t ∧ t.out = s.out ++ [
      let bs := if pair then [0x14, 0x7F, 0x07, req.getD 1 0] else Config.spdmResponse s.freeCount req
      if doe then Output.doe (natOfBytes bs) bs.length else Output.mctp 5 (natOfBytes bs) bs.length] :=
  ⟨_, if_neg (pldm_not_off hp hr), rfl⟩

end

/-! ## Event messages -/

/-- An event message is dropped when it is acknowledged or has been sent again three times; else it is sent again. -/
theorem exec_pldmEventRetry_found {id : Nat} {e : PldmEvent} (acked : Bool)
    (h : s.referee.platform.find? (fun e => decide (e.id = id)) = some e) :
    exec (.pldmEventRetry id acked) s = (let rest := s.referee.platform.filter (fun x => !(decide (x.id = id)))
      if acked = true ∨ e.tries ≥ 3 then .next (s.setReferee { s.referee with platform := rest })
      else .next ((s.setReferee { s.referee with platform := rest ++ [{ e with tries := e.tries + 1 }] }).setOut
        (s.out ++ [Output.mctp 1 e.bytes e.len]))) := by
  show execPldmEventRetry id acked s = _
  unfold execPldmEventRetry
  dsimp only
  rw [h]

end

/-- Settles O50: each command's response is read off the state that it is sent from. -/
theorem platformManagementIsAnswered : Obligations.PlatformManagementIsAnswered := by
  refine fun s inst hp hr => ⟨State.pldmTold_same hp hr rfl,
    fun tid => ⟨pldmTold_setTid hp hr, pldmTold_setTid_bad hp hr⟩,
    fun type => ⟨pldmTold_ofType hp hr, pldmTold_otherType hp hr⟩,
    State.pldmTold_same hp hr rfl,
    fun addr => ⟨pldmTold_setEventReceiver hp hr (m := 1) addr (Nat.le_refl 1),
      pldmTold_setEventReceiver hp hr (m := 0) addr (Nat.zero_le 1), fun m hm => State.pldmTold_same hp hr (if_pos hm)⟩,
    fun n => ⟨pldmTold_getSensorReading hp hr, pldmTold_getSensorReading_none hp hr,
      fun h11 => State.pldmTold_same hp hr (if_pos h11)⟩,
    pldmTold_getStateSensorReadings hp hr,
    fun v => ⟨pldmTold_setEffecter hp hr, pldmTold_setEffecter_range hp hr, pldmTold_setEffecter_dugout hp hr v,
      fun n => pldmTold_otherEffecter hp hr v⟩,
    pldmTold_getEffecter hp hr, pldmTold_getPdrRepositoryInfo hp hr,
    fun h => ⟨pldmTold_getPdr hp hr, pldmTold_getPdr_none hp hr⟩,
    fun doe req => ⟨exec_spdmRequest_answers hp hr doe true req, ?_⟩,
    fun id e he => ⟨⟨_, (exec_pldmEventRetry_found true he).trans (if_pos (.inl rfl)), rfl, rfl⟩, ?_⟩⟩
  · obtain ⟨t, hexec, hout⟩ := exec_spdmRequest_answers hp hr doe false req
    exact ⟨t, hexec, _, _, hout⟩
  · have hexec := exec_pldmEventRetry_found false he
    by_cases h3 : e.tries < 3
    · rw [if_neg (fun h => h.elim Bool.noConfusion (Nat.not_le.2 h3))] at hexec
      exact ⟨_, hexec, fun _ => ⟨rfl, rfl⟩, fun h => absurd h (Nat.not_le.2 h3)⟩
    · rw [if_pos (.inr (Nat.not_lt.1 h3))] at hexec
      exact ⟨_, hexec, fun h => absurd h h3, fun _ => ⟨rfl, rfl⟩⟩

end Sys2Proof.Machine

/-!
PROOFS. The margin planner (R395 to R398): re-plans start or wait, take effect at their end, and an emergency slows its island (O52).
-/
namespace Sys2Proof.Machine

section
variable {s : State}

/-! ## Asking for a re-plan -/

/-- In `t` a re-plan that was asked for in `s` with reason `r` runs, or waits for the one that runs. -/
def State.PlanAsked (s t : State) (r : Nat) : Prop :=
  t.rd .mgnStatusBusy = 1 ∧ (s.rd .mgnStatusBusy = 0 → t.power.planRun = some r) ∧
    (s.rd .mgnStatusBusy = 1 → t.power.planAsk = some (s.power.planAsk.getD r) ∧ t.power.planRun = s.power.planRun)

theorem State.requestPlan_busy (r : Nat) (h : s.rd .mgnStatusBusy = 1) :
    s.requestPlan r = s.setPower { s.power with planAsk := some (s.power.planAsk.getD r) } :=
  if_pos (State.rdBit_eq_true h)

theorem State.requestPlan_idle (r : Nat) (h : s.rd .mgnStatusBusy = 0) :
    s.requestPlan r = (s.wr .mgnStatusBusy 1).setPower { s.power with planRun := some r } :=
  if_neg (by simp [State.rdBit_eq_false h])

theorem State.rd_busy_cases (s : State) : s.rd .mgnStatusBusy = 0 ∨ s.rd .mgnStatusBusy = 1 := by
  have h : s.rd .mgnStatusBusy < 2 := s.rd_lt .mgnStatusBusy
  omega

theorem State.requestPlan_asked (s : State) (r : Nat) : s.PlanAsked (s.requestPlan r) r := by
  obtain h | h := s.rd_busy_cases
  · rw [State.requestPlan_idle r h]
    refine ⟨?_, fun _ => rfl, fun h1 => absurd (h.symm.trans h1) (by decide)⟩
    rw [State.rd_setPower, State.rd_wr_self _ _ _ (by decide)]
    rfl
  · rw [State.requestPlan_busy r h]
    exact ⟨h, fun h0 => absurd (h0.symm.trans h) (by decide), fun _ => ⟨rfl, rfl⟩⟩

/-- A request changes no field apart from BUSY. -/
theorem State.rd_requestPlan_ne (s : State) (r : Nat) {f : RF}
    (h : Reg.mgnStatus ≠ f.reg ∨ ((f.lo + f.w ≤ 32 ∨ 33 ≤ f.lo) ∧ f.lo + f.w ≤ 64)) : (s.requestPlan r).rd f = s.rd f := by
  obtain hb | hb := s.rd_busy_cases
  · rw [State.requestPlan_idle r hb]
    rw [State.rd_setPower, State.rd_wr_ne _ _ _ _ h]
  · rw [State.requestPlan_busy r hb]
    rfl

theorem State.events_requestPlan (s : State) (r : Nat) : (s.requestPlan r).events = s.events :=
  (State.requestPlan_touches s r (.refl _) (.refl s)).1 .events rfl

theorem State.dtime_requestPlan (s : State) (r : Nat) : (s.requestPlan r).dtime = s.dtime :=
  (State.requestPlan_touches s r (.refl _) (.refl s)).1 .dtime rfl

theorem exec_mgnReplan_asks (h : s.barShut false = false) : exec .mgnReplan s = .next (s.requestPlan 3) :=
  if_neg (by simp [h])

theorem exec_replanInterval_asks (h : s.rd .refReadyReady = 1) : exec .replanInterval s =
    .next ((s.setDtime (max s.dtime (s.power.planAt + s.rd .mgnCtrlIntervalH * 3600000000000))).requestPlan 2) :=
  if_neg (by simp [State.rdBit_eq_true h])

/-! ## The islands of a plan -/

/-- The state with FMAX of an island, and what its clock shows, by new voltages. -/
def State.showFmax (s : State) (k : Nat) (vs : List Nat) : State := (s.wr (.pwrIslandFmax k) (fmaxOf vs)).showIsland k

theorem State.rd_fmax_showIsland (s : State) (j k : Nat) : (s.showIsland j).rd (.pwrIslandFmax k) = s.rd (.pwrIslandFmax k) := by
  unfold State.showIsland
  rw [State.rd_wr_ne _ _ _ _ (.inr (of_decide_eq_true rfl)), State.rd_wr_ne _ _ _ _ (.inr (of_decide_eq_true rfl))]

theorem State.rd_fmax_showFmax (s : State) (j k : Nat) (vs : List Nat) :
    (s.showFmax j vs).rd (.pwrIslandFmax k) = if j = k then fmaxOf vs % 16 else s.rd (.pwrIslandFmax k) := by
  rw [State.showFmax, State.rd_fmax_showIsland]
  split
  · next h =>
    subst h
    exact s.rd_wr_self _ _ (of_decide_eq_true rfl)
  · next h => exact s.rd_wr_ne _ _ _ (.inl (show Reg.pwrIsland j ≠ Reg.pwrIsland k by unfold Reg.pwrIsland; omega))

theorem State.rd_fmax_foldl_showFmax (s : State) (vs : Nat → List Nat) (n : Nat) {k : Nat} (hk : k < n) :
    ((List.range n).foldl (fun (s : State) k => s.showFmax k (vs k)) s).rd (.pwrIslandFmax k) = fmaxOf (vs k) % 16 := by
  induction n with
  | zero => exact absurd hk (Nat.not_lt_zero k)
  | succ n ih =>
    rw [List.range_succ, List.foldl_append, List.foldl_cons, List.foldl_nil, State.rd_fmax_showFmax]
    split
    · next h => rw [h]
    · exact ih (by omega)

theorem getD_map_islands {α : Type} (f : Nat → α) (d : α) {k : Nat} (hk : k < 32) : (islands.map f).getD k d = f k := by
  simp [islands, hk]

/-! ## A plan takes effect -/

/-- The state with PLAN_SEQ and the reason of a plan shown. -/
def State.planShows (s : State) (seq reason : Nat) : State :=
  (s.wr .mgnStatusPlanSeq seq).wr .mgnStatusReason reason

/-- The state after a plan that took effect now has been counted, and MARGIN_PLAN raised. -/
def State.planTold (s : State) (seq reason changed marked : Nat) : State :=
  ((s.count (Reg.mgnCnt 0) 1).setPower { s.power with planAt := s.dtime }).raise .marginPlan unitReferee noPart
    (payload [(16, 4, seq), (20, 1, reason), (21, 1, changed), (22, 1, marked)])

/-- A plan's last effects: FMAX of every island, then what it shows and tells. -/
theorem State.applyPlan_ends (s : State) (x : PlanInput) (reason : Nat) : ∃ (w : State) (seq c m : Nat), s.applyPlan x reason =
    State.planTold (State.planShows (islands.foldl (fun (s' : State) k =>
      s'.showFmax k ((islands.map (s.planVoltages x)).getD k [])) w) seq reason) seq reason c m := by
  obtain ⟨t, ht⟩ : ∃ t, t = s.applyPlan x reason := ⟨_, rfl⟩
  rw [← ht]
  unfold State.applyPlan at ht
  extract_lets vs changed s1 r s2 seq s3 s4 s5 s6 at ht
  refine ⟨s3, seq, changed, r.2, ht.trans ?_⟩
  unfold State.planTold State.planShows State.showFmax
  rfl

theorem State.rd_planTold (s : State) (seq reason c m : Nat) {f : RF} (h : Reg.mgnCnt 0 ≠ f.reg) :
    (s.planTold seq reason c m).rd f = s.rd f := by
  rw [State.planTold, State.rd_raise, State.rd_setPower, State.rd_count_ne _ _ h]

theorem State.rd_planShows_ne (s : State) (seq reason : Nat) {f : RF} (h : Reg.mgnStatus ≠ f.reg) :
    (s.planShows seq reason).rd f = s.rd f := by
  rw [State.planShows, State.rd_wr_ne _ _ _ _ (.inl h), State.rd_wr_ne _ _ _ _ (.inl h)]

theorem State.rd_planShows (s : State) (seq reason : Nat) : (s.planShows seq reason).rd .mgnStatusReason = reason % 8 ∧
    (s.planShows seq reason).rd .mgnStatusPlanSeq = seq % 2 ^ 32 := by
  unfold State.planShows
  constructor
  · rw [State.rd_wr_self _ _ _ (by decide)]
    rfl
  · rw [State.rd_wr_ne _ _ _ _ (.inr (by decide)), State.rd_wr_self _ _ _ (by decide)]
    rfl

/-- What `t` shows and tells of a plan with measurements `x` that took effect in `s`. -/
def State.PlanShown (s t : State) (x : PlanInput) (reason : Nat) : Prop :=
  (∀ k, k < 32 → t.rd (.pwrIslandFmax k) = fmaxOf (s.planVoltages x k) % 16) ∧ t.rd .mgnStatusReason = reason % 8 ∧
    ∃ seq c m, t.rd .mgnStatusPlanSeq = seq % 2 ^ 32 ∧ ∃ e ∈ t.events, e.code = Code.marginPlan.val ∧
      e.payload = payload [(16, 4, seq), (20, 1, reason), (21, 1, c), (22, 1, m)]

theorem State.applyPlan_shown (s : State) (x : PlanInput) (reason : Nat) : s.PlanShown (s.applyPlan x reason) x reason := by
  obtain ⟨w, seq, c, m, h⟩ := s.applyPlan_ends x reason
  rw [h]
  refine ⟨fun k hk => ?_, ?_, seq, c, m, ?_, State.mem_events_raise ..⟩
  · have hcnt : Reg.mgnCnt 0 ≠ Reg.pwrIsland k := by unfold Reg.mgnCnt Reg.pwrIsland; omega
    have hstatus : Reg.mgnStatus ≠ Reg.pwrIsland k := by unfold Reg.mgnStatus Reg.pwrIsland; omega
    rw [State.rd_planTold _ _ _ _ _ hcnt, State.rd_planShows_ne _ _ _ hstatus]
    exact (State.rd_fmax_foldl_showFmax w _ 32 hk).trans (by rw [getD_map_islands _ _ hk])
  · rw [State.rd_planTold _ _ _ _ _ (by decide), (State.rd_planShows _ seq reason).1]
  · rw [State.rd_planTold _ _ _ _ _ (by decide), (State.rd_planShows _ seq reason).2]

/-- What a plan shows and tells stays when no field but BUSY changes. -/
theorem State.PlanShown.of_busy {t t' : State} {x : PlanInput} {reason : Nat} (h : s.PlanShown t x reason) (he : t'.events = t.events)
    (hrd : ∀ f : RF, Reg.mgnStatus ≠ f.reg ∨ ((f.lo + f.w ≤ 32 ∨ 33 ≤ f.lo) ∧ f.lo + f.w ≤ 64) → t'.rd f = t.rd f) :
    s.PlanShown t' x reason := by
  obtain ⟨hfmax, hreason, seq, c, m, hseq, hevent⟩ := h
  refine ⟨fun k hk => ?_, ?_, seq, c, m, ?_, by rwa [he]⟩
  · rw [hrd _ (.inl (show Reg.mgnStatus ≠ Reg.pwrIsland k by unfold Reg.mgnStatus Reg.pwrIsland; omega)), hfmax k hk]
  · rw [hrd _ (.inr (by decide)), hreason]
  · rw [hrd _ (.inr (by decide)), hseq]

/-- The state after the end of a re-plan, before a request that waits. -/
def State.planEnded (s : State) (x : PlanInput) (reason : Nat) : State :=
  ((s.applyPlan x reason).wr .mgnStatusBusy 0).setPower { (s.applyPlan x reason).power with planRun := none, planAsk := none }

theorem State.planEnded_idle (s : State) (x : PlanInput) (reason : Nat) : (s.planEnded x reason).rd .mgnStatusBusy = 0 := by
  rw [State.planEnded, State.rd_setPower, State.rd_wr_self _ _ _ (by decide)]
  rfl

theorem State.planEnded_shown (s : State) (x : PlanInput) (reason : Nat) : s.PlanShown (s.planEnded x reason) x reason :=
  (s.applyPlan_shown x reason).of_busy (by rw [State.planEnded, State.events_setPower, State.events_wr])
    fun f h => by rw [State.planEnded, State.rd_setPower, State.rd_wr_ne _ _ _ _ h]

theorem exec_replanDone_ends (x : PlanInput) {reason : Nat} (h : s.rd .refReadyReady = 1) (hr : s.power.planRun = some reason) :
    exec (.replanDone x) s = ifSome (s.applyPlan x reason).power.planAsk
      (fun r => .next ((s.planEnded x reason).requestPlan r)) (.next (s.planEnded x reason)) := by
  show execReplanDone x s = _
  unfold execReplanDone State.planEnded
  rw [if_neg (by simp [State.rdBit_eq_true h]), hr]
  dsimp only
  rw [State.power_wr]
  generalize (s.applyPlan x reason).power.planAsk = ask
  cases ask <;> rfl

/-- The end of a re-plan: it takes effect, and the request that came meanwhile starts the next one. -/
theorem exec_replanDone_takesEffect (x : PlanInput) {reason : Nat} (h : s.rd .refReadyReady = 1) (hr : s.power.planRun = some reason) :
    ∃ t, exec (.replanDone x) s = .next t ∧ s.PlanShown t x reason ∧
      (∀ r, (s.applyPlan x reason).power.planAsk = some r → t.rd .mgnStatusBusy = 1 ∧ t.power.planRun = some r) ∧
      ((s.applyPlan x reason).power.planAsk = none → t.rd .mgnStatusBusy = 0 ∧ t.power.planRun = none) := by
  have hexec := exec_replanDone_ends x h hr
  have hshown := s.planEnded_shown x reason
  have hidle := s.planEnded_idle x reason
  generalize (s.applyPlan x reason).power.planAsk = ask at hexec ⊢
  cases ask with
  | none => exact ⟨_, hexec, hshown, nofun, fun _ => ⟨hidle, rfl⟩⟩
  | some r =>
    obtain ⟨hbusy, hrun, -⟩ := (s.planEnded x reason).requestPlan_asked r
    refine ⟨_, hexec, hshown.of_busy (State.events_requestPlan ..) (fun f hf => State.rd_requestPlan_ne _ r hf), ?_, nofun⟩
    rintro _ ⟨⟩
    exact ⟨hbusy, hrun hidle⟩

/-! ## Emergencies (R397) -/

theorem exec_marginMonitorTick_ready (l : List (Nat × Int)) (h : s.rd .refReadyReady = 1) :
    exec (.marginMonitorTick l) s = .next (l.foldl State.emergency s) :=
  if_neg (by simp [State.rdBit_eq_true h])

theorem State.emergency_none {k : Nat} {x : Int} (h : 32 ≤ k ∨ (s.rd .mgnThreshGuardPs : Int) ≤ 2 * x) : s.emergency (k, x) = s :=
  if_pos h

/-- The state with FMAX of an island one point slower, and counted. -/
def State.slowIsland (s : State) (k : Nat) : State :=
  let f := s.rd (.pwrIslandFmax k)
  let u := (s.wr (.pwrIslandFmax k) (min 15 (f + 1))).count (Reg.mgnCnt 4) 1
  if min 15 (f + 1) > f then u.count (Reg.mgnCnt 3) 1 else u

theorem State.emergency_slows {k : Nat} {x : Int} (hk : k < 32) (hx : 2 * x < (s.rd .mgnThreshGuardPs : Int)) :
    s.emergency (k, x) = ((s.slowIsland k).raise .marginEmergency (unitId (k / 4) 63 0) noPart
      (payload [(16, 1, k), (17, 1, min 15 (s.rd (.pwrIslandFmax k) + 1)), (18, 2, codeOfInt 16 x)])).requestPlan 4 :=
  if_neg (not_or.2 ⟨Nat.not_le.2 hk, Int.not_le.2 hx⟩)

theorem State.rd_fmax_slowIsland (s : State) (k : Nat) :
    (s.slowIsland k).rd (.pwrIslandFmax k) = min 15 (s.rd (.pwrIslandFmax k) + 1) := by
  have hcnt (n : Nat) (hn : n < 8) : Reg.mgnCnt n ≠ Reg.pwrIsland k := by unfold Reg.mgnCnt Reg.pwrIsland; omega
  have hwr : ((s.wr (.pwrIslandFmax k) (min 15 (s.rd (.pwrIslandFmax k) + 1))).count (Reg.mgnCnt 4) 1).rd (.pwrIslandFmax k) =
      min 15 (s.rd (.pwrIslandFmax k) + 1) := by
    rw [State.rd_count_ne _ _ (hcnt 4 (by decide)), s.rd_wr_self _ _ (of_decide_eq_true rfl)]
    exact Nat.mod_eq_of_lt (show _ < 16 by omega)
  unfold State.slowIsland
  dsimp only
  split
  · rw [State.rd_count_ne _ _ (hcnt 3 (by decide)), hwr]
  · exact hwr

theorem State.emergency_effect {k : Nat} {x : Int} (hk : k < 32) (hx : 2 * x < (s.rd .mgnThreshGuardPs : Int)) :
    (s.emergency (k, x)).rd (.pwrIslandFmax k) = min 15 (s.rd (.pwrIslandFmax k) + 1) ∧ (s.emergency (k, x)).rd .mgnStatusBusy = 1 ∧
      ∃ e ∈ (s.emergency (k, x)).events, e.code = Code.marginEmergency.val := by
  rw [State.emergency_slows hk hx]
  refine ⟨?_, (State.requestPlan_asked _ 4).1, ?_⟩
  · rw [State.rd_requestPlan_ne _ _ (.inl (show Reg.mgnStatus ≠ Reg.pwrIsland k by unfold Reg.mgnStatus Reg.pwrIsland; omega)),
      State.rd_raise, State.rd_fmax_slowIsland]
  · rw [State.events_requestPlan]
    obtain ⟨e, hmem, hcode, -⟩ := (s.slowIsland k).mem_events_raise .marginEmergency (unitId (k / 4) 63 0) noPart
      (payload [(16, 1, k), (17, 1, min 15 (s.rd (.pwrIslandFmax k) + 1)), (18, 2, codeOfInt 16 x)])
    exact ⟨e, hmem, hcode⟩

end

/-- Settles O52: a request runs or waits, the end of a re-plan by its last effects, and an emergency by the slowed island. -/
theorem marginPlansRunAndTakeEffect : Obligations.MarginPlansRunAndTakeEffect := by
  refine fun s => ⟨fun hb => ⟨_, exec_mgnReplan_asks hb, s.requestPlan_asked 3⟩, fun h => ⟨?_, fun x reason hr => ?_,
    fun l => exec_marginMonitorTick_ready l h, fun k x => ⟨State.emergency_effect, State.emergency_none⟩⟩⟩
  · exact ⟨_, exec_replanInterval_asks h, State.requestPlan_asked (s.setDtime _) 2, State.dtime_requestPlan ..⟩
  · obtain ⟨t, hexec, ⟨hfmax, hreason, htold⟩, hnext, hnone⟩ := exec_replanDone_takesEffect x h hr
    exact ⟨t, hexec, hfmax, hreason, htold, hnext, hnone⟩

end Sys2Proof.Machine

/-!
PROOFS. Debug and trace (chapter 16): the Debug Module Interface, pools, buffers and their triggers, and the tensor watch (O54).
-/
namespace Sys2Proof.Machine

section
variable {s : State}

/-! ## The Debug Module Interface (R403, R404, R412) -/

/-- The state with the request of a DMI operation in TRC_DMI. -/
def State.dmiAsked (s : State) (value : Nat) : State :=
  s.setReg Reg.trcDmi (BitVec.ofNat 64 (bitsAt value 0 8 + bitsAt value 11 4 * 2 ^ 11 + bitsAt value 32 32 * 2 ^ 32))

theorem State.dm_dmiAsked (s : State) (value : Nat) : (s.dmiAsked value).dm = s.dm := State.dm_setReg ..

/-- A request leaves OP 0. -/
theorem State.rd_op_dmiAsked (s : State) (value : Nat) : (s.dmiAsked value).rd .trcDmiOp = 0 := by
  have h0 : bitsAt value 0 8 < 2 ^ 8 := bitsAt_lt ..
  rw [State.dmiAsked, State.rd, show RF.trcDmiOp.reg = Reg.trcDmi from rfl, State.reg_setReg_self, Word.field_ofNat _ _ _ (by decide)]
  show bitsAt _ 9 2 = 0
  rw [bitsAt, Nat.shiftRight_eq_div_pow]
  omega

/-- What a DMI operation comes to while debug is not fused off, by the direction and the register. -/
def State.dmiServed (s : State) (value op data : Nat) : Host.Outcome State Fault Refusal :=
  if bitAt value 7 && dmiHeld (bitsAt value 0 7) then .next (s.dmiWrite (bitsAt value 0 7) (bitsAt value 32 32) op data)
  else if bitAt value 7 = false ∧ dmiHeld (bitsAt value 0 7) = true then
    .next ((s.dmiRead (bitsAt value 0 7)).1.wr .trcDmiData (s.dmiRead (bitsAt value 0 7)).2)
  else .next (if bitAt value 7 then s.wr .trcDmiOp (op % 4) else (s.wr .trcDmiOp (op % 4)).wr .trcDmiData data)

theorem exec_dmiOperation_pf (value op data : Nat) (h : s.barShut true = false) : exec (.dmiOperation true value op data) s =
    if bitAt (s.rd .refFwDbgOff) 1 then .next ((s.dmiAsked value).wr .trcDmiOp 2)
    else (s.dmiAsked value).dmiServed value op data := by
  have hoff : (s.dmiAsked value).rd .refFwDbgOff = s.rd .refFwDbgOff :=
    congrArg (Word.field · 32 8) (s.reg_setReg_ne _ (by decide))
  rw [← hoff]
  exact (if_neg (by simp [h])).trans (if_neg nofun)

section
variable {value : Nat} (op data : Nat) (hb : s.barShut true = false)
include hb

theorem exec_dmiOperation_off (h : bitAt (s.rd .refFwDbgOff) 1 = true) :
    ∃ t, exec (.dmiOperation true value op data) s = .next t ∧ t.rd .trcDmiOp = 2 ∧ t.dm = s.dm := by
  refine ⟨_, (exec_dmiOperation_pf value op data hb).trans (if_pos h), ?_, by rw [State.dm_wr, State.dm_dmiAsked]⟩
  rw [State.rd_wr_self _ _ _ (by decide)]
  rfl

variable (h : bitAt (s.rd .refFwDbgOff) 1 = false)
include h

theorem exec_dmiOperation_on : exec (.dmiOperation true value op data) s = (s.dmiAsked value).dmiServed value op data :=
  (exec_dmiOperation_pf value op data hb).trans (if_neg (by simp [h]))

theorem exec_dmiOperation_reads (hheld : dmiHeld (bitsAt value 0 7) = true) (hread : bitAt value 7 = false)
    (hdata : bitsAt value 0 7 ≠ 0x3C) : ∃ t, exec (.dmiOperation true value op data) s = .next t ∧
      t.rd .trcDmiData = s.dm.value (bitsAt value 0 7) % 2 ^ 32 ∧ t.dm = s.dm ∧ t.rd .trcDmiOp = 0 := by
  have hvalue : (s.dmiAsked value).dmiRead (bitsAt value 0 7) = (s.dmiAsked value, s.dm.value (bitsAt value 0 7)) := by
    unfold State.dmiRead
    rw [if_neg (fun h => hdata h.1), State.dm_dmiAsked]
  have hexec := exec_dmiOperation_on (value := value) op data hb h
  rw [State.dmiServed, hread, Bool.false_and, if_neg Bool.false_ne_true, if_pos ⟨rfl, hheld⟩, hvalue] at hexec
  refine ⟨_, hexec, ?_, by rw [State.dm_wr, State.dm_dmiAsked], ?_⟩
  · rw [State.rd_wr_self _ _ _ (by decide)]
    rfl
  · rw [State.rd_wr_ne _ _ _ _ (.inr (by decide)), State.rd_op_dmiAsked]

theorem exec_dmiOperation_writes (hheld : dmiHeld (bitsAt value 0 7) = true) (hwrite : bitAt value 7 = true) :
    exec (.dmiOperation true value op data) s =
      .next ((s.dmiAsked value).dmiWrite (bitsAt value 0 7) (bitsAt value 32 32) op data) :=
  (exec_dmiOperation_on op data hb h).trans (if_pos (by simp [hheld, hwrite]))

theorem exec_dmiOperation_other (hheld : dmiHeld (bitsAt value 0 7) = false) :
    ∃ t, exec (.dmiOperation true value op data) s = .next t ∧ t.rd .trcDmiOp = op % 4 ∧
      (bitAt value 7 = false → t.rd .trcDmiData = data % 2 ^ 32) := by
  have hexec := exec_dmiOperation_on (value := value) op data hb h
  have hop : ((s.dmiAsked value).wr .trcDmiOp (op % 4)).rd .trcDmiOp = op % 4 := by
    rw [State.rd_wr_self _ _ _ (by decide)]
    exact Nat.mod_mod op 4
  rw [State.dmiServed, hheld, Bool.and_false, if_neg Bool.false_ne_true, if_neg (fun h => Bool.false_ne_true h.2)] at hexec
  refine ⟨_, hexec, ?_, fun hread => ?_⟩
  · split
    · exact hop
    · rw [State.rd_wr_ne _ _ _ _ (.inr (by decide)), hop]
  · rw [hread, if_neg Bool.false_ne_true, State.rd_wr_self _ _ _ (by decide)]
    rfl

end

/-! ## Refusals -/

theorem State.mem_events_debugInvalid (s : State) (part r : Nat) : ∃ e ∈ (s.debugInvalid part r).events,
    e.code = Code.dbgInvalid.val ∧ e.part = part ∧ e.payload = payload [(16, 1, r)] :=
  ⟨_, List.mem_append_right _ (List.mem_singleton_self _), rfl, rfl, rfl⟩

/-! ## Pools (R405) -/

section
variable {d value : Nat} (hd : d < 8) (hb : s.barShut false = false)
include hd hb

/-- A write of a pool, by whether buffers stand in it and by the refusal of one that enables it. -/
theorem exec_tracePoolWrite_open (value : Nat) : exec (.tracePoolWrite d value) s =
    if s.poolInUse d then .next (s.count (Reg.trcCnt 2) 1)
    else if bitAt (value % 2 ^ 60) 59 then
      ifSome (s.poolRefusal d (bitsAt (value % 2 ^ 60) 0 48) (bitsAt (value % 2 ^ 60) 48 11)) (fun r => .next (s.debugInvalid noPart r))
        (.next (s.setReg (Reg.trcPool d) (BitVec.ofNat 64 (value % 2 ^ 60))))
    else .next (s.setReg (Reg.trcPool d) (BitVec.ofNat 64 (value % 2 ^ 60))) := by
  show execTracePoolWrite d value s = _
  unfold execTracePoolWrite
  rw [if_neg (by simp [hb]), if_neg (Nat.not_le.2 hd)]
  cases s.poolRefusal d (bitsAt (value % 2 ^ 60) 0 48) (bitsAt (value % 2 ^ 60) 48 11) <;> rfl

theorem exec_tracePoolWrite_taken (hu : s.poolInUse d = false) (h : bitAt (value % 2 ^ 60) 59 = true →
    s.poolRefusal d (bitsAt (value % 2 ^ 60) 0 48) (bitsAt (value % 2 ^ 60) 48 11) = none) :
    exec (.tracePoolWrite d value) s = .next (s.setReg (Reg.trcPool d) (BitVec.ofNat 64 (value % 2 ^ 60))) := by
  rw [exec_tracePoolWrite_open hd hb, hu, if_neg Bool.false_ne_true]
  split
  · next he => rw [h he, ifSome_none]
  · rfl

theorem exec_tracePoolWrite_refused {r : Nat} (hu : s.poolInUse d = false) (he : bitAt (value % 2 ^ 60) 59 = true)
    (h : s.poolRefusal d (bitsAt (value % 2 ^ 60) 0 48) (bitsAt (value % 2 ^ 60) 48 11) = some r) :
    exec (.tracePoolWrite d value) s = .next (s.debugInvalid noPart r) := by
  rw [exec_tracePoolWrite_open hd hb, hu, if_neg Bool.false_ne_true, if_pos he, h, ifSome_some]

theorem exec_tracePoolWrite_inUse (hu : s.poolInUse d = true) :
    ∃ t, exec (.tracePoolWrite d value) s = .next t ∧ t.reg (Reg.trcPool d) = s.reg (Reg.trcPool d) :=
  ⟨_, (exec_tracePoolWrite_open hd hb value).trans (if_pos hu), s.reg_count_ne 1 (by unfold Reg.trcCnt Reg.trcPool; omega)⟩

end

/-! ## Buffers (R405 to R408) -/

/-- A step that sets a property for `x` and keeps it for the others leaves it after a run over a list with `x`. -/
theorem foldl_establishes {α : Type} {P : State → Prop} {f : State → α → State} {l : List α} {x : α} (hx : x ∈ l)
    (hset : ∀ u, P (f u x)) (hkeep : ∀ u, ∀ y ∈ l, P u → P (f u y)) (u : State) : P (l.foldl f u) := by
  induction l generalizing u with
  | nil => cases hx
  | cons y l ih =>
    rw [List.foldl_cons]
    by_cases hl : x ∈ l
    · exact ih hl (fun v z hz => hkeep v z (List.mem_cons_of_mem y hz)) _
    · obtain rfl : x = y := (List.mem_cons.1 hx).resolve_right hl
      exact List.foldlRecOn l f (hset u) fun v hv z hz => hkeep v z (List.mem_cons_of_mem x hz) hv

theorem State.mem_bufDies_lt {p d : Nat} (h : d ∈ s.bufDies p) : d < 8 := List.mem_range.1 (List.mem_of_mem_filter h)

theorem State.bufDies_congr {t : State} {p : Nat} (h : ∀ d < 8, t.reg (Reg.trcPBuf p d) = s.reg (Reg.trcPBuf p d)) :
    t.bufDies p = s.bufDies p := by
  refine List.filter_congr fun d hd => ?_
  have hmib : t.rd (.trcPBufMib p d) = s.rd (.trcPBufMib p d) := congrArg (Word.field · 48 9) (h d (List.mem_range.1 hd))
  rw [hmib]

section
variable {p : Nat}

/-- The state with the buffer of partition `p` on CD `d` started. -/
def State.startBuffer (s : State) (p d : Nat) : State :=
  ((s.setReg (Reg.trcPPos p d) (BitVec.ofNat 64 (2 ^ 60))).wr (.trcPLostLost p d) 0).setTraceBuf p d TraceBuf.reset

theorem State.startBuffers_eq (s : State) (p : Nat) : s.startBuffers p = (s.bufDies p).foldl (fun u d => u.startBuffer p d) s := rfl

/-- The buffer of `p` on CD `d` is in state 1, with nothing written or lost. -/
def State.BufStarted (s : State) (p d : Nat) : Prop :=
  s.reg (Reg.trcPPos p d) = BitVec.ofNat 64 (2 ^ 60) ∧ s.rd (.trcPLostLost p d) = 0

theorem State.BufStarted.shows {d : Nat} (h : s.BufStarted p d) :
    s.rd (.trcPPosState p d) = 1 ∧ s.rd (.trcPPosWritten p d) = 0 ∧ s.rd (.trcPLostLost p d) = 0 :=
  ⟨(congrArg (Word.field · 60 3) h.1).trans (by decide), (congrArg (Word.field · 0 60) h.1).trans (by decide), h.2⟩

theorem State.reg_startBuffer_ne (s : State) {d a : Nat} (h1 : Reg.trcPPos p d ≠ a) (h2 : Reg.trcPLost p d ≠ a) :
    (s.startBuffer p d).reg a = s.reg a := by
  unfold State.startBuffer State.setTraceBuf
  rw [State.reg_setTraceBufs, State.reg_wr_ne _ _ h2, State.reg_setReg_ne _ _ h1]

theorem State.bufStarted_startBuffer (s : State) (p d : Nat) : (s.startBuffer p d).BufStarted p d := by
  unfold State.startBuffer State.setTraceBuf State.BufStarted
  have hne : Reg.trcPLost p d ≠ Reg.trcPPos p d := by unfold Reg.trcPLost Reg.trcPPos; omega
  rw [State.reg_setTraceBufs, State.rd_setTraceBufs, State.reg_wr_ne _ _ hne]
  exact ⟨State.reg_setReg_self .., State.rd_wr_self _ _ _ (of_decide_eq_true rfl)⟩

/-- The start of another buffer leaves it so. -/
theorem State.BufStarted.startBuffer {d e : Nat} (h : s.BufStarted p d) (hd : d < 8) (he : e < 8) :
    (s.startBuffer p e).BufStarted p d := by
  by_cases hed : e = d
  · subst hed
    exact s.bufStarted_startBuffer p e
  · have hpos := s.reg_startBuffer_ne (p := p) (d := e) (a := Reg.trcPPos p d) (by unfold Reg.trcPPos; omega)
      (by unfold Reg.trcPLost Reg.trcPPos; omega)
    have hlost := s.reg_startBuffer_ne (p := p) (d := e) (a := Reg.trcPLost p d) (by unfold Reg.trcPLost Reg.trcPPos; omega)
      (by unfold Reg.trcPLost; omega)
    exact ⟨hpos.trans h.1, (congrArg (Word.field · 0 32) hlost).trans h.2⟩

theorem State.bufStarted_startBuffers {d : Nat} (h : d ∈ s.bufDies p) : (s.startBuffers p).BufStarted p d :=
  foldl_establishes (P := fun u => u.BufStarted p d) h (fun u => u.bufStarted_startBuffer p d)
    (fun _ _ he hu => hu.startBuffer (State.mem_bufDies_lt h) (State.mem_bufDies_lt he)) s

/-- The registers of the trace itself stay as they are. -/
theorem State.reg_startBuffers_below (s : State) {a : Nat} (h : a < 0xE01080 + 0x200 * p) : (s.startBuffers p).reg a = s.reg a := by
  rw [State.startBuffers_eq]
  refine List.foldlRecOn (motive := fun u : State => u.reg a = s.reg a) _ _ rfl fun u hu d _ => ?_
  rw [State.reg_startBuffer_ne _ (by unfold Reg.trcPPos; omega) (by unfold Reg.trcPLost; omega), hu]

/-! ## Enabling and disabling (R408) -/

/-- The lowest bit of a number, as a field of one bit. -/
theorem bitsAt_zero_one (v : Nat) : bitsAt v 0 1 = v % 2 := by
  rw [bitsAt, Nat.shiftRight_zero, Nat.pow_one]

/-- While ENABLE is 0 the other fields take what is written. -/
theorem State.traceFields_off (value : Nat) (h : s.rd (.trcPCtrlEnable p) = 0) : s.traceFields p value = (s, value) := by
  have hfield : bitsAt (s.reg (Reg.trcPCtrl p)).toNat 0 1 = 0 := h
  have hbit : bitAt (s.reg (Reg.trcPCtrl p)).toNat 0 = false := by
    rw [bitAt, Nat.testBit_zero, ← bitsAt_zero_one, hfield]
    rfl
  exact if_neg (by simp [hbit])

/-- The state with ENABLE 1 and FIRED 0, before its buffers start. -/
def State.traceArmed (s : State) (p value : Nat) : State :=
  (s.setReg (Reg.trcPCtrl p) (BitVec.ofNat 64 (1 + 2 * ctrlFields value))).wr (.trcPTrigFired p) 0

theorem exec_traceEnable_off (value : Nat) (hp : p < 16) (hb : s.barShut false = false) (h0 : s.rd (.trcPCtrlEnable p) = 0) :
    exec (.traceEnable p value) s = ifSome (s.traceRefusal p value) (fun r => .next (s.debugInvalid p r))
      (.next ((s.traceArmed p value).startBuffers p)) := by
  show execTraceEnable p value s = _
  unfold execTraceEnable
  rw [if_neg (by simp [hb]), if_neg (Nat.not_le.2 hp), State.traceFields_off value h0]
  dsimp only
  cases s.traceRefusal p value <;> rfl

theorem State.bufDies_traceArmed (s : State) (p value : Nat) : (s.traceArmed p value).bufDies p = s.bufDies p :=
  State.bufDies_congr fun d _ => by
    rw [State.traceArmed, State.reg_wr_ne _ _ (show Reg.trcPTrig p ≠ _ by unfold Reg.trcPTrig Reg.trcPBuf; omega),
      State.reg_setReg_ne _ _ (by unfold Reg.trcPCtrl Reg.trcPBuf; omega)]

theorem State.rd_traceArmed (s : State) (p value : Nat) : (s.traceArmed p value).rd (.trcPCtrlEnable p) = 1 ∧
    (s.traceArmed p value).rd (.trcPTrigFired p) = 0 := by
  unfold State.traceArmed
  constructor
  · rw [State.rd_wr_ne _ _ _ _ (.inl (show Reg.trcPTrig p ≠ Reg.trcPCtrl p by unfold Reg.trcPTrig Reg.trcPCtrl; omega))]
    refine (congrArg (Word.field · 0 1) (State.reg_setReg_self ..)).trans ?_
    rw [Word.field_ofNat _ _ _ (by decide), bitsAt_zero_one]
    omega
  · exact State.rd_wr_self _ _ _ (of_decide_eq_true rfl)

/-- The state with ENABLE 0 after the queues have drained, before its buffers stop. -/
def State.traceDrained (s : State) (p value : Nat) : State :=
  ((s.traceFields p value).1.drainTrace p).setReg (Reg.trcPCtrl p) (BitVec.ofNat 64 (2 * ctrlFields (s.traceFields p value).2))

/-- The state with every buffer of partition `p` stopped. -/
def State.stopBuffers (s : State) (p : Nat) : State := (s.bufDies p).foldl (fun u d => u.wr (.trcPPosState p d) 0) s

theorem exec_traceDisable_stops (value : Nat) (hp : p < 16) (hb : s.barShut false = false) :
    exec (.traceDisable p value) s = .next ((s.traceDrained p value).stopBuffers p) :=
  (if_neg (by simp [hb])).trans (if_neg (Nat.not_le.2 hp))

theorem State.rd_enable_traceDrained (s : State) (p value : Nat) : (s.traceDrained p value).rd (.trcPCtrlEnable p) = 0 := by
  refine (congrArg (Word.field · 0 1) (State.reg_setReg_self ..)).trans ?_
  rw [Word.field_ofNat _ _ _ (by decide), bitsAt_zero_one]
  omega

theorem State.reg_stopBuffers_ne (s : State) {a : Nat} (h : ∀ d < 8, Reg.trcPPos p d ≠ a) : (s.stopBuffers p).reg a = s.reg a := by
  unfold State.stopBuffers
  refine List.foldlRecOn (motive := fun u : State => u.reg a = s.reg a) _ _ rfl fun u hu d hd => ?_
  rw [State.reg_wr_ne _ _ (h d (State.mem_bufDies_lt hd)), hu]

theorem State.rd_state_stopBuffers (s : State) {d : Nat} (h : d ∈ (s.stopBuffers p).bufDies p) :
    (s.stopBuffers p).rd (.trcPPosState p d) = 0 := by
  rw [State.bufDies_congr fun e he => s.reg_stopBuffers_ne fun k hk => by unfold Reg.trcPPos Reg.trcPBuf; omega] at h
  have hset (u : State) : (u.wr (.trcPPosState p d) 0).rd (.trcPPosState p d) = 0 := by
    rw [State.rd_wr_self _ _ _ (of_decide_eq_true rfl), Nat.zero_mod]
  refine foldl_establishes (P := fun u => u.rd (.trcPPosState p d) = 0) (f := fun u d => u.wr (.trcPPosState p d) 0) h hset
    (fun u e he hu => ?_) s
  by_cases hed : e = d
  · subst hed
    exact hset u
  · rw [State.rd_wr_ne _ _ _ _ (.inl (show Reg.trcPPos p e ≠ Reg.trcPPos p d by unfold Reg.trcPPos; omega)), hu]

end

/-! ## Triggers (R409) -/

section
variable {p : Nat}

/-- The registers that an entry offered to a buffer of `p` may change. -/
theorem State.reg_bufferPut_ne (s : State) (f : Nat → Nat) {d a : Nat} (h1 : Reg.trcPPos p d ≠ a) (h2 : Reg.trcPLost p d ≠ a)
    (h3 : ∀ n < 2, Reg.trcCnt n ≠ a) : (s.bufferPut p d f).reg a = s.reg a := by
  have hstore (b n v : Nat) : (s.storeNat b n v).reg a = s.reg a :=
    State.reg_congr ((State.storeNat_touches s b n v (.refl _) (.refl s)).1 .regs rfl) a
  unfold State.bufferPut State.setTraceBuf
  split
  · rfl
  · dsimp only
    split
    · rw [State.reg_count_ne _ _ (h3 1 (by decide)), State.reg_wr_ne _ _ h2, State.reg_setTraceBufs]
    · rw [State.reg_count_ne _ _ (h3 0 (by decide)), State.reg_wr_ne _ _ h1, State.reg_setTraceBufs, hstore]

theorem State.mem_events_bufferPut {e : Event} (d : Nat) (f : Nat → Nat) (h : e ∈ s.events) : e ∈ (s.bufferPut p d f).events := by
  have hstore (b n v : Nat) : (s.storeNat b n v).events = s.events :=
    (State.storeNat_touches s b n v (.refl _) (.refl s)).1 .events rfl
  unfold State.bufferPut State.setTraceBuf
  split
  · exact h
  · dsimp only
    split
    · refine State.mem_events_count _ _ _ ?_
      rwa [State.events_wr, State.events_setTraceBufs]
    · refine State.mem_events_count _ _ _ ?_
      rwa [State.events_wr, State.events_setTraceBufs, hstore]

/-- What a trigger does to the buffer on CD `d`: it puts an entry, and under policy 2 the buffer goes on for POST entries. -/
def State.triggerBuffer (s : State) (p source code d : Nat) : State :=
  let x : TraceEntry :=
    { dtime := s.dtime, status := code, unit := unitDie d 0, part := p, kind := 0x83, index := 0, opcode := 0, stream := 0,
      token := 0, step := 0, arg := source }
  let s := s.bufferPut p d x.bytes
  if s.rd (.trcPCtrlPolicy p) = 2 ∧ s.rd (.trcPPosState p d) = 1 then
    (s.wr (.trcPPosState p d) 2).setTraceBuf p d ⟨(s.traceBuf p d).seq, some (s.rd (.trcPCtrlPost p))⟩
  else s

/-- The state after a trigger has been shown and told of, before the buffers. -/
def State.triggerTold (s : State) (p source code : Nat) : State :=
  (s.wr (.trcPTrigFired p) 1).raise .dbgTraceTrigger unitReferee p (payload [(16, 1, p), (17, 1, source), (18, 2, code)])

theorem State.mem_events_triggerTold (s : State) (p source code : Nat) : ∃ e ∈ (s.triggerTold p source code).events,
    e.code = Code.dbgTraceTrigger.val ∧ e.payload = payload [(16, 1, p), (17, 1, source), (18, 2, code)] :=
  State.mem_events_raise ..

theorem State.traceTrigger_fires (source code : Nat) (hp : p < 16) (he : s.rd (.trcPCtrlEnable p) = 1) (hf : s.rd (.trcPTrigFired p) = 0) :
    s.traceTrigger p source code =
      ((s.triggerTold p source code).bufDies p).foldl (fun u d => u.triggerBuffer p source code d) (s.triggerTold p source code) := by
  refine if_neg ?_
  rw [State.rdBit_eq_true he, State.rdBit_eq_false hf]
  simpa using hp

theorem State.reg_trig_triggerBuffer (s : State) {source code d : Nat} (hp : p < 16) :
    (s.triggerBuffer p source code d).reg (Reg.trcPTrig p) = s.reg (Reg.trcPTrig p) := by
  have hpos : Reg.trcPPos p d ≠ Reg.trcPTrig p := by unfold Reg.trcPPos Reg.trcPTrig; omega
  have hput (f : Nat → Nat) : (s.bufferPut p d f).reg (Reg.trcPTrig p) = s.reg (Reg.trcPTrig p) :=
    s.reg_bufferPut_ne f hpos (by unfold Reg.trcPLost Reg.trcPTrig; omega) (fun n hn => by unfold Reg.trcCnt Reg.trcPTrig; omega)
  unfold State.triggerBuffer State.setTraceBuf
  dsimp only
  split
  · rw [State.reg_setTraceBufs, State.reg_wr_ne _ _ hpos, hput]
  · exact hput _

theorem State.mem_events_triggerBuffer {e : Event} (source code d : Nat) (h : e ∈ s.events) :
    e ∈ (s.triggerBuffer p source code d).events := by
  unfold State.triggerBuffer State.setTraceBuf
  dsimp only
  split
  · rw [State.events_setTraceBufs, State.events_wr]
    exact State.mem_events_bufferPut _ _ h
  · exact State.mem_events_bufferPut _ _ h

/-- FIRED stands and DBG_TRACE_TRIGGER is told, whatever the buffers hold. -/
theorem State.traceTrigger_effect (source code : Nat) (hp : p < 16) (he : s.rd (.trcPCtrlEnable p) = 1)
    (hf : s.rd (.trcPTrigFired p) = 0) : (s.traceTrigger p source code).rd (.trcPTrigFired p) = 1 ∧
      ∃ e ∈ (s.traceTrigger p source code).events, e.code = Code.dbgTraceTrigger.val ∧
        e.payload = payload [(16, 1, p), (17, 1, source), (18, 2, code)] := by
  rw [State.traceTrigger_fires source code hp he hf]
  constructor
  · have hfired : (s.triggerTold p source code).rd (.trcPTrigFired p) = 1 := by
      rw [State.triggerTold, State.rd_raise, State.rd_wr_self _ _ _ (of_decide_eq_true rfl)]
      rfl
    exact List.foldlRecOn (motive := fun u : State => u.rd (.trcPTrigFired p) = 1) _ _ hfired
      fun u hu d _ => (congrArg (Word.field · 6 1) (u.reg_trig_triggerBuffer hp)).trans hu
  · obtain ⟨e, hmem, htold⟩ := s.mem_events_triggerTold p source code
    exact ⟨e, List.foldlRecOn (motive := fun u : State => e ∈ u.events) _ _ hmem
      fun u hu d _ => State.mem_events_triggerBuffer source code d hu, htold⟩

theorem exec_traceForce_triggers (hb : s.barShut false = false) : exec (.traceForce p) s = .next (s.traceTrigger p 4 0) :=
  if_neg (by simp [hb])

/-- A full buffer stops, or freezes after its trigger (Table 16-3). -/
theorem exec_traceBufferFull_stops {d : Nat} (hp : p < 16) (hd : d < 8) (hdone : s.bufDone p d = true)
    (hst : s.rd (.trcPPosState p d) = 1 ∨ s.rd (.trcPPosState p d) = 2) : exec (.traceBufferFull p d) s =
      .next ((s.wr (.trcPPosState p d) (if s.rd (.trcPPosState p d) = 1 then 4 else 3)).raise .dbgTraceStopped unitReferee p
        (payload [(16, 1, p), (17, 1, d), (18, 1, s.rd (.trcPCtrlPolicy p)), (20, 8, s.rd (.trcPPosWritten p d))])) := by
  refine if_neg ?_
  rw [hdone]
  rintro (h | h | h | h)
  · omega
  · omega
  · omega
  · cases h

/-! ## The tensor watch (R411) -/

/-- The first word of a watch slot as arming leaves it. -/
def watchWord (value : Nat) : Nat := bitsAt value 0 32 + 2 ^ 32 + 2 ^ 33 + bitsAt value 40 24 * 2 ^ 40

theorem watchWord_fields (value : Nat) : bitsAt (watchWord value) 32 1 = 1 ∧ bitsAt (watchWord value) 33 2 = 1 ∧
    bitsAt (watchWord value) 0 32 = bitsAt value 0 32 ∧ bitsAt (watchWord value) 40 24 = bitsAt value 40 24 := by
  have hid : bitsAt value 0 32 < 2 ^ 32 := bitsAt_lt ..
  have hlimit : bitsAt value 40 24 < 2 ^ 24 := bitsAt_lt ..
  unfold watchWord
  generalize bitsAt value 0 32 = i at hid ⊢
  generalize bitsAt value 40 24 = l at hlimit ⊢
  simp only [bitsAt, Nat.shiftRight_eq_div_pow]
  omega

/-- The state with watch slot `n` of partition `p` armed. -/
def State.watchArmed (s : State) (p n value : Nat) : State :=
  (s.setWatch (Sparse.put (0, 0) (8 * p + n) (0, 0) s.watch)).setReg (Reg.trcPWatchA p n) (BitVec.ofNat 64 (watchWord value))

theorem exec_watchArm_open {n : Nat} (value : Nat) (hp : p < 16) (hn : n < 8) (hb : s.barShut false = false)
    (hst : s.rd (.trcPWatchAState p n) ≠ 1) : exec (.watchArm p n value) s =
      ifSome (s.watchRefusal p n) (fun r => .next (s.debugInvalid p r)) (.next (s.watchArmed p n value)) := by
  show execWatchArm p n value s = _
  unfold execWatchArm
  rw [if_neg (by simp [hb]), if_neg (by omega)]
  cases s.watchRefusal p n <;> rfl

/-- What an armed slot shows. -/
theorem State.rd_watchArmed (s : State) (p n value : Nat) : let t := s.watchArmed p n value
    t.rd (.trcPWatchAEnable p n) = 1 ∧ t.rd (.trcPWatchAState p n) = 1 ∧ t.rd (.trcPWatchATensorId p n) = bitsAt value 0 32 ∧
      t.rd (.trcPWatchALimit p n) = bitsAt value 40 24 := by
  obtain ⟨henable, hstate, hid, hlimit⟩ := watchWord_fields value
  have hread (lo w : Nat) (h : lo + w ≤ 64) :
      ((s.watchArmed p n value).reg (Reg.trcPWatchA p n)).field lo w = bitsAt (watchWord value) lo w := by
    rw [State.watchArmed, State.reg_setReg_self, Word.field_ofNat _ _ _ h]
  exact ⟨(hread 32 1 (by decide)).trans henable, (hread 33 2 (by decide)).trans hstate, (hread 0 32 (by decide)).trans hid,
    (hread 40 24 (by decide)).trans hlimit⟩

end

end

/-- Settles O54: each operation has the equation of its outcome, and runs over buffers keep or establish what is read. -/
theorem debugAndTraceOperationsRun : Obligations.DebugAndTraceOperationsRun := by
  refine fun s => ⟨fun value op data hb => ⟨exec_dmiOperation_off op data hb, fun hoff =>
      ⟨exec_dmiOperation_reads op data hb hoff, fun hheld hwrite => ?_, exec_dmiOperation_other op data hb hoff⟩⟩,
    fun hb => ⟨fun d value hd => ⟨fun hu h => ?_, fun r hu he h => ?_, exec_tracePoolWrite_inUse hd hb⟩,
      fun p hp => ⟨fun value h0 => ⟨fun h => ?_, fun r h => ?_⟩, fun value => ?_, fun he hf => ?_,
        fun n value hn hst => ⟨fun h => ?_, fun r h => ?_⟩⟩⟩,
    fun p d hp hd hdone hst => ?_⟩
  · exact ⟨_, exec_dmiOperation_writes op data hb hoff hheld hwrite, s.dm_dmiAsked value⟩
  · exact ⟨_, exec_tracePoolWrite_taken hd hb hu h, State.reg_setReg_self ..⟩
  · obtain ⟨e, hmem, hcode, -, hpay⟩ := s.mem_events_debugInvalid noPart r
    exact ⟨_, exec_tracePoolWrite_refused hd hb hu he h, rfl, e, hmem, hcode, hpay⟩
  · obtain ⟨henable, hfired⟩ := s.rd_traceArmed p value
    have hexec := exec_traceEnable_off value hp hb h0
    rw [h, ifSome_none] at hexec
    refine ⟨_, hexec, ?_, ?_, fun d hd => ?_⟩
    · exact (congrArg (Word.field · 0 1) (State.reg_startBuffers_below (s.traceArmed p value)
        (show Reg.trcPCtrl p < _ by unfold Reg.trcPCtrl; omega))).trans henable
    · exact (congrArg (Word.field · 6 1) (State.reg_startBuffers_below (s.traceArmed p value)
        (show Reg.trcPTrig p < _ by unfold Reg.trcPTrig; omega))).trans hfired
    · rw [← s.bufDies_traceArmed p value] at hd
      exact (State.bufStarted_startBuffers hd).shows
  · have hexec := exec_traceEnable_off value hp hb h0
    rw [h, ifSome_some] at hexec
    exact ⟨_, hexec, rfl, s.mem_events_debugInvalid p r⟩
  · refine ⟨_, exec_traceDisable_stops value hp hb, ?_, fun d hd => State.rd_state_stopBuffers _ hd⟩
    exact (congrArg (Word.field · 0 1) (State.reg_stopBuffers_ne _ fun d _ =>
      (show Reg.trcPPos p d ≠ Reg.trcPCtrl p by unfold Reg.trcPPos Reg.trcPCtrl; omega))).trans
      (s.rd_enable_traceDrained p value)
  · exact ⟨_, exec_traceForce_triggers hb, State.traceTrigger_effect 4 0 hp he hf⟩
  · have hexec := exec_watchArm_open value hp hn hb hst
    rw [h, ifSome_none] at hexec
    exact ⟨_, hexec, s.rd_watchArmed p n value⟩
  · have hexec := exec_watchArm_open value hp hn hb hst
    rw [h, ifSome_some] at hexec
    exact ⟨_, hexec, rfl, s.mem_events_debugInvalid p r⟩
  · refine ⟨_, exec_traceBufferFull_stops hp hd hdone hst, ?_, State.mem_events_raise ..⟩
    rw [State.rd_raise, State.rd_wr_self _ _ _ (of_decide_eq_true rfl)]
    split <;> rfl

end Sys2Proof.Machine

/-!
PROOFS. What every step does: with no command waiting it lets time pass (O2), and it keeps the stores in canonical form (O5).
-/
namespace Sys2Proof.Machine

/-! ## The canonical form -/

theorem Touches.keepsCanonical {m : Nat} {s t : State} (h : Touches m s t) (hc : s.canonical = true) : t.canonical = true := by
  obtain ⟨-, hcanonical, -⟩ := h
  exact hcanonical hc

/-- Settles O5: the frame of a step, whether by a command or by a tick, carries the form. -/
theorem stepKeepsCanonicalForm : Obligations.StepKeepsCanonicalForm := fun s t hc h =>
  (step_touches s (.refl _) (.refl s) t h).keepsCanonical hc

/-! ## A tick (R32, R33) -/

section
variable {s : State}

/-- The clock alone moves DTIME: by 1 ns, and by 2 or 0 where a correction is due. -/
theorem State.dtime_tickClock (s : State) : s.tickClock.dtime = s.dtime +
    (if s.fellows.slew = 0 ∨ s.fellows.slewTicks + 1 < 5000 then 1 else if s.fellows.slew > 0 then 2 else 0) := by
  unfold State.tickClock
  dsimp only
  by_cases hslew : s.fellows.slew = 0
  · rw [if_pos hslew, if_pos (.inl hslew), State.dtime_setDtime]
  · by_cases hticks : s.fellows.slewTicks + 1 < 5000
    · rw [if_neg hslew, if_pos hticks, if_pos (.inr hticks), State.dtime_setFellows, State.dtime_setDtime]
    · rw [if_neg hslew, if_neg hticks, if_neg (not_or.2 ⟨hslew, hticks⟩)]
      split
      · rfl
      · rfl

/-- The state of a tick before the writes on their way arrive. -/
def State.tickSent (s : State) : State := (s.tickClock.countCycles s.dtime).deliver.collectAll.groupTick.sendWaiting.sendAll

theorem State.tick_unpowered (h : s.referee.power = false) : s.tick = s := if_pos h

theorem State.tick_powered (h : s.referee.power = true) : s.tick = s.tickSent.arrivePosted.endTick.stopTick :=
  if_neg (ne_false_of_eq_true h)

/-- After the clock nothing but a write that arrives changes DTIME, and nothing sends one on its way. -/
theorem State.tickSent_frame (s : State) : Touches (fieldMask (fieldsBut [.dtime, .posted])) s.tickClock s.tickSent :=
  State.sendAll_touches _ (.lit rfl) <| State.sendWaiting_touches _ (.lit rfl) <| State.groupTick_touches _ (.lit rfl) <|
    State.collectAll_touches _ (.lit rfl) <| State.deliver_touches _ (.lit rfl) <| State.countCycles_touches _ _ (.lit rfl) (.refl _)

theorem State.posted_tickSent (s : State) : s.tickSent.posted = s.posted :=
  (s.tickSent_frame.1 .posted rfl).trans ((State.tickClock_touches s (.refl _) (.refl s)).1 .posted rfl)

theorem State.arrivePosted_none (h : s.posted = []) : s.arrivePosted = s := by rw [State.arrivePosted, h]

theorem State.dtime_tick (hpower : s.referee.power = true) (h : s.posted = []) : s.tick.dtime = s.tickClock.dtime := by
  rw [State.tick_powered hpower, State.arrivePosted_none (s.posted_tickSent.trans h)]
  have hend : Touches (fieldMask (fieldsBut [.dtime])) s.tickSent s.tickSent.endTick.stopTick :=
    State.stopTick_touches _ (.lit rfl) (State.endTick_touches _ (.lit rfl) (.refl _))
  exact (hend.1 .dtime rfl).trans (s.tickSent_frame.1 .dtime rfl)

end

/-- Settles O2: a step without a command is a tick, whose frame leaves the queue, and only whose clock moves DTIME. -/
theorem idleStepLetsTimePass : Obligations.IdleStepLetsTimePass := by
  intro s hpending
  have hstep : step s = .next s.tick := by rw [step, hpending]
  have hqueue : s.tick.pending = s.pending := (State.tick_touches s (.refl _) (.refl s)).1 .pending rfl
  exact ⟨s.tick, hstep, hqueue.trans hpending, State.tick_unpowered,
    fun hpower hposted => (State.dtime_tick hpower hposted).trans s.dtime_tickClock⟩

end Sys2Proof.Machine

/-!
PROOFS. The service-core harts (R23, R24, R252): their cached lines, and their accesses to bytes of one line (O33).
-/
namespace Sys2Proof.Machine

section
variable {s : State} {h a n : Nat} {l : HartLine}

/-! ## Cached lines (R24) -/

theorem State.hartLine_putHartLine (s : State) (a : Nat) (hl : l ≠ HartLine.none) : (s.putHartLine a l).hartLine a = some l := by
  rw [State.hartLine, State.putHartLine, State.lines_setLines, Sparse.get_put_self]
  exact if_neg hl

theorem State.hartLine_dropHartLine (s : State) (a : Nat) : (s.dropHartLine a).hartLine a = none := by
  rw [State.hartLine, State.dropHartLine, State.putHartLine, State.lines_setLines, Sparse.get_put_self]
  exact if_pos rfl

theorem State.mem_putHartLine (s : State) (a : Nat) (l : HartLine) : (s.putHartLine a l).mem = s.mem := rfl
theorem State.mem_dropHartLine (s : State) (a : Nat) : (s.dropHartLine a).mem = s.mem := rfl

/-- A line that holds bytes is a line. -/
theorem HartLine.ne_none (hl : l.data ≠ []) : l ≠ HartLine.none := fun e => hl (congrArg HartLine.data e)

theorem HartLine.write_ne_none (l : HartLine) (i : Nat) (bs : List (BitVec 8)) : l.write i bs ≠ HartLine.none := fun e =>
  Bool.noConfusion (congrArg HartLine.dirty e : true = false)

/-! ## Rows of bytes -/

theorem State.length_bytes (s : State) (a n : Nat) : (s.bytes a n).length = n := by
  induction n generalizing a with
  | zero => rfl
  | succ n ih => rw [State.bytes, List.length_cons, ih]

theorem State.bytes_add (s : State) (a m n : Nat) : s.bytes a (m + n) = s.bytes a m ++ s.bytes (a + m) n := by
  induction m generalizing a with
  | zero => rw [Nat.zero_add]; rfl
  | succ m ih =>
    rw [Nat.add_right_comm, State.bytes, ih (a + 1), State.bytes, List.cons_append, Nat.add_right_comm a 1 m]
    rfl

/-- The `n` bytes at byte `i` of a row. -/
theorem State.bytes_drop_take (s : State) (a : Nat) {i m : Nat} (hm : i + n ≤ m) :
    ((s.bytes a m).drop i).take n = s.bytes (a + i) n := by
  obtain ⟨r, rfl⟩ := Nat.exists_eq_add_of_le hm
  rw [State.bytes_add, List.take_drop, List.take_left' (s.length_bytes a (i + n)), State.bytes_add, List.drop_left' (s.length_bytes a i)]

/-- A line with bytes of memory is one. -/
theorem State.fetched_ne_none (s : State) (b : Nat) : (⟨false, s.bytes b 64⟩ : HartLine) ≠ HartLine.none :=
  HartLine.ne_none (List.cons_ne_nil _ _)

/-! ## A piece of one line -/

theorem linePieces_one (hn : 0 < n) (hl : a % 64 + n ≤ 64) : linePieces a n = [n] := by
  have hone : (a + n + 63) / 64 - a / 64 = 1 := by omega
  rw [linePieces, hone]
  simp only [List.range_one, List.map_cons, List.map_nil, List.cons.injEq, and_true]
  omega

theorem cutBytes_one (bs : List (BitVec 8)) : cutBytes [bs.length] bs = [bs] := by
  rw [cutBytes, List.take_length]
  rfl

/-- In machine mode an address is a CPA. -/
theorem State.hartTranslate_machine (s : State) (need : HartNeed) (ha : a < 2 ^ 48) :
    s.hartTranslate h .machine need (a % 2 ^ 64) = (s, .ok (a, true)) := by
  rw [Nat.mod_eq_of_lt (by omega)]
  rfl

theorem hart_runs (hr : s.rdBit .refReadyReady = true) (hh : h < 32) : ¬(s.rdBit .refReadyReady = false ∨ h ≥ 32) := by
  simp [hr, hh]

section
variable (hr : s.rdBit .refReadyReady = true) (hh : h < 32) (hn : 0 < n) (hl : a % 64 + n ≤ 64) (ha : a + n ≤ 2 ^ 48)
include hr hh hn hl ha

theorem exec_hartLoad_answers {t : State} {bs : List (BitVec 8)} (hload : s.hartLoadAt h a n true = (t, .ok bs)) :
    exec (.serviceCoreMemoryAccess h (.load .machine) a n) s = .next (t.reply (some (natOfBytes bs))) := by
  have hone : s.hartLoad h .machine a [n] = (t, .ok bs) := by
    rw [State.hartLoad, State.hartTranslate_machine s .load (by omega)]
    dsimp only
    rw [hload]
    dsimp only
    rw [State.hartLoad]
    dsimp only
    rw [List.append_nil]
  show execServiceCoreMemoryAccess h (.load .machine) a n s = _
  rw [execServiceCoreMemoryAccess, if_neg (hart_runs hr hh)]
  dsimp only
  rw [linePieces_one hn hl, hone]

theorem exec_hartStore_ends {t : State} {v : Nat} (hstore : s.hartStoreAt h a (bytesOfNat n v) true = (t, none)) :
    exec (.serviceCoreMemoryAccess h (.store .machine v) a n) s = .next t := by
  have hone : s.hartStore h .machine a [bytesOfNat n v] = (t, none) := by
    rw [State.hartStore, State.hartTranslate_machine s .store (by omega)]
    dsimp only
    rw [hstore]
    rfl
  have hcut : cutBytes [n] (bytesOfNat n v) = [bytesOfNat n v] := by
    have h := cutBytes_one (bytesOfNat n v)
    rwa [bytesOfNat_length] at h
  show execServiceCoreMemoryAccess h (.store .machine v) a n s = _
  rw [execServiceCoreMemoryAccess, if_neg (hart_runs hr hh)]
  dsimp only
  rw [linePieces_one hn hl, hcut, hone]

end

/-! ## Loads (R24, R252) -/

section
variable (ha : a + n ≤ 2 ^ 48) (hspace : inRegSpace a n = false)
include ha hspace

theorem State.hartLoadAt_refused {c : Code} {cached : Bool} (hc : (s.checkRange (s.hartAccessor h) a n false).1.code = some c) :
    s.hartLoadAt h a n cached = (s.refuseAccess c sevNotice (unitHart h) (s.hartAccessor h)
      (s.checkRange (s.hartAccessor h) a n false).2 false, .ok (bytesOfNat n (onesOf n))) := by
  rw [State.hartLoadAt]
  dsimp only
  rw [if_neg (by omega), if_neg (ne_true_of_eq_false hspace), hc]

theorem State.hartLoadAt_hit (hok : (s.checkRange (s.hartAccessor h) a n false).1 = .ok) (hline : s.hartLine a = some l) :
    s.hartLoadAt h a n true = (s, .ok ((l.data.drop (a % 64)).take n)) := by
  have hbytes : s.hartBytes a n = (l.data.drop (a % 64)).take n := by rw [State.hartBytes, hline]
  rw [State.hartLoadAt]
  dsimp only
  rw [if_neg (by omega), if_neg (ne_true_of_eq_false hspace), hok, ← hbytes]
  exact if_neg (hline ▸ Option.some_ne_none l)

/-- A line fetched from clean bytes holds them. -/
theorem State.hartLoadAt_fetches (hn : a % 64 + n ≤ 64) (hok : (s.checkRange (s.hartAccessor h) a n false).1 = .ok)
    (hline : s.hartLine a = none) (hp : s.poisoned (a / 64 * 64) 64 = false) (hb : anyMarked s.bad (a / 64 * 64) 64 = false) :
    s.hartLoadAt h a n true = ((s.cacheReads (a / 64 * 64) 64 0).putHartLine a ⟨false, s.bytes (a / 64 * 64) 64⟩, .ok (s.bytes a n)) := by
  have hfetch : s.fetchHartLine h a false =
      ((s.cacheReads (a / 64 * 64) 64 0).putHartLine a ⟨false, s.bytes (a / 64 * 64) 64⟩, none) := by
    rw [State.fetchHartLine, if_neg (ne_true_of_eq_false hp), if_neg (ne_true_of_eq_false hb)]
  have hbytes : ((s.cacheReads (a / 64 * 64) 64 0).putHartLine a ⟨false, s.bytes (a / 64 * 64) 64⟩).hartBytes a n = s.bytes a n := by
    rw [State.hartBytes, State.hartLine_putHartLine _ _ (s.fetched_ne_none _)]
    dsimp only
    rw [State.bytes_drop_take s _ hn, show a / 64 * 64 + a % 64 = a by omega]
  rw [State.hartLoadAt]
  dsimp only
  rw [if_neg (by omega), if_neg (ne_true_of_eq_false hspace), hok, if_pos rfl, hfetch]
  dsimp only
  rw [if_pos hline, hbytes]
  rfl

end

/-! ## Stores -/

section
variable {v : Nat} (ha : a + n ≤ 2 ^ 48) (hspace : inRegSpace a n = false)
include ha hspace

theorem State.hartStoreAt_refused {c : Code} (hc : (s.checkRange (s.hartAccessor h) a n true).1.code = some c) :
    s.hartStoreAt h a (bytesOfNat n v) true = (s.refuseAccess c sevNotice (unitHart h) (s.hartAccessor h)
      (s.checkRange (s.hartAccessor h) a n true).2 true, none) := by
  rw [State.hartStoreAt]
  dsimp only
  rw [bytesOfNat_length, if_neg (by omega), if_neg (ne_true_of_eq_false hspace), hc]

theorem State.hartStoreAt_hit (hok : (s.checkRange (s.hartAccessor h) a n true).1 = .ok) (hline : s.hartLine a = some l) :
    s.hartStoreAt h a (bytesOfNat n v) true = (s.putHartLine a (l.write (a % 64) (bytesOfNat n v)), none) := by
  have hallowed : (s.checkRange (s.hartAccessor h) a n true).1.code = none := by rw [hok]; rfl
  have hkept : (if s.hartLine a = none then s.fetchHartLine h a true else (s, none)) = (s, none) :=
    if_neg (hline ▸ Option.some_ne_none l)
  rw [State.hartStoreAt]
  dsimp only
  rw [bytesOfNat_length, if_neg (by omega), if_neg (ne_true_of_eq_false hspace), hallowed]
  dsimp only
  rw [if_neg Bool.noConfusion, hkept]
  dsimp only
  rw [hline]

end

/-! ## Eviction and cache-block operations (R24) -/

theorem State.writeBack_dirty (hline : s.hartLine a = some l) (hd : l.dirty = true)
    (hok : (s.checkRange (s.hartAccessor h) (a / 64 * 64) 64 true).1 = .ok) : s.writeBack h a =
      ((s.store (a / 64 * 64) l.data).cacheWrites (a / 64 * 64) 64 0).putHartLine a { l with dirty := false } := by
  rw [State.writeBack, hline]
  dsimp only
  rw [if_neg (ne_false_of_eq_true hd), hok]
  rfl

/-- What is written back stands in memory, and the line is clean. -/
theorem State.writeBack_effect (hline : s.hartLine a = some l) (hd : l.dirty = true) (h64 : l.data.length = 64)
    (hok : (s.checkRange (s.hartAccessor h) (a / 64 * 64) 64 true).1 = .ok) :
    (s.writeBack h a).mem = (s.store (a / 64 * 64) l.data).mem ∧ (s.writeBack h a).hartLine a = some { l with dirty := false } := by
  have hframe := State.cacheWrites_touches (s.store (a / 64 * 64) l.data) (a / 64 * 64) 64 0 (.refl _) (.refl _)
  have hdata : l.data ≠ [] := List.ne_nil_of_length_pos (by omega)
  rw [State.writeBack_dirty hline hd hok, State.mem_putHartLine]
  exact ⟨hframe.1 .mem rfl, State.hartLine_putHartLine _ _ (HartLine.ne_none hdata)⟩

theorem State.hartBlock_machine (s : State) (ha : a < 2 ^ 48) (write drop : Bool) : s.hartBlock h .machine a write drop =
    let u := if write then s.writeBack h a else s
    if drop then u.dropHartLine a else u := by
  rw [State.hartBlock, State.hartTranslate_machine s .block ha]
  exact if_neg (Nat.not_le.2 ha)

end

section
variable {s : State} {h a n : Nat} (hr : s.rdBit .refReadyReady = true) (hh : h < 32)
include hr hh

/-- Each operation that is not a load or a store, by its equation. -/
theorem exec_hartEvict : exec (.serviceCoreMemoryAccess h .evict a n) s = .next ((s.writeBack h a).dropHartLine a) :=
  if_neg (hart_runs hr hh)

theorem exec_hartClean (ha : a < 2 ^ 48) : exec (.serviceCoreMemoryAccess h (.clean .machine) a n) s = .next (s.writeBack h a) :=
  (if_neg (hart_runs hr hh)).trans (congrArg Host.Outcome.next (s.hartBlock_machine ha true false))

theorem exec_hartFlush (ha : a < 2 ^ 48) :
    exec (.serviceCoreMemoryAccess h (.flush .machine) a n) s = .next ((s.writeBack h a).dropHartLine a) :=
  (if_neg (hart_runs hr hh)).trans (congrArg Host.Outcome.next (s.hartBlock_machine ha true true))

theorem exec_hartInval (ha : a < 2 ^ 48) : exec (.serviceCoreMemoryAccess h (.inval .machine) a n) s = .next (s.dropHartLine a) :=
  (if_neg (hart_runs hr hh)).trans (congrArg Host.Outcome.next (s.hartBlock_machine ha false true))

theorem exec_hartReadTime :
    exec (.serviceCoreMemoryAccess h .readTime a n) s = .next (s.reply (some (s.dtime % 2 ^ 64))) := if_neg (hart_runs hr hh)

theorem exec_hartWriteCsr (csr v : Nat) : exec (.serviceCoreMemoryAccess h (.writeCsr v) csr n) s = .next (s.writeHartCsr h csr v) :=
  if_neg (hart_runs hr hh)

end

/-! ## satp (R23) -/

/-- satp takes a value of a MODE that the harts have, and no other. -/
theorem State.writeHartCsr_satp (s : State) (h v : Nat) : s.writeHartCsr h 0x180 v =
    if bitsAt (v % 2 ^ 64) 60 4 = 0 ∨ bitsAt (v % 2 ^ 64) 60 4 = 8 ∨ bitsAt (v % 2 ^ 64) 60 4 = 9 then
      s.setHartCsr (Sparse.put 0 (4096 * h + 0x180) (v % 2 ^ 64) s.hartCsr) else s := by
  rw [State.writeHartCsr]
  dsimp only
  rw [if_pos (.inl rfl)]
  simp only [Bool.or_eq_true, beq_iff_eq, or_assoc]

/-- Settles O33: each access has the equation of its outcome, and what it leaves is read off the line's state. -/
theorem hartAccessesSeeAndKeepMemory : Obligations.HartAccessesSeeAndKeepMemory := by
  intro s h a n hr hh
  refine ⟨fun hn hl ha hspace => ⟨fun hok hline hp hb => ?_, fun l hok hline => ?_, fun c hc => ?_, fun l v hok hline => ?_,
      fun c v hc => ?_⟩,
    fun l ha hline hd h64 hok => ?_, fun ha => ⟨_, exec_hartInval hr hh ha, s.mem_dropHartLine a, s.hartLine_dropHartLine a⟩,
    ⟨_, exec_hartReadTime hr hh, rfl, rfl⟩, fun v hv => ?_, fun v hv => ?_⟩
  · have hframe := State.cacheReads_touches s (a / 64 * 64) 64 0 (.refl _) (.refl s)
    refine ⟨_, exec_hartLoad_answers hr hh hn hl ha (State.hartLoadAt_fetches ha hspace hl hok hline hp hb), hframe.1 .mem rfl,
      hframe.1 .book rfl, ?_, congrArg (· ++ _) (hframe.1 .out rfl)⟩
    exact State.hartLine_putHartLine _ _ (s.fetched_ne_none _)
  · exact exec_hartLoad_answers hr hh hn hl ha (State.hartLoadAt_hit ha hspace hok hline)
  · have hframe := State.refuseAccess_touches s c sevNotice (unitHart h) (s.hartAccessor h)
      (s.checkRange (s.hartAccessor h) a n false).2 false (.refl _) (.refl s)
    exact ⟨_, exec_hartLoad_answers hr hh hn hl ha (State.hartLoadAt_refused ha hspace hc), hframe.1 .mem rfl, hframe.1 .lines rfl,
      congrArg (· ++ _) (hframe.1 .out rfl)⟩
  · exact ⟨_, exec_hartStore_ends hr hh hn hl ha (State.hartStoreAt_hit ha hspace hok hline), rfl, rfl, rfl,
      s.hartLine_putHartLine a (l.write_ne_none _ _)⟩
  · have hframe := State.refuseAccess_touches s c sevNotice (unitHart h) (s.hartAccessor h)
      (s.checkRange (s.hartAccessor h) a n true).2 true (.refl _) (.refl s)
    exact ⟨_, exec_hartStore_ends hr hh hn hl ha (State.hartStoreAt_refused ha hspace hc), hframe.1 .mem rfl, hframe.1 .book rfl,
      hframe.1 .lines rfl, hframe.1 .out rfl⟩
  · obtain ⟨hmem, hclean⟩ := State.writeBack_effect hline hd h64 hok
    exact ⟨⟨_, exec_hartEvict hr hh, hmem, State.hartLine_dropHartLine _ a⟩, ⟨_, exec_hartClean hr hh ha, hmem, hclean⟩,
      ⟨_, exec_hartFlush hr hh ha, hmem, State.hartLine_dropHartLine _ a⟩⟩
  · rw [exec_hartWriteCsr hr hh, s.writeHartCsr_satp, if_neg (by omega)]
  · refine ⟨_, exec_hartWriteCsr hr hh 0x180 v, ?_⟩
    rw [s.writeHartCsr_satp, if_pos (.inr hv), State.hartCsrOf, State.hartCsr_setHartCsr, Sparse.get_put_self]

end Sys2Proof.Machine

/-!
PROOFS. Membership and time (sections 13.6 and 13.7): HELLO, heartbeats, JOIN, VIEW and TIME, and the requests and peers that time
out (O45).
-/
namespace Sys2Proof.Machine

section
variable {s : State} {i n : Nat} {m : Msg}

/-! ## HELLO (R329) -/

/-- The peer of a port of the octet has another place than the cabling gives it. -/
def State.Miscabled (s : State) (n pod octet position peer : Nat) : Prop :=
  n < 14 ∧ (pod ≠ s.rd .lnkIdentPodId ∨ octet ≠ s.rd .lnkIdentOctet ∨ position ≠ (s.rd .lnkIdentPosition + (n / 2 + 1)) % 8 ∨
    peer ≠ 2 * (7 - (n / 2 + 1)) + n % 2)

/-- The state after port `n` has sent its own HELLO. -/
def State.helloSent (s : State) (n : Nat) : State := s.setOut (s.out ++ [Output.hello n (s.helloMsg n)])

/-- The state after the peer's HELLO has been taken: who the peer is, that the exchange has succeeded, and its automatic route. -/
def State.helloTaken (s : State) (n chip position peer : Nat) : State :=
  let u := (((s.wr (.lnkPortStatusPeerChip n) chip).wr (.lnkPortStatusPeerPort n) peer).wr (.lnkPortStatusPeerPosition n) position).modPort n
    (fun p => { p with helloed := true })
  (((u.wr (.lnkRoutePorts chip) (u.rd (.lnkRoutePorts chip) ||| pow2 n)).wr (.lnkRouteValid chip) 1).wr (.lnkRouteAuto chip) 1).setStep n 5

theorem State.rd_state_bringupFailed (s : State) (n : Nat) : (s.bringupFailed n).rd (.lnkPortStatusState n) = 0 :=
  State.rd_state_setStep _ n (by decide)

theorem State.events_bringupFailed (s : State) (n : Nat) : (s.bringupFailed n).events = s.events :=
  (State.bringupFailed_touches s n (.refl _) (.refl s)).1 .events rfl

theorem State.out_bringupFailed (s : State) (n : Nat) : (s.bringupFailed n).out = s.out :=
  (State.bringupFailed_touches s n (.refl _) (.refl s)).1 .out rfl

theorem State.mem_events_raise_code (s : State) (code : Code) (unit part pay : Nat) :
    ∃ e ∈ (s.raise code unit part pay).events, e.code = code.val := by
  obtain ⟨e, hmem, hcode, -⟩ := s.mem_events_raise code unit part pay
  exact ⟨e, hmem, hcode⟩

theorem State.rd_state_helloTaken (s : State) (n chip position peer : Nat) :
    (s.helloTaken n chip position peer).rd (.lnkPortStatusState n) = 5 := State.rd_state_setStep _ n (by decide)

theorem State.helloed_helloTaken (s : State) (n chip position peer : Nat) : ((s.helloTaken n chip position peer).port n).helloed = true := by
  rw [State.helloTaken, State.setStep, State.port_wr, State.port_modPort_self, State.port_wr, State.port_wr, State.port_wr,
    State.port_modPort_self]

/-- The route stands beside the port's registers. -/
theorem State.rd_route_helloTaken (s : State) (chip position peer : Nat) (hn : n < 18) :
    (s.helloTaken n chip position peer).rd (.lnkRouteAuto chip) = 1 ∧ (s.helloTaken n chip position peer).rd (.lnkRouteValid chip) = 1 := by
  have hne : Reg.lnkPortStatus n ≠ Reg.lnkRoute chip := by unfold Reg.lnkPortStatus Reg.lnkRoute; omega
  rw [State.helloTaken, State.rd_setStep_ne _ _ hne, State.rd_setStep_ne _ _ hne]
  constructor
  · exact State.rd_wr_self _ _ _ (of_decide_eq_true rfl)
  · rw [State.rd_wr_ne _ _ _ _ (.inr (of_decide_eq_true rfl)), State.rd_wr_self _ _ _ (of_decide_eq_true rfl)]
    rfl

theorem State.out_helloTaken (s : State) (n chip position peer : Nat) : (s.helloTaken n chip position peer).out = s.out := by
  rw [State.helloTaken, State.setStep, State.out_wr, State.out_modPort, State.out_wr, State.out_wr, State.out_wr, State.out_modPort,
    State.out_wr, State.out_wr, State.out_wr]

section
variable {chip pod octet position peer : Nat} (hn : n < 18) (h4 : s.rd (.lnkPortStatusState n) = 4) (h0 : s.rd (.lnkPortCtrlMode n) = 0)
include hn h4 h0

theorem hello_expected : ¬(n ≥ 18 ∨ s.rd (.lnkPortStatusState n) ≠ 4 ∨ s.rd (.lnkPortCtrlMode n) ≠ 0) := by omega

theorem exec_msgHello_conflict (hc : chip = s.chipId ∨ chip ≥ 0xFFFF) : exec (.msgHello n chip pod octet position peer) s =
    .next (((s.helloSent n).raise .lnkIdConflict (unitPort n 63) noPart (payload [(16, 1, n), (17, 2, chip)])).bringupFailed n) :=
  (if_neg (hello_expected hn h4 h0)).trans (if_pos hc)

theorem exec_msgHello_miscabled (hid : chip ≠ s.chipId) (hc : chip < 0xFFFF) (hbad : s.Miscabled n pod octet position peer) :
    exec (.msgHello n chip pod octet position peer) s = .next (((s.helloSent n).raise .lnkCabling (unitPort n 63) noPart
      (payload [(16, 1, n), (17, 2, chip), (19, 1, peer), (20, 1, position)])).bringupFailed n) :=
  (if_neg (hello_expected hn h4 h0)).trans ((if_neg (not_or.2 ⟨hid, Nat.not_le.2 hc⟩)).trans
    (if_pos (Bool.and_eq_true_iff.2 ⟨decide_eq_true hbad.1, decide_eq_true hbad.2⟩)))

theorem exec_msgHello_good (hid : chip ≠ s.chipId) (hc : chip < 0xFFFF) (hgood : ¬ s.Miscabled n pod octet position peer) :
    exec (.msgHello n chip pod octet position peer) s = .next ((s.helloSent n).helloTaken n chip position peer) := by
  have hcabled := fun h => hgood (And.imp of_decide_eq_true of_decide_eq_true (Bool.and_eq_true_iff.1 h))
  exact (if_neg (hello_expected hn h4 h0)).trans ((if_neg (not_or.2 ⟨hid, Nat.not_le.2 hc⟩)).trans (if_neg hcabled))

end

/-- HELLO is answered, and by what it says of the peer the bring-up fails or goes on. -/
theorem exec_msgHello_answers {chip pod octet position peer : Nat} (hn : n < 18) (h4 : s.rd (.lnkPortStatusState n) = 4)
    (h0 : s.rd (.lnkPortCtrlMode n) = 0) :
    ∃ t, exec (.msgHello n chip pod octet position peer) s = .next t ∧ t.out = s.out ++ [.hello n (s.helloMsg n)] ∧
      (chip = s.chipId ∨ chip ≥ 0xFFFF → t.rd (.lnkPortStatusState n) = 0 ∧ ∃ e ∈ t.events, e.code = Code.lnkIdConflict.val) ∧
      (chip ≠ s.chipId → chip < 0xFFFF → s.Miscabled n pod octet position peer →
        t.rd (.lnkPortStatusState n) = 0 ∧ ∃ e ∈ t.events, e.code = Code.lnkCabling.val) ∧
      (chip ≠ s.chipId → chip < 0xFFFF → ¬ s.Miscabled n pod octet position peer → t.rd (.lnkPortStatusState n) = 5 ∧
        (t.port n).helloed = true ∧ t.rd (.lnkRouteAuto chip) = 1 ∧ t.rd (.lnkRouteValid chip) = 1) := by
  by_cases hc : chip = s.chipId ∨ chip ≥ 0xFFFF
  · refine ⟨_, exec_msgHello_conflict hn h4 h0 hc, State.out_bringupFailed .., fun _ => ⟨State.rd_state_bringupFailed .., ?_⟩,
      fun hid hlt => absurd hc (by omega), fun hid hlt => absurd hc (by omega)⟩
    rw [State.events_bringupFailed]
    exact State.mem_events_raise_code ..
  · obtain ⟨hid, hlt⟩ := not_or.1 hc
    by_cases hbad : s.Miscabled n pod octet position peer
    · refine ⟨_, exec_msgHello_miscabled hn h4 h0 hid (Nat.lt_of_not_le hlt) hbad, State.out_bringupFailed .., fun h => absurd h hc,
        fun _ _ _ => ⟨State.rd_state_bringupFailed .., ?_⟩, fun _ _ h => absurd hbad h⟩
      rw [State.events_bringupFailed]
      exact State.mem_events_raise_code ..
    · exact ⟨_, exec_msgHello_good hn h4 h0 hid (Nat.lt_of_not_le hlt) hbad, State.out_helloTaken .., fun h => absurd h hc,
        fun _ _ h => absurd h hbad, fun _ _ _ => ⟨State.rd_state_helloTaken .., State.helloed_helloTaken ..,
          State.rd_route_helloTaken _ chip position peer hn⟩⟩

/-! ## Requests without a response (R335) -/

theorem exec_lnkRequestTimeout_found {tag : Nat} {r : Req} (h : s.reqs.find? (fun r => decide (r.tag = tag)) = some r) :
    exec (.lnkRequestTimeout tag) s = .next (((s.setDtime (max s.dtime (r.sent + 1000000 * max 1 (s.rd .lnkCfgReqTimeoutMs)))).raise
      .lnkTimeout (s.agentUnit r.agent) (s.agentPart r.agent) (payload [(16, 2, r.dst), (18, 1, r.type), (20, 8, r.addr)])).failReq r
        Code.lnkTimeout.val) := by
  show execLnkRequestTimeout tag s = _
  rw [execLnkRequestTimeout, h]
  rfl

theorem State.tags_failReq (s : State) (r : Req) (code : Nat) : ∀ z ∈ (s.failReq r code).reqs, z.tag ≠ r.tag := by
  rw [State.reqs_failReq]
  exact State.reqs_dropReq r.tag

theorem State.events_failReq (s : State) (r : Req) (code : Nat) : (s.failReq r code).events = s.events :=
  (State.failReq_touches s r code (.refl _) (.refl s)).1 .events rfl

/-! ## Time (R344) -/

theorem State.offsets_correctTime (s : State) (o : Int) : (s.correctTime o).fellows.offsets = s.fellows.offsets := by
  unfold State.correctTime
  split <;> rfl

/-- An offset joins the last 16, whatever else it corrects. -/
theorem State.offsets_offsetIn (s : State) (o : Int) : (s.offsetIn o).fellows.offsets = (o :: s.fellows.offsets).take 16 := by
  unfold State.offsetIn
  dsimp only
  split
  · exact State.offsets_correctTime _ o
  · exact State.offsets_correctTime _ o

theorem exec_timeAdjWrite_taken (off : Nat) (hb : s.barShut false = false) (h : s.rd .lnkRoleTimeSrc = 1) :
    exec (.timeAdjWrite true off) s = .next (s.offsetIn (signed 64 off)) :=
  (if_neg (ne_true_of_eq_false hb)).trans ((if_neg Bool.noConfusion).trans (if_neg (not_not_intro h)))

theorem exec_timeSyncTimer_asks {p : Nat} (h : s.timeParent = some p) :
    exec .timeSyncTimer s = .next (s.sendMgt (s.message 0x54 1 p 0 0 s.dtime)) := by
  show execTimeSyncTimer s = _
  rw [execTimeSyncTimer, h]

/-- A message of the protocols that has a route stands in the queue of a port of it. -/
theorem State.mem_sendMgt_to {x : Msg} {p : Nat} (hp : x.dst = p) (h : s.canRoute x = true) :
    ∃ k ∈ s.routePorts p, { x with unit := unitLink } ∈ ((s.sendMgt x).port k).txq := by
  rw [← hp, State.sendMgt, State.sendMsg, if_pos h]
  exact State.mem_enqueueMsg unitLink h

theorem State.sendMgt_frame (s : State) (x : Msg) : Touches (fieldMask [.events, .ports]) s (s.sendMgt x) :=
  State.sendMgt_touches s x (.refl _) (.refl s)

theorem State.rd_freeMsg (s : State) (i : Nat) (f : RF) : (s.freeMsg i).rd f = s.rd f :=
  State.rd_congr ((State.freeMsg_frame i).1 .regs rfl) f

theorem State.chipRole_freeMsg (s : State) (i : Nat) : (s.freeMsg i).chipRole = s.chipRole := s.rd_freeMsg i _

theorem State.dtime_freeMsg (s : State) (i : Nat) : (s.freeMsg i).dtime = s.dtime := (State.freeMsg_frame i).1 .dtime rfl

theorem State.fellows_freeMsg (s : State) (i : Nat) : (s.freeMsg i).fellows = s.fellows := (State.freeMsg_frame i).1 .fellows rfl

theorem State.timeParent_freeMsg (s : State) (i : Nat) : (s.freeMsg i).timeParent = s.timeParent := by
  rw [State.timeParent, State.timeParent, s.chipRole_freeMsg, s.rd_freeMsg]

theorem exec_msgTime_asked (res : Nat) (h : s.msgAt i 0x54 = some (n, m)) (hd : m.dst = s.chipId) (hk : bitsAt m.arg 0 8 = 0) :
    exec (.msgTime i res) s = .next ((s.freeMsg i).sendMgt (m.reply 0x54 1 1
      (bitsAt m.data 0 64 + s.dtime % 2 ^ 64 * 2 ^ 64 + (s.dtime + res) % 2 ^ 64 * 2 ^ 128 + bitsAt m.data 192 64 * 2 ^ 192))) := by
  show execMsgTime i res s = _
  rw [execMsgTime, h]
  dsimp only
  rw [if_neg (not_not_intro hd), if_pos hk, s.dtime_freeMsg]

theorem exec_msgTime_answered (res : Nat) (h : s.msgAt i 0x54 = some (n, m)) (hd : m.dst = s.chipId) (hk : bitsAt m.arg 0 8 ≠ 0)
    (hp : s.timeParent = some m.src) : exec (.msgTime i res) s = .next ((s.freeMsg i).offsetIn
      (((((bitsAt m.data 64 64 : Nat) : Int) - (bitsAt m.data 0 64 : Nat)) - ((s.dtime : Int) - (bitsAt m.data 128 64 : Nat)) -
        (bitsAt m.data 192 64 : Nat)) / 2)) := by
  show execMsgTime i res s = _
  rw [execMsgTime, h]
  dsimp only
  rw [if_neg (not_not_intro hd), if_neg hk, s.timeParent_freeMsg, if_neg (not_not_intro hp), s.dtime_freeMsg]

/-! ## Views (R342) -/

theorem State.members_holdView (s : State) (id : Nat) (ms : List Nat) : (s.holdView id ms).fellows.members = ms := by
  unfold State.holdView
  dsimp only
  rw [show (State.writeVia _ _ _ _ _ _).fellows = _ from (State.writeVia_touches _ _ _ _ _ _ (.refl _) (.refl _)).1 .fellows rfl]
  rfl

theorem State.members_changeView (s : State) (ms : List Nat) : (s.changeView ms).fellows.members = ms := by
  unfold State.changeView
  dsimp only
  rw [show (State.computeGroups _).fellows = _ from (State.computeGroups_touches _ (.refl _) (.refl _)).1 .fellows rfl,
    show (State.sendView _ _ _ _ _ _).fellows = _ from (State.sendView_touches _ _ _ _ _ _ (.refl _) (.refl _)).1 .fellows rfl,
    State.members_holdView]

theorem State.fellows_setManager (s : State) (chip : Nat) : (s.setManager chip).fellows = s.fellows :=
  (State.setManager_touches s chip (.refl _) (.refl s)).1 .fellows rfl

theorem State.fellows_sendJoin (s : State) (dst kind : Nat) : (s.sendJoin dst kind).fellows = s.fellows :=
  (State.sendJoin_touches s dst kind (.refl _) (.refl s)).1 .fellows rfl

theorem State.rd_sendJoin (s : State) (dst kind : Nat) (f : RF) : (s.sendJoin dst kind).rd f = s.rd f :=
  State.rd_congr ((State.sendJoin_touches s dst kind (.refl _) (.refl s)).1 .regs rfl) f

theorem State.members_hear (s : State) (chip : Nat) : (s.hear chip).fellows.members = s.fellows.members := rfl

/-- A worker holds the members of a newer view of its pod. -/
theorem State.members_podView {src id : Nat} {ms : List Nat} (hrole : s.chipRole = roleWorker) (hid : s.rd .lnkViewViewId < id) :
    (s.podView src id ms).fellows.members = ms := by
  have hheld : ((((s.holdView id ms).setManager src).wr .lnkRoleParent src).hear src).fellows.members = ms := by
    rw [State.members_hear, State.fellows_wr, State.fellows_setManager, State.members_holdView]
  unfold State.podView
  rw [hrole, if_neg (by decide), if_neg (by decide), if_neg (Nat.not_le.2 hid)]
  dsimp only
  split
  · exact hheld
  · rw [State.fellows_sendJoin, show (State.leaveGroups _).fellows = _ from (State.leaveGroups_touches _ (.refl _) (.refl _)).1 .fellows rfl,
      hheld]

/-! ## Heartbeats (R342) -/

/-- What is inserted under a key is found first under it, in whatever order the list stands. -/
theorem Sparse.find?_insert {α : Type} (k : Nat) (v : α) (l : List (Nat × α)) :
    (Sparse.insert k v l).find? (fun x => decide (x.1 = k)) = some (k, v) := by
  induction l with
  | nil => simp [Sparse.insert]
  | cons p l ih =>
    obtain ⟨k', v'⟩ := p
    rw [Sparse.insert]
    by_cases hlt : k < k'
    · simp [hlt]
    · by_cases heq : k = k'
      · simp [heq]
      · simpa [hlt, heq, Ne.symm heq] using ih

theorem State.lastHeard_hear (s : State) (chip : Nat) : (s.hear chip).lastHeard chip = some s.dtime :=
  congrArg (Option.map Prod.snd) (Sparse.find?_insert chip s.dtime s.fellows.heard)

theorem State.rd_setManager_ne (s : State) (chip : Nat) {f : RF} (h : Reg.lnkView ≠ f.reg) : (s.setManager chip).rd f = s.rd f := by
  unfold State.setManager
  dsimp only
  split
  · rw [State.rd_wr_ne _ _ _ _ (.inl h), State.rd_wr_ne _ _ _ _ (.inl h)]
  · rw [State.rd_raise, State.rd_wr_ne _ _ _ _ (.inl h), State.rd_wr_ne _ _ _ _ (.inl h)]

/-- A manager that meets one of a higher VIEW_ID becomes a worker. -/
theorem State.chipRole_rival {chip id : Nat} (h : s.rd .lnkViewViewId < id) : (s.rival chip id).chipRole = roleWorker := by
  unfold State.rival State.chipRole
  dsimp only
  rw [if_pos (.inl h), State.rd_sendJoin, State.hear, State.rd_modFellows, State.rd_setManager_ne _ _ (of_decide_eq_true rfl),
    State.rd_wr_ne _ _ _ _ (.inr (of_decide_eq_true rfl)), State.rd_wr_self _ _ _ (of_decide_eq_true rfl)]
  rfl

section
variable (he : s.rd .lnkRoleEnable = 1)
include he

theorem exec_heartbeatTimer_worker {p : Nat} (hp : s.rd .lnkRoleParent = p) (hc : p ≠ noChip) (hrole : s.chipRole = roleWorker)
    (hmem : s.chipId ∈ s.fellows.members) :
    exec .heartbeatTimer s = .next (s.sendMgt (s.message 0x51 0 p 0 (s.rd .lnkViewViewId + s.chipRole * 2 ^ 32) 0)) := by
  have hpeers : s.heartPeers = [p] := by simp [State.heartPeers, hp, hrole, hc, roleWorker, roleManager, roleHead]
  have hone : s.heartPeers.foldl (fun u d => u.sendMgt (u.message 0x51 0 d 0 (u.rd .lnkViewViewId + u.chipRole * 2 ^ 32) 0)) s =
      s.sendMgt (s.message 0x51 0 p 0 (s.rd .lnkViewViewId + s.chipRole * 2 ^ 32) 0) := by rw [hpeers]; rfl
  have hframe := s.sendMgt_frame (s.message 0x51 0 p 0 (s.rd .lnkViewViewId + s.chipRole * 2 ^ 32) 0)
  show execHeartbeatTimer s = _
  rw [execHeartbeatTimer, if_neg (ne_false_of_eq_true (State.rdBit_eq_true he)), hone]
  generalize s.sendMgt _ = t at hframe ⊢
  have hin : t.fellows.members.contains t.chipId = true := by
    rw [hframe.1 .fellows rfl, State.chipId, State.rd_congr (hframe.1 .regs rfl)]
    exact List.contains_iff_mem.2 hmem
  exact (if_pos ((State.rd_congr (hframe.1 .regs rfl) _).trans hrole)).trans (congrArg Host.Outcome.next (if_pos (.inr hin)))

theorem State.rdBit_enable_freeMsg (i : Nat) : (s.freeMsg i).rdBit .lnkRoleEnable ≠ false :=
  ne_false_of_eq_true (State.rdBit_eq_true ((s.rd_freeMsg i _).trans he))

section
variable (h : s.msgAt i 0x51 = some (n, m)) (hd : m.dst = s.chipId)
include h hd

theorem exec_msgHeartbeat_worker (hrole : s.chipRole = roleManager) (hfrom : bitsAt m.arg 32 8 = roleWorker) :
    exec (.msgHeartbeat i) s = .next ((s.freeMsg i).hear m.src) := by
  have hheard : ((s.freeMsg i).hear m.src).chipRole = roleManager := (s.chipRole_freeMsg i).trans hrole
  show Host.Outcome.next (s.onMsg i 0x51 _) = _
  rw [State.onMsg_here h hd, if_neg (State.rdBit_enable_freeMsg he i), hfrom, if_neg (fun x => absurd x.2 (by decide))]
  dsimp only
  rw [hheard, if_neg (by decide), if_neg (by decide)]

theorem exec_msgHeartbeat_rival (hrole : s.chipRole = roleManager) (hfrom : bitsAt m.arg 32 8 = roleManager) :
    exec (.msgHeartbeat i) s = .next ((s.freeMsg i).rival m.src (bitsAt m.arg 0 32)) := by
  show Host.Outcome.next (s.onMsg i 0x51 _) = _
  rw [State.onMsg_here h hd, if_neg (State.rdBit_enable_freeMsg he i)]
  exact congrArg Host.Outcome.next (if_pos ⟨(s.chipRole_freeMsg i).trans hrole, hfrom⟩)

theorem exec_msgHeartbeat_parent (hrole : s.chipRole = roleWorker) (hfrom : bitsAt m.arg 32 8 = roleManager)
    (hm : s.rd .lnkViewManager = noChip) (hp : m.src = s.rd .lnkRoleParent) : exec (.msgHeartbeat i) s =
      .next ((((s.freeMsg i).hear m.src).wr .lnkViewManager m.src).wr .lnkViewManagerPresent 1) := by
  have hrole' : (s.freeMsg i).chipRole = roleWorker := (s.chipRole_freeMsg i).trans hrole
  have hheard : ((s.freeMsg i).hear m.src).chipRole = roleWorker := hrole'
  have hm' : ((s.freeMsg i).hear m.src).rd .lnkViewManager = noChip := (s.rd_freeMsg i _).trans hm
  have hp' : m.src = ((s.freeMsg i).hear m.src).rd .lnkRoleParent := hp.trans (s.rd_freeMsg i _).symm
  show Host.Outcome.next (s.onMsg i 0x51 _) = _
  rw [State.onMsg_here h hd, if_neg (State.rdBit_enable_freeMsg he i), hrole', if_neg (fun x => absurd x.1 (by decide))]
  dsimp only
  rw [hheard, if_neg (by decide), if_pos ⟨rfl, hfrom⟩, hm', if_pos rfl, if_pos hp']

end

/-! ## JOIN and VIEW (R342) -/

section
variable (h : s.msgAt i 0x52 = some (n, m)) (hd : m.dst = s.chipId)
include h hd

theorem exec_msgJoin_refused (hk : bitsAt m.arg 16 8 = 2) : exec (.msgJoin i) s =
    .next ((s.freeMsg i).raise .lnkJoinRefused unitLink noPart (payload [(16, 2, m.src)])) := by
  show Host.Outcome.next (s.onMsg i 0x52 _) = _
  rw [State.onMsg_here h hd, if_neg (State.rdBit_enable_freeMsg he i)]
  exact congrArg Host.Outcome.next (if_pos hk)

theorem exec_msgJoin_joins (hk : bitsAt m.arg 16 8 = 1) (hrole : s.chipRole = roleManager) (hpod : bitsAt m.arg 0 16 = s.rd .lnkIdentPodId)
    (hroute : (s.freeMsg i).routePorts m.src ≠ []) (hroom : s.fellows.members.length < 64) (hnew : s.fellows.members.contains m.src = false) :
    ∃ v : State, v = ((s.freeMsg i).hear m.src).changeView (insertId m.src s.fellows.members) ∧
      exec (.msgJoin i) s = .next (v.raise .lnkPeerJoined unitLink noPart (v.peerPayload m.src)) := by
  refine ⟨_, rfl, ?_⟩
  show Host.Outcome.next (s.onMsg i 0x52 _) = _
  rw [State.onMsg_here h hd, if_neg (State.rdBit_enable_freeMsg he i), hk, s.fellows_freeMsg, s.chipRole_freeMsg,
    if_neg (by decide), if_neg (not_not_intro hrole), if_pos rfl,
    if_neg (not_or.2 ⟨not_not_intro (hpod.trans (s.rd_freeMsg i _).symm), hroute⟩), if_pos ⟨hroom, hnew⟩]

end

theorem exec_msgView_whole (group : Nat) (c : Bool) (h : s.msgAt i 0x53 = some (n, m)) (hd : m.dst = s.chipId)
    (hk : bitsAt m.arg 32 8 = 0) (hrx : s.fellows.viewRx = []) (hlen : bitsAt m.arg 40 24 ≤ 16 * m.len) :
    ∃ v : State, v.regs = s.regs ∧ exec (.msgView i group c) s = .next (v.podView m.src (bitsAt m.arg 0 32)
      ((List.range (bitsAt m.arg 40 24)).map (fun j => bitsAt m.data (16 * j) 16))) := by
  refine ⟨(s.freeMsg i).modFellows (fun f => { f with viewRx := [] }), (State.freeMsg_frame i).1 .regs rfl, ?_⟩
  show Host.Outcome.next (s.onMsg i 0x53 _) = _
  rw [State.onMsg_here h hd, if_neg (State.rdBit_enable_freeMsg he i), s.fellows_freeMsg, hrx, hk]
  simp [hlen]

/-! ## Peers that are lost (R342) -/

section
variable {chip t0 : Nat} (hh : s.lastHeard chip = some t0)
include hh

theorem exec_peerLostTimeout_member (hrole : s.chipRole = roleManager) (hmem : chip ∈ s.fellows.members) :
    ∃ v : State, v = ((s.setDtime (max s.dtime (t0 + 5500000))).unhear chip).changeView
        (s.fellows.members.filter (fun x => !(decide (x = chip)))) ∧
      exec (.peerLostTimeout chip) s = .next (v.raise .lnkPeerLost unitLink noPart (v.peerPayload chip)) := by
  refine ⟨_, rfl, ?_⟩
  show execPeerLostTimeout chip s = _
  rw [execPeerLostTimeout, hh]
  exact (if_neg (ne_false_of_eq_true (State.rdBit_eq_true he))).trans ((if_pos hrole).trans (if_pos (List.contains_iff_mem.2 hmem)))

theorem exec_peerLostTimeout_manager (hrole : s.chipRole = roleWorker) (hm : s.rd .lnkViewManager = chip)
    (hs : s.rd .lnkRoleStandby ≠ s.chipId) : exec (.peerLostTimeout chip) s =
      .next (((s.setDtime (max s.dtime (t0 + 5500000))).unhear chip).wr .lnkViewManagerPresent 0) := by
  have hkeeps : (((s.setDtime (max s.dtime (t0 + 5500000))).unhear chip).wr .lnkViewManagerPresent 0).managerLost =
      ((s.setDtime (max s.dtime (t0 + 5500000))).unhear chip).wr .lnkViewManagerPresent 0 := by
    refine if_neg ?_
    rw [State.chipId, State.rd_wr_ne _ _ _ _ (.inl (of_decide_eq_true rfl)), State.rd_wr_ne _ _ _ _ (.inl (of_decide_eq_true rfl))]
    exact fun e => hs (of_decide_eq_true e)
  have hrole' : ((s.setDtime (max s.dtime (t0 + 5500000))).unhear chip).chipRole = roleWorker := hrole
  show execPeerLostTimeout chip s = _
  rw [execPeerLostTimeout, hh, ← hkeeps]
  dsimp only
  rw [if_neg (ne_false_of_eq_true (State.rdBit_eq_true he)), hrole', if_neg (by decide), if_neg (by decide)]
  exact if_pos hm

end

end

end


/-- Settles O45: each row's equation gives its next state, from which the port, the view, the offsets and the events are read. -/
theorem membersJoinWatchAndKeepTime : Obligations.MembersJoinWatchAndKeepTime := by
  refine fun s => ⟨fun n chip pod octet pos peer hn h4 h0 => exec_msgHello_answers hn h4 h0, fun tag r h => ?_, fun may off hb hmay h => ?_,
    fun p h hroute => ?_,
    fun i res n m h hd => ⟨fun hk => ?_, fun hk hp => ?_⟩, fun he => ⟨fun p hp hc hrole hmem => ?_,
      fun i n m h hd => ⟨fun hrole hfrom => ?_, fun hrole hfrom hid => ?_, fun hrole hfrom hm hp => ?_⟩,
      fun i n m h hd => ⟨fun hk => ?_, fun hk hrole hpod hroute hroom hnew => ?_⟩,
      fun i n m group c h hd hk hrole hrx hlen hid => ?_, fun chip t0 hh => ⟨fun hrole hmem => ?_, fun hrole hm hs => ?_⟩⟩⟩
  · refine ⟨_, exec_lnkRequestTimeout_found h, State.tags_failReq _ r _, ?_⟩
    rw [State.events_failReq]
    exact State.mem_events_raise ..
  · subst hmay
    exact ⟨_, exec_timeAdjWrite_taken off hb h, s.offsets_offsetIn _⟩
  · exact ⟨_, exec_timeSyncTimer_asks h, State.mem_sendMgt_to rfl hroute⟩
  · have hframe := (s.freeMsg i).sendMgt_frame
    exact ⟨_, exec_msgTime_asked res h hd hk, ((hframe _).1 .inbox rfl).trans (State.inbox_freeMsg (State.msgAt_some h).1), rfl⟩
  · refine ⟨_, exec_msgTime_answered res h hd hk hp, ?_⟩
    rw [State.offsets_offsetIn, s.fellows_freeMsg]
  · intro x hroute
    exact ⟨_, exec_heartbeatTimer_worker he hp hc hrole hmem, State.mem_sendMgt_to rfl hroute⟩
  · refine ⟨_, exec_msgHeartbeat_worker he h hd hrole hfrom, State.inbox_freeMsg (State.msgAt_some h).1, ?_⟩
    rw [State.lastHeard_hear, s.dtime_freeMsg]
  · exact ⟨_, exec_msgHeartbeat_rival he h hd hrole hfrom, State.chipRole_rival ((s.rd_freeMsg i _).trans_lt hid)⟩
  · refine ⟨_, exec_msgHeartbeat_parent he h hd hrole hfrom hm hp, ?_, State.rd_wr_self _ _ _ (of_decide_eq_true rfl)⟩
    rw [State.rd_wr_ne _ _ _ _ (.inr (of_decide_eq_true rfl)), State.rd_wr_self _ _ _ (of_decide_eq_true rfl), hp]
    exact Nat.mod_eq_of_lt (bitsAt_lt ..)
  · exact ⟨_, exec_msgJoin_refused he h hd hk, State.mem_events_raise_code ..⟩
  · obtain ⟨v, rfl, hexec⟩ := exec_msgJoin_joins he h hd hk hrole hpod hroute hroom hnew
    exact ⟨_, hexec, State.members_changeView .., State.mem_events_raise_code ..⟩
  · obtain ⟨v, hregs, hexec⟩ := exec_msgView_whole he group c h hd hk hrx hlen
    exact ⟨_, hexec, State.members_podView ((State.rd_congr hregs _).trans hrole) ((State.rd_congr hregs _).trans_lt hid)⟩
  · obtain ⟨v, rfl, hexec⟩ := exec_peerLostTimeout_member he hh hrole hmem
    exact ⟨_, hexec, State.members_changeView .., State.mem_events_raise_code ..⟩
  · refine ⟨_, exec_peerLostTimeout_manager he hh hrole hm hs, ?_⟩
    exact State.rd_wr_self _ _ _ (of_decide_eq_true rfl)

end Sys2Proof.Machine

/-!
PROOFS. The referee (chapter 14): what the dugout and a full reset keep, the phases of a boot, the faults and the resets (O47).
-/
namespace Sys2Proof.Machine

/-! ## Sparse stores -/

section
variable {α : Type} {d : α} {a : Nat}

theorem Sparse.get_of_unlisted {m : List (Nat × α)} (h : ∀ p ∈ m, p.1 ≠ a) : Sparse.get d m a = d := by
  induction m with
  | nil => rfl
  | cons p m ih => exact (if_neg (h p List.mem_cons_self)).trans (ih fun q hq => h q (List.mem_cons_of_mem p hq))

/-- A filter that lets the values of a key pass, but for what it reads as unlisted, leaves what the key reads as. -/
theorem Sparse.get_filter {q : Nat × α → Bool} (hq : ∀ v, v ≠ d → q (a, v) = true) {m : List (Nat × α)} (h : Sparse.get d m a ≠ d) :
    Sparse.get d (m.filter q) a = Sparse.get d m a := by
  induction m with
  | nil => rfl
  | cons p m ih =>
    obtain ⟨k, v⟩ := p
    by_cases hk : k = a
    · have hv : Sparse.get d ((k, v) :: m) a = v := if_pos hk
      rw [List.filter_cons_of_pos (hk ▸ hq v (hv ▸ h)), hv]
      exact if_pos hk
    · have hv : Sparse.get d ((k, v) :: m) a = Sparse.get d m a := if_neg hk
      rw [hv] at h ⊢
      rw [List.filter_cons]
      split
      · exact (if_neg hk).trans (ih h)
      · exact ih h

theorem Sparse.get_map {f : Nat × α → Nat × α} (hkey : ∀ p, (f p).1 = p.1) (hself : ∀ v, f (a, v) = (a, v)) (m : List (Nat × α)) :
    Sparse.get d (m.map f) a = Sparse.get d m a := by
  induction m with
  | nil => rfl
  | cons p m ih =>
    obtain ⟨k, v⟩ := p
    rw [List.map_cons]
    by_cases hk : k = a
    · rw [hk, hself]
      exact (if_pos rfl).trans (if_pos rfl).symm
    · exact (if_neg ((hkey (k, v)).trans_ne hk)).trans (ih.trans (if_neg hk).symm)

end

section
variable {s : State}

/-! ## What survives (R357, R365) -/

/-- A register below the cores' that is kept, and does not read as after reset. -/
theorem State.reg_bare {keep : Nat → Bool} {a : Nat} (hk : keep a = true) (ha : a < 0x2000000) (h : s.reg a ≠ regReset a) :
    (s.bare keep).reg a = s.reg a := by
  have hkept : Sparse.get (regReset a) (s.regs.filter (fun p => keep p.1)) a = s.reg a := Sparse.get_filter (fun _ _ => hk) h
  have hmapped := (Sparse.get_map (d := regReset a) (a := a) (f := fun p : Nat × Word => if p.1 ≥ 0x2000000 then (p.1, p.2.setField 25 1 0) else p)
    (fun p => by split <;> rfl) (fun v => if_neg (Nat.not_le.2 ha)) (s.regs.filter (fun p => keep p.1))).trans hkept
  exact (Sparse.get_filter (fun v hv => by simp [hv]) (hmapped ▸ h)).trans hmapped

/-- A register that is not kept reads as after reset. -/
theorem State.reg_bare_lost {keep : Nat → Bool} {a : Nat} (hk : keep a = false) : (s.bare keep).reg a = regReset a := by
  refine Sparse.get_of_unlisted fun p hp => ?_
  obtain ⟨q, hq, rfl⟩ := List.mem_map.1 (List.mem_of_mem_filter hp)
  have hkept : keep q.1 = true := (List.mem_filter.1 hq).2
  have hne : q.1 ≠ a := fun e => Bool.false_ne_true (hk.symm.trans (e ▸ hkept))
  split
  · exact hne
  · exact hne

theorem State.stateEvent_frame (s : State) (old : Nat) : Touches (fieldMask [.out, .referee]) s (s.stateEvent old) :=
  State.stateEvent_touches s old (.refl _) (.refl s)

theorem State.rd_stateEvent (s : State) (old : Nat) (f : RF) : (s.stateEvent old).rd f = s.rd f :=
  State.rd_congr ((s.stateEvent_frame old).1 .regs rfl) f

/-! ## The end of a boot (R356) -/

/-- The state after the report of a boot has been written, a boot that ends in phase 0 being counted. -/
def State.bootReported (s : State) (outcome code unit : Nat) : State :=
  let s := if s.referee.durations.isEmpty then s.count (Reg.refCnt 3) 1 else s
  s.setReferee ({ s.referee with report := recordMem 4096 (s.report outcome code unit) })

theorem State.bootEnds_eq (s : State) (outcome code unit : Nat) : let u := s.bootReported outcome code unit
    s.bootEnds outcome code unit = ((u.wr .refReadyBooting 0).wr .refReadyElapsedMs ((u.dtime - u.referee.bootAt) / 1000000)).wr
      .refReadyDegraded (flag (!u.referee.repairs.isEmpty)) := rfl

theorem State.rd_bootReported (s : State) (outcome code unit : Nat) {f : RF} (h : Reg.refCnt 3 ≠ f.reg) :
    (s.bootReported outcome code unit).rd f = s.rd f := by
  rw [State.bootReported, State.rd_setReferee]
  split
  · exact State.rd_count_ne _ _ h
  · rfl

theorem State.mem_events_bootReported {e : Event} (outcome code unit : Nat) (h : e ∈ s.events) :
    e ∈ (s.bootReported outcome code unit).events := by
  rw [State.bootReported, State.events_setReferee]
  split
  · exact State.mem_events_count _ _ _ h
  · exact h

theorem State.rd_bootEnds (s : State) (outcome code unit : Nat) : (s.bootEnds outcome code unit).rd .refReadyBooting = 0 ∧
    (s.bootEnds outcome code unit).rd .refReadyReady = s.rd .refReadyReady := by
  rw [State.bootEnds_eq, ← s.rd_bootReported outcome code unit (f := .refReadyReady) (by decide)]
  generalize s.bootReported outcome code unit = u
  constructor
  · simp (disch := decide) only [State.rd_wr_ne, State.rd_wr_self]
    rfl
  · simp (disch := decide) only [State.rd_wr_ne]

theorem State.mem_events_bootEnds {e : Event} (outcome code unit : Nat) (h : e ∈ s.events) : e ∈ (s.bootEnds outcome code unit).events := by
  rw [State.bootEnds_eq, State.events_wr, State.events_wr, State.events_wr]
  exact State.mem_events_bootReported outcome code unit h

/-! ## The dugout (R357) -/

/-- The device is in the dugout for a cause, and has told of it. -/
def State.InDugout (t : State) (cause : Nat) : Prop :=
  t.rd .refReadyDugout = 1 ∧ t.rd .refReadyReady = 0 ∧ t.rd .refReadyBooting = 0 ∧ t.rd .refDugoutCause = cause ∧ t.mem = [] ∧
    ∃ e ∈ t.events, e.code = if cause = 1 then Code.mgtSelftest.val else Code.mgtDugout.val

/-- The state with REF_READY and REF_DUGOUT as the dugout shows them. -/
def State.dugoutShown (s : State) (code cause detail unit : Nat) : State :=
  (((((((s.wr .refReadyReady 0).wr .refReadyRecovery 0).wr .refReadyBooting 0).wr .refReadyDugout 1).wr .refDugoutCode code).wr
    .refDugoutCause cause).wr .refDugoutDetail detail).wr .refDugoutUnit unit

theorem State.rd_dugoutShown (s : State) (code cause detail unit : Nat) : let t := s.dugoutShown code cause detail unit
    t.rd .refReadyDugout = 1 ∧ t.rd .refReadyReady = 0 ∧ t.rd .refReadyBooting = 0 ∧ t.rd .refDugoutCause = cause % 256 := by
  refine ⟨?_, ?_, ?_, ?_⟩ <;> simp (disch := decide) only [State.dugoutShown, State.rd_wr_ne, State.rd_wr_self] <;> rfl

/-- What the dugout keeps of a state that shows it: REF_READY and REF_DUGOUT, which do not read as after reset. -/
theorem State.reg_dugout_bare {cause : Nat} (hd : s.rd .refReadyDugout = 1) (hc : s.rd .refDugoutCause = cause) (h0 : cause ≠ 0) :
    (s.bare dugoutReg).reg Reg.refReady = s.reg Reg.refReady ∧ (s.bare dugoutReg).reg Reg.refDugout = s.reg Reg.refDugout := by
  constructor
  · refine State.reg_bare (by decide) (by decide) fun e => ?_
    have hreset : s.rd .refReadyDugout = (regReset Reg.refReady).field 1 1 := congrArg (Word.field · 1 1) e
    exact absurd (hd.symm.trans hreset) (by decide)
  · refine State.reg_bare (by decide) (by decide) fun e => h0 ?_
    have hreset : s.rd .refDugoutCause = (regReset Reg.refDugout).field 16 8 := congrArg (Word.field · 16 8) e
    exact hc.symm.trans (hreset.trans (by decide))

/-- The code that tells of the dugout for a cause. -/
def dugoutCode (cause : Nat) : Code := if cause = 1 then Code.mgtSelftest else Code.mgtDugout

/-- The state after the entry into the dugout has been told; then a boot that runs ends. -/
def State.dugoutRaised (s : State) (cause unit phase detail : Nat) : State :=
  if cause = 1 then s.raise (dugoutCode cause) unitReferee noPart (payload [(16, 1, phase), (17, 1, detail), (18, 2, unit)])
  else s.raise (dugoutCode cause) unitReferee noPart (payload [(16, 1, cause), (18, 2, unit)])

def State.dugoutTold (s : State) (cause unit phase detail : Nat) : State :=
  let u := s.dugoutRaised cause unit phase detail
  if u.rdBit .refReadyBooting then u.bootEnds 1 (dugoutCode cause).val unit else u

theorem State.mem_events_dugoutRaised (s : State) (cause unit phase detail : Nat) :
    ∃ e ∈ (s.dugoutRaised cause unit phase detail).events, e.code = (dugoutCode cause).val := by
  unfold State.dugoutRaised
  split
  · exact State.mem_events_raise_code ..
  · exact State.mem_events_raise_code ..

theorem State.mem_events_dugoutTold (s : State) (cause unit phase detail : Nat) : ∃ e ∈ (s.dugoutTold cause unit phase detail).events,
    e.code = if cause = 1 then Code.mgtSelftest.val else Code.mgtDugout.val := by
  obtain ⟨e, hmem, hcode⟩ := s.mem_events_dugoutRaised cause unit phase detail
  refine ⟨e, ?_, hcode.trans (apply_ite Code.val ..)⟩
  unfold State.dugoutTold
  dsimp only
  split
  · exact State.mem_events_bootEnds _ _ _ hmem
  · exact hmem

/-- The state without what lives on the dies, with the referee and the links' power as they stand. -/
def State.dugoutLeft (s : State) (off trip : Bool) : State :=
  let b := s.bare dugoutReg
  let b := (((b.setLowPower s.lowPower).setAtsOn s.atsOn).setMsix s.msix).setMsixCtl s.msixCtl
  ((b.setRings (s.rings.filter (fun p => decide (p.1 = 16)))).setPower s.power).setReferee ({ s.referee with
    attest := [], session := none, staged := [], stagedAt := [], md0Off := off, trip := trip, flr := [], dugoutAt := s.dtime })

theorem State.regs_dugoutLeft (s : State) (off trip : Bool) : (s.dugoutLeft off trip).regs = (s.bare dugoutReg).regs := rfl
theorem State.mem_dugoutLeft (s : State) (off trip : Bool) : (s.dugoutLeft off trip).mem = [] := rfl
theorem State.events_dugoutLeft (s : State) (off trip : Bool) : (s.dugoutLeft off trip).events = s.events := rfl
theorem State.events_dugoutShown (s : State) (code cause detail unit : Nat) : (s.dugoutShown code cause detail unit).events = s.events := by
  rw [State.dugoutShown, State.events_wr, State.events_wr, State.events_wr, State.events_wr, State.events_wr, State.events_wr,
    State.events_wr, State.events_wr]

theorem State.enterDugout_eq (h : s.rd .refReadyDugout = 0) (cause unit phase detail : Nat) : s.enterDugout cause unit phase detail =
    (((s.dugoutTold cause unit phase detail).dugoutShown (dugoutCode cause).val cause (if cause = 1 then detail else 0) unit).dugoutLeft
      (s.referee.md0Off || unitTakesBoot cause unit) (s.referee.trip || decide (cause = 4))).stateEvent s.stateSensor :=
  if_neg (ne_true_of_eq_false (State.rdBit_eq_false h))

theorem State.inDugout_dugoutLeft (hd : s.rd .refReadyDugout = 1) (hr : s.rd .refReadyReady = 0) (hb : s.rd .refReadyBooting = 0) {cause : Nat}
    (hc : s.rd .refDugoutCause = cause) (h0 : cause ≠ 0)
    (htold : ∃ e ∈ s.events, e.code = if cause = 1 then Code.mgtSelftest.val else Code.mgtDugout.val) (off trip : Bool) (old : Nat) :
    ((s.dugoutLeft off trip).stateEvent old).InDugout cause := by
  obtain ⟨hfirst, hsecond⟩ := State.reg_dugout_bare hd hc h0
  have hframe := (s.dugoutLeft off trip).stateEvent_frame old
  have hrd (f : RF) : ((s.dugoutLeft off trip).stateEvent old).rd f = (s.bare dugoutReg).rd f :=
    State.rd_congr ((hframe.1 .regs rfl).trans (s.regs_dugoutLeft off trip)) f
  refine ⟨(hrd _).trans ((congrArg (Word.field · 1 1) hfirst).trans hd), (hrd _).trans ((congrArg (Word.field · 0 1) hfirst).trans hr),
    (hrd _).trans ((congrArg (Word.field · 3 1) hfirst).trans hb), (hrd _).trans ((congrArg (Word.field · 16 8) hsecond).trans hc),
    (hframe.1 .mem rfl).trans (s.mem_dugoutLeft off trip), ?_⟩
  rwa [show ((s.dugoutLeft off trip).stateEvent old).events = s.events from (hframe.1 .events rfl).trans (s.events_dugoutLeft off trip)]

/-- The entry into the dugout: it is told, a boot that runs ends, the registers show it, and what lives on the dies is lost. -/
theorem State.inDugout_enterDugout (h : s.rd .refReadyDugout = 0) {cause : Nat} (h0 : cause ≠ 0) (hlt : cause < 256) (unit phase detail : Nat) :
    (s.enterDugout cause unit phase detail).InDugout cause := by
  have htold := s.mem_events_dugoutTold cause unit phase detail
  rw [State.enterDugout_eq h]
  generalize s.dugoutTold cause unit phase detail = u at htold
  obtain ⟨hdugout, hready, hbooting, hcause⟩ := u.rd_dugoutShown (dugoutCode cause).val cause (if cause = 1 then detail else 0) unit
  exact State.inDugout_dugoutLeft hdugout hready hbooting (hcause.trans (Nat.mod_eq_of_lt hlt)) h0 (by rwa [State.events_dugoutShown]) ..

/-! ## The phases of a boot (R352, Table 14-1) -/

/-- The state after the time of the phase that runs has been written down; phase 0 finds the host rail in regulation (R420). -/
def State.phaseEnded (s : State) : State :=
  if s.rd .refReadyPhase = 0 then s.endPhase.setReferee { s.endPhase.referee with clkreq := true } else s.endPhase

theorem State.rd_endPhase (s : State) {f : RF} (h1 : Reg.refCnt 3 ≠ f.reg) (h2 : Reg.dmaMode ≠ f.reg) : s.endPhase.rd f = s.rd f := by
  unfold State.endPhase
  dsimp only
  split
  · rw [State.rd_wr_ne _ _ _ _ (.inl h2), State.rd_count_ne _ _ h1, State.rd_setReferee]
  · rw [State.rd_setReferee]

theorem State.power_endPhase (s : State) : s.endPhase.referee.power = s.referee.power := by
  unfold State.endPhase
  dsimp only
  split
  · rw [State.referee_wr, State.referee_count, State.referee_setReferee]
  · rw [State.referee_setReferee]

theorem State.dtime_endPhase (s : State) : s.endPhase.dtime = s.dtime := (State.endPhase_touches s (.refl _) (.refl s)).1 .dtime rfl

/-- The end of a phase leaves the boot as it runs. -/
theorem State.phaseEnded_keeps (s : State) : s.phaseEnded.referee.power = s.referee.power ∧ s.phaseEnded.dtime = s.dtime ∧
    ∀ {f : RF}, f.reg = Reg.refReady → s.phaseEnded.rd f = s.rd f := by
  have hrd {f : RF} (hf : f.reg = Reg.refReady) : s.endPhase.rd f = s.rd f := s.rd_endPhase (hf ▸ by decide) (hf ▸ by decide)
  unfold State.phaseEnded
  split
  · rw [State.referee_setReferee, State.dtime_setReferee]
    exact ⟨s.power_endPhase, s.dtime_endPhase, fun hf => (State.rd_setReferee ..).trans (hrd hf)⟩
  · exact ⟨s.power_endPhase, s.dtime_endPhase, hrd⟩

theorem State.inDugout_bootFail (h : s.rd .refReadyDugout = 0) (cause unit : Nat) : (s.bootFail cause unit).InDugout 1 :=
  State.inDugout_enterDugout h (by decide) (by decide) ..

section
variable {l : List BootFinding} {plan : PlanInput} (hb : s.booting = true)
include hb

theorem exec_bootPhaseDone_late (h : s.dtime - s.referee.phaseAt > phaseLimit (s.rd .refReadyPhase) * 1000000) :
    exec (.bootPhaseDone l plan) s = .next (s.phaseEnded.bootFail 7 unitReferee) :=
  (if_neg (ne_false_of_eq_true hb)).trans (if_pos (decide_eq_true h))

theorem exec_bootPhaseDone_inTime (h : s.dtime - s.referee.phaseAt ≤ phaseLimit (s.rd .refReadyPhase) * 1000000) :
    exec (.bootPhaseDone l plan) s = let n := s.rd .refReadyPhase
      let u := s.phaseEnded.bootWork n l plan
      if u.booting = false ∨ n = 7 then .next u else .next ((u.wr .refReadyPhase (n + 1)).setReferee { u.referee with phaseAt := u.dtime }) :=
  (if_neg (ne_false_of_eq_true hb)).trans (if_neg (by simpa using h))

theorem exec_bootPhaseTimeout_fails : exec .bootPhaseTimeout s = .next (((s.setDtime (max s.dtime (s.referee.phaseAt +
    phaseLimit (s.rd .refReadyPhase) * 1000000))).endPhase).bootFail 7 unitReferee) :=
  if_neg (ne_false_of_eq_true hb)

end

/-- The work of a phase other than 4 without findings. -/
theorem State.bootWork_clean {n : Nat} (hn : n ≠ 4) (hd : s.rd .refReadyDugout = 0) (plan : PlanInput) : s.bootWork n [] plan =
    if n = 0 then s.setReferee { s.referee with linkUp := s.referee.released && !s.referee.perst }
    else if n = 1 then s.bootFirmware false else if n = 7 then s.bootReady [] plan else s := by
  unfold State.bootWork
  dsimp only [State.bootFindings, List.foldl_nil]
  rw [if_neg hn, if_neg (show ¬(n = 4 ∧ s.rdBit .refReadyDugout = false) from fun x => hn x.1),
    if_neg (ne_true_of_eq_false (State.rdBit_eq_false hd))]
  rfl

/-- A phase without work of its own changes at most what the referee holds. -/
theorem State.bootWork_quiet {n : Nat} (hn : n ∈ [0, 2, 3, 5, 6]) (hd : s.rd .refReadyDugout = 0) (plan : PlanInput) :
    ∃ r, s.bootWork n [] plan = s.setReferee r ∧ r.power = s.referee.power := by
  simp only [List.mem_cons, List.not_mem_nil, or_false] at hn
  rw [State.bootWork_clean (by omega) hd, if_neg (show ¬ n = 1 by omega), if_neg (show ¬ n = 7 by omega)]
  split
  · exact ⟨_, rfl, rfl⟩
  · exact ⟨s.referee, rfl, rfl⟩

theorem State.rd_burnRevocations (s : State) (l : List BootFinding) {f : RF} (h : Reg.refFw ≠ f.reg) : (s.burnRevocations l).rd f = s.rd f := by
  unfold State.burnRevocations
  refine List.foldlRecOn (motive := fun u : State => u.rd f = s.rd f) _ _ rfl fun u hu k _ => ?_
  split
  · exact hu
  · split
    · exact hu
    · exact (State.rd_wr_ne _ _ _ _ (.inl h)).trans hu

/-- Phase 7 ends with READY, and BOOTING 0. -/
theorem State.rd_bootReady (s : State) (l : List BootFinding) (plan : PlanInput) :
    (s.bootReady l plan).rd .refReadyReady = 1 ∧ (s.bootReady l plan).rd .refReadyBooting = 0 := by
  unfold State.bootReady
  dsimp only
  generalize (s.applyPlan plan 0).wr .dmaModeReadback 0 = u
  obtain ⟨hbooting, hready⟩ := (u.wr .refReadyReady 1).rd_bootEnds 0 0 0
  rw [State.rd_stateEvent, State.rd_stateEvent, State.rd_burnRevocations _ _ (by decide), State.rd_burnRevocations _ _ (by decide), State.rd_raise,
    State.rd_raise]
  exact ⟨hready.trans (State.rd_wr_self _ _ _ (of_decide_eq_true rfl)), hbooting⟩

theorem exec_bootPhaseDone_next (hb : s.booting = true) (hd : s.rd .refReadyDugout = 0) {n : Nat} (hphase : s.rd .refReadyPhase = n)
    (h : s.dtime - s.referee.phaseAt ≤ phaseLimit n * 1000000) (hn : n ∈ [0, 2, 3, 5, 6]) (plan : PlanInput) :
    ∃ t, exec (.bootPhaseDone [] plan) s = .next t ∧ t.rd .refReadyPhase = n + 1 ∧ t.referee.phaseAt = s.dtime := by
  obtain ⟨hpower, hdtime, hrd⟩ := s.phaseEnded_keeps
  obtain ⟨r, hwork, hr⟩ := State.bootWork_quiet hn ((hrd rfl).trans hd) plan
  have hexec := exec_bootPhaseDone_inTime (l := []) (plan := plan) hb (hphase ▸ h)
  have hgoes : ((s.phaseEnded.setReferee r).booting = false ∨ n = 7) → False := by
    rintro (hstop | rfl)
    · have hsame : (s.phaseEnded.setReferee r).booting = s.booting := by
        rw [State.booting, State.booting, State.referee_setReferee, hr, hpower, State.rdBit, State.rdBit, State.rd_setReferee, hrd rfl]
      exact Bool.false_ne_true (hstop.symm.trans (hsame.trans hb))
    · revert hn
      decide
  rw [hphase] at hexec
  dsimp only at hexec
  rw [hwork, if_neg hgoes] at hexec
  refine ⟨_, hexec, ?_, hdtime⟩
  rw [State.rd_setReferee, State.rd_wr_self _ _ _ (of_decide_eq_true rfl)]
  refine Nat.mod_eq_of_lt ?_
  simp only [List.mem_cons, List.not_mem_nil, or_false] at hn
  show n + 1 < 8
  omega

theorem exec_bootPhaseDone_ready (hb : s.booting = true) (hd : s.rd .refReadyDugout = 0) (hphase : s.rd .refReadyPhase = 7)
    (h : s.dtime - s.referee.phaseAt ≤ phaseLimit 7 * 1000000) (plan : PlanInput) :
    exec (.bootPhaseDone [] plan) s = .next (s.phaseEnded.bootReady [] plan) := by
  obtain ⟨-, -, hrd⟩ := s.phaseEnded_keeps
  have hwork : s.phaseEnded.bootWork 7 [] plan = s.phaseEnded.bootReady [] plan := by
    rw [State.bootWork_clean (by decide) ((hrd rfl).trans hd), if_neg (by decide), if_neg (by decide), if_pos rfl]
  have hexec := exec_bootPhaseDone_inTime (l := []) (plan := plan) hb (hphase ▸ h)
  rw [hphase] at hexec
  dsimp only at hexec
  rw [hwork, if_pos (.inr rfl)] at hexec
  exact hexec

/-- The time of a phase has passed. -/
theorem exec_bootPhaseTimeout_inDugout (hb : s.booting = true) (hd : s.rd .refReadyDugout = 0) :
    ∃ t, exec .bootPhaseTimeout s = .next t ∧ t.InDugout 1 := by
  refine ⟨_, exec_bootPhaseTimeout_fails hb, State.inDugout_bootFail ?_ ..⟩
  rw [State.rd_endPhase _ (by decide) (by decide), State.rd_setDtime]
  exact hd

/-! ## Faults (R351, R357, R382, R392) -/

section
variable (hp : s.referee.power = true)
include hp

theorem exec_watchdogExpiry_idle (hw : s.referee.writing = false) (hr : s.referee.resetDue = none) :
    exec .watchdogExpiry s = .next (s.enterDugout 2 unitReferee 0 0) := by
  show execWatchdogExpiry s = _
  rw [execWatchdogExpiry, if_neg (ne_false_of_eq_true hp), hw, hr]
  rfl

theorem exec_refereeSramError_double (a : Nat) : exec (.refereeSramError true a) s = .next (s.enterDugout 3 unitReferee 0 0) :=
  if_neg (ne_false_of_eq_true hp)

theorem exec_refereeSramError_single (a : Nat) : exec (.refereeSramError false a) s =
    .next ((s.count (Reg.refCnt 0) 1).raise .mgtRefCorrected unitReferee noPart (payload [(16, 4, a)])) :=
  (if_neg (ne_false_of_eq_true hp)).trans (if_neg Bool.noConfusion)

theorem exec_thermalTrip_trips (hd : s.rd .refReadyDugout = 0) {k : Nat} {x : Int × Int} {r : Int} (hx : throttleOf k = some x)
    (hr : r ≥ 16 * x.2) : exec (.thermalTrip k r) s = .next (s.enterDugout 4 (sensorUnit k) 0 0) := by
  have htripped : s.tripped k = s.enterDugout 4 (sensorUnit k) 0 0 := if_neg fun h =>
    Bool.false_ne_true ((State.rdBit_eq_false hd).symm.trans h.1)
  show execThermalTrip k r s = _
  rw [execThermalTrip, hx]
  exact (if_neg (not_or.2 ⟨ne_false_of_eq_true hp, Int.not_lt.2 hr⟩)).trans (congrArg Host.Outcome.next htripped)

theorem exec_railFault_enters (u : Nat) : exec (.railFault u) s = .next (s.enterDugout 5 u 0 0) :=
  congrArg Host.Outcome.next (if_pos hp)

theorem exec_refRailsOff_enters : exec (.refRailsOff 0xB9) s = .next (s.enterDugout 6 unitReferee 0 0) :=
  congrArg Host.Outcome.next (if_pos ⟨hp, rfl⟩)

theorem exec_uncorrectableControlState_enters (u : Nat) : exec (.uncorrectableControlState u) s = .next (s.enterDugout 7 u 0 0) :=
  congrArg Host.Outcome.next (if_pos hp)

end

/-! ## Resets (R361, R365, R421) -/

/-- The boot has begun again after a reset of a source. -/
def State.Rebooted (t : State) (source : Nat) : Prop :=
  t.rd .refReadyBooting = 1 ∧ t.rd .refReadyReady = 0 ∧ t.rd .refReadyPhase = 0 ∧ t.mem = [] ∧
    ∃ e ∈ t.events, e.code = Code.mgtReset.val ∧ e.payload = payload [(16, 1, source)]

/-- The state that a full reset leaves of one that has told of it. -/
def State.resetLeft (s : State) : State :=
  (((s.bare resetReg).wr .refFwSvn 0).wr .refFwSlot 0xFF).wr .refReadyFlagged (s.rd .refReadyFlagged)

/-- REF_READY is as after reset but for FLAGGED. -/
theorem State.rd_resetLeft (s : State) : s.resetLeft.rd .refReadyBooting = 1 ∧ s.resetLeft.rd .refReadyReady = 0 ∧
    s.resetLeft.rd .refReadyPhase = 0 := by
  have hreset : (s.bare resetReg).reg Reg.refReady = regReset Reg.refReady := State.reg_bare_lost (by decide)
  unfold State.resetLeft
  generalize s.bare resetReg = b at hreset
  refine ⟨?_, ?_, ?_⟩ <;> simp (disch := decide) only [State.rd_wr_ne]
  · exact (congrArg (Word.field · 3 1) hreset).trans (by decide)
  · exact (congrArg (Word.field · 0 1) hreset).trans (by decide)
  · exact (congrArg (Word.field · 4 3) hreset).trans (by decide)

theorem State.mem_resetLeft (s : State) : s.resetLeft.mem = [] := by
  rw [State.resetLeft, State.mem_wr, State.mem_wr, State.mem_wr]
  rfl

theorem State.events_resetLeft (s : State) : s.resetLeft.events = s.events := by
  rw [State.resetLeft, State.events_wr, State.events_wr, State.events_wr]
  rfl

/-- A reset that has been told leaves the boot begun again. -/
theorem State.rebooted_resetLeft {source : Nat} (h : ∃ e ∈ s.events, e.code = Code.mgtReset.val ∧ e.payload = payload [(16, 1, source)])
    (r : Referee) (old : Nat) : ((s.resetLeft.setReferee r).stateEvent old).Rebooted source := by
  obtain ⟨hbooting, hready, hphase⟩ := s.rd_resetLeft
  have hframe := (s.resetLeft.setReferee r).stateEvent_frame old
  have hrd (f : RF) : ((s.resetLeft.setReferee r).stateEvent old).rd f = s.resetLeft.rd f :=
    (State.rd_stateEvent ..).trans (State.rd_setReferee ..)
  have hmem : ((s.resetLeft.setReferee r).stateEvent old).mem = (s.resetLeft.setReferee r).mem := hframe.1 .mem rfl
  refine ⟨(hrd _).trans hbooting, (hrd _).trans hready, (hrd _).trans hphase, by rw [hmem, State.mem_setReferee, State.mem_resetLeft], ?_⟩
  have hevents : ((s.resetLeft.setReferee r).stateEvent old).events = (s.resetLeft.setReferee r).events := hframe.1 .events rfl
  rwa [hevents, State.events_setReferee, State.events_resetLeft]

theorem State.rebooted_fullReset (hw : s.referee.writing = false) (source : Nat) : (s.fullReset source).Rebooted source := by
  unfold State.fullReset
  rw [if_neg (ne_true_of_eq_false hw)]
  dsimp only
  generalize State.mappedOut _ 2 0xFF _ = v
  exact State.rebooted_resetLeft (State.mem_events_raise ..) _ _

theorem exec_refFullReset_resets (hp : s.referee.power = true) : exec (.refFullReset 0xB9) s = .next (s.fullReset 0) :=
  congrArg Host.Outcome.next (if_pos ⟨hp, rfl⟩)

/-! ## Power good and PERST_N (R32, R352, R421) -/

/-- The referee's state at power good. -/
def State.poweredUp (s : State) (slot : Nat) (low : Bool) : State :=
  (s.setDtime 0).setReferee { s.referee with
    power := true, bootAt := 0, phaseAt := 0, slotId := slot % 32, perst := low, released := !low }

theorem exec_refereePowerGood_powers (he : s.referee.entry = true) (hp : s.referee.power = false) (slot : Nat) (low : Bool) :
    exec (.refereePowerGood slot low) s = .next (s.poweredUp slot low) :=
  if_neg (not_or.2 ⟨ne_false_of_eq_true he, ne_true_of_eq_false hp⟩)

section
variable (hl : s.referee.perst = false) (fails : List (Nat × Nat))
include hl

theorem exec_perstAssert_unpowered (hp : s.referee.power = false) :
    exec (.perstAssert fails) s = .next (s.setReferee { s.referee with perst := true }) :=
  (if_neg (ne_true_of_eq_false hl)).trans (if_pos (.inl hp))

theorem exec_perstAssert_full (hp : s.referee.power = true) (hr : s.referee.released = true) (hf : s.rd .refCtrlPerstFull = 1) :
    exec (.perstAssert fails) s = .next ((s.setReferee { s.referee with perst := true }).fullReset 3) :=
  (if_neg (ne_true_of_eq_false hl)).trans ((if_neg (not_or.2 ⟨ne_false_of_eq_true hp, ne_false_of_eq_true hr⟩)).trans
    (if_pos (decide_eq_true hf)))

end

theorem exec_perstRelease_rises (hl : s.referee.perst = true) : exec .perstRelease s = .next (s.setReferee { s.referee with
    perst := false, released := s.referee.power || s.referee.released,
    linkUp := s.referee.power && !(s.rdBit .refReadyBooting && decide (s.rd .refReadyPhase = 0)) }) :=
  if_neg (ne_false_of_eq_true hl)

/-! ## The end of a boot-area write (R369) -/

/-- The state after the write of the boot area has ended. -/
def State.bootAreaWritten (s : State) (ok : Bool) : State :=
  let u := s.setReferee { s.referee with
    writing := false, endPath := none, resetDue := none, image := (if ok then s.referee.staged else []) }
  if ok then u else u.imageInvalid 10

theorem exec_bootAreaWriteDone_unanswered (hw : s.referee.writing = true) (hr : s.referee.resetDue = none)
    (he : s.referee.endPath = none) (ok : Bool) : exec (.bootAreaWriteDone ok) s = .next (s.bootAreaWritten ok) := by
  show execBootAreaWriteDone ok s = _
  rw [execBootAreaWriteDone, if_neg (ne_false_of_eq_true hw), hr, he]
  rfl

theorem State.bootAreaWritten_leaves (s : State) (ok : Bool) : (s.bootAreaWritten ok).referee.writing = false ∧
    (s.bootAreaWritten ok).referee.image = if ok then s.referee.staged else [] := by
  cases ok with
  | true => exact ⟨rfl, rfl⟩
  | false =>
    have hsame (u : State) : (u.imageInvalid 10).referee = u.referee := (State.imageInvalid_touches u 10 (.refl _) (.refl u)).1 .referee rfl
    exact ⟨congrArg Referee.writing (hsame _), congrArg Referee.image (hsame _)⟩

end

/-- Settles O47, from what the referee keeps of the registers when it enters the dugout and when it begins the boot again. -/
theorem bootsDugoutsAndResetsComplete : Obligations.BootsDugoutsAndResetsComplete := by
  unfold Obligations.BootsDugoutsAndResetsComplete
  intro s _ _
  refine ⟨fun slot low he hp => ⟨_, exec_refereePowerGood_powers he hp slot low, rfl, rfl, rfl, rfl⟩, fun hb hd => ?boot, fun hp hd => ?faults,
    fun hp hw => ?resets, fun l hl hp => ⟨_, exec_perstAssert_unpowered hl l hp, rfl, rfl⟩,
    fun hl => ⟨_, exec_perstRelease_rises hl, rfl, rfl⟩,
    fun ok hw hr he => ⟨_, exec_bootAreaWriteDone_unanswered hw hr he ok, s.bootAreaWritten_leaves ok⟩⟩
  case boot =>
    refine ⟨fun h => ⟨fun hn plan => exec_bootPhaseDone_next hb hd rfl h hn plan, fun hn plan => ?_⟩, fun h l plan => ?_,
      exec_bootPhaseTimeout_inDugout hb hd⟩
    · exact ⟨_, exec_bootPhaseDone_ready hb hd hn (hn ▸ h) plan, State.rd_bootReady ..⟩
    · obtain ⟨-, -, hkeeps⟩ := s.phaseEnded_keeps
      exact ⟨_, exec_bootPhaseDone_late hb h, State.inDugout_bootFail ((hkeeps rfl).trans hd) ..⟩
  case faults =>
    have henter {c : Nat} (h0 : c ≠ 0) (hlt : c < 256) (u : Nat) : (s.enterDugout c u 0 0).InDugout c :=
      State.inDugout_enterDugout hd h0 hlt ..
    exact ⟨fun hw hr => ⟨_, exec_watchdogExpiry_idle hp hw hr, henter (by decide) (by decide) _⟩,
      fun a => ⟨⟨_, exec_refereeSramError_double hp a, henter (by decide) (by decide) _⟩,
        ⟨_, exec_refereeSramError_single hp a, State.mem_events_raise ..⟩⟩,
      fun k x r hx hr => ⟨_, exec_thermalTrip_trips hp hd hx hr, henter (by decide) (by decide) _⟩,
      fun u => ⟨_, exec_railFault_enters hp u, henter (by decide) (by decide) _⟩,
      ⟨_, exec_refRailsOff_enters hp, henter (by decide) (by decide) _⟩,
      fun u => ⟨_, exec_uncorrectableControlState_enters hp u, henter (by decide) (by decide) _⟩⟩
  case resets =>
    exact ⟨⟨_, exec_refFullReset_resets hp, State.rebooted_fullReset hw 0⟩,
      fun l hl hr hf => ⟨_, exec_perstAssert_full hl l hp hr hf,
        State.rebooted_fullReset (s := s.setReferee { s.referee with perst := true }) hw 3⟩⟩

end Sys2Proof.Machine
